-- ==== Sys2Proof/Word.lean ====
section
/-!
DEFINITION. Word.lean: the word types of the hub. Registers are 32 bits wide (R2); memory is byte addressed.
-/

namespace Sys2Proof

/-- One BAR0 register word (R2). -/
abbrev Word := BitVec 32

/-- One byte of sample memory, of a frame or of a flash image. -/
abbrev Byte := BitVec 8

/-- A 64-bit value that occupies two registers (R2). -/
abbrev Word64 := BitVec 64

end Sys2Proof
end

