-- ==== Sys2Proof/Syntax.lean ====
section
/-!
DEFINITION. Syntax.lean: the commands and events of the hub, one constructor per row of spec/opcode_table.json in the
table's order, and the types of their operands. A row that is an access carries the identity that makes it; a row that is
an event carries what the environment decides about it (the bytes received, the outcome of a check, the instant within a
tick).
-/

namespace Sys2Proof

/-- The identities of spec/01_architecture.md, numbers 1 to 8. -/
inductive Ident where
  | host0 | host1 | netm | dbg | upd | cals | snta | pwrc
deriving DecidableEq, Repr

/-- What a BAR0 write request carries (R338): one DW, two DWs at an 8-byte-aligned address, or a request of another size
or with other byte enables. -/
inductive BarWrite where
  | dw (v : Word) | two (lo hi : Word) | bad
deriving DecidableEq, Repr

/-- The size of a BAR0 read request (R338). -/
inductive BarRead where
  | dw | two | bad
deriving DecidableEq, Repr

/-- What the hub's DMA reads return for one descriptor of a host-filled ring: the descriptor's bytes, for a TX descriptor the
bytes of the buffer it names and for a job descriptor those of a source in host memory, and whether a completion error or poisoned data met the read (R350). -/
structure RingIn where
  desc : List Byte
  data : List Byte
  bad  : Bool
deriving DecidableEq, Repr


/-- The commands of the opcode table. -/
inductive Instr where
  /-- REGISTER_WRITE (R341). -/
  | registerWrite (id : Ident) (off : Nat) (req : BarWrite)
  /-- SNAPSHOT_READ (R38). -/
  | snapshotRead (id : Ident) (off : Nat) (req : BarRead)
  /-- RC_READ (R3). -/
  | rcRead (id : Ident) (off : Nat)
  /-- INCR_COMMIT (R35). -/
  | incrCommit (id : Ident) (hi : Word)
  /-- INCR_REBASE (R35). -/
  | incrRebase
  /-- STEP_COMMIT (R36). -/
  | stepCommit (id : Ident) (hi : Word)
  /-- STEP_APPLIED (R48). -/
  | stepApplied
  /-- TCU_ARM (R44). -/
  | tcuArm (id : Ident) (n : Fin 16) (ctrl : Word)
  /-- TCU_DISARM (R42). -/
  | tcuDisarm (id : Ident) (n : Fin 16) (ctrl : Word)
  /-- TCU_QUALIFY_LOAD (R44). -/
  | tcuQualifyLoad (n : Fin 16)
  /-- TCU_DECISION (R41). -/
  | tcuDecision (n : Fin 16)
  /-- TCU_EDGE_LAUNCH (R41). -/
  | tcuEdgeLaunch (n : Fin 16)
  /-- TPO_TRAILING_EDGE (R46). -/
  | tpoTrailingEdge (o : Fin 8)
  /-- TCI_STAMP (R49). -/
  | tciStamp (u : Fin 5) (rise : Bool) (f : Fin 128)
  /-- ANCHOR_MEASUREMENT (R50). -/
  | anchorMeasurement (tdc : Nat) (tickTdc : Nat)
  /-- TB_LOAD (R52). -/
  | tbLoad (id : Ident) (n : Fin 4) (v : Word)
  /-- POWER_UP (R382). -/
  | powerUp (glitches : List Nat)
  /-- REFORM_REQUEST (R72). -/
  | reformRequest (id : Ident) (v : Word)
  /-- REFORM_CHECK_PASS_END (R73). -/
  | reformCheckPassEnd (glitches : List Nat) (container : List Byte)
  /-- REFORM_LOAD_PASS (R74). -/
  | reformLoadPass
  /-- PLL_COMMIT (R84). -/
  | pllCommit (id : Ident) (v : Word)
  /-- PLL_LOCKED (R84). -/
  | pllLocked
  /-- CLK_UNLOCK (R85). -/
  | clkUnlock
  /-- HOLDOVER (R86). -/
  | holdover
  /-- HOLDOVER_EXIT (R86). -/
  | holdoverExit
  /-- QUADRANT_POWER_OFF (R88). -/
  | quadrantPowerOff (id : Ident) (q : Fin 4)
  /-- QUADRANT_POWER_ON (R88). -/
  | quadrantPowerOn (id : Ident) (q : Fin 4)
  /-- QUADRANT_ON (R116). -/
  | quadrantOn (q : Fin 4)
  /-- RUN_ARM (R90). -/
  | runArm (id : Ident)
  /-- RUN_DISARM (R94). -/
  | runDisarm (id : Ident)
  /-- HOST_START (R91). -/
  | hostStart (id : Ident)
  /-- HOST_STOP (R96). -/
  | hostStop (id : Ident)
  /-- STOP_AT_SN (R97). -/
  | stopAtSn (id : Ident)
  /-- SN_ZERO (R92). -/
  | snZero (tdc : Nat) (tickTdc : Nat)
  /-- S_STOP_REACHED (R98). -/
  | sStopReached
  /-- SYNC_IN_LEADING_EDGE (R99). -/
  | syncInLeadingEdge (f : Fin 128)
  /-- SYNC_IN_TRAILING_EDGE (R99). -/
  | syncInTrailingEdge
  /-- SYNC_IN_QUALIFY (R100). -/
  | syncInQualify
  /-- SYNC_MALFORMED (R99). -/
  | syncMalformed
  /-- CALRUN (R104). -/
  | calrun (id : Ident)
  /-- CALRUN_COMMIT (R108). -/
  | calrunCommit (outcomes : List Nat)
  /-- CAL_DONE (R107). -/
  | calDone
  /-- CAL_ABORT (R107). -/
  | calAbort (id : Ident)
  /-- CALSAVE_SUBMIT (R114). -/
  | calsaveSubmit (id : Ident)
  /-- CALSAVE_COMMIT (R114). -/
  | calsaveCommit (failures : Nat)
  /-- SWEEP_START (R118). -/
  | sweepStart (g : Fin 16)
  /-- CAL_HANDOVER (R119). -/
  | calHandover (g : Fin 16) (ok : Bool)
  /-- CALIBRATE_END (R126). -/
  | calibrateEnd (g : Fin 16) (offsetOk gainOk stageOk : Bool)
  /-- CAL_HANDBACK (R119). -/
  | calHandback (g : Fin 16)
  /-- GLIDE_END (R121). -/
  | glideEnd (g : Fin 16)
  /-- SPARE_CALIBRATION_END (R122). -/
  | spareCalibrationEnd (g : Fin 16) (ok : Bool)
  /-- ACTIVITY_RESUME (R412). -/
  | activityResume
  /-- DELAY_NOW (R145). -/
  | delayNow (id : Ident) (c : Fin 256)
  /-- ALIGN_TERM_UPDATE (R148). -/
  | alignTermUpdate
  /-- SETTLE_END (R172). -/
  | settleEnd (c : Fin 256)
  /-- BANK_COPY (R183). -/
  | bankCopy (id : Ident)
  /-- COPY_END (R183). -/
  | copyEnd
  /-- TRIGIN_EDGE (R192). -/
  | triginEdge (n : Fin 4) (rise : Bool) (f : Nat)
  /-- TRG_FORCE (R190). -/
  | trgForce (id : Ident) (n : Fin 8)
  /-- TRIGGER_DECISION (R193). -/
  | triggerDecision
  /-- PREFILL_END (R194). -/
  | prefillEnd (n : Fin 8)
  /-- HOLDOFF_END (R195). -/
  | holdoffEnd (n : Fin 8)
  /-- TRIGOUT_LEADING_EDGE (R203). -/
  | trigoutLeadingEdge (n : Fin 4)
  /-- TRIGOUT_PULSE_END (R203). -/
  | trigoutPulseEnd (n : Fin 4)
  /-- TRG_APPLY_NOW (R206). -/
  | trgApplyNow (id : Ident)
  /-- HOST_WINDOW_ACCESS (R223). -/
  | hostWindowAccess (id : Ident) (off : Nat) (data : Option (List (Option Byte))) (len : Nat)
  /-- SCRUB_PASS_START (R222). -/
  | scrubPassStart
  /-- SCRUB_PASS_END (R222). -/
  | scrubPassEnd
  /-- FRAME_BUILD (R281). -/
  | frameBuild (strm : Fin 64)
  /-- FRAME_TRANSMIT (R238). -/
  | frameTransmit (p : Fin 4)
  /-- FRAME_DELIVERED (R22). -/
  | frameDelivered (p : Fin 4)
  /-- EVENT_RECORD (R241). -/
  | eventRecord
  /-- EVENT_RING_WRITE (R354). -/
  | eventRingWrite (f : Fin 2)
  /-- EQ_READ (R244). -/
  | eqRead (id : Ident) (n : Fin 3)
  /-- WQ_FLUSH (R245). -/
  | wqFlush (id : Ident) (n : Fin 512)
  /-- FQ_FLUSH (R246). -/
  | fqFlush (id : Ident) (n : Fin 16)
  /-- EQ_FLUSH (R245). -/
  | eqFlush (id : Ident) (n : Fin 3)
  /-- DISCARD_END (R248). -/
  | discardEnd (n : Fin 512)
  /-- HOST_JOB_START (R256). -/
  | hostJobStart (f : Fin 2)
  /-- SNT_COMPRESS (R258). -/
  | sntCompress (f : Fin 2)
  /-- SNT_INFLATE (R274). -/
  | sntInflate (f : Fin 2)
  /-- SNT_RESUME (R271). -/
  | sntResume (f : Fin 2)
  /-- SNT_RELEASE (R269). -/
  | sntRelease (f : Fin 2)
  /-- JOB_STEP_COMPLETE (R269). -/
  | jobStepComplete (lane : Fin 5)
  /-- SNT_ABORT (R273). -/
  | sntAbort (id : Ident) (v : Word)
  /-- CAPTURE_JOB_START (R264). -/
  | captureJobStart
  /-- HUB_JOB_COMPLETE (R266). -/
  | hubJobComplete (lane : Fin 5)
  /-- GEYSER_PACKET_BUILD (R296). -/
  | geyserPacketBuild (strm : Fin 64)
  /-- FUMAROLE_PACKET_BUILD (R300). -/
  | fumarolePacketBuild
  /-- END_PACKET (R290). -/
  | endPacket (strm : Fin 64)
  /-- FAILBACK (R303). -/
  | failback (id : Ident) (strm : Fin 64)
  /-- FAILBACK_TAKES_EFFECT (R303). -/
  | failbackTakesEffect (strm : Fin 64)
  /-- DRAIN_TIMEOUT (R304). -/
  | drainTimeout (strm : Fin 64)
  /-- LINK_UP (R308). -/
  | linkUp (p : Fin 4)
  /-- LINK_DOWN (R308). -/
  | linkDown (ports : List (Fin 4)) (why : Fin 3)
  /-- TRAINING_COMPLETE (R309). -/
  | trainingComplete (p : Fin 4) (ok : Bool)
  /-- PORT_RESTART (R309). -/
  | portRestart (id : Ident) (p : Fin 4)
  /-- SERDES_READAPT (R310). -/
  | serdesReadapt (id : Ident) (p : Fin 4)
  /-- READAPT_DONE (R310). -/
  | readaptDone (p : Fin 4)
  /-- FRAME_RECEIVE (R316). -/
  | frameReceive (p : Fin 4) (sub : Fin 65536) (bytes : List Byte)
  /-- HOST_FRAME_TRANSMIT (R315). -/
  | hostFrameTransmit (f : Fin 2) (p : Fin 4) (sub : Fin 65536) (cut : Bool)
  /-- HOST_FRAME_PROMOTION (R314). -/
  | hostFramePromotion (p : Fin 4)
  /-- PD_MEASUREMENT (R322). -/
  | pdMeasurement (p : Fin 4)
  /-- SUSPECT_SET (R324). -/
  | suspectSet (id : Ident)
  /-- SUSPECT_ACK (R324). -/
  | suspectAck (id : Ident)
  /-- DAMUF_READ (R327). -/
  | damufRead
  /-- DAMUF_WRITE (R327). -/
  | damufWrite
  /-- DAMUF_CAPS (R301). -/
  | damufCaps
  /-- DAMUF_OPEN (R391). -/
  | damufOpen
  /-- DAMUF_DATA (R392). -/
  | damufData
  /-- DAMUF_ACTIVATE (R397). -/
  | damufActivate
  /-- DAMUF_ABORT (R394). -/
  | damufAbort
  /-- DAMUF_STATUS (R393). -/
  | damufStatus
  /-- DAMUF_CONFIRM (R399). -/
  | damufConfirm
  /-- DAMUF_REJECT (R402). -/
  | damufReject
  /-- DAMUF_CLOSE (R394). -/
  | damufClose
  /-- APPLY_ARM (R345). -/
  | applyArm (id : Ident)
  /-- APPLY_CHECK_DONE (R70). -/
  | applyCheckDone
  /-- APPLY_LANDING (R346). -/
  | applyLanding
  /-- APPLY_DISARM (R345). -/
  | applyDisarm (id : Ident)
  /-- FENCE (R343). -/
  | fence (id : Ident) (token : BitVec 16)
  /-- FENCE_DONE (R343). -/
  | fenceDone (id : Ident)
  /-- FUNCTION_LEVEL_RESET (R337). -/
  | functionLevelReset (f : Fin 2)
  /-- RING_ENABLE (R350). -/
  | ringEnable (id : Ident) (f : Fin 2) (r : Fin 10) (v : Word) (entries : List RingIn)
  /-- RING_DISABLE (R350). -/
  | ringDisable (id : Ident) (f : Fin 2) (r : Fin 10) (v : Word)
  /-- RING_PI_WRITE (R350). -/
  | ringPiWrite (id : Ident) (f : Fin 2) (r : Fin 9) (pi : Word) (entries : List RingIn)
  /-- EVENT_RING_CI_WRITE (R350). -/
  | eventRingCiWrite (id : Ident) (f : Fin 2) (ci : Word)
  /-- MSIX_MODERATION_EXPIRY (R355). -/
  | msixModerationExpiry (f : Fin 2) (r : Fin 10)
  /-- MSIX_UNMASK (R362). -/
  | msixUnmask (id : Ident) (f : Fin 2) (vec : Fin 64)
  /-- MBX_COMPOSE_WRITE (R360). -/
  | mbxComposeWrite (id : Ident) (n : Fin 24) (word : Fin 17) (v : Word)
  /-- MBX_RING (R361). -/
  | mbxRing (id : Ident) (n : Fin 24)
  /-- MBX_ABANDON (R360). -/
  | mbxAbandon (id : Ident) (n : Fin 24)
  /-- MBX_ACK (R364). -/
  | mbxAck (id : Ident) (n : Fin 24) (result : Word)
  /-- LOCK_READ (R365). -/
  | lockRead (id : Ident) (n : Fin 16)
  /-- LOCK_RELEASE (R365). -/
  | lockRelease (id : Ident) (n : Fin 16) (v : Word)
  /-- IDENTITY_LEAVES_RESET (R369). -/
  | identityLeavesReset (id : Ident)
  /-- PCIE_LINK_UP (R363). -/
  | pcieLinkUp
  /-- DOMAIN_IDLE (R373). -/
  | domainIdle (d : Fin 14)
  /-- DOMAIN_WAKE (R374). -/
  | domainWake (d : Fin 14)
  /-- DOMAIN_ON (R374). -/
  | domainOn (d : Fin 14)
  /-- DOMAIN_RESET (R375). -/
  | domainReset (id : Ident) (d : Fin 14)
  /-- BLOCK_SOFT_RESET (R376). -/
  | blockSoftReset (id : Ident) (v : Word)
  /-- WARM_RESET (R376). -/
  | warmReset (cause : Nat)
  /-- SOFTWARE_WARM_RESET (R375). -/
  | softwareWarmReset (id : Ident) (v : Word)
  /-- COLD_RESET (R376). -/
  | coldReset (por : Bool)
  /-- SETSAVE_SUBMIT (R381). -/
  | setsaveSubmit (id : Ident)
  /-- SAVE_INTERVAL_EXPIRY (R381). -/
  | saveIntervalExpiry
  /-- SETSAVE_COMMIT (R381). -/
  | setsaveCommit (failures : Nat)
  /-- ACTIVITY_ADMIT (R410). -/
  | activityAdmit
  /-- UPD_SESSION_OPEN (R391). -/
  | updSessionOpen (id : Ident)
  /-- UPD_SESSION_CLOSE (R391). -/
  | updSessionClose (id : Ident) (v : Word)
  /-- UPD_START (R392). -/
  | updStart (id : Ident) (container : List Byte) (bad : Option Nat)
  /-- UPD_DATA (R392). -/
  | updData (id : Ident) (v : Word)
  /-- SECTION_COMPLETE (R394). -/
  | sectionComplete (again : Option (List Byte))
  /-- SECTION_WRITE_DONE (R395). -/
  | sectionWriteDone (failures : Nat)
  /-- UPD_CHECK_DONE (R394). -/
  | updCheckDone
  /-- UPD_TIMEOUT (R394). -/
  | updTimeout
  /-- UPD_ACTIVATE (R398). -/
  | updActivate (id : Ident)
  /-- UPD_ABORT (R394). -/
  | updAbort (id : Ident)
  /-- UPD_CONFIRM (R399). -/
  | updConfirm (id : Ident) (v : Word)
  /-- UPD_REJECT (R402). -/
  | updReject (id : Ident) (v : Word)
  /-- HEALTH_EVALUATION (R400). -/
  | healthEvaluation
  /-- TRIAL_COMMIT (R401). -/
  | trialCommit
  /-- HEALTH_WINDOW_EXPIRY (R402). -/
  | healthWindowExpiry
  /-- TAP_RESET (R368). -/
  | tapReset
  /-- BYPASS (R422). -/
  | bypass (scanIn : List Bool)
  /-- IDCODE (R422). -/
  | idcode
  /-- SAMPLE_PRELOAD (R422). -/
  | samplePreload (scanIn : List Bool)
  /-- EXTEST (R423). -/
  | extest (scanIn : List Bool)
  /-- DAU_ACCESS (R424). -/
  | dauAccess (dr : Nat)
  /-- UNLOCK_CHAL (R430). -/
  | unlockChal
  /-- UNLOCK_RESP (R430). -/
  | unlockResp (key : List Byte) (sig : List Byte)
  /-- DEBUG_UNLOCK (R430). -/
  | debugUnlock
  /-- HALT_REQUEST (R425). -/
  | haltRequest (id : Ident)
  /-- HALT_FREEZE (R425). -/
  | haltFreeze
  /-- DBG_RESUME (R427). -/
  | dbgResume (id : Ident)
  /-- DBG_STEP (R428). -/
  | dbgStep (id : Ident)
  /-- RELOCK (R431). -/
  | relock (id : Ident)
  /-- BREAKPOINT_MATCH (R429). -/
  | breakpointMatch (n : Fin 8)
  /-- MONITOR_SAMPLE (R452). -/
  | monitorSample (temps : List Int) (volts : List Nat)
  /-- SAMPLING_EDGE (R8). -/
  | samplingEdge (inp : List Int) (noise : List Int)
  /-- WARM_RESET_RELEASE (R441). -/
  | warmResetRelease (lost : Bool) (ce : Nat) (glitches : List Nat)
  /-- KEPT_SECTIONS_COPIED (R395). -/
  | keptSectionsCopied
  /-- SCRUB_LINE_READ (R222). -/
  | scrubLineRead
  /-- DBG_STEP_DONE (R428). -/
  | dbgStepDone
deriving DecidableEq, Repr

end Sys2Proof
end

