-- ==== Sys2Proof/Decode.lean ====
section
/-!
DEFINITION. Decode.lean: the command that a word spells by the table's bits. No row of spec/opcode_table.json gives bits
(every row's list of fields is empty): the hub takes its commands as bus accesses, frames and events, and not as words.
-/

namespace Sys2Proof

/-- The command that the word `w` of `nbits` bits spells by the opcode table's bits: none, for the table gives none. -/
def decodeTableWord (_nbits _w : Nat) : Option Instr := none

end Sys2Proof
end

