-- ==== Sys2Proof/Machine/RegMap.lean ====
section
/-!
DEFINITION. Machine/RegMap.lean: the register map of BAR0, row by row as the "Registers" sections of spec/ list it
(R2-R6, R336): offset, index strides and counts, and for every field its bits, its access code (R3), its reset entry (R4)
and its field limits where the chapter gives limits. The chunks stand in the order of the spec's chapters.
-/

namespace Sys2Proof.Machine

/-- Access codes of R3. `rwrs` is a field written "RW, RS". -/
inductive Acc where
  | rw | ro | wo | rc | w1c | w1s | rs | st | rwrs
deriving DecidableEq, Repr

/-- Reset entries of R4. `dep` is the entry "—". -/
inductive Rst where
  | val (n : Nat) | ret | img | cal | fused | dep
deriving DecidableEq, Repr

/-- One field of a register: bits hi:lo, access, reset and, where the chapter states field limits, the least and the
greatest value (a negative least value marks a signed field). -/
structure FieldRow where
  name : String
  hi   : Nat
  lo   : Nat
  acc  : Acc
  rst  : Rst
  lim  : Option (Int × Int) := none
deriving DecidableEq, Repr

/-- One register of the map: base offset of instance 0, (stride, count) of each index from the outermost, fields. -/
structure RegRow where
  name   : String
  base   : Nat
  dims   : List (Nat × Nat)
  fields : List FieldRow
deriving DecidableEq, Repr

/-- Registers of spec/02_time_base.md. -/
def regRows02a : List RegRow := [
  ⟨"TIME_FRC_LO", 0x20000, [], [
    ⟨"FRC_LO", 31, 0, .rs, .val 0, none⟩]⟩,
  ⟨"TIME_FRC_HI", 0x20004, [], [
    ⟨"FRC_HI", 31, 0, .rs, .val 0, none⟩]⟩,
  ⟨"TIME_INCR_LO", 0x20008, [], [
    ⟨"INCR_LO", 31, 0, .rw, .val 0, none⟩]⟩,
  ⟨"TIME_INCR_HI", 0x2000C, [], [
    ⟨"INCR_HI", 31, 0, .rw, .val 0x02000000, none⟩]⟩,
  ⟨"TIME_STEP_LO", 0x20010, [], [
    ⟨"STEP_LO", 31, 0, .rw, .val 0, none⟩]⟩,
  ⟨"TIME_STEP_HI", 0x20014, [], [
    ⟨"STEP_HI", 31, 0, .wo, .val 0, none⟩]⟩,
  ⟨"TIME_EPOCH", 0x20018, [], [
    ⟨"EPOCH", 15, 0, .ro, .val 0, none⟩]⟩,
  ⟨"TIME_STATUS", 0x2001C, [], [
    ⟨"INCR_PENDING", 0, 0, .ro, .val 0, none⟩,
    ⟨"STEP_PENDING", 1, 1, .ro, .val 0, none⟩,
    ⟨"INCR_ERR", 8, 8, .w1c, .val 0, none⟩,
    ⟨"STEP_ERR", 9, 9, .w1c, .val 0, none⟩,
    ⟨"STEP_BUSY", 10, 10, .w1c, .val 0, none⟩,
    ⟨"INCR_BUSY", 11, 11, .w1c, .val 0, none⟩]⟩,
  ⟨"TIME_QUALITY", 0x20020, [], [
    ⟨"QUALITY", 7, 0, .rw, .val 0, none⟩]⟩,
  ⟨"TIME_NOW_SEC_LO", 0x20030, [], [
    ⟨"SEC_LO", 31, 0, .rs, .val 0, none⟩]⟩,
  ⟨"TIME_NOW_SEC_HI", 0x20034, [], [
    ⟨"SEC_HI", 15, 0, .rs, .val 0, none⟩,
    ⟨"EPOCH", 31, 16, .rs, .val 0, none⟩]⟩,
  ⟨"TIME_NOW_NS", 0x20038, [], [
    ⟨"NS", 31, 0, .rs, .val 0, none⟩]⟩,
  ⟨"TIME_NOW_FRAC", 0x2003C, [], [
    ⟨"FRAC", 15, 0, .rs, .val 0, none⟩]⟩,
  ⟨"TIME_NOW_FRC_LO", 0x20040, [], [
    ⟨"FRC_LO", 31, 0, .rs, .val 0, none⟩]⟩,
  ⟨"TIME_NOW_FRC_HI", 0x20044, [], [
    ⟨"FRC_HI", 31, 0, .rs, .val 0, none⟩]⟩,
  ⟨"TIME_NOW_SHORT", 0x20048, [], [
    ⟨"SHORT", 31, 0, .rs, .val 0, none⟩]⟩,
  ⟨"TIME_SPERIOD_LO", 0x20050, [], [
    ⟨"TS_LO", 31, 0, .rs, .val 0, none⟩]⟩,
  ⟨"TIME_SPERIOD_HI", 0x20054, [], [
    ⟨"TS_HI", 31, 0, .rs, .val 0, none⟩]⟩,
  ⟨"TIME_ANCHOR_SN_LO", 0x20060, [], [
    ⟨"SN_LO", 31, 0, .rs, .val 0, none⟩]⟩,
  ⟨"TIME_ANCHOR_SN_HI", 0x20064, [], [
    ⟨"SN_HI", 31, 0, .rs, .val 0, none⟩]⟩,
  ⟨"TIME_ANCHOR_SEC_LO", 0x20068, [], [
    ⟨"SEC_LO", 31, 0, .rs, .val 0, none⟩]⟩,
  ⟨"TIME_ANCHOR_SEC_HI", 0x2006C, [], [
    ⟨"SEC_HI", 15, 0, .rs, .val 0, none⟩,
    ⟨"EPOCH", 31, 16, .rs, .val 0, none⟩]⟩,
  ⟨"TIME_ANCHOR_NS", 0x20070, [], [
    ⟨"NS", 31, 0, .rs, .val 0, none⟩]⟩,
  ⟨"TIME_ANCHOR_FRAC", 0x20074, [], [
    ⟨"FRAC", 15, 0, .rs, .val 0, none⟩]⟩,
  ⟨"TIME_PHASE_RES", 0x20078, [], [
    ⟨"PHASE_RES", 31, 0, .rs, .val 0, none⟩]⟩,
  ⟨"TIME_PHASE_RAW", 0x2007C, [], [
    ⟨"TDC", 19, 0, .ro, .val 0, none⟩]⟩,
  ⟨"TIME_TCU_CTRL", 0x20100, [(64, 16)], [
    ⟨"ARM", 0, 0, .rw, .val 0, none⟩,
    ⟨"MODE", 1, 1, .rw, .val 0, none⟩,
    ⟨"QUAL", 2, 2, .rw, .val 0, none⟩,
    ⟨"SRC", 6, 4, .rw, .val 0, none⟩,
    ⟨"EVREC", 8, 8, .rw, .val 0, none⟩,
    ⟨"WAKE", 9, 9, .rw, .val 0, none⟩,
    ⟨"STATE", 17, 16, .ro, .val 0, none⟩]⟩,
  ⟨"TIME_TCU_STATUS", 0x20104, [(64, 16)], [
    ⟨"FIRED", 0, 0, .w1c, .val 0, none⟩,
    ⟨"LATE", 1, 1, .w1c, .val 0, none⟩,
    ⟨"DISARM_LATE", 2, 2, .w1c, .val 0, none⟩,
    ⟨"MODE_ERR", 3, 3, .w1c, .val 0, none⟩,
    ⟨"PARAM_ERR", 4, 4, .w1c, .val 0, none⟩]⟩,
  ⟨"TIME_TCU_SHORT", 0x20108, [(64, 16)], [
    ⟨"SHORT", 31, 0, .rw, .val 0, none⟩]⟩,
  ⟨"TIME_TCU_FINE", 0x2010C, [(64, 16)], [
    ⟨"FINE", 6, 0, .rw, .val 0, none⟩]⟩,
  ⟨"TIME_TCU_SEC_LO", 0x20110, [(64, 16)], [
    ⟨"SEC_LO", 31, 0, .rw, .val 0, none⟩]⟩,
  ⟨"TIME_TCU_SEC_HI", 0x20114, [(64, 16)], [
    ⟨"SEC_HI", 15, 0, .rw, .val 0, none⟩]⟩,
  ⟨"TIME_TCU_NS", 0x20118, [(64, 16)], [
    ⟨"NS", 31, 0, .rw, .val 0, none⟩]⟩,
  ⟨"TIME_TCU_FRAC", 0x2011C, [(64, 16)], [
    ⟨"FRAC", 15, 0, .rw, .val 0, none⟩]⟩,
  ⟨"TIME_TCU_PERIOD_NS", 0x20120, [(64, 16)], [
    ⟨"PERIOD_NS", 31, 0, .rw, .val 0, none⟩]⟩,
  ⟨"TIME_TCU_PERIOD_FRAC", 0x20124, [(64, 16)], [
    ⟨"PERIOD_FRAC", 15, 0, .rw, .val 0, none⟩]⟩,
  ⟨"TIME_TCU_WIDTH", 0x20128, [(64, 16)], [
    ⟨"WIDTH", 23, 0, .rw, .val 0, none⟩]⟩,
  ⟨"TIME_TCU_SKIP", 0x2012C, [(64, 16)], [
    ⟨"SKIP", 31, 0, .rc, .val 0, none⟩]⟩,
  ⟨"TIME_TCU_FIRES", 0x20130, [(64, 16)], [
    ⟨"FIRES", 31, 0, .ro, .val 0, none⟩]⟩,
  ⟨"TIME_TPO_CTRL", 0x20500, [(16, 8)], [
    ⟨"EN", 0, 0, .rw, .val 0, none⟩,
    ⟨"POL", 1, 1, .rw, .val 0, none⟩,
    ⟨"TCU", 7, 4, .rw, .val 0, none⟩]⟩]

/-- Registers of spec/02_time_base.md. -/
def regRows02b : List RegRow := [
  ⟨"TIME_TCI_CTRL", 0x20600, [(32, 5)], [
    ⟨"EN", 0, 0, .rw, .val 0, none⟩,
    ⟨"EDGE", 2, 1, .rw, .val 0, none⟩,
    ⟨"EVREC", 3, 3, .rw, .val 0, none⟩]⟩,
  ⟨"TIME_TCI_SEC_LO", 0x20604, [(32, 5)], [
    ⟨"SEC_LO", 31, 0, .rs, .val 0, none⟩]⟩,
  ⟨"TIME_TCI_SEC_HI", 0x20608, [(32, 5)], [
    ⟨"SEC_HI", 15, 0, .rs, .val 0, none⟩,
    ⟨"EPOCH", 31, 16, .rs, .val 0, none⟩]⟩,
  ⟨"TIME_TCI_NS", 0x2060C, [(32, 5)], [
    ⟨"NS", 31, 0, .rs, .val 0, none⟩]⟩,
  ⟨"TIME_TCI_FRAC", 0x20610, [(32, 5)], [
    ⟨"FRAC", 15, 0, .rs, .val 0, none⟩,
    ⟨"RISE", 31, 31, .rs, .val 0, none⟩]⟩,
  ⟨"TIME_TCI_COUNT", 0x20614, [(32, 5)], [
    ⟨"COUNT", 31, 0, .ro, .val 0, none⟩]⟩,
  ⟨"TIME_TCI_MISSED", 0x20618, [(32, 5)], [
    ⟨"MISSED", 31, 0, .rc, .val 0, none⟩]⟩,
  ⟨"TIME_TB_SEC", 0x20800, [(32, 4)], [
    ⟨"SEC", 31, 0, .rwrs, .val 0, none⟩]⟩,
  ⟨"TIME_TB_NS", 0x20804, [(32, 4)], [
    ⟨"NS", 29, 0, .rwrs, .val 0, none⟩]⟩,
  ⟨"TIME_TB_INCR", 0x20808, [(32, 4)], [
    ⟨"INCR", 31, 0, .rw, .val 0x02000000, none⟩]⟩,
  ⟨"TIME_TB_CTRL", 0x2080C, [(32, 4)], [
    ⟨"RUN", 0, 0, .rw, .val 0, none⟩]⟩]

/-- Registers of spec/03_structure_image.md. -/
def regRows03 : List RegRow := [
  ⟨"IMG_STATUS", 0x70000, [], [
    ⟨"SLOT", 1, 0, .ro, .img, none⟩,
    ⟨"STATE", 3, 2, .ro, .img, none⟩,
    ⟨"MBXT_DEFERRED", 4, 4, .ro, .img, none⟩,
    ⟨"DEFAULTS_USED", 5, 5, .ro, .img, none⟩]⟩,
  ⟨"IMG_VERSION", 0x70004, [], [
    ⟨"VERSION", 31, 0, .ro, .img, none⟩]⟩,
  ⟨"IMG_CHECK", 0x70008, [], [
    ⟨"CODE", 7, 0, .ro, .val 0, none⟩,
    ⟨"DETAIL", 15, 8, .ro, .val 0, none⟩,
    ⟨"SLOT", 17, 16, .ro, .val 0, none⟩]⟩,
  ⟨"IMG_HOST_ADDR_LO", 0x70010, [], [
    ⟨"ADDR_LO", 31, 0, .rw, .val 0, none⟩]⟩,
  ⟨"IMG_HOST_ADDR_HI", 0x70014, [], [
    ⟨"ADDR_HI", 31, 0, .rw, .val 0, none⟩]⟩,
  ⟨"IMG_REFORM_CTRL", 0x70018, [], [
    ⟨"SLOT", 1, 0, .rw, .val 0, none⟩,
    ⟨"AT_SN", 2, 2, .rw, .val 0, none⟩,
    ⟨"GO", 31, 31, .wo, .val 0, none⟩]⟩,
  ⟨"IMG_REFORM_SN_LO", 0x7001C, [], [
    ⟨"SN_LO", 31, 0, .rw, .val 0, none⟩]⟩,
  ⟨"IMG_REFORM_SN_HI", 0x70020, [], [
    ⟨"SN_HI", 31, 0, .rw, .val 0, none⟩]⟩,
  ⟨"IMG_REFORM_STATUS", 0x70024, [], [
    ⟨"PENDING", 0, 0, .ro, .val 0, none⟩,
    ⟨"LATE", 1, 1, .w1c, .val 0, none⟩,
    ⟨"REFUSED", 2, 2, .w1c, .val 0, none⟩,
    ⟨"APPLY_DISCARDED", 3, 3, .w1c, .val 0, none⟩,
    ⟨"QUEUE_FULL", 4, 4, .w1c, .val 0, none⟩,
    ⟨"REFORMS", 31, 16, .ro, .val 0, none⟩]⟩,
  ⟨"IMG_REFORM_AT_LO", 0x70028, [], [
    ⟨"AT_LO", 31, 0, .rs, .val 0, none⟩]⟩,
  ⟨"IMG_REFORM_AT_HI", 0x7002C, [], [
    ⟨"AT_HI", 31, 0, .rs, .val 0, none⟩]⟩,
  ⟨"IMG_LAT_RAW", 0x70030, [], [
    ⟨"LAT", 15, 0, .ro, .img, none⟩]⟩,
  ⟨"IMG_LAT_CLEAN", 0x70034, [], [
    ⟨"LAT", 15, 0, .ro, .img, none⟩]⟩,
  ⟨"IMG_LAT_ALIGNED", 0x70038, [], [
    ⟨"LAT", 15, 0, .ro, .img, none⟩]⟩,
  ⟨"IMG_LAT_CHAIN", 0x7003C, [], [
    ⟨"LAT", 15, 0, .ro, .img, none⟩]⟩,
  ⟨"IMG_LAT_BEAM", 0x70040, [], [
    ⟨"LAT", 15, 0, .ro, .img, none⟩]⟩,
  ⟨"IMG_FMAX", 0x70044, [], [
    ⟨"FMAX_KHZ", 19, 0, .ro, .img, none⟩,
    ⟨"LOWPWR", 20, 20, .ro, .img, none⟩]⟩,
  ⟨"IMG_POOL", 0x70050, [(4, 4)], [
    ⟨"ALLOC_SUM", 11, 0, .ro, .img, none⟩,
    ⟨"CHARGE_SUM", 27, 16, .ro, .img, none⟩]⟩,
  ⟨"IMG_PORT_LOAD", 0x70060, [(4, 4)], [
    ⟨"LOAD", 13, 0, .ro, .img, none⟩]⟩,
  ⟨"IMG_PART", 0x70070, [(4, 5)], [
    ⟨"BANKS", 8, 0, .ro, .img, none⟩,
    ⟨"FIRST_BANK", 23, 16, .ro, .img, none⟩]⟩,
  ⟨"IMG_RING", 0x70084, [], [
    ⟨"DEPTH", 21, 0, .ro, .img, none⟩,
    ⟨"FMT", 22, 22, .ro, .img, none⟩,
    ⟨"QMASK", 27, 24, .ro, .img, none⟩]⟩,
  ⟨"IMG_PRE_MAX", 0x70088, [], [
    ⟨"PRE_MAX", 21, 0, .ro, .img, none⟩]⟩,
  ⟨"IMG_APPLY_REFUSE", 0x7008C, [], [
    ⟨"OFFSET", 22, 0, .ro, .val 0, none⟩,
    ⟨"REFUSED", 31, 31, .w1c, .val 0, none⟩]⟩]

/-- Registers of spec/04_converters.md. AFE_SYNC_CLS_MAX is stored as written, also below MIN: its table says 'at least MIN' and no
outcome (DESIGN CHOICE, assumption log 89). -/
def regRows04 : List RegRow := [
  ⟨"AFE_RUN_CFG", 0x90000, [], [
    ⟨"SRC", 1, 0, .rw, .ret, none⟩,
    ⟨"TCU", 7, 4, .rw, .ret, none⟩,
    ⟨"STOP_TCU_EN", 8, 8, .rw, .ret, none⟩,
    ⟨"STOP_TCU", 15, 12, .rw, .ret, none⟩]⟩,
  ⟨"AFE_RUN_CMD", 0x90004, [], [
    ⟨"ARM", 0, 0, .wo, .val 0, none⟩,
    ⟨"DISARM", 1, 1, .wo, .val 0, none⟩,
    ⟨"START", 2, 2, .wo, .val 0, none⟩,
    ⟨"STOP", 3, 3, .wo, .val 0, none⟩,
    ⟨"STOP_AT_SN", 4, 4, .wo, .val 0, none⟩]⟩,
  ⟨"AFE_RUN_DELAY", 0x90008, [], [
    ⟨"DELAY", 23, 0, .rw, .ret, none⟩]⟩,
  ⟨"AFE_RUN_STATUS", 0x9000C, [], [
    ⟨"STATE", 1, 0, .ro, .val 0, none⟩,
    ⟨"DRAINING", 2, 2, .ro, .val 0, none⟩,
    ⟨"STOP_PENDING", 3, 3, .ro, .val 0, none⟩,
    ⟨"ARM_ERR", 7, 4, .ro, .val 0, none⟩,
    ⟨"START_LATE", 8, 8, .w1c, .val 0, none⟩,
    ⟨"DELAY_SUBST", 9, 9, .w1c, .val 0, none⟩,
    ⟨"STOP_LATE", 10, 10, .w1c, .val 0, none⟩,
    ⟨"CMD_ERR", 11, 11, .w1c, .val 0, none⟩,
    ⟨"DISARM_LATE", 12, 12, .w1c, .val 0, none⟩,
    ⟨"UNLOCK_STOP", 13, 13, .w1c, .val 0, none⟩,
    ⟨"ARM_REFUSED", 14, 14, .w1c, .val 0, none⟩]⟩,
  ⟨"AFE_DELAY_USED", 0x90010, [], [
    ⟨"D_USED", 23, 0, .ro, .val 0, none⟩]⟩,
  ⟨"AFE_STOP_SN_LO", 0x90014, [], [
    ⟨"SN_LO", 31, 0, .rw, .val 0, none⟩]⟩,
  ⟨"AFE_STOP_SN_HI", 0x90018, [], [
    ⟨"SN_HI", 31, 0, .rw, .val 0, none⟩]⟩,
  ⟨"AFE_STOP_AT_LO", 0x9001C, [], [
    ⟨"AT_LO", 31, 0, .rs, .val 0, none⟩]⟩,
  ⟨"AFE_STOP_AT_HI", 0x90020, [], [
    ⟨"AT_HI", 31, 0, .rs, .val 0, none⟩]⟩,
  ⟨"AFE_SN_LO", 0x90024, [], [
    ⟨"SN_LO", 31, 0, .rs, .val 0, none⟩]⟩,
  ⟨"AFE_SN_HI", 0x90028, [], [
    ⟨"SN_HI", 31, 0, .rs, .val 0, none⟩]⟩,
  ⟨"AFE_START_COLLISION", 0x9002C, [], [
    ⟨"COUNT", 31, 0, .rc, .val 0, none⟩]⟩,
  ⟨"AFE_STOP_COLLISION", 0x90030, [], [
    ⟨"COUNT", 31, 0, .rc, .val 0, none⟩]⟩,
  ⟨"AFE_START_SEC_LO", 0x90040, [], [
    ⟨"SEC_LO", 31, 0, .rs, .val 0, none⟩]⟩,
  ⟨"AFE_START_SEC_HI", 0x90044, [], [
    ⟨"SEC_HI", 15, 0, .rs, .val 0, none⟩,
    ⟨"EPOCH", 31, 16, .rs, .val 0, none⟩]⟩,
  ⟨"AFE_START_NS", 0x90048, [], [
    ⟨"NS", 31, 0, .rs, .val 0, none⟩]⟩,
  ⟨"AFE_START_FRAC", 0x9004C, [], [
    ⟨"FRAC", 15, 0, .rs, .val 0, none⟩]⟩,
  ⟨"AFE_PLL_CFG", 0x90060, [], [
    ⟨"REF_SRC", 1, 0, .rw, .ret, none⟩,
    ⟨"SYNCE_PORT", 3, 2, .rw, .ret, none⟩,
    ⟨"REF_FREQ", 5, 4, .rw, .ret, none⟩,
    ⟨"REF_DIV", 11, 8, .rw, .ret, none⟩,
    ⟨"OUT_DIV", 23, 16, .rw, .ret, none⟩,
    ⟨"LOWPWR", 24, 24, .rw, .ret, none⟩]⟩,
  ⟨"AFE_PLL_FB", 0x90064, [], [
    ⟨"FB_FRAC", 23, 0, .rw, .ret, none⟩]⟩,
  ⟨"AFE_PLL_FBINT", 0x90068, [], [
    ⟨"FB_INT", 9, 0, .rw, .ret, none⟩]⟩,
  ⟨"AFE_PLL_CTRL", 0x9006C, [], [
    ⟨"GO", 0, 0, .wo, .val 0, none⟩]⟩,
  ⟨"AFE_PLL_STATUS", 0x90070, [], [
    ⟨"LOCKED", 0, 0, .ro, .val 0, none⟩,
    ⟨"HOLDOVER", 1, 1, .ro, .val 0, none⟩,
    ⟨"ERR", 7, 4, .ro, .val 0, none⟩,
    ⟨"ERR_FLAG", 8, 8, .w1c, .val 0, none⟩,
    ⟨"UNLOCK", 9, 9, .w1c, .val 0, none⟩]⟩,
  ⟨"AFE_PLL_FREQ", 0x90074, [], [
    ⟨"FREQ_KHZ", 19, 0, .ro, .val 0, none⟩]⟩,
  ⟨"AFE_QPWR", 0x90080, [], [
    ⟨"REQ", 3, 0, .rw, .ret, none⟩,
    ⟨"ON", 11, 8, .ro, .val 0, none⟩,
    ⟨"ERR", 16, 16, .w1c, .val 0, none⟩]⟩,
  ⟨"AFE_SYNC_CTRL", 0x90100, [], [
    ⟨"EN", 0, 0, .rw, .ret, none⟩,
    ⟨"POL", 1, 1, .rw, .ret, none⟩]⟩,
  ⟨"AFE_SYNC_MALFORMED", 0x90104, [], [
    ⟨"COUNT", 31, 0, .rc, .val 0, none⟩]⟩,
  ⟨"AFE_SYNC_MISSED", 0x90108, [], [
    ⟨"COUNT", 31, 0, .rc, .val 0, none⟩]⟩,
  ⟨"AFE_SYNC_CLS_CTRL", 0x90110, [(16, 4)], [
    ⟨"EN", 0, 0, .rw, .ret, none⟩,
    ⟨"ACTION", 5, 4, .rw, .ret, none⟩]⟩,
  ⟨"AFE_SYNC_CLS_MIN", 0x90114, [(16, 4)], [
    ⟨"MIN", 23, 0, .rw, .ret, some (1, 16777215)⟩]⟩,
  ⟨"AFE_SYNC_CLS_MAX", 0x90118, [(16, 4)], [
    ⟨"MAX", 23, 0, .rw, .ret, none⟩]⟩,
  ⟨"AFE_SYNC_CLS_COUNT", 0x9011C, [(16, 4)], [
    ⟨"COUNT", 31, 0, .ro, .val 0, none⟩]⟩,
  ⟨"AFE_TONE_CTRL", 0x90200, [(16, 16)], [
    ⟨"EN", 0, 0, .st, .ret, none⟩,
    ⟨"AMP", 5, 4, .st, .ret, none⟩,
    ⟨"M", 24, 16, .st, .ret, some (1, 511)⟩]⟩,
  ⟨"AFE_SEL", 0x91000, [(16, 256)], [
    ⟨"SEL", 2, 0, .st, .ret, some (0, 2)⟩]⟩,
  ⟨"AFE_OVR", 0x91004, [(16, 256)], [
    ⟨"OVR", 31, 0, .rc, .val 0, none⟩]⟩]

/-- Registers of spec/05_calibration.md. -/
def regRows05 : List RegRow := [
  ⟨"CAL_CTRL", 0x80000, [], [
    ⟨"CALRUN", 0, 0, .wo, .val 0, none⟩,
    ⟨"ABORT", 1, 1, .wo, .val 0, none⟩,
    ⟨"SAVE", 2, 2, .wo, .val 0, none⟩]⟩,
  ⟨"CAL_STATUS", 0x80004, [], [
    ⟨"BUSY", 0, 0, .ro, .val 0, none⟩,
    ⟨"SAVE_BUSY", 1, 1, .ro, .val 0, none⟩,
    ⟨"CALRUN_REFUSED", 2, 2, .w1c, .val 0, none⟩,
    ⟨"ABORT_LATE", 3, 3, .w1c, .val 0, none⟩,
    ⟨"ABORTED", 4, 4, .w1c, .val 0, none⟩,
    ⟨"SAVE_ERR", 5, 5, .w1c, .val 0, none⟩,
    ⟨"STORE_USED", 6, 6, .ro, .val 0, none⟩,
    ⟨"NOCAL_COUNT", 24, 16, .ro, .val 0, none⟩]⟩,
  ⟨"CAL_BG_CTRL", 0x80008, [], [
    ⟨"EN", 0, 0, .rw, .ret, none⟩,
    ⟨"GLIDE", 12, 8, .rw, .ret, some (10, 24)⟩,
    ⟨"GROUPS", 31, 16, .rw, .ret, none⟩]⟩,
  ⟨"CAL_BG_INTERVAL", 0x8000C, [], [
    ⟨"INTERVAL_MS", 23, 0, .rw, .ret, none⟩]⟩,
  ⟨"CAL_TRANSIENT", 0x80010, [], [
    ⟨"COUNT", 31, 0, .rc, .val 0, none⟩]⟩,
  ⟨"CAL_LASTING", 0x80014, [], [
    ⟨"COUNT", 31, 0, .ro, .val 0, none⟩]⟩,
  ⟨"CAL_GROUP_STATE", 0x80100, [(16, 16)], [
    ⟨"PHASE", 2, 0, .ro, .val 0, none⟩,
    ⟨"POS", 7, 4, .ro, .val 0, none⟩,
    ⟨"ADOPTED", 8, 8, .ro, .cal, none⟩,
    ⟨"ADOPT_POS", 15, 12, .ro, .cal, none⟩,
    ⟨"SPARE_FAULT", 16, 16, .ro, .cal, none⟩,
    ⟨"OVERRUN", 17, 17, .w1c, .val 0, none⟩]⟩,
  ⟨"CAL_GROUP_SWEEPS", 0x80104, [(16, 16)], [
    ⟨"SWEEPS", 31, 0, .ro, .val 0, none⟩]⟩,
  ⟨"CAL_GROUP_SN_LO", 0x80108, [(16, 16)], [
    ⟨"SN_LO", 31, 0, .rs, .val 0, none⟩]⟩,
  ⟨"CAL_GROUP_SN_HI", 0x8010C, [(16, 16)], [
    ⟨"SN_HI", 31, 0, .rs, .val 0, none⟩]⟩,
  ⟨"CAL_RESULT", 0x81000, [(4, 272)], [
    ⟨"OFFSET", 1, 0, .ro, .cal, none⟩,
    ⟨"GAIN", 3, 2, .ro, .cal, none⟩,
    ⟨"STAGE", 5, 4, .ro, .cal, none⟩,
    ⟨"SKEW", 7, 6, .ro, .cal, none⟩,
    ⟨"NOISE", 9, 8, .ro, .cal, none⟩,
    ⟨"VALID_N", 10, 10, .ro, .cal, none⟩,
    ⟨"VALID_L", 11, 11, .ro, .cal, none⟩,
    ⟨"SOURCE", 13, 12, .ro, .cal, none⟩,
    ⟨"LASTING", 14, 14, .ro, .cal, none⟩,
    ⟨"DEGRADED", 15, 15, .ro, .cal, none⟩,
    ⟨"TEMP_TAG", 31, 16, .ro, .cal, none⟩]⟩]

/-- Registers of spec/06_conditioning.md. -/
def regRows06 : List RegRow := [
  ⟨"CND_USER_OFF", 0x100000, [(256, 256)], [
    ⟨"OFFSET", 15, 0, .st, .ret, none⟩]⟩,
  ⟨"CND_USER_GAIN", 0x100004, [(256, 256)], [
    ⟨"GAIN", 15, 0, .st, .ret, none⟩]⟩,
  ⟨"CND_SPK_CTRL", 0x100008, [(256, 256)], [
    ⟨"MODE", 1, 0, .st, .ret, none⟩,
    ⟨"WIN", 5, 4, .st, .ret, none⟩,
    ⟨"RANK", 11, 8, .st, .ret, none⟩]⟩,
  ⟨"CND_SPK_THR", 0x10000C, [(256, 256)], [
    ⟨"THR", 15, 0, .st, .ret, none⟩]⟩,
  ⟨"CND_DELAY_INT", 0x100010, [(256, 256)], [
    ⟨"INT", 11, 0, .st, .ret, none⟩]⟩,
  ⟨"CND_DELAY_FRAC", 0x100014, [(256, 256)], [
    ⟨"FRAC", 15, 0, .st, .ret, none⟩]⟩,
  ⟨"CND_DELAY_RATE", 0x100018, [(256, 256)], [
    ⟨"RATE", 31, 0, .st, .ret, none⟩]⟩,
  ⟨"CND_DELAY_CTRL", 0x10001C, [(256, 256)], [
    ⟨"KEEP_POS", 0, 0, .st, .ret, none⟩]⟩,
  ⟨"CND_DELAY_NOW", 0x100020, [(256, 256)], [
    ⟨"GO", 0, 0, .wo, .val 0, none⟩]⟩,
  ⟨"CND_STATUS", 0x100024, [(256, 256)], [
    ⟨"LIMIT", 0, 0, .ro, .val 0, none⟩,
    ⟨"LIMIT_HIT", 1, 1, .w1c, .val 0, none⟩,
    ⟨"IMMED_DONE", 2, 2, .w1c, .val 0, none⟩,
    ⟨"IMMED_REFUSED", 3, 3, .w1c, .val 0, none⟩,
    ⟨"INT_CHANGE", 4, 4, .w1c, .val 0, none⟩]⟩,
  ⟨"CND_SAT_RAW", 0x100028, [(256, 256)], [
    ⟨"COUNT", 31, 0, .rc, .val 0, none⟩]⟩,
  ⟨"CND_SAT_ALIGNED", 0x10002C, [(256, 256)], [
    ⟨"COUNT", 31, 0, .rc, .val 0, none⟩]⟩,
  ⟨"CND_EXCISE", 0x100030, [(256, 256)], [
    ⟨"COUNT", 31, 0, .rc, .val 0, none⟩]⟩,
  ⟨"CND_LIMIT", 0x100034, [(256, 256)], [
    ⟨"COUNT", 31, 0, .rc, .val 0, none⟩]⟩,
  ⟨"CND_LOAD_SN_LO", 0x100038, [(256, 256)], [
    ⟨"SN_LO", 31, 0, .rs, .val 0, none⟩]⟩,
  ⟨"CND_LOAD_SN_HI", 0x10003C, [(256, 256)], [
    ⟨"SN_HI", 31, 0, .rs, .val 0, none⟩]⟩,
  ⟨"CND_TAU_INT", 0x100040, [(256, 256)], [
    ⟨"INT", 11, 0, .rs, .val 0, none⟩]⟩,
  ⟨"CND_TAU_FRAC_HI", 0x100044, [(256, 256)], [
    ⟨"FRAC_HI", 31, 0, .rs, .val 0, none⟩]⟩,
  ⟨"CND_TAU_FRAC_LO", 0x100048, [(256, 256)], [
    ⟨"FRAC_LO", 15, 0, .rs, .val 0, none⟩]⟩,
  ⟨"CND_TAU_SN_LO", 0x10004C, [(256, 256)], [
    ⟨"SN_LO", 31, 0, .rs, .val 0, none⟩]⟩,
  ⟨"CND_TAU_SN_HI", 0x100050, [(256, 256)], [
    ⟨"SN_HI", 31, 0, .rs, .val 0, none⟩]⟩,
  ⟨"CND_ALIGN_CTRL", 0x110000, [], [
    ⟨"EN", 0, 0, .st, .ret, none⟩,
    ⟨"AVG", 3, 1, .st, .ret, some (0, 4)⟩]⟩,
  ⟨"CND_ALIGN_TERM", 0x110004, [], [
    ⟨"A", 31, 0, .rs, .val 0, none⟩]⟩,
  ⟨"CND_ALIGN_SN_LO", 0x110008, [], [
    ⟨"SN_LO", 31, 0, .rs, .val 0, none⟩]⟩,
  ⟨"CND_ALIGN_SN_HI", 0x11000C, [], [
    ⟨"SN_HI", 31, 0, .rs, .val 0, none⟩]⟩]

/-- Registers of spec/07_filters.md. -/
def regRows07 : List RegRow := [
  ⟨"FIR_NCO_FREQ", 0x200000, [(1024, 256)], [
    ⟨"FW", 31, 0, .st, .img, none⟩]⟩,
  ⟨"FIR_NCO_PHASE", 0x200004, [(1024, 256)], [
    ⟨"OFF", 15, 0, .st, .img, none⟩]⟩,
  ⟨"FIR_BANK_SEL", 0x200008, [(1024, 256)], [
    ⟨"SEL", 0, 0, .st, .img, none⟩]⟩,
  ⟨"FIR_STATUS", 0x20000C, [(1024, 256)], [
    ⟨"IN_USE", 0, 0, .ro, .val 0, none⟩,
    ⟨"SETTLING", 1, 1, .ro, .val 0, none⟩,
    ⟨"SWAP_DONE", 2, 2, .w1c, .val 0, none⟩,
    ⟨"SWAP_STRUCT", 3, 3, .w1c, .val 0, none⟩,
    ⟨"WR_ERR", 4, 4, .w1c, .val 0, none⟩,
    ⟨"TARGET_LOCK", 5, 5, .ro, .val 0, none⟩]⟩,
  ⟨"FIR_CFG", 0x200010, [(1024, 256), (16, 2)], [
    ⟨"NCO_EN", 0, 0, .rw, .img, none⟩,
    ⟨"NHB", 2, 1, .rw, .img, some (0, 2)⟩,
    ⟨"HBSEL1", 3, 3, .rw, .img, none⟩,
    ⟨"HBSEL2", 4, 4, .rw, .img, none⟩,
    ⟨"SYM", 5, 5, .rw, .img, none⟩,
    ⟨"RQ_WIDTH", 7, 6, .rw, .img, none⟩,
    ⟨"TAPS", 16, 8, .rw, .img, some (0, 384)⟩,
    ⟨"DEC", 23, 17, .rw, .img, some (1, 64)⟩]⟩,
  ⟨"FIR_SHIFT", 0x200014, [(1024, 256), (16, 2)], [
    ⟨"SH_MIX", 4, 0, .rw, .img, none⟩,
    ⟨"SH_HB1", 9, 5, .rw, .img, none⟩,
    ⟨"SH_HB2", 14, 10, .rw, .img, none⟩,
    ⟨"SH_FIR", 19, 15, .rw, .img, none⟩,
    ⟨"SH_RQ", 24, 20, .rw, .img, none⟩]⟩,
  ⟨"FIR_CHARGE", 0x200018, [(1024, 256), (16, 2)], [
    ⟨"CHARGE", 9, 0, .ro, .img, none⟩,
    ⟨"ALLOC", 27, 16, .ro, .img, none⟩]⟩,
  ⟨"FIR_SETTLE_LEN", 0x200030, [(1024, 256)], [
    ⟨"S", 15, 0, .ro, .img, none⟩]⟩,
  ⟨"FIR_SWAP_SN_LO", 0x200034, [(1024, 256)], [
    ⟨"SN_LO", 31, 0, .rs, .val 0, none⟩]⟩,
  ⟨"FIR_SWAP_SN_HI", 0x200038, [(1024, 256)], [
    ⟨"SN_HI", 31, 0, .rs, .val 0, none⟩]⟩,
  ⟨"FIR_SETTLE_END_LO", 0x20003C, [(1024, 256)], [
    ⟨"END_LO", 31, 0, .rs, .val 0, none⟩]⟩,
  ⟨"FIR_SETTLE_END_HI", 0x200040, [(1024, 256)], [
    ⟨"END_HI", 31, 0, .rs, .val 0, none⟩]⟩,
  ⟨"FIR_SAT_MIX", 0x200044, [(1024, 256)], [
    ⟨"COUNT", 31, 0, .rc, .val 0, none⟩]⟩,
  ⟨"FIR_SAT_HB1", 0x200048, [(1024, 256)], [
    ⟨"COUNT", 31, 0, .rc, .val 0, none⟩]⟩,
  ⟨"FIR_SAT_HB2", 0x20004C, [(1024, 256)], [
    ⟨"COUNT", 31, 0, .rc, .val 0, none⟩]⟩,
  ⟨"FIR_SAT_FIR", 0x200050, [(1024, 256)], [
    ⟨"COUNT", 31, 0, .rc, .val 0, none⟩]⟩,
  ⟨"FIR_SAT_RQ", 0x200054, [(1024, 256)], [
    ⟨"COUNT", 31, 0, .rc, .val 0, none⟩]⟩,
  ⟨"FIR_COEF", 0x240000, [(3072, 256), (1536, 2), (4, 384)], [
    ⟨"COEF", 17, 0, .rw, .img, none⟩]⟩]

/-- Registers of spec/08_beams.md. -/
def regRows08 : List RegRow := [
  ⟨"BMF_BANK_SEL", 0x300000, [], [
    ⟨"SEL", 0, 0, .st, .ret, none⟩]⟩,
  ⟨"BMF_BANK_CTRL", 0x300004, [], [
    ⟨"COPY", 0, 0, .wo, .val 0, none⟩]⟩,
  ⟨"BMF_STATUS", 0x300008, [], [
    ⟨"IN_USE", 0, 0, .ro, .val 0, none⟩,
    ⟨"PRESENT", 1, 1, .ro, .img, none⟩,
    ⟨"SWAP_DONE", 2, 2, .w1c, .val 0, none⟩,
    ⟨"WR_ERR", 3, 3, .w1c, .val 0, none⟩,
    ⟨"TARGET_LOCK", 4, 4, .ro, .val 0, none⟩,
    ⟨"COPY_BUSY", 5, 5, .ro, .val 0, none⟩,
    ⟨"COPY_REFUSED", 6, 6, .w1c, .val 0, none⟩]⟩,
  ⟨"BMF_SWAP_SN_LO", 0x30000C, [], [
    ⟨"SN_LO", 31, 0, .rs, .val 0, none⟩]⟩,
  ⟨"BMF_SWAP_SN_HI", 0x300010, [], [
    ⟨"SN_HI", 31, 0, .rs, .val 0, none⟩]⟩,
  ⟨"BMF_FMT", 0x300014, [], [
    ⟨"D", 8, 0, .ro, .img, none⟩,
    ⟨"CPLX", 9, 9, .ro, .img, none⟩,
    ⟨"W", 11, 10, .ro, .img, none⟩]⟩,
  ⟨"BMF_MEMBERS", 0x300100, [(64, 16), (4, 8)], [
    ⟨"MASK", 31, 0, .ro, .img, none⟩]⟩,
  ⟨"BMF_SHIFT", 0x300120, [(64, 16), (4, 2)], [
    ⟨"SH", 4, 0, .rw, .ret, none⟩]⟩,
  ⟨"BMF_SAT", 0x300128, [(64, 16)], [
    ⟨"COUNT", 31, 0, .rc, .val 0, none⟩]⟩,
  ⟨"BMF_WITHHELD", 0x30012C, [(64, 16)], [
    ⟨"COUNT", 31, 0, .rc, .val 0, none⟩]⟩,
  ⟨"BMF_W", 0x310000, [(16384, 2), (1024, 16), (4, 256)], [
    ⟨"WR", 15, 0, .rw, .ret, none⟩,
    ⟨"WI", 31, 16, .rw, .ret, none⟩]⟩]

/-- Registers of spec/09_trigger.md. -/
def regRows09 : List RegRow := [
  ⟨"TRG_INFO", 0xA0000, [], [
    ⟨"RING_TAP", 1, 0, .ro, .img, none⟩,
    ⟨"RING_FMT", 2, 2, .ro, .img, none⟩,
    ⟨"IN_FLIGHT", 11, 8, .ro, .val 0, none⟩]⟩,
  ⟨"TRG_POOL_FREE", 0xA0004, [], [
    ⟨"FREE", 21, 0, .ro, .img, none⟩]⟩,
  ⟨"TRG_APPLY_NOW", 0xA0008, [], [
    ⟨"GO", 0, 0, .wo, .val 0, none⟩]⟩,
  ⟨"TRG_STATUS", 0xA000C, [], [
    ⟨"IMMED_DONE", 0, 0, .w1c, .val 0, none⟩,
    ⟨"IMMED_REFUSED", 1, 1, .w1c, .val 0, none⟩,
    ⟨"FORCE_IGN", 2, 2, .w1c, .val 0, none⟩]⟩,
  ⟨"TRG_LOAD_SN_LO", 0xA0010, [], [
    ⟨"SN_LO", 31, 0, .rs, .val 0, none⟩]⟩,
  ⟨"TRG_LOAD_SN_HI", 0xA0014, [], [
    ⟨"SN_HI", 31, 0, .rs, .val 0, none⟩]⟩,
  ⟨"TRG_RING_START_LO", 0xA0018, [], [
    ⟨"R0_LO", 31, 0, .rs, .val 0, none⟩]⟩,
  ⟨"TRG_RING_START_HI", 0xA001C, [], [
    ⟨"R0_HI", 31, 0, .rs, .val 0, none⟩]⟩,
  ⟨"TRG_CAPTURES", 0xA0020, [], [
    ⟨"COUNT", 31, 0, .ro, .val 0, none⟩]⟩,
  ⟨"TRG_TI_CTRL", 0xA0040, [(16, 4)], [
    ⟨"EN", 0, 0, .st, .ret, none⟩,
    ⟨"EDGE", 2, 1, .st, .ret, none⟩]⟩,
  ⟨"TRG_TI_CABLE", 0xA0044, [(16, 4)], [
    ⟨"CABLE", 15, 0, .st, .ret, none⟩]⟩,
  ⟨"TRG_TI_COUNT", 0xA0048, [(16, 4)], [
    ⟨"COUNT", 31, 0, .ro, .val 0, none⟩]⟩,
  ⟨"TRG_TI_MISSED", 0xA004C, [(16, 4)], [
    ⟨"COUNT", 31, 0, .rc, .val 0, none⟩]⟩,
  ⟨"TRG_TO_CTRL", 0xA0080, [(16, 4)], [
    ⟨"EN", 0, 0, .st, .ret, none⟩,
    ⟨"POL", 1, 1, .st, .ret, none⟩,
    ⟨"CONDS", 15, 8, .st, .ret, none⟩,
    ⟨"WIDTH", 23, 16, .st, .ret, some (2, 255)⟩]⟩,
  ⟨"TRG_TO_MERGED", 0xA0084, [(16, 4)], [
    ⟨"COUNT", 31, 0, .rc, .val 0, none⟩]⟩,
  ⟨"TRG_TO_COUNT", 0xA0088, [(16, 4)], [
    ⟨"COUNT", 31, 0, .ro, .val 0, none⟩]⟩,
  ⟨"TRG_TC_CTRL", 0xA0400, [(256, 8)], [
    ⟨"EN", 0, 0, .st, .ret, none⟩,
    ⟨"SRC", 3, 1, .st, .ret, some (0, 4)⟩,
    ⟨"ED", 4, 4, .st, .ret, none⟩,
    ⟨"SEL", 11, 8, .st, .ret, none⟩,
    ⟨"N", 24, 16, .st, .ret, some (1, 256)⟩]⟩,
  ⟨"TRG_TC_WIN", 0xA0404, [(256, 8)], [
    ⟨"M", 12, 0, .st, .ret, some (1, 4096)⟩]⟩,
  ⟨"TRG_TC_HOLD", 0xA0408, [(256, 8)], [
    ⟨"HOLD", 23, 0, .st, .ret, none⟩,
    ⟨"HMODE", 31, 31, .st, .ret, none⟩]⟩,
  ⟨"TRG_TC_FORCE", 0xA040C, [(256, 8)], [
    ⟨"GO", 0, 0, .wo, .val 0, none⟩]⟩,
  ⟨"TRG_TC_MASK", 0xA0410, [(256, 8), (4, 8)], [
    ⟨"MASK", 31, 0, .st, .ret, none⟩]⟩,
  ⟨"TRG_PF_PRE", 0xA0430, [(256, 8)], [
    ⟨"P", 17, 0, .st, .ret, some (0, 131072)⟩]⟩,
  ⟨"TRG_PF_POST", 0xA0434, [(256, 8)], [
    ⟨"Q", 17, 0, .st, .ret, some (1, 131072)⟩]⟩,
  ⟨"TRG_PF_CFG", 0xA0438, [(256, 8)], [
    ⟨"FMT", 0, 0, .st, .ret, none⟩,
    ⟨"CSH", 4, 1, .st, .ret, some (0, 8)⟩,
    ⟨"STREAM", 13, 8, .st, .ret, none⟩]⟩,
  ⟨"TRG_PF_MASK", 0xA0440, [(256, 8), (4, 8)], [
    ⟨"MASK", 31, 0, .st, .ret, none⟩]⟩,
  ⟨"TRG_TC_STATE", 0xA0460, [(256, 8)], [
    ⟨"STATE", 1, 0, .ro, .val 0, none⟩,
    ⟨"EVLEFT", 31, 16, .ro, .val 0, none⟩]⟩,
  ⟨"TRG_TC_FIRED", 0xA0464, [(256, 8)], [
    ⟨"COUNT", 31, 0, .ro, .val 0, none⟩]⟩,
  ⟨"TRG_TC_SUPP", 0xA0468, [(256, 8), (4, 4)], [
    ⟨"COUNT", 31, 0, .rc, .val 0, none⟩]⟩,
  ⟨"TRG_TC_LAST_LO", 0xA0478, [(256, 8)], [
    ⟨"SN_LO", 31, 0, .rs, .val 0, none⟩]⟩,
  ⟨"TRG_TC_LAST_HI", 0xA047C, [(256, 8)], [
    ⟨"SN_HI", 31, 0, .rs, .val 0, none⟩]⟩,
  ⟨"TRG_ED_CTRL", 0xA2000, [(32, 256), (16, 2)], [
    ⟨"EN", 0, 0, .st, .ret, none⟩,
    ⟨"TAP", 2, 1, .st, .ret, some (0, 2)⟩,
    ⟨"SLOPE", 5, 4, .st, .ret, some (0, 2)⟩,
    ⟨"ABS", 6, 6, .st, .ret, none⟩]⟩,
  ⟨"TRG_ED_LEVEL", 0xA2004, [(32, 256), (16, 2)], [
    ⟨"L", 16, 0, .st, .ret, some (-32768, 32768)⟩]⟩,
  ⟨"TRG_ED_HYST", 0xA2008, [(32, 256), (16, 2)], [
    ⟨"H", 15, 0, .st, .ret, none⟩]⟩,
  ⟨"TRG_ED_COUNT", 0xA200C, [(32, 256), (16, 2)], [
    ⟨"COUNT", 31, 0, .rc, .val 0, none⟩]⟩]

/-- Registers of spec/10_sample_memory.md. -/
def regRows10 : List RegRow := [
  ⟨"MEM_RING_CFG", 0x50000, [], [
    ⟨"RSH", 3, 0, .ro, .img, none⟩,
    ⟨"CHANNELS", 12, 4, .ro, .img, none⟩]⟩,
  ⟨"MEM_RING_HEAD_LO", 0x50004, [], [
    ⟨"HEAD_LO", 31, 0, .rs, .val 0, none⟩]⟩,
  ⟨"MEM_RING_HEAD_HI", 0x50008, [], [
    ⟨"HEAD_HI", 31, 0, .rs, .val 0, none⟩]⟩,
  ⟨"MEM_POOL_WR", 0x5000C, [], [
    ⟨"WR", 20, 0, .ro, .val 0, none⟩]⟩,
  ⟨"MEM_POOL_RD", 0x50010, [], [
    ⟨"RD", 20, 0, .ro, .val 0, none⟩]⟩,
  ⟨"MEM_ERR_CE", 0x50020, [], [
    ⟨"COUNT", 31, 0, .rc, .val 0, none⟩]⟩,
  ⟨"MEM_ERR_UE_TRANS", 0x50024, [], [
    ⟨"COUNT", 31, 0, .rc, .val 0, none⟩]⟩,
  ⟨"MEM_ERR_UE_LASTING", 0x50028, [], [
    ⟨"COUNT", 31, 0, .ro, .val 0, none⟩]⟩,
  ⟨"MEM_CE_LOC", 0x5002C, [], [
    ⟨"LOC", 31, 0, .ro, .val 0, none⟩]⟩,
  ⟨"MEM_UE_LOC", 0x50030, [], [
    ⟨"LOC", 31, 0, .ro, .val 0, none⟩]⟩,
  ⟨"MEM_SCRUB_CTRL", 0x50040, [], [
    ⟨"EN", 0, 0, .rw, .ret, none⟩,
    ⟨"PERIOD_S", 23, 8, .rw, .ret, some (1, 65535)⟩]⟩,
  ⟨"MEM_SCRUB_STATUS", 0x50044, [], [
    ⟨"ACTIVE", 0, 0, .ro, .val 0, none⟩,
    ⟨"PAUSED", 1, 1, .ro, .val 0, none⟩,
    ⟨"PASS_LATE", 2, 2, .w1c, .val 0, none⟩]⟩,
  ⟨"MEM_SCRUB_PASSES", 0x50048, [], [
    ⟨"COUNT", 31, 0, .ro, .val 0, none⟩]⟩,
  ⟨"MEM_SCRUB_POS", 0x5004C, [], [
    ⟨"LINE", 20, 0, .ro, .val 0, none⟩]⟩,
  ⟨"MEM_DENY_COUNT", 0x50050, [], [
    ⟨"COUNT", 31, 0, .rc, .val 0, none⟩]⟩,
  ⟨"MEM_DENY_LAST", 0x50054, [], [
    ⟨"OFFSET", 26, 0, .ro, .val 0, none⟩,
    ⟨"WRITE", 27, 27, .ro, .val 0, none⟩,
    ⟨"IDENT", 31, 28, .ro, .val 0, none⟩]⟩,
  ⟨"MEM_INJECT_ADDR", 0x50060, [], [
    ⟨"ADDR", 26, 2, .rw, .val 0, none⟩]⟩,
  ⟨"MEM_INJECT_CTRL", 0x50064, [], [
    ⟨"ARM", 0, 0, .rw, .val 0, none⟩,
    ⟨"BIT_A", 6, 1, .rw, .val 0, some (0, 38)⟩,
    ⟨"DOUBLE", 7, 7, .rw, .val 0, none⟩,
    ⟨"BIT_B", 13, 8, .rw, .val 0, some (0, 38)⟩,
    ⟨"DONE", 14, 14, .w1c, .val 0, none⟩]⟩,
  ⟨"MEM_TILE_CE", 0x50100, [(4, 32)], [
    ⟨"COUNT", 31, 0, .rc, .val 0, none⟩]⟩]

/-- Registers of spec/11_queues.md. -/
def regRows11 : List RegRow := [
  ⟨"FLW_SEQ_NEXT", 0x40000, [], [
    ⟨"SEQ", 31, 0, .ro, .val 0, none⟩]⟩,
  ⟨"FLW_STATUS", 0x40004, [], [
    ⟨"FLUSH_REFUSED", 0, 0, .w1c, .val 0, none⟩]⟩,
  ⟨"FLW_UE_LOC", 0x40008, [], [
    ⟨"LOC", 31, 0, .ro, .val 0, none⟩]⟩,
  ⟨"FLW_WQ_COUNT", 0x4000C, [], [
    ⟨"COUNT", 9, 0, .ro, .img, none⟩]⟩,
  ⟨"FLW_EQ_READ_LO", 0x40100, [(64, 3)], [
    ⟨"PAYLOAD", 31, 0, .rs, .val 0, none⟩]⟩,
  ⟨"FLW_EQ_READ_HI", 0x40104, [(64, 3)], [
    ⟨"VALID", 0, 0, .rs, .val 0, none⟩,
    ⟨"END", 1, 1, .rs, .val 0, none⟩,
    ⟨"FILL", 15, 8, .rs, .val 0, none⟩]⟩,
  ⟨"FLW_EQ_CTRL", 0x40108, [(64, 3)], [
    ⟨"MASK", 18, 0, .rw, .ret, none⟩,
    ⟨"MODE", 30, 30, .rw, .ret, none⟩,
    ⟨"FLUSH", 31, 31, .wo, .val 0, none⟩]⟩,
  ⟨"FLW_EQ_STATUS", 0x4010C, [(64, 3)], [
    ⟨"WORDS", 12, 0, .ro, .val 0, none⟩,
    ⟨"DISCARDING", 13, 13, .ro, .val 0, none⟩]⟩,
  ⟨"FLW_EQ_LOST", 0x40110, [(64, 3)], [
    ⟨"COUNT", 31, 0, .rc, .val 0, none⟩]⟩,
  ⟨"FLW_EQ_CE", 0x40114, [(64, 3)], [
    ⟨"COUNT", 31, 0, .rc, .val 0, none⟩]⟩,
  ⟨"FLW_EQ_UE_TRANS", 0x40118, [(64, 3)], [
    ⟨"COUNT", 31, 0, .rc, .val 0, none⟩]⟩,
  ⟨"FLW_EQ_UE_LASTING", 0x4011C, [(64, 3)], [
    ⟨"COUNT", 31, 0, .ro, .val 0, none⟩]⟩,
  ⟨"FLW_FQ_BASE", 0x41000, [(64, 16)], [
    ⟨"LINE", 20, 0, .ro, .img, none⟩]⟩,
  ⟨"FLW_FQ_SIZE", 0x41004, [(64, 16)], [
    ⟨"LINES", 20, 0, .ro, .img, none⟩]⟩,
  ⟨"FLW_FQ_WR", 0x41008, [(64, 16)], [
    ⟨"WR", 20, 0, .ro, .val 0, none⟩]⟩,
  ⟨"FLW_FQ_REWIND", 0x4100C, [(64, 16)], [
    ⟨"REWIND", 20, 0, .ro, .val 0, none⟩]⟩,
  ⟨"FLW_FQ_COMMIT", 0x41010, [(64, 16)], [
    ⟨"COMMIT", 20, 0, .ro, .val 0, none⟩]⟩,
  ⟨"FLW_FQ_RD", 0x41014, [(64, 16)], [
    ⟨"RD", 20, 0, .ro, .val 0, none⟩]⟩,
  ⟨"FLW_FQ_CREDIT", 0x41018, [(64, 16)], [
    ⟨"WORDS", 25, 0, .ro, .img, none⟩]⟩,
  ⟨"FLW_FQ_CTRL", 0x4101C, [(64, 16)], [
    ⟨"FLUSH", 0, 0, .wo, .val 0, none⟩]⟩,
  ⟨"FLW_FQ_LIMIT", 0x41020, [(64, 16)], [
    ⟨"LINES", 20, 0, .rw, .val 0, none⟩]⟩,
  ⟨"FLW_FQ_FRAMES", 0x41024, [(64, 16)], [
    ⟨"COUNT", 31, 0, .ro, .val 0, none⟩]⟩,
  ⟨"FLW_FQ_REWINDS", 0x41028, [(64, 16)], [
    ⟨"COUNT", 31, 0, .rc, .val 0, none⟩]⟩,
  ⟨"FLW_FQ_OVERSIZE", 0x4102C, [(64, 16)], [
    ⟨"COUNT", 31, 0, .rc, .val 0, none⟩]⟩,
  ⟨"FLW_FQ_NOCREDIT", 0x41030, [(64, 16)], [
    ⟨"COUNT", 31, 0, .rc, .val 0, none⟩]⟩,
  ⟨"FLW_FQ_CE", 0x41034, [(64, 16)], [
    ⟨"COUNT", 31, 0, .rc, .val 0, none⟩]⟩,
  ⟨"FLW_FQ_UE_TRANS", 0x41038, [(64, 16)], [
    ⟨"COUNT", 31, 0, .rc, .val 0, none⟩]⟩,
  ⟨"FLW_FQ_UE_LASTING", 0x4103C, [(64, 16)], [
    ⟨"COUNT", 31, 0, .ro, .val 0, none⟩]⟩,
  ⟨"FLW_WQ_INFO", 0x44000, [(32, 512)], [
    ⟨"DEPTH", 12, 0, .ro, .img, none⟩,
    ⟨"SRC", 18, 16, .ro, .img, none⟩,
    ⟨"DST", 22, 20, .ro, .img, none⟩]⟩,
  ⟨"FLW_WQ_STATUS", 0x44004, [(32, 512)], [
    ⟨"FILL", 12, 0, .ro, .val 0, none⟩,
    ⟨"PACKETS", 28, 16, .ro, .val 0, none⟩,
    ⟨"DISCARDING", 29, 29, .ro, .val 0, none⟩]⟩,
  ⟨"FLW_WQ_CREDIT", 0x44008, [(32, 512)], [
    ⟨"CREDIT", 12, 0, .ro, .img, none⟩]⟩,
  ⟨"FLW_WQ_CTRL", 0x4400C, [(32, 512)], [
    ⟨"FLUSH", 0, 0, .wo, .val 0, none⟩]⟩,
  ⟨"FLW_WQ_FLUSHES", 0x44010, [(32, 512)], [
    ⟨"COUNT", 31, 0, .ro, .val 0, none⟩]⟩,
  ⟨"FLW_WQ_CE", 0x44014, [(32, 512)], [
    ⟨"COUNT", 31, 0, .rc, .val 0, none⟩]⟩,
  ⟨"FLW_WQ_UE_TRANS", 0x44018, [(32, 512)], [
    ⟨"COUNT", 31, 0, .rc, .val 0, none⟩]⟩,
  ⟨"FLW_WQ_UE_LASTING", 0x4401C, [(32, 512)], [
    ⟨"COUNT", 31, 0, .ro, .val 0, none⟩]⟩]

/-- Registers of spec/12_sinter.md. -/
def regRows12 : List RegRow := [
  ⟨"SNT_INFO", 0xB0000, [], [
    ⟨"N_CTX", 6, 0, .ro, .img, none⟩]⟩,
  ⟨"SNT_CTRL", 0xB0004, [], [
    ⟨"LANE_RESERVE", 2, 0, .rw, .ret, some (0, 4)⟩]⟩,
  ⟨"SNT_STATUS", 0xB0008, [], [
    ⟨"LANE_BUSY", 3, 0, .ro, .val 0, none⟩,
    ⟨"INFLATE_BUSY", 4, 4, .ro, .val 0, none⟩,
    ⟨"INFLATE_SYS", 5, 5, .ro, .val 0, none⟩]⟩,
  ⟨"SNT_ABORT", 0xB000C, [], [
    ⟨"CTX", 7, 0, .wo, .val 0, none⟩,
    ⟨"GO", 31, 31, .wo, .val 0, none⟩]⟩,
  ⟨"SNT_ABORT_STATUS", 0xB0010, [], [
    ⟨"ABORTED", 0, 0, .w1c, .val 0, none⟩,
    ⟨"LATE", 1, 1, .w1c, .val 0, none⟩,
    ⟨"IGNORED", 2, 2, .w1c, .val 0, none⟩]⟩,
  ⟨"SNT_JOBS", 0xB0014, [], [
    ⟨"COUNT", 31, 0, .ro, .val 0, none⟩]⟩,
  ⟨"SNT_OUT_FULL", 0xB0018, [], [
    ⟨"COUNT", 31, 0, .rc, .val 0, none⟩]⟩,
  ⟨"SNT_RAW_BLOCKS", 0xB001C, [], [
    ⟨"COUNT", 31, 0, .rc, .val 0, none⟩]⟩,
  ⟨"SNT_ERRORS", 0xB0020, [], [
    ⟨"COUNT", 31, 0, .rc, .val 0, none⟩]⟩,
  ⟨"SNT_IN_BYTES_LO", 0xB0028, [], [
    ⟨"LO", 31, 0, .rs, .val 0, none⟩]⟩,
  ⟨"SNT_IN_BYTES_HI", 0xB002C, [], [
    ⟨"HI", 31, 0, .rs, .val 0, none⟩]⟩,
  ⟨"SNT_OUT_BYTES_LO", 0xB0030, [], [
    ⟨"LO", 31, 0, .rs, .val 0, none⟩]⟩,
  ⟨"SNT_OUT_BYTES_HI", 0xB0034, [], [
    ⟨"HI", 31, 0, .rs, .val 0, none⟩]⟩,
  ⟨"SNT_LANE", 0xB0040, [(4, 5)], [
    ⟨"STATE", 1, 0, .ro, .val 0, none⟩,
    ⟨"CTX", 15, 8, .ro, .val 0, none⟩,
    ⟨"STREAM", 21, 16, .ro, .val 0, none⟩]⟩,
  ⟨"SNT_GEYSER_CFG", 0xB0100, [(4, 64)], [
    ⟨"COMPRESS", 0, 0, .rw, .ret, none⟩,
    ⟨"ZLIB", 1, 1, .rw, .ret, none⟩,
    ⟨"XFORM", 3, 2, .rw, .ret, none⟩,
    ⟨"HUFF", 5, 4, .rw, .ret, some (0, 2)⟩,
    ⟨"LAZY", 6, 6, .rw, .ret, none⟩,
    ⟨"DEPTH", 13, 8, .rw, .ret, none⟩,
    ⟨"BLOCK_KIB", 22, 16, .rw, .ret, some (1, 64)⟩]⟩,
  ⟨"SNT_CTX_STATE", 0xB0200, [(4, 64)], [
    ⟨"STATE", 1, 0, .ro, .val 0, none⟩,
    ⟨"OWNER", 11, 8, .ro, .val 0, none⟩]⟩]

/-- Registers of spec/13_streams.md. -/
def regRows13 : List RegRow := [
  ⟨"STR_DEF", 0xC0000, [(256, 64)], [
    ⟨"KIND", 2, 0, .ro, .img, none⟩,
    ⟨"TAP", 5, 4, .ro, .img, none⟩,
    ⟨"CLASS", 7, 6, .ro, .img, none⟩,
    ⟨"PORT", 9, 8, .ro, .img, none⟩,
    ⟨"FO_PORT", 11, 10, .ro, .img, none⟩,
    ⟨"FO_EN", 12, 12, .ro, .img, none⟩,
    ⟨"IPV6", 13, 13, .ro, .img, none⟩,
    ⟨"VERS", 18, 16, .ro, .img, none⟩,
    ⟨"DEF_VER", 21, 20, .ro, .img, none⟩]⟩,
  ⟨"STR_SIZE", 0xC0004, [(256, 64)], [
    ⟨"PAYLOAD", 13, 0, .ro, .img, none⟩,
    ⟨"INSTANTS", 29, 16, .ro, .img, none⟩]⟩,
  ⟨"STR_RATE", 0xC0008, [(256, 64)], [
    ⟨"MBPS", 17, 0, .ro, .img, none⟩]⟩,
  ⟨"STR_SRC", 0xC0010, [(256, 64), (4, 8)], [
    ⟨"MASK", 31, 0, .ro, .img, none⟩]⟩,
  ⟨"STR_CTRL", 0xC0030, [(256, 64)], [
    ⟨"EN", 0, 0, .rw, .ret, none⟩,
    ⟨"ANCHOR_ALL", 1, 1, .rw, .ret, none⟩,
    ⟨"LEGACY", 2, 2, .rw, .ret, none⟩,
    ⟨"TB", 4, 3, .rw, .ret, none⟩,
    ⟨"FAILBACK", 31, 31, .wo, .val 0, none⟩]⟩,
  ⟨"STR_VER", 0xC0034, [(256, 64)], [
    ⟨"REQ", 1, 0, .rw, .ret, none⟩,
    ⟨"IN_USE", 5, 4, .ro, .val 0, none⟩,
    ⟨"NEG_FAIL", 7, 7, .w1c, .val 0, none⟩]⟩,
  ⟨"STR_STATUS", 0xC0038, [(256, 64)], [
    ⟨"PORT_NOW", 1, 0, .ro, .val 0, none⟩,
    ⟨"ON_FO", 2, 2, .ro, .val 0, none⟩,
    ⟨"FAILBACK_PENDING", 3, 3, .ro, .val 0, none⟩,
    ⟨"END_SENT", 4, 4, .ro, .val 0, none⟩,
    ⟨"DRAIN_TIMEOUT", 5, 5, .w1c, .val 0, none⟩,
    ⟨"FAILOVER", 6, 6, .w1c, .val 0, none⟩]⟩,
  ⟨"STR_FRAME_SEQ", 0xC003C, [(256, 64)], [
    ⟨"NEXT", 31, 0, .ro, .val 0, none⟩]⟩,
  ⟨"STR_REC_SEQ", 0xC0040, [(256, 64)], [
    ⟨"NEXT", 31, 0, .ro, .val 0, none⟩]⟩,
  ⟨"STR_GAPS", 0xC0044, [(256, 64)], [
    ⟨"COUNT", 31, 0, .ro, .val 0, none⟩]⟩,
  ⟨"STR_DST_PORT", 0xC0068, [(256, 64)], [
    ⟨"DST_UDP", 15, 0, .rw, .ret, none⟩,
    ⟨"SRC_UDP", 31, 16, .rw, .ret, none⟩]⟩,
  ⟨"STR_DST_IP", 0xC0070, [(256, 64), (4, 4)], [
    ⟨"ADDR", 31, 0, .rw, .ret, none⟩]⟩,
  ⟨"STR_PRODUCED_LO", 0xC0048, [(256, 64)], [
    ⟨"LO", 31, 0, .rs, .val 0, none⟩]⟩,
  ⟨"STR_PRODUCED_HI", 0xC004C, [(256, 64)], [
    ⟨"HI", 31, 0, .rs, .val 0, none⟩]⟩,
  ⟨"STR_DELIVERED_LO", 0xC0050, [(256, 64)], [
    ⟨"LO", 31, 0, .rs, .val 0, none⟩]⟩,
  ⟨"STR_DELIVERED_HI", 0xC0054, [(256, 64)], [
    ⟨"HI", 31, 0, .rs, .val 0, none⟩]⟩,
  ⟨"STR_DECLARED_LO", 0xC0058, [(256, 64)], [
    ⟨"LO", 31, 0, .rs, .val 0, none⟩]⟩,
  ⟨"STR_DECLARED_HI", 0xC005C, [(256, 64)], [
    ⟨"HI", 31, 0, .rs, .val 0, none⟩]⟩,
  ⟨"STR_IN_FLIGHT_LO", 0xC0060, [(256, 64)], [
    ⟨"LO", 31, 0, .rs, .val 0, none⟩]⟩,
  ⟨"STR_IN_FLIGHT_HI", 0xC0064, [(256, 64)], [
    ⟨"HI", 31, 0, .rs, .val 0, none⟩]⟩,
  ⟨"STR_HUB_ID", 0xC4000, [], [
    ⟨"HUB_ID", 15, 0, .rw, .ret, none⟩]⟩,
  ⟨"STR_DRAIN", 0xC4004, [], [
    ⟨"DRAIN_MS", 15, 0, .rw, .ret, some (1, 65535)⟩]⟩,
  ⟨"STR_FUM_MASK", 0xC4008, [], [
    ⟨"MASK", 18, 0, .rw, .ret, none⟩]⟩,
  ⟨"STR_FUM_HOLD", 0xC400C, [], [
    ⟨"HOLD_US", 9, 0, .rw, .ret, some (1, 1000)⟩]⟩]

/-- Registers of spec/14_network.md. -/
def regRows14a : List RegRow := [
  ⟨"NET_PORT_INFO", 0xD0000, [(16384, 4)], [
    ⟨"MODE", 1, 0, .ro, .img, none⟩]⟩,
  ⟨"NET_PORT_CTRL", 0xD0004, [(16384, 4)], [
    ⟨"TRAIN", 0, 0, .rw, .ret, none⟩,
    ⟨"RESTART", 1, 1, .wo, .val 0, none⟩,
    ⟨"READAPT", 2, 2, .wo, .val 0, none⟩]⟩,
  ⟨"NET_PORT_STATUS", 0xD0008, [(16384, 4)], [
    ⟨"LINK_UP", 0, 0, .ro, .val 0, none⟩,
    ⟨"LOCAL_FAULT", 1, 1, .ro, .val 0, none⟩,
    ⟨"REMOTE_FAULT", 2, 2, .ro, .val 0, none⟩,
    ⟨"TRAINING", 3, 3, .ro, .val 0, none⟩,
    ⟨"RCLK_OK", 4, 4, .ro, .val 0, none⟩,
    ⟨"LINK_FAIL", 5, 5, .w1c, .val 0, none⟩]⟩,
  ⟨"NET_MAC_HI", 0xD000C, [(16384, 4)], [
    ⟨"MAC", 15, 0, .rw, .ret, none⟩]⟩,
  ⟨"NET_MAC_LO", 0xD0010, [(16384, 4)], [
    ⟨"MAC", 31, 0, .rw, .ret, none⟩]⟩,
  ⟨"NET_NEXTHOP_HI", 0xD0014, [(16384, 4)], [
    ⟨"MAC", 15, 0, .rw, .ret, none⟩]⟩,
  ⟨"NET_NEXTHOP_LO", 0xD0018, [(16384, 4)], [
    ⟨"MAC", 31, 0, .rw, .ret, none⟩]⟩,
  ⟨"NET_IP4", 0xD001C, [(16384, 4)], [
    ⟨"ADDR", 31, 0, .rw, .ret, none⟩]⟩,
  ⟨"NET_IP6", 0xD0020, [(16384, 4), (4, 4)], [
    ⟨"ADDR", 31, 0, .rw, .ret, none⟩]⟩,
  ⟨"NET_VLAN", 0xD0030, [(16384, 4)], [
    ⟨"VID", 11, 0, .rw, .ret, none⟩,
    ⟨"PCP", 14, 12, .rw, .ret, none⟩,
    ⟨"EN", 15, 15, .rw, .ret, none⟩]⟩,
  ⟨"NET_IPHDR", 0xD0034, [(16384, 4)], [
    ⟨"TTL", 7, 0, .rw, .ret, some (1, 255)⟩,
    ⟨"CSUM4", 8, 8, .rw, .ret, none⟩]⟩,
  ⟨"NET_DSCP", 0xD0038, [(16384, 4)], [
    ⟨"DSCP0", 5, 0, .rw, .ret, none⟩,
    ⟨"DSCP1", 13, 8, .rw, .ret, none⟩,
    ⟨"DSCP2", 21, 16, .rw, .ret, none⟩,
    ⟨"DSCP3", 29, 24, .rw, .ret, none⟩]⟩,
  ⟨"NET_RX_FILTER", 0xD003C, [(16384, 4)], [
    ⟨"PTP_L2", 0, 0, .rw, .ret, none⟩,
    ⟨"PTP_UDP", 1, 1, .rw, .ret, none⟩,
    ⟨"ARP", 2, 2, .rw, .ret, none⟩,
    ⟨"ND", 3, 3, .rw, .ret, none⟩,
    ⟨"ESMC", 4, 4, .rw, .ret, none⟩,
    ⟨"ICMP", 5, 5, .rw, .ret, none⟩]⟩,
  ⟨"NET_ASYM_TX", 0xD0040, [(16384, 4)], [
    ⟨"ASYM", 31, 0, .rw, .ret, none⟩]⟩,
  ⟨"NET_ASYM_RX", 0xD0044, [(16384, 4)], [
    ⟨"ASYM", 31, 0, .rw, .ret, none⟩]⟩,
  ⟨"NET_PTP_CTRL", 0xD0048, [(16384, 4)], [
    ⟨"EN", 0, 0, .rw, .ret, none⟩,
    ⟨"MODE", 1, 1, .rw, .ret, none⟩,
    ⟨"TRANSPORT", 3, 2, .rw, .ret, some (0, 2)⟩,
    ⟨"DOMAIN", 15, 8, .rw, .ret, none⟩,
    ⟨"AVG", 19, 16, .rw, .ret, some (0, 8)⟩,
    ⟨"CONSEC", 23, 20, .rw, .ret, some (1, 15)⟩]⟩,
  ⟨"NET_PTP_ID0", 0xD004C, [(16384, 4)], [
    ⟨"CLK_ID", 31, 0, .rw, .ret, none⟩]⟩,
  ⟨"NET_PTP_ID1", 0xD0050, [(16384, 4)], [
    ⟨"CLK_ID", 31, 0, .rw, .ret, none⟩]⟩,
  ⟨"NET_PTP_ID2", 0xD0054, [(16384, 4)], [
    ⟨"PORTNUM", 15, 0, .rw, .ret, none⟩]⟩,
  ⟨"NET_PD_THR", 0xD0058, [(16384, 4)], [
    ⟨"THR", 31, 0, .rw, .ret, none⟩]⟩,
  ⟨"NET_PD_COUNT", 0xD0070, [(16384, 4)], [
    ⟨"COUNT", 31, 0, .ro, .val 0, none⟩]⟩,
  ⟨"NET_PD_STEPS", 0xD0074, [(16384, 4)], [
    ⟨"COUNT", 31, 0, .rc, .val 0, none⟩]⟩,
  ⟨"NET_PHASE", 0xD0078, [(16384, 4)], [
    ⟨"PHASE", 15, 0, .ro, .val 0, none⟩,
    ⟨"VALID", 16, 16, .ro, .val 0, none⟩]⟩,
  ⟨"NET_PD_MPD_LO", 0xD0060, [(16384, 4)], [
    ⟨"LO", 31, 0, .rs, .val 0, none⟩]⟩,
  ⟨"NET_PD_MPD_HI", 0xD0064, [(16384, 4)], [
    ⟨"HI", 31, 0, .rs, .val 0, none⟩]⟩,
  ⟨"NET_PD_RUN_LO", 0xD0068, [(16384, 4)], [
    ⟨"LO", 31, 0, .rs, .val 0, none⟩]⟩,
  ⟨"NET_PD_RUN_HI", 0xD006C, [(16384, 4)], [
    ⟨"HI", 31, 0, .rs, .val 0, none⟩]⟩,
  ⟨"NET_TX_FRAMES", 0xD0080, [(16384, 4)], [
    ⟨"COUNT", 31, 0, .ro, .val 0, none⟩]⟩,
  ⟨"NET_TX_HOST", 0xD0084, [(16384, 4)], [
    ⟨"COUNT", 31, 0, .ro, .val 0, none⟩]⟩,
  ⟨"NET_RX_HOST", 0xD0088, [(16384, 4)], [
    ⟨"COUNT", 31, 0, .ro, .val 0, none⟩]⟩,
  ⟨"NET_RX_DROP", 0xD008C, [(16384, 4)], [
    ⟨"COUNT", 31, 0, .rc, .val 0, none⟩]⟩,
  ⟨"NET_RX_FCS", 0xD0090, [(16384, 4)], [
    ⟨"COUNT", 31, 0, .rc, .val 0, none⟩]⟩,
  ⟨"NET_RX_OVERSIZE", 0xD0094, [(16384, 4)], [
    ⟨"COUNT", 31, 0, .rc, .val 0, none⟩]⟩,
  ⟨"NET_RX_CTRL", 0xD0098, [(16384, 4)], [
    ⟨"COUNT", 31, 0, .rc, .val 0, none⟩]⟩,
  ⟨"NET_FEC_CORR", 0xD009C, [(16384, 4)], [
    ⟨"COUNT", 31, 0, .rc, .val 0, none⟩]⟩,
  ⟨"NET_FEC_UNCORR", 0xD00A0, [(16384, 4)], [
    ⟨"COUNT", 31, 0, .rc, .val 0, none⟩]⟩,
  ⟨"NET_LINK_DOWNS", 0xD00A4, [(16384, 4)], [
    ⟨"COUNT", 31, 0, .ro, .val 0, none⟩]⟩,
  ⟨"NET_TRAIN_TRANS", 0xD00A8, [(16384, 4)], [
    ⟨"COUNT", 31, 0, .rc, .val 0, none⟩]⟩,
  ⟨"NET_TRAIN_LASTING", 0xD00AC, [(16384, 4)], [
    ⟨"COUNT", 31, 0, .ro, .val 0, none⟩]⟩,
  ⟨"NET_TS_STATUS", 0xD3000, [], [
    ⟨"SUSPECT", 0, 0, .w1c, .val 0, none⟩,
    ⟨"SET", 1, 1, .wo, .val 0, none⟩,
    ⟨"SRC", 7, 4, .ro, .val 0, none⟩]⟩]

/-- Registers of spec/14_network.md. -/
def regRows14b : List RegRow := [
  ⟨"NET_SYNCE_CTRL", 0xD3004, [], [
    ⟨"CLKOUT_EN", 0, 0, .rw, .ret, none⟩,
    ⟨"SQUELCH", 1, 1, .rw, .ret, none⟩,
    ⟨"PORT", 3, 2, .rw, .ret, none⟩,
    ⟨"FSEL", 5, 4, .rw, .ret, none⟩]⟩,
  ⟨"NET_DMF_CTRL", 0xD3008, [], [
    ⟨"EN", 0, 0, .rw, .ret, none⟩,
    ⟨"PORTS", 7, 4, .rw, .ret, none⟩,
    ⟨"UDP", 31, 16, .rw, .ret, none⟩]⟩,
  ⟨"NET_DMF_KEY_CTRL", 0xD300C, [], [
    ⟨"KEN0", 0, 0, .rw, .ret, none⟩,
    ⟨"KEN1", 1, 1, .rw, .ret, none⟩]⟩,
  ⟨"NET_DMF_SEQ_LO", 0xD3010, [(8, 2)], [
    ⟨"LO", 31, 0, .rs, .ret, none⟩]⟩,
  ⟨"NET_DMF_SEQ_HI", 0xD3014, [(8, 2)], [
    ⟨"HI", 31, 0, .rs, .ret, none⟩]⟩,
  ⟨"NET_DMF_REQ", 0xD3020, [], [
    ⟨"COUNT", 31, 0, .ro, .val 0, none⟩]⟩,
  ⟨"NET_DMF_AUTHFAIL", 0xD3024, [], [
    ⟨"COUNT", 31, 0, .rc, .val 0, none⟩]⟩,
  ⟨"NET_DMF_REPLAY", 0xD3028, [], [
    ⟨"COUNT", 31, 0, .rc, .val 0, none⟩]⟩,
  ⟨"NET_DMF_DROP", 0xD302C, [], [
    ⟨"COUNT", 31, 0, .rc, .val 0, none⟩]⟩,
  ⟨"NET_DMF_DENIED", 0xD3030, [], [
    ⟨"COUNT", 31, 0, .rc, .val 0, none⟩]⟩,
  ⟨"NET_DMF_KEY", 0xD3100, [(32, 2), (4, 8)], [
    ⟨"KEY", 31, 0, .wo, .ret, none⟩]⟩]

/-- Registers of spec/15_host.md. -/
def regRows15 : List RegRow := [
  ⟨"GLB_PART", 0x0, [], [
    ⟨"PART", 15, 0, .ro, .val 0x3256, none⟩,
    ⟨"FAMILY", 23, 16, .ro, .val 0x1D, none⟩]⟩,
  ⟨"GLB_STEPPING", 0x4, [], [
    ⟨"STEP", 7, 0, .ro, .fused, none⟩]⟩,
  ⟨"GLB_PCI_ID", 0x8, [], [
    ⟨"VID", 15, 0, .ro, .fused, none⟩,
    ⟨"DID", 31, 16, .ro, .val 0x3256, none⟩]⟩,
  ⟨"GLB_SERIAL_LO", 0xC, [], [
    ⟨"SN_LO", 31, 0, .rs, .fused, none⟩]⟩,
  ⟨"GLB_SERIAL_HI", 0x10, [], [
    ⟨"SN_HI", 31, 0, .rs, .fused, none⟩]⟩,
  ⟨"GLB_VER_REGMAP", 0x14, [], [
    ⟨"VER", 15, 0, .ro, .val 0x0100, none⟩]⟩,
  ⟨"GLB_VER_STALUX", 0x18, [], [
    ⟨"MAX", 7, 0, .ro, .val 3, none⟩,
    ⟨"MIN", 15, 8, .ro, .val 1, none⟩]⟩,
  ⟨"GLB_VER_DAMUF", 0x1C, [], [
    ⟨"VER", 7, 0, .ro, .val 1, none⟩]⟩,
  ⟨"GLB_VER_CONTAINER", 0x20, [], [
    ⟨"VER", 7, 0, .ro, .val 1, none⟩]⟩,
  ⟨"GLB_IDENT", 0x24, [], [
    ⟨"IDENT", 3, 0, .ro, .dep, none⟩]⟩,
  ⟨"GLB_FENCE", 0x30, [], [
    ⟨"TOKEN", 15, 0, .wo, .val 0, none⟩]⟩,
  ⟨"GLB_FENCE_DONE", 0x34, [], [
    ⟨"TOKEN", 15, 0, .ro, .val 0, none⟩,
    ⟨"PENDING", 31, 31, .ro, .val 0, none⟩]⟩,
  ⟨"HIF_TIMED_APPLY_LO", 0xE0000, [], [
    ⟨"SN_LO", 31, 0, .rw, .val 0, none⟩]⟩,
  ⟨"HIF_TIMED_APPLY_HI", 0xE0004, [], [
    ⟨"SN_HI", 31, 0, .rw, .val 0, none⟩]⟩,
  ⟨"HIF_APPLY_CTRL", 0xE0008, [], [
    ⟨"ARM", 0, 0, .wo, .val 0, none⟩,
    ⟨"DISARM", 1, 1, .wo, .val 0, none⟩]⟩,
  ⟨"HIF_APPLY_STATUS", 0xE000C, [], [
    ⟨"STATE", 1, 0, .ro, .val 0, none⟩,
    ⟨"LATE", 2, 2, .w1c, .val 0, none⟩,
    ⟨"REFUSED", 3, 3, .w1c, .val 0, none⟩,
    ⟨"STRANDED", 4, 4, .w1c, .val 0, none⟩,
    ⟨"WR_BLOCKED", 5, 5, .w1c, .val 0, none⟩,
    ⟨"ARM_BUSY", 6, 6, .w1c, .val 0, none⟩,
    ⟨"DISARM_LATE", 7, 7, .w1c, .val 0, none⟩,
    ⟨"FLAGGED", 31, 16, .ro, .val 0, none⟩]⟩,
  ⟨"HIF_APPLY_LANDED_LO", 0xE0010, [], [
    ⟨"SN_LO", 31, 0, .rs, .val 0, none⟩]⟩,
  ⟨"HIF_APPLY_LANDED_HI", 0xE0014, [], [
    ⟨"SN_HI", 31, 0, .rs, .val 0, none⟩]⟩,
  ⟨"HIF_STATUS", 0xE0020, [], [
    ⟨"RD_OFF", 0, 0, .w1c, .val 0, none⟩,
    ⟨"WR_OFF", 1, 1, .w1c, .val 0, none⟩]⟩,
  ⟨"HIF_BAD_REQ", 0xE0024, [], [
    ⟨"COUNT", 31, 0, .rc, .val 0, none⟩]⟩,
  ⟨"HIF_DENY", 0xE0028, [], [
    ⟨"COUNT", 31, 0, .rc, .val 0, none⟩]⟩,
  ⟨"HIF_LINK", 0xE002C, [], [
    ⟨"SPEED", 3, 0, .ro, .val 0, none⟩,
    ⟨"WIDTH", 9, 4, .ro, .val 0, none⟩]⟩,
  ⟨"HIF_RX_ROUTE", 0xE0030, [], [
    ⟨"FN", 3, 0, .rw, .ret, none⟩]⟩,
  ⟨"HIF_RING_BASE_LO", 0xE1000, [(4096, 2), (64, 10)], [
    ⟨"LO", 31, 0, .rw, .val 0, none⟩]⟩,
  ⟨"HIF_RING_BASE_HI", 0xE1004, [(4096, 2), (64, 10)], [
    ⟨"HI", 31, 0, .rw, .val 0, none⟩]⟩,
  ⟨"HIF_RING_WB_LO", 0xE1008, [(4096, 2), (64, 10)], [
    ⟨"LO", 31, 0, .rw, .val 0, none⟩]⟩,
  ⟨"HIF_RING_WB_HI", 0xE100C, [(4096, 2), (64, 10)], [
    ⟨"HI", 31, 0, .rw, .val 0, none⟩]⟩,
  ⟨"HIF_RING_CTRL", 0xE1010, [(4096, 2), (64, 10)], [
    ⟨"EN", 0, 0, .rw, .val 0, none⟩,
    ⟨"LOG2", 7, 4, .rw, .val 0, none⟩,
    ⟨"VEC", 13, 8, .rw, .val 0, none⟩,
    ⟨"MOD", 31, 16, .rw, .val 0, none⟩]⟩,
  ⟨"HIF_RING_PI", 0xE1014, [(4096, 2), (64, 10)], [
    ⟨"PI", 15, 0, .rw, .val 0, none⟩]⟩,
  ⟨"HIF_RING_CI", 0xE1018, [(4096, 2), (64, 10)], [
    ⟨"CI", 15, 0, .rw, .val 0, none⟩]⟩,
  ⟨"HIF_RING_STATUS", 0xE101C, [(4096, 2), (64, 10)], [
    ⟨"ERR", 1, 0, .ro, .val 0, none⟩]⟩,
  ⟨"HIF_RING_DROP", 0xE1020, [(4096, 2), (64, 10)], [
    ⟨"COUNT", 31, 0, .rc, .val 0, none⟩]⟩,
  ⟨"HIF_FN_ALERT", 0xE1FF0, [(4096, 2)], [
    ⟨"EN", 0, 0, .rw, .val 0, none⟩,
    ⟨"VEC", 13, 8, .rw, .val 0, none⟩]⟩]

/-- Registers of spec/16_mailboxes.md. -/
def regRows16 : List RegRow := [
  ⟨"MBX_PAYLOAD", 0x30000, [(128, 24), (4, 16)], [
    ⟨"DATA", 31, 0, .rw, .val 0, none⟩]⟩,
  ⟨"MBX_HEADER", 0x30040, [(128, 24)], [
    ⟨"LEN", 4, 0, .rw, .val 0, some (0, 16)⟩,
    ⟨"SENDER", 11, 8, .ro, .val 0, none⟩,
    ⟨"CODE", 31, 16, .rw, .val 0, none⟩]⟩,
  ⟨"MBX_DOORBELL", 0x30044, [(128, 24)], [
    ⟨"RING", 0, 0, .wo, .val 0, none⟩,
    ⟨"ABANDON", 1, 1, .wo, .val 0, none⟩,
    ⟨"ACK", 2, 2, .wo, .val 0, none⟩,
    ⟨"RESULT", 15, 8, .wo, .val 0, none⟩]⟩,
  ⟨"MBX_STATUS", 0x30048, [(128, 24)], [
    ⟨"STATE", 1, 0, .ro, .val 0, none⟩,
    ⟨"COMPOSER", 7, 4, .ro, .val 0, none⟩,
    ⟨"RESULT", 15, 8, .ro, .val 0, none⟩,
    ⟨"RERING", 16, 16, .w1c, .val 0, none⟩,
    ⟨"DISCARDED", 17, 17, .w1c, .val 0, none⟩,
    ⟨"BUSY", 18, 18, .w1c, .val 0, none⟩,
    ⟨"ORDER_ERR", 19, 19, .w1c, .val 0, none⟩,
    ⟨"ACC_ERR", 20, 20, .w1c, .val 0, none⟩]⟩,
  ⟨"MBX_BIND", 0x3004C, [(128, 24)], [
    ⟨"A", 3, 0, .ro, .val 0, none⟩,
    ⟨"B", 11, 8, .ro, .val 0, none⟩]⟩,
  ⟨"MBX_CH_CTRL", 0x30050, [(128, 24)], [
    ⟨"VEC_A", 5, 0, .rw, .ret, none⟩,
    ⟨"WAKE_A", 6, 6, .rw, .ret, none⟩,
    ⟨"VEC_B", 13, 8, .rw, .ret, none⟩,
    ⟨"WAKE_B", 14, 14, .rw, .ret, none⟩]⟩,
  ⟨"MBX_REFUSED", 0x30054, [(128, 24)], [
    ⟨"COUNT", 31, 0, .rc, .val 0, none⟩]⟩,
  ⟨"MBX_LOCK", 0x31000, [(4, 16)], [
    ⟨"OWNER", 3, 0, .rw, .val 0, none⟩,
    ⟨"RELEASED_BY_RESET", 8, 8, .ro, .val 0, none⟩]⟩,
  ⟨"MBX_LOCK_PEEK", 0x31040, [(4, 16)], [
    ⟨"OWNER", 3, 0, .ro, .val 0, none⟩,
    ⟨"RELEASED_BY_RESET", 8, 8, .ro, .val 0, none⟩]⟩,
  ⟨"MBX_INFO", 0x32000, [], [
    ⟨"BOUND", 23, 0, .ro, .val 0, none⟩,
    ⟨"LOCKED", 24, 24, .ro, .val 0, none⟩]⟩,
  ⟨"MBX_ERR_COUNT", 0x32004, [], [
    ⟨"COUNT", 31, 0, .rc, .val 0, none⟩]⟩,
  ⟨"MBX_LOCK_ERR", 0x32008, [], [
    ⟨"COUNT", 31, 0, .rc, .val 0, none⟩]⟩]

/-- Registers of spec/17_power_reset.md. -/
def regRows17 : List RegRow := [
  ⟨"PWR_STATUS", 0x10000, [], [
    ⟨"READY", 0, 0, .ro, .val 0, none⟩,
    ⟨"RET_LOST", 1, 1, .w1c, .val 0, none⟩,
    ⟨"SET_SRC", 3, 2, .ro, .val 0, none⟩,
    ⟨"SET_HALF", 4, 4, .ro, .val 0, none⟩,
    ⟨"LAST_RESET", 10, 8, .ro, .val 0, none⟩,
    ⟨"BLK_REFUSED", 11, 11, .w1c, .val 0, none⟩]⟩,
  ⟨"PWR_RESET", 0x10004, [], [
    ⟨"WARM", 0, 0, .wo, .val 0, none⟩,
    ⟨"KEY", 31, 24, .wo, .val 0, none⟩]⟩,
  ⟨"PWR_BLK_RESET", 0x10008, [], [
    ⟨"BLK", 18, 0, .wo, .val 0, none⟩]⟩,
  ⟨"PWR_DOM_STATE", 0x1000C, [], [
    ⟨"STATE", 27, 0, .ro, .val 0, none⟩]⟩,
  ⟨"PWR_TCU_WAKE", 0x10010, [], [
    ⟨"MASK", 13, 0, .rw, .ret, none⟩]⟩,
  ⟨"PWR_SAVE_CTRL", 0x10020, [], [
    ⟨"SAVE", 0, 0, .wo, .val 0, none⟩,
    ⟨"SAVE_BUSY", 1, 1, .ro, .val 0, none⟩,
    ⟨"SAVE_ERR", 2, 2, .w1c, .val 0, none⟩,
    ⟨"INTERVAL_MIN", 31, 16, .rw, .ret, none⟩]⟩,
  ⟨"PWR_SAVE_GEN", 0x10024, [], [
    ⟨"GEN", 31, 0, .ro, .val 0, none⟩]⟩,
  ⟨"PWR_SAVES", 0x10028, [], [
    ⟨"COUNT", 31, 0, .ro, .val 0, none⟩]⟩,
  ⟨"PWR_RET_CE", 0x1002C, [], [
    ⟨"COUNT", 31, 0, .rc, .val 0, none⟩]⟩,
  ⟨"PWR_DOM_CTRL", 0x10100, [(4, 14)], [
    ⟨"IDLE_STATE", 1, 0, .rw, .ret, some (0, 2)⟩,
    ⟨"RESET", 2, 2, .wo, .val 0, none⟩,
    ⟨"REFUSED", 3, 3, .w1c, .val 0, none⟩,
    ⟨"HOLD_US", 31, 16, .rw, .ret, none⟩]⟩,
  ⟨"PWR_DOM_WAKES", 0x10140, [(4, 14)], [
    ⟨"COUNT", 31, 0, .ro, .val 0, none⟩]⟩]

/-- Registers of spec/18_update.md. -/
def regRows18 : List RegRow := [
  ⟨"UPD_SESSION", 0x70100, [], [
    ⟨"OWNER", 3, 0, .rw, .val 0, none⟩]⟩,
  ⟨"UPD_CTRL", 0x70104, [], [
    ⟨"START", 0, 0, .wo, .val 0, none⟩,
    ⟨"ACTIVATE", 1, 1, .wo, .val 0, none⟩,
    ⟨"ABORT", 2, 2, .wo, .val 0, none⟩,
    ⟨"AT_SN", 3, 3, .rw, .val 0, none⟩,
    ⟨"CONFIRM", 4, 4, .wo, .val 0, none⟩,
    ⟨"REJECT", 5, 5, .wo, .val 0, none⟩,
    ⟨"KEY", 31, 24, .wo, .val 0, none⟩]⟩,
  ⟨"UPD_SRC_ADDR_LO", 0x70108, [], [
    ⟨"LO", 31, 0, .rw, .val 0, none⟩]⟩,
  ⟨"UPD_SRC_ADDR_HI", 0x7010C, [], [
    ⟨"HI", 31, 0, .rw, .val 0, none⟩]⟩,
  ⟨"UPD_SRC_LEN", 0x70110, [], [
    ⟨"LEN", 31, 0, .rw, .val 0, none⟩]⟩,
  ⟨"UPD_DATA", 0x70114, [], [
    ⟨"DATA", 31, 0, .wo, .val 0, none⟩]⟩,
  ⟨"UPD_STATUS", 0x70118, [], [
    ⟨"STATE", 3, 0, .ro, .val 0, none⟩,
    ⟨"SECTION", 7, 4, .ro, .val 0, none⟩,
    ⟨"ERR", 15, 8, .ro, .val 0, none⟩,
    ⟨"FAILED", 16, 16, .w1c, .val 0, none⟩,
    ⟨"CONFIRMED", 17, 17, .w1c, .val 0, none⟩,
    ⟨"FELLBACK", 18, 18, .w1c, .val 0, none⟩,
    ⟨"LATE", 19, 19, .w1c, .val 0, none⟩,
    ⟨"PARTIAL_ACT", 20, 20, .w1c, .val 0, none⟩]⟩,
  ⟨"UPD_OFFSET", 0x7011C, [], [
    ⟨"NEXT", 31, 0, .ro, .val 0, none⟩]⟩,
  ⟨"UPD_HEALTH", 0x70120, [], [
    ⟨"MET", 15, 0, .ro, .val 0, none⟩,
    ⟨"DEF", 31, 16, .ro, .img, none⟩]⟩,
  ⟨"UPD_WINDOW_LEFT", 0x70124, [], [
    ⟨"MS", 31, 0, .ro, .val 0, none⟩]⟩,
  ⟨"UPD_TIMEOUT", 0x70128, [], [
    ⟨"SEC", 15, 0, .rw, .ret, some (1, 65535)⟩]⟩,
  ⟨"UPD_JOURNAL", 0x7012C, [], [
    ⟨"ACTIVE", 1, 0, .ro, .val 0, none⟩,
    ⟨"OTHER", 3, 2, .ro, .val 0, none⟩,
    ⟨"JSTATE", 6, 4, .ro, .val 0, none⟩,
    ⟨"PRE_HALF", 15, 8, .ro, .val 0, none⟩]⟩,
  ⟨"UPD_SLOT_VER", 0x70130, [(4, 2)], [
    ⟨"VER", 31, 0, .ro, .val 0, none⟩]⟩,
  ⟨"UPD_FUSE", 0x70138, [], [
    ⟨"ARB_FUSE", 6, 0, .ro, .fused, none⟩,
    ⟨"PKH_SET", 8, 8, .ro, .fused, none⟩]⟩,
  ⟨"UPD_TRANSIENT", 0x7013C, [], [
    ⟨"COUNT", 31, 0, .rc, .val 0, none⟩]⟩,
  ⟨"UPD_LASTING", 0x70140, [], [
    ⟨"COUNT", 31, 0, .ro, .val 0, none⟩]⟩,
  ⟨"UPD_SEC_VER", 0x70180, [(4, 8)], [
    ⟨"ACTIVE", 15, 0, .ro, .img, none⟩,
    ⟨"STAGED", 31, 16, .ro, .val 0, none⟩]⟩]

/-- Registers of spec/19_maintenance.md. -/
def regRows19 : List RegRow := [
  ⟨"MNT_QUEUE", 0xF0000, [], [
    ⟨"DEPTH", 5, 0, .ro, .val 0, none⟩,
    ⟨"HIGH", 13, 8, .rc, .val 0, none⟩]⟩,
  ⟨"MNT_LATE", 0xF0004, [], [
    ⟨"COUNT", 31, 0, .rc, .val 0, none⟩]⟩,
  ⟨"MNT_ALERT_STATUS", 0xF0008, [], [
    ⟨"LASTING", 6, 0, .w1c, .val 0, none⟩,
    ⟨"TRANS", 14, 8, .w1c, .val 0, none⟩]⟩,
  ⟨"MNT_ALERT_MASK", 0xF000C, [], [
    ⟨"LASTING", 6, 0, .rw, .ret, none⟩,
    ⟨"TRANS", 14, 8, .rw, .ret, none⟩]⟩,
  ⟨"MNT_LAST_FAULT", 0xF0010, [], [
    ⟨"CLASS", 2, 0, .ro, .val 0, none⟩,
    ⟨"TRANSIENT", 3, 3, .ro, .val 0, none⟩]⟩,
  ⟨"MNT_LAST_LOC", 0xF0014, [], [
    ⟨"LOC", 31, 0, .ro, .val 0, none⟩]⟩,
  ⟨"MNT_ACT_STATE", 0xF0100, [(16, 11)], [
    ⟨"RUNNING", 4, 0, .ro, .val 0, none⟩,
    ⟨"WAITING", 12, 8, .ro, .val 0, none⟩,
    ⟨"PAUSED", 16, 16, .ro, .val 0, none⟩]⟩,
  ⟨"MNT_ACT_WAITS", 0xF0104, [(16, 11)], [
    ⟨"COUNT", 31, 0, .ro, .val 0, none⟩]⟩,
  ⟨"MNT_ACT_JOINED", 0xF0108, [(16, 11)], [
    ⟨"COUNT", 31, 0, .rc, .val 0, none⟩]⟩,
  ⟨"MNT_ACT_WITHDRAWN", 0xF010C, [(16, 11)], [
    ⟨"COUNT", 31, 0, .rc, .val 0, none⟩]⟩,
  ⟨"MNT_FAULT_TRANS", 0xF0200, [(8, 7)], [
    ⟨"COUNT", 31, 0, .rc, .val 0, none⟩]⟩,
  ⟨"MNT_FAULT_LASTING", 0xF0204, [(8, 7)], [
    ⟨"COUNT", 31, 0, .ro, .val 0, none⟩]⟩]

/-- Registers of spec/20_debug.md. -/
def regRows20 : List RegRow := [
  ⟨"DBG_CTRL", 0x60000, [], [
    ⟨"HALT", 0, 0, .wo, .val 0, none⟩,
    ⟨"RESUME", 1, 1, .wo, .val 0, none⟩,
    ⟨"STEP", 2, 2, .wo, .val 0, none⟩,
    ⟨"STEP_UNIT", 3, 3, .rw, .val 0, none⟩,
    ⟨"RELOCK", 4, 4, .wo, .val 0, none⟩,
    ⟨"STEP_COUNT", 31, 16, .rw, .val 1, some (1, 65535)⟩]⟩,
  ⟨"DBG_STATUS", 0x60004, [], [
    ⟨"STATE", 1, 0, .ro, .val 0, none⟩,
    ⟨"UNLOCKED", 2, 2, .ro, .val 0, none⟩,
    ⟨"LOCK_FUSED", 3, 3, .ro, .fused, none⟩,
    ⟨"REFUSED", 4, 4, .w1c, .val 0, none⟩,
    ⟨"BP_HIT", 15, 8, .w1c, .val 0, none⟩,
    ⟨"UNLOCK_FAILS", 19, 16, .ro, .val 0, none⟩]⟩,
  ⟨"DBG_HALT_SN_LO", 0x60008, [], [
    ⟨"SN_LO", 31, 0, .rs, .val 0, none⟩]⟩,
  ⟨"DBG_HALT_SN_HI", 0x6000C, [], [
    ⟨"SN_HI", 31, 0, .rs, .val 0, none⟩]⟩,
  ⟨"DBG_RESUME_SN_LO", 0x60010, [], [
    ⟨"SN_LO", 31, 0, .rs, .val 0, none⟩]⟩,
  ⟨"DBG_RESUME_SN_HI", 0x60014, [], [
    ⟨"SN_HI", 31, 0, .rs, .val 0, none⟩]⟩,
  ⟨"DBG_HALTS", 0x60018, [], [
    ⟨"COUNT", 31, 0, .ro, .val 0, none⟩]⟩,
  ⟨"DBG_BP_CTRL", 0x60100, [(32, 8)], [
    ⟨"EN", 0, 0, .rw, .val 0, none⟩,
    ⟨"ACTION", 1, 1, .rw, .val 0, none⟩,
    ⟨"TYPE", 4, 2, .rw, .val 0, some (0, 4)⟩,
    ⟨"TAP", 6, 5, .rw, .val 0, none⟩,
    ⟨"COND", 8, 7, .rw, .val 0, none⟩]⟩,
  ⟨"DBG_BP_SEL", 0x60104, [(32, 8)], [
    ⟨"SEL", 8, 0, .rw, .val 0, none⟩,
    ⟨"KIND", 10, 9, .rw, .val 0, none⟩,
    ⟨"EVENT", 12, 11, .rw, .val 0, none⟩,
    ⟨"SUPP", 13, 13, .rw, .val 0, none⟩,
    ⟨"IDMASK", 24, 16, .rw, .val 0, none⟩]⟩,
  ⟨"DBG_BP_VALUE", 0x60108, [(32, 8)], [
    ⟨"VALUE", 31, 0, .rw, .val 0, none⟩]⟩,
  ⟨"DBG_BP_COUNT", 0x6010C, [(32, 8)], [
    ⟨"COUNT", 31, 0, .rc, .val 0, none⟩]⟩]

/-- Registers of spec/21_electrical.md. -/
def regRows21 : List RegRow := [
  ⟨"PWR_MON_TEMP", 0x10200, [(4, 8)], [
    ⟨"TEMP", 15, 0, .ro, .val 0, none⟩]⟩,
  ⟨"PWR_MON_VOLT", 0x10220, [(4, 7)], [
    ⟨"MV", 15, 0, .ro, .val 0, none⟩]⟩,
  ⟨"PWR_MON_LIMIT", 0x10240, [], [
    ⟨"LIMIT", 15, 0, .rw, .ret, some (-640, 2000)⟩,
    ⟨"HYST", 24, 16, .rw, .ret, some (0, 256)⟩]⟩,
  ⟨"PWR_MON_STATUS", 0x10244, [], [
    ⟨"THERM", 0, 0, .ro, .val 0, none⟩,
    ⟨"THERM_HIT", 1, 1, .w1c, .val 0, none⟩,
    ⟨"RAIL_OUT", 14, 8, .w1c, .val 0, none⟩]⟩]

/-- The whole map (R2-R6). -/
def regRows : List RegRow :=
  regRows02a ++ regRows02b ++ regRows03 ++ regRows04 ++ regRows05 ++ regRows06 ++ regRows07 ++ regRows08 ++ regRows09 ++ regRows10 ++ regRows11 ++ regRows12 ++ regRows13 ++ regRows14a ++ regRows14b ++ regRows15 ++ regRows16 ++ regRows17 ++ regRows18 ++ regRows19 ++ regRows20 ++ regRows21

/-- The instance of `dims` that lies `d` bytes above the base, if one does (R6). -/
def dimsHit : List (Nat × Nat) → Nat → Bool
  | [], d => d == 0
  | (s, c) :: rest, d => decide (d / s < c) && dimsHit rest (d % s)

/-- The row that `off` belongs to. -/
def RegRow.hit (r : RegRow) (off : Nat) : Bool :=
  decide (r.base ≤ off) && dimsHit r.dims (off - r.base)

/-- The row of a BAR0 offset; `none` for a reserved address (R5). -/
def regRow? (off : Nat) : Option RegRow := regRows.find? (·.hit off)

/-- The bits of `fields` whose row meets `p`, as a mask. -/
def maskOf (p : FieldRow → Bool) : List FieldRow → Nat
  | [] => 0
  | f :: fs => (if p f then (2 ^ (f.hi + 1 - f.lo) - 1) * 2 ^ f.lo else 0) ||| maskOf p fs

/-- A field of the register at a BAR0 offset, as the machine reads and writes it: lowest bit and width. -/
structure Fld where
  off   : Nat
  lo    : Nat
  width : Nat
deriving DecidableEq, Repr

end Sys2Proof.Machine
end

