-- ==== Sys2Proof/Machine/Reg.lean ====
section
/-!
DEFINITION. Machine/Reg.lean: the names of the registers and fields of Machine/RegMap.lean: `R.NAME` is the BAR0 offset
of a register (a function of its indices, R6) and `F.NAME_FIELD` one of its fields.
-/

namespace Sys2Proof.Machine

def R.TIME_FRC_LO : Nat := 0x20000
def F.TIME_FRC_LO_FRC_LO : Fld := ⟨R.TIME_FRC_LO, 0, 32⟩
def R.TIME_FRC_HI : Nat := 0x20004
def F.TIME_FRC_HI_FRC_HI : Fld := ⟨R.TIME_FRC_HI, 0, 32⟩
def R.TIME_INCR_LO : Nat := 0x20008
def F.TIME_INCR_LO_INCR_LO : Fld := ⟨R.TIME_INCR_LO, 0, 32⟩
def R.TIME_INCR_HI : Nat := 0x2000C
def F.TIME_INCR_HI_INCR_HI : Fld := ⟨R.TIME_INCR_HI, 0, 32⟩
def R.TIME_STEP_LO : Nat := 0x20010
def F.TIME_STEP_LO_STEP_LO : Fld := ⟨R.TIME_STEP_LO, 0, 32⟩
def R.TIME_STEP_HI : Nat := 0x20014
def F.TIME_STEP_HI_STEP_HI : Fld := ⟨R.TIME_STEP_HI, 0, 32⟩
def R.TIME_EPOCH : Nat := 0x20018
def F.TIME_EPOCH_EPOCH : Fld := ⟨R.TIME_EPOCH, 0, 16⟩
def R.TIME_STATUS : Nat := 0x2001C
def F.TIME_STATUS_INCR_PENDING : Fld := ⟨R.TIME_STATUS, 0, 1⟩
def F.TIME_STATUS_STEP_PENDING : Fld := ⟨R.TIME_STATUS, 1, 1⟩
def F.TIME_STATUS_INCR_ERR : Fld := ⟨R.TIME_STATUS, 8, 1⟩
def F.TIME_STATUS_STEP_ERR : Fld := ⟨R.TIME_STATUS, 9, 1⟩
def F.TIME_STATUS_STEP_BUSY : Fld := ⟨R.TIME_STATUS, 10, 1⟩
def F.TIME_STATUS_INCR_BUSY : Fld := ⟨R.TIME_STATUS, 11, 1⟩
def R.TIME_QUALITY : Nat := 0x20020
def F.TIME_QUALITY_QUALITY : Fld := ⟨R.TIME_QUALITY, 0, 8⟩
def R.TIME_NOW_SEC_LO : Nat := 0x20030
def F.TIME_NOW_SEC_LO_SEC_LO : Fld := ⟨R.TIME_NOW_SEC_LO, 0, 32⟩
def R.TIME_NOW_SEC_HI : Nat := 0x20034
def F.TIME_NOW_SEC_HI_SEC_HI : Fld := ⟨R.TIME_NOW_SEC_HI, 0, 16⟩
def F.TIME_NOW_SEC_HI_EPOCH : Fld := ⟨R.TIME_NOW_SEC_HI, 16, 16⟩
def R.TIME_NOW_NS : Nat := 0x20038
def F.TIME_NOW_NS_NS : Fld := ⟨R.TIME_NOW_NS, 0, 32⟩
def R.TIME_NOW_FRAC : Nat := 0x2003C
def F.TIME_NOW_FRAC_FRAC : Fld := ⟨R.TIME_NOW_FRAC, 0, 16⟩
def R.TIME_NOW_FRC_LO : Nat := 0x20040
def F.TIME_NOW_FRC_LO_FRC_LO : Fld := ⟨R.TIME_NOW_FRC_LO, 0, 32⟩
def R.TIME_NOW_FRC_HI : Nat := 0x20044
def F.TIME_NOW_FRC_HI_FRC_HI : Fld := ⟨R.TIME_NOW_FRC_HI, 0, 32⟩
def R.TIME_NOW_SHORT : Nat := 0x20048
def F.TIME_NOW_SHORT_SHORT : Fld := ⟨R.TIME_NOW_SHORT, 0, 32⟩
def R.TIME_SPERIOD_LO : Nat := 0x20050
def F.TIME_SPERIOD_LO_TS_LO : Fld := ⟨R.TIME_SPERIOD_LO, 0, 32⟩
def R.TIME_SPERIOD_HI : Nat := 0x20054
def F.TIME_SPERIOD_HI_TS_HI : Fld := ⟨R.TIME_SPERIOD_HI, 0, 32⟩
def R.TIME_ANCHOR_SN_LO : Nat := 0x20060
def F.TIME_ANCHOR_SN_LO_SN_LO : Fld := ⟨R.TIME_ANCHOR_SN_LO, 0, 32⟩
def R.TIME_ANCHOR_SN_HI : Nat := 0x20064
def F.TIME_ANCHOR_SN_HI_SN_HI : Fld := ⟨R.TIME_ANCHOR_SN_HI, 0, 32⟩
def R.TIME_ANCHOR_SEC_LO : Nat := 0x20068
def F.TIME_ANCHOR_SEC_LO_SEC_LO : Fld := ⟨R.TIME_ANCHOR_SEC_LO, 0, 32⟩
def R.TIME_ANCHOR_SEC_HI : Nat := 0x2006C
def F.TIME_ANCHOR_SEC_HI_SEC_HI : Fld := ⟨R.TIME_ANCHOR_SEC_HI, 0, 16⟩
def F.TIME_ANCHOR_SEC_HI_EPOCH : Fld := ⟨R.TIME_ANCHOR_SEC_HI, 16, 16⟩
def R.TIME_ANCHOR_NS : Nat := 0x20070
def F.TIME_ANCHOR_NS_NS : Fld := ⟨R.TIME_ANCHOR_NS, 0, 32⟩
def R.TIME_ANCHOR_FRAC : Nat := 0x20074
def F.TIME_ANCHOR_FRAC_FRAC : Fld := ⟨R.TIME_ANCHOR_FRAC, 0, 16⟩
def R.TIME_PHASE_RES : Nat := 0x20078
def F.TIME_PHASE_RES_PHASE_RES : Fld := ⟨R.TIME_PHASE_RES, 0, 32⟩
def R.TIME_PHASE_RAW : Nat := 0x2007C
def F.TIME_PHASE_RAW_TDC : Fld := ⟨R.TIME_PHASE_RAW, 0, 20⟩
def R.TIME_TCU_CTRL (n : Nat) : Nat := 0x20100 + 0x40 * n
def F.TIME_TCU_CTRL_ARM (n : Nat) : Fld := ⟨R.TIME_TCU_CTRL n, 0, 1⟩
def F.TIME_TCU_CTRL_MODE (n : Nat) : Fld := ⟨R.TIME_TCU_CTRL n, 1, 1⟩
def F.TIME_TCU_CTRL_QUAL (n : Nat) : Fld := ⟨R.TIME_TCU_CTRL n, 2, 1⟩
def F.TIME_TCU_CTRL_SRC (n : Nat) : Fld := ⟨R.TIME_TCU_CTRL n, 4, 3⟩
def F.TIME_TCU_CTRL_EVREC (n : Nat) : Fld := ⟨R.TIME_TCU_CTRL n, 8, 1⟩
def F.TIME_TCU_CTRL_WAKE (n : Nat) : Fld := ⟨R.TIME_TCU_CTRL n, 9, 1⟩
def F.TIME_TCU_CTRL_STATE (n : Nat) : Fld := ⟨R.TIME_TCU_CTRL n, 16, 2⟩
def R.TIME_TCU_STATUS (n : Nat) : Nat := 0x20104 + 0x40 * n
def F.TIME_TCU_STATUS_FIRED (n : Nat) : Fld := ⟨R.TIME_TCU_STATUS n, 0, 1⟩
def F.TIME_TCU_STATUS_LATE (n : Nat) : Fld := ⟨R.TIME_TCU_STATUS n, 1, 1⟩
def F.TIME_TCU_STATUS_DISARM_LATE (n : Nat) : Fld := ⟨R.TIME_TCU_STATUS n, 2, 1⟩
def F.TIME_TCU_STATUS_MODE_ERR (n : Nat) : Fld := ⟨R.TIME_TCU_STATUS n, 3, 1⟩
def F.TIME_TCU_STATUS_PARAM_ERR (n : Nat) : Fld := ⟨R.TIME_TCU_STATUS n, 4, 1⟩
def R.TIME_TCU_SHORT (n : Nat) : Nat := 0x20108 + 0x40 * n
def F.TIME_TCU_SHORT_SHORT (n : Nat) : Fld := ⟨R.TIME_TCU_SHORT n, 0, 32⟩
def R.TIME_TCU_FINE (n : Nat) : Nat := 0x2010C + 0x40 * n
def F.TIME_TCU_FINE_FINE (n : Nat) : Fld := ⟨R.TIME_TCU_FINE n, 0, 7⟩
def R.TIME_TCU_SEC_LO (n : Nat) : Nat := 0x20110 + 0x40 * n
def F.TIME_TCU_SEC_LO_SEC_LO (n : Nat) : Fld := ⟨R.TIME_TCU_SEC_LO n, 0, 32⟩
def R.TIME_TCU_SEC_HI (n : Nat) : Nat := 0x20114 + 0x40 * n
def F.TIME_TCU_SEC_HI_SEC_HI (n : Nat) : Fld := ⟨R.TIME_TCU_SEC_HI n, 0, 16⟩
def R.TIME_TCU_NS (n : Nat) : Nat := 0x20118 + 0x40 * n
def F.TIME_TCU_NS_NS (n : Nat) : Fld := ⟨R.TIME_TCU_NS n, 0, 32⟩
def R.TIME_TCU_FRAC (n : Nat) : Nat := 0x2011C + 0x40 * n
def F.TIME_TCU_FRAC_FRAC (n : Nat) : Fld := ⟨R.TIME_TCU_FRAC n, 0, 16⟩
def R.TIME_TCU_PERIOD_NS (n : Nat) : Nat := 0x20120 + 0x40 * n
def F.TIME_TCU_PERIOD_NS_PERIOD_NS (n : Nat) : Fld := ⟨R.TIME_TCU_PERIOD_NS n, 0, 32⟩
def R.TIME_TCU_PERIOD_FRAC (n : Nat) : Nat := 0x20124 + 0x40 * n
def F.TIME_TCU_PERIOD_FRAC_PERIOD_FRAC (n : Nat) : Fld := ⟨R.TIME_TCU_PERIOD_FRAC n, 0, 16⟩
def R.TIME_TCU_WIDTH (n : Nat) : Nat := 0x20128 + 0x40 * n
def F.TIME_TCU_WIDTH_WIDTH (n : Nat) : Fld := ⟨R.TIME_TCU_WIDTH n, 0, 24⟩
def R.TIME_TCU_SKIP (n : Nat) : Nat := 0x2012C + 0x40 * n
def F.TIME_TCU_SKIP_SKIP (n : Nat) : Fld := ⟨R.TIME_TCU_SKIP n, 0, 32⟩
def R.TIME_TCU_FIRES (n : Nat) : Nat := 0x20130 + 0x40 * n
def F.TIME_TCU_FIRES_FIRES (n : Nat) : Fld := ⟨R.TIME_TCU_FIRES n, 0, 32⟩
def R.TIME_TPO_CTRL (n : Nat) : Nat := 0x20500 + 0x10 * n
def F.TIME_TPO_CTRL_EN (n : Nat) : Fld := ⟨R.TIME_TPO_CTRL n, 0, 1⟩
def F.TIME_TPO_CTRL_POL (n : Nat) : Fld := ⟨R.TIME_TPO_CTRL n, 1, 1⟩
def F.TIME_TPO_CTRL_TCU (n : Nat) : Fld := ⟨R.TIME_TPO_CTRL n, 4, 4⟩
def R.TIME_TCI_CTRL (n : Nat) : Nat := 0x20600 + 0x20 * n
def F.TIME_TCI_CTRL_EN (n : Nat) : Fld := ⟨R.TIME_TCI_CTRL n, 0, 1⟩
def F.TIME_TCI_CTRL_EDGE (n : Nat) : Fld := ⟨R.TIME_TCI_CTRL n, 1, 2⟩
def F.TIME_TCI_CTRL_EVREC (n : Nat) : Fld := ⟨R.TIME_TCI_CTRL n, 3, 1⟩
def R.TIME_TCI_SEC_LO (n : Nat) : Nat := 0x20604 + 0x20 * n
def F.TIME_TCI_SEC_LO_SEC_LO (n : Nat) : Fld := ⟨R.TIME_TCI_SEC_LO n, 0, 32⟩
def R.TIME_TCI_SEC_HI (n : Nat) : Nat := 0x20608 + 0x20 * n
def F.TIME_TCI_SEC_HI_SEC_HI (n : Nat) : Fld := ⟨R.TIME_TCI_SEC_HI n, 0, 16⟩
def F.TIME_TCI_SEC_HI_EPOCH (n : Nat) : Fld := ⟨R.TIME_TCI_SEC_HI n, 16, 16⟩
def R.TIME_TCI_NS (n : Nat) : Nat := 0x2060C + 0x20 * n
def F.TIME_TCI_NS_NS (n : Nat) : Fld := ⟨R.TIME_TCI_NS n, 0, 32⟩
def R.TIME_TCI_FRAC (n : Nat) : Nat := 0x20610 + 0x20 * n
def F.TIME_TCI_FRAC_FRAC (n : Nat) : Fld := ⟨R.TIME_TCI_FRAC n, 0, 16⟩
def F.TIME_TCI_FRAC_RISE (n : Nat) : Fld := ⟨R.TIME_TCI_FRAC n, 31, 1⟩
def R.TIME_TCI_COUNT (n : Nat) : Nat := 0x20614 + 0x20 * n
def F.TIME_TCI_COUNT_COUNT (n : Nat) : Fld := ⟨R.TIME_TCI_COUNT n, 0, 32⟩
def R.TIME_TCI_MISSED (n : Nat) : Nat := 0x20618 + 0x20 * n
def F.TIME_TCI_MISSED_MISSED (n : Nat) : Fld := ⟨R.TIME_TCI_MISSED n, 0, 32⟩
def R.TIME_TB_SEC (n : Nat) : Nat := 0x20800 + 0x20 * n
def F.TIME_TB_SEC_SEC (n : Nat) : Fld := ⟨R.TIME_TB_SEC n, 0, 32⟩
def R.TIME_TB_NS (n : Nat) : Nat := 0x20804 + 0x20 * n
def F.TIME_TB_NS_NS (n : Nat) : Fld := ⟨R.TIME_TB_NS n, 0, 30⟩
def R.TIME_TB_INCR (n : Nat) : Nat := 0x20808 + 0x20 * n
def F.TIME_TB_INCR_INCR (n : Nat) : Fld := ⟨R.TIME_TB_INCR n, 0, 32⟩
def R.TIME_TB_CTRL (n : Nat) : Nat := 0x2080C + 0x20 * n
def F.TIME_TB_CTRL_RUN (n : Nat) : Fld := ⟨R.TIME_TB_CTRL n, 0, 1⟩
def R.IMG_STATUS : Nat := 0x70000
def F.IMG_STATUS_SLOT : Fld := ⟨R.IMG_STATUS, 0, 2⟩
def F.IMG_STATUS_STATE : Fld := ⟨R.IMG_STATUS, 2, 2⟩
def F.IMG_STATUS_MBXT_DEFERRED : Fld := ⟨R.IMG_STATUS, 4, 1⟩
def F.IMG_STATUS_DEFAULTS_USED : Fld := ⟨R.IMG_STATUS, 5, 1⟩
def R.IMG_VERSION : Nat := 0x70004
def F.IMG_VERSION_VERSION : Fld := ⟨R.IMG_VERSION, 0, 32⟩
def R.IMG_CHECK : Nat := 0x70008
def F.IMG_CHECK_CODE : Fld := ⟨R.IMG_CHECK, 0, 8⟩
def F.IMG_CHECK_DETAIL : Fld := ⟨R.IMG_CHECK, 8, 8⟩
def F.IMG_CHECK_SLOT : Fld := ⟨R.IMG_CHECK, 16, 2⟩
def R.IMG_HOST_ADDR_LO : Nat := 0x70010
def F.IMG_HOST_ADDR_LO_ADDR_LO : Fld := ⟨R.IMG_HOST_ADDR_LO, 0, 32⟩
def R.IMG_HOST_ADDR_HI : Nat := 0x70014
def F.IMG_HOST_ADDR_HI_ADDR_HI : Fld := ⟨R.IMG_HOST_ADDR_HI, 0, 32⟩
def R.IMG_REFORM_CTRL : Nat := 0x70018
def F.IMG_REFORM_CTRL_SLOT : Fld := ⟨R.IMG_REFORM_CTRL, 0, 2⟩
def F.IMG_REFORM_CTRL_AT_SN : Fld := ⟨R.IMG_REFORM_CTRL, 2, 1⟩
def F.IMG_REFORM_CTRL_GO : Fld := ⟨R.IMG_REFORM_CTRL, 31, 1⟩
def R.IMG_REFORM_SN_LO : Nat := 0x7001C
def F.IMG_REFORM_SN_LO_SN_LO : Fld := ⟨R.IMG_REFORM_SN_LO, 0, 32⟩
def R.IMG_REFORM_SN_HI : Nat := 0x70020
def F.IMG_REFORM_SN_HI_SN_HI : Fld := ⟨R.IMG_REFORM_SN_HI, 0, 32⟩
def R.IMG_REFORM_STATUS : Nat := 0x70024
def F.IMG_REFORM_STATUS_PENDING : Fld := ⟨R.IMG_REFORM_STATUS, 0, 1⟩
def F.IMG_REFORM_STATUS_LATE : Fld := ⟨R.IMG_REFORM_STATUS, 1, 1⟩
def F.IMG_REFORM_STATUS_REFUSED : Fld := ⟨R.IMG_REFORM_STATUS, 2, 1⟩
def F.IMG_REFORM_STATUS_APPLY_DISCARDED : Fld := ⟨R.IMG_REFORM_STATUS, 3, 1⟩
def F.IMG_REFORM_STATUS_QUEUE_FULL : Fld := ⟨R.IMG_REFORM_STATUS, 4, 1⟩
def F.IMG_REFORM_STATUS_REFORMS : Fld := ⟨R.IMG_REFORM_STATUS, 16, 16⟩
def R.IMG_REFORM_AT_LO : Nat := 0x70028
def F.IMG_REFORM_AT_LO_AT_LO : Fld := ⟨R.IMG_REFORM_AT_LO, 0, 32⟩
def R.IMG_REFORM_AT_HI : Nat := 0x7002C
def F.IMG_REFORM_AT_HI_AT_HI : Fld := ⟨R.IMG_REFORM_AT_HI, 0, 32⟩
def R.IMG_LAT_RAW : Nat := 0x70030
def F.IMG_LAT_RAW_LAT : Fld := ⟨R.IMG_LAT_RAW, 0, 16⟩
def R.IMG_LAT_CLEAN : Nat := 0x70034
def F.IMG_LAT_CLEAN_LAT : Fld := ⟨R.IMG_LAT_CLEAN, 0, 16⟩
def R.IMG_LAT_ALIGNED : Nat := 0x70038
def F.IMG_LAT_ALIGNED_LAT : Fld := ⟨R.IMG_LAT_ALIGNED, 0, 16⟩
def R.IMG_LAT_CHAIN : Nat := 0x7003C
def F.IMG_LAT_CHAIN_LAT : Fld := ⟨R.IMG_LAT_CHAIN, 0, 16⟩
def R.IMG_LAT_BEAM : Nat := 0x70040
def F.IMG_LAT_BEAM_LAT : Fld := ⟨R.IMG_LAT_BEAM, 0, 16⟩
def R.IMG_FMAX : Nat := 0x70044
def F.IMG_FMAX_FMAX_KHZ : Fld := ⟨R.IMG_FMAX, 0, 20⟩
def F.IMG_FMAX_LOWPWR : Fld := ⟨R.IMG_FMAX, 20, 1⟩
def R.IMG_POOL (q : Nat) : Nat := 0x70050 + 0x4 * q
def F.IMG_POOL_ALLOC_SUM (q : Nat) : Fld := ⟨R.IMG_POOL q, 0, 12⟩
def F.IMG_POOL_CHARGE_SUM (q : Nat) : Fld := ⟨R.IMG_POOL q, 16, 12⟩
def R.IMG_PORT_LOAD (p : Nat) : Nat := 0x70060 + 0x4 * p
def F.IMG_PORT_LOAD_LOAD (p : Nat) : Fld := ⟨R.IMG_PORT_LOAD p, 0, 14⟩
def R.IMG_PART (n : Nat) : Nat := 0x70070 + 0x4 * n
def F.IMG_PART_BANKS (n : Nat) : Fld := ⟨R.IMG_PART n, 0, 9⟩
def F.IMG_PART_FIRST_BANK (n : Nat) : Fld := ⟨R.IMG_PART n, 16, 8⟩
def R.IMG_RING : Nat := 0x70084
def F.IMG_RING_DEPTH : Fld := ⟨R.IMG_RING, 0, 22⟩
def F.IMG_RING_FMT : Fld := ⟨R.IMG_RING, 22, 1⟩
def F.IMG_RING_QMASK : Fld := ⟨R.IMG_RING, 24, 4⟩
def R.IMG_PRE_MAX : Nat := 0x70088
def F.IMG_PRE_MAX_PRE_MAX : Fld := ⟨R.IMG_PRE_MAX, 0, 22⟩
def R.IMG_APPLY_REFUSE : Nat := 0x7008C
def F.IMG_APPLY_REFUSE_OFFSET : Fld := ⟨R.IMG_APPLY_REFUSE, 0, 23⟩
def F.IMG_APPLY_REFUSE_REFUSED : Fld := ⟨R.IMG_APPLY_REFUSE, 31, 1⟩
def R.AFE_RUN_CFG : Nat := 0x90000
def F.AFE_RUN_CFG_SRC : Fld := ⟨R.AFE_RUN_CFG, 0, 2⟩
def F.AFE_RUN_CFG_TCU : Fld := ⟨R.AFE_RUN_CFG, 4, 4⟩
def F.AFE_RUN_CFG_STOP_TCU_EN : Fld := ⟨R.AFE_RUN_CFG, 8, 1⟩
def F.AFE_RUN_CFG_STOP_TCU : Fld := ⟨R.AFE_RUN_CFG, 12, 4⟩
def R.AFE_RUN_CMD : Nat := 0x90004
def F.AFE_RUN_CMD_ARM : Fld := ⟨R.AFE_RUN_CMD, 0, 1⟩
def F.AFE_RUN_CMD_DISARM : Fld := ⟨R.AFE_RUN_CMD, 1, 1⟩
def F.AFE_RUN_CMD_START : Fld := ⟨R.AFE_RUN_CMD, 2, 1⟩
def F.AFE_RUN_CMD_STOP : Fld := ⟨R.AFE_RUN_CMD, 3, 1⟩
def F.AFE_RUN_CMD_STOP_AT_SN : Fld := ⟨R.AFE_RUN_CMD, 4, 1⟩
def R.AFE_RUN_DELAY : Nat := 0x90008
def F.AFE_RUN_DELAY_DELAY : Fld := ⟨R.AFE_RUN_DELAY, 0, 24⟩
def R.AFE_RUN_STATUS : Nat := 0x9000C
def F.AFE_RUN_STATUS_STATE : Fld := ⟨R.AFE_RUN_STATUS, 0, 2⟩
def F.AFE_RUN_STATUS_DRAINING : Fld := ⟨R.AFE_RUN_STATUS, 2, 1⟩
def F.AFE_RUN_STATUS_STOP_PENDING : Fld := ⟨R.AFE_RUN_STATUS, 3, 1⟩
def F.AFE_RUN_STATUS_ARM_ERR : Fld := ⟨R.AFE_RUN_STATUS, 4, 4⟩
def F.AFE_RUN_STATUS_START_LATE : Fld := ⟨R.AFE_RUN_STATUS, 8, 1⟩
def F.AFE_RUN_STATUS_DELAY_SUBST : Fld := ⟨R.AFE_RUN_STATUS, 9, 1⟩
def F.AFE_RUN_STATUS_STOP_LATE : Fld := ⟨R.AFE_RUN_STATUS, 10, 1⟩
def F.AFE_RUN_STATUS_CMD_ERR : Fld := ⟨R.AFE_RUN_STATUS, 11, 1⟩
def F.AFE_RUN_STATUS_DISARM_LATE : Fld := ⟨R.AFE_RUN_STATUS, 12, 1⟩
def F.AFE_RUN_STATUS_UNLOCK_STOP : Fld := ⟨R.AFE_RUN_STATUS, 13, 1⟩
def F.AFE_RUN_STATUS_ARM_REFUSED : Fld := ⟨R.AFE_RUN_STATUS, 14, 1⟩
def R.AFE_DELAY_USED : Nat := 0x90010
def F.AFE_DELAY_USED_D_USED : Fld := ⟨R.AFE_DELAY_USED, 0, 24⟩
def R.AFE_STOP_SN_LO : Nat := 0x90014
def F.AFE_STOP_SN_LO_SN_LO : Fld := ⟨R.AFE_STOP_SN_LO, 0, 32⟩
def R.AFE_STOP_SN_HI : Nat := 0x90018
def F.AFE_STOP_SN_HI_SN_HI : Fld := ⟨R.AFE_STOP_SN_HI, 0, 32⟩
def R.AFE_STOP_AT_LO : Nat := 0x9001C
def F.AFE_STOP_AT_LO_AT_LO : Fld := ⟨R.AFE_STOP_AT_LO, 0, 32⟩
def R.AFE_STOP_AT_HI : Nat := 0x90020
def F.AFE_STOP_AT_HI_AT_HI : Fld := ⟨R.AFE_STOP_AT_HI, 0, 32⟩
def R.AFE_SN_LO : Nat := 0x90024
def F.AFE_SN_LO_SN_LO : Fld := ⟨R.AFE_SN_LO, 0, 32⟩
def R.AFE_SN_HI : Nat := 0x90028
def F.AFE_SN_HI_SN_HI : Fld := ⟨R.AFE_SN_HI, 0, 32⟩
def R.AFE_START_COLLISION : Nat := 0x9002C
def F.AFE_START_COLLISION_COUNT : Fld := ⟨R.AFE_START_COLLISION, 0, 32⟩
def R.AFE_STOP_COLLISION : Nat := 0x90030
def F.AFE_STOP_COLLISION_COUNT : Fld := ⟨R.AFE_STOP_COLLISION, 0, 32⟩
def R.AFE_START_SEC_LO : Nat := 0x90040
def F.AFE_START_SEC_LO_SEC_LO : Fld := ⟨R.AFE_START_SEC_LO, 0, 32⟩
def R.AFE_START_SEC_HI : Nat := 0x90044
def F.AFE_START_SEC_HI_SEC_HI : Fld := ⟨R.AFE_START_SEC_HI, 0, 16⟩
def F.AFE_START_SEC_HI_EPOCH : Fld := ⟨R.AFE_START_SEC_HI, 16, 16⟩
def R.AFE_START_NS : Nat := 0x90048
def F.AFE_START_NS_NS : Fld := ⟨R.AFE_START_NS, 0, 32⟩
def R.AFE_START_FRAC : Nat := 0x9004C
def F.AFE_START_FRAC_FRAC : Fld := ⟨R.AFE_START_FRAC, 0, 16⟩
def R.AFE_PLL_CFG : Nat := 0x90060
def F.AFE_PLL_CFG_REF_SRC : Fld := ⟨R.AFE_PLL_CFG, 0, 2⟩
def F.AFE_PLL_CFG_SYNCE_PORT : Fld := ⟨R.AFE_PLL_CFG, 2, 2⟩
def F.AFE_PLL_CFG_REF_FREQ : Fld := ⟨R.AFE_PLL_CFG, 4, 2⟩
def F.AFE_PLL_CFG_REF_DIV : Fld := ⟨R.AFE_PLL_CFG, 8, 4⟩
def F.AFE_PLL_CFG_OUT_DIV : Fld := ⟨R.AFE_PLL_CFG, 16, 8⟩
def F.AFE_PLL_CFG_LOWPWR : Fld := ⟨R.AFE_PLL_CFG, 24, 1⟩
def R.AFE_PLL_FB : Nat := 0x90064
def F.AFE_PLL_FB_FB_FRAC : Fld := ⟨R.AFE_PLL_FB, 0, 24⟩
def R.AFE_PLL_FBINT : Nat := 0x90068
def F.AFE_PLL_FBINT_FB_INT : Fld := ⟨R.AFE_PLL_FBINT, 0, 10⟩
def R.AFE_PLL_CTRL : Nat := 0x9006C
def F.AFE_PLL_CTRL_GO : Fld := ⟨R.AFE_PLL_CTRL, 0, 1⟩
def R.AFE_PLL_STATUS : Nat := 0x90070
def F.AFE_PLL_STATUS_LOCKED : Fld := ⟨R.AFE_PLL_STATUS, 0, 1⟩
def F.AFE_PLL_STATUS_HOLDOVER : Fld := ⟨R.AFE_PLL_STATUS, 1, 1⟩
def F.AFE_PLL_STATUS_ERR : Fld := ⟨R.AFE_PLL_STATUS, 4, 4⟩
def F.AFE_PLL_STATUS_ERR_FLAG : Fld := ⟨R.AFE_PLL_STATUS, 8, 1⟩
def F.AFE_PLL_STATUS_UNLOCK : Fld := ⟨R.AFE_PLL_STATUS, 9, 1⟩
def R.AFE_PLL_FREQ : Nat := 0x90074
def F.AFE_PLL_FREQ_FREQ_KHZ : Fld := ⟨R.AFE_PLL_FREQ, 0, 20⟩
def R.AFE_QPWR : Nat := 0x90080
def F.AFE_QPWR_REQ : Fld := ⟨R.AFE_QPWR, 0, 4⟩
def F.AFE_QPWR_ON : Fld := ⟨R.AFE_QPWR, 8, 4⟩
def F.AFE_QPWR_ERR : Fld := ⟨R.AFE_QPWR, 16, 1⟩
def R.AFE_SYNC_CTRL : Nat := 0x90100
def F.AFE_SYNC_CTRL_EN : Fld := ⟨R.AFE_SYNC_CTRL, 0, 1⟩
def F.AFE_SYNC_CTRL_POL : Fld := ⟨R.AFE_SYNC_CTRL, 1, 1⟩
def R.AFE_SYNC_MALFORMED : Nat := 0x90104
def F.AFE_SYNC_MALFORMED_COUNT : Fld := ⟨R.AFE_SYNC_MALFORMED, 0, 32⟩
def R.AFE_SYNC_MISSED : Nat := 0x90108
def F.AFE_SYNC_MISSED_COUNT : Fld := ⟨R.AFE_SYNC_MISSED, 0, 32⟩
def R.AFE_SYNC_CLS_CTRL (n : Nat) : Nat := 0x90110 + 0x10 * n
def F.AFE_SYNC_CLS_CTRL_EN (n : Nat) : Fld := ⟨R.AFE_SYNC_CLS_CTRL n, 0, 1⟩
def F.AFE_SYNC_CLS_CTRL_ACTION (n : Nat) : Fld := ⟨R.AFE_SYNC_CLS_CTRL n, 4, 2⟩
def R.AFE_SYNC_CLS_MIN (n : Nat) : Nat := 0x90114 + 0x10 * n
def F.AFE_SYNC_CLS_MIN_MIN (n : Nat) : Fld := ⟨R.AFE_SYNC_CLS_MIN n, 0, 24⟩
def R.AFE_SYNC_CLS_MAX (n : Nat) : Nat := 0x90118 + 0x10 * n
def F.AFE_SYNC_CLS_MAX_MAX (n : Nat) : Fld := ⟨R.AFE_SYNC_CLS_MAX n, 0, 24⟩
def R.AFE_SYNC_CLS_COUNT (n : Nat) : Nat := 0x9011C + 0x10 * n
def F.AFE_SYNC_CLS_COUNT_COUNT (n : Nat) : Fld := ⟨R.AFE_SYNC_CLS_COUNT n, 0, 32⟩
def R.AFE_TONE_CTRL (g : Nat) : Nat := 0x90200 + 0x10 * g
def F.AFE_TONE_CTRL_EN (g : Nat) : Fld := ⟨R.AFE_TONE_CTRL g, 0, 1⟩
def F.AFE_TONE_CTRL_AMP (g : Nat) : Fld := ⟨R.AFE_TONE_CTRL g, 4, 2⟩
def F.AFE_TONE_CTRL_M (g : Nat) : Fld := ⟨R.AFE_TONE_CTRL g, 16, 9⟩
def R.AFE_SEL (c : Nat) : Nat := 0x91000 + 0x10 * c
def F.AFE_SEL_SEL (c : Nat) : Fld := ⟨R.AFE_SEL c, 0, 3⟩
def R.AFE_OVR (c : Nat) : Nat := 0x91004 + 0x10 * c
def F.AFE_OVR_OVR (c : Nat) : Fld := ⟨R.AFE_OVR c, 0, 32⟩
def R.CAL_CTRL : Nat := 0x80000
def F.CAL_CTRL_CALRUN : Fld := ⟨R.CAL_CTRL, 0, 1⟩
def F.CAL_CTRL_ABORT : Fld := ⟨R.CAL_CTRL, 1, 1⟩
def F.CAL_CTRL_SAVE : Fld := ⟨R.CAL_CTRL, 2, 1⟩
def R.CAL_STATUS : Nat := 0x80004
def F.CAL_STATUS_BUSY : Fld := ⟨R.CAL_STATUS, 0, 1⟩
def F.CAL_STATUS_SAVE_BUSY : Fld := ⟨R.CAL_STATUS, 1, 1⟩
def F.CAL_STATUS_CALRUN_REFUSED : Fld := ⟨R.CAL_STATUS, 2, 1⟩
def F.CAL_STATUS_ABORT_LATE : Fld := ⟨R.CAL_STATUS, 3, 1⟩
def F.CAL_STATUS_ABORTED : Fld := ⟨R.CAL_STATUS, 4, 1⟩
def F.CAL_STATUS_SAVE_ERR : Fld := ⟨R.CAL_STATUS, 5, 1⟩
def F.CAL_STATUS_STORE_USED : Fld := ⟨R.CAL_STATUS, 6, 1⟩
def F.CAL_STATUS_NOCAL_COUNT : Fld := ⟨R.CAL_STATUS, 16, 9⟩
def R.CAL_BG_CTRL : Nat := 0x80008
def F.CAL_BG_CTRL_EN : Fld := ⟨R.CAL_BG_CTRL, 0, 1⟩
def F.CAL_BG_CTRL_GLIDE : Fld := ⟨R.CAL_BG_CTRL, 8, 5⟩
def F.CAL_BG_CTRL_GROUPS : Fld := ⟨R.CAL_BG_CTRL, 16, 16⟩
def R.CAL_BG_INTERVAL : Nat := 0x8000C
def F.CAL_BG_INTERVAL_INTERVAL_MS : Fld := ⟨R.CAL_BG_INTERVAL, 0, 24⟩
def R.CAL_TRANSIENT : Nat := 0x80010
def F.CAL_TRANSIENT_COUNT : Fld := ⟨R.CAL_TRANSIENT, 0, 32⟩
def R.CAL_LASTING : Nat := 0x80014
def F.CAL_LASTING_COUNT : Fld := ⟨R.CAL_LASTING, 0, 32⟩
def R.CAL_GROUP_STATE (g : Nat) : Nat := 0x80100 + 0x10 * g
def F.CAL_GROUP_STATE_PHASE (g : Nat) : Fld := ⟨R.CAL_GROUP_STATE g, 0, 3⟩
def F.CAL_GROUP_STATE_POS (g : Nat) : Fld := ⟨R.CAL_GROUP_STATE g, 4, 4⟩
def F.CAL_GROUP_STATE_ADOPTED (g : Nat) : Fld := ⟨R.CAL_GROUP_STATE g, 8, 1⟩
def F.CAL_GROUP_STATE_ADOPT_POS (g : Nat) : Fld := ⟨R.CAL_GROUP_STATE g, 12, 4⟩
def F.CAL_GROUP_STATE_SPARE_FAULT (g : Nat) : Fld := ⟨R.CAL_GROUP_STATE g, 16, 1⟩
def F.CAL_GROUP_STATE_OVERRUN (g : Nat) : Fld := ⟨R.CAL_GROUP_STATE g, 17, 1⟩
def R.CAL_GROUP_SWEEPS (g : Nat) : Nat := 0x80104 + 0x10 * g
def F.CAL_GROUP_SWEEPS_SWEEPS (g : Nat) : Fld := ⟨R.CAL_GROUP_SWEEPS g, 0, 32⟩
def R.CAL_GROUP_SN_LO (g : Nat) : Nat := 0x80108 + 0x10 * g
def F.CAL_GROUP_SN_LO_SN_LO (g : Nat) : Fld := ⟨R.CAL_GROUP_SN_LO g, 0, 32⟩
def R.CAL_GROUP_SN_HI (g : Nat) : Nat := 0x8010C + 0x10 * g
def F.CAL_GROUP_SN_HI_SN_HI (g : Nat) : Fld := ⟨R.CAL_GROUP_SN_HI g, 0, 32⟩
def R.CAL_RESULT (k : Nat) : Nat := 0x81000 + 0x4 * k
def F.CAL_RESULT_OFFSET (k : Nat) : Fld := ⟨R.CAL_RESULT k, 0, 2⟩
def F.CAL_RESULT_GAIN (k : Nat) : Fld := ⟨R.CAL_RESULT k, 2, 2⟩
def F.CAL_RESULT_STAGE (k : Nat) : Fld := ⟨R.CAL_RESULT k, 4, 2⟩
def F.CAL_RESULT_SKEW (k : Nat) : Fld := ⟨R.CAL_RESULT k, 6, 2⟩
def F.CAL_RESULT_NOISE (k : Nat) : Fld := ⟨R.CAL_RESULT k, 8, 2⟩
def F.CAL_RESULT_VALID_N (k : Nat) : Fld := ⟨R.CAL_RESULT k, 10, 1⟩
def F.CAL_RESULT_VALID_L (k : Nat) : Fld := ⟨R.CAL_RESULT k, 11, 1⟩
def F.CAL_RESULT_SOURCE (k : Nat) : Fld := ⟨R.CAL_RESULT k, 12, 2⟩
def F.CAL_RESULT_LASTING (k : Nat) : Fld := ⟨R.CAL_RESULT k, 14, 1⟩
def F.CAL_RESULT_DEGRADED (k : Nat) : Fld := ⟨R.CAL_RESULT k, 15, 1⟩
def F.CAL_RESULT_TEMP_TAG (k : Nat) : Fld := ⟨R.CAL_RESULT k, 16, 16⟩
def R.CND_USER_OFF (c : Nat) : Nat := 0x100000 + 0x100 * c
def F.CND_USER_OFF_OFFSET (c : Nat) : Fld := ⟨R.CND_USER_OFF c, 0, 16⟩
def R.CND_USER_GAIN (c : Nat) : Nat := 0x100004 + 0x100 * c
def F.CND_USER_GAIN_GAIN (c : Nat) : Fld := ⟨R.CND_USER_GAIN c, 0, 16⟩
def R.CND_SPK_CTRL (c : Nat) : Nat := 0x100008 + 0x100 * c
def F.CND_SPK_CTRL_MODE (c : Nat) : Fld := ⟨R.CND_SPK_CTRL c, 0, 2⟩
def F.CND_SPK_CTRL_WIN (c : Nat) : Fld := ⟨R.CND_SPK_CTRL c, 4, 2⟩
def F.CND_SPK_CTRL_RANK (c : Nat) : Fld := ⟨R.CND_SPK_CTRL c, 8, 4⟩
def R.CND_SPK_THR (c : Nat) : Nat := 0x10000C + 0x100 * c
def F.CND_SPK_THR_THR (c : Nat) : Fld := ⟨R.CND_SPK_THR c, 0, 16⟩
def R.CND_DELAY_INT (c : Nat) : Nat := 0x100010 + 0x100 * c
def F.CND_DELAY_INT_INT (c : Nat) : Fld := ⟨R.CND_DELAY_INT c, 0, 12⟩
def R.CND_DELAY_FRAC (c : Nat) : Nat := 0x100014 + 0x100 * c
def F.CND_DELAY_FRAC_FRAC (c : Nat) : Fld := ⟨R.CND_DELAY_FRAC c, 0, 16⟩
def R.CND_DELAY_RATE (c : Nat) : Nat := 0x100018 + 0x100 * c
def F.CND_DELAY_RATE_RATE (c : Nat) : Fld := ⟨R.CND_DELAY_RATE c, 0, 32⟩
def R.CND_DELAY_CTRL (c : Nat) : Nat := 0x10001C + 0x100 * c
def F.CND_DELAY_CTRL_KEEP_POS (c : Nat) : Fld := ⟨R.CND_DELAY_CTRL c, 0, 1⟩
def R.CND_DELAY_NOW (c : Nat) : Nat := 0x100020 + 0x100 * c
def F.CND_DELAY_NOW_GO (c : Nat) : Fld := ⟨R.CND_DELAY_NOW c, 0, 1⟩
def R.CND_STATUS (c : Nat) : Nat := 0x100024 + 0x100 * c
def F.CND_STATUS_LIMIT (c : Nat) : Fld := ⟨R.CND_STATUS c, 0, 1⟩
def F.CND_STATUS_LIMIT_HIT (c : Nat) : Fld := ⟨R.CND_STATUS c, 1, 1⟩
def F.CND_STATUS_IMMED_DONE (c : Nat) : Fld := ⟨R.CND_STATUS c, 2, 1⟩
def F.CND_STATUS_IMMED_REFUSED (c : Nat) : Fld := ⟨R.CND_STATUS c, 3, 1⟩
def F.CND_STATUS_INT_CHANGE (c : Nat) : Fld := ⟨R.CND_STATUS c, 4, 1⟩
def R.CND_SAT_RAW (c : Nat) : Nat := 0x100028 + 0x100 * c
def F.CND_SAT_RAW_COUNT (c : Nat) : Fld := ⟨R.CND_SAT_RAW c, 0, 32⟩
def R.CND_SAT_ALIGNED (c : Nat) : Nat := 0x10002C + 0x100 * c
def F.CND_SAT_ALIGNED_COUNT (c : Nat) : Fld := ⟨R.CND_SAT_ALIGNED c, 0, 32⟩
def R.CND_EXCISE (c : Nat) : Nat := 0x100030 + 0x100 * c
def F.CND_EXCISE_COUNT (c : Nat) : Fld := ⟨R.CND_EXCISE c, 0, 32⟩
def R.CND_LIMIT (c : Nat) : Nat := 0x100034 + 0x100 * c
def F.CND_LIMIT_COUNT (c : Nat) : Fld := ⟨R.CND_LIMIT c, 0, 32⟩
def R.CND_LOAD_SN_LO (c : Nat) : Nat := 0x100038 + 0x100 * c
def F.CND_LOAD_SN_LO_SN_LO (c : Nat) : Fld := ⟨R.CND_LOAD_SN_LO c, 0, 32⟩
def R.CND_LOAD_SN_HI (c : Nat) : Nat := 0x10003C + 0x100 * c
def F.CND_LOAD_SN_HI_SN_HI (c : Nat) : Fld := ⟨R.CND_LOAD_SN_HI c, 0, 32⟩
def R.CND_TAU_INT (c : Nat) : Nat := 0x100040 + 0x100 * c
def F.CND_TAU_INT_INT (c : Nat) : Fld := ⟨R.CND_TAU_INT c, 0, 12⟩
def R.CND_TAU_FRAC_HI (c : Nat) : Nat := 0x100044 + 0x100 * c
def F.CND_TAU_FRAC_HI_FRAC_HI (c : Nat) : Fld := ⟨R.CND_TAU_FRAC_HI c, 0, 32⟩
def R.CND_TAU_FRAC_LO (c : Nat) : Nat := 0x100048 + 0x100 * c
def F.CND_TAU_FRAC_LO_FRAC_LO (c : Nat) : Fld := ⟨R.CND_TAU_FRAC_LO c, 0, 16⟩
def R.CND_TAU_SN_LO (c : Nat) : Nat := 0x10004C + 0x100 * c
def F.CND_TAU_SN_LO_SN_LO (c : Nat) : Fld := ⟨R.CND_TAU_SN_LO c, 0, 32⟩
def R.CND_TAU_SN_HI (c : Nat) : Nat := 0x100050 + 0x100 * c
def F.CND_TAU_SN_HI_SN_HI (c : Nat) : Fld := ⟨R.CND_TAU_SN_HI c, 0, 32⟩
def R.CND_ALIGN_CTRL : Nat := 0x110000
def F.CND_ALIGN_CTRL_EN : Fld := ⟨R.CND_ALIGN_CTRL, 0, 1⟩
def F.CND_ALIGN_CTRL_AVG : Fld := ⟨R.CND_ALIGN_CTRL, 1, 3⟩
def R.CND_ALIGN_TERM : Nat := 0x110004
def F.CND_ALIGN_TERM_A : Fld := ⟨R.CND_ALIGN_TERM, 0, 32⟩
def R.CND_ALIGN_SN_LO : Nat := 0x110008
def F.CND_ALIGN_SN_LO_SN_LO : Fld := ⟨R.CND_ALIGN_SN_LO, 0, 32⟩
def R.CND_ALIGN_SN_HI : Nat := 0x11000C
def F.CND_ALIGN_SN_HI_SN_HI : Fld := ⟨R.CND_ALIGN_SN_HI, 0, 32⟩
def R.FIR_NCO_FREQ (c : Nat) : Nat := 0x200000 + 0x400 * c
def F.FIR_NCO_FREQ_FW (c : Nat) : Fld := ⟨R.FIR_NCO_FREQ c, 0, 32⟩
def R.FIR_NCO_PHASE (c : Nat) : Nat := 0x200004 + 0x400 * c
def F.FIR_NCO_PHASE_OFF (c : Nat) : Fld := ⟨R.FIR_NCO_PHASE c, 0, 16⟩
def R.FIR_BANK_SEL (c : Nat) : Nat := 0x200008 + 0x400 * c
def F.FIR_BANK_SEL_SEL (c : Nat) : Fld := ⟨R.FIR_BANK_SEL c, 0, 1⟩
def R.FIR_STATUS (c : Nat) : Nat := 0x20000C + 0x400 * c
def F.FIR_STATUS_IN_USE (c : Nat) : Fld := ⟨R.FIR_STATUS c, 0, 1⟩
def F.FIR_STATUS_SETTLING (c : Nat) : Fld := ⟨R.FIR_STATUS c, 1, 1⟩
def F.FIR_STATUS_SWAP_DONE (c : Nat) : Fld := ⟨R.FIR_STATUS c, 2, 1⟩
def F.FIR_STATUS_SWAP_STRUCT (c : Nat) : Fld := ⟨R.FIR_STATUS c, 3, 1⟩
def F.FIR_STATUS_WR_ERR (c : Nat) : Fld := ⟨R.FIR_STATUS c, 4, 1⟩
def F.FIR_STATUS_TARGET_LOCK (c : Nat) : Fld := ⟨R.FIR_STATUS c, 5, 1⟩
def R.FIR_CFG (c : Nat) (b : Nat) : Nat := 0x200010 + 0x400 * c + 0x10 * b
def F.FIR_CFG_NCO_EN (c : Nat) (b : Nat) : Fld := ⟨R.FIR_CFG c b, 0, 1⟩
def F.FIR_CFG_NHB (c : Nat) (b : Nat) : Fld := ⟨R.FIR_CFG c b, 1, 2⟩
def F.FIR_CFG_HBSEL1 (c : Nat) (b : Nat) : Fld := ⟨R.FIR_CFG c b, 3, 1⟩
def F.FIR_CFG_HBSEL2 (c : Nat) (b : Nat) : Fld := ⟨R.FIR_CFG c b, 4, 1⟩
def F.FIR_CFG_SYM (c : Nat) (b : Nat) : Fld := ⟨R.FIR_CFG c b, 5, 1⟩
def F.FIR_CFG_RQ_WIDTH (c : Nat) (b : Nat) : Fld := ⟨R.FIR_CFG c b, 6, 2⟩
def F.FIR_CFG_TAPS (c : Nat) (b : Nat) : Fld := ⟨R.FIR_CFG c b, 8, 9⟩
def F.FIR_CFG_DEC (c : Nat) (b : Nat) : Fld := ⟨R.FIR_CFG c b, 17, 7⟩
def R.FIR_SHIFT (c : Nat) (b : Nat) : Nat := 0x200014 + 0x400 * c + 0x10 * b
def F.FIR_SHIFT_SH_MIX (c : Nat) (b : Nat) : Fld := ⟨R.FIR_SHIFT c b, 0, 5⟩
def F.FIR_SHIFT_SH_HB1 (c : Nat) (b : Nat) : Fld := ⟨R.FIR_SHIFT c b, 5, 5⟩
def F.FIR_SHIFT_SH_HB2 (c : Nat) (b : Nat) : Fld := ⟨R.FIR_SHIFT c b, 10, 5⟩
def F.FIR_SHIFT_SH_FIR (c : Nat) (b : Nat) : Fld := ⟨R.FIR_SHIFT c b, 15, 5⟩
def F.FIR_SHIFT_SH_RQ (c : Nat) (b : Nat) : Fld := ⟨R.FIR_SHIFT c b, 20, 5⟩
def R.FIR_CHARGE (c : Nat) (b : Nat) : Nat := 0x200018 + 0x400 * c + 0x10 * b
def F.FIR_CHARGE_CHARGE (c : Nat) (b : Nat) : Fld := ⟨R.FIR_CHARGE c b, 0, 10⟩
def F.FIR_CHARGE_ALLOC (c : Nat) (b : Nat) : Fld := ⟨R.FIR_CHARGE c b, 16, 12⟩
def R.FIR_SETTLE_LEN (c : Nat) : Nat := 0x200030 + 0x400 * c
def F.FIR_SETTLE_LEN_S (c : Nat) : Fld := ⟨R.FIR_SETTLE_LEN c, 0, 16⟩
def R.FIR_SWAP_SN_LO (c : Nat) : Nat := 0x200034 + 0x400 * c
def F.FIR_SWAP_SN_LO_SN_LO (c : Nat) : Fld := ⟨R.FIR_SWAP_SN_LO c, 0, 32⟩
def R.FIR_SWAP_SN_HI (c : Nat) : Nat := 0x200038 + 0x400 * c
def F.FIR_SWAP_SN_HI_SN_HI (c : Nat) : Fld := ⟨R.FIR_SWAP_SN_HI c, 0, 32⟩
def R.FIR_SETTLE_END_LO (c : Nat) : Nat := 0x20003C + 0x400 * c
def F.FIR_SETTLE_END_LO_END_LO (c : Nat) : Fld := ⟨R.FIR_SETTLE_END_LO c, 0, 32⟩
def R.FIR_SETTLE_END_HI (c : Nat) : Nat := 0x200040 + 0x400 * c
def F.FIR_SETTLE_END_HI_END_HI (c : Nat) : Fld := ⟨R.FIR_SETTLE_END_HI c, 0, 32⟩
def R.FIR_SAT_MIX (c : Nat) : Nat := 0x200044 + 0x400 * c
def F.FIR_SAT_MIX_COUNT (c : Nat) : Fld := ⟨R.FIR_SAT_MIX c, 0, 32⟩
def R.FIR_SAT_HB1 (c : Nat) : Nat := 0x200048 + 0x400 * c
def F.FIR_SAT_HB1_COUNT (c : Nat) : Fld := ⟨R.FIR_SAT_HB1 c, 0, 32⟩
def R.FIR_SAT_HB2 (c : Nat) : Nat := 0x20004C + 0x400 * c
def F.FIR_SAT_HB2_COUNT (c : Nat) : Fld := ⟨R.FIR_SAT_HB2 c, 0, 32⟩
def R.FIR_SAT_FIR (c : Nat) : Nat := 0x200050 + 0x400 * c
def F.FIR_SAT_FIR_COUNT (c : Nat) : Fld := ⟨R.FIR_SAT_FIR c, 0, 32⟩
def R.FIR_SAT_RQ (c : Nat) : Nat := 0x200054 + 0x400 * c
def F.FIR_SAT_RQ_COUNT (c : Nat) : Fld := ⟨R.FIR_SAT_RQ c, 0, 32⟩
def R.FIR_COEF (c : Nat) (b : Nat) (j : Nat) : Nat := 0x240000 + 0xC00 * c + 0x600 * b + 0x4 * j
def F.FIR_COEF_COEF (c : Nat) (b : Nat) (j : Nat) : Fld := ⟨R.FIR_COEF c b j, 0, 18⟩
def R.BMF_BANK_SEL : Nat := 0x300000
def F.BMF_BANK_SEL_SEL : Fld := ⟨R.BMF_BANK_SEL, 0, 1⟩
def R.BMF_BANK_CTRL : Nat := 0x300004
def F.BMF_BANK_CTRL_COPY : Fld := ⟨R.BMF_BANK_CTRL, 0, 1⟩
def R.BMF_STATUS : Nat := 0x300008
def F.BMF_STATUS_IN_USE : Fld := ⟨R.BMF_STATUS, 0, 1⟩
def F.BMF_STATUS_PRESENT : Fld := ⟨R.BMF_STATUS, 1, 1⟩
def F.BMF_STATUS_SWAP_DONE : Fld := ⟨R.BMF_STATUS, 2, 1⟩
def F.BMF_STATUS_WR_ERR : Fld := ⟨R.BMF_STATUS, 3, 1⟩
def F.BMF_STATUS_TARGET_LOCK : Fld := ⟨R.BMF_STATUS, 4, 1⟩
def F.BMF_STATUS_COPY_BUSY : Fld := ⟨R.BMF_STATUS, 5, 1⟩
def F.BMF_STATUS_COPY_REFUSED : Fld := ⟨R.BMF_STATUS, 6, 1⟩
def R.BMF_SWAP_SN_LO : Nat := 0x30000C
def F.BMF_SWAP_SN_LO_SN_LO : Fld := ⟨R.BMF_SWAP_SN_LO, 0, 32⟩
def R.BMF_SWAP_SN_HI : Nat := 0x300010
def F.BMF_SWAP_SN_HI_SN_HI : Fld := ⟨R.BMF_SWAP_SN_HI, 0, 32⟩
def R.BMF_FMT : Nat := 0x300014
def F.BMF_FMT_D : Fld := ⟨R.BMF_FMT, 0, 9⟩
def F.BMF_FMT_CPLX : Fld := ⟨R.BMF_FMT, 9, 1⟩
def F.BMF_FMT_W : Fld := ⟨R.BMF_FMT, 10, 2⟩
def R.BMF_MEMBERS (b : Nat) (i : Nat) : Nat := 0x300100 + 0x40 * b + 0x4 * i
def F.BMF_MEMBERS_MASK (b : Nat) (i : Nat) : Fld := ⟨R.BMF_MEMBERS b i, 0, 32⟩
def R.BMF_SHIFT (b : Nat) (i : Nat) : Nat := 0x300120 + 0x40 * b + 0x4 * i
def F.BMF_SHIFT_SH (b : Nat) (i : Nat) : Fld := ⟨R.BMF_SHIFT b i, 0, 5⟩
def R.BMF_SAT (b : Nat) : Nat := 0x300128 + 0x40 * b
def F.BMF_SAT_COUNT (b : Nat) : Fld := ⟨R.BMF_SAT b, 0, 32⟩
def R.BMF_WITHHELD (b : Nat) : Nat := 0x30012C + 0x40 * b
def F.BMF_WITHHELD_COUNT (b : Nat) : Fld := ⟨R.BMF_WITHHELD b, 0, 32⟩
def R.BMF_W (b : Nat) (k : Nat) (c : Nat) : Nat := 0x310000 + 0x400 * b + 0x4000 * k + 0x4 * c
def F.BMF_W_WR (b : Nat) (k : Nat) (c : Nat) : Fld := ⟨R.BMF_W b k c, 0, 16⟩
def F.BMF_W_WI (b : Nat) (k : Nat) (c : Nat) : Fld := ⟨R.BMF_W b k c, 16, 16⟩
def R.TRG_INFO : Nat := 0xA0000
def F.TRG_INFO_RING_TAP : Fld := ⟨R.TRG_INFO, 0, 2⟩
def F.TRG_INFO_RING_FMT : Fld := ⟨R.TRG_INFO, 2, 1⟩
def F.TRG_INFO_IN_FLIGHT : Fld := ⟨R.TRG_INFO, 8, 4⟩
def R.TRG_POOL_FREE : Nat := 0xA0004
def F.TRG_POOL_FREE_FREE : Fld := ⟨R.TRG_POOL_FREE, 0, 22⟩
def R.TRG_APPLY_NOW : Nat := 0xA0008
def F.TRG_APPLY_NOW_GO : Fld := ⟨R.TRG_APPLY_NOW, 0, 1⟩
def R.TRG_STATUS : Nat := 0xA000C
def F.TRG_STATUS_IMMED_DONE : Fld := ⟨R.TRG_STATUS, 0, 1⟩
def F.TRG_STATUS_IMMED_REFUSED : Fld := ⟨R.TRG_STATUS, 1, 1⟩
def F.TRG_STATUS_FORCE_IGN : Fld := ⟨R.TRG_STATUS, 2, 1⟩
def R.TRG_LOAD_SN_LO : Nat := 0xA0010
def F.TRG_LOAD_SN_LO_SN_LO : Fld := ⟨R.TRG_LOAD_SN_LO, 0, 32⟩
def R.TRG_LOAD_SN_HI : Nat := 0xA0014
def F.TRG_LOAD_SN_HI_SN_HI : Fld := ⟨R.TRG_LOAD_SN_HI, 0, 32⟩
def R.TRG_RING_START_LO : Nat := 0xA0018
def F.TRG_RING_START_LO_R0_LO : Fld := ⟨R.TRG_RING_START_LO, 0, 32⟩
def R.TRG_RING_START_HI : Nat := 0xA001C
def F.TRG_RING_START_HI_R0_HI : Fld := ⟨R.TRG_RING_START_HI, 0, 32⟩
def R.TRG_CAPTURES : Nat := 0xA0020
def F.TRG_CAPTURES_COUNT : Fld := ⟨R.TRG_CAPTURES, 0, 32⟩
def R.TRG_TI_CTRL (n : Nat) : Nat := 0xA0040 + 0x10 * n
def F.TRG_TI_CTRL_EN (n : Nat) : Fld := ⟨R.TRG_TI_CTRL n, 0, 1⟩
def F.TRG_TI_CTRL_EDGE (n : Nat) : Fld := ⟨R.TRG_TI_CTRL n, 1, 2⟩
def R.TRG_TI_CABLE (n : Nat) : Nat := 0xA0044 + 0x10 * n
def F.TRG_TI_CABLE_CABLE (n : Nat) : Fld := ⟨R.TRG_TI_CABLE n, 0, 16⟩
def R.TRG_TI_COUNT (n : Nat) : Nat := 0xA0048 + 0x10 * n
def F.TRG_TI_COUNT_COUNT (n : Nat) : Fld := ⟨R.TRG_TI_COUNT n, 0, 32⟩
def R.TRG_TI_MISSED (n : Nat) : Nat := 0xA004C + 0x10 * n
def F.TRG_TI_MISSED_COUNT (n : Nat) : Fld := ⟨R.TRG_TI_MISSED n, 0, 32⟩
def R.TRG_TO_CTRL (n : Nat) : Nat := 0xA0080 + 0x10 * n
def F.TRG_TO_CTRL_EN (n : Nat) : Fld := ⟨R.TRG_TO_CTRL n, 0, 1⟩
def F.TRG_TO_CTRL_POL (n : Nat) : Fld := ⟨R.TRG_TO_CTRL n, 1, 1⟩
def F.TRG_TO_CTRL_CONDS (n : Nat) : Fld := ⟨R.TRG_TO_CTRL n, 8, 8⟩
def F.TRG_TO_CTRL_WIDTH (n : Nat) : Fld := ⟨R.TRG_TO_CTRL n, 16, 8⟩
def R.TRG_TO_MERGED (n : Nat) : Nat := 0xA0084 + 0x10 * n
def F.TRG_TO_MERGED_COUNT (n : Nat) : Fld := ⟨R.TRG_TO_MERGED n, 0, 32⟩
def R.TRG_TO_COUNT (n : Nat) : Nat := 0xA0088 + 0x10 * n
def F.TRG_TO_COUNT_COUNT (n : Nat) : Fld := ⟨R.TRG_TO_COUNT n, 0, 32⟩
def R.TRG_TC_CTRL (n : Nat) : Nat := 0xA0400 + 0x100 * n
def F.TRG_TC_CTRL_EN (n : Nat) : Fld := ⟨R.TRG_TC_CTRL n, 0, 1⟩
def F.TRG_TC_CTRL_SRC (n : Nat) : Fld := ⟨R.TRG_TC_CTRL n, 1, 3⟩
def F.TRG_TC_CTRL_ED (n : Nat) : Fld := ⟨R.TRG_TC_CTRL n, 4, 1⟩
def F.TRG_TC_CTRL_SEL (n : Nat) : Fld := ⟨R.TRG_TC_CTRL n, 8, 4⟩
def F.TRG_TC_CTRL_N (n : Nat) : Fld := ⟨R.TRG_TC_CTRL n, 16, 9⟩
def R.TRG_TC_WIN (n : Nat) : Nat := 0xA0404 + 0x100 * n
def F.TRG_TC_WIN_M (n : Nat) : Fld := ⟨R.TRG_TC_WIN n, 0, 13⟩
def R.TRG_TC_HOLD (n : Nat) : Nat := 0xA0408 + 0x100 * n
def F.TRG_TC_HOLD_HOLD (n : Nat) : Fld := ⟨R.TRG_TC_HOLD n, 0, 24⟩
def F.TRG_TC_HOLD_HMODE (n : Nat) : Fld := ⟨R.TRG_TC_HOLD n, 31, 1⟩
def R.TRG_TC_FORCE (n : Nat) : Nat := 0xA040C + 0x100 * n
def F.TRG_TC_FORCE_GO (n : Nat) : Fld := ⟨R.TRG_TC_FORCE n, 0, 1⟩
def R.TRG_TC_MASK (n : Nat) (i : Nat) : Nat := 0xA0410 + 0x100 * n + 0x4 * i
def F.TRG_TC_MASK_MASK (n : Nat) (i : Nat) : Fld := ⟨R.TRG_TC_MASK n i, 0, 32⟩
def R.TRG_PF_PRE (n : Nat) : Nat := 0xA0430 + 0x100 * n
def F.TRG_PF_PRE_P (n : Nat) : Fld := ⟨R.TRG_PF_PRE n, 0, 18⟩
def R.TRG_PF_POST (n : Nat) : Nat := 0xA0434 + 0x100 * n
def F.TRG_PF_POST_Q (n : Nat) : Fld := ⟨R.TRG_PF_POST n, 0, 18⟩
def R.TRG_PF_CFG (n : Nat) : Nat := 0xA0438 + 0x100 * n
def F.TRG_PF_CFG_FMT (n : Nat) : Fld := ⟨R.TRG_PF_CFG n, 0, 1⟩
def F.TRG_PF_CFG_CSH (n : Nat) : Fld := ⟨R.TRG_PF_CFG n, 1, 4⟩
def F.TRG_PF_CFG_STREAM (n : Nat) : Fld := ⟨R.TRG_PF_CFG n, 8, 6⟩
def R.TRG_PF_MASK (n : Nat) (i : Nat) : Nat := 0xA0440 + 0x100 * n + 0x4 * i
def F.TRG_PF_MASK_MASK (n : Nat) (i : Nat) : Fld := ⟨R.TRG_PF_MASK n i, 0, 32⟩
def R.TRG_TC_STATE (n : Nat) : Nat := 0xA0460 + 0x100 * n
def F.TRG_TC_STATE_STATE (n : Nat) : Fld := ⟨R.TRG_TC_STATE n, 0, 2⟩
def F.TRG_TC_STATE_EVLEFT (n : Nat) : Fld := ⟨R.TRG_TC_STATE n, 16, 16⟩
def R.TRG_TC_FIRED (n : Nat) : Nat := 0xA0464 + 0x100 * n
def F.TRG_TC_FIRED_COUNT (n : Nat) : Fld := ⟨R.TRG_TC_FIRED n, 0, 32⟩
def R.TRG_TC_SUPP (n : Nat) (k : Nat) : Nat := 0xA0468 + 0x100 * n + 0x4 * k
def F.TRG_TC_SUPP_COUNT (n : Nat) (k : Nat) : Fld := ⟨R.TRG_TC_SUPP n k, 0, 32⟩
def R.TRG_TC_LAST_LO (n : Nat) : Nat := 0xA0478 + 0x100 * n
def F.TRG_TC_LAST_LO_SN_LO (n : Nat) : Fld := ⟨R.TRG_TC_LAST_LO n, 0, 32⟩
def R.TRG_TC_LAST_HI (n : Nat) : Nat := 0xA047C + 0x100 * n
def F.TRG_TC_LAST_HI_SN_HI (n : Nat) : Fld := ⟨R.TRG_TC_LAST_HI n, 0, 32⟩
def R.TRG_ED_CTRL (c : Nat) (e : Nat) : Nat := 0xA2000 + 0x20 * c + 0x10 * e
def F.TRG_ED_CTRL_EN (c : Nat) (e : Nat) : Fld := ⟨R.TRG_ED_CTRL c e, 0, 1⟩
def F.TRG_ED_CTRL_TAP (c : Nat) (e : Nat) : Fld := ⟨R.TRG_ED_CTRL c e, 1, 2⟩
def F.TRG_ED_CTRL_SLOPE (c : Nat) (e : Nat) : Fld := ⟨R.TRG_ED_CTRL c e, 4, 2⟩
def F.TRG_ED_CTRL_ABS (c : Nat) (e : Nat) : Fld := ⟨R.TRG_ED_CTRL c e, 6, 1⟩
def R.TRG_ED_LEVEL (c : Nat) (e : Nat) : Nat := 0xA2004 + 0x20 * c + 0x10 * e
def F.TRG_ED_LEVEL_L (c : Nat) (e : Nat) : Fld := ⟨R.TRG_ED_LEVEL c e, 0, 17⟩
def R.TRG_ED_HYST (c : Nat) (e : Nat) : Nat := 0xA2008 + 0x20 * c + 0x10 * e
def F.TRG_ED_HYST_H (c : Nat) (e : Nat) : Fld := ⟨R.TRG_ED_HYST c e, 0, 16⟩
def R.TRG_ED_COUNT (c : Nat) (e : Nat) : Nat := 0xA200C + 0x20 * c + 0x10 * e
def F.TRG_ED_COUNT_COUNT (c : Nat) (e : Nat) : Fld := ⟨R.TRG_ED_COUNT c e, 0, 32⟩
def R.MEM_RING_CFG : Nat := 0x50000
def F.MEM_RING_CFG_RSH : Fld := ⟨R.MEM_RING_CFG, 0, 4⟩
def F.MEM_RING_CFG_CHANNELS : Fld := ⟨R.MEM_RING_CFG, 4, 9⟩
def R.MEM_RING_HEAD_LO : Nat := 0x50004
def F.MEM_RING_HEAD_LO_HEAD_LO : Fld := ⟨R.MEM_RING_HEAD_LO, 0, 32⟩
def R.MEM_RING_HEAD_HI : Nat := 0x50008
def F.MEM_RING_HEAD_HI_HEAD_HI : Fld := ⟨R.MEM_RING_HEAD_HI, 0, 32⟩
def R.MEM_POOL_WR : Nat := 0x5000C
def F.MEM_POOL_WR_WR : Fld := ⟨R.MEM_POOL_WR, 0, 21⟩
def R.MEM_POOL_RD : Nat := 0x50010
def F.MEM_POOL_RD_RD : Fld := ⟨R.MEM_POOL_RD, 0, 21⟩
def R.MEM_ERR_CE : Nat := 0x50020
def F.MEM_ERR_CE_COUNT : Fld := ⟨R.MEM_ERR_CE, 0, 32⟩
def R.MEM_ERR_UE_TRANS : Nat := 0x50024
def F.MEM_ERR_UE_TRANS_COUNT : Fld := ⟨R.MEM_ERR_UE_TRANS, 0, 32⟩
def R.MEM_ERR_UE_LASTING : Nat := 0x50028
def F.MEM_ERR_UE_LASTING_COUNT : Fld := ⟨R.MEM_ERR_UE_LASTING, 0, 32⟩
def R.MEM_CE_LOC : Nat := 0x5002C
def F.MEM_CE_LOC_LOC : Fld := ⟨R.MEM_CE_LOC, 0, 32⟩
def R.MEM_UE_LOC : Nat := 0x50030
def F.MEM_UE_LOC_LOC : Fld := ⟨R.MEM_UE_LOC, 0, 32⟩
def R.MEM_SCRUB_CTRL : Nat := 0x50040
def F.MEM_SCRUB_CTRL_EN : Fld := ⟨R.MEM_SCRUB_CTRL, 0, 1⟩
def F.MEM_SCRUB_CTRL_PERIOD_S : Fld := ⟨R.MEM_SCRUB_CTRL, 8, 16⟩
def R.MEM_SCRUB_STATUS : Nat := 0x50044
def F.MEM_SCRUB_STATUS_ACTIVE : Fld := ⟨R.MEM_SCRUB_STATUS, 0, 1⟩
def F.MEM_SCRUB_STATUS_PAUSED : Fld := ⟨R.MEM_SCRUB_STATUS, 1, 1⟩
def F.MEM_SCRUB_STATUS_PASS_LATE : Fld := ⟨R.MEM_SCRUB_STATUS, 2, 1⟩
def R.MEM_SCRUB_PASSES : Nat := 0x50048
def F.MEM_SCRUB_PASSES_COUNT : Fld := ⟨R.MEM_SCRUB_PASSES, 0, 32⟩
def R.MEM_SCRUB_POS : Nat := 0x5004C
def F.MEM_SCRUB_POS_LINE : Fld := ⟨R.MEM_SCRUB_POS, 0, 21⟩
def R.MEM_DENY_COUNT : Nat := 0x50050
def F.MEM_DENY_COUNT_COUNT : Fld := ⟨R.MEM_DENY_COUNT, 0, 32⟩
def R.MEM_DENY_LAST : Nat := 0x50054
def F.MEM_DENY_LAST_OFFSET : Fld := ⟨R.MEM_DENY_LAST, 0, 27⟩
def F.MEM_DENY_LAST_WRITE : Fld := ⟨R.MEM_DENY_LAST, 27, 1⟩
def F.MEM_DENY_LAST_IDENT : Fld := ⟨R.MEM_DENY_LAST, 28, 4⟩
def R.MEM_INJECT_ADDR : Nat := 0x50060
def F.MEM_INJECT_ADDR_ADDR : Fld := ⟨R.MEM_INJECT_ADDR, 2, 25⟩
def R.MEM_INJECT_CTRL : Nat := 0x50064
def F.MEM_INJECT_CTRL_ARM : Fld := ⟨R.MEM_INJECT_CTRL, 0, 1⟩
def F.MEM_INJECT_CTRL_BIT_A : Fld := ⟨R.MEM_INJECT_CTRL, 1, 6⟩
def F.MEM_INJECT_CTRL_DOUBLE : Fld := ⟨R.MEM_INJECT_CTRL, 7, 1⟩
def F.MEM_INJECT_CTRL_BIT_B : Fld := ⟨R.MEM_INJECT_CTRL, 8, 6⟩
def F.MEM_INJECT_CTRL_DONE : Fld := ⟨R.MEM_INJECT_CTRL, 14, 1⟩
def R.MEM_TILE_CE (t : Nat) : Nat := 0x50100 + 0x4 * t
def F.MEM_TILE_CE_COUNT (t : Nat) : Fld := ⟨R.MEM_TILE_CE t, 0, 32⟩
def R.FLW_SEQ_NEXT : Nat := 0x40000
def F.FLW_SEQ_NEXT_SEQ : Fld := ⟨R.FLW_SEQ_NEXT, 0, 32⟩
def R.FLW_STATUS : Nat := 0x40004
def F.FLW_STATUS_FLUSH_REFUSED : Fld := ⟨R.FLW_STATUS, 0, 1⟩
def R.FLW_UE_LOC : Nat := 0x40008
def F.FLW_UE_LOC_LOC : Fld := ⟨R.FLW_UE_LOC, 0, 32⟩
def R.FLW_WQ_COUNT : Nat := 0x4000C
def F.FLW_WQ_COUNT_COUNT : Fld := ⟨R.FLW_WQ_COUNT, 0, 10⟩
def R.FLW_EQ_READ_LO (n : Nat) : Nat := 0x40100 + 0x40 * n
def F.FLW_EQ_READ_LO_PAYLOAD (n : Nat) : Fld := ⟨R.FLW_EQ_READ_LO n, 0, 32⟩
def R.FLW_EQ_READ_HI (n : Nat) : Nat := 0x40104 + 0x40 * n
def F.FLW_EQ_READ_HI_VALID (n : Nat) : Fld := ⟨R.FLW_EQ_READ_HI n, 0, 1⟩
def F.FLW_EQ_READ_HI_END (n : Nat) : Fld := ⟨R.FLW_EQ_READ_HI n, 1, 1⟩
def F.FLW_EQ_READ_HI_FILL (n : Nat) : Fld := ⟨R.FLW_EQ_READ_HI n, 8, 8⟩
def R.FLW_EQ_CTRL (n : Nat) : Nat := 0x40108 + 0x40 * n
def F.FLW_EQ_CTRL_MASK (n : Nat) : Fld := ⟨R.FLW_EQ_CTRL n, 0, 19⟩
def F.FLW_EQ_CTRL_MODE (n : Nat) : Fld := ⟨R.FLW_EQ_CTRL n, 30, 1⟩
def F.FLW_EQ_CTRL_FLUSH (n : Nat) : Fld := ⟨R.FLW_EQ_CTRL n, 31, 1⟩
def R.FLW_EQ_STATUS (n : Nat) : Nat := 0x4010C + 0x40 * n
def F.FLW_EQ_STATUS_WORDS (n : Nat) : Fld := ⟨R.FLW_EQ_STATUS n, 0, 13⟩
def F.FLW_EQ_STATUS_DISCARDING (n : Nat) : Fld := ⟨R.FLW_EQ_STATUS n, 13, 1⟩
def R.FLW_EQ_LOST (n : Nat) : Nat := 0x40110 + 0x40 * n
def F.FLW_EQ_LOST_COUNT (n : Nat) : Fld := ⟨R.FLW_EQ_LOST n, 0, 32⟩
def R.FLW_EQ_CE (n : Nat) : Nat := 0x40114 + 0x40 * n
def F.FLW_EQ_CE_COUNT (n : Nat) : Fld := ⟨R.FLW_EQ_CE n, 0, 32⟩
def R.FLW_EQ_UE_TRANS (n : Nat) : Nat := 0x40118 + 0x40 * n
def F.FLW_EQ_UE_TRANS_COUNT (n : Nat) : Fld := ⟨R.FLW_EQ_UE_TRANS n, 0, 32⟩
def R.FLW_EQ_UE_LASTING (n : Nat) : Nat := 0x4011C + 0x40 * n
def F.FLW_EQ_UE_LASTING_COUNT (n : Nat) : Fld := ⟨R.FLW_EQ_UE_LASTING n, 0, 32⟩
def R.FLW_FQ_BASE (n : Nat) : Nat := 0x41000 + 0x40 * n
def F.FLW_FQ_BASE_LINE (n : Nat) : Fld := ⟨R.FLW_FQ_BASE n, 0, 21⟩
def R.FLW_FQ_SIZE (n : Nat) : Nat := 0x41004 + 0x40 * n
def F.FLW_FQ_SIZE_LINES (n : Nat) : Fld := ⟨R.FLW_FQ_SIZE n, 0, 21⟩
def R.FLW_FQ_WR (n : Nat) : Nat := 0x41008 + 0x40 * n
def F.FLW_FQ_WR_WR (n : Nat) : Fld := ⟨R.FLW_FQ_WR n, 0, 21⟩
def R.FLW_FQ_REWIND (n : Nat) : Nat := 0x4100C + 0x40 * n
def F.FLW_FQ_REWIND_REWIND (n : Nat) : Fld := ⟨R.FLW_FQ_REWIND n, 0, 21⟩
def R.FLW_FQ_COMMIT (n : Nat) : Nat := 0x41010 + 0x40 * n
def F.FLW_FQ_COMMIT_COMMIT (n : Nat) : Fld := ⟨R.FLW_FQ_COMMIT n, 0, 21⟩
def R.FLW_FQ_RD (n : Nat) : Nat := 0x41014 + 0x40 * n
def F.FLW_FQ_RD_RD (n : Nat) : Fld := ⟨R.FLW_FQ_RD n, 0, 21⟩
def R.FLW_FQ_CREDIT (n : Nat) : Nat := 0x41018 + 0x40 * n
def F.FLW_FQ_CREDIT_WORDS (n : Nat) : Fld := ⟨R.FLW_FQ_CREDIT n, 0, 26⟩
def R.FLW_FQ_CTRL (n : Nat) : Nat := 0x4101C + 0x40 * n
def F.FLW_FQ_CTRL_FLUSH (n : Nat) : Fld := ⟨R.FLW_FQ_CTRL n, 0, 1⟩
def R.FLW_FQ_LIMIT (n : Nat) : Nat := 0x41020 + 0x40 * n
def F.FLW_FQ_LIMIT_LINES (n : Nat) : Fld := ⟨R.FLW_FQ_LIMIT n, 0, 21⟩
def R.FLW_FQ_FRAMES (n : Nat) : Nat := 0x41024 + 0x40 * n
def F.FLW_FQ_FRAMES_COUNT (n : Nat) : Fld := ⟨R.FLW_FQ_FRAMES n, 0, 32⟩
def R.FLW_FQ_REWINDS (n : Nat) : Nat := 0x41028 + 0x40 * n
def F.FLW_FQ_REWINDS_COUNT (n : Nat) : Fld := ⟨R.FLW_FQ_REWINDS n, 0, 32⟩
def R.FLW_FQ_OVERSIZE (n : Nat) : Nat := 0x4102C + 0x40 * n
def F.FLW_FQ_OVERSIZE_COUNT (n : Nat) : Fld := ⟨R.FLW_FQ_OVERSIZE n, 0, 32⟩
def R.FLW_FQ_NOCREDIT (n : Nat) : Nat := 0x41030 + 0x40 * n
def F.FLW_FQ_NOCREDIT_COUNT (n : Nat) : Fld := ⟨R.FLW_FQ_NOCREDIT n, 0, 32⟩
def R.FLW_FQ_CE (n : Nat) : Nat := 0x41034 + 0x40 * n
def F.FLW_FQ_CE_COUNT (n : Nat) : Fld := ⟨R.FLW_FQ_CE n, 0, 32⟩
def R.FLW_FQ_UE_TRANS (n : Nat) : Nat := 0x41038 + 0x40 * n
def F.FLW_FQ_UE_TRANS_COUNT (n : Nat) : Fld := ⟨R.FLW_FQ_UE_TRANS n, 0, 32⟩
def R.FLW_FQ_UE_LASTING (n : Nat) : Nat := 0x4103C + 0x40 * n
def F.FLW_FQ_UE_LASTING_COUNT (n : Nat) : Fld := ⟨R.FLW_FQ_UE_LASTING n, 0, 32⟩
def R.FLW_WQ_INFO (n : Nat) : Nat := 0x44000 + 0x20 * n
def F.FLW_WQ_INFO_DEPTH (n : Nat) : Fld := ⟨R.FLW_WQ_INFO n, 0, 13⟩
def F.FLW_WQ_INFO_SRC (n : Nat) : Fld := ⟨R.FLW_WQ_INFO n, 16, 3⟩
def F.FLW_WQ_INFO_DST (n : Nat) : Fld := ⟨R.FLW_WQ_INFO n, 20, 3⟩
def R.FLW_WQ_STATUS (n : Nat) : Nat := 0x44004 + 0x20 * n
def F.FLW_WQ_STATUS_FILL (n : Nat) : Fld := ⟨R.FLW_WQ_STATUS n, 0, 13⟩
def F.FLW_WQ_STATUS_PACKETS (n : Nat) : Fld := ⟨R.FLW_WQ_STATUS n, 16, 13⟩
def F.FLW_WQ_STATUS_DISCARDING (n : Nat) : Fld := ⟨R.FLW_WQ_STATUS n, 29, 1⟩
def R.FLW_WQ_CREDIT (n : Nat) : Nat := 0x44008 + 0x20 * n
def F.FLW_WQ_CREDIT_CREDIT (n : Nat) : Fld := ⟨R.FLW_WQ_CREDIT n, 0, 13⟩
def R.FLW_WQ_CTRL (n : Nat) : Nat := 0x4400C + 0x20 * n
def F.FLW_WQ_CTRL_FLUSH (n : Nat) : Fld := ⟨R.FLW_WQ_CTRL n, 0, 1⟩
def R.FLW_WQ_FLUSHES (n : Nat) : Nat := 0x44010 + 0x20 * n
def F.FLW_WQ_FLUSHES_COUNT (n : Nat) : Fld := ⟨R.FLW_WQ_FLUSHES n, 0, 32⟩
def R.FLW_WQ_CE (n : Nat) : Nat := 0x44014 + 0x20 * n
def F.FLW_WQ_CE_COUNT (n : Nat) : Fld := ⟨R.FLW_WQ_CE n, 0, 32⟩
def R.FLW_WQ_UE_TRANS (n : Nat) : Nat := 0x44018 + 0x20 * n
def F.FLW_WQ_UE_TRANS_COUNT (n : Nat) : Fld := ⟨R.FLW_WQ_UE_TRANS n, 0, 32⟩
def R.FLW_WQ_UE_LASTING (n : Nat) : Nat := 0x4401C + 0x20 * n
def F.FLW_WQ_UE_LASTING_COUNT (n : Nat) : Fld := ⟨R.FLW_WQ_UE_LASTING n, 0, 32⟩
def R.SNT_INFO : Nat := 0xB0000
def F.SNT_INFO_N_CTX : Fld := ⟨R.SNT_INFO, 0, 7⟩
def R.SNT_CTRL : Nat := 0xB0004
def F.SNT_CTRL_LANE_RESERVE : Fld := ⟨R.SNT_CTRL, 0, 3⟩
def R.SNT_STATUS : Nat := 0xB0008
def F.SNT_STATUS_LANE_BUSY : Fld := ⟨R.SNT_STATUS, 0, 4⟩
def F.SNT_STATUS_INFLATE_BUSY : Fld := ⟨R.SNT_STATUS, 4, 1⟩
def F.SNT_STATUS_INFLATE_SYS : Fld := ⟨R.SNT_STATUS, 5, 1⟩
def R.SNT_ABORT : Nat := 0xB000C
def F.SNT_ABORT_CTX : Fld := ⟨R.SNT_ABORT, 0, 8⟩
def F.SNT_ABORT_GO : Fld := ⟨R.SNT_ABORT, 31, 1⟩
def R.SNT_ABORT_STATUS : Nat := 0xB0010
def F.SNT_ABORT_STATUS_ABORTED : Fld := ⟨R.SNT_ABORT_STATUS, 0, 1⟩
def F.SNT_ABORT_STATUS_LATE : Fld := ⟨R.SNT_ABORT_STATUS, 1, 1⟩
def F.SNT_ABORT_STATUS_IGNORED : Fld := ⟨R.SNT_ABORT_STATUS, 2, 1⟩
def R.SNT_JOBS : Nat := 0xB0014
def F.SNT_JOBS_COUNT : Fld := ⟨R.SNT_JOBS, 0, 32⟩
def R.SNT_OUT_FULL : Nat := 0xB0018
def F.SNT_OUT_FULL_COUNT : Fld := ⟨R.SNT_OUT_FULL, 0, 32⟩
def R.SNT_RAW_BLOCKS : Nat := 0xB001C
def F.SNT_RAW_BLOCKS_COUNT : Fld := ⟨R.SNT_RAW_BLOCKS, 0, 32⟩
def R.SNT_ERRORS : Nat := 0xB0020
def F.SNT_ERRORS_COUNT : Fld := ⟨R.SNT_ERRORS, 0, 32⟩
def R.SNT_IN_BYTES_LO : Nat := 0xB0028
def F.SNT_IN_BYTES_LO_LO : Fld := ⟨R.SNT_IN_BYTES_LO, 0, 32⟩
def R.SNT_IN_BYTES_HI : Nat := 0xB002C
def F.SNT_IN_BYTES_HI_HI : Fld := ⟨R.SNT_IN_BYTES_HI, 0, 32⟩
def R.SNT_OUT_BYTES_LO : Nat := 0xB0030
def F.SNT_OUT_BYTES_LO_LO : Fld := ⟨R.SNT_OUT_BYTES_LO, 0, 32⟩
def R.SNT_OUT_BYTES_HI : Nat := 0xB0034
def F.SNT_OUT_BYTES_HI_HI : Fld := ⟨R.SNT_OUT_BYTES_HI, 0, 32⟩
def R.SNT_LANE (l : Nat) : Nat := 0xB0040 + 0x4 * l
def F.SNT_LANE_STATE (l : Nat) : Fld := ⟨R.SNT_LANE l, 0, 2⟩
def F.SNT_LANE_CTX (l : Nat) : Fld := ⟨R.SNT_LANE l, 8, 8⟩
def F.SNT_LANE_STREAM (l : Nat) : Fld := ⟨R.SNT_LANE l, 16, 6⟩
def R.SNT_GEYSER_CFG (s : Nat) : Nat := 0xB0100 + 0x4 * s
def F.SNT_GEYSER_CFG_COMPRESS (s : Nat) : Fld := ⟨R.SNT_GEYSER_CFG s, 0, 1⟩
def F.SNT_GEYSER_CFG_ZLIB (s : Nat) : Fld := ⟨R.SNT_GEYSER_CFG s, 1, 1⟩
def F.SNT_GEYSER_CFG_XFORM (s : Nat) : Fld := ⟨R.SNT_GEYSER_CFG s, 2, 2⟩
def F.SNT_GEYSER_CFG_HUFF (s : Nat) : Fld := ⟨R.SNT_GEYSER_CFG s, 4, 2⟩
def F.SNT_GEYSER_CFG_LAZY (s : Nat) : Fld := ⟨R.SNT_GEYSER_CFG s, 6, 1⟩
def F.SNT_GEYSER_CFG_DEPTH (s : Nat) : Fld := ⟨R.SNT_GEYSER_CFG s, 8, 6⟩
def F.SNT_GEYSER_CFG_BLOCK_KIB (s : Nat) : Fld := ⟨R.SNT_GEYSER_CFG s, 16, 7⟩
def R.SNT_CTX_STATE (n : Nat) : Nat := 0xB0200 + 0x4 * n
def F.SNT_CTX_STATE_STATE (n : Nat) : Fld := ⟨R.SNT_CTX_STATE n, 0, 2⟩
def F.SNT_CTX_STATE_OWNER (n : Nat) : Fld := ⟨R.SNT_CTX_STATE n, 8, 4⟩
def R.STR_DEF (s : Nat) : Nat := 0xC0000 + 0x100 * s
def F.STR_DEF_KIND (s : Nat) : Fld := ⟨R.STR_DEF s, 0, 3⟩
def F.STR_DEF_TAP (s : Nat) : Fld := ⟨R.STR_DEF s, 4, 2⟩
def F.STR_DEF_CLASS (s : Nat) : Fld := ⟨R.STR_DEF s, 6, 2⟩
def F.STR_DEF_PORT (s : Nat) : Fld := ⟨R.STR_DEF s, 8, 2⟩
def F.STR_DEF_FO_PORT (s : Nat) : Fld := ⟨R.STR_DEF s, 10, 2⟩
def F.STR_DEF_FO_EN (s : Nat) : Fld := ⟨R.STR_DEF s, 12, 1⟩
def F.STR_DEF_IPV6 (s : Nat) : Fld := ⟨R.STR_DEF s, 13, 1⟩
def F.STR_DEF_VERS (s : Nat) : Fld := ⟨R.STR_DEF s, 16, 3⟩
def F.STR_DEF_DEF_VER (s : Nat) : Fld := ⟨R.STR_DEF s, 20, 2⟩
def R.STR_SIZE (s : Nat) : Nat := 0xC0004 + 0x100 * s
def F.STR_SIZE_PAYLOAD (s : Nat) : Fld := ⟨R.STR_SIZE s, 0, 14⟩
def F.STR_SIZE_INSTANTS (s : Nat) : Fld := ⟨R.STR_SIZE s, 16, 14⟩
def R.STR_RATE (s : Nat) : Nat := 0xC0008 + 0x100 * s
def F.STR_RATE_MBPS (s : Nat) : Fld := ⟨R.STR_RATE s, 0, 18⟩
def R.STR_SRC (s : Nat) (i : Nat) : Nat := 0xC0010 + 0x100 * s + 0x4 * i
def F.STR_SRC_MASK (s : Nat) (i : Nat) : Fld := ⟨R.STR_SRC s i, 0, 32⟩
def R.STR_CTRL (s : Nat) : Nat := 0xC0030 + 0x100 * s
def F.STR_CTRL_EN (s : Nat) : Fld := ⟨R.STR_CTRL s, 0, 1⟩
def F.STR_CTRL_ANCHOR_ALL (s : Nat) : Fld := ⟨R.STR_CTRL s, 1, 1⟩
def F.STR_CTRL_LEGACY (s : Nat) : Fld := ⟨R.STR_CTRL s, 2, 1⟩
def F.STR_CTRL_TB (s : Nat) : Fld := ⟨R.STR_CTRL s, 3, 2⟩
def F.STR_CTRL_FAILBACK (s : Nat) : Fld := ⟨R.STR_CTRL s, 31, 1⟩
def R.STR_VER (s : Nat) : Nat := 0xC0034 + 0x100 * s
def F.STR_VER_REQ (s : Nat) : Fld := ⟨R.STR_VER s, 0, 2⟩
def F.STR_VER_IN_USE (s : Nat) : Fld := ⟨R.STR_VER s, 4, 2⟩
def F.STR_VER_NEG_FAIL (s : Nat) : Fld := ⟨R.STR_VER s, 7, 1⟩
def R.STR_STATUS (s : Nat) : Nat := 0xC0038 + 0x100 * s
def F.STR_STATUS_PORT_NOW (s : Nat) : Fld := ⟨R.STR_STATUS s, 0, 2⟩
def F.STR_STATUS_ON_FO (s : Nat) : Fld := ⟨R.STR_STATUS s, 2, 1⟩
def F.STR_STATUS_FAILBACK_PENDING (s : Nat) : Fld := ⟨R.STR_STATUS s, 3, 1⟩
def F.STR_STATUS_END_SENT (s : Nat) : Fld := ⟨R.STR_STATUS s, 4, 1⟩
def F.STR_STATUS_DRAIN_TIMEOUT (s : Nat) : Fld := ⟨R.STR_STATUS s, 5, 1⟩
def F.STR_STATUS_FAILOVER (s : Nat) : Fld := ⟨R.STR_STATUS s, 6, 1⟩
def R.STR_FRAME_SEQ (s : Nat) : Nat := 0xC003C + 0x100 * s
def F.STR_FRAME_SEQ_NEXT (s : Nat) : Fld := ⟨R.STR_FRAME_SEQ s, 0, 32⟩
def R.STR_REC_SEQ (s : Nat) : Nat := 0xC0040 + 0x100 * s
def F.STR_REC_SEQ_NEXT (s : Nat) : Fld := ⟨R.STR_REC_SEQ s, 0, 32⟩
def R.STR_GAPS (s : Nat) : Nat := 0xC0044 + 0x100 * s
def F.STR_GAPS_COUNT (s : Nat) : Fld := ⟨R.STR_GAPS s, 0, 32⟩
def R.STR_DST_PORT (s : Nat) : Nat := 0xC0068 + 0x100 * s
def F.STR_DST_PORT_DST_UDP (s : Nat) : Fld := ⟨R.STR_DST_PORT s, 0, 16⟩
def F.STR_DST_PORT_SRC_UDP (s : Nat) : Fld := ⟨R.STR_DST_PORT s, 16, 16⟩
def R.STR_DST_IP (s : Nat) (i : Nat) : Nat := 0xC0070 + 0x100 * s + 0x4 * i
def F.STR_DST_IP_ADDR (s : Nat) (i : Nat) : Fld := ⟨R.STR_DST_IP s i, 0, 32⟩
def R.STR_PRODUCED_LO (s : Nat) : Nat := 0xC0048 + 0x100 * s
def F.STR_PRODUCED_LO_LO (s : Nat) : Fld := ⟨R.STR_PRODUCED_LO s, 0, 32⟩
def R.STR_PRODUCED_HI (s : Nat) : Nat := 0xC004C + 0x100 * s
def F.STR_PRODUCED_HI_HI (s : Nat) : Fld := ⟨R.STR_PRODUCED_HI s, 0, 32⟩
def R.STR_DELIVERED_LO (s : Nat) : Nat := 0xC0050 + 0x100 * s
def F.STR_DELIVERED_LO_LO (s : Nat) : Fld := ⟨R.STR_DELIVERED_LO s, 0, 32⟩
def R.STR_DELIVERED_HI (s : Nat) : Nat := 0xC0054 + 0x100 * s
def F.STR_DELIVERED_HI_HI (s : Nat) : Fld := ⟨R.STR_DELIVERED_HI s, 0, 32⟩
def R.STR_DECLARED_LO (s : Nat) : Nat := 0xC0058 + 0x100 * s
def F.STR_DECLARED_LO_LO (s : Nat) : Fld := ⟨R.STR_DECLARED_LO s, 0, 32⟩
def R.STR_DECLARED_HI (s : Nat) : Nat := 0xC005C + 0x100 * s
def F.STR_DECLARED_HI_HI (s : Nat) : Fld := ⟨R.STR_DECLARED_HI s, 0, 32⟩
def R.STR_IN_FLIGHT_LO (s : Nat) : Nat := 0xC0060 + 0x100 * s
def F.STR_IN_FLIGHT_LO_LO (s : Nat) : Fld := ⟨R.STR_IN_FLIGHT_LO s, 0, 32⟩
def R.STR_IN_FLIGHT_HI (s : Nat) : Nat := 0xC0064 + 0x100 * s
def F.STR_IN_FLIGHT_HI_HI (s : Nat) : Fld := ⟨R.STR_IN_FLIGHT_HI s, 0, 32⟩
def R.STR_HUB_ID : Nat := 0xC4000
def F.STR_HUB_ID_HUB_ID : Fld := ⟨R.STR_HUB_ID, 0, 16⟩
def R.STR_DRAIN : Nat := 0xC4004
def F.STR_DRAIN_DRAIN_MS : Fld := ⟨R.STR_DRAIN, 0, 16⟩
def R.STR_FUM_MASK : Nat := 0xC4008
def F.STR_FUM_MASK_MASK : Fld := ⟨R.STR_FUM_MASK, 0, 19⟩
def R.STR_FUM_HOLD : Nat := 0xC400C
def F.STR_FUM_HOLD_HOLD_US : Fld := ⟨R.STR_FUM_HOLD, 0, 10⟩
def R.NET_PORT_INFO (p : Nat) : Nat := 0xD0000 + 0x4000 * p
def F.NET_PORT_INFO_MODE (p : Nat) : Fld := ⟨R.NET_PORT_INFO p, 0, 2⟩
def R.NET_PORT_CTRL (p : Nat) : Nat := 0xD0004 + 0x4000 * p
def F.NET_PORT_CTRL_TRAIN (p : Nat) : Fld := ⟨R.NET_PORT_CTRL p, 0, 1⟩
def F.NET_PORT_CTRL_RESTART (p : Nat) : Fld := ⟨R.NET_PORT_CTRL p, 1, 1⟩
def F.NET_PORT_CTRL_READAPT (p : Nat) : Fld := ⟨R.NET_PORT_CTRL p, 2, 1⟩
def R.NET_PORT_STATUS (p : Nat) : Nat := 0xD0008 + 0x4000 * p
def F.NET_PORT_STATUS_LINK_UP (p : Nat) : Fld := ⟨R.NET_PORT_STATUS p, 0, 1⟩
def F.NET_PORT_STATUS_LOCAL_FAULT (p : Nat) : Fld := ⟨R.NET_PORT_STATUS p, 1, 1⟩
def F.NET_PORT_STATUS_REMOTE_FAULT (p : Nat) : Fld := ⟨R.NET_PORT_STATUS p, 2, 1⟩
def F.NET_PORT_STATUS_TRAINING (p : Nat) : Fld := ⟨R.NET_PORT_STATUS p, 3, 1⟩
def F.NET_PORT_STATUS_RCLK_OK (p : Nat) : Fld := ⟨R.NET_PORT_STATUS p, 4, 1⟩
def F.NET_PORT_STATUS_LINK_FAIL (p : Nat) : Fld := ⟨R.NET_PORT_STATUS p, 5, 1⟩
def R.NET_MAC_HI (p : Nat) : Nat := 0xD000C + 0x4000 * p
def F.NET_MAC_HI_MAC (p : Nat) : Fld := ⟨R.NET_MAC_HI p, 0, 16⟩
def R.NET_MAC_LO (p : Nat) : Nat := 0xD0010 + 0x4000 * p
def F.NET_MAC_LO_MAC (p : Nat) : Fld := ⟨R.NET_MAC_LO p, 0, 32⟩
def R.NET_NEXTHOP_HI (p : Nat) : Nat := 0xD0014 + 0x4000 * p
def F.NET_NEXTHOP_HI_MAC (p : Nat) : Fld := ⟨R.NET_NEXTHOP_HI p, 0, 16⟩
def R.NET_NEXTHOP_LO (p : Nat) : Nat := 0xD0018 + 0x4000 * p
def F.NET_NEXTHOP_LO_MAC (p : Nat) : Fld := ⟨R.NET_NEXTHOP_LO p, 0, 32⟩
def R.NET_IP4 (p : Nat) : Nat := 0xD001C + 0x4000 * p
def F.NET_IP4_ADDR (p : Nat) : Fld := ⟨R.NET_IP4 p, 0, 32⟩
def R.NET_IP6 (p : Nat) (i : Nat) : Nat := 0xD0020 + 0x4000 * p + 0x4 * i
def F.NET_IP6_ADDR (p : Nat) (i : Nat) : Fld := ⟨R.NET_IP6 p i, 0, 32⟩
def R.NET_VLAN (p : Nat) : Nat := 0xD0030 + 0x4000 * p
def F.NET_VLAN_VID (p : Nat) : Fld := ⟨R.NET_VLAN p, 0, 12⟩
def F.NET_VLAN_PCP (p : Nat) : Fld := ⟨R.NET_VLAN p, 12, 3⟩
def F.NET_VLAN_EN (p : Nat) : Fld := ⟨R.NET_VLAN p, 15, 1⟩
def R.NET_IPHDR (p : Nat) : Nat := 0xD0034 + 0x4000 * p
def F.NET_IPHDR_TTL (p : Nat) : Fld := ⟨R.NET_IPHDR p, 0, 8⟩
def F.NET_IPHDR_CSUM4 (p : Nat) : Fld := ⟨R.NET_IPHDR p, 8, 1⟩
def R.NET_DSCP (p : Nat) : Nat := 0xD0038 + 0x4000 * p
def F.NET_DSCP_DSCP (p : Nat) : Fld := ⟨R.NET_DSCP p, 0, 30⟩
def R.NET_RX_FILTER (p : Nat) : Nat := 0xD003C + 0x4000 * p
def F.NET_RX_FILTER_PTP_L2 (p : Nat) : Fld := ⟨R.NET_RX_FILTER p, 0, 1⟩
def F.NET_RX_FILTER_PTP_UDP (p : Nat) : Fld := ⟨R.NET_RX_FILTER p, 1, 1⟩
def F.NET_RX_FILTER_ARP (p : Nat) : Fld := ⟨R.NET_RX_FILTER p, 2, 1⟩
def F.NET_RX_FILTER_ND (p : Nat) : Fld := ⟨R.NET_RX_FILTER p, 3, 1⟩
def F.NET_RX_FILTER_ESMC (p : Nat) : Fld := ⟨R.NET_RX_FILTER p, 4, 1⟩
def F.NET_RX_FILTER_ICMP (p : Nat) : Fld := ⟨R.NET_RX_FILTER p, 5, 1⟩
def R.NET_ASYM_TX (p : Nat) : Nat := 0xD0040 + 0x4000 * p
def F.NET_ASYM_TX_ASYM (p : Nat) : Fld := ⟨R.NET_ASYM_TX p, 0, 32⟩
def R.NET_ASYM_RX (p : Nat) : Nat := 0xD0044 + 0x4000 * p
def F.NET_ASYM_RX_ASYM (p : Nat) : Fld := ⟨R.NET_ASYM_RX p, 0, 32⟩
def R.NET_PTP_CTRL (p : Nat) : Nat := 0xD0048 + 0x4000 * p
def F.NET_PTP_CTRL_EN (p : Nat) : Fld := ⟨R.NET_PTP_CTRL p, 0, 1⟩
def F.NET_PTP_CTRL_MODE (p : Nat) : Fld := ⟨R.NET_PTP_CTRL p, 1, 1⟩
def F.NET_PTP_CTRL_TRANSPORT (p : Nat) : Fld := ⟨R.NET_PTP_CTRL p, 2, 2⟩
def F.NET_PTP_CTRL_DOMAIN (p : Nat) : Fld := ⟨R.NET_PTP_CTRL p, 8, 8⟩
def F.NET_PTP_CTRL_AVG (p : Nat) : Fld := ⟨R.NET_PTP_CTRL p, 16, 4⟩
def F.NET_PTP_CTRL_CONSEC (p : Nat) : Fld := ⟨R.NET_PTP_CTRL p, 20, 4⟩
def R.NET_PTP_ID0 (p : Nat) : Nat := 0xD004C + 0x4000 * p
def F.NET_PTP_ID0_CLK_ID (p : Nat) : Fld := ⟨R.NET_PTP_ID0 p, 0, 32⟩
def R.NET_PTP_ID1 (p : Nat) : Nat := 0xD0050 + 0x4000 * p
def F.NET_PTP_ID1_CLK_ID (p : Nat) : Fld := ⟨R.NET_PTP_ID1 p, 0, 32⟩
def R.NET_PTP_ID2 (p : Nat) : Nat := 0xD0054 + 0x4000 * p
def F.NET_PTP_ID2_PORTNUM (p : Nat) : Fld := ⟨R.NET_PTP_ID2 p, 0, 16⟩
def R.NET_PD_THR (p : Nat) : Nat := 0xD0058 + 0x4000 * p
def F.NET_PD_THR_THR (p : Nat) : Fld := ⟨R.NET_PD_THR p, 0, 32⟩
def R.NET_PD_COUNT (p : Nat) : Nat := 0xD0070 + 0x4000 * p
def F.NET_PD_COUNT_COUNT (p : Nat) : Fld := ⟨R.NET_PD_COUNT p, 0, 32⟩
def R.NET_PD_STEPS (p : Nat) : Nat := 0xD0074 + 0x4000 * p
def F.NET_PD_STEPS_COUNT (p : Nat) : Fld := ⟨R.NET_PD_STEPS p, 0, 32⟩
def R.NET_PHASE (p : Nat) : Nat := 0xD0078 + 0x4000 * p
def F.NET_PHASE_PHASE (p : Nat) : Fld := ⟨R.NET_PHASE p, 0, 16⟩
def F.NET_PHASE_VALID (p : Nat) : Fld := ⟨R.NET_PHASE p, 16, 1⟩
def R.NET_PD_MPD_LO (p : Nat) : Nat := 0xD0060 + 0x4000 * p
def F.NET_PD_MPD_LO_LO (p : Nat) : Fld := ⟨R.NET_PD_MPD_LO p, 0, 32⟩
def R.NET_PD_MPD_HI (p : Nat) : Nat := 0xD0064 + 0x4000 * p
def F.NET_PD_MPD_HI_HI (p : Nat) : Fld := ⟨R.NET_PD_MPD_HI p, 0, 32⟩
def R.NET_PD_RUN_LO (p : Nat) : Nat := 0xD0068 + 0x4000 * p
def F.NET_PD_RUN_LO_LO (p : Nat) : Fld := ⟨R.NET_PD_RUN_LO p, 0, 32⟩
def R.NET_PD_RUN_HI (p : Nat) : Nat := 0xD006C + 0x4000 * p
def F.NET_PD_RUN_HI_HI (p : Nat) : Fld := ⟨R.NET_PD_RUN_HI p, 0, 32⟩
def R.NET_TX_FRAMES (p : Nat) : Nat := 0xD0080 + 0x4000 * p
def F.NET_TX_FRAMES_COUNT (p : Nat) : Fld := ⟨R.NET_TX_FRAMES p, 0, 32⟩
def R.NET_TX_HOST (p : Nat) : Nat := 0xD0084 + 0x4000 * p
def F.NET_TX_HOST_COUNT (p : Nat) : Fld := ⟨R.NET_TX_HOST p, 0, 32⟩
def R.NET_RX_HOST (p : Nat) : Nat := 0xD0088 + 0x4000 * p
def F.NET_RX_HOST_COUNT (p : Nat) : Fld := ⟨R.NET_RX_HOST p, 0, 32⟩
def R.NET_RX_DROP (p : Nat) : Nat := 0xD008C + 0x4000 * p
def F.NET_RX_DROP_COUNT (p : Nat) : Fld := ⟨R.NET_RX_DROP p, 0, 32⟩
def R.NET_RX_FCS (p : Nat) : Nat := 0xD0090 + 0x4000 * p
def F.NET_RX_FCS_COUNT (p : Nat) : Fld := ⟨R.NET_RX_FCS p, 0, 32⟩
def R.NET_RX_OVERSIZE (p : Nat) : Nat := 0xD0094 + 0x4000 * p
def F.NET_RX_OVERSIZE_COUNT (p : Nat) : Fld := ⟨R.NET_RX_OVERSIZE p, 0, 32⟩
def R.NET_RX_CTRL (p : Nat) : Nat := 0xD0098 + 0x4000 * p
def F.NET_RX_CTRL_COUNT (p : Nat) : Fld := ⟨R.NET_RX_CTRL p, 0, 32⟩
def R.NET_FEC_CORR (p : Nat) : Nat := 0xD009C + 0x4000 * p
def F.NET_FEC_CORR_COUNT (p : Nat) : Fld := ⟨R.NET_FEC_CORR p, 0, 32⟩
def R.NET_FEC_UNCORR (p : Nat) : Nat := 0xD00A0 + 0x4000 * p
def F.NET_FEC_UNCORR_COUNT (p : Nat) : Fld := ⟨R.NET_FEC_UNCORR p, 0, 32⟩
def R.NET_LINK_DOWNS (p : Nat) : Nat := 0xD00A4 + 0x4000 * p
def F.NET_LINK_DOWNS_COUNT (p : Nat) : Fld := ⟨R.NET_LINK_DOWNS p, 0, 32⟩
def R.NET_TRAIN_TRANS (p : Nat) : Nat := 0xD00A8 + 0x4000 * p
def F.NET_TRAIN_TRANS_COUNT (p : Nat) : Fld := ⟨R.NET_TRAIN_TRANS p, 0, 32⟩
def R.NET_TRAIN_LASTING (p : Nat) : Nat := 0xD00AC + 0x4000 * p
def F.NET_TRAIN_LASTING_COUNT (p : Nat) : Fld := ⟨R.NET_TRAIN_LASTING p, 0, 32⟩
def R.NET_TS_STATUS : Nat := 0xD3000
def F.NET_TS_STATUS_SUSPECT : Fld := ⟨R.NET_TS_STATUS, 0, 1⟩
def F.NET_TS_STATUS_SET : Fld := ⟨R.NET_TS_STATUS, 1, 1⟩
def F.NET_TS_STATUS_SRC : Fld := ⟨R.NET_TS_STATUS, 4, 4⟩
def R.NET_SYNCE_CTRL : Nat := 0xD3004
def F.NET_SYNCE_CTRL_CLKOUT_EN : Fld := ⟨R.NET_SYNCE_CTRL, 0, 1⟩
def F.NET_SYNCE_CTRL_SQUELCH : Fld := ⟨R.NET_SYNCE_CTRL, 1, 1⟩
def F.NET_SYNCE_CTRL_PORT : Fld := ⟨R.NET_SYNCE_CTRL, 2, 2⟩
def F.NET_SYNCE_CTRL_FSEL : Fld := ⟨R.NET_SYNCE_CTRL, 4, 2⟩
def R.NET_DMF_CTRL : Nat := 0xD3008
def F.NET_DMF_CTRL_EN : Fld := ⟨R.NET_DMF_CTRL, 0, 1⟩
def F.NET_DMF_CTRL_PORTS : Fld := ⟨R.NET_DMF_CTRL, 4, 4⟩
def F.NET_DMF_CTRL_UDP : Fld := ⟨R.NET_DMF_CTRL, 16, 16⟩
def R.NET_DMF_KEY_CTRL : Nat := 0xD300C
def F.NET_DMF_KEY_CTRL_KEN0 : Fld := ⟨R.NET_DMF_KEY_CTRL, 0, 1⟩
def F.NET_DMF_KEY_CTRL_KEN1 : Fld := ⟨R.NET_DMF_KEY_CTRL, 1, 1⟩
def R.NET_DMF_SEQ_LO (k : Nat) : Nat := 0xD3010 + 0x8 * k
def F.NET_DMF_SEQ_LO_LO (k : Nat) : Fld := ⟨R.NET_DMF_SEQ_LO k, 0, 32⟩
def R.NET_DMF_SEQ_HI (k : Nat) : Nat := 0xD3014 + 0x8 * k
def F.NET_DMF_SEQ_HI_HI (k : Nat) : Fld := ⟨R.NET_DMF_SEQ_HI k, 0, 32⟩
def R.NET_DMF_REQ : Nat := 0xD3020
def F.NET_DMF_REQ_COUNT : Fld := ⟨R.NET_DMF_REQ, 0, 32⟩
def R.NET_DMF_AUTHFAIL : Nat := 0xD3024
def F.NET_DMF_AUTHFAIL_COUNT : Fld := ⟨R.NET_DMF_AUTHFAIL, 0, 32⟩
def R.NET_DMF_REPLAY : Nat := 0xD3028
def F.NET_DMF_REPLAY_COUNT : Fld := ⟨R.NET_DMF_REPLAY, 0, 32⟩
def R.NET_DMF_DROP : Nat := 0xD302C
def F.NET_DMF_DROP_COUNT : Fld := ⟨R.NET_DMF_DROP, 0, 32⟩
def R.NET_DMF_DENIED : Nat := 0xD3030
def F.NET_DMF_DENIED_COUNT : Fld := ⟨R.NET_DMF_DENIED, 0, 32⟩
def R.NET_DMF_KEY (k : Nat) (i : Nat) : Nat := 0xD3100 + 0x20 * k + 0x4 * i
def F.NET_DMF_KEY_KEY (k : Nat) (i : Nat) : Fld := ⟨R.NET_DMF_KEY k i, 0, 32⟩
def R.GLB_PART : Nat := 0x0
def F.GLB_PART_PART : Fld := ⟨R.GLB_PART, 0, 16⟩
def F.GLB_PART_FAMILY : Fld := ⟨R.GLB_PART, 16, 8⟩
def R.GLB_STEPPING : Nat := 0x4
def F.GLB_STEPPING_STEP : Fld := ⟨R.GLB_STEPPING, 0, 8⟩
def R.GLB_PCI_ID : Nat := 0x8
def F.GLB_PCI_ID_VID : Fld := ⟨R.GLB_PCI_ID, 0, 16⟩
def F.GLB_PCI_ID_DID : Fld := ⟨R.GLB_PCI_ID, 16, 16⟩
def R.GLB_SERIAL_LO : Nat := 0xC
def F.GLB_SERIAL_LO_SN_LO : Fld := ⟨R.GLB_SERIAL_LO, 0, 32⟩
def R.GLB_SERIAL_HI : Nat := 0x10
def F.GLB_SERIAL_HI_SN_HI : Fld := ⟨R.GLB_SERIAL_HI, 0, 32⟩
def R.GLB_VER_REGMAP : Nat := 0x14
def F.GLB_VER_REGMAP_VER : Fld := ⟨R.GLB_VER_REGMAP, 0, 16⟩
def R.GLB_VER_STALUX : Nat := 0x18
def F.GLB_VER_STALUX_MAX : Fld := ⟨R.GLB_VER_STALUX, 0, 8⟩
def F.GLB_VER_STALUX_MIN : Fld := ⟨R.GLB_VER_STALUX, 8, 8⟩
def R.GLB_VER_DAMUF : Nat := 0x1C
def F.GLB_VER_DAMUF_VER : Fld := ⟨R.GLB_VER_DAMUF, 0, 8⟩
def R.GLB_VER_CONTAINER : Nat := 0x20
def F.GLB_VER_CONTAINER_VER : Fld := ⟨R.GLB_VER_CONTAINER, 0, 8⟩
def R.GLB_IDENT : Nat := 0x24
def F.GLB_IDENT_IDENT : Fld := ⟨R.GLB_IDENT, 0, 4⟩
def R.GLB_FENCE : Nat := 0x30
def F.GLB_FENCE_TOKEN : Fld := ⟨R.GLB_FENCE, 0, 16⟩
def R.GLB_FENCE_DONE : Nat := 0x34
def F.GLB_FENCE_DONE_TOKEN : Fld := ⟨R.GLB_FENCE_DONE, 0, 16⟩
def F.GLB_FENCE_DONE_PENDING : Fld := ⟨R.GLB_FENCE_DONE, 31, 1⟩
def R.HIF_TIMED_APPLY_LO : Nat := 0xE0000
def F.HIF_TIMED_APPLY_LO_SN_LO : Fld := ⟨R.HIF_TIMED_APPLY_LO, 0, 32⟩
def R.HIF_TIMED_APPLY_HI : Nat := 0xE0004
def F.HIF_TIMED_APPLY_HI_SN_HI : Fld := ⟨R.HIF_TIMED_APPLY_HI, 0, 32⟩
def R.HIF_APPLY_CTRL : Nat := 0xE0008
def F.HIF_APPLY_CTRL_ARM : Fld := ⟨R.HIF_APPLY_CTRL, 0, 1⟩
def F.HIF_APPLY_CTRL_DISARM : Fld := ⟨R.HIF_APPLY_CTRL, 1, 1⟩
def R.HIF_APPLY_STATUS : Nat := 0xE000C
def F.HIF_APPLY_STATUS_STATE : Fld := ⟨R.HIF_APPLY_STATUS, 0, 2⟩
def F.HIF_APPLY_STATUS_LATE : Fld := ⟨R.HIF_APPLY_STATUS, 2, 1⟩
def F.HIF_APPLY_STATUS_REFUSED : Fld := ⟨R.HIF_APPLY_STATUS, 3, 1⟩
def F.HIF_APPLY_STATUS_STRANDED : Fld := ⟨R.HIF_APPLY_STATUS, 4, 1⟩
def F.HIF_APPLY_STATUS_WR_BLOCKED : Fld := ⟨R.HIF_APPLY_STATUS, 5, 1⟩
def F.HIF_APPLY_STATUS_ARM_BUSY : Fld := ⟨R.HIF_APPLY_STATUS, 6, 1⟩
def F.HIF_APPLY_STATUS_DISARM_LATE : Fld := ⟨R.HIF_APPLY_STATUS, 7, 1⟩
def F.HIF_APPLY_STATUS_FLAGGED : Fld := ⟨R.HIF_APPLY_STATUS, 16, 16⟩
def R.HIF_APPLY_LANDED_LO : Nat := 0xE0010
def F.HIF_APPLY_LANDED_LO_SN_LO : Fld := ⟨R.HIF_APPLY_LANDED_LO, 0, 32⟩
def R.HIF_APPLY_LANDED_HI : Nat := 0xE0014
def F.HIF_APPLY_LANDED_HI_SN_HI : Fld := ⟨R.HIF_APPLY_LANDED_HI, 0, 32⟩
def R.HIF_STATUS : Nat := 0xE0020
def F.HIF_STATUS_RD_OFF : Fld := ⟨R.HIF_STATUS, 0, 1⟩
def F.HIF_STATUS_WR_OFF : Fld := ⟨R.HIF_STATUS, 1, 1⟩
def R.HIF_BAD_REQ : Nat := 0xE0024
def F.HIF_BAD_REQ_COUNT : Fld := ⟨R.HIF_BAD_REQ, 0, 32⟩
def R.HIF_DENY : Nat := 0xE0028
def F.HIF_DENY_COUNT : Fld := ⟨R.HIF_DENY, 0, 32⟩
def R.HIF_LINK : Nat := 0xE002C
def F.HIF_LINK_SPEED : Fld := ⟨R.HIF_LINK, 0, 4⟩
def F.HIF_LINK_WIDTH : Fld := ⟨R.HIF_LINK, 4, 6⟩
def R.HIF_RX_ROUTE : Nat := 0xE0030
def F.HIF_RX_ROUTE_FN : Fld := ⟨R.HIF_RX_ROUTE, 0, 4⟩
def R.HIF_RING_BASE_LO (f : Nat) (r : Nat) : Nat := 0xE1000 + 0x1000 * f + 0x40 * r
def F.HIF_RING_BASE_LO_LO (f : Nat) (r : Nat) : Fld := ⟨R.HIF_RING_BASE_LO f r, 0, 32⟩
def R.HIF_RING_BASE_HI (f : Nat) (r : Nat) : Nat := 0xE1004 + 0x1000 * f + 0x40 * r
def F.HIF_RING_BASE_HI_HI (f : Nat) (r : Nat) : Fld := ⟨R.HIF_RING_BASE_HI f r, 0, 32⟩
def R.HIF_RING_WB_LO (f : Nat) (r : Nat) : Nat := 0xE1008 + 0x1000 * f + 0x40 * r
def F.HIF_RING_WB_LO_LO (f : Nat) (r : Nat) : Fld := ⟨R.HIF_RING_WB_LO f r, 0, 32⟩
def R.HIF_RING_WB_HI (f : Nat) (r : Nat) : Nat := 0xE100C + 0x1000 * f + 0x40 * r
def F.HIF_RING_WB_HI_HI (f : Nat) (r : Nat) : Fld := ⟨R.HIF_RING_WB_HI f r, 0, 32⟩
def R.HIF_RING_CTRL (f : Nat) (r : Nat) : Nat := 0xE1010 + 0x1000 * f + 0x40 * r
def F.HIF_RING_CTRL_EN (f : Nat) (r : Nat) : Fld := ⟨R.HIF_RING_CTRL f r, 0, 1⟩
def F.HIF_RING_CTRL_LOG2 (f : Nat) (r : Nat) : Fld := ⟨R.HIF_RING_CTRL f r, 4, 4⟩
def F.HIF_RING_CTRL_VEC (f : Nat) (r : Nat) : Fld := ⟨R.HIF_RING_CTRL f r, 8, 6⟩
def F.HIF_RING_CTRL_MOD (f : Nat) (r : Nat) : Fld := ⟨R.HIF_RING_CTRL f r, 16, 16⟩
def R.HIF_RING_PI (f : Nat) (r : Nat) : Nat := 0xE1014 + 0x1000 * f + 0x40 * r
def F.HIF_RING_PI_PI (f : Nat) (r : Nat) : Fld := ⟨R.HIF_RING_PI f r, 0, 16⟩
def R.HIF_RING_CI (f : Nat) (r : Nat) : Nat := 0xE1018 + 0x1000 * f + 0x40 * r
def F.HIF_RING_CI_CI (f : Nat) (r : Nat) : Fld := ⟨R.HIF_RING_CI f r, 0, 16⟩
def R.HIF_RING_STATUS (f : Nat) (r : Nat) : Nat := 0xE101C + 0x1000 * f + 0x40 * r
def F.HIF_RING_STATUS_ERR (f : Nat) (r : Nat) : Fld := ⟨R.HIF_RING_STATUS f r, 0, 2⟩
def R.HIF_RING_DROP (f : Nat) (r : Nat) : Nat := 0xE1020 + 0x1000 * f + 0x40 * r
def F.HIF_RING_DROP_COUNT (f : Nat) (r : Nat) : Fld := ⟨R.HIF_RING_DROP f r, 0, 32⟩
def R.HIF_FN_ALERT (f : Nat) : Nat := 0xE1FF0 + 0x1000 * f
def F.HIF_FN_ALERT_EN (f : Nat) : Fld := ⟨R.HIF_FN_ALERT f, 0, 1⟩
def F.HIF_FN_ALERT_VEC (f : Nat) : Fld := ⟨R.HIF_FN_ALERT f, 8, 6⟩
def R.MBX_PAYLOAD (n : Nat) (i : Nat) : Nat := 0x30000 + 0x80 * n + 0x4 * i
def F.MBX_PAYLOAD_DATA (n : Nat) (i : Nat) : Fld := ⟨R.MBX_PAYLOAD n i, 0, 32⟩
def R.MBX_HEADER (n : Nat) : Nat := 0x30040 + 0x80 * n
def F.MBX_HEADER_LEN (n : Nat) : Fld := ⟨R.MBX_HEADER n, 0, 5⟩
def F.MBX_HEADER_SENDER (n : Nat) : Fld := ⟨R.MBX_HEADER n, 8, 4⟩
def F.MBX_HEADER_CODE (n : Nat) : Fld := ⟨R.MBX_HEADER n, 16, 16⟩
def R.MBX_DOORBELL (n : Nat) : Nat := 0x30044 + 0x80 * n
def F.MBX_DOORBELL_RING (n : Nat) : Fld := ⟨R.MBX_DOORBELL n, 0, 1⟩
def F.MBX_DOORBELL_ABANDON (n : Nat) : Fld := ⟨R.MBX_DOORBELL n, 1, 1⟩
def F.MBX_DOORBELL_ACK (n : Nat) : Fld := ⟨R.MBX_DOORBELL n, 2, 1⟩
def F.MBX_DOORBELL_RESULT (n : Nat) : Fld := ⟨R.MBX_DOORBELL n, 8, 8⟩
def R.MBX_STATUS (n : Nat) : Nat := 0x30048 + 0x80 * n
def F.MBX_STATUS_STATE (n : Nat) : Fld := ⟨R.MBX_STATUS n, 0, 2⟩
def F.MBX_STATUS_COMPOSER (n : Nat) : Fld := ⟨R.MBX_STATUS n, 4, 4⟩
def F.MBX_STATUS_RESULT (n : Nat) : Fld := ⟨R.MBX_STATUS n, 8, 8⟩
def F.MBX_STATUS_RERING (n : Nat) : Fld := ⟨R.MBX_STATUS n, 16, 1⟩
def F.MBX_STATUS_DISCARDED (n : Nat) : Fld := ⟨R.MBX_STATUS n, 17, 1⟩
def F.MBX_STATUS_BUSY (n : Nat) : Fld := ⟨R.MBX_STATUS n, 18, 1⟩
def F.MBX_STATUS_ORDER_ERR (n : Nat) : Fld := ⟨R.MBX_STATUS n, 19, 1⟩
def F.MBX_STATUS_ACC_ERR (n : Nat) : Fld := ⟨R.MBX_STATUS n, 20, 1⟩
def R.MBX_BIND (n : Nat) : Nat := 0x3004C + 0x80 * n
def F.MBX_BIND_A (n : Nat) : Fld := ⟨R.MBX_BIND n, 0, 4⟩
def F.MBX_BIND_B (n : Nat) : Fld := ⟨R.MBX_BIND n, 8, 4⟩
def R.MBX_CH_CTRL (n : Nat) : Nat := 0x30050 + 0x80 * n
def F.MBX_CH_CTRL_VEC_A (n : Nat) : Fld := ⟨R.MBX_CH_CTRL n, 0, 6⟩
def F.MBX_CH_CTRL_WAKE_A (n : Nat) : Fld := ⟨R.MBX_CH_CTRL n, 6, 1⟩
def F.MBX_CH_CTRL_VEC_B (n : Nat) : Fld := ⟨R.MBX_CH_CTRL n, 8, 6⟩
def F.MBX_CH_CTRL_WAKE_B (n : Nat) : Fld := ⟨R.MBX_CH_CTRL n, 14, 1⟩
def R.MBX_REFUSED (n : Nat) : Nat := 0x30054 + 0x80 * n
def F.MBX_REFUSED_COUNT (n : Nat) : Fld := ⟨R.MBX_REFUSED n, 0, 32⟩
def R.MBX_LOCK (n : Nat) : Nat := 0x31000 + 0x4 * n
def F.MBX_LOCK_OWNER (n : Nat) : Fld := ⟨R.MBX_LOCK n, 0, 4⟩
def F.MBX_LOCK_RELEASED_BY_RESET (n : Nat) : Fld := ⟨R.MBX_LOCK n, 8, 1⟩
def R.MBX_LOCK_PEEK (n : Nat) : Nat := 0x31040 + 0x4 * n
def F.MBX_LOCK_PEEK_OWNER (n : Nat) : Fld := ⟨R.MBX_LOCK_PEEK n, 0, 4⟩
def F.MBX_LOCK_PEEK_RELEASED_BY_RESET (n : Nat) : Fld := ⟨R.MBX_LOCK_PEEK n, 8, 1⟩
def R.MBX_INFO : Nat := 0x32000
def F.MBX_INFO_BOUND : Fld := ⟨R.MBX_INFO, 0, 24⟩
def F.MBX_INFO_LOCKED : Fld := ⟨R.MBX_INFO, 24, 1⟩
def R.MBX_ERR_COUNT : Nat := 0x32004
def F.MBX_ERR_COUNT_COUNT : Fld := ⟨R.MBX_ERR_COUNT, 0, 32⟩
def R.MBX_LOCK_ERR : Nat := 0x32008
def F.MBX_LOCK_ERR_COUNT : Fld := ⟨R.MBX_LOCK_ERR, 0, 32⟩
def R.PWR_STATUS : Nat := 0x10000
def F.PWR_STATUS_READY : Fld := ⟨R.PWR_STATUS, 0, 1⟩
def F.PWR_STATUS_RET_LOST : Fld := ⟨R.PWR_STATUS, 1, 1⟩
def F.PWR_STATUS_SET_SRC : Fld := ⟨R.PWR_STATUS, 2, 2⟩
def F.PWR_STATUS_SET_HALF : Fld := ⟨R.PWR_STATUS, 4, 1⟩
def F.PWR_STATUS_LAST_RESET : Fld := ⟨R.PWR_STATUS, 8, 3⟩
def F.PWR_STATUS_BLK_REFUSED : Fld := ⟨R.PWR_STATUS, 11, 1⟩
def R.PWR_RESET : Nat := 0x10004
def F.PWR_RESET_WARM : Fld := ⟨R.PWR_RESET, 0, 1⟩
def F.PWR_RESET_KEY : Fld := ⟨R.PWR_RESET, 24, 8⟩
def R.PWR_BLK_RESET : Nat := 0x10008
def F.PWR_BLK_RESET_BLK : Fld := ⟨R.PWR_BLK_RESET, 0, 19⟩
def R.PWR_DOM_STATE : Nat := 0x1000C
def F.PWR_DOM_STATE_STATE : Fld := ⟨R.PWR_DOM_STATE, 0, 28⟩
def R.PWR_TCU_WAKE : Nat := 0x10010
def F.PWR_TCU_WAKE_MASK : Fld := ⟨R.PWR_TCU_WAKE, 0, 14⟩
def R.PWR_SAVE_CTRL : Nat := 0x10020
def F.PWR_SAVE_CTRL_SAVE : Fld := ⟨R.PWR_SAVE_CTRL, 0, 1⟩
def F.PWR_SAVE_CTRL_SAVE_BUSY : Fld := ⟨R.PWR_SAVE_CTRL, 1, 1⟩
def F.PWR_SAVE_CTRL_SAVE_ERR : Fld := ⟨R.PWR_SAVE_CTRL, 2, 1⟩
def F.PWR_SAVE_CTRL_INTERVAL_MIN : Fld := ⟨R.PWR_SAVE_CTRL, 16, 16⟩
def R.PWR_SAVE_GEN : Nat := 0x10024
def F.PWR_SAVE_GEN_GEN : Fld := ⟨R.PWR_SAVE_GEN, 0, 32⟩
def R.PWR_SAVES : Nat := 0x10028
def F.PWR_SAVES_COUNT : Fld := ⟨R.PWR_SAVES, 0, 32⟩
def R.PWR_RET_CE : Nat := 0x1002C
def F.PWR_RET_CE_COUNT : Fld := ⟨R.PWR_RET_CE, 0, 32⟩
def R.PWR_DOM_CTRL (d : Nat) : Nat := 0x10100 + 0x4 * d
def F.PWR_DOM_CTRL_IDLE_STATE (d : Nat) : Fld := ⟨R.PWR_DOM_CTRL d, 0, 2⟩
def F.PWR_DOM_CTRL_RESET (d : Nat) : Fld := ⟨R.PWR_DOM_CTRL d, 2, 1⟩
def F.PWR_DOM_CTRL_REFUSED (d : Nat) : Fld := ⟨R.PWR_DOM_CTRL d, 3, 1⟩
def F.PWR_DOM_CTRL_HOLD_US (d : Nat) : Fld := ⟨R.PWR_DOM_CTRL d, 16, 16⟩
def R.PWR_DOM_WAKES (d : Nat) : Nat := 0x10140 + 0x4 * d
def F.PWR_DOM_WAKES_COUNT (d : Nat) : Fld := ⟨R.PWR_DOM_WAKES d, 0, 32⟩
def R.UPD_SESSION : Nat := 0x70100
def F.UPD_SESSION_OWNER : Fld := ⟨R.UPD_SESSION, 0, 4⟩
def R.UPD_CTRL : Nat := 0x70104
def F.UPD_CTRL_START : Fld := ⟨R.UPD_CTRL, 0, 1⟩
def F.UPD_CTRL_ACTIVATE : Fld := ⟨R.UPD_CTRL, 1, 1⟩
def F.UPD_CTRL_ABORT : Fld := ⟨R.UPD_CTRL, 2, 1⟩
def F.UPD_CTRL_AT_SN : Fld := ⟨R.UPD_CTRL, 3, 1⟩
def F.UPD_CTRL_CONFIRM : Fld := ⟨R.UPD_CTRL, 4, 1⟩
def F.UPD_CTRL_REJECT : Fld := ⟨R.UPD_CTRL, 5, 1⟩
def F.UPD_CTRL_KEY : Fld := ⟨R.UPD_CTRL, 24, 8⟩
def R.UPD_SRC_ADDR_LO : Nat := 0x70108
def F.UPD_SRC_ADDR_LO_LO : Fld := ⟨R.UPD_SRC_ADDR_LO, 0, 32⟩
def R.UPD_SRC_ADDR_HI : Nat := 0x7010C
def F.UPD_SRC_ADDR_HI_HI : Fld := ⟨R.UPD_SRC_ADDR_HI, 0, 32⟩
def R.UPD_SRC_LEN : Nat := 0x70110
def F.UPD_SRC_LEN_LEN : Fld := ⟨R.UPD_SRC_LEN, 0, 32⟩
def R.UPD_DATA : Nat := 0x70114
def F.UPD_DATA_DATA : Fld := ⟨R.UPD_DATA, 0, 32⟩
def R.UPD_STATUS : Nat := 0x70118
def F.UPD_STATUS_STATE : Fld := ⟨R.UPD_STATUS, 0, 4⟩
def F.UPD_STATUS_SECTION : Fld := ⟨R.UPD_STATUS, 4, 4⟩
def F.UPD_STATUS_ERR : Fld := ⟨R.UPD_STATUS, 8, 8⟩
def F.UPD_STATUS_FAILED : Fld := ⟨R.UPD_STATUS, 16, 1⟩
def F.UPD_STATUS_CONFIRMED : Fld := ⟨R.UPD_STATUS, 17, 1⟩
def F.UPD_STATUS_FELLBACK : Fld := ⟨R.UPD_STATUS, 18, 1⟩
def F.UPD_STATUS_LATE : Fld := ⟨R.UPD_STATUS, 19, 1⟩
def F.UPD_STATUS_PARTIAL_ACT : Fld := ⟨R.UPD_STATUS, 20, 1⟩
def R.UPD_OFFSET : Nat := 0x7011C
def F.UPD_OFFSET_NEXT : Fld := ⟨R.UPD_OFFSET, 0, 32⟩
def R.UPD_HEALTH : Nat := 0x70120
def F.UPD_HEALTH_MET : Fld := ⟨R.UPD_HEALTH, 0, 16⟩
def F.UPD_HEALTH_DEF : Fld := ⟨R.UPD_HEALTH, 16, 16⟩
def R.UPD_WINDOW_LEFT : Nat := 0x70124
def F.UPD_WINDOW_LEFT_MS : Fld := ⟨R.UPD_WINDOW_LEFT, 0, 32⟩
def R.UPD_TIMEOUT : Nat := 0x70128
def F.UPD_TIMEOUT_SEC : Fld := ⟨R.UPD_TIMEOUT, 0, 16⟩
def R.UPD_JOURNAL : Nat := 0x7012C
def F.UPD_JOURNAL_ACTIVE : Fld := ⟨R.UPD_JOURNAL, 0, 2⟩
def F.UPD_JOURNAL_OTHER : Fld := ⟨R.UPD_JOURNAL, 2, 2⟩
def F.UPD_JOURNAL_JSTATE : Fld := ⟨R.UPD_JOURNAL, 4, 3⟩
def F.UPD_JOURNAL_PRE_HALF : Fld := ⟨R.UPD_JOURNAL, 8, 8⟩
def R.UPD_SLOT_VER (i : Nat) : Nat := 0x70130 + 0x4 * i
def F.UPD_SLOT_VER_VER (i : Nat) : Fld := ⟨R.UPD_SLOT_VER i, 0, 32⟩
def R.UPD_FUSE : Nat := 0x70138
def F.UPD_FUSE_ARB_FUSE : Fld := ⟨R.UPD_FUSE, 0, 7⟩
def F.UPD_FUSE_PKH_SET : Fld := ⟨R.UPD_FUSE, 8, 1⟩
def R.UPD_TRANSIENT : Nat := 0x7013C
def F.UPD_TRANSIENT_COUNT : Fld := ⟨R.UPD_TRANSIENT, 0, 32⟩
def R.UPD_LASTING : Nat := 0x70140
def F.UPD_LASTING_COUNT : Fld := ⟨R.UPD_LASTING, 0, 32⟩
def R.UPD_SEC_VER (t : Nat) : Nat := 0x70180 + 0x4 * t
def F.UPD_SEC_VER_ACTIVE (t : Nat) : Fld := ⟨R.UPD_SEC_VER t, 0, 16⟩
def F.UPD_SEC_VER_STAGED (t : Nat) : Fld := ⟨R.UPD_SEC_VER t, 16, 16⟩
def R.MNT_QUEUE : Nat := 0xF0000
def F.MNT_QUEUE_DEPTH : Fld := ⟨R.MNT_QUEUE, 0, 6⟩
def F.MNT_QUEUE_HIGH : Fld := ⟨R.MNT_QUEUE, 8, 6⟩
def R.MNT_LATE : Nat := 0xF0004
def F.MNT_LATE_COUNT : Fld := ⟨R.MNT_LATE, 0, 32⟩
def R.MNT_ALERT_STATUS : Nat := 0xF0008
def F.MNT_ALERT_STATUS_LASTING : Fld := ⟨R.MNT_ALERT_STATUS, 0, 7⟩
def F.MNT_ALERT_STATUS_TRANS : Fld := ⟨R.MNT_ALERT_STATUS, 8, 7⟩
def R.MNT_ALERT_MASK : Nat := 0xF000C
def F.MNT_ALERT_MASK_LASTING : Fld := ⟨R.MNT_ALERT_MASK, 0, 7⟩
def F.MNT_ALERT_MASK_TRANS : Fld := ⟨R.MNT_ALERT_MASK, 8, 7⟩
def R.MNT_LAST_FAULT : Nat := 0xF0010
def F.MNT_LAST_FAULT_CLASS : Fld := ⟨R.MNT_LAST_FAULT, 0, 3⟩
def F.MNT_LAST_FAULT_TRANSIENT : Fld := ⟨R.MNT_LAST_FAULT, 3, 1⟩
def R.MNT_LAST_LOC : Nat := 0xF0014
def F.MNT_LAST_LOC_LOC : Fld := ⟨R.MNT_LAST_LOC, 0, 32⟩
def R.MNT_ACT_STATE (a : Nat) : Nat := 0xF0100 + 0x10 * a
def F.MNT_ACT_STATE_RUNNING (a : Nat) : Fld := ⟨R.MNT_ACT_STATE a, 0, 5⟩
def F.MNT_ACT_STATE_WAITING (a : Nat) : Fld := ⟨R.MNT_ACT_STATE a, 8, 5⟩
def F.MNT_ACT_STATE_PAUSED (a : Nat) : Fld := ⟨R.MNT_ACT_STATE a, 16, 1⟩
def R.MNT_ACT_WAITS (a : Nat) : Nat := 0xF0104 + 0x10 * a
def F.MNT_ACT_WAITS_COUNT (a : Nat) : Fld := ⟨R.MNT_ACT_WAITS a, 0, 32⟩
def R.MNT_ACT_JOINED (a : Nat) : Nat := 0xF0108 + 0x10 * a
def F.MNT_ACT_JOINED_COUNT (a : Nat) : Fld := ⟨R.MNT_ACT_JOINED a, 0, 32⟩
def R.MNT_ACT_WITHDRAWN (a : Nat) : Nat := 0xF010C + 0x10 * a
def F.MNT_ACT_WITHDRAWN_COUNT (a : Nat) : Fld := ⟨R.MNT_ACT_WITHDRAWN a, 0, 32⟩
def R.MNT_FAULT_TRANS (k : Nat) : Nat := 0xF0200 + 0x8 * k
def F.MNT_FAULT_TRANS_COUNT (k : Nat) : Fld := ⟨R.MNT_FAULT_TRANS k, 0, 32⟩
def R.MNT_FAULT_LASTING (k : Nat) : Nat := 0xF0204 + 0x8 * k
def F.MNT_FAULT_LASTING_COUNT (k : Nat) : Fld := ⟨R.MNT_FAULT_LASTING k, 0, 32⟩
def R.DBG_CTRL : Nat := 0x60000
def F.DBG_CTRL_HALT : Fld := ⟨R.DBG_CTRL, 0, 1⟩
def F.DBG_CTRL_RESUME : Fld := ⟨R.DBG_CTRL, 1, 1⟩
def F.DBG_CTRL_STEP : Fld := ⟨R.DBG_CTRL, 2, 1⟩
def F.DBG_CTRL_STEP_UNIT : Fld := ⟨R.DBG_CTRL, 3, 1⟩
def F.DBG_CTRL_RELOCK : Fld := ⟨R.DBG_CTRL, 4, 1⟩
def F.DBG_CTRL_STEP_COUNT : Fld := ⟨R.DBG_CTRL, 16, 16⟩
def R.DBG_STATUS : Nat := 0x60004
def F.DBG_STATUS_STATE : Fld := ⟨R.DBG_STATUS, 0, 2⟩
def F.DBG_STATUS_UNLOCKED : Fld := ⟨R.DBG_STATUS, 2, 1⟩
def F.DBG_STATUS_LOCK_FUSED : Fld := ⟨R.DBG_STATUS, 3, 1⟩
def F.DBG_STATUS_REFUSED : Fld := ⟨R.DBG_STATUS, 4, 1⟩
def F.DBG_STATUS_BP_HIT : Fld := ⟨R.DBG_STATUS, 8, 8⟩
def F.DBG_STATUS_UNLOCK_FAILS : Fld := ⟨R.DBG_STATUS, 16, 4⟩
def R.DBG_HALT_SN_LO : Nat := 0x60008
def F.DBG_HALT_SN_LO_SN_LO : Fld := ⟨R.DBG_HALT_SN_LO, 0, 32⟩
def R.DBG_HALT_SN_HI : Nat := 0x6000C
def F.DBG_HALT_SN_HI_SN_HI : Fld := ⟨R.DBG_HALT_SN_HI, 0, 32⟩
def R.DBG_RESUME_SN_LO : Nat := 0x60010
def F.DBG_RESUME_SN_LO_SN_LO : Fld := ⟨R.DBG_RESUME_SN_LO, 0, 32⟩
def R.DBG_RESUME_SN_HI : Nat := 0x60014
def F.DBG_RESUME_SN_HI_SN_HI : Fld := ⟨R.DBG_RESUME_SN_HI, 0, 32⟩
def R.DBG_HALTS : Nat := 0x60018
def F.DBG_HALTS_COUNT : Fld := ⟨R.DBG_HALTS, 0, 32⟩
def R.DBG_BP_CTRL (n : Nat) : Nat := 0x60100 + 0x20 * n
def F.DBG_BP_CTRL_EN (n : Nat) : Fld := ⟨R.DBG_BP_CTRL n, 0, 1⟩
def F.DBG_BP_CTRL_ACTION (n : Nat) : Fld := ⟨R.DBG_BP_CTRL n, 1, 1⟩
def F.DBG_BP_CTRL_TYPE (n : Nat) : Fld := ⟨R.DBG_BP_CTRL n, 2, 3⟩
def F.DBG_BP_CTRL_TAP (n : Nat) : Fld := ⟨R.DBG_BP_CTRL n, 5, 2⟩
def F.DBG_BP_CTRL_COND (n : Nat) : Fld := ⟨R.DBG_BP_CTRL n, 7, 2⟩
def R.DBG_BP_SEL (n : Nat) : Nat := 0x60104 + 0x20 * n
def F.DBG_BP_SEL_SEL (n : Nat) : Fld := ⟨R.DBG_BP_SEL n, 0, 9⟩
def F.DBG_BP_SEL_KIND (n : Nat) : Fld := ⟨R.DBG_BP_SEL n, 9, 2⟩
def F.DBG_BP_SEL_EVENT (n : Nat) : Fld := ⟨R.DBG_BP_SEL n, 11, 2⟩
def F.DBG_BP_SEL_SUPP (n : Nat) : Fld := ⟨R.DBG_BP_SEL n, 13, 1⟩
def F.DBG_BP_SEL_IDMASK (n : Nat) : Fld := ⟨R.DBG_BP_SEL n, 16, 9⟩
def R.DBG_BP_VALUE (n : Nat) : Nat := 0x60108 + 0x20 * n
def F.DBG_BP_VALUE_VALUE (n : Nat) : Fld := ⟨R.DBG_BP_VALUE n, 0, 32⟩
def R.DBG_BP_COUNT (n : Nat) : Nat := 0x6010C + 0x20 * n
def F.DBG_BP_COUNT_COUNT (n : Nat) : Fld := ⟨R.DBG_BP_COUNT n, 0, 32⟩
def R.PWR_MON_TEMP (i : Nat) : Nat := 0x10200 + 0x4 * i
def F.PWR_MON_TEMP_TEMP (i : Nat) : Fld := ⟨R.PWR_MON_TEMP i, 0, 16⟩
def R.PWR_MON_VOLT (v : Nat) : Nat := 0x10220 + 0x4 * v
def F.PWR_MON_VOLT_MV (v : Nat) : Fld := ⟨R.PWR_MON_VOLT v, 0, 16⟩
def R.PWR_MON_LIMIT : Nat := 0x10240
def F.PWR_MON_LIMIT_LIMIT : Fld := ⟨R.PWR_MON_LIMIT, 0, 16⟩
def F.PWR_MON_LIMIT_HYST : Fld := ⟨R.PWR_MON_LIMIT, 16, 9⟩
def R.PWR_MON_STATUS : Nat := 0x10244
def F.PWR_MON_STATUS_THERM : Fld := ⟨R.PWR_MON_STATUS, 0, 1⟩
def F.PWR_MON_STATUS_THERM_HIT : Fld := ⟨R.PWR_MON_STATUS, 1, 1⟩
def F.PWR_MON_STATUS_RAIL_OUT : Fld := ⟨R.PWR_MON_STATUS, 8, 7⟩

end Sys2Proof.Machine
end

