-- ==== Sys2Proof/Config.lean ====
section
/-!
DEFINITION. Config.lean: what one part and its configuration image fix, and the values the spec leaves open. Every free
value is an opaque constant without a body: nothing in Lean can evaluate it, so a statement about it holds whatever it is.
-/

namespace Sys2Proof.Machine

/-! ### The configuration image (R54-R67) -/

/-- What STRUCT and COEF give one channel (R57-R59). -/
structure ChanDef where
  stages : List Nat            -- its stages by their order number of R7, as STRUCT lists them
  alloc  : Nat                 -- ALLOC_c
  dec    : Nat                 -- D that STRUCT fixes
  nco    : Bool                -- NCO present
  width  : Nat                 -- requantiser width code: 4 x (code + 1) bits
  cfg    : Word                -- COEF: FIR_CFG
  shift  : Word                -- COEF: FIR_SHIFT
  fw     : Word                -- COEF: default NCO word
  off    : Nat                 -- COEF: default NCO phase
  coefs  : List Word           -- COEF: coefficients
deriving DecidableEq, Repr

/-- One stream definition (R278), in the coding of STR_DEF, STR_SIZE, STR_RATE and STR_SRC. -/
structure StreamDef where
  defn    : Word
  payload : Nat
  rate    : Nat
  src     : List Word
deriving DecidableEq, Repr

/-- A word queue as STRUCT fixes it (R229): depth, clock domains and blocks of its ends. -/
structure WqDef where
  depth  : Nat
  src    : Nat
  dst    : Nat
  srcBlk : Nat
  dstBlk : Nat
deriving DecidableEq, Repr

/-- One binding of MBXT (R357). -/
structure Binding where
  endA : Nat
  endB : Nat
deriving DecidableEq, Repr

/-- A configuration image after its container has been read: the eight sections of R55. The byte layouts inside STRUCT,
COEF, STREAM, NET, MBXT, SETSCHEMA and DEFAULTS are not in the spec; this record holds what the spec says they carry. -/
structure Image where
  version  : Nat               -- image version of the container header
  schema   : Nat               -- SETSCHEMA version
  secVers  : List Nat          -- VER of each section type
  present  : List Bool         -- section present, by TYPE
  otherBad : List Bool         -- a value of the section outside its limits that no other check names, by TYPE
  covers   : Bool              -- SETSCHEMA covers every settings field
  fmaxKhz  : Nat
  lowpwr   : Bool
  quads    : Nat               -- quadrants in use, bit q
  chans    : List ChanDef
  bmf      : Bool              -- the beam engine is present
  beams    : List (List Nat)   -- members of each beam, ascending channels
  parts    : List Nat          -- partition sizes in bytes, as IMG_PART orders them
  ringTap  : Nat
  ring8    : Bool
  rsh      : Nat
  latChain : Nat
  latBeam  : Nat
  classes  : List Nat          -- class queue sizes in bytes, index 4 p + k
  wqs      : List WqDef
  streams  : List StreamDef
  modes    : List Nat          -- port modes (R307)
  mbxt     : List Binding
  health   : List Byte         -- HEALTH section
  defaults : List (Nat × Word) -- DEFAULTS: values of "ret" and "img" fields by register offset
deriving DecidableEq, Repr

end Sys2Proof.Machine

namespace Sys2Proof

/-! ### eFuses and the part (fields with reset "Fused") -/

/-- GLB_STEPPING.STEP. -/
opaque Config.stepping : Nat
/-- GLB_PCI_ID.VID. -/
opaque Config.vendor : Nat
/-- GLB_SERIAL. -/
opaque Config.serial : Nat
/-- ARB_FUSE as manufactured (R386). -/
opaque Config.arbFuse : Nat
/-- PKH (R386); none where it is unprogrammed. -/
opaque Config.pkh : Option (List Byte)
/-- The debug key hash (R430). -/
opaque Config.dbgKeyHash : List Byte
/-- The DBG_LOCK eFuse is blown (R430). -/
opaque Config.dbgLock : Bool

/-! ### Values the spec leaves open -/

/-- The free values of the model, taken one after another with a counter of State. -/
opaque Config.freeValue : Nat → Nat

/-- The calibration correction of a converter code under an offset and a gain, in units of 2^-16 RAW LSB (R102, R129). -/
opaque Config.calCorrect : Int → Int → Int → Int

/-- What converter `k` converts in an S-cycle in which a CALRUN drives its selector to REF or ZERO, in units of 2^-16 code (R78, R105). -/
opaque Config.refLevel : Nat → Nat → Int

/-- Phase of the calibration tones outside a run, in 2^-20 cycle (R81: arbitrary). -/
opaque Config.tonePhase : Nat → Nat

/-- The bytes of the record that holds the "ret" fields under a SETSCHEMA version (R380, R381): the layout is the schema's. -/
opaque Config.setRecord : Nat → List (Nat × Word) → List Byte

/-- What the inflated sections of a container say, as (type, version, bytes) (R55): their byte layouts are not in the spec. -/
opaque Config.parseImage : List (Nat × Nat × List Byte) → Option Machine.Image

/-- What a sinter job writes into the word at an address of its context (R257): the job's number of the model, the address. -/
opaque Config.ctxWord : Nat → Nat → Nat

/-- Length of the boundary-scan chain (R423). -/
opaque Config.scanLength : Nat
/-- The output of the hub whose ball stands at a position of the chain, as the model numbers outputs. -/
opaque Config.scanBall : Nat → Nat

/-- The matches and literals that compression chooses for one block (R258, R259): settings, transformed input before the
block, block; a literal is (0, byte), a match (length, distance). -/
opaque Config.tokens : List Nat → List Byte → List Byte → List (Nat × Nat)

/-- The dynamic code that compression chooses for one block's tokens (R258): the bits of its tables, the literal and length
code of every symbol and the distance code of every symbol, in the order the bits are sent. -/
opaque Config.dynCode : List Nat → List (Nat × Nat) → List Bool × List (List Bool) × List (List Bool)

/-- With HUFF = 2, whether equal lengths take the dynamic code (R258 leaves it open). -/
opaque Config.dynTie : Bool

end Sys2Proof
end

