-- ==== Sys2Proof/Machine/State.lean ====
section
/-!
DEFINITION. Machine/State.lean: the state of the hub as plain data, its reset, and the two stop types. Registers live in
one sparse map keyed by BAR0 offset (`regs`); everything the spec gives the machine that no register shows stands beside it.
-/

namespace Sys2Proof.Machine

/-- Why a command stops with a fault. -/
inductive Fault where
  /-- Raised by an access whose BAR0 offset lies outside the 8 MiB that BAR0 maps (R335): no such address exists. Safe. -/
  | outsideBar0
  /-- Raised by an access whose BAR2 offset lies outside the 128 MiB that BAR2 maps (R335): no such address exists. Safe. -/
  | outsideBar2
deriving DecidableEq, Repr

/-- Why a command is refused by the model. -/
inductive Refusal where
  /-- Raised by an arm of exec whose command has no meaning yet. Safe. -/
  | notModelled (mnemonic : String)
deriving DecidableEq, Repr

/-- Pins of the hub whose level a command changes. -/
inductive Pin where
  | tpo (n : Nat) | trigout (n : Nat) | alertN | wakeN | thermN | scanChain
deriving DecidableEq, Repr

/-- One output of the hub: what a reader, a link partner, a host or a pin sees. The log is the model's own field. -/
inductive Obs where
  /-- a register read completed: identity, BAR0 offset, data -/
  | read (id off : Nat) (v : Word)
  /-- a request completed with Unsupported Request (R338) -/
  | unsupported (id off : Nat)
  /-- a sample-memory read completed: identity, BAR2 offset, bytes, poisoned -/
  | memRead (id off : Nat) (bytes : List Byte) (poisoned : Bool)
  /-- a frame began to leave a port: port, bytes from the destination MAC to the FCS -/
  | frame (port : Nat) (bytes : List Byte)
  /-- a DMA write to host memory: function, host address, bytes -/
  | hostWrite (fn addr : Nat) (bytes : List Byte)
  /-- an MSI-X message: function, vector -/
  | msix (fn vec : Nat)
  /-- a pin changed: the S-cycle or tick it did so at, vernier for a TPO -/
  | pin (p : Pin) (level : Bool) (at_ vernier : Nat)
  /-- bits shifted out of TDO -/
  | tdo (bits : List Bool)
  /-- a received frame was handed to the host ring: function, port, bytes -/
  | rx (fn port : Nat) (bytes : List Byte)
  /-- a hardware agent was signalled by a mailbox channel (R361): identity number, channel -/
  | signal (ident ch : Nat)
  /-- SYNCE_CLKOUT changed (R320): the port whose recovered clock it drives with FSEL, or none where it is held low -/
  | synceClk (src : Option (Nat × Nat))
deriving DecidableEq, Repr

/-! ### Time base (R32-R53) -/

/-- One target of a compare unit, as it was read when the unit was armed or loaded (R43). Times are in units of 2^-56 ns. -/
structure TcuArm where
  full     : Nat            -- full target or origin O
  short    : Nat            -- short target (R40), used when `qual` is false
  fine     : Nat            -- fine position of the short target
  qual     : Bool
  periodic : Bool
  period   : Nat
  width    : Nat
  src      : Nat            -- 0 corrected time, n + 1 TBn
  evrec    : Bool
  wake     : Bool
  tpoAtArm : List Nat       -- the outputs that selected the unit, enabled, at arming (R47)
deriving DecidableEq, Repr

/-- A firing that has been decided and whose leading edge is still to launch (R41, R42). -/
structure TcuFire where
  decision : Nat            -- decision tick
  launch   : Nat            -- launch tick
  vernier  : Nat
  width    : Nat
  tpos     : List Nat       -- outputs that follow this firing
  launched : Bool           -- its leading edge has launched
deriving DecidableEq, Repr

/-- A compare unit beside its registers. -/
structure Tcu where
  arm    : Option TcuArm    -- the parameters in force while QUALIFY or LOADED
  target : Nat              -- t of the LOADED unit, in units of 2^-56 ns
  high   : Nat              -- periodic: the first boundary that the train has neither emitted nor passed over (R48)
  fires  : List TcuFire
deriving DecidableEq, Repr

/-- The pin side of a pulse output (R46, R47). -/
structure Tpo where
  active     : Bool           -- the output drives its active level
  lastChange : Option Nat     -- tick of the last level change
  trail      : Option Nat     -- tick of the pending trailing edge
  vernier    : Nat
  unit       : Nat            -- unit whose pulse is in progress
deriving DecidableEq, Repr

/-- A legacy time base (R52). -/
structure LegacyTb where
  sec  : Nat
  ns   : Nat
  frac : Nat                  -- 24-bit internal fraction
  hold : Nat                  -- last value written to TIME_TB_SEC
  load : Option Nat           -- nanoseconds that the next tick loads with `hold`
deriving DecidableEq, Repr

/-- An anchor (R50) with the legacy time bases latched at its tick (R285). Times in units of 2^-56 ns. -/
structure Anchor where
  sn    : Nat
  t     : Nat
  epoch : Nat
  tb    : List (Nat × Nat × Nat) -- (seconds, nanoseconds, 24-bit fraction) of TB0-TB3
  res   : Int                  -- PHASE_RES
deriving DecidableEq, Repr

/-- The TIME block beside its registers. -/
structure TimeState where
  frc      : BitVec 64           -- the free-running counter (R32)
  frcBase  : BitVec 64           -- FRC_base (R34)
  tBase    : Nat                 -- T_base in units of 2^-56 ns (R34)
  incr     : Nat                 -- INCR in use, unsigned Q8.56 (R34)
  incrPend : Option (Nat × Nat)  -- committed INCR and its commit tick (R35)
  loUse    : Bool                -- TIME_INCR_LO reads the INCR in use since a refusal as busy (R35)
  hiUse    : Bool                -- TIME_INCR_HI reads it
  stepPend : Option (Int × Nat)  -- committed STEP in ns and its commit tick (R36)
  tcus     : List Tcu            -- TCU00-TCU15
  tpos     : List Tpo            -- TPO0-TPO7
  tciLast  : List (Option Nat)   -- tick index of the last stamped edge of each capture unit (R49)
  tbs      : List LegacyTb       -- TB0-TB3
  anchors  : List Anchor         -- those of the run, newest first (R292)
deriving DecidableEq, Repr

/-! ### Run state and SYNC_IN (R89-R101) -/

/-- A SYNC_IN pulse whose leading edge was seen (R99). -/
structure SyncPulse where
  kl       : Nat                 -- tick of the leading edge
  tl       : Nat                 -- leading-edge time, units of 2^-56 ns
  epoch    : Nat
  moved    : Int                 -- what steps have added to time since the leading edge (R192)
  measured : Bool                -- false: too close to the reference
  tooLong  : Bool
  kt       : Option Nat          -- tick of the trailing edge, once it came
deriving DecidableEq, Repr

/-- The run state machine beside its registers. -/
structure RunState where
  next     : Nat                 -- label the next sampling edge of the run gets
  scyc     : Nat                 -- sampling edges since cold reset, in or out of a run
  cyc0     : Nat                 -- scyc at the sampling edge of SN 0
  tStart   : Int                 -- t_s of R51, steps of the run added; units of 2^-56 ns
  kd       : Nat                 -- decision tick of the start
  stopAt   : Option Nat          -- S_stop, once fixed
  endSn    : Option Nat          -- last sample of the run that ended by a stop
  edgeSn   : Nat                 -- label of the last measured sampling edge
  edgeT    : Int                 -- its corrected time, units of 2^-56 ns, steps since added
  running  : Bool                -- RUN has been entered and sampling edges carry labels
  sync     : Option SyncPulse    -- pulse being measured or waiting to qualify
  syncRef  : Option Nat          -- tick of the reference trailing edge (R99)
  shared   : Bool                -- false after START_LATE or DELAY_SUBST (R93)
  since    : Nat                 -- tick at which the run entered RUN (R399)
  cfg      : Word                -- AFE_RUN_CFG as read at k_d (R94)
deriving DecidableEq, Repr

/-! ### Events (R239-R254) -/

/-- A record on its way to the sequencer (R240, R241). -/
structure RecIn where
  ident   : Nat
  typ     : Nat
  payload : List Word
  tick    : Nat                 -- tick of its issue, which stands for the F-cycle in which it reaches the sequencer (R241)
deriving DecidableEq, Repr

/-- An entry of a word or event queue (R229): 32 data bits and the two copies of END as written. Its 32 data and 7 check cells
hold the codeword of the data, but for those of `bad`; the spec names no code beside SEC-DED, so which cells differ says all. -/
structure QEntry where
  data : Word
  enda : Bool
  endb : Bool
  bad  : List Nat               -- cells that read wrong: 0-31 data, 32-38 check bits
  once : Bool                   -- the second read finds them right (R250)
deriving DecidableEq, Repr

/-- What its check bits say of an entry (R249, R250): 0 good, 1 single-bit error, 2 uncorrectable at the first read only, 3
uncorrectable. -/
def QEntry.err (e : QEntry) : Nat :=
  match e.bad.length with
  | 0 => 0
  | 1 => 1
  | _ => if e.once then 2 else 3

/-- One event queue beside its registers. -/
structure EvQueue where
  entries   : List QEntry
  head      : Nat               -- entry index of the oldest entry (R251)
  partRead  : Bool              -- a record is partly read through the port
  lost      : Bool              -- a record was not written since the last one (LOST_BEFORE)
deriving DecidableEq, Repr

/-- One word queue beside its registers; DISCARDING's account until the FLUSHED record (R248). -/
structure WordQueue where
  entries  : List QEntry
  head     : Nat               -- entry index of the oldest entry (R251)
  midItem  : Bool               -- the producer is inside an item
  flushes  : Nat
  words    : Nat
  items    : Nat
  cause    : Nat
deriving DecidableEq, Repr

/-! ### Streams (R278-R306) -/

/-- A run of consecutive instants of one source declared under one cause, not yet reported (R29, R288). -/
structure GapRun where
  src   : Nat
  cause : Nat
  cap   : Nat                   -- capture, for GEYSER streams
  first : Nat
  last  : Nat                   -- inclusive
deriving DecidableEq, Repr

/-- One source-sample of an instant: its components, or the cause it was declared under. -/
inductive SrcVal where
  | val (comps : List Int) (spare : Bool)
  | decl (cause : Nat) (spare : Bool)
deriving DecidableEq, Repr

/-- One output instant of a continuous stream, sources in ascending order. -/
structure Instant where
  sn   : Nat
  vals : List SrcVal
deriving DecidableEq, Repr

/-- A Stalux packet held in a frame queue (R234, R282). -/
structure Packet where
  stream  : Nat
  kind    : Nat                 -- 0 DATA, 1 GAP, 2 END, 3 MARK, 4 ANCHOR, 5 FUMAROLE
  ver     : Nat
  hubId   : Nat
  quality : Nat
  flags   : Nat
  epoch   : Nat
  count   : Nat
  firstSn : Nat
  tail    : List Byte
  payload : List Byte
  tbSel   : Nat                 -- v1: legacy time base, its seconds and nanoseconds
  tbSec   : Nat
  tbNs    : Nat
  ipv6    : Bool
  dstUdp  : Nat
  srcUdp  : Nat
  dstIp   : List Word
  posEnd  : Nat                 -- source-samples produced up to the end of the content
  declIn  : Nat                 -- of those, declared since the previous packet's content
  okIn    : Nat                 -- source-samples delivered with this packet
  content : List (Nat × List Nat)   -- for each instant, the sources it carries (not declared)
  held    : List GapRun         -- the declared source-samples that it holds placeholders for (R281)
  cap     : Nat
  runs    : List GapRun         -- GAP: the runs it reports
  anchor  : Option (Nat × Nat)  -- anchor it carries: SN, epoch
  reason  : Nat                 -- END: REASON
  frozen  : Option (Nat × Nat × Nat × Nat)  -- sequence number and counters settled at the commit (R304)
  stored  : Bool                -- it occupies lines of its frame queue (R234)
  dead    : Bool                -- discarded while a frame ahead of it is unread: RD has still to pass its lines (R233, R238)
  late    : Bool                -- its anchor was written after its commit, because the frame before it was lost (R292)
deriving DecidableEq, Repr

/-- A time mark waiting for its packet (R291). Times in units of 2^-56 ns. -/
structure Mark where
  sn    : Nat
  t     : Nat
  epoch : Nat
  cls   : Nat
  rel   : Option Int           -- placed in DELAY: its time after the start instant, until SN 0 is taken (R100)
deriving DecidableEq, Repr

/-- One channel of a capture as its hub job hands it to the packetiser (R265): its bytes or its DEFLATE stream. -/
structure CapChan where
  ch    : Nat
  n     : Nat                   -- samples the job read
  bytes : List Byte
  off   : Nat                   -- bytes already in packets
  lost  : List GapRun           -- declared samples of the channel
  raw   : List (Nat × Nat)      -- byte spans [a, z) that hold bytes of stored blocks (R261)
deriving DecidableEq, Repr

/-- The output of a hub job, waiting for its packets (R295-R298). -/
structure CapOut where
  cap      : Nat
  first    : Nat                -- n - P
  p        : Nat
  q        : Nat
  b        : Nat
  comp     : Bool
  zlib     : Bool
  xform    : Nat
  chans    : List CapChan       -- channels not yet sent in full
  anchor   : Option Anchor      -- the anchor of its ANCHOR packet (R295)
  anchored : Bool               -- its ANCHOR packet has been sent
  spare    : List Nat           -- channels with captured samples from the spare (R123)
deriving DecidableEq, Repr

/-- One stream beside its registers. -/
structure StreamState where
  active     : Bool             -- EN was 1 when the run entered DELAY (R278)
  ver        : Nat              -- version of the run (R301)
  produced   : Nat
  delivered  : Nat
  declared   : Nat
  insts      : List Instant     -- instants produced and not yet in a frame, oldest first
  runs       : List GapRun      -- declared runs not yet reported
  pendDecl   : Nat              -- declared in content that no packet covers yet
  settled    : Nat              -- declared in content that has left the queue
  declPos    : Nat              -- declared in content that packets cover or have covered
  hubId      : Nat              -- STR_HUB_ID at the run start (R282)
  gapDecl    : Nat              -- sum of DECL over the GAP packets sent
  pos        : Nat              -- source-samples up to the end of the packets built
  marks      : List Mark
  lastAnchor : Option (Nat × Nat)
  fresh      : Bool             -- the next DATA packet carries an anchor (first, or frame before it not delivered)
  ending     : Option Nat       -- production has ended; REASON of the END packet
  endQueued  : Bool
  frames     : Nat              -- DATA or FUMAROLE packets delivered
  lastSn     : Option Nat       -- last instant, sample or ordinal produced
  recs       : List (List Word) -- FUMAROLE: records waiting, oldest first
  recTicks   : List Nat         -- the tick at which each of them was produced (R300)
  ordinal    : Nat              -- FUMAROLE: next record ordinal to be packed
  drainFrom  : Option Nat       -- tick at which the drain wait began (R304)
  gey        : List CapOut      -- GEYSER: hub-job outputs not yet in packets, oldest first
  lastData   : Option Nat       -- tick of the last DATA packet delivered in the run (R399)
  lossy      : Bool             -- a LINK or MEM gap has been declared since the health window began (R399)
  paceAt     : Nat              -- GEYSER, FUMAROLE: tick from which the reserved rate allows the next packet (R60)
deriving DecidableEq, Repr

/-! ### Ports (R307-R333) -/

/-- A host frame taken from a TX ring (R315, R351). -/
structure HostFrame where
  fn    : Nat
  idx   : Nat                   -- index of its entry
  bytes : List Byte
  len   : Nat
  tsReq : Bool
  oneStep : Bool
  prio  : Bool
  bad   : Bool                  -- a PCIe error met its descriptor or buffer (R350)
  hdr   : Nat
  tag   : Word
  since : Nat                   -- tick at which it began to wait
  promoted : Bool
deriving DecidableEq, Repr

/-- What a port's transmitter is sending. -/
inductive TxNow where
  | packet (k : Nat) (pk : Packet) (seq : Nat) (held : Bool)   -- held: its lines still lie in queue k (R238)
  | reply (bytes : List Byte)
deriving DecidableEq, Repr

/-- A Delay_Req or Pdelay_Req that a port has sent (R322). Stamps in units of 2^-16 ns. -/
structure PtpReq where
  peer    : Bool                          -- a Pdelay_Req
  seq     : Nat                           -- sequenceId
  t3      : Int                           -- its transmit stamp
  epoch   : Nat                           -- epoch of that stamp
  t1      : Option Int                    -- of the latest Sync that was complete before it was sent
  t2      : Int
  epoch12 : Nat
  resp    : Option (Int × Nat × Int × Int)    -- two-step Pdelay_Resp: t4, its epoch, t2 and the correction
deriving DecidableEq, Repr

/-- The path-delay detector of a port (R322). Stamps in units of 2^-16 ns. -/
structure PtpState where
  syncSeq  : Option (Nat × Int × Nat)     -- two-step Sync waiting for Follow_Up: sequenceId, correction, and epoch of t2
  syncT2   : Int
  t1       : Option Int
  t2       : Int
  t12Epoch : Nat
  reqs     : List PtpReq                  -- requests sent, newest first, one for a kind and sequenceId
  meas     : List Int                     -- completed measurements, waiting for PD_MEASUREMENT, oldest first
  run      : Option Int                   -- R
  outliers : Nat
deriving DecidableEq, Repr

/-- One Ethernet port beside its registers. -/
structure NetPort where
  sending   : Option TxNow
  replies   : List (List Byte)            -- Damuf replies waiting
  hostQ     : List HostFrame
  allowance : Int                         -- tokens in units of 1/8 byte (R314)
  allowTick : Nat                         -- tick of the last refill
  trainFail : Bool                        -- the first attempt of a training failed
  wasUp     : Bool
  failed    : Bool                        -- training has failed twice: down until RESTART (R309)
  ptp       : PtpState
deriving DecidableEq, Repr

/-! ### Sample memory (R209-R228) -/

/-- A stored word whose cells do not hold what was written: one or two flipped bits (numbered as in R14), and whether the
disturbance is gone at the second read (a transient error, R213), which may still meet one of the bits. -/
structure MemFault where
  word : Nat                  -- BAR2 offset of the word
  bitA : Nat
  bitB : Option Nat
  once : Bool
  left : Option Nat           -- once: the bit that the second read still finds wrong and corrects
deriving DecidableEq, Repr

/-- Sample memory beside its registers. -/
structure MemState where
  cells     : List Host.Cell  -- canonical form; an unlisted byte reads 0 (zero-fill of R228)
  faults    : List MemFault
  scrubFrom : Nat             -- tick at which the current pass period began (R222)
  scrubOn   : Bool            -- a first pass has been started since scrubbing was enabled
  line      : Nat             -- lines read in the current pass
deriving DecidableEq, Repr

/-! ### Trigger engine (R187-R208) -/

/-- One edge detector: its two armed flags (R188) and the labels of its recent events, newest first. -/
structure Detector where
  rise   : Bool
  fall   : Bool
  events : List Nat
deriving DecidableEq, Repr

/-- A trigger met and not yet decided (R193). -/
structure TrigMet where
  src   : Nat                 -- source as SRC codes it (R190)
  sel   : Nat                 -- input, class, unit, or for HOST the condition
  sn    : Nat
  j     : Nat
  clamp : Bool
deriving DecidableEq, Repr

/-- A condition beside its registers. -/
structure TrigCond where
  floor : Int                 -- trigger SN of the last met trigger (R191)
  hold  : List (Nat × Nat)    -- hold-offs by time: first and last suppressed SN of each
  skip  : Nat                 -- hold-off by events: triggers still to skip
  skipOf : Nat                -- trigger SN of the firing that started it
deriving DecidableEq, Repr

/-- An admitted capture (R197-R201). -/
structure Capture where
  id      : Nat
  sn      : Nat               -- trigger SN n
  p       : Nat
  q       : Nat
  chans   : List Nat          -- channels of the mask, ascending
  b       : Nat               -- bytes per stored word
  b8conv  : Bool              -- 16-bit ring words converted to 8 bits at the copy (R197)
  csh     : Nat
  stream  : Nat
  size    : Nat               -- bytes
  off     : Nat               -- pool offset, in units of 64 bytes
  written : Nat               -- labels of the window in the pool or declared so far
  lost    : List GapRun       -- declared samples of the window: src is the channel, first and last are labels
  state   : Nat               -- 0 filling, 1 waiting for its job, 2 in a hub job, 3 sent
  reform  : Bool              -- decided at or after SN_r: copies nothing
  copyEnd : Nat               -- tick at which its pre-trigger copy has finished (R221)
  anchor  : Option Anchor     -- the newest of the last four anchors at or before n - P as it was admitted (R295)
deriving DecidableEq, Repr

/-- A trigger output beside its registers (R203). -/
structure TrigOut where
  leads  : List (Nat × Nat)   -- pending leading edges: sampling edge, counted from cold reset, and WIDTH
  endAt  : Option Nat         -- sampling edge at which the active pulse ends
deriving DecidableEq, Repr

structure TrigState where
  dets    : List Detector     -- index 2 c + e
  conds   : List TrigCond
  met     : List TrigMet
  caps    : List Capture      -- in flight, admission order
  outs    : List TrigOut
  tiLast  : List (Option Nat) -- tick index of the last stamped edge of TRIGINn
  r0      : Option Nat        -- ring start
  starts  : List (Nat × Nat)  -- ring starts of the run, newest first: the first label that the ring lacks before one, and r0
  nextN   : Nat               -- next label at which COINC is evaluated
deriving DecidableEq, Repr

/-! ### Re-form and debug (R72-R77, R422-R432) -/

/-- A re-form that was submitted (R72, R398, R405). -/
structure ReformReq where
  slot  : Nat                 -- 1 A, 2 B, 3 host buffer
  atSn  : Bool
  sn    : Nat
  cause : Nat                 -- 0 software, 1 activation, 2 fallback
deriving DecidableEq, Repr

structure ReformState where
  reqs  : List ReformReq      -- oldest first: the running one or the next, then the waiting one
  phase : Nat                 -- 0 none, 1 check pass, 2 SN_r is fixed, 3 load pass
  snr   : Option Nat          -- SN_r of a load pass in RUN
  target : Option Image       -- the image that passed the check, to be loaded
deriving DecidableEq, Repr

/-- A match of a breakpoint that BREAKPOINT_MATCH has not taken yet (R429). -/
structure BpHit where
  bp  : Nat
  val : Nat                   -- SN of the word or the decision label, or FRC at the match
  at_ : Option Nat            -- the S-cycle e that the match gives; none: the first one after it reaches the SCLK domain
deriving DecidableEq, Repr

/-- The debug port and the debug access unit (R422-R432). -/
structure DbgState where
  reqs   : Nat                -- breakpoints that requested the pending halt, bit n; 0 for a command
  ready  : Bool               -- DBGHALT has been admitted: the freeze follows
  at_    : Option Nat         -- label of the S-cycle e that a breakpoint gives (R429)
  spans  : List (Nat × Option Nat)  -- halt spans of the run, newest first: h, r
  inRun  : Bool               -- the halt in progress began in RUN
  steps  : Nat                -- units of a step still to elapse
  ir     : Nat                -- instruction register of the TAP
  tlr    : Bool               -- TRST_N has fallen and the TAP has not been seen to leave Test-Logic-Reset (R368)
  chain  : List Bool          -- boundary-scan chain
  dr     : Nat                -- DAU_ACCESS register as the next capture finds it
  busy   : Bool               -- the access has not finished
  chal   : Option Nat         -- challenge of UNLOCK_CHAL (R430)
  hits   : List BpHit         -- matches waiting to be taken, oldest first
  verify : List Bool          -- running verifications, oldest first: does the response pass?
deriving DecidableEq, Repr

/-! ### Calibration (R102-R126) -/

/-- Correction factors of one converter in one mode (R102). What they do to a code is opaque to every identity; the two
values are free values, but for the neutral pair (0, 65,536) of R109. -/
structure CalFactor where
  off    : Int
  gain   : Int
  tag    : Int                 -- TEMP_TAG, signed, 1/16 degree
  result : Nat                 -- bits 15:0 of CAL_RESULT when they were learned
  src    : Nat                 -- 0 none, 1 CALRUN, 2 background, 3 store
deriving DecidableEq, Repr

/-- One calibration group beside its registers. Times are S-cycle counts. -/
structure CalGroup where
  from0   : Nat                -- S-cycle count at which the phase in progress began
  len     : Nat                -- its length
  second  : Bool               -- its second attempt runs
  first   : Nat                -- CALIBRATE: tests that failed at the first attempt, bit per test
  notB4   : Nat                -- S-cycle count before which no handover or handback falls (R124)
  matching : Option (Int × Int) -- matching correction of the spare for the channel it serves
  ret     : Int × Int          -- matching values learned in RETURN (R121)
  served  : Bool               -- the spare feeds the channel of the cycle (handover to handback)
  gliding : Option Nat         -- position whose factors glide since `from0`
  sweepAt : Nat                -- tick at which the next sweep is due
  pausing : Bool               -- a pause was asked for in CALIBRATE or SPARECAL, which complete (R125)
  same    : Bool               -- PAUSED: the same channel follows
  log     : List (Nat × Nat × Option Nat)  -- spans of labels in which the spare served a position, newest first (R123)
deriving DecidableEq, Repr

/-- A calibration half of the store (R112, R113), as the reads of it find it. -/
structure CalHalf where
  hdr  : List Byte             -- its 64-byte header; shorter where it is erased
  recs : List (Nat × List Byte)    -- the 256-byte records that are written, by slot
deriving DecidableEq, Repr

/-- The SCLK PLL beside its registers: the setting in use (R84, R463). -/
structure ConvState where
  cfg    : Word
  fb     : Word
  fbint  : Word
  commit : Bool                    -- LOCKED fell by a commit: TIME_SPERIOD follows at the lock
  stuck  : Bool                    -- a refused commit at a re-form left the PLL stopped (R463)
deriving DecidableEq, Repr

structure CalState where
  facs   : List (Option CalFactor) -- slot mode x 272 + k: factors in use and in the retention copy (R103, R116)
  groups : List CalGroup
  fg     : Nat                     -- 0 no CALRUN, 1 accepted, 2 committed, 3 aborted: CAL_DONE due
  done   : List Word               -- payload of the CAL_DONE record that is due
  snap   : Option CalHalf          -- snapshot of an admitted CALSAVE (R114)
  seen   : Nat                     -- quadrants powered since cold reset, bit q
deriving DecidableEq, Repr

/-! ### Flash: settings halves, slots and the journal (R379-R389) -/

/-- A settings half (R380). -/
structure SetHalf where
  hdr  : List Byte              -- header, 64 bytes; [] where erased
  recd : List Byte              -- record
  body : List (Nat × Word)      -- what the record says: "ret" fields by register offset, masked
deriving DecidableEq, Repr

/-- A section with its table entry (R385). -/
structure SlotSec where
  typ      : Nat
  flags    : Nat
  ver      : Nat
  len      : Nat
  infLen   : Nat
  requires : List (Nat × Nat × Nat)
  hash     : List Byte
  bytes    : List Byte
deriving DecidableEq, Repr

/-- A flash slot (R387). -/
structure Slot where
  map     : List Byte               -- the first 64 bytes of the slot map
  headers : List (Nat × List Byte)  -- header position, container header
  secs    : List (Nat × List Byte)  -- TYPE and bytes of the sections, in the order they lie
deriving DecidableEq, Repr

/-- The xSPI flash beside the eFuses, as the hub reads it (R379). -/
structure Flash where
  slots   : List Slot           -- A, B
  sets    : List SetHalf        -- settings halves 0, 1
  cals    : List CalHalf        -- calibration halves 0, 1
  journA  : List (List Byte)    -- entries in the first area of the journal, oldest first
  journB  : List (List Byte)    -- entries in its second area
  arbProg : Nat                 -- ARB_FUSE as programmed since manufacture (R386, R401)
  plan    : List Nat            -- attempts, 0 to 2, that fail in each of the coming writes of journal, map and header and copies (R416), as a load said
deriving DecidableEq, Repr


/-! ### Signal path (R127-R186) -/

/-- The delay of a channel from a landing on (R135): τ_user at the landing in units of 2^-48 sample, and its rate. -/
structure DelaySeg where
  at_  : Nat                  -- landing label
  tau  : Int
  rate : Int
deriving DecidableEq, Repr

/-- The conditioning pipeline and chain of one channel. Lists hold words newest first, one per S-cycle. -/
structure ChanPath where
  raw     : List Int          -- RAW words, from the newest sampling edge back
  clean   : List Int          -- CLEAN words, from 35 S-cycles back
  aligned : List Int          -- ALIGNED words, from 51 S-cycles back
  past    : Nat               -- words taken since LOCKED or ON last rose; older ones read as 0 (R128)
  delay   : List DelaySeg     -- delay landings of the run, newest first
  limited : Bool              -- the last ALIGNED word was limited (R138)
  clears  : List Nat          -- clear points of the chain (R153), newest first
  settles : List (Nat × Nat)  -- settling spans [a, end), newest first
  halts   : List (Nat × Nat)  -- HALT spans [h, v + S) at the chain output, newest first (R174)
deriving DecidableEq, Repr

structure PathState where
  chans    : List ChanPath
  phases   : List Int          -- PHASE_RES of the run's anchors, newest first
  align    : List (Nat × Int)  -- ALIGN terms of the run with the label they apply from, newest first
  ringNext : Nat               -- label up to which the ring writer has written
deriving DecidableEq, Repr

/-! ### Sinter engine (R255-R277) -/

/-- A host job in a numbered context (R268): what its first descriptor fixed, the output space of the current step, and how
far it has come. -/
structure SntJob where
  fn      : Nat
  idx     : Nat                 -- entry of the current or last step in ring 8
  tag     : Word
  infl    : Bool                -- an INFLATE job
  w0      : Word                -- word 0 of the first descriptor
  src     : Nat                 -- SRC with SPACE in bit 63
  seg     : Nat
  blk     : Nat                 -- BLK with SPACE in bit 63
  blkMax  : Nat
  dst     : Nat                 -- DST with SPACE in bit 63
  dstLen  : Nat
  input   : List Byte           -- the input bytes
  fail    : Option (Nat × Nat)  -- STATUS and ERR_LOC that its accesses have met
  words   : Nat                 -- code words emitted
  out     : Nat                 -- whole output bytes written
deriving DecidableEq, Repr

/-- A numbered context beside SNT_CTX_STATE (R257). -/
structure SntCtx where
  job  : Option SntJob
  used : Bool                   -- a job has written its bytes of the sinter partition
  fill : Nat                    -- names what it wrote there (R257: the layout is internal)
  poked : List Nat              -- words of it that were written from outside since (R224)
  doneAt : Option Nat           -- tick of the commit that freed the context last (R273)
deriving DecidableEq, Repr

structure SntState where
  ctxs : List SntCtx
  caps : List (Option Nat)      -- capture of the hub job on each lane
deriving DecidableEq, Repr

/-! ### Host interface (R334-R355) -/

/-- One entry of the MSI-X table with its pending bit (R355). -/
structure MsixVec where
  addrLo : Word
  addrHi : Word
  data   : Word
  ctrl   : Word               -- bit 0: masked
  pend   : Bool
deriving DecidableEq, Repr

/-- A descriptor that the hub has read from a host-filled ring, with what its DMA reads returned. -/
structure RingEntry where
  idx  : Nat
  desc : List Byte
  data : List Byte            -- the buffer the descriptor names, for TX entries
  bad  : Bool                 -- a completion error or poisoned data met the read (R350)
deriving DecidableEq, Repr

/-- One DMA ring beside its registers. -/
structure Ring where
  posted  : List RingEntry    -- descriptors handed over and not yet completed
  done    : List Nat          -- ring 8: indices completed ahead of CI (R350)
  lastSig : Option Nat        -- tick of the previous signal (R355)
  sigDue  : Bool              -- a write-back waits for its moderated signal
deriving DecidableEq, Repr

/-- One PCIe function beside its registers. -/
structure PciFn where
  rings : List Ring
  msix  : List MsixVec
deriving DecidableEq, Repr

structure HostState where
  fns       : List PciFn
  fencePend : List (Option Nat)   -- by identity number: token of the newest fence still waiting (R343)
  fenceDone : List Nat            -- by identity number: token of the newest completed fence (R343)
  linkUp    : Bool                -- the PCIe link
  checkFrom : Nat                 -- tick at which the apply's check began (R345)
  landAt    : Option Nat          -- landing SN of an ARMED apply (R346)
  landLate  : Bool
  applySn   : Nat                 -- HIF_TIMED_APPLY as the accepted ARM found it (R345)
  nowPend   : List Nat            -- immediate landings held by a debug halt: channel c, or 256 for TRG (R145, R409)
  ended     : Option Nat          -- S_stop of the run that ended while the apply was CHECKING (R347)
deriving DecidableEq, Repr

/-! ### Mailboxes (R356-R371) -/

structure MbxState where
  inReset : List Bool           -- by identity number: the identity has been reset and has not left reset (R368)
  left    : List (Nat × Nat)    -- messages POSTED to an identity as it was reset: identity, channel (R369)
  sigs    : List (Nat × Nat)    -- agents still to be signalled, once their domain is ON: identity, channel (R361)
  wakes   : List (Nat × Nat)    -- acknowledgements notified to a host end while the PCIe link was down: channel, identity (R363)
  acks    : List (Nat × Nat × Nat)  -- acknowledgements whose sender is in reset: channel, sender, who gave them (R369)
deriving DecidableEq, Repr

/-! ### Maintenance coordinator (R408-R421) -/

/-- An activity of the coordinator: number a, unit, what its source attached to it, and whether it waited. -/
structure Activity where
  a      : Nat
  unit   : Nat
  tag    : Nat
  waited : Bool
  paused : Bool
deriving DecidableEq, Repr

structure MaintState where
  running : List Activity
  waiting : List Activity
deriving DecidableEq, Repr

/-! ### Power controller (R372-R383) -/

/-- What a held access is: a write, a key word written in a request under the other slot (R329), a read, or a read of the debug
access unit. -/
inductive HeldKind where
  | write | key | read | dau
deriving DecidableEq, Repr

/-- A register access that waits: a write for its domain to be ON (R340) or for earlier ones (R342, R343, R345), a read for earlier
writes to its block (R342). -/
structure HeldWrite where
  ident : Ident
  off   : Nat
  v     : Word
  kind  : HeldKind
  late  : Bool                    -- it came behind the fence of its identity that is waiting (R343)
deriving DecidableEq, Repr

structure PowerState where
  snap     : Option SetHalf       -- snapshot of an admitted SETSAVE, as it will be written (R381)
  snapTo   : Nat                  -- the half it is written to
  held     : List HeldWrite       -- accesses that wait for their domain to be ON, in their order
  behind   : List HeldWrite       -- accesses that wait behind a fence or an earlier access (R342, R343)
  waking   : List Nat             -- domains on their way to ON, with where they came from in `wakeOff`
  wakeOff  : List Nat             -- those of them that come from OFF
  lastWork : List Nat             -- tick of the last wake or work, by domain
  fellAt   : List (Option Nat)    -- tick at which a domain last took its idle state (R383)
  saveFrom : Nat                  -- tick at which the save interval began
  inReset  : Bool                 -- a warm reset is in progress
  reset0   : Nat                  -- its cause
  por      : Bool                 -- POR_N or the supply detector holds the hub in cold reset (R440)
  pgood    : Bool                 -- the image and settings of this power-up are still to be loaded
  asCommitted : Option Nat        -- a provisional settings half that counts as committed since a cold start took it (R404)
deriving DecidableEq, Repr

/-! ### Update agent (R384-R407) -/

/-- The update agent beside its registers. -/
structure UpdState where
  owner   : Nat                 -- owner of the session while UPD holds the lock for an activation
  hdr     : List Byte           -- header of the container in progress; [] before it is accepted
  buf     : List Byte           -- bytes received of the header, or of the section in progress
  dma     : Bool                -- the container is delivered by DMA
  idx     : Nat                 -- section entry in progress
  resent  : Bool                -- its bytes are a resend
  writes  : List SlotSec        -- sections accepted and not yet written to the slot, oldest first
  secs    : List SlotSec        -- carried sections written to the slot
  last    : Nat                 -- tick of the last data or command
  from0   : Nat                 -- tick at which the health window began
  evals   : Nat                 -- evaluations made in it
  confirm : Bool                -- HOST_CONFIRM has been received in it
  decided : Bool                -- confirmation is decided and not yet committed
  degr    : Bool                -- a CAL_DEGRADED record has been written in it
  lasting : Bool                -- a lasting count has risen in it
  reject  : Bool                -- REJECT was written while the trial's re-form ran
  cause   : Nat                 -- cause of the fallback in progress
  failed  : Bool                -- the old slot was refused at the fallback (R406)
  coefs   : List (Nat × ChanDef) -- channels whose new sets wait for the lock of their bank (R396)
  carried : List Nat            -- section types that the package of the staged slot carried (R396)
deriving DecidableEq, Repr


/-! ### The whole hub -/

structure State where
  regs     : List (Nat × Word)          -- BAR0 registers by offset; canonical form, an unlisted register reads 0
  shadows  : List (Nat × Word)          -- shadows of the registers with a flagged ST field (R344), by rising offset
  latches  : List (Nat × Word)          -- snapshot latches (R38, R340): key 2^24 * identity + offset
  setLog   : List (Nat × Nat × Word)    -- landings of the run, newest first: label, offset, value before
  recq     : List RecIn                 -- records on their way to the sequencer (R241)
  eqs      : List EvQueue               -- EQ0-EQ2
  wqs      : List WordQueue             -- WQ000-WQ511
  fqs      : List (List Packet)         -- committed frames of FQ(p, k), n = 4 p + k, oldest first
  fqHeld   : List (Option Nat)          -- usable lines still in force in a queue whose FLW_FQ_LIMIT was written over unread frames (R233)
  image    : Option Image               -- the active image; none in the bare state
  time     : TimeState
  run      : RunState
  mem      : MemState
  trg      : TrigState
  path     : PathState
  strs     : List StreamState
  snt      : SntState
  ports    : List NetPort
  dmfQ     : List (Nat × List Byte)     -- Damuf frames waiting for the agent: port, frame (R330)
  host     : HostState
  mbx      : MbxState
  mnt      : MaintState
  pwr      : PowerState
  conv     : ConvState
  reform   : ReformState
  dbg      : DbgState
  cal      : CalState
  flash    : Flash
  upd      : UpdState
  firsts   : List Nat                   -- counters whose first event since their last read has had its record (R225, R326)
  obs      : List Obs                   -- outputs, newest first (the model's own field)
  freeCtr  : Nat                        -- free values taken so far (the model's own field)
  pending  : List Instr                 -- commands waiting, first in first out
deriving DecidableEq, Repr


/-! ### Reset -/

def Tcu.reset : Tcu := { arm := none, target := 0, high := 0, fires := [] }
def Tpo.reset : Tpo := { active := false, lastChange := none, trail := none, vernier := 0, unit := 0 }
def LegacyTb.reset : LegacyTb := { sec := 0, ns := 0, frac := 0, hold := 0, load := none }

/-- The time base at cold reset: FRC 0, T_base 0 s, FRC_base 0, INCR 2.0 (R32, R34). -/
def TimeState.reset : TimeState :=
  { frc := 0#64, frcBase := 0#64, tBase := 0, incr := 2 ^ 57, incrPend := none, loUse := false, hiUse := false, stepPend := none,
    tcus := List.replicate 16 Tcu.reset, tpos := List.replicate 8 Tpo.reset, tciLast := List.replicate 5 none,
    tbs := List.replicate 4 LegacyTb.reset, anchors := [] }

def RunState.reset : RunState :=
  { next := 0, scyc := 0, cyc0 := 0, tStart := 0, kd := 0, stopAt := none, endSn := none, edgeSn := 0, edgeT := 0, running := false,
    sync := none, syncRef := none, shared := true, since := 0, cfg := 0#32 }

def EvQueue.reset : EvQueue := { entries := [], head := 0, partRead := false, lost := false }
def WordQueue.reset : WordQueue := { entries := [], head := 0, midItem := false, flushes := 0, words := 0, items := 0, cause := 0 }
def MemState.reset : MemState := { cells := [], faults := [], scrubFrom := 0, scrubOn := false, line := 0 }
def Detector.reset : Detector := { rise := false, fall := false, events := [] }
def TrigCond.reset : TrigCond := { floor := -1, hold := [], skip := 0, skipOf := 0 }
def TrigOut.reset : TrigOut := { leads := [], endAt := none }

def TrigState.reset : TrigState :=
  { dets := List.replicate 512 Detector.reset, conds := List.replicate 8 TrigCond.reset, met := [], caps := [],
    outs := List.replicate 4 TrigOut.reset, tiLast := List.replicate 4 none, r0 := none, starts := [], nextN := 0 }

def ChanPath.reset : ChanPath :=
  { raw := [], clean := [], aligned := [], past := 0, delay := [], limited := false, clears := [], settles := [], halts := [] }
def PathState.reset : PathState := { chans := List.replicate 256 ChanPath.reset, phases := [], align := [], ringNext := 0 }

def StreamState.reset : StreamState :=
  { active := false, ver := 0, produced := 0, delivered := 0, declared := 0, insts := [], runs := [], pendDecl := 0,
    settled := 0, declPos := 0, hubId := 0, gapDecl := 0, pos := 0, marks := [], lastAnchor := none, fresh := true, ending := none,
    endQueued := false, frames := 0, lastSn := none, recs := [], recTicks := [], ordinal := 0, drainFrom := none,
    gey := [], lastData := none, lossy := false, paceAt := 0 }

def SntCtx.reset : SntCtx := { job := none, used := false, fill := 0, poked := [], doneAt := none }
def SntState.reset : SntState := { ctxs := List.replicate 64 SntCtx.reset, caps := List.replicate 5 none }

def PtpState.reset : PtpState :=
  { syncSeq := none, syncT2 := 0, t1 := none, t2 := 0, t12Epoch := 0, reqs := [], meas := [], run := none, outliers := 0 }

def NetPort.reset : NetPort :=
  { sending := none, replies := [], hostQ := [], allowance := 0, allowTick := 0, trainFail := false, wasUp := false,
    failed := false, ptp := PtpState.reset }

def MsixVec.reset : MsixVec := { addrLo := 0#32, addrHi := 0#32, data := 0#32, ctrl := 1#32, pend := false }
def Ring.reset : Ring := { posted := [], done := [], lastSig := none, sigDue := false }
def PciFn.reset : PciFn := { rings := List.replicate 10 Ring.reset, msix := List.replicate 64 MsixVec.reset }
def HostState.reset : HostState :=
  { fns := List.replicate 2 PciFn.reset, fencePend := List.replicate 9 none, fenceDone := List.replicate 9 0, linkUp := false, checkFrom := 0,
    landAt := none, landLate := false, applySn := 0, nowPend := [], ended := none }
def MbxState.reset : MbxState := { inReset := List.replicate 9 false, left := [], sigs := [], wakes := [], acks := [] }
def MaintState.reset : MaintState := { running := [], waiting := [] }
def PowerState.reset : PowerState :=
  { snap := none, snapTo := 0, held := [], behind := [], waking := [], wakeOff := [], lastWork := List.replicate 14 0,
    fellAt := List.replicate 14 none, saveFrom := 0, inReset := false, reset0 := 0, por := false, pgood := true, asCommitted := none }

def CalGroup.reset : CalGroup :=
  { from0 := 0, len := 0, second := false, first := 0, notB4 := 0, matching := none, ret := (0, 0), served := false,
    gliding := none, sweepAt := 0, pausing := false, same := false, log := [] }
def ReformState.reset : ReformState := { reqs := [], phase := 0, snr := none, target := none }
def DbgState.reset : DbgState :=
  { reqs := 0, ready := false, at_ := none, spans := [], inRun := false, steps := 0, ir := 1, tlr := false, chain := [], dr := 0,
    busy := false, chal := none, hits := [], verify := [] }
def ConvState.reset : ConvState := { cfg := 0#32, fb := 0#32, fbint := 0#32, commit := false, stuck := false }
def CalState.reset : CalState :=
  { facs := List.replicate 544 none, groups := List.replicate 16 CalGroup.reset, fg := 0, done := [], snap := none, seen := 0 }
def SetHalf.reset : SetHalf :=
  { hdr := [], recd := [], body := [] }
def CalHalf.reset : CalHalf := { hdr := [], recs := [] }
def Slot.reset : Slot := { map := [], headers := [], secs := [] }
/-- An erased flash device (DESIGN CHOICE: the spec gives no factory contents). -/
def Flash.reset : Flash :=
  { slots := [Slot.reset, Slot.reset], sets := [SetHalf.reset, SetHalf.reset], cals := [CalHalf.reset, CalHalf.reset],
    journA := [], journB := [], arbProg := 0, plan := [] }

def UpdState.reset : UpdState :=
  { owner := 0, hdr := [], buf := [], dma := false, idx := 0, resent := false, writes := [], secs := [], last := 0, from0 := 0,
    evals := 0, confirm := false, decided := false, degr := false, lasting := false, reject := false, cause := 0,
    failed := false, coefs := [], carried := [] }

/-- The registers that do not reset to zero: the GLB identification, INCR and TB_INCR (2.0), STEP_COUNT, and GLIDE, whose default is
20 (R121). -/
def resetRegs : List (Nat × Word) :=
  [(0x00000, 0x001D3256#32), (0x00008, 0x32560000#32), (0x00014, 0x0100#32), (0x00018, 0x0103#32), (0x0001C, 1#32),
   (0x00020, 1#32), (0x2000C, 0x02000000#32), (0x20808, 0x02000000#32), (0x20828, 0x02000000#32),
   (0x20848, 0x02000000#32), (0x20868, 0x02000000#32), (0x60000, 0x00010000#32), (0x80008, 0x1400#32)]

/-- The hub right after cold reset. -/
def State.reset : State :=
  { regs := resetRegs, shadows := [], latches := [], setLog := [], recq := [],
    eqs := List.replicate 3 EvQueue.reset, wqs := List.replicate 512 WordQueue.reset, fqs := List.replicate 16 [], fqHeld := List.replicate 16 none,
    image := none, time := TimeState.reset, run := RunState.reset, mem := MemState.reset, trg := TrigState.reset, path := PathState.reset,
    strs := List.replicate 64 StreamState.reset, snt := SntState.reset, ports := List.replicate 4 NetPort.reset, dmfQ := [],
    host := HostState.reset, mbx := MbxState.reset, mnt := MaintState.reset, pwr := PowerState.reset,
    conv := ConvState.reset, reform := ReformState.reset, dbg := DbgState.reset, cal := CalState.reset, flash := Flash.reset, upd := UpdState.reset, firsts := [], obs := [], freeCtr := 0,
    pending := [] }

end Sys2Proof.Machine
end

