-- ==== Sys2Proof/Machine/Ops.lean ====
section
/-!
DEFINITION. Machine/Ops.lean: the named operations over the register file, sparse maps, event records and the model's
log of outputs. Everything a meaning does to a register goes through `rd`, `wr`, `getF`, `setF` and their relatives.
-/

namespace Sys2Proof.Machine

/-! ### Sparse maps in canonical form: keys strictly rising, no entry equal to the default -/

/-- The value at key `k`; `d` where nothing is listed. -/
def SMap.get {β : Type} (d : β) : List (Nat × β) → Nat → β
  | [], _ => d
  | (k', v) :: t, k => if k = k' then v else SMap.get d t k

/-- Writes `v` at `k`; writing the default removes the entry, so that equal maps are equal data. -/
def SMap.set {β : Type} [DecidableEq β] (d : β) : List (Nat × β) → Nat → β → List (Nat × β)
  | [], k, v => if v = d then [] else [(k, v)]
  | (k', v') :: t, k, v =>
    if v = d then (if k = k' then SMap.set d t k v else (k', v') :: SMap.set d t k v)
    else if k < k' then (k, v) :: (k', v') :: t
    else if k = k' then (k, v) :: t
    else (k', v') :: SMap.set d t k v

/-- Every key of the map is greater than `lo`. -/
def SMap.above {β : Type} (lo : Nat) : List (Nat × β) → Bool
  | [] => true
  | (k, _) :: t => decide (lo < k) && SMap.above lo t

/-- The canonical form. -/
def SMap.wf {β : Type} [DecidableEq β] (d : β) : List (Nat × β) → Bool
  | [] => true
  | (k, v) :: t => decide (v ≠ d) && SMap.above k t && SMap.wf d t

/-! ### Words and fields -/

/-- How far `off` lies past `base`, going round the 8 MiB of BAR0 (R335): an offset below `base` lies past every unit. -/
def past (base off : Nat) : Nat := (0x800000 - base + off) % 0x800000

/-- The low half of a 64-bit quantity (R2). -/
def lo32 (n : Nat) : Word := BitVec.ofNat 32 n
/-- The high half of a 64-bit quantity (R2). -/
def hi32 (n : Nat) : Word := BitVec.ofNat 32 (n / 2 ^ 32)
/-- Two halves as one number (R2). -/
def join64 (lo hi : Word) : Nat := lo.toNat + 2 ^ 32 * hi.toNat

/-- The field `width` bits wide at `lo` of a word, as a number. -/
def getBits (w : Word) (lo width : Nat) : Nat := w.toNat / 2 ^ lo % 2 ^ width

/-- `w` with the field at `lo` set to `n` (taken modulo the field's size). -/
def setBits (w : Word) (lo width n : Nat) : Word :=
  BitVec.ofNat 32 (w.toNat - getBits w lo width * 2 ^ lo + n % 2 ^ width * 2 ^ lo)

/-- A `width`-bit number read as two's complement. -/
def toSigned (width n : Nat) : Int :=
  if n % 2 ^ width < 2 ^ (width - 1) then (n % 2 ^ width : Nat) else (n % 2 ^ width : Nat) - (2 ^ width : Nat)

/-- A number as a `width`-bit two's-complement field. -/
def ofSigned (width : Nat) (z : Int) : Nat := (z % (2 ^ width : Nat)).toNat

/-- A truth value as a bit. -/
def b2n (b : Bool) : Nat := if b then 1 else 0

/-- All ones in a 64-bit register pair. -/
def allOnes64 : Nat := 2 ^ 64 - 1

/-- `l` with entry `i` changed by `f` (unchanged where the list has no entry `i`). -/
def updAt {α : Type} (f : α → α) : List α → Nat → List α
  | [], _ => []
  | a :: t, 0 => f a :: t
  | a :: t, i + 1 => a :: updAt f t i

/-! ### The register file -/

/-- The value held by the register at BAR0 offset `off`. -/
def State.rd (s : State) (off : Nat) : Word := SMap.get 0#32 s.regs off

/-- Sets the register at BAR0 offset `off`. -/
def State.wr (s : State) (off : Nat) (v : Word) : State := { s with regs := SMap.set 0#32 s.regs off v }

/-- The value of a field. -/
def State.getF (s : State) (f : Fld) : Nat := getBits (s.rd f.off) f.lo f.width

/-- The value of a signed field. -/
def State.getI (s : State) (f : Fld) : Int := toSigned f.width (s.getF f)

/-- Sets a field. -/
def State.setF (s : State) (f : Fld) (n : Nat) : State := s.wr f.off (setBits (s.rd f.off) f.lo f.width n)

/-- A one-bit field as a truth value. -/
def State.bit (s : State) (f : Fld) : Bool := s.getF f == 1

/-- Sets a one-bit field from a truth value. -/
def State.setB (s : State) (f : Fld) (b : Bool) : State := s.setF f (b2n b)

/-- A counter field counts one up, modulo its size. -/
def State.bump (s : State) (f : Fld) : State := s.setF f (s.getF f + 1)

/-- A counter field counts `n` up, modulo its size. -/
def State.bumpBy (s : State) (f : Fld) (n : Nat) : State := s.setF f (s.getF f + n)

/-- A 64-bit value held in two 32-bit registers, low half at the lower offset (R2). -/
def State.rd64 (s : State) (lo hi : Nat) : Nat := join64 (s.rd lo) (s.rd hi)

/-- Sets a 64-bit value held in two registers (R2). -/
def State.wr64 (s : State) (lo hi : Nat) (n : Nat) : State := (s.wr lo (lo32 n)).wr hi (hi32 n)

/-! ### Event records and outputs -/

/-- A record leaves its block for the sequencer (R240, R241). `ident` is the identity whose access caused it, or 0. -/
def State.emit (s : State) (ident typ : Nat) (payload : List Word) : State :=
  { s with recq := s.recq ++ [⟨ident, typ, payload, s.time.frc.toNat⟩] }

/-- Appends an output to the model's log. -/
def State.obsv (s : State) (o : Obs) : State := { s with obs := o :: s.obs }

/-- One payload word of R243. -/
def pw (n : Nat) : List Word := [lo32 n]
/-- One payload word of R243 for a truth value. -/
def pb (b : Bool) : List Word := [lo32 (b2n b)]
/-- A sample number or FRC value in a payload: two words, low half first (R243). -/
def psn (n : Nat) : List Word := [lo32 n, hi32 n]
/-- A signed value in one payload word. -/
def pint (z : Int) : List Word := [lo32 (ofSigned 32 z)]

/-! ### Activities by number (R408) -/

def actBgcal : Nat := 0
def actFgcal : Nat := 1
def actScrub : Nat := 2
def actSetsave : Nat := 3
def actCalsave : Nat := 4
def actImgwrite : Nat := 5
def actReform : Nat := 6
def actReadapt : Nat := 7
def actTimestep : Nat := 8
def actDelaychg : Nat := 9
def actDbghalt : Nat := 10

/-! ### Free values -/

/-- Takes the next free value of the model (an uninterpreted constant of Config applied to a plain counter). -/
def State.free (s : State) : Nat × State := (Config.freeValue s.freeCtr, { s with freeCtr := s.freeCtr + 1 })

end Sys2Proof.Machine

namespace Sys2Proof

/-- The identity number as the table of identities gives it. -/
def Ident.num : Ident → Nat
  | .host0 => 1 | .host1 => 2 | .netm => 3 | .dbg => 4 | .upd => 5 | .cals => 6 | .snta => 7 | .pwrc => 8

end Sys2Proof
end

