-- ==== Sys2Proof/Machine/TimeOps.lean ====
section
/-!
DEFINITION. Machine/TimeOps.lean: corrected time, its formats, short time and compare positions, legacy time bases, the
sample period and the instants of sampling edges (R32-R53). Times are numbers in units of 2^-56 ns, the resolution at
which the hub holds T_base (R34).
-/

namespace Sys2Proof.Machine

/-- One nanosecond in units of 2^-56 ns. -/
def nsU : Nat := 2 ^ 56
/-- One second in units of 2^-56 ns. -/
def secU : Nat := 10 ^ 9 * 2 ^ 56

/-- The T-tick the hub is in. -/
def State.tick (s : State) : Nat := s.time.frc.toNat

/-- The domain has had work (R373): its idle hold starts again. -/
def State.worked (s : State) (d : Nat) : State :=
  { s with pwr := { s.pwr with lastWork := updAt (fun _ => s.tick) s.pwr.lastWork d } }

/-- T(k) = T_base + (k - FRC_base) x INCR (R34). -/
def TimeState.at (t : TimeState) (k : BitVec 64) : Nat := t.tBase + (k - t.frcBase).toNat * t.incr

/-- The change committed at tick `k` is due: it takes effect at tick k + 1 (R35, R36). -/
def TimeState.isDue (t : TimeState) (k : Nat) : Bool := decide (k < t.frc.toNat)

/-- T_base and FRC_base moved to tick k + 1, where T reads `v`. -/
def TimeState.baseAt (t : TimeState) (k v : Nat) : TimeState := { t with tBase := v, frcBase := BitVec.ofNat 64 (k + 1) }

/-- The pending INCR takes effect at its tick k_w, where it is due (R35). -/
def TimeState.takeIncr (t : TimeState) : TimeState :=
  match t.incrPend with
  | some (v, k) =>
    if t.isDue k then { t.baseAt k (t.at (BitVec.ofNat 64 (k + 1))) with incr := v, incrPend := none } else t
  | none => t

/-- T(k_s) with a step of `z` ns, for a step committed at tick `k` (R36). -/
def TimeState.stepTo (t : TimeState) (z : Int) (k : Nat) : Int := t.at (BitVec.ofNat 64 (k + 1)) + z * (nsU : Nat)

/-- The pending step takes effect at its tick k_s, where it is due; one that would make T(k_s) negative is dropped (R36). -/
def TimeState.takeStep (t : TimeState) : TimeState :=
  match t.stepPend with
  | some (z, k) =>
    if t.isDue k then
      { (if t.stepTo z k < 0 then t else t.baseAt k (t.stepTo z k).toNat) with stepPend := none }
    else t
  | none => t

/-- Both an INCR and a step are pending, and the step's tick is the earlier one. -/
def TimeState.stepFirst (t : TimeState) : Bool :=
  match t.incrPend, t.stepPend with
  | some (_, i), some (_, k) => decide (k < i)
  | _, _ => false

/-- The time base as every evaluation of the current tick sees it (R37): a rebase that is due, then a step that is due. -/
def TimeState.due (t : TimeState) : TimeState := if t.stepFirst then t.takeStep.takeIncr else t.takeIncr.takeStep

/-- Is a step due that is accepted? -/
def TimeState.stepSeen (t : TimeState) : Bool :=
  match t.stepPend with
  | some (z, k) => t.isDue k && decide (0 ≤ (if t.stepFirst then t else t.takeIncr).stepTo z k)
  | none => false

/-- A step is due and STEP_APPLIED has not run yet. -/
def State.stepDue (s : State) : Bool := match s.time.stepPend with | some (_, k) => s.time.isDue k | none => false

/-- T at the current tick, after the changes that are due in it (R34, R37). -/
def State.now (s : State) : Nat := s.time.due.at s.time.frc

/-- INCR at the current tick, after a rebase that is due in it. -/
def State.incrNow (s : State) : Nat := s.time.due.incr

/-- The start lead T(k) + 15 x INCR (R91), also the launch instant of R41. -/
def State.lead (s : State) : Nat := s.now + 15 * s.incrNow

/-- A time truncated to 1/65,536 ns (R34). -/
def trunc16 (t : Nat) : Nat := t / 2 ^ 40
/-- Its fraction. -/
def tFrac (t : Nat) : Nat := trunc16 t % 65536
/-- Its nanoseconds. -/
def tNs (t : Nat) : Nat := trunc16 t / 65536 % 10 ^ 9
/-- Its seconds, 48 bits. -/
def tSec (t : Nat) : Nat := trunc16 t / 65536 / 10 ^ 9 % 2 ^ 48

/-- A time from seconds, nanoseconds and fraction. -/
def mkTime (sec ns frac : Nat) : Nat := ((sec * 10 ^ 9 + ns) * 65536 + frac) * 2 ^ 40

/-- A time in a record payload: three words (R243). -/
def ptime (t : Nat) : List Word :=
  [lo32 (tSec t), lo32 (tSec t / 2 ^ 32 + tFrac t * 65536), lo32 (tNs t)]

/-- Short time: 2 ns units modulo 2^32 (R40). -/
def shortOf (t : Nat) : Nat := t / (2 * nsU) % 2 ^ 32
/-- Fine position 0-127 within the 2 ns (R40). -/
def fineOf (t : Nat) : Nat := t / (nsU / 64) % 128

/-- R40: is position a at or before position b? Signed difference of the short times, then the fine position. -/
def posLe (sa fa sb fb : Nat) : Bool :=
  let d := toSigned 32 (sa + 2 ^ 32 - sb % 2 ^ 32)
  if d < 0 then true else if d = 0 then decide (fa ≤ fb) else false

/-- The time at the position (short, fine) as a comparison with time `t` sees it (R40): the signed difference of the short times
away, then the fine position. -/
def nearPos (t short fine : Nat) : Int :=
  let d := toSigned 32 (short + 2 ^ 32 - shortOf t)
  (t / (nsU / 64) * (nsU / 64) : Nat) + d * (2 * nsU : Nat) + ((fine : Int) - fineOf t) * (nsU / 64 : Nat)

/-! ### Legacy time bases (R52, R53) -/

/-- A legacy time base as one number, in units of 2^-24 ns. -/
def LegacyTb.val (b : LegacyTb) : Nat := (b.sec * 10 ^ 9 + b.ns) * 2 ^ 24 + b.frac

/-- A legacy time base from a number of 2^-24 ns units; seconds are 32 bits wide. -/
def LegacyTb.ofVal (b : LegacyTb) (v : Nat) : LegacyTb :=
  { b with frac := v % 2 ^ 24, ns := v / 2 ^ 24 % 10 ^ 9, sec := v / 2 ^ 24 / 10 ^ 9 % 2 ^ 32 }

/-- TBn. -/
def State.tb (s : State) (n : Nat) : LegacyTb := s.time.tbs.getD n LegacyTb.reset

/-- TB_INCR of TBn in the units of INCR: 2^-24 ns to 2^-56 ns. -/
def State.tbIncr (s : State) (n : Nat) : Nat := 2 ^ 32 * s.getF (F.TIME_TB_INCR_INCR n)

/-- The time a compare unit with source `src` compares with (R53): corrected time, or TBn in the same units. -/
def State.srcNow (s : State) (src : Nat) : Nat :=
  if src = 0 then s.now else 2 ^ 32 * (s.tb (src - 1)).val

/-- Its increment per tick. -/
def State.srcIncr (s : State) (src : Nat) : Nat := if src = 0 then s.incrNow else s.tbIncr (src - 1)

/-- TBn as a load leaves it. -/
def LegacyTb.loaded (b : LegacyTb) (ns : Nat) : LegacyTb := { b with sec := b.hold, ns := ns, frac := 0, load := none }

/-- One tick of a legacy time base (R52): a load takes effect, and a running one advances. -/
def tbTick (s : State) (n : Nat) (b : LegacyTb) : LegacyTb :=
  match b.load with
  | some ns => b.loaded ns
  | none =>
  if s.bit (F.TIME_TB_CTRL_RUN n) then b.ofVal (b.val + s.getF (F.TIME_TB_INCR_INCR n)) else b

/-- The legacy time bases after one tick. -/
def tbsTick (s : State) : Nat → List LegacyTb → List LegacyTb
  | _, [] => []
  | n, b :: t => tbTick s n b :: tbsTick s (n + 1) t

/-- One T-tick passes: FRC counts and running legacy time bases advance (R32, R52). -/
def State.tickOn (s : State) : State :=
  { s with time := { s.time with frc := s.time.frc + 1, tbs := tbsTick s 0 s.time.tbs } }

/-! ### Sample period and sampling edges (R51, R92, R96) -/

/-- Ts in units of 2^-48 ns (TIME_SPERIOD). -/
def State.sperRaw (s : State) : Nat := s.rd64 R.TIME_SPERIOD_LO R.TIME_SPERIOD_HI
/-- Ts in units of 2^-56 ns. -/
def State.ts (s : State) : Nat := s.sperRaw * 256

/-- Ceiling division of an integer by a positive number. -/
def ceilDivI (a : Int) (b : Nat) : Int := -((-a) / (b : Int))
/-- Ceiling division of numbers. -/
def ceilDiv (a b : Nat) : Nat := (a + b - 1) / b

/-- What an accepted step that is due and not yet applied adds to the instants of the run (R37, R51). -/
def State.stepShift (s : State) : Int :=
  match s.time.stepPend with
  | some (z, _) => if s.time.stepSeen then z * (nsU : Nat) else 0
  | none => 0

/-- g(n) = t_s + (d + n) x Ts, the nominal instant of SN n (R51). -/
def State.gAt (s : State) (n : Nat) : Int := s.run.tStart + s.stepShift + ((s.getF F.AFE_DELAY_USED_D_USED + n) * s.ts : Nat)

/-- SN of the first sampling edge at or after corrected time `t`, from the last measured edge (may be negative). -/
def State.snFrom (s : State) (t : Int) : Int := (s.run.edgeSn : Int) + ceilDivI (t - (s.run.edgeT + s.stepShift)) s.ts

/-- The label of the S-cycle the SCLK domain is in: that of the last sampling edge. -/
def State.label (s : State) : Nat := s.run.next - 1

/-- "The first SN after X reaches the SCLK domain" (R461): the arrival label plus one. -/
def State.firstSn (s : State) : Nat := s.run.next

/-- "A requested SN has not yet reached the SCLK domain" (R461). -/
def State.notReached (s : State) (n : Nat) : Bool := decide (s.run.next ≤ n)

/-- The run state: 0 IDLE, 1 ARMED, 2 DELAY, 3 RUN (R89). -/
def State.runSt (s : State) : Nat := s.getF F.AFE_RUN_STATUS_STATE

/-- DELAY or RUN. -/
def State.inRun (s : State) : Bool := 2 ≤ s.runSt

/-- The SN that records and registers show: all ones outside RUN. -/
def State.snOr1 (s : State) (n : Nat) : Nat := if s.runSt = 3 then n else allOnes64

/-- The value a register had at label `n`: the oldest landing after `n` in the log of the run tells what it was before. -/
def valAtLog (off n : Nat) (cur : Word) : List (Nat × Nat × Word) → Word
  | [] => cur
  | (l, o, v) :: t => if n < l then valAtLog off n (if o = off then v else cur) t else cur

/-- The settings word in force at label `n` (R193, R206). -/
def State.rdAt (s : State) (n off : Nat) : Word := valAtLog off n (s.rd off) s.setLog

/-- A field of it. -/
def State.getFAt (s : State) (n : Nat) (f : Fld) : Nat := getBits (s.rdAt n f.off) f.lo f.width

/-! ### Breakpoints (R429) -/

/-- The breakpoints of TYPE `typ` that are enabled and that `sel` selects match: each match waits for BREAKPOINT_MATCH. -/
def State.bpNote (s : State) (typ : Nat) (sel : Nat → Bool) (v : Nat) (e : Option Nat) : State :=
  let l := (List.range 8).filter (fun n => s.bit (F.DBG_BP_CTRL_EN n) && s.getF (F.DBG_BP_CTRL_TYPE n) == typ && sel n)
  { s with dbg := { s.dbg with hits := s.dbg.hits ++ l.map (fun n => BpHit.mk n v e) } }

/-- EVENT `ev` (0 flush, 1 lasting error, 2 FQ_NOCREDIT) of queue `q` of KIND `kind`. -/
def State.bpQueue (s : State) (kind q ev : Nat) : State :=
  s.bpNote 2 (fun n => s.getF (F.DBG_BP_SEL_KIND n) == kind && s.getF (F.DBG_BP_SEL_SEL n) == q &&
    (s.getF (F.DBG_BP_SEL_EVENT n) == ev || s.getF (F.DBG_BP_SEL_EVENT n) == 3)) s.tick none

/-- A firing, or with `supp` a suppression, of trigger condition `i` decided at label `j`. -/
def State.bpTrig (s : State) (i j : Nat) (supp : Bool) : State :=
  s.bpNote 3 (fun n => s.getF (F.DBG_BP_SEL_SEL n) % 8 == i && s.bit (F.DBG_BP_SEL_SUPP n) == supp) j (some (j + 2))

/-- TIME_EPOCH at the current tick, after a step that is due in it (R36, R37). -/
def State.epoch (s : State) : Nat := (s.getF F.TIME_EPOCH_EPOCH + b2n s.time.stepSeen) % 2 ^ 16

end Sys2Proof.Machine
end

