-- ==== Sys2Proof/Machine/Bytes.lean ====
section
/-!
DEFINITION. Machine/Bytes.lean: byte strings: little- and big-endian numbers, bit packing, the CRCs and checksums that
frames and flash records use.
-/

namespace Sys2Proof.Machine

/-- The `k` low bytes of a number, least significant first. -/
def leBytes : Nat → Nat → List Byte
  | 0, _ => []
  | k + 1, n => BitVec.ofNat 8 n :: leBytes k (n / 256)

/-- The `k` low bytes of a number, most significant first. -/
def beBytes (k n : Nat) : List Byte := (leBytes k n).reverse

/-- The number a little-endian byte string spells. -/
def ofLe : List Byte → Nat
  | [] => 0
  | b :: t => b.toNat + 256 * ofLe t

/-- The number a big-endian byte string spells. -/
def ofBe (l : List Byte) : Nat := ofLe l.reverse

/-- Bytes `i` to `i + k - 1` of a string (shorter at its end). -/
def sub (l : List Byte) (i k : Nat) : List Byte := (l.drop i).take k

/-- The little-endian number in bytes `i` to `i + k - 1`. -/
def leAt (l : List Byte) (i k : Nat) : Nat := ofLe (sub l i k)
/-- The big-endian number in bytes `i` to `i + k - 1`. -/
def beAt (l : List Byte) (i k : Nat) : Nat := ofBe (sub l i k)

/-- `l` with the bytes from `i` on replaced by `b`. -/
def putBytes (l : List Byte) (i : Nat) (b : List Byte) : List Byte := l.take i ++ b ++ l.drop (i + b.length)

/-- `n` zero bytes. -/
def zeros (n : Nat) : List Byte := List.replicate n 0#8

/-- A string padded with zeros to `n` bytes. -/
def padTo (n : Nat) (l : List Byte) : List Byte := l ++ zeros (n - l.length)

/-- Rounded up to a multiple of 64. -/
def ceil64 (n : Nat) : Nat := (n + 63) / 64 * 64

/-- A string zero-padded to a multiple of 64 bytes. -/
def pad64 (l : List Byte) : List Byte := padTo (ceil64 l.length) l

/-- Fields (value, width) packed from bit 0 upward into one number. -/
def packNat : List (Nat × Nat) → Nat
  | [] => 0
  | (v, w) :: t => v % 2 ^ w + 2 ^ w * packNat t

/-- Words as bytes, little-endian (R2). -/
def wordsLe : List Word → List Byte
  | [] => []
  | w :: t => leBytes 4 w.toNat ++ wordsLe t

/-- Words as bytes with byte 0 in bits 31:24, as addresses and keys are held. -/
def wordsBe : List Word → List Byte
  | [] => []
  | w :: t => beBytes 4 w.toNat ++ wordsBe t

/-- The words of a big-endian byte string. -/
def wordsOfBe (b : List Byte) : List Word := (List.range (b.length / 4)).map (fun i => lo32 (ofBe (sub b (4 * i) 4)))

/-- Bytes as little-endian words; the last word is completed with zeros. -/
def toWordsLe : Nat → List Byte → List Word
  | 0, _ => []
  | n + 1, l => BitVec.ofNat 32 (leAt l 0 4) :: toWordsLe n (l.drop 4)

/-- One bit of the reflected CRC-32 of IEEE 802.3. -/
def crcBit (c : BitVec 32) : BitVec 32 := if c.getLsbD 0 then (c >>> 1) ^^^ 0xEDB88320#32 else c >>> 1

/-- Eight bits of it. -/
def crcByte (c : BitVec 32) (b : Byte) : BitVec 32 :=
  crcBit (crcBit (crcBit (crcBit (crcBit (crcBit (crcBit (crcBit (c ^^^ b.zeroExtend 32))))))))

/-- CRC-32 of IEEE 802.3 over a byte string. -/
def crc32 (l : List Byte) : BitVec 32 := (l.foldl crcByte 0xFFFFFFFF#32) ^^^ 0xFFFFFFFF#32

/-- Sum of the big-endian 16-bit words of a string; an odd last byte is completed with zero. -/
def sum16 : List Byte → Nat
  | [] => 0
  | [a] => a.toNat * 256
  | a :: b :: t => a.toNat * 256 + b.toNat + sum16 t

/-- One's-complement folding of a sum to 16 bits. -/
def fold16 (n : Nat) : Nat :=
  let a := n % 65536 + n / 65536
  let b := a % 65536 + a / 65536
  b % 65536 + b / 65536

/-- The Internet checksum of a sum. -/
def cksum (n : Nat) : Nat := 65535 - fold16 n

/-- Adler-32 of RFC 1950. -/
def adler32 (l : List Byte) : Nat :=
  let r := l.foldl (fun (ab : Nat × Nat) b => ((ab.1 + b.toNat) % 65521, (ab.2 + ab.1 + b.toNat) % 65521)) (1, 0)
  r.2 * 65536 + r.1

/-! ### SHA-256 (FIPS 180-4), used by the Damuf tag (R325) -/

def rotr32 (x : BitVec 32) (n : Nat) : BitVec 32 := (x >>> n) ||| (x <<< (32 - n))

def sha256K : List (BitVec 32) := [
  0x428a2f98#32, 0x71374491#32, 0xb5c0fbcf#32, 0xe9b5dba5#32, 0x3956c25b#32, 0x59f111f1#32, 0x923f82a4#32, 0xab1c5ed5#32,
  0xd807aa98#32, 0x12835b01#32, 0x243185be#32, 0x550c7dc3#32, 0x72be5d74#32, 0x80deb1fe#32, 0x9bdc06a7#32, 0xc19bf174#32,
  0xe49b69c1#32, 0xefbe4786#32, 0x0fc19dc6#32, 0x240ca1cc#32, 0x2de92c6f#32, 0x4a7484aa#32, 0x5cb0a9dc#32, 0x76f988da#32,
  0x983e5152#32, 0xa831c66d#32, 0xb00327c8#32, 0xbf597fc7#32, 0xc6e00bf3#32, 0xd5a79147#32, 0x06ca6351#32, 0x14292967#32,
  0x27b70a85#32, 0x2e1b2138#32, 0x4d2c6dfc#32, 0x53380d13#32, 0x650a7354#32, 0x766a0abb#32, 0x81c2c92e#32, 0x92722c85#32,
  0xa2bfe8a1#32, 0xa81a664b#32, 0xc24b8b70#32, 0xc76c51a3#32, 0xd192e819#32, 0xd6990624#32, 0xf40e3585#32, 0x106aa070#32,
  0x19a4c116#32, 0x1e376c08#32, 0x2748774c#32, 0x34b0bcb5#32, 0x391c0cb3#32, 0x4ed8aa4a#32, 0x5b9cca4f#32, 0x682e6ff3#32,
  0x748f82ee#32, 0x78a5636f#32, 0x84c87814#32, 0x8cc70208#32, 0x90befffa#32, 0xa4506ceb#32, 0xbef9a3f7#32, 0xc67178f2#32]

def sha256H0 : List (BitVec 32) := [
  0x6a09e667#32, 0xbb67ae85#32, 0x3c6ef372#32, 0xa54ff53a#32, 0x510e527f#32, 0x9b05688c#32, 0x1f83d9ab#32, 0x5be0cd19#32]

/-- The message schedule, newest word first: `n` more words. -/
def sha256Sched : Nat → List (BitVec 32) → List (BitVec 32)
  | 0, w => w
  | n + 1, w =>
    let a := w.getD 14 0#32
    let b := w.getD 1 0#32
    let s0 := rotr32 a 7 ^^^ rotr32 a 18 ^^^ (a >>> 3)
    let s1 := rotr32 b 17 ^^^ rotr32 b 19 ^^^ (b >>> 10)
    sha256Sched n ((w.getD 15 0#32 + s0 + w.getD 6 0#32 + s1) :: w)

/-- The rounds over (constant, word) pairs. -/
def sha256Rounds : List (BitVec 32 × BitVec 32) → List (BitVec 32) → List (BitVec 32)
  | (k, w) :: t, [a, b, c, d, e, f, g, h] =>
    let s1 := rotr32 e 6 ^^^ rotr32 e 11 ^^^ rotr32 e 25
    let ch := (e &&& f) ^^^ (~~~e &&& g)
    let t1 := h + s1 + ch + k + w
    let s0 := rotr32 a 2 ^^^ rotr32 a 13 ^^^ rotr32 a 22
    let maj := (a &&& b) ^^^ (a &&& c) ^^^ (b &&& c)
    sha256Rounds t [t1 + s0 + maj, a, b, c, d + t1, e, f, g]
  | _, st => st

/-- One 64-byte block. -/
def sha256Block (st : List (BitVec 32)) (blk : List Byte) : List (BitVec 32) :=
  let w0 := (List.range 16).map (fun i => BitVec.ofNat 32 (beAt blk (4 * i) 4))
  let w := (sha256Sched 48 w0.reverse).reverse
  List.zipWith (· + ·) st (sha256Rounds (sha256K.zip w) st)

/-- `n` blocks. -/
def sha256Blocks : Nat → List (BitVec 32) → List Byte → List (BitVec 32)
  | 0, st, _ => st
  | n + 1, st, l => sha256Blocks n (sha256Block st l) (l.drop 64)

/-- SHA-256 of a byte string. -/
def sha256 (m : List Byte) : List Byte :=
  let z := (119 - m.length % 64) % 64
  let p := m ++ [0x80#8] ++ zeros z ++ beBytes 8 (8 * m.length)
  wordsBe (sha256Blocks (p.length / 64) sha256H0 p)

/-- HMAC-SHA-256 (RFC 2104). -/
def hmac256 (key msg : List Byte) : List Byte :=
  let k := padTo 64 (if key.length ≤ 64 then key else sha256 key)
  sha256 (k.map (· ^^^ 0x5C#8) ++ sha256 (k.map (· ^^^ 0x36#8) ++ msg))

end Sys2Proof.Machine
end

