-- ==== Sys2Proof/Machine/Flags.lean ====
section
/-!
DEFINITION. Machine/Flags.lean: what status bits, fault classes and interrupt vectors do when they are raised: MSI-X
signalling (R355), the alert output (R419) and the second-attempt outcomes (R416, R418).
-/

namespace Sys2Proof.Machine

/-! ### MSI-X (R355) -/

/-- Function `f`. -/
def State.fn (s : State) (f : Nat) : PciFn := s.host.fns.getD f ⟨[], []⟩

/-- Changes function `f`. -/
def State.updFn (s : State) (f : Nat) (g : PciFn → PciFn) : State :=
  { s with host := { s.host with fns := updAt g s.host.fns f } }

/-- Changes vector `v` of function `f`. -/
def State.updVec (s : State) (f v : Nat) (g : MsixVec → MsixVec) : State :=
  s.updFn f (fun x => { x with msix := updAt g x.msix v })

/-- Vector `v` of function `f`. -/
def State.vec (s : State) (f v : Nat) : MsixVec := (s.fn f).msix.getD v ⟨0#32, 0#32, 0#32, 1#32, false⟩

/-- Is the vector masked? -/
def MsixVec.masked (x : MsixVec) : Bool := x.ctrl.getLsbD 0

/-- Signals vector `v` of function `f`: the message goes out, or its pending bit is set while it is masked. With no PCIe
link no message can leave, and it stays pending. -/
def State.signal (s : State) (f v : Nat) : State :=
  if (s.vec f v).masked || !s.host.linkUp then s.updVec f v (fun x => { x with pend := true })
  else s.obsv (.msix f v)

/-! ### What the pins follow (R46, R203, R320, R363, R419, R446, R453) -/

/-- ALERT_N is driven low (R419): a status bit enabled in the mask is set. -/
def State.alert (s : State) : Bool :=
  ((s.rd R.MNT_ALERT_STATUS) &&& (s.rd R.MNT_ALERT_MASK)) != 0#32

def State.endA (s : State) (n : Nat) : Nat := s.getF (F.MBX_BIND_A n)
def State.endB (s : State) (n : Nat) : Nat := s.getF (F.MBX_BIND_B n)

/-- Is identity number `i` an end of channel `n`? An unbound channel has none. -/
def State.isEnd (s : State) (n i : Nat) : Bool := s.endA n != 0 && s.endB n != 0 && (s.endA n == i || s.endB n == i)

/-- Channel `n`: 0 EMPTY, 1 COMPOSING, 2 POSTED. -/
def State.chSt (s : State) (n : Nat) : Nat := s.getF (F.MBX_STATUS_STATE n)
def State.composer (s : State) (n : Nat) : Nat := s.getF (F.MBX_STATUS_COMPOSER n)

/-- Channel `n` holds an unacknowledged notification for end `i`, a host: a message posted to it, or an acknowledgement of its
own message that came while the link was down (R363, R364). -/
def State.hostHeld (s : State) (n i : Nat) : Bool :=
  (s.chSt n == 2 && s.isEnd n i && s.composer n != i) || s.mbx.wakes.contains (n, i)

/-- The WAKE bit of end `i` of channel `n`. -/
def State.wakeBit (s : State) (n i : Nat) : Bool :=
  if s.endA n = i then s.bit (F.MBX_CH_CTRL_WAKE_A n) else s.bit (F.MBX_CH_CTRL_WAKE_B n)

/-- WAKE_N is asserted (R363). -/
def State.wakeN (s : State) : Bool :=
  !s.host.linkUp && (List.range 24).any (fun n => [1, 2].any (fun i => s.hostHeld n i && s.wakeBit n i))

/-- What SYNCE_CLKOUT drives (R320): the port whose recovered clock it carries and FSEL. It is low while the output is disabled, while
NET does not run, and with SQUELCH while that port has no recovered clock. -/
def State.clkOut (s : State) : Option (Nat × Nat) :=
  let p := s.getF F.NET_SYNCE_CTRL_PORT
  if s.bit F.NET_SYNCE_CTRL_CLKOUT_EN && getBits (s.rd R.PWR_DOM_STATE) 20 2 == 2 &&
      (!s.bit F.NET_SYNCE_CTRL_SQUELCH || s.bit (F.NET_PORT_STATUS_RCLK_OK p)) then some (p, s.getF F.NET_SYNCE_CTRL_FSEL)
  else none

/-- Level of the pin of pulse output `o`; before READY every output is inactive (R446). -/
def State.tpoLevel (s : State) (o : Nat) (active : Bool) : Bool :=
  (active && s.bit F.PWR_STATUS_READY) != s.bit (F.TIME_TPO_CTRL_POL o)

/-- Level of the pin of trigger output `o`. -/
def State.toLevel (s : State) (o : Nat) (active : Bool) : Bool :=
  (active && s.bit F.PWR_STATUS_READY) != s.bit (F.TRG_TO_CTRL_POL o)

/-- Level that the function of a pin gives it. -/
def State.pinLevel (s : State) : Pin → Bool
  | .tpo o => s.tpoLevel o ((s.time.tpos.getD o Tpo.reset).active && s.bit (F.TIME_TPO_CTRL_EN o))
  | .trigout o => s.toLevel o ((s.trg.outs.getD o TrigOut.reset).endAt.isSome && s.bit (F.TRG_TO_CTRL_EN o))
  | .alertN => !s.alert
  | .wakeN => !s.wakeN
  | .thermN => !s.bit F.PWR_MON_STATUS_THERM
  | .scanChain => false

/-- The pins with a level that a function of the hub gives. -/
def fnPins : List Pin :=
  (List.range 8).map Pin.tpo ++ (List.range 4).map Pin.trigout ++ [.alertN, .wakeN, .thermN]

/-- A pin takes a level: at its ball, but for a hub with EXTEST loaded, where the chain drives the balls (R423). -/
def State.pinOut (s : State) (p : Pin) (level : Bool) (at_ vernier : Nat) : State :=
  if s.dbg.ir = 0 then s else s.obsv (.pin p level at_ vernier)

/-- Pin `p` goes from its level in `was` to that in `s`, at the count `at_`. -/
def State.pinEdge (s was : State) (p : Pin) (at_ vernier : Nat) : State :=
  if s.pinLevel p == was.pinLevel p then s else s.pinOut p (s.pinLevel p) at_ vernier

/-- The count that stamps a change of pin `p` now: sampling edges for the trigger outputs, ticks for the others. -/
def State.pinNow (s : State) : Pin → Nat
  | .trigout _ => s.run.scyc
  | _ => s.time.frc.toNat

/-- The pins `l` go from their levels in `was` to those in `s`. -/
def State.pinsMove (s was : State) (l : List Pin) : State :=
  l.foldl (fun s p => s.pinEdge was p (was.pinNow p) 0) s

/-- SYNCE_CLKOUT goes from what it drove in `was` to what it drives now. -/
def State.clkMove (s was : State) : State :=
  if s.clkOut == was.clkOut || s.dbg.ir == 0 then s else s.obsv (.synceClk s.clkOut)

/-- The outputs that follow registers go with a change of them. -/
def State.follow (s was : State) : State := (s.pinsMove was [.alertN, .wakeN]).clkMove was

/-! ### Alerts and second-attempt outcomes (R416-R419) -/

/-- Signals the alert vector of every function whose HIF_FN_ALERT.EN is 1. -/
def State.signalAlert (s : State) : State :=
  let go (s : State) (f : Nat) : State :=
    if s.bit (F.HIF_FN_ALERT_EN f) then s.signal f (s.getF (F.HIF_FN_ALERT_VEC f)) else s
  go (go s 0) 1

/-- Sets a status bit; a 0 to 1 change of a bit enabled in the mask signals the alert vectors (R419). -/
def State.setAlert (s : State) (bitNo : Nat) : State :=
  let was := (s.rd R.MNT_ALERT_STATUS).getLsbD bitNo
  let wasLow := s.alert
  let s1 := s.setF ⟨R.MNT_ALERT_STATUS, bitNo, 1⟩ 1
  if was then s1
  else if (s.rd R.MNT_ALERT_MASK).getLsbD bitNo then
    let s2 := s1.signalAlert
    if wasLow then s2 else s2.pinOut .alertN false s.tick 0
  else s1

/-- A transient or lasting outcome of class `k` at location `loc` (R418). -/
def State.mntFault (s : State) (k : Nat) (transient : Bool) (loc : Nat) : State :=
  let s := if transient then s.bump (F.MNT_FAULT_TRANS_COUNT k) else s.bump (F.MNT_FAULT_LASTING_COUNT k)
  let s := (s.setF F.MNT_LAST_FAULT_CLASS k).setB F.MNT_LAST_FAULT_TRANSIENT transient
  let s := s.setF F.MNT_LAST_LOC_LOC loc
  let s := if !transient && [0, 1, 4, 5].contains k then { s with upd := { s.upd with lasting := true } } else s
  let s := s.setAlert (if transient then 8 + k else k)
  s.emit 0 0x0F01 (pw k ++ pb transient ++ pw loc)

/-- An abort, disarm, reject or withdrawal came at or after its commit point (R415): the block's LATE flag and MNT_LATE. -/
def State.late (s : State) (flag : Fld) : State := (s.setF flag 1).bump F.MNT_LATE_COUNT

/-- An access refused under R339. -/
def State.deny (s : State) : State := s.bump F.HIF_DENY_COUNT

end Sys2Proof.Machine
end

