-- ==== Sys2Proof/Machine/MemOps.lean ====
section
/-!
DEFINITION. Machine/MemOps.lean: sample memory as the hub's movers and the host window use it: physical location of a
word, reads under SEC-DED and the second-attempt rule, writes with the injection of R226, partitions and rights
(R209-R228).
-/

namespace Sys2Proof.Machine

/-- Bytes of sample memory (R209). -/
def memBytes : Nat := 134217728

/-- The canonical form of sample memory: offsets strictly rising, no cell equal to what an unlisted one reads as. -/
def MemState.wf (m : MemState) : Bool := SMap.wf 0#8 m.cells

/-- The byte at BAR2 offset `a`; an unlisted byte is 0 (R228). -/
def MemState.byte (m : MemState) (a : Nat) : Byte := SMap.get 0#8 m.cells a

/-- Stores a byte. -/
def MemState.put (m : MemState) (a : Nat) (b : Byte) : MemState := { m with cells := SMap.set 0#8 m.cells a b }

/-- Stores bytes from `a` upward. -/
def MemState.putAll (m : MemState) : Nat → List Byte → MemState
  | _, [] => m
  | a, b :: t => (m.put a b).putAll (a + 1) t

/-- `n` bytes from `a` upward. -/
def MemState.bytes (m : MemState) (a n : Nat) : List Byte := (List.range n).map (fun i => m.byte (a + i))

/-- The fault of the word at offset `a`, if its cells fail. -/
def MemState.faultAt (m : MemState) (a : Nat) : Option MemFault := m.faults.find? (fun f => f.word == a)

/-- The word's cells hold what was written again. -/
def MemState.clearFault (m : MemState) (a : Nat) : MemState := { m with faults := m.faults.filter (fun f => f.word != a) }

/-- The fault location code of R14 for the word at BAR2 offset `a` (R210). -/
def memLoc (a bit : Nat) : Nat :=
  let l := a / 64
  let w := a / 4 % 16
  let quad := l % 4
  let tile := l / 4 % 8
  let bank := l / 32 / 8192
  let word := l / 32 % 8192 * 16 + w
  quad * 2 ^ 29 + tile * 2 ^ 26 + bank * 2 ^ 23 + word * 2 ^ 6 + bit

/-- Tile counter index t = 8 x QUAD + TILE of the word at `a`. -/
def memTile (a : Nat) : Nat := a / 64 % 4 * 8 + a / 64 / 4 % 8

/-- What a read of one word met (R212, R213). -/
inductive MemRead where
  | good | corrected | transient | lasting
deriving DecidableEq, Repr

/-- What a read of the word at `a` meets. -/
def State.memMeets (s : State) (a : Nat) : MemRead :=
  match s.mem.faultAt a with
  | none => .good
  | some f =>
    match f.bitB with
    | none => .corrected
    | some _ => if f.once then .transient else .lasting

/-- A corrected error in bit `b` of the word at `a` is counted and located (R212). -/
def State.countCe (s : State) (a b : Nat) : State :=
  ((s.bump F.MEM_ERR_CE_COUNT).bump (F.MEM_TILE_CE_COUNT (memTile a))).setF F.MEM_CE_LOC_LOC (memLoc a b)

/-- Reads the word at offset `a` (a multiple of 4): what it met, and the state after its effects. The word read is the
stored one unless the read met a lasting error. -/
def State.memReadWord (s : State) (a : Nat) : MemRead × State :=
  match s.mem.faultAt a with
  | none => (.good, s)
  | some f =>
    match f.bitB with
    | none =>
      let s := s.countCe a f.bitA
      (.corrected, { s with mem := s.mem.clearFault a })
    | some _ =>
      let loc := memLoc a 63
      if f.once then
        let s := s.bump F.MEM_ERR_UE_TRANS_COUNT
        let s := match f.left with
          | some b => s.countCe a b
          | none => s
        let s := s.emit 0 0x0501 (pw loc ++ pb true)
        let s := s.mntFault 0 true loc
        (.transient, { s with mem := s.mem.clearFault a })
      else
        let s := (s.bump F.MEM_ERR_UE_LASTING_COUNT).setF F.MEM_UE_LOC_LOC loc
        let s := s.emit 0 0x0501 (pw loc ++ pb false)
        (.lasting, s.mntFault 0 false loc)

/-- Reads `n` words from `a` upward; the words' offsets that failed twice are collected, lowest first. -/
def State.memReadWords (s : State) : Nat → Nat → List Nat × State
  | _, 0 => ([], s)
  | a, n + 1 =>
    let (r, s1) := s.memReadWord a
    let (bad, s2) := s1.memReadWords (a + 4) n
    (if r = .lasting then a :: bad else bad, s2)

/-- A write of the word at `a` by any writer but the zero-fill and the scrubber: fresh check bits, or the armed injection
(R226). BIT_B equal to BIT_A with DOUBLE flips one bit twice, which leaves the word as written (DESIGN CHOICE, assumption log 69). -/
def State.memWroteWord (s : State) (a : Nat) : State :=
  let s := { s with mem := s.mem.clearFault a }
  if s.bit F.MEM_INJECT_CTRL_ARM && s.getF F.MEM_INJECT_ADDR_ADDR * 4 == a then
    let bA := s.getF F.MEM_INJECT_CTRL_BIT_A
    let bB := s.getF F.MEM_INJECT_CTRL_BIT_B
    let f : MemFault := ⟨a, bA, if s.bit F.MEM_INJECT_CTRL_DOUBLE then some bB else none, false, none⟩
    let s := if s.bit F.MEM_INJECT_CTRL_DOUBLE && bA == bB then s else { s with mem := { s.mem with faults := f :: s.mem.faults } }
    (s.setF F.MEM_INJECT_CTRL_ARM 0).setF F.MEM_INJECT_CTRL_DONE 1
  else s

/-- Writes of `n` whole words from `a` upward. -/
def State.memWroteWords (s : State) : Nat → Nat → State
  | _, 0 => s
  | a, n + 1 => (s.memWroteWord a).memWroteWords (a + 4) n

/-- A hub data mover writes whole words at `a` (a multiple of 4). -/
def State.memWrite (s : State) (a : Nat) (bytes : List Byte) : State :=
  let s := { s with mem := s.mem.putAll a bytes }
  s.memWroteWords a ((bytes.length + 3) / 4)

/-- Zero-fill with valid check bits (R74, R228): an armed injection stays armed through it. -/
def State.memZero (s : State) : State := { s with mem := { s.mem with cells := [], faults := [] } }

/-- Partitions of R63, in the order of IMG_PART: ring, pool, frame queues, sinter, scratch. -/
inductive Part where
  | ring | pool | frames | sinter | scratch | none
deriving DecidableEq, Repr

/-- First byte of partition `n` (R211). -/
def State.partBase (s : State) (n : Nat) : Nat := 524288 * s.getF (F.IMG_PART_FIRST_BANK n)
/-- Bytes of partition `n`. -/
def State.partSize (s : State) (n : Nat) : Nat := 524288 * s.getF (F.IMG_PART_BANKS n)

/-- Does offset `a` lie in partition `n`? -/
def State.inPart (s : State) (n a : Nat) : Bool :=
  decide (s.partBase n ≤ a) && decide (a < s.partBase n + s.partSize n)

/-- The partition that holds offset `a`. -/
def State.partOf (s : State) (a : Nat) : Part :=
  if s.inPart 0 a then .ring else if s.inPart 1 a then .pool else if s.inPart 2 a then .frames
  else if s.inPart 3 a then .sinter else if s.inPart 4 a then .scratch else .none

/-- The hub is halted (R425). -/
def State.halted (s : State) : Bool := s.getF F.DBG_STATUS_STATE == 2 || s.getF F.DBG_STATUS_STATE == 3

/-- The rights of R224. -/
def State.memMay (s : State) (id : Ident) (write : Bool) (p : Part) : Bool :=
  match id, write with
  | .host0, false => p == .ring || p == .pool || p == .scratch
  | .host0, true => p == .scratch
  | .host1, false => p != .none
  | .host1, true => p == .scratch
  | .dbg, false => p != .none
  | .dbg, true => p == .scratch || (p != .none && s.halted)
  | .snta, false => p == .ring || p == .pool || p == .scratch
  | .snta, true => p == .scratch
  | _, _ => false

/-- Stores the enabled bytes of `b` from `a` upward. -/
def MemState.putEnabled (m : MemState) : Nat → List (Option Byte) → MemState
  | _, [] => m
  | a, none :: t => m.putEnabled (a + 1) t
  | a, some b :: t => (m.put a b).putEnabled (a + 1) t

/-- Writes the enabled bytes of `b` at `off`, word by word: a part of a word by read-modify-write, dropped where the read fails twice. A
word with no byte enabled is left alone. -/
def State.windowWords' (s : State) : Nat → Nat → List (Option Byte) → State
  | 0, _, _ => s
  | n + 1, off, b =>
    if b.isEmpty then s
    else
      let k := min b.length (4 - off % 4)
      let part := b.take k
      let wa := off / 4 * 4
      let s :=
        if part.all (·.isNone) then s
        else
          let x := if decide (k = 4) && part.all (·.isSome) then (MemRead.good, s) else s.memReadWord wa
          if x.1 = MemRead.lasting then x.2
          else ({ x.2 with mem := x.2.mem.putEnabled off part }).memWroteWord wa
      s.windowWords' n (off + k) (b.drop k)

/-- The first event of the counter at `off` since it was last read or reset has the record that `f` writes. -/
def State.firstOf (s : State) (off : Nat) (f : State → State) : State :=
  if s.firsts.contains off then s else f { s with firsts := off :: s.firsts }

/-- A denied access (R225); its record holds what MEM_DENY_LAST holds. -/
def State.memDeny (s : State) (id : Ident) (a : Nat) (write : Bool) : State :=
  let s := s.bump F.MEM_DENY_COUNT_COUNT
  let s := ((s.setF F.MEM_DENY_LAST_OFFSET a).setB F.MEM_DENY_LAST_WRITE write).setF F.MEM_DENY_LAST_IDENT id.num
  s.firstOf R.MEM_DENY_COUNT (fun s => s.emit id.num 0x0502 (pw (s.getF F.MEM_DENY_LAST_OFFSET) ++ pb write ++ pw id.num))

/-! ### The words of sinter contexts (R219, R257) -/

/-- The number of the sinter context that owns the word at `a`, where a job has used it: the layout of its words is internal. -/
def State.ctxAt (s : State) (a : Nat) : Option Nat :=
  let n := (a - s.partBase 3) / 40960
  if s.inPart 3 a && (s.snt.ctxs.getD n SntCtx.reset).used then some n else none

/-- The bytes that the word at `a` holds: what its context's job has written there is a free value, which stays until the next job, unless
the word has been written from outside since. -/
def State.storedWord (s : State) (a : Nat) : List Byte :=
  match s.ctxAt a with
  | some n =>
    let x := s.snt.ctxs.getD n SntCtx.reset
    if x.poked.contains a then s.mem.bytes a 4 else leBytes 4 (Config.ctxWord x.fill a)
  | none => s.mem.bytes a 4

/-- The words at `l` are about to be written from outside: those of a used context hold what they showed and count as written. -/
def State.ctxPokes (s : State) : List Nat → State
  | [] => s
  | a :: t =>
    (match s.ctxAt a with
     | some n => { s with
         mem := s.mem.putAll a (s.storedWord a)
         snt := { s.snt with ctxs := updAt (fun x => { x with poked := if x.poked.contains a then x.poked else a :: x.poked }) s.snt.ctxs n } }
     | none => s).ctxPokes t

/-- The words of the `len` bytes at `off` are about to be written from outside. -/
def State.ctxPoke (s : State) (off len : Nat) : State :=
  s.ctxPokes ((List.range ((off + len + 3) / 4 - off / 4)).map (fun k => 4 * (off / 4 + k)))

end Sys2Proof.Machine
end

