-- ==== Sys2Proof/Machine/Operands.lean ====
section
/-!
DEFINITION. Machine/Operands.lean: the access path that every register access takes before its block sees it: rights
(R339), power domains (R340), snapshot latches (R3, R38, R340) and the words that commands share with settings.
-/

namespace Sys2Proof.Machine

/-! ### Power domains (R340, R372) -/

/-- The domain of the register at `off`. The split of AFE, CND, FIR and TRG windows over the quadrants and the block to
domain map are DEDUCED (assumption log): the AFE windows lie in AFEq, the channel windows of CND, FIR and of the edge
detectors in DSPq, MEM in MEM, NET in NET, SNT in XPR, CAL in CAL, and everything else in AON. -/
def domainOf (off : Nat) : Nat :=
  if 0x90200 ≤ off ∧ off < 0x90300 then 1 + past 0x90200 off / 0x40
  else if 0x91000 ≤ off ∧ off < 0x92000 then 1 + past 0x91000 off / 0x400
  else if 0x100000 ≤ off ∧ off < 0x110000 then 5 + past 0x100000 off / 0x4000
  else if 0x200000 ≤ off ∧ off < 0x240000 then 5 + past 0x200000 off / 0x10000
  else if 0x240000 ≤ off ∧ off < 0x300000 then 5 + past 0x240000 off / 0x30000
  else if 0xA2000 ≤ off ∧ off < 0xA4000 then 5 + past 0xA2000 off / 0x800
  else if off / 0x10000 = 5 then 9
  else if off / 0x10000 = 13 then 10
  else if off / 0x10000 = 11 then 12
  else if off / 0x10000 = 8 then 13
  else 0

/-- State of domain `d`: 0 OFF, 1 RETAIN, 2 ON (PWR_DOM_STATE). -/
def State.domState (s : State) (d : Nat) : Nat := getBits (s.rd R.PWR_DOM_STATE) (2 * d) 2

/-- Sets it. -/
def State.setDom (s : State) (d n : Nat) : State := s.setF ⟨R.PWR_DOM_STATE, 2 * d, 2⟩ n

/-- Is domain `d` ON? AON has no other state (R372). -/
def State.domOn (s : State) (d : Nat) : Bool := d == 0 || s.domState d == 2

/-- A wake source brings domain `d` back towards ON: PWR_DOM_WAKES counts each wake (R374). It restarts the hold of a domain that is ON,
and one that takes its idle state in the same F-cycle, which a tick stands for, stays ON (R383). -/
def State.wakeDom (s : State) (d : Nat) : State :=
  if s.domOn d then s.worked d
  else if s.pwr.waking.contains d then s
  else if s.pwr.fellAt.getD d none = some s.tick then ((s.setDom d 2).worked d).clkMove s
  else
    let off := s.domState d == 0
    let s := s.bump (F.PWR_DOM_WAKES_COUNT d)
    { s with pwr := { s.pwr with
      waking := s.pwr.waking ++ [d], wakeOff := if off then s.pwr.wakeOff ++ [d] else s.pwr.wakeOff } }

/-! ### Activities that take effect at once (R411) -/

/-- TIMESTEP, or DELAYCHG of channel `u`, is registered as it takes effect; it ends with the tick. -/
def State.actTakes (s : State) (a u : Nat) : State :=
  if s.mnt.running.any (fun y => y.a == a && y.unit == u) then s
  else { s with mnt := { s.mnt with running := s.mnt.running ++ [⟨a, u, 0, false, false⟩] } }

/-- The activities that took effect in the tick that ends leave the coordinator. -/
def State.actsTaken (s : State) : State :=
  { s with mnt := { s.mnt with running := s.mnt.running.filter (fun y => y.a != actTimestep && y.a != actDelaychg) } }

/-! ### Rights (R339) -/

/-- The identities that accesses of the bus carry. -/
def onBus : Ident → Bool
  | .host0 | .host1 | .netm | .dbg => true
  | _ => false

/-- The identity of function `f`. -/
def fnIdent (f : Nat) : Ident := if f = 0 then .host0 else .host1

/-- The registers whose chapter restricts writes, where HIF_DENY counts the refusal. -/
def State.wrDenied (s : State) (id : Ident) (off : Nat) : Bool :=
  if !onBus id then true
  else if off / 0x10000 = 6 then id != .dbg
  else if off = R.MEM_INJECT_ADDR ∨ off = R.MEM_INJECT_CTRL then id != .host1 && id != .dbg
  else if 0x41020 ≤ off ∧ off < 0x41400 ∧ past 0x41020 off % 0x40 = 0 then !(id == .dbg && s.halted)
  else if off = R.HIF_RX_ROUTE then id != .host1 && id != .dbg
  else if off = R.SNT_ABORT then id == .netm
  else if off = 0xE1FF0 ∨ off = 0xE2FF0 then false
  else if 0xE1000 ≤ off ∧ off < 0xE2000 then id != .host0 && id != .dbg
  else if 0xE2000 ≤ off ∧ off < 0xE3000 then id != .host1 && id != .dbg
  else if off = R.PWR_RESET ∨ off = R.PWR_BLK_RESET then id == .host0
  else if off = R.UPD_DATA then s.getF F.UPD_SESSION_OWNER != id.num
  else false

/-! ### PCI configuration (R334, R335) -/

/-- A base address register of a function: its number, its size in bytes, prefetchable; all are 64 bits wide. -/
structure PciBar where
  number   : Nat
  size     : Nat
  prefetch : Bool
deriving DecidableEq, Repr

/-- What the configuration space of a function says of it. -/
structure PciConfig where
  vendor   : Nat
  device   : Nat
  cls      : Nat                -- class code
  revision : Nat
  bars     : List PciBar
deriving DecidableEq, Repr

/-- The base address registers of each function. -/
def pciBars : List PciBar := [⟨0, 0x800000, false⟩, ⟨2, 0x8000000, true⟩]

/-- Both functions are alike. -/
def pciConfig : PciConfig :=
  { vendor := Config.vendor % 65536, device := 0x3256, cls := 0x118000, revision := Config.stepping % 256, bars := pciBars }

/-- Bytes that base address register `n` maps. -/
def barSize (n : Nat) : Nat := match pciBars.find? (fun b => b.number == n) with | some b => b.size | none => 0

/-- Does the request lie in BAR0? -/
def inBar0 (off : Nat) : Bool := decide (off < barSize 0)

/-- What the access path does with a write. -/
inductive Gate where
  | go | deny | hold | off | behind
deriving DecidableEq, Repr

/-- Is the held access a write? -/
def HeldWrite.isWrite (h : HeldWrite) : Bool := h.kind == .write || h.kind == .key

/-- A write of `id` from before the fence that waits is held. -/
def State.early (s : State) (id : Ident) : Bool :=
  (s.pwr.held ++ s.pwr.behind).any (fun h => h.ident == id && h.isWrite && !h.late)

/-- Does a fence of `id` wait? -/
def State.fencing (s : State) (id : Ident) : Bool := (s.host.fencePend.getD id.num none).isSome

/-- Does a write of `id` wait behind a fence (R343): one is waiting, and an earlier write is still held? -/
def State.fenced (s : State) (id : Ident) : Bool := s.fencing id && s.early id

/-- Is `h` a write of `id` to the block of `off`? -/
def HeldWrite.inBlock (h : HeldWrite) (id : Ident) (off : Nat) : Bool :=
  h.ident == id && h.isWrite && h.off / 0x10000 == off / 0x10000

/-- Does an access of `id` at `off` wait because an earlier write of `id` to the same block waits behind others (R342)? -/
def State.inOrder (s : State) (id : Ident) (off : Nat) : Bool := s.pwr.behind.any (fun h => h.inBlock id off)

/-- Does a write of `id` at `off` wait for earlier ones? -/
def State.waits (s : State) (id : Ident) (off : Nat) : Bool := s.fenced id || s.inOrder id off

/-- Is the write an ARM of a timed apply that waits for earlier writes of its identity (R345)? -/
def State.armWaits (s : State) (id : Ident) (off : Nat) (v : Word) : Bool :=
  off == R.HIF_APPLY_CTRL && v.getLsbD 0 && (s.pwr.held ++ s.pwr.behind).any (fun h => h.ident == id && h.isWrite)

/-- The access goes behind the earlier ones it waits for. -/
def State.goBehind (s : State) (k : HeldKind) (id : Ident) (off : Nat) (v : Word) : State :=
  { s with pwr := { s.pwr with behind := s.pwr.behind ++ [⟨id, off, v, k, s.fencing id⟩] } }

/-- The access is held until its domain is ON. -/
def State.goHeld (s : State) (k : HeldKind) (id : Ident) (off : Nat) (v : Word) : State :=
  { s with pwr := { s.pwr with held := s.pwr.held ++ [⟨id, off, v, k, s.fencing id⟩] } }

/-- Rights first (R339), then fences and the order within a block (R342, R343), then the domain (R340). -/
def State.gateW (s : State) (id : Ident) (off : Nat) : Gate :=
  let d := domainOf off
  if s.wrDenied id off then .deny
  else if s.waits id off then .behind
  else if s.domOn d then .go
  else if d == 10 || d == 12 || d == 13 then .hold
  else .off

/-- Breakpoints of TYPE REG after an access of `id` at `off` has taken effect; `write`: its direction (R429). -/
def State.bpReg (s : State) (id : Ident) (off : Nat) (write : Bool) : State :=
  s.bpNote 1 (fun n => s.getF (F.DBG_BP_VALUE_VALUE n) % 2 ^ 23 == off && (s.getF (F.DBG_BP_SEL_IDMASK n)).testBit id.num &&
    (s.getF (F.DBG_BP_SEL_EVENT n)).testBit (b2n write)) s.tick none

/-- A write of `v` at `off` with the effect `f` passes the access path: denied, held until its domain is ON with the domain
woken, lost with WR_OFF set, or done. A hub that is held in cold reset takes none (R440). -/
def State.gatedAs (s : State) (k : HeldKind) (id : Ident) (off : Nat) (v : Word) (f : State → State) : State :=
  if s.pwr.por then s
  else
    match s.gateW id off with
    | .deny => s.deny
    | .hold => (s.wakeDom (domainOf off)).goHeld k id off v
    | .off => s.setF F.HIF_STATUS_WR_OFF 1
    | .behind => s.goBehind k id off v
    | .go => if s.armWaits id off v then s.goBehind k id off v else (f s).bpReg id off true

/-- A write of `v` at `off` with the effect `f`. -/
def State.gated (s : State) (id : Ident) (off : Nat) (v : Word) (f : State → State) : State := s.gatedAs .write id off v f

/-- May the identity read the bus at all, and is the domain ON (R339, R340)? A read of a domain that is not ON returns 0,
wakes nothing and sets RD_OFF. -/
def State.gatedRead (s : State) (id : Ident) (off : Nat) (f : State → Word × State) : Word × State :=
  if !onBus id then (0#32, s.deny)
  else if s.domOn (domainOf off) then let (v, s) := f s; (v, s.bpReg id off false)
  else (0#32, s.setF F.HIF_STATUS_RD_OFF 1)

/-- Does a read of `id` at `off` wait for an earlier write of `id` to the same block (R342)? -/
def State.readWaits (s : State) (id : Ident) (off : Nat) : Bool := (s.pwr.held ++ s.pwr.behind).any (fun h => h.inBlock id off)

/-- A read that waits goes where the last write that it waits for is. -/
def State.holdRead (s : State) (k : HeldKind) (id : Ident) (off : Nat) : State :=
  let mine := fun (h : HeldWrite) => h.inBlock id off
  match (s.pwr.behind.filter mine).getLast?, (s.pwr.held.filter mine).getLast? with
  | some h, _ => { s with pwr := { s.pwr with behind := s.pwr.behind ++ [⟨id, off, 0#32, k, h.late⟩] } }
  | none, some h => { s with pwr := { s.pwr with held := s.pwr.held ++ [⟨id, off, 0#32, k, h.late⟩] } }
  | none, none => s

/-- A read of `id` at `off` that completes with the effect `f` when it need not wait (R342). A hub in cold reset completes none (R440). -/
def State.reading (s : State) (id : Ident) (off : Nat) (f : State → State) : State :=
  if s.pwr.por then s else if s.readWaits id off then s.holdRead .read id off else f s

/-- A register of fields with `v`, its RW fields as they stand, and the bit of a command set: the word a command row
writes. -/
def State.cmdWord (s : State) (off : Nat) (bits : Word) : Word :=
  match regRow? off with
  | none => bits
  | some r => (s.rd off &&& BitVec.ofNat 32 (maskOf (fun f => f.acc == .rw) r.fields)) ||| bits

/-! ### Snapshot latches (R3, R38, R340) -/

/-- Key of the latch of identity `id` for the member at `off`. -/
def latchKey (id : Ident) (off : Nat) : Nat := 2 ^ 24 * id.num + off

/-- Latches `v` as the value of the member at `off` for `id`. -/
def State.latch (s : State) (id : Ident) (off : Nat) (v : Word) : State :=
  { s with latches := SMap.set 0#32 s.latches (latchKey id off) v }

/-- What `id` reads from the member at `off`. -/
def State.latched (s : State) (id : Ident) (off : Nat) : Word := SMap.get 0#32 s.latches (latchKey id off)

/-- Drops every latch of `id` (R340). -/
def State.clearLatches (s : State) (id : Ident) : State :=
  { s with latches := s.latches.filter (fun e => e.1 / 2 ^ 24 != id.num) }

end Sys2Proof.Machine
end

