-- ==== Sys2Proof/Machine/CalOps.lean ====
section
/-!
DEFINITION. Machine/CalOps.lean: correction factors, results, group outcomes, the calibration store and the pauses of
background calibration (R83, R102-R126).
-/

namespace Sys2Proof.Machine

/-! ### The sample clock in use (R83) -/

/-- f_ref in Hz of a PLL configuration word. -/
def pllRef (cfg : Word) : Nat :=
  if getBits cfg 0 2 = 1 then 156250000
  else match getBits cfg 4 2 with | 0 => 10000000 | 1 => 100000000 | _ => 156250000

/-- f_SCLK of a setting as a fraction (R83). -/
def pllFreq (cfg fb fbint : Word) : Nat × Nat :=
  (pllRef cfg * (getBits fbint 0 10 * 2 ^ 24 + getBits fb 0 24), getBits cfg 8 4 * 2 ^ 24 * getBits cfg 16 8)

/-- f_SCLK in use. -/
def State.sclk (s : State) : Nat × Nat := pllFreq s.conv.cfg s.conv.fb s.conv.fbint

/-- ceil(0.008 x f_SCLK), the length of CALIBRATE and of the spare's calibration (R119, R122). -/
def State.calLen (s : State) : Nat := ceilDiv (8 * s.sclk.1) (1000 * max 1 s.sclk.2)

/-- Low-power mode is committed (R87). -/
def State.lowPwr (s : State) : Bool := s.conv.cfg.getLsbD 24

/-! ### Factors and results (R103, R106, R116) -/

/-- Slot of converter `k` in a mode (R112). -/
def calSlot (low : Bool) (k : Nat) : Nat := (if low then 272 else 0) + k

def State.fac (s : State) (low : Bool) (k : Nat) : Option CalFactor := s.cal.facs.getD (calSlot low k) none

def State.setFac (s : State) (low : Bool) (k : Nat) (f : Option CalFactor) : State :=
  { s with cal := { s.cal with facs := updAt (fun _ => f) s.cal.facs (calSlot low k) } }

def State.grp (s : State) (g : Nat) : CalGroup := s.cal.groups.getD g CalGroup.reset
def State.updGrp (s : State) (g : Nat) (f : CalGroup → CalGroup) : State :=
  { s with cal := { s.cal with groups := updAt f s.cal.groups g } }

/-- Group of converter `k`: sixteen channels to a group, the spare 256 + g (R13). -/
def convGroup (k : Nat) : Nat := if k < 256 then k / 16 else k - 256
/-- Quadrant of a converter. -/
def convQuad (k : Nat) : Nat := convGroup k / 4

/-- ON[q] (R88). -/
def State.quadOn (s : State) (q : Nat) : Bool := (s.rd R.AFE_QPWR).getLsbD (8 + q)

/-- The quadrants that the active image uses. -/
def State.quadsUsed (s : State) : Nat := match s.image with | none => 0 | some m => m.quads

/-- The die temperature of converter `k`, signed 1/16 degree (R115, R452). -/
def State.dieTemp (s : State) (k : Nat) : Int := s.getI (F.PWR_MON_TEMP_TEMP (convQuad k))

/-- CAL_RESULT[k] shows the valid flags and the source and tag of the factors of the committed mode. -/
def State.showFac (s : State) (k : Nat) : State :=
  let s := s.setB (F.CAL_RESULT_VALID_N k) (s.fac false k).isSome
  let s := s.setB (F.CAL_RESULT_VALID_L k) (s.fac true k).isSome
  match s.fac s.lowPwr k with
  | some f => (s.setF (F.CAL_RESULT_SOURCE k) f.src).setF (F.CAL_RESULT_TEMP_TAG k) (ofSigned 16 f.tag)
  | none => (s.setF (F.CAL_RESULT_SOURCE k) 0).setF (F.CAL_RESULT_TEMP_TAG k) 0

/-- Has converter `k` valid factors in the sense of the NOCAL condition (R103)? -/
def State.hasFac (s : State) (k : Nat) : Bool := (s.fac s.lowPwr k).isSome || s.bit (F.CAL_RESULT_LASTING k)

/-- NOCAL_COUNT and every CAL_RESULT row after a change of factors or of the committed mode (R116). -/
def State.showCal (s : State) : State :=
  let s := (List.range 272).foldl State.showFac s
  s.setF F.CAL_STATUS_NOCAL_COUNT
    ((List.range 272).filter (fun k => s.quadsUsed.testBit (convQuad k) && !s.hasFac k)).length

/-- A free value of a correction, in 64 bits with its sign. -/
def State.freeCorr (s : State) : Int × State :=
  let (v, s) := s.free
  (toSigned 64 v, s)

/-- New factors of converter `k`: free values and the quadrant's temperature, with CAL_RESULT as it then stands (R113). -/
def State.learn (s : State) (k src : Nat) : State :=
  let (a, s) := s.freeCorr
  let (b, s) := s.freeCorr
  let f : CalFactor := ⟨a, b, s.dieTemp k, 0, src⟩
  let s := (s.setFac s.lowPwr k (some f)).showFac k
  s.setFac s.lowPwr k (some { f with result := (s.rd (R.CAL_RESULT k)).toNat % 65536 })

/-- The spare of group `g` learns the corrections that match it to the channel it is to serve: free values. -/
def State.learnMatch (s : State) (g : Nat) : State :=
  let (a, s) := s.freeCorr
  let (b, s) := s.freeCorr
  s.updGrp g (fun x => { x with matching := some (a, b) })

/-- One calibration check passed at the second attempt or failed twice (R106, R416 class CAL). -/
def State.calOutcome (s : State) (k : Nat) (lasting : Bool) : State :=
  (if lasting then s.bump F.CAL_LASTING_COUNT else s.bump F.CAL_TRANSIENT_COUNT).mntFault 4 (!lasting) k

/-! ### Spare service (R110, R119, R120, R123) -/

/-- The label the next sample gets; after S_stop labels go on while the run drains. -/
def State.nextLabel (s : State) : Nat := if s.run.running then s.run.next else 0

/-- The spare of `g` begins to serve position `p`. -/
def State.serve (s : State) (g p : Nat) : State :=
  s.updGrp g (fun x => { x with log := (p, s.nextLabel, none) :: x.log.filter (fun e => e.1 != p || e.2.2.isSome) })

/-- The spare of `g` no longer serves position `p`. -/
def State.unserve (s : State) (g p : Nat) : State :=
  s.updGrp g (fun x => { x with
    log := x.log.map (fun e => if e.1 = p ∧ e.2.2 = none then (e.1, e.2.1, some s.nextLabel) else e) })

/-- Does the spare of `g` feed position `p` now? -/
def State.servesNow (s : State) (g p : Nat) : Bool := (s.grp g).log.any (fun e => e.1 == p && e.2.2.isNone)

/-- Is content of channel `c` labelled `n` from the spare, up to `ext` labels after a handback (R123)? -/
def State.spareAt (s : State) (c n ext : Nat) : Bool :=
  (s.grp (c / 16)).log.any (fun e => e.1 == c % 16 && decide (e.2.1 ≤ n) &&
    (match e.2.2 with | none => true | some t => decide (n < t + ext)))

/-- Is content of channel `c` labelled from `lo` to `hi` - 1 in part from the spare? -/
def State.spareIn (s : State) (c lo hi : Nat) : Bool :=
  (s.grp (c / 16)).log.any (fun e => e.1 == c % 16 && decide (e.2.1 < hi) &&
    (match e.2.2 with | none => true | some t => decide (lo < t)))

/-- The spare adopts position `p` of group `g` (R110). One that serves it already goes on without a step (R111). Where the channel is
adopted already, a CALRUN that takes the same outcome again writes no further record (DESIGN CHOICE, assumption log 89). -/
def State.adopt (s : State) (g p : Nat) : State :=
  let same := s.bit (F.CAL_GROUP_STATE_ADOPTED g) && s.getF (F.CAL_GROUP_STATE_ADOPT_POS g) == p
  let s := (s.setF (F.CAL_GROUP_STATE_ADOPTED g) 1).setF (F.CAL_GROUP_STATE_ADOPT_POS g) p
  let s := s.setF (F.CAL_GROUP_STATE_PHASE g) 6
  if same then s
  else
    let s := if s.servesNow g p then s else (s.learnMatch g).serve g p
    s.emit 0 0x0803 (pw (16 * g + p) ++ pw (16 * g + p))

/-- An adoption of group `g` ends. -/
def State.unadopt (s : State) (g : Nat) : State :=
  if s.bit (F.CAL_GROUP_STATE_ADOPTED g) then
    let p := s.getF (F.CAL_GROUP_STATE_ADOPT_POS g)
    ((s.setF (F.CAL_GROUP_STATE_ADOPTED g) 0).setF (F.CAL_GROUP_STATE_ADOPT_POS g) 0).unserve g p
  else s

/-- The spare of `g` has a lasting fault (R108, R122); SOURCE 0 CALRUN, 1 background. -/
def State.spareFault (s : State) (g src : Nat) : State :=
  let s := (s.setF (F.CAL_GROUP_STATE_SPARE_FAULT g) 1).setF (F.CAL_GROUP_STATE_PHASE g) 6
  s.emit 0 0x0806 (pw g ++ pw (256 + g) ++ pw src)

/-- Channel `c` runs degraded (R109). -/
def State.degrade (s : State) (c : Nat) : State :=
  let s := { s with upd := { s.upd with degr := true } }
  (s.setF (F.CAL_RESULT_DEGRADED c) 1).emit 0 0x0802 (pw c ++ pw c)

/-! ### The outcome of CALRUN (R105-R108) -/

/-- Outcome code of test `t` on converter `k`: 1 pass, 2 transient, 3 lasting. -/
def outcomeOf (outcomes : List Nat) (k t : Nat) : Nat :=
  let o := outcomes.getD (5 * k + t) 1
  if o = 2 ∨ o = 3 then o else 1

/-- Did converter `k` fail a test twice? -/
def convFailed (outcomes : List Nat) (k : Nat) : Bool := (List.range 5).any (fun t => outcomeOf outcomes k t == 3)

/-- One test outcome is recorded (R106). -/
def State.calTest (s : State) (outcomes : List Nat) (k t : Nat) : State :=
  let o := outcomeOf outcomes k t
  let s := s.setF ⟨R.CAL_RESULT k, 2 * t, 2⟩ o
  if o = 1 then s else s.calOutcome k (o == 3)

/-- The tests of converter `k` are recorded; a converter that passes takes its new factors. -/
def State.calConv (s : State) (outcomes : List Nat) (k : Nat) : State :=
  let s := (List.range 5).foldl (fun s t => s.calTest outcomes k t) s
  if convFailed outcomes k then s.setF (F.CAL_RESULT_LASTING k) 1
  else ((s.setF (F.CAL_RESULT_LASTING k) 0).setF (F.CAL_RESULT_DEGRADED k) 0).learn k 1

/-- The outcome of group `g` at the commit point (R108). -/
def State.calGroup (s : State) (outcomes : List Nat) (g : Nat) : State :=
  let bad := (List.range 16).filter (fun p => convFailed outcomes (16 * g + p))
  if convFailed outcomes (256 + g) then
    bad.foldl (fun s p => s.degrade (16 * g + p)) ((s.unadopt g).spareFault g 0)
  else
    let s := s.setF (F.CAL_GROUP_STATE_SPARE_FAULT g) 0
    match bad with
    | [] =>
      let s := s.unadopt g
      if s.getF (F.CAL_GROUP_STATE_PHASE g) = 6 then s.setF (F.CAL_GROUP_STATE_PHASE g) 0 else s
    | p0 :: _ =>
      let old := s.getF (F.CAL_GROUP_STATE_ADOPT_POS g)
      let p := if s.bit (F.CAL_GROUP_STATE_ADOPTED g) && bad.contains old then old else p0
      let s := if s.bit (F.CAL_GROUP_STATE_ADOPTED g) && old != p then s.unadopt g else s
      let s := (s.adopt g p).setF (F.CAL_RESULT_DEGRADED (16 * g + p)) 0
      (bad.filter (· != p)).foldl (fun s p => s.degrade (16 * g + p)) s

/-- Mask of the groups with an adoption. -/
def State.adoptedMask (s : State) : Nat := maskNat' ((List.range 16).filter (fun g => s.bit (F.CAL_GROUP_STATE_ADOPTED g)))
where
  /-- The mask of a list of bit numbers. -/
  maskNat' (l : List Nat) : Nat := l.foldl (fun m i => m + 2 ^ i) 0

/-- The joint factor write of CALRUN: factors, results and group outcomes together; CAL_DONE is due. -/
def State.calCommit (s : State) (outcomes : List Nat) : State :=
  let ks := (List.range 272).filter (fun k => s.quadOn (convQuad k))
  let s := ks.foldl (fun s k => s.calConv outcomes k) s
  let s := ((List.range 16).filter (fun g => s.quadOn (g / 4))).foldl (fun s g => s.calGroup outcomes g) s
  let s := s.showCal
  let count := fun o => (ks.flatMap (fun k => (List.range 5).filter (fun t => outcomeOf outcomes k t == o))).length
  let deg := ((List.range 256).filter (fun c => s.bit (F.CAL_RESULT_DEGRADED c))).length
  { s with cal := { s.cal with
    fg := 2
    done := pw 0 ++ pw ks.length ++ pw (count 2) ++ pw (count 3) ++ pw s.adoptedMask ++ pw deg } }

/-! ### The calibration store (R112-R116) -/

def State.calHalf (s : State) (h : Nat) : CalHalf := s.flash.cals.getD h CalHalf.reset
def State.setCalHalf (s : State) (h : Nat) (x : CalHalf) : State :=
  { s with flash := { s.flash with cals := updAt (fun _ => x) s.flash.cals h } }

/-- GEN of a half. -/
def CalHalf.gen (h : CalHalf) : Nat := leAt h.hdr 4 4
/-- ADOPT byte of group `g`. -/
def CalHalf.adopt (h : CalHalf) (g : Nat) : Nat := leAt h.hdr (12 + g) 1
/-- MAGIC of a half (R112). -/
def calMagic : List Byte := [0x43#8, 0x41#8, 0x4C#8, 0x53#8]
/-- Are these 64 bytes with this MAGIC and a good CRC-32 over the first 60? The form of the structures that the flash holds
(R112, R380, R387, R389). -/
def good64 (magic b : List Byte) : Bool :=
  b.length == 64 && sub b 0 4 == magic && leAt b 60 4 == (crc32 (b.take 60)).toNat
/-- Does the header pass: MAGIC, and HCRC over bytes 0 to 59? -/
def CalHalf.ok (h : CalHalf) : Bool := good64 calMagic h.hdr

/-- A byte string with its CRC-32 behind it, little-endian. -/
def withCrc (l : List Byte) : List Byte := l ++ leBytes 4 (crc32 l).toNat

/-- The header of R112. -/
def calHeader (gen count : Nat) (adopt : List Nat) : List Byte :=
  withCrc (calMagic ++ leBytes 4 gen ++ leBytes 2 1 ++ leBytes 2 count ++ adopt.flatMap (leBytes 1) ++ zeros 32)

/-- The record of slot `i` (R113), written under generation `gen`. FACTORS, opaque to software, holds offset and gain. -/
def calRec (gen i : Nat) (f : CalFactor) : List Byte :=
  withCrc (leBytes 2 (i % 272) ++ leBytes 1 (i / 272) ++ leBytes 1 1 ++ leBytes 2 (ofSigned 16 f.tag) ++ zeros 2 ++
    leBytes 4 f.result ++ leBytes 4 gen ++ leBytes 8 (ofSigned 64 f.off) ++ leBytes 8 (ofSigned 64 f.gain) ++ zeros 220)

/-- Is the CRC of a record good? -/
def recGood (b : List Byte) : Bool := b.length == 256 && leAt b 252 4 == (crc32 (b.take 252)).toNat

/-- The factors of a record whose CRC is good, where K and MODE match its slot `i`. -/
def recFactor (i : Nat) (b : List Byte) : Option CalFactor :=
  if leAt b 0 2 = i % 272 ∧ leAt b 2 1 = i / 272 then
    some ⟨toSigned 64 (leAt b 16 8), toSigned 64 (leAt b 24 8), toSigned 16 (leAt b 4 2), leAt b 8 4, 3⟩
  else none

/-- The half with the lower GEN; one whose header does not pass counts as lower. -/
def lowerHalf (ok0 : Bool) (gen0 : Nat) (ok1 : Bool) (gen1 : Nat) : Nat :=
  if ok0 then (if ok1 then (if gen1 < gen0 then 1 else 0) else 1) else 0

/-- The half a CALSAVE writes. -/
def State.calTarget (s : State) : Nat :=
  lowerHalf (s.calHalf 0).ok (s.calHalf 0).gen (s.calHalf 1).ok (s.calHalf 1).gen

/-- ADOPT byte of group `g` (R112). -/
def State.adoptByte (s : State) (g : Nat) : Nat :=
  if s.bit (F.CAL_GROUP_STATE_SPARE_FAULT g) then 0xFE
  else if s.bit (F.CAL_GROUP_STATE_ADOPTED g) then s.getF (F.CAL_GROUP_STATE_ADOPT_POS g) else 0xFF

/-- The valid factors with their slots. -/
def slotsOf : Nat → List (Option CalFactor) → List (Nat × CalFactor)
  | _, [] => []
  | i, some f :: t => (i, f) :: slotsOf (i + 1) t
  | i, none :: t => slotsOf (i + 1) t

/-- CALSAVE is admitted: the snapshot is taken as the bytes that will be written, and the target half's header no longer passes
(R114). -/
def State.calSnap (s : State) : State :=
  let h := s.calTarget
  let other := s.calHalf (1 - h)
  let gen := ((if other.ok then other.gen else 0) + 1) % 2 ^ 32
  let l := slotsOf 0 s.cal.facs
  let snap : CalHalf :=
    { hdr := calHeader gen l.length ((List.range 16).map s.adoptByte), recs := l.map (fun e => (e.1, calRec gen e.1 e.2)) }
  let s := s.setCalHalf h { s.calHalf h with hdr := [] }
  ({ s with cal := { s.cal with snap := some snap } }).setF F.CAL_STATUS_SAVE_BUSY 1

/-- First flash byte of calibration half `h` (R379). -/
def calHalfAddr (h : Nat) : Nat := 0x3200000 + 0x100000 * h

/-- The write and verify of the snapshot end (R114): `fails` of its attempts failed. -/
def State.calSaveEnd (s : State) (fails : Nat) : State :=
  match s.cal.snap with
  | none => s
  | some x =>
    let h := s.calTarget
    let s := { s with cal := { s.cal with snap := none } }
    let s := s.setF F.CAL_STATUS_SAVE_BUSY 0
    if 2 ≤ fails then (s.mntFault 3 false (calHalfAddr h)).setF F.CAL_STATUS_SAVE_ERR 1
    else
      let s := if fails = 1 then s.mntFault 3 true (calHalfAddr h) else s
      s.setCalHalf h x

/-- The half that a cold start selects (R116). -/
def State.calChosen (s : State) : Option Nat :=
  match (s.calHalf 0).ok, (s.calHalf 1).ok with
  | false, false => none
  | true, false => some 0
  | false, true => some 1
  | true, true => some (if (s.calHalf 0).gen < (s.calHalf 1).gen then 1 else 0)

/-- The bytes at a slot. -/
def findSlot (i : Nat) : List (Nat × List Byte) → Option (List Byte)
  | [] => none
  | e :: t => if e.1 = i then some e.2 else findSlot i t

/-- Slot `i` of half `h` is read. A record whose CRC fails has failed twice: it is reported (R416), and holds nothing (R113). -/
def State.readRec (s : State) (h i : Nat) : Option CalFactor × State :=
  match findSlot i (s.calHalf h).recs with
  | none => (none, s)
  | some b => if recGood b then (recFactor i b, s) else (none, s.mntFault 2 false (calHalfAddr h + 4096 + 256 * i))

/-- The record of a slot: of the chosen half, or of the other one where it is absent or its read fails twice (R116). -/
def State.calRecord (s : State) (i : Nat) : Option CalFactor × State :=
  match s.calChosen with
  | none => (none, s)
  | some h =>
    match s.readRec h i with
    | (some f, s) => (some f, s)
    | (none, s) => if (s.calHalf (1 - h)).ok then s.readRec (1 - h) i else (none, s)

/-- Converter `k` takes its record of one mode from the store, where it is usable (R115, R116). -/
def State.loadRec (s : State) (k : Nat) (low : Bool) : State :=
  match s.calRecord (calSlot low k) with
  | (some f, s) =>
    if decide (f.tag - 240 ≤ s.dieTemp k) && decide (s.dieTemp k ≤ f.tag + 240) then
      let s := s.setFac low k (some f)
      if low == s.lowPwr then s.wr (R.CAL_RESULT k) (BitVec.ofNat 32 f.result) else s
    else s
  | (none, s) => s

/-- Converter `k` takes its usable records from the store (R115, R116). -/
def State.loadConv (s : State) (k : Nat) : State := (s.loadRec k false).loadRec k true

/-- The ADOPT entry of group `g` is restored (R116). -/
def State.loadAdopt (s : State) (g : Nat) : State :=
  match s.calChosen with
  | none => s
  | some h =>
    let b := (s.calHalf h).adopt g
    if b = 0xFE then ((s.setF (F.CAL_GROUP_STATE_SPARE_FAULT g) 1).setF (F.CAL_GROUP_STATE_PHASE g) 6).setF
      (F.CAL_RESULT_LASTING (256 + g)) 1
    else if b < 16 then
      let s := ((s.setF (F.CAL_GROUP_STATE_ADOPTED g) 1).setF (F.CAL_GROUP_STATE_ADOPT_POS g) b).setF
        (F.CAL_GROUP_STATE_PHASE g) 6
      (s.learnMatch g).serve g b
    else s

/-- Quadrant `q` is powered: its converters hold the retention copy, or at the first power-on since cold reset what the store
gives (R116). -/
def State.loadQuad (s : State) (q : Nat) : State :=
  let s :=
    if s.cal.seen.testBit q then s
    else
      let ks := (List.range 64).map (· + 64 * q) ++ (List.range 4).map (· + 256 + 4 * q)
      let s := ks.foldl (fun s k => if (s.fac false k).isNone && (s.fac true k).isNone then s.loadConv k else s) s
      let s := ((List.range 4).map (· + 4 * q)).foldl State.loadAdopt s
      { s with cal := { s.cal with seen := s.cal.seen + 2 ^ q } }
  s.showCal

/-- STORE_USED after a cold start: some factors came from the store. -/
def State.storeUsed (s : State) : State :=
  s.setB F.CAL_STATUS_STORE_USED (s.cal.facs.any (fun f => match f with | some x => x.src == 3 | none => false))

/-! ### Pauses of background calibration (R125) -/

/-- Background calibration of group `g` reaches its safe point. -/
def State.pauseBg (s : State) (g : Nat) : State :=
  let pos := s.getF (F.CAL_GROUP_STATE_POS g)
  let paused := fun (s : State) (same : Bool) =>
    (s.setF (F.CAL_GROUP_STATE_PHASE g) 7).updGrp g (fun x => { x with same := same, gliding := none, second := false })
  match s.getF (F.CAL_GROUP_STATE_PHASE g) with
  | 1 => paused s true
  | 2 => s.updGrp g (fun x => { x with pausing := true })
  | 3 => paused (s.unserve g pos) false
  | 4 => paused s false
  | 5 => s.updGrp g (fun x => { x with pausing := true })
  | _ => s

/-- The cycle of group `g` is abandoned (R126): its channel returns to its own converter. -/
def State.dropBg (s : State) (g : Nat) : State :=
  let ph := s.getF (F.CAL_GROUP_STATE_PHASE g)
  let pos := s.getF (F.CAL_GROUP_STATE_POS g)
  let adopted := s.bit (F.CAL_GROUP_STATE_ADOPTED g) && s.getF (F.CAL_GROUP_STATE_ADOPT_POS g) == pos
  let s := if (ph = 2 ∨ ph = 3) ∧ !adopted then s.unserve g pos else s
  let s := s.updGrp g (fun x => { CalGroup.reset with matching := x.matching, log := x.log })
  if ph = 6 then s else s.setF (F.CAL_GROUP_STATE_PHASE g) 0

end Sys2Proof.Machine
end

