-- ==== Sys2Proof/Machine/Arith.lean ====
section
/-!
DEFINITION. Machine/Arith.lean: rounding, saturation and the fixed tables of the signal path (R129, R132, R139, R140, R155,
R158, R164).
-/

namespace Sys2Proof.Machine

/-- convround (R164): `v` divided by 2^sh, halves to even. -/
def convround (v : Int) (sh : Nat) : Int :=
  let d : Int := (2 ^ sh : Nat)
  let q := v / d
  let r := v % d
  if 2 * r < d then q else if d < 2 * r then q + 1 else if q % 2 = 0 then q else q + 1

/-- Does `v` lie outside a signed word of `w` bits? -/
def satOver (w : Nat) (v : Int) : Bool := decide (v < -(2 ^ (w - 1) : Nat)) || decide ((2 ^ (w - 1) : Nat) - 1 < v)

/-- satW (R164). -/
def satW (w : Nat) (v : Int) : Int := max (-(2 ^ (w - 1) : Nat)) (min ((2 ^ (w - 1) : Nat) - 1) v)

/-- Insertion into an ascending list. -/
def insI (x : Int) : List Int → List Int
  | [] => [x]
  | y :: t => if x ≤ y then x :: y :: t else y :: insI x t

/-- Ascending order. -/
def sortI : List Int → List Int
  | [] => []
  | x :: t => insI x (sortI t)

/-- Quotient rounded to the nearest integer, halves away from zero. -/
def roundAway (a : Int) (b : Nat) : Int :=
  if a < 0 then -((2 * -a + b) / (2 * b : Nat) : Int) else (2 * a + b) / (2 * b : Nat)

/-! ### Fixed-point series (R140, R155, R158)

Functions of the tables are summed in units of 2^-96, far below the rounding of any entry. -/

/-- 1.0. -/
def fx1 : Int := (2 ^ 96 : Nat)
/-- A product. -/
def fxMul (a b : Int) : Int := (a * b) / fx1
/-- A quotient of numbers. -/
def fxDiv (a b : Int) : Int := if b = 0 then 0 else (a * fx1) / b

/-- Pi. -/
def fxPi : Int := 248902613312231085230521944622

/-- `n` more terms of the series whose term number `k` is `t` and whose next is t x y / (k + 1)(k + 2), with sign. -/
def trigTerms (y : Int) : Nat → Nat → Int → Int
  | 0, _, _ => 0
  | n + 1, k, t => t + trigTerms y n (k + 2) (-(fxMul t y) / ((k + 1) * (k + 2) : Nat))

/-- sin x for |x| up to 2 pi. -/
def fxSin (x : Int) : Int := trigTerms (fxMul x x) 40 1 x
/-- cos x. -/
def fxCos (x : Int) : Int := trigTerms (fxMul x x) 40 0 fx1

/-- sin(pi x) for any x in units of 2^-96: reduced to one period first. -/
def fxSinPi (x : Int) : Int :=
  let r := (x + fx1) % (2 * fx1) - fx1
  fxSin (fxMul fxPi r)

/-- sinc(x) = sin(pi x) / (pi x). -/
def fxSinc (x : Int) : Int := if x = 0 then fx1 else fxDiv (fxSinPi x) (fxMul fxPi x)

/-- `n` terms of I0 as a series in y = (z / 2)^2. -/
def i0Terms (y : Int) : Nat → Nat → Int → Int
  | 0, _, _ => 0
  | n + 1, k, t => t + i0Terms y n (k + 1) (fxMul t y / ((k + 1) * (k + 1) : Nat))

/-- I0(z) from z^2. -/
def fxI0sq (z2 : Int) : Int := i0Terms (z2 / 4) 40 0 fx1

/-- The window of a Kaiser design: I0(b sqrt(1 - u^2)) / I0(b) from b^2 and u^2. -/
def fxKaiser (b2 u2 : Int) : Int := fxDiv (fxI0sq (fxMul b2 (fx1 - u2))) (fxI0sq b2)

/-- A ratio of numbers. -/
def fxRat (a : Int) (b : Nat) : Int := (a * fx1) / (b : Int)

/-! ### The interpolator (R140) -/

/-- s(x) at x = j - 8 + i / 1024. -/
def interpS (i j : Nat) : Int :=
  let num : Int := ((j : Int) - 8) * 1024 + i
  let x := fxRat num 1024
  let u := fxRat (num * 2) (1024 * 17)
  fxMul (fxSinc x) (fxKaiser (fxRat 121 4) (fxMul u u))

/-- `l` with the entry of the largest value changed by `d` (the first one, where several are equal). -/
def adjustMax (d : Int) (l : List Int) : List Int :=
  let m := l.foldl max (l.headD 0)
  let i := (l.takeWhile (fun x => x != m)).length
  l.take i ++ (match l.drop i with | [] => [] | x :: t => (x + d) :: t)

/-- Row i of the table of R140. -/
def interpRow (i : Nat) : List Int :=
  let ss := (List.range 16).map (interpS i)
  let sum := ss.foldl (· + ·) 0
  let taps := ss.map (fun v => roundAway (65536 * v) sum.toNat)
  adjustMax (65536 - taps.foldl (· + ·) 0) taps

/-- h of R140 for a fraction of 16 bits. -/
def interpTaps (phi : Nat) : List Int :=
  let a := interpRow (phi / 64)
  if phi % 64 = 0 then a
  else List.zipWith (fun x y => x + (y - x) * (phi % 64 : Nat) / 64) a (interpRow (phi / 64 + 1))

/-! ### Halfbands (R158) -/

/-- Odd tap k before the adjustment. -/
def hbRaw (b2 : Int) (k : Int) : Int :=
  let u := fxRat (k * 2) 47
  roundAway (65536 * fxMul (fxSinc (fxRat k 2)) (fxKaiser b2 (fxMul u u))) fx1.toNat

/-- The 47 taps of set `sel`. -/
def hbTaps (sel : Nat) : List Int :=
  let b2 := if sel = 0 then fxRat 64 1 else fxRat 81 4
  let odd := (List.range 47).map (fun (j : Nat) => if j % 2 = 0 then hbRaw b2 ((j : Int) - 23) else (0 : Int))
  let d := (65536 - odd.foldl (· + ·) 0) / 2
  (List.range 47).map (fun (j : Nat) =>
    if j = 23 then 65536
    else if j = 22 ∨ j = 24 then odd.getD j 0 + d
    else odd.getD j 0)

/-! ### The NCO (R155) -/

/-- C(q). -/
def ncoCos (q : Nat) : Int := roundAway (131071 * fxCos (fxMul fxPi (fxRat (2 * (((q : Int) + 2 ^ 19) % 2 ^ 20 - 2 ^ 19)) (2 ^ 20)))) fx1.toNat
/-- S(q). -/
def ncoSin (q : Nat) : Int := roundAway (131071 * fxSin (fxMul fxPi (fxRat (2 * (((q : Int) + 2 ^ 19) % 2 ^ 20 - 2 ^ 19)) (2 ^ 20)))) fx1.toNat

end Sys2Proof.Machine
end

