-- ==== Sys2Proof/Machine/Stalux.lean ====
section
/-!
DEFINITION. Machine/Stalux.lean: the byte layouts of Stalux packets, headers and payloads (R280-R293) and of the Ethernet
frames that carry them (R311-R313).
-/

namespace Sys2Proof.Machine

/-! ### Continuous payload (R280) -/

/-- Number of bytes of one instant with `m` sources of `comps` components of `w` bits. -/
def instBytes (m comps w : Nat) : Nat := (m * comps * w + 7) / 8

/-- The components of one source: its values, or zeros where it is declared (R281). -/
def srcComps (comps : Nat) : SrcVal → List Int
  | .val cs _ => cs
  | .decl _ _ => List.replicate comps 0

/-- One instant packed from bit 0 upward and padded to whole bytes. -/
def instPayload (comps w : Nat) (i : Instant) : List Byte :=
  let cs := i.vals.flatMap (srcComps comps)
  leBytes (instBytes i.vals.length comps w) (packNat (cs.map (fun z => (ofSigned w z, w))))

/-! ### Headers (R282-R285) -/

/-- Anchor layout of TAIL (R284): anchor SN, its time and FIRST_SN. -/
def anchorTail (sn t firstSn : Nat) : List Byte :=
  leBytes 4 (ofSigned 32 ((sn : Int) - firstSn)) ++ leBytes 6 (tSec t) ++ leBytes 4 (tNs t) ++ leBytes 2 (tFrac t)

/-- Geyser layout of TAIL (R284). -/
def geyserTail (capId chan winLen pre byteOff : Nat) : List Byte :=
  leBytes 2 capId ++ leBytes 2 chan ++ leBytes 4 winLen ++ leBytes 4 pre ++ leBytes 4 byteOff

/-- The v2 or v3 header (R282). -/
def header2 (p : Packet) (seq produced delivered declared flags : Nat) : List Byte :=
  leBytes 1 p.ver ++ leBytes 1 p.kind ++ leBytes 2 p.hubId ++ leBytes 1 p.stream ++ leBytes 1 p.quality ++
  leBytes 2 flags ++ leBytes 4 seq ++ leBytes 2 p.epoch ++ leBytes 2 p.count ++ leBytes 8 p.firstSn ++
  leBytes 8 produced ++ leBytes 8 delivered ++ leBytes 8 declared ++ padTo 16 p.tail

/-- Flags bits 0-2 and 5 (R285). -/
def v1Flags (flags : Nat) : Nat := flags % 8 + flags / 32 % 2 * 32

/-- The v1 header (R285). -/
def header1 (p : Packet) (seq produced delivered declared flags : Nat) : List Byte :=
  leBytes 1 1 ++ leBytes 1 (p.tbSel + 16 * p.kind) ++ leBytes 2 p.hubId ++ leBytes 1 p.stream ++
  leBytes 1 (v1Flags flags) ++ leBytes 2 p.count ++ leBytes 4 seq ++ leBytes 6 p.firstSn ++ zeros 2 ++
  leBytes 4 p.tbSec ++ leBytes 4 (p.tbNs % 2 ^ 30) ++ zeros 4 ++
  leBytes 8 produced ++ leBytes 8 delivered ++ leBytes 8 declared ++ zeros 8

/-- Header and payload with the sequence number, the counters and the flags of its sending. -/
def staluxBytes (p : Packet) (seq produced delivered declared flags : Nat) : List Byte :=
  (if p.ver = 1 then header1 else header2) p seq produced delivered declared flags ++ p.payload

/-- Bytes of Stalux header and payload. -/
def Packet.len (p : Packet) : Nat := 64 + p.payload.length

/-- Lines of the stored frame: prefix, header, payload padded to lines (R234). -/
def Packet.lines (p : Packet) : Nat := 1 + (p.len + 63) / 64

/-- Words of credit the stored frame costs (R233). -/
def Packet.words (p : Packet) : Nat := 16 * p.lines

/-- The GAP payload (R287). -/
def gapPayload (first length cause srcKind cap nsrc stream sources : Nat) : List Byte :=
  leBytes 8 first ++ leBytes 8 length ++ leBytes 8 (length * nsrc) ++ leBytes 1 cause ++ leBytes 1 srcKind ++
  leBytes 2 cap ++ leBytes 2 nsrc ++ leBytes 1 stream ++ zeros 1 ++ leBytes 32 sources

/-- The END payload (R290). -/
def endPayload (reason ver stream frames lastSn produced delivered declared gaps : Nat) : List Byte :=
  leBytes 1 reason ++ leBytes 1 ver ++ leBytes 1 stream ++ zeros 1 ++ leBytes 4 frames ++ leBytes 8 lastSn ++
  leBytes 8 produced ++ leBytes 8 delivered ++ leBytes 8 declared ++ leBytes 4 gaps ++ zeros 4

/-- The MARK payload (R291). -/
def markPayload (m : Mark) : List Byte :=
  leBytes 8 m.sn ++ leBytes 6 (tSec m.t) ++ leBytes 2 m.epoch ++ leBytes 4 (tNs m.t) ++ leBytes 2 (tFrac m.t) ++
  leBytes 1 m.cls ++ zeros 1

/-- The ANCHOR payload (R293). -/
def anchorPayload (a : Anchor) (t : Nat) : List Byte :=
  leBytes 8 a.sn ++ leBytes 6 (tSec t) ++ leBytes 2 a.epoch ++ leBytes 4 (tNs t) ++ leBytes 2 (tFrac t) ++ zeros 2 ++
  leBytes 4 (ofSigned 32 a.res) ++ zeros 4

/-! ### Stored frames (R234, R312) -/

/-- Words as little-endian 32-bit words of a prefix line. -/
def prefixLine (p : Packet) (psum : Nat) : List Byte :=
  padTo 64 (leBytes 4 (p.len + p.stream * 2 ^ 14) ++ leBytes 4 (b2n p.ipv6) ++ leBytes 4 (p.dstUdp + p.srcUdp * 2 ^ 16) ++
    wordsLe p.dstIp ++ leBytes 4 psum)

/-- The stored form of a frame: prefix, header and payload zero-padded to lines. Bytes 8-11 of the header are written at
the sending (R313) and stand as zero here; the counters are those known at the build. -/
def storedFrame (p : Packet) (produced delivered declared : Nat) : List Byte :=
  let b := staluxBytes p 0 produced delivered declared p.flags
  prefixLine p (fold16 (sum16 b)) ++ pad64 b

/-! ### Ethernet frames (R311, R313) -/

/-- The MAC address held in a HI and LO register pair. -/
def State.macBytes (s : State) (hi lo : Nat) : List Byte := beBytes 2 (s.rd hi).toNat ++ beBytes 4 (s.rd lo).toNat

/-- The IPv6 address of port `p`. -/
def State.ip6Bytes (s : State) (p : Nat) : List Byte := wordsBe ((List.range 4).map (fun i => s.rd (R.NET_IP6 p i)))

/-- The 802.1Q tag of port `p`, if it tags. -/
def State.vlanTag (s : State) (p : Nat) : List Byte :=
  if s.bit (F.NET_VLAN_EN p) then
    beBytes 2 0x8100 ++ beBytes 2 (s.getF (F.NET_VLAN_PCP p) * 2 ^ 13 + s.getF (F.NET_VLAN_VID p))
  else []

/-- DSCP of class `k` on port `p`. -/
def State.dscp (s : State) (p k : Nat) : Nat := getBits (s.rd (R.NET_DSCP p)) (8 * k) 6

/-- UDP header and payload with their checksum over `pseudo`, the sum of the pseudo-header, and `sum`, that of the payload; 0 where none
is carried. A sum that comes out as 0 is sent as 0xFFFF (RFC 768). -/
def udpBytes (src dst : Nat) (payload : List Byte) (sum pseudo : Nat) (useCs : Bool) : List Byte :=
  let len := 8 + payload.length
  let hdr := beBytes 2 src ++ beBytes 2 dst ++ beBytes 2 len
  let c := cksum (pseudo + 17 + len + sum16 hdr + sum)
  hdr ++ beBytes 2 (if useCs then (if c = 0 then 65535 else c) else 0) ++ payload

/-- An IPv4 packet carrying UDP. -/
def ip4Bytes (dscp ttl : Nat) (src dst : List Byte) (sp dp : Nat) (payload : List Byte) (sum : Nat) (useCs : Bool) : List Byte :=
  let udp := udpBytes sp dp payload sum (sum16 src + sum16 dst) useCs
  let h1 := [0x45#8] ++ beBytes 1 (dscp * 4) ++ beBytes 2 (20 + udp.length) ++ beBytes 2 0 ++ beBytes 2 0x4000 ++
    beBytes 1 ttl ++ beBytes 1 17
  let c := cksum (sum16 h1 + sum16 src + sum16 dst)
  h1 ++ beBytes 2 c ++ src ++ dst ++ udp

/-- An IPv6 packet carrying UDP; the checksum is always carried (R313). -/
def ip6Pkt (dscp hop : Nat) (src dst : List Byte) (sp dp : Nat) (payload : List Byte) (sum : Nat) : List Byte :=
  let udp := udpBytes sp dp payload sum (sum16 src + sum16 dst) true
  beBytes 4 (6 * 2 ^ 28 + dscp * 2 ^ 22) ++ beBytes 2 udp.length ++ beBytes 1 17 ++ beBytes 1 hop ++ src ++ dst ++ udp

/-- A whole frame: MAC header, tag, EtherType, network packet, padding to the 64-byte minimum and FCS. -/
def etherFrame (dst src tag : List Byte) (etype : Nat) (pkt : List Byte) : List Byte :=
  let b := padTo 60 (dst ++ src ++ tag ++ beBytes 2 etype ++ pkt)
  b ++ leBytes 4 (crc32 b).toNat

/-- The sum that the UDP checksum of a sent frame covers (R313): PSUM, with what the transmitter wrote into the stored header and
payload `b` to make `sent` of them. -/
def psumSent (psum : Nat) (b sent : List Byte) : Nat := psum + sum16 sent + (65535 - fold16 (sum16 b))

/-- The frame of a stream packet of class `k` leaving port `p` (R311): `pfx` is the stored prefix line (R312), `b` the stored header and
payload and `sent` what is sent of them. -/
def State.streamFrame (s : State) (p k : Nat) (pfx b sent : List Byte) : List Byte :=
  let w := fun (i : Nat) => leAt pfx (4 * i) 4
  let dst := s.macBytes (R.NET_NEXTHOP_HI p) (R.NET_NEXTHOP_LO p)
  let src := s.macBytes (R.NET_MAC_HI p) (R.NET_MAC_LO p)
  let ttl := s.getF (F.NET_IPHDR_TTL p)
  let sum := psumSent (w 7) b sent
  let dest := fun (n : Nat) => wordsBe ((List.range n).map (fun i => lo32 (w (3 + i))))
  if w 1 % 2 = 1 then
    etherFrame dst src (s.vlanTag p) 0x86DD
      (ip6Pkt (s.dscp p k) ttl (s.ip6Bytes p) (dest 4) (w 2 / 2 ^ 16) (w 2 % 2 ^ 16) sent sum)
  else
    etherFrame dst src (s.vlanTag p) 0x0800
      (ip4Bytes (s.dscp p k) ttl (beBytes 4 (s.rd (R.NET_IP4 p)).toNat) (dest 1) (w 2 / 2 ^ 16) (w 2 % 2 ^ 16) sent sum
        (s.bit (F.NET_IPHDR_CSUM4 p)))

end Sys2Proof.Machine
end

