-- ==== Sys2Proof/Machine/StreamOps.lean ====
section
/-!
DEFINITION. Machine/StreamOps.lean: the operations that streams and frame queues share: what a stream's sources are,
declaring source-samples, GAP packets, committing packets to a frame queue, discarding them, and the counters that a
packet carries when it is sent (R20-R31, R233-R238, R286-R294, R302).
-/

namespace Sys2Proof.Machine

/-- Gap causes as R287 codes them. -/
def causeSettle : Nat := 0
def causeLink : Nat := 1
def causeMem : Nat := 2
def causeHalt : Nat := 3
def causeReform : Nat := 4
def causeStop : Nat := 5

/-- The numbers of the bits set in a mask of 32-bit words, ascending. -/
def maskList (ws : List Word) : List Nat :=
  (List.range (32 * ws.length)).filter (fun i => (ws.getD (i / 32) 0#32).getLsbD (i % 32))

/-- The mask, as one number, of a list of bit numbers. -/
def maskNat (l : List Nat) : Nat := l.foldl (fun m i => m ||| 2 ^ i) 0

/-! ### Stream definitions (R278) -/

def State.str (s : State) (i : Nat) : StreamState := s.strs.getD i StreamState.reset

def State.updStr (s : State) (i : Nat) (f : StreamState → StreamState) : State := { s with strs := updAt f s.strs i }

/-- Kind of stream `i`: 0 undefined, 1 TAP, 2 CHAIN, 3 BEAM, 4 GEYSER, 5 FUMAROLE. -/
def State.strKind (s : State) (i : Nat) : Nat := s.getF (F.STR_DEF_KIND i)

/-- TAP, CHAIN and BEAM streams are continuous. -/
def State.strCont (s : State) (i : Nat) : Bool := s.strKind i == 1 || s.strKind i == 2 || s.strKind i == 3

/-- Sources of stream `i`, ascending. -/
def State.strSrc (s : State) (i : Nat) : List Nat := maskList ((List.range 8).map (fun k => s.rd (R.STR_SRC i k)))

def ChanDef.none : ChanDef :=
  { stages := [], alloc := 0, dec := 1, nco := false, width := 3, cfg := 0#32, shift := 0#32, fw := 0#32, off := 0, coefs := [] }

/-- What the active image fixes for channel `c` (R57). -/
def State.chanDef (s : State) (c : Nat) : ChanDef :=
  match s.image with
  | none => ChanDef.none
  | some m => m.chans.getD c ChanDef.none

/-- Members of beam `b`. -/
def State.beamMembers (s : State) (b : Nat) : List Nat := maskList ((List.range 8).map (fun k => s.rd (R.BMF_MEMBERS b k)))

/-- Decimation of stream `i` (R281): 1 for TAP, what the image fixes for the sources of CHAIN and BEAM. -/
def State.strD (s : State) (i : Nat) : Nat :=
  match s.strKind i with
  | 2 => (s.chanDef ((s.strSrc i).headD 0)).dec
  | 3 => (s.chanDef ((s.beamMembers ((s.strSrc i).headD 0)).headD 0)).dec
  | _ => 1

/-- Components of one source (R280). -/
def State.strComps (s : State) (i : Nat) : Nat :=
  match s.strKind i with
  | 2 => if (s.chanDef ((s.strSrc i).headD 0)).nco then 2 else 1
  | 3 => 2
  | _ => 1

/-- Width of one component (R280). -/
def State.strW (s : State) (i : Nat) : Nat :=
  match s.strKind i with
  | 2 => 4 * ((s.chanDef ((s.strSrc i).headD 0)).width + 1)
  | _ => 16

/-- Frame queue of stream `i` on port `p`: n = 4p + k (R233). -/
def State.fqOn (s : State) (i p : Nat) : Nat := 4 * p + s.getF (F.STR_DEF_CLASS i)

/-- Its queue on its current port. -/
def State.fqOf (s : State) (i : Nat) : Nat := s.fqOn i (s.getF (F.STR_STATUS_PORT_NOW i))

/-- LINK_UP of port `p`. -/
def State.linkUp (s : State) (p : Nat) : Bool := s.bit (F.NET_PORT_STATUS_LINK_UP p)

/-! ### Declared runs (R29, R288) -/

/-- Takes out of `l` the runs that touch `r` (same source, cause and capture, instants `d` apart) and joins them to it. -/
def absorb (d : Nat) : GapRun → List GapRun → GapRun × List GapRun
  | r, [] => (r, [])
  | r, x :: t =>
    if x.src = r.src ∧ x.cause = r.cause ∧ x.cap = r.cap ∧ x.last + d = r.first then
      absorb d { r with first := x.first } t
    else if x.src = r.src ∧ x.cause = r.cause ∧ x.cap = r.cap ∧ r.last + d = x.first then
      absorb d { r with last := x.last } t
    else
      let (r', t') := absorb d r t
      (r', x :: t')

/-- Adds a declared run to a list; runs that touch form one (R29). -/
def addRun (d : Nat) (r : GapRun) (l : List GapRun) : List GapRun :=
  let (r', l') := absorb d r l
  l' ++ [r']

/-- Samples of a run. -/
def GapRun.len (r : GapRun) (d : Nat) : Nat := (r.last - r.first) / d + 1

/-- Stream `i` declares a run of source-samples: they have met their fate (R22). A stream that is not enabled in the run
produces nothing (R278). -/
def State.declare (s : State) (i : Nat) (r : GapRun) : State :=
  let d := s.strD i
  s.updStr i (fun x =>
    if x.active then
      { x with
        runs := addRun d r x.runs, declared := x.declared + r.len d
        lossy := x.lossy || r.cause == causeLink || r.cause == causeMem }
    else x)

/-- The source-samples of a packet as runs declared under `cause`. -/
def contentRuns (cause cap : Nat) (content : List (Nat × List Nat)) : List GapRun :=
  content.flatMap (fun (sn, srcs) => srcs.map (fun j => ⟨j, cause, cap, sn, sn⟩))

/-- Does `a` go ahead of `b` among GAP packets: by first SN, then by cause (R288)? -/
def runBefore (a b : GapRun) : Bool := decide (a.first < b.first) || (a.first == b.first && decide (a.cause ≤ b.cause))

/-- Insertion into the order of R288. -/
def insRun (r : GapRun) : List GapRun → List GapRun
  | [] => [r]
  | x :: t => if runBefore r x then r :: x :: t else x :: insRun r t

/-- Runs in the order of R288. -/
def sortRuns : List GapRun → List GapRun
  | [] => []
  | r :: t => insRun r (sortRuns t)

/-- Runs that start and end together under one cause share one packet (R288): groups in order, with their sources. -/
def groupRuns : List GapRun → List (GapRun × List GapRun)
  | [] => []
  | r :: t =>
    let g := groupRuns t
    let same := fun (x : GapRun × List GapRun) =>
      x.1.first == r.first && x.1.last == r.last && x.1.cause == r.cause && x.1.cap == r.cap
    if g.any same then g.map (fun x => if same x then (x.1, r :: x.2) else x) else (r, [r]) :: g

/-! ### Anchors (R285, R292-R294) -/

/-- The newest anchor whose SN is at or before `n`. -/
def State.anchorFor (s : State) (n : Nat) : Option Anchor := s.time.anchors.find? (fun a => decide (a.sn ≤ n))

/-- Time of legacy time base `tb` at the sampling instant of `n`, reckoned from anchor `a`, as seconds and nanoseconds truncated
to 1 ns (R285). -/
def State.tbTime (s : State) (tb n : Nat) (a : Anchor) : Nat × Nat :=
  let v := a.tb.getD tb (0, 0, 0)
  let ns := (((v.1 * 10 ^ 9 + v.2.1) * 2 ^ 24 + v.2.2) * 2 ^ 49 + (n - a.sn) * s.sperRaw * s.getF (F.TIME_TB_INCR_INCR tb)) / 2 ^ 73
  (ns / 10 ^ 9 % 2 ^ 32, ns % 10 ^ 9)

/-- Does stream `i` carry legacy time in its anchors (R294)? -/
def State.legacyOn (s : State) (i : Nat) : Bool := s.bit (F.STR_CTRL_LEGACY i) && (s.str i).ver == 2

/-- The time a stream's anchor carries: corrected time, or the legacy time base at the anchor's SN with FRAC 0 (R294). -/
def State.anchorTime (s : State) (i : Nat) (a : Anchor) : Nat :=
  if s.legacyOn i then
    let tb := s.tbTime (s.getF (F.STR_CTRL_TB i)) a.sn a
    mkTime tb.1 tb.2 0
  else a.t

/-- Legacy seconds and nanoseconds at the sampling instant of `n` (R285), from the newest anchor at or before it. -/
def State.legacyAt (s : State) (tb n : Nat) : Nat × Nat :=
  match s.anchorFor n with
  | none => (0, 0)
  | some a => s.tbTime tb n a

/-! ### Packets -/

/-- TIME_EPOCH of a packet of stream `i` whose content ends with `last`: that of its current anchor (R292). The content of the
fumarole stream has no SN; its current anchor is the newest. -/
def State.pktEpoch (s : State) (i last : Nat) : Nat :=
  match if s.strKind i = 5 then s.time.anchors.head? else s.anchorFor last with
  | some a => a.epoch
  | none => s.epoch

/-- A packet of stream `i` as its build begins: version, identifiers, quality, suspect flag, epoch and destination (R282, R305).
Its content runs from `firstSn` to `last`. -/
def State.newPkt (s : State) (i kind firstSn last : Nat) : Packet :=
  let st := s.str i
  { stream := i, kind := kind, ver := st.ver, hubId := st.hubId, quality := s.getF F.TIME_QUALITY_QUALITY,
    flags := if s.bit F.NET_TS_STATUS_SUSPECT then 32 else 0,
    epoch := s.pktEpoch i last, count := 0, firstSn := firstSn, tail := zeros 16, payload := [],
    tbSel := s.getF (F.STR_CTRL_TB i), tbSec := (s.legacyAt (s.getF (F.STR_CTRL_TB i)) firstSn).1,
    tbNs := (s.legacyAt (s.getF (F.STR_CTRL_TB i)) firstSn).2,
    ipv6 := s.bit (F.STR_DEF_IPV6 i), dstUdp := s.getF (F.STR_DST_PORT_DST_UDP i),
    srcUdp := s.getF (F.STR_DST_PORT_SRC_UDP i),
    dstIp := if s.bit (F.STR_DEF_IPV6 i) then (List.range 4).map (fun k => s.rd (R.STR_DST_IP i k))
      else [s.rd (R.STR_DST_IP i 0), 0#32, 0#32, 0#32],
    posEnd := st.pos, declIn := 0, okIn := 0, content := [], held := [], cap := 0, runs := [], anchor := none, reason := 0,
    frozen := none, stored := true, dead := false, late := false }

/-- SRC_KIND of R287. -/
def State.srcKind (s : State) (i : Nat) : Nat :=
  match s.strKind i with | 3 => 1 | 4 => 2 | 5 => 3 | _ => 0

/-- The GAP packet of one group of runs (R287). -/
def State.gapPkt (s : State) (i : Nat) (g : GapRun × List GapRun) : Packet :=
  let srcs := g.2.map (·.src)
  { s.newPkt i 1 g.1.first g.1.last with
    payload := gapPayload g.1.first (g.1.len (s.strD i)) g.1.cause (s.srcKind i) g.1.cap srcs.length i (maskNat srcs)
    cap := g.1.cap, runs := g.2 }

/-- The MARK packet of a mark (R291). -/
def State.markPkt (s : State) (i : Nat) (m : Mark) : Packet := { s.newPkt i 3 m.sn m.sn with payload := markPayload m }

/-- The flags of a packet that carries an anchor of stream `i`: LEGACY where its time is a legacy one (R294). -/
def State.legacyFlag (s : State) (i : Nat) : Nat := if s.legacyOn i then 64 else 0

/-- The ANCHOR packet of an anchor (R293, R294). -/
def State.anchorPkt (s : State) (i : Nat) (a : Anchor) : Packet :=
  let p := s.newPkt i 4 a.sn a.sn
  { p with
    flags := p.flags + s.legacyFlag i, payload := anchorPayload a (s.anchorTime i a), epoch := a.epoch
    anchor := some (a.sn, a.epoch) }

/-- DATA packet `p` of stream `i` with anchor `a` in its TAIL (R284, R292). -/
def State.withAnchor (s : State) (i : Nat) (p : Packet) (a : Anchor) : Packet :=
  { p with
    flags := p.flags + 128 + s.legacyFlag i, tail := anchorTail a.sn (s.anchorTime i a) p.firstSn, epoch := a.epoch
    anchor := some (a.sn, a.epoch) }

/-! ### Frame queues (R233-R238) -/

def State.fq (s : State) (n : Nat) : List Packet := s.fqs.getD n []

def State.updFq (s : State) (n : Nat) (f : List Packet → List Packet) : State := { s with fqs := updAt f s.fqs n }

/-- Usable lines as FLW_FQ_LIMIT has them, or the full size where it is 0. -/
def State.fqSet (s : State) (n : Nat) : Nat :=
  if s.getF (F.FLW_FQ_LIMIT_LINES n) = 0 then s.getF (F.FLW_FQ_SIZE_LINES n) else s.getF (F.FLW_FQ_LIMIT_LINES n)

/-- Usable lines in force: those that the unread frames were written over, where FLW_FQ_LIMIT has been written since (DESIGN CHOICE,
assumption log 82). -/
def State.fqUsable (s : State) (n : Nat) : Nat := (s.fqHeld.getD n none).getD (s.fqSet n)

/-- May the producer begin to write `words` words (R235)? Its credit covers them, or the queue is empty. -/
def State.fqRoom (s : State) (n words : Nat) : Bool :=
  let c := s.getF (F.FLW_FQ_CREDIT_WORDS n)
  let u := s.fqUsable n
  decide (0 < u) && (decide (words ≤ c) || c == 16 * u)

/-- Writes the lines of a stored frame from WR on. -/
def State.fqLines (s : State) (n : Nat) : Nat → List Byte → State
  | 0, _ => s
  | k + 1, b =>
    let wr := s.getF (F.FLW_FQ_WR_WR n)
    let u := s.fqUsable n
    let s := s.memWrite (64 * (s.getF (F.FLW_FQ_BASE_LINE n) + wr)) (padTo 64 (b.take 64))
    (s.setF (F.FLW_FQ_WR_WR n) ((wr + 1) % u)).fqLines n k (b.drop 64)

/-- The line time of packets at the rate that STREAM reserves, in ticks (R60): header, payload and the bytes around them. -/
def State.lineTicks (s : State) (i : Nat) (l : List Packet) : Nat :=
  let around := fun (p : Packet) => 38 + (if p.ipv6 then 48 else 28) + 4 * b2n (s.bit (F.NET_VLAN_EN (s.getF (F.STR_STATUS_PORT_NOW i))))
  let rate := s.getF (F.STR_RATE_MBPS i)
  if rate = 0 then 0 else ceilDiv (4000 * (l.map (fun p => 64 + p.payload.length + around p)).foldl (· + ·) 0) rate

/-- The reserved rate of stream `i` lets a further packet leave for its queue (R60). -/
def State.paced (s : State) (i : Nat) : Bool := decide ((s.str i).paceAt ≤ s.tick)

/-- The packets `l` of stream `i` use up its reserved rate from now on (R60). Only GEYSER and FUMAROLE streams have one. -/
def State.pace (s : State) (i : Nat) (l : List Packet) : State :=
  if s.strKind i = 4 ∨ s.strKind i = 5 then
    s.updStr i (fun x => { x with paceAt := max x.paceAt s.tick + s.lineTicks i l })
  else s

/-- Commits one packet: REWIND marks its first line, WR advances line by line, and COMMIT is set to WR (R235). -/
def State.fqCommit (s : State) (n : Nat) (p : Packet) : State :=
  let st := s.str p.stream
  let dc := st.declPos + p.declIn
  let s := s.setF (F.FLW_FQ_REWIND_REWIND n) (s.getF (F.FLW_FQ_WR_WR n))
  let s := s.fqLines n p.lines (storedFrame p p.posEnd (p.posEnd - dc) dc)
  let s := s.setF (F.FLW_FQ_COMMIT_COMMIT n) (s.getF (F.FLW_FQ_WR_WR n))
  let s := s.setF (F.FLW_FQ_REWIND_REWIND n) (s.getF (F.FLW_FQ_WR_WR n))
  let s := s.setF (F.FLW_FQ_CREDIT_WORDS n) (s.getF (F.FLW_FQ_CREDIT_WORDS n) - p.words)
  let s := s.bump (F.FLW_FQ_FRAMES_COUNT n)
  s.updFq n (· ++ [p])

/-- Commits packets one after another. -/
def State.fqCommitAll (s : State) (n : Nat) : List Packet → State
  | [] => s
  | p :: t => (s.fqCommit n p).fqCommitAll n t

/-- RD moves past a frame and its credit returns (R238). A packet without lines in the queue frees none. -/
def State.fqRelease (s : State) (n : Nat) (p : Packet) : State :=
  if p.stored then
    let u := s.fqUsable n
    let s := s.setF (F.FLW_FQ_RD_RD n) ((s.getF (F.FLW_FQ_RD_RD n) + p.lines) % (if u = 0 then 1 else u))
    s.setF (F.FLW_FQ_CREDIT_WORDS n) (min (s.getF (F.FLW_FQ_CREDIT_WORDS n) + p.words) (16 * u))
  else s

/-- The frame of queue `n` that its port is sending. -/
def State.sendingOf (s : State) (n : Nat) : Option Packet :=
  match (s.ports.getD (n / 4) NetPort.reset).sending with
  | some (.packet k p _ _) => if k = n % 4 then some p else none
  | _ => none

/-- Does queue `n` hold lines that are not read: of a queued frame, or of the one being sent? -/
def State.fqHolds (s : State) (n : Nat) : Bool := (s.sendingOf n).any (·.stored) || (s.fq n).any (·.stored)

/-- The pointers of queue `n` stand at its base with the credit of its usable size, which is that of FLW_FQ_LIMIT now. -/
def State.fqFresh (s : State) (n : Nat) : State :=
  let s := { s with fqHeld := updAt (fun _ => none) s.fqHeld n }
  let s := (s.setF (F.FLW_FQ_RD_RD n) 0).setF (F.FLW_FQ_COMMIT_COMMIT n) 0
  let s := (s.setF (F.FLW_FQ_REWIND_REWIND n) 0).setF (F.FLW_FQ_WR_WR n) 0
  s.setF (F.FLW_FQ_CREDIT_WORDS n) (16 * s.fqSet n)

/-- RD passes the discarded frames that no unread frame stands in front of (R233, R238). A limit written over unread frames comes into
force as the last of them goes. -/
def State.fqTrim (s : State) (n : Nat) : State :=
  if (s.sendingOf n).any (·.stored) then s
  else
    let gone := (s.fq n).takeWhile (·.dead)
    let s := gone.foldl (fun s p => s.fqRelease n p) (s.updFq n (fun l => l.dropWhile (·.dead)))
    if (s.fqHeld.getD n none).isSome && !s.fqHolds n then s.fqFresh n else s

/-- FLW_FQ_LIMIT of queue `n` has been written; `u` lines were in force. -/
def State.fqLimited (s : State) (n u : Nat) : State :=
  if s.fqHolds n then { s with fqHeld := updAt (fun _ => some u) s.fqHeld n } else s.fqFresh n

/-- The frames of queue `n` that are not discarded. -/
def State.fqAlive (s : State) (n : Nat) : List Packet := (s.fq n).filter (fun p => !p.dead)

/-- The frames of stream `i` in its queue, oldest first. -/
def State.queued (s : State) (i : Nat) : List Packet := (s.fqAlive (s.fqOf i)).filter (fun p => p.stream == i)

/-- Those of its run: none that counts as sent already (R304). -/
def State.queuedNow (s : State) (i : Nat) : List Packet := (s.queued i).filter (fun p => p.frozen.isNone)

/-- Words that packets cost together. -/
def wordsOf (l : List Packet) : Nat := l.foldl (fun a p => a + p.words) 0

/-- The larger of the packets, in lines. -/
def maxLines (l : List Packet) : Nat := l.foldl (fun a p => max a p.lines) 0

/-- STR_GAP and STR_END copies go to the fumarole stream where one runs (R30, R299). -/
def State.fumStream (s : State) : Option Nat := (List.range 64).find? (fun i => s.strKind i == 5 && (s.str i).active)

/-- Copies a GAP or END packet of another stream as an event record (R299). -/
def State.copyRec (s : State) (p : Packet) : State :=
  match s.fumStream with
  | none => s
  | some f =>
    if p.stream = f then s
    else if p.kind = 1 then s.emit 0 0x0C01 (toWordsLe 16 p.payload)
    else if p.kind = 2 then s.emit 0 0x0C02 (toWordsLe 12 p.payload)
    else s

def State.copyRecs (s : State) (l : List Packet) : State := l.foldl State.copyRec s

/-! ### Discarding (R246, R252, R302) -/

/-- Packet `q`, which takes no lines of the queue, goes ahead of the first queued frame of its stream for which `before` holds. -/
def State.fqInsert (s : State) (q : Packet) (before : Packet → Bool) : State :=
  let at_ := fun (p : Packet) => p.stream == q.stream && !p.dead && p.frozen.isNone && before p
  s.updFq (s.fqOf q.stream) (fun l => l.takeWhile (fun p => !at_ p) ++ [{ q with stored := false }] ++ l.dropWhile (fun p => !at_ p))

/-- A lost MARK packet waits again: ahead of the queued DATA or FUMAROLE frame it belongs to, or for one to come (R291). -/
def State.loseMark (s : State) (p : Packet) : State :=
  let i := p.stream
  let mine := fun (q : Packet) => (q.kind == 0 || q.kind == 5) &&
    (!s.strCont i || decide (p.firstSn ≤ (q.content.map (·.1)).getLastD 0))
  if (s.queuedNow i).any mine then s.fqInsert p mine
  else s.updStr i (fun x => { x with marks := x.marks ++
      [⟨leAt p.payload 0 8, mkTime (leAt p.payload 8 6) (leAt p.payload 16 4) (leAt p.payload 20 2), leAt p.payload 14 2,
        leAt p.payload 22 1, none⟩] })

/-- A lost ANCHOR packet is due again: ahead of the queued frame it belongs to, or with the next one (R293, R295). -/
def State.loseAnchor (s : State) (p : Packet) : State :=
  let i := p.stream
  let mine := fun (q : Packet) => q.kind == 5 || (q.kind == 0 && q.cap == p.cap)
  if (s.queuedNow i).any mine then s.fqInsert p mine
  else s.updStr i (fun x => { x with
    fresh := true, gey := x.gey.map (fun o => if o.cap = p.cap then { o with anchored := false } else o) })

/-- Stream `i` loses one of its committed packets under `cause`: the content of a DATA or FUMAROLE packet is declared, a GAP
packet's runs, a mark and an anchor wait for another packet, an END packet is due again. One that counts as sent (R304) takes
nothing with it. -/
def State.loseP (s : State) (cause : Nat) (p : Packet) : State :=
  let i := p.stream
  if p.frozen.isSome then s
  else if p.kind = 0 ∨ p.kind = 5 then
    let lost := contentRuns cause p.cap p.content
    let s := lost.foldl (fun s r => s.declare i r) s
    s.updStr i (fun x => { x with settled := x.settled + p.declIn + p.okIn, declPos := x.declPos + p.okIn, fresh := true })
  else if p.kind = 1 then
    let d := s.strD i
    s.updStr i (fun x => { x with runs := p.runs.foldl (fun l r => addRun d r l) x.runs })
  else if p.kind = 2 then s.updStr i (fun x => { x with endQueued := false })
  else if p.kind = 3 then s.loseMark p
  else s.loseAnchor p

def State.loseAll (s : State) (cause : Nat) (l : List Packet) : State := l.foldl (fun s p => s.loseP cause p) s

/-- Does run `r` end before content that frame `p` holds, so that its GAP packet goes ahead of `p` (R288): content that `p` delivers,
or a placeholder declared under another cause? -/
def Packet.endsRun (p : Packet) (r : GapRun) : Bool :=
  p.kind == 2 || ((p.kind == 0 || p.kind == 5) &&
    (p.content.any (fun c => c.2.contains r.src && (r.cap != p.cap || decide (r.last < c.1))) ||
      p.held.any (fun h => h.src == r.src && (r.cap != p.cap || (h.cause != r.cause && decide (r.last < h.first))))))

/-- Does the GAP packet that begins with `r` go ahead of the queued packet `p`: in the order of R288 among GAP packets, else before
MARK, ANCHOR, DATA and END packets? -/
def gapBefore (r : GapRun) (p : Packet) : Bool :=
  p.kind != 1 || (match p.runs.head? with | some x => runBefore r x | none => true)

/-- After a frame of stream `i` is lost with frames of the stream behind it in the queue: the GAP packets of the runs that end
there go ahead of them (R288, R289). -/
def State.lateGaps (s : State) (i : Nat) : State :=
  let q := s.queuedNow i
  let due := (s.str i).runs.filter (fun r => q.any (·.endsRun r))
  let s := s.updStr i (fun x => { x with runs := x.runs.filter (fun r => !due.contains r) })
  (groupRuns (sortRuns due)).foldl (fun s g => s.fqInsert (s.gapPkt i g) (gapBefore g.1)) s

/-- The last anchor that stream `i` carries is `a`, unless one of the packets `later` carries one after it. -/
def State.carries (s : State) (i : Nat) (a : Nat × Nat) (later : List Packet) : State :=
  if later.any (·.anchor.isSome) then s else s.updStr i (fun x => { x with lastAnchor := some a })

/-- The next queued frame of stream `i` takes an anchor, because the frame before it was not delivered (R292, R293). -/
def State.lateAnchor (s : State) (i : Nat) : State :=
  let ahead := (s.queuedNow i).takeWhile (fun q => q.kind != 0 && q.kind != 5)
  match (s.queuedNow i).drop ahead.length with
  | [] => s
  | p :: later =>
    let s := s.updStr i (fun x => { x with fresh := false })
    if p.anchor.isSome || p.ver == 1 || s.strKind i == 4 then s
    else if p.kind = 5 then
      match s.time.anchors.head? with
      | some a => if ahead.any (·.kind == 4) then s else (s.fqInsert (s.anchorPkt i a) (·.kind == 5)).carries i (a.sn, a.epoch) later
      | none => s
    else
      match s.anchorFor ((p.content.map (·.1)).getLastD p.firstSn) with
      | some a =>
        (s.updFq (s.fqOf i) (fun l => l.map (fun x => if x = p then { s.withAnchor i p a with late := true } else x))).carries i
          (a.sn, a.epoch) later
      | none => s

/-- Packet `p`, which its port had taken, is lost under `cause`; what its loss asks of the stream's frames behind it follows. -/
def State.loseSent (s : State) (cause : Nat) (p : Packet) : State :=
  let s := s.loseP cause p
  let s := if p.kind = 0 ∨ p.kind = 1 ∨ p.kind = 5 then s.lateGaps p.stream else s
  if p.kind = 0 ∨ p.kind = 5 then s.lateAnchor p.stream else s

/-- Takes the packets of stream `i` out of queue `n`, but for those that count as sent already, which wait for the link (R304). Their
lines are released as RD comes to them. -/
def State.takeOut (s : State) (i n : Nat) : List Packet × State :=
  let mine := fun (p : Packet) => p.stream == i && p.frozen.isNone
  let out := (s.fqAlive n).filter mine
  let s := s.updFq n (fun l => (l.map (fun p => if mine p then { p with dead := true } else p)).filter (fun p => p.stored || !p.dead))
  (out, s.fqTrim n)

/-! ### The counters a packet carries when it is sent (R23, R287) -/

/-- (PRODUCED, DELIVERED, DECLARED) of packet `p` as it is sent. -/
def State.pktCounters (s : State) (p : Packet) : Nat × Nat × Nat :=
  let st := s.str p.stream
  match p.frozen with
  | some f => f.2
  | none =>
  if p.kind = 0 ∨ p.kind = 5 then
    let dc := st.settled + p.declIn
    (p.posEnd, p.posEnd - dc, dc)
  else if p.kind = 1 then
    let dc := st.gapDecl + leAt p.payload 16 8
    (st.delivered + dc, st.delivered, dc)
  else if p.kind = 2 then (st.produced, st.delivered, st.declared)
  else (st.delivered + st.settled, st.delivered, st.settled)

/-! ### Outputs of hub jobs (R295-R298) -/

/-- The spans of [lo, hi) that no run of `l` (by first label) covers. -/
def holes : Nat → Nat → List GapRun → List (Nat × Nat)
  | lo, hi, [] => if lo < hi then [(lo, hi)] else []
  | lo, hi, r :: t =>
    (if lo < min hi r.first then [(lo, min hi r.first)] else []) ++ holes (max lo (r.last + 1)) hi t

/-- Channel `x`, the first of the output at the head of stream `i`, becomes `y`, or is done. -/
def State.geyNext (s : State) (i : Nat) (y : Option CapChan) : State :=
  s.updStr i (fun st => { st with gey := match st.gey with
    | [] => []
    | o :: t =>
      let chs := match y with | some y => y :: o.chans.drop 1 | none => o.chans.drop 1
      if chs.isEmpty then t else { o with chans := chs } :: t })

/-- The content of `n` declared samples beyond what is sent has passed. -/
def State.geyPass (s : State) (i n : Nat) : State :=
  s.updStr i (fun st => { st with pendDecl := st.pendDecl + n, pos := st.pos + n })

/-- The rest of the first channel of stream `i`'s outputs is not sent: its samples that are in no packet and not declared yet are
declared under `cause` (R250, R298). -/
def State.geyDrop (s : State) (i cause : Nat) : State :=
  match (s.str i).gey with
  | o :: _ =>
    match o.chans with
    | x :: _ =>
      let done := if o.comp then 0 else x.off / o.b
      let s := (holes (o.first + done) (o.first + x.n) (sortRuns x.lost)).foldl
        (fun s z => s.declare i ⟨x.ch, cause, o.cap, z.1, z.2 - 1⟩) s
      (s.geyNext i none).geyPass i (o.p + o.q - done)
    | [] => s.geyNext i none
  | [] => s

/-- Captures of stream `i` that are sent after the one at the head of its outputs. -/
def State.laterCaps (s : State) (i : Nat) : List Nat :=
  (s.trg.caps.filter (fun k => k.stream == i && decide (k.state ≤ 1))).map (·.id) ++ ((s.str i).gey.drop 1).map (·.cap)

/-- Does run `r` precede the next packet of channel `x` of the output `o` in the order of R23 and R288, so that its GAP packet
goes ahead of it? `bs` is B_s; `later` the captures that are sent later. A compressed channel's own runs go ahead of its last
packet (R297). -/
def CapOut.due (o : CapOut) (x : CapChan) (bs : Nat) (later : List Nat) (r : GapRun) : Bool :=
  if r.cap ≠ o.cap then !later.contains r.cap
  else if r.src ≠ x.ch then decide (r.src < x.ch)
  else if o.comp then decide (x.bytes.length ≤ x.off + bs)
  else decide (r.last + 1 < o.first + min x.n ((x.off + bs) / o.b))

/-- The GAP packets due ahead of the next packet of a GEYSER stream. -/
def State.geyGaps (s : State) (i : Nat) (o : CapOut) (x : CapChan) : List GapRun :=
  (s.str i).runs.filter (o.due x (s.getF (F.STR_SIZE_PAYLOAD i)) (s.laterCaps i))

/-- Is the source-sample declared as it is produced? -/
def SrcVal.isDecl : SrcVal → Bool
  | .decl _ _ => true
  | .val _ _ => false

/-- The declared source-samples of an instant as runs. -/
def declSrcs (sn : Nat) : List Nat → List SrcVal → List GapRun
  | _ :: js, .val _ _ :: vs => declSrcs sn js vs
  | j :: js, .decl c _ :: vs => ⟨j, c, 0, sn, sn⟩ :: declSrcs sn js vs
  | _, _ => []

/-- The instants of the head frame of stream `i`, and whether the frame is complete (R281). -/
def State.headFrame (s : State) (i : Nat) : List Instant × Bool :=
  let st := s.str i
  let span := s.getF (F.STR_SIZE_INSTANTS i) * s.strD i
  match st.insts with
  | [] => ([], false)
  | x :: _ =>
    let stop := (x.sn / span + 1) * span
    let l := st.insts.takeWhile (fun y => decide (y.sn < stop))
    let last := (l.map (·.sn)).getLastD 0
    (l, decide (stop ≤ last + s.strD i) || st.ending.isSome || decide (l.length < st.insts.length))

/-! ### What the pipeline still holds of a run (R21) -/

/-- The instants of stream `i` below `hi` that have not left its point: first and last. -/
def State.pipeRest (s : State) (i hi : Nat) : Option (Nat × Nat) :=
  let d := max 1 (s.strD i)
  let a := match (s.str i).lastSn with | none => 0 | some n => n / d + 1
  let z := ceilDiv hi d
  if a < z then some (a * d, (z - 1) * d) else none

/-- Does the source of stream `i` exist? With PRESENT 0 no beam output does (R186). -/
def State.strExists (s : State) (i : Nat) : Bool := s.strKind i != 3 || s.bit F.BMF_STATUS_PRESENT

/-- A continuous stream has produced every instant below `hi` (R21); those still in the pipeline are declared under `cause`. -/
def State.pipeLose (s : State) (cause hi i : Nat) : State :=
  if s.strCont i && (s.str i).active && (s.str i).ending.isNone && s.strExists i then
    match s.pipeRest i hi with
    | none => s
    | some (a, z) =>
      let srcs := s.strSrc i
      let n := (z - a) / max 1 (s.strD i) + 1
      let s := s.updStr i (fun x => { x with produced := x.produced + n * srcs.length, lastSn := some z })
      srcs.foldl (fun s j => s.declare i ⟨j, cause, 0, a, z⟩) s
  else s

/-! ### GAP_FOLLOWS (R283) -/

/-- The runs of a continuous stream with those that its instants `l`, not in a frame yet, declare. -/
def State.runsWith (s : State) (i : Nat) (l : List Instant) : List GapRun :=
  let d := s.strD i
  (l.flatMap (fun x => declSrcs x.sn (s.strSrc i) x.vals)).foldl (fun rs r => addRun d r rs) (s.str i).runs

/-- Is a GAP packet certain to be the next packet of continuous stream `i`: a run has ended before content of the next frame, or
every source has one to report, or the stream ends with runs left? A run that can still go on through the frame does not count. -/
def State.contGapNext (s : State) (i : Nat) : Bool :=
  let st := s.str i
  let (l, _) := s.headFrame i
  let rs := s.runsWith i l
  let last := match l.getLast? with | some x => x.sn | none => st.lastSn.getD 0
  rs.any (fun r => decide (r.last < last)) || (s.strSrc i).all (fun j => rs.any (fun r => r.src == j)) && decide (rs ≠ []) ||
    (decide (l = []) && st.ending.isSome && decide (rs ≠ []))

/-- GAP_FOLLOWS (R283): the next packet of the stream is a GAP packet, in the queue or certain to be built. -/
def State.gapFollows (s : State) (p : Packet) (n : Nat) : Bool :=
  let i := p.stream
  match (s.fqAlive n).find? (fun q => q.stream == i) with
  | some q => q.kind == 1
  | none =>
    let st := s.str i
    if s.strKind i = 4 then
      match st.gey with
      | o :: _ => match o.chans with | x :: _ => decide (s.geyGaps i o x ≠ []) | [] => false
      | [] =>
        let waits := (s.trg.caps.filter (fun k => k.stream == i && decide (k.state ≤ 1))).map (·.id)
        st.runs.any (fun r => !waits.contains r.cap)
    else if s.strKind i = 5 then
      decide (st.runs ≠ []) && (decide (st.recs ≠ []) || st.ending.isSome)
    else s.contGapNext i

end Sys2Proof.Machine
end

