-- ==== Sys2Proof/Machine/CaptureOps.lean ====
section
/-!
DEFINITION. Machine/CaptureOps.lean: tap words by label, the magma ring, the geyser pool, captures and event triggers
(R127, R191-R201, R214-R218).
-/

namespace Sys2Proof.Machine

/-! ### Tap words (R69, R127) -/

def State.chanPath (s : State) (c : Nat) : ChanPath := s.path.chans.getD c ChanPath.reset
def State.updChan (s : State) (c : Nat) (f : ChanPath → ChanPath) : State :=
  { s with path := { s.path with chans := updAt f s.path.chans c } }

/-- Latency of a tap: 0 RAW, 1 CLEAN, 2 ALIGNED. -/
def tapLat (tap : Nat) : Nat := match tap with | 0 => 27 | 1 => 35 | _ => 51

/-- The word of channel `c` labelled `n` at a tap, where the newest sampling edge is labelled `m`. -/
def State.tapWord (s : State) (tap c : Nat) (m n : Nat) : Int :=
  let x := s.chanPath c
  match tap with
  | 0 => x.raw.getD (m - n) 0
  | 1 => x.clean.getD (m - n - 35) 0
  | _ => x.aligned.getD (m - n - 51) 0

/-! ### Ring geometry (R214, R215) -/

/-- Bytes of a ring word. -/
def State.ringB (s : State) : Nat := if s.bit F.TRG_INFO_RING_FMT then 1 else 2
/-- Labels of one line. -/
def State.ringS (s : State) : Nat := 64 / s.ringB
/-- Blocks of the ring. -/
def State.ringK (s : State) : Nat := s.getF F.IMG_RING_DEPTH / s.ringS
/-- The channels of the ring, ascending. -/
def State.ringChans (s : State) : List Nat := (List.range 256).filter (fun c => (s.getF F.IMG_RING_QMASK).testBit (c / 64))

/-- Index of channel `c` among the ring's. -/
def State.ringIdx (s : State) (c : Nat) : Nat := (s.ringChans.filter (fun d => decide (d < c))).length

/-- BAR2 offset of the word labelled `n` of ring channel `i`. -/
def State.ringAddr (s : State) (n i : Nat) : Nat :=
  s.partBase 0 + 64 * (s.getF F.MEM_RING_CFG_CHANNELS * (n / s.ringS % (if s.ringK = 0 then 1 else s.ringK)) + i) +
    s.ringB * (n % s.ringS)

/-- The stored bytes of a tap word. -/
def State.ringWord (s : State) (w : Int) : List Byte :=
  if s.ringB = 1 then leBytes 1 (ofSigned 8 (satW 8 (convround w (s.getF F.MEM_RING_CFG_RSH)))) else leBytes 2 (ofSigned 16 w)

/-- Stores bytes at any offset; every word that they touch is written. -/
def State.memPut (s : State) (a : Nat) (b : List Byte) : State :=
  let s := { s with mem := s.mem.putAll a b }
  if b.isEmpty then s else s.memWroteWords (a / 4 * 4) ((a + b.length - 1) / 4 + 1 - a / 4)

/-! ### The pool (R218) -/

/-- Bytes of the pool. -/
def State.poolSize (s : State) : Nat := s.partSize 1

/-- Stores bytes at pool byte `x`, wrapping from the pool's end to its start. -/
def State.poolPut (s : State) (x : Nat) (b : List Byte) : State :=
  let size := max 1 s.poolSize
  let x := x % size
  let room := size - x
  (s.memPut (s.partBase 1 + x) (b.take room)).memPut (s.partBase 1) (b.drop room)

/-- Bytes of one channel's region of a capture. -/
def Capture.region (k : Capture) : Nat := ceil64 ((k.p + k.q) * k.b)
/-- First label of a capture's window, which may lie before label 0 only where P is larger than the trigger SN. -/
def Capture.first (k : Capture) : Nat := k.sn - k.p
/-- Samples of one channel. -/
def Capture.len (k : Capture) : Nat := k.p + k.q

/-- The bytes a capture keeps of a tap word (R197). -/
def State.capWord (s : State) (k : Capture) (w : Int) : List Byte :=
  if k.b8conv then leBytes 1 (ofSigned 8 (satW 8 (convround w k.csh))) else s.ringWord w

/-- The bytes a capture keeps of a stored ring word. -/
def State.capStored (s : State) (k : Capture) (b : List Byte) : List Byte :=
  if k.b8conv then s.capWord k (toSigned 16 (ofLe b)) else b

def State.updCap (s : State) (id : Nat) (f : Capture → Capture) : State :=
  { s with trg := { s.trg with caps := s.trg.caps.map (fun k => if k.id = id then f k else k) } }

/-- Stores the bytes of channel number `i` of capture `k` from label `lo` on. -/
def State.capPut (s : State) (k : Capture) (i lo : Nat) (b : List Byte) : State :=
  s.poolPut (64 * k.off + k.region * i + (lo - k.first) * k.b) b

/-- Samples `lo` to `hi` - 1 of channel `c` of capture `k` are declared under `cause` (R26). -/
def State.capLose (s : State) (k : Capture) (c cause lo hi : Nat) : State :=
  if lo < hi then
    let r : GapRun := ⟨c, cause, k.id, lo, hi - 1⟩
    (s.updCap k.id (fun x => { x with lost := addRun 1 r x.lost })).declare k.stream r
  else s

/-- The window of capture `k` is complete up to `hi`. -/
def State.capTo (s : State) (k : Capture) (hi : Nat) : State :=
  s.updCap k.id (fun x => { x with
    written := min x.len (hi - x.first), state := if x.state = 0 ∧ x.len ≤ hi - x.first then 1 else x.state })

/-- Capture `k` declares everything of its window from where it stands up to `hi` under `cause`, for all its channels. -/
def State.capRest (s : State) (k : Capture) (cause hi : Nat) : State :=
  let lo := k.first + k.written
  let s := k.chans.foldl (fun s c => s.capLose k c cause lo (min hi (k.first + k.len))) s
  if lo < hi then s.capTo k hi else s

/-! ### The ring writer (R199, R216, R217) -/

/-- A capture takes the labels `lo` to `hi` - 1 as they are written to the ring; `m` labels the newest sampling edge. -/
def State.capFeed (s : State) (m lo hi : Nat) (k : Capture) : State :=
  let a := max lo (k.first + k.written)
  let z := min hi (k.first + k.len)
  if k.state = 0 ∧ lo ≤ k.first + k.written ∧ a < z then
    let tap := s.getF F.TRG_INFO_RING_TAP
    let put := fun (s : State) (ic : Nat × Nat) =>
      s.capPut k ic.1 a ((List.range (z - a)).flatMap (fun d => s.capWord k (s.tapWord tap ic.2 m (a + d))))
    (((List.range k.chans.length).zip k.chans).foldl put s).capTo k z
  else s

/-- The ring writer stores labels `lo` to `hi` - 1, which lie in one block, line by line in ascending channel order. -/
def State.ringStore (s : State) (m lo hi : Nat) : State :=
  if lo < hi then
    let tap := s.getF F.TRG_INFO_RING_TAP
    let chans := s.ringChans
    let put := fun (s : State) (ic : Nat × Nat) =>
      s.memPut (s.ringAddr lo ic.1) ((List.range (hi - lo)).flatMap (fun d => s.ringWord (s.tapWord tap ic.2 m (lo + d))))
    let s := ((List.range chans.length).zip chans).foldl put s
    let s := s.trg.caps.foldl (fun s k => s.capFeed m lo hi k) s
    let s := { s with path := { s.path with ringNext := hi } }
    s.wr64 R.MEM_RING_HEAD_LO R.MEM_RING_HEAD_HI (hi / s.ringS * s.ringS)
  else s

/-- Is there a ring? -/
def State.hasRing (s : State) : Bool := decide (0 < s.getF F.IMG_RING_DEPTH)

/-- Labels up to `hi` - 1 have left the ring's tap: every whole block of them is written. -/
def State.ringBlocks (s : State) (m hi : Nat) : State :=
  if s.hasRing then
    let e := hi / s.ringS * s.ringS
    if s.path.ringNext < e ∧ e ≤ s.path.ringNext + s.ringS then s.ringStore m s.path.ringNext e else s
  else s

/-- The writer stops before label `hi`: what it holds of the block in progress is written. -/
def State.ringFlush (s : State) (m hi : Nat) : State :=
  if s.hasRing then
    let e := min hi (s.path.ringNext / s.ringS * s.ringS + s.ringS)
    let s := s.ringStore m s.path.ringNext e
    if e < hi then s.ringStore m e (min hi (e + s.ringS)) else s
  else s

/-! ### The pre-trigger copy (R199, R213) -/

/-- Reads `n` ring words of channel `c` (ring index `i`) from label `l` on, each memory word once; the bytes for the capture
and the labels whose memory word failed twice. `last` is the memory word read last and whether it failed. -/
def State.copyRead (s : State) (k : Capture) (i : Nat) : Nat → Nat → Option (Nat × Bool) → List Byte × List Nat × State
  | _, 0, _ => ([], [], s)
  | l, n + 1, last =>
    let a := s.ringAddr l i
    let wa := a / 4 * 4
    let (bad, s) := match last with
      | some (x, b) => if x = wa then (b, s) else
          let (r, s) := s.memReadWord wa
          (decide (r = MemRead.lasting), s)
      | none =>
          let (r, s) := s.memReadWord wa
          (decide (r = MemRead.lasting), s)
    let b := if bad then zeros k.b else s.capStored k (s.mem.bytes a s.ringB)
    let (bs, ls, s) := s.copyRead k i (l + 1) n (some (wa, bad))
    (b ++ bs, if bad then l :: ls else ls, s)

/-- Ticks that the copy of `n` labels of capture `k` takes: its reads and writes at the rate of the memory, 4,096 bytes a tick, and one
tick at least (DESIGN CHOICE, assumption log 70: R221 bounds the time from above). -/
def State.copyTicks (s : State) (k : Capture) (n : Nat) : Nat := 1 + k.chans.length * n * (s.ringB + k.b) / 4096

/-- A pre-trigger copy is running (R222). -/
def State.copying (s : State) : Bool := s.trg.caps.any (fun k => decide (s.tick < k.copyEnd))

/-- Capture `k` as it stands now. -/
def State.capNow (s : State) (k : Capture) : Capture := (s.trg.caps.find? (fun x => x.id == k.id)).getD k

/-- Copies the labels of the window from where capture `k` stands up to `hi` - 1 from the ring into the pool. -/
def State.copyTo (s : State) (k : Capture) (hi : Nat) : State :=
  let lo := k.first + k.written
  if lo < hi then
    let go := fun (s : State) (ic : Nat × Nat) =>
      let (b, ls, s) := s.copyRead k (s.ringIdx ic.2) lo (hi - lo) none
      let s := s.capPut k ic.1 lo b
      ls.foldl (fun s l => s.capLose k ic.2 causeMem l (l + 1)) s
    (((List.range k.chans.length).zip k.chans).foldl go s).capTo k hi
  else s

/-- The part of the window before the ring start `x`: labels below its stretch are copied, and those that the halt kept out of the ring are
declared HALT (R208). -/
def State.copyStretch (s : State) (k : Capture) (hi : Nat) (x : Nat × Nat) : State :=
  let s := s.copyTo (s.capNow k) (min x.1 hi)
  s.capRest (s.capNow k) causeHalt (min x.2 hi)

/-- Copies the labels of the window that the ring holds into the pool. -/
def State.copyPre (s : State) (k : Capture) : State :=
  let hi := min s.path.ringNext (k.first + k.len)
  if k.first < hi then
    let s := s.trg.starts.reverse.foldl (fun s x => s.copyStretch k hi x) s
    let s := s.copyTo (s.capNow k) hi
    let from_ := s.trg.caps.foldl (fun a x => max a x.copyEnd) s.tick
    s.updCap k.id (fun x => { x with copyEnd := from_ + s.copyTicks k (hi - k.first) })
  else s

/-- The zero padding of every channel's region. -/
def State.capPad (s : State) (k : Capture) : State :=
  (List.range k.chans.length).foldl (fun s i =>
    s.poolPut (64 * k.off + k.region * i + k.len * k.b) (zeros (k.region - k.len * k.b))) s

/-! ### Space (R198, R218) -/

/-- Capture `k`, the oldest, has left: its space returns; `t` are the others. -/
def State.capRetire (s : State) (k : Capture) (t : List Capture) : State :=
  let s := { s with trg := { s.trg with caps := t } }
  let s := s.setF F.TRG_POOL_FREE_FREE (s.getF F.TRG_POOL_FREE_FREE + k.size / 64)
  let s := s.setF F.TRG_INFO_IN_FLIGHT (s.getF F.TRG_INFO_IN_FLIGHT - 1)
  let size := max 1 (s.poolSize / 64)
  s.setF F.MEM_POOL_RD_RD ((k.off + k.size / 64) % size)

/-- The oldest captures that have left return their space in admission order. -/
def State.capFree (s : State) : Nat → State
  | 0 => s
  | n + 1 =>
    match s.trg.caps with
    | [] => s
    | k :: t => if k.state = 3 then (s.capRetire k t).capFree n else s

/-! ### The end of what the run evaluates (R26, R98, R208) -/

/-- S_stop of the run, once fixed. -/
def State.lastLabel (s : State) : Option Nat := s.run.endSn.or s.run.stopAt

/-- Does the run produce label `n` (R98): does it lie at or before S_stop and before SN_r? -/
def State.produced (s : State) (n : Nat) : Bool :=
  (match s.run.stopAt with | some z => decide (n ≤ z) | none => true) &&
  (match s.run.endSn with | some z => decide (n ≤ z) | none => true) &&
  (match s.reform.snr with | some r => decide (n < r) | none => true)

/-- Does a run that has been stopped still drain what it produced? -/
def State.draining (s : State) : Bool := s.run.running && s.bit F.AFE_RUN_STATUS_DRAINING

/-- Words of admitted captures past S_stop are declared STOP. -/
def State.capsStop (s : State) (stop : Nat) : State :=
  s.trg.caps.foldl (fun s k =>
    if k.state = 0 ∧ stop + 1 ≤ k.first + k.written then
      s.capRest k causeStop (k.first + k.len) else s) s

/-- Words of admitted captures up to `hi` that the ring does not hold are declared under `cause`. -/
def State.capsLose (s : State) (cause hi : Nat) : State :=
  s.trg.caps.foldl (fun s k => if k.state = 0 ∧ k.first + k.written < hi then s.capRest k cause hi else s) s

/-! ### Event triggers (R192, R193) -/

/-- The trigger SN of event time `t`: the first SN whose sampling instant lies at or after it (R192). PHASE_RES is that of the latest
anchor of the run, and 0 before the first is measured (DESIGN CHOICE, assumption log 89: R192 names the latest only). -/
def State.trigSn (s : State) (t : Int) : Nat :=
  let res : Int := match s.time.anchors.head? with | some a => a.res | none => 0
  (ceilDivI ((t - s.gAt 0) * 65536 - res * s.ts) (s.ts * 65536)).toNat

/-- A trigger with SN `n` decided no earlier than label `j`: the lag is clamped to 4,096 labels. -/
def trigAt (src sel n j : Nat) : TrigMet :=
  let j := max j (n + 115)
  if n + 4096 < j then ⟨src, sel, j - 4096, j, true⟩ else ⟨src, sel, n, j, false⟩

/-- An event of source `src` (1 TRIGIN, 2 SYNC, 3 TCU) reaches the engine during a run or its drain (R208). -/
def State.eventTrigger (s : State) (src sel : Nat) (t : Int) : State :=
  if s.inRun || s.draining then
    { s with trg := { s.trg with met := s.trg.met ++ [trigAt src sel (s.trigSn t) s.label] } }
  else s

/-! ### Trigger outputs (R203, R446) -/

def State.updOut (s : State) (o : Nat) (f : TrigOut → TrigOut) : State :=
  { s with trg := { s.trg with outs := updAt f s.trg.outs o } }

/-- The outputs go inactive: their pulses end. -/
def State.trigPins (s : State) : State :=
  (List.range 4).foldl (fun s o =>
    (s.updOut o (fun x => { x with endAt := none })).pinEdge s (.trigout o) s.run.scyc 0) s

/-! ### Conditions at the start of a run or of the ring (R189, R191, R194) -/

/-- Every enabled condition returns to PREFILL, and its hold-off by events ends; a disabled one is DISABLED. -/
def State.condsPrefill (s : State) : State :=
  let s := { s with trg := { s.trg with conds := s.trg.conds.map (fun x => { x with skip := 0 }) } }
  (List.range 8).foldl (fun s i =>
    (s.setF (F.TRG_TC_STATE_STATE i) (if s.bit (F.TRG_TC_CTRL_EN i) then 1 else 0)).setF (F.TRG_TC_STATE_EVLEFT i) 0) s

/-- The trigger engine as the run enters DELAY: ring start 0, floors -1, no capture, an empty pool. -/
def State.trigEnterDelay (s : State) : State :=
  let s := { s with trg := { TrigState.reset with outs := s.trg.outs, tiLast := s.trg.tiLast, r0 := some 0 } }
  let s := s.condsPrefill
  let s := (s.setF F.TRG_CAPTURES_COUNT 0).setF F.TRG_INFO_IN_FLIGHT 0
  let s := s.setF F.TRG_POOL_FREE_FREE (s.poolSize / 64)
  let s := (s.setF F.MEM_POOL_WR_WR 0).setF F.MEM_POOL_RD_RD 0
  let s := { s with path := { s.path with ringNext := 0 } }
  s.wr64 R.MEM_RING_HEAD_LO R.MEM_RING_HEAD_HI 0

end Sys2Proof.Machine
end

