-- ==== Sys2Proof/Machine/ChainOps.lean ====
section
/-!
DEFINITION. Machine/ChainOps.lean: what a channel's FIR banks fix: decimation, settling length, charge, the checks of a bank
swap, and the settling spans (R57-R59, R152, R160-R175).
-/

namespace Sys2Proof.Machine

/-! ### A bank's configuration word (R152, R163, R170) -/

/-- 2^NHB. -/
def cfgH (w : Word) : Nat := 2 ^ getBits w 1 2
/-- TAPS. -/
def cfgT (w : Word) : Nat := getBits w 8 9
/-- Total decimation: H x DEC, or H without the FIR (R152, R160). -/
def cfgD (w : Word) : Nat := if cfgT w = 0 then cfgH w else cfgH w * getBits w 17 7
/-- Settling length (R170). -/
def cfgS (w : Word) : Nat := 23 * (cfgH w - 1) + (if cfgT w = 0 then 0 else ((cfgT w - 1) * cfgH w + 1) / 2)
/-- Components: 2 with the NCO. -/
def cfgComps (w : Word) : Nat := if w.getLsbD 0 then 2 else 1
/-- Tap charge (R58). -/
def cfgCharge (w : Word) : Nat :=
  if cfgT w = 0 then 0
  else ceilDiv ((if w.getLsbD 5 then (cfgT w + 1) / 2 else cfgT w) * cfgComps w) (max 1 (cfgD w))
/-- The fields whose difference makes a swap a structure swap: NCO_EN, NHB, SYM, TAPS, DEC (R168). -/
def cfgStruct (w : Word) : Word := w &&& 0x00FFFF27#32
/-- W in bits (R165). -/
def cfgW (w : Word) : Nat := 4 * (getBits w 6 2 + 1)

/-- The least multiple of `d` at or after `n`. -/
def upTo (d n : Nat) : Nat := ceilDiv n (max 1 d) * max 1 d

/-! ### Banks of a channel -/

/-- Bank in use of channel `c` (R166). -/
def State.bank (s : State) (c : Nat) : Nat := s.getF (F.FIR_BANK_SEL_SEL c)
/-- Configuration of bank `b`. -/
def State.bankCfg (s : State) (c b : Nat) : Word := s.rd (R.FIR_CFG c b)
/-- Configuration of the bank in use. -/
def State.cfgNow (s : State) (c : Nat) : Word := s.bankCfg c (s.bank c)

/-- The word that a bank stores for tap `j`: with SYM the lower of the pair (R161). -/
def tapWordOf (w : Word) (j : Nat) : Nat := if w.getLsbD 5 then min j (cfgT w - 1 - j) else j

/-- Sum of the magnitudes of the coefficients (R162). -/
def State.coefSum (s : State) (c b : Nat) : Nat :=
  let w := s.bankCfg c b
  (List.range (cfgT w)).foldl (fun a j => a + (s.getI (F.FIR_COEF_COEF c b (tapWordOf w j))).natAbs) 0

/-- Is channel `c` a source of a filtered stream or of a beam (R57)? -/
def State.fixedChan (s : State) (c : Nat) : Bool :=
  (List.range 64).any (fun i => s.strKind i == 2 && (s.strSrc i).contains c) ||
    (List.range 16).any (fun b => (s.beamMembers b).contains c)

/-- The check of bank `b` of channel `c` for a swap (R167). -/
def State.bankOk (s : State) (c b : Nat) : Bool :=
  let w := s.bankCfg c b
  let d := s.chanDef c
  decide (getBits w 1 2 ≤ 2) && decide (cfgT w ≤ 384) && decide (1 ≤ getBits w 17 7) && decide (getBits w 17 7 ≤ 64) &&
  decide (s.coefSum c b ≤ 16777215) && decide (cfgCharge w ≤ s.getF (F.FIR_CHARGE_ALLOC c b)) &&
  (!s.fixedChan c || (cfgD w == d.dec && w.getLsbD 0 == d.nco && getBits w 6 2 == d.width))

/-- FIR_CHARGE of bank `b` follows its configuration (R163). -/
def State.showCharge (s : State) (c b : Nat) : State := s.setF (F.FIR_CHARGE_CHARGE c b) (cfgCharge (s.bankCfg c b))

/-- IMG_POOL[q].CHARGE_SUM follows the banks in use (R163). -/
def State.showPool (s : State) (q : Nat) : State :=
  s.setF (F.IMG_POOL_CHARGE_SUM q)
    ((List.range 64).foldl (fun a k => a + cfgCharge (s.cfgNow (64 * q + k))) 0)

/-- What follows the bank in use of channel `c`: IN_USE, FIR_SETTLE_LEN and the charge sum. -/
def State.showBank (s : State) (c : Nat) : State :=
  ((s.setF (F.FIR_STATUS_IN_USE c) (s.bank c)).setF (F.FIR_SETTLE_LEN_S c) (cfgS (s.cfgNow c))).showPool (c / 64)

/-- The same for the channels of quadrant `q`. -/
def State.showBanks (s : State) (q : Nat) : State := (List.range 64).foldl (fun s k => s.showBank (64 * q + k)) s

/-! ### Settling (R171-R173) -/

/-- A settling event of channel `c` at label `a`: the span runs on to the later of the ends (R173). Events of one label form one,
with the S of the bank in use from it (R171, R175). FIR_SETTLE_END records the first valid instant (R172). -/
def State.settle (s : State) (c a : Nat) : State :=
  let w := s.cfgNow c
  let others := (s.chanPath c).settles.filter (fun p => p.1 != a)
  let fin := (others.filter (fun p => decide (a < p.2))).foldl (fun m p => max m p.2) (a + cfgS w)
  let s := s.updChan c (fun x => { x with settles := (a, fin) :: others })
  (s.setB (F.FIR_STATUS_SETTLING c) (decide (a < upTo (cfgD w) fin))).wr64 (R.FIR_SETTLE_END_LO c) (R.FIR_SETTLE_END_HI c)
    (upTo (cfgD w) fin)

/-- SETTLE_END: the first valid instant of channel `c` has come (R172, R173). -/
def State.settleEnd (s : State) (c : Nat) : State :=
  if s.bit (F.FIR_STATUS_SETTLING c) && decide (s.rd64 (R.FIR_SETTLE_END_LO c) (R.FIR_SETTLE_END_HI c) ≤ s.label) then
    s.setF (F.FIR_STATUS_SETTLING c) 0
  else s

def execSettleEnd (c : Fin 256) (s : State) : Host.Outcome State Fault Refusal := .next (s.settleEnd c)

/-! ### Withheld instants (R172, R174) -/

/-- The cause under which instant `n` of the chain of `c` is withheld: HALT before SETTLE (R28). -/
def ChanPath.withheld (x : ChanPath) (n : Nat) : Option Nat :=
  if x.halts.any (fun p => decide (p.1 ≤ n) && decide (n < p.2)) then some causeHalt
  else if x.settles.any (fun p => decide (p.1 ≤ n) && decide (n < p.2)) then some causeSettle
  else none

end Sys2Proof.Machine
end

