-- ==== Sys2Proof/Machine/ApplyOps.lean ====
section
/-!
DEFINITION. Machine/ApplyOps.lean: staged registers: shadows, the checks of a staged set, landings with what each block does
at one, and the timed apply's ends (R70, R135-R147, R157, R168-R175, R184, R206, R207, R221, R344-R348).
-/

namespace Sys2Proof.Machine

/-! ### Shadows and flags (R344) -/

/-- Sets the shadow of the register at `off`, with the flags of its fields. -/
def insShadow (off : Nat) (v : Word) : List (Nat × Word) → List (Nat × Word)
  | [] => [(off, v)]
  | (o, w) :: t => if off < o then (off, v) :: (o, w) :: t else if off = o then (off, v) :: t else (o, w) :: insShadow off v t

/-- Is the register at `off` flagged? -/
def State.flagged (s : State) (off : Nat) : Bool := s.shadows.any (fun e => e.1 == off)

/-- The register at `off` as it will stand after a landing of the whole staged set. -/
def State.after (s : State) (off : Nat) : Word :=
  match s.shadows.find? (fun e => e.1 == off) with
  | some e => e.2
  | none => s.rd off

/-- A field of it. -/
def State.afterF (s : State) (f : Fld) : Nat := getBits (s.after f.off) f.lo f.width

/-- ST fields of the register at `off`. -/
def stCount (off : Nat) : Nat :=
  match regRow? off with
  | none => 0
  | some r => (r.fields.filter (fun f => f.acc == .st)).length

/-- Number of ST fields of a set. -/
def fieldsOf (l : List (Nat × Word)) : Nat := l.foldl (fun a e => a + stCount e.1) 0

/-- Does a value keep the limits of a field? -/
def limitOk (f : FieldRow) (w : Word) : Bool :=
  match f.lim with
  | none => true
  | some (lo, hi) =>
    let n := getBits w f.lo (f.hi + 1 - f.lo)
    let z : Int := if lo < 0 then toSigned (f.hi + 1 - f.lo) n else n
    decide (lo ≤ z) && decide (z ≤ hi)

/-- Does a word keep the field limits of the register at `off`? -/
def limitsOk (off : Nat) (w : Word) : Bool :=
  match regRow? off with
  | none => true
  | some r => r.fields.all (fun f => limitOk f w)

/-! ### The checks of a staged set (R70, R132, R167, R184, R207, R221) -/

/-- Channel of a per-channel window. -/
def chanOf (base stride off : Nat) : Nat := past base off / stride

/-- RANK with k outside 1 to W (R132). -/
def rankBad (v : Word) : Bool :=
  getBits v 0 2 == 3 && (decide (getBits v 8 4 = 0) || decide (3 + 2 * getBits v 4 2 < getBits v 8 4))

/-- Checks of one flagged register on its own. -/
def State.regFails (s : State) (off : Nat) (v : Word) : Bool :=
  if !limitsOk off v then true
  else if 0x100000 ≤ off ∧ off < 0x110000 ∧ off % 0x100 = 8 then rankBad v
  else if 0x200000 ≤ off ∧ off < 0x240000 ∧ off % 0x400 = 8 then
    let c := chanOf 0x200000 0x400 off
    let b := getBits v 0 1
    b != s.bank c && !s.bankOk c b
  else if off = R.BMF_BANK_SEL then getBits v 0 1 != s.getF F.BMF_BANK_SEL_SEL && s.bit F.BMF_STATUS_COPY_BUSY
  else false

/-- The registers of a 256-bit mask. -/
def maskOffs (off : Nat) : List Nat := (List.range 8).map (fun k => off + 4 * k)
/-- The mask at `off` after the landing. -/
def State.afterMask (s : State) (off : Nat) : List Nat := maskList ((maskOffs off).map s.after)

/-- The registers of profile `n` that enter the capture size. -/
def profOffs (n : Nat) : List Nat := [R.TRG_PF_PRE n, R.TRG_PF_POST n, R.TRG_PF_CFG n] ++ maskOffs (R.TRG_PF_MASK n 0)

/-- (K, P, Q, b) of profile `n` after the landing. -/
def State.profile (s : State) (n : Nat) : Nat × Nat × Nat × Nat :=
  ((s.afterMask (R.TRG_PF_MASK n 0)).length, s.afterF (F.TRG_PF_PRE_P n), s.afterF (F.TRG_PF_POST_Q n),
   if s.ringB == 1 || s.afterF (F.TRG_PF_CFG_FMT n) == 1 then 1 else 2)

/-- The copy condition (R221) of one profile `x` = (K, P, Q, b) among those of `l` whose mask is not empty, with F_MAX in Hz.
Times and rates are kept as numbers over F_MAX and one second. -/
def copyOne (l : List (Nat × Nat × Nat × Nat)) (fmax chans br pool depth : Nat) (x : Nat × Nat × Nat × Nat) : Bool :=
  let l := l.filter (fun x => x.1 != 0)
  let rring := chans * br * fmax
  let wmax := l.foldl (fun m x => max m (x.1 * x.2.2.2 * fmax)) 0
  let nmin := (l.map (fun x => x.2.1 + x.2.2.1)).foldl min (2 ^ 20)
  -- W_post is 8 x wmax or pool x fmax / nmin, whichever is smaller: kept times nmin
  let wpostN := min (8 * wmax * nmin) (pool * fmax)
  let b2N : Int := ((2048 * 10 ^ 9 * nmin : Nat) : Int) - (rring * nmin : Nat) - (wpostN : Nat)
  let vmax := l.foldl (fun m x => max m (x.1 * x.2.1 * (br + x.2.2.2))) 0
  let v := min (3 * pool) (8 * vmax)
  x.1 == 0 || (decide (0 < b2N) &&
    decide (((v * nmin * fmax : Nat) : Int) ≤ b2N * ((depth : Nat) - (x.2.1 : Int) - 4096)))

/-- Does the copy condition hold for profile `n` as it will stand, among all of them? -/
def State.copyHoldsFor (s : State) (n : Nat) : Bool :=
  copyOne ((List.range 8).map s.profile) (1000 * s.getF F.IMG_FMAX_FMAX_KHZ) s.ringChans.length s.ringB s.poolSize
    (s.getF F.IMG_RING_DEPTH) (s.profile n)

/-- Does the copy condition hold for every profile as it will stand? -/
def State.copyHolds (s : State) : Bool := (List.range 8).all s.copyHoldsFor

/-- The registers whose value after the landing fails a check of R207 for condition `n`. -/
def State.condFails (s : State) (n : Nat) : List Nat :=
  let (k, p, q, b) := s.profile n
  let pm := s.afterMask (R.TRG_PF_MASK n 0)
  let src := s.afterF (F.TRG_TC_CTRL_SRC n)
  let sel := s.afterF (F.TRG_TC_CTRL_SEL n)
  let unused := fun (off : Nat) => (maskOffs off).filter (fun o =>
    (maskList [s.after o]).any (fun j => !s.quadsUsed.testBit (((o - off) / 4 * 32 + j) / 64)))
  (if s.getF F.IMG_PRE_MAX_PRE_MAX < p then [R.TRG_PF_PRE n] else []) ++
  (if s.poolSize < k * ceil64 ((p + q) * b) then profOffs n else []) ++
  (if !s.hasRing && k != 0 then maskOffs (R.TRG_PF_MASK n 0) else []) ++
  (if s.strKind (s.afterF (F.TRG_PF_CFG_STREAM n)) != 4 then [R.TRG_PF_CFG n] else []) ++
  unused (R.TRG_TC_MASK n 0) ++ (if pm.isEmpty then [] else unused (R.TRG_PF_MASK n 0)) ++
  (if (s.afterMask (R.TRG_TC_MASK n 0)).length < s.afterF (F.TRG_TC_CTRL_N n) then
    R.TRG_TC_CTRL n :: maskOffs (R.TRG_TC_MASK n 0) else []) ++
  (if ((src = 1 ∨ src = 2) ∧ 3 < sel) ∨ (src = 2 ∧ s.getF (F.AFE_SYNC_CLS_CTRL_ACTION sel) ≠ 3) then [R.TRG_TC_CTRL n] else [])

/-- Every register that fails a check of R207 or R221. -/
def State.trgFails (s : State) : List Nat :=
  (List.range 8).flatMap s.condFails ++ (if s.copyHolds then [] else (List.range 8).flatMap profOffs)

/-- Does the register lie in the TRG block? -/
def inTrg (off : Nat) : Bool := off / 0x10000 == 10

/-- The lowest offset among the flagged registers that fail, if one does (R70); `trg`: only those of the TRG block. -/
def State.checkSet (s : State) (trg : Bool) : Option Nat :=
  let l := if trg then s.shadows.filter (fun e => inTrg e.1) else s.shadows
  let more := if l.any (fun e => inTrg e.1) then s.trgFails else []
  (l.find? (fun e => s.regFails e.1 e.2 || more.contains e.1)).map (·.1)

/-! ### Channel delay (R135-R137, R143) -/

/-- τ_user keeps its 14-bit integer part (R135). While that saturates, the fraction is all ones at +8,191 and 0 at -8,192: R135 names
the integer part only (DESIGN CHOICE, assumption log 89). -/
def clampTau (t : Int) : Int := max (-(2 ^ 61 : Nat)) (min ((2 ^ 61 : Nat) - 1) t)

/-- INT + FRAC x 2^-16 of the landed registers, in units of 2^-48 sample. -/
def State.tauReg (s : State) (c : Nat) : Int :=
  ((s.getF (F.CND_DELAY_INT_INT c) * 2 ^ 48 + s.getF (F.CND_DELAY_FRAC_FRAC c) * 2 ^ 32 : Nat) : Int)

/-- τ_user at label `n`. -/
def tauAt (l : List DelaySeg) (n : Nat) : Int :=
  match l.find? (fun d => decide (d.at_ ≤ n)) with
  | none => 0
  | some d => clampTau (d.tau + ((n - d.at_ : Nat) : Int) * d.rate)

/-- The delay registers of channel `c`. -/
def delayOffs (c : Nat) : List Nat := [R.CND_DELAY_INT c, R.CND_DELAY_FRAC c, R.CND_DELAY_RATE c, R.CND_DELAY_CTRL c]

/-- CND_LOAD_SN of channel `c` after a landing at label `a`, or outside RUN. -/
def State.loadSn (s : State) (c : Nat) (at_ : Option Nat) : State :=
  s.wr64 (R.CND_LOAD_SN_LO c) (R.CND_LOAD_SN_HI c) (at_.getD allOnes64)

/-- The delay set of channel `c`, now in use, landed at label `a` of the run. With `quiet` its settling is absorbed in a HALT
extension (R174). -/
def State.delayLanded (s : State) (c a : Nat) (quiet : Bool) : State :=
  let old := tauAt (s.chanPath c).delay a
  let keep := s.bit (F.CND_DELAY_CTRL_KEEP_POS c)
  let tau := if keep then old else s.tauReg c
  let s := s.updChan c (fun x => { x with delay := ⟨a, tau, s.getI (F.CND_DELAY_RATE_RATE c)⟩ :: x.delay })
  let s := s.loadSn c (some a)
  if !keep && tau / (2 ^ 48 : Nat) != old / (2 ^ 48 : Nat) && a != 0 then
    let s := if quiet then s else s.settle c a
    (s.setF (F.CND_STATUS_INT_CHANGE c) 1).emit 0 0x1002
      (pw c ++ psn a ++ pint (old / (2 ^ 48 : Nat)) ++ pint (tau / (2 ^ 48 : Nat)))
  else s

/-! ### Landings (R344) -/

/-- A register takes a new value at label `a` of the run: what it held is kept for the words labelled below `a`. -/
def State.land (s : State) (a off : Nat) (v : Word) : State :=
  let old := s.rd off
  if old = v then s
  else
    let s := if s.run.running then { s with setLog := (a, off, old) :: s.setLog } else s
    s.wr off v

/-- A landing moves a handover or handback of a calibration cycle on channel `c` (R124). -/
def State.calMoves (s : State) (c a : Nat) : State :=
  let g := c / 16
  let ph := s.getF (F.CAL_GROUP_STATE_PHASE g)
  if s.getF (F.CAL_GROUP_STATE_POS g) = c % 16 ∧ (ph = 1 ∨ ph = 2 ∨ ph = 3) then
    s.updGrp g (fun x => { x with notB4 := s.run.scyc + (a - s.run.next) + 65536 })
  else s

/-- The channels whose registers at `offs c` are among `l`. -/
def chansIn (offs : Nat → List Nat) (l : List (Nat × Word)) : List Nat :=
  (List.range 256).filter (fun c => (offs c).any (fun o => l.any (fun e => e.1 == o)))

/-- The fields named in R124. -/
def movesOffs (c : Nat) : List Nat := [R.CND_USER_OFF c, R.CND_USER_GAIN c, R.AFE_SEL c] ++ delayOffs c

/-- A FIR bank swap of channel `c` landed: `old` is the configuration that was in use. -/
def State.firSwapped (s : State) (c : Nat) (old : Word) (at_ : Option Nat) (quiet : Bool) : State :=
  let st := cfgStruct old != cfgStruct (s.cfgNow c)
  let s := s.showBank c
  let s := s.setF (F.FIR_STATUS_SWAP_DONE c) 1
  let s := if st then s.setF (F.FIR_STATUS_SWAP_STRUCT c) 1 else s
  let n := at_.getD allOnes64
  let s := s.wr64 (R.FIR_SWAP_SN_LO c) (R.FIR_SWAP_SN_HI c) n
  let s := s.emit 0 0x1101 (pw c ++ psn n ++ pb st)
  match at_ with
  | none => s
  | some a =>
    if st then
      let s := s.updChan c (fun x => { x with clears := a :: x.clears })
      if quiet then s else s.settle c a
    else s

/-- Channel `c` after a landing of `l` that replaced the registers of `s0` (R143, R157, R168). -/
def State.chanLanded (s s0 : State) (l : List (Nat × Word)) (at_ : Option Nat) (quiet : Bool) (c : Nat) : State :=
  let has := fun (o : Nat) => l.any (fun e => e.1 == o)
  let s := if s0.bank c != s.bank c then s.firSwapped c (s0.cfgNow c) at_ quiet else s
  let nco := (s0.rd (R.FIR_NCO_FREQ c) != s.rd (R.FIR_NCO_FREQ c) || s0.rd (R.FIR_NCO_PHASE c) != s.rd (R.FIR_NCO_PHASE c)) &&
    (s.cfgNow c).getLsbD 0
  let s := match at_ with
    | some a => if nco && !quiet then s.settle c a else s
    | none => s
  if (delayOffs c).any has then
    match at_ with
    | some a => s.delayLanded c a quiet
    | none => s.loadSn c none
  else s

/-- Condition `n` after a landing at label `a`, or outside RUN (R194): EN falling ends its hold-off from `a` on, which triggers with an
earlier SN still meet; EN rising enters PREFILL or READY. -/
def State.condLanded (s s0 : State) (at_ : Option Nat) (n : Nat) : State :=
  let en := s.bit (F.TRG_TC_CTRL_EN n)
  if s0.bit (F.TRG_TC_CTRL_EN n) = en then s
  else if en then
    let pre := match s.trg.r0 with
      | some r => decide (s.run.next < r + s.getF (F.TRG_PF_PRE_P n) + 1)
      | none => true
    s.setF (F.TRG_TC_STATE_STATE n) (if pre || s.runSt != 3 then 1 else 2)
  else
    let cut := fun (x : TrigCond) => match at_ with
      | some a => { x with hold := (x.hold.filter (fun h => decide (h.1 < a))).map (fun h => (h.1, min h.2 (a - 1))) }
      | none => { x with hold := [], skip := 0 }
    let s := { s with trg := { s.trg with conds := updAt cut s.trg.conds n } }
    (s.setF (F.TRG_TC_STATE_STATE n) 0).setF (F.TRG_TC_STATE_EVLEFT n) 0

/-- Output `o` after a landing of TRG_TO_CTRL (R203, R446): a disabled output drives its inactive level, and its pulse ends. -/
def State.toLanded (s s0 : State) (o : Nat) : State :=
  let t := if s.bit (F.TRG_TO_CTRL_EN o) then s else s.updOut o (fun x => { x with endAt := none })
  t.pinEdge s0 (.trigout o) s.run.scyc 0

/-- What the TRG block does at a landing of its registers (R206). -/
def State.trgLanded (s s0 : State) (at_ : Option Nat) : State :=
  let s := s.wr64 R.TRG_LOAD_SN_LO R.TRG_LOAD_SN_HI (at_.getD allOnes64)
  let s := (List.range 8).foldl (fun s n => s.condLanded s0 at_ n) s
  (List.range 4).foldl (fun s o => s.toLanded s0 o) s

/-- A weight bank swap landed (R184). -/
def State.bmfSwapped (s : State) (at_ : Option Nat) : State :=
  let b := s.getF F.BMF_BANK_SEL_SEL
  let n := at_.getD allOnes64
  let s := (s.setF F.BMF_STATUS_IN_USE b).setF F.BMF_STATUS_SWAP_DONE 1
  (s.wr64 R.BMF_SWAP_SN_LO R.BMF_SWAP_SN_HI n).emit 0 0x1201 (psn n ++ pw b)

/-- The set `l` of flagged shadows lands, at label `a` of the run or outside RUN: every value is copied into use, its flag is
cleared, and each block acts as its chapter says. With `quiet` the landing takes place at the resume of a halt. -/
def State.landSet (s : State) (l : List (Nat × Word)) (at_ : Option Nat) (quiet : Bool) : State :=
  let s0 := s
  let a := at_.getD s.run.next
  let s := l.foldl (fun s e => s.land a e.1 e.2) s
  let s := { s with shadows := s.shadows.filter (fun e => !l.any (fun x => x.1 == e.1)) }
  let cs := chansIn (fun c => [R.FIR_NCO_FREQ c, R.FIR_NCO_PHASE c, R.FIR_BANK_SEL c] ++ delayOffs c) l
  let s := cs.foldl (fun s c => s.chanLanded s0 l at_ quiet c) s
  let s := (chansIn movesOffs l).foldl (fun s c => (s.calMoves c a).actTakes actDelaychg c) s
  let s := if s0.getF F.BMF_BANK_SEL_SEL != s.getF F.BMF_BANK_SEL_SEL then s.bmfSwapped at_ else s
  if l.any (fun e => inTrg e.1) then s.trgLanded s0 at_ else s

/-! ### Coefficient sets of a partial activation (R396) -/

/-- The set `d` of COEF goes into the bank of channel `c` that is not in use, as writes under R166 would. -/
def State.coefPut (s : State) (c : Nat) (d : ChanDef) : State :=
  let b := 1 - s.bank c
  let a := s.run.next
  let s := (s.land a (R.FIR_CFG c b) d.cfg).land a (R.FIR_SHIFT c b) d.shift
  ((List.range 384).foldl (fun s j => s.land a (R.FIR_COEF c b j) (d.coefs.getD j 0#32)) s).showCharge c b

/-- The sets whose bank is no longer locked are written. -/
def State.coefRelease (s : State) : State :=
  let free := fun (e : Nat × ChanDef) => !s.bit (F.FIR_STATUS_TARGET_LOCK e.1)
  let l := s.upd.coefs
  let s := { s with upd := { s.upd with coefs := l.filter (fun e => !free e) } }
  (l.filter free).foldl (fun s e => s.coefPut e.1 e.2) s

/-! ### The timed apply (R345-R348) -/

def State.applySt (s : State) : Nat := s.getF F.HIF_APPLY_STATUS_STATE

/-- Do the locks of the target banks hold (R167, R184)? From the ARM write until the apply returns to IDLE. -/
def State.setLocks (s : State) (on : Bool) : State :=
  let s := (chansIn (fun c => [R.FIR_BANK_SEL c]) s.shadows).foldl (fun s c =>
    s.setB (F.FIR_STATUS_TARGET_LOCK c) (on && getBits (s.after (R.FIR_BANK_SEL c)) 0 1 != s.bank c)) s
  s.setB F.BMF_STATUS_TARGET_LOCK
    (on && s.flagged R.BMF_BANK_SEL && getBits (s.after R.BMF_BANK_SEL) 0 1 != s.getF F.BMF_BANK_SEL_SEL)

/-- The apply returns to IDLE. -/
def State.applyIdle (s : State) : State :=
  let s := (s.setLocks false).setF F.HIF_APPLY_STATUS_STATE 0
  { s with host := { s.host with landAt := none, landLate := false, ended := none } }

/-- The staged set lands at `at_` (none: outside a run). -/
def State.landAll (s : State) (at_ : Option Nat) (quiet : Bool) : State :=
  let l := s.shadows
  let late := s.host.landLate
  let sn := at_.getD allOnes64
  let s := s.applyIdle.landSet l at_ quiet
  let s := s.wr64 R.HIF_APPLY_LANDED_LO R.HIF_APPLY_LANDED_HI sn
  (s.emit 0 0x0E01 (psn s.host.applySn ++ psn sn ++ pw (fieldsOf l) ++ pb late)).coefRelease

/-- The apply strands (R347): nothing lands, and the flags are kept. -/
def State.strand (s : State) (stop : Nat) : State :=
  let s := s.applyIdle.setF F.HIF_APPLY_STATUS_STRANDED 1
  (s.emit 0 0x0E03 (psn s.host.applySn ++ psn stop)).coefRelease

/-- The halt span that label `a` falls in, with its resume (R346). -/
def State.spanOf (s : State) (a : Nat) : Option (Nat × Option Nat) :=
  s.dbg.spans.find? (fun p => decide (p.1 ≤ a) && (match p.2 with | none => true | some r => decide (a < r)))

/-- The run has ended, at sample `stop` or in DELAY (all ones): an apply that can no longer land strands (R347),
also one whose landing a halt holds back past the end of the run (DEDUCED). -/
def State.applyRunEnds (s : State) (stop : Nat) : State :=
  if s.applySt = 1 then { s with host := { s.host with ended := some stop } }
  else if s.applySt = 2 then
    match s.host.landAt with
    | some a => if stop = allOnes64 ∨ stop < a ∨ (s.spanOf a).isSome then s.strand stop else s
    | none => s.strand stop
  else s

/-- Is `a` the first SN after the resume of a halt of the run? A landing there settles within the HALT extension (R174). -/
def State.resumedAt (s : State) (a : Nat) : Bool := s.dbg.spans.any (fun p => p.2 == some a)

/-- Does `z` lie below SN_r? Then a stop there drains and a set lands there (R77). -/
def State.beforeReform (s : State) (z : Nat) : Bool := match s.reform.snr with | some r => decide (z < r) | none => true

/-- Does `z` lie at or before S_stop, where one is fixed (R98)? -/
def State.beforeStop (s : State) (z : Nat) : Bool := match s.run.stopAt with | some e => decide (z ≤ e) | none => true

/-- The SN at which the landing SN `a` takes effect: `a`, or the first SN after the resume where it falls in a debug halt span;
none while that halt lasts (R346). -/
def State.landsAt (s : State) (a : Nat) : Option Nat := match s.spanOf a with | some p => p.2 | none => some a

/-- APPLY_LANDING: the set of an ARMED apply lands. A landing past S_stop (R175), or at or after SN_r (R77), never comes. -/
def State.applyLanding (s : State) : State :=
  if s.applySt = 2 ∧ s.runSt = 3 then
    match s.host.landAt.bind s.landsAt with
    | none => s
    | some n => if n ≤ s.run.next ∧ s.beforeStop n = true ∧ s.beforeReform n = true then s.landAll (some n) (s.resumedAt n) else s
  else s

/-- Sets whose landing meets a re-form are discarded (R77): `n` names the apply SN or the label of an immediate landing. -/
def State.discardSet (s : State) (n : Nat) : State := (s.setF F.IMG_REFORM_STATUS_APPLY_DISCARDED 1).emit 0 0x0702 (psn n)

/-- A timed apply that has not landed is discarded (R77). -/
def State.applyDiscard (s : State) : State :=
  if s.applySt = 0 then s
  else
    let s := s.applyIdle.discardSet s.host.applySn
    ({ s with shadows := [] }).coefRelease

end Sys2Proof.Machine
end

