-- ==== Sys2Proof/Machine/Apply.lean ====
section
/-!
DEFINITION. Machine/Apply.lean: the timed apply, the immediate landings of CND and TRG, and the copy of the beam weights
(R145, R183, R206, R345-R347).
-/

namespace Sys2Proof.Machine

/-! ### The timed apply (R345, R346) -/

/-- APPLY_ARM: the check of the staged set begins, or ARM_BUSY is set. -/
def State.applyArm (s : State) : State :=
  if s.applySt ≠ 0 then s.setF F.HIF_APPLY_STATUS_ARM_BUSY 1
  else
    let s := { s with host := { s.host with
      checkFrom := s.tick, applySn := s.rd64 R.HIF_TIMED_APPLY_LO R.HIF_TIMED_APPLY_HI, landAt := none, landLate := false
      ended := none } }
    (s.setLocks true).setF F.HIF_APPLY_STATUS_STATE 1

def execApplyArm (id : Ident) (s : State) : Host.Outcome State Fault Refusal :=
  .next (s.gated id R.HIF_APPLY_CTRL 1#32 State.applyArm)

/-- A refused set (R345). -/
def State.applyRefuse (s : State) (off : Nat) : State :=
  let s := (s.setF F.IMG_APPLY_REFUSE_OFFSET off).setF F.IMG_APPLY_REFUSE_REFUSED 1
  ((s.setF F.HIF_APPLY_STATUS_REFUSED 1).applyIdle.emit 0 0x0E02 (pw off)).coefRelease

/-- The landing SN of a set whose check has passed, by the run state (R346). -/
def State.applyChoose (s : State) : State :=
  let n := s.host.applySn
  match s.host.ended with
  | some z => s.strand z
  | none =>
    match s.runSt with
    | 3 =>
      let s := s.setF F.HIF_APPLY_STATUS_STATE 2
      if s.notReached n then { s with host := { s.host with landAt := some n, landLate := false } }
      else ({ s with host := { s.host with landAt := some s.firstSn, landLate := true } }).setF F.HIF_APPLY_STATUS_LATE 1
    | 2 => { s.setF F.HIF_APPLY_STATUS_STATE 2 with host := { s.host with landAt := some n, landLate := false } }
    | _ => s.landAll none false

/-- APPLY_CHECK_DONE. -/
def State.applyCheckDone (s : State) : State :=
  if s.applySt = 1 then
    match s.checkSet false with
    | some off => s.applyRefuse off
    | none => s.applyChoose
  else s

def execApplyCheckDone (s : State) : Host.Outcome State Fault Refusal := .next s.applyCheckDone

def execApplyLanding (s : State) : Host.Outcome State Fault Refusal := .next s.applyLanding

/-- APPLY_DISARM: late once the landing SN has been reached (R345, R415). -/
def State.applyDisarm (s : State) : State :=
  match s.applySt with
  | 1 => s.applyIdle.coefRelease
  | 2 =>
    match s.host.landAt with
    | some a => if s.runSt = 3 ∧ a < s.run.next then s.late F.HIF_APPLY_STATUS_DISARM_LATE else s.applyIdle.coefRelease
    | none => s.applyIdle.coefRelease
  | _ => s

def execApplyDisarm (id : Ident) (s : State) : Host.Outcome State Fault Refusal :=
  .next (s.gated id R.HIF_APPLY_CTRL 2#32 State.applyDisarm)

/-! ### Immediate landings (R145, R206) -/

/-- The label of an immediate landing: the first SN after the write arrives; none outside RUN or past S_stop. -/
def State.nowSn (s : State) : Option Nat :=
  if s.runSt = 3 then
    match s.run.stopAt with
    | some z => if z < s.firstSn then none else some s.firstSn
    | none => some s.firstSn
  else none

/-- A landing that a halt holds lands at the resume (R409, code H); each waits once. -/
def State.nowHold (s : State) (k : Nat) : State :=
  if s.host.nowPend.contains k then s else { s with host := { s.host with nowPend := s.host.nowPend ++ [k] } }

/-- Would an immediate landing take a label at or after SN_r (R151, R409 code X)? -/
def State.nowPast (s : State) : Bool :=
  s.runSt == 3 && !s.beforeReform s.firstSn

/-- The flagged registers that `p` selects are discarded by a re-form as a timed set is (R77). -/
def State.nowDiscard (s : State) (p : Nat → Bool) : State :=
  let s := s.discardSet s.firstSn
  { s with shadows := s.shadows.filter (fun e => !p e.1) }

/-- The flagged delay registers of channel `c` land. -/
def State.delayLand (s : State) (c : Nat) (quiet : Bool) : State :=
  let at_ := s.nowSn
  let s := s.landSet (s.shadows.filter (fun e => (delayOffs c).contains e.1)) at_ quiet
  (s.loadSn c at_).setF (F.CND_STATUS_IMMED_DONE c) 1

/-- DELAY_NOW: the flagged delay registers of channel `c` land at once, or their field limits refuse the write. -/
def State.delayNow (s : State) (c : Nat) : State :=
  if s.shadows.any (fun e => (delayOffs c).contains e.1 && !limitsOk e.1 e.2) then s.setF (F.CND_STATUS_IMMED_REFUSED c) 1
  else if s.nowPast then s.nowDiscard (fun o => (delayOffs c).contains o)
  else if s.halted && s.nowSn.isSome then s.nowHold c
  else s.delayLand c (s.resumedAt s.firstSn)

def execDelayNow (id : Ident) (c : Fin 256) (s : State) : Host.Outcome State Fault Refusal :=
  .next (s.gated id (R.CND_DELAY_NOW c) 1#32 (·.delayNow c))

/-- The flagged TRG registers land. -/
def State.trgLand (s : State) : State :=
  let at_ := s.nowSn
  let s := s.landSet (s.shadows.filter (fun e => inTrg e.1)) at_ false
  (s.wr64 R.TRG_LOAD_SN_LO R.TRG_LOAD_SN_HI (at_.getD allOnes64)).setF F.TRG_STATUS_IMMED_DONE 1

/-- TRG_APPLY_NOW: the flagged TRG registers land at once, or a failing check refuses the write. -/
def State.trgNow (s : State) : State :=
  match s.checkSet true with
  | some _ => s.setF F.TRG_STATUS_IMMED_REFUSED 1
  | none =>
    if s.nowPast then s.nowDiscard inTrg
    else if s.halted && s.nowSn.isSome then s.nowHold 256 else s.trgLand

def execTrgApplyNow (id : Ident) (s : State) : Host.Outcome State Fault Refusal :=
  .next (s.gated id R.TRG_APPLY_NOW 1#32 State.trgNow)

/-- The landings that a halt held take place at the resume. -/
def State.nowResume (s : State) : State :=
  let l := s.host.nowPend
  let s := { s with host := { s.host with nowPend := [] } }
  l.foldl (fun s k => if k = 256 then s.trgLand else s.delayLand k true) s

/-! ### The weight bank copy (R183, R186) -/

/-- BANK_COPY. -/
def State.bankCopy (s : State) : State :=
  if s.bit F.BMF_STATUS_TARGET_LOCK || s.bit F.BMF_STATUS_COPY_BUSY then s.setF F.BMF_STATUS_COPY_REFUSED 1
  else s.setF F.BMF_STATUS_COPY_BUSY 1

def execBankCopy (id : Ident) (s : State) : Host.Outcome State Fault Refusal :=
  .next (s.gated id R.BMF_BANK_CTRL 1#32 State.bankCopy)

/-- (from, to) of every word of a copy out of bank `b`. -/
def copyPairs (b : Nat) : List (Nat × Nat) :=
  (List.range 16).flatMap (fun m =>
    (R.BMF_SHIFT m b, R.BMF_SHIFT m (1 - b)) :: (List.range 256).map (fun c => (R.BMF_W m b c, R.BMF_W m (1 - b) c)))

/-- COPY_END. Instants of the run labelled below keep the words they used (R184). All words of the copy take effect here, and until then
the target bank reads as it was: R186 gives each word an effect as it is written, in an order and at times it leaves open (DESIGN
CHOICE, assumption log 89). -/
def State.copyEnd (s : State) : State :=
  if s.bit F.BMF_STATUS_COPY_BUSY then
    ((copyPairs (s.getF F.BMF_BANK_SEL_SEL)).foldl (fun s p => s.land s.firstSn p.2 (s.rd p.1)) s).setF F.BMF_STATUS_COPY_BUSY 0
  else s

def execCopyEnd (s : State) : Host.Outcome State Fault Refusal := .next s.copyEnd

/-- A warm reset abandons a copy: which words it had written is open, so each is taken from a free value. -/
def State.copyAbandon (s : State) : State :=
  if s.bit F.BMF_STATUS_COPY_BUSY then
    ((copyPairs (s.getF F.BMF_BANK_SEL_SEL)).foldl (fun s p =>
      let (v, s) := s.free
      if v % 2 = 1 then s.wr p.2 (s.rd p.1) else s) s).setF F.BMF_STATUS_COPY_BUSY 0
  else s

end Sys2Proof.Machine
end

