-- ==== Sys2Proof/Machine/Conditioning.lean ====
section
/-!
DEFINITION. Machine/Conditioning.lean: from the converter to the ALIGNED tap: selector, tone, code, corrections, spike filter
and channel delay, one S-cycle of one channel (R78-R82, R127-R150).
-/

namespace Sys2Proof.Machine

/-! ### Converter word (R79-R82) -/

/-- The peak of the tone in units of 2^-16 code (R81): -6, -12, -20 and -40 dBFS of 8,192 codes. -/
def toneAmp (a : Nat) : Int := match a with | 0 => 269072847 | 1 => 134855876 | 2 => 53687091 | _ => 5368709

/-- The tone of group `g` at the sampling edge labelled `m`; outside RUN its phase is open. -/
def State.tone (s : State) (g m : Nat) : Int :=
  if s.bit (F.AFE_TONE_CTRL_EN g) then
    let k := s.getF (F.AFE_TONE_CTRL_M g)
    let q := if s.runSt = 3 then k * m * 1024 else k * s.run.scyc * 1024 + Config.tonePhase g
    let x := fxCos (fxMul fxPi (fxRat (2 * (((q : Int) + 2 ^ 19) % 2 ^ 20 - 2 ^ 19)) (2 ^ 20)))
    roundAway (toneAmp (s.getF (F.AFE_TONE_CTRL_AMP g)) * x) fx1.toNat
  else 0

/-- What channel `c` converts, in units of 2^-16 code, by its selector (R78). -/
def State.selected (s : State) (inp : List Int) (c m : Nat) : Int :=
  match s.getF (F.AFE_SEL_SEL c) with
  | 0 => inp.getD c 0
  | 2 => s.tone (c / 16) m
  | _ => 0

/-- Does a CALRUN drive the selectors (R105)? It does until its commit. -/
def State.calDrives (s : State) : Bool := s.cal.fg == 1 && s.mnt.running.any (fun y => y.a == actFgcal)

/-- What converter `k`, which feeds channel `c`, converts. While a CALRUN drives its selector to REF or ZERO that is a free value: the
spec gives neither the REF levels nor which of the two is selected when. -/
def State.converts (s : State) (inp : List Int) (c k m : Nat) : Int :=
  if s.calDrives then Config.refLevel k s.run.scyc else s.selected inp c m

/-- The converter that feeds channel `c`: its own, or the spare of its group while that serves it (R130). -/
def State.feeder (s : State) (c : Nat) : Nat := if s.servesNow (c / 16) (c % 16) then 256 + c / 16 else c

/-- The code of R82. -/
def codeOf (v : Int) : Int := max (-8192) (min 8191 (roundAway v 65536))

/-! ### Corrections (R121, R129, R130) -/

/-- Offset and gain in use for channel `c`: the spare's matching correction, the ramp of GLIDE, or its own factors. The ramp stays at
its end from handback + L; a value between two units is rounded down (DESIGN CHOICE, log 71: R121 names no rounding). -/
def State.corrNow (s : State) (c : Nat) : Int × Int :=
  let g := s.grp (c / 16)
  if s.servesNow (c / 16) (c % 16) then g.matching.getD (0, 65536)
  else
    let n : Int × Int := match s.fac s.lowPwr c with | some f => (f.off, f.gain) | none => (0, 65536)
    if g.gliding = some (c % 16) then
      let l : Int := (max 1 g.len : Nat)
      let i : Int := min l (s.run.scyc - g.from0 : Nat)
      (g.ret.1 + i * (n.1 - g.ret.1) / l, g.ret.2 + i * (n.2 - g.ret.2) / l)
    else n

/-- x1 of R129 in units of 2^-16 RAW LSB: 4 x code under neutral corrections. -/
def correct (code : Int) (f : Int × Int) : Int :=
  if f = (0, 65536) then 4 * code * 65536 else Config.calCorrect code f.1 f.2

/-- x3 of R129, in units of 2^-31 RAW LSB. -/
def State.trimmed (s : State) (c : Nat) (x1 : Int) : Int :=
  (x1 + s.getI (F.CND_USER_OFF_OFFSET c) * 65536) * (s.getF (F.CND_USER_GAIN_GAIN c) : Nat)

/-! ### Spike filter (R132) -/

/-- Half window: 0 in BYPASS, where the window setting has no effect. -/
def spkHalf (w : Word) : Nat := if getBits w 0 2 = 0 then 0 else getBits w 4 2 + 1

/-- CLEAN of a window of RAW words, newest first, with the settings `w` and threshold `thr`. -/
def spike (w : Word) (thr : Nat) (l : List Int) : Int :=
  let h := spkHalf w
  let x := l.getD h 0
  let v := sortI l
  match getBits w 0 2 with
  | 0 => x
  | 1 => v.getD h 0
  | 2 => if thr < (x - v.getD h 0).natAbs then v.getD h 0 else x
  | _ => v.getD (getBits w 8 4 - 1) 0

/-! ### Channel delay (R135-R139, R148) -/

/-- Greatest delay: 4,095 + (2^48 - 1) x 2^-48. -/
def tauMax : Int := (2 ^ 60 : Nat) - 1

/-- A(n) of R148 in units of 2^-16 sample. -/
def State.alignA (s : State) (n : Nat) : Int :=
  if s.getFAt n F.CND_ALIGN_CTRL_EN = 1 then
    match s.path.align.find? (fun e => decide (e.1 ≤ n)) with
    | some e => e.2
    | none => 0
  else 0

/-- τ_user(n) + A(n) before the limit of R138. -/
def State.tauRaw (s : State) (c n : Nat) : Int := tauAt (s.chanPath c).delay n + s.alignA n * (2 ^ 32 : Nat)

/-- τ_used(n). -/
def State.tauUsed (s : State) (c n : Nat) : Int := max 0 (min tauMax (s.tauRaw c n))

/-- floor(τ_used(n)). -/
def State.tauInt (s : State) (c n : Nat) : Nat := (s.tauUsed c n / (2 ^ 48 : Nat)).toNat

/-- The sum of R139 at position `d` and fraction `phi`, before saturation. The newest CLEAN word lies 16 labels ahead of the
ALIGNED word. -/
def interpolate (clean : List Int) (d phi : Nat) : Int :=
  convround (((List.zip (List.range 16) (interpTaps phi)).map (fun p => p.2 * clean.getD (24 + d - p.1) 0)).foldl (· + ·) 0) 16

/-! ### HALT at the taps (R146, R426) -/

/-- Is the word labelled `n` of channel `c` at tap `tap` valid with respect to a halt that began at `h` and was resumed at `r`? -/
def State.tapValid (s : State) (tap c n : Nat) (p : Nat × Option Nat) : Bool :=
  decide (n + tapLat tap < p.1) ||
  match p.2 with
  | none => false
  | some r =>
    let h := spkHalf (s.rdAt n (R.CND_SPK_CTRL c))
    match tap with
    | 0 => decide (r ≤ n)
    | 1 => decide (r + h ≤ n)
    | _ => decide (r + h + s.tauInt c n + 8 ≤ n)

/-- Is it valid with respect to every halt of the run? -/
def State.tapOk (s : State) (tap c n : Nat) : Bool := s.dbg.spans.all (s.tapValid tap c n)

/-! ### One S-cycle of a channel -/

/-- RAW (R82, R129): the word labelled `m` with its counters. -/
def State.stepRaw (s : State) (inp noise : List Int) (c m : Nat) (frozen : Bool) : State :=
  let k := s.feeder c
  let code := codeOf (s.converts inp c k m + noise.getD k 0)
  let s := if code = -8192 ∨ code = 8191 then s.bump (F.AFE_OVR_OVR c) else s
  if frozen then s
  else
    let x := convround (s.trimmed c (correct code (s.corrNow c))) 31
    let s := if satOver 16 x then s.bump (F.CND_SAT_RAW_COUNT c) else s
    s.updChan c (fun p => { p with raw := (satW 16 x :: p.raw).take 128, past := p.past + 1 })

/-- `l`, newest first from `k` labels back: words from before LOCKED or ON last rose read as 0, also for words that were on their way
(R128). -/
def ChanPath.since (p : ChanPath) (k : Nat) (l : List Int) : List Int := l.take (p.past - k)

/-- CLEAN (R132, R133): the word 35 labels back. -/
def State.stepClean (s : State) (c m : Nat) : State :=
  let n := m - 35
  let w := s.rdAt n (R.CND_SPK_CTRL c)
  let h := spkHalf w
  let raw := (s.chanPath c).since 0 (s.chanPath c).raw
  let l := (List.range (2 * h + 1)).map (fun k => raw.getD (35 - h + k) 0)
  let y := spike w (s.getFAt n (F.CND_SPK_THR_THR c)) l
  let s := if y = raw.getD 35 0 then s else s.bump (F.CND_EXCISE_COUNT c)
  s.updChan c (fun p => { p with clean := (y :: p.clean).take 4160 })

/-- The limit of R138 at label `n`. -/
def State.stepLimit (s : State) (c n : Nat) : State :=
  let t := s.tauRaw c n
  let lim := decide (t < 0) || decide (tauMax < t)
  let was := (s.chanPath c).limited
  let s := s.updChan c (fun p => { p with limited := lim })
  let s := s.setB (F.CND_STATUS_LIMIT c) lim
  if lim then
    let s := (s.bump (F.CND_LIMIT_COUNT c)).setF (F.CND_STATUS_LIMIT_HIT c) 1
    if was then s else s.emit 0 0x1001 (pw c ++ psn n)
  else s

/-- Words of ALIGNED kept: what the slowest chain output and the widest filters reach back to. -/
def State.keepAligned (s : State) : Nat := max (s.getF F.IMG_LAT_CHAIN_LAT) (s.getF F.IMG_LAT_BEAM_LAT) + 2048

/-- ALIGNED (R137-R139): the word 51 labels back. Without a label, and past the end of the run (R98), τ is the landed INT
and FRAC, which the limit of R138 never meets. -/
def State.stepAligned (s : State) (c m : Nat) (lab : Bool) : State :=
  let n := m - 51
  let lab := lab && decide (51 ≤ m) && s.produced n
  let t := if lab then s.tauUsed c n else s.tauReg c
  let y := interpolate ((s.chanPath c).since 35 (s.chanPath c).clean) (t / (2 ^ 48 : Nat)).toNat (t / (2 ^ 32 : Nat) % 65536).toNat
  let s := if satOver 16 y then s.bump (F.CND_SAT_ALIGNED_COUNT c) else s
  let keep := s.keepAligned
  let s := s.updChan c (fun p => { p with aligned := (satW 16 y :: p.aligned).take keep })
  if lab then s.stepLimit c n else (s.updChan c (fun p => { p with limited := false })).setB (F.CND_STATUS_LIMIT c) false

/-- One S-cycle of the conditioning of channel `c`, whose newest sample is labelled `m` where `lab` (R128). -/
def State.condStep (s : State) (inp noise : List Int) (m : Nat) (lab frozen : Bool) (c : Nat) : State :=
  if s.quadOn (c / 64) then
    let s := s.stepRaw inp noise c m frozen
    if frozen then s else (s.stepClean c m).stepAligned c m lab
  else s

/-- The conditioning of every channel at the sampling edge of SN 0 (R137, R153, R171): τ_user is loaded, the chain memories are
cleared, and run-start settling begins. -/
def State.runFirst (s : State) (c : Nat) : State :=
  let seg : DelaySeg := ⟨0, s.tauReg c, s.getI (F.CND_DELAY_RATE_RATE c)⟩
  (s.updChan c (fun p => { p with delay := [seg], limited := false, clears := [0], settles := [], halts := [] })).settle c 0

end Sys2Proof.Machine
end

