-- ==== Sys2Proof/Machine/Filters.lean ====
section
/-!
DEFINITION. Machine/Filters.lean: the reduction chain of a channel and the beam engine at one output instant (R152-R165,
R174, R176-R182).
-/

namespace Sys2Proof.Machine

/-! ### Stages (R154-R160) -/

/-- The bank in use at label `n`. -/
def State.bankAt (s : State) (c n : Nat) : Nat := s.getFAt n (F.FIR_BANK_SEL_SEL c)
/-- Its configuration as it stood at `n`. -/
def State.cfgAt (s : State) (c n : Nat) : Word := s.rdAt n (R.FIR_CFG c (s.bankAt c n))
/-- Its shifts. -/
def State.shAt (s : State) (c n : Nat) : Word := s.rdAt n (R.FIR_SHIFT c (s.bankAt c n))

/-- 20 bits of the NCO phase of the sample labelled `n` (R154, R155). -/
def State.ncoQ (s : State) (c n : Nat) : Nat :=
  (s.getFAt n (F.FIR_NCO_FREQ_FW c) * n + s.getFAt n (F.FIR_NCO_PHASE_OFF c) * 65536) % 2 ^ 32 / 4096

/-- The mixer or bypass at label `n` with input `x`, before saturation (R156). -/
def State.mixOf (s : State) (c n : Nat) (x : Int) : List Int :=
  let w := s.cfgAt c n
  if w.getLsbD 0 then
    let q := s.ncoQ c n
    let sh := getBits (s.shAt c n) 0 5
    [convround (x * ncoCos q) sh, convround (-x * ncoSin q) sh]
  else [x * 256]

/-- Saturation of every component. -/
def sat24 (v : List Int) : List Int := v.map (satW 24)

/-- Mixer words from label `n` down, at most `k` of them, newest first; those below `clear` are left out and read as 0. -/
def State.mixList (s : State) (c clear : Nat) : Nat → Nat → List Int → List (List Int)
  | 0, _, _ => []
  | k + 1, n, x =>
    if n < clear then []
    else
      let v := sat24 (s.mixOf c n (x.headD 0))
      if n = 0 then [v] else v :: s.mixList c clear k (n - 1) x.tail

/-- The sum of products of taps with component `i` of words, newest first; a missing word is 0. -/
def dot (taps : List Int) (l : List (List Int)) (i : Nat) : Int :=
  (List.zipWith (fun t v => t * v.getD i 0) taps l).foldl (· + ·) 0

/-- A stage output over `comps` components, before saturation. -/
def stageOut (taps : List Int) (sh comps : Nat) (l : List (List Int)) : List Int :=
  (List.range comps).map (fun i => convround (dot taps l i) sh)

/-- Taps and shift of halfband 1 or 2 at label `n` (R158, R159). -/
def State.hbSet (s : State) (c n k : Nat) : List Int × Nat :=
  (hbTaps (getBits (s.cfgAt c n) (2 + k) 1), getBits (s.shAt c n) (5 * k) 5)

/-- Halfband words from label `n` down at spacing `2 s0`, at most `k` of them, from input words at spacing `s0`. -/
def State.hbList (s : State) (c hb s0 comps clear : Nat) : Nat → Nat → List (List Int) → List (List Int)
  | 0, _, _ => []
  | k + 1, n, l =>
    if n < clear ∨ l.isEmpty then []
    else
      let (t, sh) := s.hbSet c n hb
      let v := sat24 (stageOut t sh comps l)
      if n < 2 * s0 then [v] else v :: s.hbList c hb s0 comps clear k (n - 2 * s0) (l.drop 2)

/-- The FIR coefficients in use at label `n` (R160, R161). -/
def State.firTaps (s : State) (c n : Nat) : List Int :=
  let b := s.bankAt c n
  let w := s.cfgAt c n
  (List.range (cfgT w)).map (fun j => toSigned 18 (s.getFAt n (F.FIR_COEF_COEF c b (tapWordOf w j))))

/-- What the chain of `c` does at label `n`: the values computed at MIX, HB1, HB2, FIR and RQ before saturation (none where the
stage has no output at `n`), and the output. -/
structure ChainOut where
  mix : List Int
  hb1 : List Int
  hb2 : List Int
  fir : List Int
  rq  : List Int
  w   : Nat
deriving DecidableEq, Repr

/-- The chain of channel `c` at label `n`, where the newest sampling edge is labelled `m` and the memories were cleared last
at `clear`. -/
def State.chainAt (s : State) (c m n clear : Nat) : ChainOut :=
  let w := s.cfgAt c n
  let sh := s.shAt c n
  let nhb := getBits w 1 2
  let t := cfgT w
  let comps := cfgComps w
  let x := (s.chanPath c).aligned.drop (m - n - 51)
  let mix := s.mixOf c n (x.headD 0)
  let mixL := s.mixList c clear ((t - 1) * cfgH w + 46 * (cfgH w - 1) + 1) n x
  let on1 := decide (1 ≤ nhb) && n % 2 == 0
  let on2 := decide (nhb = 2) && n % 4 == 0
  let (t1, sh1) := s.hbSet c n 1
  let (t2, sh2) := s.hbSet c n 2
  let hb1 := if on1 then stageOut t1 sh1 comps mixL else []
  let hb1L := if on1 then s.hbList c 1 1 comps clear ((t - 1) * cfgH w / 2 + 47) n mixL else []
  let hb2 := if on2 then stageOut t2 sh2 comps hb1L else []
  let hb2L := if on2 then s.hbList c 2 2 comps clear (t + 1) n hb1L else []
  let inL := if nhb = 0 then mixL else if nhb = 1 then hb1L else hb2L
  let here := n % (max 1 (cfgD w)) == 0
  let fir := if here && decide (t ≠ 0) then stageOut (s.firTaps c n) (getBits sh 15 5) comps inL else []
  let y := if t = 0 then inL.headD [] else sat24 fir
  { mix := if w.getLsbD 0 then mix else [], hb1 := hb1, hb2 := hb2, fir := fir,
    rq := if here then y.map (fun v => convround v (getBits sh 20 5)) else [], w := cfgW w }

/-- The chain output words at the instant. -/
def ChainOut.out (o : ChainOut) : List Int := o.rq.map (satW o.w)

/-- Saturated components of a stage. -/
def satCount (w : Nat) (l : List Int) : Nat := (l.filter (satOver w)).length

/-- The newest clear point of channel `c` at or before `n`; none before the run's first or inside a halt (R153, R174). -/
def ChanPath.clearAt (x : ChanPath) (n : Nat) : Option Nat := x.clears.find? (fun a => decide (a ≤ n))

/-- Components and values of the chain output of `c` at instant `n`: 0 at a withheld instant (R172). -/
def State.chainVal (s : State) (c m n : Nat) : List Int :=
  match (s.chanPath c).withheld n, (s.chanPath c).clearAt n with
  | none, some a => (s.chainAt c m n a).out
  | _, _ => List.replicate (cfgComps (s.cfgAt c n)) 0

/-- Counters of the chain of `c` as its words labelled `n` leave (R164). -/
def State.chainCount (s : State) (m n c : Nat) : State :=
  match (s.chanPath c).clearAt n with
  | none => s
  | some a =>
    let o := s.chainAt c m n a
    let s := s.bumpBy (F.FIR_SAT_MIX_COUNT c) (satCount 24 o.mix)
    let s := s.bumpBy (F.FIR_SAT_HB1_COUNT c) (satCount 24 o.hb1)
    let s := s.bumpBy (F.FIR_SAT_HB2_COUNT c) (satCount 24 o.hb2)
    let s := s.bumpBy (F.FIR_SAT_FIR_COUNT c) (satCount 24 o.fir)
    s.bumpBy (F.FIR_SAT_RQ_COUNT c) (satCount o.w o.rq)

/-! ### Beams (R177-R182) -/

/-- Members of beam `b` that contribute at instant `n` (R179). -/
def State.contributors (s : State) (b n : Nat) : List Nat :=
  let k := s.getFAt n F.BMF_BANK_SEL_SEL
  (s.beamMembers b).filter (fun c => s.rdAt n (R.BMF_W b k c) != 0#32)

/-- The sums of R180. -/
def State.beamSums (s : State) (b m n : Nat) : Int × Int :=
  let k := s.getFAt n F.BMF_BANK_SEL_SEL
  (s.contributors b n).foldl (fun (p : Int × Int) c =>
    let z := s.chainVal c m n
    let w := s.rdAt n (R.BMF_W b k c)
    let wr := toSigned 16 (getBits w 0 16)
    let wi := toSigned 16 (getBits w 16 16)
    let zr := z.getD 0 0
    let zi := z.getD 1 0
    (p.1 + (zr * wr - zi * wi), p.2 + (zr * wi + zi * wr))) (0, 0)

/-- Beam `b` at instant `n` before saturation (R181). -/
def State.beamAt (s : State) (b m n : Nat) : List Int :=
  let sh := s.getFAt n (F.BMF_SHIFT_SH b (s.getFAt n F.BMF_BANK_SEL_SEL))
  let p := s.beamSums b m n
  [convround p.1 sh, convround p.2 sh]

/-- Is `n` an instant of a halt of the run at an output point with latency `lat` (R426)? -/
def State.haltedAt (s : State) (lat n : Nat) : Bool :=
  s.dbg.spans.any (fun p => decide (p.1 ≤ n + lat) && (match p.2 with | none => true | some r => decide (n < r)))

/-- The cause under which beam `b` withholds its instant `n` (R182, R426). With no contributing channel nothing is withheld. -/
def State.beamCause (s : State) (b n : Nat) : Option Nat :=
  let l := (s.contributors b n).map (fun c => (s.chanPath c).withheld n)
  if l.isEmpty then none
  else if s.haltedAt (s.getF F.IMG_LAT_BEAM_LAT) n || l.contains (some causeHalt) then some causeHalt
  else if l.contains (some causeSettle) then some causeSettle
  else none

/-- Counters of beam `b` as instant `n` leaves the engine (R181, R182). A frozen engine computes nothing, and the instants that
the halt withholds count (R182). -/
def State.beamCount (s : State) (m n b : Nat) (frozen : Bool) : State :=
  if (s.beamMembers b).isEmpty then s
  else
    let s := if frozen then s else s.bumpBy (F.BMF_SAT_COUNT b) (satCount 16 (s.beamAt b m n))
    if (s.beamCause b n).isSome then s.bump (F.BMF_WITHHELD_COUNT b) else s

end Sys2Proof.Machine
end

