-- ==== Sys2Proof/Machine/Streams.lean ====
section
/-!
DEFINITION. Machine/Streams.lean: the packetiser of continuous streams and of the fumarole stream, END packets, failback
and the drain timeout (R278-R306).
-/

namespace Sys2Proof.Machine

/-! ### Entering DELAY (R20, R278, R301, R303, R305) -/

/-- Does VERS of stream `i` allow version `v`? -/
def State.verAllowed (s : State) (i v : Nat) : Bool := decide (0 < v) && decide (v ≤ 3) && (getBits (s.rd (R.STR_DEF i)) (15 + v) 1 == 1)

/-- The version of the next run: REQ, or the default version where VERS does not allow REQ. -/
def State.nextVer (s : State) (i : Nat) : Nat :=
  let r := s.getF (F.STR_VER_REQ i)
  if s.verAllowed i r then r else s.getF (F.STR_DEF_DEF_VER i)

/-- Stream `i` as the run enters DELAY: counters and sequence numbers 0, EN, REQ and HUB_ID taken, return to the primary
port when its link is up. -/
def State.strEnterDelay (s : State) (i : Nat) : State :=
  let act := s.bit (F.STR_CTRL_EN i) && s.strKind i != 0
  let v := s.nextVer i
  let s := s.updStr i (fun x => { StreamState.reset with
    active := act, ver := v, hubId := s.getF F.STR_HUB_ID_HUB_ID, lossy := x.lossy, lastData := x.lastData })
  let s := if s.strKind i = 0 then s else s.setF (F.STR_VER_IN_USE i) v
  let s := s.setF (F.STR_FRAME_SEQ_NEXT i) 0
  let s := s.setF (F.STR_REC_SEQ_NEXT i) 0
  let s := s.setF (F.STR_GAPS_COUNT i) 0
  let s := s.setF (F.STR_STATUS_END_SENT i) 0
  let p := s.getF (F.STR_DEF_PORT i)
  if s.linkUp p then
    ((s.setF (F.STR_STATUS_PORT_NOW i) p).setF (F.STR_STATUS_ON_FO i) 0).setF (F.STR_STATUS_FAILBACK_PENDING i) 0
  else s

/-! ### FRAME_BUILD (R281) -/

/-- The GAP packets due ahead of content that ends with the instant `last` (R288): every run that does not reach it. -/
def State.dueGaps (s : State) (i last : Nat) : List Packet :=
  let st := s.str i
  ((groupRuns (sortRuns (st.runs.filter (fun r => decide (r.last < last))))).map (fun g => s.gapPkt i g))

/-- The sources of an instant that are not declared. -/
def okSrcs : List Nat → List SrcVal → List Nat
  | j :: js, .val _ _ :: vs => j :: okSrcs js vs
  | _ :: js, .decl _ _ :: vs => okSrcs js vs
  | _, _ => []

/-- SPARE_ACTIVE of a source-sample (R123). -/
def SrcVal.spare : SrcVal → Bool
  | .val _ b => b
  | .decl _ b => b

/-- Must the DATA packet carry an anchor (R292)? -/
def State.wantsAnchor (s : State) (i : Nat) (a : Anchor) : Bool :=
  let st := s.str i
  st.fresh || s.bit (F.STR_CTRL_ANCHOR_ALL i) ||
  match st.lastAnchor with
  | none => true
  | some (n, e) => a.epoch != e || decide (n + 2 ^ 22 ≤ a.sn)

/-- Has a spare adopted the place of channel `c` (R110)? -/
def State.adoptedNow (s : State) (c : Nat) : Bool :=
  s.bit (F.CAL_GROUP_STATE_ADOPTED (c / 16)) && s.getF (F.CAL_GROUP_STATE_ADOPT_POS (c / 16)) == c % 16

/-- SPARE_ACTIVE of a frame with the instants `l` of continuous stream `i`: content from a spare, or an adopted channel that the
frame carries (R123), for a beam one that contributes to it (R182). -/
def State.spareFlag (s : State) (i : Nat) (l : List Instant) : Bool :=
  l.any (fun x => x.vals.any SrcVal.spare) ||
    (if s.strKind i = 3 then l.flatMap (fun x => (s.strSrc i).flatMap (fun b => s.contributors b x.sn)) else s.strSrc i).any
      s.adoptedNow

/-- The DATA packet of the instants `l` of stream `i` (R281-R285, R292). -/
def State.dataPkt (s : State) (i : Nat) (l : List Instant) : Packet :=
  let st := s.str i
  let srcs := s.strSrc i
  let first := (l.map (·.sn)).headD 0
  let last := (l.map (·.sn)).getLastD 0
  let content := l.map (fun x => (x.sn, okSrcs srcs x.vals))
  let ok := content.foldl (fun a c => a + c.2.length) 0
  let dc := l.foldl (fun a x => a + (declSrcs x.sn srcs x.vals).length) 0
  let p := s.newPkt i 0 first last
  let p := { p with
    flags := p.flags + b2n (decide (0 < dc)) + 4 * b2n (s.spareFlag i l)
    count := l.length
    payload := l.flatMap (instPayload (s.strComps i) (s.strW i))
    posEnd := st.pos + ok + dc
    declIn := st.pendDecl + dc
    okIn := ok
    content := content
    held := l.flatMap (fun x => declSrcs x.sn srcs x.vals) }
  match s.anchorFor last with
  | some a => if st.ver != 1 && s.wantsAnchor i a then s.withAnchor i p a else p
  | none => p

/-- The content of packet `p`, which is not in the queue, is declared under `cause`; the frame that follows carries an anchor
(R292). -/
def State.unbuilt (s : State) (cause : Nat) (p : Packet) : State :=
  let s := (contentRuns cause p.cap p.content).foldl (fun s r => s.declare p.stream r) s
  s.updStr p.stream (fun x => { x with pendDecl := p.declIn + p.okIn, pos := p.posEnd, fresh := true })

/-- Packet `p` was not written for lack of credit (R235): FQ_NOCREDIT counts, its content is declared LINK. -/
def State.notWritten (s : State) (n : Nat) (p : Packet) : State :=
  ((s.bump (F.FLW_FQ_NOCREDIT_COUNT n)).bpQueue 1 n 2).unbuilt causeLink p

/-- The frame is larger than the queue (R237): it is rewound and its content declared LINK. -/
def State.oversized (s : State) (n : Nat) (p : Packet) : State :=
  ((s.bump (F.FLW_FQ_OVERSIZE_COUNT n)).bump (F.FLW_FQ_REWINDS_COUNT n)).unbuilt causeLink p

/-- Commits the last packets of a stream one by one, each on its own credit (R235). The first that is not written keeps those
behind it back as well; what they report stays due. The packets that went. -/
def State.commitPre (s : State) (n : Nat) : List Packet → List Packet × State
  | [] => ([], s)
  | q :: t =>
    if !s.fqRoom n q.words then ([], (s.bump (F.FLW_FQ_NOCREDIT_COUNT n)).bpQueue 1 n 2)
    else if s.fqUsable n < q.lines then
      ([], (s.bump (F.FLW_FQ_OVERSIZE_COUNT n)).bump (F.FLW_FQ_REWINDS_COUNT n))
    else
      let (l, s) := (s.fqCommit n q).commitPre n t
      (q :: l, s)

/-- What the packets `l` report is no longer due. -/
def StreamState.reported (x : StreamState) (l : List Packet) : StreamState :=
  let sent := l.flatMap (·.runs)
  { x with
    runs := x.runs.filter (fun r => !(sent.any (fun q => q.src == r.src && q.first == r.first && q.cause == r.cause && q.cap == r.cap)))
    marks := x.marks.filter (fun m => !(m.rel.isNone && l.any (fun q => q.kind == 3 && q.firstSn == m.sn)))
    lastAnchor := ((l.filterMap (·.anchor)).getLast?).or x.lastAnchor }

/-- What packets one after another meet in a queue with `u` usable lines and the credit `c`. -/
inductive Fits where
  | all                          -- credit covers every one of them (R235)
  | short                        -- one lacks credit
  | large                        -- one is larger than the queue (R237)
deriving DecidableEq, Repr

/-- Do the packets fit one after another? -/
def fits (u : Nat) : Nat → List Packet → Fits
  | _, [] => .all
  | c, p :: t =>
    if u = 0 ∨ (c < p.words ∧ c ≠ 16 * u) then .short else if u < p.lines then .large else fits u (c - p.words) t

/-- Commits `pre` (GAP, MARK and ANCHOR packets) and then packet `p` to the stream's queue (R235, R288, R291). They are formed for
`p`: where they do not all fit, `p` is not written and its content is declared LINK, and what the others report stays due (DESIGN
CHOICE, assumption log 83). Whether they went. -/
def State.commitTry (s : State) (pre : List Packet) (p : Packet) : Bool × State :=
  let i := p.stream
  let n := s.fqOf i
  match fits (s.fqUsable n) (s.getF (F.FLW_FQ_CREDIT_WORDS n)) (pre ++ [p]) with
  | .short => (false, s.notWritten n p)
  | .large => (false, s.oversized n p)
  | .all =>
    let s := (s.updStr i (fun x => x.reported pre)).fqCommitAll n pre
    (true, ((s.fqCommit n p).updStr i (fun x => { x.reported [p] with
      pendDecl := 0, pos := p.posEnd, declPos := x.declPos + p.declIn, fresh := false })).pace i (pre ++ [p]))

/-- `State.commitTry` where nothing hangs on its answer. -/
def State.commitWith (s : State) (pre : List Packet) (p : Packet) : State := (s.commitTry pre p).2

/-- The marks due ahead of content that ends with `last` (R291); v1 streams carry none (R285). -/
def State.dueMarks (s : State) (i last : Nat) : List Packet :=
  let st := s.str i
  if st.ver = 1 then [] else (st.marks.filter (fun m => m.rel.isNone && decide (m.sn ≤ last))).map (fun m => s.markPkt i m)

/-- FRAME_BUILD (R281): once the head frame of a continuous stream is complete the packetiser builds it, with the GAP and
MARK packets that precede it, and commits it; a frame with nothing but declared samples is not built. -/
def State.frameBuild (s : State) (i : Nat) : State :=
  let (l, full) := s.headFrame i
  if s.strCont i && (s.str i).active && full && !s.halted then
    let srcs := s.strSrc i
    let last := (l.map (·.sn)).getLastD 0
    let decl := l.flatMap (fun x => declSrcs x.sn srcs x.vals)
    let d := s.strD i
    let s := s.updStr i (fun x => { x with
      insts := x.insts.drop l.length, runs := decl.foldl (fun rs r => addRun d r rs) x.runs })
    let p := s.dataPkt i l
    if p.okIn = 0 then
      s.updStr i (fun x => { x with pendDecl := p.declIn, pos := p.posEnd, fresh := true })
    else
      s.commitWith (s.dueGaps i last ++ s.dueMarks i last) p
  else s

def execFrameBuild (i : Fin 64) (s : State) : Host.Outcome State Fault Refusal := .next (s.frameBuild i)

/-! ### FUMAROLE_PACKET_BUILD (R300) -/

/-- Whole records that fit into `room` bytes. -/
def takeRecs : Nat → List (List Word) → List (List Word)
  | _, [] => []
  | room, r :: t => if 4 * r.length ≤ room then r :: takeRecs (room - 4 * r.length) t else []

/-- Is a FUMAROLE packet due: the next record does not fit, the hold time has passed, or the drain has begun? -/
def State.fumDue (s : State) (i : Nat) : Bool :=
  let st := s.str i
  decide (st.recs ≠ []) &&
  (decide ((takeRecs 8192 st.recs).length < st.recs.length) || st.ending.isSome ||
    match st.recTicks with
    | [] => false
    | k :: _ => decide (k + 500 * s.getF F.STR_FUM_HOLD_HOLD_US ≤ s.tick))

/-- The FUMAROLE packet of the records `l` (R282, R293, R300). -/
def State.fumPkt (s : State) (i : Nat) (l : List (List Word)) : Packet :=
  let st := s.str i
  { s.newPkt i 5 st.ordinal (st.ordinal + l.length - 1) with
    count := l.length
    payload := l.flatMap wordsLe
    posEnd := st.pos + l.length
    declIn := st.pendDecl
    okIn := l.length
    content := (List.range l.length).map (fun k => (st.ordinal + k, [0])) }

/-- FUMAROLE_PACKET_BUILD: whole records, with GAP, MARK and ANCHOR packets ahead, at the reserved rate (R60). -/
def State.fumBuild (s : State) : State :=
  match s.fumStream with
  | none => s
  | some i =>
    if s.fumDue i && !s.halted && s.paced i then
      let l := takeRecs 8192 (s.str i).recs
      let p := s.fumPkt i l
      let anc := match s.time.anchors.head? with
        | some a => if s.wantsAnchor i a then [s.anchorPkt i a] else []
        | none => []
      let pre := s.dueGaps i (p.firstSn + l.length) ++ ((s.str i).marks.filter (fun m => m.rel.isNone)).map (fun m => s.markPkt i m) ++ anc
      let s := s.updStr i (fun x => { x with
        recs := x.recs.drop l.length, ordinal := x.ordinal + l.length,
        recTicks := x.recTicks.drop l.length })
      s.commitWith pre p
    else s

def execFumarolePacketBuild (s : State) : Host.Outcome State Fault Refusal := .next s.fumBuild

/-! ### END_PACKET (R290) -/

/-- Is a packet of stream `i` committed and not yet delivered on its current port? -/
def State.undelivered (s : State) (i : Nat) : Bool :=
  decide (s.queued i ≠ []) ||
    (match (s.ports.getD (s.getF (F.STR_STATUS_PORT_NOW i)) NetPort.reset).sending with
     | some (.packet _ q _ _) => q.stream == i
     | _ => false)

/-- Are all triggers up to the last label of the run decided, so that no capture can still be admitted (R98, R198)? After a loss of lock
that waits for the relock of R85, since no S-cycle passes before (assumption log 84). -/
def State.trigsDone (s : State) : Bool :=
  !s.run.running ||
    (decide (s.trg.met = []) && (match s.run.endSn with | some z => decide (z < s.trg.nextN) | none => true))

/-- Has everything ahead of the END packet of stream `i` been packed? A geyser stream waits for the last decision, and the fumarole
stream ends last, after the copies of the other streams' records (R299). -/
def State.endReady (s : State) (i : Nat) : Bool :=
  let st := s.str i
  st.active && st.ending.isSome && !st.endQueued && decide (st.insts = []) && decide (st.recs = []) &&
  (s.strKind i != 4 || s.trigsDone) && !(s.trg.caps.any (fun c => c.stream == i)) && decide (st.gey = []) &&
  (s.strKind i != 5 || ((List.range 64).all (fun k => k == i || !(s.str k).active || s.bit (F.STR_STATUS_END_SENT k)) &&
    s.recq.all (fun r => r.typ / 256 != 12)))

/-- The END packet of stream `i`. -/
def State.endPkt (s : State) (i reason : Nat) : Packet :=
  let st := s.str i
  let last := match st.lastSn with | some n => n | none => allOnes64
  { s.newPkt i 2 last last with
    payload := endPayload reason st.ver i st.frames last st.produced st.delivered st.declared
      (s.getF (F.STR_GAPS_COUNT i))
    reason := reason }

/-- The GAP packets of every run stream `i` has left. -/
def State.lastGaps (s : State) (i : Nat) : List Packet := (groupRuns (sortRuns (s.str i).runs)).map (fun g => s.gapPkt i g)

/-- END_PACKET: the stream's last GAP packets are committed, each on its own credit (R235); once they and all before them are
delivered, so that the counters are final, its END packet is committed. -/
def State.endBuild (s : State) (i : Nat) : State :=
  if s.endReady i && !s.halted then
    match (s.str i).ending with
    | none => s
    | some r =>
      let n := s.fqOf i
      if (s.lastGaps i).isEmpty && s.undelivered i then s
      else
        let end_ := (s.lastGaps i).isEmpty
        let (sent, s) := s.commitPre n (if end_ then [s.endPkt i r] else s.lastGaps i)
        let s := (s.updStr i (fun x => x.reported sent)).pace i sent
        if end_ && !sent.isEmpty then s.updStr i (fun x => { x with endQueued := true, drainFrom := none }) else s
  else s

def execEndPacket (i : Fin 64) (s : State) : Host.Outcome State Fault Refusal := .next (s.endBuild i)

/-- DRAINING clears after the last END packet (R89). -/
def State.drainCheck (s : State) : State :=
  if (List.range 64).all (fun k => !(s.str k).active || s.bit (F.STR_STATUS_END_SENT k)) then
    (s.setF F.AFE_RUN_STATUS_DRAINING 0).worked 10
  else s

/-! ### Failback and drain timeout (R303, R304) -/

/-- FAILBACK asks for the return to the primary port. A stream on its primary port has nowhere to return to. -/
def State.failbackReq (s : State) (i : Nat) : State :=
  if s.bit (F.STR_STATUS_ON_FO i) then s.setF (F.STR_STATUS_FAILBACK_PENDING i) 1 else s

/-- FAILBACK_TAKES_EFFECT: at a commit with no undelivered frame of the stream on its current port. -/
def State.failbackNow (s : State) (i : Nat) : State :=
  if s.bit (F.STR_STATUS_FAILBACK_PENDING i) && !s.undelivered i then
    ((s.setF (F.STR_STATUS_PORT_NOW i) (s.getF (F.STR_DEF_PORT i))).setF (F.STR_STATUS_ON_FO i) 0).setF
      (F.STR_STATUS_FAILBACK_PENDING i) 0
  else s

def execFailbackTakesEffect (i : Fin 64) (s : State) : Host.Outcome State Fault Refusal := .next (s.failbackNow i)

/-- The sequence number a packet of kind DATA or FUMAROLE, or of another kind, carries (R286). -/
def State.nextSeq (s : State) (p : Packet) : Nat :=
  match p.frozen with
  | some f => f.1
  | none => if p.kind = 0 ∨ p.kind = 5 then s.getF (F.STR_FRAME_SEQ_NEXT p.stream) else s.getF (F.STR_REC_SEQ_NEXT p.stream)

/-- The counters of the stream of `p` once `p` is sent: a DATA or FUMAROLE packet delivers its content, a GAP packet reports. -/
def State.countSent (s : State) (p : Packet) : State :=
  let i := p.stream
  if p.kind = 0 ∨ p.kind = 5 then
    (s.bump (F.STR_FRAME_SEQ_NEXT i)).updStr i (fun x => { x with
      delivered := x.delivered + p.okIn, settled := x.settled + p.declIn, frames := x.frames + 1
      lastData := if p.kind = 0 then some s.tick else x.lastData })
  else
    let s := s.bump (F.STR_REC_SEQ_NEXT i)
    if p.kind = 1 then
      (s.bump (F.STR_GAPS_COUNT i)).updStr i (fun x => { x with gapDecl := x.gapDecl + leAt p.payload 16 8 })
    else s

/-- Packet `p` counts as sent: the sequence number and the counters it carries are settled now (R304). -/
def State.freeze (s : State) (p : Packet) : State × Packet :=
  (s.countSent p, { p with frozen := some (s.nextSeq p, s.pktCounters p) })

/-- `State.freeze` of one packet after another. -/
def freezeAll (s : State) : List Packet → State × List Packet
  | [] => (s, [])
  | p :: t =>
    let (s, q) := s.freeze p
    let (s, t') := freezeAll s t
    (s, q :: t')

/-- Instants and records of stream `i` that are not in a packet yet meet their fate: what was declared stays so, the rest is
declared under `cause`. -/
def State.dropHeld (s : State) (i cause : Nat) : State :=
  let srcs := s.strSrc i
  let st := s.str i
  let d := s.strD i
  let decl := st.insts.flatMap (fun x => declSrcs x.sn srcs x.vals)
  let ok := st.insts.flatMap (fun x => (okSrcs srcs x.vals).map (fun j => (⟨j, cause, 0, x.sn, x.sn⟩ : GapRun)))
  let s := s.updStr i (fun x => { x with insts := [], runs := decl.foldl (fun rs r => addRun d r rs) x.runs })
  let s := ok.foldl (fun s r => s.declare i r) s
  let recs := (List.range st.recs.length).map (fun k => (⟨0, cause, 0, st.ordinal + k, st.ordinal + k⟩ : GapRun))
  let s := recs.foldl (fun s r => s.declare i r) s
  s.updStr i (fun x => { x with recs := [], recTicks := [], ordinal := x.ordinal + st.recs.length })

/-- Commits packets of queue `n` that count as sent (R304). One for which the credit does not last takes no lines until it leaves. -/
def State.commitSent (s : State) (n : Nat) : List Packet → State
  | [] => s
  | p :: t =>
    (match fits (s.fqUsable n) (s.getF (F.FLW_FQ_CREDIT_WORDS n)) [p] with
      | .all => s.fqCommit n p
      | .short => ((s.bump (F.FLW_FQ_NOCREDIT_COUNT n)).bpQueue 1 n 2).updFq n (· ++ [{ p with stored := false }])
      | .large => ((s.bump (F.FLW_FQ_OVERSIZE_COUNT n)).bump (F.FLW_FQ_REWINDS_COUNT n)).updFq n
          (· ++ [{ p with stored := false }])).commitSent n t

/-- DRAIN_TIMEOUT: the undelivered frames of a stream whose port is down are declared LINK, and its GAP packets and its END
packet with REASON 3 are committed and count as sent. Due when the stream drains, its port is down and STR_DRAIN
milliseconds have passed. Instants up to S_stop that the pipeline still holds share the fate of the frames (R21, R27). -/
def State.drainTimeout (s : State) (i : Nat) : State :=
  let st := s.str i
  let due := st.active && s.bit F.AFE_RUN_STATUS_DRAINING && !s.bit (F.STR_STATUS_END_SENT i) &&
    !s.halted && !s.linkUp (s.getF (F.STR_STATUS_PORT_NOW i)) && !(s.trg.caps.any (fun c => c.stream == i)) && decide (st.gey = []) &&
    (s.strKind i != 4 || s.trigsDone) &&
    (match st.drainFrom with
     | none => false
     | some k => decide (k + 500000 * s.getF F.STR_DRAIN_DRAIN_MS ≤ s.tick))
  if due then
    let n := s.fqOf i
    let (mine, s) := s.takeOut i n
    let s := s.loseAll causeLink mine
    let s := (s.dropHeld i causeLink).pipeLose causeLink (match s.run.endSn with | some z => z + 1 | none => 0) i
    let gaps := (groupRuns (sortRuns (s.str i).runs)).map (fun g => s.gapPkt i g)
    let (s, gaps) := freezeAll s gaps
    let (s, endp) := freezeAll s [s.endPkt i 3]
    let all := gaps ++ endp
    let s := s.commitSent n all
    let s := s.copyRecs all
    let s := s.updStr i (fun x => { x with runs := [], ending := x.ending.or (some 3), endQueued := true, drainFrom := none })
    let s := (s.setF (F.STR_STATUS_DRAIN_TIMEOUT i) 1).setF (F.STR_STATUS_END_SENT i) 1
    s.drainCheck
  else s

def execDrainTimeout (i : Fin 64) (s : State) : Host.Outcome State Fault Refusal := .next (s.drainTimeout i)

/-! ### The end of a run (R21, R89, R98) -/

/-- Every active stream ends with `reason`; the drain wait of R304 begins. -/
def State.endStreams (s : State) (reason : Nat) : State :=
  { s with strs := s.strs.map (fun x => if x.active then { x with ending := some reason, drainFrom := some s.tick } else x) }

/-- The packet of stream `i` that a port is sending counts as sent. -/
def State.freezeSending (s : State) (i p : Nat) : List Packet × State :=
  match (s.ports.getD p NetPort.reset).sending with
  | some (.packet k q seq held) =>
    if q.stream = i ∧ q.frozen = none then
      let (s, q) := s.freeze q
      ([q], { s with ports := updAt (fun x => { x with sending := some (.packet k q seq held) }) s.ports p })
    else ([], s)
  | _ => ([], s)

/-- `State.freeze` of the packets of stream `i` among those of a queue: the packets that changed, and the queue. -/
def freezeMine (i : Nat) (s : State) : List Packet → List Packet × List Packet × State
  | [] => ([], [], s)
  | p :: t =>
    if p.stream = i ∧ p.dead = false ∧ p.frozen = none then
      let (s, q) := s.freeze p
      let (mine, l, s) := freezeMine i s t
      (q :: mine, q :: l, s)
    else
      let (mine, l, s) := freezeMine i s t
      (mine, p :: l, s)

/-- Packets of stream `i` that a run which ended in DELAY leaves on its port or in the queue count as sent: their sequence numbers and
counters are those of that run (R286, R290), and the fumarole stream has its copies of them (R299). -/
def State.freezeQueue (s : State) (i : Nat) : State :=
  let n := s.fqOf i
  let (a, s) := s.freezeSending i (n / 4)
  let (b, l, s) := freezeMine i s (s.fq n)
  (s.updFq n (fun _ => l)).copyRecs (a ++ b)

/-- Before a new run zeroes the counters of stream `i`, what a run that ended in DELAY still has to send leaves for its queue: its
last records and GAP packets and its END packet. -/
def State.finishEnd (s : State) (i : Nat) : State :=
  let s := (if s.strKind i = 5 then s.fumBuild else s).freezeQueue i
  match (s.str i).ending with
  | none => s
  | some r =>
    if (s.str i).active && !(s.str i).endQueued && !s.bit (F.STR_STATUS_END_SENT i) then
      let s := s.dropHeld i causeLink
      let (s, gaps) := freezeAll s (s.lastGaps i)
      let (s, e) := freezeAll s [s.endPkt i r]
      ((s.commitSent (s.fqOf i) (gaps ++ e)).updStr i (fun x => { x with runs := [], endQueued := true })).copyRecs (gaps ++ e)
    else s

/-- The streams as the run enters DELAY (R20, R278). -/
def State.streamsEnterDelay (s : State) : State :=
  let s := (List.range 64).foldl State.finishEnd s
  (List.range 64).foldl State.strEnterDelay s

end Sys2Proof.Machine
end

