-- ==== Sys2Proof/Machine/QueueOps.lean ====
section
/-!
DEFINITION. Machine/QueueOps.lean: word, frame and event queues: pops, flushes and their FLUSHED records, queue faults
(R229-R254).
-/

namespace Sys2Proof.Machine

/-! ### Entries (R229, R230, R250, R251) -/

def State.evq (s : State) (n : Nat) : EvQueue := s.eqs.getD n EvQueue.reset
def State.updEvq (s : State) (n : Nat) (f : EvQueue → EvQueue) : State := { s with eqs := updAt f s.eqs n }
def State.wq (s : State) (n : Nat) : WordQueue := s.wqs.getD n WordQueue.reset
def State.updWq (s : State) (n : Nat) (f : WordQueue → WordQueue) : State := { s with wqs := updAt f s.wqs n }

/-- PACKETS: the END marks stored (R230). -/
def packetsOf (l : List QEntry) : Nat := (l.filter (·.enda)).length

/-- A queue fault location (R251). -/
def queueLoc (kind queue pos : Nat) : Nat := 2 ^ 31 + kind * 2 ^ 29 + queue * 2 ^ 20 + pos % 2 ^ 20

/-- The FLUSHED record (R248): KIND 0 word, 1 frame, 2 event queue. -/
def State.flushedRec (s : State) (queue kind flushes cause words items : Nat) : State :=
  s.emit 0 0x0401 (pw (queue + kind * 2 ^ 9 + min flushes 255 * 2 ^ 16 + cause * 2 ^ 24) ++ pw words ++ pw items)

/-- Flush causes of R248. -/
def flushSoftware : Nat := 0
def flushLasting : Nat := 1
def flushReform : Nat := 2
def flushDomain : Nat := 3

/-! ### The word queue of a hub job (R230-R232, R249, R250, R266) -/

/-- The word queues from SNT to the packetiser, in ascending number (R229, R266). -/
def State.geyQueues (s : State) : List Nat :=
  match s.image with
  | none => []
  | some m => (List.range m.wqs.length).filter (fun n => match m.wqs[n]? with | some q => q.srcBlk == 11 && q.dstBlk == 12 | none => false)

/-- GEYSER streams, ascending. -/
def State.geyStreams (s : State) : List Nat := (List.range 64).filter (fun i => s.strKind i == 4)

/-- The word queue that carries the hub jobs of stream `i`, where STRUCT has one: the k-th of them for the k-th GEYSER stream
(DESIGN CHOICE, assumption log 37). -/
def State.geyQueue (s : State) (i : Nat) : Option Nat := s.geyQueues[s.geyStreams.idxOf i]?

/-- The GEYSER stream whose hub jobs use word queue `n`. -/
def State.wqStream (s : State) (n : Nat) : Option Nat := s.geyStreams.find? (fun i => s.geyQueue i == some n)

/-- Producer credit of word queue `n` (R231). -/
def State.wqCredit (s : State) (n : Nat) : Nat := s.getF (F.FLW_WQ_INFO_DEPTH n) - (s.wq n).entries.length

/-- The words of channel `x` from byte `off` on, an item with END on its last word. -/
def CapChan.entries (x : CapChan) : List QEntry :=
  let b := x.bytes.drop ((x.off + 3) / 4 * 4)
  let k := (b.length + 3) / 4
  (List.range k).map (fun j => ⟨lo32 (leAt b (4 * j) 4), j + 1 == k, j + 1 == k, [], false⟩)

/-- What the hub jobs of stream `i` have still to hand over, as entries. -/
def State.geyEntries (s : State) (i : Nat) : List QEntry := (s.str i).gey.flatMap (fun o => o.chans.flatMap CapChan.entries)

/-- The hub job of stream `i` stores words while it has credit (R231, R266); none while a discard is in progress. The packetiser has
popped `d` words of a packet that is not built yet. -/
def State.wqFill (s : State) (i d : Nat) : State :=
  match s.geyQueue i with
  | none => s
  | some n =>
    if s.bit (F.FLW_WQ_STATUS_DISCARDING n) then s
    else
      let l := ((s.geyEntries i).drop (d + (s.wq n).entries.length)).take (s.wqCredit n)
      s.updWq n (fun q =>
        let e := q.entries ++ l
        { q with entries := e, midItem := match e.getLast? with | some x => !x.enda | none => false })

/-- Has the hub job of stream `i` handed over all it has (R266)? -/
def State.geyAllIn (s : State) (i : Nat) : Bool :=
  match s.geyQueue i with
  | none => true
  | some n => decide ((s.geyEntries i).length ≤ (s.wq n).entries.length)

/-- Declares what a discard of word queue `n` loses, under `cause`: `items` whole channels of its stream, and the one in progress. -/
def State.wqLose (s : State) (n items : Nat) (mid : Bool) (cause : Nat) : State :=
  match s.wqStream n with
  | none => s
  | some i => (List.range (items + b2n mid)).foldl (fun s _ => s.geyDrop i cause) s

/-- The gap cause of a flush (R246, R250). -/
def gapCause (cause : Nat) : Nat := if cause = flushLasting then causeMem else if cause = flushReform then causeReform else causeLink

/-- A flush of word queue `n`: it empties; with an item in progress the producer's discard goes on until DISCARD_END and takes in
the rest of the item, whose lasting errors count (R253), and a further flush joins its record. The stream whose content it carried
declares it. -/
def State.flushWq (s : State) (n cause : Nat) : State :=
  let s := s.bpQueue 0 n 0
  let q := s.wq n
  let rest := match s.wqStream n with
    | some i => if q.midItem then ((s.geyEntries i).drop q.entries.length).takeWhile (fun (e : QEntry) => !e.enda) else []
    | none => []
  let lost := packetsOf q.entries
  let words := q.words + q.entries.length + (if q.midItem then rest.length + 1 else 0)
  let items := q.items + lost + b2n q.midItem
  let fresh := q.flushes = 0
  let s := if fresh then s.bump (F.FLW_WQ_FLUSHES_COUNT n) else s
  let s := s.bumpBy (F.FLW_WQ_UE_LASTING_COUNT n) (rest.filter (fun (e : QEntry) => e.err == 3)).length
  let s := s.wqLose n lost q.midItem (gapCause cause)
  if q.midItem || !fresh then
    (s.updWq n (fun q => { q with entries := [], midItem := false, flushes := q.flushes + 1, words := words, items := items, cause := cause })).setF
      (F.FLW_WQ_STATUS_DISCARDING n) 1
  else
    (s.updWq n (fun q => { q with entries := [] })).flushedRec n 0 1 cause words items

/-- Word queues with an end in block `b` are flushed with CAUSE 3 (R254). -/
def State.flushEnds (s : State) (b : Nat) : State :=
  let l := match s.image with | some m => m.wqs | none => []
  ((List.range l.length).zip l).foldl (fun s e =>
    if e.2.srcBlk = b ∨ e.2.dstBlk = b then s.flushWq e.1 flushDomain else s) s

/-- The second attempt at an entry of word queue `n` whose index is `pos`: transient, or lasting with the queue flushed (R250). -/
def State.wqFault (s : State) (n pos : Nat) (e : QEntry) (lasting : Bool) : State :=
  let loc := queueLoc 0 n pos
  let s := if lasting then ((s.bump (F.FLW_WQ_UE_LASTING_COUNT n)).setF F.FLW_UE_LOC_LOC loc).bpQueue 0 n 1
    else s.bump (F.FLW_WQ_UE_TRANS_COUNT n)
  let s := s.emit 0 0x0402 (pw loc ++ pw (b2n (e.enda != e.endb) + 2 * b2n (!lasting)))
  let s := if lasting then s.flushWq n flushLasting else s
  s.mntFault 1 (!lasting) loc

/-- Pops one entry of word queue `n` (R230-R232, R249, R250): the entry, and whether a lasting error has flushed the queue. A pop of an
empty queue changes nothing. -/
def State.popWq (s : State) (n : Nat) : Option QEntry × Bool × State :=
  match (s.wq n).entries with
  | [] => (none, false, s)
  | e :: t =>
    let popped := s.updWq n (fun q => { q with entries := t, head := (q.head + 1) % max 1 (s.getF (F.FLW_WQ_INFO_DEPTH n)) })
    if e.enda = e.endb ∧ e.err = 0 then (some e, false, popped)
    else if e.enda = e.endb ∧ e.err = 1 then (some e, false, popped.bump (F.FLW_WQ_CE_COUNT n))
    else if e.err = 2 then (some e, false, popped.wqFault n (s.wq n).head e false)
    else (none, true, s.wqFault n (s.wq n).head e true)

/-! ### Flushes (R245-R248) -/

/-- A flush of event queue `n`. The sequencer writes whole records, so no item is in progress and the discard ends at
once (R248); a record partly read through the port counts in ITEMS. -/
def State.flushEq (s : State) (n cause : Nat) : State :=
  let s := s.bpQueue 2 n 0
  let q := s.evq n
  (s.updEvq n (fun q => { q with
    entries := [], head := (q.head + q.entries.length) % 4096, partRead := false })).flushedRec n 2 1 cause q.entries.length
    (packetsOf q.entries)

/-- Frame queue `n` stands empty: its pointers are 0 and its credit is the usable size (R246). -/
def State.fqEmpty (s : State) (n : Nat) : State := (s.updFq n (fun _ => [])).fqFresh n

/-- The committed frames of queue `n` that are not read yet: the one its port is sending and those behind it (R238). -/
def State.fqUnread (s : State) (n : Nat) : List Packet := (s.sendingOf n).toList ++ s.fqAlive n

/-- Words and frames of `l` that lie in a frame queue. -/
def storedOf (l : List Packet) : Nat × Nat := (wordsOf (l.filter (·.stored)), (l.filter (·.stored)).length)

/-- The committed frames of queue `n` that are not read yet leave it, and each stream declares its content under `lost`. The frame
that its port is sending is cut. -/
def State.fqDiscard (s : State) (n lost : Nat) : State :=
  let l := s.fqUnread n
  let s := if (s.sendingOf n).isSome then { s with ports := updAt (fun x => { x with sending := none }) s.ports (n / 4) } else s
  (s.updFq n (fun _ => [])).loseAll lost l

/-- A flush of frame queue `n` (R246): every committed frame is discarded, the pointers and the credit start afresh, and
each stream declares its content under `lost`. -/
def State.flushFq (s : State) (n cause lost : Nat) (record : Bool) : State :=
  let s := s.bpQueue 1 n 0
  let l := s.fqUnread n
  let s := (s.fqDiscard n lost).fqEmpty n
  if record then s.flushedRec n 1 1 cause (storedOf l).1 (storedOf l).2 else s

/-- May software flush a word or frame queue (R247)? -/
def State.flushOk (s : State) (id : Ident) : Bool :=
  ((id == .host1 || id == .dbg) && s.runSt == 0 && !s.bit F.AFE_RUN_STATUS_DRAINING) || (id == .dbg && s.halted)

/-- A refused flush (R247). -/
def State.flushRefused (s : State) : State := s.setF F.FLW_STATUS_FLUSH_REFUSED 1

/-- FQ_FLUSH by software (R246, R247). -/
def State.fqFlush (s : State) (id : Ident) (n : Nat) : State :=
  if s.flushOk id then s.flushFq n flushSoftware causeLink true else s.flushRefused

/-- WQ_FLUSH by software (R245, R247). Queues at or above FLW_WQ_COUNT do not exist. -/
def State.wqFlush (s : State) (id : Ident) (n : Nat) : State :=
  if s.flushOk id then
    (if n < s.getF F.FLW_WQ_COUNT_COUNT then s.flushWq n flushSoftware else s)
  else s.flushRefused

/-- The owner of event queue `n` (R239). -/
def eqOwner (n : Nat) : Ident := if n = 0 then .host0 else if n = 1 then .host1 else .netm

/-- May `id` flush event queue `n` (R247)? -/
def eqFlushOk (id : Ident) (n : Nat) : Bool := id == eqOwner n || id == .host1 || id == .dbg

/-- EQ_FLUSH by software (R245, R247). -/
def State.eqFlush (s : State) (id : Ident) (n : Nat) : State :=
  if eqFlushOk id n then s.flushEq n flushSoftware else s.flushRefused

/-- DISCARD_END (R248): the producer starts its first new item after the flush; the discard's record is written. -/
def State.discardEnd (s : State) (n : Nat) : State :=
  let q := s.wq n
  if s.bit (F.FLW_WQ_STATUS_DISCARDING n) then
    let s := s.setF (F.FLW_WQ_STATUS_DISCARDING n) 0
    let s := s.updWq n (fun q => { q with midItem := false, flushes := 0, words := 0, items := 0, cause := 0 })
    s.flushedRec n 0 q.flushes q.cause q.words q.items
  else s

/-! ### Pops (R230, R232, R244, R249, R250) -/

/-- The second attempt at an entry of event queue `n` whose index is `pos`: transient, or lasting with the queue flushed (R250). The
records of one F-cycle go in ascending block number (R241). -/
def State.eqFault (s : State) (n pos : Nat) (e : QEntry) (lasting : Bool) : State :=
  let loc := queueLoc 2 n pos
  let s := if lasting then ((s.bump (F.FLW_EQ_UE_LASTING_COUNT n)).setF F.FLW_UE_LOC_LOC loc).bpQueue 2 n 1
    else s.bump (F.FLW_EQ_UE_TRANS_COUNT n)
  let s := s.emit 0 0x0402 (pw loc ++ pw (b2n (e.enda != e.endb) + 2 * b2n (!lasting)))
  let s := if lasting then s.flushEq n flushLasting else s
  s.mntFault 1 (!lasting) loc

/-- Pops one entry of event queue `n`, if the port may: the entry, unless none is valid. -/
def State.popEq (s : State) (n : Nat) : Option QEntry × State :=
  let q := s.evq n
  match q.entries with
  | [] => (none, s)
  | e :: t =>
    if packetsOf q.entries = 0 ∧ !q.partRead then (none, s)
    else
      let popped := s.updEvq n (fun q => { q with entries := t, head := (q.head + 1) % 4096, partRead := !e.enda })
      if e.enda = e.endb ∧ e.err = 0 then (some e, popped)
      else if e.enda = e.endb ∧ e.err = 1 then (some e, popped.bump (F.FLW_EQ_CE_COUNT n))
      else if e.err = 2 then (some e, popped.eqFault n q.head e false)
      else (none, s.eqFault n q.head e true)

/-- EQ_READ (R244): the low half of the read port pops one entry for the owner or DBG and latches VALID, END and FILL for
the reader. With MODE = 1 the host ring drains the queue and VALID is 0. -/
def State.eqReadData (s : State) (id : Ident) (n : Nat) : Word × State :=
  let mine := id == eqOwner n || id == .dbg
  let (e, s) := if mine && !s.bit (F.FLW_EQ_CTRL_MODE n) then s.popEq n else (none, s)
  let fill := min 255 (packetsOf (s.evq n).entries)
  match e with
  | some e => (e.data, s.latch id (R.FLW_EQ_READ_HI n) (lo32 (1 + 2 * b2n e.enda + fill * 256)))
  | none => (0#32, s.latch id (R.FLW_EQ_READ_HI n) (if mine then lo32 (fill * 256) else 0#32))

/-- Credit that event queue `n` has left. -/
def State.eqCredit (s : State) (n : Nat) : Nat := 4096 - (s.evq n).entries.length

/-- The entries of a record: END on its last word only (R240). -/
def recEntries : List Word → List QEntry
  | [] => []
  | [w] => [⟨w, true, true, [], false⟩]
  | w :: t => ⟨w, false, false, [], false⟩ :: recEntries t

/-- The words of a record (R240). -/
def recWords (r : RecIn) (seq frc : Nat) (lost : Bool) : List Word :=
  [lo32 (r.typ + r.payload.length * 2 ^ 16 + b2n lost * 2 ^ 24 + r.ident * 2 ^ 28), lo32 seq, lo32 frc, hi32 frc] ++ r.payload

/-- Does event queue `n` admit the record (R239)? -/
def State.eqAdmits (s : State) (r : RecIn) (n : Nat) : Bool := (s.rd (R.FLW_EQ_CTRL n)).getLsbD (r.typ / 256) && decide (r.typ / 256 < 19)

/-- The record enters event queue `n` where its block is admitted and credit covers it; else it is lost there (R242). -/
def State.recToEq (s : State) (r : RecIn) (seq frc n : Nat) : State :=
  if s.eqAdmits r n then
    let es := recEntries (recWords r seq frc (s.evq n).lost)
    if es.length ≤ s.eqCredit n then s.updEvq n (fun q => { q with entries := q.entries ++ es, lost := false })
    else (s.bump (F.FLW_EQ_LOST_COUNT n)).updEvq n (fun q => { q with lost := true })
  else s

/-- LOST_BEFORE of the record in the fumarole stream: a queue that admits it lacks its copy, which would carry the mark (R300;
DEDUCED, assumption log 85). -/
def State.lacksMarked (s : State) (r : RecIn) : Bool :=
  [0, 1, 2].any (fun n => s.eqAdmits r n && decide (s.eqCredit n < r.payload.length + 4) && (s.evq n).lost)

/-- The record enters the fumarole stream where it is admitted and the stream still produces (R299). STR_GAP, STR_END and
STR_FAILOVER enter whatever the mask holds. -/
def State.recToFum (s : State) (r : RecIn) (seq frc : Nat) (lost : Bool) : State :=
  match s.fumStream with
  | none => s
  | some i =>
    let adm := ((s.rd R.STR_FUM_MASK).getLsbD (r.typ / 256) && decide (r.typ / 256 < 19)) || r.typ / 256 == 12
    if adm && !(s.str i).endQueued then
      s.updStr i (fun x => { x with
        recs := x.recs ++ [recWords r seq frc lost], recTicks := x.recTicks ++ [s.tick], produced := x.produced + 1
        lastSn := some x.produced })
    else s

/-- The record that the sequencer takes next and the others: of those that arrive in the F-cycle of the oldest, the first of the lowest
block (R241). A tick stands for an F-cycle (DESIGN CHOICE, assumption log 86). -/
def nextRec : List RecIn → Option (RecIn × List RecIn)
  | [] => none
  | r :: t =>
    let blk := ((r :: t).takeWhile (fun x => x.tick == r.tick)).foldl (fun a x => min a (x.typ / 256)) (r.typ / 256)
    match (r :: t).span (fun x => x.typ / 256 != blk) with
    | (a, x :: b) => some (x, a ++ b)
    | (_, []) => none

/-- EVENT_RECORD (R241): the sequencer takes the next record, numbers it and gives a copy to every queue that admits it. -/
def State.eventRecord (s : State) : State :=
  match nextRec s.recq with
  | none => s
  | some (r, t) =>
    let s := { s with recq := t }
    let lost := s.lacksMarked r
    let seq := s.getF F.FLW_SEQ_NEXT_SEQ
    let s := s.setF F.FLW_SEQ_NEXT_SEQ (seq + 1)
    let s := [0, 1, 2].foldl (fun s n => s.recToEq r seq s.tick n) s
    s.recToFum r seq s.tick lost

end Sys2Proof.Machine
end

