-- ==== Sys2Proof/Machine/Queues.lean ====
section
/-!
DEFINITION. Machine/Queues.lean: the port transmitter, delivery, event records, the event queue read port and flushes
(R22, R31, R229-R254, R286, R314).
-/

namespace Sys2Proof.Machine

/-! ### Ports as the transmitter sees them (R314) -/

def State.port (s : State) (p : Nat) : NetPort := s.ports.getD p NetPort.reset
def State.updPort (s : State) (p : Nat) (f : NetPort → NetPort) : State := { s with ports := updAt f s.ports p }

/-- Growth of the host allowance of port `p` in units of 1/8 byte per tick: 1 % of the port rate. -/
def State.allowRate (s : State) (p : Nat) : Nat :=
  match s.getF (F.NET_PORT_INFO_MODE p) with | 1 => 1 | 2 => 2 | 3 => 4 | _ => 0

/-- The host allowance of port `p` now: it grows at 1 % of the port rate and caps at 16,384 bytes. -/
def State.allowance (s : State) (p : Nat) : Int :=
  min (16384 * 8) ((s.port p).allowance + ((s.tick - (s.port p).allowTick) * s.allowRate p : Nat))

/-- The ring works: enabled and not stopped by an error. -/
def State.ringOn (s : State) (f r : Nat) : Bool := s.bit (F.HIF_RING_CTRL_EN f r) && s.getF (F.HIF_RING_STATUS_ERR f r) == 0

/-- The head frame of function `f` at port `p`. -/
def State.hostHead (s : State) (f p : Nat) : Option HostFrame := (s.port p).hostQ.find? (fun h => h.fn == f)

/-- Has the frame a length that can be sent (R315)? -/
def HostFrame.lenOk (h : HostFrame) : Bool := decide (1 ≤ h.len) && decide (h.len ≤ 2048)

/-- Is a host frame ahead of everything else at port `p`: at the head of its function's ring, PRIO = 1 or promoted, able to go, with a
positive allowance? -/
def State.hostFirst (s : State) (p : Nat) : Bool :=
  decide (0 < s.allowance p) && [0, 1].any (fun f =>
    match s.hostHead f p with
    | some h => (h.prio || h.promoted) && s.ringOn f p && h.lenOk && !h.bad
    | none => false)

/-! ### FRAME_TRANSMIT (R31, R234, R238, R252, R283, R286, R311-R314) -/

/-- Takes the words of one line through the error correction: the counters of the frame queue count what it met, and the
answer says whether a word failed twice. -/
def State.readLineWords (s : State) (n a : Nat) : Nat → Bool × State
  | 0 => (false, s)
  | k + 1 =>
    let (r, s) := s.memReadWord (a + 4 * (15 - k))
    let s := match r with
      | .good => s
      | .corrected => s.bump (F.FLW_FQ_CE_COUNT n)
      | .transient => s.bump (F.FLW_FQ_UE_TRANS_COUNT n)
      | .lasting => s.bump (F.FLW_FQ_UE_LASTING_COUNT n)
    let (bad, s) := s.readLineWords n a k
    (decide (r = .lasting) || bad, s)

/-- Reads line `i` of the frame at the head of queue `n`. A lasting error loads FLW_UE_LOC. -/
def State.readFqLine (s : State) (n i : Nat) : Bool × State :=
  let u := s.fqUsable n
  let line := (s.getF (F.FLW_FQ_RD_RD n) + i) % (if u = 0 then 1 else u)
  let (bad, s) := s.readLineWords n (64 * (s.getF (F.FLW_FQ_BASE_LINE n) + line)) 16
  (bad, if bad then (s.setF F.FLW_UE_LOC_LOC (queueLoc 1 n line)).bpQueue 1 n 1 else s)

/-- Reads lines `i` to `i + k - 1`. -/
def State.readFqLines (s : State) (n i : Nat) : Nat → Bool × State
  | 0 => (false, s)
  | k + 1 =>
    let (b1, s) := s.readFqLine n i
    let (b2, s) := s.readFqLines n (i + 1) k
    (b1 || b2, s)

/-- The bytes of line `i` of the frame at the head of queue `n`. -/
def State.fqLine (s : State) (n i : Nat) : List Byte :=
  let u := s.fqUsable n
  s.mem.bytes (64 * (s.getF (F.FLW_FQ_BASE_LINE n) + (s.getF (F.FLW_FQ_RD_RD n) + i) % (if u = 0 then 1 else u))) 64

/-- The frame at the head of queue `n` as its lines were read: the prefix line, and LEN bytes of Stalux header and payload (R234). -/
def State.fqBytes (s : State) (n : Nat) (p : Packet) : List Byte × List Byte :=
  let pfx := s.fqLine n 0
  (pfx, ((List.range (p.lines - 1)).flatMap (fun i => s.fqLine n (i + 1))).take (leAt pfx 0 4 % 2 ^ 14))

/-- Prefix line, header and payload of a packet that lies in no queue. -/
def Packet.loose (p : Packet) : List Byte × List Byte :=
  let b := staluxBytes p 0 0 0 0 p.flags
  (prefixLine p (fold16 (sum16 b)), b)

/-- The header `b` with what the transmitter writes as it begins to send: the sequence number, the counters, GAP_FOLLOWS, and an
anchor that the frame took after its commit (R283, R286, R287, R292). -/
def sentHeader (p : Packet) (b : List Byte) (seq : Nat) (c : Nat × Nat × Nat) (follows : Bool) : List Byte :=
  let b := putBytes b 8 (leBytes 4 seq)
  let b := putBytes b (if p.ver = 1 then 32 else 24) (leBytes 8 c.1 ++ leBytes 8 c.2.1 ++ leBytes 8 c.2.2)
  let b := if p.late then putBytes (putBytes (putBytes b 48 p.tail) 12 (leBytes 2 p.epoch)) 6 (leBytes 2 p.flags) else b
  let o := if p.ver = 1 then 5 else 6
  if follows then putBytes b o [b.getD o 0#8 ||| 2#8] else b

/-- The port begins to send packet `p` of class `k`, whose prefix line, header and payload are `b`: sequence number, counters and
GAP_FOLLOWS are written as it leaves. -/
def State.sendPacket (s : State) (port k : Nat) (p : Packet) (b : List Byte × List Byte) : State :=
  let seq := s.nextSeq p
  let bytes := s.streamFrame port k b.1 b.2 (sentHeader p b.2 seq (s.pktCounters p) (s.gapFollows p (4 * port + k)))
  let s := s.updPort port (fun x => { x with sending := some (.packet k p seq p.stored) })
  s.obsv (.frame port bytes)

/-- The head frame of class queue `k` of port `port` is read whole and then sent as its lines read. A lasting error in its header
or payload discards it; one in its prefix line flushes the queue (R252). -/
def State.takeFrame (s : State) (port k : Nat) : State :=
  let n := 4 * port + k
  let s := s.fqTrim n
  match s.fq n with
  | [] => s
  | p :: _ =>
    if p.stored then
      let (badPrefix, s) := s.readFqLine n 0
      if badPrefix then s.flushFq n flushLasting causeMem true
      else
        let (bad, s) := s.readFqLines n 1 (p.lines - 1)
        let s := s.updFq n (fun l => l.drop 1)
        if bad then ((s.fqRelease n p).fqTrim n).loseSent causeMem p else s.sendPacket port k p (s.fqBytes n p)
    else (s.updFq n (fun l => l.drop 1)).sendPacket port k p p.loose

/-- FRAME_TRANSMIT: at a frame boundary with the link up the transmitter takes a Damuf reply, or else the first committed
frame by class. Host frames go by HOST_FRAME_TRANSMIT, and one that stands first leaves nothing to do here. While the hub
is halted the frame queues are not read (R425). -/
def State.frameTransmit (s : State) (port : Nat) : State :=
  let x := s.port port
  if s.linkUp port && x.sending.isNone && !s.hostFirst port then
    match x.replies with
    | r :: t => (s.updPort port (fun x => { x with replies := t, sending := some (.reply r) })).obsv (.frame port r)
    | [] =>
      if s.halted then s
      else
        match (List.range 4).find? (fun k => decide (s.fqAlive (4 * port + k) ≠ [])) with
        | none => s
        | some k => s.takeFrame port k
  else s

def execFrameTransmit (p : Fin 4) (s : State) : Host.Outcome State Fault Refusal := .next (s.frameTransmit p)

/-! ### FRAME_DELIVERED (R22, R31, R238, R286, R290) -/

/-- A packet of its stream's own run has been delivered: its content counts, its sequence number is used, and GAP and END packets are
copied to the fumarole stream. -/
def State.countDelivered (s : State) (p : Packet) : State :=
  let s := s.countSent p
  if p.kind = 1 then s.copyRec p
  else if p.kind = 2 then ((s.setF (F.STR_STATUS_END_SENT p.stream) 1).copyRec p).drainCheck
  else s

/-- FRAME_DELIVERED: the last byte of the frame being sent passes to the MAC with the link up. -/
def State.frameDelivered (s : State) (port : Nat) : State :=
  match (s.port port).sending with
  | none => s
  | some (.reply _) => s.updPort port (fun x => { x with sending := none })
  | some (.packet k p _ held) =>
    if s.linkUp port then
      let s := s.updPort port (fun x => { x with sending := none })
      let s := s.bump (F.NET_TX_FRAMES_COUNT port)
      let s := if held then (s.fqRelease (4 * port + k) p).fqTrim (4 * port + k) else s
      if p.frozen.isSome then s else s.countDelivered p
    else s

def execFrameDelivered (p : Fin 4) (s : State) : Host.Outcome State Fault Refusal := .next (s.frameDelivered p)

/-! ### Event records and the read port -/

def execEventRecord (s : State) : Host.Outcome State Fault Refusal := .next s.eventRecord

/-- EQ_READ (R244). -/
def State.eqRead (s : State) (id : Ident) (n : Nat) : State :=
  s.reading id (R.FLW_EQ_READ_LO n) (fun s =>
    let (v, s) := s.gatedRead id (R.FLW_EQ_READ_LO n) (·.eqReadData id n)
    s.obsv (.read id.num (R.FLW_EQ_READ_LO n) v))

def execEqRead (id : Ident) (n : Fin 3) (s : State) : Host.Outcome State Fault Refusal := .next (s.eqRead id n)

/-! ### Flush commands -/

def execWqFlush (id : Ident) (n : Fin 512) (s : State) : Host.Outcome State Fault Refusal :=
  .next (s.gated id (R.FLW_WQ_CTRL n) 1#32 (·.wqFlush id n))

def execFqFlush (id : Ident) (n : Fin 16) (s : State) : Host.Outcome State Fault Refusal :=
  .next (s.gated id (R.FLW_FQ_CTRL n) 1#32 (·.fqFlush id n))

def execEqFlush (id : Ident) (n : Fin 3) (s : State) : Host.Outcome State Fault Refusal :=
  .next (s.gated id (R.FLW_EQ_CTRL n) (s.cmdWord (R.FLW_EQ_CTRL n) 0x80000000#32) (·.eqFlush id n))

def execDiscardEnd (n : Fin 512) (s : State) : Host.Outcome State Fault Refusal := .next (s.discardEnd n)

end Sys2Proof.Machine
end

