-- ==== Sys2Proof/Machine/Crypto.lean ====
section
/-!
DEFINITION. Machine/Crypto.lean: SHA-384 (FIPS 180-4) and ECDSA over P-384 (FIPS 186), which containers and the debug unlock
use (R384-R386, R388, R430).
-/

namespace Sys2Proof.Machine

/-! ### SHA-384 -/

def rotr64 (x : Word64) (n : Nat) : Word64 := (x >>> n) ||| (x <<< (64 - n))

def sha384Ka : List Word64 := [
  0x428a2f98d728ae22#64, 0x7137449123ef65cd#64, 0xb5c0fbcfec4d3b2f#64, 0xe9b5dba58189dbbc#64,
  0x3956c25bf348b538#64, 0x59f111f1b605d019#64, 0x923f82a4af194f9b#64, 0xab1c5ed5da6d8118#64,
  0xd807aa98a3030242#64, 0x12835b0145706fbe#64, 0x243185be4ee4b28c#64, 0x550c7dc3d5ffb4e2#64,
  0x72be5d74f27b896f#64, 0x80deb1fe3b1696b1#64, 0x9bdc06a725c71235#64, 0xc19bf174cf692694#64,
  0xe49b69c19ef14ad2#64, 0xefbe4786384f25e3#64, 0x0fc19dc68b8cd5b5#64, 0x240ca1cc77ac9c65#64,
  0x2de92c6f592b0275#64, 0x4a7484aa6ea6e483#64, 0x5cb0a9dcbd41fbd4#64, 0x76f988da831153b5#64,
  0x983e5152ee66dfab#64, 0xa831c66d2db43210#64, 0xb00327c898fb213f#64, 0xbf597fc7beef0ee4#64,
  0xc6e00bf33da88fc2#64, 0xd5a79147930aa725#64, 0x06ca6351e003826f#64, 0x142929670a0e6e70#64,
  0x27b70a8546d22ffc#64, 0x2e1b21385c26c926#64, 0x4d2c6dfc5ac42aed#64, 0x53380d139d95b3df#64,
  0x650a73548baf63de#64, 0x766a0abb3c77b2a8#64, 0x81c2c92e47edaee6#64, 0x92722c851482353b#64]

def sha384Kb : List Word64 := [
  0xa2bfe8a14cf10364#64, 0xa81a664bbc423001#64, 0xc24b8b70d0f89791#64, 0xc76c51a30654be30#64,
  0xd192e819d6ef5218#64, 0xd69906245565a910#64, 0xf40e35855771202a#64, 0x106aa07032bbd1b8#64,
  0x19a4c116b8d2d0c8#64, 0x1e376c085141ab53#64, 0x2748774cdf8eeb99#64, 0x34b0bcb5e19b48a8#64,
  0x391c0cb3c5c95a63#64, 0x4ed8aa4ae3418acb#64, 0x5b9cca4f7763e373#64, 0x682e6ff3d6b2b8a3#64,
  0x748f82ee5defb2fc#64, 0x78a5636f43172f60#64, 0x84c87814a1f0ab72#64, 0x8cc702081a6439ec#64,
  0x90befffa23631e28#64, 0xa4506cebde82bde9#64, 0xbef9a3f7b2c67915#64, 0xc67178f2e372532b#64,
  0xca273eceea26619c#64, 0xd186b8c721c0c207#64, 0xeada7dd6cde0eb1e#64, 0xf57d4f7fee6ed178#64,
  0x06f067aa72176fba#64, 0x0a637dc5a2c898a6#64, 0x113f9804bef90dae#64, 0x1b710b35131c471b#64,
  0x28db77f523047d84#64, 0x32caab7b40c72493#64, 0x3c9ebe0a15c9bebc#64, 0x431d67c49c100d4c#64,
  0x4cc5d4becb3e42b6#64, 0x597f299cfc657e2a#64, 0x5fcb6fab3ad6faec#64, 0x6c44198c4a475817#64]

def sha384H0 : List Word64 := [
  0xcbbb9d5dc1059ed8#64, 0x629a292a367cd507#64, 0x9159015a3070dd17#64, 0x152fecd8f70e5939#64,
  0x67332667ffc00b31#64, 0x8eb44a8768581511#64, 0xdb0c2e0d64f98fa7#64, 0x47b5481dbefa4fa4#64]

/-- The message schedule, newest word first: `n` more words. -/
def sha384Sched : Nat → List Word64 → List Word64
  | 0, w => w
  | n + 1, w =>
    let a := w.getD 14 0#64
    let b := w.getD 1 0#64
    let s0 := rotr64 a 1 ^^^ rotr64 a 8 ^^^ (a >>> 7)
    let s1 := rotr64 b 19 ^^^ rotr64 b 61 ^^^ (b >>> 6)
    sha384Sched n ((w.getD 15 0#64 + s0 + w.getD 6 0#64 + s1) :: w)

/-- The rounds over (constant, word) pairs. -/
def sha384Rounds : List (Word64 × Word64) → List Word64 → List Word64
  | (k, w) :: t, [a, b, c, d, e, f, g, h] =>
    let s1 := rotr64 e 14 ^^^ rotr64 e 18 ^^^ rotr64 e 41
    let ch := (e &&& f) ^^^ (~~~e &&& g)
    let t1 := h + s1 + ch + k + w
    let s0 := rotr64 a 28 ^^^ rotr64 a 34 ^^^ rotr64 a 39
    let maj := (a &&& b) ^^^ (a &&& c) ^^^ (b &&& c)
    sha384Rounds t [t1 + s0 + maj, a, b, c, d + t1, e, f, g]
  | _, st => st

/-- One 128-byte block. -/
def sha384Block (st : List Word64) (blk : List Byte) : List Word64 :=
  let w0 := (List.range 16).map (fun i => BitVec.ofNat 64 (beAt blk (8 * i) 8))
  let w := (sha384Sched 64 w0.reverse).reverse
  List.zipWith (· + ·) st (sha384Rounds ((sha384Ka ++ sha384Kb).zip w) st)

/-- `n` blocks. -/
def sha384Blocks : Nat → List Word64 → List Byte → List Word64
  | 0, st, _ => st
  | n + 1, st, l => sha384Blocks n (sha384Block st l) (l.drop 128)

/-- SHA-384 of a byte string. -/
def sha384 (m : List Byte) : List Byte :=
  let z := (239 - m.length % 128) % 128
  let p := m ++ [0x80#8] ++ zeros z ++ beBytes 16 (8 * m.length)
  ((sha384Blocks (p.length / 128) sha384H0 p).take 6).flatMap (fun w => beBytes 8 w.toNat)

/-! ### ECDSA over P-384 -/

/-- The field of P-384. -/
def p384 : Nat := 2 ^ 384 - 2 ^ 128 - 2 ^ 96 + 2 ^ 32 - 1
/-- The order of its base point. -/
def n384 : Nat := 0xffffffffffffffffffffffffffffffffffffffffffffffffc7634d81f4372ddf581a0db248b0a77aecec196accc52973
/-- The constant b of its equation y^2 = x^3 - 3 x + b. -/
def b384 : Nat := 0xb3312fa7e23ee7e4988e056be3f82d19181d9c6efe8141120314088f5013875ac656398d8a2ed19d2a85c8edd3ec2aef

/-- A point in Jacobian coordinates; z = 0 is the point at infinity. -/
structure EcPoint where
  x : Nat
  y : Nat
  z : Nat
deriving DecidableEq, Repr

def EcPoint.base : EcPoint :=
  ⟨0xaa87ca22be8b05378eb1c71ef320ad746e1d3b628ba79b9859f741e082542a385502f25dbf55296c3a545e3872760ab7,
   0x3617de4a96262c6f5d9e98bf9292dc29f8f41dbd289a147ce9da3113b5f0b8c00a60b1ce1d7e819d7a431d7c90ea0e5f, 1⟩
def EcPoint.inf : EcPoint := ⟨1, 1, 0⟩

/-- Arithmetic modulo `m`. -/
def mulM (m a b : Nat) : Nat := a * b % m
def subM (m a b : Nat) : Nat := (a + m - b % m) % m

/-- a^e modulo `m`, by the low `k` bits of `e`. -/
def powM (m a : Nat) : Nat → Nat → Nat
  | 0, _ => 1 % m
  | k + 1, e => (if e % 2 = 1 then a else 1) * powM m (a * a % m) k (e / 2) % m

/-- The inverse modulo a prime `m` of at most 384 bits. -/
def invM (m a : Nat) : Nat := powM m a 384 (m - 2)

/-- Doubling, for a = -3. -/
def EcPoint.dbl (u : EcPoint) : EcPoint :=
  let m := p384
  let d := u.z * u.z % m
  let g := u.y * u.y % m
  let b := u.x * g % m
  let a := 3 * (subM m u.x d) * (u.x + d) % m
  let x := subM m (a * a % m) (8 * b)
  ⟨x, subM m (a * subM m (4 * b) x % m) (8 * (g * g % m)), 2 * u.y * u.z % m⟩

/-- Addition. -/
def EcPoint.add (u v : EcPoint) : EcPoint :=
  let m := p384
  if u.z = 0 then v
  else if v.z = 0 then u
  else
    let zu := u.z * u.z % m
    let zv := v.z * v.z % m
    let a := u.x * zv % m
    let b := v.x * zu % m
    let c := u.y * v.z % m * zv % m
    let d := v.y * u.z % m * zu % m
    let h := subM m b a
    let r := subM m d c
    if h = 0 then (if r = 0 then u.dbl else .inf)
    else
      let h2 := h * h % m
      let h3 := h * h2 % m
      let t := a * h2 % m
      let x := subM m (subM m (r * r % m) h3) (2 * t)
      ⟨x, subM m (r * subM m t x % m) (c * h3 % m), h * u.z % m * v.z % m⟩

/-- The multiple of a point by the low `k` bits of a number. -/
def EcPoint.mul (u : EcPoint) : Nat → Nat → EcPoint
  | 0, _ => .inf
  | k + 1, e =>
    let r := (u.mul k (e / 2)).dbl
    if e % 2 = 1 then r.add u else r

/-- Does the 96-byte signature (r then s) of a 48-byte hash verify under the 96-byte key (X then Y)? -/
def ecdsaOk (key hash sig : List Byte) : Bool :=
  let x := beAt key 0 48
  let y := beAt key 48 48
  let r := beAt sig 0 48
  let s := beAt sig 48 48
  let z := beAt hash 0 48
  let m := p384
  if key.length == 96 && sig.length == 96 && decide (x < m) && decide (y < m) &&
      y * y % m == (x * x % m * x + (m - 3) * x + b384) % m && decide (0 < r) && decide (r < n384) && decide (0 < s) &&
      decide (s < n384) then
    let w := invM n384 s
    let q := (EcPoint.base.mul 384 (z * w % n384)).add ((⟨x, y, 1⟩ : EcPoint).mul 384 (r * w % n384))
    q.z != 0 && q.x * invM m (q.z * q.z % m) % m % n384 == r
  else false

end Sys2Proof.Machine
end

