-- ==== Sys2Proof/Machine/Deflate.lean ====
section
/-!
DEFINITION. Machine/Deflate.lean: what compression emits (R258-R262): pre-transforms, blocks, code words and the zlib
wrapper. Which matches and which dynamic codes a stepping chooses is open (R259) and stands in Config; the blocks, the
fixed code, stored blocks, the ends and the bit positions follow the rules.
-/

namespace Sys2Proof.Machine

/-! ### Pre-transforms (R262) -/

/-- Little-endian 16-bit words of a segment; an odd last byte is left out. -/
def words16 : List Byte → List Nat
  | a :: b :: t => (a.toNat + 256 * b.toNat) :: words16 t
  | _ => []

/-- Differences from the word before, modulo `m`; `prev` precedes the first. -/
def deltas (m : Nat) : Nat → List Nat → List Nat
  | _, [] => []
  | prev, x :: t => (x + m - prev) % m :: deltas m x t

/-- Low bytes, then high bytes. -/
def planes (l : List Nat) : List Byte := l.map (fun x => BitVec.ofNat 8 x) ++ l.map (fun x => BitVec.ofNat 8 (x / 256))

/-- One segment under XFORM `x`: 0 NONE, 1 PLANE16, 2 DELTA16, 3 DELTA8. -/
def xformSeg (x : Nat) (l : List Byte) : List Byte :=
  let odd := l.drop (l.length / 2 * 2)
  match x with
  | 1 => planes (words16 l) ++ odd
  | 2 => planes (deltas 65536 0 (words16 l)) ++ odd
  | 3 => (deltas 256 0 (l.map (·.toNat))).map (fun v => BitVec.ofNat 8 v)
  | _ => l

/-- Every segment of `seg` bytes transformed; `n` bounds their number. -/
def xformAll (x seg : Nat) : Nat → List Byte → List Byte
  | 0, _ => []
  | n + 1, l => if l.isEmpty then [] else xformSeg x (l.take seg) ++ xformAll x seg n (l.drop seg)

/-- The transformed input: segments of `seg` bytes, or one segment where `seg` is 0. -/
def xform (x seg : Nat) (l : List Byte) : List Byte :=
  if seg = 0 then xformSeg x l else xformAll x seg (l.length / seg + 1) l

/-! ### Bits -/

/-- `n` bits of `v`, least significant first, as RFC 1951 packs numbers. -/
def bitsLsb : Nat → Nat → List Bool
  | 0, _ => []
  | n + 1, v => (v % 2 == 1) :: bitsLsb n (v / 2)

/-- `n` bits of `v`, most significant first, as RFC 1951 packs Huffman codes. -/
def bitsMsb (n v : Nat) : List Bool := (bitsLsb n v).reverse

/-- The number that up to 8 bits spell, least significant first. -/
def bitsVal : List Bool → Nat
  | [] => 0
  | b :: t => (if b then 1 else 0) + 2 * bitsVal t

/-- Bits as bytes; `n` whole bytes are taken. -/
def bitsToBytes : Nat → List Bool → List Byte
  | 0, _ => []
  | n + 1, l => BitVec.ofNat 8 (bitsVal (l.take 8)) :: bitsToBytes n (l.drop 8)

/-- Bytes as bits. -/
def bytesToBits (l : List Byte) : List Bool := l.flatMap (fun b => bitsLsb 8 b.toNat)

/-! ### Code tables of RFC 1951 -/

def lenBase : List Nat :=
  [3, 4, 5, 6, 7, 8, 9, 10, 11, 13, 15, 17, 19, 23, 27, 31, 35, 43, 51, 59, 67, 83, 99, 115, 131, 163, 195, 227, 258]
def lenExtra : List Nat := [0, 0, 0, 0, 0, 0, 0, 0, 1, 1, 1, 1, 2, 2, 2, 2, 3, 3, 3, 3, 4, 4, 4, 4, 5, 5, 5, 5, 0]
def distBase : List Nat :=
  [1, 2, 3, 4, 5, 7, 9, 13, 17, 25, 33, 49, 65, 97, 129, 193, 257, 385, 513, 769, 1025, 1537, 2049, 3073, 4097, 6145,
   8193, 12289, 16385, 24577]
def distExtra : List Nat :=
  [0, 0, 0, 0, 1, 1, 2, 2, 3, 3, 4, 4, 5, 5, 6, 6, 7, 7, 8, 8, 9, 9, 10, 10, 11, 11, 12, 12, 13, 13]

/-- Index of the last entry of a base table that is at most `v`. -/
def baseIdx (l : List Nat) (v : Nat) : Nat := (l.filter (fun b => decide (b ≤ v))).length - 1

/-- The fixed literal and length code of symbol `y`. -/
def fixedLit (y : Nat) : List Bool :=
  if y < 144 then bitsMsb 8 (0x30 + y)
  else if y < 256 then bitsMsb 9 (0x190 + (y - 144))
  else if y < 280 then bitsMsb 7 (y - 256)
  else bitsMsb 8 (0xC0 + (y - 280))

/-- The code of a block: its tables, and the codes of the symbols. -/
structure BlockCode where
  dyn  : Bool
  head : List Bool
  lit  : List (List Bool)
  dist : List (List Bool)
deriving DecidableEq, Repr

/-- The fixed code. -/
def fixedCode : BlockCode :=
  { dyn := false, head := [], lit := (List.range 286).map fixedLit, dist := (List.range 30).map (bitsMsb 5) }

/-! ### Huffman codes -/

/-- A canonical code: how many codes there are of each length from 1 to 15, and the symbols in code order. -/
structure Huff where
  counts : List Nat
  syms   : List Nat
deriving DecidableEq, Repr

/-- The code that a list of code lengths gives. -/
def Huff.ofLens (l : List Nat) : Huff :=
  { counts := (List.range 15).map (fun k => (l.filter (· == k + 1)).length),
    syms := (List.range 15).flatMap (fun k => (List.range l.length).filter (fun y => l.getD y 0 == k + 1)) }

/-- Codes left over once every code of the lengths is taken: negative where there are too many. -/
def huffLeft : Int → List Nat → Int
  | left, [] => left
  | left, c :: t => if left < 0 then left else huffLeft (2 * left - c) t

def Huff.left (h : Huff) : Int := huffLeft 1 h.counts

/-- Is the code complete, or the one code of one bit that RFC 1951 allows for distances (or none at all)? -/
def Huff.okDist (h : Huff) : Bool := h.left == 0 || decide (h.syms.length ≤ 1 ∧ 0 ≤ h.left ∧ h.counts.headD 0 = h.syms.length)

/-- Reads one symbol: the symbol and the bits left. -/
def Huff.decode (h : Huff) : List Nat → Nat → Nat → Nat → List Bool → Option (Nat × List Bool)
  | [], _, _, _, _ => none
  | _, _, _, _, [] => none
  | c :: cs, code, first, index, b :: bs =>
    let code := code + (if b then 1 else 0)
    if first ≤ code ∧ code - first < c then some (h.syms.getD (index + (code - first)) 0, bs)
    else h.decode cs (2 * code) (2 * (first + c)) (index + c) bs

def Huff.read (h : Huff) (l : List Bool) : Option (Nat × List Bool) := h.decode h.counts 0 0 0 l

/-- Reads `n` bits as a number. -/
def readBits (n : Nat) (l : List Bool) : Option (Nat × List Bool) :=
  if n ≤ l.length then some (bitsVal (l.take n), l.drop n) else none

/-- Order of the code length codes. -/
def clOrder : List Nat := [16, 17, 18, 0, 8, 7, 9, 6, 10, 5, 11, 4, 12, 3, 13, 2, 14, 1, 15]

/-- Reads `n` 3-bit lengths. -/
def readCl : Nat → List Bool → Option (List Nat × List Bool)
  | 0, l => some ([], l)
  | n + 1, l =>
    match readBits 3 l with
    | none => none
    | some (v, l) =>
      match readCl n l with
      | none => none
      | some (t, l) => some (v :: t, l)

/-- Reads code lengths under the code length code until `want` are there (newest first in `acc`); `n` bounds the reads. -/
def readLens (cl : Huff) (want : Nat) : Nat → List Nat → List Bool → Option (List Nat × List Bool)
  | 0, _, _ => none
  | n + 1, acc, l =>
    if acc.length = want then some (acc.reverse, l)
    else if want < acc.length then none
    else
      match cl.read l with
      | none => none
      | some (y, l) =>
        if y < 16 then readLens cl want n (y :: acc) l
        else if y = 16 then
          match acc, readBits 2 l with
          | p :: _, some (k, l) => readLens cl want n (List.replicate (k + 3) p ++ acc) l
          | _, _ => none
        else
          match readBits (if y = 17 then 3 else 7) l with
          | some (k, l) => readLens cl want n (List.replicate (k + (if y = 17 then 3 else 11)) 0 ++ acc) l
          | none => none

/-- The tables of a dynamic block. -/
def readTables (l : List Bool) : Option (Huff × Huff × List Bool) :=
  match readBits 14 l with
  | none => none
  | some (v, l) =>
    let hlit := v % 32 + 257
    let hdist := v / 32 % 32 + 1
    let hclen := v / 1024 + 4
    if 286 < hlit then none
    else
      match readCl hclen l with
      | none => none
      | some (cl, l) =>
        let lens := (List.range 19).map (fun y => match (clOrder.take hclen).idxOf? y with | some i => cl.getD i 0 | none => 0)
        let ch := Huff.ofLens lens
        if ch.left = 0 then
          match readLens ch (hlit + hdist) (hlit + hdist + 1) [] l with
          | none => none
          | some (ls, l) =>
            let h := Huff.ofLens (ls.take hlit)
            let d := Huff.ofLens (ls.drop hlit)
            if ls.getD 256 0 ≠ 0 ∧ (h.left = 0 ∨ (h.syms.length = 1 ∧ h.counts.headD 0 = 1)) ∧ d.okDist = true then some (h, d, l) else none
        else none

/-! ### Tokens -/

/-- Number of bytes, up to `n`, in which `rest` agrees with what lies `d` back; `prev`, newest first, is what precedes it. -/
def agree (d : Nat) : Nat → List Byte → List Byte → Nat
  | 0, _, _ => 0
  | _, _, [] => 0
  | n + 1, prev, b :: t => if prev.getD (d - 1) 0#8 = b then 1 + agree d n (b :: prev) t else 0

/-- Distances whose bytes agree with the next three of `rest`, nearest first: the first `depth` of the hash chain (R258). -/
def chain (depth : Nat) (prev rest : List Byte) : List Nat :=
  if rest.length < 3 then []
  else (((List.range (min prev.length 32768)).map (· + 1)).filter (fun d => decide (agree d 3 (prev.take d) rest = 3))).take depth

/-- Length of the match at distance `d`, up to 258. -/
def matchLen (prev rest : List Byte) (d : Nat) : Nat := agree d 258 (prev.take d) rest

/-- Length of the longest match among the candidates; 0 where there is none. -/
def bestLen (depth : Nat) (prev rest : List Byte) : Nat :=
  ((chain depth prev rest).map (matchLen prev rest)).foldl max 0

/-- The length of the match that compression takes at a position, or 0 for a literal: with LAZY = 1 a match is put off where the
next position gives a longer one (R258). -/
def takenLen (depth : Nat) (lazy_ : Bool) (prev rest : List Byte) : Nat :=
  let l := bestLen depth prev rest
  match rest with
  | [] => 0
  | b :: t => if lazy_ && decide (l < bestLen depth (b :: prev) t) then 0 else l

/-- Are `toks` a choice that R258 allows for the block `rest` after `prev`? Which of several candidates of the same length a match
names is open (R259). -/
def tokensFit (depth : Nat) (lazy_ : Bool) : List (Nat × Nat) → List Byte → List Byte → Bool
  | [], _, rest => rest.isEmpty
  | t :: ts, prev, rest =>
    let l := takenLen depth lazy_ prev rest
    if t.1 = 0 then
      match rest with
      | [] => false
      | b :: r => l == 0 && t.2 == b.toNat && tokensFit depth lazy_ ts (b :: prev) r
    else
      t.1 == l && (chain depth prev rest).any (fun d => d == t.2 && matchLen prev rest d == l) &&
        tokensFit depth lazy_ ts ((rest.take l).reverse ++ prev) (rest.drop l)

/-- The choice that names the nearest candidate. -/
def nearTokens (depth : Nat) (lazy_ : Bool) : Nat → List Byte → List Byte → List (Nat × Nat)
  | 0, _, _ => []
  | _, _, [] => []
  | n + 1, prev, b :: t =>
    let l := takenLen depth lazy_ prev (b :: t)
    if l = 0 then (0, b.toNat) :: nearTokens depth lazy_ n (b :: prev) t
    else
      (l, ((chain depth prev (b :: t)).find? (fun d => matchLen prev (b :: t) d == l)).getD 0) ::
        nearTokens depth lazy_ n (((b :: t).take l).reverse ++ prev) ((b :: t).drop l)

/-- The tokens of one block: what the stepping chooses among those that R258 allows. -/
def blockTokens (cfg : List Nat) (before block : List Byte) : List (Nat × Nat) :=
  let depth := cfg.getD 3 1
  let lazy_ := cfg.getD 4 0 == 1
  let l := Config.tokens cfg before block
  if tokensFit depth lazy_ l before.reverse block then l
  else nearTokens depth lazy_ block.length before.reverse block

/-! ### Dynamic codes (R258, R272) -/

/-- Does the canonical code `h` read the bits `c` as symbol `y`? -/
def Huff.spells (h : Huff) (y : Nat) (c : List Bool) : Bool := h.read c == some (y, [])

/-- A dynamic code that RFC 1951 allows for the tokens: its tables read back as the codes it uses, and its header fits in 320 bytes
(R272). -/
def dynFits (d : List Bool × List (List Bool) × List (List Bool)) (toks : List (Nat × Nat)) : Bool :=
  decide (d.1.length + 10 ≤ 2560) &&
  match readTables d.1 with
  | some (h, dh, rest) =>
    rest.isEmpty && h.spells 256 (d.2.1.getD 256 []) && toks.all (fun t =>
      if t.1 = 0 then h.spells t.2 (d.2.1.getD t.2 [])
      else h.spells (257 + baseIdx lenBase t.1) (d.2.1.getD (257 + baseIdx lenBase t.1) []) &&
        dh.spells (baseIdx distBase t.2) (d.2.2.getD (baseIdx distBase t.2) []))
  | none => false

/-- The canonical codes of a list of code lengths up to 15, in symbol order. -/
def canonCodes (lens : List Nat) : List (List Bool) :=
  let count := fun (k : Nat) => (lens.filter (· == k)).length
  let start := fun (k : Nat) => (List.range k).foldl (fun c j => (c + (if j = 0 then 0 else count j)) * 2) 0
  (List.range lens.length).map (fun y =>
    let k := lens.getD y 0
    bitsMsb k (start k + ((lens.take y).filter (· == k)).length))

/-- A dynamic code that serves every block: 226 literal and length codes of 8 bits and 60 of 9, 2 distance codes of 4 bits and 28 of
5, their lengths sent one by one with 2 bits each. -/
def plainDyn : List Bool × List (List Bool) × List (List Bool) :=
  let ll := List.replicate 226 8 ++ List.replicate 60 9
  let dl := List.replicate 2 4 ++ List.replicate 28 5
  let cl := fun (k : Nat) => if k = 4 ∨ k = 5 ∨ k = 8 ∨ k = 9 then 2 else 0
  let order := [16, 17, 18, 0, 8, 7, 9, 6, 10, 5, 11, 4]
  let code := fun (k : Nat) => bitsMsb 2 (if k = 4 then 0 else if k = 5 then 1 else if k = 8 then 2 else 3)
  (bitsLsb 5 29 ++ bitsLsb 5 29 ++ bitsLsb 4 8 ++ order.flatMap (fun k => bitsLsb 3 (cl k)) ++ (ll ++ dl).flatMap code,
    canonCodes ll, canonCodes dl)

/-- The dynamic code of a block: what the stepping chooses among those that RFC 1951 and R272 allow. -/
def blockDyn (cfg : List Nat) (toks : List (Nat × Nat)) : List Bool × List (List Bool) × List (List Bool) :=
  let d := Config.dynCode cfg toks
  if dynFits d toks then d else plainDyn

/-- The code word of a token. -/
def tokenBits (c : BlockCode) (t : Nat × Nat) : List Bool :=
  if t.1 = 0 then c.lit.getD t.2 []
  else
    let li := baseIdx lenBase t.1
    let di := baseIdx distBase t.2
    c.lit.getD (257 + li) [] ++ bitsLsb (lenExtra.getD li 0) (t.1 - lenBase.getD li 0) ++
      c.dist.getD di [] ++ bitsLsb (distExtra.getD di 0) (t.2 - distBase.getD di 0)

/-! ### Code words and blocks (R258, R261, R270) -/

/-- A block as its descriptor gives it (R261). -/
structure BlkDesc where
  inOff : Nat
  inLen : Nat
  kind  : Nat                   -- 0 stored, 1 fixed, 2 dynamic
  final : Bool
  bit   : Nat
deriving DecidableEq, Repr

/-- One code word: emitted whole or not at all (R270). -/
structure CodeWord where
  bits : List Bool
  inp  : Nat                    -- input bytes consumed once it is out
  blk  : Option BlkDesc         -- the block that it begins
deriving DecidableEq, Repr

/-- The 16 bytes of a block descriptor. -/
def BlkDesc.bytes (d : BlkDesc) : List Byte :=
  leBytes 4 d.inOff ++ leBytes 4 (d.inLen % 2 ^ 17 + d.kind * 2 ^ 28 + (if d.final then 2 ^ 30 else 0) + (if d.kind = 0 then 2 ^ 31 else 0)) ++
    leBytes 8 d.bit

/-- Bits of a list of code words. -/
def cwBits (l : List CodeWord) : Nat := l.foldl (fun a w => a + w.bits.length) 0

/-- The code words of a coded block at bit `pos`. -/
def codedBlock (c : BlockCode) (toks : List (Nat × Nat)) (inOff inLen pos : Nat) (final : Bool) : List CodeWord :=
  let kind := if c.dyn then 2 else 1
  let hd : CodeWord := ⟨[final] ++ bitsLsb 2 kind ++ c.head, 0, some ⟨inOff, inLen, kind, final, pos⟩⟩
  hd :: toks.map (fun t => ⟨tokenBits c t, if t.1 = 0 then 1 else t.1, none⟩) ++ [⟨c.lit.getD 256 [], 0, none⟩]

/-- The code words of one stored block at bit `pos`: its header to the byte boundary with LEN and NLEN, then byte by
byte. -/
def storedBlock (b : List Byte) (inOff pos : Nat) (final : Bool) : List CodeWord :=
  let pad := (8 - (pos + 3) % 8) % 8
  let hd : CodeWord := ⟨[final, false, false] ++ List.replicate pad false ++ bitsLsb 16 b.length ++ bitsLsb 16 (65535 - b.length), 0,
    some ⟨inOff, b.length, 0, final, pos⟩⟩
  hd :: b.map (fun x => ⟨bitsLsb 8 x.toNat, 1, none⟩)

/-- Stored blocks: one, or two halves with the longer first where one cannot hold the bytes. -/
def storedBlocks (b : List Byte) (inOff pos : Nat) (final : Bool) : List CodeWord :=
  if b.length ≤ 65535 then storedBlock b inOff pos final
  else
    let h := (b.length + 1) / 2
    let w := storedBlock (b.take h) inOff pos false
    w ++ storedBlock (b.drop h) (inOff + h) (pos + cwBits w) final

/-- The code words of one block of transformed input. `huff`: 0 fixed, 1 dynamic, 2 the shorter. -/
def oneBlock (cfg : List Nat) (huff : Nat) (before block : List Byte) (pos : Nat) (final : Bool) : List CodeWord :=
  let toks := blockTokens cfg before block
  let d := blockDyn cfg toks
  let f := codedBlock fixedCode toks before.length block.length pos final
  let y := codedBlock ⟨true, d.1, d.2.1, d.2.2⟩ toks before.length block.length pos final
  let useDyn := huff == 1 || (huff == 2 && (decide (cwBits y < cwBits f) || (cwBits y == cwBits f && Config.dynTie)))
  let w := if useDyn then y else f
  if 8 * (block.length + 5) ≤ cwBits w then storedBlocks block before.length pos final else w

/-- Every block of the transformed input `rest` after `before`, from bit `pos` on; `n` bounds their number. The last block is
final where `fin` says so. -/
def blocks (fin : Bool) (cfg : List Nat) (huff size : Nat) : Nat → List Byte → List Byte → Nat → List CodeWord
  | 0, _, _, _ => []
  | n + 1, before, rest, pos =>
    let blk := rest.take size
    let rest' := rest.drop size
    let w := oneBlock cfg huff before blk pos (fin && rest'.isEmpty)
    if rest'.isEmpty then w else w ++ blocks fin cfg huff size n (before ++ blk) rest' (pos + cwBits w)

/-- The settings of a compression (R259). -/
structure CompCfg where
  zlib  : Bool
  xform : Nat
  huff  : Nat
  depth : Nat                   -- 1 to 64
  lazy_ : Bool
  kib   : Nat
  seg   : Nat
deriving DecidableEq, Repr

def CompCfg.list (c : CompCfg) : List Nat :=
  [if c.zlib then 1 else 0, c.xform, c.huff, c.depth, if c.lazy_ then 1 else 0, c.kib, c.seg]

/-- FLG of the zlib header (R260). -/
def zlibFlg (depth : Nat) : Nat :=
  if depth ≤ 4 then 0x01 else if depth ≤ 16 then 0x5E else if depth ≤ 32 then 0x9C else 0xDA

/-- The DEFLATE stream of transformed input as code words, padded to a byte. -/
def deflateWords (c : CompCfg) (t : List Byte) : List CodeWord :=
  let size := 1024 * max 1 c.kib
  let w := blocks true c.list c.huff size (t.length / size + 1) [] t 0
  w ++ [⟨List.replicate ((8 - cwBits w % 8) % 8) false, 0, none⟩]

/-- The DEFLATE stream of a channel whose context has failed after `t` (R267): the blocks so far and an empty final fixed
block. -/
def brokenWords (c : CompCfg) (t : List Byte) : List CodeWord :=
  let size := 1024 * max 1 c.kib
  let w := if t.isEmpty then [] else blocks false c.list c.huff size (t.length / size + 1) [] t 0
  let w := w ++ codedBlock fixedCode [] t.length 0 (cwBits w) true
  w ++ [⟨List.replicate ((8 - cwBits w % 8) % 8) false, 0, none⟩]

/-- Byte code words. -/
def byteWords (l : List Byte) : List CodeWord := l.map (fun b => ⟨bitsLsb 8 b.toNat, 0, none⟩)

/-- The zlib wrapper around the stream `w` of the transformed input `t` (R260). -/
def zlibWrap (c : CompCfg) (t : List Byte) (w : List CodeWord) : List CodeWord :=
  if c.zlib then byteWords [0x78#8, BitVec.ofNat 8 (zlibFlg c.depth)] ++ w ++ byteWords (beBytes 4 (adler32 t)) else w

/-- The whole output of a compression of the input `l` (R258-R262). -/
def compWords (c : CompCfg) (l : List Byte) : List CodeWord :=
  zlibWrap c (xform c.xform c.seg l) (deflateWords c (xform c.xform c.seg l))

/-- Code words as bytes: the whole bytes of their bits. -/
def cwBytes (l : List CodeWord) : List Byte := bitsToBytes (cwBits l / 8) (l.flatMap (·.bits))

/-- The byte spans that hold bytes of stored blocks, from bit `pos` on: each stored block reaches from its header to the
next block or the end. -/
def rawSpans : Nat → Option Nat → List CodeWord → List (Nat × Nat)
  | pos, some a, [] => [(a / 8, (pos + 7) / 8)]
  | _, none, [] => []
  | pos, cur, w :: t =>
    match w.blk, cur with
    | some d, some a => (a / 8, (pos + 7) / 8) :: rawSpans (pos + w.bits.length) (if d.kind = 0 then some pos else none) t
    | some d, none => rawSpans (pos + w.bits.length) (if d.kind = 0 then some pos else none) t
    | none, _ => rawSpans (pos + w.bits.length) cur t

end Sys2Proof.Machine
end

