-- ==== Sys2Proof/Machine/Inflate.lean ====
section
/-!
DEFINITION. Machine/Inflate.lean: the inflate lane (R274): a checked decoder of RFC 1951 and RFC 1950 as a machine that
takes bits one decision at a time and gives at most one byte a step.
-/

namespace Sys2Proof.Machine

/-! ### The decoder -/

/-- The fixed codes. -/
def fixedLits : Huff :=
  Huff.ofLens (List.replicate 144 8 ++ List.replicate 112 9 ++ List.replicate 24 7 ++ List.replicate 8 8)
def fixedDists : Huff := Huff.ofLens (List.replicate 30 5)

inductive InfMode where
  | head                                    -- a block header is next
  | stored (n : Nat)                        -- bytes of a stored block are left
  | codes (lit dist : Huff)
  | copy (n d : Nat) (lit dist : Huff)      -- bytes of a match are left
  | done
  | bad
deriving DecidableEq, Repr

structure Inf where
  bits  : List Bool                         -- input not yet taken
  pos   : Nat                               -- bits taken
  out   : List Byte                         -- output, newest byte first
  cnt   : Nat
  final : Bool
  mode  : InfMode
  raws  : Nat                               -- stored blocks begun
deriving DecidableEq, Repr

/-- The decoder moves on to `rest` in `mode`. -/
def Inf.goto (x : Inf) (rest : List Bool) (mode : InfMode) : Inf :=
  { x with bits := rest, pos := x.pos + (x.bits.length - rest.length), mode := mode }

/-- The decoder gives the byte `b`. -/
def Inf.give (x : Inf) (b : Byte) : Inf := { x with out := b :: x.out, cnt := x.cnt + 1 }

/-- The mode after a block. -/
def Inf.after (x : Inf) : InfMode := if x.final then .done else .head

/-- A block header. -/
def Inf.header (x : Inf) : Inf :=
  match readBits 3 x.bits with
  | none => { x with mode := .bad }
  | some (v, l) =>
    let x := { x with final := v % 2 == 1 }
    match v / 2 with
    | 0 =>
      let skip := (8 - (x.pos + 3) % 8) % 8
      match readBits 16 (l.drop skip) with
      | some (n, l1) =>
        match readBits 16 l1 with
        | some (m, l2) =>
          if n + m = 65535 then { x.goto l2 (if n = 0 then x.after else .stored n) with raws := x.raws + 1 } else { x with mode := .bad }
        | none => { x with mode := .bad }
      | none => { x with mode := .bad }
    | 1 => x.goto l (.codes fixedLits fixedDists)
    | 2 =>
      match readTables l with
      | some (h, d, l) => x.goto l (.codes h d)
      | none => { x with mode := .bad }
    | _ => { x with mode := .bad }

/-- The distance of a match of length `n`. -/
def Inf.distance (x : Inf) (n : Nat) (h d : Huff) (l : List Bool) : Inf :=
  match d.read l with
  | none => { x with mode := .bad }
  | some (y, l) =>
    if 29 < y then { x with mode := .bad }
    else
      match readBits (distExtra.getD y 0) l with
      | none => { x with mode := .bad }
      | some (e, l) =>
        let dist := distBase.getD y 0 + e
        if dist ≤ x.cnt then x.goto l (.copy n dist h d) else { x with mode := .bad }

/-- A symbol of a coded block that is not a literal. -/
def Inf.lenSym (x : Inf) (y : Nat) (h d : Huff) (l : List Bool) : Inf :=
  if y = 256 then x.goto l x.after
  else if 285 < y then { x with mode := .bad }
  else
    match readBits (lenExtra.getD (y - 257) 0) l with
    | none => { x with mode := .bad }
    | some (e, l) => x.distance (lenBase.getD (y - 257) 0 + e) h d l

/-- One step under an output limit; none where the decoder has ended or its next byte does not fit. -/
def Inf.next (x : Inf) (limit : Nat) : Option Inf :=
  match x.mode with
  | .done => none
  | .bad => none
  | .head => some x.header
  | .stored n =>
    if limit ≤ x.cnt then none
    else
      match readBits 8 x.bits with
      | none => some { x with mode := .bad }
      | some (v, l) => some ((x.goto l (if n ≤ 1 then x.after else .stored (n - 1))).give (BitVec.ofNat 8 v))
  | .copy n d h dh =>
    if limit ≤ x.cnt then none
    else some ({ x with mode := if n ≤ 1 then .codes h dh else .copy (n - 1) d h dh }.give (x.out.getD (d - 1) 0#8))
  | .codes h d =>
    match h.read x.bits with
    | none => some { x with mode := .bad }
    | some (y, l) =>
      if y < 256 then (if limit ≤ x.cnt then none else some ((x.goto l (.codes h d)).give (BitVec.ofNat 8 y)))
      else some (x.lenSym y h d l)

/-- Steps until the decoder ends or stops for output space. -/
def Inf.run (limit : Nat) : Nat → Inf → Inf
  | 0, x => x
  | n + 1, x => match x.next limit with | none => x | some y => Inf.run limit n y

/-- What a job step on the inflate lane finds (R269, R274). -/
inductive InfEnd where
  | ok | full | badData | adlerErr
deriving DecidableEq, Repr

/-- What decoding has come to: its outcome, its output, the whole input bytes consumed, the stored blocks begun, and whether it stands
in one. -/
structure InfOut where
  fin    : InfEnd
  out    : List Byte
  used   : Nat
  raws   : Nat
  stored : Bool
deriving DecidableEq, Repr

/-- The decoder stands inside a stored block. -/
def InfMode.isStored : InfMode → Bool
  | .stored _ => true
  | _ => false

/-- Decodes the input `l`, zlib-wrapped or not, until the output holds `limit` bytes. -/
def inflate (zlib : Bool) (l : List Byte) (limit : Nat) : InfOut :=
  let h := if zlib then 2 else 0
  let cmf := leAt l 0 1
  let flg := leAt l 1 1
  if zlib && !(decide (2 ≤ l.length) && cmf % 16 == 8 && decide (cmf / 16 ≤ 7) && (cmf * 256 + flg) % 31 == 0 && flg / 32 % 2 == 0) then
    ⟨.badData, [], 0, 0, false⟩
  else
    let bits := bytesToBits (l.drop h)
    let x := Inf.run limit (300 * (bits.length + 1)) ⟨bits, 0, [], 0, false, .head, 0⟩
    let out := x.out.reverse
    let ends := fun (e : InfEnd) (used : Nat) => (⟨e, out, used, x.raws, x.mode.isStored⟩ : InfOut)
    match x.mode with
    | .done =>
      let used := h + (x.pos + 7) / 8
      if zlib then
        if l.length < used + 4 then ends .badData used
        else if beAt l used 4 = adler32 out then ends .ok (used + 4) else ends .adlerErr (used + 4)
      else ends .ok used
    | .bad => ends .badData (h + x.pos / 8)
    | _ => ends .full (h + x.pos / 8)

/-- The whole of an inflated section (R275); none where the input is not a whole valid stream. -/
def inflateAll (l : List Byte) (limit : Nat) : Option (List Byte) :=
  let x := inflate false l limit
  if x.fin = .ok then some x.out else none

end Sys2Proof.Machine
end

