-- ==== Sys2Proof/Machine/SaveOps.lean ====
section
/-!
DEFINITION. Machine/SaveOps.lean: the settings ("ret" fields), the settings store and the update journal (R377-R381, R389,
R403-R405). The retention copy of R377 holds, by the rule that updates it, what the "ret" fields in use hold; the model
keeps the two as one (assumption log).
-/

namespace Sys2Proof.Machine

/-! ### "ret" and "img" fields -/

/-- Bits of the register at `off` whose reset entry satisfies `p`. -/
def rstMask (p : Rst → Bool) (off : Nat) : Nat :=
  match regRow? off with
  | none => 0
  | some r => maskOf (fun f => p f.rst) r.fields

/-- Bits of the "ret" fields of a register (R4). -/
def retMask (off : Nat) : Word := BitVec.ofNat 32 (rstMask (· == .ret) off)
/-- Bits of the "img" fields. -/
def imgMask (off : Nat) : Word := BitVec.ofNat 32 (rstMask (· == .img) off)
/-- Bits of the "cal" fields. -/
def calMask (off : Nat) : Word := BitVec.ofNat 32 (rstMask (· == .cal) off)
/-- Bits of the "ret", "img" and "cal" fields: what a warm reset keeps or restores (R376). -/
def keepMask (off : Nat) : Word := retMask off ||| imgMask off ||| calMask off

/-- The register file with every register reduced to the bits of `m`. -/
def keepBits (m : Nat → Word) : List (Nat × Word) → List (Nat × Word)
  | [] => []
  | (o, v) :: t => if v &&& m o = 0#32 then keepBits m t else (o, v &&& m o) :: keepBits m t

/-- The registers that `p` selects lose every field that is neither "ret", "img" nor "cal" (R4, R376). -/
def State.regsReset (s : State) (p : Nat → Bool) : State :=
  { s with regs := keepBits (fun o => if p o then keepMask o else BitVec.allOnes 32) s.regs
           shadows := s.shadows.filter (fun e => !p e.1)
           firsts := s.firsts.filter (fun o => !p o) }

/-- Is the register at `off` in domain `d`? -/
def inDom (d off : Nat) : Bool := domainOf off == d

/-- The settings in use: every "ret" field by register offset (R377, R381). -/
def State.settings (s : State) : List (Nat × Word) := keepBits retMask s.regs

/-- The fields under `m` take the values of `l`. -/
def State.putFields (s : State) (m : Nat → Word) (l : List (Nat × Word)) : State :=
  let s := { s with regs := keepBits (fun o => ~~~ (m o)) s.regs }
  l.foldl (fun s e => s.wr e.1 ((s.rd e.1 &&& ~~~ (m e.1)) ||| (e.2 &&& m e.1))) s

/-! ### Reads and writes of flash (R379, R416)

A command that loads an image names what its flash reads meet: 1 and 2 a slot that cannot be read, 11 and 12 one read at the second
attempt; 3 the host buffer; 20 + h the record of settings half h, 22 + h its header, 24 + h the header of calibration half h, 26 the
governing journal entry, each failing twice, and with 10 more each read at the second attempt. A number 40 + n says that the next write of
the journal or of a slot map, erase of a header or read of a kept section fails n of its two attempts (DESIGN CHOICE, assumption log 29). -/

/-- What coming writes meet. -/
def State.plan (s : State) (gl : List Nat) : State :=
  { s with flash := { s.flash with plan := s.flash.plan ++ (gl.filter (40 ≤ ·)).map (· - 40) } }

/-- A check of flash at byte `loc` that a read meets (R416): it fails twice, or once, or passes. -/
def State.flashRead (s : State) (twice once_ : Bool) (loc : Nat) : State :=
  if twice then s.mntFault 2 false loc else if once_ then s.mntFault 2 true loc else s

/-- A read of flash at byte `loc` whose check meets what the plan says next; whether one of its two attempts passed. -/
def State.flashCheck (s : State) (loc : Nat) : Bool × State :=
  let n := s.flash.plan.headD 0
  let s := { s with flash := { s.flash with plan := s.flash.plan.drop 1 } }
  (decide (n < 2), s.flashRead (decide (2 ≤ n)) (decide (n = 1)) loc)

/-- A write `f` of flash at byte `loc` with its verification, repeated once where it fails (R416); after a second failure nothing is
written. Whether it was. -/
def State.flashWrite (s : State) (loc : Nat) (f : State → State) : Bool × State :=
  let n := s.flash.plan.headD 0
  let s := { s with flash := { s.flash with plan := s.flash.plan.drop 1 } }
  if 2 ≤ n then (false, s.mntFault 3 false loc)
  else (true, f (if n = 1 then s.mntFault 3 true loc else s))

/-! ### The journal (R389) -/

/-- A journal entry (R389), as its bytes say it. -/
structure JEntry where
  seq    : Nat
  state  : Nat
  active : Nat
  other  : Nat
  pre    : Nat
  verA   : Nat
  verB   : Nat
deriving DecidableEq, Repr

/-- MAGIC of a journal entry. -/
def jMagic : List Byte := [0x55#8, 0x50#8, 0x44#8, 0x4A#8]

/-- The 64 bytes of an entry. -/
def JEntry.bytes (e : JEntry) : List Byte :=
  withCrc (jMagic ++ leBytes 4 e.seq ++ leBytes 1 e.state ++ leBytes 1 e.active ++ leBytes 1 e.other ++ leBytes 1 e.pre ++
    leBytes 4 e.verA ++ leBytes 4 e.verB ++ zeros 40)

/-- The entry that 64 bytes hold, where MAGIC and CRC pass. -/
def jEntry? (b : List Byte) : Option JEntry :=
  if good64 jMagic b then
    some ⟨leAt b 4 4, leAt b 8 1, leAt b 9 1, leAt b 10 1, leAt b 11 1, leAt b 12 4, leAt b 16 4⟩
  else none

/-- The entry with the highest SEQ. -/
def topEntry : List JEntry → Option JEntry
  | [] => none
  | e :: t => match topEntry t with
    | none => some e
    | some x => if x.seq < e.seq then some e else some x

/-- The governing entry: the highest SEQ among the entries whose CRC passes. -/
def Flash.journal (f : Flash) : Option JEntry := topEntry ((f.journA ++ f.journB).filterMap jEntry?)

/-- Entries that one area of the journal holds. -/
def jArea : Nat := 8192

/-- Does the governing entry lie in the second area? Entries go on behind it there. -/
def Flash.inB (f : Flash) : Bool :=
  match f.journal with
  | none => false
  | some e => f.journB.any (fun b => jEntry? b == some e)

/-- An entry is appended to the area in use; where that is full the other one is erased and used from there on. -/
def Flash.jAppend (f : Flash) (b : List Byte) : Flash :=
  if f.inB then
    if f.journB.length < jArea then { f with journB := f.journB ++ [b] } else { f with journA := [b] }
  else
    if f.journA.length < jArea then { f with journA := f.journA ++ [b] } else { f with journB := [b] }

/-- First flash byte of entry `i` of an area of the journal (R379, R389). -/
def jAddr (second : Bool) (i : Nat) : Nat := 0x3400000 + (if second then 0x80000 else 0) + 64 * i

/-- First flash byte of the next entry. -/
def Flash.jNextAddr (f : Flash) : Nat :=
  if f.inB then (if f.journB.length < jArea then jAddr true f.journB.length else jAddr false 0)
  else if f.journA.length < jArea then jAddr false f.journA.length else jAddr true 0

/-- The governing entry cannot be read any more. -/
def Flash.jLose (f : Flash) : Flash :=
  let gone := fun (b : List Byte) => if (jEntry? b).isSome && jEntry? b == f.journal then [] else b
  { f with journA := f.journA.map gone, journB := f.journB.map gone }

/-- Entries of an area that fail their check when the journal is read (R416). -/
def State.jFaults (s : State) (second : Bool) (l : List (List Byte)) : State :=
  ((List.range l.length).zip l).foldl (fun s e => s.flashRead (jEntry? e.2).isNone false (jAddr second e.1)) s

/-- JSTATE of the governing entry; 0 where no entry is valid. -/
def State.jState (s : State) : Nat := match s.flash.journal with | none => 0 | some j => j.state
/-- The slot that a cold start loads: 1 A, 2 B. With no valid entry slot A is active. -/
def State.jActive (s : State) : Nat := match s.flash.journal with | none => 1 | some j => j.active
def State.jOther (s : State) : Nat := match s.flash.journal with | none => 0 | some j => j.other
def State.jPre (s : State) : Nat := match s.flash.journal with | none => 0xFF | some j => j.pre
/-- SEQ of the next entry. -/
def State.jNext (s : State) : Nat := match s.flash.journal with | none => 0 | some j => j.seq + 1

/-! ### Slots (R387) -/

/-- MAGIC of a slot map. -/
def mapMagic : List Byte := [0x53#8, 0x4C#8, 0x4F#8, 0x54#8]
/-- The slot map of image `version`, with the header position of each section TYPE, 0 where it has none. -/
def slotMap (version : Nat) (pos : List Nat) : List Byte :=
  withCrc (mapMagic ++ leBytes 4 version ++ (List.range 8).flatMap (fun t => leBytes 1 (pos.getD t 0)) ++ zeros 44)
/-- MAGIC and CRC of the slot map pass. -/
def Slot.mapOk (x : Slot) : Bool := good64 mapMagic x.map
/-- The image version. -/
def Slot.version (x : Slot) : Nat := leAt x.map 4 4
/-- Header position that covers the section of TYPE `t`. -/
def Slot.pos (x : Slot) (t : Nat) : Nat := leAt x.map (8 + t) 1
/-- The container header that covers the section of TYPE `t`. -/
def Slot.header (x : Slot) (t : Nat) : List Byte :=
  match x.headers.find? (fun h => h.1 == x.pos t) with | some h => h.2 | none => []

def State.slot (s : State) (i : Nat) : Slot := s.flash.slots.getD (i - 1) Slot.reset
def State.setSlot (s : State) (i : Nat) (x : Slot) : State :=
  { s with flash := { s.flash with slots := updAt (fun _ => x) s.flash.slots (i - 1) } }

/-- Image version of slot `i`, 0 where it holds no image. -/
def State.slotVer (s : State) (i : Nat) : Nat := if (s.slot i).mapOk then (s.slot i).version else 0

/-- UPD_JOURNAL and UPD_SLOT_VER show the governing entry and the slots. -/
def State.showJournal (s : State) : State :=
  let s := ((s.setF F.UPD_JOURNAL_ACTIVE s.jActive).setF F.UPD_JOURNAL_OTHER s.jOther).setF F.UPD_JOURNAL_JSTATE s.jState
  let s := s.setF F.UPD_JOURNAL_PRE_HALF s.jPre
  (s.setF (F.UPD_SLOT_VER_VER 0) (s.slotVer 1)).setF (F.UPD_SLOT_VER_VER 1) (s.slotVer 2)

/-- A journal entry is written: 0 IDLE, 1 WRITING, 2 STAGED, 3 TRIAL, 4 CONFIRMED, 5 FELLBACK. Whether it was. -/
def State.writeJournal (s : State) (st active other pre : Nat) : Bool × State :=
  let e : JEntry := ⟨s.jNext, st, active, other, pre, s.slotVer 1, s.slotVer 2⟩
  s.flashWrite s.flash.jNextAddr (fun s => ({ s with flash := s.flash.jAppend e.bytes }).showJournal)

/-- The journal is read at power-up (step 2 of R382). -/
def State.journalRead (s : State) (gl : List Nat) : State :=
  let s := if gl.contains 26 then { s with flash := s.flash.jLose } else s
  let s := (s.jFaults false s.flash.journA).jFaults true s.flash.journB
  (s.flashRead false (gl.contains 36) (jAddr false 0)).showJournal

/-! ### Settings halves (R378, R380, R381, R403, R404) -/

def State.setHalf (s : State) (h : Nat) : SetHalf := s.flash.sets.getD h SetHalf.reset
def State.putSetHalf (s : State) (h : Nat) (x : SetHalf) : State :=
  { s with flash := { s.flash with sets := updAt (fun _ => x) s.flash.sets h } }

/-- MAGIC of a settings half. -/
def setMagic : List Byte := [0x53#8, 0x45#8, 0x54#8, 0x53#8]
/-- MAGIC and HCRC pass. -/
def SetHalf.ok (x : SetHalf) : Bool := good64 setMagic x.hdr
def SetHalf.gen (x : SetHalf) : Nat := leAt x.hdr 4 4
/-- SETSCHEMA version of the image that wrote it. -/
def SetHalf.schema (x : SetHalf) : Nat := leAt x.hdr 8 4
/-- LEN: bytes of the record. -/
def SetHalf.len (x : SetHalf) : Nat := leAt x.hdr 16 4
/-- STATE says provisional. -/
def SetHalf.prov (x : SetHalf) : Bool := leAt x.hdr 20 1 == 1
/-- RCRC passes. -/
def SetHalf.recOk (x : SetHalf) : Bool := leAt x.hdr 56 4 == (crc32 (x.recd.take x.len)).toNat

/-- The header of a settings half over a record. -/
def setHeader (gen schema imgVer : Nat) (prov : Bool) (recd : List Byte) : List Byte :=
  withCrc (setMagic ++ leBytes 4 gen ++ leBytes 4 schema ++ leBytes 4 imgVer ++ leBytes 4 recd.length ++
    leBytes 1 prov.toNat ++ zeros 35 ++ leBytes 4 (crc32 recd).toNat)

/-- First flash byte of settings half `h` (R379). -/
def setHalfAddr (h : Nat) : Nat := 0x3000000 + 0x100000 * h

/-- SETSCHEMA and image version of the active image. -/
def State.schema (s : State) : Nat := match s.image with | none => 0 | some m => m.schema
def State.imgVer (s : State) : Nat := match s.image with | none => 0 | some m => m.version

/-- Does half `h` hold a provisional state? One that a cold start has taken counts as committed (R404). -/
def State.provHalf (s : State) (h : Nat) : Bool := (s.setHalf h).ok && (s.setHalf h).prov && s.pwr.asCommitted != some h

/-- The half a SETSAVE writes: during a trial the one that does not hold PRE_HALF, else one that holds a provisional state,
else the one with the lower GEN. -/
def State.setTarget (s : State) : Nat :=
  if s.jState = 3 ∧ s.jPre < 2 then 1 - s.jPre
  else if s.provHalf 0 then 0
  else if s.provHalf 1 then 1
  else lowerHalf (s.setHalf 0).ok (s.setHalf 0).gen (s.setHalf 1).ok (s.setHalf 1).gen

/-- SETSAVE is admitted: the "ret" fields are snapshotted and the target half is erased (R381). -/
def State.saveSnap (s : State) : State :=
  let h := s.setTarget
  let other := s.setHalf (1 - h)
  let recd := (Config.setRecord s.schema s.settings).take 131072
  let gen := ((if other.ok then other.gen else 0) + 1) % 2 ^ 32
  let x : SetHalf :=
    { hdr := setHeader gen s.schema s.imgVer (s.jState == 3) recd, recd := recd, body := s.settings }
  let s := s.putSetHalf h { s.setHalf h with hdr := [] }
  { s with pwr := { s.pwr with
    snap := some x, snapTo := h, asCommitted := if s.pwr.asCommitted = some h then none else s.pwr.asCommitted } }

/-- The write of a save ends (R381): `fails` of its two attempts failed. -/
def State.saveEnd (s : State) (fails : Nat) : State :=
  match s.pwr.snap with
  | none => s
  | some x =>
    let h := s.pwr.snapTo
    let s := { s with pwr := { s.pwr with snap := none } }
    if 2 ≤ fails then
      ((s.mntFault 3 false (setHalfAddr h)).setF F.PWR_SAVE_CTRL_SAVE_ERR 1).emit 0 0x0103 []
    else
      let s := if fails = 1 then s.mntFault 3 true (setHalfAddr h) else s
      let s := (s.putSetHalf h x).setF F.PWR_SAVE_GEN_GEN x.gen
      (s.bump F.PWR_SAVES_COUNT).emit 0 0x0102 (pw x.gen ++ pw h ++ pw x.len)

/-- The fallback's erase of a provisional half's header (R405). -/
def State.eraseProv (s : State) : State :=
  let go := fun (s : State) (h : Nat) =>
    if s.provHalf h then (s.flashWrite (setHalfAddr h) (fun s => s.putSetHalf h { s.setHalf h with hdr := [] })).2 else s
  go (go s 0) 1

/-- May a cold start take settings half `h` (R378, R404)? -/
def State.halfFits (s : State) (h : Nat) : Bool :=
  let x := s.setHalf h
  x.ok && x.schema == s.schema && (!x.prov || s.pwr.asCommitted == some h || (s.jState == 4 && s.jPre != h))

/-- The "ret" fields take the record of half `h`; a provisional one counts as committed from then on (R404). -/
def State.takeHalf (s : State) (h : Nat) : State :=
  let x := s.setHalf h
  let s := s.putFields retMask x.body
  let s := ((s.setF F.PWR_STATUS_SET_SRC 1).setF F.PWR_STATUS_SET_HALF h).setF F.PWR_SAVE_GEN_GEN x.gen
  if x.prov then { s with pwr := { s.pwr with asCommitted := some h } } else s

/-- The "ret" fields take DEFAULTS of the active image. -/
def State.takeDefaults (s : State) : State :=
  let l := match s.image with | none => [] | some m => m.defaults
  (s.putFields retMask l).setF F.PWR_STATUS_SET_SRC 2

/-- The header of half `h` is read: MAGIC and HCRC (R416). -/
def State.setHeadRead (s : State) (gl : List Nat) (h : Nat) : State :=
  s.flashRead (!(s.setHalf h).ok || gl.contains (22 + h)) (gl.contains (32 + h)) (setHalfAddr h)

/-- Half `h` may be taken, and its header is read. -/
def State.setEligible (s : State) (gl : List Nat) (h : Nat) : Bool := s.halfFits h && !gl.contains (22 + h)

/-- The record of half `h` passes. -/
def State.setGood (s : State) (gl : List Nat) (h : Nat) : Bool := (s.setHalf h).recOk && !gl.contains (20 + h)

/-- Half `h` is tried: its record is read, and a second failure is a lasting one (R416). Whether it was taken. -/
def State.setTry (s : State) (gl : List Nat) (h : Nat) : Bool × State :=
  if s.setEligible gl h then
    let t := s.flashRead (!s.setGood gl h) (gl.contains (30 + h)) (setHalfAddr h + 64)
    if s.setGood gl h then (true, t.takeHalf h) else (false, t)
  else (false, s)

/-- SETTINGS_RESTORE (R378): the halves by falling GEN, each under its tests, and then DEFAULTS. `gl` names what the reads meet. -/
def State.restoreSets (s : State) (gl : List Nat) : State :=
  let s := (s.setHeadRead gl 0).setHeadRead gl 1
  let first := if s.setEligible gl 0 && (!s.setEligible gl 1 || decide ((s.setHalf 1).gen ≤ (s.setHalf 0).gen)) then 0 else 1
  let (ok, s) := s.setTry gl first
  if ok then s
  else
    let (ok, s) := s.setTry gl (1 - first)
    if ok then s else s.takeDefaults

/-- The headers of the calibration halves are read at a cold start (R116, R416); one that fails twice holds nothing from then on. -/
def State.calHeads (s : State) (gl : List Nat) : State :=
  [0, 1].foldl (fun s h =>
    let s := if gl.contains (24 + h) then s.setCalHalf h { s.calHalf h with hdr := [] } else s
    s.flashRead (!(s.calHalf h).ok) (gl.contains (34 + h)) (calHalfAddr h)) s

end Sys2Proof.Machine
end

