-- ==== Sys2Proof/Machine/ImageOps.lean ====
section
/-!
DEFINITION. Machine/ImageOps.lean: containers, slots, the image check and the image-loaded fields (R54-R69, R384-R390, R399,
R464).
-/

namespace Sys2Proof.Machine

/-! ### Container headers (R384, R385) -/

/-- One section entry. -/
structure SecEnt where
  typ      : Nat
  flags    : Nat
  ver      : Nat
  off      : Nat
  len      : Nat
  infLen   : Nat
  requires : List (Nat × Nat × Nat)
  hash     : List Byte
deriving DecidableEq, Repr

/-- Entry `i` of the section table. -/
def hdrEnt (h : List Byte) (i : Nat) : SecEnt :=
  let e := sub h (32 + 96 * i) 96
  { typ := leAt e 0 1, flags := leAt e 1 1, ver := leAt e 2 2, off := leAt e 4 4, len := leAt e 8 4, infLen := leAt e 12 4
    requires := (List.range 4).map (fun k => (leAt e (16 + 6 * k) 1, leAt e (18 + 6 * k) 2, leAt e (20 + 6 * k) 2))
    hash := sub e 40 48 }

/-- NSEC. -/
def hdrNsec (h : List Byte) : Nat := leAt h 13 1
/-- The entries in use. -/
def hdrEnts (h : List Byte) : List SecEnt := (List.range (min 16 (hdrNsec h))).map (hdrEnt h)
/-- IMG_VER. -/
def hdrVer (h : List Byte) : Nat := leAt h 8 4
/-- ARB. -/
def hdrArb (h : List Byte) : Nat := leAt h 12 1
/-- TOTAL_LEN. -/
def hdrTotal (h : List Byte) : Nat := leAt h 16 4

/-- Byte after the last section: where the table says the container ends (DEDUCED). -/
def entsEnd (l : List SecEnt) : Nat := l.foldl (fun m e => max m (e.off + e.len)) 4096

/-- Sections in table order, after `from0` and without overlap. -/
def entsInOrder : Nat → List SecEnt → Bool
  | _, [] => true
  | from0, e :: t => decide (from0 ≤ e.off) && entsInOrder (e.off + e.len) t

/-- TYPE of no entry is repeated or above 7. -/
def entsTypes : List SecEnt → Bool
  | [] => true
  | e :: t => decide (e.typ ≤ 7) && !(t.any (fun x => x.typ == e.typ)) && entsTypes t

/-- Section bytes that a slot holds at most (R387). -/
def slotRoom : Nat := 25128960

/-- ARB_FUSE in force (R386, R401). -/
def State.arbFuse (s : State) : Nat := max Config.arbFuse s.flash.arbProg

/-- A REQUIRES rule against the versions of a composed set; MIN = MAX = 0 is unused. -/
def ruleOk (vers : List (Nat × Nat)) (r : Nat × Nat × Nat) : Bool :=
  (r.2.1 == 0 && r.2.2 == 0) || vers.any (fun v => v.1 == r.1 && decide (r.2.1 ≤ v.2) && decide (v.2 ≤ r.2.2))

/-- The checks of R390 on one header, in the order of its table; `room`, `rules` and `base` say what the composed set answers.
0 where all pass. -/
def State.headerCode (s : State) (h : List Byte) (room rules base : Bool) : Nat :=
  let es := hdrEnts h
  if sub h 0 4 != [0x54#8, 0x44#8, 0x48#8, 0x43#8] then 0x01
  else if leAt h 4 2 != s.getF F.GLB_VER_CONTAINER_VER then 0x02
  else if leAt h 6 1 != 0x1D then 0x03
  else if decide (Config.stepping < leAt h 7 1) then 0x04
  else if hdrTotal h != entsEnd es || !room then 0x05
  else if decide (hdrNsec h = 0) || decide (16 < hdrNsec h) || !entsTypes es || !entsInOrder 4096 es then 0x06
  else if some (sha384 (sub h 3904 96)) != Config.pkh then 0x07
  else if !ecdsaOk (sub h 3904 96) (sha384 (h.take 4000)) (sub h 4000 96) then 0x08
  else if decide (hdrArb h < s.arbFuse) then 0x09
  else if !rules then 0x0A
  else if !base then 0x0F
  else 0

/-! ### Composed sets and slots (R387, R388) -/

/-- A section with its entry. -/
def secOf (e : SecEnt) (bytes : List Byte) : SlotSec :=
  { typ := e.typ, flags := e.flags, ver := e.ver, len := e.len, infLen := e.infLen, requires := e.requires, hash := e.hash
    bytes := bytes }

/-- The sections of a slot, each with the entry that the header at its position has for it. -/
def Slot.named (x : Slot) : List SlotSec :=
  x.secs.filterMap (fun b => ((hdrEnts (x.header b.1)).find? (fun e => e.typ == b.1)).map (fun e => secOf e b.2))

/-- (TYPE, VER) of each section. -/
def secVers (l : List SlotSec) : List (Nat × Nat) := l.map (fun x => (x.typ, x.ver))

/-- Every rule of every section holds. -/
def rulesOk (l : List SlotSec) : Bool := l.all (fun x => x.requires.all (ruleOk (secVers l)))

/-- Bytes of the sections together. -/
def secBytes (l : List SlotSec) : Nat := l.foldl (fun a x => a + x.len) 0

/-- The section's bytes inflated, if they come to exactly INF_LEN. -/
def secInflate (x : SlotSec) : Option (List Byte) :=
  let b := if x.flags % 2 = 1 then inflateAll x.bytes x.infLen else some x.bytes
  match b with
  | some b => if b.length = x.infLen then some b else none
  | none => none

/-- The checks of a composed set after its headers: hashes, inflation, REQUIRES. 0 where all pass. -/
def secsCode (l : List SlotSec) : Nat :=
  if l.any (fun x => sha384 x.bytes != x.hash) then 0x0B
  else if l.any (fun x => (secInflate x).isNone) then 0x0C
  else if !rulesOk l then 0x0A
  else 0

/-- The first code that a header of the list fails with. -/
def State.headersCode (s : State) (room : Bool) : List (Nat × List Byte) → Nat
  | [] => 0
  | (_, h) :: t =>
    let c := s.headerCode h room true true
    if c = 0 then s.headersCode room t else c

/-- The load checks of a slot (R388). `bad`: one of its reads fails twice. 0 where all pass. -/
def State.slotCode (s : State) (x : Slot) (bad : Bool) : Nat :=
  if bad then 0x0D
  else if !x.mapOk then 0x14
  else
    let c := s.headersCode (decide (secBytes x.named ≤ slotRoom)) x.headers
    if c = 0 then secsCode x.named else c

/-- The sections of a full container in a host buffer. -/
def bufferSecs (b : List Byte) : List SlotSec := (hdrEnts b).map (fun e => secOf e (sub b e.off e.len))

/-- The checks of a host-buffer container: its header, then its sections; it must be full (R388). -/
def State.bufferCode (s : State) (b : List Byte) (bad : Bool) : Nat :=
  let l := bufferSecs b
  if bad then 0x11
  else
    let c := s.headerCode (b.take 4096) (decide (secBytes l ≤ slotRoom)) (rulesOk l)
      ((List.range 8).all (fun t => l.any (fun x => x.typ == t)))
    if c = 0 then secsCode l else c

/-- What the sections say, with what their headers and entries say (R55). The layouts inside the sections are not in the spec. -/
def imageOf (version : Nat) (l : List SlotSec) : Option Image :=
  let ver := fun (t : Nat) => match l.find? (fun x => x.typ == t) with | some x => x.ver | none => 0
  match Config.parseImage (l.map (fun x => (x.typ, x.ver, (secInflate x).getD []))) with
  | none => none
  | some m => some { m with
      version := version, schema := ver 6, secVers := (List.range 8).map ver
      present := (List.range 8).map (fun t => l.any (fun x => x.typ == t))
      health := match l.find? (fun x => x.typ == 5) with | some x => (secInflate x).getD [] | none => [] }

/-! ### HEALTH (R399) -/

/-- WINDOW_S of a HEALTH section. -/
def healthWindow (h : List Byte) : Nat := leAt h 0 2
/-- N: 0 where the section is empty. -/
def healthN (h : List Byte) : Nat := leAt h 2 1
/-- (CODE, PARAM) of criterion `i`. -/
def healthCrit (h : List Byte) (i : Nat) : Nat × Nat := (leAt h (4 + 8 * i) 1, leAt h (8 + 8 * i) 4)
/-- Every value within its limits. -/
def healthOk (h : List Byte) : Bool :=
  h.isEmpty || (decide (10 ≤ healthWindow h) && decide (healthWindow h ≤ 3600) && decide (healthN h ≤ 16) &&
    h.length == 4 + 8 * healthN h &&
    (List.range (healthN h)).all (fun i => decide (1 ≤ (healthCrit h i).1) && decide ((healthCrit h i).1 ≤ 8)))

/-! ### What an image says -/

/-- Is channel `c` in a quadrant in use? -/
def Image.used (m : Image) (c : Nat) : Bool := m.quads.testBit (c / 64)
/-- Channel `c`. -/
def Image.chan (m : Image) (c : Nat) : ChanDef := m.chans.getD c ChanDef.none
/-- Beam `b`. -/
def Image.beam (m : Image) (b : Nat) : List Nat := m.beams.getD b []
/-- Size of partition `n` in bytes. -/
def Image.part (m : Image) (n : Nat) : Nat := m.parts.getD n 0
/-- Size of class queue `n` in bytes. -/
def Image.cls (m : Image) (n : Nat) : Nat := m.classes.getD n 0
/-- N_q. -/
def Image.nq (m : Image) : Nat := ((List.range 4).filter m.quads.testBit).length
/-- Bytes of a ring word. -/
def Image.ringB (m : Image) : Nat := if m.ring8 then 1 else 2
/-- D_ring (R64, R214). -/
def Image.depth (m : Image) : Nat :=
  if m.nq = 0 then 0 else m.part 0 / (64 * (64 * m.nq)) * (64 / m.ringB)
/-- PRE_MAX (R64). -/
def Image.preMax (m : Image) : Nat := m.depth - 16384
/-- First byte of partition `n` (R211). -/
def Image.base (m : Image) (n : Nat) : Nat := ((List.range n).map m.part).foldl (· + ·) 0

/-- A stream definition with its fields as STR_DEF codes them. -/
def StreamDef.kind (d : StreamDef) : Nat := getBits d.defn 0 3
def StreamDef.tap (d : StreamDef) : Nat := getBits d.defn 4 2
def StreamDef.cls (d : StreamDef) : Nat := getBits d.defn 6 2
def StreamDef.port (d : StreamDef) : Nat := getBits d.defn 8 2
def StreamDef.foPort (d : StreamDef) : Nat := getBits d.defn 10 2
def StreamDef.foEn (d : StreamDef) : Bool := d.defn.getLsbD 12
def StreamDef.ipv6 (d : StreamDef) : Bool := d.defn.getLsbD 13
def StreamDef.vers (d : StreamDef) : Nat := getBits d.defn 16 3
def StreamDef.defVer (d : StreamDef) : Nat := getBits d.defn 20 2
def StreamDef.cont (d : StreamDef) : Bool := d.kind == 1 || d.kind == 2 || d.kind == 3
def StreamDef.srcs (d : StreamDef) : List Nat := maskList d.src
def StreamDef.none_ : StreamDef := ⟨0#32, 0, 0, []⟩

/-- Stream `i`. -/
def Image.stream (m : Image) (i : Nat) : StreamDef := m.streams.getD i StreamDef.none_
/-- The streams that are defined. -/
def Image.defined (m : Image) : List Nat := (List.range 64).filter (fun i => (m.stream i).kind != 0)

/-- (D, components, width of one component) of a continuous stream. -/
def Image.strFmt (m : Image) (d : StreamDef) : Nat × Nat × Nat :=
  let c := m.chan (if d.kind = 3 then (m.beam (d.srcs.headD 0)).headD 0 else d.srcs.headD 0)
  match d.kind with
  | 2 => (c.dec, if c.nco then 2 else 1, 4 * (c.width + 1))
  | 3 => (c.dec, 2, 16)
  | _ => (1, 1, 16)

/-- B_inst (R280). -/
def Image.binst (m : Image) (d : StreamDef) : Nat := instBytes d.srcs.length (m.strFmt d).2.1 (m.strFmt d).2.2
/-- I (R280); 0 for GEYSER and FUMAROLE. -/
def Image.instants (m : Image) (d : StreamDef) : Nat := if d.cont then d.payload / max 1 (m.binst d) else 0

/-! ### The image check (R464) -/

/-- Order numbers of a stage chain ascend. -/
def ascending : List Nat → Bool
  | a :: b :: t => decide (a < b) && ascending (b :: t)
  | _ => true

/-- R7: the stages in order, with none of the mandatory ones left out. -/
def stagesOk (l : List Nat) : Bool :=
  ascending l && l.all (fun x => decide (1 ≤ x) && decide (x ≤ 13)) && [1, 2, 3, 4, 5, 9, 11, 12, 13].all (fun x => l.contains x)

/-- Is channel `c` a source of a filtered stream or of a beam (R57)? -/
def Image.fixed (m : Image) (c : Nat) : Bool :=
  m.defined.any (fun i => (m.stream i).kind == 2 && (m.stream i).srcs.contains c) || (List.range 16).any (fun b => (m.beam b).contains c)

/-- Do the channels of `l` share D, components and width? -/
def Image.alike (m : Image) (l : List Nat) : Bool :=
  match l with
  | [] => true
  | c :: t => t.all (fun x => (m.chan x).dec == (m.chan c).dec && (m.chan x).nco == (m.chan c).nco && (m.chan x).width == (m.chan c).width)

/-- The members of all beams. -/
def Image.members (m : Image) : List Nat := (List.range 16).flatMap m.beam

/-- Beam `b` breaks R66; its members are compared with those of the beams before it (R176). -/
def Image.beamBad (m : Image) (b : Nat) : Bool :=
  let l := m.beam b
  l.any (fun c => !m.used c) || !m.alike (((List.range (b + 1)).flatMap m.beam)) ||
    l.any (fun c => decide (100000 * (m.chan c).dec < m.fmaxKhz))

/-- Partition `n` breaks its own rule (R63, R64). -/
def Image.partBad (m : Image) (n : Nat) : Bool :=
  m.part n % 524288 != 0 || (n == 3 && decide (m.part 3 < 1048576)) ||
    (n == 0 && (if m.nq = 0 then m.part 0 != 0 else m.part 0 != 0 && decide (m.depth < 16384)))

/-- COEF of channel `c` fails (R59, R57, R162, R163). -/
def Image.coefBad (m : Image) (c : Nat) : Bool :=
  let d := m.chan c
  let w := d.cfg
  let sum := (List.range (cfgT w)).foldl (fun a j => a + (toSigned 18 (d.coefs.getD (tapWordOf w j) 0#32).toNat).natAbs) 0
  !(decide (cfgT w ≤ 384) && decide (1 ≤ getBits w 17 7) && decide (getBits w 17 7 ≤ 64) && decide (getBits w 1 2 ≤ 2) &&
    decide (cfgCharge w ≤ d.alloc) && decide (sum ≤ 16777215) &&
    (!m.fixed c || (cfgD w == d.dec && w.getLsbD 0 == d.nco && getBits w 6 2 == d.width)))

/-- The versions that a kind may allow, as a mask of VERS (R279). -/
def Image.versAllowed (m : Image) (d : StreamDef) : Nat :=
  match d.kind with
  | 1 => 3
  | 2 => if (m.strFmt d).2.2 = 8 ∨ (m.strFmt d).2.2 = 16 then 3 else 2
  | 4 => 6
  | _ => 2

/-- Stream `i` breaks R278, R279, R280 or R66. -/
def Image.streamBad (m : Image) (i : Nat) : Bool :=
  let d := m.stream i
  let has := fun (st : Nat) (c : Nat) => (m.chan c).stages.contains st
  decide (5 < d.kind) || (d.vers &&& (7 - m.versAllowed d)) != 0 ||
  !(decide (1 ≤ d.defVer) && d.vers.testBit (d.defVer - 1)) ||
  decide (8192 < d.payload) || (d.cont && d.payload % m.binst d != 0) ||
  (d.foEn && (d.foPort == d.port || m.cls (4 * d.foPort + d.cls) == 0)) ||
  (d.kind == 5 && (List.range i).any (fun k => (m.stream k).kind == 5)) ||
  (d.kind == 1 && d.srcs.any (fun c => !m.used c || !has 5 c)) ||
  (d.kind == 2 && (d.srcs.any (fun c => !m.used c || !has 9 c) || !m.alike d.srcs)) ||
  (d.kind == 3 && d.srcs.any (fun b => (m.beam b).isEmpty || (m.beam b).any (fun c => !has 10 c)))

/-- Bytes of the largest stored frame of a stream: header, payload and room for the network headers, in lines (R65, R234). -/
def StreamDef.frameBytes (d : StreamDef) : Nat := ceil64 (128 + d.payload)

/-- The class queue `n` is too small for a stream that names it. -/
def Image.frameBad (m : Image) (n : Nat) : Bool :=
  m.defined.any (fun i => 4 * (m.stream i).port + (m.stream i).cls == n && decide (m.cls n < (m.stream i).frameBytes))

/-- Rate of a port mode in bit/s (R307). -/
def modeRate (mode : Nat) : Nat := match mode with | 1 => 50000000000 | 2 => 100000000000 | 3 => 200000000000 | _ => 0

/-- LR_s (R60) as a fraction in bit/s, with the 802.1Q tag of its port. -/
def Image.lineRate (m : Image) (d : StreamDef) (vlan : Bool) : Nat × Nat :=
  if d.cont then
    let o := (if d.ipv6 then 48 else 28) + (if vlan then 4 else 0)
    (8 * m.fmaxKhz * 1000 * (64 + d.payload + o + 38), max 1 ((m.strFmt d).1 * m.instants d))
  else (d.rate * 1000000, 1)

/-- The R61 sum of port `p` as a fraction. -/
def Image.portLoad (m : Image) (p : Nat) (vlan : Bool) : Nat × Nat :=
  (m.defined.filter (fun i => (m.stream i).port == p)).foldl (fun (a : Nat × Nat) i =>
    let r := m.lineRate (m.stream i) vlan
    (a.1 * r.2 + r.1 * a.2, a.2 * r.2)) (0, 1)

/-- A stream names port `p` while its mode is 0, or its load breaks R61. -/
def Image.portBad (m : Image) (p : Nat) (vlan : Bool) : Bool :=
  let mode := m.modes.getD p 0
  let l := m.portLoad p vlan
  (mode == 0 && m.defined.any (fun i => (m.stream i).port == p || ((m.stream i).foEn && (m.stream i).foPort == p))) ||
    decide (92 * modeRate mode * l.2 < 100 * l.1)

/-- MBXT: two identities, or an unbound channel. -/
def bindingOk (b : Binding) : Bool := decide (b.endA ≤ 8) && decide (b.endB ≤ 8)

/-- DEFAULTS names registers of the map with values inside their limits. -/
def defaultOk (e : Nat × Word) : Bool := (regRow? e.1).isSome && limitsOk e.1 e.2

/-! ### Image-loaded fields -/

/-- Byte offset of class queue `n` within the frame-queue partition (R233). -/
def Image.clsBase (m : Image) (n : Nat) : Nat := ((List.range n).map m.cls).foldl (· + ·) 0

/-- The fields that the image loads for channel `c` (R55, R57-R59). -/
def Image.chanWords (m : Image) (c : Nat) : List (Nat × Word) :=
  let d := m.chan c
  [(R.FIR_NCO_FREQ c, d.fw), (R.FIR_NCO_PHASE c, lo32 d.off), (R.FIR_SETTLE_LEN c, lo32 (cfgS d.cfg))] ++
  [0, 1].flatMap (fun b =>
    [(R.FIR_CFG c b, d.cfg), (R.FIR_SHIFT c b, d.shift), (R.FIR_CHARGE c b, lo32 (cfgCharge d.cfg + d.alloc * 2 ^ 16))] ++
    (List.range 384).map (fun j => (R.FIR_COEF c b j, d.coefs.getD j 0#32)))

/-- The fields of the streams. -/
def Image.streamWords (m : Image) (i : Nat) : List (Nat × Word) :=
  let d := m.stream i
  [(R.STR_DEF i, d.defn), (R.STR_SIZE i, lo32 (d.payload + m.instants d * 2 ^ 16)), (R.STR_RATE i, lo32 d.rate)] ++
    (List.range 8).map (fun k => (R.STR_SRC i k, d.src.getD k 0#32))

/-- The fields of the beams (R176). -/
def Image.beamWords (m : Image) : List (Nat × Word) :=
  let fmt := match m.members with
    | c :: _ => if m.bmf then lo32 ((m.chan c).dec + b2n (m.chan c).nco * 2 ^ 9 + (m.chan c).width * 2 ^ 10) else 0#32
    | [] => 0#32
  [(R.BMF_STATUS, lo32 (b2n m.bmf * 2)), (R.BMF_FMT, fmt)] ++
    (List.range 16).flatMap (fun b => (List.range 8).map (fun k =>
      (R.BMF_MEMBERS b k, lo32 (maskNat (m.beam b) / 2 ^ (32 * k)))))

/-- The fields of partitions, ring and queues. QMASK holds the quadrants in use also where the ring has no space (DESIGN CHOICE, log 73). -/
def Image.memWords (m : Image) : List (Nat × Word) :=
  (List.range 5).map (fun n => (R.IMG_PART n,
    if m.part n = 0 then 0#32 else lo32 (m.part n / 524288 + m.base n / 524288 * 2 ^ 16))) ++
  [(R.IMG_RING, lo32 (m.depth + b2n m.ring8 * 2 ^ 22 + m.quads * 2 ^ 24)), (R.IMG_PRE_MAX, lo32 m.preMax),
   (R.TRG_INFO, lo32 (m.ringTap + b2n m.ring8 * 4)), (R.TRG_POOL_FREE, lo32 (m.part 1 / 64)),
   (R.MEM_RING_CFG, lo32 (m.rsh + 64 * m.nq * 16)), (R.SNT_INFO, lo32 (min 64 (m.part 3 / 40960))),
   (R.FLW_WQ_COUNT, lo32 m.wqs.length)] ++
  (List.range 16).flatMap (fun n =>
    [(R.FLW_FQ_BASE n, lo32 ((m.base 2 + m.clsBase n) / 64)), (R.FLW_FQ_SIZE n, lo32 (m.cls n / 64))]) ++
  ((List.range 512).zip m.wqs).flatMap (fun (n, q) =>
    [(R.FLW_WQ_INFO n, lo32 (q.depth + q.src * 2 ^ 16 + q.dst * 2 ^ 20)), (R.FLW_WQ_CREDIT n, lo32 q.depth)])

/-- IMG_POOL of quadrant `q`. -/
def Image.poolWord (m : Image) (q : Nat) : Word :=
  let cs := (List.range 64).map (fun k => m.chan (64 * q + k))
  lo32 ((cs.map (·.alloc)).foldl (· + ·) 0 + (cs.map (fun d => cfgCharge d.cfg)).foldl (· + ·) 0 * 2 ^ 16)

/-- The other fields of the UPD and NET blocks; `vlan` says which ports tag their frames. -/
def Image.topWords (m : Image) (vlan : Nat → Bool) : List (Nat × Word) :=
  [(R.IMG_VERSION, lo32 m.version), (R.IMG_LAT_RAW, 27#32), (R.IMG_LAT_CLEAN, 35#32), (R.IMG_LAT_ALIGNED, 51#32),
   (R.IMG_LAT_CHAIN, lo32 m.latChain), (R.IMG_LAT_BEAM, lo32 (if m.members.isEmpty then 0 else m.latBeam)),
   (R.IMG_FMAX, lo32 (m.fmaxKhz + b2n m.lowpwr * 2 ^ 20)), (R.UPD_HEALTH, lo32 ((2 ^ healthN m.health - 1) * 2 ^ 16))] ++
  (List.range 4).map (fun q => (R.IMG_POOL q, m.poolWord q)) ++
  (List.range 4).map (fun p =>
    let l := m.portLoad p (vlan p)
    (R.IMG_PORT_LOAD p, lo32 (10000 * l.1 / (l.2 * max 1 (modeRate (m.modes.getD p 0)))))) ++
  (List.range 4).map (fun p => (R.NET_PORT_INFO p, lo32 (m.modes.getD p 0))) ++
  (List.range 8).map (fun t => (R.UPD_SEC_VER t, lo32 (m.secVers.getD t 0)))

/-- Every "img" field takes the image's value: DEFAULTS, and over it what the other sections fix. -/
def State.putImage (s : State) (m : Image) : State :=
  let vlan := fun p => m.defaults.any (fun e => e.1 == (F.NET_VLAN_EN p).off && e.2.getLsbD (F.NET_VLAN_EN p).lo)
  ({ s with image := some m }).putFields imgMask
    (m.defaults ++ (List.range 256).flatMap m.chanWords ++ (List.range 64).flatMap m.streamWords ++ m.beamWords ++ m.memWords ++
      m.topWords vlan)

/-- The first unit of a check that fails. -/
def firstBad (code : Nat) (n : Nat) (p : Nat → Bool) : List (Nat × Nat) := ((List.range n).filter p).map (fun k => (code, k))

/-- The hub as it would stand with the image and its DEFAULTS: what the checks of the DEFAULTS section look at. -/
def State.withDefaults (s : State) (m : Image) : State := (({ s with shadows := [] }).putImage m).putFields retMask m.defaults

/-- The failures of the image in the order of R464. The port budget takes VLAN tagging from the image's own DEFAULTS (DESIGN CHOICE, log
72: R60 does not say whether it or the setting in force counts). -/
def State.imageFails (s : State) (m : Image) : List (Nat × Nat) :=
  let other := fun (t : Nat) => if m.otherBad.getD t false then [(0x09, t)] else []
  let vlan := fun p => m.defaults.any (fun e => e.1 == (F.NET_VLAN_EN p).off && e.2.getLsbD (F.NET_VLAN_EN p).lo)
  let t := s.withDefaults m
  (if (if m.lowpwr then decide (40000 ≤ m.fmaxKhz) && decide (m.fmaxKhz ≤ 125000)
      else decide (160000 ≤ m.fmaxKhz) && decide (m.fmaxKhz ≤ 420000)) then [] else [(0x0B, 0)]) ++
  firstBad 0x06 256 (fun c => !stagesOk (m.chan c).stages) ++
  firstBad 0x01 4 (fun q => decide (3072 < ((List.range 64).map (fun k => (m.chan (64 * q + k)).alloc)).foldl (· + ·) 0)) ++
  firstBad 0x03 5 m.partBad ++
  (if ((List.range 5).map m.part).foldl (· + ·) 0 = memBytes then [] else [(0x03, 5)]) ++
  (if m.clsBase 16 = m.part 2 then [] else [(0x03, 2)]) ++
  firstBad 0x08 16 m.beamBad ++ other 0 ++
  firstBad 0x06 256 m.coefBad ++ other 1 ++
  firstBad 0x07 64 (fun i => (m.stream i).kind != 0 && m.streamBad i) ++
  firstBad 0x05 16 m.frameBad ++ other 2 ++
  firstBad 0x02 4 (fun p => m.portBad p (vlan p)) ++ other 3 ++
  (if m.mbxt.all bindingOk && !(m.otherBad.getD 4 false) then [] else [(0x09, 4)]) ++
  (if healthOk m.health && !(m.otherBad.getD 5 false) then [] else [(0x09, 5)]) ++
  (if m.covers then [] else [(0x09, 6)]) ++
  (if m.defaults.all defaultOk && !(m.otherBad.getD 7 false) then [] else [(0x09, 7)]) ++
  firstBad 0x04 8 (fun n => !(t.condFails n).isEmpty || !t.copyHoldsFor n)

/-- The outcome of R67 for the sections of a composed set whose container checks have passed: CODE, DETAIL and, on PASS, the
image. Sections that no image can be read from fail as STRUCT values outside their limits (assumption log). -/
def State.imageCheck (s : State) (version : Nat) (l : List SlotSec) : Nat × Nat × Option Image :=
  match [0, 1, 2, 3, 4, 6, 7].find? (fun t => !l.any (fun x => x.typ == t)) with
  | some t => (0x0A, t, none)
  | none =>
    match imageOf version l with
    | none => (0x09, 0, none)
    | some m =>
      match s.imageFails m with
      | f :: _ => (f.1, f.2, none)
      | [] => (0, 0, some m)

/-- The load check of slot `i` (R67, R388). -/
def State.checkSlot (s : State) (i : Nat) (bad : Bool) : Nat × Nat × Option Image :=
  let x := s.slot i
  let c := s.slotCode x bad
  if c = 0 then s.imageCheck x.version x.named else (0x0C, c, none)

/-- The check of a container in the host buffer. -/
def State.checkBuffer (s : State) (b : List Byte) (bad : Bool) : Nat × Nat × Option Image :=
  let c := s.bufferCode b bad
  if c = 0 then s.imageCheck (hdrVer b) (bufferSecs b) else (0x0C, c, none)

/-- IMG_CHECK; the code of a refused load appears in UPD_STATUS.ERR too (R390). -/
def State.showCheck (s : State) (code detail slot : Nat) : State :=
  let s := ((s.setF F.IMG_CHECK_CODE code).setF F.IMG_CHECK_DETAIL detail).setF F.IMG_CHECK_SLOT slot
  if code = 0x0C then s.setF F.UPD_STATUS_ERR detail else s

end Sys2Proof.Machine
end

