-- ==== Sys2Proof/Machine/MaintOps.lean ====
section
/-!
DEFINITION. Machine/MaintOps.lean: the maintenance coordinator: the conflict matrix, submission, admission with what each
activity does as it starts, pauses and ends (R408-R414).
-/

namespace Sys2Proof.Machine

/-! ### The conflict matrix (R409) -/

/-- The W entries of R409: does row `a` wait for column `b`? Two of one kind that follow one another wait too: saves by the
J rule, IMGWRITE, REFORM, and READAPT on every port; BGCAL on the same group. -/
def waitsFor (a : Nat) (ua : Nat) (b : Nat) (ub : Nat) : Bool :=
  match a with
  | 0 => b == 0 && ua == ub
  | 1 => b == 4 || b == 6
  | 3 => b == 3 || b == 4 || b == 5 || b == 6
  | 4 => b == 1 || b == 3 || b == 4 || b == 5 || b == 6
  | 5 => b == 3 || b == 4 || b == 5 || b == 6
  | 6 => b == 1 || b == 3 || b == 4 || b == 5 || b == 6 || b == 7 || b == 10
  | 7 => b == 6 || b == 7
  | 10 => b == 6
  | _ => false

/-- Does `x` wait for one of `l`? -/
def Activity.blocked (x : Activity) (l : List Activity) : Bool := l.any (fun y => waitsFor x.a x.unit y.a y.unit)

/-- A P column of row BGCAL or SCRUB runs (R409). -/
def State.pauser (s : State) (a : Nat) : Bool :=
  s.mnt.running.any (fun y => (y.a == actFgcal && a == actBgcal) || (y.a == actReform && s.reform.phase != 1 && s.reform.phase != 2) ||
    (y.a == actReform && a == actScrub) || (y.a == actDbghalt && (s.halted || a == actScrub)))

/-- Marks the running activity (a, u) as paused or not. -/
def State.setPaused (s : State) (a u : Nat) (b : Bool) : State :=
  { s with mnt := { s.mnt with
    running := s.mnt.running.map (fun y => if y.a = a ∧ y.unit = u then { y with paused := b } else y) } }

/-- Is activity (a, u) running? -/
def State.runs (s : State) (a u : Nat) : Bool := s.mnt.running.any (fun y => y.a == a && y.unit == u)

/-- Background calibration pauses in every group that runs a cycle (R125, R412). -/
def State.pauseAllBg (s : State) : State :=
  (List.range 16).foldl (fun s g => if s.runs actBgcal g then (s.pauseBg g).setPaused actBgcal g true else s) s

/-- A scrub pass pauses at the next line (R412). -/
def State.pauseScrub (s : State) : State :=
  if s.runs actScrub 0 then (s.setF F.MEM_SCRUB_STATUS_PAUSED 1).setPaused actScrub 0 true else s

/-- What an activity does as it is admitted. SETSAVE tags: 1 the erase of R405, else a save. -/
def State.startAct (s : State) (x : Activity) : State :=
  match x.a with
  | 0 => if s.pauser actBgcal then (s.pauseBg x.unit).setPaused actBgcal x.unit true else s
  | 1 => s.pauseAllBg
  | 2 =>
    let s := s.setF F.MEM_SCRUB_STATUS_ACTIVE 1
    if s.pauser actScrub then s.pauseScrub else s
  | 3 => if x.tag = 1 then s.eraseProv else (s.setF F.PWR_SAVE_CTRL_SAVE_BUSY 1).saveSnap
  | 4 => s.calSnap
  | 6 => (({ s with reform := { s.reform with phase := 1 } }).setF F.IMG_STATUS_STATE 2).pauseScrub
  | 10 => ({ s with dbg := { s.dbg with ready := true } }).pauseScrub
  | _ => s

/-- Admits an activity. -/
def State.enter (s : State) (x : Activity) : State :=
  let s := { s with mnt := { s.mnt with running := s.mnt.running ++ [{ x with paused := false }] } }
  let s := if x.waited then s.bump (F.MNT_ACT_WAITS_COUNT x.a) else s
  s.startAct x

/-- MNT_QUEUE.HIGH follows the depth. -/
def State.noteDepth (s : State) : State :=
  if s.getF F.MNT_QUEUE_HIGH < s.mnt.waiting.length then s.setF F.MNT_QUEUE_HIGH s.mnt.waiting.length else s

/-- An activity arrives (R410, R413): a save joins a waiting one of its kind, an activity without a W conflict is admitted at
once, any other waits at the end of the queue. One whose kind and unit waits already adds nothing, REFORM apart (R414; DESIGN CHOICE,
assumption log 88). -/
def State.submit (s : State) (a unit tag : Nat) : State :=
  let x : Activity := ⟨a, unit, tag, false, false⟩
  let s := if a = actSetsave then s.setF F.PWR_SAVE_CTRL_SAVE_BUSY 1 else s
  if (a = actSetsave ∨ a = actCalsave) ∧ s.mnt.waiting.any (fun y => y.a == a && y.tag != 1) then
    let s := s.bump (F.MNT_ACT_JOINED_COUNT a)
    { s with mnt := { s.mnt with
      waiting := s.mnt.waiting.map (fun y => if y.a = a ∧ y.tag ≠ 1 then { y with tag := max y.tag tag } else y) } }
  else if a ≠ actReform ∧ a ≠ actSetsave ∧ s.mnt.waiting.any (fun y => y.a == a && y.unit == unit) then s
  else if x.blocked (s.mnt.running ++ s.mnt.waiting) then
    ({ s with mnt := { s.mnt with waiting := s.mnt.waiting ++ [{ x with waited := true }] } }).noteDepth
  else s.enter x

/-- The erase of R405 goes to the head of the queue (R414). -/
def State.submitErase (s : State) : State :=
  let x : Activity := ⟨actSetsave, 0, 1, false, false⟩
  if x.blocked s.mnt.running then
    ({ s with mnt := { s.mnt with waiting := { x with waited := true } :: s.mnt.waiting } }).noteDepth
  else s.enter x

/-- Admits in queue order every waiting activity whose W conflicts have ended; none passes an earlier one it has a W entry
with. -/
def State.admitFrom (s : State) : List Activity → List Activity → State × List Activity
  | kept, [] => (s, kept)
  | kept, x :: t =>
    if x.blocked (s.mnt.running ++ kept) then s.admitFrom (kept ++ [x]) t
    else (s.enter x).admitFrom kept t

/-- ACTIVITY_ADMIT (R410). -/
def State.activityAdmit (s : State) : State :=
  let w := s.mnt.waiting
  let (s, kept) := ({ s with mnt := { s.mnt with waiting := [] } }).admitFrom [] w
  { s with mnt := { s.mnt with waiting := kept } }

/-- The first activity (a, u) that runs leaves the list. -/
def dropAct (a u : Nat) : List Activity → List Activity
  | [] => []
  | y :: t => if y.a = a ∧ y.unit = u then t else y :: dropAct a u t

/-- Activity (a, u) ends; the calibration activities are work of CAL (R373). -/
def State.endAct (s : State) (a u : Nat) : State :=
  let s := { s with mnt := { s.mnt with running := dropAct a u s.mnt.running } }
  if a = actBgcal ∨ a = actFgcal ∨ a = actCalsave then s.worked 13 else s

/-- A waiting activity is withdrawn (R410). -/
def State.withdraw (s : State) (a u : Nat) : State :=
  if s.mnt.waiting.any (fun y => y.a == a && y.unit == u) then
    ({ s with mnt := { s.mnt with waiting := dropAct a u s.mnt.waiting } }).bump (F.MNT_ACT_WITHDRAWN_COUNT a)
  else s

/-- A warm reset abandons every activity and counts the withdrawals (R420). -/
def State.dropActs (s : State) : State :=
  let s := s.mnt.waiting.foldl (fun s y => s.bump (F.MNT_ACT_WITHDRAWN_COUNT y.a)) s
  { s with mnt := { running := [], waiting := [] } }

end Sys2Proof.Machine
end

