-- ==== Sys2Proof/Machine/UpdOps.lean ====
section
/-!
DEFINITION. Machine/UpdOps.lean: the update session: its lock, its states and its ends (R391, R394, R402).
-/

namespace Sys2Proof.Machine

/-- UPD_STATUS.STATE: 0 IDLE, 1 OPEN, 2 RECEIVING, 3 RESEND, 4 COPYING, 5 CHECKING, 6 STAGED, 7 SAVING, 8 ACTIVATING, 9 TRIAL,
10 FALLBACK. -/
def State.updSt (s : State) : Nat := s.getF F.UPD_STATUS_STATE
def State.updTo (s : State) (n : Nat) : State := s.setF F.UPD_STATUS_STATE n

/-- Owner of the session lock; 5 while UPD holds it for an activation. -/
def State.updOwner (s : State) : Nat := s.getF F.UPD_SESSION_OWNER

/-- The slot that is not loaded at a cold start. -/
def State.inactive (s : State) : Nat := if s.jActive = 1 then 2 else 1

/-- A re-form may not be asked for by software: SAVING, ACTIVATING, the window or a fallback is in progress (R407). -/
def State.updBusy (s : State) : Bool := decide (7 ≤ s.updSt) && decide (s.updSt ≤ 10)

/-- First flash byte of slot `i` (R379). -/
def slotAddr (i : Nat) : Nat := 0x1800000 * (i - 1)

/-- UPD_SEC_VER.STAGED follows the staged slot. -/
def State.showStaged (s : State) : State :=
  let l := if s.jState = 2 then (s.slot s.jOther).named else []
  (List.range 8).foldl (fun s t =>
    s.setF (F.UPD_SEC_VER_STAGED t) (match l.find? (fun x => x.typ == t) with | some x => x.ver | none => 0)) s

/-- A journal entry with what the update registers show of it, and whether it was written. -/
def State.updJournal (s : State) (st active other pre : Nat) : Bool × State :=
  let (ok, s) := s.writeJournal st active other pre
  (ok, s.showStaged)

/-- Data or a command has come (R394). -/
def State.updTouch (s : State) : State := { s with upd := { s.upd with last := s.tick } }

/-- The session's own data are dropped; channels that wait for a bank stay, and what the staged package carried. -/
def State.updClear (s : State) : State :=
  ({ s with upd := { UpdState.reset with coefs := s.upd.coefs, carried := s.upd.carried } }).setF F.UPD_OFFSET_NEXT 0 |>.setF F.UPD_STATUS_SECTION 0

/-- Writes to the slot that wait or run are given up. -/
def State.dropWrites (s : State) : State :=
  let s := { s with upd := { s.upd with writes := [] } }
  (s.withdraw actImgwrite 0).endAct actImgwrite 0

/-- The session ends in IDLE: the lock is released, with a record. -/
def State.updRelease (s : State) (ident : Nat) : State :=
  let o := s.updOwner
  (((s.setF F.UPD_SESSION_OWNER 0).updTo 0).updClear.worked 12).emit ident 0x0703 (pw o ++ pb false)

/-- ABORT, CLOSE, reset of the owner or the timeout (R394): ABORTED unless STAGED. -/
def State.updEnd (s : State) (ident : Nat) : State :=
  let s := if s.updSt = 6 then s else s.setF F.UPD_STATUS_ERR 0x0E
  s.dropWrites.updRelease ident

/-- The session fails with a code of R390: FAILED, its record, and IDLE. -/
def State.updFail (s : State) (code : Nat) : State :=
  let sec := s.getF F.UPD_STATUS_SECTION
  let s := (s.setF F.UPD_STATUS_ERR code).setF F.UPD_STATUS_FAILED 1
  (s.dropWrites.emit 0 0x0705 (pw code ++ pw sec)).updRelease 0

/-- Is a session in one of the states OPEN to STAGED? -/
def State.updLive (s : State) : Bool := decide (1 ≤ s.updSt) && decide (s.updSt ≤ 6)

/-- An identity is reset: a session of its own ends (R394). -/
def State.updOwnerReset (s : State) (i : Nat) : State := if s.updLive && s.updOwner == i then s.updEnd 0 else s

/-- A command of the session from `id`: only the owner's are accepted (R391). -/
def State.updOwned (s : State) (id : Ident) (f : State → State) : State :=
  if s.updOwner = id.num then f s.updTouch else s.deny

/-- A read of UPD_SESSION, or a Damuf OPEN, by `id` (R391): a free lock is acquired, and the session opens in OPEN or, with a
staged slot, in STAGED. -/
def State.updOpen (s : State) (id : Ident) : Word × State :=
  if s.updOwner = 0 then
    let s := s.updClear.updTouch.wakeDom 12
    let s := (s.setF F.UPD_SESSION_OWNER id.num).updTo (if s.jState = 2 then 6 else 1)
    (0#32, s.emit id.num 0x0703 (pw id.num ++ pb true))
  else (lo32 s.updOwner, s)

/-- A write of UPD_SESSION: the owner's number by the owner closes (R365, R391). -/
def State.updClose (s : State) (id : Ident) (v : Word) : State :=
  if s.updOwner ≠ id.num then s.deny
  else if getBits v 0 4 ≠ id.num then s.bump F.MBX_LOCK_ERR_COUNT
  else s.updEnd id.num

/-- The trial falls back (R402, R405): a re-form onto the slot of ACTIVE, with its cause. -/
def State.updFallback (s : State) (cause : Nat) : State :=
  let s := ({ s with upd := { s.upd with cause := cause, decided := false } }).updTo 10
  let s := { s with reform := { s.reform with reqs := s.reform.reqs ++ [ReformReq.mk s.jActive false 0 2] } }
  (s.setF F.IMG_REFORM_STATUS_PENDING 1).submit actReform 0 0

end Sys2Proof.Machine
end

