-- ==== Sys2Proof/Machine/SinterOps.lean ====
section
/-!
DEFINITION. Machine/SinterOps.lean: lanes and contexts of the sinter engine, and the jobs that re-forms, resets and ring
disables take away (R255-R257, R276).
-/

namespace Sys2Proof.Machine

/-! ### Lanes and contexts (R256, R257) -/

def State.ctx (s : State) (n : Nat) : SntCtx := s.snt.ctxs.getD n SntCtx.reset

def State.updCtx (s : State) (n : Nat) (f : SntCtx → SntCtx) : State :=
  { s with snt := { s.snt with ctxs := updAt f s.snt.ctxs n } }

/-- Context `n`: 0 FREE, 1 RUNNING, 2 SUSPENDED, 3 hub job. -/
def State.ctxSt (s : State) (n : Nat) : Nat := s.getF (F.SNT_CTX_STATE_STATE n)

/-- Sets its state and owner. -/
def State.setCtx (s : State) (n st owner : Nat) : State :=
  (s.setF (F.SNT_CTX_STATE_STATE n) st).setF (F.SNT_CTX_STATE_OWNER n) owner

/-- A job uses context `n`: what it will have written there is new (R257). -/
def State.ctxTake (s : State) (n : Nat) (j : Option SntJob) : State :=
  { s with
    freeCtr := s.freeCtr + 1
    snt := { s.snt with ctxs := updAt (fun _ => ⟨j, true, s.freeCtr, [], none⟩) s.snt.ctxs n } }

/-- The context becomes FREE. -/
def State.freeCtx (s : State) (n : Nat) : State := (s.setCtx n 0 0).updCtx n (fun x => { x with job := none })

/-- Lane `l` takes a job: state 1 hub job, 2 host job. -/
def State.laneTake (s : State) (l st ctx stream : Nat) : State :=
  let s := (s.setF (F.SNT_LANE_STATE l) st).setF (F.SNT_LANE_CTX l) ctx
  let s := s.setF (F.SNT_LANE_STREAM l) stream
  let s := s.setF ⟨R.SNT_STATUS, l, 1⟩ 1
  s.worked 12

/-- Lane `l` is free again. -/
def State.laneFree (s : State) (l : Nat) : State :=
  let s := s.wr (R.SNT_LANE l) 0#32
  let s := s.setF ⟨R.SNT_STATUS, l, 1⟩ 0
  ({ s with snt := { s.snt with caps := updAt (fun _ => none) s.snt.caps l } }).worked 12

def State.laneSt (s : State) (l : Nat) : Nat := s.getF (F.SNT_LANE_STATE l)

/-- The lowest free compression lane from lane `lo` on. -/
def State.freeLane (s : State) (lo : Nat) : Option Nat :=
  (List.range 4).find? (fun l => decide (lo ≤ l) && s.laneSt l == 0)

/-- May capture `k` become a hub job (R264): its copy has finished, its window is whole and no earlier capture of its stream is still to be sent? -/
def State.capReady (s : State) (k : Capture) : Bool :=
  k.state == 1 && decide (k.copyEnd ≤ s.tick) && (match s.trg.caps.find? (fun x => x.stream == k.stream && x.state != 3) with
    | some x => x.id == k.id
    | none => false)

/-- The next capture that waits for a lane. -/
def State.nextCap (s : State) : Option Capture := s.trg.caps.find? s.capReady

/-- The section entry of an update in progress. -/
def State.updEnt (s : State) : Option SecEnt := (hdrEnts s.upd.hdr)[s.upd.idx]?

/-- System inflate is wanted (R256, R275): in the check and load pass of a re-form, and for a section of an update that has arrived. -/
def State.sysWants (s : State) : Bool :=
  s.reform.phase == 1 || s.reform.phase == 3 || ((s.updSt == 2 || s.updSt == 3) &&
    (match s.updEnt with | some e => decide (e.len ≤ s.upd.buf.length) | none => false))

/-- It has the inflate lane: a host job that runs there ends first. -/
def State.sysRuns (s : State) : Bool := s.sysWants && s.laneSt 4 != 2

/-! ### The record of a job step (R269, R353) -/

/-- What the record of a step says. -/
structure StepEnd where
  status  : Nat
  residue : Nat
  raw     : Nat
  ovf     : Nat
  inp     : Nat
  out     : Nat
  blocks  : Nat
  adler   : Nat
  loc     : Nat
deriving DecidableEq, Repr

/-- A step that did nothing. -/
def StepEnd.none_ (status loc : Nat) : StepEnd := ⟨status, 0, 0, 0, 0, 0, 0, 0, loc⟩

/-- The 32 bytes of the completion record. -/
def StepEnd.bytes (e : StepEnd) (ctx : Nat) (tag : Word) : List Byte :=
  leBytes 4 (e.status + ctx * 2 ^ 8 + e.residue * 2 ^ 16 + e.raw * 2 ^ 19 + e.ovf * 2 ^ 20) ++ leBytes 4 tag.toNat ++
    leBytes 4 e.inp ++ leBytes 4 e.out ++ leBytes 4 e.blocks ++ leBytes 4 e.adler ++ leBytes 4 e.loc ++ zeros 4

/-- The completion record is written over the job's entry, with its counters and its error record. -/
def State.stepRecord (s : State) (f idx ctx : Nat) (tag : Word) (e : StepEnd) : State :=
  let s := s.obsv (.hostWrite f (s.rd64 (R.HIF_RING_BASE_LO f 8) (R.HIF_RING_BASE_HI f 8) +
    64 * (idx % 2 ^ s.getF (F.HIF_RING_CTRL_LOG2 f 8))) (e.bytes ctx tag))
  if e.status = 0 then s.bump F.SNT_JOBS_COUNT
  else if e.status = 1 then s.bump F.SNT_OUT_FULL_COUNT
  else if e.status = 11 then s
  else (s.bump F.SNT_ERRORS_COUNT).emit 7 0x0B01 (pw ctx ++ pw e.status ++ pw tag.toNat ++ pw e.loc)

/-! ### The words of a context (R212, R213, R219, R226) -/

/-- First byte of context `n` in the sinter partition (R257). -/
def State.ctxBase (s : State) (n : Nat) : Nat := s.partBase 3 + 40960 * n

/-- Does the word at `a` belong to context `n`? -/
def State.ctxHas (s : State) (n a : Nat) : Bool := decide (s.ctxBase n ≤ a) && decide (a < s.ctxBase n + 40960)

/-- A job that starts writes its context: the words' earlier faults are gone, and an armed injection there takes its word. -/
def State.ctxWrite (s : State) (n : Nat) : State :=
  let s := { s with mem := { s.mem with faults := s.mem.faults.filter (fun f => !(s.ctxHas n f.word)) } }
  let a := s.getF F.MEM_INJECT_ADDR_ADDR * 4
  if s.ctxHas n a then s.memWroteWord a else s

/-- Reads words one after another up to one that fails twice: its offset. -/
def State.readEach (s : State) : List Nat → Option Nat × State
  | [] => (none, s)
  | a :: t =>
    let (r, s) := s.memReadWord a
    if r = MemRead.lasting then (some a, s) else s.readEach t

/-- A job reads its context: single-bit errors are corrected and counted, and a word that fails its second attempt stays as it is. -/
def State.ctxRead (s : State) (n : Nat) : Option Nat × State :=
  s.readEach ((s.mem.faults.filter (fun f => s.ctxHas n f.word)).map (·.word))

/-- A job starts in context `n`: it writes the context and reads it back. -/
def State.ctxStart (s : State) (n : Nat) : Option Nat × State := (s.ctxWrite n).ctxRead n

/-! ### Jobs that end from outside (R276, R337, R350) -/

/-- Takes the lane off the job in context `n`. -/
def State.laneOff (s : State) (n : Nat) : State :=
  (List.range 5).foldl (fun s l => if s.laneSt l = 2 ∧ s.getF (F.SNT_LANE_CTX l) = n then s.laneFree l else s) s

/-- The host job in context `n` is abandoned without a completion record. -/
def State.dropJob (s : State) (n : Nat) : State := (s.laneOff n).freeCtx n

/-- Host jobs of function `f` whose context is in a state that `p` admits are abandoned. -/
def State.dropJobs (s : State) (f : Nat) (p : Nat → Bool) : State :=
  (List.range 64).foldl (fun s n =>
    if decide (8 ≤ n) && p (s.ctxSt n) && s.getF (F.SNT_CTX_STATE_OWNER n) == f + 1 then s.dropJob n else s) s

/-- Every job and context is abandoned without completion records: warm reset, XPR or SNT reset (R276). -/
def State.sntReset (s : State) : State :=
  let s := (List.range 5).foldl State.laneFree s
  let s := (List.range 64).foldl State.freeCtx s
  { s with snt := { SntState.reset with ctxs := s.snt.ctxs.map (fun x => { x with job := none, doneAt := none }) } }

end Sys2Proof.Machine
end

