-- ==== Sys2Proof/Machine/HostOps.lean ====
section
/-!
DEFINITION. Machine/HostOps.lean: the DMA rings of the host interface: entries, write-backs, errors and moderated signals
(R349-R355).
-/

namespace Sys2Proof.Machine

/-! ### Free bytes -/

/-- `n` bytes that the spec leaves open. -/
def State.freeBytes (s : State) : Nat → List Byte × State
  | 0 => ([], s)
  | n + 1 =>
    let (v, s) := s.free
    let (l, s) := s.freeBytes n
    (BitVec.ofNat 8 v :: l, s)

/-! ### Rings -/

def State.ring (s : State) (f r : Nat) : Ring := (s.fn f).rings.getD r Ring.reset

def State.updRing (s : State) (f r : Nat) (g : Ring → Ring) : State :=
  s.updFn f (fun x => { x with rings := updAt g x.rings r })

/-- Entries of the ring. -/
def State.ringLen (s : State) (f r : Nat) : Nat := 2 ^ s.getF (F.HIF_RING_CTRL_LOG2 f r)

/-- Bytes of one entry (R349). -/
def entrySize (r : Nat) : Nat := if r < 8 then 32 else if r = 8 then 64 else 128

/-- Host address of entry `i` (R350). -/
def State.entryAddr (s : State) (f r i : Nat) : Nat :=
  s.rd64 (R.HIF_RING_BASE_LO f r) (R.HIF_RING_BASE_HI f r) + entrySize r * (i % s.ringLen f r)

/-- PI - CI, 16-bit indices that run freely. -/
def State.ringFill (s : State) (f r : Nat) : Nat :=
  (s.getF (F.HIF_RING_PI_PI f r) + 65536 - s.getF (F.HIF_RING_CI_CI f r)) % 65536

/-- A WB write signals the ring's vector at once, or leaves the signal to the end of the moderation interval (R355). -/
def State.ringSignal (s : State) (f r : Nat) : State :=
  let md := s.getF (F.HIF_RING_CTRL_MOD f r)
  let due := match (s.ring f r).lastSig with | none => true | some k => decide (k + 500 * md ≤ s.tick)
  if decide (md = 0) || due then
    (s.updRing f r (fun x => { x with lastSig := some s.tick, sigDue := false })).signal f (s.getF (F.HIF_RING_CTRL_VEC f r))
  else s.updRing f r (fun x => { x with sigDue := true })

/-- MSIX_MODERATION_EXPIRY: MOD microseconds have passed since the previous signal, and a WB write waits for its own. -/
def State.modExpiry (s : State) (f r : Nat) : State :=
  let md := s.getF (F.HIF_RING_CTRL_MOD f r)
  let due := match (s.ring f r).lastSig with | none => true | some k => decide (k + 500 * md ≤ s.tick)
  if (s.ring f r).sigDue && due then
    (s.updRing f r (fun x => { x with lastSig := some s.tick, sigDue := false })).signal f (s.getF (F.HIF_RING_CTRL_VEC f r))
  else s

/-- The 8-byte write to WB with an index in bits 15:0. -/
def State.writeWb (s : State) (f r i : Nat) : State :=
  (s.obsv (.hostWrite f (s.rd64 (R.HIF_RING_WB_LO f r) (R.HIF_RING_WB_HI f r)) (leBytes 8 (i % 65536)))).ringSignal f r

/-- CI advances past entry `i` of a ring that completes in order, and is written back. -/
def State.ringDone (s : State) (f r i : Nat) : State :=
  (s.setF (F.HIF_RING_CI_CI f r) (i + 1)).writeWb f r (i + 1)

/-- The consecutive completed indices from `ci` on (ring 8, R350). -/
def runOfDone (done : List Nat) : Nat → Nat → Nat
  | 0, ci => ci
  | k + 1, ci => if done.contains (ci % 65536) then runOfDone done k (ci + 1) else ci

/-- Entry `i` of ring 8 completes; CI advances over a run of consecutive completed entries (R350). -/
def State.sntDone (s : State) (f i : Nat) : State :=
  let done := (i % 65536) :: (s.ring f 8).done
  let ci := s.getF (F.HIF_RING_CI_CI f 8)
  let ci' := runOfDone done done.length ci
  let passed := (List.range (ci' - ci)).map (fun k => (ci + k) % 65536)
  let s := s.updRing f 8 (fun x => { x with done := done.filter (fun d => !passed.contains d) })
  if ci' = ci then s else (s.setF (F.HIF_RING_CI_CI f 8) ci').writeWb f 8 ci'

/-- A ring stops with an error code: 1 index overrun, 2 PCIe error (R350). -/
def State.ringStop (s : State) (f r code : Nat) : State :=
  (s.setF (F.HIF_RING_STATUS_ERR f r) code).emit 0 0x0E04 (pw f ++ pw r ++ pw code)

/-! ### Descriptors (R351, R352) -/

/-- The TX entry as a host frame of its port. -/
def hostFrameOf (f : Nat) (e : RingEntry) (now : Nat) : HostFrame :=
  let w2 := leAt e.desc 8 4
  { fn := f, idx := e.idx, bytes := e.data.take (w2 % 4096), len := w2 % 4096, tsReq := w2 / 2 ^ 16 % 2 == 1,
    oneStep := w2 / 2 ^ 17 % 2 == 1, prio := w2 / 2 ^ 18 % 2 == 1, bad := e.bad, hdr := leAt e.desc 12 4 % 2048,
    tag := BitVec.ofNat 32 (leAt e.desc 16 4), since := now, promoted := false }

/-- What the hub read for the entries from index `i` on. Where the command does not say what a DMA read returns, the bytes
are free values. -/
def State.takeEntries (s : State) (r i : Nat) : Nat → List RingIn → List RingEntry × State
  | 0, _ => ([], s)
  | k + 1, e :: t =>
    let (l, s) := s.takeEntries r (i + 1) k t
    (⟨i % 65536, e.desc, e.data, e.bad⟩ :: l, s)
  | k + 1, [] =>
    let (d, s) := s.freeBytes (entrySize r)
    let (b, s) := s.freeBytes (if r < 4 then 2048 else 0)
    let (l, s) := s.takeEntries r (i + 1) k []
    (⟨i % 65536, d, b, false⟩ :: l, s)

/-- Descriptors pass to the hub: TX entries become host frames of their port, others wait in the ring. -/
def State.postEntries (s : State) (f r : Nat) (l : List RingEntry) : State :=
  if r < 4 then s.updPort r (fun x => { x with hostQ := x.hostQ ++ l.map (fun e => hostFrameOf f e s.tick) })
  else s.updRing f r (fun x => { x with posted := x.posted ++ l })

/-- RING_PI_WRITE (R350): the new entries are handed over; too many stop the ring. A PI write to ring 8 is work for XPR and
wakes it (R374). On a ring that is not enabled or is stopped only PI changes. -/
def State.piWrite (s : State) (f r pi : Nat) (entries : List RingIn) : State :=
  let old := s.getF (F.HIF_RING_PI_PI f r)
  let s := s.setF (F.HIF_RING_PI_PI f r) pi
  if s.ringOn f r then
    if s.ringLen f r < s.ringFill f r then s.ringStop f r 1
    else
      let (l, s) := s.takeEntries r old ((pi + 65536 - old) % 65536) entries
      let s := s.postEntries f r l
      if r = 8 then s.wakeDom 12 else s
  else s

/-- RING_ENABLE: EN rises where LOG2 is 4 to 12; the entries from CI to PI are handed over. -/
def State.ringEnable (s : State) (f r : Nat) (v : Word) (entries : List RingIn) : State :=
  let log2 := getBits v 4 4
  let ok := decide (4 ≤ log2) && decide (log2 ≤ 12)
  let was := s.bit (F.HIF_RING_CTRL_EN f r)
  let s := s.wr (R.HIF_RING_CTRL f r) (if ok then v &&& 0xFFFF3FF1#32 else v &&& 0xFFFF3FF0#32)
  if ok && !was then
    if r = 9 then s
    else
      let ci := s.getF (F.HIF_RING_CI_CI f r)
      if s.ringLen f r < s.ringFill f r then s.ringStop f r 1
      else
        let (l, s) := s.takeEntries r ci (s.ringFill f r) entries
        s.postEntries f r l
  else s

/-- The entries of a ring that have no write-back yet are abandoned. -/
def State.ringAbandon (s : State) (f r : Nat) : State :=
  let s := s.updRing f r (fun x => { x with posted := [], done := [] })
  if r < 4 then s.updPort r (fun x => { x with hostQ := x.hostQ.filter (fun h => h.fn != f) })
  else if r = 8 then s.dropJobs f (fun st => st == 1) else s

/-- RING_DISABLE: unfinished entries are abandoned and ERR clears as EN falls. -/
def State.ringDisable (s : State) (f r : Nat) (v : Word) : State :=
  let s := s.wr (R.HIF_RING_CTRL f r) (v &&& 0xFFFF3FF0#32)
  (s.setF (F.HIF_RING_STATUS_ERR f r) 0).ringAbandon f r

/-- A write of HIF_RING_CTRL enables or disables the ring, or changes its other fields. A LOG2 outside 4 to 12 keeps EN at
0. -/
def State.ringCtrl (s : State) (f r : Nat) (v : Word) (entries : List RingIn) : State :=
  if v.getLsbD 0 && decide (4 ≤ getBits v 4 4) && decide (getBits v 4 4 ≤ 12) then s.ringEnable f r v entries
  else s.ringDisable f r v

/-! ### Event ring (R354) -/

/-- Pops the entries of one record, and says whether it came whole. -/
def State.popRecord (s : State) (n : Nat) : Nat → List Word × Bool × State
  | 0 => ([], false, s)
  | k + 1 =>
    match s.popEq n with
    | (none, s) => ([], false, s)
    | (some e, s) =>
      if e.enda then ([e.data], true, s)
      else
        let (l, ok, s) := s.popRecord n k
        (e.data :: l, ok, s)

/-- EVENT_RING_WRITE: with MODE = 1 a waiting record of EQf goes to the event ring of function f once the ring has room. The
bytes past the record are free values. -/
def State.eventRing (s : State) (f : Nat) : State :=
  if s.bit (F.FLW_EQ_CTRL_MODE f) && s.ringOn f 9 && decide (s.ringFill f 9 < s.ringLen f 9) &&
      decide (0 < packetsOf (s.evq f).entries) then
    let (ws, whole, s) := s.popRecord f 4096
    if whole then
      let (rest, s) := s.freeBytes (128 - 4 * ws.length)
      let pi := s.getF (F.HIF_RING_PI_PI f 9)
      let s := s.obsv (.hostWrite f (s.entryAddr f 9 pi) (wordsLe ws ++ rest))
      (s.setF (F.HIF_RING_PI_PI f 9) (pi + 1)).writeWb f 9 (pi + 1)
    else s
  else s

end Sys2Proof.Machine
end

