-- ==== Sys2Proof/Machine/Mailboxes.lean ====
section
/-!
DEFINITION. Machine/Mailboxes.lean: mailbox channels, doorbells, locks, and what resets of identities do to them
(R356-R371).
-/

namespace Sys2Proof.Machine

/-- The identity with a number. -/
def identOf : Nat → Option Ident
  | 1 => some .host0 | 2 => some .host1 | 3 => some .netm | 4 => some .dbg | 5 => some .upd | 6 => some .cals
  | 7 => some .snta | 8 => some .pwrc | _ => none

/-! ### Bindings and rights (R357, R358) -/

/-- The other end. -/
def State.otherEnd (s : State) (n i : Nat) : Nat := if s.endA n = i then s.endB n else s.endA n

/-- An access to channel `n` at BAR0 offset `off` is refused (R358). -/
def State.mbxRefuse (s : State) (id : Ident) (n off : Nat) (write : Bool) : State :=
  let s := (s.bump (F.MBX_REFUSED_COUNT n)).bump F.MBX_ERR_COUNT_COUNT
  let s := s.setF (F.MBX_STATUS_ACC_ERR n) 1
  s.emit id.num 0x0301 (pw n ++ pw id.num ++ pw off ++ pb write)

/-- May the register at offset `o` of a channel's window be read? -/
def State.mbxMayRead (s : State) (id : Ident) (n o : Nat) : Bool :=
  if o = 0x4C ∨ o = 0x54 then true
  else if o = 0x44 then false
  else if o = 0x50 then s.isEnd n id.num || id == .host1 || id == .dbg
  else s.isEnd n id.num || id == .dbg

/-- May it be written? -/
def State.mbxMayWrite (s : State) (id : Ident) (n o : Nat) : Bool :=
  if o = 0x4C ∨ o = 0x54 then true
  else if o = 0x50 then s.isEnd n id.num || id == .host1 || id == .dbg
  else s.isEnd n id.num

/-- Can the identity make an access now? A hardware agent whose domain is not ON, or that is still in reset, makes none (R368, R372);
no access reaches a hub in cold reset (R440). -/
def State.canAccess (s : State) (id : Ident) : Bool :=
  !s.pwr.por &&
    (match id with
    | .upd | .snta => s.domOn 12 && !s.mbx.inReset.getD id.num false
    | .cals => s.domOn 13 && !s.mbx.inReset.getD id.num false
    | _ => true)

/-- A write of channel `n` by `id` under the rights of R358, behind the earlier writes of `id` that it waits for. -/
def State.mbxGated (s : State) (id : Ident) (n off : Nat) (v : Word) (f : State → State) : State :=
  if !s.canAccess id then s
  else if s.waits id off then s.goBehind .write id off v
  else if s.mbxMayWrite id n (off % 0x80) then (f s).bpReg id off true
  else s.mbxRefuse id n off true

/-! ### Notifications (R361-R364) -/

/-- WAKE_N follows. -/
def State.wakePin (s : State) (was : Bool) : State := if s.wakeN == was then s else s.pinOut .wakeN (!s.wakeN) s.tick 0

/-- A host end is notified: its vector; an acknowledgement that comes with the link down is held for WAKE_N. -/
def State.notifyHost (s : State) (n i : Nat) : State :=
  let vec := if s.endA n = i then s.getF (F.MBX_CH_CTRL_VEC_A n) else s.getF (F.MBX_CH_CTRL_VEC_B n)
  let s := s.signal (i - 1) vec
  if s.host.linkUp ∨ s.chSt n = 2 then s else { s with mbx := { s.mbx with wakes := (n, i) :: s.mbx.wakes } }

/-- Domain of a hardware agent; 0 for PWRC. -/
def agentDom (i : Nat) : Nat := match i with | 6 => 13 | 8 => 0 | _ => 12

/-- An agent is signalled (R361): at once, or once its domain is ON again. -/
def State.signalAgent (s : State) (n i : Nat) : State :=
  let s := s.wakeDom (agentDom i)
  if s.domOn (agentDom i) && !s.mbx.inReset.getD i false then s.obsv (.signal i n)
  else if s.mbx.sigs.contains (i, n) then s
  else { s with mbx := { s.mbx with sigs := s.mbx.sigs ++ [(i, n)] } }

/-- End `i` of channel `n` is notified (R361): identity `by_`, the message's sender or the one that acknowledged it, causes it; `snd` is
the message's sender. -/
def State.notify (s : State) (n i by_ snd : Nat) : State :=
  let ev := fun (s : State) => s.emit by_ 0x0302 (pw n ++ pw snd ++ pw (s.otherEnd n snd) ++ pw (s.getF (F.MBX_HEADER_CODE n)))
  match i with
  | 1 => s.notifyHost n 1
  | 2 => s.notifyHost n 2
  | 3 => ev (s.wakeDom 10)
  | 4 => ev s
  | _ => if 5 ≤ i ∧ i ≤ 8 then s.signalAgent n i else s

/-- The signals that waited for agent `i` are given. -/
def State.sigsGo (s : State) (i : Nat) : State :=
  let l := s.mbx.sigs.filter (fun x => x.1 == i)
  let s := { s with mbx := { s.mbx with sigs := s.mbx.sigs.filter (fun x => x.1 != i) } }
  l.foldl (fun s x => s.obsv (.signal i x.2)) s

/-! ### Channels (R359, R360) -/

/-- A write of word `w` of channel `n`: payload 0 to 15, or 16 the header, whose LEN is stored as 16 at most. -/
def State.mbxStore (s : State) (n w : Nat) (v : Word) : State :=
  if w < 16 then s.wr (R.MBX_PAYLOAD n w) v
  else (s.setF (F.MBX_HEADER_LEN n) (min 16 (getBits v 0 5))).setF (F.MBX_HEADER_CODE n) (getBits v 16 16)

/-- MBX_COMPOSE_WRITE (R360). -/
def State.mbxCompose (s : State) (id : Ident) (n w : Nat) (v : Word) : State :=
  match s.chSt n with
  | 0 => ((s.setF (F.MBX_STATUS_STATE n) 1).setF (F.MBX_STATUS_COMPOSER n) id.num).mbxStore n w v
  | 1 => if s.composer n = id.num then s.mbxStore n w v else s.setF (F.MBX_STATUS_BUSY n) 1
  | _ => s.setF (F.MBX_STATUS_BUSY n) 1

/-- BAR0 offset of word `w` of channel `n`. -/
def mbxWordOff (n w : Nat) : Nat := if w < 16 then R.MBX_PAYLOAD n w else R.MBX_HEADER n

def execMbxComposeWrite (id : Ident) (n : Fin 24) (word : Fin 17) (v : Word) (s : State) : Host.Outcome State Fault Refusal :=
  .next (s.mbxGated id n (mbxWordOff n word) v (fun s => s.mbxCompose id n word v))

/-- A doorbell action comes in the wrong state or from the wrong end. -/
def State.mbxOrder (s : State) (n : Nat) : State := s.setF (F.MBX_STATUS_ORDER_ERR n) 1

/-- RING (R361). -/
def State.mbxRing (s : State) (id : Ident) (n : Nat) : State :=
  if s.chSt n = 1 ∧ s.composer n = id.num then
    let was := s.wakeN
    let s := (s.setF (F.MBX_STATUS_STATE n) 2).setF (F.MBX_HEADER_SENDER n) id.num
    (s.notify n (s.otherEnd n id.num) id.num id.num).wakePin was
  else s.mbxOrder n

def execMbxRing (id : Ident) (n : Fin 24) (s : State) : Host.Outcome State Fault Refusal :=
  .next (s.mbxGated id n (R.MBX_DOORBELL n) 1#32 (fun s => s.mbxRing id n))

/-- ABANDON: the channel is EMPTY again, its words kept. From the composer of a message that is POSTED it comes after the commit point
(R360, R415). -/
def State.mbxAbandon (s : State) (id : Ident) (n : Nat) : State :=
  if s.composer n = id.num then
    match s.chSt n with
    | 1 => (s.setF (F.MBX_STATUS_STATE n) 0).setF (F.MBX_STATUS_COMPOSER n) 0
    | 2 => s.late (F.MBX_STATUS_ORDER_ERR n)
    | _ => s.mbxOrder n
  else s.mbxOrder n

def execMbxAbandon (id : Ident) (n : Fin 24) (s : State) : Host.Outcome State Fault Refusal :=
  .next (s.mbxGated id n (R.MBX_DOORBELL n) 2#32 (fun s => s.mbxAbandon id n))

/-- RESULT of an acknowledgement: a hardware agent knows no CODE and answers UNSUPPORTED (R359). -/
def ackResult (id : Ident) (r : Nat) : Nat := if onBus id then r % 256 else 0xFF

/-- ACK by the receiver (R364): the sender is notified, or once it has left reset (R369). -/
def State.mbxAck (s : State) (id : Ident) (n result : Nat) : State :=
  let snd := s.composer n
  if s.chSt n = 2 ∧ snd ≠ id.num then
    let was := s.wakeN
    let s := (s.setF (F.MBX_STATUS_STATE n) 0).setF (F.MBX_STATUS_COMPOSER n) 0
    let s := s.setF (F.MBX_STATUS_RESULT n) (ackResult id result)
    (if s.mbx.inReset.getD snd false then { s with mbx := { s.mbx with acks := s.mbx.acks ++ [(n, snd, id.num)] } }
     else s.notify n snd id.num snd).wakePin was
  else s.mbxOrder n

def execMbxAck (id : Ident) (n : Fin 24) (result : Word) (s : State) : Host.Outcome State Fault Refusal :=
  .next (s.mbxGated id n (R.MBX_DOORBELL n) (lo32 (4 + 256 * getBits result 0 8)) (fun s => s.mbxAck id n (getBits result 0 8)))

/-- A write of MBX_DOORBELL: its actions in bit order. -/
def State.mbxDoorbell (s : State) (id : Ident) (n : Nat) (v : Word) : State :=
  let s := if v.getLsbD 0 then s.mbxRing id n else s
  let s := if v.getLsbD 1 then s.mbxAbandon id n else s
  if v.getLsbD 2 then s.mbxAck id n (getBits v 8 8) else s

/-! ### Locks (R365-R367) -/

def State.lockOwner (s : State) (n : Nat) : Nat := s.getF (F.MBX_LOCK_PEEK_OWNER n)

/-- A read of MBX_LOCK[n]: a free lock is acquired, and RELEASED_BY_RESET returned and cleared. -/
def State.lockTake (s : State) (id : Ident) (n : Nat) : Word × State :=
  if s.lockOwner n = 0 then
    (s.rd (R.MBX_LOCK_PEEK n), (s.setF (F.MBX_LOCK_PEEK_OWNER n) id.num).setF (F.MBX_LOCK_PEEK_RELEASED_BY_RESET n) 0)
  else (lo32 (s.lockOwner n), s)

/-- The read completes with what it took. -/
def State.lockRead (s : State) (id : Ident) (n : Nat) : State :=
  let (v, s) := s.lockTake id n
  (s.obsv (.read id.num (R.MBX_LOCK n) v)).bpReg id (R.MBX_LOCK n) false

def execLockRead (id : Ident) (n : Fin 16) (s : State) : Host.Outcome State Fault Refusal :=
  .next (if s.canAccess id then s.reading id (R.MBX_LOCK n) (·.lockRead id n) else s)

/-- A write of MBX_LOCK[n]: the owner's own number releases it. -/
def State.lockWrite (s : State) (id : Ident) (n : Nat) (v : Word) : State :=
  if s.lockOwner n = id.num ∧ getBits v 0 4 = id.num then s.setF (F.MBX_LOCK_PEEK_OWNER n) 0
  else s.bump F.MBX_LOCK_ERR_COUNT

/-- A write of MBX_LOCK[n] by `id`, behind the earlier writes of `id` that it waits for. -/
def State.lockGated (s : State) (id : Ident) (n : Nat) (v : Word) : State :=
  if !s.canAccess id then s
  else if s.waits id (R.MBX_LOCK n) then s.goBehind .write id (R.MBX_LOCK n) v
  else (s.lockWrite id n v).bpReg id (R.MBX_LOCK n) true

def execLockRelease (id : Ident) (n : Fin 16) (v : Word) (s : State) : Host.Outcome State Fault Refusal :=
  .next (s.lockGated id n v)

/-! ### Resets of identities (R340, R343, R368, R369) -/

/-- Locks of the identity are released with a record each. -/
def State.locksReset (s : State) (i : Nat) : State :=
  (List.range 16).foldl (fun s n =>
    if s.lockOwner n = i then
      ((s.setF (F.MBX_LOCK_PEEK_OWNER n) 0).setF (F.MBX_LOCK_PEEK_RELEASED_BY_RESET n) 1).emit 0 0x0303 (pw n ++ pw i)
    else s) s

/-- Compositions of the identity are discarded. -/
def State.composeReset (s : State) (i : Nat) : State :=
  (List.range 24).foldl (fun s n =>
    if s.chSt n = 1 ∧ s.composer n = i then
      ((s.setF (F.MBX_STATUS_STATE n) 0).setF (F.MBX_STATUS_COMPOSER n) 0).setF (F.MBX_STATUS_DISCARDED n) 1
    else s) s

/-- The channels with a message that is POSTED to identity `i`. -/
def State.postedTo (s : State) (i : Nat) : List Nat :=
  (List.range 24).filter (fun n => s.chSt n == 2 && s.isEnd n i && s.composer n != i)

/-- An identity is reset: its locks, its compositions, its snapshot latches and an update session of its own. The messages that are
POSTED to it are noted: its signals for them are given again as it leaves reset. -/
def State.identReset (s : State) (id : Ident) : State :=
  let i := id.num
  let s := (((s.locksReset i).composeReset i).clearLatches id).updOwnerReset i
  let new := s.postedTo i
  { s with mbx := { s.mbx with
    inReset := updAt (fun _ => true) s.mbx.inReset i
    left := s.mbx.left.filter (fun x => x.1 != i) ++ new.map (fun n => (i, n))
    sigs := s.mbx.sigs.filter (fun x => !(x.1 == i && new.contains x.2)) } }

/-- An identity leaves reset: the messages that were POSTED to it as it was reset are notified again with RERING, and acknowledgements that
waited for it. -/
def State.identLeave (s : State) (id : Ident) : State :=
  let i := id.num
  let was := s.wakeN
  if s.mbx.inReset.getD i false then
    let l := s.mbx.left.filter (fun x => x.1 == i && (s.postedTo i).contains x.2)
    let due := s.mbx.acks.filter (fun x => x.2.1 == i)
    let s := { s with mbx := { s.mbx with
      inReset := updAt (fun _ => false) s.mbx.inReset i
      left := s.mbx.left.filter (fun x => x.1 != i), acks := s.mbx.acks.filter (fun x => x.2.1 != i) } }
    let s := l.foldl (fun s x => (s.notify x.2 i (s.composer x.2) (s.composer x.2)).setF (F.MBX_STATUS_RERING x.2) 1) s
    ((due.foldl (fun s x => s.notify x.1 i x.2.2 i) s).sigsGo i).wakePin was
  else s

/-- May the identity leave reset now (R368)? -/
def State.mayLeave (s : State) (id : Ident) : Bool :=
  match id with
  | .host0 | .host1 => s.host.linkUp
  | .netm => s.domOn 10
  | .upd | .snta => s.domOn 12
  | .cals => s.domOn 13
  | .dbg => !s.dbg.tlr
  | .pwrc => true

/-- IDENTITY_LEAVES_RESET. -/
def execIdentityLeavesReset (id : Ident) (s : State) : Host.Outcome State Fault Refusal :=
  .next (if s.mayLeave id then s.identLeave id else s)

/-! ### PCIE_LINK_UP (R362, R363, R368) -/

/-- Messages of unmasked vectors that waited for the link go out. -/
def State.msixFlush (s : State) (f : Nat) : State :=
  (List.range 64).foldl (fun s v =>
    if (s.vec f v).pend && !(s.vec f v).masked then (s.updVec f v (fun x => { x with pend := false })).obsv (.msix f v) else s) s

/-- The PCIe link comes up, also out of L2: HOST is ON, WAKE_N is released, host identities in reset leave it and pending messages
follow. Speed and width are as negotiated: one of five rates, x8, x4, x2 or x1 (R334). -/
def State.pcieUp (s : State) : State :=
  if s.host.linkUp || s.pwr.por then s
  else
    let was := s.wakeN
    let s := { s with host := { s.host with linkUp := true }, mbx := { s.mbx with wakes := [] } }
    let s := (s.wakePin was).setDom 11 2
    let (sp, s) := s.free
    let (w, s) := s.free
    let s := (s.setF F.HIF_LINK_SPEED (1 + sp % 5)).setF F.HIF_LINK_WIDTH (2 ^ (w % 4))
    let s := (s.msixFlush 0).msixFlush 1
    (s.identLeave .host0).identLeave .host1

def execPcieLinkUp (s : State) : Host.Outcome State Fault Refusal := .next s.pcieUp

end Sys2Proof.Machine
end

