-- ==== Sys2Proof/Machine/HostPort.lean ====
section
/-!
DEFINITION. Machine/HostPort.lean: the DMA rings, fences, MSI-X and function level resets as commands (R337, R343,
R349-R355, R362).
-/

namespace Sys2Proof.Machine

/-! ### Rings (R350, R354) -/

/-- RING_ENABLE: a write of HIF_RING_CTRL[f][r] with EN = 1. -/
def execRingEnable (id : Ident) (f : Fin 2) (r : Fin 10) (v : Word) (entries : List RingIn) (s : State) :
    Host.Outcome State Fault Refusal :=
  .next (s.gated id (R.HIF_RING_CTRL f r) (v ||| 1#32) (fun s => s.ringCtrl f r (v ||| 1#32) entries))

/-- RING_DISABLE: a write of HIF_RING_CTRL[f][r] with EN = 0. -/
def execRingDisable (id : Ident) (f : Fin 2) (r : Fin 10) (v : Word) (s : State) : Host.Outcome State Fault Refusal :=
  .next (s.gated id (R.HIF_RING_CTRL f r) (v &&& 0xFFFFFFFE#32) (fun s => s.ringDisable f r v))

/-- RING_PI_WRITE: a write of HIF_RING_PI[f][r] of a host-filled ring. -/
def execRingPiWrite (id : Ident) (f : Fin 2) (r : Fin 9) (pi : Word) (entries : List RingIn) (s : State) :
    Host.Outcome State Fault Refusal :=
  .next (s.gated id (R.HIF_RING_PI f r) pi (fun s => s.piWrite f r (getBits pi 0 16) entries))

/-- EVENT_RING_CI_WRITE: a write of HIF_RING_CI[f][9]. -/
def execEventRingCiWrite (id : Ident) (f : Fin 2) (ci : Word) (s : State) : Host.Outcome State Fault Refusal :=
  .next (s.gated id (R.HIF_RING_CI f 9) ci (fun s => s.setF (F.HIF_RING_CI_CI f 9) (getBits ci 0 16)))

/-- EVENT_RING_WRITE: a record waiting in EQf enters the event ring. -/
def execEventRingWrite (f : Fin 2) (s : State) : Host.Outcome State Fault Refusal := .next (s.eventRing f)

/-- MSIX_MODERATION_EXPIRY of ring `r` of function `f`. -/
def execMsixModerationExpiry (f : Fin 2) (r : Fin 10) (s : State) : Host.Outcome State Fault Refusal := .next (s.modExpiry f r)

/-! ### MSI-X table (R355, R362) -/

/-- Vector `v` is unmasked: its pending message goes out. -/
def State.unmask (s : State) (f v : Nat) : State :=
  let s := s.updVec f v (fun x => { x with ctrl := x.ctrl &&& 0xFFFFFFFE#32 })
  if (s.vec f v).pend && s.host.linkUp then (s.updVec f v (fun x => { x with pend := false })).obsv (.msix f v) else s

/-- Word `k` of entry `v` of the table of function `f` is written: address, data or vector control. -/
def State.msixWrite (s : State) (f v k : Nat) (w : Word) : State :=
  match k with
  | 0 => s.updVec f v (fun x => { x with addrLo := w })
  | 1 => s.updVec f v (fun x => { x with addrHi := w })
  | 2 => s.updVec f v (fun x => { x with data := w })
  | _ => if w.getLsbD 0 then s.updVec f v (fun x => { x with ctrl := w }) else (s.updVec f v (fun x => { x with ctrl := w ||| 1#32 })).unmask f v

/-- Word `k` of entry `v`. -/
def State.msixRead (s : State) (f v k : Nat) : Word :=
  let x := s.vec f v
  match k with | 0 => x.addrLo | 1 => x.addrHi | 2 => x.data | _ => x.ctrl

/-- Word `k` of the pending-bit array. -/
def State.pbaRead (s : State) (f k : Nat) : Word :=
  lo32 ((List.range 32).foldl (fun a i => a + (if (s.vec f (32 * k + i)).pend then 2 ^ i else 0)) 0)

/-- MSIX_UNMASK: function `f` clears the mask bit of its vector. A table is seen by its own function only. -/
def execMsixUnmask (id : Ident) (f : Fin 2) (vec : Fin 64) (s : State) : Host.Outcome State Fault Refusal :=
  .next (if id ≠ fnIdent f then s.deny
    else if s.pwr.por then s
    else if s.waits id (0xE8000 + 16 * vec.val + 12) then
      s.goBehind .write id (0xE8000 + 16 * vec.val + 12) ((s.vec f vec).ctrl &&& 0xFFFFFFFE#32)
    else (s.unmask f vec).bpReg id (0xE8000 + 16 * vec.val + 12) true)

/-! ### Fences (R343) -/

/-- What `id` has held counts as before its fence from here on. -/
def State.allEarly (s : State) (id : Ident) : State :=
  let f := fun (h : HeldWrite) => if h.ident = id then { h with late := false } else h
  { s with pwr := { s.pwr with held := s.pwr.held.map f, behind := s.pwr.behind.map f } }

/-- The fence of `id` that waits is over: its token is that of the newest completed one. -/
def State.fenceOver (s : State) (id : Ident) : State :=
  match s.host.fencePend.getD id.num none with
  | some t => { s with host := { s.host with
      fenceDone := updAt (fun _ => t) s.host.fenceDone id.num, fencePend := updAt (fun _ => none) s.host.fencePend id.num } }
  | none => s

/-- FENCE: a write of GLB_FENCE; it waits until FENCE_DONE. An older one whose earlier writes have all taken effect is over. -/
def State.fence (s : State) (id : Ident) (token : Nat) : State :=
  let s := (if s.early id then s else s.fenceOver id).allEarly id
  { s with host := { s.host with fencePend := updAt (fun _ => some token) s.host.fencePend id.num } }

def execFence (id : Ident) (token : BitVec 16) (s : State) : Host.Outcome State Fault Refusal :=
  .next (s.gated id R.GLB_FENCE (lo32 token.toNat) (fun s => s.fence id token.toNat))

/-! ### FUNCTION_LEVEL_RESET (R337, R340, R368) -/

/-- Ring `r` of function `f` is disabled and its indices become 0. -/
def State.ringReset (s : State) (f r : Nat) : State :=
  let s := s.ringDisable f r (s.rd (R.HIF_RING_CTRL f r))
  let s := (s.setF (F.HIF_RING_PI_PI f r) 0).setF (F.HIF_RING_CI_CI f r) 0
  s.updRing f r (fun _ => Ring.reset)

/-- FUNCTION_LEVEL_RESET of function `f`. -/
def State.flr (s : State) (f : Nat) : State :=
  let s := (List.range 10).foldl (fun s r => s.ringReset f r) s
  let s := s.updFn f (fun x => { x with msix := x.msix.map (fun v => { v with ctrl := v.ctrl ||| 1#32 }) })
  let s := s.dropJobs f (fun st => st == 1 || st == 2)
  let id := fnIdent f
  let s := { s with host := { s.host with fencePend := updAt (fun _ => none) s.host.fencePend id.num } }
  (s.allEarly id).identReset id

end Sys2Proof.Machine
end

