-- ==== Sys2Proof/Machine/NetOps.lean ====
section
/-!
DEFINITION. Machine/NetOps.lean: parsing of received and host-sent frames, time-stamps, the one-step rewrite and the path-delay
detector's exchanges (R311, R315-R323).
-/

namespace Sys2Proof.Machine

/-! ### Layers of a frame -/

/-- Offset of the EtherType, past an 802.1Q tag. -/
def etherAt (b : List Byte) : Nat := if beAt b 12 2 = 0x8100 then 16 else 12
/-- EtherType. -/
def etherType (b : List Byte) : Nat := beAt b (etherAt b) 2
/-- First byte of the network packet. -/
def netAt (b : List Byte) : Nat := etherAt b + 2

/-- IPv4 packet: version 4. -/
def isIp4 (b : List Byte) : Bool := etherType b == 0x0800 && beAt b (netAt b) 1 / 16 == 4
def isIp6 (b : List Byte) : Bool := etherType b == 0x86DD && beAt b (netAt b) 1 / 16 == 6
/-- Protocol or next header. -/
def ipProto (b : List Byte) : Nat := if isIp4 b then beAt b (netAt b + 9) 1 else if isIp6 b then beAt b (netAt b + 6) 1 else 256
/-- First byte of what the IP packet carries. -/
def l4At (b : List Byte) : Nat := netAt b + (if isIp4 b then beAt b (netAt b) 1 % 16 * 4 else 40)
def isUdp (b : List Byte) : Bool := (isIp4 b || isIp6 b) && ipProto b == 17
def udpDst (b : List Byte) : Nat := beAt b (l4At b + 2) 2
def udpSrc (b : List Byte) : Nat := beAt b (l4At b) 2
/-- Source and destination addresses. -/
def ipSrc (b : List Byte) : List Byte := if isIp4 b then sub b (netAt b + 12) 4 else sub b (netAt b + 8) 16
def ipDst (b : List Byte) : List Byte := if isIp4 b then sub b (netAt b + 16) 4 else sub b (netAt b + 24) 16
/-- UDP payload by the UDP length field. -/
def udpPayload (b : List Byte) : List Byte := sub b (l4At b + 8) (beAt b (l4At b + 4) 2 - 8)

/-- The frame is addressed to an IP address of port `p`. -/
def State.toPortIp (s : State) (p : Nat) (b : List Byte) : Bool :=
  (isIp4 b && ipDst b == beBytes 4 (s.rd (R.NET_IP4 p)).toNat) || (isIp6 b && ipDst b == s.ip6Bytes p)

/-- The frame is addressed to the MAC of port `p`, to broadcast or to multicast. -/
def State.toPortMac (s : State) (p : Nat) (b : List Byte) : Bool :=
  b.take 6 == s.macBytes (R.NET_MAC_HI p) (R.NET_MAC_LO p) || (b.getD 0 0#8).getLsbD 0

/-- ICMPv6 neighbour discovery: types 133 to 137. -/
def isNd (b : List Byte) : Bool :=
  isIp6 b && ipProto b == 58 && decide (133 ≤ beAt b (l4At b) 1) && decide (beAt b (l4At b) 1 ≤ 137)

/-- Does NET_RX_FILTER of port `p` enable the frame (R316)? -/
def State.rxEnabled (s : State) (p : Nat) (b : List Byte) : Bool :=
  (s.bit (F.NET_RX_FILTER_PTP_L2 p) && etherType b == 0x88F7) ||
  (s.bit (F.NET_RX_FILTER_PTP_UDP p) && isUdp b && (udpDst b == 319 || udpDst b == 320)) ||
  (s.bit (F.NET_RX_FILTER_ARP p) && etherType b == 0x0806) ||
  (s.bit (F.NET_RX_FILTER_ND p) && isNd b) ||
  (s.bit (F.NET_RX_FILTER_ESMC p) && etherType b == 0x8809 && beAt b (netAt b) 1 == 0x0A) ||
  (s.bit (F.NET_RX_FILTER_ICMP p) && ((isIp4 b && ipProto b == 1) || (isIp6 b && ipProto b == 58 && !isNd b)) && s.toPortIp p b)

/-! ### Time-stamps (R317, R318) -/

/-- T at `sub` / 2^16 of the current tick, plus an asymmetry in 2^-8 ns; units of 2^-56 ns, truncated to the resolution of
R34. -/
def State.stamp (s : State) (sub : Nat) (asym : Int) : Nat :=
  (((s.now + sub * s.incrNow / 2 ^ 16 : Nat) : Int) + asym * (2 ^ 48 : Nat)).toNat

/-- The write-back words of a stamp. With VALID = 0 the stamp is free. -/
def State.wbWords (s : State) (status : Nat) (stampT : Option Nat) (w4 : Word) : List Byte × State :=
  match stampT with
  | some t =>
    (wordsLe ([lo32 (status + 256 + s.epoch * 2 ^ 16), lo32 (tSec t), lo32 (tSec t / 2 ^ 32 + tFrac t * 2 ^ 16), lo32 (tNs t),
      w4, 0#32, 0#32, 0#32]), s)
  | none =>
    let (a, s) := s.free
    let (b, s) := s.free
    let (c, s) := s.free
    let (d, s) := s.free
    (wordsLe [lo32 (status + a % 2 ^ 16 * 2 ^ 16), lo32 b, lo32 c, lo32 d, w4, 0#32, 0#32, 0#32], s)

/-- A stamp in units of 2^-16 ns. -/
def stamp16 (t : Nat) : Int := (t / 2 ^ 40 : Nat)

/-! ### One-step Sync (R319) -/

/-- A nonzero UDP checksum is computed afresh. -/
def fixUdp (b : List Byte) : List Byte :=
  let l4 := l4At b
  if isUdp b && beAt b (l4 + 6) 2 != 0 then
    let z := putBytes b (l4 + 6) [0#8, 0#8]
    let udp := sub z l4 (beAt b (l4 + 4) 2)
    let c := cksum (sum16 (ipSrc b) + sum16 (ipDst b) + 17 + beAt b (l4 + 4) 2 + sum16 udp)
    putBytes b (l4 + 6) (beBytes 2 (if c = 0 then 65535 else c))
  else b

/-- originTimestamp and correctionField of the PTP header at `h` take the stamp. -/
def oneStepFrame (b : List Byte) (h t : Nat) : List Byte :=
  let b := putBytes b (h + 34) (beBytes 6 (tSec t) ++ beBytes 4 (tNs t))
  fixUdp (putBytes b (h + 8) (beBytes 8 ((beAt b (h + 8) 8 + tFrac t) % 2 ^ 64)))

/-! ### Path-delay exchanges (R322) -/

/-- Offset of a PTP message of the transport and domain that port `p` selects. -/
def State.ptpAt (s : State) (p : Nat) (b : List Byte) : Option Nat :=
  let o := match s.getF (F.NET_PTP_CTRL_TRANSPORT p) with
    | 0 => if etherType b = 0x88F7 then some (netAt b) else none
    | 1 => if isIp4 b && isUdp b && (udpDst b == 319 || udpDst b == 320) then some (l4At b + 8) else none
    | 2 => if isIp6 b && isUdp b && (udpDst b == 319 || udpDst b == 320) then some (l4At b + 8) else none
    | _ => none
  match o with
  | none => none
  | some h => if s.bit (F.NET_PTP_CTRL_EN p) && beAt b (h + 4) 1 == s.getF (F.NET_PTP_CTRL_DOMAIN p) then some h else none

def ptpType (b : List Byte) (h : Nat) : Nat := beAt b h 1 % 16
def ptpSeq (b : List Byte) (h : Nat) : Nat := beAt b (h + 30) 2
/-- correctionField, units of 2^-16 ns. -/
def ptpCorr (b : List Byte) (h : Nat) : Int := toSigned 64 (beAt b (h + 8) 8)
/-- twoStepFlag. -/
def ptpTwoStep (b : List Byte) (h : Nat) : Bool := beAt b (h + 6) 1 / 2 % 2 == 1
/-- The timestamp at offset 34, units of 2^-16 ns. -/
def ptpTime (b : List Byte) (h : Nat) : Int := ((beAt b (h + 34) 6 * 10 ^ 9 + beAt b (h + 40) 4) * 65536 : Nat)

/-- NET_PTP_ID as it stands in a message. -/
def State.ptpId (s : State) (p : Nat) : List Byte :=
  beBytes 4 (s.rd (R.NET_PTP_ID0 p)).toNat ++ beBytes 4 (s.rd (R.NET_PTP_ID1 p)).toNat ++
    beBytes 2 (s.getF (F.NET_PTP_ID2_PORTNUM p))

/-- The request of port `p` that the response at `h` answers: its sequenceId and requestingPortIdentity match. -/
def State.ptpReq (s : State) (p : Nat) (peer : Bool) (b : List Byte) (h : Nat) : Option PtpReq :=
  if sub b (h + 44) 10 == s.ptpId p then
    (s.port p).ptp.reqs.find? (fun r => r.peer == peer && r.seq == ptpSeq b h)
  else none

def State.updPtp (s : State) (p : Nat) (f : PtpState → PtpState) : State := s.updPort p (fun x => { x with ptp := f x.ptp })

/-- A measurement is complete, unless an epoch change lies between its stamps (R332). -/
def State.ptpDone (s : State) (p : Nat) (m : Int) (e1 e2 : Nat) : State :=
  s.updPtp p (fun x => { x with meas := if e1 = e2 then x.meas ++ [m] else x.meas })

/-- The exchange that request `r` started is over. -/
def State.ptpOver (s : State) (p : Nat) (r : PtpReq) : State :=
  s.updPtp p (fun x => { x with reqs := x.reqs.filter (fun y => !(y.peer == r.peer && y.seq == r.seq)) })

/-- The two-step Pdelay_Resp of the exchange of request `r` has come. -/
def State.ptpResp (s : State) (p : Nat) (r : PtpReq) (x : Int × Nat × Int × Int) : State :=
  s.updPtp p (fun y => { y with reqs := y.reqs.map (fun z => if z.peer = r.peer ∧ z.seq = r.seq then { z with resp := some x } else z) })

/-- A received PTP message with its receive stamp `t` (2^-16 ns). A Delay_Req may be answered more than once, and each answer makes a
measurement; a Pdelay exchange is over when it is complete. -/
def State.ptpRx (s : State) (p : Nat) (b : List Byte) (t : Int) : State :=
  match s.ptpAt p b with
  | none => s
  | some h =>
    let x := (s.port p).ptp
    let p2p := s.bit (F.NET_PTP_CTRL_MODE p)
    match ptpType b h with
    | 0 =>
      if ptpTwoStep b h then s.updPtp p (fun x => { x with syncSeq := some (ptpSeq b h, ptpCorr b h, s.epoch), syncT2 := t })
      else s.updPtp p (fun x => { x with t1 := some (ptpTime b h + ptpCorr b h), t2 := t, t12Epoch := s.epoch, syncSeq := none })
    | 8 =>
      match x.syncSeq with
      | some (q, c, e) =>
        if q = ptpSeq b h then
          s.updPtp p (fun x => { x with
            t1 := some (ptpTime b h + c + ptpCorr b h), t2 := x.syncT2, t12Epoch := e, syncSeq := none })
        else s
      | none => s
    | 9 =>
      match if p2p then none else s.ptpReq p false b h with
      | some r =>
        match r.t1 with
        | some t1 => s.ptpDone p (((r.t2 - t1) + (ptpTime b h - ptpCorr b h - r.t3)).tdiv 2) r.epoch12 r.epoch
        | none => s
      | none => s
    | 3 =>
      match if p2p then s.ptpReq p true b h else none with
      | some r =>
        if ptpTwoStep b h then s.ptpResp p r (t, s.epoch, ptpTime b h, ptpCorr b h)
        else (s.ptpDone p ((t - r.t3 - ptpCorr b h).tdiv 2) r.epoch s.epoch).ptpOver p r
      | none => s
    | 10 =>
      match if p2p then s.ptpReq p true b h else none with
      | some r =>
        match r.resp with
        | some (t4, e, t2, corr) =>
          (s.ptpDone p (((t4 - r.t3) - (ptpTime b h - t2) - corr - ptpCorr b h).tdiv 2) r.epoch e).ptpOver p r
        | none => s
      | none => s
    | _ => s

/-- A host-sent PTP message with its transmit stamp: a Delay_Req or Pdelay_Req starts an exchange. -/
def State.ptpTx (s : State) (p : Nat) (b : List Byte) (t : Int) : State :=
  match s.ptpAt p b with
  | none => s
  | some h =>
    let p2p := s.bit (F.NET_PTP_CTRL_MODE p)
    if ptpType b h = (if p2p then 2 else 1) then
      s.updPtp p (fun x => { x with
        reqs := ⟨p2p, ptpSeq b h, t, s.epoch, x.t1, x.t2, x.t12Epoch, none⟩ ::
          x.reqs.filter (fun r => !(r.peer == p2p && r.seq == ptpSeq b h)) })
    else s

/-! ### What follows settings that come into use together (R323, R363, R381, R419, R446) -/

/-- An INTERVAL_MIN that differs from that of `was` begins a new save interval (DESIGN CHOICE, assumption log 88). -/
def State.saveRestart (s was : State) : State :=
  if s.getF F.PWR_SAVE_CTRL_INTERVAL_MIN = was.getF F.PWR_SAVE_CTRL_INTERVAL_MIN then s
  else { s with pwr := { s.pwr with saveFrom := s.tick } }

/-- The settings in use have come from flash, the retention copy or an image, where they were as in `was`: the pins go with them, a port
whose detector they enable starts it afresh, and a new save interval begins. -/
def State.settingsIn (s was : State) : State :=
  let s := (s.pinsMove was fnPins).clkMove was
  let s := (List.range 4).foldl (fun s p =>
    if !was.bit (F.NET_PTP_CTRL_EN p) && s.bit (F.NET_PTP_CTRL_EN p) then s.updPtp p (fun _ => PtpState.reset) else s) s
  s.saveRestart was

end Sys2Proof.Machine
end

