-- ==== Sys2Proof/Machine/Calibration.lean ====
section
/-!
DEFINITION. Machine/Calibration.lean: foreground calibration, the calibration save, and the sweeps of background calibration
(R104-R126), with the resumption of paused activities (R412).
-/

namespace Sys2Proof.Machine

/-! ### CALRUN (R104-R108) -/

/-- CALRUN is accepted in IDLE with BUSY = 0 and the PLL locked. -/
def State.calrun (s : State) : State :=
  if s.runSt = 0 ∧ !s.bit F.CAL_STATUS_BUSY ∧ s.bit F.AFE_PLL_STATUS_LOCKED then
    (({ s with cal := { s.cal with fg := 1 } }).setF F.CAL_STATUS_BUSY 1).submit actFgcal 0 0
  else s.setF F.CAL_STATUS_CALRUN_REFUSED 1

def execCalrun (id : Ident) (s : State) : Host.Outcome State Fault Refusal :=
  .next (s.gated id R.CAL_CTRL 1#32 State.calrun)

/-- CALRUN_COMMIT: the joint factor write of a CALRUN that runs. `outcomes` lists 1 pass, 2 transient, 3 lasting for test t of
converter k at index 5 k + t; a missing entry is a pass. -/
def State.calrunCommit (s : State) (outcomes : List Nat) : State :=
  if s.cal.fg = 1 ∧ s.runs actFgcal 0 then s.calCommit outcomes else s

def execCalrunCommit (outcomes : List Nat) (s : State) : Host.Outcome State Fault Refusal := .next (s.calrunCommit outcomes)

/-- CAL_DONE: BUSY clears, the record is written and FGCAL ends. -/
def State.calDone (s : State) : State :=
  if s.cal.fg = 2 ∨ s.cal.fg = 3 then
    let s := (s.setF F.CAL_STATUS_BUSY 0).emit 0 0x0801 s.cal.done
    ({ s with cal := { s.cal with fg := 0, done := [] } }).endAct actFgcal 0
  else s

def execCalDone (s : State) : Host.Outcome State Fault Refusal := .next s.calDone

/-- CAL_ABORT: before the commit point it ends CALRUN, after it it is late. -/
def State.calAbort (s : State) : State :=
  if s.cal.fg = 1 then
    let s := (s.setF F.CAL_STATUS_ABORTED 1).withdraw actFgcal 0
    { s with cal := { s.cal with fg := 3, done := pw 1 ++ pw 0 ++ pw 0 ++ pw 0 ++ pw 0 ++ pw 0 } }
  else if s.cal.fg = 2 then s.late F.CAL_STATUS_ABORT_LATE
  else s

def execCalAbort (id : Ident) (s : State) : Host.Outcome State Fault Refusal :=
  .next (s.gated id R.CAL_CTRL 2#32 State.calAbort)

/-! ### CALSAVE (R114) -/

def State.calsaveSubmit (s : State) : State := s.submit actCalsave 0 0

def execCalsaveSubmit (id : Ident) (s : State) : Host.Outcome State Fault Refusal :=
  .next (s.gated id R.CAL_CTRL 4#32 State.calsaveSubmit)

/-- CALSAVE_COMMIT: the write ends after `failures` failed attempts. -/
def State.calsaveCommit (s : State) (failures : Nat) : State :=
  if s.runs actCalsave 0 then (s.calSaveEnd failures).endAct actCalsave 0 else s

def execCalsaveCommit (failures : Nat) (s : State) : Host.Outcome State Fault Refusal := .next (s.calsaveCommit failures)

/-! ### Sweeps (R117-R122) -/

/-- Does group `g` run background calibration (R117)? -/
def State.bgOn (s : State) (g : Nat) : Bool :=
  s.bit F.CAL_BG_CTRL_EN && (s.getF F.CAL_BG_CTRL_GROUPS).testBit g && s.quadOn (g / 4) &&
    !s.bit (F.CAL_GROUP_STATE_ADOPTED g) && !s.bit (F.CAL_GROUP_STATE_SPARE_FAULT g)

/-- Group `g` enters a phase of `len` S-cycles. -/
def State.bgPhase (s : State) (g ph len : Nat) : State :=
  (s.setF (F.CAL_GROUP_STATE_PHASE g) ph).updGrp g (fun x => { x with
    from0 := s.run.scyc, len := len, second := false, first := 0, pausing := false, gliding := none })

/-- The phase of group `g` has run its length. -/
def State.bgOver (s : State) (g ph : Nat) : Bool :=
  s.getF (F.CAL_GROUP_STATE_PHASE g) == ph && s.runs actBgcal g && decide ((s.grp g).from0 + (s.grp g).len ≤ s.run.scyc)

/-- The channel cycle of position `pos` begins with SHADOW, as one BGCAL activity. -/
def State.bgCycle (s : State) (g pos : Nat) : State :=
  ((s.setF (F.CAL_GROUP_STATE_POS g) pos).bgPhase g 1 262144).submit actBgcal g 0

/-- The cycle of group `g` is over: the next channel, then the spare, then the next sweep. The calibration of the spare at the end of a
sweep is a BGCAL activity of its own, as a channel's cycle is (DESIGN CHOICE, assumption log 89: R117 and R408 name channel cycles). -/
def State.bgNext (s : State) (g : Nat) : State :=
  let s := s.endAct actBgcal g
  let pos := s.getF (F.CAL_GROUP_STATE_POS g)
  if !s.bgOn g then (s.bgPhase g (if s.getF (F.CAL_GROUP_STATE_PHASE g) = 6 then 6 else 0) 0)
  else if pos < 15 then s.bgCycle g (pos + 1)
  else (s.bgPhase g 5 s.calLen).submit actBgcal g 0

/-- SWEEP_START: the interval of group `g` expires; a sweep that still runs makes its successor late. A domain CAL below ON wakes first
(R374). -/
def State.sweepStart (s : State) (g : Nat) : State :=
  if s.bgOn g && decide ((s.grp g).sweepAt ≤ s.tick) && !s.domOn 13 then s.wakeDom 13
  else if s.bgOn g && decide ((s.grp g).sweepAt ≤ s.tick) then
    let ms := s.getF F.CAL_BG_INTERVAL_INTERVAL_MS
    if s.getF (F.CAL_GROUP_STATE_PHASE g) = 0 then
      (s.updGrp g (fun x => { x with sweepAt := s.tick + 500000 * ms })).bgCycle g 0
    else if ms = 0 then s
    else s.setF (F.CAL_GROUP_STATE_OVERRUN g) 1
  else s

def execSweepStart (g : Fin 16) (s : State) : Host.Outcome State Fault Refusal := .next (s.sweepStart g)

/-- The phase of group `g` is repeated once (R122). -/
def State.bgRepeat (s : State) (g first : Nat) : State :=
  s.updGrp g (fun x => { x with from0 := s.run.scyc, second := true, first := first })

/-- The spare of group `g` fails for good: it has a lasting fault, and the group stops. -/
def State.bgSpareFails (s : State) (g : Nat) : State :=
  (((s.calOutcome (256 + g) true).spareFault g 1).setF (F.CAL_RESULT_LASTING (256 + g)) 1).showCal.endAct actBgcal g

/-- The SN of a handover or handback, in the group's register and in the record (R119). -/
def State.bgSwitch (s : State) (g typ : Nat) : State :=
  let n := s.snOr1 s.firstSn
  (s.wr64 (R.CAL_GROUP_SN_LO g) (R.CAL_GROUP_SN_HI g) n).emit 0 typ (psn n)

/-- CAL_HANDOVER: the end of SHADOW; `ok`: its matching check passed. -/
def State.handover (s : State) (g : Nat) (ok : Bool) : State :=
  let x := s.grp g
  if s.bgOver g 1 then
    if !ok then (if x.second then s.bgSpareFails g else s.bgRepeat g 0)
    else if s.run.scyc < x.notB4 then s
    else
      let s := if x.second then s.calOutcome (256 + g) false else s
      let s := (s.learnMatch g).serve g (s.getF (F.CAL_GROUP_STATE_POS g))
      (s.bgSwitch g 0x0804).bgPhase g 2 s.calLen
  else s

def execCalHandover (g : Fin 16) (ok : Bool) (s : State) : Host.Outcome State Fault Refusal := .next (s.handover g ok)

/-- Result code of test `t` after both attempts (R106): bits of the tests that failed first and last. -/
def testCode (first last t : Nat) : Nat := if first.testBit t then (if last.testBit t then 3 else 2) else 1

/-- The tests of converter `c` in CALIBRATE are recorded, and each transient and lasting outcome is counted (R106). -/
def State.bgTests (s : State) (c first last : Nat) : State :=
  (List.range 3).foldl (fun s t =>
    let o := testCode first last t
    let s := s.setF ⟨R.CAL_RESULT c, 2 * t, 2⟩ o
    if o = 1 then s else s.calOutcome c (o == 3)) s

/-- Is the cycle of group `g` paused? -/
def State.bgPaused (s : State) (g : Nat) : Bool := s.mnt.running.any (fun y => y.a == actBgcal && y.unit == g && y.paused)

/-- CALIBRATE of group `g` commits: results, new factors, and the channel's return: at once where a pause was asked for (R125). -/
def State.bgCommit (s : State) (g first : Nat) : State :=
  let pos := s.getF (F.CAL_GROUP_STATE_POS g)
  let c := 16 * g + pos
  let s := s.bgTests c first 0
  let s := ((s.setF (F.CAL_RESULT_LASTING c) 0).setF (F.CAL_RESULT_DEGRADED c) 0).learn c 2
  let s := s.showCal
  if (s.grp g).pausing && !s.bgPaused g then (s.unserve g pos).bgNext g
  else if (s.grp g).pausing then
    ((s.unserve g pos).setF (F.CAL_GROUP_STATE_PHASE g) 7).updGrp g (fun x => { x with pausing := false, same := false, second := false })
  else s.bgPhase g 3 262144

/-- CALIBRATE of group `g` has failed twice: the spare adopts the channel. Where no one test failed in both attempts, the phase itself is
the lasting outcome (R122). -/
def State.bgAdopt (s : State) (g first last : Nat) : State :=
  let pos := s.getF (F.CAL_GROUP_STATE_POS g)
  let c := 16 * g + pos
  let s := (s.bgTests c first last).setF (F.CAL_RESULT_LASTING c) 1
  let s := if first &&& last = 0 then s.calOutcome c true else s
  let s := (s.adopt g pos).updGrp g (fun x => { x with second := false, pausing := false })
  (s.endAct actBgcal g).showCal

/-- CALIBRATE_END: the last S-cycle of CALIBRATE, with the outcome of its tests. -/
def State.calibrateEnd (s : State) (g : Nat) (o w t : Bool) : State :=
  let x := s.grp g
  let bad := b2n (!o) + 2 * b2n (!w) + 4 * b2n (!t)
  if s.bgOver g 2 then
    if bad = 0 then s.bgCommit g (if x.second then x.first else 0)
    else if x.second then s.bgAdopt g x.first bad
    else s.bgRepeat g bad
  else s

def execCalibrateEnd (g : Fin 16) (offsetOk gainOk stageOk : Bool) (s : State) : Host.Outcome State Fault Refusal :=
  .next (s.calibrateEnd g offsetOk gainOk stageOk)

/-- CAL_HANDBACK: the end of RETURN; the corrections that match the converter to the spare are free values. -/
def State.handback (s : State) (g : Nat) : State :=
  if s.bgOver g 3 && decide ((s.grp g).notB4 ≤ s.run.scyc) then
    let pos := s.getF (F.CAL_GROUP_STATE_POS g)
    let (a, s) := s.freeCorr
    let (b, s) := s.freeCorr
    let s := ((s.unserve g pos).bgSwitch g 0x0805).bgPhase g 4 (2 ^ s.getF F.CAL_BG_CTRL_GLIDE)
    s.updGrp g (fun x => { x with ret := (a, b), gliding := some pos })
  else s

def execCalHandback (g : Fin 16) (s : State) : Host.Outcome State Fault Refusal := .next (s.handback g)

/-- GLIDE_END: the new factors apply alone. -/
def State.glideEnd (s : State) (g : Nat) : State :=
  if s.bgOver g 4 then (s.updGrp g (fun x => { x with gliding := none })).bgNext g else s

def execGlideEnd (g : Fin 16) (s : State) : Host.Outcome State Fault Refusal := .next (s.glideEnd g)

/-- SPARE_CALIBRATION_END: the end of a sweep. The spare's test codes in CAL_RESULT[256+g] (OFFSET, GAIN, STAGE) keep their values:
R122 does not list its tests (DESIGN CHOICE, assumption log 89). -/
def State.spareCalEnd (s : State) (g : Nat) (ok : Bool) : State :=
  let x := s.grp g
  if s.bgOver g 5 then
    if ok then
      let s := if x.second then s.calOutcome (256 + g) false else s
      let s := ((s.learn (256 + g) 2).showCal).bump (F.CAL_GROUP_SWEEPS_SWEEPS g)
      (s.bgPhase g 0 0).endAct actBgcal g
    else if x.second then s.bgSpareFails g
    else s.bgRepeat g 0
  else s

def execSpareCalibrationEnd (g : Fin 16) (ok : Bool) (s : State) : Host.Outcome State Fault Refusal :=
  .next (s.spareCalEnd g ok)

/-! ### ACTIVITY_RESUME (R125, R412) -/

/-- Background calibration of group `g` resumes; a CALIBRATE or spare calibration that the pause found still completes as R125 says. -/
def State.bgResume (s : State) (g : Nat) : State :=
  let s := s.setPaused actBgcal g false
  let ph := s.getF (F.CAL_GROUP_STATE_PHASE g)
  if ph = 7 then
    (if (s.grp g).same then s.bgPhase g 1 262144 else s.bgNext g)
  else if ph = 2 ∨ ph = 5 then s
  else s.endAct actBgcal g

/-- ACTIVITY_RESUME: every paused activity whose pausing activity has ended goes on. -/
def State.activityResume (s : State) : State :=
  let s := (List.range 16).foldl (fun s g =>
    if s.bgPaused g && !s.pauser actBgcal && s.quadOn (g / 4) then
      s.bgResume g
    else s) s
  if s.mnt.running.any (fun y => y.a == actScrub && y.paused) && !s.pauser actScrub then
    (s.setPaused actScrub 0 false).setF F.MEM_SCRUB_STATUS_PAUSED 0
  else s

def execActivityResume (s : State) : Host.Outcome State Fault Refusal := .next s.activityResume

/-! ### ACTIVITY_ADMIT (R410) -/

def execActivityAdmit (s : State) : Host.Outcome State Fault Refusal := .next s.activityAdmit

end Sys2Proof.Machine
end

