-- ==== Sys2Proof/Machine/Run.lean ====
section
/-!
DEFINITION. Machine/Run.lean: the run state machine: arming, start and stop events, the sampling edge of SN 0, S_stop, and
SYNC_IN (R89-R101).
-/

namespace Sys2Proof.Machine

/-! ### Entering DELAY (R20, R89, R91, R92) -/

/-- The smallest delay that puts g(0) at or after the start lead, at least `d`. -/
def State.delayFor (s : State) (ts : Int) (d : Nat) : Nat :=
  if (s.lead : Int) ≤ ts + (d * s.ts : Nat) then d else (ceilDivI ((s.lead : Int) - ts) s.ts).toNat

/-- Label spans of the spares as a new run starts: only those that still hold go on, from label 0. -/
def State.relabelSpares (s : State) : State :=
  { s with cal := { s.cal with groups := s.cal.groups.map (fun x => { x with
      log := (x.log.filter (fun e => e.2.2.isNone)).map (fun e => (e.1, 0, none)) }) } }

/-- The run enters DELAY from the start instant `ts`; `late`: the timer start fired LATE. AFE_RUN_CFG and AFE_RUN_DELAY are read
now (R94), and AFE_STOP_AT reads all ones until a stop is fixed (DESIGN CHOICE, assumption log 67). -/
def State.enterDelay (s : State) (ts : Nat) (late : Bool) : State :=
  let d := s.getF F.AFE_RUN_DELAY_DELAY
  let d' := s.delayFor ts d
  let s := s.streamsEnterDelay.trigEnterDelay.relabelSpares
  let s := { s with
    time := { s.time with anchors := [] }
    dbg := { s.dbg with spans := [], inRun := false }
    setLog := []
    path := { s.path with phases := [], align := [] }
    run := { s.run with
      next := 0, tStart := (ts : Int) - s.stepShift, kd := s.tick, stopAt := none, endSn := none, edgeSn := 0, edgeT := 0
      running := false, shared := (!late && d' == d), cfg := s.rd R.AFE_RUN_CFG } }
  let s := s.setF F.AFE_DELAY_USED_D_USED d'
  let s := if d' = d then s else s.setF F.AFE_RUN_STATUS_DELAY_SUBST 1
  let s := if late then s.setF F.AFE_RUN_STATUS_START_LATE 1 else s
  let s := ((s.setF F.AFE_START_SEC_LO_SEC_LO (tSec ts)).setF F.AFE_START_SEC_HI_SEC_HI (tSec ts / 2 ^ 32)).setF
    F.AFE_START_SEC_HI_EPOCH s.epoch
  let s := (s.setF F.AFE_START_NS_NS (tNs ts)).setF F.AFE_START_FRAC_FRAC (tFrac ts)
  let s := s.wr64 R.AFE_STOP_AT_LO R.AFE_STOP_AT_HI allOnes64
  s.setF F.AFE_RUN_STATUS_STATE 2

/-! ### Start events (R89, R91) -/

def srcTimer : Nat := 0
def srcSync : Nat := 1
def srcHost : Nat := 2

/-- A start event of source `src` with start instant `ts`. -/
def State.startEvent (s : State) (src ts : Nat) (late : Bool) : State :=
  match s.runSt with
  | 0 => if src = srcHost then s.setF F.AFE_RUN_STATUS_CMD_ERR 1 else s
  | 1 =>
    if s.getF F.AFE_RUN_CFG_SRC = src then s.enterDelay ts late
    else if src = srcHost then s.setF F.AFE_RUN_STATUS_CMD_ERR 1 else s
  | _ => (s.bump F.AFE_START_COLLISION_COUNT).emit 0 0x0903 []

/-! ### Stop events (R89, R96-R98) -/

/-- A stop in DELAY: the run returns to IDLE, and END packets with REASON 2 are due. -/
def State.stopInDelay (s : State) : State :=
  let s := ((s.setF F.AFE_RUN_STATUS_STATE 0).worked 10).endStreams 2
  (s.wr64 R.AFE_STOP_AT_LO R.AFE_STOP_AT_HI allOnes64).applyRunEnds allOnes64

/-- S_stop of a run in RUN is fixed. -/
def State.fixStop (s : State) (n : Nat) : State :=
  let s := { s with run := { s.run with stopAt := some n } }
  (s.setF F.AFE_RUN_STATUS_STOP_PENDING 1).wr64 R.AFE_STOP_AT_LO R.AFE_STOP_AT_HI n

/-- A stop event that, in RUN, asks for S_stop = `n` with the late flag `late`. -/
def State.stopWith (s : State) (host : Bool) (n : Nat) (late : Bool) : State :=
  match s.runSt with
  | 0 => if host then s.setF F.AFE_RUN_STATUS_CMD_ERR 1 else s
  | 1 => (s.bump F.AFE_STOP_COLLISION_COUNT).emit 0 0x0904 []
  | 2 => s.stopInDelay
  | _ =>
    if s.run.stopAt.isSome then (s.bump F.AFE_STOP_COLLISION_COUNT).emit 0 0x0904 []
    else
      let s := if late then s.setF F.AFE_RUN_STATUS_STOP_LATE 1 else s
      s.fixStop n

/-- The SN of the last sampling edge before the later of `t` and the start lead (R96). -/
def State.stopSn (s : State) (t : Int) : Nat := (s.snFrom (max t s.lead) - 1).toNat

/-- A stop event with event time `t`. -/
def State.stopEvent (s : State) (host : Bool) (t : Int) : State := s.stopWith host (s.stopSn t) false

/-! ### Commands (R90, R91, R94, R96, R97) -/

/-- The first refusal condition of ARM that holds (R90). -/
def State.armErr (s : State) : Nat :=
  if s.runSt ≠ 0 then 1
  else if s.image.isNone then 2
  else if s.bit F.IMG_REFORM_STATUS_PENDING then 3
  else if s.bit F.AFE_RUN_STATUS_DRAINING then 4
  else if !s.bit F.AFE_PLL_STATUS_LOCKED then 5
  else if (List.range 4).any (fun q => s.quadsUsed.testBit q && !s.quadOn q) then 6
  else if s.bit F.CAL_STATUS_BUSY then 7
  else if s.getF F.CAL_STATUS_NOCAL_COUNT ≠ 0 then 8
  else if s.getF F.AFE_RUN_CFG_SRC = 3 then 9
  else 0

/-- RUN_ARM. -/
def State.runArm (s : State) : State :=
  let e := s.armErr
  if e = 0 then s.setF F.AFE_RUN_STATUS_STATE 1
  else (s.setF F.AFE_RUN_STATUS_ARM_ERR e).setF F.AFE_RUN_STATUS_ARM_REFUSED 1

def execRunArm (id : Ident) (s : State) : Host.Outcome State Fault Refusal :=
  .next (s.gated id R.AFE_RUN_CMD 1#32 State.runArm)

/-- RUN_DISARM: late at or after the decision tick (R94). -/
def State.runDisarm (s : State) : State :=
  match s.runSt with
  | 0 => s
  | 1 => (s.setF F.AFE_RUN_STATUS_STATE 0).worked 10
  | _ => s.late F.AFE_RUN_STATUS_DISARM_LATE

def execRunDisarm (id : Ident) (s : State) : Host.Outcome State Fault Refusal :=
  .next (s.gated id R.AFE_RUN_CMD 2#32 State.runDisarm)

/-- HOST_START: the start instant is the start lead at the row's own tick, which stands for k_d (assumption log 81). -/
def State.hostStart (s : State) : State := s.startEvent srcHost s.lead false

def execHostStart (id : Ident) (s : State) : Host.Outcome State Fault Refusal :=
  .next (s.gated id R.AFE_RUN_CMD 4#32 State.hostStart)

/-- HOST_STOP. -/
def State.hostStop (s : State) : State := s.stopEvent true s.lead

def execHostStop (id : Ident) (s : State) : Host.Outcome State Fault Refusal :=
  .next (s.gated id R.AFE_RUN_CMD 8#32 State.hostStop)

/-- STOP with STOP_AT_SN: AFE_STOP_SN, or the first SN after the command arrives where that SN has been reached. -/
def State.stopAtSnCmd (s : State) : State :=
  let n := s.rd64 R.AFE_STOP_SN_LO R.AFE_STOP_SN_HI
  if s.notReached n then s.stopWith true n false else s.stopWith true s.firstSn true

def execStopAtSn (id : Ident) (s : State) : Host.Outcome State Fault Refusal :=
  .next (s.gated id R.AFE_RUN_CMD 24#32 State.stopAtSnCmd)

/-! ### SN_ZERO and S_STOP_REACHED (R92, R98) -/

/-- The time of an edge that the converter measures `tdc` / `tickTdc` into the current tick (R50). -/
def State.edgeTime (s : State) (tdc tickTdc : Nat) : Nat := s.now + tdc * s.incrNow / max 1 tickTdc

/-- The time marks placed in DELAY take their SN as the edge of SN 0 passes at `t` (R100). -/
def State.marksAt (s : State) (t : Int) : State :=
  let place := fun (m : Mark) => match m.rel with
    | some r => { m with sn := (ceilDivI (s.run.tStart + s.stepShift + r - t) s.ts).toNat, rel := none }
    | none => m
  { s with strs := s.strs.map (fun x => { x with marks := x.marks.map place }) }

/-- SN_ZERO: the first sampling edge at or after g(0); the run enters RUN, and the next sampling edge is labelled 0. -/
def State.snZero (s : State) (tdc tickTdc : Nat) : State :=
  let t := s.edgeTime tdc tickTdc
  if s.runSt = 2 ∧ s.gAt 0 ≤ (t : Int) ∧ s.bit F.AFE_PLL_STATUS_LOCKED then
    let s := s.marksAt t
    ({ s with run := { s.run with next := 0, cyc0 := s.run.scyc, edgeSn := 0, edgeT := t - s.stepShift, running := true, since := s.tick } }).setF F.AFE_RUN_STATUS_STATE 3
  else s

def execSnZero (tdc tickTdc : Nat) (s : State) : Host.Outcome State Fault Refusal := .next (s.snZero tdc tickTdc)

/-- Streams whose production ends with the run itself: GEYSER and FUMAROLE. The continuous ones end once their last instant
has left its stage. -/
def State.endOther (s : State) (reason : Nat) : State :=
  (List.range 64).foldl (fun s i =>
    let st := s.str i
    if st.active then
      s.updStr i (fun x => { x with
        ending := if s.strCont i && s.run.running && x.ending.isNone && reason == 0 then x.ending else some reason
        drainFrom := some s.tick })
    else s) s

/-- S_STOP_REACHED: sample S_stop has been taken. Where SN_r comes first the re-form governs (R77). -/
def State.sStopReached (s : State) : State :=
  match s.run.stopAt with
  | none => s
  | some z =>
    if s.runSt = 3 ∧ z < s.run.next ∧ s.beforeReform z = true then
      let s := { s with run := { s.run with stopAt := none, endSn := some z } }
      let s := ((s.setF F.AFE_RUN_STATUS_STATE 0).setF F.AFE_RUN_STATUS_STOP_PENDING 0).setF F.AFE_RUN_STATUS_DRAINING 1
      (s.endOther 0).drainCheck.applyRunEnds z
    else s

def execSStopReached (s : State) : Host.Outcome State Fault Refusal := .next s.sStopReached

/-! ### SYNC_IN (R99, R100) -/

/-- SYNC_IN_LEADING_EDGE at `f` / 128 of the tick. -/
def State.syncLead (s : State) (f : Nat) : State :=
  let near := match s.run.syncRef with | some k => decide (s.tick < k + 8) | none => false
  if !s.bit F.AFE_SYNC_CTRL_EN then s
  else if near then s.bump F.AFE_SYNC_MISSED_COUNT
  else
    let p : SyncPulse :=
      { kl := s.tick, tl := s.now + f * s.incrNow / 128, epoch := s.epoch
        moved := -s.stepShift, measured := true, tooLong := false, kt := none }
    { s with run := { s.run with sync := some p } }

def execSyncInLeadingEdge (f : Fin 128) (s : State) : Host.Outcome State Fault Refusal := .next (s.syncLead f)

/-- SYNC_IN_TRAILING_EDGE: the width is fixed, and the edge is the new reference. -/
def State.syncTrail (s : State) : State :=
  match s.run.sync with
  | none => s
  | some p =>
    if p.kt.isSome then s
    else { s with run := { s.run with
      syncRef := some s.tick, sync := if p.tooLong then none else some { p with kt := some s.tick } } }

def execSyncInTrailingEdge (s : State) : Host.Outcome State Fault Refusal := .next s.syncTrail

/-- SYNC_MALFORMED: a pulse is still active 16,777,215 ticks after its leading edge. -/
def State.syncLong (s : State) : State :=
  match s.run.sync with
  | none => s
  | some p =>
    if p.kt.isNone && !p.tooLong && decide (p.kl + 16777215 ≤ s.tick) then
      ({ s with run := { s.run with sync := some { p with tooLong := true } } }).bump F.AFE_SYNC_MALFORMED_COUNT
    else s

def execSyncMalformed (s : State) : Host.Outcome State Fault Refusal := .next s.syncLong

/-- The lowest enabled class that a width belongs to. -/
def State.syncClass (s : State) (w : Nat) : Option Nat :=
  (List.range 4).find? (fun n => s.bit (F.AFE_SYNC_CLS_CTRL_EN n) && decide (s.getF (F.AFE_SYNC_CLS_MIN_MIN n) ≤ w) &&
    decide (w ≤ s.getF (F.AFE_SYNC_CLS_MAX_MAX n)))

/-- A time mark in every stream of the run (R291): at the first SN whose sampling edge lies at or after instant `t`; it carries
the leading-edge time `tl`. In
DELAY that SN is known once SN 0 is taken. -/
def State.placeMark (s : State) (t tl epoch cls : Nat) : State :=
  if s.inRun then
    let m : Mark := if s.runSt = 3 then ⟨(s.snFrom t).toNat, tl, epoch, cls, none⟩
      else ⟨0, tl, epoch, cls, some ((t : Int) - (s.run.tStart + s.stepShift))⟩
    { s with strs := s.strs.map (fun x => if x.active then { x with marks := x.marks ++ [m] } else x) }
  else s

/-- The instant of the leading edge of pulse `p` in corrected time as it is now: a step since then moves it as it moves g(n) (R51,
R192; for starts and stops assumption log 81). -/
def State.syncInstant (s : State) (p : SyncPulse) : Nat := ((p.tl : Int) + p.moved + s.stepShift).toNat

/-- The action of class `n` is taken for pulse `p`. -/
def State.syncAct (s : State) (n : Nat) (p : SyncPulse) : State :=
  let s := s.bump (F.AFE_SYNC_CLS_COUNT_COUNT n)
  let t := s.syncInstant p
  match s.getF (F.AFE_SYNC_CLS_CTRL_ACTION n) with
  | 0 => s.startEvent srcSync t false
  | 1 => s.stopEvent false t
  | 2 => (s.placeMark t p.tl p.epoch n).emit 0 0x0906 []
  | _ => s.eventTrigger 2 n t

/-- SYNC_IN_QUALIFY: four ticks after its trailing edge the pulse is classed. -/
def State.syncQualify (s : State) : State :=
  match s.run.sync with
  | none => s
  | some p =>
    match p.kt with
    | none => s
    | some k =>
      if k + 4 ≤ s.tick then
        let s := { s with run := { s.run with sync := none } }
        match s.syncClass (k - p.kl) with
        | none => (s.bump F.AFE_SYNC_MALFORMED_COUNT).emit 0 0x0905 (ptime p.tl ++ pw (k - p.kl))
        | some n => s.syncAct n p
      else s

def execSyncInQualify (s : State) : Host.Outcome State Fault Refusal := .next s.syncQualify

end Sys2Proof.Machine
end

