-- ==== Sys2Proof/Machine/Converters.lean ====
section
/-!
DEFINITION. Machine/Converters.lean: the SCLK PLL and the power of the quadrants (R83-R88, R116, R463).
-/

namespace Sys2Proof.Machine

/-! ### The PLL (R83, R84, R463) -/

/-- IMG_FMAX in kHz; no bound in the bare state. -/
def State.fmaxKhz (s : State) : Option Nat := if s.image.isNone then none else some (s.getF F.IMG_FMAX_FMAX_KHZ)

/-- The lowest refusal code of a setting (R84); 0 where it is accepted. `idle`: the run state allows a commit. Code 6, the mode the
image does not allow, is LOWPWR 0 on an image with IMG_FMAX.LOWPWR 1; LOWPWR 1 is allowed on every image: R87 names no other mode
(DESIGN CHOICE, assumption log 89). -/
def State.pllErr (s : State) (idle : Bool) (cfg fb fbint : Word) : Nat :=
  let src := getBits cfg 0 2
  let freq := getBits cfg 4 2
  let div := getBits cfg 8 4
  let out := getBits cfg 16 8
  let int_ := getBits fbint 0 10
  let fref := pllRef cfg
  let low := cfg.getLsbD 24
  let (num, den) := pllFreq cfg fb fbint
  let vco := fref * (int_ * 2 ^ 24 + getBits fb 0 24)
  let vden := div * 2 ^ 24
  if !idle then 1
  else if 2 ≤ src ∨ freq = 3 ∨ div = 0 ∨ fref < 10000000 * div ∨ 160000000 * div < fref then 2
  else if int_ < 40 ∨ 880 < int_ ∨ vco < 6400000000 * vden ∨ 8800000000 * vden < vco then 3
  else if out % 2 = 1 ∨ out < 16 ∨ 220 < out then 4
  else if num < (if low then 40000000 else 160000000) * den ∨ (if low then 125000000 else 420000000) * den < num then 4
  else if (match s.fmaxKhz with | none => false | some f => decide (1000 * f * den < num)) then 5
  else if !low && s.bit F.IMG_FMAX_LOWPWR then 6
  else if src = 1 && !s.linkUp (getBits cfg 2 2) then 7
  else 0

/-- A commit of the setting in the registers (R84); the PLL relocks. HOLDOVER is cleared by every accepted commit, also by one that
leaves SyncE: R86 clears it when the recovered clock returns and is silent on a commit (DESIGN CHOICE, assumption log 89). -/
def State.pllTake (s : State) : State :=
  let s := { s with conv := { s.conv with
    cfg := s.rd R.AFE_PLL_CFG, fb := s.rd R.AFE_PLL_FB, fbint := s.rd R.AFE_PLL_FBINT, commit := true, stuck := false } }
  ((s.setF F.AFE_PLL_STATUS_LOCKED 0).setF F.AFE_PLL_STATUS_HOLDOVER 0).showCal

/-- The commit with its check. -/
def State.pllGo (s : State) (idle : Bool) : State :=
  let e := s.pllErr idle (s.rd R.AFE_PLL_CFG) (s.rd R.AFE_PLL_FB) (s.rd R.AFE_PLL_FBINT)
  if e = 0 then s.pllTake else (s.setF F.AFE_PLL_STATUS_ERR e).setF F.AFE_PLL_STATUS_ERR_FLAG 1

/-- PLL_COMMIT. -/
def State.pllCommit (s : State) (v : Word) : State :=
  if v.getLsbD 0 then s.pllGo (s.runSt == 0 && !s.bit F.AFE_RUN_STATUS_DRAINING) else s

def execPllCommit (id : Ident) (v : Word) (s : State) : Host.Outcome State Fault Refusal :=
  .next (s.gated id R.AFE_PLL_CTRL v (·.pllCommit v))

/-- The history of every conditioning pipeline of the converters that `p` selects reads as 0 from now on (R128). -/
def State.clearHistory (s : State) (p : Nat → Bool) : State :=
  ((List.range 256).filter p).foldl (fun s c => s.updChan c (fun x => { x with past := 0 })) s

/-- TIME_SPERIOD: 10^9 / f ns in units of 2^-48 ns, to the nearest, halves up (R51). -/
def periodOf (f : Nat × Nat) : Nat := (2 * 10 ^ 9 * 2 ^ 48 * f.2 + f.1) / (2 * max 1 f.1)

/-- PLL_LOCKED: LOCKED rises; after a commit TIME_SPERIOD and FREQ_KHZ follow. -/
def State.pllLocked (s : State) : State :=
  if !s.bit F.AFE_PLL_STATUS_LOCKED && !s.conv.stuck && decide (s.sclk.1 ≠ 0) && decide (s.sclk.2 ≠ 0) then
    let s := s.setF F.AFE_PLL_STATUS_LOCKED 1
    let s := s.clearHistory (fun _ => true)
    if s.conv.commit then
      let s := { s with conv := { s.conv with commit := false } }
      (s.wr64 R.TIME_SPERIOD_LO R.TIME_SPERIOD_HI (periodOf s.sclk)).setF F.AFE_PLL_FREQ_FREQ_KHZ (s.sclk.1 / (s.sclk.2 * 1000))
    else s
  else s

def execPllLocked (s : State) : Host.Outcome State Fault Refusal := .next s.pllLocked

/-- CLK_UNLOCK: loss of lock; in DELAY or RUN the run stops. -/
def State.clkUnlock (s : State) : State :=
  if s.bit F.AFE_PLL_STATUS_LOCKED then
    let s := (s.setF F.AFE_PLL_STATUS_LOCKED 0).setF F.AFE_PLL_STATUS_UNLOCK 1
    let s := s.emit 0 0x0901 []
    match s.runSt with
    | 2 => (s.stopInDelay).setF F.AFE_RUN_STATUS_UNLOCK_STOP 1
    | 3 =>
      let n := match s.run.stopAt with | some z => min z s.label | none => s.label
      (s.fixStop n).setF F.AFE_RUN_STATUS_UNLOCK_STOP 1
    | _ => s
  else s

def execClkUnlock (s : State) : Host.Outcome State Fault Refusal := .next s.clkUnlock

/-- Is the PLL in use on a recovered clock? -/
def State.synce (s : State) : Bool := getBits s.conv.cfg 0 2 == 1

/-- HOLDOVER: the recovered clock is lost. -/
def State.holdover (s : State) : State :=
  if s.synce && s.bit F.AFE_PLL_STATUS_LOCKED && !s.bit F.AFE_PLL_STATUS_HOLDOVER then
    (s.setF F.AFE_PLL_STATUS_HOLDOVER 1).emit 0 0x0902 []
  else s

def execHoldover (s : State) : Host.Outcome State Fault Refusal := .next s.holdover

/-- HOLDOVER_EXIT: the recovered clock has returned. -/
def State.holdoverExit (s : State) : State := if s.synce then s.setF F.AFE_PLL_STATUS_HOLDOVER 0 else s

def execHoldoverExit (s : State) : Host.Outcome State Fault Refusal := .next s.holdoverExit

/-! ### Quadrant power (R88, R116) -/

/-- REQ[q]. -/
def qReq (q : Nat) : Fld := ⟨R.AFE_QPWR, q, 1⟩
/-- ON[q]. -/
def qOn (q : Nat) : Fld := ⟨R.AFE_QPWR, 8 + q, 1⟩

/-- Clearing REQ[q] turns AFEq and DSPq off in IDLE; background calibration of the quadrant pauses (R125). -/
def State.quadOff (s : State) (q : Nat) : State :=
  if !s.quadsUsed.testBit q then s
  else if s.runSt ≠ 0 then s.setF F.AFE_QPWR_ERR 1
  else
    let s := ((List.range 4).map (· + 4 * q)).foldl (fun s g =>
      if s.runs actBgcal g then (s.pauseBg g).setPaused actBgcal g true else s) s
    let s := (s.setF (qReq q) 0).setF (qOn q) 0
    (s.setDom (1 + q) 0).setDom (5 + q) 0

def execQuadrantPowerOff (id : Ident) (q : Fin 4) (s : State) : Host.Outcome State Fault Refusal :=
  .next (s.gated id R.AFE_QPWR (lo32 (s.getF F.AFE_QPWR_REQ - s.getF (qReq q) * 2 ^ q.val)) (·.quadOff q))

/-- Setting REQ[q] powers the domains of a quadrant in use. -/
def State.quadReq (s : State) (q : Nat) : State :=
  if s.quadsUsed.testBit q then s.setF (qReq q) 1 else s.setF F.AFE_QPWR_ERR 1

def execQuadrantPowerOn (id : Ident) (q : Fin 4) (s : State) : Host.Outcome State Fault Refusal :=
  .next (s.gated id R.AFE_QPWR (lo32 (s.getF F.AFE_QPWR_REQ ||| 2 ^ q.val)) (·.quadReq q))

/-- QUADRANT_ON: the domains are powered, which resets what they hold and flushes the word queues with an end in AFE, CND or FIR (R254,
R375; DESIGN CHOICE, assumption log 88: STRUCT names no quadrant of an end), the converters receive their factors, and ON[q]
rises. -/
def State.quadRise (s : State) (q : Nat) : State :=
  if s.getF (qReq q) = 1 ∧ s.getF (qOn q) = 0 ∧ s.quadsUsed.testBit q then
    let s := (s.regsReset (fun o => inDom (1 + q) o || inDom (5 + q) o)).showBanks q
    let s := [9, 16, 17].foldl State.flushEnds s
    let s := ((s.setDom (1 + q) 2).setDom (5 + q) 2).loadQuad q
    (s.clearHistory (fun c => c / 64 == q)).setF (qOn q) 1
  else s

def execQuadrantOn (q : Fin 4) (s : State) : Host.Outcome State Fault Refusal := .next (s.quadRise q)

end Sys2Proof.Machine
end

