-- ==== Sys2Proof/Machine/Sinter.lean ====
section
/-!
DEFINITION. Machine/Sinter.lean: host jobs of the sinter engine: descriptors, starts, steps, resume, release and abort
(R256, R263, R268-R277).
-/

namespace Sys2Proof.Machine

/-! ### Job descriptors (R263, R268) -/

/-- Word `k` of a descriptor. -/
def dw (d : List Byte) (k : Nat) : Nat := leAt d (4 * k) 4

def descOp (d : List Byte) : Nat := dw d 0 % 16
def descCtx (d : List Byte) : Nat := dw d 0 / 2 ^ 24
def descXform (d : List Byte) : Nat := dw d 0 / 32 % 4
def descHuff (d : List Byte) : Nat := dw d 0 / 256 % 4
def descKib (d : List Byte) : Nat := dw d 0 / 2 ^ 16 % 128
def descTag (d : List Byte) : Word := BitVec.ofNat 32 (dw d 1)
def descSrc (d : List Byte) : Nat := leAt d 8 8
def descSrcLen (d : List Byte) : Nat := dw d 4
def descSeg (d : List Byte) : Nat := dw d 5
def descDst (d : List Byte) : Nat := leAt d 24 8
def descDstLen (d : List Byte) : Nat := dw d 8

/-- SPACE of an address: 1 host memory. -/
def spaceOf (a : Nat) : Nat := a / 2 ^ 63 % 2
/-- The address below it. -/
def addrOf (a : Nat) : Nat := a % 2 ^ 63

/-- The fields that RESUME and RELEASE use are in range. -/
def State.ctxOk (s : State) (d : List Byte) : Bool := decide (8 ≤ descCtx d) && decide (descCtx d < s.getF F.SNT_INFO_N_CTX)

/-- Lengths and reserved fields of a descriptor that starts a job. -/
def State.startOk (s : State) (d : List Byte) : Bool :=
  s.ctxOk d && decide (1 ≤ descSrcLen d) && decide (1 ≤ descDstLen d) && dw d 0 / 2 ^ 23 % 2 == 0 && dw d 11 / 65536 == 0 &&
    (List.range 4).all (fun k => dw d (12 + k) == 0)

/-- Is the descriptor valid (R263, R268)? -/
def State.descOk (s : State) (d : List Byte) : Bool :=
  match descOp d with
  | 0 => s.startOk d && descHuff d != 3 && decide (1 ≤ descKib d) && decide (descKib d ≤ 64) &&
      !((descXform d == 1 || descXform d == 2) && descSeg d % 2 == 1)
  | 1 => s.startOk d && descXform d == 0
  | 2 => s.ctxOk d && decide (1 ≤ descDstLen d)
  | 3 => s.ctxOk d
  | _ => false

/-- The settings of a compression job, from word 0 of its descriptor. -/
def SntJob.cfg (j : SntJob) : CompCfg :=
  { zlib := j.w0.getLsbD 4, xform := getBits j.w0 5 2, huff := getBits j.w0 8 2, depth := getBits j.w0 10 6 + 1,
    lazy_ := j.w0.getLsbD 7, kib := getBits j.w0 16 7, seg := j.seg }

/-! ### Reading the source (R224, R225, R269) -/

/-- The first offset of a range that a job may not reach. -/
def State.jobDenied (s : State) (write : Bool) (off len : Nat) : Option Nat :=
  ((List.range len).find? (fun i => !(s.memMay .snta write (s.partOf (off + i))))).map (fun i => off + i)

/-- Reads words from `a` on until one fails twice: its offset. -/
def State.readUntil (s : State) : Nat → Nat → Option Nat × State
  | _, 0 => (none, s)
  | a, n + 1 =>
    let (r, s) := s.memReadWord a
    if r = MemRead.lasting then (some a, s) else s.readUntil (a + 4) n

/-- Reads `len` bytes of sample memory for a job, and the word that failed, if one did. -/
def State.readMem (s : State) (off len : Nat) : List Byte × Option Nat × State :=
  let a := off / 4 * 4
  let (bad, s) := s.readUntil a ((off + len - 1) / 4 + 1 - a / 4)
  (s.mem.bytes off len, bad, s)

/-- The input of a job and what its accesses met: its context, then its source, then a host destination. Of a source that fails the
bytes before the failure are read. -/
def State.jobInput (s : State) (e : RingEntry) : List Byte × Option (Nat × Nat) × State :=
  let d := e.desc
  let src := descSrc d
  let len := descSrcLen d
  let (cbad, s) := s.ctxStart (descCtx d)
  match cbad with
  | some a => ([], some (5, memLoc a 63), s)
  | none =>
    if spaceOf src = 1 then
      if e.bad then ([], some (8, src % 2 ^ 32), s)
      else
        let (fb, s) := s.freeBytes (len - e.data.length)
        (e.data.take len ++ fb, none, s)
    else
      match s.jobDenied false (addrOf src) len with
      | some a =>
        let (b, bad, s) := s.readMem (addrOf src) (a - addrOf src)
        match bad with
        | some w => (b.take (w - addrOf src), some (5, memLoc w 63), s)
        | none => (b, some (4, src % 2 ^ 32), s.memDeny .snta a false)
      | none =>
        let (b, bad, s) := s.readMem (addrOf src) len
        match bad with
        | some a => (b.take (a - addrOf src), some (5, memLoc a 63), s)
        | none => (b, if e.bad then some (8, descDst d % 2 ^ 32) else none, s)

/-! ### Starts -/

/-- A step ends at once: its record, and CI of the ring. -/
def State.endNow (s : State) (f : Nat) (e : RingEntry) (st : StepEnd) : State :=
  (s.stepRecord f e.idx (descCtx e.desc) (descTag e.desc) st).sntDone f e.idx

/-- COMPRESS or INFLATE on lane `l`. -/
def State.startJob (s : State) (f : Nat) (e : RingEntry) (l : Nat) : State :=
  let d := e.desc
  let n := descCtx d
  if s.ctxSt n ≠ 0 then s.endNow f e (StepEnd.none_ 10 0)
  else
    let (b, fail, s) := s.jobInput e
    let j : SntJob :=
      { fn := f, idx := e.idx, tag := descTag d, infl := descOp d == 1, w0 := BitVec.ofNat 32 (dw d 0), src := descSrc d,
        seg := descSeg d, blk := leAt d 36 8, blkMax := dw d 11 % 65536, dst := descDst d, dstLen := descDstLen d, input := b,
        fail := fail, words := 0, out := 0 }
    ((s.setCtx n 1 (f + 1)).ctxTake n (some j)).laneTake l 2 n 0

/-- RESUME on lane `l`: new output space for the suspended job (R271). Its context is read first, then a host destination. -/
def State.resumeJob (s : State) (f : Nat) (e : RingEntry) (l : Nat) : State :=
  let d := e.desc
  let n := descCtx d
  let (cbad, s) := s.ctxRead n
  let fail := match cbad with
    | some a => some (5, memLoc a 63)
    | none => if e.bad then some (8, descDst d % 2 ^ 32) else none
  let s := (s.setCtx n 1 (f + 1)).updCtx n (fun x => { x with
    job := x.job.map (fun j => { j with
      idx := e.idx, tag := descTag d, dst := descDst d, dstLen := descDstLen d, fail := fail }) })
  s.laneTake l 2 n 0

/-- The commit of a step frees context `n` (R273). -/
def State.ctxDone (s : State) (n : Nat) : State := (s.freeCtx n).updCtx n (fun x => { x with doneAt := some s.tick })

/-- RELEASE: a suspended context of the same function becomes FREE (R269). -/
def State.releaseJob (s : State) (f : Nat) (e : RingEntry) : State :=
  (s.ctxDone (descCtx e.desc)).endNow f e (StepEnd.none_ 11 0)

/-- May function `f` resume or release the context: the status of a refusal, if not? -/
def State.suspRefusal (s : State) (f n : Nat) : Option Nat :=
  if s.ctxSt n ≠ 2 then some 10 else if s.getF (F.SNT_CTX_STATE_OWNER n) ≠ f + 1 then some 4 else none

/-- The lane for a host job, if one is free: the inflate lane, or a compression lane that is not reserved and that no capture
waits for; system inflate goes before host inflate (R256). -/
def State.hostLane (s : State) (inflates : Bool) : Option Nat :=
  if inflates then (if s.laneSt 4 = 0 ∧ s.sysWants = false then some 4 else none)
  else if s.nextCap.isSome then none
  else s.freeLane (s.getF F.SNT_CTRL_LANE_RESERVE)

/-- Does the descriptor use host memory beside its own entry, so that a PCIe error may have met that? -/
def State.hostSpace (s : State) (d : List Byte) : Bool :=
  s.descOk d && ((decide (descOp d ≤ 1) && (spaceOf (descSrc d) == 1 || spaceOf (descDst d) == 1)) ||
    (descOp d == 2 && spaceOf (descDst d) == 1))

/-- A lane takes the descriptor `e` of function `f`; where every lane it may use is busy it stays in its ring. -/
def State.runDesc (s : State) (f : Nat) (e : RingEntry) : State :=
  let d := e.desc
  let n := descCtx d
  let taken := s.updRing f 8 (fun x => { x with posted := x.posted.drop 1 })
  if e.bad && !s.hostSpace d then taken.endNow f e (StepEnd.none_ 8 0)
  else if !s.descOk d then taken.endNow f e (StepEnd.none_ 3 0)
  else
    let inflates := if descOp d = 2 then (match (s.ctx n).job with | some j => j.infl | none => false) else descOp d == 1
    match descOp d with
    | 3 =>
      match s.suspRefusal f n with
      | some st => taken.endNow f e (StepEnd.none_ st 0)
      | none => taken.releaseJob f e
    | 2 =>
      match s.suspRefusal f n with
      | some st => taken.endNow f e (StepEnd.none_ st 0)
      | none => match s.hostLane inflates with | some l => taken.resumeJob f e l | none => s
    | _ => match s.hostLane inflates with | some l => taken.startJob f e l | none => s

/-- The oldest descriptor of function `f`, where its OP is one that `want` names and XPR is ON (R277). -/
def State.takeDesc (s : State) (f : Nat) (want : Nat → Bool) : State :=
  if s.ringOn f 8 && s.domOn 12 && !s.halted then
    match (s.ring f 8).posted with
    | [] => s
    | e :: _ => if want (descOp e.desc) then s.runDesc f e else s
  else s

/-- HOST_JOB_START: a free lane takes the oldest descriptor of function `f`, whatever its OP. -/
def execHostJobStart (f : Fin 2) (s : State) : Host.Outcome State Fault Refusal := .next (s.takeDesc f (fun _ => true))

/-- SNT_COMPRESS: the oldest descriptor, a COMPRESS. -/
def execSntCompress (f : Fin 2) (s : State) : Host.Outcome State Fault Refusal := .next (s.takeDesc f (fun o => o == 0))

/-- SNT_INFLATE: the oldest descriptor, an INFLATE. -/
def execSntInflate (f : Fin 2) (s : State) : Host.Outcome State Fault Refusal := .next (s.takeDesc f (fun o => o == 1))

/-- SNT_RESUME: the oldest descriptor, a RESUME. -/
def execSntResume (f : Fin 2) (s : State) : Host.Outcome State Fault Refusal := .next (s.takeDesc f (fun o => o == 2))

/-- SNT_RELEASE: the oldest descriptor, a RELEASE. -/
def execSntRelease (f : Fin 2) (s : State) : Host.Outcome State Fault Refusal := .next (s.takeDesc f (fun o => o == 3))

/-! ### Steps (R269-R272) -/

/-- Code words of `l` that fit below bit `limit`, from bit `pos` on. -/
def fitWords (limit : Nat) : Nat → List CodeWord → Nat
  | _, [] => 0
  | pos, w :: t => if pos + w.bits.length ≤ limit then 1 + fitWords limit (pos + w.bits.length) t else 0

/-- What a step gives: its output bytes, the block descriptors it makes with the number of the first, and its record. -/
structure StepOut where
  bytes : List Byte
  descs : List BlkDesc
  from_ : Nat
  words : Nat
  fin   : StepEnd
deriving DecidableEq, Repr

/-- Blocks that code words begin. -/
def cwBlocks (l : List CodeWord) : List BlkDesc := l.filterMap (·.blk)

/-- A step of a compression that has come to code word `n` (exclusive) ends with `status`. -/
def SntJob.compTo (j : SntJob) (n status loc : Nat) : StepOut :=
  let all := compWords j.cfg j.input
  let now := all.take n
  let bits := cwBits now
  let new := cwBlocks (now.drop j.words)
  let before := cwBlocks (all.take j.words)
  let goesOn := decide (j.words < n) && (match all[j.words]? with | some w => w.blk.isNone | none => false)
  let inp := now.foldl (fun a w => a + w.inp) 0
  { bytes := (cwBytes now).drop j.out, descs := new, from_ := before.length, words := n,
    fin := { status := status, residue := bits % 8,
             raw := b2n (new.any (fun d => d.kind == 0) || (goesOn && (before.getLast?.map (fun d => d.kind == 0)).getD false)),
             ovf := b2n (decide (j.blkMax < (cwBlocks now).length)), inp := inp, out := bits / 8 - j.out,
             blocks := (cwBlocks now).length, adler := adler32 ((xform j.cfg.xform j.cfg.seg j.input).take inp), loc := loc } }

/-- Code words of a compression that `space` bytes of output take beyond those before (R270). -/
def SntJob.compFit (j : SntJob) (space : Nat) : Nat :=
  let all := compWords j.cfg j.input
  fitWords (8 * (j.out + space)) (cwBits (all.take j.words)) (all.drop j.words)

/-- The current step of a compression. -/
def SntJob.compStep (j : SntJob) : StepOut :=
  let n := j.words + j.compFit j.dstLen
  j.compTo n (if n = (compWords j.cfg j.input).length then 0 else 1) 0

/-- A step of an inflate that has given `space` bytes, with `status` where one is given. -/
def SntJob.inflTo (j : SntJob) (space : Nat) (status : Option Nat) (loc : Nat) : StepOut :=
  let x0 := inflate (j.w0.getLsbD 4) j.input j.out
  let x := inflate (j.w0.getLsbD 4) j.input (j.out + space)
  let st := match x.fin with | .ok => 0 | .full => 1 | .badData => 6 | .adlerErr => 7
  { bytes := x.out.drop j.out, descs := [], from_ := 0, words := 0,
    fin := { status := status.getD st, residue := 0, raw := b2n (decide (x0.raws < x.raws) || x0.stored), ovf := 0, inp := x.used,
             out := x.out.length - j.out, blocks := 0, adler := adler32 x.out, loc := loc } }

/-- The current step of an inflate. -/
def SntJob.inflStep (j : SntJob) : StepOut := j.inflTo j.dstLen none 0

def SntJob.step (j : SntJob) : StepOut := if j.infl then j.inflStep else j.compStep

/-- The step ends early with `status` after at most `space` bytes of output; `v`, a free number, says how far it had come. -/
def SntJob.cutStep (j : SntJob) (v space status loc : Nat) : StepOut :=
  if j.infl then j.inflTo (v % ((j.inflTo (min space j.dstLen) none 0).bytes.length + 1)) (some status) loc
  else j.compTo (j.words + v % (j.compFit (min space j.dstLen) + 1)) status loc

/-- The step ends with `status` once `space` bytes of output are written. -/
def SntJob.stepTo (j : SntJob) (space status loc : Nat) : StepOut :=
  if j.infl then j.inflTo space (some status) loc else j.compTo (j.words + j.compFit space) status loc

/-- The word at `wa` is read because an output of a job writes a part of it: it fails twice (R213). -/
def State.partFails (s : State) (part : Bool) (wa : Nat) : Bool × State :=
  if part then
    let (r, s) := s.memReadWord wa
    (decide (r = MemRead.lasting), s)
  else (false, s)

/-- How many of the `n` bytes at offset `a` a job can write, with a word written in part read first: all of them, or those below a word
that fails twice. -/
def State.partsFail (s : State) (a n : Nat) : Nat × State :=
  let z := a + n
  let (bad, s) := s.partFails (decide (0 < n) && (a % 4 != 0 || decide (z < a / 4 * 4 + 4))) (a / 4 * 4)
  if bad then (0, s)
  else
    let (bad, s) := s.partFails (z % 4 != 0 && decide (a / 4 * 4 < z / 4 * 4)) (z / 4 * 4)
    (if bad then z / 4 * 4 - a else n, s)

/-- Bytes leave for an output address: how many were written, and why not all of them were: R224 denies one (4), or a word written in
part fails its second attempt (5), with the location that the job's record names. -/
def State.putOut (s : State) (f dst : Nat) (b : List Byte) : Nat × Option (Nat × Nat) × State :=
  if b.isEmpty then (0, none, s)
  else if spaceOf dst = 1 then (b.length, none, s.obsv (.hostWrite f (addrOf dst) b))
  else
    let a := addrOf dst
    let n := match s.jobDenied true a b.length with | some x => x - a | none => b.length
    let (k, s) := s.partsFail a n
    let s := s.memPut a (b.take k)
    if k < n then (k, some (5, memLoc ((a + k) / 4 * 4) 63), s)
    else if n < b.length then (k, some (4, dst % 2 ^ 32), s.memDeny .snta (a + k) true)
    else (k, none, s)

/-- Address word of entry `k` of the block list. -/
def blkAt (j : SntJob) (k : Nat) : Nat := (addrOf j.blk + 16 * k) % 2 ^ 63 + spaceOf j.blk * 2 ^ 63

/-- How a step ends whose block descriptors end with `e`: a denied write names the block array (R261). -/
def SntJob.blkEnd (j : SntJob) (e : Nat × Nat) : Nat × Nat := if e.1 = 4 then (4, j.blk % 2 ^ 32) else e

/-- What follows the write of one descriptor: the end it met, or the next ones. -/
def SntJob.blkThen (j : SntJob) (x : Nat × Option (Nat × Nat) × State) (next : State → Option (Nat × Nat) × State) :
    Option (Nat × Nat) × State :=
  match x.2.1 with
  | some e => (some (j.blkEnd e), x.2.2)
  | none => next x.2.2

/-- Block descriptors go to the block list, up to BLK_MAX of them; `k` numbers the first. What stops them, if anything does. -/
def State.putBlks (s : State) (j : SntJob) : Nat → List BlkDesc → Option (Nat × Nat) × State
  | _, [] => (none, s)
  | k, d :: t =>
    if k < j.blkMax then j.blkThen (s.putOut j.fn (blkAt j k) d.bytes) (fun s => s.putBlks j (k + 1) t)
    else (none, s)

/-- The step in context `n` ends with `e`: its record, its lane and its context. -/
def State.stepEnd (s : State) (n : Nat) (j : SntJob) (e : StepEnd) : State :=
  let s := ((s.stepRecord j.fn j.idx n j.tag e).sntDone j.fn j.idx).laneOff n
  if e.status = 1 then s.setCtx n 2 (j.fn + 1) else s.ctxDone n

/-- The counters of what compression has taken and given (SNT_IN_BYTES, SNT_OUT_BYTES, SNT_RAW_BLOCKS). -/
def State.sntCount (s : State) (inp out raw : Nat) : State :=
  let s := s.wr64 R.SNT_IN_BYTES_LO R.SNT_IN_BYTES_HI (s.rd64 R.SNT_IN_BYTES_LO R.SNT_IN_BYTES_HI + inp)
  let s := s.wr64 R.SNT_OUT_BYTES_LO R.SNT_OUT_BYTES_HI (s.rd64 R.SNT_OUT_BYTES_LO R.SNT_OUT_BYTES_HI + out)
  s.bumpBy F.SNT_RAW_BLOCKS_COUNT raw

/-- What a step has taken and given goes to the counters of the engine; inflate has none. -/
def State.stepCount (s : State) (j : SntJob) (o : StepOut) : State :=
  if j.infl then s
  else
    let inp0 := ((compWords j.cfg j.input).take j.words).foldl (fun a w => a + w.inp) 0
    s.sntCount (o.fin.inp - inp0) o.fin.out (o.descs.filter (fun d => d.kind == 0)).length

/-- The step in context `n` comes to `o`: its output and its block descriptors are written and its record ends it. Where one of those
writes is denied or fails, the step ends there with DENIED or MEM_ERR. -/
def State.stepGive (s : State) (n : Nat) (j : SntJob) (o : StepOut) : State :=
  let (k, bad, s) := s.putOut j.fn j.dst o.bytes
  match bad with
  | some (st, loc) =>
    let o := j.stepTo k st loc
    (s.stepCount j o).stepEnd n j o.fin
  | none =>
    let (bad, s) := s.putBlks j o.from_ o.descs
    let s := s.stepCount j o
    match bad with
    | some (st, loc) => s.stepEnd n j { o.fin with status := st, loc := loc }
    | none => (s.updCtx n (fun x => { x with job := some { j with words := o.words, out := j.out + o.fin.out } })).stepEnd n j o.fin

/-- The step of the job in context `n` runs to its end. Where its accesses have met an error, how far it came is open: a free value. -/
def State.stepRun (s : State) (n : Nat) (j : SntJob) : State :=
  match j.fail with
  | some (st, loc) =>
    let (v, s) := s.free
    s.stepGive n j (j.cutStep v j.dstLen st loc)
  | none => s.stepGive n j j.step

/-- JOB_STEP_COMPLETE: the host job on a lane ends its step; the record is the commit point. -/
def State.stepComplete (s : State) (l : Nat) : State :=
  if s.laneSt l = 2 ∧ s.halted = false then
    let n := s.getF (F.SNT_LANE_CTX l)
    match (s.ctx n).job with
    | some j => s.stepRun n j
    | none => s
  else s

def execJobStepComplete (lane : Fin 5) (s : State) : Host.Outcome State Fault Refusal := .next (s.stepComplete lane)

/-! ### Abort and re-form (R273, R276) -/

/-- The number of the code word that begins block `k`. -/
def blkWord : Nat → List CodeWord → Nat
  | _, [] => 0
  | k, w :: t => if w.blk.isSome then (if k = 0 then 0 else 1 + blkWord (k - 1) t) else 1 + blkWord k t

/-- Would a write of `len` bytes at the address `dst` be denied? At which offset? -/
def State.outDenied (s : State) (dst len : Nat) : Option Nat :=
  if spaceOf dst = 1 then none else s.jobDenied true (addrOf dst) len

/-- A step that something stops from outside with `status`; `v`, a free number, says how far it had come: not to a byte or a block
descriptor that R224 denies, where it would have ended itself. -/
def State.stopStep (s : State) (j : SntJob) (v status : Nat) : StepOut :=
  let o := j.cutStep v j.dstLen status 0
  let o := match s.outDenied j.dst o.bytes.length with
    | some a => j.cutStep v (a - addrOf j.dst) status 0
    | none => o
  match (List.range o.descs.length).find? (fun i =>
      decide (o.from_ + i < j.blkMax) && (s.outDenied (blkAt j (o.from_ + i)) 16).isSome) with
  | some i => j.compTo (blkWord (o.from_ + i) (compWords j.cfg j.input)) status 0
  | none => o

/-- The job in context `n` is stopped in its step with `status`. How much of the step's output has been written is open: a free
value. -/
def State.stopJob (s : State) (n : Nat) (j : SntJob) (status : Nat) : State :=
  let (v, s) := s.free
  let o := s.stopStep j v status
  let (_, _, s) := s.putOut j.fn j.dst o.bytes
  let (_, s) := s.putBlks j o.from_ o.descs
  (s.stepCount j o).stepEnd n j o.fin

/-- SNT_ABORT: GO = 1 ends the host job of a running context; a suspended one, and one that a commit in the same tick has freed, is
LATE; a FREE or hub context is IGNORED. -/
def State.sntAbort (s : State) (v : Word) : State :=
  let n := getBits v 0 8
  if v.getLsbD 31 then
    if n < 8 ∨ 64 ≤ n then s.setF F.SNT_ABORT_STATUS_IGNORED 1
    else
      match s.ctxSt n, (s.ctx n).job with
      | 1, some j => (s.stopJob n j 2).setF F.SNT_ABORT_STATUS_ABORTED 1
      | 2, _ => s.late F.SNT_ABORT_STATUS_LATE
      | 0, _ => if (s.ctx n).doneAt = some s.tick then s.late F.SNT_ABORT_STATUS_LATE else s.setF F.SNT_ABORT_STATUS_IGNORED 1
      | _, _ => s.setF F.SNT_ABORT_STATUS_IGNORED 1
  else s

def execSntAbort (id : Ident) (v : Word) (s : State) : Host.Outcome State Fault Refusal :=
  .next (s.gated id R.SNT_ABORT v (fun s => s.sntAbort v))

/-- A re-form: host jobs end with REFORM, and suspended contexts are freed with one completion record each (R276). -/
def State.sntHostReform (s : State) : State :=
  (List.range 64).foldl (fun s n =>
    match s.ctxSt n, (s.ctx n).job with
    | 1, some j => s.stopJob n j 9
    | 2, some j => (s.stepRecord j.fn j.idx n j.tag (j.stepTo 0 9 0).fin).ctxDone n
    | _, _ => s) s

end Sys2Proof.Machine
end

