-- ==== Sys2Proof/Machine/Geyser.lean ====
section
/-!
DEFINITION. Machine/Geyser.lean: captures as hub jobs of the sinter engine, their packets, and FAILBACK (R264-R267,
R295-R298, R303).
-/

namespace Sys2Proof.Machine

/-! ### What a channel still has to deliver -/

/-- The labels of [lo, hi) that are not declared. -/
def okLabels (lo hi : Nat) (lost : List GapRun) : List Nat :=
  (holes lo hi (sortRuns lost)).flatMap (fun z => (List.range (z.2 - z.1)).map (fun d => z.1 + d))

/-- Declared runs of channel `c`. -/
def Capture.lostOf (k : Capture) (c : Nat) : List GapRun := k.lost.filter (fun r => r.src == c)

/-- The first label of the channel's window that the job does not send: declared STOP or REFORM up to the end. -/
def Capture.endOf (k : Capture) (c : Nat) : Nat :=
  ((k.lostOf c).filter (fun r => r.cause == causeStop || r.cause == causeReform)).foldl (fun a r => min a r.first) (k.first + k.len)

/-- Everything of capture `k` that is not declared yet is declared under `cause`. -/
def State.capAll (s : State) (k : Capture) (cause : Nat) : State :=
  k.chans.foldl (fun s c =>
    (holes k.first (k.first + k.len) (sortRuns (k.lostOf c))).foldl (fun s z => s.capLose k c cause z.1 z.2) s) s

/-! ### CAPTURE_JOB_START (R264, R265, R267) -/

/-- Reads `n` pool words from pool byte `x` on: their bytes, zeros for a word that failed twice, and the numbers of those. -/
def State.poolWords (s : State) (x : Nat) : Nat → Nat → List Byte × List Nat × State
  | _, 0 => ([], [], s)
  | w, n + 1 =>
    let a := s.partBase 1 + (x + 4 * w) % max 1 s.poolSize
    let (r, s) := s.memReadWord a
    let bad := decide (r = MemRead.lasting)
    let b := if bad then zeros 4 else s.mem.bytes a 4
    let (bs, l, s) := s.poolWords x (w + 1) n
    (b ++ bs, if bad then w :: l else l, s)

/-- Zeros in place of the declared samples of [first, first + n). -/
def zeroLost (first b : Nat) (l : List Byte) (lost : List GapRun) : List Byte :=
  lost.foldl (fun l r => putBytes l (b * (r.first - first)) (zeros (min (b * (r.last + 1 - r.first)) (l.length - b * (r.first - first))))) l

/-- XFORM as it applies to a capture's format (R265). -/
def capXform (x b : Nat) : Nat :=
  if b = 1 then (if x = 2 ∨ x = 3 then 3 else 0) else (if x = 3 then 0 else x)

/-- The settings of the hub job of a capture of stream `i` with `b` bytes a word (R265). -/
def State.capCfg (s : State) (i b : Nat) : CompCfg :=
  { zlib := s.bit (F.SNT_GEYSER_CFG_ZLIB i), xform := capXform (s.getF (F.SNT_GEYSER_CFG_XFORM i)) b,
    huff := s.getF (F.SNT_GEYSER_CFG_HUFF i), depth := s.getF (F.SNT_GEYSER_CFG_DEPTH i) + 1,
    lazy_ := s.bit (F.SNT_GEYSER_CFG_LAZY i), kib := s.getF (F.SNT_GEYSER_CFG_BLOCK_KIB i), seg := 0 }

/-- Samples of `n` that are whole among the first `m` transformed bytes. -/
def wholeSamples (x b n m : Nat) : Nat := if x = 1 ∨ x = 2 then m - n else m / b

/-- The job's output of one channel with the bytes of its words, of which the first `n` samples are sent or declared with it, its stream and the counters of SNT. A context that
failed (`broken`) ends the channel's stream at an open point (R267). -/
def State.capStream (s : State) (k : Capture) (c n : Nat) (bytes : List Byte) (comp broken : Bool) : CapChan × State :=
  let cfg := s.capCfg k.stream k.b
  if comp then
    let (v, s) := if broken then s.free else (0, s)
    let t := xform cfg.xform 0 bytes
    let m := v % (t.length + 1)
    let t := if broken then t.take m else t
    let w := if broken then brokenWords cfg t else deflateWords cfg t
    let done := if broken then min n (wholeSamples cfg.xform k.b (bytes.length / k.b) m) else n
    let s := if broken then (holes (k.first + done) (k.first + n) (sortRuns (k.lostOf c))).foldl
      (fun s z => s.capLose k c causeMem z.1 z.2) s else s
    let all := cwBytes (zlibWrap cfg t w)
    let s := s.sntCount t.length all.length ((cwBlocks w).filter (fun d => d.kind == 0)).length
    (⟨c, n, all, 0, [], rawSpans (if cfg.zlib then 16 else 0) none w⟩, s)
  else (⟨c, n, bytes, 0, [], []⟩, s)

/-- Channel number `ic.1`, channel `ic.2`, of capture `k` is read whole, (P + Q) x b bytes of its region, and handed on: an
uncompressed one up to a tail declared STOP or REFORM, a compressed one whole with zeros for what is declared (R265, R297). -/
def State.capChannel (s : State) (k : Capture) (comp broken : Bool) (ic : Nat × Nat) : CapChan × State :=
  let c := ic.2
  let n := k.endOf c - k.first
  let (b, bad, s) := s.poolWords (64 * k.off + k.region * ic.1) 0 ((k.len * k.b + 3) / 4)
  let badLabels := (List.range k.len).filter (fun d => bad.contains (d * k.b / 4))
  let s := badLabels.foldl (fun s d =>
    if (k.lostOf c).any (fun r => decide (r.first ≤ k.first + d) && decide (k.first + d ≤ r.last)) then s
    else s.capLose k c causeMem (k.first + d) (k.first + d + 1)) s
  let k := (s.trg.caps.find? (fun x => x.id == k.id)).getD k
  let b := if comp && decide (0 < n) then b.take (k.len * k.b) else b.take (n * k.b)
  let (x, s) := s.capStream k c n (zeroLost k.first k.b b (k.lostOf c)) comp broken
  let k := (s.trg.caps.find? (fun x => x.id == k.id)).getD k
  ({ x with lost := k.lostOf c }, s)

/-- The lowest free context of the hub jobs. -/
def State.hubCtx (s : State) : Option Nat := (List.range 8).find? (fun n => s.ctxSt n == 0)

/-- The job on lane `l` goes on in a fresh context, because a word of context `n` has failed twice (R267); where none is free it starts
its own afresh. -/
def State.hubFresh (s : State) (l n : Nat) : Nat × State :=
  match s.hubCtx with
  | some m => (m, (((s.freeCtx n).setCtx m 3 0).ctxTake m none).setF (F.SNT_LANE_CTX l) m)
  | none => (n, s)

/-- The channels of capture `k` in ascending order, from context `n` on. A context that fails ends its channel's stream (R267). -/
def State.capChannels (s : State) (k : Capture) (comp : Bool) (l : Nat) : Nat → List (Nat × Nat) → List CapChan × State
  | _, [] => ([], s)
  | n, ic :: t =>
    let (bad, s) := if comp then s.ctxStart n else (none, s)
    let (x, s) := s.capChannel k comp bad.isSome ic
    let (m, s) := if bad.isSome && !t.isEmpty then s.hubFresh l n else (n, s)
    let (xs, s) := s.capChannels k comp l m t
    (x :: xs, s)

/-- The channels of capture `k` with a captured sample from the spare (R123). -/
def State.capSpare (s : State) (k : Capture) : List Nat := k.chans.filter (fun c => s.spareIn c k.first (k.endOf c))

/-- CAPTURE_JOB_START: the next whole capture takes a compression lane and a context; its channels are read and handed to the
packetiser of its stream. With XPR not ON the job wakes it first. -/
def State.captureStart (s : State) : State :=
  if s.halted then s
  else
    match s.nextCap, s.freeLane 0, s.hubCtx with
    | some k, some l, some n =>
      if s.domOn 12 then
        let comp := s.bit (F.SNT_GEYSER_CFG_COMPRESS k.stream) && (s.str k.stream).ver == 3
        let cfg := s.capCfg k.stream k.b
        let s := (s.setCtx n 3 0).ctxTake n none
        let s := s.laneTake l 1 n k.stream
        let s := { s with snt := { s.snt with caps := updAt (fun _ => some k.id) s.snt.caps l } }
        let s := s.updCap k.id (fun x => { x with state := 2 })
        let (chs, s) := s.capChannels k comp l n ((List.range k.chans.length).zip k.chans)
        let sp := s.capSpare k
        (s.updStr k.stream (fun x => if x.active then { x with
          gey := x.gey ++ [⟨k.id, k.first, k.p, k.q, k.b, comp, cfg.zlib, cfg.xform, chs, k.anchor, false, sp⟩] } else x)).wqFill k.stream 0
      else s.wakeDom 12
    | _, _, _ => s

def execCaptureJobStart (s : State) : Host.Outcome State Fault Refusal := .next s.captureStart

/-- HUB_JOB_COMPLETE: the hub job on lane `l` has read its capture's last byte and handed over its output (R266): the space returns in
admission order. -/
def State.hubDone (s : State) (l : Nat) : State :=
  match s.snt.caps.getD l none with
  | some id =>
    if s.laneSt l = 1 ∧ s.halted = false ∧ s.geyAllIn (s.getF (F.SNT_LANE_STREAM l)) = true then
      let n := s.getF (F.SNT_LANE_CTX l)
      let s := (s.bump F.SNT_JOBS_COUNT).updCap id (fun x => { x with state := 3 })
      ((s.laneFree l).freeCtx n).capFree 8
    else s
  | none => s

def execHubJobComplete (lane : Fin 5) (s : State) : Host.Outcome State Fault Refusal := .next (s.hubDone lane)

/-! ### GEYSER_PACKET_BUILD (R295-R298) -/

/-- The flags of a capture's packet (R283); `spare`: the channel has content from the spare, or a spare has adopted it (R123). -/
def CapOut.flags (o : CapOut) (x : CapChan) (settle last spare : Bool) (len : Nat) : Nat :=
  b2n settle + 4 * b2n spare + 256 * b2n last + 512 * b2n (o.b == 1) +
  (if o.comp then 8 + 16 * b2n (x.raw.any (fun z => decide (z.1 < x.off + len) && decide (x.off < z.2))) + 1024 * o.xform +
    4096 * b2n o.zlib else 0)

/-- A packet of the piece `b` of channel `x` with the labels [lo, hi) of its content; `total` counts the content's samples
beside. -/
def State.geyPkt (s : State) (i : Nat) (o : CapOut) (x : CapChan) (b : List Byte) (last : Bool) (lo hi total : Nat) : Packet :=
  let st := s.str i
  let ok := okLabels lo hi x.lost
  let p := s.newPkt i 0 (if o.comp then o.first else lo) (hi - 1)
  { p with
    flags := p.flags + o.flags x (decide (ok.length < hi - lo) && (!o.comp || last)) last
      (o.spare.contains x.ch || s.adoptedNow x.ch) b.length
    count := if o.comp then 0 else hi - lo
    tail := geyserTail o.cap x.ch (o.p + o.q) o.p x.off
    payload := b
    posEnd := st.pos + total
    declIn := st.pendDecl + (total - ok.length)
    okIn := ok.length
    content := ok.map (fun n => (n, [x.ch]))
    cap := o.cap }

/-- The ANCHOR packet is out. -/
def State.geyAnchored (s : State) (i : Nat) : State :=
  s.updStr i (fun st => { st with gey := match st.gey with
    | [] => []
    | o :: t => { o with anchored := true } :: t })

/-- What precedes the next packet: GAP, MARK and, ahead of the capture's first, the ANCHOR packet (R288, R291, R295). -/
def State.geyPre (s : State) (i : Nat) (o : CapOut) (x : CapChan) : List Packet :=
  (groupRuns (sortRuns (s.geyGaps i o x))).map (fun g => s.gapPkt i g) ++
  ((s.str i).marks.filter (fun m => m.rel.isNone)).map (fun m => s.markPkt i m) ++
  (if o.anchored then []
   else match o.anchor with | some a => [{ s.anchorPkt i a with cap := o.cap }] | none => [])

/-- The packetiser pops `k` words of stream `i`'s word queue, which its hub job fills as credit returns; `d` are popped already. Whether
a lasting error has flushed the queue. -/
def State.geyPop (s : State) (i n : Nat) : Nat → Nat → Bool × State
  | _, 0 => (false, s)
  | d, k + 1 =>
    let (_, lost, s) := (s.wqFill i d).popWq n
    if lost then (true, s) else s.geyPop i n (d + 1) k

/-- The words of the next `len` bytes of channel `x` come out of the queue of stream `i`, where it has one: whether they were lost. -/
def State.geyTake (s : State) (i : Nat) (x : CapChan) (len : Nat) : Bool × State :=
  match s.geyQueue i with
  | none => (false, s)
  | some n => s.geyPop i n 0 ((x.off + len + 3) / 4 - (x.off + 3) / 4)

/-- The next packet of an uncompressed channel (R296). -/
def State.geyPlain (s : State) (i : Nat) (o : CapOut) (x : CapChan) : State :=
  let b := sub x.bytes x.off (s.getF (F.STR_SIZE_PAYLOAD i))
  let last := decide (x.bytes.length ≤ x.off + b.length)
  let lo := o.first + x.off / o.b
  let hi := lo + b.length / o.b
  let (out, t) := s.commitTry (s.geyPre i o x) (s.geyPkt i o x b last lo hi (hi - lo))
  let t := if out then t.geyAnchored i else t
  if last then (t.geyNext i none).geyPass i (o.p + o.q - x.n) else t.geyNext i (some { x with off := x.off + b.length })

/-- The rest of the first channel's words comes out of the queue of stream `i` unsent, and its samples are declared LINK (R298), unless a
lasting error declares them on the way. -/
def State.geySkip (s : State) (i : Nat) (x : CapChan) : State :=
  let (lost, s) := s.geyTake i x (x.bytes.length - x.off)
  if lost then s else s.geyDrop i causeLink

/-- The next packet of a compressed channel (R297); one that is not written ends the channel's stream (R298). -/
def State.geyComp (s : State) (i : Nat) (o : CapOut) (x : CapChan) : State :=
  let b := sub x.bytes x.off (s.getF (F.STR_SIZE_PAYLOAD i))
  let last := decide (x.bytes.length ≤ x.off + b.length)
  let hi := o.first + x.n
  let y := { x with off := x.off + b.length }
  let p := if last then s.geyPkt i o x b true o.first hi (o.p + o.q) else s.geyPkt i o x b false hi hi 0
  let (out, t) := s.commitTry (s.geyPre i o x) p
  let t := if out then t.geyAnchored i else t
  if last then t.geyNext i none
  else if out then t.geyNext i (some y)
  else (t.geyNext i (some y)).geySkip i y

/-- GEYSER_PACKET_BUILD: the next packet of the capture at the head of stream `i`'s outputs, at the reserved rate (R60). A channel with
nothing to send has no packet. A frame whose words are lost on their way is rewound (R236). -/
def State.geyBuild (s : State) (i : Nat) : State :=
  let st := s.str i
  if s.strKind i = 4 ∧ st.active = true ∧ s.halted = false ∧ s.paced i = true then
    match st.gey with
    | [] => s
    | o :: _ =>
      match o.chans with
      | [] => s.geyNext i none
      | x :: _ =>
        if x.n = 0 then (s.geyNext i none).geyPass i (o.p + o.q)
        else
          let (lost, s) := s.geyTake i x (min (s.getF (F.STR_SIZE_PAYLOAD i)) (x.bytes.length - x.off))
          if lost then s.bump (F.FLW_FQ_REWINDS_COUNT (s.fqOf i))
          else (if o.comp then s.geyComp i o x else s.geyPlain i o x).wqFill i 0
  else s

def execGeyserPacketBuild (i : Fin 64) (s : State) : Host.Outcome State Fault Refusal := .next (s.geyBuild i)

/-! ### Re-form (R276) -/

/-- Hub jobs stop, and what their captures and outputs still hold is declared REFORM. -/
def State.sntHubReform (s : State) : State :=
  let s := (List.range 4).foldl (fun s l => if s.laneSt l = 1 then (s.freeCtx (s.getF (F.SNT_LANE_CTX l))).laneFree l else s) s
  let s := (List.range 64).foldl (fun s i =>
    let st := s.str i
    let left := fun (o : CapOut) (x : CapChan) =>
      let lo := if o.comp then o.first else o.first + x.off / o.b
      (holes lo (o.first + x.n) (sortRuns x.lost)).map (fun z => (⟨x.ch, causeReform, o.cap, z.1, z.2 - 1⟩ : GapRun))
    let rs := st.gey.flatMap (fun o => o.chans.flatMap (left o))
    let s := rs.foldl (fun s r => s.declare i r) s
    s.updStr i (fun x => { x with gey := [] })) s
  let s := s.trg.caps.foldl (fun s k => if k.state ≤ 1 then s.capAll k causeReform else s) s
  let gone := s.trg.caps.map (fun (k : Capture) => { k with state := 3 })
  ({ s with trg := { s.trg with caps := gone } }).capFree 8

/-! ### A reset of the engine (R276) -/

/-- What the output of capture `id` of stream `i` still holds is declared under `cause`, and its channels send nothing more. -/
def State.hubLose (s : State) (i id cause : Nat) : State :=
  let begun := match (s.str i).gey with
    | o :: _ => o.cap == id && (match o.chans with | x :: _ => x.off != 0 | [] => false)
    | [] => false
  let s := if begun then s.geyDrop i cause else s
  let rest := fun (o : CapOut) (x : CapChan) =>
    (holes o.first (o.first + x.n) (sortRuns x.lost)).map (fun z => (⟨x.ch, cause, o.cap, z.1, z.2 - 1⟩ : GapRun))
  let mine := (s.str i).gey.filter (fun (o : CapOut) => o.cap == id)
  let s := (mine.flatMap (fun (o : CapOut) => o.chans.flatMap (rest o))).foldl (fun (s : State) (r : GapRun) => s.declare i r) s
  let none_ := fun (o : CapOut) => { o with chans := o.chans.map (fun (x : CapChan) => { x with n := 0, bytes := [], off := 0 }) }
  s.updStr i (fun st => { st with gey := st.gey.map (fun (o : CapOut) => if o.cap = id then none_ o else o) })

/-- The hub jobs that run are abandoned: what their captures still had to deliver is declared LINK, and their space returns (DESIGN
CHOICE, assumption log 88: R276 names no cause). -/
def State.sntHubLose (s : State) : State :=
  ((List.range 4).foldl (fun (s : State) l =>
    match s.snt.caps.getD l none with
    | some id =>
      if s.laneSt l = 1 then (s.hubLose (s.getF (F.SNT_LANE_STREAM l)) id causeLink).updCap id (fun x => { x with state := 3 }) else s
    | none => s) s).capFree 8

/-! ### FAILBACK (R303) -/

/-- FAILBACK: STR_CTRL[i].FAILBACK = 1, its settings fields as they stand. -/
def execFailback (id : Ident) (i : Fin 64) (s : State) : Host.Outcome State Fault Refusal :=
  .next (s.gated id (R.STR_CTRL i) (s.cmdWord (R.STR_CTRL i) 0x80000000#32) (fun s => s.failbackReq i))

end Sys2Proof.Machine
end

