-- ==== Sys2Proof/Machine/Network.lean ====
section
/-!
DEFINITION. Machine/Network.lean: links, training, received and host-sent frames, the path-delay step detector and
TIME_SUSPECT (R302-R333).
-/

namespace Sys2Proof.Machine

/-! ### Links (R308, R332) -/

/-- Mode of port `p` (R307). -/
def State.portMode (s : State) (p : Nat) : Nat := s.getF (F.NET_PORT_INFO_MODE p)

/-- LINK_UP: the PCS has held lock and alignment for 10 ms. The recovered clock is present and NET_PHASE is current. -/
def State.linkRise (s : State) (p : Nat) : State :=
  let ok := decide (s.portMode p ≠ 0) && !s.linkUp p && !(s.port p).failed &&
    !s.bit (F.NET_PORT_STATUS_TRAINING p) && s.domOn 10
  if ok then
    let was := s
    let s := (s.setF (F.NET_PORT_STATUS_LINK_UP p) 1).setF (F.NET_PORT_STATUS_RCLK_OK p) 1
    let s := (s.setF (F.NET_PORT_STATUS_LOCAL_FAULT p) 0).setF (F.NET_PORT_STATUS_REMOTE_FAULT p) 0
    let t := (s.setF (F.NET_PHASE_VALID p) 1).updPort p (fun x => { x with wasUp := true })
    (t.emit 0 0x0D01 (pw p)).clkMove was
  else s

def execLinkUp (p : Fin 4) (s : State) : Host.Outcome State Fault Refusal := .next (s.linkRise p)

/-- The first SN of the next frame that stream `i` commits: of the first complete or open frame that holds a sample, of the open frame
that the next instant belongs to, or of the instants to come; 0 for the next run; of a capture's next packet; an ordinal (DEDUCED,
assumption log 87). -/
def State.nextFirst (s : State) (i : Nat) : Nat :=
  let st := s.str i
  if !st.active || s.bit (F.STR_STATUS_END_SENT i) then 0
  else if s.strKind i = 5 then st.ordinal
  else if s.strKind i = 4 then
    match st.gey with
    | o :: _ => match o.chans with | x :: _ => o.first + (if o.comp then 0 else x.off / max 1 o.b) | [] => o.first
    | [] => match s.trg.caps.find? (fun k => k.stream == i && decide (k.state ≤ 1)) with
      | some k => k.first
      | none => match st.lastSn with | some n => n + 1 | none => 0
  else
    let span := max 1 (s.getF (F.STR_SIZE_INSTANTS i) * s.strD i)
    match st.insts.find? (fun x => x.vals.any (fun v => !v.isDecl)) with
    | some x => ((st.insts.find? (fun y => y.sn / span == x.sn / span)).getD x).sn
    | none => match st.lastSn with
      | some n => ((st.insts.find? (fun y => y.sn / span == (n + s.strD i) / span)).map (·.sn)).getD (n + s.strD i)
      | none => 0

/-- The port that stream `i` fails over to from its current one: the failover port, or from there the primary (R302). -/
def State.otherPort (s : State) (i : Nat) : Nat :=
  if s.bit (F.STR_STATUS_ON_FO i) then s.getF (F.STR_DEF_PORT i) else s.getF (F.STR_DEF_FO_PORT i)

/-- Stream `i` on the fallen port `p` moves to its other port, if that one is up, also between runs: its frames there are declared LINK
(R302). `cut` is the number of its frames that were being sent and are discarded already. -/
def State.failover (s : State) (p i cut : Nat) : State :=
  let q := s.otherPort i
  if s.strKind i != 0 && s.getF (F.STR_STATUS_PORT_NOW i) == p && s.bit (F.STR_DEF_FO_EN i) && q != p && s.linkUp q then
    let (mine, s) := s.takeOut i (s.fqOf i)
    let n := (mine.filter (fun x => x.kind == 0 || x.kind == 5)).length + cut
    let s := s.loseAll causeLink mine
    let s := s.setF (F.STR_STATUS_PORT_NOW i) q
    let s := s.setB (F.STR_STATUS_ON_FO i) (q != s.getF (F.STR_DEF_PORT i))
    let s := s.setF (F.STR_STATUS_FAILOVER i) 1
    s.emit 0 0x0C03 (pw i ++ pw p ++ pw q ++ pw n ++ psn (s.nextFirst i))
  else if (s.str i).active && s.getF (F.STR_STATUS_PORT_NOW i) == p && (s.str i).ending.isSome then
    s.updStr i (fun x => { x with drainFrom := some s.tick })
  else s

/-- The frame that port `p` was sending is discarded: a stream packet is declared LINK (R286), one that counts as sent
already stays at the head of its queue, a reply is lost. The stream whose DATA or FUMAROLE frame was cut. -/
def State.cutSending (s : State) (p : Nat) : Option Nat × State :=
  match (s.port p).sending with
  | none => (none, s)
  | some (.reply _) => (none, s.updPort p (fun x => { x with sending := none }))
  | some (.packet k pk _ held) =>
    let n := 4 * p + k
    let s := s.updPort p (fun x => { x with sending := none })
    if pk.frozen.isSome then (none, s.updFq n (fun l => pk :: l))
    else
      let s := if held then (s.fqRelease n pk).fqTrim n else s
      (if pk.kind = 0 ∨ pk.kind = 5 then some pk.stream else none, s.loseSent causeLink pk)

/-- A request to return to a primary port that has fallen is cancelled (R303). -/
def State.cancelFailback (s : State) (p : Nat) : State :=
  (List.range 64).foldl (fun s i =>
    if s.getF (F.STR_DEF_PORT i) = p then s.setF (F.STR_STATUS_FAILBACK_PENDING i) 0 else s) s

/-- LINK_UP of port `p` falls: bits, counter, record, retraining (R308, R309). `why`: 0 alignment, 1 local, 2 remote fault. -/
def State.linkBits (s : State) (p why : Nat) : State :=
  let s := (s.setF (F.NET_PORT_STATUS_LINK_UP p) 0).setF (F.NET_PORT_STATUS_RCLK_OK p) 0
  let s := if why = 1 then s.setF (F.NET_PORT_STATUS_LOCAL_FAULT p) 1
    else if why = 2 then s.setF (F.NET_PORT_STATUS_REMOTE_FAULT p) 1 else s
  let s := (s.setF (F.NET_PHASE_VALID p) 0).bump (F.NET_LINK_DOWNS_COUNT p)
  let s := (s.emit 0 0x0D02 (pw p)).worked 10
  if s.bit (F.NET_PORT_CTRL_TRAIN p) then
    (s.setF (F.NET_PORT_STATUS_TRAINING p) 1).updPort p (fun x => { x with trainFail := false })
  else s

/-- What follows the fall of port `p`: its frame is cut, requests to return to it are cancelled, its streams fail over. -/
def State.linkFell (s : State) (p : Nat) : State :=
  let (cut, s) := s.cutSending p
  let s := s.cancelFailback p
  (List.range 64).foldl (fun s i => s.failover p i (if cut = some i then 1 else 0)) s

/-- LINK_DOWN of the ports that fall in one F-cycle. -/
def State.linksFall (s : State) (ports : List Nat) (why : Nat) : State :=
  let ps := (List.range 4).filter (fun p => ports.contains p && s.linkUp p)
  let t := (ps.foldl (fun s p => s.linkBits p why) s).clkMove s
  ps.foldl State.linkFell t

def execLinkDown (ports : List (Fin 4)) (why : Fin 3) (s : State) : Host.Outcome State Fault Refusal :=
  .next (s.linksFall (ports.map Fin.val) why)

/-! ### Training (R309), restart and re-adaptation (R310) -/

/-- TRAINING_COMPLETE: a first failure repeats the run; the outcome of the second is transient or lasting. -/
def State.trained (s : State) (p : Nat) (ok : Bool) : State :=
  if s.bit (F.NET_PORT_STATUS_TRAINING p) then
    let again := (s.port p).trainFail
    if ok then
      let s := (s.setF (F.NET_PORT_STATUS_TRAINING p) 0).updPort p (fun x => { x with trainFail := false })
      if again then (s.bump (F.NET_TRAIN_TRANS_COUNT p)).mntFault 5 true p else s
    else if again then
      let s := (s.setF (F.NET_PORT_STATUS_TRAINING p) 0).updPort p (fun x => { x with trainFail := false, failed := true })
      let s := (s.bump (F.NET_TRAIN_LASTING_COUNT p)).setF (F.NET_PORT_STATUS_LINK_FAIL p) 1
      (s.emit 0 0x0D03 (pw p)).mntFault 5 false p
    else s.updPort p (fun x => { x with trainFail := true })
  else s

def execTrainingComplete (p : Fin 4) (ok : Bool) (s : State) : Host.Outcome State Fault Refusal := .next (s.trained p ok)

/-- A port starts: with TRAIN = 1 it trains, with TRAIN = 0 it takes its factory equaliser setting (R307). -/
def State.portStart (s : State) (p : Nat) : State :=
  let s := s.updPort p (fun x => { x with trainFail := false, failed := false })
  if s.portMode p ≠ 0 ∧ s.bit (F.NET_PORT_CTRL_TRAIN p) then s.setF (F.NET_PORT_STATUS_TRAINING p) 1
  else s.setF (F.NET_PORT_STATUS_TRAINING p) 0

/-- PORT_RESTART: LINK_FAIL clears, the link falls where it was up, and the port starts again. -/
def State.restartPort (s : State) (p : Nat) : State :=
  ((s.linksFall [p] 0).setF (F.NET_PORT_STATUS_LINK_FAIL p) 0).portStart p

def execPortRestart (id : Ident) (p : Fin 4) (s : State) : Host.Outcome State Fault Refusal :=
  .next (s.gated id (R.NET_PORT_CTRL p) (s.cmdWord (R.NET_PORT_CTRL p) 2#32) (·.restartPort p))

/-- SERDES_READAPT: submits the re-adaptation of port `p`. -/
def State.readapt (s : State) (p : Nat) : State := s.submit actReadapt p 0

def execSerdesReadapt (id : Ident) (p : Fin 4) (s : State) : Host.Outcome State Fault Refusal :=
  .next (s.gated id (R.NET_PORT_CTRL p) (s.cmdWord (R.NET_PORT_CTRL p) 4#32) (·.readapt p))

/-- READAPT_DONE ends the activity where it runs. -/
def State.readaptEnd (s : State) (p : Nat) : State := if s.runs actReadapt p then s.endAct actReadapt p else s

def execReadaptDone (p : Fin 4) (s : State) : Host.Outcome State Fault Refusal := .next (s.readaptEnd p)

/-! ### FRAME_RECEIVE (R316-R318, R330, R352) -/

/-- A Damuf frame for port `p` (R316). -/
def State.isDamuf (s : State) (p : Nat) (b : List Byte) : Bool :=
  s.bit F.NET_DMF_CTRL_EN && (s.getF F.NET_DMF_CTRL_PORTS).testBit p && isUdp b && s.toPortIp p b &&
    udpDst b == s.getF F.NET_DMF_CTRL_UDP

/-- Is the Damuf agent there (R330)? Not in the bare state, and not during the load pass of a re-form. -/
def State.dmfUp (s : State) : Bool := s.image.isSome && s.reform.phase != 3

def dmfLen (u : List Byte) : Nat := leAt u 6 2

/-- Is the size of a Damuf frame accepted: 64 bytes at least, and 64 + LEN (R326)? -/
def dmfSized (u : List Byte) : Bool := decide (64 ≤ u.length) && u.length == 64 + dmfLen u

/-- Why a request is not accepted. -/
inductive DmfFail where
  | auth | replay | drop
deriving DecidableEq, Repr

/-- The counter of a failure. -/
def DmfFail.counter : DmfFail → Fld
  | .auth => F.NET_DMF_AUTHFAIL_COUNT
  | .replay => F.NET_DMF_REPLAY_COUNT
  | .drop => F.NET_DMF_DROP_COUNT

/-- A frame fails: it is counted, and the first failure since its counter was read is recorded with the port, the source IP address (one
word, or four for IPv6, most significant first) and the reason, to which the spec gives no number. -/
def State.dmfFailed (s : State) (p : Nat) (b : List Byte) (w : DmfFail) : State :=
  (s.bump w.counter).firstOf w.counter.off (fun s =>
    let (v, s) := s.free
    s.emit 0 0x0D05 (pw p ++ wordsOfBe (ipSrc b) ++ pw v))

/-- A Damuf frame of an accepted size joins the agent's queue of 16; every other one is dropped (R326, R330). -/
def State.dmfTake (s : State) (p : Nat) (b : List Byte) : State :=
  if !s.dmfUp then s.bump F.NET_DMF_DROP_COUNT
  else if !dmfSized (udpPayload b) then s.dmfFailed p b .drop
  else if s.dmfQ.length < 16 then { s with dmfQ := s.dmfQ ++ [(p, b)] }
  else s.bump F.NET_DMF_DROP_COUNT

/-- A frame goes to the host receive ring of its port, or is dropped there (R352). `t` is its stamp. -/
def State.rxToRing (s : State) (p : Nat) (b : List Byte) (t : Nat) : State :=
  let f := b2n ((s.getF F.HIF_RX_ROUTE_FN).testBit p)
  let r := 4 + p
  match (s.ring f r).posted with
  | [] => s.bump (F.HIF_RING_DROP_COUNT f r)
  | e :: rest =>
    if !s.ringOn f r then s.bump (F.HIF_RING_DROP_COUNT f r)
    else if e.bad then (s.bump (F.HIF_RING_DROP_COUNT f r)).ringStop f r 2
    else if leAt e.desc 8 4 < b.length then s.bump (F.HIF_RING_DROP_COUNT f r)
    else
      let s := s.updRing f r (fun x => { x with posted := rest })
      let s := s.obsv (.hostWrite f (leAt e.desc 0 8) b)
      let (wb, s) := s.wbWords 0 (some t) (lo32 b.length)
      let s := s.obsv (.hostWrite f (s.entryAddr f r e.idx) wb)
      let s := (s.bump (F.NET_RX_HOST_COUNT p)).obsv (.rx f p b)
      s.ringDone f r e.idx

/-- FRAME_RECEIVE: `bytes` from the destination MAC to the FCS, the message time-stamp point at `sub` / 2^16 of the tick. -/
def State.frameReceive (s : State) (p sub : Nat) (bytes : List Byte) : State :=
  let n := bytes.length
  let b := bytes.take (n - 4)
  let good := decide (4 ≤ n) && leAt bytes (n - 4) 4 == (crc32 b).toNat
  if !s.linkUp p then s
  else if !good then s.bump (F.NET_RX_FCS_COUNT p)
  else if 9216 < n then s.bump (F.NET_RX_OVERSIZE_COUNT p)
  else if etherType b = 0x8808 then s.bump (F.NET_RX_CTRL_COUNT p)
  else
    let t := s.stamp sub (s.getI (F.NET_ASYM_RX_ASYM p))
    let s := s.ptpRx p b (stamp16 t)
    if s.isDamuf p b then s.dmfTake p b
    else if s.rxEnabled p b && s.toPortMac p b then s.rxToRing p b t
    else s.bump (F.NET_RX_DROP_COUNT p)

def execFrameReceive (p : Fin 4) (sub : Fin 65536) (bytes : List Byte) (s : State) : Host.Outcome State Fault Refusal :=
  .next (s.frameReceive p sub bytes)

/-! ### HOST_FRAME_TRANSMIT (R314, R315, R318, R319, R351) -/

/-- Does frame `h` stand first among the transmit candidates of port `p` (R314)? -/
def State.hostTurn (s : State) (p : Nat) (h : HostFrame) : Bool :=
  decide (0 < s.allowance p) &&
  (h.prio || h.promoted ||
    (!s.hostFirst p && decide ((s.port p).replies = []) && (s.halted || (List.range 4).all (fun k => decide (s.fqAlive (4 * p + k) = [])))))

/-- Removes the first frame of function `f` with ring index `i` from the port's list. -/
def dropHost (f i : Nat) (l : List HostFrame) : List HostFrame := l.filter (fun h => !(h.fn == f && h.idx == i))

/-- Completes TX entry `h` of port `p` with a status and, where `t` is given, a valid stamp. -/
def State.txDone (s : State) (p : Nat) (h : HostFrame) (status : Nat) (t : Option Nat) : State :=
  let s := s.updPort p (fun x => { x with hostQ := dropHost h.fn h.idx x.hostQ })
  let (wb, s) := s.wbWords status t h.tag
  let s := s.obsv (.hostWrite h.fn (s.entryAddr h.fn p h.idx) wb)
  s.ringDone h.fn p h.idx

/-- The frame that leaves: padded to 60 bytes, with its FCS. -/
def hostWire (b : List Byte) : List Byte :=
  let b := padTo 60 b
  b ++ leBytes 4 (crc32 b).toNat

/-- HOST_FRAME_TRANSMIT: the head frame of function `f` for port `p` is sent, or reported as an error. `cut`: the link falls
during the frame, which is then not sent. -/
def State.hostFrameTransmit (s : State) (f p sub : Nat) (cut : Bool) : State :=
  match s.hostHead f p with
  | none => s
  | some h =>
    if s.linkUp p && (s.port p).sending.isNone && s.ringOn f p then
      if h.bad then ((s.txDone p h 3 none).ringStop f p 2)
      else if !h.lenOk then s.txDone p h 1 none
      else if !s.hostTurn p h then s
      else
        let allow := s.allowance p
        let charge : State → Nat → State := fun s n =>
          s.updPort p (fun x => { x with allowance := allow - (8 * n : Nat), allowTick := s.tick })
        let hErr := h.oneStep && decide (h.len < h.hdr + 44)
        let t := s.stamp sub (s.getI (F.NET_ASYM_TX_ASYM p))
        if cut then s.txDone p h (if hErr then 2 else 0) none
        else
          let b := if h.oneStep && !hErr then oneStepFrame h.bytes h.hdr t else h.bytes
          let w := hostWire b
          let s := (charge s w.length).bump (F.NET_TX_HOST_COUNT p)
          let s := (s.obsv (.frame p w)).ptpTx p b (stamp16 t)
          s.txDone p h (if hErr then 2 else 0) (if h.tsReq || h.oneStep then some t else none)
    else s

def execHostFrameTransmit (f : Fin 2) (p : Fin 4) (sub : Fin 65536) (cut : Bool) (s : State) :
    Host.Outcome State Fault Refusal :=
  .next (s.hostFrameTransmit f p sub cut)

/-- HOST_FRAME_PROMOTION: the PRIO 0 frames of port `p` that have waited 1 ms move to position 1. -/
def State.promote (s : State) (p : Nat) : State :=
  s.updPort p (fun x => { x with
    hostQ := x.hostQ.map (fun h => if h.since + 500000 ≤ s.tick then { h with promoted := true } else h) })

def execHostFramePromotion (p : Fin 4) (s : State) : Host.Outcome State Fault Refusal := .next (s.promote p)

/-! ### PD_MEASUREMENT (R322-R324) -/

/-- A 64-bit signed value as two payload words. -/
def psn64 (z : Int) : List Word := psn (ofSigned 64 z)

/-- A step was detected on port `p`. -/
def State.pdStep (s : State) (p : Nat) (old m : Int) : State :=
  let s := (s.setF F.NET_TS_STATUS_SUSPECT 1).setF F.NET_TS_STATUS_SRC (s.getF F.NET_TS_STATUS_SRC ||| 2 ^ p)
  let s := s.bump (F.NET_PD_STEPS_COUNT p)
  s.emit 0 0x0D04 (pw p ++ psn64 old ++ psn64 m)

/-- PD_MEASUREMENT: a complete measurement updates R or counts as an outlier. -/
def State.pdMeasure (s : State) (p : Nat) : State :=
  let x := (s.port p).ptp
  match x.meas with
  | [] => s
  | m :: t =>
    let s := s.updPtp p (fun x => { x with meas := t })
    let s := (s.bump (F.NET_PD_COUNT_COUNT p)).wr64 (R.NET_PD_MPD_LO p) (R.NET_PD_MPD_HI p) (ofSigned 64 m)
    let setR := fun (s : State) (r : Int) (o : Nat) =>
      (s.updPtp p (fun x => { x with run := some r, outliers := o })).wr64 (R.NET_PD_RUN_LO p) (R.NET_PD_RUN_HI p) (ofSigned 64 r)
    match x.run with
    | none => setR s m 0
    | some r =>
      if (m - r).natAbs ≤ s.getF (F.NET_PD_THR_THR p) then
        setR s (r + (m - r).tdiv (2 ^ s.getF (F.NET_PTP_CTRL_AVG p) : Nat)) 0
      else if s.getF (F.NET_PTP_CTRL_CONSEC p) ≤ x.outliers + 1 then setR (s.pdStep p r m) m 0
      else s.updPtp p (fun x => { x with outliers := x.outliers + 1 })

def execPdMeasurement (p : Fin 4) (s : State) : Host.Outcome State Fault Refusal := .next (s.pdMeasure p)

/-- SUSPECT_SET. -/
def State.suspectSet (s : State) : State := s.setF F.NET_TS_STATUS_SUSPECT 1

def execSuspectSet (id : Ident) (s : State) : Host.Outcome State Fault Refusal :=
  .next (s.gated id R.NET_TS_STATUS 2#32 State.suspectSet)

/-- SUSPECT_ACK: SUSPECT and SRC clear. -/
def State.suspectAck (s : State) : State := (s.setF F.NET_TS_STATUS_SUSPECT 0).setF F.NET_TS_STATUS_SRC 0

def execSuspectAck (id : Ident) (s : State) : Host.Outcome State Fault Refusal :=
  .next (s.gated id R.NET_TS_STATUS 1#32 State.suspectAck)

end Sys2Proof.Machine
end

