-- ==== Sys2Proof/Machine/LoadOps.lean ====
section
/-!
DEFINITION. Machine/LoadOps.lean: what a cold start, a re-form and a warm reset share when an image is put into use: reading
flash, choosing a slot, the binding table, quadrant power, queues, ports and the PLL (R55, R68, R74, R75, R116, R228, R463).
-/

namespace Sys2Proof.Machine

/-! ### Reading a target (R67, R68, R416) -/

/-- The reads of slot `i`: `gl` names the slots whose reads fail twice (1, 2) or once (11, 12). -/
def State.readFlash (s : State) (i : Nat) (gl : List Nat) : Bool × State :=
  if gl.contains i then (true, s.mntFault 2 false (slotAddr i))
  else if gl.contains (10 + i) then (false, s.mntFault 2 true (slotAddr i))
  else (false, s)

/-- The check of a source: slot 1 or 2, or the host buffer (3), which cannot be read without the link or where `gl` names it. A
slot map or section of flash that fails its check is a lasting outcome (R416). `gl` may also name what coming writes meet. -/
def State.checkTarget (s : State) (slot : Nat) (gl : List Nat) (container : List Byte) : (Nat × Nat × Option Image) × State :=
  if slot = 3 then (s.checkBuffer container (!s.host.linkUp || gl.contains 3), s)
  else
    let (bad, s) := s.readFlash slot gl
    let c := s.checkSlot slot bad
    (c, if c.1 = 0x0C ∧ (c.2.1 = 0x14 ∨ c.2.1 = 0x0B) then s.mntFault 2 false (slotAddr slot) else s)

/-- The first of the slots that passes, as R68 tries them; IMG_CHECK shows each outcome. -/
def State.firstGood (s : State) (gl : List Nat) : List Nat → Option (Nat × Image) × State
  | [] => (none, s)
  | i :: t =>
    let (c, s) := s.checkTarget i gl []
    let s := s.showCheck c.1 c.2.1 i
    match c.2.2 with
    | some m => (some (i, m), s)
    | none => s.firstGood gl t

/-! ### Image-loaded state -/

/-- The binding table comes from the first image after a cold reset and then stays; a later image that differs sets
MBXT_DEFERRED (R55, R357). -/
def State.bindTable (s : State) (m : Image) : State :=
  let b := fun (n : Nat) => m.mbxt.getD n ⟨0, 0⟩
  if s.bit F.MBX_INFO_LOCKED then
    s.setB F.IMG_STATUS_MBXT_DEFERRED
      ((List.range 24).any (fun n => s.getF (F.MBX_BIND_A n) != (b n).endA || s.getF (F.MBX_BIND_B n) != (b n).endB))
  else
    let s := (List.range 24).foldl (fun s n => (s.setF (F.MBX_BIND_A n) (b n).endA).setF (F.MBX_BIND_B n) (b n).endB) s
    let bound := maskNat ((List.range 24).filter (fun n => decide ((b n).endA ≠ 0) && decide ((b n).endB ≠ 0)))
    (s.setF F.MBX_INFO_BOUND bound).setF F.MBX_INFO_LOCKED 1

/-- Frame queues start empty with full credit (R233); credit follows FLW_FQ_LIMIT in force. -/
def State.fqStart (s : State) : State :=
  (List.range 16).foldl State.fqFresh { s with fqs := List.replicate 16 [], fqHeld := List.replicate 16 none }

/-- Word queues start empty. -/
def State.wqStart (s : State) : State :=
  (List.range 512).foldl (fun s n => s.setF (F.FLW_WQ_STATUS_DISCARDING n) 0) { s with wqs := List.replicate 512 WordQueue.reset }

/-- Every stream of image `m` stands on its primary port. -/
def State.primaries (s : State) (m : Image) : State :=
  m.defined.foldl (fun s i =>
    ((s.setF (F.STR_STATUS_PORT_NOW i) (m.stream i).port).setF (F.STR_STATUS_ON_FO i) 0).setF (F.STR_STATUS_FAILBACK_PENDING i) 0) s

/-- No run's settings are left in the sample path; the words that the conditioning holds stay. -/
def State.pathStart (s : State) : State :=
  { s with path := { PathState.reset with chans := s.path.chans.map (fun x =>
    { ChanPath.reset with raw := x.raw, clean := x.clean, aligned := x.aligned, past := x.past }) } }

/-- The chains start afresh on bank 0 (R166). The conditioning goes on: what it holds is not cleared (R128). -/
def State.chainsStart (s : State) : State :=
  let s := (List.range 256).foldl (fun s c =>
    ((s.setF (F.FIR_BANK_SEL_SEL c) 0).showBank c).setF (F.FIR_STATUS_SETTLING c) 0) s
  s.pathStart

/-- The chains start afresh on the banks in use, which a warm reset keeps (R166). -/
def State.chainsKeep (s : State) : State := ((List.range 4).foldl State.showBanks s).pathStart

/-- Sample memory is ON and filled with zeros (R228, step 4 of R74); powering the domain resets what it holds (R375). -/
def State.memStart (s : State) : State :=
  let s := if s.domState 9 = 2 then s else s.regsReset (inDom 9)
  let s := (s.setDom 9 2).memZero
  { s with snt := { s.snt with ctxs := s.snt.ctxs.map (fun x => { x with used := false }) } }

/-- Image `m` of source `slot` is put into use: every "img" field, the routing and the zero-fill. -/
def State.imageIn (s : State) (m : Image) (slot : Nat) : State :=
  let s := ((s.putImage m).setF F.IMG_STATUS_SLOT slot).setF F.IMG_STATUS_STATE 1
  (((s.bindTable m).wqStart.primaries m).chainsStart).memStart

/-- The bare state (R68): no image, no stream, AFE, DSP and MEM domains off. -/
def State.bareIn (s : State) : State :=
  let s := ({ s with image := none }).putFields imgMask []
  let s := (List.range 4).foldl (fun s q => ((s.setF (qOn q) 0).setDom (1 + q) 0).setDom (5 + q) 0) s
  (((s.setDom 9 0).memZero).wqStart.fqStart).chainsStart

/-- What follows the settings in force: frame-queue credit, the weight bank in use, the trigger conditions. -/
def State.settled (s : State) : State :=
  let s := s.fqStart.setF F.BMF_STATUS_IN_USE (s.getF F.BMF_BANK_SEL_SEL)
  let s := { s with trg := { TrigState.reset with outs := s.trg.outs, tiLast := s.trg.tiLast } }
  (s.condsPrefill).setF F.TRG_INFO_IN_FLIGHT 0

/-- A quadrant that is no longer wanted turns off; background calibration of its groups pauses (R125). -/
def State.quadDrop (s : State) (q : Nat) : State :=
  let s := ((List.range 4).map (· + 4 * q)).foldl (fun s g =>
    if s.runs actBgcal g then (s.pauseBg g).setPaused actBgcal g true else s) s
  ((s.setF (qOn q) 0).setDom (1 + q) 0).setDom (5 + q) 0

/-- Quadrants in use with REQ = 1 are powered with their factors, also those newly in use, where `used` were before (R74); all others
are off (R88, R116). The REQ bit of a quadrant newly in use is written to 1 (DESIGN CHOICE, assumption log 89: R74 powers its domains,
R75 keeps the settings). -/
def State.powerQuads (s : State) (used : Nat) : State :=
  ((List.range 4).foldl (fun s q =>
    let s := if s.quadsUsed.testBit q && !used.testBit q then s.setF (qReq q) 1 else s
    if s.quadsUsed.testBit q && s.getF (qReq q) == 1 then s.quadRise q
    else if s.getF (qOn q) = 1 then s.quadDrop q else s) s).showCal

/-- Ports whose mode has changed restart; the others keep their link. -/
def State.portsAfter (s : State) (modes : List Nat) : State :=
  (List.range 4).foldl (fun s p => if s.portMode p = modes.getD p 0 then s else s.restartPort p) s

/-- The port modes in force. -/
def State.portModes (s : State) : List Nat := (List.range 4).map s.portMode

/-- R463: a setting that differs from the one in use, or one in use that the image no longer allows, is committed; a refusal
leaves the PLL stopped. -/
def State.pllRecommit (s : State) : State :=
  let c := s.rd R.AFE_PLL_CFG
  let f := s.rd R.AFE_PLL_FB
  let i := s.rd R.AFE_PLL_FBINT
  let old := s.pllErr true s.conv.cfg s.conv.fb s.conv.fbint
  if c ≠ s.conv.cfg ∨ f ≠ s.conv.fb ∨ i ≠ s.conv.fbint ∨ old = 5 ∨ old = 6 then
    if s.pllErr true c f i = 0 then s.pllTake
    else
      let s := (s.pllGo true).setF F.AFE_PLL_STATUS_LOCKED 0
      { s with conv := { s.conv with stuck := true } }
  else s

/-- Settings of a re-form onto `m` (R75): kept under the same SETSCHEMA version, else DEFAULTS. -/
def State.keepOrDefault (s : State) (same : Bool) : State :=
  if same then s else s.takeDefaults.setF F.IMG_STATUS_DEFAULTS_USED 1

/-- Does the image in use have the SETSCHEMA version of `m`? -/
def State.sameSchema (s : State) (m : Image) : Bool := match s.image with | some o => o.schema == m.schema | none => false

end Sys2Proof.Machine
end

