-- ==== Sys2Proof/Machine/Trigger.lean ====
section
/-!
DEFINITION. Machine/Trigger.lean: trigger inputs, conditions, decisions, capture admission and trigger outputs (R187-R208).
-/

namespace Sys2Proof.Machine

/-! ### TRIGIN_EDGE and TRG_FORCE (R190, R192) -/

/-- Does EDGE select the edge? -/
def edgeSel (edge : Nat) (rise : Bool) : Bool := if rise then edge % 2 == 1 else edge / 2 % 2 == 1

/-- TRIGIN_EDGE: an edge at `f` / 128 of the tick is stamped, or counted as missed within 8 ticks of the last one. -/
def State.triginEdge (s : State) (n : Nat) (rise : Bool) (f : Nat) : State :=
  if s.bit (F.TRG_TI_CTRL_EN n) && edgeSel (s.getF (F.TRG_TI_CTRL_EDGE n)) rise then
    let near := match s.trg.tiLast.getD n none with | some k => decide (s.tick < k + 8) | none => false
    if near then s.bump (F.TRG_TI_MISSED_COUNT n)
    else
      let s := { s with trg := { s.trg with tiLast := updAt (fun _ => some s.tick) s.trg.tiLast n } }
      let s := s.bump (F.TRG_TI_COUNT_COUNT n)
      let t : Int := (s.now + f % 128 * s.incrNow / 128 : Nat)
      s.eventTrigger 1 n (t - (s.getF (F.TRG_TI_CABLE_CABLE n) * 2 ^ 52 : Nat))
  else s

def execTriginEdge (n : Fin 4) (rise : Bool) (f : Nat) (s : State) : Host.Outcome State Fault Refusal :=
  .next (s.triginEdge n rise f)

/-- TRG_FORCE: a HOST trigger whose decision label is the label of the S-cycle that the write reaches. -/
def State.trgForce (s : State) (n : Nat) : State :=
  if s.getF (F.TRG_TC_CTRL_SRC n) ≠ 4 then s.setF F.TRG_STATUS_FORCE_IGN 1
  else if (s.runSt = 3 ∨ s.draining = true) ∧ 115 ≤ s.label then
    { s with trg := { s.trg with met := s.trg.met ++ [⟨4, n, s.label - 115, s.label, false⟩] } }
  else s

def execTrgForce (id : Ident) (n : Fin 8) (s : State) : Host.Outcome State Fault Refusal :=
  .next (s.gated id (R.TRG_TC_FORCE n) 1#32 (·.trgForce n))

/-! ### Conditions at a label (R191, R193, R206) -/

/-- The 256-bit mask at `off` as it stood at label `n`. -/
def State.maskAt (s : State) (n off : Nat) : List Nat := maskList ((List.range 8).map (fun k => s.rdAt n (off + 4 * k)))

/-- The last landing at or before `n` of one of the registers of `offs`. -/
def lastLanding (n : Nat) (offs : List Nat) (log : List (Nat × Nat × Word)) : Option Nat :=
  (log.find? (fun e => decide (e.1 ≤ n) && offs.contains e.2.1)).map (·.1)

/-- The registers of condition `i` whose landing moves its count floor. -/
def condOffs (i : Nat) : List Nat := [R.TRG_TC_CTRL i, R.TRG_TC_WIN i] ++ (List.range 8).map (fun k => R.TRG_TC_MASK i k)

/-- The count floor of condition `i` as it holds at label `n` (R191). -/
def State.floorAt (s : State) (i n : Nat) : Int :=
  let f := (s.trg.conds.getD i TrigCond.reset).floor
  let r : Int := match s.trg.starts.find? (fun x => decide (x.2 ≤ n)) with | some x => (x.2 : Int) - 1 | none => -1
  let a : Int := match lastLanding n (condOffs i) s.setLog with | some a => (a : Int) - 1 | none => -1
  max f (max r a)

/-- Is COINC condition `i` met at label `n`? -/
def State.coincMet (s : State) (i n : Nat) : Bool :=
  if s.getFAt n (F.TRG_TC_CTRL_EN i) == 1 && s.getFAt n (F.TRG_TC_CTRL_SRC i) == 0 then
    let e := s.getFAt n (F.TRG_TC_CTRL_ED i)
    let k := s.maskAt n (R.TRG_TC_MASK i 0)
    let lo : Int := max ((n : Int) - s.getFAt n (F.TRG_TC_WIN_M i) + 1) (s.floorAt i n + 1)
    let evs := fun c => (s.trg.dets.getD (2 * c + e) Detector.reset).events
    let here := k.any (fun c => (evs c).contains n)
    let cnt := (k.filter (fun c => (evs c).any (fun l => decide (lo ≤ (l : Int)) && decide (l ≤ n)))).length
    here && decide (lo ≤ (n : Int)) && decide (s.getFAt n (F.TRG_TC_CTRL_N i) ≤ cnt)
  else false

/-- The COINC conditions met at label `n`. -/
def State.coincAt (s : State) (n : Nat) : List Nat := (List.range 8).filter (fun i => s.coincMet i n)

/-- The first label from `n` on, among `k`, with a COINC condition met. -/
def State.coincNext (s : State) : Nat → Nat → Option Nat
  | _, 0 => none
  | n, k + 1 => if (s.coincAt n).isEmpty then s.coincNext (n + 1) k else some n

/-- Is `n` a label of a debug halt span, from h to r - 1 (R208, R346)? -/
def State.haltLabel (s : State) (n : Nat) : Bool :=
  s.dbg.spans.any (fun p => decide (p.1 ≤ n) && (match p.2 with | none => true | some r => decide (n < r)))

/-- Is label `n` evaluated by the run (R98, R208)? -/
def State.evaluated (s : State) (n : Nat) : Bool := s.produced n && !s.haltLabel n

/-- The conditions that an event or HOST trigger meets, with the settings at its SN. -/
def State.metConds (s : State) (t : TrigMet) : List Nat :=
  (List.range 8).filter (fun i =>
    s.getFAt t.sn (F.TRG_TC_CTRL_EN i) == 1 && s.getFAt t.sn (F.TRG_TC_CTRL_SRC i) == t.src &&
    (if t.src = 4 then i == t.sel else s.getFAt t.sn (F.TRG_TC_CTRL_SEL i) == t.sel))

/-! ### Suppression and hold-off (R194-R196) -/

def State.updCond (s : State) (i : Nat) (f : TrigCond → TrigCond) : State :=
  { s with trg := { s.trg with conds := updAt f s.trg.conds i } }
def State.cond (s : State) (i : Nat) : TrigCond := s.trg.conds.getD i TrigCond.reset

/-- One suppression of condition `i`: cause 0 PREFILL, 1 HOLDOFF, 2 POOL_FULL, 3 INFLIGHT. -/
def State.suppress (s : State) (i cause n j : Nat) (clamp : Bool) : State :=
  let s := (s.bump (F.TRG_TC_SUPP_COUNT i cause)).bpTrig i j true
  s.emit 0 0x0A02 (pw (i + cause * 16 + b2n clamp * 64) ++ psn n ++ pw (j - n) ++ pw (s.getF (F.TRG_TC_SUPP_COUNT i cause)))

/-- The label after `n` at which EN of condition `i` landed 0 first, if one has landed: a hold-off ends there (R194). -/
def State.offAfter (s : State) (i n : Nat) : Option Nat :=
  (s.setLog.filter (fun e => e.2.1 == R.TRG_TC_CTRL i && decide (n < e.1) && s.getFAt e.1 (F.TRG_TC_CTRL_EN i) == 0)).foldl
    (fun a e => some (match a with | some k => min k e.1 | none => e.1)) none

/-- Does the hold-off by events of condition `i` stand at SN `n`? -/
def State.skips (s : State) (i n : Nat) : Bool :=
  let x := s.cond i
  decide (0 < x.skip) && (match s.offAfter i x.skipOf with | some a => decide (n < a) | none => true)

/-- Is label `n` in PREFILL for a pre-trigger depth `p` (R194): below r0 + P of the ring start it belongs to, or after a resume that the
ring has not followed? -/
def State.prefillAt (s : State) (n p : Nat) : Bool :=
  match s.trg.starts.find? (fun x => decide (x.2 ≤ n)) with
  | some x => decide (n < x.2 + p) ||
      s.dbg.spans.any (fun h => match h.2 with | some r => decide (x.2 < r) && decide (r ≤ n) | none => false)
  | none => true

/-- The cause under which condition `i` is suppressed at SN `n` on its own account, if it is. -/
def State.condBlocked (s : State) (i n : Nat) : Option Nat :=
  let held := (s.cond i).hold.any (fun h => decide (h.1 ≤ n) && decide (n ≤ h.2))
  if s.prefillAt n (s.getFAt n (F.TRG_PF_PRE_P i)) then some 0 else if held || s.skips i n then some 1 else none

/-- Does a hold-off by time of condition `i` still run at the current label? -/
def State.held (s : State) (i : Nat) : Bool := (s.cond i).hold.any (fun h => decide (s.label ≤ h.2))

/-- HOLDOFF while a hold-off runs, READY otherwise. -/
def State.heldState (s : State) (i : Nat) : Nat := if s.held i || s.skips i s.label then 3 else 2

/-- A trigger skipped by a hold-off by events counts it down. -/
def State.skipOne (s : State) (i : Nat) : State :=
  let k := (s.cond i).skip
  if 0 < k then
    let on := s.skips i s.label
    let s := s.updCond i (fun x => { x with skip := k - 1 })
    let s := if on then s.setF (F.TRG_TC_STATE_EVLEFT i) (min 65535 (k - 1)) else s
    if on && k = 1 then s.setF (F.TRG_TC_STATE_STATE i) (s.heldState i) else s
  else s

/-- Condition `i` fires at SN `n`. A hold-off by time adds its span to those in progress. Where EN has landed 0 since, the hold-off has
ended there (R194, R195). -/
def State.fire (s : State) (i n : Nat) : State :=
  let s := (s.bump (F.TRG_TC_FIRED_COUNT i)).wr64 (R.TRG_TC_LAST_LO i) (R.TRG_TC_LAST_HI i) n
  let hold := s.getFAt n (F.TRG_TC_HOLD_HOLD i)
  let off := s.offAfter i n
  if hold = 0 then s
  else
    let s := if off.isSome then s else s.setF (F.TRG_TC_STATE_STATE i) 3
    if s.getFAt n (F.TRG_TC_HOLD_HMODE i) = 0 then
      let z := match off with | some a => min (n + hold) (a - 1) | none => n + hold
      s.updCond i (fun x => { x with hold := (n + 1, z) :: x.hold.filter (fun h => decide (s.label ≤ h.2 + 4096)) })
    else if off.isSome && decide (0 < (s.cond i).skip) && decide (n < (s.cond i).skipOf) then s
    else
      let s := s.updCond i (fun x => { x with skip := hold, skipOf := n })
      if off.isSome then s else s.setF (F.TRG_TC_STATE_EVLEFT i) (min 65535 hold)

/-! ### Admission (R197-R201) -/

/-- The capture of the candidates `cands` at SN `n`: the lowest one's profile with the union of the masks. -/
def State.capOf (s : State) (cands : List Nat) (n : Nat) : Capture :=
  let i := cands.headD 0
  let chans := (List.range 256).filter (fun c => cands.any (fun k => (s.maskAt n (R.TRG_PF_MASK k 0)).contains c))
  let ring8 := s.ringB == 1
  let fmt := s.getFAt n (F.TRG_PF_CFG_FMT i)
  let p := s.getFAt n (F.TRG_PF_PRE_P i)
  let q := s.getFAt n (F.TRG_PF_POST_Q i)
  let b := if ring8 || fmt == 1 then 1 else 2
  { id := s.getF F.TRG_CAPTURES_COUNT % 65536, sn := n, p := p, q := q, chans := chans, b := b, b8conv := !ring8 && fmt == 1,
    csh := s.getFAt n (F.TRG_PF_CFG_CSH i), stream := s.getFAt n (F.TRG_PF_CFG_STREAM i),
    size := chans.length * ceil64 ((p + q) * b), off := s.getF F.MEM_POOL_WR_WR, written := 0, lost := [], state := 0, copyEnd := 0,
    reform := match s.reform.snr with | some r => decide (r ≤ s.label) | none => false
    anchor := (s.time.anchors.take 4).find? (fun a => decide (a.sn ≤ n - p)) }

/-- Admission: pool space, counters, production, and the pre-trigger copy; a capture decided at or after SN_r copies nothing
and is declared REFORM in full (R208). -/
def State.admitCap (s : State) (k : Capture) : State :=
  let s := { s with trg := { s.trg with caps := s.trg.caps ++ [k] } }
  let s := s.setF F.TRG_POOL_FREE_FREE (s.getF F.TRG_POOL_FREE_FREE - k.size / 64)
  let s := (s.bump F.TRG_INFO_IN_FLIGHT).bump F.TRG_CAPTURES_COUNT
  let size := max 1 (s.poolSize / 64)
  let s := s.setF F.MEM_POOL_WR_WR ((k.off + k.size / 64) % size)
  let last := k.first + k.len - 1
  let s := s.updStr k.stream (fun x =>
    if x.active then { x with produced := x.produced + k.len * k.chans.length, lastSn := some last } else x)
  if k.reform then (s.capRest k causeReform (k.first + k.len)).updCap k.id (fun x => { x with state := 3 })
  else
    let s := (s.capPad k).copyPre k
    match s.run.endSn with
    | some z => s.capsStop z
    | none => s

/-! ### TRIGOUT (R203) -/

/-- The firing of the conditions `mask` at SN `n`, decided at `j`, reaches the outputs; whether one of them is late. -/
def State.trigOuts (s : State) (mask n j : Nat) : Bool × State :=
  let late := decide (n + 115 < j)
  let at_ := s.run.cyc0 + (if late then j + 13 else n + 128)
  let on := (List.range 4).filter (fun o =>
    s.getFAt n (F.TRG_TO_CTRL_EN o) == 1 && decide (s.getFAt n (F.TRG_TO_CTRL_CONDS o) &&& mask ≠ 0))
  let s := on.foldl (fun s o =>
    let w := s.getFAt n (F.TRG_TO_CTRL_WIDTH o)
    { s with trg := { s.trg with outs := updAt (fun x => { x with leads := x.leads ++ [(at_, w)] }) s.trg.outs o } }) s
  (late && !on.isEmpty, s)

/-! ### TRIGGER_DECISION (R193, R196, R202, R204) -/

/-- One trigger: the conditions `met` with SN `n` and decision label `j`. -/
def State.decide1 (s : State) (met : List Nat) (n j : Nat) (clamp : Bool) : State :=
  let s := met.foldl (fun s i => s.updCond i (fun x => { x with floor := n })) s
  let blocked := met.filterMap (fun i => (s.condBlocked i n).map (fun c => (i, c)))
  let cands := met.filter (fun i => (s.condBlocked i n).isNone)
  let s := blocked.foldl (fun s ic => let s := s.suppress ic.1 ic.2 n j clamp
    if ic.2 = 1 then s.skipOne ic.1 else s) s
  match cands with
  | [] => s
  | i0 :: _ =>
    let k := s.capOf cands n
    let full : Option Nat :=
      if k.chans.isEmpty then none
      else if 8 ≤ s.trg.caps.length then some 3
      else if s.getF F.TRG_POOL_FREE_FREE * 64 < k.size then some 2
      else none
    match full with
    | some cause => cands.foldl (fun s i => s.suppress i cause n j clamp) s
    | none =>
      let has := !k.chans.isEmpty
      let s := if has then s.admitCap k else s
      let s := cands.foldl (fun s i => (s.fire i n).bpTrig i j false) s
      let (late, s) := s.trigOuts (maskNat cands) n j
      let s := s.emit 0 0x0A01
        (pw (maskNat cands + maskNat met * 2 ^ 8 + i0 * 2 ^ 16 + b2n has * 2 ^ 19 + b2n clamp * 2 ^ 20 + b2n late * 2 ^ 21) ++
         psn n ++ pw (j - n + (if has then k.id else 0) * 2 ^ 16) ++
         pw (k.chans.length + (2 - k.b) * 2 ^ 9 + k.stream * 2 ^ 10 + s.getF F.TRG_INFO_IN_FLIGHT * 2 ^ 16) ++
         pw k.p ++ pw k.q ++ pw (s.getF F.TRG_POOL_FREE_FREE))
      s.capFree 8

/-- Numbers in ascending order without repeats. -/
def sortNat (l : List Nat) : List Nat :=
  let top := l.foldl max 0
  (List.range (top + 1)).filter (fun i => l.contains i)

/-- The triggers of decision label `j`, in ascending SN. -/
def State.decideAt (s : State) (j : Nat) (ext : List TrigMet) (coinc : List Nat) : State :=
  let l := ext.map (fun t => (t.sn, s.metConds t, t.clamp)) ++ (if coinc.isEmpty then [] else [(j - 115, coinc, false)])
  let l := l.filter (fun t => s.evaluated t.1 && !t.2.1.isEmpty)
  let sns := l.foldl (fun a t => if a.contains t.1 then a else a ++ [t.1]) []
  let sns := (sns.map (fun (n : Nat) => (n : Int)))
  (sortI sns).foldl (fun s z =>
    let n := z.toNat
    let g := l.filter (fun t => t.1 == n)
    s.decide1 (sortNat (g.flatMap (·.2.1))) n j (g.any (·.2.2))) s

/-- The earliest decision label of the waiting triggers. -/
def firstJ : List TrigMet → Option Nat
  | [] => none
  | t :: r => match firstJ r with | none => some t.j | some j => some (min t.j j)

/-- TRIGGER_DECISION: the triggers of the earliest decision label that has come are decided. Halted hubs wait (R208). -/
def State.trigDecide (s : State) : State :=
  if s.run.running && !s.halted then
    let m := s.label
    let ext := (firstJ s.trg.met).filter (fun j => decide (j ≤ m))
    let co := s.coincNext s.trg.nextN (m + 1 - 115 - s.trg.nextN)
    let pick : Option Nat := match ext, co with
      | none, none => none
      | some j, none => some j
      | none, some n => some (n + 115)
      | some j, some n => some (min j (n + 115))
    match pick with
    | none => { s with trg := { s.trg with nextN := max s.trg.nextN (m + 1 - 115) } }
    | some j =>
      let here := s.trg.met.filter (fun t => t.j == j)
      let cs := if co = some (j - 115) then s.coincAt (j - 115) else []
      let s := { s with trg := { s.trg with met := s.trg.met.filter (fun t => t.j != j), nextN := max s.trg.nextN (j + 1 - 115) } }
      s.decideAt j here cs
  else s

def execTriggerDecision (s : State) : Host.Outcome State Fault Refusal := .next s.trigDecide

/-! ### PREFILL_END and HOLDOFF_END (R194, R195) -/

/-- PREFILL_END of condition `n`, once the label has reached r0 + P. A hold-off by time that a halt met keeps its span (R195). -/
def State.prefillEnd (s : State) (n : Nat) : State :=
  match s.trg.r0 with
  | none => s
  | some r =>
    if s.run.running && s.getF (F.TRG_TC_STATE_STATE n) == 1 && decide (r + s.getF (F.TRG_PF_PRE_P n) ≤ s.label) then
      s.setF (F.TRG_TC_STATE_STATE n) (s.heldState n)
    else s

def execPrefillEnd (n : Fin 8) (s : State) : Host.Outcome State Fault Refusal := .next (s.prefillEnd n)

/-- HOLDOFF_END of condition `n`, once the label has passed every span of its hold-offs by time. -/
def State.holdoffEnd (s : State) (n : Nat) : State :=
  if s.getF (F.TRG_TC_STATE_STATE n) == 3 && decide ((s.cond n).skip = 0) && decide ((s.cond n).hold ≠ []) && !s.held n then
    s.setF (F.TRG_TC_STATE_STATE n) 2
  else s

def execHoldoffEnd (n : Fin 8) (s : State) : Host.Outcome State Fault Refusal := .next (s.holdoffEnd n)

/-! ### TRIGOUT edges (R203) -/

/-- The pulse of output `o` ends where its last S-cycle has passed. -/
def State.pulseEnd (s : State) (o at_ : Nat) : State :=
  match (s.trg.outs.getD o TrigOut.reset).endAt with
  | none => s
  | some e =>
    if e ≤ at_ then (s.updOut o (fun x => { x with endAt := none })).pinEdge s (.trigout o) e 0 else s

/-- TRIGOUT_LEADING_EDGE: the first edge that is due starts a pulse, or extends the active one. A disabled output keeps its inactive
level (R446). -/
def State.toLead (s : State) (o : Nat) : State :=
  match (s.trg.outs.getD o TrigOut.reset).leads with
  | [] => s
  | (l, w) :: t =>
    if l < s.run.scyc then
      let s := s.pulseEnd o l
      let s := s.updOut o (fun x => { x with leads := t })
      if !s.bit (F.TRG_TO_CTRL_EN o) then s
      else match (s.trg.outs.getD o TrigOut.reset).endAt with
      | some e => (s.updOut o (fun x => { x with endAt := some (max e (l + w)) })).bump (F.TRG_TO_MERGED_COUNT o)
      | none =>
        ((s.updOut o (fun x => { x with endAt := some (l + w) })).bump (F.TRG_TO_COUNT_COUNT o)).pinEdge s (.trigout o) l 0
    else s

def execTrigoutLeadingEdge (n : Fin 4) (s : State) : Host.Outcome State Fault Refusal := .next (s.toLead n)

/-- TRIGOUT_PULSE_END. -/
def execTrigoutPulseEnd (n : Fin 4) (s : State) : Host.Outcome State Fault Refusal := .next (s.pulseEnd n (s.run.scyc - 1))

end Sys2Proof.Machine
end

