-- ==== Sys2Proof/Machine/SamplePath.lean ====
section
/-!
DEFINITION. Machine/SamplePath.lean: SAMPLING_EDGE: one sample per converter moves through the conditioning, detectors, ring
writer, chains, beams and continuous streams (R8, R21, R98, R127-R190, R216, R217).

A word is computed in the S-cycle in which it leaves its stage, from the words that the stage holds, with the settings in
force at its label.
-/

namespace Sys2Proof.Machine

/-! ### Edge detectors (R187-R189) -/

/-- The registers of detector `e` of channel `c`. -/
def edOffs (c e : Nat) : List Nat := [R.TRG_ED_CTRL c e, R.TRG_ED_LEVEL c e, R.TRG_ED_HYST c e]

/-- Did a landing at exactly label `n` change one of `offs`? -/
def State.landedAt (s : State) (n : Nat) (offs : List Nat) : Bool := s.setLog.any (fun e => e.1 == n && offs.contains e.2.1)

/-- A detector reads `v` at label `n`: whether an event occurs, and its new flags (R188). -/
def detStep (slope : Nat) (l h v : Int) (x : Detector) : Bool × Detector :=
  let up := slope == 0 || slope == 2
  let dn := slope == 1 || slope == 2
  let evR := up && x.rise && decide (l < v)
  let evF := dn && x.fall && decide (v < l)
  let rise := if !up then x.rise else if evR then false else x.rise || decide (v ≤ l - h)
  let fall := if !dn then x.fall else if evF then false else x.fall || decide (l + h ≤ v)
  (evR || evF, { x with rise := rise, fall := fall })

/-- Detector `e` of channel `c` at label `n`. Its flags are cleared at a landing of its registers and at a ring start (R189). -/
def State.detect (s : State) (m n c e : Nat) : State :=
  let i := 2 * c + e
  let s := if s.landedAt n (edOffs c e) || s.trg.starts.any (fun x => x.2 == n) then
      { s with trg := { s.trg with dets := updAt (fun x => { x with rise := false, fall := false }) s.trg.dets i } }
    else s
  let tap := s.getFAt n (F.TRG_ED_CTRL_TAP c e)
  if s.getFAt n (F.TRG_ED_CTRL_EN c e) == 1 && s.tapOk tap c n then
    let x := s.tapWord tap c m n
    let v := if s.getFAt n (F.TRG_ED_CTRL_ABS c e) = 1 then ((x.natAbs : Nat) : Int) else x
    let (ev, d) := detStep (s.getFAt n (F.TRG_ED_CTRL_SLOPE c e)) (toSigned 17 (s.getFAt n (F.TRG_ED_LEVEL_L c e)))
      ((s.getFAt n (F.TRG_ED_HYST_H c e) : Nat) : Int) v (s.trg.dets.getD i Detector.reset)
    let d := if ev then { d with events := n :: d.events.takeWhile (fun k => decide (n < k + 8400)) } else d
    let s := { s with trg := { s.trg with dets := updAt (fun _ => d) s.trg.dets i } }
    if ev then s.bump (F.TRG_ED_COUNT_COUNT c e) else s
  else s

/-- The first label after the last halt of the run; those before it were read as the halt began. -/
def State.resumedFrom (s : State) : Nat := (s.dbg.spans.filterMap (·.2)).headD 0

/-- Every detector at label `n`, where the newest sampling edge is labelled `m` and `left` tells which taps its word has left; halted
labels and those past the end are not evaluated (R98, R208). -/
def State.detectAt (s : State) (m n : Nat) (left : Nat → Bool) : State :=
  if s.resumedFrom ≤ n ∧ s.produced n = true then
    (List.range 512).foldl (fun s i =>
      if s.quadOn (i / 128) && left (s.getFAt n (F.TRG_ED_CTRL_TAP (i / 2) (i % 2))) then s.detect m n (i / 2) (i % 2) else s) s
  else s

/-- Every detector at the label whose ALIGNED word leaves its tap now. -/
def State.detectAll (s : State) (m : Nat) : State := if 51 ≤ m then s.detectAt m (m - 51) (fun _ => true) else s

/-- The path stops after the edge labelled `m`: labels whose RAW or CLEAN word has left its tap, and whose ALIGNED word has not,
are read by the detectors on those taps. -/
def State.detectRest (s : State) (m : Nat) : State :=
  (List.range 24).foldl (fun s k => if 50 ≤ m + k then s.detectAt m (m + k - 50) (fun t => decide (m + k - 50 + tapLat t ≤ m)) else s) s

/-! ### The ring writer (R194, R216, R217) -/

/-- The ring starts at label `r0`: at SN 0 and after a halt. MEM_RING_HEAD is the first label of the block in progress (R216). -/
def State.ringStart (s : State) (r0 : Nat) : State :=
  let s := { s with trg := { s.trg with r0 := some r0, starts := (s.path.ringNext, r0) :: s.trg.starts } }
  let s := { s with path := { s.path with ringNext := r0 } }
  let s := s.wr64 R.MEM_RING_HEAD_LO R.MEM_RING_HEAD_HI (r0 / s.ringS * s.ringS)
  s.wr64 R.TRG_RING_START_LO R.TRG_RING_START_HI r0

/-- After a resume the ring starts at the first label whose word at the ring tap is valid for every ring channel; the words of
admitted captures below it are declared HALT, and every enabled condition is in PREFILL again. Where S_stop lies below that label,
words past it are declared STOP (R28, R432) and the ring does not start again. -/
def State.ringResume (s : State) (m : Nat) : State :=
  let tap := s.getF F.TRG_INFO_RING_TAP
  if s.trg.r0.isNone && decide (tapLat tap ≤ m) then
    let n := m - tapLat tap
    if s.ringChans.all (fun c => s.tapOk tap c n) then
      match s.lastLabel with
      | some z =>
        if z < n then (s.capsLose causeHalt (z + 1)).capsStop z else ((s.capsLose causeHalt n).ringStart n).condsPrefill
      | none => ((s.capsLose causeHalt n).ringStart n).condsPrefill
    else s
  else s

/-- The ring takes the word that leaves its tap now; after S_stop what is left of the block is written, and the words of
captures past it are declared STOP. -/
def State.ringStep (s : State) (m : Nat) : State :=
  let lat := tapLat (s.getF F.TRG_INFO_RING_TAP)
  if s.trg.r0.isSome && decide (lat ≤ m) then
    let n := m - lat
    match s.lastLabel with
    | none => s.ringBlocks m (n + 1)
    | some z =>
      if n < z then s.ringBlocks m (n + 1)
      else if s.path.ringNext ≤ z then ((s.ringBlocks m (z + 1)).ringFlush m (z + 1)).capsStop z
      else s.capsStop z
  else s

/-! ### HALT at the chain output (R174) -/

/-- A clear point in its place among the others, newest first. -/
def insClear (v : Nat) : List Nat → List Nat
  | [] => [v]
  | a :: t => if v ≤ a then a :: insClear v t else v :: a :: t

/-- The first valid ALIGNED word of channel `c` after a resume, labelled `n`, clears the chain memories; the HALT span ends S
labels later. A structure swap that landed after `n` clears them again at its own label (R168). -/
def State.haltOver (s : State) (n c : Nat) : State :=
  match (s.chanPath c).halts with
  | (h, fin) :: t =>
    if fin = allOnes64 ∧ s.tapOk 2 c n then
      s.updChan c (fun x => { x with halts := (h, n + cfgS (s.cfgAt c n)) :: t, clears := insClear n x.clears })
    else s
  | [] => s

/-! ### Continuous streams (R21, R280) -/

/-- Latency of the point that stream `i` reads (R69). -/
def State.strLat (s : State) (i : Nat) : Nat :=
  match s.strKind i with
  | 1 => tapLat (s.getF (F.STR_DEF_TAP i))
  | 2 => s.getF F.IMG_LAT_CHAIN_LAT
  | _ => s.getF F.IMG_LAT_BEAM_LAT

/-- Is content of the chain output of `c` at `n` from the spare (R123)? -/
def State.spareChain (s : State) (c n : Nat) : Bool := s.spareAt c n (cfgS (s.cfgAt c n))

/-- The source-sample of source `j` of stream `i` at instant `n`. -/
def State.srcVal (s : State) (i m n j : Nat) : SrcVal :=
  match s.strKind i with
  | 1 =>
    let tap := s.getF (F.STR_DEF_TAP i)
    let sp := s.spareAt j n 0
    if s.tapOk tap j n then .val [s.tapWord tap j m n] sp else .decl causeHalt sp
  | 2 =>
    let sp := s.spareChain j n
    match (s.chanPath j).withheld n with
    | some c => .decl c sp
    | none => .val (s.chainVal j m n) sp
  | _ =>
    let sp := (s.contributors j n).any (fun c => s.spareChain c n)
    match s.beamCause j n with
    | some c => .decl c sp
    | none => .val ((s.beamAt j m n).map (satW 16)) sp

/-- Stream `i` produces the instant `n`. -/
def State.produce (s : State) (i m n : Nat) : State :=
  let vals := (s.strSrc i).map (s.srcVal i m n)
  s.updStr i (fun x => { x with
    produced := x.produced + vals.length, declared := x.declared + (vals.filter SrcVal.isDecl).length
    insts := x.insts ++ [⟨n, vals⟩], lastSn := some n })

/-- Stream `i` as the sampling edge labelled `m` passes: the instant that leaves its point now is produced, and after the last
one at or before S_stop production ends (R21). -/
def State.streamStep (s : State) (m i : Nat) : State :=
  if s.strCont i && (s.str i).active && (s.str i).ending.isNone && decide (s.strLat i ≤ m) then
    let n := m - s.strLat i
    let s := if s.produced n && n % max 1 (s.strD i) == 0 && s.strExists i then s.produce i m n else s
    match s.run.endSn with
    | some z => if z ≤ n then s.updStr i (fun x => { x with ending := some 0, drainFrom := some s.tick }) else s
    | none => s
  else s

/-! ### The debug halt in the sample path (R425, R426, R429) -/

/-- The chain output of `c` is halted from the first instant at or after h - IMG_LAT_CHAIN; a span that no valid word has ended
yet goes on. -/
def State.haltChain (s : State) (h c : Nat) : State :=
  if (s.chanPath c).halts.any (fun p => p.2 == allOnes64) then s
  else s.updChan c (fun x => { x with halts := (h - s.getF F.IMG_LAT_CHAIN_LAT, allOnes64) :: x.halts })

/-- The sample path freezes at the S-cycle labelled `h` of a run: the detectors read what has left their taps, the ring writer stops
at the first halted label or after S_stop, and the chain outputs are halted. -/
def State.haltPath (s : State) (h : Nat) : State :=
  let lat := tapLat (s.getF F.TRG_INFO_RING_TAP)
  let s := if 0 < h then s.detectRest (h - 1) else s
  let hi := match s.lastLabel with | some z => min (h - lat) (z + 1) | none => h - lat
  let s := if s.trg.r0.isSome && decide (lat ≤ h) then s.ringFlush (h - 1) hi else s
  let s := { s with trg := { s.trg with r0 := none } }
  (List.range 256).foldl (fun s c => s.haltChain h c) s

/-- Does the word `w` meet the condition of the SAMPLE breakpoint `b`? -/
def State.bpMeets (s : State) (b : Nat) (w : Int) : Bool :=
  let v := s.getF (F.DBG_BP_VALUE_VALUE b) % 65536
  let masked := (ofSigned 16 w) &&& (s.getF (F.DBG_BP_VALUE_VALUE b) / 65536)
  match s.getF (F.DBG_BP_CTRL_COND b) with
  | 0 => masked == v
  | 1 => masked != v
  | 2 => decide (toSigned 16 v < w)
  | _ => decide (w < toSigned 16 v)

/-- The SAMPLE breakpoint `b` looks at the word that leaves its tap at the edge labelled `m`. -/
def State.bpSample (s : State) (m b : Nat) : State :=
  let tap := s.getF (F.DBG_BP_CTRL_TAP b)
  let c := s.getF (F.DBG_BP_SEL_SEL b)
  let n := m - tapLat tap
  if s.bit (F.DBG_BP_CTRL_EN b) && tap != 3 && decide (c < 256) && s.quadOn (c / 64) && decide (tapLat tap ≤ m) && s.produced n &&
      s.bpMeets b (s.tapWord tap c m n) then
    s.bpNote 0 (fun k => k == b) n (some (n + tapLat tap + 2))
  else s

/-! ### SAMPLING_EDGE -/

/-- Counters of every chain as its words leave. -/
def State.chainCounts (s : State) (m : Nat) : State :=
  let lat := s.getF F.IMG_LAT_CHAIN_LAT
  if lat ≤ m ∧ s.produced (m - lat) = true then
    (List.range 256).foldl (fun s c => if s.quadOn (c / 64) then s.chainCount m (m - lat) c else s) s
  else s

/-- Counters of every beam as its instant leaves. -/
def State.beamCounts (s : State) (m : Nat) (frozen : Bool) : State :=
  let lat := s.getF F.IMG_LAT_BEAM_LAT
  if s.bit F.BMF_STATUS_PRESENT && decide (lat ≤ m) && s.produced (m - lat) && (m - lat) % max 1 (s.getF F.BMF_FMT_D) == 0 then
    (List.range 16).foldl (fun s b => s.beamCount m (m - lat) b frozen) s
  else s

/-- What follows the conditioning at the edge labelled `m`, in a run that is not frozen. -/
def State.runStep (s : State) (m : Nat) : State :=
  let s := if 51 ≤ m then (List.range 256).foldl (fun s c => s.haltOver (m - 51) c) s else s
  let s := ((s.ringResume m).detectAll m).ringStep m
  (s.chainCounts m).beamCounts m false

/-- A frozen hub takes a step of one S-cycle (R428): the stages count, nothing is delivered. -/
def State.stepped (s : State) (m : Nat) : State := (s.chainCounts m).beamCounts m false

/-- One unit of a step has elapsed (R428). -/
def State.stepOne (s : State) (now : Bool) : State :=
  if now then { s with dbg := { s.dbg with steps := s.dbg.steps - 1 } } else s

/-- Is the path of a run that has left RUN frozen by a halt that opened no span (R425)? It holds what it has, and goes on at the resume. -/
def State.drainHeld (s : State) : Bool := s.halted && s.run.running && s.runSt != 3 && s.dbg.spans.all (fun x => x.2.isSome)

/-- Has the run reached SN_r? From there every stage stops (R74); the detectors still read the labels below it (R208). -/
def State.pastReform (s : State) (m : Nat) : Bool := match s.reform.snr with | some r => decide (r ≤ m) | none => false

/-- SAMPLING_EDGE (R8, R17, R128): while the PLL is locked, one edge passes. `inp` is the differential input of each channel
and `noise` what each converter adds, in units of 2^-16 code. A landing that is due at the edge's label takes place first. -/
def State.sampleEdge (s : State) (inp noise : List Int) : State :=
  if !s.bit F.AFE_PLL_STATUS_LOCKED then s
  else if s.drainHeld then
    ({ s with run := { s.run with scyc := s.run.scyc + 1 } }).stepOne (decide (0 < s.dbg.steps) && !s.bit F.DBG_CTRL_STEP_UNIT)
  else
    let lab := s.run.running
    let first := lab && decide (s.run.next = 0)
    let s := if first && s.halted then { s with dbg := { s.dbg with spans := [(0, none)] } } else s
    let s := s.applyLanding
    let m := s.run.next
    let stepping := s.halted && decide (0 < s.dbg.steps) && !s.bit F.DBG_CTRL_STEP_UNIT
    let frozen := s.halted && !stepping
    let s := s.stepOne stepping
    let s := if first then ((List.range 256).foldl State.runFirst s).ringStart 0 else s
    let s := if first && s.halted then s.haltPath 0 else s
    let s := (List.range 256).foldl (fun s c => s.condStep inp noise m lab frozen c) s
    let s := if lab && !frozen then (List.range 8).foldl (fun s b => s.bpSample m b) s else s
    let s := { s with run := { s.run with scyc := s.run.scyc + 1, next := if lab then m + 1 else s.run.next } }
    if !lab then s
    else if s.pastReform m then (if frozen then s else s.detectAll m)
    else
      let s := if frozen then s.beamCounts m true else if stepping then s.stepped m else s.runStep m
      (List.range 64).foldl (fun s i => s.streamStep m i) s

def execSamplingEdge (inp noise : List Int) (s : State) : Host.Outcome State Fault Refusal := .next (s.sampleEdge inp noise)

end Sys2Proof.Machine
end

