-- ==== Sys2Proof/Machine/Reform.lean ====
section
/-!
DEFINITION. Machine/Reform.lean: the re-form: its request, its check pass and its load pass, with what an activation and a
fallback do around it (R72-R77, R398, R405-R407, R463).
-/

namespace Sys2Proof.Machine

/-! ### REFORM_REQUEST (R72, R77, R407) -/

/-- A request is queued as activity REFORM. -/
def State.reformAdd (s : State) (r : ReformReq) : State :=
  let s := { s with reform := { s.reform with reqs := s.reform.reqs ++ [r] } }
  (s.setF F.IMG_REFORM_STATUS_PENDING 1).submit actReform 0 0

/-- GO with the SLOT and AT_SN fields as just written. -/
def State.reformGo (s : State) : State :=
  let slot := s.getF F.IMG_REFORM_CTRL_SLOT
  if slot = 0 then s.setF F.IMG_REFORM_STATUS_REFUSED 1
  else if s.updBusy then (s.setF F.IMG_REFORM_STATUS_REFUSED 1).showCheck 0x0C 0x10 slot
  else if 2 ≤ s.reform.reqs.length then s.setF F.IMG_REFORM_STATUS_QUEUE_FULL 1
  else s.reformAdd ⟨slot, s.bit F.IMG_REFORM_CTRL_AT_SN, s.rd64 R.IMG_REFORM_SN_LO R.IMG_REFORM_SN_HI, 0⟩

/-- A write of IMG_REFORM_CTRL. -/
def State.reformWrite (s : State) (v : Word) : State :=
  let s := (s.setF F.IMG_REFORM_CTRL_SLOT (getBits v 0 2)).setF F.IMG_REFORM_CTRL_AT_SN (getBits v 2 1)
  if v.getLsbD 31 then s.reformGo else s

def execReformRequest (id : Ident) (v : Word) (s : State) : Host.Outcome State Fault Refusal :=
  .next (s.gated id R.IMG_REFORM_CTRL v (·.reformWrite v))

/-! ### REFORM_CHECK_PASS_END (R72, R73, R406) -/

/-- The first request is over; PENDING falls with the last. -/
def State.reformOver (s : State) : State :=
  let s := { s with reform := ⟨s.reform.reqs.drop 1, 0, none, none⟩ }
  (s.setB F.IMG_REFORM_STATUS_PENDING (decide (s.reform.reqs ≠ []))).endAct actReform 0

/-- IMG_STATUS.STATE outside a re-form. -/
def State.imgIdle (s : State) : State := s.setF F.IMG_STATUS_STATE (if s.image.isNone then 0 else 1)

/-- A refused target ends the request; an activation returns to STAGED (R398). -/
def State.reformRefuse (s : State) (cause : Nat) : State :=
  let s := s.reformOver.imgIdle.setF F.IMG_REFORM_STATUS_REFUSED 1
  if cause = 1 then
    let (_, s) := s.updJournal 2 s.jActive s.jOther 0xFF
    let o := s.upd.owner
    ({ s with upd := { s.upd with owner := 0, reject := false } }).updTouch.updTo 6 |>.setF F.UPD_SESSION_OWNER o
  else s

/-- SN_r by the run state (R73). Without a run in RUN the load pass starts at once: the run state enters IDLE, and a timed apply is
discarded (R77, R89). -/
def State.chooseSnr (s : State) (r : ReformReq) : State :=
  if s.runSt = 3 then
    let ok := r.atSn && s.notReached r.sn
    let n := if ok then r.sn else s.firstSn
    let s := if r.atSn && !ok then s.setF F.IMG_REFORM_STATUS_LATE 1 else s
    let s := { s with reform := { s.reform with phase := 2, snr := some n } }
    s.imgIdle.wr64 R.IMG_REFORM_AT_LO R.IMG_REFORM_AT_HI n
  else
    let s := { s with reform := { s.reform with phase := 3, snr := none } }
    let s := (s.setF F.IMG_STATUS_STATE 3).wr64 R.IMG_REFORM_AT_LO R.IMG_REFORM_AT_HI allOnes64
    ((s.setF F.AFE_RUN_STATUS_STATE 0).worked 10).applyDiscard

/-- REFORM_CHECK_PASS_END, due once system inflate has had the lane (R275). `gl` names the sources whose reads fail (R416); `container` is what the DMA reads of a host buffer
returned. A fallback tries the slot of ACTIVE and then the trial slot, and ends in the bare state where neither loads; with
no fallback target it goes there at once (R406). -/
def State.checkPassEnd (s : State) (gl : List Nat) (container : List Byte) : State :=
  match s.reform.reqs with
  | [] => s
  | r :: t =>
    if s.reform.phase ≠ 1 ∨ s.sysRuns = false then s
    else
    let s := s.plan gl
    if r.cause = 2 then
      let (x, s) := s.firstGood gl (if s.jActive = 0 then [] else [s.jActive, s.jOther])
      let r := { r with slot := match x with | some y => y.1 | none => 0 }
      let s := { s with reform := { s.reform with reqs := r :: t, target := x.map Prod.snd } }
      s.chooseSnr r
    else
      let (c, s) := s.checkTarget r.slot gl container
      let s := s.showCheck c.1 c.2.1 r.slot
      match c.2.2 with
      | none => s.reformRefuse r.cause
      | some m => ({ s with reform := { s.reform with target := some m } }).chooseSnr r

def execReformCheckPassEnd (glitches : List Nat) (container : List Byte) (s : State) : Host.Outcome State Fault Refusal :=
  .next (s.checkPassEnd glitches container)

/-! ### Steps 1 and 2 of R74: everything stops, is declared and closed -/

/-- Triggers met before SN_r are decided until none is left. -/
def State.decideRest : Nat → State → State
  | 0, s => s
  | n + 1, s =>
    let t := s.trigDecide
    if t.trg.met = s.trg.met ∧ t.trg.nextN = s.trg.nextN then t else State.decideRest n t

/-- Triggers met at an SN below SN_r are decided with their labels past it (R208). -/
def State.decideBefore (s : State) (snr : Nat) : State :=
  let met := s.trg.met.filter (fun x => decide (x.sn < snr))
  let s := { s with trg := { s.trg with met := met } }
  let s := { s with run := { s.run with next := max s.run.next (snr + 117) } }
  State.decideRest (met.length + 200) s

/-- Everything that stream `i` has declared and not reported yet is declared REFORM, the first cause in the order of R28. -/
def State.runsReform (s : State) (i : Nat) : State :=
  let d := s.strD i
  s.updStr i (fun x => { x with runs := x.runs.foldl (fun l r => addRun d { r with cause := causeReform } l) [] })

/-- Packet `p` of stream `i` goes out on its port where the link is up; `follows`: a GAP packet of the stream comes next. A
packet that cannot go out still has its copy in the fumarole stream (R30). -/
def State.sendNow (s : State) (i : Nat) (p : Packet) (follows : Bool) : State :=
  let port := s.getF (F.STR_STATUS_PORT_NOW i)
  if s.linkUp port then
    let c := s.pktCounters p
    let bytes := sentHeader p p.loose.2 (s.nextSeq p) c follows
    let s := s.obsv (.frame port (s.streamFrame port (s.getF (F.STR_DEF_CLASS i)) p.loose.1 p.loose.2 bytes))
    (s.bump (F.NET_TX_FRAMES_COUNT port)).countDelivered p
  else s.copyRec p

/-- GAP packets one after another. -/
def State.sendGaps (s : State) (i : Nat) : List Packet → State
  | [] => s
  | p :: t => (s.sendNow i p (!t.isEmpty)).sendGaps i t

/-- The last GAP packets and the END packet of stream `i` (R74, R290). -/
def State.closeStream (s : State) (i : Nat) : State :=
  let st := s.str i
  if st.active && !s.bit (F.STR_STATUS_END_SENT i) then
    let reason := st.ending.getD (if s.run.endSn.isSome then 0 else 1)
    let gaps := s.lastGaps i
    let s := (s.updStr i (fun x => { x with runs := [] })).sendGaps i gaps
    s.sendNow i (s.endPkt i reason) false
  else s

/-- Stream `i` is inactive; its counters keep their final values (R75). -/
def State.shutStream (s : State) (i : Nat) : State :=
  s.updStr i (fun x => { x with
    active := false, insts := [], runs := [], marks := [], recs := [], recTicks := [], gey := [], ending := none
    endQueued := false, drainFrom := none })

/-- Records on their way reach their queues and the fumarole stream. -/
def State.drainRecs (s : State) : State := (List.range s.recq.length).foldl (fun s _ => s.eventRecord) s

/-- Word queue `n` is flushed at a re-form: one that held entries has its FLUSHED record, and counts unless its discard ran already
(R247, R248). -/
def State.flushWqReform (s : State) (n : Nat) : State :=
  let s := s.bpQueue 0 n 0
  let q := s.wq n
  if q.entries.isEmpty && q.flushes == 0 then s
  else
    let s := if q.flushes = 0 then s.bump (F.FLW_WQ_FLUSHES_COUNT n) else s
    s.flushedRec n 0 (q.flushes + b2n (!q.entries.isEmpty)) flushReform (q.words + q.entries.length) (q.items + packetsOf q.entries)

/-- FLUSHED records of the queues that held entries (R248): frame queues as `held` gives them, then word queues. -/
def State.flushRecs (s : State) (held : List (Nat × Nat × Nat)) : State :=
  let s := (held.filter (fun h => h.2.2 != 0)).foldl (fun s h => s.flushedRec h.1 1 1 flushReform h.2.1 h.2.2) s
  (List.range (s.getF F.FLW_WQ_COUNT_COUNT)).foldl State.flushWqReform s

/-- Steps 1 and 2: `hi` is the first SN that is not produced. What the queues and the pipelines hold is declared REFORM, GAP and END
packets go out, and the queues are flushed (R74, R253). -/
def State.reformStreams (s : State) (hi : Nat) : State :=
  let held := (List.range 16).map (fun n => (n, storedOf (s.fqUnread n)))
  let s := s.sntHostReform.sntHubReform
  let s := (List.range 16).foldl (fun s n => s.fqDiscard n causeReform) s
  let cont := (List.range 64).filter (fun i => s.strKind i != 5)
  let fum := (List.range 64).filter (fun i => s.strKind i == 5)
  let s := cont.foldl (fun s i => ((s.pipeLose causeReform hi i).dropHeld i causeReform).runsReform i) s
  let s := (cont.foldl State.closeStream s).drainRecs
  let s := fum.foldl (fun s i => ((s.dropHeld i causeReform).runsReform i).closeStream i) s
  let s := (List.range 16).foldl (fun s n => (s.bpQueue 1 n 0).fqEmpty n) s
  let s := s.flushRecs held
  (List.range 64).foldl State.shutStream s

/-- The run is over. -/
def State.runOver (s : State) : State :=
  let s := { s with run := { s.run with stopAt := none, endSn := none, running := false, next := 0 }, setLog := [] }
  (((s.setF F.AFE_RUN_STATUS_STATE 0).setF F.AFE_RUN_STATUS_STOP_PENDING 0).setF F.AFE_RUN_STATUS_DRAINING 0).worked 10

/-! ### Steps 3 to 5 of R74 -/

/-- Target `x` of source `slot` comes into use with its settings (R75, R405). -/
def State.reformLoad (s : State) (slot : Nat) (x : Option Image) (cause : Nat) : State :=
  let modes := s.portModes
  let used := s.quadsUsed
  let was := s
  match x with
  | none => (s.bareIn.portsAfter modes).settled
  | some m =>
    let same := s.sameSchema m
    let s := s.imageIn m slot
    let s := if cause = 2 ∧ slot = s.jActive ∧ s.jPre < 2 ∧ (s.setHalf s.jPre).ok = true ∧ (s.setHalf s.jPre).recOk = true then
        s.takeHalf s.jPre
      else s.keepOrDefault same
    let s := s.settingsIn was
    ((s.settled.powerQuads used).pllRecommit).portsAfter modes

/-- REFORM_DONE: the count, the record, and the end of the activity. -/
def State.reformDone (s : State) : State :=
  ((s.bump F.IMG_REFORM_STATUS_REFORMS).emit 0 0x0701 []).reformOver

/-- The trial's window starts (R398, R399); with N = 0 confirmation is decided at once. -/
def State.trialBegins (s : State) : State :=
  let n := match s.image with | some m => healthN m.health | none => 0
  let rej := s.upd.reject
  let strs := s.strs.map (fun (x : StreamState) => { x with lossy := false })
  let s := { s with strs := strs }
  let u := { s.upd with from0 := s.tick, evals := 0, confirm := false, decided := n == 0, degr := false, lasting := false }
  let s := { s with upd := { u with reject := false } }
  let s := (s.setF F.UPD_HEALTH_MET 0).updTo 9
  if rej then s.updFallback 1 else s

/-- The fallback has loaded `slot` (R405, R406): the old slot, the trial slot, or none. -/
def State.fallbackEnds (s : State) (slot cause : Nat) : State :=
  let met := s.getF F.UPD_HEALTH_MET
  let fell := fun (s : State) (failed : Bool) => s.emit 0 0x0708 (pw cause ++ pw met ++ pb failed)
  let s :=
    if slot ≠ 0 ∧ slot ≠ s.jActive then fell (s.updJournal 4 slot slot s.jPre).2 true
    else
      let s := (s.updJournal 5 s.jActive s.jOther s.jPre).2.submitErase
      fell (s.setF F.UPD_STATUS_FELLBACK 1) (slot == 0)
  if s.updOwner = 0 then s else s.updRelease 0

/-- What an activation or a fallback does after its re-form. -/
def State.reformAfter (s : State) (slot cause : Nat) : State :=
  match cause with
  | 1 => s.trialBegins
  | 2 => s.fallbackEnds slot s.upd.cause
  | _ => s

/-- Is the load pass due: SN_r has been reached, no SN exists, or no sampling edge comes any more? -/
def State.loadDue (s : State) : Bool :=
  s.reform.phase == 3 ||
    (s.reform.phase == 2 && (match s.reform.snr with
      | some r => decide (r < s.run.next) || (s.runSt != 3 && !s.bit F.AFE_PLL_STATUS_LOCKED)
      | none => true))

/-- The first SN that the streams of the run do not produce (R21): SN_r, or the one after S_stop where that comes first or the run
has ended and drains. -/
def State.reformEnd (s : State) : Nat :=
  match s.reform.snr, s.lastLabel with
  | some r, some z => min r (z + 1)
  | some r, none => r
  | none, some z => z + 1
  | none, none => 0

/-- REFORM_LOAD_PASS (R74). -/
def State.loadPass (s : State) : State :=
  match s.reform.reqs with
  | [] => s
  | r :: _ =>
    if s.loadDue then
      let x := s.reform.target
      let s := s.setF F.IMG_STATUS_STATE 3
      let s := match s.reform.snr with
        | some n => (s.detectRest s.label).decideBefore n
        | none => s
      let s := (s.reformStreams s.reformEnd).applyDiscard.runOver
      let s := ({ s with reform := { s.reform with phase := 3 } }).pauseAllBg
      (s.reformLoad r.slot x r.cause).reformDone.reformAfter r.slot r.cause
    else s

def execReformLoadPass (s : State) : Host.Outcome State Fault Refusal := .next s.loadPass

end Sys2Proof.Machine
end

