-- ==== Sys2Proof/Machine/Maintenance.lean ====
section
/-!
DEFINITION. Machine/Maintenance.lean: settings saves: by command, by the interval timer, and their commit (R381, R398, R403).
-/

namespace Sys2Proof.Machine

/-- SETSAVE_SUBMIT: PWR_SAVE_CTRL.SAVE, the interval as it stands. -/
def execSetsaveSubmit (id : Ident) (s : State) : Host.Outcome State Fault Refusal :=
  .next (s.gated id R.PWR_SAVE_CTRL (s.cmdWord R.PWR_SAVE_CTRL 1#32) (·.submit actSetsave 0 0))

/-- Ticks of the save interval. -/
def State.saveTicks (s : State) : Nat := s.getF F.PWR_SAVE_CTRL_INTERVAL_MIN * 60 * 500000000

/-- SAVE_INTERVAL_EXPIRY: due every INTERVAL_MIN minutes; 0 disables the timer. -/
def State.saveExpiry (s : State) : State :=
  if s.saveTicks ≠ 0 ∧ s.pwr.saveFrom + s.saveTicks ≤ s.tick then
    ({ s with pwr := { s.pwr with saveFrom := s.pwr.saveFrom + s.saveTicks } }).submit actSetsave 0 0
  else s

def execSaveIntervalExpiry (s : State) : Host.Outcome State Fault Refusal := .next s.saveExpiry

/-- An activation is given up with a code: the session is in STAGED again. -/
def State.activateEnd (s : State) (code : Nat) : State :=
  let o := s.upd.owner
  let s := (({ s with upd := { s.upd with owner := 0 } }).updTouch.updTo 6).setF F.UPD_STATUS_ERR code
  s.setF F.UPD_SESSION_OWNER o

/-- The pre-activation save has ended (R398): TRIAL and the re-form, or back to STAGED with SAVE, or with FLASH where the entry cannot be
written (DESIGN CHOICE, assumption log 29). `h` is the half written. -/
def State.activateSaved (s : State) (h : Nat) (failed : Bool) : State :=
  if s.updSt ≠ 7 then s
  else if failed then s.activateEnd 0x12
  else
    let (ok, s) := s.updJournal 3 (if s.image.isNone then 0 else s.jActive) s.jOther h
    if ok then
      (s.updTo 8).reformAdd ⟨s.jOther, s.bit F.UPD_CTRL_AT_SN, s.rd64 R.IMG_REFORM_SN_LO R.IMG_REFORM_SN_HI, 1⟩
    else s.activateEnd 0x0D

/-- The tag of the save that runs: 1 the erase of R405, 2 the pre-activation save. -/
def State.saveTag (s : State) : Nat := match s.mnt.running.find? (fun y => y.a == actSetsave) with | some y => y.tag | none => 0

/-- SETSAVE_COMMIT: the activity ends; `failures` of its two attempts failed. -/
def State.setsaveCommit (s : State) (failures : Nat) : State :=
  if s.runs actSetsave 0 then
    let tag := s.saveTag
    let h := s.pwr.snapTo
    let s := (if tag = 1 then s else s.saveEnd failures).endAct actSetsave 0
    let busy := (s.mnt.running ++ s.mnt.waiting).any (fun y => y.a == actSetsave && y.tag != 1)
    let s := s.setB F.PWR_SAVE_CTRL_SAVE_BUSY busy
    if tag = 2 then s.activateSaved h (decide (2 ≤ failures)) else s
  else s

def execSetsaveCommit (failures : Nat) (s : State) : Host.Outcome State Fault Refusal := .next (s.setsaveCommit failures)

end Sys2Proof.Machine
end

