-- ==== Sys2Proof/Machine/Update.lean ====
section
/-!
DEFINITION. Machine/Update.lean: the update agent: sessions, delivery, sections, the check of the composed image, activation,
the health window, confirmation and fallback (R384-R407).
-/

namespace Sys2Proof.Machine

/-! ### Sessions (R391) -/

/-- UPD_SESSION_OPEN: a read of UPD_SESSION. -/
def execUpdSessionOpen (id : Ident) (s : State) : Host.Outcome State Fault Refusal :=
  .next (s.reading id R.UPD_SESSION (fun s =>
    let (v, s) := s.gatedRead id R.UPD_SESSION (·.updOpen id)
    s.obsv (.read id.num R.UPD_SESSION v)))

/-- UPD_SESSION_CLOSE: a write of UPD_SESSION. -/
def execUpdSessionClose (id : Ident) (v : Word) (s : State) : Host.Outcome State Fault Refusal :=
  .next (s.gated id R.UPD_SESSION v (·.updClose id v))

/-- UPD_ABORT. -/
def State.updAbort (s : State) (id : Ident) : State := s.updOwned id (fun s => if s.updLive then s.updEnd id.num else s)

def execUpdAbort (id : Ident) (s : State) : Host.Outcome State Fault Refusal :=
  .next (s.gated id R.UPD_CTRL (s.cmdWord R.UPD_CTRL 4#32) (·.updAbort id))

/-- UPD_TIMEOUT: due UPD_TIMEOUT seconds after the last data or command. -/
def State.updTimeout (s : State) : State :=
  if s.updLive && decide (s.upd.last + 500000000 * s.getF F.UPD_TIMEOUT_SEC ≤ s.tick) then s.updEnd 0 else s

def execUpdTimeout (s : State) : Host.Outcome State Fault Refusal := .next s.updTimeout

/-! ### Delivery (R390, R392, R394) -/

/-- The sections that the active slot has and the package does not carry. -/
def State.keptSecs (s : State) (es : List SecEnt) : List SlotSec :=
  if s.image.isNone || !(s.slot s.jActive).mapOk then []
  else (s.slot s.jActive).named.filter (fun x => !es.any (fun e => e.typ == x.typ))

/-- The code of R390 for a package header. -/
def State.packageCode (s : State) (h : List Byte) : Nat :=
  let es := hdrEnts h
  let l := es.map (fun e => secOf e []) ++ s.keptSecs es
  s.headerCode h (decide (secBytes l ≤ slotRoom)) (rulesOk l) ((List.range 8).all (fun t => l.any (fun x => x.typ == t)))

/-- Bytes from UPD_OFFSET on go to the section in progress; those before its OFFSET belong to none. -/
def State.secTake (s : State) (b : List Byte) : State :=
  match s.updEnt with
  | none => s
  | some e =>
    let pos := s.getF F.UPD_OFFSET_NEXT
    ({ s with upd := { s.upd with buf := s.upd.buf ++ b.drop (e.off - pos) } }).setF F.UPD_OFFSET_NEXT (pos + b.length)

/-- The header is whole: it is checked before any section byte is accepted (R390, R394). A journal entry or an erase that fails twice ends
the session with FLASH. -/
def State.headerIn (s : State) : State :=
  let h := s.upd.buf.take 4096
  let rest := s.upd.buf.drop 4096
  let c := s.packageCode h
  if c ≠ 0 then s.updFail c
  else
    let t := s.inactive
    let (ok, s) := s.updJournal 1 s.jActive t 0xFF
    if !ok then s.updFail 0x0D
    else
      let (ok, s) := s.flashWrite (slotAddr t) (fun s => (s.setSlot t { s.slot t with map := [] }).showJournal)
      if !ok then s.updFail 0x0D
      else
        let s := { s with upd := { s.upd with
          hdr := h, buf := [], idx := 0, resent := false, writes := [], secs := [], carried := [] } }
        (((s.updTo 2).setF F.UPD_OFFSET_NEXT 4096).setF F.UPD_STATUS_SECTION 0).secTake rest

/-- Container bytes arrive at UPD_OFFSET. -/
def State.updTake (s : State) (b : List Byte) : State :=
  let s := s.updTouch
  let st := s.updSt
  if st = 1 ∨ st = 6 then
    let s := { s with upd := { s.upd with buf := s.upd.buf ++ b } }
    let s := s.setF F.UPD_OFFSET_NEXT s.upd.buf.length
    if 4096 ≤ s.upd.buf.length then s.headerIn else s
  else if st = 2 ∨ st = 3 then s.secTake b
  else s

/-- UPD_DATA: a push of four bytes by a host or DBG; NETM delivers by DATA requests alone. -/
def State.updPush (s : State) (id : Ident) (v : Word) : State :=
  s.updOwned id (fun s => if id == .netm then s else s.updTake (leBytes 4 v.toNat))

def execUpdData (id : Ident) (v : Word) (s : State) : Host.Outcome State Fault Refusal :=
  .next (s.gated id R.UPD_DATA v (·.updPush id v))

/-- START by the owner: the agent reads UPD_SRC_LEN bytes by DMA. `bad`: how many of them it got before a completion error, which ends the
session with SOURCE. -/
def State.updDma (s : State) (id : Ident) (container : List Byte) (bad : Option Nat) : State :=
  if (id == .host0 || id == .host1) && (s.updSt == 1 || s.updSt == 6) then
    let s := ({ s with upd := { s.upd with buf := [], dma := true } }).setF F.UPD_OFFSET_NEXT 0
    let b := container.take (s.getF F.UPD_SRC_LEN_LEN)
    match bad with
    | none => s.updTake b
    | some n =>
      let t := s.updTake (b.take n)
      if t.updLive then t.updFail 0x11 else t
  else s

/-- UPD_START. -/
def State.updStart (s : State) (id : Ident) (container : List Byte) (bad : Option Nat) : State :=
  s.updOwned id (fun s => s.updDma id container bad)

def execUpdStart (id : Ident) (container : List Byte) (bad : Option Nat) (s : State) : Host.Outcome State Fault Refusal :=
  .next (s.gated id R.UPD_CTRL (s.cmdWord R.UPD_CTRL 1#32) (·.updStart id container bad))

/-! ### Sections (R394, R395) -/

/-- A section whose hash fails: one resend, then HASH. A DMA reads it again; where that meets a completion error (`none`), SOURCE. -/
def State.secMismatch (s : State) (e : SecEnt) (again : Option (List Byte)) : State :=
  if s.upd.resent then ((s.bump F.UPD_LASTING_COUNT).mntFault 6 false s.upd.idx).updFail 0x0B
  else
    let s := { s with upd := { s.upd with buf := [], resent := true } }
    let s := ((s.updTo 3).setF F.UPD_OFFSET_NEXT e.off).emit 0 0x0706 (pw s.upd.idx)
    if s.upd.dma then (match again with | some b => s.secTake b | none => s.updFail 0x11) else s

/-- A section whose hash holds: it is inflated to check its length, and its write is submitted. -/
def State.secGood (s : State) (e : SecEnt) : State :=
  let x := secOf e (s.upd.buf.take e.len)
  let i := s.upd.idx
  let s := if s.upd.resent then (s.bump F.UPD_TRANSIENT_COUNT).mntFault 6 true i else s
  if (secInflate x).isNone then s.updFail 0x0C
  else
    let first := s.upd.writes.isEmpty
    let rest := s.upd.buf.drop e.len
    let next := (hdrEnts s.upd.hdr)[i + 1]?
    let buf := match next with | some n => rest.drop (n.off - (e.off + e.len)) | none => []
    let s := { s with upd := { s.upd with buf := buf, idx := i + 1, resent := false, writes := s.upd.writes ++ [x] } }
    let s := match next with
      | some _ => (s.updTo 2).setF F.UPD_STATUS_SECTION (i + 1)
      | none => s.updTo 4
    if first then s.submit actImgwrite 0 0 else s

/-- SECTION_COMPLETE: due when every byte of the section in progress has arrived and system inflate has the lane (R275). `again`: what the DMA reads from the
section's OFFSET on when it must be read again, `none` for a completion error. -/
def State.sectionDone (s : State) (again : Option (List Byte)) : State :=
  match s.updEnt with
  | none => s
  | some e =>
    if (s.updSt = 2 ∨ s.updSt = 3) ∧ e.len ≤ s.upd.buf.length ∧ s.sysRuns = true then
      if sha384 (s.upd.buf.take e.len) = e.hash then s.secGood e else s.secMismatch e again
    else s

def execSectionComplete (again : Option (List Byte)) (s : State) : Host.Outcome State Fault Refusal := .next (s.sectionDone again)

/-- The carried sections are written: the others are copied from the active slot, each with its hash verified, as IMGWRITE activities of
their own (R395). A copy whose hash fails is a read that failed twice (R416). -/
def State.keepStart (s : State) : State :=
  let l := s.keptSecs (hdrEnts s.upd.hdr)
  if s.updSt = 4 ∧ s.upd.writes = [] ∧ s.upd.secs.length = (hdrEnts s.upd.hdr).length then
    if l.any (fun x => sha384 x.bytes != x.hash) then (s.mntFault 2 false (slotAddr s.jActive)).updFail 0x0B
    else if l.isEmpty then s
    else ({ s with upd := { s.upd with writes := l } }).submit actImgwrite 0 0
  else s

/-- SECTION_WRITE_DONE: the IMGWRITE of the oldest section, carried or copied, ends; `failures` of its two attempts failed. -/
def State.sectionWritten (s : State) (failures : Nat) : State :=
  match s.upd.writes with
  | [] => s
  | x :: t =>
    if s.runs actImgwrite 0 then
      let at_ := slotAddr s.jOther + 36864 + secBytes s.upd.secs
      if 2 ≤ failures then ((s.bump F.UPD_LASTING_COUNT).mntFault 3 false at_).updFail 0x0D
      else
        let s := if failures = 1 then (s.bump F.UPD_TRANSIENT_COUNT).mntFault 3 true at_ else s
        let s := ({ s with upd := { s.upd with writes := t, secs := s.upd.secs ++ [x] } }).endAct actImgwrite 0
        if t.isEmpty then s.keepStart else s.submit actImgwrite 0 0
    else s

def execSectionWriteDone (failures : Nat) (s : State) : Host.Outcome State Fault Refusal := .next (s.sectionWritten failures)

/-- The reads of `n` kept sections were checked; whether all of them passed (R416). -/
def State.keptReads (s : State) : Nat → Bool × State
  | 0 => (true, s)
  | n + 1 =>
    let (ok, s) := s.flashCheck (slotAddr s.jActive)
    if ok then s.keptReads n else (false, s)

/-- KEPT_SECTIONS_COPIED: every carried and every kept section is in the slot. A copy whose read failed twice ends the session. -/
def State.keptCopied (s : State) : State :=
  let es := hdrEnts s.upd.hdr
  if s.updSt = 4 ∧ s.upd.writes = [] ∧ s.upd.secs.length = es.length + (s.keptSecs es).length then
    let (ok, s) := s.keptReads (s.keptSecs es).length
    if ok then s.updTo 5 else s.updFail 0x0B
  else s

def execKeptSectionsCopied (s : State) : Host.Outcome State Fault Refusal := .next s.keptCopied

/-- The slot as it is composed: the package's header takes the lowest free position, and the headers that still cover a section
keep theirs (R387). -/
def State.composed (s : State) : Slot :=
  let es := hdrEnts s.upd.hdr
  let old := s.slot s.jActive
  let mine := fun (t : Nat) => es.any (fun e => e.typ == t)
  let kept := (s.upd.secs.map (·.typ)).filter (fun t => !mine t)
  let p := (((List.range 8).map (· + 1)).find? (fun k => !(kept.map old.pos).contains k)).getD 8
  { map := slotMap (hdrVer s.upd.hdr)
      ((List.range 8).map (fun t => if mine t then p else if kept.contains t then old.pos t else 0))
    headers := (p, s.upd.hdr) :: old.headers.filter (fun h => (kept.map old.pos).contains h.1)
    secs := s.upd.secs.map (fun x => (x.typ, x.bytes)) }

/-- UPD_CHECK_DONE: R67 on the composed image; the map or the entry that cannot be written ends the session with FLASH. -/
def State.updChecked (s : State) : State :=
  if s.updSt = 5 then
    let x := s.composed
    let t := s.jOther
    let c := s.imageCheck x.version x.named
    let s := s.showCheck c.1 c.2.1 t
    match c.2.2 with
    | none => s.updFail 0x13
    | some _ =>
      let (ok, s) := s.flashWrite (slotAddr t) (·.setSlot t x)
      let (ok', s) := if ok then s.updJournal 2 s.jActive t 0xFF else (false, s)
      if !ok' then s.updFail 0x0D
      else
        let own := (hdrEnts s.upd.hdr).map (·.typ)
        let s := { s with upd := { s.upd with
          hdr := [], buf := [], dma := false, idx := 0, secs := [], last := s.tick, carried := own } }
        let s := ((s.updTo 6).setF F.UPD_OFFSET_NEXT 0).setF F.UPD_STATUS_SECTION 0
        s.emit 0 0x0704 (pw t ++ pw x.version)
  else s

def execUpdCheckDone (s : State) : Host.Outcome State Fault Refusal := .next s.updChecked

/-! ### Activation (R396-R398) -/

/-- The sections of slot `x` that its package carried; where a cold reset has lost them, those whose header the active slot does not have
(DEDUCED, assumption log 88). -/
def State.ownSecs (s : State) (x : Slot) : List SlotSec :=
  x.named.filter (fun y =>
    if s.upd.carried.isEmpty then x.header y.typ != (s.slot s.jActive).header y.typ else s.upd.carried.contains y.typ)

/-- The image of the staged slot where it activates without a re-form: only COEF, only NET, or both, with the port modes in
use (R396). -/
def State.partialImage (s : State) : Option Image :=
  let x := s.slot s.jOther
  let own := s.ownSecs x
  if own.isEmpty || !own.all (fun y => y.typ == 1 || y.typ == 3) || s.image.isNone then none
  else
    match imageOf x.version x.named with
    | none => none
    | some m => if (List.range 4).all (fun p => m.modes.getD p 0 == s.portMode p) then some m else none

/-- What an activation without a re-form changes, after its commit: coefficient sets, and the setting defaults of NET. -/
def State.partialGo (s : State) (m : Image) (own : List SlotSec) : State :=
  let cs := (List.range 256).filter m.used
  let s := if own.any (fun y => y.typ == 1) then
      ({ s with upd := { s.upd with coefs := cs.map (fun c => (c, m.chan c)) } }).coefRelease
    else s
  let s := if own.any (fun y => y.typ == 3) then { s with image := s.image.map (fun i => { i with defaults := m.defaults }) } else s
  let s := [1, 3].foldl (fun s ty =>
    match own.find? (fun y => y.typ == ty) with
    | some y => s.emit 0 0x0709 (pw ty ++ pw y.ver)
    | none => s) s
  (s.setF F.UPD_STATUS_PARTIAL_ACT 1).updRelease 0

/-- Activation without a re-form: the CONFIRMED entry is its commit point. -/
def State.updPartial (s : State) (m : Image) : State :=
  let t := s.jOther
  let own := s.ownSecs (s.slot t)
  let (ok, s) := s.updJournal 4 t t 0xFF
  if ok then s.partialGo m own else s.setF F.UPD_STATUS_ERR 0x0D

/-- ACTIVATE in STAGED: at once, or by the pre-activation save with the lock passed to UPD. -/
def State.updActivate (s : State) : State :=
  if s.updSt = 6 then
    match s.partialImage with
    | some m => s.updPartial m
    | none =>
      let s := { s with upd := { s.upd with owner := s.updOwner, reject := false } }
      ((s.setF F.UPD_SESSION_OWNER 5).updTo 7).submit actSetsave 0 2
  else s

def execUpdActivate (id : Ident) (s : State) : Host.Outcome State Fault Refusal :=
  .next (s.gated id R.UPD_CTRL (s.cmdWord R.UPD_CTRL 2#32) (fun s => s.updOwned id State.updActivate))

/-! ### The health window (R399-R402) -/

/-- Is criterion (CODE, PARAM) true now (R399)? -/
def State.criterion (s : State) (c : Nat × Nat) : Bool :=
  match c.1 with
  | 1 => s.bit F.AFE_PLL_STATUS_LOCKED && !s.bit F.AFE_PLL_STATUS_HOLDOVER
  | 2 => decide (c.2 ≤ s.getF F.TIME_QUALITY_QUALITY) && !s.bit F.NET_TS_STATUS_SUSPECT
  | 3 => (List.range 4).all (fun p => !c.2.testBit p || s.linkUp p)
  | 4 => s.runSt == 3 && decide (s.run.since + c.2 * 500000000 ≤ s.tick)
  | 5 => (List.range 64).all (fun i =>
      (!(s.strCont i && s.bit (F.STR_CTRL_EN i)) ||
        (match (s.str i).lastData with | some k => decide (s.tick ≤ k + 5000000) | none => false)) && !(s.str i).lossy)
  | 6 => !s.upd.lasting
  | 7 => s.getF F.CAL_STATUS_NOCAL_COUNT == 0 && !s.upd.degr
  | 8 => s.upd.confirm
  | _ => false

/-- HEALTH of the image in use. -/
def State.health (s : State) : List Byte := match s.image with | some m => m.health | none => []

/-- Ticks of the window. -/
def State.windowTicks (s : State) : Nat := 500000000 * healthWindow s.health

/-- HEALTH_EVALUATION: due every 500,000 ticks of the window; all criteria true decides confirmation. -/
def State.healthEval (s : State) : State :=
  let n := s.upd.evals + 1
  if s.updSt = 9 ∧ s.upd.decided = false ∧ s.upd.from0 + 500000 * n ≤ s.tick ∧ 500000 * n ≤ s.windowTicks then
    let k := healthN s.health
    let l := (List.range k).filter (fun i => s.criterion (healthCrit s.health i))
    let s := s.setF F.UPD_HEALTH_MET (maskNat l)
    { s with upd := { s.upd with evals := n, decided := l.length == k } }
  else s

def execHealthEvaluation (s : State) : Host.Outcome State Fault Refusal := .next s.healthEval

/-- HEALTH_WINDOW_EXPIRY: after the last evaluation, with nothing decided. -/
def State.healthExpiry (s : State) : State :=
  if s.updSt = 9 ∧ s.upd.decided = false ∧ s.upd.from0 + s.windowTicks ≤ s.tick ∧ s.windowTicks ≤ 500000 * s.upd.evals then
    s.updFallback 0
  else s

def execHealthWindowExpiry (s : State) : Host.Outcome State Fault Refusal := .next s.healthExpiry

/-- TRIAL_COMMIT (R401): the CONFIRMED entry, the anti-rollback fuse, a save, the record, and the lock released. An entry that cannot be
written commits nothing, and the trial goes on. -/
def State.trialCommit (s : State) : State :=
  if s.updSt = 9 ∧ s.upd.decided = true then
    let t := s.jOther
    let (ok, s) := s.updJournal 4 t t s.jPre
    if ok then
      let arb := (s.slot t).headers.foldl (fun a h => max a (hdrArb h.2)) 0
      let s := if s.arbFuse < arb then { s with flash := { s.flash with arbProg := arb } } else s
      let s := s.submit actSetsave 0 3
      let s := s.emit 0 0x0707 (pw (s.slot t).version ++ pw s.arbFuse)
      (s.setF F.UPD_STATUS_CONFIRMED 1).updRelease 0
    else s
  else s

def execTrialCommit (s : State) : Host.Outcome State Fault Refusal := .next s.trialCommit

/-- The commit point of the trial that the journal still shows has passed (R402). -/
def State.trialPast (s : State) : Bool := s.jState == 4 && s.jPre != 0xFF

/-- HOST_CONFIRM. One that comes too late is no abort, so the coordinator does not count it (R402, R415). -/
def State.confirmed (s : State) : State :=
  if s.updSt = 9 then { s with upd := { s.upd with confirm := true } }
  else if s.updSt ≠ 8 ∧ s.trialPast = true then s.setF F.UPD_STATUS_LATE 1
  else s

/-- REJECT: the trial falls back; one that comes while the trial's re-form runs takes effect at its end. -/
def State.rejected (s : State) : State :=
  if s.updSt = 9 then s.updFallback 1
  else if s.updSt = 8 then { s with upd := { s.upd with reject := true } }
  else if s.trialPast then s.late F.UPD_STATUS_LATE
  else s

/-- A write of UPD_CTRL with CONFIRM or REJECT needs KEY. -/
def keyed (v : Word) : Bool := getBits v 24 8 == 0x5A

def execUpdConfirm (id : Ident) (v : Word) (s : State) : Host.Outcome State Fault Refusal :=
  .next (s.gated id R.UPD_CTRL ((s.cmdWord R.UPD_CTRL 16#32) ||| (v &&& 0xFF000000#32)) (fun s =>
    if keyed v then s.confirmed else s))

def execUpdReject (id : Ident) (v : Word) (s : State) : Host.Outcome State Fault Refusal :=
  .next (s.gated id R.UPD_CTRL ((s.cmdWord R.UPD_CTRL 32#32) ||| (v &&& 0xFF000000#32)) (fun s =>
    if keyed v then s.rejected else s))

/-- START by a write of UPD_CTRL: what the host memory that the DMA reads holds is not known, and so a free value. -/
def State.updDmaFree (s : State) (id : Ident) : State :=
  let (b, s) := s.freeBytes (s.getF F.UPD_SRC_LEN_LEN)
  s.updDma id b none

/-- A write of UPD_CTRL: AT_SN from the owner, then its commands in bit order. The bytes that START reads come with a UPD_START command,
and are open in any other write. -/
def State.updCtrl (s : State) (id : Ident) (v : Word) : State :=
  let own := getBits v 0 4 != 0 || getBits v 4 2 == 0
  let s := if own then
      s.updOwned id (fun s =>
        let s := s.setF F.UPD_CTRL_AT_SN (getBits v 3 1)
        let s := if v.getLsbD 0 then s.updDmaFree id else s
        let s := if v.getLsbD 1 then s.updActivate else s
        if v.getLsbD 2 && s.updLive then s.updEnd id.num else s)
    else s
  let s := if v.getLsbD 4 && keyed v then s.confirmed else s
  if v.getLsbD 5 && keyed v then s.rejected else s

end Sys2Proof.Machine
end

