-- ==== Sys2Proof/Machine/BusRead.lean ====
section
/-!
DEFINITION. Machine/BusRead.lean: reads of BAR0: what each register shows, the snapshot groups, read-to-clear counters and
the reads that act (R2-R5, R38, R338-R340, R343).
-/

namespace Sys2Proof.Machine

/-! ### Registers that show state held elsewhere -/

/-- The high or low half of a 64-bit value, as the offset of a pair asks. -/
def half (lo off n : Nat) : Word := if off = lo then lo32 n else hi32 n

/-- TIME_FRC and the TIME_NOW group (R32, R34, R38, R40). -/
def State.timeNowReg (s : State) (off : Nat) : Word :=
  let t := s.now
  if off = R.TIME_NOW_SEC_LO then lo32 (tSec t)
  else if off = R.TIME_NOW_SEC_HI then lo32 (tSec t / 2 ^ 32 + s.epoch * 2 ^ 16)
  else if off = R.TIME_NOW_NS then lo32 (tNs t)
  else if off = R.TIME_NOW_FRAC then lo32 (tFrac t)
  else if off = R.TIME_NOW_SHORT then lo32 (shortOf t)
  else half R.TIME_NOW_FRC_LO off s.tick

/-- TIME block. -/
def State.timeReg (s : State) (off : Nat) : Word :=
  if off = R.TIME_FRC_LO ∨ off = R.TIME_FRC_HI then half R.TIME_FRC_LO off s.tick
  else if R.TIME_NOW_SEC_LO ≤ off ∧ off ≤ R.TIME_NOW_SHORT then s.timeNowReg off
  else
    let n := past 0x20800 off / 0x20
    if off = R.TIME_TB_SEC n then lo32 (s.tb n).sec
    else if off = R.TIME_TB_NS n then lo32 (s.tb n).ns
    else s.rd off

/-- AFE_SN: the label of the S-cycle that the SCLK domain is in. -/
def State.afeReg (s : State) (off : Nat) : Word :=
  if off = R.AFE_SN_LO ∨ off = R.AFE_SN_HI then half R.AFE_SN_LO off (s.snOr1 s.label) else s.rd off

/-- The label whose ALIGNED word leaves its tap in this S-cycle. -/
def State.alignedSn (s : State) : Nat := s.label - 51

/-- The τ group of channel `c` (R137, R138): outside RUN the landed INT and FRAC. -/
def State.tauWord (s : State) (c off : Nat) : Word :=
  let run := s.runSt == 3
  let t := (if run then s.tauUsed c s.alignedSn else s.tauReg c).toNat
  let sn := if run then s.alignedSn else allOnes64
  if off = R.CND_TAU_INT c then lo32 (t / 2 ^ 48)
  else if off = R.CND_TAU_FRAC_HI c then lo32 (t % 2 ^ 48 / 2 ^ 16)
  else if off = R.CND_TAU_FRAC_LO c then lo32 (t % 2 ^ 16)
  else half (R.CND_TAU_SN_LO c) off sn

/-- The label at which the value of CND_ALIGN_CTRL.EN in force at `n` came into force, in a log of landings whose register reads
`cur` after them; 0 where none did. -/
def enSince (n : Nat) (cur : Word) : List (Nat × Nat × Word) → Nat
  | [] => 0
  | (l, o, v) :: t =>
    if o = R.CND_ALIGN_CTRL then
      let f := F.CND_ALIGN_CTRL_EN
      if decide (l ≤ n) && getBits v f.lo f.width != getBits cur f.lo f.width then l else enSince n v t
    else enSince n cur t

/-- The ALIGN group (R148, R150): the A in use, and the first SN at which it applies. -/
def State.alignWord (s : State) (off : Nat) : Word :=
  let run := s.runSt == 3
  let n := s.alignedSn
  let en := enSince n (s.rd R.CND_ALIGN_CTRL) s.setLog
  let term := match s.path.align.find? (fun e => decide (e.1 ≤ n)) with | some e => e.1 | none => 0
  let sn := if s.getFAt n F.CND_ALIGN_CTRL_EN = 1 then max en term else en
  if off = R.CND_ALIGN_TERM then (if run then lo32 (ofSigned 32 (s.alignA n)) else 0#32)
  else half R.CND_ALIGN_SN_LO off (if run then sn else allOnes64)

/-- MEM block: PAUSED shows also while a pre-trigger copy holds up a pass (R222). -/
def State.memReg (s : State) (off : Nat) : Word :=
  if off = R.MEM_SCRUB_STATUS ∧ s.bit F.MEM_SCRUB_STATUS_ACTIVE = true ∧ s.copying = true then s.rd off ||| 2#32 else s.after off

/-- CAL block: outside RUN the SN of a switch reads all ones (R119). -/
def State.calReg (s : State) (off : Nat) : Word :=
  let g := past 0x80100 off / 0x10
  if s.runSt ≠ 3 ∧ g < 16 ∧ (off = R.CAL_GROUP_SN_LO g ∨ off = R.CAL_GROUP_SN_HI g) then BitVec.allOnes 32 else s.after off

/-- SNT block: the inflate lane while system inflate has it (R275). -/
def State.sntReg (s : State) (off : Nat) : Word :=
  if s.sysRuns = true ∧ off = R.SNT_STATUS then s.rd off ||| 0x30#32
  else if s.sysRuns = true ∧ off = R.SNT_LANE 4 then 3#32
  else s.after off

/-- CND block. -/
def State.cndReg (s : State) (off : Nat) : Word :=
  if off = R.CND_ALIGN_TERM ∨ off = R.CND_ALIGN_SN_LO ∨ off = R.CND_ALIGN_SN_HI then s.alignWord off
  else
    let c := past 0x100000 off / 0x100
    if c < 256 ∧ R.CND_TAU_INT c ≤ off ∧ off ≤ R.CND_TAU_SN_HI c then s.tauWord c off else s.after off

/-- FLW block: fill and credit follow the queues (R230, R231, R244). -/
def State.flwReg (s : State) (off : Nat) : Word :=
  let e := past 0x40100 off / 0x40
  let w := past 0x44000 off / 0x20
  if e < 3 ∧ off = R.FLW_EQ_STATUS e then lo32 (s.evq e).entries.length
  else if w < 512 ∧ off = R.FLW_WQ_STATUS w then
    let l := (s.wq w).entries
    s.rd off ||| lo32 (l.length + packetsOf l * 2 ^ 16)
  else if w < 512 ∧ off = R.FLW_WQ_CREDIT w then lo32 (s.getF (F.FLW_WQ_INFO_DEPTH w) - (s.wq w).entries.length)
  else s.rd off

/-- STR block: the counters of R24. -/
def State.strReg (s : State) (off : Nat) : Word :=
  let i := past 0xC0000 off / 0x100
  let st := s.str i
  if i < 64 then
    if off = R.STR_PRODUCED_LO i ∨ off = R.STR_PRODUCED_HI i then half (R.STR_PRODUCED_LO i) off st.produced
    else if off = R.STR_DELIVERED_LO i ∨ off = R.STR_DELIVERED_HI i then half (R.STR_DELIVERED_LO i) off st.delivered
    else if off = R.STR_DECLARED_LO i ∨ off = R.STR_DECLARED_HI i then half (R.STR_DECLARED_LO i) off st.declared
    else if off = R.STR_IN_FLIGHT_LO i ∨ off = R.STR_IN_FLIGHT_HI i then
      half (R.STR_IN_FLIGHT_LO i) off (st.produced - st.delivered - st.declared)
    else s.rd off
  else s.rd off

/-- NET block. The phase of a port whose link is up is measured outside the model (R321). -/
def State.netReg (s : State) (off : Nat) : Word × State :=
  let p := past 0xD0000 off / 0x4000
  if p < 4 ∧ off = R.NET_PHASE p ∧ s.linkUp p = true then
    let (v, s) := s.free
    (lo32 (v % 65536 + 65536), s)
  else (s.rd off, s)

/-- GLB block for identity number `i` (R343). -/
def State.glbReg (s : State) (i off : Nat) : Word :=
  if off = R.GLB_PART then lo32 (0x3256 + 0x1D * 2 ^ 16)
  else if off = R.GLB_STEPPING then lo32 pciConfig.revision
  else if off = R.GLB_PCI_ID then lo32 (pciConfig.vendor + pciConfig.device * 2 ^ 16)
  else if off = R.GLB_SERIAL_LO ∨ off = R.GLB_SERIAL_HI then half R.GLB_SERIAL_LO off Config.serial
  else if off = R.GLB_VER_REGMAP then 0x0100#32
  else if off = R.GLB_VER_STALUX then 0x0103#32
  else if off = R.GLB_VER_DAMUF ∨ off = R.GLB_VER_CONTAINER then 1#32
  else if off = R.GLB_IDENT then lo32 i
  else if off = R.GLB_FENCE_DONE then
    lo32 (s.host.fenceDone.getD i 0 + b2n (s.host.fencePend.getD i none).isSome * 2 ^ 31)
  else s.rd off

/-- UPD and IMG block. -/
def State.updReg (s : State) (off : Nat) : Word :=
  if off = R.UPD_FUSE then lo32 (s.arbFuse % 128 + b2n Config.pkh.isSome * 2 ^ 8)
  else if off = R.UPD_WINDOW_LEFT then
    if s.updSt = 9 then
      lo32 ((s.windowTicks - (s.tick - s.upd.from0)) / 500000)
    else 0#32
  else s.rd off

/-- MNT block (R414). -/
def State.mntReg (s : State) (off : Nat) : Word :=
  let a := past 0xF0100 off / 0x10
  if off = R.MNT_QUEUE then s.rd off ||| lo32 s.mnt.waiting.length
  else if a < 11 ∧ off = R.MNT_ACT_STATE a then
    let r := s.mnt.running.filter (fun y => y.a == a)
    lo32 (r.length + (s.mnt.waiting.filter (fun y => y.a == a)).length * 2 ^ 8 + b2n (r.any (·.paused)) * 2 ^ 16)
  else s.rd off

/-- The register at `off` as identity number `i` finds it; a field with access ST shows its shadow (R3). -/
def State.show (s : State) (i off : Nat) : Word × State :=
  match off / 0x10000 with
  | 0 => (s.glbReg i off, s)
  | 2 => (s.timeReg off, s)
  | 4 => (s.flwReg off, s)
  | 6 => (if off = R.DBG_STATUS then s.rd off ||| lo32 (b2n Config.dbgLock * 2 ^ 3) else s.rd off, s)
  | 7 => (s.updReg off, s)
  | 5 => (s.memReg off, s)
  | 8 => (s.calReg off, s)
  | 9 => (if off < 0x90200 then s.afeReg off else s.after off, s)
  | 10 =>
    (if (off = R.TRG_RING_START_LO ∨ off = R.TRG_RING_START_HI) ∧ s.runSt ≠ 3 then BitVec.allOnes 32 else s.after off, s)
  | 11 => (s.sntReg off, s)
  | 12 => (s.strReg off, s)
  | 13 => s.netReg off
  | 14 =>
    (if off = R.HIF_APPLY_STATUS then s.rd off ||| lo32 (min 65535 (fieldsOf s.shadows) * 2 ^ 16) else s.rd off, s)
  | 15 => (s.mntReg off, s)
  | 16 => (s.cndReg off, s)
  | 17 => (s.cndReg off, s)
  | _ => (s.after off, s)

/-! ### Snapshots (R3, R38) -/

/-- The snapshot groups with more members than the high half: offset of the head of unit 0, stride and count of the units,
members as distances from the head. -/
def snapGroups : List (Nat × Nat × Nat × List Nat) := [
  (0x20030, 0x20, 1, [4, 8, 12, 16, 20, 24]),
  (0x20060, 0x20, 1, [4, 8, 12, 16, 20, 24]),
  (0x20604, 0x20, 5, [4, 8, 12]),
  (0x20800, 0x20, 4, [4]),
  (0x90040, 0x10, 1, [4, 8, 12]),
  (0x100040, 0x100, 256, [4, 8, 12, 16]),
  (0x110004, 0x10, 1, [4, 8]),
  (0xC0048, 0x100, 64, [4, 8, 12, 16, 20, 24, 28]),
  (0xD0060, 0x4000, 4, [4, 8, 12])]

/-- The members that a group lists for the head at `off`. -/
def headOf (off : Nat) : List (Nat × Nat × Nat × List Nat) → Option (List Nat)
  | [] => none
  | (h, st, n, m) :: t => if h ≤ off ∧ (off - h) % st = 0 ∧ (off - h) / st < n then some m else headOf off t

/-- Is `off` a member of a group? -/
def isMember (off : Nat) : Bool :=
  snapGroups.any (fun g => decide (g.1 ≤ off) && decide ((off - g.1) / g.2.1 < g.2.2.1) && g.2.2.2.contains ((off - g.1) % g.2.1))

/-- Is every field of the register RS? -/
def isRs (off : Nat) : Bool :=
  match regRow? off with
  | none => false
  | some r => r.fields.all (fun f => f.acc == .rs || f.acc == .rwrs)

/-- What a register is to the snapshots: a head or low half with its members, a member, or neither. -/
inductive SnapRole where
  | head (members : List Nat) | member | plain
deriving DecidableEq, Repr

/-- The low halves of plain RS pairs that lie at an odd word. -/
def oddLows : List (Nat × Nat × Nat) := [
  (0xC, 1, 1), (0x50004, 1, 1), (0x9001C, 1, 1), (0x90024, 1, 1), (0x200034, 0x400, 256), (0x20003C, 0x400, 256),
  (0x30000C, 1, 1)]

/-- Outside the groups an RS pair has its low half at the lower address, on an 8-byte boundary but for `oddLows`. -/
def snapRole (off : Nat) : SnapRole :=
  match headOf off snapGroups with
  | some m => .head m
  | none =>
    if isMember off then .member
    else if !isRs off then .plain
    else
      let at_ := fun (o : Nat) => oddLows.any (fun g => decide (g.1 ≤ o) && decide ((o - g.1) % g.2.1 = 0) && decide ((o - g.1) / g.2.1 < g.2.2))
      if at_ off then .head [4] else if at_ (off - 4) then .member else if off % 8 = 0 then .head [4] else .member

/-! ### A read that takes effect -/

/-- The members of a head are latched for `id`. -/
def State.latchAll (s : State) (id : Ident) (off : Nat) : List Nat → State
  | [] => s
  | m :: t =>
    let (v, s) := s.show id.num (off + m)
    (s.latch id (off + m) v).latchAll id off t

/-- Bits of the register at `off` with the access code `a`. -/
def accMask (a : Acc) (off : Nat) : Word :=
  match regRow? off with
  | none => 0#32
  | some r => BitVec.ofNat 32 (maskOf (fun f => f.acc == a) r.fields)

/-- The RC fields of the register at `off` are cleared (R3); MNT_QUEUE.HIGH starts again from the depth (R414). -/
def State.clearRc (s : State) (off : Nat) : State :=
  let m := accMask .rc off
  if m = 0#32 then s
  else
    let s := { s.wr off (s.rd off &&& ~~~m) with firsts := s.firsts.filter (· != off) }
    if off = R.MNT_QUEUE then s.setF F.MNT_QUEUE_HIGH s.mnt.waiting.length else s

/-- What a register returns to `id`, and what the read does: a head latches its members, a member returns the latch, RC fields
are cleared and WO fields read 0. -/
def State.readPlain (s : State) (id : Ident) (off : Nat) : Word × State :=
  match snapRole off with
  | .head ms =>
    let (v, s) := s.show id.num off
    (v, s.latchAll id off ms)
  | .member => (s.latched id off, s)
  | .plain =>
    let (v, s) := s.show id.num off
    (v &&& ~~~(accMask .wo off), s.clearRc off)

/-- A read of `id` at `off` takes effect: the event queues' ports pop, UPD_SESSION acquires, any other register is read. -/
def State.readEff (s : State) (id : Ident) (off : Nat) : Word × State :=
  let n := past 0x40100 off / 0x40
  if n < 3 ∧ off = R.FLW_EQ_READ_LO n then s.eqReadData id n
  else if off = R.UPD_SESSION then s.updOpen id
  else s.readPlain id off

/-! ### The access path of a read (R338-R340, R355, R358, R365) -/

/-- A mailbox channel, lock or MSI-X word lies at the offset. -/
inductive Special where
  | channel (n : Nat) | lock (n : Nat) | table (v k : Nat) | pba (k : Nat) | none
deriving DecidableEq, Repr

def specialAt (off : Nat) : Special :=
  if 0x30000 ≤ off ∧ off < 0x30C00 then .channel (past 0x30000 off / 0x80)
  else if 0x31000 ≤ off ∧ off < 0x31040 then .lock (past 0x31000 off / 4)
  else if 0xE8000 ≤ off ∧ off < 0xE8400 then .table (past 0xE8000 off / 16) (past 0xE8000 off / 4 % 4)
  else if 0xE8800 ≤ off ∧ off < 0xE8808 then .pba (past 0xE8800 off / 4)
  else .none

/-- The function whose MSI-X table `id` sees. -/
def tableFn : Ident → Option Nat
  | .host0 => some 0
  | .host1 => some 1
  | _ => none

/-- May a hardware agent access what lies at the offset? Mailbox channels, MBX_INFO and locks only (R358, R365). -/
def Special.forAgent (x : Special) (off : Nat) : Bool :=
  match x with
  | .channel _ | .lock _ => true
  | _ => off == R.MBX_INFO

/-- A read of one word of BAR0 by `id`, which need not wait. A reserved address reads 0 (R5). -/
def State.busRead (s : State) (id : Ident) (off : Nat) : Word × State :=
  if !onBus id && !(specialAt off).forAgent off then (0#32, s.deny)
  else
    match specialAt off with
    | .channel n =>
      if (regRow? off).isNone then (0#32, s)
      else if s.mbxMayRead id n (off % 0x80) then
        let (v, s) := s.readPlain id off
        (v, s.bpReg id off false)
      else (0#32, s.mbxRefuse id n off false)
    | .lock n =>
      let (v, s) := s.lockTake id n
      (v, s.bpReg id off false)
    | .table v k =>
      match tableFn id with
      | some f => (s.msixRead f v k, s.bpReg id off false)
      | none => (0#32, s.deny)
    | .pba k =>
      match tableFn id with
      | some f => (s.pbaRead f k, s.bpReg id off false)
      | none => (0#32, s.deny)
    | .none =>
      if (regRow? off).isNone then (0#32, s)
      else if onBus id then s.gatedRead id off (fun s => s.readEff id off)
      else
        let (v, s) := s.readPlain id off
        (v, s.bpReg id off false)

/-- The read with its completion. -/
def State.readNow (s : State) (id : Ident) (off : Nat) : State :=
  let (v, s) := s.busRead id off
  s.obsv (.read id.num off v)

/-- A read that completes once it need not wait for an earlier write of its identity (R342). -/
def State.readDone (s : State) (id : Ident) (off : Nat) : State :=
  if s.canAccess id then s.reading id off (·.readNow id off) else s

/-- A request that BAR0 rejects (R338). -/
def State.badReq (s : State) : State := s.bump F.HIF_BAD_REQ_COUNT

/-- A read request by `id` at `off` (R338): one DW, or two DWs at an 8-byte-aligned address, the lower first. -/
def State.readReq (s : State) (id : Ident) (off : Nat) (req : BarRead) : State :=
  if s.pwr.por then s
  else match req with
  | .dw => if off % 4 = 0 then s.readDone id off else s.badReq.obsv (.unsupported id.num off)
  | .two => if off % 8 = 0 then (s.readDone id off).readDone id (off + 4) else s.badReq.obsv (.unsupported id.num off)
  | .bad => s.badReq.obsv (.unsupported id.num off)


/-- SNAPSHOT_READ, and every read that has no row of its own. -/
def execSnapshotRead (id : Ident) (off : Nat) (req : BarRead) (s : State) : Host.Outcome State Fault Refusal :=
  if inBar0 off then .next (s.readReq id off req) else .fault .outsideBar0

/-- RC_READ. -/
def execRcRead (id : Ident) (off : Nat) (s : State) : Host.Outcome State Fault Refusal :=
  if inBar0 off then .next (s.readReq id off .dw) else .fault .outsideBar0

end Sys2Proof.Machine
end

