-- ==== Sys2Proof/Machine/Debug.lean ====
section
/-!
DEFINITION. Machine/Debug.lean: the test access port but for DAU_ACCESS, the unlock of the debug access unit, the debug halt,
steps and breakpoints (R368, R422, R423, R425-R432).
-/

namespace Sys2Proof.Machine

/-! ### The TAP (R422, R423) -/

/-- `n` bits that the spec leaves open. -/
def State.freeBits (s : State) : Nat → List Bool × State
  | 0 => ([], s)
  | n + 1 =>
    let (v, s) := s.free
    let (l, s) := s.freeBits n
    ((v % 2 == 1) :: l, s)

def irBypass : Nat := 0xFF
def irIdcode : Nat := 0x01
def irSample : Nat := 0x02
def irExtest : Nat := 0x00
def irDau : Nat := 0x20
def irChal : Nat := 0x21
def irResp : Nat := 0x22

/-- The covered balls return to their functions (R423). -/
def State.ballsBack (s : State) : State :=
  (fnPins.foldl (fun s p => s.pinOut p (s.pinLevel p) (s.pinNow p) 0) s).obsv (.synceClk s.clkOut)

/-- The instruction in force becomes `code`. -/
def State.irTake (s : State) (code : Nat) : State :=
  let t := { s with dbg := { s.dbg with ir := code } }
  if s.dbg.ir = irExtest ∧ code ≠ irExtest then t.ballsBack else t

/-- The instruction register takes `code`; what it had captured, 0b0000_0001, leaves at TDO. The TAP has left Test-Logic-Reset. -/
def State.irLoad (s : State) (code : Nat) : State :=
  (({ s with dbg := { s.dbg with tlr := false } }).irTake code).obsv (.tdo (bitsLsb 8 1))

/-- TAP_RESET: TRST_N low. Test-Logic-Reset selects IDCODE, and the DBG identity is reset. An unlock lasts (R431). -/
def State.tapReset (s : State) : State :=
  let s := s.irTake irIdcode
  ({ s with dbg := { s.dbg with tlr := true } }).identReset .dbg

def execTapReset (s : State) : Host.Outcome State Fault Refusal := .next s.tapReset

/-- Bits pass through the bypass register: it captures 0 (IEEE 1149.1). -/
def State.bypassScan (s : State) (scanIn : List Bool) : State :=
  (s.irLoad irBypass).obsv (.tdo ((false :: scanIn).take scanIn.length))

/-- BYPASS, and every code that R422 does not list. -/
def execBypass (scanIn : List Bool) (s : State) : Host.Outcome State Fault Refusal := .next (s.bypassScan scanIn)

/-- The identification code of R422 for a stepping. -/
def idcodeOf (stepping : Nat) : Nat := stepping / 16 % 16 * 2 ^ 28 + 0x3256 * 2 ^ 12 + 0x4E6 * 2 + 1

def execIdcode (s : State) : Host.Outcome State Fault Refusal :=
  .next ((s.irLoad irIdcode).obsv (.tdo (bitsLsb 32 (idcodeOf Config.stepping))))

/-- The output of the hub whose ball stands at position `i` of the chain, where one of `fnPins` does. -/
def ballPin (i : Nat) : Option Pin := fnPins[Config.scanBall i]?

/-- A scan of the boundary-scan chain: the levels it captured leave at TDO, and the bits shifted in are held. Length and order of the
chain, and the levels of balls that the hub does not drive, are not in the spec. -/
def State.chainScan (s : State) (scanIn : List Bool) : State :=
  let (l, s) := s.freeBits Config.scanLength
  let cap := (l.zip (List.range l.length)).map (fun x => match ballPin x.2 with
    | some p => if s.dbg.ir = irExtest then s.dbg.chain.getD x.2 x.1 else s.pinLevel p
    | none => x.1)
  let all := cap ++ scanIn
  ({ s with dbg := { s.dbg with chain := all.drop scanIn.length } }).obsv (.tdo (all.take scanIn.length))

def execSamplePreload (scanIn : List Bool) (s : State) : Host.Outcome State Fault Refusal :=
  .next ((s.irLoad irSample).chainScan scanIn)

/-- The covered balls are driven from the chain. -/
def State.driveChain (s : State) : State :=
  (s.dbg.chain.zip (List.range s.dbg.chain.length)).foldl (fun s b =>
    s.obsv (.pin ((ballPin b.2).getD .scanChain) b.1 s.tick b.2)) s

/-- EXTEST: loaded in IDLE only; at any other time BYPASS is loaded and REFUSED is set. The balls are driven from what the chain holds as
it is loaded, and then from the bits shifted in. -/
def State.extest (s : State) (scanIn : List Bool) : State :=
  if s.runSt = 0 then
    let t := s.irLoad irExtest
    let t := if s.dbg.ir = irExtest then t else t.driveChain
    (t.chainScan scanIn).driveChain
  else (s.setF F.DBG_STATUS_REFUSED 1).bypassScan scanIn

def execExtest (scanIn : List Bool) (s : State) : Host.Outcome State Fault Refusal := .next (s.extest scanIn)

/-! ### Lock and unlock (R430, R431) -/

/-- Is the debug access unit locked? -/
def State.dbgLocked (s : State) : Bool := Config.dbgLock && !s.bit F.DBG_STATUS_UNLOCKED

/-- UNLOCK_CHAL: a capture returns a fresh challenge. -/
def State.unlockChal (s : State) : State :=
  let (v, s) := (s.irLoad irChal).free
  let v := v % 2 ^ 64
  ({ s with dbg := { s.dbg with chal := some v } }).obsv (.tdo (bitsLsb 64 v))

def execUnlockChal (s : State) : Host.Outcome State Fault Refusal := .next s.unlockChal

/-- Does a response pass: the key's SHA-384 is the debug key hash, and the signature covers the challenge and the serial? -/
def respOk (chal : Option Nat) (key sig : List Byte) : Bool :=
  match chal with
  | none => false
  | some c => sha384 key == Config.dbgKeyHash && ecdsaOk key (sha384 (beBytes 8 c ++ beBytes 8 Config.serial)) sig

/-- UNLOCK_RESP: the response consumes the challenge and its verification begins. -/
def State.unlockResp (s : State) (key sig : List Byte) : State :=
  let s := s.irLoad irResp
  { s with dbg := { s.dbg with chal := none, verify := s.dbg.verify ++ [respOk s.dbg.chal key sig] } }

def execUnlockResp (key sig : List Byte) (s : State) : Host.Outcome State Fault Refusal := .next (s.unlockResp key sig)

/-- DEBUG_UNLOCK: the oldest verification ends. Eight failures since cold reset block every further attempt. -/
def State.debugUnlock (s : State) : State :=
  match s.dbg.verify with
  | [] => s
  | ok :: t =>
    let s := { s with dbg := { s.dbg with verify := t } }
    if 8 ≤ s.getF F.DBG_STATUS_UNLOCK_FAILS then s.emit 0 0x0604 (pw 2)
    else if ok then (s.setF F.DBG_STATUS_UNLOCKED 1).emit 0 0x0604 (pw 0)
    else (s.bump F.DBG_STATUS_UNLOCK_FAILS).emit 0 0x0604 (pw 1)

def execDebugUnlock (s : State) : Host.Outcome State Fault Refusal := .next s.debugUnlock

/-- RELOCK. -/
def State.relock (s : State) : State := s.setF F.DBG_STATUS_UNLOCKED 0

/-! ### Halt (R425, R426) -/

/-- STATE of DBG_STATUS: 0 RUNNING, 1 HALT_PENDING, 2 HALTED, 3 STEPPING. -/
def State.dbgSt (s : State) : Nat := s.getF F.DBG_STATUS_STATE

/-- A halt is requested by the breakpoints `reqs` (0: by the command), to begin at the S-cycle `e`. A request that meets a
pending halt or a halted hub requests nothing; breakpoints of one S-cycle join. -/
def State.haltReq (s : State) (reqs : Nat) (e : Option Nat) : State :=
  if s.dbgSt = 0 then
    let s := { s with dbg := { s.dbg with reqs := reqs, at_ := e, ready := false } }
    (s.setF F.DBG_STATUS_STATE 1).submit actDbghalt 0 0
  else if s.dbgSt = 1 ∧ s.dbg.reqs ≠ 0 ∧ reqs ≠ 0 ∧ s.dbg.at_ = e then
    { s with dbg := { s.dbg with reqs := s.dbg.reqs ||| reqs } }
  else s

/-- Has the S-cycle e come? Outside RUN no label names it. -/
def State.haltDue (s : State) : Bool :=
  match s.dbg.at_ with
  | none => true
  | some e => !s.run.running || decide (e ≤ s.run.next)

/-- HALT_FREEZE: the activity has been admitted and S-cycle e begins. h is the label of the sampling edge that begins it. -/
def State.haltFreeze (s : State) : State :=
  if s.dbgSt = 1 ∧ s.dbg.ready = true ∧ s.haltDue = true then
    let h := s.run.next
    let sn := s.snOr1 h
    let lab := s.run.running && s.runSt == 3 && decide (0 < h)
    let s := if lab then s.haltPath h else s
    let mask := s.dbg.reqs
    let s := { s with dbg := { s.dbg with
      ready := false, at_ := none, inRun := s.runSt == 3, steps := 0
      spans := if lab then (h, none) :: s.dbg.spans else s.dbg.spans } }
    let s := ((s.setF F.DBG_STATUS_STATE 2).bump F.DBG_HALTS_COUNT).pauseAllBg
    (s.wr64 R.DBG_HALT_SN_LO R.DBG_HALT_SN_HI sn).emit 0 0x0601 (psn sn ++ pb (mask != 0) ++ pw mask)
  else s

def execHaltFreeze (s : State) : Host.Outcome State Fault Refusal := .next s.haltFreeze

/-! ### Resume and steps (R427, R428) -/

/-- REFUSED. -/
def State.dbgRefuse (s : State) : State := s.setF F.DBG_STATUS_REFUSED 1

/-- The newest span ends at `r`. -/
def endSpan (r : Nat) : List (Nat × Option Nat) → List (Nat × Option Nat)
  | (h, none) :: t => (h, some r) :: t
  | l => l

/-- The drain of a run that was stopped while halted starts at the resume (R432). -/
def State.drainAfresh (s : State) : State :=
  { s with strs := s.strs.map (fun x => if x.active && x.drainFrom.isSome then { x with drainFrom := some s.tick } else x) }

/-- RESUME: the halt ends at the sampling edge of r, the first SN after the write reaches the SCLK domain. What the halt held
lands there as one set. -/
def State.dbgResume (s : State) : State :=
  if s.halted then
    let r := s.run.next
    let sn := s.snOr1 r
    let s := { s with dbg := { s.dbg with spans := endSpan r s.dbg.spans, inRun := false, steps := 0, reqs := 0 } }
    let s := (s.setF F.DBG_STATUS_STATE 0).endAct actDbghalt 0
    let s := (s.wr64 R.DBG_RESUME_SN_LO R.DBG_RESUME_SN_HI sn).emit 0 0x0602 (psn sn)
    s.drainAfresh.applyLanding.nowResume
  else s.dbgRefuse

/-- STEP: STEP_COUNT units elapse, of sampling edges or of T-ticks, each of which stands for an F-cycle (assumption log 86). -/
def State.dbgStep (s : State) : State :=
  if s.dbgSt = 2 then
    ({ s with dbg := { s.dbg with steps := s.getF F.DBG_CTRL_STEP_COUNT } }).setF F.DBG_STATUS_STATE 3
  else s.dbgRefuse

/-- DBG_STEP_DONE. -/
def State.stepDone (s : State) : State :=
  if s.dbgSt = 3 ∧ s.dbg.steps = 0 then s.setF F.DBG_STATUS_STATE 2 else s

def execDbgStepDone (s : State) : Host.Outcome State Fault Refusal := .next s.stepDone

/-! ### DBG_CTRL -/

/-- A write of DBG_CTRL: ignored while the unit is locked, refused whole with STEP_COUNT 0; otherwise the settings, then
HALT, RESUME, STEP and RELOCK in that order. -/
def State.dbgCtrl (s : State) (v : Word) : State :=
  if s.dbgLocked then s
  else if getBits v 16 16 = 0 then s
  else
    let s := s.wr R.DBG_CTRL (v &&& 0xFFFF0008#32)
    let s := if v.getLsbD 0 then s.haltReq 0 none else s
    let s := if v.getLsbD 1 then s.dbgResume else s
    let s := if v.getLsbD 2 then s.dbgStep else s
    if v.getLsbD 4 then s.relock else s

def execHaltRequest (id : Ident) (s : State) : Host.Outcome State Fault Refusal :=
  .next (s.gated id R.DBG_CTRL (s.cmdWord R.DBG_CTRL 1#32) (fun s => s.dbgCtrl (s.cmdWord R.DBG_CTRL 1#32)))

def execDbgResume (id : Ident) (s : State) : Host.Outcome State Fault Refusal :=
  .next (s.gated id R.DBG_CTRL (s.cmdWord R.DBG_CTRL 2#32) (fun s => s.dbgCtrl (s.cmdWord R.DBG_CTRL 2#32)))

def execDbgStep (id : Ident) (s : State) : Host.Outcome State Fault Refusal :=
  .next (s.gated id R.DBG_CTRL (s.cmdWord R.DBG_CTRL 4#32) (fun s => s.dbgCtrl (s.cmdWord R.DBG_CTRL 4#32)))

def execRelock (id : Ident) (s : State) : Host.Outcome State Fault Refusal :=
  .next (s.gated id R.DBG_CTRL (s.cmdWord R.DBG_CTRL 16#32) (fun s => s.dbgCtrl (s.cmdWord R.DBG_CTRL 16#32)))

/-! ### Breakpoints (R429) -/

/-- The first match of breakpoint `n` leaves the list. -/
def takeHit (n : Nat) : List BpHit → Option (BpHit × List BpHit)
  | [] => none
  | h :: t => if h.bp = n then some (h, t) else (takeHit n t).map (fun p => (p.1, h :: p.2))

/-- BREAKPOINT_MATCH: the oldest match of breakpoint `n` is counted and recorded, and with ACTION 1 requests a halt. -/
def State.bpMatch (s : State) (n : Nat) : State :=
  match takeHit n s.dbg.hits with
  | none => s
  | some (h, t) =>
    let s := { s with dbg := { s.dbg with hits := t } }
    let s := (s.bump (F.DBG_BP_COUNT_COUNT n)).setF ⟨R.DBG_STATUS, 8 + n, 1⟩ 1
    let s := s.emit 0 0x0603 (pw n ++ psn h.val)
    if s.bit (F.DBG_BP_CTRL_ACTION n) then s.haltReq (2 ^ n) h.at_ else s

def execBreakpointMatch (n : Fin 8) (s : State) : Host.Outcome State Fault Refusal := .next (s.bpMatch n)

end Sys2Proof.Machine
end

