-- ==== Sys2Proof/Machine/Power.lean ====
section
/-!
DEFINITION. Machine/Power.lean: power-up, domains, resets and monitors (R68, R101, R116, R254, R276, R333, R347, R372-R383,
R402, R405, R420, R441, R452-R454, R462).
-/

namespace Sys2Proof.Machine

/-! ### Domains (R373, R374) -/

/-- NET, XPR and CAL: the domains with an IDLE_STATE. -/
def idling (d : Nat) : Bool := d == 10 || d == 12 || d == 13

/-- Has domain `d` work (R373)? -/
def State.hasWork (s : State) (d : Nat) : Bool :=
  match d with
  | 10 => (List.range 4).any s.linkUp || s.runSt != 0 || s.bit F.AFE_RUN_STATUS_DRAINING
  | 12 => s.updSt != 0 || s.sysWants || (List.range 5).any (fun l => s.laneSt l != 0) || s.nextCap.isSome ||
      (List.range 64).any (fun n => s.ctxSt n == 1) || [0, 1].any (fun f => s.ringOn f 8 && decide ((s.ring f 8).posted ≠ []))
  | 13 => s.cal.fg != 0 || (s.mnt.running ++ s.mnt.waiting).any (fun y => y.a == actBgcal || y.a == actCalsave)
  | _ => true

/-- The PCIe link goes to L2, and HOST to RETAIN with it (R372; DESIGN CHOICE, assumption log 88: no row of the table names the link). -/
def State.hostL2 (s : State) : State :=
  if s.host.linkUp then (({ s with host := { s.host with linkUp := false } }).setDom 11 1).follow s else s

/-- DOMAIN_IDLE: due after HOLD_US microseconds without work, and not in the F-cycle of a wake (R383); the domain takes its
IDLE_STATE. -/
def State.domIdle (s : State) (d : Nat) : State :=
  let st := s.getF (F.PWR_DOM_CTRL_IDLE_STATE d)
  let last := s.pwr.lastWork.getD d 0
  if d = 11 then s.hostL2
  else if idling d && s.domState d == 2 && st != 0 && !s.hasWork d && decide (last < s.tick) &&
      decide (last + s.getF (F.PWR_DOM_CTRL_HOLD_US d) * 500 ≤ s.tick) then
    let t := s.setDom d (if st = 1 then 1 else 0)
    ({ t with pwr := { t.pwr with fellAt := updAt (fun _ => some s.tick) t.pwr.fellAt d } }).follow s
  else s

def execDomainIdle (d : Fin 14) (s : State) : Host.Outcome State Fault Refusal := .next (s.domIdle d)

/-- DOMAIN_WAKE: a wake source of R374 reaches NET, XPR or CAL. -/
def execDomainWake (d : Fin 14) (s : State) : Host.Outcome State Fault Refusal := .next (if idling d then s.wakeDom d else s)

/-! ### What a reset does inside a block (R376) -/

/-- Registers of block `b`. -/
def inBlock (b off : Nat) : Bool := off / 0x10000 == b

/-- Ports that STRUCT gives a mode start. -/
def State.portsStart (s : State) : State :=
  (List.range 4).foldl (fun s p => if s.portMode p = 0 then s else s.portStart p) s

/-- NET: ports fall and restart, frame queues are flushed, detector and Damuf queue start afresh. -/
def State.netReset (s : State) : State :=
  let was := s
  let s := s.linksFall [0, 1, 2, 3] 0
  let s := (List.range 16).foldl (fun s n => if (s.fqUnread n).isEmpty then s.fqEmpty n else s.flushFq n flushDomain causeLink true) s
  let s := ({ s with ports := List.replicate 4 NetPort.reset, dmfQ := [] }).regsReset (inBlock 13)
  (s.flushEnds 13).portsStart.clkMove was

/-- SNT: every job and context is abandoned without completion records (R276). -/
def State.sntBlock (s : State) : State := (s.flushEnds 11).sntHubLose.sntReset.regsReset (inBlock 11)

/-- The phase that an adoption or a spare fault shows. -/
def State.calPhases (s : State) : State :=
  (List.range 16).foldl (fun s g =>
    if s.bit (F.CAL_GROUP_STATE_ADOPTED g) || s.bit (F.CAL_GROUP_STATE_SPARE_FAULT g) then s.setF (F.CAL_GROUP_STATE_PHASE g) 6
    else s) s

/-- CAL: CALRUN and the background cycles are abandoned (R126). A CALSAVE belongs to the flash interface and goes on. -/
def State.calBlock (s : State) : State :=
  let s := (List.range 16).foldl State.dropBg s
  let s := (s.mnt.waiting.filter (fun y => y.a == actBgcal || y.a == actFgcal)).foldl (fun s y => s.withdraw y.a y.unit) s
  let s := { s with mnt := { s.mnt with running := s.mnt.running.filter (fun y => y.a != actBgcal && y.a != actFgcal) } }
  let s := { s with cal := { s.cal with fg := 0, done := [] } }
  let busy := s.getF F.CAL_STATUS_SAVE_BUSY
  ((((s.regsReset (inBlock 8)).setF F.CAL_STATUS_SAVE_BUSY busy).calPhases).showCal).flushEnds 8

/-- TRG: its outputs drive their inactive level. -/
def State.trgBlock (s : State) : State :=
  let s := { s.trigPins with trg := TrigState.reset }
  let s := (s.regsReset (inBlock 10)).condsPrefill
  s.flushEnds 10

/-- MNT (R420): counters, alert status and the last fault are cleared; HIGH restarts from the depth. -/
def State.mntBlock (s : State) : State :=
  let t := (s.regsReset (inBlock 15)).flushEnds 15
  (t.setF F.MNT_QUEUE_HIGH t.mnt.waiting.length).pinEdge s .alertN s.tick 0

/-- BLOCK_SOFT_RESET: in IDLE with DRAINING = 0, else refused. -/
def State.blkReset (s : State) (v : Word) : State :=
  if s.runSt ≠ 0 ∨ s.bit F.AFE_RUN_STATUS_DRAINING = true then s.setF F.PWR_STATUS_BLK_REFUSED 1
  else
    let s := if v.getLsbD 8 then s.calBlock else s
    let s := if v.getLsbD 10 then s.trgBlock else s
    let s := if v.getLsbD 11 then s.sntBlock else s
    let s := if v.getLsbD 13 then s.netReset else s
    if v.getLsbD 15 then s.mntBlock else s

def execBlockSoftReset (id : Ident) (v : Word) (s : State) : Host.Outcome State Fault Refusal :=
  .next (s.gated id R.PWR_BLK_RESET v (·.blkReset v))

/-! ### Domain resets (R368, R375) -/

/-- A domain reset of NET, XPR or CAL with the identities that live there. A save belongs to AON and goes on (R383). -/
def State.domReset (s : State) (d : Nat) : State :=
  match d with
  | 10 => (s.identReset .netm).netReset
  | 12 =>
    let s := (s.identReset .upd).identReset .snta
    let s := if s.updLive then s.updEnd 0 else s
    (s.flushEnds 7).sntBlock
  | 13 => (s.identReset .cals).calBlock
  | _ => s

/-- Identities that live in domain `d` leave reset once it is ON, and signals that waited for it are given (R361, R371). -/
def State.domLeave (s : State) (d : Nat) : State :=
  match d with
  | 10 => s.identLeave .netm
  | 12 => ((s.identLeave .upd).identLeave .snta).sigsGo 5 |>.sigsGo 7
  | 13 => (s.identLeave .cals).sigsGo 6
  | _ => s

/-- A reset of domain `d` by PWR_DOM_CTRL.RESET: its identities leave reset at once where it is ON, else as it comes to be ON. -/
def State.domResets (s : State) (d : Nat) : State :=
  let t := s.domReset d
  if s.domOn d then t.domLeave d else t

/-- DOMAIN_RESET by PWR_DOM_CTRL.RESET. -/
def execDomainReset (id : Ident) (d : Fin 14) (s : State) : Host.Outcome State Fault Refusal :=
  .next (if id == .host0 then (if s.pwr.por then s else s.deny)
    else s.gated id (R.PWR_DOM_CTRL d) (s.cmdWord (R.PWR_DOM_CTRL d) 4#32) (fun s => s.domResets d))

/-- A waking domain is ON: from OFF it passes a domain reset first. Held writes follow (Bus.lean). -/
def State.domRise (s : State) (d : Nat) : State :=
  let off := s.pwr.wakeOff.contains d
  let s := { s with pwr := { s.pwr with waking := s.pwr.waking.filter (· != d), wakeOff := s.pwr.wakeOff.filter (· != d) } }
  let s := s.setDom d 2
  let s := if off then s.domReset d else s
  (s.domLeave d).worked d

/-! ### Warm resets (R101, R254, R347, R376, R420, R462) -/

/-- Bits of the register at `off` that a warm reset keeps: TIME, MBX and MNT whole, the event queues, SEQ, what counts since
cold reset, the debug lock, and "ret", "img" and "cal" fields. -/
def warmMask (off : Nat) : Word :=
  if inBlock 0 off || inBlock 2 off || inBlock 3 off || inBlock 15 off || (decide (0x40100 ≤ off) && decide (off < 0x40200)) ||
      off == R.FLW_SEQ_NEXT || off == R.FLW_UE_LOC || off == R.PWR_SAVES || off == R.PWR_DOM_STATE then BitVec.allOnes 32
  else if off = R.DBG_STATUS then 0x000F0004#32
  else if off = R.IMG_REFORM_STATUS then 0xFFFF0000#32
  else keepMask off

/-- Is the load pass of the running re-form under way (R462)? Between the end of the check pass and SN_r it is not, and a warm reset
abandons the request (DESIGN CHOICE, assumption log 68: that span falls in neither pass of the rule). -/
def State.inLoad (s : State) : Bool := s.reform.phase != 1 && s.loadDue

/-- A warm reset ends what runs: identities but PWRC, jobs, activities, staged sets and background cycles. -/
def State.warmDrop (s : State) : State :=
  let s := s.trigPins.applyIdle.coefRelease.copyAbandon
  let s := [Ident.host0, .host1, .netm, .dbg, .upd, .cals, .snta].foldl State.identReset s
  (List.range 16).foldl State.dropBg s.sntReset.dropActs

/-- The state outside the lists of R376 takes its reset values. `load`: a load pass goes on after the reset (R462). -/
def State.warmClear (s : State) (load : Bool) (cause : Nat) : State :=
  let s := { s with
    regs := keepBits warmMask s.regs, shadows := [], setLog := [], path := PathState.reset, firsts := []
    eqs := s.eqs.map (fun (q : EvQueue) => { q with partRead := false })
    wqs := List.replicate 512 WordQueue.reset, fqs := List.replicate 16 [], fqHeld := List.replicate 16 none, strs := List.replicate 64 StreamState.reset
    ports := List.replicate 4 NetPort.reset, dmfQ := [], host := HostState.reset, trg := TrigState.reset }
  let s := { s with
    run := { RunState.reset with scyc := s.run.scyc }
    cal := { s.cal with fg := 0, done := [], snap := none }
    mem := { s.mem with scrubOn := false, line := 0 }
    dbg := { DbgState.reset with ir := s.dbg.ir, tlr := s.dbg.tlr, chain := s.dbg.chain, dr := s.dbg.dr, chal := s.dbg.chal, verify := s.dbg.verify } }
  { s with
    reform := if load then { s.reform with reqs := s.reform.reqs.take 1, phase := 3, snr := none } else ReformState.reset
    upd := { UpdState.reset with carried := s.upd.carried }
    pwr := { PowerState.reset with
      lastWork := s.pwr.lastWork, fellAt := s.pwr.fellAt, saveFrom := s.pwr.saveFrom, inReset := true, reset0 := cause
      pgood := s.pwr.pgood, asCommitted := s.pwr.asCommitted } }

/-- What the registers show of a warm reset. -/
def State.warmShow (s : State) (load : Bool) (cause : Nat) : State :=
  let s := (s.wr R.DBG_CTRL 0x00010000#32).setB F.IMG_REFORM_STATUS_PENDING load
  let s := (s.showJournal.showStaged).setDom 11 1
  (s.setF F.PWR_STATUS_LAST_RESET cause).setF (F.IMG_STATUS_STATE) (if load then 3 else if s.image.isNone then 0 else 1)

/-- WARM_RESET begins: every identity but PWRC is reset, every activity is abandoned, the run ends with no record and the state
outside the lists of R376 takes its reset values; the pins follow (R363, R376, R446). One that meets a cold reset changes nothing. -/
def State.warm (s : State) (cause : Nat) : State :=
  if s.pwr.por then s
  else
    let load := s.inLoad && (match s.reform.reqs with | r :: _ => r.cause == 0 | [] => false)
    let d := s.warmDrop
    (((d.warmClear load cause).warmShow load cause).pinsMove d fnPins).clkMove d

/-- WARM_RESET by RESET_N (2), PCIe hot reset (3) or link loss (4). -/
def execWarmReset (cause : Nat) (s : State) : Host.Outcome State Fault Refusal := .next (s.warm cause)

/-- SOFTWARE_WARM_RESET: PWR_RESET with WARM and KEY. -/
def State.softWarm (s : State) (v : Word) : State :=
  if getBits v 24 8 ≠ 0xA5 then s.deny else if v.getLsbD 0 then s.warm 5 else s

def execSoftwareWarmReset (id : Ident) (v : Word) (s : State) : Host.Outcome State Fault Refusal :=
  .next (s.gated id R.PWR_RESET v (·.softWarm v))

/-! ### Coming up (R101, R116, R382) -/

/-- The SCLK PLL takes its restored setting and locks; on a recovered clock it waits for the port, and a setting that R84 would
refuse leaves it stopped. -/
def State.pllRestore (s : State) : State :=
  match s.pllErr true (s.rd R.AFE_PLL_CFG) (s.rd R.AFE_PLL_FB) (s.rd R.AFE_PLL_FBINT) with
  | 0 => s.pllTake.pllLocked
  | 7 => s.pllTake
  | e =>
    let s := (s.setF F.AFE_PLL_STATUS_ERR e).setF F.AFE_PLL_STATUS_ERR_FLAG 1
    { s with conv := { s.conv with stuck := true } }

/-- NET, XPR and CAL are ON. -/
def State.domsOn (s : State) : State :=
  [10, 12, 13].foldl (fun s d => ((s.setDom d 2).domLeave d).worked d) s

/-- The hub is up: the RESET record of kind 0 cold, 1 warm, and READY, from where the outputs may be active (R446). -/
def State.ready (s : State) (kind : Nat) : State :=
  ((s.emit 0 0x0907 (pw kind)).setF F.PWR_STATUS_READY 1).pinsMove s fnPins

/-- What a cold start does with an image that passed. -/
def State.coldLoad (s : State) (glitches : List Nat) (slot : Nat) (m : Image) : State :=
  let was := s
  let s := (((s.imageIn m slot).restoreSets glitches).settingsIn was).calHeads glitches
  (s.settled.domsOn.portsStart.powerQuads s.quadsUsed).storeUsed.pllRestore

/-- The load of a cold start. `glitches` names the slots whose flash reads fail. With neither slot the hub is bare. A trial that
the journal still shows has fallen back (R402, R405). -/
def State.powerLoad (s : State) (glitches : List Nat) : State :=
  let x := s.firstGood glitches (if s.jActive = 0 then [] else [s.jActive, 3 - s.jActive])
  let t := match x.1 with
    | some y => (x.2.coldLoad glitches y.1 y.2).ready 0
    | none => ((x.2.bareIn.domsOn).setF F.PWR_STATUS_SET_SRC 3).ready 0
  if s.jState = 3 then t.fallbackEnds (match x.1 with | some y => y.1 | none => 0) 3 else t

/-- The first steps of R382: AON is on, HOST is powered, the journal is read, and the PCIe endpoint answers. -/
def State.powerFirst (s : State) : State :=
  let s := s.setDom 0 2
  let s := if s.host.linkUp then s else s.setDom 11 1
  s.showJournal.showStaged

/-- POWER_UP: POR_N is released, and the first three steps of R382 are done; once more, the image and the settings are loaded and the hub
is ready (DESIGN CHOICE, assumption log 88: the table gives the sequence one row). `glitches` names what flash reads meet. -/
def State.powerUp (s : State) (glitches : List Nat) : State :=
  if s.pwr.por then
    ({ s with pwr := { s.pwr with por := false, saveFrom := s.tick } }).powerFirst.journalRead glitches
  else if s.pwr.pgood then
    let s := { s with pwr := { s.pwr with pgood := false } }
    (s.powerFirst.plan glitches).powerLoad glitches
  else s

def execPowerUp (glitches : List Nat) (s : State) : Host.Outcome State Fault Refusal := .next (s.powerUp glitches)

/-- COLD_RESET: the whole hub is held in reset until POWER_UP (R440); what flash and fuses hold stays. LAST_RESET names POR_N or the
supply. The pins go to what reset gives them; a TAP that had EXTEST loaded has it no more. -/
def State.cold (s : State) (por : Bool) : State :=
  let t := { State.reset with flash := s.flash, obs := s.obs, freeCtr := s.freeCtr, pending := s.pending, pwr := { PowerState.reset with por := true } }
  let t := t.setB ⟨R.PWR_STATUS, 8, 1⟩ por
  if s.dbg.ir = 0 then (fnPins.foldl (fun t p => t.pinOut p (t.pinLevel p) (s.pinNow p) 0) t).obsv (.synceClk t.clkOut)
  else (t.pinsMove s fnPins).clkMove s

def execColdReset (por : Bool) (s : State) : Host.Outcome State Fault Refusal := .next (s.cold por)

/-- The settings after a warm reset: the retention copy, or R378 where it is lost (R377); with no image no half and no DEFAULTS fit, and
the fields take 0. -/
def State.retRestore (s : State) (lost : Bool) (glitches : List Nat) : State :=
  if lost then
    let t := if s.image.isSome then s.restoreSets glitches else (s.putFields retMask []).setF F.PWR_STATUS_SET_SRC 3
    ((t.setF F.PWR_STATUS_RET_LOST 1).emit 0 0x0101 []).settingsIn s
  else s

/-- The load that a warm reset completes (R462): the same target, or the journal's slot where it cannot be read. -/
def State.completeLoad (s : State) (glitches : List Nat) (r : ReformReq) : State :=
  let bad := if r.slot = 3 then !s.host.linkUp || glitches.contains 3 else glitches.contains r.slot
  if bad then
    let s := if r.slot = 3 then s.showCheck 0x0C 0x11 3
      else (s.mntFault 2 false (slotAddr r.slot)).showCheck 0x0C 0x0D r.slot
    let c := s.rd R.IMG_CHECK
    let (x, s) := s.firstGood glitches (if s.jActive = 0 then [] else [s.jActive, 3 - s.jActive])
    let s := s.wr R.IMG_CHECK c
    (s.reformLoad (match x with | some y => y.1 | none => 0) (x.map Prod.snd) 0).reformDone
  else (s.reformLoad r.slot s.reform.target 0).reformDone

/-- The fallback that a warm reset starts (R402, R405, R406). -/
def State.warmFallback (s : State) (glitches : List Nat) : State :=
  let (x, s) := s.firstGood glitches (if s.jActive = 0 then [] else [s.jActive, s.jOther])
  let slot := match x with | some y => y.1 | none => 0
  (s.reformLoad slot (x.map Prod.snd) 2).reformDone.fallbackEnds slot 2

/-- The primary ports of the image in use. -/
def State.primariesNow (s : State) : State := match s.image with | some m => s.primaries m | none => s

/-- The load that a warm reset leads to: the fallback of a trial, or the load pass that it met. -/
def State.warmLoad (s : State) (glitches : List Nat) : State :=
  if s.jState = 3 then s.warmFallback glitches
  else match s.reform.reqs with
    | r :: _ => s.completeLoad glitches r
    | [] => s

/-- The PLL takes its setting again where an image is in use, and the hub is ready. -/
def State.warmReady (s : State) : State := (if s.image.isNone then s else s.pllRestore).ready 1

/-- WARM_RESET_RELEASE: due while a warm reset lasts. `lost`: the retention copy fails both attempts; `ce` of its words are
corrected; `glitches` as at power-up. -/
def State.warmEnd (s : State) (lost : Bool) (ce : Nat) (glitches : List Nat) : State :=
  if s.pwr.inReset then
    let s := { s with pwr := { s.pwr with inReset := false } }
    let s := (((s.plan glitches).bumpBy F.PWR_RET_CE_COUNT ce).retRestore lost glitches).domsOn.calPhases.primariesNow
    ((s.chainsKeep.settled.powerQuads s.quadsUsed).portsStart.warmLoad glitches).warmReady
  else s

def execWarmResetRelease (lost : Bool) (ce : Nat) (glitches : List Nat) (s : State) : Host.Outcome State Fault Refusal :=
  .next (s.warmEnd lost ce glitches)

/-! ### IDLE_STATE (R373, R383) -/

/-- A write of PWR_DOM_CTRL[d]: refused for a domain that has no IDLE_STATE (R373). RESET is for HOST1, NETM and DBG. -/
def State.domCtrl (s : State) (id : Ident) (d : Nat) (v : Word) : State :=
  let st := getBits v 0 2
  let s := if v.getLsbD 3 then s.setF (F.PWR_DOM_CTRL_REFUSED d) 0 else s
  if !idling d then s.setF (F.PWR_DOM_CTRL_REFUSED d) 1
  else if st = 3 then s
  else if st ≠ 0 ∧ (d == 10 && (s.runSt != 0 || s.bit F.AFE_RUN_STATUS_DRAINING)) = true then
    s.setF (F.PWR_DOM_CTRL_REFUSED d) 1
  else
    let s := (s.setF (F.PWR_DOM_CTRL_IDLE_STATE d) st).setF (F.PWR_DOM_CTRL_HOLD_US d) (getBits v 16 16)
    if v.getLsbD 2 then (if id == .host0 then s.deny else s.domResets d) else s

/-! ### Monitors (R452-R454) -/

/-- Nominal millivolts of the rails. -/
def railNominal : List Nat := [750, 900, 1800, 900, 1200, 1800, 3300]

/-- The reading of rail `v` is judged. -/
def State.judgeRail (s : State) (v mv : Nat) : State :=
  let nom := railNominal.getD v 0
  let f : Fld := ⟨R.PWR_MON_STATUS, 8 + v, 1⟩
  if 20 * mv < 19 * nom ∨ 21 * nom < 20 * mv then
    if s.bit f then s else (s.setF f 1).emit 0 0x0105 (pw v ++ pw mv)
  else s

/-- THERM_N follows the temperatures; the record names the lowest sensor at or above LIMIT. -/
def State.judgeTemps (s : State) : State :=
  let t := (List.range 8).map (fun i => s.getI (F.PWR_MON_TEMP_TEMP i))
  let lim := s.getI F.PWR_MON_LIMIT_LIMIT
  let hyst : Int := (s.getF F.PWR_MON_LIMIT_HYST : Nat)
  if s.bit F.PWR_MON_STATUS_THERM then
    if t.all (fun x => decide (x ≤ lim - hyst)) then (s.setF F.PWR_MON_STATUS_THERM 0).pinEdge s .thermN s.tick 0 else s
  else
    match (List.range 8).find? (fun i => decide (lim ≤ t.getD i 0)) with
    | some i =>
      let u := (s.setF F.PWR_MON_STATUS_THERM 1).setF F.PWR_MON_STATUS_THERM_HIT 1
      (u.pinEdge s .thermN s.tick 0).emit 0 0x0104 (pw i ++ pint (t.getD i 0))
    | none => s

/-- MONITOR_SAMPLE: the eight temperatures in 1/16 degree and the seven rails in millivolts. -/
def State.monitor (s : State) (temps : List Int) (volts : List Nat) : State :=
  if s.pwr.por then s
  else
  let s := ((List.range 8).zip temps).foldl (fun s e => s.setF (F.PWR_MON_TEMP_TEMP e.1) (ofSigned 16 e.2)) s
  let s := ((List.range 7).zip volts).foldl (fun s e => (s.setF (F.PWR_MON_VOLT_MV e.1) e.2).judgeRail e.1 e.2) s
  s.judgeTemps

def execMonitorSample (temps : List Int) (volts : List Nat) (s : State) : Host.Outcome State Fault Refusal :=
  .next (s.monitor temps volts)

end Sys2Proof.Machine
end

