-- ==== Sys2Proof/Machine/SampleMemory.lean ====
section
/-!
DEFINITION. Machine/SampleMemory.lean: the host window and the scrubber (R213, R222-R225).
-/

namespace Sys2Proof.Machine

/-! ### HOST_WINDOW_ACCESS (R223-R225) -/

/-- May `id` reach all of the `len` bytes at `off`? An access reaches two partitions at most. -/
def State.windowMay (s : State) (id : Ident) (write : Bool) (off len : Nat) : Bool :=
  s.memMay id write (s.partOf off) && s.memMay id write (s.partOf (off + (len - 1)))

/-- Reads the word at offset `a` for the window: its bytes, 0xFF where it failed twice, and whether it did. -/
def State.windowWord (s : State) (a : Nat) : List Byte × Bool × State :=
  let x := s.memReadWord a
  if x.1 = MemRead.lasting then (List.replicate 4 0xFF#8, true, x.2) else (x.2.storedWord a, false, x.2)

/-- Reads `n` words from word offset `a` on: their bytes, and whether one failed twice. -/
def State.windowWords (s : State) : Nat → Nat → List Byte × Bool × State
  | _, 0 => ([], false, s)
  | a, n + 1 =>
    let x := s.windowWord a
    let y := x.2.2.windowWords (a + 4) n
    (x.1 ++ y.1, x.2.1 || y.2.1, y.2.2)

/-- A read of `len` bytes at `off`. -/
def State.windowRead (s : State) (id : Ident) (off len : Nat) : State :=
  if s.windowMay id false off len then
    let a := off / 4 * 4
    let x := s.windowWords a ((off + len - 1) / 4 + 1 - a / 4)
    x.2.2.obsv (.memRead id.num off (sub x.1 (off - a) len) x.2.1)
  else (s.memDeny id off false).obsv (.memRead id.num off (zeros len) false)

/-- A write of the enabled bytes of `b` at `off`. -/
def State.windowWrite (s : State) (id : Ident) (off : Nat) (b : List (Option Byte)) : State :=
  if s.windowMay id true off b.length then (s.ctxPoke off b.length).windowWords' (b.length + 1) off b else s.memDeny id off true

/-- HOST_WINDOW_ACCESS: a read of `len` bytes, or a write of `data` with its byte enables (a byte that is not enabled is `none`), while MEM is ON (R340). No address of BAR2 lies at or above 128 MiB (R335). -/
def execHostWindowAccess (id : Ident) (off : Nat) (data : Option (List (Option Byte))) (len : Nat) (s : State) :
    Host.Outcome State Fault Refusal :=
  let n := match data with | none => len | some b => b.length
  if barSize 2 < off + n ∨ barSize 2 ≤ off then .fault .outsideBar2
  else if n = 0 then .next s
  else if !s.domOn 9 then
    match data with
    | none => .next ((s.setF F.HIF_STATUS_RD_OFF 1).obsv (.memRead id.num off (zeros len) false))
    | some _ => .next (s.setF F.HIF_STATUS_WR_OFF 1)
  else match data with
    | none => .next (s.windowRead id off len)
    | some b => .next (s.windowWrite id off b)

/-! ### Scrubbing (R222, R412) -/

/-- SCRUB_PASS_START: PERIOD_S seconds have passed since the last pass began, or scrubbing has just been enabled. A pass that
still runs is late, and the next one begins when it ends. -/
def State.scrubStart (s : State) : State :=
  let due := !s.mem.scrubOn || decide (s.mem.scrubFrom + 500000000 * s.getF F.MEM_SCRUB_CTRL_PERIOD_S ≤ s.tick)
  if s.bit F.MEM_SCRUB_CTRL_EN && due && s.image.isSome then
    if (s.mnt.running ++ s.mnt.waiting).any (fun y => y.a == actScrub) then s.setF F.MEM_SCRUB_STATUS_PASS_LATE 1
    else
      let s := { s with mem := { s.mem with scrubFrom := s.tick, scrubOn := true, line := 0 } }
      (s.setF F.MEM_SCRUB_POS_LINE 0).submit actScrub 0 0
  else s

def execScrubPassStart (s : State) : Host.Outcome State Fault Refusal := .next s.scrubStart

/-- Scrubbing ends where it stands: EN has fallen. -/
def State.scrubOff (s : State) : State :=
  let s := { s with mem := { s.mem with scrubOn := false } }
  if s.runs actScrub 0 then
    ((s.setF F.MEM_SCRUB_STATUS_ACTIVE 0).setF F.MEM_SCRUB_STATUS_PAUSED 0).endAct actScrub 0
  else s

/-- Lines of the memory. -/
def memLines : Nat := 2097152

/-- SCRUB_LINE_READ: the next line of the pass is read, corrected and classed; the pass waits while a pre-trigger copy runs (R222). -/
def State.scrubLine (s : State) : State :=
  if s.runs actScrub 0 && s.bit F.MEM_SCRUB_STATUS_ACTIVE && !s.bit F.MEM_SCRUB_STATUS_PAUSED && !s.copying &&
      decide (s.mem.line < memLines) then
    if s.bit F.MEM_SCRUB_CTRL_EN then
      let (_, s) := s.memReadWords (64 * s.mem.line) 16
      let s := { s with mem := { s.mem with line := s.mem.line + 1 } }
      s.setF F.MEM_SCRUB_POS_LINE s.mem.line
    else s.scrubOff
  else s

def execScrubLineRead (s : State) : Host.Outcome State Fault Refusal := .next s.scrubLine

/-- SCRUB_PASS_END: the pass has read the last line. -/
def State.scrubEnd (s : State) : State :=
  if s.runs actScrub 0 && s.bit F.MEM_SCRUB_STATUS_ACTIVE && decide (memLines ≤ s.mem.line) then
    ((s.bump F.MEM_SCRUB_PASSES_COUNT).setF F.MEM_SCRUB_STATUS_ACTIVE 0).endAct actScrub 0
  else s

def execScrubPassEnd (s : State) : Host.Outcome State Fault Refusal := .next s.scrubEnd

end Sys2Proof.Machine
end

