-- ==== Sys2Proof/Machine/Time.lean ====
section
/-!
DEFINITION. Machine/Time.lean: INCR and STEP, compare units and pulse outputs, capture inputs, anchors and the loads of legacy
time bases (R35, R36, R41-R53).
-/

namespace Sys2Proof.Machine

/-! ### INCR (R35) -/

/-- INCR lies within 100 ppm of 2. -/
def incrOk (v : Nat) : Bool := decide (19998 * 2 ^ 56 ≤ 10000 * v) && decide (10000 * v ≤ 20002 * 2 ^ 56)

/-- The INCR registers read `v`. -/
def State.showIncr (s : State) (v : Nat) : State := s.wr64 R.TIME_INCR_LO R.TIME_INCR_HI v

/-- INCR_COMMIT: a write of `hi` to TIME_INCR_HI. A commit that finds one pending and is out of range breaks two bullets of R35:
both flags are set (DESIGN CHOICE, assumption log 66). -/
def State.incrCommit (s : State) (hi : Word) : State :=
  let v := join64 (s.rd R.TIME_INCR_LO) hi
  let refused (s : State) (f : Fld) : State :=
    (({ s with time := { s.time with loUse := true, hiUse := true } }).setF f 1).showIncr s.incrNow
  if s.time.incrPend.isSome then
    let s := if incrOk v then s else s.setF F.TIME_STATUS_INCR_ERR 1
    refused s F.TIME_STATUS_INCR_BUSY
  else if incrOk v then
    let s := { s with time := { s.time with incrPend := some (v, s.tick), loUse := false, hiUse := false } }
    (s.setF F.TIME_STATUS_INCR_PENDING 1).showIncr v
  else refused s F.TIME_STATUS_INCR_ERR

def execIncrCommit (id : Ident) (hi : Word) (s : State) : Host.Outcome State Fault Refusal :=
  .next (s.gated id R.TIME_INCR_HI hi (·.incrCommit hi))

/-- INCR_REBASE: at its tick k_w the new INCR applies, and T is continuous. A step of an earlier tick goes first. The halves that
read the INCR in use since a refusal follow it. -/
def State.incrRebase (s : State) : State :=
  match s.time.incrPend with
  | none => s
  | some (v, k) =>
    if s.time.isDue k && !(s.stepDue && s.time.stepFirst) then
      let s := ({ s with time := s.time.takeIncr }).setF F.TIME_STATUS_INCR_PENDING 0
      let s := if s.time.loUse then s.wr R.TIME_INCR_LO (lo32 v) else s
      if s.time.hiUse then s.wr R.TIME_INCR_HI (hi32 v) else s
    else s

def execIncrRebase (s : State) : Host.Outcome State Fault Refusal := .next s.incrRebase

/-! ### Compare units (R41-R47) -/

def State.tcu (s : State) (n : Nat) : Tcu := s.time.tcus.getD n Tcu.reset
def State.updTcu (s : State) (n : Nat) (f : Tcu → Tcu) : State :=
  { s with time := { s.time with tcus := updAt f s.time.tcus n } }
def State.updTpo (s : State) (o : Nat) (f : Tpo → Tpo) : State :=
  { s with time := { s.time with tpos := updAt f s.time.tpos o } }

/-- The enabled outputs that select unit `n`. -/
def State.tposOf (s : State) (n : Nat) : List Nat :=
  (List.range 8).filter (fun o => s.bit (F.TIME_TPO_CTRL_EN o) && s.getF (F.TIME_TPO_CTRL_TCU o) == n)

/-- The state of unit `n`: 0 DISARMED, 1 QUALIFY, 2 LOADED. ARM reads 1 in QUALIFY and LOADED. -/
def State.tcuState (s : State) (n st : Nat) : State :=
  (s.setF (F.TIME_TCU_CTRL_STATE n) st).setB (F.TIME_TCU_CTRL_ARM n) (st != 0)

/-- The unit is DISARMED. -/
def State.tcuOff (s : State) (n : Nat) : State := (s.tcuState n 0).updTcu n (fun x => { x with arm := none })

/-- What unit `n` reads as it is armed (R43). -/
def State.tcuParams (s : State) (n : Nat) : TcuArm :=
  let frac := s.getF (F.TIME_TCU_FRAC_FRAC n)
  { full := mkTime (s.rd64 (R.TIME_TCU_SEC_LO n) (R.TIME_TCU_SEC_HI n)) (s.getF (F.TIME_TCU_NS_NS n)) frac
    short := s.getF (F.TIME_TCU_SHORT_SHORT n), fine := s.getF (F.TIME_TCU_FINE_FINE n)
    qual := s.bit (F.TIME_TCU_CTRL_QUAL n), periodic := s.bit (F.TIME_TCU_CTRL_MODE n)
    period := mkTime 0 (s.getF (F.TIME_TCU_PERIOD_NS_PERIOD_NS n)) (s.getF (F.TIME_TCU_PERIOD_FRAC_PERIOD_FRAC n))
    width := s.getF (F.TIME_TCU_WIDTH_WIDTH n), src := s.getF (F.TIME_TCU_CTRL_SRC n)
    evrec := s.bit (F.TIME_TCU_CTRL_EVREC n), wake := s.bit (F.TIME_TCU_CTRL_WAKE n), tpoAtArm := s.tposOf n }

/-- Does the unit use its full target? -/
def TcuArm.usesFull (a : TcuArm) : Bool := a.qual || decide (a.src ≠ 0)

/-- A parameter lies outside its limits (R44, R47). NS is checked where the unit uses its full target (DESIGN CHOICE, assumption
log 66: the spec does not say whether an unused NS is). -/
def State.tcuBad (s : State) (n : Nat) (a : TcuArm) : Bool :=
  decide (4 < a.src) || (a.usesFull && decide (10 ^ 9 ≤ s.getF (F.TIME_TCU_NS_NS n))) ||
  (a.periodic && (decide (a.period < 64 * nsU) || decide (4294967295 * nsU < a.period))) ||
  (!a.tpoAtArm.isEmpty && (decide (a.width < 2) || (a.periodic && decide (a.period < (2 * a.width + 8) * nsU))))

/-- The first boundary O + j P, with j at least 0, after `t`. -/
def firstBoundary (o p t : Nat) : Nat := if t < o then o else o + ((t - o) / max 1 p + 1) * p

/-- T(k) + 15 x INCR of the unit's time. -/
def State.launchTime (s : State) (src : Nat) : Nat := s.srcNow src + 15 * s.srcIncr src

/-- The short target as the decision rule compares it, with T + 16 x INCR (R40, R41, R44). -/
def State.shortTarget (s : State) (a : TcuArm) : Nat := (nearPos (s.now + 16 * s.incrNow) a.short a.fine).toNat

/-- Arming of unit `n` with the fields as written (R44, R47, R53). A periodic arming with QUAL = 0 sets MODE_ERR alone, whatever
its other parameters are (DESIGN CHOICE, assumption log 66: two rows of R44 match). -/
def State.tcuArmNow (s : State) (n : Nat) : State :=
  let a := s.tcuParams n
  if a.src = 0 ∧ a.periodic ∧ !a.qual then (s.tcuOff n).setF (F.TIME_TCU_STATUS_MODE_ERR n) 1
  else if s.tcuBad n a then (s.tcuOff n).setF (F.TIME_TCU_STATUS_PARAM_ERR n) 1
  else if a.src = 0 ∧ a.qual then (s.tcuState n 1).updTcu n (fun x => { x with arm := some a, target := a.full, high := 0 })
  else
    let t :=
      if a.src = 0 then s.shortTarget a
      else if a.periodic then firstBoundary a.full a.period (s.launchTime a.src)
      else a.full
    (s.tcuState n 2).updTcu n (fun x => { x with arm := some a, target := t, high := 0 })

/-- A write of TIME_TCU_CTRL leaves its settings; ARM and STATE follow the unit. -/
def State.tcuCtrl (s : State) (n : Nat) (v : Word) : State :=
  s.wr (R.TIME_TCU_CTRL n) ((v &&& 0x00000376#32) ||| (s.rd (R.TIME_TCU_CTRL n) &&& 0x00030001#32))

/-- TCU_ARM: a write of ARM = 1 arms or re-arms the unit. -/
def State.tcuArm (s : State) (n : Nat) (v : Word) : State := (s.tcuCtrl n v).tcuArmNow n

def execTcuArm (id : Ident) (n : Fin 16) (ctrl : Word) (s : State) : Host.Outcome State Fault Refusal :=
  .next (s.gated id (R.TIME_TCU_CTRL n) (ctrl ||| 1#32) (·.tcuArm n ctrl))

/-- TCU_DISARM: late from a decision tick up to and including the launch tick of its edge (R42). -/
def State.tcuDisarm (s : State) (n : Nat) (v : Word) : State :=
  let s := s.tcuCtrl n v
  let s := if (s.tcu n).fires.any (fun x => decide (x.decision ≤ s.tick) && decide (s.tick ≤ x.launch)) then
      s.late (F.TIME_TCU_STATUS_DISARM_LATE n) else s
  s.tcuOff n

def execTcuDisarm (id : Ident) (n : Fin 16) (ctrl : Word) (s : State) : Host.Outcome State Fault Refusal :=
  .next (s.gated id (R.TIME_TCU_CTRL n) (ctrl &&& 0xFFFFFFFE#32) (·.tcuDisarm n ctrl))

/-- TCU_QUALIFY_LOAD: the target, or the first boundary that a step has not passed over (R48), has come within 2 s. It waits for a step that is due (R37). The unit keeps
the fields it read as it was armed, and a periodic one whose origin has passed waits for the first boundary like any other (DESIGN
CHOICES, assumption log 66: R43 and R44 say both). -/
def State.tcuLoad (s : State) (n : Nat) : State :=
  match (s.tcu n).arm with
  | none => s
  | some a =>
    if s.getF (F.TIME_TCU_CTRL_STATE n) = 1 ∧ s.stepDue = false then
      let t := if a.periodic then max (firstBoundary a.full a.period (s.launchTime 0)) (s.tcu n).target else a.full
      if t ≤ s.now + 2 * secU then (s.tcuState n 2).updTcu n (fun x => { x with target := t }) else s
    else s

def execTcuQualifyLoad (n : Fin 16) (s : State) : Host.Outcome State Fault Refusal := .next (s.tcuLoad n)

/-- The tick at which output `o` changes last, by what has launched and what is decided. -/
def State.tpoBusy (s : State) (o : Nat) : Option Nat :=
  let x := s.time.tpos.getD o Tpo.reset
  let pend := s.time.tcus.flatMap (fun (u : Tcu) => (u.fires.filter (fun f => !f.launched && f.tpos.contains o)).map (fun f => f.launch + f.width))
  let l := (match x.lastChange with | some k => [k] | none => []) ++ (match x.trail with | some k => [k] | none => []) ++ pend
  if l.isEmpty then none else some (l.foldl max 0)

/-- First tick at which the outputs `os` may change again (R47): 2 ticks after their last change, decided or done. -/
def State.tpoFree (s : State) (os : List Nat) : Nat :=
  os.foldl (fun k o => match s.tpoBusy o with | some b => max k (b + 2) | none => k) 0

/-- Has a target `t` come within the look-ahead (R41)? Corrected time compares positions as R40 does, and a target that has passed by
more than the range of short time has come too; a legacy time base has no horizon and compares whole times in steps of the fine
position (assumption log 66). -/
def State.tcuDue (s : State) (src t : Nat) : Bool :=
  let l := s.srcNow src + 16 * s.srcIncr src
  if src = 0 then posLe (shortOf t) (fineOf t) (shortOf l) (fineOf l) || decide (t ≤ l)
  else decide (t / (nsU / 64) ≤ l / (nsU / 64))

/-- What a decision of unit `n` with target `t` comes to: LATE, launch tick, vernier, event time (R41, R47, R53). A vernier of 128
and more launches a tick later; with a legacy time base the launch stays at tick 15 and the vernier at 0. The hold-back of R47
applies to periodic firings too (DESIGN CHOICES, assumption log 66). -/
def State.tcuOutcome (s : State) (a : TcuArm) (t : Nat) (os : List Nat) : Bool × Nat × Nat × Nat :=
  let lt := s.launchTime a.src
  let r := t - lt
  let v := if a.src = 0 then r * 64 / nsU else 0
  let plain : Bool × Nat × Nat × Nat :=
    if lt < t then (if 128 ≤ v then (false, s.tick + 16, v - 128, t) else (false, s.tick + 15, v, t))
    else (true, s.tick + 15, 0, lt)
  let free := s.tpoFree os
  if plain.2.1 < free then
    (true, free, 0, s.srcNow a.src + (free - s.tick) * s.srcIncr a.src)
  else plain

/-- A field of AFE_RUN_CFG as the run took it at k_d in DELAY and RUN, as it stands otherwise (R94). -/
def State.runCfg (s : State) (f : Fld) : Nat := getBits (if s.inRun then s.run.cfg else s.rd R.AFE_RUN_CFG) f.lo f.width

/-- The consumers of a firing (R45): timer start, timed stop, trigger engine, wake request. A unit on a legacy time base gives the
run its event time as it is, in place of corrected time (DESIGN CHOICE, assumption log 67: R91 does not say). The start comes before
the stop where one unit gives both (DESIGN CHOICE, assumption log 81). -/
def State.tcuConsumers (s : State) (n t : Nat) (late wake : Bool) : State :=
  let s := if s.runCfg F.AFE_RUN_CFG_TCU = n then s.startEvent srcTimer t late else s
  let s := if s.runCfg F.AFE_RUN_CFG_STOP_TCU_EN == 1 && s.runCfg F.AFE_RUN_CFG_STOP_TCU == n then s.stopEvent false t else s
  let s := s.eventTrigger 3 n t
  if wake then
    ((List.range 14).filter (fun d => (s.getF F.PWR_TCU_WAKE_MASK).testBit d)).foldl State.wakeDom s
  else s

/-- TCU_DECISION: the first tick at which the target lies within the 16-tick look-ahead. It waits for a step that is due (R37). -/
def State.tcuDecide (s : State) (n : Nat) : State :=
  let x := s.tcu n
  match x.arm with
  | none => s
  | some a =>
    if s.getF (F.TIME_TCU_CTRL_STATE n) = 2 ∧ s.stepDue = false ∧ s.tcuDue a.src x.target = true then
      let os := if a.tpoAtArm.isEmpty then [] else s.tposOf n
      let (late, launch, v, t) := s.tcuOutcome a x.target os
      let f : TcuFire := ⟨s.tick, launch, v, a.width, os, false⟩
      let s := s.updTcu n (fun y => { y with
        target := y.target + a.period
        high := max y.high (y.target + a.period)
        fires := y.fires.filter (fun z => !z.launched || decide (s.tick ≤ z.launch)) ++ [f] })
      let s := (s.bump (F.TIME_TCU_FIRES_FIRES n)).bpNote 4 (fun b => s.getF (F.DBG_BP_SEL_SEL b) == n) s.tick none
      let s := if late then s.setF (F.TIME_TCU_STATUS_LATE n) 1 else s
      let s := if a.periodic then s else (s.setF (F.TIME_TCU_STATUS_FIRED n) 1).tcuOff n
      let s := if a.evrec then s.emit 0 0x0201 (pw n ++ ptime t ++ pw s.epoch ++ psn s.tick ++ pb late) else s
      s.tcuConsumers n t late a.wake
    else s

def execTcuDecision (n : Fin 16) (s : State) : Host.Outcome State Fault Refusal := .next (s.tcuDecide n)

/-! ### Pulse outputs (R46, R47) -/

/-- The leading edge of a pulse on output `o`. -/
def State.tpoRise (s : State) (n : Nat) (f : TcuFire) (o : Nat) : State :=
  if s.bit (F.TIME_TPO_CTRL_EN o) then
    (s.updTpo o (fun x => { x with
      active := true, lastChange := some f.launch, trail := some (f.launch + f.width), vernier := f.vernier, unit := n })).pinEdge
      s (.tpo o) f.launch f.vernier
  else s

/-- TCU_EDGE_LAUNCH: the first firing whose launch tick has come. -/
def State.tcuLaunch (s : State) (n : Nat) : State :=
  match (s.tcu n).fires.find? (fun f => !f.launched && decide (f.launch ≤ s.tick)) with
  | none => s
  | some f =>
    let s := s.updTcu n (fun x => { x with fires := x.fires.map (fun g => if g = f then { g with launched := true } else g) })
    f.tpos.foldl (fun s o => s.tpoRise n f o) s

def execTcuEdgeLaunch (n : Fin 16) (s : State) : Host.Outcome State Fault Refusal := .next (s.tcuLaunch n)

/-- TPO_TRAILING_EDGE: WIDTH ticks after the leading launch, with the same vernier. -/
def State.tpoFall (s : State) (o : Nat) : State :=
  let x := s.time.tpos.getD o Tpo.reset
  match x.trail with
  | none => s
  | some k =>
    if k ≤ s.tick then
      (s.updTpo o (fun x => { x with active := false, lastChange := some k, trail := none })).pinEdge s (.tpo o) k x.vernier
    else s

def execTpoTrailingEdge (o : Fin 8) (s : State) : Host.Outcome State Fault Refusal := .next (s.tpoFall o)

/-- Does a decided edge of output `o` fall due before tick `k`? -/
def State.tpoSoon (s : State) (o k : Nat) : Bool :=
  (match (s.time.tpos.getD o Tpo.reset).trail with | some e => decide (e < k) | none => false) ||
  s.time.tcus.any (fun u => u.fires.any (fun f => !f.launched && f.tpos.contains o && decide (f.launch < k)))

/-- A write of TIME_TPO_CTRL: a disabled output drives its inactive level, and its pulse ends. A level that the write changes
changes at once, or 2 ticks after the previous change (R46, R47). Where a decided edge of the output follows less than 2 ticks
after that, the level changes with the edge (DESIGN CHOICE, assumption log 80). -/
def State.tpoCtrl (s : State) (o : Nat) (v : Word) : State :=
  let x := s.time.tpos.getD o Tpo.reset
  let was := s.tpoLevel o x.active
  let s := s.wr (R.TIME_TPO_CTRL o) (v &&& 0x000000F3#32)
  let on := s.bit (F.TIME_TPO_CTRL_EN o)
  let s := if on then s else s.updTpo o (fun x => { x with active := false, trail := none })
  let is := s.tpoLevel o (on && x.active)
  let k := match x.lastChange with | some c => max s.tick (c + 2) | none => s.tick
  if is = was || (on && s.tpoSoon o (k + 2)) then s
  else
    (s.updTpo o (fun x => { x with lastChange := some k })).pinOut (.tpo o) is k 0

/-! ### Time steps and loads (R36, R48, R52, R53) -/

/-- End of the pulse that unit `n` has in progress or committed on an output that is still enabled. -/
def State.pulseOver (s : State) (n : Nat) : Nat :=
  let on := fun (f : TcuFire) => !f.launched && f.tpos.any (fun o => s.bit (F.TIME_TPO_CTRL_EN o))
  let k := (s.tcu n).fires.foldl (fun k f => if on f then max k (f.launch + f.width) else k) 0
  s.time.tpos.foldl (fun k x => match x.trail with | some e => if x.unit = n then max k e else k | none => k) k

/-- The tick at which a boundary `b` ahead launches its edge: 15 ticks after the first tick at which it lies within the
look-ahead, one more where its vernier reaches 128 (R41). -/
def State.launchOf (s : State) (src b : Nat) : Nat :=
  let inc := max 1 (s.srcIncr src)
  let n := max 16 (ceilDiv (b - s.srcNow src) inc)
  let r := b - (s.srcNow src + (n - 1) * inc)
  s.tick + n - 1 + (if src = 0 ∧ 128 ≤ r * 64 / nsU then 1 else 0)

/-- The next boundary of a periodic unit after a step (R48): a boundary whose edge would launch less than 2 ticks after the
end of the pulse in progress is passed over. -/
def State.nextBoundary (s : State) (n : Nat) (a : TcuArm) : Nat :=
  let b := firstBoundary a.full a.period (s.launchTime a.src)
  let endAt := s.pulseOver n
  if decide (0 < endAt) && decide (s.tick ≤ endAt) && decide (s.launchOf a.src b < endAt + 2) then b + a.period else b

/-- Unit `n` is re-evaluated after its time has moved from a launch instant of `was` (R48). The boundaries that a periodic unit
passes over for the first time count in SKIP, in QUALIFY too. -/
def State.tcuStep (s : State) (n : Nat) (src was : Nat) : State :=
  match (s.tcu n).arm with
  | none => s
  | some a =>
    let st := s.getF (F.TIME_TCU_CTRL_STATE n)
    if a.src = src ∧ st ≠ 0 then
      if a.periodic then
        let old := if st = 2 then (s.tcu n).target else firstBoundary a.full a.period was
        let b := s.nextBoundary n a
        let seen := max (s.tcu n).high old
        let s := s.updTcu n (fun x => { x with target := b, high := max seen b })
        let s := s.bumpBy (F.TIME_TCU_SKIP_SKIP n) ((b - seen) / max 1 a.period)
        if src = 0 ∧ s.now + 2 * secU < b then s.tcuState n 1 else s
      else if src ≠ 0 then s
      else if a.qual then s.tcuState n 1
      else s.updTcu n (fun x => { x with target := s.shortTarget a })
    else s

def State.tcusStep (s : State) (src was : Nat) : State := (List.range 16).foldl (fun s n => s.tcuStep n src was) s

/-- STEP_COMMIT: a write of `hi` to TIME_STEP_HI. -/
def State.stepCommit (s : State) (hi : Word) : State :=
  if s.time.stepPend.isSome then s.setF F.TIME_STATUS_STEP_BUSY 1
  else
    let z := toSigned 64 (join64 (s.rd R.TIME_STEP_LO) hi)
    ({ s with time := { s.time with stepPend := some (z, s.tick) } }).setF F.TIME_STATUS_STEP_PENDING 1

def execStepCommit (id : Ident) (hi : Word) (s : State) : Host.Outcome State Fault Refusal :=
  .next (s.gated id R.TIME_STEP_HI hi (·.stepCommit hi))

/-- STEP_APPLIED: at its tick k_s T and TIME_EPOCH move, or the step is refused. A rebase of the same tick or an earlier one goes
first (R37). The start instant and the last measured edge of the run move with T (R51). -/
def State.stepApplied (s : State) : State :=
  match s.time.stepPend with
  | none => s
  | some (z, _) =>
    let rebaseDue := match s.time.incrPend with | some (_, i) => s.time.isDue i | none => false
    if s.stepDue && !(rebaseDue && !s.time.stepFirst) then
      let ok := s.time.stepSeen
      let was := s.time.at s.time.frc + 15 * s.time.incr
      let s := ({ s with time := s.time.takeStep }).setF F.TIME_STATUS_STEP_PENDING 0
      if !ok then s.setF F.TIME_STATUS_STEP_ERR 1
      else
        let d : Int := z * (nsU : Nat)
        let s := (s.bump F.TIME_EPOCH_EPOCH).actTakes actTimestep 0
        let s := if s.inRun || s.run.running then
            { s with run := { s.run with tStart := s.run.tStart + d, edgeT := s.run.edgeT + d } } else s
        let s := { s with run := { s.run with sync := s.run.sync.map (fun (p : SyncPulse) => { p with moved := p.moved + d }) } }
        s.tcusStep 0 was
    else s

def execStepApplied (s : State) : Host.Outcome State Fault Refusal := .next s.stepApplied

/-- TB_LOAD: the next tick loads TBn with the held seconds and `v`. -/
def State.tbLoad (s : State) (n : Nat) (v : Word) : State :=
  { s with time := { s.time with tbs := updAt (fun b => { b with load := some (v.toNat % 2 ^ 30) }) s.time.tbs n } }

/-- A step of F-cycles counts one (R428). -/
def State.stepTick (s : State) : State :=
  if s.getF F.DBG_STATUS_STATE = 3 ∧ s.bit F.DBG_CTRL_STEP_UNIT = true then { s with dbg := { s.dbg with steps := s.dbg.steps - 1 } } else s

/-- One T-tick passes: FRC counts (R32), the legacy time bases advance or load (R52), and a load acts on the compare units that use
the time base as a step does (R53). A hub that is held in cold reset does not count (R440). -/
def State.tickPass (s : State) : State :=
  if s.pwr.por then s
  else
    let t := (List.range 4).foldl (fun x n => if (s.tb n).load.isSome then x.tcusStep (n + 1) (s.launchTime (n + 1)) else x) s.tickOn
    t.stepTick.actsTaken

def execTbLoad (id : Ident) (n : Fin 4) (v : Word) (s : State) : Host.Outcome State Fault Refusal :=
  .next (s.gated id (R.TIME_TB_NS n) v (·.tbLoad n v))

/-! ### Capture inputs (R49) -/

/-- TCI_STAMP: an edge at `f` / 128 of the tick on unit `u` is stamped, or counted as missed. -/
def State.tciStamp (s : State) (u : Nat) (rise : Bool) (f : Nat) : State :=
  let e := s.getF (F.TIME_TCI_CTRL_EDGE u)
  let sel := if rise then e % 2 == 1 else e / 2 % 2 == 1
  if s.bit (F.TIME_TCI_CTRL_EN u) && sel then
    let near := match s.time.tciLast.getD u none with | some k => decide (s.tick < k + 8) | none => false
    if near then s.bump (F.TIME_TCI_MISSED_MISSED u)
    else
      let t := s.now + f * s.incrNow / 128
      let s := { s with time := { s.time with tciLast := updAt (fun _ => some s.tick) s.time.tciLast u } }
      let s := s.setF (F.TIME_TCI_SEC_LO_SEC_LO u) (tSec t)
      let s := (s.setF (F.TIME_TCI_SEC_HI_SEC_HI u) (tSec t / 2 ^ 32)).setF (F.TIME_TCI_SEC_HI_EPOCH u) s.epoch
      let s := (s.setF (F.TIME_TCI_NS_NS u) (tNs t)).setF (F.TIME_TCI_FRAC_FRAC u) (tFrac t)
      let s := (s.setB (F.TIME_TCI_FRAC_RISE u) rise).bump (F.TIME_TCI_COUNT_COUNT u)
      if s.bit (F.TIME_TCI_CTRL_EVREC u) then s.emit 0 0x0202 (pw u ++ pb rise ++ ptime t ++ pw s.epoch ++ psn s.tick) else s
  else s

def execTciStamp (u : Fin 5) (rise : Bool) (f : Fin 128) (s : State) : Host.Outcome State Fault Refusal :=
  .next (s.tciStamp u rise f)

/-! ### Anchors (R50, R51) -/

/-- PHASE_RES of an edge labelled `n` at time `t`: floor of (t - g(n)) / Ts in 2^-16 sample, saturated. -/
def State.phaseRes (s : State) (n : Nat) (t : Int) : Int :=
  let q := (t - s.gAt n) * 65536 / (max 1 s.ts : Nat)
  max (-(2 ^ 31 - 1 : Nat)) (min (2 ^ 31 - 1 : Nat) q)

/-- ANCHOR_MEASUREMENT: the last sampling edge, labelled with a multiple of 2^16, is measured at `tdc` / `tickTdc` of the tick. -/
def State.anchor (s : State) (tdc tickTdc : Nat) : State :=
  let n := s.label
  let seen := match s.time.anchors.head? with | some a => a.sn == n | none => false
  if s.runSt = 3 ∧ s.run.running ∧ 0 < s.run.next ∧ n % 65536 = 0 ∧ !seen then
    let t := s.edgeTime tdc tickTdc
    let res := s.phaseRes n t
    let tt := t / 2 ^ 40 * 2 ^ 40
    let a : Anchor := ⟨n, tt, s.epoch, s.time.tbs.map (fun b => (b.sec, b.ns, b.frac)), res⟩
    let s := { s with time := { s.time with anchors := a :: s.time.anchors } }
    let s := { s with run := { s.run with edgeSn := n, edgeT := t - s.stepShift } }
    let s := { s with path := { s.path with
      phases := (res :: s.path.phases).take 16, align := if n = 0 then [(0, res)] else s.path.align } }
    let s := s.wr64 R.TIME_ANCHOR_SN_LO R.TIME_ANCHOR_SN_HI n
    let s := (s.setF F.TIME_ANCHOR_SEC_LO_SEC_LO (tSec tt)).setF F.TIME_ANCHOR_SEC_HI_SEC_HI (tSec tt / 2 ^ 32)
    let s := (s.setF F.TIME_ANCHOR_SEC_HI_EPOCH s.epoch).setF F.TIME_ANCHOR_NS_NS (tNs tt)
    let s := (s.setF F.TIME_ANCHOR_FRAC_FRAC (tFrac tt)).setF F.TIME_PHASE_RES_PHASE_RES (ofSigned 32 res)
    s.setF F.TIME_PHASE_RAW_TDC tdc
  else s

def execAnchorMeasurement (tdc : Nat) (tickTdc : Nat) (s : State) : Host.Outcome State Fault Refusal :=
  .next (s.anchor tdc tickTdc)

/-! ### ALIGN_TERM_UPDATE (R148) -/

/-- The mean of the newest 2^avg phase residuals of the run, truncated toward zero. -/
def meanOf (avg : Nat) (l : List Int) : Int :=
  let k := l.take (2 ^ avg)
  (k.foldl (· + ·) 0).tdiv (max 1 k.length : Nat)

/-- ALIGN_TERM_UPDATE: 2^15 labels after its anchor the new mean becomes the ALIGN term. -/
def State.alignUpdate (s : State) : State :=
  match s.time.anchors.head? with
  | none => s
  | some a =>
    let at_ := a.sn + 32768
    let have_ := s.path.align.any (fun e => e.1 == at_)
    if s.run.running && decide (0 < a.sn) && decide (at_ ≤ s.run.next) && !have_ then
      { s with path := { s.path with
        align := ((at_, meanOf (s.getFAt a.sn F.CND_ALIGN_CTRL_AVG) s.path.phases) :: s.path.align).take 4 } }
    else s

def execAlignTermUpdate (s : State) : Host.Outcome State Fault Refusal := .next s.alignUpdate

end Sys2Proof.Machine
end

