-- ==== Sys2Proof/Machine/Bus.lean ====
section
/-!
DEFINITION. Machine/Bus.lean: writes of BAR0: settings, staged fields, W1C bits and the registers whose write is a command,
then fences and the writes that wait for a domain (R2-R5, R166, R183, R338-R344, R374).
-/

namespace Sys2Proof.Machine

/-! ### Plain registers (R3, R344) -/

/-- A staged write: the shadow and the flag, or WR_BLOCKED while an apply is not IDLE (R344, R345). -/
def State.stage (s : State) (off : Nat) (v : Word) : State :=
  if s.applySt ≠ 0 then s.setF F.HIF_APPLY_STATUS_WR_BLOCKED 1
  else { s with shadows := insShadow off v s.shadows }

/-- A write of a register whose fields act on nothing else: RW and "RW, RS" fields hold the value, a 1 clears a W1C bit, ST
fields are staged, all others are unchanged. RW values outside the field limits leave the register as it is. -/
def State.writePlain (s : State) (off : Nat) (v : Word) : State :=
  match regRow? off with
  | none => s
  | some r =>
    let m := fun (p : Acc → Bool) => BitVec.ofNat 32 (maskOf (fun f => p f.acc) r.fields)
    let st := m (· == .st)
    if st ≠ 0#32 then s.stage off (v &&& st)
    else if !limitsOk off v then s
    else
      let rw := m (fun a => a == .rw || a == .rwrs)
      let old := s.rd off &&& ~~~(v &&& m (· == .w1c))
      s.wr off ((old &&& ~~~rw) ||| (v &&& rw))

/-- As `writePlain` where the `k` low bits of the value must be 0. -/
def State.writeAligned (s : State) (k off : Nat) (v : Word) : State :=
  if v.toNat % 2 ^ k = 0 then s.writePlain off v else s

/-! ### Blocks -/

/-- TIME block. -/
def State.writeTime (s : State) (off : Nat) (v : Word) : State :=
  let n := past 0x20100 off / 0x40
  let o := past 0x20500 off / 0x10
  let b := past 0x20800 off / 0x20
  if off = R.TIME_INCR_HI then s.incrCommit v
  else if off = R.TIME_INCR_LO then
    let s := s.writePlain off v
    { s with time := { s.time with loUse := false } }
  else if off = R.TIME_STEP_HI then s.stepCommit v
  else if n < 16 ∧ off = R.TIME_TCU_CTRL n then (if v.getLsbD 0 then s.tcuArm n v else s.tcuDisarm n v)
  else if o < 8 ∧ off = R.TIME_TPO_CTRL o then s.tpoCtrl o v
  else if b < 4 ∧ off = R.TIME_TB_SEC b then
    { s with time := { s.time with tbs := updAt (fun (x : LegacyTb) => { x with hold := v.toNat }) s.time.tbs b } }
  else if b < 4 ∧ off = R.TIME_TB_NS b then s.tbLoad b v
  else s.writePlain off v

/-- AFE_RUN_CMD: its commands in bit order (R89, R90, R96, R97). -/
def State.runCmd (s : State) (v : Word) : State :=
  let s := if v.getLsbD 0 then s.runArm else s
  let s := if v.getLsbD 1 then s.runDisarm else s
  let s := if v.getLsbD 2 then s.hostStart else s
  if v.getLsbD 3 then (if v.getLsbD 4 then s.stopAtSnCmd else s.hostStop) else s

/-- AFE_QPWR: each REQ bit that changes is a request of its quadrant; ERR is W1C (R88). -/
def State.writeQpwr (s : State) (v : Word) : State :=
  let s := if v.getLsbD 16 then s.setF F.AFE_QPWR_ERR 0 else s
  (List.range 4).foldl (fun s q =>
    if v.getLsbD q && s.getF (qReq q) == 0 then s.quadReq q
    else if !v.getLsbD q && s.getF (qReq q) == 1 then s.quadOff q
    else s) s

/-- AFE_SYNC_CTRL: SYNC_IN is measured while EN is 1 (R99); a pulse in progress is dropped as EN falls. -/
def State.writeSync (s : State) (v : Word) : State :=
  let s := s.writePlain R.AFE_SYNC_CTRL v
  if s.bit F.AFE_SYNC_CTRL_EN then s else { s with run := { s.run with sync := none } }

/-- AFE block. -/
def State.writeAfe (s : State) (off : Nat) (v : Word) : State :=
  if off = R.AFE_RUN_CMD then s.runCmd v
  else if off = R.AFE_PLL_CTRL then s.pllCommit v
  else if off = R.AFE_QPWR then s.writeQpwr v
  else if off = R.AFE_SYNC_CTRL then s.writeSync v
  else s.writePlain off v

/-- CAL block. -/
def State.writeCal (s : State) (off : Nat) (v : Word) : State :=
  if off = R.CAL_CTRL then
    let s := if v.getLsbD 0 then s.calrun else s
    let s := if v.getLsbD 1 then s.calAbort else s
    if v.getLsbD 2 then s.calsaveSubmit else s
  else s.writePlain off v

/-- CND block. -/
def State.writeCnd (s : State) (off : Nat) (v : Word) : State :=
  let c := past 0x100000 off / 0x100
  if c < 256 ∧ off = R.CND_DELAY_NOW c then (if v.getLsbD 0 then s.delayNow c else s) else s.writePlain off v

/-- A write to bank `b` of channel `c`: ignored with WR_ERR while the bank is in use or locked (R166, R167). In a run the words
labelled below the arrival keep what they were computed with. -/
def State.firWrite (s : State) (c b off : Nat) (v : Word) : State :=
  if s.bank c = b ∨ s.bit (F.FIR_STATUS_TARGET_LOCK c) = true then s.setF (F.FIR_STATUS_WR_ERR c) 1
  else (s.land s.firstSn off (v &&& accMask .rw off)).showCharge c b

/-- FIR block and coefficient store. -/
def State.writeFir (s : State) (off : Nat) (v : Word) : State :=
  if 0x240000 ≤ off then
    let c := past 0x240000 off / 0xC00
    s.firWrite c (past 0x240000 off % 0xC00 / 0x600) off v
  else
    let c := past 0x200000 off / 0x400
    let b := past 0x200000 off % 0x400 / 0x10 - 1
    if b < 2 ∧ (off = R.FIR_CFG c b ∨ off = R.FIR_SHIFT c b) then s.firWrite c b off v else s.writePlain off v

/-- A weight or shift of bank `b`: ignored with WR_ERR in the bank in use, and in the other one while it is locked or a copy
fills it (R183, R184). -/
def State.bmfWrite (s : State) (b off : Nat) (v : Word) : State :=
  if s.getF F.BMF_BANK_SEL_SEL = b ∨ s.bit F.BMF_STATUS_TARGET_LOCK = true ∨ s.bit F.BMF_STATUS_COPY_BUSY = true then
    s.setF F.BMF_STATUS_WR_ERR 1
  else s.land s.firstSn off (v &&& accMask .rw off)

/-- BMF block. -/
def State.writeBmf (s : State) (off : Nat) (v : Word) : State :=
  let m := past 0x300100 off / 0x40
  if off = R.BMF_BANK_CTRL then (if v.getLsbD 0 then s.bankCopy else s)
  else if 0x310000 ≤ off ∧ off < 0x318000 then s.bmfWrite (past 0x310000 off / 0x4000) off v
  else if m < 16 ∧ off = R.BMF_SHIFT m 0 then s.bmfWrite 0 off v
  else if m < 16 ∧ off = R.BMF_SHIFT m 1 then s.bmfWrite 1 off v
  else s.writePlain off v

/-- TRG block. -/
def State.writeTrg (s : State) (off : Nat) (v : Word) : State :=
  let n := past 0xA0400 off / 0x100
  if off = R.TRG_APPLY_NOW then (if v.getLsbD 0 then s.trgNow else s)
  else if n < 8 ∧ off = R.TRG_TC_FORCE n then (if v.getLsbD 0 then s.trgForce n else s)
  else s.writePlain off v

/-- MEM block: scrubbing ends where EN falls. -/
def State.writeMem (s : State) (off : Nat) (v : Word) : State :=
  let was := s.bit F.MEM_SCRUB_CTRL_EN
  let s := s.writePlain off v
  if was && !s.bit F.MEM_SCRUB_CTRL_EN then s.scrubOff else s

/-- FLW_EQ_CTRL[n]: EQ2 has no ring, so MODE = 1 is refused there (R239, R244); FLUSH is a command, and a write whose FLUSH is refused
changes nothing (R247). -/
def State.writeEqCtrl (s : State) (id : Ident) (n : Nat) (v : Word) : State :=
  if v.getLsbD 31 && !eqFlushOk id n then s.flushRefused
  else
    let bad := n == 2 && v.getLsbD 30
    let s := (if bad then s.deny else s).writePlain (R.FLW_EQ_CTRL n) (if bad then v &&& 0xBFFFFFFF#32 else v)
    if v.getLsbD 31 then s.eqFlush id n else s

/-- FLW block. -/
def State.writeFlw (s : State) (id : Ident) (off : Nat) (v : Word) : State :=
  let e := past 0x40100 off / 0x40
  let q := past 0x41000 off / 0x40
  let w := past 0x44000 off / 0x20
  if e < 3 ∧ off = R.FLW_EQ_CTRL e then s.writeEqCtrl id e v
  else if q < 16 ∧ off = R.FLW_FQ_CTRL q then (if v.getLsbD 0 then s.fqFlush id q else s)
  else if q < 16 ∧ off = R.FLW_FQ_LIMIT q then (s.writePlain off v).fqLimited q (s.fqUsable q)
  else if w < 512 ∧ off = R.FLW_WQ_CTRL w then (if v.getLsbD 0 then s.wqFlush id w else s)
  else s.writePlain off v

/-- STR block: REQ must be a version that VERS allows (R301). -/
def State.writeStr (s : State) (off : Nat) (v : Word) : State :=
  let i := past 0xC0000 off / 0x100
  if i < 64 ∧ off = R.STR_CTRL i then
    let s := s.writePlain off v
    if v.getLsbD 31 then s.failbackReq i else s
  else if i < 64 ∧ off = R.STR_VER i then
    (if s.verAllowed i (getBits v 0 2) then s.writePlain off v
     else if v.getLsbD 7 then s.setF (F.STR_VER_NEG_FAIL i) 0 else s)
  else s.writePlain off v

/-- A key word of Damuf: from HOST1 and DBG; NETM writes one only in a request under the other slot (R329). -/
def State.writeKey (s : State) (id : Ident) (off : Nat) (v : Word) : State :=
  if id == .host1 || id == .dbg then s.wr off v else s.bump F.NET_DMF_DENIED_COUNT

/-- Does the offset belong to a key word? -/
def isKey (off : Nat) : Bool := decide (0xD3100 ≤ off) && decide (off < 0xD3140)

/-- NET block. -/
def State.writeNet (s : State) (id : Ident) (off : Nat) (v : Word) : State :=
  let p := past 0xD0000 off / 0x4000
  if off = R.NET_TS_STATUS then
    let s := if v.getLsbD 0 then s.suspectAck else s
    if v.getLsbD 1 then s.suspectSet else s
  else if isKey off then s.writeKey id off v
  else if p < 4 ∧ off = R.NET_PORT_CTRL p then
    let s := s.writePlain off v
    let s := if v.getLsbD 1 then s.restartPort p else s
    if v.getLsbD 2 then s.readapt p else s
  else if p < 4 ∧ off = R.NET_PTP_CTRL p then
    let was := s.bit (F.NET_PTP_CTRL_EN p)
    let s := s.writePlain off v
    if !was && s.bit (F.NET_PTP_CTRL_EN p) then s.updPtp p (fun _ => PtpState.reset) else s
  else if off = R.NET_SYNCE_CTRL then (s.writePlain off v).clkMove s
  else s.writePlain off v

/-- Ring registers of function `f`, ring `r` (R349, R350). -/
def State.writeRing (s : State) (f r off : Nat) (v : Word) : State :=
  if off = R.HIF_RING_CTRL f r then s.ringCtrl f r v []
  else if off = R.HIF_RING_PI f r then (if r < 9 then s.piWrite f r (getBits v 0 16) [] else s)
  else if off = R.HIF_RING_CI f r then (if r = 9 then s.setF (F.HIF_RING_CI_CI f r) (getBits v 0 16) else s)
  else if off = R.HIF_RING_BASE_LO f r then s.writeAligned 6 off v
  else if off = R.HIF_RING_WB_LO f r then s.writeAligned 3 off v
  else s.writePlain off v

/-- HIF block. -/
def State.writeHif (s : State) (off : Nat) (v : Word) : State :=
  let f := past 0xE1000 off / 0x1000
  let r := past 0xE1000 off % 0x1000 / 0x40
  if off = R.HIF_APPLY_CTRL then
    let s := if v.getLsbD 0 then s.applyArm else s
    if v.getLsbD 1 then s.applyDisarm else s
  else if 0xE1000 ≤ off ∧ f < 2 ∧ r < 10 then s.writeRing f r off v
  else s.writePlain off v

/-- PWR block. -/
def State.writePwr (s : State) (id : Ident) (off : Nat) (v : Word) : State :=
  let d := past 0x10100 off / 4
  if off = R.PWR_RESET then s.softWarm v
  else if off = R.PWR_BLK_RESET then s.blkReset v
  else if off = R.PWR_SAVE_CTRL then
    let s := (s.writePlain off v).saveRestart s
    if v.getLsbD 0 then s.submit actSetsave 0 0 else s
  else if d < 14 ∧ off = R.PWR_DOM_CTRL d then s.domCtrl id d v
  else s.writePlain off v

/-- IMG and UPD block. -/
def State.writeUpd (s : State) (id : Ident) (off : Nat) (v : Word) : State :=
  if off = R.IMG_REFORM_CTRL then s.reformWrite v
  else if off = R.IMG_HOST_ADDR_LO ∨ off = R.UPD_SRC_ADDR_LO then s.writeAligned 12 off v
  else if off = R.UPD_SESSION then s.updClose id v
  else if off = R.UPD_CTRL then s.updCtrl id v
  else if off = R.UPD_DATA then s.updPush id v
  else s.writePlain off v

/-- MNT block: ALERT_N follows the status and the mask (R419). -/
def State.writeMnt (s : State) (off : Nat) (v : Word) : State :=
  (s.writePlain off v).pinEdge s .alertN s.tick 0

/-- A write of `v` at `off` by `id` takes effect. -/
def State.writeEff (s : State) (id : Ident) (off : Nat) (v : Word) : State :=
  match off / 0x10000 with
  | 0 => if off = R.GLB_FENCE then s.fence id (getBits v 0 16) else s
  | 1 => s.writePwr id off v
  | 2 => s.writeTime off v
  | 4 => s.writeFlw id off v
  | 5 => s.writeMem off v
  | 6 => if off = R.DBG_CTRL then s.dbgCtrl v else s.writePlain off v
  | 7 => s.writeUpd id off v
  | 8 => s.writeCal off v
  | 9 => s.writeAfe off v
  | 10 => s.writeTrg off v
  | 11 => if off = R.SNT_ABORT then s.sntAbort v else s.writePlain off v
  | 12 => s.writeStr off v
  | 13 => s.writeNet id off v
  | 14 => s.writeHif off v
  | 15 => s.writeMnt off v
  | k =>
    if k = 16 ∨ k = 17 then s.writeCnd off v
    else if 32 ≤ k ∧ k < 48 then s.writeFir off v
    else if 48 ≤ k ∧ k < 50 then s.writeBmf off v
    else s.writePlain off v

/-! ### The access path of a write (R338-R343, R355, R358, R365) -/

/-- A write to a mailbox channel that its rights let through (R357-R361). -/
def State.mbxWrite (s : State) (id : Ident) (n off : Nat) (v : Word) : State :=
  let o := off % 0x80
  if o < 0x44 then s.mbxCompose id n (o / 4) v
  else if o = 0x44 then s.mbxDoorbell id n v
  else (s.writePlain off v).pinEdge s .wakeN s.tick 0

/-- A write of one word of BAR0 by `id`, held as `k` where it waits. One to a reserved address has no effect (R5). -/
def State.busWriteAs (s : State) (k : HeldKind) (id : Ident) (off : Nat) (v : Word) : State :=
  if !onBus id && !(specialAt off).forAgent off then s.deny
  else
    match specialAt off with
    | .channel n => if (regRow? off).isNone then s else s.mbxGated id n off v (fun s => s.mbxWrite id n off v)
    | .lock n => s.lockGated id n v
    | .table w e =>
      match tableFn id with
      | some f => if s.waits id off then s.goBehind .write id off v else (s.msixWrite f w e v).bpReg id off true
      | none => s.deny
    | .pba _ => s
    | .none =>
      if (regRow? off).isNone then s
      else s.gatedAs k id off v (fun s => if k = .key then s.wr off v else s.writeEff id off v)

/-- A write of one word of BAR0 by `id`. -/
def State.busWrite (s : State) (id : Ident) (off : Nat) (v : Word) : State := s.busWriteAs .write id off v

/-- Is a read of the word at `off` refused to `id`: outside BAR0, a mailbox register without the right, an MSI-X table of a
function that `id` is not? -/
def State.rdRefused (s : State) (id : Ident) (off : Nat) : Bool :=
  if inBar0 off && (onBus id || (specialAt off).forAgent off) then
    match specialAt off with
    | .channel n => (regRow? off).isSome && !s.mbxMayRead id n (off % 0x80)
    | .table _ _ => (tableFn id).isNone
    | .pba _ => (tableFn id).isNone
    | _ => false
  else true

/-- The counters that tell whether a write was refused: those of R339, R358 and R329. -/
def State.refusals (s : State) : Nat × Nat × Nat :=
  (s.getF F.HIF_DENY_COUNT, s.getF F.MBX_ERR_COUNT_COUNT, s.getF F.NET_DMF_DENIED_COUNT)

/-- Does the word ask for a flush that is refused to `id` (R247)? -/
def State.flushNo (s : State) (id : Ident) (off : Nat) (v : Word) : Bool :=
  let e := past 0x40100 off / 0x40
  let q := past 0x41000 off / 0x40
  let w := past 0x44000 off / 0x20
  (decide (e < 3) && off == R.FLW_EQ_CTRL e && v.getLsbD 31 && !eqFlushOk id e) ||
    (v.getLsbD 0 && !s.flushOk id && ((decide (q < 16) && off == R.FLW_FQ_CTRL q) || (decide (w < 512) && off == R.FLW_WQ_CTRL w)))

/-- Was the write of `v` at `off` by `id` that led from `s` to `t` refused? -/
def State.refusedTo (s t : State) (id : Ident) (off : Nat) (v : Word) : Bool :=
  t.refusals != s.refusals || (decide (s.gateW id off = .go) && s.flushNo id off v)

/-- A write request by `id` at `off` (R338): one DW, or two DWs at an 8-byte-aligned address, the lower first. -/
def State.writeReq (s : State) (id : Ident) (off : Nat) (req : BarWrite) : State :=
  if s.pwr.por then s
  else match req with
  | .dw v => if off % 4 = 0 then s.busWrite id off v else s.badReq
  | .two lo hi => if off % 8 = 0 then (s.busWrite id off lo).busWrite id (off + 4) hi else s.badReq
  | .bad => s.badReq

/-- REGISTER_WRITE, and every write that a fence or a domain held. -/
def execRegisterWrite (id : Ident) (off : Nat) (req : BarWrite) (s : State) : Host.Outcome State Fault Refusal :=
  if inBar0 off then .next (s.writeReq id off req) else .fault .outsideBar0

/-! ### FENCE_DONE (R343) -/

/-- What the debug access unit shifts out of a read that was held: its data and whether it was refused, over the access it made. -/
def drHeld (dr d : Nat) (no : Bool) : Nat := dr / 2 ^ 32 % 2 ^ 29 * 2 ^ 32 + d + b2n no * 2 ^ 61

/-- The data register takes them. -/
def State.showHeld (s : State) (d : Nat) (no : Bool) : State := { s with dbg := { s.dbg with dr := drHeld s.dbg.dr d no } }

/-- A held read completes; one of the debug access unit shows its data (R424). -/
def State.heldRead (s : State) (h : HeldWrite) : State :=
  if h.kind = .dau then (s.busRead .dbg h.off).2.showHeld (s.busRead .dbg h.off).1.toNat (s.rdRefused .dbg h.off)
  else s.readNow h.ident h.off

/-- Accesses that waited go on one after another, each behind those that it still has to wait for. -/
def State.replay (s : State) : List HeldWrite → State
  | [] => s
  | h :: t =>
    (if h.isWrite then s.busWriteAs h.kind h.ident h.off h.v
     else if s.readWaits h.ident h.off then s.holdRead h.kind h.ident h.off
     else s.heldRead h).replay t

/-- The accesses of `id` behind others that `p` selects go on. -/
def State.behindGo (s : State) (id : Ident) (p : HeldWrite → Bool) : State :=
  let mine := fun (h : HeldWrite) => h.ident == id && p h
  let l := s.pwr.behind.filter mine
  ({ s with pwr := { s.pwr with behind := s.pwr.behind.filter (fun h => !mine h) } }).replay l

/-- FENCE_DONE: every earlier write of `id` has taken effect, the token is that of the completed fence, and the writes behind
it follow. -/
def State.fenceDone (s : State) (id : Ident) : State :=
  if s.early id then s else ((s.fenceOver id).allEarly id).behindGo id (fun _ => true)

def execFenceDone (id : Ident) (s : State) : Host.Outcome State Fault Refusal := .next (s.fenceDone id)

/-! ### DOMAIN_ON (R340, R374) -/

/-- Held accesses of a domain that is ON take effect in the order in which they came. -/
def State.release (s : State) : List HeldWrite → State
  | [] => s
  | h :: t =>
    (match h.kind with
     | .write => (s.writeEff h.ident h.off h.v).bpReg h.ident h.off true
     | .key => (s.wr h.off h.v).bpReg h.ident h.off true
     | _ => s.heldRead h).release t

/-- Where no write of `id` is held any more, the accesses behind follow: all of them where no fence of `id` waits, those from before the
fence where one does (R342, R343, R345). -/
def State.followers (s : State) (id : Ident) : State :=
  if s.pwr.held.any (fun h => h.ident == id && !h.late) then s
  else if s.fencing id then
    let t := s.host.fencePend.getD id.num none
    let late := s.pwr.behind.filter (fun h => h.ident == id && h.late)
    let s := { s with
      pwr := { s.pwr with behind := s.pwr.behind.filter (fun h => !(h.ident == id && h.late)) }
      host := { s.host with fencePend := updAt (fun _ => none) s.host.fencePend id.num } }
    let s := s.behindGo id (fun _ => true)
    { s with
      pwr := { s.pwr with behind := s.pwr.behind ++ late }
      host := { s.host with fencePend := updAt (fun _ => t) s.host.fencePend id.num } }
  else s.behindGo id (fun _ => true)

/-- FUNCTION_LEVEL_RESET: what waited behind the fence that it clears goes on. -/
def execFunctionLevelReset (f : Fin 2) (s : State) : Host.Outcome State Fault Refusal :=
  .next ((s.flr f).followers (fnIdent f))

/-- DOMAIN_ON: a waking domain is ON, and the writes held for it follow. -/
def State.domainOn (s : State) (d : Nat) : State :=
  if s.pwr.waking.contains d then
    let s0 := s
    let s := s.domRise d
    let mine := fun (h : HeldWrite) => domainOf h.off == d
    let l := s.pwr.held.filter mine
    let s := (({ s with pwr := { s.pwr with held := s.pwr.held.filter (fun h => !mine h) } }).release l).follow s0
    [Ident.host0, .host1, .netm, .dbg].foldl State.followers s
  else s

def execDomainOn (d : Fin 14) (s : State) : Host.Outcome State Fault Refusal := .next (s.domainOn d)

end Sys2Proof.Machine
end

