-- ==== Sys2Proof/Machine/Damuf.lean ====
section
/-!
DEFINITION. Machine/Damuf.lean: the Damuf agent: the test of a request, its execution as NETM and its reply (R301, R325-R330,
R391-R402).
-/

namespace Sys2Proof.Machine

/-! ### Frames (R325, R326) -/

def dmfOp (u : List Byte) : Nat := leAt u 3 1
def dmfKey (u : List Byte) : Nat := leAt u 4 1
def dmfSeq (u : List Byte) : Nat := leAt u 8 8
def dmfBody (u : List Byte) : List Byte := sub u 32 (dmfLen u)

/-- Key of slot `k`: its words, the first byte in bits 31:24. -/
def State.dmfSecret (s : State) (k : Nat) : List Byte := wordsBe ((List.range 8).map (fun i => s.rd (R.NET_DMF_KEY k i)))

/-- Last accepted SEQ of slot `k`. -/
def State.dmfLast (s : State) (k : Nat) : Nat := s.rd64 (R.NET_DMF_SEQ_LO k) (R.NET_DMF_SEQ_HI k)

/-- The test of R326 on a UDP payload: length and magic, then key and tag, then SEQ, then HUB_ID. -/
def State.dmfTest (s : State) (u : List Byte) : Option DmfFail :=
  let k := dmfKey u
  let n := 32 + dmfLen u
  let hub := leAt u 20 2
  if !dmfSized u then some .drop
  else if u.take 3 ≠ [0x44#8, 0x46#8, 1#8] then some .drop
  else if !(decide (k < 2) && (s.rd R.NET_DMF_KEY_CTRL).getLsbD k && sub u n 32 == hmac256 (s.dmfSecret k) (u.take n)) then
    some .auth
  else if dmfSeq u ≤ s.dmfLast k then some .replay
  else if hub ≠ s.getF F.STR_HUB_ID_HUB_ID ∧ hub ≠ 0xFFFF then some .drop
  else none

/-! ### Replies (R325, R327, R328) -/

/-- What a request comes to: STATUS, OWNER and the reply's body. -/
structure DmfAns where
  status : Nat
  owner  : Nat
  body   : List Byte
deriving DecidableEq, Repr

def ansOk (b : List Byte) : DmfAns := ⟨0, 0, b⟩
def ansBadOp : DmfAns := ⟨1, 0, []⟩
def ansBadLen : DmfAns := ⟨2, 0, []⟩

/-- The UDP payload of the reply to `u`. -/
def State.dmfReply (s : State) (u : List Byte) (a : DmfAns) : List Byte :=
  let m := [0x44#8, 0x46#8, 1#8] ++ leBytes 1 (dmfOp u) ++ leBytes 1 (dmfKey u) ++ [1#8] ++ leBytes 2 a.body.length ++
    leBytes 8 (dmfSeq u) ++ leBytes 1 a.status ++ leBytes 1 a.owner ++ zeros 2 ++ leBytes 2 (s.getF F.STR_HUB_ID_HUB_ID) ++
    zeros 10 ++ a.body
  m ++ hmac256 (s.dmfSecret (dmfKey u)) m

/-- The frame that carries `pay` from port `p` back to the sender of `b`. Its DSCP is open. -/
def State.dmfFrame (s : State) (p : Nat) (b pay : List Byte) : List Byte × State :=
  let (v, s) := s.free
  let dscp := v % 64
  let dst := sub b 6 6
  let src := s.macBytes (R.NET_MAC_HI p) (R.NET_MAC_LO p)
  let ttl := s.getF (F.NET_IPHDR_TTL p)
  if isIp6 b then
    (etherFrame dst src (s.vlanTag p) 0x86DD (ip6Pkt dscp ttl (s.ip6Bytes p) (ipSrc b) (udpDst b) (udpSrc b) pay (sum16 pay)), s)
  else
    (etherFrame dst src (s.vlanTag p) 0x0800
      (ip4Bytes dscp ttl (beBytes 4 (s.rd (R.NET_IP4 p)).toNat) (ipSrc b) (udpDst b) (udpSrc b) pay (sum16 pay)
        (s.bit (F.NET_IPHDR_CSUM4 p))), s)

/-- The reply waits at the port that received the request. -/
def State.dmfSend (s : State) (p : Nat) (b u : List Byte) (a : DmfAns) : State :=
  let (f, s) := s.dmfFrame p b (s.dmfReply u a)
  s.updPort p (fun x => { x with replies := x.replies ++ [f] })

/-- An operation of the agent: what it answers to a body, given the key slot, and the state it leaves. -/
abbrev DmfRun := State → Nat → List Byte → DmfAns × State

/-- Does a READ or OPEN wait for an earlier write by NETM to the block that it reads (R342)? -/
def State.dmfWaits (s : State) (u : List Byte) : Bool :=
  let b := dmfBody u
  match dmfOp u with
  | 1 => (List.range (min 64 (leAt b 4 2))).any (fun i => s.readWaits .netm (leAt b 0 4 + 4 * i))
  | 4 => leAt b 0 1 == 1 && s.readWaits .netm R.UPD_SESSION
  | _ => false

/-- The head of the agent's queue is served: a request that fails the test is counted and dropped, whatever it asks; an
accepted one that `mine` admits by OP and first body byte runs and is answered. A head that another row serves waits, and so does
one that reads behind an earlier write. -/
def State.damuf (s : State) (mine : Nat → Nat → Bool) (run : DmfRun) : State :=
  match s.dmfQ with
  | [] => s
  | (p, b) :: t =>
    if !s.dmfUp then s
    else
      let u := udpPayload b
      match s.dmfTest u with
      | some w => ({ s with dmfQ := t }).dmfFailed p b w
      | none =>
        if mine (dmfOp u) (leAt u 32 1) && !s.dmfWaits u then
          let k := dmfKey u
          let s := ({ s with dmfQ := t }).wr64 (R.NET_DMF_SEQ_LO k) (R.NET_DMF_SEQ_HI k) (dmfSeq u)
          let s := s.bump F.NET_DMF_REQ_COUNT
          let (a, s) := run s k (dmfBody u)
          s.dmfSend p b u a
        else s

/-! ### READ and WRITE (R327-R329) -/

/-- One word read as NETM: its data, whether it was refused. -/
def State.dmfRd (s : State) (off : Nat) : Word × Bool × State :=
  let no := s.rdRefused .netm off
  if inBar0 off then
    let (v, s) := s.busRead .netm off
    (if no then 0#32 else v, no, s)
  else (0#32, true, s)

/-- `n` words from `off` upward. -/
def State.dmfRds (s : State) (off : Nat) : Nat → List Word × Bool × State
  | 0 => ([], false, s)
  | n + 1 =>
    let x := s.dmfRd off
    let y := x.2.2.dmfRds (off + 4) n
    (x.1 :: y.1, x.2.1 || y.2.1, y.2.2)

/-- READ. -/
def State.dmfRead (s : State) (_k : Nat) (b : List Byte) : DmfAns × State :=
  let a := leAt b 0 4
  let n := leAt b 4 2
  if b.length ≠ 8 ∨ a % 4 ≠ 0 ∨ n = 0 ∨ 64 < n then (ansBadLen, s)
  else
    let (l, no, s) := s.dmfRds a n
    (⟨if no then 3 else 0, 0, wordsLe l⟩, s)

/-- One word written as NETM under key slot `k`, and whether it was refused: a key word of the other slot is accepted. -/
def State.dmfWr (s : State) (k off : Nat) (v : Word) : Bool × State :=
  if !inBar0 off then (true, s)
  else
    let other := isKey off && past 0xD3100 off / 0x20 != k
    let t := s.busWriteAs (if other then .key else .write) .netm off v
    (s.refusedTo t .netm off v, t)

/-- Words written upward from `off` until one is refused; the count of those before it. -/
def State.dmfWrs (s : State) (k off : Nat) : List Word → Nat × Bool × State
  | [] => (0, false, s)
  | v :: t =>
    let x := s.dmfWr k off v
    if x.1 then (0, true, x.2)
    else
      let y := x.2.dmfWrs k (off + 4) t
      (y.1 + 1, y.2.1, y.2.2)

/-- The words of a little-endian byte string. -/
def leWords (b : List Byte) : List Word := (List.range (b.length / 4)).map (fun i => lo32 (leAt b (4 * i) 4))

/-- WRITE. -/
def State.dmfWrite (s : State) (k : Nat) (b : List Byte) : DmfAns × State :=
  let a := leAt b 0 4
  let n := leAt b 4 2
  if b.length ≠ 8 + 4 * n ∨ 1024 < b.length ∨ a % 4 ≠ 0 ∨ n = 0 then (ansBadLen, s)
  else
    let (d, no, s) := s.dmfWrs k a (leWords (b.drop 8))
    (⟨if no then 3 else 0, 0, leBytes 4 d⟩, s)

/-- The frames that DAMUF_READ serves: READ, and those whose OP or subop does not exist. -/
def dmfMineRead (op sub_ : Nat) : Bool :=
  op == 1 || !(op == 2 || op == 3 || op == 4) || (op == 4 && !(decide (1 ≤ sub_) && decide (sub_ ≤ 8)))

/-- DAMUF_READ: an unknown OP or subop is answered BAD_OP. -/
def State.damufRead (s : State) (op : Nat) (k : Nat) (b : List Byte) : DmfAns × State :=
  if op = 1 then s.dmfRead k b
  else if op = 4 ∧ (b.length < 8 ∨ 8192 < b.length) then (ansBadLen, s)
  else (ansBadOp, s)

/-- OP of the head frame. -/
def State.dmfHeadOp (s : State) : Nat := match s.dmfQ with | (_, b) :: _ => dmfOp (udpPayload b) | [] => 0

def execDamufRead (s : State) : Host.Outcome State Fault Refusal :=
  .next (s.damuf dmfMineRead (fun t k b => t.damufRead s.dmfHeadOp k b))

def execDamufWrite (s : State) : Host.Outcome State Fault Refusal :=
  .next (s.damuf (fun op _ => op == 2) (fun t k b => t.dmfWrite k b))

/-! ### CAPS (R301) -/

/-- The highest common version of stream `i` and ACCEPT, 0 for none. -/
def State.dmfChoose (s : State) (i acc : Nat) : Nat :=
  ([3, 2, 1].find? (fun v => s.verAllowed i v && acc.testBit (v - 1))).getD 0

/-- CAPS. -/
def State.dmfCaps (s : State) (_k : Nat) (b : List Byte) : DmfAns × State :=
  if b.length ≠ 4 then (ansBadLen, s)
  else
    let i := leAt b 0 1
    let real := decide (i < 64)
    let c := if real then s.dmfChoose i (leAt b 1 1) else 0
    let vers := if real then getBits (s.rd (R.STR_DEF i)) 16 3 else 0
    let g := fun (off : Nat) => leBytes 4 (s.glbReg 3 off).toNat
    let body := leBytes 1 i ++ leBytes 1 vers ++ leBytes 1 c ++ zeros 1 ++ g R.GLB_VER_REGMAP ++ g R.GLB_VER_STALUX ++
      g R.GLB_VER_DAMUF ++ g R.GLB_VER_CONTAINER
    let s := if c ≠ 0 then s.setF (F.STR_VER_REQ i) c else if real then s.setF (F.STR_VER_NEG_FAIL i) 1 else s
    (ansOk body, s)

def execDamufCaps (s : State) : Host.Outcome State Fault Refusal :=
  .next (s.damuf (fun op _ => op == 3) (fun t k b => t.dmfCaps k b))

/-! ### UPD (R391-R402) -/

/-- The body of an UPD reply (R393). -/
def State.updAns (s : State) (sub_ : Nat) : List Byte :=
  leBytes 1 sub_ ++ leBytes 1 s.updSt ++ leBytes 1 (s.getF F.UPD_STATUS_ERR) ++ leBytes 1 (s.getF F.UPD_STATUS_SECTION) ++
    leBytes 4 (s.getF F.UPD_OFFSET_NEXT) ++ leBytes 4 (s.updReg R.UPD_WINDOW_LEFT).toNat

/-- A reply of subop `sub_` after its command: BUSY with the owner, or OK. -/
def State.updSay (s : State) (sub_ : Nat) (busy : Option Nat) : DmfAns × State :=
  match busy with
  | some o => (⟨4, o, s.updAns sub_⟩, s)
  | none => (ansOk (s.updAns sub_), s)

/-- The length of an UPD body: 8 bytes, and up to 8,184 of data with DATA. -/
def updLenOk (data : Bool) (b : List Byte) : Bool :=
  decide (8 ≤ b.length) && decide (b.length ≤ if data then 8192 else 8)

/-- A command of the session that only its owner may give: any other identity's is refused and answered BUSY. -/
def State.updBy (s : State) (sub_ : Nat) (b : List Byte) (f : State → State) : DmfAns × State :=
  if !updLenOk (sub_ == 2) b then (ansBadLen, s)
  else
    let busy := if s.updOwner = Ident.netm.num then none else some s.updOwner
    (s.updOwned .netm f).updSay sub_ busy

/-- A command that any identity may give. -/
def State.updAny (s : State) (sub_ : Nat) (b : List Byte) (f : State → State) : DmfAns × State :=
  if !updLenOk false b then (ansBadLen, s) else (f s).updSay sub_ none

/-- Serves UPD frames of subop `sub_`. -/
def mineUpd (sub_ : Nat) (op got : Nat) : Bool := op == 4 && got == sub_

/-- OPEN: a read of UPD_SESSION by NETM. -/
def State.dmfOpen (s : State) (_k : Nat) (b : List Byte) : DmfAns × State :=
  if !updLenOk false b then (ansBadLen, s)
  else
    let (v, s) := s.gatedRead .netm R.UPD_SESSION (·.updOpen .netm)
    s.updSay 1 (if v.toNat = 0 then none else some v.toNat)

def execDamufOpen (s : State) : Host.Outcome State Fault Refusal :=
  .next (s.damuf (mineUpd 1) (fun t k b => t.dmfOpen k b))

/-- DATA: bytes for UPD_OFFSET; data at any other offset is ignored. -/
def State.dmfData (s : State) (_k : Nat) (b : List Byte) : DmfAns × State :=
  s.updBy 2 b (fun s => if leAt b 4 4 = s.getF F.UPD_OFFSET_NEXT then s.updTake (b.drop 8) else s)

def execDamufData (s : State) : Host.Outcome State Fault Refusal :=
  .next (s.damuf (mineUpd 2) (fun t k b => t.dmfData k b))

/-- ACTIVATE, with AT_SN in bit 0 of OFFSET. -/
def State.dmfActivate (s : State) (_k : Nat) (b : List Byte) : DmfAns × State :=
  s.updBy 3 b (fun s => (s.setF F.UPD_CTRL_AT_SN (leAt b 4 4 % 2)).updActivate)

def execDamufActivate (s : State) : Host.Outcome State Fault Refusal :=
  .next (s.damuf (mineUpd 3) (fun t k b => t.dmfActivate k b))

/-- The owner ends its session. -/
def State.dmfEnd (s : State) (sub_ : Nat) (b : List Byte) : DmfAns × State :=
  s.updBy sub_ b (fun s => if s.updLive then s.updEnd Ident.netm.num else s)

def execDamufAbort (s : State) : Host.Outcome State Fault Refusal :=
  .next (s.damuf (mineUpd 4) (fun t _ b => t.dmfEnd 4 b))

def execDamufStatus (s : State) : Host.Outcome State Fault Refusal :=
  .next (s.damuf (mineUpd 5) (fun t _ b => t.updAny 5 b id))

def execDamufConfirm (s : State) : Host.Outcome State Fault Refusal :=
  .next (s.damuf (mineUpd 6) (fun t _ b => t.updAny 6 b State.confirmed))

def execDamufReject (s : State) : Host.Outcome State Fault Refusal :=
  .next (s.damuf (mineUpd 7) (fun t _ b => t.updAny 7 b State.rejected))

def execDamufClose (s : State) : Host.Outcome State Fault Refusal :=
  .next (s.damuf (mineUpd 8) (fun t _ b => t.dmfEnd 8 b))

end Sys2Proof.Machine
end

