-- ==== Sys2Proof/Machine/Dau.lean ====
section
/-!
DEFINITION. Machine/Dau.lean: DAU_ACCESS, one register or memory access as DBG through the test access port (R424, R430).
-/

namespace Sys2Proof.Machine

/-- What an access came to: STATUS, and DATA where it read a word. -/
abbrev DauAns := Nat × Option Word

/-- A BAR0 access of one word (R338-R342). -/
def State.dauBar0 (s : State) (addr : Nat) (write : Bool) (v : Word) : DauAns × State :=
  if addr % 4 ≠ 0 then ((1, if write then none else some 0#32), s.badReq)
  else if !inBar0 addr then ((1, if write then none else some 0#32), s)
  else if write then
    let t := s.busWrite .dbg addr v
    ((b2n (s.refusedTo t .dbg addr v), none), t)
  else
    let no := s.rdRefused .dbg addr
    let (d, s) := s.busRead .dbg addr
    ((b2n no, some d), s)

/-- A BAR2 access of one word (R224, R225), as the host window makes it. -/
def State.dauBar2 (s : State) (addr : Nat) (write : Bool) (v : Word) : DauAns × State :=
  if addr % 4 ≠ 0 then ((1, if write then none else some 0#32), s)
  else if !s.domOn 9 then
    if write then ((0, none), s.setF F.HIF_STATUS_WR_OFF 1) else ((0, some 0#32), s.setF F.HIF_STATUS_RD_OFF 1)
  else if !s.windowMay .dbg write addr 4 then ((1, if write then none else some 0#32), s.memDeny .dbg addr write)
  else if write then ((0, none), s.windowWrite .dbg addr (leBytes 4 v.toNat))
  else
    let (b, bad, s) := s.windowWords addr 1
    ((if bad then 3 else 0, some (lo32 (leAt b 0 4))), s)

/-- Does an access wait behind an earlier write of DBG (R342)? -/
def State.dauWaits (s : State) : Bool := (s.pwr.held ++ s.pwr.behind).any (fun h => h.kind == .dau)

/-- The access that the bits shifted in ask for runs; `dr` keeps them with its STATUS and DATA. DATA of a write is open. A read that waits
for an earlier write gives them later. -/
def State.dauRun (s : State) (w : Nat) : State :=
  let addr := w / 2 ^ 32 % 2 ^ 27
  let write := w.testBit 60
  let v := lo32 w
  if !w.testBit 59 && !write && addr % 4 == 0 && inBar0 addr && s.readWaits .dbg addr then
    ({ s with dbg := { s.dbg with dr := w % 2 ^ 61, busy := true } }).holdRead .dau .dbg addr
  else
  let x := if w.testBit 59 then s.dauBar2 addr write v else s.dauBar0 addr write v
  let y := match x.1.2 with
    | some d => (d.toNat, x.2)
    | none => (x.2.free.1 % 2 ^ 32, x.2.free.2)
  { y.2 with dbg := { y.2.dbg with dr := y.1 + w / 2 ^ 32 % 2 ^ 29 * 2 ^ 32 + x.1.1 * 2 ^ 61, busy := true } }

/-- Has the last access finished at the capture (0), or only by the update (2), or not (1)? It is open, but where it waits. -/
def State.dauLate (s : State) : Nat × State :=
  if s.dauWaits then (1, s.free.2) else (s.free.1 % 3, s.free.2)

/-- DAU_ACCESS: the capture, then the access of the bits shifted in. A capture may find the last access unfinished: it shows
BUSY, and an access that starts before that one has finished is ignored. A locked unit captures DENIED and performs nothing. -/
def State.dauAccess (s : State) (w : Nat) : State :=
  let s := s.irLoad irDau
  let fields := s.dbg.dr % 2 ^ 61
  if s.dbgLocked then
    let s := s.obsv (.tdo (bitsLsb 64 (fields + 2 ^ 61)))
    { s with dbg := { s.dbg with dr := w % 2 ^ 61, busy := false } }
  else if s.dbg.busy then
    let (v, s) := s.dauLate
    if v = 0 then (s.obsv (.tdo (bitsLsb 64 s.dbg.dr))).dauRun w
    else
      let (d, s) := s.free
      let s := s.obsv (.tdo (bitsLsb 64 (d % 2 ^ 32 + fields / 2 ^ 32 * 2 ^ 32 + 2 * 2 ^ 61)))
      if v = 1 then s else s.dauRun w
  else (s.obsv (.tdo (bitsLsb 64 s.dbg.dr))).dauRun w

def execDauAccess (dr : Nat) (s : State) : Host.Outcome State Fault Refusal := .next (s.dauAccess dr)

end Sys2Proof.Machine
end

