-- ==== Sys2Proof/Machine/Dispatch.lean ====
section
/-!
DEFINITION. Machine/Dispatch.lean: one arm per command, in the order of spec/opcode_table.json; each arm is one call of the
command's own meaning.
-/

namespace Sys2Proof.Machine

/-- The effect of a command on everything but the queue of waiting commands. -/
def exec (i : Instr) (s : State) : Host.Outcome State Fault Refusal :=
  match i with
  | .registerWrite id off req => Sys2Proof.Machine.execRegisterWrite id off req s
  | .snapshotRead id off req => Sys2Proof.Machine.execSnapshotRead id off req s
  | .rcRead id off => Sys2Proof.Machine.execRcRead id off s
  | .incrCommit id hi => Sys2Proof.Machine.execIncrCommit id hi s
  | .incrRebase => Sys2Proof.Machine.execIncrRebase s
  | .stepCommit id hi => Sys2Proof.Machine.execStepCommit id hi s
  | .stepApplied => Sys2Proof.Machine.execStepApplied s
  | .tcuArm id n ctrl => Sys2Proof.Machine.execTcuArm id n ctrl s
  | .tcuDisarm id n ctrl => Sys2Proof.Machine.execTcuDisarm id n ctrl s
  | .tcuQualifyLoad n => Sys2Proof.Machine.execTcuQualifyLoad n s
  | .tcuDecision n => Sys2Proof.Machine.execTcuDecision n s
  | .tcuEdgeLaunch n => Sys2Proof.Machine.execTcuEdgeLaunch n s
  | .tpoTrailingEdge o => Sys2Proof.Machine.execTpoTrailingEdge o s
  | .tciStamp u rise f => Sys2Proof.Machine.execTciStamp u rise f s
  | .anchorMeasurement tdc tickTdc => Sys2Proof.Machine.execAnchorMeasurement tdc tickTdc s
  | .tbLoad id n v => Sys2Proof.Machine.execTbLoad id n v s
  | .powerUp glitches => Sys2Proof.Machine.execPowerUp glitches s
  | .reformRequest id v => Sys2Proof.Machine.execReformRequest id v s
  | .reformCheckPassEnd glitches container => Sys2Proof.Machine.execReformCheckPassEnd glitches container s
  | .reformLoadPass => Sys2Proof.Machine.execReformLoadPass s
  | .pllCommit id v => Sys2Proof.Machine.execPllCommit id v s
  | .pllLocked => Sys2Proof.Machine.execPllLocked s
  | .clkUnlock => Sys2Proof.Machine.execClkUnlock s
  | .holdover => Sys2Proof.Machine.execHoldover s
  | .holdoverExit => Sys2Proof.Machine.execHoldoverExit s
  | .quadrantPowerOff id q => Sys2Proof.Machine.execQuadrantPowerOff id q s
  | .quadrantPowerOn id q => Sys2Proof.Machine.execQuadrantPowerOn id q s
  | .quadrantOn q => Sys2Proof.Machine.execQuadrantOn q s
  | .runArm id => Sys2Proof.Machine.execRunArm id s
  | .runDisarm id => Sys2Proof.Machine.execRunDisarm id s
  | .hostStart id => Sys2Proof.Machine.execHostStart id s
  | .hostStop id => Sys2Proof.Machine.execHostStop id s
  | .stopAtSn id => Sys2Proof.Machine.execStopAtSn id s
  | .snZero tdc tickTdc => Sys2Proof.Machine.execSnZero tdc tickTdc s
  | .sStopReached => Sys2Proof.Machine.execSStopReached s
  | .syncInLeadingEdge f => Sys2Proof.Machine.execSyncInLeadingEdge f s
  | .syncInTrailingEdge => Sys2Proof.Machine.execSyncInTrailingEdge s
  | .syncInQualify => Sys2Proof.Machine.execSyncInQualify s
  | .syncMalformed => Sys2Proof.Machine.execSyncMalformed s
  | .calrun id => Sys2Proof.Machine.execCalrun id s
  | .calrunCommit outcomes => Sys2Proof.Machine.execCalrunCommit outcomes s
  | .calDone => Sys2Proof.Machine.execCalDone s
  | .calAbort id => Sys2Proof.Machine.execCalAbort id s
  | .calsaveSubmit id => Sys2Proof.Machine.execCalsaveSubmit id s
  | .calsaveCommit failures => Sys2Proof.Machine.execCalsaveCommit failures s
  | .sweepStart g => Sys2Proof.Machine.execSweepStart g s
  | .calHandover g ok => Sys2Proof.Machine.execCalHandover g ok s
  | .calibrateEnd g offsetOk gainOk stageOk => Sys2Proof.Machine.execCalibrateEnd g offsetOk gainOk stageOk s
  | .calHandback g => Sys2Proof.Machine.execCalHandback g s
  | .glideEnd g => Sys2Proof.Machine.execGlideEnd g s
  | .spareCalibrationEnd g ok => Sys2Proof.Machine.execSpareCalibrationEnd g ok s
  | .activityResume => Sys2Proof.Machine.execActivityResume s
  | .delayNow id c => Sys2Proof.Machine.execDelayNow id c s
  | .alignTermUpdate => Sys2Proof.Machine.execAlignTermUpdate s
  | .settleEnd c => Sys2Proof.Machine.execSettleEnd c s
  | .bankCopy id => Sys2Proof.Machine.execBankCopy id s
  | .copyEnd => Sys2Proof.Machine.execCopyEnd s
  | .triginEdge n rise f => Sys2Proof.Machine.execTriginEdge n rise f s
  | .trgForce id n => Sys2Proof.Machine.execTrgForce id n s
  | .triggerDecision => Sys2Proof.Machine.execTriggerDecision s
  | .prefillEnd n => Sys2Proof.Machine.execPrefillEnd n s
  | .holdoffEnd n => Sys2Proof.Machine.execHoldoffEnd n s
  | .trigoutLeadingEdge n => Sys2Proof.Machine.execTrigoutLeadingEdge n s
  | .trigoutPulseEnd n => Sys2Proof.Machine.execTrigoutPulseEnd n s
  | .trgApplyNow id => Sys2Proof.Machine.execTrgApplyNow id s
  | .hostWindowAccess id off data len => Sys2Proof.Machine.execHostWindowAccess id off data len s
  | .scrubPassStart => Sys2Proof.Machine.execScrubPassStart s
  | .scrubPassEnd => Sys2Proof.Machine.execScrubPassEnd s
  | .frameBuild strm => Sys2Proof.Machine.execFrameBuild strm s
  | .frameTransmit p => Sys2Proof.Machine.execFrameTransmit p s
  | .frameDelivered p => Sys2Proof.Machine.execFrameDelivered p s
  | .eventRecord => Sys2Proof.Machine.execEventRecord s
  | .eventRingWrite f => Sys2Proof.Machine.execEventRingWrite f s
  | .eqRead id n => Sys2Proof.Machine.execEqRead id n s
  | .wqFlush id n => Sys2Proof.Machine.execWqFlush id n s
  | .fqFlush id n => Sys2Proof.Machine.execFqFlush id n s
  | .eqFlush id n => Sys2Proof.Machine.execEqFlush id n s
  | .discardEnd n => Sys2Proof.Machine.execDiscardEnd n s
  | .hostJobStart f => Sys2Proof.Machine.execHostJobStart f s
  | .sntCompress f => Sys2Proof.Machine.execSntCompress f s
  | .sntInflate f => Sys2Proof.Machine.execSntInflate f s
  | .sntResume f => Sys2Proof.Machine.execSntResume f s
  | .sntRelease f => Sys2Proof.Machine.execSntRelease f s
  | .jobStepComplete lane => Sys2Proof.Machine.execJobStepComplete lane s
  | .sntAbort id v => Sys2Proof.Machine.execSntAbort id v s
  | .captureJobStart => Sys2Proof.Machine.execCaptureJobStart s
  | .hubJobComplete lane => Sys2Proof.Machine.execHubJobComplete lane s
  | .geyserPacketBuild strm => Sys2Proof.Machine.execGeyserPacketBuild strm s
  | .fumarolePacketBuild => Sys2Proof.Machine.execFumarolePacketBuild s
  | .endPacket strm => Sys2Proof.Machine.execEndPacket strm s
  | .failback id strm => Sys2Proof.Machine.execFailback id strm s
  | .failbackTakesEffect strm => Sys2Proof.Machine.execFailbackTakesEffect strm s
  | .drainTimeout strm => Sys2Proof.Machine.execDrainTimeout strm s
  | .linkUp p => Sys2Proof.Machine.execLinkUp p s
  | .linkDown ports why => Sys2Proof.Machine.execLinkDown ports why s
  | .trainingComplete p ok => Sys2Proof.Machine.execTrainingComplete p ok s
  | .portRestart id p => Sys2Proof.Machine.execPortRestart id p s
  | .serdesReadapt id p => Sys2Proof.Machine.execSerdesReadapt id p s
  | .readaptDone p => Sys2Proof.Machine.execReadaptDone p s
  | .frameReceive p sub bytes => Sys2Proof.Machine.execFrameReceive p sub bytes s
  | .hostFrameTransmit f p sub cut => Sys2Proof.Machine.execHostFrameTransmit f p sub cut s
  | .hostFramePromotion p => Sys2Proof.Machine.execHostFramePromotion p s
  | .pdMeasurement p => Sys2Proof.Machine.execPdMeasurement p s
  | .suspectSet id => Sys2Proof.Machine.execSuspectSet id s
  | .suspectAck id => Sys2Proof.Machine.execSuspectAck id s
  | .damufRead => Sys2Proof.Machine.execDamufRead s
  | .damufWrite => Sys2Proof.Machine.execDamufWrite s
  | .damufCaps => Sys2Proof.Machine.execDamufCaps s
  | .damufOpen => Sys2Proof.Machine.execDamufOpen s
  | .damufData => Sys2Proof.Machine.execDamufData s
  | .damufActivate => Sys2Proof.Machine.execDamufActivate s
  | .damufAbort => Sys2Proof.Machine.execDamufAbort s
  | .damufStatus => Sys2Proof.Machine.execDamufStatus s
  | .damufConfirm => Sys2Proof.Machine.execDamufConfirm s
  | .damufReject => Sys2Proof.Machine.execDamufReject s
  | .damufClose => Sys2Proof.Machine.execDamufClose s
  | .applyArm id => Sys2Proof.Machine.execApplyArm id s
  | .applyCheckDone => Sys2Proof.Machine.execApplyCheckDone s
  | .applyLanding => Sys2Proof.Machine.execApplyLanding s
  | .applyDisarm id => Sys2Proof.Machine.execApplyDisarm id s
  | .fence id token => Sys2Proof.Machine.execFence id token s
  | .fenceDone id => Sys2Proof.Machine.execFenceDone id s
  | .functionLevelReset f => Sys2Proof.Machine.execFunctionLevelReset f s
  | .ringEnable id f r v entries => Sys2Proof.Machine.execRingEnable id f r v entries s
  | .ringDisable id f r v => Sys2Proof.Machine.execRingDisable id f r v s
  | .ringPiWrite id f r pi entries => Sys2Proof.Machine.execRingPiWrite id f r pi entries s
  | .eventRingCiWrite id f ci => Sys2Proof.Machine.execEventRingCiWrite id f ci s
  | .msixModerationExpiry f r => Sys2Proof.Machine.execMsixModerationExpiry f r s
  | .msixUnmask id f vec => Sys2Proof.Machine.execMsixUnmask id f vec s
  | .mbxComposeWrite id n word v => Sys2Proof.Machine.execMbxComposeWrite id n word v s
  | .mbxRing id n => Sys2Proof.Machine.execMbxRing id n s
  | .mbxAbandon id n => Sys2Proof.Machine.execMbxAbandon id n s
  | .mbxAck id n result => Sys2Proof.Machine.execMbxAck id n result s
  | .lockRead id n => Sys2Proof.Machine.execLockRead id n s
  | .lockRelease id n v => Sys2Proof.Machine.execLockRelease id n v s
  | .identityLeavesReset id => Sys2Proof.Machine.execIdentityLeavesReset id s
  | .pcieLinkUp => Sys2Proof.Machine.execPcieLinkUp s
  | .domainIdle d => Sys2Proof.Machine.execDomainIdle d s
  | .domainWake d => Sys2Proof.Machine.execDomainWake d s
  | .domainOn d => Sys2Proof.Machine.execDomainOn d s
  | .domainReset id d => Sys2Proof.Machine.execDomainReset id d s
  | .blockSoftReset id v => Sys2Proof.Machine.execBlockSoftReset id v s
  | .warmReset cause => Sys2Proof.Machine.execWarmReset cause s
  | .softwareWarmReset id v => Sys2Proof.Machine.execSoftwareWarmReset id v s
  | .coldReset por => Sys2Proof.Machine.execColdReset por s
  | .setsaveSubmit id => Sys2Proof.Machine.execSetsaveSubmit id s
  | .saveIntervalExpiry => Sys2Proof.Machine.execSaveIntervalExpiry s
  | .setsaveCommit failures => Sys2Proof.Machine.execSetsaveCommit failures s
  | .activityAdmit => Sys2Proof.Machine.execActivityAdmit s
  | .updSessionOpen id => Sys2Proof.Machine.execUpdSessionOpen id s
  | .updSessionClose id v => Sys2Proof.Machine.execUpdSessionClose id v s
  | .updStart id container bad => Sys2Proof.Machine.execUpdStart id container bad s
  | .updData id v => Sys2Proof.Machine.execUpdData id v s
  | .sectionComplete again => Sys2Proof.Machine.execSectionComplete again s
  | .sectionWriteDone failures => Sys2Proof.Machine.execSectionWriteDone failures s
  | .updCheckDone => Sys2Proof.Machine.execUpdCheckDone s
  | .updTimeout => Sys2Proof.Machine.execUpdTimeout s
  | .updActivate id => Sys2Proof.Machine.execUpdActivate id s
  | .updAbort id => Sys2Proof.Machine.execUpdAbort id s
  | .updConfirm id v => Sys2Proof.Machine.execUpdConfirm id v s
  | .updReject id v => Sys2Proof.Machine.execUpdReject id v s
  | .healthEvaluation => Sys2Proof.Machine.execHealthEvaluation s
  | .trialCommit => Sys2Proof.Machine.execTrialCommit s
  | .healthWindowExpiry => Sys2Proof.Machine.execHealthWindowExpiry s
  | .tapReset => Sys2Proof.Machine.execTapReset s
  | .bypass scanIn => Sys2Proof.Machine.execBypass scanIn s
  | .idcode => Sys2Proof.Machine.execIdcode s
  | .samplePreload scanIn => Sys2Proof.Machine.execSamplePreload scanIn s
  | .extest scanIn => Sys2Proof.Machine.execExtest scanIn s
  | .dauAccess dr => Sys2Proof.Machine.execDauAccess dr s
  | .unlockChal => Sys2Proof.Machine.execUnlockChal s
  | .unlockResp key sig => Sys2Proof.Machine.execUnlockResp key sig s
  | .debugUnlock => Sys2Proof.Machine.execDebugUnlock s
  | .haltRequest id => Sys2Proof.Machine.execHaltRequest id s
  | .haltFreeze => Sys2Proof.Machine.execHaltFreeze s
  | .dbgResume id => Sys2Proof.Machine.execDbgResume id s
  | .dbgStep id => Sys2Proof.Machine.execDbgStep id s
  | .relock id => Sys2Proof.Machine.execRelock id s
  | .breakpointMatch n => Sys2Proof.Machine.execBreakpointMatch n s
  | .monitorSample temps volts => Sys2Proof.Machine.execMonitorSample temps volts s
  | .samplingEdge inp noise => Sys2Proof.Machine.execSamplingEdge inp noise s
  | .warmResetRelease lost ce glitches => Sys2Proof.Machine.execWarmResetRelease lost ce glitches s
  | .keptSectionsCopied => Sys2Proof.Machine.execKeptSectionsCopied s
  | .scrubLineRead => Sys2Proof.Machine.execScrubLineRead s
  | .dbgStepDone => Sys2Proof.Machine.execDbgStepDone s

end Sys2Proof.Machine
end

