-- ==== Sys2Proof/Machine/Idle.lean ====
section
/-!
DEFINITION. Machine/Idle.lean: what happens while no command waits: a T-tick passes.
-/

namespace Sys2Proof.Machine

/-- One T-tick passes: FRC counts (R32), the legacy time bases advance or load (R52, R53). DESIGN CHOICE (assumption log 2): the table
has no row for a tick. -/
def State.idle (s : State) : State := s.tickPass

end Sys2Proof.Machine
end

