-- ==== Sys2Proof/Safety.lean ====
section
/-!
DEFINITION. Safety.lean: the terms in which statements about the hub are made: what a command leaves as it is, what the access
path lets through, and the parts of the state that hardly any command moves.
-/

namespace Sys2Proof.Machine

/-- Every register whose offset is not in `l` reads as before. -/
def RegsKept (l : List Nat) (s t : State) : Prop := ∀ off, off ∉ l → t.rd off = s.rd off

/-- The fields of State, by name. -/
inductive Field where
  | regs | shadows | latches | setLog | recq | eqs | wqs | fqs | fqHeld
  | image | time | run | mem | trg | path | strs | snt
  | ports | dmfQ | host | mbx | mnt | pwr | conv | reform
  | dbg | cal | flash | upd | firsts | obs | freeCtr | pending
deriving DecidableEq, Repr

/-- A field is the same in two states. -/
def Field.same (s t : State) : Field → Prop
  | .regs => t.regs = s.regs
  | .shadows => t.shadows = s.shadows
  | .latches => t.latches = s.latches
  | .setLog => t.setLog = s.setLog
  | .recq => t.recq = s.recq
  | .eqs => t.eqs = s.eqs
  | .wqs => t.wqs = s.wqs
  | .fqs => t.fqs = s.fqs
  | .fqHeld => t.fqHeld = s.fqHeld
  | .image => t.image = s.image
  | .time => t.time = s.time
  | .run => t.run = s.run
  | .mem => t.mem = s.mem
  | .trg => t.trg = s.trg
  | .path => t.path = s.path
  | .strs => t.strs = s.strs
  | .snt => t.snt = s.snt
  | .ports => t.ports = s.ports
  | .dmfQ => t.dmfQ = s.dmfQ
  | .host => t.host = s.host
  | .mbx => t.mbx = s.mbx
  | .mnt => t.mnt = s.mnt
  | .pwr => t.pwr = s.pwr
  | .conv => t.conv = s.conv
  | .reform => t.reform = s.reform
  | .dbg => t.dbg = s.dbg
  | .cal => t.cal = s.cal
  | .flash => t.flash = s.flash
  | .upd => t.upd = s.upd
  | .firsts => t.firsts = s.firsts
  | .obs => t.obs = s.obs
  | .freeCtr => t.freeCtr = s.freeCtr
  | .pending => t.pending = s.pending

/-- `t` differs from `s` in no field but those of `l`. -/
def Keeps (l : List Field) (s t : State) : Prop := ∀ f, f ∉ l → f.same s t

/-- An access of `id` that writes at `off` passes the access path: the hub is not held in cold reset (R440), the access is allowed
(R339), no fence holds it back (R343) and its domain is ON (R340). -/
def State.goes (s : State) (id : Ident) (off : Nat) : Prop := s.pwr.por = false ∧ s.gateW id off = .go

/-- A read of `id` at `off` completes at once: the hub is not held in cold reset (R440) and no earlier write of `id` to the block waits
(R342). -/
def State.readsNow (s : State) (id : Ident) (off : Nat) : Prop := s.pwr.por = false ∧ s.readWaits id off = false

/-- No INCR waits for its rebase, or one within the range of R35. -/
def TimeState.pendOk (t : TimeState) : Bool := match t.incrPend with | none => true | some p => incrOk p.1

/-- The INCR in use and the one that waits for its rebase lie within the range of R35. -/
def State.incrInRange (s : State) : Prop := incrOk s.time.incr = true ∧ s.time.pendOk = true

/-- The structure that an image gives: all of it but the setting defaults of NET, which a package that activates without a re-form
replaces (R396). -/
def Image.asStructure (m : Image) : Image := { m with defaults := [] }

/-- The structure in use (R54). -/
def State.structureInUse (s : State) : Option Image := s.image.map Image.asStructure

/-- The free-running counter, the queue, the structure in use, corrected time with what it is computed from, and whether a waiting
INCR is in range. -/
structure Deep where
  frc     : BitVec 64
  pending : List Instr
  image   : Option Image
  tBase   : Nat
  frcBase : BitVec 64
  incr    : Nat
  pendOk  : Bool
  now     : Nat

/-- Those parts of a state. -/
def State.deep (s : State) : Deep :=
  ⟨s.time.frc, s.pending, s.structureInUse, s.time.tBase, s.time.frcBase, s.time.incr, s.time.pendOk, s.now⟩

/-- The same without the image: what a load pass leaves alone too. -/
def Deep.base (d : Deep) : Deep := { d with image := none }

/-! ### Damuf requests and update sessions -/

/-- The agent is up and the head of its queue, received at port `p`, passes the test of R326. -/
def State.dmfHead (s : State) (p : Nat) (b : List Byte) (rest : List (Nat × List Byte)) : Prop :=
  s.dmfQ = (p, b) :: rest ∧ s.dmfUp = true ∧ s.dmfTest (udpPayload b) = none ∧ s.dmfWaits (udpPayload b) = false ∧ p < 4 ∧
    s.ports.length = 4

/-- The registers of every accepted request: the count of requests and the last SEQ of the key. -/
def dmfRegs (b : List Byte) : List Nat :=
  [R.NET_DMF_REQ, R.NET_DMF_SEQ_LO (dmfKey (udpPayload b)), R.NET_DMF_SEQ_HI (dmfKey (udpPayload b))]

/-- `t` is `s` after the request `b` at the head was served and answered `a`, as far as counter, SEQ and reply go. -/
def dmfServed (s t : State) (p : Nat) (b : List Byte) (rest : List (Nat × List Byte)) (a : DmfAns) : Prop :=
  t.dmfQ = rest ∧ t.getF F.NET_DMF_REQ_COUNT = (s.getF F.NET_DMF_REQ_COUNT + 1) % 2 ^ 32 ∧
  t.dmfLast (dmfKey (udpPayload b)) = dmfSeq (udpPayload b) ∧
  (t.port p).replies = (s.port p).replies ++ [(s.dmfFrame p b (s.dmfReply (udpPayload b) a)).1]

/-- The rows that serve UPD requests, with their subop. -/
def damufUpdRows : List (Instr × Nat) :=
  [(.damufOpen, 1), (.damufData, 2), (.damufActivate, 3), (.damufAbort, 4), (.damufStatus, 5), (.damufConfirm, 6),
    (.damufReject, 7), (.damufClose, 8)]

/-- The rows that serve Damuf requests. -/
def damufRows : List Instr :=
  [.damufRead, .damufWrite, .damufCaps, .damufOpen, .damufData, .damufActivate, .damufAbort, .damufStatus, .damufConfirm,
    .damufReject, .damufClose]

/-- The session has ended in IDLE with FAILED and a code of R390. -/
def State.updFailedWith (t : State) (code : Nat) : Prop :=
  t.getF F.UPD_STATUS_ERR = code ∧ t.bit F.UPD_STATUS_FAILED = true ∧ t.updSt = 0 ∧ t.updOwner = 0

/-- The next `n` writes of the journal, of a slot map or erases of a header pass at one of their two attempts (assumption log 29). -/
def State.flashTakes (s : State) (n : Nat) : Prop := ∀ k, k < n → s.flash.plan.getD k 0 < 2

/-- `t` is `s` after the container header `h` was whole: the session failed with its code, or with FLASH where the journal entry or the
erase of the slot map failed twice, or receives sections. -/
def State.headerTaken (t s : State) (h : List Byte) : Prop :=
  (s.packageCode h ≠ 0 → t.updFailedWith (s.packageCode h)) ∧
  (s.packageCode h = 0 → ¬ s.flashTakes 2 → t.updFailedWith 0x0D) ∧
  (s.packageCode h = 0 → s.flashTakes 2 → t.updSt = 2 ∧ t.updOwner = s.updOwner ∧ t.upd.hdr = h ∧ t.upd.idx = 0 ∧
    t.getF F.UPD_STATUS_SECTION = 0 ∧ (s.jNext < 2 ^ 32 → t.jState = 1 ∧ t.jActive = s.jActive ∧ t.jOther = s.inactive))

end Sys2Proof.Machine
end

