-- ==== Sys2Proof/WellFormed.lean ====
section
/-!
DEFINITION. WellFormed.lean: which commands say something the hub can meet: addresses inside the two windows of R335, lists of
the lengths the hardware has, outcomes and causes that the spec names.
-/

namespace Sys2Proof

/-- The offset lies in BAR0, 8 MiB (R335). -/
def inBar0Range (off : Nat) : Bool := decide (off < 0x800000)

/-- A reading of the time-to-digital converter: 20 bits, as TIME_PHASE_RAW shows it (R50). -/
def tdcOk (n : Nat) : Bool := decide (n < 2 ^ 20)

/-- Image sources whose reads fail: 1 slot A, 2 slot B, 3 the host's container (R68, R388). -/
def slotsOk (top : Nat) (l : List Nat) : Bool := l.all (fun x => decide (1 ≤ x) && decide (x ≤ top))

/-- The access lies in BAR2, 128 MiB (R335), and a write carries as many bytes as it says. -/
def windowOk (off : Nat) (data : Option (List (Option Byte))) (len : Nat) : Bool :=
  decide (0 < len) && decide (off + len ≤ 134217728) && (match data with | none => true | some b => decide (b.length = len))

/-- Each descriptor has the size of an entry of its ring (R349), and a TX buffer is no longer than its LEN can say (R351). -/
def entriesOk (r : Nat) (l : List RingIn) : Bool :=
  l.all (fun e => decide (e.desc.length = if r < 8 then 32 else if r = 8 then 64 else 128) &&
    (decide (4 ≤ r) || decide (e.data.length ≤ 4095)))

/-- A command is well formed. -/
def Instr.wf : Instr → Bool
  | .registerWrite _ off _ => inBar0Range off
  | .snapshotRead _ off _ => inBar0Range off
  | .rcRead _ off => inBar0Range off
  | .anchorMeasurement tdc tickTdc => tdcOk tdc && tdcOk tickTdc
  | .powerUp glitches => slotsOk 2 glitches
  | .reformCheckPassEnd glitches _ => slotsOk 3 glitches
  | .snZero tdc tickTdc => tdcOk tdc && tdcOk tickTdc
  | .calrunCommit outcomes => decide (outcomes.length ≤ 1360) && outcomes.all (fun o => decide (1 ≤ o) && decide (o ≤ 3))
  | .calsaveCommit failures => decide (failures ≤ 2)
  | .triginEdge _ _ f => decide (f < 128)
  | .hostWindowAccess _ off data len => windowOk off data len
  | .linkDown ports _ => !ports.isEmpty && decide ports.Nodup
  | .ringEnable _ _ r _ entries => entriesOk r entries
  | .ringPiWrite _ _ r _ entries => entriesOk r entries
  | .warmReset cause => decide (2 ≤ cause) && decide (cause ≤ 5)
  | .setsaveCommit failures => decide (failures ≤ 2)
  | .sectionWriteDone failures => decide (failures ≤ 2)
  | .dauAccess dr => decide (dr < 2 ^ 64)
  | .unlockResp key sig => decide (key.length = 96) && decide (sig.length = 96)
  | .monitorSample temps volts => decide (temps.length = 8) && decide (volts.length = 7)
  | .samplingEdge inp noise => decide (inp.length = 256) && decide (noise.length = 272)
  | .warmResetRelease _ _ glitches => slotsOk 3 glitches
  | .incrCommit _ _ | .incrRebase | .stepCommit _ _ | .stepApplied | .tcuArm _ _ _ | .tcuDisarm _ _ _ |
    .tcuQualifyLoad _ | .tcuDecision _ | .tcuEdgeLaunch _ | .tpoTrailingEdge _ | .tciStamp _ _ _ | .tbLoad _ _ _ |
    .reformRequest _ _ | .reformLoadPass | .pllCommit _ _ | .pllLocked | .clkUnlock | .holdover | .holdoverExit |
    .quadrantPowerOff _ _ | .quadrantPowerOn _ _ | .quadrantOn _ | .runArm _ | .runDisarm _ | .hostStart _ |
    .hostStop _ | .stopAtSn _ | .sStopReached | .syncInLeadingEdge _ | .syncInTrailingEdge | .syncInQualify |
    .syncMalformed | .calrun _ | .calDone | .calAbort _ | .calsaveSubmit _ | .sweepStart _ | .calHandover _ _ |
    .calibrateEnd _ _ _ _ | .calHandback _ | .glideEnd _ | .spareCalibrationEnd _ _ | .activityResume |
    .delayNow _ _ | .alignTermUpdate | .settleEnd _ | .bankCopy _ | .copyEnd | .trgForce _ _ | .triggerDecision |
    .prefillEnd _ | .holdoffEnd _ | .trigoutLeadingEdge _ | .trigoutPulseEnd _ | .trgApplyNow _ | .scrubPassStart |
    .scrubPassEnd | .frameBuild _ | .frameTransmit _ | .frameDelivered _ | .eventRecord | .eventRingWrite _ |
    .eqRead _ _ | .wqFlush _ _ | .fqFlush _ _ | .eqFlush _ _ | .discardEnd _ | .hostJobStart _ | .sntCompress _ |
    .sntInflate _ | .sntResume _ | .sntRelease _ | .jobStepComplete _ | .sntAbort _ _ | .captureJobStart |
    .hubJobComplete _ | .geyserPacketBuild _ | .fumarolePacketBuild | .endPacket _ | .failback _ _ |
    .failbackTakesEffect _ | .drainTimeout _ | .linkUp _ | .trainingComplete _ _ | .portRestart _ _ |
    .serdesReadapt _ _ | .readaptDone _ | .frameReceive _ _ _ | .hostFrameTransmit _ _ _ _ | .hostFramePromotion _ |
    .pdMeasurement _ | .suspectSet _ | .suspectAck _ | .damufRead | .damufWrite | .damufCaps | .damufOpen |
    .damufData | .damufActivate | .damufAbort | .damufStatus | .damufConfirm | .damufReject | .damufClose |
    .applyArm _ | .applyCheckDone | .applyLanding | .applyDisarm _ | .fence _ _ | .fenceDone _ |
    .functionLevelReset _ | .ringDisable _ _ _ _ | .eventRingCiWrite _ _ _ | .msixModerationExpiry _ _ |
    .msixUnmask _ _ _ | .mbxComposeWrite _ _ _ _ | .mbxRing _ _ | .mbxAbandon _ _ | .mbxAck _ _ _ | .lockRead _ _ |
    .lockRelease _ _ _ | .identityLeavesReset _ | .pcieLinkUp | .domainIdle _ | .domainWake _ | .domainOn _ |
    .domainReset _ _ | .blockSoftReset _ _ | .softwareWarmReset _ _ | .coldReset _ | .setsaveSubmit _ |
    .saveIntervalExpiry | .activityAdmit | .updSessionOpen _ | .updSessionClose _ _ | .updStart _ _ _ |
    .updData _ _ | .sectionComplete _ | .updCheckDone | .updTimeout | .updActivate _ | .updAbort _ |
    .updConfirm _ _ | .updReject _ _ | .healthEvaluation | .trialCommit | .healthWindowExpiry | .tapReset |
    .bypass _ | .idcode | .samplePreload _ | .extest _ | .unlockChal | .debugUnlock | .haltRequest _ | .haltFreeze |
    .dbgResume _ | .dbgStep _ | .relock _ | .breakpointMatch _ | .keptSectionsCopied | .scrubLineRead | .dbgStepDone => true

end Sys2Proof
end

