-- ==== Sys2Proof/Certificates/Slice0/Obligations.lean ====
section
/-!
DEFINITION. Certificates/Slice0/Obligations.lean: the statements for the provers.
-/

open Sys2Proof Sys2Proof.Machine

/-! ### The queue, the tick and the counter -/

/-- A step runs the command at the front of the queue on the state with the queue's rest; with no command waiting a tick passes, which
moves the time base and what the registers show of compare units alone, but that activities which took effect in it leave the
coordinator (R411) and a debug step of F-cycles counts (R428); a hub held in cold reset (R440) stands still (the model's own form of a
block: assumption log 1, 2 and 86). -/
def Obligations.StepTakesFront : Prop :=
  (∀ (c : Instr) (q : List Instr) (s : State), step { s with pending := c :: q } = exec c { s with pending := q }) ∧
  (∀ s : State, s.pending = [] → ∃ t, step s = .next t ∧ Keeps [.time, .regs, .mnt, .dbg] s t ∧
    ((∀ y ∈ s.mnt.running, y.a ≠ actTimestep ∧ y.a ≠ actDelaychg) → t.mnt = s.mnt) ∧
    (s.getF F.DBG_STATUS_STATE ≠ 3 → t.dbg = s.dbg) ∧ (s.pwr.por = true → t = s))

/-- R32: FRC is 0 after reset, counts one up at every T-tick (the idle step, assumption log 2) of a hub that is not held in cold reset,
and nothing but a cold reset moves it otherwise. R34-R36: no command but INCR_REBASE, STEP_APPLIED and a cold reset moves T_base,
FRC_base or the INCR in use; so no other command moves corrected time. -/
def Obligations.FrcCountsTicks : Prop :=
  State.reset.time.frc = 0#64 ∧
  (∀ s : State, s.pending = [] → ∃ t, step s = .next t ∧ t.time.frc = (if s.pwr.por then s.time.frc else s.time.frc + 1#64)) ∧
  (∀ (por : Bool) (s : State), ∃ t, exec (.coldReset por) s = .next t ∧ t.time.frc = 0#64) ∧
  (∀ (c : Instr) (s t : State), exec c s = .next t → (∀ por, c ≠ .coldReset por) → t.time.frc = s.time.frc) ∧
  (∀ (c : Instr) (s t : State), exec c s = .next t → c ≠ .incrRebase → c ≠ .stepApplied → (∀ por, c ≠ .coldReset por) →
    t.time.tBase = s.time.tBase ∧ t.time.frcBase = s.time.frcBase ∧ t.time.incr = s.time.incr ∧ t.now = s.now)

/-- R35: the INCR in use, and one that waits for its rebase, stay within 100 ppm of 2 ns a tick, whatever the step runs. -/
def Obligations.IncrStaysInRange : Prop :=
  ∀ s t : State, s.incrInRange → step s = .next t → t.incrInRange

/-- Reset: every register but thirteen reads 0, and these read what the spec gives; FRC, T_base and FRC_base are 0 and INCR is
2.0 (R32, R34), which is in range; no image, memory, record or queue holds anything, every vector is masked and the TAP selects
IDCODE. The erased flash and the registers for which the spec gives no reset value are the model's choice (assumption logs 4
and 5). -/
def Obligations.ResetValues : Prop :=
  (∀ off, off ∉ [R.GLB_PART, R.GLB_PCI_ID, R.GLB_VER_REGMAP, R.GLB_VER_STALUX, R.GLB_VER_DAMUF, R.GLB_VER_CONTAINER,
    R.TIME_INCR_HI, R.TIME_TB_INCR 0, R.TIME_TB_INCR 1, R.TIME_TB_INCR 2, R.TIME_TB_INCR 3, R.DBG_CTRL, R.CAL_BG_CTRL] →
    State.reset.rd off = 0#32) ∧
  State.reset.rd R.GLB_PART = 0x001D3256#32 ∧ State.reset.rd R.GLB_VER_REGMAP = 0x0100#32 ∧
  State.reset.rd R.GLB_VER_STALUX = 0x0103#32 ∧ State.reset.rd64 R.TIME_INCR_LO R.TIME_INCR_HI = 2 ^ 57 ∧
  (∀ n : Nat, n < 4 → State.reset.rd (R.TIME_TB_INCR n) = 0x02000000#32) ∧
  State.reset.getF F.DBG_CTRL_STEP_COUNT = 1 ∧ State.reset.getF F.CAL_BG_CTRL_GLIDE = 20 ∧
  State.reset.time.frc = 0#64 ∧ State.reset.now = 0 ∧ State.reset.time.incr = 2 ^ 57 ∧ State.reset.incrInRange ∧
  State.reset.image = none ∧ State.reset.mem.cells = [] ∧ State.reset.recq = [] ∧ State.reset.obs = [] ∧
  State.reset.dmfQ = [] ∧ State.reset.pending = [] ∧ State.reset.runSt = 0 ∧ State.reset.updSt = 0 ∧ State.reset.dbg.ir = 0x01 ∧
  (∀ n : Nat, State.reset.fq n = []) ∧ (∀ n : Nat, (State.reset.evq n).entries = []) ∧
  ∀ f v : Nat, (State.reset.vec f v).masked = true

/-- R54: the structure in use, an image without the setting defaults that R396 lets a package replace, changes only where the hub powers up, a re-form loads, a warm reset is released (which completes a
load that it met, R462) or the hub is reset cold. -/
def Obligations.ImageMovesOnlyBy : Prop :=
  ∀ (c : Instr) (s t : State), exec c s = .next t → (∀ g, c ≠ .powerUp g) → c ≠ .reformLoadPass →
    (∀ l n g, c ≠ .warmResetRelease l n g) → (∀ por, c ≠ .coldReset por) → t.structureInUse = s.structureInUse

/-- Every command completes, all 185 rows of the table (SN_ZERO, S_STOP_REACHED, the SYNC_IN edges and the rest; one clause names them
all by quantifying over the command): whatever the state, a command that is well formed (its operands are ones the hub can meet: an
access lies inside its window of R335, a list has the length the hardware has) answers a next state, and neither its effect nor a step
that takes it touches the commands that wait behind it (the model's own field, assumption log 1). An access outside its window is the
one thing that stops (R335). What each command does in that next state is said below, per command. -/
def Obligations.EffectsLeaveTheQueue : Prop :=
  (∀ (c : Instr) (s t : State), exec c s = .next t → t.pending = s.pending) ∧
  (∀ (c : Instr) (s : State), c.wf = true → ∃ t, exec c s = .next t ∧ t.pending = s.pending) ∧
  (∀ (c : Instr) (q : List Instr) (s : State), c.wf = true → ∃ t, step { s with pending := c :: q } = .next t ∧ t.pending = q) ∧
  (∀ (c : Instr) (s : State), (∀ t, exec c s ≠ .next t) → exec c s = .fault .outsideBar0 ∨ exec c s = .fault .outsideBar2)

/-! ### INCR and STEP -/

/-- INCR_COMMIT (R35): a commit is taken, refused as busy or refused as out of range, that is not within 100 ppm of 2 ns a tick
in units of 2^-56 ns; the pair reads the new INCR or, from then on, the one in use. Nothing else moves. That a commit which is both
sets both flags is the model's choice (assumption log 66). -/
def Obligations.IncrCommitResult : Prop :=
  (∀ v : Nat, incrOk v = true ↔ 19998 * 2 ^ 56 ≤ 10000 * v ∧ 10000 * v ≤ 20002 * 2 ^ 56) ∧
  ∀ (id : Ident) (hi : Word) (s : State), s.goes id R.TIME_INCR_HI →
    ∃ t, exec (.incrCommit id hi) s = .next t ∧
      Keeps [.regs, .time, .dbg] s t ∧
      RegsKept [R.TIME_INCR_LO, R.TIME_INCR_HI, R.TIME_STATUS] s t ∧
      (s.time.incrPend.isSome = true →
        t.time = { s.time with loUse := true, hiUse := true } ∧ t.bit F.TIME_STATUS_INCR_BUSY = true ∧
        (incrOk (join64 (s.rd R.TIME_INCR_LO) hi) = false → t.bit F.TIME_STATUS_INCR_ERR = true) ∧
        t.rd R.TIME_INCR_LO = lo32 s.incrNow ∧ t.rd R.TIME_INCR_HI = hi32 s.incrNow) ∧
      (s.time.incrPend = none → incrOk (join64 (s.rd R.TIME_INCR_LO) hi) = false →
        t.time = { s.time with loUse := true, hiUse := true } ∧ t.bit F.TIME_STATUS_INCR_ERR = true ∧
        t.rd R.TIME_INCR_LO = lo32 s.incrNow ∧ t.rd R.TIME_INCR_HI = hi32 s.incrNow) ∧
      (s.time.incrPend = none → incrOk (join64 (s.rd R.TIME_INCR_LO) hi) = true →
        t.time = { s.time with incrPend := some (join64 (s.rd R.TIME_INCR_LO) hi, s.tick), loUse := false, hiUse := false } ∧
        t.bit F.TIME_STATUS_INCR_PENDING = true ∧ t.rd R.TIME_INCR_LO = s.rd R.TIME_INCR_LO ∧ t.rd R.TIME_INCR_HI = hi)

/-- INCR_REBASE (R35, R37): due at the tick k_w after the commit's, where T_base takes T with the old INCR and FRC_base k_w; the new
INCR applies and T does not jump, and a half that reads the INCR in use follows it. A step of an earlier tick goes first. Nothing
else moves but INCR_PENDING. -/
def Obligations.IncrRebaseContinuous : Prop :=
  ∀ (s : State) (v k : Nat), s.time.incrPend = some (v, k) → k < s.tick → (s.stepDue = true → s.time.stepFirst = false) →
    ∃ t, exec .incrRebase s = .next t ∧
      Keeps [.regs, .time] s t ∧
      t.time = { s.time with
        tBase := s.time.at (BitVec.ofNat 64 (k + 1)), frcBase := BitVec.ofNat 64 (k + 1), incr := v, incrPend := none } ∧
      t.time.at (BitVec.ofNat 64 (k + 1)) = s.time.at (BitVec.ofNat 64 (k + 1)) ∧
      t.now = s.now ∧ t.bit F.TIME_STATUS_INCR_PENDING = false ∧
      t.rd R.TIME_INCR_LO = (if s.time.loUse then lo32 v else s.rd R.TIME_INCR_LO) ∧
      t.rd R.TIME_INCR_HI = (if s.time.hiUse then hi32 v else s.rd R.TIME_INCR_HI) ∧
      RegsKept [R.TIME_STATUS, R.TIME_INCR_LO, R.TIME_INCR_HI] s t

/-- STEP_COMMIT and STEP_APPLIED (R36): a step is pending from its commit on, and one that comes while another is pending is
refused as busy; at the tick after its commit T moves by the step in ns and TIME_EPOCH counts one up modulo 2^16, or a step that
would take T below zero is refused with STEP_ERR and moves neither; FRC stays, and nothing moves outside the time base, the run's
start instant (R51), registers and the coordinator, where TIMESTEP takes effect (R411). A rebase of the same tick or an earlier one goes first, and what the tick evaluates has seen both
(R37). -/
def Obligations.StepsMoveTime : Prop :=
  (∀ (id : Ident) (hi : Word) (s : State), s.goes id R.TIME_STEP_HI →
    ∃ t, exec (.stepCommit id hi) s = .next t ∧
      Keeps [.regs, .time, .dbg] s t ∧ RegsKept [R.TIME_STATUS] s t ∧
      (s.time.stepPend.isSome = true → t.time = s.time ∧ t.bit F.TIME_STATUS_STEP_BUSY = true) ∧
      (s.time.stepPend = none →
        t.time = { s.time with stepPend := some (toSigned 64 (join64 (s.rd R.TIME_STEP_LO) hi), s.tick) } ∧
        t.bit F.TIME_STATUS_STEP_PENDING = true)) ∧
  (∀ (s : State) (z : Int) (k : Nat), s.time.stepPend = some (z, k) → k < s.tick →
    (∀ v i, s.time.incrPend = some (v, i) → i < s.tick → k < i) →
    ∃ t, exec .stepApplied s = .next t ∧ Keeps [.regs, .time, .run, .mnt] s t ∧
      t.time.stepPend = none ∧ t.time.frc = s.time.frc ∧ t.time.incr = s.time.incr ∧
      t.bit F.TIME_STATUS_STEP_PENDING = false ∧ t.now = s.now ∧ t.epoch = s.epoch ∧
      ((s.time.at (BitVec.ofNat 64 (k + 1)) : Int) + z * (2 ^ 56 : Nat) < 0 →
        t.time.tBase = s.time.tBase ∧ t.time.frcBase = s.time.frcBase ∧
        t.getF F.TIME_EPOCH_EPOCH = s.getF F.TIME_EPOCH_EPOCH ∧ t.bit F.TIME_STATUS_STEP_ERR = true) ∧
      (0 ≤ (s.time.at (BitVec.ofNat 64 (k + 1)) : Int) + z * (2 ^ 56 : Nat) →
        (t.time.at (BitVec.ofNat 64 (k + 1)) : Int) = s.time.at (BitVec.ofNat 64 (k + 1)) + z * (2 ^ 56 : Nat) ∧
        t.getF F.TIME_EPOCH_EPOCH = (s.getF F.TIME_EPOCH_EPOCH + 1) % 2 ^ 16))

/-! ### Compare units, pulse outputs, captures, anchors and legacy time bases -/

/-- TCU_ARM (R43, R44, R47): the unit takes its parameters as they stand; periodic arming without QUAL sets MODE_ERR, a parameter
outside its limits PARAM_ERR, and both leave it DISARMED; a qualified unit waits in QUALIFY for its full target; any other is
LOADED at once. Firings already decided stay as they are, and no other unit and no other register moves. -/
def Obligations.TcuArmResult : Prop :=
  ∀ (id : Ident) (n : Fin 16) (ctrl : Word) (s : State), s.goes id (R.TIME_TCU_CTRL n) →
    ∃ t, exec (.tcuArm id n ctrl) s = .next t ∧
      Keeps [.regs, .time, .dbg] s t ∧ t.time = { s.time with tcus := t.time.tcus } ∧
      RegsKept [R.TIME_TCU_CTRL n, R.TIME_TCU_STATUS n] s t ∧
      ∀ a, a = (s.tcuCtrl n ctrl).tcuParams n →
        ((a.src = 0 ∧ a.periodic = true ∧ a.qual = false →
          t.bit (F.TIME_TCU_STATUS_MODE_ERR n) = true ∧ t.getF (F.TIME_TCU_CTRL_STATE n) = 0 ∧
          t.time.tcus = updAt (fun x => { x with arm := none }) s.time.tcus n) ∧
        (¬ (a.src = 0 ∧ a.periodic = true ∧ a.qual = false) → (s.tcuCtrl n ctrl).tcuBad n a = true →
          t.bit (F.TIME_TCU_STATUS_PARAM_ERR n) = true ∧ t.getF (F.TIME_TCU_CTRL_STATE n) = 0 ∧
          t.time.tcus = updAt (fun x => { x with arm := none }) s.time.tcus n) ∧
        (a.src = 0 → a.qual = true → (s.tcuCtrl n ctrl).tcuBad n a = false →
          t.getF (F.TIME_TCU_CTRL_STATE n) = 1 ∧ t.bit (F.TIME_TCU_CTRL_ARM n) = true ∧
          t.time.tcus = updAt (fun x => { x with arm := some a, target := a.full, high := 0 }) s.time.tcus n) ∧
        (a.src = 0 → a.qual = false → a.periodic = false → (s.tcuCtrl n ctrl).tcuBad n a = false →
          t.getF (F.TIME_TCU_CTRL_STATE n) = 2 ∧ t.bit (F.TIME_TCU_CTRL_ARM n) = true ∧
          t.time.tcus = updAt (fun x => { x with arm := some a, target := s.shortTarget a, high := 0 }) s.time.tcus n) ∧
        (a.src ≠ 0 → a.periodic = false → (s.tcuCtrl n ctrl).tcuBad n a = false →
          t.getF (F.TIME_TCU_CTRL_STATE n) = 2 ∧ t.bit (F.TIME_TCU_CTRL_ARM n) = true ∧
          t.time.tcus = updAt (fun x => { x with arm := some a, target := a.full, high := 0 }) s.time.tcus n) ∧
        (a.src ≠ 0 → a.periodic = true → (s.tcuCtrl n ctrl).tcuBad n a = false →
          t.getF (F.TIME_TCU_CTRL_STATE n) = 2 ∧ t.bit (F.TIME_TCU_CTRL_ARM n) = true ∧
          t.time.tcus = updAt (fun x => { x with
            arm := some a, target := firstBoundary a.full a.period (s.launchTime a.src), high := 0 }) s.time.tcus n))

/-- TCU_DISARM (R42, R44): the unit is DISARMED; a disarm at a tick from a firing's decision up to its launch sets DISARM_LATE and
counts in MNT_LATE, and the firing stays as it was decided. -/
def Obligations.TcuDisarmResult : Prop :=
  ∀ (id : Ident) (n : Fin 16) (ctrl : Word) (s : State), s.goes id (R.TIME_TCU_CTRL n) →
    ∃ t, exec (.tcuDisarm id n ctrl) s = .next t ∧
      Keeps [.regs, .time, .dbg] s t ∧
      t.time = { s.time with tcus := updAt (fun x => { x with arm := none }) s.time.tcus n } ∧
      RegsKept [R.TIME_TCU_CTRL n, R.TIME_TCU_STATUS n, R.MNT_LATE] s t ∧
      t.getF (F.TIME_TCU_CTRL_STATE n) = 0 ∧ t.bit (F.TIME_TCU_CTRL_ARM n) = false ∧
      ((∃ x ∈ (s.tcu n).fires, x.decision ≤ s.tick ∧ s.tick ≤ x.launch) →
        t.bit (F.TIME_TCU_STATUS_DISARM_LATE n) = true ∧
        t.getF F.MNT_LATE_COUNT = (s.getF F.MNT_LATE_COUNT + 1) % 2 ^ 32) ∧
      ((∀ x ∈ (s.tcu n).fires, ¬ (x.decision ≤ s.tick ∧ s.tick ≤ x.launch)) →
        t.rd (R.TIME_TCU_STATUS n) = s.rd (R.TIME_TCU_STATUS n) ∧ t.rd R.MNT_LATE = s.rd R.MNT_LATE)

/-- TCU_QUALIFY_LOAD (R44): a unit in QUALIFY whose target, or for a periodic one the first boundary after T + 15 x INCR, lies no
more than 2 s ahead is LOADED with it, past the boundaries that a step has passed over, once no step is due (R37); the first boundary of a train after a time is the origin where that lies ahead, else
the least one past the time. -/
def Obligations.TcuQualifyLoads : Prop :=
  (∀ (o p t : Nat), 0 < p →
    t < firstBoundary o p t ∧ (∃ j, firstBoundary o p t = o + j * p) ∧ ∀ j, t < o + j * p → firstBoundary o p t ≤ o + j * p) ∧
  ∀ (n : Fin 16) (s : State) (a : TcuArm) (b : Nat),
    (s.tcu n).arm = some a → s.getF (F.TIME_TCU_CTRL_STATE n) = 1 → s.stepDue = false →
    b = (if a.periodic then max (firstBoundary a.full a.period (s.launchTime 0)) (s.tcu n).target else a.full) → b ≤ s.now + 2 * (10 ^ 9 * 2 ^ 56) →
    ∃ t, exec (.tcuQualifyLoad n) s = .next t ∧
      Keeps [.regs, .time] s t ∧
      t.time = { s.time with tcus := updAt (fun x => { x with target := b }) s.time.tcus n } ∧
      t.getF (F.TIME_TCU_CTRL_STATE n) = 2 ∧ RegsKept [R.TIME_TCU_CTRL n] s t

/-- TCU_DECISION (R40, R41, R44, R45, R47): a LOADED unit whose target has come within 16 ticks, by the positions of R40, decides
once no step is due (R37): FIRES counts, a one-shot is
FIRED and DISARMED, a periodic unit's target moves on by its period, and a firing with the launch tick, vernier and event time
of R41 and R47 is noted. What then follows is what its consumers do (timer start, timed stop, triggers, wakes). -/
def Obligations.TcuDecides : Prop :=
  ∀ (n : Fin 16) (s : State) (a : TcuArm) (os : List Nat) (late : Bool) (launch v e : Nat),
    (s.tcu n).arm = some a → s.getF (F.TIME_TCU_CTRL_STATE n) = 2 →
    s.stepDue = false → s.tcuDue a.src (s.tcu n).target = true →
    os = (if a.tpoAtArm.isEmpty then [] else s.tposOf n) → s.tcuOutcome a (s.tcu n).target os = (late, launch, v, e) →
    ∃ t u, exec (.tcuDecision n) s = .next t ∧ t = u.tcuConsumers n e late a.wake ∧
      Keeps [.regs, .time, .dbg, .recq] s u ∧ u.time = { s.time with tcus := u.time.tcus } ∧
      RegsKept [R.TIME_TCU_CTRL n, R.TIME_TCU_STATUS n, R.TIME_TCU_FIRES n] s u ∧
      u.getF (F.TIME_TCU_FIRES_FIRES n) = (s.getF (F.TIME_TCU_FIRES_FIRES n) + 1) % 2 ^ 32 ∧
      (late = true → u.bit (F.TIME_TCU_STATUS_LATE n) = true) ∧
      (a.periodic = false → u.bit (F.TIME_TCU_STATUS_FIRED n) = true ∧ u.getF (F.TIME_TCU_CTRL_STATE n) = 0) ∧
      (a.periodic = true → u.getF (F.TIME_TCU_CTRL_STATE n) = 2) ∧
      (n.val < s.time.tcus.length →
        (u.tcu n).arm = (if a.periodic then some a else none) ∧ (u.tcu n).target = (s.tcu n).target + a.period ∧
        (⟨s.tick, launch, v, a.width, os, false⟩ : TcuFire) ∈ (u.tcu n).fires) ∧
      (a.evrec = true → u.recq = s.recq ++ [⟨0, 0x0201, pw n ++ ptime e ++ pw s.epoch ++ psn s.tick ++ pb late, s.tick⟩]) ∧
      (a.evrec = false → u.recq = s.recq)

/-- R40 and R41: a unit on corrected time decides where its target's position lies at or before that of T + 16 x INCR: the signed
difference of the short times, then the fine positions; a target that has passed decides too. A target past T + 15 x INCR fires on
time: 15 ticks on with the residual's vernier, or 16 ticks on where the vernier would be 128; any other is LATE and launches 15
ticks on at T + 15 x INCR. On a legacy time base the vernier is 0 and the launch 15 ticks on (R53, and the model's choice for a
residual of a whole tick: assumption log 66). This is the outcome where no pulse output holds the edge back. -/
def Obligations.DecisionOutcome : Prop :=
  ∀ (s : State) (a : TcuArm) (t lt l v : Nat),
    lt = s.srcNow a.src + 15 * s.srcIncr a.src → l = s.now + 16 * s.incrNow → v = (t - lt) * 64 / 2 ^ 56 →
    (s.tcuDue 0 t = true ↔
      (toSigned 32 (shortOf t + 2 ^ 32 - shortOf l) < 0 ∨
        (toSigned 32 (shortOf t + 2 ^ 32 - shortOf l) = 0 ∧ fineOf t ≤ fineOf l) ∨ t ≤ l)) ∧
    (a.src = 0 → lt < t →
      s.tcuOutcome a t [] = (if 128 ≤ v then (false, s.tick + 16, v - 128, t) else (false, s.tick + 15, v, t))) ∧
    (a.src ≠ 0 → lt < t → s.tcuOutcome a t [] = (false, s.tick + 15, 0, t)) ∧
    (t ≤ lt → s.tcuOutcome a t [] = (true, s.tick + 15, 0, lt))

/-- TCU_EDGE_LAUNCH and TPO_TRAILING_EDGE (R46): at its launch tick a firing's leading edge goes out on an enabled output that
follows it, at the active level with the firing's vernier, and the trailing edge falls due WIDTH ticks later; at that tick the
output returns to its inactive level with the same vernier. Before READY (R446) no output leaves its inactive level, and with EXTEST
loaded (R423) the scan chain drives the balls in its place. -/
def Obligations.PulseEdges : Prop :=
  (∀ (n : Nat) (s : State), (s.tposOf n).Nodup) ∧
  (∀ (n : Fin 16) (s : State) (f : TcuFire),
    (s.tcu n).fires.find? (fun f => !f.launched && decide (f.launch ≤ s.tick)) = some f → f.tpos.Nodup →
    ∃ t, exec (.tcuEdgeLaunch n) s = .next t ∧ Keeps [.time, .obs] s t ∧
      (s.bit F.PWR_STATUS_READY = true → s.dbg.ir ≠ 0 →
        t.obs = ((f.tpos.filter (fun o => s.bit (F.TIME_TPO_CTRL_EN o) && decide (o < s.time.tpos.length) &&
            !(s.time.tpos.getD o Tpo.reset).active)).map
          (fun o => Obs.pin (.tpo o) (!s.bit (F.TIME_TPO_CTRL_POL o)) f.launch f.vernier)).reverse ++ s.obs) ∧
      (s.bit F.PWR_STATUS_READY = false ∨ s.dbg.ir = 0 → t.obs = s.obs) ∧
      (∀ o ∈ f.tpos, s.bit (F.TIME_TPO_CTRL_EN o) = true → o < s.time.tpos.length →
        t.time.tpos.getD o Tpo.reset = ⟨true, some f.launch, some (f.launch + f.width), f.vernier, n⟩) ∧
      (∀ o, o ∉ f.tpos → t.time.tpos.getD o Tpo.reset = s.time.tpos.getD o Tpo.reset)) ∧
  (∀ (o : Fin 8) (s : State) (k : Nat), (s.time.tpos.getD o Tpo.reset).trail = some k → k ≤ s.tick →
    ∃ t, exec (.tpoTrailingEdge o) s = .next t ∧ Keeps [.time, .obs] s t ∧
      t.time = { s.time with
        tpos := updAt (fun x => { x with active := false, lastChange := some k, trail := none }) s.time.tpos o } ∧
      (s.bit F.PWR_STATUS_READY = true → s.dbg.ir ≠ 0 → o < s.time.tpos.length → s.bit (F.TIME_TPO_CTRL_EN o) = true →
        (s.time.tpos.getD o Tpo.reset).active = true →
        t.obs = .pin (.tpo o) (s.bit (F.TIME_TPO_CTRL_POL o)) k (s.time.tpos.getD o Tpo.reset).vernier :: s.obs) ∧
      (s.bit F.PWR_STATUS_READY = false ∨ s.dbg.ir = 0 → t.obs = s.obs))

/-- TCI_STAMP (R49): a selected edge of an enabled unit is stamped with T(k) + f x INCR and TIME_EPOCH, or, less than 8 ticks after
the last stamped one, counted as missed and not stamped. -/
def Obligations.CaptureStamps : Prop :=
  ∀ (u : Fin 5) (rise : Bool) (f : Fin 128) (s : State) (x : Nat), s.bit (F.TIME_TCI_CTRL_EN u) = true →
    (if rise then s.getF (F.TIME_TCI_CTRL_EDGE u) % 2 = 1 else s.getF (F.TIME_TCI_CTRL_EDGE u) / 2 % 2 = 1) →
    x = s.now + f * s.incrNow / 128 →
    ∃ t, exec (.tciStamp u rise f) s = .next t ∧ Keeps [.regs, .time, .recq] s t ∧
      ((∃ k, s.time.tciLast.getD u none = some k ∧ s.tick < k + 8) →
        t.getF (F.TIME_TCI_MISSED_MISSED u) = (s.getF (F.TIME_TCI_MISSED_MISSED u) + 1) % 2 ^ 32 ∧
        t.time = s.time ∧ t.recq = s.recq ∧ RegsKept [R.TIME_TCI_MISSED u] s t) ∧
      ((∀ k, s.time.tciLast.getD u none = some k → k + 8 ≤ s.tick) →
        t.getF (F.TIME_TCI_SEC_LO_SEC_LO u) = tSec x % 2 ^ 32 ∧ t.getF (F.TIME_TCI_SEC_HI_SEC_HI u) = tSec x / 2 ^ 32 % 2 ^ 16 ∧
        t.getF (F.TIME_TCI_NS_NS u) = tNs x ∧ t.getF (F.TIME_TCI_FRAC_FRAC u) = tFrac x ∧
        t.getF (F.TIME_TCI_SEC_HI_EPOCH u) = s.epoch ∧ t.bit (F.TIME_TCI_FRAC_RISE u) = rise ∧
        t.time = { s.time with tciLast := updAt (fun _ => some s.tick) s.time.tciLast u })

/-- ANCHOR_MEASUREMENT (R50): in RUN the last sampling edge, labelled with a multiple of 2^16, gives the newest anchor: its label,
its time truncated to 1/65,536 ns and TIME_EPOCH; the anchor registers show it. -/
def Obligations.AnchorTaken : Prop :=
  ∀ (tdc tickTdc : Nat) (s : State), s.runSt = 3 → s.run.running = true → 0 < s.run.next → (s.run.next - 1) % 65536 = 0 →
    (∀ a, s.time.anchors.head? = some a → a.sn ≠ s.run.next - 1) → s.run.next - 1 < 2 ^ 64 →
    ∃ t, exec (.anchorMeasurement tdc tickTdc) s = .next t ∧
      Keeps [.regs, .time, .run, .path] s t ∧
      (∃ a, t.time = { s.time with anchors := a :: s.time.anchors } ∧ a.sn = s.run.next - 1 ∧ a.epoch = s.epoch ∧
        a.t = s.edgeTime tdc tickTdc / 2 ^ 40 * 2 ^ 40) ∧
      t.rd64 R.TIME_ANCHOR_SN_LO R.TIME_ANCHOR_SN_HI = s.run.next - 1 ∧ t.getF F.TIME_ANCHOR_SEC_HI_EPOCH = s.epoch ∧
      t.getF F.TIME_ANCHOR_NS_NS = tNs (s.edgeTime tdc tickTdc) ∧ t.run.edgeSn = s.run.next - 1

/-- TB_LOAD and the tick (R52, R53): a write of TIME_TB_NS has the next tick load TBn with the seconds last written and clear its
fraction; INCR, STEP and TIME_EPOCH take no part. A tick with no load waiting moves FRC and the legacy time bases alone. -/
def Obligations.LegacyLoad : Prop :=
  (∀ (id : Ident) (n : Fin 4) (v : Word) (s : State), s.goes id (R.TIME_TB_NS n) →
    ∃ t, exec (.tbLoad id n v) s = .next t ∧ Keeps [.regs, .time, .dbg] s t ∧
      t.time.tbs = updAt (fun b => { b with load := some (v.toNat % 2 ^ 30) }) s.time.tbs n ∧
      t.time.frc = s.time.frc ∧ t.now = s.now ∧ t.epoch = s.epoch) ∧
  (∀ (s : State) (n ns : Nat) (b : LegacyTb), n < s.time.tbs.length → s.tb n = b → b.load = some ns → s.pending = [] → s.pwr.por = false →
    ∃ t, step s = .next t ∧ t.tb n = { b with sec := b.hold, ns := ns, frac := 0, load := none }) ∧
  (∀ s : State, s.pending = [] → s.pwr.por = false → (∀ b ∈ s.time.tbs, b.load = none) →
    ∃ t, step s = .next t ∧ Keeps [.time, .mnt, .dbg] s t ∧ t.time = { s.time with frc := s.time.frc + 1#64, tbs := t.time.tbs })


/-! ### The access path: writes, reads, snapshots and fences -/

/-- REGISTER_WRITE (R5, R339, R340, R342, R343, R440): where a write of one word is not let through. One to a reserved address, and
any to a hub that is held in cold reset, does nothing. A refused one only counts in HIF_DENY; one behind a fence, or behind a waiting write of its identity to the same block,
waits for it; one to a NET, XPR or CAL register wakes the domain and waits; one to any other domain that is not ON only sets
WR_OFF. -/
def Obligations.WritePathStops : Prop :=
  (∀ (id : Ident) (off : Nat) (v : Word) (s : State), off < 0x800000 → off % 4 = 0 → regRow? off = none →
    specialAt off = .none ∨ (∃ n, specialAt off = .channel n) → onBus id = true →
    exec (.registerWrite id off (.dw v)) s = .next s) ∧
  (∀ (id : Ident) (off : Nat) (r : BarWrite) (s : State), off < 0x800000 → s.pwr.por = true →
    exec (.registerWrite id off r) s = .next s) ∧
  ∀ (id : Ident) (off : Nat) (v : Word) (s : State), off < 0x800000 → off % 4 = 0 → specialAt off = .none →
    (regRow? off).isSome = true → s.pwr.por = false → ¬ s.goes id off →
    ∃ t, exec (.registerWrite id off (.dw v)) s = .next t ∧
      (s.wrDenied id off = true →
        Keeps [.regs] s t ∧ RegsKept [R.HIF_DENY] s t ∧ t.getF F.HIF_DENY_COUNT = (s.getF F.HIF_DENY_COUNT + 1) % 2 ^ 32) ∧
      (s.wrDenied id off = false → (s.fenced id || s.inOrder id off) = true →
        Keeps [.pwr] s t ∧ t.pwr = { s.pwr with behind := s.pwr.behind ++ [⟨id, off, v, .write, s.fencing id⟩] }) ∧
      (s.wrDenied id off = false → (s.fenced id || s.inOrder id off) = false → domainOf off ∈ [10, 12, 13] →
        Keeps [.regs, .pwr] s t ∧ RegsKept [R.PWR_DOM_WAKES (domainOf off)] s t ∧ domainOf off ∈ t.pwr.waking ∧
        t.pwr.held = s.pwr.held ++ [⟨id, off, v, .write, s.fencing id⟩]) ∧
      (s.wrDenied id off = false → (s.fenced id || s.inOrder id off) = false → domainOf off ∉ [10, 12, 13] →
        Keeps [.regs] s t ∧ RegsKept [R.HIF_STATUS] s t ∧ t.bit F.HIF_STATUS_WR_OFF = true)

/-- The requests of BAR0 (R338): a request of another size, at an address its size does not allow, or with other byte enables
only counts in HIF_BAD_REQ, and a read is completed with Unsupported Request; a two-DW write is the write of the lower
register followed by that of the higher one. Outside BAR0 no register answers (R335). -/
def Obligations.RequestShape : Prop :=
  (∀ (id : Ident) (off : Nat) (r : BarWrite) (s : State), off < 0x800000 → s.pwr.por = false →
    (r = .bad ∨ (∃ v, r = .dw v ∧ off % 4 ≠ 0) ∨ (∃ a b, r = .two a b ∧ off % 8 ≠ 0)) →
    ∃ t, exec (.registerWrite id off r) s = .next t ∧ Keeps [.regs] s t ∧ RegsKept [R.HIF_BAD_REQ] s t ∧
      t.getF F.HIF_BAD_REQ_COUNT = (s.getF F.HIF_BAD_REQ_COUNT + 1) % 2 ^ 32) ∧
  (∀ (id : Ident) (off : Nat) (r : BarRead) (s : State), off < 0x800000 → s.pwr.por = false →
    (r = .bad ∨ (r = .dw ∧ off % 4 ≠ 0) ∨ (r = .two ∧ off % 8 ≠ 0)) →
    ∃ t, exec (.snapshotRead id off r) s = .next t ∧ Keeps [.regs, .obs] s t ∧ RegsKept [R.HIF_BAD_REQ] s t ∧
      t.obs = .unsupported id.num off :: s.obs ∧ t.getF F.HIF_BAD_REQ_COUNT = (s.getF F.HIF_BAD_REQ_COUNT + 1) % 2 ^ 32) ∧
  (∀ (id : Ident) (off : Nat) (a b : Word) (s : State), off < 0x800000 → off % 8 = 0 →
    ∃ u t, exec (.registerWrite id off (.dw a)) s = .next u ∧ exec (.registerWrite id (off + 4) (.dw b)) u = .next t ∧
      exec (.registerWrite id off (.two a b)) s = .next t) ∧
  (∀ (id : Ident) (off : Nat) (w : BarWrite) (r : BarRead) (s : State), 0x800000 ≤ off →
    exec (.registerWrite id off w) s = .fault .outsideBar0 ∧ exec (.snapshotRead id off r) s = .fault .outsideBar0 ∧
    exec (.rcRead id off) s = .fault .outsideBar0)

/-- REGISTER_WRITE to a register with no effect but its fields' (R3, R341, R344, R345), here one or more of most blocks. RW fields hold
the value written and the reserved bits stay; a value outside the limits of a field leaves the register (assumption log 6). A 1 clears a
W1C bit and a 0 leaves it. ST fields go to the shadow with its flag, from where they are read, and the field in use stays; while an apply
is not IDLE the write only sets WR_BLOCKED. RC and RO fields ignore the write. FLW_FQ_LIMIT and NET_SYNCE_CTRL act beside that: the
first on its queue's pointers or, over unread frames, once the last of them goes (assumption log 82), the second on SYNCE_CLKOUT (R320). -/
def Obligations.PlainWriteHolds : Prop :=
  (∀ (id : Ident) (off : Nat) (v m : Word) (s : State),
    off ∈ [R.TIME_QUALITY, R.UPD_TIMEOUT, R.AFE_RUN_CFG, R.AFE_RUN_DELAY, R.AFE_PLL_CFG, R.AFE_PLL_FB, R.AFE_PLL_FBINT,
      R.AFE_STOP_SN_LO, R.AFE_STOP_SN_HI, R.CAL_BG_CTRL, R.CAL_BG_INTERVAL, R.SNT_CTRL, R.STR_HUB_ID, R.STR_DRAIN,
      R.NET_DMF_CTRL, R.NET_SYNCE_CTRL, R.HIF_TIMED_APPLY_LO, R.HIF_TIMED_APPLY_HI, R.PWR_TCU_WAKE, R.PWR_MON_LIMIT,
      R.DBG_BP_VALUE 0] →
    s.goes id off → m = accMask .rw off →
    ∃ t, exec (.registerWrite id off (.dw v)) s = .next t ∧ Keeps [.regs, .dbg, .obs] s t ∧ RegsKept [off] s t ∧
      (off ≠ R.NET_SYNCE_CTRL → t.obs = s.obs) ∧
      (t.obs = s.obs ∨ t.obs = .synceClk t.clkOut :: s.obs) ∧
      (limitsOk off v = true → t.rd off = (s.rd off &&& ~~~m) ||| (v &&& m)) ∧
      (limitsOk off v = false → t.rd off = s.rd off)) ∧
  (∀ (id : Ident) (off : Nat) (v : Word) (s : State),
    off ∈ [R.HIF_DENY, R.HIF_BAD_REQ, R.CAL_TRANSIENT, R.IMG_VERSION, R.AFE_DELAY_USED, R.TIME_TCU_SKIP 0,
      R.UPD_TRANSIENT, R.PWR_RET_CE, R.NET_DMF_DROP, R.SNT_ERRORS] →
    s.goes id off →
    ∃ t, exec (.registerWrite id off (.dw v)) s = .next t ∧ Keeps [.regs, .dbg] s t ∧ RegsKept [] s t) ∧
  (∀ (id : Ident) (off : Nat) (v : Word) (s : State),
    off ∈ [R.TIME_STATUS, R.TIME_TCU_STATUS 3, R.AFE_PLL_STATUS, R.AFE_RUN_STATUS, R.IMG_REFORM_STATUS, R.HIF_STATUS,
      R.HIF_APPLY_STATUS, R.BMF_STATUS, R.FIR_STATUS 7, R.PWR_MON_STATUS] →
    s.goes id off →
    ∃ t, exec (.registerWrite id off (.dw v)) s = .next t ∧ Keeps [.regs, .dbg] s t ∧ RegsKept [off] s t ∧
      t.rd off = s.rd off &&& ~~~(v &&& accMask .w1c off)) ∧
  (∀ (id : Ident) (off : Nat) (v m : Word) (s : State),
    off ∈ [R.AFE_TONE_CTRL 2, R.CND_DELAY_INT 5, R.CND_DELAY_CTRL 5, R.CND_ALIGN_CTRL, R.TRG_TC_CTRL 1, R.TRG_TO_CTRL 3, R.BMF_BANK_SEL] →
    s.goes id off → m = accMask .st off →
    ∃ t, exec (.registerWrite id off (.dw v)) s = .next t ∧
      (s.applySt = 0 → Keeps [.shadows, .dbg] s t ∧ t.flagged off = true ∧ t.after off = v &&& m ∧
        ∀ o, o ≠ off → t.flagged o = s.flagged o ∧ t.after o = s.after o) ∧
      (s.applySt ≠ 0 → Keeps [.regs, .dbg] s t ∧ RegsKept [R.HIF_APPLY_STATUS] s t ∧ t.bit F.HIF_APPLY_STATUS_WR_BLOCKED = true)) ∧
  (∀ (id : Ident) (n : Fin 16) (v : Word) (s : State), s.goes id (R.FLW_FQ_LIMIT n) →
    ∃ t, exec (.registerWrite id (R.FLW_FQ_LIMIT n) (.dw v)) s = .next t ∧ Keeps [.regs, .fqHeld, .dbg] s t ∧
      t.getF (F.FLW_FQ_LIMIT_LINES n) = getBits v 0 21 ∧
      (s.fqHolds n = true → RegsKept [R.FLW_FQ_LIMIT n] s t ∧ (n < s.fqHeld.length → t.fqUsable n = s.fqUsable n)) ∧
      (s.fqHolds n = false → t.getF (F.FLW_FQ_WR_WR n) = 0 ∧ t.getF (F.FLW_FQ_RD_RD n) = 0))

/-- RC_READ and SNAPSHOT_READ (R3, R340, R342): a read of an RC register returns the count and clears it to zero; nothing else moves,
but that the next event of such a counter is the first since a read (R225, R326). Held to one register or more of each block that
counts. A read of an RW, RO or W1C register returns its value and one of an ST register its shadow, and both move nothing. A read of a
register whose domain is not ON returns 0 and sets RD_OFF; one behind an earlier write of its identity to the same block waits. -/
def Obligations.RcReadClears : Prop :=
  (∀ (id : Ident) (off : Nat) (s : State),
    off ∈ [R.AFE_START_COLLISION, R.AFE_STOP_COLLISION, R.AFE_SYNC_MALFORMED, R.AFE_SYNC_MISSED, R.UPD_TRANSIENT,
      R.NET_DMF_AUTHFAIL, R.NET_DMF_REPLAY, R.NET_DMF_DROP, R.NET_DMF_DENIED, R.HIF_BAD_REQ, R.HIF_DENY, R.MNT_LATE,
      R.TIME_TCI_MISSED 0, R.FLW_FQ_NOCREDIT 0] →
    onBus id = true → s.readsNow id off → s.domOn (domainOf off) = true →
    ∃ t, exec (.rcRead id off) s = .next t ∧ Keeps [.regs, .dbg, .obs, .firsts] s t ∧ RegsKept [off] s t ∧
      t.rd off = 0#32 ∧ t.obs = .read id.num off (s.rd off) :: s.obs ∧ t.firsts = s.firsts.filter (· != off)) ∧
  (∀ (id : Ident) (off : Nat) (s : State), off < 0x800000 → off % 4 = 0 → specialAt off = .none →
    (regRow? off).isSome = true → onBus id = true → s.readsNow id off → s.domOn (domainOf off) = false →
    ∃ t, exec (.rcRead id off) s = .next t ∧ Keeps [.regs, .obs] s t ∧ RegsKept [R.HIF_STATUS] s t ∧
      t.bit F.HIF_STATUS_RD_OFF = true ∧ t.obs = .read id.num off 0#32 :: s.obs) ∧
  (∀ (id : Ident) (off : Nat) (s : State),
    off ∈ [R.TIME_QUALITY, R.TIME_STATUS, R.TIME_EPOCH, R.UPD_TIMEOUT, R.UPD_STATUS, R.AFE_RUN_CFG, R.AFE_RUN_STATUS, R.AFE_PLL_CFG,
      R.AFE_QPWR, R.CAL_BG_CTRL, R.SNT_CTRL, R.STR_DRAIN, R.NET_DMF_CTRL, R.HIF_STATUS, R.PWR_STATUS, R.PWR_MON_LIMIT, R.MNT_ALERT_MASK,
      R.IMG_STATUS, R.IMG_CHECK, R.GLB_PART, R.MEM_SCRUB_CTRL, R.FLW_FQ_LIMIT 3] →
    onBus id = true → s.readsNow id off → s.domOn (domainOf off) = true → (∀ e ∈ s.shadows, e.1 ≠ off) →
    ∃ t, exec (.snapshotRead id off .dw) s = .next t ∧ Keeps [.dbg, .obs] s t ∧ t.obs = .read id.num off (s.rd off) :: s.obs) ∧
  (∀ (id : Ident) (off : Nat) (s : State),
    off ∈ [R.AFE_TONE_CTRL 2, R.CND_DELAY_INT 5, R.CND_DELAY_CTRL 5, R.CND_ALIGN_CTRL, R.TRG_TC_CTRL 1, R.TRG_TO_CTRL 3, R.BMF_BANK_SEL] →
    onBus id = true → s.readsNow id off → s.domOn (domainOf off) = true →
    ∃ t, exec (.snapshotRead id off .dw) s = .next t ∧ Keeps [.dbg, .obs] s t ∧ t.obs = .read id.num off (s.after off) :: s.obs) ∧
  (∀ (id : Ident) (off : Nat) (s : State), off < 0x800000 → off % 4 = 0 → onBus id = true → s.pwr.por = false → s.readWaits id off = true →
    ∃ t, exec (.snapshotRead id off .dw) s = .next t ∧ Keeps [.pwr] s t)

/-- SNAPSHOT_READ of TIME_NOW (R38, R40): the read of the head returns the low seconds of T and latches the other members, all
of one instant, for the reading identity; a read of a member returns that identity's latch and latches nothing; the latches
of the other identities stay. -/
def Obligations.SnapshotIsOneInstant : Prop :=
  (∀ (id : Ident) (s : State), onBus id = true → s.readsNow id R.TIME_NOW_SEC_LO →
    ∃ t, exec (.snapshotRead id R.TIME_NOW_SEC_LO .dw) s = .next t ∧ Keeps [.latches, .dbg, .obs] s t ∧
      t.obs = .read id.num R.TIME_NOW_SEC_LO (lo32 (tSec s.now)) :: s.obs ∧
      t.latched id R.TIME_NOW_SEC_HI = lo32 (tSec s.now / 2 ^ 32 + s.epoch * 2 ^ 16) ∧
      t.latched id R.TIME_NOW_NS = lo32 (tNs s.now) ∧ t.latched id R.TIME_NOW_FRAC = lo32 (tFrac s.now) ∧
      t.latched id R.TIME_NOW_FRC_LO = lo32 s.tick ∧ t.latched id R.TIME_NOW_FRC_HI = hi32 s.tick ∧
      t.latched id R.TIME_NOW_SHORT = lo32 (shortOf s.now) ∧
      ∀ (j : Ident) (off : Nat), j ≠ id → off < 0x800000 → t.latched j off = s.latched j off) ∧
  (∀ (id : Ident) (off : Nat) (s : State), onBus id = true → s.readsNow id off →
    off ∈ [R.TIME_NOW_SEC_HI, R.TIME_NOW_NS, R.TIME_NOW_FRAC, R.TIME_NOW_FRC_LO, R.TIME_NOW_FRC_HI, R.TIME_NOW_SHORT] →
    ∃ t, exec (.snapshotRead id off .dw) s = .next t ∧ Keeps [.dbg, .obs] s t ∧
      t.obs = .read id.num off (s.latched id off) :: s.obs)

/-- FENCE and FENCE_DONE (R343): a fence is pending with its token from its write on, and an older one whose earlier writes are all done
is the completed one from then on; with every earlier write of the identity done, the token of a fence is the completed one; with an
earlier write still held nothing happens. -/
def Obligations.FenceCompletes : Prop :=
  (∀ (id : Ident) (tok : BitVec 16) (s : State), s.goes id R.GLB_FENCE →
    ∃ t, exec (.fence id tok) s = .next t ∧ Keeps [.host, .pwr, .dbg] s t ∧
      t.host.fencePend = updAt (fun _ => some tok.toNat) s.host.fencePend id.num ∧
      (s.early id = true ∨ s.fencing id = false → t.host.fenceDone = s.host.fenceDone) ∧
      (∀ k, s.early id = false → s.host.fencePend.getD id.num none = some k →
        t.host.fenceDone = updAt (fun _ => k) s.host.fenceDone id.num) ∧
      ((∀ h ∈ s.pwr.held ++ s.pwr.behind, h.ident ≠ id) → t.pwr = s.pwr)) ∧
  (∀ (id : Ident) (k : Nat) (s : State), (∀ h ∈ s.pwr.held ++ s.pwr.behind, h.ident ≠ id) →
    s.host.fencePend.getD id.num none = some k →
    ∃ t, exec (.fenceDone id) s = .next t ∧ Keeps [.host] s t ∧
      t.host = { s.host with fenceDone := updAt (fun _ => k) s.host.fenceDone id.num,
                             fencePend := updAt (fun _ => none) s.host.fencePend id.num }) ∧
  (∀ (id : Ident) (s : State), (∃ h ∈ s.pwr.held ++ s.pwr.behind, h.ident = id ∧ h.isWrite = true ∧ h.late = false) →
    exec (.fenceDone id) s = .next s)


/-! ### Re-forms, power and resets -/

/-- REFORM_REQUEST (R72, R77, R407): SLOT and AT_SN take the value written; with GO a request for SLOT 0 or while an update
holds the re-form is refused, one beyond two is refused as QUEUE_FULL, and any other is pending with its SLOT, AT_SN and SN. -/
def Obligations.ReformRequestResult : Prop :=
  ∀ (id : Ident) (v : Word) (s : State), s.goes id R.IMG_REFORM_CTRL →
    ∃ t, exec (.reformRequest id v) s = .next t ∧ Keeps [.regs, .mnt, .reform, .dbg] s t ∧
      t.getF F.IMG_REFORM_CTRL_SLOT = getBits v 0 2 ∧ t.getF F.IMG_REFORM_CTRL_AT_SN = getBits v 2 1 ∧
      (v.getLsbD 31 = false → t.reform = s.reform ∧ t.mnt = s.mnt ∧ RegsKept [R.IMG_REFORM_CTRL] s t) ∧
      (v.getLsbD 31 = true → getBits v 0 2 = 0 →
        t.reform = s.reform ∧ t.mnt = s.mnt ∧ t.bit F.IMG_REFORM_STATUS_REFUSED = true ∧
        RegsKept [R.IMG_REFORM_CTRL, R.IMG_REFORM_STATUS] s t) ∧
      (v.getLsbD 31 = true → getBits v 0 2 ≠ 0 → s.updBusy = true →
        t.reform = s.reform ∧ t.mnt = s.mnt ∧ t.bit F.IMG_REFORM_STATUS_REFUSED = true ∧
        t.getF F.IMG_CHECK_CODE = 0x0C ∧ t.getF F.IMG_CHECK_DETAIL = 0x10 ∧ t.getF F.IMG_CHECK_SLOT = getBits v 0 2) ∧
      (v.getLsbD 31 = true → getBits v 0 2 ≠ 0 → s.updBusy = false → 2 ≤ s.reform.reqs.length →
        t.reform = s.reform ∧ t.mnt = s.mnt ∧ t.bit F.IMG_REFORM_STATUS_QUEUE_FULL = true) ∧
      (v.getLsbD 31 = true → getBits v 0 2 ≠ 0 → s.updBusy = false → s.reform.reqs.length < 2 →
        t.reform.reqs = s.reform.reqs ++
          [⟨getBits v 0 2, v.getLsbD 2, s.rd64 R.IMG_REFORM_SN_LO R.IMG_REFORM_SN_HI, 0⟩] ∧
        t.bit F.IMG_REFORM_STATUS_PENDING = true)

/-- The passes of a re-form that software asked for (R72-R74). At the end of the check pass, which needs the inflate lane (R275), a
target that fails ends the
request, sets REFUSED and stops no stream; with one that passes, outside RUN the run state is IDLE, the load pass is due at once
and AT reads all ones, and in RUN SN_r is the SN asked for where it lies ahead, else the first SN to come, with LATE where another was asked.
The load pass, once due, puts the target into use, moves nothing of the time base (R75) and ends in REFORM_DONE. -/
def Obligations.ReformPasses : Prop :=
  (∀ (gl : List Nat) (buf : List Byte) (s : State), (s.reform.reqs = [] ∨ s.reform.phase ≠ 1 ∨ s.sysRuns = false) →
    exec (.reformCheckPassEnd gl buf) s = .next s) ∧
  (∀ (gl : List Nat) (buf : List Byte) (s : State) (r : ReformReq) (q : List ReformReq) (x : Option Image),
    s.reform.reqs = r :: q → s.reform.phase = 1 → s.sysRuns = true → r.cause = 0 → ((s.plan gl).checkTarget r.slot gl buf).1.2.2 = x →
    ∃ t, exec (.reformCheckPassEnd gl buf) s = .next t ∧ t.run = s.run ∧ t.strs = s.strs ∧ t.image = s.image ∧
      (x = none → t.reform.reqs = q ∧ t.bit F.IMG_REFORM_STATUS_REFUSED = true) ∧
      (x.isSome = true → s.runSt ≠ 3 →
        t.reform = { s.reform with target := x, phase := 3, snr := none } ∧ t.getF F.IMG_STATUS_STATE = 3 ∧ t.runSt = 0 ∧
        t.rd64 R.IMG_REFORM_AT_LO R.IMG_REFORM_AT_HI = 2 ^ 64 - 1) ∧
      (x.isSome = true → s.runSt = 3 → r.atSn = true → s.run.next ≤ r.sn → r.sn < 2 ^ 64 →
        t.reform = { s.reform with target := x, phase := 2, snr := some r.sn } ∧
        t.rd64 R.IMG_REFORM_AT_LO R.IMG_REFORM_AT_HI = r.sn) ∧
      (x.isSome = true → s.runSt = 3 → (r.atSn = true → r.sn < s.run.next) → s.run.next < 2 ^ 64 →
        t.reform = { s.reform with target := x, phase := 2, snr := some s.run.next } ∧
        t.rd64 R.IMG_REFORM_AT_LO R.IMG_REFORM_AT_HI = s.run.next ∧
        (r.atSn = true → t.bit F.IMG_REFORM_STATUS_LATE = true))) ∧
  (∀ s : State, (s.reform.reqs = [] ∨ s.loadDue = false) → exec .reformLoadPass s = .next s) ∧
  (∀ (s : State) (r : ReformReq) (q : List ReformReq), s.reform.reqs = r :: q → s.loadDue = true → r.cause = 0 →
    ∃ t, exec .reformLoadPass s = .next t ∧ t.image = s.reform.target ∧ t.now = s.now ∧ t.time.frc = s.time.frc ∧
      ∃ l, t.recq = l ++ [⟨0, 0x0701, [], s.tick⟩])

/-- POWER_UP (R68, R382, R440): the first one ends the cold reset, with AON and HOST powered and no image; the second loads the slot of
ACTIVE or, where that fails its check, the other, writes the RESET record and sets READY (that the row takes two steps is the model's
choice: assumption log 88). Neither moves the time base. With no trial in the journal. -/
def Obligations.PowerUpLoads : Prop :=
  (∀ (gl : List Nat) (s : State), s.pwr.por = false → s.pwr.pgood = false → exec (.powerUp gl) s = .next s) ∧
  (∀ (gl : List Nat) (s : State), s.pwr.por = true →
    ∃ t, exec (.powerUp gl) s = .next t ∧ t.pwr.por = false ∧ t.pwr.pgood = s.pwr.pgood ∧ t.domOn 0 = true ∧ t.image = s.image ∧
      t.time = s.time ∧ t.bit F.PWR_STATUS_READY = s.bit F.PWR_STATUS_READY) ∧
  (∀ (gl : List Nat) (s u : State), s.pwr.por = false → s.pwr.pgood = true → s.jState ≠ 3 →
    u = ({ s with pwr := { s.pwr with pgood := false } }).powerFirst.plan gl →
    ∃ t, exec (.powerUp gl) s = .next t ∧
      t.image = (u.firstGood gl (if s.jActive = 0 then [] else [s.jActive, 3 - s.jActive])).1.map Prod.snd ∧
      t.now = s.now ∧ t.time.frc = s.time.frc ∧ t.bit F.PWR_STATUS_READY = true ∧ ∃ l, t.recq = l ++ [⟨0, 0x0907, pw 0, s.tick⟩])

/-- COLD_RESET, WARM_RESET, SOFTWARE_WARM_RESET and WARM_RESET_RELEASE (R101, R376, R382, R440): a cold reset leaves the state of
reset, held until POWER_UP, with what flash and fuses hold; a warm reset ends the run and every stream, empties the queues and the staged set, keeps
the image and the time base and shows its cause; the software form needs the key and acts as cause 5; the release writes the
RESET record and sets READY. -/
def Obligations.ResetsAct : Prop :=
  (∀ (por : Bool) (s : State), ∃ t, exec (.coldReset por) s = .next t ∧
    Keeps [.regs, .flash, .pwr, .obs, .freeCtr, .pending] State.reset t ∧ RegsKept [R.PWR_STATUS] State.reset t ∧
    t.flash = s.flash ∧ t.pwr = { State.reset.pwr with por := true } ∧ (∃ l, t.obs = l ++ s.obs) ∧ t.getF F.PWR_STATUS_LAST_RESET = b2n por) ∧
  (∀ (cause : Nat) (s : State), s.pwr.por = true → exec (.warmReset cause) s = .next s) ∧
  (∀ (cause : Nat) (s : State), s.pwr.por = false → ∃ t, exec (.warmReset cause) s = .next t ∧
    t.pwr.inReset = true ∧ t.getF F.PWR_STATUS_LAST_RESET = cause % 8 ∧ t.run.running = false ∧ t.run.next = 0 ∧
    t.strs = List.replicate 64 StreamState.reset ∧ t.wqs = List.replicate 512 WordQueue.reset ∧ t.fqs = List.replicate 16 [] ∧
    t.ports = List.replicate 4 NetPort.reset ∧ t.host = HostState.reset ∧ t.trg = TrigState.reset ∧ t.shadows = [] ∧
    t.dmfQ = [] ∧ t.image = s.image ∧ t.now = s.now ∧ t.time.frc = s.time.frc) ∧
  (∀ (id : Ident) (v : Word) (s : State), s.goes id R.PWR_RESET →
    ∃ t, exec (.softwareWarmReset id v) s = .next t ∧
      (getBits v 24 8 ≠ 0xA5 → Keeps [.regs, .dbg] s t ∧ RegsKept [R.HIF_DENY] s t ∧
        t.getF F.HIF_DENY_COUNT = (s.getF F.HIF_DENY_COUNT + 1) % 2 ^ 32) ∧
      (getBits v 24 8 = 0xA5 → v.getLsbD 0 = false → Keeps [.dbg] s t) ∧
      (getBits v 24 8 = 0xA5 → v.getLsbD 0 = true → ∃ u, exec (.warmReset 5) s = .next u ∧ Keeps [.dbg] u t)) ∧
  (∀ (lost : Bool) (ce : Nat) (gl : List Nat) (s : State), s.pwr.inReset = false →
    exec (.warmResetRelease lost ce gl) s = .next s) ∧
  (∀ (lost : Bool) (ce : Nat) (gl : List Nat) (s : State), s.pwr.inReset = true →
    ∃ t, exec (.warmResetRelease lost ce gl) s = .next t ∧ t.now = s.now ∧ t.time.frc = s.time.frc ∧
      t.bit F.PWR_STATUS_READY = true ∧ ∃ l, t.recq = l ++ [⟨0, 0x0907, pw 1, s.tick⟩])


/-! ### Domains, block resets and monitors -/

/-- DOMAIN_IDLE, DOMAIN_WAKE, DOMAIN_ON and DOMAIN_RESET (R340, R372-R376, R383): an idling domain (NET 10, XPR 12, CAL 13) with no
work for HOLD_US and a set IDLE_STATE takes that state, and only it; HOST goes to RETAIN with the link in L2 (that this row stands for it
is the model's choice: assumption log 88); a wake source starts the wake of a domain that is not ON and counts it, restarts the hold of
one that is ON, and governs where the domain took its idle state in the same F-cycle; a woken domain is ON, then and not before; HOST0 may
not reset a domain, and a reset of CAL abandons every calibration. -/
def Obligations.DomainsMove : Prop :=
  (∀ (d : Fin 14) (s : State), (d = 10 ∨ d = 12 ∨ d = 13) → s.domState d = 2 → s.getF (F.PWR_DOM_CTRL_IDLE_STATE d) ≠ 0 →
    s.hasWork d = false → s.pwr.lastWork.getD d 0 < s.tick →
    s.pwr.lastWork.getD d 0 + s.getF (F.PWR_DOM_CTRL_HOLD_US d) * 500 ≤ s.tick →
    ∃ t, exec (.domainIdle d) s = .next t ∧ Keeps [.regs, .pwr, .obs] s t ∧ RegsKept [R.PWR_DOM_STATE] s t ∧
      t.pwr = { s.pwr with fellAt := updAt (fun _ => some s.tick) s.pwr.fellAt d } ∧
      t.domState d = (if s.getF (F.PWR_DOM_CTRL_IDLE_STATE d) = 1 then 1 else 0) ∧
      ∀ e : Nat, e ≠ d.val → t.domState e = s.domState e) ∧
  (∀ (d : Fin 14) (s : State), d ≠ 11 →
    (¬ (d = 10 ∨ d = 12 ∨ d = 13) ∨ s.getF (F.PWR_DOM_CTRL_IDLE_STATE d) = 0 ∨ s.hasWork d = true) →
    exec (.domainIdle d) s = .next s) ∧
  (∀ s : State, s.host.linkUp = true →
    ∃ t, exec (.domainIdle 11) s = .next t ∧ Keeps [.regs, .host, .obs] s t ∧ RegsKept [R.PWR_DOM_STATE] s t ∧ t.domState 11 = 1 ∧
      t.host = { s.host with linkUp := false }) ∧
  (∀ (d : Fin 14) (s : State), (d = 10 ∨ d = 12 ∨ d = 13) → s.domOn d = true →
    ∃ t, exec (.domainWake d) s = .next t ∧ Keeps [.pwr] s t ∧
      t.pwr = { s.pwr with lastWork := updAt (fun _ => s.tick) s.pwr.lastWork d }) ∧
  (∀ (d : Fin 14) (s : State), (d = 10 ∨ d = 12 ∨ d = 13) → s.domOn d = false → d.val ∉ s.pwr.waking →
    s.pwr.fellAt.getD d none = some s.tick →
    ∃ t, exec (.domainWake d) s = .next t ∧ Keeps [.regs, .pwr, .obs] s t ∧ RegsKept [R.PWR_DOM_STATE] s t ∧ t.domState d = 2) ∧
  (∀ (d : Fin 14) (s : State), (d = 10 ∨ d = 12 ∨ d = 13) → s.domOn d = false → d.val ∉ s.pwr.waking →
    s.pwr.fellAt.getD d none ≠ some s.tick →
    ∃ t, exec (.domainWake d) s = .next t ∧ Keeps [.regs, .pwr] s t ∧ RegsKept [R.PWR_DOM_WAKES d] s t ∧
      t.pwr.waking = s.pwr.waking ++ [d.val] ∧
      t.getF (F.PWR_DOM_WAKES_COUNT d) = (s.getF (F.PWR_DOM_WAKES_COUNT d) + 1) % 2 ^ 32) ∧
  (∀ (d : Fin 14) (s : State), d.val ∉ s.pwr.waking → exec (.domainOn d) s = .next s) ∧
  (∀ (d : Fin 14) (s : State), d.val ∈ s.pwr.waking → d.val ∉ s.pwr.wakeOff → (∀ i, s.mbx.inReset.getD i false = false) →
    s.mbx.sigs = [] → (∀ h ∈ s.pwr.held, domainOf h.off ≠ d) → s.pwr.behind = [] →
    ∃ t, exec (.domainOn d) s = .next t ∧ Keeps [.regs, .pwr, .obs] s t ∧ RegsKept [R.PWR_DOM_STATE] s t ∧ t.domState d = 2 ∧
      d.val ∉ t.pwr.waking ∧ t.pwr.held = s.pwr.held) ∧
  (∀ (d : Fin 14) (s : State), s.pwr.por = false →
    ∃ t, exec (.domainReset .host0 d) s = .next t ∧ Keeps [.regs] s t ∧ RegsKept [R.HIF_DENY] s t ∧
      t.getF F.HIF_DENY_COUNT = (s.getF F.HIF_DENY_COUNT + 1) % 2 ^ 32) ∧
  (∀ (id : Ident) (d : Fin 14) (s : State), id ≠ .host0 → s.goes id (R.PWR_DOM_CTRL d) → ¬ (d = 10 ∨ d = 12 ∨ d = 13) →
    ∃ t, exec (.domainReset id d) s = .next t ∧ Keeps [.dbg] s t) ∧
  (∀ (id : Ident) (s : State), id ≠ .host0 → s.goes id (R.PWR_DOM_CTRL 13) →
    ∃ t, exec (.domainReset id 13) s = .next t ∧ t.cal.fg = 0 ∧ t.cal.done = [] ∧
      ∀ a ∈ t.mnt.running ++ t.mnt.waiting, a.a ≠ actBgcal ∧ a.a ≠ actFgcal)

/-- BLOCK_SOFT_RESET (R376): outside IDLE with nothing draining it is refused; otherwise only the blocks named are reset: MNT
loses its fault and late counts, and nothing else moves where no word queue has an end there. -/
def Obligations.BlockResetActs : Prop :=
  (∀ (id : Ident) (v : Word) (s : State), s.goes id R.PWR_BLK_RESET →
    (s.runSt ≠ 0 ∨ s.bit F.AFE_RUN_STATUS_DRAINING = true) →
    ∃ t, exec (.blockSoftReset id v) s = .next t ∧ Keeps [.regs, .dbg] s t ∧ RegsKept [R.PWR_STATUS] s t ∧
      t.bit F.PWR_STATUS_BLK_REFUSED = true) ∧
  (∀ (id : Ident) (s : State), s.goes id R.PWR_BLK_RESET → s.runSt = 0 → s.bit F.AFE_RUN_STATUS_DRAINING = false →
    ∃ t, exec (.blockSoftReset id 0x8000#32) s = .next t ∧
      ((∀ m, s.image = some m → ∀ q ∈ m.wqs, q.srcBlk ≠ 15 ∧ q.dstBlk ≠ 15) → Keeps [.regs, .shadows, .firsts, .obs, .dbg] s t) ∧
      t.rd R.MNT_LATE = 0#32 ∧ (∀ k, k < 7 → t.rd (R.MNT_FAULT_TRANS k) = 0#32 ∧ t.rd (R.MNT_FAULT_LASTING k) = 0#32) ∧
      t.rd R.MNT_ALERT_STATUS = 0#32 ∧ t.getF F.MNT_QUEUE_HIGH = s.mnt.waiting.length % 2 ^ 6)

/-- MONITOR_SAMPLE (R452, R453): the readings appear in their registers; a rail outside 5 % of nominal sets its bit of RAIL_OUT;
THERM is set where a temperature stands at or above LIMIT, with THERM_HIT, and clears where all stand at or below
LIMIT - HYST. -/
def Obligations.MonitorsFollow : Prop :=
  ∀ (temps : List Int) (volts : List Nat) (s : State), temps.length = 8 → volts.length = 7 → s.pwr.por = false →
    ∃ t, exec (.monitorSample temps volts) s = .next t ∧ Keeps [.regs, .recq, .obs] s t ∧
      (∀ i, i < 8 → t.getF (F.PWR_MON_TEMP_TEMP i) = ofSigned 16 (temps.getD i 0)) ∧
      (∀ v, v < 7 → t.getF (F.PWR_MON_VOLT_MV v) = volts.getD v 0 % 2 ^ 16) ∧
      (∀ v, v < 7 → (20 * volts.getD v 0 < 19 * railNominal.getD v 0 ∨ 21 * railNominal.getD v 0 < 20 * volts.getD v 0) →
        t.bit ⟨R.PWR_MON_STATUS, 8 + v, 1⟩ = true) ∧
      (s.bit F.PWR_MON_STATUS_THERM = false →
        (t.bit F.PWR_MON_STATUS_THERM = true ↔ ∃ i, i < 8 ∧ s.getI F.PWR_MON_LIMIT_LIMIT ≤ t.getI (F.PWR_MON_TEMP_TEMP i)) ∧
        (t.bit F.PWR_MON_STATUS_THERM = true → t.bit F.PWR_MON_STATUS_THERM_HIT = true)) ∧
      (s.bit F.PWR_MON_STATUS_THERM = true →
        (t.bit F.PWR_MON_STATUS_THERM = false ↔
          ∀ i, i < 8 → t.getI (F.PWR_MON_TEMP_TEMP i) ≤ s.getI F.PWR_MON_LIMIT_LIMIT - s.getF F.PWR_MON_LIMIT_HYST))


/-! ### The PLL, the quadrants and the run -/

/-- PLL_COMMIT, PLL_LOCKED, CLK_UNLOCK, HOLDOVER and HOLDOVER_EXIT (R84-R86): GO takes the setting of the registers and drops
LOCKED, or is refused with its code, which is 1 outside IDLE or while draining; LOCKED then rises with TIME_SPERIOD and
FREQ_KHZ of the setting; a loss of lock is recorded and stops a run; the loss of a recovered clock is recorded and holds
the PLL over until it returns. -/
def Obligations.PllFollows : Prop :=
  (∀ (id : Ident) (v : Word) (s : State) (idle : Bool) (e : Nat), s.goes id R.AFE_PLL_CTRL → v.getLsbD 0 = true →
    idle = (s.runSt == 0 && !s.bit F.AFE_RUN_STATUS_DRAINING) →
    s.pllErr idle (s.rd R.AFE_PLL_CFG) (s.rd R.AFE_PLL_FB) (s.rd R.AFE_PLL_FBINT) = e →
    ∃ t, exec (.pllCommit id v) s = .next t ∧ Keeps [.regs, .conv, .dbg] s t ∧
      (idle = false → e = 1) ∧
      (e ≠ 0 → t.conv = s.conv ∧ RegsKept [R.AFE_PLL_STATUS] s t ∧ t.getF F.AFE_PLL_STATUS_ERR = e ∧
        t.bit F.AFE_PLL_STATUS_ERR_FLAG = true ∧ t.bit F.AFE_PLL_STATUS_LOCKED = s.bit F.AFE_PLL_STATUS_LOCKED) ∧
      (e = 0 → t.conv.cfg = s.rd R.AFE_PLL_CFG ∧ t.conv.fb = s.rd R.AFE_PLL_FB ∧ t.conv.fbint = s.rd R.AFE_PLL_FBINT ∧
        t.conv.commit = true ∧ t.bit F.AFE_PLL_STATUS_LOCKED = false ∧ t.bit F.AFE_PLL_STATUS_HOLDOVER = false)) ∧
  (∀ (s : State) (p q : Nat), s.bit F.AFE_PLL_STATUS_LOCKED = false → s.conv.stuck = false → s.conv.commit = true →
    s.sclk = (p, q) → p ≠ 0 → q ≠ 0 →
    ∃ t, exec .pllLocked s = .next t ∧ Keeps [.regs, .path, .conv] s t ∧ t.bit F.AFE_PLL_STATUS_LOCKED = true ∧
      t.conv = { s.conv with commit := false } ∧
      t.rd64 R.TIME_SPERIOD_LO R.TIME_SPERIOD_HI = periodOf (p, q) % 2 ^ 64 ∧
      t.getF F.AFE_PLL_FREQ_FREQ_KHZ = p / (q * 1000) % 2 ^ 20 ∧
      RegsKept [R.AFE_PLL_STATUS, R.AFE_PLL_FREQ, R.TIME_SPERIOD_LO, R.TIME_SPERIOD_HI] s t) ∧
  (∀ s : State, s.bit F.AFE_PLL_STATUS_LOCKED = true →
    ∃ t, exec .clkUnlock s = .next t ∧ t.bit F.AFE_PLL_STATUS_LOCKED = false ∧ t.bit F.AFE_PLL_STATUS_UNLOCK = true ∧
      (s.runSt ≤ 1 → Keeps [.regs, .recq] s t ∧ RegsKept [R.AFE_PLL_STATUS] s t ∧ t.recq = s.recq ++ [⟨0, 0x0901, [], s.tick⟩]) ∧
      (s.runSt = 3 → t.bit F.AFE_RUN_STATUS_UNLOCK_STOP = true ∧ t.bit F.AFE_RUN_STATUS_STOP_PENDING = true ∧
        t.run = { s.run with stopAt := some (match s.run.stopAt with | some z => min z s.label | none => s.label) } ∧
        t.recq = s.recq ++ [⟨0, 0x0901, [], s.tick⟩])) ∧
  (∀ s : State, s.synce = true → s.bit F.AFE_PLL_STATUS_LOCKED = true → s.bit F.AFE_PLL_STATUS_HOLDOVER = false →
    ∃ t, exec .holdover s = .next t ∧ Keeps [.regs, .recq] s t ∧ RegsKept [R.AFE_PLL_STATUS] s t ∧
      t.bit F.AFE_PLL_STATUS_HOLDOVER = true ∧ t.recq = s.recq ++ [⟨0, 0x0902, [], s.tick⟩]) ∧
  (∀ s : State, s.synce = true → ∃ t, exec .holdoverExit s = .next t ∧ Keeps [.regs] s t ∧ RegsKept [R.AFE_PLL_STATUS] s t ∧
    t.bit F.AFE_PLL_STATUS_HOLDOVER = false)

/-- QUADRANT_POWER_ON, QUADRANT_POWER_OFF and QUADRANT_ON (R88, R116): a request of a quadrant that the image does not use, or
the power-off of one in use outside IDLE, acts only on ERR or not at all; else REQ follows, a power-off drops ON and both
domains, and a requested quadrant comes ON with its domains, whose word queues are flushed. Background calibration of the quadrant, where it runs, pauses. -/
def Obligations.QuadrantsFollow : Prop :=
  (∀ (id : Ident) (q : Fin 4) (s : State), s.goes id R.AFE_QPWR →
    ∃ t, exec (.quadrantPowerOn id q) s = .next t ∧ Keeps [.regs, .dbg] s t ∧ RegsKept [R.AFE_QPWR] s t ∧
      (s.quadsUsed.testBit q = true → t.bit (qReq q) = true) ∧
      (s.quadsUsed.testBit q = false → t.bit F.AFE_QPWR_ERR = true ∧ t.getF (qReq q) = s.getF (qReq q))) ∧
  (∀ (id : Ident) (q : Fin 4) (s : State), s.goes id R.AFE_QPWR →
    ∃ t, exec (.quadrantPowerOff id q) s = .next t ∧
      (s.quadsUsed.testBit q = false → Keeps [.dbg] s t) ∧
      (s.quadsUsed.testBit q = true → s.runSt ≠ 0 →
        Keeps [.regs, .dbg] s t ∧ RegsKept [R.AFE_QPWR] s t ∧ t.bit F.AFE_QPWR_ERR = true ∧ t.getF (qReq q) = s.getF (qReq q)) ∧
      (s.quadsUsed.testBit q = true → s.runSt = 0 →
        Keeps [.regs, .cal, .mnt, .dbg] s t ∧ t.bit (qReq q) = false ∧ t.bit (qOn q) = false ∧
        t.domState (1 + q) = 0 ∧ t.domState (5 + q) = 0)) ∧
  (∀ (q : Fin 4) (s : State), s.getF (qReq q) = 1 → s.getF (qOn q) = 0 → s.quadsUsed.testBit q = true →
    ∃ t, exec (.quadrantOn q) s = .next t ∧ t.bit (qOn q) = true ∧ t.domState (1 + q) = 2 ∧ t.domState (5 + q) = 2 ∧
      t.time = s.time ∧ t.run = s.run ∧
      ((∀ m, s.image = some m → ∀ q ∈ m.wqs, q.srcBlk ∉ [9, 16, 17] ∧ q.dstBlk ∉ [9, 16, 17]) → t.strs = s.strs))

/-- RUN_ARM, RUN_DISARM, HOST_START, HOST_STOP and STOP_AT_SN (R89-R91, R94-R97) by the run state 0 IDLE, 1 ARMED, 2 DELAY, 3 RUN:
what each does, refuses or counts, and the S_stop that a stop in RUN fixes. -/
def Obligations.RunCommands : Prop :=
  (∀ (id : Ident) (s : State), s.goes id R.AFE_RUN_CMD →
    ∃ t, exec (.runArm id) s = .next t ∧ Keeps [.regs, .dbg] s t ∧ RegsKept [R.AFE_RUN_STATUS] s t ∧
      (s.armErr = 0 → t.runSt = 1) ∧
      (s.armErr ≠ 0 → t.runSt = s.runSt ∧ t.getF F.AFE_RUN_STATUS_ARM_ERR = s.armErr ∧
        t.bit F.AFE_RUN_STATUS_ARM_REFUSED = true) ∧
      (s.runSt ≠ 0 → s.armErr = 1) ∧ (s.runSt = 0 → s.image = none → s.armErr = 2)) ∧
  (∀ (id : Ident) (s : State), s.goes id R.AFE_RUN_CMD →
    ∃ t, exec (.runDisarm id) s = .next t ∧ Keeps [.regs, .pwr, .dbg] s t ∧ RegsKept [R.AFE_RUN_STATUS, R.MNT_LATE] s t ∧
      (s.runSt = 0 → t.regs = s.regs ∧ t.pwr = s.pwr) ∧ (s.runSt = 1 → t.runSt = 0) ∧
      (2 ≤ s.runSt → t.runSt = s.runSt ∧ t.bit F.AFE_RUN_STATUS_DISARM_LATE = true ∧
        t.getF F.MNT_LATE_COUNT = (s.getF F.MNT_LATE_COUNT + 1) % 2 ^ 32)) ∧
  (∀ (id : Ident) (s : State), s.goes id R.AFE_RUN_CMD →
    ∃ t, exec (.hostStart id) s = .next t ∧
      ((s.runSt = 0 ∨ (s.runSt = 1 ∧ s.getF F.AFE_RUN_CFG_SRC ≠ srcHost)) →
        Keeps [.regs, .dbg] s t ∧ RegsKept [R.AFE_RUN_STATUS] s t ∧ t.runSt = s.runSt ∧ t.bit F.AFE_RUN_STATUS_CMD_ERR = true) ∧
      (2 ≤ s.runSt → Keeps [.regs, .recq, .dbg] s t ∧ RegsKept [R.AFE_START_COLLISION] s t ∧
        t.getF F.AFE_START_COLLISION_COUNT = (s.getF F.AFE_START_COLLISION_COUNT + 1) % 2 ^ 32 ∧
        t.recq = s.recq ++ [⟨0, 0x0903, [], s.tick⟩]) ∧
      (s.runSt = 1 → s.getF F.AFE_RUN_CFG_SRC = srcHost →
        t.runSt = 2 ∧ t.run.next = 0 ∧ t.run.running = false ∧ t.run.stopAt = none ∧ t.run.tStart = s.lead - s.stepShift ∧
        t.run.cfg = s.rd R.AFE_RUN_CFG ∧
        t.now = s.now ∧ t.getF F.AFE_START_NS_NS = tNs s.lead ∧ t.getF F.AFE_START_FRAC_FRAC = tFrac s.lead)) ∧
  (∀ (id : Ident) (at_ : Bool) (s : State) (n : Nat) (late : Bool), s.goes id R.AFE_RUN_CMD →
    (at_ = false → n = s.stopSn s.lead ∧ late = false) →
    (at_ = true → late = decide (s.rd64 R.AFE_STOP_SN_LO R.AFE_STOP_SN_HI < s.run.next) ∧
      n = (if late then s.run.next else s.rd64 R.AFE_STOP_SN_LO R.AFE_STOP_SN_HI)) →
    ∃ t, exec (if at_ then .stopAtSn id else .hostStop id) s = .next t ∧
      (s.runSt = 0 → Keeps [.regs, .dbg] s t ∧ RegsKept [R.AFE_RUN_STATUS] s t ∧ t.bit F.AFE_RUN_STATUS_CMD_ERR = true) ∧
      ((s.runSt = 1 ∨ (s.runSt = 3 ∧ s.run.stopAt.isSome = true)) →
        Keeps [.regs, .recq, .dbg] s t ∧ RegsKept [R.AFE_STOP_COLLISION] s t ∧
        t.getF F.AFE_STOP_COLLISION_COUNT = (s.getF F.AFE_STOP_COLLISION_COUNT + 1) % 2 ^ 32 ∧
        t.recq = s.recq ++ [⟨0, 0x0904, [], s.tick⟩]) ∧
      (s.runSt = 2 → s.applySt = 0 → t.runSt = 0 ∧ t.run = s.run ∧ t.recq = s.recq ∧
        t.rd64 R.AFE_STOP_AT_LO R.AFE_STOP_AT_HI = 2 ^ 64 - 1) ∧
      (s.runSt = 3 → s.run.stopAt = none →
        Keeps [.regs, .run, .dbg] s t ∧ t.run = { s.run with stopAt := some n } ∧ t.runSt = 3 ∧
        t.bit F.AFE_RUN_STATUS_STOP_PENDING = true ∧ (late = true → t.bit F.AFE_RUN_STATUS_STOP_LATE = true) ∧
        (n < 2 ^ 64 → t.rd64 R.AFE_STOP_AT_LO R.AFE_STOP_AT_HI = n)))


/-! ### The run, SYNC_IN and the sampling edge -/

/-- SN_ZERO and S_STOP_REACHED (R77, R92, R98, R100): in DELAY, the first sampling edge at or after g(0) begins RUN with label 0
next, and the time marks placed in DELAY take their SN; once the edge of S_stop has passed, below the SN_r of a re-form, the run is
IDLE and drains. -/
def Obligations.RunBeginsAndEnds : Prop :=
  (∀ (tdc tickTdc : Nat) (s : State), s.runSt = 2 → s.gAt 0 ≤ (s.edgeTime tdc tickTdc : Int) →
    s.bit F.AFE_PLL_STATUS_LOCKED = true →
    ∃ t, exec (.snZero tdc tickTdc) s = .next t ∧ Keeps [.regs, .run, .strs] s t ∧ RegsKept [R.AFE_RUN_STATUS] s t ∧
      t.runSt = 3 ∧ t.strs = (s.marksAt (s.edgeTime tdc tickTdc)).strs ∧
      ((∀ x ∈ s.strs, ∀ m ∈ x.marks, m.rel = none) → t.strs = s.strs) ∧
      t.run = { s.run with
        next := 0, cyc0 := s.run.scyc, edgeSn := 0, edgeT := s.edgeTime tdc tickTdc - s.stepShift, running := true, since := s.tick }) ∧
  (∀ (tdc tickTdc : Nat) (s : State), ¬ (s.runSt = 2 ∧ s.gAt 0 ≤ (s.edgeTime tdc tickTdc : Int) ∧
    s.bit F.AFE_PLL_STATUS_LOCKED = true) → exec (.snZero tdc tickTdc) s = .next s) ∧
  (∀ (s : State) (z : Nat), s.run.stopAt = some z → s.runSt = 3 → z < s.run.next → s.beforeReform z = true →
    ∃ t, exec .sStopReached s = .next t ∧ t.runSt = 0 ∧ t.bit F.AFE_RUN_STATUS_STOP_PENDING = false ∧ t.run.stopAt = none ∧
      t.run.endSn = some z ∧ t.run.next = s.run.next ∧
      Keeps [.regs, .run, .strs, .pwr, .host, .recq, .setLog, .upd, .freeCtr] s t) ∧
  (∀ s : State, (∀ z, s.run.stopAt = some z → s.runSt ≠ 3 ∨ s.run.next ≤ z ∨ s.beforeReform z = false) → exec .sStopReached s = .next s)

/-- SYNC_IN_LEADING_EDGE, SYNC_IN_TRAILING_EDGE, SYNC_MALFORMED and SYNC_IN_QUALIFY (R99, R100): an enabled input times the
leading edge, counts MISSED within 8 ticks of the reference, and gives a pulse its width at the trailing edge; a pulse that
lasts too long, or matches no class, counts MALFORMED; a pulse of class n counts for the class and has its action. -/
def Obligations.SyncClasses : Prop :=
  (∀ (f : Fin 128) (s : State), s.bit F.AFE_SYNC_CTRL_EN = false → exec (.syncInLeadingEdge f) s = .next s) ∧
  (∀ (f : Fin 128) (s : State) (k : Nat), s.bit F.AFE_SYNC_CTRL_EN = true → s.run.syncRef = some k → s.tick < k + 8 →
    ∃ t, exec (.syncInLeadingEdge f) s = .next t ∧ Keeps [.regs] s t ∧ RegsKept [R.AFE_SYNC_MISSED] s t ∧
      t.getF F.AFE_SYNC_MISSED_COUNT = (s.getF F.AFE_SYNC_MISSED_COUNT + 1) % 2 ^ 32) ∧
  (∀ (f : Fin 128) (s : State), s.bit F.AFE_SYNC_CTRL_EN = true → (∀ k, s.run.syncRef = some k → k + 8 ≤ s.tick) →
    ∃ t, exec (.syncInLeadingEdge f) s = .next t ∧ Keeps [.run] s t ∧
      t.run = { s.run with sync := some ⟨s.tick, s.now + f * s.incrNow / 128, s.epoch, -s.stepShift, true, false, none⟩ }) ∧
  (∀ (s : State) (p : SyncPulse), s.run.sync = some p → p.kt = none →
    ∃ t, exec .syncInTrailingEdge s = .next t ∧ Keeps [.run] s t ∧ t.run.syncRef = some s.tick ∧
      t.run.sync = (if p.tooLong then none else some { p with kt := some s.tick })) ∧
  (∀ (s : State) (p : SyncPulse), s.run.sync = some p → p.kt = none → p.tooLong = false → p.kl + 16777215 ≤ s.tick →
    ∃ t, exec .syncMalformed s = .next t ∧ Keeps [.regs, .run] s t ∧ RegsKept [R.AFE_SYNC_MALFORMED] s t ∧
      t.run = { s.run with sync := some { p with tooLong := true } } ∧
      t.getF F.AFE_SYNC_MALFORMED_COUNT = (s.getF F.AFE_SYNC_MALFORMED_COUNT + 1) % 2 ^ 32) ∧
  (∀ (s : State) (p : SyncPulse), s.run.sync = some p → p.kt = none → (p.tooLong = true ∨ s.tick < p.kl + 16777215) →
    exec .syncMalformed s = .next s) ∧
  (∀ (s : State) (p : SyncPulse) (k : Nat), s.run.sync = some p → p.kt = some k → k + 4 ≤ s.tick →
    ∃ t, exec .syncInQualify s = .next t ∧ t.run.sync = none ∧
      Keeps [.regs, .run, .cal, .dbg, .fqs, .host, .mem, .path, .ports, .pwr, .recq, .setLog, .strs, .time, .trg, .upd, .freeCtr] s t ∧
      ((∀ n, n < 4 → s.bit (F.AFE_SYNC_CLS_CTRL_EN n) = true → s.getF (F.AFE_SYNC_CLS_MIN_MIN n) ≤ k - p.kl →
          s.getF (F.AFE_SYNC_CLS_MAX_MAX n) < k - p.kl) →
        Keeps [.regs, .run, .recq] s t ∧ RegsKept [R.AFE_SYNC_MALFORMED] s t ∧
        t.getF F.AFE_SYNC_MALFORMED_COUNT = (s.getF F.AFE_SYNC_MALFORMED_COUNT + 1) % 2 ^ 32) ∧
      (∀ n, n < 4 → s.bit (F.AFE_SYNC_CLS_CTRL_EN n) = true → s.getF (F.AFE_SYNC_CLS_MIN_MIN n) ≤ k - p.kl →
        k - p.kl ≤ s.getF (F.AFE_SYNC_CLS_MAX_MAX n) →
        (∀ m, m < n → s.bit (F.AFE_SYNC_CLS_CTRL_EN m) = false) → s.getF (F.AFE_SYNC_CLS_CTRL_ACTION n) = 0 →
        s.runSt = 1 → s.getF F.AFE_RUN_CFG_SRC = srcSync →
        t.runSt = 2 ∧ t.run.tStart = s.syncInstant p - s.stepShift) ∧
      (∀ n, n < 4 → s.bit (F.AFE_SYNC_CLS_CTRL_EN n) = true → s.getF (F.AFE_SYNC_CLS_MIN_MIN n) ≤ k - p.kl →
        k - p.kl ≤ s.getF (F.AFE_SYNC_CLS_MAX_MAX n) → (∀ m, m < n → s.bit (F.AFE_SYNC_CLS_CTRL_EN m) = false) →
        t.getF (F.AFE_SYNC_CLS_COUNT_COUNT n) = (s.getF (F.AFE_SYNC_CLS_COUNT_COUNT n) + 1) % 2 ^ 32 ∧
        (s.getF (F.AFE_SYNC_CLS_CTRL_ACTION n) = 1 → s.runSt = 3 → s.run.stopAt = none →
          t.runSt = 3 ∧ t.run = { s.run with sync := none, stopAt := some (s.stopSn (s.syncInstant p)) }) ∧
        (s.getF (F.AFE_SYNC_CLS_CTRL_ACTION n) = 2 → s.runSt = 3 →
          t.recq = s.recq ++ [⟨0, 0x0906, [], s.tick⟩] ∧
          t.strs = s.strs.map (fun x =>
            if x.active then { x with marks := x.marks ++ [⟨(s.snFrom (s.syncInstant p)).toNat, p.tl, p.epoch, n, none⟩] } else x)))) ∧
  (∀ (s : State) (p : SyncPulse) (k : Nat), s.run.sync = some p → p.kt = some k → s.tick < k + 4 →
    exec .syncInQualify s = .next s)

/-- SAMPLING_EDGE (R8, R17, R425): nothing happens while the PLL is not locked; else one S-cycle counts, and in a labelled run the label
counts one up, but for a drain that a debug halt holds. Time, the flash and the queues for software are not its to move, and staged
settings land at it only where an armed set is due (R346). -/
def Obligations.EdgesAdvanceLabels : Prop :=
  (∀ (inp noise : List Int) (s : State), s.bit F.AFE_PLL_STATUS_LOCKED = false →
    exec (.samplingEdge inp noise) s = .next s) ∧
  (∀ (inp noise : List Int) (s : State), s.bit F.AFE_PLL_STATUS_LOCKED = true → s.drainHeld = true →
    ∃ t, exec (.samplingEdge inp noise) s = .next t ∧ Keeps [.run, .dbg] s t ∧ t.run = { s.run with scyc := s.run.scyc + 1 }) ∧
  (∀ (inp noise : List Int) (s : State), s.bit F.AFE_PLL_STATUS_LOCKED = true → s.drainHeld = false →
    ∃ t, exec (.samplingEdge inp noise) s = .next t ∧ t.run.scyc = s.run.scyc + 1 ∧
      t.run.next = (if s.run.running then s.run.next + 1 else s.run.next) ∧
      Keeps [.regs, .run, .path, .trg, .strs, .mem, .cal, .dbg, .recq, .shadows, .setLog, .host, .mnt, .obs, .upd, .freeCtr] s t ∧
      (s.applySt ≠ 2 → Keeps [.regs, .run, .path, .trg, .strs, .mem, .cal, .dbg, .recq] s t) ∧
      (s.run.running = false → s.applySt ≠ 2 → Keeps [.regs, .run, .path, .recq, .dbg] s t))

/-- What the sample path computes at an edge labelled `m` that no halt freezes and no landing meets. With neutral factors and selector 0
the RAW word is the code of R82, rounded away and clamped, with the user's offset and gain (R129), rounded to even and saturated; with
the spike filter in BYPASS the CLEAN word is the RAW word 35 labels back (R132). A continuous stream whose point a word leaves now
produces one instant with a sample of every source: the word at the tap (R280), the chain output (R165) or the beam (R181). A chain in
bypass gives the ALIGNED word scaled and requantised (R156, R164), and a beam of one channel its weighted sum, shifted (R180, R181). -/
def Obligations.SamplePathValues : Prop :=
  (∀ (inp noise : List Int) (s : State) (c m : Nat) (code : Int), s.bit F.AFE_PLL_STATUS_LOCKED = true → s.halted = false →
    s.applySt ≠ 2 → m = s.run.next → c < 256 → c < s.path.chans.length → s.quadOn (c / 64) = true →
    s.getF (F.AFE_SEL_SEL c) = 0 → s.calDrives = false → s.corrNow c = (0, 65536) →
    code = max (-8192) (min 8191 (roundAway (inp.getD c 0 + noise.getD (s.feeder c) 0) 65536)) →
    ∃ t, exec (.samplingEdge inp noise) s = .next t ∧
      (t.chanPath c).raw = (satW 16 (convround ((4 * code * 65536 + s.getI (F.CND_USER_OFF_OFFSET c) * 65536) *
        (s.getF (F.CND_USER_GAIN_GAIN c) : Nat)) 31) :: (s.chanPath c).raw).take 128 ∧
      (35 ≤ (s.chanPath c).past → getBits (s.rdAt (m - 35) (R.CND_SPK_CTRL c)) 0 2 = 0 →
        (t.chanPath c).clean = ((t.chanPath c).raw.getD 35 0 :: (s.chanPath c).clean).take 4160)) ∧
  (∀ (inp noise : List Int) (s : State) (i m n : Nat), s.bit F.AFE_PLL_STATUS_LOCKED = true → s.halted = false → s.applySt ≠ 2 →
    m = s.run.next → s.run.running = true → s.pastReform m = false → i < 64 → i < s.strs.length → s.strCont i = true →
    (s.str i).active = true → (s.str i).ending = none → s.strExists i = true → s.strLat i ≤ m → n = m - s.strLat i →
    s.produced n = true → n % max 1 (s.strD i) = 0 →
    ∃ (t : State) (vals : List SrcVal), exec (.samplingEdge inp noise) s = .next t ∧ vals.length = (s.strSrc i).length ∧
      (t.str i).insts = (s.str i).insts ++ [⟨n, vals⟩] ∧ (t.str i).produced = (s.str i).produced + vals.length ∧
      (t.str i).declared = (s.str i).declared + (vals.filter SrcVal.isDecl).length ∧
      (t.str i).delivered = (s.str i).delivered ∧ (t.str i).lastSn = some n ∧
      (∀ k j : Nat, (s.strSrc i)[k]? = some j →
        (s.strKind i = 1 → t.tapOk (s.getF (F.STR_DEF_TAP i)) j n = true →
          ∃ sp, vals[k]? = some (SrcVal.val [t.tapWord (s.getF (F.STR_DEF_TAP i)) j m n] sp)) ∧
        (s.strKind i = 1 → t.tapOk (s.getF (F.STR_DEF_TAP i)) j n = false → ∃ sp, vals[k]? = some (SrcVal.decl causeHalt sp)) ∧
        (s.strKind i = 2 → (t.chanPath j).withheld n = none → ∃ sp, vals[k]? = some (SrcVal.val (t.chainVal j m n) sp)) ∧
        (s.strKind i = 3 → t.beamCause j n = none → ∃ sp, vals[k]? = some (SrcVal.val ((t.beamAt j m n).map (satW 16)) sp)))) ∧
  (∀ (s : State) (c m n a : Nat) (w : Word), w = s.cfgAt c n → w.getLsbD 0 = false → getBits w 1 2 = 0 → cfgT w = 0 →
    (s.chanPath c).withheld n = none → (s.chanPath c).clearAt n = some a →
    s.chainVal c m n =
      [satW (cfgW w) (convround (satW 24 (256 * (s.chanPath c).aligned.getD (m - n - 51) 0)) (getBits (s.shAt c n) 20 5))]) ∧
  (∀ (s : State) (b m n c k : Nat) (w : Word), k = s.getFAt n F.BMF_BANK_SEL_SEL → s.contributors b n = [c] →
    w = s.rdAt n (R.BMF_W b k c) →
    s.beamAt b m n =
      [convround ((s.chainVal c m n).getD 0 0 * toSigned 16 (getBits w 0 16) - (s.chainVal c m n).getD 1 0 * toSigned 16 (getBits w 16 16))
          (s.getFAt n (F.BMF_SHIFT_SH b k)),
        convround ((s.chainVal c m n).getD 0 0 * toSigned 16 (getBits w 16 16) + (s.chainVal c m n).getD 1 0 * toSigned 16 (getBits w 0 16))
          (s.getFAt n (F.BMF_SHIFT_SH b k))])


/-! ### Calibration -/

/-- CALRUN, CALRUN_COMMIT, CAL_DONE, CAL_ABORT, CALSAVE_SUBMIT and CALSAVE_COMMIT (R104-R107, R114): CALRUN is accepted only in
IDLE with no calibration running and the PLL locked; its commit gives every converter that passes new factors; it ends
with its record; an abort is late after the commit; a save writes its snapshot to the half it chose, or fails with
SAVE_ERR after two attempts. -/
def Obligations.ForegroundCalibration : Prop :=
  (∀ (id : Ident) (s : State), s.goes id R.CAL_CTRL →
    ∃ t, exec (.calrun id) s = .next t ∧ Keeps [.regs, .cal, .mnt, .dbg] s t ∧
      ((s.runSt = 0 ∧ s.bit F.CAL_STATUS_BUSY = false ∧ s.bit F.AFE_PLL_STATUS_LOCKED = true) →
        t.cal.fg = 1 ∧ t.bit F.CAL_STATUS_BUSY = true ∧ ∃ a ∈ t.mnt.running ++ t.mnt.waiting, a.a = actFgcal) ∧
      (¬ (s.runSt = 0 ∧ s.bit F.CAL_STATUS_BUSY = false ∧ s.bit F.AFE_PLL_STATUS_LOCKED = true) →
        Keeps [.regs, .dbg] s t ∧ RegsKept [R.CAL_STATUS] s t ∧ t.bit F.CAL_STATUS_CALRUN_REFUSED = true ∧
        t.bit F.CAL_STATUS_BUSY = s.bit F.CAL_STATUS_BUSY)) ∧
  (∀ (outcomes : List Nat) (s : State), s.cal.fg = 1 → s.runs actFgcal 0 = true →
    ∃ t, exec (.calrunCommit outcomes) s = .next t ∧ Keeps [.regs, .cal, .recq, .host, .obs, .upd, .freeCtr] s t ∧
      t.cal.fg = 2 ∧ t.cal.done.length = 6 ∧
      (s.cal.facs.length = 544 → ∀ k, k < 272 → s.quadOn (convQuad k) = true → convFailed outcomes k = false →
        (t.fac s.lowPwr k).isSome = true)) ∧
  (∀ (outcomes : List Nat) (s : State), (s.cal.fg ≠ 1 ∨ s.runs actFgcal 0 = false) →
    exec (.calrunCommit outcomes) s = .next s) ∧
  (∀ s : State, (s.cal.fg = 2 ∨ s.cal.fg = 3) →
    ∃ t, exec .calDone s = .next t ∧ Keeps [.regs, .recq, .cal, .mnt, .pwr] s t ∧ RegsKept [R.CAL_STATUS] s t ∧
      t.bit F.CAL_STATUS_BUSY = false ∧ t.recq = s.recq ++ [⟨0, 0x0801, s.cal.done, s.tick⟩] ∧ t.cal = { s.cal with fg := 0, done := [] } ∧
      t.mnt.running = dropAct actFgcal 0 s.mnt.running) ∧
  (∀ (id : Ident) (s : State), s.goes id R.CAL_CTRL →
    ∃ t, exec (.calAbort id) s = .next t ∧ Keeps [.regs, .cal, .mnt, .pwr, .dbg] s t ∧
      (s.cal.fg = 1 → t.cal.fg = 3 ∧ t.bit F.CAL_STATUS_ABORTED = true) ∧
      (s.cal.fg = 2 → t.cal = s.cal ∧ t.mnt = s.mnt ∧ t.bit F.CAL_STATUS_ABORT_LATE = true ∧
        t.getF F.MNT_LATE_COUNT = (s.getF F.MNT_LATE_COUNT + 1) % 2 ^ 32) ∧
      (s.cal.fg ≠ 1 → s.cal.fg ≠ 2 → Keeps [.dbg] s t)) ∧
  (∀ (id : Ident) (s : State), s.goes id R.CAL_CTRL →
    ∃ t, exec (.calsaveSubmit id) s = .next t ∧ Keeps [.regs, .cal, .mnt, .flash, .dbg] s t ∧
      ∃ a ∈ t.mnt.running ++ t.mnt.waiting, a.a = actCalsave) ∧
  (∀ (failures : Nat) (s : State) (x : CalHalf), s.runs actCalsave 0 = true → s.cal.snap = some x →
    ∃ t, exec (.calsaveCommit failures) s = .next t ∧
      Keeps [.regs, .cal, .mnt, .flash, .pwr, .recq, .host, .obs, .upd] s t ∧ t.cal = { s.cal with snap := none } ∧
      t.bit F.CAL_STATUS_SAVE_BUSY = false ∧ t.mnt.running = dropAct actCalsave 0 s.mnt.running ∧
      (2 ≤ failures → t.bit F.CAL_STATUS_SAVE_ERR = true ∧ t.flash = s.flash) ∧
      (failures < 2 → s.flash.cals.length = 2 → t.calHalf s.calTarget = x))

/-- SWEEP_START, CAL_HANDOVER, CALIBRATE_END, CAL_HANDBACK, GLIDE_END and SPARE_CALIBRATION_END (R117-R122), for group g: the
phases SHADOW 1, CALIBRATE 2, RETURN 3, GLIDE 4 and spare 5 follow one another; a phase whose check fails is repeated once;
a second failure takes the spare (SHADOW, spare) or the channel (CALIBRATE) out. A sweep that is due while domain CAL is below ON wakes it (R374). -/
def Obligations.BackgroundCalibration : Prop :=
  (∀ (g : Fin 16) (s : State), s.bgOn g = true → (s.grp g).sweepAt ≤ s.tick → s.domOn 13 = false →
    ∃ t, exec (.sweepStart g) s = .next t ∧ Keeps [.regs, .pwr, .obs] s t ∧ (13 ∈ t.pwr.waking ∨ t.domState 13 = 2)) ∧
  (∀ (g : Fin 16) (s : State), s.bgOn g = true → (s.grp g).sweepAt ≤ s.tick → s.domOn 13 = true → s.cal.groups.length = 16 →
    ∃ t, exec (.sweepStart g) s = .next t ∧ Keeps [.regs, .cal, .mnt] s t ∧
      (s.getF (F.CAL_GROUP_STATE_PHASE g) = 0 → t.getF (F.CAL_GROUP_STATE_POS g) = 0 ∧
        (t.grp g).sweepAt = s.tick + 500000 * s.getF F.CAL_BG_INTERVAL_INTERVAL_MS ∧
        (s.pauser actBgcal = false → t.getF (F.CAL_GROUP_STATE_PHASE g) = 1)) ∧
      (s.getF (F.CAL_GROUP_STATE_PHASE g) ≠ 0 → Keeps [.regs] s t ∧ RegsKept [R.CAL_GROUP_STATE g] s t ∧
        (s.getF F.CAL_BG_INTERVAL_INTERVAL_MS ≠ 0 → t.bit (F.CAL_GROUP_STATE_OVERRUN g) = true))) ∧
  (∀ (g : Fin 16) (ok : Bool) (s : State), s.bgOver g 1 = true → s.cal.groups.length = 16 →
    ∃ t, exec (.calHandover g ok) s = .next t ∧
      Keeps [.regs, .cal, .mnt, .pwr, .recq, .host, .obs, .upd, .freeCtr] s t ∧
      (ok = true → (s.grp g).notB4 ≤ s.run.scyc → t.getF (F.CAL_GROUP_STATE_PHASE g) = 2 ∧
        t.servesNow g (s.getF (F.CAL_GROUP_STATE_POS g)) = true ∧
        t.rd64 (R.CAL_GROUP_SN_LO g) (R.CAL_GROUP_SN_HI g) = s.snOr1 s.firstSn % 2 ^ 64 ∧
        ⟨0, 0x0804, psn (s.snOr1 s.firstSn), s.tick⟩ ∈ t.recq) ∧
      (ok = false → (s.grp g).second = false → Keeps [.cal] s t ∧ (t.grp g).second = true ∧ (t.grp g).from0 = s.run.scyc) ∧
      (ok = false → (s.grp g).second = true → t.bit (F.CAL_GROUP_STATE_SPARE_FAULT g) = true ∧
        t.getF (F.CAL_GROUP_STATE_PHASE g) = 6 ∧ t.mnt.running = dropAct actBgcal g s.mnt.running)) ∧
  (∀ (g : Fin 16) (o w k : Bool) (s : State), s.bgOver g 2 = true → s.cal.groups.length = 16 →
    ∃ t, exec (.calibrateEnd g o w k) s = .next t ∧
      Keeps [.regs, .cal, .mnt, .pwr, .recq, .host, .obs, .upd, .freeCtr] s t ∧
      ((o && w && k) = true → (s.grp g).pausing = false → t.getF (F.CAL_GROUP_STATE_PHASE g) = 3 ∧ t.mnt = s.mnt ∧
        (s.cal.facs.length = 544 → (t.fac s.lowPwr (16 * g + s.getF (F.CAL_GROUP_STATE_POS g))).isSome = true)) ∧
      ((o && w && k) = false → (s.grp g).second = false → Keeps [.cal] s t ∧ (t.grp g).second = true) ∧
      ((o && w && k) = false → (s.grp g).second = true → t.bit (F.CAL_GROUP_STATE_ADOPTED g) = true ∧
        t.getF (F.CAL_GROUP_STATE_ADOPT_POS g) = s.getF (F.CAL_GROUP_STATE_POS g) ∧
        t.getF (F.CAL_GROUP_STATE_PHASE g) = 6 ∧
        t.bit (F.CAL_RESULT_LASTING (16 * g + s.getF (F.CAL_GROUP_STATE_POS g))) = true)) ∧
  (∀ (g : Fin 16) (s : State), s.bgOver g 3 = true → (s.grp g).notB4 ≤ s.run.scyc → s.cal.groups.length = 16 →
    ∃ t, exec (.calHandback g) s = .next t ∧ Keeps [.regs, .cal, .recq, .freeCtr] s t ∧
      RegsKept [R.CAL_GROUP_STATE g, R.CAL_GROUP_SN_LO g, R.CAL_GROUP_SN_HI g] s t ∧
      t.getF (F.CAL_GROUP_STATE_PHASE g) = 4 ∧ t.servesNow g (s.getF (F.CAL_GROUP_STATE_POS g)) = false ∧
      t.recq = s.recq ++ [⟨0, 0x0805, psn (s.snOr1 s.firstSn), s.tick⟩] ∧
      (t.grp g).len = 2 ^ s.getF F.CAL_BG_CTRL_GLIDE) ∧
  (∀ (g : Fin 16) (s : State), s.bgOver g 4 = true → s.pauser actBgcal = false →
    ∃ t, exec (.glideEnd g) s = .next t ∧ Keeps [.regs, .cal, .mnt, .pwr] s t ∧
      (s.bgOn g = false → t.getF (F.CAL_GROUP_STATE_PHASE g) = 0) ∧
      (s.bgOn g = true → s.getF (F.CAL_GROUP_STATE_POS g) < 15 → t.getF (F.CAL_GROUP_STATE_PHASE g) = 1 ∧
        t.getF (F.CAL_GROUP_STATE_POS g) = s.getF (F.CAL_GROUP_STATE_POS g) + 1) ∧
      (s.bgOn g = true → s.getF (F.CAL_GROUP_STATE_POS g) = 15 → t.getF (F.CAL_GROUP_STATE_PHASE g) = 5)) ∧
  (∀ (g : Fin 16) (ok : Bool) (s : State), s.bgOver g 5 = true → s.cal.groups.length = 16 →
    ∃ t, exec (.spareCalibrationEnd g ok) s = .next t ∧
      Keeps [.regs, .cal, .mnt, .pwr, .recq, .host, .obs, .upd, .freeCtr] s t ∧
      (ok = true → t.getF (F.CAL_GROUP_STATE_PHASE g) = 0 ∧ t.mnt.running = dropAct actBgcal g s.mnt.running ∧
        t.getF (F.CAL_GROUP_SWEEPS_SWEEPS g) = (s.getF (F.CAL_GROUP_SWEEPS_SWEEPS g) + 1) % 2 ^ 32) ∧
      (ok = false → (s.grp g).second = false → Keeps [.cal] s t ∧ (t.grp g).second = true) ∧
      (ok = false → (s.grp g).second = true → t.bit (F.CAL_GROUP_STATE_SPARE_FAULT g) = true)) ∧
  (∀ (g : Fin 16) (ok a b c : Bool) (s : State) (ph : Nat), s.getF (F.CAL_GROUP_STATE_PHASE g) = ph →
    (ph ≠ 1 → exec (.calHandover g ok) s = .next s) ∧ (ph ≠ 2 → exec (.calibrateEnd g a b c) s = .next s) ∧
    (ph ≠ 3 → exec (.calHandback g) s = .next s) ∧ (ph ≠ 4 → exec (.glideEnd g) s = .next s) ∧
    (ph ≠ 5 → exec (.spareCalibrationEnd g ok) s = .next s))

/-- ACTIVITY_ADMIT and ACTIVITY_RESUME (R409, R410, R412): an activity that conflicts with a running one goes on waiting; one
that conflicts with none is admitted, in queue order; a paused scrub pass or calibration goes on once nothing pauses it. -/
def Obligations.ActivitiesMove : Prop :=
  (∀ s : State, (∀ x ∈ s.mnt.waiting, x.blocked s.mnt.running = true) → exec .activityAdmit s = .next s) ∧
  (∀ (s : State) (x : Activity) (w : List Activity), s.mnt.waiting = x :: w → x.blocked s.mnt.running = false →
    ∃ t, exec .activityAdmit s = .next t ∧ Keeps [.regs, .mnt, .cal, .dbg, .flash, .pwr, .reform, .recq, .host, .obs, .upd] s t ∧
      (∃ y ∈ t.mnt.running, y.a = x.a ∧ y.unit = x.unit) ∧ t.mnt.waiting.Sublist w) ∧
  (∀ (s : State) (y : Activity), s.mnt.running = [y] → y.a = actScrub → y.unit = 0 → y.paused = true →
    ∃ t, exec .activityResume s = .next t ∧ Keeps [.regs, .mnt] s t ∧ RegsKept [R.MEM_SCRUB_STATUS] s t ∧
      t.bit F.MEM_SCRUB_STATUS_PAUSED = false ∧ t.mnt = { s.mnt with running := [{ y with paused := false }] }) ∧
  (∀ (s : State) (y : Activity) (g : Fin 16), s.mnt.running = [y] → y.a = actBgcal → y.unit = g → y.paused = true →
    s.quadOn (g / 4) = true → s.getF (F.CAL_GROUP_STATE_PHASE g) = 7 → (s.grp g).same = true →
    ∃ t, exec .activityResume s = .next t ∧ Keeps [.regs, .cal, .mnt] s t ∧ RegsKept [R.CAL_GROUP_STATE g] s t ∧
      t.getF (F.CAL_GROUP_STATE_PHASE g) = 1 ∧ t.mnt = { s.mnt with running := [{ y with paused := false }] }) ∧
  (∀ s : State, (∀ y ∈ s.mnt.running, y.paused = false) → exec .activityResume s = .next s)


/-! ### Landings, banks and the timed apply -/

/-- DELAY_NOW, TRG_APPLY_NOW, BANK_COPY, COPY_END, SETTLE_END and ALIGN_TERM_UPDATE (R145, R206, R183, R172, R148): an immediate
landing of values within their limits takes exactly the flagged registers of its channel or block, at the first SN after it
or outside a run, waits for a resume, or is discarded where a re-form comes first; one of the TRG block that fails its checks is
refused (no value of a delay register lies outside its limits); a copy refused or begun, and done; the settling flag clears when its end has come; the mean phase residual takes effect 2^15 labels
after its anchor. -/
def Obligations.LandingsAndCopies : Prop :=
  (∀ (id : Ident) (c : Fin 256) (s : State), s.goes id (R.CND_DELAY_NOW c) →
    s.shadows.any (fun e => (delayOffs c).contains e.1 && !limitsOk e.1 e.2) = false →
    ∃ t, exec (.delayNow id c) s = .next t ∧ Keeps [.regs, .shadows, .setLog, .recq, .path, .cal, .trg, .host, .mnt, .dbg, .obs] s t ∧
      (s.nowPast = true → Keeps [.regs, .shadows, .recq, .dbg] s t ∧ RegsKept [R.IMG_REFORM_STATUS] s t ∧
        t.bit F.IMG_REFORM_STATUS_APPLY_DISCARDED = true ∧ t.recq = s.recq ++ [⟨0, 0x0702, psn s.firstSn, s.tick⟩] ∧
        t.shadows = s.shadows.filter (fun e => !(delayOffs c).contains e.1)) ∧
      (s.nowPast = false → s.halted = true → s.nowSn.isSome = true → Keeps [.host, .dbg] s t ∧ c.val ∈ t.host.nowPend) ∧
      (s.nowPast = false → (s.halted && s.nowSn.isSome) = false → t.bit (F.CND_STATUS_IMMED_DONE c) = true ∧
        t.shadows = s.shadows.filter (fun e => !(delayOffs c).contains e.1) ∧
        t.rd64 (R.CND_LOAD_SN_LO c) (R.CND_LOAD_SN_HI c) = s.nowSn.getD allOnes64 % 2 ^ 64 ∧
        ∀ e, s.shadows.filter (fun x => (delayOffs c).contains x.1) = [e] → t.rd e.1 = e.2)) ∧
  (∀ (id : Ident) (s : State), s.goes id R.TRG_APPLY_NOW →
    ∃ t, exec (.trgApplyNow id) s = .next t ∧ Keeps [.regs, .shadows, .setLog, .recq, .path, .cal, .trg, .host, .mnt, .dbg, .obs] s t ∧
      ((s.checkSet true).isSome = true → Keeps [.regs, .dbg] s t ∧ RegsKept [R.TRG_STATUS] s t ∧
        t.bit F.TRG_STATUS_IMMED_REFUSED = true) ∧
      (s.checkSet true = none → s.nowPast = true → Keeps [.regs, .shadows, .recq, .dbg] s t ∧
        RegsKept [R.IMG_REFORM_STATUS] s t ∧ t.bit F.IMG_REFORM_STATUS_APPLY_DISCARDED = true ∧
        t.recq = s.recq ++ [⟨0, 0x0702, psn s.firstSn, s.tick⟩] ∧ t.shadows = s.shadows.filter (fun e => !inTrg e.1)) ∧
      (s.checkSet true = none → s.nowPast = false → s.halted = true → s.nowSn.isSome = true →
        Keeps [.host, .dbg] s t ∧ 256 ∈ t.host.nowPend) ∧
      (s.checkSet true = none → s.nowPast = false → (s.halted && s.nowSn.isSome) = false → t.bit F.TRG_STATUS_IMMED_DONE = true ∧
        t.shadows = s.shadows.filter (fun e => !inTrg e.1) ∧
        t.rd64 R.TRG_LOAD_SN_LO R.TRG_LOAD_SN_HI = s.nowSn.getD allOnes64 % 2 ^ 64)) ∧
  (∀ (id : Ident) (s : State), s.goes id R.BMF_BANK_CTRL →
    ∃ t, exec (.bankCopy id) s = .next t ∧ Keeps [.regs, .dbg] s t ∧ RegsKept [R.BMF_STATUS] s t ∧
      ((s.bit F.BMF_STATUS_TARGET_LOCK = true ∨ s.bit F.BMF_STATUS_COPY_BUSY = true) →
        t.bit F.BMF_STATUS_COPY_REFUSED = true ∧ t.bit F.BMF_STATUS_COPY_BUSY = s.bit F.BMF_STATUS_COPY_BUSY) ∧
      (s.bit F.BMF_STATUS_TARGET_LOCK = false → s.bit F.BMF_STATUS_COPY_BUSY = false → t.bit F.BMF_STATUS_COPY_BUSY = true)) ∧
  (∀ (s : State) (b : Nat), s.bit F.BMF_STATUS_COPY_BUSY = true → s.getF F.BMF_BANK_SEL_SEL = b →
    ∃ t, exec .copyEnd s = .next t ∧ Keeps [.regs, .setLog] s t ∧ t.bit F.BMF_STATUS_COPY_BUSY = false ∧
      ∀ m, m < 16 → t.rd (R.BMF_SHIFT m (1 - b)) = s.rd (R.BMF_SHIFT m b) ∧
        ∀ c, c < 256 → t.rd (R.BMF_W m (1 - b) c) = s.rd (R.BMF_W m b c)) ∧
  (∀ s : State, s.bit F.BMF_STATUS_COPY_BUSY = false → exec .copyEnd s = .next s) ∧
  (∀ (c : Fin 256) (s : State), s.bit (F.FIR_STATUS_SETTLING c) = true →
    s.rd64 (R.FIR_SETTLE_END_LO c) (R.FIR_SETTLE_END_HI c) ≤ s.label →
    ∃ t, exec (.settleEnd c) s = .next t ∧ Keeps [.regs] s t ∧ RegsKept [R.FIR_STATUS c] s t ∧
      t.bit (F.FIR_STATUS_SETTLING c) = false) ∧
  (∀ (s : State) (a : Anchor) (l : List Anchor), s.time.anchors = a :: l → s.run.running = true → 0 < a.sn →
    a.sn + 32768 ≤ s.run.next → (∀ e ∈ s.path.align, e.1 ≠ a.sn + 32768) →
    ∃ t, exec .alignTermUpdate s = .next t ∧ Keeps [.path] s t ∧
      t.path.align = ((a.sn + 32768, meanOf (s.getFAt a.sn F.CND_ALIGN_CTRL_AVG) s.path.phases) :: s.path.align).take 4)

/-- APPLY_ARM, APPLY_CHECK_DONE, APPLY_LANDING and APPLY_DISARM (R345-R347), by STATE 0 IDLE, 1 CHECKING, 2 ARMED: a set that
fails its check is refused with the lowest failing offset and keeps its flags; one that passes lands at once outside a
run, or at its SN, which moves to the first SN if that has been reached and to the resume where a halt covers it, and never at
or after SN_r or past S_stop; DISARM is late once it has landed. An ARM waits for earlier writes of its identity. -/
def Obligations.TimedApply : Prop :=
  (∀ (id : Ident) (s : State), s.goes id R.HIF_APPLY_CTRL → (∃ h ∈ s.pwr.held ++ s.pwr.behind, h.ident = id ∧ h.isWrite = true) →
    ∃ t, exec (.applyArm id) s = .next t ∧ Keeps [.pwr] s t ∧
      t.pwr = { s.pwr with behind := s.pwr.behind ++ [⟨id, R.HIF_APPLY_CTRL, 1#32, .write, s.fencing id⟩] }) ∧
  (∀ (id : Ident) (s : State), s.goes id R.HIF_APPLY_CTRL → (∀ h ∈ s.pwr.held ++ s.pwr.behind, h.ident ≠ id) →
    ∃ t, exec (.applyArm id) s = .next t ∧ Keeps [.regs, .host, .dbg] s t ∧
      (s.applySt ≠ 0 → t.host = s.host ∧ RegsKept [R.HIF_APPLY_STATUS] s t ∧ t.applySt = s.applySt ∧
        t.bit F.HIF_APPLY_STATUS_ARM_BUSY = true) ∧
      (s.applySt = 0 → t.applySt = 1 ∧ t.host.applySn = s.rd64 R.HIF_TIMED_APPLY_LO R.HIF_TIMED_APPLY_HI ∧
        t.host.landAt = none)) ∧
  (∀ (s : State) (off : Nat), s.applySt = 1 → s.checkSet false = some off →
    ∃ t, exec .applyCheckDone s = .next t ∧ Keeps [.regs, .host, .recq, .setLog, .upd, .freeCtr] s t ∧ t.applySt = 0 ∧
      t.bit F.HIF_APPLY_STATUS_REFUSED = true ∧ t.getF F.IMG_APPLY_REFUSE_OFFSET = off % 2 ^ 23 ∧
      ⟨0, 0x0E02, pw off, s.tick⟩ ∈ t.recq) ∧
  (∀ (s : State) (n : Nat), s.applySt = 1 → s.checkSet false = none → s.host.ended = none → s.host.applySn = n →
    ∃ t, exec .applyCheckDone s = .next t ∧
      (s.runSt = 3 → Keeps [.regs, .host] s t ∧ RegsKept [R.HIF_APPLY_STATUS] s t ∧ t.applySt = 2 ∧
        t.host.landAt = some (if s.notReached n then n else s.firstSn) ∧
        (s.notReached n = false → t.bit F.HIF_APPLY_STATUS_LATE = true)) ∧
      (s.runSt = 2 → Keeps [.regs, .host] s t ∧ RegsKept [R.HIF_APPLY_STATUS] s t ∧ t.applySt = 2 ∧
        t.host.landAt = some n) ∧
      (s.runSt ≤ 1 → (∀ e ∈ s.shadows, e.1 ≠ R.HIF_APPLY_STATUS) → t.applySt = 0 ∧ t.shadows = [] ∧
        t.rd64 R.HIF_APPLY_LANDED_LO R.HIF_APPLY_LANDED_HI = 2 ^ 64 - 1)) ∧
  (∀ s : State, s.applySt ≠ 1 → exec .applyCheckDone s = .next s) ∧
  (∀ (s : State) (a n : Nat), s.applySt = 2 → s.runSt = 3 → s.host.landAt = some a →
    (s.spanOf a = none ∧ n = a ∨ ∃ h, s.spanOf a = some (h, some n)) → n ≤ s.run.next →
    (∀ r, s.reform.snr = some r → n < r) → (∀ z, s.run.stopAt = some z → n ≤ z) →
    ∃ t, exec .applyLanding s = .next t ∧
      Keeps [.regs, .shadows, .setLog, .recq, .path, .cal, .trg, .host, .upd, .mnt, .obs, .freeCtr] s t ∧
      t.shadows = [] ∧ t.rd64 R.HIF_APPLY_LANDED_LO R.HIF_APPLY_LANDED_HI = n % 2 ^ 64 ∧
      ((∀ e ∈ s.shadows, e.1 ≠ R.HIF_APPLY_STATUS) → t.applySt = 0)) ∧
  (∀ (s : State) (a r : Nat), (s.applySt ≠ 2 ∨ s.runSt ≠ 3 ∨ (s.host.landAt = some a ∧ s.spanOf a = none ∧
    (s.run.next < a ∨ (s.reform.snr = some r ∧ r ≤ a) ∨ (s.run.stopAt = some r ∧ r < a)))) → exec .applyLanding s = .next s) ∧
  (∀ (id : Ident) (s : State), s.goes id R.HIF_APPLY_CTRL →
    ∃ t, exec (.applyDisarm id) s = .next t ∧ Keeps [.regs, .host, .setLog, .upd, .dbg, .freeCtr] s t ∧
      (s.applySt = 1 → t.applySt = 0) ∧ (s.applySt = 0 → Keeps [.dbg] s t) ∧
      (∀ a, s.applySt = 2 → s.host.landAt = some a → (s.runSt ≠ 3 ∨ s.run.next ≤ a) → t.applySt = 0) ∧
      (∀ a, s.applySt = 2 → s.host.landAt = some a → s.runSt = 3 → a < s.run.next →
        t.applySt = 2 ∧ t.host = s.host ∧ t.bit F.HIF_APPLY_STATUS_DISARM_LATE = true ∧
        t.getF F.MNT_LATE_COUNT = (s.getF F.MNT_LATE_COUNT + 1) % 2 ^ 32))

/-! ### Triggers -/

/-- TRIGIN_EDGE, TRG_FORCE, TRIGGER_DECISION, PREFILL_END, HOLDOFF_END, TRIGOUT_LEADING_EDGE and TRIGOUT_PULSE_END (R190-R196,
R203): an enabled edge is counted, or missed within 8 ticks of the last; a forced trigger waits for its decision; a
decided HOST trigger fires its condition, or is suppressed while it prefills or holds off; a condition becomes READY when
its prefill or its hold-off is over; the outputs pulse at sampling edges counted
from cold reset, and merge what overlaps; a disabled output starts no pulse, and one that the hub has not made READY or whose ball
EXTEST drives shows no edge. -/
def Obligations.TriggersFire : Prop :=
  (∀ (n : Fin 4) (rise : Bool) (f : Nat) (s : State) (near : Bool), s.bit (F.TRG_TI_CTRL_EN n) = true →
    edgeSel (s.getF (F.TRG_TI_CTRL_EDGE n)) rise = true →
    near = (match s.trg.tiLast.getD n none with | some k => decide (s.tick < k + 8) | none => false) →
    ∃ t, exec (.triginEdge n rise f) s = .next t ∧ Keeps [.regs, .trg] s t ∧
      RegsKept [R.TRG_TI_COUNT n, R.TRG_TI_MISSED n] s t ∧
      (near = true → t.trg = s.trg ∧
        t.getF (F.TRG_TI_MISSED_COUNT n) = (s.getF (F.TRG_TI_MISSED_COUNT n) + 1) % 2 ^ 32) ∧
      (near = false → s.trg.tiLast.length = 4 → t.trg.tiLast.getD n none = some s.tick ∧
        t.getF (F.TRG_TI_COUNT_COUNT n) = (s.getF (F.TRG_TI_COUNT_COUNT n) + 1) % 2 ^ 32 ∧
        ((s.inRun = true ∨ s.draining = true) → t.trg.met.length = s.trg.met.length + 1))) ∧
  (∀ (n : Fin 4) (rise : Bool) (f : Nat) (s : State), (s.bit (F.TRG_TI_CTRL_EN n) = false ∨
    edgeSel (s.getF (F.TRG_TI_CTRL_EDGE n)) rise = false) → exec (.triginEdge n rise f) s = .next s) ∧
  (∀ (id : Ident) (n : Fin 8) (s : State), s.goes id (R.TRG_TC_FORCE n) →
    ∃ t, exec (.trgForce id n) s = .next t ∧ Keeps [.regs, .trg, .dbg] s t ∧ RegsKept [R.TRG_STATUS] s t ∧
      (s.getF (F.TRG_TC_CTRL_SRC n) ≠ 4 → t.trg = s.trg ∧ t.bit F.TRG_STATUS_FORCE_IGN = true) ∧
      (s.getF (F.TRG_TC_CTRL_SRC n) = 4 → (s.runSt = 3 ∨ s.draining = true) → 115 ≤ s.label →
        t.trg = { s.trg with met := s.trg.met ++ [⟨4, n, s.label - 115, s.label, false⟩] })) ∧
  (∀ s : State, (s.run.running = false ∨ s.halted = true) → exec .triggerDecision s = .next s) ∧
  (∀ (s : State) (i : Fin 8) (n : Nat), s.run.running = true → s.halted = false →
    s.trg.met = [⟨4, i, n, n + 115, false⟩] → n + 115 ≤ s.label →
    s.coincNext s.trg.nextN (s.label + 1 - 115 - s.trg.nextN) = none → s.evaluated n = true →
    s.getFAt n (F.TRG_TC_CTRL_EN i) = 1 → s.getFAt n (F.TRG_TC_CTRL_SRC i) = 4 →
    (∀ k : Fin 8, s.rdAt n (R.TRG_PF_MASK i 0 + 4 * k) = 0#32) → s.trg.conds.length = 8 →
    ∃ t, exec .triggerDecision s = .next t ∧ Keeps [.regs, .trg, .strs, .mem, .dbg, .recq, .host, .obs, .upd] s t ∧
      t.trg.met = [] ∧
      (s.condBlocked i n = none →
        t.getF (F.TRG_TC_FIRED_COUNT i) = (s.getF (F.TRG_TC_FIRED_COUNT i) + 1) % 2 ^ 32 ∧
        t.rd64 (R.TRG_TC_LAST_LO i) (R.TRG_TC_LAST_HI i) = n % 2 ^ 64 ∧
        (s.getFAt n (F.TRG_TC_HOLD_HOLD i) ≠ 0 → s.offAfter i n = none → t.getF (F.TRG_TC_STATE_STATE i) = 3)) ∧
      (∀ cause, s.condBlocked i n = some cause →
        t.getF (F.TRG_TC_SUPP_COUNT i cause) = (s.getF (F.TRG_TC_SUPP_COUNT i cause) + 1) % 2 ^ 32 ∧
        t.getF (F.TRG_TC_FIRED_COUNT i) = s.getF (F.TRG_TC_FIRED_COUNT i))) ∧
  (∀ (n : Fin 8) (s : State) (r : Nat), s.trg.r0 = some r → s.run.running = true →
    s.getF (F.TRG_TC_STATE_STATE n) = 1 → r + s.getF (F.TRG_PF_PRE_P n) ≤ s.label →
    ∃ t, exec (.prefillEnd n) s = .next t ∧ Keeps [.regs] s t ∧ RegsKept [R.TRG_TC_STATE n] s t ∧
      ((∃ h ∈ (s.cond n).hold, s.label ≤ h.2) → t.getF (F.TRG_TC_STATE_STATE n) = 3) ∧
      ((∀ h ∈ (s.cond n).hold, h.2 < s.label) → (s.cond n).skip = 0 → t.getF (F.TRG_TC_STATE_STATE n) = 2)) ∧
  (∀ (n : Fin 8) (s : State), (s.cond n).hold ≠ [] → (∀ h ∈ (s.cond n).hold, h.2 < s.label) → (s.cond n).skip = 0 →
    s.getF (F.TRG_TC_STATE_STATE n) = 3 →
    ∃ t, exec (.holdoffEnd n) s = .next t ∧ Keeps [.regs] s t ∧ RegsKept [R.TRG_TC_STATE n] s t ∧
      t.getF (F.TRG_TC_STATE_STATE n) = 2) ∧
  (∀ (n : Fin 8) (s : State), s.getF (F.TRG_TC_STATE_STATE n) ≠ 1 → exec (.prefillEnd n) s = .next s) ∧
  (∀ (n : Fin 8) (s : State), s.getF (F.TRG_TC_STATE_STATE n) ≠ 3 → exec (.holdoffEnd n) s = .next s) ∧
  (∀ (n : Fin 4) (s : State) (l w : Nat) (rest : List (Nat × Nat)), s.trg.outs.length = 4 →
    (s.trg.outs.getD n TrigOut.reset).leads = (l, w) :: rest → l < s.run.scyc → s.bit (F.TRG_TO_CTRL_EN n) = true →
    ∃ t, exec (.trigoutLeadingEdge n) s = .next t ∧ Keeps [.regs, .trg, .obs] s t ∧
      RegsKept [R.TRG_TO_COUNT n, R.TRG_TO_MERGED n] s t ∧ (t.trg.outs.getD n TrigOut.reset).leads = rest ∧
      ((s.trg.outs.getD n TrigOut.reset).endAt = none → (t.trg.outs.getD n TrigOut.reset).endAt = some (l + w) ∧
        t.getF (F.TRG_TO_COUNT_COUNT n) = (s.getF (F.TRG_TO_COUNT_COUNT n) + 1) % 2 ^ 32 ∧
        (s.bit F.PWR_STATUS_READY = true → s.dbg.ir ≠ 0 → t.obs = .pin (.trigout n) (s.toLevel n true) l 0 :: s.obs)) ∧
      (∀ e, (s.trg.outs.getD n TrigOut.reset).endAt = some e → l < e →
        (t.trg.outs.getD n TrigOut.reset).endAt = some (max e (l + w)) ∧ t.obs = s.obs ∧
        t.getF (F.TRG_TO_MERGED_COUNT n) = (s.getF (F.TRG_TO_MERGED_COUNT n) + 1) % 2 ^ 32)) ∧
  (∀ (n : Fin 4) (s : State) (l w : Nat) (rest : List (Nat × Nat)), s.trg.outs.length = 4 →
    (s.trg.outs.getD n TrigOut.reset).leads = (l, w) :: rest →
    (s.run.scyc ≤ l → exec (.trigoutLeadingEdge n) s = .next s) ∧
    (l < s.run.scyc → s.bit (F.TRG_TO_CTRL_EN n) = false → (s.trg.outs.getD n TrigOut.reset).endAt = none →
      ∃ t, exec (.trigoutLeadingEdge n) s = .next t ∧ Keeps [.trg] s t ∧ (t.trg.outs.getD n TrigOut.reset).leads = rest)) ∧
  (∀ (n : Fin 4) (s : State) (e : Nat), s.trg.outs.length = 4 → (s.trg.outs.getD n TrigOut.reset).endAt = some e →
    e < s.run.scyc →
    ∃ t, exec (.trigoutPulseEnd n) s = .next t ∧ Keeps [.trg, .obs] s t ∧ (t.trg.outs.getD n TrigOut.reset).endAt = none ∧
      (s.bit (F.TRG_TO_CTRL_EN n) = true → s.bit F.PWR_STATUS_READY = true → s.dbg.ir ≠ 0 →
        t.obs = .pin (.trigout n) (s.toLevel n false) e 0 :: s.obs))


/-! ### Sample memory, frames, records and queues -/

/-- HOST_WINDOW_ACCESS, SCRUB_PASS_START, SCRUB_LINE_READ and SCRUB_PASS_END (R222-R225, R335, R340): the host window reads and
writes exactly the bytes named, a write those that are enabled, where the identity may and MEM is ON; a denied access counts and changes no byte; an offset
past BAR2 does not exist; a word of a sinter context that a job has used holds free values until it is written (R219, assumption log
19); a scrub pass begins, reads line after line without changing a byte, waiting while a pre-trigger copy runs, and ends. -/
def Obligations.MemoryWindowAndScrub : Prop :=
  (∀ (id : Ident) (off len : Nat) (data : Option (List (Option Byte))) (s : State), (memBytes ≤ off ∨
      memBytes < off + (match data with | none => len | some b => b.length)) →
    exec (.hostWindowAccess id off data len) s = .fault .outsideBar2) ∧
  (∀ (id : Ident) (off len : Nat) (s : State), 0 < len → off + len ≤ memBytes → s.domOn 9 = true →
    ∃ t, exec (.hostWindowAccess id off none len) s = .next t ∧
      Keeps [.regs, .recq, .mem, .host, .obs, .upd, .firsts] s t ∧ t.mem.cells = s.mem.cells ∧
      (s.windowMay id false off len = true → s.mem.faults = [] →
        Keeps [.obs] s t ∧ (∃ b, t.obs = .memRead id.num off b false :: s.obs ∧ b.length = len ∧
          ∀ k, k < len → b[k]? = (s.storedWord ((off + k) / 4 * 4))[(off + k) % 4]?) ∧
        ((∀ a, s.ctxAt a = none) → t.obs = .memRead id.num off (s.mem.bytes off len) false :: s.obs)) ∧
      (s.windowMay id false off len = false →
        Keeps [.regs, .recq, .obs, .firsts] s t ∧ RegsKept [R.MEM_DENY_COUNT, R.MEM_DENY_LAST] s t ∧
        t.getF F.MEM_DENY_COUNT_COUNT = (s.getF F.MEM_DENY_COUNT_COUNT + 1) % 2 ^ 32 ∧
        (s.firsts.contains R.MEM_DENY_COUNT = true → t.recq = s.recq) ∧
        (s.firsts.contains R.MEM_DENY_COUNT = false → ⟨id.num, 0x0502, pw (off % 2 ^ 27) ++ pb false ++ pw id.num, s.tick⟩ ∈ t.recq) ∧
        t.obs = .memRead id.num off (zeros len) false :: s.obs)) ∧
  (∀ (id : Ident) (off len : Nat) (b : List (Option Byte)) (s : State), 0 < b.length → off + b.length ≤ memBytes → s.domOn 9 = true →
    ∃ t, exec (.hostWindowAccess id off (some b) len) s = .next t ∧
      Keeps [.regs, .recq, .mem, .snt, .host, .obs, .upd, .firsts] s t ∧
      (s.windowMay id true off b.length = true → s.mem.faults = [] → s.bit F.MEM_INJECT_CTRL_ARM = false →
        Keeps [.mem, .snt] s t ∧
        (∀ a v, off ≤ a → b[a - off]? = some (some v) → (t.storedWord (a / 4 * 4))[a % 4]? = some v) ∧
        (∀ a, (a < off ∨ off + b.length ≤ a ∨ b[a - off]? = some none) →
          (t.storedWord (a / 4 * 4))[a % 4]? = (s.storedWord (a / 4 * 4))[a % 4]?) ∧
        ((∀ a, s.ctxAt a = none) → Keeps [.mem] s t ∧
          (∀ a v, off ≤ a → b[a - off]? = some (some v) → t.mem.byte a = v) ∧
          ∀ a, (a < off ∨ off + b.length ≤ a ∨ b[a - off]? = some none) → t.mem.byte a = s.mem.byte a)) ∧
      (s.windowMay id true off b.length = false →
        Keeps [.regs, .recq, .firsts] s t ∧ RegsKept [R.MEM_DENY_COUNT, R.MEM_DENY_LAST] s t ∧
        t.getF F.MEM_DENY_COUNT_COUNT = (s.getF F.MEM_DENY_COUNT_COUNT + 1) % 2 ^ 32)) ∧
  (∀ (id : Ident) (off len : Nat) (data : Option (List (Option Byte))) (s : State), s.domOn 9 = false →
    0 < (match data with | none => len | some b => b.length) →
    off + (match data with | none => len | some b => b.length) ≤ memBytes →
    ∃ t, exec (.hostWindowAccess id off data len) s = .next t ∧ Keeps [.regs, .obs] s t ∧ RegsKept [R.HIF_STATUS] s t ∧
      (data = none → t.bit F.HIF_STATUS_RD_OFF = true) ∧ (data ≠ none → t.bit F.HIF_STATUS_WR_OFF = true ∧ t.obs = s.obs)) ∧
  (∀ s : State, s.bit F.MEM_SCRUB_CTRL_EN = true → s.image.isSome = true →
    (s.mem.scrubOn = false ∨ s.mem.scrubFrom + 500000000 * s.getF F.MEM_SCRUB_CTRL_PERIOD_S ≤ s.tick) →
    ∃ t, exec .scrubPassStart s = .next t ∧ Keeps [.regs, .mem, .mnt] s t ∧ t.mem.cells = s.mem.cells ∧
      ((∃ a ∈ s.mnt.running ++ s.mnt.waiting, a.a = actScrub) →
        Keeps [.regs] s t ∧ RegsKept [R.MEM_SCRUB_STATUS] s t ∧ t.bit F.MEM_SCRUB_STATUS_PASS_LATE = true) ∧
      ((∀ a ∈ s.mnt.running ++ s.mnt.waiting, a.a ≠ actScrub) →
        t.mem.line = 0 ∧ t.mem.scrubFrom = s.tick ∧ t.bit F.MEM_SCRUB_STATUS_ACTIVE = true ∧ t.runs actScrub 0 = true)) ∧
  (∀ s : State, s.bit F.MEM_SCRUB_CTRL_EN = false → exec .scrubPassStart s = .next s) ∧
  (∀ s : State, s.runs actScrub 0 = true → s.bit F.MEM_SCRUB_STATUS_ACTIVE = true → s.bit F.MEM_SCRUB_STATUS_PAUSED = false →
    s.copying = false → s.mem.line < memLines →
    ∃ t, exec .scrubLineRead s = .next t ∧ Keeps [.regs, .recq, .mem, .mnt, .host, .obs, .upd] s t ∧
      t.mem.cells = s.mem.cells ∧
      (s.bit F.MEM_SCRUB_CTRL_EN = true → t.mem.line = s.mem.line + 1 ∧
        t.getF F.MEM_SCRUB_POS_LINE = (s.mem.line + 1) % 2 ^ 21 ∧ t.mnt = s.mnt) ∧
      (s.bit F.MEM_SCRUB_CTRL_EN = false → t.mem.scrubOn = false ∧ t.bit F.MEM_SCRUB_STATUS_ACTIVE = false ∧
        t.mnt.running = dropAct actScrub 0 s.mnt.running)) ∧
  (∀ s : State, s.copying = true → exec .scrubLineRead s = .next s) ∧
  (∀ s : State, s.runs actScrub 0 = true → s.bit F.MEM_SCRUB_STATUS_ACTIVE = true → memLines ≤ s.mem.line →
    ∃ t, exec .scrubPassEnd s = .next t ∧ Keeps [.regs, .mnt] s t ∧ RegsKept [R.MEM_SCRUB_PASSES, R.MEM_SCRUB_STATUS] s t ∧
      t.getF F.MEM_SCRUB_PASSES_COUNT = (s.getF F.MEM_SCRUB_PASSES_COUNT + 1) % 2 ^ 32 ∧
      t.bit F.MEM_SCRUB_STATUS_ACTIVE = false ∧ t.mnt.running = dropAct actScrub 0 s.mnt.running)

/-- FRAME_BUILD, FRAME_TRANSMIT and FRAME_DELIVERED (R281, R234, R238, R286), with the account of source-samples (R20, R22): a complete
head frame leaves its instants, and either a DATA packet with every sample of it that is not declared stands at the end of its stream's
queue, or those samples are declared; a delivered frame moves its samples from the queue to DELIVERED, and one that a lasting memory
error meets to DECLARED; none of them moves PRODUCED. So what is produced is delivered, declared or still waits. GAP
and MARK packets that are due go ahead of a packet; a port with its link up sends replies first and then the head
frame of the lowest class; a delivered DATA frame counts for its port, its stream and its sequence number. -/
def Obligations.FramesTravel : Prop :=
  (∀ (i : Fin 64) (s : State) (ok dc : Nat), s.strCont i = true → (s.str i).active = true → (s.headFrame i).2 = true →
    s.halted = false → s.fqs.length = 16 → s.strs.length = 64 →
    ok = ((s.headFrame i).1.flatMap (fun x => okSrcs (s.strSrc i) x.vals)).length →
    dc = ((s.headFrame i).1.flatMap (fun x => declSrcs x.sn (s.strSrc i) x.vals)).length →
    ∃ t, exec (.frameBuild i) s = .next t ∧ Keeps [.regs, .mem, .fqs, .strs, .dbg] s t ∧
      (t.str i).insts = (s.str i).insts.drop (s.headFrame i).1.length ∧
      (∀ n, n ≠ s.fqOf i → t.fq n = s.fq n) ∧ (∀ j, j ≠ i.val → t.str j = s.str j) ∧
      ∃ new, t.fq (s.fqOf i) = s.fq (s.fqOf i) ++ new ∧
        (∀ p ∈ new, p.stream = i ∧ (p.kind = 0 → new.getLast? = some p ∧ p.count = (s.headFrame i).1.length)) ∧
        (t.str i).produced = (s.str i).produced ∧ (t.str i).delivered = (s.str i).delivered ∧
        (t.str i).pos = (s.str i).pos + ok + dc ∧
        ((∃ p, new.getLast? = some p ∧ p.kind = 0 ∧ p.okIn = ok ∧ (t.str i).declared = (s.str i).declared) ∨
          (new = [] ∧ (t.str i).declared = (s.str i).declared + ok))) ∧
  (∀ (i : Fin 64) (s : State), (s.strCont i = false ∨ (s.str i).active = false ∨ (s.headFrame i).2 = false ∨ s.halted = true) →
    exec (.frameBuild i) s = .next s) ∧
  (∀ (p : Fin 4) (s : State), (s.linkUp p = false ∨ (s.port p).sending ≠ none ∨ s.hostFirst p = true) →
    exec (.frameTransmit p) s = .next s) ∧
  (∀ (p : Fin 4) (s : State) (r : List Byte) (rest : List (List Byte)), s.linkUp p = true → (s.port p).sending = none →
    s.hostFirst p = false → s.ports.length = 4 → (s.port p).replies = r :: rest →
    ∃ t, exec (.frameTransmit p) s = .next t ∧ Keeps [.ports, .obs] s t ∧ (t.port p).sending = some (.reply r) ∧
      (t.port p).replies = rest ∧ t.obs = .frame p r :: s.obs) ∧
  (∀ (p : Fin 4) (s : State) (k : Fin 4) (x : Packet) (rest : List Packet), s.linkUp p = true → (s.port p).sending = none →
    s.hostFirst p = false → s.ports.length = 4 → s.fqs.length = 16 → (s.port p).replies = [] → s.halted = false →
    (∀ j, j < k.val → s.fq (4 * p + j) = []) → s.fq (4 * p + k) = x :: rest → x.dead = false → s.mem.faults = [] →
    s.fqHeld.getD (4 * p + k) none = none →
    ∃ t, exec (.frameTransmit p) s = .next t ∧ Keeps [.ports, .fqs, .obs] s t ∧ t.fq (4 * p + k) = rest ∧
      (t.port p).sending = some (.packet k x (s.nextSeq x) x.stored) ∧ ∃ b, t.obs = .frame p b :: s.obs) ∧
  (∀ (p : Fin 4) (s : State) (k : Fin 4) (x : Packet) (rest : List Packet), s.linkUp p = true → (s.port p).sending = none →
    s.hostFirst p = false → s.ports.length = 4 → s.fqs.length = 16 → s.strs.length = 64 → (s.port p).replies = [] → s.halted = false →
    (∀ j, j < k.val → s.fq (4 * p + j) = []) → s.fq (4 * p + k) = x :: rest → x.dead = false → x.stored = true →
    (s.readFqLine (4 * p + k) 0).1 = false → ((s.readFqLine (4 * p + k) 0).2.readFqLines (4 * p + k) 1 (x.lines - 1)).1 = true →
    x.kind = 0 → x.frozen = none → (s.str x.stream).active = true → x.stream < 64 → x.okIn = (x.content.flatMap (·.2)).length →
    ∃ t, exec (.frameTransmit p) s = .next t ∧ (t.port p).sending = none ∧
      Keeps [.regs, .mem, .fqs, .fqHeld, .strs, .recq, .dbg, .host, .obs, .upd] s t ∧
      (t.str x.stream).produced = (s.str x.stream).produced ∧ (t.str x.stream).delivered = (s.str x.stream).delivered ∧
      (t.str x.stream).declared = (s.str x.stream).declared + x.okIn) ∧
  (∀ (p : Fin 4) (s : State), (s.port p).replies = [] → s.halted = true → exec (.frameTransmit p) s = .next s) ∧
  (∀ (p : Fin 4) (s : State) (k q : Nat) (x : Packet), s.linkUp p = true → s.ports.length = 4 → s.strs.length = 64 →
    x.stream < 64 → (s.port p).sending = some (.packet k x q true) → x.frozen = none → x.kind = 0 →
    ∃ t, exec (.frameDelivered p) s = .next t ∧ Keeps [.regs, .ports, .strs, .fqs, .fqHeld] s t ∧ (t.port p).sending = none ∧
      (∀ n, t.fqAlive n = s.fqAlive n) ∧
      t.getF (F.NET_TX_FRAMES_COUNT p) = (s.getF (F.NET_TX_FRAMES_COUNT p) + 1) % 2 ^ 32 ∧
      t.getF (F.STR_FRAME_SEQ_NEXT x.stream) = (s.getF (F.STR_FRAME_SEQ_NEXT x.stream) + 1) % 2 ^ 32 ∧
      (t.str x.stream).delivered = (s.str x.stream).delivered + x.okIn ∧
      (t.str x.stream).produced = (s.str x.stream).produced ∧ (t.str x.stream).declared = (s.str x.stream).declared ∧
      (t.str x.stream).settled = (s.str x.stream).settled + x.declIn ∧
      (t.str x.stream).frames = (s.str x.stream).frames + 1) ∧
  (∀ (p : Fin 4) (s : State) (k q : Nat) (x : Packet) (h : Bool), s.linkUp p = false →
    (s.port p).sending = some (.packet k x q h) → exec (.frameDelivered p) s = .next s) ∧
  (∀ (p : Fin 4) (s : State), (s.port p).sending = none → exec (.frameDelivered p) s = .next s)

/-- EVENT_RECORD, EQ_READ and EVENT_RING_WRITE (R240-R244, R354): the next record, which is the
first one of the lowest block among those of the oldest F-cycle (a tick, assumption log 86), gets the next sequence number and a copy goes
whole into every event queue that admits it and has room, else it is lost there; the owner reads a queue entry by entry; in
ring mode whole records go to the host ring, whose PI advances. -/
def Obligations.RecordsReachQueues : Prop :=
  (∀ s : State, s.recq = [] → exec .eventRecord s = .next s) ∧
  (∀ (l rest : List RecIn) (r : RecIn), nextRec l = some (r, rest) →
    ∃ pre post, l = pre ++ r :: post ∧ rest = pre ++ post ∧ (∀ x ∈ pre, x.typ / 256 ≠ r.typ / 256) ∧
      ∀ h, l.head? = some h → r.tick = h.tick ∧ ∀ x ∈ l.takeWhile (fun x => x.tick == h.tick), r.typ / 256 ≤ x.typ / 256) ∧
  (∀ s : State, s.recq ≠ [] → (nextRec s.recq).isSome = true) ∧
  (∀ (s : State) (r : RecIn) (rest : List RecIn), nextRec s.recq = some (r, rest) → s.eqs.length = 3 →
    ∃ t, exec .eventRecord s = .next t ∧ Keeps [.regs, .recq, .eqs, .strs] s t ∧
      RegsKept [R.FLW_SEQ_NEXT, R.FLW_EQ_LOST 0, R.FLW_EQ_LOST 1, R.FLW_EQ_LOST 2] s t ∧ t.recq = rest ∧
      t.getF F.FLW_SEQ_NEXT_SEQ = (s.getF F.FLW_SEQ_NEXT_SEQ + 1) % 2 ^ 32 ∧
      ∀ (n : Nat) (adm room : Bool), n < 3 →
        adm = ((s.rd (R.FLW_EQ_CTRL n)).getLsbD (r.typ / 256) && decide (r.typ / 256 < 19)) →
        room = decide ((s.evq n).entries.length + (4 + r.payload.length) ≤ 4096) →
        (adm = false → t.evq n = s.evq n) ∧
        (adm = true → room = true → (t.evq n).lost = false ∧ (t.evq n).entries = (s.evq n).entries ++
          recEntries (recWords r (s.getF F.FLW_SEQ_NEXT_SEQ) s.tick (s.evq n).lost)) ∧
        (adm = true → room = false → (t.evq n).entries = (s.evq n).entries ∧ (t.evq n).lost = true ∧
          t.getF (F.FLW_EQ_LOST_COUNT n) = (s.getF (F.FLW_EQ_LOST_COUNT n) + 1) % 2 ^ 32)) ∧
  (∀ (id : Ident) (n : Fin 3) (s : State) (e : QEntry) (rest : List QEntry), (id = eqOwner n ∨ id = .dbg) →
    s.readsNow id (R.FLW_EQ_READ_LO n) →
    s.bit (F.FLW_EQ_CTRL_MODE n) = false → s.eqs.length = 3 → (s.evq n).entries = e :: rest →
    (0 < packetsOf (e :: rest) ∨ (s.evq n).partRead = true) → e.enda = e.endb → e.err = 0 →
    ∃ t, exec (.eqRead id n) s = .next t ∧ Keeps [.eqs, .latches, .obs, .dbg] s t ∧ (t.evq n).entries = rest ∧
      t.obs = .read id.num (R.FLW_EQ_READ_LO n) e.data :: s.obs ∧
      t.latched id (R.FLW_EQ_READ_HI n) = lo32 (1 + 2 * b2n e.enda + min 255 (packetsOf rest) * 256)) ∧
  (∀ (id : Ident) (n : Fin 3) (s : State), onBus id = true → id ≠ eqOwner n → id ≠ .dbg → s.readsNow id (R.FLW_EQ_READ_LO n) →
    ∃ t, exec (.eqRead id n) s = .next t ∧ Keeps [.latches, .obs, .dbg] s t ∧
      t.obs = .read id.num (R.FLW_EQ_READ_LO n) 0#32 :: s.obs) ∧
  (∀ (f : Fin 2) (s : State), (s.bit (F.FLW_EQ_CTRL_MODE f) = false ∨ s.ringOn f 9 = false ∨ s.ringLen f 9 ≤ s.ringFill f 9 ∨
    packetsOf (s.evq f).entries = 0) → exec (.eventRingWrite f) s = .next s) ∧
  (∀ (f : Fin 2) (s : State) (pre : List QEntry) (e : QEntry) (rest : List QEntry), s.bit (F.FLW_EQ_CTRL_MODE f) = true →
    s.ringOn f 9 = true → s.ringFill f 9 < s.ringLen f 9 → s.eqs.length = 3 → pre.length < 4096 →
    (s.evq f).entries = pre ++ e :: rest → (∀ x ∈ pre, x.enda = false ∧ x.endb = false ∧ x.err = 0) →
    e.enda = true → e.endb = true → e.err = 0 →
    ∃ t, exec (.eventRingWrite f) s = .next t ∧ Keeps [.regs, .eqs, .host, .obs, .freeCtr] s t ∧
      RegsKept [R.HIF_RING_PI f 9] s t ∧ (t.evq f).entries = rest ∧
      t.getF (F.HIF_RING_PI_PI f 9) = (s.getF (F.HIF_RING_PI_PI f 9) + 1) % 2 ^ 16)

/-- WQ_FLUSH, FQ_FLUSH, EQ_FLUSH and DISCARD_END (R245-R248): a flush that its identity may make empties the queue and is
recorded, for a word queue in the middle of an item once its producer ends the discard; any other is refused. -/
def Obligations.QueuesFlush : Prop :=
  (∀ (id : Ident) (n : Fin 512) (s : State), s.goes id (R.FLW_WQ_CTRL n) →
    ∃ t, exec (.wqFlush id n) s = .next t ∧ Keeps [.regs, .recq, .wqs, .strs, .dbg] s t ∧
      (s.flushOk id = false → Keeps [.regs, .dbg] s t ∧ RegsKept [R.FLW_STATUS] s t ∧
        t.bit F.FLW_STATUS_FLUSH_REFUSED = true) ∧
      (s.flushOk id = true → n.val < s.getF F.FLW_WQ_COUNT_COUNT → s.wqs.length = 512 → (t.wq n).entries = [] ∧
        (((s.wq n).midItem = true ∨ (s.wq n).flushes ≠ 0) → t.bit (F.FLW_WQ_STATUS_DISCARDING n) = true ∧
          (t.wq n).flushes = (s.wq n).flushes + 1 ∧ t.recq = s.recq) ∧
        ((s.wq n).midItem = false → (s.wq n).flushes = 0 → t.recq.length = s.recq.length + 1 ∧
          t.getF (F.FLW_WQ_FLUSHES_COUNT n) = (s.getF (F.FLW_WQ_FLUSHES_COUNT n) + 1) % 2 ^ 32))) ∧
  (∀ (n : Fin 512) (s : State), s.bit (F.FLW_WQ_STATUS_DISCARDING n) = true → s.wqs.length = 512 →
    ∃ t, exec (.discardEnd n) s = .next t ∧ Keeps [.regs, .recq, .wqs] s t ∧ RegsKept [R.FLW_WQ_STATUS n] s t ∧
      t.bit (F.FLW_WQ_STATUS_DISCARDING n) = false ∧ (t.wq n).midItem = false ∧ (t.wq n).flushes = 0 ∧
      t.recq.length = s.recq.length + 1) ∧
  (∀ (n : Fin 512) (s : State), s.bit (F.FLW_WQ_STATUS_DISCARDING n) = false → exec (.discardEnd n) s = .next s) ∧
  (∀ (id : Ident) (n : Fin 16) (s : State), s.goes id (R.FLW_FQ_CTRL n) →
    ∃ t, exec (.fqFlush id n) s = .next t ∧ Keeps [.regs, .recq, .fqs, .fqHeld, .ports, .strs, .dbg] s t ∧
      (s.flushOk id = false → Keeps [.regs, .dbg] s t ∧ RegsKept [R.FLW_STATUS] s t ∧
        t.bit F.FLW_STATUS_FLUSH_REFUSED = true) ∧
      (s.flushOk id = true → t.fq n = [] ∧
        ((∀ p ∈ s.fqUnread n, s.fqOf p.stream = n) → ∀ k, k ≠ n.val → t.fq k = s.fq k) ∧ t.sendingOf n = none) ∧
      (s.flushOk id = true → t.getF (F.FLW_FQ_RD_RD n) = 0 ∧
        t.getF (F.FLW_FQ_WR_WR n) = 0 ∧ t.getF (F.FLW_FQ_CREDIT_WORDS n) = 16 * s.fqSet n % 2 ^ 26 ∧
        t.recq.length = s.recq.length + 1)) ∧
  (∀ (id : Ident) (n : Fin 3) (s : State), s.goes id (R.FLW_EQ_CTRL n) →
    ∃ t, exec (.eqFlush id n) s = .next t ∧ Keeps [.regs, .recq, .eqs, .dbg] s t ∧
      ((id = eqOwner n ∨ id = .host1 ∨ id = .dbg) → t.regs = s.regs ∧ (s.eqs.length = 3 → (t.evq n).entries = []) ∧
        t.recq.length = s.recq.length + 1) ∧
      (¬ (id = eqOwner n ∨ id = .host1 ∨ id = .dbg) → Keeps [.regs, .dbg] s t ∧ RegsKept [R.FLW_STATUS] s t ∧
        t.bit F.FLW_STATUS_FLUSH_REFUSED = true))


/-! ### The sinter engine -/

/-- HOST_JOB_START, SNT_COMPRESS, SNT_INFLATE, SNT_RESUME and SNT_RELEASE (R256, R263, R268-R271): the oldest descriptor of a
working ring 8 is taken only by the row of its OP or by HOST_JOB_START; a bad one ends with an error and leaves every
context; COMPRESS and INFLATE start in a FREE context on a free lane, RESUME goes on in a suspended one of its function, and
RELEASE frees it; with no lane it stays in its ring. -/
def Obligations.SinterTakesDescriptors : Prop :=
  (∀ (f : Fin 2) (s : State), (s.ringOn f 8 = false ∨ s.domOn 12 = false ∨ s.halted = true ∨ (s.ring f 8).posted = []) →
    exec (.hostJobStart f) s = .next s ∧ exec (.sntCompress f) s = .next s ∧ exec (.sntInflate f) s = .next s ∧
    exec (.sntResume f) s = .next s ∧ exec (.sntRelease f) s = .next s) ∧
  (∀ (f : Fin 2) (s : State) (e : RingEntry) (rest : List RingEntry), (s.ring f 8).posted = e :: rest →
    (descOp e.desc ≠ 0 → exec (.sntCompress f) s = .next s) ∧ (descOp e.desc ≠ 1 → exec (.sntInflate f) s = .next s) ∧
    (descOp e.desc ≠ 2 → exec (.sntResume f) s = .next s) ∧ (descOp e.desc ≠ 3 → exec (.sntRelease f) s = .next s)) ∧
  (∀ (f : Fin 2) (c : Instr) (s : State) (e : RingEntry) (rest : List RingEntry) (n : Nat),
    s.ringOn f 8 = true → s.domOn 12 = true → s.halted = false → (s.ring f 8).posted = e :: rest → e.bad = false →
    s.host.fns.length = 2 → (s.fn f).rings.length = 10 → s.snt.ctxs.length = 64 → n < 64 → descCtx e.desc = n →
    (c = .hostJobStart f ∨ (c = .sntCompress f ∧ descOp e.desc = 0) ∨ (c = .sntInflate f ∧ descOp e.desc = 1) ∨
      (c = .sntResume f ∧ descOp e.desc = 2) ∨ (c = .sntRelease f ∧ descOp e.desc = 3)) →
    ∃ t, exec c s = .next t ∧ Keeps [.regs, .recq, .mem, .host, .obs, .upd, .pwr, .snt, .freeCtr, .firsts] s t ∧
      (s.descOk e.desc = false → Keeps [.regs, .recq, .host, .obs] s t ∧ (t.ring f 8).posted = rest ∧
        (∀ k, k < 64 → t.ctxSt k = s.ctxSt k) ∧
        t.getF F.SNT_ERRORS_COUNT = (s.getF F.SNT_ERRORS_COUNT + 1) % 2 ^ 32) ∧
      (∀ l : Fin 5, s.descOk e.desc = true → descOp e.desc ≤ 1 → s.hostLane (descOp e.desc == 1) = some l.val →
        s.ctxSt n = 0 → (t.ring f 8).posted = rest ∧ t.ctxSt n = 1 ∧ t.getF (F.SNT_CTX_STATE_OWNER n) = f + 1 ∧
          t.laneSt l = 2 ∧ t.getF (F.SNT_LANE_CTX l) = n ∧
          ∃ j, (t.ctx n).job = some j ∧ j.fn = f ∧ j.idx = e.idx ∧ j.tag = descTag e.desc ∧
            j.infl = (descOp e.desc == 1) ∧ j.words = 0 ∧ j.out = 0) ∧
      (s.descOk e.desc = true → descOp e.desc ≤ 1 → s.hostLane (descOp e.desc == 1) = none → t = s) ∧
      (∀ (l : Fin 5) (j : SntJob), s.descOk e.desc = true → descOp e.desc = 2 → (s.ctx n).job = some j →
        s.hostLane j.infl = some l.val → s.suspRefusal f n = none →
        (t.ring f 8).posted = rest ∧ t.ctxSt n = 1 ∧ t.laneSt l = 2 ∧ t.getF (F.SNT_LANE_CTX l) = n ∧
          ∃ k, (t.ctx n).job = some k ∧ k.dst = descDst e.desc ∧ k.dstLen = descDstLen e.desc ∧ k.words = j.words ∧
            k.out = j.out ∧ k.input = j.input) ∧
      (s.descOk e.desc = true → descOp e.desc = 3 → s.suspRefusal f n = none →
        (t.ring f 8).posted = rest ∧ t.ctxSt n = 0 ∧ (t.ctx n).job = none))

/-- JOB_STEP_COMPLETE and SNT_ABORT (R269-R273): a step gives back its lane and either frees its context or, when the output
space is full, suspends it; an abort ends a running job, is late for a suspended one and for one whose commit in the same tick has freed the context, and is
ignored otherwise. -/
def Obligations.SinterStepsEnd : Prop :=
  (∀ (l : Fin 5) (s : State), (s.laneSt l ≠ 2 ∨ s.halted = true) → exec (.jobStepComplete l) s = .next s) ∧
  (∀ (l : Fin 5) (s : State) (n : Nat) (j : SntJob), s.laneSt l = 2 → s.halted = false → s.getF (F.SNT_LANE_CTX l) = n →
    n < 64 → s.snt.ctxs.length = 64 → (s.ctx n).job = some j →
    ∃ t, exec (.jobStepComplete l) s = .next t ∧
      Keeps [.regs, .recq, .mem, .host, .obs, .upd, .pwr, .snt, .freeCtr, .firsts] s t ∧ t.laneSt l = 0 ∧
      (t.ctxSt n = 0 ∧ (t.ctx n).job = none ∨ t.ctxSt n = 2 ∧ (t.ctx n).job.isSome = true) ∧
      (∀ st loc, j.fail = some (st, loc) → st ≠ 1 → t.ctxSt n = 0) ∧
      (j.fail = none → spaceOf j.dst = 1 → j.blkMax = 0 →
        (t.ctxSt n = 2 ↔ j.step.fin.status = 1) ∧
        (j.step.bytes ≠ [] → .hostWrite j.fn (addrOf j.dst) j.step.bytes ∈ t.obs) ∧
        (j.step.fin.status = 0 → t.getF F.SNT_JOBS_COUNT = (s.getF F.SNT_JOBS_COUNT + 1) % 2 ^ 32))) ∧
  (∀ (id : Ident) (v : Word) (s : State) (n : Nat), s.goes id R.SNT_ABORT → getBits v 0 8 = n → s.snt.ctxs.length = 64 →
    ∃ t, exec (.sntAbort id v) s = .next t ∧
      Keeps [.regs, .recq, .mem, .host, .obs, .upd, .pwr, .snt, .freeCtr, .firsts, .dbg] s t ∧
      (v.getLsbD 31 = false → Keeps [.dbg] s t) ∧
      (v.getLsbD 31 = true → (n < 8 ∨ 64 ≤ n ∨ (s.ctxSt n = 0 ∧ (s.ctx n).doneAt ≠ some s.tick) ∨ s.ctxSt n = 3) →
        Keeps [.regs, .dbg] s t ∧ RegsKept [R.SNT_ABORT_STATUS] s t ∧ t.bit F.SNT_ABORT_STATUS_IGNORED = true) ∧
      (v.getLsbD 31 = true → 8 ≤ n → n < 64 → (s.ctxSt n = 2 ∨ (s.ctxSt n = 0 ∧ (s.ctx n).doneAt = some s.tick)) →
        Keeps [.regs, .dbg] s t ∧ t.bit F.SNT_ABORT_STATUS_LATE = true ∧ t.ctxSt n = s.ctxSt n ∧
        t.getF F.MNT_LATE_COUNT = (s.getF F.MNT_LATE_COUNT + 1) % 2 ^ 32) ∧
      (∀ j, v.getLsbD 31 = true → 8 ≤ n → n < 64 → s.ctxSt n = 1 → (s.ctx n).job = some j →
        t.bit F.SNT_ABORT_STATUS_ABORTED = true ∧ t.ctxSt n = 0 ∧ (t.ctx n).job = none))

/-- CAPTURE_JOB_START, HUB_JOB_COMPLETE, GEYSER_PACKET_BUILD, FUMAROLE_PACKET_BUILD and END_PACKET (R60, R264-R267, R290,
R295-R300): the next whole capture takes a free lane and hub context, or wakes XPR; its end gives both back once its words are
handed over; packets of a stream are appended to its own queue and to no other, at the reserved rate; the END packet follows once nothing of the stream is undelivered. -/
def Obligations.CapturesLeave : Prop :=
  (∀ s : State, (s.halted = true ∨ s.nextCap = none ∨ s.freeLane 0 = none ∨ s.hubCtx = none) →
    exec .captureJobStart s = .next s) ∧
  (∀ (s : State) (k : Capture) (l n : Nat), s.halted = false → s.nextCap = some k → s.freeLane 0 = some l → s.hubCtx = some n →
    ∃ t, exec .captureJobStart s = .next t ∧
      Keeps [.regs, .recq, .wqs, .mem, .trg, .strs, .snt, .pwr, .host, .obs, .upd, .freeCtr] s t ∧
      (s.domOn 12 = false → Keeps [.regs, .pwr] s t ∧ 12 ∈ t.pwr.waking) ∧
      (s.domOn 12 = true → t.laneSt l = 1 ∧ (s.snt.caps.length = 5 → t.snt.caps.getD l none = some k.id) ∧
        (s.mem.faults = [] → s.bit F.MEM_INJECT_CTRL_ARM = false →
          t.getF (F.SNT_LANE_CTX l) = n ∧ t.ctxSt n = 3 ∧ t.getF (F.SNT_CTX_STATE_OWNER n) = 0))) ∧
  (∀ (l : Fin 5) (s : State) (id : Nat), s.snt.caps.getD l none = some id → s.laneSt l = 1 → s.halted = false →
    s.geyAllIn (s.getF (F.SNT_LANE_STREAM l)) = true →
    ∃ t, exec (.hubJobComplete l) s = .next t ∧ Keeps [.regs, .trg, .snt, .pwr] s t ∧ t.laneSt l = 0 ∧
      t.ctxSt (s.getF (F.SNT_LANE_CTX l)) = 0 ∧ t.snt.caps.getD l none = none ∧
      t.getF F.SNT_JOBS_COUNT = (s.getF F.SNT_JOBS_COUNT + 1) % 2 ^ 32) ∧
  (∀ (l : Fin 5) (s : State), (s.snt.caps.getD l none = none ∨ s.laneSt l ≠ 1 ∨ s.halted = true ∨
    s.geyAllIn (s.getF (F.SNT_LANE_STREAM l)) = false) → exec (.hubJobComplete l) s = .next s) ∧
  (∀ (i : Fin 64) (s : State) (o : CapOut) (rest : List CapOut), s.strKind i = 4 → (s.str i).active = true → s.halted = false →
    s.paced i = true → (s.str i).gey = o :: rest → s.fqs.length = 16 → s.strs.length = 64 →
    ∃ t, exec (.geyserPacketBuild i) s = .next t ∧ Keeps [.regs, .recq, .wqs, .mem, .fqs, .strs, .host, .obs, .upd, .dbg] s t ∧
      (∀ n, n ≠ s.fqOf i → t.fq n = s.fq n) ∧ (∀ j, j ≠ i.val → t.str j = s.str j) ∧
      (∃ new, t.fq (s.fqOf i) = s.fq (s.fqOf i) ++ new ∧
        ∀ p ∈ new, p.stream = i ∧ (p.kind = 0 → new.getLast? = some p ∧ p.cap = o.cap)) ∧
      (o.chans = [] → (t.str i).gey = rest) ∧
      (∀ x y, o.chans = [x, y] → x.n = 0 → (t.str i).gey = { o with chans := [y] } :: rest ∧
        (t.str i).pos = (s.str i).pos + (o.p + o.q))) ∧
  (∀ (i : Fin 64) (s : State), (s.strKind i ≠ 4 ∨ (s.str i).active = false ∨ s.halted = true ∨ s.paced i = false ∨
    (s.str i).gey = []) → exec (.geyserPacketBuild i) s = .next s) ∧
  (∀ (s : State) (i : Nat), s.fumStream = some i → s.fumDue i = true → s.halted = false → s.paced i = true → s.fqs.length = 16 →
    s.strs.length = 64 →
    ∃ t, exec .fumarolePacketBuild s = .next t ∧ Keeps [.regs, .mem, .fqs, .strs, .dbg] s t ∧
      (∀ n, n ≠ s.fqOf i → t.fq n = s.fq n) ∧
      (t.str i).recs = (s.str i).recs.drop (takeRecs 8192 (s.str i).recs).length ∧
      ∃ new, t.fq (s.fqOf i) = s.fq (s.fqOf i) ++ new ∧
        ∀ p ∈ new, p.stream = i ∧ (p.kind = 5 → new.getLast? = some p ∧ p.count = (takeRecs 8192 (s.str i).recs).length)) ∧
  (∀ s : State, (∀ i, s.fumStream = some i → s.fumDue i = false ∨ s.halted = true ∨ s.paced i = false) →
    exec .fumarolePacketBuild s = .next s) ∧
  (∀ (i : Fin 64) (s : State) (r : Nat), s.endReady i = true → s.halted = false → (s.str i).ending = some r →
    s.fqs.length = 16 → s.strs.length = 64 →
    ∃ t, exec (.endPacket i) s = .next t ∧ Keeps [.regs, .mem, .fqs, .strs, .dbg] s t ∧
      (∀ n, n ≠ s.fqOf i → t.fq n = s.fq n) ∧
      ((s.str i).runs = [] → s.undelivered i = false → s.fqRoom (s.fqOf i) (s.endPkt i r).words = true →
        (s.endPkt i r).lines ≤ s.fqUsable (s.fqOf i) →
        t.fq (s.fqOf i) = s.fq (s.fqOf i) ++ [s.endPkt i r] ∧ (t.str i).endQueued = true ∧ (s.endPkt i r).kind = 2 ∧
        (s.endPkt i r).reason = r) ∧
      ((s.str i).runs = [] → s.undelivered i = true → t = s) ∧
      ((s.str i).runs ≠ [] → wordsOf (s.lastGaps i) ≤ s.getF (F.FLW_FQ_CREDIT_WORDS (s.fqOf i)) →
        (∀ g ∈ s.lastGaps i, g.lines ≤ s.fqUsable (s.fqOf i)) → 0 < s.fqUsable (s.fqOf i) →
        t.fq (s.fqOf i) = s.fq (s.fqOf i) ++ s.lastGaps i ∧ (t.str i).runs = [])) ∧
  (∀ (i : Fin 64) (s : State), (s.endReady i = false ∨ s.halted = true) → exec (.endPacket i) s = .next s)


/-! ### Ports and the network -/

/-- LINK_UP, LINK_DOWN, TRAINING_COMPLETE, PORT_RESTART, SERDES_READAPT and READAPT_DONE (R307-R310, R332): a port that is not up,
failed or training comes up; each port that falls counts and records it and gives up the frame it was sending; the first
failure of training is repeated, the second is lasting; a restart starts the port afresh; a re-adaptation is an activity of
the maintenance coordinator. -/
def Obligations.LinksMove : Prop :=
  (∀ (p : Fin 4) (s : State) (ok : Bool), ok = (decide (s.portMode p ≠ 0) && !s.linkUp p &&
      !(s.port p).failed && !s.bit (F.NET_PORT_STATUS_TRAINING p) && s.domOn 10) →
    ∃ t, exec (.linkUp p) s = .next t ∧ (ok = false → t = s) ∧
      (ok = true → Keeps [.regs, .recq, .ports, .obs] s t ∧ RegsKept [R.NET_PORT_STATUS p, R.NET_PHASE p] s t ∧
        t.linkUp p = true ∧ t.bit (F.NET_PORT_STATUS_RCLK_OK p) = true ∧ t.recq = s.recq ++ [⟨0, 0x0D01, pw p, s.tick⟩])) ∧
  (∀ (ports : List (Fin 4)) (why : Fin 3) (s : State), s.ports.length = 4 →
    ∃ t, exec (.linkDown ports why) s = .next t ∧ Keeps [.regs, .recq, .ports, .fqs, .fqHeld, .strs, .pwr, .obs] s t ∧
      ((∀ p ∈ ports, s.linkUp p = false) → t = s) ∧
      (∀ p, p ∉ ports → t.linkUp p = s.linkUp p) ∧
      ∀ p ∈ ports, s.linkUp p = true → t.linkUp p = false ∧ (t.port p).sending = none ∧
        t.getF (F.NET_LINK_DOWNS_COUNT p) = (s.getF (F.NET_LINK_DOWNS_COUNT p) + 1) % 2 ^ 32 ∧
        ⟨0, 0x0D02, pw p, s.tick⟩ ∈ t.recq ∧
        (s.bit (F.NET_PORT_CTRL_TRAIN p) = true → t.bit (F.NET_PORT_STATUS_TRAINING p) = true)) ∧
  (∀ (p : Fin 4) (ok : Bool) (s : State), s.bit (F.NET_PORT_STATUS_TRAINING p) = false →
    exec (.trainingComplete p ok) s = .next s) ∧
  (∀ (p : Fin 4) (ok : Bool) (s : State), s.bit (F.NET_PORT_STATUS_TRAINING p) = true → s.ports.length = 4 →
    ∃ t, exec (.trainingComplete p ok) s = .next t ∧ Keeps [.regs, .recq, .ports, .host, .obs, .upd] s t ∧
      (ok = true → t.bit (F.NET_PORT_STATUS_TRAINING p) = false ∧
        ((s.port p).trainFail = false → RegsKept [R.NET_PORT_STATUS p] s t) ∧
        ((s.port p).trainFail = true → t.getF (F.NET_TRAIN_TRANS_COUNT p) = (s.getF (F.NET_TRAIN_TRANS_COUNT p) + 1) % 2 ^ 32)) ∧
      (ok = false → (s.port p).trainFail = false → Keeps [.ports] s t ∧ (t.port p).trainFail = true) ∧
      (ok = false → (s.port p).trainFail = true → t.bit (F.NET_PORT_STATUS_TRAINING p) = false ∧
        t.bit (F.NET_PORT_STATUS_LINK_FAIL p) = true ∧ (t.port p).failed = true ∧
        t.getF (F.NET_TRAIN_LASTING_COUNT p) = (s.getF (F.NET_TRAIN_LASTING_COUNT p) + 1) % 2 ^ 32)) ∧
  (∀ (id : Ident) (p : Fin 4) (s : State), s.goes id (R.NET_PORT_CTRL p) →
    ∃ t, exec (.portRestart id p) s = .next t ∧ Keeps [.regs, .recq, .ports, .fqs, .fqHeld, .strs, .pwr, .dbg, .obs] s t ∧
      t.linkUp p = false ∧ t.bit (F.NET_PORT_STATUS_LINK_FAIL p) = false ∧
      (s.ports.length = 4 → (t.port p).failed = false) ∧
      t.bit (F.NET_PORT_STATUS_TRAINING p) = (decide (s.portMode p ≠ 0) && s.bit (F.NET_PORT_CTRL_TRAIN p))) ∧
  (∀ (id : Ident) (p : Fin 4) (s : State), s.goes id (R.NET_PORT_CTRL p) →
    ∃ t, exec (.serdesReadapt id p) s = .next t ∧ Keeps [.regs, .mnt, .dbg] s t ∧
      ∃ a ∈ t.mnt.running ++ t.mnt.waiting, a.a = actReadapt ∧ a.unit = p.val) ∧
  (∀ (p : Fin 4) (s : State), s.runs actReadapt p = true →
    ∃ t, exec (.readaptDone p) s = .next t ∧ Keeps [.mnt] s t ∧ t.mnt.running = dropAct actReadapt p s.mnt.running) ∧
  (∀ (p : Fin 4) (s : State), s.runs actReadapt p = false → exec (.readaptDone p) s = .next s)

/-- FAILBACK, FAILBACK_TAKES_EFFECT and DRAIN_TIMEOUT (R303, R304): a stream on its failover port asks to return, and does so
once no frame of it is undelivered; a stream whose port stays down past the drain time ends with an END packet of REASON 3 that
counts as sent. -/
def Obligations.StreamsReturnOrEnd : Prop :=
  (∀ (id : Ident) (i : Fin 64) (s : State), s.goes id (R.STR_CTRL i) →
    ∃ t, exec (.failback id i) s = .next t ∧ Keeps [.regs, .dbg] s t ∧ RegsKept [R.STR_STATUS i] s t ∧
      (s.bit (F.STR_STATUS_ON_FO i) = true → t.bit (F.STR_STATUS_FAILBACK_PENDING i) = true) ∧
      (s.bit (F.STR_STATUS_ON_FO i) = false → t.regs = s.regs)) ∧
  (∀ (i : Fin 64) (s : State), s.bit (F.STR_STATUS_FAILBACK_PENDING i) = true → s.undelivered i = false →
    ∃ t, exec (.failbackTakesEffect i) s = .next t ∧ Keeps [.regs] s t ∧ RegsKept [R.STR_STATUS i] s t ∧
      t.getF (F.STR_STATUS_PORT_NOW i) = s.getF (F.STR_DEF_PORT i) ∧ t.bit (F.STR_STATUS_ON_FO i) = false ∧
      t.bit (F.STR_STATUS_FAILBACK_PENDING i) = false) ∧
  (∀ (i : Fin 64) (s : State), (s.bit (F.STR_STATUS_FAILBACK_PENDING i) = false ∨ s.undelivered i = true) →
    exec (.failbackTakesEffect i) s = .next s) ∧
  (∀ (i : Fin 64) (s : State), (s.bit F.AFE_RUN_STATUS_DRAINING = false ∨
    s.linkUp (s.getF (F.STR_STATUS_PORT_NOW i)) = true ∨ s.bit (F.STR_STATUS_END_SENT i) = true ∨
    ∀ k, (s.str i).drainFrom = some k → s.tick < k + 500000 * s.getF F.STR_DRAIN_DRAIN_MS) →
    exec (.drainTimeout i) s = .next s) ∧
  (∀ (i : Fin 64) (s : State) (k : Nat), (s.str i).active = true → s.bit F.AFE_RUN_STATUS_DRAINING = true →
    s.bit (F.STR_STATUS_END_SENT i) = false → s.halted = false → s.linkUp (s.getF (F.STR_STATUS_PORT_NOW i)) = false →
    (∀ c ∈ s.trg.caps, c.stream ≠ i.val) → (s.str i).gey = [] → (s.strKind i = 4 → s.trigsDone = true) →
    (s.str i).drainFrom = some k →
    k + 500000 * s.getF F.STR_DRAIN_DRAIN_MS ≤ s.tick → s.fqs.length = 16 → s.strs.length = 64 →
    ∃ t, exec (.drainTimeout i) s = .next t ∧ Keeps [.regs, .recq, .mem, .fqs, .fqHeld, .strs, .pwr, .dbg] s t ∧
      t.bit (F.STR_STATUS_END_SENT i) = true ∧ t.bit (F.STR_STATUS_DRAIN_TIMEOUT i) = true ∧
      (t.str i).endQueued = true ∧ (t.str i).insts = [] ∧ (t.str i).runs = [] ∧
      ∃ e, (t.fq (s.fqOf i)).getLast? = some e ∧ e.kind = 2 ∧ e.reason = 3 ∧ e.frozen.isSome = true)

/-- FRAME_RECEIVE, HOST_FRAME_TRANSMIT, HOST_FRAME_PROMOTION, PD_MEASUREMENT, SUSPECT_SET and SUSPECT_ACK (R314-R318, R323, R324,
R330, R351, R352): a received frame is counted by the first thing that stops it, or goes to the Damuf agent or to the host
ring; a host frame in its turn leaves with its padding and FCS, an erroneous one only completes; a path-delay measurement
inside the threshold moves the running value, one outside it counts as an outlier, and enough of them are a step. -/
def Obligations.FramesAtPorts : Prop :=
  (∀ (p : Fin 4) (x : Fin 65536) (w : List Byte) (s : State), s.linkUp p = false → exec (.frameReceive p x w) s = .next s) ∧
  (∀ (p : Fin 4) (x : Fin 65536) (w : List Byte) (s : State) (good : Bool), s.linkUp p = true →
    good = (decide (4 ≤ w.length) && leAt w (w.length - 4) 4 == (crc32 (w.take (w.length - 4))).toNat) →
    (good = false ∨ 9216 < w.length) →
    ∃ t, exec (.frameReceive p x w) s = .next t ∧ Keeps [.regs] s t ∧
      RegsKept [if good then R.NET_RX_OVERSIZE p else R.NET_RX_FCS p] s t ∧
      (good = false → t.getF (F.NET_RX_FCS_COUNT p) = (s.getF (F.NET_RX_FCS_COUNT p) + 1) % 2 ^ 32) ∧
      (good = true → t.getF (F.NET_RX_OVERSIZE_COUNT p) = (s.getF (F.NET_RX_OVERSIZE_COUNT p) + 1) % 2 ^ 32)) ∧
  (∀ (p : Fin 4) (x : Fin 65536) (b : List Byte) (s : State), s.linkUp p = true → b.length + 4 ≤ 9216 → etherType b ≠ 0x8808 →
    ∃ t, exec (.frameReceive p x (b ++ leBytes 4 (crc32 b).toNat)) s = .next t ∧
      Keeps [.regs, .recq, .ports, .dmfQ, .host, .obs, .freeCtr, .firsts] s t ∧
      (s.isDamuf p b = true → s.dmfUp = true → dmfSized (udpPayload b) = true → s.dmfQ.length < 16 → t.dmfQ = s.dmfQ ++ [(p.val, b)] ∧ t.regs = s.regs) ∧
      (s.isDamuf p b = true → (s.dmfUp = false ∨ dmfSized (udpPayload b) = false ∨ 16 ≤ s.dmfQ.length) → t.dmfQ = s.dmfQ ∧
        t.getF F.NET_DMF_DROP_COUNT = (s.getF F.NET_DMF_DROP_COUNT + 1) % 2 ^ 32) ∧
      (s.isDamuf p b = false → (s.rxEnabled p b = false ∨ s.toPortMac p b = false) → t.obs = s.obs ∧
        t.getF (F.NET_RX_DROP_COUNT p) = (s.getF (F.NET_RX_DROP_COUNT p) + 1) % 2 ^ 32) ∧
      (∀ (f : Nat) (e : RingEntry) (rest : List RingEntry), s.isDamuf p b = false → s.rxEnabled p b = true →
        s.toPortMac p b = true → f = b2n ((s.getF F.HIF_RX_ROUTE_FN).testBit p) → (s.ring f (4 + p)).posted = e :: rest →
        s.ringOn f (4 + p) = true → e.bad = false → b.length ≤ leAt e.desc 8 4 → s.host.fns.length = 2 →
        (s.fn f).rings.length = 10 →
        .hostWrite f (leAt e.desc 0 8) b ∈ t.obs ∧ (t.ring f (4 + p)).posted = rest ∧
        t.getF (F.NET_RX_HOST_COUNT p) = (s.getF (F.NET_RX_HOST_COUNT p) + 1) % 2 ^ 32 ∧
        t.getF (F.HIF_RING_CI_CI f (4 + p)) = (e.idx + 1) % 2 ^ 16)) ∧
  (∀ (f : Fin 2) (p : Fin 4) (x : Fin 65536) (cut : Bool) (s : State), (s.hostHead f p = none ∨ s.linkUp p = false ∨
    (s.port p).sending ≠ none ∨ s.ringOn f p = false) → exec (.hostFrameTransmit f p x cut) s = .next s) ∧
  (∀ (f : Fin 2) (p : Fin 4) (x : Fin 65536) (cut : Bool) (s : State) (h : HostFrame), s.hostHead f p = some h →
    s.linkUp p = true → (s.port p).sending = none → s.ringOn f p = true →
    ∃ t, exec (.hostFrameTransmit f p x cut) s = .next t ∧ Keeps [.regs, .recq, .ports, .host, .obs, .freeCtr] s t ∧
      (h.bad = true → t.getF (F.HIF_RING_STATUS_ERR f p) = 2 ∧ ⟨0, 0x0E04, pw f ++ pw p ++ pw 2, s.tick⟩ ∈ t.recq) ∧
      (h.bad = false → (h.len = 0 ∨ 2048 < h.len) → t.recq = s.recq ∧
        t.getF (F.HIF_RING_CI_CI f p) = (h.idx + 1) % 2 ^ 16 ∧ t.getF (F.NET_TX_HOST_COUNT p) = s.getF (F.NET_TX_HOST_COUNT p)) ∧
      (h.bad = false → 0 < h.len → h.len ≤ 2048 → s.hostTurn p h = false → t = s) ∧
      (h.bad = false → 0 < h.len → h.len ≤ 2048 → s.hostTurn p h = true →
        t.getF (F.HIF_RING_CI_CI f p) = (h.idx + 1) % 2 ^ 16 ∧
        (cut = true → t.getF (F.NET_TX_HOST_COUNT p) = s.getF (F.NET_TX_HOST_COUNT p)) ∧
        (cut = false → t.getF (F.NET_TX_HOST_COUNT p) = (s.getF (F.NET_TX_HOST_COUNT p) + 1) % 2 ^ 32 ∧
          (h.oneStep = false → .frame p (hostWire h.bytes) ∈ t.obs)))) ∧
  (∀ (p : Fin 4) (s : State), s.ports.length = 4 →
    ∃ t, exec (.hostFramePromotion p) s = .next t ∧ Keeps [.ports] s t ∧ (t.port p).hostQ =
      (s.port p).hostQ.map (fun h => if h.since + 500000 ≤ s.tick then { h with promoted := true } else h)) ∧
  (∀ (p : Fin 4) (s : State), (s.port p).ptp.meas = [] → exec (.pdMeasurement p) s = .next s) ∧
  (∀ (p : Fin 4) (s : State) (m : Int) (rest : List Int), (s.port p).ptp.meas = m :: rest → s.ports.length = 4 →
    ∃ t, exec (.pdMeasurement p) s = .next t ∧ Keeps [.regs, .recq, .ports] s t ∧ (t.port p).ptp.meas = rest ∧
      t.getF (F.NET_PD_COUNT_COUNT p) = (s.getF (F.NET_PD_COUNT_COUNT p) + 1) % 2 ^ 32 ∧
      ((s.port p).ptp.run = none → (t.port p).ptp.run = some m ∧ t.recq = s.recq) ∧
      (∀ r, (s.port p).ptp.run = some r → (m - r).natAbs ≤ s.getF (F.NET_PD_THR_THR p) → t.recq = s.recq ∧
        (t.port p).ptp.run = some (r + (m - r).tdiv (2 ^ s.getF (F.NET_PTP_CTRL_AVG p) : Nat)) ∧ (t.port p).ptp.outliers = 0) ∧
      (∀ r, (s.port p).ptp.run = some r → s.getF (F.NET_PD_THR_THR p) < (m - r).natAbs →
        (s.port p).ptp.outliers + 1 < s.getF (F.NET_PTP_CTRL_CONSEC p) → t.recq = s.recq ∧
        (t.port p).ptp.run = some r ∧ (t.port p).ptp.outliers = (s.port p).ptp.outliers + 1) ∧
      (∀ r, (s.port p).ptp.run = some r → s.getF (F.NET_PD_THR_THR p) < (m - r).natAbs →
        s.getF (F.NET_PTP_CTRL_CONSEC p) ≤ (s.port p).ptp.outliers + 1 →
        (t.port p).ptp.run = some m ∧ (t.port p).ptp.outliers = 0 ∧ t.bit F.NET_TS_STATUS_SUSPECT = true ∧
        t.recq = s.recq ++ [⟨0, 0x0D04, pw p ++ psn64 r ++ psn64 m, s.tick⟩] ∧
        t.getF (F.NET_PD_STEPS_COUNT p) = (s.getF (F.NET_PD_STEPS_COUNT p) + 1) % 2 ^ 32)) ∧
  (∀ (id : Ident) (s : State), s.goes id R.NET_TS_STATUS →
    (∃ t, exec (.suspectSet id) s = .next t ∧ Keeps [.regs, .dbg] s t ∧ RegsKept [R.NET_TS_STATUS] s t ∧
      t.bit F.NET_TS_STATUS_SUSPECT = true) ∧
    (∃ t, exec (.suspectAck id) s = .next t ∧ Keeps [.regs, .dbg] s t ∧ RegsKept [R.NET_TS_STATUS] s t ∧
      t.bit F.NET_TS_STATUS_SUSPECT = false ∧ t.getF F.NET_TS_STATUS_SRC = 0))


/-! ### Damuf and updates -/

/-- The Damuf rows (R301, R326-R330, R391-R402): with no request, or no agent, none acts; a request that fails the test is
counted by its first failure and dropped; one that another row serves waits, and so does a
read behind an earlier write of NETM to its block (R342); an accepted one is counted, leaves its SEQ as the
last accepted of its key, has its effect and is answered at the port it came from. READ and WRITE are held to one word of a
plain register. That a row serves the head only where it is of the row's kind is the model's choice (assumption log 20). -/
def Obligations.DamufServes : Prop :=
  (∀ (c : Instr) (s : State), c ∈ damufRows → (s.dmfQ = [] ∨ s.dmfUp = false) → exec c s = .next s) ∧
  (∀ (c : Instr) (s : State) (p : Nat) (b : List Byte) (rest : List (Nat × List Byte)) (w : DmfFail), c ∈ damufRows →
    s.dmfQ = (p, b) :: rest → s.dmfUp = true → s.dmfTest (udpPayload b) = some w →
    ∃ t, exec c s = .next t ∧ Keeps [.regs, .recq, .dmfQ, .freeCtr, .firsts] s t ∧ RegsKept [w.counter.off] s t ∧ t.dmfQ = rest ∧
      t.getF w.counter = (s.getF w.counter + 1) % 2 ^ 32 ∧ (s.firsts.contains w.counter.off = true → t.recq = s.recq) ∧
      (s.firsts.contains w.counter.off = false → ∃ r, t.recq = s.recq ++ [r] ∧ r.typ = 0x0D05)) ∧
  (∀ (c : Instr) (s : State) (p : Nat) (b : List Byte) (rest : List (Nat × List Byte)), c ∈ damufRows → s.dmfQ = (p, b) :: rest →
    s.dmfTest (udpPayload b) = none → s.dmfWaits (udpPayload b) = true → exec c s = .next s) ∧
  (∀ (s : State) (p : Nat) (b : List Byte) (rest : List (Nat × List Byte)) (op x : Nat), s.dmfHead p b rest →
    op = dmfOp (udpPayload b) → x = leAt (udpPayload b) 32 1 →
    (dmfMineRead op x = false → exec .damufRead s = .next s) ∧ (op ≠ 2 → exec .damufWrite s = .next s) ∧
    (op ≠ 3 → exec .damufCaps s = .next s) ∧ ∀ y ∈ damufUpdRows, ¬ (op = 4 ∧ x = y.2) → exec y.1 s = .next s) ∧
  -- READ
  (∀ (s : State) (p : Nat) (b : List Byte) (rest : List (Nat × List Byte)) (off : Nat), s.dmfHead p b rest →
    dmfOp (udpPayload b) = 1 → (dmfBody (udpPayload b)).length = 8 → leAt (dmfBody (udpPayload b)) 0 4 = off →
    leAt (dmfBody (udpPayload b)) 4 2 = 1 → off ∈ [R.PWR_SAVE_GEN, R.PWR_MON_LIMIT, R.CAL_BG_CTRL, R.SNT_CTRL] →
    s.domOn (domainOf off) = true → s.flagged off = false →
    ∃ t, exec .damufRead s = .next t ∧ Keeps [.regs, .dmfQ, .ports, .freeCtr, .dbg] s t ∧
      RegsKept (dmfRegs b) s t ∧ dmfServed s t p b rest ⟨0, 0, wordsLe [s.rd off]⟩) ∧
  (∀ (s : State) (p : Nat) (b : List Byte) (rest : List (Nat × List Byte)) (u : List Byte), s.dmfHead p b rest →
    u = udpPayload b → dmfMineRead (dmfOp u) (leAt u 32 1) = true → dmfOp u ≠ 1 →
    ∃ t, exec .damufRead s = .next t ∧ Keeps [.regs, .dmfQ, .ports, .freeCtr] s t ∧ RegsKept (dmfRegs b) s t ∧
      (dmfOp u ≠ 4 → dmfServed s t p b rest ansBadOp)) ∧
  -- WRITE
  (∀ (s : State) (p : Nat) (b : List Byte) (rest : List (Nat × List Byte)) (off : Nat) (v m : Word), s.dmfHead p b rest →
    dmfOp (udpPayload b) = 2 → (dmfBody (udpPayload b)).length = 12 → leAt (dmfBody (udpPayload b)) 0 4 = off →
    leAt (dmfBody (udpPayload b)) 4 2 = 1 → v = lo32 (leAt (dmfBody (udpPayload b)) 8 4) →
    off ∈ [R.TIME_QUALITY, R.AFE_RUN_CFG, R.CAL_BG_CTRL, R.STR_DRAIN, R.PWR_MON_LIMIT, R.SNT_CTRL] →
    s.goes .netm off → m = accMask .rw off →
    ∃ t, exec .damufWrite s = .next t ∧ Keeps [.regs, .dmfQ, .ports, .freeCtr, .dbg] s t ∧
      RegsKept (off :: dmfRegs b) s t ∧ dmfServed s t p b rest ⟨0, 0, leBytes 4 1⟩ ∧
      (limitsOk off v = true → t.rd off = (s.rd off &&& ~~~m) ||| (v &&& m)) ∧
      (limitsOk off v = false → t.rd off = s.rd off)) ∧
  -- CAPS
  (∀ (s : State) (p : Nat) (b : List Byte) (rest : List (Nat × List Byte)) (i c : Nat), s.dmfHead p b rest →
    dmfOp (udpPayload b) = 3 → (dmfBody (udpPayload b)).length = 4 → leAt (dmfBody (udpPayload b)) 0 1 = i → i < 64 →
    c = s.dmfChoose i (leAt (dmfBody (udpPayload b)) 1 1) →
    ∃ t, exec .damufCaps s = .next t ∧ Keeps [.regs, .dmfQ, .ports, .freeCtr] s t ∧
      RegsKept (R.STR_VER i :: dmfRegs b) s t ∧ t.dmfQ = rest ∧
      (c ≠ 0 → t.getF (F.STR_VER_REQ i) = c) ∧ (c = 0 → t.getF (F.STR_VER_NEG_FAIL i) = 1)) ∧
  -- UPD
  (∀ (s : State) (p : Nat) (b : List Byte) (rest : List (Nat × List Byte)) (body : List Byte), s.dmfHead p b rest →
    dmfOp (udpPayload b) = 4 → body = dmfBody (udpPayload b) → 8 ≤ body.length → body.length ≤ 8192 →
    (leAt (udpPayload b) 32 1 = 1 → body.length = 8 → s.domOn (domainOf R.UPD_SESSION) = true →
      ∃ t, exec .damufOpen s = .next t ∧ Keeps [.regs, .recq, .pwr, .upd, .dmfQ, .ports, .freeCtr, .dbg, .obs] s t ∧ t.dmfQ = rest ∧
        (s.updOwner = 0 → t.updOwner = 3 ∧ t.updSt = if s.jState = 2 then 6 else 1) ∧
        (s.updOwner ≠ 0 → t.updOwner = s.updOwner ∧ t.updSt = s.updSt ∧ t.upd = s.upd)) ∧
    (leAt (udpPayload b) 32 1 = 2 → s.updOwner = 3 →
      ∃ t, exec .damufData s = .next t ∧ Keeps [.regs, .recq, .pwr, .upd, .flash, .mnt, .host, .obs, .dmfQ, .ports, .freeCtr] s t ∧
        t.dmfQ = rest ∧
        (leAt body 4 4 ≠ s.getF F.UPD_OFFSET_NEXT → t.upd = { s.upd with last := s.tick } ∧ t.flash = s.flash) ∧
        (leAt body 4 4 = s.getF F.UPD_OFFSET_NEXT → s.updSt = 1 → s.upd.buf.length + body.length < 4104 →
          t.upd = { s.upd with last := s.tick, buf := s.upd.buf ++ body.drop 8 } ∧
          t.getF F.UPD_OFFSET_NEXT = s.upd.buf.length + (body.length - 8))) ∧
    (leAt (udpPayload b) 32 1 = 3 → body.length = 8 → s.updOwner = 3 →
      ∃ t, exec .damufActivate s = .next t ∧
        Keeps [.regs, .recq, .pwr, .upd, .flash, .mnt, .cal, .reform, .dbg, .setLog, .image, .host, .obs, .dmfQ, .ports, .freeCtr] s t ∧
        t.dmfQ = rest ∧
        (s.updSt = 6 → s.partialImage = none → t.updSt = 7 ∧ t.updOwner = 5 ∧ t.upd.owner = 3)) ∧
    (∀ y ∈ [(Instr.damufAbort, 4), (Instr.damufClose, 8)], leAt (udpPayload b) 32 1 = y.2 → body.length = 8 → s.updOwner = 3 →
      1 ≤ s.updSt → s.updSt ≤ 6 →
      ∃ t, exec y.1 s = .next t ∧ Keeps [.regs, .recq, .pwr, .upd, .mnt, .dmfQ, .ports, .freeCtr] s t ∧ t.dmfQ = rest ∧
        t.updSt = 0 ∧ t.updOwner = 0 ∧ (s.updSt ≠ 6 → t.getF F.UPD_STATUS_ERR = 0x0E)) ∧
    (leAt (udpPayload b) 32 1 = 5 → body.length = 8 →
      ∃ t, exec .damufStatus s = .next t ∧ Keeps [.regs, .dmfQ, .ports, .freeCtr] s t ∧ RegsKept (dmfRegs b) s t ∧
        dmfServed s t p b rest (ansOk (s.updAns 5))) ∧
    (leAt (udpPayload b) 32 1 = 6 → body.length = 8 → s.updSt = 9 →
      ∃ t, exec .damufConfirm s = .next t ∧ Keeps [.regs, .upd, .dmfQ, .ports, .freeCtr] s t ∧ RegsKept (dmfRegs b) s t ∧
        t.dmfQ = rest ∧ t.upd = { s.upd with confirm := true }) ∧
    (leAt (udpPayload b) 32 1 = 7 → body.length = 8 → s.updSt = 9 →
      ∃ t, exec .damufReject s = .next t ∧
        Keeps [.regs, .recq, .pwr, .upd, .flash, .mnt, .cal, .reform, .dbg, .host, .obs, .dmfQ, .ports, .freeCtr] s t ∧ t.dmfQ = rest ∧
        t.updSt = 10 ∧ t.upd.cause = 1) ∧
    (∀ y ∈ [(Instr.damufData, 2), (Instr.damufActivate, 3), (Instr.damufAbort, 4), (Instr.damufClose, 8)],
      leAt (udpPayload b) 32 1 = y.2 → body.length = 8 → s.updOwner ≠ 3 →
      ∃ t, exec y.1 s = .next t ∧ Keeps [.regs, .dmfQ, .ports, .freeCtr] s t ∧ RegsKept (R.HIF_DENY :: dmfRegs b) s t ∧
        dmfServed s t p b rest ⟨4, s.updOwner, s.updAns y.2⟩ ∧
        t.getF F.HIF_DENY_COUNT = (s.getF F.HIF_DENY_COUNT + 1) % 2 ^ 32))

/-- The delivery of an image (R390-R395): a free lock opens a session and the owner's number closes it; any other identity is
refused; container bytes gather to a header and then to sections; a header whose check has a code, a section that fails its
hash twice or its inflation, a write that fails twice, a kept section that fails its hash and a composed image that fails the
check end the session with the code of R390,
a completion error of a DMA read, also of one for a resend, with SOURCE (R392); each passed stage leads to the next, the last carried section to the
copies of the kept ones (R395), and the last stage to STAGED. A write of the journal or of a slot map that fails twice ends the session with
FLASH (assumption log 29). The clauses on the
journal's governing entry hold while its SEQ, 32 bits of R389, has room for one more. -/
def Obligations.UpdateDelivery : Prop :=
  (∀ (id : Ident) (s : State), onBus id = true → s.readsNow id R.UPD_SESSION → s.domOn (domainOf R.UPD_SESSION) = true →
    ∃ t, exec (.updSessionOpen id) s = .next t ∧ Keeps [.regs, .recq, .pwr, .upd, .dbg, .obs] s t ∧
      t.obs = .read id.num R.UPD_SESSION (lo32 s.updOwner) :: s.obs ∧
      (s.updOwner = 0 → t.updOwner = id.num ∧ t.updSt = (if s.jState = 2 then 6 else 1) ∧ t.getF F.UPD_OFFSET_NEXT = 0 ∧
        t.recq = s.recq ++ [⟨id.num, 0x0703, pw id.num ++ pb true, s.tick⟩]) ∧
      (s.updOwner ≠ 0 → t.upd = s.upd ∧ t.regs = s.regs ∧ t.recq = s.recq)) ∧
  (∀ (id : Ident) (v : Word) (s : State), s.goes id R.UPD_SESSION →
    ∃ t, exec (.updSessionClose id v) s = .next t ∧ Keeps [.regs, .recq, .pwr, .upd, .mnt, .dbg] s t ∧
      (s.updOwner ≠ id.num → RegsKept [R.HIF_DENY] s t ∧ t.upd = s.upd ∧
        t.getF F.HIF_DENY_COUNT = (s.getF F.HIF_DENY_COUNT + 1) % 2 ^ 32) ∧
      (s.updOwner = id.num → getBits v 0 4 ≠ id.num → RegsKept [R.MBX_LOCK_ERR] s t ∧ t.upd = s.upd ∧
        t.getF F.MBX_LOCK_ERR_COUNT = (s.getF F.MBX_LOCK_ERR_COUNT + 1) % 2 ^ 32) ∧
      (s.updOwner = id.num → getBits v 0 4 = id.num → t.updOwner = 0 ∧ t.updSt = 0 ∧ t.upd.writes = [] ∧
        t.getF F.UPD_STATUS_ERR = (if s.updSt = 6 then s.getF F.UPD_STATUS_ERR else 0x0E) ∧
        ⟨id.num, 0x0703, pw id.num ++ pb false, s.tick⟩ ∈ t.recq)) ∧
  (∀ (id : Ident) (s : State), s.goes id R.UPD_CTRL →
    ∃ t, exec (.updAbort id) s = .next t ∧ Keeps [.regs, .recq, .pwr, .upd, .mnt, .dbg] s t ∧
      (s.updOwner ≠ id.num → RegsKept [R.HIF_DENY] s t ∧ t.upd = s.upd ∧
        t.getF F.HIF_DENY_COUNT = (s.getF F.HIF_DENY_COUNT + 1) % 2 ^ 32) ∧
      (s.updOwner = id.num → s.updLive = true → t.updOwner = 0 ∧ t.updSt = 0 ∧ t.upd.writes = []) ∧
      (s.updOwner = id.num → s.updLive = false → t.regs = s.regs ∧ t.recq = s.recq)) ∧
  (∀ s : State, (s.updLive = false ∨ s.tick < s.upd.last + s.getF F.UPD_TIMEOUT_SEC * 500000000) →
    exec .updTimeout s = .next s) ∧
  (∀ s : State, s.updLive = true → s.upd.last + s.getF F.UPD_TIMEOUT_SEC * 500000000 ≤ s.tick →
    ∃ t, exec .updTimeout s = .next t ∧ Keeps [.regs, .recq, .pwr, .upd, .mnt] s t ∧ t.updOwner = 0 ∧ t.updSt = 0 ∧
      t.getF F.UPD_STATUS_ERR = (if s.updSt = 6 then s.getF F.UPD_STATUS_ERR else 0x0E)) ∧
  -- START and DATA
  (∀ (id : Ident) (c b : List Byte) (bad : Option Nat) (s : State), s.goes id R.UPD_CTRL → b = c.take (s.getF F.UPD_SRC_LEN_LEN) →
    ∃ t, exec (.updStart id c bad) s = .next t ∧ Keeps [.regs, .recq, .pwr, .upd, .mnt, .flash, .host, .obs, .dbg] s t ∧
      (s.updOwner ≠ id.num → RegsKept [R.HIF_DENY] s t ∧ t.upd = s.upd) ∧
      (s.updOwner = id.num → (id = .netm ∨ id = .dbg ∨ (s.updSt ≠ 1 ∧ s.updSt ≠ 6)) → t.regs = s.regs ∧ t.flash = s.flash) ∧
      (s.updOwner = id.num → (id = .host0 ∨ id = .host1) → (s.updSt = 1 ∨ s.updSt = 6) →
        (∀ n, bad = some n → (b.take n).length < 4096 → t.updFailedWith 0x11) ∧
        (∀ n, bad = some n → 4096 ≤ (b.take n).length → s.flashTakes 2 →
          t.updFailedWith (if s.packageCode (b.take 4096) = 0 then 0x11 else s.packageCode (b.take 4096))) ∧
        (bad = none → b.length < 4096 → t.upd = { s.upd with buf := b, dma := true, last := s.tick } ∧
          t.getF F.UPD_OFFSET_NEXT = b.length) ∧
        (bad = none → 4096 ≤ b.length → t.headerTaken s (b.take 4096)))) ∧
  (∀ (id : Ident) (v : Word) (b : List Byte) (s : State), s.goes id R.UPD_DATA → b = s.upd.buf ++ leBytes 4 v.toNat →
    ∃ t, exec (.updData id v) s = .next t ∧ Keeps [.regs, .recq, .pwr, .upd, .mnt, .flash, .host, .obs, .dbg] s t ∧
      (id = .netm → t.upd = { s.upd with last := s.tick } ∧ t.regs = s.regs) ∧
      (id ≠ .netm → (s.updSt = 1 ∨ s.updSt = 6) → b.length < 4096 →
        t.upd = { s.upd with buf := b, last := s.tick } ∧ t.getF F.UPD_OFFSET_NEXT = b.length) ∧
      (id ≠ .netm → (s.updSt = 1 ∨ s.updSt = 6) → 4096 ≤ b.length → t.headerTaken s (b.take 4096)) ∧
      (∀ e, id ≠ .netm → (s.updSt = 2 ∨ s.updSt = 3) → s.updEnt = some e → t.flash = s.flash ∧
        t.upd.buf = s.upd.buf ++ (leBytes 4 v.toNat).drop (e.off - s.getF F.UPD_OFFSET_NEXT) ∧
        t.getF F.UPD_OFFSET_NEXT = (s.getF F.UPD_OFFSET_NEXT + 4) % 2 ^ 32)) ∧
  -- sections
  (∀ (again : Option (List Byte)) (s : State), (s.updEnt = none ∨ (s.updSt ≠ 2 ∧ s.updSt ≠ 3) ∨ s.laneSt 4 = 2 ∨
    ∃ e, s.updEnt = some e ∧ s.upd.buf.length < e.len) → exec (.sectionComplete again) s = .next s) ∧
  (∀ (again : Option (List Byte)) (e : SecEnt) (s : State), s.updEnt = some e → (s.updSt = 2 ∨ s.updSt = 3) → e.len ≤ s.upd.buf.length →
    s.laneSt 4 ≠ 2 →
    ∃ t, exec (.sectionComplete again) s = .next t ∧
      Keeps [.regs, .recq, .pwr, .upd, .mnt, .flash, .cal, .dbg, .host, .obs, .reform] s t ∧
      (sha384 (s.upd.buf.take e.len) ≠ e.hash → s.upd.resent = true → t.updFailedWith 0x0B) ∧
      (sha384 (s.upd.buf.take e.len) ≠ e.hash → s.upd.resent = false → s.upd.dma = true → again = none → t.updFailedWith 0x11) ∧
      (sha384 (s.upd.buf.take e.len) ≠ e.hash → s.upd.resent = false → (s.upd.dma = true → again ≠ none) → t.updSt = 3 ∧ t.upd.resent = true ∧
        t.upd.idx = s.upd.idx ∧ (s.upd.dma = false → t.upd.buf = [] ∧ t.getF F.UPD_OFFSET_NEXT = e.off % 2 ^ 32)) ∧
      (sha384 (s.upd.buf.take e.len) = e.hash → secInflate (secOf e (s.upd.buf.take e.len)) = none →
        t.updFailedWith 0x0C) ∧
      (sha384 (s.upd.buf.take e.len) = e.hash → (secInflate (secOf e (s.upd.buf.take e.len))).isSome = true →
        t.upd.writes = s.upd.writes ++ [secOf e (s.upd.buf.take e.len)] ∧ t.upd.idx = s.upd.idx + 1 ∧ t.upd.resent = false ∧
        t.updSt = if ((hdrEnts s.upd.hdr)[s.upd.idx + 1]?).isSome then 2 else 4)) ∧
  (∀ (failures : Nat) (s : State), (s.upd.writes = [] ∨ s.runs actImgwrite 0 = false) →
    exec (.sectionWriteDone failures) s = .next s) ∧
  (∀ (failures : Nat) (x : SlotSec) (rest : List SlotSec) (s : State), s.upd.writes = x :: rest → s.runs actImgwrite 0 = true →
    ∃ t, exec (.sectionWriteDone failures) s = .next t ∧
      Keeps [.regs, .recq, .pwr, .upd, .mnt, .flash, .cal, .dbg, .host, .obs, .reform] s t ∧
      (2 ≤ failures → t.updFailedWith 0x0D) ∧
      (failures < 2 → (rest ≠ [] ∨ s.updSt ≠ 4 ∨ s.upd.secs.length + 1 ≠ (hdrEnts s.upd.hdr).length ∨
          s.keptSecs (hdrEnts s.upd.hdr) = []) →
        t.upd.writes = rest ∧ t.upd.secs = s.upd.secs ++ [x] ∧ t.updSt = s.updSt) ∧
      (∀ l, failures < 2 → rest = [] → s.updSt = 4 → s.upd.secs.length + 1 = (hdrEnts s.upd.hdr).length →
        l = s.keptSecs (hdrEnts s.upd.hdr) → l ≠ [] →
        ((∃ y ∈ l, sha384 y.bytes ≠ y.hash) → t.updFailedWith 0x0B) ∧
        ((∀ y ∈ l, sha384 y.bytes = y.hash) → t.upd.writes = l ∧ t.upd.secs = s.upd.secs ++ [x] ∧ t.updSt = 4 ∧
          ∃ a ∈ t.mnt.running ++ t.mnt.waiting, a.a = actImgwrite))) ∧
  (∀ s : State, (s.updSt ≠ 4 ∨ s.upd.writes ≠ [] ∨
      s.upd.secs.length ≠ (hdrEnts s.upd.hdr).length + (s.keptSecs (hdrEnts s.upd.hdr)).length) →
    exec .keptSectionsCopied s = .next s) ∧
  (∀ (s : State) (n : Nat), s.updSt = 4 → s.upd.writes = [] →
    s.upd.secs.length = (hdrEnts s.upd.hdr).length + n → n = (s.keptSecs (hdrEnts s.upd.hdr)).length →
    ∃ t, exec .keptSectionsCopied s = .next t ∧ Keeps [.regs, .recq, .host, .obs, .upd, .flash, .pwr, .mnt] s t ∧
      (¬ s.flashTakes n → t.updFailedWith 0x0B) ∧
      (s.flashTakes n → t.updSt = 5 ∧ t.flash.plan = s.flash.plan.drop n ∧ t.upd = s.upd) ∧
      (s.flashTakes n → (∀ k, k < n → s.flash.plan.getD k 0 = 0) → Keeps [.regs, .flash] s t ∧ RegsKept [R.UPD_STATUS] s t)) ∧
  (∀ s : State, s.updSt ≠ 5 → exec .updCheckDone s = .next s) ∧
  (∀ (x : Slot) (s : State), s.updSt = 5 → x = s.composed → s.flash.slots.length = 2 → s.jOther ∈ [1, 2] →
    ∃ t, exec .updCheckDone s = .next t ∧ Keeps [.regs, .recq, .pwr, .upd, .mnt, .flash, .host, .obs] s t ∧
      ((s.imageCheck x.version x.named).2.2 = none → t.updFailedWith 0x13) ∧
      ((s.imageCheck x.version x.named).2.2.isSome = true → ¬ s.flashTakes 2 → t.updFailedWith 0x0D) ∧
      ((s.imageCheck x.version x.named).2.2.isSome = true → s.flashTakes 2 → t.updSt = 6 ∧ t.updOwner = s.updOwner ∧
        t.slot s.jOther = x ∧ ⟨0, 0x0704, pw s.jOther ++ pw x.version, s.tick⟩ ∈ t.recq ∧
        (s.jNext < 2 ^ 32 → t.jState = 2 ∧ t.jOther = s.jOther ∧ t.jActive = s.jActive)))

/-- The trial of an image, and the settings saves (R381, R396-R405): ACTIVATE in STAGED either takes COEF and NET at once or
passes the lock to UPD and saves first; the save's end writes TRIAL and asks for the re-form, or goes back to STAGED; every
evaluation shows the criteria met and all of them decide; a decided trial commits; REJECT and the end of the window fall
back; CONFIRM and REJECT after the commit are late, and REJECT counts as such (R402, R415). A save writes its half and counts, or after two failures sets SAVE_ERR. The clauses on
the journal's governing entry hold while its SEQ, 32 bits of R389, has room for one more. -/
def Obligations.UpdateTrialAndSaves : Prop :=
  (∀ (id : Ident) (s : State), s.goes id R.UPD_CTRL →
    ∃ t, exec (.updActivate id) s = .next t ∧
      Keeps [.regs, .recq, .pwr, .upd, .flash, .mnt, .cal, .reform, .dbg, .setLog, .image, .freeCtr, .host, .obs] s t ∧
      (s.updOwner ≠ id.num → RegsKept [R.HIF_DENY] s t ∧ t.upd = s.upd ∧
        t.getF F.HIF_DENY_COUNT = (s.getF F.HIF_DENY_COUNT + 1) % 2 ^ 32) ∧
      (s.updOwner = id.num → s.updSt ≠ 6 → t.regs = s.regs ∧ t.flash = s.flash) ∧
      (s.updOwner = id.num → s.updSt = 6 → s.partialImage = none → t.updSt = 7 ∧ t.updOwner = 5 ∧ t.upd.owner = id.num ∧
        ∃ a ∈ t.mnt.running ++ t.mnt.waiting, a.a = actSetsave ∧ 2 ≤ a.tag) ∧
      (s.updOwner = id.num → s.updSt = 6 → s.partialImage.isSome = true → ¬ s.flashTakes 1 → t.updSt = 6 ∧ t.updOwner = s.updOwner ∧
        t.getF F.UPD_STATUS_ERR = 0x0D ∧ t.image = s.image) ∧
      (s.updOwner = id.num → s.updSt = 6 → s.partialImage.isSome = true → s.flashTakes 1 → t.updSt = 0 ∧ t.updOwner = 0 ∧
        t.bit F.UPD_STATUS_PARTIAL_ACT = true ∧ t.structureInUse = s.structureInUse ∧
        (s.jNext < 2 ^ 32 → t.jState = 4 ∧ t.jActive = s.jOther))) ∧
  (∀ (id : Ident) (v : Word) (s : State), s.goes id R.UPD_CTRL →
    ∃ t, exec (.updConfirm id v) s = .next t ∧ Keeps [.regs, .upd, .dbg] s t ∧
      (keyed v = true → s.updSt = 9 → t.regs = s.regs ∧ t.upd = { s.upd with confirm := true }) ∧
      (keyed v = true → s.updSt ≠ 9 → s.updSt ≠ 8 → s.trialPast = true → t.upd = s.upd ∧
        RegsKept [R.UPD_STATUS] s t ∧ t.bit F.UPD_STATUS_LATE = true) ∧
      ((keyed v = false ∨ s.updSt = 8 ∨ (s.updSt ≠ 9 ∧ s.trialPast = false)) → t.regs = s.regs ∧ t.upd = s.upd)) ∧
  (∀ (id : Ident) (v : Word) (s : State), s.goes id R.UPD_CTRL →
    ∃ t, exec (.updReject id v) s = .next t ∧ Keeps [.regs, .recq, .pwr, .upd, .flash, .mnt, .cal, .reform, .dbg, .host, .obs] s t ∧
      (keyed v = true → s.updSt = 9 → t.updSt = 10 ∧ t.upd.cause = 1 ∧ t.bit F.IMG_REFORM_STATUS_PENDING = true) ∧
      (keyed v = true → s.updSt = 8 → t.regs = s.regs ∧ t.upd = { s.upd with reject := true }) ∧
      (keyed v = true → s.updSt ≠ 9 → s.updSt ≠ 8 → s.trialPast = true → t.upd = s.upd ∧
        RegsKept [R.UPD_STATUS, R.MNT_LATE] s t ∧ t.bit F.UPD_STATUS_LATE = true ∧
        t.getF F.MNT_LATE_COUNT = (s.getF F.MNT_LATE_COUNT + 1) % 2 ^ 32) ∧
      ((keyed v = false ∨ (s.updSt ≠ 9 ∧ s.updSt ≠ 8 ∧ s.trialPast = false)) → t.regs = s.regs ∧ t.upd = s.upd)) ∧
  (∀ (n : Nat) (l : List Nat) (s : State), n = s.upd.evals + 1 →
    l = (List.range (healthN s.health)).filter (fun i => s.criterion (healthCrit s.health i)) →
    (¬ (s.updSt = 9 ∧ s.upd.decided = false ∧ s.upd.from0 + n * 500000 ≤ s.tick ∧ n * 500000 ≤ s.windowTicks) →
      exec .healthEvaluation s = .next s) ∧
    (s.updSt = 9 → s.upd.decided = false → s.upd.from0 + n * 500000 ≤ s.tick → n * 500000 ≤ s.windowTicks →
      ∃ t, exec .healthEvaluation s = .next t ∧ Keeps [.regs, .upd] s t ∧ RegsKept [R.UPD_HEALTH] s t ∧
        t.getF F.UPD_HEALTH_MET = maskNat l % 2 ^ 16 ∧
        t.upd = { s.upd with evals := n, decided := l.length == healthN s.health })) ∧
  (∀ s : State, (s.updSt ≠ 9 ∨ s.upd.decided = false) → exec .trialCommit s = .next s) ∧
  (∀ s : State, s.updSt = 9 → s.upd.decided = true →
    ∃ t, exec .trialCommit s = .next t ∧ Keeps [.regs, .recq, .pwr, .upd, .flash, .mnt, .cal, .reform, .dbg, .host, .obs] s t ∧
      (¬ s.flashTakes 1 → t.updSt = 9 ∧ t.updOwner = s.updOwner ∧ t.flash = { s.flash with plan := s.flash.plan.drop 1 }) ∧
      (s.flashTakes 1 → t.updSt = 0 ∧ t.updOwner = 0 ∧ t.bit F.UPD_STATUS_CONFIRMED = true ∧
      (s.jNext < 2 ^ 32 → t.jState = 4 ∧ t.jActive = s.jOther ∧ t.jPre = s.jPre) ∧
      ∃ a ∈ t.mnt.running ++ t.mnt.waiting, a.a = actSetsave ∧ 3 ≤ a.tag)) ∧
  (∀ s : State, ¬ (s.updSt = 9 ∧ s.upd.decided = false ∧ s.upd.from0 + s.windowTicks ≤ s.tick ∧
    s.windowTicks ≤ s.upd.evals * 500000) → exec .healthWindowExpiry s = .next s) ∧
  (∀ s : State, s.updSt = 9 → s.upd.decided = false → s.upd.from0 + s.windowTicks ≤ s.tick →
    s.windowTicks ≤ s.upd.evals * 500000 →
    ∃ t, exec .healthWindowExpiry s = .next t ∧ Keeps [.regs, .recq, .host, .obs, .pwr, .upd, .flash, .mnt, .cal, .reform, .dbg] s t ∧
      t.updSt = 10 ∧ t.upd.cause = 0 ∧ t.bit F.IMG_REFORM_STATUS_PENDING = true ∧
      t.reform.reqs = s.reform.reqs ++ [⟨s.jActive, false, 0, 2⟩]) ∧
  -- saves
  (∀ (id : Ident) (s : State), s.goes id R.PWR_SAVE_CTRL →
    ∃ t, exec (.setsaveSubmit id) s = .next t ∧ Keeps [.regs, .recq, .pwr, .upd, .flash, .mnt, .cal, .reform, .dbg, .host, .obs] s t ∧
      t.bit F.PWR_SAVE_CTRL_SAVE_BUSY = true ∧
      ∃ a ∈ t.mnt.running ++ t.mnt.waiting, a.a = actSetsave ∧ a.tag ≠ 1) ∧
  (∀ s : State, (s.saveTicks = 0 ∨ s.tick < s.pwr.saveFrom + s.saveTicks) → exec .saveIntervalExpiry s = .next s) ∧
  (∀ s : State, s.saveTicks ≠ 0 → s.pwr.saveFrom + s.saveTicks ≤ s.tick →
    ∃ t, exec .saveIntervalExpiry s = .next t ∧ Keeps [.regs, .recq, .pwr, .upd, .flash, .mnt, .cal, .reform, .dbg, .host, .obs] s t ∧
      t.pwr.saveFrom = s.pwr.saveFrom + s.saveTicks ∧ t.bit F.PWR_SAVE_CTRL_SAVE_BUSY = true ∧
      ∃ a ∈ t.mnt.running ++ t.mnt.waiting, a.a = actSetsave ∧ a.tag ≠ 1) ∧
  (∀ (failures : Nat) (s : State), s.runs actSetsave 0 = false → exec (.setsaveCommit failures) s = .next s) ∧
  (∀ (failures : Nat) (x : SetHalf) (s : State), s.runs actSetsave 0 = true → s.saveTag ≠ 1 → s.pwr.snap = some x →
    s.flash.sets.length = 2 → s.pwr.snapTo < 2 →
    ∃ t, exec (.setsaveCommit failures) s = .next t ∧
      Keeps [.regs, .recq, .pwr, .upd, .flash, .mnt, .cal, .reform, .dbg, .host, .obs] s t ∧
      (2 ≤ failures → t.bit F.PWR_SAVE_CTRL_SAVE_ERR = true ∧ t.getF F.PWR_SAVES_COUNT = s.getF F.PWR_SAVES_COUNT ∧
        ⟨0, 0x0103, [], s.tick⟩ ∈ t.recq) ∧
      (failures < 2 → t.setHalf s.pwr.snapTo = x ∧ t.getF F.PWR_SAVE_GEN_GEN = x.gen % 2 ^ 32 ∧
        t.getF F.PWR_SAVES_COUNT = (s.getF F.PWR_SAVES_COUNT + 1) % 2 ^ 32) ∧
      (s.saveTag = 2 → s.updSt = 7 → 2 ≤ failures → t.updSt = 6 ∧ t.getF F.UPD_STATUS_ERR = 0x12 ∧
        t.updOwner = s.upd.owner % 16) ∧
      (s.saveTag = 2 → s.updSt = 7 → failures < 2 → ¬ s.flashTakes 1 → t.updSt = 6 ∧ t.getF F.UPD_STATUS_ERR = 0x0D) ∧
      (s.saveTag = 2 → s.updSt = 7 → failures < 2 → s.flashTakes 1 → t.updSt = 8 ∧ t.bit F.IMG_REFORM_STATUS_PENDING = true ∧
        (s.jNext < 2 ^ 32 → t.jState = 3 ∧ t.jOther = s.jOther ∧ t.jPre = s.pwr.snapTo)))


/-! ### Rings, signals and resets of a function -/

/-- The DMA rings and MSI-X (R337, R350, R355, R362): EN rises for a LOG2 of 4 to 12 and hands over the entries from CI to PI;
falling EN clears ERR and abandons; a PI write hands over the new entries of a working ring, and more than it holds stop it;
the host's CI of the event ring follows its write; a moderated signal goes out, or waits masked; an unmasked vector sends what
was pending; a function level reset leaves rings, vectors, locks and compositions of its function as R337 and R368 say. -/
def Obligations.RingsAndSignals : Prop :=
  (∀ (id : Ident) (f : Fin 2) (r : Fin 10) (v : Word) (es : List RingIn) (s : State) (ci fill : Nat),
    s.goes id (R.HIF_RING_CTRL f r) → s.ports.length = 4 → s.host.fns.length = 2 → (s.fn f).rings.length = 10 →
    ci = s.getF (F.HIF_RING_CI_CI f r) → fill = s.ringFill f r →
    ∃ t, exec (.ringEnable id f r v es) s = .next t ∧
      Keeps [.regs, .recq, .host, .ports, .snt, .freeCtr, .dbg] s t ∧
      ((getBits v 4 4 < 4 ∨ 12 < getBits v 4 4) → t.bit (F.HIF_RING_CTRL_EN f r) = false ∧ (t.ring f r).posted = []) ∧
      (4 ≤ getBits v 4 4 → getBits v 4 4 ≤ 12 → t.rd (R.HIF_RING_CTRL f r) = (v &&& 0xFFFF3FF0#32) ||| 1#32) ∧
      (4 ≤ getBits v 4 4 → getBits v 4 4 ≤ 12 → (s.bit (F.HIF_RING_CTRL_EN f r) = true ∨ r.val = 9) →
        RegsKept [R.HIF_RING_CTRL f r] s t ∧ t.host = s.host ∧ t.recq = s.recq) ∧
      (4 ≤ getBits v 4 4 → getBits v 4 4 ≤ 12 → s.bit (F.HIF_RING_CTRL_EN f r) = false → r.val < 9 →
        2 ^ getBits v 4 4 < fill → t.getF (F.HIF_RING_STATUS_ERR f r) = 1 ∧
          t.recq = s.recq ++ [⟨0, 0x0E04, pw f ++ pw r ++ pw 1, s.tick⟩]) ∧
      (4 ≤ getBits v 4 4 → getBits v 4 4 ≤ 12 → s.bit (F.HIF_RING_CTRL_EN f r) = false → r.val < 9 →
        fill ≤ 2 ^ getBits v 4 4 → RegsKept [R.HIF_RING_CTRL f r] s t ∧ t.recq = s.recq ∧
          (r.val < 4 → (t.port r).hostQ.length = (s.port r).hostQ.length + fill) ∧
          (4 ≤ r.val → (t.ring f r).posted.length = (s.ring f r).posted.length + fill ∧
            ∀ (k : Nat) (e : RingIn), k < fill → es[k]? = some e →
              (t.ring f r).posted[(s.ring f r).posted.length + k]? = some ⟨(ci + k) % 65536, e.desc, e.data, e.bad⟩))) ∧
  (∀ (id : Ident) (f : Fin 2) (r : Fin 10) (v : Word) (s : State), s.goes id (R.HIF_RING_CTRL f r) →
    s.ports.length = 4 → s.host.fns.length = 2 → (s.fn f).rings.length = 10 →
    ∃ t, exec (.ringDisable id f r v) s = .next t ∧ Keeps [.regs, .host, .ports, .snt, .dbg] s t ∧
      (t.ring f r).sigDue = (s.ring f r).sigDue ∧ t.bit (F.HIF_RING_CTRL_EN f r) = false ∧ t.getF (F.HIF_RING_STATUS_ERR f r) = 0 ∧ (t.ring f r).posted = [] ∧
      (t.ring f r).done = [] ∧ (r.val < 4 → ∀ h ∈ (t.port r).hostQ, h.fn ≠ f.val)) ∧
  (∀ (id : Ident) (f : Fin 2) (r : Fin 9) (pi : Word) (es : List RingIn) (s : State) (old new fill n : Nat),
    s.goes id (R.HIF_RING_PI f r) → s.ports.length = 4 → s.host.fns.length = 2 → (s.fn f).rings.length = 10 →
    old = s.getF (F.HIF_RING_PI_PI f r) → new = getBits pi 0 16 → n = (new + 65536 - old) % 65536 →
    fill = (new + 65536 - s.getF (F.HIF_RING_CI_CI f r)) % 65536 →
    ∃ t, exec (.ringPiWrite id f r pi es) s = .next t ∧ Keeps [.regs, .recq, .host, .ports, .pwr, .freeCtr, .dbg, .obs] s t ∧
      t.getF (F.HIF_RING_PI_PI f r) = new ∧
      (s.ringOn f r = false → RegsKept [R.HIF_RING_PI f r] s t ∧ t.host = s.host ∧ t.ports = s.ports) ∧
      (s.ringOn f r = true → s.ringLen f r < fill → t.getF (F.HIF_RING_STATUS_ERR f r) = 1 ∧ t.host = s.host ∧
        t.recq = s.recq ++ [⟨0, 0x0E04, pw f ++ pw r ++ pw 1, s.tick⟩]) ∧
      (s.ringOn f r = true → fill ≤ s.ringLen f r → t.recq = s.recq ∧
        (r.val < 4 → (t.port r).hostQ.length = (s.port r).hostQ.length + n) ∧
        (4 ≤ r.val → (t.ring f r).posted.length = (s.ring f r).posted.length + n ∧
          ∀ (k : Nat) (e : RingIn), k < n → es[k]? = some e →
            (t.ring f r).posted[(s.ring f r).posted.length + k]? = some ⟨(old + k) % 65536, e.desc, e.data, e.bad⟩))) ∧
  (∀ (id : Ident) (f : Fin 2) (ci : Word) (s : State), s.goes id (R.HIF_RING_CI f 9) →
    ∃ t, exec (.eventRingCiWrite id f ci) s = .next t ∧ Keeps [.regs, .dbg] s t ∧ RegsKept [R.HIF_RING_CI f 9] s t ∧
      t.getF (F.HIF_RING_CI_CI f 9) = getBits ci 0 16) ∧
  (∀ (f : Fin 2) (r : Fin 10) (s : State), ((s.ring f r).sigDue = false ∨
    ∃ k, (s.ring f r).lastSig = some k ∧ s.tick < k + 500 * s.getF (F.HIF_RING_CTRL_MOD f r)) →
    exec (.msixModerationExpiry f r) s = .next s) ∧
  (∀ (f : Fin 2) (r : Fin 10) (s : State) (v : Nat), (s.ring f r).sigDue = true →
    (∀ k, (s.ring f r).lastSig = some k → k + 500 * s.getF (F.HIF_RING_CTRL_MOD f r) ≤ s.tick) →
    v = s.getF (F.HIF_RING_CTRL_VEC f r) → s.host.fns.length = 2 → (s.fn f).rings.length = 10 → (s.fn f).msix.length = 64 →
    ∃ t, exec (.msixModerationExpiry f r) s = .next t ∧ Keeps [.host, .obs] s t ∧ (t.ring f r).sigDue = false ∧
      (t.ring f r).lastSig = some s.tick ∧
      ((s.vec f v).masked = false → s.host.linkUp = true → t.obs = .msix f v :: s.obs) ∧
      (((s.vec f v).masked = true ∨ s.host.linkUp = false) → t.obs = s.obs ∧ (t.vec f v).pend = true)) ∧
  (∀ (id : Ident) (f : Fin 2) (v : Fin 64) (s : State) (off : Nat), s.pwr.por = false → off = 0xE8000 + 16 * v.val + 12 →
    s.host.fns.length = 2 → (s.fn f).msix.length = 64 →
    ∃ t, exec (.msixUnmask id f v) s = .next t ∧ Keeps [.regs, .host, .pwr, .obs, .dbg] s t ∧
      (id ≠ fnIdent f → RegsKept [R.HIF_DENY] s t ∧ t.host = s.host ∧
        t.getF F.HIF_DENY_COUNT = (s.getF F.HIF_DENY_COUNT + 1) % 2 ^ 32) ∧
      (id = fnIdent f → s.waits id off = true → t.host = s.host ∧ t.regs = s.regs ∧ t.pwr = { s.pwr with behind := s.pwr.behind ++
        [⟨id, off, (s.vec f v).ctrl &&& 0xFFFFFFFE#32, .write, s.fencing id⟩] }) ∧
      (id = fnIdent f → s.waits id off = false → t.pwr = s.pwr ∧ t.regs = s.regs ∧ (t.vec f v).masked = false ∧
        ((s.vec f v).pend = true → s.host.linkUp = true → t.obs = .msix f v :: s.obs ∧ (t.vec f v).pend = false) ∧
        ((s.vec f v).pend = false → t.obs = s.obs))) ∧
  (∀ (f : Fin 2) (s : State) (i : Nat), i = (fnIdent f).num → s.host.fns.length = 2 → (s.fn f).rings.length = 10 →
    s.ports.length = 4 → s.host.fencePend.length = 9 → s.mbx.inReset.length = 9 → (∀ h ∈ s.pwr.behind, h.ident ≠ fnIdent f) →
    ∃ t, exec (.functionLevelReset f) s = .next t ∧
      Keeps [.regs, .recq, .latches, .host, .ports, .snt, .mbx, .mnt, .pwr, .upd] s t ∧
      (∀ r : Nat, r < 10 → t.bit (F.HIF_RING_CTRL_EN f r) = false ∧ t.getF (F.HIF_RING_PI_PI f r) = 0 ∧
        t.getF (F.HIF_RING_CI_CI f r) = 0 ∧ t.getF (F.HIF_RING_STATUS_ERR f r) = 0 ∧ t.ring f r = Ring.reset) ∧
      (∀ v : Nat, (t.vec f v).masked = true) ∧ t.host.fencePend.getD i none = none ∧ t.mbx.inReset.getD i false = true ∧
      (∀ n : Nat, n < 16 → s.lockOwner n = i → t.lockOwner n = 0 ∧
        t.bit (F.MBX_LOCK_PEEK_RELEASED_BY_RESET n) = true ∧ ⟨0, 0x0303, pw n ++ pw i, s.tick⟩ ∈ t.recq) ∧
      (∀ n : Nat, n < 16 → s.lockOwner n ≠ i → t.rd (R.MBX_LOCK_PEEK n) = s.rd (R.MBX_LOCK_PEEK n)) ∧
      (∀ n : Nat, n < 24 → s.chSt n = 1 → s.composer n = i → t.chSt n = 0 ∧ t.bit (F.MBX_STATUS_DISCARDED n) = true) ∧
      (∀ off, off < 0x800000 → t.latched (fnIdent f) off = 0#32))

/-- Mailbox channels and locks (R357-R371): a hardware agent whose domain is not ON makes no access; one without the right is refused,
counted and recorded; a write waits behind the earlier ones of R342 and R343; the composing end stores words, rings or
abandons, late once the message is POSTED, the receiver acknowledges, and anything else sets BUSY or ORDER_ERR; the other end
is notified the way its identity is, an agent once its domain is ON; a lock is taken by a read and released by its owner's
number; an identity that leaves reset is notified again of what was POSTED to it as it was reset; the link comes up. -/
def Obligations.Mailboxes : Prop :=
  (∀ (id : Ident) (n : Fin 24) (w : Fin 17) (v : Word) (s : State) (c : Instr) (off : Nat),
    (c, off) ∈ [(.mbxComposeWrite id n w v, mbxWordOff n w), (.mbxRing id n, R.MBX_DOORBELL n),
      (.mbxAbandon id n, R.MBX_DOORBELL n), (.mbxAck id n v, R.MBX_DOORBELL n)] →
    (s.canAccess id = false → exec c s = .next s) ∧
    (s.canAccess id = true → s.waits id off = true → ∃ t x, exec c s = .next t ∧ Keeps [.pwr] s t ∧
      t.pwr = { s.pwr with behind := s.pwr.behind ++ [⟨id, off, x, .write, s.fencing id⟩] }) ∧
    (s.canAccess id = true → s.waits id off = false → s.isEnd n id.num = false → ∃ t, exec c s = .next t ∧ Keeps [.regs, .recq] s t ∧
      RegsKept [R.MBX_REFUSED n, R.MBX_ERR_COUNT, R.MBX_STATUS n] s t ∧
      t.getF (F.MBX_REFUSED_COUNT n) = (s.getF (F.MBX_REFUSED_COUNT n) + 1) % 2 ^ 32 ∧
      t.getF F.MBX_ERR_COUNT_COUNT = (s.getF F.MBX_ERR_COUNT_COUNT + 1) % 2 ^ 32 ∧
      t.bit (F.MBX_STATUS_ACC_ERR n) = true ∧ t.chSt n = s.chSt n ∧
      t.recq = s.recq ++ [⟨id.num, 0x0301, pw n ++ pw id.num ++ pw off ++ pb true, s.tick⟩])) ∧
  (∀ (id : Ident) (n : Fin 24) (w : Fin 17) (v : Word) (s : State), s.canAccess id = true →
    s.waits id (mbxWordOff n w) = false → s.isEnd n id.num = true →
    ∃ t, exec (.mbxComposeWrite id n w v) s = .next t ∧ Keeps [.regs, .dbg] s t ∧
      ((s.chSt n = 0 ∨ (s.chSt n = 1 ∧ s.composer n = id.num)) → RegsKept [R.MBX_STATUS n, mbxWordOff n w] s t ∧
        t.chSt n = 1 ∧ t.composer n = id.num ∧ (w.val < 16 → t.rd (R.MBX_PAYLOAD n w) = v) ∧
        (w.val = 16 → t.getF (F.MBX_HEADER_LEN n) = min 16 (getBits v 0 5) ∧ t.getF (F.MBX_HEADER_CODE n) = getBits v 16 16)) ∧
      (¬ (s.chSt n = 0 ∨ (s.chSt n = 1 ∧ s.composer n = id.num)) → RegsKept [R.MBX_STATUS n] s t ∧
        t.chSt n = s.chSt n ∧ t.bit (F.MBX_STATUS_BUSY n) = true)) ∧
  (∀ (id : Ident) (n : Fin 24) (s : State) (o : Nat), s.canAccess id = true → s.waits id (R.MBX_DOORBELL n) = false →
    s.isEnd n id.num = true → o = s.otherEnd n id.num →
    ∃ t, exec (.mbxRing id n) s = .next t ∧ Keeps [.regs, .recq, .host, .mbx, .pwr, .obs, .dbg] s t ∧
      (s.chSt n = 1 → s.composer n = id.num → t.chSt n = 2 ∧ t.getF (F.MBX_HEADER_SENDER n) = id.num ∧
        ((o = 3 ∨ o = 4) →
          ⟨id.num, 0x0302, pw n ++ pw id.num ++ pw o ++ pw (s.getF (F.MBX_HEADER_CODE n)), s.tick⟩ ∈ t.recq) ∧
        (∀ x, (o = 1 ∨ o = 2) → s.host.linkUp = true →
          x = (if s.endA n = o then s.getF (F.MBX_CH_CTRL_VEC_A n) else s.getF (F.MBX_CH_CTRL_VEC_B n)) →
          (s.vec (o - 1) x).masked = false → t.obs = .msix (o - 1) x :: s.obs) ∧
        (5 ≤ o → o ≤ 8 → (s.domOn (agentDom o) = true → s.mbx.inReset.getD o false = false → t.obs = .signal o n :: s.obs) ∧
          (s.mbx.inReset.getD o false = true → (o, n.val) ∈ t.mbx.sigs) ∧
          (s.domOn (agentDom o) = false → s.pwr.fellAt.getD (agentDom o) none ≠ some s.tick →
            (o, n.val) ∈ t.mbx.sigs ∧ agentDom o ∈ t.pwr.waking))) ∧
      (¬ (s.chSt n = 1 ∧ s.composer n = id.num) → RegsKept [R.MBX_STATUS n] s t ∧ t.chSt n = s.chSt n ∧
        t.bit (F.MBX_STATUS_ORDER_ERR n) = true ∧ t.recq = s.recq ∧ t.obs = s.obs)) ∧
  (∀ (id : Ident) (n : Fin 24) (s : State), s.canAccess id = true → s.waits id (R.MBX_DOORBELL n) = false →
    s.isEnd n id.num = true →
    ∃ t, exec (.mbxAbandon id n) s = .next t ∧ Keeps [.regs, .dbg] s t ∧ RegsKept [R.MBX_STATUS n, R.MNT_LATE] s t ∧
      (s.chSt n = 1 → s.composer n = id.num → t.chSt n = 0 ∧ t.composer n = 0) ∧
      (¬ (s.chSt n = 1 ∧ s.composer n = id.num) → t.chSt n = s.chSt n ∧ t.bit (F.MBX_STATUS_ORDER_ERR n) = true) ∧
      t.getF F.MNT_LATE_COUNT = (s.getF F.MNT_LATE_COUNT + if s.chSt n = 2 ∧ s.composer n = id.num then 1 else 0) % 2 ^ 32) ∧
  (∀ (id : Ident) (n : Fin 24) (x : Word) (s : State) (snd : Nat), s.canAccess id = true →
    s.waits id (R.MBX_DOORBELL n) = false → s.isEnd n id.num = true → snd = s.composer n →
    ∃ t, exec (.mbxAck id n x) s = .next t ∧ Keeps [.regs, .recq, .host, .mbx, .pwr, .obs, .dbg] s t ∧
      (s.chSt n = 2 → snd ≠ id.num → t.chSt n = 0 ∧ t.composer n = 0 ∧
        t.getF (F.MBX_STATUS_RESULT n) = ackResult id (getBits x 0 8) ∧
        (s.mbx.inReset.getD snd false = true → t.mbx.acks = s.mbx.acks ++ [(n.val, snd, id.num)]) ∧
        (s.mbx.inReset.getD snd false = false → (snd = 3 ∨ snd = 4) → ∃ r ∈ t.recq, r.ident = id.num ∧ r.typ = 0x0302)) ∧
      ((s.chSt n ≠ 2 ∨ snd = id.num) → RegsKept [R.MBX_STATUS n] s t ∧ t.chSt n = s.chSt n ∧
        t.bit (F.MBX_STATUS_ORDER_ERR n) = true ∧ t.recq = s.recq)) ∧
  (∀ (id : Ident) (n : Fin 16) (s : State), s.canAccess id = true → s.readWaits id (R.MBX_LOCK n) = false →
    ∃ t, exec (.lockRead id n) s = .next t ∧ Keeps [.regs, .obs, .dbg] s t ∧ RegsKept [R.MBX_LOCK_PEEK n] s t ∧
      (s.lockOwner n = 0 → t.lockOwner n = id.num ∧ t.bit (F.MBX_LOCK_PEEK_RELEASED_BY_RESET n) = false ∧
        t.obs = .read id.num (R.MBX_LOCK n) (s.rd (R.MBX_LOCK_PEEK n)) :: s.obs) ∧
      (s.lockOwner n ≠ 0 → t.regs = s.regs ∧ t.obs = .read id.num (R.MBX_LOCK n) (lo32 (s.lockOwner n)) :: s.obs)) ∧
  (∀ (id : Ident) (n : Fin 16) (v : Word) (s : State), s.canAccess id = true → s.waits id (R.MBX_LOCK n) = false →
    ∃ t, exec (.lockRelease id n v) s = .next t ∧ Keeps [.regs, .dbg] s t ∧
      (s.lockOwner n = id.num → getBits v 0 4 = id.num → RegsKept [R.MBX_LOCK_PEEK n] s t ∧ t.lockOwner n = 0) ∧
      (¬ (s.lockOwner n = id.num ∧ getBits v 0 4 = id.num) → RegsKept [R.MBX_LOCK_ERR] s t ∧
        t.getF F.MBX_LOCK_ERR_COUNT = (s.getF F.MBX_LOCK_ERR_COUNT + 1) % 2 ^ 32)) ∧
  (∀ (id : Ident) (s : State), (s.mayLeave id = false ∨ s.mbx.inReset.getD id.num false = false) →
    exec (.identityLeavesReset id) s = .next s) ∧
  (∀ (id : Ident) (s : State), s.mayLeave id = true → s.mbx.inReset.getD id.num false = true →
    ∃ t, exec (.identityLeavesReset id) s = .next t ∧ Keeps [.regs, .recq, .host, .mbx, .pwr, .obs] s t ∧
      t.mbx.inReset.getD id.num false = false ∧ t.mbx.acks = s.mbx.acks.filter (fun x => x.2.1 != id.num) ∧
      t.mbx.left = s.mbx.left.filter (fun x => x.1 != id.num) ∧
      ∀ n : Nat, n < 24 → t.bit (F.MBX_STATUS_RERING n) = (s.bit (F.MBX_STATUS_RERING n) || decide ((id.num, n) ∈ s.mbx.left ∧
        s.chSt n = 2 ∧ s.isEnd n id.num = true ∧ s.composer n ≠ id.num))) ∧
  (∀ s : State, (s.host.linkUp = true ∨ s.pwr.por = true) → exec .pcieLinkUp s = .next s) ∧
  (∀ s : State, s.host.linkUp = false → s.pwr.por = false →
    ∃ t, exec .pcieLinkUp s = .next t ∧ Keeps [.regs, .recq, .host, .mbx, .pwr, .obs, .freeCtr] s t ∧ t.host.linkUp = true ∧
      t.domState 11 = 2 ∧
      (1 ≤ t.getF F.HIF_LINK_SPEED ∧ t.getF F.HIF_LINK_SPEED ≤ 5) ∧ t.getF F.HIF_LINK_WIDTH ∈ [1, 2, 4, 8] ∧ t.mbx.inReset.getD 1 false = false ∧ t.mbx.inReset.getD 2 false = false ∧
      ∀ f v : Nat, f < 2 → v < 64 → (s.vec f v).pend = true → (s.vec f v).masked = false → .msix f v ∈ t.obs)


/-! ### The debug port -/

/-- The test access port and the debug access unit (R422-R432): what each TAP instruction shifts out and loads; a locked unit
captures DENIED, an open one runs its access as DBG; a challenge, a response and the verification's end; a halt is requested,
freezes when due, resumes and steps; a breakpoint match is counted, recorded and may halt. -/
def Obligations.DebugPort : Prop :=
  (∀ s : State, s.mbx.inReset.length = 9 →
    ∃ t, exec .tapReset s = .next t ∧ Keeps [.regs, .recq, .latches, .mbx, .mnt, .pwr, .upd, .dbg, .obs] s t ∧
      t.dbg = { s.dbg with ir := 0x01, tlr := true } ∧ (s.dbg.ir ≠ 0 → t.obs = s.obs) ∧
      (s.dbg.ir = 0 → ∀ p ∈ fnPins, ∃ v x, .pin p v x 0 ∈ t.obs) ∧ t.bit F.DBG_STATUS_UNLOCKED = s.bit F.DBG_STATUS_UNLOCKED ∧
      t.mbx.inReset.getD 4 false = true ∧ ∀ n : Nat, n < 16 → s.lockOwner n = 4 → t.lockOwner n = 0) ∧
  (∀ (l : List Bool) (s : State),
    ∃ t back, exec (.bypass l) s = .next t ∧ Keeps [.dbg, .obs] s t ∧ t.dbg = { s.dbg with ir := 0xFF, tlr := false } ∧
      (s.dbg.ir ≠ 0 → back = []) ∧ (s.dbg.ir = 0 → ∀ p ∈ fnPins, ∃ v x, .pin p v x 0 ∈ back) ∧
      t.obs = .tdo ((false :: l).take l.length) :: .tdo (bitsLsb 8 1) :: (back ++ s.obs)) ∧
  (∀ s : State,
    ∃ t back, exec .idcode s = .next t ∧ Keeps [.dbg, .obs] s t ∧ t.dbg = { s.dbg with ir := 0x01, tlr := false } ∧
      (s.dbg.ir ≠ 0 → back = []) ∧ (s.dbg.ir = 0 → ∀ p ∈ fnPins, ∃ v x, .pin p v x 0 ∈ back) ∧
      t.obs = .tdo (bitsLsb 32 (idcodeOf Config.stepping)) :: .tdo (bitsLsb 8 1) :: (back ++ s.obs)) ∧
  (∀ (l : List Bool) (s : State),
    ∃ t cap back, exec (.samplePreload l) s = .next t ∧ Keeps [.dbg, .obs, .freeCtr] s t ∧ cap.length = Config.scanLength ∧
      (∀ (k : Nat) (p : Pin), k < Config.scanLength → ballPin k = some p → cap[k]? = some (s.pinLevel p)) ∧
      t.dbg = { s.dbg with ir := 0x02, tlr := false, chain := (cap ++ l).drop l.length } ∧
      (s.dbg.ir ≠ 0 → back = []) ∧ (s.dbg.ir = 0 → ∀ p ∈ fnPins, ∃ v x, .pin p v x 0 ∈ back) ∧
      t.obs = .tdo ((cap ++ l).take l.length) :: .tdo (bitsLsb 8 1) :: (back ++ s.obs)) ∧
  (∀ (l : List Bool) (s : State), s.runSt = 0 →
    ∃ t cap, exec (.extest l) s = .next t ∧ Keeps [.dbg, .obs, .freeCtr] s t ∧ cap.length = Config.scanLength ∧
      t.dbg = { s.dbg with ir := 0x00, tlr := false, chain := (cap ++ l).drop l.length } ∧
      (∀ (k : Nat) (p : Pin) (b : Bool), k < Config.scanLength → ballPin k = some p → s.dbg.chain[k]? = some b →
        cap[k]? = some b) ∧
      (s.dbg.ir ≠ 0 → ∀ (k : Nat) (b : Bool), s.dbg.chain[k]? = some b →
        .pin ((ballPin k).getD .scanChain) b s.tick k ∈ t.obs) ∧
      ∀ (k : Nat) (b : Bool), t.dbg.chain[k]? = some b → .pin ((ballPin k).getD .scanChain) b s.tick k ∈ t.obs) ∧
  (∀ (l : List Bool) (s : State), s.runSt ≠ 0 →
    ∃ t, exec (.extest l) s = .next t ∧ Keeps [.regs, .dbg, .obs] s t ∧ RegsKept [R.DBG_STATUS] s t ∧
      t.bit F.DBG_STATUS_REFUSED = true ∧ t.dbg = { s.dbg with ir := 0xFF, tlr := false }) ∧
  -- DAU_ACCESS
  (∀ (w : Nat) (s : State), s.dbgLocked = true →
    ∃ t, exec (.dauAccess w) s = .next t ∧ Keeps [.dbg, .obs] s t ∧
      t.dbg = { s.dbg with ir := 0x20, tlr := false, dr := w % 2 ^ 61, busy := false } ∧
      (s.dbg.ir ≠ 0 → t.obs = .tdo (bitsLsb 64 (s.dbg.dr % 2 ^ 61 + 2 ^ 61)) :: .tdo (bitsLsb 8 1) :: s.obs)) ∧
  (∀ (w off : Nat) (s : State), s.dbgLocked = false → s.dbg.busy = false → off = w / 2 ^ 32 % 2 ^ 27 →
    w.testBit 59 = false →
    (off % 4 ≠ 0 → ∃ t, exec (.dauAccess w) s = .next t ∧ Keeps [.regs, .dbg, .obs, .freeCtr] s t ∧
      RegsKept [R.HIF_BAD_REQ] s t ∧ t.dbg.dr / 2 ^ 61 = 1 ∧
      t.getF F.HIF_BAD_REQ_COUNT = (s.getF F.HIF_BAD_REQ_COUNT + 1) % 2 ^ 32) ∧
    (w.testBit 60 = false → off ∈ [R.PWR_SAVE_GEN, R.PWR_MON_LIMIT, R.CAL_BG_CTRL, R.SNT_CTRL] →
      (s.readWaits .dbg off = true → ∃ t, exec (.dauAccess w) s = .next t ∧ Keeps [.dbg, .obs, .pwr] s t ∧
        t.dbg.dr = w % 2 ^ 61 ∧ t.dbg.busy = true ∧
        ∃ h ∈ t.pwr.held ++ t.pwr.behind, h.ident = .dbg ∧ h.off = off ∧ h.kind = .dau) ∧
      (s.readWaits .dbg off = false → s.domOn (domainOf off) = true → s.flagged off = false →
      ∃ t, exec (.dauAccess w) s = .next t ∧ Keeps [.dbg, .obs] s t ∧
        t.dbg.dr = (s.rd off).toNat + w / 2 ^ 32 % 2 ^ 29 * 2 ^ 32 ∧ t.dbg.busy = true ∧
        (s.dbg.ir ≠ 0 → t.obs = .tdo (bitsLsb 64 s.dbg.dr) :: .tdo (bitsLsb 8 1) :: s.obs))) ∧
    (∀ m, w.testBit 60 = true → off ∈ [R.TIME_QUALITY, R.AFE_RUN_CFG, R.CAL_BG_CTRL, R.STR_DRAIN, R.PWR_MON_LIMIT, R.SNT_CTRL] →
      s.goes .dbg off → m = accMask .rw off → limitsOk off (lo32 w) = true →
      ∃ t, exec (.dauAccess w) s = .next t ∧ Keeps [.regs, .dbg, .obs, .freeCtr] s t ∧ RegsKept [off] s t ∧
        t.rd off = (s.rd off &&& ~~~m) ||| (lo32 w &&& m) ∧ t.dbg.dr / 2 ^ 61 = 0 ∧ t.dbg.busy = true)) ∧
  -- unlock
  (∀ s : State,
    ∃ t c, exec .unlockChal s = .next t ∧ Keeps [.dbg, .obs, .freeCtr] s t ∧ c < 2 ^ 64 ∧
      t.dbg = { s.dbg with ir := 0x21, tlr := false, chal := some c } ∧
      (s.dbg.ir ≠ 0 → t.obs = .tdo (bitsLsb 64 c) :: .tdo (bitsLsb 8 1) :: s.obs)) ∧
  (∀ (key sig : List Byte) (s : State),
    ∃ t, exec (.unlockResp key sig) s = .next t ∧ Keeps [.dbg, .obs] s t ∧
      t.dbg = { s.dbg with ir := 0x22, tlr := false, chal := none, verify := s.dbg.verify ++ [respOk s.dbg.chal key sig] }) ∧
  (∀ s : State, s.dbg.verify = [] → exec .debugUnlock s = .next s) ∧
  (∀ (ok : Bool) (rest : List Bool) (s : State), s.dbg.verify = ok :: rest →
    ∃ t, exec .debugUnlock s = .next t ∧ Keeps [.regs, .recq, .dbg] s t ∧ RegsKept [R.DBG_STATUS] s t ∧
      t.dbg = { s.dbg with verify := rest } ∧
      (8 ≤ s.getF F.DBG_STATUS_UNLOCK_FAILS → t.regs = s.regs ∧ t.recq = s.recq ++ [⟨0, 0x0604, pw 2, s.tick⟩]) ∧
      (s.getF F.DBG_STATUS_UNLOCK_FAILS < 8 → ok = true → t.bit F.DBG_STATUS_UNLOCKED = true ∧
        t.recq = s.recq ++ [⟨0, 0x0604, pw 0, s.tick⟩]) ∧
      (s.getF F.DBG_STATUS_UNLOCK_FAILS < 8 → ok = false → t.bit F.DBG_STATUS_UNLOCKED = s.bit F.DBG_STATUS_UNLOCKED ∧
        t.getF F.DBG_STATUS_UNLOCK_FAILS = s.getF F.DBG_STATUS_UNLOCK_FAILS + 1 ∧ t.recq = s.recq ++ [⟨0, 0x0604, pw 1, s.tick⟩])) ∧
  -- halt, resume, step, relock
  (∀ (id : Ident) (s : State) (c : Instr), s.goes id R.DBG_CTRL → s.dbgLocked = true →
    c ∈ [.haltRequest id, .dbgResume id, .dbgStep id, .relock id] →
    ∃ t, exec c s = .next t ∧ Keeps [.dbg] s t) ∧
  (∀ (id : Ident) (s : State), s.goes id R.DBG_CTRL → s.dbgLocked = false → s.getF F.DBG_CTRL_STEP_COUNT ≠ 0 →
    (∃ t, exec (.haltRequest id) s = .next t ∧ Keeps [.regs, .recq, .dbg, .mnt, .cal, .flash, .pwr, .reform, .host, .obs, .upd] s t ∧
      (s.dbgSt = 0 → t.dbgSt = 1 ∧ t.dbg.reqs = 0 ∧ t.dbg.at_ = none ∧
        ∃ a ∈ t.mnt.running ++ t.mnt.waiting, a.a = actDbghalt) ∧
      (s.dbgSt ≠ 0 → t.dbgSt = s.dbgSt ∧ t.mnt = s.mnt)) ∧
    (∃ t, exec (.dbgResume id) s = .next t ∧
      Keeps [.regs, .recq, .dbg, .mnt, .cal, .flash, .reform, .host, .obs, .path, .pwr, .setLog, .shadows, .strs, .trg, .upd,
        .freeCtr] s t ∧
      (s.halted = true → t.dbgSt = 0 ∧ t.mnt.running = dropAct actDbghalt 0 s.mnt.running ∧ t.run = s.run ∧
        ⟨0, 0x0602, psn (s.snOr1 s.run.next), s.tick⟩ ∈ t.recq) ∧
      (s.halted = false → RegsKept [R.DBG_CTRL, R.DBG_STATUS] s t ∧ t.bit F.DBG_STATUS_REFUSED = true ∧ t.mnt = s.mnt ∧
        t.dbgSt = s.dbgSt)) ∧
    (∃ t, exec (.dbgStep id) s = .next t ∧ Keeps [.regs, .dbg] s t ∧ RegsKept [R.DBG_CTRL, R.DBG_STATUS] s t ∧
      (s.dbgSt = 2 → t.dbgSt = 3 ∧
        t.dbg.steps = s.getF F.DBG_CTRL_STEP_COUNT) ∧
      (s.dbgSt ≠ 2 → t.dbgSt = s.dbgSt ∧ t.bit F.DBG_STATUS_REFUSED = true)) ∧
    (∃ t, exec (.relock id) s = .next t ∧ Keeps [.regs, .dbg] s t ∧ RegsKept [R.DBG_CTRL, R.DBG_STATUS] s t ∧
      t.bit F.DBG_STATUS_UNLOCKED = false)) ∧
  (∀ s : State, ¬ (s.dbgSt = 1 ∧ s.dbg.ready = true ∧ s.haltDue = true) → exec .haltFreeze s = .next s) ∧
  (∀ s : State, s.dbgSt = 1 → s.dbg.ready = true → s.haltDue = true →
    ∃ t, exec .haltFreeze s = .next t ∧ Keeps [.regs, .recq, .dbg, .mnt, .cal, .mem, .path, .trg] s t ∧ t.dbgSt = 2 ∧
      (t.dbg.spans = if s.run.running = true ∧ s.runSt = 3 ∧ 0 < s.run.next then (s.run.next, none) :: s.dbg.spans
        else s.dbg.spans) ∧
      t.getF F.DBG_HALTS_COUNT = (s.getF F.DBG_HALTS_COUNT + 1) % 2 ^ 32 ∧
      t.rd64 R.DBG_HALT_SN_LO R.DBG_HALT_SN_HI = s.snOr1 s.run.next % 2 ^ 64 ∧
      ⟨0, 0x0601, psn (s.snOr1 s.run.next) ++ pb (s.dbg.reqs != 0) ++ pw s.dbg.reqs, s.tick⟩ ∈ t.recq) ∧
  (∀ s : State, (s.dbgSt ≠ 3 ∨ s.dbg.steps ≠ 0) → exec .dbgStepDone s = .next s) ∧
  (∀ s : State, s.dbgSt = 3 → s.dbg.steps = 0 →
    ∃ t, exec .dbgStepDone s = .next t ∧ Keeps [.regs] s t ∧ RegsKept [R.DBG_STATUS] s t ∧ t.dbgSt = 2) ∧
  -- breakpoints
  (∀ (n : Fin 8) (s : State), takeHit n s.dbg.hits = none → exec (.breakpointMatch n) s = .next s) ∧
  (∀ (n : Fin 8) (h : BpHit) (rest : List BpHit) (s : State), takeHit n s.dbg.hits = some (h, rest) →
    ∃ t, exec (.breakpointMatch n) s = .next t ∧ Keeps [.regs, .recq, .dbg, .mnt, .cal, .flash, .pwr, .reform, .host, .obs, .upd] s t ∧
      t.dbg.hits = rest ∧ t.getF (F.DBG_BP_COUNT_COUNT n) = (s.getF (F.DBG_BP_COUNT_COUNT n) + 1) % 2 ^ 32 ∧
      t.bit ⟨R.DBG_STATUS, 8 + n, 1⟩ = true ∧ ⟨0, 0x0603, pw n ++ psn h.val, s.tick⟩ ∈ t.recq ∧
      (s.bit (F.DBG_BP_CTRL_ACTION n) = false → t.dbgSt = s.dbgSt ∧ t.mnt = s.mnt) ∧
      (s.bit (F.DBG_BP_CTRL_ACTION n) = true → s.dbgSt = 0 → t.dbgSt = 1 ∧ t.dbg.reqs = 2 ^ n.val ∧ t.dbg.at_ = h.at_))
end

