-- ==== Sys2Proof/Laws/Maps.lean ====
section
/-!
SUPPORT. Laws/Maps.lean: reads after writes of sparse maps and lists, and the canonical form that every write keeps.
-/

namespace Sys2Proof.Machine

variable {β : Type}

/-- What was written is read back. -/
theorem SMap.get_set_same [DecidableEq β] (d : β) (l : List (Nat × β)) (k : Nat) (v : β) :
    SMap.get d (SMap.set d l k v) k = v := by
  induction l with
  | nil => by_cases h : v = d <;> simp [SMap.set, SMap.get, h]
  | cons e t ih =>
    obtain ⟨k', v'⟩ := e
    unfold SMap.set
    split
    · split
      · exact ih
      · rename_i h; simp [SMap.get, h, ih]
    · split
      · simp [SMap.get]
      · split
        · simp [SMap.get]
        · rename_i h; simp [SMap.get, h, ih]

/-- A write leaves every other key alone. -/
theorem SMap.get_set_other [DecidableEq β] (d : β) (l : List (Nat × β)) (k j : Nat) (v : β) (h : j ≠ k) :
    SMap.get d (SMap.set d l k v) j = SMap.get d l j := by
  induction l with
  | nil => by_cases hv : v = d <;> simp [SMap.set, SMap.get, hv, h]
  | cons e t ih =>
    obtain ⟨k', v'⟩ := e
    unfold SMap.set
    split
    · split
      · rename_i heq; subst heq; simp [SMap.get, h, ih]
      · by_cases hj : j = k' <;> simp [SMap.get, hj, ih]
    · split
      · simp [SMap.get, h]
      · split
        · rename_i heq; subst heq; simp [SMap.get, h]
        · by_cases hj : j = k' <;> simp [SMap.get, hj, ih]

theorem SMap.above_set [DecidableEq β] (d : β) (l : List (Nat × β)) (lo k : Nat) (v : β) :
    lo < k → SMap.above lo l = true → SMap.above lo (SMap.set d l k v) = true := by
  intro hk
  induction l with
  | nil => intro _; by_cases hv : v = d <;> simp [SMap.set, SMap.above, hv, hk]
  | cons e t ih =>
    obtain ⟨k', v'⟩ := e
    intro h
    simp only [SMap.above, Bool.and_eq_true, decide_eq_true_eq] at h
    unfold SMap.set
    split
    · split
      · exact ih h.2
      · simp [SMap.above, h.1, ih h.2]
    · split
      · simp [SMap.above, h, hk]
      · split
        · simp [SMap.above, h, hk]
        · simp [SMap.above, h.1, ih h.2]

theorem SMap.above_mono (lo hi : Nat) (l : List (Nat × β)) : lo ≤ hi → SMap.above hi l = true → SMap.above lo l = true := by
  intro hle
  induction l with
  | nil => intro _; rfl
  | cons e t ih =>
    intro h
    simp only [SMap.above, Bool.and_eq_true, decide_eq_true_eq] at h ⊢
    exact ⟨by omega, ih h.2⟩

/-- Writing the default, what lies above a bound stays above it. -/
theorem SMap.above_erase [DecidableEq β] (d : β) (l : List (Nat × β)) (lo k : Nat) :
    SMap.above lo l = true → SMap.above lo (SMap.set d l k d) = true := by
  induction l with
  | nil => intro _; simp [SMap.set, SMap.above]
  | cons e t ih =>
    intro h
    simp only [SMap.above, Bool.and_eq_true, decide_eq_true_eq] at h
    unfold SMap.set
    simp only [if_true]
    split
    · exact ih h.2
    · simp [SMap.above, h.1, ih h.2]

/-- A write keeps the canonical form. -/
theorem SMap.set_wf [DecidableEq β] (d : β) (l : List (Nat × β)) (k : Nat) (v : β) :
    SMap.wf d l = true → SMap.wf d (SMap.set d l k v) = true := by
  induction l with
  | nil => intro _; by_cases hv : v = d <;> simp [SMap.set, SMap.wf, SMap.above, hv]
  | cons e t ih =>
    obtain ⟨k', v'⟩ := e
    intro h
    simp only [SMap.wf, Bool.and_eq_true, decide_eq_true_eq] at h
    obtain ⟨⟨h1, h2⟩, h3⟩ := h
    unfold SMap.set
    split
    · rename_i hv
      split
      · exact ih h3
      · subst hv; simp [SMap.wf, h1, ih h3, SMap.above_erase v t k' k h2]
    · rename_i hv
      split
      · rename_i hlt
        simp [SMap.wf, SMap.above, h1, h2, h3, hv, hlt, SMap.above_mono k k' t (by omega) h2]
      · split
        · rename_i _ heq; subst heq; simp [SMap.wf, h2, h3, hv]
        · rename_i hge hne
          simp [SMap.wf, h1, ih h3, SMap.above_set d t k' k v (by omega) h2]

/-! ### Lists -/

@[simp] theorem updAt_length {α : Type} (f : α → α) (l : List α) (i : Nat) : (updAt f l i).length = l.length := by
  induction l generalizing i with
  | nil => rfl
  | cons a t ih => cases i <;> simp [updAt, ih]

/-- The entry changed. -/
theorem updAt_get_same {α : Type} (f : α → α) (l : List α) (i : Nat) (d : α) (h : i < l.length) :
    (updAt f l i).getD i d = f (l.getD i d) := by
  induction l generalizing i with
  | nil => simp at h
  | cons a t ih =>
    cases i with
    | zero => simp [updAt]
    | succ n => simpa [updAt] using ih n (by simpa using h)

/-- The others are not. -/
theorem updAt_get_other {α : Type} (f : α → α) (l : List α) (i j : Nat) (d : α) (h : j ≠ i) :
    (updAt f l i).getD j d = l.getD j d := by
  induction l generalizing i j with
  | nil => simp [updAt]
  | cons a t ih =>
    cases i with
    | zero => cases j with
      | zero => exact absurd rfl h
      | succ m => simp [updAt]
    | succ n => cases j with
      | zero => simp [updAt]
      | succ m => simpa [updAt] using ih n m (by omega)

end Sys2Proof.Machine
end

