-- ==== Sys2Proof/Laws/Reg.lean ====
section
/-!
SUPPORT. Laws/Reg.lean: reads after writes of registers and fields, and what the plain operations of Ops leave alone.
-/

namespace Sys2Proof.Machine

/-! ### Bits of a word -/

theorem digit_lt {m b p q : Nat} (hm : m < q) (hb : b < p) : m * p + b < q * p := by
  have h : (m + 1) * p ≤ q * p := Nat.mul_le_mul_right p hm
  have e : (m + 1) * p = m * p + p := by ring
  omega

theorem setBits_split (w : Word) (lo width n : Nat) (h : lo + width ≤ 32) :
    (setBits w lo width n).toNat =
      w.toNat / 2 ^ (lo + width) * 2 ^ (lo + width) + n % 2 ^ width * 2 ^ lo + w.toNat % 2 ^ lo := by
  have hp : (2 : Nat) ^ (lo + width) = 2 ^ lo * 2 ^ width := pow_add 2 lo width
  have hw : w.toNat < 2 ^ 32 := w.isLt
  have h1 : w.toNat = w.toNat / 2 ^ (lo + width) * 2 ^ (lo + width) + getBits w lo width * 2 ^ lo + w.toNat % 2 ^ lo := by
    unfold getBits
    have e1 := Nat.div_add_mod w.toNat (2 ^ lo)
    have e2 := Nat.div_add_mod (w.toNat / 2 ^ lo) (2 ^ width)
    have e3 : w.toNat / 2 ^ lo / 2 ^ width = w.toNat / 2 ^ (lo + width) := by rw [Nat.div_div_eq_div_mul, hp]
    rw [e3] at e2
    have e4 : w.toNat = 2 ^ lo * (2 ^ width * (w.toNat / 2 ^ (lo + width)) + w.toNat / 2 ^ lo % 2 ^ width) +
        w.toNat % 2 ^ lo := by rw [e2]; exact e1.symm
    calc w.toNat = _ := e4
      _ = _ := by rw [hp]; ring
  have hm : n % 2 ^ width < 2 ^ width := Nat.mod_lt _ (by positivity)
  have hb : w.toNat % 2 ^ lo < 2 ^ lo := Nat.mod_lt _ (by positivity)
  have hbound : w.toNat / 2 ^ (lo + width) * 2 ^ (lo + width) + n % 2 ^ width * 2 ^ lo + w.toNat % 2 ^ lo < 2 ^ 32 := by
    have h32 : (2 : Nat) ^ 32 = 2 ^ (32 - (lo + width)) * 2 ^ (lo + width) := by
      rw [← pow_add]; congr 1; omega
    have ha : w.toNat / 2 ^ (lo + width) < 2 ^ (32 - (lo + width)) := by
      rw [Nat.div_lt_iff_lt_mul (by positivity)]; rw [← h32]; exact hw
    have : n % 2 ^ width * 2 ^ lo + w.toNat % 2 ^ lo < 2 ^ (lo + width) := by
      rw [hp, Nat.mul_comm (2 ^ lo)]; exact digit_lt hm hb
    rw [h32, Nat.add_assoc]; exact digit_lt ha this
  unfold setBits
  rw [BitVec.toNat_ofNat]
  have hsub : w.toNat - getBits w lo width * 2 ^ lo = w.toNat / 2 ^ (lo + width) * 2 ^ (lo + width) + w.toNat % 2 ^ lo := by
    omega
  rw [hsub]
  rw [Nat.mod_eq_of_lt (by omega)]
  omega

/-- The field set is read back, modulo its size. -/
theorem getBits_setBits_same (w : Word) (lo width n : Nat) (h : lo + width ≤ 32) :
    getBits (setBits w lo width n) lo width = n % 2 ^ width := by
  have hp : (2 : Nat) ^ (lo + width) = 2 ^ width * 2 ^ lo := by rw [pow_add, Nat.mul_comm]
  have hb : w.toNat % 2 ^ lo < 2 ^ lo := Nat.mod_lt _ (by positivity)
  unfold getBits
  rw [setBits_split w lo width n h, hp]
  have : w.toNat / (2 ^ width * 2 ^ lo) * (2 ^ width * 2 ^ lo) + n % 2 ^ width * 2 ^ lo + w.toNat % 2 ^ lo =
      w.toNat % 2 ^ lo + 2 ^ lo * (n % 2 ^ width + 2 ^ width * (w.toNat / (2 ^ width * 2 ^ lo))) := by ring
  rw [this, Nat.add_mul_div_left _ _ (by positivity), Nat.div_eq_of_lt hb, Nat.zero_add, Nat.add_mul_mod_self_left,
    Nat.mod_mod]

/-- Fields below and above it are not touched. -/
theorem getBits_setBits_other (w : Word) (lo width n lo' width' : Nat) (h : lo + width ≤ 32)
    (hd : lo' + width' ≤ lo ∨ lo + width ≤ lo') :
    getBits (setBits w lo width n) lo' width' = getBits w lo' width' := by
  have hp : (2 : Nat) ^ (lo + width) = 2 ^ lo * 2 ^ width := pow_add 2 lo width
  have hb : w.toNat % 2 ^ lo < 2 ^ lo := Nat.mod_lt _ (by positivity)
  have hm : n % 2 ^ width < 2 ^ width := Nat.mod_lt _ (by positivity)
  have hs := setBits_split w lo width n h
  unfold getBits
  rcases hd with hd | hd
  · have key : ∀ x : Nat, x / 2 ^ lo' % 2 ^ width' = x % 2 ^ lo / 2 ^ lo' % 2 ^ width' := by
      intro x
      have e : (2 : Nat) ^ lo = 2 ^ lo' * 2 ^ (lo - lo') := by rw [← pow_add]; congr 1; omega
      rw [e, Nat.mod_mul_right_div_self, Nat.mod_mod_of_dvd]
      exact pow_dvd_pow 2 (by omega)
    rw [key (setBits w lo width n).toNat, key w.toNat, hs, hp]
    have : w.toNat / (2 ^ lo * 2 ^ width) * (2 ^ lo * 2 ^ width) + n % 2 ^ width * 2 ^ lo + w.toNat % 2 ^ lo =
        w.toNat % 2 ^ lo + 2 ^ lo * (n % 2 ^ width + 2 ^ width * (w.toNat / (2 ^ lo * 2 ^ width))) := by ring
    rw [this, Nat.add_mul_mod_self_left, Nat.mod_mod]
  · have key : ∀ x : Nat, x / 2 ^ lo' = x / 2 ^ (lo + width) / 2 ^ (lo' - (lo + width)) := by
      intro x
      rw [Nat.div_div_eq_div_mul, ← pow_add]; congr 2; omega
    rw [key (setBits w lo width n).toNat, key w.toNat, hs]
    have hlt : n % 2 ^ width * 2 ^ lo + w.toNat % 2 ^ lo < 2 ^ (lo + width) := by
      rw [hp, Nat.mul_comm (2 ^ lo)]; exact digit_lt hm hb
    have : w.toNat / 2 ^ (lo + width) * 2 ^ (lo + width) + n % 2 ^ width * 2 ^ lo + w.toNat % 2 ^ lo =
        (n % 2 ^ width * 2 ^ lo + w.toNat % 2 ^ lo) + 2 ^ (lo + width) * (w.toNat / 2 ^ (lo + width)) := by ring
    rw [this, Nat.add_mul_div_left _ _ (by positivity), Nat.div_eq_of_lt hlt, Nat.zero_add]

theorem getBits_lt (w : Word) (lo width : Nat) : getBits w lo width < 2 ^ width := Nat.mod_lt _ (by positivity)

/-! ### Registers and fields -/

@[simp] theorem rd_wr_same (s : State) (off : Nat) (v : Word) : (s.wr off v).rd off = v := SMap.get_set_same _ _ _ _

theorem rd_wr_other (s : State) (off off' : Nat) (v : Word) (h : off' ≠ off) : (s.wr off v).rd off' = s.rd off' :=
  SMap.get_set_other _ _ _ _ _ h

theorem rd_setF_other (s : State) (f : Fld) (n off : Nat) (h : off ≠ f.off) : (s.setF f n).rd off = s.rd off :=
  rd_wr_other _ _ _ _ h

/-- A field set is read back, modulo its size. -/
theorem getF_setF_same (s : State) (f : Fld) (n : Nat) (h : f.lo + f.width ≤ 32) :
    (s.setF f n).getF f = n % 2 ^ f.width := by
  simp only [State.getF, State.setF, rd_wr_same]
  exact getBits_setBits_same _ _ _ _ h

/-- A field of another register, or one that does not overlap, is not touched. -/
theorem getF_setF_other (s : State) (f g : Fld) (n : Nat) (h : f.lo + f.width ≤ 32)
    (hd : g.off ≠ f.off ∨ g.lo + g.width ≤ f.lo ∨ f.lo + f.width ≤ g.lo) : (s.setF f n).getF g = s.getF g := by
  by_cases ho : g.off = f.off
  · have hd : g.lo + g.width ≤ f.lo ∨ f.lo + f.width ≤ g.lo := by rcases hd with hd | hd; exact absurd ho hd; exact hd
    simp only [State.getF, State.setF, ho, rd_wr_same]
    exact getBits_setBits_other _ _ _ _ _ _ h hd
  · simp only [State.getF]
    rw [rd_setF_other _ _ _ _ ho]

/-- A field set by `wr` of another register. -/
theorem getF_wr_other (s : State) (off : Nat) (v : Word) (g : Fld) (h : g.off ≠ off) : (s.wr off v).getF g = s.getF g := by
  simp only [State.getF]; rw [rd_wr_other _ _ _ _ h]

theorem getF_lt (s : State) (f : Fld) : s.getF f < 2 ^ f.width := getBits_lt _ _ _

/-- A counter counts one up, modulo its size. -/
theorem getF_bump_same (s : State) (f : Fld) (h : f.lo + f.width ≤ 32) :
    (s.bump f).getF f = (s.getF f + 1) % 2 ^ f.width := getF_setF_same _ _ _ h

theorem join64_halves (n : Nat) (h : n < 2 ^ 64) : join64 (lo32 n) (hi32 n) = n := by
  simp only [join64, lo32, hi32, BitVec.toNat_ofNat]; omega

theorem rd64_wr64_same (s : State) (lo hi n : Nat) (h : n < 2 ^ 64) (hne : lo ≠ hi) : (s.wr64 lo hi n).rd64 lo hi = n := by
  simp only [State.rd64, State.wr64, rd_wr_same]
  rw [rd_wr_other _ _ _ _ hne, rd_wr_same]
  exact join64_halves n h

theorem rd_wr64_other (s : State) (lo hi n off : Nat) (h1 : off ≠ lo) (h2 : off ≠ hi) :
    (s.wr64 lo hi n).rd off = s.rd off := by
  simp only [State.wr64]; rw [rd_wr_other _ _ _ _ h2, rd_wr_other _ _ _ _ h1]

theorem getF_wr64_other (s : State) (lo hi n : Nat) (g : Fld) (h1 : g.off ≠ lo) (h2 : g.off ≠ hi) :
    (s.wr64 lo hi n).getF g = s.getF g := by
  simp only [State.getF]; rw [rd_wr64_other _ _ _ _ _ h1 h2]

theorem lo32_join64 (a b : Word) : lo32 (join64 a b) = a := by
  apply BitVec.eq_of_toNat_eq
  have ha := a.isLt
  simp only [lo32, join64, BitVec.toNat_ofNat]; omega

theorem hi32_join64 (a b : Word) : hi32 (join64 a b) = b := by
  apply BitVec.eq_of_toNat_eq
  have ha := a.isLt
  have hb := b.isLt
  simp only [hi32, join64, BitVec.toNat_ofNat]; omega

theorem rd_setF_same (s : State) (f : Fld) (n : Nat) : (s.setF f n).rd f.off = setBits (s.rd f.off) f.lo f.width n :=
  rd_wr_same _ _ _

theorem rd_bump_other (s : State) (f : Fld) (off : Nat) (h : off ≠ f.off) : (s.bump f).rd off = s.rd off :=
  rd_setF_other _ _ _ _ h

theorem rd_setB_other (s : State) (f : Fld) (b : Bool) (off : Nat) (h : off ≠ f.off) : (s.setB f b).rd off = s.rd off :=
  rd_setF_other _ _ _ _ h

theorem rd_wr64_lo (s : State) (lo hi n : Nat) (h : lo ≠ hi) : (s.wr64 lo hi n).rd lo = lo32 n := by
  simp only [State.wr64]; rw [rd_wr_other _ _ _ _ h, rd_wr_same]

theorem rd_wr64_hi (s : State) (lo hi n : Nat) : (s.wr64 lo hi n).rd hi = hi32 n := by
  simp only [State.wr64, rd_wr_same]

/-- A one-bit flag that was set reads 1. -/
theorem bit_setF_one (s : State) (f : Fld) (h : f.lo + f.width ≤ 32 ∧ f.width = 1) : (s.setF f 1).bit f = true := by
  simp only [State.bit, getF_setF_same s f 1 h.1, h.2]; rfl

theorem bit_setF_zero (s : State) (f : Fld) (h : f.lo + f.width ≤ 32) : (s.setF f 0).bit f = false := by
  simp only [State.bit, getF_setF_same s f 0 h, Nat.zero_mod]; rfl

theorem bit_setB_same (s : State) (f : Fld) (b : Bool) (h : f.lo + f.width ≤ 32 ∧ f.width = 1) :
    (s.setB f b).bit f = b := by
  cases b
  · exact bit_setF_zero s f h.1
  · exact bit_setF_one s f h

theorem bit_setF_other (s : State) (f g : Fld) (n : Nat) (h : f.lo + f.width ≤ 32)
    (hd : g.off ≠ f.off ∨ g.lo + g.width ≤ f.lo ∨ f.lo + f.width ≤ g.lo) : (s.setF f n).bit g = s.bit g := by
  simp only [State.bit, getF_setF_other s f g n h hd]

theorem getF_setB_other (s : State) (f g : Fld) (b : Bool) (h : f.lo + f.width ≤ 32)
    (hd : g.off ≠ f.off ∨ g.lo + g.width ≤ f.lo ∨ f.lo + f.width ≤ g.lo) : (s.setB f b).getF g = s.getF g :=
  getF_setF_other s f g _ h hd

theorem bit_setB_other (s : State) (f g : Fld) (b : Bool) (h : f.lo + f.width ≤ 32)
    (hd : g.off ≠ f.off ∨ g.lo + g.width ≤ f.lo ∨ f.lo + f.width ≤ g.lo) : (s.setB f b).bit g = s.bit g :=
  bit_setF_other s f g _ h hd

theorem getF_setB_same (s : State) (f : Fld) (b : Bool) (h : f.lo + f.width ≤ 32 ∧ f.width = 1) :
    (s.setB f b).getF f = b2n b := by
  have := getF_setF_same s f (b2n b) h.1
  rw [h.2] at this
  cases b <;> exact this

theorem getF_bump_other (s : State) (f g : Fld) (h : f.lo + f.width ≤ 32)
    (hd : g.off ≠ f.off ∨ g.lo + g.width ≤ f.lo ∨ f.lo + f.width ≤ g.lo) : (s.bump f).getF g = s.getF g :=
  getF_setF_other s f g _ h hd

theorem bit_bump_other (s : State) (f g : Fld) (h : f.lo + f.width ≤ 32)
    (hd : g.off ≠ f.off ∨ g.lo + g.width ≤ f.lo ∨ f.lo + f.width ≤ g.lo) : (s.bump f).bit g = s.bit g :=
  bit_setF_other s f g _ h hd

theorem bit_wr_other (s : State) (off : Nat) (v : Word) (g : Fld) (h : g.off ≠ off) : (s.wr off v).bit g = s.bit g := by
  simp only [State.bit, getF_wr_other s off v g h]

theorem bit_wr64_other (s : State) (lo hi n : Nat) (g : Fld) (h1 : g.off ≠ lo) (h2 : g.off ≠ hi) :
    (s.wr64 lo hi n).bit g = s.bit g := by
  simp only [State.bit, getF_wr64_other s lo hi n g h1 h2]

/-! ### The canonical form of the register file -/

theorem wr_regs_wf (s : State) (off : Nat) (v : Word) :
    SMap.wf 0#32 s.regs = true → SMap.wf 0#32 (s.wr off v).regs = true := SMap.set_wf _ _ _ _

end Sys2Proof.Machine
end

