-- ==== Sys2Proof/Laws/State.lean ====
section
/-!
SUPPORT. Laws/State.lean: one lemma per field and update: the updates of the register file, the records, the log of outputs, the
breakpoint notes and the units leave every other field of State as it is, and leave every register as it is where they write none.
-/

namespace Sys2Proof.Machine

/-! ### State.wr -/

@[simp] theorem State.wr_shadows (s : State) (off : Nat) (v : Word) : (s.wr off v).shadows = s.shadows := rfl
@[simp] theorem State.wr_latches (s : State) (off : Nat) (v : Word) : (s.wr off v).latches = s.latches := rfl
@[simp] theorem State.wr_setLog (s : State) (off : Nat) (v : Word) : (s.wr off v).setLog = s.setLog := rfl
@[simp] theorem State.wr_recq (s : State) (off : Nat) (v : Word) : (s.wr off v).recq = s.recq := rfl
@[simp] theorem State.wr_eqs (s : State) (off : Nat) (v : Word) : (s.wr off v).eqs = s.eqs := rfl
@[simp] theorem State.wr_wqs (s : State) (off : Nat) (v : Word) : (s.wr off v).wqs = s.wqs := rfl
@[simp] theorem State.wr_fqs (s : State) (off : Nat) (v : Word) : (s.wr off v).fqs = s.fqs := rfl
@[simp] theorem State.wr_fqHeld (s : State) (off : Nat) (v : Word) : (s.wr off v).fqHeld = s.fqHeld := rfl
@[simp] theorem State.wr_image (s : State) (off : Nat) (v : Word) : (s.wr off v).image = s.image := rfl
@[simp] theorem State.wr_time (s : State) (off : Nat) (v : Word) : (s.wr off v).time = s.time := rfl
@[simp] theorem State.wr_run (s : State) (off : Nat) (v : Word) : (s.wr off v).run = s.run := rfl
@[simp] theorem State.wr_mem (s : State) (off : Nat) (v : Word) : (s.wr off v).mem = s.mem := rfl
@[simp] theorem State.wr_trg (s : State) (off : Nat) (v : Word) : (s.wr off v).trg = s.trg := rfl
@[simp] theorem State.wr_path (s : State) (off : Nat) (v : Word) : (s.wr off v).path = s.path := rfl
@[simp] theorem State.wr_strs (s : State) (off : Nat) (v : Word) : (s.wr off v).strs = s.strs := rfl
@[simp] theorem State.wr_snt (s : State) (off : Nat) (v : Word) : (s.wr off v).snt = s.snt := rfl
@[simp] theorem State.wr_ports (s : State) (off : Nat) (v : Word) : (s.wr off v).ports = s.ports := rfl
@[simp] theorem State.wr_dmfQ (s : State) (off : Nat) (v : Word) : (s.wr off v).dmfQ = s.dmfQ := rfl
@[simp] theorem State.wr_host (s : State) (off : Nat) (v : Word) : (s.wr off v).host = s.host := rfl
@[simp] theorem State.wr_mbx (s : State) (off : Nat) (v : Word) : (s.wr off v).mbx = s.mbx := rfl
@[simp] theorem State.wr_mnt (s : State) (off : Nat) (v : Word) : (s.wr off v).mnt = s.mnt := rfl
@[simp] theorem State.wr_pwr (s : State) (off : Nat) (v : Word) : (s.wr off v).pwr = s.pwr := rfl
@[simp] theorem State.wr_conv (s : State) (off : Nat) (v : Word) : (s.wr off v).conv = s.conv := rfl
@[simp] theorem State.wr_reform (s : State) (off : Nat) (v : Word) : (s.wr off v).reform = s.reform := rfl
@[simp] theorem State.wr_dbg (s : State) (off : Nat) (v : Word) : (s.wr off v).dbg = s.dbg := rfl
@[simp] theorem State.wr_cal (s : State) (off : Nat) (v : Word) : (s.wr off v).cal = s.cal := rfl
@[simp] theorem State.wr_flash (s : State) (off : Nat) (v : Word) : (s.wr off v).flash = s.flash := rfl
@[simp] theorem State.wr_upd (s : State) (off : Nat) (v : Word) : (s.wr off v).upd = s.upd := rfl
@[simp] theorem State.wr_firsts (s : State) (off : Nat) (v : Word) : (s.wr off v).firsts = s.firsts := rfl
@[simp] theorem State.wr_obs (s : State) (off : Nat) (v : Word) : (s.wr off v).obs = s.obs := rfl
@[simp] theorem State.wr_freeCtr (s : State) (off : Nat) (v : Word) : (s.wr off v).freeCtr = s.freeCtr := rfl
@[simp] theorem State.wr_pending (s : State) (off : Nat) (v : Word) : (s.wr off v).pending = s.pending := rfl

/-! ### State.setF -/

@[simp] theorem State.setF_shadows (s : State) (f : Fld) (n : Nat) : (s.setF f n).shadows = s.shadows := rfl
@[simp] theorem State.setF_latches (s : State) (f : Fld) (n : Nat) : (s.setF f n).latches = s.latches := rfl
@[simp] theorem State.setF_setLog (s : State) (f : Fld) (n : Nat) : (s.setF f n).setLog = s.setLog := rfl
@[simp] theorem State.setF_recq (s : State) (f : Fld) (n : Nat) : (s.setF f n).recq = s.recq := rfl
@[simp] theorem State.setF_eqs (s : State) (f : Fld) (n : Nat) : (s.setF f n).eqs = s.eqs := rfl
@[simp] theorem State.setF_wqs (s : State) (f : Fld) (n : Nat) : (s.setF f n).wqs = s.wqs := rfl
@[simp] theorem State.setF_fqs (s : State) (f : Fld) (n : Nat) : (s.setF f n).fqs = s.fqs := rfl
@[simp] theorem State.setF_fqHeld (s : State) (f : Fld) (n : Nat) : (s.setF f n).fqHeld = s.fqHeld := rfl
@[simp] theorem State.setF_image (s : State) (f : Fld) (n : Nat) : (s.setF f n).image = s.image := rfl
@[simp] theorem State.setF_time (s : State) (f : Fld) (n : Nat) : (s.setF f n).time = s.time := rfl
@[simp] theorem State.setF_run (s : State) (f : Fld) (n : Nat) : (s.setF f n).run = s.run := rfl
@[simp] theorem State.setF_mem (s : State) (f : Fld) (n : Nat) : (s.setF f n).mem = s.mem := rfl
@[simp] theorem State.setF_trg (s : State) (f : Fld) (n : Nat) : (s.setF f n).trg = s.trg := rfl
@[simp] theorem State.setF_path (s : State) (f : Fld) (n : Nat) : (s.setF f n).path = s.path := rfl
@[simp] theorem State.setF_strs (s : State) (f : Fld) (n : Nat) : (s.setF f n).strs = s.strs := rfl
@[simp] theorem State.setF_snt (s : State) (f : Fld) (n : Nat) : (s.setF f n).snt = s.snt := rfl
@[simp] theorem State.setF_ports (s : State) (f : Fld) (n : Nat) : (s.setF f n).ports = s.ports := rfl
@[simp] theorem State.setF_dmfQ (s : State) (f : Fld) (n : Nat) : (s.setF f n).dmfQ = s.dmfQ := rfl
@[simp] theorem State.setF_host (s : State) (f : Fld) (n : Nat) : (s.setF f n).host = s.host := rfl
@[simp] theorem State.setF_mbx (s : State) (f : Fld) (n : Nat) : (s.setF f n).mbx = s.mbx := rfl
@[simp] theorem State.setF_mnt (s : State) (f : Fld) (n : Nat) : (s.setF f n).mnt = s.mnt := rfl
@[simp] theorem State.setF_pwr (s : State) (f : Fld) (n : Nat) : (s.setF f n).pwr = s.pwr := rfl
@[simp] theorem State.setF_conv (s : State) (f : Fld) (n : Nat) : (s.setF f n).conv = s.conv := rfl
@[simp] theorem State.setF_reform (s : State) (f : Fld) (n : Nat) : (s.setF f n).reform = s.reform := rfl
@[simp] theorem State.setF_dbg (s : State) (f : Fld) (n : Nat) : (s.setF f n).dbg = s.dbg := rfl
@[simp] theorem State.setF_cal (s : State) (f : Fld) (n : Nat) : (s.setF f n).cal = s.cal := rfl
@[simp] theorem State.setF_flash (s : State) (f : Fld) (n : Nat) : (s.setF f n).flash = s.flash := rfl
@[simp] theorem State.setF_upd (s : State) (f : Fld) (n : Nat) : (s.setF f n).upd = s.upd := rfl
@[simp] theorem State.setF_firsts (s : State) (f : Fld) (n : Nat) : (s.setF f n).firsts = s.firsts := rfl
@[simp] theorem State.setF_obs (s : State) (f : Fld) (n : Nat) : (s.setF f n).obs = s.obs := rfl
@[simp] theorem State.setF_freeCtr (s : State) (f : Fld) (n : Nat) : (s.setF f n).freeCtr = s.freeCtr := rfl
@[simp] theorem State.setF_pending (s : State) (f : Fld) (n : Nat) : (s.setF f n).pending = s.pending := rfl

/-! ### State.setB -/

@[simp] theorem State.setB_shadows (s : State) (f : Fld) (b : Bool) : (s.setB f b).shadows = s.shadows := rfl
@[simp] theorem State.setB_latches (s : State) (f : Fld) (b : Bool) : (s.setB f b).latches = s.latches := rfl
@[simp] theorem State.setB_setLog (s : State) (f : Fld) (b : Bool) : (s.setB f b).setLog = s.setLog := rfl
@[simp] theorem State.setB_recq (s : State) (f : Fld) (b : Bool) : (s.setB f b).recq = s.recq := rfl
@[simp] theorem State.setB_eqs (s : State) (f : Fld) (b : Bool) : (s.setB f b).eqs = s.eqs := rfl
@[simp] theorem State.setB_wqs (s : State) (f : Fld) (b : Bool) : (s.setB f b).wqs = s.wqs := rfl
@[simp] theorem State.setB_fqs (s : State) (f : Fld) (b : Bool) : (s.setB f b).fqs = s.fqs := rfl
@[simp] theorem State.setB_fqHeld (s : State) (f : Fld) (b : Bool) : (s.setB f b).fqHeld = s.fqHeld := rfl
@[simp] theorem State.setB_image (s : State) (f : Fld) (b : Bool) : (s.setB f b).image = s.image := rfl
@[simp] theorem State.setB_time (s : State) (f : Fld) (b : Bool) : (s.setB f b).time = s.time := rfl
@[simp] theorem State.setB_run (s : State) (f : Fld) (b : Bool) : (s.setB f b).run = s.run := rfl
@[simp] theorem State.setB_mem (s : State) (f : Fld) (b : Bool) : (s.setB f b).mem = s.mem := rfl
@[simp] theorem State.setB_trg (s : State) (f : Fld) (b : Bool) : (s.setB f b).trg = s.trg := rfl
@[simp] theorem State.setB_path (s : State) (f : Fld) (b : Bool) : (s.setB f b).path = s.path := rfl
@[simp] theorem State.setB_strs (s : State) (f : Fld) (b : Bool) : (s.setB f b).strs = s.strs := rfl
@[simp] theorem State.setB_snt (s : State) (f : Fld) (b : Bool) : (s.setB f b).snt = s.snt := rfl
@[simp] theorem State.setB_ports (s : State) (f : Fld) (b : Bool) : (s.setB f b).ports = s.ports := rfl
@[simp] theorem State.setB_dmfQ (s : State) (f : Fld) (b : Bool) : (s.setB f b).dmfQ = s.dmfQ := rfl
@[simp] theorem State.setB_host (s : State) (f : Fld) (b : Bool) : (s.setB f b).host = s.host := rfl
@[simp] theorem State.setB_mbx (s : State) (f : Fld) (b : Bool) : (s.setB f b).mbx = s.mbx := rfl
@[simp] theorem State.setB_mnt (s : State) (f : Fld) (b : Bool) : (s.setB f b).mnt = s.mnt := rfl
@[simp] theorem State.setB_pwr (s : State) (f : Fld) (b : Bool) : (s.setB f b).pwr = s.pwr := rfl
@[simp] theorem State.setB_conv (s : State) (f : Fld) (b : Bool) : (s.setB f b).conv = s.conv := rfl
@[simp] theorem State.setB_reform (s : State) (f : Fld) (b : Bool) : (s.setB f b).reform = s.reform := rfl
@[simp] theorem State.setB_dbg (s : State) (f : Fld) (b : Bool) : (s.setB f b).dbg = s.dbg := rfl
@[simp] theorem State.setB_cal (s : State) (f : Fld) (b : Bool) : (s.setB f b).cal = s.cal := rfl
@[simp] theorem State.setB_flash (s : State) (f : Fld) (b : Bool) : (s.setB f b).flash = s.flash := rfl
@[simp] theorem State.setB_upd (s : State) (f : Fld) (b : Bool) : (s.setB f b).upd = s.upd := rfl
@[simp] theorem State.setB_firsts (s : State) (f : Fld) (b : Bool) : (s.setB f b).firsts = s.firsts := rfl
@[simp] theorem State.setB_obs (s : State) (f : Fld) (b : Bool) : (s.setB f b).obs = s.obs := rfl
@[simp] theorem State.setB_freeCtr (s : State) (f : Fld) (b : Bool) : (s.setB f b).freeCtr = s.freeCtr := rfl
@[simp] theorem State.setB_pending (s : State) (f : Fld) (b : Bool) : (s.setB f b).pending = s.pending := rfl

/-! ### State.bump -/

@[simp] theorem State.bump_shadows (s : State) (f : Fld) : (s.bump f).shadows = s.shadows := rfl
@[simp] theorem State.bump_latches (s : State) (f : Fld) : (s.bump f).latches = s.latches := rfl
@[simp] theorem State.bump_setLog (s : State) (f : Fld) : (s.bump f).setLog = s.setLog := rfl
@[simp] theorem State.bump_recq (s : State) (f : Fld) : (s.bump f).recq = s.recq := rfl
@[simp] theorem State.bump_eqs (s : State) (f : Fld) : (s.bump f).eqs = s.eqs := rfl
@[simp] theorem State.bump_wqs (s : State) (f : Fld) : (s.bump f).wqs = s.wqs := rfl
@[simp] theorem State.bump_fqs (s : State) (f : Fld) : (s.bump f).fqs = s.fqs := rfl
@[simp] theorem State.bump_fqHeld (s : State) (f : Fld) : (s.bump f).fqHeld = s.fqHeld := rfl
@[simp] theorem State.bump_image (s : State) (f : Fld) : (s.bump f).image = s.image := rfl
@[simp] theorem State.bump_time (s : State) (f : Fld) : (s.bump f).time = s.time := rfl
@[simp] theorem State.bump_run (s : State) (f : Fld) : (s.bump f).run = s.run := rfl
@[simp] theorem State.bump_mem (s : State) (f : Fld) : (s.bump f).mem = s.mem := rfl
@[simp] theorem State.bump_trg (s : State) (f : Fld) : (s.bump f).trg = s.trg := rfl
@[simp] theorem State.bump_path (s : State) (f : Fld) : (s.bump f).path = s.path := rfl
@[simp] theorem State.bump_strs (s : State) (f : Fld) : (s.bump f).strs = s.strs := rfl
@[simp] theorem State.bump_snt (s : State) (f : Fld) : (s.bump f).snt = s.snt := rfl
@[simp] theorem State.bump_ports (s : State) (f : Fld) : (s.bump f).ports = s.ports := rfl
@[simp] theorem State.bump_dmfQ (s : State) (f : Fld) : (s.bump f).dmfQ = s.dmfQ := rfl
@[simp] theorem State.bump_host (s : State) (f : Fld) : (s.bump f).host = s.host := rfl
@[simp] theorem State.bump_mbx (s : State) (f : Fld) : (s.bump f).mbx = s.mbx := rfl
@[simp] theorem State.bump_mnt (s : State) (f : Fld) : (s.bump f).mnt = s.mnt := rfl
@[simp] theorem State.bump_pwr (s : State) (f : Fld) : (s.bump f).pwr = s.pwr := rfl
@[simp] theorem State.bump_conv (s : State) (f : Fld) : (s.bump f).conv = s.conv := rfl
@[simp] theorem State.bump_reform (s : State) (f : Fld) : (s.bump f).reform = s.reform := rfl
@[simp] theorem State.bump_dbg (s : State) (f : Fld) : (s.bump f).dbg = s.dbg := rfl
@[simp] theorem State.bump_cal (s : State) (f : Fld) : (s.bump f).cal = s.cal := rfl
@[simp] theorem State.bump_flash (s : State) (f : Fld) : (s.bump f).flash = s.flash := rfl
@[simp] theorem State.bump_upd (s : State) (f : Fld) : (s.bump f).upd = s.upd := rfl
@[simp] theorem State.bump_firsts (s : State) (f : Fld) : (s.bump f).firsts = s.firsts := rfl
@[simp] theorem State.bump_obs (s : State) (f : Fld) : (s.bump f).obs = s.obs := rfl
@[simp] theorem State.bump_freeCtr (s : State) (f : Fld) : (s.bump f).freeCtr = s.freeCtr := rfl
@[simp] theorem State.bump_pending (s : State) (f : Fld) : (s.bump f).pending = s.pending := rfl

/-! ### State.bumpBy -/

@[simp] theorem State.bumpBy_shadows (s : State) (f : Fld) (n : Nat) : (s.bumpBy f n).shadows = s.shadows := rfl
@[simp] theorem State.bumpBy_latches (s : State) (f : Fld) (n : Nat) : (s.bumpBy f n).latches = s.latches := rfl
@[simp] theorem State.bumpBy_setLog (s : State) (f : Fld) (n : Nat) : (s.bumpBy f n).setLog = s.setLog := rfl
@[simp] theorem State.bumpBy_recq (s : State) (f : Fld) (n : Nat) : (s.bumpBy f n).recq = s.recq := rfl
@[simp] theorem State.bumpBy_eqs (s : State) (f : Fld) (n : Nat) : (s.bumpBy f n).eqs = s.eqs := rfl
@[simp] theorem State.bumpBy_wqs (s : State) (f : Fld) (n : Nat) : (s.bumpBy f n).wqs = s.wqs := rfl
@[simp] theorem State.bumpBy_fqs (s : State) (f : Fld) (n : Nat) : (s.bumpBy f n).fqs = s.fqs := rfl
@[simp] theorem State.bumpBy_fqHeld (s : State) (f : Fld) (n : Nat) : (s.bumpBy f n).fqHeld = s.fqHeld := rfl
@[simp] theorem State.bumpBy_image (s : State) (f : Fld) (n : Nat) : (s.bumpBy f n).image = s.image := rfl
@[simp] theorem State.bumpBy_time (s : State) (f : Fld) (n : Nat) : (s.bumpBy f n).time = s.time := rfl
@[simp] theorem State.bumpBy_run (s : State) (f : Fld) (n : Nat) : (s.bumpBy f n).run = s.run := rfl
@[simp] theorem State.bumpBy_mem (s : State) (f : Fld) (n : Nat) : (s.bumpBy f n).mem = s.mem := rfl
@[simp] theorem State.bumpBy_trg (s : State) (f : Fld) (n : Nat) : (s.bumpBy f n).trg = s.trg := rfl
@[simp] theorem State.bumpBy_path (s : State) (f : Fld) (n : Nat) : (s.bumpBy f n).path = s.path := rfl
@[simp] theorem State.bumpBy_strs (s : State) (f : Fld) (n : Nat) : (s.bumpBy f n).strs = s.strs := rfl
@[simp] theorem State.bumpBy_snt (s : State) (f : Fld) (n : Nat) : (s.bumpBy f n).snt = s.snt := rfl
@[simp] theorem State.bumpBy_ports (s : State) (f : Fld) (n : Nat) : (s.bumpBy f n).ports = s.ports := rfl
@[simp] theorem State.bumpBy_dmfQ (s : State) (f : Fld) (n : Nat) : (s.bumpBy f n).dmfQ = s.dmfQ := rfl
@[simp] theorem State.bumpBy_host (s : State) (f : Fld) (n : Nat) : (s.bumpBy f n).host = s.host := rfl
@[simp] theorem State.bumpBy_mbx (s : State) (f : Fld) (n : Nat) : (s.bumpBy f n).mbx = s.mbx := rfl
@[simp] theorem State.bumpBy_mnt (s : State) (f : Fld) (n : Nat) : (s.bumpBy f n).mnt = s.mnt := rfl
@[simp] theorem State.bumpBy_pwr (s : State) (f : Fld) (n : Nat) : (s.bumpBy f n).pwr = s.pwr := rfl
@[simp] theorem State.bumpBy_conv (s : State) (f : Fld) (n : Nat) : (s.bumpBy f n).conv = s.conv := rfl
@[simp] theorem State.bumpBy_reform (s : State) (f : Fld) (n : Nat) : (s.bumpBy f n).reform = s.reform := rfl
@[simp] theorem State.bumpBy_dbg (s : State) (f : Fld) (n : Nat) : (s.bumpBy f n).dbg = s.dbg := rfl
@[simp] theorem State.bumpBy_cal (s : State) (f : Fld) (n : Nat) : (s.bumpBy f n).cal = s.cal := rfl
@[simp] theorem State.bumpBy_flash (s : State) (f : Fld) (n : Nat) : (s.bumpBy f n).flash = s.flash := rfl
@[simp] theorem State.bumpBy_upd (s : State) (f : Fld) (n : Nat) : (s.bumpBy f n).upd = s.upd := rfl
@[simp] theorem State.bumpBy_firsts (s : State) (f : Fld) (n : Nat) : (s.bumpBy f n).firsts = s.firsts := rfl
@[simp] theorem State.bumpBy_obs (s : State) (f : Fld) (n : Nat) : (s.bumpBy f n).obs = s.obs := rfl
@[simp] theorem State.bumpBy_freeCtr (s : State) (f : Fld) (n : Nat) : (s.bumpBy f n).freeCtr = s.freeCtr := rfl
@[simp] theorem State.bumpBy_pending (s : State) (f : Fld) (n : Nat) : (s.bumpBy f n).pending = s.pending := rfl

/-! ### State.wr64 -/

@[simp] theorem State.wr64_shadows (s : State) (lo hi n : Nat) : (s.wr64 lo hi n).shadows = s.shadows := rfl
@[simp] theorem State.wr64_latches (s : State) (lo hi n : Nat) : (s.wr64 lo hi n).latches = s.latches := rfl
@[simp] theorem State.wr64_setLog (s : State) (lo hi n : Nat) : (s.wr64 lo hi n).setLog = s.setLog := rfl
@[simp] theorem State.wr64_recq (s : State) (lo hi n : Nat) : (s.wr64 lo hi n).recq = s.recq := rfl
@[simp] theorem State.wr64_eqs (s : State) (lo hi n : Nat) : (s.wr64 lo hi n).eqs = s.eqs := rfl
@[simp] theorem State.wr64_wqs (s : State) (lo hi n : Nat) : (s.wr64 lo hi n).wqs = s.wqs := rfl
@[simp] theorem State.wr64_fqs (s : State) (lo hi n : Nat) : (s.wr64 lo hi n).fqs = s.fqs := rfl
@[simp] theorem State.wr64_fqHeld (s : State) (lo hi n : Nat) : (s.wr64 lo hi n).fqHeld = s.fqHeld := rfl
@[simp] theorem State.wr64_image (s : State) (lo hi n : Nat) : (s.wr64 lo hi n).image = s.image := rfl
@[simp] theorem State.wr64_time (s : State) (lo hi n : Nat) : (s.wr64 lo hi n).time = s.time := rfl
@[simp] theorem State.wr64_run (s : State) (lo hi n : Nat) : (s.wr64 lo hi n).run = s.run := rfl
@[simp] theorem State.wr64_mem (s : State) (lo hi n : Nat) : (s.wr64 lo hi n).mem = s.mem := rfl
@[simp] theorem State.wr64_trg (s : State) (lo hi n : Nat) : (s.wr64 lo hi n).trg = s.trg := rfl
@[simp] theorem State.wr64_path (s : State) (lo hi n : Nat) : (s.wr64 lo hi n).path = s.path := rfl
@[simp] theorem State.wr64_strs (s : State) (lo hi n : Nat) : (s.wr64 lo hi n).strs = s.strs := rfl
@[simp] theorem State.wr64_snt (s : State) (lo hi n : Nat) : (s.wr64 lo hi n).snt = s.snt := rfl
@[simp] theorem State.wr64_ports (s : State) (lo hi n : Nat) : (s.wr64 lo hi n).ports = s.ports := rfl
@[simp] theorem State.wr64_dmfQ (s : State) (lo hi n : Nat) : (s.wr64 lo hi n).dmfQ = s.dmfQ := rfl
@[simp] theorem State.wr64_host (s : State) (lo hi n : Nat) : (s.wr64 lo hi n).host = s.host := rfl
@[simp] theorem State.wr64_mbx (s : State) (lo hi n : Nat) : (s.wr64 lo hi n).mbx = s.mbx := rfl
@[simp] theorem State.wr64_mnt (s : State) (lo hi n : Nat) : (s.wr64 lo hi n).mnt = s.mnt := rfl
@[simp] theorem State.wr64_pwr (s : State) (lo hi n : Nat) : (s.wr64 lo hi n).pwr = s.pwr := rfl
@[simp] theorem State.wr64_conv (s : State) (lo hi n : Nat) : (s.wr64 lo hi n).conv = s.conv := rfl
@[simp] theorem State.wr64_reform (s : State) (lo hi n : Nat) : (s.wr64 lo hi n).reform = s.reform := rfl
@[simp] theorem State.wr64_dbg (s : State) (lo hi n : Nat) : (s.wr64 lo hi n).dbg = s.dbg := rfl
@[simp] theorem State.wr64_cal (s : State) (lo hi n : Nat) : (s.wr64 lo hi n).cal = s.cal := rfl
@[simp] theorem State.wr64_flash (s : State) (lo hi n : Nat) : (s.wr64 lo hi n).flash = s.flash := rfl
@[simp] theorem State.wr64_upd (s : State) (lo hi n : Nat) : (s.wr64 lo hi n).upd = s.upd := rfl
@[simp] theorem State.wr64_firsts (s : State) (lo hi n : Nat) : (s.wr64 lo hi n).firsts = s.firsts := rfl
@[simp] theorem State.wr64_obs (s : State) (lo hi n : Nat) : (s.wr64 lo hi n).obs = s.obs := rfl
@[simp] theorem State.wr64_freeCtr (s : State) (lo hi n : Nat) : (s.wr64 lo hi n).freeCtr = s.freeCtr := rfl
@[simp] theorem State.wr64_pending (s : State) (lo hi n : Nat) : (s.wr64 lo hi n).pending = s.pending := rfl

/-! ### State.deny -/

@[simp] theorem State.deny_shadows (s : State) : (s.deny).shadows = s.shadows := rfl
@[simp] theorem State.deny_latches (s : State) : (s.deny).latches = s.latches := rfl
@[simp] theorem State.deny_setLog (s : State) : (s.deny).setLog = s.setLog := rfl
@[simp] theorem State.deny_recq (s : State) : (s.deny).recq = s.recq := rfl
@[simp] theorem State.deny_eqs (s : State) : (s.deny).eqs = s.eqs := rfl
@[simp] theorem State.deny_wqs (s : State) : (s.deny).wqs = s.wqs := rfl
@[simp] theorem State.deny_fqs (s : State) : (s.deny).fqs = s.fqs := rfl
@[simp] theorem State.deny_fqHeld (s : State) : (s.deny).fqHeld = s.fqHeld := rfl
@[simp] theorem State.deny_image (s : State) : (s.deny).image = s.image := rfl
@[simp] theorem State.deny_time (s : State) : (s.deny).time = s.time := rfl
@[simp] theorem State.deny_run (s : State) : (s.deny).run = s.run := rfl
@[simp] theorem State.deny_mem (s : State) : (s.deny).mem = s.mem := rfl
@[simp] theorem State.deny_trg (s : State) : (s.deny).trg = s.trg := rfl
@[simp] theorem State.deny_path (s : State) : (s.deny).path = s.path := rfl
@[simp] theorem State.deny_strs (s : State) : (s.deny).strs = s.strs := rfl
@[simp] theorem State.deny_snt (s : State) : (s.deny).snt = s.snt := rfl
@[simp] theorem State.deny_ports (s : State) : (s.deny).ports = s.ports := rfl
@[simp] theorem State.deny_dmfQ (s : State) : (s.deny).dmfQ = s.dmfQ := rfl
@[simp] theorem State.deny_host (s : State) : (s.deny).host = s.host := rfl
@[simp] theorem State.deny_mbx (s : State) : (s.deny).mbx = s.mbx := rfl
@[simp] theorem State.deny_mnt (s : State) : (s.deny).mnt = s.mnt := rfl
@[simp] theorem State.deny_pwr (s : State) : (s.deny).pwr = s.pwr := rfl
@[simp] theorem State.deny_conv (s : State) : (s.deny).conv = s.conv := rfl
@[simp] theorem State.deny_reform (s : State) : (s.deny).reform = s.reform := rfl
@[simp] theorem State.deny_dbg (s : State) : (s.deny).dbg = s.dbg := rfl
@[simp] theorem State.deny_cal (s : State) : (s.deny).cal = s.cal := rfl
@[simp] theorem State.deny_flash (s : State) : (s.deny).flash = s.flash := rfl
@[simp] theorem State.deny_upd (s : State) : (s.deny).upd = s.upd := rfl
@[simp] theorem State.deny_firsts (s : State) : (s.deny).firsts = s.firsts := rfl
@[simp] theorem State.deny_obs (s : State) : (s.deny).obs = s.obs := rfl
@[simp] theorem State.deny_freeCtr (s : State) : (s.deny).freeCtr = s.freeCtr := rfl
@[simp] theorem State.deny_pending (s : State) : (s.deny).pending = s.pending := rfl

/-! ### State.late -/

@[simp] theorem State.late_shadows (s : State) (f : Fld) : (s.late f).shadows = s.shadows := rfl
@[simp] theorem State.late_latches (s : State) (f : Fld) : (s.late f).latches = s.latches := rfl
@[simp] theorem State.late_setLog (s : State) (f : Fld) : (s.late f).setLog = s.setLog := rfl
@[simp] theorem State.late_recq (s : State) (f : Fld) : (s.late f).recq = s.recq := rfl
@[simp] theorem State.late_eqs (s : State) (f : Fld) : (s.late f).eqs = s.eqs := rfl
@[simp] theorem State.late_wqs (s : State) (f : Fld) : (s.late f).wqs = s.wqs := rfl
@[simp] theorem State.late_fqs (s : State) (f : Fld) : (s.late f).fqs = s.fqs := rfl
@[simp] theorem State.late_fqHeld (s : State) (f : Fld) : (s.late f).fqHeld = s.fqHeld := rfl
@[simp] theorem State.late_image (s : State) (f : Fld) : (s.late f).image = s.image := rfl
@[simp] theorem State.late_time (s : State) (f : Fld) : (s.late f).time = s.time := rfl
@[simp] theorem State.late_run (s : State) (f : Fld) : (s.late f).run = s.run := rfl
@[simp] theorem State.late_mem (s : State) (f : Fld) : (s.late f).mem = s.mem := rfl
@[simp] theorem State.late_trg (s : State) (f : Fld) : (s.late f).trg = s.trg := rfl
@[simp] theorem State.late_path (s : State) (f : Fld) : (s.late f).path = s.path := rfl
@[simp] theorem State.late_strs (s : State) (f : Fld) : (s.late f).strs = s.strs := rfl
@[simp] theorem State.late_snt (s : State) (f : Fld) : (s.late f).snt = s.snt := rfl
@[simp] theorem State.late_ports (s : State) (f : Fld) : (s.late f).ports = s.ports := rfl
@[simp] theorem State.late_dmfQ (s : State) (f : Fld) : (s.late f).dmfQ = s.dmfQ := rfl
@[simp] theorem State.late_host (s : State) (f : Fld) : (s.late f).host = s.host := rfl
@[simp] theorem State.late_mbx (s : State) (f : Fld) : (s.late f).mbx = s.mbx := rfl
@[simp] theorem State.late_mnt (s : State) (f : Fld) : (s.late f).mnt = s.mnt := rfl
@[simp] theorem State.late_pwr (s : State) (f : Fld) : (s.late f).pwr = s.pwr := rfl
@[simp] theorem State.late_conv (s : State) (f : Fld) : (s.late f).conv = s.conv := rfl
@[simp] theorem State.late_reform (s : State) (f : Fld) : (s.late f).reform = s.reform := rfl
@[simp] theorem State.late_dbg (s : State) (f : Fld) : (s.late f).dbg = s.dbg := rfl
@[simp] theorem State.late_cal (s : State) (f : Fld) : (s.late f).cal = s.cal := rfl
@[simp] theorem State.late_flash (s : State) (f : Fld) : (s.late f).flash = s.flash := rfl
@[simp] theorem State.late_upd (s : State) (f : Fld) : (s.late f).upd = s.upd := rfl
@[simp] theorem State.late_firsts (s : State) (f : Fld) : (s.late f).firsts = s.firsts := rfl
@[simp] theorem State.late_obs (s : State) (f : Fld) : (s.late f).obs = s.obs := rfl
@[simp] theorem State.late_freeCtr (s : State) (f : Fld) : (s.late f).freeCtr = s.freeCtr := rfl
@[simp] theorem State.late_pending (s : State) (f : Fld) : (s.late f).pending = s.pending := rfl

/-! ### State.emit -/

@[simp] theorem State.emit_regs (s : State) (i y : Nat) (p : List Word) : (s.emit i y p).regs = s.regs := rfl
@[simp] theorem State.emit_shadows (s : State) (i y : Nat) (p : List Word) : (s.emit i y p).shadows = s.shadows := rfl
@[simp] theorem State.emit_latches (s : State) (i y : Nat) (p : List Word) : (s.emit i y p).latches = s.latches := rfl
@[simp] theorem State.emit_setLog (s : State) (i y : Nat) (p : List Word) : (s.emit i y p).setLog = s.setLog := rfl
@[simp] theorem State.emit_eqs (s : State) (i y : Nat) (p : List Word) : (s.emit i y p).eqs = s.eqs := rfl
@[simp] theorem State.emit_wqs (s : State) (i y : Nat) (p : List Word) : (s.emit i y p).wqs = s.wqs := rfl
@[simp] theorem State.emit_fqs (s : State) (i y : Nat) (p : List Word) : (s.emit i y p).fqs = s.fqs := rfl
@[simp] theorem State.emit_fqHeld (s : State) (i y : Nat) (p : List Word) : (s.emit i y p).fqHeld = s.fqHeld := rfl
@[simp] theorem State.emit_image (s : State) (i y : Nat) (p : List Word) : (s.emit i y p).image = s.image := rfl
@[simp] theorem State.emit_time (s : State) (i y : Nat) (p : List Word) : (s.emit i y p).time = s.time := rfl
@[simp] theorem State.emit_run (s : State) (i y : Nat) (p : List Word) : (s.emit i y p).run = s.run := rfl
@[simp] theorem State.emit_mem (s : State) (i y : Nat) (p : List Word) : (s.emit i y p).mem = s.mem := rfl
@[simp] theorem State.emit_trg (s : State) (i y : Nat) (p : List Word) : (s.emit i y p).trg = s.trg := rfl
@[simp] theorem State.emit_path (s : State) (i y : Nat) (p : List Word) : (s.emit i y p).path = s.path := rfl
@[simp] theorem State.emit_strs (s : State) (i y : Nat) (p : List Word) : (s.emit i y p).strs = s.strs := rfl
@[simp] theorem State.emit_snt (s : State) (i y : Nat) (p : List Word) : (s.emit i y p).snt = s.snt := rfl
@[simp] theorem State.emit_ports (s : State) (i y : Nat) (p : List Word) : (s.emit i y p).ports = s.ports := rfl
@[simp] theorem State.emit_dmfQ (s : State) (i y : Nat) (p : List Word) : (s.emit i y p).dmfQ = s.dmfQ := rfl
@[simp] theorem State.emit_host (s : State) (i y : Nat) (p : List Word) : (s.emit i y p).host = s.host := rfl
@[simp] theorem State.emit_mbx (s : State) (i y : Nat) (p : List Word) : (s.emit i y p).mbx = s.mbx := rfl
@[simp] theorem State.emit_mnt (s : State) (i y : Nat) (p : List Word) : (s.emit i y p).mnt = s.mnt := rfl
@[simp] theorem State.emit_pwr (s : State) (i y : Nat) (p : List Word) : (s.emit i y p).pwr = s.pwr := rfl
@[simp] theorem State.emit_conv (s : State) (i y : Nat) (p : List Word) : (s.emit i y p).conv = s.conv := rfl
@[simp] theorem State.emit_reform (s : State) (i y : Nat) (p : List Word) : (s.emit i y p).reform = s.reform := rfl
@[simp] theorem State.emit_dbg (s : State) (i y : Nat) (p : List Word) : (s.emit i y p).dbg = s.dbg := rfl
@[simp] theorem State.emit_cal (s : State) (i y : Nat) (p : List Word) : (s.emit i y p).cal = s.cal := rfl
@[simp] theorem State.emit_flash (s : State) (i y : Nat) (p : List Word) : (s.emit i y p).flash = s.flash := rfl
@[simp] theorem State.emit_upd (s : State) (i y : Nat) (p : List Word) : (s.emit i y p).upd = s.upd := rfl
@[simp] theorem State.emit_firsts (s : State) (i y : Nat) (p : List Word) : (s.emit i y p).firsts = s.firsts := rfl
@[simp] theorem State.emit_obs (s : State) (i y : Nat) (p : List Word) : (s.emit i y p).obs = s.obs := rfl
@[simp] theorem State.emit_freeCtr (s : State) (i y : Nat) (p : List Word) : (s.emit i y p).freeCtr = s.freeCtr := rfl
@[simp] theorem State.emit_pending (s : State) (i y : Nat) (p : List Word) : (s.emit i y p).pending = s.pending := rfl
@[simp] theorem State.emit_rd (s : State) (i y : Nat) (p : List Word) (r : Nat) : (s.emit i y p).rd r = s.rd r := rfl
@[simp] theorem State.emit_getF (s : State) (i y : Nat) (p : List Word) (x : Fld) : (s.emit i y p).getF x = s.getF x := rfl
@[simp] theorem State.emit_bit (s : State) (i y : Nat) (p : List Word) (x : Fld) : (s.emit i y p).bit x = s.bit x := rfl
@[simp] theorem State.emit_rd64 (s : State) (i y : Nat) (p : List Word) (l h : Nat) : (s.emit i y p).rd64 l h = s.rd64 l h := rfl

/-! ### State.obsv -/

@[simp] theorem State.obsv_regs (s : State) (o : Obs) : (s.obsv o).regs = s.regs := rfl
@[simp] theorem State.obsv_shadows (s : State) (o : Obs) : (s.obsv o).shadows = s.shadows := rfl
@[simp] theorem State.obsv_latches (s : State) (o : Obs) : (s.obsv o).latches = s.latches := rfl
@[simp] theorem State.obsv_setLog (s : State) (o : Obs) : (s.obsv o).setLog = s.setLog := rfl
@[simp] theorem State.obsv_recq (s : State) (o : Obs) : (s.obsv o).recq = s.recq := rfl
@[simp] theorem State.obsv_eqs (s : State) (o : Obs) : (s.obsv o).eqs = s.eqs := rfl
@[simp] theorem State.obsv_wqs (s : State) (o : Obs) : (s.obsv o).wqs = s.wqs := rfl
@[simp] theorem State.obsv_fqs (s : State) (o : Obs) : (s.obsv o).fqs = s.fqs := rfl
@[simp] theorem State.obsv_fqHeld (s : State) (o : Obs) : (s.obsv o).fqHeld = s.fqHeld := rfl
@[simp] theorem State.obsv_image (s : State) (o : Obs) : (s.obsv o).image = s.image := rfl
@[simp] theorem State.obsv_time (s : State) (o : Obs) : (s.obsv o).time = s.time := rfl
@[simp] theorem State.obsv_run (s : State) (o : Obs) : (s.obsv o).run = s.run := rfl
@[simp] theorem State.obsv_mem (s : State) (o : Obs) : (s.obsv o).mem = s.mem := rfl
@[simp] theorem State.obsv_trg (s : State) (o : Obs) : (s.obsv o).trg = s.trg := rfl
@[simp] theorem State.obsv_path (s : State) (o : Obs) : (s.obsv o).path = s.path := rfl
@[simp] theorem State.obsv_strs (s : State) (o : Obs) : (s.obsv o).strs = s.strs := rfl
@[simp] theorem State.obsv_snt (s : State) (o : Obs) : (s.obsv o).snt = s.snt := rfl
@[simp] theorem State.obsv_ports (s : State) (o : Obs) : (s.obsv o).ports = s.ports := rfl
@[simp] theorem State.obsv_dmfQ (s : State) (o : Obs) : (s.obsv o).dmfQ = s.dmfQ := rfl
@[simp] theorem State.obsv_host (s : State) (o : Obs) : (s.obsv o).host = s.host := rfl
@[simp] theorem State.obsv_mbx (s : State) (o : Obs) : (s.obsv o).mbx = s.mbx := rfl
@[simp] theorem State.obsv_mnt (s : State) (o : Obs) : (s.obsv o).mnt = s.mnt := rfl
@[simp] theorem State.obsv_pwr (s : State) (o : Obs) : (s.obsv o).pwr = s.pwr := rfl
@[simp] theorem State.obsv_conv (s : State) (o : Obs) : (s.obsv o).conv = s.conv := rfl
@[simp] theorem State.obsv_reform (s : State) (o : Obs) : (s.obsv o).reform = s.reform := rfl
@[simp] theorem State.obsv_dbg (s : State) (o : Obs) : (s.obsv o).dbg = s.dbg := rfl
@[simp] theorem State.obsv_cal (s : State) (o : Obs) : (s.obsv o).cal = s.cal := rfl
@[simp] theorem State.obsv_flash (s : State) (o : Obs) : (s.obsv o).flash = s.flash := rfl
@[simp] theorem State.obsv_upd (s : State) (o : Obs) : (s.obsv o).upd = s.upd := rfl
@[simp] theorem State.obsv_firsts (s : State) (o : Obs) : (s.obsv o).firsts = s.firsts := rfl
@[simp] theorem State.obsv_freeCtr (s : State) (o : Obs) : (s.obsv o).freeCtr = s.freeCtr := rfl
@[simp] theorem State.obsv_pending (s : State) (o : Obs) : (s.obsv o).pending = s.pending := rfl
@[simp] theorem State.obsv_rd (s : State) (o : Obs) (r : Nat) : (s.obsv o).rd r = s.rd r := rfl
@[simp] theorem State.obsv_getF (s : State) (o : Obs) (x : Fld) : (s.obsv o).getF x = s.getF x := rfl
@[simp] theorem State.obsv_bit (s : State) (o : Obs) (x : Fld) : (s.obsv o).bit x = s.bit x := rfl
@[simp] theorem State.obsv_rd64 (s : State) (o : Obs) (l h : Nat) : (s.obsv o).rd64 l h = s.rd64 l h := rfl

/-! ### State.free -/

@[simp] theorem State.free_regs (s : State) : (s.free.2).regs = s.regs := rfl
@[simp] theorem State.free_shadows (s : State) : (s.free.2).shadows = s.shadows := rfl
@[simp] theorem State.free_latches (s : State) : (s.free.2).latches = s.latches := rfl
@[simp] theorem State.free_setLog (s : State) : (s.free.2).setLog = s.setLog := rfl
@[simp] theorem State.free_recq (s : State) : (s.free.2).recq = s.recq := rfl
@[simp] theorem State.free_eqs (s : State) : (s.free.2).eqs = s.eqs := rfl
@[simp] theorem State.free_wqs (s : State) : (s.free.2).wqs = s.wqs := rfl
@[simp] theorem State.free_fqs (s : State) : (s.free.2).fqs = s.fqs := rfl
@[simp] theorem State.free_fqHeld (s : State) : (s.free.2).fqHeld = s.fqHeld := rfl
@[simp] theorem State.free_image (s : State) : (s.free.2).image = s.image := rfl
@[simp] theorem State.free_time (s : State) : (s.free.2).time = s.time := rfl
@[simp] theorem State.free_run (s : State) : (s.free.2).run = s.run := rfl
@[simp] theorem State.free_mem (s : State) : (s.free.2).mem = s.mem := rfl
@[simp] theorem State.free_trg (s : State) : (s.free.2).trg = s.trg := rfl
@[simp] theorem State.free_path (s : State) : (s.free.2).path = s.path := rfl
@[simp] theorem State.free_strs (s : State) : (s.free.2).strs = s.strs := rfl
@[simp] theorem State.free_snt (s : State) : (s.free.2).snt = s.snt := rfl
@[simp] theorem State.free_ports (s : State) : (s.free.2).ports = s.ports := rfl
@[simp] theorem State.free_dmfQ (s : State) : (s.free.2).dmfQ = s.dmfQ := rfl
@[simp] theorem State.free_host (s : State) : (s.free.2).host = s.host := rfl
@[simp] theorem State.free_mbx (s : State) : (s.free.2).mbx = s.mbx := rfl
@[simp] theorem State.free_mnt (s : State) : (s.free.2).mnt = s.mnt := rfl
@[simp] theorem State.free_pwr (s : State) : (s.free.2).pwr = s.pwr := rfl
@[simp] theorem State.free_conv (s : State) : (s.free.2).conv = s.conv := rfl
@[simp] theorem State.free_reform (s : State) : (s.free.2).reform = s.reform := rfl
@[simp] theorem State.free_dbg (s : State) : (s.free.2).dbg = s.dbg := rfl
@[simp] theorem State.free_cal (s : State) : (s.free.2).cal = s.cal := rfl
@[simp] theorem State.free_flash (s : State) : (s.free.2).flash = s.flash := rfl
@[simp] theorem State.free_upd (s : State) : (s.free.2).upd = s.upd := rfl
@[simp] theorem State.free_firsts (s : State) : (s.free.2).firsts = s.firsts := rfl
@[simp] theorem State.free_obs (s : State) : (s.free.2).obs = s.obs := rfl
@[simp] theorem State.free_pending (s : State) : (s.free.2).pending = s.pending := rfl
@[simp] theorem State.free_rd (s : State) (r : Nat) : (s.free.2).rd r = s.rd r := rfl
@[simp] theorem State.free_getF (s : State) (x : Fld) : (s.free.2).getF x = s.getF x := rfl
@[simp] theorem State.free_bit (s : State) (x : Fld) : (s.free.2).bit x = s.bit x := rfl
@[simp] theorem State.free_rd64 (s : State) (l h : Nat) : (s.free.2).rd64 l h = s.rd64 l h := rfl

/-! ### State.updFn -/

@[simp] theorem State.updFn_regs (s : State) (f : Nat) (g : PciFn → PciFn) : (s.updFn f g).regs = s.regs := rfl
@[simp] theorem State.updFn_shadows (s : State) (f : Nat) (g : PciFn → PciFn) : (s.updFn f g).shadows = s.shadows := rfl
@[simp] theorem State.updFn_latches (s : State) (f : Nat) (g : PciFn → PciFn) : (s.updFn f g).latches = s.latches := rfl
@[simp] theorem State.updFn_setLog (s : State) (f : Nat) (g : PciFn → PciFn) : (s.updFn f g).setLog = s.setLog := rfl
@[simp] theorem State.updFn_recq (s : State) (f : Nat) (g : PciFn → PciFn) : (s.updFn f g).recq = s.recq := rfl
@[simp] theorem State.updFn_eqs (s : State) (f : Nat) (g : PciFn → PciFn) : (s.updFn f g).eqs = s.eqs := rfl
@[simp] theorem State.updFn_wqs (s : State) (f : Nat) (g : PciFn → PciFn) : (s.updFn f g).wqs = s.wqs := rfl
@[simp] theorem State.updFn_fqs (s : State) (f : Nat) (g : PciFn → PciFn) : (s.updFn f g).fqs = s.fqs := rfl
@[simp] theorem State.updFn_fqHeld (s : State) (f : Nat) (g : PciFn → PciFn) : (s.updFn f g).fqHeld = s.fqHeld := rfl
@[simp] theorem State.updFn_image (s : State) (f : Nat) (g : PciFn → PciFn) : (s.updFn f g).image = s.image := rfl
@[simp] theorem State.updFn_time (s : State) (f : Nat) (g : PciFn → PciFn) : (s.updFn f g).time = s.time := rfl
@[simp] theorem State.updFn_run (s : State) (f : Nat) (g : PciFn → PciFn) : (s.updFn f g).run = s.run := rfl
@[simp] theorem State.updFn_mem (s : State) (f : Nat) (g : PciFn → PciFn) : (s.updFn f g).mem = s.mem := rfl
@[simp] theorem State.updFn_trg (s : State) (f : Nat) (g : PciFn → PciFn) : (s.updFn f g).trg = s.trg := rfl
@[simp] theorem State.updFn_path (s : State) (f : Nat) (g : PciFn → PciFn) : (s.updFn f g).path = s.path := rfl
@[simp] theorem State.updFn_strs (s : State) (f : Nat) (g : PciFn → PciFn) : (s.updFn f g).strs = s.strs := rfl
@[simp] theorem State.updFn_snt (s : State) (f : Nat) (g : PciFn → PciFn) : (s.updFn f g).snt = s.snt := rfl
@[simp] theorem State.updFn_ports (s : State) (f : Nat) (g : PciFn → PciFn) : (s.updFn f g).ports = s.ports := rfl
@[simp] theorem State.updFn_dmfQ (s : State) (f : Nat) (g : PciFn → PciFn) : (s.updFn f g).dmfQ = s.dmfQ := rfl
@[simp] theorem State.updFn_mbx (s : State) (f : Nat) (g : PciFn → PciFn) : (s.updFn f g).mbx = s.mbx := rfl
@[simp] theorem State.updFn_mnt (s : State) (f : Nat) (g : PciFn → PciFn) : (s.updFn f g).mnt = s.mnt := rfl
@[simp] theorem State.updFn_pwr (s : State) (f : Nat) (g : PciFn → PciFn) : (s.updFn f g).pwr = s.pwr := rfl
@[simp] theorem State.updFn_conv (s : State) (f : Nat) (g : PciFn → PciFn) : (s.updFn f g).conv = s.conv := rfl
@[simp] theorem State.updFn_reform (s : State) (f : Nat) (g : PciFn → PciFn) : (s.updFn f g).reform = s.reform := rfl
@[simp] theorem State.updFn_dbg (s : State) (f : Nat) (g : PciFn → PciFn) : (s.updFn f g).dbg = s.dbg := rfl
@[simp] theorem State.updFn_cal (s : State) (f : Nat) (g : PciFn → PciFn) : (s.updFn f g).cal = s.cal := rfl
@[simp] theorem State.updFn_flash (s : State) (f : Nat) (g : PciFn → PciFn) : (s.updFn f g).flash = s.flash := rfl
@[simp] theorem State.updFn_upd (s : State) (f : Nat) (g : PciFn → PciFn) : (s.updFn f g).upd = s.upd := rfl
@[simp] theorem State.updFn_firsts (s : State) (f : Nat) (g : PciFn → PciFn) : (s.updFn f g).firsts = s.firsts := rfl
@[simp] theorem State.updFn_obs (s : State) (f : Nat) (g : PciFn → PciFn) : (s.updFn f g).obs = s.obs := rfl
@[simp] theorem State.updFn_freeCtr (s : State) (f : Nat) (g : PciFn → PciFn) : (s.updFn f g).freeCtr = s.freeCtr := rfl
@[simp] theorem State.updFn_pending (s : State) (f : Nat) (g : PciFn → PciFn) : (s.updFn f g).pending = s.pending := rfl
@[simp] theorem State.updFn_rd (s : State) (f : Nat) (g : PciFn → PciFn) (r : Nat) : (s.updFn f g).rd r = s.rd r := rfl
@[simp] theorem State.updFn_getF (s : State) (f : Nat) (g : PciFn → PciFn) (x : Fld) : (s.updFn f g).getF x = s.getF x := rfl
@[simp] theorem State.updFn_bit (s : State) (f : Nat) (g : PciFn → PciFn) (x : Fld) : (s.updFn f g).bit x = s.bit x := rfl
@[simp] theorem State.updFn_rd64 (s : State) (f : Nat) (g : PciFn → PciFn) (l h : Nat) : (s.updFn f g).rd64 l h = s.rd64 l h := rfl

/-! ### State.bpNote -/

@[simp] theorem State.bpNote_regs (s : State) (y : Nat) (sel : Nat → Bool) (v : Nat) (e : Option Nat) : (s.bpNote y sel v e).regs = s.regs := rfl
@[simp] theorem State.bpNote_shadows (s : State) (y : Nat) (sel : Nat → Bool) (v : Nat) (e : Option Nat) : (s.bpNote y sel v e).shadows = s.shadows := rfl
@[simp] theorem State.bpNote_latches (s : State) (y : Nat) (sel : Nat → Bool) (v : Nat) (e : Option Nat) : (s.bpNote y sel v e).latches = s.latches := rfl
@[simp] theorem State.bpNote_setLog (s : State) (y : Nat) (sel : Nat → Bool) (v : Nat) (e : Option Nat) : (s.bpNote y sel v e).setLog = s.setLog := rfl
@[simp] theorem State.bpNote_recq (s : State) (y : Nat) (sel : Nat → Bool) (v : Nat) (e : Option Nat) : (s.bpNote y sel v e).recq = s.recq := rfl
@[simp] theorem State.bpNote_eqs (s : State) (y : Nat) (sel : Nat → Bool) (v : Nat) (e : Option Nat) : (s.bpNote y sel v e).eqs = s.eqs := rfl
@[simp] theorem State.bpNote_wqs (s : State) (y : Nat) (sel : Nat → Bool) (v : Nat) (e : Option Nat) : (s.bpNote y sel v e).wqs = s.wqs := rfl
@[simp] theorem State.bpNote_fqs (s : State) (y : Nat) (sel : Nat → Bool) (v : Nat) (e : Option Nat) : (s.bpNote y sel v e).fqs = s.fqs := rfl
@[simp] theorem State.bpNote_fqHeld (s : State) (y : Nat) (sel : Nat → Bool) (v : Nat) (e : Option Nat) : (s.bpNote y sel v e).fqHeld = s.fqHeld := rfl
@[simp] theorem State.bpNote_image (s : State) (y : Nat) (sel : Nat → Bool) (v : Nat) (e : Option Nat) : (s.bpNote y sel v e).image = s.image := rfl
@[simp] theorem State.bpNote_time (s : State) (y : Nat) (sel : Nat → Bool) (v : Nat) (e : Option Nat) : (s.bpNote y sel v e).time = s.time := rfl
@[simp] theorem State.bpNote_run (s : State) (y : Nat) (sel : Nat → Bool) (v : Nat) (e : Option Nat) : (s.bpNote y sel v e).run = s.run := rfl
@[simp] theorem State.bpNote_mem (s : State) (y : Nat) (sel : Nat → Bool) (v : Nat) (e : Option Nat) : (s.bpNote y sel v e).mem = s.mem := rfl
@[simp] theorem State.bpNote_trg (s : State) (y : Nat) (sel : Nat → Bool) (v : Nat) (e : Option Nat) : (s.bpNote y sel v e).trg = s.trg := rfl
@[simp] theorem State.bpNote_path (s : State) (y : Nat) (sel : Nat → Bool) (v : Nat) (e : Option Nat) : (s.bpNote y sel v e).path = s.path := rfl
@[simp] theorem State.bpNote_strs (s : State) (y : Nat) (sel : Nat → Bool) (v : Nat) (e : Option Nat) : (s.bpNote y sel v e).strs = s.strs := rfl
@[simp] theorem State.bpNote_snt (s : State) (y : Nat) (sel : Nat → Bool) (v : Nat) (e : Option Nat) : (s.bpNote y sel v e).snt = s.snt := rfl
@[simp] theorem State.bpNote_ports (s : State) (y : Nat) (sel : Nat → Bool) (v : Nat) (e : Option Nat) : (s.bpNote y sel v e).ports = s.ports := rfl
@[simp] theorem State.bpNote_dmfQ (s : State) (y : Nat) (sel : Nat → Bool) (v : Nat) (e : Option Nat) : (s.bpNote y sel v e).dmfQ = s.dmfQ := rfl
@[simp] theorem State.bpNote_host (s : State) (y : Nat) (sel : Nat → Bool) (v : Nat) (e : Option Nat) : (s.bpNote y sel v e).host = s.host := rfl
@[simp] theorem State.bpNote_mbx (s : State) (y : Nat) (sel : Nat → Bool) (v : Nat) (e : Option Nat) : (s.bpNote y sel v e).mbx = s.mbx := rfl
@[simp] theorem State.bpNote_mnt (s : State) (y : Nat) (sel : Nat → Bool) (v : Nat) (e : Option Nat) : (s.bpNote y sel v e).mnt = s.mnt := rfl
@[simp] theorem State.bpNote_pwr (s : State) (y : Nat) (sel : Nat → Bool) (v : Nat) (e : Option Nat) : (s.bpNote y sel v e).pwr = s.pwr := rfl
@[simp] theorem State.bpNote_conv (s : State) (y : Nat) (sel : Nat → Bool) (v : Nat) (e : Option Nat) : (s.bpNote y sel v e).conv = s.conv := rfl
@[simp] theorem State.bpNote_reform (s : State) (y : Nat) (sel : Nat → Bool) (v : Nat) (e : Option Nat) : (s.bpNote y sel v e).reform = s.reform := rfl
@[simp] theorem State.bpNote_cal (s : State) (y : Nat) (sel : Nat → Bool) (v : Nat) (e : Option Nat) : (s.bpNote y sel v e).cal = s.cal := rfl
@[simp] theorem State.bpNote_flash (s : State) (y : Nat) (sel : Nat → Bool) (v : Nat) (e : Option Nat) : (s.bpNote y sel v e).flash = s.flash := rfl
@[simp] theorem State.bpNote_upd (s : State) (y : Nat) (sel : Nat → Bool) (v : Nat) (e : Option Nat) : (s.bpNote y sel v e).upd = s.upd := rfl
@[simp] theorem State.bpNote_firsts (s : State) (y : Nat) (sel : Nat → Bool) (v : Nat) (e : Option Nat) : (s.bpNote y sel v e).firsts = s.firsts := rfl
@[simp] theorem State.bpNote_obs (s : State) (y : Nat) (sel : Nat → Bool) (v : Nat) (e : Option Nat) : (s.bpNote y sel v e).obs = s.obs := rfl
@[simp] theorem State.bpNote_freeCtr (s : State) (y : Nat) (sel : Nat → Bool) (v : Nat) (e : Option Nat) : (s.bpNote y sel v e).freeCtr = s.freeCtr := rfl
@[simp] theorem State.bpNote_pending (s : State) (y : Nat) (sel : Nat → Bool) (v : Nat) (e : Option Nat) : (s.bpNote y sel v e).pending = s.pending := rfl
@[simp] theorem State.bpNote_rd (s : State) (y : Nat) (sel : Nat → Bool) (v : Nat) (e : Option Nat) (r : Nat) : (s.bpNote y sel v e).rd r = s.rd r := rfl
@[simp] theorem State.bpNote_getF (s : State) (y : Nat) (sel : Nat → Bool) (v : Nat) (e : Option Nat) (x : Fld) : (s.bpNote y sel v e).getF x = s.getF x := rfl
@[simp] theorem State.bpNote_bit (s : State) (y : Nat) (sel : Nat → Bool) (v : Nat) (e : Option Nat) (x : Fld) : (s.bpNote y sel v e).bit x = s.bit x := rfl
@[simp] theorem State.bpNote_rd64 (s : State) (y : Nat) (sel : Nat → Bool) (v : Nat) (e : Option Nat) (l h : Nat) : (s.bpNote y sel v e).rd64 l h = s.rd64 l h := rfl

/-! ### State.bpReg -/

@[simp] theorem State.bpReg_regs (s : State) (i : Ident) (off : Nat) (b : Bool) : (s.bpReg i off b).regs = s.regs := rfl
@[simp] theorem State.bpReg_shadows (s : State) (i : Ident) (off : Nat) (b : Bool) : (s.bpReg i off b).shadows = s.shadows := rfl
@[simp] theorem State.bpReg_latches (s : State) (i : Ident) (off : Nat) (b : Bool) : (s.bpReg i off b).latches = s.latches := rfl
@[simp] theorem State.bpReg_setLog (s : State) (i : Ident) (off : Nat) (b : Bool) : (s.bpReg i off b).setLog = s.setLog := rfl
@[simp] theorem State.bpReg_recq (s : State) (i : Ident) (off : Nat) (b : Bool) : (s.bpReg i off b).recq = s.recq := rfl
@[simp] theorem State.bpReg_eqs (s : State) (i : Ident) (off : Nat) (b : Bool) : (s.bpReg i off b).eqs = s.eqs := rfl
@[simp] theorem State.bpReg_wqs (s : State) (i : Ident) (off : Nat) (b : Bool) : (s.bpReg i off b).wqs = s.wqs := rfl
@[simp] theorem State.bpReg_fqs (s : State) (i : Ident) (off : Nat) (b : Bool) : (s.bpReg i off b).fqs = s.fqs := rfl
@[simp] theorem State.bpReg_fqHeld (s : State) (i : Ident) (off : Nat) (b : Bool) : (s.bpReg i off b).fqHeld = s.fqHeld := rfl
@[simp] theorem State.bpReg_image (s : State) (i : Ident) (off : Nat) (b : Bool) : (s.bpReg i off b).image = s.image := rfl
@[simp] theorem State.bpReg_time (s : State) (i : Ident) (off : Nat) (b : Bool) : (s.bpReg i off b).time = s.time := rfl
@[simp] theorem State.bpReg_run (s : State) (i : Ident) (off : Nat) (b : Bool) : (s.bpReg i off b).run = s.run := rfl
@[simp] theorem State.bpReg_mem (s : State) (i : Ident) (off : Nat) (b : Bool) : (s.bpReg i off b).mem = s.mem := rfl
@[simp] theorem State.bpReg_trg (s : State) (i : Ident) (off : Nat) (b : Bool) : (s.bpReg i off b).trg = s.trg := rfl
@[simp] theorem State.bpReg_path (s : State) (i : Ident) (off : Nat) (b : Bool) : (s.bpReg i off b).path = s.path := rfl
@[simp] theorem State.bpReg_strs (s : State) (i : Ident) (off : Nat) (b : Bool) : (s.bpReg i off b).strs = s.strs := rfl
@[simp] theorem State.bpReg_snt (s : State) (i : Ident) (off : Nat) (b : Bool) : (s.bpReg i off b).snt = s.snt := rfl
@[simp] theorem State.bpReg_ports (s : State) (i : Ident) (off : Nat) (b : Bool) : (s.bpReg i off b).ports = s.ports := rfl
@[simp] theorem State.bpReg_dmfQ (s : State) (i : Ident) (off : Nat) (b : Bool) : (s.bpReg i off b).dmfQ = s.dmfQ := rfl
@[simp] theorem State.bpReg_host (s : State) (i : Ident) (off : Nat) (b : Bool) : (s.bpReg i off b).host = s.host := rfl
@[simp] theorem State.bpReg_mbx (s : State) (i : Ident) (off : Nat) (b : Bool) : (s.bpReg i off b).mbx = s.mbx := rfl
@[simp] theorem State.bpReg_mnt (s : State) (i : Ident) (off : Nat) (b : Bool) : (s.bpReg i off b).mnt = s.mnt := rfl
@[simp] theorem State.bpReg_pwr (s : State) (i : Ident) (off : Nat) (b : Bool) : (s.bpReg i off b).pwr = s.pwr := rfl
@[simp] theorem State.bpReg_conv (s : State) (i : Ident) (off : Nat) (b : Bool) : (s.bpReg i off b).conv = s.conv := rfl
@[simp] theorem State.bpReg_reform (s : State) (i : Ident) (off : Nat) (b : Bool) : (s.bpReg i off b).reform = s.reform := rfl
@[simp] theorem State.bpReg_cal (s : State) (i : Ident) (off : Nat) (b : Bool) : (s.bpReg i off b).cal = s.cal := rfl
@[simp] theorem State.bpReg_flash (s : State) (i : Ident) (off : Nat) (b : Bool) : (s.bpReg i off b).flash = s.flash := rfl
@[simp] theorem State.bpReg_upd (s : State) (i : Ident) (off : Nat) (b : Bool) : (s.bpReg i off b).upd = s.upd := rfl
@[simp] theorem State.bpReg_firsts (s : State) (i : Ident) (off : Nat) (b : Bool) : (s.bpReg i off b).firsts = s.firsts := rfl
@[simp] theorem State.bpReg_obs (s : State) (i : Ident) (off : Nat) (b : Bool) : (s.bpReg i off b).obs = s.obs := rfl
@[simp] theorem State.bpReg_freeCtr (s : State) (i : Ident) (off : Nat) (b : Bool) : (s.bpReg i off b).freeCtr = s.freeCtr := rfl
@[simp] theorem State.bpReg_pending (s : State) (i : Ident) (off : Nat) (b : Bool) : (s.bpReg i off b).pending = s.pending := rfl
@[simp] theorem State.bpReg_rd (s : State) (i : Ident) (off : Nat) (b : Bool) (r : Nat) : (s.bpReg i off b).rd r = s.rd r := rfl
@[simp] theorem State.bpReg_getF (s : State) (i : Ident) (off : Nat) (b : Bool) (x : Fld) : (s.bpReg i off b).getF x = s.getF x := rfl
@[simp] theorem State.bpReg_bit (s : State) (i : Ident) (off : Nat) (b : Bool) (x : Fld) : (s.bpReg i off b).bit x = s.bit x := rfl
@[simp] theorem State.bpReg_rd64 (s : State) (i : Ident) (off : Nat) (b : Bool) (l h : Nat) : (s.bpReg i off b).rd64 l h = s.rd64 l h := rfl

/-! ### State.latch -/

@[simp] theorem State.latch_regs (s : State) (i : Ident) (off : Nat) (v : Word) : (s.latch i off v).regs = s.regs := rfl
@[simp] theorem State.latch_shadows (s : State) (i : Ident) (off : Nat) (v : Word) : (s.latch i off v).shadows = s.shadows := rfl
@[simp] theorem State.latch_setLog (s : State) (i : Ident) (off : Nat) (v : Word) : (s.latch i off v).setLog = s.setLog := rfl
@[simp] theorem State.latch_recq (s : State) (i : Ident) (off : Nat) (v : Word) : (s.latch i off v).recq = s.recq := rfl
@[simp] theorem State.latch_eqs (s : State) (i : Ident) (off : Nat) (v : Word) : (s.latch i off v).eqs = s.eqs := rfl
@[simp] theorem State.latch_wqs (s : State) (i : Ident) (off : Nat) (v : Word) : (s.latch i off v).wqs = s.wqs := rfl
@[simp] theorem State.latch_fqs (s : State) (i : Ident) (off : Nat) (v : Word) : (s.latch i off v).fqs = s.fqs := rfl
@[simp] theorem State.latch_fqHeld (s : State) (i : Ident) (off : Nat) (v : Word) : (s.latch i off v).fqHeld = s.fqHeld := rfl
@[simp] theorem State.latch_image (s : State) (i : Ident) (off : Nat) (v : Word) : (s.latch i off v).image = s.image := rfl
@[simp] theorem State.latch_time (s : State) (i : Ident) (off : Nat) (v : Word) : (s.latch i off v).time = s.time := rfl
@[simp] theorem State.latch_run (s : State) (i : Ident) (off : Nat) (v : Word) : (s.latch i off v).run = s.run := rfl
@[simp] theorem State.latch_mem (s : State) (i : Ident) (off : Nat) (v : Word) : (s.latch i off v).mem = s.mem := rfl
@[simp] theorem State.latch_trg (s : State) (i : Ident) (off : Nat) (v : Word) : (s.latch i off v).trg = s.trg := rfl
@[simp] theorem State.latch_path (s : State) (i : Ident) (off : Nat) (v : Word) : (s.latch i off v).path = s.path := rfl
@[simp] theorem State.latch_strs (s : State) (i : Ident) (off : Nat) (v : Word) : (s.latch i off v).strs = s.strs := rfl
@[simp] theorem State.latch_snt (s : State) (i : Ident) (off : Nat) (v : Word) : (s.latch i off v).snt = s.snt := rfl
@[simp] theorem State.latch_ports (s : State) (i : Ident) (off : Nat) (v : Word) : (s.latch i off v).ports = s.ports := rfl
@[simp] theorem State.latch_dmfQ (s : State) (i : Ident) (off : Nat) (v : Word) : (s.latch i off v).dmfQ = s.dmfQ := rfl
@[simp] theorem State.latch_host (s : State) (i : Ident) (off : Nat) (v : Word) : (s.latch i off v).host = s.host := rfl
@[simp] theorem State.latch_mbx (s : State) (i : Ident) (off : Nat) (v : Word) : (s.latch i off v).mbx = s.mbx := rfl
@[simp] theorem State.latch_mnt (s : State) (i : Ident) (off : Nat) (v : Word) : (s.latch i off v).mnt = s.mnt := rfl
@[simp] theorem State.latch_pwr (s : State) (i : Ident) (off : Nat) (v : Word) : (s.latch i off v).pwr = s.pwr := rfl
@[simp] theorem State.latch_conv (s : State) (i : Ident) (off : Nat) (v : Word) : (s.latch i off v).conv = s.conv := rfl
@[simp] theorem State.latch_reform (s : State) (i : Ident) (off : Nat) (v : Word) : (s.latch i off v).reform = s.reform := rfl
@[simp] theorem State.latch_dbg (s : State) (i : Ident) (off : Nat) (v : Word) : (s.latch i off v).dbg = s.dbg := rfl
@[simp] theorem State.latch_cal (s : State) (i : Ident) (off : Nat) (v : Word) : (s.latch i off v).cal = s.cal := rfl
@[simp] theorem State.latch_flash (s : State) (i : Ident) (off : Nat) (v : Word) : (s.latch i off v).flash = s.flash := rfl
@[simp] theorem State.latch_upd (s : State) (i : Ident) (off : Nat) (v : Word) : (s.latch i off v).upd = s.upd := rfl
@[simp] theorem State.latch_firsts (s : State) (i : Ident) (off : Nat) (v : Word) : (s.latch i off v).firsts = s.firsts := rfl
@[simp] theorem State.latch_obs (s : State) (i : Ident) (off : Nat) (v : Word) : (s.latch i off v).obs = s.obs := rfl
@[simp] theorem State.latch_freeCtr (s : State) (i : Ident) (off : Nat) (v : Word) : (s.latch i off v).freeCtr = s.freeCtr := rfl
@[simp] theorem State.latch_pending (s : State) (i : Ident) (off : Nat) (v : Word) : (s.latch i off v).pending = s.pending := rfl
@[simp] theorem State.latch_rd (s : State) (i : Ident) (off : Nat) (v : Word) (r : Nat) : (s.latch i off v).rd r = s.rd r := rfl
@[simp] theorem State.latch_getF (s : State) (i : Ident) (off : Nat) (v : Word) (x : Fld) : (s.latch i off v).getF x = s.getF x := rfl
@[simp] theorem State.latch_bit (s : State) (i : Ident) (off : Nat) (v : Word) (x : Fld) : (s.latch i off v).bit x = s.bit x := rfl
@[simp] theorem State.latch_rd64 (s : State) (i : Ident) (off : Nat) (v : Word) (l h : Nat) : (s.latch i off v).rd64 l h = s.rd64 l h := rfl

/-! ### State.updTcu -/

@[simp] theorem State.updTcu_regs (s : State) (n : Nat) (f : Tcu → Tcu) : (s.updTcu n f).regs = s.regs := rfl
@[simp] theorem State.updTcu_shadows (s : State) (n : Nat) (f : Tcu → Tcu) : (s.updTcu n f).shadows = s.shadows := rfl
@[simp] theorem State.updTcu_latches (s : State) (n : Nat) (f : Tcu → Tcu) : (s.updTcu n f).latches = s.latches := rfl
@[simp] theorem State.updTcu_setLog (s : State) (n : Nat) (f : Tcu → Tcu) : (s.updTcu n f).setLog = s.setLog := rfl
@[simp] theorem State.updTcu_recq (s : State) (n : Nat) (f : Tcu → Tcu) : (s.updTcu n f).recq = s.recq := rfl
@[simp] theorem State.updTcu_eqs (s : State) (n : Nat) (f : Tcu → Tcu) : (s.updTcu n f).eqs = s.eqs := rfl
@[simp] theorem State.updTcu_wqs (s : State) (n : Nat) (f : Tcu → Tcu) : (s.updTcu n f).wqs = s.wqs := rfl
@[simp] theorem State.updTcu_fqs (s : State) (n : Nat) (f : Tcu → Tcu) : (s.updTcu n f).fqs = s.fqs := rfl
@[simp] theorem State.updTcu_fqHeld (s : State) (n : Nat) (f : Tcu → Tcu) : (s.updTcu n f).fqHeld = s.fqHeld := rfl
@[simp] theorem State.updTcu_image (s : State) (n : Nat) (f : Tcu → Tcu) : (s.updTcu n f).image = s.image := rfl
@[simp] theorem State.updTcu_run (s : State) (n : Nat) (f : Tcu → Tcu) : (s.updTcu n f).run = s.run := rfl
@[simp] theorem State.updTcu_mem (s : State) (n : Nat) (f : Tcu → Tcu) : (s.updTcu n f).mem = s.mem := rfl
@[simp] theorem State.updTcu_trg (s : State) (n : Nat) (f : Tcu → Tcu) : (s.updTcu n f).trg = s.trg := rfl
@[simp] theorem State.updTcu_path (s : State) (n : Nat) (f : Tcu → Tcu) : (s.updTcu n f).path = s.path := rfl
@[simp] theorem State.updTcu_strs (s : State) (n : Nat) (f : Tcu → Tcu) : (s.updTcu n f).strs = s.strs := rfl
@[simp] theorem State.updTcu_snt (s : State) (n : Nat) (f : Tcu → Tcu) : (s.updTcu n f).snt = s.snt := rfl
@[simp] theorem State.updTcu_ports (s : State) (n : Nat) (f : Tcu → Tcu) : (s.updTcu n f).ports = s.ports := rfl
@[simp] theorem State.updTcu_dmfQ (s : State) (n : Nat) (f : Tcu → Tcu) : (s.updTcu n f).dmfQ = s.dmfQ := rfl
@[simp] theorem State.updTcu_host (s : State) (n : Nat) (f : Tcu → Tcu) : (s.updTcu n f).host = s.host := rfl
@[simp] theorem State.updTcu_mbx (s : State) (n : Nat) (f : Tcu → Tcu) : (s.updTcu n f).mbx = s.mbx := rfl
@[simp] theorem State.updTcu_mnt (s : State) (n : Nat) (f : Tcu → Tcu) : (s.updTcu n f).mnt = s.mnt := rfl
@[simp] theorem State.updTcu_pwr (s : State) (n : Nat) (f : Tcu → Tcu) : (s.updTcu n f).pwr = s.pwr := rfl
@[simp] theorem State.updTcu_conv (s : State) (n : Nat) (f : Tcu → Tcu) : (s.updTcu n f).conv = s.conv := rfl
@[simp] theorem State.updTcu_reform (s : State) (n : Nat) (f : Tcu → Tcu) : (s.updTcu n f).reform = s.reform := rfl
@[simp] theorem State.updTcu_dbg (s : State) (n : Nat) (f : Tcu → Tcu) : (s.updTcu n f).dbg = s.dbg := rfl
@[simp] theorem State.updTcu_cal (s : State) (n : Nat) (f : Tcu → Tcu) : (s.updTcu n f).cal = s.cal := rfl
@[simp] theorem State.updTcu_flash (s : State) (n : Nat) (f : Tcu → Tcu) : (s.updTcu n f).flash = s.flash := rfl
@[simp] theorem State.updTcu_upd (s : State) (n : Nat) (f : Tcu → Tcu) : (s.updTcu n f).upd = s.upd := rfl
@[simp] theorem State.updTcu_firsts (s : State) (n : Nat) (f : Tcu → Tcu) : (s.updTcu n f).firsts = s.firsts := rfl
@[simp] theorem State.updTcu_obs (s : State) (n : Nat) (f : Tcu → Tcu) : (s.updTcu n f).obs = s.obs := rfl
@[simp] theorem State.updTcu_freeCtr (s : State) (n : Nat) (f : Tcu → Tcu) : (s.updTcu n f).freeCtr = s.freeCtr := rfl
@[simp] theorem State.updTcu_pending (s : State) (n : Nat) (f : Tcu → Tcu) : (s.updTcu n f).pending = s.pending := rfl
@[simp] theorem State.updTcu_rd (s : State) (n : Nat) (f : Tcu → Tcu) (r : Nat) : (s.updTcu n f).rd r = s.rd r := rfl
@[simp] theorem State.updTcu_getF (s : State) (n : Nat) (f : Tcu → Tcu) (x : Fld) : (s.updTcu n f).getF x = s.getF x := rfl
@[simp] theorem State.updTcu_bit (s : State) (n : Nat) (f : Tcu → Tcu) (x : Fld) : (s.updTcu n f).bit x = s.bit x := rfl
@[simp] theorem State.updTcu_rd64 (s : State) (n : Nat) (f : Tcu → Tcu) (l h : Nat) : (s.updTcu n f).rd64 l h = s.rd64 l h := rfl

/-! ### State.updTpo -/

@[simp] theorem State.updTpo_regs (s : State) (n : Nat) (f : Tpo → Tpo) : (s.updTpo n f).regs = s.regs := rfl
@[simp] theorem State.updTpo_shadows (s : State) (n : Nat) (f : Tpo → Tpo) : (s.updTpo n f).shadows = s.shadows := rfl
@[simp] theorem State.updTpo_latches (s : State) (n : Nat) (f : Tpo → Tpo) : (s.updTpo n f).latches = s.latches := rfl
@[simp] theorem State.updTpo_setLog (s : State) (n : Nat) (f : Tpo → Tpo) : (s.updTpo n f).setLog = s.setLog := rfl
@[simp] theorem State.updTpo_recq (s : State) (n : Nat) (f : Tpo → Tpo) : (s.updTpo n f).recq = s.recq := rfl
@[simp] theorem State.updTpo_eqs (s : State) (n : Nat) (f : Tpo → Tpo) : (s.updTpo n f).eqs = s.eqs := rfl
@[simp] theorem State.updTpo_wqs (s : State) (n : Nat) (f : Tpo → Tpo) : (s.updTpo n f).wqs = s.wqs := rfl
@[simp] theorem State.updTpo_fqs (s : State) (n : Nat) (f : Tpo → Tpo) : (s.updTpo n f).fqs = s.fqs := rfl
@[simp] theorem State.updTpo_fqHeld (s : State) (n : Nat) (f : Tpo → Tpo) : (s.updTpo n f).fqHeld = s.fqHeld := rfl
@[simp] theorem State.updTpo_image (s : State) (n : Nat) (f : Tpo → Tpo) : (s.updTpo n f).image = s.image := rfl
@[simp] theorem State.updTpo_run (s : State) (n : Nat) (f : Tpo → Tpo) : (s.updTpo n f).run = s.run := rfl
@[simp] theorem State.updTpo_mem (s : State) (n : Nat) (f : Tpo → Tpo) : (s.updTpo n f).mem = s.mem := rfl
@[simp] theorem State.updTpo_trg (s : State) (n : Nat) (f : Tpo → Tpo) : (s.updTpo n f).trg = s.trg := rfl
@[simp] theorem State.updTpo_path (s : State) (n : Nat) (f : Tpo → Tpo) : (s.updTpo n f).path = s.path := rfl
@[simp] theorem State.updTpo_strs (s : State) (n : Nat) (f : Tpo → Tpo) : (s.updTpo n f).strs = s.strs := rfl
@[simp] theorem State.updTpo_snt (s : State) (n : Nat) (f : Tpo → Tpo) : (s.updTpo n f).snt = s.snt := rfl
@[simp] theorem State.updTpo_ports (s : State) (n : Nat) (f : Tpo → Tpo) : (s.updTpo n f).ports = s.ports := rfl
@[simp] theorem State.updTpo_dmfQ (s : State) (n : Nat) (f : Tpo → Tpo) : (s.updTpo n f).dmfQ = s.dmfQ := rfl
@[simp] theorem State.updTpo_host (s : State) (n : Nat) (f : Tpo → Tpo) : (s.updTpo n f).host = s.host := rfl
@[simp] theorem State.updTpo_mbx (s : State) (n : Nat) (f : Tpo → Tpo) : (s.updTpo n f).mbx = s.mbx := rfl
@[simp] theorem State.updTpo_mnt (s : State) (n : Nat) (f : Tpo → Tpo) : (s.updTpo n f).mnt = s.mnt := rfl
@[simp] theorem State.updTpo_pwr (s : State) (n : Nat) (f : Tpo → Tpo) : (s.updTpo n f).pwr = s.pwr := rfl
@[simp] theorem State.updTpo_conv (s : State) (n : Nat) (f : Tpo → Tpo) : (s.updTpo n f).conv = s.conv := rfl
@[simp] theorem State.updTpo_reform (s : State) (n : Nat) (f : Tpo → Tpo) : (s.updTpo n f).reform = s.reform := rfl
@[simp] theorem State.updTpo_dbg (s : State) (n : Nat) (f : Tpo → Tpo) : (s.updTpo n f).dbg = s.dbg := rfl
@[simp] theorem State.updTpo_cal (s : State) (n : Nat) (f : Tpo → Tpo) : (s.updTpo n f).cal = s.cal := rfl
@[simp] theorem State.updTpo_flash (s : State) (n : Nat) (f : Tpo → Tpo) : (s.updTpo n f).flash = s.flash := rfl
@[simp] theorem State.updTpo_upd (s : State) (n : Nat) (f : Tpo → Tpo) : (s.updTpo n f).upd = s.upd := rfl
@[simp] theorem State.updTpo_firsts (s : State) (n : Nat) (f : Tpo → Tpo) : (s.updTpo n f).firsts = s.firsts := rfl
@[simp] theorem State.updTpo_obs (s : State) (n : Nat) (f : Tpo → Tpo) : (s.updTpo n f).obs = s.obs := rfl
@[simp] theorem State.updTpo_freeCtr (s : State) (n : Nat) (f : Tpo → Tpo) : (s.updTpo n f).freeCtr = s.freeCtr := rfl
@[simp] theorem State.updTpo_pending (s : State) (n : Nat) (f : Tpo → Tpo) : (s.updTpo n f).pending = s.pending := rfl
@[simp] theorem State.updTpo_rd (s : State) (n : Nat) (f : Tpo → Tpo) (r : Nat) : (s.updTpo n f).rd r = s.rd r := rfl
@[simp] theorem State.updTpo_getF (s : State) (n : Nat) (f : Tpo → Tpo) (x : Fld) : (s.updTpo n f).getF x = s.getF x := rfl
@[simp] theorem State.updTpo_bit (s : State) (n : Nat) (f : Tpo → Tpo) (x : Fld) : (s.updTpo n f).bit x = s.bit x := rfl
@[simp] theorem State.updTpo_rd64 (s : State) (n : Nat) (f : Tpo → Tpo) (l h : Nat) : (s.updTpo n f).rd64 l h = s.rd64 l h := rfl

/-! ### State.updStr -/

@[simp] theorem State.updStr_regs (s : State) (i : Nat) (f : StreamState → StreamState) : (s.updStr i f).regs = s.regs := rfl
@[simp] theorem State.updStr_shadows (s : State) (i : Nat) (f : StreamState → StreamState) : (s.updStr i f).shadows = s.shadows := rfl
@[simp] theorem State.updStr_latches (s : State) (i : Nat) (f : StreamState → StreamState) : (s.updStr i f).latches = s.latches := rfl
@[simp] theorem State.updStr_setLog (s : State) (i : Nat) (f : StreamState → StreamState) : (s.updStr i f).setLog = s.setLog := rfl
@[simp] theorem State.updStr_recq (s : State) (i : Nat) (f : StreamState → StreamState) : (s.updStr i f).recq = s.recq := rfl
@[simp] theorem State.updStr_eqs (s : State) (i : Nat) (f : StreamState → StreamState) : (s.updStr i f).eqs = s.eqs := rfl
@[simp] theorem State.updStr_wqs (s : State) (i : Nat) (f : StreamState → StreamState) : (s.updStr i f).wqs = s.wqs := rfl
@[simp] theorem State.updStr_fqs (s : State) (i : Nat) (f : StreamState → StreamState) : (s.updStr i f).fqs = s.fqs := rfl
@[simp] theorem State.updStr_fqHeld (s : State) (i : Nat) (f : StreamState → StreamState) : (s.updStr i f).fqHeld = s.fqHeld := rfl
@[simp] theorem State.updStr_image (s : State) (i : Nat) (f : StreamState → StreamState) : (s.updStr i f).image = s.image := rfl
@[simp] theorem State.updStr_time (s : State) (i : Nat) (f : StreamState → StreamState) : (s.updStr i f).time = s.time := rfl
@[simp] theorem State.updStr_run (s : State) (i : Nat) (f : StreamState → StreamState) : (s.updStr i f).run = s.run := rfl
@[simp] theorem State.updStr_mem (s : State) (i : Nat) (f : StreamState → StreamState) : (s.updStr i f).mem = s.mem := rfl
@[simp] theorem State.updStr_trg (s : State) (i : Nat) (f : StreamState → StreamState) : (s.updStr i f).trg = s.trg := rfl
@[simp] theorem State.updStr_path (s : State) (i : Nat) (f : StreamState → StreamState) : (s.updStr i f).path = s.path := rfl
@[simp] theorem State.updStr_snt (s : State) (i : Nat) (f : StreamState → StreamState) : (s.updStr i f).snt = s.snt := rfl
@[simp] theorem State.updStr_ports (s : State) (i : Nat) (f : StreamState → StreamState) : (s.updStr i f).ports = s.ports := rfl
@[simp] theorem State.updStr_dmfQ (s : State) (i : Nat) (f : StreamState → StreamState) : (s.updStr i f).dmfQ = s.dmfQ := rfl
@[simp] theorem State.updStr_host (s : State) (i : Nat) (f : StreamState → StreamState) : (s.updStr i f).host = s.host := rfl
@[simp] theorem State.updStr_mbx (s : State) (i : Nat) (f : StreamState → StreamState) : (s.updStr i f).mbx = s.mbx := rfl
@[simp] theorem State.updStr_mnt (s : State) (i : Nat) (f : StreamState → StreamState) : (s.updStr i f).mnt = s.mnt := rfl
@[simp] theorem State.updStr_pwr (s : State) (i : Nat) (f : StreamState → StreamState) : (s.updStr i f).pwr = s.pwr := rfl
@[simp] theorem State.updStr_conv (s : State) (i : Nat) (f : StreamState → StreamState) : (s.updStr i f).conv = s.conv := rfl
@[simp] theorem State.updStr_reform (s : State) (i : Nat) (f : StreamState → StreamState) : (s.updStr i f).reform = s.reform := rfl
@[simp] theorem State.updStr_dbg (s : State) (i : Nat) (f : StreamState → StreamState) : (s.updStr i f).dbg = s.dbg := rfl
@[simp] theorem State.updStr_cal (s : State) (i : Nat) (f : StreamState → StreamState) : (s.updStr i f).cal = s.cal := rfl
@[simp] theorem State.updStr_flash (s : State) (i : Nat) (f : StreamState → StreamState) : (s.updStr i f).flash = s.flash := rfl
@[simp] theorem State.updStr_upd (s : State) (i : Nat) (f : StreamState → StreamState) : (s.updStr i f).upd = s.upd := rfl
@[simp] theorem State.updStr_firsts (s : State) (i : Nat) (f : StreamState → StreamState) : (s.updStr i f).firsts = s.firsts := rfl
@[simp] theorem State.updStr_obs (s : State) (i : Nat) (f : StreamState → StreamState) : (s.updStr i f).obs = s.obs := rfl
@[simp] theorem State.updStr_freeCtr (s : State) (i : Nat) (f : StreamState → StreamState) : (s.updStr i f).freeCtr = s.freeCtr := rfl
@[simp] theorem State.updStr_pending (s : State) (i : Nat) (f : StreamState → StreamState) : (s.updStr i f).pending = s.pending := rfl
@[simp] theorem State.updStr_rd (s : State) (i : Nat) (f : StreamState → StreamState) (r : Nat) : (s.updStr i f).rd r = s.rd r := rfl
@[simp] theorem State.updStr_getF (s : State) (i : Nat) (f : StreamState → StreamState) (x : Fld) : (s.updStr i f).getF x = s.getF x := rfl
@[simp] theorem State.updStr_bit (s : State) (i : Nat) (f : StreamState → StreamState) (x : Fld) : (s.updStr i f).bit x = s.bit x := rfl
@[simp] theorem State.updStr_rd64 (s : State) (i : Nat) (f : StreamState → StreamState) (l h : Nat) : (s.updStr i f).rd64 l h = s.rd64 l h := rfl

/-! ### State.updFq -/

@[simp] theorem State.updFq_regs (s : State) (n : Nat) (f : List Packet → List Packet) : (s.updFq n f).regs = s.regs := rfl
@[simp] theorem State.updFq_shadows (s : State) (n : Nat) (f : List Packet → List Packet) : (s.updFq n f).shadows = s.shadows := rfl
@[simp] theorem State.updFq_latches (s : State) (n : Nat) (f : List Packet → List Packet) : (s.updFq n f).latches = s.latches := rfl
@[simp] theorem State.updFq_setLog (s : State) (n : Nat) (f : List Packet → List Packet) : (s.updFq n f).setLog = s.setLog := rfl
@[simp] theorem State.updFq_recq (s : State) (n : Nat) (f : List Packet → List Packet) : (s.updFq n f).recq = s.recq := rfl
@[simp] theorem State.updFq_eqs (s : State) (n : Nat) (f : List Packet → List Packet) : (s.updFq n f).eqs = s.eqs := rfl
@[simp] theorem State.updFq_wqs (s : State) (n : Nat) (f : List Packet → List Packet) : (s.updFq n f).wqs = s.wqs := rfl
@[simp] theorem State.updFq_fqHeld (s : State) (n : Nat) (f : List Packet → List Packet) : (s.updFq n f).fqHeld = s.fqHeld := rfl
@[simp] theorem State.updFq_image (s : State) (n : Nat) (f : List Packet → List Packet) : (s.updFq n f).image = s.image := rfl
@[simp] theorem State.updFq_time (s : State) (n : Nat) (f : List Packet → List Packet) : (s.updFq n f).time = s.time := rfl
@[simp] theorem State.updFq_run (s : State) (n : Nat) (f : List Packet → List Packet) : (s.updFq n f).run = s.run := rfl
@[simp] theorem State.updFq_mem (s : State) (n : Nat) (f : List Packet → List Packet) : (s.updFq n f).mem = s.mem := rfl
@[simp] theorem State.updFq_trg (s : State) (n : Nat) (f : List Packet → List Packet) : (s.updFq n f).trg = s.trg := rfl
@[simp] theorem State.updFq_path (s : State) (n : Nat) (f : List Packet → List Packet) : (s.updFq n f).path = s.path := rfl
@[simp] theorem State.updFq_strs (s : State) (n : Nat) (f : List Packet → List Packet) : (s.updFq n f).strs = s.strs := rfl
@[simp] theorem State.updFq_snt (s : State) (n : Nat) (f : List Packet → List Packet) : (s.updFq n f).snt = s.snt := rfl
@[simp] theorem State.updFq_ports (s : State) (n : Nat) (f : List Packet → List Packet) : (s.updFq n f).ports = s.ports := rfl
@[simp] theorem State.updFq_dmfQ (s : State) (n : Nat) (f : List Packet → List Packet) : (s.updFq n f).dmfQ = s.dmfQ := rfl
@[simp] theorem State.updFq_host (s : State) (n : Nat) (f : List Packet → List Packet) : (s.updFq n f).host = s.host := rfl
@[simp] theorem State.updFq_mbx (s : State) (n : Nat) (f : List Packet → List Packet) : (s.updFq n f).mbx = s.mbx := rfl
@[simp] theorem State.updFq_mnt (s : State) (n : Nat) (f : List Packet → List Packet) : (s.updFq n f).mnt = s.mnt := rfl
@[simp] theorem State.updFq_pwr (s : State) (n : Nat) (f : List Packet → List Packet) : (s.updFq n f).pwr = s.pwr := rfl
@[simp] theorem State.updFq_conv (s : State) (n : Nat) (f : List Packet → List Packet) : (s.updFq n f).conv = s.conv := rfl
@[simp] theorem State.updFq_reform (s : State) (n : Nat) (f : List Packet → List Packet) : (s.updFq n f).reform = s.reform := rfl
@[simp] theorem State.updFq_dbg (s : State) (n : Nat) (f : List Packet → List Packet) : (s.updFq n f).dbg = s.dbg := rfl
@[simp] theorem State.updFq_cal (s : State) (n : Nat) (f : List Packet → List Packet) : (s.updFq n f).cal = s.cal := rfl
@[simp] theorem State.updFq_flash (s : State) (n : Nat) (f : List Packet → List Packet) : (s.updFq n f).flash = s.flash := rfl
@[simp] theorem State.updFq_upd (s : State) (n : Nat) (f : List Packet → List Packet) : (s.updFq n f).upd = s.upd := rfl
@[simp] theorem State.updFq_firsts (s : State) (n : Nat) (f : List Packet → List Packet) : (s.updFq n f).firsts = s.firsts := rfl
@[simp] theorem State.updFq_obs (s : State) (n : Nat) (f : List Packet → List Packet) : (s.updFq n f).obs = s.obs := rfl
@[simp] theorem State.updFq_freeCtr (s : State) (n : Nat) (f : List Packet → List Packet) : (s.updFq n f).freeCtr = s.freeCtr := rfl
@[simp] theorem State.updFq_pending (s : State) (n : Nat) (f : List Packet → List Packet) : (s.updFq n f).pending = s.pending := rfl
@[simp] theorem State.updFq_rd (s : State) (n : Nat) (f : List Packet → List Packet) (r : Nat) : (s.updFq n f).rd r = s.rd r := rfl
@[simp] theorem State.updFq_getF (s : State) (n : Nat) (f : List Packet → List Packet) (x : Fld) : (s.updFq n f).getF x = s.getF x := rfl
@[simp] theorem State.updFq_bit (s : State) (n : Nat) (f : List Packet → List Packet) (x : Fld) : (s.updFq n f).bit x = s.bit x := rfl
@[simp] theorem State.updFq_rd64 (s : State) (n : Nat) (f : List Packet → List Packet) (l h : Nat) : (s.updFq n f).rd64 l h = s.rd64 l h := rfl

/-! ### State.updChan -/

@[simp] theorem State.updChan_regs (s : State) (c : Nat) (f : ChanPath → ChanPath) : (s.updChan c f).regs = s.regs := rfl
@[simp] theorem State.updChan_shadows (s : State) (c : Nat) (f : ChanPath → ChanPath) : (s.updChan c f).shadows = s.shadows := rfl
@[simp] theorem State.updChan_latches (s : State) (c : Nat) (f : ChanPath → ChanPath) : (s.updChan c f).latches = s.latches := rfl
@[simp] theorem State.updChan_setLog (s : State) (c : Nat) (f : ChanPath → ChanPath) : (s.updChan c f).setLog = s.setLog := rfl
@[simp] theorem State.updChan_recq (s : State) (c : Nat) (f : ChanPath → ChanPath) : (s.updChan c f).recq = s.recq := rfl
@[simp] theorem State.updChan_eqs (s : State) (c : Nat) (f : ChanPath → ChanPath) : (s.updChan c f).eqs = s.eqs := rfl
@[simp] theorem State.updChan_wqs (s : State) (c : Nat) (f : ChanPath → ChanPath) : (s.updChan c f).wqs = s.wqs := rfl
@[simp] theorem State.updChan_fqs (s : State) (c : Nat) (f : ChanPath → ChanPath) : (s.updChan c f).fqs = s.fqs := rfl
@[simp] theorem State.updChan_fqHeld (s : State) (c : Nat) (f : ChanPath → ChanPath) : (s.updChan c f).fqHeld = s.fqHeld := rfl
@[simp] theorem State.updChan_image (s : State) (c : Nat) (f : ChanPath → ChanPath) : (s.updChan c f).image = s.image := rfl
@[simp] theorem State.updChan_time (s : State) (c : Nat) (f : ChanPath → ChanPath) : (s.updChan c f).time = s.time := rfl
@[simp] theorem State.updChan_run (s : State) (c : Nat) (f : ChanPath → ChanPath) : (s.updChan c f).run = s.run := rfl
@[simp] theorem State.updChan_mem (s : State) (c : Nat) (f : ChanPath → ChanPath) : (s.updChan c f).mem = s.mem := rfl
@[simp] theorem State.updChan_trg (s : State) (c : Nat) (f : ChanPath → ChanPath) : (s.updChan c f).trg = s.trg := rfl
@[simp] theorem State.updChan_strs (s : State) (c : Nat) (f : ChanPath → ChanPath) : (s.updChan c f).strs = s.strs := rfl
@[simp] theorem State.updChan_snt (s : State) (c : Nat) (f : ChanPath → ChanPath) : (s.updChan c f).snt = s.snt := rfl
@[simp] theorem State.updChan_ports (s : State) (c : Nat) (f : ChanPath → ChanPath) : (s.updChan c f).ports = s.ports := rfl
@[simp] theorem State.updChan_dmfQ (s : State) (c : Nat) (f : ChanPath → ChanPath) : (s.updChan c f).dmfQ = s.dmfQ := rfl
@[simp] theorem State.updChan_host (s : State) (c : Nat) (f : ChanPath → ChanPath) : (s.updChan c f).host = s.host := rfl
@[simp] theorem State.updChan_mbx (s : State) (c : Nat) (f : ChanPath → ChanPath) : (s.updChan c f).mbx = s.mbx := rfl
@[simp] theorem State.updChan_mnt (s : State) (c : Nat) (f : ChanPath → ChanPath) : (s.updChan c f).mnt = s.mnt := rfl
@[simp] theorem State.updChan_pwr (s : State) (c : Nat) (f : ChanPath → ChanPath) : (s.updChan c f).pwr = s.pwr := rfl
@[simp] theorem State.updChan_conv (s : State) (c : Nat) (f : ChanPath → ChanPath) : (s.updChan c f).conv = s.conv := rfl
@[simp] theorem State.updChan_reform (s : State) (c : Nat) (f : ChanPath → ChanPath) : (s.updChan c f).reform = s.reform := rfl
@[simp] theorem State.updChan_dbg (s : State) (c : Nat) (f : ChanPath → ChanPath) : (s.updChan c f).dbg = s.dbg := rfl
@[simp] theorem State.updChan_cal (s : State) (c : Nat) (f : ChanPath → ChanPath) : (s.updChan c f).cal = s.cal := rfl
@[simp] theorem State.updChan_flash (s : State) (c : Nat) (f : ChanPath → ChanPath) : (s.updChan c f).flash = s.flash := rfl
@[simp] theorem State.updChan_upd (s : State) (c : Nat) (f : ChanPath → ChanPath) : (s.updChan c f).upd = s.upd := rfl
@[simp] theorem State.updChan_firsts (s : State) (c : Nat) (f : ChanPath → ChanPath) : (s.updChan c f).firsts = s.firsts := rfl
@[simp] theorem State.updChan_obs (s : State) (c : Nat) (f : ChanPath → ChanPath) : (s.updChan c f).obs = s.obs := rfl
@[simp] theorem State.updChan_freeCtr (s : State) (c : Nat) (f : ChanPath → ChanPath) : (s.updChan c f).freeCtr = s.freeCtr := rfl
@[simp] theorem State.updChan_pending (s : State) (c : Nat) (f : ChanPath → ChanPath) : (s.updChan c f).pending = s.pending := rfl
@[simp] theorem State.updChan_rd (s : State) (c : Nat) (f : ChanPath → ChanPath) (r : Nat) : (s.updChan c f).rd r = s.rd r := rfl
@[simp] theorem State.updChan_getF (s : State) (c : Nat) (f : ChanPath → ChanPath) (x : Fld) : (s.updChan c f).getF x = s.getF x := rfl
@[simp] theorem State.updChan_bit (s : State) (c : Nat) (f : ChanPath → ChanPath) (x : Fld) : (s.updChan c f).bit x = s.bit x := rfl
@[simp] theorem State.updChan_rd64 (s : State) (c : Nat) (f : ChanPath → ChanPath) (l h : Nat) : (s.updChan c f).rd64 l h = s.rd64 l h := rfl

/-! ### State.updCap -/

@[simp] theorem State.updCap_regs (s : State) (i : Nat) (f : Capture → Capture) : (s.updCap i f).regs = s.regs := rfl
@[simp] theorem State.updCap_shadows (s : State) (i : Nat) (f : Capture → Capture) : (s.updCap i f).shadows = s.shadows := rfl
@[simp] theorem State.updCap_latches (s : State) (i : Nat) (f : Capture → Capture) : (s.updCap i f).latches = s.latches := rfl
@[simp] theorem State.updCap_setLog (s : State) (i : Nat) (f : Capture → Capture) : (s.updCap i f).setLog = s.setLog := rfl
@[simp] theorem State.updCap_recq (s : State) (i : Nat) (f : Capture → Capture) : (s.updCap i f).recq = s.recq := rfl
@[simp] theorem State.updCap_eqs (s : State) (i : Nat) (f : Capture → Capture) : (s.updCap i f).eqs = s.eqs := rfl
@[simp] theorem State.updCap_wqs (s : State) (i : Nat) (f : Capture → Capture) : (s.updCap i f).wqs = s.wqs := rfl
@[simp] theorem State.updCap_fqs (s : State) (i : Nat) (f : Capture → Capture) : (s.updCap i f).fqs = s.fqs := rfl
@[simp] theorem State.updCap_fqHeld (s : State) (i : Nat) (f : Capture → Capture) : (s.updCap i f).fqHeld = s.fqHeld := rfl
@[simp] theorem State.updCap_image (s : State) (i : Nat) (f : Capture → Capture) : (s.updCap i f).image = s.image := rfl
@[simp] theorem State.updCap_time (s : State) (i : Nat) (f : Capture → Capture) : (s.updCap i f).time = s.time := rfl
@[simp] theorem State.updCap_run (s : State) (i : Nat) (f : Capture → Capture) : (s.updCap i f).run = s.run := rfl
@[simp] theorem State.updCap_mem (s : State) (i : Nat) (f : Capture → Capture) : (s.updCap i f).mem = s.mem := rfl
@[simp] theorem State.updCap_path (s : State) (i : Nat) (f : Capture → Capture) : (s.updCap i f).path = s.path := rfl
@[simp] theorem State.updCap_strs (s : State) (i : Nat) (f : Capture → Capture) : (s.updCap i f).strs = s.strs := rfl
@[simp] theorem State.updCap_snt (s : State) (i : Nat) (f : Capture → Capture) : (s.updCap i f).snt = s.snt := rfl
@[simp] theorem State.updCap_ports (s : State) (i : Nat) (f : Capture → Capture) : (s.updCap i f).ports = s.ports := rfl
@[simp] theorem State.updCap_dmfQ (s : State) (i : Nat) (f : Capture → Capture) : (s.updCap i f).dmfQ = s.dmfQ := rfl
@[simp] theorem State.updCap_host (s : State) (i : Nat) (f : Capture → Capture) : (s.updCap i f).host = s.host := rfl
@[simp] theorem State.updCap_mbx (s : State) (i : Nat) (f : Capture → Capture) : (s.updCap i f).mbx = s.mbx := rfl
@[simp] theorem State.updCap_mnt (s : State) (i : Nat) (f : Capture → Capture) : (s.updCap i f).mnt = s.mnt := rfl
@[simp] theorem State.updCap_pwr (s : State) (i : Nat) (f : Capture → Capture) : (s.updCap i f).pwr = s.pwr := rfl
@[simp] theorem State.updCap_conv (s : State) (i : Nat) (f : Capture → Capture) : (s.updCap i f).conv = s.conv := rfl
@[simp] theorem State.updCap_reform (s : State) (i : Nat) (f : Capture → Capture) : (s.updCap i f).reform = s.reform := rfl
@[simp] theorem State.updCap_dbg (s : State) (i : Nat) (f : Capture → Capture) : (s.updCap i f).dbg = s.dbg := rfl
@[simp] theorem State.updCap_cal (s : State) (i : Nat) (f : Capture → Capture) : (s.updCap i f).cal = s.cal := rfl
@[simp] theorem State.updCap_flash (s : State) (i : Nat) (f : Capture → Capture) : (s.updCap i f).flash = s.flash := rfl
@[simp] theorem State.updCap_upd (s : State) (i : Nat) (f : Capture → Capture) : (s.updCap i f).upd = s.upd := rfl
@[simp] theorem State.updCap_firsts (s : State) (i : Nat) (f : Capture → Capture) : (s.updCap i f).firsts = s.firsts := rfl
@[simp] theorem State.updCap_obs (s : State) (i : Nat) (f : Capture → Capture) : (s.updCap i f).obs = s.obs := rfl
@[simp] theorem State.updCap_freeCtr (s : State) (i : Nat) (f : Capture → Capture) : (s.updCap i f).freeCtr = s.freeCtr := rfl
@[simp] theorem State.updCap_pending (s : State) (i : Nat) (f : Capture → Capture) : (s.updCap i f).pending = s.pending := rfl
@[simp] theorem State.updCap_rd (s : State) (i : Nat) (f : Capture → Capture) (r : Nat) : (s.updCap i f).rd r = s.rd r := rfl
@[simp] theorem State.updCap_getF (s : State) (i : Nat) (f : Capture → Capture) (x : Fld) : (s.updCap i f).getF x = s.getF x := rfl
@[simp] theorem State.updCap_bit (s : State) (i : Nat) (f : Capture → Capture) (x : Fld) : (s.updCap i f).bit x = s.bit x := rfl
@[simp] theorem State.updCap_rd64 (s : State) (i : Nat) (f : Capture → Capture) (l h : Nat) : (s.updCap i f).rd64 l h = s.rd64 l h := rfl

/-! ### State.updEvq -/

@[simp] theorem State.updEvq_regs (s : State) (n : Nat) (f : EvQueue → EvQueue) : (s.updEvq n f).regs = s.regs := rfl
@[simp] theorem State.updEvq_shadows (s : State) (n : Nat) (f : EvQueue → EvQueue) : (s.updEvq n f).shadows = s.shadows := rfl
@[simp] theorem State.updEvq_latches (s : State) (n : Nat) (f : EvQueue → EvQueue) : (s.updEvq n f).latches = s.latches := rfl
@[simp] theorem State.updEvq_setLog (s : State) (n : Nat) (f : EvQueue → EvQueue) : (s.updEvq n f).setLog = s.setLog := rfl
@[simp] theorem State.updEvq_recq (s : State) (n : Nat) (f : EvQueue → EvQueue) : (s.updEvq n f).recq = s.recq := rfl
@[simp] theorem State.updEvq_wqs (s : State) (n : Nat) (f : EvQueue → EvQueue) : (s.updEvq n f).wqs = s.wqs := rfl
@[simp] theorem State.updEvq_fqs (s : State) (n : Nat) (f : EvQueue → EvQueue) : (s.updEvq n f).fqs = s.fqs := rfl
@[simp] theorem State.updEvq_fqHeld (s : State) (n : Nat) (f : EvQueue → EvQueue) : (s.updEvq n f).fqHeld = s.fqHeld := rfl
@[simp] theorem State.updEvq_image (s : State) (n : Nat) (f : EvQueue → EvQueue) : (s.updEvq n f).image = s.image := rfl
@[simp] theorem State.updEvq_time (s : State) (n : Nat) (f : EvQueue → EvQueue) : (s.updEvq n f).time = s.time := rfl
@[simp] theorem State.updEvq_run (s : State) (n : Nat) (f : EvQueue → EvQueue) : (s.updEvq n f).run = s.run := rfl
@[simp] theorem State.updEvq_mem (s : State) (n : Nat) (f : EvQueue → EvQueue) : (s.updEvq n f).mem = s.mem := rfl
@[simp] theorem State.updEvq_trg (s : State) (n : Nat) (f : EvQueue → EvQueue) : (s.updEvq n f).trg = s.trg := rfl
@[simp] theorem State.updEvq_path (s : State) (n : Nat) (f : EvQueue → EvQueue) : (s.updEvq n f).path = s.path := rfl
@[simp] theorem State.updEvq_strs (s : State) (n : Nat) (f : EvQueue → EvQueue) : (s.updEvq n f).strs = s.strs := rfl
@[simp] theorem State.updEvq_snt (s : State) (n : Nat) (f : EvQueue → EvQueue) : (s.updEvq n f).snt = s.snt := rfl
@[simp] theorem State.updEvq_ports (s : State) (n : Nat) (f : EvQueue → EvQueue) : (s.updEvq n f).ports = s.ports := rfl
@[simp] theorem State.updEvq_dmfQ (s : State) (n : Nat) (f : EvQueue → EvQueue) : (s.updEvq n f).dmfQ = s.dmfQ := rfl
@[simp] theorem State.updEvq_host (s : State) (n : Nat) (f : EvQueue → EvQueue) : (s.updEvq n f).host = s.host := rfl
@[simp] theorem State.updEvq_mbx (s : State) (n : Nat) (f : EvQueue → EvQueue) : (s.updEvq n f).mbx = s.mbx := rfl
@[simp] theorem State.updEvq_mnt (s : State) (n : Nat) (f : EvQueue → EvQueue) : (s.updEvq n f).mnt = s.mnt := rfl
@[simp] theorem State.updEvq_pwr (s : State) (n : Nat) (f : EvQueue → EvQueue) : (s.updEvq n f).pwr = s.pwr := rfl
@[simp] theorem State.updEvq_conv (s : State) (n : Nat) (f : EvQueue → EvQueue) : (s.updEvq n f).conv = s.conv := rfl
@[simp] theorem State.updEvq_reform (s : State) (n : Nat) (f : EvQueue → EvQueue) : (s.updEvq n f).reform = s.reform := rfl
@[simp] theorem State.updEvq_dbg (s : State) (n : Nat) (f : EvQueue → EvQueue) : (s.updEvq n f).dbg = s.dbg := rfl
@[simp] theorem State.updEvq_cal (s : State) (n : Nat) (f : EvQueue → EvQueue) : (s.updEvq n f).cal = s.cal := rfl
@[simp] theorem State.updEvq_flash (s : State) (n : Nat) (f : EvQueue → EvQueue) : (s.updEvq n f).flash = s.flash := rfl
@[simp] theorem State.updEvq_upd (s : State) (n : Nat) (f : EvQueue → EvQueue) : (s.updEvq n f).upd = s.upd := rfl
@[simp] theorem State.updEvq_firsts (s : State) (n : Nat) (f : EvQueue → EvQueue) : (s.updEvq n f).firsts = s.firsts := rfl
@[simp] theorem State.updEvq_obs (s : State) (n : Nat) (f : EvQueue → EvQueue) : (s.updEvq n f).obs = s.obs := rfl
@[simp] theorem State.updEvq_freeCtr (s : State) (n : Nat) (f : EvQueue → EvQueue) : (s.updEvq n f).freeCtr = s.freeCtr := rfl
@[simp] theorem State.updEvq_pending (s : State) (n : Nat) (f : EvQueue → EvQueue) : (s.updEvq n f).pending = s.pending := rfl
@[simp] theorem State.updEvq_rd (s : State) (n : Nat) (f : EvQueue → EvQueue) (r : Nat) : (s.updEvq n f).rd r = s.rd r := rfl
@[simp] theorem State.updEvq_getF (s : State) (n : Nat) (f : EvQueue → EvQueue) (x : Fld) : (s.updEvq n f).getF x = s.getF x := rfl
@[simp] theorem State.updEvq_bit (s : State) (n : Nat) (f : EvQueue → EvQueue) (x : Fld) : (s.updEvq n f).bit x = s.bit x := rfl
@[simp] theorem State.updEvq_rd64 (s : State) (n : Nat) (f : EvQueue → EvQueue) (l h : Nat) : (s.updEvq n f).rd64 l h = s.rd64 l h := rfl

/-! ### State.updWq -/

@[simp] theorem State.updWq_regs (s : State) (n : Nat) (f : WordQueue → WordQueue) : (s.updWq n f).regs = s.regs := rfl
@[simp] theorem State.updWq_shadows (s : State) (n : Nat) (f : WordQueue → WordQueue) : (s.updWq n f).shadows = s.shadows := rfl
@[simp] theorem State.updWq_latches (s : State) (n : Nat) (f : WordQueue → WordQueue) : (s.updWq n f).latches = s.latches := rfl
@[simp] theorem State.updWq_setLog (s : State) (n : Nat) (f : WordQueue → WordQueue) : (s.updWq n f).setLog = s.setLog := rfl
@[simp] theorem State.updWq_recq (s : State) (n : Nat) (f : WordQueue → WordQueue) : (s.updWq n f).recq = s.recq := rfl
@[simp] theorem State.updWq_eqs (s : State) (n : Nat) (f : WordQueue → WordQueue) : (s.updWq n f).eqs = s.eqs := rfl
@[simp] theorem State.updWq_fqs (s : State) (n : Nat) (f : WordQueue → WordQueue) : (s.updWq n f).fqs = s.fqs := rfl
@[simp] theorem State.updWq_fqHeld (s : State) (n : Nat) (f : WordQueue → WordQueue) : (s.updWq n f).fqHeld = s.fqHeld := rfl
@[simp] theorem State.updWq_image (s : State) (n : Nat) (f : WordQueue → WordQueue) : (s.updWq n f).image = s.image := rfl
@[simp] theorem State.updWq_time (s : State) (n : Nat) (f : WordQueue → WordQueue) : (s.updWq n f).time = s.time := rfl
@[simp] theorem State.updWq_run (s : State) (n : Nat) (f : WordQueue → WordQueue) : (s.updWq n f).run = s.run := rfl
@[simp] theorem State.updWq_mem (s : State) (n : Nat) (f : WordQueue → WordQueue) : (s.updWq n f).mem = s.mem := rfl
@[simp] theorem State.updWq_trg (s : State) (n : Nat) (f : WordQueue → WordQueue) : (s.updWq n f).trg = s.trg := rfl
@[simp] theorem State.updWq_path (s : State) (n : Nat) (f : WordQueue → WordQueue) : (s.updWq n f).path = s.path := rfl
@[simp] theorem State.updWq_strs (s : State) (n : Nat) (f : WordQueue → WordQueue) : (s.updWq n f).strs = s.strs := rfl
@[simp] theorem State.updWq_snt (s : State) (n : Nat) (f : WordQueue → WordQueue) : (s.updWq n f).snt = s.snt := rfl
@[simp] theorem State.updWq_ports (s : State) (n : Nat) (f : WordQueue → WordQueue) : (s.updWq n f).ports = s.ports := rfl
@[simp] theorem State.updWq_dmfQ (s : State) (n : Nat) (f : WordQueue → WordQueue) : (s.updWq n f).dmfQ = s.dmfQ := rfl
@[simp] theorem State.updWq_host (s : State) (n : Nat) (f : WordQueue → WordQueue) : (s.updWq n f).host = s.host := rfl
@[simp] theorem State.updWq_mbx (s : State) (n : Nat) (f : WordQueue → WordQueue) : (s.updWq n f).mbx = s.mbx := rfl
@[simp] theorem State.updWq_mnt (s : State) (n : Nat) (f : WordQueue → WordQueue) : (s.updWq n f).mnt = s.mnt := rfl
@[simp] theorem State.updWq_pwr (s : State) (n : Nat) (f : WordQueue → WordQueue) : (s.updWq n f).pwr = s.pwr := rfl
@[simp] theorem State.updWq_conv (s : State) (n : Nat) (f : WordQueue → WordQueue) : (s.updWq n f).conv = s.conv := rfl
@[simp] theorem State.updWq_reform (s : State) (n : Nat) (f : WordQueue → WordQueue) : (s.updWq n f).reform = s.reform := rfl
@[simp] theorem State.updWq_dbg (s : State) (n : Nat) (f : WordQueue → WordQueue) : (s.updWq n f).dbg = s.dbg := rfl
@[simp] theorem State.updWq_cal (s : State) (n : Nat) (f : WordQueue → WordQueue) : (s.updWq n f).cal = s.cal := rfl
@[simp] theorem State.updWq_flash (s : State) (n : Nat) (f : WordQueue → WordQueue) : (s.updWq n f).flash = s.flash := rfl
@[simp] theorem State.updWq_upd (s : State) (n : Nat) (f : WordQueue → WordQueue) : (s.updWq n f).upd = s.upd := rfl
@[simp] theorem State.updWq_firsts (s : State) (n : Nat) (f : WordQueue → WordQueue) : (s.updWq n f).firsts = s.firsts := rfl
@[simp] theorem State.updWq_obs (s : State) (n : Nat) (f : WordQueue → WordQueue) : (s.updWq n f).obs = s.obs := rfl
@[simp] theorem State.updWq_freeCtr (s : State) (n : Nat) (f : WordQueue → WordQueue) : (s.updWq n f).freeCtr = s.freeCtr := rfl
@[simp] theorem State.updWq_pending (s : State) (n : Nat) (f : WordQueue → WordQueue) : (s.updWq n f).pending = s.pending := rfl
@[simp] theorem State.updWq_rd (s : State) (n : Nat) (f : WordQueue → WordQueue) (r : Nat) : (s.updWq n f).rd r = s.rd r := rfl
@[simp] theorem State.updWq_getF (s : State) (n : Nat) (f : WordQueue → WordQueue) (x : Fld) : (s.updWq n f).getF x = s.getF x := rfl
@[simp] theorem State.updWq_bit (s : State) (n : Nat) (f : WordQueue → WordQueue) (x : Fld) : (s.updWq n f).bit x = s.bit x := rfl
@[simp] theorem State.updWq_rd64 (s : State) (n : Nat) (f : WordQueue → WordQueue) (l h : Nat) : (s.updWq n f).rd64 l h = s.rd64 l h := rfl

/-! ### State.updCtx -/

@[simp] theorem State.updCtx_regs (s : State) (n : Nat) (f : SntCtx → SntCtx) : (s.updCtx n f).regs = s.regs := rfl
@[simp] theorem State.updCtx_shadows (s : State) (n : Nat) (f : SntCtx → SntCtx) : (s.updCtx n f).shadows = s.shadows := rfl
@[simp] theorem State.updCtx_latches (s : State) (n : Nat) (f : SntCtx → SntCtx) : (s.updCtx n f).latches = s.latches := rfl
@[simp] theorem State.updCtx_setLog (s : State) (n : Nat) (f : SntCtx → SntCtx) : (s.updCtx n f).setLog = s.setLog := rfl
@[simp] theorem State.updCtx_recq (s : State) (n : Nat) (f : SntCtx → SntCtx) : (s.updCtx n f).recq = s.recq := rfl
@[simp] theorem State.updCtx_eqs (s : State) (n : Nat) (f : SntCtx → SntCtx) : (s.updCtx n f).eqs = s.eqs := rfl
@[simp] theorem State.updCtx_wqs (s : State) (n : Nat) (f : SntCtx → SntCtx) : (s.updCtx n f).wqs = s.wqs := rfl
@[simp] theorem State.updCtx_fqs (s : State) (n : Nat) (f : SntCtx → SntCtx) : (s.updCtx n f).fqs = s.fqs := rfl
@[simp] theorem State.updCtx_fqHeld (s : State) (n : Nat) (f : SntCtx → SntCtx) : (s.updCtx n f).fqHeld = s.fqHeld := rfl
@[simp] theorem State.updCtx_image (s : State) (n : Nat) (f : SntCtx → SntCtx) : (s.updCtx n f).image = s.image := rfl
@[simp] theorem State.updCtx_time (s : State) (n : Nat) (f : SntCtx → SntCtx) : (s.updCtx n f).time = s.time := rfl
@[simp] theorem State.updCtx_run (s : State) (n : Nat) (f : SntCtx → SntCtx) : (s.updCtx n f).run = s.run := rfl
@[simp] theorem State.updCtx_mem (s : State) (n : Nat) (f : SntCtx → SntCtx) : (s.updCtx n f).mem = s.mem := rfl
@[simp] theorem State.updCtx_trg (s : State) (n : Nat) (f : SntCtx → SntCtx) : (s.updCtx n f).trg = s.trg := rfl
@[simp] theorem State.updCtx_path (s : State) (n : Nat) (f : SntCtx → SntCtx) : (s.updCtx n f).path = s.path := rfl
@[simp] theorem State.updCtx_strs (s : State) (n : Nat) (f : SntCtx → SntCtx) : (s.updCtx n f).strs = s.strs := rfl
@[simp] theorem State.updCtx_ports (s : State) (n : Nat) (f : SntCtx → SntCtx) : (s.updCtx n f).ports = s.ports := rfl
@[simp] theorem State.updCtx_dmfQ (s : State) (n : Nat) (f : SntCtx → SntCtx) : (s.updCtx n f).dmfQ = s.dmfQ := rfl
@[simp] theorem State.updCtx_host (s : State) (n : Nat) (f : SntCtx → SntCtx) : (s.updCtx n f).host = s.host := rfl
@[simp] theorem State.updCtx_mbx (s : State) (n : Nat) (f : SntCtx → SntCtx) : (s.updCtx n f).mbx = s.mbx := rfl
@[simp] theorem State.updCtx_mnt (s : State) (n : Nat) (f : SntCtx → SntCtx) : (s.updCtx n f).mnt = s.mnt := rfl
@[simp] theorem State.updCtx_pwr (s : State) (n : Nat) (f : SntCtx → SntCtx) : (s.updCtx n f).pwr = s.pwr := rfl
@[simp] theorem State.updCtx_conv (s : State) (n : Nat) (f : SntCtx → SntCtx) : (s.updCtx n f).conv = s.conv := rfl
@[simp] theorem State.updCtx_reform (s : State) (n : Nat) (f : SntCtx → SntCtx) : (s.updCtx n f).reform = s.reform := rfl
@[simp] theorem State.updCtx_dbg (s : State) (n : Nat) (f : SntCtx → SntCtx) : (s.updCtx n f).dbg = s.dbg := rfl
@[simp] theorem State.updCtx_cal (s : State) (n : Nat) (f : SntCtx → SntCtx) : (s.updCtx n f).cal = s.cal := rfl
@[simp] theorem State.updCtx_flash (s : State) (n : Nat) (f : SntCtx → SntCtx) : (s.updCtx n f).flash = s.flash := rfl
@[simp] theorem State.updCtx_upd (s : State) (n : Nat) (f : SntCtx → SntCtx) : (s.updCtx n f).upd = s.upd := rfl
@[simp] theorem State.updCtx_firsts (s : State) (n : Nat) (f : SntCtx → SntCtx) : (s.updCtx n f).firsts = s.firsts := rfl
@[simp] theorem State.updCtx_obs (s : State) (n : Nat) (f : SntCtx → SntCtx) : (s.updCtx n f).obs = s.obs := rfl
@[simp] theorem State.updCtx_freeCtr (s : State) (n : Nat) (f : SntCtx → SntCtx) : (s.updCtx n f).freeCtr = s.freeCtr := rfl
@[simp] theorem State.updCtx_pending (s : State) (n : Nat) (f : SntCtx → SntCtx) : (s.updCtx n f).pending = s.pending := rfl
@[simp] theorem State.updCtx_rd (s : State) (n : Nat) (f : SntCtx → SntCtx) (r : Nat) : (s.updCtx n f).rd r = s.rd r := rfl
@[simp] theorem State.updCtx_getF (s : State) (n : Nat) (f : SntCtx → SntCtx) (x : Fld) : (s.updCtx n f).getF x = s.getF x := rfl
@[simp] theorem State.updCtx_bit (s : State) (n : Nat) (f : SntCtx → SntCtx) (x : Fld) : (s.updCtx n f).bit x = s.bit x := rfl
@[simp] theorem State.updCtx_rd64 (s : State) (n : Nat) (f : SntCtx → SntCtx) (l h : Nat) : (s.updCtx n f).rd64 l h = s.rd64 l h := rfl

/-! ### State.updPort -/

@[simp] theorem State.updPort_regs (s : State) (p : Nat) (f : NetPort → NetPort) : (s.updPort p f).regs = s.regs := rfl
@[simp] theorem State.updPort_shadows (s : State) (p : Nat) (f : NetPort → NetPort) : (s.updPort p f).shadows = s.shadows := rfl
@[simp] theorem State.updPort_latches (s : State) (p : Nat) (f : NetPort → NetPort) : (s.updPort p f).latches = s.latches := rfl
@[simp] theorem State.updPort_setLog (s : State) (p : Nat) (f : NetPort → NetPort) : (s.updPort p f).setLog = s.setLog := rfl
@[simp] theorem State.updPort_recq (s : State) (p : Nat) (f : NetPort → NetPort) : (s.updPort p f).recq = s.recq := rfl
@[simp] theorem State.updPort_eqs (s : State) (p : Nat) (f : NetPort → NetPort) : (s.updPort p f).eqs = s.eqs := rfl
@[simp] theorem State.updPort_wqs (s : State) (p : Nat) (f : NetPort → NetPort) : (s.updPort p f).wqs = s.wqs := rfl
@[simp] theorem State.updPort_fqs (s : State) (p : Nat) (f : NetPort → NetPort) : (s.updPort p f).fqs = s.fqs := rfl
@[simp] theorem State.updPort_fqHeld (s : State) (p : Nat) (f : NetPort → NetPort) : (s.updPort p f).fqHeld = s.fqHeld := rfl
@[simp] theorem State.updPort_image (s : State) (p : Nat) (f : NetPort → NetPort) : (s.updPort p f).image = s.image := rfl
@[simp] theorem State.updPort_time (s : State) (p : Nat) (f : NetPort → NetPort) : (s.updPort p f).time = s.time := rfl
@[simp] theorem State.updPort_run (s : State) (p : Nat) (f : NetPort → NetPort) : (s.updPort p f).run = s.run := rfl
@[simp] theorem State.updPort_mem (s : State) (p : Nat) (f : NetPort → NetPort) : (s.updPort p f).mem = s.mem := rfl
@[simp] theorem State.updPort_trg (s : State) (p : Nat) (f : NetPort → NetPort) : (s.updPort p f).trg = s.trg := rfl
@[simp] theorem State.updPort_path (s : State) (p : Nat) (f : NetPort → NetPort) : (s.updPort p f).path = s.path := rfl
@[simp] theorem State.updPort_strs (s : State) (p : Nat) (f : NetPort → NetPort) : (s.updPort p f).strs = s.strs := rfl
@[simp] theorem State.updPort_snt (s : State) (p : Nat) (f : NetPort → NetPort) : (s.updPort p f).snt = s.snt := rfl
@[simp] theorem State.updPort_dmfQ (s : State) (p : Nat) (f : NetPort → NetPort) : (s.updPort p f).dmfQ = s.dmfQ := rfl
@[simp] theorem State.updPort_host (s : State) (p : Nat) (f : NetPort → NetPort) : (s.updPort p f).host = s.host := rfl
@[simp] theorem State.updPort_mbx (s : State) (p : Nat) (f : NetPort → NetPort) : (s.updPort p f).mbx = s.mbx := rfl
@[simp] theorem State.updPort_mnt (s : State) (p : Nat) (f : NetPort → NetPort) : (s.updPort p f).mnt = s.mnt := rfl
@[simp] theorem State.updPort_pwr (s : State) (p : Nat) (f : NetPort → NetPort) : (s.updPort p f).pwr = s.pwr := rfl
@[simp] theorem State.updPort_conv (s : State) (p : Nat) (f : NetPort → NetPort) : (s.updPort p f).conv = s.conv := rfl
@[simp] theorem State.updPort_reform (s : State) (p : Nat) (f : NetPort → NetPort) : (s.updPort p f).reform = s.reform := rfl
@[simp] theorem State.updPort_dbg (s : State) (p : Nat) (f : NetPort → NetPort) : (s.updPort p f).dbg = s.dbg := rfl
@[simp] theorem State.updPort_cal (s : State) (p : Nat) (f : NetPort → NetPort) : (s.updPort p f).cal = s.cal := rfl
@[simp] theorem State.updPort_flash (s : State) (p : Nat) (f : NetPort → NetPort) : (s.updPort p f).flash = s.flash := rfl
@[simp] theorem State.updPort_upd (s : State) (p : Nat) (f : NetPort → NetPort) : (s.updPort p f).upd = s.upd := rfl
@[simp] theorem State.updPort_firsts (s : State) (p : Nat) (f : NetPort → NetPort) : (s.updPort p f).firsts = s.firsts := rfl
@[simp] theorem State.updPort_obs (s : State) (p : Nat) (f : NetPort → NetPort) : (s.updPort p f).obs = s.obs := rfl
@[simp] theorem State.updPort_freeCtr (s : State) (p : Nat) (f : NetPort → NetPort) : (s.updPort p f).freeCtr = s.freeCtr := rfl
@[simp] theorem State.updPort_pending (s : State) (p : Nat) (f : NetPort → NetPort) : (s.updPort p f).pending = s.pending := rfl
@[simp] theorem State.updPort_rd (s : State) (p : Nat) (f : NetPort → NetPort) (r : Nat) : (s.updPort p f).rd r = s.rd r := rfl
@[simp] theorem State.updPort_getF (s : State) (p : Nat) (f : NetPort → NetPort) (x : Fld) : (s.updPort p f).getF x = s.getF x := rfl
@[simp] theorem State.updPort_bit (s : State) (p : Nat) (f : NetPort → NetPort) (x : Fld) : (s.updPort p f).bit x = s.bit x := rfl
@[simp] theorem State.updPort_rd64 (s : State) (p : Nat) (f : NetPort → NetPort) (l h : Nat) : (s.updPort p f).rd64 l h = s.rd64 l h := rfl

/-! ### Reads of the register file see `regs` alone -/

@[simp] theorem State.rd_mk (s : State) (r : Nat) (xshadows xlatches xsetLog xrecq xeqs xwqs xfqs xfqHeld ximage xtime xrun xmem xtrg xpath xstrs xsnt xports xdmfQ xhost xmbx xmnt xpwr xconv xreform xdbg xcal xflash xupd xfirsts xobs xfreeCtr xpending) :
    State.rd ⟨s.regs, xshadows, xlatches, xsetLog, xrecq, xeqs, xwqs, xfqs, xfqHeld, ximage, xtime, xrun, xmem, xtrg, xpath, xstrs, xsnt, xports, xdmfQ, xhost, xmbx, xmnt, xpwr, xconv, xreform, xdbg, xcal, xflash, xupd, xfirsts, xobs, xfreeCtr, xpending⟩ r = s.rd r := rfl
@[simp] theorem State.getF_mk (s : State) (f : Fld) (xshadows xlatches xsetLog xrecq xeqs xwqs xfqs xfqHeld ximage xtime xrun xmem xtrg xpath xstrs xsnt xports xdmfQ xhost xmbx xmnt xpwr xconv xreform xdbg xcal xflash xupd xfirsts xobs xfreeCtr xpending) :
    State.getF ⟨s.regs, xshadows, xlatches, xsetLog, xrecq, xeqs, xwqs, xfqs, xfqHeld, ximage, xtime, xrun, xmem, xtrg, xpath, xstrs, xsnt, xports, xdmfQ, xhost, xmbx, xmnt, xpwr, xconv, xreform, xdbg, xcal, xflash, xupd, xfirsts, xobs, xfreeCtr, xpending⟩ f = s.getF f := rfl
@[simp] theorem State.bit_mk (s : State) (f : Fld) (xshadows xlatches xsetLog xrecq xeqs xwqs xfqs xfqHeld ximage xtime xrun xmem xtrg xpath xstrs xsnt xports xdmfQ xhost xmbx xmnt xpwr xconv xreform xdbg xcal xflash xupd xfirsts xobs xfreeCtr xpending) :
    State.bit ⟨s.regs, xshadows, xlatches, xsetLog, xrecq, xeqs, xwqs, xfqs, xfqHeld, ximage, xtime, xrun, xmem, xtrg, xpath, xstrs, xsnt, xports, xdmfQ, xhost, xmbx, xmnt, xpwr, xconv, xreform, xdbg, xcal, xflash, xupd, xfirsts, xobs, xfreeCtr, xpending⟩ f = s.bit f := rfl
end Sys2Proof.Machine
end

