-- ==== Sys2Proof/Laws/Access.lean ====
section
/-!
SUPPORT. Laws/Access.lean: what the access path makes of a write and of a read (R339-R343).
-/

namespace Sys2Proof.Machine

/-- A write that goes through and is no arming that waits for its fence has its effect, and then the breakpoints see it. -/
theorem State.gated_goes (s : State) (id : Ident) (off : Nat) (v : Word) (f : State → State) (h : s.goes id off)
    (w : s.armWaits id off v = false) : s.gated id off v f = (f s).bpReg id off true := by
  unfold State.gated State.gatedAs; rw [h.1, h.2, w]; rfl

/-- Only a write of HIF_APPLY_CTRL can wait (R345). -/
theorem State.armWaits_other (s : State) (id : Ident) (off : Nat) (v : Word) (h : off ≠ R.HIF_APPLY_CTRL) :
    s.armWaits id off v = false := by
  unfold State.armWaits; simp [h]

/-- Every other write that goes through has its effect. -/
theorem State.gated_goes_other (s : State) (id : Ident) (off : Nat) (v : Word) (f : State → State) (h : s.goes id off)
    (g : off ≠ R.HIF_APPLY_CTRL) : s.gated id off v f = (f s).bpReg id off true :=
  s.gated_goes id off v f h (s.armWaits_other id off v g)

/-- A hub that is held in cold reset takes no write (R440). -/
theorem State.gated_por (s : State) (id : Ident) (off : Nat) (v : Word) (f : State → State) (p : s.pwr.por = true) :
    s.gated id off v f = s := by
  unfold State.gated State.gatedAs; rw [p]; rfl

/-- A write that its identity may not make is counted and does nothing else (R339). -/
theorem State.gated_denied (s : State) (id : Ident) (off : Nat) (v : Word) (f : State → State) (p : s.pwr.por = false)
    (h : s.wrDenied id off = true) : s.gated id off v f = s.deny := by
  have g : s.gateW id off = .deny := by simp only [State.gateW, h, if_true]
  unfold State.gated State.gatedAs; rw [p, g]; rfl

/-- A read of an identity on the bus in a domain that is ON takes effect. -/
theorem State.gatedRead_on (s : State) (id : Ident) (off : Nat) (f : State → Word × State) (hb : onBus id = true)
    (hd : s.domOn (domainOf off) = true) : s.gatedRead id off f = ((f s).1, (f s).2.bpReg id off false) := by
  simp only [State.gatedRead, hb, hd, Bool.not_true, Bool.false_eq_true, if_false, if_true]

theorem State.goes_onBus (s : State) (id : Ident) (off : Nat) (h : s.goes id off) : onBus id = true := by
  by_contra hb
  have hd : s.wrDenied id off = true := by rw [State.wrDenied, if_pos (by simpa using hb)]
  have hg : s.gateW id off = .deny := by rw [State.gateW, if_pos hd]
  have h2 : s.gateW id off = .go := h.2
  rw [hg] at h2; cases h2

end Sys2Proof.Machine
end

