-- ==== Sys2Proof/Laws/DeepBase.lean ====
section
/-!
SUPPORT. Laws/DeepBase.lean: one lemma per operation: it moves none of what `State.deep` shows (registers, records, the
    capture path and the access path).
-/

namespace Sys2Proof.Machine

theorem foldl_deep {α : Type} (g : State → α → State) (l : List α) (s : State) (h : ∀ s x, (g s x).deep = s.deep) :
    (l.foldl g s).deep = s.deep := by
  induction l generalizing s with
  | nil => rfl
  | cons a t ih => rw [List.foldl_cons, ih, h]
theorem deep_regs (s : State) (x) : ({ s with regs := x } : State).deep = s.deep := rfl
theorem deep_shadows (s : State) (x) : ({ s with shadows := x } : State).deep = s.deep := rfl
theorem deep_latches (s : State) (x) : ({ s with latches := x } : State).deep = s.deep := rfl
theorem deep_setLog (s : State) (x) : ({ s with setLog := x } : State).deep = s.deep := rfl
theorem deep_recq (s : State) (x) : ({ s with recq := x } : State).deep = s.deep := rfl
theorem deep_eqs (s : State) (x) : ({ s with eqs := x } : State).deep = s.deep := rfl
theorem deep_wqs (s : State) (x) : ({ s with wqs := x } : State).deep = s.deep := rfl
theorem deep_fqs (s : State) (x) : ({ s with fqs := x } : State).deep = s.deep := rfl
theorem deep_fqHeld (s : State) (x) : ({ s with fqHeld := x } : State).deep = s.deep := rfl
theorem deep_run (s : State) (x) : ({ s with run := x } : State).deep = s.deep := rfl
theorem deep_mem (s : State) (x) : ({ s with mem := x } : State).deep = s.deep := rfl
theorem deep_trg (s : State) (x) : ({ s with trg := x } : State).deep = s.deep := rfl
theorem deep_path (s : State) (x) : ({ s with path := x } : State).deep = s.deep := rfl
theorem deep_strs (s : State) (x) : ({ s with strs := x } : State).deep = s.deep := rfl
theorem deep_snt (s : State) (x) : ({ s with snt := x } : State).deep = s.deep := rfl
theorem deep_ports (s : State) (x) : ({ s with ports := x } : State).deep = s.deep := rfl
theorem deep_dmfQ (s : State) (x) : ({ s with dmfQ := x } : State).deep = s.deep := rfl
theorem deep_host (s : State) (x) : ({ s with host := x } : State).deep = s.deep := rfl
theorem deep_mbx (s : State) (x) : ({ s with mbx := x } : State).deep = s.deep := rfl
theorem deep_mnt (s : State) (x) : ({ s with mnt := x } : State).deep = s.deep := rfl
theorem deep_pwr (s : State) (x) : ({ s with pwr := x } : State).deep = s.deep := rfl
theorem deep_conv (s : State) (x) : ({ s with conv := x } : State).deep = s.deep := rfl
theorem deep_reform (s : State) (x) : ({ s with reform := x } : State).deep = s.deep := rfl
theorem deep_dbg (s : State) (x) : ({ s with dbg := x } : State).deep = s.deep := rfl
theorem deep_cal (s : State) (x) : ({ s with cal := x } : State).deep = s.deep := rfl
theorem deep_flash (s : State) (x) : ({ s with flash := x } : State).deep = s.deep := rfl
theorem deep_updAgent (s : State) (x) : ({ s with upd := x } : State).deep = s.deep := rfl
theorem deep_firsts (s : State) (x) : ({ s with firsts := x } : State).deep = s.deep := rfl
theorem deep_obs (s : State) (x) : ({ s with obs := x } : State).deep = s.deep := rfl
theorem deep_freeCtr (s : State) (x) : ({ s with freeCtr := x } : State).deep = s.deep := rfl
theorem deep_upd (s : State) (xregs xshadows xlatches xsetLog xrecq xeqs xwqs xfqs xfqHeld xrun xmem xtrg xpath xstrs xsnt
    xports xdmfQ xhost xmbx xmnt xpwr xconv xreform xdbg xcal xflash xupd xfirsts xobs xfreeCtr) : State.deep ⟨xregs,
    xshadows, xlatches, xsetLog, xrecq, xeqs, xwqs, xfqs, xfqHeld, s.image, s.time, xrun, xmem, xtrg, xpath, xstrs, xsnt,
    xports, xdmfQ, xhost, xmbx, xmnt, xpwr, xconv, xreform, xdbg, xcal, xflash, xupd, xfirsts, xobs, xfreeCtr, s.pending⟩ =
    s.deep := rfl
theorem TimeState.due_at_same (t : TimeState) (a1 a2 a3 a4 a5 a6 a7) :
    (⟨t.frc, t.frcBase, t.tBase, t.incr, t.incrPend, a1, a2, t.stepPend, a3, a4, a5, a6, a7⟩ : TimeState).due.at t.frc =
      t.due.at t.frc := by
  obtain ⟨frc, fb, tb, inc, ip, lo, hi, sp, b1, b2, b3, b4, b5⟩ := t
  rcases ip with _ | ⟨v, k⟩ <;> rcases sp with _ | ⟨z, i⟩ <;>
    simp only [TimeState.due, TimeState.stepFirst, TimeState.takeStep, TimeState.takeIncr, TimeState.isDue,
        TimeState.stepTo,
      TimeState.baseAt, TimeState.at] <;>
    grind
theorem deep_time (s : State) (xregs xshadows xlatches xsetLog xrecq xeqs xwqs xfqs xfqHeld xrun xmem xtrg xpath xstrs xsnt
    xports xdmfQ xhost xmbx xmnt xpwr xconv xreform xdbg xcal xflash xupd xfirsts xobs xfreeCtr) (a1 a2 a3 a4 a5 a6 a7) :
    State.deep ⟨xregs, xshadows, xlatches, xsetLog, xrecq, xeqs, xwqs, xfqs, xfqHeld, s.image, ⟨s.time.frc, s.time.frcBase,
    s.time.tBase, s.time.incr, s.time.incrPend, a1, a2, s.time.stepPend, a3, a4, a5, a6, a7⟩, xrun, xmem, xtrg, xpath,
    xstrs, xsnt, xports, xdmfQ, xhost, xmbx, xmnt, xpwr, xconv, xreform, xdbg, xcal, xflash, xupd, xfirsts, xobs, xfreeCtr,
    s.pending⟩ = s.deep := by
  simp only [State.deep, State.structureInUse, State.now, TimeState.due_at_same, TimeState.pendOk]

theorem State.wr_deep (s : State) (off : Nat) (v : Word) : (State.wr s off v).deep = s.deep := by
  unfold State.wr
  grind [deep_upd, deep_time, State.deep, State.now]

theorem State.setF_deep (s : State) (f : Fld) (n : Nat) : (State.setF s f n).deep = s.deep := by
  unfold State.setF
  simp only [State.wr_deep]

theorem State.setB_deep (s : State) (f : Fld) (b : Bool) : (State.setB s f b).deep = s.deep := by
  unfold State.setB
  simp only [State.setF_deep]

theorem State.bump_deep (s : State) (f : Fld) : (State.bump s f).deep = s.deep := by
  unfold State.bump
  simp only [State.setF_deep]

theorem State.bumpBy_deep (s : State) (f : Fld) (n : Nat) : (State.bumpBy s f n).deep = s.deep := by
  unfold State.bumpBy
  simp only [State.setF_deep]

theorem State.wr64_deep (s : State) (lo hi : Nat) (n : Nat) : (State.wr64 s lo hi n).deep = s.deep := by
  unfold State.wr64
  simp only [State.wr_deep]

theorem State.emit_deep (s : State) (ident typ : Nat) (payload : List Word) : (State.emit s ident typ payload).deep =
    s.deep := by
  unfold State.emit
  grind [deep_upd, deep_time, State.deep, State.now]

theorem State.obsv_deep (s : State) (o : Obs) : (State.obsv s o).deep = s.deep := by
  unfold State.obsv
  grind [deep_upd, deep_time, State.deep, State.now]

theorem State.free_deep (s : State) : (State.free s).2.deep = s.deep := by
  unfold State.free
  grind [deep_upd, deep_time, State.deep, State.now]

theorem State.worked_deep (s : State) (d : Nat) : (State.worked s d).deep = s.deep := by
  unfold State.worked
  simp only [deep_upd]

theorem State.bpNote_deep (s : State) (typ : Nat) (sel : Nat → Bool) (v : Nat) (e : Option Nat) : (State.bpNote s typ sel v
    e).deep = s.deep := by
  unfold State.bpNote
  simp only [deep_upd]

theorem State.bpQueue_deep (s : State) (kind q ev : Nat) : (State.bpQueue s kind q ev).deep = s.deep := by
  unfold State.bpQueue
  simp only [State.bpNote_deep]

theorem State.bpTrig_deep (s : State) (i j : Nat) (supp : Bool) : (State.bpTrig s i j supp).deep = s.deep := by
  unfold State.bpTrig
  simp only [State.bpNote_deep]

theorem State.updFn_deep (s : State) (f : Nat) (g : PciFn → PciFn) : (State.updFn s f g).deep = s.deep := by
  unfold State.updFn
  simp only [deep_upd]

theorem State.updVec_deep (s : State) (f v : Nat) (g : MsixVec → MsixVec) : (State.updVec s f v g).deep = s.deep := by
  unfold State.updVec
  simp only [State.updFn_deep]

theorem State.signal_deep (s : State) (f v : Nat) : (State.signal s f v).deep = s.deep := by
  unfold State.signal
  simp only [State.updVec_deep, State.obsv_deep, apply_ite State.deep, ite_self]

theorem State.pinOut_deep (s : State) (p : Pin) (level : Bool) (at_ vernier : Nat) : (State.pinOut s p level at_
    vernier).deep = s.deep := by
  unfold State.pinOut
  simp only [State.obsv_deep, apply_ite State.deep, ite_self]

theorem State.pinEdge_deep (s was : State) (p : Pin) (at_ vernier : Nat) : (State.pinEdge s was p at_ vernier).deep =
    s.deep := by
  unfold State.pinEdge
  simp only [State.pinOut_deep, apply_ite State.deep, ite_self]

theorem State.pinsMove_deep (s was : State) (l : List Pin) : (State.pinsMove s was l).deep = s.deep := by
  unfold State.pinsMove
  simp only [State.pinEdge_deep, foldl_deep, implies_true]

theorem State.clkMove_deep (s was : State) : (State.clkMove s was).deep = s.deep := by
  unfold State.clkMove
  simp only [State.obsv_deep, apply_ite State.deep, ite_self]

theorem State.follow_deep (s was : State) : (State.follow s was).deep = s.deep := by
  unfold State.follow
  simp only [State.pinsMove_deep, State.clkMove_deep]

theorem State.signalAlert_deep (s : State) : (State.signalAlert s).deep = s.deep := by
  unfold State.signalAlert
  simp only [State.signal_deep, apply_ite State.deep, ite_self]

theorem State.setAlert_deep (s : State) (bitNo : Nat) : (State.setAlert s bitNo).deep = s.deep := by
  unfold State.setAlert
  simp only [State.setF_deep, State.signalAlert_deep, State.pinOut_deep, apply_ite State.deep, ite_self]

theorem State.mntFault_deep (s : State) (k : Nat) (transient : Bool) (loc : Nat) : (State.mntFault s k transient loc).deep
    = s.deep := by
  unfold State.mntFault
  simp only [State.bump_deep, State.setF_deep, State.setB_deep, State.setAlert_deep, State.emit_deep, deep_upd,
      apply_ite State.deep, ite_self]

theorem State.late_deep (s : State) (flag : Fld) : (State.late s flag).deep = s.deep := by
  unfold State.late
  simp only [State.setF_deep, State.bump_deep]

theorem State.deny_deep (s : State) : (State.deny s).deep = s.deep := by
  unfold State.deny
  simp only [State.bump_deep]

theorem State.countCe_deep (s : State) (a b : Nat) : (State.countCe s a b).deep = s.deep := by
  unfold State.countCe
  simp only [State.bump_deep, State.setF_deep]

theorem State.memReadWord_deep (s : State) (a : Nat) : (State.memReadWord s a).2.deep = s.deep := by
  unfold State.memReadWord
  grind [State.countCe_deep, State.bump_deep, State.emit_deep, State.mntFault_deep, State.setF_deep, deep_upd, deep_time,
      State.deep, State.now]

theorem State.memReadWords_deep (s : State) (x0 : Nat) (x1 : Nat) : (State.memReadWords s x0 x1).2.deep = s.deep := by
  fun_induction State.memReadWords <;> grind [State.memReadWord_deep, deep_upd, deep_time]

theorem State.memWroteWord_deep (s : State) (a : Nat) : (State.memWroteWord s a).deep = s.deep := by
  unfold State.memWroteWord
  simp only [State.setF_deep, deep_upd, apply_ite State.deep, ite_self]

theorem State.memWroteWords_deep (s : State) (x0 : Nat) (x1 : Nat) : (State.memWroteWords s x0 x1).deep = s.deep := by
  fun_induction State.memWroteWords <;> grind [State.memWroteWord_deep, deep_upd, deep_time]

theorem State.memWrite_deep (s : State) (a : Nat) (bytes : List Byte) : (State.memWrite s a bytes).deep = s.deep := by
  unfold State.memWrite
  simp only [State.memWroteWords_deep, deep_upd]

theorem State.memZero_deep (s : State) : (State.memZero s).deep = s.deep := by
  unfold State.memZero
  simp only [deep_upd]

theorem State.windowWords'_deep (s : State) (x0 : Nat) (x1 : Nat) (x2 : List (Option Byte)) : (State.windowWords' s x0 x1
    x2).deep = s.deep := by
  fun_induction State.windowWords' <;> grind [State.memReadWord_deep, State.memWroteWord_deep, deep_upd, deep_time]

theorem State.firstOf_deep (s : State) (off : Nat) (f : State → State) (hf : ∀ s, (f s).deep = s.deep) : (State.firstOf s
    off f).deep = s.deep := by
  unfold State.firstOf
  simp only [deep_upd, hf, apply_ite State.deep, ite_self]

theorem State.memDeny_deep (s : State) (id : Ident) (a : Nat) (write : Bool) : (State.memDeny s id a write).deep = s.deep
    := by
  unfold State.memDeny
  simp only [State.bump_deep, State.setF_deep, State.setB_deep, State.firstOf_deep, State.emit_deep, implies_true]

theorem State.ctxPokes_deep (s : State) (x0 : List Nat) : (State.ctxPokes s x0).deep = s.deep := by
  fun_induction State.ctxPokes <;> grind [deep_upd, deep_time]

theorem State.ctxPoke_deep (s : State) (off len : Nat) : (State.ctxPoke s off len).deep = s.deep := by
  unfold State.ctxPoke
  simp only [State.ctxPokes_deep]

theorem State.updStr_deep (s : State) (i : Nat) (f : StreamState → StreamState) : (State.updStr s i f).deep = s.deep := by
  unfold State.updStr
  simp only [deep_upd]

theorem State.declare_deep (s : State) (i : Nat) (r : GapRun) : (State.declare s i r).deep = s.deep := by
  unfold State.declare
  simp only [State.updStr_deep]

theorem State.updFq_deep (s : State) (n : Nat) (f : List Packet → List Packet) : (State.updFq s n f).deep = s.deep := by
  unfold State.updFq
  simp only [deep_upd]

theorem State.fqLines_deep (s : State) (n : Nat) (x0 : Nat) (x1 : List Byte) : (State.fqLines s n x0 x1).deep = s.deep := by
  fun_induction State.fqLines <;> grind [State.memWrite_deep, State.setF_deep, deep_upd, deep_time]

theorem State.pace_deep (s : State) (i : Nat) (l : List Packet) : (State.pace s i l).deep = s.deep := by
  unfold State.pace
  simp only [State.updStr_deep, apply_ite State.deep, ite_self]

theorem State.fqCommit_deep (s : State) (n : Nat) (p : Packet) : (State.fqCommit s n p).deep = s.deep := by
  unfold State.fqCommit
  simp only [State.setF_deep, State.fqLines_deep, State.bump_deep, State.updFq_deep]

theorem State.fqCommitAll_deep (s : State) (n : Nat) (x0 : List Packet) : (State.fqCommitAll s n x0).deep = s.deep := by
  fun_induction State.fqCommitAll <;> grind [State.fqCommit_deep, deep_upd, deep_time]

theorem State.fqRelease_deep (s : State) (n : Nat) (p : Packet) : (State.fqRelease s n p).deep = s.deep := by
  unfold State.fqRelease
  simp only [State.setF_deep, apply_ite State.deep, ite_self]

theorem State.fqFresh_deep (s : State) (n : Nat) : (State.fqFresh s n).deep = s.deep := by
  unfold State.fqFresh
  simp only [State.setF_deep, deep_upd]

theorem State.fqTrim_deep (s : State) (n : Nat) : (State.fqTrim s n).deep = s.deep := by
  unfold State.fqTrim
  simp only [State.fqRelease_deep, State.updFq_deep, State.fqFresh_deep, foldl_deep, apply_ite State.deep, ite_self,
      implies_true]

theorem State.fqLimited_deep (s : State) (n u : Nat) : (State.fqLimited s n u).deep = s.deep := by
  unfold State.fqLimited
  simp only [State.fqFresh_deep, deep_upd, apply_ite State.deep, ite_self]

theorem State.copyRec_deep (s : State) (p : Packet) : (State.copyRec s p).deep = s.deep := by
  unfold State.copyRec
  grind [State.emit_deep, deep_upd, deep_time]

theorem State.copyRecs_deep (s : State) (l : List Packet) : (State.copyRecs s l).deep = s.deep := by
  unfold State.copyRecs
  simp only [State.copyRec_deep, foldl_deep, implies_true]

theorem State.fqInsert_deep (s : State) (q : Packet) (before : Packet → Bool) : (State.fqInsert s q before).deep = s.deep
    := by
  unfold State.fqInsert
  simp only [State.updFq_deep]

theorem State.loseMark_deep (s : State) (p : Packet) : (State.loseMark s p).deep = s.deep := by
  unfold State.loseMark
  simp only [State.fqInsert_deep, State.updStr_deep, apply_ite State.deep, ite_self]

theorem State.loseAnchor_deep (s : State) (p : Packet) : (State.loseAnchor s p).deep = s.deep := by
  unfold State.loseAnchor
  simp only [State.fqInsert_deep, State.updStr_deep, apply_ite State.deep, ite_self]

theorem State.loseP_deep (s : State) (cause : Nat) (p : Packet) : (State.loseP s cause p).deep = s.deep := by
  unfold State.loseP
  simp only [State.declare_deep, State.updStr_deep, State.loseMark_deep, State.loseAnchor_deep, foldl_deep,
      apply_ite State.deep, ite_self, implies_true]

theorem State.loseAll_deep (s : State) (cause : Nat) (l : List Packet) : (State.loseAll s cause l).deep = s.deep := by
  unfold State.loseAll
  simp only [State.loseP_deep, foldl_deep, implies_true]

theorem State.lateGaps_deep (s : State) (i : Nat) : (State.lateGaps s i).deep = s.deep := by
  unfold State.lateGaps
  simp only [State.updStr_deep, State.fqInsert_deep, foldl_deep, implies_true]

theorem State.carries_deep (s : State) (i : Nat) (a : Nat × Nat) (later : List Packet) : (State.carries s i a later).deep =
    s.deep := by
  unfold State.carries
  simp only [State.updStr_deep, apply_ite State.deep, ite_self]

theorem State.lateAnchor_deep (s : State) (i : Nat) : (State.lateAnchor s i).deep = s.deep := by
  unfold State.lateAnchor
  grind [State.updStr_deep, State.fqInsert_deep, State.carries_deep, State.updFq_deep, deep_upd, deep_time]

theorem State.loseSent_deep (s : State) (cause : Nat) (p : Packet) : (State.loseSent s cause p).deep = s.deep := by
  unfold State.loseSent
  simp only [State.loseP_deep, State.lateGaps_deep, State.lateAnchor_deep, apply_ite State.deep, ite_self]

theorem State.takeOut_deep (s : State) (i n : Nat) : (State.takeOut s i n).2.deep = s.deep := by
  unfold State.takeOut
  simp only [State.updFq_deep, State.fqTrim_deep]

theorem State.geyNext_deep (s : State) (i : Nat) (y : Option CapChan) : (State.geyNext s i y).deep = s.deep := by
  unfold State.geyNext
  simp only [State.updStr_deep]

theorem State.geyPass_deep (s : State) (i n : Nat) : (State.geyPass s i n).deep = s.deep := by
  unfold State.geyPass
  simp only [State.updStr_deep]

theorem State.geyDrop_deep (s : State) (i cause : Nat) : (State.geyDrop s i cause).deep = s.deep := by
  unfold State.geyDrop
  (repeat' split) <;> simp only [State.declare_deep, State.geyNext_deep, State.geyPass_deep, foldl_deep, implies_true]

theorem State.pipeLose_deep (s : State) (cause hi i : Nat) : (State.pipeLose s cause hi i).deep = s.deep := by
  unfold State.pipeLose
  (repeat' split) <;> simp only [State.updStr_deep, State.declare_deep, foldl_deep, implies_true]

theorem State.updChan_deep (s : State) (c : Nat) (f : ChanPath → ChanPath) : (State.updChan s c f).deep = s.deep := by
  unfold State.updChan
  simp only [deep_upd]

theorem State.memPut_deep (s : State) (a : Nat) (b : List Byte) : (State.memPut s a b).deep = s.deep := by
  unfold State.memPut
  simp only [State.memWroteWords_deep, deep_upd, apply_ite State.deep, ite_self]

theorem State.poolPut_deep (s : State) (x : Nat) (b : List Byte) : (State.poolPut s x b).deep = s.deep := by
  unfold State.poolPut
  simp only [State.memPut_deep]

theorem State.updCap_deep (s : State) (id : Nat) (f : Capture → Capture) : (State.updCap s id f).deep = s.deep := by
  unfold State.updCap
  simp only [deep_upd]

theorem State.capPut_deep (s : State) (k : Capture) (i lo : Nat) (b : List Byte) : (State.capPut s k i lo b).deep = s.deep
    := by
  unfold State.capPut
  simp only [State.poolPut_deep]

theorem State.capLose_deep (s : State) (k : Capture) (c cause lo hi : Nat) : (State.capLose s k c cause lo hi).deep =
    s.deep := by
  unfold State.capLose
  simp only [State.updCap_deep, State.declare_deep, apply_ite State.deep, ite_self]

theorem State.capTo_deep (s : State) (k : Capture) (hi : Nat) : (State.capTo s k hi).deep = s.deep := by
  unfold State.capTo
  simp only [State.updCap_deep]

theorem State.capRest_deep (s : State) (k : Capture) (cause hi : Nat) : (State.capRest s k cause hi).deep = s.deep := by
  unfold State.capRest
  simp only [State.capLose_deep, State.capTo_deep, foldl_deep, apply_ite State.deep, ite_self, implies_true]

theorem State.capFeed_deep (s : State) (m lo hi : Nat) (k : Capture) : (State.capFeed s m lo hi k).deep = s.deep := by
  unfold State.capFeed
  simp only [State.capPut_deep, State.capTo_deep, foldl_deep, apply_ite State.deep, ite_self, implies_true]

theorem State.ringStore_deep (s : State) (m lo hi : Nat) : (State.ringStore s m lo hi).deep = s.deep := by
  unfold State.ringStore
  simp only [State.memPut_deep, State.capFeed_deep, State.wr64_deep, foldl_deep, deep_upd, apply_ite State.deep, ite_self,
      implies_true]

theorem State.ringBlocks_deep (s : State) (m hi : Nat) : (State.ringBlocks s m hi).deep = s.deep := by
  unfold State.ringBlocks
  simp only [State.ringStore_deep, apply_ite State.deep, ite_self]

theorem State.ringFlush_deep (s : State) (m hi : Nat) : (State.ringFlush s m hi).deep = s.deep := by
  unfold State.ringFlush
  simp only [State.ringStore_deep, apply_ite State.deep, ite_self]

theorem State.copyRead_deep (s : State) (k : Capture) (i : Nat) (x0 : Nat) (x1 : Nat) (x2 : Option (Nat × Bool)) :
    (State.copyRead s k i x0 x1 x2).2.2.deep = s.deep := by
  fun_induction State.copyRead <;> grind [State.memReadWord_deep, deep_upd, deep_time]

theorem State.copyTo_deep (s : State) (k : Capture) (hi : Nat) : (State.copyTo s k hi).deep = s.deep := by
  unfold State.copyTo
  simp only [State.copyRead_deep, State.capPut_deep, State.capLose_deep, State.capTo_deep, foldl_deep,
      apply_ite State.deep, ite_self, implies_true]

theorem State.copyStretch_deep (s : State) (k : Capture) (hi : Nat) (x : Nat × Nat) : (State.copyStretch s k hi x).deep =
    s.deep := by
  unfold State.copyStretch
  simp only [State.copyTo_deep, State.capRest_deep]

theorem State.copyPre_deep (s : State) (k : Capture) : (State.copyPre s k).deep = s.deep := by
  unfold State.copyPre
  simp only [State.copyStretch_deep, State.copyTo_deep, State.updCap_deep, foldl_deep, apply_ite State.deep, ite_self,
      implies_true]

theorem State.capPad_deep (s : State) (k : Capture) : (State.capPad s k).deep = s.deep := by
  unfold State.capPad
  simp only [State.poolPut_deep, foldl_deep, implies_true]

theorem State.capRetire_deep (s : State) (k : Capture) (t : List Capture) : (State.capRetire s k t).deep = s.deep := by
  unfold State.capRetire
  simp only [State.setF_deep, deep_upd]

theorem State.capFree_deep (s : State) (x0 : Nat) : (State.capFree s x0).deep = s.deep := by
  fun_induction State.capFree <;> grind [State.capRetire_deep, deep_upd, deep_time]

theorem State.capsStop_deep (s : State) (stop : Nat) : (State.capsStop s stop).deep = s.deep := by
  unfold State.capsStop
  simp only [State.capRest_deep, foldl_deep, apply_ite State.deep, ite_self, implies_true]

theorem State.capsLose_deep (s : State) (cause hi : Nat) : (State.capsLose s cause hi).deep = s.deep := by
  unfold State.capsLose
  simp only [State.capRest_deep, foldl_deep, apply_ite State.deep, ite_self, implies_true]

theorem State.eventTrigger_deep (s : State) (src sel : Nat) (t : Int) : (State.eventTrigger s src sel t).deep = s.deep := by
  unfold State.eventTrigger
  simp only [deep_upd, apply_ite State.deep, ite_self]

theorem State.updOut_deep (s : State) (o : Nat) (f : TrigOut → TrigOut) : (State.updOut s o f).deep = s.deep := by
  unfold State.updOut
  simp only [deep_upd]

theorem State.trigPins_deep (s : State) : (State.trigPins s).deep = s.deep := by
  rw [State.trigPins]
  exact foldl_deep _ _ _ (fun s o => by rw [State.pinEdge_deep, State.updOut_deep])

theorem State.condsPrefill_deep (s : State) : (State.condsPrefill s).deep = s.deep := by
  unfold State.condsPrefill
  simp only [State.setF_deep, foldl_deep, deep_upd, implies_true]

theorem State.trigEnterDelay_deep (s : State) : (State.trigEnterDelay s).deep = s.deep := by
  rw [State.trigEnterDelay, State.wr64_deep, deep_path]
  iterate 5 rw [State.setF_deep]
  rw [State.condsPrefill_deep, deep_trg]

theorem State.showCharge_deep (s : State) (c b : Nat) : (State.showCharge s c b).deep = s.deep := by
  unfold State.showCharge
  simp only [State.setF_deep]

theorem State.showPool_deep (s : State) (q : Nat) : (State.showPool s q).deep = s.deep := by
  unfold State.showPool
  simp only [State.setF_deep]

theorem State.showBank_deep (s : State) (c : Nat) : (State.showBank s c).deep = s.deep := by
  unfold State.showBank
  simp only [State.setF_deep, State.showPool_deep]

theorem State.showBanks_deep (s : State) (q : Nat) : (State.showBanks s q).deep = s.deep := by
  unfold State.showBanks
  simp only [State.showBank_deep, foldl_deep, implies_true]

theorem State.settle_deep (s : State) (c a : Nat) : (State.settle s c a).deep = s.deep := by
  unfold State.settle
  simp only [State.updChan_deep, State.setB_deep, State.wr64_deep]

theorem State.settleEnd_deep (s : State) (c : Nat) : (State.settleEnd s c).deep = s.deep := by
  unfold State.settleEnd
  simp only [State.setF_deep, apply_ite State.deep, ite_self]

theorem State.setDom_deep (s : State) (d n : Nat) : (State.setDom s d n).deep = s.deep := by
  unfold State.setDom
  simp only [State.setF_deep]

theorem State.wakeDom_deep (s : State) (d : Nat) : (State.wakeDom s d).deep = s.deep := by
  rw [State.wakeDom]
  split
  · exact State.worked_deep ..
  · split
    · rfl
    · split
      · rw [State.clkMove_deep, State.worked_deep, State.setDom_deep]
      · dsimp only; rw [deep_pwr, State.bump_deep]

theorem State.actTakes_deep (s : State) (a u : Nat) : (State.actTakes s a u).deep = s.deep := by
  unfold State.actTakes
  simp only [deep_upd, apply_ite State.deep, ite_self]

theorem State.actsTaken_deep (s : State) : (State.actsTaken s).deep = s.deep := by
  unfold State.actsTaken
  simp only [deep_upd]

theorem State.goBehind_deep (s : State) (k : HeldKind) (id : Ident) (off : Nat) (v : Word) : (State.goBehind s k id off
    v).deep = s.deep := by
  unfold State.goBehind
  simp only [deep_upd]

theorem State.goHeld_deep (s : State) (k : HeldKind) (id : Ident) (off : Nat) (v : Word) : (State.goHeld s k id off v).deep
    = s.deep := by
  unfold State.goHeld
  simp only [deep_upd]

theorem State.bpReg_deep (s : State) (id : Ident) (off : Nat) (write : Bool) : (State.bpReg s id off write).deep = s.deep
    := by
  unfold State.bpReg
  simp only [State.bpNote_deep]

theorem State.gatedAs_deep (s : State) (k : HeldKind) (id : Ident) (off : Nat) (v : Word) (f : State → State) (hf : ∀ s, (f
    s).deep = s.deep) : (State.gatedAs s k id off v f).deep = s.deep := by
  unfold State.gatedAs
  (repeat' split) <;> simp only [State.deny_deep, State.wakeDom_deep, State.goHeld_deep, State.setF_deep,
      State.goBehind_deep, State.bpReg_deep, hf]

theorem State.gated_deep (s : State) (id : Ident) (off : Nat) (v : Word) (f : State → State) (hf : ∀ s, (f s).deep =
    s.deep) : (State.gated s id off v f).deep = s.deep := by
  unfold State.gated
  simp only [State.gatedAs_deep, hf, implies_true]

theorem State.gatedRead_deep (s : State) (id : Ident) (off : Nat) (f : State → Word × State) (hf : ∀ s, (f s).2.deep =
    s.deep) : (State.gatedRead s id off f).2.deep = s.deep := by
  unfold State.gatedRead
  split
  · simp only [State.deny_deep]
  · split
    · simp only [State.bpReg_deep]; exact hf s
    · simp only [State.setF_deep]

theorem State.holdRead_deep (s : State) (k : HeldKind) (id : Ident) (off : Nat) : (State.holdRead s k id off).deep = s.deep
    := by
  unfold State.holdRead
  grind [State.late_deep, deep_upd, deep_time, State.deep, State.now]

theorem State.reading_deep (s : State) (id : Ident) (off : Nat) (f : State → State) (hf : ∀ s, (f s).deep = s.deep) :
    (State.reading s id off f).deep = s.deep := by
  unfold State.reading
  simp only [State.holdRead_deep, hf, apply_ite State.deep, ite_self]

theorem State.latch_deep (s : State) (id : Ident) (off : Nat) (v : Word) : (State.latch s id off v).deep = s.deep := by
  unfold State.latch
  simp only [deep_upd]

theorem State.clearLatches_deep (s : State) (id : Ident) : (State.clearLatches s id).deep = s.deep := by
  unfold State.clearLatches
  simp only [deep_upd]

end Sys2Proof.Machine
end

