-- ==== Sys2Proof/Laws/DeepPath.lean ====
section
/-!
SUPPORT. Laws/DeepPath.lean: one lemma per operation: it moves none of what `State.deep` shows (calibration, conditioning,
    streams and queues).
-/

namespace Sys2Proof.Machine

theorem State.setFac_deep (s : State) (low : Bool) (k : Nat) (f : Option CalFactor) : (State.setFac s low k f).deep =
    s.deep := by
  unfold State.setFac
  simp only [deep_upd]

theorem State.updGrp_deep (s : State) (g : Nat) (f : CalGroup → CalGroup) : (State.updGrp s g f).deep = s.deep := by
  unfold State.updGrp
  simp only [deep_upd]

theorem State.showFac_deep (s : State) (k : Nat) : (State.showFac s k).deep = s.deep := by
  unfold State.showFac
  grind [State.setB_deep, State.setF_deep, deep_upd, deep_time]

theorem State.showCal_deep (s : State) : (State.showCal s).deep = s.deep := by
  unfold State.showCal
  simp only [State.showFac_deep, State.setF_deep, foldl_deep, implies_true]

theorem State.freeCorr_deep (s : State) : (State.freeCorr s).2.deep = s.deep := by
  unfold State.freeCorr
  simp only [State.free_deep]

theorem State.learn_deep (s : State) (k src : Nat) : (State.learn s k src).deep = s.deep := by
  unfold State.learn
  simp only [State.freeCorr_deep, State.setFac_deep, State.showFac_deep]

theorem State.learnMatch_deep (s : State) (g : Nat) : (State.learnMatch s g).deep = s.deep := by
  unfold State.learnMatch
  simp only [State.freeCorr_deep, State.updGrp_deep]

theorem State.calOutcome_deep (s : State) (k : Nat) (lasting : Bool) : (State.calOutcome s k lasting).deep = s.deep := by
  unfold State.calOutcome
  simp only [State.bump_deep, State.mntFault_deep, apply_ite State.deep, ite_self]

theorem State.serve_deep (s : State) (g p : Nat) : (State.serve s g p).deep = s.deep := by
  unfold State.serve
  simp only [State.updGrp_deep]

theorem State.unserve_deep (s : State) (g p : Nat) : (State.unserve s g p).deep = s.deep := by
  unfold State.unserve
  simp only [State.updGrp_deep]

theorem State.adopt_deep (s : State) (g p : Nat) : (State.adopt s g p).deep = s.deep := by
  unfold State.adopt
  simp only [State.setF_deep, State.learnMatch_deep, State.serve_deep, State.emit_deep, apply_ite State.deep, ite_self]

theorem State.unadopt_deep (s : State) (g : Nat) : (State.unadopt s g).deep = s.deep := by
  unfold State.unadopt
  simp only [State.setF_deep, State.unserve_deep, apply_ite State.deep, ite_self]

theorem State.spareFault_deep (s : State) (g src : Nat) : (State.spareFault s g src).deep = s.deep := by
  unfold State.spareFault
  simp only [State.setF_deep, State.emit_deep]

theorem State.degrade_deep (s : State) (c : Nat) : (State.degrade s c).deep = s.deep := by
  unfold State.degrade
  simp only [State.setF_deep, State.emit_deep, deep_upd]

theorem State.calTest_deep (s : State) (outcomes : List Nat) (k t : Nat) : (State.calTest s outcomes k t).deep = s.deep :=
    by
  unfold State.calTest
  simp only [State.setF_deep, State.calOutcome_deep, apply_ite State.deep, ite_self]

theorem State.calConv_deep (s : State) (outcomes : List Nat) (k : Nat) : (State.calConv s outcomes k).deep = s.deep := by
  unfold State.calConv
  simp only [State.calTest_deep, State.setF_deep, State.learn_deep, foldl_deep, apply_ite State.deep, ite_self,
      implies_true]

theorem State.calGroup_deep (s : State) (outcomes : List Nat) (g : Nat) : (State.calGroup s outcomes g).deep = s.deep := by
  unfold State.calGroup
  simp only [State.degrade_deep, State.unadopt_deep, State.spareFault_deep, foldl_deep, apply_ite State.deep, implies_true]
      <;> grind [State.degrade_deep, State.unadopt_deep, State.spareFault_deep, State.setF_deep, State.adopt_deep,
      foldl_deep, deep_upd, deep_time]

theorem State.calCommit_deep (s : State) (outcomes : List Nat) : (State.calCommit s outcomes).deep = s.deep := by
  unfold State.calCommit
  simp only [State.calConv_deep, State.calGroup_deep, State.showCal_deep, foldl_deep, deep_upd, implies_true]

theorem State.setCalHalf_deep (s : State) (h : Nat) (x : CalHalf) : (State.setCalHalf s h x).deep = s.deep := by
  unfold State.setCalHalf
  simp only [deep_upd]

theorem State.calSnap_deep (s : State) : (State.calSnap s).deep = s.deep := by
  unfold State.calSnap
  simp only [State.setCalHalf_deep, State.setF_deep, deep_upd]

theorem State.calSaveEnd_deep (s : State) (fails : Nat) : (State.calSaveEnd s fails).deep = s.deep := by
  unfold State.calSaveEnd
  grind [State.setF_deep, State.mntFault_deep, State.setCalHalf_deep, deep_upd, deep_time, State.deep, State.now]

theorem State.readRec_deep (s : State) (h i : Nat) : (State.readRec s h i).2.deep = s.deep := by
  unfold State.readRec
  grind [State.mntFault_deep, deep_upd, deep_time]

theorem State.calRecord_deep (s : State) (i : Nat) : (State.calRecord s i).2.deep = s.deep := by
  unfold State.calRecord
  grind [State.readRec_deep, deep_upd, deep_time]

theorem State.loadRec_deep (s : State) (k : Nat) (low : Bool) : (State.loadRec s k low).deep = s.deep := by
  unfold State.loadRec
  grind [State.calRecord_deep, State.setFac_deep, State.wr_deep, deep_upd, deep_time]

theorem State.loadConv_deep (s : State) (k : Nat) : (State.loadConv s k).deep = s.deep := by
  unfold State.loadConv
  grind [State.loadRec_deep, deep_upd, deep_time]

theorem State.loadAdopt_deep (s : State) (g : Nat) : (State.loadAdopt s g).deep = s.deep := by
  unfold State.loadAdopt
  grind [State.adopt_deep, State.setF_deep, State.learnMatch_deep, State.serve_deep, deep_upd, deep_time]

theorem State.loadQuad_deep (s : State) (q : Nat) : (State.loadQuad s q).deep = s.deep := by
  unfold State.loadQuad
  simp only [State.loadConv_deep, State.loadAdopt_deep, State.showCal_deep, foldl_deep, deep_upd, apply_ite State.deep,
      ite_self, implies_true]

theorem State.storeUsed_deep (s : State) : (State.storeUsed s).deep = s.deep := by
  unfold State.storeUsed
  simp only [State.setB_deep]

theorem State.pauseBg_deep (s : State) (g : Nat) : (State.pauseBg s g).deep = s.deep := by
  unfold State.pauseBg
  grind [State.setF_deep, State.updGrp_deep, State.unserve_deep, deep_upd, deep_time]

theorem State.dropBg_deep (s : State) (g : Nat) : (State.dropBg s g).deep = s.deep := by
  unfold State.dropBg
  simp only [State.unserve_deep, State.updGrp_deep, State.setF_deep, apply_ite State.deep, ite_self]

theorem State.loadSn_deep (s : State) (c : Nat) (at_ : Option Nat) : (State.loadSn s c at_).deep = s.deep := by
  unfold State.loadSn
  simp only [State.wr64_deep]

theorem State.delayLanded_deep (s : State) (c a : Nat) (quiet : Bool) : (State.delayLanded s c a quiet).deep = s.deep := by
  unfold State.delayLanded
  simp only [State.updChan_deep, State.loadSn_deep, State.settle_deep, State.setF_deep, State.emit_deep,
      apply_ite State.deep, ite_self]

theorem State.land_deep (s : State) (a off : Nat) (v : Word) : (State.land s a off v).deep = s.deep := by
  unfold State.land
  simp only [State.wr_deep, deep_upd, apply_ite State.deep, ite_self]

theorem State.calMoves_deep (s : State) (c a : Nat) : (State.calMoves s c a).deep = s.deep := by
  unfold State.calMoves
  simp only [State.updGrp_deep, apply_ite State.deep, ite_self]

theorem State.firSwapped_deep (s : State) (c : Nat) (old : Word) (at_ : Option Nat) (quiet : Bool) : (State.firSwapped s c
    old at_ quiet).deep = s.deep := by
  unfold State.firSwapped
  grind [State.showBank_deep, State.setF_deep, State.wr64_deep, State.emit_deep, State.updChan_deep, State.settle_deep,
      deep_upd, deep_time]

theorem State.chanLanded_deep (s s0 : State) (l : List (Nat × Word)) (at_ : Option Nat) (quiet : Bool) (c : Nat) :
    (State.chanLanded s s0 l at_ quiet c).deep = s.deep := by
  unfold State.chanLanded
  grind [State.firSwapped_deep, State.settle_deep, State.delayLanded_deep, State.loadSn_deep, deep_upd, deep_time]

theorem State.condLanded_deep (s s0 : State) (at_ : Option Nat) (n : Nat) : (State.condLanded s s0 at_ n).deep = s.deep :=
    by
  unfold State.condLanded
  simp only [State.setF_deep, deep_upd, apply_ite State.deep, ite_self]

theorem State.toLanded_deep (s s0 : State) (o : Nat) : (State.toLanded s s0 o).deep = s.deep := by
  rw [State.toLanded, State.pinEdge_deep]
  split
  · rfl
  · exact State.updOut_deep ..

theorem State.trgLanded_deep (s s0 : State) (at_ : Option Nat) : (State.trgLanded s s0 at_).deep = s.deep := by
  unfold State.trgLanded
  simp only [State.wr64_deep, State.condLanded_deep, State.toLanded_deep, foldl_deep, implies_true]

theorem State.bmfSwapped_deep (s : State) (at_ : Option Nat) : (State.bmfSwapped s at_).deep = s.deep := by
  unfold State.bmfSwapped
  simp only [State.setF_deep, State.wr64_deep, State.emit_deep]

theorem State.landSet_deep (s : State) (l : List (Nat × Word)) (at_ : Option Nat) (quiet : Bool) : (State.landSet s l at_
    quiet).deep = s.deep := by
  unfold State.landSet
  simp only [State.land_deep, State.chanLanded_deep, State.calMoves_deep, State.actTakes_deep, State.bmfSwapped_deep,
      State.trgLanded_deep, foldl_deep, deep_upd, apply_ite State.deep, ite_self, implies_true]

theorem State.coefPut_deep (s : State) (c : Nat) (d : ChanDef) : (State.coefPut s c d).deep = s.deep := by
  unfold State.coefPut
  simp only [State.land_deep, State.showCharge_deep, foldl_deep, implies_true]

theorem State.coefRelease_deep (s : State) : (State.coefRelease s).deep = s.deep := by
  unfold State.coefRelease
  simp only [State.coefPut_deep, foldl_deep, deep_upd, implies_true]

theorem State.setLocks_deep (s : State) (on : Bool) : (State.setLocks s on).deep = s.deep := by
  unfold State.setLocks
  simp only [State.setB_deep, foldl_deep, implies_true]

theorem State.applyIdle_deep (s : State) : (State.applyIdle s).deep = s.deep := by
  unfold State.applyIdle
  simp only [State.setLocks_deep, State.setF_deep, deep_upd]

theorem State.landAll_deep (s : State) (at_ : Option Nat) (quiet : Bool) : (State.landAll s at_ quiet).deep = s.deep := by
  unfold State.landAll
  simp only [State.applyIdle_deep, State.landSet_deep, State.wr64_deep, State.emit_deep, State.coefRelease_deep]

theorem State.strand_deep (s : State) (stop : Nat) : (State.strand s stop).deep = s.deep := by
  unfold State.strand
  simp only [State.applyIdle_deep, State.setF_deep, State.emit_deep, State.coefRelease_deep]

theorem State.applyRunEnds_deep (s : State) (stop : Nat) : (State.applyRunEnds s stop).deep = s.deep := by
  unfold State.applyRunEnds
  grind [State.strand_deep, deep_upd, deep_time, State.deep, State.now]

theorem State.applyLanding_deep (s : State) : (State.applyLanding s).deep = s.deep := by
  unfold State.applyLanding
  grind [State.landAll_deep, deep_upd, deep_time]

theorem State.discardSet_deep (s : State) (n : Nat) : (State.discardSet s n).deep = s.deep := by
  unfold State.discardSet
  simp only [State.setF_deep, State.emit_deep]

theorem State.applyDiscard_deep (s : State) : (State.applyDiscard s).deep = s.deep := by
  unfold State.applyDiscard
  simp only [State.applyIdle_deep, State.discardSet_deep, State.coefRelease_deep, deep_upd, apply_ite State.deep, ite_self]

theorem State.applyArm_deep (s : State) : (State.applyArm s).deep = s.deep := by
  unfold State.applyArm
  simp only [State.setF_deep, State.setLocks_deep, deep_upd, apply_ite State.deep, ite_self]

theorem State.applyRefuse_deep (s : State) (off : Nat) : (State.applyRefuse s off).deep = s.deep := by
  unfold State.applyRefuse
  simp only [State.setF_deep, State.applyIdle_deep, State.emit_deep, State.coefRelease_deep]

theorem State.applyChoose_deep (s : State) : (State.applyChoose s).deep = s.deep := by
  unfold State.applyChoose
  grind [State.strand_deep, State.setF_deep, State.landAll_deep, deep_upd, deep_time, State.deep, State.now]

theorem State.applyCheckDone_deep (s : State) : (State.applyCheckDone s).deep = s.deep := by
  unfold State.applyCheckDone
  grind [State.applyRefuse_deep, State.applyChoose_deep, deep_upd, deep_time]

theorem State.applyDisarm_deep (s : State) : (State.applyDisarm s).deep = s.deep := by
  unfold State.applyDisarm
  grind [State.applyIdle_deep, State.coefRelease_deep, State.late_deep, deep_upd, deep_time]

theorem State.nowHold_deep (s : State) (k : Nat) : (State.nowHold s k).deep = s.deep := by
  unfold State.nowHold
  simp only [deep_upd, apply_ite State.deep, ite_self]

theorem State.nowDiscard_deep (s : State) (p : Nat → Bool) : (State.nowDiscard s p).deep = s.deep := by
  unfold State.nowDiscard
  simp only [State.discardSet_deep, deep_upd]

theorem State.delayLand_deep (s : State) (c : Nat) (quiet : Bool) : (State.delayLand s c quiet).deep = s.deep := by
  unfold State.delayLand
  simp only [State.landSet_deep, State.loadSn_deep, State.setF_deep]

theorem State.delayNow_deep (s : State) (c : Nat) : (State.delayNow s c).deep = s.deep := by
  unfold State.delayNow
  simp only [State.setF_deep, State.nowDiscard_deep, State.nowHold_deep, State.delayLand_deep, apply_ite State.deep,
      ite_self]

theorem State.trgLand_deep (s : State) : (State.trgLand s).deep = s.deep := by
  unfold State.trgLand
  simp only [State.landSet_deep, State.wr64_deep, State.setF_deep]

theorem State.trgNow_deep (s : State) : (State.trgNow s).deep = s.deep := by
  unfold State.trgNow
  grind [State.setF_deep, State.nowDiscard_deep, State.nowHold_deep, State.trgLand_deep, deep_upd, deep_time]

theorem State.nowResume_deep (s : State) : (State.nowResume s).deep = s.deep := by
  unfold State.nowResume
  simp only [State.trgLand_deep, State.delayLand_deep, foldl_deep, deep_upd, apply_ite State.deep, ite_self, implies_true]

theorem State.bankCopy_deep (s : State) : (State.bankCopy s).deep = s.deep := by
  unfold State.bankCopy
  simp only [State.setF_deep, apply_ite State.deep, ite_self]

theorem State.copyEnd_deep (s : State) : (State.copyEnd s).deep = s.deep := by
  unfold State.copyEnd
  simp only [State.land_deep, State.setF_deep, foldl_deep, apply_ite State.deep, ite_self, implies_true]

theorem State.copyAbandon_deep (s : State) : (State.copyAbandon s).deep = s.deep := by
  unfold State.copyAbandon
  simp only [State.free_deep, State.wr_deep, State.setF_deep, foldl_deep, apply_ite State.deep, ite_self, implies_true]

theorem State.stepRaw_deep (s : State) (inp noise : List Int) (c m : Nat) (frozen : Bool) : (State.stepRaw s inp noise c m
    frozen).deep = s.deep := by
  unfold State.stepRaw
  simp only [State.bump_deep, State.updChan_deep, apply_ite State.deep, ite_self]

theorem State.stepClean_deep (s : State) (c m : Nat) : (State.stepClean s c m).deep = s.deep := by
  unfold State.stepClean
  simp only [State.bump_deep, State.updChan_deep, apply_ite State.deep, ite_self]

theorem State.stepLimit_deep (s : State) (c n : Nat) : (State.stepLimit s c n).deep = s.deep := by
  unfold State.stepLimit
  simp only [State.updChan_deep, State.setB_deep, State.bump_deep, State.setF_deep, State.emit_deep, apply_ite State.deep,
      ite_self]

theorem State.stepAligned_deep (s : State) (c m : Nat) (lab : Bool) : (State.stepAligned s c m lab).deep = s.deep := by
  unfold State.stepAligned
  simp only [State.bump_deep, State.updChan_deep, State.stepLimit_deep, State.setB_deep, apply_ite State.deep, ite_self]

theorem State.condStep_deep (s : State) (inp noise : List Int) (m : Nat) (lab frozen : Bool) (c : Nat) : (State.condStep s
    inp noise m lab frozen c).deep = s.deep := by
  unfold State.condStep
  simp only [State.stepRaw_deep, State.stepClean_deep, State.stepAligned_deep, apply_ite State.deep, ite_self]

theorem State.runFirst_deep (s : State) (c : Nat) : (State.runFirst s c).deep = s.deep := by
  unfold State.runFirst
  simp only [State.updChan_deep, State.settle_deep]

theorem State.chainCount_deep (s : State) (m n c : Nat) : (State.chainCount s m n c).deep = s.deep := by
  unfold State.chainCount
  grind [State.bumpBy_deep, deep_upd, deep_time]

theorem State.beamCount_deep (s : State) (m n b : Nat) (frozen : Bool) : (State.beamCount s m n b frozen).deep = s.deep :=
    by
  unfold State.beamCount
  simp only [State.bumpBy_deep, State.bump_deep, apply_ite State.deep, ite_self]

theorem State.strEnterDelay_deep (s : State) (i : Nat) : (State.strEnterDelay s i).deep = s.deep := by
  unfold State.strEnterDelay
  simp only [State.updStr_deep, State.setF_deep, apply_ite State.deep, ite_self]

theorem State.unbuilt_deep (s : State) (cause : Nat) (p : Packet) : (State.unbuilt s cause p).deep = s.deep := by
  unfold State.unbuilt
  simp only [State.declare_deep, State.updStr_deep, foldl_deep, implies_true]

theorem State.notWritten_deep (s : State) (n : Nat) (p : Packet) : (State.notWritten s n p).deep = s.deep := by
  unfold State.notWritten
  simp only [State.bump_deep, State.bpQueue_deep, State.unbuilt_deep]

theorem State.oversized_deep (s : State) (n : Nat) (p : Packet) : (State.oversized s n p).deep = s.deep := by
  unfold State.oversized
  simp only [State.bump_deep, State.unbuilt_deep]

theorem State.commitPre_deep (s : State) (n : Nat) (x0 : List Packet) : (State.commitPre s n x0).2.deep = s.deep := by
  fun_induction State.commitPre <;> grind [State.bump_deep, State.bpQueue_deep, State.fqCommit_deep, deep_upd, deep_time]

theorem State.commitTry_deep (s : State) (pre : List Packet) (p : Packet) : (State.commitTry s pre p).2.deep = s.deep := by
  unfold State.commitTry
  grind [State.notWritten_deep, State.oversized_deep, State.updStr_deep, State.fqCommitAll_deep, State.fqCommit_deep,
      State.pace_deep, deep_upd, deep_time]

theorem State.commitWith_deep (s : State) (pre : List Packet) (p : Packet) : (State.commitWith s pre p).deep = s.deep := by
  unfold State.commitWith
  simp only [State.commitTry_deep]

theorem State.frameBuild_deep (s : State) (i : Nat) : (State.frameBuild s i).deep = s.deep := by
  unfold State.frameBuild
  simp only [State.updStr_deep, State.commitWith_deep, apply_ite State.deep, ite_self]

theorem State.fumBuild_deep (s : State) : (State.fumBuild s).deep = s.deep := by
  unfold State.fumBuild
  grind [State.updStr_deep, State.commitWith_deep, deep_upd, deep_time]

theorem State.endBuild_deep (s : State) (i : Nat) : (State.endBuild s i).deep = s.deep := by
  unfold State.endBuild
  grind [State.commitPre_deep, State.updStr_deep, State.pace_deep, deep_upd, deep_time]

theorem State.drainCheck_deep (s : State) : (State.drainCheck s).deep = s.deep := by
  unfold State.drainCheck
  simp only [State.setF_deep, State.worked_deep, apply_ite State.deep, ite_self]

theorem State.failbackReq_deep (s : State) (i : Nat) : (State.failbackReq s i).deep = s.deep := by
  unfold State.failbackReq
  simp only [State.setF_deep, apply_ite State.deep, ite_self]

theorem State.failbackNow_deep (s : State) (i : Nat) : (State.failbackNow s i).deep = s.deep := by
  unfold State.failbackNow
  simp only [State.setF_deep, apply_ite State.deep, ite_self]

theorem State.countSent_deep (s : State) (p : Packet) : (State.countSent s p).deep = s.deep := by
  unfold State.countSent
  simp only [State.bump_deep, State.updStr_deep, apply_ite State.deep, ite_self]

theorem State.freeze_deep (s : State) (p : Packet) : (State.freeze s p).1.deep = s.deep := by
  unfold State.freeze
  simp only [State.countSent_deep]

theorem freezeAll_deep (s : State) (x0 : List Packet) : (freezeAll s x0).1.deep = s.deep := by
  fun_induction freezeAll <;> grind [State.freeze_deep, deep_upd, deep_time]

theorem State.dropHeld_deep (s : State) (i cause : Nat) : (State.dropHeld s i cause).deep = s.deep := by
  unfold State.dropHeld
  simp only [State.updStr_deep, State.declare_deep, foldl_deep, implies_true]

theorem State.commitSent_deep (s : State) (n : Nat) (x0 : List Packet) : (State.commitSent s n x0).deep = s.deep := by
  fun_induction State.commitSent <;> grind [State.fqCommit_deep, State.bump_deep, State.bpQueue_deep, State.updFq_deep,
      deep_upd, deep_time]

theorem State.drainTimeout_deep (s : State) (i : Nat) : (State.drainTimeout s i).deep = s.deep := by
  unfold State.drainTimeout
  simp only [State.takeOut_deep, State.loseAll_deep, State.dropHeld_deep, State.pipeLose_deep, State.commitSent_deep,
      State.copyRecs_deep, State.updStr_deep, State.setF_deep, State.drainCheck_deep, freezeAll_deep, apply_ite State.deep,
      ite_self]

theorem State.endStreams_deep (s : State) (reason : Nat) : (State.endStreams s reason).deep = s.deep := by
  unfold State.endStreams
  simp only [deep_upd]

theorem State.freezeSending_deep (s : State) (i p : Nat) : (State.freezeSending s i p).2.deep = s.deep := by
  unfold State.freezeSending
  grind [State.freeze_deep, deep_upd, deep_time, State.deep, State.now]

theorem freezeMine_deep (i : Nat) (s : State) (x0 : List Packet) : (freezeMine i s x0).2.2.deep = s.deep := by
  fun_induction freezeMine <;> grind [State.freeze_deep, deep_upd, deep_time]

theorem foldl_fst_deep {α β : Type} (g : State × β → α → State × β) (l : List α) (a : State × β)
    (h : ∀ a x, (g a x).1.deep = a.1.deep) : (l.foldl g a).1.deep = a.1.deep := by
  induction l generalizing a with
  | nil => rfl
  | cons b t ih => rw [List.foldl_cons, ih, h]
theorem State.freezeQueue_deep (s : State) (i : Nat) : (State.freezeQueue s i).deep = s.deep := by
  unfold State.freezeQueue
  simp only [State.freezeSending_deep, State.updFq_deep, State.copyRecs_deep, freezeMine_deep]

theorem State.finishEnd_deep (s : State) (i : Nat) : (State.finishEnd s i).deep = s.deep := by
  unfold State.finishEnd
  grind [State.fumBuild_deep, State.freezeQueue_deep, State.dropHeld_deep, State.commitSent_deep, State.updStr_deep,
      State.copyRecs_deep, freezeAll_deep, deep_upd, deep_time]

theorem State.streamsEnterDelay_deep (s : State) : (State.streamsEnterDelay s).deep = s.deep := by
  unfold State.streamsEnterDelay
  simp only [State.finishEnd_deep, State.strEnterDelay_deep, foldl_deep, implies_true]

theorem State.updEvq_deep (s : State) (n : Nat) (f : EvQueue → EvQueue) : (State.updEvq s n f).deep = s.deep := by
  unfold State.updEvq
  simp only [deep_upd]

theorem State.updWq_deep (s : State) (n : Nat) (f : WordQueue → WordQueue) : (State.updWq s n f).deep = s.deep := by
  unfold State.updWq
  simp only [deep_upd]

theorem State.flushedRec_deep (s : State) (queue kind flushes cause words items : Nat) : (State.flushedRec s queue kind
    flushes cause words items).deep = s.deep := by
  unfold State.flushedRec
  simp only [State.emit_deep]

theorem State.wqFill_deep (s : State) (i d : Nat) : (State.wqFill s i d).deep = s.deep := by
  unfold State.wqFill
  grind [State.updWq_deep, deep_upd, deep_time]

theorem State.wqLose_deep (s : State) (n items : Nat) (mid : Bool) (cause : Nat) : (State.wqLose s n items mid cause).deep
    = s.deep := by
  unfold State.wqLose
  (repeat' split) <;> simp only [State.geyDrop_deep, foldl_deep, implies_true]

theorem State.flushWq_deep (s : State) (n cause : Nat) : (State.flushWq s n cause).deep = s.deep := by
  unfold State.flushWq
  simp only [State.bpQueue_deep, State.bump_deep, State.bumpBy_deep, State.wqLose_deep, State.updWq_deep, State.setF_deep,
      State.flushedRec_deep, apply_ite State.deep, ite_self]

theorem State.flushEnds_deep (s : State) (b : Nat) : (State.flushEnds s b).deep = s.deep := by
  unfold State.flushEnds
  simp only [State.flushWq_deep, foldl_deep, apply_ite State.deep, ite_self, implies_true]

theorem State.wqFault_deep (s : State) (n pos : Nat) (e : QEntry) (lasting : Bool) : (State.wqFault s n pos e lasting).deep
    = s.deep := by
  unfold State.wqFault
  simp only [State.bump_deep, State.setF_deep, State.bpQueue_deep, State.emit_deep, State.flushWq_deep,
      State.mntFault_deep, apply_ite State.deep, ite_self]

theorem State.popWq_deep (s : State) (n : Nat) : (State.popWq s n).2.2.deep = s.deep := by
  unfold State.popWq
  grind [State.updWq_deep, State.bump_deep, State.wqFault_deep, deep_upd, deep_time]

theorem State.flushEq_deep (s : State) (n cause : Nat) : (State.flushEq s n cause).deep = s.deep := by
  unfold State.flushEq
  simp only [State.bpQueue_deep, State.updEvq_deep, State.flushedRec_deep]

theorem State.fqEmpty_deep (s : State) (n : Nat) : (State.fqEmpty s n).deep = s.deep := by
  unfold State.fqEmpty
  simp only [State.updFq_deep, State.fqFresh_deep]

theorem State.fqDiscard_deep (s : State) (n lost : Nat) : (State.fqDiscard s n lost).deep = s.deep := by
  unfold State.fqDiscard
  simp only [State.updFq_deep, State.loseAll_deep, deep_upd, apply_ite State.deep, ite_self]

theorem State.flushFq_deep (s : State) (n cause lost : Nat) (record : Bool) : (State.flushFq s n cause lost record).deep =
    s.deep := by
  unfold State.flushFq
  simp only [State.bpQueue_deep, State.fqDiscard_deep, State.fqEmpty_deep, State.flushedRec_deep, apply_ite State.deep,
      ite_self]

theorem State.flushRefused_deep (s : State) : (State.flushRefused s).deep = s.deep := by
  unfold State.flushRefused
  simp only [State.setF_deep]

theorem State.fqFlush_deep (s : State) (id : Ident) (n : Nat) : (State.fqFlush s id n).deep = s.deep := by
  unfold State.fqFlush
  simp only [State.flushFq_deep, State.flushRefused_deep, apply_ite State.deep, ite_self]

theorem State.wqFlush_deep (s : State) (id : Ident) (n : Nat) : (State.wqFlush s id n).deep = s.deep := by
  unfold State.wqFlush
  simp only [State.flushWq_deep, State.flushRefused_deep, apply_ite State.deep, ite_self]

theorem State.eqFlush_deep (s : State) (id : Ident) (n : Nat) : (State.eqFlush s id n).deep = s.deep := by
  unfold State.eqFlush
  simp only [State.flushEq_deep, State.flushRefused_deep, apply_ite State.deep, ite_self]

theorem State.discardEnd_deep (s : State) (n : Nat) : (State.discardEnd s n).deep = s.deep := by
  unfold State.discardEnd
  simp only [State.setF_deep, State.updWq_deep, State.flushedRec_deep, apply_ite State.deep, ite_self]

theorem State.eqFault_deep (s : State) (n pos : Nat) (e : QEntry) (lasting : Bool) : (State.eqFault s n pos e lasting).deep
    = s.deep := by
  unfold State.eqFault
  simp only [State.bump_deep, State.setF_deep, State.bpQueue_deep, State.emit_deep, State.flushEq_deep,
      State.mntFault_deep, apply_ite State.deep, ite_self]

theorem State.popEq_deep (s : State) (n : Nat) : (State.popEq s n).2.deep = s.deep := by
  unfold State.popEq
  grind [State.updEvq_deep, State.bump_deep, State.eqFault_deep, deep_upd, deep_time]

theorem State.eqReadData_deep (s : State) (id : Ident) (n : Nat) : (State.eqReadData s id n).2.deep = s.deep := by
  unfold State.eqReadData
  grind [State.popEq_deep, State.latch_deep, deep_upd, deep_time]

theorem State.recToEq_deep (s : State) (r : RecIn) (seq frc n : Nat) : (State.recToEq s r seq frc n).deep = s.deep := by
  unfold State.recToEq
  simp only [State.updEvq_deep, State.bump_deep, apply_ite State.deep, ite_self]

theorem State.recToFum_deep (s : State) (r : RecIn) (seq frc : Nat) (lost : Bool) : (State.recToFum s r seq frc lost).deep
    = s.deep := by
  unfold State.recToFum
  grind [State.updStr_deep, deep_upd, deep_time]

theorem State.eventRecord_deep (s : State) : (State.eventRecord s).deep = s.deep := by
  unfold State.eventRecord
  (repeat' split) <;> simp only [State.setF_deep, State.recToEq_deep, State.recToFum_deep, foldl_deep, deep_upd,
      implies_true]

theorem State.updPort_deep (s : State) (p : Nat) (f : NetPort → NetPort) : (State.updPort s p f).deep = s.deep := by
  unfold State.updPort
  simp only [deep_upd]

theorem State.readLineWords_deep (s : State) (n a : Nat) (x0 : Nat) : (State.readLineWords s n a x0).2.deep = s.deep := by
  fun_induction State.readLineWords <;> grind [State.memReadWord_deep, State.bump_deep, deep_upd, deep_time]

theorem State.readFqLine_deep (s : State) (n i : Nat) : (State.readFqLine s n i).2.deep = s.deep := by
  unfold State.readFqLine
  simp only [State.readLineWords_deep, State.setF_deep, State.bpQueue_deep, apply_ite State.deep, ite_self]

theorem State.readFqLines_deep (s : State) (n i : Nat) (x0 : Nat) : (State.readFqLines s n i x0).2.deep = s.deep := by
  fun_induction State.readFqLines <;> grind [State.readFqLine_deep, deep_upd, deep_time]

theorem State.sendPacket_deep (s : State) (port k : Nat) (p : Packet) (b : List Byte × List Byte) : (State.sendPacket s
    port k p b).deep = s.deep := by
  unfold State.sendPacket
  simp only [State.updPort_deep, State.obsv_deep]

theorem State.takeFrame_deep (s : State) (port k : Nat) : (State.takeFrame s port k).deep = s.deep := by
  unfold State.takeFrame
  grind [State.fqTrim_deep, State.readFqLine_deep, State.flushFq_deep, State.readFqLines_deep, State.updFq_deep,
      State.fqRelease_deep, State.loseSent_deep, State.sendPacket_deep, deep_upd, deep_time]

theorem State.frameTransmit_deep (s : State) (port : Nat) : (State.frameTransmit s port).deep = s.deep := by
  unfold State.frameTransmit
  grind [State.updPort_deep, State.obsv_deep, State.takeFrame_deep, deep_upd, deep_time]

theorem State.countDelivered_deep (s : State) (p : Packet) : (State.countDelivered s p).deep = s.deep := by
  unfold State.countDelivered
  simp only [State.countSent_deep, State.copyRec_deep, State.setF_deep, State.drainCheck_deep, apply_ite State.deep,
      ite_self]

theorem State.frameDelivered_deep (s : State) (port : Nat) : (State.frameDelivered s port).deep = s.deep := by
  unfold State.frameDelivered
  grind [State.updPort_deep, State.bump_deep, State.fqRelease_deep, State.fqTrim_deep, State.countDelivered_deep, deep_upd,
      deep_time]

theorem State.eqRead_deep (s : State) (id : Ident) (n : Nat) : (State.eqRead s id n).deep = s.deep := by
  unfold State.eqRead
  simp only [State.reading_deep, State.gatedRead_deep, State.eqReadData_deep, State.obsv_deep, implies_true]

end Sys2Proof.Machine
end

