-- ==== Sys2Proof/Laws/DeepHost.lean ====
section
/-!
SUPPORT. Laws/DeepHost.lean: one lemma per operation: it moves none of what `State.deep` shows (saves, sinter and host
    operations, the update agent, mailboxes and ports).
-/

namespace Sys2Proof.Machine

theorem State.regsReset_deep (s : State) (p : Nat → Bool) : (State.regsReset s p).deep = s.deep := by
  unfold State.regsReset
  simp only [deep_upd]

theorem State.putFields_deep (s : State) (m : Nat → Word) (l : List (Nat × Word)) : (State.putFields s m l).deep = s.deep
    := by
  unfold State.putFields
  simp only [State.wr_deep, foldl_deep, deep_upd, implies_true]

theorem State.plan_deep (s : State) (gl : List Nat) : (State.plan s gl).deep = s.deep := rfl

theorem State.flashRead_deep (s : State) (twice once_ : Bool) (loc : Nat) : (State.flashRead s twice once_ loc).deep =
    s.deep := by
  unfold State.flashRead
  simp only [State.mntFault_deep, apply_ite State.deep, ite_self]

theorem State.flashCheck_deep (s : State) (loc : Nat) : (State.flashCheck s loc).2.deep = s.deep := by
  unfold State.flashCheck
  simp only [State.flashRead_deep, deep_upd]

theorem State.flashWrite_deep (s : State) (loc : Nat) (f : State → State) (hf : ∀ s, (f s).deep = s.deep) :
    (State.flashWrite s loc f).2.deep = s.deep := by
  rw [State.flashWrite]
  split
  · rw [State.mntFault_deep, deep_flash]
  · rw [hf]
    split
    · rw [State.mntFault_deep, deep_flash]
    · rfl

theorem State.jFaults_deep (s : State) (second : Bool) (l : List (List Byte)) : (State.jFaults s second l).deep = s.deep :=
    by
  unfold State.jFaults
  simp only [State.flashRead_deep, foldl_deep, implies_true]

theorem State.setSlot_deep (s : State) (i : Nat) (x : Slot) : (State.setSlot s i x).deep = s.deep := by
  unfold State.setSlot
  simp only [deep_upd]

theorem State.showJournal_deep (s : State) : (State.showJournal s).deep = s.deep := by
  unfold State.showJournal
  simp only [State.setF_deep]

theorem State.writeJournal_deep (s : State) (st active other pre : Nat) : (State.writeJournal s st active other pre).2.deep
    = s.deep := by
  unfold State.writeJournal
  simp only [State.flashWrite_deep, State.showJournal_deep, deep_upd, implies_true]

theorem State.journalRead_deep (s : State) (gl : List Nat) : (State.journalRead s gl).deep = s.deep := by
  unfold State.journalRead
  simp only [State.jFaults_deep, State.flashRead_deep, State.showJournal_deep, deep_upd, apply_ite State.deep, ite_self]

theorem State.putSetHalf_deep (s : State) (h : Nat) (x : SetHalf) : (State.putSetHalf s h x).deep = s.deep := by
  unfold State.putSetHalf
  simp only [deep_upd]

theorem State.saveSnap_deep (s : State) : (State.saveSnap s).deep = s.deep := by
  unfold State.saveSnap
  simp only [State.putSetHalf_deep, deep_upd]

theorem State.saveEnd_deep (s : State) (fails : Nat) : (State.saveEnd s fails).deep = s.deep := by
  unfold State.saveEnd
  grind [State.mntFault_deep, State.setF_deep, State.emit_deep, State.putSetHalf_deep, State.bump_deep, deep_upd,
      deep_time, State.deep, State.now]

theorem State.eraseProv_deep (s : State) : (State.eraseProv s).deep = s.deep := by
  unfold State.eraseProv
  simp only [State.flashWrite_deep, State.putSetHalf_deep, apply_ite State.deep, ite_self, implies_true]

theorem State.takeHalf_deep (s : State) (h : Nat) : (State.takeHalf s h).deep = s.deep := by
  unfold State.takeHalf
  simp only [State.putFields_deep, State.setF_deep, deep_upd, apply_ite State.deep, ite_self]

theorem State.takeDefaults_deep (s : State) : (State.takeDefaults s).deep = s.deep := by
  unfold State.takeDefaults
  simp only [State.putFields_deep, State.setF_deep]

theorem State.setHeadRead_deep (s : State) (gl : List Nat) (h : Nat) : (State.setHeadRead s gl h).deep = s.deep := by
  unfold State.setHeadRead
  simp only [State.flashRead_deep]

theorem State.setTry_deep (s : State) (gl : List Nat) (h : Nat) : (State.setTry s gl h).2.deep = s.deep := by
  unfold State.setTry
  grind [State.flashRead_deep, State.takeHalf_deep, deep_upd, deep_time]

theorem State.restoreSets_deep (s : State) (gl : List Nat) : (State.restoreSets s gl).deep = s.deep := by
  unfold State.restoreSets
  simp only [State.setHeadRead_deep, State.setTry_deep, State.takeDefaults_deep, apply_ite State.deep, ite_self]

theorem State.calHeads_deep (s : State) (gl : List Nat) : (State.calHeads s gl).deep = s.deep := by
  unfold State.calHeads
  simp only [State.setCalHalf_deep, State.flashRead_deep, foldl_deep, apply_ite State.deep, ite_self, implies_true]

theorem State.showCheck_deep (s : State) (code detail slot : Nat) : (State.showCheck s code detail slot).deep = s.deep := by
  unfold State.showCheck
  simp only [State.setF_deep, apply_ite State.deep, ite_self]

theorem State.setPaused_deep (s : State) (a u : Nat) (b : Bool) : (State.setPaused s a u b).deep = s.deep := by
  unfold State.setPaused
  simp only [deep_upd]

theorem State.pauseAllBg_deep (s : State) : (State.pauseAllBg s).deep = s.deep := by
  unfold State.pauseAllBg
  simp only [State.pauseBg_deep, State.setPaused_deep, foldl_deep, apply_ite State.deep, ite_self, implies_true]

theorem State.pauseScrub_deep (s : State) : (State.pauseScrub s).deep = s.deep := by
  unfold State.pauseScrub
  simp only [State.setF_deep, State.setPaused_deep, apply_ite State.deep, ite_self]

theorem State.startAct_deep (s : State) (x : Activity) : (State.startAct s x).deep = s.deep := by
  unfold State.startAct
  grind [State.pauseBg_deep, State.setPaused_deep, State.pauseAllBg_deep, State.setF_deep, State.pauseScrub_deep,
      State.eraseProv_deep, State.saveSnap_deep, State.calSnap_deep, deep_upd, deep_time, State.deep, State.now]

theorem State.enter_deep (s : State) (x : Activity) : (State.enter s x).deep = s.deep := by
  unfold State.enter
  simp only [State.bump_deep, State.startAct_deep, deep_upd, apply_ite State.deep, ite_self]

theorem State.noteDepth_deep (s : State) : (State.noteDepth s).deep = s.deep := by
  unfold State.noteDepth
  simp only [State.setF_deep, apply_ite State.deep, ite_self]

theorem State.submit_deep (s : State) (a unit tag : Nat) : (State.submit s a unit tag).deep = s.deep := by
  unfold State.submit
  simp only [State.setF_deep, State.bump_deep, State.noteDepth_deep, State.enter_deep, deep_upd, apply_ite State.deep,
      ite_self]

theorem State.submitErase_deep (s : State) : (State.submitErase s).deep = s.deep := by
  unfold State.submitErase
  simp only [State.noteDepth_deep, State.enter_deep, deep_upd, apply_ite State.deep, ite_self]

theorem State.admitFrom_deep (s : State) (x0 : List Activity) (x1 : List Activity) : (State.admitFrom s x0 x1).1.deep =
    s.deep := by
  fun_induction State.admitFrom <;> grind [State.enter_deep, deep_upd, deep_time]

theorem State.activityAdmit_deep (s : State) : (State.activityAdmit s).deep = s.deep := by
  unfold State.activityAdmit
  simp only [State.admitFrom_deep, deep_upd]

theorem State.endAct_deep (s : State) (a u : Nat) : (State.endAct s a u).deep = s.deep := by
  unfold State.endAct
  simp only [State.worked_deep, deep_upd, apply_ite State.deep, ite_self]

theorem State.withdraw_deep (s : State) (a u : Nat) : (State.withdraw s a u).deep = s.deep := by
  unfold State.withdraw
  simp only [State.bump_deep, deep_upd, apply_ite State.deep, ite_self]

theorem State.dropActs_deep (s : State) : (State.dropActs s).deep = s.deep := by
  unfold State.dropActs
  simp only [State.bump_deep, foldl_deep, deep_upd, implies_true]

theorem State.updTo_deep (s : State) (n : Nat) : (State.updTo s n).deep = s.deep := by
  unfold State.updTo
  simp only [State.setF_deep]

theorem State.showStaged_deep (s : State) : (State.showStaged s).deep = s.deep := by
  unfold State.showStaged
  simp only [State.setF_deep, foldl_deep, implies_true]

theorem State.updJournal_deep (s : State) (st active other pre : Nat) : (State.updJournal s st active other pre).2.deep =
    s.deep := by
  unfold State.updJournal
  simp only [State.writeJournal_deep, State.showStaged_deep]

theorem State.updTouch_deep (s : State) : (State.updTouch s).deep = s.deep := by
  unfold State.updTouch
  simp only [deep_upd]

theorem State.updClear_deep (s : State) : (State.updClear s).deep = s.deep := by
  unfold State.updClear
  simp only [State.setF_deep, deep_upd]

theorem State.dropWrites_deep (s : State) : (State.dropWrites s).deep = s.deep := by
  unfold State.dropWrites
  simp only [State.withdraw_deep, State.endAct_deep, deep_upd]

theorem State.updRelease_deep (s : State) (ident : Nat) : (State.updRelease s ident).deep = s.deep := by
  unfold State.updRelease
  simp only [State.setF_deep, State.updTo_deep, State.updClear_deep, State.worked_deep, State.emit_deep]

theorem State.updEnd_deep (s : State) (ident : Nat) : (State.updEnd s ident).deep = s.deep := by
  unfold State.updEnd
  simp only [State.setF_deep, State.dropWrites_deep, State.updRelease_deep, apply_ite State.deep, ite_self]

theorem State.updFail_deep (s : State) (code : Nat) : (State.updFail s code).deep = s.deep := by
  unfold State.updFail
  simp only [State.setF_deep, State.dropWrites_deep, State.emit_deep, State.updRelease_deep]

theorem State.updOwnerReset_deep (s : State) (i : Nat) : (State.updOwnerReset s i).deep = s.deep := by
  unfold State.updOwnerReset
  simp only [State.updEnd_deep, apply_ite State.deep, ite_self]

theorem State.updOwned_deep (s : State) (id : Ident) (f : State → State) (hf : ∀ s, (f s).deep = s.deep) : (State.updOwned
    s id f).deep = s.deep := by
  unfold State.updOwned
  simp only [State.updTouch_deep, State.deny_deep, hf, apply_ite State.deep, ite_self]

theorem State.updOpen_deep (s : State) (id : Ident) : (State.updOpen s id).2.deep = s.deep := by
  unfold State.updOpen
  grind [State.updClear_deep, State.updTouch_deep, State.wakeDom_deep, State.setF_deep, State.updTo_deep, State.emit_deep,
      deep_upd, deep_time]

theorem State.updClose_deep (s : State) (id : Ident) (v : Word) : (State.updClose s id v).deep = s.deep := by
  unfold State.updClose
  simp only [State.deny_deep, State.bump_deep, State.updEnd_deep, apply_ite State.deep, ite_self]

theorem State.updFallback_deep (s : State) (cause : Nat) : (State.updFallback s cause).deep = s.deep := by
  unfold State.updFallback
  simp only [State.updTo_deep, State.setF_deep, State.submit_deep, deep_upd]

theorem State.updCtx_deep (s : State) (n : Nat) (f : SntCtx → SntCtx) : (State.updCtx s n f).deep = s.deep := by
  unfold State.updCtx
  simp only [deep_upd]

theorem State.setCtx_deep (s : State) (n st owner : Nat) : (State.setCtx s n st owner).deep = s.deep := by
  unfold State.setCtx
  simp only [State.setF_deep]

theorem State.ctxTake_deep (s : State) (n : Nat) (j : Option SntJob) : (State.ctxTake s n j).deep = s.deep := by
  unfold State.ctxTake
  simp only [deep_upd]

theorem State.freeCtx_deep (s : State) (n : Nat) : (State.freeCtx s n).deep = s.deep := by
  unfold State.freeCtx
  simp only [State.setCtx_deep, State.updCtx_deep]

theorem State.laneTake_deep (s : State) (l st ctx stream : Nat) : (State.laneTake s l st ctx stream).deep = s.deep := by
  unfold State.laneTake
  simp only [State.setF_deep, State.worked_deep]

theorem State.laneFree_deep (s : State) (l : Nat) : (State.laneFree s l).deep = s.deep := by
  unfold State.laneFree
  simp only [State.wr_deep, State.setF_deep, State.worked_deep, deep_upd]

theorem State.stepRecord_deep (s : State) (f idx ctx : Nat) (tag : Word) (e : StepEnd) : (State.stepRecord s f idx ctx tag
    e).deep = s.deep := by
  unfold State.stepRecord
  simp only [State.obsv_deep, State.bump_deep, State.emit_deep, apply_ite State.deep, ite_self]

theorem State.ctxWrite_deep (s : State) (n : Nat) : (State.ctxWrite s n).deep = s.deep := by
  unfold State.ctxWrite
  simp only [State.memWroteWord_deep, deep_upd, apply_ite State.deep, ite_self]

theorem State.readEach_deep (s : State) (x0 : List Nat) : (State.readEach s x0).2.deep = s.deep := by
  fun_induction State.readEach <;> grind [State.memReadWord_deep, deep_upd, deep_time]

theorem State.ctxRead_deep (s : State) (n : Nat) : (State.ctxRead s n).2.deep = s.deep := by
  unfold State.ctxRead
  simp only [State.readEach_deep]

theorem State.ctxStart_deep (s : State) (n : Nat) : (State.ctxStart s n).2.deep = s.deep := by
  unfold State.ctxStart
  simp only [State.ctxWrite_deep, State.ctxRead_deep]

theorem State.laneOff_deep (s : State) (n : Nat) : (State.laneOff s n).deep = s.deep := by
  unfold State.laneOff
  simp only [State.laneFree_deep, foldl_deep, apply_ite State.deep, ite_self, implies_true]

theorem State.dropJob_deep (s : State) (n : Nat) : (State.dropJob s n).deep = s.deep := by
  unfold State.dropJob
  simp only [State.laneOff_deep, State.freeCtx_deep]

theorem State.dropJobs_deep (s : State) (f : Nat) (p : Nat → Bool) : (State.dropJobs s f p).deep = s.deep := by
  unfold State.dropJobs
  simp only [State.dropJob_deep, foldl_deep, apply_ite State.deep, ite_self, implies_true]

theorem State.sntReset_deep (s : State) : (State.sntReset s).deep = s.deep := by
  unfold State.sntReset
  simp only [State.laneFree_deep, State.freeCtx_deep, foldl_deep, deep_upd, implies_true]

theorem State.freeBytes_deep (s : State) (x0 : Nat) : (State.freeBytes s x0).2.deep = s.deep := by
  fun_induction State.freeBytes <;> grind [State.free_deep, deep_upd, deep_time]

theorem State.updRing_deep (s : State) (f r : Nat) (g : Ring → Ring) : (State.updRing s f r g).deep = s.deep := by
  unfold State.updRing
  simp only [State.updFn_deep]

theorem State.ringSignal_deep (s : State) (f r : Nat) : (State.ringSignal s f r).deep = s.deep := by
  unfold State.ringSignal
  simp only [State.updRing_deep, State.signal_deep, apply_ite State.deep, ite_self]

theorem State.modExpiry_deep (s : State) (f r : Nat) : (State.modExpiry s f r).deep = s.deep := by
  unfold State.modExpiry
  simp only [State.updRing_deep, State.signal_deep, apply_ite State.deep, ite_self]

theorem State.writeWb_deep (s : State) (f r i : Nat) : (State.writeWb s f r i).deep = s.deep := by
  unfold State.writeWb
  simp only [State.obsv_deep, State.ringSignal_deep]

theorem State.ringDone_deep (s : State) (f r i : Nat) : (State.ringDone s f r i).deep = s.deep := by
  unfold State.ringDone
  simp only [State.setF_deep, State.writeWb_deep]

theorem State.sntDone_deep (s : State) (f i : Nat) : (State.sntDone s f i).deep = s.deep := by
  unfold State.sntDone
  simp only [State.updRing_deep, State.setF_deep, State.writeWb_deep, apply_ite State.deep, ite_self]

theorem State.ringStop_deep (s : State) (f r code : Nat) : (State.ringStop s f r code).deep = s.deep := by
  unfold State.ringStop
  simp only [State.setF_deep, State.emit_deep]

theorem State.takeEntries_deep (s : State) (r i : Nat) (x0 : Nat) (x1 : List RingIn) : (State.takeEntries s r i x0
    x1).2.deep = s.deep := by
  fun_induction State.takeEntries <;> grind [State.freeBytes_deep, deep_upd, deep_time]

theorem State.postEntries_deep (s : State) (f r : Nat) (l : List RingEntry) : (State.postEntries s f r l).deep = s.deep :=
    by
  unfold State.postEntries
  simp only [State.updPort_deep, State.updRing_deep, apply_ite State.deep, ite_self]

theorem State.piWrite_deep (s : State) (f r pi : Nat) (entries : List RingIn) : (State.piWrite s f r pi entries).deep =
    s.deep := by
  unfold State.piWrite
  simp only [State.setF_deep, State.ringStop_deep, State.takeEntries_deep, State.postEntries_deep, State.wakeDom_deep,
      apply_ite State.deep, ite_self]

theorem State.ringEnable_deep (s : State) (f r : Nat) (v : Word) (entries : List RingIn) : (State.ringEnable s f r v
    entries).deep = s.deep := by
  unfold State.ringEnable
  simp only [State.wr_deep, State.ringStop_deep, State.takeEntries_deep, State.postEntries_deep, apply_ite State.deep,
      ite_self]

theorem State.ringAbandon_deep (s : State) (f r : Nat) : (State.ringAbandon s f r).deep = s.deep := by
  unfold State.ringAbandon
  simp only [State.updRing_deep, State.updPort_deep, State.dropJobs_deep, apply_ite State.deep, ite_self]

theorem State.ringDisable_deep (s : State) (f r : Nat) (v : Word) : (State.ringDisable s f r v).deep = s.deep := by
  unfold State.ringDisable
  simp only [State.wr_deep, State.setF_deep, State.ringAbandon_deep]

theorem State.ringCtrl_deep (s : State) (f r : Nat) (v : Word) (entries : List RingIn) : (State.ringCtrl s f r v
    entries).deep = s.deep := by
  unfold State.ringCtrl
  simp only [State.ringEnable_deep, State.ringDisable_deep, apply_ite State.deep, ite_self]

theorem State.popRecord_deep (s : State) (n : Nat) (x0 : Nat) : (State.popRecord s n x0).2.2.deep = s.deep := by
  fun_induction State.popRecord <;> grind [State.popEq_deep, deep_upd, deep_time]

theorem State.eventRing_deep (s : State) (f : Nat) : (State.eventRing s f).deep = s.deep := by
  unfold State.eventRing
  simp only [State.popRecord_deep, State.freeBytes_deep, State.obsv_deep, State.setF_deep, State.writeWb_deep,
      apply_ite State.deep, ite_self]

theorem State.mbxRefuse_deep (s : State) (id : Ident) (n off : Nat) (write : Bool) : (State.mbxRefuse s id n off
    write).deep = s.deep := by
  unfold State.mbxRefuse
  simp only [State.bump_deep, State.setF_deep, State.emit_deep]

theorem State.mbxGated_deep (s : State) (id : Ident) (n off : Nat) (v : Word) (f : State → State) (hf : ∀ s, (f s).deep =
    s.deep) : (State.mbxGated s id n off v f).deep = s.deep := by
  unfold State.mbxGated
  simp only [State.goBehind_deep, State.bpReg_deep, State.mbxRefuse_deep, hf, apply_ite State.deep, ite_self]

theorem State.wakePin_deep (s : State) (was : Bool) : (State.wakePin s was).deep = s.deep := by
  unfold State.wakePin
  simp only [State.pinOut_deep, apply_ite State.deep, ite_self]

theorem State.notifyHost_deep (s : State) (n i : Nat) : (State.notifyHost s n i).deep = s.deep := by
  unfold State.notifyHost
  simp only [State.signal_deep, deep_upd, apply_ite State.deep, ite_self]

theorem State.signalAgent_deep (s : State) (n i : Nat) : (State.signalAgent s n i).deep = s.deep := by
  unfold State.signalAgent
  simp only [State.wakeDom_deep, State.obsv_deep, deep_upd, apply_ite State.deep, ite_self]

theorem State.notify_deep (s : State) (n i by_ snd : Nat) : (State.notify s n i by_ snd).deep = s.deep := by
  unfold State.notify
  grind [State.emit_deep, State.notifyHost_deep, State.wakeDom_deep, State.signalAgent_deep, deep_upd, deep_time]

theorem State.sigsGo_deep (s : State) (i : Nat) : (State.sigsGo s i).deep = s.deep := by
  unfold State.sigsGo
  simp only [State.obsv_deep, foldl_deep, deep_upd, implies_true]

theorem State.mbxStore_deep (s : State) (n w : Nat) (v : Word) : (State.mbxStore s n w v).deep = s.deep := by
  unfold State.mbxStore
  simp only [State.wr_deep, State.setF_deep, apply_ite State.deep, ite_self]

theorem State.mbxCompose_deep (s : State) (id : Ident) (n w : Nat) (v : Word) : (State.mbxCompose s id n w v).deep = s.deep
    := by
  unfold State.mbxCompose
  grind [State.setF_deep, State.mbxStore_deep, deep_upd, deep_time]

theorem State.mbxOrder_deep (s : State) (n : Nat) : (State.mbxOrder s n).deep = s.deep := by
  unfold State.mbxOrder
  simp only [State.setF_deep]

theorem State.mbxRing_deep (s : State) (id : Ident) (n : Nat) : (State.mbxRing s id n).deep = s.deep := by
  unfold State.mbxRing
  simp only [State.setF_deep, State.notify_deep, State.wakePin_deep, State.mbxOrder_deep, apply_ite State.deep, ite_self]

theorem State.mbxAbandon_deep (s : State) (id : Ident) (n : Nat) : (State.mbxAbandon s id n).deep = s.deep := by
  unfold State.mbxAbandon
  grind [State.setF_deep, State.late_deep, State.mbxOrder_deep, deep_upd, deep_time]

theorem State.mbxAck_deep (s : State) (id : Ident) (n result : Nat) : (State.mbxAck s id n result).deep = s.deep := by
  unfold State.mbxAck
  simp only [State.setF_deep, State.notify_deep, State.wakePin_deep, State.mbxOrder_deep, deep_upd, apply_ite State.deep,
      ite_self]

theorem State.mbxDoorbell_deep (s : State) (id : Ident) (n : Nat) (v : Word) : (State.mbxDoorbell s id n v).deep = s.deep
    := by
  unfold State.mbxDoorbell
  simp only [State.mbxRing_deep, State.mbxAbandon_deep, State.mbxAck_deep, apply_ite State.deep, ite_self]

theorem State.lockTake_deep (s : State) (id : Ident) (n : Nat) : (State.lockTake s id n).2.deep = s.deep := by
  unfold State.lockTake
  grind [State.setF_deep, deep_upd, deep_time]

theorem State.lockRead_deep (s : State) (id : Ident) (n : Nat) : (State.lockRead s id n).deep = s.deep := by
  unfold State.lockRead
  simp only [State.lockTake_deep, State.obsv_deep, State.bpReg_deep]

theorem State.lockWrite_deep (s : State) (id : Ident) (n : Nat) (v : Word) : (State.lockWrite s id n v).deep = s.deep := by
  unfold State.lockWrite
  simp only [State.setF_deep, State.bump_deep, apply_ite State.deep, ite_self]

theorem State.lockGated_deep (s : State) (id : Ident) (n : Nat) (v : Word) : (State.lockGated s id n v).deep = s.deep := by
  unfold State.lockGated
  simp only [State.goBehind_deep, State.lockWrite_deep, State.bpReg_deep, apply_ite State.deep, ite_self]

theorem State.locksReset_deep (s : State) (i : Nat) : (State.locksReset s i).deep = s.deep := by
  unfold State.locksReset
  simp only [State.setF_deep, State.emit_deep, foldl_deep, apply_ite State.deep, ite_self, implies_true]

theorem State.composeReset_deep (s : State) (i : Nat) : (State.composeReset s i).deep = s.deep := by
  unfold State.composeReset
  simp only [State.setF_deep, foldl_deep, apply_ite State.deep, ite_self, implies_true]

theorem State.identReset_deep (s : State) (id : Ident) : (State.identReset s id).deep = s.deep := by
  unfold State.identReset
  simp only [State.locksReset_deep, State.composeReset_deep, State.clearLatches_deep, State.updOwnerReset_deep, deep_upd]

theorem State.identLeave_deep (s : State) (id : Ident) : (State.identLeave s id).deep = s.deep := by
  unfold State.identLeave
  simp only [State.notify_deep, State.setF_deep, State.sigsGo_deep, State.wakePin_deep, foldl_deep, deep_upd,
      apply_ite State.deep, ite_self, implies_true]

theorem State.msixFlush_deep (s : State) (f : Nat) : (State.msixFlush s f).deep = s.deep := by
  unfold State.msixFlush
  simp only [State.updVec_deep, State.obsv_deep, foldl_deep, apply_ite State.deep, ite_self, implies_true]

theorem State.pcieUp_deep (s : State) : (State.pcieUp s).deep = s.deep := by
  unfold State.pcieUp
  simp only [State.wakePin_deep, State.setDom_deep, State.free_deep, State.setF_deep, State.msixFlush_deep,
      State.identLeave_deep, deep_upd, apply_ite State.deep, ite_self]

theorem State.unmask_deep (s : State) (f v : Nat) : (State.unmask s f v).deep = s.deep := by
  unfold State.unmask
  simp only [State.updVec_deep, State.obsv_deep, apply_ite State.deep, ite_self]

theorem State.msixWrite_deep (s : State) (f v k : Nat) (w : Word) : (State.msixWrite s f v k w).deep = s.deep := by
  unfold State.msixWrite
  grind [State.updVec_deep, State.unmask_deep, deep_upd, deep_time]

theorem State.allEarly_deep (s : State) (id : Ident) : (State.allEarly s id).deep = s.deep := by
  unfold State.allEarly
  simp only [deep_upd]

theorem State.fenceOver_deep (s : State) (id : Ident) : (State.fenceOver s id).deep = s.deep := by
  unfold State.fenceOver
  grind [deep_upd, deep_time, State.deep, State.now]

theorem State.fence_deep (s : State) (id : Ident) (token : Nat) : (State.fence s id token).deep = s.deep := by
  unfold State.fence
  simp only [State.fenceOver_deep, State.allEarly_deep, deep_upd, apply_ite State.deep, ite_self]

theorem State.ringReset_deep (s : State) (f r : Nat) : (State.ringReset s f r).deep = s.deep := by
  unfold State.ringReset
  simp only [State.ringDisable_deep, State.setF_deep, State.updRing_deep]

theorem State.flr_deep (s : State) (f : Nat) : (State.flr s f).deep = s.deep := by
  unfold State.flr
  simp only [State.ringReset_deep, State.updFn_deep, State.dropJobs_deep, State.allEarly_deep, State.identReset_deep,
      foldl_deep, deep_upd, implies_true]

theorem State.wbWords_deep (s : State) (status : Nat) (stampT : Option Nat) (w4 : Word) : (State.wbWords s status stampT
    w4).2.deep = s.deep := by
  unfold State.wbWords
  grind [State.free_deep, deep_upd, deep_time]

theorem State.updPtp_deep (s : State) (p : Nat) (f : PtpState → PtpState) : (State.updPtp s p f).deep = s.deep := by
  unfold State.updPtp
  simp only [State.updPort_deep]

theorem State.ptpDone_deep (s : State) (p : Nat) (m : Int) (e1 e2 : Nat) : (State.ptpDone s p m e1 e2).deep = s.deep := by
  unfold State.ptpDone
  simp only [State.updPtp_deep]

theorem State.ptpOver_deep (s : State) (p : Nat) (r : PtpReq) : (State.ptpOver s p r).deep = s.deep := by
  unfold State.ptpOver
  simp only [State.updPtp_deep]

theorem State.ptpResp_deep (s : State) (p : Nat) (r : PtpReq) (x : Int × Nat × Int × Int) : (State.ptpResp s p r x).deep =
    s.deep := by
  unfold State.ptpResp
  simp only [State.updPtp_deep]

theorem State.ptpRx_deep (s : State) (p : Nat) (b : List Byte) (t : Int) : (State.ptpRx s p b t).deep = s.deep := by
  unfold State.ptpRx
  grind [State.updPtp_deep, State.ptpDone_deep, State.ptpResp_deep, State.ptpOver_deep, deep_upd, deep_time]

theorem State.ptpTx_deep (s : State) (p : Nat) (b : List Byte) (t : Int) : (State.ptpTx s p b t).deep = s.deep := by
  unfold State.ptpTx
  grind [State.updPtp_deep, deep_upd, deep_time]

theorem State.saveRestart_deep (s was : State) : (State.saveRestart s was).deep = s.deep := by
  unfold State.saveRestart
  simp only [deep_upd, apply_ite State.deep, ite_self]

theorem State.settingsIn_deep (s was : State) : (State.settingsIn s was).deep = s.deep := by
  unfold State.settingsIn
  simp only [State.pinsMove_deep, State.clkMove_deep, State.updPtp_deep, State.saveRestart_deep, foldl_deep,
      apply_ite State.deep, ite_self, implies_true]

end Sys2Proof.Machine
end

