-- ==== Sys2Proof/Laws/DeepWork.lean ====
section
/-!
SUPPORT. Laws/DeepWork.lean: one lemma per operation: it moves none of what `State.deep` shows (calibration cycles, runs,
    jobs, packets, network and load passes).
-/

namespace Sys2Proof.Machine

theorem State.calrun_deep (s : State) : (State.calrun s).deep = s.deep := by
  unfold State.calrun
  simp only [State.setF_deep, State.submit_deep, deep_upd, apply_ite State.deep, ite_self]

theorem State.calrunCommit_deep (s : State) (outcomes : List Nat) : (State.calrunCommit s outcomes).deep = s.deep := by
  unfold State.calrunCommit
  simp only [State.calCommit_deep, apply_ite State.deep, ite_self]

theorem State.calDone_deep (s : State) : (State.calDone s).deep = s.deep := by
  unfold State.calDone
  simp only [State.setF_deep, State.emit_deep, State.endAct_deep, deep_upd, apply_ite State.deep, ite_self]

theorem State.calAbort_deep (s : State) : (State.calAbort s).deep = s.deep := by
  unfold State.calAbort
  simp only [State.setF_deep, State.withdraw_deep, State.late_deep, deep_upd, apply_ite State.deep, ite_self]

theorem State.calsaveSubmit_deep (s : State) : (State.calsaveSubmit s).deep = s.deep := by
  unfold State.calsaveSubmit
  simp only [State.submit_deep]

theorem State.calsaveCommit_deep (s : State) (failures : Nat) : (State.calsaveCommit s failures).deep = s.deep := by
  unfold State.calsaveCommit
  simp only [State.calSaveEnd_deep, State.endAct_deep, apply_ite State.deep, ite_self]

theorem State.bgPhase_deep (s : State) (g ph len : Nat) : (State.bgPhase s g ph len).deep = s.deep := by
  unfold State.bgPhase
  simp only [State.setF_deep, State.updGrp_deep]

theorem State.bgCycle_deep (s : State) (g pos : Nat) : (State.bgCycle s g pos).deep = s.deep := by
  unfold State.bgCycle
  simp only [State.setF_deep, State.bgPhase_deep, State.submit_deep]

theorem State.bgNext_deep (s : State) (g : Nat) : (State.bgNext s g).deep = s.deep := by
  unfold State.bgNext
  simp only [State.endAct_deep, State.bgPhase_deep, State.bgCycle_deep, State.submit_deep, apply_ite State.deep, ite_self]

theorem State.sweepStart_deep (s : State) (g : Nat) : (State.sweepStart s g).deep = s.deep := by
  unfold State.sweepStart
  simp only [State.wakeDom_deep, State.updGrp_deep, State.bgCycle_deep, State.setF_deep, apply_ite State.deep, ite_self]

theorem State.bgRepeat_deep (s : State) (g first : Nat) : (State.bgRepeat s g first).deep = s.deep := by
  unfold State.bgRepeat
  simp only [State.updGrp_deep]

theorem State.bgSpareFails_deep (s : State) (g : Nat) : (State.bgSpareFails s g).deep = s.deep := by
  unfold State.bgSpareFails
  simp only [State.calOutcome_deep, State.spareFault_deep, State.setF_deep, State.showCal_deep, State.endAct_deep]

theorem State.bgSwitch_deep (s : State) (g typ : Nat) : (State.bgSwitch s g typ).deep = s.deep := by
  unfold State.bgSwitch
  simp only [State.wr64_deep, State.emit_deep]

theorem State.handover_deep (s : State) (g : Nat) (ok : Bool) : (State.handover s g ok).deep = s.deep := by
  unfold State.handover
  simp only [State.bgSpareFails_deep, State.bgRepeat_deep, State.calOutcome_deep, State.learnMatch_deep, State.serve_deep,
      State.bgSwitch_deep, State.bgPhase_deep, apply_ite State.deep, ite_self]

theorem State.bgTests_deep (s : State) (c first last : Nat) : (State.bgTests s c first last).deep = s.deep := by
  unfold State.bgTests
  simp only [State.setF_deep, State.calOutcome_deep, foldl_deep, apply_ite State.deep, ite_self, implies_true]

theorem State.bgCommit_deep (s : State) (g first : Nat) : (State.bgCommit s g first).deep = s.deep := by
  unfold State.bgCommit
  simp only [State.bgTests_deep, State.setF_deep, State.learn_deep, State.showCal_deep, State.unserve_deep,
      State.bgNext_deep, State.updGrp_deep, State.bgPhase_deep, apply_ite State.deep, ite_self]

theorem State.bgAdopt_deep (s : State) (g first last : Nat) : (State.bgAdopt s g first last).deep = s.deep := by
  unfold State.bgAdopt
  simp only [State.bgTests_deep, State.setF_deep, State.calOutcome_deep, State.adopt_deep, State.updGrp_deep,
      State.endAct_deep, State.showCal_deep, apply_ite State.deep, ite_self]

theorem State.calibrateEnd_deep (s : State) (g : Nat) (o w t : Bool) : (State.calibrateEnd s g o w t).deep = s.deep := by
  unfold State.calibrateEnd
  simp only [State.bgCommit_deep, State.bgAdopt_deep, State.bgRepeat_deep, apply_ite State.deep, ite_self]

theorem State.handback_deep (s : State) (g : Nat) : (State.handback s g).deep = s.deep := by
  unfold State.handback
  simp only [State.freeCorr_deep, State.unserve_deep, State.bgSwitch_deep, State.bgPhase_deep, State.updGrp_deep,
      apply_ite State.deep, ite_self]

theorem State.glideEnd_deep (s : State) (g : Nat) : (State.glideEnd s g).deep = s.deep := by
  unfold State.glideEnd
  simp only [State.updGrp_deep, State.bgNext_deep, apply_ite State.deep, ite_self]

theorem State.spareCalEnd_deep (s : State) (g : Nat) (ok : Bool) : (State.spareCalEnd s g ok).deep = s.deep := by
  unfold State.spareCalEnd
  simp only [State.calOutcome_deep, State.learn_deep, State.showCal_deep, State.bump_deep, State.bgPhase_deep,
      State.endAct_deep, State.bgSpareFails_deep, State.bgRepeat_deep, apply_ite State.deep, ite_self]

theorem State.bgResume_deep (s : State) (g : Nat) : (State.bgResume s g).deep = s.deep := by
  unfold State.bgResume
  simp only [State.setPaused_deep, State.bgPhase_deep, State.bgNext_deep, State.endAct_deep, apply_ite State.deep, ite_self]

theorem State.activityResume_deep (s : State) : (State.activityResume s).deep = s.deep := by
  unfold State.activityResume
  simp only [State.bgResume_deep, State.setPaused_deep, State.setF_deep, foldl_deep, apply_ite State.deep, ite_self,
      implies_true]

theorem State.relabelSpares_deep (s : State) : (State.relabelSpares s).deep = s.deep := by
  unfold State.relabelSpares
  simp only [deep_upd]

theorem State.enterDelay_deep (s : State) (ts : Nat) (late : Bool) : (State.enterDelay s ts late).deep = s.deep := by
  unfold State.enterDelay
  simp only [State.streamsEnterDelay_deep, State.trigEnterDelay_deep, State.relabelSpares_deep, State.setF_deep,
      State.wr64_deep, deep_time, apply_ite State.deep, ite_self]

theorem State.startEvent_deep (s : State) (src ts : Nat) (late : Bool) : (State.startEvent s src ts late).deep = s.deep :=
    by
  unfold State.startEvent
  grind [State.setF_deep, State.enterDelay_deep, State.bump_deep, State.emit_deep, deep_upd, deep_time]

theorem State.stopInDelay_deep (s : State) : (State.stopInDelay s).deep = s.deep := by
  unfold State.stopInDelay
  simp only [State.setF_deep, State.worked_deep, State.endStreams_deep, State.wr64_deep, State.applyRunEnds_deep]

theorem State.fixStop_deep (s : State) (n : Nat) : (State.fixStop s n).deep = s.deep := by
  unfold State.fixStop
  simp only [State.setF_deep, State.wr64_deep, deep_upd]

theorem State.stopWith_deep (s : State) (host : Bool) (n : Nat) (late : Bool) : (State.stopWith s host n late).deep =
    s.deep := by
  unfold State.stopWith
  grind [State.setF_deep, State.bump_deep, State.emit_deep, State.stopInDelay_deep, State.fixStop_deep, deep_upd, deep_time]

theorem State.stopEvent_deep (s : State) (host : Bool) (t : Int) : (State.stopEvent s host t).deep = s.deep := by
  unfold State.stopEvent
  simp only [State.stopWith_deep]

theorem State.runArm_deep (s : State) : (State.runArm s).deep = s.deep := by
  unfold State.runArm
  simp only [State.setF_deep, apply_ite State.deep, ite_self]

theorem State.runDisarm_deep (s : State) : (State.runDisarm s).deep = s.deep := by
  unfold State.runDisarm
  grind [State.setF_deep, State.worked_deep, State.late_deep, deep_upd, deep_time]

theorem State.hostStart_deep (s : State) : (State.hostStart s).deep = s.deep := by
  unfold State.hostStart
  simp only [State.startEvent_deep]

theorem State.hostStop_deep (s : State) : (State.hostStop s).deep = s.deep := by
  unfold State.hostStop
  simp only [State.stopEvent_deep]

theorem State.stopAtSnCmd_deep (s : State) : (State.stopAtSnCmd s).deep = s.deep := by
  unfold State.stopAtSnCmd
  simp only [State.stopWith_deep, apply_ite State.deep, ite_self]

theorem State.marksAt_deep (s : State) (t : Int) : (State.marksAt s t).deep = s.deep := by
  unfold State.marksAt
  simp only [deep_upd]

theorem State.snZero_deep (s : State) (tdc tickTdc : Nat) : (State.snZero s tdc tickTdc).deep = s.deep := by
  unfold State.snZero
  simp only [State.marksAt_deep, State.setF_deep, deep_upd, apply_ite State.deep, ite_self]

theorem State.endOther_deep (s : State) (reason : Nat) : (State.endOther s reason).deep = s.deep := by
  unfold State.endOther
  simp only [State.updStr_deep, foldl_deep, apply_ite State.deep, ite_self, implies_true]

theorem State.sStopReached_deep (s : State) : (State.sStopReached s).deep = s.deep := by
  unfold State.sStopReached
  grind [State.setF_deep, State.endOther_deep, State.drainCheck_deep, State.applyRunEnds_deep, deep_upd, deep_time,
      State.deep, State.now]

theorem State.syncLead_deep (s : State) (f : Nat) : (State.syncLead s f).deep = s.deep := by
  unfold State.syncLead
  simp only [State.bump_deep, deep_upd, apply_ite State.deep, ite_self]

theorem State.syncTrail_deep (s : State) : (State.syncTrail s).deep = s.deep := by
  unfold State.syncTrail
  grind [deep_upd, deep_time, State.deep, State.now]

theorem State.syncLong_deep (s : State) : (State.syncLong s).deep = s.deep := by
  unfold State.syncLong
  grind [State.bump_deep, deep_upd, deep_time, State.deep, State.now]

theorem State.placeMark_deep (s : State) (t tl epoch cls : Nat) : (State.placeMark s t tl epoch cls).deep = s.deep := by
  unfold State.placeMark
  simp only [deep_upd, apply_ite State.deep, ite_self]

theorem State.syncAct_deep (s : State) (n : Nat) (p : SyncPulse) : (State.syncAct s n p).deep = s.deep := by
  unfold State.syncAct
  grind [State.bump_deep, State.startEvent_deep, State.stopEvent_deep, State.placeMark_deep, State.emit_deep,
      State.eventTrigger_deep, deep_upd, deep_time]

theorem State.syncQualify_deep (s : State) : (State.syncQualify s).deep = s.deep := by
  unfold State.syncQualify
  grind [State.bump_deep, State.emit_deep, State.syncAct_deep, deep_upd, deep_time, State.deep, State.now]

theorem State.pllTake_deep (s : State) : (State.pllTake s).deep = s.deep := by
  unfold State.pllTake
  simp only [State.setF_deep, State.showCal_deep, deep_upd]

theorem State.pllGo_deep (s : State) (idle : Bool) : (State.pllGo s idle).deep = s.deep := by
  unfold State.pllGo
  simp only [State.pllTake_deep, State.setF_deep, apply_ite State.deep, ite_self]

theorem State.pllCommit_deep (s : State) (v : Word) : (State.pllCommit s v).deep = s.deep := by
  unfold State.pllCommit
  simp only [State.pllGo_deep, apply_ite State.deep, ite_self]

theorem State.clearHistory_deep (s : State) (p : Nat → Bool) : (State.clearHistory s p).deep = s.deep := by
  unfold State.clearHistory
  simp only [State.updChan_deep, foldl_deep, implies_true]

theorem State.pllLocked_deep (s : State) : (State.pllLocked s).deep = s.deep := by
  rw [State.pllLocked]
  split
  · dsimp only
    split
    · rw [State.setF_deep, State.wr64_deep, deep_conv, State.clearHistory_deep, State.setF_deep]
    · rw [State.clearHistory_deep, State.setF_deep]
  · rfl

theorem State.clkUnlock_deep (s : State) : (State.clkUnlock s).deep = s.deep := by
  unfold State.clkUnlock
  grind [State.setF_deep, State.emit_deep, State.stopInDelay_deep, State.fixStop_deep, deep_upd, deep_time]

theorem State.holdover_deep (s : State) : (State.holdover s).deep = s.deep := by
  unfold State.holdover
  simp only [State.setF_deep, State.emit_deep, apply_ite State.deep, ite_self]

theorem State.holdoverExit_deep (s : State) : (State.holdoverExit s).deep = s.deep := by
  unfold State.holdoverExit
  simp only [State.setF_deep, apply_ite State.deep, ite_self]

theorem State.quadOff_deep (s : State) (q : Nat) : (State.quadOff s q).deep = s.deep := by
  unfold State.quadOff
  simp only [State.setF_deep, State.pauseBg_deep, State.setPaused_deep, State.setDom_deep, foldl_deep,
      apply_ite State.deep, ite_self, implies_true]

theorem State.quadReq_deep (s : State) (q : Nat) : (State.quadReq s q).deep = s.deep := by
  unfold State.quadReq
  simp only [State.setF_deep, apply_ite State.deep, ite_self]

theorem State.quadRise_deep (s : State) (q : Nat) : (State.quadRise s q).deep = s.deep := by
  unfold State.quadRise
  simp only [State.regsReset_deep, State.showBanks_deep, State.flushEnds_deep, State.setDom_deep, State.loadQuad_deep,
      State.clearHistory_deep, State.setF_deep, foldl_deep, apply_ite State.deep, ite_self, implies_true]

theorem State.readUntil_deep (s : State) (x0 : Nat) (x1 : Nat) : (State.readUntil s x0 x1).2.deep = s.deep := by
  fun_induction State.readUntil <;> grind [State.memReadWord_deep, deep_upd, deep_time]

theorem State.readMem_deep (s : State) (off len : Nat) : (State.readMem s off len).2.2.deep = s.deep := by
  unfold State.readMem
  simp only [State.readUntil_deep]

theorem State.jobInput_deep (s : State) (e : RingEntry) : (State.jobInput s e).2.2.deep = s.deep := by
  rw [State.jobInput]
  dsimp only
  split
  · exact State.ctxStart_deep s _
  · split
    · split
      · exact State.ctxStart_deep s _
      · dsimp only; rw [State.freeBytes_deep, State.ctxStart_deep]
    · split
      · split
        · dsimp only; rw [State.readMem_deep, State.ctxStart_deep]
        · dsimp only; rw [State.memDeny_deep, State.readMem_deep, State.ctxStart_deep]
      · split <;> (dsimp only; rw [State.readMem_deep, State.ctxStart_deep])

theorem State.endNow_deep (s : State) (f : Nat) (e : RingEntry) (st : StepEnd) : (State.endNow s f e st).deep = s.deep := by
  unfold State.endNow
  simp only [State.stepRecord_deep, State.sntDone_deep]

theorem State.startJob_deep (s : State) (f : Nat) (e : RingEntry) (l : Nat) : (State.startJob s f e l).deep = s.deep := by
  unfold State.startJob
  simp only [State.endNow_deep, State.jobInput_deep, State.setCtx_deep, State.ctxTake_deep, State.laneTake_deep,
      apply_ite State.deep, ite_self]

theorem State.resumeJob_deep (s : State) (f : Nat) (e : RingEntry) (l : Nat) : (State.resumeJob s f e l).deep = s.deep := by
  unfold State.resumeJob
  simp only [State.ctxRead_deep, State.setCtx_deep, State.updCtx_deep, State.laneTake_deep]

theorem State.ctxDone_deep (s : State) (n : Nat) : (State.ctxDone s n).deep = s.deep := by
  unfold State.ctxDone
  simp only [State.freeCtx_deep, State.updCtx_deep]

theorem State.releaseJob_deep (s : State) (f : Nat) (e : RingEntry) : (State.releaseJob s f e).deep = s.deep := by
  unfold State.releaseJob
  simp only [State.ctxDone_deep, State.endNow_deep]

theorem State.runDesc_deep (s : State) (f : Nat) (e : RingEntry) : (State.runDesc s f e).deep = s.deep := by
  unfold State.runDesc
  grind [State.updRing_deep, State.endNow_deep, State.releaseJob_deep, State.resumeJob_deep, State.startJob_deep, deep_upd,
      deep_time]

theorem State.takeDesc_deep (s : State) (f : Nat) (want : Nat → Bool) : (State.takeDesc s f want).deep = s.deep := by
  unfold State.takeDesc
  grind [State.runDesc_deep, deep_upd, deep_time]

theorem State.partFails_deep (s : State) (part : Bool) (wa : Nat) : (State.partFails s part wa).2.deep = s.deep := by
  unfold State.partFails
  grind [State.memReadWord_deep, deep_upd, deep_time]

theorem State.partsFail_deep (s : State) (a n : Nat) : (State.partsFail s a n).2.deep = s.deep := by
  unfold State.partsFail
  grind [State.partFails_deep, deep_upd, deep_time]

theorem State.putOut_deep (s : State) (f dst : Nat) (b : List Byte) : (State.putOut s f dst b).2.2.deep = s.deep := by
  unfold State.putOut
  grind [State.obsv_deep, State.partsFail_deep, State.memPut_deep, State.memDeny_deep, deep_upd, deep_time]

theorem SntJob.blkThen_deep (j : SntJob) (x) (next) (h : ∀ t : State, (next t).2.deep = t.deep) :
    (j.blkThen x next).2.deep = x.2.2.deep := by
  obtain ⟨a, b, c⟩ := x
  cases b with
  | none => exact h c
  | some e => rfl
theorem State.putBlks_deep (s : State) (j : SntJob) (x0 : Nat) (x1 : List BlkDesc) : (State.putBlks s j x0 x1).2.deep =
    s.deep := by
  induction x1 generalizing s x0 with
  | nil => rw [State.putBlks]
  | cons d t ih =>
    rw [State.putBlks]
    split
    · rw [SntJob.blkThen_deep _ _ _ (fun s => ih s _), State.putOut_deep]
    · rfl

theorem State.stepEnd_deep (s : State) (n : Nat) (j : SntJob) (e : StepEnd) : (State.stepEnd s n j e).deep = s.deep := by
  unfold State.stepEnd
  simp only [State.stepRecord_deep, State.sntDone_deep, State.laneOff_deep, State.setCtx_deep, State.ctxDone_deep,
      apply_ite State.deep, ite_self]

theorem State.sntCount_deep (s : State) (inp out raw : Nat) : (State.sntCount s inp out raw).deep = s.deep := by
  unfold State.sntCount
  simp only [State.wr64_deep, State.bumpBy_deep]

theorem State.stepCount_deep (s : State) (j : SntJob) (o : StepOut) : (State.stepCount s j o).deep = s.deep := by
  unfold State.stepCount
  simp only [State.sntCount_deep, apply_ite State.deep, ite_self]

theorem State.stepGive_deep (s : State) (n : Nat) (j : SntJob) (o : StepOut) : (State.stepGive s n j o).deep = s.deep := by
  unfold State.stepGive
  grind [State.putOut_deep, State.stepCount_deep, State.stepEnd_deep, State.putBlks_deep, State.updCtx_deep, deep_upd,
      deep_time]

theorem State.stepRun_deep (s : State) (n : Nat) (j : SntJob) : (State.stepRun s n j).deep = s.deep := by
  unfold State.stepRun
  grind [State.free_deep, State.stepGive_deep, deep_upd, deep_time]

theorem State.stepComplete_deep (s : State) (l : Nat) : (State.stepComplete s l).deep = s.deep := by
  unfold State.stepComplete
  grind [State.stepRun_deep, deep_upd, deep_time]

theorem State.stopJob_deep (s : State) (n : Nat) (j : SntJob) (status : Nat) : (State.stopJob s n j status).deep = s.deep
    := by
  unfold State.stopJob
  simp only [State.free_deep, State.putOut_deep, State.putBlks_deep, State.stepCount_deep, State.stepEnd_deep]

theorem State.sntAbort_deep (s : State) (v : Word) : (State.sntAbort s v).deep = s.deep := by
  unfold State.sntAbort
  grind [State.setF_deep, State.stopJob_deep, State.late_deep, deep_upd, deep_time]

theorem State.sntHostReform_deep (s : State) : (State.sntHostReform s).deep = s.deep := by
  unfold State.sntHostReform
  grind [State.stopJob_deep, State.stepRecord_deep, State.ctxDone_deep, foldl_deep, deep_upd, deep_time]

theorem State.capAll_deep (s : State) (k : Capture) (cause : Nat) : (State.capAll s k cause).deep = s.deep := by
  unfold State.capAll
  simp only [State.capLose_deep, foldl_deep, implies_true]

theorem State.poolWords_deep (s : State) (x : Nat) (x0 : Nat) (x1 : Nat) : (State.poolWords s x x0 x1).2.2.deep = s.deep :=
    by
  fun_induction State.poolWords <;> grind [State.memReadWord_deep, deep_upd, deep_time]

theorem State.capStream_deep (s : State) (k : Capture) (c n : Nat) (bytes : List Byte) (comp broken : Bool) :
    (State.capStream s k c n bytes comp broken).2.deep = s.deep := by
  unfold State.capStream
  simp only  <;> grind [State.free_deep, State.capLose_deep, State.sntCount_deep, foldl_deep, deep_upd, deep_time]

theorem State.capChannel_deep (s : State) (k : Capture) (comp broken : Bool) (ic : Nat × Nat) : (State.capChannel s k comp
    broken ic).2.deep = s.deep := by
  unfold State.capChannel
  simp only [State.poolWords_deep, State.capLose_deep, State.capStream_deep, foldl_deep, apply_ite State.deep, ite_self,
      implies_true]

theorem State.hubFresh_deep (s : State) (l n : Nat) : (State.hubFresh s l n).2.deep = s.deep := by
  unfold State.hubFresh
  grind [State.freeCtx_deep, State.setCtx_deep, State.ctxTake_deep, State.setF_deep, deep_upd, deep_time]

theorem State.capChannels_deep (s : State) (k : Capture) (comp : Bool) (l : Nat) (x0 : Nat) (x1 : List (Nat × Nat)) :
    (State.capChannels s k comp l x0 x1).2.deep = s.deep := by
  fun_induction State.capChannels <;> grind [State.ctxStart_deep, State.capChannel_deep, State.hubFresh_deep, deep_upd,
      deep_time]

theorem State.captureStart_deep (s : State) : (State.captureStart s).deep = s.deep := by
  unfold State.captureStart
  grind [State.setCtx_deep, State.ctxTake_deep, State.laneTake_deep, State.updCap_deep, State.capChannels_deep,
      State.updStr_deep, State.wqFill_deep, State.wakeDom_deep, deep_upd, deep_time, State.deep, State.now]

theorem State.hubDone_deep (s : State) (l : Nat) : (State.hubDone s l).deep = s.deep := by
  unfold State.hubDone
  grind [State.bump_deep, State.updCap_deep, State.laneFree_deep, State.freeCtx_deep, State.capFree_deep, deep_upd,
      deep_time]

theorem State.geyAnchored_deep (s : State) (i : Nat) : (State.geyAnchored s i).deep = s.deep := by
  unfold State.geyAnchored
  simp only [State.updStr_deep]

theorem State.geyPop_deep (s : State) (i n : Nat) (x0 : Nat) (x1 : Nat) : (State.geyPop s i n x0 x1).2.deep = s.deep := by
  fun_induction State.geyPop <;> grind [State.wqFill_deep, State.popWq_deep, deep_upd, deep_time]

theorem State.geyTake_deep (s : State) (i : Nat) (x : CapChan) (len : Nat) : (State.geyTake s i x len).2.deep = s.deep := by
  unfold State.geyTake
  grind [State.geyPop_deep, deep_upd, deep_time]

theorem State.geyPlain_deep (s : State) (i : Nat) (o : CapOut) (x : CapChan) : (State.geyPlain s i o x).deep = s.deep := by
  unfold State.geyPlain
  simp only [State.commitTry_deep, State.geyAnchored_deep, State.geyNext_deep, State.geyPass_deep, apply_ite State.deep,
      ite_self]

theorem State.geySkip_deep (s : State) (i : Nat) (x : CapChan) : (State.geySkip s i x).deep = s.deep := by
  unfold State.geySkip
  simp only [State.geyTake_deep, State.geyDrop_deep, apply_ite State.deep, ite_self]

theorem State.geyComp_deep (s : State) (i : Nat) (o : CapOut) (x : CapChan) : (State.geyComp s i o x).deep = s.deep := by
  unfold State.geyComp
  simp only [State.commitTry_deep, State.geyAnchored_deep, State.geyNext_deep, State.geySkip_deep, apply_ite State.deep,
      ite_self]

theorem State.geyBuild_deep (s : State) (i : Nat) : (State.geyBuild s i).deep = s.deep := by
  unfold State.geyBuild
  grind [State.geyNext_deep, State.geyPass_deep, State.geyTake_deep, State.bump_deep, State.geyComp_deep,
      State.geyPlain_deep, State.wqFill_deep, deep_upd, deep_time]

theorem State.sntHubReform_deep (s : State) : (State.sntHubReform s).deep = s.deep := by
  unfold State.sntHubReform
  simp only [State.freeCtx_deep, State.laneFree_deep, State.declare_deep, State.updStr_deep, State.capAll_deep,
      State.capFree_deep, foldl_deep, deep_upd, apply_ite State.deep, ite_self, implies_true]

theorem State.hubLose_deep (s : State) (i id cause : Nat) : (State.hubLose s i id cause).deep = s.deep := by
  unfold State.hubLose
  simp only [State.geyDrop_deep, State.declare_deep, State.updStr_deep, foldl_deep, apply_ite State.deep, ite_self,
      implies_true]

theorem State.sntHubLose_deep (s : State) : (State.sntHubLose s).deep = s.deep := by
  unfold State.sntHubLose
  simp only [State.capFree_deep] <;> grind [State.hubLose_deep, State.updCap_deep, State.capFree_deep, foldl_deep,
      deep_upd, deep_time]

theorem State.linkRise_deep (s : State) (p : Nat) : (State.linkRise s p).deep = s.deep := by
  unfold State.linkRise
  simp only [State.setF_deep, State.updPort_deep, State.emit_deep, State.clkMove_deep, apply_ite State.deep, ite_self]

theorem State.failover_deep (s : State) (p i cut : Nat) : (State.failover s p i cut).deep = s.deep := by
  unfold State.failover
  simp only [State.takeOut_deep, State.loseAll_deep, State.setF_deep, State.setB_deep, State.emit_deep, State.updStr_deep,
      apply_ite State.deep, ite_self]

theorem State.cutSending_deep (s : State) (p : Nat) : (State.cutSending s p).2.deep = s.deep := by
  unfold State.cutSending
  grind [State.updPort_deep, State.updFq_deep, State.fqRelease_deep, State.fqTrim_deep, State.loseSent_deep, deep_upd,
      deep_time]

theorem State.cancelFailback_deep (s : State) (p : Nat) : (State.cancelFailback s p).deep = s.deep := by
  unfold State.cancelFailback
  simp only [State.setF_deep, foldl_deep, apply_ite State.deep, ite_self, implies_true]

theorem State.linkBits_deep (s : State) (p why : Nat) : (State.linkBits s p why).deep = s.deep := by
  unfold State.linkBits
  simp only [State.setF_deep, State.bump_deep, State.emit_deep, State.worked_deep, State.updPort_deep,
      apply_ite State.deep, ite_self]

theorem State.linkFell_deep (s : State) (p : Nat) : (State.linkFell s p).deep = s.deep := by
  unfold State.linkFell
  simp only [State.cutSending_deep, State.cancelFailback_deep, State.failover_deep, foldl_deep, implies_true]

theorem State.linksFall_deep (s : State) (ports : List Nat) (why : Nat) : (State.linksFall s ports why).deep = s.deep := by
  unfold State.linksFall
  simp only [State.linkBits_deep, State.clkMove_deep, State.linkFell_deep, foldl_deep, implies_true]

theorem State.trained_deep (s : State) (p : Nat) (ok : Bool) : (State.trained s p ok).deep = s.deep := by
  unfold State.trained
  simp only [State.setF_deep, State.updPort_deep, State.bump_deep, State.mntFault_deep, State.emit_deep,
      apply_ite State.deep, ite_self]

theorem State.portStart_deep (s : State) (p : Nat) : (State.portStart s p).deep = s.deep := by
  unfold State.portStart
  simp only [State.updPort_deep, State.setF_deep, apply_ite State.deep, ite_self]

theorem State.restartPort_deep (s : State) (p : Nat) : (State.restartPort s p).deep = s.deep := by
  unfold State.restartPort
  simp only [State.linksFall_deep, State.setF_deep, State.portStart_deep]

theorem State.readapt_deep (s : State) (p : Nat) : (State.readapt s p).deep = s.deep := by
  unfold State.readapt
  simp only [State.submit_deep]

theorem State.readaptEnd_deep (s : State) (p : Nat) : (State.readaptEnd s p).deep = s.deep := by
  unfold State.readaptEnd
  simp only [State.endAct_deep, apply_ite State.deep, ite_self]

theorem State.dmfFailed_deep (s : State) (p : Nat) (b : List Byte) (w : DmfFail) : (State.dmfFailed s p b w).deep = s.deep
    := by
  unfold State.dmfFailed
  simp only [State.bump_deep, State.firstOf_deep, State.free_deep, State.emit_deep, implies_true]

theorem State.dmfTake_deep (s : State) (p : Nat) (b : List Byte) : (State.dmfTake s p b).deep = s.deep := by
  unfold State.dmfTake
  simp only [State.bump_deep, State.dmfFailed_deep, deep_upd, apply_ite State.deep, ite_self]

theorem State.rxToRing_deep (s : State) (p : Nat) (b : List Byte) (t : Nat) : (State.rxToRing s p b t).deep = s.deep := by
  unfold State.rxToRing
  grind [State.bump_deep, State.ringStop_deep, State.updRing_deep, State.obsv_deep, State.wbWords_deep,
      State.ringDone_deep, deep_upd, deep_time]

theorem State.frameReceive_deep (s : State) (p sub : Nat) (bytes : List Byte) : (State.frameReceive s p sub bytes).deep =
    s.deep := by
  unfold State.frameReceive
  simp only [State.bump_deep, State.ptpRx_deep, State.dmfTake_deep, State.rxToRing_deep, apply_ite State.deep, ite_self]

theorem State.txDone_deep (s : State) (p : Nat) (h : HostFrame) (status : Nat) (t : Option Nat) : (State.txDone s p h
    status t).deep = s.deep := by
  unfold State.txDone
  simp only [State.updPort_deep, State.wbWords_deep, State.obsv_deep, State.ringDone_deep]

theorem State.hostFrameTransmit_deep (s : State) (f p sub : Nat) (cut : Bool) : (State.hostFrameTransmit s f p sub
    cut).deep = s.deep := by
  unfold State.hostFrameTransmit
  grind [State.txDone_deep, State.ringStop_deep, State.updPort_deep, State.bump_deep, State.obsv_deep, State.ptpTx_deep,
      deep_upd, deep_time]

theorem State.promote_deep (s : State) (p : Nat) : (State.promote s p).deep = s.deep := by
  unfold State.promote
  simp only [State.updPort_deep]

theorem State.pdStep_deep (s : State) (p : Nat) (old m : Int) : (State.pdStep s p old m).deep = s.deep := by
  unfold State.pdStep
  simp only [State.setF_deep, State.bump_deep, State.emit_deep]

theorem State.pdMeasure_deep (s : State) (p : Nat) : (State.pdMeasure s p).deep = s.deep := by
  unfold State.pdMeasure
  grind [State.updPtp_deep, State.bump_deep, State.wr64_deep, State.pdStep_deep, deep_upd, deep_time, State.deep, State.now]

theorem State.suspectSet_deep (s : State) : (State.suspectSet s).deep = s.deep := by
  unfold State.suspectSet
  simp only [State.setF_deep]

theorem State.suspectAck_deep (s : State) : (State.suspectAck s).deep = s.deep := by
  unfold State.suspectAck
  simp only [State.setF_deep]

theorem State.readFlash_deep (s : State) (i : Nat) (gl : List Nat) : (State.readFlash s i gl).2.deep = s.deep := by
  unfold State.readFlash
  grind [State.mntFault_deep, deep_upd, deep_time]

theorem State.checkTarget_deep (s : State) (slot : Nat) (gl : List Nat) (container : List Byte) : (State.checkTarget s slot
    gl container).2.deep = s.deep := by
  unfold State.checkTarget
  grind [State.readFlash_deep, State.mntFault_deep, deep_upd, deep_time]

theorem State.firstGood_deep (s : State) (gl : List Nat) (x0 : List Nat) : (State.firstGood s gl x0).2.deep = s.deep := by
  fun_induction State.firstGood <;> grind [State.checkTarget_deep, State.showCheck_deep, deep_upd, deep_time]

theorem State.bindTable_deep (s : State) (m : Image) : (State.bindTable s m).deep = s.deep := by
  unfold State.bindTable
  simp only [State.setB_deep, State.setF_deep, foldl_deep, apply_ite State.deep, ite_self, implies_true]

theorem State.fqStart_deep (s : State) : (State.fqStart s).deep = s.deep := by
  unfold State.fqStart
  simp only [State.fqFresh_deep, foldl_deep, deep_upd, implies_true]

theorem State.wqStart_deep (s : State) : (State.wqStart s).deep = s.deep := by
  unfold State.wqStart
  simp only [State.setF_deep, foldl_deep, deep_upd, implies_true]

theorem State.primaries_deep (s : State) (m : Image) : (State.primaries s m).deep = s.deep := by
  unfold State.primaries
  simp only [State.setF_deep, foldl_deep, implies_true]

theorem State.pathStart_deep (s : State) : (State.pathStart s).deep = s.deep := by
  unfold State.pathStart
  simp only [deep_upd]

theorem State.chainsStart_deep (s : State) : (State.chainsStart s).deep = s.deep := by
  unfold State.chainsStart
  simp only [State.setF_deep, State.showBank_deep, State.pathStart_deep, foldl_deep, implies_true]

theorem State.chainsKeep_deep (s : State) : (State.chainsKeep s).deep = s.deep := by
  unfold State.chainsKeep
  simp only [State.showBanks_deep, State.pathStart_deep, foldl_deep, implies_true]

theorem State.memStart_deep (s : State) : (State.memStart s).deep = s.deep := by
  unfold State.memStart
  simp only [State.regsReset_deep, State.setDom_deep, State.memZero_deep, deep_upd, apply_ite State.deep, ite_self]

theorem State.settled_deep (s : State) : (State.settled s).deep = s.deep := by
  unfold State.settled
  simp only [State.fqStart_deep, State.setF_deep, State.condsPrefill_deep, deep_upd]

theorem State.quadDrop_deep (s : State) (q : Nat) : (State.quadDrop s q).deep = s.deep := by
  unfold State.quadDrop
  simp only [State.pauseBg_deep, State.setPaused_deep, State.setF_deep, State.setDom_deep, foldl_deep,
      apply_ite State.deep, ite_self, implies_true]

theorem State.powerQuads_deep (s : State) (used : Nat) : (State.powerQuads s used).deep = s.deep := by
  unfold State.powerQuads
  simp only [State.setF_deep, State.quadRise_deep, State.quadDrop_deep, State.showCal_deep, foldl_deep,
      apply_ite State.deep, ite_self, implies_true]

theorem State.portsAfter_deep (s : State) (modes : List Nat) : (State.portsAfter s modes).deep = s.deep := by
  unfold State.portsAfter
  simp only [State.restartPort_deep, foldl_deep, apply_ite State.deep, ite_self, implies_true]

theorem State.pllRecommit_deep (s : State) : (State.pllRecommit s).deep = s.deep := by
  unfold State.pllRecommit
  simp only [State.pllTake_deep, State.pllGo_deep, State.setF_deep, deep_upd, apply_ite State.deep, ite_self]

theorem State.keepOrDefault_deep (s : State) (same : Bool) : (State.keepOrDefault s same).deep = s.deep := by
  unfold State.keepOrDefault
  simp only [State.takeDefaults_deep, State.setF_deep, apply_ite State.deep, ite_self]

end Sys2Proof.Machine
end

