-- ==== Sys2Proof/Laws/DeepAgents.lean ====
section
/-!
SUPPORT. Laws/DeepAgents.lean: one lemma per operation: it moves none of what `State.deep` shows (triggers, re-forms,
    updates, reads, the sampling edge, debug and power).
-/

namespace Sys2Proof.Machine

theorem State.triginEdge_deep (s : State) (n : Nat) (rise : Bool) (f : Nat) : (State.triginEdge s n rise f).deep = s.deep
    := by
  unfold State.triginEdge
  simp only [State.bump_deep, State.eventTrigger_deep, deep_upd, apply_ite State.deep, ite_self]

theorem State.trgForce_deep (s : State) (n : Nat) : (State.trgForce s n).deep = s.deep := by
  unfold State.trgForce
  simp only [State.setF_deep, deep_upd, apply_ite State.deep, ite_self]

theorem State.updCond_deep (s : State) (i : Nat) (f : TrigCond → TrigCond) : (State.updCond s i f).deep = s.deep := by
  unfold State.updCond
  simp only [deep_upd]

theorem State.suppress_deep (s : State) (i cause n j : Nat) (clamp : Bool) : (State.suppress s i cause n j clamp).deep =
    s.deep := by
  unfold State.suppress
  simp only [State.bump_deep, State.bpTrig_deep, State.emit_deep]

theorem State.skipOne_deep (s : State) (i : Nat) : (State.skipOne s i).deep = s.deep := by
  unfold State.skipOne
  simp only [State.updCond_deep, State.setF_deep, apply_ite State.deep, ite_self]

theorem State.fire_deep (s : State) (i n : Nat) : (State.fire s i n).deep = s.deep := by
  unfold State.fire
  simp only [State.bump_deep, State.wr64_deep, State.setF_deep, State.updCond_deep, apply_ite State.deep, ite_self]

theorem State.admitCap_deep (s : State) (k : Capture) : (State.admitCap s k).deep = s.deep := by
  unfold State.admitCap
  grind [State.setF_deep, State.bump_deep, State.updStr_deep, State.capRest_deep, State.updCap_deep, State.capPad_deep,
      State.copyPre_deep, State.capsStop_deep, deep_upd, deep_time, State.deep, State.now]

theorem State.trigOuts_deep (s : State) (mask n j : Nat) : (State.trigOuts s mask n j).2.deep = s.deep := by
  unfold State.trigOuts
  simp only  <;> grind [foldl_deep, deep_upd, deep_time]

theorem State.decide1_deep (s : State) (met : List Nat) (n j : Nat) (clamp : Bool) : (State.decide1 s met n j clamp).deep =
    s.deep := by
  unfold State.decide1
  simp only  <;> grind [State.updCond_deep, State.suppress_deep, State.skipOne_deep, State.admitCap_deep, State.fire_deep,
      State.bpTrig_deep, State.trigOuts_deep, State.emit_deep, State.capFree_deep, foldl_deep, deep_upd, deep_time]

theorem State.decideAt_deep (s : State) (j : Nat) (ext : List TrigMet) (coinc : List Nat) : (State.decideAt s j ext
    coinc).deep = s.deep := by
  unfold State.decideAt
  simp only [State.decide1_deep, foldl_deep, implies_true]

theorem State.trigDecide_deep (s : State) : (State.trigDecide s).deep = s.deep := by
  unfold State.trigDecide
  grind [State.decideAt_deep, deep_upd, deep_time, State.deep, State.now]

theorem State.prefillEnd_deep (s : State) (n : Nat) : (State.prefillEnd s n).deep = s.deep := by
  unfold State.prefillEnd
  grind [State.setF_deep, deep_upd, deep_time]

theorem State.holdoffEnd_deep (s : State) (n : Nat) : (State.holdoffEnd s n).deep = s.deep := by
  unfold State.holdoffEnd
  grind [State.setF_deep, deep_upd, deep_time]

theorem State.pulseEnd_deep (s : State) (o at_ : Nat) : (State.pulseEnd s o at_).deep = s.deep := by
  unfold State.pulseEnd
  grind [State.updOut_deep, State.pinEdge_deep, deep_upd, deep_time]

theorem State.toLead_deep (s : State) (o : Nat) : (State.toLead s o).deep = s.deep := by
  unfold State.toLead
  grind [State.pulseEnd_deep, State.updOut_deep, State.bump_deep, State.pinEdge_deep, deep_upd, deep_time]

theorem State.detect_deep (s : State) (m n c e : Nat) : (State.detect s m n c e).deep = s.deep := by
  unfold State.detect
  simp only [State.bump_deep, deep_upd, apply_ite State.deep, ite_self]

theorem State.detectAt_deep (s : State) (m n : Nat) (left : Nat → Bool) : (State.detectAt s m n left).deep = s.deep := by
  unfold State.detectAt
  (repeat' split) <;> simp only [State.detect_deep, foldl_deep, apply_ite State.deep, ite_self, implies_true]

theorem State.detectAll_deep (s : State) (m : Nat) : (State.detectAll s m).deep = s.deep := by
  unfold State.detectAll
  grind [State.detectAt_deep, deep_upd, deep_time]

theorem State.detectRest_deep (s : State) (m : Nat) : (State.detectRest s m).deep = s.deep := by
  unfold State.detectRest
  simp only [State.detectAt_deep, foldl_deep, apply_ite State.deep, ite_self, implies_true]

theorem State.ringStart_deep (s : State) (r0 : Nat) : (State.ringStart s r0).deep = s.deep := by
  unfold State.ringStart
  simp only [State.wr64_deep, deep_upd]

theorem State.ringResume_deep (s : State) (m : Nat) : (State.ringResume s m).deep = s.deep := by
  unfold State.ringResume
  grind [State.capsLose_deep, State.capsStop_deep, State.ringStart_deep, State.condsPrefill_deep, deep_upd, deep_time]

theorem State.ringStep_deep (s : State) (m : Nat) : (State.ringStep s m).deep = s.deep := by
  unfold State.ringStep
  grind [State.ringBlocks_deep, State.ringFlush_deep, State.capsStop_deep, deep_upd, deep_time]

theorem State.haltOver_deep (s : State) (n c : Nat) : (State.haltOver s n c).deep = s.deep := by
  unfold State.haltOver
  grind [State.updChan_deep, deep_upd, deep_time]

theorem State.produce_deep (s : State) (i m n : Nat) : (State.produce s i m n).deep = s.deep := by
  unfold State.produce
  simp only [State.updStr_deep]

theorem State.streamStep_deep (s : State) (m i : Nat) : (State.streamStep s m i).deep = s.deep := by
  unfold State.streamStep
  grind [State.produce_deep, State.updStr_deep, deep_upd, deep_time]

theorem State.haltChain_deep (s : State) (h c : Nat) : (State.haltChain s h c).deep = s.deep := by
  unfold State.haltChain
  simp only [State.updChan_deep, apply_ite State.deep, ite_self]

theorem State.haltPath_deep (s : State) (h : Nat) : (State.haltPath s h).deep = s.deep := by
  unfold State.haltPath
  simp only [State.detectRest_deep, State.ringFlush_deep, State.haltChain_deep, foldl_deep, deep_upd, apply_ite State.deep,
      ite_self, implies_true]

theorem State.bpSample_deep (s : State) (m b : Nat) : (State.bpSample s m b).deep = s.deep := by
  unfold State.bpSample
  simp only [State.bpNote_deep, apply_ite State.deep, ite_self]

theorem State.chainCounts_deep (s : State) (m : Nat) : (State.chainCounts s m).deep = s.deep := by
  unfold State.chainCounts
  simp only [State.chainCount_deep, foldl_deep, apply_ite State.deep, ite_self, implies_true]

theorem State.beamCounts_deep (s : State) (m : Nat) (frozen : Bool) : (State.beamCounts s m frozen).deep = s.deep := by
  unfold State.beamCounts
  simp only [State.beamCount_deep, foldl_deep, apply_ite State.deep, ite_self, implies_true]

theorem State.runStep_deep (s : State) (m : Nat) : (State.runStep s m).deep = s.deep := by
  unfold State.runStep
  simp only [State.haltOver_deep, State.ringResume_deep, State.detectAll_deep, State.ringStep_deep, State.chainCounts_deep,
      State.beamCounts_deep, foldl_deep, apply_ite State.deep, ite_self, implies_true]

theorem State.stepped_deep (s : State) (m : Nat) : (State.stepped s m).deep = s.deep := by
  unfold State.stepped
  simp only [State.chainCounts_deep, State.beamCounts_deep]

theorem State.stepOne_deep (s : State) (now : Bool) : (State.stepOne s now).deep = s.deep := by
  unfold State.stepOne
  simp only [deep_upd, apply_ite State.deep, ite_self]

theorem State.sampleEdge_deep (s : State) (inp noise : List Int) : (State.sampleEdge s inp noise).deep = s.deep := by
  unfold State.sampleEdge
  simp only [State.stepOne_deep, State.applyLanding_deep, State.runFirst_deep, State.ringStart_deep, State.haltPath_deep,
      State.condStep_deep, State.bpSample_deep, State.detectAll_deep, State.beamCounts_deep, State.stepped_deep,
      State.runStep_deep, State.streamStep_deep, foldl_deep, deep_upd, apply_ite State.deep, ite_self, implies_true]

theorem State.reformAdd_deep (s : State) (r : ReformReq) : (State.reformAdd s r).deep = s.deep := by
  unfold State.reformAdd
  simp only [State.setF_deep, State.submit_deep, deep_upd]

theorem State.reformGo_deep (s : State) : (State.reformGo s).deep = s.deep := by
  unfold State.reformGo
  simp only [State.setF_deep, State.showCheck_deep, State.reformAdd_deep, apply_ite State.deep, ite_self]

theorem State.reformWrite_deep (s : State) (v : Word) : (State.reformWrite s v).deep = s.deep := by
  unfold State.reformWrite
  simp only [State.setF_deep, State.reformGo_deep, apply_ite State.deep, ite_self]

theorem State.reformOver_deep (s : State) : (State.reformOver s).deep = s.deep := by
  unfold State.reformOver
  simp only [State.setB_deep, State.endAct_deep, deep_upd]

theorem State.imgIdle_deep (s : State) : (State.imgIdle s).deep = s.deep := by
  unfold State.imgIdle
  simp only [State.setF_deep]

theorem State.reformRefuse_deep (s : State) (cause : Nat) : (State.reformRefuse s cause).deep = s.deep := by
  rw [State.reformRefuse]
  split
  · rw [State.setF_deep, State.updTo_deep, State.updTouch_deep, deep_updAgent, State.updJournal_deep, State.setF_deep,
      State.imgIdle_deep,
      State.reformOver_deep]
  · rw [State.setF_deep, State.imgIdle_deep, State.reformOver_deep]

theorem State.chooseSnr_deep (s : State) (r : ReformReq) : (State.chooseSnr s r).deep = s.deep := by
  unfold State.chooseSnr
  simp only [State.setF_deep, State.imgIdle_deep, State.wr64_deep, State.worked_deep, State.applyDiscard_deep, deep_upd,
      apply_ite State.deep, ite_self]

theorem State.checkPassEnd_deep (s : State) (gl : List Nat) (container : List Byte) : (State.checkPassEnd s gl
    container).deep = s.deep := by
  unfold State.checkPassEnd
  grind [State.plan_deep, State.firstGood_deep, State.chooseSnr_deep, State.checkTarget_deep, State.showCheck_deep,
      State.reformRefuse_deep, deep_upd, deep_time, State.deep, State.now]

theorem State.decideRest_deep (n : Nat) (s : State) : (State.decideRest n s).deep = s.deep := by
  induction n generalizing s with
  | zero => rw [State.decideRest]
  | succ n ih =>
    rw [State.decideRest]
    split
    · exact State.trigDecide_deep s
    · rw [ih, State.trigDecide_deep]
theorem State.decideBefore_deep (s : State) (snr : Nat) : (State.decideBefore s snr).deep = s.deep := by
  rw [State.decideBefore, State.decideRest_deep]; rfl

theorem State.runsReform_deep (s : State) (i : Nat) : (State.runsReform s i).deep = s.deep := by
  unfold State.runsReform
  simp only [State.updStr_deep]

theorem State.sendNow_deep (s : State) (i : Nat) (p : Packet) (follows : Bool) : (State.sendNow s i p follows).deep =
    s.deep := by
  unfold State.sendNow
  simp only [State.obsv_deep, State.bump_deep, State.countDelivered_deep, State.copyRec_deep, apply_ite State.deep,
      ite_self]

theorem State.sendGaps_deep (s : State) (i : Nat) (x0 : List Packet) : (State.sendGaps s i x0).deep = s.deep := by
  fun_induction State.sendGaps <;> grind [State.sendNow_deep, deep_upd, deep_time]

theorem State.closeStream_deep (s : State) (i : Nat) : (State.closeStream s i).deep = s.deep := by
  unfold State.closeStream
  simp only [State.updStr_deep, State.sendGaps_deep, State.sendNow_deep, apply_ite State.deep, ite_self]

theorem State.shutStream_deep (s : State) (i : Nat) : (State.shutStream s i).deep = s.deep := by
  unfold State.shutStream
  simp only [State.updStr_deep]

theorem State.drainRecs_deep (s : State) : (State.drainRecs s).deep = s.deep := by
  unfold State.drainRecs
  simp only [State.eventRecord_deep, foldl_deep, implies_true]

theorem State.flushWqReform_deep (s : State) (n : Nat) : (State.flushWqReform s n).deep = s.deep := by
  unfold State.flushWqReform
  simp only [State.bpQueue_deep, State.bump_deep, State.flushedRec_deep, apply_ite State.deep, ite_self]

theorem State.flushRecs_deep (s : State) (held : List (Nat × Nat × Nat)) : (State.flushRecs s held).deep = s.deep := by
  unfold State.flushRecs
  simp only [State.flushedRec_deep, State.flushWqReform_deep, foldl_deep, implies_true]

theorem State.reformStreams_deep (s : State) (hi : Nat) : (State.reformStreams s hi).deep = s.deep := by
  unfold State.reformStreams
  simp only [State.sntHostReform_deep, State.sntHubReform_deep, State.fqDiscard_deep, State.pipeLose_deep,
      State.dropHeld_deep, State.runsReform_deep, State.closeStream_deep, State.drainRecs_deep, State.bpQueue_deep,
      State.fqEmpty_deep, State.flushRecs_deep, State.shutStream_deep, foldl_deep, implies_true]

theorem State.runOver_deep (s : State) : (State.runOver s).deep = s.deep := by
  unfold State.runOver
  simp only [State.setF_deep, State.worked_deep, deep_upd]

theorem State.reformDone_deep (s : State) : (State.reformDone s).deep = s.deep := by
  unfold State.reformDone
  simp only [State.bump_deep, State.emit_deep, State.reformOver_deep]

theorem State.trialBegins_deep (s : State) : (State.trialBegins s).deep = s.deep := by
  unfold State.trialBegins
  simp only [State.setF_deep, State.updTo_deep, State.updFallback_deep, deep_upd, apply_ite State.deep, ite_self]

theorem State.fallbackEnds_deep (s : State) (slot cause : Nat) : (State.fallbackEnds s slot cause).deep = s.deep := by
  unfold State.fallbackEnds
  simp only [State.emit_deep, State.updJournal_deep, State.submitErase_deep, State.setF_deep, State.updRelease_deep,
      apply_ite State.deep, ite_self]

theorem State.reformAfter_deep (s : State) (slot cause : Nat) : (State.reformAfter s slot cause).deep = s.deep := by
  unfold State.reformAfter
  grind [State.trialBegins_deep, State.fallbackEnds_deep, deep_upd, deep_time]

theorem State.saveExpiry_deep (s : State) : (State.saveExpiry s).deep = s.deep := by
  rw [State.saveExpiry]
  split
  · rw [State.submit_deep, deep_pwr]
  · rfl

theorem State.activateEnd_deep (s : State) (code : Nat) : (State.activateEnd s code).deep = s.deep := by
  unfold State.activateEnd
  simp only [State.updTouch_deep, State.updTo_deep, State.setF_deep, deep_upd]

theorem State.activateSaved_deep (s : State) (h : Nat) (failed : Bool) : (State.activateSaved s h failed).deep = s.deep :=
    by
  unfold State.activateSaved
  simp only [State.activateEnd_deep, State.updJournal_deep, State.updTo_deep, State.reformAdd_deep, apply_ite State.deep,
      ite_self]

theorem State.setsaveCommit_deep (s : State) (failures : Nat) : (State.setsaveCommit s failures).deep = s.deep := by
  unfold State.setsaveCommit
  simp only [State.saveEnd_deep, State.endAct_deep, State.setB_deep, State.activateSaved_deep, apply_ite State.deep,
      ite_self]

theorem State.updAbort_deep (s : State) (id : Ident) : (State.updAbort s id).deep = s.deep := by
  unfold State.updAbort
  simp only [State.updOwned_deep, State.updEnd_deep, apply_ite State.deep, ite_self, implies_true]

theorem State.updTimeout_deep (s : State) : (State.updTimeout s).deep = s.deep := by
  unfold State.updTimeout
  simp only [State.updEnd_deep, apply_ite State.deep, ite_self]

theorem State.secTake_deep (s : State) (b : List Byte) : (State.secTake s b).deep = s.deep := by
  unfold State.secTake
  grind [State.setF_deep, deep_upd, deep_time, State.deep, State.now]

theorem State.headerIn_deep (s : State) : (State.headerIn s).deep = s.deep := by
  unfold State.headerIn
  simp only [State.updFail_deep, State.updJournal_deep, State.flashWrite_deep, State.setSlot_deep, State.showJournal_deep,
      State.updTo_deep, State.setF_deep, State.secTake_deep, deep_upd, apply_ite State.deep, ite_self, implies_true]

theorem State.updTake_deep (s : State) (b : List Byte) : (State.updTake s b).deep = s.deep := by
  unfold State.updTake
  simp only [State.updTouch_deep, State.setF_deep, State.headerIn_deep, State.secTake_deep, deep_upd, apply_ite State.deep,
      ite_self]

theorem State.updPush_deep (s : State) (id : Ident) (v : Word) : (State.updPush s id v).deep = s.deep := by
  unfold State.updPush
  simp only [State.updOwned_deep, State.updTake_deep, apply_ite State.deep, ite_self, implies_true]

theorem State.updDma_deep (s : State) (id : Ident) (container : List Byte) (bad : Option Nat) : (State.updDma s id
    container bad).deep = s.deep := by
  unfold State.updDma
  grind [State.setF_deep, State.updTake_deep, State.updFail_deep, deep_upd, deep_time, State.deep, State.now]

theorem State.updStart_deep (s : State) (id : Ident) (container : List Byte) (bad : Option Nat) : (State.updStart s id
    container bad).deep = s.deep := by
  unfold State.updStart
  simp only [State.updOwned_deep, State.updDma_deep, implies_true]

theorem State.secMismatch_deep (s : State) (e : SecEnt) (again : Option (List Byte)) : (State.secMismatch s e again).deep =
    s.deep := by
  unfold State.secMismatch
  grind [State.bump_deep, State.mntFault_deep, State.updFail_deep, State.updTo_deep, State.setF_deep, State.emit_deep,
      State.secTake_deep, deep_upd, deep_time, State.deep, State.now]

theorem State.secGood_deep (s : State) (e : SecEnt) : (State.secGood s e).deep = s.deep := by
  unfold State.secGood
  grind [State.bump_deep, State.mntFault_deep, State.updFail_deep, State.updTo_deep, State.setF_deep, State.submit_deep,
      deep_upd, deep_time, State.deep, State.now]

theorem State.sectionDone_deep (s : State) (again : Option (List Byte)) : (State.sectionDone s again).deep = s.deep := by
  unfold State.sectionDone
  grind [State.secGood_deep, State.secMismatch_deep, deep_upd, deep_time]

theorem State.keepStart_deep (s : State) : (State.keepStart s).deep = s.deep := by
  unfold State.keepStart
  simp only [State.mntFault_deep, State.updFail_deep, State.submit_deep, deep_upd, apply_ite State.deep, ite_self]

theorem State.sectionWritten_deep (s : State) (failures : Nat) : (State.sectionWritten s failures).deep = s.deep := by
  unfold State.sectionWritten
  grind [State.bump_deep, State.mntFault_deep, State.updFail_deep, State.endAct_deep, State.keepStart_deep,
      State.submit_deep, deep_upd, deep_time, State.deep, State.now]

theorem State.keptReads_deep (s : State) (x0 : Nat) : (State.keptReads s x0).2.deep = s.deep := by
  fun_induction State.keptReads <;> grind [State.flashCheck_deep, deep_upd, deep_time]

theorem State.keptCopied_deep (s : State) : (State.keptCopied s).deep = s.deep := by
  unfold State.keptCopied
  simp only [State.keptReads_deep, State.updTo_deep, State.updFail_deep, apply_ite State.deep, ite_self]

theorem State.updChecked_deep (s : State) : (State.updChecked s).deep = s.deep := by
  unfold State.updChecked
  grind [State.showCheck_deep, State.updFail_deep, State.flashWrite_deep, State.setSlot_deep, State.updJournal_deep,
      State.updTo_deep, State.setF_deep, State.emit_deep, deep_upd, deep_time, State.deep, State.now]

theorem State.defaults_deep (s : State) (d) :
    ({ s with image := s.image.map (fun i => { i with defaults := d }) } : State).deep = s.deep := by
  cases h : s.image <;> simp only [State.deep, State.structureInUse, State.now, h, Option.map] <;> rfl
theorem State.partialGo_deep (s : State) (m : Image) (own : List SlotSec) : (State.partialGo s m own).deep = s.deep := by
  rw [State.partialGo]
  simp only [State.updRelease_deep, State.setF_deep]
  rw [foldl_deep]
  · split
    · rw [State.defaults_deep]
      split
      · rw [State.coefRelease_deep, deep_updAgent]
      · rfl
    · split
      · rw [State.coefRelease_deep, deep_updAgent]
      · rfl
  · intro a x
    split
    · exact State.emit_deep ..
    · rfl

theorem State.updPartial_deep (s : State) (m : Image) : (State.updPartial s m).deep = s.deep := by
  unfold State.updPartial
  simp_all [State.updJournal_deep, State.partialGo_deep, State.setF_deep, apply_ite State.deep, ite_self]

theorem State.updActivate_deep (s : State) : (State.updActivate s).deep = s.deep := by
  unfold State.updActivate
  grind [State.updPartial_deep, State.setF_deep, State.updTo_deep, State.submit_deep, deep_upd, deep_time, State.deep,
      State.now]

theorem State.healthEval_deep (s : State) : (State.healthEval s).deep = s.deep := by
  unfold State.healthEval
  simp only [State.setF_deep, deep_upd, apply_ite State.deep, ite_self]

theorem State.healthExpiry_deep (s : State) : (State.healthExpiry s).deep = s.deep := by
  unfold State.healthExpiry
  simp only [State.updFallback_deep, apply_ite State.deep, ite_self]

theorem State.trialCommit_deep (s : State) : (State.trialCommit s).deep = s.deep := by
  unfold State.trialCommit
  simp only [State.updJournal_deep, State.submit_deep, State.emit_deep, State.setF_deep, State.updRelease_deep, deep_upd,
      apply_ite State.deep, ite_self]

theorem State.confirmed_deep (s : State) : (State.confirmed s).deep = s.deep := by
  unfold State.confirmed
  simp only [State.setF_deep, deep_upd, apply_ite State.deep, ite_self]

theorem State.rejected_deep (s : State) : (State.rejected s).deep = s.deep := by
  unfold State.rejected
  simp only [State.updFallback_deep, State.late_deep, deep_upd, apply_ite State.deep, ite_self]

theorem State.updDmaFree_deep (s : State) (id : Ident) : (State.updDmaFree s id).deep = s.deep := by
  unfold State.updDmaFree
  simp only [State.freeBytes_deep, State.updDma_deep]

theorem State.updCtrl_deep (s : State) (id : Ident) (v : Word) : (State.updCtrl s id v).deep = s.deep := by
  unfold State.updCtrl
  simp only [State.updOwned_deep, State.setF_deep, State.updDmaFree_deep, State.updActivate_deep, State.updEnd_deep,
      State.confirmed_deep, State.rejected_deep, apply_ite State.deep, ite_self, implies_true]

theorem State.netReg_deep (s : State) (off : Nat) : (State.netReg s off).2.deep = s.deep := by
  rw [State.netReg]
  dsimp only
  split
  · exact State.free_deep s
  · rfl

theorem State.show_deep (s : State) (i off : Nat) : (State.show s i off).2.deep = s.deep := by
  rw [State.show]
  grind [State.netReg_deep]

theorem State.latchAll_deep (s : State) (id : Ident) (off : Nat) (x0 : List Nat) : (State.latchAll s id off x0).deep =
    s.deep := by
  induction x0 generalizing s with
  | nil => rw [State.latchAll]
  | cons m t ih => rw [State.latchAll]; dsimp only; rw [ih, State.latch_deep, State.show_deep]

theorem State.clearRc_deep (s : State) (off : Nat) : (State.clearRc s off).deep = s.deep := by
  rw [State.clearRc]; grind [State.wr_deep, State.setF_deep, foldl_deep, deep_upd, deep_time]

theorem State.readPlain_deep (s : State) (id : Ident) (off : Nat) : (State.readPlain s id off).2.deep = s.deep := by
  rw [State.readPlain]
  grind [State.latchAll_deep, State.show_deep, State.clearRc_deep]

theorem State.readEff_deep (s : State) (id : Ident) (off : Nat) : (State.readEff s id off).2.deep = s.deep := by
  rw [State.readEff]
  (repeat' split) <;> simp only [State.readPlain_deep, State.eqReadData_deep, State.updOpen_deep]

theorem State.busRead_deep (s : State) (id : Ident) (off : Nat) : (State.busRead s id off).2.deep = s.deep := by
  unfold State.busRead
  grind [State.deny_deep, State.readPlain_deep, State.bpReg_deep, State.mbxRefuse_deep, State.lockTake_deep,
      State.gatedRead_deep, State.readEff_deep, foldl_deep, deep_upd, deep_time]

theorem State.readNow_deep (s : State) (id : Ident) (off : Nat) : (State.readNow s id off).deep = s.deep := by
  unfold State.readNow
  simp only [State.busRead_deep, State.obsv_deep]

theorem State.readDone_deep (s : State) (id : Ident) (off : Nat) : (State.readDone s id off).deep = s.deep := by
  unfold State.readDone
  simp only [State.reading_deep, State.readNow_deep, apply_ite State.deep, ite_self, implies_true]

theorem State.badReq_deep (s : State) : (State.badReq s).deep = s.deep := by
  unfold State.badReq
  simp only [State.bump_deep]

theorem State.readReq_deep (s : State) (id : Ident) (off : Nat) (req : BarRead) : (State.readReq s id off req).deep =
    s.deep := by
  unfold State.readReq
  grind [State.readDone_deep, State.badReq_deep, State.obsv_deep, deep_upd, deep_time]

theorem State.freeBits_deep (s : State) (x0 : Nat) : (State.freeBits s x0).2.deep = s.deep := by
  fun_induction State.freeBits <;> grind [State.free_deep, deep_upd, deep_time]

theorem State.ballsBack_deep (s : State) : (State.ballsBack s).deep = s.deep := by
  unfold State.ballsBack
  simp only [State.pinOut_deep, State.obsv_deep, foldl_deep, implies_true]

theorem State.irTake_deep (s : State) (code : Nat) : (State.irTake s code).deep = s.deep := by
  unfold State.irTake
  simp only [State.ballsBack_deep, deep_upd, apply_ite State.deep, ite_self]

theorem State.irLoad_deep (s : State) (code : Nat) : (State.irLoad s code).deep = s.deep := by
  unfold State.irLoad
  simp only [State.irTake_deep, State.obsv_deep, deep_upd]

theorem State.tapReset_deep (s : State) : (State.tapReset s).deep = s.deep := by
  unfold State.tapReset
  simp only [State.irTake_deep, State.identReset_deep, deep_upd]

theorem State.bypassScan_deep (s : State) (scanIn : List Bool) : (State.bypassScan s scanIn).deep = s.deep := by
  unfold State.bypassScan
  simp only [State.irLoad_deep, State.obsv_deep]

theorem State.chainScan_deep (s : State) (scanIn : List Bool) : (State.chainScan s scanIn).deep = s.deep := by
  unfold State.chainScan
  simp only [State.freeBits_deep, State.obsv_deep, deep_upd]

theorem State.driveChain_deep (s : State) : (State.driveChain s).deep = s.deep := by
  unfold State.driveChain
  simp only [State.obsv_deep, foldl_deep, implies_true]

theorem State.extest_deep (s : State) (scanIn : List Bool) : (State.extest s scanIn).deep = s.deep := by
  unfold State.extest
  simp only [State.irLoad_deep, State.driveChain_deep, State.chainScan_deep, State.setF_deep, State.bypassScan_deep,
      apply_ite State.deep, ite_self]

theorem State.unlockChal_deep (s : State) : (State.unlockChal s).deep = s.deep := by
  unfold State.unlockChal
  simp only [State.irLoad_deep, State.free_deep, State.obsv_deep, deep_upd]

theorem State.unlockResp_deep (s : State) (key sig : List Byte) : (State.unlockResp s key sig).deep = s.deep := by
  unfold State.unlockResp
  simp only [State.irLoad_deep, deep_upd]

theorem State.debugUnlock_deep (s : State) : (State.debugUnlock s).deep = s.deep := by
  unfold State.debugUnlock
  grind [State.emit_deep, State.setF_deep, State.bump_deep, deep_upd, deep_time, State.deep, State.now]

theorem State.relock_deep (s : State) : (State.relock s).deep = s.deep := by
  unfold State.relock
  simp only [State.setF_deep]

theorem State.haltReq_deep (s : State) (reqs : Nat) (e : Option Nat) : (State.haltReq s reqs e).deep = s.deep := by
  unfold State.haltReq
  simp only [State.setF_deep, State.submit_deep, deep_upd, apply_ite State.deep, ite_self]

theorem State.haltFreeze_deep (s : State) : (State.haltFreeze s).deep = s.deep := by
  unfold State.haltFreeze
  simp only [State.haltPath_deep, State.setF_deep, State.bump_deep, State.pauseAllBg_deep, State.wr64_deep,
      State.emit_deep, deep_upd, apply_ite State.deep, ite_self]

theorem State.dbgRefuse_deep (s : State) : (State.dbgRefuse s).deep = s.deep := by
  unfold State.dbgRefuse
  simp only [State.setF_deep]

theorem State.drainAfresh_deep (s : State) : (State.drainAfresh s).deep = s.deep := by
  unfold State.drainAfresh
  simp only [deep_upd]

theorem State.dbgResume_deep (s : State) : (State.dbgResume s).deep = s.deep := by
  unfold State.dbgResume
  simp only [State.setF_deep, State.endAct_deep, State.wr64_deep, State.emit_deep, State.drainAfresh_deep,
      State.applyLanding_deep, State.nowResume_deep, State.dbgRefuse_deep, deep_upd, apply_ite State.deep, ite_self]

theorem State.dbgStep_deep (s : State) : (State.dbgStep s).deep = s.deep := by
  unfold State.dbgStep
  simp only [State.setF_deep, State.dbgRefuse_deep, deep_upd, apply_ite State.deep, ite_self]

theorem State.stepDone_deep (s : State) : (State.stepDone s).deep = s.deep := by
  unfold State.stepDone
  simp only [State.setF_deep, apply_ite State.deep, ite_self]

theorem State.dbgCtrl_deep (s : State) (v : Word) : (State.dbgCtrl s v).deep = s.deep := by
  unfold State.dbgCtrl
  simp only [State.wr_deep, State.haltReq_deep, State.dbgResume_deep, State.dbgStep_deep, State.relock_deep,
      apply_ite State.deep, ite_self]

theorem State.bpMatch_deep (s : State) (n : Nat) : (State.bpMatch s n).deep = s.deep := by
  unfold State.bpMatch
  grind [State.bump_deep, State.setF_deep, State.emit_deep, State.haltReq_deep, deep_upd, deep_time, State.deep, State.now]

theorem State.hostL2_deep (s : State) : (State.hostL2 s).deep = s.deep := by
  unfold State.hostL2
  simp only [State.setDom_deep, State.follow_deep, deep_upd, apply_ite State.deep, ite_self]

theorem State.domIdle_deep (s : State) (d : Nat) : (State.domIdle s d).deep = s.deep := by
  unfold State.domIdle
  simp only [State.hostL2_deep, State.setDom_deep, State.follow_deep, deep_upd, apply_ite State.deep, ite_self]

theorem State.portsStart_deep (s : State) : (State.portsStart s).deep = s.deep := by
  unfold State.portsStart
  simp only [State.portStart_deep, foldl_deep, apply_ite State.deep, ite_self, implies_true]

theorem State.netReset_deep (s : State) : (State.netReset s).deep = s.deep := by
  unfold State.netReset
  simp only [State.linksFall_deep, State.fqEmpty_deep, State.flushFq_deep, State.regsReset_deep, State.flushEnds_deep,
      State.portsStart_deep, State.clkMove_deep, foldl_deep, deep_upd, apply_ite State.deep, ite_self, implies_true]

theorem State.sntBlock_deep (s : State) : (State.sntBlock s).deep = s.deep := by
  unfold State.sntBlock
  simp only [State.flushEnds_deep, State.sntHubLose_deep, State.sntReset_deep, State.regsReset_deep]

theorem State.calPhases_deep (s : State) : (State.calPhases s).deep = s.deep := by
  unfold State.calPhases
  simp only [State.setF_deep, foldl_deep, apply_ite State.deep, ite_self, implies_true]

theorem State.calBlock_deep (s : State) : (State.calBlock s).deep = s.deep := by
  unfold State.calBlock
  simp only [State.dropBg_deep, State.withdraw_deep, State.regsReset_deep, State.setF_deep, State.calPhases_deep,
      State.showCal_deep, State.flushEnds_deep, foldl_deep, deep_upd, implies_true]

theorem State.trgBlock_deep (s : State) : (State.trgBlock s).deep = s.deep := by
  unfold State.trgBlock
  simp only [State.trigPins_deep, State.regsReset_deep, State.condsPrefill_deep, State.flushEnds_deep, deep_upd]

theorem State.mntBlock_deep (s : State) : (State.mntBlock s).deep = s.deep := by
  unfold State.mntBlock
  simp only [State.regsReset_deep, State.flushEnds_deep, State.setF_deep, State.pinEdge_deep]

theorem State.blkReset_deep (s : State) (v : Word) : (State.blkReset s v).deep = s.deep := by
  unfold State.blkReset
  simp only [State.setF_deep, State.calBlock_deep, State.trgBlock_deep, State.sntBlock_deep, State.netReset_deep,
      State.mntBlock_deep, apply_ite State.deep, ite_self]

theorem State.domReset_deep (s : State) (d : Nat) : (State.domReset s d).deep = s.deep := by
  unfold State.domReset
  grind [State.identReset_deep, State.netReset_deep, State.updEnd_deep, State.flushEnds_deep, State.sntBlock_deep,
      State.calBlock_deep, deep_upd, deep_time]

theorem State.domLeave_deep (s : State) (d : Nat) : (State.domLeave s d).deep = s.deep := by
  unfold State.domLeave
  grind [State.identLeave_deep, State.sigsGo_deep, deep_upd, deep_time]

theorem State.domResets_deep (s : State) (d : Nat) : (State.domResets s d).deep = s.deep := by
  unfold State.domResets
  simp only [State.domReset_deep, State.domLeave_deep, apply_ite State.deep, ite_self]

theorem State.domRise_deep (s : State) (d : Nat) : (State.domRise s d).deep = s.deep := by
  unfold State.domRise
  simp only [State.setDom_deep, State.domReset_deep, State.domLeave_deep, State.worked_deep, deep_upd,
      apply_ite State.deep, ite_self]

theorem State.warmDrop_deep (s : State) : (State.warmDrop s).deep = s.deep := by
  unfold State.warmDrop
  simp only [State.trigPins_deep, State.applyIdle_deep, State.coefRelease_deep, State.copyAbandon_deep,
      State.identReset_deep, State.dropBg_deep, State.sntReset_deep, State.dropActs_deep, foldl_deep, implies_true]

theorem State.warmClear_deep (s : State) (load : Bool) (cause : Nat) : (State.warmClear s load cause).deep = s.deep := by
  unfold State.warmClear
  simp only [deep_upd]

theorem State.warmShow_deep (s : State) (load : Bool) (cause : Nat) : (State.warmShow s load cause).deep = s.deep := by
  unfold State.warmShow
  simp only [State.wr_deep, State.setB_deep, State.showJournal_deep, State.showStaged_deep, State.setDom_deep,
      State.setF_deep]

theorem State.warm_deep (s : State) (cause : Nat) : (State.warm s cause).deep = s.deep := by
  unfold State.warm
  simp only [State.warmDrop_deep, State.warmClear_deep, State.warmShow_deep, State.pinsMove_deep, State.clkMove_deep,
      apply_ite State.deep, ite_self]

theorem State.softWarm_deep (s : State) (v : Word) : (State.softWarm s v).deep = s.deep := by
  unfold State.softWarm
  simp only [State.deny_deep, State.warm_deep, apply_ite State.deep, ite_self]

theorem State.pllRestore_deep (s : State) : (State.pllRestore s).deep = s.deep := by
  unfold State.pllRestore
  grind [State.pllTake_deep, State.pllLocked_deep, State.setF_deep, deep_upd, deep_time, State.deep, State.now]

theorem State.domsOn_deep (s : State) : (State.domsOn s).deep = s.deep := by
  unfold State.domsOn
  simp only [State.setDom_deep, State.domLeave_deep, State.worked_deep, foldl_deep, implies_true]

theorem State.ready_deep (s : State) (kind : Nat) : (State.ready s kind).deep = s.deep := by
  unfold State.ready
  simp only [State.emit_deep, State.setF_deep, State.pinsMove_deep]

theorem State.powerFirst_deep (s : State) : (State.powerFirst s).deep = s.deep := by
  unfold State.powerFirst
  simp only [State.setDom_deep, State.showJournal_deep, State.showStaged_deep, apply_ite State.deep, ite_self]

theorem State.retRestore_deep (s : State) (lost : Bool) (glitches : List Nat) : (State.retRestore s lost glitches).deep =
    s.deep := by
  unfold State.retRestore
  simp only [State.restoreSets_deep, State.putFields_deep, State.setF_deep, State.emit_deep, State.settingsIn_deep,
      apply_ite State.deep, ite_self]

theorem State.primariesNow_deep (s : State) : (State.primariesNow s).deep = s.deep := by
  unfold State.primariesNow
  grind [State.primaries_deep, deep_upd, deep_time]

theorem State.warmReady_deep (s : State) : (State.warmReady s).deep = s.deep := by
  unfold State.warmReady
  simp only [State.pllRestore_deep, State.ready_deep, apply_ite State.deep, ite_self]

theorem State.domCtrl_deep (s : State) (id : Ident) (d : Nat) (v : Word) : (State.domCtrl s id d v).deep = s.deep := by
  unfold State.domCtrl
  simp only [State.setF_deep, State.deny_deep, State.domResets_deep, apply_ite State.deep, ite_self]

theorem State.judgeRail_deep (s : State) (v mv : Nat) : (State.judgeRail s v mv).deep = s.deep := by
  unfold State.judgeRail
  simp only [State.setF_deep, State.emit_deep, apply_ite State.deep, ite_self]

theorem State.judgeTemps_deep (s : State) : (State.judgeTemps s).deep = s.deep := by
  unfold State.judgeTemps
  grind [State.setF_deep, State.pinEdge_deep, State.emit_deep, deep_upd, deep_time]

theorem State.monitor_deep (s : State) (temps : List Int) (volts : List Nat) : (State.monitor s temps volts).deep = s.deep
    := by
  unfold State.monitor
  simp only [State.setF_deep, State.judgeRail_deep, State.judgeTemps_deep, foldl_deep, apply_ite State.deep, ite_self,
      implies_true]

end Sys2Proof.Machine
end

