-- ==== Sys2Proof/Laws/DeepBus.lean ====
section
/-!
SUPPORT. Laws/DeepBus.lean: one lemma per operation: it moves none of what `State.deep` shows (the host window, time, bus
    writes, Damuf and the DAU).
-/

namespace Sys2Proof.Machine

theorem State.windowWord_deep (s : State) (a : Nat) : (State.windowWord s a).2.2.deep = s.deep := by
  unfold State.windowWord
  grind [State.memReadWord_deep, deep_upd, deep_time]

theorem State.windowWords_deep (s : State) (x0 : Nat) (x1 : Nat) : (State.windowWords s x0 x1).2.2.deep = s.deep := by
  induction x1 generalizing s x0 with
  | zero => rw [State.windowWords]
  | succ n ih => rw [State.windowWords]; dsimp only; rw [ih, State.windowWord_deep]

theorem State.windowRead_deep (s : State) (id : Ident) (off len : Nat) : (State.windowRead s id off len).deep = s.deep := by
  unfold State.windowRead
  simp only [State.windowWords_deep, State.obsv_deep, State.memDeny_deep, apply_ite State.deep, ite_self]

theorem State.windowWrite_deep (s : State) (id : Ident) (off : Nat) (b : List (Option Byte)) : (State.windowWrite s id off
    b).deep = s.deep := by
  unfold State.windowWrite
  simp only [State.ctxPoke_deep, State.windowWords'_deep, State.memDeny_deep, apply_ite State.deep, ite_self]

theorem State.scrubStart_deep (s : State) : (State.scrubStart s).deep = s.deep := by
  unfold State.scrubStart
  simp only [State.setF_deep, State.submit_deep, deep_upd, apply_ite State.deep, ite_self]

theorem State.scrubOff_deep (s : State) : (State.scrubOff s).deep = s.deep := by
  unfold State.scrubOff
  simp only [State.setF_deep, State.endAct_deep, deep_upd, apply_ite State.deep, ite_self]

theorem State.scrubLine_deep (s : State) : (State.scrubLine s).deep = s.deep := by
  unfold State.scrubLine
  simp only [State.memReadWords_deep, State.setF_deep, State.scrubOff_deep, deep_upd, apply_ite State.deep, ite_self]

theorem State.scrubEnd_deep (s : State) : (State.scrubEnd s).deep = s.deep := by
  unfold State.scrubEnd
  simp only [State.bump_deep, State.setF_deep, State.endAct_deep, apply_ite State.deep, ite_self]

theorem State.showIncr_deep (s : State) (v : Nat) : (State.showIncr s v).deep = s.deep := by
  unfold State.showIncr
  simp only [State.wr64_deep]

theorem deep_timeUse (s : State) : ({ s with time := { s.time with loUse := true, hiUse := true } } : State).deep = s.deep
    :=
  deep_time ..
theorem TimeState.due_incrPend (t : TimeState) (v : Nat) (a b : Bool) (h : t.incrPend = none) :
    ({ t with incrPend := some (v, t.frc.toNat), loUse := a, hiUse := b } : TimeState).due.at t.frc = t.due.at t.frc := by
  obtain ⟨frc, fb, tb, inc, ip, lo, hi, sp, b1, b2, b3, b4, b5⟩ := t
  cases h
  rcases sp with _ | ⟨z, i⟩ <;>
    simp only [TimeState.due, TimeState.stepFirst, TimeState.takeStep, TimeState.takeIncr, TimeState.isDue,
        TimeState.stepTo,
      TimeState.baseAt, TimeState.at] <;>
    grind
theorem deep_incrPend (s : State) (v : Nat) (a b : Bool) (h : s.time.incrPend = none) (g : incrOk v = true) :
    ({ s with time := { s.time with incrPend := some (v, s.tick), loUse := a, hiUse := b } } : State).deep = s.deep := by
  have := TimeState.due_incrPend s.time v a b h
  simp only [State.deep, State.structureInUse, State.now, State.tick, this, TimeState.pendOk, h, g]
theorem State.incrCommit_deep (s : State) (hi : Word) : (State.incrCommit s hi).deep = s.deep := by
  rw [State.incrCommit]
  dsimp only
  split
  · rw [State.showIncr_deep, State.setF_deep, deep_timeUse]
    split
    · rfl
    · exact State.setF_deep ..
  · rename_i h
    split
    · rename_i g
      rw [State.showIncr_deep, State.setF_deep, deep_incrPend _ _ _ _ (by simpa using h) g]
    · rw [State.showIncr_deep, State.setF_deep, deep_timeUse]

theorem State.updTcu_deep (s : State) (n : Nat) (f : Tcu → Tcu) : (State.updTcu s n f).deep = s.deep := by
  unfold State.updTcu
  simp only [deep_time]

theorem State.updTpo_deep (s : State) (o : Nat) (f : Tpo → Tpo) : (State.updTpo s o f).deep = s.deep := by
  unfold State.updTpo
  simp only [deep_time]

theorem State.tcuState_deep (s : State) (n st : Nat) : (State.tcuState s n st).deep = s.deep := by
  unfold State.tcuState
  simp only [State.setF_deep, State.setB_deep]

theorem State.tcuOff_deep (s : State) (n : Nat) : (State.tcuOff s n).deep = s.deep := by
  unfold State.tcuOff
  simp only [State.tcuState_deep, State.updTcu_deep]

theorem State.tcuArmNow_deep (s : State) (n : Nat) : (State.tcuArmNow s n).deep = s.deep := by
  unfold State.tcuArmNow
  simp only [State.tcuOff_deep, State.setF_deep, State.tcuState_deep, State.updTcu_deep, apply_ite State.deep, ite_self]

theorem State.tcuCtrl_deep (s : State) (n : Nat) (v : Word) : (State.tcuCtrl s n v).deep = s.deep := by
  unfold State.tcuCtrl
  simp only [State.wr_deep]

theorem State.tcuArm_deep (s : State) (n : Nat) (v : Word) : (State.tcuArm s n v).deep = s.deep := by
  unfold State.tcuArm
  simp only [State.tcuCtrl_deep, State.tcuArmNow_deep]

theorem State.tcuDisarm_deep (s : State) (n : Nat) (v : Word) : (State.tcuDisarm s n v).deep = s.deep := by
  unfold State.tcuDisarm
  simp only [State.tcuCtrl_deep, State.late_deep, State.tcuOff_deep, apply_ite State.deep, ite_self]

theorem State.tcuLoad_deep (s : State) (n : Nat) : (State.tcuLoad s n).deep = s.deep := by
  unfold State.tcuLoad
  grind [State.tcuState_deep, State.updTcu_deep, deep_upd, deep_time]

theorem State.tcuConsumers_deep (s : State) (n t : Nat) (late wake : Bool) : (State.tcuConsumers s n t late wake).deep =
    s.deep := by
  unfold State.tcuConsumers
  simp only [State.startEvent_deep, State.stopEvent_deep, State.eventTrigger_deep, State.wakeDom_deep, foldl_deep,
      apply_ite State.deep, ite_self, implies_true]

theorem State.tcuDecide_deep (s : State) (n : Nat) : (State.tcuDecide s n).deep = s.deep := by
  unfold State.tcuDecide
  grind [State.updTcu_deep, State.bump_deep, State.bpNote_deep, State.setF_deep, State.tcuOff_deep, State.emit_deep,
      State.tcuConsumers_deep, deep_upd, deep_time]

theorem State.tpoRise_deep (s : State) (n : Nat) (f : TcuFire) (o : Nat) : (State.tpoRise s n f o).deep = s.deep := by
  unfold State.tpoRise
  simp only [State.updTpo_deep, State.pinEdge_deep, apply_ite State.deep, ite_self]

theorem State.tcuLaunch_deep (s : State) (n : Nat) : (State.tcuLaunch s n).deep = s.deep := by
  unfold State.tcuLaunch
  (repeat' split) <;> simp only [State.updTcu_deep, State.tpoRise_deep, foldl_deep, implies_true]

theorem State.tpoFall_deep (s : State) (o : Nat) : (State.tpoFall s o).deep = s.deep := by
  unfold State.tpoFall
  grind [State.updTpo_deep, State.pinEdge_deep, deep_upd, deep_time]

theorem State.tpoCtrl_deep (s : State) (o : Nat) (v : Word) : (State.tpoCtrl s o v).deep = s.deep := by
  unfold State.tpoCtrl
  simp only [State.wr_deep, State.updTpo_deep, State.pinOut_deep, apply_ite State.deep, ite_self]

theorem State.tcuStep_deep (s : State) (n : Nat) (src was : Nat) : (State.tcuStep s n src was).deep = s.deep := by
  unfold State.tcuStep
  grind [State.updTcu_deep, State.bumpBy_deep, State.tcuState_deep, deep_upd, deep_time]

theorem State.tcusStep_deep (s : State) (src was : Nat) : (State.tcusStep s src was).deep = s.deep := by
  unfold State.tcusStep
  simp only [State.tcuStep_deep, foldl_deep, implies_true]

theorem TimeState.due_stepPend (t : TimeState) (z : Int) (h : t.stepPend = none) :
    ({ t with stepPend := some (z, t.frc.toNat) } : TimeState).due.at t.frc = t.due.at t.frc := by
  obtain ⟨frc, fb, tb, inc, ip, lo, hi, sp, b1, b2, b3, b4, b5⟩ := t
  cases h
  rcases ip with _ | ⟨v, i⟩ <;>
    simp only [TimeState.due, TimeState.stepFirst, TimeState.takeStep, TimeState.takeIncr, TimeState.isDue,
        TimeState.stepTo,
      TimeState.baseAt, TimeState.at] <;>
    grind
theorem deep_stepPend (s : State) (z : Int) (h : s.time.stepPend = none) :
    ({ s with time := { s.time with stepPend := some (z, s.tick) } } : State).deep = s.deep := by
  have := TimeState.due_stepPend s.time z h
  simp only [State.deep, State.structureInUse, State.now, State.tick, this, TimeState.pendOk]
theorem State.stepCommit_deep (s : State) (hi : Word) : (State.stepCommit s hi).deep = s.deep := by
  rw [State.stepCommit]
  split
  · exact State.setF_deep ..
  · rename_i h
    dsimp only
    rw [State.setF_deep, deep_stepPend _ _ (by simpa using h)]

theorem State.tbLoad_deep (s : State) (n : Nat) (v : Word) : (State.tbLoad s n v).deep = s.deep := by
  unfold State.tbLoad
  simp only [deep_time]

theorem State.stepTick_deep (s : State) : (State.stepTick s).deep = s.deep := by
  unfold State.stepTick
  simp only [deep_upd, apply_ite State.deep, ite_self]

theorem State.tciStamp_deep (s : State) (u : Nat) (rise : Bool) (f : Nat) : (State.tciStamp s u rise f).deep = s.deep := by
  unfold State.tciStamp
  simp only [State.bump_deep, State.setF_deep, State.setB_deep, State.emit_deep, deep_time, apply_ite State.deep, ite_self]

theorem State.anchor_deep (s : State) (tdc tickTdc : Nat) : (State.anchor s tdc tickTdc).deep = s.deep := by
  unfold State.anchor
  simp only [State.wr64_deep, State.setF_deep, deep_time, apply_ite State.deep, ite_self]

theorem State.alignUpdate_deep (s : State) : (State.alignUpdate s).deep = s.deep := by
  unfold State.alignUpdate
  grind [deep_upd, deep_time, State.deep, State.now]

theorem State.stage_deep (s : State) (off : Nat) (v : Word) : (State.stage s off v).deep = s.deep := by
  unfold State.stage
  simp only [State.setF_deep, deep_upd, apply_ite State.deep, ite_self]

theorem State.writePlain_deep (s : State) (off : Nat) (v : Word) : (State.writePlain s off v).deep = s.deep := by
  unfold State.writePlain
  grind [State.stage_deep, State.wr_deep, deep_upd, deep_time]

theorem State.writeAligned_deep (s : State) (k off : Nat) (v : Word) : (State.writeAligned s k off v).deep = s.deep := by
  unfold State.writeAligned
  simp only [State.writePlain_deep, apply_ite State.deep, ite_self]

theorem State.writeTime_deep (s : State) (off : Nat) (v : Word) : (State.writeTime s off v).deep = s.deep := by
  unfold State.writeTime
  simp only [State.incrCommit_deep, State.writePlain_deep, State.stepCommit_deep, State.tcuArm_deep, State.tcuDisarm_deep,
      State.tpoCtrl_deep, State.tbLoad_deep, deep_time, apply_ite State.deep, ite_self]

theorem State.runCmd_deep (s : State) (v : Word) : (State.runCmd s v).deep = s.deep := by
  unfold State.runCmd
  simp only [State.runArm_deep, State.runDisarm_deep, State.hostStart_deep, State.stopAtSnCmd_deep, State.hostStop_deep,
      apply_ite State.deep, ite_self]

theorem State.writeQpwr_deep (s : State) (v : Word) : (State.writeQpwr s v).deep = s.deep := by
  unfold State.writeQpwr
  simp only [State.setF_deep, State.quadReq_deep, State.quadOff_deep, foldl_deep, apply_ite State.deep, ite_self,
      implies_true]

theorem State.writeSync_deep (s : State) (v : Word) : (State.writeSync s v).deep = s.deep := by
  unfold State.writeSync
  simp only [State.writePlain_deep, deep_upd, apply_ite State.deep, ite_self]

theorem State.writeAfe_deep (s : State) (off : Nat) (v : Word) : (State.writeAfe s off v).deep = s.deep := by
  unfold State.writeAfe
  simp only [State.runCmd_deep, State.pllCommit_deep, State.writeQpwr_deep, State.writeSync_deep, State.writePlain_deep,
      apply_ite State.deep, ite_self]

theorem State.writeCal_deep (s : State) (off : Nat) (v : Word) : (State.writeCal s off v).deep = s.deep := by
  unfold State.writeCal
  simp only [State.calrun_deep, State.calAbort_deep, State.calsaveSubmit_deep, State.writePlain_deep, apply_ite State.deep,
      ite_self]

theorem State.writeCnd_deep (s : State) (off : Nat) (v : Word) : (State.writeCnd s off v).deep = s.deep := by
  unfold State.writeCnd
  simp only [State.delayNow_deep, State.writePlain_deep, apply_ite State.deep, ite_self]

theorem State.firWrite_deep (s : State) (c b off : Nat) (v : Word) : (State.firWrite s c b off v).deep = s.deep := by
  unfold State.firWrite
  simp only [State.setF_deep, State.land_deep, State.showCharge_deep, apply_ite State.deep, ite_self]

theorem State.writeFir_deep (s : State) (off : Nat) (v : Word) : (State.writeFir s off v).deep = s.deep := by
  unfold State.writeFir
  simp only [State.firWrite_deep, State.writePlain_deep, apply_ite State.deep, ite_self]

theorem State.bmfWrite_deep (s : State) (b off : Nat) (v : Word) : (State.bmfWrite s b off v).deep = s.deep := by
  unfold State.bmfWrite
  simp only [State.setF_deep, State.land_deep, apply_ite State.deep, ite_self]

theorem State.writeBmf_deep (s : State) (off : Nat) (v : Word) : (State.writeBmf s off v).deep = s.deep := by
  unfold State.writeBmf
  simp only [State.bankCopy_deep, State.bmfWrite_deep, State.writePlain_deep, apply_ite State.deep, ite_self]

theorem State.writeTrg_deep (s : State) (off : Nat) (v : Word) : (State.writeTrg s off v).deep = s.deep := by
  unfold State.writeTrg
  simp only [State.trgNow_deep, State.trgForce_deep, State.writePlain_deep, apply_ite State.deep, ite_self]

theorem State.writeMem_deep (s : State) (off : Nat) (v : Word) : (State.writeMem s off v).deep = s.deep := by
  unfold State.writeMem
  simp only [State.writePlain_deep, State.scrubOff_deep, apply_ite State.deep, ite_self]

theorem State.writeEqCtrl_deep (s : State) (id : Ident) (n : Nat) (v : Word) : (State.writeEqCtrl s id n v).deep = s.deep
    := by
  unfold State.writeEqCtrl
  simp only [State.flushRefused_deep, State.deny_deep, State.writePlain_deep, State.eqFlush_deep, apply_ite State.deep,
      ite_self]

theorem State.writeFlw_deep (s : State) (id : Ident) (off : Nat) (v : Word) : (State.writeFlw s id off v).deep = s.deep :=
    by
  unfold State.writeFlw
  simp only [State.writeEqCtrl_deep, State.fqFlush_deep, State.writePlain_deep, State.fqLimited_deep, State.wqFlush_deep,
      apply_ite State.deep, ite_self]

theorem State.writeStr_deep (s : State) (off : Nat) (v : Word) : (State.writeStr s off v).deep = s.deep := by
  unfold State.writeStr
  simp only [State.writePlain_deep, State.failbackReq_deep, State.setF_deep, apply_ite State.deep, ite_self]

theorem State.writeKey_deep (s : State) (id : Ident) (off : Nat) (v : Word) : (State.writeKey s id off v).deep = s.deep :=
    by
  unfold State.writeKey
  simp only [State.wr_deep, State.bump_deep, apply_ite State.deep, ite_self]

theorem State.writeNet_deep (s : State) (id : Ident) (off : Nat) (v : Word) : (State.writeNet s id off v).deep = s.deep :=
    by
  unfold State.writeNet
  simp only [State.suspectAck_deep, State.suspectSet_deep, State.writeKey_deep, State.writePlain_deep,
      State.restartPort_deep, State.readapt_deep, State.updPtp_deep, State.clkMove_deep, apply_ite State.deep, ite_self]

theorem State.writeRing_deep (s : State) (f r off : Nat) (v : Word) : (State.writeRing s f r off v).deep = s.deep := by
  unfold State.writeRing
  simp only [State.ringCtrl_deep, State.piWrite_deep, State.setF_deep, State.writeAligned_deep, State.writePlain_deep,
      apply_ite State.deep, ite_self]

theorem State.writeHif_deep (s : State) (off : Nat) (v : Word) : (State.writeHif s off v).deep = s.deep := by
  unfold State.writeHif
  simp only [State.applyArm_deep, State.applyDisarm_deep, State.writeRing_deep, State.writePlain_deep,
      apply_ite State.deep, ite_self]

theorem State.writePwr_deep (s : State) (id : Ident) (off : Nat) (v : Word) : (State.writePwr s id off v).deep = s.deep :=
    by
  unfold State.writePwr
  simp only [State.softWarm_deep, State.blkReset_deep, State.writePlain_deep, State.saveRestart_deep, State.submit_deep,
      State.domCtrl_deep, apply_ite State.deep, ite_self]

theorem State.writeUpd_deep (s : State) (id : Ident) (off : Nat) (v : Word) : (State.writeUpd s id off v).deep = s.deep :=
    by
  unfold State.writeUpd
  simp only [State.reformWrite_deep, State.writeAligned_deep, State.updClose_deep, State.updCtrl_deep, State.updPush_deep,
      State.writePlain_deep, apply_ite State.deep, ite_self]

theorem State.writeMnt_deep (s : State) (off : Nat) (v : Word) : (State.writeMnt s off v).deep = s.deep := by
  unfold State.writeMnt
  simp only [State.writePlain_deep, State.pinEdge_deep]

theorem State.writeEff_deep (s : State) (id : Ident) (off : Nat) (v : Word) : (State.writeEff s id off v).deep = s.deep :=
    by
  unfold State.writeEff
  grind [State.fence_deep, State.writePwr_deep, State.writeTime_deep, State.writeFlw_deep, State.writeMem_deep,
      State.dbgCtrl_deep, State.writePlain_deep, State.writeUpd_deep, State.writeCal_deep, State.writeAfe_deep,
      State.writeTrg_deep, State.sntAbort_deep, State.writeStr_deep, State.writeNet_deep, State.writeHif_deep,
      State.writeMnt_deep, State.writeCnd_deep, State.writeFir_deep, State.writeBmf_deep, deep_upd, deep_time]

theorem State.mbxWrite_deep (s : State) (id : Ident) (n off : Nat) (v : Word) : (State.mbxWrite s id n off v).deep = s.deep
    := by
  unfold State.mbxWrite
  simp only [State.mbxCompose_deep, State.mbxDoorbell_deep, State.writePlain_deep, State.pinEdge_deep,
      apply_ite State.deep, ite_self]

theorem State.busWriteAs_deep (s : State) (k : HeldKind) (id : Ident) (off : Nat) (v : Word) : (State.busWriteAs s k id off
    v).deep = s.deep := by
  unfold State.busWriteAs
  grind [State.deny_deep, State.mbxGated_deep, State.mbxWrite_deep, State.lockGated_deep, State.goBehind_deep,
      State.msixWrite_deep, State.bpReg_deep, State.gatedAs_deep, State.wr_deep, State.writeEff_deep, deep_upd, deep_time]

theorem State.busWrite_deep (s : State) (id : Ident) (off : Nat) (v : Word) : (State.busWrite s id off v).deep = s.deep :=
    by
  unfold State.busWrite
  grind [State.busWriteAs_deep, deep_upd, deep_time]

theorem State.writeReq_deep (s : State) (id : Ident) (off : Nat) (req : BarWrite) : (State.writeReq s id off req).deep =
    s.deep := by
  unfold State.writeReq
  grind [State.busWrite_deep, State.badReq_deep, deep_upd, deep_time]

theorem State.showHeld_deep (s : State) (d : Nat) (no : Bool) : (State.showHeld s d no).deep = s.deep := by
  rw [State.showHeld, deep_dbg]

theorem State.heldRead_deep (s : State) (h : HeldWrite) : (State.heldRead s h).deep = s.deep := by
  rw [State.heldRead]
  split
  · rw [State.showHeld_deep, State.busRead_deep]
  · exact State.readNow_deep ..

theorem State.replay_deep (s : State) (x0 : List HeldWrite) : (State.replay s x0).deep = s.deep := by
  fun_induction State.replay <;> grind [State.busWriteAs_deep, State.holdRead_deep, State.heldRead_deep, deep_upd,
      deep_time]

theorem State.behindGo_deep (s : State) (id : Ident) (p : HeldWrite → Bool) : (State.behindGo s id p).deep = s.deep := by
  unfold State.behindGo
  simp only [State.replay_deep, deep_upd]

theorem State.fenceDone_deep (s : State) (id : Ident) : (State.fenceDone s id).deep = s.deep := by
  unfold State.fenceDone
  simp only [State.fenceOver_deep, State.allEarly_deep, State.behindGo_deep, apply_ite State.deep, ite_self]

theorem State.release_deep (s : State) (x0 : List HeldWrite) : (State.release s x0).deep = s.deep := by
  fun_induction State.release <;> grind [State.writeEff_deep, State.bpReg_deep, State.wr_deep, State.heldRead_deep,
      deep_upd, deep_time]

theorem State.followers_deep (s : State) (id : Ident) : (State.followers s id).deep = s.deep := by
  unfold State.followers
  simp only [State.behindGo_deep, deep_upd, apply_ite State.deep, ite_self]

theorem State.domainOn_deep (s : State) (d : Nat) : (State.domainOn s d).deep = s.deep := by
  unfold State.domainOn
  simp only [State.domRise_deep, State.release_deep, State.follow_deep, State.followers_deep, foldl_deep, deep_upd,
      apply_ite State.deep, ite_self, implies_true]

theorem State.dmfFrame_deep (s : State) (p : Nat) (b pay : List Byte) : (State.dmfFrame s p b pay).2.deep = s.deep := by
  unfold State.dmfFrame
  grind [State.free_deep, deep_upd, deep_time]

theorem State.dmfSend_deep (s : State) (p : Nat) (b u : List Byte) (a : DmfAns) : (State.dmfSend s p b u a).deep = s.deep
    := by
  unfold State.dmfSend
  simp only [State.dmfFrame_deep, State.updPort_deep]

theorem State.damuf_deep (s : State) (mine : Nat → Nat → Bool) (run : DmfRun) (hrun : ∀ t k b, (run t k b).2.deep = t.deep)
    : (State.damuf s mine run).deep = s.deep := by
  rw [State.damuf]
  split
  · rfl
  · split
    · rfl
    · dsimp only
      split
      · rw [State.dmfFailed_deep]; rfl
      · split
        · rw [State.dmfSend_deep, hrun, State.bump_deep, State.wr64_deep]; rfl
        · rfl

theorem State.dmfRd_deep (s : State) (off : Nat) : (State.dmfRd s off).2.2.deep = s.deep := by
  unfold State.dmfRd
  grind [State.busRead_deep, deep_upd, deep_time]

theorem State.dmfRds_deep (s : State) (off : Nat) (x0 : Nat) : (State.dmfRds s off x0).2.2.deep = s.deep := by
  fun_induction State.dmfRds <;> grind [State.dmfRd_deep, deep_upd, deep_time]

theorem State.dmfRead_deep (s : State) (_k : Nat) (b : List Byte) : (State.dmfRead s _k b).2.deep = s.deep := by
  unfold State.dmfRead
  grind [State.dmfRds_deep, deep_upd, deep_time]

theorem State.dmfWr_deep (s : State) (k off : Nat) (v : Word) : (State.dmfWr s k off v).2.deep = s.deep := by
  unfold State.dmfWr
  grind [State.busWriteAs_deep, deep_upd, deep_time]

theorem State.dmfWrs_deep (s : State) (k off : Nat) (x0 : List Word) : (State.dmfWrs s k off x0).2.2.deep = s.deep := by
  fun_induction State.dmfWrs <;> grind [State.dmfWr_deep, deep_upd, deep_time]

theorem State.dmfWrite_deep (s : State) (k : Nat) (b : List Byte) : (State.dmfWrite s k b).2.deep = s.deep := by
  unfold State.dmfWrite
  grind [State.dmfWrs_deep, deep_upd, deep_time]

theorem State.damufRead_deep (s : State) (op : Nat) (k : Nat) (b : List Byte) : (State.damufRead s op k b).2.deep = s.deep
    := by
  unfold State.damufRead
  grind [State.dmfRead_deep, deep_upd, deep_time]

theorem State.dmfCaps_deep (s : State) (_k : Nat) (b : List Byte) : (State.dmfCaps s _k b).2.deep = s.deep := by
  unfold State.dmfCaps
  grind [State.setF_deep, deep_upd, deep_time]

theorem State.updSay_deep (s : State) (sub_ : Nat) (busy : Option Nat) : (State.updSay s sub_ busy).2.deep = s.deep := by
  unfold State.updSay
  grind [deep_upd, deep_time]

theorem State.updBy_deep (s : State) (sub_ : Nat) (b : List Byte) (f : State → State) (hf : ∀ s, (f s).deep = s.deep) :
    (State.updBy s sub_ b f).2.deep = s.deep := by
  unfold State.updBy
  (repeat' split) <;> simp only [State.updOwned_deep, State.updSay_deep, hf, implies_true]

theorem State.updAny_deep (s : State) (sub_ : Nat) (b : List Byte) (f : State → State) (hf : ∀ s, (f s).deep = s.deep) :
    (State.updAny s sub_ b f).2.deep = s.deep := by
  unfold State.updAny
  (repeat' split) <;> simp only [State.updSay_deep, hf]

theorem State.dmfOpen_deep (s : State) (_k : Nat) (b : List Byte) : (State.dmfOpen s _k b).2.deep = s.deep := by
  unfold State.dmfOpen
  grind [State.gatedRead_deep, State.updOpen_deep, State.updSay_deep, deep_upd, deep_time]

theorem State.dmfData_deep (s : State) (_k : Nat) (b : List Byte) : (State.dmfData s _k b).2.deep = s.deep := by
  unfold State.dmfData
  simp only [State.updBy_deep, State.updTake_deep, apply_ite State.deep, ite_self, implies_true]

theorem State.dmfActivate_deep (s : State) (_k : Nat) (b : List Byte) : (State.dmfActivate s _k b).2.deep = s.deep := by
  unfold State.dmfActivate
  simp only [State.updBy_deep, State.setF_deep, State.updActivate_deep, implies_true]

theorem State.dmfEnd_deep (s : State) (sub_ : Nat) (b : List Byte) : (State.dmfEnd s sub_ b).2.deep = s.deep := by
  unfold State.dmfEnd
  simp only [State.updBy_deep, State.updEnd_deep, apply_ite State.deep, ite_self, implies_true]

theorem State.dauBar0_deep (s : State) (addr : Nat) (write : Bool) (v : Word) : (State.dauBar0 s addr write v).2.deep =
    s.deep := by
  unfold State.dauBar0
  grind [State.badReq_deep, State.busWrite_deep, State.busRead_deep, deep_upd, deep_time]

theorem State.dauBar2_deep (s : State) (addr : Nat) (write : Bool) (v : Word) : (State.dauBar2 s addr write v).2.deep =
    s.deep := by
  unfold State.dauBar2
  grind [State.setF_deep, State.memDeny_deep, State.windowWrite_deep, State.windowWords_deep, deep_upd, deep_time]

theorem State.dauRun_deep (s : State) (w : Nat) : (State.dauRun s w).deep = s.deep := by
  unfold State.dauRun
  grind [State.holdRead_deep, State.dauBar2_deep, State.dauBar0_deep, State.free_deep, foldl_deep, deep_upd, deep_time,
      State.deep, State.now]

theorem State.dauLate_deep (s : State) : (State.dauLate s).2.deep = s.deep := by
  rw [State.dauLate]
  split <;> exact State.free_deep s

theorem State.dauAccess_deep (s : State) (w : Nat) : (State.dauAccess s w).deep = s.deep := by
  rw [State.dauAccess]
  split
  · rw [deep_dbg, State.obsv_deep, State.irLoad_deep]
  · split
    · dsimp only
      split
      · rw [State.dauRun_deep, State.obsv_deep, State.dauLate_deep, State.irLoad_deep]
      · split
        · rw [State.obsv_deep, State.free_deep, State.dauLate_deep, State.irLoad_deep]
        · rw [State.dauRun_deep, State.obsv_deep, State.free_deep, State.dauLate_deep, State.irLoad_deep]
    · rw [State.dauRun_deep, State.obsv_deep, State.irLoad_deep]

end Sys2Proof.Machine
end

