-- ==== Sys2Proof/Laws/DeepLoad.lean ====
section
/-!
SUPPORT. Laws/DeepLoad.lean: the operations that load an image, and the steps of the time base: what of `State.deep` they
    keep.
-/

namespace Sys2Proof.Machine

theorem base_image (s : State) (x) : ({ s with image := x } : State).deep.base = s.deep.base := rfl

theorem State.putImage_base (s : State) (m : Image) : (s.putImage m).deep.base = s.deep.base := by
  unfold State.putImage
  simp only [State.putFields_deep, base_image]

theorem State.bareIn_base (s : State) : s.bareIn.deep.base = s.deep.base := by
  unfold State.bareIn
  dsimp only
  rw [State.chainsStart_deep, State.fqStart_deep, State.wqStart_deep, State.memZero_deep, State.setDom_deep, foldl_deep,
    State.putFields_deep, base_image]
  intro s x
  rw [State.setDom_deep, State.setDom_deep, State.setF_deep]

theorem State.imageIn_base (s : State) (m : Image) (slot : Nat) : (s.imageIn m slot).deep.base = s.deep.base := by
  unfold State.imageIn
  dsimp only
  rw [State.memStart_deep, State.chainsStart_deep, State.primaries_deep, State.wqStart_deep, State.bindTable_deep,
    State.setF_deep, State.setF_deep, State.putImage_base]

theorem State.coldLoad_base (s : State) (g : List Nat) (slot : Nat) (m : Image) :
    (s.coldLoad g slot m).deep.base = s.deep.base := by
  unfold State.coldLoad
  dsimp only
  rw [State.pllRestore_deep, State.storeUsed_deep, State.powerQuads_deep, State.portsStart_deep, State.domsOn_deep,
    State.settled_deep, State.calHeads_deep, State.settingsIn_deep, State.restoreSets_deep, State.imageIn_base]

theorem State.reformLoad_base (s : State) (slot : Nat) (x : Option Image) (cause : Nat) :
    (s.reformLoad slot x cause).deep.base = s.deep.base := by
  unfold State.reformLoad
  dsimp only
  split
  · rw [State.settled_deep, State.portsAfter_deep, State.bareIn_base]
  · rw [State.portsAfter_deep, State.pllRecommit_deep, State.powerQuads_deep, State.settled_deep]
    split
    · rw [State.settingsIn_deep, State.takeHalf_deep, State.imageIn_base]
    · rw [State.settingsIn_deep, State.keepOrDefault_deep, State.imageIn_base]

theorem State.loadPass_base (s : State) : s.loadPass.deep.base = s.deep.base := by
  rw [State.loadPass]
  split
  · rfl
  · split
    · dsimp only
      rw [State.reformAfter_deep, State.reformDone_deep, State.reformLoad_base, State.pauseAllBg_deep, deep_reform,
        State.runOver_deep, State.applyDiscard_deep, State.reformStreams_deep]
      split
      · rw [State.decideBefore_deep, State.detectRest_deep, State.setF_deep]
      · rw [State.setF_deep]
    · rfl

theorem State.completeLoad_base (s : State) (g : List Nat) (r : ReformReq) : (s.completeLoad g r).deep.base = s.deep.base
    := by
  rw [State.completeLoad]
  split
  · split
    · rw [State.reformDone_deep, State.reformLoad_base, State.wr_deep, State.firstGood_deep, State.showCheck_deep]
    · rw [State.reformDone_deep, State.reformLoad_base]
  · split
    · rw [State.reformDone_deep, State.reformLoad_base, State.wr_deep, State.firstGood_deep, State.showCheck_deep,
        State.mntFault_deep]
    · rw [State.reformDone_deep, State.reformLoad_base]

theorem State.warmFallback_base (s : State) (g : List Nat) : (s.warmFallback g).deep.base = s.deep.base := by
  rw [State.warmFallback]
  dsimp only
  rw [State.fallbackEnds_deep, State.reformDone_deep, State.reformLoad_base, State.firstGood_deep]

theorem State.firstGood_base (s : State) (g l : List Nat) : (s.firstGood g l).2.deep.base = s.deep.base := by
  rw [State.firstGood_deep]

theorem State.powerLoad_base (s : State) (g : List Nat) : (s.powerLoad g).deep.base = s.deep.base := by
  unfold State.powerLoad
  dsimp only
  have h := s.firstGood_deep g (if s.jActive = 0 then [] else [s.jActive, 3 - s.jActive])
  generalize s.firstGood g (if s.jActive = 0 then [] else [s.jActive, 3 - s.jActive]) = z at h ⊢
  obtain ⟨x, w⟩ := z
  cases x with
  | none =>
    have k : ((w.bareIn.domsOn.setF F.PWR_STATUS_SET_SRC 3).ready 0).deep.base = s.deep.base := by
      rw [State.ready_deep, State.setF_deep, State.domsOn_deep, State.bareIn_base, h]
    dsimp only
    split
    · rw [State.fallbackEnds_deep, k]
    · exact k
  | some y =>
    have k : ((w.coldLoad g y.1 y.2).ready 0).deep.base = s.deep.base := by
      rw [State.ready_deep, State.coldLoad_base, h]
    dsimp only
    split
    · rw [State.fallbackEnds_deep, k]
    · exact k

theorem State.powerUp_base (s : State) (g : List Nat) : (s.powerUp g).deep.base = s.deep.base := by
  rw [State.powerUp]
  split
  · rw [State.journalRead_deep, State.powerFirst_deep, deep_pwr]
  · split
    · rw [State.powerLoad_base, State.plan_deep, State.powerFirst_deep, deep_pwr]
    · rfl

theorem State.warmLoad_base (s : State) (g : List Nat) : (s.warmLoad g).deep.base = s.deep.base := by
  rw [State.warmLoad]
  split
  · rw [State.warmFallback_base]
  · split
    · rw [State.completeLoad_base]
    · rfl

theorem State.warmEnd_base (s : State) (l : Bool) (n : Nat) (g : List Nat) : (s.warmEnd l n g).deep.base = s.deep.base := by
  rw [State.warmEnd]
  split
  · rw [State.warmReady_deep, State.warmLoad_base, State.portsStart_deep, State.powerQuads_deep, State.settled_deep,
      State.chainsKeep_deep, State.primariesNow_deep, State.calPhases_deep, State.domsOn_deep, State.retRestore_deep,
      State.bumpBy_deep, State.plan_deep, deep_pwr]
  · rfl

end Sys2Proof.Machine
end

