-- ==== Sys2Proof/Laws/Flash.lean ====
section
/-!
SUPPORT. Laws/Flash.lean: the structures that the flash holds as bytes (R380, R387, R389): what is written into them is what is
read from them, and the entry that a journal write leaves governs.
-/

namespace Sys2Proof.Machine

/-! ### Bytes -/

theorem leBytes_length (k n : Nat) : (leBytes k n).length = k := by
  induction k generalizing n with
  | zero => rfl
  | succ k ih => simp [leBytes, ih]

theorem ofLe_leBytes (k n : Nat) : ofLe (leBytes k n) = n % 256 ^ k := by
  induction k generalizing n with
  | zero => simp [leBytes, ofLe, Nat.mod_one]
  | succ k ih =>
    have e : n % 256 ^ (k + 1) = n % 256 + 256 * (n / 256 % 256 ^ k) := by
      rw [Nat.pow_succ, Nat.mul_comm (256 ^ k) 256, Nat.mod_mul]
    rw [e]
    simp [leBytes, ofLe, ih]

/-- The field behind a prefix of its offset's length. -/
theorem leAt_field (a c : List Byte) (i k n : Nat) (h : a.length = i) :
    leAt (a ++ (leBytes k n ++ c)) i k = n % 256 ^ k := by
  unfold leAt sub
  rw [← h, List.drop_left, List.take_left' (leBytes_length k n), ofLe_leBytes]

theorem withCrc_length (l : List Byte) : (withCrc l).length = l.length + 4 := by
  simp [withCrc, leBytes_length]

/-- 60 bytes under a MAGIC are good once their CRC is behind them. -/
theorem good64_withCrc (magic l : List Byte) (hm : magic.length = 4) (h : (magic ++ l).length = 60) :
    good64 magic (withCrc (magic ++ l)) = true := by
  have h0 : (withCrc (magic ++ l)).length = 64 := by rw [withCrc_length, h]
  have h1 : sub (withCrc (magic ++ l)) 0 4 = magic := by
    unfold sub withCrc
    rw [List.drop_zero, List.append_assoc, List.take_left' hm]
  have h2 : leAt (withCrc (magic ++ l)) 60 4 = (crc32 (magic ++ l)).toNat := by
    have := leAt_field (magic ++ l) [] 60 4 (crc32 (magic ++ l)).toNat h
    rw [List.append_nil] at this
    rw [withCrc, this]
    exact Nat.mod_eq_of_lt (crc32 (magic ++ l)).isLt
  have h3 : (withCrc (magic ++ l)).take 60 = magic ++ l := by rw [withCrc, List.take_left' h]
  simp [good64, h0, h1, h2, h3]

theorem ofLe_lt (l : List Byte) : ofLe l < 256 ^ l.length := by
  induction l with
  | nil => simp [ofLe]
  | cons b t ih =>
    have := b.isLt
    simp only [ofLe, List.length_cons, Nat.pow_succ]
    omega

/-- A field of `k` bytes is below 256 ^ k. -/
theorem leAt_lt (l : List Byte) (i k : Nat) : leAt l i k < 256 ^ k :=
  Nat.lt_of_lt_of_le (ofLe_lt _) (Nat.pow_le_pow_right (by decide) (List.length_take_le _ _))

/-! ### The journal (R389) -/

/-- An entry whose fields have their widths. -/
def JEntry.fits (e : JEntry) : Prop :=
  e.seq < 2 ^ 32 ∧ e.state < 256 ∧ e.active < 256 ∧ e.other < 256 ∧ e.pre < 256 ∧ e.verA < 2 ^ 32 ∧ e.verB < 2 ^ 32

/-- The bytes of an entry hold it. -/
theorem jEntry_bytes (e : JEntry) (h : e.fits) : jEntry? e.bytes = some e := by
  obtain ⟨h1, h2, h3, h4, h5, h6, h7⟩ := h
  have hg : good64 jMagic e.bytes = true := by
    unfold JEntry.bytes
    simp only [List.append_assoc]
    exact good64_withCrc _ _ rfl (by simp [leBytes_length, zeros, jMagic])
  have f1 : leAt e.bytes 4 4 = e.seq % 256 ^ 4 := by
    unfold JEntry.bytes withCrc
    simp only [List.append_assoc]
    exact leAt_field _ _ _ _ _ rfl
  have f2 : leAt e.bytes 8 1 = e.state % 256 ^ 1 := by
    unfold JEntry.bytes withCrc
    simp only [List.append_assoc]
    rw [← List.append_assoc jMagic]
    exact leAt_field _ _ _ _ _ (by simp [leBytes_length, jMagic])
  have f3 : leAt e.bytes 9 1 = e.active % 256 ^ 1 := by
    unfold JEntry.bytes withCrc
    simp only [List.append_assoc]
    rw [← List.append_assoc jMagic, ← List.append_assoc (jMagic ++ _)]
    exact leAt_field _ _ _ _ _ (by simp [leBytes_length, jMagic])
  have f4 : leAt e.bytes 10 1 = e.other % 256 ^ 1 := by
    unfold JEntry.bytes withCrc
    simp only [List.append_assoc]
    rw [← List.append_assoc jMagic, ← List.append_assoc (jMagic ++ _), ← List.append_assoc (jMagic ++ _ ++ _)]
    exact leAt_field _ _ _ _ _ (by simp [leBytes_length, jMagic])
  have f5 : leAt e.bytes 11 1 = e.pre % 256 ^ 1 := by
    unfold JEntry.bytes withCrc
    simp only [List.append_assoc]
    rw [← List.append_assoc jMagic, ← List.append_assoc (jMagic ++ _), ← List.append_assoc (jMagic ++ _ ++ _),
      ← List.append_assoc (jMagic ++ _ ++ _ ++ _)]
    exact leAt_field _ _ _ _ _ (by simp [leBytes_length, jMagic])
  have f6 : leAt e.bytes 12 4 = e.verA % 256 ^ 4 := by
    unfold JEntry.bytes withCrc
    simp only [List.append_assoc]
    rw [← List.append_assoc jMagic, ← List.append_assoc (jMagic ++ _), ← List.append_assoc (jMagic ++ _ ++ _),
      ← List.append_assoc (jMagic ++ _ ++ _ ++ _), ← List.append_assoc (jMagic ++ _ ++ _ ++ _ ++ _)]
    exact leAt_field _ _ _ _ _ (by simp [leBytes_length, jMagic])
  have f7 : leAt e.bytes 16 4 = e.verB % 256 ^ 4 := by
    unfold JEntry.bytes withCrc
    simp only [List.append_assoc]
    rw [← List.append_assoc jMagic, ← List.append_assoc (jMagic ++ _), ← List.append_assoc (jMagic ++ _ ++ _),
      ← List.append_assoc (jMagic ++ _ ++ _ ++ _), ← List.append_assoc (jMagic ++ _ ++ _ ++ _ ++ _),
      ← List.append_assoc (jMagic ++ _ ++ _ ++ _ ++ _ ++ _)]
    exact leAt_field _ _ _ _ _ (by simp [leBytes_length, jMagic])
  rw [jEntry?, if_pos hg, f1, f2, f3, f4, f5, f6, f7, show e.seq % 256 ^ 4 = e.seq from Nat.mod_eq_of_lt h1,
    show e.state % 256 ^ 1 = e.state from Nat.mod_eq_of_lt h2, show e.active % 256 ^ 1 = e.active from Nat.mod_eq_of_lt h3,
    show e.other % 256 ^ 1 = e.other from Nat.mod_eq_of_lt h4, show e.pre % 256 ^ 1 = e.pre from Nat.mod_eq_of_lt h5,
    show e.verA % 256 ^ 4 = e.verA from Nat.mod_eq_of_lt h6, show e.verB % 256 ^ 4 = e.verB from Nat.mod_eq_of_lt h7]

theorem topEntry_mem (l : List JEntry) (x : JEntry) (h : topEntry l = some x) : x ∈ l := by
  induction l generalizing x with
  | nil => cases h
  | cons e t ih =>
    simp only [topEntry] at h
    split at h
    · simp_all
    · rename_i y hy
      split at h <;> simp_all

/-- No entry has a higher SEQ than the top one. -/
theorem topEntry_max (l : List JEntry) (e : JEntry) (h : e ∈ l) : ∃ x, topEntry l = some x ∧ e.seq ≤ x.seq := by
  induction l with
  | nil => cases h
  | cons a t ih =>
    simp only [topEntry]
    cases ht : topEntry t with
    | none =>
      rcases List.mem_cons.1 h with rfl | h
      · exact ⟨_, rfl, Nat.le_refl _⟩
      · obtain ⟨x, hx, -⟩ := ih h
        rw [ht] at hx; cases hx
    | some y =>
      have hy : e ∈ t → e.seq ≤ y.seq := fun h => by
        obtain ⟨x, hx, hl⟩ := ih h
        rw [ht] at hx; cases hx; exact hl
      dsimp only
      rcases List.mem_cons.1 h with rfl | h
      · split
        · exact ⟨_, rfl, Nat.le_refl _⟩
        · exact ⟨_, rfl, by omega⟩
      · have := hy h
        split
        · exact ⟨_, rfl, by omega⟩
        · exact ⟨_, rfl, this⟩

/-- An entry above all others governs. -/
theorem topEntry_of_lt (l : List JEntry) (e : JEntry) (h : e ∈ l) (hl : ∀ x ∈ l, x = e ∨ x.seq < e.seq) :
    topEntry l = some e := by
  obtain ⟨x, hx, hle⟩ := topEntry_max l e h
  rcases hl x (topEntry_mem l x hx) with rfl | hlt
  · exact hx
  · omega

/-- SEQ of every entry of the journal is below the next one's. -/
theorem Flash.seq_lt (f : Flash) (n : Nat) (h : (match f.journal with | none => 0 | some j => j.seq + 1) ≤ n) (b : List Byte)
    (hb : b ∈ f.journA ++ f.journB) (x : JEntry) (hx : jEntry? b = some x) : x.seq < n := by
  have hm : x ∈ (f.journA ++ f.journB).filterMap jEntry? := List.mem_filterMap.2 ⟨b, hb, hx⟩
  obtain ⟨y, hy, hle⟩ := topEntry_max _ x hm
  rw [Flash.journal, hy] at h
  dsimp only at h
  omega

/-- What an appended entry leaves in the two areas: itself, and entries that were there. -/
theorem Flash.jAppend_mem (f : Flash) (b : List Byte) :
    b ∈ (f.jAppend b).journA ++ (f.jAppend b).journB ∧
    ∀ c ∈ (f.jAppend b).journA ++ (f.jAppend b).journB, c = b ∨ c ∈ f.journA ++ f.journB := by
  unfold Flash.jAppend
  split <;> split <;> constructor <;> simp only [List.mem_append, List.mem_singleton] <;> tauto

/-- An entry appended with a higher SEQ governs. -/
theorem Flash.jAppend_journal (f : Flash) (e : JEntry) (he : e.fits)
    (hs : (match f.journal with | none => 0 | some j => j.seq + 1) ≤ e.seq) : (f.jAppend e.bytes).journal = some e := by
  obtain ⟨h1, h2⟩ := f.jAppend_mem e.bytes
  refine topEntry_of_lt _ e (List.mem_filterMap.2 ⟨_, h1, jEntry_bytes e he⟩) (fun x hx => ?_)
  obtain ⟨c, hc, hcx⟩ := List.mem_filterMap.1 hx
  rcases h2 c hc with rfl | hc
  · rw [jEntry_bytes e he] at hcx
    exact .inl (Option.some.inj hcx).symm
  · exact .inr (f.seq_lt _ hs c hc x hcx)

@[simp] theorem Flash.jAppend_slots (f : Flash) (b : List Byte) : (f.jAppend b).slots = f.slots := by
  unfold Flash.jAppend; split <;> split <;> rfl
@[simp] theorem Flash.jAppend_sets (f : Flash) (b : List Byte) : (f.jAppend b).sets = f.sets := by
  unfold Flash.jAppend; split <;> split <;> rfl
@[simp] theorem Flash.jAppend_cals (f : Flash) (b : List Byte) : (f.jAppend b).cals = f.cals := by
  unfold Flash.jAppend; split <;> split <;> rfl

theorem State.slotVer_lt (s : State) (i : Nat) : s.slotVer i < 2 ^ 32 := by
  unfold State.slotVer
  split
  · exact leAt_lt _ 4 4
  · decide

theorem State.signal_flash (s : State) (f v : Nat) : (s.signal f v).flash = s.flash := by
  unfold State.signal; split <;> rfl

theorem State.signalAlert_flash (s : State) : s.signalAlert.flash = s.flash := by
  unfold State.signalAlert
  dsimp only
  split <;> split <;> simp only [State.signal_flash]

theorem State.pinOut_flash (s : State) (p : Pin) (l : Bool) (a v : Nat) : (s.pinOut p l a v).flash = s.flash := by
  unfold State.pinOut; split <;> rfl

theorem State.setAlert_flash (s : State) (n : Nat) : (s.setAlert n).flash = s.flash := by
  unfold State.setAlert
  dsimp only
  split
  · rfl
  · split
    · split <;> simp only [State.pinOut_flash, State.signalAlert_flash] <;> rfl
    · rfl

/-- An outcome of a memory or flash access leaves the flash as it is. -/
theorem State.mntFault_flash (s : State) (k : Nat) (tr : Bool) (loc : Nat) : (s.mntFault k tr loc).flash = s.flash := by
  unfold State.mntFault
  dsimp only
  rw [State.emit_flash, State.setAlert_flash]
  split <;> split <;> rfl

/-- The flash when one write of it has used its plan. -/
def Flash.planned (f : Flash) : Flash := { f with plan := f.plan.drop 1 }

@[simp] theorem Flash.planned_journal (f : Flash) : f.planned.journal = f.journal := rfl

/-- What a write of flash can do: after two failures nothing of it is there, otherwise it is done on the flash as it was. -/
theorem State.flashWrite_cases (s : State) (loc : Nat) (f : State → State) :
    (2 ≤ s.flash.plan.headD 0 ∧ (s.flashWrite loc f).1 = false ∧ (s.flashWrite loc f).2.flash = s.flash.planned) ∨
    (s.flash.plan.headD 0 < 2 ∧ (s.flashWrite loc f).1 = true ∧
      ∃ u : State, u.flash = s.flash.planned ∧ (s.flashWrite loc f).2 = f u) := by
  unfold State.flashWrite
  by_cases h : 2 ≤ s.flash.plan.headD 0
  · exact .inl ⟨h, by simp only [if_pos h], by simp only [if_pos h, State.mntFault_flash]; rfl⟩
  · refine .inr ⟨by omega, by simp only [if_neg h], _, ?_, by simp only [if_neg h]; rfl⟩
    split
    · rw [State.mntFault_flash]; rfl
    · rfl

/-- The flash after a journal write that does not fail: one entry appended. -/
theorem State.writeJournal_flash (s : State) (st active other pre : Nat) (hp : s.flash.plan.headD 0 < 2) :
    (s.writeJournal st active other pre).2.flash =
      s.flash.planned.jAppend (JEntry.bytes ⟨s.jNext, st, active, other, pre, s.slotVer 1, s.slotVer 2⟩) := by
  unfold State.writeJournal
  obtain ⟨h, -⟩ | ⟨-, -, u, hu, h⟩ := s.flashWrite_cases s.flash.jNextAddr (fun u =>
    ({ u with flash := u.flash.jAppend (JEntry.bytes ⟨s.jNext, st, active, other, pre, s.slotVer 1, s.slotVer 2⟩) }).showJournal)
  · omega
  · show (State.flashWrite _ _ _).2.flash = _
    rw [h, ← hu]; rfl

/-- A journal write that does not fail governs from then on, while SEQ has room. -/
theorem State.writeJournal_journal (s : State) (st active other pre : Nat) (hp : s.flash.plan.headD 0 < 2)
    (hn : s.jNext < 2 ^ 32) (h1 : st < 256) (h2 : active < 256) (h3 : other < 256) (h4 : pre < 256) :
    (s.writeJournal st active other pre).2.flash.journal =
      some ⟨s.jNext, st, active, other, pre, s.slotVer 1, s.slotVer 2⟩ := by
  rw [State.writeJournal_flash _ _ _ _ _ hp]
  exact Flash.jAppend_journal _ _ ⟨hn, h1, h2, h3, h4, s.slotVer_lt 1, s.slotVer_lt 2⟩ (Nat.le_refl _)

/-- The fields of an entry that is read from its bytes fit theirs. -/
theorem jEntry_fits (b : List Byte) (e : JEntry) (h : jEntry? b = some e) : e.fits := by
  unfold jEntry? at h
  split at h
  · cases h
    exact ⟨leAt_lt _ 4 4, leAt_lt _ 8 1, leAt_lt _ 9 1, leAt_lt _ 10 1, leAt_lt _ 11 1, leAt_lt _ 12 4, leAt_lt _ 16 4⟩
  · cases h

theorem Flash.journal_fits (f : Flash) (e : JEntry) (h : f.journal = some e) : e.fits := by
  obtain ⟨b, -, hb⟩ := List.mem_filterMap.1 (topEntry_mem _ e h)
  exact jEntry_fits b e hb

theorem State.jActive_lt (s : State) : s.jActive < 256 := by
  unfold State.jActive
  cases h : s.flash.journal with
  | none => decide
  | some e => exact (s.flash.journal_fits e h).2.2.1
theorem State.jOther_lt (s : State) : s.jOther < 256 := by
  unfold State.jOther
  cases h : s.flash.journal with
  | none => decide
  | some e => exact (s.flash.journal_fits e h).2.2.2.1
theorem State.jPre_lt (s : State) : s.jPre < 256 := by
  unfold State.jPre
  cases h : s.flash.journal with
  | none => decide
  | some e => exact (s.flash.journal_fits e h).2.2.2.2.1

/-- What the registers show of an entry leaves the flash as it is. -/
theorem State.updJournal_flash (s : State) (st active other pre : Nat) :
    (s.updJournal st active other pre).2.flash = (s.writeJournal st active other pre).2.flash := by
  unfold State.updJournal State.showStaged
  dsimp only
  generalize (s.writeJournal st active other pre).2 = u
  have go : ∀ (f : Nat → State → State) (l : List Nat) (v : State), (∀ t w, (f t w).flash = w.flash) →
      (l.foldl (fun v t => f t v) v).flash = v.flash := by
    intro f l
    induction l with
    | nil => intro v _; rfl
    | cons a l ih => intro v h; exact (ih _ h).trans (h a v)
  exact go (fun t w => w.setF (F.UPD_SEC_VER_STAGED t) _) _ _ (fun _ _ => rfl)

/-! ### Settings halves and slot maps (R380, R387) -/

/-- A written header of a settings half passes. -/
theorem setHeader_ok (gen schema imgVer : Nat) (prov : Bool) (recd : List Byte) :
    good64 setMagic (setHeader gen schema imgVer prov recd) = true := by
  unfold setHeader
  simp only [List.append_assoc]
  exact good64_withCrc _ _ rfl (by simp [leBytes_length, zeros, setMagic])

/-- A written slot map passes, and says its version. -/
theorem slotMap_ok (version : Nat) (pos : List Nat) :
    good64 mapMagic (slotMap version pos) = true ∧ leAt (slotMap version pos) 4 4 = version % 2 ^ 32 := by
  unfold slotMap
  simp only [List.append_assoc]
  refine ⟨good64_withCrc _ _ rfl ?_, ?_⟩
  · simp [leBytes_length, zeros, mapMagic, List.length_flatMap]
  · unfold withCrc
    simp only [List.append_assoc]
    exact leAt_field _ _ _ _ _ rfl

end Sys2Proof.Machine
end

