-- ==== Sys2Proof/Laws/Keeps.lean ====
section
/-!
SUPPORT. Laws/Keeps.lean: how the frames of Safety.lean compose.
-/

namespace Sys2Proof.Machine

theorem Keeps.refl (l : List Field) (s : State) : Keeps l s s := fun f _ => by cases f <;> rfl

theorem Keeps.mono {l m : List Field} {s t : State} (h : Keeps l s t) (hl : ∀ f, f ∈ l → f ∈ m) : Keeps m s t :=
  fun f hf => h f (fun x => hf (hl f x))

theorem Keeps.trans {l : List Field} {s t u : State} (h : Keeps l s t) (k : Keeps l t u) : Keeps l s u := by
  intro f hf
  have a := h f hf
  have b := k f hf
  cases f <;> exact b.trans a

theorem RegsKept.refl (l : List Nat) (s : State) : RegsKept l s s := fun _ _ => rfl

theorem RegsKept.mono {l m : List Nat} {s t : State} (h : RegsKept l s t) (hl : ∀ o, o ∈ l → o ∈ m) : RegsKept m s t :=
  fun o ho => h o (fun x => ho (hl o x))

theorem RegsKept.trans {l : List Nat} {s t u : State} (h : RegsKept l s t) (k : RegsKept l t u) : RegsKept l s u :=
  fun o ho => (k o ho).trans (h o ho)

theorem RegsKept.getF {l : List Nat} {s t : State} (h : RegsKept l s t) (f : Fld) (hf : f.off ∉ l) : t.getF f = s.getF f := by
  unfold State.getF; rw [h _ hf]

theorem RegsKept.bit {l : List Nat} {s t : State} (h : RegsKept l s t) (f : Fld) (hf : f.off ∉ l) : t.bit f = s.bit f := by
  unfold State.bit; rw [h.getF f hf]

/-! ### Frames through the updates, one after another -/

variable {l : List Field} {m : List Nat} {s t : State}

theorem Keeps.wr (h : Keeps l s t) (off : Nat) (v : Word) (hm : Field.regs ∈ l) : Keeps l s (t.wr off v) := by
  intro g hg
  have k := h g hg
  cases g <;> first | exact absurd hm hg | exact k
theorem RegsKept.wr (h : RegsKept m s t) (off : Nat) (v : Word) (hm : off ∈ m) : RegsKept m s (t.wr off v) := by
  intro o ho
  have e : o ≠ off := fun x => ho (x ▸ hm)
  rw [← h o ho]
  exact rd_wr_other _ _ _ _ e
theorem Keeps.setF (h : Keeps l s t) (f : Fld) (n : Nat) (hm : Field.regs ∈ l) : Keeps l s (t.setF f n) := by
  intro g hg
  have k := h g hg
  cases g <;> first | exact absurd hm hg | exact k
theorem RegsKept.setF (h : RegsKept m s t) (f : Fld) (n : Nat) (hm : f.off ∈ m) : RegsKept m s (t.setF f n) := by
  intro o ho
  have e : o ≠ f.off := fun x => ho (x ▸ hm)
  rw [← h o ho]
  exact rd_setF_other _ _ _ _ e
theorem Keeps.setB (h : Keeps l s t) (f : Fld) (b : Bool) (hm : Field.regs ∈ l) : Keeps l s (t.setB f b) := by
  intro g hg
  have k := h g hg
  cases g <;> first | exact absurd hm hg | exact k
theorem RegsKept.setB (h : RegsKept m s t) (f : Fld) (b : Bool) (hm : f.off ∈ m) : RegsKept m s (t.setB f b) := by
  intro o ho
  have e : o ≠ f.off := fun x => ho (x ▸ hm)
  rw [← h o ho]
  exact rd_setB_other _ _ _ _ e
theorem Keeps.bump (h : Keeps l s t) (f : Fld) (hm : Field.regs ∈ l) : Keeps l s (t.bump f) := by
  intro g hg
  have k := h g hg
  cases g <;> first | exact absurd hm hg | exact k
theorem RegsKept.bump (h : RegsKept m s t) (f : Fld) (hm : f.off ∈ m) : RegsKept m s (t.bump f) := by
  intro o ho
  have e : o ≠ f.off := fun x => ho (x ▸ hm)
  rw [← h o ho]
  exact rd_bump_other _ _ _ e
theorem Keeps.bumpBy (h : Keeps l s t) (f : Fld) (n : Nat) (hm : Field.regs ∈ l) : Keeps l s (t.bumpBy f n) := by
  intro g hg
  have k := h g hg
  cases g <;> first | exact absurd hm hg | exact k
theorem RegsKept.bumpBy (h : RegsKept m s t) (f : Fld) (n : Nat) (hm : f.off ∈ m) : RegsKept m s (t.bumpBy f n) := by
  intro o ho
  have e : o ≠ f.off := fun x => ho (x ▸ hm)
  rw [← h o ho]
  exact rd_setF_other _ _ _ _ e
theorem Keeps.wr64 (h : Keeps l s t) (lo hi n : Nat) (hm : Field.regs ∈ l) : Keeps l s (t.wr64 lo hi n) :=
  (h.wr lo _ hm).wr hi _ hm
theorem RegsKept.wr64 (h : RegsKept m s t) (lo hi n : Nat) (h1 : lo ∈ m) (h2 : hi ∈ m) : RegsKept m s (t.wr64 lo hi n) :=
  (h.wr lo _ h1).wr hi _ h2
theorem Keeps.deny (h : Keeps l s t) (hm : Field.regs ∈ l) : Keeps l s t.deny := h.bump _ hm
theorem RegsKept.deny (h : RegsKept m s t) (hm : R.HIF_DENY ∈ m) : RegsKept m s t.deny := h.bump _ hm
theorem Keeps.late (h : Keeps l s t) (f : Fld) (hm : Field.regs ∈ l) : Keeps l s (t.late f) := (h.setF f 1 hm).bump _ hm
theorem RegsKept.late (h : RegsKept m s t) (f : Fld) (h1 : f.off ∈ m) (h2 : R.MNT_LATE ∈ m) : RegsKept m s (t.late f) :=
  (h.setF f 1 h1).bump _ h2
theorem Keeps.emit (h : Keeps l s t) (i k : Nat) (p : List Word) (hm : Field.recq ∈ l) : Keeps l s (t.emit i k p) := by
  intro g hg
  have k := h g hg
  cases g <;> first | exact absurd hm hg | exact k
theorem RegsKept.emit (h : RegsKept m s t) (i k : Nat) (p : List Word) : RegsKept m s (t.emit i k p) := h
theorem Keeps.obsv (h : Keeps l s t) (x : Obs) (hm : Field.obs ∈ l) : Keeps l s (t.obsv x) := by
  intro g hg
  have k := h g hg
  cases g <;> first | exact absurd hm hg | exact k
theorem RegsKept.obsv (h : RegsKept m s t) (x : Obs) : RegsKept m s (t.obsv x) := h
theorem Keeps.updFn (h : Keeps l s t) (f : Nat) (g : PciFn → PciFn) (hm : Field.host ∈ l) : Keeps l s (t.updFn f g) := by
  intro g hg
  have k := h g hg
  cases g <;> first | exact absurd hm hg | exact k
theorem RegsKept.updFn (h : RegsKept m s t) (f : Nat) (g : PciFn → PciFn) : RegsKept m s (t.updFn f g) := h
theorem Keeps.updTcu (h : Keeps l s t) (n : Nat) (g : Tcu → Tcu) (hm : Field.time ∈ l) : Keeps l s (t.updTcu n g) := by
  intro g hg
  have k := h g hg
  cases g <;> first | exact absurd hm hg | exact k
theorem RegsKept.updTcu (h : RegsKept m s t) (n : Nat) (g : Tcu → Tcu) : RegsKept m s (t.updTcu n g) := h
theorem Keeps.updStr (h : Keeps l s t) (n : Nat) (g : StreamState → StreamState) (hm : Field.strs ∈ l) : Keeps l s (t.updStr n g) := by
  intro g hg
  have k := h g hg
  cases g <;> first | exact absurd hm hg | exact k
theorem RegsKept.updStr (h : RegsKept m s t) (n : Nat) (g : StreamState → StreamState) : RegsKept m s (t.updStr n g) := h
theorem Keeps.worked (h : Keeps l s t) (d : Nat) (hm : Field.pwr ∈ l) : Keeps l s (t.worked d) := by
  intro g hg
  have k := h g hg
  cases g <;> first | exact absurd hm hg | exact k
theorem RegsKept.worked (h : RegsKept m s t) (d : Nat) : RegsKept m s (t.worked d) := h
theorem Keeps.bpReg (h : Keeps l s t) (id : Ident) (off : Nat) (w : Bool) (hm : Field.dbg ∈ l) : Keeps l s (t.bpReg id off w) := by
  intro g hg
  have k := h g hg
  cases g <;> first | exact absurd hm hg | exact k
theorem RegsKept.bpReg (h : RegsKept m s t) (id : Ident) (off : Nat) (w : Bool) : RegsKept m s (t.bpReg id off w) :=
  fun o ho => (State.bpReg_rd t id off w o).trans (h o ho)
theorem Keeps.regs (h : Keeps l s t) (x) (hm : Field.regs ∈ l) : Keeps l s ({ t with regs := x } : State) := by
  intro g hg
  have k := h g hg
  cases g <;> first | exact absurd hm hg | exact k
theorem Keeps.shadows (h : Keeps l s t) (x) (hm : Field.shadows ∈ l) : Keeps l s ({ t with shadows := x } : State) := by
  intro g hg
  have k := h g hg
  cases g <;> first | exact absurd hm hg | exact k
theorem RegsKept.shadows (h : RegsKept m s t) (x) : RegsKept m s ({ t with shadows := x } : State) := h
theorem Keeps.latches (h : Keeps l s t) (x) (hm : Field.latches ∈ l) : Keeps l s ({ t with latches := x } : State) := by
  intro g hg
  have k := h g hg
  cases g <;> first | exact absurd hm hg | exact k
theorem RegsKept.latches (h : RegsKept m s t) (x) : RegsKept m s ({ t with latches := x } : State) := h
theorem Keeps.setLog (h : Keeps l s t) (x) (hm : Field.setLog ∈ l) : Keeps l s ({ t with setLog := x } : State) := by
  intro g hg
  have k := h g hg
  cases g <;> first | exact absurd hm hg | exact k
theorem RegsKept.setLog (h : RegsKept m s t) (x) : RegsKept m s ({ t with setLog := x } : State) := h
theorem Keeps.recq (h : Keeps l s t) (x) (hm : Field.recq ∈ l) : Keeps l s ({ t with recq := x } : State) := by
  intro g hg
  have k := h g hg
  cases g <;> first | exact absurd hm hg | exact k
theorem RegsKept.recq (h : RegsKept m s t) (x) : RegsKept m s ({ t with recq := x } : State) := h
theorem Keeps.eqs (h : Keeps l s t) (x) (hm : Field.eqs ∈ l) : Keeps l s ({ t with eqs := x } : State) := by
  intro g hg
  have k := h g hg
  cases g <;> first | exact absurd hm hg | exact k
theorem RegsKept.eqs (h : RegsKept m s t) (x) : RegsKept m s ({ t with eqs := x } : State) := h
theorem Keeps.wqs (h : Keeps l s t) (x) (hm : Field.wqs ∈ l) : Keeps l s ({ t with wqs := x } : State) := by
  intro g hg
  have k := h g hg
  cases g <;> first | exact absurd hm hg | exact k
theorem RegsKept.wqs (h : RegsKept m s t) (x) : RegsKept m s ({ t with wqs := x } : State) := h
theorem Keeps.fqs (h : Keeps l s t) (x) (hm : Field.fqs ∈ l) : Keeps l s ({ t with fqs := x } : State) := by
  intro g hg
  have k := h g hg
  cases g <;> first | exact absurd hm hg | exact k
theorem RegsKept.fqs (h : RegsKept m s t) (x) : RegsKept m s ({ t with fqs := x } : State) := h
theorem Keeps.image (h : Keeps l s t) (x) (hm : Field.image ∈ l) : Keeps l s ({ t with image := x } : State) := by
  intro g hg
  have k := h g hg
  cases g <;> first | exact absurd hm hg | exact k
theorem RegsKept.image (h : RegsKept m s t) (x) : RegsKept m s ({ t with image := x } : State) := h
theorem Keeps.time (h : Keeps l s t) (x) (hm : Field.time ∈ l) : Keeps l s ({ t with time := x } : State) := by
  intro g hg
  have k := h g hg
  cases g <;> first | exact absurd hm hg | exact k
theorem RegsKept.time (h : RegsKept m s t) (x) : RegsKept m s ({ t with time := x } : State) := h
theorem Keeps.run (h : Keeps l s t) (x) (hm : Field.run ∈ l) : Keeps l s ({ t with run := x } : State) := by
  intro g hg
  have k := h g hg
  cases g <;> first | exact absurd hm hg | exact k
theorem RegsKept.run (h : RegsKept m s t) (x) : RegsKept m s ({ t with run := x } : State) := h
theorem Keeps.mem (h : Keeps l s t) (x) (hm : Field.mem ∈ l) : Keeps l s ({ t with mem := x } : State) := by
  intro g hg
  have k := h g hg
  cases g <;> first | exact absurd hm hg | exact k
theorem RegsKept.mem (h : RegsKept m s t) (x) : RegsKept m s ({ t with mem := x } : State) := h
theorem Keeps.trg (h : Keeps l s t) (x) (hm : Field.trg ∈ l) : Keeps l s ({ t with trg := x } : State) := by
  intro g hg
  have k := h g hg
  cases g <;> first | exact absurd hm hg | exact k
theorem RegsKept.trg (h : RegsKept m s t) (x) : RegsKept m s ({ t with trg := x } : State) := h
theorem Keeps.path (h : Keeps l s t) (x) (hm : Field.path ∈ l) : Keeps l s ({ t with path := x } : State) := by
  intro g hg
  have k := h g hg
  cases g <;> first | exact absurd hm hg | exact k
theorem RegsKept.path (h : RegsKept m s t) (x) : RegsKept m s ({ t with path := x } : State) := h
theorem Keeps.strs (h : Keeps l s t) (x) (hm : Field.strs ∈ l) : Keeps l s ({ t with strs := x } : State) := by
  intro g hg
  have k := h g hg
  cases g <;> first | exact absurd hm hg | exact k
theorem RegsKept.strs (h : RegsKept m s t) (x) : RegsKept m s ({ t with strs := x } : State) := h
theorem Keeps.snt (h : Keeps l s t) (x) (hm : Field.snt ∈ l) : Keeps l s ({ t with snt := x } : State) := by
  intro g hg
  have k := h g hg
  cases g <;> first | exact absurd hm hg | exact k
theorem RegsKept.snt (h : RegsKept m s t) (x) : RegsKept m s ({ t with snt := x } : State) := h
theorem Keeps.ports (h : Keeps l s t) (x) (hm : Field.ports ∈ l) : Keeps l s ({ t with ports := x } : State) := by
  intro g hg
  have k := h g hg
  cases g <;> first | exact absurd hm hg | exact k
theorem RegsKept.ports (h : RegsKept m s t) (x) : RegsKept m s ({ t with ports := x } : State) := h
theorem Keeps.dmfQ (h : Keeps l s t) (x) (hm : Field.dmfQ ∈ l) : Keeps l s ({ t with dmfQ := x } : State) := by
  intro g hg
  have k := h g hg
  cases g <;> first | exact absurd hm hg | exact k
theorem RegsKept.dmfQ (h : RegsKept m s t) (x) : RegsKept m s ({ t with dmfQ := x } : State) := h
theorem Keeps.host (h : Keeps l s t) (x) (hm : Field.host ∈ l) : Keeps l s ({ t with host := x } : State) := by
  intro g hg
  have k := h g hg
  cases g <;> first | exact absurd hm hg | exact k
theorem RegsKept.host (h : RegsKept m s t) (x) : RegsKept m s ({ t with host := x } : State) := h
theorem Keeps.mbx (h : Keeps l s t) (x) (hm : Field.mbx ∈ l) : Keeps l s ({ t with mbx := x } : State) := by
  intro g hg
  have k := h g hg
  cases g <;> first | exact absurd hm hg | exact k
theorem RegsKept.mbx (h : RegsKept m s t) (x) : RegsKept m s ({ t with mbx := x } : State) := h
theorem Keeps.mnt (h : Keeps l s t) (x) (hm : Field.mnt ∈ l) : Keeps l s ({ t with mnt := x } : State) := by
  intro g hg
  have k := h g hg
  cases g <;> first | exact absurd hm hg | exact k
theorem RegsKept.mnt (h : RegsKept m s t) (x) : RegsKept m s ({ t with mnt := x } : State) := h
theorem Keeps.pwr (h : Keeps l s t) (x) (hm : Field.pwr ∈ l) : Keeps l s ({ t with pwr := x } : State) := by
  intro g hg
  have k := h g hg
  cases g <;> first | exact absurd hm hg | exact k
theorem RegsKept.pwr (h : RegsKept m s t) (x) : RegsKept m s ({ t with pwr := x } : State) := h
theorem Keeps.conv (h : Keeps l s t) (x) (hm : Field.conv ∈ l) : Keeps l s ({ t with conv := x } : State) := by
  intro g hg
  have k := h g hg
  cases g <;> first | exact absurd hm hg | exact k
theorem RegsKept.conv (h : RegsKept m s t) (x) : RegsKept m s ({ t with conv := x } : State) := h
theorem Keeps.reform (h : Keeps l s t) (x) (hm : Field.reform ∈ l) : Keeps l s ({ t with reform := x } : State) := by
  intro g hg
  have k := h g hg
  cases g <;> first | exact absurd hm hg | exact k
theorem RegsKept.reform (h : RegsKept m s t) (x) : RegsKept m s ({ t with reform := x } : State) := h
theorem Keeps.dbg (h : Keeps l s t) (x) (hm : Field.dbg ∈ l) : Keeps l s ({ t with dbg := x } : State) := by
  intro g hg
  have k := h g hg
  cases g <;> first | exact absurd hm hg | exact k
theorem RegsKept.dbg (h : RegsKept m s t) (x) : RegsKept m s ({ t with dbg := x } : State) := h
theorem Keeps.cal (h : Keeps l s t) (x) (hm : Field.cal ∈ l) : Keeps l s ({ t with cal := x } : State) := by
  intro g hg
  have k := h g hg
  cases g <;> first | exact absurd hm hg | exact k
theorem RegsKept.cal (h : RegsKept m s t) (x) : RegsKept m s ({ t with cal := x } : State) := h
theorem Keeps.flash (h : Keeps l s t) (x) (hm : Field.flash ∈ l) : Keeps l s ({ t with flash := x } : State) := by
  intro g hg
  have k := h g hg
  cases g <;> first | exact absurd hm hg | exact k
theorem RegsKept.flash (h : RegsKept m s t) (x) : RegsKept m s ({ t with flash := x } : State) := h
theorem Keeps.upd (h : Keeps l s t) (x) (hm : Field.upd ∈ l) : Keeps l s ({ t with upd := x } : State) := by
  intro g hg
  have k := h g hg
  cases g <;> first | exact absurd hm hg | exact k
theorem RegsKept.upd (h : RegsKept m s t) (x) : RegsKept m s ({ t with upd := x } : State) := h
theorem Keeps.obs (h : Keeps l s t) (x) (hm : Field.obs ∈ l) : Keeps l s ({ t with obs := x } : State) := by
  intro g hg
  have k := h g hg
  cases g <;> first | exact absurd hm hg | exact k
theorem RegsKept.obs (h : RegsKept m s t) (x) : RegsKept m s ({ t with obs := x } : State) := h
theorem Keeps.freeCtr (h : Keeps l s t) (x) (hm : Field.freeCtr ∈ l) : Keeps l s ({ t with freeCtr := x } : State) := by
  intro g hg
  have k := h g hg
  cases g <;> first | exact absurd hm hg | exact k
theorem RegsKept.freeCtr (h : RegsKept m s t) (x) : RegsKept m s ({ t with freeCtr := x } : State) := h
theorem Keeps.pending (h : Keeps l s t) (x) (hm : Field.pending ∈ l) : Keeps l s ({ t with pending := x } : State) := by
  intro g hg
  have k := h g hg
  cases g <;> first | exact absurd hm hg | exact k
theorem RegsKept.pending (h : RegsKept m s t) (x) : RegsKept m s ({ t with pending := x } : State) := h
theorem Keeps.foldl {α : Type} (g : State → α → State) (x : List α) (h : Keeps l s t) (hg : ∀ u a, a ∈ x → Keeps l u (g u a)) :
    Keeps l s (x.foldl g t) := by
  induction x generalizing t with
  | nil => exact h
  | cons a x ih =>
    rw [List.foldl_cons]
    exact ih (h.trans (hg t a (by simp))) (fun u b hb => hg u b (by simp [hb]))

theorem RegsKept.foldl {α : Type} (g : State → α → State) (x : List α) (h : RegsKept m s t)
    (hg : ∀ u a, a ∈ x → RegsKept m u (g u a)) : RegsKept m s (x.foldl g t) := by
  induction x generalizing t with
  | nil => exact h
  | cons a x ih =>
    rw [List.foldl_cons]
    exact ih (h.trans (hg t a (by simp))) (fun u b hb => hg u b (by simp [hb]))

end Sys2Proof.Machine
end

