-- ==== Sys2Proof/Laws/Mem.lean ====
section
/-!
SUPPORT. Laws/Mem.lean: sample memory: every operation keeps its canonical form, a byte read after a write is the byte written,
and every other byte stays.
-/

namespace Sys2Proof.Machine

theorem MemState.reset_wf : MemState.reset.wf = true := rfl

/-! ### Bytes -/

theorem MemState.byte_put_same (m : MemState) (a : Nat) (b : Byte) : (m.put a b).byte a = b :=
  SMap.get_set_same _ _ _ _

theorem MemState.byte_put_other (m : MemState) (a c : Nat) (b : Byte) (h : c ≠ a) : (m.put a b).byte c = m.byte c :=
  SMap.get_set_other _ _ _ _ _ h

theorem MemState.put_wf (m : MemState) (a : Nat) (b : Byte) (h : m.wf = true) : (m.put a b).wf = true :=
  SMap.set_wf _ _ _ _ h

theorem MemState.putAll_wf (b : List Byte) : ∀ (m : MemState) (a : Nat), m.wf = true → (m.putAll a b).wf = true := by
  induction b with
  | nil => intro m a h; exact h
  | cons x t ih => intro m a h; exact ih _ _ (m.put_wf a x h)

theorem MemState.byte_putAll_below (b : List Byte) : ∀ (m : MemState) (a c : Nat), c < a → (m.putAll a b).byte c = m.byte c := by
  induction b with
  | nil => intro m a c _; rfl
  | cons x t ih =>
    intro m a c h
    show ((m.put a x).putAll (a + 1) t).byte c = _
    rw [ih _ _ _ (by omega), m.byte_put_other a c x (by omega)]

theorem MemState.byte_putAll_above (b : List Byte) : ∀ (m : MemState) (a c : Nat), a + b.length ≤ c →
    (m.putAll a b).byte c = m.byte c := by
  induction b with
  | nil => intro m a c _; rfl
  | cons x t ih =>
    intro m a c h
    simp only [List.length_cons] at h
    show ((m.put a x).putAll (a + 1) t).byte c = _
    rw [ih _ _ _ (by omega), m.byte_put_other a c x (by omega)]

theorem MemState.byte_putAll (b : List Byte) : ∀ (m : MemState) (a i : Nat) (h : i < b.length),
    (m.putAll a b).byte (a + i) = b[i] := by
  induction b with
  | nil => intro m a i h; exact absurd h (by simp)
  | cons x t ih =>
    intro m a i h
    show ((m.put a x).putAll (a + 1) t).byte (a + i) = _
    cases i with
    | zero => rw [Nat.add_zero, MemState.byte_putAll_below _ _ _ _ (by omega)]; exact m.byte_put_same a x
    | succ j =>
      have := ih (m.put a x) (a + 1) j (by simpa using h)
      rw [show a + (j + 1) = a + 1 + j by omega, this]; rfl

theorem MemState.clearFault_cells (m : MemState) (a : Nat) : (m.clearFault a).cells = m.cells := rfl

/-! ### Words read and written -/

theorem State.signal_mem (s : State) (f v : Nat) : (s.signal f v).mem = s.mem := by
  unfold State.signal; split <;> rfl

theorem State.signalAlert_mem (s : State) : s.signalAlert.mem = s.mem := by
  unfold State.signalAlert
  dsimp only
  split <;> split <;> simp only [State.signal_mem]

theorem State.pinOut_mem (s : State) (p : Pin) (l : Bool) (a v : Nat) : (s.pinOut p l a v).mem = s.mem := by
  unfold State.pinOut; split <;> rfl

theorem State.setAlert_mem (s : State) (n : Nat) : (s.setAlert n).mem = s.mem := by
  unfold State.setAlert
  dsimp only
  split
  · rfl
  · split
    · split
      · rw [State.signalAlert_mem]; rfl
      · rw [State.pinOut_mem, State.signalAlert_mem]; rfl
    · rfl

theorem State.mntFault_mem (s : State) (k : Nat) (tr : Bool) (loc : Nat) : (s.mntFault k tr loc).mem = s.mem := by
  unfold State.mntFault
  dsimp only
  rw [State.emit_mem, State.setAlert_mem]
  split <;> split <;> rfl

theorem State.memReadWord_cells (s : State) (a : Nat) : (s.memReadWord a).2.mem.cells = s.mem.cells := by
  unfold State.memReadWord
  split
  · rfl
  · dsimp only
    split
    · rfl
    · split
      · simp only [MemState.clearFault_cells, State.mntFault_mem]
        split <;> rfl
      · simp only [State.mntFault_mem]; rfl

theorem State.memReadWords_cells (n : Nat) : ∀ (s : State) (a : Nat), (s.memReadWords a n).2.mem.cells = s.mem.cells := by
  induction n with
  | zero => intro s a; rfl
  | succ n ih => intro s a; unfold State.memReadWords; dsimp only; rw [ih, State.memReadWord_cells]

theorem State.readUntil_cells (n : Nat) : ∀ (s : State) (a : Nat), (s.readUntil a n).2.mem.cells = s.mem.cells := by
  induction n with
  | zero => intro s a; rfl
  | succ n ih =>
    intro s a
    unfold State.readUntil
    dsimp only
    split
    · rw [State.memReadWord_cells]
    · rw [ih, State.memReadWord_cells]

theorem State.memWroteWord_cells (s : State) (a : Nat) : (s.memWroteWord a).mem.cells = s.mem.cells := by
  unfold State.memWroteWord
  dsimp only
  split
  · split <;> rfl
  · rfl

theorem State.memWroteWords_cells (n : Nat) : ∀ (s : State) (a : Nat), (s.memWroteWords a n).mem.cells = s.mem.cells := by
  induction n with
  | zero => intro s a; rfl
  | succ n ih => intro s a; unfold State.memWroteWords; rw [ih, State.memWroteWord_cells]

theorem State.memWrite_wf (s : State) (a : Nat) (b : List Byte) (h : s.mem.wf = true) : (s.memWrite a b).mem.wf = true := by
  unfold State.memWrite MemState.wf
  dsimp only
  rw [State.memWroteWords_cells]
  exact MemState.putAll_wf b _ _ h

theorem State.memPut_wf (s : State) (a : Nat) (b : List Byte) (h : s.mem.wf = true) : (s.memPut a b).mem.wf = true := by
  unfold State.memPut MemState.wf
  dsimp only
  split
  · exact MemState.putAll_wf b _ _ h
  · rw [State.memWroteWords_cells]; exact MemState.putAll_wf b _ _ h

theorem State.poolPut_wf (s : State) (x : Nat) (b : List Byte) (h : s.mem.wf = true) : (s.poolPut x b).mem.wf = true :=
  State.memPut_wf _ _ _ (State.memPut_wf _ _ _ h)

theorem State.memZero_wf (s : State) : s.memZero.mem.wf = true := rfl

/-! ### The host window -/

theorem MemState.putEnabled_wf (b : List (Option Byte)) : ∀ (m : MemState) (a : Nat), m.wf = true → (m.putEnabled a b).wf = true := by
  induction b with
  | nil => intro m a h; exact h
  | cons x t ih =>
    intro m a h
    cases x with
    | none => exact ih _ _ h
    | some b => exact ih _ _ (m.put_wf a b h)

theorem MemState.byte_putEnabled_below (b : List (Option Byte)) : ∀ (m : MemState) (a c : Nat), c < a →
    (m.putEnabled a b).byte c = m.byte c := by
  induction b with
  | nil => intro m a c _; rfl
  | cons x t ih =>
    intro m a c h
    cases x with
    | none => exact ih _ _ _ (by omega)
    | some b =>
      show ((m.put a b).putEnabled (a + 1) t).byte c = _
      rw [ih _ _ _ (by omega), m.byte_put_other a c b (by omega)]

theorem MemState.byte_putEnabled_above (b : List (Option Byte)) : ∀ (m : MemState) (a c : Nat), a + b.length ≤ c →
    (m.putEnabled a b).byte c = m.byte c := by
  induction b with
  | nil => intro m a c _; rfl
  | cons x t ih =>
    intro m a c h
    simp only [List.length_cons] at h
    cases x with
    | none => exact ih _ _ _ (by omega)
    | some b =>
      show ((m.put a b).putEnabled (a + 1) t).byte c = _
      rw [ih _ _ _ (by omega), m.byte_put_other a c b (by omega)]

/-- An enabled byte is stored, one that is not enabled keeps what was there. -/
theorem MemState.byte_putEnabled (b : List (Option Byte)) : ∀ (m : MemState) (a i : Nat) (h : i < b.length),
    (m.putEnabled a b).byte (a + i) = b[i].getD (m.byte (a + i)) := by
  induction b with
  | nil => intro m a i h; exact absurd h (by simp)
  | cons x t ih =>
    intro m a i h
    cases i with
    | zero =>
      cases x with
      | none => exact MemState.byte_putEnabled_below t m (a + 1) a (by omega)
      | some b =>
        show ((m.put a b).putEnabled (a + 1) t).byte a = b
        rw [MemState.byte_putEnabled_below _ _ _ _ (by omega)]; exact m.byte_put_same a b
    | succ j =>
      have hj : j < t.length := by simpa using h
      cases x with
      | none =>
        show (m.putEnabled (a + 1) t).byte _ = _
        rw [show a + (j + 1) = a + 1 + j by omega, ih _ _ _ hj]; rfl
      | some b =>
        show ((m.put a b).putEnabled (a + 1) t).byte _ = _
        rw [show a + (j + 1) = a + 1 + j by omega, ih _ _ _ hj, m.byte_put_other a _ b (by omega)]; rfl

theorem State.partStored_wf (x : MemRead × State) (off a : Nat) (p : List (Option Byte)) (h : x.2.mem.wf = true) :
    (if x.1 = MemRead.lasting then x.2
      else ({ x.2 with mem := x.2.mem.putEnabled off p }).memWroteWord a).mem.wf = true := by
  split
  · exact h
  · unfold MemState.wf
    rw [State.memWroteWord_cells]
    exact MemState.putEnabled_wf _ _ _ h

theorem State.windowWords'_wf (n : Nat) : ∀ (s : State) (off : Nat) (b : List (Option Byte)), s.mem.wf = true →
    (s.windowWords' n off b).mem.wf = true := by
  induction n with
  | zero => intro s off b h; exact h
  | succ n ih =>
    intro s off b h
    have hr : ∀ x : MemRead × State, x = (MemRead.good, s) ∨ x = s.memReadWord (off / 4 * 4) → x.2.mem.wf = true := by
      rintro x (rfl | rfl)
      · exact h
      · unfold MemState.wf; rw [State.memReadWord_cells]; exact h
    unfold State.windowWords'
    split
    · exact h
    · dsimp only
      apply ih
      split
      · exact h
      · exact State.partStored_wf _ _ _ _ (hr _ (by split <;> simp))

theorem State.memDeny_mem (s : State) (id : Ident) (a : Nat) (w : Bool) : (s.memDeny id a w).mem = s.mem := by
  unfold State.memDeny State.firstOf
  dsimp only
  split
  · rfl
  · rw [State.emit_mem]; rfl

theorem State.ctxPokes_wf (l : List Nat) : ∀ s : State, s.mem.wf = true → (s.ctxPokes l).mem.wf = true := by
  induction l with
  | nil => intro s h; exact h
  | cons a t ih =>
    intro s h
    unfold State.ctxPokes
    apply ih
    split
    · exact MemState.putAll_wf _ _ _ h
    · exact h

theorem State.windowWrite_wf (s : State) (id : Ident) (off : Nat) (b : List (Option Byte)) (h : s.mem.wf = true) :
    (s.windowWrite id off b).mem.wf = true := by
  unfold State.windowWrite
  split
  · exact State.windowWords'_wf _ _ _ _ (State.ctxPokes_wf _ _ h)
  · rw [State.memDeny_mem]; exact h

end Sys2Proof.Machine
end

