-- ==== Sys2Proof/Tests/Slice0.lean ====
section
/-!
SUPPORT. Tests/Slice0.lean: the refusals of WellFormed, one step of many commands on small states, and for every statement with
hypotheses a state and operands that meet them. Expected values are worked out by hand from the rules that the comments name.
-/

namespace Sys2Proof.Tests

open Sys2Proof.Machine

set_option Elab.async false

/-! ### Small states -/

/-- The reset state with fields set, one after another. -/
def put (l : List (Fld × Nat)) (s : State) : State := l.foldl (fun s e => s.setF e.1 e.2) s

/-- Every power domain ON at tick `k`. -/
def up (k : Nat) : State :=
  { State.reset.wr R.PWR_DOM_STATE 0x0AAAAAAA#32 with time := { TimeState.reset with frc := BitVec.ofNat 64 k } }

/-- The state a step of one command answers, where it answers one. -/
def after (c : Instr) (s : State) : State :=
  match step { s with pending := [c] } with
  | .next t => t
  | _ => s

/-- Does a step of the command answer a next state? -/
def runs (c : Instr) (s : State) : Bool :=
  match step { s with pending := [c] } with
  | .next _ => true
  | _ => false

/-! ### WellFormed refuses an ill-formed command by each of its checks -/

theorem smoke_write_offset : (Instr.registerWrite .host0 0x800000 .bad).wf = false := by decide
theorem smoke_read_offset : (Instr.snapshotRead .host0 0x800004 .dw).wf = false := by decide
theorem smoke_rc_offset : (Instr.rcRead .dbg 0x900000).wf = false := by decide
theorem smoke_anchor_tdc : (Instr.anchorMeasurement 0x100000 0).wf = false := by decide
theorem smoke_zero_tdc : (Instr.snZero 0 0x100000).wf = false := by decide
theorem smoke_power_slot : (Instr.powerUp [3]).wf = false := by decide
theorem smoke_check_slot : (Instr.reformCheckPassEnd [4] []).wf = false := by decide
theorem smoke_release_slot : (Instr.warmResetRelease false 0 [0]).wf = false := by decide
theorem smoke_calrun_outcome : (Instr.calrunCommit [0]).wf = false := by decide
theorem smoke_calsave_failures : (Instr.calsaveCommit 3).wf = false := by decide
theorem smoke_setsave_failures : (Instr.setsaveCommit 3).wf = false := by decide
theorem smoke_section_failures : (Instr.sectionWriteDone 3).wf = false := by decide
theorem smoke_trigin_fine : (Instr.triginEdge 0 true 128).wf = false := by decide
theorem smoke_window_end : (Instr.hostWindowAccess .host0 134217727 none 2).wf = false := by decide
theorem smoke_window_bytes : (Instr.hostWindowAccess .host0 0 (some [some 0#8]) 2).wf = false := by decide
theorem smoke_window_empty : (Instr.hostWindowAccess .host0 0 none 0).wf = false := by decide
theorem smoke_ports_twice : (Instr.linkDown [1, 1] 0).wf = false := by decide
theorem smoke_ports_none : (Instr.linkDown [] 0).wf = false := by decide
theorem smoke_ring_entry : (Instr.ringEnable .host0 0 8 0#32 [⟨[], [], false⟩]).wf = false := by decide
theorem smoke_pi_entry : (Instr.ringPiWrite .host0 0 4 0#32 [⟨[], [], false⟩]).wf = false := by decide
theorem smoke_warm_cause : (Instr.warmReset 6).wf = false := by decide
theorem smoke_dau_bits : (Instr.dauAccess (2 ^ 64)).wf = false := by decide
theorem smoke_key_length : (Instr.unlockResp [] []).wf = false := by decide
theorem smoke_monitor_lengths : (Instr.monitorSample [] []).wf = false := by decide
theorem smoke_edge_lengths : (Instr.samplingEdge [] []).wf = false := by decide
theorem smoke_write_formed : (Instr.registerWrite .host0 0x7FFFFC .bad).wf = true := by decide
theorem smoke_window_formed : (Instr.hostWindowAccess .host0 134217726 none 2).wf = true := by decide

/-! ### The queue and time -/

/-- R32: an idle step is one tick. -/
theorem test_tick : (match step (up 7) with | .next t => t.time.frc | _ => 0#64) = 8#64 := by decide
/-- R35: INCR 2 + 2^-20 is taken at a later tick, and T goes on from where it was: 7 ticks of 2 ns. -/
theorem test_incr_commit : (after (.incrCommit .host0 0x02000010#32) (up 7)).time.incrPend = some (0x0200001000000000, 7) := by
  decide
theorem test_incr_rebase : (after .incrRebase { up 7 with time := { (up 7).time with incrPend := some (2 ^ 57 + 2 ^ 36, 6) } }).time.tBase =
    7 * 2 ^ 57 := by decide
/-- R35: 2.0004 lies outside 100 ppm. -/
theorem test_incr_range : (after (.incrCommit .host0 0x02001A37#32) (up 7)).bit F.TIME_STATUS_INCR_ERR = true := by decide
/-- R36: a step of 100 ns at T = 14 ns. -/
theorem test_step : (after .stepApplied { up 7 with time := { (up 7).time with stepPend := some (100, 6) } }).now = 114 * 2 ^ 56 := by
  decide
theorem test_step_below_zero : (after .stepApplied { up 7 with time := { (up 7).time with stepPend := some (-15, 6) } }).bit
    F.TIME_STATUS_STEP_ERR = true := by decide

/-! ### States for the witnesses: each is the reset state with the domains ON and the few fields that a hypothesis names -/

/-- A small image with the quadrants of `q`. -/
def img (q : Nat) : Image :=
  { version := 5, schema := 1, secVers := [], present := [], otherBad := [], covers := true, fmaxKhz := 400000, lowpwr := false,
    quads := q, chans := [], bmf := false, beams := [], parts := [], ringTap := 0, ring8 := false, rsh := 0, latChain := 0,
    latBeam := 0, classes := [], wqs := [], streams := [], modes := [], mbxt := [], health := [], defaults := [] }
/-- The hub in RUN state `r`, with `n` the next label. -/
def inRun (r n : Nat) : State :=
  { put [(F.AFE_RUN_STATUS_STATE, r), (F.AFE_PLL_STATUS_LOCKED, 1)] (up 1000) with
    run := { RunState.reset with next := n, running := r == 3 } }
/-- Background calibration of group `g` in phase `ph`, at its end. -/
def bg (g ph : Nat) (second : Bool) : State :=
  let s := put [(F.CAL_BG_CTRL_EN, 1), (F.CAL_BG_CTRL_GROUPS, 0xFFFF), (F.CAL_GROUP_STATE_PHASE g, ph), (qOn 0, 1), (qOn 1, 1),
    (qOn 2, 1), (qOn 3, 1)] (up 9)
  { s with
    cal := { s.cal with groups := updAt (fun x => { x with second := second }) s.cal.groups g },
    mnt := { s.mnt with running := [⟨actBgcal, g, 0, false, false⟩] } }
/-- One activity runs and one waits. -/
def acts (a u : Nat) (p : Bool) (w : List Activity) : State := { up 9 with mnt := ⟨[⟨a, u, 0, false, p⟩], w⟩ }

def sp1 : State :=
  let s := put [(qOn 0, 1), (F.CND_USER_GAIN_GAIN 2, 32768)] (inRun 3 5)
  { s with image := some (img 1), path := { s.path with chans := s.path.chans.map (fun x => { x with past := 40 }) } }
def spS (kind tap n : Nat) : State :=
  let s := put [(qOn 0, 1), (F.STR_DEF_KIND 3, kind), (F.STR_DEF_TAP 3, tap), (F.CND_USER_GAIN_GAIN 2, 32768)] (inRun 3 n)
  let s := ((s.wr (R.STR_SRC 3 0) (if kind = 3 then 1#32 else 4#32)).wr (R.BMF_MEMBERS 0 0) 4#32).wr (R.BMF_W 0 0 2)
      0x00030005#32
  { s with
    image := some { img 1 with streams := [] }
    path :=
      { s.path with chans := s.path.chans.map (fun x => { x with past := 400, clears := [0], raw := (List.range 128).map Int.ofNat, clean := (List.range 900).map (fun k => 3 * Int.ofNat k), aligned := (List.range 200).map (fun k => 5 * Int.ofNat k) }) }
    strs := updAt (fun x => { x with active := true, ver := 2 }) s.strs 3 }
def syq (a : Nat) (r : Nat) : State :=
  let s := put [(F.AFE_SYNC_CLS_CTRL_EN 1, 1), (F.AFE_SYNC_CLS_MIN_MIN 1, 8), (F.AFE_SYNC_CLS_MAX_MAX 1, 8),
      (F.AFE_SYNC_CLS_CTRL_ACTION 1, a)] { inRun 3 90 with time := (up 20).time }
  { s with run := { (inRun r 90).run with sync := some ⟨8, 16 * 2 ^ 56, 0, 0, true, false, some 16⟩ }, strs := updAt (fun x => { x with active := true }) s.strs 3 }
def sh (l : List (Nat × Word)) (s : State) : State := { s with shadows := l }
def halted (s : State) : State := put [(F.DBG_STATUS_STATE, 2)] s
def trg1 (l : List (Fld × Nat)) (st : Nat) : State :=
  let s := put l (put [(F.TRG_TC_CTRL_SRC 5, 4), (F.TRG_TC_CTRL_EN 5, 1), (F.TRG_TC_STATE_STATE 5, st)] (inRun 3 200))
  { s with trg := { s.trg with met := [⟨4, 5, 60, 175, false⟩], nextN := 86 } }
def outs (x : TrigOut) : State :=
  let s := put [(F.TRG_TO_CTRL_EN 1, 1), (F.PWR_STATUS_READY, 1)] (inRun 3 200)
  { s with run := { s.run with scyc := 200 }, trg := { s.trg with outs := [TrigOut.reset, x, TrigOut.reset, TrigOut.reset] } }
def reSn (r : Nat) (s : State) : State := { s with reform := { s.reform with snr := some r } }
def halted' (s : State) : State := put [(F.DBG_STATUS_STATE, 2)] s
def pt (s : State) : State := put [(F.IMG_PART_FIRST_BANK 4, 2), (F.IMG_PART_BANKS 4, 1)] s
def cells (s : State) : State := { s with mem := s.mem.putAll 0x100002 [1#8, 2#8, 3#8, 4#8, 5#8] }
def scr (e : Nat) (l : Nat) : State :=
  let s := put [(F.MEM_SCRUB_CTRL_EN, e), (F.MEM_SCRUB_STATUS_ACTIVE, 1)] (acts actScrub 0 false [])
  { s with mem := { s.mem with line := l } }
def strm (e : Nat) : State :=
  let s := put [(F.STR_DEF_KIND 3, 1), (F.STR_SIZE_INSTANTS 3, 2), (F.STR_DEF_CLASS 3, 2), (F.FLW_FQ_SIZE_LINES 2, e),
      (F.FLW_FQ_CREDIT_WORDS 2, 16 * e)] (inRun 3 90)
  { s with strs := updAt (fun x => { x with active := true, ver := 1, produced := 3, insts := [⟨80, [.val [1] false]⟩, ⟨81, [.val [2] false]⟩, ⟨82, [.val [3] false]⟩] }) s.strs 3 }
def lnk (s : State) : State := put [(F.NET_PORT_STATUS_LINK_UP 1, 1), (F.NET_PORT_INFO_MODE 1, 2)] s
def pk : Packet :=
  ⟨3, 0, 1, 0, 0, 0, 0, 2, 80, [], [1#8, 2#8], 0, 0, 0, false, 0, 0, [], 2, 0, 2, [(80, [0]), (81, [0])], [], 0, [], none, 0,
      none, true, false, false⟩
def eq3 (n : Nat) (l : List QEntry) : State := { up 5 with eqs := updAt (fun x => { x with entries := l }) (up 5).eqs n }
def dsc (op kib ctx dst dl : Nat) : List Byte :=
  leBytes 4 (op + kib * 2 ^ 16 + ctx * 2 ^ 24) ++ leBytes 4 77 ++ leBytes 8 0x100000 ++ leBytes 4 16 ++ leBytes 4 0 ++ leBytes
      8 dst ++ leBytes 4 dl ++ zeros 28
def ptn (s : State) : State := put [(F.SNT_INFO_N_CTX, 64), (F.IMG_PART_FIRST_BANK 4, 2), (F.IMG_PART_BANKS 4, 1)] s
def rng8 (s : State) (d : List Byte) : State :=
  let s := ptn (put [(F.HIF_RING_CTRL_EN 1 8, 1), (F.HIF_RING_CTRL_LOG2 1 8, 4)] s)
  { s with host := { s.host with fns := updAt (fun x => { x with rings := updAt (fun y => { y with posted := [⟨0, d, [], false⟩] }) x.rings 8 }) s.host.fns 1 } }
def jb : SntJob := ⟨1, 0, 77#32, false, 0x09010000#32, 0x100000, 0, 0, 0, 2 ^ 63 + 0x5000, 100, zeros 16, none, 0, 0⟩
def ctx (st : Nat) (j : SntJob) (s : State) : State :=
  let s := put [(F.SNT_CTX_STATE_STATE 9, st), (F.SNT_CTX_STATE_OWNER 9, 2)] s
  { s with snt := { s.snt with ctxs := updAt (fun x => { x with job := some j }) s.snt.ctxs 9 } }
def run9 (j : SntJob) : State := ptn (put [(F.SNT_LANE_STATE 2, 2), (F.SNT_LANE_CTX 2, 9)] (ctx 1 j (up 9)))
def cp (st : Nat) : Capture := ⟨7, 100, 0, 16, [0], 2, false, 0, 3, 32, 0, 16, [], st, false, 0, none⟩
def cpS (st : Nat) (s : State) : State :=
  { s with trg := { s.trg with caps := [cp st] }, strs := updAt (fun x => { x with active := true, ver := 1 }) s.strs 3 }
def geyS (l : List CapOut) : State :=
  let s := put [(F.STR_DEF_KIND 3, 4), (F.STR_DEF_CLASS 3, 2), (F.FLW_FQ_SIZE_LINES 2, 64), (F.FLW_FQ_CREDIT_WORDS 2, 1024)]
      (inRun 3 90)
  { s with strs := updAt (fun x => { x with active := true, ver := 1, gey := l }) s.strs 3 }
def co (l : List CapChan) : CapOut := ⟨7, 100, 0, 16, 2, false, false, 0, l, none, false, []⟩
def fumS (l : List (List Word)) : State :=
  let s := put [(F.STR_DEF_KIND 3, 5), (F.STR_DEF_CLASS 3, 2), (F.FLW_FQ_SIZE_LINES 2, 64), (F.FLW_FQ_CREDIT_WORDS 2, 1024)]
      (inRun 3 90)
  { s with strs := updAt (fun x => { x with active := true, ver := 1, recs := l, recTicks := l.map (fun _ => 9) }) s.strs 3 }
def endS (x : StreamState → StreamState) : State :=
  let s := put [(F.STR_DEF_KIND 3, 1), (F.STR_DEF_CLASS 3, 2), (F.FLW_FQ_SIZE_LINES 2, 64), (F.FLW_FQ_CREDIT_WORDS 2, 1024)]
      (inRun 0 90)
  { s with strs := updAt (fun y => x ({ y with active := true, ver := 2, ending := some 1 } : StreamState)) s.strs 3 }
def lk (s : State) : State :=
  put [(F.NET_PORT_STATUS_LINK_UP 1, 1), (F.NET_PORT_STATUS_LINK_UP 2, 1), (F.NET_PORT_INFO_MODE 1, 2), (F.NET_PORT_INFO_MODE
      2, 2)] s
def prt (f : NetPort → NetPort) (s : State) : State := { s with ports := updAt f s.ports 1 }
def dr (x : StreamState → StreamState) : State :=
  let s := put [(F.STR_DEF_KIND 3, 1), (F.STR_DEF_CLASS 3, 2), (F.FLW_FQ_SIZE_LINES 2, 64), (F.FLW_FQ_CREDIT_WORDS 2, 1024),
      (F.AFE_RUN_STATUS_DRAINING, 1), (F.STR_DRAIN_DRAIN_MS, 1)] (up 600000)
  { s with strs := updAt (fun y => x ({ y with active := true, ver := 2, ending := some 1, drainFrom := some 5 } : StreamState)) s.strs 3 }
def arp : List Byte := [255#8,255#8,255#8,255#8,255#8,255#8, 2#8,0#8,0#8,0#8,0#8,1#8, 8#8, 6#8] ++ zeros 46
def udp (port : Nat) : List Byte :=
  [255#8,255#8,255#8,255#8,255#8,255#8, 2#8,0#8,0#8,0#8,0#8,1#8, 8#8, 0#8] ++ [0x45#8, 0#8, 0#8, 32#8, 0#8, 0#8, 0#8, 0#8,
      64#8, 17#8, 0#8, 0#8, 1#8, 2#8, 3#8, 4#8, 0#8, 0#8, 0#8, 0#8] ++ [9#8, 9#8, BitVec.ofNat 8 (port / 256), BitVec.ofNat 8
      port, 0#8, 12#8, 0#8, 0#8] ++ zeros 20
def rxr (s : State) (f : Nat) (len : Nat) : State :=
  let s := put [(F.HIF_RING_CTRL_EN f 5, 1), (F.HIF_RING_CTRL_LOG2 f 5, 4), (F.NET_RX_FILTER_ARP 1, 1), (F.HIF_RX_ROUTE_FN,
      2)] s
  { s with host := { s.host with fns := updAt (fun x => { x with rings := updAt (fun y => { y with posted := [⟨3, leBytes 8 0x7000 ++ leBytes 4 len ++ zeros 4, [], false⟩] }) x.rings 5 }) s.host.fns f } }
def hf (len : Nat) (bad : Bool) (tot : Nat) : HostFrame := ⟨1, 4, zeros tot, len, true, false, true, bad, 0, 5#32, 2, false⟩
def hq (h : HostFrame) : State :=
  prt (fun x => { x with hostQ := [h], allowance := 100 }) (put [(F.HIF_RING_CTRL_EN 1 1, 1), (F.HIF_RING_CTRL_LOG2 1 1, 4)]
      (lk (up 50)))
def pd (m : Int) (r : Option Int) (o : Nat) : State :=
  put [(F.NET_PD_THR_THR 1, 10), (F.NET_PTP_CTRL_CONSEC 1, 3), (F.NET_PTP_CTRL_AVG 1, 2)] (prt (fun x =>
      { x with ptp := { x.ptp with meas := [m], run := r, outliers := o } }) (lk (up 50)))
def udpN : List Byte :=
  [255#8,255#8,255#8,255#8,255#8,255#8, 2#8,0#8,0#8,0#8,0#8,1#8, 8#8, 0#8] ++ [0x45#8, 0#8, 0#8, 92#8, 0#8, 0#8, 0#8, 0#8,
      64#8, 17#8, 0#8, 0#8, 1#8, 2#8, 3#8, 4#8, 0#8, 0#8, 0#8, 0#8] ++ [9#8, 9#8, BitVec.ofNat 8 (5000 / 256), BitVec.ofNat 8
      5000, 0#8, 72#8, 0#8, 0#8] ++ zeros 64
def req (op : Nat) (body : List Byte) : List Byte :=
  let m := [0x44#8, 0x46#8, 1#8] ++ leBytes 1 op ++ leBytes 1 0 ++ [0#8] ++ leBytes 2 body.length ++ leBytes 8 5 ++ zeros 4 ++
      leBytes 2 0xFFFF ++ zeros 10 ++ body
  m ++ hmac256 (zeros 32) m
def dfr (u : List Byte) : List Byte :=
  zeros 6 ++ [2#8, 0#8, 0#8, 0#8, 0#8, 1#8, 8#8, 0#8] ++ ip4Bytes 0 64 [1#8, 2#8, 3#8, 4#8] (zeros 4) 4000 5000 u 0 false
def dS (u : List Byte) (s : State) : State :=
  { (s.wr R.NET_DMF_KEY_CTRL 1#32) with dmfQ := [(1, dfr u)], image := some (img 1) }
def W (off : Nat) (v : Nat) : List Byte := leBytes 4 off ++ leBytes 2 1 ++ zeros 2 ++ leBytes 4 v
def updB (k : Nat) (n : Nat) : List Byte := leBytes 4 k ++ leBytes 4 n
def vers (s : State) : State := put [(F.STR_DEF_VERS 3, 7)] s
def own (o st : Nat) (s : State) : State := put [(F.UPD_SESSION_OWNER, o), (F.UPD_STATUS_STATE, st)] s
def ud (f : UpdState → UpdState) (s : State) : State := { s with upd := f s.upd }
def ent (flags off len infLen : Nat) (hash : List Byte) : List Byte :=
  leBytes 1 1 ++ leBytes 1 flags ++ leBytes 2 7 ++ leBytes 4 off ++ leBytes 4 len ++ leBytes 4 infLen ++ zeros 24 ++ hash ++
      zeros 8
def hdr (es : List (List Byte)) : List Byte := zeros 13 ++ leBytes 1 es.length ++ zeros 18 ++ es.flatMap id
def secB : List Byte := [1#8, 2#8, 3#8, 4#8]
def jn (st a o pre : Nat) (s : State) : State :=
  { s with flash := { s.flash with journA := [JEntry.bytes ⟨3, st, a, o, pre, 1, 2⟩] } }
def sc (st : Nat) (again : Bool) (dma : Bool) (es : List (List Byte)) (b : List Byte) : State :=
  put [(F.UPD_OFFSET_NEXT, 4100)] (ud (fun u => { u with hdr := hdr es, buf := b, resent := again, dma := dma }) (own 1 st (jn
      1 1 2 0 (up 5))))
def xs : SlotSec := ⟨1, 0, 7, 4, 4, List.replicate 4 (0, 0, 0), sha384 secB, secB⟩
def wr1 (l : List SlotSec) : State :=
  { own 1 2 (jn 1 1 2 0 (up 5)) with mnt := (acts actImgwrite 0 false []).mnt, upd := { (up 5).upd with writes := l } }
def kp (x : SlotSec) : State :=
  let s := own 1 4 (jn 1 1 2 0 (up 5))
  { s with image := some (img 1), flash := { s.flash with slots := [⟨slotMap 1 [0, 1], [(1, hdr [ent 0 4096 4 4 x.hash])], [(1, x.bytes)]⟩, Slot.reset] } }
def ent5 : List Byte := leBytes 1 5 ++ (ent 0 4096 4 4 (sha384 secB)).drop 1
def kw (x : SlotSec) : State :=
  let s := kp x
  { s with mnt := (acts actImgwrite 0 false []).mnt, upd := { s.upd with hdr := hdr [ent5], writes := [xs] } }
def hl (b : List Byte) (k : Nat) (f : UpdState → UpdState) : State :=
  let s := ud f (own 5 9 (jn 3 1 2 0 (up k)))
  { s with image := some { img 1 with health := b } }
def h2 : List Byte := leBytes 2 10 ++ leBytes 1 2 ++ zeros 1 ++ (leBytes 1 1 ++ zeros 7) ++ (leBytes 1 3 ++ zeros 7)
def shf : SetHalf := ⟨setHeader 7 1 1 false secB, secB, []⟩
def sv (tag st : Nat) : State :=
  let s := own 5 st (jn 2 1 2 255 (up 5))
  { s with mnt := ⟨[⟨actSetsave, 0, tag, false, false⟩], []⟩, pwr := { s.pwr with snap := some shf, snapTo := 1 }, upd := { s.upd with owner := 2 } }
def ri (k : Nat) : RingIn := ⟨leBytes 2 k ++ zeros 14, zeros 8, false⟩
def pipi (f r pi ci : Nat) (s : State) : State := put [(F.HIF_RING_PI_PI f r, pi), (F.HIF_RING_CI_CI f r, ci)] s
def on (f r lg : Nat) (s : State) : State := put [(F.HIF_RING_CTRL_EN f r, 1), (F.HIF_RING_CTRL_LOG2 f r, lg)] s
def hfi (f : Nat) : HostFrame := ⟨f, 4, zeros 60, 60, true, false, true, false, 0, 5#32, 2, false⟩
def sig (m : Nat) (l : Option Nat) (msk : Bool) (pend : Bool) : State :=
  let s := put [(F.HIF_RING_CTRL_MOD 1 3, m), (F.HIF_RING_CTRL_VEC 1 3, 7)] (up 5000)
  { s with host := { s.host with linkUp := true, fns := updAt (fun x => { x with rings := updAt (fun y => { y with sigDue := true, lastSig := l }) x.rings 3, msix := updAt (fun y => { y with ctrl := if msk then 1#32 else 0#32, pend := pend }) x.msix 7 }) s.host.fns 1 } }
def behind (id : Ident) (s : State) : State :=
  { s with host := { s.host with fencePend := updAt (fun _ => some 4) s.host.fencePend id.num }, pwr := { s.pwr with held := [⟨id, 0x100010, 5#32, .write, false⟩] } }
def mb (st comp a b : Nat) (s : State) : State :=
  put [(F.MBX_STATUS_STATE 3, st), (F.MBX_STATUS_COMPOSER 3, comp), (F.MBX_BIND_A 3, a), (F.MBX_BIND_B 3, b)] s
def rst (i : Nat) (s : State) : State :=
  { s with mbx := { s.mbx with inReset := updAt (fun _ => true) s.mbx.inReset i, acks := [(3, i, 1), (3, 2, 1)] } }
def unl (s : State) : State := put [(F.DBG_STATUS_UNLOCKED, 1), (F.DBG_CTRL_STEP_COUNT, 3)] s
def rdW (off : Nat) : Nat := off * 2 ^ 32
def vf (l : List Bool) (n : Nat) : State :=
  let s := put [(F.DBG_STATUS_UNLOCK_FAILS, n)] (up 5)
  { s with dbg := { s.dbg with verify := l } }
def dst (n : Nat) (s : State) : State := put [(F.DBG_STATUS_STATE, n)] s
def rdy (s : State) : State :=
  let s := dst 1 { s with mnt := (acts actDbghalt 0 false []).mnt }
  { s with dbg := { s.dbg with ready := true, reqs := 4 } }
def hit (a : Nat) (s : State) : State :=
  let s := put [(F.DBG_BP_CTRL_ACTION 3, a)] s
  { s with dbg := { s.dbg with hits := [⟨2, 5, none⟩, ⟨3, 9, some 80⟩] } }
def ex0 (s : State) : State := { s with dbg := { s.dbg with ir := 0 } }
def tcu (src mode qual : Nat) : Word :=
  BitVec.ofNat 32 (put [(F.TIME_TCU_CTRL_SRC 3, src), (F.TIME_TCU_CTRL_MODE 3, mode), (F.TIME_TCU_CTRL_QUAL 3, qual),
      (F.TIME_TCU_CTRL_ARM 3, 1)] (up 0) |>.rd (R.TIME_TCU_CTRL 3)).toNat
def tper (s : State) : State := put [(F.TIME_TCU_PERIOD_NS_PERIOD_NS 3, 100)] s
def armed (per : Bool) (st tgt : Nat) (ev : Bool) (l : List Nat) : State :=
  let s := put [(F.TIME_TCU_CTRL_STATE 3, st)] (up 7)
  { s with time := { s.time with tcus := updAt (fun x => { x with target := tgt, arm := some ⟨2000000000 * 2 ^ 56, 0, 0, true, per, 100 * 2 ^ 56, 4, 0, ev, false, l⟩ }) s.time.tcus 3 } }
def anyArm : TcuArm := ⟨0, 0, 0, true, false, 0, 4, 0, false, false, []⟩
def fire1 : State :=
  let s := put [(F.TIME_TPO_CTRL_EN 1, 1)] (up 22)
  { s with time := { s.time with tcus := updAt (fun x => { x with fires := [⟨7, 22, 5, 4, [1, 2], false⟩] }) s.time.tcus 3 } }
def rf (ph : Nat) (r : ReformReq) (s : State) : State := { s with reform := { s.reform with reqs := [r], phase := ph } }
def pll (s : State) : State := put [(F.AFE_PLL_CFG_REF_DIV, 1), (F.AFE_PLL_CFG_OUT_DIV, 20), (F.AFE_PLL_FBINT_FB_INT, 800)] s
def cnv (f : ConvState → ConvState) (s : State) : State := { s with conv := f s.conv }
def relock : State :=
  let s := pll (up 5)
  cnv (fun c => { c with commit := true, cfg := s.rd R.AFE_PLL_CFG, fb := s.rd R.AFE_PLL_FB, fbint := s.rd R.AFE_PLL_FBINT })
      s
def locked (s : State) : State := put [(F.AFE_PLL_STATUS_LOCKED, 1)] s
def sy : State := locked (cnv (fun c => { c with cfg := 1#32 }) (up 5))
def inb (id : Ident) (o : Nat) (s : State) : State :=
  { s with pwr := { s.pwr with behind := [⟨id, o, 5#32, .write, false⟩] } }

theorem zlen (n : Nat) : (zeros n).length = n := List.length_replicate

def landing (n : Nat) (sp : Option (Nat × Option Nat)) : State :=
  let s := sh [(R.CND_DELAY_INT 3, 5#32)] (put [(F.HIF_APPLY_STATUS_STATE, 2)] (inRun 3 77))
  { s with host := { s.host with landAt := some n }, dbg := { s.dbg with spans := sp.toList } }

theorem noReset (i : Nat) : (up 5).mbx.inReset.getD i false = false := by
  have h : (up 5).mbx.inReset = List.replicate (up 5).mbx.inReset.length false := by decide +kernel
  rw [h, List.getD_eq_getElem?_getD, List.getElem?_replicate]
  split <;> rfl

theorem noCtx (a : Nat) : (cells (pt (up 5))).ctxAt a = none := by
  have h : (cells (pt (up 5))).snt.ctxs.all (fun c => !c.used) = true := by decide +kernel
  have k : ((cells (pt (up 5))).snt.ctxs.getD ((a - (cells (pt (up 5))).partBase 3) / 40960) SntCtx.reset).used = false := by
    rw [List.getD_eq_getElem?_getD]
    rw [List.all_eq_true] at h
    cases hx : (cells (pt (up 5))).snt.ctxs[(a - (cells (pt (up 5))).partBase 3) / 40960]? with
    | none => rfl
    | some c => simpa using h c (List.mem_of_getElem? hx)
  unfold State.ctxAt
  dsimp only
  rw [k, Bool.and_false]
  rfl

theorem noClass (n : Nat) (h : n < 4) :
    ({ up 20 with run := { RunState.reset with sync := some ⟨8, 0, 0, 0, true, false, some 16⟩ } } : State).bit (F.AFE_SYNC_CLS_CTRL_EN n) = true →
    ({ up 20 with run := { RunState.reset with sync := some ⟨8, 0, 0, 0, true, false, some 16⟩ } } : State).getF (F.AFE_SYNC_CLS_MIN_MIN n) ≤ 16 - 8 →
    ({ up 20 with run := { RunState.reset with sync := some ⟨8, 0, 0, 0, true, false, some 16⟩ } } : State).getF (F.AFE_SYNC_CLS_MAX_MAX n) < 16 - 8 := by
  have e : ({ up 20 with run := { RunState.reset with sync := some ⟨8, 0, 0, 0, true, false, some 16⟩ } } : State).bit (F.AFE_SYNC_CLS_CTRL_EN n) = false := by
    rcases n with _ | _ | _ | _ | n
    · decide +kernel
    · decide +kernel
    · decide +kernel
    · decide +kernel
    · omega
  intro g; rw [e] at g; cases g
theorem witness_updEnd4 : ∃ (s : State) (p : Nat) (b : List Byte) (rest : List (Nat × List Byte)) (body : List Byte), s.dmfHead p b rest
      ∧ dmfOp (udpPayload b) = 4 ∧ body = dmfBody (udpPayload b) ∧ 8 ≤ body.length ∧ body.length ≤ 8192
      ∧ leAt (udpPayload b) 32 1 = 4 ∧ body.length = 8 ∧ s.updOwner = 3 ∧ 1 ≤ s.updSt ∧ s.updSt ≤ 6 ∧ s.updSt ≠ 6 :=
  ⟨own 3 5 (dS (req 4 (updB 4 0)) (up 5)), 1, dfr (req 4 (updB 4 0)), [], updB 4 0, by unfold State.dmfHead; decide +kernel⟩
theorem witness_updEnd8 : ∃ (s : State) (p : Nat) (b : List Byte) (rest : List (Nat × List Byte)) (body : List Byte), s.dmfHead p b rest
      ∧ dmfOp (udpPayload b) = 4 ∧ body = dmfBody (udpPayload b) ∧ 8 ≤ body.length ∧ body.length ≤ 8192
      ∧ leAt (udpPayload b) 32 1 = 8 ∧ body.length = 8 ∧ s.updOwner = 3 ∧ 1 ≤ s.updSt ∧ s.updSt ≤ 6 ∧ s.updSt ≠ 6 :=
  ⟨own 3 4 (dS (req 4 (updB 8 0)) (up 5)), 1, dfr (req 4 (updB 8 0)), [], updB 8 0, by unfold State.dmfHead; decide +kernel⟩
theorem witness_updOther2 : ∃ (s : State) (p : Nat) (b : List Byte) (rest : List (Nat × List Byte)) (body : List Byte), s.dmfHead p b rest
      ∧ dmfOp (udpPayload b) = 4 ∧ body = dmfBody (udpPayload b) ∧ 8 ≤ body.length ∧ body.length ≤ 8192
      ∧ leAt (udpPayload b) 32 1 = 2 ∧ body.length = 8 ∧ s.updOwner ≠ 3 :=
  ⟨own 2 1 (dS (req 4 (updB 2 0)) (up 5)), 1, dfr (req 4 (updB 2 0)), [], updB 2 0, by unfold State.dmfHead; decide +kernel⟩
theorem witness_updOther3 : ∃ (s : State) (p : Nat) (b : List Byte) (rest : List (Nat × List Byte)) (body : List Byte), s.dmfHead p b rest
      ∧ dmfOp (udpPayload b) = 4 ∧ body = dmfBody (udpPayload b) ∧ 8 ≤ body.length ∧ body.length ≤ 8192
      ∧ leAt (udpPayload b) 32 1 = 3 ∧ body.length = 8 ∧ s.updOwner ≠ 3 :=
  ⟨own 2 6 (dS (req 4 (updB 3 0)) (up 5)), 1, dfr (req 4 (updB 3 0)), [], updB 3 0, by unfold State.dmfHead; decide +kernel⟩
theorem witness_updOther4 : ∃ (s : State) (p : Nat) (b : List Byte) (rest : List (Nat × List Byte)) (body : List Byte), s.dmfHead p b rest
      ∧ dmfOp (udpPayload b) = 4 ∧ body = dmfBody (udpPayload b) ∧ 8 ≤ body.length ∧ body.length ≤ 8192
      ∧ leAt (udpPayload b) 32 1 = 4 ∧ body.length = 8 ∧ s.updOwner ≠ 3 :=
  ⟨own 1 5 (dS (req 4 (updB 4 0)) (up 5)), 1, dfr (req 4 (updB 4 0)), [], updB 4 0, by unfold State.dmfHead; decide +kernel⟩
theorem witness_updOther8 : ∃ (s : State) (p : Nat) (b : List Byte) (rest : List (Nat × List Byte)) (body : List Byte), s.dmfHead p b rest
      ∧ dmfOp (udpPayload b) = 4 ∧ body = dmfBody (udpPayload b) ∧ 8 ≤ body.length ∧ body.length ≤ 8192
      ∧ leAt (udpPayload b) 32 1 = 8 ∧ body.length = 8 ∧ s.updOwner ≠ 3 :=
  ⟨own 0 0 (dS (req 4 (updB 8 0)) (up 5)), 1, dfr (req 4 (updB 8 0)), [], updB 8 0, by unfold State.dmfHead; decide +kernel⟩

/-! ### Witnesses: for each clause of each statement with hypotheses, states and operands that meet them together -/

theorem witness_ResetValues : 4 ∉ [R.GLB_PART, R.GLB_PCI_ID] ∧ (0 : Nat) < 4 := by decide

theorem witness_StepTakesFront :
    ∃ (s : State), s.pending = [] ∧ (∀ y ∈ s.mnt.running, y.a ≠ actTimestep ∧ y.a ≠ actDelaychg) ∧ s.getF F.DBG_STATUS_STATE ≠ 3
      ∧ s.pwr.por = true :=
  ⟨{ up 5 with pwr := { (up 5).pwr with por := true } }, by decide +kernel⟩

theorem witness_FrcCountsTicks :
    (∃ (s : State), s.pending = []) ∧
    (∃ (c : Instr) (s t : State), exec c s = .next t ∧ (∀ por, c ≠ .coldReset por)) ∧
    (∃ (c : Instr) (s t : State), exec c s = .next t ∧ c ≠ .incrRebase ∧ c ≠ .stepApplied ∧ (∀ por, c ≠ .coldReset por)) :=
  ⟨⟨up 0, by decide +kernel⟩,
    ⟨.clkUnlock, up 5, _, rfl, by intro _ h; cases h⟩,
    ⟨.clkUnlock, up 5, _, rfl, (by intro h; cases h), (by intro h; cases h), by intro _ h; cases h⟩⟩

theorem witness_IncrStaysInRange :
    ∃ s t : State, s.incrInRange ∧ step s = .next t :=
  ⟨State.reset, _, by unfold State.incrInRange; decide +kernel, rfl⟩

theorem witness_ImageMovesOnlyBy :
    ∃ (c : Instr) (s t : State), exec c s = .next t ∧ (∀ g, c ≠ .powerUp g) ∧ c ≠ .reformLoadPass ∧ (∀ l n g,
      c ≠ .warmResetRelease l n g) ∧ (∀ por, c ≠ .coldReset por) :=
  ⟨.clkUnlock, up 5, _, rfl, (by intro _ h; cases h), (by intro h; cases h), (by intro _ _ _ h; cases h), by intro _ h; cases h⟩

theorem witness_EffectsLeaveTheQueue :
    (∃ (c : Instr) (s t : State), exec c s = .next t) ∧
    (∃ c : Instr, c.wf = true) ∧
    (∃ c : Instr, c.wf = true) ∧
    (∃ (c : Instr) (s : State), ∀ t, exec c s ≠ .next t) :=
  ⟨⟨.clkUnlock, up 5, _, rfl⟩,
    ⟨.clkUnlock, by decide⟩,
    ⟨.registerWrite .host0 0x7FFFFC .bad, by decide⟩,
    ⟨.hostWindowAccess .host0 134217728 none 4, up 5, fun _ (h : Host.Outcome.fault Fault.outsideBar2 = _) => (nomatch h)⟩⟩

theorem witness_IncrCommitResult :
    (∃ (id : Ident) (hi : Word) (s : State), s.goes id R.TIME_INCR_HI ∧ s.time.incrPend.isSome = true
      ∧ ((s.time.incrPend.isSome = true) ∧ (incrOk (join64 (s.rd R.TIME_INCR_LO) hi) = false))) ∧
    (∃ (id : Ident) (hi : Word) (s : State), s.goes id R.TIME_INCR_HI ∧ ((s.time.incrPend = none)
      ∧ (incrOk (join64 (s.rd R.TIME_INCR_LO) hi) = false))) ∧
    (∃ (id : Ident) (hi : Word) (s : State), s.goes id R.TIME_INCR_HI ∧ ((s.time.incrPend = none)
      ∧ (incrOk (join64 (s.rd R.TIME_INCR_LO) hi) = true))) :=
  ⟨⟨.host0, 0x01000000#32, { up 7 with time := { (up 7).time with incrPend := some (2 ^ 57, 3) } },
          by unfold State.goes; decide +kernel⟩,
    ⟨.host0, 0x01000000#32, up 7, by unfold State.goes; decide +kernel⟩,
    ⟨.host0, 0x02000000#32, up 7, by unfold State.goes; decide +kernel⟩⟩

theorem witness_IncrRebaseContinuous :
    ∃ (s : State) (v k : Nat), s.time.incrPend = some (v, k) ∧ k < s.tick ∧ (s.stepDue = true → s.time.stepFirst = false) :=
  ⟨{ up 7 with time := { (up 7).time with incrPend := some (2 ^ 57, 6) } }, 2 ^ 57, 6, by decide +kernel⟩

theorem witness_StepsMoveTime :
    (∃ (id : Ident) (s : State), s.goes id R.TIME_STEP_HI ∧ s.time.stepPend.isSome = true) ∧
    (∃ (id : Ident) (s : State), s.goes id R.TIME_STEP_HI ∧ s.time.stepPend = none) ∧
    (∃ (s : State) (z : Int) (k : Nat), s.time.stepPend = some (z, k) ∧ k < s.tick ∧ (∀ v i, s.time.incrPend = some (v, i)
      → i < s.tick → k < i) ∧ 0 ≤ (s.time.at (BitVec.ofNat 64 (k + 1)) : Int) + z * (2 ^ 56 : Nat)) ∧
    (∃ (s : State) (z : Int) (k : Nat), s.time.stepPend = some (z, k) ∧ k < s.tick ∧ (∀ v i, s.time.incrPend = some (v, i)
      → i < s.tick → k < i) ∧ (s.time.at (BitVec.ofNat 64 (k + 1)) : Int) + z * (2 ^ 56 : Nat) < 0) :=
  ⟨⟨.host1, { up 7 with time := { (up 7).time with stepPend := some (-14, 6) } }, by unfold State.goes; decide +kernel⟩,
    ⟨.host1, up 7, by unfold State.goes; decide +kernel⟩,
    ⟨{ up 7 with time := { (up 7).time with stepPend := some (-14, 6) } }, -14, 6, by decide +kernel, by decide +kernel,
          fun v i (h : none = some (v, i)) => (nomatch h), by decide +kernel⟩,
    ⟨{ up 7 with time := { (up 7).time with stepPend := some (-15, 6) } }, -15, 6, by decide +kernel, by decide +kernel,
          fun v i (h : none = some (v, i)) => (nomatch h), by decide +kernel⟩⟩

theorem witness_TcuArmResult :
    ∃ (id : Ident) (n : Fin 16) (s : State), s.goes id (R.TIME_TCU_CTRL n) :=
  ⟨.host0, 3, up 7, by unfold State.goes; decide +kernel⟩

theorem witness_TcuDisarmResult :
    (∃ (id : Ident) (n : Fin 16) (s : State), s.goes id (R.TIME_TCU_CTRL n) ∧ (∃ x ∈ (s.tcu n).fires, x.decision ≤ s.tick
      ∧ s.tick ≤ x.launch)) ∧
    (∃ (id : Ident) (n : Fin 16) (s : State), s.goes id (R.TIME_TCU_CTRL n) ∧ (∀ x ∈ (s.tcu n).fires, ¬ (x.decision ≤ s.tick
      ∧ s.tick ≤ x.launch))) :=
  ⟨⟨.host0, 3, { up 7 with time := { (up 7).time with tcus := updAt (fun x => { x with fires := [⟨7, 22, 0, 4, [], false⟩] }) (up 7).time.tcus 3 } },
          by unfold State.goes; decide +kernel⟩,
    ⟨.host0, 3, up 7, by unfold State.goes; decide +kernel⟩⟩

theorem witness_TcuQualifyLoads :
    (∃ (p : Nat), 0 < p) ∧
    (∃ (n : Fin 16) (s : State) (a : TcuArm) (b : Nat), (s.tcu n).arm = some a ∧ s.getF (F.TIME_TCU_CTRL_STATE n) = 1
      ∧ s.stepDue = false
      ∧ b = (if a.periodic then max (firstBoundary a.full a.period (s.launchTime 0)) (s.tcu n).target else a.full)
      ∧ b ≤ s.now + 2 * (10 ^ 9 * 2 ^ 56)) :=
  ⟨⟨7, by decide +kernel⟩,
    ⟨3, armed false 1 0 true [], ⟨2000000000 * 2 ^ 56, 0, 0, true, false, 100 * 2 ^ 56, 4, 0, true, false, []⟩,
          2000000000 * 2 ^ 56, by decide +kernel⟩⟩

theorem witness_TcuDecides :
    (∃ (n : Fin 16) (s : State) (a : TcuArm) (os : List Nat) (late : Bool) (launch v e : Nat), (s.tcu n).arm = some a
      ∧ s.getF (F.TIME_TCU_CTRL_STATE n) = 2 ∧ s.stepDue = false ∧ s.tcuDue a.src (s.tcu n).target = true
      ∧ os = (if a.tpoAtArm.isEmpty then [] else s.tposOf n) ∧ s.tcuOutcome a (s.tcu n).target os = (late, launch, v, e)
      ∧ late = true ∧ a.periodic = false ∧ n.val < s.time.tcus.length ∧ a.evrec = true) ∧
    (∃ (n : Fin 16) (s : State) (a : TcuArm) (os : List Nat) (late : Bool) (launch v e : Nat), (s.tcu n).arm = some a
      ∧ s.getF (F.TIME_TCU_CTRL_STATE n) = 2 ∧ s.stepDue = false ∧ s.tcuDue a.src (s.tcu n).target = true
      ∧ os = (if a.tpoAtArm.isEmpty then [] else s.tposOf n) ∧ s.tcuOutcome a (s.tcu n).target os = (late, launch, v, e)
      ∧ a.periodic = true) ∧
    (∃ (n : Fin 16) (s : State) (a : TcuArm) (os : List Nat) (late : Bool) (launch v e : Nat), (s.tcu n).arm = some a
      ∧ s.getF (F.TIME_TCU_CTRL_STATE n) = 2 ∧ s.stepDue = false ∧ s.tcuDue a.src (s.tcu n).target = true
      ∧ os = (if a.tpoAtArm.isEmpty then [] else s.tposOf n) ∧ s.tcuOutcome a (s.tcu n).target os = (late, launch, v, e)
      ∧ a.evrec = false) :=
  ⟨⟨3, armed false 2 (9 * 2 ^ 56) true [], ⟨2000000000 * 2 ^ 56, 0, 0, true, false, 100 * 2 ^ 56, 4, 0, true, false, []⟩, [],
          true, 22, 0, 44 * 2 ^ 56, by decide +kernel⟩,
    ⟨3, armed true 2 (46 * 2 ^ 56) true [], ⟨2000000000 * 2 ^ 56, 0, 0, true, true, 100 * 2 ^ 56, 4, 0, true, false, []⟩, [],
          false, 23, 0, 46 * 2 ^ 56, by decide +kernel⟩,
    ⟨3, armed false 2 (45 * 2 ^ 56) false [], ⟨2000000000 * 2 ^ 56, 0, 0, true, false, 100 * 2 ^ 56, 4, 0, false, false, []⟩, [],
          false, 22, 64, 45 * 2 ^ 56, by decide +kernel⟩⟩

theorem witness_DecisionOutcome :
    (∃ (s : State) (a : TcuArm) (t lt l v : Nat), lt = s.srcNow a.src + 15 * s.srcIncr a.src ∧ l = s.now + 16 * s.incrNow
      ∧ v = (t - lt) * 64 / 2 ^ 56 ∧ ((a.src = 0) ∧ (lt < t))) ∧
    (∃ (s : State) (a : TcuArm) (t lt l v : Nat), lt = s.srcNow a.src + 15 * s.srcIncr a.src ∧ l = s.now + 16 * s.incrNow
      ∧ v = (t - lt) * 64 / 2 ^ 56 ∧ ((a.src ≠ 0) ∧ (lt < t))) ∧
    (∃ (s : State) (a : TcuArm) (t lt l v : Nat), lt = s.srcNow a.src + 15 * s.srcIncr a.src ∧ l = s.now + 16 * s.incrNow
      ∧ v = (t - lt) * 64 / 2 ^ 56 ∧ t ≤ lt) :=
  ⟨⟨up 7, anyArm, 46 * 2 ^ 56, (up 7).srcNow (anyArm).src + 15 * (up 7).srcIncr (anyArm).src, (up 7).now + 16 * (up 7).incrNow,
          (46 * 2 ^ 56 - ((up 7).srcNow (anyArm).src + 15 * (up 7).srcIncr (anyArm).src)) * 64 / 2 ^ 56, by decide +kernel⟩,
    ⟨up 7, { anyArm with src := 1 }, 46 * 2 ^ 56,
          (up 7).srcNow ({ anyArm with src := 1 }).src + 15 * (up 7).srcIncr ({ anyArm with src := 1 }).src,
          (up 7).now + 16 * (up 7).incrNow,
          (46 * 2 ^ 56 - ((up 7).srcNow ({ anyArm with src := 1 }).src + 15 * (up 7).srcIncr ({ anyArm with src := 1 }).src)) * 64 / 2 ^ 56,
          by decide +kernel⟩,
    ⟨up 7, anyArm, 44 * 2 ^ 56, (up 7).srcNow (anyArm).src + 15 * (up 7).srcIncr (anyArm).src, (up 7).now + 16 * (up 7).incrNow,
          (44 * 2 ^ 56 - ((up 7).srcNow (anyArm).src + 15 * (up 7).srcIncr (anyArm).src)) * 64 / 2 ^ 56, by decide +kernel⟩⟩

theorem witness_PulseEdges :
    (∃ (n : Fin 16) (s : State) (f : TcuFire), (s.tcu n).fires.find? (fun f => !f.launched && decide (f.launch ≤ s.tick)) = some f
      ∧ f.tpos.Nodup ∧ ((s.bit F.PWR_STATUS_READY = true) ∧ (s.dbg.ir ≠ 0)) ∧ (∃ o ∈ f.tpos,
      (s.bit (F.TIME_TPO_CTRL_EN o) = true) ∧ (o < s.time.tpos.length))) ∧
    (∃ (n : Fin 16) (s : State) (f : TcuFire), (s.tcu n).fires.find? (fun f => !f.launched && decide (f.launch ≤ s.tick)) = some f
      ∧ f.tpos.Nodup ∧ (s.bit F.PWR_STATUS_READY = false ∨ s.dbg.ir = 0)) ∧
    (∃ (o : Fin 8) (s : State) (k : Nat), (s.time.tpos.getD o Tpo.reset).trail = some k ∧ k ≤ s.tick
      ∧ ((s.bit F.PWR_STATUS_READY = true) ∧ (s.dbg.ir ≠ 0) ∧ (o < s.time.tpos.length) ∧ (s.bit (F.TIME_TPO_CTRL_EN o) = true)
      ∧ ((s.time.tpos.getD o Tpo.reset).active = true))) ∧
    (∃ (o : Fin 8) (s : State) (k : Nat), (s.time.tpos.getD o Tpo.reset).trail = some k ∧ k ≤ s.tick
      ∧ (s.bit F.PWR_STATUS_READY = false ∨ s.dbg.ir = 0)) :=
  ⟨⟨3, put [(F.PWR_STATUS_READY, 1)] fire1, ⟨7, 22, 5, 4, [1, 2], false⟩, by decide +kernel⟩,
    ⟨3, fire1, ⟨7, 22, 5, 4, [1, 2], false⟩, by decide +kernel⟩,
    ⟨1, put [(F.PWR_STATUS_READY, 1), (F.TIME_TPO_CTRL_EN 1,
          1)] { up 26 with time := { (up 26).time with tpos := updAt (fun _ => ⟨true, some 22, some 26, 5, 3⟩) (up 26).time.tpos 1 } },
          26, by decide +kernel⟩,
    ⟨1, { up 26 with time := { (up 26).time with tpos := updAt (fun _ => ⟨true, some 22, some 26, 5, 3⟩) (up 26).time.tpos 1 } },
          26, by decide +kernel⟩⟩

theorem witness_CaptureStamps :
    (∃ (u : Fin 5) (rise : Bool) (f : Fin 128) (s : State) (x : Nat), s.bit (F.TIME_TCI_CTRL_EN u) = true
      ∧ if rise then s.getF (F.TIME_TCI_CTRL_EDGE u) % 2 = 1 else s.getF (F.TIME_TCI_CTRL_EDGE u) / 2 % 2 = 1
      ∧ x = s.now + f * s.incrNow / 128 ∧ (∃ k, s.time.tciLast.getD u none = some k ∧ s.tick < k + 8)) ∧
    (∃ (u : Fin 5) (rise : Bool) (f : Fin 128) (s : State) (x : Nat), s.bit (F.TIME_TCI_CTRL_EN u) = true
      ∧ if rise then s.getF (F.TIME_TCI_CTRL_EDGE u) % 2 = 1 else s.getF (F.TIME_TCI_CTRL_EDGE u) / 2 % 2 = 1
      ∧ x = s.now + f * s.incrNow / 128 ∧ (∀ k, s.time.tciLast.getD u none = some k → k + 8 ≤ s.tick)) :=
  ⟨⟨2, false, 64, (let s := put [(F.TIME_TCI_CTRL_EN 2, 1), (F.TIME_TCI_CTRL_EDGE 2, 3)] (up 100); { s with time := { s.time with tciLast := updAt (fun _ => some 93) s.time.tciLast 2 } }), (100 * 2 ^ 57 + 2 ^ 56), by decide +kernel⟩,
    ⟨2, true, 64, put [(F.TIME_TCI_CTRL_EN 2, 1), (F.TIME_TCI_CTRL_EDGE 2, 1)] (up 100), (100 * 2 ^ 57 + 2 ^ 56),
          by decide +kernel⟩⟩

theorem witness_AnchorTaken :
    ∃ (s : State), s.runSt = 3 ∧ s.run.running = true ∧ 0 < s.run.next ∧ (s.run.next - 1) % 65536 = 0 ∧ (∀ a,
      s.time.anchors.head? = some a → a.sn ≠ s.run.next - 1) ∧ s.run.next - 1 < 2 ^ 64 :=
  ⟨inRun 3 65537, by decide +kernel⟩

theorem witness_LegacyLoad :
    (∃ (id : Ident) (n : Fin 4) (s : State), s.goes id (R.TIME_TB_NS n)) ∧
    (∃ (s : State) (n ns : Nat) (b : LegacyTb), n < s.time.tbs.length ∧ s.tb n = b ∧ b.load = some ns ∧ s.pending = []
      ∧ s.pwr.por = false) ∧
    (∃ (s : State), s.pending = [] ∧ s.pwr.por = false ∧ (∀ b ∈ s.time.tbs, b.load = none)) :=
  ⟨⟨.host0, 2, up 7, by unfold State.goes; decide +kernel⟩,
    ⟨{ up 7 with time := { (up 7).time with tbs := updAt (fun b => { b with load := some 9 }) (up 7).time.tbs 2 } }, 2, 9, (let s : State := { up 7 with time := { (up 7).time with tbs := updAt (fun b => { b with load := some 9 }) (up 7).time.tbs 2 } }; s.tb 2), by decide +kernel⟩,
    ⟨up 5, by decide +kernel⟩⟩

theorem witness_WritePathStops :
    (∃ (off : Nat) (s : State), off < 0x800000 ∧ s.pwr.por = true) ∧
    (∃ (id : Ident) (off : Nat) (s : State), off < 0x800000 ∧ off % 4 = 0 ∧ specialAt off = .none ∧ (regRow? off).isSome = true
      ∧ s.pwr.por = false ∧ ¬ s.goes id off ∧ s.wrDenied id off = true) ∧
    (∃ (id : Ident) (off : Nat) (s : State), off < 0x800000 ∧ off % 4 = 0 ∧ specialAt off = .none ∧ (regRow? off).isSome = true
      ∧ s.pwr.por = false ∧ ¬ s.goes id off ∧ ((s.wrDenied id off = false) ∧ ((s.fenced id || s.inOrder id off) = true))) ∧
    (∃ (id : Ident) (off : Nat) (s : State), off < 0x800000 ∧ off % 4 = 0 ∧ specialAt off = .none ∧ (regRow? off).isSome = true
      ∧ s.pwr.por = false ∧ ¬ s.goes id off ∧ ((s.wrDenied id off = false) ∧ ((s.fenced id || s.inOrder id off) = false)
      ∧ (domainOf off ∈ [10, 12, 13]))) ∧
    (∃ (id : Ident) (off : Nat) (s : State), off < 0x800000 ∧ off % 4 = 0 ∧ specialAt off = .none ∧ (regRow? off).isSome = true
      ∧ s.pwr.por = false ∧ ¬ s.goes id off ∧ ((s.wrDenied id off = false) ∧ ((s.fenced id || s.inOrder id off) = false)
      ∧ (domainOf off ∉ [10, 12, 13]))) ∧
    (∃ (id : Ident) (off : Nat), off < 0x800000 ∧ off % 4 = 0 ∧ regRow? off = none ∧ (specialAt off = .none ∨ (∃ n,
      specialAt off = .channel n)) ∧ onBus id = true) :=
  ⟨⟨0x100, { up 5 with pwr := { (up 5).pwr with por := true } }, by decide +kernel⟩,
    ⟨.upd, 8, up 5, by unfold State.goes; decide +kernel⟩,
    ⟨.host0, 8, behind .host0 (up 5), by unfold State.goes; decide +kernel⟩,
    ⟨.host0, R.SNT_CTRL, (up 5).wr R.PWR_DOM_STATE 0#32, by unfold State.goes; decide +kernel⟩,
    ⟨.host0, R.MEM_SCRUB_CTRL, (up 5).wr R.PWR_DOM_STATE 0#32, by unfold State.goes; decide +kernel⟩,
    ⟨.host1, 0x7FFFFC, by decide +kernel, by decide +kernel, by decide +kernel, .inl (by decide +kernel), by decide +kernel⟩⟩

theorem witness_RequestShape :
    (∃ (off : Nat), off < 0x800000 ∧ off % 8 = 0) ∧
    (∃ (off : Nat), 0x800000 ≤ off) ∧
    (∃ (off : Nat) (r : BarWrite), off < 0x800000 ∧ (r = .bad ∨ (∃ v, r = .dw v ∧ off % 4 ≠ 0) ∨ (∃ a b, r = .two a b
      ∧ off % 8 ≠ 0))) ∧
    (∃ (off : Nat) (r : BarWrite), off < 0x800000 ∧ (r = .bad ∨ (∃ v, r = .dw v ∧ off % 4 ≠ 0) ∨ (∃ a b, r = .two a b
      ∧ off % 8 ≠ 0))) ∧
    (∃ (off : Nat) (r : BarRead), off < 0x800000 ∧ (r = .bad ∨ (r = .dw ∧ off % 4 ≠ 0) ∨ (r = .two ∧ off % 8 ≠ 0))) ∧
    (∃ (off : Nat) (r : BarRead), off < 0x800000 ∧ (r = .bad ∨ (r = .dw ∧ off % 4 ≠ 0) ∨ (r = .two ∧ off % 8 ≠ 0))) :=
  ⟨⟨8, by decide +kernel⟩,
    ⟨0x800000, by decide +kernel⟩,
    ⟨5, .dw 4#32, by decide, .inr (.inl ⟨_, rfl, by decide⟩)⟩,
    ⟨4, .two 4#32 3#32, by decide, .inr (.inr ⟨_, _, rfl, by decide⟩)⟩,
    ⟨6, .dw, by decide⟩,
    ⟨12, .two, by decide⟩⟩

theorem witness_PlainWriteHolds :
    (∃ (id : Ident) (off : Nat) (v m : Word) (s : State), off ∈ [R.TIME_QUALITY, R.UPD_TIMEOUT, R.AFE_RUN_CFG, R.AFE_RUN_DELAY,
      R.AFE_PLL_CFG, R.AFE_PLL_FB, R.AFE_PLL_FBINT, R.AFE_STOP_SN_LO, R.AFE_STOP_SN_HI, R.CAL_BG_CTRL, R.CAL_BG_INTERVAL,
      R.SNT_CTRL, R.STR_HUB_ID, R.STR_DRAIN, R.NET_DMF_CTRL, R.NET_SYNCE_CTRL, R.HIF_TIMED_APPLY_LO, R.HIF_TIMED_APPLY_HI,
      R.PWR_TCU_WAKE, R.PWR_MON_LIMIT, R.DBG_BP_VALUE 0] ∧ s.goes id off ∧ m = accMask .rw off ∧ off ≠ R.NET_SYNCE_CTRL
      ∧ limitsOk off v = false) ∧
    (∃ (id : Ident) (off : Nat) (v m : Word) (s : State), off ∈ [R.TIME_QUALITY, R.UPD_TIMEOUT, R.AFE_RUN_CFG, R.AFE_RUN_DELAY,
      R.AFE_PLL_CFG, R.AFE_PLL_FB, R.AFE_PLL_FBINT, R.AFE_STOP_SN_LO, R.AFE_STOP_SN_HI, R.CAL_BG_CTRL, R.CAL_BG_INTERVAL,
      R.SNT_CTRL, R.STR_HUB_ID, R.STR_DRAIN, R.NET_DMF_CTRL, R.NET_SYNCE_CTRL, R.HIF_TIMED_APPLY_LO, R.HIF_TIMED_APPLY_HI,
      R.PWR_TCU_WAKE, R.PWR_MON_LIMIT, R.DBG_BP_VALUE 0] ∧ s.goes id off ∧ m = accMask .rw off ∧ limitsOk off v = true) ∧
    (∃ (id : Ident) (off : Nat) (s : State), off ∈ [R.HIF_DENY, R.HIF_BAD_REQ, R.CAL_TRANSIENT, R.IMG_VERSION, R.AFE_DELAY_USED,
      R.TIME_TCU_SKIP 0, R.UPD_TRANSIENT, R.PWR_RET_CE, R.NET_DMF_DROP, R.SNT_ERRORS] ∧ s.goes id off) ∧
    (∃ (id : Ident) (off : Nat) (s : State), off ∈ [R.TIME_STATUS, R.TIME_TCU_STATUS 3, R.AFE_PLL_STATUS, R.AFE_RUN_STATUS,
      R.IMG_REFORM_STATUS, R.HIF_STATUS, R.HIF_APPLY_STATUS, R.BMF_STATUS, R.FIR_STATUS 7, R.PWR_MON_STATUS] ∧ s.goes id off) ∧
    (∃ (id : Ident) (off : Nat) (m : Word) (s : State), off ∈ [R.AFE_TONE_CTRL 2, R.CND_DELAY_INT 5, R.CND_DELAY_CTRL 5,
      R.CND_ALIGN_CTRL, R.TRG_TC_CTRL 1, R.TRG_TO_CTRL 3, R.BMF_BANK_SEL] ∧ s.goes id off ∧ m = accMask .st off
      ∧ s.applySt = 0) ∧
    (∃ (id : Ident) (off : Nat) (m : Word) (s : State), off ∈ [R.AFE_TONE_CTRL 2, R.CND_DELAY_INT 5, R.CND_DELAY_CTRL 5,
      R.CND_ALIGN_CTRL, R.TRG_TC_CTRL 1, R.TRG_TO_CTRL 3, R.BMF_BANK_SEL] ∧ s.goes id off ∧ m = accMask .st off
      ∧ s.applySt ≠ 0) ∧
    (∃ (id : Ident) (n : Fin 16) (s : State), s.goes id (R.FLW_FQ_LIMIT n) ∧ s.fqHolds n = true ∧ ((s.fqHolds n = true)
      ∧ (n < s.fqHeld.length))) ∧
    (∃ (id : Ident) (n : Fin 16) (s : State), s.goes id (R.FLW_FQ_LIMIT n) ∧ s.fqHolds n = false) :=
  ⟨⟨.host0, R.CAL_BG_CTRL, 5#32, accMask .rw R.CAL_BG_CTRL, up 5, by unfold State.goes; decide +kernel⟩,
    ⟨.host1, R.TIME_QUALITY, 5#32, accMask .rw R.TIME_QUALITY, up 5, by unfold State.goes; decide +kernel⟩,
    ⟨.host0, R.SNT_ERRORS, up 5, by unfold State.goes; decide +kernel⟩,
    ⟨.host0, R.TIME_STATUS, (up 5).wr R.TIME_STATUS 0xFFFFFFFF#32, by unfold State.goes; decide +kernel⟩,
    ⟨.host0, R.AFE_TONE_CTRL 2, accMask .st (R.AFE_TONE_CTRL 2), up 5, by unfold State.goes; decide +kernel⟩,
    ⟨.host0, R.BMF_BANK_SEL, accMask .st R.BMF_BANK_SEL, put [(F.HIF_APPLY_STATUS_STATE, 1)] (up 5),
          by unfold State.goes; decide +kernel⟩,
    ⟨.dbg, 3, { put [(F.DBG_STATUS_STATE, 2)] (up 5) with fqs := updAt (fun _ => [pk]) (up 5).fqs 3 },
          by unfold State.goes; decide +kernel⟩,
    ⟨.dbg, 3, put [(F.DBG_STATUS_STATE, 2)] (up 5), by unfold State.goes; decide +kernel⟩⟩

theorem witness_RcReadClears :
    (∃ (id : Ident) (off : Nat) (s : State), off ∈ [R.AFE_START_COLLISION, R.AFE_STOP_COLLISION, R.AFE_SYNC_MALFORMED,
      R.AFE_SYNC_MISSED, R.UPD_TRANSIENT, R.NET_DMF_AUTHFAIL, R.NET_DMF_REPLAY, R.NET_DMF_DROP, R.NET_DMF_DENIED,
      R.HIF_BAD_REQ, R.HIF_DENY, R.MNT_LATE, R.TIME_TCI_MISSED 0, R.FLW_FQ_NOCREDIT 0] ∧ onBus id = true ∧ s.readsNow id off
      ∧ s.domOn (domainOf off) = true) ∧
    (∃ (id : Ident) (off : Nat) (s : State), off < 0x800000 ∧ off % 4 = 0 ∧ specialAt off = .none ∧ (regRow? off).isSome = true
      ∧ onBus id = true ∧ s.readsNow id off ∧ s.domOn (domainOf off) = false) ∧
    (∃ (id : Ident) (off : Nat) (s : State), off ∈ [R.TIME_QUALITY, R.TIME_STATUS, R.TIME_EPOCH, R.UPD_TIMEOUT, R.UPD_STATUS,
      R.AFE_RUN_CFG, R.AFE_RUN_STATUS, R.AFE_PLL_CFG, R.AFE_QPWR, R.CAL_BG_CTRL, R.SNT_CTRL, R.STR_DRAIN, R.NET_DMF_CTRL,
      R.HIF_STATUS, R.PWR_STATUS, R.PWR_MON_LIMIT, R.MNT_ALERT_MASK, R.IMG_STATUS, R.IMG_CHECK, R.GLB_PART, R.MEM_SCRUB_CTRL,
      R.FLW_FQ_LIMIT 3] ∧ onBus id = true ∧ s.readsNow id off ∧ s.domOn (domainOf off) = true ∧ (∀ e ∈ s.shadows, e.1 ≠ off)) ∧
    (∃ (id : Ident) (off : Nat) (s : State), off ∈ [R.AFE_TONE_CTRL 2, R.CND_DELAY_INT 5, R.CND_DELAY_CTRL 5, R.CND_ALIGN_CTRL,
      R.TRG_TC_CTRL 1, R.TRG_TO_CTRL 3, R.BMF_BANK_SEL] ∧ onBus id = true ∧ s.readsNow id off ∧ s.domOn (domainOf off) = true) ∧
    (∃ (id : Ident) (off : Nat) (s : State), off < 0x800000 ∧ off % 4 = 0 ∧ onBus id = true ∧ s.pwr.por = false
      ∧ s.readWaits id off = true) :=
  ⟨⟨.host0, R.HIF_DENY, put [(F.HIF_DENY_COUNT, 7)] (up 5), by unfold State.readsNow; decide +kernel⟩,
    ⟨.host0, R.SNT_ERRORS, (up 5).wr R.PWR_DOM_STATE 0#32, by unfold State.readsNow; decide +kernel⟩,
    ⟨.host0, R.TIME_QUALITY, up 5, by unfold State.readsNow; decide +kernel⟩,
    ⟨.host0, R.CND_DELAY_INT 5, { up 5 with shadows := [(R.CND_DELAY_INT 5, 9#32)] }, by unfold State.readsNow; decide +kernel⟩,
    ⟨.host0, R.SNT_CTRL, inb .host0 R.SNT_CTRL (up 5), by decide +kernel⟩⟩

theorem witness_SnapshotIsOneInstant :
    (∃ (id : Ident) (s : State), onBus id = true ∧ s.readsNow id R.TIME_NOW_SEC_LO) ∧
    (∃ (id : Ident) (off : Nat) (s : State), onBus id = true ∧ s.readsNow id off ∧ off ∈ [R.TIME_NOW_SEC_HI, R.TIME_NOW_NS,
      R.TIME_NOW_FRAC, R.TIME_NOW_FRC_LO, R.TIME_NOW_FRC_HI, R.TIME_NOW_SHORT]) :=
  ⟨⟨.host0, up 5, by unfold State.readsNow; decide +kernel⟩,
    ⟨.host1, R.TIME_NOW_NS, up 5, by unfold State.readsNow; decide +kernel⟩⟩

theorem witness_FenceCompletes :
    (∃ (id : Ident) (s : State), s.goes id R.GLB_FENCE ∧ (s.early id = true ∨ s.fencing id = false)
      ∧ (∀ h ∈ s.pwr.held ++ s.pwr.behind, h.ident ≠ id)) ∧
    (∃ (id : Ident) (s : State), s.goes id R.GLB_FENCE ∧ ((s.host.fencePend.getD id.num none).isSome = true
      ∧ ((s.early id = false)))) ∧
    (∃ (id : Ident) (k : Nat) (s : State), (∀ h ∈ s.pwr.held ++ s.pwr.behind, h.ident ≠ id)
      ∧ s.host.fencePend.getD id.num none = some k) ∧
    (∃ (id : Ident) (s : State), (∃ h ∈ s.pwr.held ++ s.pwr.behind, h.ident = id ∧ h.isWrite = true ∧ h.late = false)) :=
  ⟨⟨.host0, up 5, by unfold State.goes; decide +kernel⟩,
    ⟨.host0, { up 5 with host := { (up 5).host with fencePend := (up 5).host.fencePend.map (fun _ => some 3) } },
          by unfold State.goes; decide +kernel⟩,
    ⟨.host1, 4, (let s := behind .host1 (up 5); { s with pwr := { s.pwr with held := [] } }), by decide +kernel⟩,
    ⟨.host1, behind .host1 (up 5), by decide +kernel⟩⟩

theorem witness_ReformRequestResult :
    (∃ (id : Ident) (v : Word) (s : State), s.goes id R.IMG_REFORM_CTRL ∧ v.getLsbD 31 = false) ∧
    (∃ (id : Ident) (v : Word) (s : State), s.goes id R.IMG_REFORM_CTRL ∧ ((v.getLsbD 31 = true) ∧ (getBits v 0 2 = 0))) ∧
    (∃ (id : Ident) (v : Word) (s : State), s.goes id R.IMG_REFORM_CTRL ∧ ((v.getLsbD 31 = true) ∧ (getBits v 0 2 ≠ 0)
      ∧ (s.updBusy = true))) ∧
    (∃ (id : Ident) (v : Word) (s : State), s.goes id R.IMG_REFORM_CTRL ∧ ((v.getLsbD 31 = true) ∧ (getBits v 0 2 ≠ 0)
      ∧ (s.updBusy = false) ∧ (2 ≤ s.reform.reqs.length))) ∧
    (∃ (id : Ident) (v : Word) (s : State), s.goes id R.IMG_REFORM_CTRL ∧ ((v.getLsbD 31 = true) ∧ (getBits v 0 2 ≠ 0)
      ∧ (s.updBusy = false) ∧ (s.reform.reqs.length < 2))) :=
  ⟨⟨.host0, 5#32, up 5, by unfold State.goes; decide +kernel⟩,
    ⟨.host0, 0x80000004#32, up 5, by unfold State.goes; decide +kernel⟩,
    ⟨.host0, 0x80000005#32, put [(F.UPD_STATUS_STATE, 9)] (up 5), by unfold State.goes; decide +kernel⟩,
    ⟨.host0, 0x80000005#32, { up 5 with reform := { (up 5).reform with reqs := [⟨1, false, 0, 0⟩, ⟨1, false, 0, 0⟩] } },
          by unfold State.goes; decide +kernel⟩,
    ⟨.host0, 0x80000005#32, { up 5 with reform := { (up 5).reform with reqs := [⟨1, false, 0, 0⟩] } },
          by unfold State.goes; decide +kernel⟩⟩

theorem witness_ReformPasses :
    (∃ (s : State), (s.reform.reqs = [] ∨ s.reform.phase ≠ 1 ∨ s.sysRuns = false)) ∧
    (∃ (gl : List Nat) (buf : List Byte) (s : State) (r : ReformReq) (q : List ReformReq) (x : Option Image),
      s.reform.reqs = r :: q ∧ s.reform.phase = 1 ∧ s.sysRuns = true ∧ r.cause = 0
      ∧ ((s.plan gl).checkTarget r.slot gl buf).1.2.2 = x ∧ x = none) ∧
    (∃ (s : State), (s.reform.reqs = [] ∨ s.loadDue = false)) ∧
    (∃ (s : State) (r : ReformReq) (q : List ReformReq), s.reform.reqs = r :: q ∧ s.loadDue = true ∧ r.cause = 0) :=
  ⟨⟨up 5, by decide +kernel⟩,
    ⟨[], [], rf 1 ⟨1, false, 0, 0⟩ (up 5), ⟨1, false, 0, 0⟩, [], none, by decide +kernel⟩,
    ⟨up 5, by decide +kernel⟩,
    ⟨rf 3 ⟨1, false, 0, 0⟩ (let s := up 5; { s with reform := { s.reform with target := some (img 3) } }), ⟨1, false, 0, 0⟩, [], by decide +kernel⟩⟩

theorem witness_PowerUpLoads :
    (∃ (s : State), s.pwr.por = false ∧ s.pwr.pgood = false) ∧
    (∃ (s : State), s.pwr.por = true) ∧
    (∃ (gl : List Nat) (s u : State), s.pwr.por = false ∧ s.pwr.pgood = true ∧ s.jState ≠ 3
      ∧ u = ({ s with pwr := { s.pwr with pgood := false } }).powerFirst.plan gl) :=
  ⟨⟨{ up 5 with pwr := { (up 5).pwr with pgood := false } }, by decide +kernel⟩,
    ⟨{ State.reset with pwr := { State.reset.pwr with por := true } }, by decide +kernel⟩,
    ⟨[], { up 5 with pwr := { (up 5).pwr with pgood := true } },
          ({ up 5 with pwr := { (up 5).pwr with pgood := false } } : State).powerFirst.plan [], by decide +kernel⟩⟩

theorem witness_ResetsAct :
    (∃ (s : State), s.pwr.por = true) ∧
    (∃ (s : State), s.pwr.por = false) ∧
    (∃ (id : Ident) (v : Word) (s : State), s.goes id R.PWR_RESET ∧ getBits v 24 8 ≠ 0xA5) ∧
    (∃ (id : Ident) (v : Word) (s : State), s.goes id R.PWR_RESET ∧ ((getBits v 24 8 = 0xA5) ∧ (v.getLsbD 0 = false))) ∧
    (∃ (id : Ident) (v : Word) (s : State), s.goes id R.PWR_RESET ∧ ((getBits v 24 8 = 0xA5) ∧ (v.getLsbD 0 = true))) ∧
    (∃ (s : State), s.pwr.inReset = false) ∧
    (∃ (s : State), s.pwr.inReset = true) :=
  ⟨⟨{ up 5 with pwr := { (up 5).pwr with por := true } }, by decide +kernel⟩,
    ⟨inRun 3 77, by decide +kernel⟩,
    ⟨.host1, 5#32, up 5, by unfold State.goes; decide +kernel⟩,
    ⟨.host1, 0xA5000000#32, up 5, by unfold State.goes; decide +kernel⟩,
    ⟨.host1, 0xA5000001#32, up 5, by unfold State.goes; decide +kernel⟩,
    ⟨{ up 5 with pwr := { (up 5).pwr with inReset := false } }, by decide +kernel⟩,
    ⟨{ up 5 with pwr := { (up 5).pwr with inReset := true } }, by decide +kernel⟩⟩

theorem witness_DomainsMove :
    (∃ (d : Fin 14) (s : State), (d = 10 ∨ d = 12 ∨ d = 13) ∧ s.domState d = 2 ∧ s.getF (F.PWR_DOM_CTRL_IDLE_STATE d) ≠ 0
      ∧ s.hasWork d = false ∧ s.pwr.lastWork.getD d 0 < s.tick
      ∧ s.pwr.lastWork.getD d 0 + s.getF (F.PWR_DOM_CTRL_HOLD_US d) * 500 ≤ s.tick) ∧
    (∃ (d : Fin 14) (s : State), d ≠ 11
      ∧ (¬ (d = 10 ∨ d = 12 ∨ d = 13) ∨ s.getF (F.PWR_DOM_CTRL_IDLE_STATE d) = 0 ∨ s.hasWork d = true)) ∧
    (∃ (s : State), s.host.linkUp = true) ∧
    (∃ (d : Fin 14) (s : State), (d = 10 ∨ d = 12 ∨ d = 13) ∧ s.domOn d = true) ∧
    (∃ (d : Fin 14) (s : State), (d = 10 ∨ d = 12 ∨ d = 13) ∧ s.domOn d = false ∧ d.val ∉ s.pwr.waking
      ∧ s.pwr.fellAt.getD d none = some s.tick) ∧
    (∃ (d : Fin 14) (s : State), (d = 10 ∨ d = 12 ∨ d = 13) ∧ s.domOn d = false ∧ d.val ∉ s.pwr.waking
      ∧ s.pwr.fellAt.getD d none ≠ some s.tick) ∧
    (∃ (d : Fin 14) (s : State), d.val ∉ s.pwr.waking) ∧
    (∃ (s : State), s.pwr.por = false) ∧
    (∃ (id : Ident) (d : Fin 14) (s : State), id ≠ .host0 ∧ s.goes id (R.PWR_DOM_CTRL d) ∧ (¬ (d = 10 ∨ d = 12 ∨ d = 13))) ∧
    (∃ (id : Ident) (s : State), id ≠ .host0 ∧ s.goes id (R.PWR_DOM_CTRL 13)) ∧
    (∃ (d : Fin 14) (s : State), d.val ∈ s.pwr.waking ∧ d.val ∉ s.pwr.wakeOff ∧ (∀ i, s.mbx.inReset.getD i false = false)
      ∧ s.mbx.sigs = [] ∧ (∀ h ∈ s.pwr.held, domainOf h.off ≠ d) ∧ s.pwr.behind = []) :=
  ⟨⟨12, put [(F.PWR_DOM_CTRL_IDLE_STATE 12, 1)] (up 5), by decide +kernel⟩,
    ⟨9, up 5, by decide +kernel⟩,
    ⟨{ up 5 with host := { (up 5).host with linkUp := true } }, by decide +kernel⟩,
    ⟨12, up 5, by decide +kernel⟩,
    ⟨12, (let s := (up 5).wr R.PWR_DOM_STATE 0#32; { s with pwr := { s.pwr with fellAt := updAt (fun _ => some 5) s.pwr.fellAt 12 } }), by decide +kernel⟩,
    ⟨12, (up 5).wr R.PWR_DOM_STATE 0#32, by decide +kernel⟩,
    ⟨12, up 5, by decide +kernel⟩,
    ⟨up 5, by decide +kernel⟩,
    ⟨.host1, 9, up 5, by unfold State.goes; decide +kernel⟩,
    ⟨.host1, acts actBgcal 3 false [⟨actFgcal, 0, 0, true, false⟩], by unfold State.goes; decide +kernel⟩,
    ⟨12, { up 5 with pwr := { (up 5).pwr with waking := [12] } }, by decide +kernel, by decide +kernel, noReset,
          by decide +kernel, by decide +kernel, by decide +kernel⟩⟩

theorem witness_BlockResetActs :
    (∃ (id : Ident) (s : State), s.goes id R.PWR_BLK_RESET ∧ (s.runSt ≠ 0 ∨ s.bit F.AFE_RUN_STATUS_DRAINING = true)) ∧
    (∃ (id : Ident) (s : State), s.goes id R.PWR_BLK_RESET ∧ s.runSt = 0 ∧ s.bit F.AFE_RUN_STATUS_DRAINING = false ∧ (∀ m,
      s.image = some m → ∀ q ∈ m.wqs, q.srcBlk ≠ 15 ∧ q.dstBlk ≠ 15)) :=
  ⟨⟨.host1, inRun 3 5, by unfold State.goes; decide +kernel⟩,
    ⟨.host1, acts actBgcal 3 false [⟨actFgcal, 0, 0, true, false⟩], by unfold State.goes; decide +kernel⟩⟩

theorem witness_MonitorsFollow :
    (∃ (temps : List Int) (volts : List Nat) (s : State), temps.length = 8 ∧ volts.length = 7 ∧ s.pwr.por = false
      ∧ (∃ v ∈ List.range (7),
      ((20 * volts.getD v 0 < 19 * railNominal.getD v 0 ∨ 21 * railNominal.getD v 0 < 20 * volts.getD v 0)))
      ∧ s.bit F.PWR_MON_STATUS_THERM = false) ∧
    (∃ (temps : List Int) (volts : List Nat) (s : State), temps.length = 8 ∧ volts.length = 7 ∧ s.pwr.por = false
      ∧ s.bit F.PWR_MON_STATUS_THERM = true) :=
  ⟨⟨List.replicate 8 300, List.replicate 7 1000, put [(F.PWR_MON_LIMIT_LIMIT, 300), (F.PWR_MON_LIMIT_HYST, 10)] (up 5),
          by decide +kernel⟩,
    ⟨List.replicate 8 290, List.replicate 7 1000, put [(F.PWR_MON_LIMIT_LIMIT, 300), (F.PWR_MON_LIMIT_HYST, 10),
          (F.PWR_MON_STATUS_THERM, 1)] (up 5), by decide +kernel⟩⟩

theorem witness_PllFollows :
    (∃ (id : Ident) (v : Word) (s : State) (idle : Bool) (e : Nat), s.goes id R.AFE_PLL_CTRL ∧ v.getLsbD 0 = true
      ∧ idle = (s.runSt == 0 && !s.bit F.AFE_RUN_STATUS_DRAINING)
      ∧ s.pllErr idle (s.rd R.AFE_PLL_CFG) (s.rd R.AFE_PLL_FB) (s.rd R.AFE_PLL_FBINT) = e ∧ idle = false ∧ e ≠ 0) ∧
    (∃ (id : Ident) (v : Word) (s : State) (idle : Bool) (e : Nat), s.goes id R.AFE_PLL_CTRL ∧ v.getLsbD 0 = true
      ∧ idle = (s.runSt == 0 && !s.bit F.AFE_RUN_STATUS_DRAINING)
      ∧ s.pllErr idle (s.rd R.AFE_PLL_CFG) (s.rd R.AFE_PLL_FB) (s.rd R.AFE_PLL_FBINT) = e ∧ e = 0) ∧
    (∃ (s : State) (p q : Nat), s.bit F.AFE_PLL_STATUS_LOCKED = false ∧ s.conv.stuck = false ∧ s.conv.commit = true ∧ s.sclk = (p,
      q) ∧ p ≠ 0 ∧ q ≠ 0) ∧
    (∃ (s : State), s.bit F.AFE_PLL_STATUS_LOCKED = true ∧ s.runSt ≤ 1) ∧
    (∃ (s : State), s.bit F.AFE_PLL_STATUS_LOCKED = true ∧ s.runSt = 3) ∧
    (∃ (s : State), s.synce = true ∧ s.bit F.AFE_PLL_STATUS_LOCKED = true ∧ s.bit F.AFE_PLL_STATUS_HOLDOVER = false) ∧
    (∃ (s : State), s.synce = true) :=
  ⟨⟨.host1, 1#32, inRun 3 5, false, 1, by unfold State.goes; decide +kernel⟩,
    ⟨.host1, 1#32, pll (up 5), true, 0, by unfold State.goes; decide +kernel⟩,
    ⟨relock, relock.sclk.1, relock.sclk.2, by decide +kernel⟩,
    ⟨locked (up 5), by decide +kernel⟩,
    ⟨locked (inRun 3 77), by decide +kernel⟩,
    ⟨sy, by decide +kernel⟩,
    ⟨sy, by decide +kernel⟩⟩

theorem witness_QuadrantsFollow :
    (∃ (id : Ident) (q : Fin 4) (s : State), s.goes id R.AFE_QPWR ∧ s.quadsUsed.testBit q = true) ∧
    (∃ (id : Ident) (q : Fin 4) (s : State), s.goes id R.AFE_QPWR ∧ s.quadsUsed.testBit q = false) ∧
    (∃ (id : Ident) (q : Fin 4) (s : State), s.goes id R.AFE_QPWR ∧ s.quadsUsed.testBit q = false) ∧
    (∃ (id : Ident) (q : Fin 4) (s : State), s.goes id R.AFE_QPWR ∧ ((s.quadsUsed.testBit q = true) ∧ (s.runSt ≠ 0))) ∧
    (∃ (id : Ident) (q : Fin 4) (s : State), s.goes id R.AFE_QPWR ∧ ((s.quadsUsed.testBit q = true) ∧ (s.runSt = 0))) ∧
    (∃ (q : Fin 4) (s : State), s.getF (qReq q) = 1 ∧ s.getF (qOn q) = 0 ∧ s.quadsUsed.testBit q = true ∧ (∀ m, s.image = some m
      → ∀ q ∈ m.wqs, q.srcBlk ∉ [9, 16, 17] ∧ q.dstBlk ∉ [9, 16, 17])) :=
  ⟨⟨.host1, 1, { up 5 with image := some (img 3) }, by unfold State.goes; decide +kernel⟩,
    ⟨.host1, 1, up 5, by unfold State.goes; decide +kernel⟩,
    ⟨.host1, 1, up 5, by unfold State.goes; decide +kernel⟩,
    ⟨.host1, 1, { inRun 1 0 with image := some (img 3) }, by unfold State.goes; decide +kernel⟩,
    ⟨.host1, 1, { up 5 with image := some (img 3) }, by unfold State.goes; decide +kernel⟩,
    ⟨1, { put [(qReq 1, 1)] (up 5) with image := some (img 3) }, by decide +kernel⟩⟩

theorem witness_RunCommands :
    (∃ (id : Ident) (s : State), s.goes id R.AFE_RUN_CMD ∧ s.armErr = 0) ∧
    (∃ (id : Ident) (s : State), s.goes id R.AFE_RUN_CMD ∧ s.armErr ≠ 0 ∧ ((s.runSt = 0) ∧ (s.image = none))) ∧
    (∃ (id : Ident) (s : State), s.goes id R.AFE_RUN_CMD ∧ s.runSt ≠ 0) ∧
    (∃ (id : Ident) (s : State), s.goes id R.AFE_RUN_CMD ∧ s.runSt = 0) ∧
    (∃ (id : Ident) (s : State), s.goes id R.AFE_RUN_CMD ∧ s.runSt = 1) ∧
    (∃ (id : Ident) (s : State), s.goes id R.AFE_RUN_CMD ∧ 2 ≤ s.runSt) ∧
    (∃ (id : Ident) (s : State), s.goes id R.AFE_RUN_CMD ∧ (s.runSt = 0 ∨ (s.runSt = 1 ∧ s.getF F.AFE_RUN_CFG_SRC ≠ srcHost))) ∧
    (∃ (id : Ident) (s : State), s.goes id R.AFE_RUN_CMD ∧ 2 ≤ s.runSt) ∧
    (∃ (id : Ident) (s : State), s.goes id R.AFE_RUN_CMD ∧ ((s.runSt = 1) ∧ (s.getF F.AFE_RUN_CFG_SRC = srcHost))) ∧
    (∃ (id : Ident) (at_ : Bool) (s : State) (n : Nat) (late : Bool), s.goes id R.AFE_RUN_CMD ∧ (at_ = false → n = s.stopSn s.lead
      ∧ late = false) ∧ (at_ = true → late = decide (s.rd64 R.AFE_STOP_SN_LO R.AFE_STOP_SN_HI < s.run.next)
      ∧ n = (if late then s.run.next else s.rd64 R.AFE_STOP_SN_LO R.AFE_STOP_SN_HI)) ∧ s.runSt = 0) ∧
    (∃ (id : Ident) (at_ : Bool) (s : State) (n : Nat) (late : Bool), s.goes id R.AFE_RUN_CMD ∧ (at_ = false → n = s.stopSn s.lead
      ∧ late = false) ∧ (at_ = true → late = decide (s.rd64 R.AFE_STOP_SN_LO R.AFE_STOP_SN_HI < s.run.next)
      ∧ n = (if late then s.run.next else s.rd64 R.AFE_STOP_SN_LO R.AFE_STOP_SN_HI)) ∧ (s.runSt = 1 ∨ (s.runSt = 3
      ∧ s.run.stopAt.isSome = true))) ∧
    (∃ (id : Ident) (at_ : Bool) (s : State) (n : Nat) (late : Bool), s.goes id R.AFE_RUN_CMD ∧ (at_ = false → n = s.stopSn s.lead
      ∧ late = false) ∧ (at_ = true → late = decide (s.rd64 R.AFE_STOP_SN_LO R.AFE_STOP_SN_HI < s.run.next)
      ∧ n = (if late then s.run.next else s.rd64 R.AFE_STOP_SN_LO R.AFE_STOP_SN_HI)) ∧ ((s.runSt = 2) ∧ (s.applySt = 0))) ∧
    (∃ (id : Ident) (at_ : Bool) (s : State) (n : Nat) (late : Bool), s.goes id R.AFE_RUN_CMD ∧ (at_ = false → n = s.stopSn s.lead
      ∧ late = false) ∧ (at_ = true → late = decide (s.rd64 R.AFE_STOP_SN_LO R.AFE_STOP_SN_HI < s.run.next)
      ∧ n = (if late then s.run.next else s.rd64 R.AFE_STOP_SN_LO R.AFE_STOP_SN_HI)) ∧ ((s.runSt = 3) ∧ (s.run.stopAt = none))
      ∧ ((s.runSt = 3) ∧ (s.run.stopAt = none) ∧ (late = true)) ∧ ((s.runSt = 3) ∧ (s.run.stopAt = none) ∧ (n < 2 ^ 64))) :=
  ⟨⟨.host1, { inRun 0 0 with image := some (img 0) }, by unfold State.goes; decide +kernel⟩,
    ⟨.host1, up 5, by unfold State.goes; decide +kernel⟩,
    ⟨.host1, inRun 3 5, by unfold State.goes; decide +kernel⟩,
    ⟨.host1, up 5, by unfold State.goes; decide +kernel⟩,
    ⟨.host1, inRun 1 0, by unfold State.goes; decide +kernel⟩,
    ⟨.host1, inRun 2 0, by unfold State.goes; decide +kernel⟩,
    ⟨.host1, up 5, by unfold State.goes; decide +kernel⟩,
    ⟨.host1, inRun 2 0, by unfold State.goes; decide +kernel⟩,
    ⟨.host1, put [(F.AFE_RUN_CFG_SRC, srcHost)] (inRun 1 0), by unfold State.goes; decide +kernel⟩,
    ⟨.host1, false, up 5, (up 5).stopSn (up 5).lead, false, by unfold State.goes; decide +kernel⟩,
    ⟨.host1, false, inRun 1 0, (inRun 1 0).stopSn (inRun 1 0).lead, false, by unfold State.goes; decide +kernel⟩,
    ⟨.host1, false, inRun 2 0, (inRun 2 0).stopSn (inRun 2 0).lead, false, by unfold State.goes; decide +kernel⟩,
    ⟨.host1, true, inRun 3 5, 5, true, by unfold State.goes; decide +kernel⟩⟩

theorem witness_RunBeginsAndEnds :
    (∃ (tdc tickTdc : Nat) (s : State), s.runSt = 2 ∧ s.gAt 0 ≤ (s.edgeTime tdc tickTdc : Int)
      ∧ s.bit F.AFE_PLL_STATUS_LOCKED = true ∧ (∀ x ∈ s.strs, ∀ m ∈ x.marks, m.rel = none)) ∧
    (∃ (tdc tickTdc : Nat) (s : State), (¬ (s.runSt = 2 ∧ s.gAt 0 ≤ (s.edgeTime tdc tickTdc : Int)
      ∧ s.bit F.AFE_PLL_STATUS_LOCKED = true))) ∧
    (∃ (s : State) (z : Nat), s.run.stopAt = some z ∧ s.runSt = 3 ∧ z < s.run.next ∧ s.beforeReform z = true) ∧
    (∃ (s : State), (∀ z, s.run.stopAt = some z → s.runSt ≠ 3 ∨ s.run.next ≤ z ∨ s.beforeReform z = false)) :=
  ⟨⟨3, 1000, inRun 2 0, by decide +kernel⟩,
    ⟨3, 1000, inRun 3 0, by decide +kernel⟩,
    ⟨{ inRun 3 9 with run := { (inRun 3 9).run with stopAt := some 8 } }, 8, by decide +kernel⟩,
    ⟨{ inRun 3 9 with run := { (inRun 3 9).run with stopAt := some 9 } }, by decide +kernel⟩⟩

theorem witness_SyncClasses :
    (∃ (s : State), s.bit F.AFE_SYNC_CTRL_EN = false) ∧
    (∃ (s : State) (k : Nat), s.bit F.AFE_SYNC_CTRL_EN = true ∧ s.run.syncRef = some k ∧ s.tick < k + 8) ∧
    (∃ (s : State), s.bit F.AFE_SYNC_CTRL_EN = true ∧ (∀ k, s.run.syncRef = some k → k + 8 ≤ s.tick)) ∧
    (∃ (s : State) (p : SyncPulse), s.run.sync = some p ∧ p.kt = none) ∧
    (∃ (s : State) (p : SyncPulse), s.run.sync = some p ∧ p.kt = none ∧ p.tooLong = false ∧ p.kl + 16777215 ≤ s.tick) ∧
    (∃ (s : State) (p : SyncPulse), s.run.sync = some p ∧ p.kt = none ∧ (p.tooLong = true ∨ s.tick < p.kl + 16777215)) ∧
    (∃ (s : State) (p : SyncPulse) (k : Nat), s.run.sync = some p ∧ p.kt = some k ∧ k + 4 ≤ s.tick ∧ (∃ n ∈ List.range (4),
      ((s.bit (F.AFE_SYNC_CLS_CTRL_EN n) = true) ∧ (s.getF (F.AFE_SYNC_CLS_MIN_MIN n) ≤ k - p.kl)
      ∧ (k - p.kl ≤ s.getF (F.AFE_SYNC_CLS_MAX_MAX n)) ∧ (∀ m, m < n → s.bit (F.AFE_SYNC_CLS_CTRL_EN m) = false)
      ∧ (s.getF (F.AFE_SYNC_CLS_CTRL_ACTION n) = 0) ∧ (s.runSt = 1) ∧ (s.getF F.AFE_RUN_CFG_SRC = srcSync)))
      ∧ (∃ n ∈ List.range (4), ((s.bit (F.AFE_SYNC_CLS_CTRL_EN n) = true) ∧ (s.getF (F.AFE_SYNC_CLS_MIN_MIN n) ≤ k - p.kl)
      ∧ (k - p.kl ≤ s.getF (F.AFE_SYNC_CLS_MAX_MAX n)) ∧ (∀ m, m < n → s.bit (F.AFE_SYNC_CLS_CTRL_EN m) = false)))) ∧
    (∃ (s : State) (p : SyncPulse) (k : Nat), s.run.sync = some p ∧ p.kt = some k ∧ s.tick < k + 4) ∧
    (∃ (s : State) (p : SyncPulse) (k : Nat), s.run.sync = some p ∧ p.kt = some k ∧ k + 4 ≤ s.tick ∧ (∀ n, n < 4
      → s.bit (F.AFE_SYNC_CLS_CTRL_EN n) = true → s.getF (F.AFE_SYNC_CLS_MIN_MIN n) ≤ k - p.kl
      → s.getF (F.AFE_SYNC_CLS_MAX_MAX n) < k - p.kl)) :=
  ⟨⟨up 5, by decide +kernel⟩,
    ⟨{ put [(F.AFE_SYNC_CTRL_EN, 1)] (up 15) with run := { RunState.reset with syncRef := some 8 } }, 8, by decide +kernel⟩,
    ⟨{ put [(F.AFE_SYNC_CTRL_EN, 1)] (up 16) with run := { RunState.reset with syncRef := some 8 } }, by decide +kernel⟩,
    ⟨{ up 16 with run := { RunState.reset with sync := some ⟨8, 0, 0, 0, true, false, none⟩ } }, ⟨8, 0, 0, 0, true, false, none⟩,
          by decide +kernel⟩,
    ⟨{ up 16777223 with run := { RunState.reset with sync := some ⟨8, 0, 0, 0, true, false, none⟩ } }, ⟨8, 0, 0, 0, true, false,
          none⟩, by decide +kernel⟩,
    ⟨{ up 16777222 with run := { RunState.reset with sync := some ⟨8, 0, 0, 0, true, false, none⟩ } }, ⟨8, 0, 0, 0, true, false,
          none⟩, by decide +kernel⟩,
    ⟨{ put [(F.AFE_SYNC_CLS_CTRL_EN 1, 1), (F.AFE_SYNC_CLS_MIN_MIN 1, 8), (F.AFE_SYNC_CLS_MAX_MAX 1, 8), (F.AFE_RUN_STATUS_STATE, 1), (F.AFE_RUN_CFG_SRC, srcSync)] (up 20) with run := { RunState.reset with sync := some ⟨8, 16 * 2 ^ 56, 0, 0, true, false, some 16⟩ } },
          ⟨8, 16 * 2 ^ 56, 0, 0, true, false, some 16⟩, 16, by decide +kernel⟩,
    ⟨{ up 19 with run := { RunState.reset with sync := some ⟨8, 0, 0, 0, true, false, some 16⟩ } }, ⟨8, 0, 0, 0, true, false,
          some 16⟩, 16, by decide +kernel⟩,
    ⟨{ up 20 with run := { RunState.reset with sync := some ⟨8, 0, 0, 0, true, false, some 16⟩ } }, ⟨8, 0, 0, 0, true, false,
          some 16⟩, 16, by decide +kernel, rfl, by decide +kernel, noClass⟩⟩

theorem witness_EdgesAdvanceLabels :
    (∃ (s : State), s.bit F.AFE_PLL_STATUS_LOCKED = false) ∧
    (∃ (s : State), s.bit F.AFE_PLL_STATUS_LOCKED = true ∧ s.drainHeld = true) ∧
    (∃ (s : State), s.bit F.AFE_PLL_STATUS_LOCKED = true ∧ s.drainHeld = false ∧ s.applySt ≠ 2 ∧ ((s.run.running = false)
      ∧ (s.applySt ≠ 2))) :=
  ⟨⟨up 5, by decide +kernel⟩,
    ⟨(let s := put [(F.DBG_STATUS_STATE, 2), (F.AFE_RUN_STATUS_STATE, 0)] (inRun 3 9); { s with dbg := { s.dbg with spans := [(4, some 6)] } }), by decide +kernel⟩,
    ⟨inRun 0 0, by decide +kernel⟩⟩

theorem witness_SamplePathValues :
    (∃ (inp noise : List Int) (s : State) (c m : Nat) (code : Int), s.bit F.AFE_PLL_STATUS_LOCKED = true ∧ s.halted = false
      ∧ s.applySt ≠ 2 ∧ m = s.run.next ∧ c < 256 ∧ c < s.path.chans.length ∧ s.quadOn (c / 64) = true
      ∧ s.getF (F.AFE_SEL_SEL c) = 0 ∧ s.calDrives = false ∧ s.corrNow c = (0, 65536)
      ∧ code = max (-8192) (min 8191 (roundAway (inp.getD c 0 + noise.getD (s.feeder c) 0) 65536))
      ∧ ((35 ≤ (s.chanPath c).past) ∧ (getBits (s.rdAt (m - 35) (R.CND_SPK_CTRL c)) 0 2 = 0))) ∧
    (∃ (s : State) (i m n : Nat), s.bit F.AFE_PLL_STATUS_LOCKED = true ∧ s.halted = false ∧ s.applySt ≠ 2 ∧ m = s.run.next
      ∧ s.run.running = true ∧ s.pastReform m = false ∧ i < 64 ∧ i < s.strs.length ∧ s.strCont i = true
      ∧ (s.str i).active = true ∧ (s.str i).ending = none ∧ s.strExists i = true ∧ s.strLat i ≤ m ∧ n = m - s.strLat i
      ∧ s.produced n = true ∧ n % max 1 (s.strD i) = 0) ∧
    (∃ (s : State) (c n a : Nat) (w : Word), w = s.cfgAt c n ∧ w.getLsbD 0 = false ∧ getBits w 1 2 = 0 ∧ cfgT w = 0
      ∧ (s.chanPath c).withheld n = none ∧ (s.chanPath c).clearAt n = some a) ∧
    (∃ (s : State) (b n c k : Nat) (w : Word), k = s.getFAt n F.BMF_BANK_SEL_SEL ∧ s.contributors b n = [c]
      ∧ w = s.rdAt n (R.BMF_W b k c)) :=
  ⟨⟨[7, 8, 9], [0, 1], sp1, 2, 5, 0, by decide +kernel⟩,
    ⟨spS 1 0 7000, 3, 7000, 7000 - (spS 1 0 7000).strLat 3, by decide +kernel⟩,
    ⟨spS 2 2 7000, 2, 6900, 0, 0#32, by decide +kernel⟩,
    ⟨put [(F.BMF_STATUS_PRESENT, 1)] (spS 3 2 7000), 0, 6900, 2, 0, 0x00030005#32, by decide +kernel⟩⟩

theorem witness_ForegroundCalibration :
    (∃ (id : Ident) (s : State), s.goes id R.CAL_CTRL ∧ (s.runSt = 0 ∧ s.bit F.CAL_STATUS_BUSY = false
      ∧ s.bit F.AFE_PLL_STATUS_LOCKED = true)) ∧
    (∃ (id : Ident) (s : State), s.goes id R.CAL_CTRL ∧ (¬ (s.runSt = 0 ∧ s.bit F.CAL_STATUS_BUSY = false
      ∧ s.bit F.AFE_PLL_STATUS_LOCKED = true))) ∧
    (∃ (outcomes : List Nat) (s : State), s.cal.fg = 1 ∧ s.runs actFgcal 0 = true ∧ s.cal.facs.length = 544
      ∧ (∃ k ∈ List.range (272), ((s.cal.facs.length = 544) ∧ (s.quadOn (convQuad k) = true)
      ∧ (convFailed outcomes k = false)))) ∧
    (∃ (s : State), (s.cal.fg ≠ 1 ∨ s.runs actFgcal 0 = false)) ∧
    (∃ (s : State), (s.cal.fg = 2 ∨ s.cal.fg = 3)) ∧
    (∃ (id : Ident) (s : State), s.goes id R.CAL_CTRL ∧ s.cal.fg = 1) ∧
    (∃ (id : Ident) (s : State), s.goes id R.CAL_CTRL ∧ s.cal.fg = 2) ∧
    (∃ (id : Ident) (s : State), s.goes id R.CAL_CTRL ∧ ((s.cal.fg ≠ 1) ∧ (s.cal.fg ≠ 2))) ∧
    (∃ (id : Ident) (s : State), s.goes id R.CAL_CTRL) ∧
    (∃ (failures : Nat) (s : State) (x : CalHalf), s.runs actCalsave 0 = true ∧ s.cal.snap = some x ∧ 2 ≤ failures) ∧
    (∃ (failures : Nat) (s : State) (x : CalHalf), s.runs actCalsave 0 = true ∧ s.cal.snap = some x ∧ ((failures < 2)
      ∧ (s.flash.cals.length = 2))) :=
  ⟨⟨.host0, inRun 0 0, by unfold State.goes; decide +kernel⟩,
    ⟨.host0, inRun 3 0, by unfold State.goes; decide +kernel⟩,
    ⟨[], (let s := put [(qOn 0, 1), (qOn 1, 1)] (acts actFgcal 0 false []); { s with cal := { s.cal with fg := 1 } }), by decide +kernel⟩,
    ⟨up 5, by decide +kernel⟩,
    ⟨(let s := acts actFgcal 0 false []; { s with cal := { s.cal with fg := 2, done := [1#32] } }), by decide +kernel⟩,
    ⟨.host0, (let s := acts actFgcal 0 false []; { s with cal := { s.cal with fg := 1, done := [1#32] } }), by unfold State.goes; decide +kernel⟩,
    ⟨.host0, (let s := acts actFgcal 0 false []; { s with cal := { s.cal with fg := 2, done := [1#32] } }), by unfold State.goes; decide +kernel⟩,
    ⟨.host0, up 6, by unfold State.goes; decide +kernel⟩,
    ⟨.host0, up 6, by unfold State.goes; decide +kernel⟩,
    ⟨2, (let s := acts actCalsave 0 false []; { s with cal := { s.cal with snap := some ⟨zeros 64, []⟩ } }), ⟨zeros 64, []⟩, by decide +kernel⟩,
    ⟨0, (let s := acts actCalsave 0 false []; { s with cal := { s.cal with snap := some ⟨zeros 64, []⟩ } }), ⟨zeros 64, []⟩, by decide +kernel⟩⟩

theorem witness_BackgroundCalibration :
    (∃ (g : Fin 16) (s : State), s.bgOn g = true ∧ (s.grp g).sweepAt ≤ s.tick ∧ s.domOn 13 = false) ∧
    (∃ (g : Fin 16) (s : State), s.bgOn g = true ∧ (s.grp g).sweepAt ≤ s.tick ∧ s.domOn 13 = true ∧ s.cal.groups.length = 16
      ∧ s.getF (F.CAL_GROUP_STATE_PHASE g) = 0 ∧ ((s.getF (F.CAL_GROUP_STATE_PHASE g) = 0) ∧ (s.pauser actBgcal = false))) ∧
    (∃ (g : Fin 16) (s : State), s.bgOn g = true ∧ (s.grp g).sweepAt ≤ s.tick ∧ s.domOn 13 = true ∧ s.cal.groups.length = 16
      ∧ s.getF (F.CAL_GROUP_STATE_PHASE g) ≠ 0 ∧ ((s.getF (F.CAL_GROUP_STATE_PHASE g) ≠ 0)
      ∧ (s.getF F.CAL_BG_INTERVAL_INTERVAL_MS ≠ 0))) ∧
    (∃ (g : Fin 16) (ok : Bool) (s : State), s.bgOver g 1 = true ∧ s.cal.groups.length = 16 ∧ ((ok = true)
      ∧ ((s.grp g).notB4 ≤ s.run.scyc))) ∧
    (∃ (g : Fin 16) (ok : Bool) (s : State), s.bgOver g 1 = true ∧ s.cal.groups.length = 16 ∧ ((ok = false)
      ∧ ((s.grp g).second = false))) ∧
    (∃ (g : Fin 16) (ok : Bool) (s : State), s.bgOver g 1 = true ∧ s.cal.groups.length = 16 ∧ ((ok = false)
      ∧ ((s.grp g).second = true))) ∧
    (∃ (g : Fin 16) (o w k : Bool) (s : State), s.bgOver g 2 = true ∧ s.cal.groups.length = 16 ∧ (((o && w && k) = true)
      ∧ ((s.grp g).pausing = false)) ∧ (((o && w && k) = true) ∧ ((s.grp g).pausing = false) ∧ (s.cal.facs.length = 544))) ∧
    (∃ (g : Fin 16) (o w k : Bool) (s : State), s.bgOver g 2 = true ∧ s.cal.groups.length = 16 ∧ (((o && w && k) = false)
      ∧ ((s.grp g).second = false))) ∧
    (∃ (g : Fin 16) (o w k : Bool) (s : State), s.bgOver g 2 = true ∧ s.cal.groups.length = 16 ∧ (((o && w && k) = false)
      ∧ ((s.grp g).second = true))) ∧
    (∃ (g : Fin 16) (s : State), s.bgOver g 3 = true ∧ (s.grp g).notB4 ≤ s.run.scyc ∧ s.cal.groups.length = 16) ∧
    (∃ (g : Fin 16) (s : State), s.bgOver g 4 = true ∧ s.pauser actBgcal = false ∧ s.bgOn g = false) ∧
    (∃ (g : Fin 16) (s : State), s.bgOver g 4 = true ∧ s.pauser actBgcal = false ∧ ((s.bgOn g = true)
      ∧ (s.getF (F.CAL_GROUP_STATE_POS g) < 15))) ∧
    (∃ (g : Fin 16) (s : State), s.bgOver g 4 = true ∧ s.pauser actBgcal = false ∧ ((s.bgOn g = true)
      ∧ (s.getF (F.CAL_GROUP_STATE_POS g) = 15))) ∧
    (∃ (g : Fin 16) (ok : Bool) (s : State), s.bgOver g 5 = true ∧ s.cal.groups.length = 16 ∧ ok = true) ∧
    (∃ (g : Fin 16) (ok : Bool) (s : State), s.bgOver g 5 = true ∧ s.cal.groups.length = 16 ∧ ((ok = false)
      ∧ ((s.grp g).second = false))) ∧
    (∃ (g : Fin 16) (ok : Bool) (s : State), s.bgOver g 5 = true ∧ s.cal.groups.length = 16 ∧ ((ok = false)
      ∧ ((s.grp g).second = true))) ∧
    (∃ (g : Fin 16) (s : State) (ph : Nat), s.getF (F.CAL_GROUP_STATE_PHASE g) = ph ∧ ph ≠ 1 ∧ ph ≠ 3 ∧ ph ≠ 4 ∧ ph ≠ 5) ∧
    (∃ (g : Fin 16) (s : State) (ph : Nat), s.getF (F.CAL_GROUP_STATE_PHASE g) = ph ∧ ph ≠ 2) :=
  ⟨⟨3, put [(⟨R.PWR_DOM_STATE, 26, 2⟩, 1)] { bg 3 0 false with mnt := MaintState.reset }, by decide +kernel⟩,
    ⟨3, { bg 3 0 false with mnt := MaintState.reset }, by decide +kernel⟩,
    ⟨3, put [(F.CAL_BG_INTERVAL_INTERVAL_MS, 5)] (bg 3 2 false), by decide +kernel⟩,
    ⟨3, true, put [(F.CAL_GROUP_STATE_POS 3, 7)] (bg 3 1 false), by decide +kernel⟩,
    ⟨3, false, put [(F.CAL_GROUP_STATE_POS 3, 7)] (bg 3 1 false), by decide +kernel⟩,
    ⟨3, false, put [(F.CAL_GROUP_STATE_POS 3, 7)] (bg 3 1 true), by decide +kernel⟩,
    ⟨3, true, true, true, put [(F.CAL_GROUP_STATE_POS 3, 15)] (bg 3 2 false), by decide +kernel⟩,
    ⟨3, true, false, true, put [(F.CAL_GROUP_STATE_POS 3, 7)] (bg 3 2 false), by decide +kernel⟩,
    ⟨3, true, false, true, put [(F.CAL_GROUP_STATE_POS 3, 7)] (bg 3 2 true), by decide +kernel⟩,
    ⟨15, (let s := put [(F.CAL_GROUP_STATE_POS 15, 7), (F.CAL_BG_CTRL_GLIDE, 3)] (bg 15 3 false); { s with cal := { s.cal with groups := updAt (fun x => { x with log := [(7, 0, none)] }) s.cal.groups 15 } }), by decide +kernel⟩,
    ⟨3, put [(F.CAL_BG_CTRL_EN, 0)] (bg 3 4 false), by decide +kernel⟩,
    ⟨3, put [(F.CAL_GROUP_STATE_POS 3, 14)] (bg 3 4 false), by decide +kernel⟩,
    ⟨3, put [(F.CAL_GROUP_STATE_POS 3, 15)] (bg 3 4 false), by decide +kernel⟩,
    ⟨3, true, bg 3 5 false, by decide +kernel⟩,
    ⟨3, false, bg 3 5 false, by decide +kernel⟩,
    ⟨3, false, bg 3 5 true, by decide +kernel⟩,
    ⟨3, bg 3 2 false, 2, by decide +kernel⟩,
    ⟨3, bg 3 1 false, 1, by decide +kernel⟩⟩

theorem witness_ActivitiesMove :
    (∃ (s : State), (∀ x ∈ s.mnt.waiting, x.blocked s.mnt.running = true)) ∧
    (∃ (s : State) (x : Activity) (w : List Activity), s.mnt.waiting = x :: w ∧ x.blocked s.mnt.running = false) ∧
    (∃ (s : State) (y : Activity), s.mnt.running = [y] ∧ y.a = actScrub ∧ y.unit = 0 ∧ y.paused = true) ∧
    (∃ (s : State) (y : Activity) (g : Fin 16), s.mnt.running = [y] ∧ y.a = actBgcal ∧ y.unit = g ∧ y.paused = true
      ∧ s.quadOn (g / 4) = true ∧ s.getF (F.CAL_GROUP_STATE_PHASE g) = 7 ∧ (s.grp g).same = true) ∧
    (∃ (s : State), (∀ y ∈ s.mnt.running, y.paused = false)) :=
  ⟨⟨acts actImgwrite 0 false [⟨actSetsave, 0, 0, true, false⟩], by decide +kernel⟩,
    ⟨{ acts actScrub 0 false [⟨actSetsave, 0, 0, true, false⟩, ⟨actCalsave, 0, 0, true, false⟩] with time := TimeState.reset },
          ⟨actSetsave, 0, 0, true, false⟩, [⟨actCalsave, 0, 0, true, false⟩], by decide +kernel⟩,
    ⟨put [(F.MEM_SCRUB_STATUS_PAUSED, 1)] (acts actScrub 0 true []), ⟨actScrub, 0, 0, false, true⟩, by decide +kernel⟩,
    ⟨(let s := put [(qOn 0, 1), (F.CAL_GROUP_STATE_PHASE 3, 7)] (acts actBgcal 3 true []); { s with cal := { s.cal with groups := updAt (fun x => { x with same := true }) s.cal.groups 3 } }), ⟨actBgcal, 3, 0, false, true⟩, 3, by decide +kernel⟩,
    ⟨acts actBgcal 3 false [], by decide +kernel⟩⟩

theorem witness_LandingsAndCopies :
    (∃ (id : Ident) (c : Fin 256) (s : State), s.goes id (R.CND_DELAY_NOW c)
      ∧ s.shadows.any (fun e => (delayOffs c).contains e.1 && !limitsOk e.1 e.2) = false ∧ s.nowPast = true) ∧
    (∃ (id : Ident) (c : Fin 256) (s : State), s.goes id (R.CND_DELAY_NOW c)
      ∧ s.shadows.any (fun e => (delayOffs c).contains e.1 && !limitsOk e.1 e.2) = false ∧ ((s.nowPast = false)
      ∧ (s.halted = true) ∧ (s.nowSn.isSome = true))) ∧
    (∃ (id : Ident) (c : Fin 256) (s : State), s.goes id (R.CND_DELAY_NOW c)
      ∧ s.shadows.any (fun e => (delayOffs c).contains e.1 && !limitsOk e.1 e.2) = false ∧ ((s.nowPast = false)
      ∧ ((s.halted && s.nowSn.isSome) = false)) ∧ ((s.shadows.filter (fun x => (delayOffs c).contains x.1)).length = 1
      ∧ ((s.nowPast = false) ∧ ((s.halted && s.nowSn.isSome) = false)))) ∧
    (∃ (id : Ident) (s : State), s.goes id R.TRG_APPLY_NOW ∧ (s.checkSet true).isSome = true) ∧
    (∃ (id : Ident) (s : State), s.goes id R.TRG_APPLY_NOW ∧ ((s.checkSet true = none) ∧ (s.nowPast = true))) ∧
    (∃ (id : Ident) (s : State), s.goes id R.TRG_APPLY_NOW ∧ ((s.checkSet true = none) ∧ (s.nowPast = false) ∧ (s.halted = true)
      ∧ (s.nowSn.isSome = true))) ∧
    (∃ (id : Ident) (s : State), s.goes id R.TRG_APPLY_NOW ∧ ((s.checkSet true = none) ∧ (s.nowPast = false)
      ∧ ((s.halted && s.nowSn.isSome) = false))) ∧
    (∃ (id : Ident) (s : State), s.goes id R.BMF_BANK_CTRL
      ∧ (s.bit F.BMF_STATUS_TARGET_LOCK = true ∨ s.bit F.BMF_STATUS_COPY_BUSY = true)) ∧
    (∃ (id : Ident) (s : State), s.goes id R.BMF_BANK_CTRL ∧ ((s.bit F.BMF_STATUS_TARGET_LOCK = false)
      ∧ (s.bit F.BMF_STATUS_COPY_BUSY = false))) ∧
    (∃ (s : State) (b : Nat), s.bit F.BMF_STATUS_COPY_BUSY = true ∧ s.getF F.BMF_BANK_SEL_SEL = b) ∧
    (∃ (s : State), s.bit F.BMF_STATUS_COPY_BUSY = false) ∧
    (∃ (c : Fin 256) (s : State), s.bit (F.FIR_STATUS_SETTLING c) = true
      ∧ s.rd64 (R.FIR_SETTLE_END_LO c) (R.FIR_SETTLE_END_HI c) ≤ s.label) ∧
    (∃ (s : State) (a : Anchor) (l : List Anchor), s.time.anchors = a :: l ∧ s.run.running = true ∧ 0 < a.sn
      ∧ a.sn + 32768 ≤ s.run.next ∧ (∀ e ∈ s.path.align, e.1 ≠ a.sn + 32768)) :=
  ⟨⟨.host0, 3, reSn 77 (sh [(R.CND_DELAY_INT 3, 5#32), (R.CND_DELAY_INT 4, 5#32)] (inRun 3 77)),
          by unfold State.goes; decide +kernel⟩,
    ⟨.host0, 3, sh [(R.CND_DELAY_INT 3, 5#32)] (halted (inRun 3 77)), by unfold State.goes; decide +kernel⟩,
    ⟨.host0, 3, sh [(R.CND_DELAY_INT 3, 5#32)] (up 5), by unfold State.goes; decide +kernel⟩,
    ⟨.host0, sh [(R.TRG_TC_CTRL 0, 1#32)] (inRun 3 77), by unfold State.goes; decide +kernel⟩,
    ⟨.host0, reSn 77 (sh [(R.TRG_TC_HOLD 0, 0x5#32), (R.CND_DELAY_INT 4, 5#32)] (inRun 3 77)),
          by unfold State.goes; decide +kernel⟩,
    ⟨.host0, halted (sh [(R.TRG_TC_HOLD 0, 0x5#32), (R.CND_DELAY_INT 4, 5#32)] (inRun 3 77)),
          by unfold State.goes; decide +kernel⟩,
    ⟨.host0, sh [(R.TRG_TC_HOLD 0, 0xFFFFFFFF#32)] (up 7), by unfold State.goes; decide +kernel⟩,
    ⟨.host0, put [(F.BMF_STATUS_TARGET_LOCK, 1)] (up 5), by unfold State.goes; decide +kernel⟩,
    ⟨.host0, up 5, by unfold State.goes; decide +kernel⟩,
    ⟨((put [(F.BMF_STATUS_COPY_BUSY, 1)] (up 5)).wr (R.BMF_SHIFT 3 0) 7#32).wr (R.BMF_W 2 0 9) 9#32, 0, by decide +kernel⟩,
    ⟨up 5, by decide +kernel⟩,
    ⟨3, (put [(F.FIR_STATUS_SETTLING 3, 1)] (inRun 3 77)).wr (R.FIR_SETTLE_END_LO 3) 76#32, by decide +kernel⟩,
    ⟨{ inRun 3 40000 with time := { (inRun 3 40000).time with anchors := [⟨5, 9, 0, [], 3⟩] } }, ⟨5, 9, 0, [], 3⟩, [],
          by decide +kernel⟩⟩

theorem witness_TimedApply :
    (∃ (id : Ident) (s : State), s.goes id R.HIF_APPLY_CTRL ∧ (∃ h ∈ s.pwr.held ++ s.pwr.behind, h.ident = id ∧ h.isWrite = true)) ∧
    (∃ (id : Ident) (s : State), s.goes id R.HIF_APPLY_CTRL ∧ (∀ h ∈ s.pwr.held ++ s.pwr.behind, h.ident ≠ id) ∧ s.applySt ≠ 0) ∧
    (∃ (id : Ident) (s : State), s.goes id R.HIF_APPLY_CTRL ∧ (∀ h ∈ s.pwr.held ++ s.pwr.behind, h.ident ≠ id) ∧ s.applySt = 0) ∧
    (∃ (s : State) (off : Nat), s.applySt = 1 ∧ s.checkSet false = some off) ∧
    (∃ (s : State) (n : Nat), s.applySt = 1 ∧ s.checkSet false = none ∧ s.host.ended = none ∧ s.host.applySn = n ∧ s.runSt = 3
      ∧ ((s.runSt = 3) ∧ (s.notReached n = false))) ∧
    (∃ (s : State) (n : Nat), s.applySt = 1 ∧ s.checkSet false = none ∧ s.host.ended = none ∧ s.host.applySn = n ∧ s.runSt = 2) ∧
    (∃ (s : State) (n : Nat), s.applySt = 1 ∧ s.checkSet false = none ∧ s.host.ended = none ∧ s.host.applySn = n ∧ ((s.runSt ≤ 1)
      ∧ ((∀ e ∈ s.shadows, e.1 ≠ R.HIF_APPLY_STATUS)))) ∧
    (∃ (s : State), s.applySt ≠ 1) ∧
    (∃ (s : State) (a r : Nat), (s.applySt ≠ 2 ∨ s.runSt ≠ 3 ∨ (s.host.landAt = some a ∧ s.spanOf a = none
      ∧ (s.run.next < a ∨ (s.reform.snr = some r ∧ r ≤ a) ∨ (s.run.stopAt = some r ∧ r < a))))) ∧
    (∃ (id : Ident) (s : State), s.goes id R.HIF_APPLY_CTRL ∧ s.applySt = 1) ∧
    (∃ (id : Ident) (s : State), s.goes id R.HIF_APPLY_CTRL ∧ s.applySt = 0) ∧
    (∃ (id : Ident) (s : State), s.goes id R.HIF_APPLY_CTRL ∧ ((s.host.landAt).any (fun a => decide ((s.applySt = 2)
      ∧ (s.runSt ≠ 3 ∨ s.run.next ≤ a))) = true)) ∧
    (∃ (id : Ident) (s : State), s.goes id R.HIF_APPLY_CTRL ∧ ((s.host.landAt).any (fun a => decide ((s.applySt = 2)
      ∧ (s.runSt = 3) ∧ (a < s.run.next))) = true)) ∧
    (∃ (s : State) (a n : Nat), s.applySt = 2 ∧ s.runSt = 3 ∧ s.host.landAt = some a ∧ (s.spanOf a = none ∧ n = a ∨ ∃ h,
      s.spanOf a = some (h, some n)) ∧ n ≤ s.run.next ∧ (∀ r, s.reform.snr = some r → n < r)) ∧
    (∃ (s : State) (a n : Nat), s.applySt = 2 ∧ s.runSt = 3 ∧ s.host.landAt = some a ∧ (s.spanOf a = none ∧ n = a ∨ ∃ h,
      s.spanOf a = some (h, some n)) ∧ n ≤ s.run.next ∧ (∀ r, s.reform.snr = some r → n < r)) :=
  ⟨⟨.host0, { inRun 3 77 with pwr := { (inRun 3 77).pwr with held := [⟨.host0, R.CAL_BG_CTRL, 1#32, .write, false⟩] } },
          by unfold State.goes; decide +kernel⟩,
    ⟨.host0, put [(F.HIF_APPLY_STATUS_STATE, 1)] (inRun 3 77), by unfold State.goes; decide +kernel⟩,
    ⟨.host0, sh [(R.CND_DELAY_INT 3, 5#32)] (inRun 3 77), by unfold State.goes; decide +kernel⟩,
    ⟨sh [(R.CND_DELAY_INT 3, 5#32), (R.TRG_PF_PRE 1, 0x3FFFF#32)] (put [(F.HIF_APPLY_STATUS_STATE, 1)] (inRun 3 77)),
          R.TRG_PF_PRE 1, by decide +kernel⟩,
    ⟨sh [(R.CND_DELAY_INT 3, 5#32)] (put [(F.HIF_APPLY_STATUS_STATE, 1)] (inRun 3 77)), 0, by decide +kernel⟩,
    ⟨(let s := sh [(R.CND_DELAY_INT 3, 5#32)] (put [(F.HIF_APPLY_STATUS_STATE, 1)] (inRun 2 0)); { s with host := { s.host with applySn := 99 } }), 99, by decide +kernel⟩,
    ⟨(let s := sh [(R.CND_DELAY_INT 3, 5#32)] (put [(F.HIF_APPLY_STATUS_STATE, 1)] (inRun 0 0)); { s with host := { s.host with applySn := 99 } }), 99, by decide +kernel⟩,
    ⟨inRun 3 77, by decide +kernel⟩,
    ⟨inRun 3 77, 5, 0, by decide +kernel⟩,
    ⟨.host0, put [(F.HIF_APPLY_STATUS_STATE, 1)] (inRun 3 77), by unfold State.goes; decide +kernel⟩,
    ⟨.host0, inRun 3 77, by unfold State.goes; decide +kernel⟩,
    ⟨.host0, (let s := (put [(F.HIF_APPLY_STATUS_STATE, 2)] (inRun 3 77)); { s with host := { s.host with landAt := some 79 } }), by unfold State.goes; decide +kernel⟩,
    ⟨.host0, (let s := (put [(F.HIF_APPLY_STATUS_STATE, 2)] (inRun 3 77)); { s with host := { s.host with landAt := some 76 } }), by unfold State.goes; decide +kernel⟩,
    ⟨landing 77 none, 77, 77, by decide +kernel, by decide +kernel, rfl, .inl (by decide +kernel), by decide +kernel,
          fun r (h : none = some r) => (nomatch h)⟩,
    ⟨landing 30 (some (29, some 50)), 30, 50, by decide +kernel, by decide +kernel, rfl, .inr ⟨29, by decide +kernel⟩,
          by decide +kernel, fun r (h : none = some r) => (nomatch h)⟩⟩

theorem witness_TriggersFire :
    (∃ (n : Fin 4) (rise : Bool) (s : State) (near : Bool), s.bit (F.TRG_TI_CTRL_EN n) = true
      ∧ edgeSel (s.getF (F.TRG_TI_CTRL_EDGE n)) rise = true
      ∧ near = (match s.trg.tiLast.getD n none with | some k => decide (s.tick < k + 8) | none => false) ∧ near = true) ∧
    (∃ (n : Fin 4) (rise : Bool) (s : State) (near : Bool), s.bit (F.TRG_TI_CTRL_EN n) = true
      ∧ edgeSel (s.getF (F.TRG_TI_CTRL_EDGE n)) rise = true
      ∧ near = (match s.trg.tiLast.getD n none with | some k => decide (s.tick < k + 8) | none => false) ∧ ((near = false)
      ∧ (s.trg.tiLast.length = 4)) ∧ ((near = false) ∧ (s.trg.tiLast.length = 4) ∧ ((s.inRun = true ∨ s.draining = true)))) ∧
    (∃ (n : Fin 4) (rise : Bool) (s : State),
      (s.bit (F.TRG_TI_CTRL_EN n) = false ∨ edgeSel (s.getF (F.TRG_TI_CTRL_EDGE n)) rise = false)) ∧
    (∃ (id : Ident) (n : Fin 8) (s : State), s.goes id (R.TRG_TC_FORCE n) ∧ s.getF (F.TRG_TC_CTRL_SRC n) ≠ 4) ∧
    (∃ (id : Ident) (n : Fin 8) (s : State), s.goes id (R.TRG_TC_FORCE n) ∧ ((s.getF (F.TRG_TC_CTRL_SRC n) = 4)
      ∧ ((s.runSt = 3 ∨ s.draining = true)) ∧ (115 ≤ s.label))) ∧
    (∃ (s : State), (s.run.running = false ∨ s.halted = true)) ∧
    (∃ (s : State) (i : Fin 8) (n : Nat), s.run.running = true ∧ s.halted = false ∧ s.trg.met = [⟨4, i, n, n + 115, false⟩]
      ∧ n + 115 ≤ s.label ∧ s.coincNext s.trg.nextN (s.label + 1 - 115 - s.trg.nextN) = none ∧ s.evaluated n = true
      ∧ s.getFAt n (F.TRG_TC_CTRL_EN i) = 1 ∧ s.getFAt n (F.TRG_TC_CTRL_SRC i) = 4 ∧ (∀ k : Fin 8,
      s.rdAt n (R.TRG_PF_MASK i 0 + 4 * k) = 0#32) ∧ s.trg.conds.length = 8 ∧ s.condBlocked i n = none
      ∧ ((s.condBlocked i n = none) ∧ (s.getFAt n (F.TRG_TC_HOLD_HOLD i) ≠ 0) ∧ (s.offAfter i n = none))) ∧
    (∃ (n : Fin 8) (s : State) (r : Nat), s.trg.r0 = some r ∧ s.run.running = true ∧ s.getF (F.TRG_TC_STATE_STATE n) = 1
      ∧ r + s.getF (F.TRG_PF_PRE_P n) ≤ s.label ∧ (∃ h ∈ (s.cond n).hold, s.label ≤ h.2)) ∧
    (∃ (n : Fin 8) (s : State) (r : Nat), s.trg.r0 = some r ∧ s.run.running = true ∧ s.getF (F.TRG_TC_STATE_STATE n) = 1
      ∧ r + s.getF (F.TRG_PF_PRE_P n) ≤ s.label ∧ (((∀ h ∈ (s.cond n).hold, h.2 < s.label)) ∧ ((s.cond n).skip = 0))) ∧
    (∃ (n : Fin 8) (s : State), (s.cond n).hold ≠ [] ∧ (∀ h ∈ (s.cond n).hold, h.2 < s.label) ∧ (s.cond n).skip = 0
      ∧ s.getF (F.TRG_TC_STATE_STATE n) = 3) ∧
    (∃ (n : Fin 8) (s : State), s.getF (F.TRG_TC_STATE_STATE n) ≠ 1) ∧
    (∃ (n : Fin 8) (s : State), s.getF (F.TRG_TC_STATE_STATE n) ≠ 3) ∧
    (∃ (n : Fin 4) (s : State) (l w : Nat) (rest : List (Nat × Nat)), s.trg.outs.length = 4
      ∧ (s.trg.outs.getD n TrigOut.reset).leads = (l, w) :: rest ∧ l < s.run.scyc ∧ s.bit (F.TRG_TO_CTRL_EN n) = true
      ∧ (s.trg.outs.getD n TrigOut.reset).endAt = none ∧ (((s.trg.outs.getD n TrigOut.reset).endAt = none)
      ∧ (s.bit F.PWR_STATUS_READY = true) ∧ (s.dbg.ir ≠ 0))) ∧
    (∃ (n : Fin 4) (s : State) (l w : Nat) (rest : List (Nat × Nat)), s.trg.outs.length = 4
      ∧ (s.trg.outs.getD n TrigOut.reset).leads = (l, w) :: rest ∧ l < s.run.scyc ∧ s.bit (F.TRG_TO_CTRL_EN n) = true
      ∧ ((s.trg.outs.getD n TrigOut.reset).endAt).any (fun e => decide ((l < e))) = true) ∧
    (∃ (n : Fin 4) (s : State) (l w : Nat) (rest : List (Nat × Nat)), s.trg.outs.length = 4
      ∧ (s.trg.outs.getD n TrigOut.reset).leads = (l, w) :: rest ∧ s.run.scyc ≤ l) ∧
    (∃ (n : Fin 4) (s : State) (l w : Nat) (rest : List (Nat × Nat)), s.trg.outs.length = 4
      ∧ (s.trg.outs.getD n TrigOut.reset).leads = (l, w) :: rest ∧ ((l < s.run.scyc) ∧ (s.bit (F.TRG_TO_CTRL_EN n) = false)
      ∧ ((s.trg.outs.getD n TrigOut.reset).endAt = none))) ∧
    (∃ (n : Fin 4) (s : State) (e : Nat), s.trg.outs.length = 4 ∧ (s.trg.outs.getD n TrigOut.reset).endAt = some e ∧ e < s.run.scyc
      ∧ ((s.bit (F.TRG_TO_CTRL_EN n) = true) ∧ (s.bit F.PWR_STATUS_READY = true) ∧ (s.dbg.ir ≠ 0))) :=
  ⟨⟨2, true, (let s := put [(F.TRG_TI_CTRL_EN 2, 1), (F.TRG_TI_CTRL_EDGE 2, 1)] (inRun 3 5); { s with trg := { s.trg with tiLast := [none, none, some (s.tick - 7), none] } }), true, by decide +kernel⟩,
    ⟨2, true, put [(F.TRG_TI_CTRL_EN 2, 1), (F.TRG_TI_CTRL_EDGE 2, 1)] (inRun 3 5), false, by decide +kernel⟩,
    ⟨2, false, put [(F.TRG_TI_CTRL_EN 2, 1), (F.TRG_TI_CTRL_EDGE 2, 1)] (up 40), by decide +kernel⟩,
    ⟨.host0, 5, inRun 3 200, by unfold State.goes; decide +kernel⟩,
    ⟨.host0, 5, put [(F.TRG_TC_CTRL_SRC 5, 4)] (inRun 3 200), by unfold State.goes; decide +kernel⟩,
    ⟨up 5, by decide +kernel⟩,
    ⟨(let s := trg1 [(F.TRG_TC_HOLD_HOLD 5, 9)] 1; { s with trg := { s.trg with r0 := some 60, starts := [(0, 60)] } }), 5, 60, by decide +kernel⟩,
    ⟨5, (let s := trg1 [(F.TRG_TC_HOLD_HOLD 5, 9), (F.TRG_PF_PRE_P 5, 4)] 1; { s with trg := { s.trg with r0 := some 60, starts := [(0, 60)], conds := updAt (fun x => { x with hold := [(50, 70), (190, 230)] }) s.trg.conds 5 } }), 60, by decide +kernel⟩,
    ⟨5, (let s := trg1 [(F.TRG_TC_HOLD_HOLD 5, 9), (F.TRG_PF_PRE_P 5, 4)] 1; { s with trg := { s.trg with r0 := some 60, starts := [(0, 60)] } }), 60, by decide +kernel⟩,
    ⟨5, (let s := trg1 [(F.TRG_TC_HOLD_HOLD 5, 9)] 3; { s with trg := { s.trg with conds := updAt (fun x => { x with hold := [(50, 70)] }) s.trg.conds 5 } }), by decide +kernel⟩,
    ⟨5, up 5, by decide +kernel⟩,
    ⟨5, up 5, by decide +kernel⟩,
    ⟨1, outs ⟨[(199, 4), (250, 3)], none⟩, 199, 4, [(250, 3)], by decide +kernel⟩,
    ⟨1, outs ⟨[(199, 4), (250, 3)], some 201⟩, 199, 4, [(250, 3)], by decide +kernel⟩,
    ⟨1, outs ⟨[(250, 3)], some 199⟩, 250, 3, [], by decide +kernel⟩,
    ⟨1, put [(F.TRG_TO_CTRL_EN 1, 0)] (outs ⟨[(150, 3)], none⟩), 150, 3, [], by decide +kernel⟩,
    ⟨1, outs ⟨[(250, 3)], some 199⟩, 199, by decide +kernel⟩⟩

theorem witness_MemoryWindowAndScrub :
    (∃ (off len : Nat) (data : Option (List (Option Byte))),
      (memBytes ≤ off ∨ memBytes < off + (match data with | none => len | some b => b.length))) ∧
    (∃ (id : Ident) (off len : Nat) (s : State), 0 < len ∧ off + len ≤ memBytes ∧ s.domOn 9 = true
      ∧ ((s.windowMay id false off len = true) ∧ (s.mem.faults = [])) ∧ ((s.windowMay id false off len = true)
      ∧ (s.mem.faults = []))) ∧
    (∃ (id : Ident) (off len : Nat) (s : State), 0 < len ∧ off + len ≤ memBytes ∧ s.domOn 9 = true
      ∧ s.windowMay id false off len = false ∧ ((s.windowMay id false off len = false)
      ∧ (s.firsts.contains R.MEM_DENY_COUNT = false))) ∧
    (∃ (id : Ident) (off len : Nat) (s : State), 0 < len ∧ off + len ≤ memBytes ∧ s.domOn 9 = true
      ∧ ((s.windowMay id false off len = false) ∧ (s.firsts.contains R.MEM_DENY_COUNT = true))) ∧
    (∃ (id : Ident) (off : Nat) (b : List (Option Byte)) (s : State), 0 < b.length ∧ off + b.length ≤ memBytes ∧ s.domOn 9 = true
      ∧ ((s.windowMay id true off b.length = true) ∧ (s.mem.faults = []) ∧ (s.bit F.MEM_INJECT_CTRL_ARM = false))) ∧
    (∃ (id : Ident) (off : Nat) (b : List (Option Byte)) (s : State), 0 < b.length ∧ off + b.length ≤ memBytes ∧ s.domOn 9 = true
      ∧ s.windowMay id true off b.length = false) ∧
    (∃ (off len : Nat) (data : Option (List (Option Byte))) (s : State), s.domOn 9 = false
      ∧ 0 < (match data with | none => len | some b => b.length)
      ∧ off + (match data with | none => len | some b => b.length) ≤ memBytes ∧ data = none) ∧
    (∃ (off len : Nat) (data : Option (List (Option Byte))) (s : State), s.domOn 9 = false
      ∧ 0 < (match data with | none => len | some b => b.length)
      ∧ off + (match data with | none => len | some b => b.length) ≤ memBytes ∧ data ≠ none) ∧
    (∃ (s : State), s.bit F.MEM_SCRUB_CTRL_EN = true ∧ s.image.isSome = true
      ∧ (s.mem.scrubOn = false ∨ s.mem.scrubFrom + 500000000 * s.getF F.MEM_SCRUB_CTRL_PERIOD_S ≤ s.tick)
      ∧ (∃ a ∈ s.mnt.running ++ s.mnt.waiting, a.a = actScrub)) ∧
    (∃ (s : State), s.bit F.MEM_SCRUB_CTRL_EN = true ∧ s.image.isSome = true
      ∧ (s.mem.scrubOn = false ∨ s.mem.scrubFrom + 500000000 * s.getF F.MEM_SCRUB_CTRL_PERIOD_S ≤ s.tick)
      ∧ (∀ a ∈ s.mnt.running ++ s.mnt.waiting, a.a ≠ actScrub)) ∧
    (∃ (s : State), s.bit F.MEM_SCRUB_CTRL_EN = false) ∧
    (∃ (s : State), s.runs actScrub 0 = true ∧ s.bit F.MEM_SCRUB_STATUS_ACTIVE = true ∧ s.bit F.MEM_SCRUB_STATUS_PAUSED = false
      ∧ s.copying = false ∧ s.mem.line < memLines ∧ s.bit F.MEM_SCRUB_CTRL_EN = true) ∧
    (∃ (s : State), s.runs actScrub 0 = true ∧ s.bit F.MEM_SCRUB_STATUS_ACTIVE = true ∧ s.bit F.MEM_SCRUB_STATUS_PAUSED = false
      ∧ s.copying = false ∧ s.mem.line < memLines ∧ s.bit F.MEM_SCRUB_CTRL_EN = false) ∧
    (∃ (s : State), s.copying = true) ∧
    (∃ (s : State), s.runs actScrub 0 = true ∧ s.bit F.MEM_SCRUB_STATUS_ACTIVE = true ∧ memLines ≤ s.mem.line) ∧
    (∃ (id : Ident) (off a : Nat) (v : Byte) (b : List (Option Byte)) (s : State), off + b.length ≤ memBytes ∧ s.domOn 9 = true
      ∧ s.windowMay id true off b.length = true ∧ s.mem.faults = [] ∧ s.bit F.MEM_INJECT_CTRL_ARM = false ∧ (∀ a,
      s.ctxAt a = none) ∧ off ≤ a ∧ b[a - off]? = some (some v)) ∧
    (∃ (id : Ident) (off a : Nat) (b : List (Option Byte)) (s : State), off + b.length ≤ memBytes ∧ s.domOn 9 = true
      ∧ s.windowMay id true off b.length = true ∧ s.mem.faults = [] ∧ s.bit F.MEM_INJECT_CTRL_ARM = false ∧ (∀ a,
      s.ctxAt a = none) ∧ b[a - off]? = some none) ∧
    (∃ (id : Ident) (off len : Nat) (s : State), 0 < len ∧ off + len ≤ memBytes ∧ s.domOn 9 = true
      ∧ s.windowMay id false off len = true ∧ s.mem.faults = [] ∧ (∀ a, s.ctxAt a = none)) :=
  ⟨⟨0x8000000, 0, none, by decide +kernel⟩,
    ⟨.host0, 0x100001, 7, cells (pt (up 5)), by decide +kernel⟩,
    ⟨.host0, 0x180001, 7, cells (pt (up 5)), by decide +kernel⟩,
    ⟨.host0, 0x180001, 7, { cells (pt (up 5)) with firsts := [R.MEM_DENY_COUNT] }, by decide +kernel⟩,
    ⟨.host0, 0x100001, [some 9#8, some 0#8, none, some 3#8, some 4#8], cells (pt (up 5)), by decide +kernel⟩,
    ⟨.host0, 0x180001, [some 9#8, some 0#8, none, some 3#8, some 4#8], cells (pt (up 5)), by decide +kernel⟩,
    ⟨5, 7, none, (up 5).wr R.PWR_DOM_STATE 0x00040000#32, by decide +kernel⟩,
    ⟨5, 7, some [some 5#8], (up 5).wr R.PWR_DOM_STATE 0#32, by decide +kernel⟩,
    ⟨put [(F.MEM_SCRUB_CTRL_EN, 1)] { acts actScrub 0 false [] with image := some (img 3) }, by decide +kernel⟩,
    ⟨put [(F.MEM_SCRUB_CTRL_EN, 1)] { up 5 with image := some (img 3) }, by decide +kernel⟩,
    ⟨up 5, by decide +kernel⟩,
    ⟨scr 1 0, by decide +kernel⟩,
    ⟨scr 0 9, by decide +kernel⟩,
    ⟨(let s := scr 1 9; { s with trg := { s.trg with caps := [⟨7, 100, 0, 16, [0], 2, false, 0, 3, 32, 0, 16, [], 0, false, 4000, none⟩] } }), by decide +kernel⟩,
    ⟨scr 1 2097152, by decide +kernel⟩,
    ⟨.host0, 0x17FFFE, 0x17FFFF, 3#8, [none, some 3#8], cells (pt (up 5)), by decide +kernel, by decide +kernel,
          by decide +kernel, by decide +kernel, by decide +kernel, noCtx, by decide +kernel, by decide +kernel⟩,
    ⟨.host0, 0x17FFFE, 0x17FFFE, [none, some 3#8], cells (pt (up 5)), by decide +kernel, by decide +kernel, by decide +kernel,
          by decide +kernel, by decide +kernel, noCtx, by decide +kernel⟩,
    ⟨.host0, 0x17FFFF, 1, cells (pt (up 5)), by decide +kernel, by decide +kernel, by decide +kernel, by decide +kernel,
          by decide +kernel, noCtx⟩⟩

theorem witness_FramesTravel :
    (∃ (i : Fin 64) (s : State) (ok dc : Nat), s.strCont i = true ∧ (s.str i).active = true ∧ (s.headFrame i).2 = true
      ∧ s.halted = false ∧ s.fqs.length = 16 ∧ s.strs.length = 64
      ∧ ok = ((s.headFrame i).1.flatMap (fun x => okSrcs (s.strSrc i) x.vals)).length
      ∧ dc = ((s.headFrame i).1.flatMap (fun x => declSrcs x.sn (s.strSrc i) x.vals)).length) ∧
    (∃ (i : Fin 64) (s : State), (s.strCont i = false ∨ (s.str i).active = false ∨ (s.headFrame i).2 = false ∨ s.halted = true)) ∧
    (∃ (p : Fin 4) (s : State), (s.linkUp p = false ∨ (s.port p).sending ≠ none ∨ s.hostFirst p = true)) ∧
    (∃ (p : Fin 4) (s : State) (r : List Byte) (rest : List (List Byte)), s.linkUp p = true ∧ (s.port p).sending = none
      ∧ s.hostFirst p = false ∧ s.ports.length = 4 ∧ (s.port p).replies = r :: rest) ∧
    (∃ (p : Fin 4) (s : State) (k : Fin 4) (x : Packet) (rest : List Packet), s.linkUp p = true ∧ (s.port p).sending = none
      ∧ s.hostFirst p = false ∧ s.ports.length = 4 ∧ s.fqs.length = 16 ∧ (s.port p).replies = [] ∧ s.halted = false ∧ (∀ j,
      j < k.val → s.fq (4 * p + j) = []) ∧ s.fq (4 * p + k) = x :: rest ∧ x.dead = false ∧ s.mem.faults = []
      ∧ s.fqHeld.getD (4 * p + k) none = none) ∧
    (∃ (p : Fin 4) (s : State) (k : Fin 4) (x : Packet) (rest : List Packet), s.linkUp p = true ∧ (s.port p).sending = none
      ∧ s.hostFirst p = false ∧ s.ports.length = 4 ∧ s.fqs.length = 16 ∧ s.strs.length = 64 ∧ (s.port p).replies = []
      ∧ s.halted = false ∧ (∀ j, j < k.val → s.fq (4 * p + j) = []) ∧ s.fq (4 * p + k) = x :: rest ∧ x.dead = false
      ∧ x.stored = true ∧ (s.readFqLine (4 * p + k) 0).1 = false
      ∧ ((s.readFqLine (4 * p + k) 0).2.readFqLines (4 * p + k) 1 (x.lines - 1)).1 = true ∧ x.kind = 0 ∧ x.frozen = none
      ∧ (s.str x.stream).active = true ∧ x.stream < 64 ∧ x.okIn = (x.content.flatMap (·.2)).length) ∧
    (∃ (p : Fin 4) (s : State), (s.port p).replies = [] ∧ s.halted = true) ∧
    (∃ (p : Fin 4) (s : State) (k q : Nat) (x : Packet), s.linkUp p = true ∧ s.ports.length = 4 ∧ s.strs.length = 64
      ∧ x.stream < 64 ∧ (s.port p).sending = some (.packet k x q true) ∧ x.frozen = none ∧ x.kind = 0) ∧
    (∃ (p : Fin 4) (s : State) (k q : Nat) (x : Packet) (h : Bool), s.linkUp p = false
      ∧ (s.port p).sending = some (.packet k x q h)) ∧
    (∃ (p : Fin 4) (s : State), (s.port p).sending = none) :=
  ⟨⟨3, strm 64, (((strm 64).headFrame 3).1.flatMap (fun x => okSrcs ((strm 64).strSrc 3) x.vals)).length,
          (((strm 64).headFrame 3).1.flatMap (fun x => declSrcs x.sn ((strm 64).strSrc 3) x.vals)).length, by decide +kernel⟩,
    ⟨3, up 5, by decide +kernel⟩,
    ⟨1, up 5, by decide +kernel⟩,
    ⟨1, (let s := lnk (up 5); { s with ports := updAt (fun x => { x with replies := [[1#8], [2#8]] }) s.ports 1 }), [1#8], [[2#8]], by decide +kernel⟩,
    ⟨1, (let s := lnk (up 5); { s with fqs := updAt (fun _ => [pk]) s.fqs 6 }), 2, pk, [], by decide +kernel⟩,
    ⟨1, (let s := put [(F.FLW_FQ_SIZE_LINES 6, 40)] (lnk (up 5)); { s with mem := { s.mem with faults := [⟨68, 3, some 4, false, none⟩] }, fqs := updAt (fun _ => [{ pk with okIn := 2 }]) s.fqs 6, strs := updAt (fun x => { x with active := true, ver := 1, produced := 2 }) s.strs 3 }), 2, { pk with okIn := 2 }, [], by decide +kernel⟩,
    ⟨1, halted' (lnk (up 5)), by decide +kernel⟩,
    ⟨1, (let s := lnk (up 5); { s with ports := updAt (fun x => { x with sending := some (.packet 2 pk 7 true) }) s.ports 1 }), 2, 7, pk, by decide +kernel⟩,
    ⟨1, (let s := up 5; { s with ports := updAt (fun x => { x with sending := some (.packet 2 pk 7 true) }) s.ports 1 }), 2, 7, pk, true, by decide +kernel⟩,
    ⟨1, up 5, by decide +kernel⟩⟩

theorem witness_RecordsReachQueues :
    (∃ (s : State), s.recq = []) ∧
    (∃ (l rest : List RecIn) (r : RecIn), nextRec l = some (r, rest)) ∧
    (∃ (s : State), s.recq ≠ []) ∧
    (∃ (s : State) (r : RecIn) (rest : List RecIn), nextRec s.recq = some (r, rest) ∧ s.eqs.length = 3) ∧
    (∃ (id : Ident) (n : Fin 3) (s : State) (e : QEntry) (rest : List QEntry), (id = eqOwner n ∨ id = .dbg)
      ∧ s.readsNow id (R.FLW_EQ_READ_LO n) ∧ s.bit (F.FLW_EQ_CTRL_MODE n) = false ∧ s.eqs.length = 3
      ∧ (s.evq n).entries = e :: rest ∧ (0 < packetsOf (e :: rest) ∨ (s.evq n).partRead = true) ∧ e.enda = e.endb ∧ e.err = 0) ∧
    (∃ (id : Ident) (n : Fin 3) (s : State), onBus id = true ∧ id ≠ eqOwner n ∧ id ≠ .dbg ∧ s.readsNow id (R.FLW_EQ_READ_LO n)) ∧
    (∃ (f : Fin 2) (s : State),
      (s.bit (F.FLW_EQ_CTRL_MODE f) = false ∨ s.ringOn f 9 = false ∨ s.ringLen f 9 ≤ s.ringFill f 9 ∨ packetsOf (s.evq f).entries = 0)) ∧
    (∃ (f : Fin 2) (s : State) (pre : List QEntry) (e : QEntry) (rest : List QEntry), s.bit (F.FLW_EQ_CTRL_MODE f) = true
      ∧ s.ringOn f 9 = true ∧ s.ringFill f 9 < s.ringLen f 9 ∧ s.eqs.length = 3 ∧ pre.length < 4096
      ∧ (s.evq f).entries = pre ++ e :: rest ∧ (∀ x ∈ pre, x.enda = false ∧ x.endb = false ∧ x.err = 0) ∧ e.enda = true
      ∧ e.endb = true ∧ e.err = 0) :=
  ⟨⟨up 5, by decide +kernel⟩,
    ⟨[⟨2, 0x0E02, [3#32], 5⟩, ⟨0, 0x0103, [], 5⟩, ⟨0, 0x0104, [], 5⟩, ⟨0, 0x0003, [], 6⟩], [⟨2, 0x0E02, [3#32], 5⟩, ⟨0, 0x0104,
          [], 5⟩, ⟨0, 0x0003, [], 6⟩], ⟨0, 0x0103, [], 5⟩, by decide +kernel⟩,
    ⟨{ up 5 with recq := [⟨2, 0x0E02, [3#32], 5⟩] }, by decide +kernel⟩,
    ⟨(put [(F.FLW_EQ_CTRL_MASK 1, 0x7FFFF)] { up 5 with recq := [⟨2, 0x0E02, [3#32], 5⟩, ⟨0, 0x0E03, [], 5⟩] }), ⟨2, 0x0E02,
          [3#32], 5⟩, [⟨0, 0x0E03, [], 5⟩], by decide +kernel⟩,
    ⟨.host1, 1, eq3 1 [⟨1#32, false, false, [], false⟩, ⟨2#32, true, true, [], false⟩], ⟨1#32, false, false, [], false⟩, [⟨2#32,
          true, true, [], false⟩], by unfold State.readsNow; decide +kernel⟩,
    ⟨.host1, 2, eq3 2 [⟨2#32, true, true, [], false⟩], by unfold State.readsNow; decide +kernel⟩,
    ⟨1, eq3 1 [⟨2#32, true, true, [], false⟩], by decide +kernel⟩,
    ⟨1, put [(F.FLW_EQ_CTRL_MODE 1, 1), (F.HIF_RING_CTRL_EN 1 9, 1), (F.HIF_RING_CTRL_LOG2 1 9, 4)] (eq3 1 [⟨1#32, false, false,
          [], false⟩, ⟨2#32, true, true, [], false⟩]), [⟨1#32, false, false, [], false⟩], ⟨2#32, true, true, [], false⟩, [],
          by decide +kernel⟩⟩

theorem witness_QueuesFlush :
    (∃ (id : Ident) (n : Fin 512) (s : State), s.goes id (R.FLW_WQ_CTRL n) ∧ s.flushOk id = false) ∧
    (∃ (id : Ident) (n : Fin 512) (s : State), s.goes id (R.FLW_WQ_CTRL n) ∧ ((s.flushOk id = true)
      ∧ (n.val < s.getF F.FLW_WQ_COUNT_COUNT) ∧ (s.wqs.length = 512)) ∧ ((s.flushOk id = true)
      ∧ (n.val < s.getF F.FLW_WQ_COUNT_COUNT) ∧ (s.wqs.length = 512) ∧ ((s.wq n).midItem = false) ∧ ((s.wq n).flushes = 0))) ∧
    (∃ (id : Ident) (n : Fin 512) (s : State), s.goes id (R.FLW_WQ_CTRL n) ∧ ((s.flushOk id = true)
      ∧ (n.val < s.getF F.FLW_WQ_COUNT_COUNT) ∧ (s.wqs.length = 512) ∧ (((s.wq n).midItem = true ∨ (s.wq n).flushes ≠ 0)))) ∧
    (∃ (n : Fin 512) (s : State), s.bit (F.FLW_WQ_STATUS_DISCARDING n) = true ∧ s.wqs.length = 512) ∧
    (∃ (n : Fin 512) (s : State), s.bit (F.FLW_WQ_STATUS_DISCARDING n) = false) ∧
    (∃ (id : Ident) (n : Fin 16) (s : State), s.goes id (R.FLW_FQ_CTRL n) ∧ s.flushOk id = false) ∧
    (∃ (id : Ident) (n : Fin 16) (s : State), s.goes id (R.FLW_FQ_CTRL n) ∧ s.flushOk id = true ∧ ((s.flushOk id = true)
      ∧ ((∀ p ∈ s.fqUnread n, s.fqOf p.stream = n))) ∧ s.flushOk id = true) ∧
    (∃ (id : Ident) (n : Fin 3) (s : State), s.goes id (R.FLW_EQ_CTRL n) ∧ (id = eqOwner n ∨ id = .host1 ∨ id = .dbg)
      ∧ (((id = eqOwner n ∨ id = .host1 ∨ id = .dbg)) ∧ (s.eqs.length = 3))) ∧
    (∃ (id : Ident) (n : Fin 3) (s : State), s.goes id (R.FLW_EQ_CTRL n) ∧ (¬ (id = eqOwner n ∨ id = .host1 ∨ id = .dbg))) :=
  ⟨⟨.host1, 5, put [(F.FLW_WQ_COUNT_COUNT, 6)] (inRun 3 5), by unfold State.goes; decide +kernel⟩,
    ⟨.host1, 5, put [(F.FLW_WQ_COUNT_COUNT, 6)] (up 5), by unfold State.goes; decide +kernel⟩,
    ⟨.host1, 5, (let s := put [(F.FLW_WQ_COUNT_COUNT, 6)] (up 5); { s with wqs := updAt (fun x => { x with midItem := true }) s.wqs 5 }), by unfold State.goes; decide +kernel⟩,
    ⟨5, (let s := put [(F.FLW_WQ_STATUS_DISCARDING 5, 1)] (up 5); { s with wqs := updAt (fun x => { x with midItem := true, flushes := 2 }) s.wqs 5 }), by decide +kernel⟩,
    ⟨5, up 5, by decide +kernel⟩,
    ⟨.host1, 5, (let s := put [(F.FLW_FQ_SIZE_LINES 5, 40)] (inRun 3 5); { s with fqs := updAt (fun _ => [pk]) s.fqs 5 }), by unfold State.goes; decide +kernel⟩,
    ⟨.host1, 2, (let s := put [(F.FLW_FQ_SIZE_LINES 2, 40), (F.STR_DEF_CLASS 3, 2)] (up 5); { s with fqs := updAt (fun _ => [pk, { pk with kind := 3 }, { pk with kind := 4 }]) s.fqs 2 }), by unfold State.goes; decide +kernel⟩,
    ⟨.host1, 1, eq3 1 [⟨1#32, false, false, [], false⟩, ⟨2#32, true, true, [], false⟩], by unfold State.goes; decide +kernel⟩,
    ⟨.netm, 1, eq3 1 [⟨1#32, false, false, [], false⟩, ⟨2#32, true, true, [], false⟩], by unfold State.goes; decide +kernel⟩⟩

theorem witness_SinterTakesDescriptors :
    (∃ (f : Fin 2) (s : State), (s.ringOn f 8 = false ∨ s.domOn 12 = false ∨ s.halted = true ∨ (s.ring f 8).posted = [])) ∧
    (∃ (f : Fin 2) (s : State) (e : RingEntry) (rest : List RingEntry), (s.ring f 8).posted = e :: rest ∧ descOp e.desc ≠ 0
      ∧ descOp e.desc ≠ 2 ∧ descOp e.desc ≠ 3) ∧
    (∃ (f : Fin 2) (s : State) (e : RingEntry) (rest : List RingEntry), (s.ring f 8).posted = e :: rest ∧ descOp e.desc ≠ 1) ∧
    (∃ (f : Fin 2) (c : Instr) (s : State) (e : RingEntry) (rest : List RingEntry) (n : Nat), s.ringOn f 8 = true
      ∧ s.domOn 12 = true ∧ s.halted = false ∧ (s.ring f 8).posted = e :: rest ∧ e.bad = false ∧ s.host.fns.length = 2
      ∧ (s.fn f).rings.length = 10 ∧ s.snt.ctxs.length = 64 ∧ n < 64 ∧ descCtx e.desc = n
      ∧ (c = .hostJobStart f ∨ (c = .sntCompress f ∧ descOp e.desc = 0) ∨ (c = .sntInflate f
      ∧ descOp e.desc = 1) ∨ (c = .sntResume f ∧ descOp e.desc = 2) ∨ (c = .sntRelease f ∧ descOp e.desc = 3))
      ∧ s.descOk e.desc = false ∧ s.descOk e.desc = false) ∧
    (∃ (f : Fin 2) (c : Instr) (s : State) (e : RingEntry) (rest : List RingEntry) (n : Nat), s.ringOn f 8 = true
      ∧ s.domOn 12 = true ∧ s.halted = false ∧ (s.ring f 8).posted = e :: rest ∧ e.bad = false ∧ s.host.fns.length = 2
      ∧ (s.fn f).rings.length = 10 ∧ s.snt.ctxs.length = 64 ∧ n < 64 ∧ descCtx e.desc = n
      ∧ (c = .hostJobStart f ∨ (c = .sntCompress f ∧ descOp e.desc = 0) ∨ (c = .sntInflate f
      ∧ descOp e.desc = 1) ∨ (c = .sntResume f ∧ descOp e.desc = 2) ∨ (c = .sntRelease f ∧ descOp e.desc = 3)) ∧ (∃ l : Fin 5,
      (s.descOk e.desc = true) ∧ (descOp e.desc ≤ 1) ∧ (s.hostLane (descOp e.desc == 1) = some l.val) ∧ (s.ctxSt n = 0))) ∧
    (∃ (f : Fin 2) (c : Instr) (s : State) (e : RingEntry) (rest : List RingEntry) (n : Nat), s.ringOn f 8 = true
      ∧ s.domOn 12 = true ∧ s.halted = false ∧ (s.ring f 8).posted = e :: rest ∧ e.bad = false ∧ s.host.fns.length = 2
      ∧ (s.fn f).rings.length = 10 ∧ s.snt.ctxs.length = 64 ∧ n < 64 ∧ descCtx e.desc = n
      ∧ (c = .hostJobStart f ∨ (c = .sntCompress f ∧ descOp e.desc = 0) ∨ (c = .sntInflate f
      ∧ descOp e.desc = 1) ∨ (c = .sntResume f ∧ descOp e.desc = 2) ∨ (c = .sntRelease f ∧ descOp e.desc = 3))
      ∧ ((s.descOk e.desc = true) ∧ (descOp e.desc ≤ 1) ∧ (s.hostLane (descOp e.desc == 1) = none))) ∧
    (∃ (f : Fin 2) (c : Instr) (s : State) (e : RingEntry) (rest : List RingEntry) (n : Nat), s.ringOn f 8 = true
      ∧ s.domOn 12 = true ∧ s.halted = false ∧ (s.ring f 8).posted = e :: rest ∧ e.bad = false ∧ s.host.fns.length = 2
      ∧ (s.fn f).rings.length = 10 ∧ s.snt.ctxs.length = 64 ∧ n < 64 ∧ descCtx e.desc = n
      ∧ (c = .hostJobStart f ∨ (c = .sntCompress f ∧ descOp e.desc = 0) ∨ (c = .sntInflate f
      ∧ descOp e.desc = 1) ∨ (c = .sntResume f ∧ descOp e.desc = 2) ∨ (c = .sntRelease f ∧ descOp e.desc = 3))
      ∧ ((s.descOk e.desc = true) ∧ (descOp e.desc = 3) ∧ (s.suspRefusal f n = none))) ∧
    (∃ (f : Fin 2) (c : Instr) (s : State) (e : RingEntry) (rest : List RingEntry) (n : Nat) (l : Fin 5) (j : SntJob),
      s.ringOn f 8 = true ∧ s.domOn 12 = true ∧ s.halted = false ∧ (s.ring f 8).posted = e :: rest ∧ e.bad = false
      ∧ s.host.fns.length = 2 ∧ (s.fn f).rings.length = 10 ∧ s.snt.ctxs.length = 64 ∧ n < 64 ∧ descCtx e.desc = n
      ∧ c = .sntResume f ∧ descOp e.desc = 2 ∧ s.descOk e.desc = true ∧ (s.ctx n).job = some j
      ∧ s.hostLane j.infl = some l.val ∧ s.suspRefusal f n = none) :=
  ⟨⟨1, up 5, by decide +kernel⟩,
    ⟨1, rng8 (up 5) (dsc 1 1 9 5 5), ⟨0, dsc 1 1 9 5 5, [], false⟩, [], by decide +kernel⟩,
    ⟨1, rng8 (up 5) (dsc 0 1 9 5 5), ⟨0, dsc 0 1 9 5 5, [], false⟩, [], by decide +kernel⟩,
    ⟨1, .sntCompress 1, rng8 (up 5) (dsc 0 0 9 5 5), ⟨0, dsc 0 0 9 5 5, [], false⟩, [], 9, by decide +kernel⟩,
    ⟨1, .sntCompress 1, rng8 (up 5) (dsc 0 1 9 5 5), ⟨0, dsc 0 1 9 5 5, [], false⟩, [], 9, by decide +kernel⟩,
    ⟨1, .sntCompress 1, rng8 (put [(F.SNT_LANE_STATE 0, 2), (F.SNT_LANE_STATE 1, 2), (F.SNT_LANE_STATE 2, 2), (F.SNT_LANE_STATE 3,
          2)] (up 5)) (dsc 0 1 9 5 5), ⟨0, dsc 0 1 9 5 5, [], false⟩, [], 9, by decide +kernel⟩,
    ⟨1, .sntRelease 1, rng8 (ctx 2 jb (up 5)) (dsc 3 1 9 5 5), ⟨0, dsc 3 1 9 5 5, [], false⟩, [], 9, by decide +kernel⟩,
    ⟨1, .sntResume 1, rng8 (ctx 2 jb (up 5)) (dsc 2 0 9 0 5), ⟨0, dsc 2 0 9 0 5, [], false⟩, [], 9, 0, jb, by decide +kernel⟩⟩

theorem witness_SinterStepsEnd :
    (∃ (l : Fin 5) (s : State), (s.laneSt l ≠ 2 ∨ s.halted = true)) ∧
    (∃ (l : Fin 5) (s : State) (n : Nat) (j : SntJob), s.laneSt l = 2 ∧ s.halted = false ∧ s.getF (F.SNT_LANE_CTX l) = n ∧ n < 64
      ∧ s.snt.ctxs.length = 64 ∧ (s.ctx n).job = some j ∧ ((j.fail = none) ∧ (spaceOf j.dst = 1) ∧ (j.blkMax = 0))) ∧
    (∃ (id : Ident) (v : Word) (s : State) (n : Nat), s.goes id R.SNT_ABORT ∧ getBits v 0 8 = n ∧ s.snt.ctxs.length = 64
      ∧ v.getLsbD 31 = false) ∧
    (∃ (id : Ident) (v : Word) (s : State) (n : Nat), s.goes id R.SNT_ABORT ∧ getBits v 0 8 = n ∧ s.snt.ctxs.length = 64
      ∧ ((v.getLsbD 31 = true) ∧ ((n < 8 ∨ 64 ≤ n ∨ (s.ctxSt n = 0 ∧ (s.ctx n).doneAt ≠ some s.tick) ∨ s.ctxSt n = 3)))) ∧
    (∃ (id : Ident) (v : Word) (s : State) (n : Nat), s.goes id R.SNT_ABORT ∧ getBits v 0 8 = n ∧ s.snt.ctxs.length = 64
      ∧ ((v.getLsbD 31 = true) ∧ (8 ≤ n) ∧ (n < 64) ∧ ((s.ctxSt n = 2 ∨ (s.ctxSt n = 0 ∧ (s.ctx n).doneAt = some s.tick))))) ∧
    (∃ (id : Ident) (v : Word) (s : State) (n : Nat), s.goes id R.SNT_ABORT ∧ getBits v 0 8 = n ∧ s.snt.ctxs.length = 64
      ∧ (((s.ctx n).job).isSome = true ∧ ((v.getLsbD 31 = true) ∧ (8 ≤ n) ∧ (n < 64) ∧ (s.ctxSt n = 1)))) ∧
    (∃ (l : Fin 5) (s : State) (n : Nat) (j : SntJob), s.laneSt l = 2 ∧ s.halted = false ∧ s.getF (F.SNT_LANE_CTX l) = n ∧ n < 64
      ∧ s.snt.ctxs.length = 64 ∧ (s.ctx n).job = some j ∧ j.fail = some (5, 7)) :=
  ⟨⟨2, up 5, by decide +kernel⟩,
    ⟨2, run9 jb, 9, jb, by decide +kernel⟩,
    ⟨.host1, 9#32, run9 jb, 9, by unfold State.goes; decide +kernel⟩,
    ⟨.host1, 0x80000009#32, up 5, 9, by unfold State.goes; decide +kernel⟩,
    ⟨.host1, 0x80000009#32, ctx 2 jb (up 5), 9, by unfold State.goes; decide +kernel⟩,
    ⟨.host1, 0x80000009#32, run9 jb, 9, by unfold State.goes; decide +kernel⟩,
    ⟨2, run9 { jb with fail := some (5, 7) }, 9, { jb with fail := some (5, 7) }, by decide +kernel⟩⟩

theorem witness_CapturesLeave :
    (∃ (s : State), (s.halted = true ∨ s.nextCap = none ∨ s.freeLane 0 = none ∨ s.hubCtx = none)) ∧
    (∃ (s : State) (k : Capture) (l n : Nat), s.halted = false ∧ s.nextCap = some k ∧ s.freeLane 0 = some l ∧ s.hubCtx = some n
      ∧ s.domOn 12 = false) ∧
    (∃ (s : State) (k : Capture) (l n : Nat), s.halted = false ∧ s.nextCap = some k ∧ s.freeLane 0 = some l ∧ s.hubCtx = some n
      ∧ s.domOn 12 = true ∧ ((s.domOn 12 = true) ∧ (s.snt.caps.length = 5)) ∧ ((s.domOn 12 = true) ∧ (s.mem.faults = [])
      ∧ (s.bit F.MEM_INJECT_CTRL_ARM = false))) ∧
    (∃ (l : Fin 5) (s : State) (id : Nat), s.snt.caps.getD l none = some id ∧ s.laneSt l = 1 ∧ s.halted = false
      ∧ s.geyAllIn (s.getF (F.SNT_LANE_STREAM l)) = true) ∧
    (∃ (l : Fin 5) (s : State),
      (s.snt.caps.getD l none = none ∨ s.laneSt l ≠ 1 ∨ s.halted = true ∨ s.geyAllIn (s.getF (F.SNT_LANE_STREAM l)) = false)) ∧
    (∃ (i : Fin 64) (s : State) (o : CapOut) (rest : List CapOut), s.strKind i = 4 ∧ (s.str i).active = true ∧ s.halted = false
      ∧ s.paced i = true ∧ (s.str i).gey = o :: rest ∧ s.fqs.length = 16 ∧ s.strs.length = 64 ∧ o.chans = []) ∧
    (∃ (i : Fin 64) (s : State),
      (s.strKind i ≠ 4 ∨ (s.str i).active = false ∨ s.halted = true ∨ s.paced i = false ∨ (s.str i).gey = [])) ∧
    (∃ (s : State) (i : Nat), s.fumStream = some i ∧ s.fumDue i = true ∧ s.halted = false ∧ s.paced i = true ∧ s.fqs.length = 16
      ∧ s.strs.length = 64) ∧
    (∃ (s : State), (∀ i, s.fumStream = some i → s.fumDue i = false ∨ s.halted = true ∨ s.paced i = false)) ∧
    (∃ (i : Fin 64) (s : State) (r : Nat), s.endReady i = true ∧ s.halted = false ∧ (s.str i).ending = some r ∧ s.fqs.length = 16
      ∧ s.strs.length = 64 ∧ (((s.str i).runs = []) ∧ (s.undelivered i = false)
      ∧ (s.fqRoom (s.fqOf i) (s.endPkt i r).words = true) ∧ ((s.endPkt i r).lines ≤ s.fqUsable (s.fqOf i)))) ∧
    (∃ (i : Fin 64) (s : State) (r : Nat), s.endReady i = true ∧ s.halted = false ∧ (s.str i).ending = some r ∧ s.fqs.length = 16
      ∧ s.strs.length = 64 ∧ (((s.str i).runs = []) ∧ (s.undelivered i = true))) ∧
    (∃ (i : Fin 64) (s : State) (r : Nat), s.endReady i = true ∧ s.halted = false ∧ (s.str i).ending = some r ∧ s.fqs.length = 16
      ∧ s.strs.length = 64 ∧ (((s.str i).runs ≠ []) ∧ (wordsOf (s.lastGaps i) ≤ s.getF (F.FLW_FQ_CREDIT_WORDS (s.fqOf i)))
      ∧ ((∀ g ∈ s.lastGaps i, g.lines ≤ s.fqUsable (s.fqOf i))) ∧ (0 < s.fqUsable (s.fqOf i)))) ∧
    (∃ (i : Fin 64) (s : State), (s.endReady i = false ∨ s.halted = true)) ∧
    (∃ (i : Fin 64) (s : State) (o : CapOut) (x y : CapChan), s.strKind i = 4 ∧ (s.str i).active = true ∧ s.halted = false
      ∧ s.paced i = true ∧ (s.str i).gey = [o] ∧ s.fqs.length = 16 ∧ s.strs.length = 64 ∧ o.chans = [x, y] ∧ x.n = 0) :=
  ⟨⟨up 5, by decide +kernel⟩,
    ⟨cpS 1 ((up 5).wr R.PWR_DOM_STATE 0#32), cp 1, 0, 0, by decide +kernel⟩,
    ⟨cpS 1 (up 5), cp 1, 0, 0, by decide +kernel⟩,
    ⟨2, (let s := put [(F.SNT_LANE_STATE 2, 1), (F.SNT_LANE_CTX 2, 3), (F.SNT_CTX_STATE_STATE 3, 3)] (cpS 2 (up 5)); { s with snt := { s.snt with caps := updAt (fun _ => some 7) s.snt.caps 2 } }), 7, by decide +kernel⟩,
    ⟨2, up 5, by decide +kernel⟩,
    ⟨3, geyS [co []], co [], [], by decide +kernel⟩,
    ⟨3, up 5, by decide +kernel⟩,
    ⟨fumS [[1#32, 2#32]], 3, by decide +kernel⟩,
    ⟨fumS [], by decide +kernel⟩,
    ⟨3, endS id, 1, by decide +kernel⟩,
    ⟨3, (let s := endS id; { s with fqs := updAt (fun _ => [pk]) s.fqs 2 }), 1, by decide +kernel⟩,
    ⟨3, endS (fun x => { x with runs := [⟨0, 1, 0, 80, 81⟩] }), 1, by decide +kernel⟩,
    ⟨3, up 5, by decide +kernel⟩,
    ⟨3, geyS [co [⟨0, 0, [], 0, [⟨0, 2, 7, 100, 115⟩], []⟩, ⟨1, 16, zeros 32, 0, [], []⟩]], co [⟨0, 0, [], 0, [⟨0, 2, 7, 100,
          115⟩], []⟩, ⟨1, 16, zeros 32, 0, [], []⟩], ⟨0, 0, [], 0, [⟨0, 2, 7, 100, 115⟩], []⟩, ⟨1, 16, zeros 32, 0, [], []⟩,
          by decide +kernel⟩⟩

theorem witness_LinksMove :
    (∃ (p : Fin 4) (s : State) (ok : Bool),
      ok = (decide (s.portMode p ≠ 0) && !s.linkUp p && !(s.port p).failed && !s.bit (F.NET_PORT_STATUS_TRAINING p) && s.domOn 10)
      ∧ ok = false) ∧
    (∃ (p : Fin 4) (s : State) (ok : Bool),
      ok = (decide (s.portMode p ≠ 0) && !s.linkUp p && !(s.port p).failed && !s.bit (F.NET_PORT_STATUS_TRAINING p) && s.domOn 10)
      ∧ ok = true) ∧
    (∃ (ports : List (Fin 4)) (s : State), s.ports.length = 4 ∧ (∀ p ∈ ports, s.linkUp p = false) ∧ (∃ p, (p ∉ ports))) ∧
    (∃ (ports : List (Fin 4)) (s : State), s.ports.length = 4 ∧ (∃ p ∈ ports, (s.linkUp p = true))) ∧
    (∃ (p : Fin 4) (s : State), s.bit (F.NET_PORT_STATUS_TRAINING p) = false) ∧
    (∃ (p : Fin 4) (ok : Bool) (s : State), s.bit (F.NET_PORT_STATUS_TRAINING p) = true ∧ s.ports.length = 4 ∧ ok = true
      ∧ ((ok = true) ∧ ((s.port p).trainFail = false))) ∧
    (∃ (p : Fin 4) (ok : Bool) (s : State), s.bit (F.NET_PORT_STATUS_TRAINING p) = true ∧ s.ports.length = 4 ∧ ((ok = true)
      ∧ ((s.port p).trainFail = true))) ∧
    (∃ (p : Fin 4) (ok : Bool) (s : State), s.bit (F.NET_PORT_STATUS_TRAINING p) = true ∧ s.ports.length = 4 ∧ ((ok = false)
      ∧ ((s.port p).trainFail = false))) ∧
    (∃ (p : Fin 4) (ok : Bool) (s : State), s.bit (F.NET_PORT_STATUS_TRAINING p) = true ∧ s.ports.length = 4 ∧ ((ok = false)
      ∧ ((s.port p).trainFail = true))) ∧
    (∃ (id : Ident) (p : Fin 4) (s : State), s.goes id (R.NET_PORT_CTRL p) ∧ s.ports.length = 4) ∧
    (∃ (id : Ident) (p : Fin 4) (s : State), s.goes id (R.NET_PORT_CTRL p)) ∧
    (∃ (p : Fin 4) (s : State), s.runs actReadapt p = true) ∧
    (∃ (p : Fin 4) (s : State), s.runs actReadapt p = false) :=
  ⟨⟨1, up 5, false, by decide +kernel⟩,
    ⟨1, put [(F.NET_PORT_INFO_MODE 1, 2)] (up 5), true, by decide +kernel⟩,
    ⟨[0], lk (up 5), by decide +kernel⟩,
    ⟨[1], lk (up 5), by decide +kernel⟩,
    ⟨1, up 5, by decide +kernel⟩,
    ⟨1, true, put [(F.NET_PORT_STATUS_TRAINING 1, 1)] (up 5), by decide +kernel⟩,
    ⟨1, true, prt (fun x => { x with trainFail := true }) (put [(F.NET_PORT_STATUS_TRAINING 1, 1)] (up 5)), by decide +kernel⟩,
    ⟨1, false, put [(F.NET_PORT_STATUS_TRAINING 1, 1)] (up 5), by decide +kernel⟩,
    ⟨1, false, prt (fun x => { x with trainFail := true }) (put [(F.NET_PORT_STATUS_TRAINING 1, 1)] (up 5)), by decide +kernel⟩,
    ⟨.host1, 1, up 5, by unfold State.goes; decide +kernel⟩,
    ⟨.host1, 1, up 5, by unfold State.goes; decide +kernel⟩,
    ⟨1, acts actReadapt 1 false [], by decide +kernel⟩,
    ⟨1, acts actReadapt 2 false [], by decide +kernel⟩⟩

theorem witness_StreamsReturnOrEnd :
    (∃ (id : Ident) (i : Fin 64) (s : State), s.goes id (R.STR_CTRL i) ∧ s.bit (F.STR_STATUS_ON_FO i) = true) ∧
    (∃ (id : Ident) (i : Fin 64) (s : State), s.goes id (R.STR_CTRL i) ∧ s.bit (F.STR_STATUS_ON_FO i) = false) ∧
    (∃ (i : Fin 64) (s : State), s.bit (F.STR_STATUS_FAILBACK_PENDING i) = true ∧ s.undelivered i = false) ∧
    (∃ (i : Fin 64) (s : State), (s.bit (F.STR_STATUS_FAILBACK_PENDING i) = false ∨ s.undelivered i = true)) ∧
    (∃ (i : Fin 64) (s : State),
      (s.bit F.AFE_RUN_STATUS_DRAINING = false ∨ s.linkUp (s.getF (F.STR_STATUS_PORT_NOW i)) = true ∨ s.bit (F.STR_STATUS_END_SENT i) = true ∨ ∀ k,
      (s.str i).drainFrom = some k → s.tick < k + 500000 * s.getF F.STR_DRAIN_DRAIN_MS)) ∧
    (∃ (i : Fin 64) (s : State) (k : Nat), (s.str i).active = true ∧ s.bit F.AFE_RUN_STATUS_DRAINING = true
      ∧ s.bit (F.STR_STATUS_END_SENT i) = false ∧ s.halted = false ∧ s.linkUp (s.getF (F.STR_STATUS_PORT_NOW i)) = false
      ∧ (∀ c ∈ s.trg.caps, c.stream ≠ i.val) ∧ (s.str i).gey = [] ∧ (s.strKind i = 4 → s.trigsDone = true)
      ∧ (s.str i).drainFrom = some k ∧ k + 500000 * s.getF F.STR_DRAIN_DRAIN_MS ≤ s.tick ∧ s.fqs.length = 16
      ∧ s.strs.length = 64) :=
  ⟨⟨.host1, 3, put [(F.STR_STATUS_ON_FO 3, 1)] (up 5), by unfold State.goes; decide +kernel⟩,
    ⟨.host1, 3, up 5, by unfold State.goes; decide +kernel⟩,
    ⟨3, put [(F.STR_STATUS_ON_FO 3, 1), (F.STR_STATUS_FAILBACK_PENDING 3, 1), (F.STR_DEF_PORT 3, 2)] (up 5), by decide +kernel⟩,
    ⟨3, up 5, by decide +kernel⟩,
    ⟨3, up 5, by decide +kernel⟩,
    ⟨3, dr id, 5, by decide +kernel⟩⟩

theorem witness_FramesAtPorts :
    (∃ (p : Fin 4) (s : State), s.linkUp p = false) ∧
    (∃ (p : Fin 4) (w : List Byte) (s : State) (good : Bool), s.linkUp p = true
      ∧ good = (decide (4 ≤ w.length) && leAt w (w.length - 4) 4 == (crc32 (w.take (w.length - 4))).toNat)
      ∧ (good = false ∨ 9216 < w.length)) ∧
    (∃ (p : Fin 4) (b : List Byte) (s : State), s.linkUp p = true ∧ b.length + 4 ≤ 9216 ∧ etherType b ≠ 0x8808
      ∧ ((s.isDamuf p b = true) ∧ (s.dmfUp = true) ∧ (dmfSized (udpPayload b) = true) ∧ (s.dmfQ.length < 16))) ∧
    (∃ (p : Fin 4) (b : List Byte) (s : State), s.linkUp p = true ∧ b.length + 4 ≤ 9216 ∧ etherType b ≠ 0x8808
      ∧ ((s.isDamuf p b = true) ∧ ((s.dmfUp = false ∨ dmfSized (udpPayload b) = false ∨ 16 ≤ s.dmfQ.length)))) ∧
    (∃ (p : Fin 4) (b : List Byte) (s : State), s.linkUp p = true ∧ b.length + 4 ≤ 9216 ∧ etherType b ≠ 0x8808
      ∧ ((s.isDamuf p b = false) ∧ ((s.rxEnabled p b = false ∨ s.toPortMac p b = false)))) ∧
    (∃ (f : Fin 2) (p : Fin 4) (s : State),
      (s.hostHead f p = none ∨ s.linkUp p = false ∨ (s.port p).sending ≠ none ∨ s.ringOn f p = false)) ∧
    (∃ (f : Fin 2) (p : Fin 4) (s : State) (h : HostFrame), s.hostHead f p = some h ∧ s.linkUp p = true ∧ (s.port p).sending = none
      ∧ s.ringOn f p = true ∧ h.bad = true) ∧
    (∃ (f : Fin 2) (p : Fin 4) (s : State) (h : HostFrame), s.hostHead f p = some h ∧ s.linkUp p = true ∧ (s.port p).sending = none
      ∧ s.ringOn f p = true ∧ ((h.bad = false) ∧ ((h.len = 0 ∨ 2048 < h.len)))) ∧
    (∃ (f : Fin 2) (p : Fin 4) (s : State) (h : HostFrame), s.hostHead f p = some h ∧ s.linkUp p = true ∧ (s.port p).sending = none
      ∧ s.ringOn f p = true ∧ ((h.bad = false) ∧ (0 < h.len) ∧ (h.len ≤ 2048) ∧ (s.hostTurn p h = false))) ∧
    (∃ (f : Fin 2) (p : Fin 4) (cut : Bool) (s : State) (h : HostFrame), s.hostHead f p = some h ∧ s.linkUp p = true
      ∧ (s.port p).sending = none ∧ s.ringOn f p = true ∧ ((h.bad = false) ∧ (0 < h.len) ∧ (h.len ≤ 2048)
      ∧ (s.hostTurn p h = true)) ∧ ((h.bad = false) ∧ (0 < h.len) ∧ (h.len ≤ 2048) ∧ (s.hostTurn p h = true) ∧ (cut = false))
      ∧ ((h.bad = false) ∧ (0 < h.len) ∧ (h.len ≤ 2048) ∧ (s.hostTurn p h = true) ∧ (cut = false) ∧ (h.oneStep = false))) ∧
    (∃ (f : Fin 2) (p : Fin 4) (cut : Bool) (s : State) (h : HostFrame), s.hostHead f p = some h ∧ s.linkUp p = true
      ∧ (s.port p).sending = none ∧ s.ringOn f p = true ∧ ((h.bad = false) ∧ (0 < h.len) ∧ (h.len ≤ 2048)
      ∧ (s.hostTurn p h = true) ∧ (cut = true))) ∧
    (∃ (s : State), s.ports.length = 4) ∧
    (∃ (p : Fin 4) (s : State), (s.port p).ptp.meas = []) ∧
    (∃ (p : Fin 4) (s : State) (m : Int) (rest : List Int), (s.port p).ptp.meas = m :: rest ∧ s.ports.length = 4
      ∧ (s.port p).ptp.run = none) ∧
    (∃ (p : Fin 4) (s : State) (m : Int) (rest : List Int), (s.port p).ptp.meas = m :: rest ∧ s.ports.length = 4
      ∧ ((s.port p).ptp.run).any (fun r => decide (((m - r).natAbs ≤ s.getF (F.NET_PD_THR_THR p)))) = true) ∧
    (∃ (p : Fin 4) (s : State) (m : Int) (rest : List Int), (s.port p).ptp.meas = m :: rest ∧ s.ports.length = 4
      ∧ (((s.port p).ptp.run).any (fun r => decide ((s.getF (F.NET_PD_THR_THR p) < (m - r).natAbs)
      ∧ ((s.port p).ptp.outliers + 1 < s.getF (F.NET_PTP_CTRL_CONSEC p)))) = true)) ∧
    (∃ (p : Fin 4) (s : State) (m : Int) (rest : List Int), (s.port p).ptp.meas = m :: rest ∧ s.ports.length = 4
      ∧ (((s.port p).ptp.run).any (fun r => decide ((s.getF (F.NET_PD_THR_THR p) < (m - r).natAbs)
      ∧ (s.getF (F.NET_PTP_CTRL_CONSEC p) ≤ (s.port p).ptp.outliers + 1))) = true)) ∧
    (∃ (id : Ident) (s : State), s.goes id R.NET_TS_STATUS) ∧
    (∃ (p : Fin 4) (w : List Byte) (s : State) (good : Bool), s.linkUp p = true
      ∧ good = (decide (4 ≤ w.length) && leAt w (w.length - 4) 4 == (crc32 (w.take (w.length - 4))).toNat)
      ∧ (good = false ∨ 9216 < w.length) ∧ good = false) :=
  ⟨⟨1, up 5, by decide +kernel⟩,
    ⟨1, [1#8], lk (up 5), false, by decide +kernel⟩,
    ⟨1, udpN, { (put [(F.NET_DMF_CTRL_EN, 1), (F.NET_DMF_CTRL_PORTS, 2), (F.NET_DMF_CTRL_UDP, 5000)] (lk (up 5))) with image := some (img 1) },
          by decide +kernel⟩,
    ⟨1, udp 5000, put [(F.NET_DMF_CTRL_EN, 1), (F.NET_DMF_CTRL_PORTS, 2), (F.NET_DMF_CTRL_UDP, 5000)] (lk (up 5)),
          by decide +kernel⟩,
    ⟨1, arp, lk (up 5), by decide +kernel⟩,
    ⟨1, 1, up 5, by decide +kernel⟩,
    ⟨1, 1, hq (hf 60 true 60), hf 60 true 60, by decide +kernel⟩,
    ⟨1, 1, hq (hf 0 false 60), hf 0 false 60, by decide +kernel⟩,
    ⟨1, 1, prt (fun x => { x with allowance := -10000 }) (hq (hf 60 false 60)), hf 60 false 60, by decide +kernel⟩,
    ⟨1, 1, false, hq (hf 60 false 60), hf 60 false 60, by decide +kernel⟩,
    ⟨1, 1, true, hq (hf 60 false 60), hf 60 false 60, by decide +kernel⟩,
    ⟨hq (hf 60 false 60), by decide +kernel⟩,
    ⟨1, up 5, by decide +kernel⟩,
    ⟨1, pd 30 none 0, 30, [], by decide +kernel⟩,
    ⟨1, pd 30 (some 25) 1, 30, [], by decide +kernel⟩,
    ⟨1, pd (-30) (some 25) 1, -30, [], by decide +kernel⟩,
    ⟨1, pd (-30) (some 25) 2, -30, [], by decide +kernel⟩,
    ⟨.netm, put [(F.NET_TS_STATUS_SUSPECT, 1), (F.NET_TS_STATUS_SRC, 3)] (up 5), by unfold State.goes; decide +kernel⟩,
    ⟨1, zeros 64, lk (up 5), false, by decide +kernel⟩⟩

theorem witness_DamufServes :
    (∃ (c : Instr) (s : State), c ∈ damufRows ∧ (s.dmfQ = [] ∨ s.dmfUp = false)) ∧
    (∃ (c : Instr) (s : State) (p : Nat) (b : List Byte) (rest : List (Nat × List Byte)) (w : DmfFail), c ∈ damufRows
      ∧ s.dmfQ = (p, b) :: rest ∧ s.dmfUp = true ∧ s.dmfTest (udpPayload b) = some w ∧ s.firsts.contains w.counter.off = true) ∧
    (∃ (c : Instr) (s : State) (p : Nat) (b : List Byte) (rest : List (Nat × List Byte)) (w : DmfFail), c ∈ damufRows
      ∧ s.dmfQ = (p, b) :: rest ∧ s.dmfUp = true ∧ s.dmfTest (udpPayload b) = some w ∧ s.firsts.contains w.counter.off = false) ∧
    (∃ (c : Instr) (s : State) (p : Nat) (b : List Byte) (rest : List (Nat × List Byte)), c ∈ damufRows ∧ s.dmfQ = (p, b) :: rest
      ∧ s.dmfTest (udpPayload b) = none ∧ s.dmfWaits (udpPayload b) = true) ∧
    (∃ (s : State) (p : Nat) (b : List Byte) (rest : List (Nat × List Byte)) (op x : Nat), s.dmfHead p b rest
      ∧ op = dmfOp (udpPayload b) ∧ x = leAt (udpPayload b) 32 1 ∧ dmfMineRead op x = false ∧ op ≠ 2 ∧ op ≠ 3
      ∧ (∃ y ∈ damufUpdRows, (¬ (op = 4 ∧ x = y.2)))) ∧
    (∃ (s : State) (p : Nat) (b : List Byte) (rest : List (Nat × List Byte)) (off : Nat), s.dmfHead p b rest
      ∧ dmfOp (udpPayload b) = 1 ∧ (dmfBody (udpPayload b)).length = 8 ∧ leAt (dmfBody (udpPayload b)) 0 4 = off
      ∧ leAt (dmfBody (udpPayload b)) 4 2 = 1 ∧ off ∈ [R.PWR_SAVE_GEN, R.PWR_MON_LIMIT, R.CAL_BG_CTRL, R.SNT_CTRL]
      ∧ s.domOn (domainOf off) = true ∧ s.flagged off = false) ∧
    (∃ (s : State) (p : Nat) (b : List Byte) (rest : List (Nat × List Byte)) (u : List Byte), s.dmfHead p b rest ∧ u = udpPayload b
      ∧ dmfMineRead (dmfOp u) (leAt u 32 1) = true ∧ dmfOp u ≠ 1 ∧ dmfOp u ≠ 4) ∧
    (∃ (s : State) (p : Nat) (b : List Byte) (rest : List (Nat × List Byte)) (off : Nat) (v m : Word), s.dmfHead p b rest
      ∧ dmfOp (udpPayload b) = 2 ∧ (dmfBody (udpPayload b)).length = 12 ∧ leAt (dmfBody (udpPayload b)) 0 4 = off
      ∧ leAt (dmfBody (udpPayload b)) 4 2 = 1 ∧ v = lo32 (leAt (dmfBody (udpPayload b)) 8 4) ∧ off ∈ [R.TIME_QUALITY,
      R.AFE_RUN_CFG, R.CAL_BG_CTRL, R.STR_DRAIN, R.PWR_MON_LIMIT, R.SNT_CTRL] ∧ s.goes .netm off ∧ m = accMask .rw off
      ∧ limitsOk off v = true) ∧
    (∃ (s : State) (p : Nat) (b : List Byte) (rest : List (Nat × List Byte)) (off : Nat) (v m : Word), s.dmfHead p b rest
      ∧ dmfOp (udpPayload b) = 2 ∧ (dmfBody (udpPayload b)).length = 12 ∧ leAt (dmfBody (udpPayload b)) 0 4 = off
      ∧ leAt (dmfBody (udpPayload b)) 4 2 = 1 ∧ v = lo32 (leAt (dmfBody (udpPayload b)) 8 4) ∧ off ∈ [R.TIME_QUALITY,
      R.AFE_RUN_CFG, R.CAL_BG_CTRL, R.STR_DRAIN, R.PWR_MON_LIMIT, R.SNT_CTRL] ∧ s.goes .netm off ∧ m = accMask .rw off
      ∧ limitsOk off v = false) ∧
    (∃ (s : State) (p : Nat) (b : List Byte) (rest : List (Nat × List Byte)) (i c : Nat), s.dmfHead p b rest
      ∧ dmfOp (udpPayload b) = 3 ∧ (dmfBody (udpPayload b)).length = 4 ∧ leAt (dmfBody (udpPayload b)) 0 1 = i ∧ i < 64
      ∧ c = s.dmfChoose i (leAt (dmfBody (udpPayload b)) 1 1) ∧ c ≠ 0) ∧
    (∃ (s : State) (p : Nat) (b : List Byte) (rest : List (Nat × List Byte)) (i c : Nat), s.dmfHead p b rest
      ∧ dmfOp (udpPayload b) = 3 ∧ (dmfBody (udpPayload b)).length = 4 ∧ leAt (dmfBody (udpPayload b)) 0 1 = i ∧ i < 64
      ∧ c = s.dmfChoose i (leAt (dmfBody (udpPayload b)) 1 1) ∧ c = 0) ∧
    (∃ (s : State) (p : Nat) (b : List Byte) (rest : List (Nat × List Byte)) (body : List Byte), s.dmfHead p b rest
      ∧ dmfOp (udpPayload b) = 4 ∧ body = dmfBody (udpPayload b) ∧ 8 ≤ body.length ∧ body.length ≤ 8192
      ∧ ((leAt (udpPayload b) 32 1 = 1) ∧ (body.length = 8) ∧ (s.domOn (domainOf R.UPD_SESSION) = true))
      ∧ ((leAt (udpPayload b) 32 1 = 1) ∧ (body.length = 8) ∧ (s.domOn (domainOf R.UPD_SESSION) = true) ∧ (s.updOwner = 0))) ∧
    (∃ (s : State) (p : Nat) (b : List Byte) (rest : List (Nat × List Byte)) (body : List Byte), s.dmfHead p b rest
      ∧ dmfOp (udpPayload b) = 4 ∧ body = dmfBody (udpPayload b) ∧ 8 ≤ body.length ∧ body.length ≤ 8192
      ∧ ((leAt (udpPayload b) 32 1 = 1) ∧ (body.length = 8) ∧ (s.domOn (domainOf R.UPD_SESSION) = true) ∧ (s.updOwner ≠ 0))) ∧
    (∃ (s : State) (p : Nat) (b : List Byte) (rest : List (Nat × List Byte)) (body : List Byte), s.dmfHead p b rest
      ∧ dmfOp (udpPayload b) = 4 ∧ body = dmfBody (udpPayload b) ∧ 8 ≤ body.length ∧ body.length ≤ 8192
      ∧ ((leAt (udpPayload b) 32 1 = 2) ∧ (s.updOwner = 3)) ∧ ((leAt (udpPayload b) 32 1 = 2) ∧ (s.updOwner = 3)
      ∧ (leAt body 4 4 = s.getF F.UPD_OFFSET_NEXT) ∧ (s.updSt = 1) ∧ (s.upd.buf.length + body.length < 4104))) ∧
    (∃ (s : State) (p : Nat) (b : List Byte) (rest : List (Nat × List Byte)) (body : List Byte), s.dmfHead p b rest
      ∧ dmfOp (udpPayload b) = 4 ∧ body = dmfBody (udpPayload b) ∧ 8 ≤ body.length ∧ body.length ≤ 8192
      ∧ ((leAt (udpPayload b) 32 1 = 2) ∧ (s.updOwner = 3) ∧ (leAt body 4 4 ≠ s.getF F.UPD_OFFSET_NEXT))) ∧
    (∃ (s : State) (p : Nat) (b : List Byte) (rest : List (Nat × List Byte)) (body : List Byte), s.dmfHead p b rest
      ∧ dmfOp (udpPayload b) = 4 ∧ body = dmfBody (udpPayload b) ∧ 8 ≤ body.length ∧ body.length ≤ 8192
      ∧ ((leAt (udpPayload b) 32 1 = 3) ∧ (body.length = 8) ∧ (s.updOwner = 3)) ∧ ((leAt (udpPayload b) 32 1 = 3)
      ∧ (body.length = 8) ∧ (s.updOwner = 3) ∧ (s.updSt = 6) ∧ (s.partialImage = none))) ∧
    (∃ (s : State) (p : Nat) (b : List Byte) (rest : List (Nat × List Byte)) (body : List Byte), s.dmfHead p b rest
      ∧ dmfOp (udpPayload b) = 4 ∧ body = dmfBody (udpPayload b) ∧ 8 ≤ body.length ∧ body.length ≤ 8192
      ∧ ((leAt (udpPayload b) 32 1 = 5) ∧ (body.length = 8))) ∧
    (∃ (s : State) (p : Nat) (b : List Byte) (rest : List (Nat × List Byte)) (body : List Byte), s.dmfHead p b rest
      ∧ dmfOp (udpPayload b) = 4 ∧ body = dmfBody (udpPayload b) ∧ 8 ≤ body.length ∧ body.length ≤ 8192
      ∧ ((leAt (udpPayload b) 32 1 = 6) ∧ (body.length = 8) ∧ (s.updSt = 9))) ∧
    (∃ (s : State) (p : Nat) (b : List Byte) (rest : List (Nat × List Byte)) (body : List Byte), s.dmfHead p b rest
      ∧ dmfOp (udpPayload b) = 4 ∧ body = dmfBody (udpPayload b) ∧ 8 ≤ body.length ∧ body.length ≤ 8192
      ∧ ((leAt (udpPayload b) 32 1 = 7) ∧ (body.length = 8) ∧ (s.updSt = 9))) ∧
    (∃ (s : State) (p : Nat) (b : List Byte) (rest : List (Nat × List Byte)) (body : List Byte), s.dmfHead p b rest
      ∧ dmfOp (udpPayload b) = 4 ∧ body = dmfBody (udpPayload b) ∧ 8 ≤ body.length ∧ body.length ≤ 8192
      ∧ leAt (udpPayload b) 32 1 = 4 ∧ body.length = 8 ∧ s.updOwner = 3 ∧ 1 ≤ s.updSt ∧ s.updSt ≤ 6 ∧ s.updSt ≠ 6) ∧
    (∃ (s : State) (p : Nat) (b : List Byte) (rest : List (Nat × List Byte)) (body : List Byte), s.dmfHead p b rest
      ∧ dmfOp (udpPayload b) = 4 ∧ body = dmfBody (udpPayload b) ∧ 8 ≤ body.length ∧ body.length ≤ 8192
      ∧ leAt (udpPayload b) 32 1 = 8 ∧ body.length = 8 ∧ s.updOwner = 3 ∧ 1 ≤ s.updSt ∧ s.updSt ≤ 6 ∧ s.updSt ≠ 6) ∧
    (∃ (s : State) (p : Nat) (b : List Byte) (rest : List (Nat × List Byte)) (body : List Byte), s.dmfHead p b rest
      ∧ dmfOp (udpPayload b) = 4 ∧ body = dmfBody (udpPayload b) ∧ 8 ≤ body.length ∧ body.length ≤ 8192
      ∧ leAt (udpPayload b) 32 1 = 2 ∧ body.length = 8 ∧ s.updOwner ≠ 3) ∧
    (∃ (s : State) (p : Nat) (b : List Byte) (rest : List (Nat × List Byte)) (body : List Byte), s.dmfHead p b rest
      ∧ dmfOp (udpPayload b) = 4 ∧ body = dmfBody (udpPayload b) ∧ 8 ≤ body.length ∧ body.length ≤ 8192
      ∧ leAt (udpPayload b) 32 1 = 3 ∧ body.length = 8 ∧ s.updOwner ≠ 3) ∧
    (∃ (s : State) (p : Nat) (b : List Byte) (rest : List (Nat × List Byte)) (body : List Byte), s.dmfHead p b rest
      ∧ dmfOp (udpPayload b) = 4 ∧ body = dmfBody (udpPayload b) ∧ 8 ≤ body.length ∧ body.length ≤ 8192
      ∧ leAt (udpPayload b) 32 1 = 4 ∧ body.length = 8 ∧ s.updOwner ≠ 3) ∧
    (∃ (s : State) (p : Nat) (b : List Byte) (rest : List (Nat × List Byte)) (body : List Byte), s.dmfHead p b rest
      ∧ dmfOp (udpPayload b) = 4 ∧ body = dmfBody (udpPayload b) ∧ 8 ≤ body.length ∧ body.length ≤ 8192
      ∧ leAt (udpPayload b) 32 1 = 8 ∧ body.length = 8 ∧ s.updOwner ≠ 3) :=
  ⟨⟨.damufRead, up 5, by decide +kernel⟩,
    ⟨.damufOpen, { (dS (req 1 []) (up 5)).wr R.NET_DMF_KEY_CTRL 0#32 with firsts := [R.NET_DMF_AUTHFAIL] }, 1, dfr (req 1 []), [],
          .auth, by decide +kernel⟩,
    ⟨.damufRead, dS [] (up 5), 1, dfr [], [], .drop, by decide +kernel⟩,
    ⟨.damufRead, { dS (req 1 (leBytes 4 R.CAL_BG_CTRL ++ [1#8, 0#8, 0#8, 0#8])) (up 5) with pwr := { (up 5).pwr with held := [⟨.netm, R.CAL_BG_CTRL, 1#32, .write, false⟩] } },
          1, dfr (req 1 (leBytes 4 R.CAL_BG_CTRL ++ [1#8, 0#8, 0#8, 0#8])), [], by decide +kernel⟩,
    ⟨dS (req 4 [5#8]) (up 5), 1, dfr (req 4 [5#8]), [], 4, 5, by unfold State.dmfHead; decide +kernel⟩,
    ⟨dS (req 1 (leBytes 4 R.CAL_BG_CTRL ++ [1#8, 0#8, 0#8, 0#8])) (up 5), 1, dfr (req 1 (leBytes 4 R.CAL_BG_CTRL ++ [1#8, 0#8,
          0#8, 0#8])), [], R.CAL_BG_CTRL, by unfold State.dmfHead; decide +kernel⟩,
    ⟨dS (req 9 []) (up 5), 1, dfr (req 9 []), [], req 9 [], by unfold State.dmfHead; decide +kernel⟩,
    ⟨dS (req 2 (W R.TIME_QUALITY 3)) (up 5), 1, dfr (req 2 (W R.TIME_QUALITY 3)), [], R.TIME_QUALITY, 3#32,
          accMask .rw R.TIME_QUALITY, by unfold State.goes State.dmfHead; decide +kernel⟩,
    ⟨dS (req 2 (W R.CAL_BG_CTRL 0xFFFFFFFF)) (up 5), 1, dfr (req 2 (W R.CAL_BG_CTRL 0xFFFFFFFF)), [], R.CAL_BG_CTRL,
          0xFFFFFFFF#32, accMask .rw R.CAL_BG_CTRL, by unfold State.goes State.dmfHead; decide +kernel⟩,
    ⟨vers (dS (req 3 [3#8, 7#8, 0#8, 0#8]) (up 5)), 1, dfr (req 3 [3#8, 7#8, 0#8, 0#8]), [], 3, (vers (dS (req 3 [3#8, 7#8, 0#8,
          0#8]) (up 5))).dmfChoose 3 7, by unfold State.dmfHead; decide +kernel⟩,
    ⟨vers (dS (req 3 [3#8, 0#8, 0#8, 0#8]) (up 5)), 1, dfr (req 3 [3#8, 0#8, 0#8, 0#8]), [], 3, 0,
          by unfold State.dmfHead; decide +kernel⟩,
    ⟨dS (req 4 (updB 1 0)) (up 5), 1, dfr (req 4 (updB 1 0)), [], updB 1 0, by unfold State.dmfHead; decide +kernel⟩,
    ⟨own 1 2 (dS (req 4 (updB 1 0)) (up 5)), 1, dfr (req 4 (updB 1 0)), [], updB 1 0, by unfold State.dmfHead; decide +kernel⟩,
    ⟨own 3 1 (dS (req 4 (updB 2 0)) (up 5)), 1, dfr (req 4 (updB 2 0)), [], updB 2 0, by unfold State.dmfHead; decide +kernel⟩,
    ⟨own 3 1 (dS (req 4 (updB 2 9)) (up 5)), 1, dfr (req 4 (updB 2 9)), [], updB 2 9, by unfold State.dmfHead; decide +kernel⟩,
    ⟨own 3 6 (dS (req 4 (updB 3 0)) (up 5)), 1, dfr (req 4 (updB 3 0)), [], updB 3 0, by unfold State.dmfHead; decide +kernel⟩,
    ⟨own 2 6 (dS (req 4 (updB 5 0)) (up 5)), 1, dfr (req 4 (updB 5 0)), [], updB 5 0, by unfold State.dmfHead; decide +kernel⟩,
    ⟨own 2 9 (dS (req 4 (updB 6 0)) (up 5)), 1, dfr (req 4 (updB 6 0)), [], updB 6 0, by unfold State.dmfHead; decide +kernel⟩,
    ⟨own 2 9 (dS (req 4 (updB 7 0)) (up 5)), 1, dfr (req 4 (updB 7 0)), [], updB 7 0, by unfold State.dmfHead; decide +kernel⟩,
    witness_updEnd4,
    witness_updEnd8,
    witness_updOther2,
    witness_updOther3,
    witness_updOther4,
    witness_updOther8⟩

theorem witness_UpdateDelivery :
    (∃ (id : Ident) (s : State), onBus id = true ∧ s.readsNow id R.UPD_SESSION ∧ s.domOn (domainOf R.UPD_SESSION) = true
      ∧ s.updOwner = 0) ∧
    (∃ (id : Ident) (s : State), onBus id = true ∧ s.readsNow id R.UPD_SESSION ∧ s.domOn (domainOf R.UPD_SESSION) = true
      ∧ s.updOwner ≠ 0) ∧
    (∃ (id : Ident) (s : State), s.goes id R.UPD_SESSION ∧ s.updOwner ≠ id.num) ∧
    (∃ (id : Ident) (v : Word) (s : State), s.goes id R.UPD_SESSION ∧ ((s.updOwner = id.num) ∧ (getBits v 0 4 ≠ id.num))) ∧
    (∃ (id : Ident) (v : Word) (s : State), s.goes id R.UPD_SESSION ∧ ((s.updOwner = id.num) ∧ (getBits v 0 4 = id.num))) ∧
    (∃ (id : Ident) (s : State), s.goes id R.UPD_CTRL ∧ s.updOwner ≠ id.num) ∧
    (∃ (id : Ident) (s : State), s.goes id R.UPD_CTRL ∧ ((s.updOwner = id.num) ∧ (s.updLive = true))) ∧
    (∃ (id : Ident) (s : State), s.goes id R.UPD_CTRL ∧ ((s.updOwner = id.num) ∧ (s.updLive = false))) ∧
    (∃ (s : State), (s.updLive = false ∨ s.tick < s.upd.last + s.getF F.UPD_TIMEOUT_SEC * 500000000)) ∧
    (∃ (s : State), s.updLive = true ∧ s.upd.last + s.getF F.UPD_TIMEOUT_SEC * 500000000 ≤ s.tick) ∧
    (∃ (id : Ident) (c b : List Byte) (s : State), s.goes id R.UPD_CTRL ∧ b = c.take (s.getF F.UPD_SRC_LEN_LEN)
      ∧ s.updOwner ≠ id.num) ∧
    (∃ (id : Ident) (c b : List Byte) (s : State), s.goes id R.UPD_CTRL ∧ b = c.take (s.getF F.UPD_SRC_LEN_LEN)
      ∧ ((s.updOwner = id.num) ∧ ((id = .netm ∨ id = .dbg ∨ (s.updSt ≠ 1 ∧ s.updSt ≠ 6))))) ∧
    (∃ (id : Ident) (c b : List Byte) (bad : Option Nat) (s : State), s.goes id R.UPD_CTRL ∧ b = c.take (s.getF F.UPD_SRC_LEN_LEN)
      ∧ ((s.updOwner = id.num) ∧ ((id = .host0 ∨ id = .host1)) ∧ ((s.updSt = 1 ∨ s.updSt = 6))) ∧ ((s.updOwner = id.num)
      ∧ ((id = .host0 ∨ id = .host1)) ∧ ((s.updSt = 1 ∨ s.updSt = 6)) ∧ (bad = none) ∧ (b.length < 4096))) ∧
    (∃ (id : Ident) (c b : List Byte) (bad : Option Nat) (s : State), s.goes id R.UPD_CTRL ∧ b = c.take (s.getF F.UPD_SRC_LEN_LEN)
      ∧ ((bad).any (fun n => decide ((s.updOwner = id.num) ∧ ((id = .host0 ∨ id = .host1)) ∧ ((s.updSt = 1 ∨ s.updSt = 6))
      ∧ ((b.take n).length < 4096))) = true)) ∧
    (∃ (id : Ident) (v : Word) (b : List Byte) (s : State), s.goes id R.UPD_DATA ∧ b = s.upd.buf ++ leBytes 4 v.toNat ∧ id = .netm) ∧
    (∃ (id : Ident) (v : Word) (b : List Byte) (s : State), s.goes id R.UPD_DATA ∧ b = s.upd.buf ++ leBytes 4 v.toNat
      ∧ ((id ≠ .netm) ∧ ((s.updSt = 1 ∨ s.updSt = 6)) ∧ (b.length < 4096))) ∧
    (∃ (id : Ident) (v : Word) (b : List Byte) (s : State), s.goes id R.UPD_DATA ∧ b = s.upd.buf ++ leBytes 4 v.toNat
      ∧ ((s.updEnt).isSome = true ∧ ((id ≠ .netm) ∧ (s.updSt = 2 ∨ s.updSt = 3)))) ∧
    (∃ (s : State), (s.updEnt = none ∨ (s.updSt ≠ 2 ∧ s.updSt ≠ 3) ∨ s.laneSt 4 = 2 ∨ ∃ e, s.updEnt = some e
      ∧ s.upd.buf.length < e.len)) ∧
    (∃ (e : SecEnt) (s : State), s.updEnt = some e ∧ (s.updSt = 2 ∨ s.updSt = 3) ∧ e.len ≤ s.upd.buf.length ∧ s.laneSt 4 ≠ 2
      ∧ ((sha384 (s.upd.buf.take e.len) ≠ e.hash) ∧ (s.upd.resent = true))) ∧
    (∃ (again : Option (List Byte)) (e : SecEnt) (s : State), s.updEnt = some e ∧ (s.updSt = 2 ∨ s.updSt = 3)
      ∧ e.len ≤ s.upd.buf.length ∧ s.laneSt 4 ≠ 2 ∧ ((sha384 (s.upd.buf.take e.len) ≠ e.hash) ∧ (s.upd.resent = false)
      ∧ (s.upd.dma = true) ∧ (again = none))) ∧
    (∃ (again : Option (List Byte)) (e : SecEnt) (s : State), s.updEnt = some e ∧ (s.updSt = 2 ∨ s.updSt = 3)
      ∧ e.len ≤ s.upd.buf.length ∧ s.laneSt 4 ≠ 2 ∧ ((sha384 (s.upd.buf.take e.len) ≠ e.hash) ∧ (s.upd.resent = false)
      ∧ ((s.upd.dma = true → again ≠ none))) ∧ ((sha384 (s.upd.buf.take e.len) ≠ e.hash) ∧ (s.upd.resent = false)
      ∧ ((s.upd.dma = true → again ≠ none)) ∧ (s.upd.dma = false))) ∧
    (∃ (e : SecEnt) (s : State), s.updEnt = some e ∧ (s.updSt = 2 ∨ s.updSt = 3) ∧ e.len ≤ s.upd.buf.length ∧ s.laneSt 4 ≠ 2
      ∧ ((sha384 (s.upd.buf.take e.len) = e.hash) ∧ (secInflate (secOf e (s.upd.buf.take e.len)) = none))) ∧
    (∃ (e : SecEnt) (s : State), s.updEnt = some e ∧ (s.updSt = 2 ∨ s.updSt = 3) ∧ e.len ≤ s.upd.buf.length ∧ s.laneSt 4 ≠ 2
      ∧ ((sha384 (s.upd.buf.take e.len) = e.hash) ∧ ((secInflate (secOf e (s.upd.buf.take e.len))).isSome = true))) ∧
    (∃ (s : State), (s.upd.writes = [] ∨ s.runs actImgwrite 0 = false)) ∧
    (∃ (failures : Nat) (x : SlotSec) (rest : List SlotSec) (s : State), s.upd.writes = x :: rest ∧ s.runs actImgwrite 0 = true
      ∧ 2 ≤ failures) ∧
    (∃ (failures : Nat) (x : SlotSec) (rest : List SlotSec) (s : State), s.upd.writes = x :: rest ∧ s.runs actImgwrite 0 = true
      ∧ ((failures < 2)
      ∧ ((rest ≠ [] ∨ s.updSt ≠ 4 ∨ s.upd.secs.length + 1 ≠ (hdrEnts s.upd.hdr).length ∨ s.keptSecs (hdrEnts s.upd.hdr) = [])))) ∧
    (∃ (failures : Nat) (x : SlotSec) (rest : List SlotSec) (s : State), s.upd.writes = x :: rest ∧ s.runs actImgwrite 0 = true ∧ (let l := s.keptSecs (hdrEnts s.upd.hdr); ((failures < 2) ∧ (rest = []) ∧ (s.updSt = 4) ∧ (s.upd.secs.length + 1 = (hdrEnts s.upd.hdr).length) ∧ (l ≠ [])))) ∧
    (∃ (s : State),
      (s.updSt ≠ 4 ∨ s.upd.writes ≠ [] ∨ s.upd.secs.length ≠ (hdrEnts s.upd.hdr).length + (s.keptSecs (hdrEnts s.upd.hdr)).length)) ∧
    (∃ (s : State) (n : Nat), s.updSt = 4 ∧ s.upd.writes = [] ∧ s.upd.secs.length = (hdrEnts s.upd.hdr).length + n
      ∧ n = (s.keptSecs (hdrEnts s.upd.hdr)).length ∧ ¬ s.flashTakes n) ∧
    (∃ (s : State) (n : Nat), s.updSt = 4 ∧ s.upd.writes = [] ∧ s.upd.secs.length = (hdrEnts s.upd.hdr).length + n
      ∧ n = (s.keptSecs (hdrEnts s.upd.hdr)).length ∧ s.flashTakes n ∧ ((s.flashTakes n) ∧ ((∀ k, k < n
      → s.flash.plan.getD k 0 = 0)))) ∧
    (∃ (s : State), s.updSt ≠ 5) ∧
    (∃ (x : Slot) (s : State), s.updSt = 5 ∧ x = s.composed ∧ s.flash.slots.length = 2 ∧ s.jOther ∈ [1, 2]
      ∧ (s.imageCheck x.version x.named).2.2 = none) ∧
    (∃ (id : Ident) (c b : List Byte) (bad : Option Nat) (s : State), s.goes id R.UPD_CTRL ∧ b = c.take (s.getF F.UPD_SRC_LEN_LEN)
      ∧ s.updOwner = id.num ∧ (id = .host0 ∨ id = .host1) ∧ (s.updSt = 1 ∨ s.updSt = 6) ∧ bad = none ∧ 4096 ≤ b.length) ∧
    (∃ (id : Ident) (c b : List Byte) (n : Nat) (s : State), s.goes id R.UPD_CTRL ∧ b = c.take (s.getF F.UPD_SRC_LEN_LEN)
      ∧ s.updOwner = id.num ∧ (id = .host0 ∨ id = .host1) ∧ (s.updSt = 1 ∨ s.updSt = 6) ∧ 4096 ≤ (b.take n).length
      ∧ s.flashTakes 2) ∧
    (∃ (id : Ident) (v : Word) (b : List Byte) (s : State), s.goes id R.UPD_DATA ∧ b = s.upd.buf ++ leBytes 4 v.toNat ∧ id ≠ .netm
      ∧ (s.updSt = 1 ∨ s.updSt = 6) ∧ 4096 ≤ b.length) :=
  ⟨⟨.host0, up 5, by unfold State.readsNow; decide +kernel⟩,
    ⟨.host0, own 2 1 (up 5), by unfold State.readsNow; decide +kernel⟩,
    ⟨.host0, own 2 2 (up 5), by unfold State.goes; decide +kernel⟩,
    ⟨.host0, 2#32, own 1 2 (up 5), by unfold State.goes; decide +kernel⟩,
    ⟨.host0, 1#32, own 1 2 (up 5), by unfold State.goes; decide +kernel⟩,
    ⟨.host0, own 2 2 (up 5), by unfold State.goes; decide +kernel⟩,
    ⟨.host0, own 1 2 (up 5), by unfold State.goes; decide +kernel⟩,
    ⟨.host0, own 1 8 (up 5), by unfold State.goes; decide +kernel⟩,
    ⟨up 5, by decide +kernel⟩,
    ⟨own 1 2 (up 5000000000000), by decide +kernel⟩,
    ⟨.host0, zeros 4096, zeros 100, put [(F.UPD_SRC_LEN_LEN, 100)] (own 2 1 (up 5)), by unfold State.goes; decide +kernel⟩,
    ⟨.host0, zeros 4096, zeros 100, put [(F.UPD_SRC_LEN_LEN, 100)] (own 1 5 (up 5)), by unfold State.goes; decide +kernel⟩,
    ⟨.host0, zeros 4096, zeros 100, none, put [(F.UPD_SRC_LEN_LEN, 100)] (own 1 1 (up 5)), by unfold State.goes; decide +kernel⟩,
    ⟨.host0, zeros 4096, zeros 100, some 50, put [(F.UPD_SRC_LEN_LEN, 100)] (own 1 6 (up 5)),
          by unfold State.goes; decide +kernel⟩,
    ⟨.netm, 0x04030201#32, [1#8, 2#8, 3#8, 4#8], own 3 1 (up 5), by unfold State.goes; decide +kernel⟩,
    ⟨.host0, 0x04030201#32, [1#8, 2#8, 3#8, 4#8], own 1 1 (up 5), by unfold State.goes; decide +kernel⟩,
    ⟨.host0, 0x04030201#32, [1#8, 2#8, 3#8, 4#8], put [(F.UPD_OFFSET_NEXT,
          4096)] (ud (fun u => { u with hdr := hdr [ent 0 4096 4 4 (sha384 secB)] }) (own 1 2 (up 5))),
          by unfold State.goes; decide +kernel⟩,
    ⟨up 5, by decide +kernel⟩,
    ⟨hdrEnt (hdr [ent 0 4096 4 4 (zeros 48)]) 0, sc 3 true false [ent 0 4096 4 4 (zeros 48)] secB, by decide +kernel⟩,
    ⟨none, hdrEnt (hdr [ent 0 4096 4 4 (zeros 48)]) 0, sc 2 false true [ent 0 4096 4 4 (zeros 48)] secB, by decide +kernel⟩,
    ⟨none, hdrEnt (hdr [ent 0 4096 4 4 (zeros 48)]) 0, sc 2 false false [ent 0 4096 4 4 (zeros 48)] secB, by decide +kernel⟩,
    ⟨hdrEnt (hdr [ent 0 4096 4 5 (sha384 secB)]) 0, sc 2 false false [ent 0 4096 4 5 (sha384 secB)] secB, by decide +kernel⟩,
    ⟨hdrEnt (hdr [ent 0 4096 4 4 (sha384 secB)]) 0, sc 2 false false [ent 0 4096 4 4 (sha384 secB)] secB, by decide +kernel⟩,
    ⟨up 5, by decide +kernel⟩,
    ⟨2, xs, [xs], wr1 [xs, xs], by decide +kernel⟩,
    ⟨0, xs, [], wr1 [xs], by decide +kernel⟩,
    ⟨0, xs, [], kw xs, by decide +kernel⟩,
    ⟨up 5, by decide +kernel⟩,
    ⟨(let s := ud (fun u => { u with secs := [xs] }) (kp xs); { s with flash := { s.flash with plan := [2, 1] } }), 1, by unfold State.flashTakes; decide +kernel⟩,
    ⟨ud (fun u => { u with secs := [xs] }) (kp xs), 1, by unfold State.flashTakes; decide +kernel⟩,
    ⟨up 5, by decide +kernel⟩,
    ⟨(own 1 5 (jn 1 1 2 0 (up 5))).composed, own 1 5 (jn 1 1 2 0 (up 5)), by decide +kernel⟩,
    ⟨.host0, zeros 4096, zeros 4096, none, put [(F.UPD_SRC_LEN_LEN, 4096)] (own 1 1 (up 5)), (by unfold State.goes; decide +kernel), (by rw [show (put [(F.UPD_SRC_LEN_LEN, 4096)] (own 1 1 (up 5))).getF F.UPD_SRC_LEN_LEN = 4096 by decide +kernel]; exact (List.take_of_length_le (zlen 4096).le).symm), by decide +kernel, by decide +kernel, by decide +kernel, rfl, (zlen 4096).ge⟩,
    ⟨.host0, zeros 4096, zeros 4096, 4096, put [(F.UPD_SRC_LEN_LEN, 4096)] (own 1 1 (up 5)), (by unfold State.goes; decide +kernel), (by rw [show (put [(F.UPD_SRC_LEN_LEN, 4096)] (own 1 1 (up 5))).getF F.UPD_SRC_LEN_LEN = 4096 by decide +kernel]; exact (List.take_of_length_le (zlen 4096).le).symm), by decide +kernel, by decide +kernel, by decide +kernel, (by rw [List.take_of_length_le (zlen 4096).le]; exact (zlen 4096).ge), (by unfold State.flashTakes; decide +kernel)⟩,
    ⟨.host0, 0x04030201#32, zeros 4092 ++ leBytes 4 0x04030201, ud (fun u => { u with buf := zeros 4092 }) (own 1 1 (up 5)), (by unfold State.goes; decide +kernel), rfl, by decide, by decide +kernel, (by rw [List.length_append, show (leBytes 4 0x04030201).length = 4 by decide +kernel, zlen])⟩⟩

theorem witness_UpdateTrialAndSaves :
    (∃ (id : Ident) (s : State), s.goes id R.UPD_CTRL ∧ s.updOwner ≠ id.num) ∧
    (∃ (id : Ident) (s : State), s.goes id R.UPD_CTRL ∧ ((s.updOwner = id.num) ∧ (s.updSt ≠ 6))) ∧
    (∃ (id : Ident) (s : State), s.goes id R.UPD_CTRL ∧ ((s.updOwner = id.num) ∧ (s.updSt = 6) ∧ (s.partialImage = none))) ∧
    (∃ (id : Ident) (v : Word) (s : State), s.goes id R.UPD_CTRL ∧ ((keyed v = true) ∧ (s.updSt = 9))) ∧
    (∃ (id : Ident) (v : Word) (s : State), s.goes id R.UPD_CTRL ∧ ((keyed v = true) ∧ (s.updSt ≠ 9) ∧ (s.updSt ≠ 8)
      ∧ (s.trialPast = true))) ∧
    (∃ (id : Ident) (v : Word) (s : State), s.goes id R.UPD_CTRL ∧ (keyed v = false ∨ s.updSt = 8 ∨ (s.updSt ≠ 9
      ∧ s.trialPast = false))) ∧
    (∃ (id : Ident) (v : Word) (s : State), s.goes id R.UPD_CTRL ∧ ((keyed v = true) ∧ (s.updSt = 9))) ∧
    (∃ (id : Ident) (v : Word) (s : State), s.goes id R.UPD_CTRL ∧ ((keyed v = true) ∧ (s.updSt = 8))) ∧
    (∃ (id : Ident) (v : Word) (s : State), s.goes id R.UPD_CTRL ∧ ((keyed v = true) ∧ (s.updSt ≠ 9) ∧ (s.updSt ≠ 8)
      ∧ (s.trialPast = true))) ∧
    (∃ (id : Ident) (v : Word) (s : State), s.goes id R.UPD_CTRL ∧ (keyed v = false ∨ (s.updSt ≠ 9 ∧ s.updSt ≠ 8
      ∧ s.trialPast = false))) ∧
    (∃ (n : Nat) (l : List Nat) (s : State), n = s.upd.evals + 1
      ∧ l = (List.range (healthN s.health)).filter (fun i => s.criterion (healthCrit s.health i)) ∧ (¬ (s.updSt = 9
      ∧ s.upd.decided = false ∧ s.upd.from0 + n * 500000 ≤ s.tick ∧ n * 500000 ≤ s.windowTicks))) ∧
    (∃ (n : Nat) (l : List Nat) (s : State), n = s.upd.evals + 1
      ∧ l = (List.range (healthN s.health)).filter (fun i => s.criterion (healthCrit s.health i)) ∧ ((s.updSt = 9)
      ∧ (s.upd.decided = false) ∧ (s.upd.from0 + n * 500000 ≤ s.tick) ∧ (n * 500000 ≤ s.windowTicks))) ∧
    (∃ (s : State), (s.updSt ≠ 9 ∨ s.upd.decided = false)) ∧
    (∃ (s : State), s.updSt = 9 ∧ s.upd.decided = true ∧ ¬ s.flashTakes 1) ∧
    (∃ (s : State), s.updSt = 9 ∧ s.upd.decided = true ∧ s.flashTakes 1 ∧ ((s.flashTakes 1) ∧ (s.jNext < 2 ^ 32))) ∧
    (∃ (s : State), (¬ (s.updSt = 9 ∧ s.upd.decided = false ∧ s.upd.from0 + s.windowTicks ≤ s.tick
      ∧ s.windowTicks ≤ s.upd.evals * 500000))) ∧
    (∃ (s : State), s.updSt = 9 ∧ s.upd.decided = false ∧ s.upd.from0 + s.windowTicks ≤ s.tick
      ∧ s.windowTicks ≤ s.upd.evals * 500000) ∧
    (∃ (id : Ident) (s : State), s.goes id R.PWR_SAVE_CTRL) ∧
    (∃ (s : State), (s.saveTicks = 0 ∨ s.tick < s.pwr.saveFrom + s.saveTicks)) ∧
    (∃ (s : State), s.saveTicks ≠ 0 ∧ s.pwr.saveFrom + s.saveTicks ≤ s.tick) ∧
    (∃ (s : State), s.runs actSetsave 0 = false) ∧
    (∃ (failures : Nat) (x : SetHalf) (s : State), s.runs actSetsave 0 = true ∧ s.saveTag ≠ 1 ∧ s.pwr.snap = some x
      ∧ s.flash.sets.length = 2 ∧ s.pwr.snapTo < 2 ∧ 2 ≤ failures ∧ ((s.saveTag = 2) ∧ (s.updSt = 7) ∧ (2 ≤ failures))) ∧
    (∃ (failures : Nat) (x : SetHalf) (s : State), s.runs actSetsave 0 = true ∧ s.saveTag ≠ 1 ∧ s.pwr.snap = some x
      ∧ s.flash.sets.length = 2 ∧ s.pwr.snapTo < 2 ∧ failures < 2 ∧ ((s.saveTag = 2) ∧ (s.updSt = 7) ∧ (failures < 2)
      ∧ (s.flashTakes 1)) ∧ ((s.saveTag = 2) ∧ (s.updSt = 7) ∧ (failures < 2) ∧ (s.flashTakes 1) ∧ (s.jNext < 2 ^ 32))) ∧
    (∃ (failures : Nat) (x : SetHalf) (s : State), s.runs actSetsave 0 = true ∧ s.saveTag ≠ 1 ∧ s.pwr.snap = some x
      ∧ s.flash.sets.length = 2 ∧ s.pwr.snapTo < 2 ∧ ((s.saveTag = 2) ∧ (s.updSt = 7) ∧ (failures < 2) ∧ (¬ s.flashTakes 1))) :=
  ⟨⟨.host0, own 2 6 (jn 2 1 2 0 (up 5)), by unfold State.goes; decide +kernel⟩,
    ⟨.host0, own 1 5 (jn 1 1 2 0 (up 5)), by unfold State.goes; decide +kernel⟩,
    ⟨.host0, own 1 6 (jn 2 1 2 0 (up 5)), by unfold State.goes; decide +kernel⟩,
    ⟨.host0, 0x5A000000#32, own 5 9 (jn 3 1 2 0 (up 5)), by unfold State.goes; decide +kernel⟩,
    ⟨.host0, 0x5A000000#32, own 0 0 (jn 4 1 2 0 (up 5)), by unfold State.goes; decide +kernel⟩,
    ⟨.host0, 0x5A000000#32, own 0 0 (jn 4 1 2 255 (up 5)), by unfold State.goes; decide +kernel⟩,
    ⟨.host0, 0x5A000000#32, own 5 9 (jn 3 1 2 0 (up 5)), by unfold State.goes; decide +kernel⟩,
    ⟨.host0, 0x5A000000#32, own 5 8 (jn 3 1 2 0 (up 5)), by unfold State.goes; decide +kernel⟩,
    ⟨.host0, 0x5A000000#32, own 5 7 (jn 4 1 2 0 (up 5)), by unfold State.goes; decide +kernel⟩,
    ⟨.host0, 0x5B000000#32, own 5 7 (jn 4 1 2 0 (up 5)), by unfold State.goes; decide +kernel⟩,
    ⟨1, [1], hl h2 499999 id, by decide +kernel⟩,
    ⟨1, [1], hl h2 500000 id, by decide +kernel⟩,
    ⟨up 5, by decide +kernel⟩,
    ⟨(let s := hl h2 500000 (fun u => { u with decided := true }); { s with flash := { s.flash with plan := [2] } }), by unfold State.flashTakes; decide +kernel⟩,
    ⟨hl h2 500000 (fun u => { u with decided := true }), by unfold State.flashTakes; decide +kernel⟩,
    ⟨up 5, by decide +kernel⟩,
    ⟨hl h2 5000000000 (fun u => { u with evals := 10000 }), by decide +kernel⟩,
    ⟨.host0, up 5, by unfold State.goes; decide +kernel⟩,
    ⟨up 5, by decide +kernel⟩,
    ⟨put [(F.PWR_SAVE_CTRL_INTERVAL_MIN, 1)] (up 30000000000), by decide +kernel⟩,
    ⟨up 5, by decide +kernel⟩,
    ⟨2, shf, sv 2 7, by decide +kernel⟩,
    ⟨0, shf, sv 2 7, by unfold State.flashTakes; decide +kernel⟩,
    ⟨0, shf, (let s := sv 2 7; { s with flash := { s.flash with plan := [2] } }), by unfold State.flashTakes; decide +kernel⟩⟩

theorem witness_RingsAndSignals :
    (∃ (id : Ident) (f : Fin 2) (r : Fin 10) (v : Word) (s : State) (ci fill : Nat), s.goes id (R.HIF_RING_CTRL f r)
      ∧ s.ports.length = 4 ∧ s.host.fns.length = 2 ∧ (s.fn f).rings.length = 10 ∧ ci = s.getF (F.HIF_RING_CI_CI f r)
      ∧ fill = s.ringFill f r ∧ (getBits v 4 4 < 4 ∨ 12 < getBits v 4 4)) ∧
    (∃ (id : Ident) (f : Fin 2) (r : Fin 10) (v : Word) (es : List RingIn) (s : State) (ci fill : Nat),
      s.goes id (R.HIF_RING_CTRL f r) ∧ s.ports.length = 4 ∧ s.host.fns.length = 2 ∧ (s.fn f).rings.length = 10
      ∧ ci = s.getF (F.HIF_RING_CI_CI f r) ∧ fill = s.ringFill f r ∧ ((4 ≤ getBits v 4 4) ∧ (getBits v 4 4 ≤ 12))
      ∧ ((4 ≤ getBits v 4 4) ∧ (getBits v 4 4 ≤ 12) ∧ (s.bit (F.HIF_RING_CTRL_EN f r) = false) ∧ (r.val < 9)
      ∧ (fill ≤ 2 ^ getBits v 4 4)) ∧ ((4 ≤ getBits v 4 4) ∧ (getBits v 4 4 ≤ 12) ∧ (s.bit (F.HIF_RING_CTRL_EN f r) = false)
      ∧ (r.val < 9) ∧ (fill ≤ 2 ^ getBits v 4 4) ∧ (4 ≤ r.val)) ∧ (∃ k ∈ List.range (fill), ((es[k]?).isSome = true
      ∧ ((4 ≤ getBits v 4 4) ∧ (getBits v 4 4 ≤ 12) ∧ (s.bit (F.HIF_RING_CTRL_EN f r) = false) ∧ (r.val < 9)
      ∧ (fill ≤ 2 ^ getBits v 4 4) ∧ (4 ≤ r.val))))) ∧
    (∃ (id : Ident) (f : Fin 2) (r : Fin 10) (v : Word) (s : State) (ci fill : Nat), s.goes id (R.HIF_RING_CTRL f r)
      ∧ s.ports.length = 4 ∧ s.host.fns.length = 2 ∧ (s.fn f).rings.length = 10 ∧ ci = s.getF (F.HIF_RING_CI_CI f r)
      ∧ fill = s.ringFill f r ∧ ((4 ≤ getBits v 4 4) ∧ (getBits v 4 4 ≤ 12)
      ∧ ((s.bit (F.HIF_RING_CTRL_EN f r) = true ∨ r.val = 9)))) ∧
    (∃ (id : Ident) (f : Fin 2) (r : Fin 10) (v : Word) (s : State) (ci fill : Nat), s.goes id (R.HIF_RING_CTRL f r)
      ∧ s.ports.length = 4 ∧ s.host.fns.length = 2 ∧ (s.fn f).rings.length = 10 ∧ ci = s.getF (F.HIF_RING_CI_CI f r)
      ∧ fill = s.ringFill f r ∧ ((4 ≤ getBits v 4 4) ∧ (getBits v 4 4 ≤ 12) ∧ (s.bit (F.HIF_RING_CTRL_EN f r) = false)
      ∧ (r.val < 9) ∧ (2 ^ getBits v 4 4 < fill))) ∧
    (∃ (id : Ident) (f : Fin 2) (r : Fin 10) (v : Word) (s : State) (ci fill : Nat), s.goes id (R.HIF_RING_CTRL f r)
      ∧ s.ports.length = 4 ∧ s.host.fns.length = 2 ∧ (s.fn f).rings.length = 10 ∧ ci = s.getF (F.HIF_RING_CI_CI f r)
      ∧ fill = s.ringFill f r ∧ ((4 ≤ getBits v 4 4) ∧ (getBits v 4 4 ≤ 12) ∧ (s.bit (F.HIF_RING_CTRL_EN f r) = false)
      ∧ (r.val < 9) ∧ (fill ≤ 2 ^ getBits v 4 4) ∧ (r.val < 4))) ∧
    (∃ (id : Ident) (f : Fin 2) (r : Fin 10) (s : State), s.goes id (R.HIF_RING_CTRL f r) ∧ s.ports.length = 4
      ∧ s.host.fns.length = 2 ∧ (s.fn f).rings.length = 10 ∧ r.val < 4) ∧
    (∃ (id : Ident) (f : Fin 2) (r : Fin 9) (pi : Word) (s : State) (old new fill n : Nat), s.goes id (R.HIF_RING_PI f r)
      ∧ s.ports.length = 4 ∧ s.host.fns.length = 2 ∧ (s.fn f).rings.length = 10 ∧ old = s.getF (F.HIF_RING_PI_PI f r)
      ∧ new = getBits pi 0 16 ∧ n = (new + 65536 - old) % 65536 ∧ fill = (new + 65536 - s.getF (F.HIF_RING_CI_CI f r)) % 65536
      ∧ s.ringOn f r = false) ∧
    (∃ (id : Ident) (f : Fin 2) (r : Fin 9) (pi : Word) (s : State) (old new fill n : Nat), s.goes id (R.HIF_RING_PI f r)
      ∧ s.ports.length = 4 ∧ s.host.fns.length = 2 ∧ (s.fn f).rings.length = 10 ∧ old = s.getF (F.HIF_RING_PI_PI f r)
      ∧ new = getBits pi 0 16 ∧ n = (new + 65536 - old) % 65536 ∧ fill = (new + 65536 - s.getF (F.HIF_RING_CI_CI f r)) % 65536
      ∧ ((s.ringOn f r = true) ∧ (s.ringLen f r < fill))) ∧
    (∃ (id : Ident) (f : Fin 2) (r : Fin 9) (pi : Word) (es : List RingIn) (s : State) (old new fill n : Nat),
      s.goes id (R.HIF_RING_PI f r) ∧ s.ports.length = 4 ∧ s.host.fns.length = 2 ∧ (s.fn f).rings.length = 10
      ∧ old = s.getF (F.HIF_RING_PI_PI f r) ∧ new = getBits pi 0 16 ∧ n = (new + 65536 - old) % 65536
      ∧ fill = (new + 65536 - s.getF (F.HIF_RING_CI_CI f r)) % 65536 ∧ ((s.ringOn f r = true) ∧ (fill ≤ s.ringLen f r))
      ∧ ((s.ringOn f r = true) ∧ (fill ≤ s.ringLen f r) ∧ (4 ≤ r.val)) ∧ (∃ k ∈ List.range (n), ((es[k]?).isSome = true
      ∧ ((s.ringOn f r = true) ∧ (fill ≤ s.ringLen f r) ∧ (4 ≤ r.val))))) ∧
    (∃ (id : Ident) (f : Fin 2) (r : Fin 9) (pi : Word) (s : State) (old new fill n : Nat), s.goes id (R.HIF_RING_PI f r)
      ∧ s.ports.length = 4 ∧ s.host.fns.length = 2 ∧ (s.fn f).rings.length = 10 ∧ old = s.getF (F.HIF_RING_PI_PI f r)
      ∧ new = getBits pi 0 16 ∧ n = (new + 65536 - old) % 65536 ∧ fill = (new + 65536 - s.getF (F.HIF_RING_CI_CI f r)) % 65536
      ∧ ((s.ringOn f r = true) ∧ (fill ≤ s.ringLen f r) ∧ (r.val < 4))) ∧
    (∃ (id : Ident) (f : Fin 2) (s : State), s.goes id (R.HIF_RING_CI f 9)) ∧
    (∃ (f : Fin 2) (r : Fin 10) (s : State), ((s.ring f r).sigDue = false ∨ ∃ k, (s.ring f r).lastSig = some k
      ∧ s.tick < k + 500 * s.getF (F.HIF_RING_CTRL_MOD f r))) ∧
    (∃ (f : Fin 2) (r : Fin 10) (s : State) (v : Nat), (s.ring f r).sigDue = true ∧ (∀ k, (s.ring f r).lastSig = some k
      → k + 500 * s.getF (F.HIF_RING_CTRL_MOD f r) ≤ s.tick) ∧ v = s.getF (F.HIF_RING_CTRL_VEC f r) ∧ s.host.fns.length = 2
      ∧ (s.fn f).rings.length = 10 ∧ (s.fn f).msix.length = 64 ∧ (((s.vec f v).masked = false) ∧ (s.host.linkUp = true))) ∧
    (∃ (f : Fin 2) (r : Fin 10) (s : State) (v : Nat), (s.ring f r).sigDue = true ∧ (∀ k, (s.ring f r).lastSig = some k
      → k + 500 * s.getF (F.HIF_RING_CTRL_MOD f r) ≤ s.tick) ∧ v = s.getF (F.HIF_RING_CTRL_VEC f r) ∧ s.host.fns.length = 2
      ∧ (s.fn f).rings.length = 10 ∧ (s.fn f).msix.length = 64 ∧ ((s.vec f v).masked = true ∨ s.host.linkUp = false)) ∧
    (∃ (id : Ident) (f : Fin 2) (v : Fin 64) (s : State) (off : Nat), s.pwr.por = false ∧ off = 0xE8000 + 16 * v.val + 12
      ∧ s.host.fns.length = 2 ∧ (s.fn f).msix.length = 64 ∧ id ≠ fnIdent f) ∧
    (∃ (id : Ident) (f : Fin 2) (v : Fin 64) (s : State) (off : Nat), s.pwr.por = false ∧ off = 0xE8000 + 16 * v.val + 12
      ∧ s.host.fns.length = 2 ∧ (s.fn f).msix.length = 64 ∧ ((id = fnIdent f) ∧ (s.waits id off = true))) ∧
    (∃ (id : Ident) (f : Fin 2) (v : Fin 64) (s : State) (off : Nat), s.pwr.por = false ∧ off = 0xE8000 + 16 * v.val + 12
      ∧ s.host.fns.length = 2 ∧ (s.fn f).msix.length = 64 ∧ ((id = fnIdent f) ∧ (s.waits id off = false)) ∧ ((id = fnIdent f)
      ∧ (s.waits id off = false) ∧ ((s.vec f v).pend = true) ∧ (s.host.linkUp = true))) ∧
    (∃ (id : Ident) (f : Fin 2) (v : Fin 64) (s : State) (off : Nat), s.pwr.por = false ∧ off = 0xE8000 + 16 * v.val + 12
      ∧ s.host.fns.length = 2 ∧ (s.fn f).msix.length = 64 ∧ ((id = fnIdent f) ∧ (s.waits id off = false)
      ∧ ((s.vec f v).pend = false))) ∧
    (∃ (f : Fin 2) (s : State) (i : Nat), i = (fnIdent f).num ∧ s.host.fns.length = 2 ∧ (s.fn f).rings.length = 10
      ∧ s.ports.length = 4 ∧ s.host.fencePend.length = 9 ∧ s.mbx.inReset.length = 9 ∧ (∀ h ∈ s.pwr.behind,
      h.ident ≠ fnIdent f) ∧ (∃ n ∈ List.range (16), ((s.lockOwner n = i))) ∧ (∃ n ∈ List.range (16), ((s.lockOwner n ≠ i)))
      ∧ (∃ n ∈ List.range (24), ((s.chSt n = 1) ∧ (s.composer n = i)))) :=
  ⟨⟨.host1, 1, 8, 0x31#32, on 1 8 4 (pipi 1 8 17 0 (up 5)), 0, 17, by unfold State.goes; decide +kernel⟩,
    ⟨.host1, 1, 5, 0x41#32, [ri 1, ri 2], pipi 1 5 2 0 (up 5), 0, 2, by unfold State.goes; decide +kernel⟩,
    ⟨.host1, 1, 9, 0xC1#32, up 5, 0, 0, by unfold State.goes; decide +kernel⟩,
    ⟨.host1, 1, 8, 0x41#32, pipi 1 8 17 0 (up 5), 0, 17, by unfold State.goes; decide +kernel⟩,
    ⟨.host1, 1, 2, 0x41#32, pipi 1 2 1 65535 (up 5), 65535, 2, by unfold State.goes; decide +kernel⟩,
    ⟨.host1, 1, 2, { on 1 2 4 (put [(F.HIF_RING_STATUS_ERR 1 2, 1)] (up 5)) with ports := updAt (fun x => { x with hostQ := [hfi 0, hfi 1] }) (up 5).ports 2 },
          by unfold State.goes; decide +kernel⟩,
    ⟨.host1, 1, 8, 17#32, (pipi 1 8 1 0 (up 5)), 1, 17, 17, 16, by unfold State.goes; decide +kernel⟩,
    ⟨.host1, 1, 2, 17#32, on 1 2 4 (pipi 1 2 1 0 (up 5)), 1, 17, 17, 16, by unfold State.goes; decide +kernel⟩,
    ⟨.host1, 1, 5, 3#32, [ri 1, ri 2], on 1 5 4 (pipi 1 5 1 0 (up 5)), 1, 3, 3, 2, by unfold State.goes; decide +kernel⟩,
    ⟨.host1, 1, 2, 3#32, on 1 2 4 (pipi 1 2 1 0 (up 5)), 1, 3, 3, 2, by unfold State.goes; decide +kernel⟩,
    ⟨.host1, 1, up 5, by unfold State.goes; decide +kernel⟩,
    ⟨1, 3, up 5, by decide +kernel⟩,
    ⟨1, 3, sig 2 (some 4000) false false, 7, by decide +kernel⟩,
    ⟨1, 3, sig 2 none true false, 7, by decide +kernel⟩,
    ⟨.host0, 1, 7, sig 2 none true true, 0xE807C, by decide +kernel⟩,
    ⟨.host1, 1, 7, behind .host1 (sig 2 none true true), 0xE807C, by decide +kernel⟩,
    ⟨.host1, 1, 7, sig 2 none true true, 0xE807C, by decide +kernel⟩,
    ⟨.host1, 1, 7, sig 2 none true false, 0xE807C, by decide +kernel⟩,
    ⟨1, put [(F.MBX_LOCK_PEEK_OWNER 5, 2), (F.MBX_LOCK_PEEK_OWNER 6,
          1)] (mb 1 2 2 3 (on 1 8 4 (on 1 2 5 (behind .host1 (sig 2 none true true))))), 2, by decide +kernel⟩⟩

theorem witness_Mailboxes :
    (∃ (id : Ident) (n : Fin 24) (w : Fin 17) (v : Word) (s : State) (c : Instr) (off : Nat), (c,
      off) ∈ [(.mbxComposeWrite id n w v, mbxWordOff n w), (.mbxRing id n, R.MBX_DOORBELL n), (.mbxAbandon id n,
      R.MBX_DOORBELL n), (.mbxAck id n v, R.MBX_DOORBELL n)] ∧ s.canAccess id = false) ∧
    (∃ (id : Ident) (n : Fin 24) (w : Fin 17) (v : Word) (s : State) (c : Instr) (off : Nat), (c,
      off) ∈ [(.mbxComposeWrite id n w v, mbxWordOff n w), (.mbxRing id n, R.MBX_DOORBELL n), (.mbxAbandon id n,
      R.MBX_DOORBELL n), (.mbxAck id n v, R.MBX_DOORBELL n)] ∧ ((s.canAccess id = true) ∧ (s.waits id off = true))) ∧
    (∃ (id : Ident) (n : Fin 24) (w : Fin 17) (v : Word) (s : State) (c : Instr) (off : Nat), (c,
      off) ∈ [(.mbxComposeWrite id n w v, mbxWordOff n w), (.mbxRing id n, R.MBX_DOORBELL n), (.mbxAbandon id n,
      R.MBX_DOORBELL n), (.mbxAck id n v, R.MBX_DOORBELL n)] ∧ ((s.canAccess id = true) ∧ (s.waits id off = false)
      ∧ (s.isEnd n id.num = false))) ∧
    (∃ (id : Ident) (n : Fin 24) (w : Fin 17) (s : State), s.canAccess id = true ∧ s.waits id (mbxWordOff n w) = false
      ∧ s.isEnd n id.num = true ∧ (s.chSt n = 0 ∨ (s.chSt n = 1 ∧ s.composer n = id.num)) ∧ (((s.chSt n = 0 ∨ (s.chSt n = 1
      ∧ s.composer n = id.num))) ∧ (w.val < 16))) ∧
    (∃ (id : Ident) (n : Fin 24) (w : Fin 17) (s : State), s.canAccess id = true ∧ s.waits id (mbxWordOff n w) = false
      ∧ s.isEnd n id.num = true ∧ (((s.chSt n = 0 ∨ (s.chSt n = 1 ∧ s.composer n = id.num))) ∧ (w.val = 16))) ∧
    (∃ (id : Ident) (n : Fin 24) (w : Fin 17) (s : State), s.canAccess id = true ∧ s.waits id (mbxWordOff n w) = false
      ∧ s.isEnd n id.num = true ∧ (¬ (s.chSt n = 0 ∨ (s.chSt n = 1 ∧ s.composer n = id.num)))) ∧
    (∃ (id : Ident) (n : Fin 24) (s : State) (o : Nat), s.canAccess id = true ∧ s.waits id (R.MBX_DOORBELL n) = false
      ∧ s.isEnd n id.num = true ∧ o = s.otherEnd n id.num ∧ ((s.chSt n = 1) ∧ (s.composer n = id.num)) ∧ ((s.chSt n = 1)
      ∧ (s.composer n = id.num) ∧ (5 ≤ o) ∧ (o ≤ 8)) ∧ ((s.chSt n = 1) ∧ (s.composer n = id.num) ∧ (5 ≤ o) ∧ (o ≤ 8)
      ∧ (s.domOn (agentDom o) = false) ∧ (s.pwr.fellAt.getD (agentDom o) none ≠ some s.tick))) ∧
    (∃ (id : Ident) (n : Fin 24) (s : State) (o : Nat), s.canAccess id = true ∧ s.waits id (R.MBX_DOORBELL n) = false
      ∧ s.isEnd n id.num = true ∧ o = s.otherEnd n id.num ∧ ((s.chSt n = 1) ∧ (s.composer n = id.num) ∧ ((o = 3 ∨ o = 4)))) ∧
    (∃ (id : Ident) (n : Fin 24) (s : State) (o : Nat), s.canAccess id = true ∧ s.waits id (R.MBX_DOORBELL n) = false ∧ s.isEnd n id.num = true ∧ o = s.otherEnd n id.num ∧ (let x := (if s.endA n = o then s.getF (F.MBX_CH_CTRL_VEC_A n) else s.getF (F.MBX_CH_CTRL_VEC_B n)); ((s.chSt n = 1) ∧ (s.composer n = id.num) ∧ (o = 1 ∨ o = 2) ∧ (s.host.linkUp = true) ∧ ((s.vec (o - 1) x).masked = false)))) ∧
    (∃ (id : Ident) (n : Fin 24) (s : State) (o : Nat), s.canAccess id = true ∧ s.waits id (R.MBX_DOORBELL n) = false
      ∧ s.isEnd n id.num = true ∧ o = s.otherEnd n id.num ∧ ((s.chSt n = 1) ∧ (s.composer n = id.num) ∧ (5 ≤ o) ∧ (o ≤ 8)
      ∧ (s.domOn (agentDom o) = true) ∧ (s.mbx.inReset.getD o false = false))) ∧
    (∃ (id : Ident) (n : Fin 24) (s : State) (o : Nat), s.canAccess id = true ∧ s.waits id (R.MBX_DOORBELL n) = false
      ∧ s.isEnd n id.num = true ∧ o = s.otherEnd n id.num ∧ ((s.chSt n = 1) ∧ (s.composer n = id.num) ∧ (5 ≤ o) ∧ (o ≤ 8)
      ∧ (s.mbx.inReset.getD o false = true))) ∧
    (∃ (id : Ident) (n : Fin 24) (s : State) (o : Nat), s.canAccess id = true ∧ s.waits id (R.MBX_DOORBELL n) = false
      ∧ s.isEnd n id.num = true ∧ o = s.otherEnd n id.num ∧ (¬ (s.chSt n = 1 ∧ s.composer n = id.num))) ∧
    (∃ (id : Ident) (n : Fin 24) (s : State), s.canAccess id = true ∧ s.waits id (R.MBX_DOORBELL n) = false
      ∧ s.isEnd n id.num = true ∧ ((s.chSt n = 1) ∧ (s.composer n = id.num))) ∧
    (∃ (id : Ident) (n : Fin 24) (s : State), s.canAccess id = true ∧ s.waits id (R.MBX_DOORBELL n) = false
      ∧ s.isEnd n id.num = true ∧ (¬ (s.chSt n = 1 ∧ s.composer n = id.num))) ∧
    (∃ (id : Ident) (n : Fin 24) (s : State) (snd : Nat), s.canAccess id = true ∧ s.waits id (R.MBX_DOORBELL n) = false
      ∧ s.isEnd n id.num = true ∧ snd = s.composer n ∧ ((s.chSt n = 2) ∧ (snd ≠ id.num)) ∧ ((s.chSt n = 2) ∧ (snd ≠ id.num)
      ∧ (s.mbx.inReset.getD snd false = false) ∧ ((snd = 3 ∨ snd = 4)))) ∧
    (∃ (id : Ident) (n : Fin 24) (s : State) (snd : Nat), s.canAccess id = true ∧ s.waits id (R.MBX_DOORBELL n) = false
      ∧ s.isEnd n id.num = true ∧ snd = s.composer n ∧ ((s.chSt n = 2) ∧ (snd ≠ id.num)
      ∧ (s.mbx.inReset.getD snd false = true))) ∧
    (∃ (id : Ident) (n : Fin 24) (s : State) (snd : Nat), s.canAccess id = true ∧ s.waits id (R.MBX_DOORBELL n) = false
      ∧ s.isEnd n id.num = true ∧ snd = s.composer n ∧ (s.chSt n ≠ 2 ∨ snd = id.num)) ∧
    (∃ (id : Ident) (n : Fin 16) (s : State), s.canAccess id = true ∧ s.readWaits id (R.MBX_LOCK n) = false ∧ s.lockOwner n = 0) ∧
    (∃ (id : Ident) (n : Fin 16) (s : State), s.canAccess id = true ∧ s.readWaits id (R.MBX_LOCK n) = false ∧ s.lockOwner n ≠ 0) ∧
    (∃ (id : Ident) (n : Fin 16) (v : Word) (s : State), s.canAccess id = true ∧ s.waits id (R.MBX_LOCK n) = false
      ∧ ((s.lockOwner n = id.num) ∧ (getBits v 0 4 = id.num))) ∧
    (∃ (id : Ident) (n : Fin 16) (v : Word) (s : State), s.canAccess id = true ∧ s.waits id (R.MBX_LOCK n) = false
      ∧ (¬ (s.lockOwner n = id.num ∧ getBits v 0 4 = id.num))) ∧
    (∃ (id : Ident) (s : State), (s.mayLeave id = false ∨ s.mbx.inReset.getD id.num false = false)) ∧
    (∃ (id : Ident) (s : State), s.mayLeave id = true ∧ s.mbx.inReset.getD id.num false = true) ∧
    (∃ (s : State), (s.host.linkUp = true ∨ s.pwr.por = true)) ∧
    (∃ (s : State), s.host.linkUp = false ∧ s.pwr.por = false ∧ (∃ f ∈ List.range (2), (∃ v ∈ List.range (64),
      (((s.vec f v).pend = true) ∧ ((s.vec f v).masked = false))))) :=
  ⟨⟨.snta, 3, 5, 9#32, (mb 1 7 1 7 (up 5)).wr R.PWR_DOM_STATE 0#32, .mbxRing .snta 3, R.MBX_DOORBELL 3, by decide +kernel⟩,
    ⟨.host0, 3, 5, 9#32, behind .host0 (mb 1 1 1 3 (up 5)), .mbxComposeWrite .host0 3 5 9#32, mbxWordOff 3 5, by decide +kernel⟩,
    ⟨.host0, 3, 5, 9#32, mb 1 2 2 3 (up 5), .mbxAck .host0 3 9#32, R.MBX_DOORBELL 3, by decide +kernel⟩,
    ⟨.host0, 3, 5, mb 0 0 1 3 (up 5), by decide +kernel⟩,
    ⟨.host0, 3, 16, mb 1 1 1 3 (up 5), by decide +kernel⟩,
    ⟨.host0, 3, 16, mb 1 3 1 3 (up 5), by decide +kernel⟩,
    ⟨.host0, 3, (mb 1 1 1 7 (up 5)).wr R.PWR_DOM_STATE 0#32, 7, by decide +kernel⟩,
    ⟨.host0, 3, mb 1 1 1 3 (up 5), 3, by decide +kernel⟩,
    ⟨.host0, 3, put [(F.MBX_CH_CTRL_VEC_B 3, 7)] (mb 1 1 1 2 (sig 2 none false false)), 2, by decide +kernel⟩,
    ⟨.host0, 3, mb 1 1 1 8 (up 5), 8, by decide +kernel⟩,
    ⟨.host0, 3, (let s := mb 1 1 1 7 (up 5); { s with mbx := { s.mbx with inReset := updAt (fun _ => true) s.mbx.inReset 7 } }), 7, by decide +kernel⟩,
    ⟨.host0, 3, mb 2 1 1 3 (up 5), 3, by decide +kernel⟩,
    ⟨.host0, 3, mb 1 1 1 8 (up 5), by decide +kernel⟩,
    ⟨.host0, 3, mb 1 8 1 8 (up 5), by decide +kernel⟩,
    ⟨.host0, 3, mb 2 4 1 4 (up 5), 4, by decide +kernel⟩,
    ⟨.host0, 3, (let s := mb 2 4 1 4 (up 5); { s with mbx := { s.mbx with inReset := updAt (fun _ => true) s.mbx.inReset 4 } }), 4, by decide +kernel⟩,
    ⟨.host0, 3, mb 2 1 1 4 (up 5), 1, by decide +kernel⟩,
    ⟨.host0, 5, up 5, by decide +kernel⟩,
    ⟨.host0, 5, put [(F.MBX_LOCK_PEEK_OWNER 5, 2)] (up 5), by decide +kernel⟩,
    ⟨.host0, 5, 1#32, put [(F.MBX_LOCK_PEEK_OWNER 5, 1)] (up 5), by decide +kernel⟩,
    ⟨.host0, 5, 2#32, put [(F.MBX_LOCK_PEEK_OWNER 5, 2)] (up 5), by decide +kernel⟩,
    ⟨.host0, up 5, by decide +kernel⟩,
    ⟨.dbg, rst 4 (mb 2 1 1 4 (up 5)), by decide +kernel⟩,
    ⟨sig 2 none false false, by decide +kernel⟩,
    ⟨(let s := sig 2 none false true; { s with host := { s.host with linkUp := false } }), by decide +kernel⟩⟩

theorem witness_DebugPort :
    (∃ (s : State), s.mbx.inReset.length = 9 ∧ s.dbg.ir ≠ 0 ∧ (∃ n ∈ List.range (16), ((s.lockOwner n = 4)))) ∧
    (∃ (s : State), s.mbx.inReset.length = 9 ∧ s.dbg.ir = 0 ∧ (∃ p ∈ fnPins, (s.dbg.ir = 0))) ∧
    (∃ (s : State), s.dbg.ir ≠ 0) ∧
    (∃ (s : State), s.dbg.ir = 0 ∧ (∃ p ∈ fnPins, (s.dbg.ir = 0))) ∧
    (∃ (s : State), s.dbg.ir ≠ 0) ∧
    (∃ (s : State), s.dbg.ir = 0 ∧ (∃ p ∈ fnPins, (s.dbg.ir = 0))) ∧
    (∃ (s : State), s.dbg.ir ≠ 0) ∧
    (∃ (s : State), s.dbg.ir = 0 ∧ (∃ p ∈ fnPins, (s.dbg.ir = 0))) ∧
    (∃ (s : State), s.runSt = 0 ∧ s.dbg.ir ≠ 0) ∧
    (∃ (s : State), s.runSt ≠ 0) ∧
    (∃ (w off : Nat) (s : State), s.dbgLocked = false ∧ s.dbg.busy = false ∧ off = w / 2 ^ 32 % 2 ^ 27 ∧ w.testBit 59 = false
      ∧ off % 4 ≠ 0) ∧
    (∃ (w off : Nat) (s : State), s.dbgLocked = false ∧ s.dbg.busy = false ∧ off = w / 2 ^ 32 % 2 ^ 27 ∧ w.testBit 59 = false
      ∧ ((w.testBit 60 = false) ∧ (off ∈ [R.PWR_SAVE_GEN, R.PWR_MON_LIMIT, R.CAL_BG_CTRL, R.SNT_CTRL]))
      ∧ ((w.testBit 60 = false) ∧ (off ∈ [R.PWR_SAVE_GEN, R.PWR_MON_LIMIT, R.CAL_BG_CTRL, R.SNT_CTRL])
      ∧ (s.readWaits .dbg off = false) ∧ (s.domOn (domainOf off) = true) ∧ (s.flagged off = false)) ∧ ((w.testBit 60 = false)
      ∧ (off ∈ [R.PWR_SAVE_GEN, R.PWR_MON_LIMIT, R.CAL_BG_CTRL, R.SNT_CTRL]) ∧ (s.readWaits .dbg off = false)
      ∧ (s.domOn (domainOf off) = true) ∧ (s.flagged off = false) ∧ (s.dbg.ir ≠ 0))) ∧
    (∃ (w off : Nat) (s : State), s.dbgLocked = false ∧ s.dbg.busy = false ∧ off = w / 2 ^ 32 % 2 ^ 27 ∧ w.testBit 59 = false
      ∧ ((w.testBit 60 = false) ∧ (off ∈ [R.PWR_SAVE_GEN, R.PWR_MON_LIMIT, R.CAL_BG_CTRL, R.SNT_CTRL])
      ∧ (s.readWaits .dbg off = true))) ∧
    (∃ (w off : Nat) (s : State), s.dbgLocked = false ∧ s.dbg.busy = false ∧ off = w / 2 ^ 32 % 2 ^ 27 ∧ w.testBit 59 = false
      ∧ ((w.testBit 60 = true) ∧ (off ∈ [R.TIME_QUALITY, R.AFE_RUN_CFG, R.CAL_BG_CTRL, R.STR_DRAIN, R.PWR_MON_LIMIT,
      R.SNT_CTRL]) ∧ (s.goes .dbg off) ∧ (limitsOk off (lo32 w) = true))) ∧
    (∃ (s : State), s.dbg.ir ≠ 0) ∧
    (∃ (s : State), s.dbg.verify = []) ∧
    (∃ (ok : Bool) (rest : List Bool) (s : State), s.dbg.verify = ok :: rest ∧ 8 ≤ s.getF F.DBG_STATUS_UNLOCK_FAILS) ∧
    (∃ (ok : Bool) (rest : List Bool) (s : State), s.dbg.verify = ok :: rest ∧ ((s.getF F.DBG_STATUS_UNLOCK_FAILS < 8)
      ∧ (ok = true))) ∧
    (∃ (ok : Bool) (rest : List Bool) (s : State), s.dbg.verify = ok :: rest ∧ ((s.getF F.DBG_STATUS_UNLOCK_FAILS < 8)
      ∧ (ok = false))) ∧
    (∃ (id : Ident) (s : State), s.goes id R.DBG_CTRL ∧ s.dbgLocked = false ∧ s.getF F.DBG_CTRL_STEP_COUNT ≠ 0 ∧ s.dbgSt = 0
      ∧ s.halted = false ∧ s.dbgSt ≠ 2) ∧
    (∃ (id : Ident) (s : State), s.goes id R.DBG_CTRL ∧ s.dbgLocked = false ∧ s.getF F.DBG_CTRL_STEP_COUNT ≠ 0 ∧ s.dbgSt ≠ 0) ∧
    (∃ (id : Ident) (s : State), s.goes id R.DBG_CTRL ∧ s.dbgLocked = false ∧ s.getF F.DBG_CTRL_STEP_COUNT ≠ 0 ∧ s.halted = true
      ∧ s.dbgSt = 2) ∧
    (∃ (s : State), (¬ (s.dbgSt = 1 ∧ s.dbg.ready = true ∧ s.haltDue = true))) ∧
    (∃ (s : State), s.dbgSt = 1 ∧ s.dbg.ready = true ∧ s.haltDue = true) ∧
    (∃ (s : State), (s.dbgSt ≠ 3 ∨ s.dbg.steps ≠ 0)) ∧
    (∃ (s : State), s.dbgSt = 3 ∧ s.dbg.steps = 0) ∧
    (∃ (n : Fin 8) (s : State), takeHit n s.dbg.hits = none) ∧
    (∃ (n : Fin 8) (h : BpHit) (rest : List BpHit) (s : State), takeHit n s.dbg.hits = some (h, rest)
      ∧ s.bit (F.DBG_BP_CTRL_ACTION n) = false) ∧
    (∃ (n : Fin 8) (h : BpHit) (rest : List BpHit) (s : State), takeHit n s.dbg.hits = some (h, rest)
      ∧ ((s.bit (F.DBG_BP_CTRL_ACTION n) = true) ∧ (s.dbgSt = 0))) :=
  ⟨⟨put [(F.MBX_LOCK_PEEK_OWNER 5, 4), (F.DBG_STATUS_UNLOCKED, 1), (F.UPD_SESSION_OWNER, 4), (F.UPD_STATUS_STATE, 2)] (up 5),
          by decide +kernel⟩,
    ⟨ex0 (up 5), by decide +kernel⟩,
    ⟨up 5, by decide +kernel⟩,
    ⟨ex0 (up 5), by decide +kernel⟩,
    ⟨up 5, by decide +kernel⟩,
    ⟨ex0 (up 5), by decide +kernel⟩,
    ⟨up 5, by decide +kernel⟩,
    ⟨{ up 5 with dbg := { (up 5).dbg with ir := 0 } }, by decide +kernel⟩,
    ⟨up 5, by decide +kernel⟩,
    ⟨inRun 3 5, by decide +kernel⟩,
    ⟨2 ^ 32, 1, unl (up 5), by unfold State.dbgLocked; generalize Config.dbgLock = b; cases b <;> decide +kernel⟩,
    ⟨R.SNT_CTRL * 2 ^ 32, R.SNT_CTRL, unl (up 5),
          by unfold State.dbgLocked; generalize Config.dbgLock = b; cases b <;> decide +kernel⟩,
    ⟨R.SNT_CTRL * 2 ^ 32, R.SNT_CTRL, (let s := unl (up 5); { s with pwr := { s.pwr with held := [⟨.dbg, R.SNT_CTRL, 5#32, .write, false⟩] } }), by unfold State.dbgLocked; generalize Config.dbgLock = b; cases b <;> decide +kernel⟩,
    ⟨R.TIME_QUALITY * 2 ^ 32 + 2 ^ 60 + 3, R.TIME_QUALITY, unl (up 5),
          by unfold State.goes; unfold State.dbgLocked; generalize Config.dbgLock = b; cases b <;> decide +kernel⟩,
    ⟨up 5, by decide +kernel⟩,
    ⟨up 5, by decide +kernel⟩,
    ⟨true, [], vf [true] 8, by decide +kernel⟩,
    ⟨true, [false], vf [true, false] 0, by decide +kernel⟩,
    ⟨false, [false], vf [false, false] 7, by decide +kernel⟩,
    ⟨.dbg, unl (up 5), by unfold State.goes; unfold State.dbgLocked; generalize Config.dbgLock = b; cases b <;> decide +kernel⟩,
    ⟨.dbg, dst 1 (unl (inRun 3 77)),
          by unfold State.goes; unfold State.dbgLocked; generalize Config.dbgLock = b; cases b <;> decide +kernel⟩,
    ⟨.dbg, { dst 2 (unl (inRun 3 77)) with mnt := (acts actDbghalt 0 false []).mnt },
          by unfold State.goes; unfold State.dbgLocked; generalize Config.dbgLock = b; cases b <;> decide +kernel⟩,
    ⟨up 5, by decide +kernel⟩,
    ⟨rdy (up 5), by decide +kernel⟩,
    ⟨up 5, by decide +kernel⟩,
    ⟨dst 3 (up 5), by decide +kernel⟩,
    ⟨3, up 5, by decide +kernel⟩,
    ⟨3, ⟨3, 9, some 80⟩, [⟨2, 5, none⟩], hit 0 (inRun 3 77), by decide +kernel⟩,
    ⟨3, ⟨3, 9, some 80⟩, [⟨2, 5, none⟩], hit 1 (inRun 3 77), by decide +kernel⟩⟩

/-! ### One step of commands of the other families -/

/-- R32, R49: an edge in the middle of tick 100 is stamped 201 ns, SEC 0 and NS 201. -/
theorem test_tci_stamp : (after (.tciStamp 2 true 64) (put [(F.TIME_TCI_CTRL_EN 2, 1), (F.TIME_TCI_CTRL_EDGE 2, 1)] (up 100))).getF
    (F.TIME_TCI_NS_NS 2) = 201 := by decide +kernel
/-- GLB_PART reads 0x001D3256, the family and the part. -/
theorem test_read_part : (after (.snapshotRead .host0 R.GLB_PART .dw) (up 5)).obs = [.read 1 R.GLB_PART 0x001D3256#32] := by
  decide +kernel
/-- R338: a write at an address that is no multiple of 4 is rejected and counted. -/
theorem test_bad_request : (after (.registerWrite .host0 6 (.dw 1#32)) (up 5)).getF F.HIF_BAD_REQ_COUNT = 1 := by decide +kernel
/-- R343: a fence waits, with its token, for FENCE_DONE. -/
theorem test_fence : (after (.fence .host0 9#16) (up 5)).host.fencePend.getD 1 none = some 9 := by decide +kernel
/-- R89: a run is armed only with the PLL locked. -/
theorem test_arm_unlocked : (after (.runArm .host1) (up 5)).runSt = 0 := by decide +kernel
/-- R96, R98: the stop sample is the last one, and the state is IDLE after it. -/
theorem test_s_stop : (after .sStopReached { inRun 3 77 with run := { (inRun 3 77).run with stopAt := some 76 } }).runSt = 0 := by
  decide +kernel
/-- R85: the loss of lock stops a run and writes record 0x0901. -/
theorem test_unlock : (after .clkUnlock (locked (inRun 3 77))).recq = [⟨0, 0x0901, [], 1000⟩] := by decide +kernel
/-- R99: a pulse whose trailing edge came at tick 16 qualifies at tick 20 and is done with. -/
theorem test_sync_class : (after .syncInQualify
    { put [(F.AFE_SYNC_CLS_CTRL_EN 1, 1), (F.AFE_SYNC_CLS_MIN_MIN 1, 8), (F.AFE_SYNC_CLS_MAX_MAX 1, 8)] (up 20) with
      run := { RunState.reset with sync := some ⟨8, 0, 0, 0, true, false, some 16⟩ } }).run.sync = none := by decide +kernel
/-- R232: a read of an empty event queue returns 0. -/
theorem test_eq_empty : (after (.eqRead .host0 1) (up 5)).obs = [.read 1 (R.FLW_EQ_READ_LO 1) 0#32] := by decide +kernel
/-- R365: a free lock goes to the identity that reads it; HOST1 is 2. -/
theorem test_lock_taken : (after (.lockRead .host1 5) (up 5)).lockOwner 5 = 2 := by decide +kernel
/-- R373: a domain whose IDLE_STATE is ON stays ON. -/
theorem test_domain_idle : (after (.domainIdle 12) (up 5)).domState 12 = 2 := by decide +kernel
/-- R391: a free session goes to the identity that reads it. -/
theorem test_open : (after (.updSessionOpen .host0) (up 5)).updOwner = 1 := by decide +kernel
/-- R335: an access that ends past BAR2 is outside it. -/
theorem test_outside : runs (.hostWindowAccess .host0 134217727 none 2) (up 5) = false := by decide +kernel
/-- R223: the window stores a byte at its offset: 0x17FFFF is the last byte of partition 4 here. -/
theorem test_window_write : (after (.hostWindowAccess .host0 0x17FFFF (some [some 9#8]) 1) (cells (pt (up 5)))).mem.byte 0x17FFFF = 9#8 := by
  decide +kernel

/-- R389, R112: an entry of the journal written out byte by byte, its CRC-32 computed by hand; it governs. -/
theorem test_journal :
    ({ Flash.reset with journB := [[0x55#8, 0x50#8, 0x44#8, 0x4A#8, 9#8, 0#8, 0#8, 0#8, 3#8, 1#8, 2#8, 0xFF#8, 1#8, 0#8, 0#8,
      0#8, 2#8, 0#8, 0#8, 0#8] ++ zeros 40 ++ [0xFC#8, 0x4D#8, 0x08#8, 0xF2#8]] } : Flash).journal =
    some ⟨9, 3, 1, 2, 0xFF, 1, 2⟩ := by decide +kernel
/-- R380: the header of a provisional settings half of generation 7 over the record 01 02 03 04. -/
theorem test_half :
    let x : SetHalf := ⟨[0x53#8, 0x45#8, 0x54#8, 0x53#8, 7#8, 0#8, 0#8, 0#8, 2#8, 0#8, 0#8, 0#8, 1#8, 0#8, 0#8, 0#8, 4#8, 0#8, 0#8,
      0#8, 1#8] ++ zeros 35 ++ [0xCD#8, 0xFB#8, 0x3C#8, 0xB6#8, 0x65#8, 0xF0#8, 0x30#8, 0xD9#8], secB, []⟩
    x.ok = true ∧ x.recOk = true ∧ x.gen = 7 ∧ x.schema = 2 ∧ x.prov = true := by decide +kernel
/-- R387: a slot map of image version 5 that puts TYPE 2 under header position 2. -/
theorem test_slot_map :
    let x : Slot := ⟨[0x53#8, 0x4C#8, 0x4F#8, 0x54#8, 5#8, 0#8, 0#8, 0#8, 1#8, 1#8, 2#8, 1#8, 1#8, 1#8, 1#8, 1#8] ++ zeros 44 ++
      [0xB9#8, 0xA7#8, 0x91#8, 0x5D#8], [], []⟩
    x.mapOk = true ∧ x.version = 5 ∧ x.pos 2 = 2 := by decide +kernel

end Sys2Proof.Tests
end

section
/-!
SUPPORT. Time steps (R36, R37, R48): the time base as a due step leaves it, the frame of the re-evaluation of compare units, and
STEP_COMMIT and STEP_APPLIED on the whole state.
-/

namespace Sys2Proof.Machine

/-! ### The time base as a step leaves it -/

section TimeStep

variable {t : TimeState} {z : Int} {k : Nat}

/-- No rebase that is due goes before a step committed at tick `k`: either none is pending, or the step goes first (R37). -/
theorem TimeState.incrPend_none_or_stepFirst (hp : t.stepPend = some (z, k)) (hk : k < t.frc.toNat)
    (hf : ∀ v i, t.incrPend = some (v, i) → i < t.frc.toNat → k < i) : t.incrPend = none ∨ t.stepFirst = true := by
  cases hi : t.incrPend with
  | none => exact .inl rfl
  | some p =>
    obtain ⟨v, i⟩ := p
    have hki : k < i := (lt_or_ge i t.frc.toNat).elim (hf v i hi) (lt_of_lt_of_le hk)
    exact .inr (by simp [TimeState.stepFirst, hi, hp, hki])

theorem TimeState.stepFirst_of_incrPend_none (hn : t.incrPend = none) : t.stepFirst = false := by
  simp [TimeState.stepFirst, hn]

theorem TimeState.takeIncr_of_incrPend_none (hn : t.incrPend = none) : t.takeIncr = t := by
  simp [TimeState.takeIncr, hn]

theorem TimeState.takeIncr_stepPend (t : TimeState) : t.takeIncr.stepPend = t.stepPend := by
  unfold TimeState.takeIncr TimeState.baseAt
  split
  · split <;> rfl
  · rfl

/-- With no step pending, only a rebase can be due. -/
theorem TimeState.due_of_stepPend_none (hn : t.stepPend = none) : t.due = t.takeIncr := by
  have h1 : t.stepFirst = false := by cases hi : t.incrPend <;> simp [TimeState.stepFirst, hi, hn]
  have h2 : t.takeIncr.stepPend = none := t.takeIncr_stepPend.trans hn
  simp [TimeState.due, h1, TimeState.takeStep, h2]

/-- A step that would take T below zero is dropped. -/
theorem TimeState.takeStep_refused (hp : t.stepPend = some (z, k)) (hk : k < t.frc.toNat) (hz : t.stepTo z k < 0) :
    t.takeStep = { t with stepPend := none } := by
  simp [TimeState.takeStep, hp, TimeState.isDue, hk, hz]

/-- Any other step moves the base to its tick, where T reads the stepped time. -/
theorem TimeState.takeStep_accepted (hp : t.stepPend = some (z, k)) (hk : k < t.frc.toNat) (hz : 0 ≤ t.stepTo z k) :
    t.takeStep = { t.baseAt k (t.stepTo z k).toNat with stepPend := none } := by
  simp [TimeState.takeStep, hp, TimeState.isDue, hk, not_lt.mpr hz]

/-- Refused or accepted, a step that is due is pending no more, and moves neither FRC nor INCR nor a pending INCR. -/
theorem TimeState.takeStep_frame (hp : t.stepPend = some (z, k)) (hk : k < t.frc.toNat) :
    t.takeStep.stepPend = none ∧ t.takeStep.frc = t.frc ∧ t.takeStep.incr = t.incr ∧ t.takeStep.incrPend = t.incrPend := by
  rcases lt_or_ge (t.stepTo z k) 0 with hz | hz
  · rw [t.takeStep_refused hp hk hz]; exact ⟨rfl, rfl, rfl, rfl⟩
  · rw [t.takeStep_accepted hp hk hz]; exact ⟨rfl, rfl, rfl, rfl⟩

/-- T reads the given time at the tick to which the base moved. -/
theorem TimeState.baseAt_at (t : TimeState) (k v : Nat) : (t.baseAt k v).at (BitVec.ofNat 64 (k + 1)) = v := by
  simp [TimeState.baseAt, TimeState.at]

/-- A step that goes first is judged by the time base as it stands. -/
theorem TimeState.stepSeen_eq (hp : t.stepPend = some (z, k)) (hk : k < t.frc.toNat)
    (ho : t.incrPend = none ∨ t.stepFirst = true) : t.stepSeen = decide (0 ≤ t.stepTo z k) := by
  rcases ho with hn | hs
  · simp [TimeState.stepSeen, hp, TimeState.isDue, hk, TimeState.takeIncr_of_incrPend_none hn]
  · simp [TimeState.stepSeen, hp, TimeState.isDue, hk, hs]

/-- Taking a step that goes first leaves what evaluations of the tick see as it was (R37). -/
theorem TimeState.due_takeStep (hp : t.stepPend = some (z, k)) (hk : k < t.frc.toNat)
    (ho : t.incrPend = none ∨ t.stepFirst = true) : t.takeStep.due = t.due := by
  obtain ⟨hnone, -, -, hincr⟩ := t.takeStep_frame hp hk
  rw [TimeState.due_of_stepPend_none hnone]
  rcases ho with hn | hs
  · rw [TimeState.takeIncr_of_incrPend_none (hincr.trans hn), TimeState.due, TimeState.stepFirst_of_incrPend_none hn,
      TimeState.takeIncr_of_incrPend_none hn]
    rfl
  · rw [TimeState.due, hs]; rfl

theorem TimeState.stepSeen_of_stepPend_none (hn : t.stepPend = none) : t.stepSeen = false := by
  simp [TimeState.stepSeen, hn]

end TimeStep

/-! ### What the re-evaluation of compare units may move (R48) -/

/-- Where the register file is the same, every register reads as before. -/
theorem Keeps.regsKept {l : List Field} {s t : State} (h : Keeps l s t) (hl : Field.regs ∉ l) (m : List Nat) : RegsKept m s t :=
  fun off _ => congrArg (SMap.get 0#32 · off) (h .regs hl)

/-- The registers that show the state of the 16 compare units and the boundaries they passed over. -/
def tcuStepRegs : List Nat := (List.range 16).flatMap (fun n => [R.TIME_TCU_CTRL n, R.TIME_TCU_SKIP n])

theorem tcuCtrl_mem_tcuStepRegs {n : Nat} (hn : n < 16) : R.TIME_TCU_CTRL n ∈ tcuStepRegs :=
  List.mem_flatMap.mpr ⟨n, List.mem_range.mpr hn, by simp⟩

theorem tcuSkip_mem_tcuStepRegs {n : Nat} (hn : n < 16) : R.TIME_TCU_SKIP n ∈ tcuStepRegs :=
  List.mem_flatMap.mpr ⟨n, List.mem_range.mpr hn, by simp⟩

theorem status_notMem_tcuStepRegs : R.TIME_STATUS ∉ tcuStepRegs := by decide

theorem epoch_notMem_tcuStepRegs : R.TIME_EPOCH ∉ tcuStepRegs := by decide

/-- `t` differs from `s` in compare units and in the registers of `tcuStepRegs` alone. -/
structure TcuFrame (s t : State) : Prop where
  keeps : Keeps [.regs, .time] s t
  regs  : RegsKept tcuStepRegs s t
  time  : t.time = { s.time with tcus := t.time.tcus }

theorem TcuFrame.refl (s : State) : TcuFrame s s := ⟨Keeps.refl _ s, RegsKept.refl _ s, rfl⟩

section

variable {s t u : State}

theorem TcuFrame.trans (h : TcuFrame s t) (k : TcuFrame t u) : TcuFrame s u :=
  ⟨h.keeps.trans k.keeps, h.regs.trans k.regs, by rw [k.time, h.time]⟩

theorem TcuFrame.updTcu (h : TcuFrame s t) (n : Nat) (f : Tcu → Tcu) : TcuFrame s (t.updTcu n f) :=
  ⟨h.keeps.updTcu n f (by simp), h.regs.updTcu n f, by rw [State.updTcu, h.time]⟩

theorem TcuFrame.setF (h : TcuFrame s t) (f : Fld) (v : Nat) (hf : f.off ∈ tcuStepRegs) : TcuFrame s (t.setF f v) :=
  ⟨h.keeps.setF f v (by simp), h.regs.setF f v hf, h.time⟩

theorem TcuFrame.bumpBy (h : TcuFrame s t) (f : Fld) (v : Nat) (hf : f.off ∈ tcuStepRegs) : TcuFrame s (t.bumpBy f v) :=
  h.setF f _ hf

theorem TcuFrame.tcuState {n : Nat} (h : TcuFrame s t) (st : Nat) (hn : n < 16) : TcuFrame s (t.tcuState n st) :=
  (h.setF (F.TIME_TCU_CTRL_STATE n) st (tcuCtrl_mem_tcuStepRegs hn)).setF (F.TIME_TCU_CTRL_ARM n) _
    (tcuCtrl_mem_tcuStepRegs hn)

theorem TcuFrame.ite {c : Prop} [Decidable c] (h : TcuFrame s t) (k : TcuFrame s u) : TcuFrame s (if c then t else u) := by
  split
  · exact h
  · exact k

theorem TcuFrame.foldl {α : Type} (g : State → α → State) (l : List α) (h : TcuFrame s t)
    (hg : ∀ u a, a ∈ l → TcuFrame u (g u a)) : TcuFrame s (l.foldl g t) := by
  induction l generalizing t with
  | nil => exact h
  | cons a l ih => exact ih (h.trans (hg t a (by simp))) (fun u b hb => hg u b (by simp [hb]))

end

/-- The re-evaluation of one unit, branch by branch: a periodic unit takes its next boundary, counts what it passes over and may
return to QUALIFY; a qualified one-shot returns to QUALIFY; any other keeps its short target. -/
theorem State.tcuStep_frame (s : State) (n src was : Nat) (hn : n < 16) : TcuFrame s (s.tcuStep n src was) := by
  have hself := TcuFrame.refl s
  have hperiodic (f : Tcu → Tcu) (v : Nat) : TcuFrame s ((s.updTcu n f).bumpBy (F.TIME_TCU_SKIP_SKIP n) v) :=
    (hself.updTcu n f).bumpBy _ v (tcuSkip_mem_tcuStepRegs hn)
  have honeShot (f : Tcu → Tcu) (b : Bool) : TcuFrame s (if b then s.tcuState n 1 else s.updTcu n f) :=
    (hself.tcuState 1 hn).ite (hself.updTcu n f)
  unfold State.tcuStep
  split
  · exact hself
  · exact .ite (.ite (.ite ((hperiodic _ _).tcuState 1 hn) (hperiodic _ _)) (.ite hself (honeShot _ _))) hself

theorem State.tcusStep_frame (s : State) (src was : Nat) : TcuFrame s (s.tcusStep src was) :=
  (TcuFrame.refl s).foldl _ _ (fun u n hn => u.tcuStep_frame n src was (List.mem_range.mp hn))

/-! ### STEP_COMMIT -/

/-- A commit that finds a step pending sets STEP_BUSY. -/
theorem State.stepCommit_busy {s : State} (hi : Word) (hp : s.time.stepPend.isSome = true) :
    s.stepCommit hi = s.setF F.TIME_STATUS_STEP_BUSY 1 := by
  rw [State.stepCommit, if_pos hp]

/-- Any other commit makes its step pending. -/
theorem State.stepCommit_accepted {s : State} (hi : Word) (hp : s.time.stepPend = none) :
    s.stepCommit hi =
      ({ s with time := { s.time with
        stepPend := some (toSigned 64 (join64 (s.rd R.TIME_STEP_LO) hi), s.tick) } }).setF F.TIME_STATUS_STEP_PENDING 1 := by
  rw [State.stepCommit, if_neg (by simp [hp])]

theorem State.stepCommit_keeps (s : State) (hi : Word) : Keeps [.regs, .time] s (s.stepCommit hi) := by
  cases hp : s.time.stepPend with
  | some p => rw [s.stepCommit_busy hi (by simp [hp])]; exact (Keeps.refl _ s).setF _ _ (by simp)
  | none => rw [s.stepCommit_accepted hi hp]; exact ((Keeps.refl _ s).time _ (by simp)).setF _ _ (by simp)

theorem State.stepCommit_regsKept (s : State) (hi : Word) : RegsKept [R.TIME_STATUS] s (s.stepCommit hi) := by
  cases hp : s.time.stepPend with
  | some p => rw [s.stepCommit_busy hi (by simp [hp])]; exact (RegsKept.refl _ s).setF _ _ (by decide)
  | none => rw [s.stepCommit_accepted hi hp]; exact ((RegsKept.refl _ s).time _).setF _ _ (by decide)

/-- A write of TIME_STEP_HI that passes the access path commits the step. -/
theorem exec_stepCommit_goes {s : State} {id : Ident} (hi : Word) (hg : s.goes id R.TIME_STEP_HI) :
    exec (.stepCommit id hi) s = .next ((s.stepCommit hi).bpReg id R.TIME_STEP_HI true) := by
  show Host.Outcome.next (s.gated id R.TIME_STEP_HI hi (·.stepCommit hi)) = _
  rw [s.gated_goes_other id _ hi _ hg (by decide)]

/-! ### STEP_APPLIED -/

/-- The time base takes the step that is due, which is pending no more. -/
def State.stepTakes (s : State) : State :=
  ({ s with time := s.time.takeStep }).setF F.TIME_STATUS_STEP_PENDING 0

/-- The instants of the run and of a SYNC_IN pulse move with T (R51, R192). -/
def State.runMoves (s : State) (d : Int) : State :=
  let s := if s.inRun || s.run.running then
    { s with run := { s.run with tStart := s.run.tStart + d, edgeT := s.run.edgeT + d } } else s
  { s with run := { s.run with sync := s.run.sync.map (fun (p : SyncPulse) => { p with moved := p.moved + d }) } }

theorem State.runMoves_keeps (s : State) (d : Int) : Keeps [.run] s (s.runMoves d) := by
  unfold State.runMoves
  dsimp only
  split
  · exact ((Keeps.refl _ s).run _ (by simp)).run _ (by simp)
  · exact (Keeps.refl _ s).run _ (by simp)

theorem State.actTakes_keeps (s : State) (a u : Nat) : Keeps [.mnt] s (s.actTakes a u) := by
  unfold State.actTakes
  split
  · exact Keeps.refl _ s
  · exact (Keeps.refl _ s).mnt _ (by simp)

section StepApplied

variable {s : State} {z : Int} {k : Nat}

/-- STEP_APPLIED goes ahead for a due step that no due rebase goes before, and its effect follows whether the step is accepted. -/
theorem State.stepApplied_eq (hp : s.time.stepPend = some (z, k)) (hk : k < s.time.frc.toNat)
    (ho : s.time.incrPend = none ∨ s.time.stepFirst = true) :
    s.stepApplied =
      if s.time.stepSeen = true then
        (((s.stepTakes.bump F.TIME_EPOCH_EPOCH).actTakes actTimestep 0).runMoves (z * (nsU : Nat))).tcusStep 0
          (s.time.at s.time.frc + 15 * s.time.incr)
      else s.stepTakes.setF F.TIME_STATUS_STEP_ERR 1 := by
  have hdue : s.stepDue = true := by simp [State.stepDue, hp, TimeState.isDue, hk]
  unfold State.stepApplied
  rw [hp]
  rcases ho with hn | hs
  · cases hok : s.time.stepSeen <;> simp [hdue, hn, State.stepTakes, State.runMoves]
  · cases hok : s.time.stepSeen <;> simp [hdue, hs, State.stepTakes, State.runMoves]

theorem State.stepTakes_keeps (s : State) : Keeps [.regs, .time] s s.stepTakes :=
  ((Keeps.refl _ s).time _ (by simp)).setF _ _ (by simp)

theorem State.stepTakes_pending (s : State) : s.stepTakes.bit F.TIME_STATUS_STEP_PENDING = false :=
  bit_setF_zero _ _ (by decide)

theorem State.stepTakes_epoch (s : State) : s.stepTakes.getF F.TIME_EPOCH_EPOCH = s.getF F.TIME_EPOCH_EPOCH :=
  getF_setF_other _ _ _ _ (by decide) (by decide)

/-- What STEP_APPLIED does with a step that goes ahead: the time base takes it, TIME_EPOCH reads what the tick's evaluations
already saw, and a refused step is flagged. -/
structure StepTaken (s t : State) : Prop where
  keeps   : Keeps [.regs, .time, .run, .mnt] s t
  time    : t.time = { s.time.takeStep with tcus := t.time.tcus }
  pending : t.bit F.TIME_STATUS_STEP_PENDING = false
  epoch   : t.getF F.TIME_EPOCH_EPOCH = s.epoch
  refused : s.time.stepSeen = false → t.bit F.TIME_STATUS_STEP_ERR = true

theorem State.stepTaken_of_refused (hno : s.time.stepSeen = false) :
    StepTaken s (s.stepTakes.setF F.TIME_STATUS_STEP_ERR 1) where
  keeps := (s.stepTakes_keeps.setF _ _ (by simp)).mono (by decide)
  time := rfl
  pending := (bit_setF_other _ _ _ _ (by decide) (by decide)).trans s.stepTakes_pending
  epoch := by
    rw [getF_setF_other _ _ _ _ (by decide) (by decide), s.stepTakes_epoch, State.epoch, hno]
    exact (Nat.mod_eq_of_lt (getF_lt s _)).symm
  refused _ := bit_setF_one _ _ (by decide)

theorem State.stepTaken_of_accepted (hok : s.time.stepSeen = true) (d : Int) (was : Nat) :
    StepTaken s ((((s.stepTakes.bump F.TIME_EPOCH_EPOCH).actTakes actTimestep 0).runMoves d).tcusStep 0 was) := by
  have hact := (s.stepTakes.bump F.TIME_EPOCH_EPOCH).actTakes_keeps actTimestep 0
  have hrun := ((s.stepTakes.bump F.TIME_EPOCH_EPOCH).actTakes actTimestep 0).runMoves_keeps d
  have htcu := (((s.stepTakes.bump F.TIME_EPOCH_EPOCH).actTakes actTimestep 0).runMoves d).tcusStep_frame 0 was
  have hregs := ((hact.regsKept (by decide) _).trans (hrun.regsKept (by decide) _)).trans htcu.regs
  exact {
    keeps := (((s.stepTakes_keeps.bump _ (by simp)).mono (by decide)).trans (hact.mono (by decide))).trans
      ((hrun.mono (by decide)).trans (htcu.keeps.mono (by decide)))
    time := by
      have hsame : (((s.stepTakes.bump F.TIME_EPOCH_EPOCH).actTakes actTimestep 0).runMoves d).time = s.time.takeStep :=
        (hrun .time (by decide)).trans (hact .time (by decide))
      rw [htcu.time, hsame]
    pending := by
      rw [hregs.bit _ status_notMem_tcuStepRegs, bit_bump_other _ _ _ (by decide) (by decide)]
      exact s.stepTakes_pending
    epoch := by
      rw [hregs.getF _ epoch_notMem_tcuStepRegs, getF_bump_same _ _ (by decide), s.stepTakes_epoch, State.epoch, hok]
      rfl
    refused := fun hno => by simp [hok] at hno }

theorem State.stepApplied_stepTaken (hp : s.time.stepPend = some (z, k)) (hk : k < s.time.frc.toNat)
    (ho : s.time.incrPend = none ∨ s.time.stepFirst = true) : StepTaken s s.stepApplied := by
  rw [s.stepApplied_eq hp hk ho]
  split
  · exact s.stepTaken_of_accepted ‹_› _ _
  · exact s.stepTaken_of_refused (Bool.eq_false_iff.mpr ‹_›)

variable {t : State}

theorem StepTaken.time_frame (h : StepTaken s t) (hp : s.time.stepPend = some (z, k)) (hk : k < s.time.frc.toNat) :
    t.time.stepPend = none ∧ t.time.frc = s.time.frc ∧ t.time.incr = s.time.incr := by
  obtain ⟨hpend, hfrc, hincr, -⟩ := s.time.takeStep_frame hp hk
  rw [h.time]
  exact ⟨hpend, hfrc, hincr⟩

/-- T at the current tick is what the tick's evaluations already saw (R37). -/
theorem StepTaken.now (h : StepTaken s t) (hp : s.time.stepPend = some (z, k)) (hk : k < s.time.frc.toNat)
    (ho : s.time.incrPend = none ∨ s.time.stepFirst = true) : t.now = s.now := by
  obtain ⟨-, hfrc, -, -⟩ := s.time.takeStep_frame hp hk
  calc t.now = ({ s.time.takeStep with tcus := t.time.tcus } : TimeState).due.at s.time.takeStep.frc := by
        rw [State.now, h.time]
    _ = s.time.takeStep.due.at s.time.takeStep.frc := s.time.takeStep.due_at_same ..
    _ = s.now := by rw [TimeState.due_takeStep hp hk ho, hfrc, State.now]

/-- TIME_EPOCH at the current tick is what the tick's evaluations already saw (R37). -/
theorem StepTaken.epoch_eq (h : StepTaken s t) (hp : s.time.stepPend = some (z, k)) (hk : k < s.time.frc.toNat) :
    t.epoch = s.epoch := by
  obtain ⟨hnone, -, -⟩ := h.time_frame hp hk
  rw [State.epoch, TimeState.stepSeen_of_stepPend_none hnone, h.epoch]
  exact Nat.mod_mod _ _

/-- A refused step moves neither T nor TIME_EPOCH and sets STEP_ERR. -/
theorem StepTaken.of_below_zero (h : StepTaken s t) (hp : s.time.stepPend = some (z, k)) (hk : k < s.time.frc.toNat)
    (ho : s.time.incrPend = none ∨ s.time.stepFirst = true) (hz : s.time.stepTo z k < 0) :
    t.time.tBase = s.time.tBase ∧ t.time.frcBase = s.time.frcBase ∧
      t.getF F.TIME_EPOCH_EPOCH = s.getF F.TIME_EPOCH_EPOCH ∧ t.bit F.TIME_STATUS_STEP_ERR = true := by
  have hno : s.time.stepSeen = false := by rw [TimeState.stepSeen_eq hp hk ho]; simpa using hz
  have hepoch : s.epoch = s.getF F.TIME_EPOCH_EPOCH := by
    rw [State.epoch, hno]; exact Nat.mod_eq_of_lt (getF_lt s _)
  rw [h.time, TimeState.takeStep_refused hp hk hz]
  exact ⟨rfl, rfl, h.epoch.trans hepoch, h.refused hno⟩

/-- An accepted step of `z` ns moves T at its tick by `z` ns and counts TIME_EPOCH one up. -/
theorem StepTaken.of_nonneg (h : StepTaken s t) (hp : s.time.stepPend = some (z, k)) (hk : k < s.time.frc.toNat)
    (ho : s.time.incrPend = none ∨ s.time.stepFirst = true) (hz : 0 ≤ s.time.stepTo z k) :
    (t.time.at (BitVec.ofNat 64 (k + 1)) : Int) = s.time.stepTo z k ∧
      t.getF F.TIME_EPOCH_EPOCH = (s.getF F.TIME_EPOCH_EPOCH + 1) % 2 ^ 16 := by
  have hok : s.time.stepSeen = true := by rw [TimeState.stepSeen_eq hp hk ho]; simpa using hz
  constructor
  · have hat : t.time.at (BitVec.ofNat 64 (k + 1)) = (s.time.stepTo z k).toNat := by
      rw [h.time, TimeState.takeStep_accepted hp hk hz]
      exact TimeState.baseAt_at s.time k _
    rw [hat, Int.toNat_of_nonneg hz]
  · rw [h.epoch, State.epoch, hok]; rfl

end StepApplied

/-! ### O9 -/

theorem stepCommit_result (id : Ident) (hi : Word) (s : State) (hg : s.goes id R.TIME_STEP_HI) :
    ∃ t, exec (.stepCommit id hi) s = .next t ∧
      Keeps [.regs, .time, .dbg] s t ∧ RegsKept [R.TIME_STATUS] s t ∧
      (s.time.stepPend.isSome = true → t.time = s.time ∧ t.bit F.TIME_STATUS_STEP_BUSY = true) ∧
      (s.time.stepPend = none →
        t.time = { s.time with stepPend := some (toSigned 64 (join64 (s.rd R.TIME_STEP_LO) hi), s.tick) } ∧
        t.bit F.TIME_STATUS_STEP_PENDING = true) := by
  refine ⟨_, exec_stepCommit_goes hi hg, ((s.stepCommit_keeps hi).mono (by decide)).bpReg _ _ _ (by simp),
    (s.stepCommit_regsKept hi).bpReg _ _ _, fun hp => ?_, fun hp => ?_⟩
  · rw [State.bpReg_time, State.bpReg_bit, s.stepCommit_busy hi hp]
    exact ⟨rfl, bit_setF_one _ _ (by decide)⟩
  · rw [State.bpReg_time, State.bpReg_bit, s.stepCommit_accepted hi hp]
    exact ⟨rfl, bit_setF_one _ _ (by decide)⟩

/-- Settles O9: a commit is one update of the pending step; STEP_APPLIED gives a state that is `StepTaken`, from which T, TIME_EPOCH
and the flags follow for a refused and for an accepted step. -/
theorem stepsMoveTime : Obligations.StepsMoveTime := by
  unfold Obligations.StepsMoveTime
  refine ⟨stepCommit_result, fun s z k hp hk hf => ?_⟩
  have ho := TimeState.incrPend_none_or_stepFirst hp hk hf
  have h := State.stepApplied_stepTaken hp hk ho
  obtain ⟨hpend, hfrc, hincr⟩ := h.time_frame hp hk
  exact ⟨s.stepApplied, rfl, h.keeps, hpend, hfrc, hincr, h.pending, h.now hp hk ho, h.epoch_eq hp hk,
    h.of_below_zero hp hk ho, h.of_nonneg hp hk ho⟩

end Sys2Proof.Machine
end

section
/-!
SUPPORT. The structure in use (R54): every command but those that load a structure, reset the hub cold or move corrected time keeps
what `State.deep` shows, and the two that move corrected time keep the image.
-/

namespace Sys2Proof.Machine

/-! ### Outcomes that keep what `State.deep` shows -/

/-- An outcome that stops the hub, or a next state that shows the same `deep` as `s`. -/
def KeepsDeep (s : State) : Host.Outcome State Fault Refusal → Prop
  | .next t => t.deep = s.deep
  | .fault _ | .refused _ => True

theorem KeepsDeep.of_next {s t : State} {o : Host.Outcome State Fault Refusal} (h : KeepsDeep s o) (ho : o = .next t) :
    t.deep = s.deep := by
  subst ho; exact h

theorem KeepsDeep.ite {c : Prop} [Decidable c] {s : State} {o p : Host.Outcome State Fault Refusal} (ho : KeepsDeep s o)
    (hp : KeepsDeep s p) : KeepsDeep s (if c then o else p) := by
  split
  · exact ho
  · exact hp

/-- A write on the access path keeps what its effect keeps. -/
theorem KeepsDeep.gated {s : State} {id : Ident} {off : Nat} {v : Word} {f : State → State} (hf : ∀ t, (f t).deep = t.deep) :
    KeepsDeep s (.next (s.gated id off v f)) :=
  s.gated_deep id off v f hf

/-- A write of a mailbox keeps what its effect keeps. -/
theorem KeepsDeep.mbxGated {s : State} {id : Ident} {n off : Nat} {v : Word} {f : State → State}
    (hf : ∀ t, (f t).deep = t.deep) : KeepsDeep s (.next (s.mbxGated id n off v f)) :=
  s.mbxGated_deep id n off v f hf

/-- A Damuf request keeps what serving it keeps. -/
theorem KeepsDeep.damuf {s : State} {mine : Nat → Nat → Bool} {run : DmfRun} (hrun : ∀ t k b, (run t k b).2.deep = t.deep) :
    KeepsDeep s (.next (s.damuf mine run)) :=
  s.damuf_deep mine run hrun

theorem structureInUse_eq_of_deep_eq {s t : State} (h : t.deep = s.deep) : t.structureInUse = s.structureInUse :=
  congrArg Deep.image h

theorem structureInUse_eq_of_image_eq {s t : State} (h : t.image = s.image) : t.structureInUse = s.structureInUse :=
  congrArg (Option.map Image.asStructure) h

theorem deep_ite {c : Prop} [Decidable c] {s t u : State} (ht : t.deep = s.deep) (hu : u.deep = s.deep) :
    (if c then t else u).deep = s.deep := by
  split
  · exact ht
  · exact hu

/-! ### Commands whose effect branches where they are executed -/

theorem execHostWindowAccess_keepsDeep (id : Ident) (off : Nat) (data : Option (List (Option Byte))) (len : Nat) (s : State) :
    KeepsDeep s (execHostWindowAccess id off data len s) := by
  cases data with
  | none => exact .ite trivial (.ite rfl (.ite ((State.obsv_deep ..).trans (s.setF_deep ..)) (s.windowRead_deep ..)))
  | some b => exact .ite trivial (.ite rfl (.ite (s.setF_deep ..) (s.windowWrite_deep ..)))

theorem execMsixUnmask_keepsDeep (id : Ident) (f : Fin 2) (vec : Fin 64) (s : State) :
    KeepsDeep s (execMsixUnmask id f vec s) :=
  deep_ite s.deny_deep (deep_ite rfl (deep_ite (s.goBehind_deep ..) ((State.bpReg_deep ..).trans (s.unmask_deep ..))))

theorem execDomainReset_keepsDeep (id : Ident) (d : Fin 14) (s : State) : KeepsDeep s (execDomainReset id d s) :=
  deep_ite (deep_ite rfl s.deny_deep) (s.gated_deep _ _ _ _ (·.domResets_deep d))

theorem execUpdSessionOpen_keepsDeep (id : Ident) (s : State) : KeepsDeep s (execUpdSessionOpen id s) :=
  s.reading_deep _ _ _ (fun t => (State.obsv_deep ..).trans (t.gatedRead_deep _ _ _ (·.updOpen_deep id)))

/-- An effect that a write of UPD_CTRL has only with KEY. -/
theorem keyed_deep {f : State → State} (v : Word) (hf : ∀ t, (f t).deep = t.deep) (t : State) :
    (if keyed v then f t else t).deep = t.deep :=
  deep_ite (hf t) rfl

/-! ### Every command -/

/-- Every command but the four that load a structure or reset the hub cold and the two that move corrected time, by the lemma about its
effect: one line per row of the table, in the order of its dispatch. -/
theorem exec_keepsDeep (c : Instr) (s : State) (hup : ∀ g, c ≠ .powerUp g) (hload : c ≠ .reformLoadPass)
    (hwarm : ∀ l n g, c ≠ .warmResetRelease l n g) (hcold : ∀ por, c ≠ .coldReset por)
    (hrebase : c ≠ .incrRebase) (hstep : c ≠ .stepApplied) : KeepsDeep s (exec c s) := by
  cases c with
  | registerWrite => exact .ite (s.writeReq_deep ..) trivial
  | snapshotRead | rcRead => exact .ite (s.readReq_deep ..) trivial
  | incrCommit => exact .gated (·.incrCommit_deep ..)
  | incrRebase => exact absurd rfl hrebase
  | stepCommit => exact .gated (·.stepCommit_deep ..)
  | stepApplied => exact absurd rfl hstep
  | tcuArm => exact .gated (·.tcuArm_deep ..)
  | tcuDisarm => exact .gated (·.tcuDisarm_deep ..)
  | tcuQualifyLoad => exact s.tcuLoad_deep ..
  | tcuDecision => exact s.tcuDecide_deep ..
  | tcuEdgeLaunch => exact s.tcuLaunch_deep ..
  | tpoTrailingEdge => exact s.tpoFall_deep ..
  | tciStamp => exact s.tciStamp_deep ..
  | anchorMeasurement => exact s.anchor_deep ..
  | tbLoad => exact .gated (·.tbLoad_deep ..)
  | powerUp => exact absurd rfl (hup _)
  | reformRequest => exact .gated (·.reformWrite_deep ..)
  | reformCheckPassEnd => exact s.checkPassEnd_deep ..
  | reformLoadPass => exact absurd rfl hload
  | pllCommit => exact .gated (·.pllCommit_deep ..)
  | pllLocked => exact s.pllLocked_deep
  | clkUnlock => exact s.clkUnlock_deep
  | holdover => exact s.holdover_deep
  | holdoverExit => exact s.holdoverExit_deep
  | quadrantPowerOff => exact .gated (·.quadOff_deep ..)
  | quadrantPowerOn => exact .gated (·.quadReq_deep ..)
  | quadrantOn => exact s.quadRise_deep ..
  | runArm => exact .gated State.runArm_deep
  | runDisarm => exact .gated State.runDisarm_deep
  | hostStart => exact .gated State.hostStart_deep
  | hostStop => exact .gated State.hostStop_deep
  | stopAtSn => exact .gated State.stopAtSnCmd_deep
  | snZero => exact s.snZero_deep ..
  | sStopReached => exact s.sStopReached_deep
  | syncInLeadingEdge => exact s.syncLead_deep ..
  | syncInTrailingEdge => exact s.syncTrail_deep
  | syncInQualify => exact s.syncQualify_deep
  | syncMalformed => exact s.syncLong_deep
  | calrun => exact .gated State.calrun_deep
  | calrunCommit => exact s.calrunCommit_deep ..
  | calDone => exact s.calDone_deep
  | calAbort => exact .gated State.calAbort_deep
  | calsaveSubmit => exact .gated State.calsaveSubmit_deep
  | calsaveCommit => exact s.calsaveCommit_deep ..
  | sweepStart => exact s.sweepStart_deep ..
  | calHandover => exact s.handover_deep ..
  | calibrateEnd => exact s.calibrateEnd_deep ..
  | calHandback => exact s.handback_deep ..
  | glideEnd => exact s.glideEnd_deep ..
  | spareCalibrationEnd => exact s.spareCalEnd_deep ..
  | activityResume => exact s.activityResume_deep
  | delayNow => exact .gated (·.delayNow_deep ..)
  | alignTermUpdate => exact s.alignUpdate_deep
  | settleEnd => exact s.settleEnd_deep ..
  | bankCopy => exact .gated State.bankCopy_deep
  | copyEnd => exact s.copyEnd_deep
  | triginEdge => exact s.triginEdge_deep ..
  | trgForce => exact .gated (·.trgForce_deep ..)
  | triggerDecision => exact s.trigDecide_deep
  | prefillEnd => exact s.prefillEnd_deep ..
  | holdoffEnd => exact s.holdoffEnd_deep ..
  | trigoutLeadingEdge => exact s.toLead_deep ..
  | trigoutPulseEnd => exact s.pulseEnd_deep ..
  | trgApplyNow => exact .gated State.trgNow_deep
  | hostWindowAccess => exact execHostWindowAccess_keepsDeep ..
  | scrubPassStart => exact s.scrubStart_deep
  | scrubPassEnd => exact s.scrubEnd_deep
  | frameBuild => exact s.frameBuild_deep ..
  | frameTransmit => exact s.frameTransmit_deep ..
  | frameDelivered => exact s.frameDelivered_deep ..
  | eventRecord => exact s.eventRecord_deep
  | eventRingWrite => exact s.eventRing_deep ..
  | eqRead => exact s.eqRead_deep ..
  | wqFlush => exact .gated (·.wqFlush_deep ..)
  | fqFlush => exact .gated (·.fqFlush_deep ..)
  | eqFlush => exact .gated (·.eqFlush_deep ..)
  | discardEnd => exact s.discardEnd_deep ..
  | hostJobStart | sntCompress | sntInflate | sntResume | sntRelease => exact s.takeDesc_deep ..
  | jobStepComplete => exact s.stepComplete_deep ..
  | sntAbort => exact .gated (·.sntAbort_deep ..)
  | captureJobStart => exact s.captureStart_deep
  | hubJobComplete => exact s.hubDone_deep ..
  | geyserPacketBuild => exact s.geyBuild_deep ..
  | fumarolePacketBuild => exact s.fumBuild_deep
  | endPacket => exact s.endBuild_deep ..
  | failback => exact .gated (·.failbackReq_deep ..)
  | failbackTakesEffect => exact s.failbackNow_deep ..
  | drainTimeout => exact s.drainTimeout_deep ..
  | linkUp => exact s.linkRise_deep ..
  | linkDown => exact s.linksFall_deep ..
  | trainingComplete => exact s.trained_deep ..
  | portRestart => exact .gated (·.restartPort_deep ..)
  | serdesReadapt => exact .gated (·.readapt_deep ..)
  | readaptDone => exact s.readaptEnd_deep ..
  | frameReceive => exact s.frameReceive_deep ..
  | hostFrameTransmit => exact s.hostFrameTransmit_deep ..
  | hostFramePromotion => exact s.promote_deep ..
  | pdMeasurement => exact s.pdMeasure_deep ..
  | suspectSet => exact .gated State.suspectSet_deep
  | suspectAck => exact .gated State.suspectAck_deep
  | damufRead => exact .damuf (fun t k b => t.damufRead_deep _ k b)
  | damufWrite => exact .damuf State.dmfWrite_deep
  | damufCaps => exact .damuf State.dmfCaps_deep
  | damufOpen => exact .damuf State.dmfOpen_deep
  | damufData => exact .damuf State.dmfData_deep
  | damufActivate => exact .damuf State.dmfActivate_deep
  | damufAbort => exact .damuf (fun t _ b => t.dmfEnd_deep 4 b)
  | damufStatus => exact .damuf (fun t _ b => t.updAny_deep 5 b id (fun _ => rfl))
  | damufConfirm => exact .damuf (fun t _ b => t.updAny_deep 6 b _ State.confirmed_deep)
  | damufReject => exact .damuf (fun t _ b => t.updAny_deep 7 b _ State.rejected_deep)
  | damufClose => exact .damuf (fun t _ b => t.dmfEnd_deep 8 b)
  | applyArm => exact .gated State.applyArm_deep
  | applyCheckDone => exact s.applyCheckDone_deep
  | applyLanding => exact s.applyLanding_deep
  | applyDisarm => exact .gated State.applyDisarm_deep
  | fence => exact .gated (·.fence_deep ..)
  | fenceDone => exact s.fenceDone_deep ..
  | functionLevelReset => exact (State.followers_deep ..).trans (s.flr_deep _)
  | ringEnable => exact .gated (·.ringCtrl_deep ..)
  | ringDisable => exact .gated (·.ringDisable_deep ..)
  | ringPiWrite => exact .gated (·.piWrite_deep ..)
  | eventRingCiWrite => exact .gated (·.setF_deep ..)
  | msixModerationExpiry => exact s.modExpiry_deep ..
  | msixUnmask => exact execMsixUnmask_keepsDeep ..
  | mbxComposeWrite => exact .mbxGated (·.mbxCompose_deep ..)
  | mbxRing => exact .mbxGated (·.mbxRing_deep ..)
  | mbxAbandon => exact .mbxGated (·.mbxAbandon_deep ..)
  | mbxAck => exact .mbxGated (·.mbxAck_deep ..)
  | lockRead => exact deep_ite (s.reading_deep _ _ _ (·.lockRead_deep ..)) rfl
  | lockRelease => exact s.lockGated_deep ..
  | identityLeavesReset => exact deep_ite (s.identLeave_deep _) rfl
  | pcieLinkUp => exact s.pcieUp_deep
  | domainIdle => exact s.domIdle_deep ..
  | domainWake => exact deep_ite (s.wakeDom_deep _) rfl
  | domainOn => exact s.domainOn_deep ..
  | domainReset => exact execDomainReset_keepsDeep ..
  | blockSoftReset => exact .gated (·.blkReset_deep ..)
  | warmReset => exact s.warm_deep ..
  | softwareWarmReset => exact .gated (·.softWarm_deep ..)
  | coldReset => exact absurd rfl (hcold _)
  | setsaveSubmit => exact .gated (·.submit_deep ..)
  | saveIntervalExpiry => exact s.saveExpiry_deep
  | setsaveCommit => exact s.setsaveCommit_deep ..
  | activityAdmit => exact s.activityAdmit_deep
  | updSessionOpen => exact execUpdSessionOpen_keepsDeep ..
  | updSessionClose => exact .gated (·.updClose_deep ..)
  | updStart => exact .gated (·.updStart_deep ..)
  | updData => exact .gated (·.updPush_deep ..)
  | sectionComplete => exact s.sectionDone_deep ..
  | sectionWriteDone => exact s.sectionWritten_deep ..
  | updCheckDone => exact s.updChecked_deep
  | updTimeout => exact s.updTimeout_deep
  | updActivate => exact .gated (·.updOwned_deep _ _ State.updActivate_deep)
  | updAbort => exact .gated (·.updAbort_deep ..)
  | updConfirm => exact .gated (keyed_deep _ State.confirmed_deep)
  | updReject => exact .gated (keyed_deep _ State.rejected_deep)
  | healthEvaluation => exact s.healthEval_deep
  | trialCommit => exact s.trialCommit_deep
  | healthWindowExpiry => exact s.healthExpiry_deep
  | tapReset => exact s.tapReset_deep
  | bypass => exact s.bypassScan_deep ..
  | idcode => exact (State.obsv_deep ..).trans (s.irLoad_deep _)
  | samplePreload => exact (State.chainScan_deep ..).trans (s.irLoad_deep _)
  | extest => exact s.extest_deep ..
  | dauAccess => exact s.dauAccess_deep ..
  | unlockChal => exact s.unlockChal_deep
  | unlockResp => exact s.unlockResp_deep ..
  | debugUnlock => exact s.debugUnlock_deep
  | haltRequest => exact .gated (·.dbgCtrl_deep ..)
  | haltFreeze => exact s.haltFreeze_deep
  | dbgResume | dbgStep | relock => exact .gated (·.dbgCtrl_deep ..)
  | breakpointMatch => exact s.bpMatch_deep ..
  | monitorSample => exact s.monitor_deep ..
  | samplingEdge => exact s.sampleEdge_deep ..
  | warmResetRelease => exact absurd rfl (hwarm _ _ _)
  | keptSectionsCopied => exact s.keptCopied_deep
  | scrubLineRead => exact s.scrubLine_deep
  | dbgStepDone => exact s.stepDone_deep

/-! ### The commands that move corrected time -/

theorem Keeps.ite {c : Prop} [Decidable c] {l : List Field} {s t u : State} (ht : c → Keeps l s t) (hu : ¬ c → Keeps l s u) :
    Keeps l s (if c then t else u) := by
  split
  · exact ht ‹c›
  · exact hu ‹¬ c›

/-- INCR_REBASE does nothing where no rebase goes ahead; one that does moves the time base and shows the new INCR. -/
theorem State.incrRebase_keeps (s : State) : Keeps [.regs, .time] s s.incrRebase := by
  have hrefl := Keeps.refl [.regs, .time] s
  have htake := (hrefl.time s.time.takeIncr (by simp)).setF F.TIME_STATUS_INCR_PENDING 0 (by simp)
  have hlo (c : Prop) [Decidable c] (w : Word) :=
    Keeps.ite (c := c) (fun _ => htake.wr R.TIME_INCR_LO w (by simp)) (fun _ => htake)
  unfold State.incrRebase
  split
  · exact hrefl
  · exact .ite (fun _ => .ite (fun _ => (hlo _ _).wr _ _ (by simp)) (fun _ => hlo _ _)) (fun _ => hrefl)

/-- STEP_APPLIED does nothing where no step goes ahead; a step that does is taken, refused or accepted. -/
theorem State.stepApplied_keeps (s : State) : Keeps [.regs, .time, .run, .mnt] s s.stepApplied := by
  unfold State.stepApplied
  split
  · exact Keeps.refl _ s
  · exact .ite
      (fun _ => .ite (fun hno => (s.stepTaken_of_refused (by simpa using hno)).keeps)
        (fun hok => (s.stepTaken_of_accepted (by simpa using hok) _ _).keeps))
      (fun _ => Keeps.refl _ s)

/-! ### O5 -/

/-- Settles O5: INCR_REBASE and STEP_APPLIED keep the image itself; every other command but the four that the statement names keeps
all that `State.deep` shows, and with it the structure in use. -/
theorem imageMovesOnlyBy : Obligations.ImageMovesOnlyBy := by
  unfold Obligations.ImageMovesOnlyBy
  intro c s t h hup hload hwarm hcold
  by_cases hrebase : c = .incrRebase
  · subst hrebase
    obtain rfl : s.incrRebase = t := Host.Outcome.next.inj h
    exact structureInUse_eq_of_image_eq (s.incrRebase_keeps .image (by decide))
  by_cases hstep : c = .stepApplied
  · subst hstep
    obtain rfl : s.stepApplied = t := Host.Outcome.next.inj h
    exact structureInUse_eq_of_image_eq (s.stepApplied_keeps .image (by decide))
  exact structureInUse_eq_of_deep_eq ((exec_keepsDeep c s hup hload hwarm hcold hrebase hstep).of_next h)

end Sys2Proof.Machine
end

section
/-!
SUPPORT. The queue, the counter and INCR (R32-R37): what every command keeps of the base of time and of the queue, and what the commands
that move them, INCR_REBASE, STEP_APPLIED, COLD_RESET and the passing tick, make of FRC and INCR.
-/

namespace Sys2Proof.Machine

/-! ### What every command but three keeps -/

/-- Every command but a cold reset and the two that move corrected time keeps all of `State.deep` but the image. -/
theorem exec_keepsBase {c : Instr} {s t : State} (h : exec c s = .next t) (hcold : ∀ por, c ≠ .coldReset por)
    (hrebase : c ≠ .incrRebase) (hstep : c ≠ .stepApplied) : t.deep.base = s.deep.base := by
  by_cases hup : ∃ g, c = .powerUp g
  · obtain ⟨g, rfl⟩ := hup
    obtain rfl : s.powerUp g = t := Host.Outcome.next.inj h
    exact s.powerUp_base g
  by_cases hload : c = .reformLoadPass
  · subst hload
    obtain rfl : s.loadPass = t := Host.Outcome.next.inj h
    exact s.loadPass_base
  by_cases hwarm : ∃ l n g, c = .warmResetRelease l n g
  · obtain ⟨l, n, g, rfl⟩ := hwarm
    obtain rfl : s.warmEnd l n g = t := Host.Outcome.next.inj h
    exact s.warmEnd_base l n g
  push Not at hup hwarm
  exact congrArg Deep.base ((exec_keepsDeep c s hup hload hwarm hcold hrebase hstep).of_next h)

section

variable {s t : State}

theorem frc_eq_of_base_eq (h : t.deep.base = s.deep.base) : t.time.frc = s.time.frc := congrArg Deep.frc h

theorem pending_eq_of_base_eq (h : t.deep.base = s.deep.base) : t.pending = s.pending := congrArg Deep.pending h

/-- Corrected time and all that it is computed from. -/
theorem timeBase_eq_of_base_eq (h : t.deep.base = s.deep.base) :
    t.time.tBase = s.time.tBase ∧ t.time.frcBase = s.time.frcBase ∧ t.time.incr = s.time.incr ∧ t.now = s.now :=
  ⟨congrArg Deep.tBase h, congrArg Deep.frcBase h, congrArg Deep.incr h, congrArg Deep.now h⟩

theorem incrInRange_of_incr_eq (hincr : t.time.incr = s.time.incr) (hpend : t.time.pendOk = s.time.pendOk) (hs : s.incrInRange) :
    t.incrInRange := by
  obtain ⟨h1, h2⟩ := hs
  exact ⟨hincr ▸ h1, hpend.trans h2⟩

end

/-! ### The commands that move corrected time -/

/-- A rebase that is due puts the waiting INCR into use; FRC stays. -/
theorem TimeState.takeIncr_cases (t : TimeState) :
    t.takeIncr = t ∨ ∃ v k, t.incrPend = some (v, k) ∧ t.takeIncr.frc = t.frc ∧ t.takeIncr.incr = v ∧ t.takeIncr.incrPend = none := by
  unfold TimeState.takeIncr
  split
  · next v k hp =>
    split
    · exact .inr ⟨v, k, hp, rfl, rfl, rfl⟩
    · exact .inl rfl
  · exact .inl rfl

/-- A step moves neither FRC nor the INCR in use nor one that waits, whether it is due or not. -/
theorem TimeState.takeStep_incr (t : TimeState) :
    t.takeStep.frc = t.frc ∧ t.takeStep.incr = t.incr ∧ t.takeStep.incrPend = t.incrPend := by
  cases hp : t.stepPend with
  | none => simp [TimeState.takeStep, hp]
  | some p =>
    obtain ⟨z, k⟩ := p
    by_cases hk : k < t.frc.toNat
    · exact (t.takeStep_frame hp hk).2
    · simp [TimeState.takeStep, TimeState.isDue, hp, hk]

/-- INCR_REBASE leaves the time base, or takes the waiting INCR. -/
theorem State.incrRebase_time (s : State) : s.incrRebase.time = s.time ∨ s.incrRebase.time = s.time.takeIncr := by
  unfold State.incrRebase
  split
  · exact .inl rfl
  · split
    · right
      dsimp only
      split <;> split <;> rfl
    · exact .inl rfl

/-- The time base of `t` is that of `s`, or that of `s` after its waiting step, with compare units moved. -/
def StepOrNot (s t : State) : Prop := t.time = s.time ∨ t.time = { s.time.takeStep with tcus := t.time.tcus }

/-- STEP_APPLIED leaves the time base, or takes the waiting step and moves compare units. -/
theorem State.stepApplied_stepOrNot (s : State) : StepOrNot s s.stepApplied := by
  cases hp : s.time.stepPend with
  | none => exact .inl (by simp only [State.stepApplied, hp])
  | some p =>
    obtain ⟨z, k⟩ := p
    by_cases hk : k < s.time.frc.toNat
    · by_cases ho : s.time.incrPend = none ∨ s.time.stepFirst = true
      · exact .inr (State.stepApplied_stepTaken hp hk ho).time
      · have hf : ∃ v i, s.time.incrPend = some (v, i) ∧ i < s.time.frc.toNat ∧ ¬ k < i := by
          by_contra hno
          push Not at hno
          exact ho (TimeState.incrPend_none_or_stepFirst hp hk hno)
        obtain ⟨v, i, hi, hdue, -⟩ := hf
        push Not at ho
        exact .inl (by simp [State.stepApplied, hp, hi, TimeState.isDue, hdue, ho.2])
    · exact .inl (by simp [State.stepApplied, State.stepDue, hp, TimeState.isDue, hk])

theorem State.incrRebase_frc (s : State) : s.incrRebase.time.frc = s.time.frc := by
  rcases s.incrRebase_time with h | h
  · rw [h]
  · rcases s.time.takeIncr_cases with k | ⟨v, k, -, hfrc, -⟩
    · rw [h, k]
    · rw [h, hfrc]

theorem State.stepApplied_frc (s : State) : s.stepApplied.time.frc = s.time.frc := by
  rcases s.stepApplied_stepOrNot with h | h
  · rw [h]
  · rw [h]; exact s.time.takeStep_incr.1

/-- The INCR that a rebase puts into use is the one that waited, which was in range. -/
theorem State.incrRebase_inRange {s : State} (hs : s.incrInRange) : s.incrRebase.incrInRange := by
  obtain ⟨hincr, hpend⟩ := hs
  rcases s.incrRebase_time with h | h
  · rw [State.incrInRange, h]; exact ⟨hincr, hpend⟩
  · rw [State.incrInRange, h]
    rcases s.time.takeIncr_cases with k | ⟨v, k, hp, -, hv, hnone⟩
    · rw [k]; exact ⟨hincr, hpend⟩
    · rw [TimeState.pendOk, hp] at hpend
      rw [TimeState.pendOk, hv, hnone]
      exact ⟨hpend, rfl⟩

theorem State.stepApplied_inRange {s : State} (hs : s.incrInRange) : s.stepApplied.incrInRange := by
  rcases s.stepApplied_stepOrNot with h | h
  · exact incrInRange_of_incr_eq (by rw [h]) (by rw [h]) hs
  · obtain ⟨-, hincr, hpend⟩ := s.time.takeStep_incr
    exact incrInRange_of_incr_eq (by rw [h]; exact hincr) (by rw [h]; simp only [TimeState.pendOk, hpend]) hs

/-! ### COLD_RESET and the tick -/

/-- A cold reset leaves the time base of reset and the queue. -/
theorem State.cold_base (s : State) (por : Bool) : (s.cold por).deep.base = ({ State.reset with pending := s.pending } : State).deep.base := by
  unfold State.cold
  dsimp only
  split
  · rw [State.obsv_deep, foldl_deep _ _ _ (fun t p => t.pinOut_deep ..), State.setB_deep]; rfl
  · rw [State.clkMove_deep, State.pinsMove_deep, State.setB_deep]; rfl

/-- A tick of a hub that is not held in cold reset: the compare units of loaded time bases move; then steps of F-cycles count and
activities take effect. -/
theorem State.tickPass_eq {s : State} (hpor : s.pwr.por = false) :
    s.tickPass = (((List.range 4).foldl (fun x n => if (s.tb n).load.isSome then x.tcusStep (n + 1) (s.launchTime (n + 1)) else x)
      s.tickOn).stepTick).actsTaken := by
  rw [State.tickPass, if_neg (by simp [hpor])]

theorem State.stepTick_time (s : State) : s.stepTick.time = s.time := by
  unfold State.stepTick; split <;> rfl

/-- A tick counts FRC one up and else moves legacy time bases and compare units. -/
theorem State.tickPass_time {s : State} (hpor : s.pwr.por = false) :
    s.tickPass.time = { s.tickOn.time with tcus := s.tickPass.time.tcus } := by
  rw [State.tickPass_eq hpor]
  simp only [State.actsTaken, State.stepTick_time]
  refine ((TcuFrame.refl s.tickOn).foldl _ _ fun u n _ => ?_).time
  exact .ite (u.tcusStep_frame _ _) (.refl u)

theorem State.tickPass_por {s : State} (hpor : s.pwr.por = true) : s.tickPass = s := by
  rw [State.tickPass, if_pos hpor]

theorem State.tickPass_frc (s : State) : s.tickPass.time.frc = (if s.pwr.por then s.time.frc else s.time.frc + 1#64) := by
  cases hpor : s.pwr.por with
  | true => rw [State.tickPass_por hpor]; rfl
  | false => rw [State.tickPass_time hpor]; rfl

theorem State.tickPass_inRange {s : State} (hs : s.incrInRange) : s.tickPass.incrInRange := by
  cases hpor : s.pwr.por with
  | true => rwa [State.tickPass_por hpor]
  | false => exact incrInRange_of_incr_eq (by rw [State.tickPass_time hpor]; rfl) (by rw [State.tickPass_time hpor]; rfl) hs

theorem step_of_pending_nil {s : State} (hp : s.pending = []) : step s = .next s.tickPass := by
  rw [step, hp]; rfl

/-! ### O2 -/

/-- Every command but a cold reset leaves FRC. -/
theorem exec_frc {c : Instr} {s t : State} (h : exec c s = .next t) (hcold : ∀ por, c ≠ .coldReset por) : t.time.frc = s.time.frc := by
  by_cases hrebase : c = .incrRebase
  · subst hrebase
    obtain rfl : s.incrRebase = t := Host.Outcome.next.inj h
    exact s.incrRebase_frc
  by_cases hstep : c = .stepApplied
  · subst hstep
    obtain rfl : s.stepApplied = t := Host.Outcome.next.inj h
    exact s.stepApplied_frc
  exact frc_eq_of_base_eq (exec_keepsBase h hcold hrebase hstep)

/-- Settles O2: the tick counts FRC, and every command is one that keeps the base of time or one of the three that the statement
names. -/
theorem frcCountsTicks : Obligations.FrcCountsTicks := by
  unfold Obligations.FrcCountsTicks
  refine ⟨rfl, fun s hp => ⟨_, step_of_pending_nil hp, s.tickPass_frc⟩, fun por s => ⟨_, rfl, frc_eq_of_base_eq (s.cold_base por)⟩,
    fun c s t h hcold => exec_frc h hcold, fun c s t h hrebase hstep hcold => ?_⟩
  exact timeBase_eq_of_base_eq (exec_keepsBase h hcold hrebase hstep)

/-! ### O3 -/

theorem State.reset_incrInRange : State.reset.incrInRange := ⟨by decide, rfl⟩

theorem exec_inRange {c : Instr} {s t : State} (h : exec c s = .next t) (hs : s.incrInRange) : t.incrInRange := by
  by_cases hcold : ∃ por, c = .coldReset por
  · obtain ⟨por, rfl⟩ := hcold
    obtain rfl : s.cold por = t := Host.Outcome.next.inj h
    exact incrInRange_of_incr_eq (congrArg Deep.incr (s.cold_base por)) (congrArg Deep.pendOk (s.cold_base por)) State.reset_incrInRange
  by_cases hrebase : c = .incrRebase
  · subst hrebase
    obtain rfl : s.incrRebase = t := Host.Outcome.next.inj h
    exact State.incrRebase_inRange hs
  by_cases hstep : c = .stepApplied
  · subst hstep
    obtain rfl : s.stepApplied = t := Host.Outcome.next.inj h
    exact State.stepApplied_inRange hs
  push Not at hcold
  have hbase := exec_keepsBase h hcold hrebase hstep
  exact incrInRange_of_incr_eq (congrArg Deep.incr hbase) (congrArg Deep.pendOk hbase) hs

/-- Settles O3: a step is a tick, which moves no INCR, or a command, of which INCR_REBASE alone puts an INCR into use. -/
theorem incrStaysInRange : Obligations.IncrStaysInRange := by
  unfold Obligations.IncrStaysInRange
  intro s t hs h
  cases hp : s.pending with
  | nil =>
    obtain rfl := Host.Outcome.next.inj ((step_of_pending_nil hp).symm.trans h)
    exact State.tickPass_inRange hs
  | cons c q =>
    rw [step, hp] at h
    exact exec_inRange h hs

/-! ### O6 -/

/-- No command touches the queue. -/
theorem exec_pending {c : Instr} {s t : State} (h : exec c s = .next t) : t.pending = s.pending := by
  by_cases hcold : ∃ por, c = .coldReset por
  · obtain ⟨por, rfl⟩ := hcold
    obtain rfl : s.cold por = t := Host.Outcome.next.inj h
    exact congrArg Deep.pending (s.cold_base por)
  by_cases hrebase : c = .incrRebase
  · subst hrebase
    obtain rfl : s.incrRebase = t := Host.Outcome.next.inj h
    exact s.incrRebase_keeps .pending (by decide)
  by_cases hstep : c = .stepApplied
  · subst hstep
    obtain rfl : s.stepApplied = t := Host.Outcome.next.inj h
    exact s.stepApplied_keeps .pending (by decide)
  push Not at hcold
  exact pending_eq_of_base_eq (exec_keepsBase h hcold hrebase hstep)

/-- An access to the sample memory answers a next state, or lies outside BAR2 (R335). -/
theorem execHostWindowAccess_cases (id : Ident) (off : Nat) (data : Option (List (Option Byte))) (len : Nat) (s : State) :
    (∃ t, execHostWindowAccess id off data len s = .next t) ∨
      (execHostWindowAccess id off data len s = .fault .outsideBar2 ∧ windowOk off data len = false) := by
  have hsize : barSize 2 = 134217728 := rfl
  unfold execHostWindowAccess
  cases data with
  | none =>
    dsimp only
    split
    · next hout => exact .inr ⟨rfl, by rw [hsize] at hout; simp [windowOk]; omega⟩
    · left; split
      · exact ⟨_, rfl⟩
      · split <;> exact ⟨_, rfl⟩
  | some b =>
    dsimp only
    split
    · next hout => exact .inr ⟨rfl, by rw [hsize] at hout; simp [windowOk]; omega⟩
    · left; split
      · exact ⟨_, rfl⟩
      · split <;> exact ⟨_, rfl⟩

/-- What a command may answer: a next state, or, where it is not well formed, the one of the two stops of R335. -/
def AnswersOrStops (c : Instr) (s : State) : Prop :=
  (∃ t, exec c s = .next t) ∨ ((exec c s = .fault .outsideBar0 ∨ exec c s = .fault .outsideBar2) ∧ c.wf = false)

theorem exec_answersOrStops (c : Instr) (s : State) : AnswersOrStops c s := by
  have hbar : ∀ off, inBar0Range off = inBar0 off := fun _ => rfl
  have hbar0 : ∀ (off : Nat) (t : State), (∃ u, (if inBar0 off then .next t else .fault .outsideBar0 : Host.Outcome State Fault Refusal) = .next u) ∨
      (((if inBar0 off then .next t else .fault .outsideBar0 : Host.Outcome State Fault Refusal) = .fault .outsideBar0 ∨
        (if inBar0 off then .next t else .fault .outsideBar0 : Host.Outcome State Fault Refusal) = .fault .outsideBar2) ∧
        inBar0Range off = false) := by
    intro off t
    rw [hbar]
    cases inBar0 off
    · exact .inr ⟨.inl rfl, rfl⟩
    · exact .inl ⟨_, rfl⟩
  cases c with
  | registerWrite id off r => exact hbar0 off (s.writeReq id off r)
  | snapshotRead id off r => exact hbar0 off (s.readReq id off r)
  | rcRead id off => exact hbar0 off (s.readReq id off .dw)
  | hostWindowAccess id off data len =>
    rcases execHostWindowAccess_cases id off data len s with h | ⟨h, hwf⟩
    · exact .inl h
    · exact .inr ⟨.inr h, hwf⟩
  | _ => exact .inl ⟨_, rfl⟩

/-- A well-formed command answers a next state with the queue as it was. -/
theorem exec_of_wf {c : Instr} (hwf : c.wf = true) (s : State) : ∃ t, exec c s = .next t ∧ t.pending = s.pending := by
  rcases exec_answersOrStops c s with ⟨t, h⟩ | ⟨-, hno⟩
  · exact ⟨t, h, exec_pending h⟩
  · rw [hwf] at hno; cases hno

/-- Settles O6: a command answers a next state or is not well formed, and none touches the queue. -/
theorem effectsLeaveTheQueue : Obligations.EffectsLeaveTheQueue := by
  unfold Obligations.EffectsLeaveTheQueue
  refine ⟨fun c s t h => exec_pending h, fun c s hwf => exec_of_wf hwf s, fun c q s hwf => exec_of_wf hwf { s with pending := q },
    fun c s hno => ?_⟩
  rcases exec_answersOrStops c s with ⟨t, h⟩ | ⟨h, -⟩
  · exact absurd h (hno t)
  · exact h

end Sys2Proof.Machine
end

section
/-!
SUPPORT. Changes of INCR (R35, R37): a commit is taken or refused, and a rebase is continuous.
-/

namespace Sys2Proof.Machine

/-! ### Writes that go through -/

/-- What holds of the effect of a write and its breakpoint notes holds of the command's next state, where the write goes through. -/
theorem gated_next {s : State} {id : Ident} {off : Nat} {f : State → State} {P : State → Prop} (v : Word) (hg : s.goes id off)
    (hoff : off ≠ R.HIF_APPLY_CTRL) (h : P ((f s).bpReg id off true)) :
    ∃ t, (Host.Outcome.next (s.gated id off v f) : Host.Outcome State Fault Refusal) = .next t ∧ P t :=
  ⟨_, rfl, (s.gated_goes_other id off v f hg hoff).symm ▸ h⟩

/-! ### INCR_COMMIT -/

theorem incrOk_iff (v : Nat) : incrOk v = true ↔ 19998 * 2 ^ 56 ≤ 10000 * v ∧ 10000 * v ≤ 20002 * 2 ^ 56 := by
  simp only [incrOk, Bool.and_eq_true, decide_eq_true_eq]

/-- A refused commit sets the flag `f`; both halves read the INCR in use from then on. -/
def State.incrRefused (s : State) (f : Fld) : State :=
  (({ s with time := { s.time with loUse := true, hiUse := true } }).setF f 1).showIncr s.incrNow

/-- The INCR that a write of `hi` commits. -/
def State.incrAsked (s : State) (hi : Word) : Nat := join64 (s.rd R.TIME_INCR_LO) hi

/-- A taken commit waits for its rebase; both halves read it. -/
def State.incrTaken (s : State) (v : Nat) : State :=
  (({ s with time := { s.time with incrPend := some (v, s.tick), loUse := false, hiUse := false } }).setF
    F.TIME_STATUS_INCR_PENDING 1).showIncr v

theorem State.incrCommit_busy {s : State} {hi : Word} (hp : s.time.incrPend.isSome = true) :
    s.incrCommit hi = (if incrOk (s.incrAsked hi) then s else s.setF F.TIME_STATUS_INCR_ERR 1).incrRefused F.TIME_STATUS_INCR_BUSY := by
  rw [State.incrCommit]; exact if_pos hp

theorem State.incrCommit_bad {s : State} {hi : Word} (hp : s.time.incrPend = none) (hv : incrOk (s.incrAsked hi) = false) :
    s.incrCommit hi = s.incrRefused F.TIME_STATUS_INCR_ERR := by
  rw [State.incrCommit]
  exact (if_neg (by simp [hp])).trans (if_neg (by simpa [State.incrAsked] using hv))

theorem State.incrCommit_taken {s : State} {hi : Word} (hp : s.time.incrPend = none) (hv : incrOk (s.incrAsked hi) = true) :
    s.incrCommit hi = s.incrTaken (s.incrAsked hi) := by
  rw [State.incrCommit]
  exact (if_neg (by simp [hp])).trans (if_pos hv)

section IncrCommit

variable {fs : List Field} {l : List Nat} {s t : State}

theorem Keeps.showIncr (h : Keeps fs s t) (v : Nat) (hm : Field.regs ∈ fs) : Keeps fs s (t.showIncr v) := h.wr64 _ _ _ hm

theorem RegsKept.showIncr (h : RegsKept l s t) (v : Nat) (h1 : R.TIME_INCR_LO ∈ l) (h2 : R.TIME_INCR_HI ∈ l) :
    RegsKept l s (t.showIncr v) := h.wr64 _ _ _ h1 h2

theorem State.rd_showIncr (s : State) (v : Nat) :
    (s.showIncr v).rd R.TIME_INCR_LO = lo32 v ∧ (s.showIncr v).rd R.TIME_INCR_HI = hi32 v :=
  ⟨rd_wr64_lo _ _ _ _ (by decide), rd_wr64_hi ..⟩

theorem State.bit_showIncr (s : State) (v : Nat) (f : Fld) (hf : f.off = R.TIME_STATUS) : (s.showIncr v).bit f = s.bit f :=
  bit_wr64_other _ _ _ _ _ (by rw [hf]; decide) (by rw [hf]; decide)

/-- The registers that changes of INCR write. -/
def incrRegs : List Nat := [R.TIME_INCR_LO, R.TIME_INCR_HI, R.TIME_STATUS]

theorem State.incrRefused_keeps (h : Keeps [.regs, .time] s t) (f : Fld) : Keeps [.regs, .time] s (t.incrRefused f) :=
  ((h.time _ (by simp)).setF f 1 (by simp)).showIncr _ (by simp)

theorem State.incrRefused_regsKept (h : RegsKept incrRegs s t) {f : Fld} (hf : f.off ∈ incrRegs) : RegsKept incrRegs s (t.incrRefused f) :=
  ((h.time _).setF f 1 hf).showIncr _ (by simp [incrRegs]) (by simp [incrRegs])

theorem State.incrCommit_frame (s : State) (hi : Word) :
    Keeps [.regs, .time] s (s.incrCommit hi) ∧ RegsKept incrRegs s (s.incrCommit hi) := by
  cases hp : s.time.incrPend with
  | some p =>
    rw [State.incrCommit_busy (by simp [hp])]
    have hk := Keeps.refl [.regs, .time] s
    have hr := RegsKept.refl incrRegs s
    split
    · exact ⟨State.incrRefused_keeps hk _, State.incrRefused_regsKept hr (by decide)⟩
    · exact ⟨State.incrRefused_keeps (hk.setF _ 1 (by simp)) _, State.incrRefused_regsKept (hr.setF _ 1 (by decide)) (by decide)⟩
  | none =>
    cases hv : incrOk (s.incrAsked hi) with
    | false =>
      rw [State.incrCommit_bad hp hv]
      exact ⟨State.incrRefused_keeps (Keeps.refl _ s) _, State.incrRefused_regsKept (RegsKept.refl _ s) (by decide)⟩
    | true =>
      rw [State.incrCommit_taken hp hv]
      exact ⟨(((Keeps.refl _ s).time _ (by simp)).setF _ _ (by simp)).showIncr _ (by simp),
        (((RegsKept.refl _ s).time _).setF _ _ (by decide)).showIncr _ (by decide) (by decide)⟩

theorem State.incrRefused_bit (s : State) {f : Fld} (hf : f.off = R.TIME_STATUS) (hw : f.lo + f.width ≤ 32 ∧ f.width = 1) :
    (s.incrRefused f).bit f = true :=
  (State.bit_showIncr _ _ f hf).trans (bit_setF_one _ f hw)

/-- INCR_COMMIT while another commit waits: refused as busy, and as out of range too where it is. -/
theorem State.incrCommit_busy_result {hi : Word} (hp : s.time.incrPend.isSome = true) :
    (s.incrCommit hi).time = { s.time with loUse := true, hiUse := true } ∧
      (s.incrCommit hi).bit F.TIME_STATUS_INCR_BUSY = true ∧
      (incrOk (s.incrAsked hi) = false → (s.incrCommit hi).bit F.TIME_STATUS_INCR_ERR = true) ∧
      (s.incrCommit hi).rd R.TIME_INCR_LO = lo32 s.incrNow ∧ (s.incrCommit hi).rd R.TIME_INCR_HI = hi32 s.incrNow := by
  rw [State.incrCommit_busy hp]
  refine ⟨?_, State.incrRefused_bit _ rfl (by decide), fun hv => ?_, ?_⟩
  · split <;> rfl
  · rw [if_neg (by simp [hv])]
    refine (State.bit_showIncr _ _ _ rfl).trans ((bit_setF_other _ _ _ _ (by decide) (by decide)).trans ?_)
    exact bit_setF_one s _ (by decide)
  · split <;> exact State.rd_showIncr _ _

theorem State.incrCommit_bad_result {hi : Word} (hp : s.time.incrPend = none) (hv : incrOk (s.incrAsked hi) = false) :
    (s.incrCommit hi).time = { s.time with loUse := true, hiUse := true } ∧
      (s.incrCommit hi).bit F.TIME_STATUS_INCR_ERR = true ∧
      (s.incrCommit hi).rd R.TIME_INCR_LO = lo32 s.incrNow ∧ (s.incrCommit hi).rd R.TIME_INCR_HI = hi32 s.incrNow := by
  rw [State.incrCommit_bad hp hv]
  exact ⟨rfl, State.incrRefused_bit _ rfl (by decide), State.rd_showIncr _ _⟩

theorem State.incrCommit_taken_result {hi : Word} (hp : s.time.incrPend = none) (hv : incrOk (s.incrAsked hi) = true) :
    (s.incrCommit hi).time = { s.time with incrPend := some (s.incrAsked hi, s.tick), loUse := false, hiUse := false } ∧
      (s.incrCommit hi).bit F.TIME_STATUS_INCR_PENDING = true ∧
      (s.incrCommit hi).rd R.TIME_INCR_LO = s.rd R.TIME_INCR_LO ∧ (s.incrCommit hi).rd R.TIME_INCR_HI = hi := by
  rw [State.incrCommit_taken hp hv]
  exact ⟨rfl, (State.bit_showIncr _ _ _ rfl).trans (bit_setF_one _ _ (by decide)), (State.rd_showIncr _ _).1.trans (lo32_join64 _ _),
    (State.rd_showIncr _ _).2.trans (hi32_join64 _ _)⟩

end IncrCommit

/-! ### O7 -/

/-- Settles O7: a commit is one of `incrCommit_busy`, `incrCommit_bad` and `incrCommit_taken`. -/
theorem incrCommitResult : Obligations.IncrCommitResult := by
  unfold Obligations.IncrCommitResult
  refine ⟨incrOk_iff, fun id hi s hg => ?_⟩
  obtain ⟨hkeeps, hregs⟩ := s.incrCommit_frame hi
  exact gated_next hi hg (by decide) ⟨(hkeeps.mono (by decide)).bpReg _ _ _ (by simp), hregs.bpReg _ _ _,
    State.incrCommit_busy_result, State.incrCommit_bad_result, State.incrCommit_taken_result⟩

/-! ### INCR_REBASE -/

section

variable {s : State} {v k : Nat}

/-- The time base as a rebase to `v` at tick k + 1 leaves it. -/
def TimeState.rebased (t : TimeState) (v k : Nat) : TimeState :=
  { t with tBase := t.at (BitVec.ofNat 64 (k + 1)), frcBase := BitVec.ofNat 64 (k + 1), incr := v, incrPend := none }

/-- A rebase that is due and goes ahead. -/
theorem State.incrRebase_eq (hp : s.time.incrPend = some (v, k)) (hk : k < s.tick) (hf : s.stepDue = true → s.time.stepFirst = false) :
    s.incrRebase =
      let u := ({ s with time := s.time.rebased v k }).setF F.TIME_STATUS_INCR_PENDING 0
      let w := if s.time.loUse then u.wr R.TIME_INCR_LO (lo32 v) else u
      if s.time.hiUse then w.wr R.TIME_INCR_HI (hi32 v) else w := by
  have hdue : s.time.isDue k = true := by simpa [TimeState.isDue, State.tick] using hk
  have hgo : (s.time.isDue k && !(s.stepDue && s.time.stepFirst)) = true := by
    cases hd : s.stepDue <;> simp_all
  have htake : s.time.takeIncr = s.time.rebased v k := by
    simp only [TimeState.takeIncr, hp, hdue, if_true, TimeState.baseAt, TimeState.rebased]
  have hlo (c : State) (hc : c.time = s.time.rebased v k) : c.time.loUse = s.time.loUse ∧ c.time.hiUse = s.time.hiUse := by
    rw [hc]; exact ⟨rfl, rfl⟩
  unfold State.incrRebase
  simp only [hp, hgo, htake, if_true]
  split <;> rename_i h <;> rw [(hlo _ rfl).1] at h <;> simp only [h, if_true, if_false, Bool.false_eq_true] <;> rfl

theorem State.incrRebase_regsKept (s : State) : RegsKept [R.TIME_STATUS, R.TIME_INCR_LO, R.TIME_INCR_HI] s s.incrRebase := by
  have hrefl := RegsKept.refl [R.TIME_STATUS, R.TIME_INCR_LO, R.TIME_INCR_HI] s
  have htake := (hrefl.time s.time.takeIncr).setF F.TIME_STATUS_INCR_PENDING 0 (by decide)
  unfold State.incrRebase
  split
  · exact hrefl
  · split
    · dsimp only
      split <;> split
      · exact (htake.wr _ _ (by decide)).wr _ _ (by decide)
      · exact htake.wr _ _ (by decide)
      · exact htake.wr _ _ (by decide)
      · exact htake
    · exact hrefl

/-- What a rebase that goes ahead shows in the registers of INCR. -/
theorem State.incrRebase_shows (hp : s.time.incrPend = some (v, k)) (hk : k < s.tick)
    (hf : s.stepDue = true → s.time.stepFirst = false) :
    s.incrRebase.time = s.time.rebased v k ∧ s.incrRebase.bit F.TIME_STATUS_INCR_PENDING = false ∧
      s.incrRebase.rd R.TIME_INCR_LO = (if s.time.loUse then lo32 v else s.rd R.TIME_INCR_LO) ∧
      s.incrRebase.rd R.TIME_INCR_HI = (if s.time.hiUse then hi32 v else s.rd R.TIME_INCR_HI) := by
  rw [State.incrRebase_eq hp hk hf]
  have hflag : (({ s with time := s.time.rebased v k } : State).setF F.TIME_STATUS_INCR_PENDING 0).bit F.TIME_STATUS_INCR_PENDING = false :=
    bit_setF_zero _ _ (by decide)
  have hrd : ∀ off, off ≠ R.TIME_STATUS →
      (({ s with time := s.time.rebased v k } : State).setF F.TIME_STATUS_INCR_PENDING 0).rd off = s.rd off :=
    fun off h => rd_setF_other _ _ _ _ h
  generalize hu : (({ s with time := s.time.rebased v k } : State).setF F.TIME_STATUS_INCR_PENDING 0) = u at hflag hrd ⊢
  have htime : u.time = s.time.rebased v k := by rw [← hu]; rfl
  have hlo : R.TIME_INCR_LO ≠ R.TIME_INCR_HI := by decide
  have hst : F.TIME_STATUS_INCR_PENDING.off ≠ R.TIME_INCR_LO ∧ F.TIME_STATUS_INCR_PENDING.off ≠ R.TIME_INCR_HI := by decide
  have hlo' := hrd R.TIME_INCR_LO (by decide)
  have hhi' := hrd R.TIME_INCR_HI (by decide)
  cases s.time.loUse <;> cases s.time.hiUse <;>
    simp [htime, hflag, hlo', hhi', rd_wr_other, hlo, hlo.symm, bit_wr_other, hst]

/-- T is continuous at the tick of a rebase. -/
theorem TimeState.rebased_at (t : TimeState) (v k : Nat) :
    (t.rebased v k).at (BitVec.ofNat 64 (k + 1)) = t.at (BitVec.ofNat 64 (k + 1)) := by
  simp [TimeState.rebased, TimeState.at]

/-- What the tick's evaluations see of the time base does not change as the rebase is applied (R37). -/
theorem TimeState.due_rebased {t : TimeState} (hp : t.incrPend = some (v, k)) (hk : k < t.frc.toNat) 
    (hf : (∃ z i, t.stepPend = some (z, i) ∧ i < t.frc.toNat) → t.stepFirst = false) : (t.rebased v k).due = t.due := by
  have htake : t.takeIncr = t.rebased v k := by
    simp only [TimeState.takeIncr, hp, TimeState.isDue, hk, decide_true, if_true, TimeState.baseAt, TimeState.rebased]
  have hnone : (t.rebased v k).incrPend = none := rfl
  have hdue : (t.rebased v k).due = t.takeIncr.takeStep := by
    rw [TimeState.due, TimeState.stepFirst_of_incrPend_none hnone, TimeState.takeIncr_of_incrPend_none hnone, htake]
    rfl
  cases hs : t.stepFirst with
  | false => rw [hdue, TimeState.due, hs]; rfl
  | true =>
    have hnot : t.takeStep = t := by
      cases hz : t.stepPend with
      | none => simp [TimeState.takeStep, hz]
      | some p =>
        obtain ⟨z, i⟩ := p
        by_cases hi : i < t.frc.toNat
        · rw [hf ⟨z, i, hz, hi⟩] at hs; cases hs
        · simp [TimeState.takeStep, hz, TimeState.isDue, hi]
    have hnot' : t.takeIncr.takeStep = t.takeIncr := by
      cases hz : t.stepPend with
      | none => simp [TimeState.takeStep, t.takeIncr_stepPend, hz]
      | some p =>
        obtain ⟨z, i⟩ := p
        by_cases hi : i < t.frc.toNat
        · rw [hf ⟨z, i, hz, hi⟩] at hs; cases hs
        · have : ¬ i < t.takeIncr.frc.toNat := by rw [htake]; exact hi
          simp [TimeState.takeStep, t.takeIncr_stepPend, hz, TimeState.isDue, this]
    rw [hdue, hnot', TimeState.due, hs, if_pos rfl, hnot]

end

/-! ### O8 -/

/-- Settles O8: a rebase that goes ahead makes the time base `TimeState.rebased`, which every evaluation of the tick already saw. -/
theorem incrRebaseContinuous : Obligations.IncrRebaseContinuous := by
  unfold Obligations.IncrRebaseContinuous
  intro s v k hp hk hf
  obtain ⟨htime, hpend, hlo, hhi⟩ := State.incrRebase_shows hp hk hf
  have hfirst : (∃ z i, s.time.stepPend = some (z, i) ∧ i < s.time.frc.toNat) → s.time.stepFirst = false := by
    rintro ⟨z, i, hz, hi⟩
    exact hf (by simp [State.stepDue, hz, TimeState.isDue, hi])
  have hnow : s.incrRebase.now = s.now := by
    rw [State.now, htime, TimeState.due_rebased hp hk hfirst]; rfl
  exact ⟨s.incrRebase, rfl, s.incrRebase_keeps, htime, by rw [htime]; exact s.time.rebased_at v k, hnow, hpend, hlo, hhi,
    s.incrRebase_regsKept⟩

end Sys2Proof.Machine
end

section
/-!
SUPPORT. Compare units (R40-R47): arming, disarming and the load of a qualified unit.
-/

namespace Sys2Proof.Machine

/-! ### The control registers of a unit -/

theorem tcuCtrl_ne_tcuStatus (n : Nat) : R.TIME_TCU_CTRL n ≠ R.TIME_TCU_STATUS n := by simp [R.TIME_TCU_CTRL, R.TIME_TCU_STATUS]

theorem tcuFires_ne_tcuCtrl (n : Nat) : R.TIME_TCU_FIRES n ≠ R.TIME_TCU_CTRL n := by simp [R.TIME_TCU_FIRES, R.TIME_TCU_CTRL]

theorem tcuFires_ne_tcuStatus (n : Nat) : R.TIME_TCU_FIRES n ≠ R.TIME_TCU_STATUS n := by simp [R.TIME_TCU_FIRES, R.TIME_TCU_STATUS]

theorem tcuCtrl_ne_applyCtrl : ∀ n : Fin 16, R.TIME_TCU_CTRL n ≠ R.HIF_APPLY_CTRL := by decide

theorem mntLate_ne_tcuRegs : ∀ n : Fin 16, R.MNT_LATE ≠ R.TIME_TCU_CTRL n ∧ R.MNT_LATE ≠ R.TIME_TCU_STATUS n := by decide

section

variable {fs : List Field} {l : List Nat} {s t : State} {n : Nat}

theorem Keeps.tcuState (h : Keeps fs s t) (st : Nat) (hm : Field.regs ∈ fs) : Keeps fs s (t.tcuState n st) := (h.setF _ _ hm).setB _ _ hm

theorem RegsKept.tcuState (h : RegsKept l s t) (st : Nat) (hm : R.TIME_TCU_CTRL n ∈ l) : RegsKept l s (t.tcuState n st) :=
  (h.setF (F.TIME_TCU_CTRL_STATE n) st hm).setB (F.TIME_TCU_CTRL_ARM n) _ hm

theorem Keeps.tcuOff (h : Keeps fs s t) (hm : Field.regs ∈ fs) (hm' : Field.time ∈ fs) : Keeps fs s (t.tcuOff n) :=
  (h.tcuState 0 hm).updTcu _ _ hm'

theorem RegsKept.tcuOff (h : RegsKept l s t) (hm : R.TIME_TCU_CTRL n ∈ l) : RegsKept l s (t.tcuOff n) := (h.tcuState 0 hm).updTcu _ _

theorem Keeps.tcuCtrl (h : Keeps fs s t) (v : Word) (hm : Field.regs ∈ fs) : Keeps fs s (t.tcuCtrl n v) := h.wr _ _ hm

theorem RegsKept.tcuCtrl (h : RegsKept l s t) (v : Word) (hm : R.TIME_TCU_CTRL n ∈ l) : RegsKept l s (t.tcuCtrl n v) := h.wr _ _ hm

end

theorem State.tcuState_state (s : State) (n : Nat) {st : Nat} (hst : st < 4) :
    (s.tcuState n st).getF (F.TIME_TCU_CTRL_STATE n) = st :=
  calc (s.tcuState n st).getF (F.TIME_TCU_CTRL_STATE n)
      = (s.setF (F.TIME_TCU_CTRL_STATE n) st).getF (F.TIME_TCU_CTRL_STATE n) :=
        getF_setB_other _ _ _ _ (by simp [F.TIME_TCU_CTRL_ARM]) (by simp [F.TIME_TCU_CTRL_ARM, F.TIME_TCU_CTRL_STATE])
    _ = st % 2 ^ 2 := getF_setF_same _ _ _ (by simp [F.TIME_TCU_CTRL_STATE])
    _ = st := Nat.mod_eq_of_lt hst

theorem State.tcuState_armBit (s : State) (n st : Nat) : (s.tcuState n st).bit (F.TIME_TCU_CTRL_ARM n) = (st != 0) :=
  bit_setB_same _ _ _ (by simp [F.TIME_TCU_CTRL_ARM])

theorem State.tcuOff_state (s : State) (n : Nat) : (s.tcuOff n).getF (F.TIME_TCU_CTRL_STATE n) = 0 :=
  (State.updTcu_getF ..).trans (s.tcuState_state n (by decide))

theorem State.tcuOff_armBit (s : State) (n : Nat) : (s.tcuOff n).bit (F.TIME_TCU_CTRL_ARM n) = false :=
  (State.updTcu_bit ..).trans (s.tcuState_armBit n 0)

/-- A unit in state `st` with the entry changed by `g`. -/
theorem State.tcuState_updTcu_reads (s : State) (n : Nat) (g : Tcu → Tcu) {st : Nat} (hst : st < 4) :
    ((s.tcuState n st).updTcu n g).getF (F.TIME_TCU_CTRL_STATE n) = st ∧
      ((s.tcuState n st).updTcu n g).bit (F.TIME_TCU_CTRL_ARM n) = (st != 0) :=
  ⟨(State.updTcu_getF ..).trans (s.tcuState_state n hst), (State.updTcu_bit ..).trans (s.tcuState_armBit n st)⟩

/-! ### TCU_ARM -/

/-- A periodic arming without QUAL (R44). -/
def TcuArm.modeErr (a : TcuArm) : Prop := a.src = 0 ∧ a.periodic = true ∧ a.qual = false

/-- The target of a unit that is LOADED as it is armed: the short target, or on a legacy time base the full one or the first boundary of the
train (R44, R53). -/
def State.armTarget (s : State) (a : TcuArm) : Nat :=
  if a.src = 0 then s.shortTarget a else if a.periodic then firstBoundary a.full a.period (s.launchTime a.src) else a.full

section

variable {s : State} {n : Nat} {a : TcuArm}

theorem State.tcuArmNow_modeErr (ha : a = s.tcuParams n) (hm : a.modeErr) :
    s.tcuArmNow n = (s.tcuOff n).setF (F.TIME_TCU_STATUS_MODE_ERR n) 1 := by
  obtain ⟨hsrc, hper, hqual⟩ := hm
  subst ha
  exact if_pos ⟨hsrc, hper, by rw [hqual]; rfl⟩

theorem State.tcuArmNow_paramErr (ha : a = s.tcuParams n) (hm : ¬ a.modeErr) (hb : s.tcuBad n a = true) :
    s.tcuArmNow n = (s.tcuOff n).setF (F.TIME_TCU_STATUS_PARAM_ERR n) 1 := by
  subst ha
  refine (if_neg fun h => hm ?_).trans (if_pos hb)
  exact ⟨h.1, h.2.1, by simpa using h.2.2⟩

/-- An arming whose parameters pass. -/
theorem State.tcuArmNow_good (ha : a = s.tcuParams n) (hm : ¬ a.modeErr) (hb : s.tcuBad n a = false) :
    s.tcuArmNow n = if a.src = 0 ∧ a.qual = true
      then (s.tcuState n 1).updTcu n (fun x => { x with arm := some a, target := a.full, high := 0 })
      else (s.tcuState n 2).updTcu n (fun x => { x with arm := some a, target := s.armTarget a, high := 0 }) := by
  subst ha
  refine (if_neg fun h => hm ?_).trans (if_neg (by simp [hb]))
  exact ⟨h.1, h.2.1, by simpa using h.2.2⟩

theorem State.tcuArmNow_qualify (ha : a = s.tcuParams n) (hs : a.src = 0) (hq : a.qual = true) (hb : s.tcuBad n a = false) :
    s.tcuArmNow n = (s.tcuState n 1).updTcu n (fun x => { x with arm := some a, target := a.full, high := 0 }) :=
  (State.tcuArmNow_good ha (fun h => by rw [h.2.2] at hq; cases hq) hb).trans (if_pos ⟨hs, hq⟩)

theorem State.tcuArmNow_load (ha : a = s.tcuParams n) (hm : ¬ a.modeErr) (hq : ¬ (a.src = 0 ∧ a.qual = true)) (hb : s.tcuBad n a = false) :
    s.tcuArmNow n = (s.tcuState n 2).updTcu n (fun x => { x with arm := some a, target := s.armTarget a, high := 0 }) :=
  (State.tcuArmNow_good ha hm hb).trans (if_neg hq)

/-- The registers of unit `n` that an arming writes. -/
def armRegs (n : Nat) : List Nat := [R.TIME_TCU_CTRL n, R.TIME_TCU_STATUS n]

/-- What an arming leaves as it is: all but the unit and its control and status registers. -/
theorem State.tcuArmNow_frame (s : State) (n : Nat) :
    Keeps [.regs, .time] s (s.tcuArmNow n) ∧ RegsKept (armRegs n) s (s.tcuArmNow n) ∧
      (s.tcuArmNow n).time = { s.time with tcus := (s.tcuArmNow n).time.tcus } := by
  have hk := Keeps.refl [.regs, .time] s
  have hr := RegsKept.refl (armRegs n) s
  have hc : R.TIME_TCU_CTRL n ∈ armRegs n := List.mem_cons_self
  have hst : R.TIME_TCU_STATUS n ∈ armRegs n := List.mem_cons_of_mem _ List.mem_cons_self
  by_cases hm : (s.tcuParams n).modeErr
  · rw [State.tcuArmNow_modeErr rfl hm]
    exact ⟨(hk.tcuOff (by simp) (by simp)).setF _ _ (by simp), (hr.tcuOff hc).setF (F.TIME_TCU_STATUS_MODE_ERR n) _ hst, rfl⟩
  cases hb : s.tcuBad n (s.tcuParams n) with
  | true =>
    rw [State.tcuArmNow_paramErr rfl hm hb]
    exact ⟨(hk.tcuOff (by simp) (by simp)).setF _ _ (by simp), (hr.tcuOff hc).setF (F.TIME_TCU_STATUS_PARAM_ERR n) _ hst, rfl⟩
  | false =>
    rw [State.tcuArmNow_good rfl hm hb]
    split <;> exact ⟨(hk.tcuState _ (by simp)).updTcu _ _ (by simp), (hr.tcuState _ hc).updTcu _ _, rfl⟩

/-- A unit switched off with the status flag `f` set. -/
theorem State.tcuOff_setF_reads (s : State) (n : Nat) {f : Fld} (hf : f.off = R.TIME_TCU_STATUS n)
    (hw : f.lo + f.width ≤ 32 ∧ f.width = 1) :
    ((s.tcuOff n).setF f 1).bit f = true ∧ ((s.tcuOff n).setF f 1).getF (F.TIME_TCU_CTRL_STATE n) = 0 :=
  ⟨bit_setF_one _ _ hw, (getF_setF_other _ _ _ _ hw.1 (.inl (by rw [hf]; exact tcuCtrl_ne_tcuStatus n))).trans (s.tcuOff_state n)⟩

theorem State.src_le_of_tcuBad_false (hb : s.tcuBad n a = false) : a.src ≤ 4 := by
  simp only [State.tcuBad, Bool.or_eq_false_iff, decide_eq_false_iff_not] at hb
  omega

/-- The increments of legacy time bases are no register of a unit's control. -/
theorem State.launchTime_tcuCtrl (s : State) (n : Fin 16) (v : Word) {src : Nat} (hs : src ≤ 4) :
    (s.tcuCtrl n v).launchTime src = s.launchTime src := by
  have hoff : (F.TIME_TB_INCR_INCR (src - 1)).off ≠ R.TIME_TCU_CTRL n := by
    simp only [F.TIME_TB_INCR_INCR, R.TIME_TB_INCR, R.TIME_TCU_CTRL]
    omega
  have hincr : (s.tcuCtrl n v).srcIncr src = s.srcIncr src := by
    rw [State.srcIncr, State.tbIncr, State.tcuCtrl, getF_wr_other _ _ _ _ hoff]; rfl
  rw [State.launchTime, hincr]; rfl

end

/-! ### O10 -/

/-- What O10 says of the unit that is armed, for the parameters `a` read from `s` and the state `t` after the arming. -/
theorem State.tcuArmNow_result (s : State) (n : Nat) (a : TcuArm) (ha : a = s.tcuParams n) :
    (a.modeErr → (s.tcuArmNow n).bit (F.TIME_TCU_STATUS_MODE_ERR n) = true ∧ (s.tcuArmNow n).getF (F.TIME_TCU_CTRL_STATE n) = 0 ∧
      (s.tcuArmNow n).time.tcus = updAt (fun x => { x with arm := none }) s.time.tcus n) ∧
    (¬ a.modeErr → s.tcuBad n a = true → (s.tcuArmNow n).bit (F.TIME_TCU_STATUS_PARAM_ERR n) = true ∧
      (s.tcuArmNow n).getF (F.TIME_TCU_CTRL_STATE n) = 0 ∧
      (s.tcuArmNow n).time.tcus = updAt (fun x => { x with arm := none }) s.time.tcus n) ∧
    (a.src = 0 → a.qual = true → s.tcuBad n a = false → (s.tcuArmNow n).getF (F.TIME_TCU_CTRL_STATE n) = 1 ∧
      (s.tcuArmNow n).bit (F.TIME_TCU_CTRL_ARM n) = true ∧
      (s.tcuArmNow n).time.tcus = updAt (fun x => { x with arm := some a, target := a.full, high := 0 }) s.time.tcus n) ∧
    (¬ a.modeErr → ¬ (a.src = 0 ∧ a.qual = true) → s.tcuBad n a = false → (s.tcuArmNow n).getF (F.TIME_TCU_CTRL_STATE n) = 2 ∧
      (s.tcuArmNow n).bit (F.TIME_TCU_CTRL_ARM n) = true ∧
      (s.tcuArmNow n).time.tcus = updAt (fun x => { x with arm := some a, target := s.armTarget a, high := 0 }) s.time.tcus n) := by
  refine ⟨fun hm => ?_, fun hm hb => ?_, fun hs hq hb => ?_, fun hm hq hb => ?_⟩
  · rw [State.tcuArmNow_modeErr ha hm]
    obtain ⟨hbit, hst⟩ := s.tcuOff_setF_reads n (f := F.TIME_TCU_STATUS_MODE_ERR n) rfl (by simp [F.TIME_TCU_STATUS_MODE_ERR])
    exact ⟨hbit, hst, rfl⟩
  · rw [State.tcuArmNow_paramErr ha hm hb]
    obtain ⟨hbit, hst⟩ := s.tcuOff_setF_reads n (f := F.TIME_TCU_STATUS_PARAM_ERR n) rfl (by simp [F.TIME_TCU_STATUS_PARAM_ERR])
    exact ⟨hbit, hst, rfl⟩
  · rw [State.tcuArmNow_qualify ha hs hq hb]
    obtain ⟨hst, harm⟩ := s.tcuState_updTcu_reads n (fun x => { x with arm := some a, target := a.full, high := 0 }) (st := 1) (by decide)
    exact ⟨hst, harm, rfl⟩
  · rw [State.tcuArmNow_load ha hm hq hb]
    obtain ⟨hst, harm⟩ := s.tcuState_updTcu_reads n (fun x => { x with arm := some a, target := s.armTarget a, high := 0 }) (st := 2)
      (by decide)
    exact ⟨hst, harm, rfl⟩

/-- Settles O10: the write of TIME_TCU_CTRL moves no parameter that the arming compares with time, and the arming is one of the four cases of
`tcuArmNow_result`. -/
theorem tcuArmResult : Obligations.TcuArmResult := by
  unfold Obligations.TcuArmResult
  intro id n ctrl s hg
  obtain ⟨hkeeps, hregs, htime⟩ := (s.tcuCtrl n ctrl).tcuArmNow_frame n
  have hk := ((Keeps.refl [.regs, .time] s).tcuCtrl (n := n) ctrl (by simp)).trans hkeeps
  have hr := ((RegsKept.refl (armRegs n) s).tcuCtrl ctrl List.mem_cons_self).trans hregs
  have hoff := tcuCtrl_ne_applyCtrl n
  refine gated_next _ hg hoff ⟨(hk.mono (by decide)).bpReg _ _ _ (by simp), htime, hr.bpReg _ _ _, fun a ha => ?_⟩
  obtain ⟨hmode, hparam, hqual, hload⟩ := (s.tcuCtrl n ctrl).tcuArmNow_result n a ha
  refine ⟨hmode, hparam, hqual, fun hs hq hp hb => ?_, fun hs hp hb => ?_, fun hs hp hb => ?_⟩
  · obtain ⟨hst, harm, htcus⟩ := hload (fun h => by simp [h.2.1] at hp) (fun h => by simp [h.2] at hq) hb
    refine ⟨hst, harm, htcus.trans ?_⟩
    rw [State.armTarget, if_pos hs]; rfl
  · obtain ⟨hst, harm, htcus⟩ := hload (fun h => hs h.1) (fun h => hs h.1) hb
    refine ⟨hst, harm, htcus.trans ?_⟩
    rw [State.armTarget, if_neg hs, hp]; rfl
  · obtain ⟨hst, harm, htcus⟩ := hload (fun h => hs h.1) (fun h => hs h.1) hb
    refine ⟨hst, harm, htcus.trans ?_⟩
    rw [State.armTarget, if_neg hs, hp, State.launchTime_tcuCtrl s n ctrl (State.src_le_of_tcuBad_false hb)]; rfl

/-! ### O11 -/

/-- A firing of the unit has been decided and has not launched before this tick (R42). -/
def State.firingOut (s : State) (n : Nat) : Bool :=
  (s.tcu n).fires.any (fun x => decide (x.decision ≤ s.tick) && decide (s.tick ≤ x.launch))

theorem State.firingOut_iff (s : State) (n : Nat) :
    s.firingOut n = true ↔ ∃ x ∈ (s.tcu n).fires, x.decision ≤ s.tick ∧ s.tick ≤ x.launch := by
  simp [State.firingOut]

theorem State.tcuDisarm_eq (s : State) (n : Nat) (v : Word) :
    s.tcuDisarm n v =
      (if s.firingOut n then (s.tcuCtrl n v).late (F.TIME_TCU_STATUS_DISARM_LATE n) else s.tcuCtrl n v).tcuOff n := rfl

/-- Settles O11: a disarm is late where a firing is out, and ends in `State.tcuOff` either way. -/
theorem tcuDisarmResult : Obligations.TcuDisarmResult := by
  unfold Obligations.TcuDisarmResult
  intro id n ctrl s hg
  have hoff := tcuCtrl_ne_applyCtrl n
  have hmnt := mntLate_ne_tcuRegs n
  have hctrl := tcuCtrl_ne_tcuStatus n
  have hk := (Keeps.refl [.regs, .time, .dbg] s).tcuCtrl (n := n) ctrl (by simp)
  have hr := (RegsKept.refl [R.TIME_TCU_CTRL n, R.TIME_TCU_STATUS n, R.MNT_LATE] s).tcuCtrl (n := n) ctrl (by simp)
  have hoffKept (u : State) : RegsKept [R.TIME_TCU_CTRL n] u (u.tcuOff n) := (RegsKept.refl _ u).tcuOff List.mem_cons_self
  have hctrlKept : RegsKept [R.TIME_TCU_CTRL n] s (s.tcuCtrl n ctrl) := (RegsKept.refl _ s).tcuCtrl ctrl List.mem_cons_self
  refine gated_next _ hg hoff ?_
  rw [State.tcuDisarm_eq]
  cases hout : s.firingOut n with
  | true =>
    rw [if_pos rfl]
    have hlate := (s.firingOut_iff n).mp hout
    refine ⟨((hk.late _ (by simp)).tcuOff (by simp) (by simp)).bpReg _ _ _ (by simp), rfl,
      ((hr.late (F.TIME_TCU_STATUS_DISARM_LATE n) (by simp [F.TIME_TCU_STATUS_DISARM_LATE]) (by simp)).tcuOff (by simp)).bpReg _ _ _,
      (State.bpReg_getF ..).trans (State.tcuOff_state _ _), (State.bpReg_bit ..).trans (State.tcuOff_armBit _ _), fun _ => ⟨?_, ?_⟩, fun hno => absurd hlate (by simpa using hno)⟩
    · rw [State.bpReg_bit, (hoffKept _).bit _ (by simpa [F.TIME_TCU_STATUS_DISARM_LATE] using hctrl.symm)]
      exact (bit_bump_other _ _ _ (by decide) (.inl hmnt.2.symm)).trans
        (bit_setF_one _ _ (by simp [F.TIME_TCU_STATUS_DISARM_LATE]))
    · rw [State.bpReg_getF, (hoffKept _).getF _ (by simpa [F.MNT_LATE_COUNT] using hmnt.1)]
      refine (getF_bump_same _ _ (by decide)).trans ?_
      rw [getF_setF_other _ _ _ _ (by simp [F.TIME_TCU_STATUS_DISARM_LATE]) (.inl hmnt.2),
        hctrlKept.getF _ (by simpa [F.MNT_LATE_COUNT] using hmnt.1)]
      rfl
  | false =>
    rw [if_neg (by simp)]
    have hno : ¬ ∃ x ∈ (s.tcu n).fires, x.decision ≤ s.tick ∧ s.tick ≤ x.launch := by rw [← s.firingOut_iff n, hout]; simp
    have hkept := hctrlKept.trans (hoffKept (s.tcuCtrl n ctrl))
    exact ⟨(hk.tcuOff (by simp) (by simp)).bpReg _ _ _ (by simp), rfl, (hr.tcuOff (by simp)).bpReg _ _ _,
      (State.bpReg_getF ..).trans (State.tcuOff_state _ _), (State.bpReg_bit ..).trans (State.tcuOff_armBit _ _), fun h => absurd h hno,
      fun _ => ⟨(State.bpReg_rd ..).trans (hkept _ (by simpa using hctrl.symm)), (State.bpReg_rd ..).trans (hkept _ (by simpa using hmnt.1))⟩⟩

/-! ### O12 -/

/-- The first boundary of a train after a time lies ahead of it. -/
theorem lt_firstBoundary (o t : Nat) {p : Nat} (hp : 0 < p) : t < firstBoundary o p t := by
  unfold firstBoundary
  split
  · assumption
  · next h =>
    rw [max_eq_right hp]
    have := Nat.lt_div_mul_add (a := t - o) hp
    rw [Nat.add_mul]
    omega

theorem firstBoundary_mem (o p t : Nat) : ∃ j, firstBoundary o p t = o + j * p := by
  unfold firstBoundary
  split
  · exact ⟨0, by simp⟩
  · exact ⟨_, rfl⟩

/-- It is the least boundary that does. -/
theorem firstBoundary_le (o t j : Nat) {p : Nat} (hp : 0 < p) (h : t < o + j * p) : firstBoundary o p t ≤ o + j * p := by
  unfold firstBoundary
  split
  · omega
  · next ho =>
    rw [max_eq_right hp]
    have hj : (t - o) / p < j := (Nat.div_lt_iff_lt_mul hp).mpr (by omega)
    have := Nat.mul_le_mul_right p hj
    rw [Nat.succ_eq_add_one] at this
    omega

theorem State.tcuLoad_eq {s : State} {n : Nat} {a : TcuArm} (harm : (s.tcu n).arm = some a)
    (hst : s.getF (F.TIME_TCU_CTRL_STATE n) = 1) (hdue : s.stepDue = false) {b : Nat}
    (hb : b = if a.periodic then max (firstBoundary a.full a.period (s.launchTime 0)) (s.tcu n).target else a.full)
    (hle : b ≤ s.now + 2 * secU) : s.tcuLoad n = (s.tcuState n 2).updTcu n (fun x => { x with target := b }) := by
  rw [State.tcuLoad, harm]
  exact (if_pos ⟨hst, hdue⟩).trans (by rw [← hb]; exact if_pos hle)

/-- Settles O12: the arithmetic of the first boundary, and the load of a unit whose target is near. -/
theorem tcuQualifyLoads : Obligations.TcuQualifyLoads := by
  unfold Obligations.TcuQualifyLoads
  refine ⟨fun o p t hp => ⟨lt_firstBoundary o t hp, firstBoundary_mem o p t, fun j => firstBoundary_le o t j hp⟩,
    fun n s a b harm hst hdue hb hle => ⟨s.tcuLoad n, rfl, ?_⟩⟩
  rw [State.tcuLoad_eq harm hst hdue hb hle]
  exact ⟨((Keeps.refl _ s).tcuState 2 (by simp)).updTcu _ _ (by simp), rfl, (State.updTcu_getF ..).trans (s.tcuState_state n (by decide)),
    ((RegsKept.refl _ s).tcuState 2 (by simp)).updTcu _ _⟩

end Sys2Proof.Machine
end

section
/-!
SUPPORT. Decisions of compare units (R40, R41, R44, R45): the firing that a decision notes, and what it comes to.
-/

namespace Sys2Proof.Machine

theorem Keeps.bpNote {fs : List Field} {s t : State} (h : Keeps fs s t) (y : Nat) (sel : Nat → Bool) (v : Nat) (e : Option Nat)
    (hm : Field.dbg ∈ fs) : Keeps fs s (t.bpNote y sel v e) :=
  h.dbg _ hm

/-! ### TCU_DECISION -/

/-- What a decision notes in the entry of its unit: the firing, and the next boundary of a train. -/
def Tcu.decided (x : Tcu) (tick period : Nat) (f : TcuFire) : Tcu :=
  { x with
    target := x.target + period
    high := max x.high (x.target + period)
    fires := x.fires.filter (fun z => !z.launched || decide (tick ≤ z.launch)) ++ [f] }

/-- The firing is noted and counted. -/
def State.fireNoted (s : State) (n : Nat) (a : TcuArm) (f : TcuFire) : State :=
  let s := s.updTcu n (fun y => y.decided s.tick a.period f)
  (s.bump (F.TIME_TCU_FIRES_FIRES n)).bpNote 4 (fun b => s.getF (F.DBG_BP_SEL_SEL b) == n) s.tick none

/-- The status of the unit shows the firing; a one-shot is DISARMED. -/
def State.fireShown (s : State) (n : Nat) (a : TcuArm) (late : Bool) : State :=
  let s := if late then s.setF (F.TIME_TCU_STATUS_LATE n) 1 else s
  if a.periodic then s else (s.setF (F.TIME_TCU_STATUS_FIRED n) 1).tcuOff n

/-- The record of the firing. -/
def State.fireRecorded (s : State) (n : Nat) (a : TcuArm) (e : Nat) (late : Bool) : State :=
  if a.evrec then s.emit 0 0x0201 (pw n ++ ptime e ++ pw s.epoch ++ psn s.tick ++ pb late) else s

/-- The hub as a decision hands it to the consumers of the firing. -/
def State.fired (s : State) (n : Nat) (a : TcuArm) (os : List Nat) (late : Bool) (launch v e : Nat) : State :=
  ((s.fireNoted n a ⟨s.tick, launch, v, a.width, os, false⟩).fireShown n a late).fireRecorded n a e late

/-- A decision that is due (R41). -/
theorem State.tcuDecide_eq {s : State} {n : Nat} {a : TcuArm} {os : List Nat} {late : Bool} {launch v e : Nat}
    (harm : (s.tcu n).arm = some a) (hst : s.getF (F.TIME_TCU_CTRL_STATE n) = 2) (hdue : s.stepDue = false)
    (hnear : s.tcuDue a.src (s.tcu n).target = true) (hos : os = if a.tpoAtArm.isEmpty then [] else s.tposOf n)
    (ho : s.tcuOutcome a (s.tcu n).target os = (late, launch, v, e)) :
    s.tcuDecide n = (s.fired n a os late launch v e).tcuConsumers n e late a.wake := by
  unfold State.tcuDecide
  simp only [harm, hst, hdue, hnear, ← hos, ho]
  rfl

section

variable {s : State} {n : Nat} {a : TcuArm}

/-- The registers of unit `n` that a decision writes. -/
def fireRegs (n : Nat) : List Nat := [R.TIME_TCU_CTRL n, R.TIME_TCU_STATUS n, R.TIME_TCU_FIRES n]

theorem epoch_notMem_fireRegs : ∀ n : Fin 16, F.TIME_EPOCH_EPOCH.off ∉ fireRegs n := by decide

theorem State.fireNoted_frame (s : State) (n : Nat) (a : TcuArm) (f : TcuFire) :
    Keeps [.regs, .time, .dbg] s (s.fireNoted n a f) ∧ RegsKept [R.TIME_TCU_FIRES n] s (s.fireNoted n a f) := by
  refine ⟨(((Keeps.refl [.regs, .time, .dbg] s).updTcu n _ (by simp)).bump (F.TIME_TCU_FIRES_FIRES n) (by simp)).bpNote _ _ _ _ (by simp),
    fun off hoff => ?_⟩
  exact (State.bpNote_rd ..).trans ((rd_bump_other _ (F.TIME_TCU_FIRES_FIRES n) _ (by simpa [F.TIME_TCU_FIRES_FIRES] using hoff)).trans
    (State.updTcu_rd ..))

theorem State.fireNoted_count (s : State) (n : Nat) (a : TcuArm) (f : TcuFire) :
    (s.fireNoted n a f).getF (F.TIME_TCU_FIRES_FIRES n) = (s.getF (F.TIME_TCU_FIRES_FIRES n) + 1) % 2 ^ 32 :=
  (State.bpNote_getF ..).trans (getF_bump_same _ _ (by simp [F.TIME_TCU_FIRES_FIRES]))

theorem State.fireNoted_time (s : State) (n : Nat) (a : TcuArm) (f : TcuFire) :
    (s.fireNoted n a f).time = { s.time with tcus := updAt (fun y => y.decided s.tick a.period f) s.time.tcus n } := rfl

theorem State.fireShown_frame (s : State) (n : Nat) (a : TcuArm) (late : Bool) :
    Keeps [.regs, .time] s (s.fireShown n a late) ∧ RegsKept [R.TIME_TCU_CTRL n, R.TIME_TCU_STATUS n] s (s.fireShown n a late) ∧
      (a.periodic = true → RegsKept [R.TIME_TCU_STATUS n] s (s.fireShown n a late)) := by
  have hk := Keeps.refl [.regs, .time] s
  have hr (l : List Nat) := RegsKept.refl l s
  have hlate (l : List Nat) (hl : R.TIME_TCU_STATUS n ∈ l) := (hr l).setF (F.TIME_TCU_STATUS_LATE n) 1 hl
  unfold State.fireShown
  cases late <;> cases a.periodic
  · exact ⟨(hk.setF _ _ (by simp)).tcuOff (by simp) (by simp),
      ((hr _).setF (F.TIME_TCU_STATUS_FIRED n) 1 (by simp [F.TIME_TCU_STATUS_FIRED])).tcuOff (by simp), nofun⟩
  · exact ⟨hk, hr _, fun _ => hr _⟩
  · exact ⟨((hk.setF _ _ (by simp)).setF _ _ (by simp)).tcuOff (by simp) (by simp),
      ((hlate _ (by simp)).setF (F.TIME_TCU_STATUS_FIRED n) 1 (by simp [F.TIME_TCU_STATUS_FIRED])).tcuOff (by simp), nofun⟩
  · exact ⟨hk.setF _ _ (by simp), hlate _ (by simp), fun _ => hlate _ (by simp)⟩

theorem State.tcuOff_regsKept (s : State) (n : Nat) : RegsKept [R.TIME_TCU_CTRL n] s (s.tcuOff n) :=
  (RegsKept.refl _ s).tcuOff List.mem_cons_self

theorem State.tcuOff_statusBit (s : State) (n : Nat) {f : Fld} (hf : f.off = R.TIME_TCU_STATUS n) : (s.tcuOff n).bit f = s.bit f :=
  (s.tcuOff_regsKept n).bit f (by rw [hf]; simpa using (tcuCtrl_ne_tcuStatus n).symm)

/-- LATE, FIRED and STATE after a decision. -/
theorem State.fireShown_status (s : State) (n : Nat) (a : TcuArm) (late : Bool) :
    (late = true → (s.fireShown n a late).bit (F.TIME_TCU_STATUS_LATE n) = true) ∧
      (a.periodic = false → (s.fireShown n a late).bit (F.TIME_TCU_STATUS_FIRED n) = true ∧
        (s.fireShown n a late).getF (F.TIME_TCU_CTRL_STATE n) = 0) := by
  have hlate (u : State) : (u.setF (F.TIME_TCU_STATUS_LATE n) 1).bit (F.TIME_TCU_STATUS_LATE n) = true :=
    bit_setF_one _ _ (by simp [F.TIME_TCU_STATUS_LATE])
  have hfired (u : State) : ((u.setF (F.TIME_TCU_STATUS_FIRED n) 1).tcuOff n).bit (F.TIME_TCU_STATUS_FIRED n) = true :=
    (State.tcuOff_statusBit _ n rfl).trans (bit_setF_one _ _ (by simp [F.TIME_TCU_STATUS_FIRED]))
  have hboth (u : State) : ((u.setF (F.TIME_TCU_STATUS_FIRED n) 1).tcuOff n).bit (F.TIME_TCU_STATUS_LATE n) =
      u.bit (F.TIME_TCU_STATUS_LATE n) :=
    (State.tcuOff_statusBit _ n rfl).trans (bit_setF_other _ _ _ _ (by simp [F.TIME_TCU_STATUS_FIRED])
      (by simp [F.TIME_TCU_STATUS_FIRED, F.TIME_TCU_STATUS_LATE]))
  unfold State.fireShown
  refine ⟨fun hl => ?_, fun hp => ?_⟩
  · cases a.periodic
    · simp only [hl, if_true, Bool.false_eq_true, if_false, hboth, hlate]
    · simp only [hl, if_true, hlate]
  · simp only [hp, Bool.false_eq_true, if_false]
    exact ⟨hfired _, State.tcuOff_state _ _⟩

theorem State.fireShown_tcus (s : State) (n : Nat) (a : TcuArm) (late : Bool) :
    (s.fireShown n a late).time =
      { s.time with tcus := if a.periodic then s.time.tcus else updAt (fun x => { x with arm := none }) s.time.tcus n } := by
  unfold State.fireShown
  cases late <;> cases a.periodic <;> rfl

theorem State.fireRecorded_frame (s : State) (n : Nat) (a : TcuArm) (e : Nat) (late : Bool) :
    Keeps [.recq] s (s.fireRecorded n a e late) := by
  unfold State.fireRecorded
  split
  · exact (Keeps.refl _ s).emit _ _ _ (by simp)
  · exact Keeps.refl _ s

/-- Whether a step is accepted is no matter of what else the time base holds. -/
theorem TimeState.stepSeen_mk (t : TimeState) (lo hi : Bool) (tcus : List Tcu) (tpos : List Tpo) (tci : List (Option Nat))
    (tbs : List LegacyTb) (anchors : List Anchor) :
    (⟨t.frc, t.frcBase, t.tBase, t.incr, t.incrPend, lo, hi, t.stepPend, tcus, tpos, tci, tbs, anchors⟩ : TimeState).stepSeen =
      t.stepSeen := by
  obtain ⟨frc, frcBase, tBase, incr, incrPend, -, -, stepPend, -, -, -, -, -⟩ := t
  rcases incrPend with _ | ⟨v, i⟩ <;> rcases stepPend with _ | ⟨z, k⟩
  · rfl
  · rfl
  · rfl
  · by_cases hf : k < i <;> by_cases hi : i < frc.toNat <;>
      simp [TimeState.stepSeen, TimeState.takeIncr, TimeState.isDue, TimeState.stepFirst, TimeState.stepTo, TimeState.baseAt, TimeState.at,
        hf, hi]

/-- TIME_EPOCH is no matter of a compare unit. -/
theorem State.epoch_eq_of_tcus {s t : State} (htime : t.time = { s.time with tcus := t.time.tcus })
    (hf : t.getF F.TIME_EPOCH_EPOCH = s.getF F.TIME_EPOCH_EPOCH) : t.epoch = s.epoch := by
  rw [State.epoch, State.epoch, hf, htime, TimeState.stepSeen_mk]

end

/-- All that O13 says of the state a decision hands to the consumers. -/
theorem State.fired_result (s : State) (n : Fin 16) {a : TcuArm} (os : List Nat) (late : Bool) (launch v e : Nat)
    (harm : (s.tcu n).arm = some a) (hst : s.getF (F.TIME_TCU_CTRL_STATE n) = 2) (u : State) (hu : u = s.fired n a os late launch v e) :
    Keeps [.regs, .time, .dbg, .recq] s u ∧ u.time = { s.time with tcus := u.time.tcus } ∧ RegsKept (fireRegs n) s u ∧
      u.getF (F.TIME_TCU_FIRES_FIRES n) = (s.getF (F.TIME_TCU_FIRES_FIRES n) + 1) % 2 ^ 32 ∧
      (late = true → u.bit (F.TIME_TCU_STATUS_LATE n) = true) ∧
      (a.periodic = false → u.bit (F.TIME_TCU_STATUS_FIRED n) = true ∧ u.getF (F.TIME_TCU_CTRL_STATE n) = 0) ∧
      (a.periodic = true → u.getF (F.TIME_TCU_CTRL_STATE n) = 2) ∧
      (n.val < s.time.tcus.length →
        (u.tcu n).arm = (if a.periodic then some a else none) ∧ (u.tcu n).target = (s.tcu n).target + a.period ∧
        (⟨s.tick, launch, v, a.width, os, false⟩ : TcuFire) ∈ (u.tcu n).fires) ∧
      (a.evrec = true → u.recq = s.recq ++ [⟨0, 0x0201, pw n ++ ptime e ++ pw s.epoch ++ psn s.tick ++ pb late, s.tick⟩]) ∧
      (a.evrec = false → u.recq = s.recq) := by
  set f : TcuFire := ⟨s.tick, launch, v, a.width, os, false⟩
  obtain ⟨hk1, hr1⟩ := s.fireNoted_frame n a f
  have hcount := s.fireNoted_count n a f
  have ht1 := s.fireNoted_time n a f
  change u = ((s.fireNoted n a f).fireShown n a late).fireRecorded n a e late at hu
  generalize s.fireNoted n a f = w1 at hk1 hr1 hcount ht1 hu
  obtain ⟨hk2, hr2, hr2p⟩ := w1.fireShown_frame n a late
  obtain ⟨hlate, hfired⟩ := w1.fireShown_status n a late
  have ht2 := w1.fireShown_tcus n a late
  generalize w1.fireShown n a late = w2 at hk2 hr2 hr2p hlate hfired ht2 hu
  have hk3 := w2.fireRecorded_frame n a e late
  rw [← hu] at hk3
  have hr3 := hk3.regsKept (by simp) []
  have htime : u.time = w2.time := hk3 .time (by simp)
  have hbase : u.time = { s.time with tcus := u.time.tcus } := by rw [htime, ht2, ht1]
  have hw2 : w2.time = { s.time with tcus := w2.time.tcus } := by rw [ht2, ht1]
  have hreg : RegsKept (fireRegs n) s u := ((hr1.mono (by simp [fireRegs])).trans (hr2.mono (by simp [fireRegs]))).trans
    (hr3.mono (by simp))
  have hf : f ∈ ((s.tcu n).decided s.tick a.period f).fires := List.mem_append_right _ List.mem_cons_self
  have hepoch : w2.epoch = s.epoch := State.epoch_eq_of_tcus hw2 (((hr1.mono (by simp [fireRegs])).trans
    (hr2.mono (by simp [fireRegs])) : RegsKept (fireRegs n) s w2).getF _ (epoch_notMem_fireRegs n))
  have htick : w2.tick = s.tick := by rw [State.tick, State.tick, hw2]
  have hrecq : w2.recq = s.recq := (hk2 .recq (by simp)).trans (hk1 .recq (by simp))
  refine ⟨((hk1.mono (by simp)).trans (hk2.mono (by simp))).trans (hk3.mono (by simp)), hbase, hreg, ?_, fun hl => ?_, fun hp => ?_,
    fun hp => ?_, fun hn => ?_, fun hev => ?_, fun hev => ?_⟩
  · rw [hr3.getF _ (by simp), hr2.getF _ (by
      simpa [F.TIME_TCU_FIRES_FIRES] using ⟨tcuFires_ne_tcuCtrl n, tcuFires_ne_tcuStatus n⟩), hcount]
  · rw [hr3.bit _ (by simp), hlate hl]
  · rw [hr3.bit _ (by simp), hr3.getF _ (by simp)]; exact hfired hp
  · rw [hr3.getF _ (by simp), (hr2p hp).getF _ (by simpa [F.TIME_TCU_CTRL_STATE] using tcuCtrl_ne_tcuStatus n),
      hr1.getF _ (by simpa [F.TIME_TCU_CTRL_STATE] using (tcuFires_ne_tcuCtrl n).symm), hst]
  · have hnoted : (updAt (fun y => y.decided s.tick a.period f) s.time.tcus n).getD n Tcu.reset = (s.tcu n).decided s.tick a.period f :=
      updAt_get_same _ _ _ _ hn
    have hun : u.tcu n = if a.periodic then (s.tcu n).decided s.tick a.period f
        else { (s.tcu n).decided s.tick a.period f with arm := none } := by
      rw [State.tcu, htime, ht2, ht1]
      cases a.periodic with
      | true => exact hnoted
      | false => exact (updAt_get_same _ _ _ _ (by simpa using hn)).trans (by rw [hnoted]; rfl)
    rw [hun]
    cases a.periodic with
    | true => exact ⟨harm, rfl, hf⟩
    | false => exact ⟨rfl, rfl, hf⟩
  · rw [hu, State.fireRecorded, if_pos hev, State.emit, hrecq, hepoch, htick]
    show _ = s.recq ++ [⟨0, 0x0201, _, s.time.frc.toNat⟩]
    rw [hw2]
  · rw [hu, State.fireRecorded, if_neg (by simp [hev]), hrecq]

/-- Settles O13: a decision that is due hands the state of `fired_result` to the consumers. -/
theorem tcuDecides : Obligations.TcuDecides := by
  unfold Obligations.TcuDecides
  intro n s a os late launch v e harm hst hdue hnear hos ho
  exact ⟨s.tcuDecide n, s.fired n a os late launch v e, rfl, State.tcuDecide_eq harm hst hdue hnear hos ho,
    s.fired_result n os late launch v e harm hst _ rfl⟩

/-! ### O14 -/

/-- Without outputs nothing holds an edge back. -/
theorem State.tcuOutcome_nil (s : State) (a : TcuArm) (t : Nat) :
    s.tcuOutcome a t [] =
      if s.launchTime a.src < t then
        (if 128 ≤ (if a.src = 0 then (t - s.launchTime a.src) * 64 / nsU else 0)
          then (false, s.tick + 16, (if a.src = 0 then (t - s.launchTime a.src) * 64 / nsU else 0) - 128, t)
          else (false, s.tick + 15, (if a.src = 0 then (t - s.launchTime a.src) * 64 / nsU else 0), t))
      else (true, s.tick + 15, 0, s.launchTime a.src) := by
  unfold State.tcuOutcome
  exact if_neg (Nat.not_lt_zero _)

theorem shortOf_lt (t : Nat) : shortOf t < 2 ^ 32 := Nat.mod_lt _ (by decide)

theorem posLe_iff (sa fa sb fb : Nat) (hb : sb < 2 ^ 32) :
    posLe sa fa sb fb = true ↔
      toSigned 32 (sa + 2 ^ 32 - sb) < 0 ∨ (toSigned 32 (sa + 2 ^ 32 - sb) = 0 ∧ fa ≤ fb) := by
  unfold posLe
  rw [Nat.mod_eq_of_lt hb]
  generalize toSigned 32 (sa + 2 ^ 32 - sb) = d
  dsimp only
  split
  · next h => simp [h]
  · next h => split <;> simp_all

theorem State.tcuDue_corrected (s : State) (t : Nat) :
    s.tcuDue 0 t = true ↔ posLe (shortOf t) (fineOf t) (shortOf (s.now + 16 * s.incrNow)) (fineOf (s.now + 16 * s.incrNow)) = true ∨
      t ≤ s.now + 16 * s.incrNow := by
  simp only [State.tcuDue, State.srcNow, State.srcIncr, if_true, Bool.or_eq_true, decide_eq_true_eq]

/-- Settles O14: the due rule by `posLe_iff`, the outcomes by `tcuOutcome_nil`. -/
theorem decisionOutcome : Obligations.DecisionOutcome := by
  unfold Obligations.DecisionOutcome
  intro s a t lt l v hlt hl hv
  have hlt' : s.launchTime a.src = lt := hlt.symm
  refine ⟨?_, fun hs h => ?_, fun hs h => ?_, fun h => ?_⟩
  · rw [s.tcuDue_corrected, ← hl, posLe_iff _ _ _ _ (shortOf_lt l), or_assoc]
  · rw [s.tcuOutcome_nil, hlt', if_pos h, if_pos hs, hv]; rfl
  · rw [s.tcuOutcome_nil, hlt', if_pos h, if_neg hs]; rfl
  · rw [s.tcuOutcome_nil, hlt', if_neg (by omega)]

end Sys2Proof.Machine
end

section
/-!
SUPPORT. The edges of pulse outputs (R46), the stamps of capture inputs (R49), anchors (R50) and legacy time bases (R52, R53).
-/

namespace Sys2Proof.Machine

/-! ### Pulse outputs -/

section

variable {fs : List Field} {l : List Nat} {s t : State}

theorem Keeps.updTpo (h : Keeps fs s t) (o : Nat) (g : Tpo → Tpo) (hm : Field.time ∈ fs) : Keeps fs s (t.updTpo o g) := h.time _ hm

theorem Keeps.pinOut (h : Keeps fs s t) (p : Pin) (x : Bool) (k v : Nat) (hm : Field.obs ∈ fs) : Keeps fs s (t.pinOut p x k v) := by
  unfold State.pinOut
  exact iteInduction (fun _ => h) (fun _ => h.obsv _ hm)

theorem Keeps.pinEdge (h : Keeps fs s t) (was : State) (p : Pin) (k v : Nat) (hm : Field.obs ∈ fs) : Keeps fs s (t.pinEdge was p k v) := by
  unfold State.pinEdge
  exact iteInduction (fun _ => h) (fun _ => h.pinOut _ _ _ _ hm)

theorem State.pinEdge_keeps (t was : State) (p : Pin) (k v : Nat) : Keeps [.obs] t (t.pinEdge was p k v) :=
  (Keeps.refl _ t).pinEdge was p k v (by simp)

/-- An edge is seen where the level changes and the chain does not drive the balls (R423). -/
theorem State.pinEdge_obs (t was : State) (p : Pin) (k v : Nat) :
    (t.pinEdge was p k v).obs = if t.pinLevel p == was.pinLevel p || t.dbg.ir == 0 then t.obs else .pin p (t.pinLevel p) k v :: t.obs := by
  unfold State.pinEdge State.pinOut State.obsv
  cases t.pinLevel p == was.pinLevel p <;> by_cases hir : t.dbg.ir = 0 <;> simp [hir]

end

/-- Is the leading edge of a pulse on output `o` seen: is the output there, enabled and at its inactive level? -/
def State.risesAt (s : State) (o : Nat) : Bool :=
  s.bit (F.TIME_TPO_CTRL_EN o) && decide (o < s.time.tpos.length) && !(s.time.tpos.getD o Tpo.reset).active

/-- The leading edge of a firing on output `o` as it is seen. -/
def State.riseObs (s : State) (f : TcuFire) (o : Nat) : Obs := .pin (.tpo o) (!s.bit (F.TIME_TPO_CTRL_POL o)) f.launch f.vernier

/-- An output as the leading edge of firing `f` of unit `n` leaves it. -/
def Tpo.risen (n : Nat) (f : TcuFire) : Tpo := ⟨true, some f.launch, some (f.launch + f.width), f.vernier, n⟩

theorem State.tpoRise_time (s : State) (n : Nat) (f : TcuFire) (o : Nat) :
    (s.tpoRise n f o).time =
      { s.time with tpos := if s.bit (F.TIME_TPO_CTRL_EN o) then updAt (fun _ => Tpo.risen n f) s.time.tpos o else s.time.tpos } := by
  unfold State.tpoRise
  split
  · exact State.pinEdge_keeps _ _ _ _ _ .time (by simp)
  · rfl

theorem State.tpoRise_keeps (s : State) (n : Nat) (f : TcuFire) (o : Nat) : Keeps [.time, .obs] s (s.tpoRise n f o) := by
  unfold State.tpoRise
  split
  · exact ((Keeps.refl _ s).updTpo _ _ (by simp)).pinEdge _ _ _ _ (by simp)
  · exact Keeps.refl _ s

/-- The level of a pulse output whose entry was changed by `g`. -/
theorem State.pinLevel_updTpo (s : State) (o : Nat) (g : Tpo → Tpo) :
    (s.updTpo o g).pinLevel (.tpo o) = s.tpoLevel o
      ((if o < s.time.tpos.length then g (s.time.tpos.getD o Tpo.reset) else s.time.tpos.getD o Tpo.reset).active &&
        s.bit (F.TIME_TPO_CTRL_EN o)) := by
  have hget : (updAt g s.time.tpos o).getD o Tpo.reset =
      if o < s.time.tpos.length then g (s.time.tpos.getD o Tpo.reset) else s.time.tpos.getD o Tpo.reset := by
    split
    · exact updAt_get_same _ _ _ _ ‹_›
    · next h => rw [List.getD_eq_default _ _ (by simpa using h), List.getD_eq_default _ _ (by simpa using h)]
  rw [← hget]
  rfl

theorem State.tpoRise_obs (s : State) (n : Nat) (f : TcuFire) (o : Nat) :
    (s.tpoRise n f o).obs =
      if s.risesAt o && s.bit F.PWR_STATUS_READY && s.dbg.ir != 0 then s.riseObs f o :: s.obs else s.obs := by
  unfold State.tpoRise State.risesAt
  cases hen : s.bit (F.TIME_TPO_CTRL_EN o) with
  | false => rfl
  | true =>
    rw [if_pos rfl, State.pinEdge_obs, State.pinLevel_updTpo]
    have hwas : s.pinLevel (.tpo o) = s.tpoLevel o ((s.time.tpos.getD o Tpo.reset).active && s.bit (F.TIME_TPO_CTRL_EN o)) := rfl
    have hir : ∀ g, (s.updTpo o g).dbg.ir = s.dbg.ir ∧ (s.updTpo o g).obs = s.obs := fun _ => ⟨rfl, rfl⟩
    rw [hwas, hen, (hir _).1, (hir _).2, State.riseObs]
    by_cases ho : o < s.time.tpos.length
    · cases (s.time.tpos.getD o Tpo.reset).active <;> cases hr : s.bit F.PWR_STATUS_READY <;>
        cases hp : s.bit (F.TIME_TPO_CTRL_POL o) <;> by_cases hi : s.dbg.ir = 0 <;> simp [State.tpoLevel, ho, hr, hp, hi]
    · simp [ho]

/-- What one leading edge leaves as it was for the outputs after it. -/
theorem State.tpoRise_others (s : State) (n : Nat) (f : TcuFire) (o : Nat) :
    (∀ x, (s.tpoRise n f o).bit x = s.bit x) ∧ (s.tpoRise n f o).dbg.ir = s.dbg.ir ∧
      (s.tpoRise n f o).time.tpos.length = s.time.tpos.length ∧
      ∀ o', o' ≠ o → (s.tpoRise n f o).time.tpos.getD o' Tpo.reset = s.time.tpos.getD o' Tpo.reset := by
  have hk := s.tpoRise_keeps n f o
  refine ⟨fun x => (hk.regsKept (by simp) []).bit x (by simp), congrArg DbgState.ir (hk .dbg (by simp)), ?_, fun o' ho' => ?_⟩
  · rw [s.tpoRise_time]; dsimp only; split
    · simp
    · rfl
  · rw [s.tpoRise_time]; dsimp only; split
    · exact updAt_get_other _ _ _ _ _ ho'
    · rfl

/-- The leading edges of a firing on the outputs that follow it, one after another. -/
theorem State.tpoRises (n : Nat) (f : TcuFire) (l : List Nat) (s : State) (hl : l.Nodup) :
    Keeps [.time, .obs] s (l.foldl (fun s o => s.tpoRise n f o) s) ∧
      (s.bit F.PWR_STATUS_READY = true → s.dbg.ir ≠ 0 →
        (l.foldl (fun s o => s.tpoRise n f o) s).obs = ((l.filter s.risesAt).map (s.riseObs f)).reverse ++ s.obs) ∧
      (s.bit F.PWR_STATUS_READY = false ∨ s.dbg.ir = 0 → (l.foldl (fun s o => s.tpoRise n f o) s).obs = s.obs) ∧
      (∀ o ∈ l, s.bit (F.TIME_TPO_CTRL_EN o) = true → o < s.time.tpos.length →
        (l.foldl (fun s o => s.tpoRise n f o) s).time.tpos.getD o Tpo.reset = Tpo.risen n f) ∧
      ∀ o, o ∉ l → (l.foldl (fun s o => s.tpoRise n f o) s).time.tpos.getD o Tpo.reset = s.time.tpos.getD o Tpo.reset := by
  induction l generalizing s with
  | nil => exact ⟨Keeps.refl _ s, fun _ _ => rfl, fun _ => rfl, by simp, fun _ _ => rfl⟩
  | cons a l ih =>
    obtain ⟨ha, hl⟩ := List.nodup_cons.mp hl
    obtain ⟨hkeeps, hseen, hunseen, hin, hout⟩ := ih (s.tpoRise n f a) hl
    obtain ⟨hbit, hir, hlen, hother⟩ := s.tpoRise_others n f a
    have hrises : ∀ o ∈ l, (s.tpoRise n f a).risesAt o = s.risesAt o := fun o ho => by
      rw [State.risesAt, State.risesAt, hbit, hlen, hother o (fun h => ha (h ▸ ho))]
    have hobs : (s.tpoRise n f a).riseObs f = s.riseObs f := funext fun o => by rw [State.riseObs, State.riseObs, hbit]
    rw [List.foldl_cons]
    refine ⟨(s.tpoRise_keeps n f a).trans hkeeps, fun hr hi => ?_, fun h => ?_, fun o ho hen hol => ?_, fun o ho => ?_⟩
    · rw [hseen (by rw [hbit, hr]) (by rw [hir]; exact hi), List.filter_congr hrises, hobs, s.tpoRise_obs, hr]
      cases hra : s.risesAt a <;> simp [hra, hi]
    · rw [hunseen (by rw [hbit, hir]; exact h), s.tpoRise_obs]
      rcases h with h | h <;> simp [h]
    · by_cases hoa : o = a
      · subst hoa
        rw [hout o ha, s.tpoRise_time, hen]
        exact updAt_get_same _ _ _ _ hol
      · exact hin o ((List.mem_cons.mp ho).resolve_left hoa) (by rw [hbit, hen]) (by rw [hlen]; exact hol)
    · rw [List.mem_cons, not_or] at ho
      rw [hout o ho.2, hother o ho.1]

theorem State.tposOf_nodup (s : State) (n : Nat) : (s.tposOf n).Nodup := List.nodup_range.filter _

/-- TCU_EDGE_LAUNCH of a firing whose launch tick has come. -/
theorem State.tcuLaunch_eq {s : State} {n : Nat} {f : TcuFire}
    (hf : (s.tcu n).fires.find? (fun f => !f.launched && decide (f.launch ≤ s.tick)) = some f) :
    s.tcuLaunch n = f.tpos.foldl (fun s o => s.tpoRise n f o)
      (s.updTcu n (fun x => { x with fires := x.fires.map (fun g => if g = f then { g with launched := true } else g) })) := by
  rw [State.tcuLaunch, hf]

/-- The trailing edge of a pulse that is due. -/
theorem State.tpoFall_eq {s : State} {o k : Nat} (ht : (s.time.tpos.getD o Tpo.reset).trail = some k) (hk : k ≤ s.tick) :
    s.tpoFall o = (s.updTpo o (fun x => { x with active := false, lastChange := some k, trail := none })).pinEdge s (.tpo o) k
      (s.time.tpos.getD o Tpo.reset).vernier := by
  unfold State.tpoFall
  simp only [ht, hk, if_true]

/-- The trailing edge is seen where the output was at its active level. -/
theorem State.tpoFall_obs {s : State} {o k : Nat} (ht : (s.time.tpos.getD o Tpo.reset).trail = some k) (hk : k ≤ s.tick) :
    (s.tpoFall o).obs = if (s.time.tpos.getD o Tpo.reset).active && decide (o < s.time.tpos.length) && s.bit (F.TIME_TPO_CTRL_EN o) &&
        s.bit F.PWR_STATUS_READY && s.dbg.ir != 0
      then .pin (.tpo o) (s.bit (F.TIME_TPO_CTRL_POL o)) k (s.time.tpos.getD o Tpo.reset).vernier :: s.obs else s.obs := by
  rw [State.tpoFall_eq ht hk, State.pinEdge_obs, State.pinLevel_updTpo]
  have hwas : s.pinLevel (.tpo o) = s.tpoLevel o ((s.time.tpos.getD o Tpo.reset).active && s.bit (F.TIME_TPO_CTRL_EN o)) := rfl
  have hir : ∀ g, (s.updTpo o g).dbg.ir = s.dbg.ir ∧ (s.updTpo o g).obs = s.obs := fun _ => ⟨rfl, rfl⟩
  rw [hwas, (hir _).1, (hir _).2]
  by_cases ho : o < s.time.tpos.length
  · cases ha : (s.time.tpos.getD o Tpo.reset).active <;> cases hr : s.bit F.PWR_STATUS_READY <;>
      cases hp : s.bit (F.TIME_TPO_CTRL_POL o) <;> cases he : s.bit (F.TIME_TPO_CTRL_EN o) <;> simp [State.tpoLevel, ho, hr, hp]
  · simp [ho]

/-! ### O15 -/

/-- Settles O15: the leading edges one output after another, the trailing edge as one change of level. -/
theorem pulseEdges : Obligations.PulseEdges := by
  unfold Obligations.PulseEdges
  refine ⟨fun n s => s.tposOf_nodup n, fun n s f hf hnodup => ⟨s.tcuLaunch n, rfl, ?_⟩, fun o s k ht hk => ⟨s.tpoFall o, rfl, ?_⟩⟩
  · rw [State.tcuLaunch_eq hf]
    generalize hg : (fun x : Tcu => { x with fires := x.fires.map (fun g => if g = f then { g with launched := true } else g) }) = g
    obtain ⟨hkeeps, hseen, hunseen, hin, hout⟩ := State.tpoRises n f f.tpos (s.updTcu n g) hnodup
    have hrises : (s.updTcu n g).risesAt = s.risesAt := rfl
    have hobs : (s.updTcu n g).riseObs f = s.riseObs f := rfl
    rw [State.updTcu_bit, hrises, hobs] at hseen
    exact ⟨((Keeps.refl _ s).updTcu n g (by simp)).trans hkeeps, hseen, fun h => hunseen (by rw [State.updTcu_bit]; exact h),
      fun o ho hen => hin o ho (by rw [State.updTcu_bit]; exact hen), hout⟩
  · have hobs := State.tpoFall_obs ht hk
    have hkeeps := State.pinEdge_keeps (s.updTpo o (fun x => { x with active := false, lastChange := some k, trail := none })) s (.tpo o) k
      (s.time.tpos.getD o Tpo.reset).vernier
    rw [← State.tpoFall_eq ht hk] at hkeeps
    refine ⟨((Keeps.refl _ s).updTpo _ _ (by simp)).trans (hkeeps.mono (by simp)), hkeeps .time (by simp), fun hr hi hol hen hact => ?_,
      fun h => ?_⟩
    · rw [hobs, hact, hen, hr]; simp [hi, hol]
    · rw [hobs]; rcases h with h | h <;> simp [h]

/-! ### O16 -/

/-- The registers of capture unit `u` that a stamp writes. -/
def State.stampRegs (s : State) (u : Nat) (rise : Bool) (x e : Nat) : State :=
  ((((((((s.setF (F.TIME_TCI_SEC_LO_SEC_LO u) (tSec x)).setF (F.TIME_TCI_SEC_HI_SEC_HI u) (tSec x / 2 ^ 32)).setF
    (F.TIME_TCI_SEC_HI_EPOCH u) e).setF (F.TIME_TCI_NS_NS u) (tNs x)).setF (F.TIME_TCI_FRAC_FRAC u) (tFrac x)).setB
    (F.TIME_TCI_FRAC_RISE u) rise).bump (F.TIME_TCI_COUNT_COUNT u)))

/-- The edge `rise` is one that the unit selects. -/
def State.tciSelects (s : State) (u : Nat) (rise : Bool) : Prop :=
  if rise then s.getF (F.TIME_TCI_CTRL_EDGE u) % 2 = 1 else s.getF (F.TIME_TCI_CTRL_EDGE u) / 2 % 2 = 1

/-- The last stamped edge of the unit lies less than 8 ticks back. -/
def State.tciNear (s : State) (u : Nat) : Bool := match s.time.tciLast.getD u none with | some k => decide (s.tick < k + 8) | none => false

theorem State.tciSelects_iff (s : State) (u : Nat) (rise : Bool) :
    s.tciSelects u rise ↔
      (if rise then s.getF (F.TIME_TCI_CTRL_EDGE u) % 2 == 1 else s.getF (F.TIME_TCI_CTRL_EDGE u) / 2 % 2 == 1) = true := by
  cases rise <;> simp [State.tciSelects]

theorem State.tciStamp_missed {s : State} {u f : Nat} {rise : Bool} (hen : s.bit (F.TIME_TCI_CTRL_EN u) = true)
    (hsel : s.tciSelects u rise) (hnear : s.tciNear u = true) : s.tciStamp u rise f = s.bump (F.TIME_TCI_MISSED_MISSED u) := by
  rw [State.tciSelects_iff] at hsel
  unfold State.tciStamp
  dsimp only
  rw [hen, hsel]
  exact if_pos hnear

/-- The time base after a stamp of unit `u`. -/
def State.stamped (s : State) (u : Nat) : State :=
  { s with time := { s.time with tciLast := updAt (fun _ => some s.tick) s.time.tciLast u } }

theorem epoch_ne_tciSecLo : ∀ u : Fin 5, R.TIME_EPOCH ≠ R.TIME_TCI_SEC_LO u := by decide

/-- TIME_EPOCH as a stamp sees it. -/
theorem State.stamped_epoch (s : State) (u : Fin 5) (a : Nat) :
    ((s.stamped u).setF (F.TIME_TCI_SEC_LO_SEC_LO u) a).epoch = s.epoch := by
  have hf : ((s.stamped u).setF (F.TIME_TCI_SEC_LO_SEC_LO u) a).getF F.TIME_EPOCH_EPOCH = s.getF F.TIME_EPOCH_EPOCH :=
    (getF_setF_other _ _ _ _ (by simp [F.TIME_TCI_SEC_LO_SEC_LO]) (.inl (epoch_ne_tciSecLo u))).trans rfl
  rw [State.epoch, hf, State.setF_time, State.stamped, TimeState.stepSeen_mk]
  rfl

/-- The record of a stamp, where the unit makes one. -/
def State.stampRecorded (s : State) (u : Nat) (rise : Bool) (x : Nat) : State :=
  if s.bit (F.TIME_TCI_CTRL_EVREC u) then s.emit 0 0x0202 (pw u ++ pb rise ++ ptime x ++ pw s.epoch ++ psn s.tick) else s

theorem State.tciStamp_stamped {s : State} {u : Fin 5} {f : Nat} {rise : Bool} (hen : s.bit (F.TIME_TCI_CTRL_EN u) = true)
    (hsel : s.tciSelects u rise) (hfar : s.tciNear u = false) :
    s.tciStamp u rise f =
      (((s.stamped u).stampRegs u rise (s.now + f * s.incrNow / 128) s.epoch).stampRecorded u rise (s.now + f * s.incrNow / 128)) := by
  rw [State.tciSelects_iff] at hsel
  have hepoch := s.stamped_epoch u (tSec (s.now + f * s.incrNow / 128))
  unfold State.tciStamp
  simp only [hen, hsel, Bool.and_self, if_true]
  refine (if_neg (Bool.eq_false_iff.mp hfar)).trans ?_
  unfold State.stampRegs
  rw [← hepoch]
  rfl

theorem State.epoch_lt (s : State) : s.epoch < 2 ^ 16 := Nat.mod_lt _ (by decide)

theorem tNs_lt (t : Nat) : tNs t < 10 ^ 9 := Nat.mod_lt _ (by decide)

theorem tFrac_lt (t : Nat) : tFrac t < 2 ^ 16 := Nat.mod_lt _ (by decide)

/-- What the registers of a stamp show. -/
theorem State.stampRegs_reads (s : State) (u : Nat) (rise : Bool) (x e : Nat) :
    let t := s.stampRegs u rise x e
    t.getF (F.TIME_TCI_SEC_LO_SEC_LO u) = tSec x % 2 ^ 32 ∧ t.getF (F.TIME_TCI_SEC_HI_SEC_HI u) = tSec x / 2 ^ 32 % 2 ^ 16 ∧
      t.getF (F.TIME_TCI_NS_NS u) = tNs x % 2 ^ 32 ∧ t.getF (F.TIME_TCI_FRAC_FRAC u) = tFrac x % 2 ^ 16 ∧
      t.getF (F.TIME_TCI_SEC_HI_EPOCH u) = e % 2 ^ 16 ∧ t.bit (F.TIME_TCI_FRAC_RISE u) = rise := by
  have hwidth : (F.TIME_TCI_SEC_LO_SEC_LO u).width = 32 ∧ (F.TIME_TCI_SEC_HI_SEC_HI u).width = 16 ∧ (F.TIME_TCI_NS_NS u).width = 32 ∧
      (F.TIME_TCI_FRAC_FRAC u).width = 16 ∧ (F.TIME_TCI_SEC_HI_EPOCH u).width = 16 := ⟨rfl, rfl, rfl, rfl, rfl⟩
  obtain ⟨h1, h2, h3, h4, h5⟩ := hwidth
  unfold State.stampRegs
  dsimp only
  simp (disch := grind [F.TIME_TCI_SEC_LO_SEC_LO, F.TIME_TCI_SEC_HI_SEC_HI, F.TIME_TCI_SEC_HI_EPOCH, F.TIME_TCI_NS_NS, F.TIME_TCI_FRAC_FRAC,
      F.TIME_TCI_FRAC_RISE, F.TIME_TCI_COUNT_COUNT, R.TIME_TCI_SEC_LO, R.TIME_TCI_SEC_HI, R.TIME_TCI_NS, R.TIME_TCI_FRAC, R.TIME_TCI_COUNT])
    only [getF_bump_other, bit_bump_other, getF_setB_other, bit_setB_same, getF_setF_same, getF_setF_other, h1, h2, h3, h4, h5, and_self]

theorem State.stampRegs_frame (s : State) (u : Nat) (rise : Bool) (x e : Nat) : Keeps [.regs] s (s.stampRegs u rise x e) := by
  have hr : Field.regs ∈ [Field.regs] := by simp
  exact (((((((Keeps.refl _ s).setF _ _ hr).setF _ _ hr).setF _ _ hr).setF _ _ hr).setF _ _ hr).setB _ _ hr).bump _ hr

theorem State.stampRecorded_frame (s : State) (u : Nat) (rise : Bool) (x : Nat) : Keeps [.recq] s (s.stampRecorded u rise x) := by
  unfold State.stampRecorded
  exact iteInduction (fun _ => (Keeps.refl _ s).emit _ _ _ (by simp)) (fun _ => Keeps.refl _ s)

/-- Settles O16: an edge is missed or stamped, and `stampRegs_reads` says what a stamp shows. -/
theorem captureStamps : Obligations.CaptureStamps := by
  unfold Obligations.CaptureStamps
  intro u rise f s x hen hsel hx
  have hsel' : s.tciSelects u rise := hsel
  cases hnear : s.tciNear u with
  | true =>
    refine ⟨s.tciStamp u rise f, rfl, ?_⟩
    rw [State.tciStamp_missed hen hsel' hnear]
    refine ⟨(Keeps.refl _ s).bump _ (by simp), fun _ => ⟨getF_bump_same _ _ (by simp [F.TIME_TCI_MISSED_MISSED]), rfl, rfl,
      (RegsKept.refl _ s).bump _ (by simp [F.TIME_TCI_MISSED_MISSED])⟩, fun hfar => ?_⟩
    unfold State.tciNear at hnear
    split at hnear
    · next k hk => exact absurd (hfar k hk) (by simpa using hnear)
    · cases hnear
  | false =>
    refine ⟨s.tciStamp u rise f, rfl, ?_⟩
    rw [State.tciStamp_stamped hen hsel' hnear, ← hx]
    obtain ⟨h1, h2, h3, h4, h5, h6⟩ := (s.stamped u).stampRegs_reads u rise x s.epoch
    have hk1 := (s.stamped u).stampRegs_frame u rise x s.epoch
    have hk2 := ((s.stamped u).stampRegs u rise x s.epoch).stampRecorded_frame u rise x
    have hr2 := hk2.regsKept (by simp) []
    have hk0 : Keeps [.regs, .time, .recq] s (s.stamped u) := (Keeps.refl _ s).time _ (by simp)
    refine ⟨(hk0.trans (hk1.mono (by simp))).trans (hk2.mono (by simp)), fun ⟨k, hk, hlt⟩ => ?_, fun _ => ?_⟩
    · rw [State.tciNear, hk] at hnear
      exact absurd hlt (by simpa using hnear)
    · rw [hr2.getF _ (by simp), hr2.getF _ (by simp), hr2.getF _ (by simp), hr2.getF _ (by simp), hr2.getF _ (by simp), hr2.bit _ (by simp),
        h1, h2, h3, h4, h5, h6, Nat.mod_eq_of_lt s.epoch_lt, Nat.mod_eq_of_lt (tFrac_lt x),
        Nat.mod_eq_of_lt (lt_trans (tNs_lt x) (by decide))]
      exact ⟨rfl, rfl, rfl, rfl, rfl, rfl, (hk2 .time (by simp)).trans (hk1 .time (by simp))⟩

end Sys2Proof.Machine
end

section
/-!
SUPPORT. Anchors (R50) and legacy time bases (R52, R53).
-/

namespace Sys2Proof.Machine

/-! ### O17 -/

/-- The anchor registers show label, time and epoch of an anchor, its phase residual and the raw measurement. -/
def State.anchorRegs (s : State) (n t e : Nat) (res : Int) (tdc : Nat) : State :=
  ((((((((s.wr64 R.TIME_ANCHOR_SN_LO R.TIME_ANCHOR_SN_HI n).setF F.TIME_ANCHOR_SEC_LO_SEC_LO (tSec t)).setF
    F.TIME_ANCHOR_SEC_HI_SEC_HI (tSec t / 2 ^ 32)).setF F.TIME_ANCHOR_SEC_HI_EPOCH e).setF F.TIME_ANCHOR_NS_NS (tNs t)).setF
    F.TIME_ANCHOR_FRAC_FRAC (tFrac t)).setF F.TIME_PHASE_RES_PHASE_RES (ofSigned 32 res)).setF F.TIME_PHASE_RAW_TDC tdc)

/-- The anchor that a measurement at `tdc` / `tickTdc` of the tick gives. -/
def State.anchorOf (s : State) (tdc tickTdc : Nat) : Anchor :=
  ⟨s.label, s.edgeTime tdc tickTdc / 2 ^ 40 * 2 ^ 40, s.epoch, s.time.tbs.map (fun b => (b.sec, b.ns, b.frac)),
    s.phaseRes s.label (s.edgeTime tdc tickTdc)⟩

/-- The hub with the anchor `a`, measured at time `t`, as its newest one. -/
def State.anchorIn (s : State) (a : Anchor) (t : Nat) : State :=
  let s := { s with time := { s.time with anchors := a :: s.time.anchors } }
  let s := { s with run := { s.run with edgeSn := a.sn, edgeT := t - s.stepShift } }
  { s with path := { s.path with phases := (a.res :: s.path.phases).take 16, align := if a.sn = 0 then [(0, a.res)] else s.path.align } }

/-- TIME_EPOCH with the anchor taken and its time shown. -/
theorem State.anchorIn_epoch (s : State) (a : Anchor) (t n x y : Nat) :
    ((((s.anchorIn a t).wr64 R.TIME_ANCHOR_SN_LO R.TIME_ANCHOR_SN_HI n).setF F.TIME_ANCHOR_SEC_LO_SEC_LO x).setF
      F.TIME_ANCHOR_SEC_HI_SEC_HI y).epoch = s.epoch := by
  have hf : ((((s.anchorIn a t).wr64 R.TIME_ANCHOR_SN_LO R.TIME_ANCHOR_SN_HI n).setF F.TIME_ANCHOR_SEC_LO_SEC_LO x).setF
      F.TIME_ANCHOR_SEC_HI_SEC_HI y).getF F.TIME_EPOCH_EPOCH = s.getF F.TIME_EPOCH_EPOCH := by
    simp (disch := decide) only [getF_setF_other, getF_wr64_other]
    rfl
  rw [State.epoch, hf]
  show (_ + b2n (s.anchorIn a t).time.stepSeen) % 2 ^ 16 = _
  rw [State.anchorIn, TimeState.stepSeen_mk]
  rfl

/-- A measurement of an edge that gives an anchor. -/
theorem State.anchor_eq {s : State} {tdc tickTdc : Nat} (hst : s.runSt = 3) (hrun : s.run.running = true) (hpos : 0 < s.run.next)
    (hlab : s.label % 65536 = 0) (hnew : ∀ a, s.time.anchors.head? = some a → a.sn ≠ s.label) :
    s.anchor tdc tickTdc = (s.anchorIn (s.anchorOf tdc tickTdc) (s.edgeTime tdc tickTdc)).anchorRegs s.label
      (s.edgeTime tdc tickTdc / 2 ^ 40 * 2 ^ 40) s.epoch (s.phaseRes s.label (s.edgeTime tdc tickTdc)) tdc := by
  have hcond : s.runSt = 3 ∧ s.run.running = true ∧ 0 < s.run.next ∧ s.label % 65536 = 0 ∧ (!false) = true :=
    ⟨hst, hrun, hpos, hlab, rfl⟩
  have hepoch := s.anchorIn_epoch (s.anchorOf tdc tickTdc) (s.edgeTime tdc tickTdc) s.label
    (tSec (s.edgeTime tdc tickTdc / 2 ^ 40 * 2 ^ 40)) (tSec (s.edgeTime tdc tickTdc / 2 ^ 40 * 2 ^ 40) / 2 ^ 32)
  unfold State.anchorRegs
  rw [← hepoch]
  unfold State.anchor
  cases h : s.time.anchors.head? with
  | none => simp only [h]; exact if_pos hcond
  | some a =>
    have hne : (a.sn == s.label) = false := by simpa using hnew a h
    simp only [h, hne]
    exact if_pos hcond

/-- What the anchor registers show. -/
theorem State.anchorRegs_reads (s : State) (n t e : Nat) (res : Int) (tdc : Nat) (hn : n < 2 ^ 64) :
    (s.anchorRegs n t e res tdc).rd64 R.TIME_ANCHOR_SN_LO R.TIME_ANCHOR_SN_HI = n ∧
      (s.anchorRegs n t e res tdc).getF F.TIME_ANCHOR_SEC_HI_EPOCH = e % 2 ^ 16 ∧
      (s.anchorRegs n t e res tdc).getF F.TIME_ANCHOR_NS_NS = tNs t % 2 ^ 32 := by
  have hw : F.TIME_ANCHOR_SEC_HI_EPOCH.width = 16 ∧ F.TIME_ANCHOR_NS_NS.width = 32 := ⟨rfl, rfl⟩
  unfold State.anchorRegs
  refine ⟨?_, ?_, ?_⟩
  · refine Eq.trans ?_ (rd64_wr64_same s R.TIME_ANCHOR_SN_LO R.TIME_ANCHOR_SN_HI n hn (by decide))
    unfold State.rd64
    simp (disch := decide) only [rd_setF_other]
  · simp (disch := decide) only [getF_setF_same, getF_setF_other, hw.1]
  · simp (disch := decide) only [getF_setF_same, getF_setF_other, hw.2]

theorem State.anchorRegs_keeps (s : State) (n t e : Nat) (res : Int) (tdc : Nat) : Keeps [.regs] s (s.anchorRegs n t e res tdc) := by
  have hr : Field.regs ∈ [Field.regs] := by simp
  exact (((((((((Keeps.refl _ s).wr64 _ _ _ hr).setF _ _ hr).setF _ _ hr).setF _ _ hr).setF _ _ hr).setF _ _ hr).setF _ _ hr).setF _ _ hr)

/-- Truncation to 1/65,536 ns keeps the nanoseconds. -/
theorem tNs_trunc (t : Nat) : tNs (t / 2 ^ 40 * 2 ^ 40) = tNs t := by
  rw [tNs, tNs, trunc16, Nat.mul_div_cancel _ (by decide), trunc16]

/-- Settles O17: the measurement takes the anchor of `anchor_eq`, which the registers show. -/
theorem anchorTaken : Obligations.AnchorTaken := by
  unfold Obligations.AnchorTaken
  intro tdc tickTdc s hst hrun hpos hlab hnew hlt
  refine ⟨s.anchor tdc tickTdc, rfl, ?_⟩
  rw [State.anchor_eq hst hrun hpos hlab hnew]
  set u := s.anchorIn (s.anchorOf tdc tickTdc) (s.edgeTime tdc tickTdc) with hu
  have hku : Keeps [.regs, .time, .run, .path] s u :=
    (((Keeps.refl [.regs, .time, .run, .path] s).time _ (by simp)).run _ (by simp)).path _ (by simp)
  have hkeeps := u.anchorRegs_keeps s.label (s.edgeTime tdc tickTdc / 2 ^ 40 * 2 ^ 40) s.epoch
    (s.phaseRes s.label (s.edgeTime tdc tickTdc)) tdc
  obtain ⟨hsn, hepoch, hns⟩ := u.anchorRegs_reads s.label (s.edgeTime tdc tickTdc / 2 ^ 40 * 2 ^ 40) s.epoch
    (s.phaseRes s.label (s.edgeTime tdc tickTdc)) tdc hlt
  refine ⟨hku.trans (hkeeps.mono (by simp)), ⟨s.anchorOf tdc tickTdc, hkeeps .time (by simp), rfl, rfl, rfl⟩, hsn,
    hepoch.trans (Nat.mod_eq_of_lt s.epoch_lt), hns.trans ?_, congrArg RunState.edgeSn (hkeeps .run (by simp))⟩
  rw [tNs_trunc, Nat.mod_eq_of_lt (lt_trans (tNs_lt _) (by decide))]

/-! ### O18 -/

/-- A waiting load of a legacy time base is no matter of corrected time or TIME_EPOCH. -/
theorem State.tbLoad_now (s : State) (n : Nat) (v : Word) : (s.tbLoad n v).now = s.now ∧ (s.tbLoad n v).epoch = s.epoch := by
  constructor
  · exact s.time.due_at_same ..
  · show (s.getF _ + b2n (TimeState.stepSeen _)) % 2 ^ 16 = _
    rw [State.tbLoad, TimeState.stepSeen_mk]; rfl

theorem tbsTick_getD (s : State) (d : LegacyTb) : ∀ (k n : Nat) (l : List LegacyTb), n < l.length →
    (tbsTick s k l).getD n d = tbTick s (k + n) (l.getD n d) := by
  intro k n l
  induction l generalizing k n with
  | nil => exact fun h => absurd h (by simp)
  | cons b l ih =>
    intro h
    cases n with
    | zero => rfl
    | succ n =>
      have hstep := ih (k + 1) n (by simpa using h)
      rw [show k + (n + 1) = k + 1 + n by omega]
      exact hstep

/-- A tick with no load waiting moves no compare unit. -/
theorem State.tickPass_of_no_load {s : State} (hpor : s.pwr.por = false) (hl : ∀ n, (s.tb n).load = none) :
    s.tickPass = s.tickOn.stepTick.actsTaken := by
  rw [State.tickPass_eq hpor]
  have hfold : ∀ l : List Nat, l.foldl (fun x n => if (s.tb n).load.isSome then x.tcusStep (n + 1) (s.launchTime (n + 1)) else x)
      s.tickOn = s.tickOn := by
    intro l
    induction l with
    | nil => rfl
    | cons n l ih => rw [List.foldl_cons, if_neg (by simp [hl n]), ih]
  rw [hfold]

theorem State.stepTick_keeps (s : State) : Keeps [.dbg] s s.stepTick := by
  unfold State.stepTick
  exact iteInduction (fun _ => (Keeps.refl _ s).dbg _ (by simp)) (fun _ => Keeps.refl _ s)

theorem tbLoad_ne_applyCtrl : ∀ n : Fin 4, R.TIME_TB_NS n ≠ R.HIF_APPLY_CTRL := by decide

/-- Settles O18: the write leaves a waiting load, which the next tick takes; a tick with none moves FRC and the time bases. -/
theorem legacyLoad : Obligations.LegacyLoad := by
  unfold Obligations.LegacyLoad
  refine ⟨fun id n v s hg => ?_, fun s n ns b hn hb hload hp hpor => ?_, fun s hp hpor hno => ?_⟩
  · obtain ⟨hnow, hepoch⟩ := s.tbLoad_now n v
    refine gated_next v hg (tbLoad_ne_applyCtrl n) ⟨((Keeps.refl [.regs, .time, .dbg] s).time _ (by simp)).bpReg _ _ _ (by simp), rfl, rfl,
      ?_, ?_⟩
    · exact hnow
    · exact hepoch
  · refine ⟨s.tickPass, step_of_pending_nil hp, ?_⟩
    have htick : (tbsTick s 0 s.time.tbs).getD n LegacyTb.reset = tbTick s (0 + n) (s.tb n) := tbsTick_getD s _ 0 n _ hn
    rw [State.tb, State.tickPass_time hpor]
    exact htick.trans (by rw [hb, tbTick, hload]; rfl)
  · have hnone : ∀ n, (s.tb n).load = none := fun n => by
      rw [State.tb, List.getD_eq_getElem?_getD]
      cases h : s.time.tbs[n]? with
      | none => rfl
      | some b => exact hno b (List.mem_of_getElem? h)
    refine ⟨s.tickPass, step_of_pending_nil hp, ?_⟩
    rw [State.tickPass_of_no_load hpor hnone]
    have htick : Keeps [.time, .mnt, .dbg] s s.tickOn := (Keeps.refl _ s).time _ (by simp)
    refine ⟨(htick.trans (s.tickOn.stepTick_keeps.mono (by simp))).mnt _ (by simp), ?_⟩
    exact s.tickOn.stepTick_time.trans (by rw [show s.tickOn.stepTick.actsTaken.time = s.tickOn.time from s.tickOn.stepTick_time]; rfl)

end Sys2Proof.Machine
end

section
/-!
SUPPORT. The access path of a write where it is not let through (R339-R343).
-/

namespace Sys2Proof.Machine

/-- Reset, at a tick in which domain NET has just left ON (R383). -/
def netJustFell : State := { State.reset with pwr := { State.reset.pwr with fellAt := List.replicate 14 (some 0) } }

/-- Refutes O19: a write to a NET register in the very tick in which NET left ON finds the domain ON again (R383, `State.wakeDom`), so
no wake is under way though the write is held. -/
theorem not_writePathStops : ¬ Obligations.WritePathStops := by
  unfold Obligations.WritePathStops
  intro h
  obtain ⟨-, -, hstops⟩ := h
  have hgate : ¬ netJustFell.goes .host1 R.NET_DMF_CTRL := fun hg => absurd hg.2 (by decide)
  obtain ⟨t, ht, -, -, hhold, -⟩ := hstops .host1 R.NET_DMF_CTRL 1#32 netJustFell (by decide) (by decide) (by decide) (by decide)
    (by decide) hgate
  obtain ⟨-, -, hwaking, -⟩ := hhold (by decide) (by decide) (by decide)
  obtain rfl : netJustFell.writeReq .host1 R.NET_DMF_CTRL (.dw 1#32) = t := Host.Outcome.next.inj ht
  exact absurd hwaking (by decide)

/-! ### O20 -/

/-- The MSI-X tables of BAR0. -/
def Special.isTable : Special → Bool
  | .table _ _ => true
  | _ => false

/-- Mailbox channels and locks: what a hardware agent may access. -/
def Special.isMailbox : Special → Bool
  | .channel _ | .lock _ => true
  | _ => false

theorem specialAt_isTable (off : Nat) : (specialAt off).isTable = decide (0xE8000 ≤ off ∧ off < 0xE8400) := by
  unfold specialAt
  split <;> [skip; split <;> [skip; split <;> [skip; split]]] <;> simp [Special.isTable] <;> omega

theorem specialAt_isMailbox (off : Nat) :
    (specialAt off).isMailbox = decide (0x30000 ≤ off ∧ off < 0x30C00 ∨ 0x31000 ≤ off ∧ off < 0x31040) := by
  unfold specialAt
  split <;> [skip; split <;> [skip; split <;> [skip; split]]] <;> simp [Special.isMailbox] <;> omega

/-- Both words of an aligned pair lie in an MSI-X table, or neither does. -/
theorem specialAt_isTable_pair {off : Nat} (h : off % 8 = 0) : (specialAt (off + 4)).isTable = (specialAt off).isTable := by
  rw [specialAt_isTable, specialAt_isTable, decide_eq_decide]
  omega

theorem specialAt_isMailbox_pair {off : Nat} (h : off % 8 = 0) : (specialAt (off + 4)).isMailbox = (specialAt off).isMailbox := by
  rw [specialAt_isMailbox, specialAt_isMailbox, decide_eq_decide]
  omega

theorem State.canAccess_por {s : State} (id : Ident) (hp : s.pwr.por = true) : s.canAccess id = false := by
  simp [State.canAccess, hp]

/-- A hub that is held in cold reset takes no write but of an MSI-X table (R440). -/
theorem State.busWrite_por {s : State} {id : Ident} {off : Nat} (v : Word) (hp : s.pwr.por = true)
    (hid : onBus id = true ∨ (specialAt off).isMailbox = true) (ht : (specialAt off).isTable = false) : s.busWrite id off v = s := by
  have hagent : (!onBus id && !(specialAt off).forAgent off) = false := by
    rcases hid with h | h
    · rw [h]; rfl
    · cases hsp : specialAt off <;> simp_all [Special.isMailbox, Special.forAgent]
  unfold State.busWrite State.busWriteAs
  rw [hagent, if_neg (by simp)]
  cases hsp : specialAt off with
  | channel n =>
    dsimp only
    split
    · rfl
    · rw [State.mbxGated, s.canAccess_por id hp]; rfl
  | lock n =>
    dsimp only
    rw [State.lockGated, s.canAccess_por id hp]; rfl
  | table w e => rw [hsp] at ht; cases ht
  | pba n => rfl
  | none =>
    dsimp only
    split
    · rfl
    · exact s.gated_por id off v _ hp

theorem State.unmask_pwr (s : State) (f v : Nat) : (s.unmask f v).pwr = s.pwr := by
  unfold State.unmask
  dsimp only
  split <;> rfl

theorem State.msixWrite_pwr (s : State) (f v k : Nat) (w : Word) : (s.msixWrite f v k w).pwr = s.pwr := by
  unfold State.msixWrite
  split
  · rfl
  · rfl
  · rfl
  · split
    · rfl
    · exact State.unmask_pwr ..

/-- A write that starts in a running hub and to an MSI-X table, or by an identity that is not on the bus outside the mailboxes, leaves
the hub running. -/
theorem State.busWrite_running {s : State} {id : Ident} {off : Nat} (v : Word) (hp : s.pwr.por = false)
    (hsp : (specialAt off).isTable = true ∨ (onBus id = false ∧ (specialAt off).isMailbox = false)) :
    (s.busWrite id off v).pwr.por = false := by
  unfold State.busWrite State.busWriteAs
  split
  · exact hp
  · next hagent =>
    cases h : specialAt off with
    | table w e =>
      dsimp only
      split
      · split
        · exact hp
        · rw [State.bpReg_pwr, State.msixWrite_pwr]; exact hp
      · exact hp
    | none =>
      dsimp only
      split
      · exact hp
      · have hbus : onBus id = false := by
          rcases hsp with hsp | hsp
          · rw [h] at hsp; cases hsp
          · exact hsp.1
        have hdeny : s.wrDenied id off = true := by rw [State.wrDenied, hbus]; rfl
        have hgate := s.gated_denied id off v (fun s => s.writeEff id off v) hp hdeny
        exact (congrArg (fun t : State => t.pwr.por) hgate).trans hp
    | channel n => rw [h] at hsp; rcases hsp with hsp | ⟨-, hsp⟩ <;> cases hsp
    | lock n => rw [h] at hsp; rcases hsp with hsp | ⟨-, hsp⟩ <;> cases hsp
    | pba n => exact hp

/-- After the write of the lower word of a pair the hub runs, or the write of the higher word does nothing. -/
theorem State.busWrite_pair {s : State} (id : Ident) {off : Nat} (a b : Word) (h8 : off % 8 = 0) (hp : s.pwr.por = false) :
    (s.busWrite id off a).pwr.por = false ∨ (s.busWrite id off a).busWrite id (off + 4) b = s.busWrite id off a := by
  by_cases hsp : (specialAt off).isTable = true ∨ (onBus id = false ∧ (specialAt off).isMailbox = false)
  · exact .inl (State.busWrite_running a hp hsp)
  · simp only [not_or, not_and, Bool.not_eq_true, Bool.not_eq_false] at hsp
    obtain ⟨ht, hm⟩ := hsp
    cases hpor : (s.busWrite id off a).pwr.por with
    | false => exact .inl rfl
    | true =>
      refine .inr (State.busWrite_por b hpor ?_ ((specialAt_isTable_pair h8).trans ht))
      cases hbus : onBus id with
      | true => exact .inl rfl
      | false => exact .inr ((specialAt_isMailbox_pair h8).trans (hm hbus))

theorem inBar0_iff (off : Nat) : inBar0 off = true ↔ off < 0x800000 := decide_eq_true_iff

theorem exec_registerWrite {off : Nat} (h : off < 0x800000) (id : Ident) (r : BarWrite) (s : State) :
    exec (.registerWrite id off r) s = .next (s.writeReq id off r) := if_pos ((inBar0_iff off).mpr h)

theorem exec_snapshotRead {off : Nat} (h : off < 0x800000) (id : Ident) (r : BarRead) (s : State) :
    exec (.snapshotRead id off r) s = .next (s.readReq id off r) := if_pos ((inBar0_iff off).mpr h)

theorem State.writeReq_por {s : State} (hp : s.pwr.por = true) (id : Ident) (off : Nat) (r : BarWrite) : s.writeReq id off r = s :=
  if_pos hp

theorem State.writeReq_dw {s : State} (hp : s.pwr.por = false) {off : Nat} (h : off % 4 = 0) (id : Ident) (v : Word) :
    s.writeReq id off (.dw v) = s.busWrite id off v := by
  simp only [State.writeReq, hp, h, Bool.false_eq_true, if_false, if_true]

theorem State.writeReq_two {s : State} (hp : s.pwr.por = false) {off : Nat} (h : off % 8 = 0) (id : Ident) (a b : Word) :
    s.writeReq id off (.two a b) = (s.busWrite id off a).busWrite id (off + 4) b := by
  simp only [State.writeReq, hp, h, Bool.false_eq_true, if_false, if_true]

/-- A write request of a wrong shape only counts. -/
theorem State.writeReq_bad {s : State} (hp : s.pwr.por = false) {off : Nat} {r : BarWrite}
    (h : r = .bad ∨ (∃ v, r = .dw v ∧ off % 4 ≠ 0) ∨ (∃ a b, r = .two a b ∧ off % 8 ≠ 0)) (id : Ident) :
    s.writeReq id off r = s.badReq := by
  rcases h with rfl | ⟨v, rfl, hoff⟩ | ⟨a, b, rfl, hoff⟩
  · simp [State.writeReq, hp]
  · simp [State.writeReq, hp, hoff]
  · simp [State.writeReq, hp, hoff]

/-- A read request of a wrong shape counts and is completed as unsupported. -/
theorem State.readReq_bad {s : State} (hp : s.pwr.por = false) {off : Nat} {r : BarRead}
    (h : r = .bad ∨ (r = .dw ∧ off % 4 ≠ 0) ∨ (r = .two ∧ off % 8 ≠ 0)) (id : Ident) :
    s.readReq id off r = s.badReq.obsv (.unsupported id.num off) := by
  rcases h with rfl | ⟨rfl, hoff⟩ | ⟨rfl, hoff⟩
  · simp [State.readReq, hp]
  · simp [State.readReq, hp, hoff]
  · simp [State.readReq, hp, hoff]

theorem State.badReq_count (s : State) : s.badReq.getF F.HIF_BAD_REQ_COUNT = (s.getF F.HIF_BAD_REQ_COUNT + 1) % 2 ^ 32 :=
  getF_bump_same _ _ (by decide)

/-- Settles O20: a request of a wrong shape counts, and after the first of two writes the hub runs or takes no second one. -/
theorem requestShape : Obligations.RequestShape := by
  unfold Obligations.RequestShape
  have hkeeps (fs : List Field) (hm : Field.regs ∈ fs) (s : State) : Keeps fs s s.badReq := (Keeps.refl _ s).bump _ hm
  have hregs (s : State) : RegsKept [R.HIF_BAD_REQ] s s.badReq := (RegsKept.refl _ s).bump _ (by decide)
  refine ⟨fun id off r s hoff hp hr => ⟨_, exec_registerWrite hoff id r s, ?_⟩, fun id off r s hoff hp hr =>
    ⟨_, exec_snapshotRead hoff id r s, ?_⟩, fun id off a b s hoff h8 => ?_, fun id off w r s hoff => ?_⟩
  · rw [State.writeReq_bad hp hr]
    exact ⟨hkeeps _ (by simp) s, hregs s, s.badReq_count⟩
  · rw [State.readReq_bad hp hr]
    exact ⟨(hkeeps _ (by simp) s).obsv _ (by simp), (hregs s).obsv _, rfl, (State.obsv_getF ..).trans s.badReq_count⟩
  · refine ⟨_, _, exec_registerWrite hoff id (.dw a) s, exec_registerWrite (by omega) id (.dw b) _, ?_⟩
    rw [exec_registerWrite hoff]
    congr 1
    cases hp : s.pwr.por with
    | true => rw [State.writeReq_por hp, State.writeReq_por hp, State.writeReq_por hp]
    | false =>
      rw [State.writeReq_two hp h8, State.writeReq_dw hp (by omega)]
      rcases s.busWrite_pair id a b h8 hp with hrun | hsame
      · rw [State.writeReq_dw hrun (by omega)]
      · rw [hsame]
        cases hpor : (s.busWrite id off a).pwr.por with
        | true => rw [State.writeReq_por hpor]
        | false => rw [State.writeReq_dw hpor (by omega), hsame]
  · have hout : ¬ inBar0 off = true := by rw [inBar0_iff]; omega
    exact ⟨if_neg hout, if_neg hout, if_neg hout⟩

end Sys2Proof.Machine
end

section
/-!
SUPPORT. Writes of plain registers (R3, R341, R344): what the access codes make of the word written.
-/

namespace Sys2Proof.Machine

/-! ### A write that goes through -/

/-- The word at `off` is a register of fields outside the mailboxes and the MSI-X tables, and not the one whose write arms an apply. -/
def ordinaryReg (off : Nat) : Bool :=
  specialAt off == .none && (regRow? off).isSome && decide (off < 0x800000) && decide (off % 4 = 0) && off != R.HIF_APPLY_CTRL

theorem exec_write_goes {s : State} {id : Ident} {off : Nat} (hreg : ordinaryReg off = true) (hg : s.goes id off) (v : Word) :
    exec (.registerWrite id off (.dw v)) s = .next ((s.writeEff id off v).bpReg id off true) := by
  simp only [ordinaryReg, Bool.and_eq_true, beq_iff_eq, decide_eq_true_eq, bne_iff_ne] at hreg
  obtain ⟨⟨⟨⟨hsp, hrow⟩, hoff⟩, h4⟩, happly⟩ := hreg
  rw [exec_registerWrite hoff, State.writeReq_dw hg.1 h4, State.busWrite, State.busWriteAs, s.goes_onBus id off hg, hsp]
  simp only [Bool.not_true, Bool.false_and, Bool.false_eq_true, if_false, Option.isNone_iff_eq_none, Option.isSome_iff_ne_none.mp hrow,
    reduceCtorEq]
  exact congrArg _ (s.gated_goes_other id off v _ hg happly)

/-- What holds of the effect of a write and its breakpoint notes holds of the next state. -/
theorem write_next {s : State} {id : Ident} {off : Nat} {P : State → Prop} (hreg : ordinaryReg off = true) (hg : s.goes id off) (v : Word)
    (h : P ((s.writeEff id off v).bpReg id off true)) : ∃ t, exec (.registerWrite id off (.dw v)) s = .next t ∧ P t :=
  ⟨_, exec_write_goes hreg hg v, h⟩

/-! ### The access codes of a register -/

theorem maskOf_or (p q : FieldRow → Bool) (l : List FieldRow) : maskOf (fun f => p f || q f) l = maskOf p l ||| maskOf q l := by
  have hdistrib (x a b : Nat) : x ||| (a ||| b) = x ||| a ||| (x ||| b) := by
    apply Nat.eq_of_testBit_eq
    intro i
    cases hx : x.testBit i <;> simp [Nat.testBit_or, hx]
  induction l with
  | nil => simp [maskOf]
  | cons f l ih =>
    cases hp : p f <;> cases hq : q f <;> simp [maskOf, ih, hp, hq, Nat.or_assoc, Nat.or_left_comm, ← hdistrib]

/-- The bits of the register that a write sets. -/
def rwMask (off : Nat) : Word := accMask .rw off ||| accMask .rwrs off

/-- A write of fields: staged fields go to the shadow; of the others a 1 clears a W1C bit and RW fields hold the value. -/
theorem State.writePlain_eq (s : State) {off : Nat} (hrow : (regRow? off).isSome = true) (v : Word) :
    s.writePlain off v =
      if accMask .st off ≠ 0#32 then s.stage off (v &&& accMask .st off)
      else if !limitsOk off v then s
      else s.wr off (((s.rd off &&& ~~~(v &&& accMask .w1c off)) &&& ~~~rwMask off) ||| (v &&& rwMask off)) := by
  obtain ⟨r, hr⟩ := Option.isSome_iff_exists.mp hrow
  have hrw : BitVec.ofNat 32 (maskOf (fun f => f.acc == .rw || f.acc == .rwrs) r.fields) = rwMask off := by
    rw [rwMask, accMask, accMask, hr, maskOf_or, BitVec.ofNat_or]
  rw [← hrw]
  unfold State.writePlain accMask
  rw [hr]

section

variable {s : State} {off : Nat}

/-- A register with no staged field. -/
theorem State.writePlain_unstaged (hrow : (regRow? off).isSome = true) (hst : accMask .st off = 0#32) (v : Word) :
    s.writePlain off v = if limitsOk off v then
      s.wr off (((s.rd off &&& ~~~(v &&& accMask .w1c off)) &&& ~~~rwMask off) ||| (v &&& rwMask off)) else s := by
  rw [s.writePlain_eq hrow, if_neg (by simp [hst])]
  cases limitsOk off v <;> rfl

theorem State.writePlain_frame (hrow : (regRow? off).isSome = true) (hst : accMask .st off = 0#32) (v : Word) :
    Keeps [.regs] s (s.writePlain off v) ∧ RegsKept [off] s (s.writePlain off v) := by
  rw [State.writePlain_unstaged hrow hst]
  split
  · exact ⟨(Keeps.refl _ s).wr _ _ (by simp), (RegsKept.refl _ s).wr _ _ (by simp)⟩
  · exact ⟨Keeps.refl _ s, RegsKept.refl _ s⟩

/-- A register whose fields are all RW, or read-only. -/
theorem State.writePlain_rw (hrow : (regRow? off).isSome = true) (hst : accMask .st off = 0#32) (hw1c : accMask .w1c off = 0#32)
    (hrwrs : accMask .rwrs off = 0#32) (v : Word) :
    (s.writePlain off v).rd off =
      if limitsOk off v then (s.rd off &&& ~~~accMask .rw off) ||| (v &&& accMask .rw off) else s.rd off := by
  rw [State.writePlain_unstaged hrow hst, rwMask, hw1c, hrwrs]
  split
  · rw [rd_wr_same, BitVec.and_zero, BitVec.not_zero, BitVec.and_allOnes, BitVec.or_zero]
  · rfl

/-- A register with no field that software sets but W1C bits. -/
theorem State.writePlain_w1c (hrow : (regRow? off).isSome = true) (hst : accMask .st off = 0#32) (hrw : rwMask off = 0#32) (v : Word) :
    (s.writePlain off v).rd off = if limitsOk off v then s.rd off &&& ~~~(v &&& accMask .w1c off) else s.rd off := by
  rw [State.writePlain_unstaged hrow hst, hrw]
  split
  · rw [rd_wr_same, BitVec.and_zero, BitVec.not_zero, BitVec.and_allOnes, BitVec.or_zero]
  · rfl

/-- A staged write outside an apply. -/
theorem State.stage_idle (h : s.applySt = 0) (v : Word) : s.stage off v = { s with shadows := insShadow off v s.shadows } :=
  if_neg (by simp [h])

/-- A staged write while an apply is under way. -/
theorem State.stage_blocked (h : s.applySt ≠ 0) (v : Word) : s.stage off v = s.setF F.HIF_APPLY_STATUS_WR_BLOCKED 1 := if_pos h

end

/-! ### Shadows -/

theorem find_insShadow_same (off : Nat) (v : Word) (l : List (Nat × Word)) :
    (insShadow off v l).find? (fun e => e.1 == off) = some (off, v) := by
  induction l with
  | nil => simp [insShadow]
  | cons e l ih =>
    obtain ⟨o, w⟩ := e
    unfold insShadow
    split
    · simp
    · split
      · simp
      · next h => rw [List.find?_cons_of_neg (by simpa using fun x => h x.symm), ih]

theorem find_insShadow_other {off o : Nat} (v : Word) (l : List (Nat × Word)) (h : o ≠ off) :
    (insShadow off v l).find? (fun e => e.1 == o) = l.find? (fun e => e.1 == o) := by
  induction l with
  | nil => simp [insShadow, h.symm]
  | cons e l ih =>
    obtain ⟨a, w⟩ := e
    unfold insShadow
    split
    · rw [List.find?_cons_of_neg (by simpa using h.symm)]
    · split
      · next heq => subst heq; rw [List.find?_cons_of_neg (by simpa using h.symm), List.find?_cons_of_neg (by simpa using h.symm)]
      · rw [List.find?_cons, List.find?_cons, ih]

theorem State.flagged_eq_find (s : State) (off : Nat) : s.flagged off = (s.shadows.find? (fun e => e.1 == off)).isSome := by
  rw [State.flagged, Bool.eq_iff_iff, List.any_eq_true, List.find?_isSome]

/-- What a staged write shows: its own shadow, and those of the other registers as they were. -/
theorem State.staged_reads (s t : State) (off : Nat) (v : Word) (ht : t.shadows = insShadow off v s.shadows) (hrd : ∀ o, t.rd o = s.rd o) :
    t.flagged off = true ∧ t.after off = v ∧ ∀ o, o ≠ off → t.flagged o = s.flagged o ∧ t.after o = s.after o := by
  refine ⟨?_, ?_, fun o ho => ⟨?_, ?_⟩⟩
  · rw [State.flagged_eq_find, ht, find_insShadow_same]; rfl
  · rw [State.after, ht, find_insShadow_same]
  · rw [State.flagged_eq_find, State.flagged_eq_find, ht, find_insShadow_other v _ ho]
  · rw [State.after, State.after, ht, find_insShadow_other v _ ho, hrd]

/-! ### The registers that O21 names -/

/-- Registers of RW fields. -/
def rwRegs : List Nat :=
  [R.TIME_QUALITY, R.UPD_TIMEOUT, R.AFE_RUN_CFG, R.AFE_RUN_DELAY, R.AFE_PLL_CFG, R.AFE_PLL_FB, R.AFE_PLL_FBINT,
    R.AFE_STOP_SN_LO, R.AFE_STOP_SN_HI, R.CAL_BG_CTRL, R.CAL_BG_INTERVAL, R.SNT_CTRL, R.STR_HUB_ID, R.STR_DRAIN,
    R.NET_DMF_CTRL, R.NET_SYNCE_CTRL, R.HIF_TIMED_APPLY_LO, R.HIF_TIMED_APPLY_HI, R.PWR_TCU_WAKE, R.PWR_MON_LIMIT,
    R.DBG_BP_VALUE 0]

/-- Registers of RC and RO fields. -/
def roRegs : List Nat :=
  [R.HIF_DENY, R.HIF_BAD_REQ, R.CAL_TRANSIENT, R.IMG_VERSION, R.AFE_DELAY_USED, R.TIME_TCU_SKIP 0,
    R.UPD_TRANSIENT, R.PWR_RET_CE, R.NET_DMF_DROP, R.SNT_ERRORS]

/-- Registers of W1C bits. -/
def w1cRegs : List Nat :=
  [R.TIME_STATUS, R.TIME_TCU_STATUS 3, R.AFE_PLL_STATUS, R.AFE_RUN_STATUS, R.IMG_REFORM_STATUS, R.HIF_STATUS,
    R.HIF_APPLY_STATUS, R.BMF_STATUS, R.FIR_STATUS 7, R.PWR_MON_STATUS]

/-- Registers of staged fields. -/
def stRegs : List Nat :=
  [R.AFE_TONE_CTRL 2, R.CND_DELAY_INT 5, R.CND_DELAY_CTRL 5, R.CND_ALIGN_CTRL, R.TRG_TC_CTRL 1, R.TRG_TO_CTRL 3, R.BMF_BANK_SEL]

theorem rwRegs_codes : ∀ off ∈ rwRegs, ordinaryReg off = true ∧ (regRow? off).isSome = true ∧ accMask .st off = 0#32 ∧
    accMask .w1c off = 0#32 ∧ accMask .rwrs off = 0#32 := by decide +kernel

theorem roRegs_codes : ∀ off ∈ roRegs, ordinaryReg off = true ∧ (regRow? off).isSome = true ∧ accMask .st off = 0#32 ∧
    accMask .w1c off = 0#32 ∧ rwMask off = 0#32 := by decide +kernel

/-- Registers of W1C bits put no limits on what is written. -/
theorem w1cRegs_codes : ∀ off ∈ w1cRegs, ordinaryReg off = true ∧ (regRow? off).isSome = true ∧ accMask .st off = 0#32 ∧
    rwMask off = 0#32 ∧ ∀ r ∈ regRow? off, ∀ f ∈ r.fields, f.lim = none := by decide +kernel

theorem stRegs_codes : ∀ off ∈ stRegs, ordinaryReg off = true ∧ (regRow? off).isSome = true ∧ accMask .st off ≠ 0#32 := by decide +kernel

/-- A write of one of these registers acts on nothing beside its fields. -/
theorem rwRegs_writeEff (id : Ident) (v : Word) (s : State) : ∀ off ∈ rwRegs, off ≠ R.NET_SYNCE_CTRL →
    s.writeEff id off v = s.writePlain off v := by
  simp only [rwRegs, List.forall_mem_cons]
  refine ⟨?_, ?_, ?_, ?_, ?_, ?_, ?_, ?_, ?_, ?_, ?_, ?_, ?_, ?_, ?_, fun h => absurd rfl h, ?_, ?_, ?_, ?_, ?_, nofun⟩ <;> intro _ <;> rfl

theorem roRegs_writeEff (id : Ident) (v : Word) (s : State) : ∀ off ∈ roRegs, s.writeEff id off v = s.writePlain off v := by
  simp only [roRegs, List.forall_mem_cons]
  refine ⟨?_, ?_, ?_, ?_, ?_, ?_, ?_, ?_, ?_, ?_, nofun⟩ <;> rfl

theorem w1cRegs_writeEff (id : Ident) (v : Word) (s : State) : ∀ off ∈ w1cRegs, s.writeEff id off v = s.writePlain off v := by
  simp only [w1cRegs, List.forall_mem_cons]
  refine ⟨?_, ?_, ?_, ?_, ?_, ?_, ?_, ?_, ?_, ?_, nofun⟩ <;> rfl

theorem stRegs_writeEff (id : Ident) (v : Word) (s : State) : ∀ off ∈ stRegs, s.writeEff id off v = s.writePlain off v := by
  simp only [stRegs, List.forall_mem_cons]
  refine ⟨?_, ?_, ?_, ?_, ?_, ?_, ?_, nofun⟩ <;> rfl

theorem State.clkMove_cases (s was : State) : s.clkMove was = s ∨ s.clkMove was = s.obsv (.synceClk s.clkOut) := by
  unfold State.clkMove
  split
  · exact .inl rfl
  · exact .inr rfl

/-- SYNCE_CLKOUT follows registers alone. -/
theorem State.clkOut_eq_of_regs {s t : State} (h : t.regs = s.regs) : t.clkOut = s.clkOut := by
  unfold State.clkOut State.bit State.getF State.rd
  rw [h]

/-- A write of NET_SYNCE_CTRL sets its fields and moves SYNCE_CLKOUT (R320). -/
theorem State.writeEff_synce (s : State) (id : Ident) (v : Word) :
    s.writeEff id R.NET_SYNCE_CTRL v = (s.writePlain R.NET_SYNCE_CTRL v).clkMove s := rfl

/-- The first clause of O21, for the effect `u` of the write. -/
theorem rwRegs_result {s u : State} {off : Nat} (id : Ident) (v : Word) (hoff : off ∈ rwRegs) (hu : u = s.writeEff id off v) :
    Keeps [.regs, .obs] s u ∧ RegsKept [off] s u ∧ (off ≠ R.NET_SYNCE_CTRL → u.obs = s.obs) ∧
      (u.obs = s.obs ∨ u.obs = .synceClk u.clkOut :: s.obs) ∧
      u.rd off = if limitsOk off v then (s.rd off &&& ~~~accMask .rw off) ||| (v &&& accMask .rw off) else s.rd off := by
  obtain ⟨-, hrow, hst, hw1c, hrwrs⟩ := rwRegs_codes off hoff
  have hrd := State.writePlain_rw (s := s) hrow hst hw1c hrwrs v
  obtain ⟨hkeeps, hregs⟩ := State.writePlain_frame (s := s) hrow hst v
  have hobs : (s.writePlain off v).obs = s.obs := hkeeps .obs (by simp)
  by_cases hsync : off = R.NET_SYNCE_CTRL
  · rw [hsync, State.writeEff_synce, ← hsync] at hu
    rcases (s.writePlain off v).clkMove_cases s with h | h
    · rw [h] at hu; subst hu
      exact ⟨hkeeps.mono (by simp), hregs, fun _ => hobs, .inl hobs, hrd⟩
    · rw [h] at hu; subst hu
      refine ⟨(hkeeps.mono (by simp)).obsv _ (by simp), hregs.obsv _, fun hno => absurd hsync hno, .inr ?_, (State.obsv_rd ..).trans hrd⟩
      show _ :: (s.writePlain off v).obs = _
      rw [hobs, State.clkOut_eq_of_regs (State.obsv_regs ..)]
  · rw [rwRegs_writeEff id v s off hoff hsync] at hu; subst hu
    exact ⟨hkeeps.mono (by simp), hregs, fun _ => hobs, .inl hobs, hrd⟩

theorem limitsOk_of_no_limits {off : Nat} (h : ∀ r ∈ regRow? off, ∀ f ∈ r.fields, f.lim = none) (v : Word) : limitsOk off v = true := by
  unfold limitsOk
  split
  · rfl
  · next r hr =>
    rw [List.all_eq_true]
    exact fun f hf => by rw [limitOk, h r hr f hf]

/-! ### FLW_FQ_LIMIT -/

theorem fqLimit_codes : ∀ n : Fin 16, ordinaryReg (R.FLW_FQ_LIMIT n) = true ∧ (regRow? (R.FLW_FQ_LIMIT n)).isSome = true ∧
    accMask .st (R.FLW_FQ_LIMIT n) = 0#32 ∧ accMask .w1c (R.FLW_FQ_LIMIT n) = 0#32 ∧ accMask .rwrs (R.FLW_FQ_LIMIT n) = 0#32 ∧
    accMask .rw (R.FLW_FQ_LIMIT n) = 0x1FFFFF#32 ∧ ∀ r ∈ regRow? (R.FLW_FQ_LIMIT n), ∀ f ∈ r.fields, f.lim = none := by decide +kernel

theorem State.writeEff_fqLimit (s : State) (id : Ident) (n : Fin 16) (v : Word) :
    s.writeEff id (R.FLW_FQ_LIMIT n) v = (s.writePlain (R.FLW_FQ_LIMIT n) v).fqLimited n (s.fqUsable n) := by
  fin_cases n <;> rfl

/-- Whether a queue holds unread lines is no matter of registers. -/
theorem State.fqHolds_eq_of_keeps {s t : State} (h : Keeps [.regs] s t) (n : Nat) : t.fqHolds n = s.fqHolds n := by
  have hfqs : t.fqs = s.fqs := h .fqs (by simp)
  have hports : t.ports = s.ports := h .ports (by simp)
  simp only [State.fqHolds, State.sendingOf, State.fq, State.port, hfqs, hports]

/-- The pointers of queue `n`, and its credit. -/
def fqPointers (n : Nat) : List Nat := [R.FLW_FQ_RD n, R.FLW_FQ_COMMIT n, R.FLW_FQ_REWIND n, R.FLW_FQ_WR n, R.FLW_FQ_CREDIT n]

theorem Keeps.fqHeldUpd {l : List Field} {s t : State} (h : Keeps l s t) (x : List (Option Nat)) (hm : Field.fqHeld ∈ l) :
    Keeps l s { t with fqHeld := x } := by
  intro f hf
  cases f
  case fqHeld => exact absurd hm hf
  all_goals exact h _ hf

theorem State.fqFresh_frame (s : State) (n : Nat) :
    Keeps [.regs, .fqHeld] s (s.fqFresh n) ∧ RegsKept (fqPointers n) s (s.fqFresh n) := by
  refine ⟨?_, ?_⟩
  · exact ((((((Keeps.refl [.regs, .fqHeld] s).fqHeldUpd _ (by simp)).setF _ _ (by simp)).setF _ _ (by simp)).setF _ _ (by simp)).setF _ _
      (by simp)).setF _ _ (by simp)
  · exact (((((RegsKept.refl _ s).setF _ _ (by simp [fqPointers, F.FLW_FQ_RD_RD])).setF _ _
      (by simp [fqPointers, F.FLW_FQ_COMMIT_COMMIT])).setF _ _ (by simp [fqPointers, F.FLW_FQ_REWIND_REWIND])).setF _ _
      (by simp [fqPointers, F.FLW_FQ_WR_WR])).setF _ _ (by simp [fqPointers, F.FLW_FQ_CREDIT_WORDS])

theorem State.fqFresh_pointers (s : State) (n : Fin 16) :
    (s.fqFresh n).getF (F.FLW_FQ_WR_WR n) = 0 ∧ (s.fqFresh n).getF (F.FLW_FQ_RD_RD n) = 0 := by
  constructor <;>
  · unfold State.fqFresh
    fin_cases n <;> simp (disch := decide) only [getF_setF_same, getF_setF_other] <;> rfl

theorem fqPointers_ne_limit : ∀ n : Fin 16, (F.FLW_FQ_LIMIT_LINES n).off ∉ fqPointers n := by decide

/-- The limit reads what was written (R233). -/
theorem State.writePlain_fqLimit (s : State) (n : Fin 16) (v : Word) :
    (s.writePlain (R.FLW_FQ_LIMIT n) v).getF (F.FLW_FQ_LIMIT_LINES n) = getBits v 0 21 := by
  obtain ⟨-, hrow, hst, hw1c, hrwrs, hrw, hlim⟩ := fqLimit_codes n
  show getBits ((s.writePlain (R.FLW_FQ_LIMIT n) v).rd (R.FLW_FQ_LIMIT n)) 0 21 = _
  rw [State.writePlain_rw hrow hst hw1c hrwrs, if_pos (limitsOk_of_no_limits hlim v), hrw]
  simp only [getBits, pow_zero, Nat.div_one]
  apply Nat.eq_of_testBit_eq
  intro i
  have hmask : (0x1FFFFF#32).getLsbD i = decide (i < 21) := Nat.testBit_two_pow_sub_one 21 i
  simp only [Nat.testBit_mod_two_pow, BitVec.testBit_toNat, BitVec.getLsbD_or, BitVec.getLsbD_and, BitVec.getLsbD_not, hmask]
  by_cases h : i < 21 <;> simp [h]

/-- FLW_FQ_LIMIT (R233): the clause of O21, for the effect `u` of the write. -/
theorem fqLimit_result (s : State) (n : Fin 16) (v : Word) {w u : State} (hw : w = s.writePlain (R.FLW_FQ_LIMIT n) v)
    (hu : u = w.fqLimited n (s.fqUsable n)) :
    Keeps [.regs, .fqHeld] s u ∧ u.getF (F.FLW_FQ_LIMIT_LINES n) = getBits v 0 21 ∧
      (s.fqHolds n = true → RegsKept [R.FLW_FQ_LIMIT n] s u ∧ (n < s.fqHeld.length → u.fqHeld.getD n none = some (s.fqUsable n))) ∧
      (s.fqHolds n = false → u.getF (F.FLW_FQ_WR_WR n) = 0 ∧ u.getF (F.FLW_FQ_RD_RD n) = 0) := by
  obtain ⟨-, hrow, hst, -⟩ := fqLimit_codes n
  obtain ⟨hkeeps, hregs⟩ := State.writePlain_frame (s := s) hrow hst v
  have hlim := s.writePlain_fqLimit n v
  rw [← hw] at hkeeps hregs hlim
  have hholds := State.fqHolds_eq_of_keeps hkeeps n
  have hheld : w.fqHeld = s.fqHeld := hkeeps .fqHeld (by simp)
  unfold State.fqLimited at hu
  by_cases h : s.fqHolds n = true
  · rw [if_pos (hholds.trans h)] at hu
    subst hu
    refine ⟨(hkeeps.mono (by simp)).trans ?_, hlim, fun _ => ⟨hregs, fun hn => ?_⟩, fun hno => absurd h (by simp [hno])⟩
    · exact (Keeps.refl _ w).fqHeldUpd _ (by simp)
    · show (updAt _ w.fqHeld n).getD n none = _
      rw [hheld, updAt_get_same _ _ _ _ hn]
  · rw [if_neg (by rw [hholds]; exact h)] at hu
    subst hu
    obtain ⟨hkf, hrf⟩ := w.fqFresh_frame n
    refine ⟨(hkeeps.mono (by simp)).trans hkf, ?_, fun hyes => absurd hyes h, fun _ => w.fqFresh_pointers n⟩
    rw [hrf.getF _ (fqPointers_ne_limit n), hlim]

/-- Settles O21: each clause from the access codes of its registers. -/
theorem plainWriteHolds : Obligations.PlainWriteHolds := by
  unfold Obligations.PlainWriteHolds
  refine ⟨fun id off v m s hoff hg hm => write_next (rwRegs_codes off hoff).1 hg v ?_,
    fun id off v s hoff hg => write_next (roRegs_codes off hoff).1 hg v ?_,
    fun id off v s hoff hg => write_next (w1cRegs_codes off hoff).1 hg v ?_,
    fun id off v m s hoff hg hm => write_next (stRegs_codes off hoff).1 hg v ?_,
    fun id n v s hg => write_next (fqLimit_codes n).1 hg v ?_⟩
  · obtain ⟨hkeeps, hregs, hobs, hclk, hrd⟩ := rwRegs_result id v hoff rfl
    refine ⟨(hkeeps.mono (by simp)).bpReg _ _ _ (by simp), hregs.bpReg _ _ _, hobs, ?_, fun hl => ?_, fun hl => ?_⟩
    · rw [State.clkOut_eq_of_regs (State.bpReg_regs ..)]
      exact hclk
    · rw [State.bpReg_rd, hrd, if_pos hl, hm]
    · rw [State.bpReg_rd, hrd, if_neg (by simp [hl])]
  · obtain ⟨-, hrow, hst, hw1c, hrw⟩ := roRegs_codes off hoff
    rw [roRegs_writeEff id v s off hoff]
    obtain ⟨hkeeps, hregs⟩ := State.writePlain_frame (s := s) hrow hst v
    have hrd : (s.writePlain off v).rd off = s.rd off := by
      rw [State.writePlain_w1c hrow hst hrw, hw1c, BitVec.and_zero, BitVec.not_zero, BitVec.and_allOnes, ite_self]
    refine ⟨(hkeeps.mono (by simp)).bpReg _ _ _ (by simp), fun o _ => (State.bpReg_rd ..).trans ?_⟩
    by_cases ho : o = off
    · exact ho ▸ hrd
    · exact hregs o (by simpa using ho)
  · obtain ⟨-, hrow, hst, hrw, hlim⟩ := w1cRegs_codes off hoff
    rw [w1cRegs_writeEff id v s off hoff]
    obtain ⟨hkeeps, hregs⟩ := State.writePlain_frame (s := s) hrow hst v
    refine ⟨(hkeeps.mono (by simp)).bpReg _ _ _ (by simp), hregs.bpReg _ _ _, (State.bpReg_rd ..).trans ?_⟩
    rw [State.writePlain_w1c hrow hst hrw, if_pos (limitsOk_of_no_limits hlim v)]
  · obtain ⟨-, hrow, hst⟩ := stRegs_codes off hoff
    rw [stRegs_writeEff id v s off hoff, State.writePlain_eq s hrow, if_pos hst]
    refine ⟨fun hidle => ?_, fun hbusy => ?_⟩
    · rw [State.stage_idle hidle, hm]
      exact ⟨((Keeps.refl _ s).shadows _ (by simp)).bpReg _ _ _ (by simp), State.staged_reads s _ off _ rfl (fun _ => rfl)⟩
    · rw [State.stage_blocked hbusy]
      exact ⟨((Keeps.refl _ s).setF _ _ (by simp)).bpReg _ _ _ (by simp), ((RegsKept.refl _ s).setF _ _ (by decide)).bpReg _ _ _,
        (State.bpReg_bit ..).trans (bit_setF_one s _ (by decide))⟩
  · rw [State.writeEff_fqLimit]
    obtain ⟨hkeeps, hlim, hheld, hfree⟩ := fqLimit_result s n v rfl rfl
    refine ⟨(hkeeps.mono (by simp)).bpReg _ _ _ (by simp), (State.bpReg_getF ..).trans hlim, fun h => ⟨(hheld h).1.bpReg _ _ _, fun hn => ?_⟩,
      fun h => ⟨(State.bpReg_getF ..).trans (hfree h).1, (State.bpReg_getF ..).trans (hfree h).2⟩⟩
    rw [State.fqUsable, State.bpReg_fqHeld, (hheld h).2 hn, Option.getD_some]

end Sys2Proof.Machine
end

section
/-!
SUPPORT. Reads of registers (R3, R340): the word that a register shows.
-/

namespace Sys2Proof.Machine

/-- Reset, with 0 in the register file where GLB_PART stands. -/
def partCleared : State := State.reset.wr R.GLB_PART 0#32

theorem partCleared_reads : (partCleared.readReq .host0 R.GLB_PART .dw).obs = [.read 1 R.GLB_PART 0x1D3256#32] := by decide +kernel

/-- Refutes O22: a read of GLB_PART returns the part number whatever the register file holds there (`State.glbReg`), so it is not the
word of the register file in a state that holds another one. -/
theorem not_rcReadClears : ¬ Obligations.RcReadClears := by
  unfold Obligations.RcReadClears
  intro h
  obtain ⟨-, -, hplain, -⟩ := h
  obtain ⟨t, ht, -, hobs⟩ := hplain .host0 R.GLB_PART partCleared (by decide) (by decide) (by unfold State.readsNow; decide +kernel) (by decide +kernel)
    (fun _ he => nomatch he)
  obtain rfl : partCleared.readReq .host0 R.GLB_PART .dw = t := Host.Outcome.next.inj ht
  rw [partCleared_reads] at hobs
  exact absurd (List.cons.inj hobs).1 (by decide +kernel)

end Sys2Proof.Machine
end

section
/-!
SUPPORT. Snapshots (R3, R38, R340): a head latches its members of one instant for the identity that reads it.
-/

namespace Sys2Proof.Machine

theorem State.canAccess_onBus {s : State} {id : Ident} (hb : onBus id = true) (hp : s.pwr.por = false) : s.canAccess id = true := by
  cases id <;> first | exact absurd hb (by decide) | simp [State.canAccess, hp]

/-- A read request that completes at once, of a register outside the mailboxes and the MSI-X tables in a domain that is ON. -/
theorem State.readReq_now {s : State} {id : Ident} {off : Nat} (hreg : ordinaryReg off = true) (hb : onBus id = true)
    (hr : s.readsNow id off) (hd : s.domOn (domainOf off) = true) :
    s.readReq id off .dw = ((s.readEff id off).2.bpReg id off false).obsv (.read id.num off (s.readEff id off).1) := by
  obtain ⟨hp, hwait⟩ := hr
  simp only [ordinaryReg, Bool.and_eq_true, beq_iff_eq, decide_eq_true_eq, bne_iff_ne] at hreg
  obtain ⟨⟨⟨⟨hsp, hrow⟩, hoff⟩, h4⟩, -⟩ := hreg
  have hbus : s.busRead id off = ((s.readEff id off).1, (s.readEff id off).2.bpReg id off false) := by
    rw [State.busRead, hb, hsp]
    simp only [Bool.not_true, Bool.false_and, Bool.false_eq_true, if_false, Option.isNone_iff_eq_none, Option.isSome_iff_ne_none.mp hrow,
      if_true]
    exact s.gatedRead_on id off _ hb hd
  rw [State.readReq, hp, State.readDone, State.canAccess_onBus hb hp, State.reading, hp, hwait, State.readNow, hbus]
  simp [h4]

/-- What holds of the effect of a read, with its breakpoint notes and its completion, holds of the next state. -/
theorem read_next {s : State} {id : Ident} {off : Nat} {P : State → Prop} (hreg : ordinaryReg off = true) (hb : onBus id = true)
    (hr : s.readsNow id off) (hd : s.domOn (domainOf off) = true)
    (h : P (((s.readEff id off).2.bpReg id off false).obsv (.read id.num off (s.readEff id off).1))) :
    ∃ t, exec (.snapshotRead id off .dw) s = .next t ∧ P t := by
  have hoff : off < 0x800000 := by
    simp only [ordinaryReg, Bool.and_eq_true, decide_eq_true_eq] at hreg
    exact hreg.1.1.2
  exact ⟨_, exec_snapshotRead hoff _ _ _, (State.readReq_now hreg hb hr hd).symm ▸ h⟩

/-- The members of the TIME_NOW group. -/
def timeNowMembers : List Nat := [R.TIME_NOW_SEC_HI, R.TIME_NOW_NS, R.TIME_NOW_FRAC, R.TIME_NOW_FRC_LO, R.TIME_NOW_FRC_HI, R.TIME_NOW_SHORT]

theorem timeNowMembers_codes : ∀ off ∈ timeNowMembers, ordinaryReg off = true ∧ domainOf off = 0 ∧ snapRole off = .member := by decide +kernel

theorem timeNowHead_codes : ordinaryReg R.TIME_NOW_SEC_LO = true ∧ domainOf R.TIME_NOW_SEC_LO = 0 ∧
    snapRole R.TIME_NOW_SEC_LO = .head [4, 8, 12, 16, 20, 24] := by decide +kernel

theorem timeNowMembers_readEff (s : State) (id : Ident) : ∀ off ∈ timeNowMembers, s.readEff id off = s.readPlain id off := by
  simp only [timeNowMembers, List.forall_mem_cons]
  refine ⟨?_, ?_, ?_, ?_, ?_, ?_, nofun⟩ <;> rfl

theorem State.domOn_zero (s : State) : s.domOn 0 = true := rfl

/-! ### Latches -/

theorem latchKey_inj {i j : Ident} {o p : Nat} (ho : o < 2 ^ 24) (hp : p < 2 ^ 24) : latchKey i o = latchKey j p ↔ i = j ∧ o = p := by
  have hnum : i.num = j.num ↔ i = j := by cases i <;> cases j <;> decide
  rw [← hnum]
  unfold latchKey
  omega

/-- What a latch leaves to read: the word latched, or what was there. -/
theorem State.latched_latch (s : State) (i j : Ident) {o p : Nat} (v : Word) (ho : o < 2 ^ 24) (hp : p < 2 ^ 24) :
    (s.latch i o v).latched j p = if j = i ∧ p = o then v else s.latched j p := by
  unfold State.latched State.latch
  split
  · next h => rw [h.1, h.2]; exact SMap.get_set_same _ _ _ _
  · next h => exact SMap.get_set_other _ _ _ _ _ (fun hk => h ((latchKey_inj hp ho).mp hk))

/-- The members of TIME_NOW latched for `id`, of the instant of `s`. -/
def State.timeLatched (s : State) (id : Ident) : State :=
  ((((((s.latch id R.TIME_NOW_SEC_HI (lo32 (tSec s.now / 2 ^ 32 + s.epoch * 2 ^ 16))).latch id R.TIME_NOW_NS (lo32 (tNs s.now))).latch
    id R.TIME_NOW_FRAC (lo32 (tFrac s.now))).latch id R.TIME_NOW_FRC_LO (lo32 s.tick)).latch id R.TIME_NOW_FRC_HI (hi32 s.tick)).latch
    id R.TIME_NOW_SHORT (lo32 (shortOf s.now)))

theorem State.readEff_timeNow (s : State) (id : Ident) :
    s.readEff id R.TIME_NOW_SEC_LO = (lo32 (tSec s.now), s.timeLatched id) := by
  obtain ⟨-, -, hrole⟩ := timeNowHead_codes
  show s.readPlain id R.TIME_NOW_SEC_LO = _
  rw [State.readPlain, hrole]
  rfl

theorem State.timeLatched_own (s : State) (id : Ident) :
    (s.timeLatched id).latched id R.TIME_NOW_SEC_HI = lo32 (tSec s.now / 2 ^ 32 + s.epoch * 2 ^ 16) ∧
    (s.timeLatched id).latched id R.TIME_NOW_NS = lo32 (tNs s.now) ∧ (s.timeLatched id).latched id R.TIME_NOW_FRAC = lo32 (tFrac s.now) ∧
    (s.timeLatched id).latched id R.TIME_NOW_FRC_LO = lo32 s.tick ∧ (s.timeLatched id).latched id R.TIME_NOW_FRC_HI = hi32 s.tick ∧
    (s.timeLatched id).latched id R.TIME_NOW_SHORT = lo32 (shortOf s.now) := by
  refine ⟨?_, ?_, ?_, ?_, ?_, ?_⟩ <;>
  · unfold State.timeLatched
    simp (disch := decide) only [State.latched_latch]
    rfl

theorem State.timeLatched_others (s : State) {id j : Ident} (hj : j ≠ id) {off : Nat} (hoff : off < 0x800000) :
    (s.timeLatched id).latched j off = s.latched j off := by
  have hlt : off < 2 ^ 24 := by omega
  unfold State.timeLatched
  iterate 6 rw [State.latched_latch _ _ _ _ (by decide) hlt, if_neg (fun h => hj h.1)]

theorem State.latched_noted (s : State) (i j : Ident) (o off : Nat) (x : Obs) :
    ((s.bpReg i o false).obsv x).latched j off = s.latched j off := by
  rw [State.latched, State.obsv_latches, State.bpReg_latches, State.latched]

/-- Settles O23: the head latches the members of one instant, a member reads its latch. -/
theorem snapshotIsOneInstant : Obligations.SnapshotIsOneInstant := by
  unfold Obligations.SnapshotIsOneInstant
  refine ⟨fun id s hb hr => ?_, fun id off s hb hr hoff => ?_⟩
  · obtain ⟨hreg, hdom, -⟩ := timeNowHead_codes
    refine read_next hreg hb hr (hdom ▸ s.domOn_zero) ?_
    rw [State.readEff_timeNow]
    obtain ⟨h1, h2, h3, h4, h5, h6⟩ := s.timeLatched_own id
    simp only [State.latched_noted]
    exact ⟨(((Keeps.refl [.latches, .dbg, .obs] s).latches _ (by simp)).bpReg _ _ _ (by simp)).obsv _ (by simp), rfl, h1, h2, h3, h4, h5,
      h6, fun j off hj hlt => s.timeLatched_others hj hlt⟩
  · obtain ⟨hreg, hdom, hrole⟩ := timeNowMembers_codes off hoff
    refine read_next hreg hb hr (hdom ▸ s.domOn_zero) ?_
    rw [timeNowMembers_readEff s id off hoff, State.readPlain, hrole]
    exact ⟨((Keeps.refl _ s).bpReg _ _ _ (by simp)).obsv _ (by simp), rfl⟩

end Sys2Proof.Machine
end

section
/-!
SUPPORT. Fences (R343).
-/

namespace Sys2Proof.Machine

/-- No access of `id` is held. -/
def State.noneHeld (s : State) (id : Ident) : Prop := ∀ h ∈ s.pwr.held ++ s.pwr.behind, h.ident ≠ id

section

variable {s : State} {id : Ident}

theorem State.noneHeld.early (h : s.noneHeld id) : s.early id = false := by
  rw [State.early, List.any_eq_false]
  intro e he
  simp [h e he]

theorem State.allEarly_of_noneHeld (h : s.noneHeld id) : s.allEarly id = s := by
  have hmap (l : List HeldWrite) (hl : ∀ e ∈ l, e.ident ≠ id) :
      l.map (fun e => if e.ident = id then { e with late := false } else e) = l :=
    (List.map_congr_left (fun e he => if_neg (hl e he))).trans (List.map_id' l)
  rw [State.allEarly, hmap _ (fun e he => h e (List.mem_append_left _ he)), hmap _ (fun e he => h e (List.mem_append_right _ he))]

/-- Nothing behind others goes on where nothing of `id` waits. -/
theorem State.behindGo_of_noneHeld (h : s.noneHeld id) (p : HeldWrite → Bool) : s.behindGo id p = s := by
  have hmine : ∀ e ∈ s.pwr.behind, (e.ident == id && p e) = false := fun e he => by simp [h e (List.mem_append_right _ he)]
  have hgo : s.pwr.behind.filter (fun e => e.ident == id && p e) = [] := List.filter_eq_nil_iff.mpr (fun e he => by simp [hmine e he])
  have hstay : s.pwr.behind.filter (fun e => !(e.ident == id && p e)) = s.pwr.behind :=
    List.filter_eq_self.mpr (fun e he => by simp [hmine e he])
  unfold State.behindGo
  simp only [hgo, hstay]
  rfl

theorem State.fenceOver_some {k : Nat} (h : s.host.fencePend.getD id.num none = some k) :
    s.fenceOver id = { s with host := { s.host with fenceDone := updAt (fun _ => k) s.host.fenceDone id.num,
                                                    fencePend := updAt (fun _ => none) s.host.fencePend id.num } } := by
  rw [State.fenceOver, h]

theorem State.fenceOver_none (h : s.host.fencePend.getD id.num none = none) : s.fenceOver id = s := by
  rw [State.fenceOver, h]

theorem updAt_updAt {α : Type} (f g : α → α) (l : List α) (i : Nat) : updAt f (updAt g l i) i = updAt (f ∘ g) l i := by
  induction l generalizing i with
  | nil => rfl
  | cons a l ih => cases i <;> simp [updAt, ih]

/-- What a fence writes of its identity's fences. -/
theorem State.fence_host (s : State) (id : Ident) (tok : Nat) :
    (s.fence id tok).host.fencePend = updAt (fun _ => some tok) s.host.fencePend id.num ∧
    (s.early id = true ∨ s.fencing id = false → (s.fence id tok).host.fenceDone = s.host.fenceDone) ∧
    ∀ k, s.early id = false → s.host.fencePend.getD id.num none = some k →
      (s.fence id tok).host.fenceDone = updAt (fun _ => k) s.host.fenceDone id.num := by
  unfold State.fence State.allEarly
  cases hearly : s.early id with
  | true => exact ⟨rfl, fun _ => rfl, nofun⟩
  | false =>
    simp only [Bool.false_eq_true, if_false]
    cases hp : s.host.fencePend.getD id.num none with
    | none =>
      rw [State.fenceOver_none hp]
      exact ⟨rfl, fun _ => rfl, nofun⟩
    | some k =>
      rw [State.fenceOver_some hp]
      refine ⟨updAt_updAt _ _ _ _, fun h => ?_, fun k' _ hk => by rw [Option.some.inj hk]⟩
      rw [State.fencing, hp] at h
      simp at h

theorem State.fence_keeps (s : State) (id : Ident) (tok : Nat) : Keeps [.host, .pwr] s (s.fence id tok) := by
  have hover : Keeps [.host, .pwr] s (if s.early id then s else s.fenceOver id) := by
    unfold State.fenceOver
    split
    · exact Keeps.refl _ s
    · split
      · exact (Keeps.refl _ s).host _ (by simp)
      · exact Keeps.refl _ s
  exact (hover.pwr _ (by simp)).host _ (by simp)

theorem State.fence_pwr (h : s.noneHeld id) (tok : Nat) : (s.fence id tok).pwr = s.pwr := by
  have hover : (s.fenceOver id).pwr = s.pwr := by unfold State.fenceOver; split <;> rfl
  have hnone : (s.fenceOver id).noneHeld id := by rw [State.noneHeld, hover]; exact h
  rw [State.fence, h.early, if_neg (by simp), State.allEarly_of_noneHeld hnone]
  exact hover

end

/-- Settles O24. -/
theorem fenceCompletes : Obligations.FenceCompletes := by
  unfold Obligations.FenceCompletes
  refine ⟨fun id tok s hg => gated_next _ hg (by decide) ?_, fun id k s hnone hk => ⟨_, rfl, ?_⟩, fun id s hheld => ?_⟩
  · obtain ⟨hpend, hkept, hover⟩ := s.fence_host id tok.toNat
    exact ⟨((s.fence_keeps id tok.toNat).mono (by simp)).bpReg _ _ _ (by simp), hpend, hkept, hover, fun h => State.fence_pwr h tok.toNat⟩
  · have hover := State.fenceOver_some hk
    have hstill : (s.fenceOver id).noneHeld id := by rw [hover]; exact hnone
    rw [State.fenceDone, State.noneHeld.early hnone, if_neg (by simp), State.allEarly_of_noneHeld hstill, State.behindGo_of_noneHeld hstill,
      hover]
    exact ⟨(Keeps.refl _ s).host _ (by simp), rfl⟩
  · obtain ⟨h, hmem, hid, hw, hl⟩ := hheld
    have hearly : s.early id = true := List.any_eq_true.mpr ⟨h, hmem, by simp [hid, hw, hl]⟩
    exact congrArg Host.Outcome.next (if_pos hearly)

end Sys2Proof.Machine
end

section
/-!
SUPPORT. Requests of re-forms (R72, R77, R407), and what the maintenance coordinator writes as it takes them (R410).
-/

namespace Sys2Proof.Machine

section

variable {l : List Field} {m : List Nat} {s t : State}

theorem Keeps.noteDepth (h : Keeps l s t) (hm : Field.regs ∈ l) : Keeps l s t.noteDepth := Keeps.ite (fun _ => h.setF _ _ hm) (fun _ => h)

theorem RegsKept.noteDepth (h : RegsKept m s t) (hm : R.MNT_QUEUE ∈ m) : RegsKept m s t.noteDepth :=
  iteInduction (fun _ => h.setF _ _ hm) (fun _ => h)

theorem Keeps.setPaused (h : Keeps l s t) (a u : Nat) (b : Bool) (hm : Field.mnt ∈ l) : Keeps l s (t.setPaused a u b) := h.mnt _ hm

theorem RegsKept.setPaused (h : RegsKept m s t) (a u : Nat) (b : Bool) : RegsKept m s (t.setPaused a u b) := h

theorem Keeps.pauseScrub (h : Keeps l s t) (hr : Field.regs ∈ l) (hm : Field.mnt ∈ l) : Keeps l s t.pauseScrub :=
  Keeps.ite (fun _ => (h.setF _ _ hr).setPaused _ _ _ hm) (fun _ => h)

theorem RegsKept.pauseScrub (h : RegsKept m s t) (hm : R.MEM_SCRUB_STATUS ∈ m) : RegsKept m s t.pauseScrub :=
  iteInduction (fun _ => (h.setF _ _ hm).setPaused _ _ _) (fun _ => h)

end

/-- An activity is among the running ones. -/
def State.running (s : State) (x : Activity) : State :=
  { s with mnt := { s.mnt with running := s.mnt.running ++ [{ x with paused := false }] } }

theorem State.enter_eq (s : State) (x : Activity) :
    s.enter x = (if x.waited then (s.running x).bump (F.MNT_ACT_WAITS_COUNT x.a) else s.running x).startAct x := rfl

/-- A re-form that is admitted is in its check pass, and pauses a scrub pass (R410, R412). -/
def State.reformBegins (s : State) : State := (({ s with reform := { s.reform with phase := 1 } }).setF F.IMG_STATUS_STATE 2).pauseScrub

/-- A re-form is admitted or waits (R410). -/
theorem State.submit_reform (s : State) (u tag : Nat) :
    s.submit actReform u tag =
      if (⟨actReform, u, tag, false, false⟩ : Activity).blocked (s.mnt.running ++ s.mnt.waiting) then
        ({ s with mnt := { s.mnt with waiting := s.mnt.waiting ++ [(⟨actReform, u, tag, true, false⟩ : Activity)] } }).noteDepth
      else (s.running ⟨actReform, u, tag, false, false⟩).reformBegins := rfl

/-- The registers that an arriving re-form writes. -/
def reformActRegs : List Nat := [R.MNT_QUEUE, R.IMG_STATUS, R.MEM_SCRUB_STATUS]

theorem State.submit_reform_frame (s : State) (u tag : Nat) :
    Keeps [.regs, .mnt, .reform] s (s.submit actReform u tag) ∧ RegsKept reformActRegs s (s.submit actReform u tag) ∧
      (s.submit actReform u tag).reform.reqs = s.reform.reqs := by
  rw [State.submit_reform]
  refine iteInduction (motive := fun t => Keeps [.regs, .mnt, .reform] s t ∧ RegsKept reformActRegs s t ∧ t.reform.reqs = s.reform.reqs)
    (fun _ => ⟨?_, ?_, ?_⟩) (fun _ => ⟨?_, ?_, ?_⟩)
  · exact ((Keeps.refl _ s).mnt _ (by simp)).noteDepth (by simp)
  · exact ((RegsKept.refl _ s).mnt _).noteDepth (by decide)
  · unfold State.noteDepth; split <;> rfl
  · exact ((((Keeps.refl [.regs, .mnt, .reform] s).mnt _ (by simp)).reform _ (by simp)).setF _ _ (by simp)).pauseScrub (by simp) (by simp)
  · exact ((((RegsKept.refl _ s).mnt _).reform _).setF _ _ (by decide)).pauseScrub (by decide)
  · unfold State.reformBegins State.pauseScrub; split <;> rfl

theorem Keeps.showCheck {l : List Field} {s t : State} (h : Keeps l s t) (c d n : Nat) (hm : Field.regs ∈ l) : Keeps l s (t.showCheck c d n) :=
  have h3 := ((h.setF F.IMG_CHECK_CODE c hm).setF F.IMG_CHECK_DETAIL d hm).setF F.IMG_CHECK_SLOT n hm
  Keeps.ite (fun _ => h3.setF _ _ hm) (fun _ => h3)

/-! ### REFORM_REQUEST -/

/-- The registers that GO writes. -/
def reformGoRegs : List Nat := R.IMG_REFORM_STATUS :: R.IMG_CHECK :: R.UPD_STATUS :: reformActRegs

/-- IMG_REFORM_CTRL with the word `v` written. -/
def State.reformAsked (s : State) (v : Word) : State :=
  (s.setF F.IMG_REFORM_CTRL_SLOT (getBits v 0 2)).setF F.IMG_REFORM_CTRL_AT_SN (getBits v 2 1)

theorem State.reformAsked_fields (s : State) (v : Word) :
    (s.reformAsked v).getF F.IMG_REFORM_CTRL_SLOT = getBits v 0 2 ∧ (s.reformAsked v).getF F.IMG_REFORM_CTRL_AT_SN = getBits v 2 1 := by
  unfold State.reformAsked
  constructor <;> simp (disch := decide) only [getF_setF_same, getF_setF_other] <;> exact Nat.mod_eq_of_lt (getBits_lt _ _ _)

theorem State.reformAsked_frame (s : State) (v : Word) :
    Keeps [.regs] s (s.reformAsked v) ∧ RegsKept [R.IMG_REFORM_CTRL] s (s.reformAsked v) :=
  ⟨((Keeps.refl _ s).setF _ _ (by simp)).setF _ _ (by simp), ((RegsKept.refl _ s).setF _ _ (by decide)).setF _ _ (by decide)⟩

theorem getBits_one (w : Word) (i : Nat) : (getBits w i 1 == 1) = w.getLsbD i := by
  rw [BitVec.getLsbD, Nat.testBit_eq_decide_div_mod_eq, Bool.beq_eq_decide_eq]
  rfl

theorem RegsKept.showCheck {l : List Nat} {s t : State} (h : RegsKept l s t) (c d n : Nat) (h1 : R.IMG_CHECK ∈ l) (h2 : R.UPD_STATUS ∈ l) :
    RegsKept l s (t.showCheck c d n) :=
  have h3 := ((h.setF F.IMG_CHECK_CODE c h1).setF F.IMG_CHECK_DETAIL d h1).setF F.IMG_CHECK_SLOT n h1
  iteInduction (fun _ => h3.setF _ _ h2) (fun _ => h3)

/-- What GO leaves alone. -/
theorem State.reformGo_frame (s : State) : Keeps [.regs, .mnt, .reform] s s.reformGo ∧ RegsKept reformGoRegs s s.reformGo := by
  have hk := Keeps.refl [.regs, .mnt, .reform] s
  have hr := RegsKept.refl reformGoRegs s
  unfold State.reformGo
  refine ⟨Keeps.ite (fun _ => hk.setF _ _ (by simp)) (fun _ => Keeps.ite (fun _ => ?_) (fun _ => Keeps.ite (fun _ => ?_) (fun _ => ?_))),
    iteInduction (fun _ => hr.setF _ _ (by decide)) (fun _ => iteInduction (fun _ => ?_) (fun _ => iteInduction (fun _ => ?_) (fun _ => ?_)))⟩
  · exact (hk.setF _ _ (by simp)).showCheck _ _ _ (by simp)
  · exact hk.setF _ _ (by simp)
  · exact ((hk.reform _ (by simp)).setF _ _ (by simp)).trans (State.submit_reform_frame _ _ _).1
  · exact (hr.setF _ _ (by decide)).showCheck _ _ _ (by decide) (by decide)
  · exact hr.setF _ _ (by decide)
  · exact ((hr.reform _).setF _ _ (by decide)).trans ((State.submit_reform_frame _ _ _).2.1.mono (by decide))

theorem State.reformGo_noSlot {s : State} (h : s.getF F.IMG_REFORM_CTRL_SLOT = 0) : s.reformGo = s.setF F.IMG_REFORM_STATUS_REFUSED 1 :=
  if_pos h

theorem State.reformGo_busy {s : State} (h : s.getF F.IMG_REFORM_CTRL_SLOT ≠ 0) (hb : s.updBusy = true) :
    s.reformGo = (s.setF F.IMG_REFORM_STATUS_REFUSED 1).showCheck 0x0C 0x10 (s.getF F.IMG_REFORM_CTRL_SLOT) :=
  (if_neg h).trans (if_pos hb)

theorem State.reformGo_full {s : State} (h : s.getF F.IMG_REFORM_CTRL_SLOT ≠ 0) (hb : s.updBusy = false) (hq : 2 ≤ s.reform.reqs.length) :
    s.reformGo = s.setF F.IMG_REFORM_STATUS_QUEUE_FULL 1 :=
  (if_neg h).trans ((if_neg (by simp [hb])).trans (if_pos hq))

theorem State.reformGo_taken {s : State} (h : s.getF F.IMG_REFORM_CTRL_SLOT ≠ 0) (hb : s.updBusy = false) (hq : s.reform.reqs.length < 2) :
    s.reformGo = s.reformAdd ⟨s.getF F.IMG_REFORM_CTRL_SLOT, s.bit F.IMG_REFORM_CTRL_AT_SN, s.rd64 R.IMG_REFORM_SN_LO R.IMG_REFORM_SN_HI, 0⟩ :=
  (if_neg h).trans ((if_neg (by simp [hb])).trans (if_neg (by omega)))

theorem State.showCheck_fields (s : State) (detail slot : Nat) :
    (s.showCheck 0x0C detail slot).getF F.IMG_CHECK_CODE = 0x0C ∧ (s.showCheck 0x0C detail slot).getF F.IMG_CHECK_DETAIL = detail % 2 ^ 8 ∧
      (s.showCheck 0x0C detail slot).getF F.IMG_CHECK_SLOT = slot % 2 ^ 2 := by
  unfold State.showCheck
  refine ⟨?_, ?_, ?_⟩ <;> rw [if_pos rfl] <;> simp (disch := decide) only [getF_setF_same, getF_setF_other] <;> rfl

theorem State.reformAdd_result (s : State) (r : ReformReq) :
    (s.reformAdd r).reform.reqs = s.reform.reqs ++ [r] ∧ (s.reformAdd r).bit F.IMG_REFORM_STATUS_PENDING = true ∧
      RegsKept (R.IMG_REFORM_STATUS :: reformActRegs) s (s.reformAdd r) := by
  unfold State.reformAdd
  obtain ⟨-, hregs, hreqs⟩ := State.submit_reform_frame (({ s with reform := { s.reform with reqs := s.reform.reqs ++ [r] } }).setF
    F.IMG_REFORM_STATUS_PENDING 1) 0 0
  refine ⟨hreqs, (hregs.bit _ (by decide)).trans (bit_setF_one _ _ (by decide)), ?_⟩
  exact (((RegsKept.refl _ s).reform _).setF _ _ (by simp [F.IMG_REFORM_STATUS_PENDING])).trans (hregs.mono (fun o ho => by simp [ho]))

/-- Settles O25: the four ends of a request, by SLOT, the update and the requests that wait. -/
theorem reformRequestResult : Obligations.ReformRequestResult := by
  unfold Obligations.ReformRequestResult
  intro id v s hg
  refine gated_next v hg (by decide) ?_
  obtain ⟨hslot, hat⟩ := s.reformAsked_fields v
  obtain ⟨hkeeps, hregs⟩ := s.reformAsked_frame v
  have hbit : (s.reformAsked v).bit F.IMG_REFORM_CTRL_AT_SN = v.getLsbD 2 := by rw [State.bit, hat, getBits_one]
  have hbusy : (s.reformAsked v).updBusy = s.updBusy := by
    rw [State.updBusy, State.updBusy, State.updSt, State.updSt, hregs.getF _ (by decide)]
  have hsn : (s.reformAsked v).rd64 R.IMG_REFORM_SN_LO R.IMG_REFORM_SN_HI = s.rd64 R.IMG_REFORM_SN_LO R.IMG_REFORM_SN_HI := by
    rw [State.rd64, State.rd64, hregs _ (by decide), hregs _ (by decide)]
  have hreform : (s.reformAsked v).reform = s.reform := hkeeps .reform (by simp)
  have hmnt : (s.reformAsked v).mnt = s.mnt := hkeeps .mnt (by simp)
  have hgo (h : v.getLsbD 31 = true) : s.reformWrite v = (s.reformAsked v).reformGo := if_pos h
  have hno (h : v.getLsbD 31 = false) : s.reformWrite v = s.reformAsked v := if_neg (ne_true_of_eq_false h)
  have hframe : Keeps [.regs, .mnt, .reform] s (s.reformWrite v) ∧ RegsKept reformGoRegs (s.reformAsked v) (s.reformWrite v) := by
    cases h : v.getLsbD 31 with
    | false => rw [hno h]; exact ⟨hkeeps.mono (by simp), RegsKept.refl _ _⟩
    | true =>
      obtain ⟨hk, hr⟩ := (s.reformAsked v).reformGo_frame
      rw [hgo h]
      exact ⟨(hkeeps.mono (by simp)).trans hk, hr⟩
  simp only [State.bpReg_getF, State.bpReg_bit, State.bpReg_reform, State.bpReg_mnt]
  refine ⟨(hframe.1.mono (by simp)).bpReg _ _ _ (by simp), (hframe.2.getF _ (by decide)).trans hslot, (hframe.2.getF _ (by decide)).trans hat,
    fun h => ?_, fun h h0 => ?_, fun h h0 hb => ?_, fun h h0 hb hq => ?_, fun h h0 hb hq => ?_⟩
  · rw [hno h]
    exact ⟨hreform, hmnt, hregs.bpReg _ _ _⟩
  · rw [hgo h, State.reformGo_noSlot (hslot.trans h0)]
    exact ⟨hreform, hmnt, bit_setF_one _ _ (by decide), ((hregs.mono (by decide)).setF _ _ (by decide)).bpReg _ _ _⟩
  · rw [hgo h, State.reformGo_busy (by rwa [hslot]) (hbusy.trans hb), hslot]
    obtain ⟨hcode, hdetail, hcslot⟩ := ((s.reformAsked v).setF F.IMG_REFORM_STATUS_REFUSED 1).showCheck_fields 0x10 (getBits v 0 2)
    have hkept := (Keeps.refl [.regs] ((s.reformAsked v).setF F.IMG_REFORM_STATUS_REFUSED 1)).showCheck 0x0C 0x10 (getBits v 0 2) (by simp)
    have hregs' := (RegsKept.refl [R.IMG_CHECK, R.UPD_STATUS] ((s.reformAsked v).setF F.IMG_REFORM_STATUS_REFUSED 1)).showCheck 0x0C 0x10
      (getBits v 0 2) (by decide) (by decide)
    exact ⟨(hkept .reform (by simp)).trans hreform, (hkept .mnt (by simp)).trans hmnt,
      (hregs'.bit _ (by decide)).trans (bit_setF_one _ _ (by decide)), hcode, hdetail, hcslot.trans (Nat.mod_eq_of_lt (getBits_lt _ _ _))⟩
  · rw [hgo h, State.reformGo_full (by rwa [hslot]) (hbusy.trans hb) (by rwa [hreform])]
    exact ⟨hreform, hmnt, bit_setF_one _ _ (by decide)⟩
  · rw [hgo h, State.reformGo_taken (by rwa [hslot]) (hbusy.trans hb) (by rwa [hreform]), hslot, hbit, hsn]
    obtain ⟨hreqs, hpend, -⟩ := (s.reformAsked v).reformAdd_result
      ⟨getBits v 0 2, v.getLsbD 2, s.rd64 R.IMG_REFORM_SN_LO R.IMG_REFORM_SN_HI, 0⟩
    exact ⟨hreform ▸ hreqs, hpend⟩

end Sys2Proof.Machine
end

section
/-!
SUPPORT. What the shared operations leave alone: pins and clocks, wakes, notices, alerts and faults, word queues, calibration groups
and activities.
-/

namespace Sys2Proof.Machine

/-! ### Outputs -/

theorem State.pinsMove_keeps (s was : State) (l : List Pin) : Keeps [.obs] s (s.pinsMove was l) :=
  (Keeps.refl _ s).foldl _ _ (fun u p _ => u.pinEdge_keeps was p _ _)

theorem State.clkMove_keeps (s was : State) : Keeps [.obs] s (s.clkMove was) := by
  rcases s.clkMove_cases was with h | h <;> rw [h]
  · exact Keeps.refl _ s
  · exact (Keeps.refl _ s).obsv _ (by simp)

theorem State.follow_keeps (s was : State) : Keeps [.obs] s (s.follow was) := (s.pinsMove_keeps was _).trans (State.clkMove_keeps _ _)

theorem State.wakePin_keeps (s : State) (was : Bool) : Keeps [.obs] s (s.wakePin was) :=
  Keeps.ite (fun _ => Keeps.refl _ s) (fun _ => (Keeps.refl _ s).pinOut _ _ _ _ (by simp))

/-- What changes only the log keeps every register. -/
theorem Keeps.regsKept_of_obs {s t : State} (h : Keeps [.obs] s t) (l : List Nat) : RegsKept l s t :=
  fun o _ => by rw [State.rd, State.rd, h .regs (by simp)]

/-! ### Power domains -/

theorem Keeps.setDom {l : List Field} {s t : State} (h : Keeps l s t) (d n : Nat) (hm : Field.regs ∈ l) : Keeps l s (t.setDom d n) :=
  h.setF _ _ hm

theorem RegsKept.setDom {m : List Nat} {s t : State} (h : RegsKept m s t) (d n : Nat) (hm : R.PWR_DOM_STATE ∈ m) :
    RegsKept m s (t.setDom d n) := h.setF _ _ hm

theorem State.domState_setDom (s : State) {d : Nat} (hd : d < 14) (n : Nat) : (s.setDom d n).domState d = n % 4 :=
  getF_setF_same s ⟨R.PWR_DOM_STATE, 2 * d, 2⟩ n (show 2 * d + 2 ≤ 32 by omega)

theorem State.domState_setDom_other (s : State) {d e : Nat} (hd : d < 14) (he : e ≠ d) (n : Nat) : (s.setDom d n).domState e = s.domState e :=
  getF_setF_other s ⟨R.PWR_DOM_STATE, 2 * d, 2⟩ ⟨R.PWR_DOM_STATE, 2 * e, 2⟩ n (show 2 * d + 2 ≤ 32 by omega)
    (.inr (show 2 * e + 2 ≤ 2 * d ∨ 2 * d + 2 ≤ 2 * e by omega))

theorem State.domState_eq_of_regs {s t : State} (h : t.regs = s.regs) (d : Nat) : t.domState d = s.domState d := by
  rw [State.domState, State.domState, State.rd, State.rd, h]

/-- A wake, and the cases it distinguishes (R374, R383). -/
theorem State.wakeDom_keeps (s : State) (d : Nat) : Keeps [.regs, .pwr, .obs] s (s.wakeDom d) := by
  have h := Keeps.refl [.regs, .pwr, .obs] s
  refine Keeps.ite (fun _ => h.worked _ (by simp)) (fun _ => Keeps.ite (fun _ => h) (fun _ => Keeps.ite (fun _ => ?_) (fun _ => ?_)))
  · exact ((h.setDom _ _ (by simp)).worked _ (by simp)).trans ((State.clkMove_keeps _ _).mono (by simp))
  · exact (h.bump _ (by simp)).pwr _ (by simp)

/-! ### Notices to hosts and agents -/

theorem Keeps.updVec {l : List Field} {s t : State} (h : Keeps l s t) (f v : Nat) (g : MsixVec → MsixVec) (hm : Field.host ∈ l) :
    Keeps l s (t.updVec f v g) := h.host _ hm

theorem State.signal_keeps (s : State) (f v : Nat) : Keeps [.host, .obs] s (s.signal f v) :=
  Keeps.ite (fun _ => (Keeps.refl _ s).updVec _ _ _ (by simp)) (fun _ => (Keeps.refl _ s).obsv _ (by simp))

theorem State.notifyHost_keeps (s : State) (n i : Nat) : Keeps [.host, .obs, .mbx] s (s.notifyHost n i) :=
  Keeps.ite (fun _ => (State.signal_keeps _ _ _).mono (by simp)) (fun _ => ((State.signal_keeps _ _ _).mono (by simp)).mbx _ (by simp))

theorem State.signalAgent_keeps (s : State) (n i : Nat) : Keeps [.regs, .pwr, .obs, .mbx] s (s.signalAgent n i) := by
  have h : Keeps [.regs, .pwr, .obs, .mbx] s (s.wakeDom (agentDom i)) := (s.wakeDom_keeps _).mono (by simp)
  exact Keeps.ite (fun _ => h.obsv _ (by simp)) (fun _ => Keeps.ite (fun _ => h) (fun _ => h.mbx _ (by simp)))

theorem State.notify_keeps (s : State) (n i b snd : Nat) : Keeps [.regs, .pwr, .obs, .mbx, .host, .recq] s (s.notify n i b snd) := by
  unfold State.notify
  split
  · exact (s.notifyHost_keeps n 1).mono (by simp)
  · exact (s.notifyHost_keeps n 2).mono (by simp)
  · exact ((s.wakeDom_keeps 10).mono (by simp)).emit _ _ _ (by simp)
  · exact (Keeps.refl _ s).emit _ _ _ (by simp)
  · exact Keeps.ite (fun _ => (s.signalAgent_keeps n i).mono (by simp)) (fun _ => Keeps.refl _ s)

theorem State.sigsGo_keeps (s : State) (i : Nat) : Keeps [.mbx, .obs] s (s.sigsGo i) :=
  ((Keeps.refl _ s).mbx _ (by simp)).foldl _ _ (fun u _ _ => (Keeps.refl _ u).obsv _ (by simp))

theorem State.identLeave_keeps (s : State) (id : Ident) : Keeps [.regs, .pwr, .obs, .mbx, .host, .recq] s (s.identLeave id) := by
  unfold State.identLeave
  refine Keeps.ite (fun _ => ?_) (fun _ => Keeps.refl _ s)
  refine .trans ?_ ((State.wakePin_keeps _ _).mono (by simp))
  refine .trans ?_ ((State.sigsGo_keeps _ _).mono (by simp))
  refine Keeps.foldl _ _ ?_ (fun u x _ => State.notify_keeps _ _ _ _ _)
  refine Keeps.foldl _ _ ?_ (fun u x _ => (State.notify_keeps _ _ _ _ _).setF _ _ (by simp))
  exact (Keeps.refl _ s).mbx _ (by simp)

/-- An identity that is not in reset does not leave it. -/
theorem State.identLeave_idle {s : State} {id : Ident} (h : s.mbx.inReset.getD id.num false = false) : s.identLeave id = s :=
  if_neg (ne_true_of_eq_false h)

theorem State.sigsGo_nil {s : State} (h : s.mbx.sigs = []) (i : Nat) : s.sigsGo i = s := by
  unfold State.sigsGo
  simp only [h, List.filter_nil, List.foldl_nil]
  rw [← h]

/-! ### Word queues -/

theorem State.declare_keeps (s : State) (i : Nat) (r : GapRun) : Keeps [.strs] s (s.declare i r) := (Keeps.refl _ s).updStr _ _ (by simp)

theorem State.geyDrop_keeps (s : State) (i cause : Nat) : Keeps [.strs] s (s.geyDrop i cause) := by
  unfold State.geyDrop
  split
  · split
    · exact ((((Keeps.refl _ s).foldl _ _ (fun u _ _ => u.declare_keeps _ _))).updStr _ _ (by simp)).updStr _ _ (by simp)
    · exact (Keeps.refl _ s).updStr _ _ (by simp)
  · exact Keeps.refl _ s

theorem State.wqLose_keeps (s : State) (n items : Nat) (mid : Bool) (cause : Nat) : Keeps [.strs] s (s.wqLose n items mid cause) := by
  unfold State.wqLose
  split
  · exact Keeps.refl _ s
  · exact (Keeps.refl _ s).foldl _ _ (fun u _ _ => u.geyDrop_keeps _ _)

theorem Keeps.updWq {l : List Field} {s t : State} (h : Keeps l s t) (n : Nat) (g : WordQueue → WordQueue) (hm : Field.wqs ∈ l) :
    Keeps l s (t.updWq n g) := h.wqs _ hm

theorem State.bpQueue_keeps (s : State) (kind q ev : Nat) : Keeps [.dbg] s (s.bpQueue kind q ev) := (Keeps.refl _ s).bpNote _ _ _ _ (by simp)

/-- The fields that a flush of a word queue touches. -/
def flushWqFields : List Field := [.regs, .dbg, .wqs, .recq, .strs]

theorem State.flushWq_keeps (s : State) (n cause : Nat) : Keeps flushWqFields s (s.flushWq n cause) := by
  unfold State.flushWq
  have h0 : Keeps flushWqFields s (s.bpQueue 0 n 0) := (s.bpQueue_keeps _ _ _).mono (by simp [flushWqFields])
  generalize s.bpQueue 0 n 0 = t at h0
  have h1 : Keeps flushWqFields s (if (t.wq n).flushes = 0 then t.bump (F.FLW_WQ_FLUSHES_COUNT n) else t) :=
    Keeps.ite (fun _ => h0.bump _ (by simp [flushWqFields])) (fun _ => h0)
  refine Keeps.ite (fun _ => ?_) (fun _ => ?_)
  · exact Keeps.setF (Keeps.updWq (Keeps.trans (Keeps.bumpBy h1 _ _ (by simp [flushWqFields])) ((State.wqLose_keeps _ _ _ _ _).mono
      (by simp [flushWqFields]))) _ _ (by simp [flushWqFields])) _ _ (by simp [flushWqFields])
  · exact Keeps.emit (Keeps.updWq (Keeps.trans (Keeps.bumpBy h1 _ _ (by simp [flushWqFields])) ((State.wqLose_keeps _ _ _ _ _).mono
      (by simp [flushWqFields]))) _ _ (by simp [flushWqFields])) _ _ _ (by simp [flushWqFields])

theorem State.flushEnds_keeps (s : State) (b : Nat) : Keeps flushWqFields s (s.flushEnds b) :=
  (Keeps.refl _ s).foldl _ _ (fun u _ _ => Keeps.ite (fun _ => u.flushWq_keeps _ _) (fun _ => Keeps.refl _ u))

/-! ### Registers and calibration -/

theorem State.regsReset_keeps (s : State) (p : Nat → Bool) : Keeps [.regs, .shadows, .firsts] s (s.regsReset p) := by
  intro f hf
  cases f <;> first | rfl | exact absurd hf (by simp)

theorem State.showFac_keeps (s : State) (k : Nat) : Keeps [.regs] s (s.showFac k) := by
  have h : Keeps [.regs] s ((s.setB (F.CAL_RESULT_VALID_N k) (s.fac false k).isSome).setB (F.CAL_RESULT_VALID_L k) (s.fac true k).isSome) :=
    ((Keeps.refl _ s).setB _ _ (by simp)).setB _ _ (by simp)
  unfold State.showFac
  dsimp only
  split <;> exact (h.setF _ _ (by simp)).setF _ _ (by simp)

theorem State.showCal_keeps (s : State) : Keeps [.regs] s s.showCal :=
  ((Keeps.refl _ s).foldl _ _ (fun u _ _ => u.showFac_keeps _)).setF _ _ (by simp)

theorem Keeps.updGrp {l : List Field} {s t : State} (h : Keeps l s t) (g : Nat) (f : CalGroup → CalGroup) (hm : Field.cal ∈ l) :
    Keeps l s (t.updGrp g f) := h.cal _ hm

theorem State.calPhases_keeps (s : State) : Keeps [.regs] s s.calPhases :=
  (Keeps.refl _ s).foldl _ _ (fun u _ _ => Keeps.ite (fun _ => (Keeps.refl _ u).setF _ _ (by simp)) (fun _ => Keeps.refl _ u))

theorem State.unserve_keeps (s : State) (g p : Nat) : Keeps [.cal] s (s.unserve g p) := (Keeps.refl _ s).updGrp _ _ (by simp)

theorem State.dropBg_keeps (s : State) (g : Nat) : Keeps [.cal, .regs] s (s.dropBg g) := by
  unfold State.dropBg
  dsimp only
  refine Keeps.ite (fun _ => ?_) (fun _ => Keeps.setF ?_ _ _ (by simp))
  all_goals
    refine Keeps.updGrp ?_ _ _ (by simp)
    exact Keeps.ite (fun _ => (s.unserve_keeps _ _).mono (by simp)) (fun _ => Keeps.refl _ s)

/-! ### Activities that are withdrawn -/

theorem State.withdraw_keeps (s : State) (a u : Nat) : Keeps [.regs, .mnt] s (s.withdraw a u) :=
  Keeps.ite (fun _ => ((Keeps.refl _ s).mnt _ (by simp)).bump _ (by simp)) (fun _ => Keeps.refl _ s)

theorem State.withdraw_mnt {s : State} {a u : Nat} (h : s.mnt.waiting.any (fun y => y.a == a && y.unit == u) = true) :
    (s.withdraw a u).mnt = { s.mnt with waiting := dropAct a u s.mnt.waiting } := by
  rw [State.withdraw, if_pos h]
  rfl

/-- The first of the activities that `p` selects is the one dropped, where `p` looks at the kind alone. -/
theorem filter_dropAct {p : Activity → Bool} {y : Activity} (hp : ∀ z : Activity, z.a = y.a → p z = p y) {w l : List Activity}
    (h : w.filter p = y :: l) : (dropAct y.a y.unit w).filter p = l := by
  have hy : p y = true := (List.mem_filter.mp (h ▸ List.mem_cons_self)).2
  induction w with
  | nil => cases h
  | cons z w ih =>
    cases hz : p z with
    | true =>
      rw [List.filter_cons_of_pos hz] at h
      obtain ⟨rfl, hl⟩ := List.cons.inj h
      rw [dropAct, if_pos ⟨rfl, rfl⟩, hl]
    | false =>
      rw [List.filter_cons_of_neg (by simp [hz])] at h
      have hne : ¬ (z.a = y.a ∧ z.unit = y.unit) := fun hk => by rw [hp z hk.1, hy] at hz; cases hz
      rw [dropAct, if_neg hne, List.filter_cons_of_neg (by simp [hz]), ih h]

/-- Withdrawing every waiting activity that `p` selects leaves none. -/
theorem State.withdrawAll {p : Activity → Bool} (hp : ∀ y z : Activity, z.a = y.a → p z = p y) (l : List Activity) (s : State)
    (h : s.mnt.waiting.filter p = l) :
    (l.foldl (fun s y => s.withdraw y.a y.unit) s).mnt.waiting.filter p = [] ∧
      (l.foldl (fun s y => s.withdraw y.a y.unit) s).mnt.running = s.mnt.running := by
  induction l generalizing s with
  | nil => exact ⟨h, rfl⟩
  | cons y l ih =>
    have hmem : y ∈ s.mnt.waiting := (List.mem_filter.mp (h ▸ List.mem_cons_self)).1
    have hmnt := State.withdraw_mnt (s := s) (a := y.a) (u := y.unit) (List.any_eq_true.mpr ⟨y, hmem, by simp⟩)
    obtain ⟨hw, hr⟩ := ih (s.withdraw y.a y.unit) (by rw [hmnt]; exact filter_dropAct (hp y) h)
    exact ⟨hw, hr.trans (by rw [hmnt])⟩

/-- A calibration is FGCAL or BGCAL (R408). -/
def Activity.isCal (x : Activity) : Bool := x.a == actBgcal || x.a == actFgcal

/-- Every waiting calibration is withdrawn. -/
def State.calsWithdrawn (s : State) : State := (s.mnt.waiting.filter Activity.isCal).foldl (fun s y => s.withdraw y.a y.unit) s

/-- The running calibrations are off the list, and no CALRUN is under way. -/
def State.calsEnded (s : State) : State :=
  let s := { s with mnt := { s.mnt with running := s.mnt.running.filter (fun y => y.a != actBgcal && y.a != actFgcal) } }
  { s with cal := { s.cal with fg := 0, done := [] } }

/-- The registers of block CAL after its reset, and the queues with an end there. -/
def State.calShown (s : State) : State :=
  ((((s.regsReset (inBlock 8)).setF F.CAL_STATUS_SAVE_BUSY (s.getF F.CAL_STATUS_SAVE_BUSY)).calPhases).showCal).flushEnds 8

theorem State.calBlock_eq (s : State) : s.calBlock = ((List.range 16).foldl State.dropBg s).calsWithdrawn.calsEnded.calShown := rfl

theorem State.calShown_keeps (s : State) : Keeps [.regs, .shadows, .firsts, .dbg, .wqs, .recq, .strs] s s.calShown := by
  refine .trans ?_ ((State.flushEnds_keeps _ _).mono (by simp [flushWqFields]))
  refine .trans ?_ ((State.showCal_keeps _).mono (by simp))
  refine .trans ?_ ((State.calPhases_keeps _).mono (by simp))
  exact Keeps.setF ((s.regsReset_keeps _).mono (by simp)) _ _ (by simp)

/-- A reset of CAL leaves no calibration, running or waiting (R126). -/
theorem State.calBlock_result (s : State) : s.calBlock.cal.fg = 0 ∧ s.calBlock.cal.done = [] ∧
    ∀ a ∈ s.calBlock.mnt.running ++ s.calBlock.mnt.waiting, a.a ≠ actBgcal ∧ a.a ≠ actFgcal := by
  have hp (y z : Activity) (h : z.a = y.a) : z.isCal = y.isCal := by rw [Activity.isCal, h, Activity.isCal]
  have hwait : ((List.range 16).foldl State.dropBg s).calsWithdrawn.mnt.waiting.filter Activity.isCal = [] :=
    (State.withdrawAll hp _ _ rfl).1
  rw [State.calBlock_eq]
  generalize ((List.range 16).foldl State.dropBg s).calsWithdrawn = w at hwait ⊢
  rw [w.calsEnded.calShown_keeps .cal (by simp), w.calsEnded.calShown_keeps .mnt (by simp)]
  refine ⟨rfl, rfl, fun a ha => ?_⟩
  rcases List.mem_append.mp ha with hrun | hwt
  · simpa using (List.mem_filter.mp hrun).2
  · simpa [Activity.isCal] using List.filter_eq_nil_iff.mp hwait a hwt

end Sys2Proof.Machine
end

section
/-!
SUPPORT. Power domains (R340, R372-R376, R383): idle, wake, rise and reset.
-/

namespace Sys2Proof.Machine

/-- Domain `d` takes its idle state (R373). -/
def State.domFalls (s : State) (d n : Nat) : State :=
  let t := s.setDom d n
  { t with pwr := { t.pwr with fellAt := updAt (fun _ => some s.tick) t.pwr.fellAt d } }

theorem State.domIdle_due {s : State} {d : Nat} (hd : d = 10 ∨ d = 12 ∨ d = 13) (hon : s.domState d = 2)
    (hst : s.getF (F.PWR_DOM_CTRL_IDLE_STATE d) ≠ 0) (hwork : s.hasWork d = false) (hlast : s.pwr.lastWork.getD d 0 < s.tick)
    (hhold : s.pwr.lastWork.getD d 0 + s.getF (F.PWR_DOM_CTRL_HOLD_US d) * 500 ≤ s.tick) :
    s.domIdle d = (s.domFalls d (if s.getF (F.PWR_DOM_CTRL_IDLE_STATE d) = 1 then 1 else 0)).follow s := by
  have hidl : idling d = true := by rcases hd with rfl | rfl | rfl <;> decide
  have hd11 : d ≠ 11 := by rcases hd with rfl | rfl | rfl <;> decide
  have hdue : (idling d && s.domState d == 2 && s.getF (F.PWR_DOM_CTRL_IDLE_STATE d) != 0 && !s.hasWork d &&
      decide (s.pwr.lastWork.getD d 0 < s.tick) &&
      decide (s.pwr.lastWork.getD d 0 + s.getF (F.PWR_DOM_CTRL_HOLD_US d) * 500 ≤ s.tick)) = true := by
    rw [hidl, hon, hwork, decide_eq_true hlast, decide_eq_true hhold]
    simp [hst]
  exact (if_neg hd11).trans (if_pos hdue)

/-- A domain without an idle state, with it off or with work stays as it is. -/
theorem State.domIdle_stays {s : State} {d : Nat} (hd : d ≠ 11)
    (h : ¬ (d = 10 ∨ d = 12 ∨ d = 13) ∨ s.getF (F.PWR_DOM_CTRL_IDLE_STATE d) = 0 ∨ s.hasWork d = true) : s.domIdle d = s := by
  refine (if_neg hd).trans (if_neg ?_)
  rcases h with h | h | h
  · have : idling d = false := by simpa [idling, and_assoc] using h
    simp [this]
  · simp [h]
  · simp [h]

theorem State.follow_regs (s was : State) : (s.follow was).regs = s.regs := s.follow_keeps was .regs (by simp)

/-- An idle state that is taken: the domain shows it, and only it. -/
theorem State.domFalls_result (s : State) {d n : Nat} (hd : d < 14) (hn : n < 4) :
    Keeps [.regs, .pwr, .obs] s ((s.domFalls d n).follow s) ∧ RegsKept [R.PWR_DOM_STATE] s ((s.domFalls d n).follow s) ∧
      ((s.domFalls d n).follow s).pwr = { s.pwr with fellAt := updAt (fun _ => some s.tick) s.pwr.fellAt d } ∧
      ((s.domFalls d n).follow s).domState d = n ∧ ∀ e : Nat, e ≠ d → ((s.domFalls d n).follow s).domState e = s.domState e := by
  have hobs := (s.domFalls d n).follow_keeps s
  refine ⟨.trans ?_ (hobs.mono (by simp)), .trans ?_ (hobs.regsKept_of_obs _), hobs .pwr (by simp), ?_, fun e he => ?_⟩
  · exact ((Keeps.refl _ s).setDom _ _ (by simp)).pwr _ (by simp)
  · exact ((RegsKept.refl _ s).setDom _ _ (by simp)).pwr _
  · rw [State.domState_eq_of_regs (State.follow_regs ..)]
    exact (s.domState_setDom hd n).trans (Nat.mod_eq_of_lt hn)
  · rw [State.domState_eq_of_regs (State.follow_regs ..)]
    exact s.domState_setDom_other hd he n

/-! ### Wakes -/

section

variable {s : State} {d : Nat}

theorem State.wakeDom_on (h : s.domOn d = true) : s.wakeDom d = s.worked d := if_pos h

theorem State.wakeDom_sameTick (h : s.domOn d = false) (hw : d ∉ s.pwr.waking) (hf : s.pwr.fellAt.getD d none = some s.tick) :
    s.wakeDom d = ((s.setDom d 2).worked d).clkMove s :=
  (if_neg (ne_true_of_eq_false h)).trans ((if_neg (by simpa using hw)).trans (if_pos hf))

/-- A wake that starts (R374). -/
def State.wakes (s : State) (d : Nat) : State :=
  let t := s.bump (F.PWR_DOM_WAKES_COUNT d)
  { t with pwr := { t.pwr with waking := t.pwr.waking ++ [d], wakeOff := if s.domState d == 0 then t.pwr.wakeOff ++ [d] else t.pwr.wakeOff } }

theorem State.wakeDom_starts (h : s.domOn d = false) (hw : d ∉ s.pwr.waking) (hf : s.pwr.fellAt.getD d none ≠ some s.tick) :
    s.wakeDom d = s.wakes d :=
  (if_neg (ne_true_of_eq_false h)).trans ((if_neg (by simpa using hw)).trans (if_neg hf))

/-! ### A domain that comes on -/

/-- The domain is off the lists of waking ones. -/
def State.awake (s : State) (d : Nat) : State :=
  { s with pwr := { s.pwr with waking := s.pwr.waking.filter (· != d), wakeOff := s.pwr.wakeOff.filter (· != d) } }

/-- A domain that was not OFF comes on with no reset. -/
theorem State.domRise_retained (h : d ∉ s.pwr.wakeOff) : s.domRise d = (((s.awake d).setDom d 2).domLeave d).worked d := by
  have hoff : s.pwr.wakeOff.contains d = false := by simpa using h
  rw [State.domRise, hoff]
  rfl

/-- With no identity in reset and no signal waiting, nothing happens as a domain comes on. -/
theorem State.domLeave_idle (hmbx : ∀ i, s.mbx.inReset.getD i false = false) (hsigs : s.mbx.sigs = []) : s.domLeave d = s := by
  unfold State.domLeave
  split
  · exact State.identLeave_idle (hmbx _)
  · rw [State.identLeave_idle (hmbx _), State.identLeave_idle (hmbx _)]
    exact (congrArg (State.sigsGo · 7) (State.sigsGo_nil hsigs 5)).trans (State.sigsGo_nil hsigs 7)
  · rw [State.identLeave_idle (hmbx _), State.sigsGo_nil hsigs]
  · rfl

theorem State.behindGo_nil (h : s.pwr.behind = []) (id : Ident) (p : HeldWrite → Bool) : s.behindGo id p = s := by
  unfold State.behindGo
  simp only [h, List.filter_nil]
  rw [State.replay, ← h]

theorem updAt_same {α : Type} (l : List α) (i : Nat) (d : α) : updAt (fun _ => l.getD i d) l i = l := by
  induction l generalizing i with
  | nil => rfl
  | cons a l ih => cases i <;> simp_all [updAt]

/-- With no access behind others, no identity has any that follow. -/
theorem State.followers_nil (h : s.pwr.behind = []) (id : Ident) : s.followers id = s := by
  unfold State.followers
  split
  · rfl
  · split
    · dsimp only
      rw [State.behindGo_nil (by simp [h])]
      simp only [h, List.filter_nil, List.append_nil, updAt_updAt, Function.comp_def, updAt_same]
      rw [← h]
    · exact State.behindGo_nil h id _

/-- DOMAIN_ON with nothing held for the domain and nothing behind others. -/
theorem State.domainOn_quiet (hw : d ∈ s.pwr.waking) (hoff : d ∉ s.pwr.wakeOff) (hmbx : ∀ i, s.mbx.inReset.getD i false = false)
    (hsigs : s.mbx.sigs = []) (hheld : ∀ h ∈ s.pwr.held, domainOf h.off ≠ d) (hbehind : s.pwr.behind = []) :
    s.domainOn d = (((s.awake d).setDom d 2).worked d).follow s := by
  have hrise : s.domRise d = ((s.awake d).setDom d 2).worked d := by
    rw [State.domRise_retained hoff, State.domLeave_idle (s := (s.awake d).setDom d 2) hmbx hsigs]
  have hheld' : (((s.awake d).setDom d 2).worked d).pwr.held = s.pwr.held := rfl
  have hbehind' : (((s.awake d).setDom d 2).worked d).pwr.behind = [] := hbehind
  rw [State.domainOn, if_pos (by simpa using hw), hrise]
  generalize ((s.awake d).setDom d 2).worked d = u at hheld' hbehind' ⊢
  have hmine : u.pwr.held.filter (fun h => domainOf h.off == d) = [] :=
    List.filter_eq_nil_iff.mpr (fun h hm => by simpa using hheld h (hheld' ▸ hm))
  have hother : u.pwr.held.filter (fun h => !(domainOf h.off == d)) = u.pwr.held :=
    List.filter_eq_self.mpr (fun h hm => by simpa using hheld h (hheld' ▸ hm))
  have hquiet : (u.follow s).pwr.behind = [] := by rw [u.follow_keeps s .pwr (by simp), hbehind']
  dsimp only
  rw [hmine, hother, State.release]
  simp only [List.foldl_cons, List.foldl_nil, State.followers_nil hquiet]

end

/-! ### Domain resets -/

theorem exec_domainReset {id : Ident} (hid : id ≠ .host0) (d : Fin 14) (s : State) :
    exec (.domainReset id d) s = .next (s.gated id (R.PWR_DOM_CTRL d) (s.cmdWord (R.PWR_DOM_CTRL d) 4#32) (fun s => s.domResets d)) := by
  have hne : (id == Ident.host0) = false := by simpa using hid
  simp only [exec, execDomainReset, hne, Bool.false_eq_true, if_false]

/-- A domain without identities or an idle state is not reset. -/
theorem State.domResets_other {s : State} {d : Nat} (hd : ¬ (d = 10 ∨ d = 12 ∨ d = 13)) : s.domResets d = s := by
  have hreset : s.domReset d = s := by
    unfold State.domReset
    split
    · exact absurd (.inl rfl) hd
    · exact absurd (.inr (.inl rfl)) hd
    · exact absurd (.inr (.inr rfl)) hd
    · rfl
  have hleave : s.domLeave d = s := by
    unfold State.domLeave
    split
    · exact absurd (.inl rfl) hd
    · exact absurd (.inr (.inl rfl)) hd
    · exact absurd (.inr (.inr rfl)) hd
    · rfl
  rw [State.domResets, hreset, hleave, ite_self]

/-- What the identity of CAL does as it leaves reset keeps what the reset of the block made of calibrations. -/
theorem State.domResets_cal (s : State) : (s.domResets 13).cal = (s.identReset .cals).calBlock.cal ∧
    (s.domResets 13).mnt = (s.identReset .cals).calBlock.mnt := by
  have hleave (t : State) : Keeps [.regs, .pwr, .obs, .mbx, .host, .recq] t (t.domLeave 13) :=
    (t.identLeave_keeps .cals).trans ((State.sigsGo_keeps _ _).mono (by simp))
  have h : Keeps [.regs, .pwr, .obs, .mbx, .host, .recq] (s.identReset .cals).calBlock (s.domResets 13) :=
    Keeps.ite (fun _ => hleave _) (fun _ => Keeps.refl _ _)
  exact ⟨h .cal (by simp), h .mnt (by simp)⟩

/-- Settles O29. -/
theorem domainsMove : Obligations.DomainsMove := by
  unfold Obligations.DomainsMove
  have hidl (d : Fin 14) (hd : d = 10 ∨ d = 12 ∨ d = 13) : idling d = true := by rcases hd with rfl | rfl | rfl <;> decide
  refine ⟨fun d s hd hon hst hwork hlast hhold => ?_, fun d s hd h => ?_, fun s hlink => ?_, fun d s hd hon => ?_,
    fun d s hd hon hw hf => ?_, fun d s hd hon hw hf => ?_, fun d s hw => ?_, fun d s hw hoff hmbx hsigs hheld hbehind => ?_,
    fun d s hp => ?_, fun id d s hid hg hd => ?_, fun id s hid hg => ?_⟩
  · have hd' : d.val = 10 ∨ d.val = 12 ∨ d.val = 13 := by omega
    refine ⟨_, congrArg Host.Outcome.next (State.domIdle_due hd' hon hst hwork hlast hhold), ?_⟩
    exact s.domFalls_result d.isLt (by split <;> omega)
  · exact congrArg Host.Outcome.next (State.domIdle_stays (by omega) (h.imp_left (by omega)))
  · have hl2 : s.domIdle 11 = (({ s with host := { s.host with linkUp := false } }).setDom 11 1).follow s := by
      rw [State.domIdle, if_pos rfl, State.hostL2, if_pos hlink]
    refine ⟨_, congrArg Host.Outcome.next hl2, ?_⟩
    have hobs := (({ s with host := { s.host with linkUp := false } }).setDom 11 1).follow_keeps s
    refine ⟨.trans ?_ (hobs.mono (by simp)), .trans ?_ (hobs.regsKept_of_obs _), ?_, hobs .host (by simp)⟩
    · exact ((Keeps.refl _ s).host _ (by simp)).setDom _ _ (by simp)
    · exact ((RegsKept.refl _ s).host _).setDom _ _ (by simp)
    · rw [State.domState_eq_of_regs (State.follow_regs ..)]
      exact State.domState_setDom _ (by decide) 1
  · refine ⟨_, congrArg Host.Outcome.next ((if_pos (hidl d hd)).trans (State.wakeDom_on hon)), ?_, rfl⟩
    exact (Keeps.refl _ s).worked _ (by simp)
  · refine ⟨_, congrArg Host.Outcome.next ((if_pos (hidl d hd)).trans (State.wakeDom_sameTick hon hw hf)), ?_, ?_, ?_⟩
    · exact (((Keeps.refl _ s).setDom _ _ (by simp)).worked _ (by simp)).trans ((State.clkMove_keeps _ _).mono (by simp))
    · exact (((RegsKept.refl _ s).setDom _ _ (by simp)).worked _).trans ((State.clkMove_keeps _ _).regsKept_of_obs _)
    · rw [State.domState_eq_of_regs (State.clkMove_keeps _ _ .regs (by simp))]
      exact s.domState_setDom d.isLt 2
  · refine ⟨_, congrArg Host.Outcome.next ((if_pos (hidl d hd)).trans (State.wakeDom_starts hon hw hf)), ?_, ?_, rfl,
      getF_bump_same s (F.PWR_DOM_WAKES_COUNT d) (show 0 + 32 ≤ 32 by decide)⟩
    · exact ((Keeps.refl _ s).bump _ (by simp)).pwr _ (by simp)
    · exact ((RegsKept.refl _ s).bump _ (by simp [F.PWR_DOM_WAKES_COUNT])).pwr _
  · exact congrArg Host.Outcome.next (if_neg (by simpa using hw))
  · refine ⟨_, congrArg Host.Outcome.next (State.domainOn_quiet hw hoff hmbx hsigs hheld hbehind), ?_⟩
    have hobs := (((s.awake d).setDom d 2).worked d).follow_keeps s
    refine ⟨.trans ?_ (hobs.mono (by simp)), .trans ?_ (hobs.regsKept_of_obs _), ?_, ?_, ?_⟩
    · exact (((Keeps.refl _ s).pwr _ (by simp)).setDom _ _ (by simp)).worked _ (by simp)
    · exact (((RegsKept.refl _ s).pwr _).setDom _ _ (by simp)).worked _
    · rw [State.domState_eq_of_regs (State.follow_regs ..)]
      exact (s.awake d).domState_setDom d.isLt 2
    · rw [hobs .pwr (by simp)]
      show d.val ∉ s.pwr.waking.filter (· != d.val)
      simp
    · rw [hobs .pwr (by simp)]
      rfl
  · refine ⟨s.deny, by simp [exec, execDomainReset, hp], (Keeps.refl _ s).deny (by simp), (RegsKept.refl _ s).deny (by simp), ?_⟩
    exact getF_bump_same s F.HIF_DENY_COUNT (by decide)
  · rw [exec_domainReset hid]
    refine gated_next _ hg (by simp [R.PWR_DOM_CTRL, R.HIF_APPLY_CTRL]; omega) ?_
    rw [State.domResets_other (by omega)]
    exact (Keeps.refl _ s).bpReg _ _ _ (by simp)
  · rw [exec_domainReset hid]
    refine gated_next _ hg (by decide) ?_
    obtain ⟨hcal, hmnt⟩ := s.domResets_cal
    rw [State.bpReg_cal, State.bpReg_mnt, show ((13 : Fin 14) : Nat) = 13 from rfl, hcal, hmnt]
    exact (s.identReset .cals).calBlock_result

end Sys2Proof.Machine
end

section
/-!
SUPPORT. The monitors (R452, R453).
-/

namespace Sys2Proof.Machine

/-- A list of eight has eight members. -/
theorem List.eq_of_length_eight {α : Type} {l : List α} (h : l.length = 8) :
    ∃ a b c d e f g i, l = [a, b, c, d, e, f, g, i] := by
  match l, h with
  | [a, b, c, d, e, f, g, i], _ => exact ⟨a, b, c, d, e, f, g, i, rfl⟩

theorem List.eq_of_length_seven {α : Type} {l : List α} (h : l.length = 7) : ∃ a b c d e f g, l = [a, b, c, d, e, f, g] := by
  match l, h with
  | [a, b, c, d, e, f, g], _ => exact ⟨a, b, c, d, e, f, g, rfl⟩

/-! ### Temperatures -/

/-- The eight temperatures are shown. -/
def State.tempsShown (s : State) (temps : List Int) : State :=
  ((List.range 8).zip temps).foldl (fun s e => s.setF (F.PWR_MON_TEMP_TEMP e.1) (ofSigned 16 e.2)) s

/-- The registers of the temperatures. -/
def tempRegs : List Nat := (List.range 8).map R.PWR_MON_TEMP

theorem State.tempsShown_frame (s : State) (temps : List Int) :
    Keeps [.regs] s (s.tempsShown temps) ∧ RegsKept tempRegs s (s.tempsShown temps) := by
  refine ⟨(Keeps.refl _ s).foldl _ _ (fun u _ _ => (Keeps.refl _ u).setF _ _ (by simp)),
    (RegsKept.refl _ s).foldl _ _ (fun u e he => (RegsKept.refl _ u).setF _ _ ?_)⟩
  exact List.mem_map.mpr ⟨e.1, (List.of_mem_zip he).1, rfl⟩

theorem ofSigned_mod (w : Nat) (z : Int) : ofSigned w z % 2 ^ w = ofSigned w z := by
  refine Nat.mod_eq_of_lt ?_
  unfold ofSigned
  have h0 : 0 ≤ z % ((2 ^ w : Nat) : Int) := Int.emod_nonneg _ (by positivity)
  have h1 : z % ((2 ^ w : Nat) : Int) < ((2 ^ w : Nat) : Int) := Int.emod_lt_of_pos _ (by positivity)
  omega

theorem State.tempsShown_temp (s : State) {temps : List Int} (h : temps.length = 8) {i : Nat} (hi : i < 8) :
    (s.tempsShown temps).getF (F.PWR_MON_TEMP_TEMP i) = ofSigned 16 (temps.getD i 0) := by
  obtain ⟨a, b, c, d, e, f, g, j, rfl⟩ := List.eq_of_length_eight h
  rw [← ofSigned_mod]
  unfold State.tempsShown
  interval_cases i <;>
    simp (disch := decide) only [List.range, List.range.loop, List.zip_cons_cons, List.zip_nil_left, List.foldl_cons, List.foldl_nil,
      getF_setF_same, getF_setF_other] <;> rfl

/-! ### Rails -/

/-- A reading of rail `v` is shown and judged. -/
def State.railShown (s : State) (v mv : Nat) : State := (s.setF (F.PWR_MON_VOLT_MV v) mv).judgeRail v mv

/-- The bit of rail `v` in RAIL_OUT. -/
def railOut (v : Nat) : Fld := ⟨R.PWR_MON_STATUS, 8 + v, 1⟩

theorem State.judgeRail_cases (s : State) (v mv : Nat) :
    s.judgeRail v mv = s ∨ s.judgeRail v mv = (s.setF (railOut v) 1).emit 0 0x0105 (pw v ++ pw mv) := by
  unfold State.judgeRail
  dsimp only
  split
  · split
    · exact .inl rfl
    · exact .inr rfl
  · exact .inl rfl

theorem State.railShown_keeps (s : State) (v mv : Nat) : Keeps [.regs, .recq] s (s.railShown v mv) := by
  have h : Keeps [.regs, .recq] s (s.setF (F.PWR_MON_VOLT_MV v) mv) := (Keeps.refl _ s).setF _ _ (by simp)
  rcases (s.setF (F.PWR_MON_VOLT_MV v) mv).judgeRail_cases v mv with hj | hj <;> rw [State.railShown, hj]
  · exact h
  · exact (h.setF _ _ (by simp)).emit _ _ _ (by simp)

/-- What a rail does not touch: fields of other registers, and those beside its bit. -/
theorem State.railShown_getF (s : State) {v mv : Nat} (hv : v < 7) {g : Fld} (hg : g.off ≠ R.PWR_MON_VOLT v)
    (hb : g.off ≠ R.PWR_MON_STATUS ∨ g.lo + g.width ≤ 8 + v ∨ 9 + v ≤ g.lo) : (s.railShown v mv).getF g = s.getF g := by
  have h : (s.setF (F.PWR_MON_VOLT_MV v) mv).getF g = s.getF g :=
    getF_setF_other _ _ _ _ (show 0 + 16 ≤ 32 by decide) (.inl hg)
  rcases (s.setF (F.PWR_MON_VOLT_MV v) mv).judgeRail_cases v mv with hj | hj <;> rw [State.railShown, hj]
  · exact h
  · rw [State.emit_getF, getF_setF_other _ _ _ _ (show 8 + v + 1 ≤ 32 by omega) (hb.imp_right (fun hb => ?_)), h]
    show g.lo + g.width ≤ 8 + v ∨ 8 + v + 1 ≤ g.lo
    omega

theorem State.railShown_volt (s : State) {v : Nat} (hv : v < 7) (mv : Nat) :
    (s.railShown v mv).getF (F.PWR_MON_VOLT_MV v) = mv % 2 ^ 16 := by
  have h : (s.setF (F.PWR_MON_VOLT_MV v) mv).getF (F.PWR_MON_VOLT_MV v) = mv % 2 ^ 16 := getF_setF_same _ _ _ (show 0 + 16 ≤ 32 by decide)
  rcases (s.setF (F.PWR_MON_VOLT_MV v) mv).judgeRail_cases v mv with hj | hj <;> rw [State.railShown, hj]
  · exact h
  · rw [State.emit_getF, getF_setF_other _ _ _ _ (show 8 + v + 1 ≤ 32 by omega) (.inl (show 0x10220 + 0x4 * v ≠ 0x10244 by omega)), h]

/-- Is a reading of rail `v` outside 5 % of nominal? -/
def railBad (v mv : Nat) : Prop := 20 * mv < 19 * railNominal.getD v 0 ∨ 21 * railNominal.getD v 0 < 20 * mv

theorem State.railShown_out (s : State) {v mv : Nat} (hv : v < 7) (h : railBad v mv) : (s.railShown v mv).bit (railOut v) = true := by
  unfold railBad at h
  unfold State.railShown State.judgeRail
  dsimp only
  rw [if_pos h]
  split
  · assumption
  · exact (State.emit_bit ..).trans (bit_setF_one _ _ ⟨show 8 + v + 1 ≤ 32 by omega, rfl⟩)

/-- A bit of RAIL_OUT that is set stays set. -/
theorem State.railShown_stays (s : State) {v w mv : Nat} (hv : v < 7) (h : s.bit (railOut w) = true) :
    (s.railShown v mv).bit (railOut w) = true := by
  by_cases hw : w = v
  · subst hw
    have hset : (s.setF (F.PWR_MON_VOLT_MV w) mv).bit (railOut w) = true := by
      rw [bit_setF_other _ _ _ _ (show 0 + 16 ≤ 32 by decide) (.inl (show 0x10244 ≠ 0x10220 + 0x4 * w by omega)), h]
    rcases (s.setF (F.PWR_MON_VOLT_MV w) mv).judgeRail_cases w mv with hj | hj <;> rw [State.railShown, hj]
    · exact hset
    · exact (State.emit_bit ..).trans (bit_setF_one _ _ ⟨show 8 + w + 1 ≤ 32 by omega, rfl⟩)
  · rw [State.bit, s.railShown_getF hv (show 0x10244 ≠ 0x10220 + 0x4 * v by omega) (.inr (show 8 + w + 1 ≤ 8 + v ∨ 9 + v ≤ 8 + w by omega))]
    exact h

/-- The seven rails are shown and judged. -/
def State.railsShown (s : State) (volts : List Nat) : State := ((List.range 7).zip volts).foldl (fun s e => s.railShown e.1 e.2) s

theorem State.railsShown_keeps (s : State) (volts : List Nat) : Keeps [.regs, .recq] s (s.railsShown volts) :=
  (Keeps.refl _ s).foldl _ _ (fun u _ _ => u.railShown_keeps _ _)

/-- Fields of other registers than those of the rails, and the low byte of the status, stay. -/
theorem State.railsShown_getF (s : State) (volts : List Nat) {g : Fld} (hg : ∀ v < 7, g.off ≠ R.PWR_MON_VOLT v)
    (hb : g.off ≠ R.PWR_MON_STATUS ∨ g.lo + g.width ≤ 8) : (s.railsShown volts).getF g = s.getF g := by
  have hfold : ∀ (l : List (Nat × Nat)) (u : State), (∀ e ∈ l, e.1 < 7) → (l.foldl (fun s e => s.railShown e.1 e.2) u).getF g = u.getF g := by
    intro l
    induction l with
    | nil => exact fun _ _ => rfl
    | cons e l ih =>
      intro u hl
      rw [List.foldl_cons, ih _ (fun e he => hl e (by simp [he]))]
      have he : e.1 < 7 := hl e (by simp)
      exact u.railShown_getF he (hg _ he) (hb.imp_right (fun hb => .inl (by omega)))
  exact hfold _ s (fun e he => List.mem_range.mp (List.of_mem_zip he).1)

theorem State.railsShown_volt (s : State) {volts : List Nat} (h : volts.length = 7) {v : Nat} (hv : v < 7) :
    (s.railsShown volts).getF (F.PWR_MON_VOLT_MV v) = volts.getD v 0 % 2 ^ 16 := by
  obtain ⟨a, b, c, d, e, f, g, rfl⟩ := List.eq_of_length_seven h
  unfold State.railsShown
  interval_cases v <;>
    simp (disch := decide) only [List.range, List.range.loop, List.zip_cons_cons, List.zip_nil_left, List.foldl_cons, List.foldl_nil,
      State.railShown_volt, State.railShown_getF] <;> rfl

theorem State.railsShown_out (s : State) {volts : List Nat} (h : volts.length = 7) {v : Nat} (hv : v < 7)
    (hbad : railBad v (volts.getD v 0)) : (s.railsShown volts).bit (railOut v) = true := by
  have hstay : ∀ (l : List (Nat × Nat)) (u : State), (∀ e ∈ l, e.1 < 7) → u.bit (railOut v) = true →
      (l.foldl (fun s e => s.railShown e.1 e.2) u).bit (railOut v) = true := by
    intro l
    induction l with
    | nil => exact fun _ _ hu => hu
    | cons e l ih => exact fun u hl hu => ih _ (fun e he => hl e (by simp [he])) (u.railShown_stays (hl e (by simp)) hu)
  have hmem : (v, volts.getD v 0) ∈ (List.range 7).zip volts := by
    refine List.mem_iff_getElem.mpr ⟨v, by simp [h, hv], ?_⟩
    rw [List.getElem_zip, List.getElem_range, List.getD_eq_getElem _ _ (h ▸ hv)]
  have hlt : ∀ e ∈ (List.range 7).zip volts, e.1 < 7 := fun e he => List.mem_range.mp (List.of_mem_zip he).1
  obtain ⟨l₁, l₂, hsplit⟩ := List.append_of_mem hmem
  rw [State.railsShown, hsplit, List.foldl_append, List.foldl_cons]
  exact hstay l₂ _ (fun e he => hlt e (by simp [hsplit, he])) (State.railShown_out _ hv hbad)

/-! ### THERM -/

/-- Sensor `i` stands at or above LIMIT. -/
def State.hot (s : State) (i : Nat) : Prop := s.getI F.PWR_MON_LIMIT_LIMIT ≤ s.getI (F.PWR_MON_TEMP_TEMP i)

/-- Every sensor stands at or below LIMIT - HYST. -/
def State.cool (s : State) : Prop :=
  ∀ i, i < 8 → s.getI (F.PWR_MON_TEMP_TEMP i) ≤ s.getI F.PWR_MON_LIMIT_LIMIT - s.getF F.PWR_MON_LIMIT_HYST

/-- THERM falls, and THERM_N with it. -/
def State.thermOff (s : State) : State := (s.setF F.PWR_MON_STATUS_THERM 0).pinEdge s .thermN s.tick 0

/-- THERM rises for sensor `i`, with its record. -/
def State.thermOn (s : State) (i : Nat) (z : Int) : State :=
  (((s.setF F.PWR_MON_STATUS_THERM 1).setF F.PWR_MON_STATUS_THERM_HIT 1).pinEdge s .thermN s.tick 0).emit 0 0x0104 (pw i ++ pint z)

theorem State.temps_getD (s : State) {i : Nat} (hi : i < 8) :
    ((List.range 8).map (fun i => s.getI (F.PWR_MON_TEMP_TEMP i))).getD i 0 = s.getI (F.PWR_MON_TEMP_TEMP i) := by
  rw [List.getD_eq_getElem _ _ (by simpa using hi), List.getElem_map, List.getElem_range]

theorem State.judgeTemps_on {s : State} (h : s.bit F.PWR_MON_STATUS_THERM = true) :
    (s.cool ∧ s.judgeTemps = s.thermOff) ∨ (¬ s.cool ∧ s.judgeTemps = s) := by
  have hall : ((List.range 8).map (fun i => s.getI (F.PWR_MON_TEMP_TEMP i))).all
      (fun x => decide (x ≤ s.getI F.PWR_MON_LIMIT_LIMIT - (s.getF F.PWR_MON_LIMIT_HYST : Nat))) = true ↔ s.cool := by
    simp [State.cool]
  unfold State.judgeTemps
  dsimp only
  rw [if_pos h]
  by_cases hc : s.cool
  · exact .inl ⟨hc, if_pos (hall.mpr hc)⟩
  · exact .inr ⟨hc, if_neg (fun hk => hc (hall.mp hk))⟩

theorem State.judgeTemps_off {s : State} (h : s.bit F.PWR_MON_STATUS_THERM = false) :
    (∃ i z, i < 8 ∧ s.hot i ∧ s.judgeTemps = s.thermOn i z) ∨ ((∀ i, i < 8 → ¬ s.hot i) ∧ s.judgeTemps = s) := by
  unfold State.judgeTemps
  dsimp only
  rw [if_neg (ne_true_of_eq_false h)]
  split
  · next i hfind =>
    have hi : i < 8 := List.mem_range.mp (List.mem_of_find?_eq_some hfind)
    have hlim := List.find?_some hfind
    rw [s.temps_getD hi, decide_eq_true_eq] at hlim
    exact .inl ⟨i, _, hi, hlim, rfl⟩
  · next hfind =>
    refine .inr ⟨fun i hi => ?_, rfl⟩
    have hlim := List.find?_eq_none.mp hfind i (List.mem_range.mpr hi)
    rwa [s.temps_getD hi, decide_eq_true_eq] at hlim

theorem RegsKept.pinEdge {m : List Nat} {s t : State} (h : RegsKept m s t) (was : State) (p : Pin) (k v : Nat) :
    RegsKept m s (t.pinEdge was p k v) := h.trans ((t.pinEdge_keeps was p k v).regsKept_of_obs _)

theorem State.thermOff_frame (s : State) : Keeps [.regs, .recq, .obs] s s.thermOff ∧ RegsKept [R.PWR_MON_STATUS] s s.thermOff :=
  ⟨((Keeps.refl _ s).setF _ _ (by simp)).pinEdge _ _ _ _ (by simp),
    ((RegsKept.refl _ s).setF _ _ (by decide)).pinEdge _ _ _ _⟩

theorem State.thermOn_frame (s : State) (i : Nat) (z : Int) :
    Keeps [.regs, .recq, .obs] s (s.thermOn i z) ∧ RegsKept [R.PWR_MON_STATUS] s (s.thermOn i z) :=
  ⟨((((Keeps.refl _ s).setF _ _ (by simp)).setF _ _ (by simp)).pinEdge _ _ _ _ (by simp)).emit _ _ _ (by simp),
    ((((RegsKept.refl _ s).setF _ _ (by decide)).setF _ _ (by decide)).pinEdge _ _ _ _).emit _ _ _⟩

theorem State.bit_eq_of_regs {s t : State} (h : t.regs = s.regs) (f : Fld) : t.bit f = s.bit f := by
  rw [State.bit, State.bit, State.getF, State.getF, State.rd, State.rd, h]

theorem State.pinEdge_bit (s was : State) (p : Pin) (k v : Nat) (f : Fld) : (s.pinEdge was p k v).bit f = s.bit f :=
  State.bit_eq_of_regs (s.pinEdge_keeps was p k v .regs (by simp)) f

theorem State.thermOff_bits (s : State) : s.thermOff.bit F.PWR_MON_STATUS_THERM = false ∧ ∀ v, v < 7 → s.thermOff.bit (railOut v) = s.bit (railOut v) := by
  unfold State.thermOff
  simp only [State.pinEdge_bit]
  exact ⟨bit_setF_zero _ _ (by decide), fun v hv => bit_setF_other _ _ _ _ (by decide) (.inr (.inr (show 0 + 1 ≤ 8 + v by omega)))⟩

theorem State.thermOn_bits (s : State) (i : Nat) (z : Int) : (s.thermOn i z).bit F.PWR_MON_STATUS_THERM = true ∧
    (s.thermOn i z).bit F.PWR_MON_STATUS_THERM_HIT = true ∧ ∀ v, v < 7 → (s.thermOn i z).bit (railOut v) = s.bit (railOut v) := by
  unfold State.thermOn
  simp only [State.emit_bit, State.pinEdge_bit]
  refine ⟨?_, bit_setF_one _ _ (by decide), fun v hv => ?_⟩
  · rw [bit_setF_other _ _ _ _ (by decide) (by decide), bit_setF_one _ _ (by decide)]
  · rw [bit_setF_other _ _ _ _ (by decide) (.inr (.inr (show 1 + 1 ≤ 8 + v by omega))),
      bit_setF_other _ _ _ _ (by decide) (.inr (.inr (show 0 + 1 ≤ 8 + v by omega)))]

/-- THERM follows the temperatures; the bits of the rails stay. -/
theorem State.judgeTemps_result (s : State) : Keeps [.regs, .recq, .obs] s s.judgeTemps ∧ RegsKept [R.PWR_MON_STATUS] s s.judgeTemps ∧
    (∀ v, v < 7 → s.judgeTemps.bit (railOut v) = s.bit (railOut v)) ∧
    (s.bit F.PWR_MON_STATUS_THERM = false → (s.judgeTemps.bit F.PWR_MON_STATUS_THERM = true ↔ ∃ i, i < 8 ∧ s.hot i) ∧
      (s.judgeTemps.bit F.PWR_MON_STATUS_THERM = true → s.judgeTemps.bit F.PWR_MON_STATUS_THERM_HIT = true)) ∧
    (s.bit F.PWR_MON_STATUS_THERM = true → (s.judgeTemps.bit F.PWR_MON_STATUS_THERM = false ↔ s.cool)) := by
  cases h : s.bit F.PWR_MON_STATUS_THERM with
  | true =>
    rcases State.judgeTemps_on h with ⟨hc, hj⟩ | ⟨hc, hj⟩ <;> rw [hj]
    · obtain ⟨hk, hr⟩ := s.thermOff_frame
      obtain ⟨hoff, hrail⟩ := s.thermOff_bits
      exact ⟨hk, hr, hrail, nofun, fun _ => iff_of_true hoff hc⟩
    · exact ⟨Keeps.refl _ s, RegsKept.refl _ s, fun _ _ => rfl, nofun, fun _ => iff_of_false (by simp [h]) hc⟩
  | false =>
    rcases State.judgeTemps_off h with ⟨i, z, hi, hhot, hj⟩ | ⟨hnone, hj⟩ <;> rw [hj]
    · obtain ⟨hk, hr⟩ := s.thermOn_frame i z
      obtain ⟨hon, hhit, hrail⟩ := s.thermOn_bits i z
      exact ⟨hk, hr, hrail, fun _ => ⟨iff_of_true hon ⟨i, hi, hhot⟩, fun _ => hhit⟩, nofun⟩
    · refine ⟨Keeps.refl _ s, RegsKept.refl _ s, fun _ _ => rfl, fun _ => ⟨iff_of_false (by simp [h]) ?_, fun hk => ?_⟩, nofun⟩
      · exact fun ⟨i, hi, hhot⟩ => hnone i hi hhot
      · rw [h] at hk; cases hk

/-- Settles O31: the temperatures are shown, then the rails, then THERM follows. -/
theorem monitorsFollow : Obligations.MonitorsFollow := by
  unfold Obligations.MonitorsFollow
  intro temps volts s ht hv hp
  have hexec : exec (.monitorSample temps volts) s = .next ((s.tempsShown temps).railsShown volts).judgeTemps := by
    show Host.Outcome.next (s.monitor temps volts) = _
    rw [State.monitor, if_neg (ne_true_of_eq_false hp)]
    rfl
  refine ⟨_, hexec, ?_⟩
  obtain ⟨hk1, hr1⟩ := s.tempsShown_frame temps
  have hk2 := (s.tempsShown temps).railsShown_keeps volts
  have htemp (i : Nat) (hi : i < 8) :
      ((s.tempsShown temps).railsShown volts).getF (F.PWR_MON_TEMP_TEMP i) = ofSigned 16 (temps.getD i 0) := by
    rw [State.railsShown_getF _ _ (fun v hv => show 0x10200 + 0x4 * i ≠ 0x10220 + 0x4 * v by omega)
      (.inl (show 0x10200 + 0x4 * i ≠ 0x10244 by omega)), s.tempsShown_temp ht hi]
  have hlimit (g : Fld) (hg : g.off = R.PWR_MON_LIMIT) : ((s.tempsShown temps).railsShown volts).getF g = s.getF g := by
    rw [State.railsShown_getF _ _ (fun v hv => hg ▸ (show 0x10240 ≠ 0x10220 + 0x4 * v by omega)) (.inl (by rw [hg]; decide)),
      hr1.getF g (by rw [hg]; decide)]
  have htherm : ((s.tempsShown temps).railsShown volts).bit F.PWR_MON_STATUS_THERM = s.bit F.PWR_MON_STATUS_THERM := by
    rw [State.bit, State.railsShown_getF _ _ (by decide) (by decide), hr1.getF _ (by decide), State.bit]
  have hvolt (v : Nat) (h : v < 7) := (s.tempsShown temps).railsShown_volt hv h
  have hout (v : Nat) (h : v < 7) := (s.tempsShown temps).railsShown_out hv h
  generalize (s.tempsShown temps).railsShown volts = u at hk2 htemp hlimit htherm hvolt hout ⊢
  obtain ⟨hk3, hr3, hrail, hoff, hon⟩ := u.judgeTemps_result
  have hti (i : Nat) (hi : i < 8) : u.judgeTemps.getF (F.PWR_MON_TEMP_TEMP i) = u.getF (F.PWR_MON_TEMP_TEMP i) :=
    hr3.getF _ (by simp [F.PWR_MON_TEMP_TEMP, R.PWR_MON_TEMP, R.PWR_MON_STATUS]; omega)
  have hhot (i : Nat) (hi : i < 8) : u.hot i ↔ s.getI F.PWR_MON_LIMIT_LIMIT ≤ u.judgeTemps.getI (F.PWR_MON_TEMP_TEMP i) := by
    rw [State.hot, State.getI, State.getI, State.getI, State.getI, hti i hi, hlimit F.PWR_MON_LIMIT_LIMIT rfl]
  have hcool : u.cool ↔ ∀ i, i < 8 →
      u.judgeTemps.getI (F.PWR_MON_TEMP_TEMP i) ≤ s.getI F.PWR_MON_LIMIT_LIMIT - s.getF F.PWR_MON_LIMIT_HYST := by
    refine forall₂_congr (fun i hi => ?_)
    rw [State.getI, State.getI, State.getI, State.getI, hti i hi, hlimit F.PWR_MON_LIMIT_LIMIT rfl, hlimit F.PWR_MON_LIMIT_HYST rfl]
  refine ⟨((hk1.mono (by simp)).trans (hk2.mono (by simp))).trans hk3, fun i hi => (hti i hi).trans (htemp i hi), fun v h => ?_,
    fun v h hbad => (hrail v h).trans (hout v h hbad), fun h => ?_, fun h => ?_⟩
  · rw [hr3.getF _ (by simp [F.PWR_MON_VOLT_MV, R.PWR_MON_VOLT, R.PWR_MON_STATUS]; omega), hvolt v h]
  · obtain ⟨hiff, hhit⟩ := hoff (htherm.trans h)
    refine ⟨hiff.trans (exists_congr (fun i => and_congr_right (fun hi => hhot i hi))), hhit⟩
  · exact (hon (htherm.trans h)).trans hcool

end Sys2Proof.Machine
end

section
/-!
SUPPORT. Registers that an operation keeps, named by a predicate, and what the end of an apply keeps (R347, R396).
-/

namespace Sys2Proof.Machine

/-- Every register whose offset satisfies `p` reads as before. -/
def RdKept (p : Nat → Prop) (s t : State) : Prop := ∀ off, p off → t.rd off = s.rd off

section

variable {p : Nat → Prop} {s t : State}

theorem RdKept.refl (p : Nat → Prop) (s : State) : RdKept p s s := fun _ _ => rfl

theorem RdKept.trans {u : State} (h : RdKept p s t) (k : RdKept p t u) : RdKept p s u := fun o ho => (k o ho).trans (h o ho)

theorem RdKept.mono {q : Nat → Prop} (h : RdKept p s t) (hq : ∀ o, q o → p o) : RdKept q s t := fun o ho => h o (hq o ho)

theorem RdKept.getF (h : RdKept p s t) (f : Fld) (hf : p f.off) : t.getF f = s.getF f := by rw [State.getF, State.getF, h _ hf]

theorem RdKept.bit (h : RdKept p s t) (f : Fld) (hf : p f.off) : t.bit f = s.bit f := by rw [State.bit, State.bit, h.getF f hf]

/-- What keeps the register file keeps every register. -/
theorem RdKept.of_keeps {l : List Field} (h : RdKept p s t) {u : State} (hk : Keeps l t u) (hl : Field.regs ∉ l) : RdKept p s u :=
  h.trans (fun o _ => by rw [State.rd, State.rd, hk .regs hl])

theorem RdKept.of_regsKept {l : List Nat} (h : RegsKept l s t) (hl : ∀ o, p o → o ∉ l) : RdKept p s t := fun o ho => h o (hl o ho)

theorem RdKept.wr (h : RdKept p s t) (off : Nat) (v : Word) (hp : ¬ p off) : RdKept p s (t.wr off v) :=
  fun o ho => (rd_wr_other _ _ _ _ (fun (he : o = off) => hp (he ▸ ho))).trans (h o ho)

theorem RdKept.setF (h : RdKept p s t) (f : Fld) (n : Nat) (hp : ¬ p f.off) : RdKept p s (t.setF f n) :=
  fun o ho => (rd_setF_other _ _ _ _ (fun (he : o = f.off) => hp (he ▸ ho))).trans (h o ho)

theorem RdKept.setB (h : RdKept p s t) (f : Fld) (b : Bool) (hp : ¬ p f.off) : RdKept p s (t.setB f b) := h.setF _ _ hp

theorem RdKept.bump (h : RdKept p s t) (f : Fld) (hp : ¬ p f.off) : RdKept p s (t.bump f) :=
  fun o ho => (rd_bump_other _ _ _ (fun (he : o = f.off) => hp (he ▸ ho))).trans (h o ho)

theorem RdKept.wr64 (h : RdKept p s t) (lo hi n : Nat) (h1 : ¬ p lo) (h2 : ¬ p hi) : RdKept p s (t.wr64 lo hi n) :=
  (h.wr _ _ h1).wr _ _ h2

theorem RdKept.foldl {α : Type} (g : State → α → State) (x : List α) (h : RdKept p s t) (hg : ∀ u a, a ∈ x → RdKept p u (g u a)) :
    RdKept p s (x.foldl g t) := by
  induction x generalizing t with
  | nil => exact h
  | cons a x ih =>
    rw [List.foldl_cons]
    exact ih (h.trans (hg t a (by simp))) (fun u b hb => hg u b (by simp [hb]))

theorem RdKept.ite {c : Prop} [Decidable c] {u : State} (ht : c → RdKept p s t) (hu : ¬ c → RdKept p s u) :
    RdKept p s (if c then t else u) := by
  split
  · exact ht ‹c›
  · exact hu ‹¬ c›

end

/-! ### The end of an apply -/

/-- Registers that neither the banks of filters and beams nor the apply itself show anything of. -/
def besideApply (off : Nat) : Prop := off < 0x200000 ∧ off ≠ R.HIF_APPLY_STATUS

section

variable (s : State)

theorem State.land_keeps (a off : Nat) (v : Word) : Keeps [.regs, .setLog] s (s.land a off v) := by
  refine Keeps.ite (fun _ => Keeps.refl _ s) (fun _ => Keeps.wr ?_ _ _ (by simp))
  exact Keeps.ite (fun _ => (Keeps.refl _ s).setLog _ (by simp)) (fun _ => Keeps.refl _ s)

theorem State.land_rdKept {p : Nat → Prop} (a off : Nat) (v : Word) (hp : ¬ p off) : RdKept p s (s.land a off v) := by
  refine RdKept.ite (fun _ => RdKept.refl _ s) (fun _ => RdKept.wr ?_ _ _ hp)
  exact RdKept.ite (fun _ => fun _ _ => rfl) (fun _ => RdKept.refl _ s)

theorem State.coefPut_keeps (c : Nat) (d : ChanDef) : Keeps [.regs, .setLog] s (s.coefPut c d) := by
  refine Keeps.setF (Keeps.foldl _ _ ?_ (fun u j _ => u.land_keeps _ _ _)) _ _ (by simp)
  exact (s.land_keeps _ _ _).trans (State.land_keeps _ _ _ _)

theorem State.coefPut_rdKept (c : Nat) (d : ChanDef) : RdKept besideApply s (s.coefPut c d) := by
  have hbig {o : Nat} (ho : 0x200000 ≤ o) : ¬ besideApply o := fun hb => by unfold besideApply at hb; omega
  refine RdKept.setF (RdKept.foldl _ _ ?_ (fun u j _ => u.land_rdKept _ _ _ (hbig ?_))) _ _ (hbig ?_)
  · exact (s.land_rdKept _ _ _ (hbig (by simp only [R.FIR_CFG]; omega))).trans
      (State.land_rdKept _ _ _ _ (hbig (by simp only [R.FIR_SHIFT]; omega)))
  · simp only [R.FIR_COEF]; omega
  · simp only [F.FIR_CHARGE_CHARGE, R.FIR_CHARGE]; omega

theorem State.coefRelease_keeps : Keeps [.regs, .setLog, .upd] s s.coefRelease :=
  Keeps.foldl _ _ ((Keeps.refl _ s).upd _ (by simp)) (fun u e _ => (u.coefPut_keeps _ _).mono (by simp))

theorem State.coefRelease_rdKept : RdKept besideApply s s.coefRelease :=
  RdKept.foldl _ _ (fun _ _ => rfl) (fun u e _ => u.coefPut_rdKept _ _)

theorem State.setLocks_keeps (on : Bool) : Keeps [.regs] s (s.setLocks on) :=
  Keeps.setB (Keeps.foldl _ _ (Keeps.refl _ s) (fun u _ _ => (Keeps.refl _ u).setB _ _ (by simp))) _ _ (by simp)

theorem State.setLocks_rdKept (on : Bool) : RdKept besideApply s (s.setLocks on) := by
  have hbig {o : Nat} (ho : 0x200000 ≤ o) : ¬ besideApply o := fun hb => by unfold besideApply at hb; omega
  refine RdKept.setB (RdKept.foldl _ _ (RdKept.refl _ s) (fun u c _ => (RdKept.refl _ u).setB _ _ (hbig ?_))) _ _ (hbig (by decide))
  simp only [F.FIR_STATUS_TARGET_LOCK, R.FIR_STATUS]; omega

theorem State.applyIdle_keeps : Keeps [.regs, .host] s s.applyIdle :=
  (((s.setLocks_keeps false).mono (by simp)).setF _ _ (by simp)).host _ (by simp)

theorem State.applyIdle_rdKept : RdKept besideApply s s.applyIdle := by
  have h : RdKept besideApply s ((s.setLocks false).setF F.HIF_APPLY_STATUS_STATE 0) :=
    (s.setLocks_rdKept false).setF _ _ (fun hb => hb.2 rfl)
  exact h

theorem State.strand_keeps (stop : Nat) : Keeps [.regs, .host, .recq, .setLog, .upd] s (s.strand stop) := by
  refine .trans ?_ ((State.coefRelease_keeps _).mono (by simp))
  exact ((s.applyIdle_keeps.mono (by simp)).setF _ _ (by simp)).emit _ _ _ (by simp)

theorem State.strand_rdKept (stop : Nat) : RdKept besideApply s (s.strand stop) := by
  refine .trans ?_ (State.coefRelease_rdKept _)
  have h : RdKept besideApply s (s.applyIdle.setF F.HIF_APPLY_STATUS_STRANDED 1) := s.applyIdle_rdKept.setF _ _ (fun hb => hb.2 rfl)
  exact h

theorem State.applyRunEnds_keeps (stop : Nat) : Keeps [.regs, .host, .recq, .setLog, .upd] s (s.applyRunEnds stop) := by
  have hrefl := Keeps.refl [.regs, .host, .recq, .setLog, .upd] s
  refine Keeps.ite (fun _ => hrefl.host _ (by simp)) (fun _ => Keeps.ite (fun _ => ?_) (fun _ => hrefl))
  split
  · exact Keeps.ite (fun _ => s.strand_keeps stop) (fun _ => hrefl)
  · exact s.strand_keeps stop

theorem State.applyRunEnds_rdKept (stop : Nat) : RdKept besideApply s (s.applyRunEnds stop) := by
  refine RdKept.ite (fun _ => fun _ _ => rfl) (fun _ => RdKept.ite (fun _ => ?_) (fun _ => RdKept.refl _ s))
  split
  · exact RdKept.ite (fun _ => s.strand_rdKept stop) (fun _ => RdKept.refl _ s)
  · exact s.strand_rdKept stop

end

/-! ### A run that stops -/

section

variable (s : State)

theorem State.endStreams_keeps (reason : Nat) : Keeps [.strs] s (s.endStreams reason) := (Keeps.refl _ s).strs _ (by simp)

/-- A stop in DELAY: the run is IDLE, its streams end, and an apply strands (R347). -/
theorem State.stopInDelay_keeps : Keeps [.regs, .strs, .pwr, .host, .recq, .setLog, .upd] s s.stopInDelay := by
  refine .trans ?_ ((State.applyRunEnds_keeps _ _).mono (by simp))
  refine Keeps.wr64 (.trans ?_ ((State.endStreams_keeps _ _).mono (by simp))) _ _ _ (by simp)
  exact ((Keeps.refl _ s).setF _ _ (by simp)).worked _ (by simp)

/-- The registers of a stop in DELAY. -/
def delayStopRegs : List Nat := [R.AFE_RUN_STATUS, R.AFE_STOP_AT_LO, R.AFE_STOP_AT_HI]

theorem State.stopInDelay_rdKept : RdKept (fun o => besideApply o ∧ o ∉ delayStopRegs) s s.stopInDelay := by
  refine .trans ?_ ((State.applyRunEnds_rdKept _ _).mono (fun _ h => h.1))
  refine RdKept.wr64 ?_ _ _ _ (fun h => h.2 (by decide)) (fun h => h.2 (by decide))
  have h : RdKept (fun o => besideApply o ∧ o ∉ delayStopRegs) s (s.setF F.AFE_RUN_STATUS_STATE 0) :=
    (RdKept.refl _ s).setF _ _ (fun h => h.2 (by decide))
  exact h

theorem State.fixStop_keeps (n : Nat) : Keeps [.regs, .run] s (s.fixStop n) :=
  (((Keeps.refl _ s).run _ (by simp)).setF _ _ (by simp)).wr64 _ _ _ (by simp)

theorem State.fixStop_regsKept (n : Nat) : RegsKept delayStopRegs s (s.fixStop n) :=
  (((RegsKept.refl _ s).run _).setF _ _ (by decide)).wr64 _ _ _ (by decide) (by decide)

theorem State.fixStop_pending (n : Nat) : (s.fixStop n).bit F.AFE_RUN_STATUS_STOP_PENDING = true :=
  (bit_wr64_other _ _ _ _ _ (by decide) (by decide)).trans (bit_setF_one _ _ (by decide))

end

end Sys2Proof.Machine
end

section
/-!
SUPPORT. The PLL rows (R84-R86).
-/

namespace Sys2Proof.Machine

theorem State.pllErr_le (s : State) (idle : Bool) (cfg fb fbint : Word) : s.pllErr idle cfg fb fbint ≤ 7 := by
  unfold State.pllErr
  dsimp only
  split_ifs <;> decide

theorem State.pllErr_busy (s : State) (cfg fb fbint : Word) : s.pllErr false cfg fb fbint = 1 := rfl

/-- Registers outside block CAL. -/
def besideCal (off : Nat) : Prop := off / 0x10000 ≠ 8

theorem State.showFac_rdKept (s : State) {k : Nat} (hk : k < 272) : RdKept besideCal s (s.showFac k) := by
  have hp : ¬ besideCal (R.CAL_RESULT k) := fun h => h (by simp only [R.CAL_RESULT]; omega)
  have h : RdKept besideCal s ((s.setB (F.CAL_RESULT_VALID_N k) (s.fac false k).isSome).setB (F.CAL_RESULT_VALID_L k) (s.fac true k).isSome) :=
    ((RdKept.refl _ s).setB _ _ hp).setB _ _ hp
  unfold State.showFac
  dsimp only
  split <;> exact (h.setF _ _ hp).setF _ _ hp

theorem State.showCal_rdKept (s : State) : RdKept besideCal s s.showCal :=
  ((RdKept.refl _ s).foldl _ _ (fun u _ hk => u.showFac_rdKept (List.mem_range.mp hk))).setF _ _ (fun h => h (by decide))

/-- What a commit writes before the rows of CAL_RESULT follow the mode. -/
def State.pllTaken (s : State) : State :=
  let t := { s with conv := { s.conv with cfg := s.rd R.AFE_PLL_CFG, fb := s.rd R.AFE_PLL_FB, fbint := s.rd R.AFE_PLL_FBINT, commit := true, stuck := false } }
  (t.setF F.AFE_PLL_STATUS_LOCKED 0).setF F.AFE_PLL_STATUS_HOLDOVER 0

theorem State.pllTake_eq (s : State) : s.pllTake = s.pllTaken.showCal := rfl

theorem State.pllTaken_keeps (s : State) : Keeps [.regs, .conv] s s.pllTaken :=
  (((Keeps.refl _ s).conv _ (by simp)).setF _ _ (by simp)).setF _ _ (by simp)

theorem State.pllTake_result (s : State) : Keeps [.regs, .conv] s s.pllTake ∧ s.pllTake.conv.cfg = s.rd R.AFE_PLL_CFG ∧
    s.pllTake.conv.fb = s.rd R.AFE_PLL_FB ∧ s.pllTake.conv.fbint = s.rd R.AFE_PLL_FBINT ∧ s.pllTake.conv.commit = true ∧
    s.pllTake.bit F.AFE_PLL_STATUS_LOCKED = false ∧ s.pllTake.bit F.AFE_PLL_STATUS_HOLDOVER = false := by
  have hk := s.pllTaken.showCal_keeps
  have hr := s.pllTaken.showCal_rdKept
  have hconv : s.pllTake.conv = s.pllTaken.conv := hk .conv (by simp)
  rw [hconv, State.pllTake_eq, hr.bit _ (by unfold besideCal; decide), hr.bit _ (by unfold besideCal; decide)]
  refine ⟨s.pllTaken_keeps.trans (hk.mono (by simp)), rfl, rfl, rfl, rfl, ?_, bit_setF_zero _ _ (by decide)⟩
  unfold State.pllTaken
  rw [bit_setF_other _ _ _ _ (by decide) (by decide), bit_setF_zero _ _ (by decide)]

/-- The conditioning's history is cleared. -/
theorem State.clearHistory_keeps (s : State) (p : Nat → Bool) : Keeps [.path] s (s.clearHistory p) :=
  (Keeps.refl _ s).foldl _ _ (fun u _ _ => (Keeps.refl _ u).path _ (by simp))

/-- LOCKED rises on a committed setting. -/
def State.lockShown (s : State) : State := (s.setF F.AFE_PLL_STATUS_LOCKED 1).clearHistory (fun _ => true)

/-- TIME_SPERIOD and FREQ_KHZ of the setting follow. -/
def State.freqShown (s : State) : State :=
  let s := { s with conv := { s.conv with commit := false } }
  (s.wr64 R.TIME_SPERIOD_LO R.TIME_SPERIOD_HI (periodOf s.sclk)).setF F.AFE_PLL_FREQ_FREQ_KHZ (s.sclk.1 / (s.sclk.2 * 1000))

theorem State.lockShown_keeps (s : State) : Keeps [.regs, .path] s s.lockShown :=
  ((Keeps.refl _ s).setF _ _ (by simp)).trans ((State.clearHistory_keeps _ _).mono (by simp))

theorem State.lockShown_regs (s : State) : s.lockShown.regs = (s.setF F.AFE_PLL_STATUS_LOCKED 1).regs :=
  State.clearHistory_keeps _ _ .regs (by simp)

theorem State.pllLocked_due {s : State} (hl : s.bit F.AFE_PLL_STATUS_LOCKED = false) (hs : s.conv.stuck = false)
    (hc : s.conv.commit = true) (h1 : s.sclk.1 ≠ 0) (h2 : s.sclk.2 ≠ 0) : s.pllLocked = s.lockShown.freqShown := by
  have hcommit : s.lockShown.conv.commit = true := by rw [s.lockShown_keeps .conv (by simp)]; exact hc
  exact (if_pos (by simp [hl, hs, h1, h2])).trans (if_pos hcommit)

/-- A 64-bit value that is too wide is held modulo 2^64. -/
theorem rd64_wr64_mod (s : State) {lo hi : Nat} (n : Nat) (hne : lo ≠ hi) : (s.wr64 lo hi n).rd64 lo hi = n % 2 ^ 64 := by
  rw [State.rd64, rd_wr64_lo _ _ _ _ hne, rd_wr64_hi, join64, lo32, hi32, BitVec.toNat_ofNat, BitVec.toNat_ofNat]
  omega

theorem State.freqShown_result (s : State) {p q : Nat} (h : s.sclk = (p, q)) :
    s.freqShown.rd64 R.TIME_SPERIOD_LO R.TIME_SPERIOD_HI = periodOf (p, q) % 2 ^ 64 ∧
      s.freqShown.getF F.AFE_PLL_FREQ_FREQ_KHZ = p / (q * 1000) % 2 ^ 20 ∧ s.freqShown.conv = { s.conv with commit := false } ∧
      Keeps [.regs, .conv] s s.freqShown ∧
      RegsKept [R.AFE_PLL_FREQ, R.TIME_SPERIOD_LO, R.TIME_SPERIOD_HI] s s.freqShown := by
  have hsclk : State.sclk { s with conv := { s.conv with commit := false } } = (p, q) := h
  unfold State.freqShown
  dsimp only
  rw [hsclk]
  refine ⟨?_, getF_setF_same _ _ _ (by decide), rfl, ?_, ?_⟩
  · rw [State.rd64, rd_setF_other _ _ _ _ (by decide), rd_setF_other _ _ _ _ (by decide)]
    exact rd64_wr64_mod _ _ (by decide)
  · exact (((Keeps.refl _ s).conv _ (by simp)).wr64 _ _ _ (by simp)).setF _ _ (by simp)
  · exact (((RegsKept.refl _ s).conv _).wr64 _ _ _ (by decide) (by decide)).setF _ _ (by decide)

/-! ### Loss of lock -/

/-- A loss of lock is shown and recorded. -/
def State.unlocked (s : State) : State := ((s.setF F.AFE_PLL_STATUS_LOCKED 0).setF F.AFE_PLL_STATUS_UNLOCK 1).emit 0 0x0901 []

theorem State.unlocked_result (s : State) : Keeps [.regs, .recq] s s.unlocked ∧ RegsKept [R.AFE_PLL_STATUS] s s.unlocked ∧
    s.unlocked.bit F.AFE_PLL_STATUS_LOCKED = false ∧ s.unlocked.bit F.AFE_PLL_STATUS_UNLOCK = true ∧
    s.unlocked.recq = s.recq ++ [⟨0, 0x0901, [], s.tick⟩] := by
  refine ⟨?_, ?_, ?_, bit_setF_one _ _ (by decide), rfl⟩
  · exact (((Keeps.refl _ s).setF _ _ (by simp)).setF _ _ (by simp)).emit _ _ _ (by simp)
  · exact (((RegsKept.refl _ s).setF _ _ (by decide)).setF _ _ (by decide)).emit _ _ _
  · refine (State.emit_bit ..).trans ?_
    rw [bit_setF_other _ _ _ _ (by decide) (by decide), bit_setF_zero _ _ (by decide)]

/-- The sample at which a run with a loss of lock stops (R86). -/
def State.unlockStop (s : State) : Nat := match s.run.stopAt with | some z => min z s.label | none => s.label

section

variable {s : State} (h : s.bit F.AFE_PLL_STATUS_LOCKED = true)

include h

theorem State.clkUnlock_quiet (hst : s.runSt ≤ 1) : s.clkUnlock = s.unlocked := by
  have hst' : s.unlocked.runSt ≤ 1 := by rw [State.runSt, s.unlocked_result.2.1.getF _ (by decide)]; exact hst
  rw [State.clkUnlock, if_pos h]
  show (match s.unlocked.runSt with | 2 => _ | 3 => _ | _ => s.unlocked) = _
  split
  · omega
  · omega
  · rfl

theorem State.clkUnlock_delay (hst : s.runSt = 2) : s.clkUnlock = s.unlocked.stopInDelay.setF F.AFE_RUN_STATUS_UNLOCK_STOP 1 := by
  have hst' : s.unlocked.runSt = 2 := by rw [State.runSt, s.unlocked_result.2.1.getF _ (by decide)]; exact hst
  rw [State.clkUnlock, if_pos h]
  show (match s.unlocked.runSt with | 2 => _ | 3 => _ | _ => s.unlocked) = _
  rw [hst']
  rfl

theorem State.clkUnlock_run (hst : s.runSt = 3) :
    s.clkUnlock = (s.unlocked.fixStop s.unlockStop).setF F.AFE_RUN_STATUS_UNLOCK_STOP 1 := by
  have hst' : s.unlocked.runSt = 3 := by rw [State.runSt, s.unlocked_result.2.1.getF _ (by decide)]; exact hst
  rw [State.clkUnlock, if_pos h]
  show (match s.unlocked.runSt with | 2 => _ | 3 => _ | _ => s.unlocked) = _
  rw [hst']
  rfl

/-- LOCKED falls and UNLOCK is set in every run state. -/
theorem State.clkUnlock_bits : s.clkUnlock.bit F.AFE_PLL_STATUS_LOCKED = false ∧ s.clkUnlock.bit F.AFE_PLL_STATUS_UNLOCK = true := by
  obtain ⟨-, -, hlock, hunlock, -⟩ := s.unlocked_result
  have hlt : s.runSt < 4 := getBits_lt _ _ _
  have hcases : s.runSt ≤ 1 ∨ s.runSt = 2 ∨ s.runSt = 3 := by omega
  rcases hcases with hst | hst | hst
  · rw [State.clkUnlock_quiet h hst]
    exact ⟨hlock, hunlock⟩
  · rw [State.clkUnlock_delay h hst]
    have hk := s.unlocked.stopInDelay_rdKept
    rw [bit_setF_other _ _ _ _ (by decide) (by decide), bit_setF_other _ _ _ _ (by decide) (by decide),
      hk.bit _ (by unfold besideApply; decide), hk.bit _ (by unfold besideApply; decide)]
    exact ⟨hlock, hunlock⟩
  · rw [State.clkUnlock_run h hst]
    have hk := s.unlocked.fixStop_regsKept s.unlockStop
    rw [bit_setF_other _ _ _ _ (by decide) (by decide), bit_setF_other _ _ _ _ (by decide) (by decide),
      hk.bit _ (by decide), hk.bit _ (by decide)]
    exact ⟨hlock, hunlock⟩

end

/-- Settles O32. -/
theorem pllFollows : Obligations.PllFollows := by
  unfold Obligations.PllFollows
  refine ⟨fun id v s idle e hg hv hidle he => gated_next v hg (by decide) ?_, fun s p q hl hs hc hsclk hp hq => ?_, fun s h => ?_,
    fun s hsync hl hh => ?_, fun s hsync => ?_⟩
  · have hgo : s.pllCommit v = s.pllGo idle := by rw [State.pllCommit, if_pos hv, hidle]
    rw [hgo, State.pllGo, he]
    have hle : e ≤ 7 := he ▸ s.pllErr_le _ _ _ _
    have hbusy (hi : idle = false) : e = 1 := by rw [← he, hi, State.pllErr_busy]
    by_cases he0 : e = 0
    · rw [if_pos he0]
      obtain ⟨hk, hcfg, hfb, hint, hcommit, hlock, hhold⟩ := s.pllTake_result
      refine ⟨(hk.mono (by simp)).bpReg _ _ _ (by simp), hbusy, fun hne => absurd he0 hne,
        fun _ => ?_⟩
      rw [State.bpReg_conv, State.bpReg_bit, State.bpReg_bit]
      exact ⟨hcfg, hfb, hint, hcommit, hlock, hhold⟩
    · rw [if_neg he0]
      refine ⟨(((Keeps.refl _ s).setF _ _ (by simp)).setF _ _ (by simp)).bpReg _ _ _ (by simp), hbusy, fun _ => ⟨rfl, ?_, ?_, ?_, ?_⟩,
        fun h0 => absurd h0 he0⟩
      · exact (((RegsKept.refl _ s).setF _ _ (by decide)).setF _ _ (by decide)).bpReg _ _ _
      · rw [State.bpReg_getF, getF_setF_other _ _ _ _ (by decide) (by decide), getF_setF_same _ _ _ (by decide)]
        exact Nat.mod_eq_of_lt (show e < 16 by omega)
      · exact (State.bpReg_bit ..).trans (bit_setF_one _ _ (by decide))
      · rw [State.bpReg_bit, bit_setF_other _ _ _ _ (by decide) (by decide), bit_setF_other _ _ _ _ (by decide) (by decide)]
  · refine ⟨_, congrArg Host.Outcome.next (State.pllLocked_due hl hs hc (by rw [hsclk]; exact hp) (by rw [hsclk]; exact hq)), ?_⟩
    have hk := s.lockShown_keeps
    have hconv : s.lockShown.conv = s.conv := hk .conv (by simp)
    obtain ⟨hper, hfreq, hc', hkf, hrf⟩ := s.lockShown.freqShown_result (p := p) (q := q) (by rw [State.sclk, hconv]; exact hsclk)
    have hr : RegsKept [R.AFE_PLL_STATUS] s s.lockShown := fun o ho => by
      rw [State.rd, s.lockShown_regs]
      exact rd_setF_other _ _ _ _ (by simpa [F.AFE_PLL_STATUS_LOCKED] using ho)
    have hbit : s.lockShown.bit F.AFE_PLL_STATUS_LOCKED = true :=
      (State.bit_eq_of_regs s.lockShown_regs _).trans (bit_setF_one _ _ (by decide))
    refine ⟨(hk.mono (by simp)).trans (hkf.mono (by simp)), (hrf.bit _ (by decide)).trans hbit, hconv ▸ hc', hper, hfreq, ?_⟩
    exact (hr.mono (by decide)).trans (hrf.mono (by decide))
  · obtain ⟨hk, hr, -, -, hrec⟩ := s.unlocked_result
    obtain ⟨hlock, hunlock⟩ := State.clkUnlock_bits h
    refine ⟨_, rfl, hlock, hunlock, fun hst => ?_, fun hst => ?_⟩
    · rw [State.clkUnlock_quiet h hst]
      exact ⟨hk, hr, hrec⟩
    · rw [State.clkUnlock_run h hst]
      refine ⟨bit_setF_one _ _ (by decide), ?_, rfl, hrec⟩
      rw [bit_setF_other _ _ _ _ (by decide) (by decide)]
      exact State.fixStop_pending _ _
  · refine ⟨_, congrArg Host.Outcome.next (if_pos (by simp [hsync, hl, hh])), ?_, ?_, ?_, rfl⟩
    · exact ((Keeps.refl _ s).setF _ _ (by simp)).emit _ _ _ (by simp)
    · exact ((RegsKept.refl _ s).setF _ _ (by decide)).emit _ _ _
    · exact (State.emit_bit ..).trans (bit_setF_one _ _ (by decide))
  · exact ⟨_, congrArg Host.Outcome.next (if_pos hsync), (Keeps.refl _ s).setF _ _ (by simp), (RegsKept.refl _ s).setF _ _ (by decide),
      bit_setF_zero _ _ (by decide)⟩

end Sys2Proof.Machine
end

section
/-!
SUPPORT. Frames: an operation changes only the fields of a list, and only registers outside a predicate. What the operations on
streams and frame queues change.
-/

namespace Sys2Proof.Machine

/-- `t` differs from `s` in the fields of `l` alone, and in no register whose offset satisfies `p`. -/
structure Frame (l : List Field) (p : Nat → Prop) (s t : State) : Prop where
  keeps : Keeps l s t
  rd : RdKept p s t

section

variable {l : List Field} {p : Nat → Prop} {s t u : State}

theorem Frame.refl (l : List Field) (p : Nat → Prop) (s : State) : Frame l p s s := ⟨Keeps.refl l s, RdKept.refl p s⟩

theorem Frame.trans (h : Frame l p s t) (k : Frame l p t u) : Frame l p s u := ⟨h.keeps.trans k.keeps, h.rd.trans k.rd⟩

theorem Frame.mono {l' : List Field} {q : Nat → Prop} (h : Frame l p s t) (hl : ∀ f, f ∈ l → f ∈ l') (hq : ∀ o, q o → p o) :
    Frame l' q s t := ⟨h.keeps.mono hl, h.rd.mono hq⟩

/-- The same registers, and more fields. -/
theorem Frame.wide {l' : List Field} (h : Frame l p s t) (hl : ∀ f, f ∈ l → f ∈ l') : Frame l' p s t := h.mono hl (fun _ ho => ho)

/-- A change that leaves the register file. -/
theorem Keeps.frame {l' : List Field} (h : Keeps l s t) (hl : ∀ f, f ∈ l → f ∈ l') (hr : Field.regs ∉ l) (p : Nat → Prop) : Frame l' p s t :=
  ⟨h.mono hl, (RdKept.refl p s).of_keeps h hr⟩

theorem Frame.ite {c : Prop} [Decidable c] (ht : c → Frame l p s t) (hu : ¬ c → Frame l p s u) : Frame l p s (if c then t else u) := by
  split
  · exact ht ‹c›
  · exact hu ‹¬ c›

theorem Frame.foldl {α : Type} (g : State → α → State) (x : List α) (h : Frame l p s t) (hg : ∀ u a, a ∈ x → Frame l p u (g u a)) :
    Frame l p s (x.foldl g t) :=
  ⟨h.keeps.foldl g x (fun u a ha => (hg u a ha).keeps), h.rd.foldl g x (fun u a ha => (hg u a ha).rd)⟩

theorem Frame.wr (h : Frame l p s t) (off : Nat) (v : Word) (hm : Field.regs ∈ l) (hp : ¬ p off) : Frame l p s (t.wr off v) :=
  ⟨h.keeps.wr _ _ hm, h.rd.wr _ _ hp⟩

theorem Frame.setF (h : Frame l p s t) (f : Fld) (n : Nat) (hm : Field.regs ∈ l) (hp : ¬ p f.off) : Frame l p s (t.setF f n) :=
  ⟨h.keeps.setF _ _ hm, h.rd.setF _ _ hp⟩

theorem Frame.setB (h : Frame l p s t) (f : Fld) (b : Bool) (hm : Field.regs ∈ l) (hp : ¬ p f.off) : Frame l p s (t.setB f b) :=
  h.setF _ _ hm hp

theorem Frame.bump (h : Frame l p s t) (f : Fld) (hm : Field.regs ∈ l) (hp : ¬ p f.off) : Frame l p s (t.bump f) :=
  ⟨h.keeps.bump _ hm, h.rd.bump _ hp⟩

theorem Frame.wr64 (h : Frame l p s t) (lo hi n : Nat) (hm : Field.regs ∈ l) (h1 : ¬ p lo) (h2 : ¬ p hi) : Frame l p s (t.wr64 lo hi n) :=
  ⟨h.keeps.wr64 _ _ _ hm, h.rd.wr64 _ _ _ h1 h2⟩

theorem Frame.updStr (h : Frame l p s t) (i : Nat) (f : StreamState → StreamState) (hm : Field.strs ∈ l) : Frame l p s (t.updStr i f) :=
  ⟨h.keeps.updStr _ _ hm, h.rd⟩

theorem Frame.emit (h : Frame l p s t) (i y : Nat) (x : List Word) (hm : Field.recq ∈ l) : Frame l p s (t.emit i y x) :=
  ⟨h.keeps.emit _ _ _ hm, h.rd⟩

theorem Frame.obsv (h : Frame l p s t) (x : Obs) (hm : Field.obs ∈ l) : Frame l p s (t.obsv x) := ⟨h.keeps.obsv _ hm, h.rd⟩

theorem Frame.worked (h : Frame l p s t) (d : Nat) (hm : Field.pwr ∈ l) : Frame l p s (t.worked d) := ⟨h.keeps.worked _ hm, h.rd⟩

/-- A queue is changed. -/
theorem Frame.updFq (h : Frame l p s t) (n : Nat) (f : List Packet → List Packet) (hm : Field.fqs ∈ l) : Frame l p s (t.updFq n f) :=
  ⟨h.keeps.fqs _ hm, h.rd⟩

/-- A further change, of what another frame says. -/
theorem Frame.then {l' : List Field} {q : Nat → Prop} (h : Frame l p s t) (k : Frame l' q t u) (hl : ∀ f, f ∈ l' → f ∈ l)
    (hq : ∀ o, p o → q o) : Frame l p s u := h.trans (k.mono hl hq)

end

/-! ### Sample memory -/

/-- Registers outside blocks FLW, MEM and STR. -/
def besideStreams (off : Nat) : Prop := off / 0x10000 ≠ 4 ∧ off / 0x10000 ≠ 5 ∧ off / 0x10000 ≠ 12

/-- The lines of registers that hold a frame queue, a stream or the state of sample memory. -/
theorem not_besideStreams {off : Nat} (h : off / 0x10000 = 4 ∨ off / 0x10000 = 5 ∨ off / 0x10000 = 12) : ¬ besideStreams off :=
  fun hb => by unfold besideStreams at hb; omega

end Sys2Proof.Machine
end

section
/-!
SUPPORT. What the operations on streams and frame queues change (R233-R238, R281-R290, R304).
-/

namespace Sys2Proof.Machine

section

variable (s : State)

theorem State.memWroteWord_frame (a : Nat) : Frame [.regs, .mem] besideStreams s (s.memWroteWord a) := by
  have h0 : Frame [.regs, .mem] besideStreams s { s with mem := s.mem.clearFault a } := ⟨(Keeps.refl _ s).mem _ (by simp), RdKept.refl _ s⟩
  have hp : ¬ besideStreams F.MEM_INJECT_CTRL_ARM.off := not_besideStreams (by decide)
  refine Frame.ite (fun _ => Frame.setF (Frame.setF ?_ _ _ (by simp) hp) _ _ (by simp) hp) (fun _ => h0)
  exact Frame.ite (fun _ => h0) (fun _ => ⟨h0.keeps.mem _ (by simp), h0.rd⟩)

theorem State.memWroteWords_frame (s : State) (a n : Nat) : Frame [.regs, .mem] besideStreams s (s.memWroteWords a n) := by
  induction n generalizing s a with
  | zero => exact Frame.refl _ _ s
  | succ n ih => exact (s.memWroteWord_frame a).trans (ih _ _)

theorem State.memWrite_frame (a : Nat) (b : List Byte) : Frame [.regs, .mem] besideStreams s (s.memWrite a b) := by
  have h0 : Frame [.regs, .mem] besideStreams s { s with mem := s.mem.putAll a b } := ⟨(Keeps.refl _ s).mem _ (by simp), RdKept.refl _ s⟩
  exact h0.trans (State.memWroteWords_frame _ _ _)

/-! ### Frame queues -/

section

variable {n : Nat} (hn : n < 16)

include hn

theorem State.fqLines_frame (s : State) (k : Nat) (b : List Byte) : Frame [.regs, .mem] besideStreams s (s.fqLines n k b) := by
  induction k generalizing s b with
  | zero => exact Frame.refl _ _ s
  | succ k ih =>
    refine Frame.trans (Frame.setF (State.memWrite_frame s _ _) _ _ (by simp) ?_) (ih _ _)
    exact not_besideStreams (.inl (show (0x41008 + 0x40 * n) / 0x10000 = 4 by omega))

/-- The fields that a commit of frames changes. -/
def commitFields : List Field := [.regs, .mem, .fqs, .strs, .dbg]

theorem not_besideStreams_queue (f : Nat → Fld) (hf : ∃ c, (f n).off = c + 0x40 * n ∧ 0x41000 ≤ c ∧ c < 0x41040) :
    ¬ besideStreams (f n).off := by
  obtain ⟨c, he, hlo, hhi⟩ := hf
  exact not_besideStreams (.inl (by omega))

theorem State.fqCommit_frame (p : Packet) : Frame commitFields besideStreams s (s.fqCommit n p) := by
  have hr : Field.regs ∈ commitFields := by decide
  unfold State.fqCommit
  refine Frame.updFq (Frame.bump ?_ _ hr (not_besideStreams_queue hn F.FLW_FQ_FRAMES_COUNT ⟨_, rfl, by decide⟩)) _ _ (by decide)
  refine Frame.setF ?_ _ _ hr (not_besideStreams_queue hn F.FLW_FQ_CREDIT_WORDS ⟨_, rfl, by decide⟩)
  refine Frame.setF ?_ _ _ hr (not_besideStreams_queue hn F.FLW_FQ_REWIND_REWIND ⟨_, rfl, by decide⟩)
  refine Frame.setF ?_ _ _ hr (not_besideStreams_queue hn F.FLW_FQ_COMMIT_COMMIT ⟨_, rfl, by decide⟩)
  refine Frame.trans ?_ ((State.fqLines_frame hn _ _ _).wide (by decide))
  exact (Frame.refl _ _ s).setF _ _ hr (not_besideStreams_queue hn F.FLW_FQ_REWIND_REWIND ⟨_, rfl, by decide⟩)

theorem State.fqCommitAll_frame (s : State) (l : List Packet) : Frame commitFields besideStreams s (s.fqCommitAll n l) := by
  induction l generalizing s with
  | nil => exact Frame.refl _ _ s
  | cons p l ih => exact (s.fqCommit_frame hn p).trans (ih _)

/-- A count of queue `n` and the breakpoint note of its lack of credit. -/
theorem State.noCredit_frame : Frame commitFields besideStreams s ((s.bump (F.FLW_FQ_NOCREDIT_COUNT n)).bpQueue 1 n 2) :=
  ((Frame.refl _ _ s).bump _ (by decide) (not_besideStreams_queue hn F.FLW_FQ_NOCREDIT_COUNT ⟨_, rfl, by decide⟩)).trans
    ((State.bpQueue_keeps _ _ _ _).frame (by decide) (by decide) _)

theorem State.tooLarge_frame :
    Frame commitFields besideStreams s ((s.bump (F.FLW_FQ_OVERSIZE_COUNT n)).bump (F.FLW_FQ_REWINDS_COUNT n)) :=
  ((Frame.refl _ _ s).bump _ (by decide) (not_besideStreams_queue hn F.FLW_FQ_OVERSIZE_COUNT ⟨_, rfl, by decide⟩)).bump _ (by decide)
    (not_besideStreams_queue hn F.FLW_FQ_REWINDS_COUNT ⟨_, rfl, by decide⟩)

theorem State.commitSent_frame (s : State) (l : List Packet) : Frame commitFields besideStreams s (s.commitSent n l) := by
  induction l generalizing s with
  | nil => exact Frame.refl _ _ s
  | cons p l ih =>
    unfold State.commitSent
    refine Frame.trans ?_ (ih _)
    split
    · exact s.fqCommit_frame hn p
    · exact (s.noCredit_frame hn).updFq _ _ (by decide)
    · exact (s.tooLarge_frame hn).updFq _ _ (by decide)

theorem State.unbuilt_frame (cause : Nat) (p : Packet) : Frame [.strs] besideStreams s (s.unbuilt cause p) :=
  (Frame.foldl _ _ (Frame.refl _ _ s) (fun u _ _ => (Frame.refl _ _ u).updStr _ _ (by simp))).updStr _ _ (by simp)

end

/-- The queue of a stream is one of the sixteen. -/
theorem State.fqOf_lt (i : Nat) : s.fqOf i < 16 := by
  have hp : s.getF (F.STR_STATUS_PORT_NOW i) < 2 ^ 2 := getF_lt _ _
  have hc : s.getF (F.STR_DEF_CLASS i) < 2 ^ 2 := getF_lt _ _
  unfold State.fqOf State.fqOn
  omega

theorem State.pace_frame (i : Nat) (l : List Packet) : Frame [.strs] besideStreams s (s.pace i l) :=
  Frame.ite (fun _ => (Frame.refl _ _ s).updStr _ _ (by simp)) (fun _ => Frame.refl _ _ s)

theorem State.commitTry_frame (pre : List Packet) (p : Packet) : Frame commitFields besideStreams s (s.commitTry pre p).2 := by
  have hn := s.fqOf_lt p.stream
  unfold State.commitTry
  dsimp only
  split
  · exact (s.noCredit_frame hn).trans ((State.unbuilt_frame _ hn _ _).wide (by decide))
  · exact (s.tooLarge_frame hn).trans ((State.unbuilt_frame _ hn _ _).wide (by decide))
  · refine Frame.trans (Frame.updStr ?_ _ _ (by decide)) ((State.pace_frame _ _ _).wide (by decide))
    refine Frame.trans ?_ (State.fqCommit_frame _ hn _)
    exact ((Frame.refl _ _ s).updStr _ _ (by decide)).trans (State.fqCommitAll_frame hn _ _)

theorem State.commitWith_frame (pre : List Packet) (p : Packet) : Frame commitFields besideStreams s (s.commitWith pre p) :=
  s.commitTry_frame pre p

theorem State.fumBuild_frame : Frame commitFields besideStreams s s.fumBuild := by
  unfold State.fumBuild
  split
  · exact Frame.refl _ _ s
  · refine Frame.ite (fun _ => ?_) (fun _ => Frame.refl _ _ s)
    exact ((Frame.refl _ _ s).updStr _ _ (by decide)).trans (State.commitWith_frame _ _ _)

/-! ### Packets that count as sent -/

/-- The registers of a stream lie in STR. -/
theorem not_besideStreams_str {i : Nat} (hi : i < 64) (f : Nat → Fld) (hf : ∃ c, (f i).off = c + 0x100 * i ∧ 0xC0000 ≤ c ∧ c < 0xC0100) :
    ¬ besideStreams (f i).off := by
  obtain ⟨c, he, hlo, hhi⟩ := hf
  exact not_besideStreams (.inr (.inr (by omega)))

theorem State.countSent_frame {p : Packet} (hp : p.stream < 64) : Frame [.regs, .strs] besideStreams s (s.countSent p) := by
  have hr : Field.regs ∈ [Field.regs, Field.strs] := by decide
  refine Frame.ite (fun _ => Frame.updStr (Frame.bump (Frame.refl _ _ s) _ hr ?_) _ _ (by decide)) (fun _ => Frame.ite (fun _ => ?_) (fun _ => ?_))
  · exact not_besideStreams_str hp F.STR_FRAME_SEQ_NEXT ⟨_, rfl, by decide⟩
  · exact (((Frame.refl _ _ s).bump _ hr (not_besideStreams_str hp F.STR_REC_SEQ_NEXT ⟨_, rfl, by decide⟩)).bump _ hr
      (not_besideStreams_str hp F.STR_GAPS_COUNT ⟨_, rfl, by decide⟩)).updStr _ _ (by decide)
  · exact (Frame.refl _ _ s).bump _ hr (not_besideStreams_str hp F.STR_REC_SEQ_NEXT ⟨_, rfl, by decide⟩)

theorem State.freeze_frame {p : Packet} (hp : p.stream < 64) : Frame [.regs, .strs] besideStreams s (s.freeze p).1 := s.countSent_frame hp

theorem freezeAll_frame (s : State) (l : List Packet) (hl : ∀ p ∈ l, p.stream < 64) :
    Frame [.regs, .strs] besideStreams s (freezeAll s l).1 := by
  induction l generalizing s with
  | nil => exact Frame.refl _ _ s
  | cons p l ih => exact (s.freeze_frame (hl p (by simp))).trans (ih _ (fun q hq => hl q (by simp [hq])))

theorem freezeMine_frame {i : Nat} (hi : i < 64) (s : State) (l : List Packet) :
    Frame [.regs, .strs] besideStreams s (freezeMine i s l).2.2 := by
  induction l generalizing s with
  | nil => exact Frame.refl _ _ s
  | cons p l ih =>
    unfold freezeMine
    split
    · next h => exact (s.freeze_frame (h.1 ▸ hi)).trans (ih _)
    · exact ih s

theorem State.freezeSending_frame {i : Nat} (hi : i < 64) (p : Nat) :
    Frame [.regs, .strs, .ports] besideStreams s (s.freezeSending i p).2 := by
  unfold State.freezeSending
  split
  · split
    · next h =>
      have hk := (s.freeze_frame (h.1 ▸ hi : _ < 64)).wide (l' := [.regs, .strs, .ports]) (by decide)
      exact ⟨hk.keeps.ports _ (by decide), hk.rd⟩
    · exact Frame.refl _ _ s
  · exact Frame.refl _ _ s

theorem State.copyRec_frame (p : Packet) : Frame [.recq] besideStreams s (s.copyRec p) := by
  unfold State.copyRec
  split
  · exact Frame.refl _ _ s
  · refine Frame.ite (fun _ => Frame.refl _ _ s) (fun _ => Frame.ite (fun _ => ?_) (fun _ => Frame.ite (fun _ => ?_) (fun _ => Frame.refl _ _ s)))
    · exact (Frame.refl _ _ s).emit _ _ _ (by simp)
    · exact (Frame.refl _ _ s).emit _ _ _ (by simp)

theorem State.copyRecs_frame (l : List Packet) : Frame [.recq] besideStreams s (s.copyRecs l) :=
  (Frame.refl _ _ s).foldl _ _ (fun u _ _ => u.copyRec_frame _)

theorem State.dropHeld_frame (i cause : Nat) : Frame [.strs] besideStreams s (s.dropHeld i cause) := by
  refine Frame.updStr (Frame.foldl _ _ (Frame.foldl _ _ (Frame.updStr (Frame.refl _ _ s) _ _ (by simp)) ?_) ?_) _ _ (by simp)
  · exact fun u _ _ => (Frame.refl _ _ u).updStr _ _ (by simp)
  · exact fun u _ _ => (Frame.refl _ _ u).updStr _ _ (by simp)

/-- The fields that packets which count as sent change. -/
def sentFields : List Field := [.regs, .mem, .fqs, .strs, .dbg, .ports, .recq]

theorem State.freezeQueue_frame {i : Nat} (hi : i < 64) : Frame sentFields besideStreams s (s.freezeQueue i) := by
  refine Frame.trans (Frame.updFq ?_ _ _ (by decide)) ((State.copyRecs_frame _ _).wide (by decide))
  exact ((s.freezeSending_frame hi _).wide (by decide)).trans ((freezeMine_frame hi _ _).wide (by decide))

theorem State.lastGaps_stream (i : Nat) : ∀ p ∈ s.lastGaps i, p.stream = i := by
  intro p hp
  obtain ⟨g, -, rfl⟩ := List.mem_map.mp hp
  rfl

theorem State.finishEnd_frame {i : Nat} (hi : i < 64) : Frame sentFields besideStreams s (s.finishEnd i) := by
  have h0 : Frame sentFields besideStreams s ((if s.strKind i = 5 then s.fumBuild else s).freezeQueue i) :=
    Frame.trans (Frame.ite (fun _ => s.fumBuild_frame.wide (by decide)) (fun _ => Frame.refl _ _ s)) (State.freezeQueue_frame _ hi)
  unfold State.finishEnd
  dsimp only
  split
  · exact h0
  · refine Frame.ite (fun _ => ?_) (fun _ => h0)
    refine Frame.trans (Frame.updStr ?_ _ _ (by decide)) ((State.copyRecs_frame _ _).wide (by decide))
    refine Frame.trans ?_ ((State.commitSent_frame (State.fqOf_lt _ _) _ _).wide (by decide))
    refine Frame.trans ?_ ((freezeAll_frame _ _ (fun p hp => ?_)).wide (by decide))
    · refine Frame.trans ?_ ((freezeAll_frame _ _ (fun p hp => State.lastGaps_stream _ _ p hp ▸ hi)).wide (by decide))
      exact h0.trans ((State.dropHeld_frame _ _ _).wide (by decide))
    · rw [List.mem_singleton.mp hp]
      exact hi

theorem State.strEnterDelay_frame {i : Nat} (hi : i < 64) : Frame [.regs, .strs] besideStreams s (s.strEnterDelay i) := by
  have hr : Field.regs ∈ [Field.regs, Field.strs] := by decide
  have hstat : ¬ besideStreams (R.STR_STATUS i) := not_besideStreams (.inr (.inr (by simp only [R.STR_STATUS]; omega)))
  unfold State.strEnterDelay
  dsimp only
  refine Frame.ite (fun _ => Frame.setF (Frame.setF (Frame.setF ?_ _ _ hr hstat) _ _ hr hstat) _ _ hr hstat) (fun _ => ?_)
  all_goals
    refine Frame.setF (Frame.setF (Frame.setF (Frame.setF (Frame.ite (fun _ => ?_) (fun _ => ?_)) _ _ hr ?_) _ _ hr ?_) _ _ hr ?_) _ _ hr hstat
    · exact (Frame.refl _ _ s).updStr _ _ (by decide)
    · exact ((Frame.refl _ _ s).updStr _ _ (by decide)).setF _ _ hr (not_besideStreams_str hi F.STR_VER_IN_USE ⟨_, rfl, by decide⟩)
    · exact not_besideStreams_str hi F.STR_FRAME_SEQ_NEXT ⟨_, rfl, by decide⟩
    · exact not_besideStreams_str hi F.STR_REC_SEQ_NEXT ⟨_, rfl, by decide⟩
    · exact not_besideStreams_str hi F.STR_GAPS_COUNT ⟨_, rfl, by decide⟩

theorem State.streamsEnterDelay_frame : Frame sentFields besideStreams s s.streamsEnterDelay := by
  refine Frame.foldl _ _ (Frame.foldl _ _ (Frame.refl _ _ s) (fun u i hi => ?_)) (fun u i hi => ?_)
  · exact u.finishEnd_frame (List.mem_range.mp hi)
  · exact (u.strEnterDelay_frame (List.mem_range.mp hi)).wide (by decide)

end

end Sys2Proof.Machine
end

section
/-!
SUPPORT. The commands of the run (R89-R97), and the entry of DELAY (R91, R92).
-/

namespace Sys2Proof.Machine

/-! ### The entry of DELAY -/

/-- Registers outside blocks FLW, MEM, STR and TRG. -/
def besideRun (off : Nat) : Prop := besideStreams off ∧ off / 0x10000 ≠ 10

theorem not_besideRun_trg {off : Nat} (h : off / 0x10000 = 10) : ¬ besideRun off := fun hb => hb.2 h

theorem not_besideRun_mem {off : Nat} (h : off / 0x10000 = 5) : ¬ besideRun off := fun hb => hb.1.2.1 h

section

variable (s : State)

theorem State.condsPrefill_frame : Frame [.regs, .trg] besideRun s s.condsPrefill := by
  have h0 (x : TrigState) : Frame [.regs, .trg] besideRun s { s with trg := x } := ⟨(Keeps.refl _ s).trg _ (by simp), RdKept.refl _ s⟩
  refine Frame.foldl _ _ (h0 _) (fun u n hn => ?_)
  have hp : ¬ besideRun (R.TRG_TC_STATE n) :=
    not_besideRun_trg (by have := List.mem_range.mp hn; simp only [R.TRG_TC_STATE]; omega)
  exact ((Frame.refl _ _ u).setF _ _ (by decide) hp).setF _ _ (by decide) hp

theorem State.trigEnterDelay_frame : Frame [.regs, .trg, .path] besideRun s s.trigEnterDelay := by
  have h0 (x : TrigState) : Frame [.regs, .trg, .path] besideRun s { s with trg := x } := ⟨(Keeps.refl _ s).trg _ (by simp), RdKept.refl _ s⟩
  have hr : Field.regs ∈ [Field.regs, Field.trg, Field.path] := by decide
  unfold State.trigEnterDelay
  dsimp only
  have hpath {t : State} (h : Frame [.regs, .trg, .path] besideRun s t) (x : PathState) :
      Frame [.regs, .trg, .path] besideRun s { t with path := x } := ⟨h.keeps.path _ (by decide), h.rd⟩
  refine Frame.wr64 (hpath (Frame.setF (Frame.setF (Frame.setF (Frame.setF (Frame.setF ?_ _ _ hr ?_) _ _ hr ?_) _ _ hr ?_) _ _ hr ?_) _ _ hr ?_) _)
    _ _ _ hr (not_besideRun_mem (by decide)) (not_besideRun_mem (by decide))
  · exact (h0 _).trans ((State.condsPrefill_frame _).wide (by decide))
  · exact not_besideRun_trg (by decide)
  · exact not_besideRun_trg (by decide)
  · exact not_besideRun_trg (by decide)
  · exact not_besideRun_mem (by decide)
  · exact not_besideRun_mem (by decide)

/-- The fields that streams, triggers and spares change as a run enters DELAY. -/
def delayFields : List Field := [.regs, .mem, .fqs, .strs, .dbg, .ports, .recq, .trg, .path, .cal]

/-- What streams, triggers and spares do as the run enters DELAY. -/
def State.delayReady : State := s.streamsEnterDelay.trigEnterDelay.relabelSpares

theorem State.delayReady_frame : Frame delayFields besideRun s s.delayReady := by
  have hcal {t : State} (h : Frame delayFields besideRun s t) : Frame delayFields besideRun s t.relabelSpares :=
    ⟨h.keeps.cal _ (by decide), h.rd⟩
  exact hcal ((s.streamsEnterDelay_frame.mono (by decide) (fun _ h => h.1)).trans ((State.trigEnterDelay_frame _).wide (by decide)))

theorem State.stepShift_of_time {s t : State} (h : t.time.stepPend = s.time.stepPend) (h' : t.time.stepSeen = s.time.stepSeen) :
    t.stepShift = s.stepShift := by
  rw [State.stepShift, State.stepShift, h, h']

theorem State.enterDelay_run (ts : Nat) (late : Bool) :
    (s.enterDelay ts late).run.next = 0 ∧ (s.enterDelay ts late).run.running = false ∧ (s.enterDelay ts late).run.stopAt = none ∧
      (s.enterDelay ts late).run.tStart = (ts : Int) - s.stepShift ∧ (s.enterDelay ts late).run.cfg = s.rd R.AFE_RUN_CFG := by
  have hf := s.delayReady_frame
  have htime : s.delayReady.time = s.time := hf.keeps .time (by decide)
  have hcfg : s.delayReady.rd R.AFE_RUN_CFG = s.rd R.AFE_RUN_CFG := hf.rd _ (by unfold besideRun besideStreams; decide)
  have hshift : s.delayReady.stepShift = s.stepShift := State.stepShift_of_time (by rw [htime]) (by rw [htime])
  unfold State.enterDelay
  simp only [State.setF_run, State.wr64_run, apply_ite State.run, ite_self]
  refine ⟨trivial, trivial, trivial, ?_, ?_⟩
  · rw [← hshift]; rfl
  · rw [← hcfg]; rfl

/-- The registers of the start instant. -/
theorem State.enterDelay_shown (ts : Nat) (late : Bool) :
    (s.enterDelay ts late).runSt = 2 ∧ (s.enterDelay ts late).getF F.AFE_START_NS_NS = tNs ts ∧
      (s.enterDelay ts late).getF F.AFE_START_FRAC_FRAC = tFrac ts := by
  unfold State.enterDelay
  refine ⟨getF_setF_same _ _ _ (by decide), ?_, ?_⟩ <;>
    rw [getF_setF_other _ _ _ _ (by decide) (by decide), getF_wr64_other _ _ _ _ _ (by decide) (by decide)] <;>
    simp (disch := decide) only [getF_setF_same, getF_setF_other]
  · exact Nat.mod_eq_of_lt (lt_trans (tNs_lt _) (by decide))
  · exact Nat.mod_eq_of_lt (tFrac_lt _)


/-- What a start leaves in view stands after the breakpoint notes of the write. -/
theorem State.startShown_bpReg (u s : State) (id : Ident)
    (h : u.runSt = 2 ∧ u.run.next = 0 ∧ u.run.running = false ∧ u.run.stopAt = none ∧ u.run.tStart = s.lead - s.stepShift ∧
      u.run.cfg = s.rd R.AFE_RUN_CFG ∧ u.now = s.now ∧ u.getF F.AFE_START_NS_NS = tNs s.lead ∧
      u.getF F.AFE_START_FRAC_FRAC = tFrac s.lead) {v : State} (hv : v = u.bpReg id R.AFE_RUN_CMD true) :
    v.runSt = 2 ∧ v.run.next = 0 ∧ v.run.running = false ∧ v.run.stopAt = none ∧ v.run.tStart = s.lead - s.stepShift ∧
      v.run.cfg = s.rd R.AFE_RUN_CFG ∧ v.now = s.now ∧ v.getF F.AFE_START_NS_NS = tNs s.lead ∧
      v.getF F.AFE_START_FRAC_FRAC = tFrac s.lead := by
  subst hv
  exact h

/-! ### The commands by the run state -/

theorem State.armErr_lt : s.armErr < 2 ^ 4 := by
  unfold State.armErr
  repeat' split
  all_goals decide

theorem State.armErr_of_running (h : s.runSt ≠ 0) : s.armErr = 1 := if_pos h

theorem State.armErr_of_noImage (h : s.runSt = 0) (hi : s.image = none) : s.armErr = 2 := by
  rw [State.armErr, if_neg (by simp [h]), hi]
  rfl

theorem State.runArm_keeps : Keeps [.regs] s s.runArm := by
  unfold State.runArm
  exact Keeps.ite (fun _ => (Keeps.refl _ s).setF _ _ (by simp))
    (fun _ => ((Keeps.refl _ s).setF _ _ (by simp)).setF _ _ (by simp))

theorem State.runArm_regsKept : RegsKept [R.AFE_RUN_STATUS] s s.runArm := by
  unfold State.runArm
  dsimp only
  split
  · exact (RegsKept.refl _ s).setF _ _ (by decide)
  · exact ((RegsKept.refl _ s).setF _ _ (by decide)).setF _ _ (by decide)

theorem State.runArm_accepted (h : s.armErr = 0) : s.runArm.runSt = 1 := by
  rw [State.runArm, if_pos h]
  exact getF_setF_same _ _ _ (by decide)

theorem State.runArm_refused (h : s.armErr ≠ 0) :
    s.runArm.runSt = s.runSt ∧ s.runArm.getF F.AFE_RUN_STATUS_ARM_ERR = s.armErr ∧ s.runArm.bit F.AFE_RUN_STATUS_ARM_REFUSED = true := by
  rw [State.runArm, if_neg h]
  refine ⟨?_, ?_, bit_setF_one _ _ (by decide)⟩
  · simp (disch := decide) only [State.runSt, getF_setF_other]
  · simp (disch := decide) only [getF_setF_same, getF_setF_other]
    exact Nat.mod_eq_of_lt s.armErr_lt

theorem State.runDisarm_idle (h : s.runSt = 0) : s.runDisarm = s := by
  show (match s.runSt with | 0 => s | 1 => _ | _ => _) = s
  rw [h]
  rfl

theorem State.runDisarm_armed (h : s.runSt = 1) : s.runDisarm = (s.setF F.AFE_RUN_STATUS_STATE 0).worked 10 := by
  show (match s.runSt with | 0 => s | 1 => _ | _ => _) = _
  rw [h]
  rfl

theorem State.runDisarm_late (h : 2 ≤ s.runSt) : s.runDisarm = s.late F.AFE_RUN_STATUS_DISARM_LATE := by
  show (match s.runSt with | 0 => s | 1 => _ | _ => _) = _
  split
  · omega
  · omega
  · rfl

theorem State.runDisarm_result :
    Keeps [.regs, .pwr] s s.runDisarm ∧ RegsKept [R.AFE_RUN_STATUS, R.MNT_LATE] s s.runDisarm ∧
      (s.runSt = 0 → s.runDisarm.regs = s.regs ∧ s.runDisarm.pwr = s.pwr) ∧ (s.runSt = 1 → s.runDisarm.runSt = 0) ∧
      (2 ≤ s.runSt → s.runDisarm.runSt = s.runSt ∧ s.runDisarm.bit F.AFE_RUN_STATUS_DISARM_LATE = true ∧
        s.runDisarm.getF F.MNT_LATE_COUNT = (s.getF F.MNT_LATE_COUNT + 1) % 2 ^ 32) := by
  obtain h | h | h : s.runSt = 0 ∨ s.runSt = 1 ∨ 2 ≤ s.runSt := by omega
  · rw [s.runDisarm_idle h]
    exact ⟨Keeps.refl _ s, RegsKept.refl _ s, fun _ => ⟨rfl, rfl⟩, by omega, by omega⟩
  · rw [s.runDisarm_armed h]
    exact ⟨((Keeps.refl _ s).setF _ _ (by simp)).worked _ (by simp), ((RegsKept.refl _ s).setF _ _ (by decide)).worked _, by omega,
      fun _ => getF_setF_same s F.AFE_RUN_STATUS_STATE 0 (by decide), by omega⟩
  · rw [s.runDisarm_late h]
    refine ⟨((Keeps.refl _ s).setF _ _ (by simp)).bump _ (by simp), ((RegsKept.refl _ s).setF _ _ (by decide)).bump _ (by decide),
      by omega, by omega, fun _ => ⟨?_, ?_, ?_⟩⟩
    · exact (getF_bump_other _ _ _ (by decide) (by decide)).trans (getF_setF_other _ _ _ _ (by decide) (by decide))
    · exact (bit_bump_other _ _ _ (by decide) (by decide)).trans (bit_setF_one _ _ (by decide))
    · rw [State.late, getF_bump_same _ _ (by decide), getF_setF_other _ _ _ _ (by decide) (by decide)]
      rfl

/-- A command that the run state does not allow. -/
theorem State.cmdErr_frame : Keeps [.regs] s (s.setF F.AFE_RUN_STATUS_CMD_ERR 1) ∧
    RegsKept [R.AFE_RUN_STATUS] s (s.setF F.AFE_RUN_STATUS_CMD_ERR 1) ∧ (s.setF F.AFE_RUN_STATUS_CMD_ERR 1).runSt = s.runSt ∧
      (s.setF F.AFE_RUN_STATUS_CMD_ERR 1).bit F.AFE_RUN_STATUS_CMD_ERR = true :=
  ⟨(Keeps.refl _ s).setF _ _ (by simp), (RegsKept.refl _ s).setF _ _ (by decide), getF_setF_other _ _ _ _ (by decide) (by decide),
    bit_setF_one _ _ (by decide)⟩

/-- A collision counts and is recorded. -/
theorem State.collision_frame (f : Fld) (typ : Nat) (hf : f.lo + f.width ≤ 32) :
    Keeps [.regs, .recq] s ((s.bump f).emit 0 typ []) ∧ RegsKept [f.off] s ((s.bump f).emit 0 typ []) ∧
      ((s.bump f).emit 0 typ []).getF f = (s.getF f + 1) % 2 ^ f.width ∧
      ((s.bump f).emit 0 typ []).recq = s.recq ++ [⟨0, typ, [], s.tick⟩] :=
  ⟨((Keeps.refl _ s).bump _ (by simp)).emit _ _ _ (by simp), ((RegsKept.refl _ s).bump _ (by simp)).emit _ _ _,
    (State.emit_getF ..).trans (getF_bump_same _ _ hf), rfl⟩

theorem State.hostStart_refused (h : s.runSt = 0 ∨ (s.runSt = 1 ∧ s.getF F.AFE_RUN_CFG_SRC ≠ srcHost)) :
    s.hostStart = s.setF F.AFE_RUN_STATUS_CMD_ERR 1 := by
  show (match s.runSt with | 0 => _ | 1 => _ | _ => _) = _
  obtain h | ⟨h, hsrc⟩ := h <;> rw [h]
  · exact if_pos rfl
  · exact (if_neg hsrc).trans (if_pos rfl)

theorem State.hostStart_collides (h : 2 ≤ s.runSt) : s.hostStart = (s.bump F.AFE_START_COLLISION_COUNT).emit 0 0x0903 [] := by
  show (match s.runSt with | 0 => _ | 1 => _ | _ => _) = _
  split
  · omega
  · omega
  · rfl

theorem State.hostStart_starts (h : s.runSt = 1) (hsrc : s.getF F.AFE_RUN_CFG_SRC = srcHost) : s.hostStart = s.enterDelay s.lead false := by
  show (match s.runSt with | 0 => _ | 1 => _ | _ => _) = _
  rw [h]
  exact if_pos hsrc

theorem State.stopWith_idle (n : Nat) (late : Bool) (h : s.runSt = 0) : s.stopWith true n late = s.setF F.AFE_RUN_STATUS_CMD_ERR 1 := by
  show (match s.runSt with | 0 => _ | 1 => _ | 2 => _ | _ => _) = _
  rw [h]
  rfl

theorem State.stopWith_collides (n : Nat) (late : Bool) (h : s.runSt = 1 ∨ (s.runSt = 3 ∧ s.run.stopAt.isSome = true)) :
    s.stopWith true n late = (s.bump F.AFE_STOP_COLLISION_COUNT).emit 0 0x0904 [] := by
  show (match s.runSt with | 0 => _ | 1 => _ | 2 => _ | _ => _) = _
  obtain h | ⟨h, hs⟩ := h <;> rw [h]
  · rfl
  · exact if_pos hs

theorem State.stopWith_delay (n : Nat) (late : Bool) (h : s.runSt = 2) : s.stopWith true n late = s.stopInDelay := by
  show (match s.runSt with | 0 => _ | 1 => _ | 2 => _ | _ => _) = _
  rw [h]
  rfl

theorem State.stopWith_run (n : Nat) (late : Bool) (h : s.runSt = 3) (hs : s.run.stopAt = none) :
    s.stopWith true n late = (if late then s.setF F.AFE_RUN_STATUS_STOP_LATE 1 else s).fixStop n := by
  show (match s.runSt with | 0 => _ | 1 => _ | 2 => _ | _ => _) = _
  rw [h, hs]
  rfl

/-- A stop in DELAY where no set waits. -/
theorem State.stopInDelay_result (h : s.applySt = 0) :
    s.stopInDelay.runSt = 0 ∧ s.stopInDelay.run = s.run ∧ s.stopInDelay.recq = s.recq ∧
      s.stopInDelay.rd64 R.AFE_STOP_AT_LO R.AFE_STOP_AT_HI = 2 ^ 64 - 1 := by
  have happly (u : State) (hu : u.applySt = 0) (n : Nat) : u.applyRunEnds n = u := by
    rw [State.applyRunEnds, hu, if_neg (by decide), if_neg (by decide)]
  have hst : ((((s.setF F.AFE_RUN_STATUS_STATE 0).worked 10).endStreams 2).wr64 R.AFE_STOP_AT_LO R.AFE_STOP_AT_HI allOnes64).applySt = 0 := by
    rw [State.applySt, getF_wr64_other _ _ _ _ _ (by decide) (by decide), ← h]
    exact getF_setF_other _ _ _ _ (by decide) (by decide)
  have he : s.stopInDelay = (((s.setF F.AFE_RUN_STATUS_STATE 0).worked 10).endStreams 2).wr64 R.AFE_STOP_AT_LO R.AFE_STOP_AT_HI allOnes64 :=
    happly _ hst _
  rw [he]
  refine ⟨?_, rfl, rfl, rd64_wr64_same _ _ _ _ (by decide) (by decide)⟩
  exact (getF_wr64_other _ _ _ _ _ (by decide) (by decide)).trans (getF_setF_same s F.AFE_RUN_STATUS_STATE 0 (by decide))

/-- The flag of a stop that came too late for its SN. -/
def State.stopLate (late : Bool) : State := if late then s.setF F.AFE_RUN_STATUS_STOP_LATE 1 else s

/-- S_stop is fixed, with its late flag. -/
theorem State.fixStop_result (n : Nat) (late : Bool) (h : s.runSt = 3) :
    Keeps [.regs, .run] s ((s.stopLate late).fixStop n) ∧ ((s.stopLate late).fixStop n).run = { s.run with stopAt := some n } ∧
      ((s.stopLate late).fixStop n).runSt = 3 ∧ ((s.stopLate late).fixStop n).bit F.AFE_RUN_STATUS_STOP_PENDING = true ∧
      (late = true → ((s.stopLate late).fixStop n).bit F.AFE_RUN_STATUS_STOP_LATE = true) ∧
      (n < 2 ^ 64 → ((s.stopLate late).fixStop n).rd64 R.AFE_STOP_AT_LO R.AFE_STOP_AT_HI = n) := by
  have hlate : Keeps [.regs] s (s.stopLate late) := Keeps.ite (fun _ => (Keeps.refl _ s).setF _ _ (by simp)) (fun _ => Keeps.refl _ s)
  have hrun : (s.stopLate late).run = s.run := hlate .run (by simp)
  have hst : (s.stopLate late).runSt = s.runSt := by
    unfold State.stopLate
    split
    · exact getF_setF_other _ _ _ _ (by decide) (by decide)
    · rfl
  refine ⟨(hlate.mono (by simp)).trans (State.fixStop_keeps _ n), by rw [← hrun]; rfl, ?_, State.fixStop_pending _ n, ?_, fun h => ?_⟩
  · refine Eq.trans ?_ (hst.trans h)
    exact (getF_wr64_other _ _ _ _ _ (by decide) (by decide)).trans
      (getF_setF_other { s.stopLate late with run := { (s.stopLate late).run with stopAt := some n } } _ _ _ (by decide) (by decide))
  · rintro rfl
    refine (bit_wr64_other _ _ _ _ _ (by decide) (by decide)).trans
      ((bit_setF_other { s.stopLate true with run := { (s.stopLate true).run with stopAt := some n } } _ _ _ (by decide) (by decide)).trans ?_)
    exact bit_setF_one s F.AFE_RUN_STATUS_STOP_LATE (by decide)
  · exact rd64_wr64_same _ _ _ _ h (by decide)

/-- The effect of STOP_AT_SN, and of HOST_STOP. -/
def State.stopCmd (at_ : Bool) : State := if at_ then s.stopAtSnCmd else s.hostStop

theorem State.stopCmd_eq (at_ : Bool) (n : Nat) (late : Bool) (hhost : at_ = false → n = s.stopSn s.lead ∧ late = false)
    (hat : at_ = true → late = decide (s.rd64 R.AFE_STOP_SN_LO R.AFE_STOP_SN_HI < s.run.next) ∧
      n = (if late then s.run.next else s.rd64 R.AFE_STOP_SN_LO R.AFE_STOP_SN_HI)) :
    s.stopCmd at_ = s.stopWith true n late := by
  cases at_ with
  | false =>
    obtain ⟨rfl, rfl⟩ := hhost rfl
    rfl
  | true =>
    obtain ⟨hl, rfl⟩ := hat rfl
    show State.stopAtSnCmd s = _
    unfold State.stopAtSnCmd State.notReached
    dsimp only
    by_cases h : s.run.next ≤ s.rd64 R.AFE_STOP_SN_LO R.AFE_STOP_SN_HI
    · rw [decide_eq_false (Nat.not_lt.mpr h)] at hl
      rw [decide_eq_true h, hl]
      rfl
    · rw [decide_eq_true (Nat.lt_of_not_ge h)] at hl
      rw [decide_eq_false h, hl]
      rfl

/-- What a stop command of the host does by the run state. -/
theorem State.stopWith_result (n : Nat) (late : Bool) {t : State} (ht : t = s.stopWith true n late) :
    (s.runSt = 0 → Keeps [.regs] s t ∧ RegsKept [R.AFE_RUN_STATUS] s t ∧ t.bit F.AFE_RUN_STATUS_CMD_ERR = true) ∧
      ((s.runSt = 1 ∨ (s.runSt = 3 ∧ s.run.stopAt.isSome = true)) →
        Keeps [.regs, .recq] s t ∧ RegsKept [R.AFE_STOP_COLLISION] s t ∧
        t.getF F.AFE_STOP_COLLISION_COUNT = (s.getF F.AFE_STOP_COLLISION_COUNT + 1) % 2 ^ 32 ∧
        t.recq = s.recq ++ [⟨0, 0x0904, [], s.tick⟩]) ∧
      (s.runSt = 2 → s.applySt = 0 → t.runSt = 0 ∧ t.run = s.run ∧ t.recq = s.recq ∧
        t.rd64 R.AFE_STOP_AT_LO R.AFE_STOP_AT_HI = 2 ^ 64 - 1) ∧
      (s.runSt = 3 → s.run.stopAt = none →
        Keeps [.regs, .run] s t ∧ t.run = { s.run with stopAt := some n } ∧ t.runSt = 3 ∧
        t.bit F.AFE_RUN_STATUS_STOP_PENDING = true ∧ (late = true → t.bit F.AFE_RUN_STATUS_STOP_LATE = true) ∧
        (n < 2 ^ 64 → t.rd64 R.AFE_STOP_AT_LO R.AFE_STOP_AT_HI = n)) := by
  subst ht
  refine ⟨fun h => ?_, fun h => ?_, fun h ha => ?_, fun h hs => ?_⟩
  · rw [s.stopWith_idle n late h]
    obtain ⟨hk, hr, -, hb⟩ := s.cmdErr_frame
    exact ⟨hk, hr, hb⟩
  · rw [s.stopWith_collides n late h]
    exact s.collision_frame F.AFE_STOP_COLLISION_COUNT 0x0904 (by decide)
  · rw [s.stopWith_delay n late h]
    exact s.stopInDelay_result ha
  · rw [s.stopWith_run n late h hs]
    exact s.fixStop_result n late h

end

end Sys2Proof.Machine

open Sys2Proof.Machine in
/-- Settles O34: every command by the case of its run state; the entry of DELAY keeps time, so the start instant stands. -/
theorem runCommands : Obligations.RunCommands := by
  refine ⟨fun id s hg => gated_next 1#32 hg (by decide) ?_, fun id s hg => gated_next 2#32 hg (by decide) ?_,
    fun id s hg => gated_next 4#32 hg (by decide) ?_, fun id at_ s n late hg hhost hat => ?_⟩
  · simp only [State.runSt, State.bpReg_getF, State.bpReg_bit]
    exact ⟨(s.runArm_keeps.mono (by simp)).bpReg _ _ _ (by simp), s.runArm_regsKept.bpReg _ _ _, s.runArm_accepted, s.runArm_refused,
      s.armErr_of_running, s.armErr_of_noImage⟩
  · obtain ⟨hk, hr, h0, h1, h2⟩ := s.runDisarm_result
    exact ⟨(hk.mono (by simp)).bpReg _ _ _ (by simp), hr.bpReg _ _ _, h0, h1, h2⟩
  · refine ⟨fun h => ?_, fun h => ?_, fun h hsrc => ?_⟩
    · rw [s.hostStart_refused h]
      obtain ⟨hk, hr, hst, hb⟩ := s.cmdErr_frame
      exact ⟨(hk.mono (by simp)).bpReg _ _ _ (by simp), hr.bpReg _ _ _, hst, hb⟩
    · rw [s.hostStart_collides h]
      obtain ⟨hk, hr, hc, hq⟩ := s.collision_frame F.AFE_START_COLLISION_COUNT 0x0903 (by decide)
      exact ⟨(hk.mono (by simp)).bpReg _ _ _ (by simp), hr.bpReg _ _ _, hc, hq⟩
    · rw [s.hostStart_starts h hsrc]
      obtain ⟨hn, hr, hs, ht, hc⟩ := s.enterDelay_run s.lead false
      obtain ⟨hst, hns, hfrac⟩ := s.enterDelay_shown s.lead false
      have hnow : (s.enterDelay s.lead false).now = s.now := congrArg Deep.now (s.enterDelay_deep s.lead false)
      exact (s.enterDelay s.lead false).startShown_bpReg s id ⟨hst, hn, hr, hs, ht, hc, hnow, hns, hfrac⟩ rfl
  · have hcmd : ∃ v, exec (if at_ then .stopAtSn id else .hostStop id) s = .next (s.gated id R.AFE_RUN_CMD v (fun s => s.stopCmd at_)) := by
      cases at_ <;> exact ⟨_, rfl⟩
    obtain ⟨v, hv⟩ := hcmd
    rw [hv]
    refine gated_next v hg (by decide) ?_
    obtain ⟨h0, h1, h2, h3⟩ := s.stopWith_result n late (s.stopCmd_eq at_ n late hhost hat)
    generalize s.stopCmd at_ = u at h0 h1 h2 h3 ⊢
    refine ⟨fun h => ?_, fun h => ?_, h2, fun h hs => ?_⟩
    · obtain ⟨hk, hr, hb⟩ := h0 h
      exact ⟨(hk.mono (by simp)).bpReg _ _ _ (by simp), hr.bpReg _ _ _, hb⟩
    · obtain ⟨hk, hr, hc, hq⟩ := h1 h
      exact ⟨(hk.mono (by simp)).bpReg _ _ _ (by simp), hr.bpReg _ _ _, hc, hq⟩
    · obtain ⟨hk, hrest⟩ := h3 h hs
      exact ⟨(hk.mono (by simp)).bpReg _ _ _ (by simp), hrest⟩

end

section
/-!
SUPPORT. SYNC_IN (R99, R100): what starts, stops, marks and triggers of a pulse change.
-/

namespace Sys2Proof.Machine

/-- The registers of the classes of SYNC_IN. -/
def syncClassRegs (off : Nat) : Prop := 0x90110 ≤ off ∧ off < 0x90150

theorem besideRun_of_syncClassRegs {off : Nat} (h : syncClassRegs off) : besideRun off := by
  obtain ⟨hlo, hhi⟩ := h
  have hb : off / 0x10000 = 9 := by omega
  exact ⟨⟨by omega, by omega, by omega⟩, by omega⟩

/-- The fields that the entry of DELAY changes. -/
def enterDelayFields : List Field := [.time, .setLog, .run, .regs, .mem, .fqs, .strs, .dbg, .ports, .recq, .trg, .path, .cal]

/-- The fields that the pulses of SYNC_IN change. -/
def syncFields : List Field :=
  [.regs, .run, .cal, .dbg, .fqs, .host, .mem, .path, .ports, .pwr, .recq, .setLog, .strs, .time, .trg, .upd, .freeCtr]

section

variable (s : State)

theorem State.enterDelay_frame (ts : Nat) (late : Bool) : Frame enterDelayFields syncClassRegs s (s.enterDelay ts late) := by
  have hr : Field.regs ∈ enterDelayFields := by decide
  have hready : Frame enterDelayFields syncClassRegs s s.streamsEnterDelay.trigEnterDelay.relabelSpares :=
    s.delayReady_frame.mono (by decide) (fun _ => besideRun_of_syncClassRegs)
  have hfresh {t : State} (h : Frame enterDelayFields syncClassRegs s t) (a : TimeState) (b : DbgState) (d : PathState) (e : RunState) :
      Frame enterDelayFields syncClassRegs s { t with time := a, dbg := b, setLog := [], path := d, run := e } :=
    ⟨((((h.keeps.time a (by decide)).dbg b (by decide)).setLog [] (by decide)).path d (by decide)).run e (by decide), h.rd⟩
  have hflag {t : State} (h : Frame enterDelayFields syncClassRegs s t) (c : Prop) [Decidable c] (f : Fld) (hf : ¬ syncClassRegs f.off) :
      Frame enterDelayFields syncClassRegs s (if c then t.setF f 1 else t) ∧
        Frame enterDelayFields syncClassRegs s (if c then t else t.setF f 1) :=
    ⟨Frame.ite (fun _ => h.setF f 1 hr hf) (fun _ => h), Frame.ite (fun _ => h) (fun _ => h.setF f 1 hr hf)⟩
  unfold State.enterDelay
  dsimp only
  refine Frame.setF (Frame.wr64 (Frame.setF (Frame.setF (Frame.setF (Frame.setF (Frame.setF
    (hflag (hflag (Frame.setF (hfresh hready _ _ _ _) _ _ hr ?_) _ _ ?_).2 _ _ ?_).1 _ _ hr ?_) _ _ hr ?_) _ _ hr ?_)
    _ _ hr ?_) _ _ hr ?_) _ _ _ hr ?_ ?_) _ _ hr ?_
  all_goals unfold syncClassRegs; decide

theorem State.stopInDelay_syncFrame : Frame [.regs, .strs, .pwr, .host, .recq, .setLog, .upd] syncClassRegs s s.stopInDelay :=
  ⟨s.stopInDelay_keeps, s.stopInDelay_rdKept.mono (fun o ⟨hlo, hhi⟩ => by
    refine ⟨⟨by omega, ?_⟩, ?_⟩
    · rw [R.HIF_APPLY_STATUS]; omega
    · simp only [delayStopRegs, List.mem_cons, List.not_mem_nil, or_false, R.AFE_RUN_STATUS, R.AFE_STOP_AT_LO, R.AFE_STOP_AT_HI]
      omega)⟩

theorem State.fixStop_syncFrame (n : Nat) : Frame [.regs, .run] syncClassRegs s (s.fixStop n) :=
  ⟨s.fixStop_keeps n, RdKept.of_regsKept (s.fixStop_regsKept n) (fun o ⟨hlo, hhi⟩ => by
    simp only [delayStopRegs, List.mem_cons, List.not_mem_nil, or_false, R.AFE_RUN_STATUS, R.AFE_STOP_AT_LO, R.AFE_STOP_AT_HI]
    omega)⟩

/-- A collision counts and is recorded. -/
theorem State.collision_syncFrame (f : Fld) (typ : Nat) (hf : ¬ syncClassRegs f.off) :
    Frame syncFields syncClassRegs s ((s.bump f).emit 0 typ []) :=
  ((Frame.refl _ _ s).bump f (by decide) hf).emit _ _ _ (by decide)

theorem State.startEvent_syncFrame (src ts : Nat) (late : Bool) : Frame syncFields syncClassRegs s (s.startEvent src ts late) := by
  have herr : Frame syncFields syncClassRegs s (s.setF F.AFE_RUN_STATUS_CMD_ERR 1) :=
    (Frame.refl _ _ s).setF _ _ (by decide) (by unfold syncClassRegs; decide)
  show Frame _ _ s (match s.runSt with | 0 => _ | 1 => _ | _ => _)
  split
  · exact Frame.ite (fun _ => herr) (fun _ => Frame.refl _ _ s)
  · exact Frame.ite (fun _ => (s.enterDelay_frame ts late).wide (by decide))
      (fun _ => Frame.ite (fun _ => herr) (fun _ => Frame.refl _ _ s))
  · exact s.collision_syncFrame _ _ (by unfold syncClassRegs; decide)

theorem State.stopWith_syncFrame (host : Bool) (n : Nat) (late : Bool) : Frame syncFields syncClassRegs s (s.stopWith host n late) := by
  have hset (f : Fld) (hf : ¬ syncClassRegs f.off) : Frame syncFields syncClassRegs s (s.setF f 1) :=
    (Frame.refl _ _ s).setF _ _ (by decide) hf
  show Frame _ _ s (match s.runSt with | 0 => _ | 1 => _ | 2 => _ | _ => _)
  split
  · exact Frame.ite (fun _ => hset _ (by unfold syncClassRegs; decide)) (fun _ => Frame.refl _ _ s)
  · exact s.collision_syncFrame _ _ (by unfold syncClassRegs; decide)
  · exact s.stopInDelay_syncFrame.wide (by decide)
  · refine Frame.ite (fun _ => s.collision_syncFrame _ _ (by unfold syncClassRegs; decide)) (fun _ => ?_)
    exact (Frame.ite (fun _ => hset _ (by unfold syncClassRegs; decide)) (fun _ => Frame.refl _ _ s)).trans
      ((State.fixStop_syncFrame _ n).wide (by decide))

theorem State.placeMark_syncFrame (t tl epoch cls : Nat) : Frame syncFields syncClassRegs s (s.placeMark t tl epoch cls) :=
  Frame.ite (fun _ => ⟨(Keeps.refl _ s).strs _ (by decide), RdKept.refl _ s⟩) (fun _ => Frame.refl _ _ s)

theorem State.eventTrigger_syncFrame (src sel : Nat) (t : Int) : Frame syncFields syncClassRegs s (s.eventTrigger src sel t) :=
  Frame.ite (fun _ => ⟨(Keeps.refl _ s).trg _ (by decide), RdKept.refl _ s⟩) (fun _ => Frame.refl _ _ s)

/-- The action of class `n` for pulse `p`, the class counted. -/
def State.syncDoes (n : Nat) (p : SyncPulse) : State :=
  match s.getF (F.AFE_SYNC_CLS_CTRL_ACTION n) with
  | 0 => s.startEvent srcSync (s.syncInstant p) false
  | 1 => s.stopEvent false (s.syncInstant p)
  | 2 => (s.placeMark (s.syncInstant p) p.tl p.epoch n).emit 0 0x0906 []
  | _ => s.eventTrigger 2 n (s.syncInstant p)

theorem State.syncDoes_frame (n : Nat) (p : SyncPulse) : Frame syncFields syncClassRegs s (s.syncDoes n p) := by
  unfold State.syncDoes
  split
  · exact s.startEvent_syncFrame _ _ _
  · exact s.stopWith_syncFrame _ _ _
  · exact (s.placeMark_syncFrame _ _ _ _).emit _ _ _ (by decide)
  · exact s.eventTrigger_syncFrame _ _ _

theorem State.enterDelay_sync (ts : Nat) (late : Bool) : (s.enterDelay ts late).run.sync = s.run.sync := by
  have hrun : s.delayReady.run = s.run := s.delayReady_frame.keeps .run (by decide)
  unfold State.enterDelay
  simp only [State.setF_run, State.wr64_run, apply_ite State.run, ite_self]
  rw [← hrun]
  rfl

theorem State.startEvent_sync (src ts : Nat) (late : Bool) : (s.startEvent src ts late).run.sync = s.run.sync := by
  show RunState.sync (State.run (match s.runSt with | 0 => _ | 1 => _ | _ => _)) = _
  split
  · simp only [apply_ite State.run, State.setF_run, ite_self]
  · simp only [apply_ite State.run, apply_ite RunState.sync, State.setF_run, State.enterDelay_sync, ite_self]
  · rfl

theorem State.stopWith_sync (host : Bool) (n : Nat) (late : Bool) : (s.stopWith host n late).run.sync = s.run.sync := by
  have hdelay : s.stopInDelay.run = s.run := s.stopInDelay_keeps .run (by decide)
  show RunState.sync (State.run (match s.runSt with | 0 => _ | 1 => _ | 2 => _ | _ => _)) = _
  split
  · simp only [apply_ite State.run, State.setF_run, ite_self]
  · rfl
  · rw [hdelay]
  · split
    · rfl
    · cases late <;> rfl

/-- No action of a class brings a pulse back. -/
theorem State.syncDoes_sync (n : Nat) (p : SyncPulse) : (s.syncDoes n p).run.sync = s.run.sync := by
  unfold State.syncDoes
  split
  · exact s.startEvent_sync _ _ _
  · exact s.stopWith_sync _ _ _
  · unfold State.placeMark
    split <;> rfl
  · unfold State.eventTrigger
    split <;> rfl

/-- A class with action START in ARMED, the source of which is SYNC_IN. -/
theorem State.syncDoes_start (n : Nat) (p : SyncPulse) (ha : s.getF (F.AFE_SYNC_CLS_CTRL_ACTION n) = 0) (hst : s.runSt = 1)
    (hsrc : s.getF F.AFE_RUN_CFG_SRC = srcSync) : s.syncDoes n p = s.enterDelay (s.syncInstant p) false := by
  have hs : s.startEvent srcSync (s.syncInstant p) false = s.enterDelay (s.syncInstant p) false := by
    show (match s.runSt with | 0 => _ | 1 => _ | _ => _) = _
    rw [hst]
    exact if_pos hsrc
  rw [State.syncDoes, ha]
  exact hs

/-- A class with action STOP in RUN, no stop fixed. -/
theorem State.syncDoes_stop (n : Nat) (p : SyncPulse) (ha : s.getF (F.AFE_SYNC_CLS_CTRL_ACTION n) = 1) (hst : s.runSt = 3)
    (hstop : s.run.stopAt = none) : s.syncDoes n p = (s.stopLate false).fixStop (s.stopSn (s.syncInstant p)) := by
  have hs : s.stopWith false (s.stopSn (s.syncInstant p)) false = (s.stopLate false).fixStop (s.stopSn (s.syncInstant p)) := by
    show (match s.runSt with | 0 => _ | 1 => _ | 2 => _ | _ => _) = _
    rw [hst, hstop]
    rfl
  rw [State.syncDoes, ha]
  exact hs

/-- A class with action MARK in RUN. -/
theorem State.syncDoes_mark (n : Nat) (p : SyncPulse) (ha : s.getF (F.AFE_SYNC_CLS_CTRL_ACTION n) = 2) (hst : s.runSt = 3) :
    s.syncDoes n p = ({ s with strs := s.strs.map (fun (x : StreamState) =>
      if x.active then { x with marks := x.marks ++ [(⟨(s.snFrom (s.syncInstant p)).toNat, p.tl, p.epoch, n, none⟩ : Mark)] } else x) }).emit 0 0x0906 [] := by
  have hrun : s.inRun = true := by rw [State.inRun, hst]; rfl
  rw [State.syncDoes, ha]
  refine congrArg (fun x : State => x.emit 0 0x0906 []) ?_
  rw [State.placeMark, if_pos hrun, if_pos hst]

/-! ### The class of a pulse -/

theorem State.syncClass_none (w : Nat) (h : ∀ n, n < 4 → s.bit (F.AFE_SYNC_CLS_CTRL_EN n) = true →
    s.getF (F.AFE_SYNC_CLS_MIN_MIN n) ≤ w → s.getF (F.AFE_SYNC_CLS_MAX_MAX n) < w) : s.syncClass w = none := by
  refine List.find?_eq_none.mpr (fun n hn hc => ?_)
  simp only [Bool.and_eq_true, decide_eq_true_eq] at hc
  obtain ⟨⟨hen, hmin⟩, hmax⟩ := hc
  exact absurd (h n (List.mem_range.mp hn) hen hmin) (Nat.not_lt.mpr hmax)

theorem State.syncClass_some (w n : Nat) (hn : n < 4) (hen : s.bit (F.AFE_SYNC_CLS_CTRL_EN n) = true)
    (hmin : s.getF (F.AFE_SYNC_CLS_MIN_MIN n) ≤ w) (hmax : w ≤ s.getF (F.AFE_SYNC_CLS_MAX_MAX n))
    (hlow : ∀ m, m < n → s.bit (F.AFE_SYNC_CLS_CTRL_EN m) = false) : s.syncClass w = some n := by
  refine List.find?_range_eq_some.mpr ⟨?_, List.mem_range.mpr hn, fun m hm => ?_⟩
  · rw [hen, decide_eq_true hmin, decide_eq_true hmax]
    rfl
  · rw [hlow m hm]
    rfl

end

/-- The pulse `p` is taken for its class: no pulse waits any longer, and class `n` counts. -/
def State.syncTaken (s : State) (n : Nat) : State :=
  ({ s with run := { s.run with sync := none } }).bump (F.AFE_SYNC_CLS_COUNT_COUNT n)

section

variable (s : State) {n : Nat}

theorem syncCount_other {g : Fld} (hg : ¬ (0x90110 ≤ g.off ∧ g.off % 16 = 12)) : g.off ≠ (F.AFE_SYNC_CLS_COUNT_COUNT n).off := by
  show g.off ≠ 0x9011C + 0x10 * n
  omega

theorem syncAction_beside (n : Nat) :
    ¬ (0x90110 ≤ (F.AFE_SYNC_CLS_CTRL_ACTION n).off ∧ (F.AFE_SYNC_CLS_CTRL_ACTION n).off % 16 = 12) := by
  show ¬ (0x90110 ≤ 0x90110 + 0x10 * n ∧ (0x90110 + 0x10 * n) % 16 = 12)
  omega

theorem State.syncTaken_getF {g : Fld} (hg : ¬ (0x90110 ≤ g.off ∧ g.off % 16 = 12)) : (s.syncTaken n).getF g = s.getF g :=
  getF_bump_other _ _ _ (by show 0 + 32 ≤ 32; decide) (.inl (syncCount_other hg))

theorem State.syncTaken_count : (s.syncTaken n).getF (F.AFE_SYNC_CLS_COUNT_COUNT n) = (s.getF (F.AFE_SYNC_CLS_COUNT_COUNT n) + 1) % 2 ^ 32 :=
  getF_bump_same _ _ (by show 0 + 32 ≤ 32; decide)

theorem State.syncTaken_snFrom (t : Int) : (s.syncTaken n).snFrom t = s.snFrom t := by
  have hts : (s.syncTaken n).ts = s.ts := by
    have hrd (off : Nat) (ho : off < 0x90110) : (s.syncTaken n).rd off = s.rd off :=
      rd_bump_other _ _ _ (by show off ≠ 0x9011C + 0x10 * n; omega)
    rw [State.ts, State.ts, State.sperRaw, State.sperRaw, State.rd64, State.rd64, hrd _ (by decide), hrd _ (by decide)]
  show _ + ceilDivI _ (s.syncTaken n).ts = _
  rw [hts]
  rfl

theorem State.syncTaken_stopSn (t : Int) : (s.syncTaken n).stopSn t = s.stopSn t := by
  show ((s.syncTaken n).snFrom (max t s.lead) - 1).toNat = _
  rw [State.syncTaken_snFrom]
  rfl

/-- A pulse of class `n`: what it leaves alone, and what its class counts. -/
theorem State.syncTaken_does (p : SyncPulse) (hn : n < 4) :
    Keeps syncFields s ((s.syncTaken n).syncDoes n p) ∧
      ((s.syncTaken n).syncDoes n p).getF (F.AFE_SYNC_CLS_COUNT_COUNT n) = (s.getF (F.AFE_SYNC_CLS_COUNT_COUNT n) + 1) % 2 ^ 32 := by
  have hf := (s.syncTaken n).syncDoes_frame n p
  have hk : Keeps syncFields s (s.syncTaken n) := ((Keeps.refl _ s).run _ (by decide)).bump _ (by decide)
  refine ⟨hk.trans hf.keeps, (hf.rd.getF _ ?_).trans s.syncTaken_count⟩
  show 0x90110 ≤ 0x9011C + 0x10 * n ∧ 0x9011C + 0x10 * n < 0x90150
  omega

theorem State.syncTaken_started (p : SyncPulse) (ha : s.getF (F.AFE_SYNC_CLS_CTRL_ACTION n) = 0) (hst : s.runSt = 1)
    (hsrc : s.getF F.AFE_RUN_CFG_SRC = srcSync) :
    ((s.syncTaken n).syncDoes n p).runSt = 2 ∧ ((s.syncTaken n).syncDoes n p).run.tStart = s.syncInstant p - s.stepShift := by
  rw [State.syncDoes_start _ _ _ ((s.syncTaken_getF (syncAction_beside n)).trans ha) ((s.syncTaken_getF (by decide)).trans hst)
    ((s.syncTaken_getF (by decide)).trans hsrc)]
  obtain ⟨-, -, -, ht, -⟩ := (s.syncTaken n).enterDelay_run ((s.syncTaken n).syncInstant p) false
  exact ⟨((s.syncTaken n).enterDelay_shown _ false).1, ht⟩

theorem State.syncTaken_stopped (p : SyncPulse) (ha : s.getF (F.AFE_SYNC_CLS_CTRL_ACTION n) = 1) (hst : s.runSt = 3)
    (hstop : s.run.stopAt = none) :
    ((s.syncTaken n).syncDoes n p).runSt = 3 ∧
      ((s.syncTaken n).syncDoes n p).run = { s.run with sync := none, stopAt := some (s.stopSn (s.syncInstant p)) } := by
  rw [State.syncDoes_stop _ _ _ ((s.syncTaken_getF (syncAction_beside n)).trans ha) ((s.syncTaken_getF (by decide)).trans hst) hstop]
  obtain ⟨-, hr, hs, -⟩ := (s.syncTaken n).fixStop_result ((s.syncTaken n).stopSn ((s.syncTaken n).syncInstant p)) false
    ((s.syncTaken_getF (by decide)).trans hst)
  rw [State.syncTaken_stopSn] at hr hs ⊢
  exact ⟨hs, hr⟩

theorem State.syncTaken_marked (p : SyncPulse) (ha : s.getF (F.AFE_SYNC_CLS_CTRL_ACTION n) = 2) (hst : s.runSt = 3) :
    ((s.syncTaken n).syncDoes n p).recq = s.recq ++ [⟨0, 0x0906, [], s.tick⟩] ∧
      ((s.syncTaken n).syncDoes n p).strs = s.strs.map (fun (x : StreamState) =>
        if x.active then { x with marks := x.marks ++ [⟨(s.snFrom (s.syncInstant p)).toNat, p.tl, p.epoch, n, none⟩] } else x) := by
  rw [State.syncDoes_mark _ _ _ ((s.syncTaken_getF (syncAction_beside n)).trans ha) ((s.syncTaken_getF (by decide)).trans hst),
    State.syncTaken_snFrom]
  exact ⟨rfl, rfl⟩

/-- A pulse of no class. -/
theorem State.syncNone_result (x : List Word) {t : State}
    (ht : t = (({ s with run := { s.run with sync := none } }).bump F.AFE_SYNC_MALFORMED_COUNT).emit 0 0x0905 x) :
    t.run.sync = none ∧ Keeps [.regs, .run, .recq] s t ∧ RegsKept [R.AFE_SYNC_MALFORMED] s t ∧
      t.getF F.AFE_SYNC_MALFORMED_COUNT = (s.getF F.AFE_SYNC_MALFORMED_COUNT + 1) % 2 ^ 32 := by
  subst ht
  exact ⟨rfl, (((Keeps.refl _ s).run _ (by simp)).bump _ (by simp)).emit _ _ _ (by simp),
    (((RegsKept.refl _ s).run _).bump _ (by decide)).emit _ _ _,
    (State.emit_getF ..).trans (getF_bump_same _ _ (by decide))⟩

end

end Sys2Proof.Machine

open Sys2Proof.Machine in
/-- Settles O36: the edges by their guards, and a qualified pulse by the lowest class that its width matches. -/
theorem syncClasses : Obligations.SyncClasses := by
  refine ⟨fun f s hen => ?_, fun f s k hen href hk => ?_, fun f s hen href => ?_, fun s p hp hkt => ?_, fun s p hp hkt htl hlong => ?_,
    fun s p hp hkt hno => ?_, fun s p k hp hkt hk => ?_, fun s p k hp hkt hk => ?_⟩
  · show Host.Outcome.next (s.syncLead f) = _
    rw [State.syncLead, hen]
    rfl
  · refine ⟨_, rfl, ?_⟩
    have he : s.syncLead f = s.bump F.AFE_SYNC_MISSED_COUNT := by
      rw [State.syncLead, hen, href]
      exact (if_neg (by decide)).trans (if_pos (decide_eq_true hk))
    rw [he]
    exact ⟨(Keeps.refl _ s).bump _ (by simp), (RegsKept.refl _ s).bump _ (by decide), getF_bump_same _ _ (by decide)⟩
  · refine ⟨_, rfl, ?_⟩
    have he : s.syncLead f = { s with run := { s.run with
        sync := some ⟨s.tick, s.now + f * s.incrNow / 128, s.epoch, -s.stepShift, true, false, none⟩ } } := by
      rw [State.syncLead, hen]
      refine (if_neg (by decide)).trans (if_neg ?_)
      cases hr : s.run.syncRef with
      | none => exact Bool.false_ne_true
      | some k => simpa using href k hr
    rw [he]
    exact ⟨(Keeps.refl _ s).run _ (by simp), rfl⟩
  · refine ⟨_, rfl, ?_⟩
    have he : s.syncTrail = { s with run := { s.run with
        syncRef := some s.tick, sync := if p.tooLong then none else some { p with kt := some s.tick } } } := by
      rw [State.syncTrail, hp]
      exact if_neg (by rw [hkt]; decide)
    rw [he]
    exact ⟨(Keeps.refl _ s).run _ (by simp), rfl, rfl⟩
  · refine ⟨_, rfl, ?_⟩
    have he : s.syncLong =
        ({ s with run := { s.run with sync := some { p with tooLong := true } } }).bump F.AFE_SYNC_MALFORMED_COUNT := by
      rw [State.syncLong, hp]
      exact if_pos (by rw [hkt, htl, decide_eq_true hlong]; rfl)
    rw [he]
    exact ⟨((Keeps.refl _ s).run _ (by simp)).bump _ (by simp), ((RegsKept.refl _ s).run _).bump _ (by decide), rfl,
      getF_bump_same _ _ (by decide)⟩
  · have he : s.syncLong = s := by
      rw [State.syncLong, hp]
      refine if_neg ?_
      obtain h | h := hno
      · rw [h, hkt]; simp
      · rw [decide_eq_false (Nat.not_le.mpr h)]; simp
    exact congrArg Host.Outcome.next he
  · have he : s.syncQualify = (match State.syncClass { s with run := { s.run with sync := none } } (k - p.kl) with
        | none => (({ s with run := { s.run with sync := none } }).bump F.AFE_SYNC_MALFORMED_COUNT).emit 0 0x0905
            (ptime p.tl ++ pw (k - p.kl))
        | some n => (s.syncTaken n).syncDoes n p) := by
      rw [State.syncQualify, hp]
      dsimp only
      rw [hkt]
      exact if_pos hk
    cases hc : State.syncClass { s with run := { s.run with sync := none } } (k - p.kl) with
    | none =>
      rw [hc] at he
      obtain ⟨hs, hkeep, hr, hm⟩ := s.syncNone_result _ he
      refine ⟨s.syncQualify, rfl, hs, hkeep.mono (by decide), fun _ => ⟨hkeep, hr, hm⟩, ?_, ?_⟩
      · intro n hn hen hmin hmax hlow
        exact absurd (hc.symm.trans (s.syncClass_some _ n hn hen hmin hmax hlow)) (by simp)
      · intro n hn hen hmin hmax hlow
        exact absurd (hc.symm.trans (s.syncClass_some _ n hn hen hmin hmax hlow)) (by simp)
    | some c =>
      rw [hc] at he
      have he : s.syncQualify = (s.syncTaken c).syncDoes c p := he
      have hclass {n : Nat} (hn : n < 4) (hen : s.bit (F.AFE_SYNC_CLS_CTRL_EN n) = true) (hmin : s.getF (F.AFE_SYNC_CLS_MIN_MIN n) ≤ k - p.kl)
          (hmax : k - p.kl ≤ s.getF (F.AFE_SYNC_CLS_MAX_MAX n)) (hlow : ∀ m, m < n → s.bit (F.AFE_SYNC_CLS_CTRL_EN m) = false) : n = c :=
        (Option.some.inj (hc.symm.trans (s.syncClass_some _ n hn hen hmin hmax hlow))).symm
      have hc4 : c < 4 := List.mem_range.mp (List.mem_of_find?_eq_some hc)
      obtain ⟨hkeep, hcount⟩ := s.syncTaken_does p hc4
      refine ⟨s.syncQualify, rfl, ?_, he ▸ hkeep, fun h => ?_, ?_, ?_⟩
      · rw [he]; exact State.syncDoes_sync _ c p
      · exact absurd (hc.symm.trans (s.syncClass_none _ h)) (by simp)
      · intro n hn hen hmin hmax hlow ha hst hsrc
        obtain rfl := hclass hn hen hmin hmax hlow
        rw [he]
        exact s.syncTaken_started p ha hst hsrc
      · intro n hn hen hmin hmax hlow
        obtain rfl := hclass hn hen hmin hmax hlow
        rw [he]
        exact ⟨hcount, s.syncTaken_stopped p, s.syncTaken_marked p⟩
  · have he : s.syncQualify = s := by
      rw [State.syncQualify, hp]
      dsimp only
      rw [hkt]
      exact if_neg (Nat.not_le.mpr hk)
    exact congrArg Host.Outcome.next he

end

section
/-!
SUPPORT. Activities of the maintenance coordinator (R408-R414): admission, pauses and what faults of the flash change (R418).
-/

namespace Sys2Proof.Machine

/-! ### Faults (R418, R419) -/

/-- Registers outside block MNT. -/
def besideMnt (off : Nat) : Prop := off / 0x10000 ≠ 15

/-- The fields that a fault changes. -/
def faultFields : List Field := [.regs, .host, .obs, .upd, .recq]

section

variable (s : State)

theorem State.signalAlert_frame (p : Nat → Prop) : Frame [.host, .obs] p s s.signalAlert := by
  have hgo (u : State) (f : Nat) :
      Frame [.host, .obs] p u (if u.bit (F.HIF_FN_ALERT_EN f) then u.signal f (u.getF (F.HIF_FN_ALERT_VEC f)) else u) :=
    Frame.ite (fun _ => (u.signal_keeps _ _).frame (by simp) (by simp) p) (fun _ => Frame.refl _ _ u)
  exact (hgo s 0).trans (hgo _ 1)

theorem State.setAlert_frame (n : Nat) : Frame faultFields besideMnt s (s.setAlert n) := by
  have hset : Frame faultFields besideMnt s (s.setF ⟨R.MNT_ALERT_STATUS, n, 1⟩ 1) :=
    (Frame.refl _ _ s).setF _ _ (by decide) (fun h => h (by show R.MNT_ALERT_STATUS / 0x10000 = 15; decide))
  have hsig := hset.trans ((State.signalAlert_frame _ besideMnt).wide (by decide))
  refine Frame.ite (fun _ => hset) (fun _ => Frame.ite (fun _ => Frame.ite (fun _ => hsig) (fun _ => ?_)) (fun _ => hset))
  exact Frame.ite (fun _ => hsig) (fun _ => hsig.obsv _ (by decide))

theorem not_besideMnt_fault {k : Nat} (hk : k < 8) :
    ¬ besideMnt (F.MNT_FAULT_TRANS_COUNT k).off ∧ ¬ besideMnt (F.MNT_FAULT_LASTING_COUNT k).off := by
  constructor
  · show ¬ (0xF0200 + 0x8 * k) / 0x10000 ≠ 15
    omega
  · show ¬ (0xF0204 + 0x8 * k) / 0x10000 ≠ 15
    omega

/-- An outcome of one of the classes of R418. -/
theorem State.mntFault_frame {k : Nat} (hk : k < 8) (transient : Bool) (loc : Nat) : Frame faultFields besideMnt s (s.mntFault k transient loc) := by
  have hr : Field.regs ∈ faultFields := by decide
  obtain ⟨htrans, hlast⟩ := not_besideMnt_fault hk
  have hup {t : State} (h : Frame faultFields besideMnt s t) (c : Prop) [Decidable c] (x : UpdState) :
      Frame faultFields besideMnt s (if c then { t with upd := x } else t) :=
    Frame.ite (fun _ => ⟨h.keeps.upd x (by decide), h.rd⟩) (fun _ => h)
  unfold State.mntFault
  dsimp only
  refine Frame.emit (.trans (hup (Frame.setF (Frame.setB (Frame.setF ?_ _ _ hr ?_) _ _ hr ?_) _ _ hr ?_) _ _) (State.setAlert_frame _ _)) _ _ _
    (by decide)
  · exact Frame.ite (fun _ => (Frame.refl _ _ s).bump _ hr htrans) (fun _ => (Frame.refl _ _ s).bump _ hr hlast)
  all_goals unfold besideMnt; decide

/-- A write of the flash with its two attempts (R383). -/
theorem State.flashWrite_frame {l : List Field} {p : Nat → Prop} (loc : Nat) (f : State → State) (hl : ∀ x, x ∈ faultFields → x ∈ l)
    (hflash : Field.flash ∈ l) (hp : ∀ o, p o → besideMnt o) (hf : ∀ u, Frame l p u (f u)) : Frame l p s (s.flashWrite loc f).2 := by
  have hplan (x : Flash) : Frame l p s { s with flash := x } := ⟨(Keeps.refl _ s).flash x hflash, RdKept.refl _ s⟩
  have hfault (u : State) (tr : Bool) : Frame l p u (u.mntFault 3 tr loc) := (u.mntFault_frame (by decide) tr loc).mono hl hp
  unfold State.flashWrite
  dsimp only
  split
  · exact (hplan _).trans (hfault _ _)
  · exact ((hplan _).trans (Frame.ite (fun _ => hfault _ _) (fun _ => Frame.refl _ _ _))).trans (hf _)

/-! ### What activities do as they start -/

theorem State.pauseBg_keeps (g : Nat) : Keeps [.regs, .cal] s (s.pauseBg g) := by
  have hpaused (u : State) (h : Keeps [.regs, .cal] s u) (n : Nat) (f : CalGroup → CalGroup) :
      Keeps [.regs, .cal] s ((u.setF (F.CAL_GROUP_STATE_PHASE g) n).updGrp g f) := (h.setF _ _ (by simp)).updGrp _ _ (by simp)
  unfold State.pauseBg
  dsimp only
  split
  · exact hpaused s (Keeps.refl _ s) _ _
  · exact (Keeps.refl _ s).updGrp _ _ (by simp)
  · exact hpaused _ ((s.unserve_keeps _ _).mono (by simp)) _ _
  · exact hpaused s (Keeps.refl _ s) _ _
  · exact (Keeps.refl _ s).updGrp _ _ (by simp)
  · exact Keeps.refl _ s

theorem State.eraseProv_keeps : Keeps [.regs, .host, .obs, .upd, .recq, .flash] s s.eraseProv := by
  have hgo (u : State) (h : Nat) : Keeps [.regs, .host, .obs, .upd, .recq, .flash] u
      (if u.provHalf h then (u.flashWrite (setHalfAddr h) (fun s => s.putSetHalf h { s.setHalf h with hdr := [] })).2 else u) := by
    refine Keeps.ite (fun _ => (u.flashWrite_frame (p := besideMnt) _ _ (by decide) (by decide) (fun _ ho => ho) ?_).keeps)
      (fun _ => Keeps.refl _ u)
    exact fun v => ⟨(Keeps.refl _ v).flash _ (by decide), RdKept.refl _ v⟩
  exact (hgo s 0).trans (hgo _ 1)

theorem State.saveSnap_keeps : Keeps [.flash, .pwr] s s.saveSnap := ((Keeps.refl _ s).flash _ (by simp)).pwr _ (by simp)

theorem State.calSnap_keeps : Keeps [.flash, .cal, .regs] s s.calSnap :=
  (((Keeps.refl _ s).flash _ (by simp)).cal _ (by simp)).setF _ _ (by simp)

/-- The fields that the admission of an activity changes. -/
def admitFields : List Field := [.regs, .mnt, .cal, .dbg, .flash, .pwr, .reform, .recq, .host, .obs, .upd]

/-- Nothing waiting changes, and what runs goes on running. -/
def State.actsGoOn (s t : State) : Prop := t.mnt.waiting = s.mnt.waiting ∧ ∀ a u, s.runs a u = true → t.runs a u = true

section

variable {s}
variable {t u : State}

theorem State.actsGoOn.refl (s : State) : s.actsGoOn s := ⟨rfl, fun _ _ h => h⟩

theorem State.actsGoOn.trans (h : s.actsGoOn t) (k : t.actsGoOn u) : s.actsGoOn u := ⟨k.1.trans h.1, fun a u hr => k.2 a u (h.2 a u hr)⟩

theorem State.actsGoOn_of_mnt (h : t.mnt = s.mnt) : s.actsGoOn t := by
  refine ⟨by rw [h], fun a u hr => ?_⟩
  rw [State.runs, h]
  exact hr

theorem State.actsGoOn.foldl {α : Type} (f : State → α → State) (l : List α) (h : s.actsGoOn t) (hf : ∀ (v : State) (a : α), v.actsGoOn (f v a)) :
    s.actsGoOn (l.foldl f t) := by
  induction l generalizing t with
  | nil => exact h
  | cons a l ih => exact ih (h.trans (hf t a))

theorem State.actsGoOn.ite {c : Prop} [Decidable c] (ht : s.actsGoOn t) (hu : s.actsGoOn u) : s.actsGoOn (if c then t else u) := by
  split
  · exact ht
  · exact hu

end

theorem State.setPaused_runs (a u : Nat) (b : Bool) (c v : Nat) : (s.setPaused a u b).runs c v = s.runs c v := by
  have hsame (y : Activity) : ((if y.a = a ∧ y.unit = u then { y with paused := b } else y).a == c &&
      (if y.a = a ∧ y.unit = u then { y with paused := b } else y).unit == v) = (y.a == c && y.unit == v) := by split <;> rfl
  show (s.mnt.running.map _).any _ = _
  rw [List.any_map, State.runs]
  exact congrArg (fun f => s.mnt.running.any f) (funext hsame)

theorem State.setPaused_goOn (a u : Nat) (b : Bool) : s.actsGoOn (s.setPaused a u b) :=
  ⟨rfl, fun c v h => (s.setPaused_runs a u b c v).trans h⟩

theorem State.pauseBg_goOn (g : Nat) : s.actsGoOn ((s.pauseBg g).setPaused actBgcal g true) :=
  (State.actsGoOn_of_mnt (s.pauseBg_keeps g .mnt (by decide))).trans (State.setPaused_goOn _ _ _ _)

theorem State.pauseAllBg_goOn : s.actsGoOn s.pauseAllBg :=
  (State.actsGoOn.refl s).foldl _ _ (fun u g => State.actsGoOn.ite (u.pauseBg_goOn g) (State.actsGoOn.refl u))

theorem State.pauseScrub_goOn : s.actsGoOn s.pauseScrub :=
  State.actsGoOn.ite ((State.actsGoOn_of_mnt rfl).trans (State.setPaused_goOn _ _ _ _)) (State.actsGoOn.refl s)

theorem State.pauseAllBg_keeps : Keeps [.regs, .cal, .mnt] s s.pauseAllBg :=
  (Keeps.refl _ s).foldl _ _ (fun u g _ =>
    Keeps.ite (fun _ => ((u.pauseBg_keeps g).mono (by simp)).setPaused _ _ _ (by simp)) (fun _ => Keeps.refl _ u))

theorem State.startAct_keeps (x : Activity) : Keeps admitFields s (s.startAct x) ∧ s.actsGoOn (s.startAct x) := by
  unfold State.startAct
  split
  · exact ⟨Keeps.ite (fun _ => ((s.pauseBg_keeps _).mono (by decide)).setPaused _ _ _ (by decide)) (fun _ => Keeps.refl _ s),
      State.actsGoOn.ite (s.pauseBg_goOn _) (State.actsGoOn.refl s)⟩
  · exact ⟨s.pauseAllBg_keeps.mono (by decide), s.pauseAllBg_goOn⟩
  · have hk : Keeps admitFields s (s.setF F.MEM_SCRUB_STATUS_ACTIVE 1) := (Keeps.refl _ s).setF _ _ (by decide)
    have hg : s.actsGoOn (s.setF F.MEM_SCRUB_STATUS_ACTIVE 1) := State.actsGoOn_of_mnt rfl
    dsimp only
    split
    · exact ⟨hk.pauseScrub (by decide) (by decide), hg.trans (State.pauseScrub_goOn _)⟩
    · exact ⟨hk, hg⟩
  · have herase := s.eraseProv_keeps
    have hsave := ((Keeps.refl admitFields s).setF F.PWR_SAVE_CTRL_SAVE_BUSY 1 (by decide)).trans ((State.saveSnap_keeps _).mono (by decide))
    exact ⟨Keeps.ite (fun _ => herase.mono (by decide)) (fun _ => hsave),
      State.actsGoOn.ite (State.actsGoOn_of_mnt (herase .mnt (by decide))) (State.actsGoOn_of_mnt rfl)⟩
  · exact ⟨s.calSnap_keeps.mono (by decide), State.actsGoOn_of_mnt rfl⟩
  · exact ⟨(((Keeps.refl _ s).reform _ (by decide)).setF _ _ (by decide)).pauseScrub (by decide) (by decide),
      (State.actsGoOn_of_mnt rfl).trans (State.pauseScrub_goOn _)⟩
  · exact ⟨((Keeps.refl _ s).dbg _ (by decide)).pauseScrub (by decide) (by decide), (State.actsGoOn_of_mnt rfl).trans (State.pauseScrub_goOn _)⟩
  · exact ⟨Keeps.refl _ s, State.actsGoOn.refl s⟩

theorem State.enter_result (x : Activity) :
    Keeps admitFields s (s.enter x) ∧ s.actsGoOn (s.enter x) ∧ (s.enter x).runs x.a x.unit = true := by
  have hk : Keeps admitFields s { s with mnt := { s.mnt with running := s.mnt.running ++ [{ x with paused := false }] } } :=
    (Keeps.refl _ s).mnt _ (by decide)
  have hg : s.actsGoOn { s with mnt := { s.mnt with running := s.mnt.running ++ [{ x with paused := false }] } } := by
    refine ⟨rfl, fun a u h => ?_⟩
    rw [State.runs] at h ⊢
    simp [h]
  have hx : State.runs { s with mnt := { s.mnt with running := s.mnt.running ++ [{ x with paused := false }] } } x.a x.unit = true := by
    simp [State.runs]
  have hstart {t : State} (hk : Keeps admitFields s t) (hg : s.actsGoOn t) (hx : t.runs x.a x.unit = true) :
      Keeps admitFields s (t.startAct x) ∧ s.actsGoOn (t.startAct x) ∧ (t.startAct x).runs x.a x.unit = true := by
    obtain ⟨hk', hg'⟩ := t.startAct_keeps x
    exact ⟨hk.trans hk', hg.trans hg', hg'.2 _ _ hx⟩
  unfold State.enter
  dsimp only
  split
  · exact hstart (hk.bump _ (by decide)) (hg.trans (State.actsGoOn_of_mnt rfl)) hx
  · exact hstart hk hg hx

/-- What admission does with the waiting activities `w`, where `kept` go on waiting. -/
theorem State.admitFrom_result (kept w : List Activity) :
    Keeps admitFields s (s.admitFrom kept w).1 ∧ s.actsGoOn (s.admitFrom kept w).1 ∧ (s.admitFrom kept w).2.Sublist (kept ++ w) := by
  induction w generalizing s kept with
  | nil => exact ⟨Keeps.refl _ s, State.actsGoOn.refl s, by simp [State.admitFrom]⟩
  | cons x w ih =>
    rw [State.admitFrom]
    split
    · obtain ⟨hk, hg, hs⟩ := ih s (kept ++ [x])
      exact ⟨hk, hg, by simpa using hs⟩
    · obtain ⟨hek, heg, -⟩ := s.enter_result x
      obtain ⟨hk, hg, hs⟩ := ih (s.enter x) kept
      exact ⟨hek.trans hk, heg.trans hg, hs.trans (List.Sublist.append_left (List.sublist_cons_self x w) kept)⟩

/-- Activities that all conflict with a running one all go on waiting. -/
theorem State.admitFrom_blocked (kept w : List Activity) (h : ∀ x ∈ w, x.blocked s.mnt.running = true) :
    s.admitFrom kept w = (s, kept ++ w) := by
  induction w generalizing kept with
  | nil => simp [State.admitFrom]
  | cons x w ih =>
    have hx : x.blocked (s.mnt.running ++ kept) = true := by
      have := h x (by simp)
      rw [Activity.blocked] at this ⊢
      rw [List.any_append, this]
      rfl
    rw [State.admitFrom, if_pos hx, ih _ (fun y hy => h y (by simp [hy]))]
    simp

/-- The state behind an admission: what is left goes on waiting. -/
def State.admitted (r : State × List Activity) : State := { r.1 with mnt := { r.1.mnt with waiting := r.2 } }

/-! ### ACTIVITY_RESUME -/

/-- No group whose cycle is not paused goes on. -/
def State.bgGoesOn (s : State) : State :=
  (List.range 16).foldl (fun s g => if s.bgPaused g && !s.pauser actBgcal && s.quadOn (g / 4) then s.bgResume g else s) s

/-- The scrub pass goes on. -/
def State.scrubGoesOn (s : State) : State :=
  if s.mnt.running.any (fun y => y.a == actScrub && y.paused) && !s.pauser actScrub then
    (s.setPaused actScrub 0 false).setF F.MEM_SCRUB_STATUS_PAUSED 0
  else s

theorem State.activityResume_eq : s.activityResume = s.bgGoesOn.scrubGoesOn := by
  unfold State.activityResume State.scrubGoesOn State.bgGoesOn
  rfl

/-- Groups that are not paused do not go on. -/
theorem State.bgGoesOn_none (l : List Nat) (h : ∀ g ∈ l, s.bgPaused g = false) :
    l.foldl (fun s g => if s.bgPaused g && !s.pauser actBgcal && s.quadOn (g / 4) then s.bgResume g else s) s = s := by
  induction l with
  | nil => rfl
  | cons g l ih =>
    rw [List.foldl_cons, h g (by simp)]
    exact ih (fun x hx => h x (by simp [hx]))

/-- A scrub pass that runs alone goes on. -/
theorem State.scrubGoesOn_one {y : Activity} (hr : s.mnt.running = [y]) (ha : y.a = actScrub) (hp : y.paused = true) :
    s.scrubGoesOn = (s.setPaused actScrub 0 false).setF F.MEM_SCRUB_STATUS_PAUSED 0 := by
  refine if_pos ?_
  simp [State.pauser, hr, ha, hp, actScrub, actFgcal, actReform, actDbghalt]

/-- The group that is paused goes on, the others stay. -/
theorem State.bgGoesOn_only {g : Nat} (l : List Nat) (hg : g ∈ l) (hother : ∀ x, x ≠ g → s.bgPaused x = false)
    (hnone : ∀ x, (s.bgResume g).bgPaused x = false) (hgo : (s.bgPaused g && !s.pauser actBgcal && s.quadOn (g / 4)) = true) :
    l.foldl (fun s g => if s.bgPaused g && !s.pauser actBgcal && s.quadOn (g / 4) then s.bgResume g else s) s = s.bgResume g := by
  induction l with
  | nil => simp at hg
  | cons x l ih =>
    rw [List.foldl_cons]
    by_cases hx : x = g
    · rw [hx, if_pos hgo]
      exact State.bgGoesOn_none _ l (fun x _ => hnone x)
    · rw [hother x hx]
      exact ih ((List.mem_cons.mp hg).resolve_left (Ne.symm hx))

/-- The list of a lone activity once it goes on. -/
theorem State.setPaused_one {y : Activity} {a u : Nat} (hr : s.mnt.running = [y]) (ha : y.a = a) (hu : y.unit = u) (b : Bool) :
    (s.setPaused a u b).mnt = { s.mnt with running := [{ y with paused := b }] } := by
  have hl : s.mnt.running.map (fun y => if y.a = a ∧ y.unit = u then { y with paused := b } else y) = [{ y with paused := b }] := by
    rw [hr, List.map_singleton, if_pos ⟨ha, hu⟩]
  show ({ s.mnt with running := _ } : MaintState) = _
  rw [hl]

/-- A lone group paused in SHADOW starts it anew. -/
theorem State.bgResume_same {g : Nat} (hph : s.getF (F.CAL_GROUP_STATE_PHASE g) = 7) (hs : (s.grp g).same = true) :
    s.bgResume g = (s.setPaused actBgcal g false).bgPhase g 1 262144 := by
  rw [State.bgResume]
  exact (if_pos hph).trans (if_pos hs)

theorem State.scrubGoesOn_none (h : s.mnt.running.any (fun y => y.a == actScrub && y.paused) = false) : s.scrubGoesOn = s := by
  rw [State.scrubGoesOn, h]
  rfl

end

end Sys2Proof.Machine

open Sys2Proof.Machine in
/-- Settles O41: admission goes through the queue in order; a resume through the groups, then the scrub pass. -/
theorem activitiesMove : Obligations.ActivitiesMove := by
  refine ⟨fun s h => ?_, fun s x w hw hx => ?_, fun s y hr ha hu hp => ?_, fun s y g hr ha hu hp hq hph hs => ?_, fun s h => ?_⟩
  · have he := State.admitFrom_blocked { s with mnt := { s.mnt with waiting := [] } } [] s.mnt.waiting h
    show Host.Outcome.next s.activityAdmit = _
    rw [State.activityAdmit]
    dsimp only
    rw [he]
    rfl
  · have hb : x.blocked (s.mnt.running ++ []) = false := by rw [List.append_nil]; exact hx
    obtain ⟨hek, heg, her⟩ := State.enter_result { s with mnt := { s.mnt with waiting := [] } } x
    obtain ⟨hk, hg, hs⟩ := (State.enter { s with mnt := { s.mnt with waiting := [] } } x).admitFrom_result [] w
    have he : s.activityAdmit = (State.admitted ((State.enter { s with mnt := { s.mnt with waiting := [] } } x).admitFrom [] w)) := by
      rw [State.activityAdmit, hw]
      dsimp only
      rw [State.admitFrom, if_neg (ne_true_of_eq_false hb)]
      rfl
    refine ⟨s.activityAdmit, rfl, ?_⟩
    rw [he]
    refine ⟨((((Keeps.refl _ s).mnt _ (by decide)).trans hek).trans hk).mnt _ (by decide), ?_, hs⟩
    have hrun := hg.2 _ _ her
    rw [State.runs, List.any_eq_true] at hrun
    obtain ⟨y, hy, hyx⟩ := hrun
    exact ⟨y, hy, by simpa using hyx⟩
  · have hbg : s.bgGoesOn = s := s.bgGoesOn_none _ (fun g _ => by simp [State.bgPaused, hr, ha, actScrub, actBgcal])
    refine ⟨s.activityResume, rfl, ?_⟩
    rw [State.activityResume_eq, hbg, s.scrubGoesOn_one hr ha hp]
    refine ⟨((Keeps.refl _ s).setPaused _ _ _ (by simp)).setF _ _ (by simp), ((RegsKept.refl _ s).setPaused _ _ _).setF _ _ (by decide), ?_, ?_⟩
    · exact bit_setF_zero _ _ (by decide)
    · exact s.setPaused_one hr ha hu false
  · have hothers (x : Nat) (hx : x ≠ g) : s.bgPaused x = false := by simp [State.bgPaused, hr, hu, hx.symm]
    have hgo : (s.bgPaused g && !s.pauser actBgcal && s.quadOn (g / 4)) = true := by
      simp [State.bgPaused, State.pauser, hr, ha, hu, hp, hq, actFgcal, actReform, actDbghalt, actBgcal]
    have he := s.bgResume_same hph hs
    have hmnt : (s.bgResume g).mnt = { s.mnt with running := [{ y with paused := false }] } := by
      rw [he]; exact s.setPaused_one hr ha hu false
    have hnone (x : Nat) : (s.bgResume g).bgPaused x = false := by simp [State.bgPaused, hmnt]
    have hbg : s.bgGoesOn = s.bgResume g := s.bgGoesOn_only _ (List.mem_range.mpr g.isLt) hothers hnone hgo
    refine ⟨s.activityResume, rfl, ?_⟩
    rw [State.activityResume_eq, hbg, State.scrubGoesOn_none _ (by simp [hmnt])]
    refine ⟨?_, ?_, ?_, hmnt⟩
    · rw [he]
      exact ((((Keeps.refl _ s).setPaused _ _ _ (by simp)).setF _ _ (by simp)).updGrp _ _ (by simp))
    · rw [he]
      exact ((RegsKept.refl _ s).setPaused _ _ _).setF _ _ (by simp [F.CAL_GROUP_STATE_PHASE])
    · rw [he]
      exact getF_setF_same _ _ _ (by show 0 + 3 ≤ 32; decide)
  · have hno (p : Activity → Bool) : s.mnt.running.any (fun y => p y && y.paused) = false :=
      List.any_eq_false.mpr (fun y hy => by simp [h y hy])
    have hbg : s.bgGoesOn = s := s.bgGoesOn_none _ (fun g _ => hno _)
    show Host.Outcome.next s.activityResume = _
    rw [State.activityResume_eq, hbg, s.scrubGoesOn_none (hno _)]

end

section
/-!
SUPPORT. Flushes of queues (R245-R248).
-/

namespace Sys2Proof.Machine

section

variable (s : State)

/-! ### Refused flushes -/

theorem State.flushRefused_result : Keeps [.regs] s s.flushRefused ∧ RegsKept [R.FLW_STATUS] s s.flushRefused ∧
    s.flushRefused.bit F.FLW_STATUS_FLUSH_REFUSED = true :=
  ⟨(Keeps.refl _ s).setF _ _ (by simp), (RegsKept.refl _ s).setF _ _ (by decide), bit_setF_one _ _ (by decide)⟩

/-! ### Word queues -/

theorem State.wq_updWq_same (n : Nat) (f : WordQueue → WordQueue) (h : n < s.wqs.length) : (s.updWq n f).wq n = f (s.wq n) :=
  updAt_get_same f s.wqs n WordQueue.reset h

/-- Word queue `n` with its flush counted and what it loses declared: `k` entries with a lasting error, `items` whole channels. -/
def State.wqLost (s : State) (n k items : Nat) (mid : Bool) (cause : Nat) : State :=
  ((if (s.wq n).flushes = 0 then s.bump (F.FLW_WQ_FLUSHES_COUNT n) else s).bumpBy (F.FLW_WQ_UE_LASTING_COUNT n) k).wqLose n items mid cause

theorem State.wqLost_keeps (n k items : Nat) (mid : Bool) (cause : Nat) : Keeps [.regs, .strs] s (s.wqLost n k items mid cause) := by
  refine .trans (Keeps.bumpBy ?_ _ _ (by simp)) ((State.wqLose_keeps _ _ _ _ _).mono (by simp))
  exact Keeps.ite (fun _ => (Keeps.refl _ s).bump _ (by simp)) (fun _ => Keeps.refl _ s)

theorem State.wqLost_wq (n k items : Nat) (mid : Bool) (cause : Nat) : (s.wqLost n k items mid cause).wqs = s.wqs :=
  s.wqLost_keeps n k items mid cause .wqs (by simp)

theorem State.wqLost_flushes (n k items : Nat) (mid : Bool) (cause : Nat) (h : (s.wq n).flushes = 0) :
    (s.wqLost n k items mid cause).getF (F.FLW_WQ_FLUSHES_COUNT n) = (s.getF (F.FLW_WQ_FLUSHES_COUNT n) + 1) % 2 ^ 32 := by
  have hlose (u : State) : (u.wqLose n items mid cause).getF (F.FLW_WQ_FLUSHES_COUNT n) = u.getF (F.FLW_WQ_FLUSHES_COUNT n) := by
    rw [State.getF, State.getF, State.rd, State.rd, (u.wqLose_keeps n items mid cause) .regs (by simp)]
  rw [State.wqLost, if_pos h, hlose]
  refine (getF_setF_other _ _ _ _ (by show 0 + 32 ≤ 32; decide) (.inl ?_)).trans (getF_bump_same _ _ (by show 0 + 32 ≤ 32; decide))
  show 0x44010 + 0x20 * n ≠ 0x4401C + 0x20 * n
  omega

/-- A flush in the middle of an item, or of a queue that discards: the discard goes on. -/
theorem State.flushWq_discards (n cause : Nat) (h : (s.wq n).midItem = true ∨ (s.wq n).flushes ≠ 0) :
    ∃ k items words all, s.flushWq n cause = (((s.bpQueue 0 n 0).wqLost n k items (s.wq n).midItem (gapCause cause)).updWq n (fun q =>
      { q with entries := [], midItem := false, flushes := q.flushes + 1, words := words, items := all, cause := cause })).setF
        (F.FLW_WQ_STATUS_DISCARDING n) 1 := by
  unfold State.flushWq
  refine ⟨_, _, _, _, if_pos ?_⟩
  show ((s.wq n).midItem || !decide ((s.wq n).flushes = 0)) = true
  obtain h | h := h <;> simp [h]

/-- A flush between items: its record is written at once. -/
theorem State.flushWq_ends (n cause : Nat) (hm : (s.wq n).midItem = false) (h : (s.wq n).flushes = 0) :
    ∃ k items words all, s.flushWq n cause = (((s.bpQueue 0 n 0).wqLost n k items (s.wq n).midItem (gapCause cause)).updWq n (fun q =>
      { q with entries := [] })).flushedRec n 0 1 cause words all := by
  unfold State.flushWq
  refine ⟨_, _, _, _, if_neg ?_⟩
  show ¬ ((s.wq n).midItem || !decide ((s.wq n).flushes = 0)) = true
  simp [h, hm]

/-- What a flush of word queue `n` leaves in it. -/
theorem State.flushWq_result (n cause : Nat) (hn : n < s.wqs.length) :
    ((s.flushWq n cause).wq n).entries = [] ∧
      (((s.wq n).midItem = true ∨ (s.wq n).flushes ≠ 0) → (s.flushWq n cause).bit (F.FLW_WQ_STATUS_DISCARDING n) = true ∧
        ((s.flushWq n cause).wq n).flushes = (s.wq n).flushes + 1 ∧ (s.flushWq n cause).recq = s.recq) ∧
      ((s.wq n).midItem = false → (s.wq n).flushes = 0 → (s.flushWq n cause).recq.length = s.recq.length + 1 ∧
        (s.flushWq n cause).getF (F.FLW_WQ_FLUSHES_COUNT n) = (s.getF (F.FLW_WQ_FLUSHES_COUNT n) + 1) % 2 ^ 32) := by
  have hlost (k items : Nat) (mid : Bool) (c : Nat) (f : WordQueue → WordQueue) :
      (((s.bpQueue 0 n 0).wqLost n k items mid c).updWq n f).wq n = f (s.wq n) := by
    have hw : ((s.bpQueue 0 n 0).wqLost n k items mid c).wqs = s.wqs := State.wqLost_wq _ _ _ _ _ _
    rw [State.wq_updWq_same _ _ _ (by rw [hw]; exact hn), State.wq, hw]
    rfl
  have hrec (k items : Nat) (mid : Bool) (c : Nat) : ((s.bpQueue 0 n 0).wqLost n k items mid c).recq = s.recq :=
    (s.bpQueue 0 n 0).wqLost_keeps n k items mid c .recq (by simp)
  by_cases h : (s.wq n).midItem = true ∨ (s.wq n).flushes ≠ 0
  · obtain ⟨k, items, words, all, he⟩ := s.flushWq_discards n cause h
    rw [he]
    refine ⟨?_, fun _ => ⟨bit_setF_one _ _ (by simp [F.FLW_WQ_STATUS_DISCARDING]), ?_, hrec _ _ _ _⟩, fun hm hf => ?_⟩
    · exact congrArg WordQueue.entries (hlost _ _ _ _ _)
    · exact congrArg WordQueue.flushes (hlost _ _ _ _ _)
    · simp [hm, hf] at h
  · have hm : (s.wq n).midItem = false := by simpa using fun hm => h (.inl hm)
    have hf : (s.wq n).flushes = 0 := by by_contra hf; exact h (.inr hf)
    obtain ⟨k, items, words, all, he⟩ := s.flushWq_ends n cause hm hf
    rw [he]
    refine ⟨?_, fun hc => absurd hc h, fun _ _ => ⟨?_, ?_⟩⟩
    · exact congrArg WordQueue.entries (hlost _ _ _ _ _)
    · show (_ ++ [_]).length = _
      rw [List.length_append, State.updWq_recq, hrec]
      rfl
    · exact (s.bpQueue 0 n 0).wqLost_flushes n _ _ _ _ hf

/-- The producer has ended the discard of word queue `n`. -/
theorem State.discardEnd_result (n : Nat) (hd : s.bit (F.FLW_WQ_STATUS_DISCARDING n) = true) (hn : n < s.wqs.length) :
    Keeps [.regs, .recq, .wqs] s (s.discardEnd n) ∧ RegsKept [R.FLW_WQ_STATUS n] s (s.discardEnd n) ∧
      (s.discardEnd n).bit (F.FLW_WQ_STATUS_DISCARDING n) = false ∧ ((s.discardEnd n).wq n).midItem = false ∧
      ((s.discardEnd n).wq n).flushes = 0 ∧ (s.discardEnd n).recq.length = s.recq.length + 1 := by
  have he : s.discardEnd n = ((s.setF (F.FLW_WQ_STATUS_DISCARDING n) 0).updWq n (fun q =>
      { q with midItem := false, flushes := 0, words := 0, items := 0, cause := 0 })).flushedRec n 0 (s.wq n).flushes (s.wq n).cause
        (s.wq n).words (s.wq n).items := if_pos hd
  have hw := State.wq_updWq_same (s.setF (F.FLW_WQ_STATUS_DISCARDING n) 0) n
    (fun q => { q with midItem := false, flushes := 0, words := 0, items := 0, cause := 0 }) hn
  rw [he]
  refine ⟨(((Keeps.refl _ s).setF _ _ (by simp)).updWq _ _ (by simp)).emit _ _ _ (by simp), ?_, ?_, congrArg WordQueue.midItem hw,
    congrArg WordQueue.flushes hw, ?_⟩
  · exact ((RegsKept.refl [R.FLW_WQ_STATUS n] s).setF (F.FLW_WQ_STATUS_DISCARDING n) 0 (by simp [F.FLW_WQ_STATUS_DISCARDING]))
  · exact bit_setF_zero s _ (by simp [F.FLW_WQ_STATUS_DISCARDING])
  · show (_ ++ [_]).length = _
    rw [List.length_append]
    rfl

/-! ### Frame queues -/

theorem State.fqInsert_keeps (q : Packet) (before : Packet → Bool) : Keeps [.fqs] s (s.fqInsert q before) := (Keeps.refl _ s).fqs _ (by simp)

/-- What a packet that a queue loses may change: streams, and the queue of its own stream. -/
def State.losesOf (s t : State) (n : Nat) : Prop := Keeps [.strs, .fqs] s t ∧ ∀ k, k ≠ n → t.fq k = s.fq k

section

variable {s}
variable {t u : State} {n : Nat}

theorem State.losesOf.refl (s : State) (n : Nat) : s.losesOf s n := ⟨Keeps.refl _ s, fun _ _ => rfl⟩

theorem State.losesOf.trans (h : s.losesOf t n) (k : t.losesOf u n) : s.losesOf u n :=
  ⟨h.1.trans k.1, fun m hm => (k.2 m hm).trans (h.2 m hm)⟩

theorem State.losesOf.of_keeps (h : Keeps [.strs] s t) : s.losesOf t n :=
  ⟨h.mono (by simp), fun k _ => by rw [State.fq, State.fq, h .fqs (by simp)]⟩

theorem State.losesOf.updStr (i : Nat) (f : StreamState → StreamState) : s.losesOf (s.updStr i f) n :=
  .of_keeps ((Keeps.refl _ s).updStr _ _ (by simp))

end

theorem State.fqInsert_losesOf (q : Packet) (before : Packet → Bool) : s.losesOf (s.fqInsert q before) (s.fqOf q.stream) :=
  ⟨(s.fqInsert_keeps q before).mono (by simp), fun k hk => updAt_get_other _ _ _ _ _ hk⟩

theorem State.loseP_losesOf (cause : Nat) (p : Packet) : s.losesOf (s.loseP cause p) (s.fqOf p.stream) := by
  have hmark : s.losesOf (s.loseMark p) (s.fqOf p.stream) := by
    unfold State.loseMark
    dsimp only
    split
    · exact s.fqInsert_losesOf _ _
    · exact .updStr _ _
  have hanchor : s.losesOf (s.loseAnchor p) (s.fqOf p.stream) := by
    unfold State.loseAnchor
    dsimp only
    split
    · exact s.fqInsert_losesOf _ _
    · exact .updStr _ _
  unfold State.loseP
  dsimp only
  split
  · exact .refl s _
  · split
    · refine .trans (.of_keeps ?_) (.updStr _ _)
      exact (Keeps.refl _ s).foldl _ _ (fun u r _ => u.declare_keeps _ _)
    · split
      · exact .updStr _ _
      · split
        · exact .updStr _ _
        · split
          · exact hmark
          · exact hanchor

theorem State.loseAll_keeps (cause : Nat) (l : List Packet) : Keeps [.strs, .fqs] s (s.loseAll cause l) :=
  (Keeps.refl _ s).foldl _ _ (fun u p _ => (u.loseP_losesOf cause p).1)

section

variable {s}
variable {t : State}

theorem State.getF_of_regs (h : t.regs = s.regs) (f : Fld) : t.getF f = s.getF f := by rw [State.getF, State.getF, State.rd, State.rd, h]

theorem State.fqSet_of_regs (h : t.regs = s.regs) (n : Nat) : t.fqSet n = s.fqSet n := by
  simp only [State.fqSet, State.getF_of_regs h]

theorem State.fqOf_of_regs (h : t.regs = s.regs) (i : Nat) : t.fqOf i = s.fqOf i := by
  simp only [State.fqOf, State.fqOn, State.getF_of_regs h]

end

theorem State.fqOf_of_keeps {t : State} (h : Keeps [.strs, .fqs] s t) (i : Nat) : t.fqOf i = s.fqOf i :=
  State.fqOf_of_regs (h .regs (by simp)) i

/-- The packets of a queue that hold it go back to it alone. -/
theorem State.loseAll_losesOf (n cause : Nat) (l : List Packet) (h : ∀ p ∈ l, s.fqOf p.stream = n) : s.losesOf (s.loseAll cause l) n := by
  unfold State.loseAll
  induction l generalizing s with
  | nil => exact .refl s n
  | cons p l ih =>
    have hp := s.loseP_losesOf cause p
    rw [h p (by simp)] at hp
    exact hp.trans (ih _ (fun q hq => (State.fqOf_of_keeps s hp.1 _).trans (h q (by simp [hq]))))

/-- The port of a frame queue gives up the frame of it that it sends. -/
def State.fqCut (s : State) (n : Nat) : State :=
  if (s.sendingOf n).isSome then { s with ports := updAt (fun x => { x with sending := none }) s.ports (n / 4) } else s

theorem State.fqCut_keeps (n : Nat) : Keeps [.ports] s (s.fqCut n) :=
  Keeps.ite (fun _ => (Keeps.refl _ s).ports _ (by simp)) (fun _ => Keeps.refl _ s)

theorem State.fqCut_sending (n : Nat) : (s.fqCut n).sendingOf n = none := by
  unfold State.fqCut
  split
  · by_cases hl : n / 4 < s.ports.length
    · show (match ((updAt _ s.ports (n / 4)).getD (n / 4) NetPort.reset).sending with | some (.packet k p _ _) => _ | _ => _) = _
      rw [updAt_get_same _ _ _ _ hl]
    · show (match ((updAt _ s.ports (n / 4)).getD (n / 4) NetPort.reset).sending with | some (.packet k p _ _) => _ | _ => _) = _
      rw [List.getD_eq_default _ _ (by rw [updAt_length]; omega)]
      rfl
  · next h => simpa using h

theorem State.fqDiscard_eq (n lost : Nat) : s.fqDiscard n lost = ((s.fqCut n).updFq n (fun _ => [])).loseAll lost (s.fqUnread n) := rfl

theorem State.fq_updFq_empty (n : Nat) : (s.updFq n (fun _ => [])).fq n = [] := by
  show (updAt _ s.fqs n).getD n [] = []
  by_cases hl : n < s.fqs.length
  · exact updAt_get_same _ _ _ _ hl
  · exact List.getD_eq_default _ _ (by rw [updAt_length]; omega)

theorem State.fq_updFq_other {n k : Nat} (f : List Packet → List Packet) (h : k ≠ n) : (s.updFq n f).fq k = s.fq k :=
  updAt_get_other _ _ _ _ _ h

theorem Keeps.updFq {l : List Field} {t : State} (h : Keeps l s t) (n : Nat) (f : List Packet → List Packet) (hm : Field.fqs ∈ l) :
    Keeps l s (t.updFq n f) := h.fqs _ hm

theorem State.fqDiscard_keeps (n lost : Nat) : Keeps [.fqs, .ports, .strs] s (s.fqDiscard n lost) := by
  rw [State.fqDiscard_eq]
  exact .trans (.updFq _ ((s.fqCut_keeps n).mono (by simp)) _ _ (by simp)) ((State.loseAll_keeps _ _ _).mono (by simp))

theorem State.fqEmpty_keeps (n : Nat) : Keeps [.fqs, .fqHeld, .regs] s (s.fqEmpty n) :=
  .trans (.updFq _ (Keeps.refl _ s) _ _ (by simp)) ((State.fqFresh_frame _ n).1.mono (by simp))

/-- An empty queue at its base. -/
theorem State.fqFresh_values (n : Fin 16) : (s.fqFresh n).getF (F.FLW_FQ_RD_RD n) = 0 ∧ (s.fqFresh n).getF (F.FLW_FQ_WR_WR n) = 0 ∧
    (s.fqFresh n).getF (F.FLW_FQ_CREDIT_WORDS n) = 16 * s.fqSet n % 2 ^ 26 := by
  obtain ⟨hw, hr⟩ := s.fqFresh_pointers n
  refine ⟨hr, hw, ?_⟩
  unfold State.fqFresh
  fin_cases n <;> simp (disch := decide) only [getF_setF_same, getF_setF_other, State.fqSet] <;> rfl

/-- A flush of frame queue `n` by software. -/
theorem State.flushFq_result (n : Fin 16) (cause lost : Nat) :
    Keeps [.regs, .recq, .fqs, .fqHeld, .ports, .strs, .dbg] s (s.flushFq n cause lost true) ∧
      (s.flushFq n cause lost true).fq n = [] ∧
      ((∀ p ∈ s.fqUnread n, s.fqOf p.stream = n) → ∀ k, k ≠ n.val → (s.flushFq n cause lost true).fq k = s.fq k) ∧
      (s.flushFq n cause lost true).sendingOf n = none ∧
      (s.flushFq n cause lost true).getF (F.FLW_FQ_RD_RD n) = 0 ∧ (s.flushFq n cause lost true).getF (F.FLW_FQ_WR_WR n) = 0 ∧
      (s.flushFq n cause lost true).getF (F.FLW_FQ_CREDIT_WORDS n) = 16 * s.fqSet n % 2 ^ 26 ∧
      (s.flushFq n cause lost true).recq.length = s.recq.length + 1 := by
  have hbp := s.bpQueue_keeps 1 n 0
  have hdis := (s.bpQueue 1 n 0).fqDiscard_keeps n lost
  have hempty := ((s.bpQueue 1 n 0).fqDiscard n lost).fqEmpty_keeps n
  have hk : Keeps [.regs, .fqs, .fqHeld, .ports, .strs, .dbg] s (((s.bpQueue 1 n 0).fqDiscard n lost).fqEmpty n) :=
    ((hbp.mono (by simp)).trans (hdis.mono (by simp))).trans (hempty.mono (by simp))
  have hlose : Keeps [.strs, .fqs] (((s.bpQueue 1 n 0).fqCut n).updFq n (fun _ => [])) ((s.bpQueue 1 n 0).fqDiscard n lost) :=
    State.loseAll_keeps _ _ _
  obtain ⟨hrd, hwr, hcr⟩ := (((s.bpQueue 1 n 0).fqDiscard n lost).updFq n (fun _ => [])).fqFresh_values n
  have hset : (((s.bpQueue 1 n 0).fqDiscard n lost).updFq n (fun _ => [])).fqSet n = s.fqSet n :=
    State.fqSet_of_regs (hdis .regs (by simp)) n
  refine ⟨(hk.mono (by simp)).emit _ _ _ (by simp), ?_, fun hmine k hk => ?_, ?_, hrd, hwr, hcr.trans (by rw [hset]), ?_⟩
  · exact State.fq_updFq_empty _ n
  · refine (State.fq_updFq_other _ _ hk).trans ?_
    have hcutOf (i : Nat) : (((s.bpQueue 1 n 0).fqCut n).updFq n (fun _ => [])).fqOf i = s.fqOf i :=
      State.fqOf_of_regs ((s.bpQueue 1 n 0).fqCut_keeps n .regs (by simp)) i
    have hall := State.loseAll_losesOf (((s.bpQueue 1 n 0).fqCut n).updFq n (fun _ => [])) n lost (s.fqUnread n) (fun p hp => (hcutOf p.stream).trans (hmine p hp))
    refine (hall.2 k hk).trans ((State.fq_updFq_other _ _ hk).trans ?_)
    rw [State.fq, State.fq, (State.fqCut_keeps _ n) .fqs (by simp)]
    rfl
  · have hcut := (s.bpQueue 1 n 0).fqCut_sending n
    have hports : (((s.bpQueue 1 n 0).fqDiscard n lost).fqEmpty n).ports = ((s.bpQueue 1 n 0).fqCut n).ports :=
      (hempty .ports (by simp)).trans (hlose .ports (by simp))
    rw [← hcut]
    show State.sendingOf (((s.bpQueue 1 n 0).fqDiscard n lost).fqEmpty n) n = _
    rw [State.sendingOf, State.sendingOf, hports]
  · show (_ ++ [_]).length = _
    rw [List.length_append, hk .recq (by simp)]
    rfl

/-! ### Event queues -/

/-- A flush of event queue `n`. -/
theorem State.flushEq_result (n cause : Nat) :
    Keeps [.recq, .eqs, .dbg] s (s.flushEq n cause) ∧ (n < s.eqs.length → ((s.flushEq n cause).evq n).entries = []) ∧
      (s.flushEq n cause).recq.length = s.recq.length + 1 := by
  refine ⟨?_, fun hn => ?_, ?_⟩
  · exact Keeps.emit (Keeps.eqs ((s.bpQueue_keeps 2 n 0).mono (by simp)) _ (by simp)) _ _ _ (by simp)
  · exact congrArg EvQueue.entries (updAt_get_same _ s.eqs n EvQueue.reset hn)
  · show (_ ++ [_]).length = _
    rw [List.length_append]
    rfl

end

end Sys2Proof.Machine

open Sys2Proof.Machine in
/-- Settles O48: each flush by whether its identity may make it, a word queue's by whether it is in the middle of an item. -/
theorem queuesFlush : Obligations.QueuesFlush := by
  refine ⟨fun id n s hg => gated_next 1#32 hg ?_ ?_, fun n s hd hl => ⟨_, rfl, ?_⟩, fun n s hd => ?_, fun id n s hg => gated_next 1#32 hg ?_ ?_,
    fun id n s hg => gated_next (s.cmdWord (R.FLW_EQ_CTRL n) 0x80000000#32) hg ?_ ?_⟩
  · show 0x4400C + 0x20 * n.val ≠ _
    rw [R.HIF_APPLY_CTRL]
    omega
  · obtain ⟨hk, hr, hf⟩ := s.flushRefused_result
    show Keeps _ s ((s.wqFlush id n).bpReg _ _ _) ∧ _
    cases hok : s.flushOk id with
    | false =>
      have he : s.wqFlush id n = s.flushRefused := if_neg (ne_true_of_eq_false hok)
      rw [he]
      have hk' : Keeps [.regs, .dbg] s (s.flushRefused.bpReg id (R.FLW_WQ_CTRL n) true) := (hk.mono (by simp)).bpReg _ _ _ (by simp)
      exact ⟨hk'.mono (by simp), fun _ => ⟨hk', hr.bpReg _ _ _, hf⟩, by simp⟩
    | true =>
      have he : s.wqFlush id n = if n < s.getF F.FLW_WQ_COUNT_COUNT then s.flushWq n flushSoftware else s := if_pos hok
      rw [he]
      refine ⟨(Keeps.ite (fun _ => (s.flushWq_keeps _ _).mono (by decide)) (fun _ => Keeps.refl _ s)).bpReg _ _ _ (by simp), by simp,
        fun _ hn hl => ?_⟩
      rw [if_pos hn]
      exact s.flushWq_result n flushSoftware (by rw [hl]; exact n.isLt)
  · exact s.discardEnd_result n hd (by rw [hl]; exact n.isLt)
  · exact congrArg Host.Outcome.next (if_neg (ne_true_of_eq_false hd))
  · show 0x4101C + 0x40 * n.val ≠ _
    rw [R.HIF_APPLY_CTRL]
    omega
  · obtain ⟨hk, hr, hf⟩ := s.flushRefused_result
    obtain ⟨hfk, hfq, hother, hsend, hrd, hwr, hcr, hrec⟩ := s.flushFq_result n flushSoftware causeLink
    show Keeps _ s ((s.fqFlush id n).bpReg _ _ _) ∧ _
    cases hok : s.flushOk id with
    | false =>
      have he : s.fqFlush id n = s.flushRefused := if_neg (ne_true_of_eq_false hok)
      rw [he]
      have hk' : Keeps [.regs, .dbg] s (s.flushRefused.bpReg id (R.FLW_FQ_CTRL n) true) := (hk.mono (by simp)).bpReg _ _ _ (by simp)
      exact ⟨hk'.mono (by simp), fun _ => ⟨hk', hr.bpReg _ _ _, hf⟩, by simp, by simp⟩
    | true =>
      have he : s.fqFlush id n = s.flushFq n flushSoftware causeLink true := if_pos hok
      rw [he]
      exact ⟨hfk.bpReg _ _ _ (by simp), by simp, fun _ => ⟨hfq, hother, hsend⟩, fun _ => ⟨hrd, hwr, hcr, hrec⟩⟩
  · show 0x40108 + 0x40 * n.val ≠ _
    rw [R.HIF_APPLY_CTRL]
    omega
  · obtain ⟨hk, hr, hf⟩ := s.flushRefused_result
    obtain ⟨hek, hempty, hrec⟩ := s.flushEq_result n flushSoftware
    show Keeps _ s ((s.eqFlush id n).bpReg _ _ _) ∧ _
    have hiff : eqFlushOk id n = true ↔ (id = eqOwner n ∨ id = .host1 ∨ id = .dbg) := by simp [eqFlushOk, or_assoc]
    by_cases hok : eqFlushOk id n = true
    · have he : s.eqFlush id n = s.flushEq n flushSoftware := if_pos hok
      rw [he]
      exact ⟨(hek.mono (by simp)).bpReg _ _ _ (by simp), fun _ => ⟨hek .regs (by simp), fun hl => hempty (by rw [hl]; exact n.isLt), hrec⟩,
        fun h => absurd (hiff.mp hok) h⟩
    · have he : s.eqFlush id n = s.flushRefused := if_neg hok
      rw [he]
      have hk' : Keeps [.regs, .dbg] s (s.flushRefused.bpReg id (R.FLW_EQ_CTRL n) true) := (hk.mono (by simp)).bpReg _ _ _ (by simp)
      exact ⟨hk'.mono (by simp), fun h => absurd (hiff.mpr h) hok, fun _ => ⟨hk', hr.bpReg _ _ _, hf⟩⟩

end

section
/-!
SUPPORT. Event records, the read port of an event queue and the event ring (R240-R244, R354).
-/

namespace Sys2Proof.Machine

/-! ### The next record -/

/-- The least block among the records that arrive with `r`, behind `r` in `l`. -/
def leastBlk (l : List RecIn) (b : Nat) : Nat := l.foldl (fun a x => min a (x.typ / 256)) b

theorem leastBlk_le (l : List RecIn) (b : Nat) : leastBlk l b ≤ b ∧ ∀ x ∈ l, leastBlk l b ≤ x.typ / 256 := by
  induction l generalizing b with
  | nil => exact ⟨Nat.le_refl b, by simp⟩
  | cons x l ih =>
    obtain ⟨hb, hl⟩ := ih (min b (x.typ / 256))
    refine ⟨hb.trans (Nat.min_le_left _ _), fun y hy => ?_⟩
    obtain rfl | hy := List.mem_cons.mp hy
    · exact hb.trans (Nat.min_le_right _ _)
    · exact hl y hy

theorem leastBlk_attained (l : List RecIn) (b : Nat) : leastBlk l b = b ∨ ∃ x ∈ l, x.typ / 256 = leastBlk l b := by
  induction l generalizing b with
  | nil => exact .inl rfl
  | cons x l ih =>
    obtain h | ⟨y, hy, he⟩ := ih (min b (x.typ / 256))
    · by_cases hb : b ≤ x.typ / 256
      · exact .inl (h.trans (Nat.min_eq_left hb))
      · exact .inr ⟨x, by simp, (h.trans (Nat.min_eq_right (by omega))).symm⟩
    · exact .inr ⟨y, by simp [hy], he⟩

/-- The records that arrive in the tick of `r`, the oldest, as they stand at the head of the queue. -/
def sameTick (r : RecIn) (t : List RecIn) : List RecIn := (r :: t).takeWhile (fun x => x.tick == r.tick)

theorem nextRec_cons (r : RecIn) (t : List RecIn) :
    nextRec (r :: t) = (match (r :: t).span (fun x => x.typ / 256 != leastBlk (sameTick r t) (r.typ / 256)) with
      | (a, x :: b) => some (x, a ++ b)
      | (_, []) => none) := by
  rw [nextRec]
  rfl

/-- The queue holds a record of the least block among those of the oldest tick. -/
theorem exists_leastBlk (r : RecIn) (t : List RecIn) :
    ∃ x ∈ sameTick r t, x.typ / 256 = leastBlk (sameTick r t) (r.typ / 256) := by
  obtain h | h := leastBlk_attained (sameTick r t) (r.typ / 256)
  · exact ⟨r, by simp [sameTick], h.symm⟩
  · exact h

/-- What is taken from the front of a list stops before an entry that fails the test. -/
theorem mem_of_mem_takeWhile_append {α : Type} (q : α → Bool) (pre post : List α) {r x : α} (hr : q r = false)
    (hx : x ∈ (pre ++ r :: post).takeWhile q) : x ∈ pre := by
  rw [List.takeWhile_append] at hx
  split at hx
  · rw [List.takeWhile_cons_of_neg (by simp [hr])] at hx
    simpa using hx
  · exact (List.takeWhile_prefix q).subset hx

/-- The record that the sequencer takes: the first of the least block among those of the oldest tick. -/
theorem nextRec_spec {l rest : List RecIn} {r : RecIn} (h : nextRec l = some (r, rest)) :
    ∃ pre post, l = pre ++ r :: post ∧ rest = pre ++ post ∧ (∀ x ∈ pre, x.typ / 256 ≠ r.typ / 256) ∧
      ∀ h, l.head? = some h → r.tick = h.tick ∧ ∀ x ∈ l.takeWhile (fun x => x.tick == h.tick), r.typ / 256 ≤ x.typ / 256 := by
  cases l with
  | nil => simp [nextRec] at h
  | cons r0 t =>
    rw [nextRec_cons, List.span_eq_takeWhile_dropWhile] at h
    have hsplit := List.takeWhile_append_dropWhile (p := fun x : RecIn => x.typ / 256 != leastBlk (sameTick r0 t) (r0.typ / 256)) (l := r0 :: t)
    cases hd : (r0 :: t).dropWhile (fun x => x.typ / 256 != leastBlk (sameTick r0 t) (r0.typ / 256)) with
    | nil => rw [hd] at h; simp at h
    | cons x post =>
      rw [hd] at h hsplit
      obtain ⟨rfl, rfl⟩ : x = r ∧ _ = rest := by simpa using h
      have hblk : x.typ / 256 = leastBlk (sameTick r0 t) (r0.typ / 256) := by
        have hx := List.head_dropWhile_not (fun x : RecIn => x.typ / 256 != leastBlk (sameTick r0 t) (r0.typ / 256)) (l := r0 :: t) (by rw [hd]; simp)
        simpa [hd] using hx
      refine ⟨_, post, hsplit.symm, rfl, fun y hy => ?_, fun r1 h1 => ?_⟩
      · rw [hblk]
        simpa using List.mem_takeWhile_imp hy
      · obtain rfl : r0 = r1 := by simpa using h1
        refine ⟨?_, fun y hy => hblk.le.trans ((leastBlk_le _ _).2 y hy)⟩
        obtain ⟨y, hy, hyb⟩ := exists_leastBlk r0 t
        by_contra hne
        rw [sameTick, ← hsplit] at hy
        have hpre := mem_of_mem_takeWhile_append _ _ _ (by simpa using hne) hy
        have := List.mem_takeWhile_imp hpre
        simp [hyb] at this

theorem nextRec_isSome {l : List RecIn} (h : l ≠ []) : (nextRec l).isSome = true := by
  cases l with
  | nil => exact absurd rfl h
  | cons r t =>
    rw [nextRec_cons, List.span_eq_takeWhile_dropWhile]
    cases hd : (r :: t).dropWhile (fun x => x.typ / 256 != leastBlk (sameTick r t) (r.typ / 256)) with
    | cons x post => rfl
    | nil =>
      obtain ⟨x, hx, hb⟩ := exists_leastBlk r t
      have hall := List.dropWhile_eq_nil_iff.mp hd x ((List.takeWhile_prefix _).subset hx)
      simp [hb] at hall

/-! ### A record and the event queues -/

theorem recEntries_length (l : List Word) : (recEntries l).length = l.length := by
  fun_induction recEntries l with
  | case1 => rfl
  | case2 w => rfl
  | case3 w t hne ih => simp [ih]

/-- What event queue `n` shows of a record: whether it admits it, its entries and its count of lost ones. -/
def State.eqAlike (s t : State) (n : Nat) : Prop :=
  t.evq n = s.evq n ∧ t.rd (R.FLW_EQ_CTRL n) = s.rd (R.FLW_EQ_CTRL n) ∧ t.getF (F.FLW_EQ_LOST_COUNT n) = s.getF (F.FLW_EQ_LOST_COUNT n)

/-- What becomes of record `r` in event queue `n` (R239, R242). -/
def State.eqTaken (s t : State) (r : RecIn) (seq frc n : Nat) : Prop :=
  (s.eqAdmits r n = false → t.evq n = s.evq n) ∧
  (s.eqAdmits r n = true → (s.evq n).entries.length + (4 + r.payload.length) ≤ 4096 →
    (t.evq n).lost = false ∧ (t.evq n).entries = (s.evq n).entries ++ recEntries (recWords r seq frc (s.evq n).lost)) ∧
  (s.eqAdmits r n = true → ¬ (s.evq n).entries.length + (4 + r.payload.length) ≤ 4096 →
    (t.evq n).entries = (s.evq n).entries ∧ (t.evq n).lost = true ∧
      t.getF (F.FLW_EQ_LOST_COUNT n) = (s.getF (F.FLW_EQ_LOST_COUNT n) + 1) % 2 ^ 32)

section

variable {s t u : State} {r : RecIn} {seq frc n : Nat}

theorem State.eqAlike.trans (h : s.eqAlike t n) (k : t.eqAlike u n) : s.eqAlike u n :=
  ⟨k.1.trans h.1, k.2.1.trans h.2.1, k.2.2.trans h.2.2⟩

/-- What becomes of a record in one queue does not depend on what goes on beside it. -/
theorem State.eqTaken.alike {s' t' : State} (h : s.eqTaken t r seq frc n) (hs : s'.eqAlike s n) (ht : t.eqAlike t' n) :
    s'.eqTaken t' r seq frc n := by
  obtain ⟨hse, hsc, hsl⟩ := hs
  obtain ⟨hte, -, htl⟩ := ht
  have hadm : s.eqAdmits r n = s'.eqAdmits r n := by rw [State.eqAdmits, State.eqAdmits, hsc]
  unfold State.eqTaken at h ⊢
  rwa [hte, htl, ← hse, ← hsl, ← hadm]

end

section

variable (s : State) (r : RecIn) (seq frc : Nat)

theorem State.recToEq_regs (n : Nat) : Keeps [.regs, .eqs] s (s.recToEq r seq frc n) ∧ RegsKept [R.FLW_EQ_LOST n] s (s.recToEq r seq frc n) := by
  unfold State.recToEq
  dsimp only
  split
  · split
    · exact ⟨(Keeps.refl _ s).eqs _ (by simp), RegsKept.refl _ s⟩
    · exact ⟨((Keeps.refl _ s).bump _ (by simp)).eqs _ (by simp), (RegsKept.refl [R.FLW_EQ_LOST n] s).bump _ (by simp [F.FLW_EQ_LOST_COUNT])⟩
  · exact ⟨Keeps.refl _ s, RegsKept.refl _ s⟩

/-- A record leaves the other event queues alone. -/
theorem State.recToEq_alike {n k : Nat} (h : k ≠ n) : s.eqAlike (s.recToEq r seq frc n) k := by
  obtain ⟨-, hr⟩ := s.recToEq_regs r seq frc n
  refine ⟨?_, hr _ ?_, hr.getF _ ?_⟩
  · unfold State.recToEq
    dsimp only
    split
    · split
      · exact updAt_get_other _ _ _ _ _ h
      · exact updAt_get_other _ _ _ _ _ h
    · rfl
  · show 0x40108 + 0x40 * k ∉ [0x40110 + 0x40 * n]
    simp
    omega
  · show 0x40110 + 0x40 * k ∉ [0x40110 + 0x40 * n]
    simp
    omega

theorem State.recToEq_taken {n : Nat} (hn : n < s.eqs.length) : s.eqTaken (s.recToEq r seq frc n) r seq frc n := by
  have hlen : (recEntries (recWords r seq frc (s.evq n).lost)).length = 4 + r.payload.length := by
    rw [recEntries_length]
    simp [recWords]
    omega
  have hupd (u : State) (hu : u.eqs = s.eqs) (f : EvQueue → EvQueue) : (u.updEvq n f).evq n = f (s.evq n) := by
    show (updAt f u.eqs n).getD n _ = _
    rw [hu]
    exact updAt_get_same f s.eqs n EvQueue.reset hn
  refine ⟨fun h => ?_, fun h hroom => ?_, fun h hroom => ?_⟩
  · rw [State.recToEq, if_neg (ne_true_of_eq_false h)]
  · have he : s.recToEq r seq frc n = s.updEvq n (fun q =>
        { q with entries := q.entries ++ recEntries (recWords r seq frc (s.evq n).lost), lost := false }) := by
      rw [State.recToEq, if_pos h]
      exact if_pos (by rw [hlen, State.eqCredit]; omega)
    rw [he, hupd s rfl]
    exact ⟨rfl, rfl⟩
  · have he : s.recToEq r seq frc n = (s.bump (F.FLW_EQ_LOST_COUNT n)).updEvq n (fun q => { q with lost := true }) := by
      rw [State.recToEq, if_pos h]
      exact if_neg (by rw [hlen, State.eqCredit]; omega)
    rw [he, hupd (s.bump (F.FLW_EQ_LOST_COUNT n)) rfl]
    exact ⟨rfl, rfl, getF_bump_same s _ (by show 0 + 32 ≤ 32; decide)⟩

theorem State.recToFum_keeps (lost : Bool) : Keeps [.strs] s (s.recToFum r seq frc lost) := by
  unfold State.recToFum
  dsimp only
  split
  · exact Keeps.refl _ s
  · exact Keeps.ite (fun _ => (Keeps.refl _ s).updStr _ _ (by simp)) (fun _ => Keeps.refl _ s)

/-- The record enters every event queue. -/
def State.recToEqs : State := ((s.recToEq r seq frc 0).recToEq r seq frc 1).recToEq r seq frc 2

/-- The registers that count the records an event queue loses. -/
def eqLostRegs : List Nat := [R.FLW_EQ_LOST 0, R.FLW_EQ_LOST 1, R.FLW_EQ_LOST 2]

theorem State.recToEqs_keeps : Keeps [.regs, .eqs] s (s.recToEqs r seq frc) ∧ RegsKept eqLostRegs s (s.recToEqs r seq frc) := by
  obtain ⟨hk0, hr0⟩ := s.recToEq_regs r seq frc 0
  obtain ⟨hk1, hr1⟩ := (s.recToEq r seq frc 0).recToEq_regs r seq frc 1
  obtain ⟨hk2, hr2⟩ := ((s.recToEq r seq frc 0).recToEq r seq frc 1).recToEq_regs r seq frc 2
  exact ⟨(hk0.trans hk1).trans hk2, ((hr0.mono (by simp [eqLostRegs])).trans (hr1.mono (by simp [eqLostRegs]))).trans (hr2.mono (by simp [eqLostRegs]))⟩

/-- Each queue takes the record as if the others did not. -/
theorem State.recToEqs_taken (hl : s.eqs.length = 3) {n : Nat} (hn : n < 3) : s.eqTaken (s.recToEqs r seq frc) r seq frc n := by
  have hlen (u : State) (k : Nat) : (u.recToEq r seq frc k).eqs.length = u.eqs.length := by
    unfold State.recToEq
    dsimp only
    split
    · split <;> exact updAt_length _ _ _
    · rfl
  have hself (u : State) : u.eqAlike u n := ⟨rfl, rfl, rfl⟩
  obtain rfl | rfl | rfl : n = 0 ∨ n = 1 ∨ n = 2 := by omega
  · exact (s.recToEq_taken r seq frc (by omega)).alike (hself s)
      ((State.recToEq_alike _ r seq frc (by decide)).trans (State.recToEq_alike _ r seq frc (by decide)))
  · exact (State.recToEq_taken _ r seq frc (by rw [hlen]; omega)).alike (s.recToEq_alike r seq frc (by decide))
      (State.recToEq_alike _ r seq frc (by decide))
  · exact (State.recToEq_taken _ r seq frc (by rw [hlen, hlen]; omega)).alike
      ((s.recToEq_alike r seq frc (by decide)).trans (State.recToEq_alike _ r seq frc (by decide))) (hself _)

/-- The sequencer takes record `r` and leaves `rest`. -/
def State.seqTakes (s : State) (rest : List RecIn) : State := ({ s with recq := rest }).setF F.FLW_SEQ_NEXT_SEQ (s.getF F.FLW_SEQ_NEXT_SEQ + 1)

theorem State.recToEq_tick (n : Nat) : (s.recToEq r seq frc n).tick = s.tick := by
  have ht : (s.recToEq r seq frc n).time = s.time := (s.recToEq_regs r seq frc n).1 .time (by simp)
  show (s.recToEq r seq frc n).time.frc.toNat = s.time.frc.toNat
  rw [ht]

theorem State.recToEqs_eq : [0, 1, 2].foldl (fun u n => u.recToEq r seq u.tick n) s = s.recToEqs r seq s.tick := by
  show ((s.recToEq r seq s.tick 0).recToEq r seq (s.recToEq r seq s.tick 0).tick 1).recToEq r seq
    ((s.recToEq r seq s.tick 0).recToEq r seq (s.recToEq r seq s.tick 0).tick 1).tick 2 = _
  rw [State.recToEq_tick, State.recToEq_tick, State.recToEq_tick]
  rfl

/-- The sequencer has given record `r` to the event queues. -/
def State.seqGave (r : RecIn) (rest : List RecIn) : State := (s.seqTakes rest).recToEqs r (s.getF F.FLW_SEQ_NEXT_SEQ) s.tick

theorem State.eventRecord_eq {rest : List RecIn} (h : nextRec s.recq = some (r, rest)) :
    s.eventRecord = (s.seqGave r rest).recToFum r (s.getF F.FLW_SEQ_NEXT_SEQ) (s.seqGave r rest).tick
      (State.lacksMarked { s with recq := rest } r) := by
  have he := (s.seqTakes rest).recToEqs_eq r (s.getF F.FLW_SEQ_NEXT_SEQ)
  rw [State.eventRecord, h]
  exact congrArg (fun u : State => u.recToFum r (s.getF F.FLW_SEQ_NEXT_SEQ) u.tick (State.lacksMarked { s with recq := rest } r)) he

/-- The record that is taken next leaves the queue of records, is numbered, and enters the event queues. -/
theorem State.eventRecord_result {rest : List RecIn} (h : nextRec s.recq = some (r, rest)) (hl : s.eqs.length = 3) :
    Keeps [.regs, .recq, .eqs, .strs] s s.eventRecord ∧ RegsKept (R.FLW_SEQ_NEXT :: eqLostRegs) s s.eventRecord ∧
      s.eventRecord.recq = rest ∧ s.eventRecord.getF F.FLW_SEQ_NEXT_SEQ = (s.getF F.FLW_SEQ_NEXT_SEQ + 1) % 2 ^ 32 ∧
      ∀ n, n < 3 → s.eqTaken s.eventRecord r (s.getF F.FLW_SEQ_NEXT_SEQ) s.tick n := by
  obtain ⟨hk, hr⟩ := (s.seqTakes rest).recToEqs_keeps r (s.getF F.FLW_SEQ_NEXT_SEQ) s.tick
  have htk : Keeps [.recq, .regs] s (s.seqTakes rest) := ((Keeps.refl _ s).recq _ (by simp)).setF _ _ (by simp)
  have htr : RegsKept [R.FLW_SEQ_NEXT] s (s.seqTakes rest) :=
    ((RegsKept.refl _ { s with recq := rest }).setF F.FLW_SEQ_NEXT_SEQ _ (by decide) : RegsKept _ { s with recq := rest } _)
  have hf := (s.seqGave r rest).recToFum_keeps r (s.getF F.FLW_SEQ_NEXT_SEQ) (s.seqGave r rest).tick (State.lacksMarked { s with recq := rest } r)
  rw [s.eventRecord_eq r h]
  generalize State.recToFum _ _ _ _ _ = t at hf ⊢
  have hregs : t.regs = (s.seqGave r rest).regs := hf .regs (by simp)
  have hlost : RegsKept eqLostRegs (s.seqTakes rest) t := fun o ho => by
    rw [State.rd, hregs]
    exact hr o ho
  refine ⟨((htk.mono (by simp)).trans (hk.mono (by simp))).trans (hf.mono (by simp)), ?_, ?_, ?_, fun n hn => ?_⟩
  · exact (htr.mono (by simp)).trans (hlost.mono (fun _ => List.mem_cons_of_mem _))
  · rw [hf .recq (by simp), State.seqGave, hk .recq (by simp)]
    rfl
  · rw [hlost.getF _ (by decide)]
    exact getF_setF_same _ _ _ (by decide)
  · refine ((s.seqTakes rest).recToEqs_taken r (s.getF F.FLW_SEQ_NEXT_SEQ) s.tick hl hn).alike ⟨rfl, ?_, ?_⟩ ⟨?_, ?_, ?_⟩
    · refine htr _ ?_
      show 0x40108 + 0x40 * n ∉ [0x40000]
      simp
      omega
    · refine htr.getF _ ?_
      show 0x40110 + 0x40 * n ∉ [0x40000]
      simp
      omega
    · rw [State.evq, hf .eqs (by simp)]; rfl
    · rw [State.rd, hregs]; rfl
    · exact State.getF_of_regs hregs _

/-! ### Pops -/

/-- Entry `e` has left event queue `n`, and `rest` stays. -/
def State.eqPopped (s : State) (n : Nat) (e : QEntry) (rest : List QEntry) : State :=
  s.updEvq n (fun q => { q with entries := rest, head := (q.head + 1) % 4096, partRead := !e.enda })

theorem State.eqPopped_keeps (n : Nat) (e : QEntry) (rest : List QEntry) : Keeps [.eqs] s (s.eqPopped n e rest) :=
  (Keeps.refl _ s).eqs _ (by simp)

theorem State.eqPopped_entries {n : Nat} (e : QEntry) (rest : List QEntry) (hn : n < s.eqs.length) :
    ((s.eqPopped n e rest).evq n).entries = rest :=
  congrArg EvQueue.entries (updAt_get_same _ s.eqs n EvQueue.reset hn)

theorem State.eqPopped_length (n : Nat) (e : QEntry) (rest : List QEntry) : (s.eqPopped n e rest).eqs.length = s.eqs.length :=
  updAt_length _ _ _

/-- A good entry that the port may pop. -/
theorem State.popEq_good {n : Nat} {e : QEntry} {rest : List QEntry} (h : (s.evq n).entries = e :: rest)
    (hp : 0 < packetsOf (e :: rest) ∨ (s.evq n).partRead = true) (hends : e.enda = e.endb) (herr : e.err = 0) :
    s.popEq n = (some e, s.eqPopped n e rest) := by
  rw [State.popEq, h]
  refine (if_neg ?_).trans (if_pos ⟨hends, herr⟩)
  rintro ⟨h0, hpart⟩
  obtain hp | hp := hp
  · omega
  · rw [hp] at hpart; simp at hpart

/-- A pop through the read port by the owner, in the mode of the port (R244). -/
theorem State.eqReadData_owner {id : Ident} {n : Nat} {e : QEntry} {rest : List QEntry} (hid : id = eqOwner n ∨ id = .dbg)
    (hmode : s.bit (F.FLW_EQ_CTRL_MODE n) = false) (hn : n < s.eqs.length) (h : (s.evq n).entries = e :: rest)
    (hp : 0 < packetsOf (e :: rest) ∨ (s.evq n).partRead = true) (hends : e.enda = e.endb) (herr : e.err = 0) :
    s.eqReadData id n = (e.data, (s.eqPopped n e rest).latch id (R.FLW_EQ_READ_HI n) (lo32 (1 + 2 * b2n e.enda + min 255 (packetsOf rest) * 256))) := by
  have hmine : (id == eqOwner n || id == .dbg) = true := by simpa using hid
  rw [State.eqReadData, hmine, hmode]
  simp only [Bool.not_false, Bool.and_self, if_true, s.popEq_good h hp hends herr, s.eqPopped_entries e rest hn]

/-- Any other identity reads 0. -/
theorem State.eqReadData_other {id : Ident} {n : Nat} (h : id ≠ eqOwner n) (hd : id ≠ .dbg) :
    s.eqReadData id n = (0#32, s.latch id (R.FLW_EQ_READ_HI n) 0#32) := by
  have hmine : (id == eqOwner n || id == .dbg) = false := by simp [h, hd]
  rw [State.eqReadData, hmine]
  rfl

/-- A read of the port that completes at once. -/
theorem State.eqRead_eq {id : Ident} {n : Nat} (hb : onBus id = true) (hr : s.readsNow id (R.FLW_EQ_READ_LO n))
    (hd : s.domOn (domainOf (R.FLW_EQ_READ_LO n)) = true) :
    s.eqRead id n = ((s.eqReadData id n).2.bpReg id (R.FLW_EQ_READ_LO n) false).obsv (.read id.num (R.FLW_EQ_READ_LO n) (s.eqReadData id n).1) := by
  obtain ⟨hpor, hwait⟩ := hr
  rw [State.eqRead, State.reading, hpor, hwait]
  simp only [Bool.false_eq_true, if_false, State.gatedRead_on _ _ _ _ hb hd]

theorem eqOwner_onBus (n : Fin 3) : onBus (eqOwner n) = true := by fin_cases n <;> rfl

theorem State.eqPort_on (n : Fin 3) : s.domOn (domainOf (R.FLW_EQ_READ_LO n)) = true := by
  have hd : domainOf (R.FLW_EQ_READ_LO n) = 0 := by fin_cases n <;> rfl
  rw [hd]
  rfl

/-! ### The event ring -/

/-- A whole record leaves its event queue. -/
theorem State.popRecord_whole {n : Nat} {e : QEntry} {rest : List QEntry} (pre : List QEntry) (k : Nat) (hk : pre.length < k)
    (hn : n < s.eqs.length) (h : (s.evq n).entries = pre ++ e :: rest) (hpre : ∀ x ∈ pre, x.enda = false ∧ x.endb = false ∧ x.err = 0)
    (ha : e.enda = true) (hb : e.endb = true) (herr : e.err = 0) :
    ∃ ws t, s.popRecord n k = (ws, true, t) ∧ Keeps [.eqs] s t ∧ (t.evq n).entries = rest := by
  have hpk (l : List QEntry) : 0 < packetsOf (l ++ e :: rest) :=
    List.length_pos_of_mem (List.mem_filter.mpr ⟨List.mem_append_right l (List.mem_cons_self ..), ha⟩)
  obtain ⟨k, rfl⟩ : ∃ j, k = j + 1 := ⟨k - 1, by omega⟩
  induction pre generalizing s k with
  | nil =>
    have hp := s.popEq_good h (.inl (hpk [])) (ha.trans hb.symm) herr
    refine ⟨[e.data], s.eqPopped n e rest, ?_, s.eqPopped_keeps n e rest, s.eqPopped_entries e rest hn⟩
    rw [State.popRecord, hp]
    exact if_pos ha
  | cons x pre ih =>
    obtain ⟨hxa, hxb, hxe⟩ := hpre x (by simp)
    have hp : s.popEq n = (some x, s.eqPopped n x (pre ++ e :: rest)) := s.popEq_good h (.inl (hpk (x :: pre))) (hxa.trans hxb.symm) hxe
    obtain ⟨j, rfl⟩ : ∃ j, k = j + 1 := ⟨k - 1, by simp only [List.length_cons] at hk; omega⟩
    obtain ⟨ws, t, hpop, hkeep, hrest⟩ := ih (s.eqPopped n x (pre ++ e :: rest)) (by rw [State.eqPopped_length]; exact hn)
      (s.eqPopped_entries x _ hn) (fun y hy => hpre y (by simp [hy])) j (by simp only [List.length_cons] at hk; omega)
    refine ⟨x.data :: ws, t, ?_, (s.eqPopped_keeps _ _ _).trans hkeep, hrest⟩
    rw [State.popRecord, hp]
    dsimp only
    rw [if_neg (ne_true_of_eq_false hxa), hpop]

theorem State.freeBytes_keeps (n : Nat) : Keeps [.freeCtr] s (s.freeBytes n).2 := by
  induction n generalizing s with
  | zero => exact Keeps.refl _ s
  | succ n ih => exact ((Keeps.refl _ s).freeCtr _ (by simp)).trans (ih { s with freeCtr := s.freeCtr + 1 })

theorem State.ringSignal_keeps (f r : Nat) : Keeps [.host, .obs] s (s.ringSignal f r) := by
  have hring (g : Ring → Ring) : Keeps [.host, .obs] s (s.updRing f r g) := (Keeps.refl _ s).updFn f _ (by simp)
  exact Keeps.ite (fun _ => (hring _).trans (State.signal_keeps _ _ _)) (fun _ => hring _)

theorem State.writeWb_keeps (f r i : Nat) : Keeps [.host, .obs] s (s.writeWb f r i) :=
  ((Keeps.refl _ s).obsv _ (by simp)).trans (State.ringSignal_keeps _ _ _)

/-- A whole record goes to the ring. -/
def State.ringPut (s : State) (f : Nat) (ws : List Word) : State :=
  let (rest, s) := s.freeBytes (128 - 4 * ws.length)
  let pi := s.getF (F.HIF_RING_PI_PI f 9)
  let s := s.obsv (.hostWrite f (s.entryAddr f 9 pi) (wordsLe ws ++ rest))
  (s.setF (F.HIF_RING_PI_PI f 9) (pi + 1)).writeWb f 9 (pi + 1)

theorem State.ringPut_result (f : Nat) (ws : List Word) :
    Keeps [.regs, .host, .obs, .freeCtr] s (s.ringPut f ws) ∧ RegsKept [R.HIF_RING_PI f 9] s (s.ringPut f ws) ∧
      (s.ringPut f ws).getF (F.HIF_RING_PI_PI f 9) = (s.getF (F.HIF_RING_PI_PI f 9) + 1) % 2 ^ 16 := by
  have hfree := s.freeBytes_keeps (128 - 4 * ws.length)
  have hrd : (s.freeBytes (128 - 4 * ws.length)).2.regs = s.regs := hfree .regs (by simp)
  unfold State.ringPut
  dsimp only
  generalize (s.freeBytes (128 - 4 * ws.length)).2 = u at hfree hrd ⊢
  generalize Obs.hostWrite _ _ _ = x
  have hpi : u.getF (F.HIF_RING_PI_PI f 9) = s.getF (F.HIF_RING_PI_PI f 9) := State.getF_of_regs hrd _
  have hset : Keeps [.regs, .host, .obs, .freeCtr] s ((u.obsv x).setF (F.HIF_RING_PI_PI f 9) (u.getF (F.HIF_RING_PI_PI f 9) + 1)) :=
    ((hfree.mono (by simp)).obsv _ (by simp)).setF _ _ (by simp)
  have hwb := State.writeWb_keeps ((u.obsv x).setF (F.HIF_RING_PI_PI f 9) (u.getF (F.HIF_RING_PI_PI f 9) + 1)) f 9
    (u.getF (F.HIF_RING_PI_PI f 9) + 1)
  have hregs := hwb .regs (by simp)
  refine ⟨hset.trans (hwb.mono (by simp)), ?_, ?_⟩
  · intro o ho
    rw [State.rd, hregs]
    refine (rd_setF_other _ _ _ _ (by simpa [F.HIF_RING_PI_PI] using ho)).trans ?_
    rw [State.obsv_rd, State.rd, hrd]
    rfl
  · rw [State.getF_of_regs hregs, getF_setF_same _ _ _ (by show 0 + 16 ≤ 32; decide), hpi]
    rfl

theorem State.eventRing_none {f : Nat} (h : s.bit (F.FLW_EQ_CTRL_MODE f) = false ∨ s.ringOn f 9 = false ∨ s.ringLen f 9 ≤ s.ringFill f 9 ∨
    packetsOf (s.evq f).entries = 0) : s.eventRing f = s := by
  refine if_neg ?_
  obtain h | h | h | h := h <;> simp [h]

/-- A whole record goes from its event queue to the ring. -/
theorem State.eventRing_whole {f : Nat} {e : QEntry} {pre rest : List QEntry} (hm : s.bit (F.FLW_EQ_CTRL_MODE f) = true)
    (hon : s.ringOn f 9 = true) (hfill : s.ringFill f 9 < s.ringLen f 9) (hl : f < s.eqs.length) (hlen : pre.length < 4096)
    (h : (s.evq f).entries = pre ++ e :: rest) (hpre : ∀ x ∈ pre, x.enda = false ∧ x.endb = false ∧ x.err = 0)
    (ha : e.enda = true) (hb : e.endb = true) (herr : e.err = 0) :
    ∃ (ws : List Word) (u : State), s.eventRing f = u.ringPut f ws ∧ Keeps [.eqs] s u ∧ (u.evq f).entries = rest := by
  obtain ⟨ws, u, hpop, hk, hr⟩ := s.popRecord_whole pre 4096 hlen hl h hpre ha hb herr
  have hp : 0 < packetsOf (s.evq f).entries := by
    rw [h]
    exact List.length_pos_of_mem (List.mem_filter.mpr ⟨List.mem_append_right _ (List.mem_cons_self ..), ha⟩)
  refine ⟨ws, u, ?_, hk, hr⟩
  rw [State.eventRing, if_pos (by simp [hm, hon, hfill, hp]), hpop]
  rfl

end

end Sys2Proof.Machine

open Sys2Proof.Machine in
/-- Settles O47: the record that is taken next, queue by queue; the read port by who reads; the ring by its whole records. -/
theorem recordsReachQueues : Obligations.RecordsReachQueues := by
  refine ⟨fun s h => ?_, fun l rest r h => nextRec_spec h, fun s h => nextRec_isSome h, fun s r rest h hl => ⟨_, rfl, ?_⟩,
    fun id n s e rest hid hr hmode hl he hp hends herr => ⟨_, rfl, ?_⟩, fun id n s hb hid hd hr => ⟨_, rfl, ?_⟩, fun f s h => ?_,
    fun f s pre e rest hm hon hfill hl hlen h hpre ha hb herr => ?_⟩
  · show Host.Outcome.next s.eventRecord = _
    rw [State.eventRecord, h]
    rfl
  · obtain ⟨hk, hr, hq, hseq, htaken⟩ := s.eventRecord_result r h hl
    refine ⟨hk, hr, hq, hseq, fun n adm room hn hadm hroom => ?_⟩
    obtain ⟨hno, hyes, hfull⟩ := htaken n hn
    subst hadm hroom
    exact ⟨hno, fun ha hr => hyes ha (by simpa using hr), fun ha hr => hfull ha (by simpa using hr)⟩
  · have hb : onBus id = true := by
      obtain rfl | rfl := hid
      · exact eqOwner_onBus n
      · rfl
    rw [s.eqRead_eq hb hr (s.eqPort_on n), s.eqReadData_owner hid hmode (by omega) he hp hends herr]
    refine ⟨?_, s.eqPopped_entries e rest (by omega), rfl, ?_⟩
    · exact ((((s.eqPopped_keeps n e rest).mono (by simp)).latches _ (by simp)).bpReg _ _ _ (by simp)).obsv _ (by simp)
    · exact SMap.get_set_same _ _ _ _
  · rw [s.eqRead_eq hb hr (s.eqPort_on n), s.eqReadData_other hid hd]
    exact ⟨(((Keeps.refl _ s).latches _ (by simp)).bpReg _ _ _ (by simp)).obsv _ (by simp), rfl⟩
  · exact congrArg Host.Outcome.next (s.eventRing_none h)
  · obtain ⟨ws, u, hu, hk, hrest⟩ := s.eventRing_whole hm hon hfill (by omega) hlen h hpre ha hb herr
    obtain ⟨hpk, hpr, hpi⟩ := u.ringPut_result f ws
    have hregs : u.regs = s.regs := hk .regs (by simp)
    refine ⟨s.eventRing f, rfl, ?_⟩
    rw [hu]
    refine ⟨(hk.mono (by simp)).trans (hpk.mono (by simp)), fun o ho => ?_, ?_, ?_⟩
    · rw [hpr o ho, State.rd, State.rd, hregs]
    · rw [State.evq, hpk .eqs (by simp)]
      exact hrest
    · rw [hpi, State.getF_of_regs hregs]

end

section
/-!
SUPPORT. Links (R307-R310): a state in which the fall of one port reaches the registers of another.
-/

namespace Sys2Proof.Machine

/-- A frame queue that no hub has: its WR pointer would stand where NET_PORT_STATUS of port 1 stands. -/
def strayQueue : Nat := 9408

/-- An END packet that lies in no queue. -/
def strayEnd : Packet :=
  { stream := 0, kind := 2, ver := 1, hubId := 0, quality := 0, flags := 0, epoch := 0, count := 0, firstSn := 0, tail := [], payload := [],
    tbSel := 0, tbSec := 0, tbNs := 0, ipv6 := false, dstUdp := 0, srcUdp := 0, dstIp := [], posEnd := 0, declIn := 0, okIn := 0, content := [],
    held := [], cap := 0, runs := [], anchor := none, reason := 0, frozen := none, stored := false, dead := false, late := false }

/-- Reset, but ports 0 and 1 are up, port 0 sends `strayEnd` as a frame of `strayQueue`, and a limit of that queue waits. -/
def strayLinks : State :=
  let s := (State.reset.setF (F.NET_PORT_STATUS_LINK_UP 0) 1).setF (F.NET_PORT_STATUS_LINK_UP 1) 1
  { s with
    ports := updAt (fun x => { x with sending := some (.packet strayQueue strayEnd 0 true) }) s.ports 0
    fqHeld := List.replicate strayQueue none ++ [some 0] }

theorem strayLinks_up : strayLinks.linkUp 1 = true := by decide +kernel

theorem strayLinks_falls : (strayLinks.linksFall [0] 0).linkUp 1 = false := by decide +kernel

end Sys2Proof.Machine

open Sys2Proof.Machine in
/-- Refutes O52: nothing bounds the queue number of the frame that a falling port gives up, nor the queues that have a limit waiting. In
`strayLinks` the queue of that frame is one no hub has; as the fall of port 0 empties it, its WR pointer is written to 0, and that register
is NET_PORT_STATUS of port 1, which so falls with port 0. -/
theorem not_linksMove : ¬ Obligations.LinksMove := by
  unfold Obligations.LinksMove
  intro h
  obtain ⟨-, hdown, -⟩ := h
  obtain ⟨t, ht, -, -, hother, -⟩ := hdown [0] 0 strayLinks (by decide +kernel)
  obtain rfl : strayLinks.linksFall [0] 0 = t := Host.Outcome.next.inj ht
  have hup := hother 1 (by decide)
  rw [show ((1 : Fin 4) : Nat) = 1 from rfl, strayLinks_falls, strayLinks_up] at hup
  exact Bool.false_ne_true hup

end

section
/-!
SUPPORT. Failback and drain timeout (R303, R304).
-/

namespace Sys2Proof.Machine

section

variable (s : State)

/-! ### Instants of a stream -/

/-- The instants of stream `i` that wait for a packet are the same. -/
def State.instsKept (i : Nat) (s t : State) : Prop := (t.str i).insts = (s.str i).insts

section

variable {s} {t u : State} {i : Nat}

theorem State.instsKept.trans (h : State.instsKept i s t) (k : State.instsKept i t u) : State.instsKept i s u := Eq.trans k h

theorem State.instsKept_of_strs (h : t.strs = s.strs) : State.instsKept i s t := by rw [State.instsKept, State.str, State.str, h]

theorem State.instsKept_updStr (k : Nat) (f : StreamState → StreamState) (hf : ∀ x, (f x).insts = x.insts) :
    State.instsKept i s (s.updStr k f) := by
  show ((updAt f s.strs k).getD i StreamState.reset).insts = (s.strs.getD i StreamState.reset).insts
  by_cases hk : i = k
  · subst hk
    by_cases hl : i < s.strs.length
    · rw [updAt_get_same _ _ _ _ hl, hf]
    · rw [List.getD_eq_default _ _ (by rw [updAt_length]; omega), List.getD_eq_default _ _ (by omega)]
  · rw [updAt_get_other _ _ _ _ _ hk]

theorem State.instsKept_foldl {α : Type} (f : State → α → State) (l : List α) (hf : ∀ (v : State) (a : α), State.instsKept i v (f v a)) :
    State.instsKept i s (l.foldl f s) := by
  induction l generalizing s with
  | nil => exact rfl
  | cons a l ih => exact (hf s a).trans ih

end

theorem State.declare_instsKept (i k : Nat) (r : GapRun) : State.instsKept i s (s.declare k r) :=
  State.instsKept_updStr k _ (fun x => by split <;> rfl)

theorem State.declares_frame (i : Nat) (srcs : List Nat) (g : Nat → GapRun) :
    Keeps [.strs] s (srcs.foldl (fun s j => s.declare i (g j)) s) ∧ State.instsKept i s (srcs.foldl (fun s j => s.declare i (g j)) s) :=
  ⟨(Keeps.refl _ s).foldl _ _ (fun v j _ => v.declare_keeps _ _), State.instsKept_foldl _ _ (fun v j => v.declare_instsKept _ _ _)⟩

theorem State.pipeLose_frame (cause hi i : Nat) :
    Keeps [.strs] s (s.pipeLose cause hi i) ∧ State.instsKept i s (s.pipeLose cause hi i) := by
  unfold State.pipeLose
  split
  · split
    · exact ⟨Keeps.refl _ s, rfl⟩
    · next a z _ =>
      have hupd (f : StreamState → StreamState) (hf : ∀ x, (f x).insts = x.insts) :
          Keeps [.strs] s (s.updStr i f) ∧ State.instsKept i s (s.updStr i f) :=
        ⟨(Keeps.refl _ s).updStr _ _ (by simp), State.instsKept_updStr _ _ hf⟩
      obtain ⟨hk, hi⟩ := hupd (fun x => { x with
        produced := x.produced + ((z - a) / max 1 (s.strD i) + 1) * (s.strSrc i).length, lastSn := some z }) (fun _ => rfl)
      obtain ⟨hk', hi'⟩ := State.declares_frame (s.updStr i _) i (s.strSrc i) (fun j => ⟨j, cause, 0, a, z⟩)
      exact ⟨hk.trans hk', hi.trans hi'⟩
  · exact ⟨Keeps.refl _ s, rfl⟩

/-- Nothing of stream `i` that a packet could hold stays. -/
theorem State.dropHeld_insts (i cause : Nat) (hi : i < s.strs.length) : ((s.dropHeld i cause).str i).insts = [] := by
  have hdrop (f : StreamState → StreamState) (hf : ∀ x, (f x).insts = []) (l m : List GapRun) (g : StreamState → StreamState)
      (hg : ∀ x, (g x).insts = x.insts) :
      ((((m.foldl (fun s r => s.declare i r) (l.foldl (fun s r => s.declare i r) (s.updStr i f)))).updStr i g).str i).insts = [] := by
    have hkept : State.instsKept i (s.updStr i f)
        ((m.foldl (fun s r => s.declare i r) (l.foldl (fun s r => s.declare i r) (s.updStr i f))).updStr i g) :=
      ((State.instsKept_foldl _ _ (fun v r => v.declare_instsKept _ _ _)).trans
        (State.instsKept_foldl _ _ (fun v r => v.declare_instsKept _ _ _))).trans (State.instsKept_updStr i g hg)
    rw [hkept, State.str]
    show ((updAt f s.strs i).getD i StreamState.reset).insts = []
    rw [updAt_get_same _ _ _ _ hi]
    exact hf _
  exact hdrop _ (fun _ => rfl) _ _ _ (fun _ => rfl)

theorem State.freeze_instsKept (i : Nat) (p : Packet) : State.instsKept i s (s.freeze p).1 := by
  show State.instsKept i s (s.countSent p)
  unfold State.countSent
  dsimp only
  split
  · exact (State.instsKept_of_strs rfl).trans (State.instsKept_updStr _ _ (fun _ => rfl))
  · split
    · exact (State.instsKept_of_strs rfl).trans (State.instsKept_updStr _ _ (fun _ => rfl))
    · exact State.instsKept_of_strs rfl

theorem freezeAll_instsKept (i : Nat) (s : State) (l : List Packet) : State.instsKept i s (freezeAll s l).1 := by
  induction l generalizing s with
  | nil => exact rfl
  | cons p l ih => exact (s.freeze_instsKept i p).trans (ih _)

/-! ### Packets that count as sent in their queue -/

theorem State.fqLines_keeps {n : Nat} (hn : n < 16) (k : Nat) (b : List Byte) : Keeps [.regs, .mem] s (s.fqLines n k b) :=
  (State.fqLines_frame hn s k b).keeps

/-- A commit adds its packet at the end of its queue. -/
theorem State.fqCommit_adds {n : Nat} (hn : n < 16) (p : Packet) :
    ∃ u, s.fqCommit n p = u.updFq n (· ++ [p]) ∧ Keeps [.regs, .mem] s u := by
  refine ⟨_, rfl, Keeps.bump (Keeps.setF (Keeps.setF (Keeps.setF ?_ _ _ (by simp)) _ _ (by simp)) _ _ (by simp)) _ (by simp)⟩
  exact ((Keeps.refl _ s).setF _ _ (by simp)).trans (State.fqLines_keeps _ hn _ _)

/-- A packet that counts as sent joins its queue, with or without lines in it. -/
theorem State.commitSent_adds {n : Nat} (hn : n < 16) (p : Packet) :
    ∃ b u, s.commitSent n [p] = u.updFq n (· ++ [{ p with stored := b }]) ∧ Keeps [.regs, .mem, .dbg] s u := by
  unfold State.commitSent
  split
  · obtain ⟨u, hu, hk⟩ := s.fqCommit_adds hn p
    exact ⟨p.stored, u, hu, hk.mono (by simp)⟩
  · exact ⟨false, _, rfl, ((Keeps.refl _ s).bump _ (by simp)).trans ((State.bpQueue_keeps _ _ _ _).mono (by simp))⟩
  · exact ⟨false, _, rfl, ((Keeps.refl _ s).bump _ (by simp)).bump _ (by simp)⟩

theorem State.commitSent_cons (n : Nat) (p : Packet) (l : List Packet) : s.commitSent n (p :: l) = (s.commitSent n [p]).commitSent n l := rfl

theorem State.commitSent_keeps {n : Nat} (hn : n < 16) (l : List Packet) : Keeps [.regs, .mem, .dbg, .fqs] s (s.commitSent n l) := by
  induction l generalizing s with
  | nil => exact Keeps.refl _ s
  | cons p l ih =>
    obtain ⟨b, u, hu, hk⟩ := s.commitSent_adds hn p
    rw [State.commitSent_cons, hu]
    exact ((hk.mono (by simp)).fqs _ (by simp)).trans (ih _)

theorem State.commitSent_append (n : Nat) (l m : List Packet) : s.commitSent n (l ++ m) = (s.commitSent n l).commitSent n m := by
  induction l generalizing s with
  | nil => rfl
  | cons p l ih => exact ih _

theorem State.commitSent_length {n : Nat} (hn : n < 16) (l : List Packet) : (s.commitSent n l).fqs.length = s.fqs.length := by
  induction l generalizing s with
  | nil => rfl
  | cons p l ih =>
    obtain ⟨b, u, hu, hk⟩ := s.commitSent_adds hn p
    rw [State.commitSent_cons, hu, ih]
    exact (updAt_length _ _ _).trans (congrArg List.length (hk .fqs (by simp)))

/-- The packet committed last stands at the end of its queue. -/
theorem State.commitSent_last {n : Nat} (hn : n < 16) (hl : n < s.fqs.length) (l : List Packet) (p : Packet) :
    ∃ b, ((s.commitSent n (l ++ [p])).fq n).getLast? = some { p with stored := b } := by
  obtain ⟨b, u, hu, hk⟩ := (s.commitSent n l).commitSent_adds hn p
  have hlen : n < u.fqs.length := by rw [hk .fqs (by simp), State.commitSent_length s hn]; exact hl
  refine ⟨b, ?_⟩
  rw [State.commitSent_append, hu]
  show ((updAt _ u.fqs n).getD n []).getLast? = _
  rw [updAt_get_same _ _ _ _ hlen]
  simp

/-! ### The queue that is emptied -/

theorem State.fqRelease_keeps (n : Nat) (p : Packet) : Keeps [.regs] s (s.fqRelease n p) :=
  Keeps.ite (fun _ => ((Keeps.refl _ s).setF _ _ (by simp)).setF _ _ (by simp)) (fun _ => Keeps.refl _ s)

theorem State.fqTrim_keeps (n : Nat) : Keeps [.regs, .fqs, .fqHeld] s (s.fqTrim n) := by
  have hrel (l : List Packet) (f : List Packet → List Packet) :
      Keeps [.regs, .fqs, .fqHeld] s (l.foldl (fun s p => s.fqRelease n p) (s.updFq n f)) :=
    ((Keeps.refl _ s).fqs _ (by simp)).foldl _ _ (fun u p _ => (u.fqRelease_keeps n p).mono (by simp))
  unfold State.fqTrim
  refine Keeps.ite (fun _ => Keeps.refl _ s) (fun _ => ?_)
  exact Keeps.ite (fun _ => (hrel _ _).trans ((State.fqFresh_frame _ n).1.mono (by simp))) (fun _ => hrel _ _)

theorem State.takeOut_keeps (i n : Nat) : Keeps [.regs, .fqs, .fqHeld] s (s.takeOut i n).2 :=
  ((Keeps.refl _ s).fqs _ (by simp)).trans (State.fqTrim_keeps _ n)

/-! ### How many streams and queues there are -/

/-- As many streams and frame queues as before. -/
def State.sized (s t : State) : Prop := t.strs.length = s.strs.length ∧ t.fqs.length = s.fqs.length

section

variable {s} {t u : State}

theorem State.sized.trans (h : s.sized t) (k : t.sized u) : s.sized u := ⟨k.1.trans h.1, k.2.trans h.2⟩

theorem State.sized_of_keeps {l : List Field} (h : Keeps l s t) (hs : Field.strs ∉ l) (hf : Field.fqs ∉ l) : s.sized t :=
  ⟨congrArg List.length (h .strs hs), congrArg List.length (h .fqs hf)⟩

theorem State.sized_updStr (i : Nat) (f : StreamState → StreamState) : s.sized (s.updStr i f) := ⟨updAt_length _ _ _, rfl⟩

theorem State.sized_updFq (n : Nat) (f : List Packet → List Packet) : s.sized (s.updFq n f) := ⟨rfl, updAt_length _ _ _⟩

theorem State.sized_foldl {α : Type} (f : State → α → State) (l : List α) (hf : ∀ (v : State) (a : α), v.sized (f v a)) :
    s.sized (l.foldl f s) := by
  induction l generalizing s with
  | nil => exact ⟨rfl, rfl⟩
  | cons a l ih => exact (hf s a).trans ih

theorem State.sized_ite {c : Prop} [Decidable c] (ht : s.sized t) (hu : s.sized u) : s.sized (if c then t else u) := by
  split
  · exact ht
  · exact hu

end

theorem State.takeOut_sized (i n : Nat) : s.sized (s.takeOut i n).2 := by
  have htrim (u : State) : u.sized (u.fqTrim n) := by
    have hrel (l : List Packet) (f : List Packet → List Packet) : u.sized (l.foldl (fun s p => s.fqRelease n p) (u.updFq n f)) :=
      (State.sized_updFq n f).trans (State.sized_foldl _ _ (fun v p => State.sized_of_keeps (v.fqRelease_keeps n p) (by simp) (by simp)))
    unfold State.fqTrim
    refine State.sized_ite ⟨rfl, rfl⟩ (State.sized_ite ?_ (hrel _ _))
    exact (hrel _ _).trans (State.sized_of_keeps (State.fqFresh_frame _ n).1 (by simp) (by simp))
  exact (State.sized_updFq n _).trans (htrim _)

theorem State.loseP_sized (cause : Nat) (p : Packet) : s.sized (s.loseP cause p) := by
  have hins (q : Packet) (before : Packet → Bool) : s.sized (s.fqInsert q before) := State.sized_updFq _ _
  unfold State.loseP State.loseMark State.loseAnchor
  dsimp only
  refine State.sized_ite ⟨rfl, rfl⟩ (State.sized_ite ?_ (State.sized_ite (State.sized_updStr _ _) (State.sized_ite (State.sized_updStr _ _)
    (State.sized_ite (State.sized_ite (hins _ _) (State.sized_updStr _ _)) (State.sized_ite (hins _ _) (State.sized_updStr _ _))))))
  exact (State.sized_foldl _ _ (fun v r => State.sized_updStr _ _)).trans (State.sized_updStr _ _)

theorem State.dropHeld_sized (i cause : Nat) : s.sized (s.dropHeld i cause) := by
  have hd (l m : List GapRun) (f g : StreamState → StreamState) :
      s.sized ((m.foldl (fun s r => s.declare i r) (l.foldl (fun s r => s.declare i r) (s.updStr i f))).updStr i g) :=
    ((State.sized_updStr i f).trans ((State.sized_foldl _ _ (fun v r => State.sized_updStr _ _)).trans
      (State.sized_foldl _ _ (fun v r => State.sized_updStr _ _)))).trans (State.sized_updStr _ _)
  exact hd _ _ _ _

theorem State.pipeLose_sized (cause hi i : Nat) : s.sized (s.pipeLose cause hi i) := by
  unfold State.pipeLose
  split
  · split
    · exact ⟨rfl, rfl⟩
    · exact (State.sized_updStr _ _).trans (State.sized_foldl _ _ (fun v r => State.sized_updStr _ _))
  · exact ⟨rfl, rfl⟩

theorem State.countSent_sized (p : Packet) : s.sized (s.countSent p) := by
  have hb (f : Fld) (g : StreamState → StreamState) : s.sized ((s.bump f).updStr p.stream g) := State.sized_updStr p.stream g
  unfold State.countSent
  dsimp only
  refine State.sized_ite (hb _ _) (State.sized_ite ?_ ⟨rfl, rfl⟩)
  exact State.sized.trans (t := (s.bump _).bump _) ⟨rfl, rfl⟩ (State.sized_updStr _ _)

theorem freezeAll_sized (s : State) (l : List Packet) : s.sized (freezeAll s l).1 := by
  induction l generalizing s with
  | nil => exact ⟨rfl, rfl⟩
  | cons p l ih => exact (s.countSent_sized p).trans (ih _)

/-! ### The drain timeout -/

/-- Stream `i` has lost what it held on its port, its last instants with it (R304). -/
def State.timeoutLost (s : State) (i : Nat) : State :=
  let (mine, s) := s.takeOut i (s.fqOf i)
  let s := s.loseAll causeLink mine
  (s.dropHeld i causeLink).pipeLose causeLink (match s.run.endSn with | some z => z + 1 | none => 0) i

theorem State.timeoutLost_result (i : Nat) (hi : i < s.strs.length) :
    Keeps [.regs, .fqs, .fqHeld, .strs] s (s.timeoutLost i) ∧ s.sized (s.timeoutLost i) ∧ ((s.timeoutLost i).str i).insts = [] := by
  have h1 := s.takeOut_keeps i (s.fqOf i)
  have z1 := s.takeOut_sized i (s.fqOf i)
  unfold State.timeoutLost
  dsimp only
  generalize (s.takeOut i (s.fqOf i)).1 = mine
  generalize (s.takeOut i (s.fqOf i)).2 = u at h1 z1 ⊢
  have z2 : u.sized (u.loseAll causeLink mine) := State.sized_foldl _ _ (fun v p => v.loseP_sized causeLink p)
  have h2 := u.loseAll_keeps causeLink mine
  generalize u.loseAll causeLink mine = v at h2 z2 ⊢
  have hlen : v.strs.length = s.strs.length := z2.1.trans z1.1
  have h3 := (v.dropHeld_frame i causeLink).keeps
  have z3 := v.dropHeld_sized i causeLink
  obtain ⟨h4, hin⟩ := (v.dropHeld i causeLink).pipeLose_frame causeLink (match v.run.endSn with | some z => z + 1 | none => 0) i
  have z4 := (v.dropHeld i causeLink).pipeLose_sized causeLink (match v.run.endSn with | some z => z + 1 | none => 0) i
  refine ⟨(((h1.mono (by simp)).trans (h2.mono (by simp))).trans (h3.mono (by simp))).trans (h4.mono (by simp)),
    ((z1.trans z2).trans z3).trans z4, ?_⟩
  exact Eq.trans hin (v.dropHeld_insts i causeLink (hlen ▸ hi))

/-- The packets that stream `i` ends with count as sent: the GAP packets of its last runs and its END packet. -/
def State.timeoutSent (s : State) (i : Nat) : State × List Packet × Packet :=
  let (s, gaps) := freezeAll s (s.lastGaps i)
  ((s.freeze (s.endPkt i 3)).1, gaps, (s.freeze (s.endPkt i 3)).2)

/-- Those packets join queue `n`. -/
def State.timeoutQueued (s : State) (n : Nat) (gaps : List Packet) (e : Packet) : State := (s.commitSent n (gaps ++ [e])).copyRecs (gaps ++ [e])

/-- Stream `i` has ended with REASON 3. -/
def State.timeoutDone (s : State) (i : Nat) : State :=
  let s := s.updStr i (fun x => { x with runs := [], ending := x.ending.or (some 3), endQueued := true, drainFrom := none })
  ((s.setF (F.STR_STATUS_DRAIN_TIMEOUT i) 1).setF (F.STR_STATUS_END_SENT i) 1).drainCheck

/-- The last GAP packets and the END packet of stream `i` count as sent, in queue `n`. -/
def State.timeoutEnds (s : State) (i n : Nat) : State :=
  ((s.timeoutSent i).1.timeoutQueued n (s.timeoutSent i).2.1 (s.timeoutSent i).2.2).timeoutDone i

theorem State.drainCheck_frame : Keeps [.regs, .pwr] s s.drainCheck ∧ RegsKept [R.AFE_RUN_STATUS] s s.drainCheck := by
  unfold State.drainCheck
  split
  · exact ⟨((Keeps.refl _ s).setF _ _ (by simp)).worked _ (by simp), ((RegsKept.refl _ s).setF _ _ (by decide)).worked _⟩
  · exact ⟨Keeps.refl _ s, RegsKept.refl _ s⟩

theorem State.timeoutSent_result {i : Nat} (hi : i < 64) :
    Keeps [.regs, .strs] s (s.timeoutSent i).1 ∧ s.sized (s.timeoutSent i).1 ∧ State.instsKept i s (s.timeoutSent i).1 ∧
      (s.timeoutSent i).2.2.kind = 2 ∧ (s.timeoutSent i).2.2.reason = 3 ∧ (s.timeoutSent i).2.2.frozen.isSome = true := by
  have hf := freezeAll_frame s (s.lastGaps i) (fun p hp => State.lastGaps_stream _ _ p hp ▸ hi)
  have hz := freezeAll_sized s (s.lastGaps i)
  have hk := freezeAll_instsKept i s (s.lastGaps i)
  unfold State.timeoutSent
  dsimp only
  generalize (freezeAll s (s.lastGaps i)).1 = u at hf hz hk ⊢
  exact ⟨hf.keeps.trans (State.freeze_frame u (show (u.endPkt i 3).stream < 64 from hi)).keeps, hz.trans (u.countSent_sized _),
    hk.trans (u.freeze_instsKept i _), rfl, rfl, rfl⟩

theorem State.timeoutQueued_result {n : Nat} (hn : n < 16) (hf : n < s.fqs.length) (gaps : List Packet) (e : Packet) :
    Keeps [.regs, .mem, .dbg, .fqs, .recq] s (s.timeoutQueued n gaps e) ∧
      ∃ b, ((s.timeoutQueued n gaps e).fq n).getLast? = some { e with stored := b } := by
  have hc := (State.copyRecs_frame (s.commitSent n (gaps ++ [e])) (gaps ++ [e])).keeps
  refine ⟨((s.commitSent_keeps hn _).mono (by simp)).trans (hc.mono (by simp)), ?_⟩
  obtain ⟨b, hb⟩ := s.commitSent_last hn hf gaps e
  refine ⟨b, Eq.trans ?_ hb⟩
  rw [State.fq, State.fq, State.timeoutQueued, hc .fqs (by simp)]

theorem State.timeoutDone_result {i : Nat} (hi : i < 64) (hs : i < s.strs.length) :
    Keeps [.regs, .strs, .pwr] s (s.timeoutDone i) ∧
      (s.timeoutDone i).bit (F.STR_STATUS_END_SENT i) = true ∧ (s.timeoutDone i).bit (F.STR_STATUS_DRAIN_TIMEOUT i) = true ∧
      ((s.timeoutDone i).str i).endQueued = true ∧ ((s.timeoutDone i).str i).insts = (s.str i).insts ∧ ((s.timeoutDone i).str i).runs = [] := by
  unfold State.timeoutDone
  dsimp only
  have hstr (f : StreamState → StreamState) : (s.updStr i f).str i = f (s.str i) := updAt_get_same f s.strs i StreamState.reset hs
  generalize hg : (fun x : StreamState => { x with runs := [], ending := x.ending.or (some 3), endQueued := true, drainFrom := none }) = g at hstr ⊢
  have hset : Keeps [.regs, .strs, .pwr] s (((s.updStr i g).setF (F.STR_STATUS_DRAIN_TIMEOUT i) 1).setF (F.STR_STATUS_END_SENT i) 1) :=
    (((Keeps.refl _ s).updStr _ _ (by simp)).setF _ _ (by simp)).setF _ _ (by simp)
  have hbits : ((((s.updStr i g).setF (F.STR_STATUS_DRAIN_TIMEOUT i) 1).setF (F.STR_STATUS_END_SENT i) 1).bit (F.STR_STATUS_END_SENT i) = true) ∧
      ((((s.updStr i g).setF (F.STR_STATUS_DRAIN_TIMEOUT i) 1).setF (F.STR_STATUS_END_SENT i) 1).bit (F.STR_STATUS_DRAIN_TIMEOUT i) = true) :=
    ⟨bit_setF_one _ _ (by simp [F.STR_STATUS_END_SENT]),
      (bit_setF_other _ _ _ _ (by simp [F.STR_STATUS_END_SENT]) (by simp [F.STR_STATUS_END_SENT, F.STR_STATUS_DRAIN_TIMEOUT])).trans
        (bit_setF_one _ _ (by simp [F.STR_STATUS_DRAIN_TIMEOUT]))⟩
  have hst : (((s.updStr i g).setF (F.STR_STATUS_DRAIN_TIMEOUT i) 1).setF (F.STR_STATUS_END_SENT i) 1).str i = g (s.str i) := hstr g
  generalize ((s.updStr i g).setF (F.STR_STATUS_DRAIN_TIMEOUT i) 1).setF (F.STR_STATUS_END_SENT i) 1 = u at hset hbits hst ⊢
  obtain ⟨hdk, hdr⟩ := u.drainCheck_frame
  have hoff (f : Fld) (hf : f.off = R.STR_STATUS i) : f.off ∉ [R.AFE_RUN_STATUS] := by
    rw [hf, List.mem_singleton]
    show 0xC0038 + 0x100 * i ≠ 0x9000C
    omega
  have hds : u.drainCheck.str i = u.str i := by rw [State.str, State.str, hdk .strs (by simp)]
  refine ⟨hset.trans (hdk.mono (by simp)), (hdr.bit _ (hoff _ rfl)).trans hbits.1, (hdr.bit _ (hoff _ rfl)).trans hbits.2, ?_, ?_, ?_⟩ <;>
    rw [hds, hst, ← hg]

theorem State.timeoutEnds_result {i n : Nat} (hi : i < 64) (hn : n < 16) (hs : i < s.strs.length) (hf : n < s.fqs.length)
    (hin : (s.str i).insts = []) :
    Keeps [.regs, .recq, .mem, .fqs, .strs, .pwr, .dbg] s (s.timeoutEnds i n) ∧
      (s.timeoutEnds i n).bit (F.STR_STATUS_END_SENT i) = true ∧ (s.timeoutEnds i n).bit (F.STR_STATUS_DRAIN_TIMEOUT i) = true ∧
      ((s.timeoutEnds i n).str i).endQueued = true ∧ ((s.timeoutEnds i n).str i).insts = [] ∧ ((s.timeoutEnds i n).str i).runs = [] ∧
      ∃ e, ((s.timeoutEnds i n).fq n).getLast? = some e ∧ e.kind = 2 ∧ e.reason = 3 ∧ e.frozen.isSome = true := by
  obtain ⟨hk1, ⟨hz1, hz2⟩, hi1, hkind, hreason, hfrozen⟩ := s.timeoutSent_result hi
  unfold State.timeoutEnds
  generalize s.timeoutSent i = x at hk1 hz1 hz2 hi1 hkind hreason hfrozen ⊢
  obtain ⟨hk2, b, hlast⟩ := x.1.timeoutQueued_result hn (by omega) x.2.1 x.2.2
  have hstrs : (x.1.timeoutQueued n x.2.1 x.2.2).strs = x.1.strs := hk2 .strs (by simp)
  generalize x.1.timeoutQueued n x.2.1 x.2.2 = u at hk2 hlast hstrs ⊢
  obtain ⟨hk3, he, hd, hq, hins, hr⟩ := u.timeoutDone_result hi (by rw [hstrs]; omega)
  refine ⟨((hk1.mono (by simp)).trans (hk2.mono (by simp))).trans (hk3.mono (by simp)), he, hd, hq, ?_, hr, { x.2.2 with stored := b }, ?_,
    hkind, hreason, hfrozen⟩
  · rw [hins, State.str, hstrs]
    exact Eq.trans hi1 hin
  · rw [State.fq, hk3 .fqs (by simp)]
    exact hlast

theorem State.drainTimeout_due {i : Nat} (h : ((s.str i).active && s.bit F.AFE_RUN_STATUS_DRAINING && !s.bit (F.STR_STATUS_END_SENT i) &&
    !s.halted && !s.linkUp (s.getF (F.STR_STATUS_PORT_NOW i)) && !(s.trg.caps.any (fun c => c.stream == i)) && decide ((s.str i).gey = []) &&
    (s.strKind i != 4 || s.trigsDone) &&
    (match (s.str i).drainFrom with
     | none => false
     | some k => decide (k + 500000 * s.getF F.STR_DRAIN_DRAIN_MS ≤ s.tick))) = true) :
    s.drainTimeout i = (s.timeoutLost i).timeoutEnds i (s.fqOf i) := if_pos h

end

end Sys2Proof.Machine

open Sys2Proof.Machine in
/-- Settles O53: a return by its request and what is undelivered; a drain timeout by what is due, then packet by packet. -/
theorem streamsReturnOrEnd : Obligations.StreamsReturnOrEnd := by
  refine ⟨fun id i s hg => ?_, fun i s hp hu => ⟨_, rfl, ?_⟩, fun i s h => ?_, fun i s h => ?_,
    fun i s k ha hd he hh hl hc hgey ht hk hle hf hs => ⟨_, rfl, ?_⟩⟩
  · refine gated_next (s.cmdWord (R.STR_CTRL i) 0x80000000#32) hg ?_ ?_
    · show 0xC0030 + 0x100 * i.val ≠ _
      rw [R.HIF_APPLY_CTRL]
      omega
    · unfold State.failbackReq
      cases hb : s.bit (F.STR_STATUS_ON_FO i) with
      | true =>
        rw [if_pos rfl]
        exact ⟨((Keeps.refl _ s).setF _ _ (by simp)).bpReg _ _ _ (by simp),
          ((RegsKept.refl _ s).setF _ _ (by simp [F.STR_STATUS_FAILBACK_PENDING])).bpReg _ _ _,
          fun _ => (State.bpReg_bit ..).trans (bit_setF_one _ _ (by simp [F.STR_STATUS_FAILBACK_PENDING])), by simp⟩
      | false =>
        rw [if_neg (by simp)]
        exact ⟨(Keeps.refl _ s).bpReg _ _ _ (by simp), (RegsKept.refl _ s).bpReg _ _ _, by simp, fun _ => rfl⟩
  · have he : s.failbackNow i = ((s.setF (F.STR_STATUS_PORT_NOW i) (s.getF (F.STR_DEF_PORT i))).setF (F.STR_STATUS_ON_FO i) 0).setF
        (F.STR_STATUS_FAILBACK_PENDING i) 0 := if_pos (by rw [hp, hu]; rfl)
    rw [he]
    refine ⟨(((Keeps.refl _ s).setF _ _ (by simp)).setF _ _ (by simp)).setF _ _ (by simp), ?_, ?_, ?_, bit_setF_zero _ _ (by simp [F.STR_STATUS_FAILBACK_PENDING])⟩
    · exact (((RegsKept.refl _ s).setF _ _ (by simp [F.STR_STATUS_PORT_NOW])).setF _ _ (by simp [F.STR_STATUS_ON_FO])).setF _ _
        (by simp [F.STR_STATUS_FAILBACK_PENDING])
    · rw [getF_setF_other _ _ _ _ (by simp [F.STR_STATUS_FAILBACK_PENDING]) (by simp [F.STR_STATUS_FAILBACK_PENDING, F.STR_STATUS_PORT_NOW]),
        getF_setF_other _ _ _ _ (by simp [F.STR_STATUS_ON_FO]) (by simp [F.STR_STATUS_ON_FO, F.STR_STATUS_PORT_NOW]),
        getF_setF_same _ _ _ (by simp [F.STR_STATUS_PORT_NOW])]
      exact Nat.mod_eq_of_lt (getF_lt s (F.STR_DEF_PORT i))
    · exact (bit_setF_other _ _ _ _ (by simp [F.STR_STATUS_FAILBACK_PENDING]) (by simp [F.STR_STATUS_FAILBACK_PENDING, F.STR_STATUS_ON_FO])).trans
        (bit_setF_zero _ _ (by simp [F.STR_STATUS_ON_FO]))
  · refine congrArg Host.Outcome.next (if_neg ?_)
    obtain h | h := h <;> simp [h]
  · refine congrArg Host.Outcome.next (if_neg ?_)
    obtain h | h | h | h := h
    · simp [h]
    · simp [h]
    · simp [h]
    · cases hd : (s.str i).drainFrom with
      | none => simp
      | some k => simp [h k hd]
  · have hcap : s.trg.caps.any (fun c => c.stream == i.val) = false := List.any_eq_false.mpr (fun c hc' => by simpa using hc c hc')
    have hkind : (s.strKind i != 4 || s.trigsDone) = true := by
      by_cases h4 : s.strKind i = 4
      · simp [ht h4]
      · simp [h4]
    rw [s.drainTimeout_due (by rw [ha, hd, he, hh, hl, hcap, hkind, hk]; simp [hgey, hle])]
    obtain ⟨hlk, ⟨hz1, hz2⟩, hin⟩ := s.timeoutLost_result i (by omega)
    have hn := s.fqOf_lt i
    obtain ⟨hek, hrest⟩ := (s.timeoutLost i).timeoutEnds_result i.isLt hn (by omega) (by omega) hin
    exact ⟨(hlk.mono (by simp)).trans (hek.mono (by simp)), hrest⟩

end

section
/-!
SUPPORT. What reads and writes of sample memory change (R209-R226): the registers of MEM and MNT, the faults, and signals.
-/

namespace Sys2Proof.Machine

/-- Registers outside blocks MEM and MNT. -/
def besideMem (off : Nat) : Prop := off / 0x10000 ≠ 5 ∧ off / 0x10000 ≠ 15

/-- The fields that accesses of sample memory change. -/
def memFields : List Field := [.regs, .host, .obs, .upd, .recq, .mem, .firsts]

/-- The entries that the rings hold for the hub stay as they are. -/
def State.postedKept (s t : State) : Prop := ∀ f r, (t.ring f r).posted = (s.ring f r).posted

/-- An access of sample memory: what it changes, and no ring's entries. -/
structure MemStep (s t : State) : Prop where
  frame  : Frame memFields besideMem s t
  posted : s.postedKept t

section

variable {s t u : State}

theorem State.postedKept_of_host (h : t.host = s.host) : s.postedKept t := fun f r => by
  rw [State.ring, State.ring, State.fn, State.fn, h]

theorem State.postedKept.trans (h : s.postedKept t) (k : t.postedKept u) : s.postedKept u := fun f r => (k f r).trans (h f r)

/-- What leaves the rings of every function alone. -/
theorem State.postedKept_updFn (n : Nat) (g : PciFn → PciFn) (hg : ∀ x, (g x).rings = x.rings) : s.postedKept (s.updFn n g) := by
  intro f r
  have hr : ((s.updFn n g).fn f).rings = (s.fn f).rings := by
    show ((updAt g s.host.fns n).getD f (⟨[], []⟩ : PciFn)).rings = (s.host.fns.getD f (⟨[], []⟩ : PciFn)).rings
    by_cases hf : f = n
    · subst hf
      by_cases hl : f < s.host.fns.length
      · rw [updAt_get_same _ _ _ _ hl, hg]
      · rw [List.getD_eq_default _ _ (by rw [updAt_length]; omega), List.getD_eq_default _ _ (by omega)]
    · rw [updAt_get_other _ _ _ _ _ hf]
  rw [State.ring, State.ring, hr]

theorem State.postedKept.ite {c : Prop} [Decidable c] (ht : s.postedKept t) (hu : s.postedKept u) : s.postedKept (if c then t else u) := by
  split
  · exact ht
  · exact hu

theorem MemStep.refl (s : State) : MemStep s s := ⟨Frame.refl _ _ s, fun _ _ => rfl⟩

theorem MemStep.trans (h : MemStep s t) (k : MemStep t u) : MemStep s u := ⟨h.frame.trans k.frame, h.posted.trans k.posted⟩

/-- A change that leaves the host side alone. -/
theorem MemStep.of_frame {l : List Field} (h : Frame l besideMem s t) (hl : ∀ f, f ∈ l → f ∈ memFields) (hh : Field.host ∉ l) : MemStep s t :=
  ⟨h.wide hl, State.postedKept_of_host (h.keeps .host hh)⟩

theorem MemStep.ite {c : Prop} [Decidable c] (ht : c → MemStep s t) (hu : ¬ c → MemStep s u) : MemStep s (if c then t else u) := by
  split
  · exact ht ‹c›
  · exact hu ‹¬ c›

end

section

variable (s : State)

theorem State.signal_posted (f v : Nat) : s.postedKept (s.signal f v) := by
  have hvec (g : MsixVec → MsixVec) : s.postedKept (s.updVec f v g) := State.postedKept_updFn f _ (fun _ => rfl)
  exact State.postedKept.ite (hvec _) (State.postedKept_of_host rfl)

theorem State.signalAlert_posted : s.postedKept s.signalAlert := by
  have hgo (u : State) (f : Nat) : u.postedKept (if u.bit (F.HIF_FN_ALERT_EN f) then u.signal f (u.getF (F.HIF_FN_ALERT_VEC f)) else u) :=
    State.postedKept.ite (u.signal_posted _ _) (fun _ _ => rfl)
  exact (hgo s 0).trans (hgo _ 1)

theorem State.mntFault_step {k : Nat} (hk : k < 8) (transient : Bool) (loc : Nat) : MemStep s (s.mntFault k transient loc) := by
  refine ⟨(s.mntFault_frame hk transient loc).mono (by decide) (fun _ h => h.2), ?_⟩
  have halert (u : State) (hu : u.host = s.host) (n : Nat) : s.postedKept (u.setAlert n) := by
    have hset : s.postedKept (u.setF ⟨R.MNT_ALERT_STATUS, n, 1⟩ 1) := State.postedKept_of_host hu
    have hsig := hset.trans (State.signalAlert_posted (u.setF ⟨R.MNT_ALERT_STATUS, n, 1⟩ 1))
    refine State.postedKept.ite hset (State.postedKept.ite (State.postedKept.ite hsig (hsig.trans ?_)) hset)
    exact State.postedKept.ite (fun _ _ => rfl) (State.postedKept_of_host rfl)
  refine halert _ ?_ _
  simp only [apply_ite State.host, State.setB_host, State.setF_host, State.bump_host, ite_self]

theorem State.countCe_step (a b : Nat) : MemStep s (s.countCe a b) := by
  refine MemStep.of_frame (l := [.regs]) (((Frame.refl _ _ s).bump _ (by decide) ?_ |>.bump _ (by decide) ?_).setF _ _ (by decide) ?_) (by decide) (by decide)
  · unfold besideMem; decide
  · have ht : memTile a < 32 := by unfold memTile; omega
    intro h
    exact h.1 (by show (0x50100 + 4 * memTile a) / 0x10000 = 5; omega)
  · unfold besideMem; decide

/-- The faults of a word change. -/
theorem State.mem_step (x : MemState) : MemStep s { s with mem := x } :=
  MemStep.of_frame (l := [.mem]) ⟨(Keeps.refl _ s).mem _ (by decide), RdKept.refl _ s⟩ (by decide) (by decide)

theorem State.memReadWord_step (a : Nat) : MemStep s (s.memReadWord a).2 := by
  have hev (f : Fld) (hf : ¬ besideMem f.off) : MemStep s (s.bump f) :=
    MemStep.of_frame (l := [.regs]) ((Frame.refl _ _ s).bump f (by decide) hf) (by decide) (by decide)
  have hemit (u : State) (x : List Word) : MemStep u (u.emit 0 0x0501 x) :=
    MemStep.of_frame (l := [.recq]) ((Frame.refl _ _ u).emit _ _ _ (by decide)) (by decide) (by decide)
  unfold State.memReadWord
  split
  · exact MemStep.refl s
  · split
    · exact (s.countCe_step _ _).trans (State.mem_step _ _)
    · dsimp only
      split
      · refine MemStep.trans ?_ (State.mem_step _ _)
        refine ((MemStep.trans (hev F.MEM_ERR_UE_TRANS_COUNT (by unfold besideMem; decide)) ?_).trans (hemit _ _)).trans (State.mntFault_step _ (by decide) _ _)
        split
        · exact State.countCe_step _ _ _
        · exact MemStep.refl _
      · refine (MemStep.trans ?_ (hemit _ _)).trans (State.mntFault_step _ (by decide) _ _)
        refine (hev F.MEM_ERR_UE_LASTING_COUNT (by unfold besideMem; decide)).trans ?_
        exact MemStep.of_frame (l := [.regs]) ((Frame.refl _ _ _).setF F.MEM_UE_LOC_LOC _ (by decide) (by unfold besideMem; decide)) (by decide) (by decide)

theorem State.memWroteWord_step (a : Nat) : MemStep s (s.memWroteWord a) := by
  have harm : ¬ besideMem F.MEM_INJECT_CTRL_ARM.off := fun h => h.1 (by decide)
  have h0 : Frame [.regs, .mem] besideMem s { s with mem := s.mem.clearFault a } := ⟨(Keeps.refl _ s).mem _ (by simp), RdKept.refl _ s⟩
  refine MemStep.of_frame (l := [.regs, .mem]) ?_ (by decide) (by decide)
  refine Frame.ite (fun _ => Frame.setF (Frame.setF ?_ _ _ (by simp) harm) _ _ (by simp) harm) (fun _ => h0)
  exact Frame.ite (fun _ => h0) (fun _ => ⟨h0.keeps.mem _ (by simp), h0.rd⟩)

theorem State.memWroteWords_step (s : State) (a n : Nat) : MemStep s (s.memWroteWords a n) := by
  induction n generalizing s a with
  | zero => exact MemStep.refl s
  | succ n ih => exact (s.memWroteWord_step a).trans (ih _ _)

theorem State.memPut_step (a : Nat) (b : List Byte) : MemStep s (s.memPut a b) :=
  MemStep.ite (fun _ => s.mem_step _) (fun _ => (s.mem_step _).trans (State.memWroteWords_step _ _ _))

theorem Keeps.firstsUpd {l : List Field} {s t : State} (h : Keeps l s t) (x : List Nat) (hm : Field.firsts ∈ l) :
    Keeps l s { t with firsts := x } := by
  intro f hf
  cases f
  case firsts => exact absurd hm hf
  all_goals exact h _ hf

section

variable {l : List Field} {p : Nat → Prop} {s t : State}

/-- The first event of a counter (R225). -/
theorem Frame.firstOf (h : Frame l p s t) (off : Nat) (f : State → State) (hm : Field.firsts ∈ l) (hf : ∀ u, Frame l p u (f u)) :
    Frame l p s (t.firstOf off f) := by
  have hfirst (x : List Nat) : Frame l p s { t with firsts := x } := ⟨h.keeps.firstsUpd x hm, h.rd⟩
  exact Frame.ite (fun _ => h) (fun _ => (hfirst _).trans (hf _))

end

theorem State.memDeny_step (id : Ident) (a : Nat) (write : Bool) : MemStep s (s.memDeny id a write) := by
  have hcount : ¬ besideMem R.MEM_DENY_COUNT := fun h => h.1 (by decide)
  have hlast : ¬ besideMem R.MEM_DENY_LAST := fun h => h.1 (by decide)
  have hr : Field.regs ∈ [Field.regs, .firsts, .recq] := by decide
  refine MemStep.of_frame (l := [.regs, .firsts, .recq]) ?_ (by decide) (by decide)
  have h0 : Frame [.regs, .firsts, .recq] besideMem s s := Frame.refl _ _ s
  have h1 := h0.bump F.MEM_DENY_COUNT_COUNT hr hcount
  have h2 := ((h1.setF F.MEM_DENY_LAST_OFFSET a hr hlast).setB F.MEM_DENY_LAST_WRITE write hr hlast).setF F.MEM_DENY_LAST_IDENT
    id.num hr hlast
  exact h2.firstOf _ _ (by decide) (fun u => (Frame.refl _ _ u).emit _ _ _ (by decide))

theorem State.readUntil_step (s : State) (a n : Nat) : MemStep s (s.readUntil a n).2 := by
  induction n generalizing s a with
  | zero => exact MemStep.refl s
  | succ n ih =>
    have hr := s.memReadWord_step a
    unfold State.readUntil
    dsimp only
    split
    · exact hr
    · exact hr.trans (ih _ _)

theorem State.readMem_step (off len : Nat) : MemStep s (s.readMem off len).2.2 := State.readUntil_step _ _ _

theorem State.readEach_step (s : State) (l : List Nat) : MemStep s (s.readEach l).2 := by
  induction l generalizing s with
  | nil => exact MemStep.refl s
  | cons a l ih =>
    have hr := s.memReadWord_step a
    unfold State.readEach
    dsimp only
    split
    · exact hr
    · exact hr.trans (ih _)

theorem State.ctxRead_step (n : Nat) : MemStep s (s.ctxRead n).2 := State.readEach_step _ _

theorem State.ctxStart_step (n : Nat) : MemStep s (s.ctxStart n).2 := by
  refine MemStep.trans ?_ (State.ctxRead_step _ n)
  exact MemStep.ite (fun _ => (s.mem_step _).trans (State.memWroteWord_step _ _)) (fun _ => s.mem_step _)

end

/-! ### Steps of jobs -/

/-- The fields that the input of a job changes: those of memory, and free values. -/
def jobFields : List Field := .freeCtr :: memFields

/-- What a job's accesses change. -/
structure JobStep (s t : State) : Prop where
  frame  : Frame jobFields besideMem s t
  posted : s.postedKept t

section

variable {s t u : State}

theorem JobStep.refl (s : State) : JobStep s s := ⟨Frame.refl _ _ s, fun _ _ => rfl⟩

theorem JobStep.trans (h : JobStep s t) (k : JobStep t u) : JobStep s u := ⟨h.frame.trans k.frame, h.posted.trans k.posted⟩

theorem MemStep.job (h : MemStep s t) : JobStep s t := ⟨h.frame.wide (fun _ => List.mem_cons_of_mem _), h.posted⟩

theorem JobStep.ite {c : Prop} [Decidable c] (ht : JobStep s t) (hu : JobStep s u) : JobStep s (if c then t else u) := by
  split
  · exact ht
  · exact hu

end

section

variable (s : State)

theorem State.freeBytes_step (n : Nat) : JobStep s (s.freeBytes n).2 :=
  ⟨(s.freeBytes_keeps n).frame (by decide) (by decide) _, State.postedKept_of_host (s.freeBytes_keeps n .host (by decide))⟩

theorem State.jobInput_step (e : RingEntry) : JobStep s (s.jobInput e).2.2 := by
  have hctx := (s.ctxStart_step (descCtx e.desc)).job
  have hread (u : State) (h : JobStep s u) (off len : Nat) : JobStep s (u.readMem off len).2.2 := h.trans (u.readMem_step off len).job
  unfold State.jobInput
  dsimp only
  split
  · exact hctx
  · split
    · split
      · exact hctx
      · exact hctx.trans (State.freeBytes_step _ _)
    · split
      · split
        · exact hread _ hctx _ _
        · exact (hread _ hctx _ _).trans (State.memDeny_step _ _ _ _).job
      · split
        · exact hread _ hctx _ _
        · exact hread _ hctx _ _

end

end Sys2Proof.Machine
end

section
/-!
SUPPORT. Lanes, contexts and records of the sinter engine (R256-R273).
-/

namespace Sys2Proof.Machine

/-- The registers of the byte counts of compression. -/
def byteCounts : List Nat := [R.SNT_IN_BYTES_LO, R.SNT_IN_BYTES_HI, R.SNT_OUT_BYTES_LO, R.SNT_OUT_BYTES_HI, R.SNT_RAW_BLOCKS]

/-- Registers of block SNT but the byte counts. -/
def inSnt (off : Nat) : Prop := off / 0x10000 = 11 ∧ off ∉ byteCounts

theorem besideMem_of_inSnt {off : Nat} (h : inSnt off) : besideMem off := by
  obtain ⟨h, -⟩ := h
  exact ⟨by omega, by omega⟩

theorem inSnt_of_line {off : Nat} (h : 0xB0040 ≤ off) (h' : off < 0xB1000) : inSnt off := by
  refine ⟨by omega, fun hm => ?_⟩
  have : off ≤ 0xB0034 := by
    simp only [byteCounts, List.mem_cons, List.not_mem_nil, or_false] at hm
    rcases hm with h | h | h | h | h <;> rw [h] <;> decide
  omega

section

variable {s t u : State}

/-- What of a ring is not its entries does not move them. -/
theorem State.postedKept_updRing (f r : Nat) (g : Ring → Ring) (hg : ∀ x, (g x).posted = x.posted) : s.postedKept (s.updRing f r g) := by
  intro f' r'
  have hfn : (s.updRing f r g).fn f' = (if f' = f ∧ f < s.host.fns.length then
      { s.fn f with rings := updAt g (s.fn f).rings r } else s.fn f') := by
    show (updAt _ s.host.fns f).getD f' _ = _
    by_cases hf : f' = f
    · subst hf
      by_cases hl : f' < s.host.fns.length
      · rw [updAt_get_same _ _ _ _ hl, if_pos ⟨rfl, hl⟩]; rfl
      · rw [List.getD_eq_default _ _ (by rw [updAt_length]; omega), if_neg (fun h => hl h.2), State.fn,
          List.getD_eq_default _ _ (by omega)]
    · rw [updAt_get_other _ _ _ _ _ hf, if_neg (fun h => hf h.1)]; rfl
  rw [State.ring, State.ring, hfn]
  split
  · next h =>
    rw [h.1]
    show ((updAt g (s.fn f).rings r).getD r' Ring.reset).posted = _
    by_cases hr : r' = r
    · subst hr
      by_cases hl : r' < (s.fn f).rings.length
      · rw [updAt_get_same _ _ _ _ hl, hg]
      · rw [List.getD_eq_default _ _ (by rw [updAt_length]; omega), List.getD_eq_default _ _ (by omega)]
    · rw [updAt_get_other _ _ _ _ _ hr]
  · rfl

/-- A ring takes what `g` makes of it. -/
theorem State.ring_updRing (f r : Nat) (g : Ring → Ring) (hf : f < s.host.fns.length) (hr : r < (s.fn f).rings.length) :
    (s.updRing f r g).ring f r = g (s.ring f r) := by
  rw [State.ring, State.updRing, State.fn]
  show ((updAt _ s.host.fns f).getD f _).rings.getD r _ = _
  rw [updAt_get_same _ _ _ _ hf]
  exact updAt_get_same _ _ _ _ hr

/-- What has left the hub stays so. -/
def State.obsMore (s t : State) : Prop := ∀ x, x ∈ s.obs → x ∈ t.obs

theorem State.obsMore.trans (h : s.obsMore t) (k : t.obsMore u) : s.obsMore u := fun x hx => k x (h x hx)

theorem State.obsMore_of_eq (h : t.obs = s.obs) : s.obsMore t := fun _ hx => h ▸ hx

theorem State.obsMore.ite {c : Prop} [Decidable c] (ht : s.obsMore t) (hu : s.obsMore u) : s.obsMore (if c then t else u) := by
  split
  · exact ht
  · exact hu

end

section

variable (s : State)

/-! ### Records -/

theorem State.obsMore_obsv (x : Obs) : s.obsMore (s.obsv x) := fun _ hx => List.mem_cons_of_mem _ hx

theorem State.ringSignal_posted (f r : Nat) : s.postedKept (s.ringSignal f r) ∧ s.obsMore (s.ringSignal f r) := by
  have hring (g : Ring → Ring) (hg : ∀ x, (g x).posted = x.posted) : s.postedKept (s.updRing f r g) := State.postedKept_updRing f r g hg
  have hsig (u : State) (v : Nat) : u.obsMore (u.signal f v) :=
    State.obsMore.ite (State.obsMore_of_eq rfl) (State.obsMore_obsv _ _)
  have hset (a : Option Nat) (b : Bool) := hring (fun x => { x with lastSig := a, sigDue := b }) (fun _ => rfl)
  have hwait := hring (fun x => { x with sigDue := true }) (fun _ => rfl)
  have hobs (g : Ring → Ring) : s.obsMore (s.updRing f r g) := State.obsMore_of_eq rfl
  unfold State.ringSignal
  extract_lets md due
  split
  · exact ⟨(hset _ _).trans (State.signal_posted _ _ _), (hobs _).trans (hsig _ _)⟩
  · exact ⟨hwait, hobs _⟩

theorem State.writeWb_posted (f r i : Nat) : s.postedKept (s.writeWb f r i) ∧ s.obsMore (s.writeWb f r i) := by
  obtain ⟨hp, ho⟩ := State.ringSignal_posted (s.obsv (.hostWrite f (s.rd64 (R.HIF_RING_WB_LO f r) (R.HIF_RING_WB_HI f r)) (leBytes 8 (i % 65536)))) f r
  exact ⟨State.postedKept.trans (fun _ _ => rfl) hp, (s.obsMore_obsv _).trans ho⟩

theorem State.sntDone_frame (f i : Nat) :
    Frame [.regs, .host, .obs] inSnt s (s.sntDone f i) ∧ s.postedKept (s.sntDone f i) ∧ s.obsMore (s.sntDone f i) := by
  have hci : ¬ inSnt (F.HIF_RING_CI_CI f 8).off := fun h => by
    have hb : (0xE1018 + 0x1000 * f + 0x40 * 8) / 0x10000 = 11 := h.1
    omega
  have hring (g : Ring → Ring) : Frame [.regs, .host, .obs] inSnt s (s.updRing f 8 g) :=
    ((Keeps.refl [.host] s).updFn f _ (by decide)).frame (by decide) (by decide) _
  unfold State.sntDone
  dsimp only
  have hdone (d : List Nat) : s.postedKept (s.updRing f 8 (fun x => { x with done := d })) := State.postedKept_updRing f 8 _ (fun _ => rfl)
  split
  · exact ⟨hring _, hdone _, State.obsMore_of_eq rfl⟩
  · generalize hv : State.updRing s f 8 _ = v
    have hk : Frame [.regs, .host, .obs] inSnt s v := hv ▸ hring _
    have hpv : s.postedKept v := hv ▸ hdone _
    have hov : v.obs = s.obs := by rw [← hv]; rfl
    generalize runOfDone _ _ _ = c
    obtain ⟨hp, ho⟩ := State.writeWb_posted (v.setF (F.HIF_RING_CI_CI f 8) c) f 8 c
    refine ⟨(hk.setF _ _ (by decide) hci).trans ((State.writeWb_keeps _ _ _ _).frame (by decide) (by decide) _), ?_, ?_⟩
    · exact (hpv.trans (State.postedKept_of_host rfl)).trans hp
    · exact State.obsMore.trans (State.obsMore_of_eq hov) ho

end

/-! ### Lanes and contexts -/

/-- The registers of lanes and contexts. -/
def inLanes (off : Nat) : Prop := 0xB0040 ≤ off ∧ off < 0xB1000

theorem inSnt_of_inLanes {off : Nat} (h : inLanes off) : inSnt off := inSnt_of_line h.1 h.2

section

variable (s : State)

theorem State.setCtx_frame (n st owner : Nat) : Frame [.regs] (fun o => o ≠ R.SNT_CTX_STATE n) s (s.setCtx n st owner) :=
  ((Frame.refl _ _ s).setF _ _ (by decide) (fun h => h rfl)).setF _ _ (by decide) (fun h => h rfl)

theorem State.setCtx_shown (n st owner : Nat) :
    (s.setCtx n st owner).ctxSt n = st % 4 ∧ (s.setCtx n st owner).getF (F.SNT_CTX_STATE_OWNER n) = owner % 16 := by
  constructor
  · refine (getF_setF_other _ _ _ _ (by show 8 + 4 ≤ 32; decide) (Or.inr (Or.inl (by show 0 + 2 ≤ 8; decide)))).trans ?_
    exact getF_setF_same _ _ _ (by show 0 + 2 ≤ 32; decide)
  · exact getF_setF_same _ _ _ (by show 8 + 4 ≤ 32; decide)

/-- A lane and the bit of it in SNT_STATUS. -/
def ofLane (l off : Nat) : Prop := off ≠ R.SNT_LANE l ∧ off ≠ R.SNT_STATUS

theorem State.laneTake_frame (l st ctx stream : Nat) : Frame [.regs, .pwr] (ofLane l) s (s.laneTake l st ctx stream) := by
  have hl : ¬ ofLane l (R.SNT_LANE l) := fun h => h.1 rfl
  exact (((((Frame.refl _ _ s).setF _ _ (by decide) hl).setF _ _ (by decide) hl).setF _ _ (by decide) hl).setF _ _ (by decide)
    (fun h => h.2 rfl)).worked _ (by decide)

theorem State.laneFree_frame (l : Nat) : Frame [.regs, .snt, .pwr] (ofLane l) s (s.laneFree l) ∧ (s.laneFree l).snt.ctxs = s.snt.ctxs := by
  have h0 := ((Frame.refl [.regs, .snt, .pwr] (ofLane l) s).wr (R.SNT_LANE l) 0#32 (by decide) (fun h => h.1 rfl)).setF ⟨R.SNT_STATUS, l, 1⟩ 0
    (by decide) (fun h => h.2 rfl)
  exact ⟨⟨(h0.keeps.snt _ (by decide)).worked _ (by decide), h0.rd⟩, rfl⟩

theorem State.laneTake_shown {l : Nat} (hl : l < 5) (st ctx stream : Nat) :
    (s.laneTake l st ctx stream).laneSt l = st % 4 ∧ (s.laneTake l st ctx stream).getF (F.SNT_LANE_CTX l) = ctx % 256 := by
  have hoff : R.SNT_LANE l ≠ R.SNT_STATUS := by unfold R.SNT_LANE R.SNT_STATUS; omega
  have hst (u : State) (n : Nat) : (u.setF ⟨R.SNT_STATUS, l, 1⟩ n).rd (R.SNT_LANE l) = u.rd (R.SNT_LANE l) := rd_setF_other _ _ _ _ hoff
  have hstream (u : State) (n : Nat) (g : Fld) (hg : g.lo + g.width ≤ 16) : (u.setF (F.SNT_LANE_STREAM l) n).getF g = u.getF g :=
    getF_setF_other _ _ _ _ (by show 16 + 6 ≤ 32; decide) (Or.inr (Or.inl hg))
  have hrest (u : State) (n : Nat) (g : Fld) (ho : g.off = R.SNT_LANE l) (hg : g.lo + g.width ≤ 16) :
      (((u.setF (F.SNT_LANE_STREAM l) n).setF ⟨R.SNT_STATUS, l, 1⟩ 1).worked 12).getF g = u.getF g := by
    refine Eq.trans ?_ (hstream u n g hg)
    show getBits (((u.setF (F.SNT_LANE_STREAM l) n).setF ⟨R.SNT_STATUS, l, 1⟩ 1).rd g.off) _ _ = _
    rw [ho, hst, ← ho]
    rfl
  refine ⟨(hrest _ _ _ rfl (by show 0 + 2 ≤ 16; decide)).trans ?_, (hrest _ _ _ rfl (by show 8 + 8 ≤ 16; decide)).trans ?_⟩
  · refine (getF_setF_other _ _ _ _ (by show 8 + 8 ≤ 32; decide) (Or.inr (Or.inl (by show 0 + 2 ≤ 8; decide)))).trans ?_
    exact getF_setF_same _ _ _ (by show 0 + 2 ≤ 32; decide)
  · exact getF_setF_same _ _ _ (by show 8 + 8 ≤ 32; decide)

theorem State.laneFree_shown {l : Nat} (hl : l < 5) : (s.laneFree l).laneSt l = 0 := by
  have hoff : R.SNT_LANE l ≠ R.SNT_STATUS := by unfold R.SNT_LANE R.SNT_STATUS; omega
  have h0 : ((s.wr (R.SNT_LANE l) 0#32).setF ⟨R.SNT_STATUS, l, 1⟩ 0).rd (R.SNT_LANE l) = 0#32 :=
    (rd_setF_other _ _ _ _ hoff).trans (rd_wr_same _ _ _)
  show getBits (((s.wr (R.SNT_LANE l) 0#32).setF ⟨R.SNT_STATUS, l, 1⟩ 0).rd (R.SNT_LANE l)) 0 2 = 0
  rw [h0]
  decide

theorem State.laneOff_frame (n : Nat) : Frame [.regs, .snt, .pwr] (fun o => ∀ l, l < 5 → ofLane l o) s (s.laneOff n) ∧
    (s.laneOff n).snt.ctxs = s.snt.ctxs := by
  constructor
  · refine Frame.foldl _ _ (Frame.refl _ _ s) (fun u l hl => Frame.ite (fun _ => ?_) (fun _ => Frame.refl _ _ u))
    exact (u.laneFree_frame l).1.mono (fun _ h => h) (fun _ h => h l (List.mem_range.1 hl))
  · unfold State.laneOff
    generalize List.range 5 = x
    induction x generalizing s with
    | nil => rfl
    | cons l x ih =>
      refine (ih _).trans ?_
      dsimp only
      split
      · exact (s.laneFree_frame l).2
      · rfl

/-- The lane of the job in context `n` is free again. -/
theorem State.laneOff_free {l : Nat} (hl : l < 5) (n : Nat) (h : s.laneSt l = 2) (hn : s.getF (F.SNT_LANE_CTX l) = n) : (s.laneOff n).laneSt l = 0 := by
  have hother (u : State) (k : Nat) (hk : l ≠ k) : (u.laneFree k).rd (R.SNT_LANE l) = u.rd (R.SNT_LANE l) := by
    refine (u.laneFree_frame k).1.rd _ ⟨?_, ?_⟩
    · unfold R.SNT_LANE; omega
    · unfold R.SNT_LANE R.SNT_STATUS; omega
  have hgo (x : List Nat) (u : State) (hu : u.laneSt l = 0 ∨ l ∈ x ∧ u.laneSt l = 2 ∧ u.getF (F.SNT_LANE_CTX l) = n) :
      (x.foldl (fun s k => if s.laneSt k = 2 ∧ s.getF (F.SNT_LANE_CTX k) = n then s.laneFree k else s) u).laneSt l = 0 := by
    induction x generalizing u with
    | nil => exact hu.resolve_right (fun h => absurd h.1 (by simp))
    | cons k x ih =>
      refine ih _ ?_
      dsimp only
      by_cases hk : l = k
      · subst hk
        split
        · exact .inl (u.laneFree_shown hl)
        · next hc => exact hu.imp_right (fun h => absurd h.2 hc)
      · have hmem (h : l ∈ k :: x) : l ∈ x := (List.mem_cons.1 h).resolve_left hk
        split
        · rw [State.laneSt, State.getF, State.getF]
          show getBits ((u.laneFree k).rd (R.SNT_LANE l)) _ _ = _ ∨ _ ∧ getBits ((u.laneFree k).rd (R.SNT_LANE l)) _ _ = _ ∧
            getBits ((u.laneFree k).rd (R.SNT_LANE l)) _ _ = _
          rw [hother u k hk]
          exact hu.imp_right (fun h => ⟨hmem h.1, h.2⟩)
        · exact hu.imp_right (fun h => ⟨hmem h.1, h.2⟩)
  exact hgo _ s (.inr ⟨List.mem_range.2 hl, h, hn⟩)

/-! ### Contexts -/

theorem State.ctx_updCtx {n : Nat} (f : SntCtx → SntCtx) (hn : n < s.snt.ctxs.length) : (s.updCtx n f).ctx n = f (s.ctx n) :=
  updAt_get_same _ _ _ _ hn

theorem State.ctxDone_frame (n : Nat) : Frame [.regs, .snt] (fun o => o ≠ R.SNT_CTX_STATE n) s (s.ctxDone n) := by
  obtain ⟨hk, hr⟩ := s.setCtx_frame n 0 0
  exact ⟨(Keeps.snt (l := [.regs, .snt]) (hk.mono (by decide)) _ (by decide)).snt _ (by decide), hr⟩

theorem State.ctxDone_shown {n : Nat} (hn : n < s.snt.ctxs.length) : (s.ctxDone n).ctxSt n = 0 ∧ ((s.ctxDone n).ctx n).job = none := by
  refine ⟨(s.setCtx_shown n 0 0).1, ?_⟩
  have hlen : n < (s.freeCtx n).snt.ctxs.length := by
    show n < (updAt _ s.snt.ctxs n).length
    rwa [updAt_length]
  rw [State.ctxDone, State.ctx_updCtx _ _ hlen]
  exact congrArg SntCtx.job (State.ctx_updCtx (s.setCtx n 0 0) _ hn)

/-! ### Records of steps -/

theorem State.stepRecord_frame (f idx ctx : Nat) (tag : Word) (e : StepEnd) :
    Frame [.regs, .recq, .obs] (fun o => o ∉ [R.SNT_JOBS, R.SNT_OUT_FULL, R.SNT_ERRORS]) s (s.stepRecord f idx ctx tag e) ∧
      s.obsMore (s.stepRecord f idx ctx tag e) := by
  unfold State.stepRecord
  dsimp only
  generalize Obs.hostWrite _ _ _ = x
  have h0 : Frame [.regs, .recq, .obs] (fun o => o ∉ [R.SNT_JOBS, R.SNT_OUT_FULL, R.SNT_ERRORS]) s (s.obsv x) :=
    (Frame.refl _ _ s).obsv _ (by decide)
  have ho := s.obsMore_obsv x
  split
  · exact ⟨h0.bump _ (by decide) (fun h => h (by decide)), ho⟩
  · split
    · exact ⟨h0.bump _ (by decide) (fun h => h (by decide)), ho⟩
    · split
      · exact ⟨h0, ho⟩
      · exact ⟨(h0.bump _ (by decide) (fun h => h (by decide))).emit _ _ _ (by decide), ho⟩

theorem State.stepRecord_ok {f idx ctx : Nat} {tag : Word} {e : StepEnd} (h : e.status = 0) :
    (s.stepRecord f idx ctx tag e).getF F.SNT_JOBS_COUNT = (s.getF F.SNT_JOBS_COUNT + 1) % 2 ^ 32 := by
  unfold State.stepRecord
  dsimp only
  generalize Obs.hostWrite _ _ _ = x
  rw [if_pos h]
  exact getF_bump_same _ _ (by decide)

theorem State.stepRecord_error {f idx ctx : Nat} {tag : Word} {e : StepEnd} (h0 : e.status ≠ 0) (h1 : e.status ≠ 1) (h11 : e.status ≠ 11) :
    (s.stepRecord f idx ctx tag e).getF F.SNT_ERRORS_COUNT = (s.getF F.SNT_ERRORS_COUNT + 1) % 2 ^ 32 := by
  unfold State.stepRecord
  dsimp only
  generalize Obs.hostWrite _ _ _ = x
  rw [if_neg h0, if_neg h1, if_neg h11]
  exact getF_bump_same _ _ (by decide)

theorem inLanes_not_count {o : Nat} (h : inLanes o) : o ∉ [R.SNT_JOBS, R.SNT_OUT_FULL, R.SNT_ERRORS] := by
  obtain ⟨h, -⟩ := h
  simp only [List.mem_cons, List.not_mem_nil, or_false, R.SNT_JOBS, R.SNT_OUT_FULL, R.SNT_ERRORS]
  omega

/-- A step that ends at once: its record, and what of the ring is done. -/
theorem State.endNow_frame (f : Nat) (e : RingEntry) (st : StepEnd) :
    Frame [.regs, .recq, .host, .obs] inLanes s (s.endNow f e st) ∧ s.postedKept (s.endNow f e st) := by
  obtain ⟨h1, -⟩ := s.stepRecord_frame f e.idx (descCtx e.desc) (descTag e.desc) st
  obtain ⟨h2, hp, -⟩ := (s.stepRecord f e.idx (descCtx e.desc) (descTag e.desc) st).sntDone_frame f e.idx
  refine ⟨(h1.mono (by decide) (fun _ => inLanes_not_count)).then h2 (by decide) (fun _ => inSnt_of_inLanes), ?_⟩
  exact (State.postedKept_of_host (h1.keeps .host (by decide))).trans hp

end

end Sys2Proof.Machine
end

section
/-!
Host descriptors of the sinter engine (R263, R268-R271): what taking one changes.
-/

namespace Sys2Proof.Machine

/-- The fields that the sinter engine's rows change. -/
def sntFields : List Field := [.regs, .recq, .mem, .host, .obs, .upd, .pwr, .snt, .freeCtr, .firsts]

section

variable (s : State) {f : Nat} (e : RingEntry)

/-- The lane, the context and the owner of a job that runs. -/
structure JobRuns (t : State) (f n l : Nat) : Prop where
  ctx   : t.ctxSt n = 1
  owner : t.getF (F.SNT_CTX_STATE_OWNER n) = f + 1
  lane  : t.laneSt l = 2
  on    : t.getF (F.SNT_LANE_CTX l) = n

/-- A context that is given to function `f` and a lane that takes it. -/
theorem JobRuns.of_take (u : State) (hf : f < 2) {n l : Nat} (hn : n < 64) (hl : l < 5) (hctx : u.ctxSt n = 1)
    (howner : u.getF (F.SNT_CTX_STATE_OWNER n) = f + 1) : JobRuns (u.laneTake l 2 n 0) f n l := by
  have hoff : ofLane l (R.SNT_CTX_STATE n) := by
    unfold ofLane R.SNT_CTX_STATE R.SNT_LANE R.SNT_STATUS
    omega
  have hrd := (u.laneTake_frame l 2 n 0).rd
  obtain ⟨hst, hon⟩ := u.laneTake_shown hl 2 n 0
  exact ⟨(hrd.getF (F.SNT_CTX_STATE_STATE n) hoff).trans hctx, (hrd.getF (F.SNT_CTX_STATE_OWNER n) hoff).trans howner, hst,
    hon.trans (Nat.mod_eq_of_lt (by omega))⟩

/-- The input of a job is read. -/
theorem State.startJob_free {l : Nat} (h : s.ctxSt (descCtx e.desc) = 0) :
    ∃ j : SntJob, s.startJob f e l =
        (((s.jobInput e).2.2.setCtx (descCtx e.desc) 1 (f + 1)).ctxTake (descCtx e.desc) (some j)).laneTake l 2 (descCtx e.desc) 0 ∧
      j.fn = f ∧ j.idx = e.idx ∧ j.tag = descTag e.desc ∧ j.infl = (descOp e.desc == 1) ∧ j.words = 0 ∧ j.out = 0 :=
  ⟨_, if_neg (fun hne => hne h), rfl, rfl, rfl, rfl, rfl, rfl⟩

theorem Keeps.ctxTake {l : List Field} {s t : State} (h : Keeps l s t) (n : Nat) (j : Option SntJob) (hf : Field.freeCtr ∈ l)
    (hs : Field.snt ∈ l) : Keeps l s (t.ctxTake n j) := by
  intro g hg
  have k := h g hg
  cases g
  case freeCtr => exact absurd hf hg
  case snt => exact absurd hs hg
  all_goals exact k

/-- A context and a lane take a job. -/
theorem State.jobTaken_keeps (n l owner : Nat) (j : Option SntJob) :
    Keeps sntFields s (((s.setCtx n 1 owner).ctxTake n j).laneTake l 2 n 0) :=
  Keeps.trans (Keeps.ctxTake ((s.setCtx_frame n 1 owner).keeps.mono (by decide)) n j (by decide) (by decide))
    ((State.laneTake_frame _ l 2 n 0).keeps.mono (by decide))

theorem State.startJob_result (hf : f < 2) {l n : Nat} (hl : l < 5) (hn : n < 64) (hlen : s.snt.ctxs.length = 64) (hd : descCtx e.desc = n)
    (h : s.ctxSt n = 0) :
    Keeps sntFields s (s.startJob f e l) ∧ s.postedKept (s.startJob f e l) ∧ JobRuns (s.startJob f e l) f n l ∧
      ∃ j, ((s.startJob f e l).ctx n).job = some j ∧ j.fn = f ∧ j.idx = e.idx ∧ j.tag = descTag e.desc ∧
        j.infl = (descOp e.desc == 1) ∧ j.words = 0 ∧ j.out = 0 := by
  subst hd
  obtain ⟨j, hj, hjob⟩ := s.startJob_free e (f := f) (l := l) h
  rw [hj]
  have hin := s.jobInput_step e
  generalize (s.jobInput e).2.2 = u at hin ⊢
  obtain ⟨hst, hown⟩ := u.setCtx_shown (descCtx e.desc) 1 (f + 1)
  have hsnt : u.snt.ctxs = s.snt.ctxs := congrArg SntState.ctxs (hin.frame.keeps .snt (by decide))
  refine ⟨(hin.frame.keeps.mono (by decide)).trans (u.jobTaken_keeps _ _ _ _), hin.posted.trans (fun _ _ => rfl), ?_, j, ?_, hjob⟩
  · exact JobRuns.of_take ((u.setCtx (descCtx e.desc) 1 (f + 1)).ctxTake (descCtx e.desc) (some j)) hf hn hl hst
      (hown.trans (Nat.mod_eq_of_lt (by omega)))
  · refine congrArg SntCtx.job (updAt_get_same (fun _ => (⟨some j, true, u.freeCtr, [], none⟩ : SntCtx)) u.snt.ctxs _ SntCtx.reset ?_)
    rw [hsnt, hlen]
    exact hn

/-- What a RESUME makes of a job (R271). -/
def RingEntry.resumes (e : RingEntry) (fail : Option (Nat × Nat)) (j : SntJob) : SntJob :=
  { j with idx := e.idx, tag := descTag e.desc, dst := descDst e.desc, dstLen := descDstLen e.desc, fail := fail }

theorem State.resumeJob_read (f l : Nat) : ∃ fail, s.resumeJob f e l =
    (((s.ctxRead (descCtx e.desc)).2.setCtx (descCtx e.desc) 1 (f + 1)).updCtx (descCtx e.desc)
      (fun x => { x with job := x.job.map (e.resumes fail) })).laneTake l 2 (descCtx e.desc) 0 := ⟨_, rfl⟩

theorem State.resumeJob_keeps (f l : Nat) : Keeps sntFields s (s.resumeJob f e l) := by
  obtain ⟨fail, hres⟩ := s.resumeJob_read e f l
  rw [hres]
  have hread := s.ctxRead_step (descCtx e.desc)
  generalize (s.ctxRead (descCtx e.desc)).2 = u at hread ⊢
  refine ((hread.frame.keeps.mono (by decide)).trans ?_).trans (Keeps.mono (State.laneTake_frame _ l 2 _ 0).keeps (by decide))
  exact Keeps.snt (l := sntFields) ((u.setCtx_frame _ 1 (f + 1)).keeps.mono (by decide)) _ (by decide)

theorem State.resumeJob_result (hf : f < 2) {l n : Nat} {j : SntJob} (hl : l < 5) (hn : n < 64) (hlen : s.snt.ctxs.length = 64)
    (hd : descCtx e.desc = n) (hj : (s.ctx n).job = some j) :
    s.postedKept (s.resumeJob f e l) ∧ JobRuns (s.resumeJob f e l) f n l ∧
      ∃ k, ((s.resumeJob f e l).ctx n).job = some k ∧ k.dst = descDst e.desc ∧ k.dstLen = descDstLen e.desc ∧ k.words = j.words ∧
        k.out = j.out ∧ k.input = j.input := by
  obtain ⟨fail, hres⟩ := s.resumeJob_read e f l
  rw [hres, hd]
  have hread := s.ctxRead_step n
  generalize (s.ctxRead n).2 = u at hread ⊢
  have hsnt : u.snt = s.snt := hread.frame.keeps .snt (by decide)
  obtain ⟨hst, hown⟩ := u.setCtx_shown n 1 (f + 1)
  have hlen' : n < (u.setCtx n 1 (f + 1)).snt.ctxs.length := by
    show n < u.snt.ctxs.length
    rwa [hsnt, hlen]
  have hgo (g : SntCtx → SntCtx) (k : SntJob) (hk : (g (s.ctx n)).job = some k) :
      s.postedKept (((u.setCtx n 1 (f + 1)).updCtx n g).laneTake l 2 n 0) ∧
      JobRuns (((u.setCtx n 1 (f + 1)).updCtx n g).laneTake l 2 n 0) f n l ∧
      ((((u.setCtx n 1 (f + 1)).updCtx n g).laneTake l 2 n 0).ctx n).job = some k := by
    refine ⟨hread.posted.trans (fun _ _ => rfl), ?_, ?_⟩
    · exact JobRuns.of_take ((u.setCtx n 1 (f + 1)).updCtx n g) hf hn hl hst (hown.trans (Nat.mod_eq_of_lt (by omega)))
    · refine (congrArg SntCtx.job (State.ctx_updCtx (u.setCtx n 1 (f + 1)) g hlen')).trans ?_
      rw [← hk]
      show (g (u.snt.ctxs.getD n SntCtx.reset)).job = _
      rw [hsnt]
      rfl
  obtain ⟨hp, hr, hjob⟩ := hgo (fun x => { x with job := x.job.map (e.resumes fail) }) (e.resumes fail j) (congrArg (Option.map _) hj)
  exact ⟨hp, hr, _, hjob, rfl, rfl, rfl, rfl, rfl⟩

theorem State.releaseJob_result (hf : f < 2) {n : Nat} (hn : n < 64) (hlen : s.snt.ctxs.length = 64) (hd : descCtx e.desc = n) :
    Keeps sntFields s (s.releaseJob f e) ∧ s.postedKept (s.releaseJob f e) ∧ (s.releaseJob f e).ctxSt n = 0 ∧
      ((s.releaseJob f e).ctx n).job = none := by
  have hend := (s.ctxDone n).endNow_frame f e (StepEnd.none_ 11 0)
  obtain ⟨hst, hjob⟩ := s.ctxDone_shown (n := n) (by omega)
  have hdone := s.ctxDone_frame n
  rw [State.releaseJob, hd]
  obtain ⟨hfr, hp⟩ := hend
  refine ⟨(hdone.keeps.mono (by decide)).trans (hfr.keeps.mono (by decide)), State.postedKept.trans (State.postedKept_of_host rfl) hp, ?_, ?_⟩
  · exact (hfr.rd.getF (F.SNT_CTX_STATE_STATE n) ⟨by simp only [F.SNT_CTX_STATE_STATE, R.SNT_CTX_STATE]; omega,
      by simp only [F.SNT_CTX_STATE_STATE, R.SNT_CTX_STATE]; omega⟩).trans hst
  · rw [State.ctx, hfr.keeps .snt (by decide)]
    exact hjob

/-- A descriptor leaves its ring. -/
theorem State.taken_posted {rest : List RingEntry} {e : RingEntry} (hf : f < s.host.fns.length) (hr : (s.fn f).rings.length = 10)
    (h : (s.ring f 8).posted = e :: rest) : ((s.updRing f 8 (fun x => { x with posted := x.posted.drop 1 })).ring f 8).posted = rest := by
  rw [State.ring_updRing _ _ _ hf (by omega)]
  show (s.ring f 8).posted.drop 1 = rest
  rw [h]
  rfl

theorem State.takeDesc_off {want : Nat → Bool} (h : s.ringOn f 8 = false ∨ s.domOn 12 = false ∨ s.halted = true ∨ (s.ring f 8).posted = []) :
    s.takeDesc f want = s := by
  unfold State.takeDesc
  split
  · next hc =>
    simp only [Bool.and_eq_true, Bool.not_eq_true'] at hc
    obtain ⟨⟨hon, hdom⟩, hh⟩ := hc
    rcases h with h | h | h | h
    · rw [hon] at h; exact absurd h (by decide)
    · rw [hdom] at h; exact absurd h (by decide)
    · rw [hh] at h; exact absurd h (by decide)
    · rw [h]
  · rfl

theorem State.takeDesc_other {want : Nat → Bool} {rest : List RingEntry} (h : (s.ring f 8).posted = e :: rest) (hw : want (descOp e.desc) = false) :
    s.takeDesc f want = s := by
  unfold State.takeDesc
  split
  · rw [h]
    exact if_neg (ne_true_of_eq_false hw)
  · rfl

theorem State.takeDesc_head {want : Nat → Bool} {rest : List RingEntry} (hon : s.ringOn f 8 = true) (hdom : s.domOn 12 = true)
    (hh : s.halted = false) (h : (s.ring f 8).posted = e :: rest) (hw : want (descOp e.desc) = true) :
    s.takeDesc f want = s.runDesc f e := by
  unfold State.takeDesc
  rw [hon, hdom, hh, h]
  exact if_pos hw

/-- What taking the descriptor `e` of function `f`, which names context `n`, changes. -/
structure DescTaken (s t : State) (f n : Nat) (e : RingEntry) (rest : List RingEntry) : Prop where
  keeps    : Keeps sntFields s t
  bad      : s.descOk e.desc = false → Keeps [.regs, .recq, .host, .obs] s t ∧ (t.ring f 8).posted = rest ∧
    (∀ k, k < 64 → t.ctxSt k = s.ctxSt k) ∧ t.getF F.SNT_ERRORS_COUNT = (s.getF F.SNT_ERRORS_COUNT + 1) % 2 ^ 32
  starts   : ∀ l : Fin 5, s.descOk e.desc = true → descOp e.desc ≤ 1 → s.hostLane (descOp e.desc == 1) = some l.val → s.ctxSt n = 0 →
    (t.ring f 8).posted = rest ∧ JobRuns t f n l ∧ ∃ j, (t.ctx n).job = some j ∧ j.fn = f ∧ j.idx = e.idx ∧ j.tag = descTag e.desc ∧
      j.infl = (descOp e.desc == 1) ∧ j.words = 0 ∧ j.out = 0
  waits    : s.descOk e.desc = true → descOp e.desc ≤ 1 → s.hostLane (descOp e.desc == 1) = none → t = s
  resumes  : ∀ (l : Fin 5) (j : SntJob), s.descOk e.desc = true → descOp e.desc = 2 → (s.ctx n).job = some j →
    s.hostLane j.infl = some l.val → s.suspRefusal f n = none → (t.ring f 8).posted = rest ∧ JobRuns t f n l ∧
      ∃ k, (t.ctx n).job = some k ∧ k.dst = descDst e.desc ∧ k.dstLen = descDstLen e.desc ∧ k.words = j.words ∧ k.out = j.out ∧ k.input = j.input
  releases : s.descOk e.desc = true → descOp e.desc = 3 → s.suspRefusal f n = none →
    (t.ring f 8).posted = rest ∧ t.ctxSt n = 0 ∧ (t.ctx n).job = none

/-- The ring of host jobs without its oldest descriptor. -/
def State.descGone (s : State) (f : Nat) : State := s.updRing f 8 (fun x => { x with posted := x.posted.drop 1 })

theorem State.runDesc_bad (h : s.descOk e.desc = false) (hb : e.bad = false) :
    s.runDesc f e = (s.descGone f).endNow f e (StepEnd.none_ 3 0) := by
  unfold State.runDesc
  dsimp only
  rw [hb, h]
  rfl

theorem State.runDesc_start (h : s.descOk e.desc = true) (hb : e.bad = false) (hop : descOp e.desc ≤ 1) :
    s.runDesc f e = match s.hostLane (descOp e.desc == 1) with | some l => (s.descGone f).startJob f e l | none => s := by
  unfold State.runDesc
  dsimp only
  rw [hb, h]
  rcases Nat.le_one_iff_eq_zero_or_eq_one.1 hop with ho | ho <;> rw [ho] <;> rfl

theorem State.runDesc_resume (h : s.descOk e.desc = true) (hb : e.bad = false) (hop : descOp e.desc = 2) :
    s.runDesc f e = match s.suspRefusal f (descCtx e.desc) with
      | some st => (s.descGone f).endNow f e (StepEnd.none_ st 0)
      | none => match s.hostLane (match (s.ctx (descCtx e.desc)).job with | some j => j.infl | none => false) with
        | some l => (s.descGone f).resumeJob f e l
        | none => s := by
  unfold State.runDesc
  dsimp only
  rw [hb, h, hop]
  rfl

theorem State.runDesc_release (h : s.descOk e.desc = true) (hb : e.bad = false) (hop : descOp e.desc = 3) :
    s.runDesc f e = match s.suspRefusal f (descCtx e.desc) with
      | some st => (s.descGone f).endNow f e (StepEnd.none_ st 0)
      | none => (s.descGone f).releaseJob f e := by
  unfold State.runDesc
  dsimp only
  rw [hb, h, hop]
  rfl

theorem State.descOk_op (h : s.descOk e.desc = true) : descOp e.desc ≤ 1 ∨ descOp e.desc = 2 ∨ descOp e.desc = 3 := by
  by_contra hne
  refine absurd h (ne_true_of_eq_false ?_)
  unfold State.descOk
  split
  · omega
  · omega
  · omega
  · omega
  · rfl

/-- The end of a lookup for the lane of a host job. -/
theorem State.hostLane_lt {b : Bool} {l : Nat} (h : s.hostLane b = some l) : l < 5 := by
  unfold State.hostLane at h
  split at h
  · split at h
    · obtain rfl := Option.some.inj h; decide
    · exact absurd h (by simp)
  · split at h
    · exact absurd h (by simp)
    · have := List.mem_range.1 (List.mem_of_find?_eq_some h)
      omega

end

section

variable {s u : State} {f n : Nat} {e : RingEntry} {rest : List RingEntry}

/-- `u` is `s` with the descriptor gone from its ring. -/
theorem DescTaken.of_bad (hf : f < 2) (hu : Keeps [.host] s u) (hp : (u.ring f 8).posted = rest) (hbad : s.descOk e.desc = false) :
    DescTaken s (u.endNow f e (StepEnd.none_ 3 0)) f n e rest := by
  obtain ⟨hfr, hpk⟩ := u.endNow_frame f e (StepEnd.none_ 3 0)
  have hregs : u.regs = s.regs := hu .regs (by decide)
  have herr : (u.endNow f e (StepEnd.none_ 3 0)).getF F.SNT_ERRORS_COUNT = (s.getF F.SNT_ERRORS_COUNT + 1) % 2 ^ 32 := by
    have hd := (State.sntDone_frame (u.stepRecord f e.idx (descCtx e.desc) (descTag e.desc) (StepEnd.none_ 3 0)) f e.idx).1.rd
    rw [← State.getF_of_regs hregs]
    exact (hd.getF F.SNT_ERRORS_COUNT ⟨by decide, by decide⟩).trans (u.stepRecord_error (by decide) (by decide) (by decide))
  have hk : Keeps [.regs, .recq, .host, .obs] s (u.endNow f e (StepEnd.none_ 3 0)) := (hu.mono (by decide)).trans (hfr.keeps)
  have hctx (k : Nat) (hk : k < 64) : (u.endNow f e (StepEnd.none_ 3 0)).ctxSt k = s.ctxSt k := by
    have hoff : inLanes (F.SNT_CTX_STATE_STATE k).off := by
      simp only [F.SNT_CTX_STATE_STATE, R.SNT_CTX_STATE, inLanes]
      omega
    exact (hfr.rd.getF (F.SNT_CTX_STATE_STATE k) hoff).trans (State.getF_of_regs hregs _)
  refine ⟨hk.mono (by decide), fun _ => ⟨hk, (hpk f 8).trans hp, hctx, herr⟩, ?_, ?_, ?_, ?_⟩
  all_goals intros; simp_all

/-- A function has a ring of host jobs whose oldest descriptor is `e`, and `u` is `s` with that gone. -/
structure DescGone (s u : State) (f n : Nat) (e : RingEntry) (rest : List RingEntry) : Prop where
  fn     : f < 2
  keeps  : Keeps [.host] s u
  posted : (u.ring f 8).posted = rest
  ctxs   : s.snt.ctxs.length = 64
  ctx    : descCtx e.desc = n
  lt     : n < 64

theorem DescGone.ended (h : DescGone s u f n e rest) (st : StepEnd) : Keeps sntFields s (u.endNow f e st) :=
  (h.keeps.mono (by decide)).trans ((u.endNow_frame f e st).1.keeps.mono (by decide))

theorem DescGone.snt (h : DescGone s u f n e rest) : u.snt = s.snt := h.keeps .snt (by decide)

theorem DescGone.ctxSt (h : DescGone s u f n e rest) : u.ctxSt n = s.ctxSt n := State.getF_of_regs (h.keeps .regs (by decide)) _

theorem DescGone.start (h : DescGone s u f n e rest) (hok : s.descOk e.desc = true) (hop : descOp e.desc ≤ 1) {l : Nat}
    (hl : s.hostLane (descOp e.desc == 1) = some l) : DescTaken s (u.startJob f e l) f n e rest := by
  have hno (p : Prop) (h2 : 2 ≤ descOp e.desc) : p := absurd hop (by omega)
  have hstart (h0 : s.ctxSt n = 0) := u.startJob_result e h.fn (s.hostLane_lt hl) h.lt (by rw [h.snt]; exact h.ctxs) h.ctx (h.ctxSt.trans h0)
  refine ⟨?_, fun hb => absurd hok (ne_true_of_eq_false hb), fun l' _ _ hl' h0 => ?_, fun _ _ hn => ?_, fun _ _ _ h2 => hno _ (by omega),
    fun _ h3 => hno _ (by omega)⟩
  · by_cases h0 : s.ctxSt n = 0
    · exact (h.keeps.mono (by decide)).trans (hstart h0).1
    · have hend : u.startJob f e l = u.endNow f e (StepEnd.none_ 10 0) := if_pos (by rw [h.ctx, h.ctxSt]; exact h0)
      rw [hend]
      exact h.ended _
  · obtain rfl : l = l'.val := Option.some.inj (hl.symm.trans hl')
    obtain ⟨-, hp, hr, hj⟩ := hstart h0
    exact ⟨(hp f 8).trans h.posted, hr, hj⟩
  · rw [hl] at hn
    exact absurd hn (by simp)

/-- Where a descriptor names a suspended context of another function, or one that is not suspended, its step ends at once. -/
theorem DescGone.refused (h : DescGone s u f n e rest) (hok : s.descOk e.desc = true) (hop : 2 ≤ descOp e.desc) {st : Nat}
    (hr : s.suspRefusal f n = some st) : DescTaken s (u.endNow f e (StepEnd.none_ st 0)) f n e rest := by
  have hno {p : Prop} (h0 : s.suspRefusal f n = none) : p := absurd (hr.symm.trans h0) (by simp)
  exact ⟨h.ended _, fun hb => absurd hok (ne_true_of_eq_false hb), fun _ _ ho => absurd ho (by omega), fun _ ho => absurd ho (by omega),
    fun _ _ _ _ _ _ h0 => hno h0, fun _ _ h0 => hno h0⟩

/-- A RESUME that finds no lane stays in its ring. -/
theorem DescTaken.stays (hok : s.descOk e.desc = true) (hop : descOp e.desc ≤ 1 ∧ s.hostLane (descOp e.desc == 1) = none ∨
    descOp e.desc = 2 ∧ ∀ j, (s.ctx n).job = some j → s.hostLane j.infl = none) : DescTaken s s f n e rest := by
  refine ⟨Keeps.refl _ s, fun hb => absurd hok (ne_true_of_eq_false hb), fun l _ ho hl => ?_, fun _ _ _ => rfl, fun l j _ ho hj hl => ?_,
    fun _ ho => by omega⟩
  · obtain ⟨-, hn⟩ | ⟨h2, -⟩ := hop
    · exact absurd (hn.symm.trans hl) (by simp)
    · omega
  · obtain ⟨h1, -⟩ | ⟨-, hn⟩ := hop
    · omega
    · exact absurd ((hn j hj).symm.trans hl) (by simp)

/-- A RESUME of a suspended context whose job finds a lane. -/
theorem DescGone.resume (h : DescGone s u f n e rest) (hok : s.descOk e.desc = true) (hop : descOp e.desc = 2) {l : Nat} {j : SntJob}
    (hj : (s.ctx n).job = some j) (hl : s.hostLane j.infl = some l) : DescTaken s (u.resumeJob f e l) f n e rest := by
  have hju : (u.ctx n).job = some j := by rw [State.ctx, h.snt]; exact hj
  obtain ⟨hp, hr, hjob⟩ := u.resumeJob_result e h.fn (s.hostLane_lt hl) h.lt (by rw [h.snt]; exact h.ctxs) h.ctx hju
  refine ⟨(h.keeps.mono (by decide)).trans (u.resumeJob_keeps e f l), fun hb => absurd hok (ne_true_of_eq_false hb), fun _ _ ho => by omega,
    fun _ ho => by omega, fun l' j' _ _ hj' hl' _ => ?_, fun _ ho => by omega⟩
  obtain rfl : j = j' := Option.some.inj (hj.symm.trans hj')
  obtain rfl : l = l'.val := Option.some.inj (hl.symm.trans hl')
  exact ⟨(hp f 8).trans h.posted, hr, hjob⟩

theorem DescGone.release (h : DescGone s u f n e rest) (hok : s.descOk e.desc = true) (hop : descOp e.desc = 3) :
    DescTaken s (u.releaseJob f e) f n e rest := by
  obtain ⟨hk, hp, hr⟩ := u.releaseJob_result e h.fn h.lt (by rw [h.snt]; exact h.ctxs) h.ctx
  exact ⟨(h.keeps.mono (by decide)).trans hk, fun hb => absurd hok (ne_true_of_eq_false hb), fun _ _ ho => by omega, fun _ ho => by omega,
    fun _ _ _ ho => by omega, fun _ _ _ => ⟨(hp f 8).trans h.posted, hr⟩⟩

/-- A RESUME of a suspended context that holds no job. -/
theorem DescGone.resumeNone (h : DescGone s u f n e rest) (hok : s.descOk e.desc = true) (hop : descOp e.desc = 2) (l : Nat)
    (hj : (s.ctx n).job = none) : DescTaken s (u.resumeJob f e l) f n e rest := by
  refine ⟨(h.keeps.mono (by decide)).trans (u.resumeJob_keeps e f l), fun hb => absurd hok (ne_true_of_eq_false hb), fun _ _ ho => by omega,
    fun _ ho => by omega, fun l' j' _ _ hj' _ _ => ?_, fun _ ho => by omega⟩
  exact absurd (hj.symm.trans hj') (by simp)

theorem State.runDesc_result (h : DescGone s (s.descGone f) f n e rest) (hb : e.bad = false) : DescTaken s (s.runDesc f e) f n e rest := by
  cases hok : s.descOk e.desc
  · rw [s.runDesc_bad e hok hb]
    exact DescTaken.of_bad h.fn h.keeps h.posted hok
  · rcases s.descOk_op e hok with hop | hop | hop
    · rw [s.runDesc_start e hok hb hop]
      cases hl : s.hostLane (descOp e.desc == 1)
      · exact DescTaken.stays hok (.inl ⟨hop, hl⟩)
      · exact h.start hok hop hl
    · rw [s.runDesc_resume e hok hb hop, h.ctx]
      cases hr : s.suspRefusal f n
      · cases hj : (s.ctx n).job with
        | none =>
          dsimp only
          split
          · exact h.resumeNone hok hop _ hj
          · exact DescTaken.stays hok (.inr ⟨hop, fun j hj' => absurd (hj.symm.trans hj') (by simp)⟩)
        | some j =>
          dsimp only
          split
          · next l hl => exact h.resume hok hop hj hl
          · next hl => exact DescTaken.stays hok (.inr ⟨hop, fun j' hj' => by rwa [← Option.some.inj (hj.symm.trans hj')]⟩)
      · exact h.refused hok (by omega) hr
    · rw [s.runDesc_release e hok hb hop, h.ctx]
      cases hr : s.suspRefusal f n
      · exact h.release hok hop
      · exact h.refused hok (by omega) hr

end

end Sys2Proof.Machine

namespace Sys2Proof
open Machine

/-- Settles O49: every row takes the head of ring 8 by the same rule; the cases are those of the descriptor's check and OP. -/
theorem sinterTakesDescriptors : Obligations.SinterTakesDescriptors := by
  unfold Obligations.SinterTakesDescriptors
  refine ⟨fun f s h => ?_, fun f s e rest h => ?_, fun f c s e rest n hon hdom hh hp hb hfns hrings hctxs hn hd hc => ?_⟩
  · have hoff (want : Nat → Bool) : Host.Outcome.next (s.takeDesc f want) = (.next s : Host.Outcome State Fault Refusal) :=
      congrArg _ (s.takeDesc_off h)
    exact ⟨hoff _, hoff _, hoff _, hoff _, hoff _⟩
  · have hother (k : Nat) (hk : descOp e.desc ≠ k) :
        Host.Outcome.next (s.takeDesc f (fun o => o == k)) = (.next s : Host.Outcome State Fault Refusal) :=
      congrArg _ (s.takeDesc_other e h (beq_eq_false_iff_ne.2 hk))
    exact ⟨hother 0, hother 1, hother 2, hother 3⟩
  · have hexec : exec c s = .next (s.runDesc f e) := by
      have hhead (want : Nat → Bool) (hw : want (descOp e.desc) = true) :
          Host.Outcome.next (s.takeDesc f want) = (.next (s.runDesc f e) : Host.Outcome State Fault Refusal) :=
        congrArg _ (s.takeDesc_head e hon hdom hh hp hw)
      rcases hc with rfl | ⟨rfl, ho⟩ | ⟨rfl, ho⟩ | ⟨rfl, ho⟩ | ⟨rfl, ho⟩
      · exact hhead _ rfl
      all_goals exact hhead _ (by rw [ho]; rfl)
    have hgone : DescGone s (s.descGone f) f n e rest :=
      ⟨f.isLt, (Keeps.refl _ s).updFn _ _ (by decide), s.taken_posted (by rw [hfns]; exact f.isLt) hrings hp, hctxs, hd, hn⟩
    obtain ⟨hk, hbad, hstart, hwait, hres, hrel⟩ := State.runDesc_result hgone hb
    refine ⟨_, hexec, hk, hbad, fun l hok hop hl h0 => ?_, hwait, fun l j hok hop hj hl hr => ?_, hrel⟩
    · obtain ⟨hposted, ⟨hctx, howner, hlane, hon⟩, hjob⟩ := hstart l hok hop hl h0
      exact ⟨hposted, hctx, howner, hlane, hon, hjob⟩
    · obtain ⟨hposted, ⟨hctx, -, hlane, hon⟩, hjob⟩ := hres l j hok hop hj hl hr
      exact ⟨hposted, hctx, hlane, hon, hjob⟩

end Sys2Proof
end

section
/-!
Steps of host jobs in the sinter engine (R269-R273): their output, their end, and what stops them.
-/

namespace Sys2Proof.Machine

section

variable (s : State)

/-! ### Output -/

theorem State.partFails_step (part : Bool) (wa : Nat) : MemStep s (s.partFails part wa).2 := by
  unfold State.partFails
  split
  · exact s.memReadWord_step wa
  · exact MemStep.refl s

theorem State.partsFail_step (a n : Nat) : MemStep s (s.partsFail a n).2 := by
  unfold State.partsFail
  dsimp only
  split
  · exact s.partFails_step _ _
  · exact (s.partFails_step _ _).trans (State.partFails_step _ _ _)

/-- The statuses of an output that is denied or fails. -/
def badOut (e : Option (Nat × Nat)) : Prop := ∀ x, e = some x → x.1 = 4 ∨ x.1 = 5

theorem State.putOut_step (f dst : Nat) (b : List Byte) : MemStep s (s.putOut f dst b).2.2 ∧ badOut (s.putOut f dst b).2.1 := by
  unfold State.putOut
  extract_lets a n
  have hpart := s.partsFail_step a n
  split
  · exact ⟨MemStep.refl s, fun _ h => absurd h (by simp)⟩
  · split
    · exact ⟨MemStep.of_frame ((Frame.refl [.obs] _ s).obsv _ (by decide)) (by decide) (by decide), fun _ h => absurd h (by simp)⟩
    · dsimp only
      split
      · refine ⟨hpart.trans (State.memPut_step _ _ _), fun x h => ?_⟩
        rw [← Option.some.inj h]
        exact .inr rfl
      · split
        · refine ⟨(hpart.trans (State.memPut_step _ _ _)).trans (State.memDeny_step _ _ _ _), fun x h => ?_⟩
          rw [← Option.some.inj h]
          exact .inl rfl
        · exact ⟨hpart.trans (State.memPut_step _ _ _), fun _ h => absurd h (by simp)⟩

theorem SntJob.blkEnd_bad (j : SntJob) {e : Nat × Nat} (he : e.1 = 4 ∨ e.1 = 5) : (j.blkEnd e).1 = 4 ∨ (j.blkEnd e).1 = 5 := by
  unfold SntJob.blkEnd
  split
  · exact .inl rfl
  · exact he

theorem SntJob.blkThen_step {j : SntJob} {x : Nat × Option (Nat × Nat) × State} {next : State → Option (Nat × Nat) × State}
    (hx : MemStep s x.2.2) (hb : badOut x.2.1) (hn : MemStep x.2.2 (next x.2.2).2 ∧ badOut (next x.2.2).1) :
    MemStep s (j.blkThen x next).2 ∧ badOut (j.blkThen x next).1 := by
  unfold SntJob.blkThen
  split
  · next e he =>
    refine ⟨hx, fun y hy => ?_⟩
    rw [← Option.some.inj hy]
    exact j.blkEnd_bad (hb e he)
  · exact ⟨hx.trans hn.1, hn.2⟩

theorem State.putBlks_cons (j : SntJob) (k : Nat) (d : BlkDesc) (l : List BlkDesc) : s.putBlks j k (d :: l) =
    if k < j.blkMax then j.blkThen (s.putOut j.fn (blkAt j k) d.bytes) (fun s => s.putBlks j (k + 1) l) else (none, s) := rfl

theorem State.putBlks_step (s : State) (j : SntJob) (k : Nat) (l : List BlkDesc) :
    MemStep s (s.putBlks j k l).2 ∧ badOut (s.putBlks j k l).1 := by
  have hnone (u : State) : MemStep u u ∧ badOut none := ⟨MemStep.refl u, fun _ h => absurd h (by simp)⟩
  induction l generalizing s k with
  | nil => exact hnone s
  | cons d l ih =>
    rw [State.putBlks_cons]
    split
    · obtain ⟨hm, hb⟩ := s.putOut_step j.fn (blkAt j k) d.bytes
      exact SntJob.blkThen_step s hm hb (ih _ _)
    · exact hnone s

theorem State.putBlks_none {j : SntJob} (h : j.blkMax = 0) (k : Nat) (l : List BlkDesc) : s.putBlks j k l = (none, s) := by
  cases l with
  | nil => rfl
  | cons d l => exact if_neg (by omega)

theorem State.sntCount_frame (inp out raw : Nat) : Frame [.regs] (fun o => o ∉ byteCounts) s (s.sntCount inp out raw) := by
  have hn {o : Nat} (h : o ∈ byteCounts) : ¬ o ∉ byteCounts := fun hn => hn h
  have h64 := ((Frame.refl [.regs] (fun o => o ∉ byteCounts) s).wr64 R.SNT_IN_BYTES_LO R.SNT_IN_BYTES_HI
    (s.rd64 R.SNT_IN_BYTES_LO R.SNT_IN_BYTES_HI + inp) (by decide) (hn (by decide)) (hn (by decide)))
  unfold State.sntCount
  extract_lets u v
  have hv : Frame [.regs] (fun o => o ∉ byteCounts) s v := h64.wr64 _ _ _ (by decide) (hn (by decide)) (hn (by decide))
  exact hv.setF F.SNT_RAW_BLOCKS_COUNT _ (by decide) (hn (by decide))

theorem State.stepCount_frame (j : SntJob) (o : StepOut) : Frame [.regs] (fun o => o ∉ byteCounts) s (s.stepCount j o) :=
  Frame.ite (fun _ => Frame.refl _ _ s) (fun _ => s.sntCount_frame _ _ _)

/-! ### The end of a step -/

/-- What the end of a step with status `st` in context `n` leaves. -/
structure StepEnded (s t : State) (n l st : Nat) : Prop where
  keeps : Keeps sntFields s t
  lane  : s.laneSt l = 2 → s.getF (F.SNT_LANE_CTX l) = n → t.laneSt l = 0
  full  : st = 1 → t.ctxSt n = 2 ∧ (t.ctx n).job = (s.ctx n).job
  done  : st ≠ 1 → t.ctxSt n = 0 ∧ (t.ctx n).job = none
  obs   : s.obsMore t
  jobs  : st = 0 → t.getF F.SNT_JOBS_COUNT = (s.getF F.SNT_JOBS_COUNT + 1) % 2 ^ 32

theorem ctx_ne_lane {n l : Nat} (hl : l < 5) : R.SNT_LANE l ≠ R.SNT_CTX_STATE n := by
  unfold R.SNT_CTX_STATE R.SNT_LANE
  omega

/-- The record of a step and what of its ring is done. -/
def State.stepNoted (s : State) (n : Nat) (j : SntJob) (e : StepEnd) : State := (s.stepRecord j.fn j.idx n j.tag e).sntDone j.fn j.idx

theorem State.stepNoted_frame (n : Nat) (j : SntJob) (e : StepEnd) :
    Frame [.regs, .recq, .host, .obs] inLanes s (s.stepNoted n j e) ∧ s.obsMore (s.stepNoted n j e) ∧
      (e.status = 0 → (s.stepNoted n j e).getF F.SNT_JOBS_COUNT = (s.getF F.SNT_JOBS_COUNT + 1) % 2 ^ 32) := by
  obtain ⟨h1, ho1⟩ := s.stepRecord_frame j.fn j.idx n j.tag e
  obtain ⟨h2, -, ho2⟩ := (s.stepRecord j.fn j.idx n j.tag e).sntDone_frame j.fn j.idx
  refine ⟨(h1.mono (by decide) (fun _ => inLanes_not_count)).then h2 (by decide) (fun _ => inSnt_of_inLanes), ho1.trans ho2, fun h0 => ?_⟩
  exact (h2.rd.getF F.SNT_JOBS_COUNT ⟨by decide, by decide⟩).trans (s.stepRecord_ok h0)

theorem State.stepEnd_eq (n : Nat) (j : SntJob) (e : StepEnd) : s.stepEnd n j e =
    if e.status = 1 then ((s.stepNoted n j e).laneOff n).setCtx n 2 (j.fn + 1) else ((s.stepNoted n j e).laneOff n).ctxDone n := rfl

theorem State.stepEnd_result {n l : Nat} (j : SntJob) (e : StepEnd) (hn : n < 64) (hl : l < 5) (hlen : s.snt.ctxs.length = 64) :
    StepEnded s (s.stepEnd n j e) n l e.status := by
  obtain ⟨hfr, hobs, hjobs⟩ := s.stepNoted_frame n j e
  rw [State.stepEnd_eq]
  generalize s.stepNoted n j e = u at hfr hobs hjobs ⊢
  have hlane : inLanes (R.SNT_LANE l) := by unfold inLanes R.SNT_LANE; omega
  have hfree (hst : s.laneSt l = 2) (hon : s.getF (F.SNT_LANE_CTX l) = n) :=
    u.laneOff_free hl n ((hfr.rd.getF (F.SNT_LANE_STATE l) hlane).trans hst) ((hfr.rd.getF (F.SNT_LANE_CTX l) hlane).trans hon)
  obtain ⟨hoff, hctxs⟩ := u.laneOff_frame n
  have hjobs' : (u.laneOff n).getF F.SNT_JOBS_COUNT = u.getF F.SNT_JOBS_COUNT := by
    refine hoff.rd.getF F.SNT_JOBS_COUNT (fun k hk => ⟨?_, by decide⟩)
    unfold R.SNT_LANE
    show 0xB0014 ≠ _
    omega
  have hk : Keeps sntFields s (u.laneOff n) := (hfr.keeps.mono (by decide)).trans (hoff.keeps.mono (by decide))
  have hobs' : s.obsMore (u.laneOff n) := hobs.trans (State.obsMore_of_eq (hoff.keeps .obs (by decide)))
  have hctxs' : (u.laneOff n).snt.ctxs = s.snt.ctxs := hctxs.trans (congrArg SntState.ctxs (hfr.keeps .snt (by decide)))
  generalize u.laneOff n = v at hfree hoff hjobs' hk hobs' hctxs' ⊢
  have hjob : F.SNT_JOBS_COUNT.off ≠ R.SNT_CTX_STATE n := by
    unfold R.SNT_CTX_STATE
    show 0xB0014 ≠ _
    omega
  have hend {w : State} {lf : List Field} (hw : Frame lf (fun o => o ≠ R.SNT_CTX_STATE n) v w) (hlf : ∀ f, f ∈ lf → f ∈ sntFields) (ho : Field.obs ∉ lf)
      (hfull : e.status = 1 → w.ctxSt n = 2 ∧ (w.ctx n).job = (s.ctx n).job)
      (hdone : e.status ≠ 1 → w.ctxSt n = 0 ∧ (w.ctx n).job = none) : StepEnded s w n l e.status := by
    refine ⟨hk.trans (hw.keeps.mono hlf), fun hst hon => ?_, hfull, hdone, hobs'.trans (State.obsMore_of_eq (hw.keeps .obs ho)), fun h0 => ?_⟩
    · exact (hw.rd.getF (F.SNT_LANE_STATE l) (ctx_ne_lane hl)).trans (hfree hst hon)
    · exact (hw.rd.getF _ hjob).trans (hjobs'.trans (hjobs h0))
  split
  · next h1 =>
    refine hend (v.setCtx_frame n 2 (j.fn + 1)) (by decide) (by decide) (fun _ => ⟨(v.setCtx_shown n 2 (j.fn + 1)).1, ?_⟩) (fun h => absurd h1 h)
    show (v.snt.ctxs.getD n SntCtx.reset).job = _
    rw [hctxs']
    rfl
  · next h1 =>
    exact hend (v.ctxDone_frame n) (by decide) (by decide) (fun h => absurd h h1) (fun _ => v.ctxDone_shown (by rw [hctxs', hlen]; exact hn))

end

/-- Lane `l` has the host job of context `n`. -/
structure LaneHas (s : State) (n l : Nat) : Prop where
  ctxs : s.snt.ctxs.length = 64
  lane : s.laneSt l = 2
  on   : s.getF (F.SNT_LANE_CTX l) = n
  n_lt : n < 64
  l_lt : l < 5

section

variable {s t : State} {n l : Nat}

theorem LaneHas.of_frame (h : LaneHas s n l) {lf : List Field} (hf : Frame lf inLanes s t) (hc : t.snt.ctxs.length = s.snt.ctxs.length) : LaneHas t n l := by
  have hlane : inLanes (R.SNT_LANE l) := by
    have := h.l_lt
    unfold inLanes R.SNT_LANE
    omega
  exact ⟨hc.trans h.ctxs, (hf.rd.getF (F.SNT_LANE_STATE l) hlane).trans h.lane, (hf.rd.getF (F.SNT_LANE_CTX l) hlane).trans h.on, h.n_lt, h.l_lt⟩

theorem LaneHas.of_mem (h : LaneHas s n l) (hm : MemStep s t) : LaneHas t n l :=
  h.of_frame (hm.frame.mono (fun _ h => h) (fun _ ho => besideMem_of_inSnt (inSnt_of_inLanes ho)))
    (congrArg (fun x => List.length (SntState.ctxs x)) (hm.frame.keeps .snt (by decide)))

theorem LaneHas.of_count (h : LaneHas s n l) (j : SntJob) (o : StepOut) : LaneHas (s.stepCount j o) n l :=
  h.of_frame ((s.stepCount_frame j o).mono (fun _ h => h) (fun _ ho => (inSnt_of_inLanes ho).2))
    (congrArg (fun x => List.length (SntState.ctxs x)) ((s.stepCount_frame j o).keeps .snt (by decide)))

theorem LaneHas.stepEnd (h : LaneHas s n l) (j : SntJob) (e : StepEnd) : StepEnded s (s.stepEnd n j e) n l e.status :=
  s.stepEnd_result j e h.n_lt h.l_lt h.ctxs

/-! ### Statuses -/

theorem SntJob.stepTo_status (j : SntJob) (space st loc : Nat) : (j.stepTo space st loc).fin.status = st := by
  unfold SntJob.stepTo
  split <;> rfl

theorem SntJob.cutStep_status (j : SntJob) (v space st loc : Nat) : (j.cutStep v space st loc).fin.status = st := by
  unfold SntJob.cutStep
  split <;> rfl

theorem State.stopStep_status (s : State) (j : SntJob) (v st : Nat) : (s.stopStep j v st).fin.status = st := by
  unfold State.stopStep
  dsimp only
  split
  · rfl
  · split
    · exact j.cutStep_status _ _ _ _
    · exact j.cutStep_status _ _ _ _

/-! ### What a step gives -/

/-- The step's job as its record leaves it. -/
def SntJob.stepped (j : SntJob) (o : StepOut) : SntJob := { j with words := o.words, out := j.out + o.fin.out }

theorem State.stepGive_cut (j : SntJob) (o : StepOut) {e : Nat × Nat} (h : (s.putOut j.fn j.dst o.bytes).2.1 = some e) :
    ∃ k, s.stepGive n j o =
      ((s.putOut j.fn j.dst o.bytes).2.2.stepCount j (j.stepTo k e.1 e.2)).stepEnd n j (j.stepTo k e.1 e.2).fin := by
  unfold State.stepGive
  dsimp only
  rw [h]
  exact ⟨_, rfl⟩

theorem State.stepGive_out (j : SntJob) (o : StepOut) (h : (s.putOut j.fn j.dst o.bytes).2.1 = none) :
    s.stepGive n j o = match ((s.putOut j.fn j.dst o.bytes).2.2.putBlks j o.from_ o.descs).1 with
      | some e => (((s.putOut j.fn j.dst o.bytes).2.2.putBlks j o.from_ o.descs).2.stepCount j o).stepEnd n j { o.fin with status := e.1, loc := e.2 }
      | none => ((((s.putOut j.fn j.dst o.bytes).2.2.putBlks j o.from_ o.descs).2.stepCount j o).updCtx n
          (fun x => { x with job := some (j.stepped o) })).stepEnd n j o.fin := by
  unfold State.stepGive
  dsimp only
  rw [h]
  dsimp only
  generalize (State.putBlks _ _ _ _).1 = b
  cases b <;> rfl

/-- How a step leaves its context and its lane. -/
structure StepGiven (s t : State) (n l st : Nat) : Prop where
  keeps : Keeps sntFields s t
  lane  : t.laneSt l = 0
  ctx   : t.ctxSt n = 0 ∧ (t.ctx n).job = none ∨ t.ctxSt n = 2 ∧ (t.ctx n).job.isSome = true
  done  : st ≠ 1 → t.ctxSt n = 0 ∧ (t.ctx n).job = none

theorem StepGiven.of_done {u : State} {st st' : Nat} (hu : LaneHas u n l) (hk : Keeps sntFields s u) (h : StepEnded u t n l st) (hst : st ≠ 1) :
    StepGiven s t n l st' :=
  ⟨hk.trans h.keeps, h.lane hu.lane hu.on, .inl (h.done hst), fun _ => h.done hst⟩

theorem badOut_ne {x : Option (Nat × Nat)} {e : Nat × Nat} (hb : badOut x) (he : x = some e) : e.1 ≠ 1 := by
  rcases hb e he with h | h <;> rw [h] <;> decide

/-- The context holds the job as the step leaves it. -/
theorem LaneHas.kept (h : LaneHas s n l) (j : SntJob) (o : StepOut) :
    LaneHas (s.updCtx n (fun x => { x with job := some (j.stepped o) })) n l ∧
      ((s.updCtx n (fun x => { x with job := some (j.stepped o) })).ctx n).job = some (j.stepped o) := by
  refine ⟨⟨?_, h.lane, h.on, h.n_lt, h.l_lt⟩, congrArg SntCtx.job (s.ctx_updCtx _ (by rw [h.ctxs]; exact h.n_lt))⟩
  show (updAt _ s.snt.ctxs n).length = 64
  rw [updAt_length, h.ctxs]

theorem LaneHas.stepGive (h : LaneHas s n l) (j : SntJob) (o : StepOut) : StepGiven s (s.stepGive n j o) n l o.fin.status := by
  obtain ⟨hm, hb⟩ := s.putOut_step j.fn j.dst o.bytes
  cases he : (s.putOut j.fn j.dst o.bytes).2.1 with
  | some e =>
    obtain ⟨k, hk⟩ := s.stepGive_cut (n := n) j o he
    rw [hk]
    have hend := ((h.of_mem hm).of_count j (j.stepTo k e.1 e.2)).stepEnd j (j.stepTo k e.1 e.2).fin
    rw [j.stepTo_status] at hend
    exact StepGiven.of_done ((h.of_mem hm).of_count j _) ((hm.frame.keeps.mono (by decide)).trans ((State.stepCount_frame _ _ _).keeps.mono (by decide))) hend (badOut_ne hb he)
  | none =>
    rw [s.stepGive_out j o he]
    generalize (s.putOut j.fn j.dst o.bytes).2.2 = u at hm ⊢
    obtain ⟨hmb, hbb⟩ := u.putBlks_step j o.from_ o.descs
    generalize (u.putBlks j o.from_ o.descs).2 = v at hmb ⊢
    generalize (u.putBlks j o.from_ o.descs).1 = b at hbb ⊢
    have hv := ((h.of_mem hm).of_mem hmb).of_count j o
    have hk : Keeps sntFields s (v.stepCount j o) := ((hm.trans hmb).frame.keeps.mono (by decide)).trans ((v.stepCount_frame j o).keeps.mono (by decide))
    generalize v.stepCount j o = w at hv hk ⊢
    cases b with
    | some e => exact StepGiven.of_done hv hk (hv.stepEnd j { o.fin with status := e.1, loc := e.2 }) (badOut_ne hbb rfl)
    | none =>
      obtain ⟨hx, hjob⟩ := hv.kept j o
      have hkx : Keeps sntFields s (w.updCtx n (fun x => { x with job := some (j.stepped o) })) := hk.snt _ (by decide)
      obtain ⟨hke, hlane, hfull, hdone, -, -⟩ := hx.stepEnd j o.fin
      refine ⟨hkx.trans hke, hlane hx.lane hx.on, ?_, hdone⟩
      by_cases h1 : o.fin.status = 1
      · obtain ⟨h2, hj⟩ := hfull h1
        exact .inr ⟨h2, by rw [hj, hjob]; rfl⟩
      · exact .inl (hdone h1)

/-- A step that writes to host memory and makes no block descriptors comes to its end. -/
theorem LaneHas.stepGive_host (h : LaneHas s n l) (j : SntJob) (o : StepOut) (hd : spaceOf j.dst = 1) (hb : j.blkMax = 0) :
    ((s.stepGive n j o).ctxSt n = 2 ↔ o.fin.status = 1) ∧
      (o.bytes ≠ [] → .hostWrite j.fn (addrOf j.dst) o.bytes ∈ (s.stepGive n j o).obs) ∧
      (o.fin.status = 0 → (s.stepGive n j o).getF F.SNT_JOBS_COUNT = (s.getF F.SNT_JOBS_COUNT + 1) % 2 ^ 32) := by
  obtain ⟨hm, -⟩ := s.putOut_step j.fn j.dst o.bytes
  have hout : (s.putOut j.fn j.dst o.bytes).2.1 = none := by
    unfold State.putOut
    split
    · rfl
    · rfl
  have hobs : o.bytes ≠ [] → .hostWrite j.fn (addrOf j.dst) o.bytes ∈ (s.putOut j.fn j.dst o.bytes).2.2.obs := by
    intro hne
    unfold State.putOut
    rw [if_neg (by simpa using hne), if_pos hd]
    exact List.mem_cons_self
  rw [s.stepGive_out j o hout]
  generalize (s.putOut j.fn j.dst o.bytes).2.2 = u at hm hobs ⊢
  rw [u.putBlks_none hb]
  dsimp only
  have hfr := u.stepCount_frame j o
  have hv := (h.of_mem hm).of_count j o
  have hobs' : o.bytes ≠ [] → .hostWrite j.fn (addrOf j.dst) o.bytes ∈ (u.stepCount j o).obs := fun hne => by
    rw [hfr.keeps .obs (by decide)]
    exact hobs hne
  have hjobs : (u.stepCount j o).getF F.SNT_JOBS_COUNT = s.getF F.SNT_JOBS_COUNT :=
    (hfr.rd.getF F.SNT_JOBS_COUNT (by decide)).trans (hm.frame.rd.getF F.SNT_JOBS_COUNT (by unfold besideMem; decide))
  generalize u.stepCount j o = w at hv hobs' hjobs ⊢
  obtain ⟨hx, -⟩ := hv.kept j o
  obtain ⟨-, -, hfull, hdone, hmore, hcount⟩ := hx.stepEnd j o.fin
  refine ⟨⟨fun h2 => ?_, fun h1 => (hfull h1).1⟩, fun hne => hmore _ (hobs' hne), fun h0 => (hcount h0).trans ?_⟩
  · by_contra h1
    rw [(hdone h1).1] at h2
    exact absurd h2 (by decide)
  · rw [← hjobs]
    rfl

theorem State.free_frame (s : State) : Frame [.freeCtr] (fun _ => True) s s.free.2 := by
  refine ⟨fun f hf => ?_, fun _ _ => rfl⟩
  cases f
  case freeCtr => exact absurd (by decide) hf
  all_goals rfl

theorem State.stepRun_eq (j : SntJob) : s.stepRun n j = match j.fail with
    | some e => s.free.2.stepGive n j (j.cutStep s.free.1 j.dstLen e.1 e.2)
    | none => s.stepGive n j j.step := by
  unfold State.stepRun
  cases j.fail <;> rfl

theorem LaneHas.stepRun (h : LaneHas s n l) (j : SntJob) : Keeps sntFields s (s.stepRun n j) ∧ (s.stepRun n j).laneSt l = 0 ∧
    ((s.stepRun n j).ctxSt n = 0 ∧ ((s.stepRun n j).ctx n).job = none ∨ (s.stepRun n j).ctxSt n = 2 ∧ ((s.stepRun n j).ctx n).job.isSome = true) ∧
    (∀ st loc, j.fail = some (st, loc) → st ≠ 1 → (s.stepRun n j).ctxSt n = 0) := by
  rw [s.stepRun_eq]
  cases hj : j.fail with
  | none =>
    obtain ⟨hk, hl, hc, -⟩ := h.stepGive j j.step
    exact ⟨hk, hl, hc, fun _ _ he => absurd he (by simp)⟩
  | some e =>
    have hf := s.free_frame
    have h' : LaneHas s.free.2 n l := h.of_frame (hf.mono (fun _ h => h) (fun _ _ => trivial)) rfl
    obtain ⟨hk, hl, hc, hd⟩ := h'.stepGive j (j.cutStep s.free.1 j.dstLen e.1 e.2)
    rw [j.cutStep_status] at hd
    refine ⟨(hf.keeps.mono (by decide)).trans hk, hl, hc, fun st loc he hst => (hd ?_).1⟩
    rw [Option.some.inj he]
    exact hst

/-! ### Aborts -/

theorem State.stopJob_eq (s : State) (n : Nat) (j : SntJob) (st : Nat) : ∃ o : StepOut, o.fin.status = st ∧ s.stopJob n j st =
    ((((s.free.2.putOut j.fn j.dst o.bytes).2.2.putBlks j o.from_ o.descs).2.stepCount j o).stepEnd n j o.fin) :=
  ⟨s.free.2.stopStep j s.free.1 st, State.stopStep_status _ _ _ _, rfl⟩

/-- A job that is stopped in its step with another status than OUT_FULL gives its context back. -/
theorem State.stopJob_result (j : SntJob) {st : Nat} (hst : st ≠ 1) (hn : n < 64) (hlen : s.snt.ctxs.length = 64) :
    Keeps sntFields s (s.stopJob n j st) ∧ (s.stopJob n j st).ctxSt n = 0 ∧ ((s.stopJob n j st).ctx n).job = none := by
  obtain ⟨o, ho, hjob⟩ := s.stopJob_eq n j st
  rw [hjob]
  obtain ⟨hm, -⟩ := s.free.2.putOut_step j.fn j.dst o.bytes
  generalize (s.free.2.putOut j.fn j.dst o.bytes).2.2 = u at hm ⊢
  obtain ⟨hmb, -⟩ := u.putBlks_step j o.from_ o.descs
  generalize (u.putBlks j o.from_ o.descs).2 = v at hmb ⊢
  have hk : Keeps sntFields s (v.stepCount j o) := ((s.free_frame.keeps.mono (by decide)).trans ((hm.trans hmb).frame.keeps.mono (by decide))).trans
    ((v.stepCount_frame j o).keeps.mono (by decide))
  have hlen' : (v.stepCount j o).snt.ctxs.length = 64 := by
    rw [(v.stepCount_frame j o).keeps .snt (by decide), (hm.trans hmb).frame.keeps .snt (by decide)]
    exact hlen
  obtain ⟨hke, -, -, hdone, -, -⟩ := (v.stepCount j o).stepEnd_result (l := 0) j o.fin hn (by decide) hlen'
  exact ⟨hk.trans hke, hdone (by rw [ho]; exact hst)⟩

section

variable (s) {v : Word} (hn : getBits v 0 8 = n)
include hn

theorem State.sntAbort_ignored (hgo : v.getLsbD 31 = true)
    (h : n < 8 ∨ 64 ≤ n ∨ (s.ctxSt n = 0 ∧ (s.ctx n).doneAt ≠ some s.tick) ∨ s.ctxSt n = 3) :
    s.sntAbort v = s.setF F.SNT_ABORT_STATUS_IGNORED 1 := by
  unfold State.sntAbort
  extract_lets m
  obtain rfl : m = n := hn
  rw [if_pos hgo]
  split
  · rfl
  · next hr =>
    have hst : s.ctxSt m = 0 ∧ (s.ctx m).doneAt ≠ some s.tick ∨ s.ctxSt m = 3 := by
      rcases h with h | h | h
      · exact absurd (.inl h) hr
      · exact absurd (.inr h) hr
      · exact h
    obtain ⟨h0, hd⟩ | h3 := hst
    · rw [h0]
      exact if_neg hd
    · rw [h3]
      rfl

theorem State.sntAbort_late (hgo : v.getLsbD 31 = true) (h8 : 8 ≤ n) (h64 : n < 64)
    (h : s.ctxSt n = 2 ∨ (s.ctxSt n = 0 ∧ (s.ctx n).doneAt = some s.tick)) : s.sntAbort v = s.late F.SNT_ABORT_STATUS_LATE := by
  unfold State.sntAbort
  extract_lets m
  obtain rfl : m = n := hn
  rw [if_pos hgo, if_neg (by omega)]
  obtain h2 | ⟨h0, hd⟩ := h
  · rw [h2]
    rfl
  · rw [h0]
    exact if_pos hd

theorem State.sntAbort_stops (hgo : v.getLsbD 31 = true) (h8 : 8 ≤ n) (h64 : n < 64) (h : s.ctxSt n = 1) {j : SntJob}
    (hj : (s.ctx n).job = some j) : s.sntAbort v = (s.stopJob n j 2).setF F.SNT_ABORT_STATUS_ABORTED 1 := by
  unfold State.sntAbort
  extract_lets m
  obtain rfl : m = n := hn
  rw [if_pos hgo, if_neg (by omega), h, hj]
  rfl

omit hn in
theorem State.setF_abort_keeps (f : Fld) (hf : f.off = R.SNT_ABORT_STATUS) (hn : n < 64) (x : Nat) (u : State) :
    Keeps [.regs] u (u.setF f x) ∧ (u.setF f x).ctxSt n = u.ctxSt n := by
  refine ⟨(Keeps.refl _ u).setF _ _ (by decide), ?_⟩
  have hoff : R.SNT_CTX_STATE n ≠ f.off := by
    rw [hf]
    unfold R.SNT_CTX_STATE R.SNT_ABORT_STATUS
    omega
  exact congrArg (fun w => getBits w 0 2) (rd_setF_other u f x _ hoff)

theorem State.sntAbort_keeps (hlen : s.snt.ctxs.length = 64) : Keeps sntFields s (s.sntAbort v) := by
  have hset (f : Fld) (x : Nat) (u : State) (hu : Keeps sntFields s u) : Keeps sntFields s (u.setF f x) := hu.setF _ _ (by decide)
  have hlate : Keeps sntFields s (s.late F.SNT_ABORT_STATUS_LATE) := (hset _ _ _ (Keeps.refl _ s)).bump _ (by decide)
  unfold State.sntAbort
  extract_lets m
  split
  · split
    · exact hset _ _ _ (Keeps.refl _ s)
    · next hr =>
      split
      · next j _ _ => exact hset _ _ _ (s.stopJob_result j (by decide) (by omega) hlen).1
      · exact hlate
      · exact Keeps.ite (fun _ => hlate) (fun _ => hset _ _ _ (Keeps.refl _ s))
      · exact hset _ _ _ (Keeps.refl _ s)
  · exact Keeps.refl _ s

end

end

end Sys2Proof.Machine

namespace Sys2Proof
open Machine

/-- Settles O50: a step's end by what stops its output, an abort by the state of its context. -/
theorem sinterStepsEnd : Obligations.SinterStepsEnd := by
  unfold Obligations.SinterStepsEnd
  refine ⟨fun l s h => congrArg Host.Outcome.next (if_neg (fun hc => ?_)), fun l s n j hst hh hon hn hlen hj => ?_,
    fun id v s n hg hn hlen => gated_next v hg (by decide) ?_⟩
  · rcases h with h | h
    · exact h hc.1
    · exact absurd hc.2 (by rw [h]; decide)
  · have hlane : LaneHas s n l := ⟨hlen, hst, hon, hn, l.isLt⟩
    have hexec : exec (.jobStepComplete l) s = .next (s.stepRun n j) := by
      refine congrArg Host.Outcome.next ((if_pos ⟨hst, hh⟩).trans ?_)
      rw [hon]
      show (match (s.ctx n).job with | some j => s.stepRun n j | none => s) = _
      rw [hj]
    obtain ⟨hk, h0, hctx, hfail⟩ := hlane.stepRun j
    refine ⟨_, hexec, hk, h0, hctx, hfail, fun hnone hd hb => ?_⟩
    have hrun : s.stepRun n j = s.stepGive n j j.step := by
      rw [s.stepRun_eq, hnone]
    rw [hrun]
    exact hlane.stepGive_host j j.step hd hb
  · refine ⟨((s.sntAbort_keeps hn hlen).mono (by decide)).bpReg _ _ _ (by decide), fun hgo => ?_, fun hgo h => ?_, fun hgo h8 h64 h => ?_,
      fun j hgo h8 h64 h hj => ?_⟩
    · have hsame : s.sntAbort v = s := if_neg (ne_true_of_eq_false hgo)
      rw [hsame]
      exact (Keeps.refl _ s).bpReg _ _ _ (by decide)
    · rw [s.sntAbort_ignored hn hgo h, State.bpReg_bit]
      exact ⟨((Keeps.refl [.regs, .dbg] s).setF _ _ (by decide)).bpReg _ _ _ (by decide), ((RegsKept.refl _ s).setF _ _ (by decide)).bpReg _ _ _,
        bit_setF_one _ _ (by decide)⟩
    · rw [s.sntAbort_late hn hgo h8 h64 h, State.bpReg_bit, State.bpReg_getF]
      obtain ⟨hk, hctx⟩ := State.setF_abort_keeps F.SNT_ABORT_STATUS_LATE rfl h64 1 s
      refine ⟨(((hk.mono (by decide)).bump _ (by decide)).bpReg _ _ _ (by decide) : Keeps [.regs, .dbg] s _), ?_, ?_, ?_⟩
      · exact (congrArg (· == 1) (getF_bump_other _ _ _ (by decide) (.inl (by decide)))).trans (bit_setF_one _ _ (by decide))
      · refine (congrArg (fun w => getBits w 0 2) (rd_bump_other _ _ _ ?_)).trans hctx
        show R.SNT_CTX_STATE n ≠ 0xF0004
        unfold R.SNT_CTX_STATE
        omega
      · refine (getF_bump_same _ _ (by decide)).trans ?_
        rw [getF_setF_other _ _ _ _ (by decide) (.inl (by decide))]
        rfl
    · rw [s.sntAbort_stops hn hgo h8 h64 h hj, State.bpReg_bit]
      obtain ⟨-, h0, hnone⟩ := s.stopJob_result j (st := 2) (by decide) h64 hlen
      exact ⟨bit_setF_one _ _ (by decide), (State.setF_abort_keeps F.SNT_ABORT_STATUS_ABORTED rfl h64 1 _).2.trans h0, hnone⟩

end Sys2Proof
end

section
/-!
SUPPORT. Captures (R295-R298): a state in which a pop of a word queue moves a stream to another port.
-/

namespace Sys2Proof.Machine

/-- A word queue that no hub has: its count of transient errors stands where STR_STATUS of stream 0 stands. -/
def strayWq : Nat := 15873

/-- Channel 0 of a capture, with one word to send. -/
def strayChan : CapChan := { ch := 0, n := 2, bytes := [1#8, 2#8, 3#8, 4#8], off := 0, lost := [], raw := [] }

def strayOut : CapOut :=
  { cap := 0, first := 0, p := 1, q := 1, b := 2, comp := false, zlib := false, xform := 0, chans := [strayChan], anchor := none, anchored := true,
    spare := [] }

/-- An entry that is read wrong once. -/
def strayEntry : QEntry := { data := 0#32, enda := true, endb := true, bad := [0, 1], once := true }

def strayWqs : List WqDef := List.replicate strayWq ⟨0, 0, 0, 0, 0⟩ ++ [⟨0, 0, 0, 11, 12⟩]

def strayImage : Image :=
  { version := 0, schema := 0, secVers := [], present := [], otherBad := [], covers := false, fmaxKhz := 0, lowpwr := false, quads := 0, chans := [],
    bmf := false, beams := [], parts := [], ringTap := 0, ring8 := false, rsh := 0, latChain := 0, latBeam := 0, classes := [], wqs := strayWqs,
    streams := [], modes := [], mbxt := [], health := [], defaults := [] }

/-- Reset, but stream 0 is a GEYSER stream with `strayOut` to send through `strayWq`, and queue 4 has room. -/
def strayGeyser : State :=
  let s := ((State.reset.setF (F.STR_DEF_KIND 0) 4).setF (F.STR_SIZE_PAYLOAD 0) 4).setF (F.FLW_FQ_SIZE_LINES 4) 100
  { s.setF (F.FLW_FQ_CREDIT_WORDS 4) 1600 with
    image := some strayImage
    strs := updAt (fun x => { x with active := true, ver := 2, gey := [strayOut] }) s.strs 0
    wqs := List.replicate strayWq ⟨[], 0, false, 0, 0, 0, 0⟩ ++ [⟨[strayEntry], 0, false, 0, 0, 0, 0⟩] }

/-- A fill of a queue with no credit. -/
def WordQueue.refilled (q : WordQueue) : WordQueue :=
  { q with entries := q.entries ++ [], midItem := match (q.entries ++ []).getLast? with | some x => !x.enda | none => false }

/-- `strayGeyser` with the word popped. -/
def strayPopped : State := ((strayGeyser.updWq strayWq WordQueue.refilled).popWq strayWq).2.2

/-- What the stream is, where its word comes from, and what the pop makes of it. -/
theorem strayGeyser_facts :
    (strayGeyser.strKind 0 = 4 ∧ (strayGeyser.str 0).active = true ∧ strayGeyser.halted = false ∧ strayGeyser.paced 0 = true) ∧
    ((strayGeyser.str 0).gey = [strayOut] ∧ strayGeyser.geyStreams.idxOf 0 = 0 ∧ strayGeyser.fqOf 0 = 0 ∧ (strayGeyser.fq 4).length = 0) ∧
    (strayGeyser.bit (F.FLW_WQ_STATUS_DISCARDING strayWq) = false ∧ strayGeyser.wqCredit strayWq = 0) ∧
    (min (strayGeyser.getF (F.STR_SIZE_PAYLOAD 0)) (strayChan.bytes.length - strayChan.off) = 4 ∧
      ((strayGeyser.updWq strayWq WordQueue.refilled).popWq strayWq).2.1 = false) ∧
    ((strayPopped.geyPlain 0 strayOut strayChan).fq 4).length = 1 := by
  decide +kernel

theorem strayGeyser_queues : strayGeyser.geyQueues = [strayWq] := by
  have hlen : strayWqs.length = strayWq + 1 := by simp [strayWqs]
  have hpre (n : Nat) (hn : n < strayWq) : strayWqs[n]? = some ⟨0, 0, 0, 0, 0⟩ := by
    rw [strayWqs, List.getElem?_append_left (by simpa using hn), List.getElem?_replicate, if_pos hn]
  have hlast : strayWqs[strayWq]? = some ⟨0, 0, 0, 11, 12⟩ := by
    rw [strayWqs, List.getElem?_append_right (by simp)]
    simp
  show (List.range strayWqs.length).filter (fun n => match strayWqs[n]? with | some q => q.srcBlk == 11 && q.dstBlk == 12 | none => false) = _
  rw [hlen, List.range_succ, List.filter_append, List.filter_eq_nil_iff.2 (fun n hn => by rw [hpre n (List.mem_range.1 hn)]; decide)]
  simp [hlast]

theorem strayGeyser_queue : strayGeyser.geyQueue 0 = some strayWq := by
  rw [State.geyQueue, strayGeyser_queues]
  rw [strayGeyser_facts.2.1.2.1]
  rfl

section

variable {s : State} {i n : Nat}

/-- A word queue with no credit takes no words. -/
theorem State.wqFill_full (h : s.geyQueue i = some n) (hd : s.bit (F.FLW_WQ_STATUS_DISCARDING n) = false) (hc : s.wqCredit n = 0) (d : Nat) :
    s.wqFill i d = s.updWq n WordQueue.refilled := by
  unfold State.wqFill
  rw [h]
  dsimp only
  rw [if_neg (by rw [hd]; decide), hc, List.take_zero]
  rfl

/-- The next packet of an uncompressed channel, whose one word comes out of word queue `n`. -/
theorem State.geyBuild_plain {o : CapOut} {x : CapChan} {rest : List CapOut} {xs : List CapChan} {u : State}
    (h : s.strKind i = 4 ∧ (s.str i).active = true ∧ s.halted = false ∧ s.paced i = true) (hg : (s.str i).gey = o :: rest) (hx : o.chans = x :: xs)
    (hn : x.n ≠ 0) (hc : o.comp = false) (ht : s.geyTake i x (min (s.getF (F.STR_SIZE_PAYLOAD i)) (x.bytes.length - x.off)) = (false, u)) :
    s.geyBuild i = (u.geyPlain i o x).wqFill i 0 := by
  unfold State.geyBuild
  dsimp only
  rw [if_pos h, hg]
  dsimp only
  rw [hx]
  dsimp only
  rw [if_neg hn, ht, hc]
  rfl

end

/-- One word is popped. -/
theorem State.geyPop_one {s u : State} {i n d : Nat} (h : s.wqFill i d = u) (hl : (u.popWq n).2.1 = false) :
    s.geyPop i n d 1 = (false, (u.popWq n).2.2) := by
  unfold State.geyPop
  rw [h]
  dsimp only
  rw [hl]
  rfl

theorem State.geyTake_one {s u : State} {i n len : Nat} {x : CapChan} (hq : s.geyQueue i = some n) (hx : (x.off + len + 3) / 4 - (x.off + 3) / 4 = 1)
    (h : s.wqFill i 0 = u) (hl : (u.popWq n).2.1 = false) : s.geyTake i x len = (false, (u.popWq n).2.2) := by
  unfold State.geyTake
  rw [hq]
  dsimp only
  rw [hx]
  exact State.geyPop_one h hl

theorem strayGeyser_fill : strayGeyser.wqFill 0 0 = strayGeyser.updWq strayWq WordQueue.refilled := by
  obtain ⟨-, -, ⟨hdisc, hcredit⟩, -⟩ := strayGeyser_facts
  exact State.wqFill_full strayGeyser_queue hdisc hcredit 0

theorem strayGeyser_take : strayGeyser.geyTake 0 strayChan
    (min (strayGeyser.getF (F.STR_SIZE_PAYLOAD 0)) (strayChan.bytes.length - strayChan.off)) = (false, strayPopped) := by
  obtain ⟨-, -, -, ⟨hlen, hpop⟩, -⟩ := strayGeyser_facts
  rw [hlen]
  exact State.geyTake_one strayGeyser_queue (by decide) strayGeyser_fill hpop

theorem strayGeyser_build : strayGeyser.geyBuild 0 = (strayPopped.geyPlain 0 strayOut strayChan).wqFill 0 0 :=
  State.geyBuild_plain strayGeyser_facts.1 (rest := []) (xs := []) strayGeyser_facts.2.1.1 rfl (by decide) rfl strayGeyser_take

theorem State.wqFill_fq (s : State) (i d n : Nat) : (s.wqFill i d).fq n = s.fq n := by
  unfold State.wqFill
  split
  · rfl
  · split <;> rfl

theorem strayGeyser_sends : ((strayGeyser.geyBuild 0).fq 4).length = 1 := by
  rw [strayGeyser_build, State.wqFill_fq]
  obtain ⟨-, -, -, -, hsends⟩ := strayGeyser_facts
  exact hsends

end Sys2Proof.Machine

open Sys2Proof.Machine in
/-- Refutes O51: nothing bounds the number of word queues of the image. In `strayGeyser` the words of stream 0 come out of a queue that no
hub has; its count of transient errors is STR_STATUS of stream 0, so the pop moves the stream to port 1, and its packet goes to the queue there. -/
theorem not_capturesLeave : ¬ Obligations.CapturesLeave := by
  unfold Obligations.CapturesLeave
  intro h
  obtain ⟨-, -, -, -, hgey, -⟩ := h
  obtain ⟨⟨hkind, hactive, hhalt, hpaced⟩, ⟨hg, -, hfqOf, hempty⟩, -⟩ := strayGeyser_facts
  obtain ⟨t, ht, -, hother, -⟩ := hgey 0 strayGeyser strayOut [] hkind hactive hhalt hpaced hg (by decide) (by decide)
  obtain rfl : strayGeyser.geyBuild 0 = t := Host.Outcome.next.inj ht
  have hfq : (strayGeyser.geyBuild 0).fq 4 = strayGeyser.fq 4 := hother 4 (fun h4 => absurd (h4.trans hfqOf) (by decide))
  have hlen := strayGeyser_sends
  rw [hfq, hempty] at hlen
  exact absurd hlen (by decide)

end

section
/-!
SUPPORT. The debug port (R427): a state in which a resume registers an activity.
-/

namespace Sys2Proof.Machine

/-- A halted hub, unlocked, with a value of a delay register that lands at the resume. -/
def haltedDelay : State :=
  let s := (((State.reset.setF F.DBG_STATUS_STATE 2).setF F.DBG_STATUS_UNLOCKED 1).setF F.DBG_CTRL_STEP_COUNT 1)
  { s with
    pwr := { s.pwr with por := false }
    host := { s.host with nowPend := [0] }
    shadows := [(R.CND_DELAY_INT 0, 1#32)] }

/-- The write goes through, and its RESUME registers an activity. -/
theorem haltedDelay_facts :
    (haltedDelay.pwr.por = false ∧ haltedDelay.gateW .dbg R.DBG_CTRL = .go) ∧
    (haltedDelay.bit F.DBG_STATUS_UNLOCKED = true ∧ haltedDelay.halted = true ∧ haltedDelay.cmdWord R.DBG_CTRL 2#32 = 0x10002#32) ∧
    (dropAct actDbghalt 0 haltedDelay.mnt.running = [] ∧ ((haltedDelay.wr R.DBG_CTRL 0x10000#32).dbgResume.mnt.running).length = 1) := by
  decide +kernel

theorem haltedDelay_open : haltedDelay.dbgLocked = false := by
  rw [State.dbgLocked, haltedDelay_facts.2.1.1]
  exact Bool.and_false _

/-- The word of a RESUME alone. -/
theorem State.dbgCtrl_resume {s : State} (h : s.dbgLocked = false) : s.dbgCtrl 0x10002#32 = (s.wr R.DBG_CTRL 0x10000#32).dbgResume := by
  unfold State.dbgCtrl
  rw [h]
  rfl

end Sys2Proof.Machine

open Sys2Proof.Machine in
/-- Refutes O60: the resume of a halt lands the delay registers whose immediate landing the halt held (R409), and each such landing is
registered as an activity DELAYCHG (R411), so DBGHALT is not the only activity that a RESUME moves: in `haltedDelay` none runs before it, and one
after it. -/
theorem not_debugPort : ¬ Obligations.DebugPort := by
  unfold Obligations.DebugPort
  intro h
  obtain ⟨-, -, -, -, -, -, -, -, -, -, -, -, -, hctrl, -⟩ := h
  obtain ⟨hgoes, ⟨-, hhalt, hword⟩, ⟨hidle, hlen⟩⟩ := haltedDelay_facts
  obtain ⟨-, ⟨t, ht, -, hhalted, -⟩, -⟩ := hctrl .dbg haltedDelay hgoes haltedDelay_open (by decide)
  obtain ⟨-, hrun, -⟩ := hhalted hhalt
  have hgated := haltedDelay.gated_goes_other .dbg R.DBG_CTRL (haltedDelay.cmdWord R.DBG_CTRL 2#32)
    (fun s => s.dbgCtrl (s.cmdWord R.DBG_CTRL 2#32)) hgoes (by decide)
  obtain rfl := Host.Outcome.next.inj ht
  rw [hgated, hidle] at hrun
  rw [← State.dbgCtrl_resume haltedDelay_open, ← hword] at hlen
  rw [show (haltedDelay.dbgCtrl (haltedDelay.cmdWord R.DBG_CTRL 2#32)).mnt.running = [] from hrun] at hlen
  exact absurd hlen (by decide)

end

section
/-!
SUPPORT. Background calibration: what its shared operations leave alone, and O40 (R117-R126).
-/

namespace Sys2Proof.Machine

/-! ### Registers of the groups -/

/-- The registers beside the results and counts of calibration and beside block MNT, those of the groups among them. -/
def besideResults (off : Nat) : Prop := off / 0x10000 ≠ 15 ∧ off / 0x100 ≠ 0x800 ∧ off / 0x1000 ≠ 0x81

theorem not_besideResults_result {k : Nat} (hk : k < 272) : ¬ besideResults (R.CAL_RESULT k) := by
  unfold besideResults R.CAL_RESULT
  omega

theorem besideResults_state {g : Nat} (hg : g < 16) : besideResults (R.CAL_GROUP_STATE g) := by
  unfold besideResults R.CAL_GROUP_STATE
  omega

theorem besideResults_sweeps {g : Nat} (hg : g < 16) : besideResults (R.CAL_GROUP_SWEEPS g) := by
  unfold besideResults R.CAL_GROUP_SWEEPS
  omega

section

variable (s : State)

theorem State.showFac_frame {k : Nat} (hk : k < 272) : Frame [.regs] besideResults s (s.showFac k) := by
  have hp : ¬ besideResults (R.CAL_RESULT k) := not_besideResults_result hk
  have h : Frame [.regs] besideResults s ((s.setB (F.CAL_RESULT_VALID_N k) (s.fac false k).isSome).setB (F.CAL_RESULT_VALID_L k) (s.fac true k).isSome) :=
    ((Frame.refl [.regs] besideResults s).setB _ _ (by decide) hp).setB _ _ (by decide) hp
  unfold State.showFac
  dsimp only
  split <;> exact (h.setF _ _ (by decide) hp).setF _ _ (by decide) hp

theorem State.showCal_frame : Frame [.regs] besideResults s s.showCal :=
  Frame.setF (Frame.foldl _ _ (Frame.refl _ _ s) (fun u _ hk => u.showFac_frame (List.mem_range.mp hk))) _ _ (by decide) (by unfold besideResults; decide)

/-- The registers beside the counts of calibration and beside block MNT. -/
def besideCounts (off : Nat) : Prop := off / 0x10000 ≠ 15 ∧ off / 0x100 ≠ 0x800

theorem State.calOutcome_counts (k : Nat) (lasting : Bool) : Frame faultFields besideCounts s (s.calOutcome k lasting) := by
  have hb : Frame faultFields besideCounts s (if lasting then s.bump F.CAL_LASTING_COUNT else s.bump F.CAL_TRANSIENT_COUNT) :=
    Frame.ite (fun _ => (Frame.refl _ _ s).bump _ (by decide) (by unfold besideCounts; decide))
      (fun _ => (Frame.refl _ _ s).bump _ (by decide) (by unfold besideCounts; decide))
  exact hb.then (State.mntFault_frame _ (by decide) _ _) (fun _ h => h) (fun _ h => h.1)

theorem State.calOutcome_frame (k : Nat) (lasting : Bool) : Frame faultFields besideResults s (s.calOutcome k lasting) :=
  (s.calOutcome_counts k lasting).mono (fun _ h => h) (fun _ h => ⟨h.1, h.2.1⟩)

/-- LASTING stands beside what CAL_RESULT shows of the factors. -/
theorem State.showFac_lasting (k c : Nat) : (s.showFac k).bit (F.CAL_RESULT_LASTING c) = s.bit (F.CAL_RESULT_LASTING c) := by
  have hset (u : State) (lo w n : Nat) (hw : lo + w ≤ 14 ∨ 15 ≤ lo) (hf : lo + w ≤ 32) :
      (u.setF ⟨R.CAL_RESULT k, lo, w⟩ n).bit (F.CAL_RESULT_LASTING c) = u.bit (F.CAL_RESULT_LASTING c) :=
    bit_setF_other _ _ _ _ hf (.inr (by rcases hw with h | h; exacts [.inr h, .inl h]))
  have h (b b' : Bool) : ((s.setB (F.CAL_RESULT_VALID_N k) b).setB (F.CAL_RESULT_VALID_L k) b').bit (F.CAL_RESULT_LASTING c) =
      s.bit (F.CAL_RESULT_LASTING c) := (hset _ _ _ _ (by decide) (by decide)).trans (hset _ _ _ _ (by decide) (by decide))
  unfold State.showFac
  dsimp only
  split <;> exact (hset _ _ _ _ (by decide) (by decide)).trans ((hset _ _ _ _ (by decide) (by decide)).trans (h _ _))

theorem State.showCal_lasting (c : Nat) : s.showCal.bit (F.CAL_RESULT_LASTING c) = s.bit (F.CAL_RESULT_LASTING c) := by
  have hfold (l : List Nat) (u : State) : (l.foldl State.showFac u).bit (F.CAL_RESULT_LASTING c) = u.bit (F.CAL_RESULT_LASTING c) := by
    induction l generalizing u with
    | nil => rfl
    | cons k l ih => exact (ih _).trans (u.showFac_lasting k c)
  exact (bit_setF_other _ F.CAL_STATUS_NOCAL_COUNT (F.CAL_RESULT_LASTING c) _ (by decide)
    (.inl (by show 0x81000 + 0x4 * c ≠ 0x80004; omega))).trans (hfold _ s)

/-- The fields that new factors change. -/
def learnFields : List Field := [.regs, .cal, .freeCtr]

theorem Frame.setFac {l : List Field} {p : Nat → Prop} {s t : State} (h : Frame l p s t) (low : Bool) (k : Nat) (f : Option CalFactor)
    (hm : Field.cal ∈ l) : Frame l p s (t.setFac low k f) := ⟨h.keeps.cal _ hm, h.rd⟩

theorem Frame.updGrp {l : List Field} {p : Nat → Prop} {s t : State} (h : Frame l p s t) (g : Nat) (f : CalGroup → CalGroup)
    (hm : Field.cal ∈ l) : Frame l p s (t.updGrp g f) := ⟨h.keeps.cal _ hm, h.rd⟩

theorem State.freeCorr_frame (p : Nat → Prop) : Frame [.freeCtr] p s s.freeCorr.2 := ⟨(Keeps.refl _ s).freeCtr _ (by decide), RdKept.refl _ s⟩

/-- New factors, with what they are and the state that two free values leave. -/
theorem State.learn_eq (k src : Nat) : ∃ (f f' : CalFactor), s.learn k src =
    ((s.freeCorr.2.freeCorr.2.setFac s.freeCorr.2.freeCorr.2.lowPwr k (some f)).showFac k).setFac
      ((s.freeCorr.2.freeCorr.2.setFac s.freeCorr.2.freeCorr.2.lowPwr k (some f)).showFac k).lowPwr k (some f') := ⟨_, _, rfl⟩

theorem State.learn_frame {k : Nat} (hk : k < 272) (src : Nat) : Frame learnFields besideResults s (s.learn k src) := by
  obtain ⟨f, f', he⟩ := s.learn_eq k src
  rw [he]
  refine Frame.setFac (Frame.then (Frame.setFac ?_ _ _ _ (by decide)) (State.showFac_frame _ hk) (by decide) (fun _ h => h)) _ _ _ (by decide)
  exact ((s.freeCorr_frame _).trans (State.freeCorr_frame _ _)).wide (by decide)

theorem State.learnMatch_eq (g : Nat) : ∃ x, s.learnMatch g = s.freeCorr.2.freeCorr.2.updGrp g (fun y => { y with matching := x }) := ⟨_, rfl⟩

theorem State.learnMatch_frame (g : Nat) (p : Nat → Prop) : Frame [.cal, .freeCtr] p s (s.learnMatch g) := by
  obtain ⟨x, he⟩ := s.learnMatch_eq g
  rw [he]
  exact (((s.freeCorr_frame p).trans (State.freeCorr_frame _ p)).wide (by decide)).updGrp _ _ (by decide)

theorem State.bgTests_frame {c : Nat} (hc : c < 272) (first last : Nat) : Frame faultFields besideResults s (s.bgTests c first last) := by
  refine Frame.foldl _ _ (Frame.refl _ _ s) (fun u t _ => ?_)
  have h : Frame faultFields besideResults u (u.setF ⟨R.CAL_RESULT c, 2 * t, 2⟩ (testCode first last t)) :=
    (Frame.refl _ _ u).setF _ _ (by decide) (not_besideResults_result hc)
  exact Frame.ite (fun _ => h) (fun _ => h.trans (State.calOutcome_frame _ _ _))

/-! ### Groups -/

section

variable {s} {g : Nat}

theorem State.grp_updGrp (h : g < s.cal.groups.length) (f : CalGroup → CalGroup) : (s.updGrp g f).grp g = f (s.grp g) := by
  show (updAt f s.cal.groups g).getD g _ = f (s.cal.groups.getD g _)
  exact updAt_get_same f s.cal.groups g _ h

theorem State.servesNow_of_cal {t : State} (h : t.cal.groups = s.cal.groups) (g p : Nat) : t.servesNow g p = s.servesNow g p := by
  rw [State.servesNow, State.servesNow, State.grp, State.grp, h]

end

end

/-! ### The cycle of a group as an activity -/

section

variable (s : State) (g : Nat)

theorem State.pauser_setF (f : Fld) (n a : Nat) (hf : f.off ≠ R.DBG_STATUS) : (s.setF f n).pauser a = s.pauser a := by
  have hrd : (s.setF f n).rd F.DBG_STATUS_STATE.off = s.rd F.DBG_STATUS_STATE.off := rd_setF_other _ _ _ _ hf.symm
  have hh : (s.setF f n).halted = s.halted := by rw [State.halted, State.halted, State.getF, State.getF, hrd]
  rw [State.pauser, State.pauser, hh]
  rfl

theorem State.pauser_setState (hg : g < 16) (lo w n a : Nat) : (s.setF ⟨R.CAL_GROUP_STATE g, lo, w⟩ n).pauser a = s.pauser a :=
  s.pauser_setF _ _ _ (by show 0x80100 + 0x10 * g ≠ 0x60004; omega)

/-- What the submission of a cycle leaves of its group. -/
structure BgSubmitted (t : State) : Prop where
  keeps : Keeps [.regs, .cal, .mnt] s t
  pos : t.getF (F.CAL_GROUP_STATE_POS g) = s.getF (F.CAL_GROUP_STATE_POS g)
  sweep : (t.grp g).sweepAt = (s.grp g).sweepAt
  phase : s.pauser actBgcal = false → t.getF (F.CAL_GROUP_STATE_PHASE g) = s.getF (F.CAL_GROUP_STATE_PHASE g)

theorem phase_fits (g : Nat) : (F.CAL_GROUP_STATE_PHASE g).lo + (F.CAL_GROUP_STATE_PHASE g).width ≤ 32 := by
  show 0 + 3 ≤ 32
  decide

/-- The other fields of CAL_GROUP_STATE stand beside PHASE. -/
theorem State.setF_phase_pos (n : Nat) :
    (s.setF (F.CAL_GROUP_STATE_PHASE g) n).getF (F.CAL_GROUP_STATE_POS g) = s.getF (F.CAL_GROUP_STATE_POS g) :=
  getF_setF_other _ _ _ _ (phase_fits g) (.inr (.inr (by show 0 + 3 ≤ 4; decide)))

variable {s} in
/-- A change of a group leaves what it does not change. -/
theorem State.updGrp_shows {α : Type} (p : CalGroup → α) (f : CalGroup → CalGroup) (hf : ∀ x, p (f x) = p x) (g : Nat) :
    p ((s.updGrp g f).grp g) = p (s.grp g) := by
  by_cases h : g < s.cal.groups.length
  · rw [State.grp_updGrp h, hf]
  · have hl : ¬ g < (updAt f s.cal.groups g).length := by rw [updAt_length]; exact h
    show p ((updAt f s.cal.groups g).getD g _) = p (s.cal.groups.getD g _)
    rw [List.getD_eq_default _ _ (by omega), List.getD_eq_default _ _ (by omega)]

theorem State.pauseBg_submitted : BgSubmitted s g (s.pauseBg g) ∨ s.pauser actBgcal = false := by
  cases hp : s.pauser actBgcal with
  | false => exact .inr rfl
  | true =>
    have hno {P : Prop} (h : s.pauser actBgcal = false) : P := by rw [hp] at h; cases h
    refine .inl ⟨(s.pauseBg_keeps g).mono (by decide), ?_, ?_, hno⟩
    · unfold State.pauseBg
      dsimp only
      split <;> first | exact s.setF_phase_pos g 7 | exact (s.unserve g _).setF_phase_pos g 7 | rfl
    · unfold State.pauseBg
      dsimp only
      split
      · exact State.updGrp_shows CalGroup.sweepAt _ (by intro x; rfl) g
      · exact State.updGrp_shows CalGroup.sweepAt _ (by intro x; rfl) g
      · exact (State.updGrp_shows CalGroup.sweepAt _ (by intro x; rfl) g).trans (State.updGrp_shows (s := s) CalGroup.sweepAt _ (by intro x; rfl) g)
      · exact State.updGrp_shows CalGroup.sweepAt _ (by intro x; rfl) g
      · exact State.updGrp_shows CalGroup.sweepAt _ (by intro x; rfl) g
      · rfl

/-- BGCAL of group `g`. -/
def bgActivity (g : Nat) : Activity := ⟨actBgcal, g, 0, false, false⟩

theorem State.submit_bg : s.submit actBgcal g 0 =
    if s.mnt.waiting.any (fun y => y.a == actBgcal && y.unit == g) then s
    else if (bgActivity g).blocked (s.mnt.running ++ s.mnt.waiting) then
      ({ s with mnt := { s.mnt with waiting := s.mnt.waiting ++ [{ bgActivity g with waited := true }] } }).noteDepth
    else s.enter (bgActivity g) := by
  unfold State.submit
  simp only [show ¬ actBgcal = actSetsave by decide, show ¬ actBgcal = actCalsave by decide, show actBgcal ≠ actReform by decide,
    show actBgcal ≠ actSetsave by decide, if_false, or_self, false_and, ne_eq, not_false_eq_true, true_and]
  rfl

/-- BGCAL pauses nothing. -/
theorem State.pauser_bg : ({ s with mnt := { s.mnt with running := s.mnt.running ++ [bgActivity g] } } : State).pauser actBgcal = s.pauser actBgcal := by
  show (s.mnt.running ++ [bgActivity g]).any _ = s.mnt.running.any _
  rw [List.any_append]
  exact Bool.or_false _

theorem State.enter_bg_submitted : BgSubmitted s g (s.enter (bgActivity g)) := by
  have hrun : BgSubmitted s g { s with mnt := { s.mnt with running := s.mnt.running ++ [bgActivity g] } } :=
    ⟨(Keeps.refl _ s).mnt _ (by decide), rfl, rfl, fun _ => rfl⟩
  show BgSubmitted s g (State.startAct { s with mnt := { s.mnt with running := s.mnt.running ++ [bgActivity g] } } (bgActivity g))
  have hp := s.pauser_bg g
  generalize ({ s with mnt := { s.mnt with running := s.mnt.running ++ [bgActivity g] } } : State) = u at hrun hp ⊢
  show BgSubmitted s g (if u.pauser actBgcal then (u.pauseBg g).setPaused actBgcal g true else u)
  split
  · rename_i hu
    have hno {P : Prop} (h : s.pauser actBgcal = false) : P := by rw [hp, h] at hu; cases hu
    obtain ⟨hk, hpos, hsweep, -⟩ := (u.pauseBg_submitted g).resolve_right (by rw [hu]; decide)
    exact ⟨(hrun.keeps.trans hk).setPaused _ _ _ (by decide), hpos.trans hrun.pos, hsweep.trans hrun.sweep, hno⟩
  · exact hrun

theorem State.submit_bg_result (hg : g < 16) : BgSubmitted s g (s.submit actBgcal g 0) := by
  have hmnt (x : MaintState) : BgSubmitted s g { s with mnt := x } := ⟨(Keeps.refl _ s).mnt _ (by decide), rfl, rfl, fun _ => rfl⟩
  rw [State.submit_bg]
  have hq := hmnt { s.mnt with waiting := s.mnt.waiting ++ [{ bgActivity g with waited := true }] }
  split
  · exact hmnt s.mnt
  split
  case isFalse => exact s.enter_bg_submitted g
  generalize ({ s with mnt := { s.mnt with waiting := s.mnt.waiting ++ [{ bgActivity g with waited := true }] } } : State) = u at hq ⊢
  unfold State.noteDepth
  split
  case isFalse => exact hq
  have hne (n : Nat) (w : Nat) (lo : Nat) : (u.setF F.MNT_QUEUE_HIGH n).getF ⟨R.CAL_GROUP_STATE g, lo, w⟩ = u.getF ⟨R.CAL_GROUP_STATE g, lo, w⟩ :=
    getF_setF_other _ _ _ _ (by decide) (.inl (by show 0x80100 + 0x10 * g ≠ 0xF0000; omega))
  exact ⟨hq.keeps.setF _ _ (by decide), (hne _ _ _).trans hq.pos, hq.sweep, fun h => (hne _ _ _).trans (hq.phase h)⟩

/-! ### Phases -/

theorem State.bgPhase_phase (ph len : Nat) : (s.bgPhase g ph len).getF (F.CAL_GROUP_STATE_PHASE g) = ph % 8 :=
  getF_setF_same s _ _ (phase_fits g)

theorem State.bgPhase_pos (ph len : Nat) : (s.bgPhase g ph len).getF (F.CAL_GROUP_STATE_POS g) = s.getF (F.CAL_GROUP_STATE_POS g) :=
  s.setF_phase_pos g ph

theorem State.bgPhase_frame (ph len : Nat) : Frame [.regs, .cal] (fun o => o ≠ R.CAL_GROUP_STATE g) s (s.bgPhase g ph len) :=
  ((Frame.refl _ _ s).setF _ _ (by decide) (fun h => h rfl)).updGrp _ _ (by decide)

theorem State.bgPhase_pauser (hg : g < 16) (ph len : Nat) : (s.bgPhase g ph len).pauser actBgcal = s.pauser actBgcal :=
  s.pauser_setState g hg _ _ _ _

theorem State.bgPhase_servesNow (ph len p : Nat) : (s.bgPhase g ph len).servesNow g p = s.servesNow g p :=
  congrArg (fun l : List (Nat × Nat × Option Nat) => l.any (fun e => e.1 == p && e.2.2.isNone))
    (State.updGrp_shows (s := s.setF _ _) CalGroup.log _ (by intro x; rfl) g)

theorem State.endAct_bg_frame (p : Nat → Prop) : Frame [.mnt, .pwr] p s (s.endAct actBgcal g) :=
  ⟨((Keeps.refl _ s).mnt _ (by decide)).worked _ (by decide), RdKept.refl _ s⟩

theorem mem_of_mem_dropAct {a u : Nat} {y : Activity} {l : List Activity} (h : y ∈ dropAct a u l) : y ∈ l := by
  induction l with
  | nil => exact h
  | cons x l ih =>
    rw [dropAct] at h
    split at h
    · exact List.mem_cons_of_mem _ h
    · rcases List.mem_cons.mp h with rfl | hl
      · exact List.mem_cons_self
      · exact List.mem_cons_of_mem _ (ih hl)

/-- An activity that ends pauses no more than before. -/
theorem State.pauser_endAct (h : s.pauser actBgcal = false) : (s.endAct actBgcal g).pauser actBgcal = false := by
  refine List.any_eq_false.mpr (fun y hy => ?_)
  exact List.any_eq_false.mp h y (mem_of_mem_dropAct hy)

/-- The next channel's cycle, or that of a sweep's first channel. -/
theorem State.bgCycle_result (hg : g < 16) (pos : Nat) :
    Keeps [.regs, .cal, .mnt] s (s.bgCycle g pos) ∧ (s.bgCycle g pos).getF (F.CAL_GROUP_STATE_POS g) = pos % 16 ∧
    ((s.bgCycle g pos).grp g).sweepAt = (s.grp g).sweepAt ∧
    (s.pauser actBgcal = false → (s.bgCycle g pos).getF (F.CAL_GROUP_STATE_PHASE g) = 1) := by
  let u := s.setF (F.CAL_GROUP_STATE_POS g) pos
  have hu : Keeps [.regs, .cal, .mnt] s u := (Keeps.refl _ s).setF _ _ (by decide)
  have hpos : (u.bgPhase g 1 262144).getF (F.CAL_GROUP_STATE_POS g) = pos % 16 :=
    (u.bgPhase_pos g 1 _).trans (getF_setF_same s _ _ (by show 4 + 4 ≤ 32; decide))
  have hsweep : ((u.bgPhase g 1 262144).grp g).sweepAt = (s.grp g).sweepAt :=
    State.updGrp_shows (s := u.setF _ _) CalGroup.sweepAt _ (by intro x; rfl) g
  obtain ⟨hk, hp, hs, hph⟩ := State.submit_bg_result (u.bgPhase g 1 262144) g hg
  exact ⟨(hu.trans ((u.bgPhase_frame g 1 262144).keeps.mono (by decide))).trans hk, hp.trans hpos, hs.trans hsweep,
    fun h => (hph ((u.bgPhase_pauser g hg _ _).trans ((s.pauser_setState g hg _ _ _ _).trans h))).trans (u.bgPhase_phase g 1 _)⟩

/-- The cycle after this one: none where the group is off, else the next channel's, the spare's after the last. -/
theorem State.bgNext_result (hg : g < 16) :
    Keeps [.regs, .cal, .mnt, .pwr] s (s.bgNext g) ∧
    (s.bgOn g = false → s.getF (F.CAL_GROUP_STATE_PHASE g) ≠ 6 → (s.bgNext g).getF (F.CAL_GROUP_STATE_PHASE g) = 0) ∧
    (s.bgOn g = true → s.pauser actBgcal = false → s.getF (F.CAL_GROUP_STATE_POS g) < 15 →
      (s.bgNext g).getF (F.CAL_GROUP_STATE_PHASE g) = 1 ∧ (s.bgNext g).getF (F.CAL_GROUP_STATE_POS g) = s.getF (F.CAL_GROUP_STATE_POS g) + 1) ∧
    (s.bgOn g = true → s.pauser actBgcal = false → s.getF (F.CAL_GROUP_STATE_POS g) = 15 → (s.bgNext g).getF (F.CAL_GROUP_STATE_PHASE g) = 5) := by
  have hend : Keeps [.regs, .cal, .mnt, .pwr] s (s.endAct actBgcal g) := (s.endAct_bg_frame g (fun _ => True)).keeps.mono (by decide)
  have hnext : s.bgNext g = if !s.bgOn g then (s.endAct actBgcal g).bgPhase g (if s.getF (F.CAL_GROUP_STATE_PHASE g) = 6 then 6 else 0) 0
      else if s.getF (F.CAL_GROUP_STATE_POS g) < 15 then (s.endAct actBgcal g).bgCycle g (s.getF (F.CAL_GROUP_STATE_POS g) + 1)
      else ((s.endAct actBgcal g).bgPhase g 5 s.calLen).submit actBgcal g 0 := rfl
  have hpause := s.pauser_endAct g
  rw [hnext]
  generalize s.endAct actBgcal g = u at hend hpause ⊢
  cases hon : s.bgOn g with
  | false =>
    rw [if_pos (by decide)]
    refine ⟨hend.trans ((u.bgPhase_frame g _ _).keeps.mono (by decide)), fun _ h6 => ?_, nofun, nofun⟩
    rw [if_neg h6]
    exact u.bgPhase_phase g 0 0
  | true =>
    rw [if_neg (by decide)]
    by_cases hpos : s.getF (F.CAL_GROUP_STATE_POS g) < 15
    · rw [if_pos hpos]
      obtain ⟨hk, hp, -, hph⟩ := u.bgCycle_result g hg (s.getF (F.CAL_GROUP_STATE_POS g) + 1)
      exact ⟨hend.trans (hk.mono (by decide)), nofun,
        fun _ hpa _ => ⟨hph (hpause hpa), hp.trans (Nat.mod_eq_of_lt (by omega))⟩, fun _ _ h15 => absurd hpos (by omega)⟩
    · rw [if_neg hpos]
      obtain ⟨hk, -, -, hph⟩ := (u.bgPhase g 5 s.calLen).submit_bg_result g hg
      exact ⟨(hend.trans ((u.bgPhase_frame g _ _).keeps.mono (by decide))).trans (hk.mono (by decide)), nofun,
        fun _ _ h => absurd h hpos, fun _ hpa _ => (hph ((u.bgPhase_pauser g hg _ _).trans (hpause hpa))).trans (u.bgPhase_phase g 5 _)⟩

/-! ### What a check that passes or fails does -/

/-- The fields that a background calibration changes. -/
def bgFields : List Field := [.regs, .cal, .mnt, .pwr, .recq, .host, .obs, .upd, .freeCtr]

theorem State.setF_phase_bit (n lo : Nat) (hlo : 3 ≤ lo) :
    (s.setF (F.CAL_GROUP_STATE_PHASE g) n).bit ⟨R.CAL_GROUP_STATE g, lo, 1⟩ = s.bit ⟨R.CAL_GROUP_STATE g, lo, 1⟩ :=
  bit_setF_other _ _ _ _ (phase_fits g) (.inr (.inr hlo))

/-- A spare with a lasting fault. -/
theorem State.spareFault_result (src : Nat) :
    Keeps [.regs, .recq] s (s.spareFault g src) ∧ (s.spareFault g src).bit (F.CAL_GROUP_STATE_SPARE_FAULT g) = true ∧
    (s.spareFault g src).getF (F.CAL_GROUP_STATE_PHASE g) = 6 :=
  ⟨(((Keeps.refl _ s).setF _ _ (by decide)).setF _ _ (by decide)).emit _ _ _ (by decide),
    (State.setF_phase_bit _ g _ _ (by decide)).trans (bit_setF_one s _ (by show 16 + 1 ≤ 32 ∧ 1 = 1; decide)),
    getF_setF_same _ _ _ (phase_fits g)⟩

theorem State.bgSpareFails_result (hg : g < 16) :
    Keeps bgFields s (s.bgSpareFails g) ∧ (s.bgSpareFails g).bit (F.CAL_GROUP_STATE_SPARE_FAULT g) = true ∧
    (s.bgSpareFails g).getF (F.CAL_GROUP_STATE_PHASE g) = 6 ∧ (s.bgSpareFails g).mnt.running = dropAct actBgcal g s.mnt.running := by
  unfold State.bgSpareFails
  have hout := (s.calOutcome_frame (256 + g) true).keeps
  obtain ⟨hk, hbit, hph⟩ := (s.calOutcome (256 + g) true).spareFault_result g 1
  have hk : Keeps faultFields s _ := hout.trans (hk.mono (by decide))
  generalize (s.calOutcome (256 + g) true).spareFault g 1 = u at hk hbit hph ⊢
  have hshow : Frame [.regs] besideResults u ((u.setF (F.CAL_RESULT_LASTING (256 + g)) 1).showCal) :=
    ((Frame.refl _ _ u).setF _ _ (by decide) (not_besideResults_result (by omega))).trans (State.showCal_frame _)
  generalize ((u.setF (F.CAL_RESULT_LASTING (256 + g)) 1).showCal) = v at hshow ⊢
  have hs := besideResults_state hg
  have hk := hk.trans (hshow.keeps.mono (by decide))
  refine ⟨(hk.mono (by decide)).trans ((v.endAct_bg_frame g (fun _ => True)).keeps.mono (by decide)),
    (hshow.rd.bit _ hs).trans hbit, (hshow.rd.getF _ hs).trans hph, ?_⟩
  show dropAct actBgcal g v.mnt.running = _
  rw [hk .mnt (by decide)]

theorem State.serve_servesNow (h : g < s.cal.groups.length) (p : Nat) : (s.serve g p).servesNow g p = true := by
  rw [State.servesNow, State.serve, State.grp_updGrp h]
  simp

theorem State.unserve_servesNow (h : g < s.cal.groups.length) (p : Nat) : (s.unserve g p).servesNow g p = false := by
  rw [State.servesNow, State.unserve, State.grp_updGrp h]
  refine List.any_eq_false.mpr (fun e he => ?_)
  obtain ⟨d, -, rfl⟩ := List.mem_map.mp he
  by_cases hd : d.1 = p ∧ d.2.2 = none
  · rw [if_pos hd]
    simp
  · rw [if_neg hd]
    simpa using hd

theorem State.learnMatch_groups : (s.learnMatch g).cal.groups.length = s.cal.groups.length := by
  obtain ⟨x, he⟩ := s.learnMatch_eq g
  rw [he]
  exact updAt_length _ _ _

/-- The run state is beside the registers of calibration. -/
theorem besideResults_run : besideResults R.AFE_RUN_STATUS := by
  unfold besideResults
  decide

/-- The switch of a channel, with its register and its record. -/
theorem State.bgSwitch_result (typ : Nat) :
    Frame [.regs, .recq] (fun o => o ≠ R.CAL_GROUP_SN_LO g ∧ o ≠ R.CAL_GROUP_SN_HI g) s (s.bgSwitch g typ) ∧
    (s.bgSwitch g typ).rd64 (R.CAL_GROUP_SN_LO g) (R.CAL_GROUP_SN_HI g) = s.snOr1 s.firstSn % 2 ^ 64 ∧
    (s.bgSwitch g typ).recq = s.recq ++ [⟨0, typ, psn (s.snOr1 s.firstSn), s.tick⟩] :=
  ⟨((Frame.refl _ _ s).wr64 _ _ _ (by decide) (fun h => h.1 rfl) (fun h => h.2 rfl)).emit _ _ _ (by decide),
    rd64_wr64_mod s _ (by unfold R.CAL_GROUP_SN_LO R.CAL_GROUP_SN_HI; omega), rfl⟩

/-- The end of SHADOW: the spare serves the channel, and CALIBRATE begins. -/
def State.handsOver (s : State) (g : Nat) : State :=
  (((s.learnMatch g).serve g (s.getF (F.CAL_GROUP_STATE_POS g))).bgSwitch g 0x0804).bgPhase g 2 s.calLen

theorem State.handsOver_result (hg : g < 16) (hl : s.cal.groups.length = 16) :
    Keeps [.regs, .cal, .recq, .freeCtr] s (s.handsOver g) ∧ (s.handsOver g).getF (F.CAL_GROUP_STATE_PHASE g) = 2 ∧
    (s.handsOver g).servesNow g (s.getF (F.CAL_GROUP_STATE_POS g)) = true ∧
    (s.handsOver g).rd64 (R.CAL_GROUP_SN_LO g) (R.CAL_GROUP_SN_HI g) = s.snOr1 s.firstSn % 2 ^ 64 ∧
    (s.handsOver g).recq = s.recq ++ [⟨0, 0x0804, psn (s.snOr1 s.firstSn), s.tick⟩] := by
  unfold State.handsOver
  have hm := s.learnMatch_frame g (fun _ => True)
  have hlen := s.learnMatch_groups g
  generalize s.learnMatch g = u at hm hlen ⊢
  generalize hp : s.getF (F.CAL_GROUP_STATE_POS g) = p
  have hserve : Frame [.cal, .freeCtr] (fun _ => True) s (u.serve g p) := hm.updGrp _ _ (by decide)
  have hserves := u.serve_servesNow g (by omega) p
  generalize u.serve g p = v at hserve hserves ⊢
  obtain ⟨hk, hsn, hrec⟩ := v.bgSwitch_result g 0x0804
  have hcal := hk.keeps .cal (by decide)
  have hsn' : v.snOr1 v.firstSn = s.snOr1 s.firstSn := by
    rw [State.snOr1, State.snOr1, State.runSt, State.runSt, hserve.rd.getF _ trivial, State.firstSn, State.firstSn, hserve.keeps .run (by decide)]
  rw [hsn'] at hsn hrec
  generalize v.bgSwitch g 0x0804 = w at hk hsn hrec hcal ⊢
  have hph := w.bgPhase_frame g 2 s.calLen
  have htick : v.tick = s.tick := by rw [State.tick, State.tick, hserve.keeps .time (by decide)]
  refine ⟨((hserve.keeps.mono (by decide)).trans (hk.keeps.mono (by decide))).trans (hph.keeps.mono (by decide)), w.bgPhase_phase g 2 _, ?_, ?_, ?_⟩
  · rw [State.bgPhase_servesNow]
    exact (State.servesNow_of_cal (s := v) (by rw [hcal]) g p).trans hserves
  · rw [State.rd64, hph.rd _ (by unfold R.CAL_GROUP_SN_LO R.CAL_GROUP_STATE; omega), hph.rd _ (by unfold R.CAL_GROUP_SN_HI R.CAL_GROUP_STATE; omega)]
    exact hsn
  · rw [hph.keeps .recq (by decide), hrec, hserve.keeps .recq (by decide), htick]

/-! ### CALIBRATE -/

theorem State.learn_groups (k src : Nat) : (s.learn k src).cal.groups = s.cal.groups := by
  obtain ⟨f, f', he⟩ := s.learn_eq k src
  rw [he]
  show ((s.freeCorr.2.freeCorr.2.setFac s.freeCorr.2.freeCorr.2.lowPwr k (some f)).showFac k).cal.groups = _
  rw [State.showFac_keeps _ k .cal (by decide)]
  rfl

/-- New factors are factors of the committed mode. -/
theorem State.learn_fac (k src : Nat) (h : calSlot s.lowPwr k < s.cal.facs.length) : ((s.learn k src).fac s.lowPwr k).isSome = true := by
  obtain ⟨f, f', he⟩ := s.learn_eq k src
  rw [he]
  have hk := State.showFac_keeps (s.freeCorr.2.freeCorr.2.setFac s.freeCorr.2.freeCorr.2.lowPwr k (some f)) k
  have hlen : ((s.freeCorr.2.freeCorr.2.setFac s.freeCorr.2.freeCorr.2.lowPwr k (some f)).showFac k).cal.facs.length = s.cal.facs.length := by
    rw [hk .cal (by decide)]
    exact updAt_length _ _ _
  have hlow : ((s.freeCorr.2.freeCorr.2.setFac s.freeCorr.2.freeCorr.2.lowPwr k (some f)).showFac k).lowPwr = s.lowPwr := by
    rw [State.lowPwr, hk .conv (by decide)]
    rfl
  generalize (s.freeCorr.2.freeCorr.2.setFac s.freeCorr.2.freeCorr.2.lowPwr k (some f)).showFac k = u at hlen hlow ⊢
  rw [hlow]
  show ((updAt _ u.cal.facs (calSlot s.lowPwr k)).getD (calSlot s.lowPwr k) none).isSome = true
  rw [updAt_get_same _ _ _ _ (by omega)]
  rfl

/-- The tests of converter `c` pass, and it has new factors. -/
def State.bgPassed (s : State) (c first : Nat) : State :=
  (((((s.bgTests c first 0).setF (F.CAL_RESULT_LASTING c) 0).setF (F.CAL_RESULT_DEGRADED c) 0).learn c 2)).showCal

/-- The fields that the new factors of one converter change. -/
def passFields : List Field := [.regs, .cal, .recq, .host, .obs, .upd, .freeCtr]

theorem State.bgPassed_result {c : Nat} (hc : c < 256) (first : Nat) :
    Frame passFields besideResults s (s.bgPassed c first) ∧ (s.bgPassed c first).cal.groups = s.cal.groups ∧
    (s.cal.facs.length = 544 → ((s.bgPassed c first).fac s.lowPwr c).isSome = true) := by
  unfold State.bgPassed
  have hp := not_besideResults_result (show c < 272 by omega)
  have ht := ((s.bgTests_frame (show c < 272 by omega) first 0).setF (F.CAL_RESULT_LASTING c) 0 (by decide) hp).setF (F.CAL_RESULT_DEGRADED c) 0
    (by decide) hp
  generalize ((s.bgTests c first 0).setF (F.CAL_RESULT_LASTING c) 0).setF (F.CAL_RESULT_DEGRADED c) 0 = u at ht ⊢
  have hcal := ht.keeps .cal (by decide)
  have hlow : u.lowPwr = s.lowPwr := by rw [State.lowPwr, State.lowPwr, ht.keeps .conv (by decide)]
  have hl := (ht.wide (l' := passFields) (by decide)).trans ((u.learn_frame (show c < 272 by omega) 2).wide (by decide))
  have hg := u.learn_groups c 2
  have hfac := u.learn_fac c 2
  generalize u.learn c 2 = v at hl hg hfac ⊢
  have hshow := v.showCal_frame
  have hvcal := hshow.keeps .cal (by decide)
  rw [hcal] at hg hfac
  rw [hlow] at hfac
  refine ⟨hl.trans (hshow.wide (by decide)), by rw [hvcal, hg], fun hfl => ?_⟩
  rw [State.fac, hvcal]
  exact hfac (by unfold calSlot; split <;> omega)

theorem State.bgCommit_result (hg : g < 16) (first : Nat) :
    Keeps bgFields s (s.bgCommit g first) ∧
    ((s.grp g).pausing = false → (s.bgCommit g first).getF (F.CAL_GROUP_STATE_PHASE g) = 3 ∧ (s.bgCommit g first).mnt = s.mnt ∧
      (s.cal.facs.length = 544 → ((s.bgCommit g first).fac s.lowPwr (16 * g + s.getF (F.CAL_GROUP_STATE_POS g))).isSome = true)) := by
  have hpos : s.getF (F.CAL_GROUP_STATE_POS g) < 16 := getF_lt s _
  have heq : s.bgCommit g first =
      if ((s.bgPassed (16 * g + s.getF (F.CAL_GROUP_STATE_POS g)) first).grp g).pausing && !(s.bgPassed (16 * g + s.getF (F.CAL_GROUP_STATE_POS g)) first).bgPaused g then
        ((s.bgPassed (16 * g + s.getF (F.CAL_GROUP_STATE_POS g)) first).unserve g (s.getF (F.CAL_GROUP_STATE_POS g))).bgNext g
      else if ((s.bgPassed (16 * g + s.getF (F.CAL_GROUP_STATE_POS g)) first).grp g).pausing then
        (((s.bgPassed (16 * g + s.getF (F.CAL_GROUP_STATE_POS g)) first).unserve g (s.getF (F.CAL_GROUP_STATE_POS g))).setF
          (F.CAL_GROUP_STATE_PHASE g) 7).updGrp g (fun x => { x with pausing := false, same := false, second := false })
      else (s.bgPassed (16 * g + s.getF (F.CAL_GROUP_STATE_POS g)) first).bgPhase g 3 262144 := rfl
  rw [heq]
  generalize s.getF (F.CAL_GROUP_STATE_POS g) = pos at hpos ⊢
  obtain ⟨hk, hgrp, hfac⟩ := s.bgPassed_result (show 16 * g + pos < 256 by omega) first
  generalize s.bgPassed (16 * g + pos) first = u at hk hgrp hfac ⊢
  have hu : Keeps bgFields s u := hk.keeps.mono (by decide)
  have hun : Keeps bgFields s (u.unserve g pos) := hu.trans ((u.unserve_keeps g pos).mono (by decide))
  have hpaus : (u.grp g).pausing = (s.grp g).pausing := by rw [State.grp, State.grp, hgrp]
  rw [hpaus]
  cases hp : (s.grp g).pausing with
  | true =>
    refine ⟨?_, nofun⟩
    rw [Bool.true_and]
    exact Keeps.ite (fun _ => hun.trans (((u.unserve g pos).bgNext_result g hg).1.mono (by decide)))
      (fun _ => Keeps.ite (fun _ => (hun.setF _ _ (by decide)).updGrp _ _ (by decide)) (fun h => absurd rfl h))
  | false =>
    have hph := u.bgPhase_frame g 3 262144
    rw [Bool.false_and, if_neg (by decide), if_neg (by decide)]
    refine ⟨hu.trans (hph.keeps.mono (by decide)), fun _ => ⟨u.bgPhase_phase g 3 _, ?_, hfac⟩⟩
    rw [hph.keeps .mnt (by decide), hk.keeps .mnt (by decide)]

/-! ### Adoption -/

/-- The fields that an adoption changes. -/
def adoptFields : List Field := [.regs, .cal, .recq, .freeCtr]

/-- The spare serves the channel that its group adopts. -/
def State.adoptServes (s : State) (g p : Nat) : State :=
  (if s.servesNow g p then s else (s.learnMatch g).serve g p).emit 0 0x0803 (pw (16 * g + p) ++ pw (16 * g + p))

theorem State.adopt_eq (p : Nat) : s.adopt g p =
    if s.bit (F.CAL_GROUP_STATE_ADOPTED g) && s.getF (F.CAL_GROUP_STATE_ADOPT_POS g) == p then
      (((s.setF (F.CAL_GROUP_STATE_ADOPTED g) 1).setF (F.CAL_GROUP_STATE_ADOPT_POS g) p).setF (F.CAL_GROUP_STATE_PHASE g) 6)
    else (((s.setF (F.CAL_GROUP_STATE_ADOPTED g) 1).setF (F.CAL_GROUP_STATE_ADOPT_POS g) p).setF (F.CAL_GROUP_STATE_PHASE g) 6).adoptServes g p := rfl

theorem State.adoptServes_frame (q : Nat → Prop) (p : Nat) : Frame [.cal, .recq, .freeCtr] q s (s.adoptServes g p) :=
  Frame.emit (Frame.ite (fun _ => Frame.refl _ _ s) (fun _ => ((s.learnMatch_frame g q).wide (by decide)).updGrp _ _ (by decide))) _ _ _ (by decide)

theorem State.adopt_result (p : Nat) :
    Frame adoptFields (fun o => o ≠ R.CAL_GROUP_STATE g) s (s.adopt g p) ∧
    (s.adopt g p).bit (F.CAL_GROUP_STATE_ADOPTED g) = true ∧ (s.adopt g p).getF (F.CAL_GROUP_STATE_ADOPT_POS g) = p % 16 ∧
    (s.adopt g p).getF (F.CAL_GROUP_STATE_PHASE g) = 6 := by
  have hfit : (F.CAL_GROUP_STATE_ADOPT_POS g).lo + (F.CAL_GROUP_STATE_ADOPT_POS g).width ≤ 32 := by show 12 + 4 ≤ 32; decide
  have hshown : Frame adoptFields (fun o => o ≠ R.CAL_GROUP_STATE g) s
      (((s.setF (F.CAL_GROUP_STATE_ADOPTED g) 1).setF (F.CAL_GROUP_STATE_ADOPT_POS g) p).setF (F.CAL_GROUP_STATE_PHASE g) 6) :=
    (((Frame.refl _ _ s).setF _ _ (by decide) (fun h => h rfl)).setF _ _ (by decide) (fun h => h rfl)).setF _ _ (by decide) (fun h => h rfl)
  have hadopted : (((s.setF (F.CAL_GROUP_STATE_ADOPTED g) 1).setF (F.CAL_GROUP_STATE_ADOPT_POS g) p).setF
      (F.CAL_GROUP_STATE_PHASE g) 6).bit (F.CAL_GROUP_STATE_ADOPTED g) = true :=
    (State.setF_phase_bit _ g _ _ (by decide)).trans ((bit_setF_other _ _ _ _ hfit (.inr (.inl (by show 8 + 1 ≤ 12; decide)))).trans
      (bit_setF_one s _ (by show 8 + 1 ≤ 32 ∧ 1 = 1; decide)))
  have hpos : (((s.setF (F.CAL_GROUP_STATE_ADOPTED g) 1).setF (F.CAL_GROUP_STATE_ADOPT_POS g) p).setF
      (F.CAL_GROUP_STATE_PHASE g) 6).getF (F.CAL_GROUP_STATE_ADOPT_POS g) = p % 16 :=
    (getF_setF_other _ _ _ _ (phase_fits g) (.inr (.inr (by show 0 + 3 ≤ 12; decide)))).trans (getF_setF_same _ _ _ hfit)
  have hph : (((s.setF (F.CAL_GROUP_STATE_ADOPTED g) 1).setF (F.CAL_GROUP_STATE_ADOPT_POS g) p).setF
      (F.CAL_GROUP_STATE_PHASE g) 6).getF (F.CAL_GROUP_STATE_PHASE g) = 6 := getF_setF_same _ _ _ (phase_fits g)
  rw [State.adopt_eq]
  generalize (((s.setF (F.CAL_GROUP_STATE_ADOPTED g) 1).setF (F.CAL_GROUP_STATE_ADOPT_POS g) p).setF (F.CAL_GROUP_STATE_PHASE g) 6) = u at *
  have hs := u.adoptServes_frame g (fun _ => True) p
  split
  · exact ⟨hshown, hadopted, hpos, hph⟩
  · exact ⟨hshown.trans (hs.mono (by decide) (fun _ _ => trivial)), (hs.rd.bit _ trivial).trans hadopted, (hs.rd.getF _ trivial).trans hpos,
      (hs.rd.getF _ trivial).trans hph⟩

theorem State.bgAdopt_result (hg : g < 16) (first last : Nat) :
    Keeps bgFields s (s.bgAdopt g first last) ∧ (s.bgAdopt g first last).bit (F.CAL_GROUP_STATE_ADOPTED g) = true ∧
    (s.bgAdopt g first last).getF (F.CAL_GROUP_STATE_ADOPT_POS g) = s.getF (F.CAL_GROUP_STATE_POS g) ∧
    (s.bgAdopt g first last).getF (F.CAL_GROUP_STATE_PHASE g) = 6 ∧
    (s.bgAdopt g first last).bit (F.CAL_RESULT_LASTING (16 * g + s.getF (F.CAL_GROUP_STATE_POS g))) = true := by
  have hlt : s.getF (F.CAL_GROUP_STATE_POS g) < 16 := getF_lt s _
  unfold State.bgAdopt
  dsimp only
  generalize s.getF (F.CAL_GROUP_STATE_POS g) = pos at hlt ⊢
  have hc : 16 * g + pos < 272 := by omega
  have ht : Frame bgFields besideResults s ((s.bgTests (16 * g + pos) first last).setF (F.CAL_RESULT_LASTING (16 * g + pos)) 1) :=
    ((s.bgTests_frame hc first last).wide (by decide)).setF _ _ (by decide) (not_besideResults_result hc)
  have hlast : ((s.bgTests (16 * g + pos) first last).setF (F.CAL_RESULT_LASTING (16 * g + pos)) 1).bit (F.CAL_RESULT_LASTING (16 * g + pos)) = true :=
    bit_setF_one _ _ (by show 14 + 1 ≤ 32 ∧ 1 = 1; decide)
  generalize (s.bgTests (16 * g + pos) first last).setF (F.CAL_RESULT_LASTING (16 * g + pos)) 1 = u at ht hlast ⊢
  have hout : Frame bgFields besideCounts u (if first &&& last = 0 then u.calOutcome (16 * g + pos) true else u) :=
    Frame.ite (fun _ => (u.calOutcome_counts _ _).wide (by decide)) (fun _ => Frame.refl _ _ u)
  have hres : besideCounts (R.CAL_RESULT (16 * g + pos)) := by unfold besideCounts R.CAL_RESULT; omega
  have hlast := (hout.rd.bit (F.CAL_RESULT_LASTING (16 * g + pos)) hres).trans hlast
  have hk := ht.keeps.trans hout.keeps
  generalize (if first &&& last = 0 then u.calOutcome (16 * g + pos) true else u) = v at hlast hk ⊢
  obtain ⟨had, hadopted, hadpos, hadph⟩ := v.adopt_result g pos
  have hne : R.CAL_RESULT (16 * g + pos) ≠ R.CAL_GROUP_STATE g := by unfold R.CAL_RESULT R.CAL_GROUP_STATE; omega
  have hlast := (had.rd.bit (F.CAL_RESULT_LASTING (16 * g + pos)) hne).trans hlast
  have hk := hk.trans (had.keeps.mono (by decide))
  generalize v.adopt g pos = w at hlast hk hadopted hadpos hadph ⊢
  have hend : Frame [.cal, .mnt, .pwr] (fun _ => True) w ((w.updGrp g (fun x => { x with second := false, pausing := false })).endAct actBgcal g) :=
    ((Frame.refl _ _ w).updGrp _ _ (by decide)).trans ((State.endAct_bg_frame _ g _).wide (by decide))
  generalize (w.updGrp g (fun x => { x with second := false, pausing := false })).endAct actBgcal g = x at hend ⊢
  have hshow := x.showCal_frame
  have hs := besideResults_state hg
  refine ⟨(hk.trans (hend.keeps.mono (by decide))).trans (hshow.keeps.mono (by decide)), ?_, ?_, ?_, ?_⟩
  · exact (hshow.rd.bit (F.CAL_GROUP_STATE_ADOPTED g) hs).trans ((hend.rd.bit _ trivial).trans hadopted)
  · exact (hshow.rd.getF (F.CAL_GROUP_STATE_ADOPT_POS g) hs).trans
      ((hend.rd.getF _ trivial).trans (hadpos.trans (Nat.mod_eq_of_lt hlt)))
  · exact (hshow.rd.getF (F.CAL_GROUP_STATE_PHASE g) hs).trans ((hend.rd.getF _ trivial).trans hadph)
  · exact (x.showCal_lasting _).trans ((hend.rd.bit _ trivial).trans hlast)

theorem State.wakeDom_waking {d : Nat} (hd : d < 14) (h : s.domOn d = false) : d ∈ (s.wakeDom d).pwr.waking ∨ (s.wakeDom d).domState d = 2 := by
  by_cases hw : d ∈ s.pwr.waking
  · refine .inl ?_
    rw [State.wakeDom, if_neg (ne_true_of_eq_false h), if_pos (by simpa using hw)]
    exact hw
  · by_cases hf : s.pwr.fellAt.getD d none = some s.tick
    · refine .inr ?_
      rw [State.wakeDom_sameTick h hw hf]
      have hon : ((s.setDom d 2).worked d).domState d = 2 := s.domState_setDom hd 2
      exact (State.domState_eq_of_regs (State.clkMove_keeps _ s .regs (by decide)) d).trans hon
    · refine .inl ?_
      rw [State.wakeDom_starts h hw hf]
      exact List.mem_append_right _ List.mem_cons_self

theorem State.bgRepeat_result (hl : g < s.cal.groups.length) (first : Nat) :
    Keeps [.cal] s (s.bgRepeat g first) ∧ ((s.bgRepeat g first).grp g).second = true ∧ ((s.bgRepeat g first).grp g).from0 = s.run.scyc := by
  refine ⟨(Keeps.refl _ s).updGrp _ _ (by decide), ?_, ?_⟩ <;> rw [State.bgRepeat, State.grp_updGrp hl]

/-- The last outcome of a phase that was repeated. -/
theorem State.secondPass_frame (c : Bool) (k : Nat) : Frame faultFields besideResults s (if c then s.calOutcome k false else s) :=
  Frame.ite (fun _ => s.calOutcome_frame _ _) (fun _ => Frame.refl _ _ s)

/-- A spare that passes ends its sweep. -/
def State.sweepEnds (s : State) (g : Nat) : State :=
  (((((s.learn (256 + g) 2).showCal).bump (F.CAL_GROUP_SWEEPS_SWEEPS g)).bgPhase g 0 0)).endAct actBgcal g

theorem State.sweepEnds_result (hg : g < 16) :
    Keeps bgFields s (s.sweepEnds g) ∧ (s.sweepEnds g).getF (F.CAL_GROUP_STATE_PHASE g) = 0 ∧
    (s.sweepEnds g).mnt.running = dropAct actBgcal g s.mnt.running ∧
    (s.sweepEnds g).getF (F.CAL_GROUP_SWEEPS_SWEEPS g) = (s.getF (F.CAL_GROUP_SWEEPS_SWEEPS g) + 1) % 2 ^ 32 := by
  unfold State.sweepEnds
  have hl := ((s.learn_frame (show 256 + g < 272 by omega) 2).wide (l' := learnFields) (by decide)).trans ((State.showCal_frame _).wide (by decide))
  generalize (s.learn (256 + g) 2).showCal = u at hl ⊢
  have hsw := hl.rd.getF (F.CAL_GROUP_SWEEPS_SWEEPS g) (besideResults_sweeps hg)
  have hbump : (u.bump (F.CAL_GROUP_SWEEPS_SWEEPS g)).getF (F.CAL_GROUP_SWEEPS_SWEEPS g) = (u.getF (F.CAL_GROUP_SWEEPS_SWEEPS g) + 1) % 2 ^ 32 :=
    getF_bump_same _ _ (by show 0 + 32 ≤ 32; decide)
  rw [hsw] at hbump
  have hk := hl.keeps.bump (F.CAL_GROUP_SWEEPS_SWEEPS g) (by decide)
  generalize u.bump (F.CAL_GROUP_SWEEPS_SWEEPS g) = v at hbump hk ⊢
  have hph := v.bgPhase_frame g 0 0
  have hend := (v.bgPhase g 0 0).endAct_bg_frame g (fun _ => True)
  refine ⟨((hk.mono (by decide)).trans (hph.keeps.mono (by decide))).trans (hend.keeps.mono (by decide)),
    (hend.rd.getF _ trivial).trans (v.bgPhase_phase g 0 _), ?_, (hend.rd.getF _ trivial).trans ((hph.rd.getF _ ?_).trans hbump)⟩
  · show dropAct actBgcal g (v.bgPhase g 0 0).mnt.running = _
    rw [hph.keeps .mnt (by decide), hk .mnt (by decide)]
  · show R.CAL_GROUP_SWEEPS g ≠ R.CAL_GROUP_STATE g
    unfold R.CAL_GROUP_SWEEPS R.CAL_GROUP_STATE
    omega

/-- The return of a channel to its own converter. -/
theorem State.handback_result (hg : g < 16) (hl : s.cal.groups.length = 16) (h : s.bgOver g 3 = true) (hb : (s.grp g).notB4 ≤ s.run.scyc) :
    Keeps [.regs, .cal, .recq, .freeCtr] s (s.handback g) ∧ RegsKept [R.CAL_GROUP_STATE g, R.CAL_GROUP_SN_LO g, R.CAL_GROUP_SN_HI g] s (s.handback g) ∧
    (s.handback g).getF (F.CAL_GROUP_STATE_PHASE g) = 4 ∧ (s.handback g).servesNow g (s.getF (F.CAL_GROUP_STATE_POS g)) = false ∧
    (s.handback g).recq = s.recq ++ [⟨0, 0x0805, psn (s.snOr1 s.firstSn), s.tick⟩] ∧
    ((s.handback g).grp g).len = 2 ^ s.getF F.CAL_BG_CTRL_GLIDE := by
  have hc : (s.bgOver g 3 && decide ((s.grp g).notB4 ≤ s.run.scyc)) = true := by rw [h, decide_eq_true hb]; rfl
  obtain ⟨r, heq⟩ : ∃ r, s.handback g =
      ((((s.freeCorr.2.freeCorr.2.unserve g (s.getF (F.CAL_GROUP_STATE_POS g))).bgSwitch g 0x0805).bgPhase g 4
        (2 ^ s.getF F.CAL_BG_CTRL_GLIDE))).updGrp g (fun x => { x with ret := r, gliding := some (s.getF (F.CAL_GROUP_STATE_POS g)) }) :=
    ⟨_, if_pos hc⟩
  rw [heq]
  generalize s.getF (F.CAL_GROUP_STATE_POS g) = p
  generalize 2 ^ s.getF F.CAL_BG_CTRL_GLIDE = len
  have hfree : Frame [.cal, .freeCtr] (fun _ => True) s (s.freeCorr.2.freeCorr.2.unserve g p) :=
    (((s.freeCorr_frame _).trans (State.freeCorr_frame _ _)).wide (by decide)).updGrp _ _ (by decide)
  have hserves := s.freeCorr.2.freeCorr.2.unserve_servesNow g (show g < s.cal.groups.length by omega) p
  have hlen : (s.freeCorr.2.freeCorr.2.unserve g p).cal.groups.length = 16 := (updAt_length _ _ _).trans hl
  generalize s.freeCorr.2.freeCorr.2.unserve g p = u at hfree hserves hlen ⊢
  obtain ⟨hsw, -, hrec⟩ := u.bgSwitch_result g 0x0805
  have hcal := hsw.keeps .cal (by decide)
  have hsn : u.snOr1 u.firstSn = s.snOr1 s.firstSn := by
    rw [State.snOr1, State.snOr1, State.runSt, State.runSt, hfree.rd.getF _ trivial, State.firstSn, State.firstSn, hfree.keeps .run (by decide)]
  have htick : u.tick = s.tick := by rw [State.tick, State.tick, hfree.keeps .time (by decide)]
  rw [hsn, htick, hfree.keeps .recq (by decide)] at hrec
  generalize u.bgSwitch g 0x0805 = v at hsw hrec hcal ⊢
  have hph := v.bgPhase_frame g 4 len
  have hvl : g < v.cal.groups.length := by rw [hcal]; omega
  have hwl : g < (v.bgPhase g 4 len).cal.groups.length := by
    show g < (updAt _ v.cal.groups g).length
    rw [updAt_length]
    exact hvl
  have hglen : ((v.bgPhase g 4 len).grp g).len = len := by
    rw [State.bgPhase, State.grp_updGrp (s := v.setF _ _) hvl]
  have hws : (v.bgPhase g 4 len).servesNow g p = false := by
    rw [State.bgPhase_servesNow]
    exact (State.servesNow_of_cal (s := u) (by rw [hcal]) g p).trans hserves
  have hphase := v.bgPhase_phase g 4 len
  generalize v.bgPhase g 4 len = w at hph hwl hglen hws hphase ⊢
  have hk : Keeps [.regs, .cal, .recq, .freeCtr] s w := ((hfree.keeps.mono (by decide)).trans (hsw.keeps.mono (by decide))).trans (hph.keeps.mono (by decide))
  refine ⟨hk.updGrp _ _ (by decide), fun o ho => ?_, hphase, ?_, ?_, ?_⟩
  · simp only [List.mem_cons, List.not_mem_nil, or_false, not_or] at ho
    exact (hph.rd o ho.1).trans ((hsw.rd o ho.2).trans (hfree.rd o trivial))
  · rw [State.servesNow, State.grp_updGrp hwl]
    exact hws
  · show w.recq = _
    rw [hph.keeps .recq (by decide), hrec]
  · rw [State.grp_updGrp hwl]
    exact hglen

end

end Sys2Proof.Machine

open Sys2Proof.Machine in
/-- Settles O40: each phase by its check, and by whether it is the second one. -/
theorem backgroundCalibration : Obligations.BackgroundCalibration := by
  unfold Obligations.BackgroundCalibration
  refine ⟨fun g s hon hat hdom => ?_, fun g s hon hat hdom hl => ?_, fun g ok s hover hl => ?_, fun g o w k s hover hl => ?_,
    fun g s hover hb hl => ⟨_, rfl, s.handback_result g g.isLt hl hover hb⟩, fun g s hover hp => ?_, fun g ok s hover hl => ?_,
    fun g ok a b c s ph hph => ?_⟩
  · have heq : s.sweepStart g = s.wakeDom 13 := by
      rw [State.sweepStart, hon, decide_eq_true hat, hdom]
      rfl
    refine ⟨_, rfl, ?_⟩
    rw [heq]
    exact ⟨s.wakeDom_keeps 13, s.wakeDom_waking (by decide) hdom⟩
  · have heq : s.sweepStart g =
        if s.getF (F.CAL_GROUP_STATE_PHASE g) = 0 then
          (s.updGrp g (fun x => { x with sweepAt := s.tick + 500000 * s.getF F.CAL_BG_INTERVAL_INTERVAL_MS })).bgCycle g 0
        else if s.getF F.CAL_BG_INTERVAL_INTERVAL_MS = 0 then s
        else s.setF (F.CAL_GROUP_STATE_OVERRUN g) 1 := by
      rw [State.sweepStart, hon, decide_eq_true hat, hdom]
      rfl
    refine ⟨_, rfl, ?_⟩
    rw [heq]
    by_cases hph : s.getF (F.CAL_GROUP_STATE_PHASE g) = 0
    · rw [if_pos hph]
      have hgrp := State.grp_updGrp (s := s) (show (g : Nat) < s.cal.groups.length by omega)
        (fun x => { x with sweepAt := s.tick + 500000 * s.getF F.CAL_BG_INTERVAL_INTERVAL_MS })
      obtain ⟨hk, hpos, hsweep, hphase⟩ := State.bgCycle_result
        (s.updGrp g (fun x => { x with sweepAt := s.tick + 500000 * s.getF F.CAL_BG_INTERVAL_INTERVAL_MS })) g g.isLt 0
      rw [hgrp] at hsweep
      exact ⟨((Keeps.refl _ s).updGrp _ _ (by decide)).trans hk, fun _ => ⟨hpos, hsweep, hphase⟩, fun h => absurd hph h⟩
    · rw [if_neg hph]
      have hrefl := Keeps.refl [.regs] s
      by_cases hms : s.getF F.CAL_BG_INTERVAL_INTERVAL_MS = 0
      · rw [if_pos hms]
        exact ⟨hrefl.mono (by decide), fun h => absurd h hph, fun _ => ⟨hrefl, RegsKept.refl _ s, fun h => absurd hms h⟩⟩
      · rw [if_neg hms]
        exact ⟨(hrefl.setF _ _ (by decide)).mono (by decide), fun h => absurd h hph, fun _ => ⟨hrefl.setF _ _ (by decide),
          (RegsKept.refl _ s).setF _ _ List.mem_cons_self, fun _ => bit_setF_one _ _ (by show 17 + 1 ≤ 32 ∧ 1 = 1; decide)⟩⟩
  · have heq : s.handover g ok =
        if !ok then (if (s.grp g).second then s.bgSpareFails g else s.bgRepeat g 0)
        else if s.run.scyc < (s.grp g).notB4 then s
        else (if (s.grp g).second then s.calOutcome (256 + g) false else s).handsOver g := if_pos hover
    refine ⟨_, rfl, ?_⟩
    rw [heq]
    have hrep := s.bgRepeat_result g (show (g : Nat) < s.cal.groups.length by omega) 0
    have hfail := s.bgSpareFails_result g g.isLt
    have hsec := s.secondPass_frame (s.grp g).second (256 + g)
    cases ok with
    | false =>
      rw [if_pos (by decide)]
      cases h2 : (s.grp g).second with
      | false => exact ⟨hrep.1.mono (by decide), nofun, fun _ _ => hrep, nofun⟩
      | true => exact ⟨hfail.1, nofun, nofun, fun _ _ => hfail.2⟩
    | true =>
      rw [if_neg (by decide)]
      by_cases hb : s.run.scyc < (s.grp g).notB4
      · rw [if_pos hb]
        exact ⟨Keeps.refl _ s, fun _ h => absurd h (by omega), nofun, nofun⟩
      · rw [if_neg hb]
        generalize (if (s.grp g).second then s.calOutcome (256 + g) false else s) = u at hsec ⊢
        obtain ⟨hk, hph, hserves, hsn, hrec⟩ := u.handsOver_result g g.isLt (by rw [hsec.keeps .cal (by decide)]; exact hl)
        rw [hsec.rd.getF (F.CAL_GROUP_STATE_POS g) (besideResults_state g.isLt)] at hserves
        have hsn' : u.snOr1 u.firstSn = s.snOr1 s.firstSn := by
          rw [State.snOr1, State.snOr1, State.runSt, State.runSt, hsec.rd.getF F.AFE_RUN_STATUS_STATE besideResults_run, State.firstSn, State.firstSn,
            hsec.keeps .run (by decide)]
        have htick : u.tick = s.tick := by rw [State.tick, State.tick, hsec.keeps .time (by decide)]
        rw [hsn'] at hsn hrec
        rw [htick] at hrec
        exact ⟨(hsec.keeps.mono (by decide)).trans (hk.mono (by decide)), fun _ _ => ⟨hph, hserves, hsn, by rw [hrec]; simp⟩, nofun, nofun⟩
  · have heq : s.calibrateEnd g o w k =
        if b2n (!o) + 2 * b2n (!w) + 4 * b2n (!k) = 0 then s.bgCommit g (if (s.grp g).second then (s.grp g).first else 0)
        else if (s.grp g).second then s.bgAdopt g (s.grp g).first (b2n (!o) + 2 * b2n (!w) + 4 * b2n (!k))
        else s.bgRepeat g (b2n (!o) + 2 * b2n (!w) + 4 * b2n (!k)) := if_pos hover
    have hbad : b2n (!o) + 2 * b2n (!w) + 4 * b2n (!k) = 0 ↔ (o && w && k) = true := by cases o <;> cases w <;> cases k <;> decide
    refine ⟨_, rfl, ?_⟩
    rw [heq]
    generalize b2n (!o) + 2 * b2n (!w) + 4 * b2n (!k) = bad at hbad ⊢
    by_cases hz : bad = 0
    · rw [if_pos hz, hbad.mp hz]
      obtain ⟨hk, hpass⟩ := s.bgCommit_result g g.isLt (if (s.grp g).second then (s.grp g).first else 0)
      exact ⟨hk, fun _ => hpass, nofun, nofun⟩
    · rw [if_neg hz, eq_false_of_ne_true (fun h => hz (hbad.mpr h))]
      obtain ⟨hk, h2, -⟩ := s.bgRepeat_result g (show (g : Nat) < s.cal.groups.length by omega) bad
      obtain ⟨hka, had⟩ := s.bgAdopt_result g g.isLt (s.grp g).first bad
      cases hs : (s.grp g).second with
      | false => exact ⟨hk.mono (by decide), nofun, fun _ _ => ⟨hk, h2⟩, nofun⟩
      | true => exact ⟨hka, nofun, nofun, fun _ _ => had⟩
  · have heq : s.glideEnd g = (s.updGrp g (fun x => { x with gliding := none })).bgNext g := if_pos hover
    have hph : s.getF (F.CAL_GROUP_STATE_PHASE g) = 4 := by
      have h : (s.getF (F.CAL_GROUP_STATE_PHASE g) == 4) = true := by
        rw [State.bgOver, Bool.and_eq_true, Bool.and_eq_true] at hover
        exact hover.1.1
      exact eq_of_beq h
    refine ⟨_, rfl, ?_⟩
    rw [heq]
    obtain ⟨hk, hoff, hnext, hspare⟩ := (s.updGrp g (fun x => { x with gliding := none })).bgNext_result g g.isLt
    have h6 : (s.updGrp g (fun x => { x with gliding := none })).getF (F.CAL_GROUP_STATE_PHASE g) ≠ 6 :=
      fun h => absurd (hph.symm.trans h) (by decide)
    exact ⟨((Keeps.refl _ s).updGrp _ _ (by decide)).trans hk, fun h => hoff h h6, fun h hlt => hnext h hp hlt, fun h h15 => hspare h hp h15⟩
  · have heq : s.spareCalEnd g ok =
        if ok then (if (s.grp g).second then s.calOutcome (256 + g) false else s).sweepEnds g
        else if (s.grp g).second then s.bgSpareFails g
        else s.bgRepeat g 0 := if_pos hover
    refine ⟨_, rfl, ?_⟩
    rw [heq]
    cases ok with
    | true =>
      rw [if_pos rfl]
      have hsec := s.secondPass_frame (s.grp g).second (256 + g)
      generalize (if (s.grp g).second then s.calOutcome (256 + g) false else s) = u at hsec ⊢
      obtain ⟨hk, hph, hrun, hsweeps⟩ := u.sweepEnds_result g g.isLt
      rw [hsec.keeps .mnt (by decide)] at hrun
      rw [hsec.rd.getF _ (besideResults_sweeps g.isLt)] at hsweeps
      exact ⟨(hsec.keeps.mono (by decide)).trans hk, fun _ => ⟨hph, hrun, hsweeps⟩, nofun, nofun⟩
    | false =>
      rw [if_neg (by decide)]
      obtain ⟨hk, h2, -⟩ := s.bgRepeat_result g (show (g : Nat) < s.cal.groups.length by omega) 0
      obtain ⟨hkf, hbit, -⟩ := s.bgSpareFails_result g g.isLt
      cases hs : (s.grp g).second with
      | false => exact ⟨hk.mono (by decide), nofun, fun _ _ => ⟨hk, h2⟩, nofun⟩
      | true => exact ⟨hkf, nofun, nofun, fun _ _ => hbit⟩
  · have hnot (n : Nat) (hn : ph ≠ n) : ¬ s.bgOver g n = true := by
      rw [State.bgOver, hph, beq_false_of_ne hn, Bool.false_and, Bool.false_and]
      decide
    refine ⟨fun h => ?_, fun h => ?_, fun h => ?_, fun h => ?_, fun h => ?_⟩
    · exact congrArg Host.Outcome.next (if_neg (hnot 1 h))
    · exact congrArg Host.Outcome.next (if_neg (hnot 2 h))
    · exact congrArg Host.Outcome.next (if_neg (fun hc => hnot 3 h ((Bool.and_eq_true _ _).mp hc).1))
    · exact congrArg Host.Outcome.next (if_neg (hnot 4 h))
    · exact congrArg Host.Outcome.next (if_neg (hnot 5 h))

end

section
/-!
SUPPORT. Foreground calibration (R104-R108) and the calibration store (R112-R116): what a submission, the joint factor write and
a save change, and O39.
-/

namespace Sys2Proof.Machine

section

variable (s : State)

/-! ### Submissions -/

theorem State.noteDepth_frame {l : List Field} {p : Nat → Prop} (hr : Field.regs ∈ l) (hp : ∀ o, p o → besideMnt o) : Frame l p s s.noteDepth :=
  Frame.ite (fun _ => (Frame.refl _ _ s).setF _ _ hr (fun h => hp _ h rfl)) (fun _ => Frame.refl _ _ s)

theorem State.noteDepth_mnt : s.noteDepth.mnt = s.mnt := by
  unfold State.noteDepth
  split <;> rfl

/-- The activity that a submission brings. -/
def arriving (a unit tag : Nat) : Activity := ⟨a, unit, tag, false, false⟩

/-- A submission, but for a settings save. -/
theorem State.submit_eq (a unit tag : Nat) (ha : a ≠ actSetsave) : s.submit a unit tag =
    if (a = actSetsave ∨ a = actCalsave) ∧ s.mnt.waiting.any (fun y => y.a == a && y.tag != 1) then
      { s.bump (F.MNT_ACT_JOINED_COUNT a) with mnt := { s.mnt with
        waiting := s.mnt.waiting.map (fun y => if y.a = a ∧ y.tag ≠ 1 then { y with tag := max y.tag tag } else y) } }
    else if a ≠ actReform ∧ a ≠ actSetsave ∧ s.mnt.waiting.any (fun y => y.a == a && y.unit == unit) then s
    else if (arriving a unit tag).blocked (s.mnt.running ++ s.mnt.waiting) then
      ({ s with mnt := { s.mnt with waiting := s.mnt.waiting ++ [{ arriving a unit tag with waited := true }] } }).noteDepth
    else s.enter (arriving a unit tag) := by
  unfold State.submit
  simp only [if_neg ha]
  rfl

variable {s} in
/-- What the admission of an activity keeps, its submission keeps. -/
theorem State.submit_frame {l : List Field} {p : Nat → Prop} {a unit tag : Nat} (ha : a ≠ actSetsave) (ha16 : a < 16) (hm : Field.mnt ∈ l)
    (hr : Field.regs ∈ l) (hp : ∀ o, p o → besideMnt o) (he : Frame l p s (s.enter (arriving a unit tag))) : Frame l p s (s.submit a unit tag) := by
  have hmnt (u : State) (x : MaintState) (h : Frame l p s u) : Frame l p s { u with mnt := x } := ⟨h.keeps.mnt _ hm, h.rd⟩
  rw [s.submit_eq a unit tag ha]
  refine Frame.ite (fun _ => hmnt _ _ ?_) (fun _ => Frame.ite (fun _ => Frame.refl _ _ s) (fun _ => Frame.ite (fun _ => ?_) (fun _ => he)))
  · refine (Frame.refl _ _ s).bump _ hr (fun h => hp _ h ?_)
    show (0xF0108 + 0x10 * a) / 0x10000 = 15
    omega
  · exact (hmnt s _ (Frame.refl _ _ s)).trans (State.noteDepth_frame _ hr hp)

variable {s} in
/-- An activity that is submitted runs or waits. -/
theorem State.submit_present {a unit tag : Nat} (ha : a ≠ actSetsave) :
    ∃ y ∈ (s.submit a unit tag).mnt.running ++ (s.submit a unit tag).mnt.waiting, y.a = a := by
  rw [s.submit_eq a unit tag ha]
  split
  · rename_i hj
    obtain ⟨y, hy, hya⟩ := List.any_eq_true.mp hj.2
    refine ⟨_, List.mem_append_right _ (List.mem_map_of_mem hy), ?_⟩
    split <;> simp_all
  split
  · rename_i hw
    obtain ⟨y, hy, hya⟩ := List.any_eq_true.mp hw.2.2
    exact ⟨y, List.mem_append_right _ hy, by simp_all⟩
  split
  · rw [State.noteDepth_mnt]
    exact ⟨{ arriving a unit tag with waited := true }, by simp, rfl⟩
  · obtain ⟨y, hy, hya⟩ := List.any_eq_true.mp (s.enter_result (arriving a unit tag)).2.2
    refine ⟨y, List.mem_append_left _ hy, ?_⟩
    rw [Bool.and_eq_true] at hya
    exact eq_of_beq hya.1

theorem State.endAct_calSave : (s.endAct actCalsave 0) = ({ s with mnt := { s.mnt with running := dropAct actCalsave 0 s.mnt.running } } : State).worked 13 := rfl

theorem State.endAct_calRun : (s.endAct actFgcal 0) = ({ s with mnt := { s.mnt with running := dropAct actFgcal 0 s.mnt.running } } : State).worked 13 := rfl

/-! ### CALRUN -/

theorem State.pauseBg_shown (g : Nat) :
    RdKept (fun o => o = R.CAL_STATUS) s (s.pauseBg g) ∧ (s.pauseBg g).cal.fg = s.cal.fg := by
  have hph (u : State) (n : Nat) : RdKept (fun o => o = R.CAL_STATUS) u (u.setF (F.CAL_GROUP_STATE_PHASE g) n) :=
    (RdKept.refl _ u).setF _ _ (by show ¬ 0x80100 + 0x10 * g = 0x80004; omega)
  unfold State.pauseBg
  dsimp only
  split
  · exact ⟨hph s 7, rfl⟩
  · exact ⟨RdKept.refl _ s, rfl⟩
  · exact ⟨hph (s.unserve g _) 7, rfl⟩
  · exact ⟨hph s 7, rfl⟩
  · exact ⟨RdKept.refl _ s, rfl⟩
  · exact ⟨RdKept.refl _ s, rfl⟩

/-- The cycle of group `g` pauses, where one runs. -/
def State.pauseGroup (s : State) (g : Nat) : State := if s.runs actBgcal g then (s.pauseBg g).setPaused actBgcal g true else s

theorem State.pauseAllBg_eq : s.pauseAllBg = (List.range 16).foldl State.pauseGroup s := rfl

theorem State.pauseAllBg_shown :
    RdKept (fun o => o = R.CAL_STATUS) s s.pauseAllBg ∧ s.pauseAllBg.cal.fg = s.cal.fg := by
  have hgo (u : State) (g : Nat) : RdKept (fun o => o = R.CAL_STATUS) u (u.pauseGroup g) ∧ (u.pauseGroup g).cal.fg = u.cal.fg := by
    unfold State.pauseGroup
    split
    · obtain ⟨hrd, hfg⟩ := u.pauseBg_shown g
      have hset : Keeps [.mnt] (u.pauseBg g) ((u.pauseBg g).setPaused actBgcal g true) := (Keeps.refl _ _).setPaused _ _ _ (by decide)
      exact ⟨hrd.of_keeps hset (by decide), by rw [hset .cal (by decide), hfg]⟩
    · exact ⟨RdKept.refl _ u, rfl⟩
  rw [State.pauseAllBg_eq]
  generalize List.range 16 = l
  induction l generalizing s with
  | nil => exact ⟨RdKept.refl _ s, rfl⟩
  | cons g l ih =>
    obtain ⟨hrd, hfg⟩ := hgo s g
    rw [List.foldl_cons]
    obtain ⟨hrd', hfg'⟩ := ih (s.pauseGroup g)
    exact ⟨hrd.trans hrd', hfg'.trans hfg⟩

/-- CALRUN arrives: its flags stand as CALRUN has set them. -/
theorem State.submit_calRun :
    Keeps [.regs, .cal, .mnt] s (s.submit actFgcal 0 0) ∧ (s.submit actFgcal 0 0).cal.fg = s.cal.fg ∧
    RdKept (fun o => o = R.CAL_STATUS) s (s.submit actFgcal 0 0) := by
  have henter : s.enter (arriving actFgcal 0 0) =
      ({ s with mnt := { s.mnt with running := s.mnt.running ++ [arriving actFgcal 0 0] } } : State).pauseAllBg := rfl
  have hpause := State.pauseAllBg_shown { s with mnt := { s.mnt with running := s.mnt.running ++ [arriving actFgcal 0 0] } }
  have hk := State.pauseAllBg_keeps { s with mnt := { s.mnt with running := s.mnt.running ++ [arriving actFgcal 0 0] } }
  rw [← henter] at hpause hk
  have hf : Frame [.regs, .cal, .mnt] (fun o => o = R.CAL_STATUS) s (s.enter (arriving actFgcal 0 0)) :=
    ⟨((Keeps.refl _ s).mnt _ (by decide)).trans hk, hpause.1⟩
  have hsub : Frame [.regs, .cal, .mnt] (fun o => o = R.CAL_STATUS) s (s.submit actFgcal 0 0) :=
    State.submit_frame (by decide) (by decide) (by decide) (by decide) (fun o ho => by rw [ho]; unfold besideMnt; decide) hf
  refine ⟨hsub.keeps, ?_, hsub.rd⟩
  rw [s.submit_eq _ _ _ (by decide)]
  split
  · rfl
  split
  · rfl
  split
  · unfold State.noteDepth
    split <;> rfl
  · exact hpause.2

/-! ### The joint factor write -/

section

/-- A change that leaves every factor. -/
structure Regroups (s t : State) : Prop where
  keeps : Keeps passFields s t
  facs : t.cal.facs = s.cal.facs

variable {s t u : State}

theorem Regroups.refl (s : State) : Regroups s s := ⟨Keeps.refl _ s, rfl⟩

theorem Regroups.trans (h : Regroups s t) (k : Regroups t u) : Regroups s u := ⟨h.keeps.trans k.keeps, k.facs.trans h.facs⟩

theorem Keeps.regroups {l : List Field} (h : Keeps l s t) (hl : ∀ f, f ∈ l → f ∈ passFields) (hc : Field.cal ∉ l) : Regroups s t :=
  ⟨h.mono hl, by rw [h .cal hc]⟩

theorem Regroups.setF (h : Regroups s t) (f : Fld) (n : Nat) : Regroups s (t.setF f n) := ⟨h.keeps.setF _ _ (by decide), h.facs⟩

theorem Regroups.updGrp (h : Regroups s t) (g : Nat) (f : CalGroup → CalGroup) : Regroups s (t.updGrp g f) := ⟨h.keeps.cal _ (by decide), h.facs⟩

theorem Regroups.emit (h : Regroups s t) (i y : Nat) (l : List Word) : Regroups s (t.emit i y l) := ⟨h.keeps.emit _ _ _ (by decide), h.facs⟩

theorem Regroups.ite {c : Prop} [Decidable c] (ht : Regroups s t) (hu : Regroups s u) : Regroups s (if c then t else u) := by
  split
  · exact ht
  · exact hu

theorem Regroups.foldl {α : Type} (f : State → α → State) (l : List α) (h : Regroups s t) (hf : ∀ v a, Regroups v (f v a)) :
    Regroups s (l.foldl f t) := by
  induction l generalizing t with
  | nil => exact h
  | cons a l ih => exact ih (h.trans (hf t a))

end

theorem State.learnMatch_regroups (g : Nat) : Regroups s (s.learnMatch g) := by
  refine ⟨(s.learnMatch_frame g (fun _ => True)).keeps.mono (by decide), ?_⟩
  obtain ⟨x, he⟩ := s.learnMatch_eq g
  rw [he]
  rfl

theorem State.adopt_regroups (g p : Nat) : Regroups s (s.adopt g p) := by
  rw [State.adopt_eq]
  have h := (((Regroups.refl s).setF (F.CAL_GROUP_STATE_ADOPTED g) 1).setF (F.CAL_GROUP_STATE_ADOPT_POS g) p).setF (F.CAL_GROUP_STATE_PHASE g) 6
  exact .ite h (.emit (.ite h ((h.trans (State.learnMatch_regroups _ g)).updGrp _ _)) _ _ _)

theorem State.unadopt_regroups (g : Nat) : Regroups s (s.unadopt g) :=
  .ite ((((Regroups.refl s).setF _ _).setF _ _).updGrp _ _) (.refl s)

theorem State.spareFault_regroups (g src : Nat) : Regroups s (s.spareFault g src) :=
  (((Regroups.refl s).setF _ _).setF _ _).emit _ _ _

theorem State.degrade_regroups (c : Nat) : Regroups s (s.degrade c) := by
  have h : Regroups s { s with upd := { s.upd with degr := true } } := ⟨(Keeps.refl _ s).upd _ (by decide), rfl⟩
  exact (h.setF _ _).emit _ _ _

theorem State.calGroup_regroups (outcomes : List Nat) (g : Nat) : Regroups s (s.calGroup outcomes g) := by
  have hdeg (u : State) (l : List Nat) (h : Regroups s u) : Regroups s (l.foldl (fun s p => s.degrade (16 * g + p)) u) :=
    h.foldl _ _ (fun v p => v.degrade_regroups _)
  unfold State.calGroup
  dsimp only
  refine .ite (hdeg _ _ ((s.unadopt_regroups g).trans (State.spareFault_regroups _ g 0))) ?_
  have hs := (Regroups.refl s).setF (F.CAL_GROUP_STATE_SPARE_FAULT g) 0
  have hun := hs.trans (State.unadopt_regroups _ g)
  split
  · exact .ite (hun.setF _ _) hun
  · exact hdeg _ _ (((Regroups.ite hun hs).trans (State.adopt_regroups _ g _)).setF _ _)

/-- The tests of converter `k` are recorded. -/
theorem State.calTests_regroups (outcomes : List Nat) (k : Nat) (l : List Nat) : Regroups s (l.foldl (fun s t => s.calTest outcomes k t) s) := by
  refine (Regroups.refl s).foldl _ _ (fun u t => ?_)
  have h : Regroups u (u.setF ⟨R.CAL_RESULT k, 2 * t, 2⟩ (outcomeOf outcomes k t)) := (Regroups.refl u).setF _ _
  exact .ite h (h.trans ((State.calOutcome_counts _ k _).keeps.regroups (by decide) (by decide)))

theorem State.learn_keeps (k src : Nat) : Keeps passFields s (s.learn k src) := by
  obtain ⟨f, f', he⟩ := s.learn_eq k src
  rw [he]
  refine Keeps.cal (Keeps.trans (Keeps.cal ?_ _ (by decide)) ((State.showFac_keeps _ k).mono (by decide))) _ (by decide)
  exact ((s.freeCorr_frame (fun _ => True)).trans (State.freeCorr_frame _ _)).keeps.mono (by decide)

/-- New factors stand at their slot. -/
theorem State.learn_facs (k src : Nat) : ∃ f f' : CalFactor,
    (s.learn k src).cal.facs = updAt (fun _ => some f') (updAt (fun _ => some f) s.cal.facs (calSlot s.lowPwr k)) (calSlot s.lowPwr k) := by
  obtain ⟨f, f', he⟩ := s.learn_eq k src
  refine ⟨f, f', ?_⟩
  rw [he]
  have hk := State.showFac_keeps (s.freeCorr.2.freeCorr.2.setFac s.freeCorr.2.freeCorr.2.lowPwr k (some f)) k
  have hcal := hk .cal (by decide)
  have hlow : ((s.freeCorr.2.freeCorr.2.setFac s.freeCorr.2.freeCorr.2.lowPwr k (some f)).showFac k).lowPwr = s.lowPwr := by
    rw [State.lowPwr, hk .conv (by decide)]
    rfl
  generalize (s.freeCorr.2.freeCorr.2.setFac s.freeCorr.2.freeCorr.2.lowPwr k (some f)).showFac k = u at hcal hlow ⊢
  rw [hlow]
  show updAt _ u.cal.facs (calSlot s.lowPwr k) = _
  rw [hcal]
  rfl

/-- A factor put in at one slot leaves valid factors valid. -/
theorem isSome_updAt {l : List (Option CalFactor)} {i j : Nat} (f : CalFactor) (h : (l.getD j none).isSome = true) :
    ((updAt (fun _ => some f) l i).getD j none).isSome = true := by
  by_cases hji : j = i
  · subst hji
    by_cases hl : j < l.length
    · rw [updAt_get_same _ _ _ _ hl]
      rfl
    · rw [List.getD_eq_default _ _ (by omega)] at h
      cases h
  · rw [updAt_get_other _ _ _ _ _ hji]
    exact h

/-- Valid factors stay valid, and no factor is without a slot. -/
structure Learns (s t : State) : Prop where
  keeps : Keeps passFields s t
  slots : t.cal.facs.length = s.cal.facs.length
  valid : ∀ low j, (s.fac low j).isSome = true → (t.fac low j).isSome = true

section

variable {s} {t u : State}

theorem Learns.refl (s : State) : Learns s s := ⟨Keeps.refl _ s, rfl, fun _ _ h => h⟩

theorem Learns.trans (h : Learns s t) (k : Learns t u) : Learns s u :=
  ⟨h.keeps.trans k.keeps, k.slots.trans h.slots, fun low j hv => k.valid low j (h.valid low j hv)⟩

theorem Regroups.learns (h : Regroups s t) : Learns s t :=
  ⟨h.keeps, by rw [h.facs], fun low j hv => by rw [State.fac, h.facs]; exact hv⟩

theorem Learns.lowPwr (h : Learns s t) : t.lowPwr = s.lowPwr := by rw [State.lowPwr, State.lowPwr, h.keeps .conv (by decide)]

end

theorem State.learn_learns (k src : Nat) : Learns s (s.learn k src) := by
  obtain ⟨f, f', he⟩ := s.learn_facs k src
  refine ⟨s.learn_keeps k src, by rw [he, updAt_length, updAt_length], fun low j hv => ?_⟩
  rw [State.fac, he]
  exact isSome_updAt f' (isSome_updAt f hv)

theorem State.calConv_learns (outcomes : List Nat) (k : Nat) :
    Learns s (s.calConv outcomes k) ∧
    (convFailed outcomes k = false → k < 272 → s.cal.facs.length = 544 → ((s.calConv outcomes k).fac s.lowPwr k).isSome = true) := by
  unfold State.calConv
  have ht := s.calTests_regroups outcomes k (List.range 5)
  generalize (List.range 5).foldl (fun s t => s.calTest outcomes k t) s = u at ht ⊢
  cases hf : convFailed outcomes k with
  | true => exact ⟨(ht.setF _ _).learns, nofun⟩
  | false =>
    have hset := ((ht.setF (F.CAL_RESULT_LASTING k) 0).setF (F.CAL_RESULT_DEGRADED k) 0).learns
    simp only [Bool.false_eq_true, if_false]
    generalize (u.setF (F.CAL_RESULT_LASTING k) 0).setF (F.CAL_RESULT_DEGRADED k) 0 = v at hset ⊢
    refine ⟨hset.trans (v.learn_learns k 1), fun _ hk hl => ?_⟩
    rw [← hset.lowPwr]
    refine v.learn_fac k 1 ?_
    rw [hset.slots, hl, calSlot]
    split <;> omega

theorem State.calConvs_learns (outcomes : List Nat) (l : List Nat) (hl : ∀ k ∈ l, k < 272) :
    Learns s (l.foldl (fun s k => s.calConv outcomes k) s) ∧
    (s.cal.facs.length = 544 → ∀ k ∈ l, convFailed outcomes k = false → ((l.foldl (fun s k => s.calConv outcomes k) s).fac s.lowPwr k).isSome = true) := by
  induction l generalizing s with
  | nil => exact ⟨Learns.refl s, by simp⟩
  | cons k l ih =>
    obtain ⟨hk, hfac⟩ := s.calConv_learns outcomes k
    rw [List.foldl_cons]
    obtain ⟨hrest, hall⟩ := ih (s.calConv outcomes k) (fun j hj => hl j (by simp [hj]))
    refine ⟨hk.trans hrest, fun h544 j hj hpass => ?_⟩
    rcases List.mem_cons.mp hj with rfl | hj
    · exact hrest.valid _ _ (hfac hpass (hl _ (by simp)) h544)
    · rw [← hk.lowPwr]
      exact hall (hk.slots.trans h544) j hj hpass

theorem pw_length (n : Nat) : (pw n).length = 1 := rfl

theorem State.calCommit_result (outcomes : List Nat) :
    Keeps passFields s (s.calCommit outcomes) ∧ (s.calCommit outcomes).cal.fg = 2 ∧ (s.calCommit outcomes).cal.done.length = 6 ∧
    (s.cal.facs.length = 544 → ∀ k, k < 272 → s.quadOn (convQuad k) = true → convFailed outcomes k = false →
      ((s.calCommit outcomes).fac s.lowPwr k).isSome = true) := by
  obtain ⟨hconv, hfac⟩ := s.calConvs_learns outcomes ((List.range 272).filter (fun k => s.quadOn (convQuad k)))
    (fun k hk => List.mem_range.mp (List.mem_filter.mp hk).1)
  unfold State.calCommit
  dsimp only
  generalize ((List.range 272).filter (fun k => s.quadOn (convQuad k))).foldl (fun s k => s.calConv outcomes k) s = u at hconv hfac ⊢
  have hgroups : Regroups u (((List.range 16).filter (fun g => u.quadOn (g / 4))).foldl (fun s g => s.calGroup outcomes g) u) :=
    (Regroups.refl u).foldl _ _ (fun v g => v.calGroup_regroups outcomes g)
  generalize ((List.range 16).filter (fun g => u.quadOn (g / 4))).foldl (fun s g => s.calGroup outcomes g) u = v at hgroups ⊢
  have hshow := v.showCal_keeps.regroups (by decide) (by decide)
  generalize v.showCal = w at hshow ⊢
  have hall := hconv.trans (hgroups.trans hshow).learns
  refine ⟨hall.keeps.cal _ (by decide), rfl, ?_, fun h544 k hk hq hpass => ?_⟩
  · simp only [List.length_append, pw_length]
  · exact (hgroups.trans hshow).learns.valid _ _ (hfac h544 k (List.mem_filter.mpr ⟨List.mem_range.mpr hk, hq⟩) hpass)

/-! ### The end of a save -/

theorem State.calTarget_lt : s.calTarget < 2 := by
  unfold State.calTarget lowerHalf
  repeat' split
  all_goals decide

/-- The snapshot is written, or its write has failed twice. -/
theorem State.calSaveEnd_result (fails : Nat) {x : CalHalf} (hx : s.cal.snap = some x) :
    Keeps [.regs, .cal, .flash, .recq, .host, .obs, .upd] s (s.calSaveEnd fails) ∧ (s.calSaveEnd fails).cal = { s.cal with snap := none } ∧
    (s.calSaveEnd fails).bit F.CAL_STATUS_SAVE_BUSY = false ∧
    (2 ≤ fails → (s.calSaveEnd fails).bit F.CAL_STATUS_SAVE_ERR = true ∧ (s.calSaveEnd fails).flash = s.flash) ∧
    (fails < 2 → s.flash.cals.length = 2 → (s.calSaveEnd fails).calHalf s.calTarget = x) := by
  have heq : s.calSaveEnd fails =
      if 2 ≤ fails then
        ((({ s with cal := { s.cal with snap := none } } : State).setF F.CAL_STATUS_SAVE_BUSY 0).mntFault 3 false (calHalfAddr s.calTarget)).setF
          F.CAL_STATUS_SAVE_ERR 1
      else (if fails = 1 then
          (({ s with cal := { s.cal with snap := none } } : State).setF F.CAL_STATUS_SAVE_BUSY 0).mntFault 3 true (calHalfAddr s.calTarget)
        else (({ s with cal := { s.cal with snap := none } } : State).setF F.CAL_STATUS_SAVE_BUSY 0)).setCalHalf s.calTarget x := by
    unfold State.calSaveEnd
    rw [hx]
  rw [heq]
  have ht := s.calTarget_lt
  generalize s.calTarget = h at ht ⊢
  have hu : Keeps [.regs, .cal] s (({ s with cal := { s.cal with snap := none } } : State).setF F.CAL_STATUS_SAVE_BUSY 0) :=
    ((Keeps.refl _ s).cal _ (by decide)).setF _ _ (by decide)
  have hcal : (({ s with cal := { s.cal with snap := none } } : State).setF F.CAL_STATUS_SAVE_BUSY 0).cal = { s.cal with snap := none } := rfl
  have hbusy : (({ s with cal := { s.cal with snap := none } } : State).setF F.CAL_STATUS_SAVE_BUSY 0).bit F.CAL_STATUS_SAVE_BUSY = false :=
    bit_setF_zero _ _ (by decide)
  generalize ({ s with cal := { s.cal with snap := none } } : State).setF F.CAL_STATUS_SAVE_BUSY 0 = u at hu hcal hbusy ⊢
  have hmnt : besideMnt R.CAL_STATUS := by unfold besideMnt; decide
  split
  · rename_i h2
    have hf := u.mntFault_frame (k := 3) (by decide) false (calHalfAddr h)
    have hset : Keeps [.regs] (u.mntFault 3 false (calHalfAddr h)) ((u.mntFault 3 false (calHalfAddr h)).setF F.CAL_STATUS_SAVE_ERR 1) :=
      (Keeps.refl _ _).setF _ _ (by decide)
    refine ⟨((hu.mono (by decide)).trans (hf.keeps.mono (by decide))).trans (hset.mono (by decide)), ?_, ?_, fun _ => ⟨bit_setF_one _ _ (by decide), ?_⟩,
      fun h => absurd h (by omega)⟩
    · rw [hset .cal (by decide), hf.keeps .cal (by decide), hcal]
    · exact (bit_setF_other _ _ _ _ (by decide) (.inr (.inl (by decide)))).trans ((hf.rd.bit F.CAL_STATUS_SAVE_BUSY hmnt).trans hbusy)
    · rw [hset .flash (by decide), hf.keeps .flash (by decide), hu .flash (by decide)]
  · rename_i h2
    have hf : Frame faultFields besideMnt u (if fails = 1 then u.mntFault 3 true (calHalfAddr h) else u) :=
      Frame.ite (fun _ => u.mntFault_frame (by decide) _ _) (fun _ => Frame.refl _ _ u)
    generalize (if fails = 1 then u.mntFault 3 true (calHalfAddr h) else u) = v at hf ⊢
    have hput : Frame [.flash] besideMnt v (v.setCalHalf h x) := ⟨(Keeps.refl _ v).flash _ (by decide), RdKept.refl _ v⟩
    refine ⟨((hu.mono (by decide)).trans (hf.keeps.mono (by decide))).trans (hput.keeps.mono (by decide)), ?_, ?_, fun h => absurd h h2, fun _ hl => ?_⟩
    · rw [hput.keeps .cal (by decide), hf.keeps .cal (by decide), hcal]
    · exact (hput.rd.bit F.CAL_STATUS_SAVE_BUSY hmnt).trans ((hf.rd.bit F.CAL_STATUS_SAVE_BUSY hmnt).trans hbusy)
    · show (updAt _ v.flash.cals h).getD h CalHalf.reset = x
      rw [updAt_get_same]
      rw [hf.keeps .flash (by decide), hu .flash (by decide)]
      omega

end

end Sys2Proof.Machine

open Sys2Proof.Machine in
/-- Settles O39: CALRUN and its abort by their guards, the joint write converter by converter, a save by the count of failures. -/
theorem foregroundCalibration : Obligations.ForegroundCalibration := by
  unfold Obligations.ForegroundCalibration
  refine ⟨fun id s hg => ?_, fun outcomes s hfg hruns => ?_, fun outcomes s h => ?_, fun s hfg => ?_, fun id s hg => ?_, fun id s hg => ?_,
    fun failures s x hruns hx => ?_⟩
  · refine gated_next _ hg (by decide) ?_
    by_cases hc : s.runSt = 0 ∧ s.bit F.CAL_STATUS_BUSY = false ∧ s.bit F.AFE_PLL_STATUS_LOCKED = true
    · have heq : s.calrun = (({ s with cal := { s.cal with fg := 1 } } : State).setF F.CAL_STATUS_BUSY 1).submit actFgcal 0 0 :=
        if_pos (by simpa using hc)
      rw [heq]
      obtain ⟨hk, hfg, hrd⟩ := State.submit_calRun (({ s with cal := { s.cal with fg := 1 } } : State).setF F.CAL_STATUS_BUSY 1)
      have hpres := State.submit_present (s := ({ s with cal := { s.cal with fg := 1 } } : State).setF F.CAL_STATUS_BUSY 1) (a := actFgcal) (unit := 0)
        (tag := 0) (by decide)
      have hb := (hrd.bit F.CAL_STATUS_BUSY rfl).trans (bit_setF_one _ F.CAL_STATUS_BUSY (by decide))
      have hu : Keeps [.regs, .cal, .mnt] s (({ s with cal := { s.cal with fg := 1 } } : State).setF F.CAL_STATUS_BUSY 1) :=
        ((Keeps.refl _ s).cal _ (by decide)).setF _ _ (by decide)
      have hk := hu.trans hk
      have hfg : ((({ s with cal := { s.cal with fg := 1 } } : State).setF F.CAL_STATUS_BUSY 1).submit actFgcal 0 0).cal.fg = 1 := hfg
      generalize (({ s with cal := { s.cal with fg := 1 } } : State).setF F.CAL_STATUS_BUSY 1).submit actFgcal 0 0 = u at hk hfg hpres hb ⊢
      exact ⟨(hk.mono (by decide)).bpReg _ _ _ (by decide), fun _ => ⟨hfg, hb, hpres⟩, fun h => absurd hc h⟩
    · have heq : s.calrun = s.setF F.CAL_STATUS_CALRUN_REFUSED 1 := if_neg (by simpa using hc)
      rw [heq]
      have hk : Keeps [.regs, .dbg] s (s.setF F.CAL_STATUS_CALRUN_REFUSED 1) := (Keeps.refl _ s).setF _ _ (by decide)
      refine ⟨(hk.mono (by decide)).bpReg _ _ _ (by decide), fun h => absurd h hc, fun _ => ⟨hk.bpReg _ _ _ (by decide),
        ((RegsKept.refl _ s).setF _ _ (by decide)).bpReg _ _ _, bit_setF_one s _ (by decide), ?_⟩⟩
      exact bit_setF_other s F.CAL_STATUS_CALRUN_REFUSED F.CAL_STATUS_BUSY 1 (by decide) (.inr (.inl (by decide)))
  · exact ⟨_, congrArg Host.Outcome.next (if_pos ⟨hfg, hruns⟩), s.calCommit_result outcomes⟩
  · refine congrArg Host.Outcome.next (if_neg (fun hc => ?_))
    rcases h with h | h
    · exact h hc.1
    · exact absurd hc.2 (ne_true_of_eq_false h)
  · refine ⟨_, congrArg Host.Outcome.next (if_pos hfg), ?_⟩
    dsimp only
    rw [State.endAct_calRun]
    refine ⟨?_, ?_, bit_setF_zero s _ (by decide), rfl, rfl, rfl⟩
    · exact ((((((Keeps.refl _ s).setF _ _ (by decide)).emit _ _ _ (by decide)).cal _ (by decide)).mnt _ (by decide)).worked _ (by decide))
    · have hr : RegsKept [R.CAL_STATUS] s (s.setF F.CAL_STATUS_BUSY 0) := (RegsKept.refl _ s).setF _ _ (by decide)
      exact hr
  · refine gated_next _ hg (by decide) ?_
    by_cases h1 : s.cal.fg = 1
    · have heq : s.calAbort = { ((s.setF F.CAL_STATUS_ABORTED 1).withdraw actFgcal 0) with
          cal := { ((s.setF F.CAL_STATUS_ABORTED 1).withdraw actFgcal 0).cal with
            fg := 3, done := pw 1 ++ pw 0 ++ pw 0 ++ pw 0 ++ pw 0 ++ pw 0 } } := if_pos h1
      rw [heq]
      have hw := (s.setF F.CAL_STATUS_ABORTED 1).withdraw_keeps actFgcal 0
      have hb : ((s.setF F.CAL_STATUS_ABORTED 1).withdraw actFgcal 0).bit F.CAL_STATUS_ABORTED = true := by
        have hset := bit_setF_one s F.CAL_STATUS_ABORTED (by decide)
        unfold State.withdraw
        split
        · exact (bit_bump_other _ _ _ (by decide) (.inl (by decide))).trans hset
        · exact hset
      generalize (s.setF F.CAL_STATUS_ABORTED 1).withdraw actFgcal 0 = u at hw hb ⊢
      have hk : Keeps [.regs, .cal, .mnt, .pwr, .dbg] s u := ((Keeps.refl _ s).setF _ _ (by decide)).trans (hw.mono (by decide))
      exact ⟨(hk.cal _ (by decide)).bpReg _ _ _ (by decide), fun _ => ⟨rfl, hb⟩, fun h => absurd (h1.symm.trans h) (by decide), fun h => absurd h1 h⟩
    · by_cases h2 : s.cal.fg = 2
      · have heq : s.calAbort = s.late F.CAL_STATUS_ABORT_LATE := (if_neg h1).trans (if_pos h2)
        rw [heq]
        have hk : Keeps [.regs, .cal, .mnt, .pwr, .dbg] s (s.late F.CAL_STATUS_ABORT_LATE) :=
          ((Keeps.refl _ s).setF _ _ (by decide)).bump _ (by decide)
        refine ⟨hk.bpReg _ _ _ (by decide), fun h => absurd h h1, fun _ => ⟨rfl, rfl, ?_, ?_⟩, fun _ h => absurd h2 h⟩
        · exact (bit_bump_other _ _ _ (by decide) (.inl (by decide))).trans (bit_setF_one s F.CAL_STATUS_ABORT_LATE (by decide))
        · have hcount := getF_bump_same (s.setF F.CAL_STATUS_ABORT_LATE 1) F.MNT_LATE_COUNT (by decide)
          rw [getF_setF_other s F.CAL_STATUS_ABORT_LATE F.MNT_LATE_COUNT 1 (by decide) (.inl (by decide))] at hcount
          exact hcount
      · have heq : s.calAbort = s := (if_neg h1).trans (if_neg h2)
        rw [heq]
        have hk : Keeps [.dbg] s (s.bpReg id R.CAL_CTRL true) := (Keeps.refl _ s).bpReg _ _ _ (by decide)
        exact ⟨hk.mono (by decide), fun h => absurd h h1, fun h => absurd h h2, fun _ _ => hk⟩
  · refine gated_next _ hg (by decide) ?_
    have he : Frame [.regs, .cal, .mnt, .flash] (fun _ => False) s (s.enter (arriving actCalsave 0 0)) := by
      refine ⟨?_, fun _ h => h.elim⟩
      show Keeps _ s (State.calSnap { s with mnt := { s.mnt with running := s.mnt.running ++ [arriving actCalsave 0 0] } })
      exact ((Keeps.refl _ s).mnt _ (by decide)).trans ((State.calSnap_keeps _).mono (by decide))
    have hsub := State.submit_frame (s := s) (a := actCalsave) (unit := 0) (tag := 0) (by decide) (by decide) (by decide) (by decide)
      (fun _ h => h.elim) he
    have hpres := State.submit_present (s := s) (a := actCalsave) (unit := 0) (tag := 0) (by decide)
    unfold State.calsaveSubmit
    generalize s.submit actCalsave 0 0 = u at hsub hpres ⊢
    exact ⟨(hsub.keeps.mono (by decide)).bpReg _ _ _ (by decide), hpres⟩
  · obtain ⟨hk, hcal, hbusy, herr, hput⟩ := s.calSaveEnd_result failures hx
    refine ⟨_, congrArg Host.Outcome.next (if_pos hruns), ?_⟩
    have hrun := hk .mnt (by decide)
    generalize s.calSaveEnd failures = u at hk hcal hbusy herr hput hrun ⊢
    rw [State.endAct_calSave]
    refine ⟨((hk.mono (by decide)).mnt _ (by decide)).worked _ (by decide), hcal, hbusy, ?_, herr, hput⟩
    show dropAct actCalsave 0 u.mnt.running = _
    rw [hrun]

end

section
/-!
SUPPORT. The host window onto sample memory (R223-R225, R219) and the scrub pass (R222): what the words show, and O45.
-/

namespace Sys2Proof.Machine

section

variable (s : State)

/-! ### What a word shows -/

theorem MemState.bytes_length (m : MemState) (a n : Nat) : (m.bytes a n).length = n := by simp [MemState.bytes]

theorem MemState.bytes_get (m : MemState) {a n i : Nat} (h : i < n) : (m.bytes a n)[i]? = some (m.byte (a + i)) := by
  simp [MemState.bytes, List.getElem?_range, h]

theorem State.storedWord_length (a : Nat) : (s.storedWord a).length = 4 := by
  unfold State.storedWord
  split
  · dsimp only
    split
    · exact MemState.bytes_length _ _ _
    · exact leBytes_length _ _
  · exact MemState.bytes_length _ _ _

/-- The word at `a` is what the memory holds there: no context's job has written it, or it has been written from outside since. -/
def State.plainAt (s : State) (a : Nat) : Prop :=
  match s.ctxAt a with
  | some n => (s.snt.ctxs.getD n SntCtx.reset).poked.contains a = true
  | none => True

variable {s} in
/-- The word of a used context. -/
theorem State.storedWord_ctx {a n : Nat} (h : s.ctxAt a = some n) : s.storedWord a =
    if (s.snt.ctxs.getD n SntCtx.reset).poked.contains a then s.mem.bytes a 4
    else leBytes 4 (Config.ctxWord (s.snt.ctxs.getD n SntCtx.reset).fill a) := by
  unfold State.storedWord
  split
  · rename_i m hm
    obtain rfl : m = n := Option.some.inj (hm.symm.trans h)
    rfl
  · rename_i hn
    rw [h] at hn
    cases hn

variable {s} in
theorem State.storedWord_noCtx {a : Nat} (h : s.ctxAt a = none) : s.storedWord a = s.mem.bytes a 4 := by
  unfold State.storedWord
  split
  · rename_i m hm
    rw [h] at hm
    cases hm
  · rfl

variable {s} in
theorem State.plainAt_ctx {a n : Nat} (h : s.ctxAt a = some n) : s.plainAt a ↔ (s.snt.ctxs.getD n SntCtx.reset).poked.contains a = true := by
  unfold State.plainAt
  rw [h]

variable {s} in
theorem State.plainAt_noCtx {a : Nat} (h : s.ctxAt a = none) : s.plainAt a := by
  unfold State.plainAt
  rw [h]
  trivial

variable {s} in
theorem State.storedWord_plain {a : Nat} (h : s.plainAt a) : s.storedWord a = s.mem.bytes a 4 := by
  cases hc : s.ctxAt a with
  | none => exact State.storedWord_noCtx hc
  | some n => rw [State.storedWord_ctx hc, if_pos ((State.plainAt_ctx hc).mp h)]

variable {s} in
/-- Another word shows the free values of its context. -/
theorem State.storedWord_free {a : Nat} (h : ¬ s.plainAt a) :
    ∃ n, s.ctxAt a = some n ∧ s.storedWord a = leBytes 4 (Config.ctxWord (s.snt.ctxs.getD n SntCtx.reset).fill a) := by
  cases hc : s.ctxAt a with
  | none => exact absurd (State.plainAt_noCtx hc) h
  | some n => exact ⟨n, rfl, by rw [State.storedWord_ctx hc, if_neg (fun hp => h ((State.plainAt_ctx hc).mpr hp))]⟩

variable {s} in
/-- The byte at `a`, where its word is plain. -/
theorem State.storedByte_plain {a : Nat} (h : s.plainAt (a / 4 * 4)) : (s.storedWord (a / 4 * 4))[a % 4]? = some (s.mem.byte a) := by
  rw [State.storedWord_plain h, MemState.bytes_get _ (by omega)]
  rw [show a / 4 * 4 + a % 4 = a by omega]

/-! ### Reads of the window -/

/-- A read moves nothing of the memory but the fault that it clears. -/
theorem State.memReadWord_mem (a : Nat) : (s.memReadWord a).2.mem = s.mem ∨ (s.memReadWord a).2.mem = s.mem.clearFault a := by
  unfold State.memReadWord
  split
  · exact .inl rfl
  · dsimp only
    split
    · exact .inr rfl
    · split
      · right
        simp only [State.mntFault_mem]
        split <;> rfl
      · left
        simp only [State.mntFault_mem]
        rfl

theorem State.memReadWords_line (s : State) (a n : Nat) : (s.memReadWords a n).2.mem.line = s.mem.line := by
  induction n generalizing s a with
  | zero => rfl
  | succ n ih =>
    unfold State.memReadWords
    dsimp only
    rw [ih]
    rcases s.memReadWord_mem a with h | h <;> rw [h]
    rfl

/-- A read of the window: what it changes, and that it leaves every byte. -/
structure WindowRead (s t : State) : Prop where
  step : MemStep s t
  cells : t.mem.cells = s.mem.cells

theorem State.windowWord_read (a : Nat) : WindowRead s (s.windowWord a).2.2 := by
  unfold State.windowWord
  dsimp only
  split <;> exact ⟨s.memReadWord_step a, s.memReadWord_cells a⟩

theorem State.windowWords_read (s : State) (a n : Nat) : WindowRead s (s.windowWords a n).2.2 := by
  induction n generalizing s a with
  | zero => exact ⟨MemStep.refl s, rfl⟩
  | succ n ih =>
    obtain ⟨hs, hc⟩ := s.windowWord_read a
    obtain ⟨hs', hc'⟩ := ih (s.windowWord a).2.2 (a + 4)
    exact ⟨hs.trans hs', hc'.trans hc⟩

/-- What `n` words from `a` on show. -/
def State.shownWords (s : State) : Nat → Nat → List Byte
  | _, 0 => []
  | a, n + 1 => s.storedWord a ++ s.shownWords (a + 4) n

theorem State.shownWords_length (a n : Nat) : (s.shownWords a n).length = 4 * n := by
  induction n generalizing a with
  | zero => rfl
  | succ n ih => rw [State.shownWords, List.length_append, s.storedWord_length, ih]; omega

theorem State.shownWords_get {a n i : Nat} (h : i < 4 * n) : (s.shownWords a n)[i]? = (s.storedWord (a + i / 4 * 4))[i % 4]? := by
  induction n generalizing a i with
  | zero => omega
  | succ n ih =>
    rw [State.shownWords]
    by_cases hi : i < 4
    · rw [List.getElem?_append_left (by rw [s.storedWord_length]; exact hi), show i / 4 = 0 by omega, show i % 4 = i by omega]
      rfl
    · rw [List.getElem?_append_right (by rw [s.storedWord_length]; omega), s.storedWord_length, ih (by omega)]
      rw [show a + 4 + (i - 4) / 4 * 4 = a + i / 4 * 4 by omega, show (i - 4) % 4 = i % 4 by omega]

section

variable {s}

theorem State.memReadWord_clean (h : s.mem.faults = []) (a : Nat) : s.memReadWord a = (MemRead.good, s) := by
  have hf : s.mem.faultAt a = none := by rw [MemState.faultAt, h]; rfl
  unfold State.memReadWord
  rw [hf]

theorem State.windowWords_clean (h : s.mem.faults = []) (a n : Nat) : s.windowWords a n = (s.shownWords a n, false, s) := by
  have hword (b : Nat) : s.windowWord b = (s.storedWord b, false, s) := by
    unfold State.windowWord
    rw [State.memReadWord_clean h]
    rfl
  induction n generalizing a with
  | zero => rfl
  | succ n ih =>
    unfold State.windowWords
    dsimp only
    rw [hword]
    dsimp only
    rw [ih]
    rfl

/-- The bytes read are those that the words show. -/
theorem State.windowRead_clean {id : Ident} {off len : Nat} (hmay : s.windowMay id false off len = true) (h : s.mem.faults = []) (hlen : 0 < len) :
    ∃ b, s.windowRead id off len = s.obsv (.memRead id.num off b false) ∧ b.length = len ∧
      ∀ k, k < len → b[k]? = (s.storedWord ((off + k) / 4 * 4))[(off + k) % 4]? := by
  refine ⟨sub (s.shownWords (off / 4 * 4) ((off + len - 1) / 4 + 1 - off / 4 * 4 / 4)) (off - off / 4 * 4) len, ?_, ?_, fun k hk => ?_⟩
  · unfold State.windowRead
    rw [if_pos hmay]
    dsimp only
    rw [State.windowWords_clean h]
  · rw [sub, List.length_take, List.length_drop, s.shownWords_length]
    omega
  · rw [sub, List.getElem?_take, if_pos hk, List.getElem?_drop, s.shownWords_get (by omega)]
    rw [show off / 4 * 4 + (off - off / 4 * 4 + k) / 4 * 4 = (off + k) / 4 * 4 by omega,
      show (off - off / 4 * 4 + k) % 4 = (off + k) % 4 by omega]

/-- Without used contexts, the bytes are those of the memory. -/
theorem bytes_of_plain (h : ∀ a, s.ctxAt a = none) {off len : Nat} {b : List Byte} (hl : b.length = len)
    (hb : ∀ k, k < len → b[k]? = (s.storedWord ((off + k) / 4 * 4))[(off + k) % 4]?) : b = s.mem.bytes off len := by
  refine List.ext_getElem? (fun k => ?_)
  by_cases hk : k < len
  · have hp : s.plainAt ((off + k) / 4 * 4) := by unfold State.plainAt; rw [h]; trivial
    rw [hb k hk, State.storedByte_plain hp, MemState.bytes_get _ hk]
  · rw [List.getElem?_eq_none (by omega), List.getElem?_eq_none (by rw [MemState.bytes_length]; omega)]

end

/-! ### Denied accesses -/

/-- The registers of a denied access (R225). -/
def State.denied (s : State) (id : Ident) (off : Nat) (w : Bool) : State :=
  (((s.bump F.MEM_DENY_COUNT_COUNT).setF F.MEM_DENY_LAST_OFFSET off).setB F.MEM_DENY_LAST_WRITE w).setF F.MEM_DENY_LAST_IDENT id.num

/-- The record of a denied access. -/
def State.denyRecord (s : State) (id : Ident) (w : Bool) : State :=
  s.emit id.num 0x0502 (pw (s.getF F.MEM_DENY_LAST_OFFSET) ++ pb w ++ pw id.num)

theorem State.denyRecord_eq (l : List Nat) (id : Ident) (w : Bool) : ({ s with firsts := l } : State).denyRecord id w =
    { s with firsts := l, recq := s.recq ++ [⟨id.num, 0x0502, pw (s.getF F.MEM_DENY_LAST_OFFSET) ++ pb w ++ pw id.num, s.tick⟩] } := by
  have hkept : RdKept (fun _ => True) s { s with firsts := l } := RdKept.refl _ s
  unfold State.denyRecord
  rw [hkept.getF _ trivial]
  generalize pw (s.getF F.MEM_DENY_LAST_OFFSET) ++ pb w ++ pw id.num = p
  rfl

theorem State.memDeny_eq (id : Ident) (off : Nat) (w : Bool) :
    s.memDeny id off w = (s.denied id off w).firstOf R.MEM_DENY_COUNT (fun u => u.denyRecord id w) := by
  unfold State.memDeny State.denied State.denyRecord
  dsimp only

theorem State.denied_frame (id : Ident) (off : Nat) (w : Bool) :
    Frame [.regs] (fun o => o ∉ [R.MEM_DENY_COUNT, R.MEM_DENY_LAST]) s (s.denied id off w) :=
  ((((Frame.refl _ _ s).bump _ (by decide) (fun h => h (by decide))).setF _ _ (by decide) (fun h => h (by decide))).setB _ _ (by decide)
    (fun h => h (by decide))).setF _ _ (by decide) (fun h => h (by decide))

theorem State.denied_offset (id : Ident) (off : Nat) (w : Bool) : (s.denied id off w).getF F.MEM_DENY_LAST_OFFSET = off % 2 ^ 27 := by
  unfold State.denied
  rw [getF_setF_other _ F.MEM_DENY_LAST_IDENT _ _ (by decide) (.inr (.inl (by decide))),
    getF_setB_other _ F.MEM_DENY_LAST_WRITE _ _ (by decide) (.inr (.inl (by decide))), getF_setF_same _ _ _ (by decide)]
  rfl

theorem State.denied_count (id : Ident) (off : Nat) (w : Bool) :
    (s.denied id off w).getF F.MEM_DENY_COUNT_COUNT = (s.getF F.MEM_DENY_COUNT_COUNT + 1) % 2 ^ 32 := by
  unfold State.denied
  rw [getF_setF_other _ F.MEM_DENY_LAST_IDENT _ _ (by decide) (.inl (by decide)),
    getF_setB_other _ F.MEM_DENY_LAST_WRITE _ _ (by decide) (.inl (by decide)),
    getF_setF_other _ F.MEM_DENY_LAST_OFFSET _ _ (by decide) (.inl (by decide)), getF_bump_same _ _ (by decide)]
  rfl

/-- A denied access: its count, its register, its record (R225). -/
theorem State.memDeny_result (id : Ident) (off : Nat) (w : Bool) :
    Keeps [.regs, .recq, .firsts] s (s.memDeny id off w) ∧ RegsKept [R.MEM_DENY_COUNT, R.MEM_DENY_LAST] s (s.memDeny id off w) ∧
    (s.memDeny id off w).getF F.MEM_DENY_COUNT_COUNT = (s.getF F.MEM_DENY_COUNT_COUNT + 1) % 2 ^ 32 ∧
    (s.firsts.contains R.MEM_DENY_COUNT = true → (s.memDeny id off w).recq = s.recq) ∧
    (s.firsts.contains R.MEM_DENY_COUNT = false →
      (s.memDeny id off w).recq = s.recq ++ [⟨id.num, 0x0502, pw (off % 2 ^ 27) ++ pb w ++ pw id.num, s.tick⟩]) := by
  have hf := s.denied_frame id off w
  have hcount := s.denied_count id off w
  have hrecq := hf.keeps .recq (by decide)
  have hfirsts := hf.keeps .firsts (by decide)
  have htick : (s.denied id off w).tick = s.tick := by rw [State.tick, State.tick, hf.keeps .time (by decide)]
  have hoff := s.denied_offset id off w
  rw [State.memDeny_eq]
  generalize s.denied id off w = u at hf hcount hrecq htick hfirsts hoff ⊢
  unfold State.firstOf
  rw [hfirsts]
  cases hc : s.firsts.contains R.MEM_DENY_COUNT with
  | true => exact ⟨hf.keeps.mono (by decide), fun o ho => hf.rd o ho, hcount, fun _ => hrecq, nofun⟩
  | false =>
    rw [if_neg (by decide)]
    dsimp only
    rw [State.denyRecord_eq, hoff, hrecq, htick]
    generalize (⟨id.num, 0x0502, pw (off % 2 ^ 27) ++ pb w ++ pw id.num, s.tick⟩ : RecIn) = r
    have hrun : Frame [.firsts, .recq] (fun _ => True) u { u with firsts := R.MEM_DENY_COUNT :: s.firsts, recq := s.recq ++ [r] } := by
      refine ⟨fun f hf => ?_, RdKept.refl _ u⟩
      cases f <;> first | rfl | exact absurd hf (by decide)
    exact ⟨(hf.keeps.mono (by decide)).trans (hrun.keeps.mono (by decide)), fun o ho => hf.rd o ho, (hrun.rd.getF _ trivial).trans hcount,
      nofun, fun _ => rfl⟩

/-! ### Writes of the window -/

theorem MemState.putEnabled_append (m : MemState) (a : Nat) (x y : List (Option Byte)) :
    m.putEnabled a (x ++ y) = (m.putEnabled a x).putEnabled (a + x.length) y := by
  induction x generalizing m a with
  | nil => rfl
  | cons b x ih =>
    have ha : a + (b :: x).length = a + 1 + x.length := by simp only [List.length_cons]; omega
    rw [ha]
    cases b with
    | none => exact ih m (a + 1)
    | some b => exact ih (m.put a b) (a + 1)

theorem MemState.putEnabled_none (m : MemState) (a : Nat) (x : List (Option Byte)) (h : x.all (·.isNone) = true) : m.putEnabled a x = m := by
  induction x generalizing a with
  | nil => rfl
  | cons b x ih =>
    rw [List.all_cons, Bool.and_eq_true] at h
    obtain ⟨hb, hx⟩ := h
    obtain rfl := Option.isNone_iff_eq_none.mp hb
    exact ih (a + 1) hx

theorem MemState.putEnabled_faults (m : MemState) (a : Nat) (x : List (Option Byte)) : (m.putEnabled a x).faults = m.faults := by
  induction x generalizing m a with
  | nil => rfl
  | cons b x ih =>
    cases b with
    | none => exact ih m (a + 1)
    | some b => exact ih (m.put a b) (a + 1)

/-- The byte at `c` after a write of the enabled bytes of `x` at `a`. -/
theorem MemState.putEnabled_byte (m : MemState) {a c : Nat} {x : List (Option Byte)} {v : Byte} (hc : a ≤ c) (h : x[c - a]? = some (some v)) :
    (m.putEnabled a x).byte c = v := by
  obtain ⟨hi, hx⟩ := List.getElem?_eq_some_iff.mp h
  have hb := MemState.byte_putEnabled x m a (c - a) hi
  rw [hx, show a + (c - a) = c by omega] at hb
  exact hb

theorem MemState.putEnabled_byte_kept (m : MemState) {a c : Nat} {x : List (Option Byte)}
    (h : c < a ∨ a + x.length ≤ c ∨ x[c - a]? = some none) : (m.putEnabled a x).byte c = m.byte c := by
  by_cases hlow : c < a
  · exact MemState.byte_putEnabled_below x m a c hlow
  · rcases h with h | h | h
    · exact absurd h hlow
    · exact MemState.byte_putEnabled_above x m a c h
    · obtain ⟨hi, hx⟩ := List.getElem?_eq_some_iff.mp h
      have hb := MemState.byte_putEnabled x m a (c - a) hi
      rw [hx, show a + (c - a) = c by omega] at hb
      exact hb

section

variable {s}

theorem State.memWroteWord_clean (hf : s.mem.faults = []) (harm : s.bit F.MEM_INJECT_CTRL_ARM = false) (a : Nat) : s.memWroteWord a = s := by
  have hl : s.mem.faults.filter (fun f => f.word != a) = s.mem.faults := by rw [hf]; rfl
  have hm : s.mem.clearFault a = s.mem := by rw [MemState.clearFault, hl]
  have hs : ({ s with mem := s.mem.clearFault a } : State) = s := by rw [hm]
  unfold State.memWroteWord
  dsimp only
  rw [hs, harm]
  exact if_neg (by simp)

/-- A write where no word fails and no injection is armed. -/
theorem State.windowWords'_clean {s : State} (hf : s.mem.faults = []) (harm : s.bit F.MEM_INJECT_CTRL_ARM = false) (n off : Nat)
    (b : List (Option Byte)) (hn : b.length < n) : s.windowWords' n off b = { s with mem := s.mem.putEnabled off b } := by
  induction n generalizing s off b with
  | zero => omega
  | succ n ih =>
    unfold State.windowWords'
    cases b with
    | nil => rfl
    | cons x b =>
      generalize hb : x :: b = l at hn ⊢
      have hpos : 0 < l.length := by rw [← hb]; simp
      rw [if_neg (by rw [← hb]; simp)]
      dsimp only
      generalize hk : min l.length (4 - off % 4) = k
      have hsplit : s.mem.putEnabled off l = (s.mem.putEnabled off (l.take k)).putEnabled (off + k) (l.drop k) := by
        have h := s.mem.putEnabled_append off (l.take k) (l.drop k)
        rwa [List.take_append_drop, List.length_take, show min k l.length = k by omega] at h
      have hrest : (l.drop k).length < n := by rw [List.length_drop]; omega
      by_cases hnone : (l.take k).all (·.isNone) = true
      · rw [if_pos hnone, ih hf harm _ _ hrest, hsplit, MemState.putEnabled_none _ _ _ hnone]
      · have hread : (if decide (k = 4) && (l.take k).all (·.isSome) then (MemRead.good, s) else s.memReadWord (off / 4 * 4)) = (MemRead.good, s) := by
          rw [State.memReadWord_clean hf]
          exact ite_self _
        have hput : ({ s with mem := s.mem.putEnabled off (l.take k) } : State).memWroteWord (off / 4 * 4) =
            { s with mem := s.mem.putEnabled off (l.take k) } :=
          State.memWroteWord_clean (s := { s with mem := s.mem.putEnabled off (l.take k) }) ((MemState.putEnabled_faults _ _ _).trans hf) harm _
        rw [if_neg hnone, hread]
        dsimp only
        rw [if_neg (by decide), hput, ih (s := { s with mem := s.mem.putEnabled off (l.take k) }) ((MemState.putEnabled_faults _ _ _).trans hf) harm _ _ hrest,
          hsplit]

end

theorem State.windowWords'_step (s : State) (n off : Nat) (b : List (Option Byte)) : MemStep s (s.windowWords' n off b) := by
  induction n generalizing s off b with
  | zero => exact MemStep.refl s
  | succ n ih =>
    unfold State.windowWords'
    refine MemStep.ite (fun _ => MemStep.refl s) (fun _ => ?_)
    dsimp only
    refine MemStep.trans ?_ (ih _ _ _)
    refine MemStep.ite (fun _ => MemStep.refl s) (fun _ => ?_)
    have hread : MemStep s (if decide (min b.length (4 - off % 4) = 4) && (b.take (min b.length (4 - off % 4))).all (·.isSome) then
        (MemRead.good, s) else s.memReadWord (off / 4 * 4)).2 := by
      split
      · exact MemStep.refl s
      · exact s.memReadWord_step _
    exact MemStep.ite (fun _ => hread) (fun _ => (hread.trans (State.mem_step _ _)).trans (State.memWroteWord_step _ _))

/-! ### The words of contexts that are written from outside -/

/-- The context of a word is written from outside. -/
def State.poke (s : State) (a : Nat) : State :=
  match s.ctxAt a with
  | some n => { s with
      mem := s.mem.putAll a (s.storedWord a)
      snt := { s.snt with ctxs := updAt (fun x => { x with poked := if x.poked.contains a then x.poked else a :: x.poked }) s.snt.ctxs n } }
  | none => s

theorem State.ctxPokes_cons (a : Nat) (l : List Nat) : s.ctxPokes (a :: l) = (s.poke a).ctxPokes l := rfl

theorem MemState.putAll_faults (m : MemState) (a : Nat) (l : List Byte) : (m.putAll a l).faults = m.faults := by
  induction l generalizing m a with
  | nil => rfl
  | cons b l ih => exact ih (m.put a b) (a + 1)

theorem MemState.bytes_putAll_same (m : MemState) (a : Nat) (l : List Byte) : (m.putAll a l).bytes a l.length = l := by
  refine List.ext_getElem (MemState.bytes_length _ _ _) (fun i h1 h2 => ?_)
  have h := MemState.byte_putAll l m a i h2
  simpa [MemState.bytes] using h

/-- Words at multiples of 4 do not overlap. -/
theorem MemState.bytes_putAll_other (m : MemState) {a c : Nat} {l : List Byte} (hl : l.length = 4) (ha : a % 4 = 0) (hc : c % 4 = 0) (h : c ≠ a) :
    (m.putAll a l).bytes c 4 = m.bytes c 4 := by
  refine List.map_congr_left (fun i hi => ?_)
  have hi := List.mem_range.mp hi
  by_cases hlt : c < a
  · exact MemState.byte_putAll_below _ _ _ _ (by omega)
  · exact MemState.byte_putAll_above _ _ _ _ (by omega)

/-- The context of a word is one that the hub has. -/
theorem State.ctxAt_lt {a n : Nat} (h : s.ctxAt a = some n) : n < s.snt.ctxs.length := by
  unfold State.ctxAt at h
  dsimp only at h
  split at h
  · rename_i hu
    obtain rfl := Option.some.inj h
    by_contra hlt
    rw [List.getD_eq_default _ _ (by omega)] at hu
    rw [Bool.and_eq_true] at hu
    exact absurd hu.2 (by decide)
  · cases h

/-- What a word shows does not change as it, or another one, comes to be written from outside. -/
structure Poked (s t : State) : Prop where
  keeps : Keeps [.mem, .snt] s t
  faults : t.mem.faults = s.mem.faults
  ctxAt : ∀ a, t.ctxAt a = s.ctxAt a
  shown : ∀ a, a % 4 = 0 → t.storedWord a = s.storedWord a
  plain : ∀ a, s.plainAt a → t.plainAt a

section

variable {s} {t u : State}

theorem Poked.refl (s : State) : Poked s s := ⟨Keeps.refl _ s, rfl, fun _ => rfl, fun _ _ => rfl, fun _ h => h⟩

theorem Poked.trans (h : Poked s t) (k : Poked t u) : Poked s u :=
  ⟨h.keeps.trans k.keeps, k.faults.trans h.faults, fun a => (k.ctxAt a).trans (h.ctxAt a), fun a ha => (k.shown a ha).trans (h.shown a ha),
    fun a ha => k.plain a (h.plain a ha)⟩

end

/-- The mark of a word that is written from outside. -/
def SntCtx.mark (a : Nat) (x : SntCtx) : SntCtx := { x with poked := if x.poked.contains a then x.poked else a :: x.poked }

/-- The marks of a context contain the new one and the old ones. -/
theorem SntCtx.mark_contains (a c : Nat) (x : SntCtx) : (x.mark a).poked.contains c = (x.poked.contains c || c == a) := by
  unfold SntCtx.mark
  dsimp only
  split
  · rename_i h
    by_cases hc : c = a
    · rw [hc, h]
      simp
    · simp [hc]
  · rw [List.contains_cons]
    exact Bool.or_comm _ _

/-- The context `n` with the mark of word `a`. -/
def State.marked (s : State) (n a : Nat) : State :=
  { s with mem := s.mem.putAll a (s.storedWord a), snt := { s.snt with ctxs := updAt (SntCtx.mark a) s.snt.ctxs n } }

theorem State.marked_ctx (n a m : Nat) : (s.marked n a).snt.ctxs.getD m SntCtx.reset =
    if m = n ∧ n < s.snt.ctxs.length then (s.snt.ctxs.getD m SntCtx.reset).mark a else s.snt.ctxs.getD m SntCtx.reset := by
  show (updAt (SntCtx.mark a) s.snt.ctxs n).getD m SntCtx.reset = _
  by_cases hm : m = n
  · subst hm
    by_cases hl : m < s.snt.ctxs.length
    · rw [if_pos ⟨rfl, hl⟩, updAt_get_same _ _ _ _ hl]
    · rw [if_neg (fun h => hl h.2), List.getD_eq_default _ _ (by rw [updAt_length]; omega), List.getD_eq_default _ _ (by omega)]
  · rw [if_neg (fun h => hm h.1), updAt_get_other _ _ _ _ _ hm]

theorem State.marked_ctxAt (n a c : Nat) : (s.marked n a).ctxAt c = s.ctxAt c := by
  have hused (m : Nat) : ((s.marked n a).snt.ctxs.getD m SntCtx.reset).used = (s.snt.ctxs.getD m SntCtx.reset).used := by
    rw [State.marked_ctx]
    split <;> rfl
  unfold State.ctxAt
  dsimp only
  rw [hused]
  rfl

theorem State.marked_poked {n a : Nat} (hn : s.ctxAt a = some n) (ha : a % 4 = 0) : Poked s (s.marked n a) ∧ (s.marked n a).plainAt a := by
  have hlt := s.ctxAt_lt hn
  have hsome (c m : Nat) (hc : s.ctxAt c = some m) : ((s.marked n a).snt.ctxs.getD m SntCtx.reset).poked.contains c =
      ((s.snt.ctxs.getD m SntCtx.reset).poked.contains c || c == a) := by
    rw [State.marked_ctx]
    split
    · exact SntCtx.mark_contains _ _ _
    · rename_i hm
      have hne : c ≠ a := by
        rintro rfl
        exact hm ⟨(Option.some.inj (hn.symm.trans hc)).symm, hlt⟩
      rw [beq_false_of_ne hne, Bool.or_false]
  have hplain (c : Nat) (h : s.plainAt c) : (s.marked n a).plainAt c := by
    cases hc : s.ctxAt c with
    | none => exact State.plainAt_noCtx ((s.marked_ctxAt n a c).trans hc)
    | some m =>
      rw [State.plainAt_ctx ((s.marked_ctxAt n a c).trans hc), hsome c m hc, (State.plainAt_ctx hc).mp h]
      rfl
  have hself : (s.marked n a).plainAt a := by
    rw [State.plainAt_ctx ((s.marked_ctxAt n a a).trans hn), hsome a n hn, beq_self_eq_true, Bool.or_true]
  have hk : Keeps [.mem, .snt] s (s.marked n a) := by
    intro f hf
    cases f <;> first | rfl | exact absurd hf (by decide)
  refine ⟨⟨hk, MemState.putAll_faults _ _ _, s.marked_ctxAt n a, fun c hc4 => ?_, hplain⟩, hself⟩
  by_cases hca : c = a
  · subst hca
    rw [State.storedWord_plain hself]
    have h := MemState.bytes_putAll_same s.mem c (s.storedWord c)
    rw [s.storedWord_length] at h
    exact h
  · have hbytes : (s.marked n a).mem.bytes c 4 = s.mem.bytes c 4 :=
      MemState.bytes_putAll_other _ (s.storedWord_length a) ha hc4 hca
    have hfill (m : Nat) : ((s.marked n a).snt.ctxs.getD m SntCtx.reset).fill = (s.snt.ctxs.getD m SntCtx.reset).fill := by
      rw [State.marked_ctx]
      split <;> rfl
    cases hc : s.ctxAt c with
    | none => rw [State.storedWord_noCtx hc, State.storedWord_noCtx ((s.marked_ctxAt n a c).trans hc), hbytes]
    | some m =>
      rw [State.storedWord_ctx hc, State.storedWord_ctx ((s.marked_ctxAt n a c).trans hc), hsome c m hc, beq_false_of_ne hca, Bool.or_false, hbytes, hfill]

theorem State.poke_poked {a : Nat} (ha : a % 4 = 0) : Poked s (s.poke a) ∧ (s.poke a).plainAt a := by
  cases hn : s.ctxAt a with
  | none =>
    have he : s.poke a = s := by unfold State.poke; rw [hn]
    rw [he]
    exact ⟨Poked.refl s, State.plainAt_noCtx hn⟩
  | some n =>
    have he : s.poke a = s.marked n a := by unfold State.poke; rw [hn]; rfl
    rw [he]
    exact s.marked_poked hn ha

theorem State.ctxPokes_poked (s : State) (l : List Nat) (hl : ∀ a ∈ l, a % 4 = 0) : Poked s (s.ctxPokes l) ∧ ∀ a ∈ l, (s.ctxPokes l).plainAt a := by
  induction l generalizing s with
  | nil => exact ⟨Poked.refl s, by simp⟩
  | cons a l ih =>
    obtain ⟨hp, ha⟩ := s.poke_poked (hl a (by simp))
    rw [State.ctxPokes_cons]
    obtain ⟨hps, hall⟩ := ih (s.poke a) (fun c hc => hl c (by simp [hc]))
    refine ⟨hp.trans hps, fun c hc => ?_⟩
    rcases List.mem_cons.mp hc with rfl | hc
    · exact hps.plain _ ha
    · exact hall c hc

theorem State.ctxPokes_none (l : List Nat) (h : ∀ a, s.ctxAt a = none) : s.ctxPokes l = s := by
  induction l with
  | nil => rfl
  | cons a l ih =>
    rw [State.ctxPokes_cons, State.poke, h]
    exact ih

theorem State.ctxPoke_poked (off len : Nat) :
    Poked s (s.ctxPoke off len) ∧ ∀ a, off ≤ a → a < off + len → (s.ctxPoke off len).plainAt (a / 4 * 4) := by
  obtain ⟨hp, hall⟩ := s.ctxPokes_poked ((List.range ((off + len + 3) / 4 - off / 4)).map (fun k => 4 * (off / 4 + k)))
    (fun a ha => by obtain ⟨k, -, rfl⟩ := List.mem_map.mp ha; omega)
  refine ⟨hp, fun a h1 h2 => hall _ (List.mem_map.mpr ⟨a / 4 - off / 4, List.mem_range.mpr (by omega), by omega⟩)⟩

/-- The bytes that words show after a write of enabled bytes into words that are plain where they are written. -/
theorem State.putEnabled_shown (off : Nat) (b : List (Option Byte)) (hplain : ∀ a, off ≤ a → a < off + b.length → s.plainAt (a / 4 * 4)) :
    (∀ a v, off ≤ a → b[a - off]? = some (some v) →
      (({ s with mem := s.mem.putEnabled off b } : State).storedWord (a / 4 * 4))[a % 4]? = some v) ∧
    (∀ a, (a < off ∨ off + b.length ≤ a ∨ b[a - off]? = some none) →
      (({ s with mem := s.mem.putEnabled off b } : State).storedWord (a / 4 * 4))[a % 4]? = (s.storedWord (a / 4 * 4))[a % 4]?) := by
  refine ⟨fun a v ha hv => ?_, fun a ha => ?_⟩
  · have hlt := (List.getElem?_eq_some_iff.mp hv).1
    have hp : ({ s with mem := s.mem.putEnabled off b } : State).plainAt (a / 4 * 4) := hplain a ha (by omega)
    rw [State.storedByte_plain hp]
    exact congrArg some (s.mem.putEnabled_byte ha hv)
  · by_cases hp : s.plainAt (a / 4 * 4)
    · have hp' : ({ s with mem := s.mem.putEnabled off b } : State).plainAt (a / 4 * 4) := hp
      rw [State.storedByte_plain hp', State.storedByte_plain hp]
      exact congrArg some (s.mem.putEnabled_byte_kept ha)
    · have hp' : ¬ ({ s with mem := s.mem.putEnabled off b } : State).plainAt (a / 4 * 4) := hp
      obtain ⟨n, hn, hw⟩ := State.storedWord_free hp
      obtain ⟨m, hm, hw'⟩ := State.storedWord_free hp'
      have hnm : m = n := Option.some.inj (hm.symm.trans hn)
      rw [hw, hw', hnm]

/-! ### The scrub pass -/

/-- The mark of ACTIVE, and of PAUSED where the pass cannot begin at once. -/
def State.scrubEnters (s : State) : State :=
  let u := ({ s with mnt := { s.mnt with running := s.mnt.running ++ [arriving actScrub 0 0] } } : State).setF F.MEM_SCRUB_STATUS_ACTIVE 1
  if u.pauser actScrub then u.pauseScrub else u

/-- Nothing is in the way of a scrub pass (R409). -/
theorem State.submit_scrub (h : ∀ a ∈ s.mnt.running ++ s.mnt.waiting, a.a ≠ actScrub) : s.submit actScrub 0 0 = s.scrubEnters := by
  have hwait : s.mnt.waiting.any (fun y => y.a == actScrub && y.unit == 0) = false := by
    refine List.any_eq_false.mpr (fun y hy => ?_)
    have hne := h y (List.mem_append_right _ hy)
    simp [hne]
  have hblock (l : List Activity) : (arriving actScrub 0 0).blocked l = false := List.any_eq_false.mpr (fun y _ => by
    show ¬ waitsFor actScrub 0 y.a y.unit = true
    simp [waitsFor, actScrub])
  rw [s.submit_eq _ _ _ (by decide), hwait, hblock, if_neg (by simp [actScrub, actSetsave, actCalsave]), if_neg (by simp), if_neg (by simp)]
  rfl

theorem State.scrubEnters_result :
    Keeps [.regs, .mnt] s s.scrubEnters ∧ s.scrubEnters.bit F.MEM_SCRUB_STATUS_ACTIVE = true ∧ s.scrubEnters.runs actScrub 0 = true := by
  have hk : Keeps [.regs, .mnt] s
      (({ s with mnt := { s.mnt with running := s.mnt.running ++ [arriving actScrub 0 0] } } : State).setF F.MEM_SCRUB_STATUS_ACTIVE 1) :=
    ((Keeps.refl _ s).mnt _ (by decide)).setF _ _ (by decide)
  have hb : (({ s with mnt := { s.mnt with running := s.mnt.running ++ [arriving actScrub 0 0] } } : State).setF F.MEM_SCRUB_STATUS_ACTIVE 1).bit
      F.MEM_SCRUB_STATUS_ACTIVE = true := bit_setF_one _ _ (by decide)
  have hr : (({ s with mnt := { s.mnt with running := s.mnt.running ++ [arriving actScrub 0 0] } } : State).setF F.MEM_SCRUB_STATUS_ACTIVE 1).runs
      actScrub 0 = true := by
    show (s.mnt.running ++ [arriving actScrub 0 0]).any _ = true
    rw [List.any_append]
    exact Bool.or_true _
  unfold State.scrubEnters
  dsimp only
  generalize ({ s with mnt := { s.mnt with running := s.mnt.running ++ [arriving actScrub 0 0] } } : State).setF F.MEM_SCRUB_STATUS_ACTIVE 1 = u at hk hb hr ⊢
  split
  · unfold State.pauseScrub
    rw [if_pos hr]
    refine ⟨(hk.setF _ _ (by decide)).setPaused _ _ _ (by decide), ?_, ?_⟩
    · exact (bit_setF_other u F.MEM_SCRUB_STATUS_PAUSED F.MEM_SCRUB_STATUS_ACTIVE 1 (by decide) (.inr (.inl (by decide)))).trans hb
    · exact (State.setPaused_runs _ _ _ _ _ _).trans hr
  · exact ⟨hk, hb, hr⟩

variable {s} in
/-- A pass that begins. -/
theorem State.scrubStart_begins (hen : s.bit F.MEM_SCRUB_CTRL_EN = true) (himg : s.image.isSome = true)
    (hdue : s.mem.scrubOn = false ∨ s.mem.scrubFrom + 500000000 * s.getF F.MEM_SCRUB_CTRL_PERIOD_S ≤ s.tick) :
    s.scrubStart = if (s.mnt.running ++ s.mnt.waiting).any (fun y => y.a == actScrub) then s.setF F.MEM_SCRUB_STATUS_PASS_LATE 1
      else (({ s with mem := { s.mem with scrubFrom := s.tick, scrubOn := true, line := 0 } } : State).setF F.MEM_SCRUB_POS_LINE 0).submit actScrub 0 0 := by
  have hd : (!s.mem.scrubOn || decide (s.mem.scrubFrom + 500000000 * s.getF F.MEM_SCRUB_CTRL_PERIOD_S ≤ s.tick)) = true := by
    rcases hdue with h | h
    · rw [h]; rfl
    · rw [decide_eq_true h]; exact Bool.or_true _
  unfold State.scrubStart
  dsimp only
  rw [hen, hd, himg]
  rfl

/-- The fields that a read of memory changes. -/
def readFields : List Field := [.regs, .recq, .mem, .host, .obs, .upd]

theorem State.memReadWord_keeps (a : Nat) : Keeps readFields s (s.memReadWord a).2 := by
  have hce (u : State) (c b : Nat) : Keeps readFields u (u.countCe c b) :=
    (((Keeps.refl _ u).bump _ (by decide)).bump _ (by decide)).setF _ _ (by decide)
  have hfault (u : State) (x : List Word) (tr : Bool) (loc : Nat) : Keeps readFields u ((u.emit 0 0x0501 x).mntFault 0 tr loc) :=
    ((Keeps.refl _ u).emit _ _ _ (by decide)).trans ((State.mntFault_frame _ (by decide) _ _).keeps.mono (by decide))
  unfold State.memReadWord
  split
  · exact Keeps.refl _ s
  · split
    · exact (hce s _ _).mem _ (by decide)
    · dsimp only
      split
      · refine Keeps.mem (Keeps.trans ?_ (hfault _ _ _ _)) _ (by decide)
        have hb : Keeps readFields s (s.bump F.MEM_ERR_UE_TRANS_COUNT) := (Keeps.refl _ s).bump _ (by decide)
        split
        · exact hb.trans (hce _ _ _)
        · exact hb
      · exact (((Keeps.refl _ s).bump _ (by decide)).setF _ _ (by decide)).trans (hfault _ _ _ _)

theorem State.memReadWords_keeps (s : State) (a n : Nat) : Keeps readFields s (s.memReadWords a n).2 := by
  induction n generalizing s a with
  | zero => exact Keeps.refl _ s
  | succ n ih => exact (s.memReadWord_keeps a).trans (ih _ _)

/-- The pass is past its line. -/
def State.lineRead (s : State) : State := ({ s with mem := { s.mem with line := s.mem.line + 1 } } : State).setF F.MEM_SCRUB_POS_LINE (s.mem.line + 1)

theorem State.endAct_scrub : s.endAct actScrub 0 = { s with mnt := { s.mnt with running := dropAct actScrub 0 s.mnt.running } } := rfl

/-- The bytes of a window access. -/
def windowLen (len : Nat) : Option (List (Option Byte)) → Nat
  | none => len
  | some b => b.length

/-- The window's guard, for a range inside BAR2. -/
theorem execHostWindowAccess_inside {id : Ident} {off len : Nat} {data : Option (List (Option Byte))}
    (h0 : 0 < windowLen len data) (h : off + windowLen len data ≤ memBytes) :
    execHostWindowAccess id off data len s =
      if !s.domOn 9 then
        match data with
        | none => .next ((s.setF F.HIF_STATUS_RD_OFF 1).obsv (.memRead id.num off (zeros len) false))
        | some _ => .next (s.setF F.HIF_STATUS_WR_OFF 1)
      else match data with
        | none => .next (s.windowRead id off len)
        | some b => .next (s.windowWrite id off b) := by
  have hbar : barSize 2 = memBytes := rfl
  have hguard {n : Nat} {x y z : Host.Outcome State Fault Refusal} (h0 : 0 < n) (h : off + n ≤ memBytes) :
      (if barSize 2 < off + n ∨ barSize 2 ≤ off then x else if n = 0 then y else z) = z := by
    rw [hbar, if_neg (by omega), if_neg (by omega)]
  cases data with
  | none => exact hguard (n := len) h0 h
  | some b => exact hguard (n := b.length) h0 h

end

end Sys2Proof.Machine

open Sys2Proof.Machine in
/-- Settles O45: the window by its guards, then word by word; the scrub pass by where it stands. -/
theorem memoryWindowAndScrub : Obligations.MemoryWindowAndScrub := by
  unfold Obligations.MemoryWindowAndScrub
  refine ⟨fun id off len data s h => ?_, fun id off len s h0 hin hon => ?_, fun id off len b s h0 hin hon => ?_, fun id off len data s hoff h0 hin => ?_,
    fun s hen himg hdue => ?_, fun s hen => ?_, fun s hruns hact hpaus hcopy hline => ?_, fun s hcopy => ?_, fun s hruns hact hline => ?_⟩
  · refine if_pos ?_
    rcases h with h | h
    · exact .inr h
    · exact .inl h
  · refine ⟨s.windowRead id off len, ?_, ?_⟩
    · refine (execHostWindowAccess_inside s (data := none) h0 hin).trans ?_
      rw [hon]
      rfl
    · have hread := s.windowWords_read (off / 4 * 4) ((off + len - 1) / 4 + 1 - off / 4 * 4 / 4)
      obtain ⟨hk, hr, hcount, hold, hnew⟩ := s.memDeny_result id off false
      cases hmay : s.windowMay id false off len with
      | true =>
        refine ⟨?_, ?_, fun _ hf => ?_, nofun⟩
        · rw [State.windowRead, if_pos hmay]
          exact (hread.step.frame.keeps.mono (by decide)).obsv _ (by decide)
        · rw [State.windowRead, if_pos hmay]
          exact hread.cells
        · obtain ⟨b, hb, hl, hget⟩ := State.windowRead_clean hmay hf h0
          rw [hb]
          exact ⟨(Keeps.refl _ s).obsv _ (by decide), ⟨b, rfl, hl, hget⟩, fun hc => by rw [← bytes_of_plain hc hl hget]; rfl⟩
      | false =>
        have he : s.windowRead id off len = (s.memDeny id off false).obsv (.memRead id.num off (zeros len) false) :=
          if_neg (ne_true_of_eq_false hmay)
        have hobs : (s.memDeny id off false).obs = s.obs := hk .obs (by decide)
        have hcells : (s.memDeny id off false).mem.cells = s.mem.cells := by rw [State.memDeny_mem]
        rw [he]
        generalize s.memDeny id off false = t at hk hr hcount hold hnew hobs hcells ⊢
        refine ⟨(hk.mono (by decide)).obsv _ (by decide), hcells, nofun, fun _ => ⟨(hk.mono (by decide)).obsv _ (by decide), hr, hcount, hold,
          fun h => ?_, ?_⟩⟩
        · show _ ∈ t.recq
          rw [hnew h]
          simp
        · show _ :: t.obs = _
          rw [hobs]
  · refine ⟨s.windowWrite id off b, ?_, ?_⟩
    · refine (execHostWindowAccess_inside s (len := len) (data := some b) h0 hin).trans ?_
      rw [hon]
      rfl
    · obtain ⟨hk, hr, hcount, -⟩ := s.memDeny_result id off true
      cases hmay : s.windowMay id true off b.length with
      | true =>
        have he : s.windowWrite id off b = (s.ctxPoke off b.length).windowWords' (b.length + 1) off b := if_pos hmay
        obtain ⟨hpoke, hplain⟩ := s.ctxPoke_poked off b.length
        have hall := (s.ctxPoke off b.length).windowWords'_step (b.length + 1) off b
        rw [he]
        refine ⟨(hpoke.keeps.mono (by decide)).trans (hall.frame.keeps.mono (by decide)), fun _ hf harm => ?_, nofun⟩
        have harm' : (s.ctxPoke off b.length).bit F.MEM_INJECT_CTRL_ARM = false := by
          rw [State.bit, State.getF, State.rd, hpoke.keeps .regs (by decide)]
          exact harm
        rw [State.windowWords'_clean (hpoke.faults.trans hf) harm' _ _ _ (by omega)]
        obtain ⟨hput, hkept⟩ := State.putEnabled_shown _ off b hplain
        refine ⟨hpoke.keeps.mem _ (by decide), hput, fun a ha => (hkept a ha).trans ?_, fun hnone => ?_⟩
        · rw [hpoke.shown _ (by omega)]
        · have hs : s.ctxPoke off b.length = s := s.ctxPokes_none _ hnone
          rw [hs]
          exact ⟨(Keeps.refl _ s).mem _ (by decide), fun a v ha hv => s.mem.putEnabled_byte ha hv, fun a ha => s.mem.putEnabled_byte_kept ha⟩
      | false =>
        have he : s.windowWrite id off b = s.memDeny id off true := if_neg (ne_true_of_eq_false hmay)
        rw [he]
        exact ⟨hk.mono (by decide), nofun, fun _ => ⟨hk, hr, hcount⟩⟩
  · have hk : Keeps [.regs, .obs] s (s.setF F.HIF_STATUS_RD_OFF 1) := (Keeps.refl _ s).setF _ _ (by decide)
    have hkw : Keeps [.regs, .obs] s (s.setF F.HIF_STATUS_WR_OFF 1) := (Keeps.refl _ s).setF _ _ (by decide)
    have hr : RegsKept [R.HIF_STATUS] s (s.setF F.HIF_STATUS_RD_OFF 1) := (RegsKept.refl _ s).setF _ _ (by decide)
    have hb : (s.setF F.HIF_STATUS_RD_OFF 1).bit F.HIF_STATUS_RD_OFF = true := bit_setF_one _ _ (by decide)
    have hbw : (s.setF F.HIF_STATUS_WR_OFF 1).bit F.HIF_STATUS_WR_OFF = true := bit_setF_one _ _ (by decide)
    have hrw : RegsKept [R.HIF_STATUS] s (s.setF F.HIF_STATUS_WR_OFF 1) := (RegsKept.refl _ s).setF _ _ (by decide)
    have he (h0 : 0 < windowLen len data) (hin : off + windowLen len data ≤ memBytes) := execHostWindowAccess_inside s (id := id) h0 hin
    rw [hoff] at he
    cases data with
    | none => exact ⟨_, he h0 hin, hk.obsv _ (by decide), hr, fun _ => hb, fun h => absurd rfl h⟩
    | some b => exact ⟨_, he h0 hin, hkw, hrw, nofun, fun _ => ⟨hbw, rfl⟩⟩
  · refine ⟨s.scrubStart, rfl, ?_⟩
    rw [State.scrubStart_begins hen himg hdue]
    cases hany : (s.mnt.running ++ s.mnt.waiting).any (fun y => y.a == actScrub) with
    | true =>
      have hk : Keeps [.regs] s (s.setF F.MEM_SCRUB_STATUS_PASS_LATE 1) := (Keeps.refl _ s).setF _ _ (by decide)
      refine ⟨hk.mono (by decide), rfl, fun _ => ⟨hk, (RegsKept.refl _ s).setF _ _ (by decide), bit_setF_one _ _ (by decide)⟩, fun h => ?_⟩
      obtain ⟨y, hy, hya⟩ := List.any_eq_true.mp hany
      exact absurd (eq_of_beq hya) (h y hy)
    | false =>
      have hno (a : Activity) (ha : a ∈ s.mnt.running ++ s.mnt.waiting) : a.a ≠ actScrub := fun h =>
        List.any_eq_false.mp hany a ha (by rw [h]; rfl)
      rw [if_neg (by decide)]
      have hu : Keeps [.regs, .mem] s (({ s with mem := { s.mem with scrubFrom := s.tick, scrubOn := true, line := 0 } } : State).setF F.MEM_SCRUB_POS_LINE 0) :=
        ((Keeps.refl _ s).mem _ (by decide)).setF _ _ (by decide)
      have hmem : (({ s with mem := { s.mem with scrubFrom := s.tick, scrubOn := true, line := 0 } } : State).setF F.MEM_SCRUB_POS_LINE 0).mem =
        { s.mem with scrubFrom := s.tick, scrubOn := true, line := 0 } := rfl
      have hmnt : (({ s with mem := { s.mem with scrubFrom := s.tick, scrubOn := true, line := 0 } } : State).setF F.MEM_SCRUB_POS_LINE 0).mnt = s.mnt := rfl
      generalize ({ s with mem := { s.mem with scrubFrom := s.tick, scrubOn := true, line := 0 } } : State).setF F.MEM_SCRUB_POS_LINE 0 = u at hu hmem hmnt ⊢
      rw [u.submit_scrub (by rw [hmnt]; exact hno)]
      obtain ⟨hk, hb, hr⟩ := u.scrubEnters_result
      have hkm : u.scrubEnters.mem = u.mem := hk .mem (by decide)
      generalize u.scrubEnters = v at hk hb hr hkm ⊢
      rw [hkm, hmem]
      refine ⟨(hu.mono (by decide)).trans (hk.mono (by decide)), rfl, fun h => ?_, fun _ => ⟨rfl, rfl, hb, hr⟩⟩
      obtain ⟨a, ha, hk⟩ := h
      exact absurd hk (hno a ha)
  · refine congrArg Host.Outcome.next (if_neg ?_)
    rw [hen]
    simp
  · have hc : (s.runs actScrub 0 && s.bit F.MEM_SCRUB_STATUS_ACTIVE && !s.bit F.MEM_SCRUB_STATUS_PAUSED && !s.copying &&
        decide (s.mem.line < memLines)) = true := by
      rw [hruns, hact, hpaus, hcopy, decide_eq_true hline]
      rfl
    refine ⟨s.scrubLine, rfl, ?_⟩
    have he : s.scrubLine = if s.bit F.MEM_SCRUB_CTRL_EN then (s.memReadWords (64 * s.mem.line) 16).2.lineRead else s.scrubOff := by
      unfold State.scrubLine
      rw [if_pos hc]
      generalize s.memReadWords (64 * s.mem.line) 16 = r
      rfl
    rw [he]
    cases hen : s.bit F.MEM_SCRUB_CTRL_EN with
    | true =>
      rw [if_pos rfl]
      have hstep := s.memReadWords_keeps (64 * s.mem.line) 16
      have hcells := s.memReadWords_cells 16 (64 * s.mem.line)
      have hl := s.memReadWords_line (64 * s.mem.line) 16
      have hmnt := hstep .mnt (by decide)
      generalize (s.memReadWords (64 * s.mem.line) 16).2 = u at hstep hcells hl hmnt ⊢
      rw [State.lineRead, hl]
      refine ⟨((hstep.mono (by decide)).mem _ (by decide)).setF _ _ (by decide), hcells, fun _ => ⟨rfl, ?_, hmnt⟩, nofun⟩
      exact getF_setF_same _ _ _ (by decide)
    | false =>
      have hoff : s.scrubOff = ((({ s with mem := { s.mem with scrubOn := false } } : State).setF F.MEM_SCRUB_STATUS_ACTIVE 0).setF
          F.MEM_SCRUB_STATUS_PAUSED 0).endAct actScrub 0 := if_pos hruns
      rw [if_neg (by decide), hoff, State.endAct_scrub]
      refine ⟨((((Keeps.refl _ s).mem _ (by decide)).setF _ _ (by decide)).setF _ _ (by decide)).mnt _ (by decide), rfl, nofun,
        fun _ => ⟨rfl, ?_, rfl⟩⟩
      exact (bit_setF_other ((({ s with mem := { s.mem with scrubOn := false } } : State)).setF F.MEM_SCRUB_STATUS_ACTIVE 0) F.MEM_SCRUB_STATUS_PAUSED
        F.MEM_SCRUB_STATUS_ACTIVE 0 (by decide) (.inr (.inl (by decide)))).trans (bit_setF_zero _ _ (by decide))
  · refine congrArg Host.Outcome.next (if_neg ?_)
    rw [hcopy]
    simp
  · have hc : (s.runs actScrub 0 && s.bit F.MEM_SCRUB_STATUS_ACTIVE && decide (memLines ≤ s.mem.line)) = true := by
      rw [hruns, hact, decide_eq_true hline]
      rfl
    refine ⟨_, congrArg Host.Outcome.next (if_pos hc), ?_⟩
    rw [State.endAct_scrub]
    refine ⟨(((Keeps.refl _ s).bump _ (by decide)).setF _ _ (by decide)).mnt _ (by decide), ?_, ?_, ?_, rfl⟩
    · have hr : RegsKept [R.MEM_SCRUB_PASSES, R.MEM_SCRUB_STATUS] s ((s.bump F.MEM_SCRUB_PASSES_COUNT).setF F.MEM_SCRUB_STATUS_ACTIVE 0) :=
        ((RegsKept.refl _ s).bump _ (by decide)).setF _ _ (by decide)
      exact hr
    · exact (getF_setF_other (s.bump F.MEM_SCRUB_PASSES_COUNT) F.MEM_SCRUB_STATUS_ACTIVE F.MEM_SCRUB_PASSES_COUNT 0 (by decide) (.inl (by decide))).trans
        (getF_bump_same s F.MEM_SCRUB_PASSES_COUNT (by decide))
    · exact bit_setF_zero (s.bump F.MEM_SCRUB_PASSES_COUNT) F.MEM_SCRUB_STATUS_ACTIVE (by decide)

end

section
/-!
SUPPORT. Mailbox channels and locks (R357-R371): what a notification changes, what an identity that leaves reset is told, the link
coming up, and O59.
-/

namespace Sys2Proof.Machine

/-! ### Notifications -/

/-- Registers outside block PWR. -/
def besidePwr (off : Nat) : Prop := off / 0x10000 ≠ 1

section

variable (s : State)

theorem State.wakeDom_frame {d : Nat} (hd : d < 14) : Frame [.regs, .pwr, .obs] besidePwr s (s.wakeDom d) := by
  have h := Frame.refl [.regs, .pwr, .obs] besidePwr s
  have hdom : ¬ besidePwr R.PWR_DOM_STATE := fun hp => hp (by decide)
  refine Frame.ite (fun _ => h.worked _ (by decide)) (fun _ => Frame.ite (fun _ => h) (fun _ => Frame.ite (fun _ => ?_) (fun _ => ?_)))
  · have hset := (h.setF ⟨R.PWR_DOM_STATE, 2 * d, 2⟩ 2 (by decide) hdom).worked d (by decide)
    exact hset.trans ((State.clkMove_keeps _ _).frame (by decide) (by decide) _)
  · have hb := h.bump (F.PWR_DOM_WAKES_COUNT d) (by decide) (fun hp => hp (by show (0x10140 + 0x4 * d) / 0x10000 = 1; omega))
    exact ⟨hb.keeps.pwr _ (by decide), hb.rd⟩

theorem agentDom_lt (i : Nat) : agentDom i < 14 := by
  unfold agentDom
  split <;> decide

theorem agentDom_ne_host (i : Nat) : agentDom i ≠ 11 := by
  unfold agentDom
  split <;> decide

/-- The fields that a notification changes. -/
def noticeFields : List Field := [.regs, .pwr, .obs, .mbx, .host, .recq]

/-- What a notification leaves: who is in reset and what waits for it, the link, domain HOST, and all that was observed. -/
structure Noticed (s t : State) : Prop where
  frame : Frame noticeFields besidePwr s t
  acks : t.mbx.acks = s.mbx.acks
  left : t.mbx.left = s.mbx.left
  inReset : t.mbx.inReset = s.mbx.inReset
  linkUp : t.host.linkUp = s.host.linkUp
  host : t.domState 11 = s.domState 11
  obs : s.obsMore t

section

variable {s} {t u : State}

theorem Noticed.refl (s : State) : Noticed s s := ⟨Frame.refl _ _ s, rfl, rfl, rfl, rfl, rfl, fun _ h => h⟩

theorem Noticed.trans (h : Noticed s t) (k : Noticed t u) : Noticed s u :=
  ⟨h.frame.trans k.frame, k.acks.trans h.acks, k.left.trans h.left, k.inReset.trans h.inReset, k.linkUp.trans h.linkUp, k.host.trans h.host,
    h.obs.trans k.obs⟩

theorem Noticed.ite {c : Prop} [Decidable c] (ht : Noticed s t) (hu : Noticed s u) : Noticed s (if c then t else u) := by
  split
  · exact ht
  · exact hu

theorem Noticed.foldl {α : Type} (f : State → α → State) (l : List α) (h : Noticed s t) (hf : ∀ v a, Noticed v (f v a)) :
    Noticed s (l.foldl f t) := by
  induction l generalizing t with
  | nil => exact h
  | cons a l ih => exact ih (h.trans (hf t a))

/-- What changes the log alone. -/
theorem Keeps.noticed_obs (h : Keeps [.obs] s t) (hobs : s.obsMore t) : Noticed s t :=
  ⟨h.frame (by decide) (by decide) _, by rw [h .mbx (by decide)], by rw [h .mbx (by decide)], by rw [h .mbx (by decide)],
    by rw [h .host (by decide)], State.domState_eq_of_regs (h .regs (by decide)) 11, hobs⟩

end

theorem State.clkMove_obsMore (was : State) : s.obsMore (s.clkMove was) := by
  rcases s.clkMove_cases was with h | h <;> rw [h]
  · exact fun _ hx => hx
  · exact s.obsMore_obsv _

theorem State.wakeDom_noticed {d : Nat} (hd : d < 14) (h11 : d ≠ 11) : Noticed s (s.wakeDom d) := by
  have hf := s.wakeDom_frame hd
  have hm := hf.keeps .mbx (by decide)
  refine ⟨hf.wide (by decide), by rw [hm], by rw [hm], by rw [hm], by rw [hf.keeps .host (by decide)], ?_, ?_⟩
  · unfold State.wakeDom
    split
    · rfl
    split
    · rfl
    split
    · exact (State.domState_eq_of_regs (State.clkMove_keeps _ s .regs (by decide)) 11).trans (s.domState_setDom_other hd h11.symm 2)
    · exact congrArg (fun w => getBits w 22 2) (rd_bump_other s (F.PWR_DOM_WAKES_COUNT d) R.PWR_DOM_STATE
        (by show 0x1000C ≠ 0x10140 + 0x4 * d; omega))
  · unfold State.wakeDom
    split
    · exact State.obsMore_of_eq rfl
    split
    · exact fun _ hx => hx
    split
    · have h : s.obsMore ((s.setDom d 2).worked d) := State.obsMore_of_eq rfl
      exact h.trans (State.clkMove_obsMore _ _)
    · exact State.obsMore_of_eq rfl

theorem State.obsv_noticed (x : Obs) : Noticed s (s.obsv x) := Keeps.noticed_obs ((Keeps.refl _ s).obsv _ (by decide)) (s.obsMore_obsv x)

theorem State.wakePin_noticed (was : Bool) : Noticed s (s.wakePin was) := by
  refine Keeps.noticed_obs (s.wakePin_keeps was) ?_
  exact State.obsMore.ite (fun _ hx => hx) (State.obsMore.ite (fun _ hx => hx) (s.obsMore_obsv _))

theorem State.emit_noticed (i y : Nat) (l : List Word) : Noticed s (s.emit i y l) :=
  ⟨(Frame.refl _ _ s).emit _ _ _ (by decide), rfl, rfl, rfl, rfl, rfl, fun _ h => h⟩

theorem State.signal_noticed (f v : Nat) : Noticed s (s.signal f v) := by
  refine Noticed.ite ⟨⟨(Keeps.refl _ s).host _ (by decide), RdKept.refl _ s⟩, rfl, rfl, rfl, rfl, rfl, fun _ h => h⟩ (s.obsv_noticed _)

/-- What waits for WAKE_N or for an agent. -/
theorem State.notes_noticed (w g : List (Nat × Nat)) : Noticed s { s with mbx := { s.mbx with wakes := w, sigs := g } } :=
  ⟨⟨(Keeps.refl _ s).mbx _ (by decide), RdKept.refl _ s⟩, rfl, rfl, rfl, rfl, rfl, fun _ h => h⟩

theorem State.notifyHost_noticed (n i : Nat) : Noticed s (s.notifyHost n i) := by
  unfold State.notifyHost
  dsimp only
  exact Noticed.ite (s.signal_noticed _ _) ((s.signal_noticed _ _).trans (State.notes_noticed _ _ _))

theorem State.signalAgent_noticed (n i : Nat) : Noticed s (s.signalAgent n i) := by
  have h := s.wakeDom_noticed (agentDom_lt i) (agentDom_ne_host i)
  exact Noticed.ite (h.trans (State.obsv_noticed _ _)) (Noticed.ite h (h.trans (State.notes_noticed _ _ _)))

theorem State.notify_noticed (n i b snd : Nat) : Noticed s (s.notify n i b snd) := by
  unfold State.notify
  split
  · exact s.notifyHost_noticed n 1
  · exact s.notifyHost_noticed n 2
  · exact (s.wakeDom_noticed (by decide) (by decide)).trans (State.emit_noticed _ _ _ _)
  · exact s.emit_noticed _ _ _
  · exact Noticed.ite (s.signalAgent_noticed n i) (Noticed.refl s)

theorem State.sigsGo_noticed (i : Nat) : Noticed s (s.sigsGo i) :=
  (s.notes_noticed s.mbx.wakes _).foldl _ _ (fun u _ => u.obsv_noticed _)

/-! ### Identities that leave reset (R368, R369) -/

/-- Registers outside blocks PWR and MBX. -/
def besideNotes (off : Nat) : Prop := off / 0x10000 ≠ 1 ∧ off / 0x10000 ≠ 3

/-- Another notification of the channels of `l`, with RERING. -/
def State.rerings (s : State) (i : Nat) (l : List (Nat × Nat)) : State :=
  l.foldl (fun s x => (s.notify x.2 i (s.composer x.2) (s.composer x.2)).setF (F.MBX_STATUS_RERING x.2) 1) s

/-- What a further notification of messages leaves. -/
structure Rerung (s t : State) (l : List (Nat × Nat)) : Prop where
  frame : Frame noticeFields besideNotes s t
  acks : t.mbx.acks = s.mbx.acks
  left : t.mbx.left = s.mbx.left
  inReset : t.mbx.inReset = s.mbx.inReset
  linkUp : t.host.linkUp = s.host.linkUp
  host : t.domState 11 = s.domState 11
  obs : s.obsMore t
  rering : ∀ n, n < 24 → t.bit (F.MBX_STATUS_RERING n) = (s.bit (F.MBX_STATUS_RERING n) || l.any (fun x => x.2 == n))

theorem besidePwr_channel {n lo w : Nat} (hn : n < 24) : besidePwr (Fld.off ⟨R.MBX_STATUS n, lo, w⟩) := by
  show (0x30048 + 0x80 * n) / 0x10000 ≠ 1
  omega

theorem State.rerings_rerung (s : State) (i : Nat) (l : List (Nat × Nat)) (hl : ∀ x ∈ l, x.2 < 24) : Rerung s (s.rerings i l) l := by
  induction l generalizing s with
  | nil => exact ⟨Frame.refl _ _ s, rfl, rfl, rfl, rfl, rfl, fun _ h => h, fun n _ => (Bool.or_false _).symm⟩
  | cons x l ih =>
    have hx := hl x (by simp)
    have hnote := s.notify_noticed x.2 i (s.composer x.2) (s.composer x.2)
    have hrest := ih ((s.notify x.2 i (s.composer x.2) (s.composer x.2)).setF (F.MBX_STATUS_RERING x.2) 1) (fun y hy => hl y (by simp [hy]))
    show Rerung s (State.rerings ((s.notify x.2 i (s.composer x.2) (s.composer x.2)).setF (F.MBX_STATUS_RERING x.2) 1) i l) (x :: l)
    generalize s.notify x.2 i (s.composer x.2) (s.composer x.2) = u at hnote hrest ⊢
    have hfit : (F.MBX_STATUS_RERING x.2).lo + (F.MBX_STATUS_RERING x.2).width ≤ 32 := by show 16 + 1 ≤ 32; decide
    have hoff : R.MBX_STATUS x.2 / 0x10000 = 3 := by unfold R.MBX_STATUS; omega
    have hset : Frame noticeFields besideNotes u (u.setF (F.MBX_STATUS_RERING x.2) 1) :=
      (Frame.refl _ _ u).setF _ _ (by decide) (fun h => h.2 hoff)
    have hdom : (u.setF (F.MBX_STATUS_RERING x.2) 1).domState 11 = u.domState 11 :=
      congrArg (fun w => getBits w 22 2) (rd_setF_other u _ 1 R.PWR_DOM_STATE (by show 0x1000C ≠ 0x30048 + 0x80 * x.2; omega))
    have hbit (n : Nat) : (u.setF (F.MBX_STATUS_RERING x.2) 1).bit (F.MBX_STATUS_RERING n) = (u.bit (F.MBX_STATUS_RERING n) || x.2 == n) := by
      by_cases hn : x.2 = n
      · rw [← hn, bit_setF_one _ _ (by show 16 + 1 ≤ 32 ∧ 1 = 1; decide)]
        simp
      · rw [bit_setF_other _ _ _ _ hfit (.inl (by show 0x30048 + 0x80 * n ≠ 0x30048 + 0x80 * x.2; omega)), beq_false_of_ne hn, Bool.or_false]
    obtain ⟨hf, hacks, hleft, hin, hlink, hhost, hobs, hrer⟩ := hrest
    refine ⟨((hnote.frame.mono (fun _ h => h) (fun _ h => h.1)).trans hset).trans hf, hacks.trans hnote.acks, hleft.trans hnote.left,
      hin.trans hnote.inReset, hlink.trans hnote.linkUp, hhost.trans (hdom.trans hnote.host), hnote.obs.trans hobs, fun n hn => ?_⟩
    rw [hrer n hn, hbit n, hnote.frame.rd.bit (F.MBX_STATUS_RERING n) (besidePwr_channel hn), List.any_cons, Bool.or_assoc]

theorem State.postedTo_mem {i n : Nat} : n ∈ s.postedTo i ↔ n < 24 ∧ s.chSt n = 2 ∧ s.isEnd n i = true ∧ s.composer n ≠ i := by
  simp [State.postedTo, and_assoc]

/-- The messages that are told again as identity `i` leaves reset. -/
def State.toRering (s : State) (i : Nat) : List (Nat × Nat) := s.mbx.left.filter (fun x => x.1 == i && (s.postedTo i).contains x.2)

/-- Identity `i` is out of reset, and nothing waits for it. -/
def State.outOfReset (s : State) (i : Nat) : State :=
  { s with mbx := { s.mbx with
    inReset := updAt (fun _ => false) s.mbx.inReset i
    left := s.mbx.left.filter (fun x => x.1 != i), acks := s.mbx.acks.filter (fun x => x.2.1 != i) } }

/-- What a departure from reset makes of the state. -/
structure Leaves (s t : State) (i : Nat) : Prop where
  frame : Frame noticeFields besideNotes s t
  acks : t.mbx.acks = s.mbx.acks.filter (fun x => x.2.1 != i)
  left : t.mbx.left = s.mbx.left.filter (fun x => x.1 != i)
  inReset : t.mbx.inReset = updAt (fun _ => false) s.mbx.inReset i
  linkUp : t.host.linkUp = s.host.linkUp
  host : t.domState 11 = s.domState 11
  obs : s.obsMore t
  rering : ∀ n, n < 24 → t.bit (F.MBX_STATUS_RERING n) = (s.bit (F.MBX_STATUS_RERING n) || (s.toRering i).any (fun x => x.2 == n))

variable {s} in
theorem State.identLeave_leaves {id : Ident} (h : s.mbx.inReset.getD id.num false = true) : Leaves s (s.identLeave id) id.num := by
  have heq : s.identLeave id = ((((s.mbx.acks.filter (fun x => x.2.1 == id.num)).foldl (fun s x => s.notify x.1 id.num x.2.2 id.num)
      ((s.outOfReset id.num).rerings id.num (s.toRering id.num))).sigsGo id.num).wakePin s.wakeN) := if_pos h
  rw [heq]
  have hre := (s.outOfReset id.num).rerings_rerung id.num (s.toRering id.num)
    (fun x hx => by
      have hp := (List.mem_filter.mp hx).2
      rw [Bool.and_eq_true, List.contains_iff_mem] at hp
      exact ((s.postedTo_mem).mp hp.2).1)
  generalize (s.outOfReset id.num).rerings id.num (s.toRering id.num) = u at hre ⊢
  have hn : Noticed u ((((s.mbx.acks.filter (fun x => x.2.1 == id.num)).foldl (fun s x => s.notify x.1 id.num x.2.2 id.num) u).sigsGo id.num).wakePin
      s.wakeN) :=
    (((Noticed.refl u).foldl _ _ (fun v x => v.notify_noticed _ _ _ _)).trans (State.sigsGo_noticed _ _)).trans (State.wakePin_noticed _ _)
  generalize (((s.mbx.acks.filter (fun x => x.2.1 == id.num)).foldl (fun s x => s.notify x.1 id.num x.2.2 id.num) u).sigsGo id.num).wakePin
      s.wakeN = t at hn ⊢
  have hout : Frame noticeFields besideNotes s (s.outOfReset id.num) := ⟨(Keeps.refl _ s).mbx _ (by decide), RdKept.refl _ s⟩
  obtain ⟨hf, hacks, hleft, hin, hlink, hhost, hobs, hrer⟩ := hre
  exact ⟨(hout.trans hf).trans (hn.frame.mono (fun _ h => h) (fun _ h => h.1)), hn.acks.trans hacks, hn.left.trans hleft, hn.inReset.trans hin,
    hn.linkUp.trans hlink, hn.host.trans hhost, hobs.trans hn.obs,
    fun n hlt => (hn.frame.rd.bit (F.MBX_STATUS_RERING n) (besidePwr_channel hlt)).trans (hrer n hlt)⟩

theorem State.toRering_any (i n : Nat) (hn : n < 24) :
    (s.toRering i).any (fun x => x.2 == n) = decide ((i, n) ∈ s.mbx.left ∧ s.chSt n = 2 ∧ s.isEnd n i = true ∧ s.composer n ≠ i) := by
  rw [Bool.eq_iff_iff, List.any_eq_true, decide_eq_true_iff]
  constructor
  · rintro ⟨⟨a, m⟩, hx, hxn⟩
    obtain ⟨hmem, hp⟩ := List.mem_filter.mp hx
    rw [Bool.and_eq_true, List.contains_iff_mem] at hp
    obtain rfl : a = i := eq_of_beq hp.1
    obtain rfl : m = n := eq_of_beq hxn
    exact ⟨hmem, ((s.postedTo_mem).mp hp.2).2⟩
  · rintro ⟨hmem, hp⟩
    refine ⟨(i, n), List.mem_filter.mpr ⟨hmem, ?_⟩, beq_self_eq_true n⟩
    rw [Bool.and_eq_true, List.contains_iff_mem]
    exact ⟨beq_self_eq_true i, (s.postedTo_mem).mpr ⟨hn, hp⟩⟩

/-! ### Rights (R358) -/

section

variable {s} {id : Ident} {n off : Nat} {v : Word} {f : State → State}

theorem State.mbxGated_none (h : s.canAccess id = false) : s.mbxGated id n off v f = s := by
  unfold State.mbxGated
  rw [h]
  rfl

theorem State.mbxGated_waits (h : s.canAccess id = true) (hw : s.waits id off = true) : s.mbxGated id n off v f = s.goBehind .write id off v := by
  unfold State.mbxGated
  rw [h, hw]
  rfl

/-- The words of a channel and its doorbell. -/
def endOnly (off : Nat) : Prop := off % 0x80 ≠ 0x4C ∧ off % 0x80 ≠ 0x54 ∧ off % 0x80 ≠ 0x50

theorem State.mbxMayWrite_end (ho : endOnly off) : s.mbxMayWrite id n (off % 0x80) = s.isEnd n id.num := by
  obtain ⟨h1, h2, h3⟩ := ho
  unfold State.mbxMayWrite
  rw [if_neg (by omega), if_neg h3]

theorem State.mbxGated_refused (h : s.canAccess id = true) (hw : s.waits id off = false) (he : s.isEnd n id.num = false) (ho : endOnly off) :
    s.mbxGated id n off v f = s.mbxRefuse id n off true := by
  unfold State.mbxGated
  rw [h, hw, State.mbxMayWrite_end ho, he]
  rfl

theorem State.mbxGated_goes (h : s.canAccess id = true) (hw : s.waits id off = false) (he : s.isEnd n id.num = true) (ho : endOnly off) :
    s.mbxGated id n off v f = (f s).bpReg id off true := by
  unfold State.mbxGated
  rw [h, hw, State.mbxMayWrite_end ho, he]
  rfl

end

theorem endOnly_word {n w : Nat} (hw : w < 17) : endOnly (mbxWordOff n w) := by
  unfold mbxWordOff endOnly R.MBX_PAYLOAD R.MBX_HEADER
  split <;> omega

theorem endOnly_doorbell (n : Nat) : endOnly (R.MBX_DOORBELL n) := by
  unfold endOnly R.MBX_DOORBELL
  omega

/-- A refused access (R358): its counts, its flag and its record. -/
theorem State.mbxRefuse_result (id : Ident) {n : Nat} (hn : n < 24) (off : Nat) :
    Keeps [.regs, .recq] s (s.mbxRefuse id n off true) ∧
    RegsKept [R.MBX_REFUSED n, R.MBX_ERR_COUNT, R.MBX_STATUS n] s (s.mbxRefuse id n off true) ∧
    (s.mbxRefuse id n off true).getF (F.MBX_REFUSED_COUNT n) = (s.getF (F.MBX_REFUSED_COUNT n) + 1) % 2 ^ 32 ∧
    (s.mbxRefuse id n off true).getF F.MBX_ERR_COUNT_COUNT = (s.getF F.MBX_ERR_COUNT_COUNT + 1) % 2 ^ 32 ∧
    (s.mbxRefuse id n off true).bit (F.MBX_STATUS_ACC_ERR n) = true ∧ (s.mbxRefuse id n off true).chSt n = s.chSt n ∧
    (s.mbxRefuse id n off true).recq = s.recq ++ [⟨id.num, 0x0301, pw n ++ pw id.num ++ pw off ++ pb true, s.tick⟩] := by
  have hfit : (F.MBX_REFUSED_COUNT n).lo + (F.MBX_REFUSED_COUNT n).width ≤ 32 := by show 0 + 32 ≤ 32; decide
  have hfits : (F.MBX_STATUS_ACC_ERR n).lo + (F.MBX_STATUS_ACC_ERR n).width ≤ 32 := by show 20 + 1 ≤ 32; decide
  have hre : R.MBX_REFUSED n ≠ R.MBX_ERR_COUNT := by unfold R.MBX_REFUSED R.MBX_ERR_COUNT; omega
  have hrs : R.MBX_REFUSED n ≠ R.MBX_STATUS n := by unfold R.MBX_REFUSED R.MBX_STATUS; omega
  have hse : R.MBX_STATUS n ≠ R.MBX_ERR_COUNT := by unfold R.MBX_STATUS R.MBX_ERR_COUNT; omega
  have hk : Keeps [.regs] s (((s.bump (F.MBX_REFUSED_COUNT n)).bump F.MBX_ERR_COUNT_COUNT).setF (F.MBX_STATUS_ACC_ERR n) 1) :=
    (((Keeps.refl _ s).bump _ (by decide)).bump _ (by decide)).setF _ _ (by decide)
  have hr : RegsKept [R.MBX_REFUSED n, R.MBX_ERR_COUNT, R.MBX_STATUS n] s
      (((s.bump (F.MBX_REFUSED_COUNT n)).bump F.MBX_ERR_COUNT_COUNT).setF (F.MBX_STATUS_ACC_ERR n) 1) :=
    (((RegsKept.refl _ s).bump _ (by simp [F.MBX_REFUSED_COUNT])).bump _ (by simp [F.MBX_ERR_COUNT_COUNT])).setF _ _ (by simp [F.MBX_STATUS_ACC_ERR])
  have hcount : (((s.bump (F.MBX_REFUSED_COUNT n)).bump F.MBX_ERR_COUNT_COUNT).setF (F.MBX_STATUS_ACC_ERR n) 1).getF (F.MBX_REFUSED_COUNT n) =
      (s.getF (F.MBX_REFUSED_COUNT n) + 1) % 2 ^ 32 :=
    (getF_setF_other _ _ (F.MBX_REFUSED_COUNT n) _ hfits (.inl hrs)).trans
      ((getF_bump_other _ F.MBX_ERR_COUNT_COUNT _ (by decide) (.inl hre)).trans (getF_bump_same s _ hfit))
  have herr : (((s.bump (F.MBX_REFUSED_COUNT n)).bump F.MBX_ERR_COUNT_COUNT).setF (F.MBX_STATUS_ACC_ERR n) 1).getF F.MBX_ERR_COUNT_COUNT =
      (s.getF F.MBX_ERR_COUNT_COUNT + 1) % 2 ^ 32 :=
    (getF_setF_other _ _ F.MBX_ERR_COUNT_COUNT _ hfits (.inl hse.symm)).trans ((getF_bump_same _ _ (by decide)).trans
      (congrArg (fun m => (m + 1) % 2 ^ 32) (getF_bump_other s _ F.MBX_ERR_COUNT_COUNT hfit (.inl hre.symm))))
  have hst : (((s.bump (F.MBX_REFUSED_COUNT n)).bump F.MBX_ERR_COUNT_COUNT).setF (F.MBX_STATUS_ACC_ERR n) 1).getF (F.MBX_STATUS_STATE n) =
      s.getF (F.MBX_STATUS_STATE n) :=
    (getF_setF_other _ _ (F.MBX_STATUS_STATE n) _ hfits (.inr (.inl (by show 0 + 2 ≤ 20; decide)))).trans
      ((getF_bump_other _ F.MBX_ERR_COUNT_COUNT (F.MBX_STATUS_STATE n) (by decide) (.inl hse)).trans
        (getF_bump_other s _ (F.MBX_STATUS_STATE n) hfit (.inl hrs.symm)))
  have hacc : (((s.bump (F.MBX_REFUSED_COUNT n)).bump F.MBX_ERR_COUNT_COUNT).setF (F.MBX_STATUS_ACC_ERR n) 1).bit (F.MBX_STATUS_ACC_ERR n) = true :=
    bit_setF_one _ _ (by show 20 + 1 ≤ 32 ∧ 1 = 1; decide)
  have hrecq : (((s.bump (F.MBX_REFUSED_COUNT n)).bump F.MBX_ERR_COUNT_COUNT).setF (F.MBX_STATUS_ACC_ERR n) 1).recq = s.recq := hk .recq (by decide)
  have htick : (((s.bump (F.MBX_REFUSED_COUNT n)).bump F.MBX_ERR_COUNT_COUNT).setF (F.MBX_STATUS_ACC_ERR n) 1).tick = s.tick := by
    rw [State.tick, State.tick, hk .time (by decide)]
  unfold State.mbxRefuse
  dsimp only
  generalize pw n ++ pw id.num ++ pw off ++ pb true = p
  generalize ((s.bump (F.MBX_REFUSED_COUNT n)).bump F.MBX_ERR_COUNT_COUNT).setF (F.MBX_STATUS_ACC_ERR n) 1 = u at *
  rw [State.chSt, State.chSt, State.emit_getF, State.emit_getF, State.emit_getF, State.emit_bit]
  refine ⟨(hk.mono (by decide)).emit _ _ _ (by decide), hr.emit _ _ _, hcount, herr, hacc, hst, ?_⟩
  show u.recq ++ [⟨id.num, 0x0301, p, u.tick⟩] = _
  rw [hrecq, htick]

/-! ### Channels (R359-R361, R364) -/

section

variable (n : Nat)

/-- A flag of MBX_STATUS is set. -/
theorem State.statusFlag_result (b : Nat) (hb : 16 ≤ b) (hlt : b < 32) :
    Keeps [.regs] s (s.setF ⟨R.MBX_STATUS n, b, 1⟩ 1) ∧ RegsKept [R.MBX_STATUS n] s (s.setF ⟨R.MBX_STATUS n, b, 1⟩ 1) ∧
    (s.setF ⟨R.MBX_STATUS n, b, 1⟩ 1).chSt n = s.chSt n ∧ (s.setF ⟨R.MBX_STATUS n, b, 1⟩ 1).bit ⟨R.MBX_STATUS n, b, 1⟩ = true := by
  have hfit : b + 1 ≤ 32 := by omega
  exact ⟨(Keeps.refl _ s).setF _ _ (by decide), (RegsKept.refl _ s).setF _ _ List.mem_cons_self,
    getF_setF_other s _ (F.MBX_STATUS_STATE n) 1 hfit (.inr (.inl (show 0 + 2 ≤ b by omega))), bit_setF_one _ _ ⟨hfit, rfl⟩⟩

/-- STATE and COMPOSER are set together. -/
theorem State.setState_result (st c : Nat) :
    Keeps [.regs] s ((s.setF (F.MBX_STATUS_STATE n) st).setF (F.MBX_STATUS_COMPOSER n) c) ∧
    RegsKept [R.MBX_STATUS n] s ((s.setF (F.MBX_STATUS_STATE n) st).setF (F.MBX_STATUS_COMPOSER n) c) ∧
    ((s.setF (F.MBX_STATUS_STATE n) st).setF (F.MBX_STATUS_COMPOSER n) c).chSt n = st % 4 ∧
    ((s.setF (F.MBX_STATUS_STATE n) st).setF (F.MBX_STATUS_COMPOSER n) c).composer n = c % 16 := by
  have hc : (F.MBX_STATUS_COMPOSER n).lo + (F.MBX_STATUS_COMPOSER n).width ≤ 32 := by show 4 + 4 ≤ 32; decide
  exact ⟨((Keeps.refl _ s).setF _ _ (by decide)).setF _ _ (by decide),
    ((RegsKept.refl [R.MBX_STATUS n] s).setF (F.MBX_STATUS_STATE n) _ List.mem_cons_self).setF (F.MBX_STATUS_COMPOSER n) _ List.mem_cons_self,
    (getF_setF_other _ _ (F.MBX_STATUS_STATE n) _ hc (.inr (.inl (by show 0 + 2 ≤ 4; decide)))).trans
      (getF_setF_same s _ _ (by show 0 + 2 ≤ 32; decide)),
    getF_setF_same _ _ _ hc⟩

theorem ident_num_lt (id : Ident) : id.num < 16 := by cases id <;> decide

/-- A word of a channel, as written. -/
theorem State.mbxStore_result {w : Nat} (v : Word) (hw : w < 17) :
    Keeps [.regs] s (s.mbxStore n w v) ∧ RegsKept [mbxWordOff n w] s (s.mbxStore n w v) ∧
    (w < 16 → (s.mbxStore n w v).rd (R.MBX_PAYLOAD n w) = v) ∧
    (w = 16 → (s.mbxStore n w v).getF (F.MBX_HEADER_LEN n) = min 16 (getBits v 0 5) ∧
      (s.mbxStore n w v).getF (F.MBX_HEADER_CODE n) = getBits v 16 16) := by
  unfold State.mbxStore mbxWordOff
  by_cases h : w < 16
  · rw [if_pos h, if_pos h]
    exact ⟨(Keeps.refl _ s).wr _ _ (by decide), (RegsKept.refl _ s).wr _ _ List.mem_cons_self, fun _ => rd_wr_same _ _ _, fun h16 => absurd h (by omega)⟩
  · rw [if_neg h, if_neg h]
    have hcode : (F.MBX_HEADER_CODE n).lo + (F.MBX_HEADER_CODE n).width ≤ 32 := by show 16 + 16 ≤ 32; decide
    refine ⟨((Keeps.refl _ s).setF _ _ (by decide)).setF _ _ (by decide),
      ((RegsKept.refl [R.MBX_HEADER n] s).setF (F.MBX_HEADER_LEN n) _ List.mem_cons_self).setF (F.MBX_HEADER_CODE n) _ List.mem_cons_self, fun h16 => absurd h16 h, fun _ => ⟨?_, ?_⟩⟩
    · refine (getF_setF_other _ _ (F.MBX_HEADER_LEN n) _ hcode (.inr (.inl (by show 0 + 5 ≤ 16; decide)))).trans
        ((getF_setF_same s _ _ (by show 0 + 5 ≤ 32; decide)).trans (Nat.mod_eq_of_lt ?_))
      show min 16 (getBits v 0 5) < 2 ^ 5
      omega
    · exact (getF_setF_same _ _ _ hcode).trans (Nat.mod_eq_of_lt (getBits_lt v 16 16))

/-- The words of a channel stand beside its status. -/
theorem mbxWordOff_ne_status {w : Nat} (hw : w < 17) : R.MBX_STATUS n ≠ mbxWordOff n w := by
  unfold mbxWordOff R.MBX_STATUS R.MBX_PAYLOAD R.MBX_HEADER
  split <;> omega

variable {s} in
theorem RegsKept.statusKept {t : State} {w : Nat} (hw : w < 17) (h : RegsKept [mbxWordOff n w] s t) : t.chSt n = s.chSt n ∧ t.composer n = s.composer n := by
  have hrd := h (R.MBX_STATUS n) (by simpa using mbxWordOff_ne_status n hw)
  exact ⟨congrArg (fun x => getBits x 0 2) hrd, congrArg (fun x => getBits x 4 4) hrd⟩

/-- A write of a word by an end (R360). -/
theorem State.mbxCompose_result (id : Ident) {w : Nat} (v : Word) (hw : w < 17) :
    Keeps [.regs] s (s.mbxCompose id n w v) ∧
    ((s.chSt n = 0 ∨ (s.chSt n = 1 ∧ s.composer n = id.num)) → RegsKept [R.MBX_STATUS n, mbxWordOff n w] s (s.mbxCompose id n w v) ∧
      (s.mbxCompose id n w v).chSt n = 1 ∧ (s.mbxCompose id n w v).composer n = id.num ∧
      (w < 16 → (s.mbxCompose id n w v).rd (R.MBX_PAYLOAD n w) = v) ∧
      (w = 16 → (s.mbxCompose id n w v).getF (F.MBX_HEADER_LEN n) = min 16 (getBits v 0 5) ∧
        (s.mbxCompose id n w v).getF (F.MBX_HEADER_CODE n) = getBits v 16 16)) ∧
    (¬ (s.chSt n = 0 ∨ (s.chSt n = 1 ∧ s.composer n = id.num)) → RegsKept [R.MBX_STATUS n] s (s.mbxCompose id n w v) ∧
      (s.mbxCompose id n w v).chSt n = s.chSt n ∧ (s.mbxCompose id n w v).bit (F.MBX_STATUS_BUSY n) = true) := by
  obtain ⟨hbk, hbr, hbst, hbb⟩ := s.statusFlag_result n 18 (by decide) (by decide)
  unfold State.mbxCompose
  split
  · rename_i h0
    obtain ⟨hk, hr, hst, hco⟩ := s.setState_result n 1 id.num
    generalize (s.setF (F.MBX_STATUS_STATE n) 1).setF (F.MBX_STATUS_COMPOSER n) id.num = u at hk hr hst hco ⊢
    obtain ⟨hsk, hsr, hpay, hhead⟩ := u.mbxStore_result n v hw
    obtain ⟨hst', hco'⟩ := hsr.statusKept n hw
    exact ⟨hk.trans hsk, fun _ => ⟨(hr.mono (by simp)).trans (hsr.mono (by simp)), hst'.trans hst,
      hco'.trans (hco.trans (Nat.mod_eq_of_lt (ident_num_lt id))), hpay, hhead⟩, fun h => absurd (.inl h0) h⟩
  · rename_i h1
    split
    · rename_i hc
      obtain ⟨hsk, hsr, hpay, hhead⟩ := s.mbxStore_result n v hw
      obtain ⟨hst', hco'⟩ := hsr.statusKept n hw
      exact ⟨hsk, fun _ => ⟨hsr.mono (by simp), hst'.trans h1, hco'.trans hc, hpay, hhead⟩, fun h => absurd (.inr ⟨h1, hc⟩) h⟩
    · rename_i hc
      refine ⟨hbk, fun h => ?_, fun _ => ⟨hbr, hbst, hbb⟩⟩
      rcases h with h | h
      · exact absurd (h1.symm.trans h) (by decide)
      · exact absurd h.2 hc
  · rename_i h0 h1
    refine ⟨hbk, fun h => ?_, fun _ => ⟨hbr, hbst, hbb⟩⟩
    rcases h with h | h
    · exact absurd h h0
    · exact absurd h.1 h1

end

/-! ### RING, ABANDON and ACK -/

section

variable (n : Nat)

/-- The registers of channels: STATE and COMPOSER of channel `n` aside, those beside PWR. -/
theorem Noticed.status {s t : State} (h : Noticed s t) {n : Nat} (hn : n < 24) :
    t.chSt n = s.chSt n ∧ t.composer n = s.composer n ∧ t.getF (F.MBX_STATUS_RESULT n) = s.getF (F.MBX_STATUS_RESULT n) :=
  ⟨h.frame.rd.getF _ (besidePwr_channel hn), h.frame.rd.getF _ (besidePwr_channel hn), h.frame.rd.getF _ (besidePwr_channel hn)⟩

/-- A message of the composing end becomes POSTED. -/
def State.posted (s : State) (id : Ident) (n : Nat) : State := (s.setF (F.MBX_STATUS_STATE n) 2).setF (F.MBX_HEADER_SENDER n) id.num

theorem State.posted_frame (id : Ident) : Frame [.regs] (fun o => o ≠ R.MBX_STATUS n ∧ o ≠ R.MBX_HEADER n) s (s.posted id n) :=
  ((Frame.refl _ _ s).setF _ _ (by decide) (fun h => h.1 rfl)).setF _ _ (by decide) (fun h => h.2 rfl)

theorem State.posted_result (id : Ident) :
    (s.posted id n).chSt n = 2 ∧ (s.posted id n).getF (F.MBX_HEADER_SENDER n) = id.num ∧
    (s.posted id n).getF (F.MBX_HEADER_CODE n) = s.getF (F.MBX_HEADER_CODE n) ∧ (s.posted id n).composer n = s.composer n := by
  have hsend : (F.MBX_HEADER_SENDER n).lo + (F.MBX_HEADER_SENDER n).width ≤ 32 := by show 8 + 4 ≤ 32; decide
  have hst : (F.MBX_STATUS_STATE n).lo + (F.MBX_STATUS_STATE n).width ≤ 32 := by show 0 + 2 ≤ 32; decide
  have hsh : R.MBX_STATUS n ≠ R.MBX_HEADER n := by unfold R.MBX_STATUS R.MBX_HEADER; omega
  refine ⟨?_, ?_, ?_, ?_⟩
  · exact (getF_setF_other _ _ (F.MBX_STATUS_STATE n) _ hsend (.inl hsh)).trans (getF_setF_same s _ _ hst)
  · exact (getF_setF_same _ _ _ hsend).trans (Nat.mod_eq_of_lt (ident_num_lt id))
  · exact (getF_setF_other _ _ (F.MBX_HEADER_CODE n) _ hsend (.inr (.inr (by show 8 + 4 ≤ 16; decide)))).trans
      (getF_setF_other s _ (F.MBX_HEADER_CODE n) _ hst (.inl hsh.symm))
  · exact (getF_setF_other _ _ (F.MBX_STATUS_COMPOSER n) _ hsend (.inl hsh)).trans
      (getF_setF_other s _ (F.MBX_STATUS_COMPOSER n) _ hst (.inr (.inr (by show 0 + 2 ≤ 4; decide))))

/-- What decides where a channel's notices go. -/
structure EndsKept (s t : State) : Prop where
  bind : ∀ m < 24, t.rd (R.MBX_BIND m) = s.rd (R.MBX_BIND m)
  ctrl : ∀ m < 24, t.rd (R.MBX_CH_CTRL m) = s.rd (R.MBX_CH_CTRL m)

section

variable {s} {t : State}

theorem EndsKept.otherEnd (h : EndsKept s t) {m : Nat} (hm : m < 24) (i : Nat) : t.otherEnd m i = s.otherEnd m i := by
  have ha : t.endA m = s.endA m := congrArg (fun w => getBits w 0 4) (h.bind m hm)
  have hb : t.endB m = s.endB m := congrArg (fun w => getBits w 8 4) (h.bind m hm)
  rw [State.otherEnd, State.otherEnd, ha, hb]

theorem EndsKept.isEnd (h : EndsKept s t) {m : Nat} (hm : m < 24) (i : Nat) : t.isEnd m i = s.isEnd m i := by
  have ha : t.endA m = s.endA m := congrArg (fun w => getBits w 0 4) (h.bind m hm)
  have hb : t.endB m = s.endB m := congrArg (fun w => getBits w 8 4) (h.bind m hm)
  rw [State.isEnd, State.isEnd, ha, hb]

theorem EndsKept.wakeBit (h : EndsKept s t) {m : Nat} (hm : m < 24) (i : Nat) : t.wakeBit m i = s.wakeBit m i := by
  have ha : t.endA m = s.endA m := congrArg (fun w => getBits w 0 4) (h.bind m hm)
  have hwa : t.bit (F.MBX_CH_CTRL_WAKE_A m) = s.bit (F.MBX_CH_CTRL_WAKE_A m) := congrArg (fun w => getBits w 6 1 == 1) (h.ctrl m hm)
  have hwb : t.bit (F.MBX_CH_CTRL_WAKE_B m) = s.bit (F.MBX_CH_CTRL_WAKE_B m) := congrArg (fun w => getBits w 14 1 == 1) (h.ctrl m hm)
  rw [State.wakeBit, State.wakeBit, ha, hwa, hwb]

/-- The vector of an end. -/
theorem EndsKept.vector (h : EndsKept s t) {m : Nat} (hm : m < 24) (i : Nat) :
    (if t.endA m = i then t.getF (F.MBX_CH_CTRL_VEC_A m) else t.getF (F.MBX_CH_CTRL_VEC_B m)) =
      if s.endA m = i then s.getF (F.MBX_CH_CTRL_VEC_A m) else s.getF (F.MBX_CH_CTRL_VEC_B m) := by
  have ha : t.endA m = s.endA m := congrArg (fun w => getBits w 0 4) (h.bind m hm)
  have hva : t.getF (F.MBX_CH_CTRL_VEC_A m) = s.getF (F.MBX_CH_CTRL_VEC_A m) := congrArg (fun w => getBits w 0 6) (h.ctrl m hm)
  have hvb : t.getF (F.MBX_CH_CTRL_VEC_B m) = s.getF (F.MBX_CH_CTRL_VEC_B m) := congrArg (fun w => getBits w 8 6) (h.ctrl m hm)
  rw [ha, hva, hvb]

end

theorem State.posted_ends (id : Ident) : EndsKept s (s.posted id n) := by
  have hf := (s.posted_frame n id).rd
  refine ⟨fun m _ => hf _ ⟨?_, ?_⟩, fun m _ => hf _ ⟨?_, ?_⟩⟩
  · unfold R.MBX_BIND R.MBX_STATUS; omega
  · unfold R.MBX_BIND R.MBX_HEADER; omega
  · unfold R.MBX_CH_CTRL R.MBX_STATUS; omega
  · unfold R.MBX_CH_CTRL R.MBX_HEADER; omega

/-- WAKE_N stays while what it shows stays. -/
theorem wakePin_silent {t : State} {was : Bool} (h : t.wakeN = was) : t.wakePin was = t := if_pos (by rw [h]; exact beq_self_eq_true was)

theorem State.wakeN_linked (h : s.host.linkUp = true) : s.wakeN = false := by
  rw [State.wakeN, h]
  rfl

/-- A post to an agent leaves WAKE_N as it is: no host end of the channel holds more than before. -/
theorem State.wakeN_kept {t : State} {id : Ident} (hst : s.chSt n ≠ 2) (hcomp : t.composer n = id.num)
    (hagent : s.otherEnd n id.num ≠ 1 ∧ s.otherEnd n id.num ≠ 2) (hisEnd : s.isEnd n id.num = true) (hends : EndsKept s t)
    (hother : ∀ m < 24, m ≠ n → t.chSt m = s.chSt m ∧ t.composer m = s.composer m) (hw : t.mbx.wakes = s.mbx.wakes)
    (hl : t.host.linkUp = s.host.linkUp) : t.wakeN = s.wakeN := by
  have hheld (m : Nat) (hm : m < 24) (i : Nat) (hi : i = 1 ∨ i = 2) : t.hostHeld m i = s.hostHeld m i := by
    rw [State.hostHeld, State.hostHeld, hw, hends.isEnd hm]
    by_cases hmn : m = n
    · subst hmn
      have hnot : (s.isEnd m i && t.composer m != i) = false := by
        rw [hcomp]
        by_cases hid : id.num = i
        · rw [hid]
          simp
        · have hends : s.isEnd m i = false := by
            rw [State.otherEnd] at hagent
            rw [State.isEnd, Bool.and_eq_true, Bool.or_eq_true, beq_iff_eq, beq_iff_eq] at hisEnd
            rw [State.isEnd]
            have hne : s.endA m ≠ i ∧ s.endB m ≠ i := by
              split at hagent <;> omega
            rw [beq_false_of_ne hne.1, beq_false_of_ne hne.2]
            simp
          rw [hends]
          rfl
      rw [Bool.and_assoc, hnot, Bool.and_false, beq_false_of_ne hst, Bool.false_and, Bool.false_and]
    · rw [(hother m hm hmn).1, (hother m hm hmn).2]
  rw [State.wakeN, State.wakeN, hl]
  congr 1
  rw [Bool.eq_iff_iff, List.any_eq_true, List.any_eq_true]
  have hbody (m : Nat) (hm : m ∈ List.range 24) :
      ([1, 2].any (fun i => t.hostHeld m i && t.wakeBit m i)) = [1, 2].any (fun i => s.hostHeld m i && s.wakeBit m i) := by
    have h1 := hheld m (List.mem_range.mp hm) 1 (.inl rfl)
    have h2 := hheld m (List.mem_range.mp hm) 2 (.inr rfl)
    simp only [List.any_cons, List.any_nil, h1, h2, hends.wakeBit (List.mem_range.mp hm)]
  constructor
  · rintro ⟨m, hm, h⟩
    exact ⟨m, hm, (hbody m hm) ▸ h⟩
  · rintro ⟨m, hm, h⟩
    exact ⟨m, hm, (hbody m hm).symm ▸ h⟩

end

section

variable {s} {n : Nat}

theorem State.wakeDom_tick {d : Nat} (hd : d < 14) : (s.wakeDom d).tick = s.tick := by
  rw [State.tick, State.tick, (s.wakeDom_frame hd).keeps .time (by decide)]

/-- NETM and DBG are notified by a record (R361). -/
theorem State.notify_event {o b snd : Nat} (hn : n < 24) (ho : o = 3 ∨ o = 4) :
    ⟨b, 0x0302, pw n ++ pw snd ++ pw (s.otherEnd n snd) ++ pw (s.getF (F.MBX_HEADER_CODE n)), s.tick⟩ ∈ (s.notify n o b snd).recq := by
  rcases ho with rfl | rfl
  · have hf := s.wakeDom_frame (d := 10) (by decide)
    have hbind : (s.wakeDom 10).rd (R.MBX_BIND n) = s.rd (R.MBX_BIND n) := hf.rd _ (by unfold besidePwr R.MBX_BIND; omega)
    have hother : (s.wakeDom 10).otherEnd n snd = s.otherEnd n snd := by
      have ha : (s.wakeDom 10).endA n = s.endA n := congrArg (fun w => getBits w 0 4) hbind
      have hb : (s.wakeDom 10).endB n = s.endB n := congrArg (fun w => getBits w 8 4) hbind
      rw [State.otherEnd, State.otherEnd, ha, hb]
    have hcode : (s.wakeDom 10).getF (F.MBX_HEADER_CODE n) = s.getF (F.MBX_HEADER_CODE n) :=
      hf.rd.getF _ (by show (0x30040 + 0x80 * n) / 0x10000 ≠ 1; omega)
    have htick := State.wakeDom_tick (s := s) (d := 10) (by decide)
    show _ ∈ (s.wakeDom 10).recq ++ [⟨b, 0x0302, pw n ++ pw snd ++ pw ((s.wakeDom 10).otherEnd n snd) ++
      pw ((s.wakeDom 10).getF (F.MBX_HEADER_CODE n)), (s.wakeDom 10).tick⟩]
    rw [hother, hcode, htick]
    simp
  · show _ ∈ s.recq ++ [_]
    exact List.mem_append_right _ (List.mem_singleton.mpr rfl)

/-- A host end is notified by its vector, with the link up. -/
theorem State.notifyHost_linked {i : Nat} (hl : s.host.linkUp = true)
    (hm : (s.vec (i - 1) (if s.endA n = i then s.getF (F.MBX_CH_CTRL_VEC_A n) else s.getF (F.MBX_CH_CTRL_VEC_B n))).masked = false) :
    s.notifyHost n i =
      s.obsv (.msix (i - 1) (if s.endA n = i then s.getF (F.MBX_CH_CTRL_VEC_A n) else s.getF (F.MBX_CH_CTRL_VEC_B n))) := by
  unfold State.notifyHost
  dsimp only
  generalize (if s.endA n = i then s.getF (F.MBX_CH_CTRL_VEC_A n) else s.getF (F.MBX_CH_CTRL_VEC_B n)) = x at hm ⊢
  have hs : s.signal (i - 1) x = s.obsv (.msix (i - 1) x) := by
    rw [State.signal, hm, hl]
    rfl
  rw [hs]
  exact if_pos (.inl hl)

theorem State.notify_host {o b snd : Nat} (ho : o = 1 ∨ o = 2) : s.notify n o b snd = s.notifyHost n o := by
  rcases ho with rfl | rfl <;> rfl

theorem State.notify_agent {o b snd : Nat} (h5 : 5 ≤ o) (h8 : o ≤ 8) : s.notify n o b snd = s.signalAgent n o := by
  unfold State.notify
  split
  · omega
  · omega
  · omega
  · omega
  · exact if_pos ⟨h5, h8⟩

theorem State.signalAgent_wakes (i : Nat) : (s.signalAgent n i).mbx.wakes = s.mbx.wakes := by
  have hk : (s.wakeDom (agentDom i)).mbx.wakes = s.mbx.wakes := by rw [(s.wakeDom_frame (agentDom_lt i)).keeps .mbx (by decide)]
  unfold State.signalAgent
  dsimp only
  split
  · exact hk
  split
  · exact hk
  · exact hk

/-- An agent is signalled at once, or its signal waits (R361). -/
theorem State.signalAgent_result (i : Nat) :
    (s.domOn (agentDom i) = true → s.mbx.inReset.getD i false = false → (s.signalAgent n i).obs = .signal i n :: s.obs) ∧
    (s.mbx.inReset.getD i false = true → (i, n) ∈ (s.signalAgent n i).mbx.sigs) ∧
    (s.domOn (agentDom i) = false → s.pwr.fellAt.getD (agentDom i) none ≠ some s.tick →
      (i, n) ∈ (s.signalAgent n i).mbx.sigs ∧ agentDom i ∈ (s.signalAgent n i).pwr.waking) := by
  have hkm : (s.wakeDom (agentDom i)).mbx.inReset = s.mbx.inReset := by rw [(s.wakeDom_frame (agentDom_lt i)).keeps .mbx (by decide)]
  have hwaits (u : State) (hgo : (u.domOn (agentDom i) && !u.mbx.inReset.getD i false) = false) :
      (i, n) ∈ (if u.domOn (agentDom i) && !u.mbx.inReset.getD i false then u.obsv (.signal i n)
        else if u.mbx.sigs.contains (i, n) then u
        else { u with mbx := { u.mbx with sigs := u.mbx.sigs ++ [(i, n)] } }).mbx.sigs ∧
      (if u.domOn (agentDom i) && !u.mbx.inReset.getD i false then u.obsv (.signal i n)
        else if u.mbx.sigs.contains (i, n) then u
        else { u with mbx := { u.mbx with sigs := u.mbx.sigs ++ [(i, n)] } }).pwr = u.pwr := by
    rw [hgo, if_neg (by decide)]
    split
    · rename_i hc
      exact ⟨List.contains_iff_mem.mp hc, rfl⟩
    · exact ⟨List.mem_append_right _ (List.mem_singleton.mpr rfl), rfl⟩
  refine ⟨fun hon hin => ?_, fun hin => ?_, fun hoff hfell => ?_⟩
  · unfold State.signalAgent
    dsimp only
    rw [State.wakeDom_on hon]
    have h : ((s.worked (agentDom i)).domOn (agentDom i) && !(s.worked (agentDom i)).mbx.inReset.getD i false) = true := by
      show (s.domOn (agentDom i) && !s.mbx.inReset.getD i false) = true
      rw [hon, hin]
      rfl
    rw [if_pos h]
    rfl
  · exact (hwaits (s.wakeDom (agentDom i)) (by rw [hkm, hin]; exact Bool.and_false _)).1
  · by_cases hw : agentDom i ∈ s.pwr.waking
    · have he : s.wakeDom (agentDom i) = s := by
        rw [State.wakeDom, if_neg (ne_true_of_eq_false hoff), if_pos (by simpa using hw)]
      obtain ⟨hs, hp⟩ := hwaits s (by rw [hoff]; rfl)
      unfold State.signalAgent
      dsimp only
      rw [he]
      exact ⟨hs, by rw [hp]; exact hw⟩
    · have he := State.wakeDom_starts hoff hw hfell
      have hne : agentDom i ≠ 0 := fun h0 => by rw [h0] at hoff; simp [State.domOn] at hoff
      have hdom : (s.wakes (agentDom i)).domOn (agentDom i) = false := by
        have hst : (s.wakes (agentDom i)).domState (agentDom i) = s.domState (agentDom i) :=
          congrArg (fun w => getBits w (2 * agentDom i) 2) (rd_bump_other s (F.PWR_DOM_WAKES_COUNT (agentDom i)) R.PWR_DOM_STATE
            (by show 0x1000C ≠ 0x10140 + 0x4 * agentDom i; omega))
        rw [State.domOn, hst]
        exact hoff
      obtain ⟨hs, hp⟩ := hwaits (s.wakes (agentDom i)) (by rw [hdom]; rfl)
      unfold State.signalAgent
      dsimp only
      rw [he]
      refine ⟨hs, ?_⟩
      rw [hp]
      exact List.mem_append_right _ (List.mem_singleton.mpr rfl)

theorem EndsKept.trans_noticed {t u : State} (h : EndsKept s t) (k : Noticed t u) : EndsKept s u :=
  ⟨fun m hm => (k.frame.rd _ (by unfold besidePwr R.MBX_BIND; omega)).trans (h.bind m hm),
    fun m hm => (k.frame.rd _ (by unfold besidePwr R.MBX_CH_CTRL; omega)).trans (h.ctrl m hm)⟩

end

section

variable {s} {n : Nat}

/-- RING by the composing end: the message is posted and the other end notified. -/
theorem State.mbxRing_rings {id : Ident} (hn : n < 24) (h1 : s.chSt n = 1) (hc : s.composer n = id.num) :
    s.mbxRing id n = ((s.posted id n).notify n (s.otherEnd n id.num) id.num id.num).wakePin s.wakeN := by
  have h : s.mbxRing id n = ((s.posted id n).notify n ((s.posted id n).otherEnd n id.num) id.num id.num).wakePin s.wakeN := if_pos ⟨h1, hc⟩
  rw [h, (s.posted_ends n id).otherEnd hn]

/-- What a RING leaves of the channel, and that the notice reaches the other end. -/
theorem State.mbxRing_result {id : Ident} {o : Nat} (hn : n < 24) (hend : s.isEnd n id.num = true) (ho : o = s.otherEnd n id.num)
    (h1 : s.chSt n = 1) (hc : s.composer n = id.num) :
    (s.mbxRing id n).chSt n = 2 ∧ (s.mbxRing id n).getF (F.MBX_HEADER_SENDER n) = id.num ∧
    ((o = 3 ∨ o = 4) → ⟨id.num, 0x0302, pw n ++ pw id.num ++ pw o ++ pw (s.getF (F.MBX_HEADER_CODE n)), s.tick⟩ ∈ (s.mbxRing id n).recq) ∧
    (∀ x, (o = 1 ∨ o = 2) → s.host.linkUp = true →
      x = (if s.endA n = o then s.getF (F.MBX_CH_CTRL_VEC_A n) else s.getF (F.MBX_CH_CTRL_VEC_B n)) →
      (s.vec (o - 1) x).masked = false → (s.mbxRing id n).obs = .msix (o - 1) x :: s.obs) ∧
    (5 ≤ o → o ≤ 8 → (s.domOn (agentDom o) = true → s.mbx.inReset.getD o false = false → (s.mbxRing id n).obs = .signal o n :: s.obs) ∧
      (s.mbx.inReset.getD o false = true → (o, n) ∈ (s.mbxRing id n).mbx.sigs) ∧
      (s.domOn (agentDom o) = false → s.pwr.fellAt.getD (agentDom o) none ≠ some s.tick →
        (o, n) ∈ (s.mbxRing id n).mbx.sigs ∧ agentDom o ∈ (s.mbxRing id n).pwr.waking)) := by
  rw [State.mbxRing_rings hn h1 hc, ← ho]
  have hf := s.posted_frame n id
  have hends := s.posted_ends n id
  obtain ⟨hst, hsend, hcode, hcomp⟩ := s.posted_result n id
  have hother (m : Nat) (_ : m < 24) (hmn : m ≠ n) : (s.posted id n).chSt m = s.chSt m ∧ (s.posted id n).composer m = s.composer m := by
    have hrd := hf.rd (R.MBX_STATUS m) ⟨by unfold R.MBX_STATUS; omega, by unfold R.MBX_STATUS R.MBX_HEADER; omega⟩
    exact ⟨congrArg (fun x => getBits x 0 2) hrd, congrArg (fun x => getBits x 4 4) hrd⟩
  have hoth := hends.otherEnd hn id.num
  have htick : (s.posted id n).tick = s.tick := by rw [State.tick, State.tick, hf.keeps .time (by decide)]
  have hmbx := hf.keeps .mbx (by decide)
  have hhost := hf.keeps .host (by decide)
  have hpwr := hf.keeps .pwr (by decide)
  have hobs := hf.keeps .obs (by decide)
  have hdom (d : Nat) : (s.posted id n).domOn d = s.domOn d := by
    have hrd := hf.rd R.PWR_DOM_STATE ⟨by unfold R.PWR_DOM_STATE R.MBX_STATUS; omega, by unfold R.PWR_DOM_STATE R.MBX_HEADER; omega⟩
    rw [State.domOn, State.domOn, State.domState, State.domState, hrd]
  generalize s.posted id n = u at hf hends hst hsend hcode hcomp hother hoth htick hmbx hhost hpwr hobs hdom ⊢
  have hnote := u.notify_noticed n o id.num id.num
  have hev := State.notify_event (s := u) (b := id.num) (snd := id.num) (o := o) hn
  have hagent := State.notify_agent (s := u) (n := n) (b := id.num) (snd := id.num) (o := o)
  have hhosts := State.notify_host (s := u) (n := n) (b := id.num) (snd := id.num) (o := o)
  rw [hoth, ← ho, hcode, htick] at hev
  generalize u.notify n o id.num id.num = t at hnote hev hagent hhosts ⊢
  have hpin := t.wakePin_noticed s.wakeN
  have hpk := t.wakePin_keeps s.wakeN
  refine ⟨((hnote.trans hpin).status hn).1.trans hst, ?_, fun h34 => ?_, fun x h12 hl hx hmask => ?_, fun h5 h8 => ?_⟩
  · exact ((hnote.trans hpin).frame.rd.getF _ (by show (0x30040 + 0x80 * n) / 0x10000 ≠ 1; omega)).trans hsend
  · rw [hpk .recq (by decide)]
    exact hev h34
  · have hlu : u.host.linkUp = true := by rw [hhost]; exact hl
    have hvec : (if u.endA n = o then u.getF (F.MBX_CH_CTRL_VEC_A n) else u.getF (F.MBX_CH_CTRL_VEC_B n)) = x := (hends.vector hn o).trans hx.symm
    have hm : (u.vec (o - 1) x).masked = false := by
      rw [State.vec, State.fn, hhost]
      exact hmask
    have hto := State.notifyHost_linked (s := u) (n := n) (i := o) hlu (by rw [hvec]; exact hm)
    rw [hvec] at hto
    rw [hhosts h12, hto] at hnote ⊢
    rw [wakePin_silent (t := u.obsv (.msix (o - 1) x)) ((State.wakeN_linked (u.obsv (.msix (o - 1) x)) hlu).trans (State.wakeN_linked _ hl).symm)]
    show _ :: u.obs = _
    rw [hobs]
  · have ht := hagent h5 h8
    subst ht
    have hwakes := State.signalAgent_wakes (s := u) (n := n) o
    obtain ⟨hon, hin, hoff⟩ := State.signalAgent_result (s := u) (n := n) o
    rw [hdom, hmbx] at hon
    rw [hmbx] at hin
    have hkept : (u.signalAgent n o).wakeN = s.wakeN := by
      refine State.wakeN_kept s n (id := id) (by omega) ((hnote.status hn).2.1.trans (hcomp.trans hc)) (by omega) hend (hends.trans_noticed hnote)
        (fun m hm hmn => ?_) (by rw [hwakes, hmbx]) (by rw [hnote.linkUp, hhost])
      obtain ⟨hs1, hc1, -⟩ := hnote.status hm
      obtain ⟨hs2, hc2⟩ := hother m hm hmn
      exact ⟨hs1.trans hs2, hc1.trans hc2⟩
    rw [wakePin_silent hkept]
    refine ⟨fun h hi => ?_, fun h => hin h, fun h hfell => hoff (by rw [hdom]; exact h) (by rw [hpwr, htick]; exact hfell)⟩
    rw [hon h hi, hobs]

/-- RING in the wrong state or from another end (R360) sets ORDER_ERR alone. -/
theorem State.mbxRing_frame (id : Ident) (hn : n < 24) :
    Keeps [.regs, .recq, .host, .mbx, .pwr, .obs] s (s.mbxRing id n) ∧
    (¬ (s.chSt n = 1 ∧ s.composer n = id.num) → RegsKept [R.MBX_STATUS n] s (s.mbxRing id n) ∧ (s.mbxRing id n).chSt n = s.chSt n ∧
      (s.mbxRing id n).bit (F.MBX_STATUS_ORDER_ERR n) = true ∧ (s.mbxRing id n).recq = s.recq ∧ (s.mbxRing id n).obs = s.obs) := by
  by_cases h : s.chSt n = 1 ∧ s.composer n = id.num
  · rw [State.mbxRing_rings hn h.1 h.2]
    have hnote := ((s.posted id n).notify_noticed n (s.otherEnd n id.num) id.num id.num).trans (State.wakePin_noticed _ s.wakeN)
    have hk := (s.posted_frame n id).keeps.mono (m := noticeFields) (by decide)
    exact ⟨(hk.trans hnote.frame.keeps).mono (by decide), fun hno => absurd h hno⟩
  · obtain ⟨hok, hor, host, hob⟩ := s.statusFlag_result (n := n) 19 (by decide) (by decide)
    have heq : s.mbxRing id n = s.mbxOrder n := if_neg h
    rw [heq]
    exact ⟨hok.mono (by decide), fun _ => ⟨hor, host, hob, hok .recq (by decide), hok .obs (by decide)⟩⟩

/-- ABANDON by an end (R360, R415). -/
theorem State.mbxAbandon_result (id : Ident) (hn : n < 24) :
    Keeps [.regs] s (s.mbxAbandon id n) ∧ RegsKept [R.MBX_STATUS n, R.MNT_LATE] s (s.mbxAbandon id n) ∧
    (s.chSt n = 1 → s.composer n = id.num → (s.mbxAbandon id n).chSt n = 0 ∧ (s.mbxAbandon id n).composer n = 0) ∧
    (¬ (s.chSt n = 1 ∧ s.composer n = id.num) → (s.mbxAbandon id n).chSt n = s.chSt n ∧ (s.mbxAbandon id n).bit (F.MBX_STATUS_ORDER_ERR n) = true) ∧
    (s.mbxAbandon id n).getF F.MNT_LATE_COUNT = (s.getF F.MNT_LATE_COUNT + if s.chSt n = 2 ∧ s.composer n = id.num then 1 else 0) % 2 ^ 32 := by
  have hne : R.MNT_LATE ≠ R.MBX_STATUS n := by unfold R.MNT_LATE R.MBX_STATUS; omega
  have hsub (o : Nat) (h : o ∈ [R.MBX_STATUS n]) : o ∈ [R.MBX_STATUS n, R.MNT_LATE] := List.mem_cons.mpr (.inl (List.mem_singleton.mp h))
  have hlate {t : State} (h : RegsKept [R.MBX_STATUS n] s t) : t.getF F.MNT_LATE_COUNT = s.getF F.MNT_LATE_COUNT := h.getF _ (by show R.MNT_LATE ∉ [R.MBX_STATUS n]; simpa using hne)
  have hmod : s.getF F.MNT_LATE_COUNT = (s.getF F.MNT_LATE_COUNT + 0) % 2 ^ 32 := (Nat.mod_eq_of_lt (getF_lt s F.MNT_LATE_COUNT)).symm
  obtain ⟨hok, hor, host, hob⟩ := s.statusFlag_result n 19 (by decide) (by decide)
  obtain ⟨hsk, hsr, hst, hsc⟩ := s.setState_result n 0 0
  unfold State.mbxAbandon
  by_cases hc : s.composer n = id.num
  · rw [if_pos hc]
    split
    · rename_i h1
      refine ⟨hsk, hsr.mono hsub, fun _ _ => ⟨hst, hsc⟩, fun h => absurd ⟨h1, hc⟩ h, ?_⟩
      rw [if_neg (by omega), ← hmod]
      exact hlate hsr
    · rename_i h2
      have hflag : R.MBX_STATUS n ≠ F.MNT_LATE_COUNT.off := hne.symm
      unfold State.late
      refine ⟨hok.bump _ (by decide), (hor.mono hsub).bump _ (by simp [F.MNT_LATE_COUNT]), fun h => absurd h (by omega), fun _ => ⟨?_, ?_⟩, ?_⟩
      · exact (getF_bump_other _ F.MNT_LATE_COUNT (F.MBX_STATUS_STATE n) (by decide) (.inl hflag)).trans host
      · exact (bit_bump_other _ F.MNT_LATE_COUNT (F.MBX_STATUS_ORDER_ERR n) (by decide) (.inl hflag)).trans hob
      · rw [if_pos ⟨h2, hc⟩]
        exact (getF_bump_same _ _ (by decide)).trans (congrArg (fun m => (m + 1) % 2 ^ 32) (hlate hor))
    · rename_i h1 h2
      refine ⟨hok, hor.mono hsub, fun h => absurd h h1, fun _ => ⟨host, hob⟩, ?_⟩
      rw [if_neg (fun h => h2 h.1), ← hmod]
      exact hlate hor
  · rw [if_neg hc]
    refine ⟨hok, hor.mono hsub, fun _ h => absurd h hc, fun _ => ⟨host, hob⟩, ?_⟩
    rw [if_neg (fun h => hc h.2), ← hmod]
    exact hlate hor

/-- ACK by the receiver (R364). -/
theorem State.mbxAck_result (id : Ident) (r : Nat) (hn : n < 24) :
    Keeps [.regs, .recq, .host, .mbx, .pwr, .obs] s (s.mbxAck id n r) ∧
    (s.chSt n = 2 → s.composer n ≠ id.num → (s.mbxAck id n r).chSt n = 0 ∧ (s.mbxAck id n r).composer n = 0 ∧
      (s.mbxAck id n r).getF (F.MBX_STATUS_RESULT n) = ackResult id r ∧
      (s.mbx.inReset.getD (s.composer n) false = true → (s.mbxAck id n r).mbx.acks = s.mbx.acks ++ [(n, s.composer n, id.num)]) ∧
      (s.mbx.inReset.getD (s.composer n) false = false → (s.composer n = 3 ∨ s.composer n = 4) →
        ∃ x ∈ (s.mbxAck id n r).recq, x.ident = id.num ∧ x.typ = 0x0302)) ∧
    ((s.chSt n ≠ 2 ∨ s.composer n = id.num) → RegsKept [R.MBX_STATUS n] s (s.mbxAck id n r) ∧ (s.mbxAck id n r).chSt n = s.chSt n ∧
      (s.mbxAck id n r).bit (F.MBX_STATUS_ORDER_ERR n) = true ∧ (s.mbxAck id n r).recq = s.recq) := by
  obtain ⟨hok, hor, host, hob⟩ := s.statusFlag_result n 19 (by decide) (by decide)
  by_cases h : s.chSt n = 2 ∧ s.composer n ≠ id.num
  · have heq : s.mbxAck id n r =
        (if (((s.setF (F.MBX_STATUS_STATE n) 0).setF (F.MBX_STATUS_COMPOSER n) 0).setF (F.MBX_STATUS_RESULT n) (ackResult id r)).mbx.inReset.getD
            (s.composer n) false then
          ({ (((s.setF (F.MBX_STATUS_STATE n) 0).setF (F.MBX_STATUS_COMPOSER n) 0).setF (F.MBX_STATUS_RESULT n) (ackResult id r)) with
            mbx := { (((s.setF (F.MBX_STATUS_STATE n) 0).setF (F.MBX_STATUS_COMPOSER n) 0).setF (F.MBX_STATUS_RESULT n) (ackResult id r)).mbx with
              acks := (((s.setF (F.MBX_STATUS_STATE n) 0).setF (F.MBX_STATUS_COMPOSER n) 0).setF (F.MBX_STATUS_RESULT n) (ackResult id r)).mbx.acks ++
                [(n, s.composer n, id.num)] } } : State)
        else (((s.setF (F.MBX_STATUS_STATE n) 0).setF (F.MBX_STATUS_COMPOSER n) 0).setF (F.MBX_STATUS_RESULT n) (ackResult id r)).notify n (s.composer n)
          id.num (s.composer n)).wakePin s.wakeN := if_pos h
    rw [heq]
    obtain ⟨hk0, -, hst0, hco0⟩ := s.setState_result n 0 0
    have hres : (F.MBX_STATUS_RESULT n).lo + (F.MBX_STATUS_RESULT n).width ≤ 32 := by show 8 + 8 ≤ 32; decide
    have hk := hk0.setF (F.MBX_STATUS_RESULT n) (ackResult id r) (by decide)
    have hst := (getF_setF_other ((s.setF (F.MBX_STATUS_STATE n) 0).setF (F.MBX_STATUS_COMPOSER n) 0) (F.MBX_STATUS_RESULT n) (F.MBX_STATUS_STATE n)
      (ackResult id r) hres (.inr (.inl (by show 0 + 2 ≤ 8; decide)))).trans hst0
    have hco := (getF_setF_other ((s.setF (F.MBX_STATUS_STATE n) 0).setF (F.MBX_STATUS_COMPOSER n) 0) (F.MBX_STATUS_RESULT n) (F.MBX_STATUS_COMPOSER n)
      (ackResult id r) hres (.inr (.inl (by show 4 + 4 ≤ 8; decide)))).trans hco0
    have hrs := (getF_setF_same ((s.setF (F.MBX_STATUS_STATE n) 0).setF (F.MBX_STATUS_COMPOSER n) 0) (F.MBX_STATUS_RESULT n) (ackResult id r) hres).trans
      (Nat.mod_eq_of_lt (show ackResult id r < 2 ^ 8 by unfold ackResult; split <;> omega))
    generalize ((s.setF (F.MBX_STATUS_STATE n) 0).setF (F.MBX_STATUS_COMPOSER n) 0).setF (F.MBX_STATUS_RESULT n) (ackResult id r) = u at hk hst hco hrs ⊢
    have hmbx : u.mbx = s.mbx := hk .mbx (by decide)
    rw [hmbx]
    cases hin : s.mbx.inReset.getD (s.composer n) false with
    | true =>
      rw [if_pos rfl]
      have ha : Frame [.regs, .mbx] besidePwr u ({ u with mbx := { s.mbx with acks := s.mbx.acks ++ [(n, s.composer n, id.num)] } }) :=
        ⟨(Keeps.refl _ u).mbx _ (by decide), RdKept.refl _ u⟩
      have hacks : ({ u with mbx := { s.mbx with acks := s.mbx.acks ++ [(n, s.composer n, id.num)] } } : State).mbx.acks =
        s.mbx.acks ++ [(n, s.composer n, id.num)] := rfl
      generalize ({ u with mbx := { s.mbx with acks := s.mbx.acks ++ [(n, s.composer n, id.num)] } } : State) = t at ha hacks ⊢
      have hpin := t.wakePin_keeps s.wakeN
      have hpf := (t.wakePin_noticed s.wakeN).frame.rd
      have hb (lo w : Nat) : (t.wakePin s.wakeN).getF ⟨R.MBX_STATUS n, lo, w⟩ = u.getF ⟨R.MBX_STATUS n, lo, w⟩ :=
        (hpf.getF _ (besidePwr_channel hn)).trans (ha.rd.getF _ (besidePwr_channel hn))
      refine ⟨((hk.mono (by decide)).trans (ha.keeps.mono (by decide))).trans (hpin.mono (by decide)), fun _ _ => ⟨(hb _ _).trans hst, (hb _ _).trans hco,
        (hb _ _).trans hrs, fun _ => ?_, nofun⟩, fun hno => by rcases hno with hno | hno; exacts [absurd h.1 hno, absurd hno h.2]⟩
      rw [hpin .mbx (by decide)]
      exact hacks
    | false =>
      rw [if_neg (by decide)]
      have hnote := u.notify_noticed n (s.composer n) id.num (s.composer n)
      have hev := State.notify_event (s := u) (b := id.num) (snd := s.composer n) (o := s.composer n) hn
      generalize u.notify n (s.composer n) id.num (s.composer n) = t at hnote hev ⊢
      have hpin := t.wakePin_keeps s.wakeN
      have hall := hnote.trans (t.wakePin_noticed s.wakeN)
      have hb (lo w : Nat) : (t.wakePin s.wakeN).getF ⟨R.MBX_STATUS n, lo, w⟩ = u.getF ⟨R.MBX_STATUS n, lo, w⟩ :=
        hall.frame.rd.getF _ (besidePwr_channel hn)
      refine ⟨(hk.mono (by decide)).trans (hall.frame.keeps.mono (by decide)), fun _ _ => ⟨(hb _ _).trans hst, (hb _ _).trans hco,
        (hb _ _).trans hrs, nofun, fun _ h34 => ?_⟩, fun hno => by rcases hno with hno | hno; exacts [absurd h.1 hno, absurd hno h.2]⟩
      rw [hpin .recq (by decide)]
      exact ⟨_, hev h34, rfl, rfl⟩
  · have heq : s.mbxAck id n r = s.mbxOrder n := if_neg h
    rw [heq]
    exact ⟨hok.mono (by decide), fun h2 hc => absurd ⟨h2, hc⟩ h, fun _ => ⟨hor, host, hob, hok .recq (by decide)⟩⟩

end

/-! ### Locks (R365-R367) -/

section

variable {s : State} {n : Nat}

/-- A read of a lock: a free one is taken, another only shows its owner. -/
theorem State.lockRead_result (id : Ident) :
    Keeps [.regs, .obs, .dbg] s (s.lockRead id n) ∧ RegsKept [R.MBX_LOCK_PEEK n] s (s.lockRead id n) ∧
    (s.lockOwner n = 0 → (s.lockRead id n).lockOwner n = id.num ∧ (s.lockRead id n).bit (F.MBX_LOCK_PEEK_RELEASED_BY_RESET n) = false ∧
      (s.lockRead id n).obs = .read id.num (R.MBX_LOCK n) (s.rd (R.MBX_LOCK_PEEK n)) :: s.obs) ∧
    (s.lockOwner n ≠ 0 → (s.lockRead id n).regs = s.regs ∧ (s.lockRead id n).obs = .read id.num (R.MBX_LOCK n) (lo32 (s.lockOwner n)) :: s.obs) := by
  have hrel : (F.MBX_LOCK_PEEK_RELEASED_BY_RESET n).lo + (F.MBX_LOCK_PEEK_RELEASED_BY_RESET n).width ≤ 32 := by show 8 + 1 ≤ 32; decide
  have hown : (F.MBX_LOCK_PEEK_OWNER n).lo + (F.MBX_LOCK_PEEK_OWNER n).width ≤ 32 := by show 0 + 4 ≤ 32; decide
  have key (v : Word) (u : State) : Keeps [.obs, .dbg] u ((u.obsv (.read id.num (R.MBX_LOCK n) v)).bpReg id (R.MBX_LOCK n) false) :=
    ((Keeps.refl _ u).obsv _ (by decide)).bpReg _ _ _ (by decide)
  unfold State.lockRead State.lockTake
  by_cases h0 : s.lockOwner n = 0
  · rw [if_pos h0]
    have hk : Keeps [.regs] s ((s.setF (F.MBX_LOCK_PEEK_OWNER n) id.num).setF (F.MBX_LOCK_PEEK_RELEASED_BY_RESET n) 0) :=
      ((Keeps.refl _ s).setF _ _ (by decide)).setF _ _ (by decide)
    have hr : RegsKept [R.MBX_LOCK_PEEK n] s ((s.setF (F.MBX_LOCK_PEEK_OWNER n) id.num).setF (F.MBX_LOCK_PEEK_RELEASED_BY_RESET n) 0) :=
      ((RegsKept.refl [R.MBX_LOCK_PEEK n] s).setF (F.MBX_LOCK_PEEK_OWNER n) _ List.mem_cons_self).setF (F.MBX_LOCK_PEEK_RELEASED_BY_RESET n) _
        List.mem_cons_self
    have ho : ((s.setF (F.MBX_LOCK_PEEK_OWNER n) id.num).setF (F.MBX_LOCK_PEEK_RELEASED_BY_RESET n) 0).lockOwner n = id.num :=
      ((getF_setF_other _ _ (F.MBX_LOCK_PEEK_OWNER n) _ hrel (.inr (.inl (by show 0 + 4 ≤ 8; decide)))).trans
        (getF_setF_same s _ _ hown)).trans (Nat.mod_eq_of_lt (ident_num_lt id))
    have hz : ((s.setF (F.MBX_LOCK_PEEK_OWNER n) id.num).setF (F.MBX_LOCK_PEEK_RELEASED_BY_RESET n) 0).bit (F.MBX_LOCK_PEEK_RELEASED_BY_RESET n) = false :=
      bit_setF_zero _ _ hrel
    dsimp only
    generalize (s.setF (F.MBX_LOCK_PEEK_OWNER n) id.num).setF (F.MBX_LOCK_PEEK_RELEASED_BY_RESET n) 0 = u at hk hr ho hz ⊢
    refine ⟨(hk.mono (by decide)).trans ((key _ u).mono (by decide)), (hr.obsv _).bpReg _ _ _, fun _ => ⟨ho, hz, ?_⟩, fun h => absurd h0 h⟩
    show _ :: u.obs = _
    rw [hk .obs (by decide)]
  · rw [if_neg h0]
    exact ⟨(key _ s).mono (by decide), ((RegsKept.refl _ s).obsv _).bpReg _ _ _, fun h => absurd h h0, fun _ => ⟨rfl, rfl⟩⟩

/-- A write of a lock: its owner's own number releases it, any other counts as an error. -/
theorem State.lockWrite_result (id : Ident) (v : Word) :
    Keeps [.regs] s (s.lockWrite id n v) ∧
    (s.lockOwner n = id.num → getBits v 0 4 = id.num → RegsKept [R.MBX_LOCK_PEEK n] s (s.lockWrite id n v) ∧ (s.lockWrite id n v).lockOwner n = 0) ∧
    (¬ (s.lockOwner n = id.num ∧ getBits v 0 4 = id.num) → RegsKept [R.MBX_LOCK_ERR] s (s.lockWrite id n v) ∧
      (s.lockWrite id n v).getF F.MBX_LOCK_ERR_COUNT = (s.getF F.MBX_LOCK_ERR_COUNT + 1) % 2 ^ 32) := by
  by_cases h : s.lockOwner n = id.num ∧ getBits v 0 4 = id.num
  · have heq : s.lockWrite id n v = s.setF (F.MBX_LOCK_PEEK_OWNER n) 0 := if_pos h
    rw [heq]
    exact ⟨(Keeps.refl _ s).setF _ _ (by decide), fun _ _ => ⟨(RegsKept.refl _ s).setF _ _ List.mem_cons_self,
      getF_setF_same s _ 0 (by show 0 + 4 ≤ 32; decide)⟩, fun hn => absurd h hn⟩
  · have heq : s.lockWrite id n v = s.bump F.MBX_LOCK_ERR_COUNT := if_neg h
    rw [heq]
    exact ⟨(Keeps.refl _ s).bump _ (by decide), fun ho hv => absurd ⟨ho, hv⟩ h, fun _ => ⟨(RegsKept.refl _ s).bump _ List.mem_cons_self,
      getF_bump_same s _ (by decide)⟩⟩

end

/-! ### PCIE_LINK_UP (R362, R363, R368) -/

section

variable {s t u : State}

/-- The message of one vector, if it waits unmasked. -/
def State.flushVec (s : State) (f v : Nat) : State :=
  if (s.vec f v).pend && !(s.vec f v).masked then (s.updVec f v (fun x => { x with pend := false })).obsv (.msix f v) else s

/-- What the messages that go out leave. -/
structure Flushed (s t : State) : Prop where
  frame : Frame [.host, .obs] (fun _ => True) s t
  linkUp : t.host.linkUp = s.host.linkUp
  obs : s.obsMore t

theorem Flushed.refl (s : State) : Flushed s s := ⟨Frame.refl _ _ s, rfl, fun _ h => h⟩

theorem Flushed.trans (h : Flushed s t) (k : Flushed t u) : Flushed s u :=
  ⟨h.frame.trans k.frame, k.linkUp.trans h.linkUp, h.obs.trans k.obs⟩

theorem State.flushVec_flushed (f v : Nat) : Flushed s (s.flushVec f v) := by
  unfold State.flushVec
  split
  · exact ⟨⟨(((Keeps.refl _ s).updVec f v _ (by decide))).obsv _ (by decide), RdKept.refl _ s⟩, rfl, (s.updVec f v _).obsMore_obsv _⟩
  · exact Flushed.refl s

theorem State.flushVec_sends {f v : Nat} (hp : (s.vec f v).pend = true) (hm : (s.vec f v).masked = false) : .msix f v ∈ (s.flushVec f v).obs := by
  unfold State.flushVec
  rw [hp, hm, if_pos (by decide)]
  exact List.mem_cons_self

/-- The message of one vector leaves the others. -/
theorem State.flushVec_vec {f v g w : Nat} (h : f ≠ g ∨ v ≠ w) : (s.flushVec f v).vec g w = s.vec g w := by
  unfold State.flushVec
  split
  · show ((updAt (fun x => { x with msix := updAt (fun x => { x with pend := false }) x.msix v }) s.host.fns f).getD g ⟨[], []⟩).msix.getD w _ =
      (s.host.fns.getD g ⟨[], []⟩).msix.getD w _
    by_cases hg : g = f
    · subst hg
      rcases Nat.lt_or_ge g s.host.fns.length with hl | hl
      · rw [updAt_get_same _ _ _ _ hl]
        exact updAt_get_other _ _ _ _ _ (fun hw => h.elim (fun hf => hf rfl) (fun hv => hv hw.symm))
      · exact congrArg (fun x : PciFn => x.msix.getD w ⟨0#32, 0#32, 0#32, 1#32, false⟩)
          ((List.getD_eq_default _ _ (by rw [updAt_length]; exact hl)).trans (List.getD_eq_default _ _ hl).symm)
    · rw [updAt_get_other _ _ _ _ _ hg]
  · rfl

theorem State.flushVecs_result (f : Nat) (l : List Nat) (s : State) :
    Flushed s (l.foldl (fun s v => s.flushVec f v) s) ∧
    (∀ g w, f ≠ g → (l.foldl (fun s v => s.flushVec f v) s).vec g w = s.vec g w) ∧
    ∀ v ∈ l, (s.vec f v).pend = true → (s.vec f v).masked = false → .msix f v ∈ (l.foldl (fun s v => s.flushVec f v) s).obs := by
  induction l generalizing s with
  | nil => exact ⟨Flushed.refl s, fun _ _ _ => rfl, nofun⟩
  | cons a l ih =>
    obtain ⟨hf, hother, hsend⟩ := ih (s.flushVec f a)
    refine ⟨(State.flushVec_flushed f a).trans hf, fun g w hg => (hother g w hg).trans (State.flushVec_vec (.inl hg)), fun v hv hp hm => ?_⟩
    by_cases h : a = v
    · subst h
      exact hf.obs _ (State.flushVec_sends hp hm)
    · refine hsend v ((List.mem_cons.mp hv).resolve_left (fun h' => h h'.symm)) ?_ ?_ <;> rw [State.flushVec_vec (.inr h)]
      · exact hp
      · exact hm

theorem updAt_false_getD (l : List Bool) (i : Nat) : (updAt (fun _ => false) l i).getD i false = false := by
  rcases Nat.lt_or_ge i l.length with h | h
  · exact updAt_get_same _ _ _ _ h
  · rw [List.getD_eq_default]
    rw [updAt_length]
    exact h

/-- What a departure from reset that may come leaves. -/
theorem State.identLeave_out (id : Ident) :
    Frame noticeFields besideNotes s (s.identLeave id) ∧ (s.identLeave id).host.linkUp = s.host.linkUp ∧ (s.identLeave id).domState 11 = s.domState 11 ∧
    s.obsMore (s.identLeave id) ∧ (s.identLeave id).mbx.inReset.getD id.num false = false ∧
    ∀ i, s.mbx.inReset.getD i false = false → (s.identLeave id).mbx.inReset.getD i false = false := by
  cases h : s.mbx.inReset.getD id.num false with
  | false =>
    rw [State.identLeave_idle h]
    exact ⟨Frame.refl _ _ s, rfl, rfl, fun _ hx => hx, h, fun _ hi => hi⟩
  | true =>
    obtain ⟨hf, -, -, hin, hlink, hhost, hobs, -⟩ := State.identLeave_leaves h
    have hout (i : Nat) (hi : i = id.num ∨ s.mbx.inReset.getD i false = false) : (updAt (fun _ => false) s.mbx.inReset id.num).getD i false = false := by
      by_cases he : i = id.num
      · subst he
        exact updAt_false_getD _ _
      · rw [updAt_get_other _ _ _ _ _ he]
        exact hi.resolve_left he
    rw [hin]
    exact ⟨hf, hlink, hhost, hobs, hout _ (.inl rfl), fun i hi => hout i (.inr hi)⟩

/-- The link is up and HOST is ON. -/
def State.linkOn (s : State) : State :=
  (({ s with host := { s.host with linkUp := true }, mbx := { s.mbx with wakes := [] } } : State).wakePin s.wakeN).setDom 11 2

/-- Rate and width are as negotiated. -/
def State.linkRate (s : State) : State :=
  (s.free.2.free.2.setF F.HIF_LINK_SPEED (1 + s.free.1 % 5)).setF F.HIF_LINK_WIDTH (2 ^ (s.free.2.free.1 % 4))

theorem State.pcieUp_eq (hl : s.host.linkUp = false) (hp : s.pwr.por = false) :
    s.pcieUp = (((s.linkOn.linkRate.msixFlush 0).msixFlush 1).identLeave .host0).identLeave .host1 := by
  unfold State.pcieUp
  rw [if_neg (by rw [hl, hp]; decide)]
  unfold State.linkOn State.linkRate
  rfl

/-- Rate and width are among those of R334. -/
theorem State.linkRate_result (a b : Nat) :
    let t := (s.setF F.HIF_LINK_SPEED (1 + a % 5)).setF F.HIF_LINK_WIDTH (2 ^ (b % 4))
    (1 ≤ t.getF F.HIF_LINK_SPEED ∧ t.getF F.HIF_LINK_SPEED ≤ 5) ∧ t.getF F.HIF_LINK_WIDTH ∈ [1, 2, 4, 8] ∧ t.domState 11 = s.domState 11 ∧
    Keeps [.regs] s t := by
  intro t
  have hspeed : t.getF F.HIF_LINK_SPEED = 1 + a % 5 :=
    ((getF_setF_other _ F.HIF_LINK_WIDTH F.HIF_LINK_SPEED _ (by decide) (by decide)).trans (getF_setF_same s F.HIF_LINK_SPEED _ (by decide))).trans
      (Nat.mod_eq_of_lt (by show 1 + a % 5 < 2 ^ 4; omega))
  have hwidth : t.getF F.HIF_LINK_WIDTH = 2 ^ (b % 4) % 2 ^ 6 := getF_setF_same _ _ _ (by decide)
  have hd : t.domState 11 = s.domState 11 :=
    congrArg (fun w => getBits w 22 2) ((rd_setF_other _ F.HIF_LINK_WIDTH _ R.PWR_DOM_STATE (by decide)).trans
      (rd_setF_other s F.HIF_LINK_SPEED _ R.PWR_DOM_STATE (by decide)))
  refine ⟨by omega, ?_, hd, ((Keeps.refl _ s).setF _ _ (by decide)).setF _ _ (by decide)⟩
  rw [hwidth]
  have hb : b % 4 < 4 := Nat.mod_lt _ (by decide)
  generalize b % 4 = c at hb
  interval_cases c <;> decide

theorem State.linked_result :
    Keeps [.regs, .host, .mbx, .obs, .freeCtr] s s.linkOn.linkRate ∧ s.linkOn.linkRate.host = { s.host with linkUp := true } ∧ s.linkOn.linkRate.domState 11 = 2 ∧
    (1 ≤ s.linkOn.linkRate.getF F.HIF_LINK_SPEED ∧ s.linkOn.linkRate.getF F.HIF_LINK_SPEED ≤ 5) ∧ s.linkOn.linkRate.getF F.HIF_LINK_WIDTH ∈ [1, 2, 4, 8] := by
  unfold State.linkOn State.linkRate
  have hup : Keeps [.host, .mbx] s ({ s with host := { s.host with linkUp := true }, mbx := { s.mbx with wakes := [] } } : State) := by
    intro f hf
    cases f <;> first | rfl | exact absurd hf (by decide)
  have hhost : ({ s with host := { s.host with linkUp := true }, mbx := { s.mbx with wakes := [] } } : State).host = { s.host with linkUp := true } := rfl
  generalize ({ s with host := { s.host with linkUp := true }, mbx := { s.mbx with wakes := [] } } : State) = a at hup hhost ⊢
  have hpin := a.wakePin_keeps s.wakeN
  generalize a.wakePin s.wakeN = b at hpin ⊢
  have hk : Keeps [.regs, .freeCtr] b (b.setDom 11 2).free.2.free.2 :=
    (((Keeps.refl _ b).setF _ _ (by decide)).freeCtr _ (by decide)).freeCtr _ (by decide)
  have hdom : (b.setDom 11 2).free.2.free.2.domState 11 = 2 := b.domState_setDom (by decide) 2
  generalize (b.setDom 11 2).free.1 = x
  generalize (b.setDom 11 2).free.2.free.1 = y
  generalize (b.setDom 11 2).free.2.free.2 = c at hk hdom ⊢
  obtain ⟨hspeed, hwidth, hd, hr⟩ := c.linkRate_result x y
  exact ⟨(((hup.mono (by decide)).trans (hpin.mono (by decide))).trans (hk.mono (by decide))).trans (hr.mono (by decide)),
    ((hr .host (by decide)).trans (hk .host (by decide))).trans ((hpin .host (by decide)).trans hhost), hd.trans hdom, hspeed, hwidth⟩

/-- PCIE_LINK_UP of a link that is down. -/
theorem State.pcieUp_result (hl : s.host.linkUp = false) (hp : s.pwr.por = false) :
    Keeps [.regs, .recq, .host, .mbx, .pwr, .obs, .freeCtr] s s.pcieUp ∧ s.pcieUp.host.linkUp = true ∧ s.pcieUp.domState 11 = 2 ∧
    (1 ≤ s.pcieUp.getF F.HIF_LINK_SPEED ∧ s.pcieUp.getF F.HIF_LINK_SPEED ≤ 5) ∧ s.pcieUp.getF F.HIF_LINK_WIDTH ∈ [1, 2, 4, 8] ∧
    s.pcieUp.mbx.inReset.getD 1 false = false ∧ s.pcieUp.mbx.inReset.getD 2 false = false ∧
    ∀ f v : Nat, f < 2 → v < 64 → (s.vec f v).pend = true → (s.vec f v).masked = false → .msix f v ∈ s.pcieUp.obs := by
  rw [State.pcieUp_eq hl hp]
  obtain ⟨hk, hhost, hdom, hspeed, hwidth⟩ := s.linked_result
  have hvec (f v : Nat) : s.linkOn.linkRate.vec f v = s.vec f v := by
    unfold State.vec State.fn
    rw [hhost]
  generalize s.linkOn.linkRate = a at hk hhost hdom hspeed hwidth hvec ⊢
  obtain ⟨hf0, hother0, hsend0⟩ := State.flushVecs_result 0 (List.range 64) a
  have heq0 : a.msixFlush 0 = (List.range 64).foldl (fun s v => s.flushVec 0 v) a := rfl
  rw [heq0]
  generalize (List.range 64).foldl (fun s v => s.flushVec 0 v) a = b at hf0 hother0 hsend0 ⊢
  obtain ⟨hf1, -, hsend1⟩ := State.flushVecs_result 1 (List.range 64) b
  have heq1 : b.msixFlush 1 = (List.range 64).foldl (fun s v => s.flushVec 1 v) b := rfl
  rw [heq1]
  generalize (List.range 64).foldl (fun s v => s.flushVec 1 v) b = c at hf1 hsend1 ⊢
  obtain ⟨hg0, hl0, hd0, ho0, hi0, -⟩ := c.identLeave_out .host0
  generalize c.identLeave .host0 = d at hg0 hl0 hd0 ho0 hi0 ⊢
  obtain ⟨hg1, hl1, hd1, ho1, hi1, hkeep⟩ := d.identLeave_out .host1
  have hflush := hf0.trans hf1
  have hleave := hg0.trans hg1
  have hlink {lo w : Nat} : (d.identLeave .host1).getF ⟨R.HIF_LINK, lo, w⟩ = a.getF ⟨R.HIF_LINK, lo, w⟩ :=
    (hleave.rd.getF _ (by show 0xE002C / 0x10000 ≠ 1 ∧ 0xE002C / 0x10000 ≠ 3; decide)).trans (hflush.frame.rd.getF _ trivial)
  have hdoms : c.domState 11 = a.domState 11 := State.domState_eq_of_regs (hflush.frame.keeps .regs (by decide)) 11
  refine ⟨((hk.mono (by decide)).trans (hflush.frame.keeps.mono (by decide))).trans (hleave.keeps.mono (by decide)), ?_,
    (hd1.trans hd0).trans (hdoms.trans hdom), ?_, ?_, hkeep _ hi0, hi1, fun f v hf hv hp hm => ho1 _ (ho0 _ ?_)⟩
  · rw [hl1, hl0, hflush.linkUp, hhost]
  · rw [show F.HIF_LINK_SPEED = ⟨R.HIF_LINK, 0, 4⟩ from rfl, hlink]
    exact hspeed
  · rw [show F.HIF_LINK_WIDTH = ⟨R.HIF_LINK, 4, 6⟩ from rfl, hlink]
    exact hwidth
  · rw [← hvec] at hp hm
    interval_cases f
    · exact hf1.obs _ (hsend0 v (List.mem_range.mpr hv) hp hm)
    · rw [← hother0 1 v (by decide)] at hp hm
      exact hsend1 v (List.mem_range.mpr hv) hp hm

end

end

/-! ### The accesses of a channel -/

section

variable {s : State} {id : Ident} {n off : Nat}

/-- The writes of a channel that only its ends may make (R358): without access, waiting, refused, or let through. -/
theorem State.mbxGated_cases {x : Host.Outcome State Fault Refusal} (hn : n < 24) (ho : endOnly off) (v : Word) (f : State → State)
    (hx : x = .next (s.mbxGated id n off v f)) :
    (s.canAccess id = false → x = .next s) ∧
    (s.canAccess id = true → s.waits id off = true → ∃ t y, x = .next t ∧ Keeps [.pwr] s t ∧
      t.pwr = { s.pwr with behind := s.pwr.behind ++ [⟨id, off, y, .write, s.fencing id⟩] }) ∧
    (s.canAccess id = true → s.waits id off = false → s.isEnd n id.num = false → ∃ t, x = .next t ∧ Keeps [.regs, .recq] s t ∧
      RegsKept [R.MBX_REFUSED n, R.MBX_ERR_COUNT, R.MBX_STATUS n] s t ∧
      t.getF (F.MBX_REFUSED_COUNT n) = (s.getF (F.MBX_REFUSED_COUNT n) + 1) % 2 ^ 32 ∧
      t.getF F.MBX_ERR_COUNT_COUNT = (s.getF F.MBX_ERR_COUNT_COUNT + 1) % 2 ^ 32 ∧
      t.bit (F.MBX_STATUS_ACC_ERR n) = true ∧ t.chSt n = s.chSt n ∧
      t.recq = s.recq ++ [⟨id.num, 0x0301, pw n ++ pw id.num ++ pw off ++ pb true, s.tick⟩]) :=
  ⟨fun h => hx.trans (congrArg _ (State.mbxGated_none h)), fun h hw => ⟨_, v, hx.trans (congrArg _ (State.mbxGated_waits h hw)), (Keeps.refl _ s).pwr _ (by decide), rfl⟩,
    fun h hw he => ⟨_, hx.trans (congrArg _ (State.mbxGated_refused h hw he ho)), s.mbxRefuse_result id hn off⟩⟩

end

end Sys2Proof.Machine

open Sys2Proof.Machine in
/-- Settles O59: each row of a channel is one state function behind the rights and the order of its identity (`mbxGated`); the
frames of a notification (`Noticed`), of an identity that leaves reset (`Leaves`) and of the messages that go out with the link
(`Flushed`) give the rest. -/
theorem mailboxes : Obligations.Mailboxes := by
  unfold Obligations.Mailboxes
  refine ⟨fun id n w v s c off hc => ?_, fun id n w v s ha hw he => ?_, fun id n s o ha hw he ho => ?_, fun id n s ha hw he => ?_,
    fun id n x s snd ha hw he hsnd => ?_, fun id n s ha hw => ?_, fun id n v s ha hw => ?_, fun id s h => ?_, fun id s hm hin => ?_,
    fun s h => ?_, fun s hl hp => ?_⟩
  · simp only [List.mem_cons, List.not_mem_nil, or_false, Prod.mk.injEq] at hc
    rcases hc with ⟨rfl, rfl⟩ | ⟨rfl, rfl⟩ | ⟨rfl, rfl⟩ | ⟨rfl, rfl⟩
    · exact State.mbxGated_cases n.isLt (endOnly_word w.isLt) v (fun s => s.mbxCompose id n w v) rfl
    · exact State.mbxGated_cases n.isLt (endOnly_doorbell n) 1#32 (fun s => s.mbxRing id n) rfl
    · exact State.mbxGated_cases n.isLt (endOnly_doorbell n) 2#32 (fun s => s.mbxAbandon id n) rfl
    · exact State.mbxGated_cases n.isLt (endOnly_doorbell n) _ (fun s => s.mbxAck id n (getBits v 0 8)) rfl
  · obtain ⟨hk, hin, hout⟩ := s.mbxCompose_result id (n := n) v w.isLt
    refine ⟨_, congrArg Host.Outcome.next (State.mbxGated_goes ha hw he (endOnly_word w.isLt)), (hk.mono (by decide)).bpReg _ _ _ (by decide),
      fun h => ?_, fun h => ?_⟩
    · obtain ⟨hr, hst, hco, hp, hh⟩ := hin h
      exact ⟨hr.bpReg _ _ _, hst, hco, hp, hh⟩
    · obtain ⟨hr, hst, hb⟩ := hout h
      exact ⟨hr.bpReg _ _ _, hst, hb⟩
  · obtain ⟨hk, horder⟩ := s.mbxRing_frame id (n := n) n.isLt
    refine ⟨_, congrArg Host.Outcome.next (State.mbxGated_goes ha hw he (endOnly_doorbell n)), (hk.mono (by decide)).bpReg _ _ _ (by decide),
      fun h1 hc => State.mbxRing_result n.isLt he ho h1 hc, fun h => ?_⟩
    obtain ⟨hr, hst, hb, hq, hobs⟩ := horder h
    exact ⟨hr.bpReg _ _ _, hst, hb, hq, hobs⟩
  · obtain ⟨hk, hr, hin, hout, hlate⟩ := s.mbxAbandon_result id (n := n) n.isLt
    exact ⟨_, congrArg Host.Outcome.next (State.mbxGated_goes ha hw he (endOnly_doorbell n)), (hk.mono (by decide)).bpReg _ _ _ (by decide),
      hr.bpReg _ _ _, hin, hout, hlate⟩
  · subst hsnd
    obtain ⟨hk, hin, hout⟩ := s.mbxAck_result id (getBits x 0 8) (n := n) n.isLt
    refine ⟨_, congrArg Host.Outcome.next (State.mbxGated_goes ha hw he (endOnly_doorbell n)), (hk.mono (by decide)).bpReg _ _ _ (by decide), hin,
      fun h => ?_⟩
    obtain ⟨hr, hst, hb, hq⟩ := hout h
    exact ⟨hr.bpReg _ _ _, hst, hb, hq⟩
  · have hpor : s.pwr.por = false := by simpa using (Bool.and_eq_true_iff.mp ha).1
    have heq : exec (.lockRead id n) s = .next (s.lockRead id n) := by
      show Host.Outcome.next (if s.canAccess id then s.reading id (R.MBX_LOCK n) (·.lockRead id n) else s) = _
      rw [if_pos ha, State.reading, if_neg (by rw [hpor]; decide), if_neg (by rw [hw]; decide)]
    exact ⟨_, heq, s.lockRead_result id⟩
  · have heq : exec (.lockRelease id n v) s = .next ((s.lockWrite id n v).bpReg id (R.MBX_LOCK n) true) := by
      show Host.Outcome.next (s.lockGated id n v) = _
      rw [State.lockGated, ha, if_neg (by decide), if_neg (by rw [hw]; decide)]
    obtain ⟨hk, hin, hout⟩ := s.lockWrite_result id v (n := n)
    refine ⟨_, heq, (hk.mono (by decide)).bpReg _ _ _ (by decide), fun ho hv => ?_, fun h => ?_⟩
    · exact ⟨(hin ho hv).1.bpReg _ _ _, (hin ho hv).2⟩
    · exact ⟨(hout h).1.bpReg _ _ _, (hout h).2⟩
  · show Host.Outcome.next (if s.mayLeave id then s.identLeave id else s) = _
    rcases h with h | h
    · rw [if_neg (by rw [h]; decide)]
    · rw [State.identLeave_idle h, ite_self]
  · have heq : exec (.identityLeavesReset id) s = .next (s.identLeave id) := congrArg Host.Outcome.next (if_pos hm)
    obtain ⟨hf, hacks, hleft, hreset, -, -, -, hrer⟩ := State.identLeave_leaves hin
    refine ⟨_, heq, hf.keeps.mono (by decide), ?_, hacks, hleft, fun n hn => ?_⟩
    · rw [hreset]
      exact updAt_false_getD _ _
    · rw [hrer n hn, s.toRering_any _ _ hn]
  · refine congrArg Host.Outcome.next (if_pos ?_)
    rw [Bool.or_eq_true]
    exact h
  · exact ⟨_, rfl, s.pcieUp_result hl hp⟩

end

section
/-!
SUPPORT. Frames on their way out (R20, R22, R234-R238, R281-R286): the account of a stream's source-samples, a commit with the packets
that go ahead, what a port takes and what it has sent, and O46.
-/

namespace Sys2Proof.Machine

section

variable {s t u : State} {i j n : Nat}

/-! ### The account of a stream (R20, R22) -/

theorem State.str_updStr_same (hi : i < s.strs.length) (f : StreamState → StreamState) : (s.updStr i f).str i = f (s.str i) :=
  updAt_get_same _ _ _ _ hi

theorem State.str_updStr_other (h : j ≠ i) (f : StreamState → StreamState) : (s.updStr i f).str j = s.str j := updAt_get_other _ _ _ _ _ h

/-- Stream `i` has declared `n` source-samples; its own content and its further counts are as they were, and so is every other stream. -/
structure Declared (i n : Nat) (s t : State) : Prop where
  other : ∀ j, j ≠ i → t.str j = s.str j
  length : t.strs.length = s.strs.length
  active : (t.str i).active = (s.str i).active
  insts : (t.str i).insts = (s.str i).insts
  produced : (t.str i).produced = (s.str i).produced
  delivered : (t.str i).delivered = (s.str i).delivered
  declared : (t.str i).declared = (s.str i).declared + n

theorem Declared.refl (i : Nat) (s : State) : Declared i 0 s s := ⟨fun _ _ => rfl, rfl, rfl, rfl, rfl, rfl, rfl⟩

theorem Declared.of_strs (h : t.strs = s.strs) : Declared i 0 s t := by
  have hs (j : Nat) : t.str j = s.str j := by rw [State.str, State.str, h]
  exact ⟨fun j _ => hs j, by rw [h], by rw [hs], by rw [hs], by rw [hs], by rw [hs], by rw [hs]; rfl⟩

theorem Declared.trans {m : Nat} (h : Declared i n s t) (k : Declared i m t u) : Declared i (n + m) s u :=
  ⟨fun j hj => (k.other j hj).trans (h.other j hj), k.length.trans h.length, k.active.trans h.active, k.insts.trans h.insts,
    k.produced.trans h.produced, k.delivered.trans h.delivered, by rw [k.declared, h.declared, Nat.add_assoc]⟩

/-- A further part that declares nothing. -/
theorem Declared.silent (h : Declared i n s t) (k : Declared i 0 t u) : Declared i n s u := h.trans k

/-- An update of the stream that is silent on its account. -/
theorem Declared.updStr (f : StreamState → StreamState) (hf : ∀ x, (f x).active = x.active ∧ (f x).insts = x.insts ∧ (f x).produced = x.produced ∧
    (f x).delivered = x.delivered ∧ (f x).declared = x.declared) : Declared i 0 s (s.updStr i f) := by
  by_cases hi : i < s.strs.length
  · obtain ⟨h1, h2, h3, h4, h5⟩ := hf (s.str i)
    have hs := State.str_updStr_same hi f
    exact ⟨fun j hj => State.str_updStr_other hj f, updAt_length _ _ _, by rw [hs, h1], by rw [hs, h2], by rw [hs, h3], by rw [hs, h4],
      by rw [hs, h5]; rfl⟩
  · have hs : (s.updStr i f).str i = s.str i :=
      (List.getD_eq_default _ _ (by rw [show (s.updStr i f).strs = updAt f s.strs i from rfl, updAt_length]; omega)).trans
        (List.getD_eq_default _ _ (by omega)).symm
    exact ⟨fun j hj => State.str_updStr_other hj f, updAt_length _ _ _, by rw [hs], by rw [hs], by rw [hs], by rw [hs], by rw [hs]; rfl⟩

theorem Declared.foldl {α : Type} (f : State → α → State) (l : List α) (hf : ∀ v a, Declared i 0 v (f v a)) : Declared i 0 s (l.foldl f s) := by
  induction l generalizing s with
  | nil => exact Declared.refl i s
  | cons a l ih => exact (hf s a).trans ih

/-- A run declared by a stream that is enabled in the run counts with its length. -/
theorem State.declare_declared (hi : i < s.strs.length) (ha : (s.str i).active = true) (r : GapRun) :
    Declared i (r.len (s.strD i)) s (s.declare i r) := by
  have hs : (s.declare i r).str i = { s.str i with
      runs := addRun (s.strD i) r (s.str i).runs, declared := (s.str i).declared + r.len (s.strD i)
      lossy := (s.str i).lossy || r.cause == causeLink || r.cause == causeMem } :=
    (State.str_updStr_same hi _).trans (if_pos ha)
  exact ⟨fun j hj => State.str_updStr_other hj _, updAt_length _ _ _, by rw [hs], by rw [hs], by rw [hs], by rw [hs], by rw [hs]⟩

/-- Runs of one instant each. -/
theorem State.declares_declared (hi : i < s.strs.length) (ha : (s.str i).active = true) (l : List GapRun) (hl : ∀ r ∈ l, r.last = r.first) :
    Declared i l.length s (l.foldl (fun s r => s.declare i r) s) := by
  induction l generalizing s with
  | nil => exact Declared.refl i s
  | cons r l ih =>
    have hone : r.len (s.strD i) = 1 := by
      rw [GapRun.len, hl r List.mem_cons_self, Nat.sub_self, Nat.zero_div]
    have h := State.declare_declared hi ha r
    rw [hone] at h
    have hrest := ih (s := s.declare i r) (by rw [h.length]; exact hi) (h.active.trans ha) (fun x hx => hl x (List.mem_cons_of_mem _ hx))
    have hall := h.trans hrest
    rw [Nat.add_comm 1] at hall
    exact hall

/-- The source-samples of a packet, one run each. -/
theorem contentRuns_length (cause cap : Nat) (l : List (Nat × List Nat)) : (contentRuns cause cap l).length = (l.flatMap (·.2)).length := by
  unfold contentRuns
  rw [List.length_flatMap, List.length_flatMap]
  exact congrArg List.sum (List.map_congr_left (fun x _ => List.length_map _))

theorem contentRuns_single (cause cap : Nat) (l : List (Nat × List Nat)) : ∀ r ∈ contentRuns cause cap l, r.last = r.first := by
  intro r hr
  obtain ⟨x, -, hx⟩ := List.mem_flatMap.mp hr
  obtain ⟨k, -, rfl⟩ := List.mem_map.mp hx
  rfl

/-- A packet that is not written: its content is declared, and the stream's position goes past it. -/
theorem State.unbuilt_result (cause : Nat) (p : Packet) (hi : p.stream < s.strs.length) (ha : (s.str p.stream).active = true) :
    Keeps [.strs] s (s.unbuilt cause p) ∧ Declared p.stream (p.content.flatMap (·.2)).length s (s.unbuilt cause p) ∧
    ((s.unbuilt cause p).str p.stream).pos = p.posEnd := by
  have hd := State.declares_declared hi ha _ (contentRuns_single cause p.cap p.content)
  rw [contentRuns_length] at hd
  have hk : Keeps [.strs] s ((contentRuns cause p.cap p.content).foldl (fun s r => s.declare p.stream r) s) :=
    (Keeps.refl _ s).foldl _ _ (fun v r _ => v.declare_keeps _ _)
  unfold State.unbuilt
  dsimp only
  generalize (contentRuns cause p.cap p.content).foldl (fun s r => s.declare p.stream r) s = t at hd hk ⊢
  refine ⟨hk.updStr _ _ (by decide), hd.silent (Declared.updStr _ (fun x => ⟨rfl, rfl, rfl, rfl, rfl⟩)), ?_⟩
  rw [State.str_updStr_same (by rw [hd.length]; exact hi)]

/-! ### A commit with the packets ahead (R235, R288, R291) -/

theorem State.fq_updFq_same (hn : n < s.fqs.length) (f : List Packet → List Packet) : (s.updFq n f).fq n = f (s.fq n) :=
  updAt_get_same _ _ _ _ hn

/-- The packets `l` stand at the end of queue `n`, and no other queue has changed. -/
structure Queued (n : Nat) (l : List Packet) (s t : State) : Prop where
  keeps : Keeps [.regs, .mem, .fqs] s t
  length : t.fqs.length = s.fqs.length
  same : t.fq n = s.fq n ++ l
  other : ∀ m, m ≠ n → t.fq m = s.fq m

theorem State.fqCommit_queued (hn : n < 16) (hl : n < s.fqs.length) (p : Packet) : Queued n [p] s (s.fqCommit n p) := by
  obtain ⟨u, hu, hk⟩ := s.fqCommit_adds hn p
  have hq : u.fqs = s.fqs := hk .fqs (by decide)
  have hf (m : Nat) : u.fq m = s.fq m := by rw [State.fq, State.fq, hq]
  rw [hu]
  exact ⟨Keeps.updFq s (hk.mono (m := [.regs, .mem, .fqs]) (by decide)) n _ (by decide), (updAt_length _ _ _).trans (congrArg List.length hq),
    (State.fq_updFq_same (by rw [hq]; exact hl) _).trans (congrArg (· ++ [p]) (hf n)), fun m hm => (State.fq_updFq_other u _ hm).trans (hf m)⟩

theorem State.fqCommitAll_queued (hn : n < 16) (hl : n < s.fqs.length) (l : List Packet) : Queued n l s (s.fqCommitAll n l) := by
  induction l generalizing s with
  | nil => exact ⟨Keeps.refl _ s, rfl, (List.append_nil _).symm, fun _ _ => rfl⟩
  | cons p l ih =>
    have h := State.fqCommit_queued hn hl p
    have hr := ih (s := s.fqCommit n p) (by rw [h.length]; exact hl)
    refine ⟨h.keeps.trans hr.keeps, hr.length.trans h.length, ?_, fun m hm => (hr.other m hm).trans (h.other m hm)⟩
    exact hr.same.trans ((congrArg (· ++ l) h.same).trans (List.append_assoc _ _ _))

theorem State.pace_result (k : Nat) (l : List Packet) (j : Nat) : Keeps [.strs] s (s.pace k l) ∧ Declared k 0 s (s.pace k l) ∧ ((s.pace k l).str j).pos = (s.str j).pos := by
  unfold State.pace
  split
  · refine ⟨(Keeps.refl _ s).updStr _ _ (by decide), Declared.updStr _ (fun x => ⟨rfl, rfl, rfl, rfl, rfl⟩), ?_⟩
    by_cases hj : j = k
    · subst hj
      by_cases hl : j < s.strs.length
      · rw [State.str_updStr_same hl]
      · exact congrArg StreamState.pos ((List.getD_eq_default _ _ (by
          rw [show (s.updStr j _).strs = updAt _ s.strs j from rfl, updAt_length]; omega)).trans (List.getD_eq_default _ _ (by omega)).symm)
    · rw [State.str_updStr_other hj]
  · exact ⟨Keeps.refl _ s, Declared.refl _ s, rfl⟩

/-- A packet with those ahead of it: they all stand at the end of its queue, or none does and its content is declared. -/
theorem State.commitTry_result (pre : List Packet) (p : Packet) (hi : p.stream < s.strs.length) (hq : s.fqs.length = 16)
    (ha : (s.str p.stream).active = true) :
    Keeps commitFields s (s.commitTry pre p).2 ∧ ((s.commitTry pre p).2.str p.stream).pos = p.posEnd ∧
    (∀ m, m ≠ s.fqOf p.stream → (s.commitTry pre p).2.fq m = s.fq m) ∧
    (((s.commitTry pre p).2.fq (s.fqOf p.stream) = s.fq (s.fqOf p.stream) ++ (pre ++ [p]) ∧ Declared p.stream 0 s (s.commitTry pre p).2) ∨
      ((s.commitTry pre p).2.fq (s.fqOf p.stream) = s.fq (s.fqOf p.stream) ∧
        Declared p.stream (p.content.flatMap (·.2)).length s (s.commitTry pre p).2)) := by
  have hn := s.fqOf_lt p.stream
  have hlost (u : State) (hu : Keeps [.regs, .dbg] s u) :
      Keeps commitFields s (u.unbuilt causeLink p) ∧ ((u.unbuilt causeLink p).str p.stream).pos = p.posEnd ∧
      (∀ m, m ≠ s.fqOf p.stream → (u.unbuilt causeLink p).fq m = s.fq m) ∧
      (((u.unbuilt causeLink p).fq (s.fqOf p.stream) = s.fq (s.fqOf p.stream) ++ (pre ++ [p]) ∧ Declared p.stream 0 s (u.unbuilt causeLink p)) ∨
        ((u.unbuilt causeLink p).fq (s.fqOf p.stream) = s.fq (s.fqOf p.stream) ∧
          Declared p.stream (p.content.flatMap (·.2)).length s (u.unbuilt causeLink p))) := by
    have hs : u.strs = s.strs := hu .strs (by decide)
    have hact : (u.str p.stream).active = true := by rw [State.str, hs]; exact ha
    obtain ⟨hk, hd, hpos⟩ := u.unbuilt_result causeLink p (by rw [hs]; exact hi) hact
    have hf (m : Nat) : (u.unbuilt causeLink p).fq m = s.fq m := by
      rw [State.fq, State.fq, hk .fqs (by decide), hu .fqs (by decide)]
    have hall := (Declared.of_strs (i := p.stream) hs).trans hd
    rw [Nat.zero_add] at hall
    exact ⟨(hu.mono (by decide)).trans (hk.mono (by decide)), hpos, fun m _ => hf m, .inr ⟨hf _, hall⟩⟩
  unfold State.commitTry
  dsimp only
  split
  · exact hlost _ (((Keeps.refl _ s).bump _ (by decide)).trans ((State.bpQueue_keeps _ _ _ _).mono (by decide)))
  · exact hlost _ (((Keeps.refl _ s).bump _ (by decide)).bump _ (by decide))
  · have h0 : Keeps [.strs] s (s.updStr p.stream (fun x => x.reported pre)) := (Keeps.refl _ s).updStr _ _ (by decide)
    have hd0 : Declared p.stream 0 s (s.updStr p.stream (fun x => x.reported pre)) := Declared.updStr _ (fun x => ⟨rfl, rfl, rfl, rfl, rfl⟩)
    have hf0 : (s.updStr p.stream (fun x => x.reported pre)).fqs = s.fqs := rfl
    have hfq0 (m : Nat) : (s.updStr p.stream (fun x => x.reported pre)).fq m = s.fq m := rfl
    generalize s.updStr p.stream (fun x => x.reported pre) = a at h0 hd0 hf0 hfq0 ⊢
    have h1 := State.fqCommitAll_queued hn (s := a) (by rw [hf0, hq]; exact hn) pre
    have hd1 := Declared.of_strs (i := p.stream) (h1.keeps .strs (by decide))
    generalize a.fqCommitAll (s.fqOf p.stream) pre = b at h1 hd1 ⊢
    have h2 := State.fqCommit_queued hn (s := b) (by rw [h1.length, hf0, hq]; exact hn) p
    have hd2 := Declared.of_strs (i := p.stream) (h2.keeps .strs (by decide))
    generalize b.fqCommit (s.fqOf p.stream) p = c at h2 hd2 ⊢
    have hall := ((hd0.trans hd1).trans hd2)
    have hd3 : Declared p.stream 0 c (c.updStr p.stream (fun x => { x.reported [p] with
        pendDecl := 0, pos := p.posEnd, declPos := x.declPos + p.declIn, fresh := false })) := Declared.updStr _ (fun x => ⟨rfl, rfl, rfl, rfl, rfl⟩)
    have hp3 : ((c.updStr p.stream (fun x => { x.reported [p] with
        pendDecl := 0, pos := p.posEnd, declPos := x.declPos + p.declIn, fresh := false })).str p.stream).pos = p.posEnd := by
      rw [State.str_updStr_same (by rw [hall.length]; exact hi)]
    have h3 : Keeps [.strs] c (c.updStr p.stream (fun x => { x.reported [p] with
        pendDecl := 0, pos := p.posEnd, declPos := x.declPos + p.declIn, fresh := false })) := (Keeps.refl _ c).updStr _ _ (by decide)
    generalize c.updStr p.stream (fun x => { x.reported [p] with
        pendDecl := 0, pos := p.posEnd, declPos := x.declPos + p.declIn, fresh := false }) = d at h3 hd3 hp3 ⊢
    obtain ⟨h4, hd4, hp4⟩ := State.pace_result (s := d) p.stream (pre ++ [p]) p.stream
    generalize d.pace p.stream (pre ++ [p]) = e at h4 hd4 hp4 ⊢
    have hf4 (m : Nat) : e.fq m = c.fq m := by rw [State.fq, State.fq, h4 .fqs (by decide), h3 .fqs (by decide)]
    refine ⟨?_, hp4.trans hp3, fun m hm => ?_, .inl ⟨?_, (hall.trans hd3).trans hd4⟩⟩
    · exact ((((h0.mono (by decide)).trans (h1.keeps.mono (by decide))).trans (h2.keeps.mono (by decide))).trans (h3.mono (by decide))).trans (h4.mono (by decide))
    · rw [hf4, h2.other m hm, h1.other m hm, hfq0]
    · rw [hf4, h2.same, h1.same, hfq0, List.append_assoc]

/-! ### FRAME_BUILD (R281) -/

section

variable {s : State} {i : Nat}

theorem foldl_lengths {α β : Type} (f : α → List β) (l : List α) (a : Nat) : l.foldl (fun n x => n + (f x).length) a = a + (l.flatMap f).length := by
  induction l generalizing a with
  | nil => rfl
  | cons x l ih => rw [List.foldl_cons, ih, List.flatMap_cons, List.length_append, Nat.add_assoc]

/-- What a DATA packet says of the instants it carries (R281, R285). -/
theorem State.dataPkt_result (i : Nat) (l : List Instant) :
    (s.dataPkt i l).stream = i ∧ (s.dataPkt i l).kind = 0 ∧ (s.dataPkt i l).count = l.length ∧
    (s.dataPkt i l).okIn = (l.flatMap (fun x => okSrcs (s.strSrc i) x.vals)).length ∧
    (s.dataPkt i l).posEnd = (s.str i).pos + (l.flatMap (fun x => okSrcs (s.strSrc i) x.vals)).length +
      (l.flatMap (fun x => declSrcs x.sn (s.strSrc i) x.vals)).length ∧
    ((s.dataPkt i l).content.flatMap (·.2)).length = (l.flatMap (fun x => okSrcs (s.strSrc i) x.vals)).length := by
  have hcontent : (l.map (fun x => (x.sn, okSrcs (s.strSrc i) x.vals))).flatMap (·.2) = l.flatMap (fun x => okSrcs (s.strSrc i) x.vals) := List.flatMap_map _ _ _
  have hok : (l.map (fun x => (x.sn, okSrcs (s.strSrc i) x.vals))).foldl (fun a c => a + c.2.length) 0 =
      (l.flatMap (fun x => okSrcs (s.strSrc i) x.vals)).length := by
    rw [foldl_lengths, hcontent, Nat.zero_add]
  have hdc : l.foldl (fun a x => a + (declSrcs x.sn (s.strSrc i) x.vals).length) 0 =
      (l.flatMap (fun x => declSrcs x.sn (s.strSrc i) x.vals)).length := by
    rw [foldl_lengths, Nat.zero_add]
  have hpos := congrArg₂ (fun a b => (s.str i).pos + a + b) hok hdc
  have hlen := congrArg List.length hcontent
  unfold State.dataPkt
  dsimp only
  split
  · split
    · exact ⟨rfl, rfl, rfl, hok, hpos, hlen⟩
    · exact ⟨rfl, rfl, rfl, hok, hpos, hlen⟩
  · exact ⟨rfl, rfl, rfl, hok, hpos, hlen⟩

/-- The packets that go ahead of content are GAP and MARK packets of its stream. -/
theorem State.due_kinds (last : Nat) : ∀ p ∈ s.dueGaps i last ++ s.dueMarks i last, p.stream = i ∧ p.kind ≠ 0 := by
  intro p hp
  rcases List.mem_append.mp hp with h | h
  · obtain ⟨g, -, rfl⟩ := List.mem_map.mp h
    exact ⟨rfl, Nat.one_ne_zero⟩
  · unfold State.dueMarks at h
    dsimp only at h
    split at h
    · exact absurd h List.not_mem_nil
    · obtain ⟨m, -, rfl⟩ := List.mem_map.mp h
      exact ⟨rfl, show 3 ≠ 0 from Nat.succ_ne_zero 2⟩

/-- The instants of the head frame leave the stream. -/
def State.headTaken (s : State) (i : Nat) : State :=
  s.updStr i (fun x => { x with
    insts := x.insts.drop (s.headFrame i).1.length
    runs := ((s.headFrame i).1.flatMap (fun y => declSrcs y.sn (s.strSrc i) y.vals)).foldl (fun rs r => addRun (s.strD i) r rs) x.runs })

/-- The DATA packet of the head frame. -/
def State.headPkt (s : State) (i : Nat) : Packet := (s.headTaken i).dataPkt i (s.headFrame i).1

/-- The packets that are due ahead of it. -/
def State.headDue (s : State) (i : Nat) : List Packet :=
  (s.headTaken i).dueGaps i (((s.headFrame i).1.map (·.sn)).getLastD 0) ++ (s.headTaken i).dueMarks i (((s.headFrame i).1.map (·.sn)).getLastD 0)

theorem State.frameBuild_idle (h : s.strCont i = false ∨ (s.str i).active = false ∨ (s.headFrame i).2 = false ∨ s.halted = true) :
    s.frameBuild i = s := by
  have hcond : (s.strCont i && (s.str i).active && (s.headFrame i).2 && !s.halted) ≠ true := by
    rcases h with h | h | h | h <;> simp [h]
  exact if_neg hcond

theorem State.frameBuild_eq (hc : s.strCont i = true) (ha : (s.str i).active = true) (hf : (s.headFrame i).2 = true) (hh : s.halted = false) :
    s.frameBuild i = if (s.headPkt i).okIn = 0 then
      (s.headTaken i).updStr i (fun x => { x with pendDecl := (s.headPkt i).declIn, pos := (s.headPkt i).posEnd, fresh := true })
    else ((s.headTaken i).commitTry (s.headDue i) (s.headPkt i)).2 := by
  have hcond : (s.strCont i && (s.str i).active && (s.headFrame i).2 && !s.halted) = true := by rw [hc, ha, hf, hh]; rfl
  exact if_pos hcond

/-- FRAME_BUILD of a complete head frame. -/
theorem State.frameBuild_result (hc : s.strCont i = true) (ha : (s.str i).active = true) (hf : (s.headFrame i).2 = true) (hh : s.halted = false)
    (hq : s.fqs.length = 16) (hi : i < s.strs.length) {ok dc : Nat}
    (hok : ok = ((s.headFrame i).1.flatMap (fun x => okSrcs (s.strSrc i) x.vals)).length)
    (hdc : dc = ((s.headFrame i).1.flatMap (fun x => declSrcs x.sn (s.strSrc i) x.vals)).length) :
    Keeps [.regs, .mem, .fqs, .strs, .dbg] s (s.frameBuild i) ∧
    ((s.frameBuild i).str i).insts = (s.str i).insts.drop (s.headFrame i).1.length ∧
    (∀ n, n ≠ s.fqOf i → (s.frameBuild i).fq n = s.fq n) ∧ (∀ j, j ≠ i → (s.frameBuild i).str j = s.str j) ∧
    ∃ new, (s.frameBuild i).fq (s.fqOf i) = s.fq (s.fqOf i) ++ new ∧
      (∀ p ∈ new, p.stream = i ∧ (p.kind = 0 → new.getLast? = some p ∧ p.count = (s.headFrame i).1.length)) ∧
      ((s.frameBuild i).str i).produced = (s.str i).produced ∧ ((s.frameBuild i).str i).delivered = (s.str i).delivered ∧
      ((s.frameBuild i).str i).pos = (s.str i).pos + ok + dc ∧
      ((∃ p, new.getLast? = some p ∧ p.kind = 0 ∧ p.okIn = ok ∧ ((s.frameBuild i).str i).declared = (s.str i).declared) ∨
        (new = [] ∧ ((s.frameBuild i).str i).declared = (s.str i).declared + ok)) := by
  rw [State.frameBuild_eq hc ha hf hh]
  have hdue := (s.headTaken i).due_kinds (i := i) (((s.headFrame i).1.map (·.sn)).getLastD 0)
  obtain ⟨hstream, hkind, hcount, hin, hend, hcontent⟩ := (s.headTaken i).dataPkt_result i (s.headFrame i).1
  have hk : Keeps [.strs] s (s.headTaken i) := (Keeps.refl _ s).updStr _ _ (by decide)
  have hstr : (s.headTaken i).str i = { s.str i with
      insts := (s.str i).insts.drop (s.headFrame i).1.length
      runs := ((s.headFrame i).1.flatMap (fun y => declSrcs y.sn (s.strSrc i) y.vals)).foldl (fun rs r => addRun (s.strD i) r rs) (s.str i).runs } :=
    State.str_updStr_same hi _
  have hother (j : Nat) (hj : j ≠ i) : (s.headTaken i).str j = s.str j := State.str_updStr_other hj _
  have hlen : i < (s.headTaken i).strs.length := by
    rw [show (s.headTaken i).strs = updAt _ s.strs i from rfl, updAt_length]
    exact hi
  have hsrc : (s.headTaken i).strSrc i = s.strSrc i := rfl
  have hfq : (s.headTaken i).fqOf i = s.fqOf i := rfl
  have hfqs (m : Nat) : (s.headTaken i).fq m = s.fq m := rfl
  have hqs : (s.headTaken i).fqs.length = 16 := hq
  have hpos : ((s.headTaken i).str i).pos = (s.str i).pos := by rw [hstr]
  rw [hsrc, ← hok] at hin hcontent
  rw [hsrc, ← hok, ← hdc, hpos] at hend
  unfold State.headDue State.headPkt
  generalize (s.headTaken i).dueGaps i (((s.headFrame i).1.map (·.sn)).getLastD 0) ++
    (s.headTaken i).dueMarks i (((s.headFrame i).1.map (·.sn)).getLastD 0) = pre at hdue ⊢
  generalize (s.headTaken i).dataPkt i (s.headFrame i).1 = p at hstream hkind hcount hin hend hcontent ⊢
  generalize s.headTaken i = u at hk hstr hother hlen hfq hfqs hqs ⊢
  by_cases h0 : p.okIn = 0
  · rw [if_pos h0]
    have hd : Declared i 0 u (u.updStr i (fun x => { x with pendDecl := p.declIn, pos := p.posEnd, fresh := true })) :=
      Declared.updStr _ (fun x => ⟨rfl, rfl, rfl, rfl, rfl⟩)
    refine ⟨(hk.mono (by decide)).updStr _ _ (by decide), ?_, fun n _ => hfqs n, fun j hj => (hd.other j hj).trans (hother j hj), [],
      (hfqs _).trans (List.append_nil _).symm, nofun, ?_, ?_, ?_, .inr ⟨rfl, ?_⟩⟩
    · rw [hd.insts, hstr]
    · rw [hd.produced, hstr]
    · rw [hd.delivered, hstr]
    · rw [State.str_updStr_same hlen]
      exact hend
    · rw [hd.declared, hstr, ← hin, h0]
  · rw [if_neg h0]
    have hact : (u.str p.stream).active = true := by rw [hstream, hstr]; exact ha
    obtain ⟨hck, hcp, hcq, hcase⟩ := State.commitTry_result pre p (by rw [hstream]; exact hlen) hqs hact
    rw [hstream, hfq] at hcase
    rw [hstream] at hcp
    rw [hstream, hfq] at hcq
    have hcont : u.strs = u.strs := rfl
    generalize (u.commitTry pre p).2 = t at hck hcp hcq hcase ⊢
    have hall : Keeps [.regs, .mem, .fqs, .strs, .dbg] s t := (hk.mono (by decide)).trans (hck.mono (by decide))
    rcases hcase with ⟨hnew, hd⟩ | ⟨hnew, hd⟩
    · refine ⟨hall, ?_, fun n hn => (hcq n hn).trans (hfqs n), fun j hj => (hd.other j hj).trans (hother j hj), pre ++ [p],
        hnew.trans (by rw [hfqs]), fun x hx => ?_, ?_, ?_, hcp.trans hend, .inl ⟨p, List.getLast?_concat, hkind, hin, ?_⟩⟩
      · rw [hd.insts, hstr]
      · rcases List.mem_append.mp hx with hx | hx
        · obtain ⟨hs, hk0⟩ := hdue x hx
          exact ⟨hs, fun h => absurd h hk0⟩
        · obtain rfl := List.mem_singleton.mp hx
          exact ⟨hstream, fun _ => ⟨List.getLast?_concat, hcount⟩⟩
      · rw [hd.produced, hstr]
      · rw [hd.delivered, hstr]
      · rw [hd.declared, hstr]
        rfl
    · refine ⟨hall, ?_, fun n hn => (hcq n hn).trans (hfqs n), fun j hj => (hd.other j hj).trans (hother j hj), [],
        (hnew.trans (hfqs _)).trans (List.append_nil _).symm, nofun, ?_, ?_, hcp.trans hend, .inr ⟨rfl, ?_⟩⟩
      · rw [hd.insts, hstr]
      · rw [hd.produced, hstr]
      · rw [hd.delivered, hstr]
      · rw [hd.declared, hstr, hcontent]

end

/-! ### What the transmitter reads (R234, R252) -/

section

variable {s : State} {n : Nat}

/-- The fields that the reads of a frame's lines change. -/
def lineFields : List Field := .dbg :: readFields

/-- What a word of a line that was read counts. -/
def State.lineNote (s : State) (n : Nat) (r : MemRead) : State :=
  match r with
  | .good => s
  | .corrected => s.bump (F.FLW_FQ_CE_COUNT n)
  | .transient => s.bump (F.FLW_FQ_UE_TRANS_COUNT n)
  | .lasting => s.bump (F.FLW_FQ_UE_LASTING_COUNT n)

theorem State.lineNote_keeps (n : Nat) (r : MemRead) : Keeps lineFields s (s.lineNote n r) := by
  cases r
  · exact Keeps.refl _ s
  all_goals exact (Keeps.refl _ s).bump _ (by decide)

theorem State.readLineWords_succ (n a k : Nat) :
    (s.readLineWords n a (k + 1)).2 = (((s.memReadWord (a + 4 * (15 - k))).2.lineNote n (s.memReadWord (a + 4 * (15 - k))).1).readLineWords n a k).2 := by
  unfold State.lineNote
  rfl

theorem State.readLineWords_keeps (s : State) (n a k : Nat) : Keeps lineFields s (s.readLineWords n a k).2 := by
  induction k generalizing s with
  | zero => exact Keeps.refl _ s
  | succ k ih =>
    rw [State.readLineWords_succ]
    exact (((s.memReadWord_keeps _).mono (fun _ => List.mem_cons_of_mem _)).trans (State.lineNote_keeps _ _)).trans (ih _)

theorem State.readFqLine_keeps (n i : Nat) : Keeps lineFields s (s.readFqLine n i).2 := by
  unfold State.readFqLine
  dsimp only
  have hk := State.readLineWords_keeps s n (64 * (s.getF (F.FLW_FQ_BASE_LINE n) +
    (s.getF (F.FLW_FQ_RD_RD n) + i) % if s.fqUsable n = 0 then 1 else s.fqUsable n)) 16
  generalize s.readLineWords n _ 16 = r at hk ⊢
  split
  · exact (hk.setF _ _ (by decide)).trans ((State.bpQueue_keeps _ _ _ _).mono (by decide))
  · exact hk

theorem State.readFqLines_succ (n i k : Nat) : (s.readFqLines n i (k + 1)).2 = ((s.readFqLine n i).2.readFqLines n (i + 1) k).2 := by
  rw [State.readFqLines]

theorem State.readFqLines_keeps (s : State) (n i k : Nat) : Keeps lineFields s (s.readFqLines n i k).2 := by
  induction k generalizing s i with
  | zero => exact Keeps.refl _ s
  | succ k ih =>
    rw [State.readFqLines_succ]
    exact (s.readFqLine_keeps n i).trans (ih _ _)

theorem State.readLineWords_clean (h : s.mem.faults = []) (n a k : Nat) : s.readLineWords n a k = (false, s) := by
  induction k with
  | zero => rfl
  | succ k ih =>
    unfold State.readLineWords
    rw [State.memReadWord_clean h]
    dsimp only
    rw [ih]
    rfl

theorem State.readFqLine_clean (h : s.mem.faults = []) (n i : Nat) : s.readFqLine n i = (false, s) := by
  unfold State.readFqLine
  dsimp only
  rw [State.readLineWords_clean h]
  rfl

theorem State.readFqLines_clean (h : s.mem.faults = []) (n i k : Nat) : s.readFqLines n i k = (false, s) := by
  induction k generalizing i with
  | zero => rfl
  | succ k ih =>
    unfold State.readFqLines
    rw [State.readFqLine_clean h]
    dsimp only
    rw [ih]
    rfl

/-! ### FRAME_TRANSMIT (R234, R286, R311) -/

theorem updAt_of_fixed {α : Type} (f : α → α) (l : List α) (i : Nat) (d : α) (h : f (l.getD i d) = l.getD i d) : updAt f l i = l := by
  induction l generalizing i with
  | nil => rfl
  | cons a l ih =>
    cases i with
    | zero => exact congrArg (· :: l) h
    | succ i => exact congrArg (a :: ·) (ih i h)

/-- RD stays in front of a frame that is not discarded. -/
theorem State.fqTrim_head {x : Packet} {rest : List Packet} (hsend : s.sendingOf n = none) (hq : s.fq n = x :: rest) (hd : x.dead = false)
    (hh : s.fqHeld.getD n none = none ∨ x.stored = true) : s.fqTrim n = s := by
  have hgone : (s.fq n).takeWhile (·.dead) = [] := by rw [hq, List.takeWhile_cons_of_neg (by rw [hd]; decide)]
  have hkeep : s.updFq n (fun l => l.dropWhile (·.dead)) = s := by
    have hfix : updAt (fun l => l.dropWhile (·.dead)) s.fqs n = s.fqs := updAt_of_fixed _ _ _ [] (by
      show (s.fq n).dropWhile (·.dead) = s.fq n
      rw [hq, List.dropWhile_cons_of_neg (by rw [hd]; decide)])
    unfold State.updFq
    rw [hfix]
  have hno : ((s.fqHeld.getD n none).isSome && !s.fqHolds n) = false := by
    rcases hh with h | h
    · rw [h]; rfl
    · have hx : s.fqHolds n = true := by
        unfold State.fqHolds
        rw [hq, List.any_cons, h, Bool.true_or, Bool.or_true]
      rw [hx, Bool.not_true, Bool.and_false]
  unfold State.fqTrim
  dsimp only
  rw [hsend, hgone, hkeep, if_neg (by decide)]
  exact if_neg (by rw [List.foldl_nil, hno]; decide)

/-- The conditions under which a port takes a frame of a queue. -/
structure Takes (s : State) (p k : Nat) (x : Packet) (rest : List Packet) : Prop where
  up : s.linkUp p = true
  idle : (s.port p).sending = none
  turn : s.hostFirst p = false
  replies : (s.port p).replies = []
  runs : s.halted = false
  before : ∀ j, j < k → s.fq (4 * p + j) = []
  class_ : k < 4
  head : s.fq (4 * p + k) = x :: rest
  alive : x.dead = false

theorem State.frameTransmit_idle {p : Nat} (h : s.linkUp p = false ∨ (s.port p).sending ≠ none ∨ s.hostFirst p = true) : s.frameTransmit p = s := by
  have hcond : (s.linkUp p && (s.port p).sending.isNone && !s.hostFirst p) ≠ true := by
    rcases h with h | h | h
    · simp [h]
    · cases hs : (s.port p).sending
      · exact absurd hs h
      · simp
    · simp [h]
  exact if_neg hcond

/-- A port whose turn it is. -/
theorem State.frameTransmit_eq {p : Nat} (hl : s.linkUp p = true) (hs : (s.port p).sending = none) (hf : s.hostFirst p = false) :
    s.frameTransmit p = match (s.port p).replies with
      | r :: t => (s.updPort p (fun x => { x with replies := t, sending := some (.reply r) })).obsv (.frame p r)
      | [] =>
        if s.halted then s
        else
          match (List.range 4).find? (fun k => decide (s.fqAlive (4 * p + k) ≠ [])) with
          | none => s
          | some k => s.takeFrame p k := by
  have hcond : (s.linkUp p && (s.port p).sending.isNone && !s.hostFirst p) = true := by rw [hl, hs, hf]; rfl
  exact if_pos hcond

theorem State.port_updPort (p : Nat) (hp : p < s.ports.length) (f : NetPort → NetPort) : (s.updPort p f).port p = f (s.port p) :=
  updAt_get_same _ _ _ _ hp

/-- The lowest class with a frame goes first. -/
theorem Takes.transmit {p k : Nat} {x : Packet} {rest : List Packet} (h : Takes s p k x rest) : s.frameTransmit p = s.takeFrame p k := by
  have hempty (j : Nat) (hj : j < k) : s.fqAlive (4 * p + j) = [] := by rw [State.fqAlive, h.before j hj]; rfl
  have hhas : s.fqAlive (4 * p + k) ≠ [] := by
    rw [State.fqAlive, h.head, List.filter_cons_of_pos (by rw [h.alive]; decide)]
    exact List.cons_ne_nil _ _
  have hfind : (List.range 4).find? (fun k => decide (s.fqAlive (4 * p + k) ≠ [])) = some k := by
    rw [List.find?_range_eq_some]
    refine ⟨decide_eq_true hhas, List.mem_range.mpr h.class_, fun j hj => ?_⟩
    rw [hempty j hj]
    rfl
  rw [State.frameTransmit_eq h.up h.idle h.turn, h.replies, hfind]
  exact if_neg (by rw [h.runs]; decide)

/-- The head frame stays in front until it is read. -/
theorem Takes.trim {p k : Nat} {x : Packet} {rest : List Packet} (h : Takes s p k x rest)
    (hh : s.fqHeld.getD (4 * p + k) none = none ∨ x.stored = true) : s.fqTrim (4 * p + k) = s := by
  refine State.fqTrim_head ?_ h.head h.alive hh
  have hp : (4 * p + k) / 4 = p := by have := h.class_; omega
  unfold State.sendingOf
  rw [hp, show s.ports.getD p NetPort.reset = s.port p from rfl, h.idle]

/-- A frame begins to be sent. -/
theorem State.sendPacket_result {p : Nat} (hp : p < s.ports.length) (k : Nat) (x : Packet) (b : List Byte × List Byte) :
    Keeps [.ports, .obs] s (s.sendPacket p k x b) ∧ ((s.sendPacket p k x b).port p).sending = some (.packet k x (s.nextSeq x) x.stored) ∧
    ∃ y, (s.sendPacket p k x b).obs = .frame p y :: s.obs := by
  refine ⟨((Keeps.refl _ s).ports _ (by decide)).obsv _ (by decide), ?_, _, rfl⟩
  show ((s.updPort p (fun y => { y with sending := some (.packet k x (s.nextSeq x) x.stored) })).port p).sending = _
  rw [State.port_updPort p hp]

/-- A frame whose lines read well goes out. -/
theorem Takes.sends {p k : Nat} {x : Packet} {rest : List Packet} (h : Takes s p k x rest) (hp : p < s.ports.length)
    (hq : 4 * p + k < s.fqs.length) (hm : s.mem.faults = []) (hheld : s.fqHeld.getD (4 * p + k) none = none) :
    Keeps [.ports, .fqs, .obs] s (s.frameTransmit p) ∧ (s.frameTransmit p).fq (4 * p + k) = rest ∧
    ((s.frameTransmit p).port p).sending = some (.packet k x (s.nextSeq x) x.stored) ∧ ∃ b, (s.frameTransmit p).obs = .frame p b :: s.obs := by
  have heq : ∃ b, s.frameTransmit p = (s.updFq (4 * p + k) (fun l => l.drop 1)).sendPacket p k x b := by
    rw [h.transmit]
    unfold State.takeFrame
    dsimp only
    rw [h.trim (.inl hheld), h.head, State.readFqLine_clean hm]
    dsimp only
    rw [State.readFqLines_clean hm]
    cases x.stored
    · exact ⟨_, rfl⟩
    · exact ⟨_, rfl⟩
  obtain ⟨b, heq⟩ := heq
  have hdrop : (s.updFq (4 * p + k) (fun l => l.drop 1)).fq (4 * p + k) = rest := by
    rw [State.fq_updFq_same hq, h.head]
    rfl
  have hk : Keeps [.fqs] s (s.updFq (4 * p + k) (fun l => l.drop 1)) := Keeps.updFq s (Keeps.refl _ s) _ _ (by decide)
  have hseq : (s.updFq (4 * p + k) (fun l => l.drop 1)).nextSeq x = s.nextSeq x := rfl
  have hobs : (s.updFq (4 * p + k) (fun l => l.drop 1)).obs = s.obs := rfl
  have hports : p < (s.updFq (4 * p + k) (fun l => l.drop 1)).ports.length := hp
  rw [heq]
  generalize s.updFq (4 * p + k) (fun l => l.drop 1) = u at hdrop hk hseq hobs hports ⊢
  obtain ⟨hs, hsend, y, hy⟩ := u.sendPacket_result hports k x b
  refine ⟨(hk.mono (by decide)).trans (hs.mono (by decide)), ?_, hsend.trans (by rw [hseq]), y, by rw [hy, hobs]⟩
  rw [State.fq, hs .fqs (by decide)]
  exact hdrop

end

/-! ### A frame that a lasting error meets (R252) -/

section

variable {s t u : State} {i n : Nat}

/-- What the loss of a packet of stream `i` changes: its streams and queues, with `n` source-samples declared. -/
structure Loses (i n : Nat) (s t : State) : Prop where
  keeps : Keeps [.strs, .fqs] s t
  account : Declared i n s t

theorem Loses.refl (i : Nat) (s : State) : Loses i 0 s s := ⟨Keeps.refl _ s, Declared.refl i s⟩

theorem Loses.silent (h : Loses i n s t) (k : Loses i 0 t u) : Loses i n s u := ⟨h.keeps.trans k.keeps, h.account.trans k.account⟩

theorem Loses.updStr (f : StreamState → StreamState) (hf : ∀ x, (f x).active = x.active ∧ (f x).insts = x.insts ∧ (f x).produced = x.produced ∧
    (f x).delivered = x.delivered ∧ (f x).declared = x.declared) : Loses i 0 s (s.updStr i f) :=
  ⟨(Keeps.refl _ s).updStr _ _ (by decide), Declared.updStr f hf⟩

theorem Loses.updFq (m : Nat) (f : List Packet → List Packet) : Loses i 0 s (s.updFq m f) :=
  ⟨Keeps.updFq s (Keeps.refl _ s) _ _ (by decide), Declared.of_strs rfl⟩

theorem Loses.ite {c : Prop} [Decidable c] (ht : Loses i n s t) (hu : Loses i n s u) : Loses i n s (if c then t else u) := by
  split
  · exact ht
  · exact hu

theorem State.fqInsert_loses (q : Packet) (before : Packet → Bool) : Loses i 0 s (s.fqInsert q before) :=
  ⟨(s.fqInsert_keeps q before).mono (by decide), Declared.of_strs rfl⟩

theorem State.lateGaps_loses (i : Nat) : Loses i 0 s (s.lateGaps i) := by
  have hfold (l : List (GapRun × List GapRun)) (u : State) :
      Loses i 0 u (l.foldl (fun s g => s.fqInsert (s.gapPkt i g) (gapBefore g.1)) u) := by
    induction l generalizing u with
    | nil => exact Loses.refl i u
    | cons g l ih => exact (u.fqInsert_loses _ _).silent (ih _)
  have hstr : Loses i 0 s (s.updStr i (fun x => { x with
      runs := x.runs.filter (fun r => !((s.str i).runs.filter (fun r => (s.queuedNow i).any (·.endsRun r))).contains r) })) :=
    Loses.updStr _ (fun x => ⟨rfl, rfl, rfl, rfl, rfl⟩)
  exact hstr.silent (hfold _ _)

theorem State.carries_loses (i : Nat) (a : Nat × Nat) (l : List Packet) : Loses i 0 s (s.carries i a l) :=
  Loses.ite (Loses.refl i s) (Loses.updStr _ (fun x => ⟨rfl, rfl, rfl, rfl, rfl⟩))

theorem State.lateAnchor_loses (i : Nat) : Loses i 0 s (s.lateAnchor i) := by
  have hstr : Loses i 0 s (s.updStr i (fun x => { x with fresh := false })) := Loses.updStr _ (fun x => ⟨rfl, rfl, rfl, rfl, rfl⟩)
  unfold State.lateAnchor
  dsimp only
  split
  · exact Loses.refl i s
  · refine Loses.ite hstr (Loses.ite ?_ ?_)
    · split
      · exact Loses.ite hstr ((hstr.silent (State.fqInsert_loses _ _)).silent (State.carries_loses _ _ _))
      · exact hstr
    · split
      · exact (hstr.silent (Loses.updFq _ _)).silent (State.carries_loses _ _ _)
      · exact hstr

/-- The loss of a DATA packet that its port had taken: its content is declared. -/
theorem State.loseSent_data (cause : Nat) {x : Packet} (hi : x.stream < s.strs.length) (ha : (s.str x.stream).active = true) (hz : x.frozen = none)
    (hk : x.kind = 0) : Loses x.stream (x.content.flatMap (·.2)).length s (s.loseSent cause x) := by
  have hd := State.declares_declared hi ha _ (contentRuns_single cause x.cap x.content)
  rw [contentRuns_length] at hd
  have hkeep : Keeps [.strs, .fqs] s ((contentRuns cause x.cap x.content).foldl (fun s r => s.declare x.stream r) s) :=
    (Keeps.refl _ s).foldl _ _ (fun v r _ => (v.declare_keeps _ _).mono (by decide))
  have hlose : s.loseP cause x = ((contentRuns cause x.cap x.content).foldl (fun s r => s.declare x.stream r) s).updStr x.stream (fun y => { y with
      settled := y.settled + x.declIn + x.okIn, declPos := y.declPos + x.okIn, fresh := true }) := by
    unfold State.loseP
    rw [hz, hk]
    rfl
  have hp : Loses x.stream (x.content.flatMap (·.2)).length s (s.loseP cause x) := by
    rw [hlose]
    exact Loses.silent ⟨hkeep, hd⟩ (Loses.updStr _ (fun y => ⟨rfl, rfl, rfl, rfl, rfl⟩))
  have heq : s.loseSent cause x = ((s.loseP cause x).lateGaps x.stream).lateAnchor x.stream := by
    unfold State.loseSent
    rw [hk]
    rfl
  rw [heq]
  exact (hp.silent (State.lateGaps_loses _)).silent (State.lateAnchor_loses _)

/-- A frame with a lasting error in its header or payload is discarded. -/
theorem Takes.discards {p k : Nat} {x : Packet} {rest : List Packet} (h : Takes s p k x rest) (hst : x.stored = true)
    (hpre : (s.readFqLine (4 * p + k) 0).1 = false) (hbad : ((s.readFqLine (4 * p + k) 0).2.readFqLines (4 * p + k) 1 (x.lines - 1)).1 = true)
    (hk : x.kind = 0) (hz : x.frozen = none) (ha : (s.str x.stream).active = true) (hi : x.stream < s.strs.length) :
    ((s.frameTransmit p).port p).sending = none ∧
    Keeps [.regs, .mem, .fqs, .fqHeld, .strs, .recq, .dbg, .host, .obs, .upd] s (s.frameTransmit p) ∧
    Declared x.stream (x.content.flatMap (·.2)).length s (s.frameTransmit p) := by
  have heq : s.frameTransmit p = (((((s.readFqLine (4 * p + k) 0).2.readFqLines (4 * p + k) 1 (x.lines - 1)).2.updFq (4 * p + k)
      (fun l => l.drop 1)).fqRelease (4 * p + k) x).fqTrim (4 * p + k)).loseSent causeMem x := by
    rw [h.transmit]
    unfold State.takeFrame
    dsimp only
    rw [h.trim (.inr hst), h.head]
    dsimp only
    rw [if_pos hst, hpre, if_neg (by decide), hbad, if_pos rfl]
  have h1 := (s.readFqLine_keeps (4 * p + k) 0).trans (State.readFqLines_keeps _ (4 * p + k) 1 (x.lines - 1))
  rw [heq]
  generalize ((s.readFqLine (4 * p + k) 0).2.readFqLines (4 * p + k) 1 (x.lines - 1)).2 = a at h1 ⊢
  have h2 : Keeps [.regs, .fqs, .fqHeld] a (((a.updFq (4 * p + k) (fun l => l.drop 1)).fqRelease (4 * p + k) x).fqTrim (4 * p + k)) :=
    (Keeps.trans (Keeps.updFq a (Keeps.refl _ a) _ _ (by decide)) ((State.fqRelease_keeps _ _ _).mono (by decide))).trans (State.fqTrim_keeps _ _)
  generalize ((a.updFq (4 * p + k) (fun l => l.drop 1)).fqRelease (4 * p + k) x).fqTrim (4 * p + k) = b at h2 ⊢
  have hstrs : b.strs = s.strs := (h2 .strs (by decide)).trans (h1 .strs (by decide))
  have hl := State.loseSent_data causeMem (s := b) (by rw [hstrs]; exact hi) (by rw [State.str, hstrs]; exact ha) hz hk
  generalize b.loseSent causeMem x = c at hl ⊢
  have hall := (Declared.of_strs (i := x.stream) hstrs).trans hl.account
  rw [Nat.zero_add] at hall
  have hkeep : Keeps [.regs, .mem, .fqs, .fqHeld, .strs, .recq, .dbg, .host, .obs, .upd] s c :=
    ((h1.mono (by decide)).trans (h2.mono (by decide))).trans (hl.keeps.mono (by decide))
  refine ⟨?_, hkeep, hall⟩
  rw [State.port, hkeep .ports (by decide)]
  exact h.idle

/-! ### FRAME_DELIVERED (R22, R238, R286) -/

/-- The registers of a frame queue that a released frame leaves, by their place in its 64 bytes. -/
def besidePtr (off : Nat) : Prop := off % 0x40 = 0 ∨ off % 0x40 = 0x3C

theorem not_besidePtr (n c : Nat) (hc : c % 0x40 ≠ 0 ∧ c % 0x40 ≠ 0x3C) : ¬ besidePtr (c + 0x40 * n) := by
  unfold besidePtr
  omega

theorem State.fqRelease_frame (n : Nat) (p : Packet) : Frame [.regs] besidePtr s (s.fqRelease n p) :=
  Frame.ite (fun _ => ((Frame.refl _ _ s).setF (F.FLW_FQ_RD_RD n) _ (by decide) (not_besidePtr n 0x41014 (by decide))).setF (F.FLW_FQ_CREDIT_WORDS n) _
    (by decide) (not_besidePtr n 0x41018 (by decide))) (fun _ => Frame.refl _ _ s)

theorem State.fqFresh_ptr (n : Nat) : Frame [.regs, .fqHeld] besidePtr s (s.fqFresh n) := by
  have h0 : Frame [.regs, .fqHeld] besidePtr s ({ s with fqHeld := updAt (fun _ => none) s.fqHeld n } : State) :=
    by
    refine ⟨fun f hf => ?_, RdKept.refl _ s⟩
    cases f <;> first | rfl | exact absurd hf (by decide)
  have h1 := (h0.setF (F.FLW_FQ_RD_RD n) 0 (by decide) (not_besidePtr n 0x41014 (by decide))).setF (F.FLW_FQ_COMMIT_COMMIT n) 0 (by decide)
    (not_besidePtr n 0x41010 (by decide))
  have h2 := (h1.setF (F.FLW_FQ_REWIND_REWIND n) 0 (by decide) (not_besidePtr n 0x4100C (by decide))).setF (F.FLW_FQ_WR_WR n) 0 (by decide)
    (not_besidePtr n 0x41008 (by decide))
  exact h2.setF (F.FLW_FQ_CREDIT_WORDS n) _ (by decide) (not_besidePtr n 0x41018 (by decide))

theorem alive_dropWhile (l : List Packet) : (l.dropWhile (·.dead)).filter (fun p => !p.dead) = l.filter (fun p => !p.dead) := by
  induction l with
  | nil => rfl
  | cons x l ih =>
    cases hx : x.dead
    · rw [List.dropWhile_cons_of_neg (by rw [hx]; decide)]
    · rw [List.dropWhile_cons_of_pos hx, ih, List.filter_cons_of_neg (by rw [hx]; decide)]

theorem State.fqTrim_frame (n : Nat) :
    Frame [.regs, .fqs, .fqHeld] besidePtr s (s.fqTrim n) ∧ ∀ m, (s.fqTrim n).fqAlive m = s.fqAlive m := by
  have hcut : ∀ m, (s.updFq n (fun l => l.dropWhile (·.dead))).fqAlive m = s.fqAlive m := by
    intro m
    by_cases hm : m = n
    · subst hm
      by_cases hl : m < s.fqs.length
      · rw [State.fqAlive, State.fq_updFq_same hl, alive_dropWhile, State.fqAlive]
      · exact congrArg (List.filter _) ((List.getD_eq_default _ _ (by
          rw [show (s.updFq m _).fqs = updAt _ s.fqs m from rfl, updAt_length]; omega)).trans (List.getD_eq_default _ _ (by omega)).symm)
    · rw [State.fqAlive, State.fq_updFq_other s _ hm, State.fqAlive]
  have hrel (l : List Packet) (f : List Packet → List Packet) :
      Frame [.regs, .fqs, .fqHeld] besidePtr s (l.foldl (fun s p => s.fqRelease n p) (s.updFq n f)) ∧
      (l.foldl (fun s p => s.fqRelease n p) (s.updFq n f)).fqs = (s.updFq n f).fqs := by
    have hk : Frame [.regs] besidePtr (s.updFq n f) (l.foldl (fun s p => s.fqRelease n p) (s.updFq n f)) :=
      Frame.foldl _ _ (Frame.refl _ _ _) (fun u p _ => u.fqRelease_frame n p)
    exact ⟨((Frame.refl _ _ s).updFq _ _ (by decide)).trans (hk.wide (by decide)), hk.keeps .fqs (by decide)⟩
  unfold State.fqTrim
  dsimp only
  split
  · exact ⟨Frame.refl _ _ s, fun _ => rfl⟩
  · obtain ⟨hf, hq⟩ := hrel ((s.fq n).takeWhile (·.dead)) (fun l => l.dropWhile (·.dead))
    generalize ((s.fq n).takeWhile (·.dead)).foldl (fun s p => s.fqRelease n p) (s.updFq n (fun l => l.dropWhile (·.dead))) = u at hf hq ⊢
    have hu (m : Nat) : u.fqAlive m = s.fqAlive m := by
      rw [State.fqAlive, State.fq, hq]
      exact hcut m
    split
    · have hv := u.fqFresh_ptr n
      refine ⟨hf.trans (hv.wide (by decide)), fun m => ?_⟩
      rw [State.fqAlive, State.fq, hv.keeps .fqs (by decide)]
      exact hu m
    · exact ⟨hf, hu⟩

theorem State.frameDelivered_result {p k q : Nat} {x : Packet} (hp : p < 4) (hports : s.ports.length = 4) (hx : x.stream < 64)
    (hlen : x.stream < s.strs.length) (hl : s.linkUp p = true) (hs : (s.port p).sending = some (.packet k x q true)) (hz : x.frozen = none)
    (hk : x.kind = 0) :
    Keeps [.regs, .ports, .strs, .fqs, .fqHeld] s (s.frameDelivered p) ∧ ((s.frameDelivered p).port p).sending = none ∧
    (∀ n, (s.frameDelivered p).fqAlive n = s.fqAlive n) ∧
    (s.frameDelivered p).getF (F.NET_TX_FRAMES_COUNT p) = (s.getF (F.NET_TX_FRAMES_COUNT p) + 1) % 2 ^ 32 ∧
    (s.frameDelivered p).getF (F.STR_FRAME_SEQ_NEXT x.stream) = (s.getF (F.STR_FRAME_SEQ_NEXT x.stream) + 1) % 2 ^ 32 ∧
    ∃ l, (s.frameDelivered p).str x.stream = { s.str x.stream with
      delivered := (s.str x.stream).delivered + x.okIn, settled := (s.str x.stream).settled + x.declIn, frames := (s.str x.stream).frames + 1
      lastData := l } := by
  have heq : s.frameDelivered p = ((((s.updPort p (fun x => { x with sending := none })).bump (F.NET_TX_FRAMES_COUNT p)).fqRelease (4 * p + k) x).fqTrim
      (4 * p + k)).countSent x := by
    unfold State.frameDelivered State.countDelivered
    rw [hs]
    dsimp only
    rw [if_pos hl, hz, hk]
    rfl
  have hne : R.NET_TX_FRAMES p ≠ R.STR_FRAME_SEQ x.stream := by unfold R.NET_TX_FRAMES R.STR_FRAME_SEQ; omega
  have hfit : (F.NET_TX_FRAMES_COUNT p).lo + (F.NET_TX_FRAMES_COUNT p).width ≤ 32 := by show 0 + 32 ≤ 32; decide
  have hfits : (F.STR_FRAME_SEQ_NEXT x.stream).lo + (F.STR_FRAME_SEQ_NEXT x.stream).width ≤ 32 := by show 0 + 32 ≤ 32; decide
  have hka : Keeps [.regs, .ports] s ((s.updPort p (fun x => { x with sending := none })).bump (F.NET_TX_FRAMES_COUNT p)) :=
    ((Keeps.refl _ s).ports _ (by decide)).bump _ (by decide)
  have hpa : (((s.updPort p (fun x => { x with sending := none })).bump (F.NET_TX_FRAMES_COUNT p)).port p).sending = none := by
    show ((s.updPort p (fun x => { x with sending := none })).port p).sending = none
    rw [State.port_updPort p (by omega)]
  have htx : ((s.updPort p (fun x => { x with sending := none })).bump (F.NET_TX_FRAMES_COUNT p)).getF (F.NET_TX_FRAMES_COUNT p) =
      (s.getF (F.NET_TX_FRAMES_COUNT p) + 1) % 2 ^ 32 := getF_bump_same _ _ hfit
  have hseq : ((s.updPort p (fun x => { x with sending := none })).bump (F.NET_TX_FRAMES_COUNT p)).getF (F.STR_FRAME_SEQ_NEXT x.stream) =
      s.getF (F.STR_FRAME_SEQ_NEXT x.stream) := getF_bump_other _ _ _ hfit (.inl hne.symm)
  rw [heq]
  generalize (s.updPort p (fun x => { x with sending := none })).bump (F.NET_TX_FRAMES_COUNT p) = a at hka hpa htx hseq ⊢
  obtain ⟨htf, htq⟩ := (a.fqRelease (4 * p + k) x).fqTrim_frame (4 * p + k)
  have hr := a.fqRelease_frame (4 * p + k) x
  have hb : Frame [.regs, .fqs, .fqHeld] besidePtr a ((a.fqRelease (4 * p + k) x).fqTrim (4 * p + k)) := (hr.wide (by decide)).trans htf
  have hq (m : Nat) : ((a.fqRelease (4 * p + k) x).fqTrim (4 * p + k)).fqAlive m = s.fqAlive m := by
    rw [htq, State.fqAlive, State.fq, hr.keeps .fqs (by decide), hka .fqs (by decide)]
    rfl
  generalize (a.fqRelease (4 * p + k) x).fqTrim (4 * p + k) = b at hb hq ⊢
  have hstrs : b.strs = s.strs := (hb.keeps .strs (by decide)).trans (hka .strs (by decide))
  have hports : b.ports = a.ports := hb.keeps .ports (by decide)
  have htxb := (hb.rd.getF (F.NET_TX_FRAMES_COUNT p) (by show (0xD0080 + 0x4000 * p) % 0x40 = 0 ∨ _; left; omega)).trans htx
  have hseqb := (hb.rd.getF (F.STR_FRAME_SEQ_NEXT x.stream) (by show _ ∨ (0xC003C + 0x100 * x.stream) % 0x40 = 0x3C; right; omega)).trans hseq
  have hsent : ∃ l, b.countSent x = (b.bump (F.STR_FRAME_SEQ_NEXT x.stream)).updStr x.stream (fun y => { y with
      delivered := y.delivered + x.okIn, settled := y.settled + x.declIn, frames := y.frames + 1, lastData := l }) := by
    unfold State.countSent
    rw [hk]
    exact ⟨_, rfl⟩
  obtain ⟨l, hsent⟩ := hsent
  rw [hsent]
  have hstr := State.str_updStr_same (s := b.bump (F.STR_FRAME_SEQ_NEXT x.stream)) (i := x.stream) (by
    rw [show (b.bump (F.STR_FRAME_SEQ_NEXT x.stream)).strs = b.strs from rfl, hstrs]; exact hlen) (fun y => { y with
      delivered := y.delivered + x.okIn, settled := y.settled + x.declIn, frames := y.frames + 1, lastData := l })
  have hbase : (b.bump (F.STR_FRAME_SEQ_NEXT x.stream)).str x.stream = s.str x.stream := by
    show b.strs.getD x.stream StreamState.reset = _
    rw [hstrs]
    rfl
  refine ⟨?_, ?_, hq, ?_, ?_, l, hstr.trans (congrArg (fun y : StreamState => { y with
      delivered := y.delivered + x.okIn, settled := y.settled + x.declIn, frames := y.frames + 1, lastData := l }) hbase)⟩
  · exact ((hka.mono (by decide)).trans (hb.keeps.mono (by decide))).trans (((Keeps.refl _ b).bump _ (by decide)).updStr _ _ (by decide))
  · show (b.ports.getD p NetPort.reset).sending = none
    rw [hports]
    exact hpa
  · exact (getF_bump_other b _ _ hfits (.inl hne)).trans htxb
  · exact (getF_bump_same b _ hfits).trans (congrArg (fun m => (m + 1) % 2 ^ 32) hseqb)

end

end

end Sys2Proof.Machine

open Sys2Proof.Machine in
/-- Settles O46: the account of a stream's source-samples (`Declared`) through a commit, a loss and a delivery; the packets a commit
adds (`Queued`); and what a port takes at its turn (`Takes`). -/
theorem framesTravel : Obligations.FramesTravel := by
  unfold Obligations.FramesTravel
  refine ⟨fun i s ok dc hc ha hf hh hq hl hok hdc => ⟨_, rfl, ?_⟩, fun i s h => congrArg Host.Outcome.next (State.frameBuild_idle h),
    fun p s h => congrArg Host.Outcome.next (State.frameTransmit_idle h), fun p s r rest hl hs hf hp hr => ?_,
    fun p s k x rest hl hs hf hp hq hr hh hbefore hhead hd hm hheld => ⟨_, rfl, ?_⟩,
    fun p s k x rest hl hs hf hp hq hstr hr hh hbefore hhead hd hst hpre hbad hk hz ha hi hin => ⟨_, rfl, ?_⟩, fun p s hr hh => ?_,
    fun p s k q x hl hp hstr hx hs hz hk => ⟨_, rfl, ?_⟩, fun p s k q x h hl hs => ?_, fun p s hs => ?_⟩
  · exact State.frameBuild_result hc ha hf hh hq (by rw [hl]; exact i.isLt) hok hdc
  · have heq := State.frameTransmit_eq hl hs hf
    rw [hr] at heq
    have hport := State.port_updPort (s := s) p (by rw [hp]; exact p.isLt) (fun x => { x with replies := rest, sending := some (.reply r) })
    refine ⟨_, congrArg Host.Outcome.next heq, ((Keeps.refl _ s).ports _ (by decide)).obsv _ (by decide), ?_, ?_, rfl⟩
    · exact congrArg NetPort.sending hport
    · exact congrArg NetPort.replies hport
  · have h : Takes s p k x rest := ⟨hl, hs, hf, hr, hh, hbefore, k.isLt, hhead, hd⟩
    exact h.sends (by rw [hp]; exact p.isLt) (by omega) hm hheld
  · have h : Takes s p k x rest := ⟨hl, hs, hf, hr, hh, hbefore, k.isLt, hhead, hd⟩
    obtain ⟨hsend, hkeep, hacc⟩ := h.discards hst hpre hbad hk hz ha (by rw [hstr]; exact hi)
    exact ⟨hsend, hkeep, hacc.produced, hacc.delivered, by rw [hin]; exact hacc.declared⟩
  · refine congrArg Host.Outcome.next ?_
    by_cases h : s.linkUp p = false ∨ (s.port p).sending ≠ none ∨ s.hostFirst p = true
    · exact State.frameTransmit_idle h
    · rw [not_or, not_or, not_not, Bool.not_eq_false, Bool.not_eq_true] at h
      rw [State.frameTransmit_eq h.1 h.2.1 h.2.2, hr]
      exact if_pos hh
  · obtain ⟨hkeep, hsend, halive, htx, hseq, l, hacc⟩ := State.frameDelivered_result p.isLt hp hx (by rw [hstr]; exact hx) hl hs hz hk
    refine ⟨hkeep, hsend, halive, htx, hseq, ?_, ?_, ?_, ?_, ?_⟩ <;> rw [hacc]
  · refine congrArg Host.Outcome.next ?_
    unfold State.frameDelivered
    rw [hs]
    exact if_neg (by rw [hl]; decide)
  · refine congrArg Host.Outcome.next ?_
    unfold State.frameDelivered
    rw [hs]

end

section
/-!
SUPPORT. Landings (R143, R145, R168, R183, R194, R206, R344-R347): what each part of a landing leaves, the staged set by the state of
its apply, the copy of the beam weights, and O42 and O43.
-/

namespace Sys2Proof.Machine

section

variable {s t u : State}

/-! ### What the parts of a landing leave -/

/-- Registers that no block writes as it follows a landing: those of HIF, and of a channel's CND window the settings below 0x20. -/
def besideLand (off : Nat) : Prop := off / 0x10000 = 14 ∨ (off / 0x10000 = 16 ∧ off % 0x100 < 0x20)

theorem not_besideLand_fir (k c : Nat) (hk : 0x200000 ≤ k) : ¬ besideLand (k + 0x400 * c) := by
  unfold besideLand
  omega

theorem not_besideLand_cnd (k c : Nat) (hk : 0x100000 ≤ k ∧ 0x20 ≤ k % 0x100) : ¬ besideLand (k + 0x100 * c) := by
  unfold besideLand
  omega

theorem not_besideLand_pool (c : Nat) (hc : c < 256) : ¬ besideLand (R.IMG_POOL (c / 64)) := by
  unfold besideLand R.IMG_POOL
  omega

theorem not_besideLand_cond (n : Nat) (hn : n < 8) : ¬ besideLand (R.TRG_TC_STATE n) := by
  unfold besideLand R.TRG_TC_STATE
  omega

theorem not_besideLand_const {off : Nat} (h : off / 0x10000 ≠ 14 ∧ off / 0x10000 ≠ 16) : ¬ besideLand off := by
  unfold besideLand
  omega

/-- The fields that change as the blocks follow a landing. -/
def followFields : List Field := [.regs, .path, .recq, .cal, .mnt, .trg, .obs]

theorem State.settle_frame (c a : Nat) : Frame [.regs, .path] besideLand s (s.settle c a) := by
  unfold State.settle
  dsimp only
  refine Frame.wr64 (Frame.setB ?_ (F.FIR_STATUS_SETTLING c) _ (by decide) (not_besideLand_fir 0x20000C c (by decide))) (R.FIR_SETTLE_END_LO c)
    (R.FIR_SETTLE_END_HI c) _ (by decide) (not_besideLand_fir 0x20003C c (by decide)) (not_besideLand_fir 0x200040 c (by decide))
  exact ⟨(Keeps.refl _ s).path _ (by decide), RdKept.refl _ s⟩

theorem State.settle_ite {b : Bool} (c a : Nat) (h : Frame followFields besideLand s t) :
    Frame followFields besideLand s (if b then t else t.settle c a) :=
  Frame.ite (fun _ => h) (fun _ => h.trans ((State.settle_frame c a).wide (by decide)))

theorem State.showBank_frame {c : Nat} (hc : c < 256) : Frame [.regs] besideLand s (s.showBank c) :=
  (((Frame.refl _ _ s).setF (F.FIR_STATUS_IN_USE c) _ (by decide) (not_besideLand_fir 0x20000C c (by decide))).setF (F.FIR_SETTLE_LEN_S c) _ (by decide)
    (not_besideLand_fir 0x200030 c (by decide))).setF (F.IMG_POOL_CHARGE_SUM (c / 64)) _ (by decide) (not_besideLand_pool c hc)

theorem Frame.updChan {l : List Field} {p : Nat → Prop} (h : Frame l p s t) (c : Nat) (f : ChanPath → ChanPath) (hm : Field.path ∈ l) :
    Frame l p s (t.updChan c f) := ⟨h.keeps.path _ hm, h.rd⟩

theorem State.firSwapped_frame {c : Nat} (hc : c < 256) (old : Word) (at_ : Option Nat) (quiet : Bool) :
    Frame followFields besideLand s (s.firSwapped c old at_ quiet) := by
  have hr : Field.regs ∈ followFields := by decide
  have h0 : Frame followFields besideLand s ((s.showBank c).setF (F.FIR_STATUS_SWAP_DONE c) 1) :=
    ((State.showBank_frame hc).wide (by decide)).setF _ _ hr (not_besideLand_fir 0x20000C c (by decide))
  unfold State.firSwapped
  dsimp only
  generalize (s.showBank c).setF (F.FIR_STATUS_SWAP_DONE c) 1 = a at h0 ⊢
  have h1 : Frame followFields besideLand s (if cfgStruct old != cfgStruct (s.cfgNow c) then a.setF (F.FIR_STATUS_SWAP_STRUCT c) 1 else a) :=
    Frame.ite (fun _ => h0.setF _ _ hr (not_besideLand_fir 0x20000C c (by decide))) (fun _ => h0)
  generalize (if cfgStruct old != cfgStruct (s.cfgNow c) then a.setF (F.FIR_STATUS_SWAP_STRUCT c) 1 else a) = b at h1 ⊢
  have h2 : Frame followFields besideLand s ((b.wr64 (R.FIR_SWAP_SN_LO c) (R.FIR_SWAP_SN_HI c) (at_.getD allOnes64)).emit 0 0x1101
      (pw c ++ psn (at_.getD allOnes64) ++ pb (cfgStruct old != cfgStruct (s.cfgNow c)))) :=
    (h1.wr64 _ _ _ hr (not_besideLand_fir 0x200034 c (by decide)) (not_besideLand_fir 0x200038 c (by decide))).emit _ _ _ (by decide)
  cases at_ with
  | none => exact h2
  | some x => exact Frame.ite (fun _ => State.settle_ite c x (h2.updChan _ _ (by decide))) (fun _ => h2)

theorem State.loadSn_frame (c : Nat) (at_ : Option Nat) : Frame [.regs] besideLand s (s.loadSn c at_) :=
  (Frame.refl _ _ s).wr64 _ _ _ (by decide) (not_besideLand_cnd 0x100038 c (by decide)) (not_besideLand_cnd 0x10003C c (by decide))

theorem State.delayLanded_frame (c a : Nat) (quiet : Bool) : Frame followFields besideLand s (s.delayLanded c a quiet) := by
  have hchan (f : ChanPath → ChanPath) : Frame followFields besideLand s ((s.updChan c f).loadSn c (some a)) :=
    ((Frame.refl _ _ s).updChan _ _ (by decide)).trans ((State.loadSn_frame c (some a)).wide (by decide))
  unfold State.delayLanded
  dsimp only
  refine Frame.ite (fun _ => ?_) (fun _ => hchan _)
  exact ((State.settle_ite c a (hchan _)).setF (F.CND_STATUS_INT_CHANGE c) _ (by decide) (not_besideLand_cnd 0x100024 c (by decide))).emit _ _ _ (by decide)

theorem State.chanLanded_frame (s0 : State) (l : List (Nat × Word)) (at_ : Option Nat) (quiet : Bool) {c : Nat} (hc : c < 256) :
    Frame followFields besideLand s (s.chanLanded s0 l at_ quiet c) := by
  unfold State.chanLanded
  dsimp only
  have h0 : Frame followFields besideLand s (if s0.bank c != s.bank c then s.firSwapped c (s0.cfgNow c) at_ quiet else s) :=
    Frame.ite (fun _ => State.firSwapped_frame hc _ _ _) (fun _ => Frame.refl _ _ s)
  generalize (if s0.bank c != s.bank c then s.firSwapped c (s0.cfgNow c) at_ quiet else s) = a at h0 ⊢
  cases at_ with
  | none => exact Frame.ite (fun _ => h0.trans ((State.loadSn_frame c none).wide (by decide))) (fun _ => h0)
  | some x =>
    have h1 (b : Bool) : Frame followFields besideLand s (if b then a.settle c x else a) :=
      Frame.ite (fun _ => h0.trans ((State.settle_frame c x).wide (by decide))) (fun _ => h0)
    exact Frame.ite (fun _ => (h1 _).trans (State.delayLanded_frame _ _ _)) (fun _ => h1 _)

theorem State.condLanded_frame (s0 : State) (at_ : Option Nat) {n : Nat} (hn : n < 8) : Frame followFields besideLand s (s.condLanded s0 at_ n) := by
  have hr : Field.regs ∈ followFields := by decide
  unfold State.condLanded
  dsimp only
  refine Frame.ite (fun _ => Frame.refl _ _ s) (fun _ => Frame.ite (fun _ => ?_) (fun _ => ?_))
  · exact (Frame.refl _ _ s).setF (F.TRG_TC_STATE_STATE n) _ hr (not_besideLand_cond n hn)
  · refine Frame.setF (Frame.setF ?_ (F.TRG_TC_STATE_STATE n) _ hr (not_besideLand_cond n hn)) (F.TRG_TC_STATE_EVLEFT n) _ hr (not_besideLand_cond n hn)
    exact ⟨(Keeps.refl _ s).trg _ (by decide), RdKept.refl _ s⟩

theorem State.toLanded_frame (s0 : State) (o : Nat) : Frame followFields besideLand s (s.toLanded s0 o) := by
  have hpin (v : State) : Frame followFields besideLand v (v.pinEdge s0 (.trigout o) s.run.scyc 0) :=
    ⟨(State.pinEdge_keeps _ _ _ _ _).mono (by decide), RdKept.of_keeps (RdKept.refl _ v) (State.pinEdge_keeps _ _ _ _ _) (by decide)⟩
  have hout : Frame followFields besideLand s (if s.bit (F.TRG_TO_CTRL_EN o) then s else s.updOut o (fun x => { x with endAt := none })) :=
    Frame.ite (fun _ => Frame.refl _ _ s) (fun _ => ⟨(Keeps.refl _ s).trg _ (by decide), RdKept.refl _ s⟩)
  exact hout.trans (hpin _)

theorem State.trgLanded_frame (s0 : State) (at_ : Option Nat) : Frame followFields besideLand s (s.trgLanded s0 at_) := by
  have h0 : Frame followFields besideLand s (s.wr64 R.TRG_LOAD_SN_LO R.TRG_LOAD_SN_HI (at_.getD allOnes64)) :=
    (Frame.refl _ _ s).wr64 _ _ _ (by decide) (not_besideLand_const (by decide)) (not_besideLand_const (by decide))
  exact (h0.foldl _ _ (fun u n hn => State.condLanded_frame s0 at_ (List.mem_range.mp hn))).foldl _ _ (fun u o _ => State.toLanded_frame s0 o)

theorem State.calMoves_frame (c a : Nat) : Frame followFields besideLand s ((s.calMoves c a).actTakes actDelaychg c) := by
  have hmove : Frame followFields besideLand s (s.calMoves c a) := by
    unfold State.calMoves
    dsimp only
    exact Frame.ite (fun _ => ⟨(Keeps.refl _ s).cal _ (by decide), RdKept.refl _ s⟩) (fun _ => Frame.refl _ _ s)
  have hact (v : State) : Frame followFields besideLand v (v.actTakes actDelaychg c) :=
    Frame.ite (fun _ => Frame.refl _ _ v) (fun _ => ⟨(Keeps.refl _ v).mnt _ (by decide), RdKept.refl _ v⟩)
  exact hmove.trans (hact _)

theorem State.bmfSwapped_frame (at_ : Option Nat) : Frame followFields besideLand s (s.bmfSwapped at_) := by
  unfold State.bmfSwapped
  refine Frame.emit (Frame.wr64 (Frame.setF (Frame.setF (Frame.refl _ _ s) F.BMF_STATUS_IN_USE _ (by decide) ?_) F.BMF_STATUS_SWAP_DONE _ (by decide) ?_)
    R.BMF_SWAP_SN_LO R.BMF_SWAP_SN_HI _ (by decide) ?_ ?_) _ _ _ (by decide)
  all_goals exact not_besideLand_const (by decide)

/-! ### A landing (R344) -/

theorem State.land_frame (a off : Nat) (v : Word) : Frame [.regs, .setLog] (fun o => o ≠ off) s (s.land a off v) := by
  have hlog (b : Bool) : Frame [.regs, .setLog] (fun o => o ≠ off) s
      (if b then ({ s with setLog := (a, off, s.rd off) :: s.setLog } : State) else s) :=
    Frame.ite (fun _ => ⟨(Keeps.refl _ s).setLog _ (by decide), RdKept.refl _ s⟩) (fun _ => Frame.refl _ _ s)
  exact Frame.ite (fun _ => Frame.refl _ _ s) (fun _ => (hlog _).wr _ _ (by decide) (fun h => h rfl))

theorem State.land_rd (a off : Nat) (v : Word) : (s.land a off v).rd off = v := by
  unfold State.land
  dsimp only
  split
  · assumption
  · exact rd_wr_same _ _ _

theorem lands_frame (a : Nat) (l : List (Nat × Word)) (s : State) :
    Frame [.regs, .setLog] (fun o => ∀ e ∈ l, e.1 ≠ o) s (l.foldl (fun s e => s.land a e.1 e.2) s) :=
  Frame.foldl _ _ (Frame.refl _ _ s) (fun u e he => (u.land_frame a e.1 e.2).mono (fun _ h => h) (fun _ ho => (ho e he).symm))

/-- The shadows that land are no longer flagged. -/
def State.unflag (s : State) (l : List (Nat × Word)) : State := { s with shadows := s.shadows.filter (fun e => !l.any (fun x => x.1 == e.1)) }

/-- What the blocks do as the set `l` has landed over the registers of `s0`. -/
def State.landFollow (s s0 : State) (l : List (Nat × Word)) (at_ : Option Nat) (quiet : Bool) : State :=
  let s := (chansIn (fun c => [R.FIR_NCO_FREQ c, R.FIR_NCO_PHASE c, R.FIR_BANK_SEL c] ++ delayOffs c) l).foldl (fun s c => s.chanLanded s0 l at_ quiet c) s
  let s := (chansIn movesOffs l).foldl (fun s c => (s.calMoves c (at_.getD s0.run.next)).actTakes actDelaychg c) s
  let s := if s0.getF F.BMF_BANK_SEL_SEL != s.getF F.BMF_BANK_SEL_SEL then s.bmfSwapped at_ else s
  if l.any (fun e => inTrg e.1) then s.trgLanded s0 at_ else s

theorem State.landSet_eq (l : List (Nat × Word)) (at_ : Option Nat) (quiet : Bool) :
    s.landSet l at_ quiet = ((l.foldl (fun u e => u.land (at_.getD s.run.next) e.1 e.2) s).unflag l).landFollow s l at_ quiet := by
  rfl

theorem chansIn_lt {offs : Nat → List Nat} {l : List (Nat × Word)} {c : Nat} (h : c ∈ chansIn offs l) : c < 256 :=
  List.mem_range.mp (List.mem_filter.mp h).1

theorem State.landFollow_frame (s0 : State) (l : List (Nat × Word)) (at_ : Option Nat) (quiet : Bool) :
    Frame followFields besideLand s (s.landFollow s0 l at_ quiet) := by
  have h0 := (Frame.refl followFields besideLand s).foldl (fun s c => s.chanLanded s0 l at_ quiet c)
    (chansIn (fun c => [R.FIR_NCO_FREQ c, R.FIR_NCO_PHASE c, R.FIR_BANK_SEL c] ++ delayOffs c) l)
    (fun u c hc => State.chanLanded_frame s0 l at_ quiet (chansIn_lt hc))
  have h1 := h0.foldl (fun s c => (s.calMoves c (at_.getD s0.run.next)).actTakes actDelaychg c) (chansIn movesOffs l)
    (fun u c _ => State.calMoves_frame c _)
  unfold State.landFollow
  dsimp only
  exact Frame.ite (fun _ => (Frame.ite (fun _ => h1.trans (State.bmfSwapped_frame at_)) (fun _ => h1)).trans (State.trgLanded_frame s0 at_))
    (fun _ => Frame.ite (fun _ => h1.trans (State.bmfSwapped_frame at_)) (fun _ => h1))

/-- The fields that a landing changes. -/
def landFields : List Field := [.regs, .setLog, .shadows, .path, .recq, .cal, .mnt, .trg, .obs]

/-- What a landing of the set `l` makes of the state. -/
theorem State.landSet_result (l : List (Nat × Word)) (at_ : Option Nat) (quiet : Bool) :
    Frame landFields (fun o => besideLand o ∧ ∀ e ∈ l, e.1 ≠ o) s (s.landSet l at_ quiet) ∧
    (s.landSet l at_ quiet).shadows = s.shadows.filter (fun e => !l.any (fun x => x.1 == e.1)) ∧
    ∀ e, l = [e] → besideLand e.1 → (s.landSet l at_ quiet).rd e.1 = e.2 := by
  rw [State.landSet_eq]
  have h0 := lands_frame (at_.getD s.run.next) l s
  have hone : ∀ e, l = [e] → (l.foldl (fun u e => u.land (at_.getD s.run.next) e.1 e.2) s).rd e.1 = e.2 := by
    rintro e rfl
    exact s.land_rd _ _ _
  generalize l.foldl (fun u e => u.land (at_.getD s.run.next) e.1 e.2) s = a at h0 hone ⊢
  have hsh : (a.unflag l).shadows = s.shadows.filter (fun e => !l.any (fun x => x.1 == e.1)) := by
    show a.shadows.filter _ = _
    rw [h0.keeps .shadows (by decide)]
  have hrd (o : Nat) : (a.unflag l).rd o = a.rd o := rfl
  have hun : Keeps [.shadows] a (a.unflag l) := (Keeps.refl _ a).shadows _ (by decide)
  generalize a.unflag l = b at hsh hrd hun ⊢
  have hf := State.landFollow_frame (s := b) s l at_ quiet
  generalize b.landFollow s l at_ quiet = t at hf ⊢
  refine ⟨⟨?_, fun o ho => ?_⟩, (hf.keeps .shadows (by decide)).trans hsh, fun e he hb => ?_⟩
  · exact ((h0.keeps.mono (by decide)).trans (hun.mono (by decide))).trans (hf.keeps.mono (by decide))
  · rw [hf.rd o ho.1, hrd, h0.rd o ho.2]
  · rw [hf.rd _ hb, hrd, hone e he]

/-- The shadows that a selection leaves. -/
theorem unflagged_of_filter (p : Nat → Bool) (l : List (Nat × Word)) :
    l.filter (fun e => !(l.filter (fun x => p x.1)).any (fun x => x.1 == e.1)) = l.filter (fun e => !p e.1) := by
  refine List.filter_congr (fun e he => congrArg (!·) ?_)
  rw [Bool.eq_iff_iff, List.any_eq_true]
  constructor
  · rintro ⟨x, hx, hxe⟩
    rw [← eq_of_beq hxe]
    exact (List.mem_filter.mp hx).2
  · exact fun hp => ⟨e, List.mem_filter.mpr ⟨he, hp⟩, beq_self_eq_true _⟩

theorem unflagged_all (l : List (Nat × Word)) : l.filter (fun e => !l.any (fun x => x.1 == e.1)) = [] := by
  rw [List.filter_eq_nil_iff]
  intro e he
  rw [Bool.not_eq_true, Bool.not_eq_false']
  exact List.any_eq_true.mpr ⟨e, he, beq_self_eq_true _⟩

theorem besideLand_delay {c o : Nat} (hc : c < 256) (h : (delayOffs c).contains o = true) : besideLand o := by
  have hm := List.contains_iff_mem.mp h
  simp only [delayOffs, List.mem_cons, List.not_mem_nil, or_false] at hm
  unfold besideLand
  rcases hm with rfl | rfl | rfl | rfl
  · unfold R.CND_DELAY_INT; omega
  · unfold R.CND_DELAY_FRAC; omega
  · unfold R.CND_DELAY_RATE; omega
  · unfold R.CND_DELAY_CTRL; omega

/-! ### Immediate landings (R145, R206) -/

theorem rd64_setF_other (s : State) (f : Fld) (n lo hi : Nat) (h1 : lo ≠ f.off) (h2 : hi ≠ f.off) : (s.setF f n).rd64 lo hi = s.rd64 lo hi := by
  unfold State.rd64
  rw [rd_setF_other s f n lo h1, rd_setF_other s f n hi h2]

/-- A set that a re-form discards (R77). -/
theorem State.nowDiscard_result (p : Nat → Bool) :
    Keeps [.regs, .shadows, .recq] s (s.nowDiscard p) ∧ RegsKept [R.IMG_REFORM_STATUS] s (s.nowDiscard p) ∧
    (s.nowDiscard p).bit F.IMG_REFORM_STATUS_APPLY_DISCARDED = true ∧ (s.nowDiscard p).recq = s.recq ++ [⟨0, 0x0702, psn s.firstSn, s.tick⟩] ∧
    (s.nowDiscard p).shadows = s.shadows.filter (fun e => !p e.1) := by
  have hb : (s.setF F.IMG_REFORM_STATUS_APPLY_DISCARDED 1).bit F.IMG_REFORM_STATUS_APPLY_DISCARDED = true := bit_setF_one _ _ (by decide)
  have hr : RegsKept [R.IMG_REFORM_STATUS] s (s.setF F.IMG_REFORM_STATUS_APPLY_DISCARDED 1) := (RegsKept.refl _ s).setF _ _ (by decide)
  have hk : Keeps [.regs, .shadows, .recq] s (s.discardSet s.firstSn) := ((Keeps.refl _ s).setF _ _ (by decide)).emit _ _ _ (by decide)
  exact ⟨hk.shadows _ (by decide), hr.emit 0 0x0702 (psn s.firstSn), hb, rfl, rfl⟩

theorem State.nowHold_result (k : Nat) : Keeps [.host] s (s.nowHold k) ∧ k ∈ (s.nowHold k).host.nowPend := by
  unfold State.nowHold
  split
  · next h => exact ⟨Keeps.refl _ s, List.contains_iff_mem.mp h⟩
  · exact ⟨(Keeps.refl _ s).host _ (by decide), List.mem_append_right _ (List.mem_singleton.mpr rfl)⟩

theorem State.delayLand_result {c : Nat} (hc : c < 256) (quiet : Bool) :
    Keeps landFields s (s.delayLand c quiet) ∧ (s.delayLand c quiet).bit (F.CND_STATUS_IMMED_DONE c) = true ∧
    (s.delayLand c quiet).shadows = s.shadows.filter (fun e => !(delayOffs c).contains e.1) ∧
    (s.delayLand c quiet).rd64 (R.CND_LOAD_SN_LO c) (R.CND_LOAD_SN_HI c) = s.nowSn.getD allOnes64 % 2 ^ 64 ∧
    ∀ e, s.shadows.filter (fun x => (delayOffs c).contains x.1) = [e] → (s.delayLand c quiet).rd e.1 = e.2 := by
  obtain ⟨hf, hsh, hone⟩ := s.landSet_result (s.shadows.filter (fun e => (delayOffs c).contains e.1)) s.nowSn quiet
  rw [unflagged_of_filter (fun o => (delayOffs c).contains o)] at hsh
  unfold State.delayLand
  dsimp only
  generalize s.landSet (s.shadows.filter (fun e => (delayOffs c).contains e.1)) s.nowSn quiet = a at hf hsh hone ⊢
  have hne : R.CND_LOAD_SN_LO c ≠ R.CND_LOAD_SN_HI c := by unfold R.CND_LOAD_SN_LO R.CND_LOAD_SN_HI; omega
  have hlo : R.CND_LOAD_SN_LO c ≠ R.CND_STATUS c := by unfold R.CND_LOAD_SN_LO R.CND_STATUS; omega
  have hhi : R.CND_LOAD_SN_HI c ≠ R.CND_STATUS c := by unfold R.CND_LOAD_SN_HI R.CND_STATUS; omega
  have hsn := rd64_wr64_mod a (s.nowSn.getD allOnes64) hne
  have hload := State.loadSn_frame (s := a) c s.nowSn
  refine ⟨(hf.keeps.trans (hload.keeps.mono (by decide))).setF _ _ (by decide), bit_setF_one _ _ ⟨by show 2 + 1 ≤ 32; decide, rfl⟩, hsh, ?_, fun e he => ?_⟩
  · exact (rd64_setF_other _ _ _ _ _ hlo hhi).trans hsn
  · have hmem : e ∈ s.shadows.filter (fun x => (delayOffs c).contains x.1) := by rw [he]; exact List.mem_singleton.mpr rfl
    have hb := besideLand_delay hc (List.mem_filter.mp hmem).2
    have hst : e.1 ≠ (F.CND_STATUS_IMMED_DONE c).off := fun h => not_besideLand_cnd 0x100024 c (by decide) (show besideLand (F.CND_STATUS_IMMED_DONE c).off from h ▸ hb)
    rw [rd_setF_other _ _ _ _ hst, hload.rd _ hb, hone e he hb]

theorem State.trgLand_result :
    Keeps landFields s s.trgLand ∧ s.trgLand.bit F.TRG_STATUS_IMMED_DONE = true ∧ s.trgLand.shadows = s.shadows.filter (fun e => !inTrg e.1) ∧
    s.trgLand.rd64 R.TRG_LOAD_SN_LO R.TRG_LOAD_SN_HI = s.nowSn.getD allOnes64 % 2 ^ 64 := by
  obtain ⟨hf, hsh, -⟩ := s.landSet_result (s.shadows.filter (fun e => inTrg e.1)) s.nowSn false
  rw [unflagged_of_filter inTrg] at hsh
  unfold State.trgLand
  dsimp only
  generalize s.landSet (s.shadows.filter (fun e => inTrg e.1)) s.nowSn false = a at hf hsh ⊢
  refine ⟨((hf.keeps).wr64 _ _ _ (by decide)).setF _ _ (by decide), bit_setF_one _ _ (by decide), hsh, ?_⟩
  exact (rd64_setF_other _ _ _ _ _ (by decide) (by decide)).trans (rd64_wr64_mod a _ (by decide))

/-! ### The copy of the beam weights (R183, R186) -/

/-- Words copied one after another, where none is written over before it is read. -/
theorem copies_result (l : List (Nat × Nat)) (s : State) (hl : ∀ p ∈ l, ∀ q ∈ l, p.1 ≠ q.2) (hto : ∀ p ∈ l, ∀ q ∈ l, p.2 = q.2 → p.1 = q.1) :
    Keeps [.regs, .setLog] s (l.foldl (fun s p => s.land s.firstSn p.2 (s.rd p.1)) s) ∧
    (∀ o, (∀ p ∈ l, p.2 ≠ o) → (l.foldl (fun s p => s.land s.firstSn p.2 (s.rd p.1)) s).rd o = s.rd o) ∧
    ∀ p ∈ l, (l.foldl (fun s p => s.land s.firstSn p.2 (s.rd p.1)) s).rd p.2 = s.rd p.1 := by
  induction l generalizing s with
  | nil => exact ⟨Keeps.refl _ s, fun _ _ => rfl, nofun⟩
  | cons x l ih =>
    have hx := s.land_frame s.firstSn x.2 (s.rd x.1)
    have hxr := s.land_rd s.firstSn x.2 (s.rd x.1)
    obtain ⟨hk, hother, hcopy⟩ := ih (s.land s.firstSn x.2 (s.rd x.1)) (fun p hp q hq => hl p (List.mem_cons_of_mem _ hp) q (List.mem_cons_of_mem _ hq))
      (fun p hp q hq => hto p (List.mem_cons_of_mem _ hp) q (List.mem_cons_of_mem _ hq))
    refine ⟨hx.keeps.trans hk, fun o ho => ?_, fun p hp => ?_⟩
    · exact (hother o (fun p hp => ho p (List.mem_cons_of_mem _ hp))).trans (hx.rd o (ho x List.mem_cons_self).symm)
    · have hin : ∀ p ∈ l, ((x :: l).foldl (fun s p => s.land s.firstSn p.2 (s.rd p.1)) s).rd p.2 = s.rd p.1 := fun p hp =>
        (hcopy p hp).trans (hx.rd p.1 (hl p (List.mem_cons_of_mem _ hp) x List.mem_cons_self))
      by_cases hd : ∃ q ∈ l, q.2 = p.2
      · obtain ⟨q, hq, he⟩ := hd
        rw [← he, hin q hq, hto q (List.mem_cons_of_mem _ hq) p hp he]
      · have hpx : p = x := (List.mem_cons.mp hp).resolve_right (fun h => hd ⟨p, h, rfl⟩)
        subst hpx
        exact (hother p.2 (fun q hq h => hd ⟨q, hq, h⟩)).trans hxr

theorem mem_copyPairs {b : Nat} {p : Nat × Nat} : p ∈ copyPairs b ↔ ∃ m, m < 16 ∧ (p = (R.BMF_SHIFT m b, R.BMF_SHIFT m (1 - b)) ∨
    ∃ c, c < 256 ∧ p = (R.BMF_W m b c, R.BMF_W m (1 - b) c)) := by
  simp only [copyPairs, List.mem_flatMap, List.mem_range, List.mem_cons, List.mem_map, eq_comm (b := p)]

theorem copyPairs_apart {b : Nat} (hb : b < 2) :
    (∀ p ∈ copyPairs b, ∀ q ∈ copyPairs b, p.1 ≠ q.2) ∧ (∀ p ∈ copyPairs b, ∀ q ∈ copyPairs b, p.2 = q.2 → p.1 = q.1) ∧
    ∀ p ∈ copyPairs b, p.2 ≠ R.BMF_STATUS := by
  refine ⟨fun p hp q hq => ?_, fun p hp q hq h => ?_, fun p hp => ?_⟩
  · obtain ⟨m, hm, hp⟩ := mem_copyPairs.mp hp
    obtain ⟨k, hk, hq⟩ := mem_copyPairs.mp hq
    rcases hp with rfl | ⟨c, hc, rfl⟩ <;> rcases hq with rfl | ⟨d, hd, rfl⟩ <;>
      simp only [R.BMF_SHIFT, R.BMF_W] <;> omega
  · obtain ⟨m, hm, hp⟩ := mem_copyPairs.mp hp
    obtain ⟨k, hk, hq⟩ := mem_copyPairs.mp hq
    rcases hp with rfl | ⟨c, hc, rfl⟩ <;> rcases hq with rfl | ⟨d, hd, rfl⟩ <;>
      simp only [R.BMF_SHIFT, R.BMF_W] at h ⊢ <;> omega
  · obtain ⟨m, hm, hp⟩ := mem_copyPairs.mp hp
    rcases hp with rfl | ⟨c, hc, rfl⟩ <;> simp only [R.BMF_SHIFT, R.BMF_W, R.BMF_STATUS] <;> omega

theorem State.copyEnd_result (h : s.bit F.BMF_STATUS_COPY_BUSY = true) {b : Nat} (hb : s.getF F.BMF_BANK_SEL_SEL = b) :
    Keeps [.regs, .setLog] s s.copyEnd ∧ s.copyEnd.bit F.BMF_STATUS_COPY_BUSY = false ∧
    ∀ m, m < 16 → s.copyEnd.rd (R.BMF_SHIFT m (1 - b)) = s.rd (R.BMF_SHIFT m b) ∧
      ∀ c, c < 256 → s.copyEnd.rd (R.BMF_W m (1 - b) c) = s.rd (R.BMF_W m b c) := by
  have hlt : b < 2 := hb ▸ getF_lt s F.BMF_BANK_SEL_SEL
  obtain ⟨h1, h2, h3⟩ := copyPairs_apart hlt
  obtain ⟨hk, -, hcopy⟩ := copies_result (copyPairs b) s h1 h2
  have heq : s.copyEnd = ((copyPairs b).foldl (fun s p => s.land s.firstSn p.2 (s.rd p.1)) s).setF F.BMF_STATUS_COPY_BUSY 0 := by
    unfold State.copyEnd
    rw [if_pos h, hb]
  rw [heq]
  generalize (copyPairs b).foldl (fun s p => s.land s.firstSn p.2 (s.rd p.1)) s = t at hk hcopy ⊢
  have hword (p : Nat × Nat) (hp : p ∈ copyPairs b) : (t.setF F.BMF_STATUS_COPY_BUSY 0).rd p.2 = s.rd p.1 :=
    (rd_setF_other t _ 0 _ (h3 p hp)).trans (hcopy p hp)
  exact ⟨hk.setF _ _ (by decide), bit_setF_zero _ _ (by decide), fun m hm => ⟨hword _ (mem_copyPairs.mpr ⟨m, hm, .inl rfl⟩),
    fun c hc => hword _ (mem_copyPairs.mpr ⟨m, hm, .inr ⟨c, hc, rfl⟩⟩)⟩⟩

theorem State.bankCopy_result :
    Keeps [.regs] s s.bankCopy ∧ RegsKept [R.BMF_STATUS] s s.bankCopy ∧
    ((s.bit F.BMF_STATUS_TARGET_LOCK = true ∨ s.bit F.BMF_STATUS_COPY_BUSY = true) →
      s.bankCopy.bit F.BMF_STATUS_COPY_REFUSED = true ∧ s.bankCopy.bit F.BMF_STATUS_COPY_BUSY = s.bit F.BMF_STATUS_COPY_BUSY) ∧
    (s.bit F.BMF_STATUS_TARGET_LOCK = false → s.bit F.BMF_STATUS_COPY_BUSY = false → s.bankCopy.bit F.BMF_STATUS_COPY_BUSY = true) := by
  unfold State.bankCopy
  by_cases h : (s.bit F.BMF_STATUS_TARGET_LOCK || s.bit F.BMF_STATUS_COPY_BUSY) = true
  · rw [if_pos h]
    exact ⟨(Keeps.refl _ s).setF _ _ (by decide), (RegsKept.refl _ s).setF _ _ (by decide), fun _ => ⟨bit_setF_one _ _ (by decide),
      bit_setF_other _ _ _ _ (by decide) (by decide)⟩, fun h1 h2 => by rw [h1, h2] at h; exact absurd h (by decide)⟩
  · rw [if_neg h]
    exact ⟨(Keeps.refl _ s).setF _ _ (by decide), (RegsKept.refl _ s).setF _ _ (by decide), fun h' => absurd ((Bool.or_eq_true _ _).mpr h') h,
      fun _ _ => bit_setF_one _ _ (by decide)⟩

theorem State.alignUpdate_due {a : Anchor} {l : List Anchor} (ha : s.time.anchors = a :: l) (hr : s.run.running = true) (h0 : 0 < a.sn)
    (hn : a.sn + 32768 ≤ s.run.next) (hnew : ∀ e ∈ s.path.align, e.1 ≠ a.sn + 32768) :
    s.alignUpdate = { s with path := { s.path with
      align := ((a.sn + 32768, meanOf (s.getFAt a.sn F.CND_ALIGN_CTRL_AVG) s.path.phases) :: s.path.align).take 4 } } := by
  have hany : s.path.align.any (fun e => e.1 == a.sn + 32768) = false := by
    rw [List.any_eq_false]
    exact fun e he h => hnew e he (eq_of_beq h)
  unfold State.alignUpdate
  rw [ha]
  dsimp only [List.head?_cons]
  rw [hr, hany, decide_eq_true h0, decide_eq_true hn]
  rfl

/-! ### The timed apply (R345-R347) -/

theorem State.coefRelease_low : RdKept (· < 0x200000) s s.coefRelease := by
  have hput (u : State) (c : Nat) (d : ChanDef) : RdKept (· < 0x200000) u (u.coefPut c d) := by
    refine RdKept.setF (RdKept.foldl _ _ ?_ (fun v j _ => v.land_rdKept _ _ _ ?_)) _ _ ?_
    · exact (u.land_rdKept _ _ _ (by simp only [R.FIR_CFG]; omega)).trans (State.land_rdKept _ _ _ _ (by simp only [R.FIR_SHIFT]; omega))
    · simp only [R.FIR_COEF]; omega
    · simp only [F.FIR_CHARGE_CHARGE, R.FIR_CHARGE]; omega
  exact RdKept.foldl _ _ (fun _ _ => rfl) (fun u e _ => hput u e.1 e.2)

theorem State.setLocks_low (on : Bool) : RdKept (· < 0x200000) s (s.setLocks on) :=
  RdKept.setB (RdKept.foldl _ _ (RdKept.refl _ s) (fun u c _ => (RdKept.refl _ u).setB _ _ (by
    simp only [F.FIR_STATUS_TARGET_LOCK, R.FIR_STATUS]; omega))) _ _ (by decide)

/-- The apply is IDLE, and its other flags stand. -/
theorem State.applyIdle_result :
    s.applyIdle.applySt = 0 ∧ (∀ b, 2 ≤ b → s.applyIdle.bit ⟨R.HIF_APPLY_STATUS, b, 1⟩ = s.bit ⟨R.HIF_APPLY_STATUS, b, 1⟩) := by
  refine ⟨getF_setF_same _ F.HIF_APPLY_STATUS_STATE 0 (by decide), fun b hb => ?_⟩
  exact (bit_setF_other (s.setLocks false) F.HIF_APPLY_STATUS_STATE ⟨R.HIF_APPLY_STATUS, b, 1⟩ 0 (by decide) (.inr (.inr (show 0 + 2 ≤ b from hb)))).trans
    ((State.setLocks_low false).bit _ (show R.HIF_APPLY_STATUS < 0x200000 by decide))

/-- A refused set (R345). -/
theorem State.applyRefuse_result (off : Nat) :
    Keeps [.regs, .host, .recq, .setLog, .upd] s (s.applyRefuse off) ∧ (s.applyRefuse off).applySt = 0 ∧
    (s.applyRefuse off).bit F.HIF_APPLY_STATUS_REFUSED = true ∧ (s.applyRefuse off).getF F.IMG_APPLY_REFUSE_OFFSET = off % 2 ^ 23 ∧
    ⟨0, 0x0E02, pw off, s.tick⟩ ∈ (s.applyRefuse off).recq := by
  unfold State.applyRefuse
  have hk : Keeps [.regs] s (((s.setF F.IMG_APPLY_REFUSE_OFFSET off).setF F.IMG_APPLY_REFUSE_REFUSED 1).setF F.HIF_APPLY_STATUS_REFUSED 1) :=
    (((Keeps.refl _ s).setF _ _ (by decide)).setF _ _ (by decide)).setF _ _ (by decide)
  have hoff : (((s.setF F.IMG_APPLY_REFUSE_OFFSET off).setF F.IMG_APPLY_REFUSE_REFUSED 1).setF F.HIF_APPLY_STATUS_REFUSED 1).getF
      F.IMG_APPLY_REFUSE_OFFSET = off % 2 ^ 23 :=
    (getF_setF_other _ _ _ _ (by decide) (by decide)).trans ((getF_setF_other _ _ _ _ (by decide) (by decide)).trans (getF_setF_same _ _ _ (by decide)))
  have hbit : (((s.setF F.IMG_APPLY_REFUSE_OFFSET off).setF F.IMG_APPLY_REFUSE_REFUSED 1).setF F.HIF_APPLY_STATUS_REFUSED 1).bit
      F.HIF_APPLY_STATUS_REFUSED = true := bit_setF_one _ _ (by decide)
  dsimp only
  generalize ((s.setF F.IMG_APPLY_REFUSE_OFFSET off).setF F.IMG_APPLY_REFUSE_REFUSED 1).setF F.HIF_APPLY_STATUS_REFUSED 1 = a at hk hoff hbit ⊢
  obtain ⟨hst, hflag⟩ := a.applyIdle_result
  have hka := a.applyIdle_keeps
  have hoffb := (a.applyIdle_rdKept.getF F.IMG_APPLY_REFUSE_OFFSET (by unfold besideApply; decide)).trans hoff
  have hbitb := (hflag 3 (by decide)).trans hbit
  generalize a.applyIdle = b at hst hka hoffb hbitb ⊢
  have htick : b.tick = s.tick := by rw [State.tick, State.tick, hka .time (by decide), hk .time (by decide)]
  have hkc := (b.emit 0 0x0E02 (pw off)).coefRelease_keeps
  have hlow := (b.emit 0 0x0E02 (pw off)).coefRelease_low
  have hrec : (b.emit 0 0x0E02 (pw off)).coefRelease.recq = b.recq ++ [⟨0, 0x0E02, pw off, b.tick⟩] := hkc .recq (by decide)
  refine ⟨?_, ?_, ?_, ?_, ?_⟩
  · exact (((hk.mono (by decide)).trans (hka.mono (by decide))).emit _ _ _ (by decide)).trans (hkc.mono (by decide))
  · exact (hlow.getF F.HIF_APPLY_STATUS_STATE (by decide)).trans hst
  · exact (hlow.bit F.HIF_APPLY_STATUS_REFUSED (by decide)).trans hbitb
  · exact (hlow.getF F.IMG_APPLY_REFUSE_OFFSET (by decide)).trans hoffb
  · rw [hrec, htick]
    exact List.mem_append_right _ List.mem_cons_self

/-- The staged set lands (R344, R345). -/
theorem State.landAll_result (at_ : Option Nat) (quiet : Bool) :
    Keeps [.regs, .shadows, .setLog, .recq, .path, .cal, .trg, .host, .upd, .mnt, .obs] s (s.landAll at_ quiet) ∧ (s.landAll at_ quiet).shadows = [] ∧
    (s.landAll at_ quiet).rd64 R.HIF_APPLY_LANDED_LO R.HIF_APPLY_LANDED_HI = at_.getD allOnes64 % 2 ^ 64 ∧
    ((∀ e ∈ s.shadows, e.1 ≠ R.HIF_APPLY_STATUS) → (s.landAll at_ quiet).applySt = 0) := by
  have hki := s.applyIdle_keeps
  obtain ⟨hst, -⟩ := s.applyIdle_result
  have hsh : s.applyIdle.shadows = s.shadows := hki .shadows (by decide)
  unfold State.landAll
  dsimp only
  generalize s.applyIdle = a at hki hst hsh ⊢
  obtain ⟨hf, hnone, -⟩ := a.landSet_result s.shadows at_ quiet
  rw [hsh, unflagged_all] at hnone
  generalize a.landSet s.shadows at_ quiet = b at hf hnone ⊢
  have hkb : Keeps [.regs] b (b.wr64 R.HIF_APPLY_LANDED_LO R.HIF_APPLY_LANDED_HI (at_.getD allOnes64)) := (Keeps.refl _ b).wr64 _ _ _ (by decide)
  have hsn := rd64_wr64_mod b (lo := R.HIF_APPLY_LANDED_LO) (hi := R.HIF_APPLY_LANDED_HI) (at_.getD allOnes64) (by decide)
  have hstb : (b.wr64 R.HIF_APPLY_LANDED_LO R.HIF_APPLY_LANDED_HI (at_.getD allOnes64)).rd R.HIF_APPLY_STATUS = b.rd R.HIF_APPLY_STATUS :=
    rd_wr64_other _ _ _ _ _ (by decide) (by decide)
  generalize b.wr64 R.HIF_APPLY_LANDED_LO R.HIF_APPLY_LANDED_HI (at_.getD allOnes64) = c at hkb hsn hstb ⊢
  have hem (x : List Word) : Keeps [.recq] c (c.emit 0 0x0E01 x) := (Keeps.refl _ c).emit _ _ _ (by decide)
  have hrd (x : List Word) (o : Nat) : (c.emit 0 0x0E01 x).rd o = c.rd o := RdKept.of_keeps (RdKept.refl (fun _ => True) c) (hem x) (by decide) o trivial
  generalize psn c.host.applySn ++ psn (at_.getD allOnes64) ++ pw (fieldsOf s.shadows) ++ pb s.host.landLate = x
  have he := hem x
  have hr := hrd x
  generalize c.emit 0 0x0E01 x = d at he hr ⊢
  have hk := d.coefRelease_keeps
  have hlow := d.coefRelease_low
  refine ⟨?_, ?_, ?_, fun hno => ?_⟩
  · exact ((((hki.mono (by decide)).trans (hf.keeps.mono (by decide))).trans (hkb.mono (by decide))).trans (he.mono (by decide))).trans (hk.mono (by decide))
  · rw [hk .shadows (by decide), he .shadows (by decide), hkb .shadows (by decide)]
    exact hnone
  · unfold State.rd64 at hsn ⊢
    rw [hlow _ (by decide : R.HIF_APPLY_LANDED_LO < 0x200000), hlow _ (by decide : R.HIF_APPLY_LANDED_HI < 0x200000), hr, hr]
    exact hsn
  · have hland : b.rd R.HIF_APPLY_STATUS = a.rd R.HIF_APPLY_STATUS := hf.rd _ ⟨.inl (by decide), hno⟩
    have hall : d.coefRelease.rd R.HIF_APPLY_STATUS = a.rd R.HIF_APPLY_STATUS :=
      (hlow _ (by decide : R.HIF_APPLY_STATUS < 0x200000)).trans (((hr _).trans hstb).trans hland)
    unfold State.applySt State.getF at hst ⊢
    rw [show F.HIF_APPLY_STATUS_STATE.off = R.HIF_APPLY_STATUS from rfl] at hst ⊢
    rw [hall, hst]

theorem State.applyArm_result :
    Keeps [.regs, .host] s s.applyArm ∧
    (s.applySt ≠ 0 → s.applyArm.host = s.host ∧ RegsKept [R.HIF_APPLY_STATUS] s s.applyArm ∧ s.applyArm.applySt = s.applySt ∧
      s.applyArm.bit F.HIF_APPLY_STATUS_ARM_BUSY = true) ∧
    (s.applySt = 0 → s.applyArm.applySt = 1 ∧ s.applyArm.host.applySn = s.rd64 R.HIF_TIMED_APPLY_LO R.HIF_TIMED_APPLY_HI ∧
      s.applyArm.host.landAt = none) := by
  unfold State.applyArm
  by_cases h : s.applySt = 0
  · rw [if_neg (not_not.mpr h)]
    dsimp only
    have hh : Keeps [.host] s ({ s with host := { s.host with
        checkFrom := s.tick, applySn := s.rd64 R.HIF_TIMED_APPLY_LO R.HIF_TIMED_APPLY_HI, landAt := none, landLate := false, ended := none } } : State) :=
      (Keeps.refl _ s).host _ (by decide)
    have hsn : ({ s with host := { s.host with
        checkFrom := s.tick, applySn := s.rd64 R.HIF_TIMED_APPLY_LO R.HIF_TIMED_APPLY_HI, landAt := none, landLate := false, ended := none } } : State).host =
      { s.host with checkFrom := s.tick, applySn := s.rd64 R.HIF_TIMED_APPLY_LO R.HIF_TIMED_APPLY_HI, landAt := none, landLate := false, ended := none } := rfl
    generalize ({ s with host := { s.host with
        checkFrom := s.tick, applySn := s.rd64 R.HIF_TIMED_APPLY_LO R.HIF_TIMED_APPLY_HI, landAt := none, landLate := false, ended := none } } : State) = a at hh hsn ⊢
    have hk := (a.setLocks_keeps true).setF F.HIF_APPLY_STATUS_STATE 1 (by decide)
    refine ⟨(hh.mono (by decide)).trans (hk.mono (by decide)), fun h' => absurd h h', fun _ => ⟨getF_setF_same _ _ _ (by decide), ?_, ?_⟩⟩
    · rw [hk .host (by decide), hsn]
    · rw [hk .host (by decide), hsn]
  · rw [if_pos h]
    exact ⟨(Keeps.refl _ s).setF _ _ (by decide), fun _ => ⟨rfl, (RegsKept.refl _ s).setF _ _ (by decide),
      getF_setF_other _ _ _ _ (by decide) (by decide), bit_setF_one _ _ (by decide)⟩, fun h' => absurd h' h⟩

/-- The landing SN of a set that passed its check, by the run state (R346). -/
theorem State.applyChoose_result {n : Nat} (hend : s.host.ended = none) (hn : s.host.applySn = n) :
    (s.runSt = 3 → Keeps [.regs, .host] s s.applyChoose ∧ RegsKept [R.HIF_APPLY_STATUS] s s.applyChoose ∧ s.applyChoose.applySt = 2 ∧
      s.applyChoose.host.landAt = some (if s.notReached n then n else s.firstSn) ∧
      (s.notReached n = false → s.applyChoose.bit F.HIF_APPLY_STATUS_LATE = true)) ∧
    (s.runSt = 2 → Keeps [.regs, .host] s s.applyChoose ∧ RegsKept [R.HIF_APPLY_STATUS] s s.applyChoose ∧ s.applyChoose.applySt = 2 ∧
      s.applyChoose.host.landAt = some n) ∧
    (s.runSt ≤ 1 → (∀ e ∈ s.shadows, e.1 ≠ R.HIF_APPLY_STATUS) → s.applyChoose.applySt = 0 ∧ s.applyChoose.shadows = [] ∧
      s.applyChoose.rd64 R.HIF_APPLY_LANDED_LO R.HIF_APPLY_LANDED_HI = 2 ^ 64 - 1) := by
  have harmed (h : HostState) (u : State) (hu : u = { s.setF F.HIF_APPLY_STATUS_STATE 2 with host := h }) :
      Keeps [.regs, .host] s u ∧ RegsKept [R.HIF_APPLY_STATUS] s u ∧ u.applySt = 2 := by
    subst hu
    have hr : RegsKept [R.HIF_APPLY_STATUS] s (s.setF F.HIF_APPLY_STATUS_STATE 2) := (RegsKept.refl _ s).setF _ _ (by decide)
    have hst : (s.setF F.HIF_APPLY_STATUS_STATE 2).applySt = 2 := getF_setF_same _ _ _ (by decide)
    exact ⟨((Keeps.refl _ s).setF _ _ (by decide)).host _ (by decide), hr, hst⟩
  unfold State.applyChoose
  dsimp only
  rw [hend, hn]
  refine ⟨fun hr => ?_, fun hr => ?_, fun hr hno => ?_⟩
  · rw [hr]
    dsimp only
    have hnr : (s.setF F.HIF_APPLY_STATUS_STATE 2).notReached n = s.notReached n := rfl
    have hfs : (s.setF F.HIF_APPLY_STATUS_STATE 2).firstSn = s.firstSn := rfl
    rw [hnr, hfs]
    cases hc : s.notReached n
    · rw [if_neg (by decide)]
      obtain ⟨hk, hk2, hst⟩ := harmed _ _ rfl
      exact ⟨hk.setF F.HIF_APPLY_STATUS_LATE 1 (by decide), hk2.setF F.HIF_APPLY_STATUS_LATE 1 (by decide),
        (getF_setF_other _ F.HIF_APPLY_STATUS_LATE F.HIF_APPLY_STATUS_STATE 1 (by decide) (by decide)).trans hst, rfl,
        fun _ => bit_setF_one _ _ (by decide)⟩
    · rw [if_pos rfl]
      obtain ⟨hk, hk2, hst⟩ := harmed _ _ rfl
      exact ⟨hk, hk2, hst, rfl, nofun⟩
  · rw [hr]
    obtain ⟨hk, hk2, hst⟩ := harmed _ _ rfl
    exact ⟨hk, hk2, hst, rfl⟩
  · obtain ⟨-, hsh, hsn, hst⟩ := s.landAll_result none false
    have h01 : s.runSt = 0 ∨ s.runSt = 1 := by omega
    rcases h01 with h | h <;> rw [h] <;> exact ⟨hst hno, hsh, hsn⟩

/-- APPLY_LANDING comes only where the label has been reached, at or before S_stop and below SN_r. -/
theorem State.applyLanding_none {a r : Nat} (h : s.applySt ≠ 2 ∨ s.runSt ≠ 3 ∨ (s.host.landAt = some a ∧ s.spanOf a = none ∧
    (s.run.next < a ∨ (s.reform.snr = some r ∧ r ≤ a) ∨ (s.run.stopAt = some r ∧ r < a)))) : s.applyLanding = s := by
  unfold State.applyLanding
  by_cases hc : s.applySt = 2 ∧ s.runSt = 3
  · rw [if_pos hc]
    rcases h with h | h | ⟨hat, hspan, h⟩
    · exact absurd hc.1 h
    · exact absurd hc.2 h
    · have hbind : s.host.landAt.bind s.landsAt = some a := by
        rw [hat, Option.bind_some, State.landsAt, hspan]
      rw [hbind]
      refine if_neg ?_
      rintro ⟨h1, h2, h3⟩
      rcases h with h | ⟨hr, h⟩ | ⟨hz, h⟩
      · omega
      · rw [State.beforeReform, hr] at h3
        exact absurd (of_decide_eq_true h3) (by omega)
      · rw [State.beforeStop, hz] at h2
        exact absurd (of_decide_eq_true h2) (by omega)
  · exact if_neg hc

theorem State.applyLanding_lands {a n : Nat} (hst : s.applySt = 2) (hr : s.runSt = 3) (ha : s.host.landAt = some a)
    (hspan : s.spanOf a = none ∧ n = a ∨ ∃ h, s.spanOf a = some (h, some n)) (hn : n ≤ s.run.next) (hform : ∀ r, s.reform.snr = some r → n < r)
    (hstop : ∀ z, s.run.stopAt = some z → n ≤ z) : s.applyLanding = s.landAll (some n) (s.resumedAt n) := by
  have hbind : s.host.landAt.bind s.landsAt = some n := by
    rw [ha, Option.bind_some, State.landsAt]
    rcases hspan with ⟨h, rfl⟩ | ⟨h, hs⟩
    · rw [h]
    · rw [hs]
  have h2 : s.beforeStop n = true := by
    unfold State.beforeStop
    split
    · next e he => exact decide_eq_true (hstop e he)
    · rfl
  have h3 : s.beforeReform n = true := by
    unfold State.beforeReform
    split
    · next e he => exact decide_eq_true (hform e he)
    · rfl
  unfold State.applyLanding
  rw [if_pos ⟨hst, hr⟩, hbind]
  exact if_pos ⟨hn, h2, h3⟩

/-- The apply is disarmed before its landing. -/
theorem State.applyDrop_result : Keeps [.regs, .host, .setLog, .upd] s s.applyIdle.coefRelease ∧ s.applyIdle.coefRelease.applySt = 0 :=
  ⟨(s.applyIdle_keeps.mono (by decide)).trans ((State.coefRelease_keeps _).mono (by decide)),
    ((State.coefRelease_low).getF F.HIF_APPLY_STATUS_STATE (by decide)).trans s.applyIdle_result.1⟩

theorem State.applyLate_result :
    Keeps [.regs] s (s.late F.HIF_APPLY_STATUS_DISARM_LATE) ∧ (s.late F.HIF_APPLY_STATUS_DISARM_LATE).applySt = s.applySt ∧
    (s.late F.HIF_APPLY_STATUS_DISARM_LATE).bit F.HIF_APPLY_STATUS_DISARM_LATE = true ∧
    (s.late F.HIF_APPLY_STATUS_DISARM_LATE).getF F.MNT_LATE_COUNT = (s.getF F.MNT_LATE_COUNT + 1) % 2 ^ 32 := by
  unfold State.late
  refine ⟨((Keeps.refl _ s).setF _ _ (by decide)).bump _ (by decide), ?_, ?_, ?_⟩
  · exact (getF_bump_other _ F.MNT_LATE_COUNT F.HIF_APPLY_STATUS_STATE (by decide) (by decide)).trans (getF_setF_other _ _ _ _ (by decide) (by decide))
  · exact (bit_bump_other _ F.MNT_LATE_COUNT F.HIF_APPLY_STATUS_DISARM_LATE (by decide) (by decide)).trans (bit_setF_one _ _ (by decide))
  · exact (getF_bump_same _ _ (by decide)).trans (congrArg (fun m => (m + 1) % 2 ^ 32) (getF_setF_other _ _ _ _ (by decide) (by decide)))

/-- APPLY_DISARM: late once the landing SN has been reached (R345, R415). -/
theorem State.applyDisarm_result :
    Keeps [.regs, .host, .setLog, .upd] s s.applyDisarm ∧ (s.applySt = 1 → s.applyDisarm.applySt = 0) ∧ (s.applySt = 0 → s.applyDisarm = s) ∧
    (∀ a, s.applySt = 2 → s.host.landAt = some a → (s.runSt ≠ 3 ∨ s.run.next ≤ a) → s.applyDisarm.applySt = 0) ∧
    (∀ a, s.applySt = 2 → s.host.landAt = some a → s.runSt = 3 → a < s.run.next → s.applyDisarm = s.late F.HIF_APPLY_STATUS_DISARM_LATE) := by
  obtain ⟨hk, hst⟩ := s.applyDrop_result
  have hlt : s.applySt < 2 ^ 2 := getF_lt s F.HIF_APPLY_STATUS_STATE
  have hone (h : s.applySt = 1) : s.applyDisarm = s.applyIdle.coefRelease := by unfold State.applyDisarm; rw [h]; rfl
  have hidle (h : s.applySt = 0) : s.applyDisarm = s := by unfold State.applyDisarm; rw [h]; rfl
  have hthree (h : s.applySt = 3) : s.applyDisarm = s := by unfold State.applyDisarm; rw [h]; rfl
  have hat {a : Nat} (h : s.applySt = 2) (ha : s.host.landAt = some a) :
      s.applyDisarm = if s.runSt = 3 ∧ a < s.run.next then s.late F.HIF_APPLY_STATUS_DISARM_LATE else s.applyIdle.coefRelease := by
    unfold State.applyDisarm; rw [h, ha]; rfl
  have hnone (h : s.applySt = 2) (ha : s.host.landAt = none) : s.applyDisarm = s.applyIdle.coefRelease := by
    unfold State.applyDisarm; rw [h, ha]; rfl
  refine ⟨?_, fun h => by rw [hone h]; exact hst, hidle, fun a h ha hor => ?_, fun a h ha hr hn => (hat h ha).trans (if_pos ⟨hr, hn⟩)⟩
  · have hcase : s.applySt = 0 ∨ s.applySt = 1 ∨ s.applySt = 2 ∨ s.applySt = 3 := by omega
    rcases hcase with h | h | h | h
    · rw [hidle h]; exact Keeps.refl _ s
    · rw [hone h]; exact hk
    · cases ha : s.host.landAt with
      | none => rw [hnone h ha]; exact hk
      | some a =>
        rw [hat h ha]
        exact Keeps.ite (fun _ => s.applyLate_result.1.mono (by decide)) (fun _ => hk)
    · rw [hthree h]; exact Keeps.refl _ s
  · rw [hat h ha, if_neg (by omega)]
    exact hst

end

end Sys2Proof.Machine

open Sys2Proof.Machine in
/-- Settles O42: what the blocks do as a set lands leaves its registers (`landFollow_frame`), the shadows that land are exactly the
flagged ones (`unflagged_of_filter`), and no word of a bank copy is written before it is read (`copyPairs_apart`). -/
theorem landingsAndCopies : Obligations.LandingsAndCopies := by
  unfold Obligations.LandingsAndCopies
  refine ⟨fun id c s hg hlim => ?_, fun id s hg => ?_, fun id s hg => ?_, fun s b hbusy hb => ⟨_, rfl, s.copyEnd_result hbusy hb⟩,
    fun s h => congrArg Host.Outcome.next (if_neg (by rw [h]; decide)), fun c s hset hle => ?_, fun s a l ha hr h0 hn hnew => ?_⟩
  · have hne : R.CND_DELAY_NOW c ≠ R.HIF_APPLY_CTRL := by unfold R.CND_DELAY_NOW R.HIF_APPLY_CTRL; omega
    have heq : s.delayNow c = if s.nowPast then s.nowDiscard (fun o => (delayOffs c).contains o)
        else if s.halted && s.nowSn.isSome then s.nowHold c else s.delayLand c (s.resumedAt s.firstSn) := if_neg (by rw [hlim]; decide)
    refine ⟨_, congrArg Host.Outcome.next (s.gated_goes_other id _ 1#32 (·.delayNow c) hg hne), ?_⟩
    rw [heq]
    obtain ⟨hdk, hdr, hdb, hdq, hds⟩ := s.nowDiscard_result (fun o => (delayOffs c).contains o)
    obtain ⟨hhk, hhm⟩ := s.nowHold_result c
    obtain ⟨hlk, hlb, hls, hln, hlr⟩ := s.delayLand_result c.isLt (s.resumedAt s.firstSn)
    cases hp : s.nowPast with
    | true =>
      rw [if_pos rfl]
      exact ⟨(hdk.mono (by decide)).bpReg _ _ _ (by decide), fun _ => ⟨(hdk.mono (by decide)).bpReg _ _ _ (by decide), hdr.bpReg _ _ _, hdb, hdq, hds⟩,
        nofun, nofun⟩
    | false =>
      rw [if_neg (by decide)]
      cases hh : s.halted && s.nowSn.isSome with
      | true =>
        rw [if_pos rfl]
        exact ⟨(hhk.mono (by decide)).bpReg _ _ _ (by decide), nofun, fun _ _ _ => ⟨(hhk.mono (by decide)).bpReg _ _ _ (by decide), hhm⟩, nofun⟩
      | false =>
        rw [if_neg (by decide)]
        exact ⟨(hlk.mono (by decide)).bpReg _ _ _ (by decide), nofun, fun _ h1 h2 => by rw [h1, h2] at hh; exact absurd hh (by decide),
          fun _ _ => ⟨hlb, hls, hln, hlr⟩⟩
  · refine ⟨_, congrArg Host.Outcome.next (s.gated_goes_other id _ 1#32 State.trgNow hg (by decide)), ?_⟩
    unfold State.trgNow
    obtain ⟨hdk, hdr, hdb, hdq, hds⟩ := s.nowDiscard_result inTrg
    obtain ⟨hhk, hhm⟩ := s.nowHold_result 256
    obtain ⟨hlk, hlb, hls, hln⟩ := s.trgLand_result
    cases hcheck : s.checkSet true with
    | some off =>
      have hk : Keeps [.regs] s (s.setF F.TRG_STATUS_IMMED_REFUSED 1) := (Keeps.refl _ s).setF _ _ (by decide)
      have hr : RegsKept [R.TRG_STATUS] s (s.setF F.TRG_STATUS_IMMED_REFUSED 1) := (RegsKept.refl _ s).setF _ _ (by decide)
      have hb : (s.setF F.TRG_STATUS_IMMED_REFUSED 1).bit F.TRG_STATUS_IMMED_REFUSED = true := bit_setF_one _ _ (by decide)
      exact ⟨(hk.mono (by decide)).bpReg _ _ _ (by decide), fun _ => ⟨(hk.mono (by decide)).bpReg _ _ _ (by decide), hr.bpReg _ _ _, hb⟩,
        nofun, nofun, nofun⟩
    | none =>
      dsimp only
      cases hp : s.nowPast with
      | true =>
        rw [if_pos rfl]
        exact ⟨(hdk.mono (by decide)).bpReg _ _ _ (by decide), nofun,
          fun _ _ => ⟨(hdk.mono (by decide)).bpReg _ _ _ (by decide), hdr.bpReg _ _ _, hdb, hdq, hds⟩, nofun, nofun⟩
      | false =>
        rw [if_neg (by decide)]
        cases hh : s.halted && s.nowSn.isSome with
        | true =>
          rw [if_pos rfl]
          exact ⟨(hhk.mono (by decide)).bpReg _ _ _ (by decide), nofun, nofun,
            fun _ _ _ _ => ⟨(hhk.mono (by decide)).bpReg _ _ _ (by decide), hhm⟩, nofun⟩
        | false =>
          rw [if_neg (by decide)]
          exact ⟨(hlk.mono (by decide)).bpReg _ _ _ (by decide), nofun, nofun,
            fun _ _ h1 h2 => by rw [h1, h2] at hh; exact absurd hh (by decide), fun _ _ _ => ⟨hlb, hls, hln⟩⟩
  · obtain ⟨hk, hr, href, hbusy⟩ := s.bankCopy_result
    exact ⟨_, congrArg Host.Outcome.next (s.gated_goes_other id _ 1#32 State.bankCopy hg (by decide)), (hk.mono (by decide)).bpReg _ _ _ (by decide),
      hr.bpReg _ _ _, href, hbusy⟩
  · have heq : s.settleEnd c = s.setF (F.FIR_STATUS_SETTLING c) 0 := if_pos (by rw [hset, decide_eq_true hle]; rfl)
    refine ⟨_, congrArg Host.Outcome.next heq, (Keeps.refl _ s).setF _ _ (by decide), (RegsKept.refl _ s).setF _ _ List.mem_cons_self, ?_⟩
    exact bit_setF_zero _ _ (by show 1 + 1 ≤ 32; decide)
  · exact ⟨_, congrArg Host.Outcome.next (State.alignUpdate_due ha hr h0 hn hnew), (Keeps.refl _ s).path _ (by decide), rfl⟩

open Sys2Proof.Machine in
/-- Settles O43: by STATE of the apply and the run state, through what a landing of the whole staged set leaves (`landAll_result`). -/
theorem timedApply : Obligations.TimedApply := by
  unfold Obligations.TimedApply
  refine ⟨fun id s hg hw => ?_, fun id s hg hno => ?_, fun s off hst hcheck => ?_, fun s n hst hcheck hend hn => ?_, fun s h => ?_,
    fun s a n hst hr ha hspan hn hform hstop => ?_, fun s a r h => congrArg Host.Outcome.next (State.applyLanding_none h), fun id s hg => ?_⟩
  · have harm : s.armWaits id R.HIF_APPLY_CTRL 1#32 = true := by
      obtain ⟨h, hm, hid, hwr⟩ := hw
      have hany : (s.pwr.held ++ s.pwr.behind).any (fun h => h.ident == id && h.isWrite) = true :=
        List.any_eq_true.mpr ⟨h, hm, by rw [hid, hwr]; simp⟩
      unfold State.armWaits
      rw [hany]
      decide
    have heq : s.gated id R.HIF_APPLY_CTRL 1#32 State.applyArm = s.goBehind .write id R.HIF_APPLY_CTRL 1#32 := by
      unfold State.gated State.gatedAs
      rw [hg.1, hg.2, harm]
      rfl
    exact ⟨_, congrArg Host.Outcome.next heq, (Keeps.refl _ s).pwr _ (by decide), rfl⟩
  · have harm : s.armWaits id R.HIF_APPLY_CTRL 1#32 = false := by
      have hany : (s.pwr.held ++ s.pwr.behind).any (fun h => h.ident == id && h.isWrite) = false := by
        rw [List.any_eq_false]
        intro h hm hand
        exact hno h hm (eq_of_beq (Bool.and_eq_true_iff.mp hand).1)
      unfold State.armWaits
      rw [hany, Bool.and_false]
    obtain ⟨hk, hbusy, harmed⟩ := s.applyArm_result
    refine ⟨_, congrArg Host.Outcome.next (s.gated_goes id _ 1#32 State.applyArm hg harm), (hk.mono (by decide)).bpReg _ _ _ (by decide),
      fun h => ?_, harmed⟩
    obtain ⟨hh, hr, hst, hb⟩ := hbusy h
    exact ⟨hh, hr.bpReg _ _ _, hst, hb⟩
  · have heq : s.applyCheckDone = s.applyRefuse off := by
      unfold State.applyCheckDone
      rw [if_pos hst, hcheck]
    obtain ⟨hk, hs, hb, ho, hq⟩ := s.applyRefuse_result off
    exact ⟨_, congrArg Host.Outcome.next heq, hk.mono (by decide), hs, hb, ho, hq⟩
  · have heq : s.applyCheckDone = s.applyChoose := by
      unfold State.applyCheckDone
      rw [if_pos hst, hcheck]
    exact ⟨_, congrArg Host.Outcome.next heq, State.applyChoose_result hend hn⟩
  · exact congrArg Host.Outcome.next (if_neg h)
  · obtain ⟨hk, hsh, hsn, hidle⟩ := s.landAll_result (some n) (s.resumedAt n)
    exact ⟨_, congrArg Host.Outcome.next (State.applyLanding_lands hst hr ha hspan hn hform hstop), hk.mono (by decide), hsh, hsn, hidle⟩
  · have harm : s.armWaits id R.HIF_APPLY_CTRL 2#32 = false := rfl
    obtain ⟨hk, h1, h0, hdrop, hlate⟩ := s.applyDisarm_result
    refine ⟨_, congrArg Host.Outcome.next (s.gated_goes id _ 2#32 State.applyDisarm hg harm), (hk.mono (by decide)).bpReg _ _ _ (by decide), h1,
      fun h => ?_, hdrop, fun a hst ha hr hlt => ?_⟩
    · rw [h0 h]
      exact (Keeps.refl _ s).bpReg _ _ _ (by decide)
    · rw [hlate a hst ha hr hlt]
      obtain ⟨hlk, hls, hlb, hlc⟩ := s.applyLate_result
      exact ⟨hls.trans hst, hlk .host (by decide), hlb, hlc⟩

end

section
/-!
SUPPORT. The DMA rings (R350): a ring of the sinter engine is disabled while one of its jobs runs.
-/

namespace Sys2Proof.Machine

/-- Past reset at tick 1, with a host job of function 0 in context 8 on lane 0. -/
def jobRuns : State :=
  let s := (((State.reset.setF (F.SNT_CTX_STATE_STATE 8) 1).setF (F.SNT_CTX_STATE_OWNER 8) 1).setF (F.SNT_LANE_STATE 0) 2).setF (F.SNT_LANE_CTX 0) 8
  { s with pwr := { s.pwr with por := false }, time := { s.time with frc := 1 } }

/-- RING_DISABLE of its ring goes through; the lane that it frees notes work of XPR. -/
theorem jobRuns_facts :
    (jobRuns.pwr.por = false ∧ jobRuns.gateW .host0 (R.HIF_RING_CTRL 0 8) = .go) ∧
    (jobRuns.ports.length = 4 ∧ jobRuns.host.fns.length = 2 ∧ (jobRuns.fn 0).rings.length = 10) ∧
    jobRuns.pwr.lastWork.getD 12 0 = 0 ∧ (jobRuns.ringDisable 0 8 0#32).pwr.lastWork.getD 12 0 = 1 := by
  decide +kernel

end Sys2Proof.Machine

open Sys2Proof.Machine in
/-- Refutes O58: a fall of EN of ring 8 abandons the host jobs that run (R350), and the lane that such a job gives back is work of XPR, whose
idle hold starts again (R373), so the fall does not leave the power state as it was: in `jobRuns` it moves the last work of domain 12 from tick 0 to
tick 1. -/
theorem not_ringsAndSignals : ¬ Obligations.RingsAndSignals := by
  unfold Obligations.RingsAndSignals
  intro h
  obtain ⟨-, hdisable, -⟩ := h
  obtain ⟨hgoes, ⟨hports, hfns, hrings⟩, hbefore, hafter⟩ := jobRuns_facts
  obtain ⟨t, ht, hkeep, -⟩ := hdisable .host0 0 8 0#32 jobRuns hgoes hports hfns hrings
  have hgated := jobRuns.gated_goes_other .host0 (R.HIF_RING_CTRL 0 8) (0#32 &&& 0xFFFFFFFE#32) (fun s => s.ringDisable 0 8 0#32) hgoes (by decide)
  obtain rfl := Host.Outcome.next.inj ht
  have hgo : Keeps [.regs, .host, .ports, .snt, .dbg] jobRuns
      (jobRuns.gated .host0 (R.HIF_RING_CTRL 0 8) (0#32 &&& 0xFFFFFFFE#32) (fun s => s.ringDisable 0 8 0#32)) := hkeep
  rw [hgated] at hgo
  generalize jobRuns.ringDisable 0 8 0#32 = u at hgo hafter
  have hpwr : u.pwr = jobRuns.pwr := (State.bpReg_pwr u _ _ _).symm.trans (hgo .pwr (by decide))
  rw [hpwr, hbefore] at hafter
  exact absurd hafter (by decide)

end

section
/-!
SUPPORT. Frames at the ports (R314-R324, R330, R351, R352): received frames, host frames, path delay and TIME_SUSPECT, and O54.
-/

namespace Sys2Proof.Machine

section

variable {s t u : State} {p f n : Nat}

/-! ### Ports that change alone -/

/-- `t` is `s` with other ports. -/
def State.portsOnly (s t : State) : Prop := ∃ l, t = { s with ports := l }

theorem State.portsOnly.trans (h : s.portsOnly t) (k : t.portsOnly u) : s.portsOnly u := by
  obtain ⟨l, rfl⟩ := h
  obtain ⟨m, rfl⟩ := k
  exact ⟨m, rfl⟩

theorem State.portsOnly.ite {c : Prop} [Decidable c] (ht : s.portsOnly t) (hu : s.portsOnly u) : s.portsOnly (if c then t else u) := by
  split
  · exact ht
  · exact hu

theorem State.portsOnly_updPtp (g : PtpState → PtpState) : s.portsOnly (s.updPtp p g) := ⟨_, rfl⟩

/-- A received PTP message reaches the detector of its port and nothing else. -/
theorem State.ptpRx_ports (b : List Byte) (x : Int) : s.portsOnly (s.ptpRx p b x) := by
  have hrefl : s.portsOnly s := ⟨s.ports, rfl⟩
  unfold State.ptpRx
  cases s.ptpAt p b with
  | none => exact hrefl
  | some h =>
    dsimp only
    split
    · split <;> exact State.portsOnly_updPtp _
    · split
      · split
        · exact State.portsOnly_updPtp _
        · exact hrefl
      · exact hrefl
    · split
      · split
        · exact State.portsOnly_updPtp _
        · exact hrefl
      · exact hrefl
    · split
      · split
        · exact State.portsOnly_updPtp _
        · exact State.portsOnly.trans (State.portsOnly_updPtp _) (State.portsOnly_updPtp _)
      · exact hrefl
    · split
      · split
        · exact State.portsOnly.trans (State.portsOnly_updPtp _) (State.portsOnly_updPtp _)
        · exact hrefl
      · exact hrefl
    · exact hrefl

theorem State.ptpTx_ports (b : List Byte) (x : Int) : s.portsOnly (s.ptpTx p b x) := by
  have hrefl : s.portsOnly s := ⟨s.ports, rfl⟩
  unfold State.ptpTx
  cases s.ptpAt p b with
  | none => exact hrefl
  | some h =>
    exact State.portsOnly.ite (State.portsOnly_updPtp _) hrefl

/-! ### Write-backs -/

/-- The words of a write-back take nothing but free values. -/
theorem State.wbWords_free (status : Nat) (x : Option Nat) (w : Word) : ∃ c, (s.wbWords status x w).2 = { s with freeCtr := c } := by
  cases x with
  | none => exact ⟨_, rfl⟩
  | some t => exact ⟨s.freeCtr, rfl⟩

theorem ringCi_fits (r : Nat) : (F.HIF_RING_CI_CI f r).lo + (F.HIF_RING_CI_CI f r).width ≤ 32 := by
  show 0 + 16 ≤ 32
  decide

/-- CI passes the entry. -/
theorem State.ringDone_result (r i : Nat) :
    Keeps [.regs, .host, .obs] s (s.ringDone f r i) ∧ RegsKept [R.HIF_RING_CI f r] s (s.ringDone f r i) ∧ s.obsMore (s.ringDone f r i) ∧
      s.postedKept (s.ringDone f r i) ∧ (s.ringDone f r i).getF (F.HIF_RING_CI_CI f r) = (i + 1) % 2 ^ 16 := by
  have hset : Keeps [.regs] s (s.setF (F.HIF_RING_CI_CI f r) (i + 1)) := (Keeps.refl _ s).setF _ _ (by decide)
  have hkept : RegsKept [R.HIF_RING_CI f r] s (s.setF (F.HIF_RING_CI_CI f r) (i + 1)) :=
    (RegsKept.refl _ s).setF _ _ (List.mem_singleton.mpr rfl)
  have hci : (s.setF (F.HIF_RING_CI_CI f r) (i + 1)).getF (F.HIF_RING_CI_CI f r) = (i + 1) % 2 ^ 16 := getF_setF_same _ _ _ (ringCi_fits r)
  have hpost : s.postedKept (s.setF (F.HIF_RING_CI_CI f r) (i + 1)) := State.postedKept_of_host rfl
  have hmore : s.obsMore (s.setF (F.HIF_RING_CI_CI f r) (i + 1)) := State.obsMore_of_eq rfl
  unfold State.ringDone
  generalize s.setF (F.HIF_RING_CI_CI f r) (i + 1) = v at hset hkept hci hpost hmore ⊢
  have hwb := v.writeWb_keeps f r (i + 1)
  obtain ⟨hp, ho⟩ := v.writeWb_posted f r (i + 1)
  exact ⟨(hset.mono (by decide)).trans (hwb.mono (by decide)), hkept.trans (hwb.regsKept (by decide) _), hmore.trans ho, hpost.trans hp,
    (State.getF_of_regs (hwb .regs (by decide)) _).trans hci⟩


/-- An entry of the ring of a port is completed. -/
theorem State.txDone_result (h : HostFrame) (hfn : h.fn = f) (status : Nat) (x : Option Nat) :
    Keeps [.regs, .ports, .host, .obs, .freeCtr] s (s.txDone p h status x) ∧ RegsKept [R.HIF_RING_CI f p] s (s.txDone p h status x) ∧
      s.obsMore (s.txDone p h status x) ∧ (s.txDone p h status x).getF (F.HIF_RING_CI_CI f p) = (h.idx + 1) % 2 ^ 16 := by
  subst hfn
  unfold State.txDone
  extract_lets v
  have hv : Keeps [.ports, .freeCtr] s v := (Keeps.refl _ s).ports _ (by decide)
  have hvo : v.obs = s.obs := rfl
  obtain ⟨c, hc⟩ := v.wbWords_free status x h.tag
  generalize v.wbWords status x h.tag = wb at hc ⊢
  obtain ⟨bytes, w⟩ := wb
  dsimp only at hc ⊢
  subst hc
  have hw : Keeps [.ports, .freeCtr, .obs] s (State.obsv { v with freeCtr := c } (.hostWrite h.fn (State.entryAddr { v with freeCtr := c } h.fn p h.idx) bytes)) :=
    ((hv.mono (by decide)).freeCtr _ (by decide)).obsv _ (by decide)
  have hmore : s.obsMore (State.obsv { v with freeCtr := c } (.hostWrite h.fn (State.entryAddr { v with freeCtr := c } h.fn p h.idx) bytes)) :=
    State.obsMore.trans (State.obsMore_of_eq hvo) (State.obsMore_obsv _ _)
  generalize State.obsv { v with freeCtr := c } _ = w at hw hmore ⊢
  obtain ⟨hk, hr, hm, -, hci⟩ := State.ringDone_result (s := w) (f := h.fn) p h.idx
  exact ⟨(hw.mono (by decide)).trans (hk.mono (by decide)), (hw.regsKept (by decide) _).trans hr, hmore.trans hm, hci⟩

/-! ### Host frames -/

theorem State.hostHead_fn {h : HostFrame} (hh : s.hostHead f p = some h) : h.fn = f := by
  have hp := List.find?_some hh
  simpa using hp

theorem netTxHost_beside (hp : p < 4) : (F.NET_TX_HOST_COUNT p).off ∉ [R.HIF_RING_CI f p] := by
  have hne : (F.NET_TX_HOST_COUNT p).off ≠ R.HIF_RING_CI f p := by
    show 0xD0084 + 0x4000 * p ≠ 0xE1018 + 0x1000 * f + 0x40 * p
    omega
  simpa using hne

theorem hostFrameTransmit_waits (sub : Nat) (cut : Bool)
    (h : s.hostHead f p = none ∨ s.linkUp p = false ∨ (s.port p).sending ≠ none ∨ s.ringOn f p = false) :
    s.hostFrameTransmit f p sub cut = s := by
  unfold State.hostFrameTransmit
  cases hh : s.hostHead f p with
  | none => rfl
  | some x =>
    have hcond : (s.linkUp p && (s.port p).sending.isNone && s.ringOn f p) = false := by
      rcases h with h | h | h | h
      · exact absurd (hh.symm.trans h) nofun
      · rw [h]; rfl
      · rw [Option.isNone_eq_false_iff.mpr (Option.isSome_iff_ne_none.mpr h)]; simp
      · rw [h]; simp
    dsimp only
    rw [hcond]
    rfl

/-- The frame that goes out is counted and shown. -/
def State.hostSent (s : State) (p sub : Nat) (h : HostFrame) : State :=
  let allow := s.allowance p
  let hErr := h.oneStep && decide (h.len < h.hdr + 44)
  let t := s.stamp sub (s.getI (F.NET_ASYM_TX_ASYM p))
  let b := if h.oneStep && !hErr then oneStepFrame h.bytes h.hdr t else h.bytes
  let w := hostWire b
  (((s.updPort p (fun x => { x with allowance := allow - (8 * w.length : Nat), allowTick := s.tick })).bump (F.NET_TX_HOST_COUNT p)).obsv
    (.frame p w)).ptpTx p b (stamp16 t)

/-- What a head frame that may go does, by its faults and the state of its link. -/
theorem State.hostFrameTransmit_eq {h : HostFrame} (sub : Nat) (cut : Bool) (hh : s.hostHead f p = some h) (hl : s.linkUp p = true)
    (hs : (s.port p).sending = none) (hr : s.ringOn f p = true) :
    ∃ status x, s.hostFrameTransmit f p sub cut =
      if h.bad then ((s.txDone p h 3 none).ringStop f p 2)
      else if !h.lenOk then s.txDone p h 1 none
      else if !s.hostTurn p h then s
      else if cut then s.txDone p h status none
      else (s.hostSent p sub h).txDone p h status x := by
  have hcond : (s.linkUp p && (s.port p).sending.isNone && s.ringOn f p) = true := by rw [hl, hs, hr]; rfl
  refine ⟨if h.oneStep && decide (h.len < h.hdr + 44) then 2 else 0,
    if h.tsReq || h.oneStep then some (s.stamp sub (s.getI (F.NET_ASYM_TX_ASYM p))) else none, ?_⟩
  unfold State.hostFrameTransmit
  rw [hh]
  exact if_pos hcond

theorem State.hostSent_result (sub : Nat) (h : HostFrame) :
    Keeps [.regs, .ports, .obs] s (s.hostSent p sub h) ∧
      (s.hostSent p sub h).getF (F.NET_TX_HOST_COUNT p) = (s.getF (F.NET_TX_HOST_COUNT p) + 1) % 2 ^ 32 ∧
      (h.oneStep = false → .frame p (hostWire h.bytes) ∈ (s.hostSent p sub h).obs) := by
  unfold State.hostSent
  extract_lets allow hErr t b w
  have hb : h.oneStep = false → b = h.bytes := fun ho => by
    have hc : (h.oneStep && !hErr) = false := by rw [ho]; rfl
    exact if_neg (by rw [hc]; decide)
  have hp : Keeps [.regs, .ports, .obs] s (s.updPort p (fun x => { x with allowance := allow - (8 * w.length : Nat), allowTick := s.tick })) :=
    (Keeps.refl _ s).ports _ (by decide)
  have hc : (s.updPort p (fun x => { x with allowance := allow - (8 * w.length : Nat), allowTick := s.tick })).getF (F.NET_TX_HOST_COUNT p) =
      s.getF (F.NET_TX_HOST_COUNT p) := State.getF_of_regs rfl _
  generalize s.updPort p _ = v at hp hc ⊢
  obtain ⟨l, hl⟩ := ((v.bump (F.NET_TX_HOST_COUNT p)).obsv (.frame p w)).ptpTx_ports (p := p) b (stamp16 t)
  rw [hl]
  have hw := (hp.bump (F.NET_TX_HOST_COUNT p) (by decide)).obsv (.frame p w) (by decide)
  refine ⟨hw.ports _ (by decide), ?_, fun ho => ?_⟩
  · refine (State.getF_of_regs (s := v.bump (F.NET_TX_HOST_COUNT p)) rfl _).trans ?_
    rw [getF_bump_same _ _ (by show 0 + 32 ≤ 32; decide), hc]
    rfl
  · show Obs.frame p (hostWire h.bytes) ∈ Obs.frame p (hostWire b) :: _
    rw [hb ho]
    exact List.mem_cons_self


/-- What becomes of a head frame that may go. -/
theorem hostFrameTransmit_result {h : HostFrame} (sub : Nat) (cut : Bool) (hp : p < 4) (hh : s.hostHead f p = some h) (hl : s.linkUp p = true)
    (hs : (s.port p).sending = none) (hr : s.ringOn f p = true) :
    ∃ t, s.hostFrameTransmit f p sub cut = t ∧ Keeps [.regs, .recq, .ports, .host, .obs, .freeCtr] s t ∧
      (h.bad = true → t.getF (F.HIF_RING_STATUS_ERR f p) = 2 ∧ ⟨0, 0x0E04, pw f ++ pw p ++ pw 2, s.tick⟩ ∈ t.recq) ∧
      (h.bad = false → (h.len = 0 ∨ 2048 < h.len) → t.recq = s.recq ∧
        t.getF (F.HIF_RING_CI_CI f p) = (h.idx + 1) % 2 ^ 16 ∧ t.getF (F.NET_TX_HOST_COUNT p) = s.getF (F.NET_TX_HOST_COUNT p)) ∧
      (h.bad = false → 0 < h.len → h.len ≤ 2048 → s.hostTurn p h = false → t = s) ∧
      (h.bad = false → 0 < h.len → h.len ≤ 2048 → s.hostTurn p h = true →
        t.getF (F.HIF_RING_CI_CI f p) = (h.idx + 1) % 2 ^ 16 ∧
        (cut = true → t.getF (F.NET_TX_HOST_COUNT p) = s.getF (F.NET_TX_HOST_COUNT p)) ∧
        (cut = false → t.getF (F.NET_TX_HOST_COUNT p) = (s.getF (F.NET_TX_HOST_COUNT p) + 1) % 2 ^ 32 ∧
          (h.oneStep = false → .frame p (hostWire h.bytes) ∈ t.obs))) := by
  obtain ⟨status, x, he⟩ := State.hostFrameTransmit_eq sub cut hh hl hs hr
  refine ⟨_, rfl, ?_⟩
  rw [he]
  have hfn := State.hostHead_fn hh
  have hcount : (F.NET_TX_HOST_COUNT p).off ∉ [R.HIF_RING_CI f p] := netTxHost_beside hp
  have hdone (st : Nat) : _ := State.txDone_result (s := s) (p := p) h hfn st none
  have hlen (h1 : 0 < h.len) (h2 : h.len ≤ 2048) : h.lenOk = true := by
    have hc : decide (1 ≤ h.len) = true := decide_eq_true h1
    rw [HostFrame.lenOk, hc, decide_eq_true h2]
    rfl
  cases hbad : h.bad with
  | true =>
    obtain ⟨hk, -, -, -⟩ := hdone 3
    rw [if_pos rfl]
    have ht : (s.txDone p h 3 none).tick = s.tick := congrArg (fun x => x.frc.toNat) (hk .time (by decide))
    generalize s.txDone p h 3 none = v at hk ht ⊢
    refine ⟨((hk.mono (by decide)).setF _ _ (by decide)).emit _ _ _ (by decide), fun _ => ⟨?_, ?_⟩, nofun, nofun, nofun⟩
    · rw [State.ringStop, State.emit_getF, getF_setF_same _ _ _ (by show 0 + 2 ≤ 32; decide)]
      rfl
    · refine List.mem_append_right _ (List.mem_singleton.mpr ?_)
      rw [← ht]
      rfl
  | false =>
    rw [if_neg (by decide)]
    cases hok : h.lenOk with
    | false =>
      obtain ⟨hk, hr, -, hci⟩ := hdone 1
      rw [if_pos (by decide)]
      exact ⟨hk.mono (by decide), nofun, fun _ _ => ⟨hk .recq (by decide), hci, hr.getF _ hcount⟩,
        fun _ h1 h2 => absurd ((hlen h1 h2).symm.trans hok) nofun, fun _ h1 h2 => absurd ((hlen h1 h2).symm.trans hok) nofun⟩
    | true =>
      rw [if_neg (by decide)]
      have hnlen : ¬ (h.len = 0 ∨ 2048 < h.len) := by
        have hand := (Bool.and_eq_true_iff).mp hok
        have h1 := of_decide_eq_true hand.1
        have h2 := of_decide_eq_true hand.2
        omega
      cases hturn : s.hostTurn p h with
      | false =>
        rw [if_pos (by decide)]
        exact ⟨Keeps.refl _ s, nofun, fun _ h => absurd h hnlen, fun _ _ _ _ => rfl, fun _ _ _ => nofun⟩
      | true =>
        rw [if_neg (by decide)]
        cases cut with
        | true =>
          obtain ⟨hk, hr, -, hci⟩ := hdone status
          rw [if_pos rfl]
          exact ⟨hk.mono (by decide), nofun, fun _ h => absurd h hnlen, fun _ _ _ => nofun,
            fun _ _ _ _ => ⟨hci, fun _ => hr.getF _ hcount, nofun⟩⟩
        | false =>
          rw [if_neg (by decide)]
          obtain ⟨hk0, hc0, ho0⟩ := State.hostSent_result (s := s) (p := p) sub h
          generalize s.hostSent p sub h = v at hk0 hc0 ho0 ⊢
          obtain ⟨hk, hr, hm, hci⟩ := State.txDone_result (s := v) (p := p) h hfn status x
          exact ⟨(hk0.mono (by decide)).trans (hk.mono (by decide)), nofun, fun _ h => absurd h hnlen, fun _ _ _ => nofun,
            fun _ _ _ _ => ⟨hci, nofun, fun _ => ⟨(hr.getF _ hcount).trans hc0, fun ho => hm _ (ho0 ho)⟩⟩⟩

/-! ### Received frames -/

/-- A good frame is its bytes with their FCS. -/
theorem withFcs_good (b : List Byte) :
    (b ++ leBytes 4 (crc32 b).toNat).take ((b ++ leBytes 4 (crc32 b).toNat).length - 4) = b ∧
      (decide (4 ≤ (b ++ leBytes 4 (crc32 b).toNat).length) && leAt (b ++ leBytes 4 (crc32 b).toNat)
        ((b ++ leBytes 4 (crc32 b).toNat).length - 4) 4 == (crc32 b).toNat) = true := by
  have hlen : (b ++ leBytes 4 (crc32 b).toNat).length = b.length + 4 := by rw [List.length_append, leBytes_length]
  have hle : leAt (b ++ leBytes 4 (crc32 b).toNat) b.length 4 = (crc32 b).toNat := by
    have hfield := leAt_field b [] b.length 4 (crc32 b).toNat rfl
    rw [List.append_nil] at hfield
    exact hfield.trans (Nat.mod_eq_of_lt (crc32 b).isLt)
  rw [hlen, Nat.add_sub_cancel, hle]
  exact ⟨List.take_left' rfl, by simp⟩

/-- A frame that its port takes goes to the Damuf agent, to the host ring or nowhere. -/
def State.rxTaken (s : State) (p : Nat) (b : List Byte) (x : Nat) : State :=
  if s.isDamuf p b then s.dmfTake p b
  else if s.rxEnabled p b && s.toPortMac p b then s.rxToRing p b x
  else s.bump (F.NET_RX_DROP_COUNT p)

theorem State.frameReceive_down {sub : Nat} {w : List Byte} (h : s.linkUp p = false) : s.frameReceive p sub w = s := by
  unfold State.frameReceive
  dsimp only
  rw [h]
  rfl

theorem State.frameReceive_bad {sub : Nat} {w : List Byte} (h : s.linkUp p = true)
    (hg : (decide (4 ≤ w.length) && leAt w (w.length - 4) 4 == (crc32 (w.take (w.length - 4))).toNat) = false) :
    s.frameReceive p sub w = s.bump (F.NET_RX_FCS_COUNT p) := by
  unfold State.frameReceive
  dsimp only
  rw [h, hg]
  rfl

theorem State.frameReceive_long {sub : Nat} {w : List Byte} (h : s.linkUp p = true)
    (hg : (decide (4 ≤ w.length) && leAt w (w.length - 4) 4 == (crc32 (w.take (w.length - 4))).toNat) = true) (hw : 9216 < w.length) :
    s.frameReceive p sub w = s.bump (F.NET_RX_OVERSIZE_COUNT p) := by
  unfold State.frameReceive
  dsimp only
  rw [h, hg]
  exact if_pos hw

theorem State.frameReceive_good {sub : Nat} {b : List Byte} (h : s.linkUp p = true) (hb : b.length + 4 ≤ 9216) (he : etherType b ≠ 0x8808) :
    ∃ l x, s.frameReceive p sub (b ++ leBytes 4 (crc32 b).toNat) = ({ s with ports := l } : State).rxTaken p b x := by
  obtain ⟨htake, hgood⟩ := withFcs_good b
  have hlen : ¬ 9216 < (b ++ leBytes 4 (crc32 b).toNat).length := by rw [List.length_append, leBytes_length]; omega
  unfold State.frameReceive
  dsimp only
  rw [htake, hgood, h]
  obtain ⟨l, hl⟩ := s.ptpRx_ports (p := p) b (stamp16 (s.stamp sub (s.getI (F.NET_ASYM_RX_ASYM p))))
  refine ⟨l, s.stamp sub (s.getI (F.NET_ASYM_RX_ASYM p)), ?_⟩
  rw [← hl]
  exact (if_neg hlen).trans (if_neg he)

/-- The Damuf agent's part: what a taken frame moves. -/
theorem State.dmfFailed_result (b : List Byte) (w : DmfFail) (hw : w.counter.lo + w.counter.width ≤ 32) :
    Keeps [.regs, .recq, .freeCtr, .firsts] s (s.dmfFailed p b w) ∧ RegsKept [w.counter.off] s (s.dmfFailed p b w) ∧
      (s.dmfFailed p b w).getF w.counter = (s.getF w.counter + 1) % 2 ^ w.counter.width := by
  have hnote (u : State) : Frame [.recq, .freeCtr, .firsts] (fun _ => True) u
      (u.free.2.emit 0 0x0D05 (pw p ++ wordsOfBe (ipSrc b) ++ pw u.free.1)) :=
    (u.free_frame.wide (by decide)).emit _ _ _ (by decide)
  have hfirst : Frame [.recq, .freeCtr, .firsts] (fun _ => True) (s.bump w.counter) (s.dmfFailed p b w) :=
    (Frame.refl _ _ _).firstOf _ _ (by decide) hnote
  have hregs : (s.dmfFailed p b w).regs = (s.bump w.counter).regs := hfirst.keeps .regs (by decide)
  refine ⟨((Keeps.refl _ s).bump _ (by decide)).trans (hfirst.keeps.mono (by decide)),
    ((RegsKept.refl _ s).bump _ (List.mem_singleton.mpr rfl)).trans (hfirst.keeps.regsKept (by decide) _), ?_⟩
  rw [State.getF_of_regs hregs]
  exact getF_bump_same _ _ hw

theorem dmfDrop_fits : F.NET_DMF_DROP_COUNT.lo + F.NET_DMF_DROP_COUNT.width ≤ 32 := by decide

theorem State.dmfTake_keeps (b : List Byte) : Keeps [.regs, .recq, .dmfQ, .freeCtr, .firsts] s (s.dmfTake p b) := by
  have hbump : Keeps [.regs, .recq, .dmfQ, .freeCtr, .firsts] s (s.bump F.NET_DMF_DROP_COUNT) := (Keeps.refl _ s).bump _ (by decide)
  refine Keeps.ite (fun _ => hbump) (fun _ => Keeps.ite (fun _ => ?_) (fun _ => Keeps.ite (fun _ => ?_) (fun _ => hbump)))
  · exact (State.dmfFailed_result b .drop dmfDrop_fits).1.mono (by decide)
  · exact (Keeps.refl _ s).dmfQ _ (by decide)

theorem State.dmfTake_joins {b : List Byte} (hup : s.dmfUp = true) (hsz : dmfSized (udpPayload b) = true) (hq : s.dmfQ.length < 16) :
    s.dmfTake p b = { s with dmfQ := s.dmfQ ++ [(p, b)] } := by
  unfold State.dmfTake
  rw [hup, hsz]
  exact if_pos hq

theorem State.dmfTake_drops {b : List Byte} (h : s.dmfUp = false ∨ dmfSized (udpPayload b) = false ∨ 16 ≤ s.dmfQ.length) :
    (s.dmfTake p b).dmfQ = s.dmfQ ∧ (s.dmfTake p b).getF F.NET_DMF_DROP_COUNT = (s.getF F.NET_DMF_DROP_COUNT + 1) % 2 ^ 32 := by
  have hbump : (s.bump F.NET_DMF_DROP_COUNT).getF F.NET_DMF_DROP_COUNT = (s.getF F.NET_DMF_DROP_COUNT + 1) % 2 ^ 32 :=
    getF_bump_same _ _ dmfDrop_fits
  obtain ⟨hk, -, hc⟩ := State.dmfFailed_result (s := s) (p := p) b .drop dmfDrop_fits
  unfold State.dmfTake
  cases hup : s.dmfUp with
  | false => exact ⟨rfl, hbump⟩
  | true =>
    cases hsz : dmfSized (udpPayload b) with
    | false => exact ⟨hk .dmfQ (by decide), hc⟩
    | true =>
      have hq : ¬ s.dmfQ.length < 16 := by
        rcases h with h | h | h
        · exact absurd (hup.symm.trans h) nofun
        · exact absurd (hsz.symm.trans h) nofun
        · omega
      rw [if_neg (by decide), if_neg (by decide), if_neg hq]
      exact ⟨rfl, hbump⟩

/-- A frame that the entry `e` of its host ring takes, its write-back the bytes `wb`. -/
def State.rxPut (s : State) (f p : Nat) (b wb : List Byte) (e : RingEntry) (rest : List RingEntry) : State :=
  let u := (s.updRing f (4 + p) (fun y => { y with posted := rest })).obsv (.hostWrite f (leAt e.desc 0 8) b)
  let v := u.obsv (.hostWrite f (u.entryAddr f (4 + p) e.idx) wb)
  let w := (v.bump (F.NET_RX_HOST_COUNT p)).obsv (.rx f p b)
  w.ringDone f (4 + p) e.idx

theorem State.rxToRing_takes {f : Nat} {b : List Byte} {x : Nat} {e : RingEntry} {rest : List RingEntry}
    (hf : f = b2n ((s.getF F.HIF_RX_ROUTE_FN).testBit p)) (hr : (s.ring f (4 + p)).posted = e :: rest) (hon : s.ringOn f (4 + p) = true)
    (he : e.bad = false) (hb : b.length ≤ leAt e.desc 8 4) : ∃ wb, s.rxToRing p b x = s.rxPut f p b wb e rest := by
  subst hf
  refine ⟨(s.wbWords 0 (some x) (lo32 b.length)).1, ?_⟩
  unfold State.rxToRing
  dsimp only
  rw [hr]
  dsimp only
  rw [hon, he]
  exact if_neg (Nat.not_lt.mpr hb)

theorem State.rxPut_keeps (b wb : List Byte) (e : RingEntry) (rest : List RingEntry) :
    Keeps [.regs, .host, .obs] s (s.rxPut f p b wb e rest) := by
  unfold State.rxPut
  extract_lets u v w
  have hu : Keeps [.regs, .host, .obs] s u := ((Keeps.refl _ s).updFn f _ (by decide)).obsv _ (by decide)
  have hw : Keeps [.regs, .host, .obs] s w := ((hu.obsv _ (by decide)).bump _ (by decide)).obsv _ (by decide)
  exact hw.trans ((State.ringDone_result (4 + p) e.idx).1)

theorem netRxHost_beside (hp : p < 4) : (F.NET_RX_HOST_COUNT p).off ∉ [R.HIF_RING_CI f (4 + p)] := by
  have hne : (F.NET_RX_HOST_COUNT p).off ≠ R.HIF_RING_CI f (4 + p) := by
    show 0xD0088 + 0x4000 * p ≠ 0xE1018 + 0x1000 * f + 0x40 * (4 + p)
    omega
  simpa using hne

theorem State.rxPut_result (hp : p < 4) (b wb : List Byte) (e : RingEntry) (rest : List RingEntry) (hf : f < s.host.fns.length)
    (hr : 4 + p < (s.fn f).rings.length) :
    .hostWrite f (leAt e.desc 0 8) b ∈ (s.rxPut f p b wb e rest).obs ∧ ((s.rxPut f p b wb e rest).ring f (4 + p)).posted = rest ∧
      (s.rxPut f p b wb e rest).getF (F.NET_RX_HOST_COUNT p) = (s.getF (F.NET_RX_HOST_COUNT p) + 1) % 2 ^ 32 ∧
      (s.rxPut f p b wb e rest).getF (F.HIF_RING_CI_CI f (4 + p)) = (e.idx + 1) % 2 ^ 16 := by
  unfold State.rxPut
  extract_lets u v w
  have hring : (w.ring f (4 + p)).posted = rest := congrArg Ring.posted (s.ring_updRing f (4 + p) _ hf hr)
  have hobs : .hostWrite f (leAt e.desc 0 8) b ∈ w.obs :=
    List.mem_cons_of_mem _ (List.mem_cons_of_mem _ List.mem_cons_self)
  have hcnt : w.getF (F.NET_RX_HOST_COUNT p) = (s.getF (F.NET_RX_HOST_COUNT p) + 1) % 2 ^ 32 :=
    (getF_bump_same v (F.NET_RX_HOST_COUNT p) (by show 0 + 32 ≤ 32; decide)).trans rfl
  generalize w = w at hring hobs hcnt ⊢
  obtain ⟨-, hk, hm, hpost, hci⟩ := State.ringDone_result (s := w) (f := f) (4 + p) e.idx
  exact ⟨hm _ hobs, (hpost _ _).trans hring, (hk.getF _ (netRxHost_beside hp)).trans hcnt, hci⟩

theorem State.rxToRing_keeps (b : List Byte) (x : Nat) : Keeps [.regs, .recq, .host, .obs] s (s.rxToRing p b x) := by
  have hdrop (a : Nat) : Keeps [.regs, .recq, .host, .obs] s (s.bump (F.HIF_RING_DROP_COUNT a (4 + p))) := (Keeps.refl _ s).bump _ (by decide)
  unfold State.rxToRing
  dsimp only
  cases hr : (s.ring (b2n ((s.getF F.HIF_RX_ROUTE_FN).testBit p)) (4 + p)).posted with
  | nil => exact hdrop _
  | cons e rest =>
    dsimp only
    refine Keeps.ite (fun _ => hdrop _) (fun _ => Keeps.ite (fun _ => ?_) (fun _ => Keeps.ite (fun _ => hdrop _) (fun _ => ?_)))
    · exact ((hdrop _).setF _ _ (by decide)).emit _ _ _ (by decide)
    · exact (State.rxPut_keeps b _ e rest).mono (by decide)

theorem State.rxTaken_keeps (b : List Byte) (x : Nat) :
    Keeps [.regs, .recq, .ports, .dmfQ, .host, .obs, .freeCtr, .firsts] s (s.rxTaken p b x) :=
  Keeps.ite (fun _ => (State.dmfTake_keeps b).mono (by decide)) (fun _ => Keeps.ite (fun _ => (State.rxToRing_keeps b x).mono (by decide))
    (fun _ => (Keeps.refl _ s).bump _ (by decide)))

theorem State.rxTaken_damuf {b : List Byte} {x : Nat} (h : s.isDamuf p b = true) : s.rxTaken p b x = s.dmfTake p b := if_pos h

theorem State.rxTaken_drop {b : List Byte} {x : Nat} (h : s.isDamuf p b = false) (hd : s.rxEnabled p b = false ∨ s.toPortMac p b = false) :
    s.rxTaken p b x = s.bump (F.NET_RX_DROP_COUNT p) := by
  have hcond : (s.rxEnabled p b && s.toPortMac p b) = false := Bool.and_eq_false_iff.mpr hd
  unfold State.rxTaken
  rw [h, hcond]
  rfl

theorem State.rxTaken_host {b : List Byte} {x : Nat} (h : s.isDamuf p b = false) (he : s.rxEnabled p b = true) (hm : s.toPortMac p b = true) :
    s.rxTaken p b x = s.rxToRing p b x := by
  unfold State.rxTaken
  rw [h, he, hm]
  rfl

/-! ### Path delay (R322-R324) -/

theorem State.ptp_updPtp (hp : p < s.ports.length) (g : PtpState → PtpState) : ((s.updPtp p g).port p).ptp = g (s.port p).ptp :=
  congrArg NetPort.ptp (s.port_updPort p hp _)

theorem State.updPtp_length (g : PtpState → PtpState) : (s.updPtp p g).ports.length = s.ports.length := updAt_length _ _ _

/-- A measurement leaves the list and is shown. -/
def State.pdTaken (s : State) (p : Nat) (m : Int) (rest : List Int) : State :=
  ((s.updPtp p (fun x => { x with meas := rest })).bump (F.NET_PD_COUNT_COUNT p)).wr64 (R.NET_PD_MPD_LO p) (R.NET_PD_MPD_HI p) (ofSigned 64 m)

/-- The running value becomes `r`, with `o` outliers. -/
def State.pdSet (s : State) (p : Nat) (r : Int) (o : Nat) : State :=
  (s.updPtp p (fun x => { x with run := some r, outliers := o })).wr64 (R.NET_PD_RUN_LO p) (R.NET_PD_RUN_HI p) (ofSigned 64 r)

section

variable {m r : Int} {rest : List Int}

theorem State.pdTaken_result (hp : p < s.ports.length) :
    Keeps [.regs, .ports] s (s.pdTaken p m rest) ∧ (s.pdTaken p m rest).ports.length = s.ports.length ∧
      ((s.pdTaken p m rest).port p).ptp = { (s.port p).ptp with meas := rest } ∧
      (s.pdTaken p m rest).getF (F.NET_PD_COUNT_COUNT p) = (s.getF (F.NET_PD_COUNT_COUNT p) + 1) % 2 ^ 32 ∧
      RegsKept [R.NET_PD_COUNT p, R.NET_PD_MPD_LO p, R.NET_PD_MPD_HI p] s (s.pdTaken p m rest) := by
  have hkeeps : Keeps [.regs, .ports] s (s.updPtp p (fun x => { x with meas := rest })) := (Keeps.refl _ s).ports _ (by decide)
  have hkept : RegsKept [R.NET_PD_COUNT p, R.NET_PD_MPD_LO p, R.NET_PD_MPD_HI p] s (s.updPtp p (fun x => { x with meas := rest })) := fun _ _ => rfl
  refine ⟨(hkeeps.bump _ (by decide)).wr64 _ _ _ (by decide), State.updPtp_length (fun x => { x with meas := rest }),
    s.ptp_updPtp hp (fun x => { x with meas := rest }), ?_,
    (hkept.bump _ (by simp [F.NET_PD_COUNT_COUNT])).wr64 _ _ _ (by simp) (by simp)⟩
  refine (getF_wr64_other _ _ _ _ _ ?_ ?_).trans (getF_bump_same _ _ (by show 0 + 32 ≤ 32; decide))
  · show 0xD0070 + 0x4000 * p ≠ 0xD0060 + 0x4000 * p
    omega
  · show 0xD0070 + 0x4000 * p ≠ 0xD0064 + 0x4000 * p
    omega

theorem State.pdSet_result (o : Nat) (hp : p < s.ports.length) :
    Keeps [.regs, .ports] s (s.pdSet p r o) ∧ ((s.pdSet p r o).port p).ptp = { (s.port p).ptp with run := some r, outliers := o } ∧
      RegsKept [R.NET_PD_RUN_LO p, R.NET_PD_RUN_HI p] s (s.pdSet p r o) := by
  have hkeeps : Keeps [.regs, .ports] s (s.updPtp p (fun x => { x with run := some r, outliers := o })) := (Keeps.refl _ s).ports _ (by decide)
  have hkept : RegsKept [R.NET_PD_RUN_LO p, R.NET_PD_RUN_HI p] s (s.updPtp p (fun x => { x with run := some r, outliers := o })) := fun _ _ => rfl
  exact ⟨hkeeps.wr64 _ _ _ (by decide), s.ptp_updPtp hp (fun x => { x with run := some r, outliers := o }), hkept.wr64 _ _ _ (by simp) (by simp)⟩

/-- A step is counted, recorded and shown. -/
theorem State.pdStep_result (old : Int) :
    Keeps [.regs, .recq] s (s.pdStep p old m) ∧ (s.pdStep p old m).bit F.NET_TS_STATUS_SUSPECT = true ∧
      (s.pdStep p old m).recq = s.recq ++ [⟨0, 0x0D04, pw p ++ psn64 old ++ psn64 m, s.tick⟩] ∧
      (s.pdStep p old m).getF (F.NET_PD_STEPS_COUNT p) = (s.getF (F.NET_PD_STEPS_COUNT p) + 1) % 2 ^ 32 ∧
      RegsKept [R.NET_TS_STATUS, R.NET_PD_STEPS p] s (s.pdStep p old m) := by
  have hsteps : (F.NET_PD_STEPS_COUNT p).off ≠ R.NET_TS_STATUS := by
    show 0xD0074 + 0x4000 * p ≠ 0xD3000
    omega
  have h1 : (s.setF F.NET_TS_STATUS_SUSPECT 1).bit F.NET_TS_STATUS_SUSPECT = true := bit_setF_one _ _ (by decide)
  have hkeeps := ((Keeps.refl [.regs] s).setF F.NET_TS_STATUS_SUSPECT 1 (by decide))
  have hkept : RegsKept [R.NET_TS_STATUS, R.NET_PD_STEPS p] s (s.setF F.NET_TS_STATUS_SUSPECT 1) :=
    (RegsKept.refl _ s).setF _ _ (by simp [F.NET_TS_STATUS_SUSPECT])
  have hcnt : (s.setF F.NET_TS_STATUS_SUSPECT 1).getF (F.NET_PD_STEPS_COUNT p) = s.getF (F.NET_PD_STEPS_COUNT p) :=
    getF_setF_other _ _ _ _ (by decide) (.inl hsteps)
  unfold State.pdStep
  generalize s.setF F.NET_TS_STATUS_SUSPECT 1 = v at h1 hkeeps hkept hcnt ⊢
  have h2 : (v.setF F.NET_TS_STATUS_SRC (s.getF F.NET_TS_STATUS_SRC ||| 2 ^ p)).bit F.NET_TS_STATUS_SUSPECT = true :=
    (bit_setF_other _ _ _ _ (by decide) (.inr (.inl (by decide)))).trans h1
  have hkeeps2 := hkeeps.setF F.NET_TS_STATUS_SRC (s.getF F.NET_TS_STATUS_SRC ||| 2 ^ p) (by decide)
  have hkept2 := hkept.setF F.NET_TS_STATUS_SRC (s.getF F.NET_TS_STATUS_SRC ||| 2 ^ p) (by simp [F.NET_TS_STATUS_SRC])
  have hcnt2 : (v.setF F.NET_TS_STATUS_SRC (s.getF F.NET_TS_STATUS_SRC ||| 2 ^ p)).getF (F.NET_PD_STEPS_COUNT p) =
      s.getF (F.NET_PD_STEPS_COUNT p) := (getF_setF_other _ _ _ _ (by decide) (.inl hsteps)).trans hcnt
  generalize v.setF F.NET_TS_STATUS_SRC (s.getF F.NET_TS_STATUS_SRC ||| 2 ^ p) = w at h2 hkeeps2 hkept2 hcnt2 ⊢
  have hfit : (F.NET_PD_STEPS_COUNT p).lo + (F.NET_PD_STEPS_COUNT p).width ≤ 32 := by show 0 + 32 ≤ 32; decide
  have hrec : w.recq = s.recq := hkeeps2 .recq (by decide)
  have htick : (w.bump (F.NET_PD_STEPS_COUNT p)).tick = s.tick := congrArg (fun x => x.frc.toNat) (hkeeps2 .time (by decide))
  generalize psn64 old = x
  generalize psn64 m = y
  refine ⟨((hkeeps2.mono (by decide)).bump _ (by decide)).emit _ _ _ (by decide), ?_, ?_, ?_,
    (hkept2.bump _ (by simp [F.NET_PD_STEPS_COUNT])).emit _ _ _⟩
  · rw [State.emit_bit, bit_bump_other _ _ _ hfit (.inl hsteps.symm)]
    exact h2
  · rw [← hrec, ← htick]
    rfl
  · rw [State.emit_getF, getF_bump_same _ _ hfit, hcnt2]
    rfl

theorem State.pdMeasure_none (h : (s.port p).ptp.meas = []) : s.pdMeasure p = s := by
  unfold State.pdMeasure
  dsimp only
  rw [h]

theorem State.pdMeasure_first (h : (s.port p).ptp.meas = m :: rest) (hr : (s.port p).ptp.run = none) :
    s.pdMeasure p = (s.pdTaken p m rest).pdSet p m 0 := by
  unfold State.pdMeasure
  dsimp only
  rw [h, hr]
  rfl

/-- A measurement over a running value, by its distance and the outliers before it. -/
theorem State.pdMeasure_next (h : (s.port p).ptp.meas = m :: rest) (hr : (s.port p).ptp.run = some r) :
    s.pdMeasure p =
      if (m - r).natAbs ≤ (s.pdTaken p m rest).getF (F.NET_PD_THR_THR p) then
        (s.pdTaken p m rest).pdSet p (r + (m - r).tdiv (2 ^ (s.pdTaken p m rest).getF (F.NET_PTP_CTRL_AVG p) : Nat)) 0
      else if (s.pdTaken p m rest).getF (F.NET_PTP_CTRL_CONSEC p) ≤ (s.port p).ptp.outliers + 1 then
        ((s.pdTaken p m rest).pdStep p r m).pdSet p m 0
      else (s.pdTaken p m rest).updPtp p (fun x => { x with outliers := x.outliers + 1 }) := by
  unfold State.pdMeasure
  dsimp only
  rw [h, hr]
  rfl

/-- The registers that a measurement shows its parts in. -/
def pdRegs (p : Nat) : List Nat := [R.NET_PD_COUNT p, R.NET_PD_MPD_LO p, R.NET_PD_MPD_HI p]

theorem pdRegs_beside (off : Nat) (h : off ≠ 0xD0070 + 0x4000 * p) (h1 : off ≠ 0xD0060 + 0x4000 * p) (h2 : off ≠ 0xD0064 + 0x4000 * p) :
    off ∉ pdRegs p := by
  intro hm
  rcases List.mem_cons.mp hm with e | hm
  · exact h e
  rcases List.mem_cons.mp hm with e | hm
  · exact h1 e
  · exact h2 (List.mem_singleton.mp hm)

/-- What a measurement does. -/
theorem State.pdMeasure_result (h : (s.port p).ptp.meas = m :: rest) (hp : p < s.ports.length) :
    Keeps [.regs, .recq, .ports] s (s.pdMeasure p) ∧ ((s.pdMeasure p).port p).ptp.meas = rest ∧
      (s.pdMeasure p).getF (F.NET_PD_COUNT_COUNT p) = (s.getF (F.NET_PD_COUNT_COUNT p) + 1) % 2 ^ 32 ∧
      ((s.port p).ptp.run = none → ((s.pdMeasure p).port p).ptp.run = some m ∧ (s.pdMeasure p).recq = s.recq) ∧
      (∀ r, (s.port p).ptp.run = some r → (m - r).natAbs ≤ s.getF (F.NET_PD_THR_THR p) → (s.pdMeasure p).recq = s.recq ∧
        ((s.pdMeasure p).port p).ptp.run = some (r + (m - r).tdiv (2 ^ s.getF (F.NET_PTP_CTRL_AVG p) : Nat)) ∧
        ((s.pdMeasure p).port p).ptp.outliers = 0) ∧
      (∀ r, (s.port p).ptp.run = some r → s.getF (F.NET_PD_THR_THR p) < (m - r).natAbs →
        (s.port p).ptp.outliers + 1 < s.getF (F.NET_PTP_CTRL_CONSEC p) → (s.pdMeasure p).recq = s.recq ∧
        ((s.pdMeasure p).port p).ptp.run = some r ∧ ((s.pdMeasure p).port p).ptp.outliers = (s.port p).ptp.outliers + 1) ∧
      (∀ r, (s.port p).ptp.run = some r → s.getF (F.NET_PD_THR_THR p) < (m - r).natAbs →
        s.getF (F.NET_PTP_CTRL_CONSEC p) ≤ (s.port p).ptp.outliers + 1 →
        ((s.pdMeasure p).port p).ptp.run = some m ∧ ((s.pdMeasure p).port p).ptp.outliers = 0 ∧
        (s.pdMeasure p).bit F.NET_TS_STATUS_SUSPECT = true ∧
        (s.pdMeasure p).recq = s.recq ++ [⟨0, 0x0D04, pw p ++ psn64 r ++ psn64 m, s.tick⟩] ∧
        (s.pdMeasure p).getF (F.NET_PD_STEPS_COUNT p) = (s.getF (F.NET_PD_STEPS_COUNT p) + 1) % 2 ^ 32) := by
  obtain ⟨hk, hlen, hptp, hcnt, hkept⟩ := State.pdTaken_result (m := m) (rest := rest) hp
  have hout (off : Nat) (h0 : off ≠ 0xD0070 + 0x4000 * p) (h1 : off ≠ 0xD0060 + 0x4000 * p) (h2 : off ≠ 0xD0064 + 0x4000 * p) :
      off ∉ [R.NET_PD_COUNT p, R.NET_PD_MPD_LO p, R.NET_PD_MPD_HI p] := pdRegs_beside off h0 h1 h2
  have hthr : (s.pdTaken p m rest).getF (F.NET_PD_THR_THR p) = s.getF (F.NET_PD_THR_THR p) :=
    hkept.getF _ (hout (0xD0058 + 0x4000 * p) (by omega) (by omega) (by omega))
  have havg : (s.pdTaken p m rest).getF (F.NET_PTP_CTRL_AVG p) = s.getF (F.NET_PTP_CTRL_AVG p) :=
    hkept.getF _ (hout (0xD0048 + 0x4000 * p) (by omega) (by omega) (by omega))
  have hcon : (s.pdTaken p m rest).getF (F.NET_PTP_CTRL_CONSEC p) = s.getF (F.NET_PTP_CTRL_CONSEC p) :=
    hkept.getF _ (hout (0xD0048 + 0x4000 * p) (by omega) (by omega) (by omega))
  have hstep : (s.pdTaken p m rest).getF (F.NET_PD_STEPS_COUNT p) = s.getF (F.NET_PD_STEPS_COUNT p) :=
    hkept.getF _ (hout (0xD0074 + 0x4000 * p) (by omega) (by omega) (by omega))
  have hnext (r : Int) (hr : (s.port p).ptp.run = some r) := State.pdMeasure_next (s := s) (p := p) h hr
  have hrec : (s.pdTaken p m rest).recq = s.recq := hk .recq (by decide)
  have htick : (s.pdTaken p m rest).tick = s.tick := congrArg (fun x => x.frc.toNat) (hk .time (by decide))
  have hfirst := State.pdMeasure_first (s := s) (p := p) h
  rw [hthr, havg, hcon] at hnext
  generalize s.pdTaken p m rest = v at hk hlen hptp hcnt hstep hnext hrec htick hfirst
  have hpv : p < v.ports.length := hlen.symm ▸ hp
  have hrun (off : Nat) (h0 : off ≠ 0xD0068 + 0x4000 * p) (h1 : off ≠ 0xD006C + 0x4000 * p) :
      off ∉ [R.NET_PD_RUN_LO p, R.NET_PD_RUN_HI p] := by
    intro hm
    rcases List.mem_cons.mp hm with e | hm
    · exact h0 e
    · exact h1 (List.mem_singleton.mp hm)
  have hcntOff := hrun (0xD0070 + 0x4000 * p) (by omega) (by omega)
  cases hr : (s.port p).ptp.run with
  | none =>
    obtain ⟨hk2, hptp2, hkept2⟩ := State.pdSet_result (s := v) (p := p) (r := m) 0 hpv
    rw [hfirst hr]
    exact ⟨(hk.trans hk2).mono (by decide), by rw [hptp2, hptp], (hkept2.getF _ hcntOff).trans hcnt,
      fun _ => ⟨by rw [hptp2], (hk2 .recq (by decide)).trans hrec⟩, nofun, nofun, nofun⟩
  | some r =>
    rw [hnext r hr]
    by_cases hnear : (m - r).natAbs ≤ s.getF (F.NET_PD_THR_THR p)
    · rw [if_pos hnear]
      obtain ⟨hk2, hptp2, hkept2⟩ := State.pdSet_result (s := v) (p := p) (r := r + (m - r).tdiv (2 ^ s.getF (F.NET_PTP_CTRL_AVG p) : Nat)) 0 hpv
      refine ⟨(hk.trans hk2).mono (by decide), by rw [hptp2, hptp], (hkept2.getF _ hcntOff).trans hcnt, nofun, ?_, ?_, ?_⟩
      · rintro _ ⟨⟩ -
        exact ⟨(hk2 .recq (by decide)).trans hrec, by rw [hptp2], by rw [hptp2]⟩
      · rintro _ ⟨⟩ hfar
        exact absurd hnear (by omega)
      · rintro _ ⟨⟩ hfar
        exact absurd hnear (by omega)
    · rw [if_neg hnear]
      by_cases hcons : s.getF (F.NET_PTP_CTRL_CONSEC p) ≤ (s.port p).ptp.outliers + 1
      · rw [if_pos hcons]
        obtain ⟨hk1, hsus, hrec1, hst1, hkept1⟩ := State.pdStep_result (s := v) (p := p) (m := m) r
        have hports : (v.pdStep p r m).ports = v.ports := hk1 .ports (by decide)
        have hcnt1 : (v.pdStep p r m).getF (F.NET_PD_COUNT_COUNT p) = v.getF (F.NET_PD_COUNT_COUNT p) := hkept1.getF _ (by
          intro hm
          rcases List.mem_cons.mp hm with e | hm
          · have he : 0xD0070 + 0x4000 * p = 0xD3000 := e
            omega
          · have he : 0xD0070 + 0x4000 * p = 0xD0074 + 0x4000 * p := List.mem_singleton.mp hm
            omega)
        generalize v.pdStep p r m = w at hk1 hsus hrec1 hst1 hports hcnt1 ⊢
        have hpw : p < w.ports.length := hports.symm ▸ hpv
        have hptpw : (w.port p).ptp = (v.port p).ptp := by rw [State.port, State.port, hports]
        obtain ⟨hk2, hptp2, hkept2⟩ := State.pdSet_result (s := w) (p := p) (r := m) 0 hpw
        refine ⟨((hk.mono (by decide)).trans (hk1.mono (by decide))).trans (hk2.mono (by decide)), by rw [hptp2, hptpw, hptp],
          ((hkept2.getF _ hcntOff).trans hcnt1).trans hcnt, nofun, ?_, ?_, ?_⟩
        · rintro _ ⟨⟩ hn
          exact absurd hn hnear
        · rintro _ ⟨⟩ - hfew
          exact absurd hcons (by omega)
        · rintro _ ⟨⟩ - -
          refine ⟨by rw [hptp2], by rw [hptp2], (hkept2.bit _ (hrun 0xD3000 (by omega) (by omega))).trans hsus, ?_, ?_⟩
          · rw [hk2 .recq (by decide), hrec1, hrec, htick]
          · rw [hkept2.getF _ (hrun (0xD0074 + 0x4000 * p) (by omega) (by omega)), hst1, hstep]
      · rw [if_neg hcons]
        have hk2 : Keeps [.ports] v (v.updPtp p (fun x => { x with outliers := x.outliers + 1 })) := (Keeps.refl _ v).ports _ (by decide)
        have hptp2 := v.ptp_updPtp hpv (fun x => { x with outliers := x.outliers + 1 })
        refine ⟨(hk.mono (by decide)).trans (hk2.mono (by decide)), by rw [hptp2, hptp],
          (State.getF_of_regs (hk2 .regs (by decide)) _).trans hcnt, nofun, ?_, ?_, ?_⟩
        · rintro _ ⟨⟩ hn
          exact absurd hn hnear
        · rintro _ ⟨⟩ - -
          exact ⟨hrec, by rw [hptp2, hptp]; exact hr, by rw [hptp2, hptp]⟩
        · rintro _ ⟨⟩ - hmany
          exact absurd hmany hcons

end

/-! ### O54 -/

theorem State.promote_result (hp : p < s.ports.length) :
    Keeps [.ports] s (s.promote p) ∧ ((s.promote p).port p).hostQ =
      (s.port p).hostQ.map (fun h => if h.since + 500000 ≤ s.tick then { h with promoted := true } else h) :=
  ⟨(Keeps.refl _ s).ports _ (by decide), congrArg NetPort.hostQ (s.port_updPort p hp (fun x => { x with
    hostQ := x.hostQ.map (fun h => if h.since + 500000 ≤ s.tick then { h with promoted := true } else h) }))⟩

theorem State.suspectSet_result :
    Keeps [.regs] s s.suspectSet ∧ RegsKept [R.NET_TS_STATUS] s s.suspectSet ∧ s.suspectSet.bit F.NET_TS_STATUS_SUSPECT = true :=
  ⟨(Keeps.refl _ s).setF _ _ (by decide), (RegsKept.refl _ s).setF _ _ (by decide), bit_setF_one _ _ (by decide)⟩

theorem State.suspectAck_result :
    Keeps [.regs] s s.suspectAck ∧ RegsKept [R.NET_TS_STATUS] s s.suspectAck ∧ s.suspectAck.bit F.NET_TS_STATUS_SUSPECT = false ∧
      s.suspectAck.getF F.NET_TS_STATUS_SRC = 0 :=
  ⟨((Keeps.refl _ s).setF _ _ (by decide)).setF _ _ (by decide), ((RegsKept.refl _ s).setF _ _ (by decide)).setF _ _ (by decide),
    (bit_setF_other _ _ _ _ (by decide) (.inr (.inl (by decide)))).trans (bit_setF_zero _ _ (by decide)),
    getF_setF_same _ _ _ (by decide)⟩

/-- A bad frame is counted by what is wrong with it. -/
theorem State.frameReceive_faulty {sub : Nat} {w : List Byte} {good : Bool} (h : s.linkUp p = true)
    (hg : good = (decide (4 ≤ w.length) && leAt w (w.length - 4) 4 == (crc32 (w.take (w.length - 4))).toNat))
    (hw : good = false ∨ 9216 < w.length) :
    Keeps [.regs] s (s.frameReceive p sub w) ∧
      RegsKept [if good then R.NET_RX_OVERSIZE p else R.NET_RX_FCS p] s (s.frameReceive p sub w) ∧
      (good = false → (s.frameReceive p sub w).getF (F.NET_RX_FCS_COUNT p) = (s.getF (F.NET_RX_FCS_COUNT p) + 1) % 2 ^ 32) ∧
      (good = true → (s.frameReceive p sub w).getF (F.NET_RX_OVERSIZE_COUNT p) = (s.getF (F.NET_RX_OVERSIZE_COUNT p) + 1) % 2 ^ 32) := by
  have hkeeps (f : Fld) : Keeps [.regs] s (s.bump f) := (Keeps.refl _ s).bump _ (by decide)
  cases good with
  | false =>
    rw [State.frameReceive_bad h hg.symm]
    exact ⟨hkeeps _, (RegsKept.refl _ s).bump _ (List.mem_singleton.mpr rfl),
      fun _ => getF_bump_same _ _ (by show 0 + 32 ≤ 32; decide), nofun⟩
  | true =>
    rw [State.frameReceive_long h hg.symm (hw.resolve_left nofun)]
    exact ⟨hkeeps _, (RegsKept.refl _ s).bump _ (List.mem_singleton.mpr rfl), nofun,
      fun _ => getF_bump_same _ _ (by show 0 + 32 ≤ 32; decide)⟩

end

end Sys2Proof.Machine

open Sys2Proof.Machine in
/-- Settles O54: each row by what its effect says: a received frame by the first thing that stops it, a host frame by its faults, and a
measurement by its distance from the running value. -/
theorem framesAtPorts : Obligations.FramesAtPorts := by
  unfold Obligations.FramesAtPorts
  refine ⟨fun p x w s h => congrArg Host.Outcome.next (State.frameReceive_down h),
    fun p x w s good h hg hw => ⟨_, rfl, State.frameReceive_faulty h hg hw⟩, fun p x b s h hb he => ⟨_, rfl, ?_⟩,
    fun f p x cut s h => congrArg Host.Outcome.next (hostFrameTransmit_waits x.val cut h),
    fun f p x cut s h hh hl hs hr => ?_, fun p s hl => ⟨_, rfl, State.promote_result (by omega)⟩,
    fun p s h => congrArg Host.Outcome.next (State.pdMeasure_none h),
    fun p s m rest h hl => ⟨_, rfl, State.pdMeasure_result h (by omega)⟩, fun id s hg => ⟨?_, ?_⟩⟩
  · obtain ⟨l, y, he⟩ := State.frameReceive_good (sub := x.val) h hb he
    rw [he]
    have hports : Keeps [.regs, .recq, .ports, .dmfQ, .host, .obs, .freeCtr, .firsts] s { s with ports := l } :=
      (Keeps.refl _ s).ports _ (by decide)
    refine ⟨hports.trans (State.rxTaken_keeps b y), fun hd hup hsz hq => ?_, fun hd hno => ?_, fun hd hno => ?_,
      fun f e rest hd hen hm hf hr hon hbad hsz hfn hrl => ?_⟩
    · rw [State.rxTaken_damuf (s := { s with ports := l }) hd, State.dmfTake_joins (s := { s with ports := l }) hup hsz hq]
      exact ⟨rfl, rfl⟩
    · rw [State.rxTaken_damuf (s := { s with ports := l }) hd]
      exact State.dmfTake_drops (s := { s with ports := l }) hno
    · rw [State.rxTaken_drop (s := { s with ports := l }) hd hno]
      exact ⟨rfl, getF_bump_same _ _ (by show 0 + 32 ≤ 32; decide)⟩
    · rw [State.rxTaken_host (s := { s with ports := l }) hd hen hm]
      obtain ⟨wb, hput⟩ := State.rxToRing_takes (s := { s with ports := l }) (x := y) hf hr hon hbad hsz
      rw [hput]
      have hf2 : f < s.host.fns.length := by
        rw [hfn, hf]
        cases (s.getF F.HIF_RX_ROUTE_FN).testBit p <;> decide
      exact State.rxPut_result (s := { s with ports := l }) p.isLt b wb e rest hf2 (hrl.symm ▸ (by omega : 4 + p.val < 10))
  · obtain ⟨t, ht, h⟩ := hostFrameTransmit_result x.val cut p.isLt hh hl hs hr
    exact ⟨t, congrArg Host.Outcome.next ht, h⟩
  · obtain ⟨hk, hr, hb⟩ := State.suspectSet_result (s := s)
    exact gated_next _ hg (by decide) ⟨(hk.mono (by decide)).bpReg _ _ _ (by decide), hr.bpReg _ _ _, hb⟩
  · obtain ⟨hk, hr, hb, hs⟩ := State.suspectAck_result (s := s)
    exact gated_next _ hg (by decide) ⟨(hk.mono (by decide)).bpReg _ _ _ (by decide), hr.bpReg _ _ _, hb, hs⟩

end

section
/-!
SUPPORT. The sample path (R82, R129, R165, R181, R280): the state that refutes O38. A capture may name a continuous stream as its own, and
what a resume after a halt declares of the capture then counts for that stream beside the instant of the edge.
-/

namespace Sys2Proof.Machine

/-! ### A continuous stream that a capture names -/

/-- A capture of label 0, with nothing of it written. -/
def strayCapture : Capture :=
  { id := 0, sn := 0, p := 0, q := 1, chans := [0], b := 2, b8conv := false, csh := 0, stream := 0, size := 64, off := 0, written := 0,
    lost := [], state := 0, reform := false, copyEnd := 0, anchor := none }

/-- Reset, but in a run at label 28, with stream 0 an active TAP stream, and the ring not started since a halt. -/
def strayTap : State :=
  let s := (State.reset.setF F.AFE_PLL_STATUS_LOCKED 1).setF (F.STR_DEF_KIND 0) 1
  { s with
    run := { s.run with running := true, next := 28 }
    strs := updAt (fun x => { x with active := true }) s.strs 0
    trg := { s.trg with caps := [strayCapture], r0 := none } }

/-- What the stream is, and what the edge makes of it. -/
theorem strayTap_facts :
    (strayTap.bit F.AFE_PLL_STATUS_LOCKED = true ∧ strayTap.halted = false ∧ strayTap.applySt ≠ 2 ∧ strayTap.run.next = 28 ∧
      strayTap.run.running = true ∧ strayTap.pastReform 28 = false) ∧
    (strayTap.strs.length = 64 ∧ strayTap.strCont 0 = true ∧ (strayTap.str 0).active = true ∧ (strayTap.str 0).ending = none ∧
      strayTap.strExists 0 = true ∧ strayTap.strLat 0 = 27) ∧
    (strayTap.produced 1 = true ∧ 1 % max 1 (strayTap.strD 0) = 0 ∧ (strayTap.str 0).insts = [] ∧ (strayTap.str 0).declared = 0) ∧
    ((strayTap.sampleEdge [] []).str 0).insts = [⟨1, []⟩] ∧ ((strayTap.sampleEdge [] []).str 0).declared = 1 := by
  decide +kernel

end Sys2Proof.Machine

open Sys2Proof.Machine in
/-- Refutes O38: at the first edge of `strayTap` after a halt the capture declares its one label under stream 0, so that the stream counts
one declared source-sample, although the instant that it produces has none. -/
theorem not_samplePathValues : ¬ Obligations.SamplePathValues := by
  unfold Obligations.SamplePathValues
  rintro ⟨-, hstreams, -, -⟩
  obtain ⟨⟨hlock, hhalt, happly, hnext, hrun, hpast⟩, ⟨hlen, hcont, hact, hend, hex, hlat⟩, ⟨hprod, hmod, hins0, hdecl0⟩, hins, hdecl⟩ :=
    strayTap_facts
  obtain ⟨t, vals, ht, -, hinsts, -, hdeclared, -⟩ := hstreams [] [] strayTap 0 28 1 hlock hhalt happly hnext.symm hrun hpast (by decide)
    (by rw [hlen]; decide) hcont hact hend hex (by rw [hlat]; decide) (by rw [hlat]) hprod hmod
  have hedge : strayTap.sampleEdge [] [] = t := Host.Outcome.next.inj ht
  rw [hedge] at hins hdecl
  rw [hins, hins0] at hinsts
  have hvals : vals = [] := by
    have h := congrArg (fun l => (l.map (·.vals)).flatten) hinsts
    simpa using h.symm
  rw [hdecl, hdecl0, hvals] at hdeclared
  exact absurd hdeclared (by decide)

end

section
/-!
SUPPORT. What puts no image into use: the steps of a start, a reset and a load beside the one that takes the image.
-/

namespace Sys2Proof.Machine

theorem foldl_image {α : Type} (g : State → α → State) (l : List α) (s : State) (h : ∀ s x, (g s x).image = s.image) :
    (l.foldl g s).image = s.image := by
  induction l generalizing s with
  | nil => rfl
  | cons a t ih => rw [List.foldl_cons, ih, h]

theorem State.dropBg_image (s : State) (g : Nat) : (s.dropBg g).image = s.image :=
  State.dropBg_keeps (s := s) (g := g) .image (by decide)

theorem State.withdraw_image (s : State) (a u : Nat) : (s.withdraw a u).image = s.image :=
  State.withdraw_keeps (s := s) (a := a) (u := u) .image (by decide)

theorem State.coefRelease_image (s : State) : (s.coefRelease).image = s.image :=
  State.coefRelease_keeps (s := s) .image (by decide)

theorem State.applyIdle_image (s : State) : (s.applyIdle).image = s.image :=
  State.applyIdle_keeps (s := s) .image (by decide)

theorem State.loseAll_image (s : State) (cause : Nat) (l : List Packet) : (s.loseAll cause l).image = s.image :=
  State.loseAll_keeps (s := s) (cause := cause) (l := l) .image (by decide)

theorem State.fqTrim_image (s : State) (n : Nat) : (s.fqTrim n).image = s.image :=
  State.fqTrim_keeps (s := s) (n := n) .image (by decide)

theorem State.fqRelease_image (s : State) (n : Nat) (p : Packet) : (s.fqRelease n p).image = s.image :=
  State.fqRelease_keeps (s := s) (n := n) (p := p) .image (by decide)

theorem State.clkMove_image (s : State) (was : State) : (s.clkMove was).image = s.image :=
  State.clkMove_keeps (s := s) (was := was) .image (by decide)

theorem State.showCal_image (s : State) : (s.showCal).image = s.image :=
  State.showCal_keeps (s := s) .image (by decide)

theorem State.pinsMove_image (s : State) (was : State) (l : List Pin) : (s.pinsMove was l).image = s.image :=
  State.pinsMove_keeps (s := s) (was := was) (l := l) .image (by decide)

theorem State.clearHistory_image (s : State) (p : Nat → Bool) : (s.clearHistory p).image = s.image :=
  State.clearHistory_keeps (s := s) (p := p) .image (by decide)

theorem State.pauseBg_image (s : State) (g : Nat) : (s.pauseBg g).image = s.image :=
  State.pauseBg_keeps (s := s) (g := g) .image (by decide)

theorem State.flushEnds_image (s : State) (b : Nat) : (s.flushEnds b).image = s.image :=
  State.flushEnds_keeps (s := s) (b := b) .image (by decide)

theorem State.regsReset_image (s : State) (p : Nat → Bool) : (s.regsReset p).image = s.image :=
  State.regsReset_keeps (s := s) (p := p) .image (by decide)

theorem State.sigsGo_image (s : State) (i : Nat) : (s.sigsGo i).image = s.image :=
  State.sigsGo_keeps (s := s) (i := i) .image (by decide)

theorem State.identLeave_image (s : State) (id : Ident) : (s.identLeave id).image = s.image :=
  State.identLeave_keeps (s := s) (id := id) .image (by decide)

theorem State.fqInsert_image (s : State) (q : Packet) (before : Packet → Bool) : (s.fqInsert q before).image = s.image :=
  State.fqInsert_keeps (s := s) (q := q) (before := before) .image (by decide)

theorem State.pinEdge_image (t was : State) (p : Pin) (k v : Nat) : (t.pinEdge was p k v).image = t.image :=
  t.pinEdge_keeps was p k v .image (by decide)

theorem State.updOut_image (s : State) (o : Nat) (f : TrigOut → TrigOut) : (s.updOut o f).image = s.image := rfl

theorem State.trigPins_image (s : State) : s.trigPins.image = s.image :=
  foldl_image _ _ _ (fun u o => by rw [State.pinEdge_image, State.updOut_image])

theorem State.condsPrefill_image (s : State) : s.condsPrefill.image = s.image := s.condsPrefill_frame.keeps .image (by decide)

theorem State.learnMatch_image (s : State) (g : Nat) : (s.learnMatch g).image = s.image :=
  (s.learnMatch_frame g (fun _ => True)).keeps .image (by decide)

theorem State.laneFree_image (s : State) (l : Nat) : (s.laneFree l).image = s.image := (s.laneFree_frame l).1.keeps .image (by decide)

theorem State.setCtx_image (s : State) (n st owner : Nat) : (s.setCtx n st owner).image = s.image := rfl

theorem State.fqFresh_image (s : State) (n : Nat) : (s.fqFresh n).image = s.image := (s.fqFresh_frame n).1 .image (by decide)

theorem State.showBank_image (s : State) (c : Nat) : (s.showBank c).image = s.image := rfl

theorem State.setAlert_image (s : State) (n : Nat) : (s.setAlert n).image = s.image := (s.setAlert_frame n).keeps .image (by decide)

theorem State.mntFault_image (s : State) (k : Nat) (tr : Bool) (loc : Nat) : (s.mntFault k tr loc).image = s.image := by
  unfold State.mntFault
  simp only [State.emit_image, State.setAlert_image, State.setF_image, State.setB_image, State.bump_image, apply_ite State.image, ite_self]

theorem State.takeOut_image (s : State) (i n : Nat) : (s.takeOut i n).2.image = s.image := State.takeOut_keeps (s := s) i n .image (by decide)

theorem State.loseP_image (s : State) (cause : Nat) (p : Packet) : (s.loseP cause p).image = s.image :=
  (State.loseP_losesOf (s := s) cause p).1 .image (by decide)

theorem State.putFields_image (s : State) (m : Nat → Word) (l : List (Nat × Word)) : (s.putFields m l).image = s.image :=
  foldl_image _ _ _ fun _ _ => rfl

theorem State.dropActs_image (s : State) : s.dropActs.image = s.image := foldl_image _ _ _ fun _ _ => rfl

theorem State.wqStart_image (s : State) : s.wqStart.image = s.image := by
  unfold State.wqStart
  rw [foldl_image]
  exact fun _ _ => rfl

theorem State.primaries_image (s : State) (m : Image) : (s.primaries m).image = s.image := by
  unfold State.primaries
  rw [foldl_image]
  exact fun _ _ => rfl

theorem State.pathStart_image (s : State) : s.pathStart.image = s.image := rfl

theorem State.chainsStart_image (s : State) : s.chainsStart.image = s.image := by
  unfold State.chainsStart
  rw [State.pathStart_image, foldl_image]
  exact fun u c => by rw [State.setF_image, State.showBank_image, State.setF_image]

theorem State.showBanks_image (s : State) (q : Nat) : (s.showBanks q).image = s.image := by
  unfold State.showBanks
  rw [foldl_image]
  exact fun _ _ => rfl

theorem State.bindTable_image (s : State) (m : Image) : (s.bindTable m).image = s.image := by
  unfold State.bindTable
  split
  · exact State.setB_image _ _ _
  · rw [State.setF_image, State.setF_image, foldl_image]
    exact fun _ _ => rfl


theorem State.worked_image (s : State) (d : Nat) : (s.worked d).image = s.image := rfl

theorem State.memZero_image (s : State) : (s.memZero).image = s.image := rfl

theorem State.lateGaps_image (s : State) (i : Nat) : (s.lateGaps i).image = s.image := by
  unfold State.lateGaps
  simp only [State.updStr_image, State.fqInsert_image, foldl_image, implies_true]

theorem State.carries_image (s : State) (i : Nat) (a : Nat × Nat) (later : List Packet) : (s.carries i a later).image = s.image := by
  unfold State.carries
  simp only [State.updStr_image, apply_ite State.image, ite_self]

theorem State.lateAnchor_image (s : State) (i : Nat) : (s.lateAnchor i).image = s.image := by
  unfold State.lateAnchor
  grind [State.updStr_image, State.fqInsert_image, State.carries_image, State.updFq_image]

theorem State.loseSent_image (s : State) (cause : Nat) (p : Packet) : (s.loseSent cause p).image = s.image := by
  unfold State.loseSent
  simp only [State.loseP_image, State.lateGaps_image, State.lateAnchor_image, apply_ite State.image, ite_self]

theorem State.setDom_image (s : State) (d n : Nat) : (s.setDom d n).image = s.image := by
  unfold State.setDom
  simp only [State.setF_image]

theorem State.clearLatches_image (s : State) (id : Ident) : (s.clearLatches id).image = s.image := rfl

theorem State.setFac_image (s : State) (low : Bool) (k : Nat) (f : Option CalFactor) : (s.setFac low k f).image = s.image := rfl

theorem State.updGrp_image (s : State) (g : Nat) (f : CalGroup → CalGroup) : (s.updGrp g f).image = s.image := rfl

theorem State.serve_image (s : State) (g p : Nat) : (s.serve g p).image = s.image := by
  unfold State.serve
  simp only [State.updGrp_image]

theorem State.adopt_image (s : State) (g p : Nat) : (s.adopt g p).image = s.image := by
  unfold State.adopt
  simp only [State.setF_image, State.learnMatch_image, State.serve_image, State.emit_image, apply_ite State.image, ite_self]

theorem State.setCalHalf_image (s : State) (h : Nat) (x : CalHalf) : (s.setCalHalf h x).image = s.image := rfl

theorem State.readRec_image (s : State) (h i : Nat) : (State.readRec s h i).2.image = s.image := by
  unfold State.readRec
  grind [State.mntFault_image]

theorem State.calRecord_image (s : State) (i : Nat) : (State.calRecord s i).2.image = s.image := by
  unfold State.calRecord
  grind [State.readRec_image]

theorem State.loadRec_image (s : State) (k : Nat) (low : Bool) : (s.loadRec k low).image = s.image := by
  unfold State.loadRec
  grind [State.calRecord_image, State.setFac_image, State.wr_image]

theorem State.loadConv_image (s : State) (k : Nat) : (s.loadConv k).image = s.image := by
  unfold State.loadConv
  grind [State.loadRec_image]

theorem State.loadAdopt_image (s : State) (g : Nat) : (s.loadAdopt g).image = s.image := by
  unfold State.loadAdopt
  grind [State.adopt_image, State.setF_image, State.learnMatch_image, State.serve_image]

theorem State.loadQuad_image (s : State) (q : Nat) : (s.loadQuad q).image = s.image := by
  unfold State.loadQuad
  simp only [State.loadConv_image, State.loadAdopt_image, State.showCal_image, foldl_image, apply_ite State.image,
      ite_self, implies_true]

theorem State.storeUsed_image (s : State) : (s.storeUsed).image = s.image := by
  unfold State.storeUsed
  simp only [State.setB_image]

theorem State.copyAbandon_image (s : State) : (s.copyAbandon).image = s.image := by
  unfold State.copyAbandon
  simp only [State.free_image, State.wr_image, State.setF_image, foldl_image, apply_ite State.image, ite_self, implies_true]

theorem State.flashRead_image (s : State) (twice once_ : Bool) (loc : Nat) : (s.flashRead twice once_ loc).image = s.image := by
  unfold State.flashRead
  simp only [State.mntFault_image, apply_ite State.image, ite_self]

theorem State.takeHalf_image (s : State) (h : Nat) : (s.takeHalf h).image = s.image := by
  unfold State.takeHalf
  simp only [State.putFields_image, State.setF_image, apply_ite State.image, ite_self]

theorem State.takeDefaults_image (s : State) : (s.takeDefaults).image = s.image := by
  unfold State.takeDefaults
  simp only [State.putFields_image, State.setF_image]

theorem State.setHeadRead_image (s : State) (gl : List Nat) (h : Nat) : (s.setHeadRead gl h).image = s.image := by
  unfold State.setHeadRead
  simp only [State.flashRead_image]

theorem State.setTry_image (s : State) (gl : List Nat) (h : Nat) : (State.setTry s gl h).2.image = s.image := by
  unfold State.setTry
  grind [State.flashRead_image, State.takeHalf_image]

theorem State.restoreSets_image (s : State) (gl : List Nat) : (s.restoreSets gl).image = s.image := by
  unfold State.restoreSets
  simp only [State.setHeadRead_image, State.setTry_image, State.takeDefaults_image, apply_ite State.image, ite_self]

theorem State.calHeads_image (s : State) (gl : List Nat) : (s.calHeads gl).image = s.image := by
  unfold State.calHeads
  simp only [State.setCalHalf_image, State.flashRead_image, foldl_image, apply_ite State.image, ite_self, implies_true]

theorem State.setPaused_image (s : State) (a u : Nat) (b : Bool) : (s.setPaused a u b).image = s.image := rfl

theorem State.endAct_image (s : State) (a u : Nat) : (s.endAct a u).image = s.image := by
  unfold State.endAct
  simp only [State.worked_image, apply_ite State.image, ite_self]

theorem State.updTo_image (s : State) (n : Nat) : (s.updTo n).image = s.image := by
  unfold State.updTo
  simp only [State.setF_image]

theorem State.updClear_image (s : State) : (s.updClear).image = s.image := by
  unfold State.updClear
  simp only [State.setF_image]

theorem State.dropWrites_image (s : State) : (s.dropWrites).image = s.image := by
  unfold State.dropWrites
  simp only [State.withdraw_image, State.endAct_image]

theorem State.updRelease_image (s : State) (ident : Nat) : (s.updRelease ident).image = s.image := by
  unfold State.updRelease
  simp only [State.setF_image, State.updTo_image, State.updClear_image, State.worked_image, State.emit_image]

theorem State.updEnd_image (s : State) (ident : Nat) : (s.updEnd ident).image = s.image := by
  unfold State.updEnd
  simp only [State.setF_image, State.dropWrites_image, State.updRelease_image, apply_ite State.image, ite_self]

theorem State.updOwnerReset_image (s : State) (i : Nat) : (s.updOwnerReset i).image = s.image := by
  unfold State.updOwnerReset
  simp only [State.updEnd_image, apply_ite State.image, ite_self]

theorem State.freeCtx_image (s : State) (n : Nat) : (s.freeCtx n).image = s.image := by
  unfold State.freeCtx
  simp only [State.setCtx_image, State.updCtx_image]

theorem State.sntReset_image (s : State) : (s.sntReset).image = s.image := by
  unfold State.sntReset
  simp only [State.laneFree_image, State.freeCtx_image, foldl_image, implies_true]

theorem State.locksReset_image (s : State) (i : Nat) : (s.locksReset i).image = s.image := by
  unfold State.locksReset
  simp only [State.setF_image, State.emit_image, foldl_image, apply_ite State.image, ite_self, implies_true]

theorem State.composeReset_image (s : State) (i : Nat) : (s.composeReset i).image = s.image := by
  unfold State.composeReset
  simp only [State.setF_image, foldl_image, apply_ite State.image, ite_self, implies_true]

theorem State.identReset_image (s : State) (id : Ident) : (s.identReset id).image = s.image := by
  unfold State.identReset
  simp only [State.locksReset_image, State.composeReset_image, State.clearLatches_image, State.updOwnerReset_image]

theorem State.updPtp_image (s : State) (p : Nat) (f : PtpState → PtpState) : (s.updPtp p f).image = s.image := by
  unfold State.updPtp
  simp only [State.updPort_image]

theorem State.saveRestart_image (s was : State) : (s.saveRestart was).image = s.image := by
  unfold State.saveRestart
  simp only [apply_ite State.image, ite_self]

theorem State.settingsIn_image (s was : State) : (s.settingsIn was).image = s.image := by
  unfold State.settingsIn
  simp only [State.pinsMove_image, State.clkMove_image, State.updPtp_image, State.saveRestart_image, foldl_image,
      apply_ite State.image, ite_self, implies_true]

theorem State.pllTake_image (s : State) : (s.pllTake).image = s.image := by
  unfold State.pllTake
  simp only [State.setF_image, State.showCal_image]

theorem State.pllGo_image (s : State) (idle : Bool) : (s.pllGo idle).image = s.image := by
  unfold State.pllGo
  simp only [State.pllTake_image, State.setF_image, apply_ite State.image, ite_self]

theorem State.pllLocked_image (s : State) : (s.pllLocked).image = s.image := by
  rw [State.pllLocked]
  split
  · dsimp only
    split
    · rw [State.setF_image, State.wr64_image, State.clearHistory_image, State.setF_image]
    · rw [State.clearHistory_image, State.setF_image]
  · rfl

theorem State.quadRise_image (s : State) (q : Nat) : (s.quadRise q).image = s.image := by
  unfold State.quadRise
  simp only [State.regsReset_image, State.showBanks_image, State.flushEnds_image, State.setDom_image, State.loadQuad_image,
      State.clearHistory_image, State.setF_image, foldl_image, apply_ite State.image, ite_self, implies_true]

theorem State.failover_image (s : State) (p i cut : Nat) : (s.failover p i cut).image = s.image := by
  unfold State.failover
  simp only [State.takeOut_image, State.loseAll_image, State.setF_image, State.setB_image, State.emit_image, State.updStr_image,
      apply_ite State.image, ite_self]

theorem State.cutSending_image (s : State) (p : Nat) : (State.cutSending s p).2.image = s.image := by
  unfold State.cutSending
  grind [State.updPort_image, State.updFq_image, State.fqRelease_image, State.fqTrim_image, State.loseSent_image]

theorem State.cancelFailback_image (s : State) (p : Nat) : (s.cancelFailback p).image = s.image := by
  unfold State.cancelFailback
  simp only [State.setF_image, foldl_image, apply_ite State.image, ite_self, implies_true]

theorem State.linkBits_image (s : State) (p why : Nat) : (s.linkBits p why).image = s.image := by
  unfold State.linkBits
  simp only [State.setF_image, State.bump_image, State.emit_image, State.worked_image, State.updPort_image,
      apply_ite State.image, ite_self]

theorem State.linkFell_image (s : State) (p : Nat) : (s.linkFell p).image = s.image := by
  unfold State.linkFell
  simp only [State.cutSending_image, State.cancelFailback_image, State.failover_image, foldl_image, implies_true]

theorem State.linksFall_image (s : State) (ports : List Nat) (why : Nat) : (s.linksFall ports why).image = s.image := by
  unfold State.linksFall
  simp only [State.linkBits_image, State.clkMove_image, State.linkFell_image, foldl_image, implies_true]

theorem State.portStart_image (s : State) (p : Nat) : (s.portStart p).image = s.image := by
  unfold State.portStart
  simp only [State.updPort_image, State.setF_image, apply_ite State.image, ite_self]

theorem State.restartPort_image (s : State) (p : Nat) : (s.restartPort p).image = s.image := by
  unfold State.restartPort
  simp only [State.linksFall_image, State.setF_image, State.portStart_image]

theorem State.fqStart_image (s : State) : (s.fqStart).image = s.image := by
  unfold State.fqStart
  simp only [State.fqFresh_image, foldl_image, implies_true]

theorem State.memStart_image (s : State) : (s.memStart).image = s.image := by
  unfold State.memStart
  simp only [State.regsReset_image, State.setDom_image, State.memZero_image, apply_ite State.image, ite_self]

theorem State.quadDrop_image (s : State) (q : Nat) : (s.quadDrop q).image = s.image := by
  unfold State.quadDrop
  simp only [State.pauseBg_image, State.setPaused_image, State.setF_image, State.setDom_image, foldl_image,
      apply_ite State.image, ite_self, implies_true]

theorem State.powerQuads_image (s : State) (used : Nat) : (s.powerQuads used).image = s.image := by
  unfold State.powerQuads
  simp only [State.setF_image, State.quadRise_image, State.quadDrop_image, State.showCal_image, foldl_image,
      apply_ite State.image, ite_self, implies_true]

theorem State.portsAfter_image (s : State) (modes : List Nat) : (s.portsAfter modes).image = s.image := by
  unfold State.portsAfter
  simp only [State.restartPort_image, foldl_image, apply_ite State.image, ite_self, implies_true]

theorem State.pllRecommit_image (s : State) : (s.pllRecommit).image = s.image := by
  unfold State.pllRecommit
  simp only [State.pllTake_image, State.pllGo_image, State.setF_image, apply_ite State.image, ite_self]

theorem State.keepOrDefault_image (s : State) (same : Bool) : (s.keepOrDefault same).image = s.image := by
  unfold State.keepOrDefault
  simp only [State.takeDefaults_image, State.setF_image, apply_ite State.image, ite_self]

theorem State.portsStart_image (s : State) : (s.portsStart).image = s.image := by
  unfold State.portsStart
  simp only [State.portStart_image, foldl_image, apply_ite State.image, ite_self, implies_true]

theorem State.trg_image (s : State) (x : TrigState) : ({ s with trg := x } : State).image = s.image := rfl

theorem State.settled_image (s : State) : s.settled.image = s.image := by
  unfold State.settled
  extract_lets u x v
  have hv : v.image = u.image := u.trg_image x
  rw [State.setF_image, State.condsPrefill_image, hv, State.setF_image, State.fqStart_image]

theorem State.domLeave_image (s : State) (d : Nat) : (s.domLeave d).image = s.image := by
  unfold State.domLeave
  split
  · exact State.identLeave_image _ _
  · rw [State.sigsGo_image, State.sigsGo_image, State.identLeave_image, State.identLeave_image]
  · rw [State.sigsGo_image, State.identLeave_image]
  · rfl

theorem State.domsOn_image (s : State) : s.domsOn.image = s.image := by
  unfold State.domsOn
  simp only [State.setDom_image, State.domLeave_image, State.worked_image, foldl_image, implies_true]

theorem State.pllRestore_image (s : State) : s.pllRestore.image = s.image := by
  unfold State.pllRestore
  split
  · rw [State.pllLocked_image, State.pllTake_image]
  · exact s.pllTake_image
  · rfl

/-! ### What puts an image into use -/

theorem State.putImage_image (s : State) (m : Image) : (s.putImage m).image = some m := State.putFields_image _ _ _

theorem State.imageIn_image (s : State) (m : Image) (slot : Nat) : (s.imageIn m slot).image = some m := by
  unfold State.imageIn
  rw [State.memStart_image, State.chainsStart_image, State.primaries_image, State.wqStart_image, State.bindTable_image, State.setF_image,
    State.setF_image, State.putImage_image]

theorem State.bareIn_image (s : State) : s.bareIn.image = none := by
  unfold State.bareIn
  rw [State.chainsStart_image, State.fqStart_image, State.wqStart_image, State.memZero_image, State.setDom_image, foldl_image,
    State.putFields_image]
  exact fun u q => by rw [State.setDom_image, State.setDom_image, State.setF_image]

end Sys2Proof.Machine
end

section
/-!
SUPPORT. O28: what a cold and a warm reset leave, and the release of a warm reset.
-/

namespace Sys2Proof.Machine

/-! ### The log of outputs -/

theorem foldl_obs_suffix {α : Type} (g : State → α → State) (l : List α) (s : State) (h : ∀ u x, u.obs <:+ (g u x).obs) :
    s.obs <:+ (l.foldl g s).obs := by
  induction l generalizing s with
  | nil => exact List.suffix_rfl
  | cons a l ih => exact (h s a).trans (ih _)

theorem State.obsv_obs_suffix (s : State) (x : Obs) : s.obs <:+ (s.obsv x).obs := List.suffix_cons x s.obs

theorem State.pinOut_obs_suffix (s : State) (p : Pin) (level : Bool) (k v : Nat) : s.obs <:+ (s.pinOut p level k v).obs := by
  unfold State.pinOut
  split
  · exact List.suffix_rfl
  · exact s.obsv_obs_suffix _

theorem State.pinEdge_obs_suffix (s was : State) (p : Pin) (k v : Nat) : s.obs <:+ (s.pinEdge was p k v).obs := by
  unfold State.pinEdge
  split
  · exact List.suffix_rfl
  · exact s.pinOut_obs_suffix _ _ _ _

theorem State.clkMove_obs_suffix (s was : State) : s.obs <:+ (s.clkMove was).obs := by
  rcases s.clkMove_cases was with h | h
  · exact h.symm ▸ List.suffix_rfl
  · exact h.symm ▸ s.obsv_obs_suffix _

/-! ### COLD_RESET -/

/-- What a cold reset leaves before its pins move. -/
def State.coldHeld (s : State) (por : Bool) : State :=
  ({ State.reset with flash := s.flash, obs := s.obs, freeCtr := s.freeCtr, pending := s.pending, pwr := { PowerState.reset with por := true } } :
    State).setB ⟨R.PWR_STATUS, 8, 1⟩ por

/-- The pins of a cold reset only add to the log of outputs. -/
theorem State.cold_pins (s : State) (por : Bool) :
    Keeps [.obs] (s.coldHeld por) (s.cold por) ∧ (s.coldHeld por).obs <:+ (s.cold por).obs := by
  rw [State.cold, ← State.coldHeld]
  split
  · exact ⟨((Keeps.refl _ _).foldl _ _ fun u p _ => (Keeps.refl _ u).pinOut _ _ _ _ (by decide)).obsv _ (by decide),
      (foldl_obs_suffix _ _ _ fun u p => u.pinOut_obs_suffix _ _ _ _).trans (State.obsv_obs_suffix _ _)⟩
  · exact ⟨(State.pinsMove_keeps _ _ _).trans (State.clkMove_keeps _ _),
      (foldl_obs_suffix _ _ _ fun u p => u.pinEdge_obs_suffix _ _ _ _).trans (State.clkMove_obs_suffix _ _)⟩

theorem lastReset_reset (por : Bool) : (State.reset.setB ⟨R.PWR_STATUS, 8, 1⟩ por).getF F.PWR_STATUS_LAST_RESET = b2n por := by
  cases por <;> decide

theorem State.cold_result (s : State) (por : Bool) :
    Keeps [.regs, .flash, .pwr, .obs, .freeCtr, .pending] State.reset (s.cold por) ∧ RegsKept [R.PWR_STATUS] State.reset (s.cold por) ∧
    (s.cold por).flash = s.flash ∧ (s.cold por).pwr = { State.reset.pwr with por := true } ∧ (∃ l, (s.cold por).obs = l ++ s.obs) ∧
    (s.cold por).getF F.PWR_STATUS_LAST_RESET = b2n por := by
  obtain ⟨hk, hobs⟩ := s.cold_pins por
  have hheld : Keeps [.regs, .flash, .pwr, .obs, .freeCtr, .pending] State.reset (s.coldHeld por) := by
    exact (((((Keeps.refl _ State.reset).flash s.flash (by decide)).obs s.obs (by decide)).freeCtr s.freeCtr (by decide)).pending
      s.pending (by decide)).pwr { PowerState.reset with por := true } (by decide) |>.setB _ _ (by decide)
  have hregs : RegsKept [R.PWR_STATUS] State.reset (s.coldHeld por) := (RegsKept.refl _ State.reset).setB _ _ (by decide)
  obtain ⟨l, hl⟩ := hobs
  refine ⟨hheld.trans (hk.mono (by decide)), hregs.trans (hk.regsKept_of_obs _), hk .flash (by decide), hk .pwr (by decide), ⟨l, hl.symm⟩, ?_⟩
  rw [State.getF_of_regs (hk .regs (by decide))]
  exact lastReset_reset por

/-! ### Warm resets -/

theorem State.warmDrop_image (s : State) : s.warmDrop.image = s.image := by
  unfold State.warmDrop
  rw [foldl_image _ _ _ fun u g => u.dropBg_image g, State.dropActs_image, State.sntReset_image,
    foldl_image _ _ _ fun u id => u.identReset_image id, State.copyAbandon_image, State.coefRelease_image, State.applyIdle_image, State.trigPins_image]

theorem State.showJournal_keeps (s : State) : Keeps [.regs] s s.showJournal := by
  unfold State.showJournal
  dsimp only
  exact ((((((Keeps.refl _ s).setF _ _ (by decide)).setF _ _ (by decide)).setF _ _ (by decide)).setF _ _ (by decide)).setF _ _ (by decide)).setF
    _ _ (by decide)

theorem State.showStaged_keeps (s : State) : Keeps [.regs] s s.showStaged := by
  unfold State.showStaged
  exact (Keeps.refl _ s).foldl _ _ fun u _ _ => (Keeps.refl _ u).setF _ _ (by decide)

/-- The registers alone show a warm reset. -/
theorem State.warmShow_result (s : State) (load : Bool) (cause : Nat) :
    Keeps [.regs] s (s.warmShow load cause) ∧ (s.warmShow load cause).getF F.PWR_STATUS_LAST_RESET = cause % 8 := by
  unfold State.warmShow
  extract_lets u v
  have hu : Keeps [.regs] s u := ((Keeps.refl _ s).wr _ _ (by decide)).setB _ _ (by decide)
  have hv : Keeps [.regs] s v := ((hu.trans u.showJournal_keeps).trans (State.showStaged_keeps _)).setDom _ _ (by decide)
  refine ⟨(hv.setF _ _ (by decide)).setF _ _ (by decide), ?_⟩
  rw [getF_setF_other _ _ _ _ (by decide) (.inl (by decide)), getF_setF_same _ _ _ (by decide)]
  rfl

/-- Outside a cold reset a warm reset ends what runs, clears and shows, and the pins follow. -/
theorem State.warm_eq {s : State} (hpor : s.pwr.por = false) (cause : Nat) :
    ∃ load, Keeps [.obs] ((s.warmDrop.warmClear load cause).warmShow load cause) (s.warm cause) := by
  rw [State.warm, if_neg (by simp [hpor])]
  exact ⟨_, (State.pinsMove_keeps _ _ _).trans (State.clkMove_keeps _ _)⟩

theorem Keeps.of_mono {l l' : List Field} {s t u : State} (h : Keeps l s t) (h' : Keeps l' t u) (m : List Field)
    (hl : ∀ f ∈ l, f ∈ m) (hl' : ∀ f ∈ l', f ∈ m) : Keeps m s u := (h.mono hl).trans (h'.mono hl')

theorem State.warmClear_image (s : State) (load : Bool) (cause : Nat) : (s.warmClear load cause).image = s.image := rfl

theorem State.warm_result {s : State} (hpor : s.pwr.por = false) (cause : Nat) :
    (s.warm cause).pwr.inReset = true ∧ (s.warm cause).getF F.PWR_STATUS_LAST_RESET = cause % 8 ∧ (s.warm cause).run.running = false ∧
    (s.warm cause).run.next = 0 ∧ (s.warm cause).strs = List.replicate 64 StreamState.reset ∧
    (s.warm cause).wqs = List.replicate 512 WordQueue.reset ∧ (s.warm cause).fqs = List.replicate 16 [] ∧
    (s.warm cause).ports = List.replicate 4 NetPort.reset ∧ (s.warm cause).host = HostState.reset ∧ (s.warm cause).trg = TrigState.reset ∧
    (s.warm cause).shadows = [] ∧ (s.warm cause).dmfQ = [] ∧ (s.warm cause).image = s.image ∧ (s.warm cause).now = s.now ∧
    (s.warm cause).time.frc = s.time.frc := by
  obtain ⟨load, hpins⟩ := s.warm_eq hpor cause
  obtain ⟨hshow, hlast⟩ := (s.warmDrop.warmClear load cause).warmShow_result load cause
  have hk : Keeps [.regs, .obs] (s.warmDrop.warmClear load cause) (s.warm cause) := hshow.of_mono hpins _ (by decide) (by decide)
  have hdeep := s.warm_deep cause
  have himage : (s.warm cause).image = s.image :=
    (hk .image (by decide)).trans ((s.warmDrop.warmClear_image load cause).trans s.warmDrop_image)
  refine ⟨(congrArg PowerState.inReset (hk .pwr (by decide))).trans rfl, (State.getF_of_regs (hpins .regs (by decide)) _).trans hlast,
    (congrArg RunState.running (hk .run (by decide))).trans rfl, (congrArg RunState.next (hk .run (by decide))).trans rfl,
    (hk .strs (by decide)).trans rfl, (hk .wqs (by decide)).trans rfl, (hk .fqs (by decide)).trans rfl, (hk .ports (by decide)).trans rfl,
    (hk .host (by decide)).trans rfl, (hk .trg (by decide)).trans rfl, (hk .shadows (by decide)).trans rfl, (hk .dmfQ (by decide)).trans rfl,
    himage, congrArg Deep.now hdeep, congrArg Deep.frc hdeep⟩

/-- SOFTWARE_WARM_RESET by its key and WARM. -/
theorem State.softWarm_cases (s : State) (v : Word) :
    (getBits v 24 8 ≠ 0xA5 → s.softWarm v = s.deny) ∧ (getBits v 24 8 = 0xA5 → v.getLsbD 0 = false → s.softWarm v = s) ∧
    (getBits v 24 8 = 0xA5 → v.getLsbD 0 = true → s.softWarm v = s.warm 5) := by
  unfold State.softWarm
  refine ⟨fun h => if_pos h, fun h h0 => ?_, fun h h0 => ?_⟩
  · rw [if_neg (not_not.mpr h), h0]; rfl
  · rw [if_neg (not_not.mpr h), h0]; rfl

/-! ### The release -/

theorem State.warmEnd_idle {s : State} (h : s.pwr.inReset = false) (lost : Bool) (ce : Nat) (gl : List Nat) : s.warmEnd lost ce gl = s := by
  rw [State.warmEnd, if_neg (by simp [h])]

/-- The hub that is up has its record and READY. -/
theorem State.ready_result (s : State) (kind : Nat) :
    (s.ready kind).bit F.PWR_STATUS_READY = true ∧ (s.ready kind).recq = s.recq ++ [⟨0, 0x0907, pw kind, s.tick⟩] ∧ Keeps [.regs, .recq, .obs] s (s.ready kind) := by
  have hk : Keeps [.obs] ((s.emit 0 0x0907 (pw kind)).setF F.PWR_STATUS_READY 1) (s.ready kind) := State.pinsMove_keeps _ _ _
  refine ⟨?_, (hk .recq (by decide)).trans rfl, .trans ?_ (hk.mono (by decide))⟩
  · rw [State.bit, State.getF_of_regs (hk .regs (by decide)), getF_setF_same _ _ _ (by decide)]
    decide
  · exact ((Keeps.refl _ s).emit _ _ _ (by decide)).setF _ _ (by decide)

/-- A warm reset that ends leaves through `State.ready`. -/
theorem State.warmEnd_ready {s : State} (h : s.pwr.inReset = true) (lost : Bool) (ce : Nat) (gl : List Nat) :
    ∃ u : State, s.warmEnd lost ce gl = u.ready 1 := by
  rw [State.warmEnd, if_pos h]
  exact ⟨_, rfl⟩

theorem State.warmEnd_result {s : State} (h : s.pwr.inReset = true) (lost : Bool) (ce : Nat) (gl : List Nat) :
    (s.warmEnd lost ce gl).now = s.now ∧ (s.warmEnd lost ce gl).time.frc = s.time.frc ∧ (s.warmEnd lost ce gl).bit F.PWR_STATUS_READY = true ∧
      ∃ l, (s.warmEnd lost ce gl).recq = l ++ [⟨0, 0x0907, pw 1, s.tick⟩] := by
  have hbase := s.warmEnd_base lost ce gl
  obtain ⟨u, hu⟩ := s.warmEnd_ready h lost ce gl
  rw [hu] at hbase ⊢
  obtain ⟨hready, hrec, hk⟩ := u.ready_result 1
  have hfrc : (u.ready 1).time.frc = s.time.frc := congrArg Deep.frc hbase
  have htick : u.tick = s.tick := congrArg BitVec.toNat ((congrArg TimeState.frc (hk .time (by decide))).symm.trans hfrc)
  exact ⟨congrArg Deep.now hbase, hfrc, hready, u.recq, htick ▸ hrec⟩

end Sys2Proof.Machine

open Sys2Proof.Machine in
/-- Settles O28: the cold reset from the state that it leaves, the warm reset from what it clears and shows, the release from its last step. -/
theorem resetsAct : Obligations.ResetsAct := by
  unfold Obligations.ResetsAct
  refine ⟨fun por s => ⟨_, rfl, s.cold_result por⟩, fun cause s hpor => ?_, fun cause s hpor => ⟨_, rfl, State.warm_result hpor cause⟩,
    fun id v s hg => ?_, fun lost ce gl s h => congrArg Host.Outcome.next (State.warmEnd_idle h lost ce gl),
    fun lost ce gl s h => ⟨_, rfl, State.warmEnd_result h lost ce gl⟩⟩
  · exact congrArg Host.Outcome.next (if_pos hpor)
  · refine gated_next _ hg (by decide) ?_
    obtain ⟨hkey, hnone, hwarm⟩ := s.softWarm_cases v
    refine ⟨fun h => ?_, fun h h0 => ?_, fun h h0 => ?_⟩
    · rw [hkey h]
      exact ⟨((Keeps.refl _ s).deny (by decide)).bpReg _ _ _ (by decide), ((RegsKept.refl _ s).deny (by decide)).bpReg _ _ _,
        getF_bump_same s F.HIF_DENY_COUNT (by decide)⟩
    · rw [hnone h h0]
      exact (Keeps.refl _ s).bpReg _ _ _ (by decide)
    · rw [hwarm h h0]
      exact ⟨_, rfl, (Keeps.refl _ _).bpReg _ _ _ (by decide)⟩
end

section
/-!
SUPPORT. O27: the two steps of a power-up.
-/

namespace Sys2Proof.Machine

/-! ### The first three steps of R382 -/

/-- Frames beside the status register of power-up. -/
def isPwrStatus (o : Nat) : Prop := o = R.PWR_STATUS

theorem State.showJournal_pwrStatus (s : State) : Frame [.regs] isPwrStatus s s.showJournal := by
  have hr : Field.regs ∈ [Field.regs] := by decide
  unfold State.showJournal
  dsimp only
  refine ((((((Frame.refl _ _ s).setF _ _ hr ?_).setF _ _ hr ?_).setF _ _ hr ?_).setF _ _ hr ?_).setF _ _ hr ?_).setF _ _ hr ?_
  all_goals unfold isPwrStatus; decide

theorem State.showStaged_pwrStatus (s : State) : Frame [.regs] isPwrStatus s s.showStaged := by
  unfold State.showStaged
  refine (Frame.refl _ _ s).foldl _ _ fun u n _ => (Frame.refl _ _ u).setF _ _ (by decide) ?_
  show ¬ R.UPD_SEC_VER n = R.PWR_STATUS
  unfold R.UPD_SEC_VER R.PWR_STATUS
  omega

theorem State.powerFirst_frame (s : State) : Frame [.regs] isPwrStatus s s.powerFirst := by
  unfold State.powerFirst
  extract_lets u v
  have hu : Frame [.regs] isPwrStatus s u := (Frame.refl _ _ s).setF _ _ (by decide) (by unfold isPwrStatus; decide)
  have hv : Frame [.regs] isPwrStatus s v :=
    Frame.ite (fun _ => hu) fun _ => hu.setF _ _ (by decide) (by unfold isPwrStatus; decide)
  exact (hv.trans v.showJournal_pwrStatus).trans (State.showStaged_pwrStatus _)

theorem State.flashRead_pwrStatus (s : State) (a b : Bool) (loc : Nat) : Frame faultFields isPwrStatus s (s.flashRead a b loc) := by
  have hfault (tr : Bool) : Frame faultFields isPwrStatus s (s.mntFault 2 tr loc) :=
    (s.mntFault_frame (by decide) tr loc).mono (fun _ h => h) fun o ho => by rw [ho]; unfold besideMnt; decide
  unfold State.flashRead
  exact Frame.ite (fun _ => hfault false) fun _ => Frame.ite (fun _ => hfault true) fun _ => Frame.refl _ _ s

theorem State.jFaults_pwrStatus (s : State) (second : Bool) (l : List (List Byte)) : Frame faultFields isPwrStatus s (s.jFaults second l) :=
  (Frame.refl _ _ s).foldl _ _ fun u _ _ => u.flashRead_pwrStatus _ _ _

/-- The journal is read with what its reads meet. -/
theorem State.journalRead_frame (s : State) (gl : List Nat) :
    Frame [.regs, .host, .obs, .upd, .recq, .flash] isPwrStatus s (s.journalRead gl) := by
  have hlose : Frame [.regs, .host, .obs, .upd, .recq, .flash] isPwrStatus s
      (if gl.contains 26 then { s with flash := s.flash.jLose } else s) :=
    Frame.ite (fun _ => ⟨(Keeps.refl _ s).flash _ (by decide), RdKept.refl _ _⟩) fun _ => Frame.refl _ _ s
  unfold State.journalRead
  extract_lets u v
  have hv : Frame [.regs, .host, .obs, .upd, .recq, .flash] isPwrStatus s v :=
    (hlose.trans ((State.jFaults_pwrStatus _ _ _).wide (by decide))).trans ((State.jFaults_pwrStatus _ _ _).wide (by decide))
  exact (hv.trans ((v.flashRead_pwrStatus _ _ _).wide (by decide))).trans ((State.showJournal_pwrStatus _).wide (by decide))

/-! ### The load -/

theorem State.coldLoad_image (s : State) (gl : List Nat) (slot : Nat) (m : Image) : (s.coldLoad gl slot m).image = some m := by
  unfold State.coldLoad
  dsimp only
  rw [State.pllRestore_image, State.storeUsed_image, State.powerQuads_image, State.portsStart_image, State.domsOn_image, State.settled_image,
    State.calHeads_image, State.settingsIn_image, State.restoreSets_image, State.imageIn_image]

/-- What a cold start does with the outcome of its search for an image, before READY. -/
def State.coldTake (s : State) (gl : List Nat) : Option (Nat × Image) → State
  | some y => s.coldLoad gl y.1 y.2
  | none => (s.bareIn.domsOn).setF F.PWR_STATUS_SET_SRC 3

theorem State.coldTake_image (s : State) (gl : List Nat) (x : Option (Nat × Image)) : (s.coldTake gl x).image = x.map Prod.snd := by
  cases x with
  | none => exact (State.setF_image _ _ _).trans ((State.domsOn_image _).trans s.bareIn_image)
  | some y => exact s.coldLoad_image gl y.1 y.2

/-- With no trial in the journal the load ends in READY. -/
theorem State.powerLoad_eq {s : State} (hj : s.jState ≠ 3) (gl : List Nat) {x : Option (Nat × Image) × State}
    (hx : s.firstGood gl (if s.jActive = 0 then [] else [s.jActive, 3 - s.jActive]) = x) :
    s.powerLoad gl = (x.2.coldTake gl x.1).ready 0 := by
  rw [State.powerLoad, hx]
  simp only [if_neg hj]
  cases x.1 <;> rfl

/-- What the search for an image reads of the journal stands since the cold reset. -/
theorem State.jOf_flash {s t : State} (h : t.flash.journal = s.flash.journal) : t.jState = s.jState ∧ t.jActive = s.jActive := by
  unfold State.jState State.jActive
  rw [h]
  exact ⟨rfl, rfl⟩

theorem State.powerLoad_result {s : State} (hj : s.jState ≠ 3) (gl : List Nat) :
    (s.powerLoad gl).image = (s.firstGood gl (if s.jActive = 0 then [] else [s.jActive, 3 - s.jActive])).1.map Prod.snd ∧
      (s.powerLoad gl).now = s.now ∧ (s.powerLoad gl).time.frc = s.time.frc ∧ (s.powerLoad gl).bit F.PWR_STATUS_READY = true ∧
      ∃ l, (s.powerLoad gl).recq = l ++ [⟨0, 0x0907, pw 0, s.tick⟩] := by
  have hbase := s.powerLoad_base gl
  generalize hx : s.firstGood gl (if s.jActive = 0 then [] else [s.jActive, 3 - s.jActive]) = x
  rw [State.powerLoad_eq hj gl hx] at hbase ⊢
  obtain ⟨hready, hrec, hk⟩ := (x.2.coldTake gl x.1).ready_result 0
  have hfrc := congrArg Deep.frc hbase
  have htick : (x.2.coldTake gl x.1).tick = s.tick :=
    congrArg BitVec.toNat ((congrArg TimeState.frc (hk .time (by decide))).symm.trans hfrc)
  exact ⟨(hk .image (by decide)).trans (State.coldTake_image _ _ _), congrArg Deep.now hbase, hfrc, hready, _, htick ▸ hrec⟩

theorem State.plan_time (s : State) (gl : List Nat) : (s.plan gl).time = s.time := rfl

theorem State.plan_journal (s : State) (gl : List Nat) : (s.plan gl).flash.journal = s.flash.journal := rfl

/-- What the load is given: the plan of coming reads is not the journal, and the first steps leave journal and time. -/
theorem State.plan_powerFirst (s : State) (gl : List Nat) :
    (s.powerFirst.plan gl).jState = s.jState ∧ (s.powerFirst.plan gl).jActive = s.jActive ∧ (s.powerFirst.plan gl).time = s.time := by
  have hk := s.powerFirst_frame.keeps
  obtain ⟨hst, hact⟩ := State.jOf_flash ((s.powerFirst.plan_journal gl).trans (congrArg Flash.journal (hk .flash (by decide))))
  exact ⟨hst, hact, (s.powerFirst.plan_time gl).trans (hk .time (by decide))⟩

/-- The first POWER_UP from the state that the release of POR_N gives. -/
theorem State.powerFirst_journalRead_result (s : State) (gl : List Nat) :
    (s.powerFirst.journalRead gl).pwr = s.pwr ∧ (s.powerFirst.journalRead gl).image = s.image ∧ (s.powerFirst.journalRead gl).time = s.time ∧
      (s.powerFirst.journalRead gl).bit F.PWR_STATUS_READY = s.bit F.PWR_STATUS_READY := by
  obtain ⟨hk, hrd⟩ := (s.powerFirst_frame.wide (by decide)).trans (State.journalRead_frame _ gl)
  exact ⟨hk .pwr (by decide), hk .image (by decide), hk .time (by decide), hrd.bit _ rfl⟩

theorem State.powerUp_first {s : State} (h : s.pwr.por = true) (gl : List Nat) :
    s.powerUp gl = ({ s with pwr := { s.pwr with por := false, saveFrom := s.tick } } : State).powerFirst.journalRead gl := if_pos h

theorem State.powerUp_second {s : State} (hpor : s.pwr.por = false) (hgood : s.pwr.pgood = true) (gl : List Nat) :
    s.powerUp gl = (({ s with pwr := { s.pwr with pgood := false } } : State).powerFirst.plan gl).powerLoad gl := by
  rw [State.powerUp, if_neg (by simp [hpor]), if_pos hgood]

end Sys2Proof.Machine

open Sys2Proof.Machine in
/-- Settles O27: the first step from its frame, the second from the image that its search gives and the record of its last step. -/
theorem powerUpLoads : Obligations.PowerUpLoads := by
  unfold Obligations.PowerUpLoads
  refine ⟨fun gl s hpor hgood => ?_, fun gl s hpor => ?_, fun gl s u hpor hgood hj hu => ?_⟩
  · exact congrArg Host.Outcome.next (by simp [State.powerUp, hpor, hgood])
  · obtain ⟨hpwr, himg, htime, hready⟩ :=
      ({ s with pwr := { s.pwr with por := false, saveFrom := s.tick } } : State).powerFirst_journalRead_result gl
    exact ⟨_, congrArg Host.Outcome.next (State.powerUp_first hpor gl), (congrArg PowerState.por hpwr).trans rfl,
      (congrArg PowerState.pgood hpwr).trans rfl, rfl, himg, htime, hready⟩
  · have hup := (State.powerUp_second hpor hgood gl).trans (congrArg (State.powerLoad · gl) hu.symm)
    obtain ⟨hst, hact, htime⟩ := ({ s with pwr := { s.pwr with pgood := false } } : State).plan_powerFirst gl
    rw [← hu] at hst hact htime
    obtain ⟨himg, hnow, hfrc, hready, hrec⟩ := State.powerLoad_result (s := u) (fun h => hj (hst.symm.trans h)) gl
    rw [hact] at himg
    rw [show u.tick = s.tick from congrArg (fun x : TimeState => x.frc.toNat) htime] at hrec
    exact ⟨u.powerLoad gl, congrArg Host.Outcome.next hup, himg, hnow.trans (congrArg (fun x : TimeState => x.due.at x.frc) htime),
      hfrc.trans (congrArg TimeState.frc htime), hready, hrec⟩
end

section
/-!
SUPPORT. O26: the check pass and the load pass of a re-form.
-/

namespace Sys2Proof.Machine

/-! ### What the check pass leaves -/

/-- What shows where a re-form stands: its state, the run state and AT. -/
def reformShown (o : Nat) : Prop := o = R.IMG_STATUS ∨ o = R.AFE_RUN_STATUS ∨ o = R.IMG_REFORM_AT_LO ∨ o = R.IMG_REFORM_AT_HI

theorem besideMnt_of_reformShown (o : Nat) (h : reformShown o) : besideMnt o := by
  rcases h with rfl | rfl | rfl | rfl <;> unfold besideMnt <;> decide

theorem besideApply_of_reformShown (o : Nat) (h : reformShown o) : besideApply o := by
  rcases h with rfl | rfl | rfl | rfl <;> unfold besideApply <;> decide

theorem not_reformShown_check : ¬ reformShown R.IMG_CHECK := by unfold reformShown; decide

theorem not_reformShown_status : ¬ reformShown R.IMG_REFORM_STATUS := by unfold reformShown; decide

theorem State.mntFault_reformShown (s : State) {k : Nat} (hk : k < 8) (tr : Bool) (loc : Nat) :
    Frame faultFields reformShown s (s.mntFault k tr loc) :=
  (s.mntFault_frame hk tr loc).mono (fun _ h => h) besideMnt_of_reformShown

theorem State.readFlash_reformShown (s : State) (i : Nat) (gl : List Nat) : Frame faultFields reformShown s (s.readFlash i gl).2 := by
  unfold State.readFlash
  split
  · exact s.mntFault_reformShown (by decide) _ _
  · split
    · exact s.mntFault_reformShown (by decide) _ _
    · exact Frame.refl _ _ s

theorem State.checkTarget_reformShown (s : State) (slot : Nat) (gl : List Nat) (buf : List Byte) :
    Frame faultFields reformShown s (s.checkTarget slot gl buf).2 := by
  unfold State.checkTarget
  split
  · exact Frame.refl _ _ s
  · exact (s.readFlash_reformShown slot gl).trans
      (Frame.ite (fun _ => State.mntFault_reformShown _ (by decide) _ _) fun _ => Frame.refl _ _ _)

theorem Frame.showCheck {l : List Field} {s t : State} (h : Frame l reformShown s t) (c d n : Nat) (hm : Field.regs ∈ l) :
    Frame l reformShown s (t.showCheck c d n) := by
  have h3 := ((h.setF F.IMG_CHECK_CODE c hm not_reformShown_check).setF F.IMG_CHECK_DETAIL d hm not_reformShown_check).setF F.IMG_CHECK_SLOT n
    hm not_reformShown_check
  exact Frame.ite (fun _ => h3.setF _ _ hm (by unfold reformShown; decide)) (fun _ => h3)

/-- The state after the check of the target of `r`, its outcome shown. -/
def State.targetChecked (s : State) (r : ReformReq) (gl : List Nat) (buf : List Byte) : State :=
  let c := (s.plan gl).checkTarget r.slot gl buf
  c.2.showCheck c.1.1 c.1.2.1 r.slot

theorem State.targetChecked_frame (s : State) (r : ReformReq) (gl : List Nat) (buf : List Byte) :
    Frame [.regs, .host, .obs, .upd, .recq, .flash] reformShown s (s.targetChecked r gl buf) := by
  have hplan : Frame [.regs, .host, .obs, .upd, .recq, .flash] reformShown s (s.plan gl) := ⟨(Keeps.refl _ s).flash _ (by decide), RdKept.refl _ _⟩
  exact (hplan.trans ((State.checkTarget_reformShown _ r.slot gl buf).wide (by decide))).showCheck _ _ _ (by decide)

/-! ### What follows the check -/

theorem State.applyDiscard_frame (s : State) :
    Frame [.regs, .host, .setLog, .upd, .recq, .shadows] reformShown s s.applyDiscard := by
  have hidle : Frame [.regs, .host, .setLog, .upd, .recq, .shadows] reformShown s s.applyIdle :=
    ⟨s.applyIdle_keeps.mono (by decide), s.applyIdle_rdKept.mono besideApply_of_reformShown⟩
  have hdrop : Frame [.regs, .host, .setLog, .upd, .recq, .shadows] reformShown s
      ({ s.applyIdle.discardSet s.host.applySn with shadows := [] } : State) := by
    have h := (hidle.setF F.IMG_REFORM_STATUS_APPLY_DISCARDED 1 (by decide) not_reformShown_status).emit 0 0x0702 (psn s.host.applySn)
      (by decide)
    exact ⟨h.keeps.shadows _ (by decide), h.rd⟩
  have hcoef (u : State) : Frame [.regs, .host, .setLog, .upd, .recq, .shadows] reformShown u u.coefRelease :=
    ⟨u.coefRelease_keeps.mono (by decide), u.coefRelease_rdKept.mono besideApply_of_reformShown⟩
  unfold State.applyDiscard
  exact Frame.ite (fun _ => Frame.refl _ _ s) fun _ => hdrop.trans (hcoef _)

theorem State.reformRefuse_zero (s : State) : s.reformRefuse 0 = s.reformOver.imgIdle.setF F.IMG_REFORM_STATUS_REFUSED 1 := rfl

theorem State.reformOver_eq (s : State) : s.reformOver =
    (({ s with reform := ⟨s.reform.reqs.drop 1, 0, none, none⟩ } : State).setB F.IMG_REFORM_STATUS_PENDING
      (decide (s.reform.reqs.drop 1 ≠ []))).endAct actReform 0 := rfl

theorem State.endAct_reform (s : State) : s.endAct actReform 0 = { s with mnt := { s.mnt with running := dropAct actReform 0 s.mnt.running } } := rfl

theorem State.reformOver_keeps (s : State) : Keeps [.regs, .reform, .mnt] s s.reformOver := by
  rw [State.reformOver_eq, State.endAct_reform]
  exact (((Keeps.refl _ s).reform _ (by decide)).setB _ _ (by decide)).mnt _ (by decide)

/-- A target that fails ends the request of software. -/
theorem State.reformRefuse_result (s : State) :
    Keeps [.regs, .reform, .mnt] s (s.reformRefuse 0) ∧ (s.reformRefuse 0).reform.reqs = s.reform.reqs.drop 1 ∧
      (s.reformRefuse 0).bit F.IMG_REFORM_STATUS_REFUSED = true := by
  rw [s.reformRefuse_zero]
  exact ⟨(s.reformOver_keeps.setF _ _ (by decide)).setF _ _ (by decide), rfl, bit_setF_one _ _ (by decide)⟩

/-- The target passed outside RUN: the load pass is due at once. -/
def State.snrNone (s : State) : State :=
  ((({ s with reform := { s.reform with phase := 3, snr := none } } : State).setF F.IMG_STATUS_STATE 3).wr64 R.IMG_REFORM_AT_LO R.IMG_REFORM_AT_HI
    allOnes64).setF F.AFE_RUN_STATUS_STATE 0

theorem State.snrNone_reform (s : State) : s.snrNone.reform = { s.reform with phase := 3, snr := none } := rfl

theorem State.chooseSnr_idle {s : State} (h : s.runSt ≠ 3) (r : ReformReq) : s.chooseSnr r = (s.snrNone.worked 10).applyDiscard := if_neg h

theorem State.chooseSnr_idle_result {s : State} (h : s.runSt ≠ 3) (r : ReformReq) :
    Keeps [.regs, .reform, .pwr, .host, .setLog, .upd, .recq, .shadows] s (s.chooseSnr r) ∧
      (s.chooseSnr r).reform = { s.reform with phase := 3, snr := none } ∧ (s.chooseSnr r).getF F.IMG_STATUS_STATE = 3 ∧
      (s.chooseSnr r).runSt = 0 ∧ (s.chooseSnr r).rd64 R.IMG_REFORM_AT_LO R.IMG_REFORM_AT_HI = 2 ^ 64 - 1 := by
  rw [State.chooseSnr_idle h r]
  obtain ⟨hk, hrd⟩ := ((Frame.refl [.pwr, .regs, .host, .setLog, .upd, .recq, .shadows] reformShown s.snrNone).worked 10 (by decide)).trans
    ((s.snrNone.worked 10).applyDiscard_frame.wide (by decide))
  have hbase : Keeps [.regs, .reform] s s.snrNone :=
    ((((Keeps.refl _ s).reform _ (by decide)).setF _ _ (by decide)).wr64 _ _ _ (by decide)).setF _ _ (by decide)
  refine ⟨(hbase.mono (by decide)).trans (hk.mono (by decide)), (hk .reform (by decide)).trans s.snrNone_reform, ?_, ?_, ?_⟩
  · rw [hrd.getF _ (.inl rfl), State.snrNone, getF_setF_other _ _ _ _ (by decide) (.inl (by decide)),
      getF_wr64_other _ _ _ _ _ (by decide) (by decide), getF_setF_same _ _ _ (by decide)]
    rfl
  · rw [State.runSt, hrd.getF _ (.inr (.inl rfl))]
    exact getF_setF_same _ F.AFE_RUN_STATUS_STATE 0 (by decide)
  · rw [State.rd64, hrd _ (.inr (.inr (.inl rfl))), hrd _ (.inr (.inr (.inr rfl))), ← State.rd64, State.snrNone,
      rd64_setF_other _ _ _ _ _ (by decide) (by decide), rd64_wr64_mod _ _ (by decide)]
    decide

/-- In RUN SN_r is `n`, late or not. -/
def State.snrAt (s : State) (late : Bool) (n : Nat) : State :=
  let s := if late then s.setF F.IMG_REFORM_STATUS_LATE 1 else s
  ({ s with reform := { s.reform with phase := 2, snr := some n } } : State).imgIdle.wr64 R.IMG_REFORM_AT_LO R.IMG_REFORM_AT_HI n

theorem State.chooseSnr_run {s : State} (h : s.runSt = 3) (r : ReformReq) :
    s.chooseSnr r = s.snrAt (r.atSn && !(r.atSn && s.notReached r.sn)) (if r.atSn && s.notReached r.sn then r.sn else s.firstSn) := if_pos h

theorem State.snrAt_keeps (s : State) (late : Bool) (n : Nat) : Keeps [.regs, .reform] s (s.snrAt late n) := by
  unfold State.snrAt
  extract_lets u
  have hu : Keeps [.regs] s u := Keeps.ite (fun _ => (Keeps.refl _ s).setF _ _ (by decide)) fun _ => Keeps.refl _ s
  exact (((hu.mono (by decide)).reform _ (by decide)).setF _ _ (by decide)).wr64 _ _ _ (by decide)

theorem State.snrAt_result (s : State) (late : Bool) {n : Nat} (hn : n < 2 ^ 64) :
    (s.snrAt late n).reform = { s.reform with phase := 2, snr := some n } ∧
      (s.snrAt late n).rd64 R.IMG_REFORM_AT_LO R.IMG_REFORM_AT_HI = n ∧ (late = true → (s.snrAt late n).bit F.IMG_REFORM_STATUS_LATE = true) := by
  unfold State.snrAt
  extract_lets u
  have hu : Keeps [.regs] s u := Keeps.ite (fun _ => (Keeps.refl _ s).setF _ _ (by decide)) fun _ => Keeps.refl _ s
  have href : u.reform = s.reform := hu .reform (by decide)
  refine ⟨?_, rd64_wr64_same _ _ _ _ hn (by decide), fun hlate => ?_⟩
  · exact congrArg (fun x : ReformState => { x with phase := 2, snr := some n }) href
  · have hb : u.bit F.IMG_REFORM_STATUS_LATE = true := by
      show (if late then s.setF F.IMG_REFORM_STATUS_LATE 1 else s).bit _ = true
      rw [if_pos hlate]
      exact bit_setF_one _ _ (by decide)
    rw [State.bit, getF_wr64_other _ _ _ _ _ (by decide) (by decide), State.imgIdle, getF_setF_other _ _ _ _ (by decide) (.inl (by decide))]
    exact hb

/-! ### REFORM_CHECK_PASS_END -/

theorem State.checkPassEnd_idle {s : State} (h : s.reform.reqs = [] ∨ s.reform.phase ≠ 1 ∨ s.sysRuns = false) (gl : List Nat) (buf : List Byte) :
    s.checkPassEnd gl buf = s := by
  unfold State.checkPassEnd
  rcases hreq : s.reform.reqs with _ | ⟨r, q⟩
  · rfl
  · exact if_pos (h.resolve_left (by rw [hreq]; exact List.cons_ne_nil _ _))

/-- The state that goes on from the check: refused, or with the target `m` and its SN_r. -/
theorem State.checkPassEnd_eq {s : State} {r : ReformReq} {q : List ReformReq} (hreq : s.reform.reqs = r :: q) (hph : s.reform.phase = 1)
    (hrun : s.sysRuns = true) (hcause : r.cause = 0) (gl : List Nat) (buf : List Byte) :
    s.checkPassEnd gl buf = match ((s.plan gl).checkTarget r.slot gl buf).1.2.2 with
      | none => (s.targetChecked r gl buf).reformRefuse 0
      | some m => ({ s.targetChecked r gl buf with reform := { (s.targetChecked r gl buf).reform with target := some m } } : State).chooseSnr r := by
  unfold State.checkPassEnd
  rw [hreq]
  simp only [hph, hrun, hcause]
  rfl

/-! ### REFORM_LOAD_PASS -/

theorem State.reformLoad_image (s : State) (slot : Nat) (x : Option Image) (cause : Nat) : (s.reformLoad slot x cause).image = x := by
  unfold State.reformLoad
  cases x with
  | none =>
    dsimp only
    rw [State.settled_image, State.portsAfter_image, State.bareIn_image]
  | some m =>
    dsimp only
    rw [State.portsAfter_image, State.pllRecommit_image, State.powerQuads_image, State.settled_image, State.settingsIn_image]
    split
    · rw [State.takeHalf_image, State.imageIn_image]
    · rw [State.keepOrDefault_image, State.imageIn_image]

theorem State.loadPass_idle {s : State} (h : s.reform.reqs = [] ∨ s.loadDue = false) : s.loadPass = s := by
  unfold State.loadPass
  rcases hreq : s.reform.reqs with _ | ⟨r, q⟩
  · rfl
  · exact if_neg (by rw [h.resolve_left (by rw [hreq]; exact List.cons_ne_nil _ _)]; decide)

theorem State.loadPass_eq {s : State} {r : ReformReq} {q : List ReformReq} (hreq : s.reform.reqs = r :: q) (hdue : s.loadDue = true)
    (hcause : r.cause = 0) : ∃ u : State, s.loadPass = (u.reformLoad r.slot s.reform.target 0).reformDone := by
  unfold State.loadPass
  simp only [hreq, hdue, hcause, if_true]
  exact ⟨_, rfl⟩

theorem State.reformDone_result (s : State) :
    Keeps [.regs, .reform, .mnt, .recq] s s.reformDone ∧ s.reformDone.recq = s.recq ++ [⟨0, 0x0701, [], s.tick⟩] := by
  have hk : Keeps [.regs, .recq] s ((s.bump F.IMG_REFORM_STATUS_REFORMS).emit 0 0x0701 []) :=
    ((Keeps.refl _ s).bump _ (by decide)).emit _ _ _ (by decide)
  exact ⟨(hk.mono (by decide)).trans ((State.reformOver_keeps _).mono (by decide)), ((State.reformOver_keeps _) .recq (by decide)).trans rfl⟩

theorem State.loadPass_result {s : State} {r : ReformReq} {q : List ReformReq} (hreq : s.reform.reqs = r :: q) (hdue : s.loadDue = true)
    (hcause : r.cause = 0) : s.loadPass.image = s.reform.target ∧ s.loadPass.now = s.now ∧ s.loadPass.time.frc = s.time.frc ∧
      ∃ l, s.loadPass.recq = l ++ [⟨0, 0x0701, [], s.tick⟩] := by
  have hbase := s.loadPass_base
  obtain ⟨u, hu⟩ := State.loadPass_eq hreq hdue hcause
  rw [hu] at hbase ⊢
  obtain ⟨hk, hrec⟩ := (u.reformLoad r.slot s.reform.target 0).reformDone_result
  have hfrc := congrArg Deep.frc hbase
  have htick : (u.reformLoad r.slot s.reform.target 0).tick = s.tick :=
    congrArg BitVec.toNat ((congrArg TimeState.frc (hk .time (by decide))).symm.trans hfrc)
  exact ⟨(hk .image (by decide)).trans (u.reformLoad_image _ _ _), congrArg Deep.now hbase, hfrc, _, htick ▸ hrec⟩

/-- The check pass of a request of software that failed. -/
theorem State.checkFailed_result (s : State) (r : ReformReq) (gl : List Nat) (buf : List Byte) :
    ((s.targetChecked r gl buf).reformRefuse 0).run = s.run ∧ ((s.targetChecked r gl buf).reformRefuse 0).strs = s.strs ∧
      ((s.targetChecked r gl buf).reformRefuse 0).image = s.image ∧
      ((s.targetChecked r gl buf).reformRefuse 0).reform.reqs = s.reform.reqs.drop 1 ∧
      ((s.targetChecked r gl buf).reformRefuse 0).bit F.IMG_REFORM_STATUS_REFUSED = true := by
  have hc := (s.targetChecked_frame r gl buf).keeps
  obtain ⟨hk, hreqs, hbit⟩ := (s.targetChecked r gl buf).reformRefuse_result
  have hkk := hc.of_mono hk [.regs, .host, .obs, .upd, .recq, .flash, .reform, .mnt] (by decide) (by decide)
  exact ⟨hkk .run (by decide), hkk .strs (by decide), hkk .image (by decide),
    hreqs.trans (congrArg (fun x : ReformState => x.reqs.drop 1) (hc .reform (by decide))), hbit⟩

/-- The check pass found target `m`. -/
def State.targetFound (s : State) (r : ReformReq) (gl : List Nat) (buf : List Byte) (m : Image) : State :=
  { s.targetChecked r gl buf with reform := { (s.targetChecked r gl buf).reform with target := some m } }

theorem State.targetFound_result (s : State) (r : ReformReq) (gl : List Nat) (buf : List Byte) (m : Image) :
    Frame [.regs, .host, .obs, .upd, .recq, .flash, .reform] reformShown s (s.targetFound r gl buf m) ∧
      (s.targetFound r gl buf m).reform = { s.reform with target := some m } := by
  obtain ⟨hk, hrd⟩ := s.targetChecked_frame r gl buf
  exact ⟨⟨(hk.mono (by decide)).reform _ (by decide), hrd⟩, congrArg (fun x : ReformState => { x with target := some m }) (hk .reform (by decide))⟩

/-- What the choice of SN_r leaves of a target that was found. -/
theorem State.chosen_keeps (s : State) (r : ReformReq) (gl : List Nat) (buf : List Byte) (m : Image) :
    ((s.targetFound r gl buf m).chooseSnr r).run = s.run ∧ ((s.targetFound r gl buf m).chooseSnr r).strs = s.strs ∧
      ((s.targetFound r gl buf m).chooseSnr r).image = s.image := by
  obtain ⟨⟨hk, -⟩, -⟩ := s.targetFound_result r gl buf m
  have hc : Keeps [.regs, .reform, .pwr, .host, .setLog, .upd, .recq, .shadows] (s.targetFound r gl buf m) ((s.targetFound r gl buf m).chooseSnr r) := by
    by_cases hrun : (s.targetFound r gl buf m).runSt = 3
    · rw [State.chooseSnr_run hrun]
      exact (State.snrAt_keeps _ _ _).mono (by decide)
    · exact (State.chooseSnr_idle_result hrun r).1
  exact ⟨(hc .run (by decide)).trans (hk .run (by decide)), (hc .strs (by decide)).trans (hk .strs (by decide)),
    (hc .image (by decide)).trans (hk .image (by decide))⟩

end Sys2Proof.Machine

open Sys2Proof.Machine in
/-- Settles O26: the check pass by its outcome and the run state, the load pass by what it loads and its last record. -/
theorem reformPasses : Obligations.ReformPasses := by
  unfold Obligations.ReformPasses
  refine ⟨fun gl buf s h => congrArg Host.Outcome.next (State.checkPassEnd_idle h gl buf), fun gl buf s r q x hreq hph hsys hcause hx => ?_,
    fun s h => congrArg Host.Outcome.next (State.loadPass_idle h), fun s r q hreq hdue hcause => ⟨_, rfl, State.loadPass_result hreq hdue hcause⟩⟩
  have heq := State.checkPassEnd_eq hreq hph hsys hcause gl buf
  rw [hx] at heq
  cases x with
  | none =>
    obtain ⟨hrun, hstrs, himg, hreqs, hbit⟩ := s.checkFailed_result r gl buf
    exact ⟨_, congrArg Host.Outcome.next heq, hrun, hstrs, himg, fun _ => ⟨hreqs.trans (congrArg (List.drop 1) hreq), hbit⟩, nofun, nofun, nofun⟩
  | some m =>
    obtain ⟨⟨hk, hrd⟩, href⟩ := s.targetFound_result r gl buf m
    obtain ⟨hrun, hstrs, himg⟩ := s.chosen_keeps r gl buf m
    have hst : (s.targetFound r gl buf m).runSt = s.runSt := hrd.getF _ (.inr (.inl rfl))
    have hnext : (s.targetFound r gl buf m).run.next = s.run.next := congrArg RunState.next (hk .run (by decide))
    refine ⟨(s.targetFound r gl buf m).chooseSnr r, congrArg Host.Outcome.next heq, hrun, hstrs, himg, nofun, fun _ h3 => ?_, fun _ h3 hat hle hlt => ?_,
      fun _ h3 hat hlt => ?_⟩
    · obtain ⟨-, hreform, hstate, hidle, hat⟩ := State.chooseSnr_idle_result (fun h => h3 (hst.symm.trans h)) r
      exact ⟨hreform.trans (by rw [href]), hstate, hidle, hat⟩
    · have hok : (r.atSn && (s.targetFound r gl buf m).notReached r.sn) = true := by
        rw [hat, State.notReached, hnext, decide_eq_true hle]; rfl
      rw [State.chooseSnr_run (hst.trans h3), hok, if_pos rfl]
      obtain ⟨hreform, hsn, -⟩ := (s.targetFound r gl buf m).snrAt_result (r.atSn && !true) hlt
      exact ⟨hreform.trans (by rw [href]), hsn⟩
    · have hok : (r.atSn && (s.targetFound r gl buf m).notReached r.sn) = false := by
        rw [State.notReached, hnext]
        cases hr : r.atSn with
        | false => rfl
        | true => exact decide_eq_false (not_le_of_gt (hat hr))
      rw [State.chooseSnr_run (hst.trans h3), hok, if_neg Bool.false_ne_true, State.firstSn, hnext]
      obtain ⟨hreform, hsn, hlate⟩ := (s.targetFound r gl buf m).snrAt_result (r.atSn && !false) hlt
      exact ⟨hreform.trans (by rw [href]), hsn, fun hr => hlate (by rw [hr]; rfl)⟩
end

section
/-!
SUPPORT. O37: what one sampling edge touches.
-/

namespace Sys2Proof.Machine

/-- The parts of the state that one edge of the sample path may change, beside the counts of edges and labels and a landing. -/
def edgeFields : List Field := [.regs, .path, .trg, .strs, .mem, .dbg, .recq]

section

variable {s t : State}

theorem Keeps.updChan {l : List Field} (h : Keeps l s t) (c : Nat) (f : ChanPath → ChanPath) (hm : Field.path ∈ l) :
    Keeps l s (t.updChan c f) := h.path _ hm

variable (s)

/-! ### The conditioning of a channel -/

/-- The parts that the conditioning of a channel changes. -/
def condFields : List Field := [.regs, .path, .recq]

theorem State.stepRaw_keeps (inp noise : List Int) (c m : Nat) (frozen : Bool) : Keeps condFields s (s.stepRaw inp noise c m frozen) := by
  unfold State.stepRaw
  extract_lets k code u x v
  have hu : Keeps condFields s u := Keeps.ite (fun _ => (Keeps.refl _ s).bump _ (by decide)) fun _ => Keeps.refl _ s
  have hv : Keeps condFields s v := Keeps.ite (fun _ => hu.bump _ (by decide)) fun _ => hu
  exact Keeps.ite (fun _ => hu) fun _ => hv.updChan _ _ (by decide)

theorem State.stepClean_keeps (c m : Nat) : Keeps condFields s (s.stepClean c m) := by
  unfold State.stepClean
  extract_lets n w h raw l y u
  have hu : Keeps condFields s u := Keeps.ite (fun _ => Keeps.refl _ s) fun _ => (Keeps.refl _ s).bump _ (by decide)
  exact hu.updChan _ _ (by decide)

theorem State.stepLimit_keeps (c n : Nat) : Keeps condFields s (s.stepLimit c n) := by
  unfold State.stepLimit
  extract_lets t lim was u v w
  have hv : Keeps condFields s v := ((Keeps.refl _ s).updChan _ _ (by decide)).setB _ _ (by decide)
  have hw : Keeps condFields s w := (hv.bump _ (by decide)).setF _ _ (by decide)
  exact Keeps.ite (fun _ => Keeps.ite (fun _ => hw) fun _ => hw.emit _ _ _ (by decide)) fun _ => hv

theorem State.stepAligned_keeps (c m : Nat) (lab : Bool) : Keeps condFields s (s.stepAligned c m lab) := by
  unfold State.stepAligned
  extract_lets n lab' t y u keep v
  have hu : Keeps condFields s u := Keeps.ite (fun _ => (Keeps.refl _ s).bump _ (by decide)) fun _ => Keeps.refl _ s
  have hv : Keeps condFields s v := hu.updChan _ _ (by decide)
  exact Keeps.ite (fun _ => hv.trans (v.stepLimit_keeps _ _)) fun _ => (hv.updChan _ _ (by decide)).setB _ _ (by decide)

theorem State.condStep_keeps (inp noise : List Int) (m : Nat) (lab frozen : Bool) (c : Nat) :
    Keeps condFields s (s.condStep inp noise m lab frozen c) := by
  unfold State.condStep
  have hraw := s.stepRaw_keeps inp noise c m frozen
  exact Keeps.ite (fun _ => Keeps.ite (fun _ => hraw) fun _ => (hraw.trans (State.stepClean_keeps _ _ _)).trans (State.stepAligned_keeps _ _ _ _))
    fun _ => Keeps.refl _ s

/-! ### Detectors -/

theorem State.detect_keeps (m n c e : Nat) : Keeps edgeFields s (s.detect m n c e) := by
  unfold State.detect
  extract_lets i dets u tap
  have hu : Keeps edgeFields s u := Keeps.ite (fun _ => (Keeps.refl _ s).trg _ (by decide)) fun _ => Keeps.refl _ s
  refine Keeps.ite (fun _ => ?_) fun _ => hu
  extract_lets x v
  split
  extract_lets d w
  have hw : Keeps edgeFields s w := hu.trg _ (by decide)
  exact Keeps.ite (fun _ => hw.bump _ (by decide)) fun _ => hw

theorem State.detectAt_keeps (m n : Nat) (left : Nat → Bool) : Keeps edgeFields s (s.detectAt m n left) :=
  Keeps.ite (fun _ => (Keeps.refl _ s).foldl _ _ fun u _ _ => Keeps.ite (fun _ => u.detect_keeps _ _ _ _) fun _ => Keeps.refl _ u)
    fun _ => Keeps.refl _ s

theorem State.detectAll_keeps (m : Nat) : Keeps edgeFields s (s.detectAll m) :=
  Keeps.ite (fun _ => s.detectAt_keeps _ _ _) fun _ => Keeps.refl _ s

theorem State.detectRest_keeps (m : Nat) : Keeps edgeFields s (s.detectRest m) :=
  (Keeps.refl _ s).foldl _ _ fun u _ _ => Keeps.ite (fun _ => u.detectAt_keeps _ _ _) fun _ => Keeps.refl _ u

/-! ### The ring writer -/

theorem State.memPut_keeps (a : Nat) (b : List Byte) : Keeps edgeFields s (s.memPut a b) := by
  have hput : Keeps edgeFields s ({ s with mem := s.mem.putAll a b } : State) := (Keeps.refl _ s).mem _ (by decide)
  exact Keeps.ite (fun _ => hput) fun _ => hput.trans ((State.memWroteWords_frame _ _ _).keeps.mono (by decide))

theorem State.poolPut_keeps (a : Nat) (b : List Byte) : Keeps edgeFields s (s.poolPut a b) := by
  exact (s.memPut_keeps _ _).trans (State.memPut_keeps _ _ _)

theorem State.capTo_keeps (k : Capture) (hi : Nat) : Keeps edgeFields s (s.capTo k hi) := (Keeps.refl _ s).trg _ (by decide)

theorem State.declare_edge (i : Nat) (r : GapRun) : Keeps edgeFields s (s.declare i r) := (Keeps.refl _ s).strs _ (by decide)

theorem State.capLose_keeps (k : Capture) (c cause lo hi : Nat) : Keeps edgeFields s (s.capLose k c cause lo hi) :=
  Keeps.ite (fun _ => ((Keeps.refl _ s).trg _ (by decide)).trans (State.declare_edge _ _ _)) fun _ => Keeps.refl _ s

theorem State.capRest_keeps (k : Capture) (cause hi : Nat) : Keeps edgeFields s (s.capRest k cause hi) := by
  have hlose : Keeps edgeFields s (k.chans.foldl (fun s c => s.capLose k c cause (k.first + k.written) (min hi (k.first + k.len))) s) :=
    (Keeps.refl _ s).foldl _ _ fun u _ _ => u.capLose_keeps _ _ _ _ _
  exact Keeps.ite (fun _ => hlose.trans (State.capTo_keeps _ _ _)) fun _ => hlose

theorem State.capsLose_keeps (cause hi : Nat) : Keeps edgeFields s (s.capsLose cause hi) :=
  (Keeps.refl _ s).foldl _ _ fun u _ _ => Keeps.ite (fun _ => u.capRest_keeps _ _ _) fun _ => Keeps.refl _ u

theorem State.capsStop_keeps (z : Nat) : Keeps edgeFields s (s.capsStop z) :=
  (Keeps.refl _ s).foldl _ _ fun u _ _ => Keeps.ite (fun _ => u.capRest_keeps _ _ _) fun _ => Keeps.refl _ u

theorem State.capFeed_keeps (m lo hi : Nat) (k : Capture) : Keeps edgeFields s (s.capFeed m lo hi k) :=
  Keeps.ite (fun _ => ((Keeps.refl _ s).foldl _ _ fun u _ _ => u.poolPut_keeps _ _).trans (State.capTo_keeps _ _ _)) fun _ => Keeps.refl _ s

theorem State.ringStore_keeps (m lo hi : Nat) : Keeps edgeFields s (s.ringStore m lo hi) := by
  unfold State.ringStore
  extract_lets tap chans put u v w
  have hu : Keeps edgeFields s u := (Keeps.refl _ s).foldl _ _ fun u _ _ => u.memPut_keeps _ _
  have hv : Keeps edgeFields s v := hu.foldl _ _ fun u _ _ => u.capFeed_keeps _ _ _ _
  exact Keeps.ite (fun _ => (hv.path _ (by decide)).wr64 _ _ _ (by decide)) fun _ => Keeps.refl _ s

theorem State.ringBlocks_keeps (m hi : Nat) : Keeps edgeFields s (s.ringBlocks m hi) :=
  Keeps.ite (fun _ => Keeps.ite (fun _ => s.ringStore_keeps _ _ _) fun _ => Keeps.refl _ s) fun _ => Keeps.refl _ s

theorem State.ringFlush_keeps (m hi : Nat) : Keeps edgeFields s (s.ringFlush m hi) :=
  Keeps.ite (fun _ => Keeps.ite (fun _ => (s.ringStore_keeps _ _ _).trans (State.ringStore_keeps _ _ _ _)) fun _ => s.ringStore_keeps _ _ _)
    fun _ => Keeps.refl _ s

theorem State.ringStart_keeps (r0 : Nat) : Keeps edgeFields s (s.ringStart r0) :=
  ((((Keeps.refl _ s).trg _ (by decide)).path _ (by decide)).wr64 _ _ _ (by decide)).wr64 _ _ _ (by decide)

theorem State.ringResume_keeps (m : Nat) : Keeps edgeFields s (s.ringResume m) := by
  have hstart (n : Nat) : Keeps edgeFields s ((s.capsLose causeHalt n).ringStart n).condsPrefill :=
    ((s.capsLose_keeps _ _).trans (State.ringStart_keeps _ _)).trans ((State.condsPrefill_frame _).keeps.mono (by decide))
  refine Keeps.ite (fun _ => Keeps.ite (fun _ => ?_) fun _ => Keeps.refl _ s) fun _ => Keeps.refl _ s
  split
  · exact Keeps.ite (fun _ => (s.capsLose_keeps _ _).trans (State.capsStop_keeps _ _)) fun _ => hstart _
  · exact hstart _

theorem State.ringStep_keeps (m : Nat) : Keeps edgeFields s (s.ringStep m) := by
  refine Keeps.ite (fun _ => ?_) fun _ => Keeps.refl _ s
  split
  · exact s.ringBlocks_keeps _ _
  · exact Keeps.ite (fun _ => s.ringBlocks_keeps _ _) fun _ => Keeps.ite
      (fun _ => ((s.ringBlocks_keeps _ _).trans (State.ringFlush_keeps _ _ _)).trans (State.capsStop_keeps _ _)) fun _ => s.capsStop_keeps _

/-! ### Halts, counters and streams -/

theorem State.runFirst_keeps (c : Nat) : Keeps edgeFields s (s.runFirst c) :=
  ((Keeps.refl _ s).updChan _ _ (by decide)).trans ((State.settle_frame _ _).keeps.mono (by decide))

theorem State.haltOver_keeps (n c : Nat) : Keeps edgeFields s (s.haltOver n c) := by
  unfold State.haltOver
  split
  · exact Keeps.ite (fun _ => (Keeps.refl _ s).updChan _ _ (by decide)) fun _ => Keeps.refl _ s
  · exact Keeps.refl _ s

theorem State.haltPath_keeps (h : Nat) : Keeps edgeFields s (s.haltPath h) := by
  unfold State.haltPath
  extract_lets lat u hi v w
  have hu : Keeps edgeFields s u := Keeps.ite (fun _ => s.detectRest_keeps _) fun _ => Keeps.refl _ s
  have hv : Keeps edgeFields s v := Keeps.ite (fun _ => hu.trans (u.ringFlush_keeps _ _)) fun _ => hu
  exact (hv.trg _ (by decide)).foldl _ _ fun x _ _ => Keeps.ite (fun _ => Keeps.refl _ x) fun _ => (Keeps.refl _ x).updChan _ _ (by decide)

theorem State.bpSample_keeps (m b : Nat) : Keeps edgeFields s (s.bpSample m b) :=
  Keeps.ite (fun _ => (Keeps.refl _ s).bpNote _ _ _ _ (by decide)) fun _ => Keeps.refl _ s

theorem State.chainCount_keeps (m n c : Nat) : Keeps edgeFields s (s.chainCount m n c) := by
  unfold State.chainCount
  split
  · exact Keeps.refl _ s
  · exact (((((Keeps.refl _ s).bumpBy _ _ (by decide)).bumpBy _ _ (by decide)).bumpBy _ _ (by decide)).bumpBy _ _ (by decide)).bumpBy _ _ (by decide)

theorem State.chainCounts_keeps (m : Nat) : Keeps edgeFields s (s.chainCounts m) :=
  Keeps.ite (fun _ => (Keeps.refl _ s).foldl _ _ fun u _ _ => Keeps.ite (fun _ => u.chainCount_keeps _ _ _) fun _ => Keeps.refl _ u)
    fun _ => Keeps.refl _ s

theorem State.beamCount_keeps (m n b : Nat) (frozen : Bool) : Keeps edgeFields s (s.beamCount m n b frozen) := by
  have hsat : Keeps edgeFields s (if frozen then s else s.bumpBy (F.BMF_SAT_COUNT b) (satCount 16 (s.beamAt b m n))) :=
    Keeps.ite (fun _ => Keeps.refl _ s) fun _ => (Keeps.refl _ s).bumpBy _ _ (by decide)
  exact Keeps.ite (fun _ => Keeps.refl _ s) fun _ => Keeps.ite (fun _ => hsat.bump _ (by decide)) fun _ => hsat

theorem State.beamCounts_keeps (m : Nat) (frozen : Bool) : Keeps edgeFields s (s.beamCounts m frozen) :=
  Keeps.ite (fun _ => (Keeps.refl _ s).foldl _ _ fun u _ _ => u.beamCount_keeps _ _ _ _) fun _ => Keeps.refl _ s

theorem State.streamStep_keeps (m i : Nat) : Keeps edgeFields s (s.streamStep m i) := by
  unfold State.streamStep
  extract_lets n u
  have hu : Keeps edgeFields s u := Keeps.ite (fun _ => (Keeps.refl _ s).updStr _ _ (by decide)) fun _ => Keeps.refl _ s
  refine Keeps.ite (fun _ => ?_) fun _ => Keeps.refl _ s
  split
  · exact Keeps.ite (fun _ => hu.updStr _ _ (by decide)) fun _ => hu
  · exact hu

theorem State.runStep_keeps (m : Nat) : Keeps edgeFields s (s.runStep m) := by
  have hover : Keeps edgeFields s (if 51 ≤ m then (List.range 256).foldl (fun s c => s.haltOver (m - 51) c) s else s) :=
    Keeps.ite (fun _ => (Keeps.refl _ s).foldl _ _ fun u _ _ => u.haltOver_keeps _ _) fun _ => Keeps.refl _ s
  exact ((((hover.trans (State.ringResume_keeps _ _)).trans (State.detectAll_keeps _ _)).trans (State.ringStep_keeps _ _)).trans
    (State.chainCounts_keeps _ _)).trans (State.beamCounts_keeps _ _ _)

theorem State.stepped_keeps (m : Nat) : Keeps edgeFields s (s.stepped m) := (s.chainCounts_keeps _).trans (State.beamCounts_keeps _ _ _)

theorem State.stepOne_keeps (now : Bool) : Keeps [.dbg] s (s.stepOne now) :=
  Keeps.ite (fun _ => (Keeps.refl _ s).dbg _ (by decide)) fun _ => Keeps.refl _ s

end

/-! ### The edge as a whole -/

section

variable {s : State}

theorem State.sampleEdge_unlocked (h : s.bit F.AFE_PLL_STATUS_LOCKED = false) (inp noise : List Int) : s.sampleEdge inp noise = s :=
  if_pos (by rw [h]; rfl)

theorem State.sampleEdge_held (h : s.bit F.AFE_PLL_STATUS_LOCKED = true) (hd : s.drainHeld = true) (inp noise : List Int) :
    s.sampleEdge inp noise = ({ s with run := { s.run with scyc := s.run.scyc + 1 } } : State).stepOne
      (decide (0 < s.dbg.steps) && !s.bit F.DBG_CTRL_STEP_UNIT) := by
  unfold State.sampleEdge
  rw [if_neg (by rw [h]; decide), if_pos hd]

/-- A first label under a halt opens its span. -/
def State.edgeSpan (s : State) : State :=
  if (s.run.running && decide (s.run.next = 0)) && s.halted then { s with dbg := { s.dbg with spans := [(0, none)] } } else s

/-- The state in which the path starts at an edge: a due set has landed. -/
def State.edgeLand (s : State) : State := s.edgeSpan.applyLanding

/-- Is the unit of a step an S-cycle, and does one elapse (R428)? -/
def State.edgeStepping (s : State) : Bool := s.halted && decide (0 < s.dbg.steps) && !s.bit F.DBG_CTRL_STEP_UNIT

/-- What the first label of a run starts. -/
def State.edgeFirst (s : State) (first : Bool) : State :=
  let t := if first then ((List.range 256).foldl State.runFirst s).ringStart 0 else s
  if first && t.halted then t.haltPath 0 else t

/-- The conditioning of every channel and the SAMPLE breakpoints. -/
def State.edgeCond (s : State) (inp noise : List Int) (m : Nat) (lab frozen : Bool) : State :=
  let t := (List.range 256).foldl (fun s c => s.condStep inp noise m lab frozen c) s
  if lab && !frozen then (List.range 8).foldl (fun s b => s.bpSample m b) t else t

/-- The edge and, in a labelled run, its label count. -/
def State.edgeCount (s : State) (lab : Bool) (m : Nat) : State :=
  { s with run := { s.run with scyc := s.run.scyc + 1, next := if lab then m + 1 else s.run.next } }

/-- What follows the conditioning at a labelled edge. -/
def State.edgeRun (s : State) (m : Nat) (frozen stepping : Bool) : State :=
  if s.pastReform m then (if frozen then s else s.detectAll m)
  else
    (List.range 64).foldl (fun s i => s.streamStep m i)
      (if frozen then s.beamCounts m true else if stepping then s.stepped m else s.runStep m)

theorem State.sampleEdge_eq (h : s.bit F.AFE_PLL_STATUS_LOCKED = true) (hd : s.drainHeld = false) (inp noise : List Int) :
    ∃ (m : Nat) (now frozen first : Bool) (t : State), m = s.edgeLand.run.next ∧ (first = true → s.run.running = true) ∧
      t = (((s.edgeLand.stepOne now).edgeFirst first).edgeCond inp noise m s.run.running frozen).edgeCount s.run.running m ∧
      s.sampleEdge inp noise = if !s.run.running then t else t.edgeRun m frozen now := by
  refine ⟨_, s.edgeLand.edgeStepping, s.edgeLand.halted && !s.edgeLand.edgeStepping, s.run.running && decide (s.run.next = 0), _, rfl,
    fun hf => (Bool.and_eq_true _ _ |>.mp hf).1, rfl, ?_⟩
  unfold State.sampleEdge
  rw [if_neg (by rw [h]; decide), if_neg (by rw [hd]; decide)]
  rfl

variable (s)

theorem State.applyLanding_keeps :
    Keeps [.regs, .shadows, .setLog, .recq, .path, .cal, .trg, .host, .upd, .mnt, .obs] s s.applyLanding := by
  unfold State.applyLanding
  refine Keeps.ite (fun _ => ?_) fun _ => Keeps.refl _ s
  split
  · exact Keeps.refl _ s
  · exact Keeps.ite (fun _ => (s.landAll_result _ _).1) fun _ => Keeps.refl _ s

theorem State.applyLanding_unarmed {s : State} (h : s.applySt ≠ 2) : s.applyLanding = s := if_neg fun hh => h hh.1

theorem State.edgeSpan_keeps : Keeps [.dbg] s s.edgeSpan := Keeps.ite (fun _ => (Keeps.refl _ s).dbg _ (by decide)) fun _ => Keeps.refl _ s

theorem State.edgeLand_keeps :
    Keeps [.regs, .shadows, .setLog, .recq, .path, .cal, .trg, .host, .upd, .mnt, .obs, .dbg] s s.edgeLand :=
  s.edgeSpan_keeps.of_mono (State.applyLanding_keeps _) _ (by decide) (by decide)

theorem State.edgeLand_unarmed {s : State} (h : s.applySt ≠ 2) : Keeps [.dbg] s s.edgeLand := by
  have hst : s.edgeSpan.applySt = s.applySt := State.getF_of_regs (s.edgeSpan_keeps .regs (by decide)) _
  rw [State.edgeLand, State.applyLanding_unarmed (hst ▸ h)]
  exact s.edgeSpan_keeps

theorem State.edgeFirst_keeps (first : Bool) : Keeps edgeFields s (s.edgeFirst first) := by
  unfold State.edgeFirst
  extract_lets t
  have ht : Keeps edgeFields s t :=
    Keeps.ite (fun _ => ((Keeps.refl _ s).foldl _ _ fun u _ _ => u.runFirst_keeps _).trans (State.ringStart_keeps _ _)) fun _ => Keeps.refl _ s
  exact Keeps.ite (fun _ => ht.trans (t.haltPath_keeps _)) fun _ => ht

theorem State.edgeCond_keeps (inp noise : List Int) (m : Nat) (lab frozen : Bool) : Keeps edgeFields s (s.edgeCond inp noise m lab frozen) := by
  unfold State.edgeCond
  extract_lets t
  have ht : Keeps edgeFields s t := (Keeps.refl _ s).foldl _ _ fun u _ _ => (u.condStep_keeps _ _ _ _ _ _).mono (by decide)
  exact Keeps.ite (fun _ => ht.foldl _ _ fun u _ _ => u.bpSample_keeps _ _) fun _ => ht

/-- Without labels no breakpoint looks at a word. -/
theorem State.edgeCond_unlabelled (inp noise : List Int) (m : Nat) (frozen : Bool) : Keeps condFields s (s.edgeCond inp noise m false frozen) :=
  (Keeps.refl _ s).foldl _ _ fun u _ _ => u.condStep_keeps _ _ _ _ _ _

theorem State.edgeCount_keeps (lab : Bool) (m : Nat) : Keeps [.run] s (s.edgeCount lab m) := (Keeps.refl _ s).run _ (by decide)

theorem State.edgeRun_keeps (m : Nat) (frozen now : Bool) : Keeps edgeFields s (s.edgeRun m frozen now) := by
  unfold State.edgeRun
  refine Keeps.ite (fun _ => Keeps.ite (fun _ => Keeps.refl _ s) fun _ => s.detectAll_keeps _) fun _ => ?_
  exact Keeps.foldl _ _ (Keeps.ite (fun _ => s.beamCounts_keeps _ _) fun _ => Keeps.ite (fun _ => s.stepped_keeps _) fun _ => s.runStep_keeps _)
    fun u _ _ => u.streamStep_keeps _ _

/-- An edge that passes: counts and labels, and what it may touch by landing, labels and armed set. -/
theorem State.sampleEdge_result {s : State} (h : s.bit F.AFE_PLL_STATUS_LOCKED = true) (hd : s.drainHeld = false) (inp noise : List Int) :
    (s.sampleEdge inp noise).run.scyc = s.run.scyc + 1 ∧
      (s.sampleEdge inp noise).run.next = (if s.run.running then s.run.next + 1 else s.run.next) ∧
      ∃ u : State, (Keeps [.regs, .shadows, .setLog, .recq, .path, .cal, .trg, .host, .upd, .mnt, .obs, .dbg] s u ∧ (s.applySt ≠ 2 → Keeps [.dbg] s u)) ∧
        Keeps [.regs, .run, .path, .trg, .strs, .mem, .dbg, .recq] u (s.sampleEdge inp noise) ∧
        (s.run.running = false → Keeps [.regs, .run, .path, .recq, .dbg] u (s.sampleEdge inp noise)) := by
  obtain ⟨m, now, frozen, first, t, hm, hfirst, ht, heq⟩ := State.sampleEdge_eq h hd inp noise
  have hland := s.edgeLand_keeps
  have hone := s.edgeLand.stepOne_keeps now
  have hfst := (s.edgeLand.stepOne now).edgeFirst_keeps first
  have hcond := ((s.edgeLand.stepOne now).edgeFirst first).edgeCond_keeps inp noise m s.run.running frozen
  have hbefore : Keeps edgeFields s.edgeLand (((s.edgeLand.stepOne now).edgeFirst first).edgeCond inp noise m s.run.running frozen) :=
    ((hone.mono (by decide)).trans hfst).trans hcond
  have hrun : (((s.edgeLand.stepOne now).edgeFirst first).edgeCond inp noise m s.run.running frozen).run = s.run :=
    (hbefore .run (by decide)).trans (hland .run (by decide))
  have hmn : m = s.run.next := hm.trans (congrArg RunState.next (hland .run (by decide)))
  have htrun : t.run = { s.run with scyc := s.run.scyc + 1, next := if s.run.running then s.run.next + 1 else s.run.next } := by
    rw [ht, State.edgeCount, hrun, hmn]
  have htail : Keeps edgeFields t (s.sampleEdge inp noise) := by
    rw [heq]
    exact Keeps.ite (fun _ => Keeps.refl _ t) fun _ => t.edgeRun_keeps _ _ _
  have hrunEnd := (htail .run (by decide)).trans htrun
  refine ⟨congrArg RunState.scyc hrunEnd, congrArg RunState.next hrunEnd, s.edgeLand, ⟨hland, State.edgeLand_unarmed⟩, ?_, fun hno => ?_⟩
  · have hcount : Keeps [.run] _ t := ht ▸ State.edgeCount_keeps _ s.run.running m
    exact ((hbefore.mono (by decide)).trans (hcount.mono (by decide))).trans (htail.mono (by decide))
  · have hf : first = false := Bool.eq_false_iff.mpr fun hf => by rw [hno] at hfirst; exact Bool.false_ne_true (hfirst hf)
    have hend : s.sampleEdge inp noise = t := by rw [heq, hno]; rfl
    rw [hend, ht, hno, hf]
    exact ((hone.mono (by decide)).trans ((State.edgeCond_unlabelled _ _ _ _ _).mono (by decide))).trans
      ((State.edgeCount_keeps _ _ _).mono (by decide))

end

end Sys2Proof.Machine

open Sys2Proof.Machine in
/-- Settles O37: the edge as landing, conditioning and what follows in a labelled run, each with its frame. -/
theorem edgesAdvanceLabels : Obligations.EdgesAdvanceLabels := by
  unfold Obligations.EdgesAdvanceLabels
  refine ⟨fun inp noise s h => congrArg Host.Outcome.next (State.sampleEdge_unlocked h inp noise), fun inp noise s h hd => ?_,
    fun inp noise s h hd => ?_⟩
  · have hk := State.stepOne_keeps { s with run := { s.run with scyc := s.run.scyc + 1 } } (decide (0 < s.dbg.steps) && !s.bit F.DBG_CTRL_STEP_UNIT)
    exact ⟨_, congrArg Host.Outcome.next (State.sampleEdge_held h hd inp noise),
      ((Keeps.refl _ s).run _ (by decide)).trans (hk.mono (by decide)), hk .run (by decide)⟩
  · obtain ⟨hscyc, hnext, u, ⟨hland, hunarmed⟩, hedge, hquiet⟩ := State.sampleEdge_result h hd inp noise
    exact ⟨_, rfl, hscyc, hnext, (hland.mono (by decide)).trans (hedge.mono (by decide)),
      fun hst => ((hunarmed hst).mono (by decide)).trans (hedge.mono (by decide)),
      fun hno hst => ((hunarmed hst).mono (by decide)).trans ((hquiet hno).mono (by decide))⟩
end

section
/-!
SUPPORT. O44: the decision of a forced trigger.
-/

namespace Sys2Proof.Machine

section

variable {s t : State}

/-! ### What a decision reads -/

theorem State.getFAt_of_keeps {l : List Field} (h : Keeps l s t) (hr : Field.regs ∉ l) (hlog : Field.setLog ∉ l) (n : Nat) (f : Fld) :
    t.getFAt n f = s.getFAt n f := by
  have hrd : t.rd f.off = s.rd f.off := by rw [State.rd, State.rd, show t.regs = s.regs from h .regs hr]
  rw [State.getFAt, State.getFAt, State.rdAt, State.rdAt, hrd, show t.setLog = s.setLog from h .setLog hlog]

theorem State.getFAt_of_rd (hlog : t.setLog = s.setLog) {f : Fld} (hrd : t.rd f.off = s.rd f.off) (n : Nat) : t.getFAt n f = s.getFAt n f := by
  rw [State.getFAt, State.getFAt, State.rdAt, State.rdAt, hrd, hlog]

/-- The counters that say whether condition `i` is held. -/
def State.sameHold (s t : State) (i : Nat) : Prop :=
  (t.cond i).hold = (s.cond i).hold ∧ (t.cond i).skip = (s.cond i).skip ∧ (t.cond i).skipOf = (s.cond i).skipOf ∧ t.trg.starts = s.trg.starts

/-- What holds a condition back reads registers, the log of landings, halts and the trigger's own counters. -/
theorem State.offAfter_of_keeps (h : Keeps [.trg] s t) (i n : Nat) : t.offAfter i n = s.offAfter i n := by
  unfold State.offAfter
  rw [show t.setLog = s.setLog from h .setLog (by decide)]
  simp only [State.getFAt_of_keeps h (by decide) (by decide)]

theorem State.condBlocked_of_keeps (h : Keeps [.trg] s t) (i n : Nat) (hs : s.sameHold t i) : t.condBlocked i n = s.condBlocked i n := by
  obtain ⟨hhold, hskip, hof, hstarts⟩ := hs
  have hdbg : t.dbg = s.dbg := h .dbg (by decide)
  have hpre : ∀ p, t.prefillAt n p = s.prefillAt n p := fun p => by unfold State.prefillAt; rw [hstarts, hdbg]
  have hskips : t.skips i n = s.skips i n := by
    unfold State.skips
    dsimp only
    rw [hskip, hof, State.offAfter_of_keeps h]
  unfold State.condBlocked
  rw [hhold, hskips, hpre, State.getFAt_of_keeps h (by decide) (by decide)]

theorem State.evaluated_of_keeps (h : Keeps [.trg] s t) (n : Nat) : t.evaluated n = s.evaluated n := by
  have hrun : t.run = s.run := h .run (by decide)
  have hdbg : t.dbg = s.dbg := h .dbg (by decide)
  unfold State.evaluated State.produced State.haltLabel
  rw [hrun, hdbg, show t.reform = s.reform from h .reform (by decide)]

/-! ### One condition alone -/

theorem sortNat_single : ∀ i : Fin 8, sortNat [i.val] = [i.val] := by decide

theorem maskList_zero : maskList (List.replicate 8 0#32) = [] := by decide

theorem State.maskAt_zero (n off : Nat) (h : ∀ k : Fin 8, s.rdAt n (off + 4 * k) = 0#32) : s.maskAt n off = [] := by
  unfold State.maskAt
  have hlist : (List.range 8).map (fun k => s.rdAt n (off + 4 * k)) = List.replicate 8 0#32 := by
    rw [List.map_eq_replicate_iff.mpr fun k hk => h ⟨k, List.mem_range.mp hk⟩, List.length_range]
  rw [hlist, maskList_zero]

/-- Only the forced condition answers a HOST trigger. -/
theorem State.metConds_host (i : Fin 8) (n j : Nat) (c : Bool) (hen : s.getFAt n (F.TRG_TC_CTRL_EN i) = 1)
    (hsrc : s.getFAt n (F.TRG_TC_CTRL_SRC i) = 4) : s.metConds ⟨4, i, n, j, c⟩ = [i.val] := by
  have hp : ∀ k : Nat, (s.getFAt n (F.TRG_TC_CTRL_EN k) == 1 && s.getFAt n (F.TRG_TC_CTRL_SRC k) == 4 && (k == i.val)) = (k == i.val) := by
    intro k
    by_cases hk : k = i.val
    · rw [hk, hen, hsrc]; simp
    · rw [beq_eq_false_iff_ne.mpr hk, Bool.and_false]
  have hone : ∀ i : Fin 8, (List.range 8).filter (fun k => k == i.val) = [i.val] := by decide
  unfold State.metConds
  rw [← hone i]
  exact List.filter_congr fun k _ => hp k

/-- The settings and counters of condition `i` as its decision meets them. -/
def State.floored (s : State) (i n : Nat) : State := s.updCond i (fun x => { x with floor := n })

theorem State.floored_keeps (i n : Nat) : Keeps [.trg] s (s.floored i n) := (Keeps.refl _ s).trg _ (by decide)

theorem State.floored_sameHold {i : Nat} (hi : i < s.trg.conds.length) (n : Nat) : s.sameHold (s.floored i n) i := by
  have hc : (s.floored i n).cond i = { s.cond i with floor := n } := updAt_get_same _ _ _ _ hi
  exact ⟨by rw [hc], by rw [hc], by rw [hc], rfl⟩

/-- What becomes of a condition that fires with no channel to record. -/
def State.firedAlone (s : State) (i n j : Nat) (x : List Word) : State :=
  ((((s.fire i n).bpTrig i j false).trigOuts (maskNat [i]) n j).2.emit 0 0x0A01 x).capFree 8

theorem State.capOf_empty (i n : Nat) (h : s.maskAt n (R.TRG_PF_MASK i 0) = []) : (s.capOf [i] n).chans = [] := by
  unfold State.capOf
  simp [h]

theorem State.decide1_fires {i : Nat} (n j : Nat) (c : Bool) (hfree : (s.floored i n).condBlocked i n = none)
    (hmask : (s.floored i n).maskAt n (R.TRG_PF_MASK i 0) = []) : ∃ x, s.decide1 [i] n j c = (s.floored i n).firedAlone i n j x := by
  have hchans := State.capOf_empty i n hmask
  unfold State.decide1
  simp only [List.foldl_cons, List.foldl_nil, ← State.floored.eq_1, List.filterMap_cons, List.filterMap_nil, List.filter_cons, List.filter_nil,
    hfree, Option.map_none, Option.isNone_none, if_true, hchans, List.isEmpty_nil, Bool.not_true]
  exact ⟨_, rfl⟩

theorem State.decide1_held {i : Nat} (n j : Nat) (c : Bool) {cause : Nat} (hheld : (s.floored i n).condBlocked i n = some cause) :
    s.decide1 [i] n j c = if cause = 1 then ((s.floored i n).suppress i cause n j c).skipOne i else (s.floored i n).suppress i cause n j c := by
  unfold State.decide1
  simp only [List.foldl_cons, List.foldl_nil, ← State.floored.eq_1, List.filterMap_cons, List.filterMap_nil, List.filter_cons, List.filter_nil,
    hheld, Option.map_some, Option.isNone_some, Bool.false_eq_true, if_false]

end

section

variable (s : State)

/-! ### Firing -/

/-- The count and the label of a firing of condition `i` at SN `n`. -/
def State.fireCounted (s : State) (i n : Nat) : State := (s.bump (F.TRG_TC_FIRED_COUNT i)).wr64 (R.TRG_TC_LAST_LO i) (R.TRG_TC_LAST_HI i) n

theorem State.fireCounted_result (i n : Nat) :
    Keeps [.regs] s (s.fireCounted i n) ∧ (s.fireCounted i n).getF (F.TRG_TC_FIRED_COUNT i) = (s.getF (F.TRG_TC_FIRED_COUNT i) + 1) % 2 ^ 32 ∧
      (s.fireCounted i n).rd64 (R.TRG_TC_LAST_LO i) (R.TRG_TC_LAST_HI i) = n % 2 ^ 64 ∧
      ∀ o, o ≠ R.TRG_TC_FIRED i → o ≠ R.TRG_TC_LAST_LO i → o ≠ R.TRG_TC_LAST_HI i → (s.fireCounted i n).rd o = s.rd o := by
  refine ⟨((Keeps.refl _ s).bump _ (by decide)).wr64 _ _ _ (by decide), ?_, rd64_wr64_mod _ _ ?_, fun o h1 h2 h3 => ?_⟩
  · rw [State.fireCounted, getF_wr64_other _ _ _ _ _ ?_ ?_, getF_bump_same _ _ (show 0 + 32 ≤ 32 by decide)]
    · rfl
    · show R.TRG_TC_FIRED i ≠ R.TRG_TC_LAST_LO i; unfold R.TRG_TC_FIRED R.TRG_TC_LAST_LO; omega
    · show R.TRG_TC_FIRED i ≠ R.TRG_TC_LAST_HI i; unfold R.TRG_TC_FIRED R.TRG_TC_LAST_HI; omega
  · unfold R.TRG_TC_LAST_LO R.TRG_TC_LAST_HI; omega
  · rw [State.fireCounted, rd_wr64_other _ _ _ _ _ h2 h3]
    exact rd_setF_other s (F.TRG_TC_FIRED_COUNT i) _ o h1

/-- The hold-off of `hold` labels or triggers that a firing at `n` starts; `off`: the label at which EN has landed 0 since. -/
def State.fireHolds (s : State) (i n hold : Nat) (off : Option Nat) : State :=
  let s := if off.isSome then s else s.setF (F.TRG_TC_STATE_STATE i) 3
  if s.getFAt n (F.TRG_TC_HOLD_HMODE i) = 0 then
    let z := match off with | some a => min (n + hold) (a - 1) | none => n + hold
    s.updCond i (fun x => { x with hold := (n + 1, z) :: x.hold.filter (fun h => decide (s.label ≤ h.2 + 4096)) })
  else if off.isSome && decide (0 < (s.cond i).skip) && decide (n < (s.cond i).skipOf) then s
  else
    let s := s.updCond i (fun x => { x with skip := hold, skipOf := n })
    if off.isSome then s else s.setF (F.TRG_TC_STATE_EVLEFT i) (min 65535 hold)

theorem State.fire_eq (i n : Nat) : s.fire i n =
    if (s.fireCounted i n).getFAt n (F.TRG_TC_HOLD_HOLD i) = 0 then s.fireCounted i n
    else (s.fireCounted i n).fireHolds i n ((s.fireCounted i n).getFAt n (F.TRG_TC_HOLD_HOLD i)) ((s.fireCounted i n).offAfter i n) := rfl

/-- A condition updated in its hold-offs alone. -/
theorem State.updCond_frame {t : State} {p : Nat → Prop} (h : Frame [.regs, .trg] p s t) (i : Nat) (f : TrigCond → TrigCond) :
    Frame [.regs, .trg] p s (t.updCond i f) := ⟨h.keeps.trg _ (by decide), h.rd⟩

theorem State.fireHolds_frame (i n hold : Nat) (off : Option Nat) :
    Frame [.regs, .trg] (· ≠ R.TRG_TC_STATE i) s (s.fireHolds i n hold off) := by
  have hst : ¬ (fun o => o ≠ R.TRG_TC_STATE i) (F.TRG_TC_STATE_STATE i).off := fun h => h rfl
  have hlev : ¬ (fun o => o ≠ R.TRG_TC_STATE i) (F.TRG_TC_STATE_EVLEFT i).off := fun h => h rfl
  unfold State.fireHolds
  extract_lets v z w
  have hv : Frame [.regs, .trg] (· ≠ R.TRG_TC_STATE i) s v :=
    Frame.ite (fun _ => Frame.refl _ _ s) fun _ => (Frame.refl _ _ s).setF _ _ (by decide) hst
  have hw : Frame [.regs, .trg] (· ≠ R.TRG_TC_STATE i) s w := s.updCond_frame hv _ _
  exact Frame.ite (fun _ => s.updCond_frame hv _ _) fun _ => Frame.ite (fun _ => hv) fun _ => Frame.ite (fun _ => hw) fun _ =>
    hw.setF _ _ (by decide) hlev

theorem State.fireHolds_met (i n hold : Nat) (off : Option Nat) : (s.fireHolds i n hold off).trg.met = s.trg.met := by
  unfold State.fireHolds
  extract_lets v z w
  have hv : v.trg.met = s.trg.met := by unfold v; split <;> rfl
  split
  · exact hv
  · split
    · exact hv
    · split <;> exact hv

/-- A hold-off whose condition is still enabled shows. -/
theorem State.fireHolds_state (i n hold : Nat) : (s.fireHolds i n hold none).getF (F.TRG_TC_STATE_STATE i) = 3 := by
  have hv : (s.setF (F.TRG_TC_STATE_STATE i) 3).getF (F.TRG_TC_STATE_STATE i) = 3 := getF_setF_same _ _ _ (show 0 + 2 ≤ 32 by decide)
  unfold State.fireHolds
  simp only [Option.isSome_none, Bool.false_eq_true, if_false, Bool.false_and]
  split
  · exact hv
  · rw [getF_setF_other _ _ _ _ (show 16 + 16 ≤ 32 by decide) (.inr (.inl (show 0 + 2 ≤ 16 by decide)))]
    exact hv

/-- A firing holds its condition back where HOLD says so. -/
theorem State.fire_result (i n : Nat) :
    Frame [.regs, .trg] (· ≠ R.TRG_TC_STATE i) (s.fireCounted i n) (s.fire i n) ∧ (s.fire i n).trg.met = s.trg.met ∧
      (s.getFAt n (F.TRG_TC_HOLD_HOLD i) ≠ 0 → s.offAfter i n = none → (s.fire i n).getF (F.TRG_TC_STATE_STATE i) = 3) := by
  obtain ⟨hk, -, -, hrd⟩ := s.fireCounted_result i n
  have hlog : (s.fireCounted i n).setLog = s.setLog := hk .setLog (by decide)
  have hhold : (s.fireCounted i n).getFAt n (F.TRG_TC_HOLD_HOLD i) = s.getFAt n (F.TRG_TC_HOLD_HOLD i) :=
    State.getFAt_of_rd hlog (hrd _ (by show R.TRG_TC_HOLD i ≠ _; unfold R.TRG_TC_HOLD R.TRG_TC_FIRED; omega)
      (by show R.TRG_TC_HOLD i ≠ _; unfold R.TRG_TC_HOLD R.TRG_TC_LAST_LO; omega)
      (by show R.TRG_TC_HOLD i ≠ _; unfold R.TRG_TC_HOLD R.TRG_TC_LAST_HI; omega)) n
  have hen (m : Nat) : (s.fireCounted i n).getFAt m (F.TRG_TC_CTRL_EN i) = s.getFAt m (F.TRG_TC_CTRL_EN i) :=
    State.getFAt_of_rd hlog (hrd _ (by show R.TRG_TC_CTRL i ≠ _; unfold R.TRG_TC_CTRL R.TRG_TC_FIRED; omega)
      (by show R.TRG_TC_CTRL i ≠ _; unfold R.TRG_TC_CTRL R.TRG_TC_LAST_LO; omega)
      (by show R.TRG_TC_CTRL i ≠ _; unfold R.TRG_TC_CTRL R.TRG_TC_LAST_HI; omega)) m
  have hoff : (s.fireCounted i n).offAfter i n = s.offAfter i n := by
    unfold State.offAfter
    simp only [hlog, hen]
  rw [s.fire_eq i n, hhold, hoff]
  split
  case isTrue h0 => exact ⟨Frame.refl _ _ _, rfl, fun h => absurd h0 h⟩
  case isFalse h0 =>
    refine ⟨State.fireHolds_frame _ _ _ _ _, State.fireHolds_met _ _ _ _ _, fun _ hnone => ?_⟩
    rw [hnone]
    exact State.fireHolds_state _ _ _ _

/-! ### What follows a firing -/

theorem State.trigOuts_result (mask n j : Nat) : Keeps [.trg] s (s.trigOuts mask n j).2 ∧ (s.trigOuts mask n j).2.trg.met = s.trg.met := by
  unfold State.trigOuts
  extract_lets late at_ on u
  have hu : Keeps [.trg] s u ∧ u.trg.met = s.trg.met := by
    refine List.foldlRecOn on _ (motive := fun u => Keeps [.trg] s u ∧ u.trg.met = s.trg.met) ⟨Keeps.refl _ s, rfl⟩ fun v hv o _ => ?_
    exact ⟨hv.1.trg _ (by decide), hv.2⟩
  exact hu

/-- Registers of the conditions. -/
def condReg (o : Nat) : Prop := 0xA0400 ≤ o

theorem State.capRetire_result (k : Capture) (l : List Capture) :
    Frame [.regs, .trg] condReg s (s.capRetire k l) ∧ (s.capRetire k l).trg.met = s.trg.met := by
  have hlow {o : Nat} (h : o < 0xA0400) : ¬ condReg o := fun hc => by unfold condReg at hc; omega
  have h0 : Frame [.regs, .trg] condReg s ({ s with trg := { s.trg with caps := l } } : State) := ⟨(Keeps.refl _ s).trg _ (by decide), RdKept.refl _ _⟩
  exact ⟨((h0.setF _ _ (by decide) (hlow (by decide))).setF _ _ (by decide) (hlow (by decide))).setF _ _ (by decide) (hlow (by decide)), rfl⟩

theorem State.capFree_result (m : Nat) : Frame [.regs, .trg] condReg s (s.capFree m) ∧ (s.capFree m).trg.met = s.trg.met := by
  induction m generalizing s with
  | zero => exact ⟨Frame.refl _ _ s, rfl⟩
  | succ m ih =>
    unfold State.capFree
    split
    · exact ⟨Frame.refl _ _ s, rfl⟩
    · split
      · obtain ⟨hf, hm⟩ := s.capRetire_result ‹Capture› ‹List Capture›
        obtain ⟨hf', hm'⟩ := ih (s.capRetire ‹Capture› ‹List Capture›)
        exact ⟨hf.trans hf', hm'.trans hm⟩
      · exact ⟨Frame.refl _ _ s, rfl⟩

/-- A firing with no channel to record, seen at the registers of its condition. -/
theorem State.firedAlone_result (i n j : Nat) (x : List Word) :
    Keeps [.regs, .trg, .dbg, .recq] s (s.firedAlone i n j x) ∧ (s.firedAlone i n j x).trg.met = s.trg.met ∧
      RdKept condReg (s.fire i n) (s.firedAlone i n j x) := by
  obtain ⟨hfire, hfmet, -⟩ := s.fire_result i n
  have hbp : Keeps [.dbg] (s.fire i n) ((s.fire i n).bpTrig i j false) := (Keeps.refl _ _).bpNote _ _ _ _ (by decide)
  have hbpm : ((s.fire i n).bpTrig i j false).trg = (s.fire i n).trg := hbp .trg (by decide)
  obtain ⟨hout, houtm⟩ := ((s.fire i n).bpTrig i j false).trigOuts_result (maskNat [i]) n j
  have hemit := (hbp.of_mono hout [.dbg, .trg, .recq] (by decide) (by decide)).emit 0 0x0A01 x (by decide)
  obtain ⟨hfree, hfreem⟩ := ((((s.fire i n).bpTrig i j false).trigOuts (maskNat [i]) n j).2.emit 0 0x0A01 x).capFree_result 8
  refine ⟨?_, ?_, (RdKept.of_keeps (RdKept.refl _ _) hemit (by decide)).trans hfree.rd⟩
  · have hcount := (s.fireCounted_result i n).1
    exact ((hcount.of_mono hfire.keeps [.regs, .trg, .dbg, .recq] (by decide) (by decide)).trans (hemit.mono (by decide))).trans
      (hfree.keeps.mono (by decide))
  · rw [State.firedAlone, hfreem]
    exact houtm.trans ((congrArg TrigState.met hbpm).trans hfmet)

end

section

variable (s : State)

/-! ### Suppression -/

theorem State.suppress_result (i cause n j : Nat) (c : Bool) :
    Frame [.regs, .dbg, .recq] (· ≠ R.TRG_TC_SUPP i cause) s (s.suppress i cause n j c) ∧ (s.suppress i cause n j c).trg = s.trg ∧
      (s.suppress i cause n j c).getF (F.TRG_TC_SUPP_COUNT i cause) = (s.getF (F.TRG_TC_SUPP_COUNT i cause) + 1) % 2 ^ 32 := by
  have hbump : Frame [.regs, .dbg, .recq] (· ≠ R.TRG_TC_SUPP i cause) s (s.bump (F.TRG_TC_SUPP_COUNT i cause)) :=
    (Frame.refl _ _ s).bump _ (by decide) fun h => h rfl
  have hbp : Keeps [.dbg] (s.bump (F.TRG_TC_SUPP_COUNT i cause)) ((s.bump (F.TRG_TC_SUPP_COUNT i cause)).bpTrig i j true) :=
    (Keeps.refl _ _).bpNote _ _ _ _ (by decide)
  unfold State.suppress
  refine ⟨(hbump.trans ⟨hbp.mono (by decide), RdKept.of_keeps (RdKept.refl _ _) hbp (by decide)⟩).emit _ _ _ (by decide), rfl, ?_⟩
  rw [State.emit_getF, State.getF_of_regs (hbp .regs (by decide)), getF_bump_same _ _ (show 0 + 32 ≤ 32 by decide)]
  rfl

theorem State.skipOne_result (i : Nat) : Frame [.regs, .trg] (· ≠ R.TRG_TC_STATE i) s (s.skipOne i) ∧ (s.skipOne i).trg.met = s.trg.met := by
  have hst : ¬ (fun o => o ≠ R.TRG_TC_STATE i) (F.TRG_TC_STATE_STATE i).off := fun h => h rfl
  have hlev : ¬ (fun o => o ≠ R.TRG_TC_STATE i) (F.TRG_TC_STATE_EVLEFT i).off := fun h => h rfl
  unfold State.skipOne
  extract_lets k on u v
  have hu : Frame [.regs, .trg] (· ≠ R.TRG_TC_STATE i) s u := s.updCond_frame (Frame.refl _ _ s) _ _
  have hv : Frame [.regs, .trg] (· ≠ R.TRG_TC_STATE i) s v := Frame.ite (fun _ => hu.setF _ _ (by decide) hlev) fun _ => hu
  have hvm : v.trg.met = s.trg.met := by unfold v; split <;> rfl
  refine ⟨Frame.ite (fun _ => Frame.ite (fun _ => hv.setF _ _ (by decide) hst) fun _ => hv) fun _ => Frame.refl _ _ s, ?_⟩
  split
  · split <;> exact hvm
  · rfl

/-- A suppressed condition counts its cause, and not a firing. -/
theorem State.heldAlone_result (i cause n j : Nat) (c : Bool) :
    let t := if cause = 1 then (s.suppress i cause n j c).skipOne i else s.suppress i cause n j c
    Keeps [.regs, .trg, .dbg, .recq] s t ∧ t.trg.met = s.trg.met ∧
      t.getF (F.TRG_TC_SUPP_COUNT i cause) = (s.getF (F.TRG_TC_SUPP_COUNT i cause) + 1) % 2 ^ 32 ∧
      t.getF (F.TRG_TC_FIRED_COUNT i) = s.getF (F.TRG_TC_FIRED_COUNT i) := by
  obtain ⟨hsup, htrg, hcount⟩ := s.suppress_result i cause n j c
  have hfired := hsup.rd.getF (F.TRG_TC_FIRED_COUNT i) (by show R.TRG_TC_FIRED i ≠ _; unfold R.TRG_TC_FIRED R.TRG_TC_SUPP; omega)
  intro t
  have hcase : t = (s.suppress i cause n j c).skipOne i ∨ t = s.suppress i cause n j c := by
    unfold t; split
    · exact .inl rfl
    · exact .inr rfl
  rcases hcase with ht | ht <;> rw [ht]
  · obtain ⟨hskip, hmet⟩ := (s.suppress i cause n j c).skipOne_result i
    refine ⟨hsup.keeps.of_mono hskip.keeps _ (by decide) (by decide), hmet.trans (congrArg TrigState.met htrg), (hskip.rd.getF _ ?_).trans hcount,
      (hskip.rd.getF _ ?_).trans hfired⟩
    · show R.TRG_TC_SUPP i cause ≠ _; unfold R.TRG_TC_SUPP R.TRG_TC_STATE; omega
    · show R.TRG_TC_FIRED i ≠ _; unfold R.TRG_TC_FIRED R.TRG_TC_STATE; omega
  · exact ⟨hsup.keeps.mono (by decide), congrArg TrigState.met htrg, hcount, hfired⟩

/-! ### TRIGGER_DECISION -/

/-- One waiting trigger that meets one condition is decided with it alone. -/
theorem State.decideAt_one {i : Fin 8} {t : TrigMet} (j : Nat) (hconds : s.metConds t = [i.val]) (hev : s.evaluated t.sn = true) :
    s.decideAt j [t] [] = s.decide1 [i.val] t.sn j t.clamp := by
  unfold State.decideAt
  simp only [List.map_cons, List.map_nil, List.isEmpty_nil, if_true, List.append_nil, List.filter_cons, List.filter_nil, hconds, hev,
    List.isEmpty_cons, Bool.not_false, Bool.and_self, List.foldl_cons, List.foldl_nil, List.contains_nil, Bool.false_eq_true, if_false,
    List.nil_append, sortI, insI, Int.toNat_natCast, beq_self_eq_true, List.flatMap_cons, List.flatMap_nil, sortNat_single i, List.any_cons,
    List.any_nil, Bool.or_false]

/-- The state in which a waiting trigger with decision label `j` is decided. -/
def State.deciding (s : State) (j : Nat) : State :=
  { s with trg := { s.trg with met := s.trg.met.filter (fun t => t.j != j), nextN := max s.trg.nextN (j + 1 - 115) } }

theorem State.deciding_keeps (j : Nat) : Keeps [.trg] s (s.deciding j) := (Keeps.refl _ s).trg _ (by decide)

theorem State.trigDecide_idle {s : State} (h : s.run.running = false ∨ s.halted = true) : s.trigDecide = s := by
  have hc : (s.run.running && !s.halted) = false := by rcases h with h | h <;> simp [h]
  exact if_neg (by rw [hc]; exact Bool.false_ne_true)

/-- A single waiting trigger whose label has come is decided where no coincidence comes first. -/
theorem State.trigDecide_one {s : State} (hrun : s.run.running = true) (hhalt : s.halted = false) {t : TrigMet} (hmet : s.trg.met = [t])
    (hj : t.j ≤ s.label) (hco : s.coincNext s.trg.nextN (s.label + 1 - 115 - s.trg.nextN) = none) :
    s.trigDecide = (s.deciding t.j).decideAt t.j [t] [] := by
  have hfirst : (firstJ s.trg.met).filter (fun j => decide (j ≤ s.label)) = some t.j := by
    rw [hmet]
    exact if_pos (decide_eq_true hj)
  unfold State.trigDecide State.deciding
  rw [if_pos (by rw [hrun, hhalt]; rfl)]
  dsimp only
  rw [hfirst, hco, hmet]
  simp only [List.filter_cons, List.filter_nil, beq_self_eq_true, if_true, reduceCtorEq, if_false]

/-- The decision of a forced trigger of one condition with an empty mask, by what holds the condition back. -/
theorem State.trigDecide_forced {s : State} {i : Fin 8} {n : Nat} (hrun : s.run.running = true) (hhalt : s.halted = false)
    (hmet : s.trg.met = [⟨4, i, n, n + 115, false⟩]) (hj : n + 115 ≤ s.label)
    (hco : s.coincNext s.trg.nextN (s.label + 1 - 115 - s.trg.nextN) = none) (hev : s.evaluated n = true)
    (hen : s.getFAt n (F.TRG_TC_CTRL_EN i) = 1) (hsrc : s.getFAt n (F.TRG_TC_CTRL_SRC i) = 4) :
    s.trigDecide = (s.deciding (n + 115)).decide1 [i.val] n (n + 115) false := by
  have hk := s.deciding_keeps (n + 115)
  rw [State.trigDecide_one hrun hhalt hmet hj hco]
  exact State.decideAt_one _ (i := i) (t := ⟨4, i, n, n + 115, false⟩) (n + 115)
    (State.metConds_host i n (n + 115) false ((State.getFAt_of_keeps hk (by decide) (by decide) _ _).trans hen)
      ((State.getFAt_of_keeps hk (by decide) (by decide) _ _).trans hsrc))
    ((State.evaluated_of_keeps hk n).trans hev)

/-- What a decision with one condition is given, seen from before it. -/
theorem State.deciding_floored {s : State} {i : Fin 8} (j n : Nat) (hlen : s.trg.conds.length = 8) :
    Keeps [.trg] s ((s.deciding j).floored i n) ∧ ((s.deciding j).floored i n).condBlocked i n = s.condBlocked i n ∧
      ((s.deciding j).floored i n).trg.met = s.trg.met.filter (fun t => t.j != j) := by
  have hk : Keeps [.trg] s ((s.deciding j).floored i n) := (s.deciding_keeps j).trans (State.floored_keeps _ _)
  have hi : i.val < (s.deciding j).trg.conds.length := by show i.val < s.trg.conds.length; omega
  obtain ⟨hhold, hskip, hof, hstarts⟩ := (s.deciding j).floored_sameHold hi n
  exact ⟨hk, State.condBlocked_of_keeps hk _ _ ⟨hhold, hskip, hof, hstarts⟩, rfl⟩

theorem condReg_cond (i : Fin 8) :
    condReg (R.TRG_TC_FIRED i) ∧ condReg (R.TRG_TC_LAST_LO i) ∧ condReg (R.TRG_TC_LAST_HI i) ∧ condReg (R.TRG_TC_STATE i) := by
  unfold condReg R.TRG_TC_FIRED R.TRG_TC_LAST_LO R.TRG_TC_LAST_HI R.TRG_TC_STATE
  omega

/-- A condition that nothing holds back fires. -/
theorem State.forced_fires {s : State} {i : Fin 8} {n : Nat} (j : Nat) (hlen : s.trg.conds.length = 8)
    (hmask : ∀ k : Fin 8, s.rdAt n (R.TRG_PF_MASK i 0 + 4 * k) = 0#32) (hfree : s.condBlocked i n = none) :
    ∃ t, (s.deciding j).decide1 [i.val] n j false = t ∧ Keeps [.regs, .trg, .dbg, .recq] s t ∧ t.trg.met = s.trg.met.filter (fun t => t.j != j) ∧
      t.getF (F.TRG_TC_FIRED_COUNT i) = (s.getF (F.TRG_TC_FIRED_COUNT i) + 1) % 2 ^ 32 ∧
      t.rd64 (R.TRG_TC_LAST_LO i) (R.TRG_TC_LAST_HI i) = n % 2 ^ 64 ∧
      (s.getFAt n (F.TRG_TC_HOLD_HOLD i) ≠ 0 → s.offAfter i n = none → t.getF (F.TRG_TC_STATE_STATE i) = 3) := by
  obtain ⟨hk, hblocked, hmet⟩ := State.deciding_floored (i := i) j n hlen
  obtain ⟨cFired, cLo, cHi, cState⟩ := condReg_cond i
  generalize hu : (s.deciding j).floored i n = u at hk hblocked hmet
  have hmask' : u.maskAt n (R.TRG_PF_MASK i 0) = [] := u.maskAt_zero _ _ fun k => by
    rw [State.rdAt, State.rd, show u.regs = s.regs from hk .regs (by decide), show u.setLog = s.setLog from hk .setLog (by decide)]
    exact hmask k
  obtain ⟨x, hx⟩ := (s.deciding j).decide1_fires n j false (hu ▸ hblocked.trans hfree) (hu ▸ hmask')
  obtain ⟨hall, hmetx, hrd⟩ := u.firedAlone_result i n j x
  obtain ⟨-, hcount, hlast, -⟩ := u.fireCounted_result i n
  obtain ⟨hfire, -, hstate⟩ := u.fire_result i n
  have hne : R.TRG_TC_FIRED i ≠ R.TRG_TC_STATE i ∧ R.TRG_TC_LAST_LO i ≠ R.TRG_TC_STATE i ∧ R.TRG_TC_LAST_HI i ≠ R.TRG_TC_STATE i := by
    unfold R.TRG_TC_FIRED R.TRG_TC_LAST_LO R.TRG_TC_LAST_HI R.TRG_TC_STATE
    omega
  refine ⟨u.firedAlone i n j x, hx.trans (by rw [hu]), (hk.mono (by decide)).trans hall, hmetx.trans hmet, ?_, ?_, fun hhold hoff => ?_⟩
  · rw [hrd.getF _ cFired, hfire.rd.getF _ hne.1, hcount, State.getF_of_regs (hk .regs (by decide))]
  · rw [State.rd64, hrd _ cLo, hrd _ cHi, hfire.rd _ hne.2.1, hfire.rd _ hne.2.2]
    exact hlast
  · rw [hrd.getF _ cState]
    exact hstate (by rw [State.getFAt_of_keeps hk (by decide) (by decide)]; exact hhold) ((State.offAfter_of_keeps hk _ _).trans hoff)

/-- A condition that is held back is suppressed under its cause. -/
theorem State.forced_held {s : State} {i : Fin 8} {n : Nat} (j : Nat) (hlen : s.trg.conds.length = 8) {cause : Nat}
    (hheld : s.condBlocked i n = some cause) :
    ∃ t, (s.deciding j).decide1 [i.val] n j false = t ∧ Keeps [.regs, .trg, .dbg, .recq] s t ∧ t.trg.met = s.trg.met.filter (fun t => t.j != j) ∧
      t.getF (F.TRG_TC_SUPP_COUNT i cause) = (s.getF (F.TRG_TC_SUPP_COUNT i cause) + 1) % 2 ^ 32 ∧
      t.getF (F.TRG_TC_FIRED_COUNT i) = s.getF (F.TRG_TC_FIRED_COUNT i) := by
  obtain ⟨hk, hblocked, hmet⟩ := State.deciding_floored (i := i) j n hlen
  have heq := (s.deciding j).decide1_held n j false (hblocked.trans hheld)
  obtain ⟨hall, hmetx, hsupp, hfired⟩ := ((s.deciding j).floored i n).heldAlone_result i cause n j false
  have hreg := State.getF_of_regs (hk .regs (by decide))
  exact ⟨_, heq, (hk.mono (by decide)).trans hall, hmetx.trans hmet, hsupp.trans (by rw [hreg]), hfired.trans (hreg _)⟩

/-- TRIGGER_DECISION of one forced trigger. -/
theorem State.trigDecide_result {s : State} {i : Fin 8} {n : Nat} (hrun : s.run.running = true) (hhalt : s.halted = false)
    (hmet : s.trg.met = [⟨4, i, n, n + 115, false⟩]) (hj : n + 115 ≤ s.label)
    (hco : s.coincNext s.trg.nextN (s.label + 1 - 115 - s.trg.nextN) = none) (hev : s.evaluated n = true)
    (hen : s.getFAt n (F.TRG_TC_CTRL_EN i) = 1) (hsrc : s.getFAt n (F.TRG_TC_CTRL_SRC i) = 4)
    (hmask : ∀ k : Fin 8, s.rdAt n (R.TRG_PF_MASK i 0 + 4 * k) = 0#32) (hlen : s.trg.conds.length = 8) :
    ∃ t, s.trigDecide = t ∧ Keeps [.regs, .trg, .dbg, .recq] s t ∧ t.trg.met = [] ∧
      (s.condBlocked i n = none →
        t.getF (F.TRG_TC_FIRED_COUNT i) = (s.getF (F.TRG_TC_FIRED_COUNT i) + 1) % 2 ^ 32 ∧
        t.rd64 (R.TRG_TC_LAST_LO i) (R.TRG_TC_LAST_HI i) = n % 2 ^ 64 ∧
        (s.getFAt n (F.TRG_TC_HOLD_HOLD i) ≠ 0 → s.offAfter i n = none → t.getF (F.TRG_TC_STATE_STATE i) = 3)) ∧
      (∀ cause, s.condBlocked i n = some cause →
        t.getF (F.TRG_TC_SUPP_COUNT i cause) = (s.getF (F.TRG_TC_SUPP_COUNT i cause) + 1) % 2 ^ 32 ∧
        t.getF (F.TRG_TC_FIRED_COUNT i) = s.getF (F.TRG_TC_FIRED_COUNT i)) := by
  have hnone : s.trg.met.filter (fun t => t.j != n + 115) = [] := by
    rw [hmet]
    simp
  have heq := State.trigDecide_forced hrun hhalt hmet hj hco hev hen hsrc
  cases hb : s.condBlocked i n with
  | none =>
    obtain ⟨t, ht, hk, hm, hcount, hlast, hstate⟩ := State.forced_fires (n + 115) hlen hmask hb
    exact ⟨t, heq.trans ht, hk, hm.trans hnone, fun _ => ⟨hcount, hlast, hstate⟩, nofun⟩
  | some cause =>
    obtain ⟨t, ht, hk, hm, hsupp, hfired⟩ := State.forced_held (n + 115) hlen hb
    exact ⟨t, heq.trans ht, hk, hm.trans hnone, nofun, fun c hc => Option.some.inj hc ▸ ⟨hsupp, hfired⟩⟩

end

end Sys2Proof.Machine
end

section
/-!
SUPPORT. O44: trigger inputs, forced triggers, the states of conditions and the trigger outputs.
-/

namespace Sys2Proof.Machine

section

variable (s : State)

/-! ### TRIGIN_EDGE -/

/-- Is input `n` within 8 ticks of its last edge? -/
def State.tiNear (s : State) (n : Nat) : Bool := match s.trg.tiLast.getD n none with | some k => decide (s.tick < k + 8) | none => false

/-- The stamped edge of input `n`, counted. -/
def State.tiCounted (s : State) (n : Nat) : State :=
  ({ s with trg := { s.trg with tiLast := updAt (fun _ => some s.tick) s.trg.tiLast n } } : State).bump (F.TRG_TI_COUNT_COUNT n)

theorem State.triginEdge_eq {s : State} {n : Nat} {rise : Bool} (hen : s.bit (F.TRG_TI_CTRL_EN n) = true)
    (hsel : edgeSel (s.getF (F.TRG_TI_CTRL_EDGE n)) rise = true) (f : Nat) :
    ∃ z, s.triginEdge n rise f = if s.tiNear n then s.bump (F.TRG_TI_MISSED_COUNT n) else (s.tiCounted n).eventTrigger 1 n z := by
  unfold State.triginEdge
  rw [if_pos (by rw [hen, hsel]; rfl)]
  exact ⟨_, rfl⟩

theorem State.triginEdge_other {s : State} {n : Nat} {rise : Bool}
    (h : s.bit (F.TRG_TI_CTRL_EN n) = false ∨ edgeSel (s.getF (F.TRG_TI_CTRL_EDGE n)) rise = false) (f : Nat) : s.triginEdge n rise f = s := by
  have hc : (s.bit (F.TRG_TI_CTRL_EN n) && edgeSel (s.getF (F.TRG_TI_CTRL_EDGE n)) rise) = false := by rcases h with h | h <;> simp [h]
  exact if_neg (by rw [hc]; exact Bool.false_ne_true)

theorem State.tiCounted_result (n : Nat) :
    Keeps [.regs, .trg] s (s.tiCounted n) ∧ RegsKept [R.TRG_TI_COUNT n, R.TRG_TI_MISSED n] s (s.tiCounted n) ∧
      (s.tiCounted n).getF (F.TRG_TI_COUNT_COUNT n) = (s.getF (F.TRG_TI_COUNT_COUNT n) + 1) % 2 ^ 32 ∧
      (s.tiCounted n).trg = { s.trg with tiLast := updAt (fun _ => some s.tick) s.trg.tiLast n } :=
  ⟨((Keeps.refl _ s).trg _ (by decide)).bump _ (by decide), ((RegsKept.refl _ s).trg _).bump _ List.mem_cons_self,
    (getF_bump_same _ _ (show 0 + 32 ≤ 32 by decide)).trans rfl, rfl⟩

/-- An event that reaches the engine in a run or its drain waits for its decision. -/
theorem State.eventTrigger_result (src sel : Nat) (z : Int) :
    Keeps [.trg] s (s.eventTrigger src sel z) ∧ (s.eventTrigger src sel z).trg.tiLast = s.trg.tiLast ∧
      ((s.inRun = true ∨ s.draining = true) → (s.eventTrigger src sel z).trg.met.length = s.trg.met.length + 1) := by
  unfold State.eventTrigger
  split
  case isTrue h => exact ⟨(Keeps.refl _ s).trg _ (by decide), rfl, fun _ => List.length_append⟩
  case isFalse h =>
    refine ⟨Keeps.refl _ s, rfl, fun hc => absurd ?_ h⟩
    rcases hc with hc | hc <;> simp [hc]

theorem State.tiCounted_run (n : Fin 4) : (s.tiCounted n).inRun = s.inRun ∧ (s.tiCounted n).draining = s.draining := by
  obtain ⟨hk, hr, -⟩ := s.tiCounted_result n
  have hst : (s.tiCounted n).rd R.AFE_RUN_STATUS = s.rd R.AFE_RUN_STATUS := hr _ (by
    unfold R.AFE_RUN_STATUS R.TRG_TI_COUNT R.TRG_TI_MISSED
    simp only [List.mem_cons, List.not_mem_nil, or_false, not_or]
    omega)
  have hrun : (s.tiCounted n).run = s.run := hk .run (by decide)
  constructor
  · unfold State.inRun State.runSt State.getF
    rw [show F.AFE_RUN_STATUS_STATE.off = R.AFE_RUN_STATUS from rfl, hst]
  · unfold State.draining State.bit State.getF
    rw [show F.AFE_RUN_STATUS_DRAINING.off = R.AFE_RUN_STATUS from rfl, hst, hrun]

/-- TRIGIN_EDGE of an enabled input at a selected edge. -/
theorem State.triginEdge_result {n : Fin 4} {rise : Bool} (hen : s.bit (F.TRG_TI_CTRL_EN n) = true)
    (hsel : edgeSel (s.getF (F.TRG_TI_CTRL_EDGE n)) rise = true) (f : Nat) :
    ∃ t, s.triginEdge n rise f = t ∧ Keeps [.regs, .trg] s t ∧ RegsKept [R.TRG_TI_COUNT n, R.TRG_TI_MISSED n] s t ∧
      (s.tiNear n = true → t.trg = s.trg ∧ t.getF (F.TRG_TI_MISSED_COUNT n) = (s.getF (F.TRG_TI_MISSED_COUNT n) + 1) % 2 ^ 32) ∧
      (s.tiNear n = false → s.trg.tiLast.length = 4 → t.trg.tiLast.getD n none = some s.tick ∧
        t.getF (F.TRG_TI_COUNT_COUNT n) = (s.getF (F.TRG_TI_COUNT_COUNT n) + 1) % 2 ^ 32 ∧
        ((s.inRun = true ∨ s.draining = true) → t.trg.met.length = s.trg.met.length + 1)) := by
  obtain ⟨z, heq⟩ := State.triginEdge_eq hen hsel f
  cases hnear : s.tiNear n with
  | true =>
    rw [hnear, if_pos rfl] at heq
    refine ⟨_, heq, (Keeps.refl _ s).bump _ (by decide), (RegsKept.refl _ s).bump _ (List.mem_cons_of_mem _ List.mem_cons_self), fun _ => ⟨rfl, ?_⟩,
      nofun⟩
    exact getF_bump_same _ _ (show 0 + 32 ≤ 32 by decide)
  | false =>
    rw [hnear, if_neg Bool.false_ne_true] at heq
    obtain ⟨hk, hr, hcount, htrg⟩ := s.tiCounted_result n
    obtain ⟨hin, hdrain⟩ := s.tiCounted_run n
    obtain ⟨hek, helast, hemet⟩ := (s.tiCounted n).eventTrigger_result 1 n z
    refine ⟨_, heq, hk.trans (hek.mono (by decide)), hr.trans (hek.regsKept (by decide) _), nofun, fun _ hlen => ⟨?_, ?_, fun hrun => ?_⟩⟩
    · rw [helast, htrg]
      exact updAt_get_same _ _ _ _ (by omega)
    · rw [State.getF_of_regs (hek .regs (by decide)), hcount]
    · rw [hemet (by rw [hin, hdrain]; exact hrun), htrg]

/-! ### TRG_FORCE -/

theorem State.trgForce_result (n : Nat) :
    Keeps [.regs, .trg] s (s.trgForce n) ∧ RegsKept [R.TRG_STATUS] s (s.trgForce n) ∧
      (s.getF (F.TRG_TC_CTRL_SRC n) ≠ 4 → (s.trgForce n).trg = s.trg ∧ (s.trgForce n).bit F.TRG_STATUS_FORCE_IGN = true) ∧
      (s.getF (F.TRG_TC_CTRL_SRC n) = 4 → (s.runSt = 3 ∨ s.draining = true) → 115 ≤ s.label →
        (s.trgForce n).trg = { s.trg with met := s.trg.met ++ [⟨4, n, s.label - 115, s.label, false⟩] }) := by
  unfold State.trgForce
  split
  case isTrue h =>
    exact ⟨(Keeps.refl _ s).setF _ _ (by decide), (RegsKept.refl _ s).setF _ _ (by decide), fun _ => ⟨rfl, bit_setF_one _ _ (by decide)⟩,
      fun h4 => absurd h4 h⟩
  case isFalse h =>
    have h4 := not_not.mp h
    split
    case isTrue hc => exact ⟨(Keeps.refl _ s).trg _ (by decide), (RegsKept.refl _ s).trg _, fun hn => absurd h4 hn, fun _ _ _ => rfl⟩
    case isFalse hc => exact ⟨Keeps.refl _ s, RegsKept.refl _ s, fun hn => absurd h4 hn, fun _ hr hl => absurd ⟨hr, hl⟩ hc⟩

/-! ### PREFILL_END and HOLDOFF_END -/

/-- A new STATE of condition `n`. -/
theorem State.tcState_result (n v : Nat) :
    Keeps [.regs] s (s.setF (F.TRG_TC_STATE_STATE n) v) ∧ RegsKept [R.TRG_TC_STATE n] s (s.setF (F.TRG_TC_STATE_STATE n) v) ∧
      (s.setF (F.TRG_TC_STATE_STATE n) v).getF (F.TRG_TC_STATE_STATE n) = v % 4 :=
  ⟨(Keeps.refl _ s).setF _ _ (by decide), (RegsKept.refl _ s).setF _ _ List.mem_cons_self, getF_setF_same _ _ _ (show 0 + 2 ≤ 32 by decide)⟩

theorem State.held_iff (n : Nat) : s.held n = true ↔ ∃ h ∈ (s.cond n).hold, s.label ≤ h.2 := by
  unfold State.held
  simp only [List.any_eq_true, decide_eq_true_eq]

theorem State.heldState_held {n : Nat} (h : ∃ x ∈ (s.cond n).hold, s.label ≤ x.2) : s.heldState n = 3 := by
  rw [State.heldState, (s.held_iff n).mpr h]
  rfl

theorem State.heldState_ready {n : Nat} (h : ∀ x ∈ (s.cond n).hold, x.2 < s.label) (hskip : (s.cond n).skip = 0) : s.heldState n = 2 := by
  have hheld : s.held n = false := Bool.eq_false_iff.mpr fun hh => by
    obtain ⟨x, hx, hle⟩ := (s.held_iff n).mp hh
    exact absurd (h x hx) (not_lt_of_ge hle)
  have hskips : s.skips n s.label = false := by
    unfold State.skips
    dsimp only
    rw [hskip]
    rfl
  rw [State.heldState, hheld, hskips]
  rfl

theorem State.prefillEnd_due {s : State} {n r : Nat} (hr : s.trg.r0 = some r) (hrun : s.run.running = true)
    (hst : s.getF (F.TRG_TC_STATE_STATE n) = 1) (hle : r + s.getF (F.TRG_PF_PRE_P n) ≤ s.label) :
    s.prefillEnd n = s.setF (F.TRG_TC_STATE_STATE n) (s.heldState n) := by
  unfold State.prefillEnd
  rw [hr]
  exact if_pos (by rw [hrun, hst, decide_eq_true hle]; rfl)

theorem State.prefillEnd_other {s : State} {n : Nat} (hst : s.getF (F.TRG_TC_STATE_STATE n) ≠ 1) : s.prefillEnd n = s := by
  unfold State.prefillEnd
  split
  · rfl
  · exact if_neg (by rw [beq_eq_false_iff_ne.mpr hst, Bool.and_false, Bool.false_and]; exact Bool.false_ne_true)

theorem State.holdoffEnd_due {s : State} {n : Nat} (hne : (s.cond n).hold ≠ []) (hpast : ∀ h ∈ (s.cond n).hold, h.2 < s.label)
    (hskip : (s.cond n).skip = 0) (hst : s.getF (F.TRG_TC_STATE_STATE n) = 3) : s.holdoffEnd n = s.setF (F.TRG_TC_STATE_STATE n) 2 := by
  have hheld : s.held n = false := Bool.eq_false_iff.mpr fun hh => by
    obtain ⟨x, hx, hle⟩ := (s.held_iff n).mp hh
    exact absurd (hpast x hx) (not_lt_of_ge hle)
  exact if_pos (by rw [hst, hheld, decide_eq_true hskip, decide_eq_true hne]; rfl)

theorem State.holdoffEnd_other {s : State} {n : Nat} (hst : s.getF (F.TRG_TC_STATE_STATE n) ≠ 3) : s.holdoffEnd n = s :=
  if_neg (by rw [beq_eq_false_iff_ne.mpr hst, Bool.false_and, Bool.false_and, Bool.false_and]; exact Bool.false_ne_true)

/-! ### Trigger outputs -/

/-- Output `o` of the engine. -/
def State.out (s : State) (o : Nat) : TrigOut := s.trg.outs.getD o TrigOut.reset

theorem State.updOut_keeps (o : Nat) (f : TrigOut → TrigOut) : Keeps [.trg] s (s.updOut o f) := (Keeps.refl _ s).trg _ (by decide)

theorem State.out_updOut {s : State} {o : Nat} (h : o < s.trg.outs.length) (f : TrigOut → TrigOut) : (s.updOut o f).out o = f (s.out o) :=
  updAt_get_same _ _ _ _ h

theorem State.toLevel_of_rd {s t : State} {o : Nat} (h1 : t.rd R.PWR_STATUS = s.rd R.PWR_STATUS) (h2 : t.rd (R.TRG_TO_CTRL o) = s.rd (R.TRG_TO_CTRL o))
    (a : Bool) : t.toLevel o a = s.toLevel o a := by
  unfold State.toLevel State.bit State.getF
  rw [show F.PWR_STATUS_READY.off = R.PWR_STATUS from rfl, show (F.TRG_TO_CTRL_POL o).off = R.TRG_TO_CTRL o from rfl, h1, h2]

/-- The level of the ball of an output. -/
theorem State.pinLevel_trigout (o : Nat) : s.pinLevel (.trigout o) = s.toLevel o ((s.out o).endAt.isSome && s.bit (F.TRG_TO_CTRL_EN o)) := rfl

/-- The edge of an enabled output of a READY hub, whose ball no scan chain drives, is seen. -/
theorem State.trigout_seen {s t : State} {o : Nat} (hk : t.dbg = s.dbg) (hready : t.rd R.PWR_STATUS = s.rd R.PWR_STATUS)
    (hctrl : t.rd (R.TRG_TO_CTRL o) = s.rd (R.TRG_TO_CTRL o)) (hen : s.bit (F.TRG_TO_CTRL_EN o) = true)
    (hup : s.bit F.PWR_STATUS_READY = true) (hir : s.dbg.ir ≠ 0) (hne : (t.out o).endAt.isSome = !(s.out o).endAt.isSome) (k v : Nat) :
    (t.pinEdge s (.trigout o) k v).obs = .pin (.trigout o) (s.toLevel o (t.out o).endAt.isSome) k v :: t.obs := by
  have hent : t.bit (F.TRG_TO_CTRL_EN o) = true := by
    rw [State.bit, State.getF, show (F.TRG_TO_CTRL_EN o).off = R.TRG_TO_CTRL o from rfl, hctrl]
    exact hen
  have hlevel : t.pinLevel (.trigout o) = s.toLevel o (t.out o).endAt.isSome := by
    rw [State.pinLevel_trigout, hent, Bool.and_true, State.toLevel_of_rd hready hctrl]
  have hdiff : (t.pinLevel (.trigout o) == s.pinLevel (.trigout o)) = false := by
    rw [hlevel, State.pinLevel_trigout, hen, Bool.and_true, hne]
    unfold State.toLevel
    rw [hup]
    cases (s.out o).endAt.isSome <;> cases s.bit (F.TRG_TO_CTRL_POL o) <;> rfl
  rw [State.pinEdge_obs, hdiff, hk, beq_eq_false_iff_ne.mpr hir, hlevel]
  rfl

theorem State.pulseEnd_other {s : State} {o at_ : Nat} (h : ∀ e, (s.out o).endAt = some e → at_ < e) : s.pulseEnd o at_ = s := by
  unfold State.pulseEnd
  split
  · rfl
  · exact if_neg (not_le_of_gt (h _ ‹_›))

/-- The pulse of an output ends. -/
theorem State.pulseEnd_result {s : State} {o at_ e : Nat} (ho : o < s.trg.outs.length) (he : (s.out o).endAt = some e) (hle : e ≤ at_) :
    Keeps [.trg, .obs] s (s.pulseEnd o at_) ∧ ((s.pulseEnd o at_).out o).endAt = none ∧
      (s.bit (F.TRG_TO_CTRL_EN o) = true → s.bit F.PWR_STATUS_READY = true → s.dbg.ir ≠ 0 →
        (s.pulseEnd o at_).obs = .pin (.trigout o) (s.toLevel o false) e 0 :: s.obs) := by
  have heq : s.pulseEnd o at_ = (s.updOut o (fun x => { x with endAt := none })).pinEdge s (.trigout o) e 0 := by
    unfold State.pulseEnd
    rw [show (s.trg.outs.getD o TrigOut.reset).endAt = some e from he]
    exact if_pos hle
  have hout : ((s.updOut o (fun x => { x with endAt := none })).out o).endAt = none := by rw [State.out_updOut ho]
  have hpin := State.pinEdge_keeps (s.updOut o (fun x => { x with endAt := none })) s (.trigout o) e 0
  rw [heq]
  refine ⟨(s.updOut_keeps _ _).of_mono hpin _ (by decide) (by decide), ?_, fun hen hup hir => ?_⟩
  · rw [State.out, hpin .trg (by decide)]
    exact hout
  · rw [State.trigout_seen (s := s) (t := s.updOut o (fun x => { x with endAt := none })) rfl rfl rfl hen hup hir (by rw [hout, he]; rfl), hout]
    rfl

/-- The leads of output `o` without the first one, past a pulse that ends before it. -/
def State.leadTaken (s : State) (o l : Nat) (rest : List (Nat × Nat)) : State := (s.pulseEnd o l).updOut o (fun x => { x with leads := rest })

theorem State.toLead_early {s : State} {o l w : Nat} {rest : List (Nat × Nat)} (h : (s.out o).leads = (l, w) :: rest) (hle : s.run.scyc ≤ l) :
    s.toLead o = s := by
  unfold State.toLead
  rw [show (s.trg.outs.getD o TrigOut.reset).leads = (l, w) :: rest from h]
  exact if_neg (not_lt_of_ge hle)

theorem State.toLead_due {s : State} {o l w : Nat} {rest : List (Nat × Nat)} (h : (s.out o).leads = (l, w) :: rest) (hlt : l < s.run.scyc) :
    s.toLead o = if !(s.leadTaken o l rest).bit (F.TRG_TO_CTRL_EN o) then s.leadTaken o l rest
      else match ((s.leadTaken o l rest).out o).endAt with
      | some e => ((s.leadTaken o l rest).updOut o (fun x => { x with endAt := some (max e (l + w)) })).bump (F.TRG_TO_MERGED_COUNT o)
      | none => (((s.leadTaken o l rest).updOut o (fun x => { x with endAt := some (l + w) })).bump (F.TRG_TO_COUNT_COUNT o)).pinEdge
          (s.leadTaken o l rest) (.trigout o) l 0 := by
  unfold State.toLead
  rw [show (s.trg.outs.getD o TrigOut.reset).leads = (l, w) :: rest from h]
  exact if_pos hlt

/-- With no pulse that ends first only the lead is taken. -/
theorem State.leadTaken_eq {s : State} {o l : Nat} (h : ∀ e, (s.out o).endAt = some e → l < e) (rest : List (Nat × Nat)) :
    s.leadTaken o l rest = s.updOut o (fun x => { x with leads := rest }) := by
  rw [State.leadTaken, State.pulseEnd_other h]

/-- A lead at an output that is free starts a pulse. -/
theorem State.toLead_starts {s : State} {o l w : Nat} {rest : List (Nat × Nat)} (ho : o < s.trg.outs.length)
    (h : (s.out o).leads = (l, w) :: rest) (hlt : l < s.run.scyc) (hen : s.bit (F.TRG_TO_CTRL_EN o) = true) (hfree : (s.out o).endAt = none) :
    Keeps [.regs, .trg, .obs] s (s.toLead o) ∧ RegsKept [R.TRG_TO_COUNT o, R.TRG_TO_MERGED o] s (s.toLead o) ∧
      ((s.toLead o).out o).leads = rest ∧ ((s.toLead o).out o).endAt = some (l + w) ∧
      (s.toLead o).getF (F.TRG_TO_COUNT_COUNT o) = (s.getF (F.TRG_TO_COUNT_COUNT o) + 1) % 2 ^ 32 ∧
      (s.bit F.PWR_STATUS_READY = true → s.dbg.ir ≠ 0 → (s.toLead o).obs = .pin (.trigout o) (s.toLevel o true) l 0 :: s.obs) := by
  have hu := State.leadTaken_eq (s := s) (o := o) (l := l) (fun e he => by rw [hfree] at he; exact absurd he nofun) rest
  have heq := State.toLead_due h hlt
  generalize s.leadTaken o l rest = u at hu heq
  have huk : Keeps [.trg] s u := hu ▸ s.updOut_keeps _ _
  have hout : u.out o = { s.out o with leads := rest } := by rw [hu]; exact State.out_updOut ho _
  have huo : o < u.trg.outs.length := by rw [hu]; show o < (updAt _ _ _).length; rw [updAt_length]; exact ho
  rw [show u.bit (F.TRG_TO_CTRL_EN o) = true from (State.bit_eq_of_regs (huk .regs (by decide)) _).trans hen,
    show (u.out o).endAt = none by rw [hout]; exact hfree] at heq
  replace heq : s.toLead o = ((u.updOut o (fun x => { x with endAt := some (l + w) })).bump (F.TRG_TO_COUNT_COUNT o)).pinEdge u (.trigout o) l 0 := heq
  generalize hv : (u.updOut o (fun x => { x with endAt := some (l + w) })).bump (F.TRG_TO_COUNT_COUNT o) = v at heq
  have hvk : Keeps [.regs, .trg] u v := hv ▸ (((Keeps.refl _ u).trg _ (by decide)).bump _ (by decide))
  have hvr : RegsKept [R.TRG_TO_COUNT o, R.TRG_TO_MERGED o] u v := hv ▸ (((RegsKept.refl _ u).trg _).bump _ List.mem_cons_self)
  have hvo : v.out o = { u.out o with endAt := some (l + w) } := by rw [← hv]; exact State.out_updOut huo _
  have hpin := State.pinEdge_keeps v u (.trigout o) l 0
  have hpout : (s.toLead o).out o = v.out o := by rw [State.out, heq, hpin .trg (by decide)]; rfl
  rw [hpout, hvo, hout]
  refine ⟨?_, ?_, rfl, rfl, ?_, fun hup hir => ?_⟩
  · rw [heq]
    exact ((huk.mono (by decide)).trans (hvk.mono (by decide))).trans (hpin.mono (by decide))
  · rw [heq]
    exact ((huk.regsKept (by decide) _).trans hvr).trans (hpin.regsKept_of_obs _)
  · rw [heq, State.getF_of_regs (hpin .regs (by decide)), ← hv, getF_bump_same _ _ (show 0 + 32 ≤ 32 by decide)]
    rw [show (u.updOut o (fun x => { x with endAt := some (l + w) })).getF (F.TRG_TO_COUNT_COUNT o) = u.getF (F.TRG_TO_COUNT_COUNT o) from rfl,
      State.getF_of_regs (huk .regs (by decide))]
    rfl
  · have hready : v.rd R.PWR_STATUS = u.rd R.PWR_STATUS := hvr _ (by
      unfold R.PWR_STATUS R.TRG_TO_COUNT R.TRG_TO_MERGED
      simp only [List.mem_cons, List.not_mem_nil, or_false, not_or]
      omega)
    have hctrl : v.rd (R.TRG_TO_CTRL o) = u.rd (R.TRG_TO_CTRL o) := hvr _ (by
      unfold R.TRG_TO_CTRL R.TRG_TO_COUNT R.TRG_TO_MERGED
      simp only [List.mem_cons, List.not_mem_nil, or_false, not_or]
      omega)
    have hregs : u.regs = s.regs := huk .regs (by decide)
    rw [heq, State.trigout_seen (s := u) (t := v) (hvk .dbg (by decide)) hready hctrl ((State.bit_eq_of_regs hregs _).trans hen)
      ((State.bit_eq_of_regs hregs _).trans hup) (by rw [show u.dbg = s.dbg from huk .dbg (by decide)]; exact hir)
      (by rw [hvo, hout, hfree]; rfl), hvo, State.toLevel_of_rd (t := u) (s := s) (by rw [State.rd, State.rd, hregs]) (by rw [State.rd, State.rd, hregs]),
      show v.obs = u.obs from hvk .obs (by decide), show u.obs = s.obs from huk .obs (by decide)]
    rfl

/-- A lead at an output whose pulse still lasts extends it. -/
theorem State.toLead_merges {s : State} {o l w e : Nat} {rest : List (Nat × Nat)} (ho : o < s.trg.outs.length)
    (h : (s.out o).leads = (l, w) :: rest) (hlt : l < s.run.scyc) (hen : s.bit (F.TRG_TO_CTRL_EN o) = true) (hend : (s.out o).endAt = some e)
    (hle : l < e) :
    Keeps [.regs, .trg] s (s.toLead o) ∧ RegsKept [R.TRG_TO_COUNT o, R.TRG_TO_MERGED o] s (s.toLead o) ∧ ((s.toLead o).out o).leads = rest ∧
      ((s.toLead o).out o).endAt = some (max e (l + w)) ∧
      (s.toLead o).getF (F.TRG_TO_MERGED_COUNT o) = (s.getF (F.TRG_TO_MERGED_COUNT o) + 1) % 2 ^ 32 := by
  have hu := State.leadTaken_eq (s := s) (o := o) (l := l) (fun e' he => by rw [hend] at he; exact Option.some.inj he ▸ hle) rest
  have heq := State.toLead_due h hlt
  generalize s.leadTaken o l rest = u at hu heq
  have huk : Keeps [.trg] s u := hu ▸ s.updOut_keeps _ _
  have hout : u.out o = { s.out o with leads := rest } := by rw [hu]; exact State.out_updOut ho _
  have huo : o < u.trg.outs.length := by rw [hu]; show o < (updAt _ _ _).length; rw [updAt_length]; exact ho
  rw [show u.bit (F.TRG_TO_CTRL_EN o) = true from (State.bit_eq_of_regs (huk .regs (by decide)) _).trans hen,
    show (u.out o).endAt = some e by rw [hout]; exact hend] at heq
  replace heq : s.toLead o = (u.updOut o (fun x => { x with endAt := some (max e (l + w)) })).bump (F.TRG_TO_MERGED_COUNT o) := heq
  have hto : (s.toLead o).out o = { u.out o with endAt := some (max e (l + w)) } := by rw [heq]; exact State.out_updOut huo _
  rw [hto, hout]
  refine ⟨?_, ?_, rfl, rfl, ?_⟩
  · rw [heq]
    exact ((huk.mono (by decide)).trg _ (by decide)).bump _ (by decide)
  · rw [heq]
    exact ((huk.regsKept (by decide) _).trg _).bump _ (List.mem_cons_of_mem _ List.mem_cons_self)
  · rw [heq, getF_bump_same _ _ (show 0 + 32 ≤ 32 by decide)]
    rw [show (u.updOut o (fun x => { x with endAt := some (max e (l + w)) })).getF (F.TRG_TO_MERGED_COUNT o) = u.getF (F.TRG_TO_MERGED_COUNT o) from
      rfl, State.getF_of_regs (huk .regs (by decide))]
    rfl

/-- A lead at a free output that is disabled starts no pulse. -/
theorem State.toLead_disabled {s : State} {o l w : Nat} {rest : List (Nat × Nat)} (ho : o < s.trg.outs.length)
    (h : (s.out o).leads = (l, w) :: rest) (hlt : l < s.run.scyc) (hdis : s.bit (F.TRG_TO_CTRL_EN o) = false) (hfree : (s.out o).endAt = none) :
    Keeps [.trg] s (s.toLead o) ∧ ((s.toLead o).out o).leads = rest := by
  have hu := State.leadTaken_eq (s := s) (o := o) (l := l) (fun e he => by rw [hfree] at he; exact absurd he nofun) rest
  have heq := State.toLead_due h hlt
  generalize s.leadTaken o l rest = u at hu heq
  have huk : Keeps [.trg] s u := hu ▸ s.updOut_keeps _ _
  have hout : u.out o = { s.out o with leads := rest } := by rw [hu]; exact State.out_updOut ho _
  rw [show u.bit (F.TRG_TO_CTRL_EN o) = false from (State.bit_eq_of_regs (huk .regs (by decide)) _).trans hdis] at heq
  replace heq : s.toLead o = u := heq
  rw [heq]
  exact ⟨huk, by rw [hout]⟩

/-- A pulse that ends before the lead ends first. -/
theorem State.toLead_after {s : State} {o l w e : Nat} {rest : List (Nat × Nat)} (ho : o < s.trg.outs.length)
    (h : (s.out o).leads = (l, w) :: rest) (hlt : l < s.run.scyc) (hend : (s.out o).endAt = some e) (hle : e ≤ l) :
    s.toLead o = (s.pulseEnd o l).toLead o ∧ ((s.pulseEnd o l).out o).leads = (l, w) :: rest ∧ o < (s.pulseEnd o l).trg.outs.length := by
  obtain ⟨hk, hnone, -⟩ := State.pulseEnd_result ho hend hle
  have htrg : (s.pulseEnd o l).trg = (s.updOut o (fun x => { x with endAt := none })).trg := by
    unfold State.pulseEnd
    rw [show (s.trg.outs.getD o TrigOut.reset).endAt = some e from hend]
    exact (congrArg State.trg (if_pos hle)).trans (State.pinEdge_keeps _ _ _ _ _ .trg (by decide))
  have hleads : ((s.pulseEnd o l).out o).leads = (l, w) :: rest := by
    rw [State.out, htrg, ← State.out, State.out_updOut ho]
    exact h
  have hlen : o < (s.pulseEnd o l).trg.outs.length := by
    rw [htrg]
    show o < (updAt _ _ _).length
    rw [updAt_length]
    exact ho
  have hrun : (s.pulseEnd o l).run = s.run := hk .run (by decide)
  have htwice : (s.pulseEnd o l).leadTaken o l rest = s.leadTaken o l rest := by
    rw [State.leadTaken, State.pulseEnd_other (fun e' he => by rw [hnone] at he; exact absurd he nofun)]
    rfl
  refine ⟨?_, hleads, hlen⟩
  rw [State.toLead_due h hlt, State.toLead_due hleads (by rw [hrun]; exact hlt), htwice]

/-- A due lead of an enabled output is taken, whatever pulse it meets. -/
theorem State.toLead_frame {s : State} {o l w : Nat} {rest : List (Nat × Nat)} (ho : o < s.trg.outs.length)
    (h : (s.out o).leads = (l, w) :: rest) (hlt : l < s.run.scyc) (hen : s.bit (F.TRG_TO_CTRL_EN o) = true) :
    Keeps [.regs, .trg, .obs] s (s.toLead o) ∧ RegsKept [R.TRG_TO_COUNT o, R.TRG_TO_MERGED o] s (s.toLead o) ∧
      ((s.toLead o).out o).leads = rest := by
  cases hend : (s.out o).endAt with
  | none =>
    obtain ⟨hk, hr, hl, -⟩ := State.toLead_starts ho h hlt hen hend
    exact ⟨hk, hr, hl⟩
  | some e =>
    by_cases hle : e ≤ l
    · obtain ⟨heq, hleads, hlen⟩ := State.toLead_after ho h hlt hend hle
      obtain ⟨hk, hnone, -⟩ := State.pulseEnd_result ho hend hle
      obtain ⟨hk', hr', hl', -⟩ := State.toLead_starts hlen hleads (by rw [show (s.pulseEnd o l).run = s.run from hk .run (by decide)]; exact hlt)
        ((State.bit_eq_of_regs (hk .regs (by decide)) _).trans hen) hnone
      rw [heq]
      exact ⟨(hk.mono (by decide)).trans hk', (hk.regsKept (by decide) _).trans hr', hl'⟩
    · obtain ⟨hk, hr, hl, -⟩ := State.toLead_merges ho h hlt hen hend (not_le.mp hle)
      exact ⟨hk.mono (by decide), hr, hl⟩

end

end Sys2Proof.Machine

open Sys2Proof.Machine in
/-- Settles O44: inputs and forced triggers from what they count and queue, the decision of one forced trigger by what holds its condition back,
and the outputs from their leads and pulses. -/
theorem triggersFire : Obligations.TriggersFire := by
  unfold Obligations.TriggersFire
  refine ⟨fun n rise f s near hen hsel hnear => ?_, fun n rise f s h => congrArg Host.Outcome.next (State.triginEdge_other h f),
    fun id n s hg => ?_, fun s h => congrArg Host.Outcome.next (State.trigDecide_idle h),
    fun s i n hrun hhalt hmet hj hco hev hen hsrc hmask hlen => ?_, fun n s r hr hrun hst hle => ?_, fun n s hne hpast hskip hst => ?_,
    fun n s h => congrArg Host.Outcome.next (State.prefillEnd_other h), fun n s h => congrArg Host.Outcome.next (State.holdoffEnd_other h),
    fun n s l w rest hlen hl hlt hen => ?_, fun n s l w rest hlen hl => ⟨fun hle => ?_, fun hlt hdis hfree => ?_⟩, fun n s e hlen he hlt => ?_⟩
  · obtain ⟨t, ht, hk, hr, hmiss, htake⟩ := s.triginEdge_result hen hsel f
    have hn : near = s.tiNear n := hnear
    exact ⟨t, congrArg Host.Outcome.next ht, hk, hr, fun h => hmiss (hn ▸ h), fun h => htake (hn ▸ h)⟩
  · have hforce : R.TRG_TC_FORCE n ≠ R.HIF_APPLY_CTRL := by unfold R.TRG_TC_FORCE R.HIF_APPLY_CTRL; omega
    refine gated_next _ hg hforce ?_
    obtain ⟨hk, hr, hign, htake⟩ := s.trgForce_result n
    exact ⟨(hk.mono (by decide)).bpReg _ _ _ (by decide), hr.bpReg _ _ _, hign, htake⟩
  · obtain ⟨t, ht, hk, hm, hfree, hheld⟩ := State.trigDecide_result hrun hhalt hmet hj hco hev hen hsrc hmask hlen
    exact ⟨t, congrArg Host.Outcome.next ht, hk.mono (by decide), hm, hfree, hheld⟩
  · obtain ⟨hk, hreg, hval⟩ := s.tcState_result n (s.heldState n)
    refine ⟨_, congrArg Host.Outcome.next (State.prefillEnd_due hr hrun hst hle), hk, hreg, fun hh => ?_, fun hh hskip => ?_⟩
    · rw [hval, s.heldState_held hh]
    · rw [hval, s.heldState_ready hh hskip]
  · obtain ⟨hk, hreg, hval⟩ := s.tcState_result n 2
    exact ⟨_, congrArg Host.Outcome.next (State.holdoffEnd_due hne hpast hskip hst), hk, hreg, hval⟩
  · have ho : n.val < s.trg.outs.length := by omega
    obtain ⟨hk, hr, hrest⟩ := State.toLead_frame ho hl hlt hen
    refine ⟨_, rfl, hk, hr, hrest, fun hfree => ?_, fun e hend hle => ?_⟩
    · obtain ⟨-, -, -, hnew, hcount, hobs⟩ := State.toLead_starts ho hl hlt hen hfree
      exact ⟨hnew, hcount, hobs⟩
    · obtain ⟨hkm, -, -, hnew, hcount⟩ := State.toLead_merges ho hl hlt hen hend hle
      exact ⟨hnew, hkm .obs (by decide), hcount⟩
  · exact congrArg Host.Outcome.next (State.toLead_early hl hle)
  · exact ⟨_, rfl, State.toLead_disabled (by omega) hl hlt hdis hfree⟩
  · obtain ⟨hk, hnone, hobs⟩ := State.pulseEnd_result (at_ := s.run.scyc - 1) (show n.val < s.trg.outs.length by omega) he (by omega)
    exact ⟨_, rfl, hk, hnone, hobs⟩
end

section
/-!
SUPPORT. What the update agent does with the journal, its lock and the maintenance coordinator.
-/

namespace Sys2Proof.Machine

/-! ### Outcomes of flash writes -/

/-- The fields that the outcome of a flash write changes. -/
def writeFields : List Field := [.regs, .host, .obs, .recq]

section

variable {s t : State}

variable (s)

theorem State.setAlert_keeps (n : Nat) : Keeps [.regs, .host, .obs] s (s.setAlert n) := by
  have hset : Keeps [.regs, .host, .obs] s (s.setF ⟨R.MNT_ALERT_STATUS, n, 1⟩ 1) := (Keeps.refl _ s).setF _ _ (by decide)
  have hsig := hset.trans (((State.signalAlert_frame _ besideMnt).keeps).mono (by decide))
  exact Keeps.ite (fun _ => hset) fun _ => Keeps.ite (fun _ => Keeps.ite (fun _ => hsig) fun _ => hsig.pinOut _ _ _ _ (by decide)) fun _ => hset

/-- An outcome of a class that says nothing of memory contents is no lasting fault of the trial (R399). -/
theorem State.mntFault_plain {k : Nat} (hk : k < 8) (hc : [0, 1, 4, 5].contains k = false) (tr : Bool) (loc : Nat) :
    Frame writeFields besideMnt s (s.mntFault k tr loc) := by
  refine ⟨?_, (s.mntFault_frame hk tr loc).rd⟩
  unfold State.mntFault
  rw [hc]
  simp only [Bool.and_false, Bool.false_eq_true, if_false]
  refine Keeps.emit (.trans (Keeps.setF (Keeps.setB (Keeps.setF ?_ _ _ (by decide)) _ _ (by decide)) _ _ (by decide))
    ((State.setAlert_keeps _ _).mono (by decide))) _ _ _ (by decide)
  exact Keeps.ite (fun _ => (Keeps.refl _ s).bump _ (by decide)) fun _ => (Keeps.refl _ s).bump _ (by decide)

theorem State.flashTakes_one : s.flashTakes 1 ↔ s.flash.plan.headD 0 < 2 := by
  have hhead : s.flash.plan.getD 0 0 = s.flash.plan.headD 0 := by cases s.flash.plan <;> rfl
  exact ⟨fun h => hhead ▸ h 0 (by decide), fun h k hk => by
    rw [show k = 0 by omega, hhead]
    exact h⟩

/-! ### The journal -/

/-- Registers that neither the journal nor the maintenance block shows anything in. -/
def besideJournal (o : Nat) : Prop := besideMnt o ∧ (o < 0x7012C ∨ (0x70138 ≤ o ∧ o < 0x70180) ∨ 0x701A0 ≤ o)

theorem State.showJournal_beside : Frame [.regs] besideJournal s s.showJournal := by
  have hr : Field.regs ∈ [Field.regs] := by decide
  refine ⟨s.showJournal_keeps, ?_⟩
  unfold State.showJournal
  dsimp only
  refine ((((((RdKept.refl _ s).setF _ _ ?_).setF _ _ ?_).setF _ _ ?_).setF _ _ ?_).setF _ _ ?_).setF _ _ ?_
  all_goals unfold besideJournal besideMnt; decide

theorem State.showStaged_beside : Frame [.regs] besideJournal s s.showStaged := by
  refine ⟨s.showStaged_keeps, ?_⟩
  refine (RdKept.refl _ s).foldl _ _ fun u n hn => (RdKept.refl _ u).setF _ _ ?_
  have hn := List.mem_range.mp hn
  show ¬ besideJournal (R.UPD_SEC_VER n)
  unfold besideJournal R.UPD_SEC_VER
  omega

/-- The parts of the flash beside its journal and the plan of writes that fail. -/
def Flash.besideJ (f g : Flash) : Prop := g.slots = f.slots ∧ g.sets = f.sets ∧ g.cals = f.cals ∧ g.arbProg = f.arbProg ∧ g.plan = f.plan.drop 1

theorem Flash.jAppend_beside (f : Flash) (b : List Byte) : f.besideJ (f.planned.jAppend b) := by
  refine ⟨Flash.jAppend_slots _ _, Flash.jAppend_sets _ _, Flash.jAppend_cals _ _, ?_, ?_⟩ <;> unfold Flash.jAppend <;> split <;> split <;> rfl

theorem State.updJournal_frame (st active other pre : Nat) :
    Frame [.regs, .host, .obs, .recq, .flash] besideJournal s (s.updJournal st active other pre).2 := by
  have hfault (u : State) (tr : Bool) (loc : Nat) : Frame [.regs, .host, .obs, .recq, .flash] besideJournal u (u.mntFault 3 tr loc) :=
    (u.mntFault_plain (by decide) (by decide) tr loc).mono (by decide) fun _ h => h.1
  have hplan (u : State) (x : Flash) : Frame [.regs, .host, .obs, .recq, .flash] besideJournal u { u with flash := x } :=
    ⟨(Keeps.refl _ u).flash x (by decide), RdKept.refl _ u⟩
  refine Frame.trans ?_ ((State.showStaged_beside _).wide (by decide))
  show Frame _ _ s (s.writeJournal st active other pre).2
  unfold State.writeJournal State.flashWrite
  dsimp only
  split
  · exact (hplan s _).trans (hfault _ _ _)
  · exact (((hplan s _).trans (Frame.ite (fun _ => hfault _ _ _) fun _ => Frame.refl _ _ _)).trans (hplan _ _)).trans
      ((State.showJournal_beside _).wide (by decide))

theorem State.writeJournal_ok (st active other pre : Nat) :
    (s.updJournal st active other pre).1 = decide (s.flash.plan.headD 0 < 2) := by
  show (s.writeJournal st active other pre).1 = _
  unfold State.writeJournal State.flashWrite
  dsimp only
  split
  case isTrue h => exact (decide_eq_false (not_lt_of_ge h)).symm
  case isFalse h => exact (decide_eq_true (not_le.mp h)).symm

/-- An entry that cannot be written leaves the flash but for its plan. -/
theorem State.updJournal_fails {s : State} (h : ¬ s.flashTakes 1) (st active other pre : Nat) :
    (s.updJournal st active other pre).1 = false ∧ (s.updJournal st active other pre).2.flash = { s.flash with plan := s.flash.plan.drop 1 } := by
  have hp : 2 ≤ s.flash.plan.headD 0 := not_lt.mp fun hlt => h (s.flashTakes_one.mpr hlt)
  refine ⟨(s.writeJournal_ok st active other pre).trans (decide_eq_false (not_lt_of_ge hp)), ?_⟩
  rw [State.updJournal_flash]
  rcases s.flashWrite_cases s.flash.jNextAddr (fun u =>
    ({ u with flash := u.flash.jAppend (JEntry.bytes ⟨s.jNext, st, active, other, pre, s.slotVer 1, s.slotVer 2⟩) }).showJournal) with
    ⟨-, -, hf⟩ | ⟨hlt, -, -⟩
  · exact hf
  · exact absurd hlt (not_lt_of_ge hp)

/-- An entry that is written governs. -/
theorem State.updJournal_takes {s : State} (h : s.flashTakes 1) (st active other pre : Nat) :
    (s.updJournal st active other pre).1 = true ∧ s.flash.besideJ (s.updJournal st active other pre).2.flash ∧
      (s.jNext < 2 ^ 32 → st < 256 → active < 256 → other < 256 → pre < 256 →
        (s.updJournal st active other pre).2.flash.journal = some ⟨s.jNext, st, active, other, pre, s.slotVer 1, s.slotVer 2⟩) := by
  have hp := s.flashTakes_one.mp h
  refine ⟨(s.writeJournal_ok st active other pre).trans (decide_eq_true hp), ?_, fun hn h1 h2 h3 h4 => ?_⟩
  · rw [State.updJournal_flash, State.writeJournal_flash _ _ _ _ _ hp]
    exact s.flash.jAppend_beside _
  · rw [State.updJournal_flash]
    exact s.writeJournal_journal st active other pre hp hn h1 h2 h3 h4

/-- The fields of the governing entry. -/
theorem State.jOf_entry {t : State} {e : JEntry} (h : t.flash.journal = some e) :
    t.jState = e.state ∧ t.jActive = e.active ∧ t.jOther = e.other ∧ t.jPre = e.pre := by
  unfold State.jState State.jActive State.jOther State.jPre
  rw [h]
  exact ⟨rfl, rfl, rfl, rfl⟩

/-! ### The lock -/

/-- The registers that a release writes. -/
def releaseRegs : List Nat := [R.UPD_SESSION, R.UPD_STATUS, R.UPD_OFFSET]

/-- A release leaves IDLE with the lock free, and the flags as they stood. -/
theorem State.updRelease_result (ident : Nat) :
    Keeps [.regs, .upd, .pwr, .recq] s (s.updRelease ident) ∧ RegsKept releaseRegs s (s.updRelease ident) ∧
      (s.updRelease ident).updSt = 0 ∧ (s.updRelease ident).updOwner = 0 ∧
      ∀ b w, 8 ≤ b → b + w ≤ 32 → (s.updRelease ident).getF ⟨R.UPD_STATUS, b, w⟩ = s.getF ⟨R.UPD_STATUS, b, w⟩ := by
  unfold State.updRelease State.updClear
  dsimp only
  generalize hu : (s.setF F.UPD_SESSION_OWNER 0).updTo 0 = u
  have huk : Keeps [.regs] s u := hu ▸ ((Keeps.refl _ s).setF _ _ (by decide)).setF _ _ (by decide)
  have hur : RegsKept releaseRegs s u := hu ▸ ((RegsKept.refl _ s).setF _ _ (by decide)).setF _ _ (by decide)
  generalize hv : ({ u with upd := { UpdState.reset with coefs := u.upd.coefs, carried := u.upd.carried } } : State) = v
  have hvk : Keeps [.regs, .upd] s v := hv ▸ ((huk.mono (by decide)).upd _ (by decide))
  have hvregs : v.regs = u.regs := by rw [← hv]
  generalize hw : (v.setF F.UPD_OFFSET_NEXT 0).setF F.UPD_STATUS_SECTION 0 = w
  have hwk : Keeps [.regs, .upd] s w := hw ▸ ((hvk.setF _ _ (by decide)).setF _ _ (by decide))
  have hwr : RegsKept releaseRegs s w := by
    rw [← hw]
    refine RegsKept.setF (RegsKept.setF (fun o ho => ?_) _ _ (by decide)) _ _ (by decide)
    rw [State.rd, hvregs]
    exact hur o ho
  have hstatus (b n : Nat) (hb : 8 ≤ b ∨ b + n ≤ 4) : w.getF ⟨R.UPD_STATUS, b, n⟩ = u.getF ⟨R.UPD_STATUS, b, n⟩ := by
    rw [← hw, getF_setF_other _ _ _ _ (show 4 + 4 ≤ 32 by decide) (.inr (hb.elim (fun h => .inr (show 4 + 4 ≤ b by omega)) fun h =>
      .inl (show b + n ≤ 4 from h))), getF_setF_other _ _ _ _ (by decide) (.inl (show R.UPD_STATUS ≠ R.UPD_OFFSET by decide)),
      State.getF_of_regs hvregs]
  refine ⟨((hwk.mono (by decide)).worked _ (by decide)).emit _ _ _ (by decide), ?_, ?_, ?_, fun b n hb hbn => ?_⟩
  · exact (hwr.trans (((Keeps.refl [.pwr] w).worked 12 (by decide)).regsKept (by decide) _)).trans
      (((Keeps.refl [.recq] _).emit _ _ _ (by decide)).regsKept (by decide) _)
  · rw [State.updSt, State.emit_getF, State.getF_of_regs (((Keeps.refl [.pwr] w).worked 12 (by decide)) .regs (by decide)),
      show F.UPD_STATUS_STATE = ⟨R.UPD_STATUS, 0, 4⟩ from rfl, hstatus 0 4 (.inr (by decide)), ← hu]
    exact getF_setF_same _ F.UPD_STATUS_STATE 0 (by decide)
  · rw [State.updOwner, State.emit_getF, State.getF_of_regs (((Keeps.refl [.pwr] w).worked 12 (by decide)) .regs (by decide)), ← hw,
      getF_setF_other _ _ _ _ (by decide) (.inl (by decide)), getF_setF_other _ _ _ _ (by decide) (.inl (by decide)), State.getF_of_regs hvregs,
      ← hu, State.updTo, getF_setF_other _ _ _ _ (by decide) (.inl (by decide)), getF_setF_same _ _ _ (by decide)]
    rfl
  · rw [State.emit_getF, State.getF_of_regs (((Keeps.refl [.pwr] w).worked 12 (by decide)) .regs (by decide)), hstatus b n (.inl hb), ← hu,
      State.updTo, getF_setF_other _ _ _ _ (by decide) (.inr (.inr (show 0 + 4 ≤ b by omega))),
      getF_setF_other _ _ _ _ (by decide) (.inl (show R.UPD_STATUS ≠ R.UPD_SESSION by decide))]

end

section

variable (s : State)

/-! ### Settings saves at the coordinator -/

/-- Registers that a submitted save does not write. -/
def besideSave (o : Nat) : Prop := besideMnt o ∧ o ≠ R.PWR_SAVE_CTRL

/-- The flash beside the settings halves, and the timer of the saves, stay. -/
def State.savesApart (s t : State) : Prop :=
  t.flash.journal = s.flash.journal ∧ t.flash.plan = s.flash.plan ∧ t.flash.slots = s.flash.slots ∧ t.flash.arbProg = s.flash.arbProg ∧
    t.pwr.saveFrom = s.pwr.saveFrom

theorem State.submit_save (tag : Nat) : s.submit actSetsave 0 tag =
    if (s.setF F.PWR_SAVE_CTRL_SAVE_BUSY 1).mnt.waiting.any (fun y => y.a == actSetsave && y.tag != 1) then
      { (s.setF F.PWR_SAVE_CTRL_SAVE_BUSY 1).bump (F.MNT_ACT_JOINED_COUNT actSetsave) with mnt := { s.mnt with
        waiting := s.mnt.waiting.map (fun y => if y.a = actSetsave ∧ y.tag ≠ 1 then { y with tag := max y.tag tag } else y) } }
    else if (arriving actSetsave 0 tag).blocked (s.mnt.running ++ s.mnt.waiting) then
      ({ s.setF F.PWR_SAVE_CTRL_SAVE_BUSY 1 with mnt := { s.mnt with
        waiting := s.mnt.waiting ++ [{ arriving actSetsave 0 tag with waited := true }] } } : State).noteDepth
    else (s.setF F.PWR_SAVE_CTRL_SAVE_BUSY 1).enter (arriving actSetsave 0 tag) := by
  unfold State.submit
  rw [if_pos rfl]
  simp only [true_or, true_and, ne_eq, not_true_eq_false, false_and, and_false, if_false]
  rfl

theorem State.startSave {tag : Nat} (h : tag ≠ 1) :
    s.startAct (arriving actSetsave 0 tag) = (s.setF F.PWR_SAVE_CTRL_SAVE_BUSY 1).saveSnap := if_neg h

theorem State.enter_save {tag : Nat} (h : tag ≠ 1) :
    s.enter (arriving actSetsave 0 tag) = ((s.running (arriving actSetsave 0 tag)).setF F.PWR_SAVE_CTRL_SAVE_BUSY 1).saveSnap := by
  rw [s.enter_eq]
  exact State.startSave _ h

theorem State.saveSnap_apart : s.savesApart s.saveSnap := ⟨rfl, rfl, rfl, rfl, rfl⟩

theorem State.saveSnap_mnt : s.saveSnap.mnt = s.mnt := s.saveSnap_keeps .mnt (by decide)

theorem besideSave_joined : ¬ besideSave (F.MNT_ACT_JOINED_COUNT actSetsave).off := by
  unfold besideSave besideMnt
  decide

/-- A save that arrives joins a waiting one, waits or begins; it shows as busy. -/
theorem State.submitSave_result {tag : Nat} (h : tag ≠ 1) :
    Frame [.regs, .mnt, .flash, .pwr] besideSave s (s.submit actSetsave 0 tag) ∧
      (s.submit actSetsave 0 tag).bit F.PWR_SAVE_CTRL_SAVE_BUSY = true ∧ s.savesApart (s.submit actSetsave 0 tag) ∧
      ∃ a ∈ (s.submit actSetsave 0 tag).mnt.running ++ (s.submit actSetsave 0 tag).mnt.waiting, a.a = actSetsave ∧ a.tag ≠ 1 ∧ tag ≤ a.tag := by
  have hbusy : Frame [.regs, .mnt, .flash, .pwr] besideSave s (s.setF F.PWR_SAVE_CTRL_SAVE_BUSY 1) :=
    (Frame.refl _ _ s).setF _ _ (by decide) fun hb => hb.2 rfl
  have hset (u : State) : (u.setF F.PWR_SAVE_CTRL_SAVE_BUSY 1).bit F.PWR_SAVE_CTRL_SAVE_BUSY = true := bit_setF_one _ _ (by decide)
  have hmnt {u : State} (hu : Frame [.regs, .mnt, .flash, .pwr] besideSave s u) (x : MaintState) :
      Frame [.regs, .mnt, .flash, .pwr] besideSave s { u with mnt := x } := ⟨hu.keeps.mnt _ (by decide), hu.rd⟩
  rw [s.submit_save tag]
  split
  case isTrue hj =>
    refine ⟨hmnt (hbusy.bump _ (by decide) besideSave_joined) _, ?_, ⟨rfl, rfl, rfl, rfl, rfl⟩, ?_⟩
    · exact (bit_bump_other (s.setF F.PWR_SAVE_CTRL_SAVE_BUSY 1) (F.MNT_ACT_JOINED_COUNT actSetsave) F.PWR_SAVE_CTRL_SAVE_BUSY (by decide)
        (.inl (by decide))).trans (hset s)
    · obtain ⟨y, hy, hya⟩ := List.any_eq_true.mp hj
      rw [Bool.and_eq_true, beq_iff_eq, bne_iff_ne] at hya
      refine ⟨{ y with tag := max y.tag tag }, List.mem_append_right _ ?_, hya.1, ?_, le_max_right _ _⟩
      · exact List.mem_map.mpr ⟨y, hy, if_pos hya⟩
      · show max y.tag tag ≠ 1
        rcases max_choice y.tag tag with hm | hm <;> rw [hm]
        · exact hya.2
        · exact h
  case isFalse hj =>
    split
    case isTrue hb =>
      refine ⟨(hmnt hbusy _).trans (State.noteDepth_frame _ (by decide) fun _ ho => ho.1), ?_, ?_, ?_⟩
      · unfold State.noteDepth
        split
        · exact (bit_setF_other _ _ _ _ (by decide) (.inl (by decide))).trans (hset s)
        · exact hset s
      · unfold State.noteDepth; split <;> exact ⟨rfl, rfl, rfl, rfl, rfl⟩
      · rw [State.noteDepth_mnt]
        exact ⟨{ arriving actSetsave 0 tag with waited := true }, by simp, rfl, h, le_refl _⟩
    case isFalse hb =>
      rw [State.enter_save _ h]
      have hrun : Frame [.regs, .mnt, .flash, .pwr] besideSave s (((s.setF F.PWR_SAVE_CTRL_SAVE_BUSY 1).running (arriving actSetsave 0 tag)).setF
          F.PWR_SAVE_CTRL_SAVE_BUSY 1) := (hmnt hbusy _).setF _ _ (by decide) fun hb => hb.2 rfl
      have hsnap := State.saveSnap_keeps (((s.setF F.PWR_SAVE_CTRL_SAVE_BUSY 1).running (arriving actSetsave 0 tag)).setF
          F.PWR_SAVE_CTRL_SAVE_BUSY 1)
      refine ⟨hrun.trans ⟨hsnap.mono (by decide), RdKept.of_keeps (RdKept.refl _ _) hsnap (by decide)⟩, ?_, ?_, ?_⟩
      · rw [State.bit_eq_of_regs (hsnap .regs (by decide))]
        exact hset _
      · obtain ⟨h1, h2, h3, h4, h5⟩ := State.saveSnap_apart (((s.setF F.PWR_SAVE_CTRL_SAVE_BUSY 1).running (arriving actSetsave 0 tag)).setF
          F.PWR_SAVE_CTRL_SAVE_BUSY 1)
        exact ⟨h1, h2, h3, h4, h5⟩
      · rw [State.saveSnap_mnt]
        exact ⟨{ arriving actSetsave 0 tag with paused := false }, List.mem_append_left _ (List.mem_append_right _ List.mem_cons_self), rfl, h,
          le_refl _⟩

/-! ### Re-forms that the agent asks for -/

/-- Registers that an arriving re-form does not write. -/
def besideReform (o : Nat) : Prop := o ∉ R.IMG_REFORM_STATUS :: reformActRegs

/-- What a request of a re-form touches. -/
theorem State.reformAdd_frame (r : ReformReq) : Frame [.regs, .mnt, .reform] besideReform s (s.reformAdd r) := by
  refine ⟨?_, (s.reformAdd_result r).2.2⟩
  unfold State.reformAdd
  exact (((Keeps.refl _ s).reform _ (by decide)).setF _ _ (by decide)).trans (((State.submit_reform_frame _ 0 0).1).mono (by decide))

/-- The trial falls back: FALLBACK with its cause and a re-form to the slot of ACTIVE. -/
theorem State.updFallback_result (cause : Nat) :
    Keeps [.regs, .mnt, .reform, .upd] s (s.updFallback cause) ∧ (s.updFallback cause).updSt = 10 ∧ (s.updFallback cause).upd.cause = cause ∧
      (s.updFallback cause).bit F.IMG_REFORM_STATUS_PENDING = true ∧
      (s.updFallback cause).reform.reqs = s.reform.reqs ++ [⟨s.jActive, false, 0, 2⟩] := by
  have heq : s.updFallback cause =
      (({ s with upd := { s.upd with cause := cause, decided := false } } : State).updTo 10).reformAdd ⟨s.jActive, false, 0, 2⟩ := rfl
  obtain ⟨hreqs, hpend, hrd⟩ :=
    (({ s with upd := { s.upd with cause := cause, decided := false } } : State).updTo 10).reformAdd_result ⟨s.jActive, false, 0, 2⟩
  have hk := ((({ s with upd := { s.upd with cause := cause, decided := false } } : State).updTo 10).reformAdd_frame ⟨s.jActive, false, 0, 2⟩).keeps
  rw [heq]
  refine ⟨(((Keeps.refl _ s).upd _ (by decide)).setF _ _ (by decide)).trans (hk.mono (by decide)), ?_, ?_, hpend, hreqs⟩
  · exact (hrd.getF F.UPD_STATUS_STATE (by decide)).trans (getF_setF_same _ F.UPD_STATUS_STATE 10 (by decide))
  · exact (congrArg UpdState.cause (hk .upd (by decide))).trans rfl

end

end Sys2Proof.Machine
end

section
/-!
SUPPORT. O57: activation, the trial and the settings saves.
-/

namespace Sys2Proof.Machine

section

variable (s : State)

/-! ### ACTIVATE -/

theorem State.updTouch_keeps : Keeps [.upd] s s.updTouch := (Keeps.refl _ s).upd _ (by decide)

theorem State.updOwned_other {s : State} {id : Ident} (h : s.updOwner ≠ id.num) (f : State → State) : s.updOwned id f = s.deny := if_neg h

theorem State.updOwned_owner {s : State} {id : Ident} (h : s.updOwner = id.num) (f : State → State) : s.updOwned id f = f s.updTouch := if_pos h

theorem State.updTouch_partialImage : s.updTouch.partialImage = s.partialImage := rfl

/-- The full activation: the lock goes to UPD, and a save comes first. -/
def State.activating (s : State) : State :=
  (({ s with upd := { s.upd with owner := s.updOwner, reject := false } } : State).setF F.UPD_SESSION_OWNER 5).updTo 7

theorem State.updActivate_other {s : State} (h : s.updSt ≠ 6) : s.updActivate = s := if_neg h

theorem State.updActivate_full {s : State} (h : s.updSt = 6) (hp : s.partialImage = none) :
    s.updActivate = s.activating.submit actSetsave 0 2 := by
  unfold State.updActivate
  rw [if_pos h, hp]
  rfl

theorem State.updActivate_partial {s : State} (h : s.updSt = 6) {m : Image} (hp : s.partialImage = some m) : s.updActivate = s.updPartial m := by
  unfold State.updActivate
  rw [if_pos h, hp]

theorem State.activating_result :
    Keeps [.regs, .upd] s s.activating ∧ s.activating.updSt = 7 ∧ s.activating.updOwner = 5 ∧ s.activating.upd.owner = s.updOwner := by
  refine ⟨(((Keeps.refl _ s).upd _ (by decide)).setF _ _ (by decide)).setF _ _ (by decide), getF_setF_same _ F.UPD_STATUS_STATE 7 (by decide), ?_,
    rfl⟩
  rw [State.updOwner, State.activating, State.updTo, getF_setF_other _ _ _ _ (by decide) (.inl (by decide)), getF_setF_same _ _ _ (by decide)]
  rfl

theorem State.updActivate_full_result {s : State} (h : s.updSt = 6) (hp : s.partialImage = none) :
    Keeps [.regs, .mnt, .flash, .pwr, .upd] s s.updActivate ∧ s.updActivate.updSt = 7 ∧ s.updActivate.updOwner = 5 ∧
      s.updActivate.upd.owner = s.updOwner ∧
      ∃ a ∈ s.updActivate.mnt.running ++ s.updActivate.mnt.waiting, a.a = actSetsave ∧ 2 ≤ a.tag := by
  obtain ⟨hk, hst, hown, howner⟩ := s.activating_result
  obtain ⟨hf, -, -, a, ha, hact, -, htag⟩ := s.activating.submitSave_result (tag := 2) (by decide)
  rw [State.updActivate_full h hp]
  refine ⟨hk.of_mono hf.keeps _ (by decide) (by decide), (hf.rd.getF F.UPD_STATUS_STATE ?_).trans hst, (hf.rd.getF F.UPD_SESSION_OWNER ?_).trans hown,
    (congrArg UpdState.owner (hf.keeps .upd (by decide))).trans howner, a, ha, hact, htag⟩ <;> unfold besideSave besideMnt <;> decide

/-- An activation without a re-form moves banks, defaults and the lock. -/
theorem State.partialGo_result (m : Image) (own : List SlotSec) :
    Keeps [.regs, .setLog, .upd, .image, .recq, .pwr] s (s.partialGo m own) ∧ (s.partialGo m own).updSt = 0 ∧ (s.partialGo m own).updOwner = 0 ∧
      (s.partialGo m own).bit F.UPD_STATUS_PARTIAL_ACT = true ∧ (s.partialGo m own).structureInUse = s.structureInUse := by
  unfold State.partialGo
  extract_lets cs banks u v w
  have hu : Keeps [.regs, .setLog, .upd] s u :=
    Keeps.ite (fun _ => ((Keeps.refl _ s).upd _ (by decide)).trans (State.coefRelease_keeps _)) fun _ => Keeps.refl _ s
  have hv : Keeps [.image] u v := Keeps.ite (fun _ => (Keeps.refl _ u).image _ (by decide)) fun _ => Keeps.refl _ u
  have hvs : v.structureInUse = u.structureInUse := by
    unfold v
    split
    · unfold State.structureInUse
      cases u.image <;> rfl
    · rfl
  have hw : Keeps [.recq] v w := by
    refine (Keeps.refl _ v).foldl _ _ fun x ty _ => ?_
    split
    · exact (Keeps.refl _ x).emit _ _ _ (by decide)
    · exact Keeps.refl _ x
  have hx : Keeps [.regs] w (w.setF F.UPD_STATUS_PARTIAL_ACT 1) := (Keeps.refl _ w).setF _ _ (by decide)
  obtain ⟨hr, -, hst, hown, hflags⟩ := (w.setF F.UPD_STATUS_PARTIAL_ACT 1).updRelease_result 0
  have himg {a b : State} (h : b.image = a.image) : b.structureInUse = a.structureInUse := congrArg (Option.map Image.asStructure) h
  refine ⟨?_, hst, hown, ?_, ?_⟩
  · exact ((hu.of_mono hv [.regs, .setLog, .upd, .image, .recq, .pwr] (by decide) (by decide)).trans (hw.mono (by decide))).trans
      (hx.of_mono hr _ (by decide) (by decide))
  · exact (congrArg (fun n => n == 1) (hflags 20 1 (by decide) (by decide))).trans (bit_setF_one w F.UPD_STATUS_PARTIAL_ACT (by decide))
  · exact (himg (hr .image (by decide))).trans ((himg (hx .image (by decide))).trans ((himg (hw .image (by decide))).trans (hvs.trans
      (himg (hu .image (by decide))))))

theorem State.updPartial_eq (m : Image) : s.updPartial m =
    if (s.updJournal 4 s.jOther s.jOther 0xFF).1 then (s.updJournal 4 s.jOther s.jOther 0xFF).2.partialGo m (s.ownSecs (s.slot s.jOther))
    else (s.updJournal 4 s.jOther s.jOther 0xFF).2.setF F.UPD_STATUS_ERR 0x0D := rfl

theorem State.updPartial_fails {s : State} (h : ¬ s.flashTakes 1) (m : Image) :
    Keeps [.regs, .host, .obs, .recq, .flash] s (s.updPartial m) ∧ (s.updPartial m).updSt = s.updSt ∧ (s.updPartial m).updOwner = s.updOwner ∧
      (s.updPartial m).getF F.UPD_STATUS_ERR = 0x0D := by
  obtain ⟨hk, hrd⟩ := s.updJournal_frame 4 s.jOther s.jOther 0xFF
  rw [s.updPartial_eq m, (State.updJournal_fails h 4 s.jOther s.jOther 0xFF).1, if_neg Bool.false_ne_true]
  refine ⟨hk.setF _ _ (by decide), ?_, ?_, ?_⟩
  · rw [State.updSt, getF_setF_other _ _ _ _ (by decide) (.inr (.inl (by decide)))]
    exact hrd.getF _ (by unfold besideJournal besideMnt; decide)
  · rw [State.updOwner, getF_setF_other _ _ _ _ (by decide) (.inl (by decide))]
    exact hrd.getF _ (by unfold besideJournal besideMnt; decide)
  · rw [getF_setF_same _ _ _ (by decide)]; rfl

theorem State.updPartial_takes {s : State} (h : s.flashTakes 1) (m : Image) :
    Keeps [.regs, .host, .obs, .recq, .flash, .setLog, .upd, .image, .pwr] s (s.updPartial m) ∧ (s.updPartial m).updSt = 0 ∧
      (s.updPartial m).updOwner = 0 ∧ (s.updPartial m).bit F.UPD_STATUS_PARTIAL_ACT = true ∧
      (s.updPartial m).structureInUse = s.structureInUse ∧
      (s.jNext < 2 ^ 32 → (s.updPartial m).jState = 4 ∧ (s.updPartial m).jActive = s.jOther) := by
  obtain ⟨hk, -⟩ := s.updJournal_frame 4 s.jOther s.jOther 0xFF
  obtain ⟨hok, -, hentry⟩ := State.updJournal_takes h 4 s.jOther s.jOther 0xFF
  rw [s.updPartial_eq m, hok, if_pos rfl]
  obtain ⟨hgo, hst, hown, hbit, hstruct⟩ := (s.updJournal 4 s.jOther s.jOther 0xFF).2.partialGo_result m (s.ownSecs (s.slot s.jOther))
  refine ⟨hk.of_mono hgo _ (by decide) (by decide), hst, hown, hbit,
    hstruct.trans (congrArg (Option.map Image.asStructure) (hk .image (by decide))), fun hn => ?_⟩
  have hj := hentry hn (by decide) s.jOther_lt s.jOther_lt (by decide)
  obtain ⟨h1, h2, -, -⟩ := State.jOf_entry ((congrArg Flash.journal (hgo .flash (by decide))).trans hj)
  exact ⟨h1, h2⟩

/-- The fields that ACTIVATE may change. -/
def activateFields : List Field :=
  [.regs, .recq, .pwr, .upd, .flash, .mnt, .cal, .reform, .dbg, .setLog, .image, .freeCtr, .host, .obs]

theorem State.updActivate_keeps : Keeps activateFields s s.updActivate := by
  by_cases h : s.updSt = 6
  · cases hp : s.partialImage with
    | none => exact (State.updActivate_full_result h hp).1.mono (by decide)
    | some m =>
      rw [State.updActivate_partial h hp]
      by_cases ht : s.flashTakes 1
      · exact (State.updPartial_takes ht m).1.mono (by decide)
      · exact (State.updPartial_fails ht m).1.mono (by decide)
  · rw [State.updActivate_other h]
    exact Keeps.refl _ s

/-! ### CONFIRM and REJECT -/

theorem State.confirmed_cases :
    (s.updSt = 9 → s.confirmed = { s with upd := { s.upd with confirm := true } }) ∧
    (s.updSt ≠ 9 → s.updSt ≠ 8 → s.trialPast = true → s.confirmed = s.setF F.UPD_STATUS_LATE 1) ∧
    (s.updSt = 8 ∨ (s.updSt ≠ 9 ∧ s.trialPast = false) → s.confirmed = s) := by
  unfold State.confirmed
  refine ⟨fun h => if_pos h, fun h9 h8 hp => (if_neg h9).trans (if_pos ⟨h8, hp⟩), fun h => ?_⟩
  have h9 : s.updSt ≠ 9 := by rcases h with h | h <;> omega
  exact (if_neg h9).trans (if_neg fun hc => h.elim (fun h8 => hc.1 h8) fun hp => Bool.false_ne_true (hp.2.symm.trans hc.2))

theorem State.rejected_cases :
    (s.updSt = 9 → s.rejected = s.updFallback 1) ∧ (s.updSt = 8 → s.rejected = { s with upd := { s.upd with reject := true } }) ∧
    (s.updSt ≠ 9 → s.updSt ≠ 8 → s.trialPast = true → s.rejected = s.late F.UPD_STATUS_LATE) ∧
    (s.updSt ≠ 9 → s.updSt ≠ 8 → s.trialPast = false → s.rejected = s) := by
  unfold State.rejected
  refine ⟨fun h => if_pos h, fun h => (if_neg (by omega)).trans (if_pos h), fun h9 h8 hp => ?_, fun h9 h8 hp => ?_⟩
  · rw [if_neg h9, if_neg h8, hp, if_pos rfl]
  · rw [if_neg h9, if_neg h8, hp, if_neg Bool.false_ne_true]

theorem State.confirmed_keeps : Keeps [.regs, .upd] s s.confirmed := by
  unfold State.confirmed
  exact Keeps.ite (fun _ => (Keeps.refl _ s).upd _ (by decide)) fun _ => Keeps.ite (fun _ => (Keeps.refl _ s).setF _ _ (by decide)) fun _ => Keeps.refl _ s

theorem State.rejected_keeps : Keeps [.regs, .mnt, .reform, .upd] s s.rejected := by
  unfold State.rejected
  exact Keeps.ite (fun _ => (s.updFallback_result 1).1) fun _ => Keeps.ite (fun _ => (Keeps.refl _ s).upd _ (by decide)) fun _ =>
    Keeps.ite (fun _ => (Keeps.refl _ s).late _ (by decide)) fun _ => Keeps.refl _ s

theorem State.updLate_result : (s.late F.UPD_STATUS_LATE).bit F.UPD_STATUS_LATE = true ∧
    (s.late F.UPD_STATUS_LATE).getF F.MNT_LATE_COUNT = (s.getF F.MNT_LATE_COUNT + 1) % 2 ^ 32 := by
  constructor
  · exact (bit_bump_other _ F.MNT_LATE_COUNT F.UPD_STATUS_LATE (by decide) (.inl (by decide))).trans (bit_setF_one s F.UPD_STATUS_LATE (by decide))
  · rw [State.late, getF_bump_same _ _ (by decide), getF_setF_other _ _ _ _ (by decide) (.inl (by decide))]
    rfl

/-! ### The window -/

/-- One evaluation that is due. -/
theorem State.healthEval_due {s : State} {n : Nat} {l : List Nat} (hn : n = s.upd.evals + 1)
    (hl : l = (List.range (healthN s.health)).filter (fun i => s.criterion (healthCrit s.health i)))
    (h9 : s.updSt = 9) (hd : s.upd.decided = false) (hfrom : s.upd.from0 + n * 500000 ≤ s.tick) (hw : n * 500000 ≤ s.windowTicks) :
    s.healthEval = { s.setF F.UPD_HEALTH_MET (maskNat l) with upd := { s.upd with evals := n, decided := l.length == healthN s.health } } := by
  rw [Nat.mul_comm] at hfrom hw
  subst hn hl
  exact if_pos ⟨h9, hd, hfrom, hw⟩

theorem State.healthEval_other {s : State} {n : Nat} (hn : n = s.upd.evals + 1)
    (h : ¬ (s.updSt = 9 ∧ s.upd.decided = false ∧ s.upd.from0 + n * 500000 ≤ s.tick ∧ n * 500000 ≤ s.windowTicks)) : s.healthEval = s := by
  rw [Nat.mul_comm] at h
  subst hn
  exact if_neg h

/-- The trial that is decided for good. -/
def State.trialDone (s : State) (t : Nat) : State :=
  let arb := (s.slot t).headers.foldl (fun a h => max a (hdrArb h.2)) 0
  let u := if s.arbFuse < arb then { s with flash := { s.flash with arbProg := arb } } else s
  let v := u.submit actSetsave 0 3
  ((v.emit 0 0x0707 (pw (v.slot t).version ++ pw v.arbFuse)).setF F.UPD_STATUS_CONFIRMED 1).updRelease 0

theorem State.trialCommit_other {s : State} (h : s.updSt ≠ 9 ∨ s.upd.decided = false) : s.trialCommit = s :=
  if_neg fun hc => h.elim (fun h9 => h9 hc.1) fun hd => Bool.false_ne_true (hd.symm.trans hc.2)

theorem State.trialCommit_eq {s : State} (h9 : s.updSt = 9) (hd : s.upd.decided = true) :
    s.trialCommit = if (s.updJournal 4 s.jOther s.jOther s.jPre).1 then (s.updJournal 4 s.jOther s.jOther s.jPre).2.trialDone s.jOther
      else (s.updJournal 4 s.jOther s.jOther s.jPre).2 := if_pos ⟨h9, hd⟩

theorem State.trialDone_result (t : Nat) :
    Keeps [.regs, .mnt, .flash, .pwr, .recq, .upd] s (s.trialDone t) ∧ (s.trialDone t).updSt = 0 ∧ (s.trialDone t).updOwner = 0 ∧
      (s.trialDone t).bit F.UPD_STATUS_CONFIRMED = true ∧ (s.trialDone t).flash.journal = s.flash.journal ∧
      ∃ a ∈ (s.trialDone t).mnt.running ++ (s.trialDone t).mnt.waiting, a.a = actSetsave ∧ 3 ≤ a.tag := by
  unfold State.trialDone
  extract_lets arb burnt u v
  have hu : Keeps [.flash] s u := Keeps.ite (fun _ => (Keeps.refl _ s).flash _ (by decide)) fun _ => Keeps.refl _ s
  have huj : u.flash.journal = s.flash.journal := by unfold u; split <;> rfl
  obtain ⟨hsub, -, ⟨hj, -⟩, a, ha, hact, -, htag⟩ := u.submitSave_result (tag := 3) (by decide)
  generalize hw : v.emit 0 0x0707 (pw (v.slot t).version ++ pw v.arbFuse) = w
  have hwk : Keeps [.recq] v w := hw ▸ (Keeps.refl _ v).emit _ _ _ (by decide)
  have hxk : Keeps [.regs] w (w.setF F.UPD_STATUS_CONFIRMED 1) := (Keeps.refl _ w).setF _ _ (by decide)
  obtain ⟨hr, -, hst, hown, hflags⟩ := (w.setF F.UPD_STATUS_CONFIRMED 1).updRelease_result 0
  have htail : Keeps [.recq, .regs, .upd, .pwr] v ((w.setF F.UPD_STATUS_CONFIRMED 1).updRelease 0) :=
    (hwk.of_mono hxk [.recq, .regs, .upd, .pwr] (by decide) (by decide)).trans (hr.mono (by decide))
  refine ⟨(hu.of_mono hsub.keeps [.regs, .mnt, .flash, .pwr, .recq, .upd] (by decide) (by decide)).trans (htail.mono (by decide)), hst, hown, ?_, ?_,
    a, ?_, hact, htag⟩
  · exact (congrArg (fun n => n == 1) (hflags 17 1 (by decide) (by decide))).trans (bit_setF_one w F.UPD_STATUS_CONFIRMED (by decide))
  · exact (congrArg Flash.journal (htail .flash (by decide))).trans (hj.trans huj)
  · rw [show ((w.setF F.UPD_STATUS_CONFIRMED 1).updRelease 0).mnt = v.mnt from htail .mnt (by decide)]
    exact ha

theorem State.trialCommit_fails {s : State} (h9 : s.updSt = 9) (hd : s.upd.decided = true) (h : ¬ s.flashTakes 1) :
    Keeps [.regs, .host, .obs, .recq, .flash] s s.trialCommit ∧ s.trialCommit.updSt = 9 ∧ s.trialCommit.updOwner = s.updOwner ∧
      s.trialCommit.flash = { s.flash with plan := s.flash.plan.drop 1 } := by
  obtain ⟨hk, hrd⟩ := s.updJournal_frame 4 s.jOther s.jOther s.jPre
  obtain ⟨hok, hflash⟩ := State.updJournal_fails h 4 s.jOther s.jOther s.jPre
  rw [State.trialCommit_eq h9 hd, hok, if_neg Bool.false_ne_true]
  exact ⟨hk, (hrd.getF F.UPD_STATUS_STATE (by unfold besideJournal besideMnt; decide)).trans h9,
    hrd.getF F.UPD_SESSION_OWNER (by unfold besideJournal besideMnt; decide), hflash⟩

theorem State.trialCommit_takes {s : State} (h9 : s.updSt = 9) (hd : s.upd.decided = true) (h : s.flashTakes 1) :
    Keeps [.regs, .host, .obs, .recq, .flash, .mnt, .pwr, .upd] s s.trialCommit ∧ s.trialCommit.updSt = 0 ∧ s.trialCommit.updOwner = 0 ∧
      s.trialCommit.bit F.UPD_STATUS_CONFIRMED = true ∧
      (s.jNext < 2 ^ 32 → s.trialCommit.jState = 4 ∧ s.trialCommit.jActive = s.jOther ∧ s.trialCommit.jPre = s.jPre) ∧
      ∃ a ∈ s.trialCommit.mnt.running ++ s.trialCommit.mnt.waiting, a.a = actSetsave ∧ 3 ≤ a.tag := by
  obtain ⟨hk, -⟩ := s.updJournal_frame 4 s.jOther s.jOther s.jPre
  obtain ⟨hok, -, hentry⟩ := State.updJournal_takes h 4 s.jOther s.jOther s.jPre
  rw [State.trialCommit_eq h9 hd, hok, if_pos rfl]
  obtain ⟨hdone, hst, hown, hbit, hj, hact⟩ := (s.updJournal 4 s.jOther s.jOther s.jPre).2.trialDone_result s.jOther
  refine ⟨hk.of_mono hdone _ (by decide) (by decide), hst, hown, hbit, fun hn => ?_, hact⟩
  obtain ⟨h1, h2, -, h4⟩ := State.jOf_entry (hj.trans (hentry hn (by decide) s.jOther_lt s.jOther_lt s.jPre_lt))
  exact ⟨h1, h2, h4⟩

theorem State.healthExpiry_due {s : State} (h9 : s.updSt = 9) (hd : s.upd.decided = false) (hfrom : s.upd.from0 + s.windowTicks ≤ s.tick)
    (hw : s.windowTicks ≤ s.upd.evals * 500000) : s.healthExpiry = s.updFallback 0 := by
  rw [Nat.mul_comm] at hw
  exact if_pos ⟨h9, hd, hfrom, hw⟩

theorem State.healthExpiry_other {s : State} (h : ¬ (s.updSt = 9 ∧ s.upd.decided = false ∧ s.upd.from0 + s.windowTicks ≤ s.tick ∧
    s.windowTicks ≤ s.upd.evals * 500000)) : s.healthExpiry = s := by
  rw [Nat.mul_comm s.upd.evals] at h
  exact if_neg h

/-! ### The end of a save -/

/-- Registers of the power block. -/
def pwrReg (o : Nat) : Prop := 0x10000 ≤ o ∧ o < 0x20000

theorem State.activateEnd_eq (code : Nat) : s.activateEnd code =
    ((({ s with upd := { s.upd with owner := 0, last := s.tick } } : State).updTo 6).setF F.UPD_STATUS_ERR code).setF F.UPD_SESSION_OWNER
      s.upd.owner := rfl

theorem not_pwrReg_upd {f : Fld} (hf : f.off = R.UPD_STATUS ∨ f.off = R.UPD_SESSION) : ¬ pwrReg f.off := by
  rcases hf with hf | hf <;> rw [hf] <;> unfold pwrReg <;> decide

theorem State.activateEnd_result (code : Nat) :
    Keeps [.regs, .upd] s (s.activateEnd code) ∧ RdKept pwrReg s (s.activateEnd code) ∧ (s.activateEnd code).updSt = 6 ∧
      (s.activateEnd code).getF F.UPD_STATUS_ERR = code % 256 ∧ (s.activateEnd code).updOwner = s.upd.owner % 16 := by
  rw [s.activateEnd_eq]
  generalize hw : ({ s with upd := { s.upd with owner := 0, last := s.tick } } : State) = w
  have hwk : Keeps [.upd] s w := hw ▸ (Keeps.refl _ s).upd _ (by decide)
  refine ⟨(((hwk.mono (by decide)).setF _ _ (by decide)).setF _ _ (by decide)).setF _ _ (by decide), ?_, ?_, ?_, ?_⟩
  · exact (((RdKept.of_keeps (RdKept.refl _ s) hwk (by decide)).setF _ _ (not_pwrReg_upd (.inl rfl))).setF _ _ (not_pwrReg_upd (.inl rfl))).setF _ _
      (not_pwrReg_upd (.inr rfl))
  · rw [State.updSt, getF_setF_other _ _ _ _ (by decide) (.inl (by decide)), getF_setF_other _ _ _ _ (by decide) (.inr (.inl (by decide))),
      State.updTo, getF_setF_same _ _ _ (by decide)]
    rfl
  · rw [getF_setF_other _ _ _ _ (by decide) (.inl (by decide)), getF_setF_same _ _ _ (by decide)]
    rfl
  · exact getF_setF_same _ F.UPD_SESSION_OWNER s.upd.owner (by decide)

theorem State.activateSaved_other {s : State} (h : s.updSt ≠ 7) (n : Nat) (failed : Bool) : s.activateSaved n failed = s := if_pos h

theorem State.activateSaved_failed {s : State} (h : s.updSt = 7) (n : Nat) : s.activateSaved n true = s.activateEnd 0x12 := by
  unfold State.activateSaved
  rw [if_neg (not_not.mpr h), if_pos rfl]

/-- What the entry of the trial names as its fallback. -/
def State.trialBack (s : State) : Nat := if s.image.isNone then 0 else s.jActive

/-- The journal entry of a trial. -/
def State.trialEntry (s : State) (n : Nat) : Bool × State := s.updJournal 3 s.trialBack s.jOther n

/-- The re-form that an activation asks for. -/
def State.trialReq (s : State) : ReformReq := ⟨s.jOther, s.bit F.UPD_CTRL_AT_SN, s.rd64 R.IMG_REFORM_SN_LO R.IMG_REFORM_SN_HI, 1⟩

theorem State.activateSaved_saved {s : State} (h : s.updSt = 7) (n : Nat) : s.activateSaved n false =
    if (s.trialEntry n).1 then
      ((s.trialEntry n).2.updTo 8).reformAdd (s.trialEntry n).2.trialReq
    else (s.trialEntry n).2.activateEnd 0x0D := by
  unfold State.activateSaved
  rw [if_neg (not_not.mpr h), if_neg Bool.false_ne_true]
  rfl

/-- A written entry of a trial leads to ACTIVATING and its re-form. -/
theorem State.activateSaved_takes {s : State} (h : s.updSt = 7) (ht : s.flashTakes 1) {n : Nat} (hn : n < 256) :
    Frame [.regs, .host, .obs, .recq, .flash, .mnt, .reform] pwrReg s (s.activateSaved n false) ∧ (s.activateSaved n false).updSt = 8 ∧
      (s.activateSaved n false).bit F.IMG_REFORM_STATUS_PENDING = true ∧ (s.activateSaved n false).flash.sets = s.flash.sets ∧
      (s.jNext < 2 ^ 32 → (s.activateSaved n false).jState = 3 ∧ (s.activateSaved n false).jOther = s.jOther ∧ (s.activateSaved n false).jPre = n) := by
  obtain ⟨hk, hrd⟩ := s.updJournal_frame 3 s.trialBack s.jOther n
  obtain ⟨hok, ⟨-, hsets, -⟩, hentry⟩ := State.updJournal_takes ht 3 s.trialBack s.jOther n
  rw [s.activateSaved_saved h, State.trialEntry, hok, if_pos rfl]
  generalize (s.updJournal 3 s.trialBack s.jOther n).2 = u at hk hrd hsets hentry
  have hto : Keeps [.regs] u (u.updTo 8) := (Keeps.refl _ u).setF _ _ (by decide)
  obtain ⟨-, hpend, hregs⟩ := (u.updTo 8).reformAdd_result u.trialReq
  have hadd := (u.updTo 8).reformAdd_frame u.trialReq
  have hflash : ((u.updTo 8).reformAdd u.trialReq).flash = u.flash := (hadd.keeps .flash (by decide)).trans (hto .flash (by decide))
  refine ⟨⟨(hk.of_mono hto [.regs, .host, .obs, .recq, .flash, .mnt, .reform] (by decide) (by decide)).trans (hadd.keeps.mono (by decide)), ?_⟩, ?_,
    hpend, ?_, fun hj => ?_⟩
  · have hto' : RdKept pwrReg u (u.updTo 8) := (RdKept.refl _ u).setF _ _ (not_pwrReg_upd (.inl rfl))
    have hjour : RdKept pwrReg s u := hrd.mono fun o ho => by unfold pwrReg at ho; unfold besideJournal besideMnt; omega
    exact (hjour.trans hto').trans (hadd.rd.mono fun o ho => by
      unfold pwrReg at ho
      unfold besideReform reformActRegs R.IMG_REFORM_STATUS R.MNT_QUEUE R.IMG_STATUS R.MEM_SCRUB_STATUS
      simp only [List.mem_cons, List.not_mem_nil, or_false, not_or]
      omega)
  · exact (hregs.getF F.UPD_STATUS_STATE (by decide)).trans (getF_setF_same _ F.UPD_STATUS_STATE 8 (by decide))
  · rw [hflash, hsets]
  · have hback : s.trialBack < 256 := by
      unfold State.trialBack
      split
      · decide
      · exact s.jActive_lt
    obtain ⟨h1, -, h3, h4⟩ := State.jOf_entry ((congrArg Flash.journal hflash).trans (hentry hj (by decide) hback s.jOther_lt hn))
    exact ⟨h1, h3, h4⟩

/-- An entry of a trial that cannot be written gives the activation up. -/
theorem State.activateSaved_fails {s : State} (h : s.updSt = 7) (ht : ¬ s.flashTakes 1) (n : Nat) :
    Keeps [.regs, .host, .obs, .recq, .flash, .upd] s (s.activateSaved n false) ∧ RdKept pwrReg s (s.activateSaved n false) ∧
      (s.activateSaved n false).updSt = 6 ∧ (s.activateSaved n false).getF F.UPD_STATUS_ERR = 0x0D ∧
      (s.activateSaved n false).flash.sets = s.flash.sets := by
  obtain ⟨hk, hrd⟩ := s.updJournal_frame 3 s.trialBack s.jOther n
  obtain ⟨hok, hflash⟩ := State.updJournal_fails ht 3 s.trialBack s.jOther n
  rw [s.activateSaved_saved h, State.trialEntry, hok, if_neg Bool.false_ne_true]
  obtain ⟨hend, hendr, hst, herr, -⟩ := (s.updJournal 3 s.trialBack s.jOther n).2.activateEnd_result 0x0D
  refine ⟨hk.of_mono hend _ (by decide) (by decide), ?_, hst, herr.trans rfl, ?_⟩
  · exact (hrd.mono fun o ho => by unfold pwrReg at ho; unfold besideJournal besideMnt; omega).trans hendr
  · rw [show ((s.updJournal 3 s.trialBack s.jOther n).2.activateEnd 0x0D).flash = _ from hend .flash (by decide), hflash]

/-- The save that takes its snapshot away. -/
def State.saveTaken (s : State) : State := { s with pwr := { s.pwr with snap := none } }

theorem State.saveTaken_keeps : Keeps [.pwr] s s.saveTaken := (Keeps.refl _ s).pwr _ (by decide)

theorem State.saveEnd_eq {s : State} {x : SetHalf} (h : s.pwr.snap = some x) (fails : Nat) : s.saveEnd fails =
    if 2 ≤ fails then ((s.saveTaken.mntFault 3 false (setHalfAddr s.pwr.snapTo)).setF F.PWR_SAVE_CTRL_SAVE_ERR 1).emit 0 0x0103 []
    else (((if fails = 1 then s.saveTaken.mntFault 3 true (setHalfAddr s.pwr.snapTo) else s.saveTaken).putSetHalf s.pwr.snapTo x).setF
      F.PWR_SAVE_GEN_GEN x.gen).bump F.PWR_SAVES_COUNT |>.emit 0 0x0102 (pw x.gen ++ pw s.pwr.snapTo ++ pw x.len) := by
  unfold State.saveEnd
  rw [h]
  rfl

/-- Registers that the end of a save does not write. -/
def besideSaves (o : Nat) : Prop := besideMnt o ∧ o ≠ R.PWR_SAVE_CTRL ∧ o ≠ R.PWR_SAVE_GEN ∧ o ≠ R.PWR_SAVES

theorem State.saveTaken_fault (tr : Bool) (loc : Nat) :
    Frame [.regs, .host, .obs, .recq, .pwr] besideMnt s (s.saveTaken.mntFault 3 tr loc) := by
  have h0 : Frame [.regs, .host, .obs, .recq, .pwr] besideMnt s s.saveTaken := ⟨s.saveTaken_keeps.mono (by decide), RdKept.refl _ _⟩
  exact h0.trans ((s.saveTaken.mntFault_plain (by decide) (by decide) tr loc).wide (by decide))

/-- A save that failed twice (R381). -/
theorem State.saveEnd_fails {s : State} {x : SetHalf} (h : s.pwr.snap = some x) {fails : Nat} (hf : 2 ≤ fails) :
    Frame [.regs, .host, .obs, .recq, .pwr] besideSaves s (s.saveEnd fails) ∧ (s.saveEnd fails).bit F.PWR_SAVE_CTRL_SAVE_ERR = true ∧
      (s.saveEnd fails).getF F.PWR_SAVES_COUNT = s.getF F.PWR_SAVES_COUNT ∧ ⟨0, 0x0103, [], s.tick⟩ ∈ (s.saveEnd fails).recq := by
  have hfault := s.saveTaken_fault false (setHalfAddr s.pwr.snapTo)
  rw [State.saveEnd_eq h fails, if_pos hf]
  generalize s.saveTaken.mntFault 3 false (setHalfAddr s.pwr.snapTo) = u at hfault
  have htick : u.tick = s.tick := congrArg (fun x : TimeState => x.frc.toNat) (hfault.keeps .time (by decide))
  refine ⟨((hfault.mono (fun _ h => h) fun o ho => ho.1).setF _ _ (by decide) fun hb => hb.2.1 rfl).emit _ _ _ (by decide),
    bit_setF_one u F.PWR_SAVE_CTRL_SAVE_ERR (by decide), ?_, ?_⟩
  · rw [State.emit_getF, getF_setF_other _ _ _ _ (by decide) (.inl (by decide))]
    exact hfault.rd.getF _ (by unfold besideMnt; decide)
  · rw [← htick]
    exact List.mem_append_right _ List.mem_cons_self

/-- A save that was written (R381). -/
theorem State.saveEnd_takes {s : State} {x : SetHalf} (h : s.pwr.snap = some x) {fails : Nat} (hf : fails < 2)
    (hto : s.pwr.snapTo < s.flash.sets.length) :
    Frame [.regs, .host, .obs, .recq, .pwr, .flash] besideSaves s (s.saveEnd fails) ∧ (s.saveEnd fails).setHalf s.pwr.snapTo = x ∧
      (s.saveEnd fails).getF F.PWR_SAVE_GEN_GEN = x.gen % 2 ^ 32 ∧
      (s.saveEnd fails).getF F.PWR_SAVES_COUNT = (s.getF F.PWR_SAVES_COUNT + 1) % 2 ^ 32 ∧
      (s.saveEnd fails).flash.journal = s.flash.journal ∧ (s.saveEnd fails).flash.plan = s.flash.plan := by
  have hfault : Frame [.regs, .host, .obs, .recq, .pwr] besideMnt s
      (if fails = 1 then s.saveTaken.mntFault 3 true (setHalfAddr s.pwr.snapTo) else s.saveTaken) :=
    Frame.ite (fun _ => s.saveTaken_fault true _) fun _ => ⟨s.saveTaken_keeps.mono (by decide), RdKept.refl _ _⟩
  rw [State.saveEnd_eq h fails, if_neg (not_le_of_gt hf)]
  generalize (if fails = 1 then s.saveTaken.mntFault 3 true (setHalfAddr s.pwr.snapTo) else s.saveTaken) = u at hfault
  have hflash : u.flash = s.flash := hfault.keeps .flash (by decide)
  generalize hv : u.putSetHalf s.pwr.snapTo x = v
  have hvk : Keeps [.flash] u v := hv ▸ (Keeps.refl _ u).flash _ (by decide)
  have huv : Frame [.regs, .host, .obs, .recq, .pwr, .flash] besideSaves s v :=
    (hfault.mono (by decide) fun o ho => ho.1).trans ⟨hvk.mono (by decide), RdKept.of_keeps (RdKept.refl _ _) hvk (by decide)⟩
  have hvj : v.flash.journal = u.flash.journal := by rw [← hv]; rfl
  have hvp : v.flash.plan = u.flash.plan := by rw [← hv]; rfl
  have hvs : v.setHalf s.pwr.snapTo = x := by
    rw [← hv]
    exact updAt_get_same _ _ _ _ (by rw [hflash]; exact hto)
  refine ⟨((huv.setF _ _ (by decide) fun hb => hb.2.2.1 rfl).bump _ (by decide) fun hb => hb.2.2.2 rfl).emit _ _ _ (by decide), hvs, ?_, ?_,
    hvj.trans (congrArg Flash.journal hflash), hvp.trans (congrArg Flash.plan hflash)⟩
  · rw [State.emit_getF, getF_bump_other _ _ _ (by decide) (.inl (by decide)), getF_setF_same _ _ _ (by decide)]
    rfl
  · rw [State.emit_getF, getF_bump_same _ _ (by decide), getF_setF_other _ _ _ _ (by decide) (.inl (by decide)),
      State.getF_of_regs (hvk .regs (by decide)), hfault.rd.getF F.PWR_SAVES_COUNT (by unfold besideMnt; decide)]
    rfl

/-- What follows the pre-activation save leaves the power block and the settings halves. -/
theorem State.activateSaved_frame {n : Nat} (hn : n < 256) (failed : Bool) :
    Frame [.regs, .host, .obs, .recq, .flash, .mnt, .reform, .upd] pwrReg s (s.activateSaved n failed) ∧
      (s.activateSaved n failed).flash.sets = s.flash.sets ∧ (failed = true → (s.activateSaved n failed).recq = s.recq) := by
  by_cases h : s.updSt = 7
  · cases failed with
    | true =>
      obtain ⟨hk, hrd, -⟩ := s.activateEnd_result 0x12
      rw [State.activateSaved_failed h]
      exact ⟨⟨hk.mono (by decide), hrd⟩, congrArg Flash.sets (hk .flash (by decide)), fun _ => hk .recq (by decide)⟩
    | false =>
      by_cases ht : s.flashTakes 1
      · obtain ⟨hf, -, -, hsets, -⟩ := State.activateSaved_takes h ht hn
        exact ⟨hf.wide (by decide), hsets, nofun⟩
      · obtain ⟨hk, hrd, -, -, hsets⟩ := State.activateSaved_fails h ht n
        exact ⟨⟨hk.mono (by decide), hrd⟩, hsets, nofun⟩
  · rw [State.activateSaved_other h]
    exact ⟨Frame.refl _ _ s, rfl, fun _ => rfl⟩

/-- The save is over: its activity ends, and the flag shows whether another one waits. -/
def State.saveOver (s : State) (fails : Nat) : State :=
  let u := (s.saveEnd fails).endAct actSetsave 0
  u.setB F.PWR_SAVE_CTRL_SAVE_BUSY ((u.mnt.running ++ u.mnt.waiting).any (fun y => y.a == actSetsave && y.tag != 1))

theorem State.setsaveCommit_eq {s : State} (hrun : s.runs actSetsave 0 = true) (htag : s.saveTag ≠ 1) (fails : Nat) :
    s.setsaveCommit fails = if s.saveTag = 2 then (s.saveOver fails).activateSaved s.pwr.snapTo (decide (2 ≤ fails)) else s.saveOver fails := by
  unfold State.setsaveCommit
  rw [if_pos hrun]
  dsimp only
  rw [if_neg htag]
  rfl

theorem State.saveOver_result (fails : Nat) :
    Keeps [.regs, .mnt] (s.saveEnd fails) (s.saveOver fails) ∧ RegsKept [R.PWR_SAVE_CTRL] (s.saveEnd fails) (s.saveOver fails) ∧
      (s.saveOver fails).bit F.PWR_SAVE_CTRL_SAVE_ERR = (s.saveEnd fails).bit F.PWR_SAVE_CTRL_SAVE_ERR := by
  unfold State.saveOver
  extract_lets u
  have hu : Keeps [.mnt] (s.saveEnd fails) u := (Keeps.refl _ _).mnt _ (by decide)
  refine ⟨(hu.mono (by decide)).setB _ _ (by decide), (hu.regsKept (by decide) _).setB _ _ (by decide), ?_⟩
  exact (bit_setF_other _ _ _ _ (by decide) (.inr (.inr (by decide)))).trans (State.bit_eq_of_regs (hu .regs (by decide)) _)

/-- Where the end of a save stands before what an activation does then. -/
theorem State.saveOver_saved {s : State} {x : SetHalf} (h : s.pwr.snap = some x) (fails : Nat) (hto : s.pwr.snapTo < s.flash.sets.length) :
    Frame [.regs, .host, .obs, .recq, .pwr, .flash, .mnt] besideSaves s (s.saveOver fails) ∧
      (s.saveOver fails).flash.journal = s.flash.journal ∧ (s.saveOver fails).flash.plan = s.flash.plan ∧
      (2 ≤ fails → (s.saveOver fails).bit F.PWR_SAVE_CTRL_SAVE_ERR = true ∧
        (s.saveOver fails).getF F.PWR_SAVES_COUNT = s.getF F.PWR_SAVES_COUNT ∧ ⟨0, 0x0103, [], s.tick⟩ ∈ (s.saveOver fails).recq) ∧
      (fails < 2 → (s.saveOver fails).setHalf s.pwr.snapTo = x ∧ (s.saveOver fails).getF F.PWR_SAVE_GEN_GEN = x.gen % 2 ^ 32 ∧
        (s.saveOver fails).getF F.PWR_SAVES_COUNT = (s.getF F.PWR_SAVES_COUNT + 1) % 2 ^ 32) := by
  obtain ⟨hk, hr, herr⟩ := s.saveOver_result fails
  have hover : Frame [.regs, .host, .obs, .recq, .pwr, .flash, .mnt] besideSaves (s.saveEnd fails) (s.saveOver fails) :=
    ⟨hk.mono (by decide), fun o ho => hr o (by rw [List.mem_singleton]; exact ho.2.1)⟩
  have hflash : (s.saveOver fails).flash = (s.saveEnd fails).flash := hk .flash (by decide)
  by_cases hf : 2 ≤ fails
  · obtain ⟨hframe, hbit, hcount, hrec⟩ := State.saveEnd_fails h hf
    have hfl : (s.saveOver fails).flash = s.flash := hflash.trans (hframe.keeps .flash (by decide))
    refine ⟨(hframe.wide (by decide)).trans hover, congrArg Flash.journal hfl, congrArg Flash.plan hfl, fun _ => ⟨herr.trans hbit, ?_, ?_⟩,
      fun hlt => absurd hf (not_le_of_gt hlt)⟩
    · exact (hr.getF F.PWR_SAVES_COUNT (by decide)).trans hcount
    · rw [show (s.saveOver fails).recq = _ from hk .recq (by decide)]
      exact hrec
  · obtain ⟨hframe, hhalf, hgen, hcount, hj, hp⟩ := State.saveEnd_takes h (not_le.mp hf) hto
    refine ⟨(hframe.wide (by decide)).trans hover, (congrArg Flash.journal hflash).trans hj, (congrArg Flash.plan hflash).trans hp,
      fun hge => absurd hge hf, fun _ => ⟨?_, (hr.getF F.PWR_SAVE_GEN_GEN (by decide)).trans hgen, (hr.getF F.PWR_SAVES_COUNT (by decide)).trans hcount⟩⟩
    rw [State.setHalf, hflash]
    exact hhalf

/-- The end of a save, whatever an activation does with it. -/
theorem State.setsaveCommit_result {s : State} {x : SetHalf} (hrun : s.runs actSetsave 0 = true) (htag : s.saveTag ≠ 1)
    (h : s.pwr.snap = some x) (fails : Nat) (hto : s.pwr.snapTo < s.flash.sets.length) (h256 : s.pwr.snapTo < 256) :
    Keeps [.regs, .recq, .pwr, .upd, .flash, .mnt, .reform, .host, .obs] s (s.setsaveCommit fails) ∧
      (2 ≤ fails → (s.setsaveCommit fails).bit F.PWR_SAVE_CTRL_SAVE_ERR = true ∧
        (s.setsaveCommit fails).getF F.PWR_SAVES_COUNT = s.getF F.PWR_SAVES_COUNT ∧ ⟨0, 0x0103, [], s.tick⟩ ∈ (s.setsaveCommit fails).recq) ∧
      (fails < 2 → (s.setsaveCommit fails).setHalf s.pwr.snapTo = x ∧ (s.setsaveCommit fails).getF F.PWR_SAVE_GEN_GEN = x.gen % 2 ^ 32 ∧
        (s.setsaveCommit fails).getF F.PWR_SAVES_COUNT = (s.getF F.PWR_SAVES_COUNT + 1) % 2 ^ 32) := by
  obtain ⟨hover, -, -, hfail, htake⟩ := State.saveOver_saved h fails hto
  have htail : Frame [.regs, .host, .obs, .recq, .flash, .mnt, .reform, .upd] pwrReg (s.saveOver fails) (s.setsaveCommit fails) ∧
      (s.setsaveCommit fails).flash.sets = (s.saveOver fails).flash.sets ∧
      (2 ≤ fails → (s.setsaveCommit fails).recq = (s.saveOver fails).recq) := by
    rw [State.setsaveCommit_eq hrun htag fails]
    split
    · obtain ⟨hf, hsets, hrec⟩ := (s.saveOver fails).activateSaved_frame h256 (decide (2 ≤ fails))
      exact ⟨hf, hsets, fun hge => hrec (decide_eq_true hge)⟩
    · exact ⟨Frame.refl _ _ _, rfl, fun _ => rfl⟩
  obtain ⟨⟨hk, hrd⟩, hsets, hrec⟩ := htail
  refine ⟨hover.keeps.of_mono hk _ (by decide) (by decide), fun hge => ?_, fun hlt => ?_⟩
  · obtain ⟨hbit, hcount, hmem⟩ := hfail hge
    exact ⟨(hrd.bit _ (by unfold pwrReg; decide)).trans hbit, (hrd.getF _ (by unfold pwrReg; decide)).trans hcount, hrec hge ▸ hmem⟩
  · obtain ⟨hhalf, hgen, hcount⟩ := htake hlt
    refine ⟨?_, (hrd.getF _ (by unfold pwrReg; decide)).trans hgen, (hrd.getF _ (by unfold pwrReg; decide)).trans hcount⟩
    rw [State.setHalf, hsets]
    exact hhalf

/-- The end of a pre-activation save (R398). -/
theorem State.setsaveCommit_activation {s : State} {x : SetHalf} (hrun : s.runs actSetsave 0 = true) (htag : s.saveTag = 2)
    (h : s.pwr.snap = some x) (fails : Nat) (hto : s.pwr.snapTo < s.flash.sets.length) (h256 : s.pwr.snapTo < 256) (h7 : s.updSt = 7) :
    (2 ≤ fails → (s.setsaveCommit fails).updSt = 6 ∧ (s.setsaveCommit fails).getF F.UPD_STATUS_ERR = 0x12 ∧
      (s.setsaveCommit fails).updOwner = s.upd.owner % 16) ∧
    (fails < 2 → ¬ s.flashTakes 1 → (s.setsaveCommit fails).updSt = 6 ∧ (s.setsaveCommit fails).getF F.UPD_STATUS_ERR = 0x0D) ∧
    (fails < 2 → s.flashTakes 1 → (s.setsaveCommit fails).updSt = 8 ∧ (s.setsaveCommit fails).bit F.IMG_REFORM_STATUS_PENDING = true ∧
      (s.jNext < 2 ^ 32 → (s.setsaveCommit fails).jState = 3 ∧ (s.setsaveCommit fails).jOther = s.jOther ∧
        (s.setsaveCommit fails).jPre = s.pwr.snapTo)) := by
  obtain ⟨hover, hj, hplan, -, -⟩ := State.saveOver_saved h fails hto
  have hst : (s.saveOver fails).updSt = 7 := (hover.rd.getF F.UPD_STATUS_STATE (by unfold besideSaves besideMnt; decide)).trans h7
  have htakes : (s.saveOver fails).flashTakes 1 ↔ s.flashTakes 1 := by unfold State.flashTakes; rw [hplan]
  have hnext : (s.saveOver fails).jNext = s.jNext := by unfold State.jNext; rw [hj]
  have hother : (s.saveOver fails).jOther = s.jOther := by unfold State.jOther; rw [hj]
  rw [State.setsaveCommit_eq hrun (by rw [htag]; decide) fails, if_pos htag]
  refine ⟨fun hge => ?_, fun hlt hno => ?_, fun hlt hyes => ?_⟩
  · obtain ⟨-, -, h1, h2, h3⟩ := (s.saveOver fails).activateEnd_result 0x12
    rw [decide_eq_true hge, State.activateSaved_failed hst]
    exact ⟨h1, h2.trans rfl, h3.trans (by rw [show (s.saveOver fails).upd = s.upd from hover.keeps .upd (by decide)])⟩
  · obtain ⟨-, -, h1, h2, -⟩ := State.activateSaved_fails hst (fun hy => hno (htakes.mp hy)) s.pwr.snapTo
    rw [decide_eq_false (not_le_of_gt hlt)]
    exact ⟨h1, h2⟩
  · obtain ⟨-, h1, h2, -, h4⟩ := State.activateSaved_takes hst (htakes.mpr hyes) h256
    rw [decide_eq_false (not_le_of_gt hlt)]
    rw [hnext, hother] at h4
    exact ⟨h1, h2, h4⟩

end

end Sys2Proof.Machine

open Sys2Proof.Machine in
/-- Settles O57: each command by the state of the update, the journal's writes by whether they pass, and the saves by their attempts. -/
theorem updateTrialAndSaves : Obligations.UpdateTrialAndSaves := by
  unfold Obligations.UpdateTrialAndSaves
  refine ⟨fun id s hg => gated_next _ hg (by decide) ?_, fun id v s hg => gated_next _ hg (by decide) ?_,
    fun id v s hg => gated_next _ hg (by decide) ?_, fun n l s hn hl => ⟨fun h => congrArg Host.Outcome.next (State.healthEval_other hn h),
      fun h9 hd hfrom hw => ?_⟩, fun s h => congrArg Host.Outcome.next (State.trialCommit_other h), fun s h9 hd => ?_,
    fun s h => congrArg Host.Outcome.next (State.healthExpiry_other h), fun s h9 hd hfrom hw => ?_, fun id s hg => gated_next _ hg (by decide) ?_,
    fun s h => congrArg Host.Outcome.next (if_neg fun hc => h.elim (fun h0 => hc.1 h0) fun hlt => absurd hc.2 (not_le_of_gt hlt)),
    fun s h0 hle => ?_, fun fails s h => congrArg Host.Outcome.next (if_neg (by rw [h]; exact Bool.false_ne_true)),
    fun fails x s hrun htag hx hlen hto => ?_⟩
  · by_cases hown : s.updOwner = id.num
    · rw [State.updOwned_owner hown]
      have hk := (s.updTouch_keeps.mono (by decide)).trans s.updTouch.updActivate_keeps
      refine ⟨hk.bpReg _ _ _ (by decide), fun hne => absurd hown hne, fun _ h6 => ?_, fun _ h6 hnone => ?_, fun _ h6 hsome hno => ?_,
        fun _ h6 hsome hyes => ?_⟩
      · rw [State.updActivate_other (s := s.updTouch) h6]
        exact ⟨rfl, rfl⟩
      · obtain ⟨-, hst, hto, howner, hact⟩ := State.updActivate_full_result (s := s.updTouch) h6 (s.updTouch_partialImage.trans hnone)
        exact ⟨hst, hto, howner.trans hown, hact⟩
      · obtain ⟨m, hm⟩ := Option.isSome_iff_exists.mp hsome
        obtain ⟨hkf, hst, hto, herr⟩ := State.updPartial_fails (s := s.updTouch) hno m
        rw [State.updActivate_partial (s := s.updTouch) h6 (s.updTouch_partialImage.trans hm)]
        exact ⟨hst.trans h6, hto, herr, hkf .image (by decide)⟩
      · obtain ⟨m, hm⟩ := Option.isSome_iff_exists.mp hsome
        obtain ⟨-, hst, hto, hbit, hstruct, hj⟩ := State.updPartial_takes (s := s.updTouch) hyes m
        rw [State.updActivate_partial (s := s.updTouch) h6 (s.updTouch_partialImage.trans hm)]
        exact ⟨hst, hto, hbit, hstruct, hj⟩
    · rw [State.updOwned_other hown]
      exact ⟨((Keeps.refl _ s).deny (by decide)).bpReg _ _ _ (by decide),
        fun _ => ⟨((RegsKept.refl _ s).deny (by decide)).bpReg _ _ _, rfl, getF_bump_same s F.HIF_DENY_COUNT (by decide)⟩,
        fun h => absurd h hown, fun h => absurd h hown, fun h => absurd h hown, fun h => absurd h hown⟩
  · obtain ⟨h9, hlate, hno⟩ := s.confirmed_cases
    have hk : Keeps [.regs, .upd] s (if keyed v then s.confirmed else s) := Keeps.ite (fun _ => s.confirmed_keeps) fun _ => Keeps.refl _ s
    refine ⟨(hk.mono (by decide)).bpReg _ _ _ (by decide), fun hkey h => ?_, fun hkey hn9 hn8 hp => ?_, fun h => ?_⟩
    · rw [if_pos hkey, h9 h]
      exact ⟨rfl, rfl⟩
    · rw [if_pos hkey, hlate hn9 hn8 hp]
      exact ⟨rfl, ((RegsKept.refl _ s).setF _ _ (by decide)).bpReg _ _ _, bit_setF_one s F.UPD_STATUS_LATE (by decide)⟩
    · have hs : (if keyed v then s.confirmed else s) = s := by
        by_cases hkey : keyed v = true
        · rw [if_pos hkey, hno (h.resolve_left (by rw [hkey]; decide))]
        · exact if_neg hkey
      rw [hs]
      exact ⟨rfl, rfl⟩
  · obtain ⟨h9, h8, hlate, hno⟩ := s.rejected_cases
    have hk : Keeps [.regs, .mnt, .reform, .upd] s (if keyed v then s.rejected else s) :=
      Keeps.ite (fun _ => s.rejected_keeps) fun _ => Keeps.refl _ s
    refine ⟨(hk.mono (by decide)).bpReg _ _ _ (by decide), fun hkey h => ?_, fun hkey h => ?_, fun hkey hn9 hn8 hp => ?_, fun h => ?_⟩
    · obtain ⟨-, hst, hcause, hpend, -⟩ := s.updFallback_result 1
      rw [if_pos hkey, h9 h]
      exact ⟨hst, hcause, hpend⟩
    · rw [if_pos hkey, h8 h]
      exact ⟨rfl, rfl⟩
    · rw [if_pos hkey, hlate hn9 hn8 hp]
      obtain ⟨hbit, hcount⟩ := s.updLate_result
      have hlk : Keeps [.regs] s (s.late F.UPD_STATUS_LATE) := (Keeps.refl _ s).late _ (by decide)
      exact ⟨(State.bpReg_upd ..).trans (hlk .upd (by decide)), ((RegsKept.refl _ s).late _ (by decide) (by decide)).bpReg _ _ _,
        (State.bpReg_bit ..).trans hbit, (State.bpReg_getF ..).trans hcount⟩
    · have hs : (if keyed v then s.rejected else s) = s := by
        by_cases hkey : keyed v = true
        · obtain ⟨hn9, hn8, hp⟩ := h.resolve_left (by rw [hkey]; decide)
          rw [if_pos hkey, hno hn9 hn8 hp]
        · exact if_neg hkey
      rw [hs]
      exact ⟨rfl, rfl⟩
  · refine ⟨_, congrArg Host.Outcome.next (State.healthEval_due hn hl h9 hd hfrom hw), ((Keeps.refl _ s).setF _ _ (by decide)).upd _ (by decide),
      ((RegsKept.refl _ s).setF _ _ (by decide)).upd _, ?_, rfl⟩
    exact getF_setF_same s F.UPD_HEALTH_MET _ (by decide)
  · by_cases ht : s.flashTakes 1
    · obtain ⟨hk, hst, hown, hbit, hj, hact⟩ := State.trialCommit_takes h9 hd ht
      exact ⟨_, rfl, hk.mono (by decide), fun hno => absurd ht hno, fun _ => ⟨hst, hown, hbit, hj, hact⟩⟩
    · obtain ⟨hk, hst, hown, hflash⟩ := State.trialCommit_fails h9 hd ht
      exact ⟨_, rfl, hk.mono (by decide), fun _ => ⟨hst, hown, hflash⟩, fun hyes => absurd hyes ht⟩
  · obtain ⟨hk, hst, hcause, hpend, hreqs⟩ := s.updFallback_result 0
    exact ⟨_, congrArg Host.Outcome.next (State.healthExpiry_due h9 hd hfrom hw), hk.mono (by decide), hst, hcause, hpend, hreqs⟩
  · obtain ⟨hf, hbusy, -, a, ha, hact, htag, -⟩ := s.submitSave_result (tag := 0) (by decide)
    exact ⟨(hf.keeps.mono (by decide)).bpReg _ _ _ (by decide), hbusy, a, ha, hact, htag⟩
  · have hk0 : Keeps [.pwr] s { s with pwr := { s.pwr with saveFrom := s.pwr.saveFrom + s.saveTicks } } := (Keeps.refl _ s).pwr _ (by decide)
    obtain ⟨hf, hbusy, ⟨-, -, -, -, hfrom⟩, a, ha, hact, htag, -⟩ :=
      State.submitSave_result { s with pwr := { s.pwr with saveFrom := s.pwr.saveFrom + s.saveTicks } } (tag := 0) (by decide)
    exact ⟨_, congrArg Host.Outcome.next (if_pos ⟨h0, hle⟩), hk0.of_mono hf.keeps _ (by decide) (by decide), hfrom, hbusy, a, ha, hact, htag⟩
  · obtain ⟨hk, hfail, htake⟩ := State.setsaveCommit_result hrun htag hx fails (by omega) (by omega)
    have hact (h2 : s.saveTag = 2) (h7 : s.updSt = 7) := State.setsaveCommit_activation hrun h2 hx fails (by omega) (by omega) h7
    exact ⟨_, rfl, hk.mono (by decide), hfail, htake, fun h2 h7 => (hact h2 h7).1, fun h2 h7 => (hact h2 h7).2.1, fun h2 h7 => (hact h2 h7).2.2⟩
end

section
/-!
SUPPORT. O56: how a session of an update ends, and its writes at the coordinator.
-/

namespace Sys2Proof.Machine

section

variable (s : State)

/-! ### The writes of a session -/

theorem besideMnt_withdrawn : ¬ besideMnt (F.MNT_ACT_WITHDRAWN_COUNT actImgwrite).off := by unfold besideMnt; decide

theorem State.endAct_write : s.endAct actImgwrite 0 = { s with mnt := { s.mnt with running := dropAct actImgwrite 0 s.mnt.running } } := rfl

/-- Giving up the writes moves the coordinator and its counts alone. -/
theorem State.dropWrites_frame : Frame [.regs, .upd, .mnt] besideMnt s s.dropWrites := by
  have hupd : Frame [.regs, .upd, .mnt] besideMnt s { s with upd := { s.upd with writes := [] } } :=
    ⟨(Keeps.refl _ s).upd _ (by decide), RdKept.refl _ s⟩
  have hmnt (u : State) (x : MaintState) : Frame [.regs, .upd, .mnt] besideMnt u { u with mnt := x } := ⟨(Keeps.refl _ u).mnt x (by decide), RdKept.refl _ u⟩
  have hwith (u : State) : Frame [.regs, .upd, .mnt] besideMnt u (u.withdraw actImgwrite 0) :=
    Frame.ite (fun _ => (hmnt u _).bump _ (by decide) besideMnt_withdrawn) fun _ => Frame.refl _ _ u
  exact (hupd.trans (hwith _)).trans (hmnt _ _)

/-- A write that is submitted waits or runs, and moves the coordinator and its counts alone. -/
theorem State.submitWrite_result :
    Frame [.regs, .mnt] besideMnt s (s.submit actImgwrite 0 0) ∧
      ∃ a ∈ (s.submit actImgwrite 0 0).mnt.running ++ (s.submit actImgwrite 0 0).mnt.waiting, a.a = actImgwrite := by
  have henter : Frame [.regs, .mnt] besideMnt s (s.enter (arriving actImgwrite 0 0)) := ⟨(Keeps.refl _ s).mnt _ (by decide), RdKept.refl _ s⟩
  exact ⟨State.submit_frame (by decide) (by decide) (by decide) (by decide) (fun _ h => h) henter, State.submit_present (by decide)⟩

/-! ### The end of a session -/

/-- What a release leaves of the session's own data. -/
theorem State.updRelease_upd (ident : Nat) :
    (s.updRelease ident).upd = { UpdState.reset with coefs := s.upd.coefs, carried := s.upd.carried } := rfl

theorem State.updRelease_recq (ident : Nat) :
    (s.updRelease ident).recq = s.recq ++ [⟨ident, 0x0703, pw s.updOwner ++ pb false, s.tick⟩] := rfl

/-- The fields that the end of a session may change. -/
def sessionFields : List Field := [.regs, .upd, .pwr, .recq, .mnt]

theorem State.updFail_result {code : Nat} (hc : code < 256) : Keeps sessionFields s (s.updFail code) ∧ (s.updFail code).updFailedWith code := by
  unfold State.updFail
  dsimp only
  generalize hu : (s.setF F.UPD_STATUS_ERR code).setF F.UPD_STATUS_FAILED 1 = u
  have huk : Keeps [.regs] s u := hu ▸ ((Keeps.refl _ s).setF _ _ (by decide)).setF _ _ (by decide)
  have hdrop := u.dropWrites_frame
  generalize hv : u.dropWrites.emit 0 0x0705 (pw code ++ pw (s.getF F.UPD_STATUS_SECTION)) = v
  have hvf : Frame [.regs, .upd, .mnt, .recq] besideMnt u v := hv ▸ (hdrop.wide (by decide)).emit _ _ _ (by decide)
  obtain ⟨hk, -, hst, hown, hflags⟩ := v.updRelease_result 0
  have hfld (b n : Nat) (hb : 8 ≤ b) (hbn : b + n ≤ 32) : (v.updRelease 0).getF ⟨R.UPD_STATUS, b, n⟩ = u.getF ⟨R.UPD_STATUS, b, n⟩ :=
    (hflags b n hb hbn).trans (hvf.rd.getF _ (by show besideMnt R.UPD_STATUS; unfold besideMnt; decide))
  refine ⟨(huk.of_mono hvf.keeps sessionFields (by decide) (by decide)).trans (hk.mono (by decide)), ?_, ?_, hst, hown⟩
  · rw [show F.UPD_STATUS_ERR = ⟨R.UPD_STATUS, 8, 8⟩ from rfl, hfld 8 8 (by decide) (by decide), ← hu,
      getF_setF_other _ _ _ _ (by decide) (.inr (.inl (by decide)))]
    exact (getF_setF_same s F.UPD_STATUS_ERR code (by decide)).trans (Nat.mod_eq_of_lt hc)
  · exact (congrArg (fun n => n == 1) (hfld 16 1 (by decide) (by decide))).trans (hu ▸ bit_setF_one _ F.UPD_STATUS_FAILED (by decide))

/-- ABORT, CLOSE, the timeout: IDLE with the lock free, ABORTED unless STAGED, and a record. -/
theorem State.updEnd_result (ident : Nat) :
    Keeps sessionFields s (s.updEnd ident) ∧ (s.updEnd ident).updSt = 0 ∧ (s.updEnd ident).updOwner = 0 ∧ (s.updEnd ident).upd.writes = [] ∧
      (s.updEnd ident).getF F.UPD_STATUS_ERR = (if s.updSt = 6 then s.getF F.UPD_STATUS_ERR else 0x0E) ∧
      ⟨ident, 0x0703, pw s.updOwner ++ pb false, s.tick⟩ ∈ (s.updEnd ident).recq := by
  unfold State.updEnd
  dsimp only
  generalize hu : (if s.updSt = 6 then s else s.setF F.UPD_STATUS_ERR 0x0E) = u
  have huk : Keeps [.regs] s u := hu ▸ Keeps.ite (fun _ => Keeps.refl _ s) fun _ => (Keeps.refl _ s).setF _ _ (by decide)
  have huown : u.updOwner = s.updOwner := by
    rw [← hu]
    split
    · rfl
    · exact getF_setF_other _ _ _ _ (by decide) (.inl (by decide))
  have huerr : u.getF F.UPD_STATUS_ERR = if s.updSt = 6 then s.getF F.UPD_STATUS_ERR else 0x0E := by
    rw [← hu]
    split
    · rfl
    · exact getF_setF_same s F.UPD_STATUS_ERR 0x0E (by decide)
  have hd := u.dropWrites_frame
  generalize u.dropWrites = v at hd ⊢
  obtain ⟨hk, -, hst, hown, hflags⟩ := v.updRelease_result ident
  have htick : v.tick = s.tick :=
    (congrArg (fun x : TimeState => x.frc.toNat) (hd.keeps .time (by decide))).trans
      (congrArg (fun x : TimeState => x.frc.toNat) (huk .time (by decide)))
  have hvown : v.updOwner = s.updOwner := (hd.rd.getF F.UPD_SESSION_OWNER (by unfold besideMnt; decide)).trans huown
  refine ⟨(huk.of_mono hd.keeps sessionFields (by decide) (by decide)).trans (hk.mono (by decide)), hst, hown,
    congrArg UpdState.writes (v.updRelease_upd ident), ?_, ?_⟩
  · exact (hflags 8 8 (by decide) (by decide)).trans ((hd.rd.getF F.UPD_STATUS_ERR (by unfold besideMnt; decide)).trans huerr)
  · rw [v.updRelease_recq ident, hvown, htick]
    exact List.mem_append_right _ List.mem_cons_self

/-! ### Sessions (R391) -/

/-- A session that opens. -/
def State.opened (s : State) (id : Ident) : State :=
  let u := s.updClear.updTouch.wakeDom 12
  ((u.setF F.UPD_SESSION_OWNER id.num).updTo (if u.jState = 2 then 6 else 1)).emit id.num 0x0703 (pw id.num ++ pb true)

theorem State.updOpen_free {s : State} (h : s.updOwner = 0) (id : Ident) : s.updOpen id = (0#32, s.opened id) := if_pos h

theorem State.updOpen_taken {s : State} (h : s.updOwner ≠ 0) (id : Ident) : s.updOpen id = (lo32 s.updOwner, s) := if_neg h

theorem State.updClose_other {s : State} {id : Ident} (h : s.updOwner ≠ id.num) (v : Word) : s.updClose id v = s.deny := if_pos h

theorem State.updClose_wrong {s : State} {id : Ident} {v : Word} (h : s.updOwner = id.num) (hv : getBits v 0 4 ≠ id.num) :
    s.updClose id v = s.bump F.MBX_LOCK_ERR_COUNT := (if_neg (not_not_intro h)).trans (if_pos hv)

theorem State.updClose_owner {s : State} {id : Ident} {v : Word} (h : s.updOwner = id.num) (hv : getBits v 0 4 = id.num) :
    s.updClose id v = s.updEnd id.num := (if_neg (not_not_intro h)).trans (if_neg (not_not_intro hv))
theorem State.clkMove_same {was : State} (h : s.clkOut = was.clkOut) : s.clkMove was = s :=
  if_pos (by rw [h, beq_self_eq_true, Bool.true_or])

/-- A wake of a domain other than NET shows on no pin. -/
theorem State.wakeDom_unseen {d : Nat} (hd : d < 14) (h10 : d ≠ 10) : Keeps [.regs, .pwr] s (s.wakeDom d) := by
  have h := Keeps.refl [.regs, .pwr] s
  have hsame : ((s.setDom d 2).worked d).clkOut = s.clkOut := by
    have hf : Frame [.regs, .pwr] (fun o => o / 0x10000 ≠ 1) s ((s.setDom d 2).worked d) :=
      ((Frame.refl _ _ s).setF ⟨R.PWR_DOM_STATE, 2 * d, 2⟩ 2 (by decide) (fun hp => hp (show R.PWR_DOM_STATE / 0x10000 = 1 by decide))).worked d (by decide)
    have hnet : getBits (((s.setDom d 2).worked d).rd R.PWR_DOM_STATE) 20 2 = getBits (s.rd R.PWR_DOM_STATE) 20 2 :=
      s.domState_setDom_other hd h10.symm 2
    have hport (p : Nat) : (F.NET_PORT_STATUS_RCLK_OK p).off / 0x10000 ≠ 1 := by
      show (0xD0008 + 0x4000 * p) / 0x10000 ≠ 1
      omega
    unfold State.clkOut
    dsimp only
    rw [hf.rd.bit F.NET_SYNCE_CTRL_CLKOUT_EN (by decide), hf.rd.bit F.NET_SYNCE_CTRL_SQUELCH (by decide), hf.rd.getF F.NET_SYNCE_CTRL_PORT (by decide),
      hf.rd.getF F.NET_SYNCE_CTRL_FSEL (by decide), hf.rd.bit _ (hport _), hnet]
  refine Keeps.ite (fun _ => h.worked _ (by decide)) fun _ => Keeps.ite (fun _ => h) fun _ => Keeps.ite (fun _ => ?_) fun _ =>
    (h.bump _ (by decide)).pwr _ (by decide)
  rw [State.clkMove_same _ hsame]
  exact (h.setDom _ _ (by decide)).worked _ (by decide)

/-- A session opens in OPEN, or in STAGED with a staged slot. -/
theorem State.opened_result (id : Ident) :
    Keeps [.regs, .recq, .pwr, .upd] s (s.opened id) ∧ (s.opened id).updOwner = id.num ∧
      (s.opened id).updSt = (if s.jState = 2 then 6 else 1) ∧ (s.opened id).getF F.UPD_OFFSET_NEXT = 0 ∧
      (s.opened id).recq = s.recq ++ [⟨id.num, 0x0703, pw id.num ++ pb true, s.tick⟩] := by
  unfold State.opened
  dsimp only
  have hc : Keeps [.regs, .upd] s s.updClear.updTouch := ((((Keeps.refl _ s).upd _ (by decide)).setF _ _ (by decide)).setF _ _ (by decide)).upd _ (by decide)
  have hc0 : s.updClear.updTouch.getF F.UPD_OFFSET_NEXT = 0 := by
    show (State.setF _ F.UPD_STATUS_SECTION 0).getF F.UPD_OFFSET_NEXT = 0
    rw [getF_setF_other _ _ _ _ (by decide) (.inl (by decide)), getF_setF_same _ _ _ (by decide)]
    rfl
  generalize s.updClear.updTouch = c at hc hc0 ⊢
  have hwk := c.wakeDom_unseen (d := 12) (by decide) (by decide)
  have hwr := (c.wakeDom_frame (d := 12) (by decide)).rd
  generalize c.wakeDom 12 = u at hwk hwr ⊢
  have hu : Keeps [.regs, .recq, .pwr, .upd] s u := hc.of_mono hwk _ (by decide) (by decide)
  have hj : u.jState = s.jState := by rw [State.jState, State.jState, hu .flash (by decide)]
  have htick : u.tick = s.tick := congrArg (fun x : TimeState => x.frc.toNat) (hu .time (by decide))
  rw [hj]
  have hn : (if s.jState = 2 then 6 else 1) < 16 := by split <;> decide
  generalize (if s.jState = 2 then 6 else 1) = n at hn ⊢
  have hid : id.num < 16 := by cases id <;> decide
  refine ⟨((hu.setF _ _ (by decide)).setF _ _ (by decide)).emit _ _ _ (by decide), ?_, ?_, ?_, ?_⟩
  · rw [State.updOwner, State.emit_getF, State.updTo, getF_setF_other _ _ _ _ (by decide) (.inl (by decide)), getF_setF_same _ _ _ (by decide)]
    exact Nat.mod_eq_of_lt hid
  · rw [State.updSt, State.emit_getF]
    exact (getF_setF_same _ F.UPD_STATUS_STATE n (by decide)).trans (Nat.mod_eq_of_lt hn)
  · rw [State.emit_getF, State.updTo, getF_setF_other _ _ _ _ (by decide) (.inl (by decide)), getF_setF_other _ _ _ _ (by decide) (.inl (by decide)),
      hwr.getF _ (by unfold besidePwr; decide), hc0]
  · have hr : u.recq = s.recq := (hwk .recq (by decide)).trans (hc .recq (by decide))
    show u.recq ++ [⟨id.num, 0x0703, pw id.num ++ pb true, u.tick⟩] = _
    rw [hr, htick]

end

end Sys2Proof.Machine
end

section
/-!
SUPPORT. O56: the container header and the bytes that arrive.
-/

namespace Sys2Proof.Machine

section

variable {s : State}

/-! ### The plan of flash accesses that fail -/

/-- One access takes the head of the plan, the next ones the rest. -/
theorem State.flashTakes_succ {t : State} (h : t.flash.plan = s.flash.plan.drop 1) (n : Nat) :
    s.flashTakes (n + 1) ↔ s.flashTakes 1 ∧ t.flashTakes n := by
  have hget (k : Nat) : t.flash.plan.getD k 0 = s.flash.plan.getD (k + 1) 0 := by
    rw [h, List.getD_eq_getElem?_getD, List.getD_eq_getElem?_getD, List.getElem?_drop, Nat.add_comm 1 k]
  refine ⟨fun ht => ⟨fun k hk => ht k (by omega), fun k hk => (hget k).symm ▸ ht (k + 1) (by omega)⟩, fun ⟨h1, hn⟩ k hk => ?_⟩
  cases k with
  | zero => exact h1 0 (by decide)
  | succ k => exact hget k ▸ hn k (by omega)

/-- The fields that a write of flash may change. -/
def flashFields : List Field := [.regs, .host, .obs, .recq, .flash]

/-- A write of flash with its verification touches what it writes and what a fault touches. -/
theorem State.flashWrite_beside (loc : Nat) {f : State → State} (hf : ∀ u, Frame flashFields besideJournal u (f u)) :
    Frame flashFields besideJournal s (s.flashWrite loc f).2 := by
  have hplan (x : Flash) : Frame flashFields besideJournal s { s with flash := x } := ⟨(Keeps.refl _ s).flash x (by decide), RdKept.refl _ s⟩
  have hfault (u : State) (tr : Bool) : Frame flashFields besideJournal u (u.mntFault 3 tr loc) :=
    (u.mntFault_plain (by decide) (by decide) tr loc).mono (by decide) fun _ h => h.1
  unfold State.flashWrite
  dsimp only
  split
  · exact (hplan _).trans (hfault _ _)
  · exact ((hplan _).trans (Frame.ite (fun _ => hfault _ _) fun _ => Frame.refl _ _ _)).trans (hf _)

/-- What it leaves of the flash, by whether it passes. -/
theorem State.flashWrite_takes (h : s.flashTakes 1) (loc : Nat) {f : State → State} {g : Flash → Flash} (hf : ∀ u, (f u).flash = g u.flash) :
    (s.flashWrite loc f).1 = true ∧ (s.flashWrite loc f).2.flash = g s.flash.planned := by
  rcases s.flashWrite_cases loc f with ⟨hle, -, -⟩ | ⟨-, h1, u, hu, h2⟩
  · exact absurd (s.flashTakes_one.mp h) (not_lt_of_ge hle)
  · exact ⟨h1, by rw [h2, hf u, hu]⟩

theorem State.flashWrite_fails (h : ¬ s.flashTakes 1) (loc : Nat) (f : State → State) :
    (s.flashWrite loc f).1 = false ∧ (s.flashWrite loc f).2.flash = s.flash.planned := by
  rcases s.flashWrite_cases loc f with ⟨-, h1, hfl⟩ | ⟨hlt, -, -⟩
  · exact ⟨h1, hfl⟩
  · exact absurd (s.flashTakes_one.mpr hlt) h

/-! ### The bytes that arrive -/

/-- Registers beside UPD_OFFSET. -/
def besideNext (o : Nat) : Prop := o ≠ R.UPD_OFFSET

variable (s)

/-- Bytes of sections join the buffer. -/
theorem State.secTake_result (b : List Byte) :
    Frame [.regs, .upd] besideNext s (s.secTake b) ∧ ∃ x, (s.secTake b).upd = { s.upd with buf := x } := by
  unfold State.secTake
  split
  · exact ⟨Frame.refl _ _ s, s.upd.buf, rfl⟩
  · rename_i e _
    have hbuf : Frame [.regs, .upd] besideNext s { s with upd := { s.upd with buf := s.upd.buf ++ b.drop (e.off - s.getF F.UPD_OFFSET_NEXT) } } :=
      ⟨(Keeps.refl _ s).upd _ (by decide), RdKept.refl _ s⟩
    exact ⟨hbuf.setF F.UPD_OFFSET_NEXT _ (by decide) fun h => h rfl, _, rfl⟩

theorem State.secTake_entry {s : State} {e : SecEnt} (h : s.updEnt = some e) (b : List Byte) :
    (s.secTake b).upd = { s.upd with buf := s.upd.buf ++ b.drop (e.off - s.getF F.UPD_OFFSET_NEXT) } ∧
      (s.secTake b).getF F.UPD_OFFSET_NEXT = (s.getF F.UPD_OFFSET_NEXT + b.length) % 2 ^ 32 := by
  unfold State.secTake
  rw [h]
  exact ⟨rfl, getF_setF_same _ _ _ (by decide)⟩

/-- The session receives sections after header `h`. -/
def State.receiving (s : State) (h rest : List Byte) : State :=
  (((({ s with upd := { s.upd with hdr := h, buf := [], idx := 0, resent := false, writes := [], secs := [], carried := [] } } : State).updTo 2).setF
    F.UPD_OFFSET_NEXT 4096).setF F.UPD_STATUS_SECTION 0).secTake rest

theorem State.receiving_result (h rest : List Byte) :
    Keeps [.regs, .upd] s (s.receiving h rest) ∧ (s.receiving h rest).updSt = 2 ∧ (s.receiving h rest).updOwner = s.updOwner ∧
      (s.receiving h rest).upd.hdr = h ∧ (s.receiving h rest).upd.idx = 0 ∧ (s.receiving h rest).getF F.UPD_STATUS_SECTION = 0 := by
  unfold State.receiving
  generalize hv : ({ s with upd := { s.upd with hdr := h, buf := [], idx := 0, resent := false, writes := [], secs := [], carried := [] } } : State) = v
  have hvk : Keeps [.regs, .upd] s v := hv ▸ (Keeps.refl _ s).upd _ (by decide)
  have hvo : v.updOwner = s.updOwner := hv ▸ rfl
  have hvu : v.upd.hdr = h ∧ v.upd.idx = 0 := hv ▸ ⟨rfl, rfl⟩
  have hwk : Keeps [.regs, .upd] s (((v.updTo 2).setF F.UPD_OFFSET_NEXT 4096).setF F.UPD_STATUS_SECTION 0) :=
    ((hvk.setF _ _ (by decide)).setF _ _ (by decide)).setF _ _ (by decide)
  have hwst : (((v.updTo 2).setF F.UPD_OFFSET_NEXT 4096).setF F.UPD_STATUS_SECTION 0).updSt = 2 := by
    rw [State.updSt, getF_setF_other _ _ _ _ (by decide) (.inr (.inl (by decide))), getF_setF_other _ _ _ _ (by decide) (.inl (by decide)),
      State.updTo, getF_setF_same _ _ _ (by decide)]
    rfl
  have hwo : (((v.updTo 2).setF F.UPD_OFFSET_NEXT 4096).setF F.UPD_STATUS_SECTION 0).updOwner = s.updOwner := by
    rw [State.updOwner, getF_setF_other _ _ _ _ (by decide) (.inl (by decide)), getF_setF_other _ _ _ _ (by decide) (.inl (by decide)),
      State.updTo, getF_setF_other _ _ _ _ (by decide) (.inl (by decide))]
    exact hvo
  have hws : (((v.updTo 2).setF F.UPD_OFFSET_NEXT 4096).setF F.UPD_STATUS_SECTION 0).getF F.UPD_STATUS_SECTION = 0 :=
    getF_setF_same _ F.UPD_STATUS_SECTION 0 (by decide)
  have hwu : (((v.updTo 2).setF F.UPD_OFFSET_NEXT 4096).setF F.UPD_STATUS_SECTION 0).upd = v.upd := rfl
  generalize ((v.updTo 2).setF F.UPD_OFFSET_NEXT 4096).setF F.UPD_STATUS_SECTION 0 = w at hwk hwst hwo hws hwu ⊢
  obtain ⟨hf, x, hx⟩ := w.secTake_result rest
  rw [hx, hwu]
  exact ⟨hwk.trans hf.keeps, (hf.rd.getF F.UPD_STATUS_STATE (by unfold besideNext; decide)).trans hwst,
    (hf.rd.getF F.UPD_SESSION_OWNER (by unfold besideNext; decide)).trans hwo, hvu.1, hvu.2,
    (hf.rd.getF F.UPD_STATUS_SECTION (by unfold besideNext; decide)).trans hws⟩

/-! ### The header (R390) -/

theorem State.packageCode_lt (h : List Byte) : s.packageCode h < 256 := by
  have hi {c : Prop} [Decidable c] {a b : Nat} (ha : a < 256) (hb : b < 256) : (if c then a else b) < 256 := by split <;> assumption
  unfold State.packageCode State.headerCode
  iterate 11 refine hi (by decide) ?_
  decide

/-- The code of a header follows the flash, the image and the container version. -/
theorem State.packageCode_kept {s u : State} (hk : Keeps [.regs, .upd] s u) (hr : RdKept besideNext s u) (h : List Byte) :
    u.packageCode h = s.packageCode h := by
  have hver : u.getF F.GLB_VER_CONTAINER_VER = s.getF F.GLB_VER_CONTAINER_VER := hr.getF _ (by unfold besideNext; decide)
  have hflash : u.flash = s.flash := hk .flash (by decide)
  have himage : u.image = s.image := hk .image (by decide)
  unfold State.packageCode State.headerCode State.keptSecs State.arbFuse State.slot State.jActive
  rw [hver, hflash, himage]

/-- A slot begins to be written: its journal entry, then the erase of its map; whether both passed. -/
def State.begun (s : State) : Bool × State :=
  let t := s.inactive
  let u := s.updJournal 1 s.jActive t 0xFF
  if u.1 then u.2.flashWrite (slotAddr t) (fun s => (s.setSlot t { s.slot t with map := [] }).showJournal) else (false, u.2)

/-- Two steps in turn that may fail, and what follows them. -/
theorem ite_twoSteps (p q : Bool × State) (f g : State → State) :
    (if (!p.1) = true then g p.2 else if (!q.1) = true then g q.2 else f q.2) =
      if (if p.1 then q else (false, p.2)).1 then f (if p.1 then q else (false, p.2)).2 else g (if p.1 then q else (false, p.2)).2 := by
  obtain ⟨okp, u⟩ := p
  obtain ⟨okq, v⟩ := q
  cases okp
  · rfl
  · cases okq <;> rfl

theorem State.headerIn_eq : s.headerIn =
    if s.packageCode (s.upd.buf.take 4096) ≠ 0 then s.updFail (s.packageCode (s.upd.buf.take 4096))
    else if s.begun.1 then s.begun.2.receiving (s.upd.buf.take 4096) (s.upd.buf.drop 4096) else s.begun.2.updFail 0x0D := by
  exact congrArg (fun x => if s.packageCode (s.upd.buf.take 4096) ≠ 0 then s.updFail (s.packageCode (s.upd.buf.take 4096)) else x)
    (ite_twoSteps (s.updJournal 1 s.jActive s.inactive 0xFF) ((s.updJournal 1 s.jActive s.inactive 0xFF).2.flashWrite (slotAddr s.inactive)
      (fun u => (u.setSlot s.inactive { u.slot s.inactive with map := [] }).showJournal))
      (fun u => u.receiving (s.upd.buf.take 4096) (s.upd.buf.drop 4096)) (fun u => u.updFail 0x0D))

theorem State.inactive_lt : s.inactive < 256 := by
  unfold State.inactive
  split <;> decide

/-- The erase of a slot map. -/
def State.erased (s : State) (t : Nat) : State := (s.setSlot t { s.slot t with map := [] }).showJournal

theorem State.erased_frame (t : Nat) : Frame flashFields besideJournal s (s.erased t) := by
  have hset : Frame flashFields besideJournal s (s.setSlot t { s.slot t with map := [] }) := ⟨(Keeps.refl _ s).flash _ (by decide), RdKept.refl _ s⟩
  exact hset.trans ((State.showJournal_beside _).wide (by decide))

/-- The flash with a slot of it changed. -/
def Flash.withSlot (f : Flash) (t : Nat) (g : Slot → Slot) : Flash :=
  { f with slots := updAt (fun _ => g (f.slots.getD (t - 1) Slot.reset)) f.slots (t - 1) }

theorem State.erased_flash (t : Nat) : (s.erased t).flash = s.flash.withSlot t (fun x => { x with map := [] }) :=
  State.showJournal_keeps _ .flash (by decide)

theorem State.begun_fails {s : State} (h : ¬ s.flashTakes 2) : s.begun.1 = false := by
  unfold State.begun
  dsimp only
  by_cases h1 : s.flashTakes 1
  · obtain ⟨hok, ⟨-, -, -, -, hplan⟩, -⟩ := State.updJournal_takes h1 1 s.jActive s.inactive 0xFF
    rw [hok, if_pos rfl]
    exact (State.flashWrite_fails (fun h2 => h ((State.flashTakes_succ hplan 1).mpr ⟨h1, h2⟩)) _ _).1
  · rw [(State.updJournal_fails h1 1 s.jActive s.inactive 0xFF).1]
    rfl

theorem State.begun_takes {s : State} (h : s.flashTakes 2) : s.begun.1 = true ∧
    (s.jNext < 2 ^ 32 → s.begun.2.jState = 1 ∧ s.begun.2.jActive = s.jActive ∧ s.begun.2.jOther = s.inactive) := by
  have h1 : s.flashTakes 1 := fun k hk => h k (by omega)
  obtain ⟨hok, ⟨-, -, -, -, hplan⟩, hentry⟩ := State.updJournal_takes h1 1 s.jActive s.inactive 0xFF
  have h2 := ((State.flashTakes_succ hplan 1).mp h).2
  unfold State.begun
  dsimp only
  rw [hok, if_pos rfl]
  generalize (s.updJournal 1 s.jActive s.inactive 0xFF).2 = u at hentry h2 ⊢
  obtain ⟨hok2, hfl⟩ := State.flashWrite_takes h2 (slotAddr s.inactive) 
    (g := fun f => f.withSlot s.inactive (fun x => { x with map := [] })) (fun v => v.erased_flash s.inactive)
  refine ⟨hok2, fun hn => ?_⟩
  obtain ⟨hst, hact, hoth, -⟩ := State.jOf_entry ((congrArg Flash.journal hfl).trans (hentry hn (by decide) s.jActive_lt s.inactive_lt (by decide)))
  exact ⟨hst, hact, hoth⟩

theorem State.begun_frame : Frame flashFields besideJournal s s.begun.2 := by
  have hjf := s.updJournal_frame 1 s.jActive s.inactive 0xFF
  unfold State.begun
  dsimp only
  split
  · exact hjf.trans (State.flashWrite_beside _ fun u => u.erased_frame _)
  · exact hjf

/-- The header is whole: what becomes of the session. -/
theorem State.headerIn_result : Keeps [.regs, .recq, .pwr, .upd, .mnt, .flash, .host, .obs] s s.headerIn ∧
    s.headerIn.headerTaken s (s.upd.buf.take 4096) := by
  have hcode := s.packageCode_lt (s.upd.buf.take 4096)
  rw [s.headerIn_eq]
  generalize s.upd.buf.take 4096 = h at hcode ⊢
  by_cases hc : s.packageCode h = 0
  · rw [if_neg (not_not_intro hc)]
    have hf := s.begun_frame
    by_cases ht : s.flashTakes 2
    · obtain ⟨hok, hj⟩ := State.begun_takes ht
      rw [if_pos hok]
      obtain ⟨hk, hst, hown, hhdr, hidx, hsec⟩ := s.begun.2.receiving_result h (s.upd.buf.drop 4096)
      have hjk : (s.begun.2.receiving h (s.upd.buf.drop 4096)).flash = s.begun.2.flash := hk .flash (by decide)
      refine ⟨(hf.keeps.mono (by decide)).trans (hk.mono (by decide)), fun hne => absurd hc hne, fun _ hno => absurd ht hno,
        fun _ _ => ⟨hst, hown.trans (hf.rd.getF F.UPD_SESSION_OWNER (by unfold besideJournal besideMnt; decide)), hhdr, hidx, hsec, fun hn => ?_⟩⟩
      obtain ⟨h1, h2, h3⟩ := hj hn
      rw [State.jState, State.jActive, State.jOther, hjk]
      exact ⟨h1, h2, h3⟩
    · rw [if_neg (by rw [State.begun_fails ht]; exact Bool.false_ne_true)]
      obtain ⟨hk, hfail⟩ := s.begun.2.updFail_result (code := 0x0D) (by decide)
      exact ⟨(hf.keeps.mono (by decide)).trans (hk.mono (by decide)), fun hne => absurd hc hne, fun _ _ => hfail, fun _ h2 => absurd h2 ht⟩
  · rw [if_pos hc]
    obtain ⟨hk, hfail⟩ := s.updFail_result hcode
    exact ⟨hk.mono (by decide), fun _ => hfail, fun h0 => absurd h0 hc, fun h0 => absurd h0 hc⟩

/-- The outcome of a header depends on what the session's bytes do not change. -/
theorem State.headerTaken_kept {s u t : State} (hk : Keeps [.regs, .upd] s u) (hr : RdKept besideNext s u) {h : List Byte}
    (ht : t.headerTaken u h) : t.headerTaken s h := by
  have hown : u.updOwner = s.updOwner := hr.getF F.UPD_SESSION_OWNER (by unfold besideNext; decide)
  have hflash : u.flash = s.flash := hk .flash (by decide)
  unfold State.headerTaken State.flashTakes State.jNext State.inactive State.jActive at ht ⊢
  rwa [State.packageCode_kept hk hr, hflash, hown] at ht

/-! ### The bytes of a header -/

/-- Bytes that stay in the buffer of the header. -/
def State.gathered (s : State) (b : List Byte) : State :=
  ({ s.updTouch with upd := { s.updTouch.upd with buf := s.upd.buf ++ b } } : State).setF F.UPD_OFFSET_NEXT (s.upd.buf ++ b).length

theorem State.gathered_frame (b : List Byte) : Frame [.regs, .upd] besideNext s (s.gathered b) := by
  have hbuf : Frame [.regs, .upd] besideNext s { s.updTouch with upd := { s.updTouch.upd with buf := s.upd.buf ++ b } } :=
    ⟨(Keeps.refl _ s).upd _ (by decide), RdKept.refl _ s⟩
  exact hbuf.setF _ _ (by decide) fun h => h rfl

theorem State.updTake_header {s : State} (h : s.updSt = 1 ∨ s.updSt = 6) (b : List Byte) :
    s.updTake b = if 4096 ≤ (s.upd.buf ++ b).length then (s.gathered b).headerIn else s.gathered b := if_pos h

theorem State.updTake_section {s : State} (h : s.updSt = 2 ∨ s.updSt = 3) (b : List Byte) : s.updTake b = s.updTouch.secTake b :=
  (if_neg (show ¬ (s.updSt = 1 ∨ s.updSt = 6) by omega)).trans (if_pos h)

theorem State.updTake_other {s : State} (h : ¬ (s.updSt = 1 ∨ s.updSt = 6)) (h' : ¬ (s.updSt = 2 ∨ s.updSt = 3)) (b : List Byte) :
    s.updTake b = s.updTouch := (if_neg h).trans (if_neg h')

theorem State.updTake_short {s : State} (h : s.updSt = 1 ∨ s.updSt = 6) {b : List Byte} (hl : (s.upd.buf ++ b).length < 4096) :
    s.updTake b = s.gathered b := (State.updTake_header h b).trans (if_neg (not_le_of_gt hl))

theorem State.updTake_whole {s : State} (h : s.updSt = 1 ∨ s.updSt = 6) {b : List Byte} (hl : 4096 ≤ (s.upd.buf ++ b).length) :
    (s.updTake b).headerTaken s ((s.upd.buf ++ b).take 4096) := by
  rw [State.updTake_header h b, if_pos hl]
  exact State.headerTaken_kept (s.gathered_frame b).keeps (s.gathered_frame b).rd (s.gathered b).headerIn_result.2

theorem State.updTake_keeps (b : List Byte) : Keeps [.regs, .recq, .pwr, .upd, .mnt, .flash, .host, .obs] s (s.updTake b) := by
  by_cases h : s.updSt = 1 ∨ s.updSt = 6
  · rw [State.updTake_header h b]
    have hg := (s.gathered_frame b).keeps.mono (m := [.regs, .recq, .pwr, .upd, .mnt, .flash, .host, .obs]) (by decide)
    exact Keeps.ite (fun _ => hg.trans (s.gathered b).headerIn_result.1) fun _ => hg
  · by_cases h' : s.updSt = 2 ∨ s.updSt = 3
    · rw [State.updTake_section h' b]
      exact s.updTouch_keeps.of_mono (s.updTouch.secTake_result b).1.keeps _ (by decide) (by decide)
    · rw [State.updTake_other h h' b]
      exact s.updTouch_keeps.mono (by decide)

end

end Sys2Proof.Machine
end

section
/-!
SUPPORT. O56: START, the sections and their writes.
-/

namespace Sys2Proof.Machine

section

variable {s : State}

/-! ### START (R394) -/

/-- A DMA of the container begins. -/
def State.dmaFrom (s : State) : State := ({ s with upd := { s.upd with buf := [], dma := true } } : State).setF F.UPD_OFFSET_NEXT 0

theorem State.dmaFrom_frame (s : State) : Frame [.regs, .upd] besideNext s s.dmaFrom := by
  have hbuf : Frame [.regs, .upd] besideNext s { s with upd := { s.upd with buf := [], dma := true } } :=
    ⟨(Keeps.refl _ s).upd _ (by decide), RdKept.refl _ s⟩
  exact hbuf.setF _ _ (by decide) fun h => h rfl

theorem State.dmaFrom_updSt (s : State) : s.dmaFrom.updSt = s.updSt := s.dmaFrom_frame.rd.getF F.UPD_STATUS_STATE (by unfold besideNext; decide)

theorem State.updDma_reads {id : Ident} (hid : id = .host0 ∨ id = .host1) (hst : s.updSt = 1 ∨ s.updSt = 6) {c b : List Byte}
    (hb : b = c.take (s.getF F.UPD_SRC_LEN_LEN)) (bad : Option Nat) : s.updDma id c bad =
      match bad with
      | none => s.dmaFrom.updTake b
      | some n => if (s.dmaFrom.updTake (b.take n)).updLive then (s.dmaFrom.updTake (b.take n)).updFail 0x11 else s.dmaFrom.updTake (b.take n) := by
  have hlen : s.dmaFrom.getF F.UPD_SRC_LEN_LEN = s.getF F.UPD_SRC_LEN_LEN := s.dmaFrom_frame.rd.getF _ (by unfold besideNext; decide)
  have hc : ((id == .host0 || id == .host1) && (s.updSt == 1 || s.updSt == 6)) = true := by
    rcases hid with rfl | rfl <;> rcases hst with h | h <;> rw [h] <;> rfl
  rw [hb, ← hlen]
  exact if_pos hc

theorem State.updDma_none {id : Ident} (h : id = .netm ∨ id = .dbg ∨ (s.updSt ≠ 1 ∧ s.updSt ≠ 6)) (c : List Byte) (bad : Option Nat) :
    s.updDma id c bad = s := by
  have hc : ((id == .host0 || id == .host1) && (s.updSt == 1 || s.updSt == 6)) = false := by
    rcases h with rfl | rfl | ⟨h1, h6⟩
    · rfl
    · rfl
    · rw [beq_false_of_ne h1, beq_false_of_ne h6, Bool.or_false, Bool.and_false]
  exact if_neg (by rw [hc]; exact Bool.false_ne_true)

/-- The fields that bytes of the session may change. -/
def takeFields : List Field := [.regs, .recq, .pwr, .upd, .mnt, .flash, .host, .obs]

theorem State.updDma_keeps (s : State) (id : Ident) (c : List Byte) (bad : Option Nat) : Keeps takeFields s (s.updDma id c bad) := by
  have htake (b : List Byte) : Keeps takeFields s (s.dmaFrom.updTake b) := (s.dmaFrom_frame.keeps.mono (by decide)).trans (s.dmaFrom.updTake_keeps b)
  refine Keeps.ite (fun _ => ?_) fun _ => Keeps.refl _ s
  cases bad with
  | none => exact htake _
  | some n => exact Keeps.ite (fun _ => (htake _).trans ((State.updFail_result _ (by decide)).1.mono (by decide))) fun _ => htake _

theorem State.updLive_open (hst : s.updSt = 1 ∨ s.updSt = 6) : s.updLive = true := by
  unfold State.updLive
  rcases hst with h | h <;> rw [h] <;> rfl

section

variable {id : Ident} (hid : id = .host0 ∨ id = .host1) (hst : s.updSt = 1 ∨ s.updSt = 6) {c b : List Byte}
  (hb : b = c.take (s.getF F.UPD_SRC_LEN_LEN))
include hid hst hb

/-- The container arrives whole, or gathers. -/
theorem State.updDma_takes :
    (b.length < 4096 → (s.updDma id c none).upd = { s.upd with buf := b, dma := true, last := s.tick } ∧
      (s.updDma id c none).getF F.UPD_OFFSET_NEXT = b.length) ∧
    (4096 ≤ b.length → (s.updDma id c none).headerTaken s (b.take 4096)) := by
  have hst' : s.dmaFrom.updSt = 1 ∨ s.dmaFrom.updSt = 6 := s.dmaFrom_updSt ▸ hst
  rw [State.updDma_reads hid hst hb]
  refine ⟨fun hl => ?_, fun hl => ?_⟩
  · dsimp only
    rw [State.updTake_short hst' (b := b) hl]
    refine ⟨rfl, (getF_setF_same _ F.UPD_OFFSET_NEXT _ (by decide)).trans (Nat.mod_eq_of_lt ?_)⟩
    exact lt_trans hl (by decide)
  · exact State.headerTaken_kept s.dmaFrom_frame.keeps s.dmaFrom_frame.rd (State.updTake_whole hst' (b := b) hl)

/-- The DMA meets a completion error: the session ends, with SOURCE or with the code of a header that had arrived. -/
theorem State.updDma_breaks (n : Nat) :
    ((b.take n).length < 4096 → (s.updDma id c (some n)).updFailedWith 0x11) ∧
    (4096 ≤ (b.take n).length → s.flashTakes 2 →
      (s.updDma id c (some n)).updFailedWith (if s.packageCode (b.take 4096) = 0 then 0x11 else s.packageCode (b.take 4096))) := by
  have hst' : s.dmaFrom.updSt = 1 ∨ s.dmaFrom.updSt = 6 := s.dmaFrom_updSt ▸ hst
  rw [State.updDma_reads hid hst hb]
  refine ⟨fun hl => ?_, fun hl ht => ?_⟩
  · dsimp only
    have hlive : (s.dmaFrom.updTake (b.take n)).updLive = true := by
      rw [State.updTake_short hst' (b := b.take n) hl]
      have hkept : (s.dmaFrom.gathered (b.take n)).updSt = s.dmaFrom.updSt :=
        (s.dmaFrom.gathered_frame (b.take n)).rd.getF F.UPD_STATUS_STATE (by unfold besideNext; decide)
      exact State.updLive_open (hkept ▸ hst')
    rw [if_pos hlive]
    exact (State.updFail_result _ (by decide)).2
  · have htake : (b.take n).take 4096 = b.take 4096 := by
      rw [List.take_take, Nat.min_eq_left]
      rw [List.length_take] at hl
      omega
    have hh : (s.dmaFrom.updTake (b.take n)).headerTaken s ((b.take n).take 4096) :=
      State.headerTaken_kept s.dmaFrom_frame.keeps s.dmaFrom_frame.rd (State.updTake_whole hst' (b := b.take n) hl)
    rw [htake] at hh
    obtain ⟨hcode, -, hgo⟩ := hh
    by_cases hc : s.packageCode (b.take 4096) = 0
    · obtain ⟨h2, -⟩ := hgo hc ht
      have hlive : (s.dmaFrom.updTake (b.take n)).updLive = true := by rw [State.updLive, h2]; rfl
      rw [if_pos hc]
      dsimp only
      rw [if_pos hlive]
      exact (State.updFail_result _ (by decide)).2
    · have hfail := hcode hc
      have hlive : (s.dmaFrom.updTake (b.take n)).updLive = false := by rw [State.updLive, hfail.2.2.1]; rfl
      rw [if_neg hc]
      dsimp only
      rw [hlive, if_neg Bool.false_ne_true]
      exact hfail

end

/-! ### Sections (R394, R395) -/

/-- Registers of the block below its counts of outcomes. -/
def besideOutcomes (o : Nat) : Prop := besideMnt o ∧ o < 0x70130

/-- The fields that the end of a section may change. -/
def sectionFields : List Field := [.regs, .recq, .pwr, .upd, .mnt, .host, .obs]

/-- A counted outcome of two attempts. -/
theorem State.outcome_frame {k : Nat} (hk : k < 8) (hc : [0, 1, 4, 5].contains k = false) (s : State) {f : Fld} (hf : 0x70130 ≤ f.off) (tr : Bool) (loc : Nat) :
    Frame writeFields besideOutcomes s ((s.bump f).mntFault k tr loc) :=
  ((Frame.refl _ _ s).bump f (by decide) (fun h => absurd h.2 (not_lt_of_ge hf))).trans
    (((s.bump f).mntFault_plain hk hc tr loc).mono (by decide) fun _ h => h.1)

theorem State.sectionDone_due {e : SecEnt} (he : s.updEnt = some e) (hst : s.updSt = 2 ∨ s.updSt = 3) (hlen : e.len ≤ s.upd.buf.length)
    (hlane : s.laneSt 4 ≠ 2) (again : Option (List Byte)) :
    s.sectionDone again = if sha384 (s.upd.buf.take e.len) = e.hash then s.secGood e else s.secMismatch e again := by
  have hruns : s.sysRuns = true := by
    have hwant : (s.updSt == 2 || s.updSt == 3) = true := by rcases hst with h | h <;> rw [h] <;> rfl
    rw [State.sysRuns, State.sysWants, he, hwant, bne_iff_ne.mpr hlane]
    simp only [decide_eq_true hlen, Bool.and_true, Bool.or_true]
  unfold State.sectionDone
  rw [he]
  exact if_pos ⟨hst, hlen, hruns⟩

theorem State.sectionDone_idle (h : s.updEnt = none ∨ (s.updSt ≠ 2 ∧ s.updSt ≠ 3) ∨ s.laneSt 4 = 2 ∨
    ∃ e, s.updEnt = some e ∧ s.upd.buf.length < e.len) (again : Option (List Byte)) : s.sectionDone again = s := by
  unfold State.sectionDone
  split
  · rfl
  · rename_i e he
    refine if_neg fun ⟨hst, hlen, hruns⟩ => ?_
    rcases h with hn | ⟨h2, h3⟩ | hl | ⟨e', he', hlt⟩
    · rw [he] at hn; cases hn
    · exact hst.elim h2 h3
    · rw [State.sysRuns, hl, bne_self_eq_false, Bool.and_false] at hruns
      cases hruns
    · rw [he] at he'
      cases he'
      exact absurd hlen (not_le_of_gt hlt)

/-- The section is asked for again. -/
def State.resend (s : State) (e : SecEnt) : State :=
  ((({ s with upd := { s.upd with buf := [], resent := true } } : State).updTo 3).setF F.UPD_OFFSET_NEXT e.off).emit 0 0x0706 (pw s.upd.idx)

theorem State.resend_result (s : State) (e : SecEnt) :
    Keeps [.regs, .upd, .recq] s (s.resend e) ∧ (s.resend e).updSt = 3 ∧ (s.resend e).upd = { s.upd with buf := [], resent := true } ∧
      (s.resend e).getF F.UPD_OFFSET_NEXT = e.off % 2 ^ 32 := by
  unfold State.resend
  refine ⟨((((Keeps.refl _ s).upd _ (by decide)).setF _ _ (by decide)).setF _ _ (by decide)).emit _ _ _ (by decide), ?_, rfl, ?_⟩
  · rw [State.updSt, State.emit_getF, getF_setF_other _ _ _ _ (by decide) (.inl (by decide)), State.updTo, getF_setF_same _ _ _ (by decide)]
    rfl
  · rw [State.emit_getF, getF_setF_same _ _ _ (by decide)]
    rfl

theorem State.secMismatch_eq (e : SecEnt) (again : Option (List Byte)) : s.secMismatch e again =
    if s.upd.resent then ((s.bump F.UPD_LASTING_COUNT).mntFault 6 false s.upd.idx).updFail 0x0B
    else if s.upd.dma then (match again with | some b => (s.resend e).secTake b | none => (s.resend e).updFail 0x11) else s.resend e := rfl

/-- A section whose hash fails a second time, or cannot be read again, ends the session. -/
theorem State.secMismatch_lasting (e : SecEnt) (again : Option (List Byte)) (h : s.upd.resent = true) :
    Keeps sectionFields s (s.secMismatch e again) ∧ (s.secMismatch e again).updFailedWith 0x0B := by
  rw [State.secMismatch_eq, if_pos h]
  have hf := s.outcome_frame (k := 6) (by decide) (by decide) (f := F.UPD_LASTING_COUNT) (by decide) false s.upd.idx
  obtain ⟨hk, hfail⟩ := ((s.bump F.UPD_LASTING_COUNT).mntFault 6 false s.upd.idx).updFail_result (code := 0x0B) (by decide)
  exact ⟨hf.keeps.of_mono hk _ (by decide) (by decide), hfail⟩

theorem State.secMismatch_source (e : SecEnt) (h : s.upd.resent = false) (hd : s.upd.dma = true) :
    Keeps sectionFields s (s.secMismatch e none) ∧ (s.secMismatch e none).updFailedWith 0x11 := by
  rw [State.secMismatch_eq, if_neg (by rw [h]; exact Bool.false_ne_true), if_pos hd]
  obtain ⟨hk, hfail⟩ := (s.resend e).updFail_result (code := 0x11) (by decide)
  exact ⟨(s.resend_result e).1.of_mono hk _ (by decide) (by decide), hfail⟩

/-- Else it is asked for once more. -/
theorem State.secMismatch_again (e : SecEnt) (again : Option (List Byte)) (h : s.upd.resent = false) (hd : s.upd.dma = true → again ≠ none) :
    Keeps sectionFields s (s.secMismatch e again) ∧ (s.secMismatch e again).updSt = 3 ∧ (s.secMismatch e again).upd.resent = true ∧
      (s.secMismatch e again).upd.idx = s.upd.idx ∧
      (s.upd.dma = false → (s.secMismatch e again).upd.buf = [] ∧ (s.secMismatch e again).getF F.UPD_OFFSET_NEXT = e.off % 2 ^ 32) := by
  obtain ⟨hk, hst, hupd, hoff⟩ := s.resend_result e
  rw [State.secMismatch_eq, if_neg (by rw [h]; exact Bool.false_ne_true)]
  by_cases hdma : s.upd.dma = true
  · obtain ⟨b, rfl⟩ := Option.ne_none_iff_exists'.mp (hd hdma)
    obtain ⟨hf, x, hx⟩ := (s.resend e).secTake_result b
    rw [if_pos hdma]
    dsimp only
    rw [hx, hupd]
    exact ⟨hk.of_mono hf.keeps _ (by decide) (by decide), (hf.rd.getF F.UPD_STATUS_STATE (by unfold besideNext; decide)).trans hst, rfl, rfl,
      fun h0 => absurd (hdma.symm.trans h0) (by decide)⟩
  · rw [if_neg hdma, hupd]
    exact ⟨hk.mono (by decide), hst, rfl, rfl, fun _ => ⟨rfl, hoff⟩⟩

/-- A section that has arrived right, with the count of a resend. -/
def State.secCounted (s : State) : State :=
  if s.upd.resent then (s.bump F.UPD_TRANSIENT_COUNT).mntFault 6 true s.upd.idx else s

theorem State.secCounted_frame (s : State) : Frame writeFields besideOutcomes s s.secCounted :=
  Frame.ite (fun _ => s.outcome_frame (k := 6) (by decide) (by decide) (f := F.UPD_TRANSIENT_COUNT) (by decide) true s.upd.idx) fun _ => Frame.refl _ _ s

/-- The section is accepted: its write waits, and the next one is received. -/
def State.secNext (s : State) (e : SecEnt) (x : SlotSec) (i : Nat) : State :=
  let rest := s.upd.buf.drop e.len
  let next := (hdrEnts s.upd.hdr)[i + 1]?
  let buf := match next with | some n => rest.drop (n.off - (e.off + e.len)) | none => []
  let u := { s with upd := { s.upd with buf := buf, idx := i + 1, resent := false, writes := s.upd.writes ++ [x] } }
  match next with
  | some _ => (u.updTo 2).setF F.UPD_STATUS_SECTION (i + 1)
  | none => u.updTo 4

theorem State.secNext_result (s : State) (e : SecEnt) (x : SlotSec) (i : Nat) :
    Keeps [.regs, .upd] s (s.secNext e x i) ∧ (s.secNext e x i).upd.writes = s.upd.writes ++ [x] ∧ (s.secNext e x i).upd.idx = i + 1 ∧
      (s.secNext e x i).upd.resent = false ∧ (s.secNext e x i).updSt = if ((hdrEnts s.upd.hdr)[i + 1]?).isSome then 2 else 4 := by
  unfold State.secNext
  extract_lets rest next buf src u
  have hu : Keeps [.regs, .upd] s u := (Keeps.refl _ s).upd _ (by decide)
  have hw : u.upd.writes = s.upd.writes ++ [x] ∧ u.upd.idx = i + 1 ∧ u.upd.resent = false := ⟨rfl, rfl, rfl⟩
  show _ ∧ _ ∧ _ ∧ _ ∧ _ = if next.isSome then 2 else 4
  cases next with
  | some n =>
    refine ⟨(hu.setF _ _ (by decide)).setF _ _ (by decide), hw.1, hw.2.1, hw.2.2, ?_⟩
    show ((u.updTo 2).setF F.UPD_STATUS_SECTION (i + 1)).updSt = 2
    rw [State.updSt, getF_setF_other _ _ _ _ (by decide) (.inr (.inl (by decide)))]
    exact getF_setF_same _ F.UPD_STATUS_STATE 2 (by decide)
  | none => exact ⟨hu.setF _ _ (by decide), hw.1, hw.2.1, hw.2.2, getF_setF_same _ F.UPD_STATUS_STATE 4 (by decide)⟩

theorem State.secGood_eq (e : SecEnt) : s.secGood e =
    if (secInflate (secOf e (s.upd.buf.take e.len))).isNone then s.secCounted.updFail 0x0C
    else if s.secCounted.upd.writes.isEmpty then (s.secCounted.secNext e (secOf e (s.upd.buf.take e.len)) s.upd.idx).submit actImgwrite 0 0
    else s.secCounted.secNext e (secOf e (s.upd.buf.take e.len)) s.upd.idx := rfl

theorem State.secGood_bad (e : SecEnt) (h : secInflate (secOf e (s.upd.buf.take e.len)) = none) :
    Keeps sectionFields s (s.secGood e) ∧ (s.secGood e).updFailedWith 0x0C := by
  obtain ⟨hk, hfail⟩ := s.secCounted.updFail_result (code := 0x0C) (by decide)
  rw [State.secGood_eq, if_pos (by rw [h]; rfl)]
  exact ⟨s.secCounted_frame.keeps.of_mono hk _ (by decide) (by decide), hfail⟩

theorem State.secGood_good (e : SecEnt) (h : (secInflate (secOf e (s.upd.buf.take e.len))).isSome = true) :
    Keeps sectionFields s (s.secGood e) ∧ (s.secGood e).upd.writes = s.upd.writes ++ [secOf e (s.upd.buf.take e.len)] ∧
      (s.secGood e).upd.idx = s.upd.idx + 1 ∧ (s.secGood e).upd.resent = false ∧
      (s.secGood e).updSt = if ((hdrEnts s.upd.hdr)[s.upd.idx + 1]?).isSome then 2 else 4 := by
  have hupd : s.secCounted.upd = s.upd := s.secCounted_frame.keeps .upd (by decide)
  obtain ⟨hk, hw, hidx, hres, hst⟩ := s.secCounted.secNext_result e (secOf e (s.upd.buf.take e.len)) s.upd.idx
  rw [hupd] at hw hst
  rw [State.secGood_eq, if_neg (by rw [Option.isNone_eq_false_iff.mpr h]; exact Bool.false_ne_true)]
  generalize s.secCounted.secNext e (secOf e (s.upd.buf.take e.len)) s.upd.idx = u at hk hw hidx hres hst ⊢
  have hku : Keeps sectionFields s u := s.secCounted_frame.keeps.of_mono hk _ (by decide) (by decide)
  split
  · have hf := u.submitWrite_result.1
    have hfu : (u.submit actImgwrite 0 0).upd = u.upd := hf.keeps .upd (by decide)
    rw [hfu]
    exact ⟨hku.trans (hf.keeps.mono (by decide)), hw, hidx, hres, (hf.rd.getF F.UPD_STATUS_STATE (by unfold besideMnt; decide)).trans hst⟩
  · exact ⟨hku, hw, hidx, hres, hst⟩

/-! ### The writes of sections -/

/-- A section is written, with the count of a second attempt. -/
def State.secWritten (s : State) (failures at_ : Nat) (x : SlotSec) (rest : List SlotSec) : State :=
  let u := if failures = 1 then (s.bump F.UPD_TRANSIENT_COUNT).mntFault 3 true at_ else s
  ({ u with upd := { u.upd with writes := rest, secs := u.upd.secs ++ [x] } } : State).endAct actImgwrite 0

theorem State.secWritten_result (s : State) (failures at_ : Nat) (x : SlotSec) (rest : List SlotSec) :
    Frame sectionFields besideOutcomes s (s.secWritten failures at_ x rest) ∧
      (s.secWritten failures at_ x rest).upd = { s.upd with writes := rest, secs := s.upd.secs ++ [x] } := by
  unfold State.secWritten
  extract_lets u
  have hu : Frame writeFields besideOutcomes s u :=
    Frame.ite (fun _ => s.outcome_frame (k := 3) (by decide) (by decide) (f := F.UPD_TRANSIENT_COUNT) (by decide) true at_) fun _ => Frame.refl _ _ s
  have hupd : u.upd = s.upd := hu.keeps .upd (by decide)
  rw [State.endAct_write]
  refine ⟨(hu.wide (by decide)).trans ⟨((Keeps.refl _ u).upd _ (by decide)).mnt _ (by decide), RdKept.refl _ u⟩, ?_⟩
  exact congrArg (fun y : UpdState => { y with writes := rest, secs := y.secs ++ [x] }) hupd

theorem State.sectionWritten_idle (h : s.upd.writes = [] ∨ s.runs actImgwrite 0 = false) (failures : Nat) : s.sectionWritten failures = s := by
  unfold State.sectionWritten
  split
  · rfl
  · rename_i x rest hw
    rcases h with h | h
    · rw [hw] at h; cases h
    · exact if_neg (by rw [h]; exact Bool.false_ne_true)

theorem State.sectionWritten_eq {x : SlotSec} {rest : List SlotSec} (hw : s.upd.writes = x :: rest) (hrun : s.runs actImgwrite 0 = true)
    (failures : Nat) : ∃ at_, s.sectionWritten failures =
      if 2 ≤ failures then ((s.bump F.UPD_LASTING_COUNT).mntFault 3 false at_).updFail 0x0D
      else if rest.isEmpty then (s.secWritten failures at_ x rest).keepStart else (s.secWritten failures at_ x rest).submit actImgwrite 0 0 := by
  refine ⟨slotAddr s.jOther + 36864 + secBytes s.upd.secs, ?_⟩
  unfold State.sectionWritten
  rw [hw]
  exact if_pos hrun

/-- The sections that the active slot keeps depend on the flash and the image. -/
theorem State.keptSecs_kept {l : List Field} {u : State} (hk : Keeps l s u) (hl : Field.flash ∉ l ∧ Field.image ∉ l) (es : List SecEnt) :
    u.keptSecs es = s.keptSecs es := by
  have hflash : u.flash = s.flash := hk .flash hl.1
  have himage : u.image = s.image := hk .image hl.2
  unfold State.keptSecs State.slot State.jActive
  rw [hflash, himage]

/-! ### The kept sections (R395) -/

/-- The carried sections are written. -/
def State.keepsDue (s : State) : Prop := s.updSt = 4 ∧ s.upd.writes = [] ∧ s.upd.secs.length = (hdrEnts s.upd.hdr).length

theorem State.keepStart_none (h : ¬ s.keepsDue ∨ s.keptSecs (hdrEnts s.upd.hdr) = []) : s.keepStart = s := by
  unfold State.keepStart
  dsimp only
  by_cases hd : s.keepsDue
  · have hl := h.resolve_left (not_not_intro hd)
    refine (if_pos hd).trans ?_
    rw [hl]
    rfl
  · exact if_neg hd

theorem State.keepStart_bad (hd : s.keepsDue) (h : ∃ y ∈ s.keptSecs (hdrEnts s.upd.hdr), sha384 y.bytes ≠ y.hash) :
    Keeps sectionFields s s.keepStart ∧ s.keepStart.updFailedWith 0x0B := by
  have hany : (s.keptSecs (hdrEnts s.upd.hdr)).any (fun x => sha384 x.bytes != x.hash) = true := by
    obtain ⟨y, hy, hne⟩ := h
    exact List.any_eq_true.mpr ⟨y, hy, bne_iff_ne.mpr hne⟩
  have hf := s.mntFault_plain (k := 2) (by decide) (by decide) false (slotAddr s.jActive)
  obtain ⟨hk, hfail⟩ := (s.mntFault 2 false (slotAddr s.jActive)).updFail_result (code := 0x0B) (by decide)
  have heq : s.keepStart = (s.mntFault 2 false (slotAddr s.jActive)).updFail 0x0B := (if_pos hd).trans (if_pos hany)
  rw [heq]
  exact ⟨hf.keeps.of_mono hk _ (by decide) (by decide), hfail⟩

theorem State.keepStart_good (hd : s.keepsDue) (hne : s.keptSecs (hdrEnts s.upd.hdr) ≠ [])
    (h : ∀ y ∈ s.keptSecs (hdrEnts s.upd.hdr), sha384 y.bytes = y.hash) :
    Frame [.regs, .upd, .mnt] besideMnt s s.keepStart ∧ s.keepStart.upd = { s.upd with writes := s.keptSecs (hdrEnts s.upd.hdr) } ∧
      ∃ a ∈ s.keepStart.mnt.running ++ s.keepStart.mnt.waiting, a.a = actImgwrite := by
  have hany : ¬ (s.keptSecs (hdrEnts s.upd.hdr)).any (fun x => sha384 x.bytes != x.hash) = true := fun ha => by
    obtain ⟨y, hy, hy'⟩ := List.any_eq_true.mp ha
    exact bne_iff_ne.mp hy' (h y hy)
  have hemp : ¬ (s.keptSecs (hdrEnts s.upd.hdr)).isEmpty = true := fun he => hne (List.isEmpty_iff.mp he)
  have heq : s.keepStart = ({ s with upd := { s.upd with writes := s.keptSecs (hdrEnts s.upd.hdr) } } : State).submit actImgwrite 0 0 :=
    (if_pos hd).trans ((if_neg hany).trans (if_neg hemp))
  rw [heq]
  generalize s.keptSecs (hdrEnts s.upd.hdr) = l
  have hu : Frame [.regs, .upd, .mnt] besideMnt s ({ s with upd := { s.upd with writes := l } } : State) :=
    ⟨(Keeps.refl _ s).upd _ (by decide), RdKept.refl _ s⟩
  have hl : ({ s with upd := { s.upd with writes := l } } : State).upd = { s.upd with writes := l } := rfl
  generalize ({ s with upd := { s.upd with writes := l } } : State) = u at hu hl ⊢
  obtain ⟨hf, ha⟩ := u.submitWrite_result
  exact ⟨hu.trans (hf.wide (by decide)), (hf.keeps .upd (by decide)).trans hl, ha⟩

theorem State.keepStart_keeps (s : State) : Keeps sectionFields s s.keepStart := by
  by_cases hn : ¬ s.keepsDue ∨ s.keptSecs (hdrEnts s.upd.hdr) = []
  · rw [State.keepStart_none hn]
    exact Keeps.refl _ s
  · obtain ⟨hd, hne⟩ := not_or.mp hn
    by_cases h : ∀ y ∈ s.keptSecs (hdrEnts s.upd.hdr), sha384 y.bytes = y.hash
    · exact (State.keepStart_good (not_not.mp hd) hne h).1.keeps.mono (by decide)
    · push Not at h
      exact (State.keepStart_bad (not_not.mp hd) h).1

/-- The end of a write. -/
theorem State.sectionWritten_result {x : SlotSec} {rest : List SlotSec} (hw : s.upd.writes = x :: rest) (hrun : s.runs actImgwrite 0 = true)
    (failures : Nat) :
    Keeps sectionFields s (s.sectionWritten failures) ∧
      (2 ≤ failures → (s.sectionWritten failures).updFailedWith 0x0D) ∧
      (failures < 2 → (rest ≠ [] ∨ s.updSt ≠ 4 ∨ s.upd.secs.length + 1 ≠ (hdrEnts s.upd.hdr).length ∨
          s.keptSecs (hdrEnts s.upd.hdr) = []) →
        (s.sectionWritten failures).upd.writes = rest ∧ (s.sectionWritten failures).upd.secs = s.upd.secs ++ [x] ∧
          (s.sectionWritten failures).updSt = s.updSt) ∧
      (∀ l, failures < 2 → rest = [] → s.updSt = 4 → s.upd.secs.length + 1 = (hdrEnts s.upd.hdr).length →
        l = s.keptSecs (hdrEnts s.upd.hdr) → l ≠ [] →
        ((∃ y ∈ l, sha384 y.bytes ≠ y.hash) → (s.sectionWritten failures).updFailedWith 0x0B) ∧
        ((∀ y ∈ l, sha384 y.bytes = y.hash) → (s.sectionWritten failures).upd.writes = l ∧
          (s.sectionWritten failures).upd.secs = s.upd.secs ++ [x] ∧ (s.sectionWritten failures).updSt = 4 ∧
          ∃ a ∈ (s.sectionWritten failures).mnt.running ++ (s.sectionWritten failures).mnt.waiting, a.a = actImgwrite)) := by
  obtain ⟨at_, heq⟩ := State.sectionWritten_eq hw hrun failures
  rw [heq]
  by_cases hf2 : 2 ≤ failures
  · rw [if_pos hf2]
    have hfr := s.outcome_frame (k := 3) (by decide) (by decide) (f := F.UPD_LASTING_COUNT) (by decide) false at_
    obtain ⟨hk, hfail⟩ := ((s.bump F.UPD_LASTING_COUNT).mntFault 3 false at_).updFail_result (code := 0x0D) (by decide)
    exact ⟨hfr.keeps.of_mono hk _ (by decide) (by decide), fun _ => hfail, fun h => absurd hf2 (not_le_of_gt h),
      fun _ h => absurd hf2 (not_le_of_gt h)⟩
  · rw [if_neg hf2]
    obtain ⟨hfr, hupd⟩ := s.secWritten_result failures at_ x rest
    generalize s.secWritten failures at_ x rest = u at hfr hupd ⊢
    have hst : u.updSt = s.updSt := hfr.rd.getF F.UPD_STATUS_STATE (by unfold besideOutcomes besideMnt; decide)
    have hkept (es : List SecEnt) : u.keptSecs es = s.keptSecs es := State.keptSecs_kept hfr.keeps ⟨by decide, by decide⟩ es
    have hhdr : u.upd.hdr = s.upd.hdr := by rw [hupd]
    have hwr : u.upd.writes = rest := by rw [hupd]
    have hsecs : u.upd.secs = s.upd.secs ++ [x] := by rw [hupd]
    have hdue : u.keepsDue ↔ s.updSt = 4 ∧ rest = [] ∧ s.upd.secs.length + 1 = (hdrEnts s.upd.hdr).length := by
      rw [State.keepsDue, hst, hwr, hsecs, hhdr, List.length_append, List.length_singleton]
    by_cases hr : rest = []
    · rw [if_pos (by rw [hr]; rfl)]
      refine ⟨hfr.keeps.trans u.keepStart_keeps, fun h => absurd h hf2, fun _ hc => ?_, fun l _ _ h4 hlen hl hne => ⟨fun hbad => ?_, fun hgood => ?_⟩⟩
      · have hnone : ¬ u.keepsDue ∨ u.keptSecs (hdrEnts u.upd.hdr) = [] := by
          rw [hdue, hkept, hhdr]
          rcases hc with h | h | h | h
          · exact absurd hr h
          · exact .inl fun hd => h hd.1
          · exact .inl fun hd => h hd.2.2
          · exact .inr h
        rw [State.keepStart_none hnone]
        exact ⟨hwr, hsecs, hst⟩
      · rw [hl, ← hkept, ← hhdr] at hbad
        exact (State.keepStart_bad (hdue.mpr ⟨h4, hr, hlen⟩) hbad).2
      · rw [hl, ← hkept, ← hhdr] at hne hgood
        obtain ⟨hf, hku, ha⟩ := State.keepStart_good (hdue.mpr ⟨h4, hr, hlen⟩) hne hgood
        rw [hku]
        exact ⟨by rw [hl, ← hkept, ← hhdr], hsecs, ((hf.rd.getF F.UPD_STATUS_STATE (by unfold besideMnt; decide)).trans hst).trans h4, ha⟩
    · rw [if_neg fun h => hr (List.isEmpty_iff.mp h)]
      obtain ⟨hf, -⟩ := u.submitWrite_result
      have hfu : (u.submit actImgwrite 0 0).upd = u.upd := hf.keeps .upd (by decide)
      rw [hfu]
      exact ⟨hfr.keeps.trans (hf.keeps.mono (by decide)), fun h => absurd h hf2, fun _ _ => ⟨hwr, hsecs,
        (hf.rd.getF F.UPD_STATUS_STATE (by unfold besideMnt; decide)).trans hst⟩, fun _ _ h => absurd h hr⟩

end

end Sys2Proof.Machine
end

section
/-!
SUPPORT. O56: the kept sections, and the check of the composed image.
-/

namespace Sys2Proof.Machine

section

variable {s : State}

/-! ### Reads of the kept sections (R416) -/

theorem State.flashCheck_frame (s : State) (loc : Nat) : Frame flashFields besideMnt s (s.flashCheck loc).2 := by
  have hplan (x : Flash) : Frame flashFields besideMnt s { s with flash := x } := ⟨(Keeps.refl _ s).flash x (by decide), RdKept.refl _ s⟩
  have hfault (u : State) (tr : Bool) : Frame flashFields besideMnt u (u.mntFault 2 tr loc) :=
    (u.mntFault_plain (by decide) (by decide) tr loc).wide (by decide)
  refine (hplan { s.flash with plan := s.flash.plan.drop 1 }).trans ?_
  show Frame flashFields besideMnt _ (State.flashRead _ _ _ _)
  unfold State.flashRead
  exact Frame.ite (fun _ => hfault _ _) fun _ => Frame.ite (fun _ => hfault _ _) fun _ => Frame.refl _ _ _

theorem State.flashRead_flash (s : State) (a b : Bool) (loc : Nat) : (s.flashRead a b loc).flash = s.flash := by
  unfold State.flashRead
  split
  · exact State.mntFault_flash ..
  · split
    · exact State.mntFault_flash ..
    · rfl

theorem State.flashCheck_flash (s : State) (loc : Nat) : (s.flashCheck loc).2.flash = s.flash.planned := State.flashRead_flash _ _ _ _

theorem State.flashCheck_ok (s : State) (loc : Nat) : (s.flashCheck loc).1 = true ↔ s.flashTakes 1 := by
  rw [s.flashTakes_one]
  exact decide_eq_true_iff

/-- A read that passes at once moves nothing. -/
theorem State.flashCheck_quiet (h : s.flash.plan.headD 0 = 0) (loc : Nat) : Keeps [.flash] s (s.flashCheck loc).2 := by
  unfold State.flashCheck
  rw [h]
  exact (Keeps.refl _ s).flash _ (by decide)

theorem headD_eq_getD (l : List Nat) : l.headD 0 = l.getD 0 0 := by cases l <;> rfl

theorem State.keptReads_frame (n : Nat) (s : State) : Frame flashFields besideMnt s (s.keptReads n).2 := by
  induction n generalizing s with
  | zero => exact Frame.refl _ _ s
  | succ n ih =>
    unfold State.keptReads
    dsimp only
    split
    · exact (s.flashCheck_frame _).trans (ih _)
    · exact s.flashCheck_frame _

theorem State.keptReads_fails (n : Nat) {s : State} (h : ¬ s.flashTakes n) : (s.keptReads n).1 = false := by
  induction n generalizing s with
  | zero => exact absurd (fun k hk => absurd hk (Nat.not_lt_zero k)) h
  | succ n ih =>
    have hplan : (s.flashCheck (slotAddr s.jActive)).2.flash.plan = s.flash.plan.drop 1 := congrArg Flash.plan (s.flashCheck_flash _)
    unfold State.keptReads
    dsimp only
    split
    case isTrue hok => exact ih fun hn => h ((State.flashTakes_succ hplan n).mpr ⟨(s.flashCheck_ok _).mp hok, hn⟩)
    case isFalse => rfl

theorem State.keptReads_takes (n : Nat) {s : State} (h : s.flashTakes n) :
    (s.keptReads n).1 = true ∧ (s.keptReads n).2.flash.plan = s.flash.plan.drop n ∧
      ((∀ k, k < n → s.flash.plan.getD k 0 = 0) → Keeps [.flash] s (s.keptReads n).2) := by
  induction n generalizing s with
  | zero => exact ⟨rfl, rfl, fun _ => Keeps.refl _ s⟩
  | succ n ih =>
    have hplan : (s.flashCheck (slotAddr s.jActive)).2.flash.plan = s.flash.plan.drop 1 := congrArg Flash.plan (s.flashCheck_flash _)
    obtain ⟨h1, hn⟩ := (State.flashTakes_succ hplan n).mp h
    obtain ⟨hok, hdrop, hquiet⟩ := ih hn
    unfold State.keptReads
    dsimp only
    rw [if_pos ((s.flashCheck_ok _).mpr h1)]
    refine ⟨hok, ?_, fun h0 => ?_⟩
    · rw [hdrop, hplan, List.drop_drop, Nat.add_comm]
    · have hhead : s.flash.plan.headD 0 = 0 := by
        rw [headD_eq_getD]
        exact h0 0 (by omega)
      refine (State.flashCheck_quiet hhead _).trans (hquiet fun k hk => ?_)
      have hk' := h0 (k + 1) (by omega)
      rw [hplan, List.getD_eq_getElem?_getD, List.getElem?_drop, Nat.add_comm 1 k, ← List.getD_eq_getElem?_getD]
      exact hk'

theorem State.keptCopied_idle (h : s.updSt ≠ 4 ∨ s.upd.writes ≠ [] ∨
    s.upd.secs.length ≠ (hdrEnts s.upd.hdr).length + (s.keptSecs (hdrEnts s.upd.hdr)).length) : s.keptCopied = s :=
  if_neg fun ⟨h4, hw, hl⟩ => h.elim (fun h => h h4) fun h => h.elim (fun h => h hw) fun h => h hl

theorem State.keptCopied_due {n : Nat} (h4 : s.updSt = 4) (hw : s.upd.writes = [])
    (hl : s.upd.secs.length = (hdrEnts s.upd.hdr).length + n) (hn : n = (s.keptSecs (hdrEnts s.upd.hdr)).length) :
    s.keptCopied = if (s.keptReads n).1 then (s.keptReads n).2.updTo 5 else (s.keptReads n).2.updFail 0x0B := by
  subst hn
  exact if_pos ⟨h4, hw, hl⟩

theorem State.keptCopied_fails {n : Nat} (h4 : s.updSt = 4) (hw : s.upd.writes = [])
    (hl : s.upd.secs.length = (hdrEnts s.upd.hdr).length + n) (hn : n = (s.keptSecs (hdrEnts s.upd.hdr)).length) (ht : ¬ s.flashTakes n) :
    Keeps takeFields s s.keptCopied ∧ s.keptCopied.updFailedWith 0x0B := by
  obtain ⟨hk, hfail⟩ := (s.keptReads n).2.updFail_result (code := 0x0B) (by decide)
  rw [State.keptCopied_due h4 hw hl hn, if_neg (by rw [State.keptReads_fails n ht]; exact Bool.false_ne_true)]
  exact ⟨(State.keptReads_frame n s).keeps.of_mono hk _ (by decide) (by decide), hfail⟩

theorem State.keptCopied_takes {n : Nat} (h4 : s.updSt = 4) (hw : s.upd.writes = [])
    (hl : s.upd.secs.length = (hdrEnts s.upd.hdr).length + n) (hn : n = (s.keptSecs (hdrEnts s.upd.hdr)).length) (ht : s.flashTakes n) :
    Keeps takeFields s s.keptCopied ∧ s.keptCopied.updSt = 5 ∧ s.keptCopied.flash.plan = s.flash.plan.drop n ∧ s.keptCopied.upd = s.upd ∧
      ((∀ k, k < n → s.flash.plan.getD k 0 = 0) → Keeps [.regs, .flash] s s.keptCopied ∧ RegsKept [R.UPD_STATUS] s s.keptCopied) := by
  obtain ⟨hok, hdrop, hquiet⟩ := State.keptReads_takes n ht
  have hf := State.keptReads_frame n s
  rw [State.keptCopied_due h4 hw hl hn, if_pos hok]
  generalize (s.keptReads n).2 = u at hdrop hquiet hf ⊢
  have hset : Keeps [.regs] u (u.updTo 5) := (Keeps.refl _ u).setF _ _ (by decide)
  refine ⟨hf.keeps.of_mono hset _ (by decide) (by decide), getF_setF_same u F.UPD_STATUS_STATE 5 (by decide), hdrop, hf.keeps .upd (by decide), fun h0 => ?_⟩
  have hq := hquiet h0
  exact ⟨hq.of_mono hset _ (by decide) (by decide), (hq.regsKept (by decide) _).setF _ _ (by decide)⟩

/-! ### The composed image (R67, R387) -/

/-- The composed slot and then its journal entry are written; whether both were. -/
def State.stageWrites (s : State) (t : Nat) (x : Slot) : Bool × State :=
  let p := s.flashWrite (slotAddr t) (·.setSlot t x)
  if p.1 then p.2.updJournal 2 p.2.jActive t 0xFF else (false, p.2)

theorem State.setSlot_frame (s : State) (t : Nat) (x : Slot) : Frame flashFields besideJournal s (s.setSlot t x) :=
  ⟨(Keeps.refl _ s).flash _ (by decide), RdKept.refl _ s⟩

theorem State.stageWrites_frame (s : State) (t : Nat) (x : Slot) : Frame flashFields besideJournal s (s.stageWrites t x).2 := by
  have hw := s.flashWrite_beside (slotAddr t) (f := (·.setSlot t x)) fun u => u.setSlot_frame t x
  unfold State.stageWrites
  dsimp only
  split
  · exact hw.trans (State.updJournal_frame ..)
  · exact hw

/-- The flash with slot `t` replaced. -/
def Flash.putSlot (f : Flash) (t : Nat) (x : Slot) : Flash := { f with slots := updAt (fun _ => x) f.slots (t - 1) }

theorem State.stageWrites_fails (h : ¬ s.flashTakes 2) (t : Nat) (x : Slot) : (s.stageWrites t x).1 = false := by
  unfold State.stageWrites
  dsimp only
  by_cases h1 : s.flashTakes 1
  · obtain ⟨hok, hfl⟩ := State.flashWrite_takes h1 (slotAddr t) (f := (·.setSlot t x)) (g := fun f => f.putSlot t x) fun _ => rfl
    rw [hok, if_pos rfl]
    exact (State.updJournal_fails (fun h2 => h ((State.flashTakes_succ (congrArg Flash.plan hfl) 1).mpr ⟨h1, h2⟩)) ..).1
  · rw [(State.flashWrite_fails h1 (slotAddr t) (·.setSlot t x)).1]
    rfl

theorem State.stageWrites_takes (h : s.flashTakes 2) {t : Nat} (ht : t - 1 < s.flash.slots.length) (ht256 : t < 256) (x : Slot) :
    (s.stageWrites t x).1 = true ∧ (s.stageWrites t x).2.slot t = x ∧
      (s.jNext < 2 ^ 32 → (s.stageWrites t x).2.jState = 2 ∧ (s.stageWrites t x).2.jActive = s.jActive ∧ (s.stageWrites t x).2.jOther = t) := by
  have h1 : s.flashTakes 1 := fun k hk => h k (by omega)
  obtain ⟨hok, hfl⟩ := State.flashWrite_takes h1 (slotAddr t) (f := (·.setSlot t x)) (g := fun f => f.putSlot t x) fun _ => rfl
  unfold State.stageWrites
  dsimp only
  rw [hok, if_pos rfl]
  generalize (s.flashWrite (slotAddr t) (·.setSlot t x)).2 = u at hfl ⊢
  have hj : u.flash.journal = s.flash.journal := by rw [hfl]; rfl
  have hact : u.jActive = s.jActive := by rw [State.jActive, State.jActive, hj]
  have hnext : u.jNext = s.jNext := by rw [State.jNext, State.jNext, hj]
  obtain ⟨hok2, ⟨hslots, -⟩, hentry⟩ := State.updJournal_takes ((State.flashTakes_succ (congrArg Flash.plan hfl) 1).mp h).2 2 u.jActive t 0xFF
  refine ⟨hok2, ?_, fun hn => ?_⟩
  · rw [State.slot, hslots, hfl]
    exact updAt_get_same _ _ _ _ ht
  · obtain ⟨h2, ha, ho, -⟩ := State.jOf_entry (hentry (hnext ▸ hn) (by decide) u.jActive_lt ht256 (by decide))
    exact ⟨h2, ha.trans hact, ho⟩

/-- The image is staged. -/
def State.nowStaged (s : State) (t version : Nat) : State :=
  let own := (hdrEnts s.upd.hdr).map (·.typ)
  let u := { s with upd := { s.upd with hdr := [], buf := [], dma := false, idx := 0, secs := [], last := s.tick, carried := own } }
  (((u.updTo 6).setF F.UPD_OFFSET_NEXT 0).setF F.UPD_STATUS_SECTION 0).emit 0 0x0704 (pw t ++ pw version)

theorem State.nowStaged_result (s : State) (t version : Nat) :
    Keeps [.regs, .upd, .recq] s (s.nowStaged t version) ∧ (s.nowStaged t version).updSt = 6 ∧
      (s.nowStaged t version).updOwner = s.updOwner ∧ ⟨0, 0x0704, pw t ++ pw version, s.tick⟩ ∈ (s.nowStaged t version).recq := by
  unfold State.nowStaged
  extract_lets own src u
  have hu : Keeps [.regs, .upd, .recq] s u := (Keeps.refl _ s).upd _ (by decide)
  have ho : u.updOwner = s.updOwner := rfl
  have hr : u.tick = s.tick := rfl
  clear_value u
  refine ⟨(((hu.setF _ _ (by decide)).setF _ _ (by decide)).setF _ _ (by decide)).emit _ _ _ (by decide), ?_, ?_, ?_⟩
  · rw [State.updSt, State.emit_getF, getF_setF_other _ _ _ _ (by decide) (.inr (.inl (by decide))),
      getF_setF_other _ _ _ _ (by decide) (.inl (by decide)), State.updTo, getF_setF_same _ _ _ (by decide)]
    rfl
  · rw [State.updOwner, State.emit_getF, getF_setF_other _ _ _ _ (by decide) (.inl (by decide)),
      getF_setF_other _ _ _ _ (by decide) (.inl (by decide)), State.updTo, getF_setF_other _ _ _ _ (by decide) (.inl (by decide))]
    exact ho
  · rw [← hr]
    exact List.mem_append_right _ List.mem_cons_self

theorem ite_bnot {α : Type} (b : Bool) (x y : α) : (if (!b) = true then x else y) = if b = true then y else x := by cases b <;> rfl

theorem State.updChecked_eq (h5 : s.updSt = 5) : s.updChecked =
    match (s.imageCheck s.composed.version s.composed.named).2.2 with
    | none => (s.showCheck (s.imageCheck s.composed.version s.composed.named).1 (s.imageCheck s.composed.version s.composed.named).2.1
        s.jOther).updFail 0x13
    | some _ =>
      let p := (s.showCheck (s.imageCheck s.composed.version s.composed.named).1 (s.imageCheck s.composed.version s.composed.named).2.1
        s.jOther).stageWrites s.jOther s.composed
      if p.1 then p.2.nowStaged s.jOther s.composed.version else p.2.updFail 0x0D := by
  refine (if_pos h5).trans ?_
  dsimp only
  generalize s.composed = x
  generalize s.imageCheck x.version x.named = c
  obtain ⟨code, detail, image⟩ := c
  cases image with
  | none => rfl
  | some m => exact ite_bnot _ _ _

/-- The check of the composed image: what it comes to. -/
theorem State.updChecked_result (h5 : s.updSt = 5) {x : Slot} (hx : x = s.composed) (hlen : s.flash.slots.length = 2) (hj : s.jOther ∈ [1, 2]) :
    Keeps takeFields s s.updChecked ∧
      ((s.imageCheck x.version x.named).2.2 = none → s.updChecked.updFailedWith 0x13) ∧
      ((s.imageCheck x.version x.named).2.2.isSome = true → ¬ s.flashTakes 2 → s.updChecked.updFailedWith 0x0D) ∧
      ((s.imageCheck x.version x.named).2.2.isSome = true → s.flashTakes 2 → s.updChecked.updSt = 6 ∧ s.updChecked.updOwner = s.updOwner ∧
        s.updChecked.slot s.jOther = x ∧ ⟨0, 0x0704, pw s.jOther ++ pw x.version, s.tick⟩ ∈ s.updChecked.recq ∧
        (s.jNext < 2 ^ 32 → s.updChecked.jState = 2 ∧ s.updChecked.jOther = s.jOther ∧ s.updChecked.jActive = s.jActive)) := by
  have hjlt : s.jOther - 1 < 2 := by
    rcases List.mem_cons.mp hj with h | h
    · rw [h]; decide
    · rw [List.mem_singleton.mp h]; decide
  rw [State.updChecked_eq h5, ← hx]
  obtain ⟨code, detail, image⟩ := s.imageCheck x.version x.named
  dsimp only
  have hk : Keeps [.regs] s (s.showCheck code detail s.jOther) := (Keeps.refl _ s).showCheck _ _ _ (by decide)
  have hr : RegsKept [R.IMG_CHECK, R.UPD_STATUS] s (s.showCheck code detail s.jOther) := (RegsKept.refl _ s).showCheck _ _ _ (by decide) (by decide)
  generalize s.showCheck code detail s.jOther = u at hk hr ⊢
  have hflash : u.flash = s.flash := hk .flash (by decide)
  have htakes : u.flashTakes 2 ↔ s.flashTakes 2 := by rw [State.flashTakes, State.flashTakes, hflash]
  have hnext : u.jNext = s.jNext := by rw [State.jNext, State.jNext, hflash]
  have hact : u.jActive = s.jActive := by rw [State.jActive, State.jActive, hflash]
  cases image with
  | none =>
    obtain ⟨hkf, hfail⟩ := u.updFail_result (code := 0x13) (by decide)
    exact ⟨hk.of_mono hkf _ (by decide) (by decide), fun _ => hfail, fun h => absurd h (by decide), fun h => absurd h (by decide)⟩
  | some m =>
    dsimp only
    have hf := u.stageWrites_frame s.jOther x
    by_cases ht : s.flashTakes 2
    · obtain ⟨hok, hslot, hjs⟩ := State.stageWrites_takes (htakes.mpr ht) (by rw [hflash, hlen]; exact hjlt) s.jOther_lt x
      rw [if_pos hok]
      generalize (u.stageWrites s.jOther x).2 = v at hf hslot hjs ⊢
      obtain ⟨hkn, hst, hown, hrec⟩ := v.nowStaged_result s.jOther x.version
      have hnf : (v.nowStaged s.jOther x.version).flash = v.flash := hkn .flash (by decide)
      have htick : v.tick = s.tick := (congrArg (fun y : TimeState => y.frc.toNat) (hf.keeps .time (by decide))).trans
        (congrArg (fun y : TimeState => y.frc.toNat) (hk .time (by decide)))
      refine ⟨(hk.of_mono hf.keeps takeFields (by decide) (by decide)).trans (hkn.mono (by decide)),
        fun h => absurd h (Option.some_ne_none m), fun _ h => absurd ht h,
        fun _ _ => ⟨hst, ?_, ?_, htick ▸ hrec, fun hn => ?_⟩⟩
      · refine hown.trans ((hf.rd.getF F.UPD_SESSION_OWNER (by unfold besideJournal besideMnt; decide)).trans ?_)
        rw [State.getF, State.updOwner, State.getF, hr _ (by decide)]
      · rw [State.slot, hnf]
        exact hslot
      · obtain ⟨h1, h2, h3⟩ := hjs (hnext ▸ hn)
        obtain ⟨e1, e2⟩ := State.jOf_flash (congrArg Flash.journal hnf)
        have e3 : (v.nowStaged s.jOther x.version).jOther = v.jOther := by rw [State.jOther, hnf, State.jOther]
        exact ⟨e1.trans h1, e3.trans h3, (e2.trans h2).trans hact⟩
    · rw [if_neg (by rw [State.stageWrites_fails fun h => ht (htakes.mp h)]; exact Bool.false_ne_true)]
      obtain ⟨hkf, hfail⟩ := (u.stageWrites s.jOther x).2.updFail_result (code := 0x0D) (by decide)
      exact ⟨(hk.of_mono hf.keeps takeFields (by decide) (by decide)).trans (hkf.mono (by decide)),
        fun h => absurd h (Option.some_ne_none m), fun _ _ => hfail,
        fun _ h => absurd h ht⟩

end

end Sys2Proof.Machine
end

section
/-!
SUPPORT. O56: the session's commands on the access path.
-/

namespace Sys2Proof.Machine

section

variable {s : State} {id : Ident}

/-- The session read that completes at once. -/
theorem State.sessionRead_eq (hb : onBus id = true) (hr : s.readsNow id R.UPD_SESSION) (hd : s.domOn (domainOf R.UPD_SESSION) = true) :
    exec (.updSessionOpen id) s =
      .next (((s.updOpen id).2.bpReg id R.UPD_SESSION false).obsv (.read id.num R.UPD_SESSION (s.updOpen id).1)) := by
  obtain ⟨hpor, hwait⟩ := hr
  show execUpdSessionOpen id s = _
  unfold execUpdSessionOpen
  rw [State.reading, hpor, hwait]
  simp only [Bool.false_eq_true, if_false, State.gatedRead_on _ _ _ _ hb hd]

/-- A command of the session by another identity is refused. -/
theorem State.refused_result {l : List Field} (hr : Field.regs ∈ l) (hd : Field.dbg ∈ l) (off : Nat) :
    Keeps l s (s.deny.bpReg id off true) ∧ RegsKept [R.HIF_DENY] s (s.deny.bpReg id off true) ∧ (s.deny.bpReg id off true).upd = s.upd ∧
      (s.deny.bpReg id off true).getF F.HIF_DENY_COUNT = (s.getF F.HIF_DENY_COUNT + 1) % 2 ^ 32 :=
  ⟨((Keeps.refl _ s).deny hr).bpReg _ _ _ hd, ((RegsKept.refl _ s).deny (by decide)).bpReg _ _ _, rfl, getF_bump_same s F.HIF_DENY_COUNT (by decide)⟩

/-- Bytes that leave the header short gather. -/
theorem State.updTake_gathers (hst : s.updSt = 1 ∨ s.updSt = 6) {b : List Byte} (hl : (s.upd.buf ++ b).length < 4096) :
    (s.updTake b).upd = { s.upd with buf := s.upd.buf ++ b, last := s.tick } ∧ (s.updTake b).getF F.UPD_OFFSET_NEXT = (s.upd.buf ++ b).length := by
  rw [State.updTake_short hst hl]
  exact ⟨rfl, (getF_setF_same _ F.UPD_OFFSET_NEXT _ (by decide)).trans (Nat.mod_eq_of_lt (lt_trans hl (by decide)))⟩

/-- Bytes of the section in progress join it. -/
theorem State.updTake_joins (hst : s.updSt = 2 ∨ s.updSt = 3) {e : SecEnt} (he : s.updEnt = some e) (b : List Byte) :
    (s.updTake b).flash = s.flash ∧ (s.updTake b).upd.buf = s.upd.buf ++ b.drop (e.off - s.getF F.UPD_OFFSET_NEXT) ∧
      (s.updTake b).getF F.UPD_OFFSET_NEXT = (s.getF F.UPD_OFFSET_NEXT + b.length) % 2 ^ 32 := by
  obtain ⟨hu, hnext⟩ := State.secTake_entry (s := s.updTouch) he b
  rw [State.updTake_section hst]
  exact ⟨(State.secTake_result _ _).1.keeps .flash (by decide), congrArg UpdState.buf hu, hnext⟩

/-- A push of data comes from the owner alone (R391). -/
theorem State.goes_data (h : s.goes id R.UPD_DATA) : s.updOwner = id.num := by
  obtain ⟨-, hg⟩ := h
  by_contra hne
  have hden : s.wrDenied id R.UPD_DATA = true := by
    unfold State.wrDenied
    split
    · rfl
    · exact bne_iff_ne.mpr hne
  rw [State.gateW, if_pos hden] at hg
  cases hg

/-! ### START, DATA and the end of a section -/

/-- START by its owner, or refused. -/
theorem State.updStart_result {c b : List Byte} (bad : Option Nat) (hb : b = c.take (s.getF F.UPD_SRC_LEN_LEN)) :
    Keeps [.regs, .recq, .pwr, .upd, .mnt, .flash, .host, .obs, .dbg] s ((s.updStart id c bad).bpReg id R.UPD_CTRL true) ∧
      (s.updOwner ≠ id.num → RegsKept [R.HIF_DENY] s ((s.updStart id c bad).bpReg id R.UPD_CTRL true) ∧
        ((s.updStart id c bad).bpReg id R.UPD_CTRL true).upd = s.upd) ∧
      (s.updOwner = id.num → (id = .netm ∨ id = .dbg ∨ (s.updSt ≠ 1 ∧ s.updSt ≠ 6)) →
        ((s.updStart id c bad).bpReg id R.UPD_CTRL true).regs = s.regs ∧ ((s.updStart id c bad).bpReg id R.UPD_CTRL true).flash = s.flash) ∧
      (s.updOwner = id.num → (id = .host0 ∨ id = .host1) → (s.updSt = 1 ∨ s.updSt = 6) →
        (∀ n, bad = some n → (b.take n).length < 4096 → ((s.updStart id c bad).bpReg id R.UPD_CTRL true).updFailedWith 0x11) ∧
        (∀ n, bad = some n → 4096 ≤ (b.take n).length → s.flashTakes 2 → ((s.updStart id c bad).bpReg id R.UPD_CTRL true).updFailedWith
          (if s.packageCode (b.take 4096) = 0 then 0x11 else s.packageCode (b.take 4096))) ∧
        (bad = none → b.length < 4096 →
          ((s.updStart id c bad).bpReg id R.UPD_CTRL true).upd = { s.upd with buf := b, dma := true, last := s.tick } ∧
          ((s.updStart id c bad).bpReg id R.UPD_CTRL true).getF F.UPD_OFFSET_NEXT = b.length) ∧
        (bad = none → 4096 ≤ b.length → ((s.updStart id c bad).bpReg id R.UPD_CTRL true).headerTaken s (b.take 4096))) := by
  by_cases ho : s.updOwner = id.num
  · rw [State.updStart, State.updOwned_owner ho]
    have hb' : b = c.take (s.updTouch.getF F.UPD_SRC_LEN_LEN) := hb
    refine ⟨(s.updTouch_keeps.of_mono (s.updTouch.updDma_keeps id c bad) _ (by decide) (by decide)).bpReg _ _ _ (by decide),
      fun h => absurd ho h, fun _ h => ?_, fun _ hid hst => ⟨fun n hn hl => ?_, fun n hn hl ht => ?_, fun hn hl => ?_, fun hn hl => ?_⟩⟩
    · rw [State.updDma_none (s := s.updTouch) h]
      exact ⟨rfl, rfl⟩
    · rw [hn]
      exact (State.updDma_breaks (s := s.updTouch) hid hst hb' n).1 hl
    · rw [hn]
      exact (State.updDma_breaks (s := s.updTouch) hid hst hb' n).2 hl ht
    · rw [hn]
      exact (State.updDma_takes (s := s.updTouch) hid hst hb').1 hl
    · rw [hn]
      exact State.headerTaken_kept (s := s) (s.updTouch_keeps.mono (by decide)) (RdKept.refl _ _)
        ((State.updDma_takes (s := s.updTouch) hid hst hb').2 hl)
  · rw [State.updStart, State.updOwned_other ho]
    obtain ⟨hk, hr, hu, -⟩ := s.refused_result (id := id) (l := [.regs, .recq, .pwr, .upd, .mnt, .flash, .host, .obs, .dbg]) (by decide)
      (by decide) R.UPD_CTRL
    exact ⟨hk, fun _ => ⟨hr, hu⟩, fun h => absurd h ho, fun h => absurd h ho⟩

/-- A push of four bytes by the owner. -/
theorem State.updPush_result (ho : s.updOwner = id.num) (v : Word) {b : List Byte} (hb : b = s.upd.buf ++ leBytes 4 v.toNat) :
    Keeps [.regs, .recq, .pwr, .upd, .mnt, .flash, .host, .obs, .dbg] s ((s.updPush id v).bpReg id R.UPD_DATA true) ∧
      (id = .netm → ((s.updPush id v).bpReg id R.UPD_DATA true).upd = { s.upd with last := s.tick } ∧
        ((s.updPush id v).bpReg id R.UPD_DATA true).regs = s.regs) ∧
      (id ≠ .netm → (s.updSt = 1 ∨ s.updSt = 6) → b.length < 4096 →
        ((s.updPush id v).bpReg id R.UPD_DATA true).upd = { s.upd with buf := b, last := s.tick } ∧
        ((s.updPush id v).bpReg id R.UPD_DATA true).getF F.UPD_OFFSET_NEXT = b.length) ∧
      (id ≠ .netm → (s.updSt = 1 ∨ s.updSt = 6) → 4096 ≤ b.length →
        ((s.updPush id v).bpReg id R.UPD_DATA true).headerTaken s (b.take 4096)) ∧
      (∀ e, id ≠ .netm → (s.updSt = 2 ∨ s.updSt = 3) → s.updEnt = some e → ((s.updPush id v).bpReg id R.UPD_DATA true).flash = s.flash ∧
        ((s.updPush id v).bpReg id R.UPD_DATA true).upd.buf = s.upd.buf ++ (leBytes 4 v.toNat).drop (e.off - s.getF F.UPD_OFFSET_NEXT) ∧
        ((s.updPush id v).bpReg id R.UPD_DATA true).getF F.UPD_OFFSET_NEXT = (s.getF F.UPD_OFFSET_NEXT + 4) % 2 ^ 32) := by
  rw [State.updPush, State.updOwned_owner ho]
  subst hb
  by_cases hn : id = .netm
  · subst hn
    exact ⟨(s.updTouch_keeps.mono (by decide)).bpReg _ _ _ (by decide), fun _ => ⟨rfl, rfl⟩, fun h => absurd rfl h, fun h => absurd rfl h,
      fun _ h => absurd rfl h⟩
  · rw [if_neg (fun h => hn (eq_of_beq h))]
    refine ⟨(s.updTouch_keeps.of_mono (s.updTouch.updTake_keeps _) _ (by decide) (by decide)).bpReg _ _ _ (by decide), fun h => absurd h hn,
      fun _ hst hl => ?_, fun _ hst hl => ?_, fun e _ hst he => ?_⟩
    · exact State.updTake_gathers (s := s.updTouch) hst hl
    · exact State.headerTaken_kept (s := s) (s.updTouch_keeps.mono (by decide)) (RdKept.refl _ _) (State.updTake_whole (s := s.updTouch) hst hl)
    · have hj := State.updTake_joins (s := s.updTouch) hst he (leBytes 4 v.toNat)
      rw [leBytes_length] at hj
      rw [State.bpReg_getF]
      exact hj

end

end Sys2Proof.Machine

open Sys2Proof.Machine in
/-- Settles O56: each command by the state of the session, the passes of the flash by its plan, and the sections by their hashes. -/
theorem updateDelivery : Obligations.UpdateDelivery := by
  unfold Obligations.UpdateDelivery
  refine ⟨fun id s hb hr hd => ⟨_, State.sessionRead_eq hb hr hd, ?_⟩, fun id v s hg => gated_next _ hg (by decide) ?_,
    fun id s hg => gated_next _ hg (by decide) ?_, fun s h => congrArg Host.Outcome.next (if_neg ?_),
    fun s hl hle => ⟨_, congrArg Host.Outcome.next (if_pos ?_), ?_⟩,
    fun id c b bad s hg hb => gated_next _ hg (by decide) ?_, fun id v b s hg hb => gated_next _ hg (by decide) ?_,
    fun again s h => congrArg Host.Outcome.next (State.sectionDone_idle h again),
    fun again e s he hst hlen hlane => ⟨_, congrArg Host.Outcome.next (State.sectionDone_due he hst hlen hlane again), ?_⟩,
    fun n s h => congrArg Host.Outcome.next (State.sectionWritten_idle h n), fun n x rest s hw hrun => ⟨_, rfl, ?_⟩,
    fun s h => congrArg Host.Outcome.next (State.keptCopied_idle h), fun s n h4 hw hl hn => ⟨_, rfl, ?_⟩,
    fun s h => congrArg Host.Outcome.next (if_neg h), fun x s h5 hx hlen hj => ⟨_, rfl, ?_⟩⟩
  · by_cases ho : s.updOwner = 0
    · rw [State.updOpen_free ho]
      obtain ⟨hk, hown, hst, hnext, hrec⟩ := s.opened_result id
      refine ⟨((hk.mono (by decide)).bpReg _ _ _ (by decide)).obsv _ (by decide), ?_, fun _ => ⟨hown, hst, hnext, hrec⟩, fun h => absurd ho h⟩
      show Obs.read id.num R.UPD_SESSION 0#32 :: (s.opened id).obs = _
      rw [hk .obs (by decide), ho]
      rfl
    · rw [State.updOpen_taken ho]
      exact ⟨((Keeps.refl _ s).bpReg _ _ _ (by decide)).obsv _ (by decide), rfl, fun h => absurd h ho, fun _ => ⟨rfl, rfl, rfl⟩⟩
  · by_cases ho : s.updOwner = id.num
    · by_cases hv : getBits v 0 4 = id.num
      · rw [State.updClose_owner ho hv]
        obtain ⟨hk, hst, hown, hwr, herr, hrec⟩ := s.updEnd_result id.num
        rw [ho] at hrec
        exact ⟨(hk.mono (by decide)).bpReg _ _ _ (by decide), fun h => absurd ho h, fun _ h => absurd hv h, fun _ _ =>
          ⟨hown, hst, hwr, herr, hrec⟩⟩
      · rw [State.updClose_wrong ho hv]
        exact ⟨((Keeps.refl _ s).bump _ (by decide)).bpReg _ _ _ (by decide), fun h => absurd ho h, fun _ _ =>
          ⟨((RegsKept.refl _ s).bump _ (by decide)).bpReg _ _ _, rfl, getF_bump_same s F.MBX_LOCK_ERR_COUNT (by decide)⟩, fun _ h => absurd h hv⟩
    · rw [State.updClose_other ho]
      obtain ⟨hk, hr⟩ := s.refused_result (id := id) (l := [.regs, .recq, .pwr, .upd, .mnt, .dbg]) (by decide) (by decide) R.UPD_SESSION
      exact ⟨hk, fun _ => hr, fun h => absurd h ho, fun h => absurd h ho⟩
  · by_cases ho : s.updOwner = id.num
    · rw [State.updAbort, State.updOwned_owner ho]
      by_cases hl : s.updLive = true
      · obtain ⟨hk, hst, hown, hwr, -, -⟩ := s.updTouch.updEnd_result id.num
        rw [if_pos (show s.updTouch.updLive = true from hl)]
        exact ⟨(s.updTouch_keeps.of_mono hk _ (by decide) (by decide)).bpReg _ _ _ (by decide), fun h => absurd ho h,
          fun _ _ => ⟨hown, hst, hwr⟩, fun _ h => absurd (hl.symm.trans h) (by decide)⟩
      · rw [if_neg (show ¬ s.updTouch.updLive = true from hl)]
        exact ⟨(s.updTouch_keeps.mono (by decide)).bpReg _ _ _ (by decide), fun h => absurd ho h, fun _ h => absurd h hl, fun _ _ => ⟨rfl, rfl⟩⟩
    · rw [State.updAbort, State.updOwned_other ho]
      obtain ⟨hk, hr⟩ := s.refused_result (id := id) (l := [.regs, .recq, .pwr, .upd, .mnt, .dbg]) (by decide) (by decide) R.UPD_CTRL
      exact ⟨hk, fun _ => hr, fun h => absurd h ho, fun h => absurd h ho⟩
  · intro hc
    obtain ⟨hl, hle⟩ := Bool.and_eq_true_iff.mp hc
    rcases h with h | h
    · exact Bool.false_ne_true (h.symm.trans hl)
    · rw [Nat.mul_comm] at h
      exact absurd (of_decide_eq_true hle) (not_le_of_gt h)
  · rw [Nat.mul_comm] at hle
    exact Bool.and_eq_true_iff.mpr ⟨hl, decide_eq_true hle⟩
  · obtain ⟨hk, hst, hown, -, herr, -⟩ := s.updEnd_result 0
    exact ⟨hk.mono (by decide), hown, hst, herr⟩
  · exact State.updStart_result bad hb
  · exact State.updPush_result (State.goes_data hg) v hb
  · have hwide {u : State} (h : Keeps sectionFields s u) :
        Keeps [.regs, .recq, .pwr, .upd, .mnt, .flash, .cal, .dbg, .host, .obs, .reform] s u := h.mono (by decide)
    by_cases hsha : sha384 (s.upd.buf.take e.len) = e.hash
    · rw [if_pos hsha]
      cases hinf : secInflate (secOf e (s.upd.buf.take e.len)) with
      | none =>
        obtain ⟨hk, hfail⟩ := State.secGood_bad e hinf
        exact ⟨hwide hk, fun h => absurd hsha h, fun h => absurd hsha h, fun h => absurd hsha h, fun _ _ => hfail, fun _ h => absurd h (by decide)⟩
      | some y =>
        obtain ⟨hk, hrest⟩ := State.secGood_good e (by rw [hinf]; rfl)
        exact ⟨hwide hk, fun h => absurd hsha h, fun h => absurd hsha h, fun h => absurd hsha h, fun _ h => absurd h (Option.some_ne_none y),
          fun _ _ => hrest⟩
    · rw [if_neg hsha]
      cases hres : s.upd.resent with
      | true =>
        obtain ⟨hk, hfail⟩ := State.secMismatch_lasting e again hres
        exact ⟨hwide hk, fun _ _ => hfail, fun _ h => absurd h (by decide), fun _ h => absurd h (by decide), fun h => absurd h hsha, fun h => absurd h hsha⟩
      | false =>
        by_cases hag : s.upd.dma = true → again ≠ none
        · obtain ⟨hk, hst3, hre, hidx, hnodma⟩ := State.secMismatch_again e again hres hag
          exact ⟨hwide hk, fun _ h => absurd h (by decide), fun _ _ hdma hnone => absurd hnone (hag hdma), fun _ _ _ => ⟨hst3, hre, hidx, hnodma⟩,
            fun h => absurd h hsha, fun h => absurd h hsha⟩
        · obtain ⟨hdma, hnone⟩ := Classical.not_imp.mp hag
          have hnone := not_not.mp hnone
          subst hnone
          obtain ⟨hk, hfail⟩ := State.secMismatch_source e hres hdma
          exact ⟨hwide hk, fun _ h => absurd h (by decide), fun _ _ _ _ => hfail, fun _ _ h => absurd rfl (h hdma), fun h => absurd h hsha,
            fun h => absurd h hsha⟩
  · obtain ⟨hk, hrest⟩ := State.sectionWritten_result hw hrun n
    exact ⟨hk.mono (by decide), hrest⟩
  · by_cases ht : s.flashTakes n
    · obtain ⟨hk, hst, hplan, hu, hquiet⟩ := State.keptCopied_takes h4 hw hl hn ht
      exact ⟨hk.mono (by decide), fun h => absurd ht h, fun _ => ⟨hst, hplan, hu⟩, fun _ => hquiet⟩
    · obtain ⟨hk, hfail⟩ := State.keptCopied_fails h4 hw hl hn ht
      exact ⟨hk.mono (by decide), fun _ => hfail, fun h => absurd h ht, fun h => absurd h ht⟩
  · obtain ⟨hk, hrest⟩ := State.updChecked_result h5 hx hlen hj
    exact ⟨hk.mono (by decide), hrest⟩

end

section
/-!
SUPPORT. O55: how the head of the agent's queue is served.
-/

namespace Sys2Proof.Machine

section

variable {s : State} {p : Nat} {b : List Byte} {rest : List (Nat × List Byte)}

/-! ### The agent's queue -/

/-- Registers beside the request count and the last accepted SEQ of the keys. -/
def besideDmf (o : Nat) : Prop := ¬ (0xD3010 ≤ o ∧ o < 0xD3024)

/-- The head is accepted: it leaves the queue, is counted, and its SEQ is the last of its key. -/
def State.dmfAccept (s : State) (b : List Byte) (rest : List (Nat × List Byte)) : State :=
  (({ s with dmfQ := rest } : State).wr64 (R.NET_DMF_SEQ_LO (dmfKey (udpPayload b))) (R.NET_DMF_SEQ_HI (dmfKey (udpPayload b)))
    (dmfSeq (udpPayload b))).bump F.NET_DMF_REQ_COUNT

theorem dmfKey_lt {u : List Byte} (h : s.dmfTest u = none) : dmfKey u < 2 := by
  unfold State.dmfTest at h
  dsimp only at h
  split at h
  · cases h
  split at h
  · cases h
  split at h
  · cases h
  · rename_i hauth
    rw [Bool.not_eq_true, Bool.not_eq_false', Bool.and_eq_true, Bool.and_eq_true] at hauth
    exact of_decide_eq_true hauth.1.1

theorem State.damuf_idle (h : s.dmfQ = [] ∨ s.dmfUp = false) (mine : Nat → Nat → Bool) (run : DmfRun) : s.damuf mine run = s := by
  unfold State.damuf
  split
  · rfl
  · rename_i q hq
    rcases h with h | h
    · rw [h] at hq; cases hq
    · exact if_pos (by rw [h]; rfl)

theorem State.damuf_fails (hq : s.dmfQ = (p, b) :: rest) (hup : s.dmfUp = true) {w : DmfFail} (ht : s.dmfTest (udpPayload b) = some w)
    (mine : Nat → Nat → Bool) (run : DmfRun) : s.damuf mine run = ({ s with dmfQ := rest } : State).dmfFailed p b w := by
  unfold State.damuf
  rw [hq]
  dsimp only
  rw [if_neg (by rw [hup]; exact Bool.false_ne_true), ht]

theorem State.damuf_other (hq : s.dmfQ = (p, b) :: rest) (ht : s.dmfTest (udpPayload b) = none) {mine : Nat → Nat → Bool}
    (h : mine (dmfOp (udpPayload b)) (leAt (udpPayload b) 32 1) = false ∨ s.dmfWaits (udpPayload b) = true) (run : DmfRun) : s.damuf mine run = s := by
  have hc : (mine (dmfOp (udpPayload b)) (leAt (udpPayload b) 32 1) && !s.dmfWaits (udpPayload b)) = false := by
    rcases h with h | h <;> rw [h]
    · exact Bool.false_and _
    · exact Bool.and_false _
  unfold State.damuf
  rw [hq]
  dsimp only
  split
  · rfl
  · rw [ht]
    exact if_neg (by rw [hc]; exact Bool.false_ne_true)

theorem State.damuf_serves (h : s.dmfHead p b rest) {mine : Nat → Nat → Bool}
    (hm : mine (dmfOp (udpPayload b)) (leAt (udpPayload b) 32 1) = true) {run : DmfRun} {a : DmfAns} {u : State}
    (hrun : run (s.dmfAccept b rest) (dmfKey (udpPayload b)) (dmfBody (udpPayload b)) = (a, u)) :
    s.damuf mine run = u.dmfSend p b (udpPayload b) a := by
  obtain ⟨hq, hup, ht, hw, -, -⟩ := h
  unfold State.damuf
  rw [hq]
  dsimp only
  rw [if_neg (by rw [hup]; exact Bool.false_ne_true), ht]
  dsimp only
  rw [if_pos (by rw [hm, hw]; rfl)]
  unfold State.dmfAccept at hrun
  rw [hrun]

theorem State.dmfAccept_frame (h : s.dmfTest (udpPayload b) = none) (rest : List (Nat × List Byte)) :
    Frame [.regs, .dmfQ] besideDmf s (s.dmfAccept b rest) := by
  have hk := dmfKey_lt h
  have hpop : Frame [.regs, .dmfQ] besideDmf s { s with dmfQ := rest } := ⟨(Keeps.refl _ s).dmfQ _ (by decide), RdKept.refl _ s⟩
  refine (hpop.wr64 _ _ _ (by decide) ?_ ?_).bump _ (by decide) ?_ <;> unfold besideDmf
  · unfold R.NET_DMF_SEQ_LO; omega
  · unfold R.NET_DMF_SEQ_HI; omega
  · decide

theorem State.dmfAccept_regs (s : State) (b : List Byte) (rest : List (Nat × List Byte)) : RegsKept (dmfRegs b) s (s.dmfAccept b rest) := by
  have hpop : RegsKept (dmfRegs b) s { s with dmfQ := rest } := RegsKept.refl _ s
  exact (hpop.wr64 _ _ _ (by unfold dmfRegs; simp) (by unfold dmfRegs; simp)).bump _ (by unfold dmfRegs; exact List.mem_cons_self)

theorem State.dmfAccept_counts (h : s.dmfTest (udpPayload b) = none) (rest : List (Nat × List Byte)) :
    (s.dmfAccept b rest).getF F.NET_DMF_REQ_COUNT = (s.getF F.NET_DMF_REQ_COUNT + 1) % 2 ^ 32 ∧
      (s.dmfAccept b rest).dmfLast (dmfKey (udpPayload b)) = dmfSeq (udpPayload b) ∧ (s.dmfAccept b rest).dmfQ = rest := by
  have hk := dmfKey_lt h
  have hlt : dmfSeq (udpPayload b) < 2 ^ 64 := leAt_lt _ _ _
  have hlo : R.NET_DMF_SEQ_LO (dmfKey (udpPayload b)) ≠ R.NET_DMF_REQ := by unfold R.NET_DMF_SEQ_LO R.NET_DMF_REQ; omega
  have hhi : R.NET_DMF_SEQ_HI (dmfKey (udpPayload b)) ≠ R.NET_DMF_REQ := by unfold R.NET_DMF_SEQ_HI R.NET_DMF_REQ; omega
  have hne : R.NET_DMF_SEQ_LO (dmfKey (udpPayload b)) ≠ R.NET_DMF_SEQ_HI (dmfKey (udpPayload b)) := by
    unfold R.NET_DMF_SEQ_LO R.NET_DMF_SEQ_HI; omega
  unfold State.dmfAccept
  refine ⟨?_, ?_, rfl⟩
  · rw [getF_bump_same _ _ (by decide), getF_wr64_other _ _ _ _ _ hlo.symm hhi.symm]
    rfl
  · rw [State.dmfLast, State.rd64, rd_bump_other _ _ _ hlo, rd_bump_other _ _ _ hhi]
    exact rd64_wr64_same _ _ _ _ hlt hne

/-! ### The reply (R325, R327) -/

/-- Registers that a reply shows. -/
def replyReg (o : Nat) : Prop := o = R.STR_HUB_ID ∨ (0xD0000 ≤ o ∧ o < 0xE0000 ∧ ¬ (0xD3000 ≤ o ∧ o < 0xD3100))

section

variable {u : State} (hr : RdKept replyReg s u)
include hr

theorem State.dmfSecret_kept {k : Nat} (hk : k < 2) : u.dmfSecret k = s.dmfSecret k := by
  refine congrArg wordsBe (List.map_congr_left fun i hi => hr _ (.inr ?_))
  have := List.mem_range.mp hi
  unfold R.NET_DMF_KEY
  omega

theorem State.macBytes_kept {p : Nat} (hp : p < 4) :
    u.macBytes (R.NET_MAC_HI p) (R.NET_MAC_LO p) = s.macBytes (R.NET_MAC_HI p) (R.NET_MAC_LO p) := by
  unfold State.macBytes
  rw [hr (R.NET_MAC_HI p) (.inr (by unfold R.NET_MAC_HI; omega)), hr (R.NET_MAC_LO p) (.inr (by unfold R.NET_MAC_LO; omega))]

theorem State.vlanTag_kept {p : Nat} (hp : p < 4) : u.vlanTag p = s.vlanTag p := by
  have h : replyReg (R.NET_VLAN p) := .inr (by unfold R.NET_VLAN; omega)
  unfold State.vlanTag
  rw [hr.bit (F.NET_VLAN_EN p) h, hr.getF (F.NET_VLAN_PCP p) h, hr.getF (F.NET_VLAN_VID p) h]

theorem State.ip6Bytes_kept {p : Nat} (hp : p < 4) : u.ip6Bytes p = s.ip6Bytes p := by
  refine congrArg wordsBe (List.map_congr_left fun i hi => hr _ (.inr ?_))
  have := List.mem_range.mp hi
  unfold R.NET_IP6
  omega

end

/-- The frame of a reply with the open value `v`. -/
def State.dmfBare (s : State) (p : Nat) (b pay : List Byte) (v : Nat) : List Byte :=
  let dst := sub b 6 6
  let src := s.macBytes (R.NET_MAC_HI p) (R.NET_MAC_LO p)
  let ttl := s.getF (F.NET_IPHDR_TTL p)
  if isIp6 b then etherFrame dst src (s.vlanTag p) 0x86DD (ip6Pkt (v % 64) ttl (s.ip6Bytes p) (ipSrc b) (udpDst b) (udpSrc b) pay (sum16 pay))
  else etherFrame dst src (s.vlanTag p) 0x0800 (ip4Bytes (v % 64) ttl (beBytes 4 (s.rd (R.NET_IP4 p)).toNat) (ipSrc b) (udpDst b) (udpSrc b) pay
    (sum16 pay) (s.bit (F.NET_IPHDR_CSUM4 p)))

theorem State.dmfBare_kept {u : State} (hr : RdKept replyReg s u) (hp : p < 4) (b pay : List Byte) (v : Nat) :
    u.dmfBare p b pay v = s.dmfBare p b pay v := by
  have hhdr : replyReg (R.NET_IPHDR p) := .inr (by unfold R.NET_IPHDR; omega)
  unfold State.dmfBare
  rw [State.macBytes_kept hr hp, State.vlanTag_kept hr hp, State.ip6Bytes_kept hr hp, hr.getF (F.NET_IPHDR_TTL p) hhdr,
    hr.bit (F.NET_IPHDR_CSUM4 p) hhdr, hr (R.NET_IP4 p) (.inr (by unfold R.NET_IP4; omega))]

theorem State.dmfFrame_bare (s : State) (p : Nat) (b pay : List Byte) : (s.dmfFrame p b pay).1 = s.dmfBare p b pay (Config.freeValue s.freeCtr) := by
  unfold State.dmfFrame State.dmfBare
  cases isIp6 b <;> rfl

/-- A reply follows the port's addresses, the key, the hub's id and the open value of its DSCP. -/
theorem State.dmfFrame_kept {s u : State} (hr : RdKept replyReg s u) (hc : u.freeCtr = s.freeCtr) (hp : p < 4) {w : List Byte} (hk : dmfKey w < 2)
    (a : DmfAns) : (u.dmfFrame p b (u.dmfReply w a)).1 = (s.dmfFrame p b (s.dmfReply w a)).1 := by
  have hpay : u.dmfReply w a = s.dmfReply w a := by
    unfold State.dmfReply
    rw [State.dmfSecret_kept hr hk, hr.getF F.STR_HUB_ID_HUB_ID (.inl rfl)]
  rw [hpay, State.dmfFrame_bare, State.dmfFrame_bare, hc]
  exact State.dmfBare_kept hr hp _ _ _

theorem State.dmfSend_eq (s : State) (p : Nat) (b w : List Byte) (a : DmfAns) : s.dmfSend p b w a =
    ({ s with freeCtr := s.freeCtr + 1 } : State).updPort p
      (fun x => { x with replies := x.replies ++ [(s.dmfFrame p b (s.dmfReply w a)).1] }) := by
  unfold State.dmfSend State.dmfFrame
  cases isIp6 b <;> rfl

theorem State.dmfSend_keeps (s : State) (p : Nat) (b w : List Byte) (a : DmfAns) : Keeps [.ports, .freeCtr] s (s.dmfSend p b w a) := by
  rw [State.dmfSend_eq]
  exact ((Keeps.refl _ s).freeCtr _ (by decide)).ports _ (by decide)

theorem State.dmfSend_replies (hp : p < s.ports.length) (b w : List Byte) (a : DmfAns) :
    ((s.dmfSend p b w a).port p).replies = (s.port p).replies ++ [(s.dmfFrame p b (s.dmfReply w a)).1] := by
  rw [State.dmfSend_eq]
  exact congrArg NetPort.replies (State.port_updPort (s := { s with freeCtr := s.freeCtr + 1 }) p hp _)

/-- Registers that an answered request shows in. -/
def servedReg (o : Nat) : Prop := o = R.STR_HUB_ID ∨ (0xD0000 ≤ o ∧ o < 0xE0000)

/-- The head is served and answered. -/
theorem State.dmf_served (h : s.dmfHead p b rest) {a : DmfAns} {u : State} {l : List Field} (hk : Keeps l (s.dmfAccept b rest) u)
    (hl : Field.ports ∉ l ∧ Field.freeCtr ∉ l ∧ Field.dmfQ ∉ l) (hr : RdKept servedReg (s.dmfAccept b rest) u) :
    dmfServed s (u.dmfSend p b (udpPayload b) a) p b rest a := by
  obtain ⟨-, -, ht, -, hp, hports⟩ := h
  have hkey := dmfKey_lt ht
  have hacc := s.dmfAccept_frame ht rest
  obtain ⟨hreq, hlast, hq⟩ := s.dmfAccept_counts ht rest
  have hreply : RdKept replyReg s u :=
    (hacc.rd.mono fun o ho => by unfold replyReg R.STR_HUB_ID at ho; unfold besideDmf; omega).trans
      (hr.mono fun o ho => by unfold replyReg at ho; unfold servedReg; omega)
  have hfree : u.freeCtr = s.freeCtr := (hk .freeCtr hl.2.1).trans (hacc.keeps .freeCtr (by decide))
  have hup : u.ports = s.ports := (hk .ports hl.1).trans (hacc.keeps .ports (by decide))
  have hs := u.dmfSend_keeps p b (udpPayload b) a
  have hsr : (u.dmfSend p b (udpPayload b) a).regs = u.regs := hs .regs (by decide)
  refine ⟨(hs .dmfQ (by decide)).trans ((hk .dmfQ hl.2.2).trans hq), ?_, ?_, ?_⟩
  · rw [State.getF_of_regs hsr, hr.getF F.NET_DMF_REQ_COUNT (.inr (by decide)), hreq]
  · rw [State.dmfLast, State.rd64, State.rd, hsr, State.rd, hsr]
    show u.rd64 _ _ = _
    rw [State.rd64, hr _ (.inr (by unfold R.NET_DMF_SEQ_LO; omega)), hr _ (.inr (by unfold R.NET_DMF_SEQ_HI; omega))]
    exact hlast
  · rw [State.dmfSend_replies (hup.symm ▸ hports.symm ▸ hp), State.dmfFrame_kept hreply hfree hp hkey a, State.port, State.port, hup]

end

end Sys2Proof.Machine
end

section
/-!
SUPPORT. O55: READ, WRITE, CAPS and the commands of a session.
-/

namespace Sys2Proof.Machine

section

variable {s : State} {p : Nat} {b : List Byte} {rest : List (Nat × List Byte)}

/-! ### What an answered request leaves -/

theorem dmfRegs_ne {o : Nat} (h : o < 0xD3000) (b : List Byte) : o ∉ dmfRegs b := by
  unfold dmfRegs R.NET_DMF_REQ R.NET_DMF_SEQ_LO R.NET_DMF_SEQ_HI
  simp only [List.mem_cons, List.not_mem_nil, or_false, not_or]
  omega

/-- The fields that serving a request changes, beside those of its operation. -/
theorem State.dmf_keeps (ht : s.dmfTest (udpPayload b) = none) {u : State} {l : List Field} (hk : Keeps l (s.dmfAccept b rest) u) (a : DmfAns)
    (m : List Field) (hm : Field.regs ∈ m ∧ Field.dmfQ ∈ m ∧ Field.ports ∈ m ∧ Field.freeCtr ∈ m) (hl : ∀ f ∈ l, f ∈ m) :
    Keeps m s (u.dmfSend p b (udpPayload b) a) := by
  obtain ⟨h1, h2, h3, h4⟩ := hm
  have hacc := (s.dmfAccept_frame ht rest).keeps
  have hs := u.dmfSend_keeps p b (udpPayload b) a
  refine ((hacc.mono fun f hf => ?_).trans (hk.mono hl)).trans (hs.mono fun f hf => ?_)
  all_goals
    simp only [List.mem_cons, List.not_mem_nil, or_false] at hf
    rcases hf with rfl | rfl <;> assumption

theorem State.dmf_regs (s : State) {u : State} {x : List Nat} (hr : RegsKept x (s.dmfAccept b rest) u) (a : DmfAns) :
    RegsKept (x ++ dmfRegs b) s (u.dmfSend p b (udpPayload b) a) := by
  intro o ho
  rw [List.mem_append, not_or] at ho
  have hs : (u.dmfSend p b (udpPayload b) a).regs = u.regs := u.dmfSend_keeps p b (udpPayload b) a .regs (by decide)
  rw [State.rd, hs]
  exact (hr o ho.1).trans (s.dmfAccept_regs b rest o ho.2)

/-- A request whose operation changes no register. -/
theorem State.dmf_quiet (h : s.dmfHead p b rest) {u : State} {l : List Field} (hk : Keeps l (s.dmfAccept b rest) u) (a : DmfAns)
    (hl : Field.regs ∉ l ∧ Field.ports ∉ l ∧ Field.freeCtr ∉ l ∧ Field.dmfQ ∉ l) :
    RegsKept (dmfRegs b) s (u.dmfSend p b (udpPayload b) a) ∧ dmfServed s (u.dmfSend p b (udpPayload b) a) p b rest a :=
  ⟨s.dmf_regs (x := []) (hk.regsKept hl.1 _) a, State.dmf_served h hk hl.2 (RdKept.of_keeps (RdKept.refl _ _) hk hl.1)⟩

/-- Accepting leaves every register below those of the agent. -/
theorem State.dmfAccept_low (ht : s.dmfTest (udpPayload b) = none) (rest : List (Nat × List Byte)) :
    RdKept (fun o => o < 0xD3000) s (s.dmfAccept b rest) :=
  (s.dmfAccept_frame ht rest).rd.mono fun o ho => by unfold besideDmf; omega

/-! ### READ -/

def dmfReadRegs : List Nat := [R.PWR_SAVE_GEN, R.PWR_MON_LIMIT, R.CAL_BG_CTRL, R.SNT_CTRL]

theorem dmfReadRegs_codes : ∀ off ∈ dmfReadRegs, ordinaryReg off = true ∧ off % 4 = 0 ∧ off < 0xD3000 ∧ snapRole off = .plain ∧
    accMask .wo off = 0#32 ∧ accMask .rc off = 0#32 ∧ off ≠ R.UPD_SESSION ∧ off / 0x10000 ≠ 4 := by decide +kernel

theorem dmfReadRegs_show (i : Nat) : ∀ off ∈ dmfReadRegs, s.show i off = (s.after off, s) := by
  have hcal : s.calReg R.CAL_BG_CTRL = s.after R.CAL_BG_CTRL := if_neg fun h => absurd h.2 (by decide)
  have hsnt : s.sntReg R.SNT_CTRL = s.after R.SNT_CTRL :=
    (if_neg fun h => absurd h.2 (by decide)).trans (if_neg fun h => absurd h.2 (by decide))
  simp only [dmfReadRegs, List.forall_mem_cons]
  exact ⟨rfl, rfl, congrArg (·, s) hcal, congrArg (·, s) hsnt, nofun⟩

/-- A read of such a register returns it and moves nothing. -/
theorem State.readEff_plain {off : Nat} (h : off ∈ dmfReadRegs) (hf : s.flagged off = false) (id : Ident) : s.readEff id off = (s.rd off, s) := by
  obtain ⟨-, -, -, hrole, hwo, hrc, hsess, hblk⟩ := dmfReadRegs_codes off h
  have hafter : s.after off = s.rd off := by
    have hnone : s.shadows.find? (fun e => e.1 == off) = none :=
      Option.isNone_iff_eq_none.mp (Option.isSome_eq_false_iff.mp ((s.flagged_eq_find off).symm.trans hf))
    rw [State.after, hnone]
  have heq : ¬ (past 0x40100 off / 0x40 < 3 ∧ off = R.FLW_EQ_READ_LO (past 0x40100 off / 0x40)) := fun ⟨hlt, he⟩ => hblk (by
    rw [he]; unfold R.FLW_EQ_READ_LO; omega)
  have hclear : s.clearRc off = s := if_pos hrc
  have hand : s.rd off &&& ~~~0#32 = s.rd off := by rw [BitVec.not_zero, BitVec.and_allOnes]
  unfold State.readEff
  dsimp only
  rw [if_neg heq, if_neg hsess, State.readPlain, hrole, dmfReadRegs_show id.num off h]
  dsimp only
  rw [hwo, hclear, hafter, hand]

theorem State.dmfRd_plain {off : Nat} (h : off ∈ dmfReadRegs) (hf : s.flagged off = false) (hd : s.domOn (domainOf off) = true) :
    s.dmfRd off = (s.rd off, false, s.bpReg .netm off false) := by
  have hreg := (dmfReadRegs_codes off h).1
  simp only [ordinaryReg, Bool.and_eq_true, beq_iff_eq, decide_eq_true_eq, bne_iff_ne] at hreg
  obtain ⟨⟨⟨⟨hsp, hrow⟩, hlt⟩, -⟩, -⟩ := hreg
  have hbar : inBar0 off = true := decide_eq_true hlt
  have hno : s.rdRefused .netm off = false := by
    rw [State.rdRefused, hbar, hsp]
    rfl
  have hbus : s.busRead .netm off = (s.rd off, s.bpReg .netm off false) := by
    rw [State.busRead, hsp]
    simp only [show onBus .netm = true from rfl, Bool.not_true, Bool.false_and, Bool.false_eq_true, if_false, if_true, Option.isNone_iff_eq_none,
      Option.isSome_iff_ne_none.mp hrow]
    rw [s.gatedRead_on .netm off _ rfl hd, State.readEff_plain h hf]
  rw [State.dmfRd, hno, hbar, hbus]
  rfl

theorem State.dmfRead_plain {off : Nat} (h : off ∈ dmfReadRegs) (hf : s.flagged off = false) (hd : s.domOn (domainOf off) = true) (k : Nat)
    {body : List Byte} (hlen : body.length = 8) (hoff : leAt body 0 4 = off) (hn : leAt body 4 2 = 1) :
    s.dmfRead k body = (⟨0, 0, wordsLe [s.rd off]⟩, s.bpReg .netm off false) := by
  have h4 := (dmfReadRegs_codes off h).2.1
  unfold State.dmfRead
  dsimp only
  rw [hoff, hn, if_neg (by rw [hlen, h4]; decide), State.dmfRds, State.dmfRd_plain h hf hd]
  rfl

/-! ### WRITE -/

def dmfWriteRegs : List Nat := [R.TIME_QUALITY, R.AFE_RUN_CFG, R.CAL_BG_CTRL, R.STR_DRAIN, R.PWR_MON_LIMIT, R.SNT_CTRL]

theorem dmfWriteRegs_codes : ∀ off ∈ dmfWriteRegs, off ∈ rwRegs ∧ off ≠ R.NET_SYNCE_CTRL ∧ off % 4 = 0 ∧ off < 0xD3000 ∧ off / 0x10000 ≠ 4 ∧
    isKey off = false ∧ off ≠ R.UPD_DATA ∧ off ≠ R.HIF_DENY ∧ off ≠ R.MBX_ERR_COUNT := by decide +kernel

/-- No flush is asked for outside the block of the queues. -/
theorem State.flushNo_other {off : Nat} (h : off / 0x10000 ≠ 4) (id : Ident) (v : Word) : s.flushNo id off v = false := by
  have hw (n : Nat) (hn : n < 512) : off ≠ R.FLW_WQ_CTRL n := fun he => h (by rw [he]; unfold R.FLW_WQ_CTRL; omega)
  have hq (n : Nat) (hn : n < 16) : off ≠ R.FLW_FQ_CTRL n := fun he => h (by rw [he]; unfold R.FLW_FQ_CTRL; omega)
  have he (n : Nat) (hn : n < 3) : off ≠ R.FLW_EQ_CTRL n := fun he => h (by rw [he]; unfold R.FLW_EQ_CTRL; omega)
  have hand (n m : Nat) (r : Nat) (hne : n < m → off ≠ r) : (decide (n < m) && off == r) = false := by
    by_cases hlt : n < m
    · rw [beq_false_of_ne (hne hlt), Bool.and_false]
    · rw [decide_eq_false hlt, Bool.false_and]
  unfold State.flushNo
  dsimp only
  rw [hand _ _ _ (he _), hand _ _ _ (hq _), hand _ _ _ (hw _)]
  simp only [Bool.false_and, Bool.or_self, Bool.and_false]

/-- A write of a plain register by NETM is done and not refused. -/
theorem State.dmfWr_plain {off : Nat} (h : off ∈ dmfWriteRegs) (hg : s.goes .netm off) (k : Nat) (v : Word) :
    s.dmfWr k off v = (false, (s.writeEff .netm off v).bpReg .netm off true) := by
  obtain ⟨hrw, hsy, -, hlow, hblk, hkey, -, hdeny, hmbx⟩ := dmfWriteRegs_codes off h
  have hreg := (rwRegs_codes off hrw).1
  simp only [ordinaryReg, Bool.and_eq_true, beq_iff_eq, decide_eq_true_eq, bne_iff_ne] at hreg
  obtain ⟨⟨⟨⟨hsp, hrow⟩, hlt⟩, -⟩, happly⟩ := hreg
  have hbus : s.busWriteAs .write .netm off v = (s.writeEff .netm off v).bpReg .netm off true := by
    rw [State.busWriteAs, hsp]
    simp only [show onBus .netm = true from rfl, Bool.not_true, Bool.false_and, Bool.false_eq_true, if_false, Option.isNone_iff_eq_none,
      Option.isSome_iff_ne_none.mp hrow]
    exact s.gated_goes_other .netm off v _ hg happly
  obtain ⟨-, hkept, -⟩ := rwRegs_result .netm v hrw (s := s) rfl
  have hbp : RegsKept [off] s ((s.writeEff .netm off v).bpReg .netm off true) := hkept.bpReg _ _ _
  have hne (f : Fld) (hf : off ≠ f.off) : ((s.writeEff .netm off v).bpReg .netm off true).getF f = s.getF f := by
    rw [State.getF, State.getF, hbp _ (by simpa using hf.symm)]
  have hrefuse : s.refusedTo ((s.writeEff .netm off v).bpReg .netm off true) .netm off v = false := by
    rw [State.refusedTo, State.flushNo_other hblk, Bool.and_false, Bool.or_false, State.refusals, State.refusals,
      hne F.HIF_DENY_COUNT hdeny, hne F.MBX_ERR_COUNT_COUNT hmbx, hne F.NET_DMF_DENIED_COUNT (show off ≠ R.NET_DMF_DENIED by unfold R.NET_DMF_DENIED; omega)]
    exact bne_self_eq_false _
  have hbar : inBar0 off = true := decide_eq_true hlt
  rw [State.dmfWr, hbar, hkey]
  simp only [Bool.not_true, Bool.false_and, Bool.false_eq_true, if_false]
  rw [hbus, hrefuse]

theorem leAt_drop (l : List Byte) (n i k : Nat) : leAt (l.drop n) i k = leAt l (n + i) k := by
  rw [leAt, leAt, sub, sub, List.drop_drop]

theorem State.dmfWrite_plain {off : Nat} (h : off ∈ dmfWriteRegs) (hg : s.goes .netm off) (k : Nat) {body : List Byte} (hlen : body.length = 12)
    (hoff : leAt body 0 4 = off) (hn : leAt body 4 2 = 1) :
    s.dmfWrite k body = (⟨0, 0, leBytes 4 1⟩, (s.writeEff .netm off (lo32 (leAt body 8 4))).bpReg .netm off true) := by
  have h4 := (dmfWriteRegs_codes off h).2.2.1
  have hwords : leWords (body.drop 8) = [lo32 (leAt body 8 4)] := by
    rw [leWords, List.length_drop, hlen]
    show [lo32 (leAt (body.drop 8) 0 4)] = _
    rw [leAt_drop]
  unfold State.dmfWrite
  dsimp only
  rw [hoff, hn, if_neg (by rw [hlen, h4]; decide), hwords, State.dmfWrs, State.dmfWr_plain h hg]
  rfl

theorem State.dmfAccept_domOn (ht : s.dmfTest (udpPayload b) = none) (d : Nat) : (s.dmfAccept b rest).domOn d = s.domOn d := by
  rw [State.domOn, State.domOn, State.domState, State.domState, (s.dmfAccept_frame ht rest).rd _ (by unfold besideDmf; decide)]

/-- The access path of a register outside the agent's is the same for the accepted request. -/
theorem State.goes_accept (ht : s.dmfTest (udpPayload b) = none) {id : Ident} {off : Nat} (hg : s.goes id off) : (s.dmfAccept b rest).goes id off := by
  have hf := s.dmfAccept_frame ht rest
  have hpwr : (s.dmfAccept b rest).pwr = s.pwr := hf.keeps .pwr (by decide)
  have hhost : (s.dmfAccept b rest).host = s.host := hf.keeps .host (by decide)
  have hden : (s.dmfAccept b rest).wrDenied id off = s.wrDenied id off := by
    unfold State.wrDenied State.halted
    rw [hf.rd.getF F.DBG_STATUS_STATE (by unfold besideDmf; decide), hf.rd.getF F.UPD_SESSION_OWNER (by unfold besideDmf; decide)]
  have hwaits : (s.dmfAccept b rest).waits id off = s.waits id off := by
    unfold State.waits State.fenced State.inOrder State.fencing State.early
    rw [hpwr, hhost]
  obtain ⟨hpor, hgate⟩ := hg
  refine ⟨by rw [hpwr]; exact hpor, ?_⟩
  unfold State.gateW at hgate ⊢
  dsimp only at hgate ⊢
  rw [hden, hwaits, State.dmfAccept_domOn ht]
  exact hgate

end

end Sys2Proof.Machine
end

section
/-!
SUPPORT. O55: CAPS and the commands of a session by the agent.
-/

namespace Sys2Proof.Machine

section

variable {s : State}

/-! ### CAPS (R301) -/

theorem State.dmfChoose_lt (s : State) (i acc : Nat) : s.dmfChoose i acc < 4 := by
  unfold State.dmfChoose
  cases h : [3, 2, 1].find? (fun v => s.verAllowed i v && acc.testBit (v - 1)) with
  | none => decide
  | some v =>
    have hv := List.mem_of_find?_eq_some h
    simp only [List.mem_cons, List.not_mem_nil, or_false] at hv
    show v < 4
    omega

theorem State.dmfChoose_kept {s u : State} (hr : RdKept (fun o => o < 0xD3000) s u) {i : Nat} (hi : i < 64) (acc : Nat) :
    u.dmfChoose i acc = s.dmfChoose i acc := by
  have h : u.rd (R.STR_DEF i) = s.rd (R.STR_DEF i) := hr _ (by unfold R.STR_DEF; omega)
  unfold State.dmfChoose State.verAllowed
  rw [h]

/-- The version of a stream is asked for, or its negotiation has failed. -/
def State.verSet (s : State) (i c : Nat) : State := if c ≠ 0 then s.setF (F.STR_VER_REQ i) c else s.setF (F.STR_VER_NEG_FAIL i) 1

theorem State.dmfCaps_run {body : List Byte} {i : Nat} (hlen : body.length = 4) (hi : leAt body 0 1 = i) (hlt : i < 64) (k : Nat) :
    ∃ a, s.dmfCaps k body = (a, s.verSet i (s.dmfChoose i (leAt body 1 1))) := by
  subst hi
  unfold State.dmfCaps
  dsimp only
  rw [if_neg (not_not_intro hlen)]
  refine ⟨_, congrArg (Prod.mk _) ?_⟩
  simp only [decide_eq_true hlt, if_true]
  rfl

theorem State.verSet_result (i : Nat) {c : Nat} (hc : c < 4) :
    Keeps [.regs] s (s.verSet i c) ∧ RegsKept [R.STR_VER i] s (s.verSet i c) ∧ (c ≠ 0 → (s.verSet i c).getF (F.STR_VER_REQ i) = c) ∧
      (c = 0 → (s.verSet i c).getF (F.STR_VER_NEG_FAIL i) = 1) := by
  unfold State.verSet
  by_cases h : c ≠ 0
  · rw [if_pos h]
    exact ⟨(Keeps.refl _ s).setF _ _ (by decide), (RegsKept.refl _ s).setF _ _ List.mem_cons_self,
      fun _ => (getF_setF_same s (F.STR_VER_REQ i) c (show 0 + 2 ≤ 32 by decide)).trans (Nat.mod_eq_of_lt hc),
      fun h0 => absurd h0 h⟩
  · rw [if_neg h]
    exact ⟨(Keeps.refl _ s).setF _ _ (by decide), (RegsKept.refl _ s).setF _ _ List.mem_cons_self, fun h0 => absurd h0 h,
      fun _ => getF_setF_same s (F.STR_VER_NEG_FAIL i) 1 (show 7 + 1 ≤ 32 by decide)⟩

/-! ### Sessions (R391-R402) -/

theorem updLenOk_data {body : List Byte} (h8 : 8 ≤ body.length) (h : body.length ≤ 8192) : updLenOk true body = true := by
  rw [updLenOk, decide_eq_true h8, if_pos rfl, decide_eq_true h]
  rfl

theorem updLenOk_command {body : List Byte} (h : body.length = 8) (data : Bool) : updLenOk data body = true := by
  rw [updLenOk, h]
  cases data <;> rfl

/-- What an UPD reply says follows the block's registers, the time, the image and the trial. -/
theorem State.updAns_kept {s u : State} (hr : RdKept (fun o => o / 0x10000 = 7) s u) {l : List Field} (hk : Keeps l s u)
    (hl : Field.time ∉ l ∧ Field.upd ∉ l ∧ Field.image ∉ l ∧ Field.flash ∉ l) (n : Nat) : u.updAns n = s.updAns n := by
  have htime : u.time = s.time := hk .time hl.1
  have hupd : u.upd = s.upd := hk .upd hl.2.1
  have himage : u.image = s.image := hk .image hl.2.2.1
  have hst : u.updSt = s.updSt := hr.getF F.UPD_STATUS_STATE (by decide)
  have hleft : u.updReg R.UPD_WINDOW_LEFT = s.updReg R.UPD_WINDOW_LEFT := by
    have heq (x : State) : x.updReg R.UPD_WINDOW_LEFT = if x.updSt = 9 then lo32 ((x.windowTicks - (x.tick - x.upd.from0)) / 500000) else 0#32 := rfl
    have htick : u.tick = s.tick := congrArg (fun y : TimeState => y.frc.toNat) htime
    have hwin : u.windowTicks = s.windowTicks := by rw [State.windowTicks, State.windowTicks, State.health, State.health, himage]
    rw [heq, heq, hst, hwin, htick, hupd]
  unfold State.updAns
  rw [hst, hleft, hr.getF F.UPD_STATUS_ERR (by decide), hr.getF F.UPD_STATUS_SECTION (by decide), hr.getF F.UPD_OFFSET_NEXT (by decide)]

theorem State.updBy_owner {sub_ : Nat} {body : List Byte} (hlen : updLenOk (sub_ == 2) body = true) (ho : s.updOwner = 3) (f : State → State) :
    ∃ a, s.updBy sub_ body f = (a, f s.updTouch) := by
  unfold State.updBy
  rw [hlen, State.updOwned_owner (id := .netm) ho, if_pos (show s.updOwner = Ident.netm.num from ho)]
  exact ⟨_, rfl⟩

theorem State.updBy_other {sub_ : Nat} {body : List Byte} (hlen : updLenOk (sub_ == 2) body = true) (ho : s.updOwner ≠ 3) (f : State → State) :
    s.updBy sub_ body f = (⟨4, s.updOwner, s.deny.updAns sub_⟩, s.deny) := by
  unfold State.updBy
  rw [hlen, State.updOwned_other (id := .netm) ho, if_neg (show s.updOwner ≠ Ident.netm.num from ho)]
  rfl

theorem State.updAny_run {body : List Byte} (hlen : body.length = 8) (sub_ : Nat) (f : State → State) :
    s.updAny sub_ body f = (ansOk ((f s).updAns sub_), f s) := by
  unfold State.updAny
  rw [updLenOk_command hlen]
  rfl

theorem State.dmfOpen_run {body : List Byte} (hlen : body.length = 8) (hd : s.domOn (domainOf R.UPD_SESSION) = true) (k : Nat) :
    ∃ a, s.dmfOpen k body = (a, (s.updOpen .netm).2.bpReg .netm R.UPD_SESSION false) := by
  unfold State.dmfOpen
  rw [updLenOk_command hlen, s.gatedRead_on .netm R.UPD_SESSION _ rfl hd]
  simp only [Bool.not_true, Bool.false_eq_true, if_false]
  split <;> exact ⟨_, rfl⟩

/-- Whether an activation needs a re-form follows the slots, the image in use and the port modes. -/
theorem State.partialImage_kept {s u : State} {l : List Field} (hk : Keeps l s u) (hl : Field.flash ∉ l ∧ Field.image ∉ l)
    (hc : u.upd.carried = s.upd.carried) (hr : RdKept (fun o => 0xD0000 ≤ o ∧ besideDmf o) s u) : u.partialImage = s.partialImage := by
  have hflash : u.flash = s.flash := hk .flash hl.1
  have himage : u.image = s.image := hk .image hl.2
  have hmode (p : Nat) : u.portMode p = s.portMode p :=
    hr.getF (F.NET_PORT_INFO_MODE p) (by show 0xD0000 ≤ R.NET_PORT_INFO p ∧ besideDmf (R.NET_PORT_INFO p); unfold besideDmf R.NET_PORT_INFO; omega)
  unfold State.partialImage State.ownSecs State.slot State.jOther State.jActive
  simp only [hflash, himage, hc, hmode]

end

end Sys2Proof.Machine
end

section
/-!
SUPPORT. O55: the rows of the agent.
-/

namespace Sys2Proof.Machine

section

variable {s : State} {p : Nat} {b : List Byte} {rest : List (Nat × List Byte)}

/-! ### The rows -/

theorem damufRows_exec (s : State) : ∀ c ∈ damufRows, ∃ mine run, exec c s = .next (s.damuf mine run) := by
  simp only [damufRows, List.forall_mem_cons]
  exact ⟨⟨_, _, rfl⟩, ⟨_, _, rfl⟩, ⟨_, _, rfl⟩, ⟨_, _, rfl⟩, ⟨_, _, rfl⟩, ⟨_, _, rfl⟩, ⟨_, _, rfl⟩, ⟨_, _, rfl⟩, ⟨_, _, rfl⟩, ⟨_, _, rfl⟩,
    ⟨_, _, rfl⟩, nofun⟩

theorem damufUpdRows_exec (s : State) : ∀ y ∈ damufUpdRows, ∃ run, exec y.1 s = .next (s.damuf (mineUpd y.2) run) := by
  simp only [damufUpdRows, List.forall_mem_cons]
  exact ⟨⟨_, rfl⟩, ⟨_, rfl⟩, ⟨_, rfl⟩, ⟨_, rfl⟩, ⟨_, rfl⟩, ⟨_, rfl⟩, ⟨_, rfl⟩, ⟨_, rfl⟩, nofun⟩

/-- The rows whose command only the owner of the session may give. -/
theorem ownerRows_exec (s : State) : ∀ y ∈ [(Instr.damufData, 2), (Instr.damufActivate, 3), (Instr.damufAbort, 4), (Instr.damufClose, 8)],
    ∃ f : List Byte → State → State, exec y.1 s = .next (s.damuf (mineUpd y.2) (fun t _ b => t.updBy y.2 b (f b))) := by
  simp only [List.forall_mem_cons]
  exact ⟨⟨_, rfl⟩, ⟨_, rfl⟩, ⟨_, rfl⟩, ⟨_, rfl⟩, nofun⟩

/-- The record of a failed request is of the first one since the count was read. -/
theorem State.dmfFailed_recq (s : State) (p : Nat) (b : List Byte) (w : DmfFail) :
    (s.firsts.contains w.counter.off = true → (s.dmfFailed p b w).recq = s.recq) ∧
      (s.firsts.contains w.counter.off = false → ∃ r, (s.dmfFailed p b w).recq = s.recq ++ [r] ∧ r.typ = 0x0D05) := by
  unfold State.dmfFailed State.firstOf
  refine ⟨fun h => ?_, fun h => ?_⟩
  · rw [if_pos (show (s.bump w.counter).firsts.contains w.counter.off = true from h)]
    rfl
  · rw [if_neg (show ¬ (s.bump w.counter).firsts.contains w.counter.off = true by rw [show (s.bump w.counter).firsts = s.firsts from rfl, h]; decide)]
    exact ⟨_, rfl, rfl⟩

theorem DmfFail.counter_fits (w : DmfFail) : w.counter.lo + w.counter.width ≤ 32 ∧ w.counter.width = 32 := by cases w <;> decide

/-! ### What an accepted request finds -/

/-- The parts of the state that an operation on the session finds as they were. -/
structure Accepted (s t : State) : Prop where
  upd : t.upd = s.upd
  flash : t.flash = s.flash
  image : t.image = s.image
  tick : t.tick = s.tick
  owner : t.updOwner = s.updOwner
  state : t.updSt = s.updSt
  next : t.getF F.UPD_OFFSET_NEXT = s.getF F.UPD_OFFSET_NEXT
  answers : ∀ n, t.updAns n = s.updAns n

theorem State.accepted (ht : s.dmfTest (udpPayload b) = none) (rest : List (Nat × List Byte)) : Accepted s (s.dmfAccept b rest) := by
  have hf := s.dmfAccept_frame ht rest
  have hr := s.dmfAccept_low ht rest
  refine ⟨hf.keeps .upd (by decide), hf.keeps .flash (by decide), hf.keeps .image (by decide),
    congrArg (fun y : TimeState => y.frc.toNat) (hf.keeps .time (by decide)), hr.getF F.UPD_SESSION_OWNER (by decide),
    hr.getF F.UPD_STATUS_STATE (by decide), hr.getF F.UPD_OFFSET_NEXT (by decide), State.updAns_kept (hr.mono fun o ho => ?_) hf.keeps (by decide)⟩
  show o < 0xD3000
  omega

/-- A request to the session that is served: what the operation leaves is what it finds answered. -/
theorem State.dmfSend_shows (u : State) (p : Nat) (b w : List Byte) (a : DmfAns) :
    (u.dmfSend p b w a).updSt = u.updSt ∧ (u.dmfSend p b w a).updOwner = u.updOwner ∧ (u.dmfSend p b w a).upd = u.upd ∧
      (u.dmfSend p b w a).flash = u.flash ∧ (u.dmfSend p b w a).dmfQ = u.dmfQ ∧ (u.dmfSend p b w a).obs = u.obs ∧
      ∀ f, (u.dmfSend p b w a).getF f = u.getF f := by
  have hs := u.dmfSend_keeps p b w a
  have hr := hs .regs (by decide)
  exact ⟨State.getF_of_regs hr _, State.getF_of_regs hr _, hs .upd (by decide), hs .flash (by decide), hs .dmfQ (by decide), hs .obs (by decide),
    State.getF_of_regs hr⟩

/-- A request whose command on the session is refused. -/
theorem State.dmf_refused (h : s.dmfHead p b rest) {n : Nat} (ho : s.updOwner ≠ 3) :
    Keeps [.regs, .dmfQ, .ports, .freeCtr] s ((s.dmfAccept b rest).deny.dmfSend p b (udpPayload b) ⟨4, s.updOwner, s.updAns n⟩) ∧
      RegsKept (R.HIF_DENY :: dmfRegs b) s ((s.dmfAccept b rest).deny.dmfSend p b (udpPayload b) ⟨4, s.updOwner, s.updAns n⟩) ∧
      dmfServed s ((s.dmfAccept b rest).deny.dmfSend p b (udpPayload b) ⟨4, s.updOwner, s.updAns n⟩) p b rest ⟨4, s.updOwner, s.updAns n⟩ ∧
      ((s.dmfAccept b rest).deny.dmfSend p b (udpPayload b) ⟨4, s.updOwner, s.updAns n⟩).getF F.HIF_DENY_COUNT =
        (s.getF F.HIF_DENY_COUNT + 1) % 2 ^ 32 := by
  have ht := h.2.2.1
  have hk : Keeps [.regs] (s.dmfAccept b rest) (s.dmfAccept b rest).deny := (Keeps.refl _ _).deny (by decide)
  have hr : RegsKept [R.HIF_DENY] (s.dmfAccept b rest) (s.dmfAccept b rest).deny := (RegsKept.refl _ _).deny (by decide)
  have hcount : (s.dmfAccept b rest).deny.getF F.HIF_DENY_COUNT = (s.getF F.HIF_DENY_COUNT + 1) % 2 ^ 32 := by
    rw [State.deny, getF_bump_same _ _ (by decide), (s.dmfAccept_frame ht rest).rd.getF F.HIF_DENY_COUNT (by unfold besideDmf; decide)]
    rfl
  generalize (s.dmfAccept b rest).deny = u at hk hr hcount ⊢
  exact ⟨State.dmf_keeps ht hk _ _ (by decide) (by decide), s.dmf_regs hr _, State.dmf_served h hk (by decide)
    (RdKept.of_regsKept hr fun o ho => by
      unfold servedReg R.STR_HUB_ID at ho
      unfold R.HIF_DENY
      rw [List.mem_singleton]
      omega), ((u.dmfSend_shows _ _ _ _).2.2.2.2.2.2 _).trans hcount⟩

/-- ABORT and CLOSE by the owner of a live session. -/
theorem State.dmfEnd_run {t : State} {n : Nat} {body : List Byte} (hlen : body.length = 8) (ho : t.updOwner = 3) (h1 : 1 ≤ t.updSt) (h6 : t.updSt ≤ 6) :
    ∃ a u, t.dmfEnd n body = (a, u) ∧ Keeps sessionFields t u ∧ u.updSt = 0 ∧ u.updOwner = 0 ∧ (t.updSt ≠ 6 → u.getF F.UPD_STATUS_ERR = 0x0E) := by
  have hlive : t.updTouch.updLive = true := by
    show (decide (1 ≤ t.updSt) && decide (t.updSt ≤ 6)) = true
    rw [decide_eq_true h1, decide_eq_true h6]
    rfl
  obtain ⟨a, ha⟩ := State.updBy_owner (sub_ := n) (updLenOk_command hlen _) ho (fun s => if s.updLive then s.updEnd Ident.netm.num else s)
  obtain ⟨hk, hst, hown, -, herr, -⟩ := t.updTouch.updEnd_result Ident.netm.num
  refine ⟨a, _, ha.trans (congrArg (Prod.mk a) (if_pos hlive)), t.updTouch_keeps.of_mono hk _ (by decide) (by decide), hst, hown, fun hne => ?_⟩
  rw [herr, if_neg (show t.updTouch.updSt ≠ 6 from hne)]

/-! ### READ, WRITE and CAPS as rows -/

theorem State.damufWrite_other (hq : s.dmfQ = (p, b) :: rest) (ht : s.dmfTest (udpPayload b) = none) (h : dmfOp (udpPayload b) ≠ 2) :
    exec .damufWrite s = .next s :=
  congrArg Host.Outcome.next (State.damuf_other hq ht (mine := fun op _ => op == 2) (.inl (beq_false_of_ne h)) _)

theorem State.damufCaps_other (hq : s.dmfQ = (p, b) :: rest) (ht : s.dmfTest (udpPayload b) = none) (h : dmfOp (udpPayload b) ≠ 3) :
    exec .damufCaps s = .next s :=
  congrArg Host.Outcome.next (State.damuf_other hq ht (mine := fun op _ => op == 3) (.inl (beq_false_of_ne h)) _)

theorem State.damufRead_row (h : s.dmfHead p b rest) (hm : dmfMineRead (dmfOp (udpPayload b)) (leAt (udpPayload b) 32 1) = true) {a : DmfAns}
    {u : State} (hrun : (s.dmfAccept b rest).damufRead (dmfOp (udpPayload b)) (dmfKey (udpPayload b)) (dmfBody (udpPayload b)) = (a, u)) :
    exec .damufRead s = .next (u.dmfSend p b (udpPayload b) a) := by
  have hop : s.dmfHeadOp = dmfOp (udpPayload b) := by rw [State.dmfHeadOp, h.1]
  refine congrArg Host.Outcome.next (State.damuf_serves h (mine := dmfMineRead) hm ?_)
  rw [hop]
  exact hrun

theorem State.damufWrite_row (h : s.dmfHead p b rest) (hop : dmfOp (udpPayload b) = 2) {a : DmfAns} {u : State}
    (hrun : (s.dmfAccept b rest).dmfWrite (dmfKey (udpPayload b)) (dmfBody (udpPayload b)) = (a, u)) :
    exec .damufWrite s = .next (u.dmfSend p b (udpPayload b) a) :=
  congrArg Host.Outcome.next (State.damuf_serves h (mine := fun op _ => op == 2) (beq_iff_eq.mpr hop) hrun)

theorem State.damufCaps_row (h : s.dmfHead p b rest) (hop : dmfOp (udpPayload b) = 3) {a : DmfAns} {u : State}
    (hrun : (s.dmfAccept b rest).dmfCaps (dmfKey (udpPayload b)) (dmfBody (udpPayload b)) = (a, u)) :
    exec .damufCaps s = .next (u.dmfSend p b (udpPayload b) a) :=
  congrArg Host.Outcome.next (State.damuf_serves h (mine := fun op _ => op == 3) (beq_iff_eq.mpr hop) hrun)

/-- A row of a session command serves the requests of its number. -/
theorem State.damufUpd_row (h : s.dmfHead p b rest) (hop : dmfOp (udpPayload b) = 4) {n : Nat} (hn : leAt (udpPayload b) 32 1 = n) {c : Instr}
    {run : DmfRun} (hc : exec c s = .next (s.damuf (mineUpd n) run)) {a : DmfAns} {u : State}
    (hrun : run (s.dmfAccept b rest) (dmfKey (udpPayload b)) (dmfBody (udpPayload b)) = (a, u)) :
    exec c s = .next (u.dmfSend p b (udpPayload b) a) := by
  have hm : mineUpd n (dmfOp (udpPayload b)) (leAt (udpPayload b) 32 1) = true := by
    rw [mineUpd, hop, hn, beq_self_eq_true, beq_self_eq_true]
    rfl
  rw [hc, State.damuf_serves h hm hrun]

/-- An OP or a subop that does not exist is answered and does nothing. -/
theorem State.damufRead_bad (h : s.dmfTest (udpPayload b) = none) (t : State) {op : Nat} (hop : op ≠ 1) (k : Nat) (body : List Byte) :
    ∃ a, t.damufRead op k body = (a, t) ∧ (op ≠ 4 → a = ansBadOp) := by
  unfold State.damufRead
  rw [if_neg hop]
  split
  · rename_i hc
    exact ⟨_, rfl, fun hne => absurd hc.1 hne⟩
  · exact ⟨_, rfl, fun _ => rfl⟩

theorem dmfWriteRegs_unserved : ∀ off ∈ dmfWriteRegs, ¬ servedReg off := by
  unfold servedReg
  decide

/-- A field that stays is one that the change leaves. -/
theorem Keeps.without {l : List Field} {f : Field} {t u : State} (h : Keeps (f :: l) t u) (hf : f.same t u) : Keeps l t u := fun g hg => by
  by_cases he : g = f
  · exact he ▸ hf
  · exact h g (fun hm => (List.mem_cons.mp hm).elim he hg)

/-- The write of a plain register as the agent does it. -/
theorem State.dmfWritten {off : Nat} (hmem : off ∈ dmfWriteRegs) (t : State) (v : Word) :
    Keeps [.regs, .dbg] t ((t.writeEff .netm off v).bpReg .netm off true) ∧ RegsKept [off] t ((t.writeEff .netm off v).bpReg .netm off true) ∧
      ((t.writeEff .netm off v).bpReg .netm off true).rd off =
        if limitsOk off v then (t.rd off &&& ~~~accMask .rw off) ||| (v &&& accMask .rw off) else t.rd off := by
  obtain ⟨hrw, hsy, -⟩ := dmfWriteRegs_codes off hmem
  obtain ⟨hk, hr, hobs, -, hval⟩ := rwRegs_result .netm v hrw (s := t) rfl
  have hk' : Keeps [.regs] t (t.writeEff .netm off v) := Keeps.without (f := .obs) (hk.mono (by decide)) (hobs hsy)
  exact ⟨(hk'.mono (by decide)).bpReg _ _ _ (by decide), hr.bpReg _ _ _, hval⟩

/-! ### The commands of a session on the accepted request -/

/-- A read of UPD_SESSION. -/
theorem State.updOpen_result (t : State) (id : Ident) : Keeps [.regs, .recq, .pwr, .upd] t (t.updOpen id).2 ∧
    (t.updOwner = 0 → (t.updOpen id).2.updOwner = id.num ∧ (t.updOpen id).2.updSt = if t.jState = 2 then 6 else 1) ∧
    (t.updOwner ≠ 0 → (t.updOpen id).2 = t) := by
  by_cases ho : t.updOwner = 0
  · obtain ⟨hk, hown, hst, -⟩ := t.opened_result id
    rw [State.updOpen_free ho]
    exact ⟨hk, fun _ => ⟨hown, hst⟩, fun h => absurd ho h⟩
  · rw [State.updOpen_taken ho]
    exact ⟨Keeps.refl _ t, fun h => absurd h ho, fun _ => rfl⟩

/-- DATA: bytes at UPD_OFFSET. -/
def State.dataTake (s : State) (body : List Byte) : State := if leAt body 4 4 = s.getF F.UPD_OFFSET_NEXT then s.updTake (body.drop 8) else s

theorem State.dataTake_result (t : State) (body : List Byte) : Keeps takeFields t (t.updTouch.dataTake body) ∧
    (leAt body 4 4 ≠ t.getF F.UPD_OFFSET_NEXT → t.updTouch.dataTake body = t.updTouch) ∧
    (leAt body 4 4 = t.getF F.UPD_OFFSET_NEXT → t.updSt = 1 → t.upd.buf.length + body.length < 4104 → 8 ≤ body.length →
      (t.updTouch.dataTake body).upd = { t.upd with last := t.tick, buf := t.upd.buf ++ body.drop 8 } ∧
      (t.updTouch.dataTake body).getF F.UPD_OFFSET_NEXT = t.upd.buf.length + (body.length - 8)) := by
  refine ⟨?_, fun h => if_neg h, fun h h1 hl h8 => ?_⟩
  · exact t.updTouch_keeps.of_mono (Keeps.ite (fun _ => t.updTouch.updTake_keeps _) fun _ => Keeps.refl _ _) takeFields (by decide) (by decide)
  · have hlen : (t.upd.buf ++ body.drop 8).length = t.upd.buf.length + (body.length - 8) := by rw [List.length_append, List.length_drop]
    obtain ⟨hu, hn⟩ := State.updTake_gathers (s := t.updTouch) (b := body.drop 8) (.inl h1) (by
      show (t.upd.buf ++ body.drop 8).length < 4096
      omega)
    have heq : t.updTouch.dataTake body = t.updTouch.updTake (body.drop 8) := if_pos h
    rw [heq]
    exact ⟨hu, hn.trans hlen⟩

/-- ACTIVATE, with AT_SN as the request says. -/
theorem State.activated_result (t : State) (n : Nat) :
    Keeps activateFields t (t.updTouch.setF F.UPD_CTRL_AT_SN n).updActivate ∧
      (t.updSt = 6 → t.partialImage = none → t.updOwner = 3 → (t.updTouch.setF F.UPD_CTRL_AT_SN n).updActivate.updSt = 7 ∧
        (t.updTouch.setF F.UPD_CTRL_AT_SN n).updActivate.updOwner = 5 ∧ (t.updTouch.setF F.UPD_CTRL_AT_SN n).updActivate.upd.owner = 3) := by
  have hk : Keeps [.regs, .upd] t (t.updTouch.setF F.UPD_CTRL_AT_SN n) := (t.updTouch_keeps.mono (by decide)).setF _ _ (by decide)
  have hr : RdKept (fun o => o ≠ R.UPD_CTRL) t (t.updTouch.setF F.UPD_CTRL_AT_SN n) :=
    RdKept.setF (RdKept.refl _ _ : RdKept _ t t.updTouch) _ _ fun h => h rfl
  have hc : (t.updTouch.setF F.UPD_CTRL_AT_SN n).upd.carried = t.upd.carried := rfl
  generalize t.updTouch.setF F.UPD_CTRL_AT_SN n = u at hk hr hc ⊢
  refine ⟨(hk.mono (by decide)).trans u.updActivate_keeps, fun h6 hp ho => ?_⟩
  have hpart : u.partialImage = t.partialImage := State.partialImage_kept hk (by decide) hc (hr.mono fun o ho => by unfold R.UPD_CTRL; omega)
  obtain ⟨-, hst, hown, howner, -⟩ := State.updActivate_full_result ((hr.getF F.UPD_STATUS_STATE (by decide)).trans h6) (hpart.trans hp)
  exact ⟨hst, hown, howner.trans ((hr.getF F.UPD_SESSION_OWNER (by decide)).trans ho)⟩

section

variable (h : s.dmfHead p b rest) (hop : dmfOp (udpPayload b) = 4)
include h hop

/-- OPEN: a free lock is acquired, and a taken one stays with its owner. -/
theorem State.damufOpen_served (hn : leAt (udpPayload b) 32 1 = 1)
    (hlen : (dmfBody (udpPayload b)).length = 8) (hd : s.domOn (domainOf R.UPD_SESSION) = true) :
    ∃ t, exec .damufOpen s = .next t ∧ Keeps [.regs, .recq, .pwr, .upd, .dmfQ, .ports, .freeCtr, .dbg, .obs] s t ∧ t.dmfQ = rest ∧
      (s.updOwner = 0 → t.updOwner = 3 ∧ t.updSt = if s.jState = 2 then 6 else 1) ∧
      (s.updOwner ≠ 0 → t.updOwner = s.updOwner ∧ t.updSt = s.updSt ∧ t.upd = s.upd) := by
  have ht := h.2.2.1
  have acc := State.accepted ht rest
  obtain ⟨a, hrun⟩ := (s.dmfAccept b rest).dmfOpen_run hlen ((State.dmfAccept_domOn ht _).trans hd) (dmfKey (udpPayload b))
  obtain ⟨hk, hfree, htaken⟩ := (s.dmfAccept b rest).updOpen_result .netm
  have hj : (s.dmfAccept b rest).jState = s.jState := by rw [State.jState, State.jState, acc.flash]
  rw [acc.owner, hj] at hfree
  rw [acc.owner] at htaken
  generalize ((s.dmfAccept b rest).updOpen .netm).2 = u at hk hfree htaken hrun
  have hkb : Keeps [.regs, .recq, .pwr, .upd, .dbg] (s.dmfAccept b rest) (u.bpReg .netm R.UPD_SESSION false) :=
    (hk.mono (by decide)).bpReg _ _ _ (by decide)
  obtain ⟨hst, hown, hupd, -, hq, -⟩ := (u.bpReg .netm R.UPD_SESSION false).dmfSend_shows p b (udpPayload b) a
  refine ⟨_, State.damufUpd_row h hop hn rfl hrun, State.dmf_keeps ht hkb _ _ (by decide) (by decide), hq.trans (hkb .dmfQ (by decide)),
    fun h0 => ?_, fun h0 => ?_⟩
  · obtain ⟨h1, h2⟩ := hfree h0
    exact ⟨hown.trans h1, hst.trans h2⟩
  · have hu := htaken h0
    subst hu
    exact ⟨hown.trans acc.owner, hst.trans acc.state, hupd.trans acc.upd⟩

/-- DATA by the owner: bytes at UPD_OFFSET gather, others are ignored. -/
theorem State.damufData_served (h8 : 8 ≤ (dmfBody (udpPayload b)).length)
    (hmax : (dmfBody (udpPayload b)).length ≤ 8192) (hn : leAt (udpPayload b) 32 1 = 2) (ho : s.updOwner = 3) :
    ∃ t, exec .damufData s = .next t ∧ Keeps [.regs, .recq, .pwr, .upd, .flash, .mnt, .host, .obs, .dmfQ, .ports, .freeCtr] s t ∧
      t.dmfQ = rest ∧
      (leAt (dmfBody (udpPayload b)) 4 4 ≠ s.getF F.UPD_OFFSET_NEXT → t.upd = { s.upd with last := s.tick } ∧ t.flash = s.flash) ∧
      (leAt (dmfBody (udpPayload b)) 4 4 = s.getF F.UPD_OFFSET_NEXT → s.updSt = 1 →
        s.upd.buf.length + (dmfBody (udpPayload b)).length < 4104 →
        t.upd = { s.upd with last := s.tick, buf := s.upd.buf ++ (dmfBody (udpPayload b)).drop 8 } ∧
        t.getF F.UPD_OFFSET_NEXT = s.upd.buf.length + ((dmfBody (udpPayload b)).length - 8)) := by
  have ht := h.2.2.1
  have acc := State.accepted ht rest
  obtain ⟨a, hrun⟩ := State.updBy_owner (sub_ := 2) (updLenOk_data h8 hmax) (acc.owner.trans ho) (·.dataTake (dmfBody (udpPayload b)))
  obtain ⟨hk, hskip, htake⟩ := (s.dmfAccept b rest).dataTake_result (dmfBody (udpPayload b))
  rw [acc.next] at hskip htake
  rw [acc.state, acc.upd, acc.tick] at htake
  have hskip' (h0 : leAt (dmfBody (udpPayload b)) 4 4 ≠ s.getF F.UPD_OFFSET_NEXT) :
      ((s.dmfAccept b rest).updTouch.dataTake (dmfBody (udpPayload b))).upd = { s.upd with last := s.tick } ∧
      ((s.dmfAccept b rest).updTouch.dataTake (dmfBody (udpPayload b))).flash = s.flash := by
    rw [hskip h0]
    exact ⟨by rw [State.updTouch, acc.tick, acc.upd], acc.flash⟩
  generalize (s.dmfAccept b rest).updTouch.dataTake (dmfBody (udpPayload b)) = u at hk hskip' htake hrun
  obtain ⟨-, -, hupd, hfl, hq, -, hfld⟩ := u.dmfSend_shows p b (udpPayload b) a
  refine ⟨_, State.damufUpd_row h hop hn rfl hrun, State.dmf_keeps ht hk _ _ (by decide) (by decide), hq.trans (hk .dmfQ (by decide)),
    fun h0 => ?_, fun h0 h1 hl => ?_⟩
  · exact ⟨hupd.trans (hskip' h0).1, hfl.trans (hskip' h0).2⟩
  · obtain ⟨hu, hnext⟩ := htake h0 h1 hl h8
    exact ⟨hupd.trans hu, (hfld _).trans hnext⟩

/-- ACTIVATE by the owner of a staged image that needs a re-form. -/
theorem State.damufActivate_served (hn : leAt (udpPayload b) 32 1 = 3)
    (hlen : (dmfBody (udpPayload b)).length = 8) (ho : s.updOwner = 3) :
    ∃ t, exec .damufActivate s = .next t ∧
      Keeps [.regs, .recq, .pwr, .upd, .flash, .mnt, .cal, .reform, .dbg, .setLog, .image, .host, .obs, .dmfQ, .ports, .freeCtr] s t ∧
      t.dmfQ = rest ∧ (s.updSt = 6 → s.partialImage = none → t.updSt = 7 ∧ t.updOwner = 5 ∧ t.upd.owner = 3) := by
  have ht := h.2.2.1
  have acc := State.accepted ht rest
  obtain ⟨a, hrun⟩ := State.updBy_owner (sub_ := 3) (updLenOk_command hlen _) (acc.owner.trans ho)
    (fun t => (t.setF F.UPD_CTRL_AT_SN (leAt (dmfBody (udpPayload b)) 4 4 % 2)).updActivate)
  obtain ⟨hk, hfull⟩ := (s.dmfAccept b rest).activated_result (leAt (dmfBody (udpPayload b)) 4 4 % 2)
  have hpart : (s.dmfAccept b rest).partialImage = s.partialImage := State.partialImage_kept (s.dmfAccept_frame ht rest).keeps (by decide)
    (congrArg UpdState.carried acc.upd) ((s.dmfAccept_frame ht rest).rd.mono fun o ho => ho.2)
  rw [acc.state, acc.owner, hpart] at hfull
  generalize ((s.dmfAccept b rest).updTouch.setF F.UPD_CTRL_AT_SN (leAt (dmfBody (udpPayload b)) 4 4 % 2)).updActivate = u at hk hfull hrun
  obtain ⟨hst, hown, hupd, -, hq, -⟩ := u.dmfSend_shows p b (udpPayload b) a
  refine ⟨_, State.damufUpd_row h hop hn rfl hrun, State.dmf_keeps ht hk _ _ (by decide) (by decide), hq.trans (hk .dmfQ (by decide)),
    fun h6 hp => ?_⟩
  obtain ⟨h1, h2, h3⟩ := hfull h6 hp ho
  exact ⟨hst.trans h1, hown.trans h2, (congrArg UpdState.owner hupd).trans h3⟩

/-- ABORT and CLOSE by the owner end the session. -/
theorem State.damufEnd_served {y : Instr × Nat}
    (hy : y ∈ [(Instr.damufAbort, 4), (Instr.damufClose, 8)]) (hn : leAt (udpPayload b) 32 1 = y.2)
    (hlen : (dmfBody (udpPayload b)).length = 8) (ho : s.updOwner = 3) (h1 : 1 ≤ s.updSt) (h6 : s.updSt ≤ 6) :
    ∃ t, exec y.1 s = .next t ∧ Keeps [.regs, .recq, .pwr, .upd, .mnt, .dmfQ, .ports, .freeCtr] s t ∧ t.dmfQ = rest ∧
      t.updSt = 0 ∧ t.updOwner = 0 ∧ (s.updSt ≠ 6 → t.getF F.UPD_STATUS_ERR = 0x0E) := by
  have ht := h.2.2.1
  have acc := State.accepted ht rest
  obtain ⟨a, u, hrun, hk, hst, hown, herr⟩ := (s.dmfAccept b rest).dmfEnd_run (n := y.2) hlen (acc.owner.trans ho)
    (by rw [acc.state]; exact h1) (by rw [acc.state]; exact h6)
  rw [acc.state] at herr
  obtain ⟨hst', hown', -, -, hq, -, hfld⟩ := u.dmfSend_shows p b (udpPayload b) a
  have hexec : exec y.1 s = .next (s.damuf (mineUpd y.2) (fun t _ b => t.dmfEnd y.2 b)) := by
    simp only [List.mem_cons, List.not_mem_nil, or_false] at hy
    rcases hy with rfl | rfl <;> rfl
  exact ⟨_, State.damufUpd_row h hop hn hexec hrun, State.dmf_keeps ht hk _ _ (by decide) (by decide), hq.trans (hk .dmfQ (by decide)),
    hst'.trans hst, hown'.trans hown, fun hne => (hfld _).trans (herr hne)⟩

/-- STATUS is answered and does nothing else. -/
theorem State.damufStatus_served (hn : leAt (udpPayload b) 32 1 = 5)
    (hlen : (dmfBody (udpPayload b)).length = 8) :
    ∃ t, exec .damufStatus s = .next t ∧ Keeps [.regs, .dmfQ, .ports, .freeCtr] s t ∧ RegsKept (dmfRegs b) s t ∧
      dmfServed s t p b rest (ansOk (s.updAns 5)) := by
  have ht := h.2.2.1
  have hrun := (s.dmfAccept b rest).updAny_run hlen 5 id
  have hk : Keeps [] (s.dmfAccept b rest) (s.dmfAccept b rest) := Keeps.refl _ _
  rw [id, (State.accepted ht rest).answers] at hrun
  obtain ⟨hr, hs⟩ := State.dmf_quiet h hk (ansOk (s.updAns 5)) (by decide)
  exact ⟨_, State.damufUpd_row h hop hn rfl hrun, State.dmf_keeps ht hk _ _ (by decide) (by decide), hr, hs⟩

/-- CONFIRM in the window. -/
theorem State.damufConfirm_served (hn : leAt (udpPayload b) 32 1 = 6)
    (hlen : (dmfBody (udpPayload b)).length = 8) (h9 : s.updSt = 9) :
    ∃ t, exec .damufConfirm s = .next t ∧ Keeps [.regs, .upd, .dmfQ, .ports, .freeCtr] s t ∧ RegsKept (dmfRegs b) s t ∧
      t.dmfQ = rest ∧ t.upd = { s.upd with confirm := true } := by
  have ht := h.2.2.1
  have acc := State.accepted ht rest
  have hrun := (s.dmfAccept b rest).updAny_run hlen 6 State.confirmed
  have hu := (s.dmfAccept b rest).confirmed_cases.1 (acc.state.trans h9)
  have hk : Keeps [.upd] (s.dmfAccept b rest) (s.dmfAccept b rest).confirmed := hu ▸ (Keeps.refl _ _).upd _ (by decide)
  have hupd : (s.dmfAccept b rest).confirmed.upd = { s.upd with confirm := true } := by rw [hu, ← acc.upd]
  generalize (s.dmfAccept b rest).confirmed = u at hrun hk hupd
  obtain ⟨-, -, hupd', -, hq, -⟩ := u.dmfSend_shows p b (udpPayload b) (ansOk (u.updAns 6))
  exact ⟨_, State.damufUpd_row h hop hn rfl hrun, State.dmf_keeps ht hk _ _ (by decide) (by decide), (State.dmf_quiet h hk _ (by decide)).1,
    hq.trans (hk .dmfQ (by decide)), hupd'.trans hupd⟩

/-- REJECT in the window falls back. -/
theorem State.damufReject_served (hn : leAt (udpPayload b) 32 1 = 7)
    (hlen : (dmfBody (udpPayload b)).length = 8) (h9 : s.updSt = 9) :
    ∃ t, exec .damufReject s = .next t ∧
      Keeps [.regs, .recq, .pwr, .upd, .flash, .mnt, .cal, .reform, .dbg, .host, .obs, .dmfQ, .ports, .freeCtr] s t ∧ t.dmfQ = rest ∧
      t.updSt = 10 ∧ t.upd.cause = 1 := by
  have ht := h.2.2.1
  have acc := State.accepted ht rest
  have hrun := (s.dmfAccept b rest).updAny_run hlen 7 State.rejected
  have hu := (s.dmfAccept b rest).rejected_cases.1 (acc.state.trans h9)
  obtain ⟨hk, hst, hcause, -⟩ := (s.dmfAccept b rest).updFallback_result 1
  rw [hu] at hrun
  generalize (s.dmfAccept b rest).updFallback 1 = u at hrun hk hst hcause
  obtain ⟨hst', -, hupd, -, hq, -⟩ := u.dmfSend_shows p b (udpPayload b) (ansOk (u.updAns 7))
  exact ⟨_, State.damufUpd_row h hop hn rfl hrun, State.dmf_keeps ht hk _ _ (by decide) (by decide), hq.trans (hk .dmfQ (by decide)),
    hst'.trans hst, (congrArg UpdState.cause hupd).trans hcause⟩

/-- A command of the session by an agent that does not own it is answered BUSY. -/
theorem State.damufOwner_refused {y : Instr × Nat}
    (hy : y ∈ [(Instr.damufData, 2), (Instr.damufActivate, 3), (Instr.damufAbort, 4), (Instr.damufClose, 8)])
    (hn : leAt (udpPayload b) 32 1 = y.2) (hlen : (dmfBody (udpPayload b)).length = 8) (ho : s.updOwner ≠ 3) :
    ∃ t, exec y.1 s = .next t ∧ Keeps [.regs, .dmfQ, .ports, .freeCtr] s t ∧ RegsKept (R.HIF_DENY :: dmfRegs b) s t ∧
      dmfServed s t p b rest ⟨4, s.updOwner, s.updAns y.2⟩ ∧
      t.getF F.HIF_DENY_COUNT = (s.getF F.HIF_DENY_COUNT + 1) % 2 ^ 32 := by
  have ht := h.2.2.1
  have acc := State.accepted ht rest
  obtain ⟨f, hexec⟩ := ownerRows_exec s y hy
  have hrun := State.updBy_other (sub_ := y.2) (updLenOk_command hlen _) (show (s.dmfAccept b rest).updOwner ≠ 3 from acc.owner ▸ ho)
    (f (dmfBody (udpPayload b)))
  have hans : (s.dmfAccept b rest).deny.updAns y.2 = s.updAns y.2 := by
    have hk : Keeps [.regs] (s.dmfAccept b rest) (s.dmfAccept b rest).deny := (Keeps.refl _ _).deny (by decide)
    have hr : RdKept (fun o => o / 0x10000 = 7) (s.dmfAccept b rest) (s.dmfAccept b rest).deny := (RdKept.refl _ _).bump _ (by decide)
    exact (State.updAns_kept hr hk (by decide) _).trans (acc.answers _)
  rw [acc.owner, hans] at hrun
  exact ⟨_, State.damufUpd_row h hop hn hexec hrun, State.dmf_refused h ho⟩

end

end

end Sys2Proof.Machine

open Sys2Proof.Machine in
/-- Settles O55: each row is the service of the head, and each operation by what it runs on the accepted request. -/
theorem damufServes : Obligations.DamufServes := by
  unfold Obligations.DamufServes
  refine ⟨fun c s hc h => ?_, fun c s p b rest w hc hq hup ht => ?_, fun c s p b rest hc hq ht hw => ?_,
    fun s p b rest op x h hop hx => ?_, fun s p b rest off h hop hlen hoff hn hmem hd hf => ?_, fun s p b rest u h hu hm hop => ?_,
    fun s p b rest off v m h hop hlen hoff hn hv hmem hg hm => ?_, fun s p b rest i c h hop hlen hi hlt hc => ?_,
    fun s p b rest body h hop hbody h8 hmax => ?_⟩
  · obtain ⟨mine, run, he⟩ := damufRows_exec s c hc
    rw [he, State.damuf_idle h]
  · obtain ⟨mine, run, he⟩ := damufRows_exec s c hc
    obtain ⟨hfit, h32⟩ := w.counter_fits
    obtain ⟨hk, hr, hcount⟩ := ({ s with dmfQ := rest } : State).dmfFailed_result (p := p) b w hfit
    obtain ⟨hrec, hnew⟩ := ({ s with dmfQ := rest } : State).dmfFailed_recq p b w
    have hpop : Keeps [.dmfQ] s { s with dmfQ := rest } := (Keeps.refl _ s).dmfQ _ (by decide)
    rw [h32] at hcount
    exact ⟨_, he.trans (congrArg _ (State.damuf_fails hq hup ht mine run)), hpop.of_mono hk _ (by decide) (by decide), hr, hk .dmfQ (by decide), hcount,
      hrec, hnew⟩
  · obtain ⟨mine, run, he⟩ := damufRows_exec s c hc
    rw [he, State.damuf_other hq ht (.inr hw)]
  · obtain ⟨hq, -, ht, -, -, -⟩ := h
    subst hop hx
    refine ⟨fun hm => congrArg _ (State.damuf_other hq ht (.inl hm) _), fun hne => State.damufWrite_other hq ht hne,
      fun hne => State.damufCaps_other hq ht hne, fun y hy hne => ?_⟩
    obtain ⟨run, he⟩ := damufUpdRows_exec s y hy
    have hmine : mineUpd y.2 (dmfOp (udpPayload b)) (leAt (udpPayload b) 32 1) = false := by
      rw [mineUpd, Bool.and_eq_false_iff, beq_eq_false_iff_ne, beq_eq_false_iff_ne]
      exact not_and_or.mp hne
    rw [he, State.damuf_other hq ht (.inl hmine)]
  · have ht := h.2.2.1
    have hlow := (dmfReadRegs_codes off hmem).2.2.1
    have hrd : (s.dmfAccept b rest).rd off = s.rd off := s.dmfAccept_regs b rest off (dmfRegs_ne hlow b)
    have hfl : (s.dmfAccept b rest).flagged off = false := by
      rw [State.flagged, (s.dmfAccept_frame ht rest).keeps .shadows (by decide)]
      exact hf
    have hrun : (s.dmfAccept b rest).damufRead (dmfOp (udpPayload b)) (dmfKey (udpPayload b)) (dmfBody (udpPayload b)) =
        (⟨0, 0, wordsLe [s.rd off]⟩, (s.dmfAccept b rest).bpReg .netm off false) := by
      rw [State.damufRead, if_pos hop, ← hrd]
      exact State.dmfRead_plain hmem hfl ((State.dmfAccept_domOn ht _).trans hd) _ hlen hoff hn
    have hk : Keeps [.dbg] (s.dmfAccept b rest) ((s.dmfAccept b rest).bpReg .netm off false) := (Keeps.refl _ _).bpReg _ _ _ (by decide)
    obtain ⟨hr, hs⟩ := State.dmf_quiet h hk ⟨0, 0, wordsLe [s.rd off]⟩ (by decide)
    exact ⟨_, State.damufRead_row h (by rw [hop]; rfl) hrun, State.dmf_keeps ht hk _ _ (by decide) (by decide), hr, hs⟩
  · have ht := h.2.2.1
    subst hu
    obtain ⟨a, hrun, hbad⟩ := State.damufRead_bad ht (s.dmfAccept b rest) hop (dmfKey (udpPayload b)) (dmfBody (udpPayload b))
    have hk : Keeps [] (s.dmfAccept b rest) (s.dmfAccept b rest) := Keeps.refl _ _
    obtain ⟨hr, hs⟩ := State.dmf_quiet h hk a (by decide)
    exact ⟨_, State.damufRead_row h hm hrun, State.dmf_keeps ht hk _ _ (by decide) (by decide), hr, fun h4 => hbad h4 ▸ hs⟩
  · have ht := h.2.2.1
    have hlow := (dmfWriteRegs_codes off hmem).2.2.2.1
    have hrd : (s.dmfAccept b rest).rd off = s.rd off := s.dmfAccept_regs b rest off (dmfRegs_ne hlow b)
    obtain ⟨hk, hr, hval⟩ := (s.dmfAccept b rest).dmfWritten hmem v
    have hrun := State.dmfWrite_plain hmem (State.goes_accept (rest := rest) ht hg) (dmfKey (udpPayload b)) hlen hoff hn
    rw [← hv] at hrun
    rw [hrd, ← hm] at hval
    generalize ((s.dmfAccept b rest).writeEff .netm off v).bpReg .netm off true = u at hk hr hval hrun
    have hserved : RdKept servedReg (s.dmfAccept b rest) u := RdKept.of_regsKept hr fun o ho hm =>
      dmfWriteRegs_unserved off hmem (List.mem_singleton.mp hm ▸ ho)
    have hsame : (u.dmfSend p b (udpPayload b) ⟨0, 0, leBytes 4 1⟩).rd off = u.rd off := by
      rw [State.rd, State.rd, u.dmfSend_keeps p b (udpPayload b) _ .regs (by decide)]
    exact ⟨_, State.damufWrite_row h hop hrun, State.dmf_keeps ht hk _ _ (by decide) (by decide), s.dmf_regs hr _,
      State.dmf_served h hk (by decide) hserved, fun hok => by rw [hsame, hval, if_pos hok],
      fun hno => by rw [hsame, hval, if_neg (by rw [hno]; exact Bool.false_ne_true)]⟩
  · have ht := h.2.2.1
    obtain ⟨a, hrun⟩ := (s.dmfAccept b rest).dmfCaps_run hlen hi hlt (dmfKey (udpPayload b))
    rw [State.dmfChoose_kept (s.dmfAccept_low ht rest) hlt, ← hc] at hrun
    obtain ⟨hk, hr, hreq, hfail⟩ := (s.dmfAccept b rest).verSet_result i (hc ▸ s.dmfChoose_lt _ _)
    generalize (s.dmfAccept b rest).verSet i c = u at hk hr hreq hfail hrun
    obtain ⟨-, -, -, -, hq, -, hfld⟩ := u.dmfSend_shows p b (udpPayload b) a
    exact ⟨_, State.damufCaps_row h hop hrun, State.dmf_keeps ht hk _ _ (by decide) (by decide), s.dmf_regs hr _,
      hq.trans (hk .dmfQ (by decide)), fun h0 => (hfld _).trans (hreq h0), fun h0 => (hfld _).trans (hfail h0)⟩
  · subst hbody
    exact ⟨State.damufOpen_served h hop, State.damufData_served h hop h8 hmax, State.damufActivate_served h hop, fun y => State.damufEnd_served h hop,
      State.damufStatus_served h hop, State.damufConfirm_served h hop, State.damufReject_served h hop, fun y => State.damufOwner_refused h hop⟩

end
